-- ==== Sys2Proof/Word.lean ====
section
/-! DEFINITION. The word types of the model: bytes of records and frames, and the 32-bit register word (R7, R499). -/

namespace Sys2Proof

/-- One byte of a record, a frame or a tile. -/
abbrev Byte := BitVec 8

/-- A register or an SQE dword (R85, R499). -/
abbrev Word := BitVec 32

end Sys2Proof
end

