-- ==== Sys2Proof/Image.lean ====
section
/-! DEFINITION. The records of an Oxris image as they come out of its tiles (R506, R518): kind, number and bytes. The
manual gives every record's layout but not how records are framed inside the image's tiles. -/

namespace Sys2Proof

/-- The record kinds of an Oxris image (R518). -/
inductive RecKind where
  | groupMap
  | groupContext
  | coeffSet
  | linkScale
  | port
  | sensor
  | channel
  | aqaux
  | string
  | cls
  | ledgerTile
  | belfry
  | quantity
  | bisqueLimit
  /-- a kind that no format version defines, by its code (Table 02-11, content stage of 0x02) -/
  | other (code : Nat)
deriving DecidableEq, Repr

/-- One record of an image: its kind, the number of the thing it describes, and its bytes. A coefficient set's number is
8 times the group plus the band; a ledger tile's number is the tile, 128 entries of 32 bytes each; the class, the Belfry
record and the bisque limit record have number 0. -/
structure RawRec where
  kind : RecKind
  number : Nat
  bytes : List Byte
deriving DecidableEq, Repr

end Sys2Proof
end

