-- ==== Sys2Proof/Syntax.lean ====
section
/-! DEFINITION. The commands of the block: host commands as their submission queue entry, register accesses, bus and link
events, and the expiries of the device's own timers (the rows of the opcode table). -/

namespace Sys2Proof

/-- A PCIe physical function (R75). -/
inductive Fn where
  | pf0
  | pf1
deriving DecidableEq, Repr

/-- A submission queue entry with the ring it came from (Table 03-3): sixteen dwords. -/
structure Sqe where
  fn : Fn
  sq : Nat
  dw : List Word
deriving DecidableEq, Repr

/-- What the host-memory reads of a command's buffer returned: the bytes, or a failed read (R102, DMA_ERROR). -/
inductive HostRead where
  | data (bytes : List Byte)
  | error
deriving DecidableEq, Repr

/-- A Saggar link frame as it arrives whole (R41, R42): its direction, a 4-byte header of type, length and sequence number, its
payload, and the CRC-16-CCITT that came with it. The manual gives the types no codes and the header's bytes no places: 0 is a
probe, 1 the session crossing, 2 the PF1 tunnel and 3 the measurement crossing; one byte of type, one of length, two of
sequence number (DESIGN CHOICE, log entry 6). `ackProbe` and `serial` are what the frame tells beside: it acknowledges the
receiver's own latest probe, and the Saggar serial it names, if any (R386). -/
structure SaggarFrame where
  toSaggar : Bool
  type : Nat
  length : Nat
  seq : Nat
  payload : List Byte
  crc : Nat
  ackProbe : Bool
  serial : Option (BitVec 64)
deriving DecidableEq, Repr

/-- What a link's receiver takes for one frame: the running disparity before it and its 10-bit groups, bit a of each the most significant
(R217). -/
structure LineFrame where
  rd : Bool
  groups : List Nat
deriving DecidableEq, Repr

/-- A 10-bit group on a link: the running disparity before it, the group, and how many characters came since the link's
previous code error (R219). -/
structure RxGroup where
  rd : Bool
  group : Nat
  gap : Nat
deriving DecidableEq, Repr

/-- The outcome of a lockstep comparison (R189, R191). -/
inductive Compare where
  | equal
  | refiredEqual
  | mismatch
  | noTime
deriving DecidableEq, Repr

/-- How the sending of a vehicle frame ended (R266): sent, abandoned after 16 collisions, or its tile failed verification. -/
inductive SendOutcome where
  | sent
  | abandoned
  | badTile
deriving DecidableEq, Repr

/-- One conversion of a temperature sensor (R269 to R272): its value in 0.01 °C, and whether an internal sensor's self-test
failed with it. -/
structure Conversion where
  code : Int
  selfTestFail : Bool
deriving DecidableEq, Repr

/-- Why a load-switch channel trips (R299). -/
inductive TripCause where
  | short
  | overload
  | thermal
deriving DecidableEq, Repr

/-- Why a modulator channel is declared faulty (R316). -/
inductive ChanFault where
  | stuck
  | overrange
deriving DecidableEq, Repr

/-- An edge of BLK_ZC (R410) with the codes sampled on BLK_RX since the crossing before it, oldest first; the latest was sampled
`phase` ns before the edge. -/
structure ZeroCross where
  rising : Bool
  codes : List Nat
  phase : Nat
deriving DecidableEq, Repr


/-- The commands the block takes, one constructor per row of the opcode table. -/
inductive Instr where
  /-- NOP (R83): Admin command that echoes SQE dword 6 in its completion. -/
  | nop (q : Sqe)
  /-- CQ_CREATE (R80): Creates a completion ring with its size, base, interrupt enable and moderation. -/
  | cqCreate (q : Sqe)
  /-- SQ_CREATE (R80): Creates a submission ring bound for life to one existing CQ. -/
  | sqCreate (q : Sqe)
  /-- SQ_DELETE (R83): Stops fetching from an SQ, aborts its unforwarded commands and completes after the forwarded ones. -/
  | sqDelete (q : Sqe)
  /-- CQ_DELETE (R83): Deletes a CQ that has no bound SQ and is not the event CQ. -/
  | cqDelete (q : Sqe)
  /-- EVENT_CQ_SET (R106): Designates the event CQ of a function or none, and moves or discards pending event entries. -/
  | eventCqSet (q : Sqe)
  /-- CQ_MODERATE (R109): Changes a CQ's coalescing count and time from its next CQE. -/
  | cqModerate (q : Sqe)
  /-- IDENTIFY (R505): Writes the 4 KiB identify record from one Spire mirror update. -/
  | identify (q : Sqe)
  /-- ABORT (R84): Removes a fetched but unforwarded command from an SQ, or reports it already forwarded or not found. -/
  | abort (q : Sqe)
  /-- HQE_ENABLE (R115): Writing 1 to HQE_CTRL.enable clears HQE_FAULT_INFO and creates ring 0, or faults on a bad admin size. -/
  | hqeEnable (fn : Fn)
  /-- HQE_DISABLE (R100): Writing 0 to HQE_CTRL.enable ends every ring of the function and frees host tiles and stream channels. -/
  | hqeDisable (fn : Fn)
  /-- SQ_TAIL_DOORBELL (R88): A write of a new SQ tail index, which may start fetching or put the ring in fault. -/
  | sqTailDoorbell (fn : Fn) (n size : Nat) (val : Word)
  /-- CQ_HEAD_DOORBELL (R88): A write of a new CQ head index, which releases slots or puts the CQ in fault. -/
  | cqHeadDoorbell (fn : Fn) (n size : Nat) (val : Word)
  /-- SAGGAR_MISS_CLEAR (R500): Writing 1 to PF1 HQE_STATUS.saggar_miss clears it. -/
  | saggarMissClear
  /-- PF1_TUNNEL_READ (R500): A read of PF1 BAR 0 below 0x3000 is served through the tunnel, or returns all ones and sets saggar_miss while the link is down. -/
  | pf1TunnelRead (off size : Nat)
  /-- PF1_TUNNEL_WRITE (R500): A write to PF1 BAR 0 below 0x3000 is carried through the tunnel, or dropped with saggar_miss set while the link is down. -/
  | pf1TunnelWrite (off size : Nat) (val : Word)
  /-- REGISTER_WRITE (R499): A write to a register without behaviour of its own, stored, held for the next commit, or ignored as its access code and size require. -/
  | registerWrite (fn : Fn) (bar off size : Nat) (val : Word)
  /-- SQE_FETCH (R94): The HQE fetches the next SQE from a non-empty SQ whose CQ has room, by priority and round-robin. -/
  | sqeFetch
  /-- SQE_FORWARD (R95): A decoded SQE is forwarded to its owning island once its fence and the crossing allow. -/
  | sqeForward (fn : Fn) (sq : Nat)
  /-- CQE_POST (R90): A completion is written into its CQ once the CQ has room, followed by its MSI-X message as moderation allows. -/
  | cqePost
  /-- COALESCING_TIME_EXPIRY (R109): The coalescing time of a CQ passes since its first unsignalled CQE and the vector fires. -/
  | coalescingTimeExpiry (fn : Fn) (cq : Nat)
  /-- EVENT_VECTOR_HOLDOFF_END (R108): An event vector fires at the end of its 100 µs hold-off for occurrences within it. -/
  | eventVectorHoldoffEnd (fn : Fn) (vec : Nat)
  /-- EVENT_CQE_POST (R107): A pending event entry is posted to the event CQ once space exists, in order of first occurrence. -/
  | eventCqePost (fn : Fn)
  /-- HOST_READ_COMPLETION (R110): A completion for a host memory read arrives and frees its tag when last. -/
  | hostReadCompletion (tag : Nat) (data : List Byte) (ok last : Bool)
  /-- DMA_COMPLETION_TIMEOUT (R76): A host read's completion timeout expires, freeing the tag and failing the command with DMA_ERROR. -/
  | dmaCompletionTimeout (tag : Nat)
  /-- TUNNEL_ANSWER (R77): The Saggar's answer to a tunnelled PF1 command arrives and is written back with its CQE. -/
  | tunnelAnswer
  /-- TUNNEL_TIMEOUT (R101): No answer arrives within 5 s of forwarding and the command completes SAGGAR_UNREACHABLE with result 1. -/
  | tunnelTimeout (sq : Nat) (cid : Nat)
  /-- TILE_ALLOC (R129): Allocates host tiles from unreserved free pool tiles within the host limit, all or none. -/
  | tileAlloc (q : Sqe)
  /-- TILE_WRITE (R122): Writes host data into an OPEN host tile. -/
  | tileWrite (q : Sqe) (h : HostRead)
  /-- TILE_CLOSE (R122): Computes a host tile's check word, optionally compares it, and makes the tile CLOSED. -/
  | tileClose (q : Sqe)
  /-- TILE_READ (R124): Verifies a CLOSED host tile and delivers it to the host. -/
  | tileRead (q : Sqe) (bad : Bool)
  /-- TILE_FREE (R119): Frees a host tile and increments its generation. -/
  | tileFree (q : Sqe)
  /-- PAIR_RESTORE (R125): The TMF finishes copying the good copy of a pair into the retired index and the pair is restored. -/
  | pairRestore (idx : Nat)
  /-- STREAM_OPEN (R129): Opens a stream channel with its reserve, cap, mode and flush time. -/
  | streamOpen (q : Sqe)
  /-- STREAM_BUFFER (R131): Posts a host buffer to receive a stream channel's closed tiles. -/
  | streamBuffer (q : Sqe)
  /-- STREAM_CLOSE (R133): Stops a channel's producers, delivers or frees its tiles and completes its buffers. -/
  | streamClose (q : Sqe) (bad : List Nat)
  /-- STREAM_TILE_DELIVERY (R131): The HQE verifies and writes a channel's oldest closed tile into its oldest posted buffer and frees it. -/
  | streamTileDelivery (ch : Nat) (ok : Bool)
  /-- STREAM_TILE_FLUSH (R130): A stream tile's flush time passes since its first record and the producer closes it. -/
  | streamTileFlush (ch : Nat)
  /-- STREAM_BUFFER_FLUSH (R131): A stream buffer's flush time passes with at least one tile written and the buffer completes. -/
  | streamBufferFlush (ch : Nat)
  /-- CONFIG_COMMIT (R62): Starts validation and loading of an Oxris image named by its manifest tile. -/
  | configCommit (q : Sqe)
  /-- COMMIT_VALIDATION_DONE (R62): Validation and coefficient loading of a commit end, failing it with its reason or leaving it to await its admission boundary. -/
  | commitValidationDone (img : List RawRec) (bad : List Nat)
  /-- CONFIG_ABORT (R507): Stops a commit that has not passed validation, or reports it too late or absent. -/
  | configAbort (q : Sqe)
  /-- BISQUE_STORE (R58): Validates a bisque image and starts writing it into the inactive configuration slot. -/
  | bisqueStore (q : Sqe) (img : List RawRec) (bad : List Nat)
  /-- BISQUE_SLOT_WRITTEN (R58): The bisque slot write reads back valid, the slot is marked active and the command completes. -/
  | bisqueSlotWritten (ok : Bool)
  /-- BISQUE_ENTER (R67): Moves the device from WAIT_HOST into BISQUE when a valid bisque image exists. -/
  | bisqueEnter (q : Sqe)
  /-- SHIP_ENTER (R71): Gates groups, sets pilots not-ready, switches channels off, stops the charger, writes the journal and enters SHIP_PENDING. -/
  | shipEnter (q : Sqe)
  /-- SHIP_CANCEL (R72): MAIN_12V is still good 60 s after SHIP_PENDING and ship mode is cancelled. -/
  | shipCancel
  /-- TIME_SET (R508): Steps S-time or starts a slew toward a new S-time. -/
  | timeSet (q : Sqe)
  /-- SLEW_END (R508): A running S-time slew removes the last of the difference and ends. -/
  | slewEnd
  /-- JOURNAL_READ (R509): Returns fault journal records from a given seq. -/
  | journalRead (q : Sqe)
  /-- DEVICE_RESET (R510): Writes fault record 0x0003, posts its CQE and schedules a main-die reset 10 ms later. -/
  | deviceReset (q : Sqe)
  /-- DEVICE_RESET_ORDER (R510): The 10 ms after DEVICE_RESET expire and the main-die reset is ordered. -/
  | deviceResetOrder
  /-- UPDATE_STAGE (R447): Starts copying a verified, signed firmware image into the inactive slot. -/
  | updateStage (q : Sqe) (bad : List Nat)
  /-- UPDATE_STAGE_DONE (R447): The staged slot is programmed and read back, or marked invalid, and the command completes. -/
  | updateStageDone (ok : Bool)
  /-- UPDATE_SWITCH (R450): Switches to the staged firmware, live island by island or by restart. -/
  | updateSwitch (q : Sqe)
  /-- UPDATE_ROLLBACK (R453): Makes the fallback or valid inactive slot the target by the live or restart procedure. -/
  | updateRollback (q : Sqe)
  /-- ISLAND_BANK_SWITCH (R450): An island reaches its switch point after the previous island is ready and changes instruction bank. -/
  | islandBankSwitch (island : Nat)
  /-- UPDATE_RESTART_RESET (R451): 10 ms after a restart switch's CQE the main die is reset into the TRIAL slot. -/
  | updateRestartReset
  /-- TRIAL_END (R452): 600 s of trial uptime pass and the TRIAL slot becomes active. -/
  | trialEnd
  /-- POWER_GOOD (R46): MAIN_12V becomes power-good and the power-up sequence starts. -/
  | powerGood (mv : Nat)
  /-- POWER_FAIL (R50): MAIN_12V falls below 10.2 V; state becomes POWER_FAIL, links get safe frames, islands lose power and hold-up writes run. -/
  | powerFail
  /-- HOLDUP_READY (R491): 250 ms after power-good the hold-up becomes available and deferred Spire NVM writes start. -/
  | holdupReady
  /-- FIRMWARE_READ_DONE (R48): The active firmware slot has been read and checked at power-up, falling back or holding the die if invalid. -/
  | firmwareReadDone (ok : Bool)
  /-- BISQUE_ENTRY (R46): The bisque image check ends and the device enters BISQUE, or WAIT_HOST with reason NO_BISQUE. -/
  | bisqueEntry (bad : Option Nat)
  /-- ISLAND_READY (R47): A main-die island reports ready to the Spire, setting HQE_READY when all have. -/
  | islandReady (island : Nat)
  /-- WATCHDOG_MISS (R49): An island misses its watchdog report and the main die is reset with fault record 0x0002. -/
  | watchdogMiss (island : Nat)
  /-- MAIN_DIE_HOLD_END (R48): The 60 s hold of the main die in reset ends and the active slot boots again. -/
  | mainDieHoldEnd
  /-- PERST_ASSERT (R35): PERST# resets only the host island, ending rings and host tiles. -/
  | perstAssert
  /-- PERST_DEASSERT (R49): PERST# is released and the host island restarts and reports ready. -/
  | perstDeassert
  /-- SAGGAR_LINK_FRAME (R41): A Saggar link frame arrives whole and is checked, delivered or requested again. -/
  | saggarLinkFrame (f : SaggarFrame)
  /-- SAGGAR_LINK_PROBE (R42): While the link is down each end sends a probe frame every 1 ms. -/
  | saggarLinkProbe
  /-- SESSION_START (R144): Creates a SESSION entry in the lowest free ledger entry with a new session number. -/
  | sessionStart (q : Sqe)
  /-- SESSION_STOP (R163): Moves a session to STOPPING so its grant is 0 at the next gate, where it is freed. -/
  | sessionStop (q : Sqe)
  /-- SESSION_MODIFY (R166): Changes a session's tier, weight, minimum, maximum, ramp and tag in the write window. -/
  | sessionModify (q : Sqe)
  /-- LEDGER_WRITE (R144): Rewrites limits or CONSTRAINT entries within one ledger tile pair in the write window. -/
  | ledgerWrite (q : Sqe) (h : HostRead)
  /-- LEDGER_READ (R166): Returns ledger entries as the latest re-plan read them. -/
  | ledgerRead (q : Sqe)
  /-- PLAN_READ (R167): Returns the plan record that crossed the latest gate. -/
  | planRead (q : Sqe)
  /-- REST_REQUEST (R166): Sets a string to rest from the next gate for a stated time, or cancels it. -/
  | restRequest (q : Sqe)
  /-- REST_EXPIRY (R166): The time of a requested string rest runs out. -/
  | restExpiry (string : Nat)
  /-- EPOCH_BOUNDARY (R145): An epoch boundary increments the epoch number, snapshots the inputs and starts the re-plan. -/
  | epochBoundary (bad : List Nat)
  /-- REPLAN_COMPLETE (R146): The re-plan finishes and writes references and limits into the Kiln's shadow bank. -/
  | replanComplete
  /-- SETPOINT_GATE (R12): At 250 µs after the boundary the swap token carries the new references to the Kiln and the write window opens. -/
  | setpointGate (bad : List Nat)
  /-- WRITE_WINDOW_CLOSE (R148): The ledger write window closes 20 µs before the next boundary. -/
  | writeWindowClose
  /-- CREDIT_MESSAGE (R162): A CREDIT message from BTE reaches SPA and changes the session's state and credit input. -/
  | creditMessage
  /-- KILN_STATUS (R172): Returns a group's Kiln state record from one completed firing. -/
  | kilnStatus (q : Sqe)
  /-- COEFF_STAGE (R195): Verifies and loads one group's coefficient sets for admission at the next boundary. -/
  | coeffStage (q : Sqe) (bad : List Nat)
  /-- KILN_COUNTS (R192): Returns the Kiln fault counts of a range of groups. -/
  | kilnCounts (q : Sqe)
  /-- CAPTURE_SET (R194): Routes or stops a group's firings through the capture gate into a stream channel. -/
  | captureSet (q : Sqe)
  /-- SAMPLE_FRAME (R222): An upstream SAMPLE frame is received at its position, checked and unpacked for PSC and the Kiln. -/
  | sampleFrame (link : Nat) (rd : Bool) (sof : Nat) (groups : List Nat)
  /-- FRAME_MISSING (R222): No K27.7 arrives at a link's expected frame position and the frame counts as failed. -/
  | frameMissing (link : Nat)
  /-- FIRING (R188): A FIRING group's lane computes its control law once all member links have delivered or failed the sample. -/
  | firing (group : Nat) (first : Bool) (again : Option Bool)
  /-- FIRING_DEADLINE (R189): The firing deadline passes without a compared result and the firing misses. -/
  | firingDeadline (group : Nat)
  /-- COLLECTOR_SLOT (R193): The collector issues one ready link result into its downstream slot per 8 ns slot. -/
  | collectorSlot
  /-- COMMAND_FRAME (R218): A COMMAND frame starts at the next common-grid boundary after its result reaches the link slot. -/
  | commandFrame (link : Nat)
  /-- GROUP_STATUS (R199): Returns a group's PSC status record. -/
  | groupStatus (q : Sqe)
  /-- GROUP_RELEASE (R214): Restores lost phases, ends HELD or LOCKED, or clears a group's retry count. -/
  | groupRelease (q : Sqe)
  /-- GROUP_COUNTS (R214): Returns the PSC fault counts of a range of groups. -/
  | groupCounts (q : Sqe)
  /-- SHED_TICK (R205): Every 1 ms PSC evaluates adding and shedding phases of a RUNNING group. -/
  | shedTick (group : Nat)
  /-- CAPACITY_DELIVERY (R203): Every 8 µs, and on change, PSC delivers group capacity and voltage sums to the site island. -/
  | capacityDelivery (group : Nat)
  /-- GROUP_RETRY_TIMER (R211): A TRIPPED group's retry timer expires and it retries or locks. -/
  | groupRetryTimer (group : Nat)
  /-- GROUP_RETRY_CLEAR (R211): retry_clear seconds continuously in RUNNING return the retry count to 0. -/
  | groupRetryClear (group : Nat)
  /-- LATCH_REPORT (R212): TCM's latch report for a group reaches PSC, freezing or restarting its retry timers. -/
  | latchReport (group : Nat)
  /-- LINK_STATUS (R233): Returns link status records for a range of links. -/
  | linkStatus (q : Sqe)
  /-- LINK_RETRAIN (R240): Starts training a link and completes when it reaches UP, FAILED or OFF. -/
  | linkRetrain (q : Sqe)
  /-- LINK_MGMT (R241): Reads or writes a phase terminal register through an MGMT exchange. -/
  | linkMgmt (q : Sqe)
  /-- LINK_DISABLE (R239): Turns a link OFF with one safe command and makes its phase LOST with cause DISABLED. -/
  | linkDisable (q : Sqe)
  /-- TRAINING_ATTEMPT (R234): A link starts a training attempt through lock, echo, ident and sync. -/
  | trainingAttempt (link : Nat)
  /-- TRAINING_STEP_TIMEOUT (R234): A training step's limit expires and the attempt fails, leading to a new attempt or FAILED. -/
  | trainingStepTimeout (link : Nat)
  /-- RETRAIN_DELAY (R235): The 1 ms of idle commas after a failed attempt or an alignment loss ends and training restarts. -/
  | retrainDelay (link : Nat)
  /-- ECHO_ANSWER (R225): A terminal's ECHO answer arrives and E is measured. -/
  | echoAnswer (link : Nat) (f : LineFrame) (e : Nat)
  /-- MGMT_FRAME (R229): An upstream MGMT answer frame arrives and completes its request. -/
  | mgmtFrame (link : Nat) (rd : Bool) (groups : List Nat)
  /-- MGMT_SEND (R228): A pending downstream MGMT frame is sent in its link's window. -/
  | mgmtSend (link : Nat)
  /-- MGMT_TIMEOUT (R241): No MGMT answer arrives within 1 ms of the request. -/
  | mgmtTimeout (link : Nat)
  /-- CODE_ERROR (R219): A received character is a code error and is counted toward alignment loss. -/
  | codeError (link : Nat) (g : RxGroup)
  /-- LOSS_OF_SIGNAL (R235): A link's upstream signal is lost and the link goes DOWN with cause ALIGN. -/
  | lossOfSignal (link : Nat)
  /-- PORT_STATUS (R251): Returns port status records for a range of ports. -/
  | portStatus (q : Sqe)
  /-- PILOT_SET (R255): Sets a port's pilot mode, duty and energy flag, or clears its fault latch. -/
  | pilotSet (q : Sqe)
  /-- PILOT_CHANGE_EFFECT (R246): A new pilot mode or duty takes effect at the next rising edge or within 10 µs. -/
  | pilotChangeEffect (port : Nat)
  /-- PILOT_BAND_ACCEPT (R248): Consecutive samples or periods in a new band make it the accepted pilot band. -/
  | pilotBandAccept (port : Nat) (samples : List (List Int))
  /-- DIODE_FAULT_ACCEPT (R249): Two consecutive low-plateau periods above −10.5 V accept a diode fault. -/
  | diodeFaultAccept (port : Nat) (lows : List (List Int))
  /-- DIODE_FAULT_CLEAR (R249): Two consecutive periods without a diode fault clear an accepted diode fault. -/
  | diodeFaultClear (port : Nat) (lows : List (List Int))
  /-- PROXIMITY_BAND_ACCEPT (R250): Five consecutive readings in a new proximity band accept it. -/
  | proximityBandAccept (port : Nat) (readings : List Nat)
  /-- FRAME_TX (R266): Copies a host frame into a TX tile for sending on the port's PHY or modem. -/
  | frameTx (q : Sqe) (h : HostRead)
  /-- FRAME_RX_BUFFER (R265): Posts a host buffer for one received vehicle frame. -/
  | frameRxBuffer (q : Sqe)
  /-- VEHICLE_FRAME_RX (R265): A vehicle frame is received, checked and stored in an RX tile or dropped. -/
  | vehicleFrameRx (port : Nat) (data fcs : List Byte)
  /-- VEHICLE_FRAME_DELIVERY (R265): The oldest received frame is verified and delivered into a posted FRAME_RX_BUFFER. -/
  | vehicleFrameDelivery (port : Nat) (ok : Bool)
  /-- VEHICLE_FRAME_SENT (R266): A frame's last bit leaves the PHY, it is abandoned, or the modem accepts it, and FRAME_TX completes. -/
  | vehicleFrameSent (port : Nat) (outcome : SendOutcome)
  /-- MODEM_STATUS_POLL (R262): Every 100 ms VPC sends a STATUS transaction to a CCS port's modem. -/
  | modemStatusPoll (port : Nat) (answer : List Byte)
  /-- MODEM_RESET_END (R263): The 10 ms modem reset ends and polling resumes after 100 ms. -/
  | modemResetEnd (port : Nat)
  /-- MODEM_IRQ (R262): GP_IRQ_n low makes VPC read a frame from the modem with an RX transaction. -/
  | modemIrq (port : Nat) (answer crc : List Byte)
  /-- THERMAL_STATUS (R290): Returns thermal records for sensors, groups or ports. -/
  | thermalStatus (q : Sqe)
  /-- LATCH_CLEAR (R283): Clears Cone 3 and Cone 4 latches of one or every eligible sensor. -/
  | latchClear (q : Sqe)
  /-- AQAUX_SET (R288): Sets a port's Aqaux loop to AUTO or FORCE_ON for a duration. -/
  | aqauxSet (q : Sqe)
  /-- AQAUX_FORCE_EXPIRY (R288): A FORCE_ON duration runs out and the loop returns to AUTO. -/
  | aqauxForceExpiry (port : Nat)
  /-- THERMAL_TICK (R275): Every 10 ms TCM converts and evaluates every enabled sensor, its Cones, caps and the Aqaux loop. -/
  | thermalTick (raw : List Conversion)
  /-- GRACE_EXPIRY (R278): A sensor's grace timer reaches grace and its cap2 becomes hard. -/
  | graceExpiry (sensor : Nat)
  /-- FLOW_SECOND (R287): Every 1 s TCM counts each flow input's edges and computes its flow. -/
  | flowSecond (pulses : List Nat)
  /-- SWITCH_SET (R308): Orders a host-owned load-switch channel OFF, ON or PWM. -/
  | switchSet (q : Sqe)
  /-- SWITCH_STATUS (R308): Returns status records for a range of load-switch channels. -/
  | switchStatus (q : Sqe)
  /-- LOCKOUT_CLEAR (R308): Ends the lock-out of one or every eligible channel and applies the recorded order. -/
  | lockoutClear (q : Sqe)
  /-- INRUSH_WINDOW_END (R295): A channel's inrush window ends, tripping it or putting it ON or PWM, and a deferred channel may start. -/
  | inrushWindowEnd (ch : Nat) (limiting : Bool)
  /-- CHANNEL_TRIP (R299): A channel trips on short, overload or thermal shutdown and enters RETRY_WAIT. -/
  | channelTrip (ch : Nat) (cause : TripCause) (ma : Nat)
  /-- CHANNEL_RETRY_WAIT_END (R300): A channel's retry_delay ends and it turns on again or enters LOCKOUT. -/
  | channelRetryWaitEnd (ch : Nat)
  /-- CHANNEL_RETRY_CLEAR (R300): retry_clear seconds in ON or PWM return a channel's retry count to 0. -/
  | channelRetryClear (ch : Nat)
  /-- CLAMP_BUDGET_DRAIN (R297): Every 1 ms each channel's clamp budget is drained and deferred on-orders may proceed. -/
  | clampBudgetDrain (vsup : Nat) (currents : List Nat)
  /-- FREEWHEEL_MISSING (R298): A compatibility-mode turn-off below −3.0 V for more than 2 µs locks the channel out. -/
  | freewheelMissing (ch : Nat) (mv : Int)
  /-- SUPPLY_DIP (R304): LS_VSUP falls below 9.0 V and channel states are held while on-orders defer. -/
  | supplyDip (mv : Nat)
  /-- DIP_END (R304): LS_VSUP has been at or above 9.0 V for 10 ms and deferred on-orders proceed. -/
  | dipEnd
  /-- LS_SUPPLY_LOSS (R305): LS_VSUP falls below 6.0 V and every latch resets and output goes off. -/
  | lsSupplyLoss
  /-- LS_SUPPLY_RESTORE (R305): After 10 ms at or above 9.0 V LSW re-applies each channel's recorded order. -/
  | lsSupplyRestore
  /-- LS_SEL_CHANGE (R307): A change on LS_SEL selects the channel mirrored on LS_SENSE. -/
  | lsSelChange (code : Nat)
  /-- STRING_STATUS (R407): Returns status records for strings or the backup cell. -/
  | stringStatus (q : Sqe)
  /-- IMPEDANCE_READ (R407): Returns a string's learned impedance table. -/
  | impedanceRead (q : Sqe)
  /-- CAPACITY_SET (R407): Sets a string's capacity and optionally its soc, cycles and impedance, then writes the journal. -/
  | capacitySet (q : Sqe)
  /-- BSE_UPDATE (R391): Every 1 ms BSE forms each string's current, voltage and temperature and updates its charge count. -/
  | bseUpdate
  /-- REST_CORRECTION (R393): A rest reaches 30 min and soc is set from the open-circuit voltage. -/
  | restCorrection (string : Nat)
  /-- EST_DRIFT_ENTRY (R395): More than rest_max hours since the last rest put the string in EST_DRIFT. -/
  | estDriftEntry (string : Nat)
  /-- BSE_JOURNAL_WRITE (R402): Every 15 min BSE's persistent state is written to the state journal. -/
  | bseJournalWrite
  /-- IMPEDANCE_SAVE (R402): Every 60 min the learned impedance tables are written to their slot pair. -/
  | impedanceSave
  /-- CELL_ESTIMATE (R405): Every 1 s the Saggar updates the backup cell's coulomb count, charger and warnings. -/
  | cellEstimate (ma : Int) (mv : Nat) (temp : Int)
  /-- CELL_STATE_MESSAGE (R406): The cell's state arrives at BSE from the Saggar every 10 s. -/
  | cellStateMessage
  /-- CELL_STATE_STALE (R406): 30 s pass without a new cell state and it becomes stale. -/
  | cellStateStale
  /-- ENERGY_READ (R342): Returns signed SGM energy register entries from one sample boundary. -/
  | energyRead (q : Sqe)
  /-- INSTANT_READ (R343): Returns the last completed block's instantaneous values. -/
  | instantRead (q : Sqe)
  /-- PULSE_CONFIG (R328): Signed command that sets a pulse output's source, width and weight or an S0 input's class and weight. -/
  | pulseConfig (q : Sqe) (h : HostRead)
  /-- SGM_SAMPLE (R318): At each 125 µs sample boundary SGM accumulates port energy, BTE attributes carries and pulses are emitted. -/
  | sgmSample (bits : List Nat)
  /-- BLOCK_END (R322): Every 200 ms an AC block ends and its active, reactive and apparent energy are assigned by quadrant. -/
  | blockEnd
  /-- CHANNEL_FAULT (R316): A modulator channel is declared STUCK or OVERRANGE and its port or the AC point faults. -/
  | channelFault (ch : Nat) (cause : ChanFault)
  /-- CHANNEL_FAULT_CLEAR (R316): A faulted channel clears after 1 s of good codes. -/
  | channelFaultClear (ch : Nat)
  /-- S0_PULSE (R329): An S0 input transition is counted as a pulse or rejected. -/
  | s0Pulse (input onMs offMs : Nat) (on : Bool)
  /-- SAGGAR_SUPPLY_LOSS (R331): The Saggar supply falls, entering battery mode on the cell or making the HOLDUP save. -/
  | saggarSupplyLoss (cell : Option Nat) (bits : List Nat)
  /-- BATTERY_WINDOW (R332): Each battery-mode second opens a current window and advances current-without-supply registers. -/
  | batteryWindow (bits : List (List Nat))
  /-- SAGGAR_SUPPLY_RETURN (R334): The Saggar supply returns and SGM enters SETTLING. -/
  | saggarSupplyReturn
  /-- SETTLING_END (R334): 40 ms of discarded samples end and normal measurement resumes. -/
  | settlingEnd
  /-- CELL_CUTOFF (R335): The backup cell reaches cut-off and SGM makes its FINAL save and stops. -/
  | cellCutoff (mv : Nat)
  /-- PERIODIC_SAVE (R336): Every 15 min the Saggar saves accumulators, residues and pulse state to NVM. -/
  | periodicSave
  /-- SAGGAR_POWER_ON (R338): The Saggar restores its state from SRAM or NVM and flags any save gap. -/
  | saggarPowerOn (sramOk badA badB : Bool)
  /-- MEASUREMENT_SUMMARY_SEND (R339): At the end of each L-time second SGM sends the measurement summary. -/
  | measurementSummarySend
  /-- MEASUREMENT_SUMMARY (R16): A summary reaches SPA and EVR, and port or AC faults are posted on PF0. -/
  | measurementSummary
  /-- REGISTER_READ (R348): Returns signed BTE register entries. -/
  | registerRead (q : Sqe)
  /-- CALENDAR_WRITE (R354): Signed command that checks and stores a pending tariff calendar. -/
  | calendarWrite (q : Sqe) (h : HostRead)
  /-- CLOCK_SET (R359): Signed command that sets L-time as a first, small or large step. -/
  | clockSet (q : Sqe) (h : HostRead)
  /-- TOKEN_ENTER (R367): Validates a host-entered token for a port and credits or rejects it. -/
  | tokenEnter (q : Sqe)
  /-- CREDIT_READ (R372): Returns signed credit records of all ports. -/
  | creditRead (q : Sqe)
  /-- INTERVAL_READ (R372): Returns signed interval records from a given seq. -/
  | intervalRead (q : Sqe)
  /-- OPEN_MESSAGE (R363): An OPEN reaches BTE, which opens the session and answers with CREDIT. -/
  | openMessage
  /-- CLOSE_MESSAGE (R364): A CLOSE reaches BTE, which ends the session and hands a session record to MSS. -/
  | closeMessage
  /-- RESYNC_MESSAGE (R364): A RESYNC reaches BTE, which ends every open session. -/
  | resyncMessage
  /-- INTERVAL_CLOSE (R349): A demand interval closes, its record is written, demand evaluated and the next opened. -/
  | intervalClose
  /-- PERIOD_CLOSE (R351): A billing period closes at local midnight of the billing day and demand registers restart. -/
  | periodClose
  /-- CALENDAR_ACTIVATION (R356): A pending calendar becomes active at its minute boundary. -/
  | calendarActivation (badA badB : Bool)
  /-- TARIFF_SWITCH (R357): The rate in force changes at a switch point's minute. -/
  | tariffSwitch
  /-- MIDNIGHT_SWITCH_LIST (R355): At local midnight BTE verifies the calendar tiles and builds the day's switch list. -/
  | midnightSwitchList (badA badB : Bool)
  /-- KEYPAD_TOKEN (R365): A token frame arrives on the local keypad UART and is validated and answered. -/
  | keypadToken (digits : List Nat)
  /-- RELAYED_TOKEN (R365): A token relayed from a Belfry keypad reaches BTE and is validated. -/
  | relayedToken
  /-- KEYPAD_LOCKOUT_END (R370): The oldest of five failures reaches 3,600 s and the keypad lock-out ends. -/
  | keypadLockoutEnd (keypad : Nat)
  /-- KEY_EXPORT (R375): Returns the serial, record public key and Qorlen manufacturing signature. -/
  | keyExport (q : Sqe)
  /-- RECORD_READ (R378): Returns signed session or period records from a given seq. -/
  | recordRead (q : Sqe)
  /-- LOG_READ (R382): Returns signed parameter change log entries from a given seq. -/
  | logRead (q : Sqe)
  /-- SEAL_BEGIN_OPEN (R380): AUTH-signed operation that opens a seal procedure for 3,600 s with a package hash. -/
  | sealBeginOpen (q : Sqe) (h : HostRead)
  /-- SEAL_BEGIN_LOAD (R380): Appends package bytes to the staging area of an open procedure. -/
  | sealBeginLoad (q : Sqe) (h : HostRead)
  /-- SEAL_BEGIN_CLOSE (R381): Applies the staged package when its conditions hold and closes the procedure. -/
  | sealBeginClose (q : Sqe) (h : HostRead)
  /-- SEAL_BEGIN_ABANDON (R381): Discards the staged package and ends the procedure. -/
  | sealBeginAbandon (q : Sqe) (h : HostRead)
  /-- SEAL_TIMEOUT (R381): An open seal procedure reaches 3,600 s and is abandoned. -/
  | sealTimeout
  /-- SAGGAR_ROLLBACK (R381): New Saggar software fails its self-check within 10 s and the previous slot is restored. -/
  | saggarRollback
  /-- SHIP_AUTHORISE (R384): AUTH-signed command that allows the Saggar's ship state once within 24 h. -/
  | shipAuthorise (q : Sqe) (h : HostRead)
  /-- SHIP_AUTH_LAPSE (R384): An unused ship authorisation lapses 24 h after acceptance. -/
  | shipAuthLapse
  /-- IDENT_READ (R385): Returns the signed software identification, counter, serial and calibration hash. -/
  | identRead (q : Sqe)
  /-- COVER_OPEN (R379): The cover loop opens, incrementing the seal-event counter and setting tamper outside a procedure. -/
  | coverOpen
  /-- COVER_CLOSE (R379): The cover loop closes again and the opening is logged with its duration. -/
  | coverClose
  /-- OPTICAL_REQUEST (R485): A frame on the optical head UART is served as a PF1 read command and answered. -/
  | opticalRequest (frame : List Byte)
  /-- DISPLAY_LINE (R484): Once per second the Saggar sends one line to the legal display. -/
  | displayLine
  /-- BELFRY_STATUS (R424): Returns the Belfry line record or queued reports. -/
  | belfryStatus (q : Sqe)
  /-- NODE_SEND (R424): Sends data to a node by SEND and completes after its answer. -/
  | nodeSend (q : Sqe)
  /-- ROUTE_READ (R424): Returns a node's four candidate routes. -/
  | routeRead (q : Sqe)
  /-- NODE_JOIN (R421): Sends JOIN to an unjoined node directly and through each joined repeater. -/
  | nodeJoin (q : Sqe)
  /-- ZERO_CROSSING (R410): A BLK_ZC edge arrives, the period is predicted and the cycle's bell slots are judged. -/
  | zeroCrossing (z : ZeroCross)
  /-- ZERO_CROSSING_MISSED (R410): A predicted zero crossing does not arrive within 200 µs. -/
  | zeroCrossingMissed
  /-- BELFRY_REQUEST (R415): After two silent cycles the Belfry starts its next request by the polling order. -/
  | belfryRequest
  /-- BELFRY_FRAME_RX (R414): A node's answer frame ends and is checked, acknowledged, queued or relayed. -/
  | belfryFrameRx
  /-- ANSWER_TIMEOUT (R419): No valid answer arrives at the answer position and the exchange is retried or rerouted. -/
  | answerTimeout
  /-- WINDOW_READ (R436): Copies up to 16 matching records from a cursor into a window tile for delivery. -/
  | windowRead (q : Sqe) (bad : List Nat)
  /-- RECORDER_STATUS (R443): Returns the recorder status record or the kept extremes. -/
  | recorderStatus (q : Sqe)
  /-- EVR_SAMPLE (R427): At each multiple of sample_ms EVR takes a quantity's value into its live half or counts it missing. -/
  | evrSample (quantity : Nat)
  /-- EVR_PERIOD_CLOSE (R430): A quantity's period closes, freezing its live half, or is deferred. -/
  | evrPeriodClose (quantity : Nat)
  /-- RECORD_WRITE (R434): The next queued record is written to its tile and flash page once the flash is free. -/
  | recordWrite (bad : Bool)
  /-- RECORD_WRITE_DONE (R434): A record's flash page is programmed and the write completes. -/
  | recordWriteDone
  /-- EVR_RESTORE_DONE (R438): Both recorder areas are loaded from flash after a reset and interrupted records are written. -/
  | evrRestoreDone (torn : List Nat)
  /-- EVR_REFILL_DONE (R441): A retired recorder tile is refilled from flash under RECOVERY. -/
  | evrRefillDone (idx : Nat)
  /-- DEGRADED_EXTREMES_SAVE (R442): Every 15 min in DEGRADED EVR writes its kept extremes to Spire NVM. -/
  | degradedExtremesSave
  /-- HOLDUP_RUN_OUT (R54): The Spire supercapacitor runs out after its reserve and S-time becomes unknown until the host sets it. -/
  | holdupRunOut
  /-- RESERVE_READY (R491): 60 s after power-good the 72 h reserve becomes available and SUP_SUPPLY.reserve_ready is set. -/
  | reserveReady
  /-- LOCK_STEP_PASS (R234): 128 consecutive upstream K28.5 on one alignment without code error pass the lock step of a training attempt. -/
  | lockStepPass (link : Nat)
  /-- COMMA_OFF_ALIGNMENT (R235): A comma arriving off the established alignment sends an UP link DOWN with cause ALIGN and schedules retraining. -/
  | commaOffAlignment (link : Nat)
  /-- PCIE_LINK_UP (R47): PCIe link training completes and HI begins answering configuration requests. -/
  | pcieLinkUp
  /-- TILE_STORE_READY (R438): LPDDR4X training completes, the tile store becomes ready, the retire map is restored and the EVR restore begins. -/
  | tileStoreReady
  /-- SAGGAR_RESTART_DONE (R381): BTE and MSS resume on the new Saggar image within 500 ms, take the queued carries and the seal state leaves APPLYING. -/
  | saggarRestartDone
  /-- PWM_PERIOD_START (R303): A PWM channel's period begins, phased by its channel number, and the driver applies the compensated duty d_app. -/
  | pwmPeriodStart (ch : Nat)
  /-- MSIX_UNMASK (R109): The host unmasks an MSI-X vector whose pending bit is set and the vector fires. -/
  | msixUnmask (fn : Fn) (vec : Nat)
deriving DecidableEq, Repr

end Sys2Proof
end

