-- ==== Sys2Proof/Decode.lean ====
section
/-! DEFINITION. Decoding of opcode-table words. No row of this block's opcode table gives any bits: host commands come as
64-byte queue entries and every other row is an access or an event. So no word spells a command. -/

namespace Sys2Proof

/-- The command a word of the opcode table spells: none, since no row gives bits. -/
def decodeTableWord (_nbits _w : Nat) : Option Instr := none

end Sys2Proof
end

