-- ==== Sys2Proof/Machine/Bits.lean ====
section
/-! DEFINITION. Byte order, bit fields, rounding, saturation and check words: the number rules of R2 to R10 and the
three CRCs (R118, R220, R414). -/

namespace Sys2Proof.Machine

open Sys2Proof

/-- `2^w`-wrapped two's complement code of an integer (R5: s16, s32 and s64 fields). -/
def ofInt (w : Nat) (i : Int) : Nat := (i % (2 ^ w : Nat)).toNat

/-- The signed value of a `w`-bit code. -/
def toInt (w : Nat) (n : Nat) : Int :=
  let m := n % 2 ^ w
  if m < 2 ^ (w - 1) then (m : Int) else (m : Int) - (2 ^ w : Nat)

/-- Bits `[hi:lo]` of a number (R7: bit 0 is the least significant). -/
def bits (n hi lo : Nat) : Nat := (n / 2 ^ lo) % 2 ^ (hi + 1 - lo)

/-- One bit of a number. -/
def bit (n i : Nat) : Bool := (n / 2 ^ i) % 2 == 1

/-- A flag as 0 or 1. -/
def b2n (b : Bool) : Nat := if b then 1 else 0

/-- A field placed at bit `lo`. -/
def fld (v lo : Nat) : Nat := v * 2 ^ lo

/-- `n` bytes of `v`, least significant first (R7). -/
def le : (n v : Nat) → List Byte
  | 0, _ => []
  | n + 1, v => BitVec.ofNat 8 v :: le n (v / 256)

/-- `n` bytes of `v`, most significant first. -/
def be (n v : Nat) : List Byte := (le n v).reverse

/-- A signed little-endian field of `n` bytes. -/
def leS (n : Nat) (i : Int) : List Byte := le n (ofInt (8 * n) i)

/-- The value of a little-endian byte string. -/
def leVal : List Byte → Nat
  | [] => 0
  | b :: bs => b.toNat + 256 * leVal bs

/-- The unsigned field of `n` bytes at offset `o`. -/
def u (b : List Byte) (o n : Nat) : Nat := leVal ((b.drop o).take n)

/-- The signed field of `n` bytes at offset `o`. -/
def sgn (b : List Byte) (o n : Nat) : Int := toInt (8 * n) (u b o n)

/-- Zero bytes: reserved fields (R8). -/
def zeros (n : Nat) : List Byte := List.replicate n 0

/-- A byte string cut or padded with zeros to `n` bytes. -/
def padTo (n : Nat) (b : List Byte) : List Byte := b.take n ++ zeros (n - b.length)

/-- True when some byte of the range `[o, o+n)` is not 0 (reserved-byte checks of R139, R513). -/
def nonzero (b : List Byte) (o n : Nat) : Bool := ((b.drop o).take n).any (· != 0)

/-- Rounding half to even of `a / b` for `b > 0` (R6, R10). -/
def rneDiv (a : Int) (b : Nat) : Int :=
  if b = 0 then 0
  else
    let q := a / (b : Int)
    let r := a - q * b
    if 2 * r < b then q
    else if 2 * r > b then q + 1
    else if q % 2 = 0 then q else q + 1

/-- `rne_div` on naturals. -/
def rneDivN (a b : Nat) : Nat := (rneDiv a b).toNat

/-- `rne_shr(x, k)` (R10). -/
def rneShr (x : Int) (k : Nat) : Int := rneDiv x (2 ^ k)

/-- Clamp to `[lo, hi]`. -/
def clampI (x lo hi : Int) : Int := max lo (min x hi)

/-- `sat_s32` (R10). -/
def satS32 (x : Int) : Int := clampI x (-2147483648) 2147483647

/-- `sat_s64` (R10). -/
def satS64 (x : Int) : Int := clampI x (-9223372036854775808) 9223372036854775807

/-- `sat_u32` (R10). -/
def satU32 (x : Int) : Nat := (clampI x 0 4294967295).toNat

/-- `sat_u16` (R10). -/
def satU16 (x : Int) : Nat := (clampI x 0 65535).toNat

/-- A u32 count that saturates at 0xFFFF_FFFF (R30 and the count fields of the records). -/
def incSat (n : Nat) : Nat := min (n + 1) 4294967295

/-- Absolute value as a natural. -/
def absN (x : Int) : Nat := x.natAbs

/-- The integer nearest to the square root of `n` (R322); the search keeps `r*r ≤ n < (r + 2^k)^2`. -/
def isqrtFrom : (k r n : Nat) → Nat
  | 0, r, _ => r
  | k + 1, r, n => if (r + 2 ^ k) * (r + 2 ^ k) ≤ n then isqrtFrom k (r + 2 ^ k) n else isqrtFrom k r n

/-- Integer square root rounded to the nearest integer (R322). -/
def isqrtNear (n : Nat) : Nat :=
  let r := isqrtFrom 100 0 n
  if n - r * r > r then r + 1 else r

/-- Wrap-around add modulo `m`. -/
def wrapAdd (a b m : Nat) : Nat := (a + b) % m

/-! ### Check words -/

/-- One bit step of the reflected CRC-32C (R118). -/
def crc32cBit (c : Nat) : Nat := if c % 2 = 1 then (c / 2) ^^^ 0x82F63B78 else c / 2

/-- One byte of CRC-32C. -/
def crc32cByte (c : Nat) (b : Byte) : Nat :=
  let x := c ^^^ b.toNat
  crc32cBit (crc32cBit (crc32cBit (crc32cBit (crc32cBit (crc32cBit (crc32cBit (crc32cBit x)))))))

/-- CRC-32C (R118): initial value and final XOR 0xFFFF_FFFF, reflected. -/
def crc32c (b : List Byte) : Nat := (b.foldl crc32cByte 0xFFFFFFFF) ^^^ 0xFFFFFFFF

/-- One bit step of the reflected CRC-32 of IEEE 802.3. -/
def crc32Bit (c : Nat) : Nat := if c % 2 = 1 then (c / 2) ^^^ 0xEDB88320 else c / 2

/-- One byte of CRC-32. -/
def crc32Byte (c : Nat) (b : Byte) : Nat :=
  let x := c ^^^ b.toNat
  crc32Bit (crc32Bit (crc32Bit (crc32Bit (crc32Bit (crc32Bit (crc32Bit (crc32Bit x)))))))

/-- The Ethernet frame check sequence over a frame (R265, R266): the CRC-32 of IEEE 802.3cg, which the manual names and does not print
(PRESUMED, log entry 10); it is sent least significant byte first. -/
def crc32 (b : List Byte) : Nat := (b.foldl crc32Byte 0xFFFFFFFF) ^^^ 0xFFFFFFFF

/-- One bit step of CRC-16-CCITT (R220), most significant bit first. -/
def crc16Bit (c : Nat) : Nat :=
  if c / 32768 % 2 = 1 then ((c * 2) % 65536) ^^^ 0x1021 else (c * 2) % 65536

/-- One byte of CRC-16-CCITT. -/
def crc16Byte (c : Nat) (b : Byte) : Nat :=
  let x := c ^^^ (b.toNat * 256)
  crc16Bit (crc16Bit (crc16Bit (crc16Bit (crc16Bit (crc16Bit (crc16Bit (crc16Bit x)))))))

/-- CRC-16-CCITT (R220): initial value 0xFFFF, no reflection, final XOR 0. -/
def crc16 (b : List Byte) : Nat := b.foldl crc16Byte 0xFFFF

/-- One bit of the Belfry CRC-8 (R414): polynomial 0x07, most significant bit first. -/
def crc8Bit (c : Nat) (d : Bool) : Nat :=
  if (c / 128 % 2 = 1) != d then ((c * 2) % 256) ^^^ 0x07 else (c * 2) % 256

/-- CRC-8 over a bit stream (R414). -/
def crc8 (b : List Bool) : Nat := b.foldl crc8Bit 0

/-- The `n` bits of a number, most significant first. -/
def bitsMsb : (n v : Nat) → List Bool
  | 0, _ => []
  | n + 1, v => bit v n :: bitsMsb n v

/-- The value of a bit string, most significant first. -/
def msbVal (b : List Bool) : Nat := b.foldl (fun a x => 2 * a + b2n x) 0

/-! ### Tables: a fixed number of like things held as a list -/

/-- Entry `i` of a table, or the given value beyond its end. -/
def at' {α : Type} (l : List α) (i : Nat) (d : α) : α := l.getD i d

/-- Entry `i` changed; an index beyond the end changes nothing. -/
def upd {α : Type} (l : List α) (i : Nat) (f : α → α) : List α := l.modify i f

/-- Look up a key in an association list. -/
def look {α β : Type} [DecidableEq α] (k : α) : List (α × β) → Option β
  | [] => none
  | (a, b) :: r => if a = k then some b else look k r

/-- Put a key's value into an association list sorted by nothing but first use: replaces it in place or adds it at the end. -/
def put {α β : Type} [DecidableEq α] (k : α) (v : β) : List (α × β) → List (α × β)
  | [] => [(k, v)]
  | (a, b) :: r => if a = k then (k, v) :: r else (a, b) :: put k v r

/-- Remove a key from an association list. -/
def del {α β : Type} [DecidableEq α] (k : α) (l : List (α × β)) : List (α × β) := l.filter (fun p => p.1 ≠ k)

/-- The bit mask of the indices below `n` that satisfy `p`. -/
def maskOf (n : Nat) (p : Nat → Bool) : Nat := (List.range n).foldl (fun a i => a + b2n (p i) * 2 ^ i) 0

/-- How many indices below `n` satisfy `p`. -/
def countOf (n : Nat) (p : Nat → Bool) : Nat := ((List.range n).filter p).length

/-- An element placed into a sorted list, behind those it is not before. -/
def insertBy {α : Type} (before : α → α → Bool) (x : α) : List α → List α
  | [] => [x]
  | y :: r => if before x y then x :: y :: r else y :: insertBy before x r

/-- A list sorted, stably. -/
def sortBy {α : Type} (before : α → α → Bool) (l : List α) : List α := l.foldl (fun a x => insertBy before x a) []

/-- An entry put into an association list sorted by rising key; the entry of an equal key is replaced. -/
def putSorted {β : Type} (k : Nat) (v : β) : List (Nat × β) → List (Nat × β)
  | [] => [(k, v)]
  | (a, b) :: r => if k < a then (k, v) :: (a, b) :: r else if k = a then (k, v) :: r else (a, b) :: putSorted k v r

/-- Sum of a list of integers. -/
def sumI (l : List Int) : Int := l.foldl (· + ·) 0

/-- Sum of a list of naturals. -/
def sumN (l : List Nat) : Nat := l.foldl (· + ·) 0

/-- One slot of a pair in NVM that is written alternately (R55): its sequence number, its content, and the CRC-32C
stored over both. -/
structure NvSlot (α : Type) where
  seq : Nat
  content : α
  crc : Nat
deriving DecidableEq, Repr

end Sys2Proof.Machine
end

