-- ==== Sys2Proof/Machine/Civil.lean ====
section
/-! DEFINITION. Civil dates of the proleptic Gregorian calendar, counted in days since 2000-01-01 (R2). -/

namespace Sys2Proof.Machine

open Sys2Proof

/-- The days from 0000-03-01 to 2000-01-01. -/
def dayBias : Nat := 730425

/-- The date (year, month, day) of a day count. -/
def civil (z : Nat) : Nat × Nat × Nat :=
  let z := z + dayBias
  let era := z / 146097
  let doe := z % 146097
  let yoe := (doe - doe / 1460 + doe / 36524 - doe / 146096) / 365
  let doy := doe - (365 * yoe + yoe / 4 - yoe / 100)
  let mp := (5 * doy + 2) / 153
  let m := if mp < 10 then mp + 3 else mp - 9
  (yoe + era * 400 + b2n (decide (m ≤ 2)), m, doy - (153 * mp + 2) / 5 + 1)

/-- The day count of a date; negative before 2000. -/
def daysOf (y m d : Nat) : Int :=
  let y := y - b2n (decide (m ≤ 2))
  let era := y / 400
  let yoe := y % 400
  let doy := (153 * (if m > 2 then m - 3 else m + 9) + 2) / 5 + d - 1
  let doe := yoe * 365 + yoe / 4 - yoe / 100 + doy
  ((era * 146097 + doe : Nat) : Int) - dayBias

/-- The weekday of a day count: 0 Monday to 6 Sunday; 2000-01-01 was a Saturday. -/
def weekday (z : Nat) : Nat := (z + 5) % 7

/-- The days of a month, with 29 for February (R354). -/
def monthDays (m : Nat) : Nat :=
  if m = 2 then 29 else if m = 4 ∨ m = 6 ∨ m = 9 ∨ m = 11 then 30 else 31

/-- One minute in µs. -/
def minuteUs : Nat := 60000000

/-- One day in µs (R2). -/
def dayUs : Nat := 86400000000

/-- The decimal digits of a number, as ASCII, at least `w` of them. -/
def decAscii (w n : Nat) : List Byte :=
  let rec go : (fuel n : Nat) → List Byte
    | 0, _ => []
    | k + 1, n => if n = 0 then [] else go k (n / 10) ++ [BitVec.ofNat 8 (0x30 + n % 10)]
  let d := go 40 n
  List.replicate (max w 1 - d.length) 0x30 ++ d

/-- One hexadecimal digit as ASCII. -/
def hexAscii (n : Nat) : Byte := BitVec.ofNat 8 (if n % 16 < 10 then 0x30 + n % 16 else 0x37 + n % 16)

/-- `w` hexadecimal digits of a number, most significant first. -/
def hexDigits : (w n : Nat) → List Byte
  | 0, _ => []
  | w + 1, n => hexDigits w (n / 16) ++ [hexAscii n]

end Sys2Proof.Machine
end

