-- ==== Sys2Proof/Config.lean ====
section
/-! DEFINITION. What an implementation fixes and what the manual leaves open: constants without a body, so that no proof
can lean on a value of them. Each is named in a log entry. -/

namespace Sys2Proof.Config

/-- Qorlen's PCI-SIG vendor identifier (R501). -/
opaque vendorId : BitVec 16

/-- Main die revision, fused (Table 22-3, SUP_ID.die_rev). -/
opaque dieRev : BitVec 8

/-- Module revision, fused (Table 22-3, SUP_ID.module_rev). -/
opaque moduleRev : BitVec 8

/-- Module serial, fused (Table 22-3). -/
opaque moduleSerial : BitVec 64

/-- Saggar serial, fused in the Saggar (R385, R386). -/
opaque saggarSerial : BitVec 64

/-- The record public key of a Saggar of a serial number, X then Y (R374, R375). -/
opaque recordPublicKey : BitVec 64 → List (BitVec 8)

/-- Qorlen's manufacturing signature over a Saggar's serial and record key (R375). -/
opaque manufacturingSignature : BitVec 64 → List (BitVec 8)

/-- The AUTH key installed at manufacture, 64 bytes (R374). -/
opaque authKey : BitVec 64 → List (BitVec 8)

/-- The digest of the Saggar image a Saggar is delivered with (R385). -/
opaque saggarImage : BitVec 64 → List (BitVec 8)

/-- The Qorlen image version of a Saggar image, by its digest (R385); where an image holds it is not in the manual. -/
opaque saggarImageVersion : List (BitVec 8) → BitVec 32

/-- Whether a Saggar image item carries a release signature that verifies (R381); its place is not in the manual. -/
opaque saggarImageVerifies : List (BitVec 8) → Bool

/-- ECDSA P-256 signature, r then s, by the record key of the Saggar of a serial number over a byte string (R377). -/
opaque signRecord : BitVec 64 → List (BitVec 8) → List (BitVec 8)

/-- Qorlen's release key for the main die, in Spire ROM (R446). -/
opaque releaseKey : List (BitVec 8)

/-- The transport key of a Saggar of a serial number, 16 bytes (R380). -/
opaque transportKey : BitVec 64 → List (BitVec 8)

/-- The duty in 0.1 % that compensation of an ordered duty gives while no LS_VSUP sample has been taken (R303 divides by
the mean of the samples). -/
opaque dutyUnsampled : Nat → Nat

/-- One of the first 47 taps of the SGM decimator's FIR filter, in 1 / `firScale` of half the sum of all 96; the filter's delay
and scale are specified, its taps are not (R313). -/
opaque firTap : Nat → Int

/-- The resolution of the FIR filter's taps less one (R313). -/
opaque firScale : Nat

/-- One step of the second-order band-pass filter of R321, tuned to a line frequency in 10 mHz: the output for an input, the
input two samples before it, and the two outputs before it. Its bandwidth and number format are not in the manual. -/
opaque bandPass : (line : Nat) → (x x2 y1 y2 : Int) → Int

/-- A value the manual leaves open, a natural number: the argument is the count of open values taken so far. -/
opaque freeNat : Nat → Nat

/-- A value the manual leaves open, an integer. -/
opaque freeInt : Nat → Int

/-- A choice the manual leaves open among `n` things: an index, used modulo `n`. -/
opaque freeChoice : (count n : Nat) → Nat

end Sys2Proof.Config
end

