-- ==== Sys2Proof/Machine/Crypto.lean ====
section
/-! DEFINITION. The published algorithms the manual names and does not print: SHA-256 (R377, R380, R446), AES-128 with its CMAC
(R366), AES-128 key wrap's unwrapping, RFC 3394 (R380), and the verification of ECDSA P-256 signatures (R376, R446). Their text is
FIPS 180-4, FIPS 197, RFC 4493, RFC 3394 and FIPS 186 (PRESUMED, log entry 15). -/

namespace Sys2Proof.Machine

open Sys2Proof

/-! ### SHA-256 -/

/-- The words of 32 bits of a row of 128, the first the most significant. -/
def shaWords (row : Nat) : List Nat := (List.range 4).map (fun i => row / 2 ^ (96 - 32 * i) % 2 ^ 32)

/-- Additive constants of the 64 rounds, four rounds to a row. -/
def shaRows : List Nat :=
  [0x428A2F9871374491B5C0FBCFE9B5DBA5,
   0x3956C25B59F111F1923F82A4AB1C5ED5,
   0xD807AA9812835B01243185BE550C7DC3,
   0x72BE5D7480DEB1FE9BDC06A7C19BF174,
   0xE49B69C1EFBE47860FC19DC6240CA1CC,
   0x2DE92C6F4A7484AA5CB0A9DC76F988DA,
   0x983E5152A831C66DB00327C8BF597FC7,
   0xC6E00BF3D5A7914706CA635114292967,
   0x27B70A852E1B21384D2C6DFC53380D13,
   0x650A7354766A0ABB81C2C92E92722C85,
   0xA2BFE8A1A81A664BC24B8B70C76C51A3,
   0xD192E819D6990624F40E3585106AA070,
   0x19A4C1161E376C082748774C34B0BCB5,
   0x391C0CB34ED8AA4A5B9CCA4F682E6FF3,
   0x748F82EE78A5636F84C878148CC70208,
   0x90BEFFFAA4506CEBBEF9A3F7C67178F2]

/-- The initial hash value, in two rows. -/
def shaInit : List Nat :=
  [0x6A09E667BB67AE853C6EF372A54FF53A,
   0x510E527F9B05688C1F83D9AB5BE0CD19].flatMap shaWords

/-- A 32-bit word turned right by `k` bits. -/
def rotr (k x : Nat) : Nat := x / 2 ^ k + x % 2 ^ k * 2 ^ (32 - k)

/-- The schedule's small sigma: two rotations and a shift. -/
def shaSmall (i j k x : Nat) : Nat := rotr i x ^^^ rotr j x ^^^ (x / 2 ^ k)

/-- The round's big sigma: three rotations. -/
def shaBig (i j k x : Nat) : Nat := rotr i x ^^^ rotr j x ^^^ rotr k x

/-- One round: the eight working words and the sixteen schedule words ahead, with the round's constant. -/
def shaRound (st : List Nat × List Nat) (k : Nat) : List Nat × List Nat :=
  let v (i : Nat) : Nat := st.1.getD i 0
  let w (i : Nat) : Nat := st.2.getD i 0
  let choose := (v 4 &&& v 5) ^^^ ((4294967295 - v 4) &&& v 6)
  let major := (v 0 &&& v 1) ^^^ (v 0 &&& v 2) ^^^ (v 1 &&& v 2)
  let t := v 7 + shaBig 6 11 25 (v 4) + choose + k + w 0
  (((t + shaBig 2 13 22 (v 0) + major) % 2 ^ 32 :: st.1.take 3) ++ ((v 3 + t) % 2 ^ 32 :: (st.1.drop 4).take 3),
   st.2.drop 1 ++ [(shaSmall 17 19 10 (w 14) + w 9 + shaSmall 7 18 3 (w 1) + w 0) % 2 ^ 32])

/-- The big-endian words of a byte string, `n` of them. -/
def beWords : (n : Nat) → List Byte → List Nat
  | 0, _ => []
  | n + 1, b => leVal (b.take 4).reverse :: beWords n (b.drop 4)

/-- A hash value with one block of 64 bytes compressed into it. -/
def shaBlock (h : List Nat) (b : List Byte) : List Nat :=
  let r := (shaRows.flatMap shaWords).foldl shaRound (h, beWords 16 b)
  (h.zip r.1).map (fun x => (x.1 + x.2) % 2 ^ 32)

/-- The blocks of a padded message, `n` of them. -/
def shaBlocks : (n : Nat) → List Byte → List Nat → List Nat
  | 0, _, h => h
  | n + 1, b, h => shaBlocks n (b.drop 64) (shaBlock h (b.take 64))

/-- SHA-256 of a byte string: 32 bytes. -/
def sha256 (m : List Byte) : List Byte :=
  let n := (m.length + 72) / 64
  (shaBlocks n (padTo (64 * n - 8) (m ++ [0x80]) ++ be 8 (8 * m.length)) shaInit).flatMap (be 4)

/-! ### AES-128 -/

/-- The substitution box, sixteen entries to a number, entry 0 its least significant byte. -/
def aesRows : List Nat :=
  [0x76ABD7FE2B670130C56F6BF27B777C63,
   0xC072A49CAFA2D4ADF04759FA7DC982CA,
   0x1531D871F1E5A534CCF73F362693FDB7,
   0x75B227EBE28012079A059618C323C704,
   0x842FE329B3D63B52A05A6E1B1A2C8309,
   0xCF584C4A39BECB6A5BB1FC20ED00D153,
   0xA89F3C507F02F94585334D43FBAAEFD0,
   0xD2F3FF1021DAB6BCF5389D928F40A351,
   0x73195D643D7EA7C41744975FEC130CCD,
   0xDB0B5EDE14B8EE4688902A22DC4F8160,
   0x79E4959162ACD3C25C2406490A3A32E0,
   0x08AE7A65EAF4566CA94ED58D6D37C8E7,
   0x8A8BBD4B1F74DDE8C6B4A61C2E2578BA,
   0x9E1DC186B95735610EF6034866B53E70,
   0xDF2855CEE9871E9B948ED9691198F8E1,
   0x16BB54B00F2D99416842E6BF0D89A18C]

/-- The substitution of a byte. -/
def aesSub (x : Nat) : Nat := aesRows.getD (x / 16) 0 / 256 ^ (x % 16) % 256

/-- The inverse substitution. -/
def aesUnsub (y : Nat) : Nat := ((List.range 256).find? (fun x => aesSub x == y)).getD 0

/-- Two byte strings added. -/
def xorN (a b : List Nat) : List Nat := (a.zip b).map (fun x => x.1 ^^^ x.2)

/-- A byte doubled in the field of AES. -/
def aesDouble (x : Nat) : Nat := if x < 128 then 2 * x else (2 * x - 256) ^^^ 0x1B

/-- The round key after `k`, with its round constant. -/
def aesNextKey (c : Nat) (k : List Nat) : List Nat :=
  let col (i : Nat) : List Nat := (k.drop (4 * i)).take 4
  let t := ((col 3).drop 1 ++ (col 3).take 1).map aesSub
  let a := xorN (col 0) (xorN t [c, 0, 0, 0])
  let b := xorN (col 1) a
  let d := xorN (col 2) b
  a ++ b ++ d ++ xorN (col 3) d

/-- The round keys of a key, the first the key itself. -/
def aesKeys (k : List Nat) : List (List Nat) :=
  ([1, 2, 4, 8, 16, 32, 64, 128, 27, 54].foldl (fun (a : List (List Nat)) c => a ++ [aesNextKey c (a.getLastD [])]) [k])

/-- The rows of a block shifted: row `r` of column `c` comes from column `c + s r`. -/
def aesShift (s : Nat → Nat) (b : List Nat) : List Nat :=
  (List.range 16).map (fun i => b.getD ((i / 4 + s (i % 4)) % 4 * 4 + i % 4) 0)

/-- A field product with a small factor. -/
def aesTimes (k x : Nat) : Nat :=
  let x2 := aesDouble x
  let x4 := aesDouble x2
  (if bit k 0 then x else 0) ^^^ (if bit k 1 then x2 else 0) ^^^ (if bit k 2 then x4 else 0) ^^^
    (if bit k 3 then aesDouble x4 else 0)

/-- Each column times the circulant matrix of a first row. -/
def aesMix (row : List Nat) (b : List Nat) : List Nat :=
  (List.range 16).map (fun i =>
    ((List.range 4).map (fun j => aesTimes (row.getD ((j + 4 - i % 4) % 4) 0) (b.getD (i / 4 * 4 + j) 0))).foldl Nat.xor 0)

/-- AES-128 encryption of a block of sixteen bytes. -/
def aesEncrypt (key b : List Nat) : List Nat :=
  let ks := aesKeys key
  let body := ((ks.drop 1).take 9).foldl (fun b k => xorN (aesMix [2, 3, 1, 1] (aesShift id (b.map aesSub))) k)
    (xorN b (ks.headD []))
  xorN (aesShift id (body.map aesSub)) (ks.getLastD [])

/-- AES-128 decryption of a block of sixteen bytes. -/
def aesDecrypt (key b : List Nat) : List Nat :=
  let ks := aesKeys key
  let back (x : List Nat) : List Nat := (aesShift (fun r => 4 - r) x).map aesUnsub
  let body := ((ks.drop 1).take 9).reverse.foldl (fun b k => aesMix [14, 11, 13, 9] (xorN (back b) k)) (xorN b (ks.getLastD []))
  xorN (back body) (ks.headD [])

/-! ### CMAC and key unwrap -/

/-- A byte string as numbers. -/
def natsOf (b : List Byte) : List Nat := b.map BitVec.toNat

/-- Numbers as bytes. -/
def bytesOf (l : List Nat) : List Byte := l.map (BitVec.ofNat 8)

/-- The value of a big-endian string of numbers. -/
def beNat (l : List Nat) : Nat := l.foldl (fun a x => a * 256 + x) 0

/-- A CMAC subkey from the value before it. -/
def cmacDouble (l : List Nat) : List Nat :=
  let v := 2 * beNat l
  natsOf (be 16 (if v < 2 ^ 128 then v else (v - 2 ^ 128) ^^^ 0x87))

/-- AES-128 CMAC of a message under a key: the tag's 16 bytes (RFC 4493). -/
def cmac (key msg : List Byte) : List Byte :=
  let k := natsOf key
  let k1 := cmacDouble (aesEncrypt k (List.replicate 16 0))
  let m := natsOf msg
  let n := max 1 ((m.length + 15) / 16)
  let last := m.drop (16 * (n - 1))
  let end_ := if last.length = 16 then xorN last k1
    else xorN (last ++ [0x80] ++ List.replicate (15 - last.length) 0) (cmacDouble k1)
  let x := (List.range (n - 1)).foldl (fun x i => aesEncrypt k (xorN x ((m.drop (16 * i)).take 16))) (List.replicate 16 0)
  bytesOf (aesEncrypt k (xorN x end_))

/-- One step back of AES key wrap: `t` is the step, `n` the number of 64-bit blocks. -/
def unwrapStep (key : List Nat) (n : Nat) (x : List Nat × List (List Nat)) (t : Nat) : List Nat × List (List Nat) :=
  let i := (t - 1) % n
  let b := aesDecrypt key (xorN x.1 (natsOf (be 8 t)) ++ x.2.getD i [])
  (b.take 8, x.2.set i (b.drop 8))

/-- AES-128 key unwrap under a Saggar's transport key (R380, RFC 3394); none when the integrity check fails. -/
def unwrapKey (serial : BitVec 64) (b : List Byte) : Option (List Byte) :=
  let n := b.length / 8 - 1
  let blocks := (List.range (n + 1)).map (fun i => natsOf ((b.drop (8 * i)).take 8))
  if b.length % 8 ≠ 0 ∨ n < 2 then none
  else
    let r := ((List.range (6 * n)).reverse.map (· + 1)).foldl (unwrapStep (natsOf (Config.transportKey serial)) n)
      (blocks.headD [], blocks.drop 1)
    if r.1 = List.replicate 8 0xA6 then some (bytesOf r.2.flatten) else none

/-! ### ECDSA P-256 -/

/-- The field's prime. -/
def ecP : Nat := 0xFFFFFFFF00000001000000000000000000000000FFFFFFFFFFFFFFFFFFFFFFFF

/-- The order of the group. -/
def ecN : Nat := 0xFFFFFFFF00000000FFFFFFFFFFFFFFFFBCE6FAADA7179E84F3B9CAC2FC632551

/-- The constant of the curve y² = x³ − 3x + b. -/
def ecB : Nat := 0x5AC635D8AA3A93E7B3EBBD55769886BC651D06B0CC53B0F63BCE3C3E27D2604B

/-- The base point. -/
def ecG : Nat × Nat :=
  (0x6B17D1F2E12C4247F8BCE6E563A440F277037D812DEB33A0F4A13945D898C296,
   0x4FE342E2FE1A7F9B8EE7EB4A7C0F9E162BCE33576B315ECECBB6406837BF51F5)

/-- A difference in the field. -/
def ecSub (a b : Nat) : Nat := (a + ecP - b % ecP) % ecP

/-- The bits of an exponent, from bit 255 down. -/
def bitsDown (e : Nat) : List Bool := (List.range 256).map (fun i => bit e (255 - i))

/-- A power modulo `m`. -/
def powMod (m x e : Nat) : Nat := (bitsDown e).foldl (fun a b => if b then a * a % m * x % m else a * a % m) 1

/-- A point in Jacobian coordinates; `z` is 0 at infinity. -/
structure EcPt where
  x : Nat
  y : Nat
  z : Nat
deriving DecidableEq, Repr

/-- A point doubled. -/
def EcPt.dbl (a : EcPt) : EcPt :=
  let d := a.z * a.z % ecP
  let g := a.y * a.y % ecP
  let b := a.x * g % ecP
  let k := 3 * ecSub a.x d * (a.x + d) % ecP
  let x := ecSub (k * k) (8 * b)
  ⟨x, ecSub (k * ecSub (4 * b) x) (8 * g * g), 2 * a.y * a.z % ecP⟩

/-- Two points added. -/
def EcPt.add (a b : EcPt) : EcPt :=
  if a.z = 0 then b
  else if b.z = 0 then a
  else
    let u1 := a.x * b.z * b.z % ecP
    let s1 := a.y * b.z * b.z * b.z % ecP
    let h := ecSub (b.x * a.z * a.z) u1
    let r := ecSub (b.y * a.z * a.z * a.z) s1
    if h = 0 then (if r = 0 then a.dbl else ⟨1, 1, 0⟩)
    else
      let v := u1 * h * h % ecP
      let x := ecSub (r * r) (h * h * h + 2 * v)
      ⟨x, ecSub (r * ecSub v x) (s1 * h * h % ecP * h), h * a.z * b.z % ecP⟩

/-- `u` times the base point plus `v` times a point. -/
def ecSum (u v : Nat) (q : EcPt) : EcPt :=
  let g : EcPt := ⟨ecG.1, ecG.2, 1⟩
  let gq := g.add q
  ((bitsDown u).zip (bitsDown v)).foldl (fun (a : EcPt) x =>
    let d := a.dbl
    match x with
    | (true, true) => d.add gq
    | (true, false) => d.add g
    | (false, true) => d.add q
    | (false, false) => d) ⟨1, 1, 0⟩

/-- ECDSA P-256 over SHA-256: whether a signature (r then s) by a public key (X then Y) over a byte string verifies. -/
def verifySignature (key msg sig : List Byte) : Bool :=
  let int (o : Nat) (b : List Byte) : Nat := beNat (natsOf ((b.drop o).take 32))
  let qx := int 0 key
  let qy := int 32 key
  let r := int 0 sig
  let s := int 32 sig
  if key.length ≠ 64 ∨ sig.length ≠ 64 ∨ ecP ≤ qx ∨ ecP ≤ qy ∨ qy * qy % ecP ≠ (qx * qx * qx + (ecP - 3) * qx + ecB) % ecP ∨
      r = 0 ∨ ecN ≤ r ∨ s = 0 ∨ ecN ≤ s then false
  else
    let w := powMod ecN s (ecN - 2)
    let t := ecSum (beNat (natsOf (sha256 msg)) * w % ecN) (r * w % ecN) ⟨qx, qy, 1⟩
    let i := powMod ecP t.z (ecP - 2)
    t.z != 0 && t.x * i % ecP * i % ecP % ecN == r

end Sys2Proof.Machine
end

