-- ==== Sys2Proof/Machine/StateCfg.lean ====
section
/-! DEFINITION. The records of an Oxris image as the device uses them once parsed: ledger entries, group maps, contexts,
coefficient sets, link scales, ports, sensors, channels, Aqaux loops, strings, Belfry nodes, quantities and the bisque
limit record. -/

namespace Sys2Proof.Machine

open Sys2Proof

/-- A ledger entry (Tables 05-1 to 05-4). -/
inductive Entry where
  | free
  | node (kind number limit current aux tag : Nat)
  | edge (kind src dst fwd rev tag : Nat)
  | cons (enable : Bool) (ports strings limit tag : Nat)
  | session (prepaid : Bool) (isString : Bool) (tier object weight min max ramp number tag : Nat)
deriving DecidableEq, Repr

/-- Group map record (Table 07-1). -/
structure GroupMap where
  nPh : Nat
  minPh : Nat
  ilvMode : Bool
  dt : Nat
  links : List Nat
  baseI : Nat
  baseV : Nat
  iRated : Nat
  iPeak : Nat
  iFast : Nat
  ilv : List Nat
  tau : Nat
  ovlOn : Nat
  ovlOff : Nat
  shedLvl : Nat
  addLvl : Nat
  shedDwell : Nat
  addDwell : Nat
  stepHold : Nat
  stepLvl : Nat
  retryMax : Nat
  retryDelay : Nat
  retryClear : Nat
deriving DecidableEq, Repr

/-- Group context record (Table 06-5): rate in kHz, bands, schedule variable, hysteresis, thresholds of bands 1 to 7, and
swap_defer_max, each as the lane reads it. -/
structure GroupCtx where
  rate : Nat
  bands : Nat
  sched : Nat
  hyst : Int
  th : List Int
  deferMax : Nat
deriving DecidableEq, Repr

/-- Coefficient set (Table 06-4), `rsv` its byte 7; the matrices are rows one after another at the tile's strides. -/
structure CoeffSet where
  version : Nat
  n : Nat
  m : Nat
  p : Nat
  q : Nat
  trk : Nat
  rsv : Nat
  ysel : List Nat
  init : List Nat
  wsel : List Nat
  role : List Nat
  slew : Int
  kb : Int
  umin : List Int
  umax : List Int
  a : List Int
  b : List Int
  c : List Int
  l : List Int
  k : List Int
  ki : List Int
  f : List Int
  nn : List Int
  g : List Int
deriving DecidableEq, Repr

/-- Link scale record (Table 06-5). -/
structure LinkScale where
  iScale : Int
  iOffset : Int
  vinScale : Int
  vinOffset : Int
  voutScale : Int
  voutOffset : Int
deriving DecidableEq, Repr

/-- Port record (Table 09-1). -/
structure PortRec where
  enable : Bool
  ccs : Bool
  ventOk : Bool
  group : Nat
  ppHi : Nat
  ppMid : Nat
  ppLo : Nat
  spiClk : Nat
deriving DecidableEq, Repr

/-- Sensor record (Table 10-2). `target`: 0 NONE, 1 GROUP, 2 PORT, 3 SITE. -/
structure SensorRec where
  enable : Bool
  target : Nat
  object : Nat
  neighbour : Nat
  lsw : Nat
  th1 : Int
  th2 : Int
  th3 : Int
  th4 : Int
  hyst : Nat
  nbOffset : Int
  trim : Int
  grace : Nat
  tStop : Nat
  cap2 : Nat
deriving DecidableEq, Repr

/-- Load-switch channel record (Table 11-1). -/
structure ChanRec where
  comp : Bool
  compat : Bool
  owner : Nat
  load : Nat
  default : Nat
  iCont : Nat
  freq : Nat
  duty : Nat
  clampBudget : Nat
  clampPwr : Nat
  retryMax : Nat
  retryDelay : Nat
  retryClear : Nat
  vNom : Nat
deriving DecidableEq, Repr

/-- Aqaux record (Table 10-5). -/
structure AqauxRec where
  enable : Bool
  pump : Nat
  fan : Nat
  flow : Nat
  cable : Nat
  fanOn : Int
  fanOff : Int
  pumpOn : Int
  kFlow : Nat
  flowMin : Nat
  runOn : Nat
  settle : Nat
  capNoflow : Nat
deriving DecidableEq, Repr

/-- String record (Table 15-1); `r0` is the 8 by 11 table, row after row. -/
structure StringRec where
  enable : Bool
  group : Nat
  sens0 : Nat
  sens1 : Nat
  capNom : Nat
  iChg : Nat
  iDis : Nat
  vMin : Nat
  vMax : Nat
  ll : Nat
  lo : Nat
  hi : Nat
  hh : Nat
  hyst : Nat
  restMax : Nat
  restI : Nat
  drift : Nat
  eta : Nat
  tChgMin : Int
  tChgMax : Int
  tDisMin : Int
  tDisMax : Int
  stepI : Nat
  ocv : List Nat
  r0 : List Nat
deriving DecidableEq, Repr

/-- A node of the Belfry record (R421). -/
structure NodeRec where
  serial : Nat
  enable : Bool
  repeater : Bool
  keypad : Bool
deriving DecidableEq, Repr

/-- The Belfry record (R421); node a stands at position a − 1. -/
structure BelfryRec where
  enable : Bool
  hz60 : Bool
  blankK : Nat
  nodes : List NodeRec
deriving DecidableEq, Repr

/-- Quantity record (Table 17-1). -/
structure QuantRec where
  enable : Bool
  kind : Nat
  index : Nat
  period : Nat
  sampleMs : Nat
  lo : Int
  width : Nat
deriving DecidableEq, Repr

/-- Bisque limit record (Table 02-12). -/
structure BisqueLimit where
  imp : Nat
  rated : List Nat
  portI : List Nat
  portV : List Nat
  portTier : List Nat
  stringTier : List Nat
deriving DecidableEq, Repr

/-- A parsed configuration, `fmt` its format version. Coefficient sets are keyed by 8 × group + band, link scales by link, ledger entries by
index. -/
structure Cfg where
  bisque : Bool
  fmt : Nat
  id : Nat
  cls : Nat
  groups : List (Option GroupMap)
  ctxs : List (Option GroupCtx)
  sets : List (Nat × CoeffSet)
  scales : List (Nat × LinkScale)
  ports : List PortRec
  sensors : List SensorRec
  chans : List ChanRec
  aqaux : List AqauxRec
  strings : List StringRec
  belfry : Option BelfryRec
  quants : List QuantRec
  limit : Option BisqueLimit
  ledger : List (Nat × Entry)
deriving DecidableEq, Repr

/-- A disabled port record. -/
def PortRec.off : PortRec := ⟨false, false, false, 0, 0, 0, 0, 0⟩

/-- A disabled sensor record. -/
def SensorRec.off : SensorRec := ⟨false, 0, 0, 0xFF, 0xFF, 0x7FFF, 0x7FFF, 0, 0, 0, 0, 0, 0, 0, 0⟩

/-- A channel as it stands before any record: host-owned, default OFF (R294). -/
def ChanRec.off : ChanRec := ⟨false, false, 1, 0, 0, 0, 100, 0, 1, 10, 0, 10, 1, 9000⟩

/-- A disabled Aqaux record. -/
def AqauxRec.off : AqauxRec := ⟨false, 0xFF, 0xFF, 0xFF, 0, 0, 0, 0, 0, 0, 0, 0, 0⟩

/-- A disabled string record. -/
def StringRec.off : StringRec where
  enable := false
  group := 0
  sens0 := 0xFF
  sens1 := 0xFF
  capNom := 0
  iChg := 0
  iDis := 0
  vMin := 0
  vMax := 0
  ll := 0
  lo := 0
  hi := 0
  hh := 0
  hyst := 0
  restMax := 0
  restI := 0
  drift := 0
  eta := 0
  tChgMin := 0
  tChgMax := 0
  tDisMin := 0
  tDisMax := 0
  stepI := 0
  ocv := []
  r0 := []

/-- A disabled quantity. -/
def QuantRec.off : QuantRec := ⟨false, 0, 0, 0, 0, 0, 0⟩

/-- The empty configuration: nothing configured, nothing enabled. -/
def Cfg.empty : Cfg :=
  { bisque := false, fmt := 0, id := 0, cls := 0, groups := [], ctxs := [], sets := [], scales := [], ports := [], sensors := []
    chans := [], aqaux := [], strings := [], belfry := none, quants := [], limit := none, ledger := [] }

/-- A configured group's map record. -/
def Cfg.group (c : Cfg) (g : Nat) : Option GroupMap := c.groups.getD g none

/-- A configured group's context record. -/
def Cfg.ctx (c : Cfg) (g : Nat) : Option GroupCtx := c.ctxs.getD g none

/-- A port's record. -/
def Cfg.port (c : Cfg) (p : Nat) : PortRec := c.ports.getD p PortRec.off

/-- A sensor's record. -/
def Cfg.sensor (c : Cfg) (n : Nat) : SensorRec := c.sensors.getD n SensorRec.off

/-- A channel's record. -/
def Cfg.chan (c : Cfg) (n : Nat) : ChanRec := c.chans.getD n ChanRec.off

/-- A port's Aqaux record. -/
def Cfg.aq (c : Cfg) (p : Nat) : AqauxRec := c.aqaux.getD p AqauxRec.off

/-- A string's record. -/
def Cfg.str (c : Cfg) (j : Nat) : StringRec := c.strings.getD j StringRec.off

/-- A quantity's record. -/
def Cfg.quant (c : Cfg) (q : Nat) : QuantRec := c.quants.getD q QuantRec.off

end Sys2Proof.Machine
end

