-- ==== Sys2Proof/Machine/StateBlk.lean ====
section
/-! DEFINITION. The state of the Belfry (R409 to R425): the line, the nodes and their routes, the exchange in progress, the
requests that wait and the report queue. -/

namespace Sys2Proof.Machine

open Sys2Proof

/-- A candidate route (R418): its repeaters, 0 for none, its score and its failures. -/
structure Route where
  r1 : Nat
  r2 : Nat
  score : Nat
  fails : Nat
deriving DecidableEq, Repr

/-- A node: JOINED or LOST, the toggle of the last report accepted from it (R416), the toggle of the last SEND, its routes, a
TOKEN_HI that waits for its other half (tag and value), and the route its next poll while LOST takes. -/
structure Node where
  lost : Bool
  tog : Bool
  stog : Bool
  routes : List Route
  hi : Option (Nat × Nat)
  cand : Nat
deriving DecidableEq, Repr

/-- What an exchange asks of its node: POLL, SEND with its data and toggle, JOIN. -/
inductive Ask where
  | poll
  | send (data : Nat) (tog : Bool)
  | join
deriving DecidableEq, Repr

/-- A request that waits for its exchange; `cmd` is the SQ and the command id of a host command. -/
structure BlkReq where
  node : Nat
  join : Bool
  data : Nat
  cmd : Option (Nat × Nat)
deriving DecidableEq, Repr

/-- Where an exchange stands: its request waits to be sent (again), is being sent, or its answer is awaited. -/
inductive ExSt where
  | ready
  | sending
  | waiting
deriving DecidableEq, Repr

/-- The exchange in progress: its node, request and route, the repeats made on that route, the routes tried, whether it polls
a LOST node once, and the bits still to send. -/
structure Exch where
  node : Nat
  ask : Ask
  cmd : Option (Nat × Nat)
  r1 : Nat
  r2 : Nat
  tries : Nat
  tried : List (Nat × Nat)
  probe : Bool
  st : ExSt
  tx : List Bool
deriving DecidableEq, Repr

/-- What a cycle was judged to be (R413); a bit with its quality. -/
inductive Sym where
  | silent
  | erasure
  | bit (b : Bool) (q : Nat)
deriving DecidableEq, Repr

/-- One bell slot: its energy and whether more than 8 of its samples were blanked. -/
structure Bell where
  energy : Nat
  blanked : Bool
deriving DecidableEq, Repr

/-- The edges of one direction: the time of the last crossing in µs of uptime, how many predicted crossings have been missed since, and the
last eight periods, newest first. -/
structure Edge where
  last : Option Nat
  due : Nat
  pers : List Nat
deriving DecidableEq, Repr

/-- The Belfry. `level` is that of the deglitched BLK_ZC since its edge at `edgeAt` (R409). `bad` counts consecutive missed or misplaced edges, `good` consecutive good cycles and `cycOk` says that the
edges of the cycle in progress are good; `next` is the direction expected next; `slotF` the judged slot F of the cycle in
progress, none after a missed edge; `mine`: the Belfry sends a bit in it; `silent` counts silent cycles in a row; `rx` holds
the symbols heard since the end of the request whose answer is awaited; `held` the record under which an exchange goes on that a commit
has taken the line from (Table 16-5); `again` the nodes to poll again at once; `round` the nodes the polling round has still to
visit; `counts` FRAME, CRC_ERR, ERASURE, RETRY, REROUTE and TOKEN; `regs` the registers as the latest end of a cycle or an exchange left
them (R425). -/
structure Blk where
  floor : Nat
  level : Option Bool
  edgeAt : Nat
  rise : Edge
  fall : Edge
  next : Bool
  bad : Nat
  good : Nat
  cycOk : Bool
  down : Bool
  slotF : Option Bell
  mine : Bool
  silent : Nat
  rx : List Sym
  ex : Option Exch
  queue : List BlkReq
  held : Option BelfryRec
  again : List Nat
  round : List Nat
  rounds : Nat
  nodes : List Node
  reports : List (Nat × List Byte)
  reportSeq : Nat
  counts : List Nat
  lastEvent : Option (Nat × Nat × Nat)
  regs : List (Nat × Nat)
deriving DecidableEq, Repr

/-- A node after a main-die reset (R423) or as it joins (R416, R418). -/
def Node.reset : Node := ⟨false, true, true, [⟨0, 0, 128, 0⟩], none, 0⟩

/-- The Belfry after a main-die reset (R423, Table 16-10). -/
def Blk.reset : Blk :=
  { floor := 16, level := none, edgeAt := 0, rise := ⟨none, 0, []⟩, fall := ⟨none, 0, []⟩, next := true, bad := 0, good := 0, cycOk := false, down := false
    slotF := none, mine := false, silent := 0, rx := [], ex := none, queue := [], held := none, again := [], round := [], rounds := 0
    nodes := List.replicate 250 Node.reset, reports := [], reportSeq := 0, counts := List.replicate 6 0, lastEvent := none
    regs := [(0x000, 0xFA020440), (0x008, 0x10), (0x00C, 0x800)] }

end Sys2Proof.Machine
end

