-- ==== Sys2Proof/Machine/StateBse.lean ====
section
/-! DEFINITION. The state of buffer-string and backup-cell estimation (R389 to R408). -/

namespace Sys2Proof.Machine

open Sys2Proof

/-- The running sums of a string's group as the latest update saw them: voltage sum and count, current sum and count, and
accepted frames. -/
structure SumBase where
  vsum : Int
  vcnt : Nat
  isum : Int
  icnt : Nat
  acc : Nat
deriving DecidableEq, Repr

/-- One string. `on`: its record is enabled; `anch`: anchored (R404); `rested`: a rest has set its uncertainty since
CAPACITY_SET last did; `q` the charge count (mA·ms), `cap` the learned capacity (mAh), `since` the milliseconds since the
last rest correction, `run` those of the rest run and `corrected` whether the run has made its correction; `pend`: the
rest of R396 is due. `prev` holds the last millisecond's current and voltage if it could start a learning step; `hist` the
currents of the last 60 s, newest first; `loadWait` the milliseconds until a load correction may be made. `cycles` and
`cycRem` are the cycle count and its remainder (mA·ms × 256); `net`, `socA`, `clean` are Q in mA·ms, soc_A and no
sense_missing since A (R398); `act` the levels LOW, LOW_LOW, HIGH and HIGH_HIGH entered. -/
structure Str where
  on : Bool
  anch : Bool
  rested : Bool
  q : Nat
  cap : Nat
  since : Nat
  restTime : Nat
  drift : Bool
  run : Nat
  corrected : Bool
  pend : Bool
  cur : Int
  volt : Nat
  temp : Option Int
  prev : Option (Int × Nat)
  hist : List Int
  loadWait : Nat
  sm : Bool
  nt : Bool
  vhigh : Bool
  vlow : Bool
  act : List Bool
  level : Nat
  cycles : Nat
  cycRem : Nat
  net : Int
  socA : Option Nat
  clean : Bool
  r0 : List Nat
  base : SumBase
deriving DecidableEq, Repr

/-- The backup cell's state as a message brings it to BSE (R406). -/
structure CellInfo where
  soc : Nat
  cap : Nat
  level : Nat
  charger : Nat
  ma : Int
  mv : Nat
  temp : Option Int
deriving DecidableEq, Repr

/-- The estimator on the Saggar die (R405, R406). `q` is the remaining charge (mA·s); `fromFull` the charge drawn since
FULL; `quiet` the seconds without load above 12 mA; `cut`: cut-off reached, and its cell voltage still to be reported. -/
structure Cell where
  info : CellInfo
  q : Nat
  fromFull : Option Nat
  quiet : Nat
  stopped : Bool
  cut : Bool
  cutMv : Option Nat
deriving DecidableEq, Repr

/-- BSE: the strings, the backup cell as last reported, the latest event's source, subcode and argument byte, the registers
as the latest update left them (R408), and whether no configuration has been in force since the main-die reset. -/
structure Bse where
  strs : List Str
  cell : CellInfo
  stale : Bool
  lastEvent : Option (Nat × Nat × Nat)
  regs : List (Nat × Nat)
  fresh : Bool
deriving DecidableEq, Repr

/-- A string that is not configured. -/
def Str.reset : Str :=
  { on := false, anch := false, rested := false, q := 0, cap := 0, since := 0, restTime := 0, drift := false, run := 0
    corrected := false, pend := false, cur := 0, volt := 0, temp := none, prev := none, hist := [], loadWait := 0
    sm := false, nt := false, vhigh := false, vlow := false, act := [false, false, false, false], level := 0, cycles := 0
    cycRem := 0, net := 0, socA := none, clean := true, r0 := [], base := ⟨0, 0, 0, 0, 0⟩ }

/-- A cell state before any report. -/
def CellInfo.reset : CellInfo := ⟨0, 1000, 0, 0, 0, 0, none⟩

/-- The Saggar's estimator at its first power-on: the rated 1,000 mAh (R405), nothing counted. -/
def Cell.reset : Cell := ⟨CellInfo.reset, 0, none, 0, false, false, none⟩

/-- BSE at reset (Table 15-7): the cell's state is stale. -/
def Bse.reset : Bse := ⟨List.replicate 32 Str.reset, CellInfo.reset, true, none, [(0x000, 0x20080B00), (0x018, 0x08000000)], true⟩

end Sys2Proof.Machine
end

