-- ==== Sys2Proof/Machine/StateEvr.lean ====
section
/-! DEFINITION. The state of the event recorder (R426 to R444). -/

namespace Sys2Proof.Machine

open Sys2Proof

/-- An accumulator half (R429): its quantity record, its start and whether that is uptime, whether it started away from a
nominal close, and what it accumulated. -/
structure Half where
  cfg : QuantRec
  start : Nat
  unk : Bool
  short : Bool
  count : Nat
  missing : Nat
  sum : Int
  min : Int
  max : Int
  tMin : Nat
  tMax : Nat
  bins : List Nat
deriving DecidableEq, Repr

/-- A closed period that waits for its record; `half`: it occupies its quantity's frozen half. -/
structure Closed where
  q : Nat
  h : Half
  end_ : Nat
  flags : Nat
  half : Bool
deriving DecidableEq, Repr

/-- The extremes kept while DEGRADED (R442). -/
structure Ext where
  min : Int
  max : Int
  tMin : Nat
  tMax : Nat
deriving DecidableEq, Repr

/-- A quantity: its live half; the latest nominal close while one is deferred (R431); a half that a commit has closed and that waits for the
other to be written, with its record's flags; whether it starts at the next boundary (R440), and whether that boundary has passed while
both halves were taken; and its extremes since DEGRADED entry. -/
structure Quant where
  live : Option Half
  pend : Option Nat
  late : Option (Half × Nat)
  susp : Bool
  due : Bool
  ext : Ext
deriving DecidableEq, Repr

/-- EVR. `flash` holds the records of the recorder partition by rising seq and `held` those of the tiles (R434, R435); `next` is the seq of
the next record and `newest` the newest written; `writing` the record in its tile and not yet programmed, `torn` the one whose page was
being programmed at the main-die reset (R438); `restoring`: the areas are being loaded (R438); `testing`: the partition check that follows
a live switch runs (R437); `refill` the retired indices being refilled (R441); `retired` counts retired recorder indices over the device's life;
`degraded` the S-time of DEGRADED entry; `extSaved` the extremes in Spire NVM and `extNext` those that wait for it (R491); `intr` the
interrupted records of power-fails and `cutOff` the quantities a reset of another kind interrupted, both to be written after the restart
(R439); `gbase` and `gmean` each group's sums at the last millisecond and its means over it (current,
voltage). -/
structure Evr where
  qs : List Quant
  queue : List Closed
  writing : Option (Nat × List Byte)
  torn : Option (Nat × List Byte)
  flash : List (Nat × List Byte)
  held : List (Nat × List Byte)
  next : Nat
  newest : Nat
  restoring : Bool
  testing : Bool
  refill : List Nat
  retired : Nat
  degraded : Option Nat
  extSaved : List Ext
  extNext : Option (List Ext)
  intr : List Closed
  cutOff : List (Nat × QuantRec)
  defers : Nat
  lost : Nat
  gbase : List SumBase
  gmean : List (Int × Int)
  lastEvent : Option (Nat × Nat × Nat)
deriving DecidableEq, Repr

/-- No extreme (Table 17-3). -/
def noExtreme : Int := -2147483648

/-- No extremes. -/
def Ext.none : Ext := ⟨noExtreme, noExtreme, 0xFFFFFFFFFFFFFFFF, 0xFFFFFFFFFFFFFFFF⟩

/-- A quantity after a main-die reset. -/
def Quant.reset (e : Ext) : Quant := ⟨.none, .none, .none, false, false, e⟩

/-- A half as it becomes live. -/
def Half.new (r : QuantRec) (start : Nat) (unk short : Bool) : Half :=
  ⟨r, start, unk, short, 0, 0, 0, noExtreme, noExtreme, 0xFFFFFFFFFFFFFFFF, 0xFFFFFFFFFFFFFFFF, List.replicate 32 0⟩

/-- EVR after a main-die reset (Table 17-9): loading its areas; what the flash and Spire NVM hold stays. -/
def Evr.reset (flash : List (Nat × List Byte)) (torn : Option (Nat × List Byte)) (retired : Nat) (degraded : Option Nat) (ext : List Ext)
    (next : Option (List Ext)) (intr : List Closed) (cutOff : List (Nat × QuantRec)) : Evr :=
  let newest := ((flash.getLast?).map Prod.fst).getD 0
  { qs := (List.range 128).map (fun i => Quant.reset (ext.getD i Ext.none)), queue := [], writing := .none, torn := torn, flash := flash
    held := [], next := newest, newest := newest, restoring := true, testing := false, refill := [], retired := retired
    degraded := degraded, extSaved := ext, extNext := next, intr := intr, cutOff := cutOff, defers := 0, lost := 0, gbase := List.replicate 64 ⟨0, 0, 0, 0, 0⟩, gmean := List.replicate 64 (0, 0)
    lastEvent := .none }

end Sys2Proof.Machine
end

