-- ==== Sys2Proof/Machine/StateHqe.lean ====
section
/-! DEFINITION. The state of the host queue engine: rings, tags, event entries, MSI-X vectors and registers of both
functions (R75 to R115, R514). -/

namespace Sys2Proof.Machine

open Sys2Proof

/-- One entry fetched from an SQ and not yet forwarded: its slot, and its dwords once the read has returned (R94, R110). -/
structure Fetched where
  idx : Nat
  dw : Option (List Word)
deriving DecidableEq, Repr

/-- A submission ring (R78 to R83). `deleting` is set from an SQ_DELETE to its CQE. -/
structure SqRing where
  base : Nat
  k : Nat
  cq : Nat
  head : Nat
  tail : Nat
  fault : Bool
  deleting : Bool
  fetched : List Fetched
deriving DecidableEq, Repr

/-- A completion ring with its moderation (R81, R89, R109). `fresh` counts the CQEs posted since the vector last fired,
quiet ones excluded; `timing` says that the coalescing time runs. -/
structure CqRing where
  base : Nat
  k : Nat
  head : Nat
  tail : Nat
  phase : Bool
  ie : Bool
  count : Nat
  time : Nat
  fresh : Nat
  timing : Bool
  fault : Bool
deriving DecidableEq, Repr

/-- A held or pending event entry (Table 03-5, R107). `after` are the commands that caused its occurrences: their CQEs go first
(R97). -/
structure PendEv where
  code : Nat
  count : Nat
  arg : Nat
  source : Nat
  after : List (Fn × Nat × Nat)
deriving DecidableEq, Repr

/-- One MSI-X table entry, its mask and pending bits, and an event vector's hold-off (R105, R108, R109). -/
structure MsixVec where
  addrLo : Word
  addrHi : Word
  data : Word
  masked : Bool
  pend : Bool
  hold : Bool
  again : Bool
deriving DecidableEq, Repr

/-- What the HQE keeps for one function. `bars` are the base addresses that the host has written to BARs 0, 2 and 4 (R75). -/
structure FnState where
  enable : Bool
  asqLo : Word
  asqHi : Word
  acqLo : Word
  acqHi : Word
  adminSize : Word
  faultInfo : Word
  saggarMiss : Bool
  sqs : List (Option SqRing)
  cqs : List (Option CqRing)
  eventCq : Option Nat
  pendEv : List PendEv
  held : List PendEv
  vecs : List MsixVec
  rr : Nat
  bars : List Nat
deriving DecidableEq, Repr

/-- A command forwarded to its island and not yet completed. `accepted`: the island has taken it. `orphan`: its rings have
gone, so its completion is discarded (R100). `failed`: a read of its host buffer has failed (R102, R515). -/
structure Fwd where
  fn : Fn
  sq : Nat
  cid : Nat
  op : Nat
  accepted : Bool
  orphan : Bool
  quiet : Bool
  failed : Bool
deriving DecidableEq, Repr

/-- What the posting of a completion waits for or brings: the end of an SQ, posted after its last completion (R83); an ABORT's,
posted after that of the command it aborted (R84); a CQ_MODERATE's, after which its settings take effect (R109). -/
inductive CqeTail where
  | sqGone (n : Nat)
  | aborted (sq cid : Nat)
  | moderates (cq count time : Nat)
deriving DecidableEq, Repr

/-- A completion ready to be posted (Table 03-4), with what its posting waits for or brings. -/
structure Cqe where
  fn : Fn
  sq : Nat
  cid : Nat
  status : Nat
  result : Nat
  quiet : Bool
  tail : Option CqeTail
deriving DecidableEq, Repr

/-- What a host-memory read is for (R110): an SQE slot, a forwarded command's buffer, or nothing
any more because its ring has gone. -/
inductive Purpose where
  | sqe (sq idx : Nat)
  | buffer (sq cid : Nat)
  | gone
deriving DecidableEq, Repr

/-- A host-memory read request, waiting for a tag or holding one (R110). -/
structure ReadReq where
  fn : Fn
  purpose : Purpose
  addr : Nat
  len : Nat
  got : List Byte
  failed : Bool
deriving DecidableEq, Repr

/-- An answer of the Saggar to a tunnelled command (R77): the bytes for the host buffer and the CQE's fields. -/
structure Answer where
  sq : Nat
  cid : Nat
  status : Nat
  result : Nat
  addr : Nat
  buf : List Byte
deriving DecidableEq, Repr

/-- The HQE (R75 to R115). `tags` holds the reads that own a tag; `dropped` the commands discarded in their crossing when their
rings ended (R100); `lastPf1` alternates PF0 and PF1 (R94); `extTag`, `maxRead`, `maxPayload` and `cplTimeout` are Extended Tag
Field Enable, Max Read Request Size and Max Payload Size in bytes, and the Completion Timeout Value of Device Control 2, whose 0
is 50 ms (R76, R110, R111). -/
structure Hqe where
  f0 : FnState
  f1 : FnState
  ready : List Cqe
  fwd : List Fwd
  tags : List (Nat × ReadReq)
  readWait : List ReadReq
  answers : List Answer
  dropped : List (Fn × Nat × Nat)
  lastPf1 : Bool
  extTag : Bool
  maxRead : Nat
  maxPayload : Nat
  cplTimeout : Nat
deriving DecidableEq, Repr

/-- A vector as PCIe leaves it: masked, not pending (R109). -/
def MsixVec.reset : MsixVec := ⟨0, 0, 0, true, false, false, false⟩

/-- A function's queue state at reset (Tables 03-12 to 03-15): no ring exists. -/
def FnState.reset (rings vectors : Nat) : FnState :=
  { enable := false, asqLo := 0, asqHi := 0, acqLo := 0, acqHi := 0, adminSize := 0x404, faultInfo := 0
    saggarMiss := false, sqs := List.replicate rings none, cqs := List.replicate rings none, eventCq := none
    pendEv := [], held := [], vecs := List.replicate vectors MsixVec.reset, rr := 1, bars := [0, 0, 0] }

/-- The commands of a function discarded when its rings end: those not yet taken by their islands (R100). -/
def Hqe.lostIn (fn : Fn) (h : Hqe) : List (Fn × Nat × Nat) :=
  h.dropped.filter (fun d => d.1 ≠ fn) ++ (h.fwd.filter (fun f => f.fn = fn && !f.accepted)).map (fun f => (f.fn, f.sq, f.cid))

/-- The HQE at reset (R75, R110). PCIe gives Device Control 32 tags, 512-byte read requests and 128-byte payloads until the host
writes it (PRESUMED, log entry 8). -/
def Hqe.reset : Hqe :=
  { f0 := FnState.reset 64 72, f1 := FnState.reset 4 8, ready := [], fwd := [], tags := [], readWait := [], answers := []
    dropped := [], lastPf1 := true, extTag := false, maxRead := 512, maxPayload := 128, cplTimeout := 0 }

end Sys2Proof.Machine
end

