-- ==== Sys2Proof/Machine/StateSg.lean ====
section
/-! DEFINITION. The state of the Saggar: measurement (SGM, R310 to R345), billing (BTE, R346 to R373) and seal and signing
(MSS, R374 to R388). -/

namespace Sys2Proof.Machine

open Sys2Proof

/-! ### SGM -/

/-- What runs in the Saggar: SETTLING, normal measurement and battery mode (Table 12-13); ship state (R73); stopped without
supply (R335, R337). -/
inductive SgMode where
  | settling
  | normal
  | battery
  | ship
  | off
deriving DecidableEq, Repr

/-- The code of a mode (Table 12-13). -/
def SgMode.code : SgMode → Nat
  | .normal => 0
  | .settling => 1
  | _ => 2

/-- The decimator of one modulator channel (R313) with its fault tests (R316): what the latest two blocks of 128 bits still add
to the next two outputs of the sinc³ filter; the filter's latest outputs, newest first, at most 95; the latest bit and how
many identical ones ended with it; whether the latest sample saw 4,096 in a row; codes of magnitude 8,000,000 or more in a
row; and codes in a row with neither condition. -/
structure Decim where
  next : Int
  after : Int
  hist : List Int
  last : Bool
  run : Nat
  stuck : Bool
  overs : Nat
  good : Nat
deriving DecidableEq, Repr

/-- A band-pass filter's memory (R321): the latest two inputs and outputs. -/
structure Band where
  x1 : Int
  x2 : Int
  y1 : Int
  y2 : Int
deriving DecidableEq, Repr

/-- One phase's fundamentals (R321): the filters of its voltage and current, and the fundamental voltage of the latest samples,
newest first, at most 802: a quarter period of 2.5 Hz (R321). -/
structure PhaseBand where
  v : Band
  i : Band
  hist : List Int
deriving DecidableEq, Repr

/-- A pulse output (R327): its configuration, base and sent; the samples its active pulse has left; the samples it will have
been inactive at the next boundary; whether the active pulse was counted already, by a change of weight (R328); and such
pulses that a supply loss cut short, which are still due. -/
structure Pulse where
  src : Nat
  width : Nat
  weight : Nat
  base : Nat
  sent : Nat
  active : Option Nat
  idle : Nat
  counted : Bool
  owed : Nat
deriving DecidableEq, Repr

/-- An S0 input (R329). -/
structure S0In where
  cls : Nat
  weight : Nat
  on : Bool
  rejects : Nat
deriving DecidableEq, Repr

/-- An accepted PULSE_CONFIG that waits for the next sample boundary, with its signature counter. -/
structure PulseCfg where
  input : Bool
  idx : Nat
  src : Nat
  width : Nat
  cls : Nat
  weight : Nat
  counter : Nat
deriving DecidableEq, Repr

/-- A save in Saggar NVM (R336): kind 0 PERIODIC, 1 BATTERY, 2 HOLDUP, 3 FINAL; its L-time; what it holds, with base, sent and
owed of each pulse output. -/
structure Save where
  kind : Nat
  time : Nat
  acc : List Nat
  res : List Nat
  pulses : List (Nat × Nat × Nat)
  credit : List (Int × Nat)
deriving DecidableEq, Repr

/-- An AC block in progress (R320 to R322) with the sums of R343: samples, Σp, channel sums and square sums, port power
sums, phase power sums, the phases' sums of R321, the square sum of L1 + L2 + L3, L1 voltage zero crossings, and
the sign of the latest L1 sample. -/
structure Block where
  n : Nat
  p : Int
  sum : List Int
  sq : List Nat
  pw : List Int
  ph : List Int
  q : List Int
  nsq : Nat
  cross : Nat
  neg : Option Bool
deriving DecidableEq, Repr

/-- The second in progress (R339): samples, sums of voltage, current and power per port, ports not valid in it, each
port's net energy at its start, and the grid's power sums. -/
structure Second where
  n : Nat
  v : List Int
  i : List Int
  p : List Int
  bad : List Bool
  base : List Int
  gp : Int
  gq : Int
  qn : Nat
deriving DecidableEq, Repr

/-- A measurement summary (Table 12-6); a faulted port's first faulted channel and cause go with it (R344). -/
structure Summary where
  time : Nat
  valid : Nat
  fault : Nat
  ac : Nat
  causes : List (Nat × Nat)
  acCause : Nat × Nat
  ports : List (Int × Int × Nat × Int)
  gridP : Int
  gridQ : Int
  freq : Nat
deriving DecidableEq, Repr

/-- A summary on the Saggar link: its record in frames of at most 64 bytes (R339), and the faulted channels and causes that
reach the site island with it (R344). -/
structure SumMsg where
  frames : List (List Byte)
  causes : List (Nat × Nat)
  acCause : Nat × Nat
deriving DecidableEq, Repr

/-- SGM. `rails` are MOD_VV and MOD_VI, `mclk` the divider of each modulator clock, 0 while it is stopped (R312); `acc` and `res` are accumulators in µ-units and residues, by register id; `cal` is the calibration set in force,
`calAc` the one AC channels still use and `calNext` one that waits for the next sample boundary (R315); `faults` the cause
per channel; `prev` the previous codes of the AC channels and `prev2` those before; `band` the fundamentals of L1 to L3 and
`line` the line frequency the latest block measured (R321); `settle` the samples discarded in SETTLING (R334); `inst` the
record of the last block; `saves` the two slots of Saggar NVM, `saving` a periodic save being written, `sramCrc` the CRC-32C
over the SRAM and `lastSave` the kind and uptime of the latest save since power-on (R336); `boundAt` the L-time of the latest
sample boundary; `gapFrom` the L-time of the save restored with a gap; `batSince` the uptime at which battery mode began. -/
structure Sgm where
  mode : SgMode
  rails : Bool × Bool
  mclk : List Nat
  decim : List Decim
  cal : List Byte
  calAc : List Byte
  calNext : Option (List Byte)
  faults : List Nat
  acc : List Nat
  res : List Nat
  prev : List Int
  prev2 : List Int
  band : List PhaseBand
  line : Nat
  settle : Nat
  block : Block
  freq : Nat
  freqFault : Bool
  neutral : Bool
  neutralRun : Nat
  inst : List Byte
  sec : Second
  pulses : List Pulse
  s0 : List S0In
  pulseNext : List PulseCfg
  saves : Option (NvSlot Save) × Option (NvSlot Save)
  saving : Option Save
  sramCrc : Nat
  lastSave : Option (Nat × Nat)
  boundAt : Nat
  saveGap : Bool
  gapFrom : Option Nat
  batSince : Option Nat
  batRead : Bool
  cws : Nat
  shipOrder : Bool
  shipStart : Nat
  lastEvent : Option (Nat × Nat × Nat)
deriving DecidableEq, Repr

/-! ### BTE -/

/-- A tariff calendar: its three tiles (Tables 13-3 to 13-5). -/
structure Calendar where
  t0 : List Byte
  t1 : List Byte
  t2 : List Byte
  activation : Nat
deriving DecidableEq, Repr

/-- The open interval (R349): its number, opening L-time (all ones if not valid) and uptime, flags, rate, clock adjustment
in µs, and the registers at opening. -/
structure Interval where
  seq : Nat
  start : Nat
  startUp : Nat
  flags : Nat
  rate : Nat
  adj : Int
  regs : List Nat
deriving DecidableEq, Repr

/-- An open session (R364): `open_` its L-time, `reg` the port's DC_DEL accumulator at the open, `energy` µWh by rate,
`sent` the credit state last sent, `acct` the account state last posted; `said`: a CREDIT has left at the latest sample boundary
(R371). -/
structure BteSess where
  number : Nat
  port : Nat
  prepaid : Bool
  open_ : Nat
  reg : Nat
  energy : List Nat
  cost : Nat
  sent : Nat
  acct : Nat
  said : Bool
deriving DecidableEq, Repr

/-- An accepted clock step that waits for the sample boundary: the change of the clock's offset from uptime, or the first
setting's offset, and its class: 0 small, 1 large, 2 first. -/
structure ClockStep where
  off : Int
  cls : Nat
  counter : Nat
deriving DecidableEq, Repr

/-- What an accepted token leaves in Saggar NVM (R369): the accounts, the low-water mark and the used ids. -/
structure Spent where
  credit : List (Int × Nat)
  lwm : Nat
  used : List Nat
deriving DecidableEq, Repr

/-- BTE. `up` is Saggar uptime in µs and `off` L-time minus uptime, none while the clock is not valid (R358); `steps` the accepted clock
steps that wait, in order; `smalls` the small steps of the last day with their uptimes; `closed` the latest interval boundary already passed in L-time and
`closedUp` the same in uptime (R361); `store` the interval records held, oldest first; `md` each demand register's value
and interval; `calCopies` and `nextCopies` the A and B copies of the active and the pending calendar, none where a copy has
failed (R355); `periodDates` the local dates evaluated for a period close (R352); `spent` the slots of R369; `fails` failure uptimes by keypad, newest first (R370); `used` the used ids at or above `lwm`; `carryQ` the
carries that wait for a software restart (R381). -/
structure Bte where
  up : Nat
  off : Option Int
  steps : List ClockStep
  smalls : List (Nat × Nat)
  open_ : Interval
  closed : Nat
  closedUp : Nat
  store : List (Nat × List Byte)
  period : Nat
  periodStart : Nat
  periodBad : Bool
  periodDates : List Nat
  trImp : List Nat
  trExp : List Nat
  trDc : List Nat
  mdImp : List (Nat × Nat)
  mdDc : List (Nat × Nat)
  cal : Option Calendar
  calNext : Option Calendar
  calCopies : Option Calendar × Option Calendar
  nextCopies : Option Calendar × Option Calendar
  calFault : Bool
  rate : Nat
  season : Nat
  special : Bool
  day : Nat
  credit : List (Int × Nat)
  sess : List BteSess
  lwm : Nat
  used : List Nat
  spent : Option (NvSlot Spent) × Option (NvSlot Spent)
  fails : List (Nat × List Nat)
  carryQ : List (Nat × Nat)
  lastEvent : Option (Nat × Nat × Nat)
deriving DecidableEq, Repr

/-! ### MSS -/

/-- MSS. `image` and `imageOld` are the digests of the active Saggar image and of the one before it, with their versions;
`sealSt` 0 CLOSED, 1 OPEN, 2 APPLYING; `sealAt` the uptime of OPEN; `coverSeen`: the cover has been opened in the procedure;
`openedAt` the uptime at which the cover opened; `openedOut`: that was outside a
procedure; `unseen`: it was while the Saggar was off; `pastCtrs` the last accepted counters of keys no longer installed (R376);
`prot` and `ring` the two areas of the log (R382); `shipAuth` the uptime at which a ship authorisation lapses; `restarting`: BTE
and MSS restart on a new image (R381), `imageAt` the uptime at which that began, `waiting` the tunnelled commands that wait for
them, with their host buffers. -/
structure Mss where
  serial : BitVec 64
  auth : Option (List Byte)
  oper : Option (List Byte)
  token : Option (List Byte)
  ctrAuth : Nat
  ctrOper : Nat
  pastCtrs : List (List Byte × Nat)
  sealCount : Nat
  tamper : Bool
  cover : Bool
  openedAt : Nat
  openedOut : Bool
  unseen : Bool
  coverSeen : Bool
  sealSt : Nat
  sealAt : Nat
  hash : List Byte
  staging : List Byte
  image : List Byte × Nat
  imageOld : Option (List Byte × Nat)
  rollback : Bool
  restarting : Bool
  imageAt : Nat
  waiting : List (Sqe × List Byte)
  answerSeq : Nat
  recordSeq : Nat
  sessions : List (Nat × List Byte)
  periods : List (Nat × List Byte)
  logSeq : Nat
  prot : List (Nat × List Byte)
  ring : List (Nat × List Byte)
  shipAuth : Option Nat
  lastEvent : Option (Nat × Nat × Nat)
  line : Nat
deriving DecidableEq, Repr

/-! ### Reset -/

/-- An empty block. -/
def Block.empty : Block :=
  ⟨0, 0, List.replicate 40 0, List.replicate 40 0, List.replicate 16 0, List.replicate 3 0, List.replicate 3 0, 0, 0,
    none⟩

/-- An empty second, from the ports' net energies at its start. -/
def Second.empty (base : List Int) : Second :=
  ⟨0, List.replicate 16 0, List.replicate 16 0, List.replicate 16 0, List.replicate 16 false, base, 0, 0, 0⟩

/-- A pulse output that is off (Table 12-13). -/
def Pulse.reset : Pulse := ⟨0xFF, 0, 1, 0, 0, none, 0, false, 0⟩

/-- An S0 input that is off. -/
def S0In.reset : S0In := ⟨0, 1, false, 0⟩

/-- A decimator before its first bit. -/
def Decim.reset : Decim := ⟨0, 0, List.replicate 95 0, false, 0, false, 0, 0⟩

/-- A phase's filters before their first sample. -/
def PhaseBand.reset : PhaseBand := ⟨⟨0, 0, 0, 0⟩, ⟨0, 0, 0, 0⟩, []⟩

/-- What the SRAM holds under its CRC (R336): accumulators, from which roll counts follow, residues, and the pulse outputs' bases
and counts. The order and widths are the model's. -/
def sramBytes (acc res : List Nat) (pulses : List (Nat × Nat × Nat)) : List Byte :=
  acc.flatMap (le 12) ++ res.flatMap (le 8) ++ pulses.flatMap (fun p => le 12 p.1 ++ le 8 p.2.1 ++ le 4 p.2.2)

/-- A pulse output's base, sent and owed. -/
def Pulse.counts (p : Pulse) : Nat × Nat × Nat := (p.base, p.sent, p.owed)

/-- The bytes of a save. -/
def Save.bytes (v : Save) : List Byte :=
  le 1 v.kind ++ le 8 v.time ++ sramBytes v.acc v.res v.pulses ++ v.credit.flatMap (fun c => leS 4 c.1 ++ le 8 c.2)

/-- SGM at Saggar power-on with nothing yet measured (Table 12-13): SETTLING, rails on and clocks at 6.144 MHz. -/
def Sgm.reset : Sgm :=
  { mode := .settling, rails := (true, true), mclk := [4, 4, 4, 4], decim := List.replicate 40 Decim.reset, cal := List.replicate 656 0, calAc := List.replicate 656 0, calNext := none
    faults := List.replicate 40 0, acc := List.replicate 64 0, res := List.replicate 64 0, prev := List.replicate 8 0
    prev2 := List.replicate 8 0, band := List.replicate 3 PhaseBand.reset, line := 0, settle := 0
    block := Block.empty, freq := 0, freqFault := false, neutral := false, neutralRun := 0, inst := List.replicate 280 0
    sec := Second.empty (List.replicate 16 0), pulses := List.replicate 4 Pulse.reset, s0 := List.replicate 4 S0In.reset
    pulseNext := [], saves := (none, none), saving := none
    sramCrc := crc32c (sramBytes (List.replicate 64 0) (List.replicate 64 0) (List.replicate 4 (0, 0, 0))), lastSave := none
    boundAt := 0xFFFFFFFFFFFFFFFF, saveGap := false, gapFrom := none, batSince := none
    batRead := false, cws := 0, shipOrder := false, shipStart := 0, lastEvent := none }

/-- The interval open at Saggar power-on: the clock is not valid. -/
def Interval.first (seq : Nat) (regs : List Nat) : Interval := ⟨seq, 0xFFFFFFFFFFFFFFFF, 0, 1, 0, 0, regs⟩

/-- BTE as manufactured (Table 13-12, R519): no calendar, no session, clock not valid. -/
def Bte.reset : Bte :=
  { up := 0, off := none, steps := [], smalls := [], open_ := Interval.first 0 (List.replicate 64 0), closed := 0
    closedUp := 0, store := [], period := 0, periodStart := 0xFFFFFFFFFFFFFFFF, periodBad := true, periodDates := []
    trImp := List.replicate 16 0, trExp := List.replicate 16 0, trDc := List.replicate 16 0
    mdImp := List.replicate 16 (0, 0), mdDc := List.replicate 16 (0, 0), cal := none, calNext := none
    calCopies := (none, none), nextCopies := (none, none), calFault := false
    rate := 0, season := 0, special := false, day := 0, credit := List.replicate 16 (0, 0), sess := [], lwm := 0
    used := [], spent := (none, none), fails := [], carryQ := [], lastEvent := none }

/-- The bytes of what a token leaves in NVM. -/
def Spent.bytes (v : Spent) : List Byte :=
  v.credit.flatMap (fun c => leS 4 c.1 ++ le 8 c.2) ++ le 4 v.lwm ++ v.used.flatMap (le 4)

/-- MSS as manufactured, for a serial number, an AUTH key and an image. -/
def Mss.factory (serial : BitVec 64) (auth : List Byte) (image : List Byte × Nat) : Mss :=
  { serial := serial, auth := some auth, oper := none, token := none, ctrAuth := 0, ctrOper := 0, sealCount := 0
    pastCtrs := []
    tamper := false, cover := false, openedAt := 0, openedOut := false, unseen := false, coverSeen := false, sealSt := 0, sealAt := 0, hash := [], staging := []
    image := image, imageOld := none, rollback := false, restarting := false, imageAt := 0, waiting := []
    answerSeq := 0, recordSeq := 0
    sessions := [], periods := [], logSeq := 0, prot := [], ring := [], shipAuth := none, lastEvent := none, line := 0 }

end Sys2Proof.Machine
end

