-- ==== Sys2Proof/Machine/StateSpa.lean ====
section
/-! DEFINITION. The state of the site power allocator (R138 to R170). -/

namespace Sys2Proof.Machine

open Sys2Proof

/-- A credit state as SPA holds it (R162, Table 05-7 step 2). -/
inductive Credit where
  | unknown
  | ok
  | low
  | exhausted
deriving DecidableEq, Repr

/-- Session states (Table 05-8). -/
inductive SessState where
  | active
  | waitCredit
  | withdrawn
  | stopped
  | stopping
deriving DecidableEq, Repr

/-- The code of a session state (Table 05-8). -/
def SessState.code : SessState → Nat
  | .active => 1
  | .waitCredit => 2
  | .withdrawn => 3
  | .stopped => 4
  | .stopping => 5

/-- What SPA keeps for a session beside its ledger entry: state, previous grant, credit, whether its OPEN and CLOSE have
been sent, whether held messages of it were lost (R165), and the SESSION_STOPs that wait for its gate. -/
structure Sess where
  st : SessState
  gPrev : Nat
  credit : Credit
  opened : Bool
  closed : Bool
  lost : Bool
  stops : List (Nat × Nat)
deriving DecidableEq, Repr

/-- The content of a session-crossing message (Table 05-9), or of a relayed token and BTE's answer to its node (R365, R422),
which travel at the same priority. -/
inductive CrossMsg where
  | open (number port : Nat) (prepaid : Bool)
  | close (number reason : Nat)
  | resync (cause : Nat)
  | credit (number state : Nat)
  | token (node : Nat) (digits : List Nat)
  | tokenAnswer (node data : Nat)
deriving DecidableEq, Repr

/-- A held message with the moment it fell due, in microseconds of main-die uptime (R165). -/
structure HeldMsg where
  msg : CrossMsg
  due : Nat
deriving DecidableEq, Repr

/-- The latest inputs delivered to the site island (Table 05-7): group capacity (mA) and voltage (mV), thermal caps, string
limits, rests and port readiness. -/
structure SpaIn where
  cap : List Nat
  volt : List Nat
  hard : List Nat
  soft : List Nat
  charge : List Nat
  discharge : List Nat
  resting : List Bool
  ready : List Bool
deriving DecidableEq, Repr

/-- A session's record in a plan (Table 05-11). -/
structure PlanSess where
  idx : Nat
  st : SessState
  reason : Nat
  grant : Nat
  bound : Nat
  number : Nat
deriving DecidableEq, Repr

/-- A plan (Table 05-11). `grants`: each group's grant, a discharge negative. `mode`: 0 ZERO, 1 FIXED_TIER, 2 FULL. -/
structure Plan where
  epoch : Nat
  time : Nat
  grid : Nat
  ports : Nat
  charge : Nat
  discharge : Nat
  mode : Nat
  zero : Nat
  refs : List (Int × Nat)
  grants : List Int
  sess : List PlanSess
  strings : List (Nat × Nat)
deriving DecidableEq, Repr

/-- The snapshot a re-plan works on (R145, R149). -/
structure Snap where
  epoch : Nat
  time : Nat
  mode : Nat
  zero : Nat
  inp : SpaIn
  ledger : List (Nat × Entry)
  sess : List (Nat × Sess)
  linkUp : Bool
  heldOpen : List Nat
deriving DecidableEq, Repr

/-- A ledger entry that a command replaced, while the command's completion is not posted (R24): its SQ and id, how many completions
of that SQ and id are still to be posted up to its own, the index and the entry. -/
structure Unposted where
  sq : Nat
  cid : Nat
  left : Nat
  idx : Nat
  old : Entry
deriving DecidableEq, Repr

/-- SPA. `ledger` lists the entries that are not FREE, by index; `unwritten` the ledger tiles not written since
the main-die reset, which are FREE (R136); `snapLedger` as the latest re-plan read them;
`sess` the running sessions by ledger index. `ledgerFaults` are the ledger tiles whose copies both failed (R128); `unposted` the entries that ledger
commands replaced, until their completions are posted (R24). `shown` is the epoch number and the unreadable tile as the registers show them since
the latest gate (R170). `waiting` holds the ledger commands that wait for the write window. `vsum` holds each group's running sum and count of
voltage samples as last delivered and `vbase` as they stood at the latest boundary (R150, R203). `rests` are the minutes of each
string's rest and the uptime at which it ends, once a gate has begun it (R166). -/
structure Spa where
  ledger : List (Nat × Entry)
  unwritten : List Nat
  snapLedger : List (Nat × Entry)
  sess : List (Nat × Sess)
  changed : List Nat
  ledgerFaults : List Nat
  unposted : List Unposted
  shown : Nat × Option Nat
  started : Bool
  epoch : Nat
  fallbacks : Nat
  lateRun : Nat
  snap : Option Snap
  ready : Option Plan
  plan : Plan
  window : Bool
  waiting : List (Sqe × HostRead)
  outbox : List HeldMsg
  resyncDue : Bool
  admission : Bool
  cfgReg : Nat
  epochLen : Nat
  inp : SpaIn
  rests : List (Nat × Option Nat)
  vsum : List (Int × Nat)
  vbase : List (Int × Nat)
deriving DecidableEq, Repr

/-- No thermal cap (R149). -/
def noCap : Nat := 0xFFFFFFFF

/-- Inputs at reset: no capacity, no caps, no string limits, no port ready. -/
def SpaIn.reset : SpaIn :=
  { cap := List.replicate 64 0, volt := List.replicate 64 0, hard := List.replicate 64 noCap
    soft := List.replicate 64 noCap, charge := List.replicate 32 0, discharge := List.replicate 32 0
    resting := List.replicate 32 false, ready := List.replicate 16 false }

/-- The plan at reset: ZERO for want of a plan source (Table 05-16). -/
def Plan.reset : Plan :=
  { epoch := 0, time := 0, grid := 0, ports := 0, charge := 0, discharge := 0, mode := 0, zero := 1
    refs := List.replicate 64 (0, 0), grants := List.replicate 64 0, sess := [], strings := List.replicate 32 (0, 0) }

/-- SPA at reset (R53, R145, R170). -/
def Spa.reset : Spa :=
  { ledger := [], unwritten := List.range 32, snapLedger := [], sess := [], changed := [], ledgerFaults := [], unposted := [], shown := (0, none), started := false, epoch := 0
    fallbacks := 0, lateRun := 0, snap := none, ready := none, plan := Plan.reset, window := false, waiting := []
    outbox := [], resyncDue := true, admission := false, cfgReg := 1, epochLen := 1, inp := SpaIn.reset, rests := List.replicate 32 (0, none)
    vsum := List.replicate 64 (0, 0), vbase := List.replicate 64 (0, 0) }

end Sys2Proof.Machine
end

