-- ==== Sys2Proof/Machine/StateLink.lean ====
section
/-! DEFINITION. The state of the Saggar link (R41 to R43): its health and the messages on their way in both directions. -/

namespace Sys2Proof.Machine

open Sys2Proof

/-- The Saggar link: whether the main die's end (`up`) and the Saggar's end (`sgUp`) are up, each direction's
consecutive failures of its current frame, the run of good frames each direction brought, whether a frame of it acknowledged
the receiver's latest probe, the probes each direction carried, and the frame sequence numbers (first: to the Saggar, second:
from it). `toSg` and `toSt`
hold session-crossing messages sent and not yet arrived, `inSg` and `inSt` those arrived and not yet taken; a message to
the Saggar carries its hold time and, until it arrives, the moment it fell due, one from it its L-time stamp (R19, R165). `summary` is a measurement summary on its way, `meter` the latest that reached the main
die (R16) and `meterAt` its uptime, and `heldPf1` the Saggar's events held while the PF1 path is down: vector, subcode, argument, source (R19). -/
structure SgLink where
  up : Bool
  sgUp : Bool
  fails : Nat × Nat
  runs : Nat × Nat
  acked : Bool × Bool
  probes : Nat × Nat
  seqs : Nat × Nat
  toSg : List (CrossMsg × Nat × Nat)
  inSg : List (CrossMsg × Nat)
  toSt : List (CrossMsg × Nat)
  inSt : List (CrossMsg × Nat)
  summary : Option SumMsg
  meter : Option Summary
  meterAt : Nat
  heldPf1 : List (Nat × Nat × Nat × Nat)
deriving DecidableEq, Repr

/-- The Saggar link at reset: down (Table 22-3, SUP_SAGGAR.link_up). -/
def SgLink.reset : SgLink := ⟨false, false, (0, 0), (0, 0), (false, false), (0, 0), (0, 0), [], [], [], [], none, none, 0, []⟩

end Sys2Proof.Machine
end

