-- ==== Sys2Proof/Machine/StateKce.lean ====
section
/-! DEFINITION. The state of the Kiln control engine: group contexts, gate banks, the collector and capture routes
(R171 to R196). -/

namespace Sys2Proof.Machine

open Sys2Proof

/-- Kiln group states (Table 06-1). -/
inductive KState where
  | idle
  | quiet
  | firing
  | hold
deriving DecidableEq, Repr

/-- The code of a Kiln state (Table 06-1). -/
def KState.code : KState → Nat
  | .idle => 0
  | .quiet => 1
  | .firing => 2
  | .hold => 3

/-- The command of one link (R172, R179): duty, phase shift, the enable and the interleave offset `ilv` PSC gave it together (R204), and
the kind of Table 08-3 (`held`: repeats the previous command; `safe`: in place of a result). -/
structure Cmd where
  duty : Nat
  shift : Nat
  en : Bool
  ilv : Nat
  held : Bool
  safe : Bool
deriving DecidableEq, Repr

/-- The safe command: enable 0, duty 0 and shift 0 (R172). -/
def Cmd.safeCmd : Cmd := ⟨0, 0, false, 0, false, true⟩

/-- A command written again after a miss (R189), with the enable and the offset PSC has for the sample it answers (R204): where neither
has changed it is the previous command itself (DEDUCED, log entry 20). -/
def Cmd.again (en : Bool) (ilv : Nat) (c : Cmd) : Cmd :=
  { c with held := true, en := en, ilv := ilv, shift := (c.shift + 65536 + ilv - c.ilv % 65536) % 65536 }

/-- Where a group's current sample stands (R188 to R190). `idle`: judged, or no sample begun. `ready`: every input is in and
the lane may fire. `failed`: its comparison has failed with a cause. `missed`: its deadline passed before its inputs were
complete. -/
inductive KPhase where
  | idle
  | ready
  | failed (cause : Nat)
  | missed
deriving DecidableEq, Repr

/-- A capture route (R194): channel, STATE kind, decimation. -/
structure Capture where
  chan : Nat
  full : Bool
  decim : Nat
deriving DecidableEq, Repr

/-- The context of one group's lane. `start`: the next firing is a start firing (R174); `active` is the set it fires
with; `newSet`: new content waits for the active band and `pend` is the band a deferred change goes to (R183); `causes` are those of the consecutive misses; `bankRef`,
`bankLim` are the gate bank in force and `oldRef`, `oldLim` the one before it (R25). `last` holds the command last
written for each member link; `ts` is PLA's stamp of the sample in work, t_S in ns of main-die uptime (R225), and `stamp` the S-time
of it that capture records carry. -/
structure KGroup where
  st : KState
  start : Bool
  band : Nat
  active : Option CoeffSet
  newSet : Bool
  pend : Option Nat
  defer : Nat
  deferred : Bool
  xh : List Int
  zeta : List Int
  u : List Int
  sat : List Bool
  rEff : Int
  count : Nat
  doneCount : Nat
  phase : KPhase
  causes : List Nat
  lastCause : Nat
  bankRef : Int
  bankLim : Nat
  oldRef : Int
  oldLim : Nat
  y : List Int
  w : List Int
  last : List (Nat × Cmd)
  ts : Nat
  stamp : Nat
  ovr : Nat
  cmp : Nat
  forced : Nat
  holds : Nat
  capture : Option Capture
deriving DecidableEq, Repr

/-- The Kiln. `fresh` are results that became ready since the latest collector slot and `queue` those that wait their turn
(R193); `staged` is a COEFF_STAGE's group and its sets' bytes awaiting admission (R195); `gateAt` is when the latest gate bank was
in force in the Kiln, in ns of main-die uptime (R25). -/
structure Kce where
  groups : List KGroup
  fresh : List (Nat × Cmd)
  queue : List (Nat × Cmd)
  staged : Option (Nat × List (Nat × List Byte))
  gateAt : Nat
  lastMiss : Option (Nat × Nat)
deriving DecidableEq, Repr

/-- A lane at reset. -/
def KGroup.reset : KGroup :=
  { st := .idle, start := true, band := 0, active := none, newSet := false, pend := none, defer := 0, deferred := false
    xh := List.replicate 8 0, zeta := List.replicate 4 0, u := List.replicate 4 0, sat := List.replicate 4 false
    rEff := 0, count := 0, doneCount := 0, phase := .idle, causes := [], lastCause := 0, bankRef := 0, bankLim := 0
    oldRef := 0, oldLim := 0, y := List.replicate 8 0, w := List.replicate 2 0, last := [], ts := 0, stamp := 0, ovr := 0, cmp := 0
    forced := 0, holds := 0, capture := none }

/-- The Kiln at reset (Table 06-17). -/
def Kce.reset : Kce :=
  { groups := List.replicate 64 KGroup.reset, fresh := [], queue := [], staged := none, gateAt := 0, lastMiss := none }

end Sys2Proof.Machine
end

