-- ==== Sys2Proof/Machine/StateLk.lean ====
section
/-! DEFINITION. The state of the link island: phase links (PLA, R216 to R242) and phase groups (PSC, R197 to R215). -/

namespace Sys2Proof.Machine

open Sys2Proof

/-- Link states (Table 08-9). -/
inductive LinkSt where
  | off
  | train
  | up
  | down
  | failed
deriving DecidableEq, Repr

/-- The code of a link state (Table 08-9). -/
def LinkSt.code : LinkSt → Nat
  | .off => 0
  | .train => 1
  | .up => 2
  | .down => 3
  | .failed => 4

/-- The steps of a training attempt (Table 08-10); `none` between attempts. -/
inductive TrainStep where
  | none
  | lock
  | echo
  | ident
  | sync
deriving DecidableEq, Repr

/-- The code of a training step (Table 08-10). -/
def TrainStep.code : TrainStep → Nat
  | .none => 0
  | .lock => 1
  | .echo => 2
  | .ident => 3
  | .sync => 4

/-- A LINK_MGMT exchange in progress (R229, R241). -/
structure Mgmt where
  sq : Nat
  cid : Nat
  write : Bool
  n : Nat
  addr : Nat
  data : List Byte
  buf : Nat
  tag : Nat
  sent : Bool
deriving DecidableEq, Repr

/-- One phase link. `sched`: SAMPLE frames are expected, `pos` the position of the next; `bad`, `good`, `pinned` and `run`
count consecutive failed frames, valid in-range unflagged samples (R214), codes 0x7FFF (R207) and accepted frames with
flags [1] to [5] clear (R234, R235); `f0` is the common-grid character of frame 0 (R225), `rd` the running disparity sent (R217), `owes`
that the latest sample's COMMAND has not been sent (R228), `resent` that the Ident READ has been sent again (R234); `got` is the outcome of the sample its group still gathers, for an UP link, and `fresh` that its frame was accepted in any link state
(R222, R391); `answers` is the counter of the latest sample (R220); `errs` are the characters of the common grid at which recent code
errors stand, the latest first (R235); `echoes` the answers of the echo step; `iph`, `vin`, `vout` the per-unit values
last taken. -/
structure Link where
  st : LinkSt
  cause : Nat
  rate : Nat
  flags : Nat
  tstate : Nat
  ack : Nat
  count : Nat
  temp : Int
  iph : Int
  vin : Int
  vout : Int
  code : Int
  got : Option Bool
  fresh : Bool
  sched : Bool
  pos : Nat
  answers : Nat
  f0 : Nat
  owes : Bool
  rd : Bool
  bad : Nat
  good : Nat
  pinned : Nat
  run : Nat
  errs : List Nat
  attempts : Nat
  powerUp : Bool
  step : TrainStep
  waiting : Bool
  echoes : List (Byte × Nat)
  echo : Nat
  tcv : Nat
  ifs : Nat
  identTag : Option Nat
  resent : Bool
  tag : Nat
  seq : Option Nat
  slot : Option Cmd
  mgmt : Option Mgmt
  retrain : Option (Nat × Nat)
  crcErr : Nat
  posErr : Nat
  codeErr : Nat
  cmdErr : Nat
  downs : Nat
  retrains : Nat
deriving DecidableEq, Repr

/-- PLA: the links, each group's frame position as a common-grid character (R225), and the latest event's link, subcode and cause
byte. -/
structure Pla where
  links : List Link
  pos : List (Option Nat)
  lastEvent : Option (Nat × Nat × Nat)
deriving DecidableEq, Repr

/-- PSC group states (Table 07-3). -/
inductive PState where
  | unused
  | gated
  | running
  | tripped
  | locked
  | held
deriving DecidableEq, Repr

/-- The code of a PSC state (Table 07-3). -/
def PState.code : PState → Nat
  | .unused => 0
  | .gated => 1
  | .running => 2
  | .tripped => 3
  | .locked => 4
  | .held => 5

/-- One phase group. `mode` is the state beneath gating and `st` the state of Table 07-3; `gate`: gated by a commit's
admission epoch; `lost` holds each member's loss cause, 0 while available. `retryAt` is the moment the retry timer expires
(main-die uptime, µs) and `frozen` its remainder while a latch report freezes it. `vsum`, `vcnt` are the running sum (mV)
and count of voltage samples, `isum`, `icnt` those of group current (mA), and `acc` the count of its members' accepted
frames. -/
structure PGroup where
  st : PState
  mode : PState
  gate : Bool
  cause : Nat
  lost : List Nat
  en : List Bool
  ilv : List Nat
  retries : Nat
  retryAt : Option Nat
  frozen : Option Nat
  latch : Bool
  ovl : Bool
  theta : Nat
  holdLeft : Nat
  addCnt : Nat
  shedCnt : Nat
  ir : Nat
  irTick : Nat
  imSum : Nat
  imCnt : Nat
  vsum : Int
  vcnt : Nat
  isum : Int
  icnt : Nat
  acc : Nat
  sent : Nat
  fastTrips : Nat
  senseLoss : Nat
  linkLoss : Nat
  overloads : Nat
deriving DecidableEq, Repr

/-- PSC: the groups, and the latest event's group, subcode and cause byte. -/
structure Psc where
  groups : List PGroup
  lastEvent : Option (Nat × Nat × Nat)
deriving DecidableEq, Repr

/-- A link at reset: in TRAIN, before its first attempt (R235, Table 08-16). -/
def Link.reset : Link :=
  { st := .train, cause := 0, rate := 0, flags := 0, tstate := 0, ack := 0, count := 0, temp := 0, iph := 0, vin := 0
    vout := 0, code := 0, got := none, fresh := false, sched := false, pos := 0, answers := 0, f0 := 0, owes := false, rd := false, bad := 0, good := 0, pinned := 0, run := 0, errs := []
    attempts := 0, powerUp := true, step := .none, waiting := false, echoes := [], echo := 0, tcv := 0, ifs := 0
    identTag := none, resent := false, tag := 0, seq := none, slot := none, mgmt := none, retrain := none, crcErr := 0, posErr := 0
    codeErr := 0, cmdErr := 0, downs := 0, retrains := 0 }

/-- PLA at reset (Table 08-16). -/
def Pla.reset : Pla := ⟨List.replicate 64 Link.reset, List.replicate 64 none, none⟩

/-- A group at reset: UNUSED (Table 07-10). -/
def PGroup.reset : PGroup :=
  { st := .unused, mode := .unused, gate := false, cause := 0, lost := List.replicate 8 0
    en := List.replicate 8 false, ilv := List.replicate 8 0, retries := 0, retryAt := none, frozen := none
    latch := false, ovl := false, theta := 0, holdLeft := 0, addCnt := 0, shedCnt := 0, ir := 0, irTick := 0, imSum := 0
    imCnt := 0, vsum := 0, vcnt := 0, isum := 0, icnt := 0, acc := 0, sent := 0, fastTrips := 0, senseLoss := 0, linkLoss := 0
    overloads := 0 }

/-- PSC at reset (Table 07-10). -/
def Psc.reset : Psc := ⟨List.replicate 64 PGroup.reset, none⟩

end Sys2Proof.Machine
end

