-- ==== Sys2Proof/Machine/StateSup.lean ====
section
/-! DEFINITION. The state of the Spire supervisor: device state, commit, journals, firmware slots,
S-time, supply and ship mode (R34 to R74, R445 to R454, R498 to R512). -/

namespace Sys2Proof.Machine

open Sys2Proof

/-- The device states of Table 02-4. -/
inductive DevState where
  | boot
  | bisque
  | waitHost
  | service
  | powerFail
  | shipPending
deriving DecidableEq, Repr

/-- The code of a device state (Table 02-4). -/
def DevState.code : DevState → Nat
  | .boot => 1
  | .bisque => 2
  | .waitHost => 3
  | .service => 4
  | .powerFail => 5
  | .shipPending => 6

/-- The states of a firmware slot (Table 22-3, SUP_UPDATE). -/
inductive SlotState where
  | invalid
  | active
  | inactive
  | staged
  | trial
  | fallback
deriving DecidableEq, Repr

/-- The code of a slot state (Table 22-3). -/
def SlotState.code : SlotState → Nat
  | .invalid => 0
  | .active => 1
  | .inactive => 2
  | .staged => 3
  | .trial => 4
  | .fallback => 5

/-- A main-die firmware slot: its state and the header fields the Spire uses (Table 18-2); `segs` holds each island's segment, its
offset in bytes and its length in KiB. -/
structure Slot where
  st : SlotState
  version : Nat
  cfgMin : Nat
  cfgMax : Nat
  formats : List Nat
  segs : List (Nat × Nat)
deriving DecidableEq, Repr

/-- An island's two instruction banks (R450): the firmware slot whose segment it runs, and that of its idle bank, once loaded. -/
structure Bank where
  run : Nat
  idle : Option Nat
deriving DecidableEq, Repr

/-- A fault journal record (Table 02-8); its CRC is computed when it is read. -/
structure FaultRec where
  time : Nat
  seq : Nat
  island : Nat
  lTime : Bool
  code : Nat
  arg0 : Nat
  arg1 : Nat
  arg2 : Nat
deriving DecidableEq, Repr

/-- The kinds of commit (Table 22-3, SUP_COMMIT_STATUS.kind). -/
inductive CommitKind where
  | config
  | coeff
  | bisque
deriving DecidableEq, Repr

/-- The code of a commit kind (Table 22-3). -/
def CommitKind.code : CommitKind → Nat
  | .config => 1
  | .coeff => 2
  | .bisque => 3

/-- A commit in progress (R63): its kind, its command, the device state it was issued in, and the tiles it lists. -/
structure Commit where
  kind : CommitKind
  sq : Nat
  cid : Nat
  origin : DevState
  handles : List Nat
  validated : Bool
  writing : Bool
deriving DecidableEq, Repr

/-- A live switch in progress (R450): the command, the target slot, the islands still to switch in order, the island
whose ready report is awaited, and whether it is a rollback (R453). -/
structure LiveSwitch where
  sq : Nat
  cid : Nat
  target : Nat
  todo : List Nat
  waiting : Option Nat
  rollback : Bool
deriving DecidableEq, Repr

/-- An UPDATE_STAGE in progress (R447). -/
structure Staging where
  sq : Nat
  cid : Nat
  slot : Nat
  image : Slot
deriving DecidableEq, Repr

/-- A slew of S-time (R508): its direction and the microseconds of difference left, in units of 1/2000 µs. -/
structure Slew where
  fast : Bool
  left : Nat
deriving DecidableEq, Repr

/-- What the state journal keeps of one group (R201): its links, LOCKED with its lock cause, retry count and LOST causes. -/
structure GroupJournal where
  links : List Nat
  locked : Bool
  cause : Nat
  retries : Nat
  lost : List Nat
deriving DecidableEq, Repr

/-- What the state journal keeps of one string (R402), with whether it is anchored (R404); `u` is its uncertainty. -/
structure StrJournal where
  anch : Bool
  cap : Nat
  q : Nat
  soc : Nat
  u : Nat
  cycles : Nat
  hours : Nat
  net : Int
  socA : Option Nat
deriving DecidableEq, Repr

/-- The retire map (R126): the remapped indices, the indices out of service and the spares left. -/
structure RetireMap where
  phys : List (Nat × Nat)
  oos : List Nat
  spares : Nat
deriving DecidableEq, Repr

/-- The content of the state journal (R55): PSC's entries by group (R201), thermal latches by sensor (R284), each
load-switch channel's LOCKOUT, cause and retry count (R302), BSE's state by string (R402), and the session counter (R140). -/
structure Journal where
  groups : List (Nat × GroupJournal)
  latches : List (Nat × Bool × Bool)
  switches : List (Nat × Bool × Nat × Nat)
  strings : List (Nat × StrJournal)
  sessions : Nat
deriving DecidableEq, Repr

/-- What the Spire keeps in NVM beside its journals (Table 22-3, 'From NVM'; R386): the bisque slot, the firmware slots, the count of
resets and the Saggar's serial. -/
structure NvMarks where
  bisqueValid : Bool
  bisqueSlot : Nat
  bisqueId : Nat
  bisqueImage : List RawRec
  slotA : Slot
  slotB : Slot
  resets : Nat
  saggarSerial : Nat
deriving DecidableEq, Repr

/-- SUP. `readyMask` are the islands that have reported ready since their last reset, `readySince` those since they were last powered
(Table 22-3). `banks` are the islands' instruction banks (R450). `posting` is a commit that has ended and whose CQE is not posted yet: it is in progress until then (R63). `image` is the validated image that waits for its admission boundary (R66), and `storing` the slot, configuration
id and records of a BISQUE_STORE's slot write. `sjSlots` are the state journal's two slots and `sjNext` its content as it
stands while no NVM write may start
(R491), `marksOld` the marks NVM holds as long as newer ones wait for that, with the commands that complete after its write in `sjWait`; `impSlots` and `impsNext` are the same of the impedance
tables' slot pair (R402). `darkSince` is the Spire time at which the main die last lost power and `outage` the length of
its last outage with S-time known, in µs (R396). `stime` is none while S-time is unknown (R3). `deferred` holds the journal records and other Spire NVM writes
made before the hold-up is ready (R491). `wdTimes` are the Spire times of the watchdog resets on the active slot since the last fall-back or hold, `wdPast` those
of the last 10 min before it (R48, R57);
`trialLeft` is in microseconds; `resetOrdered` and `restart` are the ordered resets of R510 and R451. -/
structure Sup where
  st : DevState
  prev : Nat
  reason : Nat
  cls : Nat
  lastReset : Nat
  powered : Nat
  readyMask : Nat
  readySince : Nat
  perst : Bool
  pcieUp : Bool
  held : Bool
  noFirmware : Bool
  commit : Option Commit
  posting : Option Commit
  commitOk : Bool
  commitReason : Nat
  commitKind : Nat
  commitTiles : Nat
  configId : Nat
  bisqueValid : Bool
  bisqueSlot : Nat
  bisqueId : Nat
  bisqueImage : List RawRec
  image : Option Cfg
  storing : Option (Nat × Nat × List RawRec)
  slotA : Slot
  slotB : Slot
  bootSlot : Nat
  fwVersion : Nat
  cfgMin : Nat
  cfgMax : Nat
  formats : List Nat
  staging : Option Staging
  live : Option LiveSwitch
  banks : List Bank
  switched : Nat
  trialLeft : Nat
  trialOn : Bool
  restart : Option Nat
  resetOrdered : Bool
  journal : List FaultRec
  journalSeq : Nat
  deferred : List FaultRec
  sjSlots : Option (NvSlot Journal) × Option (NvSlot Journal)
  sjNext : Option Journal
  sjWait : List (Nat × Nat)
  impSlots : Option (NvSlot (List (Nat × List Nat))) × Option (NvSlot (List (Nat × List Nat)))
  impsNext : Option (List (Nat × List Nat))
  retSlots : Option (NvSlot RetireMap) × Option (NvSlot RetireMap)
  retNext : Option RetireMap
  marksOld : Option NvMarks
  darkSince : Option Nat
  outage : Nat
  resets : Nat
  uptime : Nat
  wdTimes : List Nat
  wdPast : List Nat
  spireTime : Nat
  stime : Option Nat
  slew : Option Slew
  main12v : Nat
  charge : Nat
  holdupReady : Bool
  reserveReady : Bool
  shipFrom : Option DevState
  shipLeft : Nat
  replaced : Bool
  saggarSerial : Nat
  lastEvent : Option (Nat × Nat × Nat × Nat)
  scratch : Word
  sessionCtr : Nat
deriving DecidableEq, Repr

/-- An invalid firmware slot. -/
def Slot.empty : Slot := ⟨.invalid, 0, 0, 0, [0, 0, 0, 0, 0, 0, 0], List.replicate 7 (0, 0)⟩

/-- The banks of islands that all run one slot. -/
def banksOf (slot : Nat) : List Bank := List.replicate 7 ⟨slot, none⟩

/-- SUP at Spire power-on (Table 22-3). -/
def Sup.reset : Sup :=
  { st := .boot, prev := 0, reason := 0, cls := 0, lastReset := 0, powered := 0x100, readyMask := 0x100, readySince := 0x100, perst := true
    pcieUp := false, held := false, noFirmware := false, commit := none, posting := none, commitOk := false, commitReason := 0
    commitKind := 0, commitTiles := 0, configId := 0, bisqueValid := false, bisqueSlot := 0, bisqueId := 0
    bisqueImage := [], image := none, storing := none
    slotA := { Slot.empty with st := .active, version := 1, cfgMin := 1, cfgMax := 1 }, slotB := Slot.empty, bootSlot := 0, fwVersion := 1, cfgMin := 1
    cfgMax := 1, formats := [0, 0, 0, 0, 0, 0, 0], staging := none, live := none, banks := banksOf 0, switched := 0, trialLeft := 0
    trialOn := false, restart := none, resetOrdered := false, journal := [], journalSeq := 0, deferred := []
    sjSlots := (none, none), sjNext := none
    sjWait := [], impSlots := (none, none), impsNext := none, retSlots := (none, none), retNext := none, marksOld := none, darkSince := none, outage := 0, resets := 0, uptime := 0, wdTimes := [], wdPast := [], spireTime := 0, stime := none, slew := none
    main12v := 0, charge := 0, holdupReady := false, reserveReady := false, shipFrom := none, shipLeft := 0
    replaced := false, saggarSerial := 0, lastEvent := none, scratch := 0, sessionCtr := 0 }

end Sys2Proof.Machine
end

