-- ==== Sys2Proof/Machine/StateTcm.lean ====
section
/-! DEFINITION. The state of thermal Cones, the Aqaux loop and the load switches (R269 to R309). -/

namespace Sys2Proof.Machine

open Sys2Proof

/-- An orderly stop (R279): the uptime in µs at which it began, its duration in ms, and P0 for each associated group. -/
structure Stop where
  start : Nat
  ms : Nat
  p0 : List (Nat × Nat)
deriving DecidableEq, Repr

/-- One sensor. `good`: its last unflagged conversions, newest first, at most four; `hist`: its readings of the last ticks,
newest first, at most 101; `inCone`: Cones 1 to 4 entered (R275), with the ticks counted toward entering and leaving; `below`: ticks in
a row below th3 − hyst; `grace`: the uptime at which its grace timer started. -/
structure Sens where
  raw : Option Int
  good : List Int
  nFlag : Nat
  nOk : Nat
  broken : Bool
  absent : Bool
  subst : Bool
  cause : Nat
  reading : Option Int
  hist : List (Option Int)
  slope : Int
  l3 : Bool
  l4 : Bool
  inCone : List Bool
  up : List Nat
  dn : List Nat
  below : Nat
  eff : Nat
  grace : Option Nat
  hard2 : Bool
  stop : Option Stop
  tripped : Bool
deriving DecidableEq, Repr

/-- One port's Aqaux loop (R286, R287). `pumpSince`: the uptime at which the pump was last ordered on; `until_`: the uptime
at which FORCE_ON runs out; `low`, `ok` count seconds in a row below and at or above flow_min; `runOn`: the pump stays on for run_on only. -/
structure Aqaux where
  force : Bool
  until_ : Option Nat
  pump : Bool
  fan : Bool
  runLeft : Nat
  pumpSince : Nat
  low : Nat
  ok : Nat
  fault : Bool
  flow : Nat
  runOn : Bool
deriving DecidableEq, Repr

/-- TCM: sensors, Aqaux loops, flow pulses since reset, the latest event's source, subcode and argument byte, and the
registers as the latest tick left them, by offset (R291). -/
structure Tcm where
  sens : List Sens
  aq : List Aqaux
  pulses : List Nat
  lastEvent : Option (Nat × Nat × Nat)
  regs : List (Nat × Nat)
deriving DecidableEq, Repr

/-- Load-switch channel states (Table 11-8). -/
inductive LSt where
  | off
  | inrush
  | on
  | pwm
  | deferred
  | retryWait
  | lockout
deriving DecidableEq, Repr

/-- The code of a channel state (Table 11-8). -/
def LSt.code : LSt → Nat
  | .off => 0
  | .inrush => 1
  | .on => 2
  | .pwm => 3
  | .deferred => 4
  | .retryWait => 5
  | .lockout => 6

/-- One load-switch channel. `order`, `duty`: its recorded order, 0 OFF, 1 ON, 2 PWM; `budget` in µJ; `eLast` in 0.1 mJ;
`retryAt`: the uptime at which RETRY_WAIT ends; `frozen`: the µs that were left of it when a hold froze it (R301). -/
structure LChan where
  st : LSt
  order : Nat
  duty : Nat
  dApp : Nat
  cause : Nat
  retries : Nat
  retryAt : Option Nat
  held : Bool
  budget : Nat
  eLast : Nat
  defer : Nat
  current : Nat
  frozen : Option Nat
deriving DecidableEq, Repr

/-- LSW. `supply`: 0 normal, 1 dip, 2 below 6.0 V, since the Spire time `since`; `lostAt`: when LS_VSUP fell below 6.0 V,
while its orders wait to be applied again (R305); `vs`: LS_VSUP of the last 100 ms, newest
first; `sel`: LSW_SENSE.sel; `pin`: the LS_SEL code. -/
structure Lsw where
  chans : List LChan
  supply : Nat
  since : Nat
  vs : List Nat
  sel : Nat
  pin : Nat
  lostAt : Option Nat
  lastEvent : Option (Nat × Nat × Nat)
deriving DecidableEq, Repr

/-- A sensor at reset, with the latches the journal holds (R284). -/
def Sens.reset (l3 l4 : Bool) : Sens :=
  { raw := none, good := [], nFlag := 0, nOk := 0, broken := false, absent := false, subst := false, cause := 0
    reading := none, hist := [], slope := 0, l3 := l3, l4 := l4, inCone := List.replicate 4 false
    up := List.replicate 4 0, dn := List.replicate 4 0, below := 0, eff := if l4 then 4 else if l3 then 3 else 0
    grace := none, hard2 := false, stop := none, tripped := false }

/-- An Aqaux loop at reset. -/
def Aqaux.reset : Aqaux := ⟨false, none, false, false, 0, 0, 0, 0, false, 0, false⟩

/-- A sensor with any latch. -/
def Sens.latched (x : Sens) : Bool := x.l3 || x.l4

/-- TCM_SENSOR_n (Table 10-13). -/
def Sens.word (x : Sens) : Nat :=
  b2n x.latched * 2 ^ 31 + b2n x.broken * 2 ^ 30 + b2n x.subst * 2 ^ 29 + b2n (x.hard2 || 3 ≤ x.eff) * 2 ^ 28 +
    b2n x.tripped * 2 ^ 27 + x.eff * 2 ^ 24 + x.cause * 2 ^ 20 + ofInt 16 (x.reading.getD (-32768))

/-- A bit per sensor of register `i` of five. -/
def sensBits (f : Sens → Bool) (sens : List Sens) (i : Nat) : Nat :=
  maskOf 32 (fun b => match sens[32 * i + b]? with | none => false | some x => f x)

/-- TCM_LAST_EVENT and the last-event registers of the same form. -/
def lastEventWord (e : Option (Nat × Nat × Nat)) : Nat :=
  match e with
  | none => 0
  | some (src, sub, arg) => 2 ^ 31 + src % 256 * 2 ^ 16 + sub * 256 + arg % 256

/-- The TCM registers by offset (Tables 10-12, 10-13); `soft` and `hard` are the masks of capped groups. -/
def tcmRegs (sens : List Sens) (aq : List Aqaux) (last : Option (Nat × Nat × Nat)) (cls soft hard : Nat) :
    List (Nat × Nat) :=
  let status := cls * 2 ^ 24 + (sens.filter Sens.latched).length * 2 ^ 16 + (sens.filter (fun x => x.broken)).length * 256 +
    sens.foldl (fun a x => max a x.eff) 0
  let ports (f : Aqaux → Bool) : Nat := maskOf 16 (fun p => f (aq.getD p Aqaux.reset))
  let head : List (Nat × Nat) :=
    [(0x000, 0x40181098), (0x004, status), (0x008, soft % 2 ^ 32), (0x00C, soft / 2 ^ 32), (0x010, hard % 2 ^ 32),
     (0x014, hard / 2 ^ 32), (0x018, ports (fun a => a.pump) * 2 ^ 16 + ports (fun a => a.fault)),
     (0x01C, ports (fun a => a.fan)), (0x020, lastEventWord last)]
  let latch : List (Nat × Nat) := (List.range 5).map (fun i => (0x040 + 4 * i, sensBits Sens.latched sens i))
  let broken : List (Nat × Nat) := (List.range 5).map (fun i => (0x060 + 4 * i, sensBits (fun x => x.broken) sens i))
  let each : List (Nat × Nat) := (List.range 152).map (fun n => (0x100 + 4 * n, (sens.getD n (Sens.reset false false)).word))
  head ++ latch ++ broken ++ each

/-- TCM at reset, with the latches of the state journal: (sensor, Cone 3 latch, Cone 4 latch). Its registers stand at their
reset values, with the latch bits from the journal (Table 10-13). -/
def Tcm.reset (latches : List (Nat × Bool × Bool)) : Tcm :=
  let sens := (List.range 152).map (fun n => match latches.find? (fun x => x.1 == n) with
      | none => Sens.reset false false
      | some (_, a, b) => Sens.reset a b)
  let aq := List.replicate 16 Aqaux.reset
  let regs := (tcmRegs (sens.map (fun x => { x with eff := 0 })) aq none 0 0 0).map (fun r =>
    if r.1 = 0x004 then (0x004, 0) else r)
  { sens := sens, aq := aq, pulses := List.replicate 16 0, lastEvent := none, regs := regs }

/-- A channel before any order: OFF. -/
def LChan.reset : LChan := ⟨.off, 0, 0, 0, 0, 0, none, false, 0, 0, 0, 0, none⟩

/-- LSW at power-on (Table 11-11): the sense selection is 0x1F, and LS_SEL's pull-ups read 31. -/
def Lsw.reset : Lsw := ⟨List.replicate 24 LChan.reset, 0, 0, [], 0x1F, 31, none, none⟩

end Sys2Proof.Machine
end

