-- ==== Sys2Proof/Machine/StateTmf.lean ====
section
/-! DEFINITION. The state of the tile memory and check fabric: tiles, generations, the retire map and the stream channels
(R116 to R137). -/

namespace Sys2Proof.Machine

open Sys2Proof

/-- Who holds an allocated pool tile (R120, R129). -/
inductive TileOwner where
  | host
  | channel (n : Nat)
deriving DecidableEq, Repr

/-- An allocated pool tile: OPEN or CLOSED, its 4,096 bytes and, once closed, its check word (R117, R122). -/
structure Tile where
  owner : TileOwner
  closed : Bool
  bytes : List Byte
  check : Nat
deriving DecidableEq, Repr

/-- A host buffer posted for a stream channel (R131). -/
structure StreamBuf where
  sq : Nat
  cid : Nat
  addr : Nat
  len : Nat
  written : Nat
deriving DecidableEq, Repr

/-- The tile a producer is filling (R130). -/
structure OpenTile where
  idx : Nat
  seq : Nat
  first : Nat
  size : Nat
  records : List (List Byte)
deriving DecidableEq, Repr

/-- A stream channel (R129 to R133). `closed` lists its undelivered tiles, oldest first; `spill` counts the records
dropped in the tile's worth being dropped (R132). -/
structure Chan where
  isOpen : Bool
  reserve : Nat
  cap : Nat
  mode : Nat
  flush : Nat
  seq : Nat
  drop : Nat
  filling : Option OpenTile
  closed : List Nat
  bufs : List StreamBuf
  spill : Nat
deriving DecidableEq, Repr

/-- TMF. `tiles` holds the allocated pool tiles, `coeffs` the committed coefficient tiles, copies A and B, by index (R180); `gens` the generations that differ from `baseGen` (R121); `phys` the
remapped indices; `oos` the indices out of service (R127); `restoring` the pair indices waiting for their copy (R125);
`hostLimitReg` is the RWL register and `hostLimit` the limit in force (R129). -/
structure Tmf where
  ready : Bool
  tiles : List (Nat × Tile)
  coeffs : List (Nat × List Byte)
  baseGen : Nat
  gens : List (Nat × Nat)
  phys : List (Nat × Nat)
  oos : List Nat
  sparesFree : Nat
  restoring : List Nat
  lastValid : Bool
  lastConsumer : Nat
  lastIndex : Nat
  hostLimitReg : Nat
  hostLimit : Nat
  chans : List Chan
deriving DecidableEq, Repr

/-- A closed stream channel. -/
def Chan.reset : Chan := ⟨false, 0, 0, 0, 0, 0, 0, none, [], [], 0⟩

/-- TMF at reset (R121, R136, Table 04-8), with `resets` main-die resets counted and the retire map of NVM. -/
def Tmf.reset (resets : Nat) (phys : List (Nat × Nat)) (oos : List Nat) (spares : Nat) : Tmf :=
  { ready := false, tiles := [], coeffs := [], baseGen := resets % 65535 + 1, gens := [], phys := phys, oos := oos
    sparesFree := spares, restoring := [], lastValid := false, lastConsumer := 0, lastIndex := 0
    hostLimitReg := 0x2000, hostLimit := 8192, chans := List.replicate 16 Chan.reset }

end Sys2Proof.Machine
end

