-- ==== Sys2Proof/Machine/StateVpc.lean ====
section
/-! DEFINITION. The state of the dispenser ports: pilot, proximity, port state and the vehicle link (R243 to R268). -/

namespace Sys2Proof.Machine

open Sys2Proof

/-- Port states (Table 09-3). -/
inductive PortSt where
  | disabled
  | notReady
  | vacant
  | plugged
  | energy
  | fault
deriving DecidableEq, Repr

/-- The code of a port state (Table 09-3). -/
def PortSt.code : PortSt → Nat
  | .disabled => 0
  | .notReady => 1
  | .vacant => 2
  | .plugged => 3
  | .energy => 4
  | .fault => 5

/-- A posted FRAME_RX_BUFFER. -/
structure RxBuf where
  sq : Nat
  cid : Nat
  addr : Nat
deriving DecidableEq, Repr

/-- A frame in a tile: the tile's slot 0 to 15 of its port, and its header and frame (Table 09-7). -/
structure FrameTile where
  slot : Nat
  bytes : List Byte
deriving DecidableEq, Repr

/-- An outstanding FRAME_TX; its frame stands in the tile with the header of Table 09-7. -/
structure TxReq where
  sq : Nat
  cid : Nat
  slot : Nat
  bytes : List Byte
deriving DecidableEq, Repr

/-- One port. `mode` and `duty` are the ones commanded, `pinMode` and `pinDuty` those in effect (R246), `pinMode` 3 the high-impedance
driver of a disabled port or of a driver without supply (R243, R258); `prevDuty` is the PWM duty of the period before the latest change of
duty took effect (R248); `statusDue`: the STATUS behind a TX awaits its answer (R262); `pilot` and `prox`
the accepted bands, none until one is accepted; `admission`: NOT_READY for a commit's admission epoch (R260); `rx` the
undelivered frames, oldest first. -/
structure Port where
  st : PortSt
  mode : Nat
  duty : Nat
  pinMode : Nat
  pinDuty : Nat
  prevDuty : Nat
  energy : Bool
  latch : Bool
  cause : Nat
  pilot : Option Nat
  prox : Option Nat
  diode : Bool
  admission : Bool
  pilotHi : Int
  pilotLo : Int
  pp : Nat
  rx : List FrameTile
  bufs : List RxBuf
  tx : List TxReq
  modemUp : Bool
  badStatus : Nat
  statusDue : Bool
  resetting : Bool
  rxFrames : Nat
  rxFcs : Nat
  rxDrop : Nat
  txFrames : Nat
deriving DecidableEq, Repr

/-- VPC: the ports, and the latest event's port, subcode and argument byte. -/
structure Vpc where
  ports : List Port
  lastEvent : Option (Nat × Nat × Nat)
deriving DecidableEq, Repr

/-- A port at reset: NOT_READY, mode STEADY, no band accepted (R259, Table 09-13). -/
def Port.reset : Port :=
  { st := .notReady, mode := 0, duty := 0, pinMode := 0, pinDuty := 0, prevDuty := 0, energy := false, latch := false, cause := 0
    pilot := none, prox := none, diode := false, admission := false, pilotHi := 0, pilotLo := 0, pp := 0, rx := []
    bufs := [], tx := [], modemUp := false, badStatus := 0, statusDue := false, resetting := false, rxFrames := 0, rxFcs := 0, rxDrop := 0
    txFrames := 0 }

/-- VPC at reset. -/
def Vpc.reset : Vpc := ⟨List.replicate 16 Port.reset, none⟩

end Sys2Proof.Machine
end

