-- ==== Sys2Proof/Machine/State.lean ====
section
/-! DEFINITION. The machine state: every piece of state the manual gives the device, as plain data, and the state after
reset. -/

namespace Sys2Proof.Machine

open Sys2Proof

/-- What the device drove on its pins in the latest command. -/
inductive Out where
  /-- a DMA write to host memory (R90) -/
  | hostWrite (fn : Fn) (addr : Nat) (bytes : List Byte)
  /-- a DMA read request to host memory (R110) -/
  | hostRead (fn : Fn) (tag addr len : Nat)
  /-- an MSI-X message (R105) -/
  | msix (fn : Fn) (vec : Nat) (addr : Nat) (data : Word)
  /-- 10-bit groups sent down a phase link, bit a of each its most significant bit (R217) -/
  | line (link : Nat) (groups : List Nat)
  /-- a control pilot's mode and duty taking effect (R245) -/
  | pilot (port mode duty : Nat)
  /-- a control pilot's driver going high-impedance (R243, R258) -/
  | pilotOff (port : Nat)
  /-- a frame on a port's 10BASE-T1S segment, padded and with its FCS (R266) -/
  | ether (port : Nat) (frame : List Byte)
  /-- what the device sends in an SPI modem exchange (Table 09-6) -/
  | modem (port : Nat) (bytes : List Byte)
  /-- the level of a port's GP_RST_n (R263) -/
  | modemReset (port : Nat) (low : Bool)
  /-- a load-switch output turning on or off (R295, R299) -/
  | loadSwitch (ch : Nat) (on : Bool)
  /-- the channel mirrored on LS_SENSE, or none, and the current LS_SENSE sources in nA (R307) -/
  | sense (ch : Option Nat) (nA : Nat)
  /-- bytes on a Saggar UART: 0 keypad, 1 legal display, 2 optical head (R365, R484, R485) -/
  | uart (n : Nat) (bytes : List Byte)
  /-- a modulator rail switched: 0 MOD_VV, 1 MOD_VI (R312) -/
  | rail (n : Nat) (on : Bool)
  /-- a modulator clock MCLKn at the Saggar clock divided by `div`; 0 stops it (R312, Table 12-5) -/
  | mclk (n div : Nat)
  /-- a pulse output going active or inactive (R327) -/
  | pulse (n : Nat) (active : Bool)
  /-- a pulse on BLK_TX in a bell slot of the cycle that begins: slot F (bit 1) or slot R (bit 0) (R411) -/
  | bell (slotF : Bool)
  /-- the data of a register read (R499, R500) -/
  | readData (value : Nat)
deriving DecidableEq, Repr

/-- A Saggar compartment, which is replaced as a unit (R386): its measurement, billing, seal and backup cell. -/
structure SaggarUnit where
  sgm : Sgm
  bte : Bte
  mss : Mss
  cell : Cell
deriving DecidableEq, Repr

/-- The state of the block. `shelf` are the Saggars that were fitted before the present one, `out` is what it drove on its pins in the latest command, `cur` the host command being
executed (function, SQ, command id), `cfg` the image records in force, `free` the count of open values taken so far, and `pending` the queue of commands
that wait. -/
@[ext]
structure State where
  hqe : Hqe
  tmf : Tmf
  sup : Sup
  lnk : SgLink
  cfg : Option Cfg
  spa : Spa
  kce : Kce
  psc : Psc
  pla : Pla
  vpc : Vpc
  tcm : Tcm
  lsw : Lsw
  bse : Bse
  cell : Cell
  sgm : Sgm
  bte : Bte
  mss : Mss
  shelf : List SaggarUnit
  blk : Blk
  evr : Evr
  out : List Out
  cur : Option (Fn × Nat × Nat)
  free : Nat
  pending : List Instr
deriving DecidableEq, Repr

/-- Why the block stops with a fault. The manual describes no command after which the whole block stops, so there is
none. -/
inductive Fault where
deriving DecidableEq, Repr

/-- Why the model refuses a command. -/
inductive Refusal where
  /-- Raised by the dispatch alone, for a command that has no meaning yet. Safe: the model stops where the device goes
  on. -/
  | notModelled (mnemonic : String)
deriving DecidableEq, Repr

/-- MSS of a Saggar as manufactured (R374, R385). -/
def State.newMss (serial : BitVec 64) : Mss :=
  let image := Config.saggarImage serial
  Mss.factory serial (Config.authKey serial) (image, (Config.saggarImageVersion image).toNat)

/-- The machine right after Spire power-on. -/
def State.reset : State :=
  { hqe := Hqe.reset, tmf := Tmf.reset 0 [] [] 1024, sup := Sup.reset, lnk := SgLink.reset, cfg := none
    spa := Spa.reset, kce := Kce.reset, psc := Psc.reset, pla := Pla.reset, vpc := Vpc.reset
    tcm := Tcm.reset [], lsw := Lsw.reset, bse := Bse.reset, cell := Cell.reset
    sgm := Sgm.reset, bte := Bte.reset, mss := State.newMss Config.saggarSerial, shelf := [], blk := Blk.reset
    evr := Evr.reset [] none 0 none [] none [] []
    out := [], cur := none
    free := 0, pending := [] }

end Sys2Proof.Machine
end

