-- ==== Sys2Proof/Machine/Ops.lean ====
section
/-! DEFINITION. The operations every family shares: changing one part of the state, pin signals, open values, events and
vectors (R105 to R109, R514), fault records (R56, R491) and the completion of a host command (R83, R90, R95 to R101). -/

namespace Sys2Proof.Machine

open Sys2Proof

/-! ### One part of the state changed -/

/-- The HQE changed. -/
def State.onHqe (f : Hqe → Hqe) (s : State) : State := { s with hqe := f s.hqe }

/-- The TMF changed. -/
def State.onTmf (f : Tmf → Tmf) (s : State) : State := { s with tmf := f s.tmf }

/-- The Spire changed. -/
def State.onSup (f : Sup → Sup) (s : State) : State := { s with sup := f s.sup }

/-- The Saggar link changed. -/
def State.onLnk (f : SgLink → SgLink) (s : State) : State := { s with lnk := f s.lnk }

/-- The site power allocator changed. -/
def State.onSpa (f : Spa → Spa) (s : State) : State := { s with spa := f s.spa }

/-- The Kiln changed. -/
def State.onKce (f : Kce → Kce) (s : State) : State := { s with kce := f s.kce }

/-- One lane changed. -/
def State.onLane (g : Nat) (f : KGroup → KGroup) (s : State) : State :=
  s.onKce (fun k => { k with groups := upd k.groups g f })

/-- A lane's context. -/
def State.lane (s : State) (g : Nat) : KGroup := s.kce.groups.getD g KGroup.reset

/-- The phase groups changed. -/
def State.onPsc (f : Psc → Psc) (s : State) : State := { s with psc := f s.psc }

/-- The phase links changed. -/
def State.onPla (f : Pla → Pla) (s : State) : State := { s with pla := f s.pla }

/-- A phase group. -/
def State.pg (s : State) (g : Nat) : PGroup := s.psc.groups.getD g PGroup.reset

/-- One phase group changed. -/
def State.onPg (g : Nat) (f : PGroup → PGroup) (s : State) : State :=
  s.onPsc (fun p => { p with groups := upd p.groups g f })

/-- A phase link. -/
def State.link (s : State) (n : Nat) : Link := s.pla.links.getD n Link.reset

/-- One phase link changed. -/
def State.onLink (n : Nat) (f : Link → Link) (s : State) : State :=
  s.onPla (fun p => { p with links := upd p.links n f })

/-- The ports changed. -/
def State.onVpc (f : Vpc → Vpc) (s : State) : State := { s with vpc := f s.vpc }

/-- A port. -/
def State.prt (s : State) (p : Nat) : Port := s.vpc.ports.getD p Port.reset

/-- One port changed. -/
def State.onPrt (p : Nat) (f : Port → Port) (s : State) : State :=
  s.onVpc (fun v => { v with ports := upd v.ports p f })

/-- TCM changed. -/
def State.onTcm (f : Tcm → Tcm) (s : State) : State := { s with tcm := f s.tcm }

/-- A sensor. -/
def State.sens (s : State) (n : Nat) : Sens := s.tcm.sens.getD n (Sens.reset false false)

/-- One sensor changed. -/
def State.onSens (n : Nat) (f : Sens → Sens) (s : State) : State := s.onTcm (fun t => { t with sens := upd t.sens n f })

/-- A port's Aqaux loop. -/
def State.aq (s : State) (p : Nat) : Aqaux := s.tcm.aq.getD p Aqaux.reset

/-- One Aqaux loop changed. -/
def State.onAq (p : Nat) (f : Aqaux → Aqaux) (s : State) : State := s.onTcm (fun t => { t with aq := upd t.aq p f })

/-- LSW changed. -/
def State.onLsw (f : Lsw → Lsw) (s : State) : State := { s with lsw := f s.lsw }

/-- A load-switch channel. -/
def State.ch (s : State) (n : Nat) : LChan := s.lsw.chans.getD n LChan.reset

/-- One load-switch channel changed. -/
def State.onCh (n : Nat) (f : LChan → LChan) (s : State) : State := s.onLsw (fun l => { l with chans := upd l.chans n f })

/-- The Belfry changed. -/
def State.onBlk (f : Blk → Blk) (s : State) : State := { s with blk := f s.blk }

/-- EVR changed. -/
def State.onEvr (f : Evr → Evr) (s : State) : State := { s with evr := f s.evr }

/-- The image records in force, or none at all. -/
def State.conf (s : State) : Cfg := s.cfg.getD Cfg.empty

/-- A signal driven on a pin. -/
def State.emit (o : Out) (s : State) : State := { s with out := s.out ++ [o] }

/-- A command begins: the pins show what this command drives, and no host command is being executed yet. -/
def State.start (s : State) : State := { s with out := [], cur := none }

/-- One open value taken. -/
def State.took (s : State) : State := { s with free := s.free + 1 }

/-! ### Functions and their queue state -/

/-- The queue state of a function. -/
def Hqe.fnOf (h : Hqe) : Fn → FnState
  | .pf0 => h.f0
  | .pf1 => h.f1

/-- A function's queue state changed. -/
def Hqe.onFn (fn : Fn) (f : FnState → FnState) (h : Hqe) : Hqe :=
  match fn with
  | .pf0 => { h with f0 := f h.f0 }
  | .pf1 => { h with f1 := f h.f1 }

/-- The queue state of a function of the device. -/
def State.fnOf (s : State) (fn : Fn) : FnState := s.hqe.fnOf fn

/-- A function's queue state changed. -/
def State.onFn (fn : Fn) (f : FnState → FnState) (s : State) : State := s.onHqe (Hqe.onFn fn f)

/-- An SQ of a function, if it exists. -/
def FnState.sq (f : FnState) (n : Nat) : Option SqRing := (f.sqs.getD n none)

/-- A CQ of a function, if it exists. -/
def FnState.cq (f : FnState) (n : Nat) : Option CqRing := (f.cqs.getD n none)

/-- An SQ changed, if it exists. -/
def FnState.onSq (n : Nat) (g : SqRing → SqRing) (f : FnState) : FnState :=
  { f with sqs := upd f.sqs n (Option.map g) }

/-- A CQ changed, if it exists. -/
def FnState.onCq (n : Nat) (g : CqRing → CqRing) (f : FnState) : FnState :=
  { f with cqs := upd f.cqs n (Option.map g) }

/-- The number of entries of a ring. -/
def SqRing.size (r : SqRing) : Nat := 2 ^ r.k

/-- The number of entries of a ring. -/
def CqRing.size (r : CqRing) : Nat := 2 ^ r.k

/-- A CQ is full when one more entry would reach the head (R81). -/
def CqRing.full (r : CqRing) : Bool := (r.tail + 1) % r.size == r.head

/-- A CQ can take a CQE: it is neither full nor in fault (R81, R88). -/
def CqRing.room (r : CqRing) : Bool := !r.full && !r.fault

/-- HQE_READY (R47): every main-die island has reported ready. -/
def State.hqeReady (s : State) : Bool := s.sup.readyMask % 128 == 127

/-- HI runs: powered and ready, and PERST# is not asserted (R49, R514). -/
def State.hiUp (s : State) : Bool := bit s.sup.readyMask 0 && !s.sup.perst

/-- HI answers PCIe configuration requests (R47). -/
def State.answersConfig (s : State) : Bool := s.sup.pcieUp

/-- The function's rings can receive events (R514). -/
def State.receiving (s : State) (fn : Fn) : Bool := s.hqeReady && s.hiUp && (s.fnOf fn).enable

/-! ### Time -/

/-- The TS64 value for time not known (R3). -/
def timeUnknown : Nat := 0xFFFFFFFFFFFFFFFF

/-- S-time as a TS64 (R3, R504). -/
def State.sTime (s : State) : Nat := s.sup.stime.getD timeUnknown

/-! ### The Saggar link -/

/-- Session-crossing frames go before all others in a direction (R43): what waits in it arrives before a frame of another class
does. -/
def SgLink.sessionFirst (toSg : Bool) (l : SgLink) : SgLink :=
  if toSg then { l with inSg := l.inSg ++ l.toSg.map (fun m => (m.1, m.2.1)), toSg := [] } else { l with inSt := l.inSt ++ l.toSt, toSt := [] }

/-! ### MSI-X vectors -/

/-- A vector's entry. -/
def FnState.vec (f : FnState) (v : Nat) : MsixVec := f.vecs.getD v MsixVec.reset

/-- A vector's entry changed. -/
def FnState.onVec (v : Nat) (g : MsixVec → MsixVec) (f : FnState) : FnState := { f with vecs := upd f.vecs v g }

/-- A vector fires: its message is sent, or its pending bit is set while it is masked (R109). -/
def State.fire (fn : Fn) (v : Nat) (s : State) : State :=
  let e := (s.fnOf fn).vec v
  if e.masked then s.onFn fn (FnState.onVec v (fun x => { x with pend := true }))
  else s.emit (.msix fn v (e.addrHi.toNat * 2 ^ 32 + e.addrLo.toNat) e.data)

/-- An event vector fires at most once per 100 µs; a masked one waits to be unmasked (R108, R109). -/
def State.fireEvent (fn : Fn) (v : Nat) (s : State) : State :=
  let e := (s.fnOf fn).vec v
  if e.hold then s.onFn fn (FnState.onVec v (fun x => { x with again := true }))
  else if e.masked then s.fire fn v
  else (s.fire fn v).onFn fn (FnState.onVec v (fun x => { x with hold := true }))

/-! ### Events -/

/-- A further occurrence of an event in an entry list: counted in the entry of the same code and source (R107). -/
def mergeEv (e : PendEv) : List PendEv → List PendEv
  | [] => [e]
  | x :: r =>
    if x.code = e.code ∧ x.source = e.source then
      { x with count := min (x.count + e.count) 65535, arg := e.arg, after := x.after ++ e.after } :: r
    else x :: mergeEv e r

/-- A list of entries made one per code and source, in order of first occurrence (R107). -/
def mergeAll (l : List PendEv) : List PendEv := l.foldl (fun a e => mergeEv e a) []

/-- True while the event CQ of a function has no room for an entry (R107). -/
def FnState.eventFull (f : FnState) : Bool :=
  match f.eventCq with
  | none => false
  | some c => match f.cq c with
    | none => true
    | some r => !r.room

/-- An event occurrence (R106, R107, R514): held while the function's rings cannot receive it; otherwise its vector fires
and its entry waits for the event CQ, merged into its like while that CQ has no room. -/
def State.postEvent (fn : Fn) (vec sub arg src : Nat) (s : State) : State :=
  let e : PendEv := ⟨vec * 256 + sub, 1, arg, src, s.cur.toList⟩
  if s.receiving fn then
    let s1 := s.fireEvent fn vec
    match (s.fnOf fn).eventCq with
    | none => s1
    | some _ =>
      if (s.fnOf fn).eventFull then s1.onFn fn (fun f => { f with pendEv := mergeEv e f.pendEv })
      else s1.onFn fn (fun f => { f with pendEv := f.pendEv ++ [e] })
  else s.onFn fn (fun f => { f with held := mergeEv e f.held })

/-- Once the event CQ of a function has no room, one pending entry stands per code and source (R107). -/
def State.settleEvents (fn : Fn) (s : State) : State :=
  s.onFn fn (fun f => if f.eventFull then { f with pendEv := mergeAll f.pendEv } else f)

/-- A command's completion has been posted: the events it caused wait for it no more (R97). -/
def FnState.caused (x : Fn × Nat × Nat) (f : FnState) : FnState :=
  let free (e : PendEv) : PendEv := { e with after := e.after.filter (fun y => y ≠ x) }
  { f with pendEv := f.pendEv.map free, held := f.held.map free }

/-- The source of an event that has none (Table 03-5). -/
def noSource : Nat := 0xFFFF

/-- A SUP event on PF0, kept in SUP_LAST_EVENT (R511, Table 22-3). -/
def State.supEvent (vec sub arg src : Nat) (s : State) : State :=
  (s.onSup (fun p => { p with lastEvent := some (vec - 64, src % 256, sub, arg % 256) })).postEvent .pf0 vec sub arg src

/-! ### The fault journal -/

/-- A record appended to the circular journal of 1,024 records (R56). -/
def Sup.journalPut (r : FaultRec) (p : Sup) : Sup :=
  let seq := (p.journalSeq + 1) % 2 ^ 32
  { p with journal := (p.journal ++ [{ r with seq := seq }]).drop (p.journal.length + 1 - 1024), journalSeq := seq }

/-- A fault record written, or deferred until the hold-up is available (R491). The time base is S-time (R4, R56). -/
def State.faultRec (island code a0 a1 a2 : Nat) (s : State) : State :=
  let r : FaultRec := ⟨s.sTime, 0, island, false, code, a0, a1, a2⟩
  s.onSup (fun p => if p.holdupReady then p.journalPut r else { p with deferred := p.deferred ++ [r] })

/-- The bytes of the state journal's content over which its slots' CRC-32C stands (R55); the manual lists what it holds and
gives no layout (DESIGN CHOICE, log entry 5). -/
def Journal.bytes (j : Journal) : List Byte :=
  j.groups.flatMap (fun (g, e) => le 1 g ++ le 1 (b2n e.locked) ++ le 2 e.cause ++ le 2 e.retries ++ le 2 e.links.length ++
    e.links.flatMap (le 1) ++ e.lost.flatMap (le 1)) ++
  j.latches.flatMap (fun (n, a, b) => le 1 n ++ le 1 (b2n a) ++ le 1 (b2n b)) ++
  j.switches.flatMap (fun (n, l, c, r) => le 1 n ++ le 1 (b2n l) ++ le 1 c ++ le 1 r) ++
  j.strings.flatMap (fun (n, e) => le 1 n ++ le 1 (b2n e.anch) ++ le 8 e.cap ++ le 16 e.q ++ le 4 e.soc ++ le 4 e.u ++
    le 4 e.cycles ++ le 8 e.hours ++ leS 16 e.net ++ (match e.socA with | none => [0] | some a => 1 :: le 4 a)) ++
  le 4 j.sessions

/-- The bytes of the impedance tables in their slots (R402; log entry 5). -/
def impBytes (l : List (Nat × List Nat)) : List Byte := l.flatMap (fun (n, t) => le 1 n ++ t.flatMap (le 2))

/-- A slot with its sequence number and CRC-32C (R55). -/
def NvSlot.make {α : Type} (enc : α → List Byte) (seq : Nat) (v : α) : NvSlot α := ⟨seq, v, crc32c (le 4 seq ++ enc v)⟩

/-- A slot is valid when its CRC-32C holds. -/
def NvSlot.valid {α : Type} (enc : α → List Byte) (x : NvSlot α) : Bool := x.crc == crc32c (le 4 x.seq ++ enc x.content)

/-- The newest valid copy of a slot pair, and whether it stands in the second slot: of two valid ones the one with the higher
sequence number (R55). -/
def nvNewest {α : Type} (enc : α → List Byte) (p : Option (NvSlot α) × Option (NvSlot α)) : Option (Bool × NvSlot α) :=
  match p.1.filter (NvSlot.valid enc), p.2.filter (NvSlot.valid enc) with
  | none, none => none
  | some a, none => some (false, a)
  | none, some b => some (true, b)
  | some a, some b => if a.seq < b.seq then some (true, b) else some (false, a)

/-- A write to a slot pair: into the slot that does not hold the newest valid copy; the other is erased once this one has been
read back (R55). -/
def nvPut {α : Type} (enc : α → List Byte) (v : α) (p : Option (NvSlot α) × Option (NvSlot α)) :
    Option (NvSlot α) × Option (NvSlot α) :=
  match nvNewest enc p with
  | none => (some (NvSlot.make enc 1 v), none)
  | some (false, a) => (none, some (NvSlot.make enc ((a.seq + 1) % 2 ^ 32) v))
  | some (true, b) => (some (NvSlot.make enc ((b.seq + 1) % 2 ^ 32) v), none)

/-- The content of the state journal: that of its newest valid slot (R55). -/
def Sup.sj (p : Sup) : Journal := ((nvNewest Journal.bytes p.sjSlots).map (fun x => x.2.content)).getD ⟨[], [], [], [], 0⟩

/-- The sequence number of the state journal's newest valid slot (Table 22-3). -/
def Sup.stateJournalSeq (p : Sup) : Nat := ((nvNewest Journal.bytes p.sjSlots).map (fun x => x.2.seq)).getD 0

/-- The impedance tables of the newest valid slot (R402). -/
def Sup.imps (p : Sup) : List (Nat × List Nat) := ((nvNewest impBytes p.impSlots).map (fun x => x.2.content)).getD []

/-- The bytes of the retire map in its slots (R126; log entry 5). -/
def RetireMap.bytes (m : RetireMap) : List Byte :=
  m.phys.flatMap (fun (i, p) => le 2 i ++ le 4 p) ++ m.oos.flatMap (le 2) ++ le 2 m.spares

/-- The retire map of the newest valid slot, or that of a store with every spare left (R126, Table 04-8). -/
def Sup.ret (p : Sup) : RetireMap := ((nvNewest RetireMap.bytes p.retSlots).map (fun x => x.2.content)).getD ⟨[], [], 1024⟩

/-- The retire map written. -/
def Sup.retPut (m : RetireMap) (p : Sup) : Sup := { p with retSlots := nvPut RetireMap.bytes m p.retSlots, retNext := none }

/-- The state journal written. -/
def Sup.sjPut (j : Journal) (p : Sup) : Sup := { p with sjSlots := nvPut Journal.bytes j p.sjSlots, sjNext := none }

/-- The impedance tables written. -/
def Sup.impPut (l : List (Nat × List Nat)) (p : Sup) : Sup := { p with impSlots := nvPut impBytes l p.impSlots, impsNext := none }

/-- A state journal write (R55): the content changed and its sequence number advanced, or kept until NVM writes may start
(R491). -/
def State.sjWrite (f : Journal → Journal) (s : State) : State :=
  s.onSup (fun p =>
    let j := f (p.sjNext.getD p.sj)
    if p.holdupReady then p.sjPut j
    else { p with sjNext := some j })

/-! ### Commits in progress -/

/-- A commit of any kind is in progress: from its acceptance until its CQE is posted (R63). -/
def Sup.committing (p : Sup) : Bool := p.commit.isSome || p.posting.isSome

/-- The commits in progress that are not over (at most one of the two). -/
def Sup.commits (p : Sup) : List Commit := p.commit.toList ++ p.posting.toList

/-! ### Writes to host memory -/

/-- The payload of a device-to-host data write: 256 bytes, or 128 where the Max Payload Size is 128 (R111). -/
def Hqe.payload (h : Hqe) : Nat := if 256 ≤ h.maxPayload then 256 else 128

/-- The writes that carry bytes to an address: payloads of at most `p` bytes, none of which crosses a 4 KiB boundary (R111). -/
def payloads (fn : Fn) (p : Nat) : (n addr : Nat) → List Byte → List Out
  | 0, _, _ => []
  | n + 1, addr, b =>
    if b.isEmpty then []
    else
      let k := min p (4096 - addr % 4096)
      .hostWrite fn addr (b.take k) :: payloads fn p n (addr + k) (b.drop k)

/-- The device's writes of `b` to a host address (R111). -/
def State.hostWrites (fn : Fn) (addr : Nat) (b : List Byte) (s : State) : List Out :=
  payloads fn s.hqe.payload (b.length / 128 + 2) addr b

/-- Bytes written to host memory. -/
def State.dma (fn : Fn) (addr : Nat) (b : List Byte) (s : State) : State := { s with out := s.out ++ s.hostWrites fn addr b }

/-! ### Completion of a host command -/

/-- Status codes (Table 03-8). -/
def stDONE : Nat := 0x0000
def stDONE_NOTE : Nat := 0x0001
def stBAD_OPCODE : Nat := 0x0010
def stBAD_PARAM : Nat := 0x0011
def stBAD_STATE : Nat := 0x0012
def stNOT_COMMITTED : Nat := 0x0013
def stBAD_OBJECT : Nat := 0x0014
def stTILE_CHECK : Nat := 0x0020
def stNO_TILES : Nat := 0x0021
def stBAD_HANDLE : Nat := 0x0022
def stDMA_ERROR : Nat := 0x0023
def stSEAL_REQUIRED : Nat := 0x0030
def stSIGNATURE_BAD : Nat := 0x0031
def stTOKEN_REJECT : Nat := 0x0032
def stLOCKED_OUT : Nat := 0x0033
def stSAGGAR_UNREACHABLE : Nat := 0x0034
def stBUSY_RETRY : Nat := 0x0040
def stABORTED_RESET : Nat := 0x0050
def stABORTED_HOST : Nat := 0x0051
def stABORTED_DELETE : Nat := 0x0052

/-- True for the forwarded entry of a command. -/
def Fwd.is (fn : Fn) (sq cid : Nat) (f : Fwd) : Bool := f.fn = fn && f.sq == sq && f.cid == cid

/-- The first entry that satisfies `p` taken out of a list, with the rest in order. -/
def takeFirst {α : Type} (p : α → Bool) : List α → Option (α × List α)
  | [] => none
  | x :: r => if p x then some (x, r) else (takeFirst p r).map (fun (y, t) => (y, x :: t))

/-- A command completes: its forwarded entry ends, and its completion becomes ready for its CQ, or is discarded when its
rings have gone since (R100). -/
def State.complete (fn : Fn) (sq cid status result : Nat) (s : State) : State :=
  let c : Cqe := ⟨fn, sq, cid, status, result, false, none⟩
  let s := { s with cur := some (fn, sq, cid) }
  match takeFirst (Fwd.is fn sq cid) s.hqe.fwd with
  | none => s.onHqe (fun h => { h with ready := h.ready ++ [c] })
  | some (f, rest) =>
    if f.orphan then s.onHqe (fun h => { h with fwd := rest })
    else s.onHqe (fun h => { h with fwd := rest, ready := h.ready ++ [{ c with quiet := f.quiet }] })

/-- An Saggar answer to a tunnelled command, on its way to the HQE (R77). -/
def State.answer (sq cid status result addr : Nat) (buf : List Byte) (s : State) : State :=
  s.onHqe (fun h => { h with answers := h.answers ++ [⟨sq, cid, status, result, addr, buf⟩] })

end Sys2Proof.Machine
end

