-- ==== Sys2Proof/Machine/SpaPlan.lean ====
section
/-! DEFINITION. The re-plan of the site power allocator: bounds, floors, fills, discharge and references (R150 to R160),
as a function of one snapshot. -/

namespace Sys2Proof.Machine

open Sys2Proof

/-! ### The network in the ledger (R141) -/

/-- The index of a NODE entry. -/
def nodeIdx (l : List (Nat × Entry)) (kind num : Nat) : Option Nat :=
  (l.find? (fun p => match p.2 with | .node k n _ _ _ _ => k == kind && n == num | _ => false)).map Prod.fst

/-- The NODE entry of a kind and number: limit, current and aux. -/
def nodeOf (l : List (Nat × Entry)) (kind num : Nat) : Option (Nat × Nat × Nat) :=
  l.findSome? (fun p => match p.2 with
    | .node k n lim cur aux _ => if k == kind && n == num then some (lim, cur, aux) else none
    | _ => none)

/-- The EDGE entry of a kind that ends at a node: its source, forward and reverse capacities. -/
def edgeTo (l : List (Nat × Entry)) (kind dst : Nat) : Option (Nat × Nat × Nat) :=
  l.findSome? (fun p => match p.2 with
    | .edge k a b f r _ => if k == kind && b == dst then some (a, f, r) else none
    | _ => none)

/-- The group number of a GROUP node. -/
def groupAt (l : List (Nat × Entry)) (i : Nat) : Option Nat :=
  match look i l with
  | some (.node 2 n _ _ _ _) => some n
  | _ => none

/-- A group's path: its NODE limit and its SUPPLY capacities, forward and reverse. -/
def supplyOf (l : List (Nat × Entry)) (g : Nat) : Option (Nat × Nat × Nat) :=
  match nodeOf l 2 g, nodeIdx l 2 g with
  | some (lim, _, _), some i => match edgeTo l 1 i with
    | some (_, f, r) => some (lim, f, r)
    | none => none
  | _, _ => none

/-- The far end's path: the group that reaches a port (OUTLET, kind 3 nodes) or a string (STORE, kind 4 nodes), with the
edge's capacities. -/
def farOf (l : List (Nat × Entry)) (isString : Bool) (obj : Nat) : Option (Nat × Nat × Nat) :=
  match nodeIdx l (if isString then 4 else 3) obj with
  | none => none
  | some i => match edgeTo l (if isString then 3 else 2) i with
    | none => none
    | some (src, f, r) => (groupAt l src).map (fun g => (g, f, r))

/-! ### Bounds and floors (steps 1 to 9 of Table 05-7) -/

/-- Reason codes of Table 05-11. -/
def rREQUEST : Nat := 0x00
def rSTOPPED : Nat := 0x01
def rPORT_NOT_READY : Nat := 0x02
def rCREDIT : Nat := 0x03
def rGROUP_CAP : Nat := 0x04
def rEQUIPMENT : Nat := 0x05
def rTHERMAL_HARD : Nat := 0x06
def rSTRING : Nat := 0x07
def rTHERMAL_SOFT : Nat := 0x08
def rRAMP_UP : Nat := 0x09
def rSUPPLY : Nat := 0x0A
def rCONSTRAINT : Nat := 0x0B
def rNOT_ADMITTED : Nat := 0x0C

/-- A session while it is planned. -/
structure PSess where
  idx : Nat
  number : Nat
  isString : Bool
  object : Nat
  tier : Nat
  w : Nat
  min : Nat
  u : Nat
  f : Nat
  reason : Nat
  cv : Nat
  g : Nat
  lb : Nat

/-- The power of a current at a voltage, in 100 W. -/
def pwr (iMa vMv : Nat) : Nat := satU32 (rneDiv (iMa * vMv) 100000000)

/-- One step of Table 05-7: a lower value takes over, with its reason. -/
def lower (x r : Nat) (h : Nat × Nat) : Nat × Nat := if x < h.1 then (x, r) else h

/-- The group voltage SPA uses (R150). -/
def planVolt (i : SpaIn) (g : Nat) : Nat := max (i.volt.getD g 0) 50000

/-- The credit state SPA plans with (R165): UNKNOWN for a prepaid session while the link is down, for a port session whose
OPEN is held, and for one whose messages were lost; otherwise the latest that BTE reported, which can be EXHAUSTED for a
postpaid session too (R317). -/
def planCredit (s : Snap) (x : Sess) (prepaid isString : Bool) (number : Nat) : Credit :=
  if isString then .ok
  else if x.lost || s.heldOpen.contains number || (prepaid && !s.linkUp) then .unknown
  else x.credit

/-- The floor of R152. -/
def floorOf (gp mn ramp : Nat) : Nat := if gp ≥ mn + ramp then gp - ramp else if gp > mn then mn else 0

/-- Bounds and floors of one session; `bisque` replaces tier and weight (R168). -/
def boundsOf (s : Snap) (c : Cfg) (idx : Nat) (x : Sess) (prepaid isString : Bool)
    (tier obj weight mn mx ramp number : Nat) : PSess :=
  let lim := c.limit.getD ⟨0, [], [], [], [], []⟩
  let tier := if s.mode = 1 then (if isString then lim.stringTier.getD obj 0 else lim.portTier.getD obj 0) else tier
  let w := if s.mode = 1 then 1 else weight
  let base : PSess := ⟨idx, number, isString, obj, tier, w, mn, 0, 0, rREQUEST, 0, 0, 0⟩
  let cr := planCredit s x prepaid isString number
  if x.st = .stopped || x.st = .stopping then { base with reason := rSTOPPED }
  else if !isString && !s.inp.ready.getD obj false then { base with reason := rPORT_NOT_READY }
  else if cr = .unknown || cr = .exhausted then { base with reason := rCREDIT }
  else match farOf s.ledger isString obj with
    | none => { base with reason := rEQUIPMENT }
    | some (g, far, _) => match supplyOf s.ledger g with
      | none => { base with reason := rEQUIPMENT }
      | some (nlim, sup, _) =>
        let v := planVolt s.inp g
        let h := lower (pwr (s.inp.cap.getD g 0) v) rGROUP_CAP (mx, rREQUEST)
        let h := lower (Nat.min nlim sup) rEQUIPMENT h
        let h := if isString then h else match nodeOf s.ledger 3 obj with
          | none => h
          | some (plim, cur, _) => lower (Nat.min (pwr cur v) (Nat.min plim far)) rEQUIPMENT h
        let h := lower (s.inp.hard.getD g noCap) rTHERMAL_HARD h
        let h := if isString then
            let h := lower (Nat.min (s.inp.charge.getD obj 0) far) rSTRING h
            if s.inp.resting.getD obj false then lower 0 rSTRING h else h
          else h
        let f := floorOf x.gPrev mn ramp
        let u := lower (max (s.inp.soft.getD g noCap) f) rTHERMAL_SOFT h
        let u := lower (satU32 (x.gPrev + ramp)) rRAMP_UP u
        let ub := if u.1 < mn then 0 else u.1
        { base with u := ub, f := Nat.min f ub, reason := u.2 }

/-- Every session of the snapshot with its bounds, in ascending ledger index. -/
def planSessions (s : Snap) (c : Cfg) : List PSess :=
  s.ledger.filterMap (fun p => match p.2, look p.1 s.sess with
    | .session pre str tier obj w mn mx ramp num _, some x => some (boundsOf s c p.1 x pre str tier obj w mn mx ramp num)
    | _, _ => none)

/-! ### Strings and the supply constraint (R152, R153) -/

/-- The discharge availability of a string (R152). -/
def availOf (s : Snap) (ss : List PSess) (j : Nat) : Nat :=
  if s.inp.resting.getD j false || ss.any (fun x => x.isString && x.object == j && x.f > 0) then 0
  else match farOf s.ledger true j with
    | none => 0
    | some (g, _, rev) => match supplyOf s.ledger g with
      | none => 0
      | some (nlim, _, srev) =>
        min (s.inp.discharge.getD j 0) (min rev (min srev (min (pwr (s.inp.cap.getD g 0) (planVolt s.inp g))
          (min nlim (s.inp.hard.getD g noCap)))))

/-- Every string's availability. -/
def avails (s : Snap) (ss : List PSess) : List Nat := (List.range 32).map (availOf s ss)

/-- The grid limit G (R152). -/
def gridLimit (s : Snap) : Nat :=
  match nodeOf s.ledger 0 0, (nodeIdx s.ledger 1 0).bind (edgeTo s.ledger 0) with
  | some (lim, _, loss), some (_, f, _) => min lim f - loss
  | _, _ => 0

/-- Sum of the floors of the port or the charge sessions. -/
def floors (str : Bool) (ss : List PSess) : Nat := sumN ((ss.filter (fun x => x.isString == str)).map (fun x => x.f))

/-- The floors fit the supply (R153). -/
def floorsFit (s : Snap) (ss : List PSess) : Bool :=
  floors false ss + floors true ss ≤ gridLimit s + sumN (avails s ss)

/-- One session's floor released. -/
def releaseFloor (number : Nat) (ss : List PSess) : List PSess :=
  ss.map (fun x => if x.number == number then { x with f := 0 } else x)

/-- The order of releases (R153): charge sessions youngest first; then port sessions, lowest tier first and youngest first
within a tier. -/
def releaseOrder (ss : List PSess) : List Nat :=
  let young (l : List PSess) : List Nat := (sortBy (fun a b : PSess => a.number > b.number) l).map (fun x => x.number)
  young (ss.filter (fun x => x.isString)) ++
    [7, 6, 5, 4, 3, 2, 1, 0].flatMap (fun t => young (ss.filter (fun x => !x.isString && x.tier == t)))

/-- Floors released one at a time while they do not fit. -/
def releaseAll (s : Snap) : List Nat → List PSess → List PSess
  | [], ss => ss
  | n :: r, ss => if floorsFit s ss then ss else releaseAll s r (releaseFloor n ss)

/-! ### The fill (R154 to R156, R158) -/

/-- A constraint of a fill: the supply constraint of one kind of session, or a CONSTRAINT entry's members. -/
structure PCons where
  supply : Bool
  ofStrings : Bool
  ports : Nat
  strings : Nat
  cap : Nat

/-- Membership of a session in a constraint. -/
def PCons.has (k : PCons) (x : PSess) : Bool :=
  if k.supply then x.isString == k.ofStrings
  else if x.isString then bit k.strings x.object else bit k.ports x.object

/-- The sum of the members' current values. -/
def sumCv (k : PCons) (ss : List PSess) : Nat := sumN ((ss.filter k.has).map (fun x => x.cv))

/-- The enabled CONSTRAINT entries with their effective limits (R154); none applies in BISQUE (R168). -/
def softCons (s : Snap) (ss : List PSess) : List PCons :=
  if s.mode = 1 then []
  else s.ledger.filterMap (fun p => match p.2 with
    | .cons true ports strings lim _ =>
      let k : PCons := ⟨false, false, ports, strings, 0⟩
      some { k with cap := max lim (sumN ((ss.filter k.has).map (fun x => x.f))) }
    | _ => none)

/-- The level of a session at λ. -/
def lvl (x : PSess) (lam : Nat) : Nat := min (max (satU32 (rneShr (x.w * lam) 8)) x.lb) x.u

/-- The sum a constraint sees at λ: levels of the unfrozen sessions, current values of the others. -/
def sumAt (k : PCons) (un : List Nat) (ss : List PSess) (lam : Nat) : Nat :=
  sumN ((ss.filter k.has).map (fun x => if un.contains x.number then lvl x lam else x.cv))

/-- Every constraint holds at λ. -/
def okAt (ks : List PCons) (un : List Nat) (ss : List PSess) (lam : Nat) : Bool :=
  ks.all (fun k => sumAt k un ss lam ≤ k.cap)

/-- The bisection between a level that holds and one that does not. -/
def bisect (ok : Nat → Bool) : (fuel lo top : Nat) → Nat
  | 0, lo, _ => lo
  | n + 1, lo, top =>
    if top - lo > 1 then
      let mid := lo + (top - lo) / 2
      if ok mid then bisect ok n mid top else bisect ok n lo mid
    else lo

/-- Admission of a tier's sessions, oldest first (R155): the admitted numbers and the sessions. -/
def admitAll (ks : List PCons) : List Nat → List PSess → List Nat × List PSess
  | [], ss => ([], ss)
  | n :: r, ss =>
    match ss.find? (fun x => x.number == n) with
    | none => admitAll ks r ss
    | some x =>
      let lb := if x.f > 0 then x.f else x.min
      if ks.all (fun k => !k.has x || sumCv k ss - x.cv + lb ≤ k.cap) then
        let a := admitAll ks r (ss.map (fun y => if y.number == n then { y with lb := lb, cv := lb } else y))
        (n :: a.1, a.2)
      else
        admitAll ks r (ss.map (fun y =>
          if y.number == n then { y with lb := lb, cv := 0, g := 0, reason := rNOT_ADMITTED } else y))

/-- One freezing round after another (R156); each freezes at least one session. -/
def fillRounds (ks : List PCons) : (fuel : Nat) → (lam : Nat) → List Nat → List PSess → List PSess
  | 0, _, _, ss => ss
  | n + 1, lam, un, ss =>
    if un.isEmpty then ss
    else
      let hi := (ss.filter (fun x => un.contains x.number)).foldl (fun a x => max a ((x.u * 256 + x.w - 1) / x.w)) 0
      let lam := if okAt ks un ss hi then hi else bisect (okAt ks un ss) 40 lam hi
      let tight := ks.filter (fun k => sumAt k un ss (lam + 1) > k.cap)
      let frozen (x : PSess) : Bool := un.contains x.number && (lvl x lam == x.u || tight.any (fun k => k.has x))
      let gone := (ss.filter frozen).map (fun x => x.number)
      let ss' := ss.map (fun x =>
        if frozen x then
          let g := lvl x lam
          { x with
            g := g, cv := g
            reason := if g < x.u then (if tight.any (fun k => k.supply && k.has x) then rSUPPLY else rCONSTRAINT)
              else x.reason }
        else x)
      fillRounds ks n lam (un.filter (fun m => !gone.contains m)) ss'

/-- One tier filled, in ascending session number. -/
def fillTier (ks : List PCons) (isString : Bool) (tier : Nat) (ss : List PSess) : List PSess :=
  let t := sortBy (fun a b : Nat => a < b)
    ((ss.filter (fun x => x.isString == isString && x.tier == tier && x.u > 0)).map (fun x => x.number))
  let a := admitAll ks t ss
  fillRounds ks (t.length + 1) 0 a.1 a.2

/-- The tiers filled from 0 down to 7. -/
def fillAll (ks : List PCons) (isString : Bool) (ss : List PSess) : List PSess :=
  (List.range 8).foldl (fun ss t => fillTier ks isString t ss) ss

/-! ### Discharge (R157) -/

/-- A string's share at μ. -/
def shareAt (d mu : Nat) : Nat := min d (satU32 (rneShr (d * mu) 16))

/-- The smallest share that covers the needed discharge; 0 when none is needed. -/
def muOf (ds : List Nat) (x : Nat) : Nat :=
  let rec go : (fuel lo hi : Nat) → Nat
    | 0, _, hi => hi
    | n + 1, lo, hi =>
      if hi - lo > 1 then
        let mid := (lo + hi) / 2
        if sumN (ds.map (fun d => shareAt d mid)) ≥ x then go n lo mid else go n mid hi
      else hi
  if x = 0 then 0 else go 17 0 65536

/-! ### References and limits (R159, R160) -/

/-- A power as a per-unit reference of a group. -/
def refOf (p v baseI : Nat) : Int := satS32 (rneDiv ((p * 100000) * 2 ^ 24) (v * baseI))

/-- A current in mA as a per-unit limit of a group, rounded half to even. -/
def limitOf (iMa baseI : Nat) : Nat := satU32 (rneDiv (iMa * 2 ^ 24) (baseI * 1000))

/-- The group of a port session or charge session that was granted power, with its grant; a discharging string's group has
a negative grant. -/
def groupGrant (s : Snap) (ss : List PSess) (d : List Nat) (g : Nat) : Int :=
  let p := sumN ((ss.filter (fun x => (farOf s.ledger x.isString x.object).map Prod.fst == some g)).map (fun x => x.g))
  let n := sumN ((List.range 32).map (fun j => if (farOf s.ledger true j).map Prod.fst == some g then d.getD j 0 else 0))
  (p : Int) - n

/-- A group's reference and limit (R159, R160). -/
def groupRef (s : Snap) (c : Cfg) (ss : List PSess) (d : List Nat) (g : Nat) : Int × Nat :=
  match c.group g with
  | none => (0, 0)
  | some m =>
    let cap := s.inp.cap.getD g 0
    if cap = 0 then (0, 0)
    else
      let x := groupGrant s ss d g
      let r := refOf x.natAbs (planVolt s.inp g) m.baseI
      let port := s.ledger.findSome? (fun p => match p.2 with
        | .node 3 n _ cur _ _ => if (farOf s.ledger false n).map Prod.fst == some g then some cur else none
        | _ => none)
      (if x < 0 then -r else r, limitOf (match port with | none => cap | some i => min cap i) m.baseI)

/-! ### The whole plan -/

/-- The plan of a snapshot in mode FIXED_TIER or FULL. -/
def fullPlan (s : Snap) (c : Cfg) : Plan :=
  let ss := planSessions s c
  let ss := releaseAll s (releaseOrder ss) ss
  let ss := ss.map (fun x => { x with cv := x.f })
  let ds := avails s ss
  let g := gridLimit s
  let cf := floors true ss
  let soft := softCons s ss
  let sp : PCons := ⟨true, false, 0, 0, g + sumN ds - cf⟩
  let ss := fillAll (sp :: soft) false ss
  let p := sumN ((ss.filter (fun x => !x.isString)).map (fun x => x.g))
  let mu := muOf ds (satU32 ((p : Int) + cf - g))
  let d := ds.map (fun a => shareAt a mu)
  let sc : PCons := ⟨true, true, 0, 0, max (g - p) cf⟩
  let ss := fillAll (sc :: soft) true ss
  let ch := sumN ((ss.filter (fun x => x.isString)).map (fun x => x.g))
  let d := (List.range 32).map (fun j => if ss.any (fun x => x.isString && x.object == j && x.g > 0) then 0 else d.getD j 0)
  { epoch := s.epoch, time := s.time, grid := g, ports := p, charge := ch, discharge := sumN d, mode := s.mode, zero := 0
    refs := (List.range 64).map (groupRef s c ss d)
    grants := (List.range 64).map (groupGrant s ss d)
    sess := ss.map (fun x => ⟨x.idx, ((look x.idx s.sess).map (fun y => y.st)).getD .active, x.reason, x.g, x.u, x.number⟩)
    strings := (List.range 32).map (fun j => (ds.getD j 0, d.getD j 0)) }

/-- The plan of a snapshot in mode ZERO: every grant and every reference 0; each group has its limit (R159, R160), which the ledger as SPA
last had it gives where a tile of it cannot be read. The reason shown for a session is not stated: `why` gives it. G, each string's
availability and each session's bound are 0 (DESIGN CHOICE, log entry 18). -/
def zeroPlan (s : Snap) (c : Cfg) (why : Nat) : Plan :=
  { epoch := s.epoch, time := s.time, grid := 0, ports := 0, charge := 0, discharge := 0, mode := 0, zero := s.zero
    refs := (List.range 64).map (groupRef s c [] [])
    grants := List.replicate 64 0
    sess := s.ledger.filterMap (fun p => match p.2, look p.1 s.sess with
      | .session _ _ _ _ _ _ _ _ num _, some x => some ⟨p.1, x.st, why, 0, 0, num⟩
      | _, _ => none)
    strings := List.replicate 32 (0, 0) }

/-- The plan of a snapshot. -/
def planOf (s : Snap) (c : Cfg) (why : Nat) : Plan := if s.mode = 0 then zeroPlan s c why else fullPlan s c

end Sys2Proof.Machine
end

