-- ==== Sys2Proof/Machine/Ledger.lean ====
section
/-! DEFINITION. Ledger entries as bytes, and what makes a ledger valid (R138 to R144). -/

namespace Sys2Proof.Machine

open Sys2Proof

/-- The 32 bytes of an entry (Tables 05-1 to 05-4). -/
def Entry.bytes : Entry → List Byte
  | .free => zeros 32
  | .node k n lim cur aux tag => le 1 1 ++ le 1 k ++ le 2 n ++ le 4 lim ++ le 4 cur ++ le 4 aux ++ zeros 12 ++ le 4 tag
  | .edge k a b f r tag => le 1 2 ++ le 1 k ++ le 2 a ++ le 2 b ++ zeros 2 ++ le 4 f ++ le 4 r ++ zeros 12 ++ le 4 tag
  | .cons en p st lim tag => le 1 3 ++ le 1 (b2n en) ++ le 2 p ++ le 4 st ++ le 4 lim ++ zeros 16 ++ le 4 tag
  | .session pre str tier obj w mn mx ramp num tag =>
    le 1 4 ++ le 1 (b2n pre * 16 + b2n str * 8 + tier) ++ le 2 obj ++ le 1 w ++ zeros 3 ++ le 4 mn ++ le 4 mx ++
      le 4 ramp ++ le 4 num ++ zeros 4 ++ le 4 tag

/-- The entry 32 bytes spell; none when they are invalid (R139). -/
def decodeEntry (b : List Byte) : Option Entry :=
  match u b 0 1 with
  | 0 => if nonzero b 0 32 then none else some .free
  | 1 =>
    if u b 1 1 > 4 || nonzero b 16 12 then none
    else some (.node (u b 1 1) (u b 2 2) (u b 4 4) (u b 8 4) (u b 12 4) (u b 28 4))
  | 2 =>
    if u b 1 1 > 3 || nonzero b 6 2 || nonzero b 16 12 then none
    else some (.edge (u b 1 1) (u b 2 2) (u b 4 2) (u b 8 4) (u b 12 4) (u b 28 4))
  | 3 =>
    if u b 1 1 > 1 || nonzero b 12 16 then none
    else some (.cons (u b 1 1 == 1) (u b 2 2) (u b 4 4) (u b 8 4) (u b 28 4))
  | 4 =>
    if u b 1 1 ≥ 32 || nonzero b 5 3 || nonzero b 24 4 then none
    else some (.session (bit (u b 1 1) 4) (bit (u b 1 1) 3) (u b 1 1 % 8) (u b 2 2) (u b 4 1) (u b 8 4) (u b 12 4)
      (u b 16 4) (u b 20 4) (u b 28 4))
  | _ => none

/-- Fields of NODE and EDGE entries that their tables fix or bound (Tables 05-1, 05-2), beside the limits of reason
LIMIT_RANGE. -/
def entryFields (e : Entry) : Bool :=
  match e with
  | .node 0 n _ cur _ _ => n == 0 && cur == 0
  | .node 1 n lim cur aux _ => n == 0 && lim == 0 && cur == 0 && aux == 0
  | .node 2 n _ cur aux _ => n < 64 && cur == 0 && aux == 0
  | .node 3 n _ _ _ _ => n < 16
  | .node 4 n lim cur aux _ => n < 32 && lim == 0 && cur == 0 && aux == 0
  | .edge k _ _ _ r _ => r == 0 || k == 1 || k == 3
  | _ => true

/-- A PORT node's current and voltage limits lie in their ranges (Table 05-1). -/
def portLimits (e : Entry) : Bool :=
  match e with
  | .node 3 _ _ cur aux _ => cur ≤ 3000000 && aux ≤ 1250000
  | _ => true

/-- The limits that reason LIMIT_RANGE names in a ledger (Table 02-11): a port's 3,000 A and 1,250 V, and the site's 48 MW. -/
def entryRange (e : Entry) : Bool :=
  match e with
  | .node 0 _ lim _ _ _ => lim ≤ 480000
  | e => portLimits e

/-- How many entries satisfy a predicate. -/
def countE (l : List (Nat × Entry)) (p : Entry → Bool) : Nat := (l.filter (fun x => p x.2)).length

/-- A NODE of a kind and number. -/
def isNode (k n : Nat) (e : Entry) : Bool := match e with | .node k' n' _ _ _ _ => k' == k && n' == n | _ => false

/-- An EDGE of a kind that leaves a node. -/
def edgeFrom (l : List (Nat × Entry)) (ks : List Nat) (src : Nat) : Nat :=
  countE l (fun e => match e with | .edge k a _ _ _ _ => ks.contains k && a == src | _ => false)

/-- EDGEs of some kinds that end at a node. -/
def edgesTo (l : List (Nat × Entry)) (ks : List Nat) (dst : Nat) : Nat :=
  countE l (fun e => match e with | .edge k _ b _ _ _ => ks.contains k && b == dst | _ => false)

/-- The kind of the NODE at an index. -/
def nodeKind (l : List (Nat × Entry)) (i : Nat) : Option Nat :=
  match look i l with | some (.node k _ _ _ _ _) => some k | _ => none

/-- A group is a string group: its further edge is a STORE. -/
def storeGroup (l : List (Nat × Entry)) (i : Nat) : Bool := edgeFrom l [3] i == 1

/-- Every edge joins the kinds of node its kind names, and carries a reverse capacity only toward a string group (Table
05-2). -/
def edgeEnds (l : List (Nat × Entry)) (e : Entry) : Bool :=
  match e with
  | .edge 0 a b _ r _ => nodeKind l a == some 0 && nodeKind l b == some 1 && r == 0
  | .edge 1 a b _ r _ => nodeKind l a == some 1 && nodeKind l b == some 2 && (r == 0 || storeGroup l b)
  | .edge 2 a b _ r _ => nodeKind l a == some 2 && nodeKind l b == some 3 && r == 0
  | .edge 3 a b _ _ _ => nodeKind l a == some 2 && nodeKind l b == some 4
  | _ => true

/-- The members of a CONSTRAINT exist (R141). -/
def consMembers (c : Cfg) (e : Entry) : Bool :=
  match e with
  | .cons _ ports strings _ _ =>
    (List.range 16).all (fun p => !bit ports p || (c.port p).enable) &&
      (List.range 32).all (fun j => !bit strings j || (c.str j).enable)
  | _ => true

/-- A valid ledger (R141). -/
def validLedger (c : Cfg) (l : List (Nat × Entry)) : Bool :=
  let one (k n : Nat) (want : Bool) : Bool := countE l (isNode k n) == b2n want
  let kinds (k : Nat) : Nat := countE l (fun e => match e with | .node k' _ _ _ _ _ => k' == k | _ => false)
  let edges (k : Nat) : Nat := countE l (fun e => match e with | .edge k' _ _ _ _ _ => k' == k | _ => false)
  l.all (fun p => entryFields p.2) &&
  kinds 0 == 1 && kinds 1 == 1 &&
  (List.range 64).all (fun g => one 2 g (c.group g).isSome) &&
  (List.range 16).all (fun p => one 3 p (c.port p).enable) &&
  (List.range 32).all (fun j => one 4 j (c.str j).enable) &&
  edges 0 == 1 &&
  l.all (fun p => edgeEnds l p.2) &&
  l.all (fun p => match p.2 with
    | .node 2 _ _ _ _ _ => edgesTo l [1] p.1 == 1 && edgeFrom l [2, 3] p.1 == 1
    | .node 3 _ _ _ _ _ => edgesTo l [2] p.1 == 1
    | .node 4 _ _ _ _ _ => edgesTo l [3] p.1 == 1
    | _ => true) &&
  countE l (fun e => match e with | .cons en _ _ _ _ => en | _ => false) ≤ 64 &&
  l.all (fun p => consMembers c p.2)

/-- What LEDGER_WRITE may change (R144). -/
def mayChange (old new : Entry) : Bool :=
  old = new ||
  match old, new with
  | .free, .cons _ _ _ _ _ => true
  | .cons _ _ _ _ _, .free => true
  | .cons _ _ _ _ _, .cons _ _ _ _ _ => true
  | .node k n _ _ _ t, .node k' n' _ _ _ t' => k == k' && n == n' && t == t'
  | .edge k a b _ _ t, .edge k' a' b' _ _ t' => k == k' && a == a' && b == b' && t == t'
  | _, _ => false

/-- An entry stored: a FREE one is not listed. -/
def putEntry (i : Nat) (e : Entry) (l : List (Nat × Entry)) : List (Nat × Entry) :=
  if e = .free then del i l else putSorted i e l

/-- The entry at an index. -/
def entryAt (l : List (Nat × Entry)) (i : Nat) : Entry := (look i l).getD .free

/-- The lowest FREE index from `i` on (R144). -/
def lowestFree (l : List (Nat × Entry)) : (n i : Nat) → Option Nat
  | 0, _ => none
  | n + 1, i => if (look i l).isNone then some i else lowestFree l n (i + 1)

/-- The bytes of a range of entries. -/
def ledgerBytes (l : List (Nat × Entry)) (first count : Nat) : List Byte :=
  (List.range count).flatMap (fun k => (entryAt l (first + k)).bytes)

/-- A network of NODE and EDGE entries numbered from 0 in list order. -/
def numbered (l : List Entry) : List (Nat × Entry) := (List.range l.length).zip l

/-- The network SPA builds from a bisque image (R168), its entries in the order GRID, BUS, groups, ports, strings, feeder,
supplies, outlets, stores: at which ledger indices they stand is not stated (DESIGN CHOICE, log entry 18). -/
def bisqueLedger (c : Cfg) : List (Nat × Entry) :=
  let lim := c.limit.getD ⟨0, [], [], [], [], []⟩
  let gs := (List.range 64).filter (fun g => (c.group g).isSome)
  let ps := (List.range 16).filter (fun p => (c.port p).enable)
  let js := (List.range 32).filter (fun j => (c.str j).enable)
  let rated (g : Nat) : Nat := lim.rated.getD g 0
  let gi (g : Nat) : Nat := 2 + gs.idxOf g
  let pi (p : Nat) : Nat := 2 + gs.length + ps.idxOf p
  let ji (j : Nat) : Nat := 2 + gs.length + ps.length + js.idxOf j
  let rev (g : Nat) : Nat := if js.any (fun j => (c.str j).group == g) then rated g else 0
  let site : List Entry := [Entry.node 0 0 lim.imp 0 0 0, Entry.node 1 0 0 0 0 0]
  let groups : List Entry := gs.map (fun g => Entry.node 2 g (rated g) 0 0 0)
  let ports : List Entry := ps.map (fun p => Entry.node 3 p (rated (c.port p).group) (lim.portI.getD p 0) (lim.portV.getD p 0) 0)
  let strings : List Entry := js.map (fun j => Entry.node 4 j 0 0 0 0)
  let feeder : List Entry := [Entry.edge 0 0 1 lim.imp 0 0]
  let supplies : List Entry := gs.map (fun g => Entry.edge 1 1 (gi g) (rated g) (rev g) 0)
  let outlets : List Entry := ps.map (fun p => Entry.edge 2 (gi (c.port p).group) (pi p) (rated (c.port p).group) 0 0)
  let stores : List Entry := js.map (fun j => Entry.edge 3 (gi (c.str j).group) (ji j) (rated (c.str j).group) (rated (c.str j).group) 0)
  numbered [site, groups, ports, strings, feeder, supplies, outlets, stores].flatten

end Sys2Proof.Machine
end

