-- ==== Sys2Proof/Machine/Flags.lean ====
section
/-! DEFINITION. Status words, flags and field maps of HQE, TMF and SUP (R7, R8, R498 to R512), and the identify data (R505);
the other blocks' maps stand beside their state, and Regs joins them. -/

namespace Sys2Proof.Machine

open Sys2Proof

/-! ### HQE (Tables 03-11 to 03-15) -/

/-- The fault bits of a ring table. -/
def FnState.sqFaults (f : FnState) : Nat :=
  maskOf f.sqs.length (fun n => match f.sq n with | none => false | some r => r.fault)

/-- The fault bits of a ring table. -/
def FnState.cqFaults (f : FnState) : Nat :=
  maskOf f.cqs.length (fun n => match f.cq n with | none => false | some r => r.fault)

/-- HQE_STATUS.running: from enable until every accepted command has completed (R100). -/
def State.running (s : State) (fn : Fn) : Bool :=
  (s.fnOf fn).enable || s.hqe.fwd.any (fun f => f.fn = fn && f.orphan)

/-- HQE_CAP. -/
def hqeCap (fn : Fn) : Nat := match fn with | .pf0 => 0x80004040 | .pf1 => 0x80000404

/-- The HQE registers of a function. -/
def readHqe (fn : Fn) (off : Nat) (s : State) : Nat :=
  let f := s.fnOf fn
  match off with
  | 0x000 => hqeCap fn
  | 0x004 => b2n s.hqeReady
  | 0x008 => b2n f.enable
  | 0x00C => b2n (s.running fn) + 2 * b2n (f.sqFaults != 0 || f.cqFaults != 0) + 4 * b2n f.saggarMiss
  | 0x010 => f.asqLo.toNat
  | 0x014 => f.asqHi.toNat
  | 0x018 => f.acqLo.toNat
  | 0x01C => f.acqHi.toNat
  | 0x020 => f.adminSize.toNat
  | 0x030 => f.sqFaults % 2 ^ 32
  | 0x034 => f.sqFaults / 2 ^ 32
  | 0x038 => f.cqFaults % 2 ^ 32
  | 0x03C => f.cqFaults / 2 ^ 32
  | 0x040 => f.faultInfo.toNat
  | _ => 0

/-! ### TMF (Tables 04-7, 04-8) -/

/-- True for a pool index. -/
def isPool (i : Nat) : Bool := 0x0940 ≤ i && i ≤ 0xFBFF

/-- Free pool tiles, reserved or not. -/
def Tmf.poolFree (t : Tmf) : Nat := 62144 - (t.oos.filter isPool).length - t.tiles.length

/-- Tiles now held by a channel, open or awaiting delivery. -/
def Chan.heldTiles (c : Chan) : Nat := c.closed.length + b2n c.filling.isSome

/-- Tiles reserved by open channels. -/
def Tmf.reservedTotal (t : Tmf) : Nat := sumN (t.chans.map (fun c => c.reserve))

/-- The TMF registers. -/
def readTmf (off : Nat) (s : State) : Nat :=
  let t := s.tmf
  match off with
  | 0x000 => 0x0400FC00
  | 0x004 => t.reservedTotal * 2 ^ 16 + t.poolFree
  | 0x008 => t.oos.length * 2 ^ 16 + t.sparesFree
  | 0x00C => b2n t.lastValid * 2 ^ 31 + t.lastConsumer * 2 ^ 16 + t.lastIndex
  | 0x010 => t.hostLimitReg
  | 0x014 => maskOf 16 (fun n => (t.chans.getD n Chan.reset).isOpen)
  | _ =>
    if 0x100 ≤ off ∧ off < 0x140 ∧ off % 4 = 0 then
      let c := t.chans.getD ((off - 0x100) / 4) Chan.reset
      c.drop * 2 ^ 16 + c.heldTiles
    else 0

/-! ### SUP (Tables 22-2, 22-3) -/

/-- SUP_STATE. -/
def supState (s : State) : Nat :=
  s.sup.lastReset * 2 ^ 28 + (if s.sup.st = .waitHost then s.sup.reason else 0) * 2 ^ 16 + s.sup.cls * 2 ^ 12 + s.sup.prev * 2 ^ 8 + s.sup.st.code

/-- SUP_UPDATE. Seconds left of a trial are rounded up. -/
def supUpdate (s : State) : Nat :=
  s.sup.slotA.st.code * 2 ^ 29 + s.sup.slotB.st.code * 2 ^ 26 + b2n s.sup.staging.isSome * 2 ^ 25 +
    b2n s.sup.live.isSome * 2 ^ 24 + s.sup.switched * 2 ^ 16 + (s.sup.trialLeft + 999999) / 1000000

/-- SUP_LAST_EVENT. -/
def supLastEvent (s : State) : Nat :=
  match s.sup.lastEvent with
  | none => 0
  | some (v, src, sub, arg) => 2 ^ 31 + v * 2 ^ 24 + src * 2 ^ 16 + sub * 2 ^ 8 + arg

/-- The SUP registers. -/
def readSup (off : Nat) (s : State) : Nat :=
  let p := s.sup
  match off with
  | 0x000 => 0x09020400
  | 0x004 => 0x64160000 + Config.dieRev.toNat * 256 + Config.moduleRev.toNat
  | 0x008 => Config.moduleSerial.toNat % 2 ^ 32
  | 0x00C => Config.moduleSerial.toNat / 2 ^ 32
  | 0x010 => p.fwVersion
  | 0x014 => supState s
  | 0x018 => p.powered * 2 ^ 16 + p.readySince
  | 0x01C => b2n p.committing * 2 ^ 31 + b2n p.commitOk * 2 ^ 30 + p.commitReason * 2 ^ 16 + p.commitKind * 2 ^ 12 +
      p.commitTiles
  | 0x020 => p.configId
  | 0x024 => b2n p.bisqueValid * 2 ^ 31 + p.bisqueSlot * 2 ^ 30
  | 0x028 => supUpdate s
  | 0x02C => p.slotA.version
  | 0x030 => p.slotB.version
  | 0x034 => p.journalSeq
  | 0x038 => p.stateJournalSeq
  | 0x03C => p.resets
  | 0x040 => min (p.uptime / 1000000) 0xFFFFFFFF
  | 0x044 => s.sTime % 2 ^ 32
  | 0x048 => s.sTime / 2 ^ 32
  | 0x04C => min p.main12v 65535 * 2 ^ 16 + p.charge * 2 ^ 8 + b2n p.holdupReady * 2 ^ 7 + b2n p.reserveReady * 2 ^ 6
  | 0x050 => b2n p.shipFrom.isSome * 2 ^ 31 + (p.shipLeft + 999999) / 1000000
  | 0x054 => b2n s.lnk.up * 2 ^ 31 + b2n p.replaced * 2 ^ 30
  | 0x058 => supLastEvent s
  | 0x05C => p.scratch.toNat
  | _ => 0

/-! ### Identify data (R505) -/

/-- The CAP registers of the identify record, in its order (Table 22-4): SUP, HQE, TMF, PLA, PSC, KCE, SPA, VPC, TCM, LSW, BSE,
BLK, EVR. -/
def identifyCaps (fn : Fn) : List Nat :=
  match fn with
  | .pf0 => [0x09020400, hqeCap .pf0, 0x0400FC00, 0x4020013F, 0x40400008, 0x40808482, 0x30001000, 0x10000808, 0x40181098,
      0x18042830, 0x20080B00, 0xFA020440, 0x80201010]
  | .pf1 => [0, hqeCap .pf1, 0, 0, 0, 0, 0, 0, 0, 0, 0, 0, 0]

/-- The ASCII bytes of the part name "QSK6416". -/
def partName : List Byte := [0x51, 0x53, 0x4B, 0x36, 0x34, 0x31, 0x36]

/-- The 4 KiB identify record (Table 22-4). -/
def identifyData (fn : Fn) (s : State) : List Byte :=
  padTo 4096 (le 4 0x514B4944 ++ le 2 1 ++ le 1 (match fn with | .pf0 => 0 | .pf1 => 1) ++ [0] ++
    le 8 Config.moduleSerial.toNat ++ le 4 s.sup.fwVersion ++ le 4 (supUpdate s) ++ le 4 s.sup.cfgMin ++
    le 4 s.sup.cfgMax ++ le 4 (supState s) ++ le 4 s.sup.configId ++ le 4 s.sup.bisqueId ++ le 8 s.sup.saggarSerial ++
    le 4 s.sup.resets ++ zeros 8 ++ (identifyCaps fn).flatMap (le 4) ++ zeros 12 ++ padTo 16 partName)

end Sys2Proof.Machine
end

