-- ==== Sys2Proof/Machine/Operands.lean ====
section
/-! DEFINITION. The operands of host commands: SQE fields (Table 03-3), the opcode table with its functions and device
states (Table 03-9), the used dwords of every opcode, and the checks of R515 that precede a command. -/

namespace Sys2Proof.Machine

open Sys2Proof

/-! ### SQE fields -/

/-- Dword `i` of an SQE as a number. -/
def sd (q : Sqe) (i : Nat) : Nat := (q.dw.getD i 0).toNat

/-- The opcode (Table 03-3). -/
def opOf (q : Sqe) : Nat := bits (sd q 0) 7 0

/-- flags.fence. -/
def fenceOf (q : Sqe) : Bool := bit (sd q 0) 8

/-- flags.quiet. -/
def quietOf (q : Sqe) : Bool := bit (sd q 0) 9

/-- The command id. -/
def cidOf (q : Sqe) : Nat := bits (sd q 0) 31 16

/-- The host buffer address. -/
def addrOf (q : Sqe) : Nat := sd q 3 * 2 ^ 32 + sd q 2

/-- A 64-bit field in two dwords, low dword first. -/
def sd64 (q : Sqe) (i : Nat) : Nat := sd q (i + 1) * 2 ^ 32 + sd q i

/-- The bytes of dwords `[i, i+n)`. -/
def sdBytes (q : Sqe) : (i n : Nat) → List Byte
  | _, 0 => []
  | i, n + 1 => le 4 (sd q i) ++ sdBytes q (i + 1) n

/-! ### The opcode table -/

/-- In which device states a command is accepted (R104). `own`: by the rule of its owning chapter (†). -/
inductive Accept where
  | all
  | bs
  | s
  | own
deriving DecidableEq, Repr

/-- How a command uses its host buffer (Table 03-3): none, a base address without a length, device to host, or host to
device. -/
inductive BufUse where
  | none
  | base
  | d2h
  | h2d
deriving DecidableEq, Repr

/-- A row of Table 03-9 with the dwords its parameter table uses beside dword 0 and the buffer dwords. -/
structure OpRow where
  op : Nat
  pf0 : Bool
  pf1 : Bool
  accept : Accept
  buf : BufUse
  used : List Nat
deriving DecidableEq, Repr

/-- Admin and queue opcodes, on both functions (Table 03-2). -/
def opRowsAdmin : List OpRow :=
  [⟨0x00, true, true, .all, .none, [6]⟩, ⟨0x01, true, true, .all, .base, [6, 7]⟩,
   ⟨0x02, true, true, .all, .base, [6, 7]⟩, ⟨0x03, true, true, .all, .none, [6]⟩,
   ⟨0x04, true, true, .all, .none, [6]⟩, ⟨0x05, true, true, .all, .none, [6]⟩,
   ⟨0x06, true, true, .all, .none, [6, 7]⟩, ⟨0x07, true, true, .all, .d2h, []⟩,
   ⟨0x08, true, true, .all, .none, [6]⟩]

/-- Tile, stream, commit, link and group opcodes of PF0. -/
def opRowsA : List OpRow :=
  [⟨0x10, true, false, .all, .d2h, [6]⟩, ⟨0x11, true, false, .all, .h2d, [5, 6]⟩,
   ⟨0x12, true, false, .all, .none, [5, 6, 7]⟩, ⟨0x13, true, false, .all, .d2h, [5]⟩,
   ⟨0x14, true, false, .all, .none, [5]⟩, ⟨0x15, true, false, .bs, .none, [1, 6, 7]⟩,
   ⟨0x16, true, false, .bs, .d2h, [1]⟩, ⟨0x17, true, false, .bs, .none, [1]⟩,
   ⟨0x18, true, false, .own, .none, [5]⟩, ⟨0x19, true, false, .all, .none, []⟩,
   ⟨0x1A, true, false, .s, .none, [5]⟩, ⟨0x20, true, false, .all, .d2h, [1, 6]⟩,
   ⟨0x21, true, false, .bs, .none, [1]⟩, ⟨0x22, true, false, .all, .d2h, [1, 6, 7, 8, 9, 10, 11, 12, 13, 14]⟩,
   ⟨0x23, true, false, .bs, .none, [1]⟩, ⟨0x24, true, false, .all, .d2h, [1]⟩,
   ⟨0x25, true, false, .bs, .none, [1, 6]⟩, ⟨0x26, true, false, .all, .d2h, [1, 6]⟩,
   ⟨0x30, true, false, .all, .d2h, [1]⟩,
   ⟨0x31, true, false, .s, .none, [1, 6, 7, 8, 9, 10, 11, 12, 13, 14]⟩,
   ⟨0x32, true, false, .all, .d2h, [1, 6]⟩, ⟨0x33, true, false, .bs, .none, [1, 6, 7]⟩]

/-- Session, port, thermal, switch, string, Belfry, recorder and supervisor opcodes of PF0. -/
def opRowsB : List OpRow :=
  [⟨0x40, true, false, .bs, .none, [1, 6, 7, 8, 9, 10]⟩, ⟨0x41, true, false, .bs, .none, [1]⟩,
   ⟨0x42, true, false, .s, .none, [1, 6, 7, 8, 9]⟩, ⟨0x43, true, false, .s, .h2d, [1]⟩,
   ⟨0x44, true, false, .all, .d2h, [1]⟩, ⟨0x45, true, false, .all, .d2h, []⟩,
   ⟨0x46, true, false, .s, .none, [1, 6]⟩, ⟨0x50, true, false, .all, .d2h, [1, 6]⟩,
   ⟨0x51, true, false, .bs, .none, [1, 6]⟩, ⟨0x52, true, false, .bs, .h2d, [1, 6]⟩,
   ⟨0x53, true, false, .bs, .d2h, [1]⟩, ⟨0x60, true, false, .all, .d2h, [1, 6]⟩,
   ⟨0x61, true, false, .all, .none, [1]⟩, ⟨0x62, true, false, .s, .none, [1, 6]⟩,
   ⟨0x68, true, false, .bs, .none, [1, 6]⟩, ⟨0x69, true, false, .all, .d2h, [1, 6]⟩,
   ⟨0x6A, true, false, .bs, .none, [1]⟩, ⟨0x70, true, false, .all, .d2h, [1, 6]⟩,
   ⟨0x71, true, false, .all, .d2h, [1]⟩, ⟨0x72, true, false, .s, .none, [1, 6, 7, 8]⟩,
   ⟨0x78, true, false, .all, .d2h, [6, 7, 8]⟩, ⟨0x79, true, false, .s, .none, [1, 6]⟩,
   ⟨0x7A, true, false, .all, .d2h, [1]⟩, ⟨0x7B, true, false, .s, .none, [1]⟩,
   ⟨0x80, true, false, .all, .d2h, [6, 7]⟩, ⟨0x81, true, false, .all, .d2h, [6]⟩,
   ⟨0x90, true, false, .all, .none, [6, 7, 8]⟩, ⟨0x91, true, false, .all, .d2h, [6, 7]⟩,
   ⟨0x92, true, false, .own, .none, []⟩, ⟨0x93, true, false, .own, .none, []⟩,
   ⟨0x94, true, false, .all, .none, [5]⟩, ⟨0x95, true, false, .s, .none, [6]⟩,
   ⟨0x96, true, false, .all, .none, [6]⟩, ⟨0x97, true, false, .all, .none, [6]⟩]

/-- Opcodes of PF1; dword 5 is the nonce where R377 places one. -/
def opRowsC : List OpRow :=
  [⟨0xA0, false, true, .all, .d2h, [5, 6]⟩, ⟨0xA1, false, true, .all, .d2h, []⟩,
   ⟨0xA2, false, true, .all, .h2d, [6, 7]⟩, ⟨0xB0, false, true, .all, .d2h, [5, 6]⟩,
   ⟨0xB1, false, true, .all, .h2d, []⟩, ⟨0xB2, false, true, .all, .h2d, [6, 7]⟩,
   ⟨0xB3, false, true, .all, .none, [1, 6, 7, 8, 9, 10]⟩, ⟨0xB4, false, true, .all, .d2h, [5]⟩,
   ⟨0xB5, false, true, .all, .d2h, [5, 6, 7]⟩, ⟨0xC0, false, true, .all, .d2h, []⟩,
   ⟨0xC1, false, true, .all, .d2h, [5, 6, 7]⟩, ⟨0xC2, false, true, .all, .d2h, [5, 6, 7]⟩,
   ⟨0xC3, false, true, .all, .h2d, [6]⟩, ⟨0xC4, false, true, .all, .h2d, []⟩,
   ⟨0xC5, false, true, .all, .d2h, [5]⟩]

/-- The opcode table (Table 03-9). -/
def opRows : List OpRow := opRowsAdmin ++ opRowsA ++ opRowsB ++ opRowsC

/-- The row of an opcode on a function (R103). -/
def opRow (fn : Fn) (op : Nat) : Option OpRow :=
  opRows.find? (fun r => r.op == op && (match fn with | .pf0 => r.pf0 | .pf1 => r.pf1))

/-! ### The checks before a command (R515) -/

/-- The result dword of a BAD_PARAM (R98): the offending dword and the lowest bit of its field. -/
def badField (dword bit : Nat) : Nat := dword + 256 * bit

/-- The result of a BAD_PARAM caused by the host buffer's content (R98). -/
def badContent : Nat := 0xFF

/-- The lowest dword of `i, i+1, …` that is used for nothing and not 0. -/
def unusedFrom (q : Sqe) (used : List Nat) : (i n : Nat) → Option Nat
  | _, 0 => none
  | i, n + 1 => if used.contains i || sd q i == 0 then unusedFrom q used (i + 1) n else some i

/-- The general SQE checks of R86: the first offending dword, if any. -/
def generalCheck (r : OpRow) (q : Sqe) : Option Nat :=
  let used := r.used ++ (match r.buf with | .none => [] | .base => [2, 3] | _ => [2, 3, 4])
  let buf := r.buf = .d2h || r.buf = .h2d
  let a := if buf && addrOf q % 4 != 0 then [2] else []
  let l := if buf && (sd q 4 % 4 != 0 || sd q 4 > 1048576) then [4] else []
  let x := (unusedFrom q used 1 15).toList
  (a ++ l ++ x).min?

/-- Every group is gated and no session is open (R71). -/
def State.quietSite (s : State) : Bool := s.psc.groups.all (fun p => p.st ≠ .running) && s.spa.sess.isEmpty

/-- Check 3 of R515: the status with which the device state turns a command away, if it does (R104; R65, R67, R71). -/
def stateCheck (op : Nat) (a : Accept) (s : State) : Option Nat :=
  let st := s.sup.st
  match a with
  | .all => if s.hqeReady then none else some stNOT_COMMITTED
  | .bs => if st = .bisque || st = .service then none else some stNOT_COMMITTED
  | .s => if st = .service then none else some stNOT_COMMITTED
  | .own => match op with
    | 0x18 => if st = .waitHost || st = .bisque || st = .service then none else some stNOT_COMMITTED
    | 0x92 => if st = .waitHost && s.sup.bisqueValid then none else some stBAD_STATE
    | _ => if (st = .bisque || st = .waitHost) && s.quietSite then none else some stBAD_STATE

/-- Checks 1 to 4 of R515 for a row's opcode: the status and result of the first that fails. -/
def preCheck (op : Nat) (q : Sqe) (s : State) : Option (Nat × Nat) :=
  match opRow q.fn op with
  | none => some (stBAD_OPCODE, 0)
  | some r =>
    if opOf q ≠ op then some (stBAD_OPCODE, 0)
    else if 1 ≤ op ∧ op ≤ 6 ∧ q.sq ≠ 0 then some (stBAD_STATE, 0)
    else match stateCheck op r.accept s with
      | some st => some (st, 0)
      | none => match generalCheck r q with
        | some d => some (stBAD_PARAM, badField d 0)
        | none => none

/-- The first failing parameter check, in dword order: (holds, dword, lowest bit of the field). -/
def firstBad : List (Bool × Nat × Nat) → Option Nat
  | [] => none
  | (ok, d, b) :: r => if ok then firstBad r else some (badField d b)

/-- A command completes with a status and a result. -/
def State.done (q : Sqe) (status result : Nat) (s : State) : State := s.complete q.fn q.sq (cidOf q) status result

/-- The subsystem that owns an opcode: the chapter that defines its payload (Table 03-9). -/
def ownerOf (op : Nat) : Nat :=
  if op < 0x10 then 0
  else if op < 0x18 then 1
  else if op < 0x20 ∨ 0x90 ≤ op ∧ op < 0xA0 then 2
  else if op < 0x24 then 3
  else if op < 0x30 then 4
  else if op < 0x40 then 5
  else if op < 0x50 then 6
  else if op < 0x60 then 7
  else if op < 0x68 then 8
  else if op < 0x70 then 9
  else if op < 0x78 then 10
  else if op < 0x80 then 11
  else if op < 0x90 then 12
  else if op < 0xB0 then 13
  else if op < 0xC0 then 14
  else 15

/-- A forwarded entry that its island has not taken, of the SQ and subsystem of a command. -/
def Fwd.ahead (q : Sqe) (f : Fwd) : Bool :=
  f.fn = q.fn && f.sq == q.sq && ownerOf f.op == ownerOf (opOf q) && !f.accepted

/-- A command can reach its island now: it is the oldest of its SQ and subsystem on the way (R95), and it was not discarded in its
crossing (R100). A command with no forwarded entry counts as forwarded and arriving at once (DESIGN CHOICE, log entry 7). -/
def State.arrives (q : Sqe) (s : State) : Bool :=
  match s.hqe.fwd.find? (Fwd.ahead q) with
  | some f => f.cid == cidOf q
  | none => !s.hqe.dropped.contains (q.fn, q.sq, cidOf q)

/-- The oldest entry of a command on the way marked accepted, or an entry made where it has none. -/
def acceptIn (q : Sqe) : List Fwd → List Fwd
  | [] => [⟨q.fn, q.sq, cidOf q, opOf q, true, false, quietOf q, false⟩]
  | f :: r => if f.is q.fn q.sq (cidOf q) && !f.accepted then { f with accepted := true } :: r else f :: acceptIn q r

/-- The owning island takes a command. -/
def State.accept (q : Sqe) (s : State) : State :=
  { s with cur := some (q.fn, q.sq, cidOf q) }.onHqe (fun h => { h with fwd := acceptIn q h.fwd })

/-- A host command that arrives: checks 1 to 4 of R515, then the owning chapter's parameter checks, then its effect. -/
def hostCmd (op : Nat) (q : Sqe) (params : List (Bool × Nat × Nat)) (body : State → State) (s : State) : State :=
  if !s.arrives q then s else
  let s := s.accept q
  match preCheck op q s with
  | some (st, r) => s.done q st r
  | none => match firstBad params with
    | some r => s.done q stBAD_PARAM r
    | none => body s

/-- What a command's host-memory reads returned: in failure where one of them has failed (R102, R515). -/
def State.bufferOf (q : Sqe) (h : HostRead) (s : State) : HostRead :=
  if s.hqe.fwd.any (fun f => f.is q.fn q.sq (cidOf q) && f.failed) then .error else h

/-- The device's data in a command's host buffer (R90). -/
def State.reply (q : Sqe) (bytes : List Byte) (s : State) : State := s.dma q.fn (addrOf q) bytes

/-- A command that returns data: the bytes are written, then it completes. -/
def State.replyDone (q : Sqe) (bytes : List Byte) (result : Nat) (s : State) : State :=
  (s.reply q bytes).done q stDONE result

/-- The parameter checks of a command over a range of objects: dword 1 first, dword 6 count, and a buffer of at least `size`
bytes for each (a longer buffer is taken: DEDUCED, log entry 7). -/
def rangeParams (q : Sqe) (count total size : Nat) : List (Bool × Nat × Nat) :=
  [(sd q 1 < total, 1, 0), (size * count ≤ sd q 4, 4, 0), (1 ≤ count && sd q 1 + count ≤ total, 6, 0)]

end Sys2Proof.Machine
end

