-- ==== Sys2Proof/Machine/Hqe.lean ====
section
/-! DEFINITION. The host queue engine: ring management, doorbells, fetching and forwarding, completions and events, MSI-X,
tags and the PF1 tunnel (R75 to R115, R499, R500, R514 to R516). -/

namespace Sys2Proof.Machine

open Sys2Proof

/-- The outcome of every command: the next state. -/
abbrev Res := Host.Outcome State Fault Refusal

/-! ### Faults of rings -/

/-- HQE_FAULT_INFO (Table 03-15). -/
def faultInfoWord (isCq : Bool) (n cause : Nat) : Word := BitVec.ofNat 32 (n % 256 * 2 ^ 16 + b2n isCq * 2 ^ 15 + cause)

/-- The most recent HQE fault is recorded (R115). -/
def State.noteFault (fn : Fn) (isCq : Bool) (n cause : Nat) (s : State) : State :=
  s.onFn fn (fun f => { f with faultInfo := faultInfoWord isCq n cause })

/-- A ring is put in fault: its bit, HQE_FAULT_INFO and the event of its function (R88). -/
def State.ringFault (fn : Fn) (isCq : Bool) (n cause : Nat) (s : State) : State :=
  let s1 := s.onFn fn (fun f =>
    if isCq then f.onCq n (fun r => { r with fault := true }) else f.onSq n (fun r => { r with fault := true }))
  let s2 := s1.noteFault fn isCq n cause
  match fn with
  | .pf0 => s2.postEvent .pf0 65 0x01 (cause + 256 * b2n isCq) n
  | .pf1 => s2.postEvent .pf1 7 0x41 (cause + 256 * b2n isCq) n

/-- A DMA error outside any command (R109). -/
def State.dmaError (fn : Fn) (s : State) : State :=
  match fn with
  | .pf0 => s.postEvent .pf0 65 0x02 0 noSource
  | .pf1 => s.postEvent .pf1 7 0x42 0 noSource

/-! ### Ring management (Table 03-2) -/

/-- NOP echoes dword 6. -/
def nop (q : Sqe) (s : State) : State := hostCmd 0x00 q [] (fun s => s.done q stDONE (sd q 6)) s

/-- Meaning of NOP (R83). -/
def execNop (q : Sqe) (s : State) : Res := .next (nop q s.start)

/-- A new completion ring. -/
def newCq (q : Sqe) : CqRing :=
  { base := addrOf q, k := bits (sd q 6) 19 16, head := 0, tail := 0, phase := true, ie := bit (sd q 6) 24
    count := bits (sd q 7) 7 0, time := bits (sd q 7) 25 16, fresh := 0, timing := false, fault := false }

/-- The parameter checks of CQ_CREATE (Table 03-2). -/
def cqCreateParams (q : Sqe) (f : FnState) : List (Bool × Nat × Nat) :=
  let id := bits (sd q 6) 7 0
  let k := bits (sd q 6) 19 16
  [(addrOf q % 4096 == 0, 2, 0), (1 ≤ id && id < f.cqs.length && (f.cq id).isNone, 6, 0), (4 ≤ k && k ≤ 12, 6, 16),
   (1 ≤ bits (sd q 7) 7 0, 7, 0), (bits (sd q 7) 25 16 ≤ 1000, 7, 16)]

/-- Meaning of CQ_CREATE (R80, R83). -/
def execCqCreate (q : Sqe) (s : State) : Res :=
  .next (hostCmd 0x01 q (cqCreateParams q (s.fnOf q.fn))
    (fun s => (s.onFn q.fn (fun f => { f with cqs := f.cqs.set (bits (sd q 6) 7 0) (some (newCq q)) })).done q stDONE 0)
    s.start)

/-- A new submission ring. -/
def newSq (q : Sqe) : SqRing :=
  { base := addrOf q, k := bits (sd q 6) 19 16, cq := bits (sd q 7) 7 0, head := 0, tail := 0, fault := false
    deleting := false, fetched := [] }

/-- The parameter checks of SQ_CREATE (Table 03-2); an id in deletion is in use (R83). -/
def sqCreateParams (q : Sqe) (f : FnState) : List (Bool × Nat × Nat) :=
  let id := bits (sd q 6) 7 0
  let k := bits (sd q 6) 19 16
  [(addrOf q % 4096 == 0, 2, 0), (1 ≤ id && id < f.sqs.length && (f.sq id).isNone, 6, 0), (4 ≤ k && k ≤ 12, 6, 16),
   ((f.cq (bits (sd q 7) 7 0)).isSome, 7, 0)]

/-- Meaning of SQ_CREATE (R80, R83). -/
def execSqCreate (q : Sqe) (s : State) : Res :=
  .next (hostCmd 0x02 q (sqCreateParams q (s.fnOf q.fn))
    (fun s => (s.onFn q.fn (fun f => { f with sqs := f.sqs.set (bits (sd q 6) 7 0) (some (newSq q)) })).done q stDONE 0)
    s.start)

/-- A fetched command completes without having been forwarded. -/
def State.dropFetched (fn : Fn) (sq status : Nat) (dw : List Word) (s : State) : State :=
  let q : Sqe := ⟨fn, sq, dw⟩
  s.onHqe (fun h => { h with ready := h.ready ++ [⟨fn, sq, cidOf q, status, 0, quietOf q, none⟩] })

/-- True for a read of an SQE of one SQ. -/
def ReadReq.isSqe (fn : Fn) (n : Nat) (r : ReadReq) : Bool :=
  match r.purpose with
  | .sqe sq _ => r.fn = fn && sq == n
  | _ => false

/-- SQ_DELETE: fetching stops, unforwarded commands are aborted, and the delete's own CQE waits for the others (R83). An SQE whose
read is still outstanding is not fetched yet: it goes with the ring, without a completion (DESIGN CHOICE, log entry 7). -/
def sqDelete (q : Sqe) (s : State) : State :=
  let id := bits (sd q 6) 7 0
  match (s.fnOf q.fn).sq id with
  | none => s
  | some r =>
    if r.deleting then s.done q stBAD_STATE 0
    else
      let gone := r.fetched.filterMap (fun e => e.dw)
      let s1 := s.onFn q.fn (FnState.onSq id (fun r => { r with deleting := true, fetched := [] }))
      let s2 := gone.foldl (fun s dw => s.dropFetched q.fn id stABORTED_DELETE dw) s1
      let rest := s2.hqe.fwd.filter (fun f => !(f.is q.fn q.sq (cidOf q)))
      s2.onHqe (fun h => { h with
        fwd := rest
        tags := h.tags.map (fun t => if t.2.isSqe q.fn id then (t.1, { t.2 with purpose := .gone }) else t)
        ready := h.ready ++ [⟨q.fn, q.sq, cidOf q, stDONE, gone.length, quietOf q, some (.sqGone id)⟩] })

/-- Meaning of SQ_DELETE (R83). -/
def execSqDelete (q : Sqe) (s : State) : Res :=
  .next (hostCmd 0x03 q
    [(1 ≤ bits (sd q 6) 7 0 && ((s.fnOf q.fn).sq (bits (sd q 6) 7 0)).isSome, 6, 0)] (sqDelete q) s.start)

/-- True when some SQ of the function is bound to the CQ. -/
def FnState.bound (f : FnState) (c : Nat) : Bool :=
  f.sqs.any (fun o => match o with | none => false | some r => r.cq == c)

/-- Meaning of CQ_DELETE (R83). -/
def execCqDelete (q : Sqe) (s : State) : Res :=
  let id := bits (sd q 6) 7 0
  .next (hostCmd 0x04 q [(1 ≤ id && ((s.fnOf q.fn).cq id).isSome, 6, 0)]
    (fun s =>
      if (s.fnOf q.fn).bound id || (s.fnOf q.fn).eventCq == some id then s.done q stBAD_STATE 0
      else (s.onFn q.fn (fun f => { f with cqs := f.cqs.set id none })).done q stDONE 0) s.start)

/-- EVENT_CQ_SET: the previous event CQ is the result; pending and held entries move to the new CQ, or are discarded
(R106, R107, R514). -/
def eventCqSet (q : Sqe) (s : State) : State :=
  let f := s.fnOf q.fn
  let r := match f.eventCq with | none => 0xFF | some c => c
  let s1 := s.onFn q.fn (fun f =>
    if bit (sd q 6) 8 then { f with eventCq := none, pendEv := [], held := [] }
    else { f with eventCq := some (bits (sd q 6) 7 0), pendEv := f.held ++ f.pendEv, held := [] })
  s1.done q stDONE r

/-- Meaning of EVENT_CQ_SET (R106). -/
def execEventCqSet (q : Sqe) (s : State) : Res :=
  .next (hostCmd 0x05 q
    [(bit (sd q 6) 8 || ((s.fnOf q.fn).cq (bits (sd q 6) 7 0)).isSome, 6, 0)] (eventCqSet q) s.start)

/-- The newest completion takes a tail. -/
def tailOn (x : CqeTail) : List Cqe → List Cqe
  | [] => []
  | [c] => [{ c with tail := some x }]
  | c :: r => c :: tailOn x r

/-- A command completes, and its completion's posting waits for or brings something. -/
def State.doneWith (q : Sqe) (status result : Nat) (x : CqeTail) (s : State) : State :=
  (s.done q status result).onHqe (fun h => { h with ready := tailOn x h.ready })

/-- Meaning of CQ_MODERATE (R109): the settings take effect from the first CQE after its own. -/
def execCqModerate (q : Sqe) (s : State) : Res :=
  let id := bits (sd q 6) 7 0
  .next (hostCmd 0x06 q
    [(((s.fnOf q.fn).cq id).isSome, 6, 0), (1 ≤ bits (sd q 7) 7 0, 7, 0), (bits (sd q 7) 25 16 ≤ 1000, 7, 16)]
    (fun s => s.doneWith q stDONE 0 (.moderates id (bits (sd q 7) 7 0) (bits (sd q 7) 25 16))) s.start)

/-- Meaning of IDENTIFY (R505). -/
def execIdentify (q : Sqe) (s : State) : Res :=
  .next (hostCmd 0x07 q [(sd q 4 == 4096, 4, 0)] (fun s => s.replyDone q (identifyData q.fn s) 0) s.start)

/-- True for a fetched entry of a command id. -/
def Fetched.is (fn : Fn) (sq cid : Nat) (e : Fetched) : Bool :=
  match e.dw with
  | none => false
  | some dw => cidOf ⟨fn, sq, dw⟩ == cid

/-- A completion that waits, of a command of an id that had been forwarded: not one that an ABORT or SQ_DELETE removed. -/
def Cqe.forwarded (fn : Fn) (sq cid : Nat) (c : Cqe) : Bool :=
  c.fn = fn && c.sq == sq && c.cid == cid && c.status != stABORTED_HOST && c.status != stABORTED_DELETE

/-- ABORT: removes an unforwarded command, or says that it was forwarded or not found (R84). -/
def abort (q : Sqe) (s : State) : State :=
  let id := bits (sd q 6) 7 0
  let cid := bits (sd q 6) 31 16
  match (s.fnOf q.fn).sq id with
  | none => s
  | some r => match takeFirst (Fetched.is q.fn id cid) r.fetched with
    | some (e, rest) =>
      let s1 := s.onFn q.fn (FnState.onSq id (fun r => { r with fetched := rest }))
      (s1.dropFetched q.fn id stABORTED_HOST (e.dw.getD [])).doneWith q stDONE 0 (.aborted id cid)
    | none =>
      if s.hqe.fwd.any (Fwd.is q.fn id cid) || s.hqe.ready.any (Cqe.forwarded q.fn id cid) then
        s.done q stDONE_NOTE 1
      else s.done q stDONE_NOTE 2

/-- Meaning of ABORT (R84). -/
def execAbort (q : Sqe) (s : State) : Res :=
  .next (hostCmd 0x08 q [(((s.fnOf q.fn).sq (bits (sd q 6) 7 0)).isSome, 6, 0)] (abort q) s.start)

/-! ### Enable and disable -/

/-- Ring 0's submission ring (R79). -/
def adminSq (f : FnState) : SqRing :=
  { base := f.asqHi.toNat * 2 ^ 32 + f.asqLo.toNat, k := bits f.adminSize.toNat 3 0, cq := 0, head := 0, tail := 0
    fault := false, deleting := false, fetched := [] }

/-- Ring 0's completion ring: interrupt enable 1, count 1, time 0 (R115). -/
def adminCq (f : FnState) : CqRing :=
  { base := f.acqHi.toNat * 2 ^ 32 + f.acqLo.toNat, k := bits f.adminSize.toNat 11 8, head := 0, tail := 0
    phase := true, ie := true, count := 1, time := 0, fresh := 0, timing := false, fault := false }

/-- A ring size in range (R78). -/
def kOk (k : Nat) : Bool := 4 ≤ k && k ≤ 12

/-- The write of 1 to HQE_CTRL.enable (R115, R514). -/
def hqeEnable (fn : Fn) (s : State) : State :=
  if !s.hiUp then s
  else
    let s := s.onFn fn (fun f => { f with faultInfo := 0 })
    let f := s.fnOf fn
    if f.enable then s
    else if kOk (bits f.adminSize.toNat 3 0) && kOk (bits f.adminSize.toNat 11 8) then
      let s1 := s.onFn fn (fun f =>
        { f with enable := true, sqs := f.sqs.set 0 (some (adminSq f)), cqs := f.cqs.set 0 (some (adminCq f)) })
      if s.hqeReady then f.held.foldl (fun s e => s.fireEvent fn (e.code / 256)) s1 else s1
    else s.noteFault fn false 0 0x05

/-- Meaning of HQE_ENABLE (R115). -/
def execHqeEnable (fn : Fn) (s : State) : Res := .next (hqeEnable fn s.start)

/-- The rings of a function cease to exist (R100): completions not yet posted are dropped, commands the islands have
accepted run on as orphans, commands in a crossing are discarded, and events are discarded (R514). -/
def State.endRings (fn : Fn) (s : State) : State :=
  ((s.onSup (fun p => if fn = .pf0 then { p with posting := none } else p)).onSpa (fun p =>
    if fn = .pf0 then { p with unposted := [] } else p)).onHqe (fun h =>
    let h1 : Hqe := { h with
      ready := h.ready.filter (fun c => c.fn ≠ fn)
      dropped := h.lostIn fn
      fwd := (h.fwd.filter (fun f => f.fn ≠ fn || f.accepted)).map (fun f => if f.fn = fn then { f with orphan := true } else f)
      readWait := h.readWait.filter (fun r => r.fn ≠ fn)
      tags := h.tags.map (fun t => if t.2.fn = fn then (t.1, { t.2 with purpose := .gone }) else t) }
    h1.onFn fn (fun f => { f with
      enable := false, sqs := f.sqs.map (fun _ => none), cqs := f.cqs.map (fun _ => none), eventCq := none
      pendEv := [], held := [] }))

/-! ### Doorbells (R88) -/

/-- A write to an SQ tail doorbell. A ring already in fault takes no further doorbell write: no new fault, no record and no event
(DESIGN CHOICE, log entry 7). -/
def sqTail (fn : Fn) (n size : Nat) (val : Word) (s : State) : State :=
  let v := bits val.toNat 15 0
  if size ≠ 4 || !s.hiUp || !s.hqeReady || n ≥ (s.fnOf fn).sqs.length then s
  else match (s.fnOf fn).sq n with
    | none => s.noteFault fn false n 0x02
    | some r =>
      if v = r.tail || r.fault then s
      else if v ≥ r.size then s.ringFault fn false n 0x01
      else s.onFn fn (FnState.onSq n (fun r => { r with tail := v }))

/-- Meaning of SQ_TAIL_DOORBELL (R88). -/
def execSqTailDoorbell (fn : Fn) (n size : Nat) (val : Word) (s : State) : Res := .next (sqTail fn n size val s.start)

/-- A write to a CQ head doorbell; a ring already in fault ignores it, as an SQ does (DESIGN CHOICE, log entry 7). -/
def cqHead (fn : Fn) (n size : Nat) (val : Word) (s : State) : State :=
  let v := bits val.toNat 15 0
  if size ≠ 4 || !s.hiUp || !s.hqeReady || n ≥ (s.fnOf fn).cqs.length then s
  else match (s.fnOf fn).cq n with
    | none => s.noteFault fn true n 0x02
    | some r =>
      if v = r.head || r.fault then s
      else if v ≥ r.size then s.ringFault fn true n 0x01
      else if (v + r.size - r.head) % r.size > (r.tail + r.size - r.head) % r.size then s.ringFault fn true n 0x04
      else s.onFn fn (FnState.onCq n (fun r => { r with head := v }))

/-- Meaning of CQ_HEAD_DOORBELL (R88). -/
def execCqHeadDoorbell (fn : Fn) (n size : Nat) (val : Word) (s : State) : Res := .next (cqHead fn n size val s.start)

/-! ### Fetch, tags and forwarding (R94, R95, R110) -/

/-- How many read tags the HQE may hold (R110). -/
def Hqe.tagLimit (h : Hqe) : Nat := if h.extTag then 128 else 32

/-- The tags a function holds. -/
def Hqe.tagsOf (h : Hqe) (fn : Fn) : Nat := (h.tags.filter (fun t => t.2.fn = fn)).length

/-- A function may take a tag now: PF1 holds at most 4, and a waiting PF1 read goes first (R110). -/
def Hqe.canTag (h : Hqe) (fn : Fn) : Bool :=
  h.tags.length < h.tagLimit && (fn = .pf0 || h.tagsOf .pf1 < 4)

/-- The lowest tag not held. -/
def Hqe.freeTag (h : Hqe) : Nat := ((List.range 128).find? (fun t => (look t h.tags).isNone)).getD 0

/-- A read request takes a tag and goes out. -/
def State.issue (r : ReadReq) (s : State) : State :=
  let t := s.hqe.freeTag
  (s.onHqe (fun h => { h with tags := h.tags ++ [(t, r)] })).emit (.hostRead r.fn t r.addr r.len)

/-- One waiting read takes a tag, PF1's first (R110). -/
def State.issueOne (s : State) : State :=
  match takeFirst (fun r : ReadReq => r.fn = .pf1 && s.hqe.canTag .pf1) s.hqe.readWait with
  | some (r, rest) => (s.onHqe (fun h => { h with readWait := rest })).issue r
  | none => match takeFirst (fun r : ReadReq => s.hqe.canTag r.fn) s.hqe.readWait with
    | some (r, rest) => (s.onHqe (fun h => { h with readWait := rest })).issue r
    | none => s

/-- Waiting reads go out while tags allow, at most `n` of them. -/
def State.issueAll : (n : Nat) → State → State
  | 0, s => s
  | n + 1, s => s.issueOne.issueAll n

/-- An SQ can be fetched: it exists, is neither in fault nor being deleted, is not empty, and its CQ has room (R81, R83,
R88). -/
def FnState.fetchable (f : FnState) (n : Nat) : Bool :=
  match f.sq n with
  | none => false
  | some r => !r.fault && !r.deleting && r.head != r.tail &&
    (match f.cq r.cq with | none => false | some c => c.room)

/-- The SQ a function fetches from next: SQ 0 strictly, the others in turn (R94). -/
def FnState.pick (f : FnState) : Option Nat :=
  if f.fetchable 0 then some 0
  else ((List.range f.sqs.length).map (fun i => (f.rr + i) % f.sqs.length)).find? (fun n => n ≠ 0 && f.fetchable n)

/-- One SQE read from a function's rings: the slot is read at 64 bytes per entry, and the head advances (R94, R87). -/
def State.fetchFrom (fn : Fn) (n : Nat) (s : State) : State :=
  match (s.fnOf fn).sq n with
  | none => s
  | some r =>
    let s1 := s.onFn fn (fun f =>
      { f.onSq n (fun r => { r with head := (r.head + 1) % r.size, fetched := r.fetched ++ [⟨r.head, none⟩] }) with
        rr := if n = 0 then f.rr else n + 1 })
    (s1.onHqe (fun h => { h with lastPf1 := fn = .pf1 })).issue ⟨fn, .sqe n r.head, r.base + 64 * r.head, 64, [], false⟩

/-- The next SQE fetched, PF1 in alternation with PF0 (R94). -/
def sqeFetch (s : State) : State :=
  let can (fn : Fn) : Option Nat :=
    if s.hiUp && s.hqeReady && (s.fnOf fn).enable && s.hqe.canTag fn then (s.fnOf fn).pick else none
  let first : Fn := if s.hqe.lastPf1 then .pf0 else .pf1
  let second : Fn := if s.hqe.lastPf1 then .pf1 else .pf0
  match can first with
  | some n => s.fetchFrom first n
  | none => match can second with
    | some n => s.fetchFrom second n
    | none => s

/-- Meaning of SQE_FETCH (R94). -/
def execSqeFetch (s : State) : Res := .next (sqeFetch s.start)

/-- A freed tag goes first to PF1 when PF1 has a read waiting: a buffer read in the queue, or the fetch of an SQE that had no tag
(R110); then to PF0. -/
def State.freedTag (wanted : Bool) (s : State) : State :=
  if s.hqe.readWait.any (fun r => r.fn = .pf1) then s.issueOne
  else if wanted && s.hiUp && s.hqeReady && (s.fnOf .pf1).enable && s.hqe.canTag .pf1 then
    match (s.fnOf .pf1).pick with
    | some n => s.fetchFrom .pf1 n
    | none => s.issueOne
  else s.issueOne

/-- The dwords of a byte string. -/
def dwords : (n : Nat) → List Byte → List Word
  | 0, _ => []
  | n + 1, b => BitVec.ofNat 32 (leVal (b.take 4)) :: dwords n (b.drop 4)

/-- A read has ended, with its bytes or in failure: an SQE enters its SQ's fetched entries, or its ring takes a fault; a
failed buffer read fails its command with DMA_ERROR (R110, R76): at once on PF1, where nothing can be tunnelled, and on PF0 after
the checks of the command's island (R515). -/
def State.readEnd (r : ReadReq) (s : State) : State :=
  match r.purpose with
  | .sqe sq idx =>
    if r.failed then
      match (s.fnOf r.fn).sq sq with
      | none => s.dmaError r.fn
      | some _ => (s.onFn r.fn (FnState.onSq sq (fun x => { x with fetched := x.fetched.filter (fun e => e.idx ≠ idx) }))).ringFault
          r.fn false sq 0x03
    else s.onFn r.fn (FnState.onSq sq (fun x => { x with
      fetched := x.fetched.map (fun e => if e.idx = idx && e.dw.isNone then { e with dw := some (dwords 16 r.got) } else e) }))
  | .buffer sq cid =>
    if r.failed then
      if s.hqe.fwd.any (fun f => f.is r.fn sq cid && !f.orphan) then
        (match r.fn with
          | .pf0 => s.onHqe (fun h => { h with
              fwd := h.fwd.map (fun f : Fwd => if f.is r.fn sq cid then { f with failed := true } else f) })
          | .pf1 => s.complete .pf1 sq cid stDMA_ERROR 0).onHqe (fun h =>
          { h with readWait := h.readWait.filter (fun w => !(w.fn = r.fn && w.purpose = r.purpose)) })
      else s.dmaError r.fn
    else s
  | .gone => if r.failed then s.dmaError r.fn else s

/-- A completion for a read (R110). -/
def hostReadCompletion (tag : Nat) (data : List Byte) (ok last : Bool) (s : State) : State :=
  match look tag s.hqe.tags with
  | none => s
  | some r =>
    let r' := { r with got := r.got ++ data, failed := r.failed || !ok }
    if last then
      let wanted := !s.hqe.canTag .pf1
      ((s.onHqe (fun h => { h with tags := del tag h.tags })).readEnd r').freedTag wanted
    else s.onHqe (fun h => { h with tags := put tag r' h.tags })

/-- Meaning of HOST_READ_COMPLETION (R110). -/
def execHostReadCompletion (tag : Nat) (data : List Byte) (ok last : Bool) (s : State) : Res :=
  .next (hostReadCompletion tag data ok last s.start)

/-- Meaning of DMA_COMPLETION_TIMEOUT (R76, R110): the tag is freed and the read has failed. -/
def execDmaCompletionTimeout (tag : Nat) (s : State) : Res := .next (hostReadCompletion tag [] false true s.start)

/-- The read requests of a buffer: at most `step` bytes each (R110). -/
def bufferReads (fn : Fn) (p : Purpose) (step : Nat) : (n addr len : Nat) → List ReadReq
  | 0, _, _ => []
  | n + 1, addr, len =>
    if len = 0 then []
    else ⟨fn, p, addr, min step len, [], false⟩ :: bufferReads fn p step n (addr + min step len) (len - min step len)

/-- The reads of a forwarded command's host-to-device buffer are queued and issued (R93, R110). -/
def State.startReads (q : Sqe) (s : State) : State :=
  let step := max 1 (min 512 s.hqe.maxRead)
  let n := (sd q 4 + step - 1) / step
  let rs := bufferReads q.fn (.buffer q.sq (cidOf q)) step n (addrOf q) (sd q 4)
  (s.onHqe (fun h => { h with readWait := h.readWait ++ rs })).issueAll n

/-- The Saggar link is up (R41, R42). -/
def State.linkUp (s : State) : Bool := s.lnk.up

/-- A decoded SQE is forwarded to its island, or completed by the HQE where check 1 fails or, on PF1, where checks 2 to 4
fail or the Saggar link is down (R77, R95, R101, R515). -/
def State.forward (q : Sqe) (s : State) : State :=
  let s := s.onHqe (fun h => { h with fwd := h.fwd ++ [⟨q.fn, q.sq, cidOf q, opOf q, false, false, quietOf q, false⟩] })
  match opRow q.fn (opOf q) with
  | none => s.done q stBAD_OPCODE 0
  | some r =>
    let pre := preCheck (opOf q) q s
    let tunnel := q.fn = .pf1 && opOf q > 0x0F
    match tunnel, pre with
    | true, some (st, x) => s.done q st x
    | true, none =>
      if s.linkUp then (if r.buf = .h2d then s.startReads q else s) else s.done q stSAGGAR_UNREACHABLE 0
    | false, some _ => s
    | false, none => if r.buf = .h2d then s.startReads q else s

/-- Every earlier SQE of an SQ has completed (flags.fence, R95). -/
def State.sqQuiet (s : State) (fn : Fn) (sq : Nat) : Bool :=
  !(s.hqe.fwd.any (fun f => f.fn = fn && f.sq == sq)) && !(s.hqe.ready.any (fun c => c.fn = fn && c.sq == sq))

/-- The oldest fetched SQE of an SQ is forwarded once its fence allows (R95). -/
def sqeForward (fn : Fn) (sq : Nat) (s : State) : State :=
  match (s.fnOf fn).sq sq with
  | none => s
  | some r => match r.fetched with
    | [] => s
    | e :: rest => match e.dw with
      | none => s
      | some dw =>
        let q : Sqe := ⟨fn, sq, dw⟩
        if fenceOf q && !s.sqQuiet fn sq then s
        else (s.onFn fn (FnState.onSq sq (fun r => { r with fetched := rest }))).forward q

/-- Meaning of SQE_FORWARD (R95). -/
def execSqeForward (fn : Fn) (sq : Nat) (s : State) : Res := .next (sqeForward fn sq s.start)

/-! ### Completions and event entries (R87 to R91, R97, R106 to R109) -/

/-- The sixteen bytes of a CQE. -/
def cqeBytes (d0 d1 d2 : Nat) (phase event : Bool) : List Byte :=
  le 4 d0 ++ le 4 d1 ++ le 4 d2 ++ le 4 (b2n phase + 2 * b2n event)

/-- An entry is written at a CQ's tail, which advances; the phase inverts on each pass (R89, R90). -/
def State.writeCqe (fn : Fn) (c d0 d1 d2 : Nat) (event : Bool) (s : State) : State :=
  match (s.fnOf fn).cq c with
  | none => s
  | some r =>
    let t := (r.tail + 1) % r.size
    ((s.emit (.hostWrite fn (r.base + 16 * r.tail) (cqeBytes d0 d1 d2 r.phase event))).onFn fn
      (FnState.onCq c (fun r => { r with tail := t, phase := if t = 0 then !r.phase else r.phase }))).settleEvents fn

/-- Moderation after a counted CQE (R109): the vector fires at the coalescing count, or its time starts. -/
def State.moderate (fn : Fn) (c : Nat) (s : State) : State :=
  match (s.fnOf fn).cq c with
  | none => s
  | some r =>
    if !r.ie then s
    else if r.fresh + 1 ≥ r.count then
      (s.onFn fn (FnState.onCq c (fun r => { r with fresh := 0, timing := false }))).fire fn c
    else s.onFn fn (FnState.onCq c (fun r => { r with fresh := r.fresh + 1, timing := r.time > 0 }))

/-- What a completion's posting waits for has happened: a delete's is the last of its SQ (R83), an ABORT's follows that of the
command it aborted (R84). -/
def State.tailFree (s : State) (c : Cqe) : Bool :=
  match c.tail with
  | some (.sqGone n) => s.sqQuiet c.fn n
  | some (.aborted sq cid) => !s.hqe.ready.any (fun d => d.fn = c.fn && d.sq == sq && d.cid == cid && d.status == stABORTED_HOST)
  | _ => true

/-- A completion may be posted: its CQ has room, and nothing has to go before it (R81, R83, R84); one whose ring has gone is
dropped, and so is one of an SQ in deletion whose CQ is in fault, which the host recovers by deleting both (R88; DESIGN CHOICE, log
entry 7). -/
def State.postable (s : State) (c : Cqe) : Bool :=
  match (s.fnOf c.fn).sq c.sq with
  | none => true
  | some r =>
    (match (s.fnOf c.fn).cq r.cq with | none => true | some k => k.room || k.fault && r.deleting) && s.tailFree c

/-- What the posting of a completion brings: the end of an SQ (R83), or a CQ's new moderation (R109). -/
def State.tailDone (c : Cqe) (s : State) : State :=
  match c.tail with
  | some (.sqGone n) => s.onFn c.fn (fun f => { f with sqs := f.sqs.set n none })
  | some (.moderates n count time) => s.onFn c.fn (FnState.onCq n (fun r => { r with count := count, time := time }))
  | _ => s

/-- A commit is over once its CQE is posted (R63). -/
def State.commitPosted (c : Cqe) (s : State) : State :=
  s.onSup (fun p =>
    if c.fn = .pf0 && p.posting.any (fun x => x.sq == c.sq && x.cid == c.cid) then { p with posting := none } else p)

/-- A ledger change counts once its command's CQE is posted (R24): `left` counts the completions of that SQ and id up to its own. -/
def State.changePosted (c : Cqe) (s : State) : State :=
  if c.fn = .pf1 then s
  else s.onSpa (fun p => { p with unposted := p.unposted.filterMap (fun u =>
    if u.sq ≠ c.sq ∨ u.cid ≠ c.cid then some u else if u.left ≤ 1 then none else some { u with left := u.left - 1 }) })

/-- What a posted completion ends: a commit in progress, a ledger change's wait, and the wait of the events its command caused. -/
def State.cqePosted (c : Cqe) (s : State) : State :=
  ((s.commitPosted c).changePosted c).onHqe (fun h => { h with
    f0 := h.f0.caused (c.fn, c.sq, c.cid), f1 := h.f1.caused (c.fn, c.sq, c.cid) })

/-- The first postable completion is posted (R90). -/
def cqePost (s : State) : State :=
  match takeFirst s.postable s.hqe.ready with
  | none => s
  | some (c, rest) =>
    let s := (s.onHqe (fun h => { h with ready := rest })).cqePosted c
    match (s.fnOf c.fn).sq c.sq with
    | none => s
    | some r =>
      if (match (s.fnOf c.fn).cq r.cq with | none => true | some k => k.fault) then s
      else
        let s1 := s.writeCqe c.fn r.cq (c.cid + c.status * 2 ^ 16) c.result (r.head + c.sq * 2 ^ 16) false
        (if c.quiet then s1 else s1.moderate c.fn r.cq).tailDone c

/-- Meaning of CQE_POST (R90). -/
def execCqePost (s : State) : Res := .next (cqePost s.start)

/-- The coalescing time of a CQ has passed since its first unsignalled CQE (R109). -/
def coalescingTimeExpiry (fn : Fn) (c : Nat) (s : State) : State :=
  match (s.fnOf fn).cq c with
  | none => s
  | some r =>
    if r.timing && r.fresh > 0 then
      (s.onFn fn (FnState.onCq c (fun r => { r with fresh := 0, timing := false }))).fire fn c
    else s

/-- Meaning of COALESCING_TIME_EXPIRY (R109). -/
def execCoalescingTimeExpiry (fn : Fn) (cq : Nat) (s : State) : Res := .next (coalescingTimeExpiry fn cq s.start)

/-- The 100 µs of an event vector end: it fires for occurrences within them, and holds off anew (R108). -/
def holdoffEnd (fn : Fn) (v : Nat) (s : State) : State :=
  let e := (s.fnOf fn).vec v
  if !e.hold then s
  else if e.again then (s.fire fn v).onFn fn (FnState.onVec v (fun x => { x with again := false, hold := !x.masked }))
  else s.onFn fn (FnState.onVec v (fun x => { x with hold := false }))

/-- Meaning of EVENT_VECTOR_HOLDOFF_END (R108). -/
def execEventVectorHoldoffEnd (fn : Fn) (vec : Nat) (s : State) : Res := .next (holdoffEnd fn vec s.start)

/-- A command that caused an event still has its CQE to come in the event CQ: it runs, its answer is under way, or its completion
waits (R97). -/
def State.causeWaits (s : State) (c : Nat) (after : List (Fn × Nat × Nat)) : Bool :=
  after.any (fun (fn, sq, cid) =>
    (match (s.fnOf fn).sq sq with | none => false | some r => r.cq == c) &&
    (s.hqe.ready.any (fun e => e.fn = fn && e.sq == sq && e.cid == cid) ||
      s.hqe.fwd.any (fun f => f.is fn sq cid && !f.orphan)))

/-- The oldest pending event entry is posted to the event CQ once it has room (R107, Table 03-5). -/
def eventCqePost (fn : Fn) (s : State) : State :=
  match (s.fnOf fn).eventCq, (s.fnOf fn).pendEv with
  | some c, e :: rest =>
    if (s.fnOf fn).eventFull || s.causeWaits c e.after then s
    else (s.onFn fn (fun f => { f with pendEv := rest })).writeCqe fn c (e.code + e.count * 2 ^ 16) e.arg
      (e.source % 2 ^ 16 + 0xFF * 2 ^ 16) true
  | _, _ => s

/-- Meaning of EVENT_CQE_POST (R107). -/
def execEventCqePost (fn : Fn) (s : State) : Res := .next (eventCqePost fn s.start)

/-- True for an event vector (Table 03-10). -/
def isEventVec (fn : Fn) (v : Nat) : Bool := match fn with | .pf0 => 64 ≤ v | .pf1 => 4 ≤ v

/-- The host unmasks a vector: it fires when its pending bit is set (R109), an event vector at most once per 100 µs (R108). -/
def msixUnmask (fn : Fn) (v : Nat) (s : State) : State :=
  let e := (s.fnOf fn).vec v
  let s1 := s.onFn fn (FnState.onVec v (fun x => { x with masked := false, pend := false }))
  if e.masked && e.pend then (if isEventVec fn v then s1.fireEvent fn v else s1.fire fn v) else s1

/-- Meaning of MSIX_UNMASK (R109). -/
def execMsixUnmask (fn : Fn) (vec : Nat) (s : State) : Res := .next (msixUnmask fn vec s.start)

/-! ### The PF1 tunnel (R77, R101, R500) -/

/-- A tunnelled command, as the forwarded list shows it. -/
def Fwd.tunnelled (f : Fwd) : Bool := f.fn = .pf1 && f.op > 0x0F

/-- A tunnelled command that waits at the Saggar is not answered. -/
def State.forgetWaiting (sq cid : Nat) (s : State) : State :=
  { s with mss := { s.mss with waiting := s.mss.waiting.filter (fun x => !(x.1.sq == sq && cidOf x.1 == cid)) } }

/-- No answer within 5 s of forwarding (R101); one that is still on its way, or would still come, finds no command any more (R92). -/
def tunnelTimeout (sq cid : Nat) (s : State) : State :=
  if s.hqe.fwd.any (fun f => f.tunnelled && f.is .pf1 sq cid) then
    (s.onHqe (fun h => { h with
      answers := ((takeFirst (fun a : Answer => a.sq == sq && a.cid == cid) h.answers).map Prod.snd).getD h.answers })).forgetWaiting sq cid |>.complete
        .pf1 sq cid stSAGGAR_UNREACHABLE 1
  else s

/-- Meaning of TUNNEL_TIMEOUT (R101). -/
def execTunnelTimeout (sq cid : Nat) (s : State) : Res := .next (tunnelTimeout sq cid s.start)

/-- saggar_miss is cleared by a write of 1 (R500, W1C). -/
def saggarMissClear (s : State) : State := s.onFn .pf1 (fun f => { f with saggarMiss := false })

/-- Meaning of SAGGAR_MISS_CLEAR (R500). -/
def execSaggarMissClear (s : State) : Res := .next (saggarMissClear s.start)

/-- A write to PF1 BAR 0 below 0x3000: dropped while the link is down; every Saggar register is read only (R500, R512). -/
def tunnelWrite (off size : Nat) (s : State) : State :=
  if off < 0x3000 && size == 4 && off % 4 == 0 && !s.linkUp then s.onFn .pf1 (fun f => { f with saggarMiss := true })
  else s

/-- Meaning of PF1_TUNNEL_WRITE (R500). -/
def execPf1TunnelWrite (off size : Nat) (_val : Word) (s : State) : Res := .next (tunnelWrite off size s.start)

end Sys2Proof.Machine
end

