-- ==== Sys2Proof/Machine/Tmf.lean ====
section
/-! DEFINITION. Checked tile memory: handles and generations, retirement, host tiles and stream channels
(R116 to R137), and the writing of 0 to HQE_CTRL.enable (R100, R135). -/

namespace Sys2Proof.Machine

open Sys2Proof

/-! ### Handles and generations (R119 to R121) -/

/-- The current generation of an index. -/
def Tmf.gen (t : Tmf) (i : Nat) : Nat := (look i t.gens).getD t.baseGen

/-- The next generation: 0x0001 follows 0xFFFF (R119). -/
def nextGen (g : Nat) : Nat := if g ≥ 0xFFFF then 1 else g + 1

/-- A generation incremented. -/
def Tmf.bump (i : Nat) (t : Tmf) : Tmf := { t with gens := put i (nextGen (t.gen i)) t.gens }

/-- The handle of an index (R119). -/
def Tmf.handle (t : Tmf) (i : Nat) : Nat := t.gen i * 2 ^ 16 + i

/-- The index of a handle. -/
def handleIdx (h : Nat) : Nat := h % 2 ^ 16

/-- The host tile a handle names, if it is good (R120). -/
def Tmf.hostTile (t : Tmf) (h : Nat) : Option Tile :=
  let i := handleIdx h
  if isPool i && !t.oos.contains i && h / 2 ^ 16 == t.gen i then
    match look i t.tiles with
    | some x => if x.owner = .host then some x else none
    | none => none
  else none

/-- Device-region tiles freed: each generation increments (R119). -/
def State.freeTiles (l : List Nat) (s : State) : State := s.onTmf (fun t => l.foldl (fun t i => t.bump i) t)

/-- A pool tile freed; its generation increments. -/
def Tmf.freeTile (i : Nat) (t : Tmf) : Tmf := { t with tiles := del i t.tiles }.bump i

/-! ### Allocation (R129) -/

/-- Tiles the host holds. -/
def Tmf.hostCount (t : Tmf) : Nat := (t.tiles.filter (fun x => x.2.owner = .host)).length

/-- Free pool tiles that no channel has reserved. -/
def Tmf.unreserved (t : Tmf) : Nat := t.poolFree - sumN (t.chans.map (fun c => c.reserve - c.heldTiles))

/-- The first free pool index at or after `i`, cyclically, within `n` indices. -/
def Tmf.freeFrom (t : Tmf) : (n i : Nat) → Option Nat
  | 0, _ => none
  | n + 1, i =>
    if (look i t.tiles).isNone && !t.oos.contains i then some i
    else t.freeFrom n (if i ≥ 0xFBFF then 0x0940 else i + 1)

/-- Which free index is taken next is not defined (R129): an open value. -/
def State.freeIndex (s : State) : Option Nat := s.tmf.freeFrom 62144 (0x0940 + Config.freeNat s.free % 62144)

/-- A tile allocated: OPEN, all bytes 0 (the content of a new tile is not stated). -/
def State.alloc (o : TileOwner) (s : State) : State × Option Nat :=
  match s.freeIndex with
  | none => (s, none)
  | some i =>
    ((s.took).onTmf (fun t => { t with tiles := t.tiles ++ [(i, ⟨o, false, zeros 4096, 0⟩)] }), some i)

/-- `n` host tiles allocated, with their handles in order. -/
def State.allocHost : (n : Nat) → State → State × List Nat
  | 0, s => (s, [])
  | n + 1, s =>
    match s.alloc .host with
    | (s1, none) => (s1, [])
    | (s1, some i) =>
      let r := s1.allocHost n
      (r.1, s1.tmf.handle i :: r.2)

/-! ### Retirement (R125 to R128) -/

/-- Consumer codes of tile-check events (Table 04-3). -/
def consHost : Nat := 0
def consHqe : Nat := 1
def consKce : Nat := 2
def consSpa : Nat := 3
def consEvr : Nat := 4
def consVpc : Nat := 5
def consSup : Nat := 6

/-- The physical tile of an index: its own number until it is remapped. -/
def Tmf.physOf (t : Tmf) (i : Nat) : Nat := (look i t.phys).getD i

/-- An index's physical tile is retired: the index is remapped to a spare under a new generation, or goes out of service
when none remains (R126, R127); a host tile that ends so gets a new generation too (R119). Which free spare is not stated: they are
taken in ascending order (DESIGN CHOICE, log entry 17). -/
def Tmf.retireIdx (consumer i : Nat) (t : Tmf) : Tmf :=
  let t1 := { t with tiles := del i t.tiles, coeffs := del i t.coeffs, lastValid := true, lastConsumer := consumer, lastIndex := i }
  if t.sparesFree = 0 then
    let t2 := { t1 with oos := if t1.oos.contains i then t1.oos else t1.oos ++ [i] }
    if (look i t.tiles).any (fun x => x.owner = .host) then t2.bump i else t2
  else ({ t1 with phys := put i (64512 + (1024 - t.sparesFree)) t1.phys, sparesFree := t.sparesFree - 1 }).bump i

/-- The retire map in the TMF. -/
def Tmf.retireMap (t : Tmf) : RetireMap := ⟨t.phys, t.oos, t.sparesFree⟩

/-- The retire map goes to the Spire's NVM by the two-slot method, or waits until NVM writes may start (R126, R491). -/
def State.saveMap (s : State) : State :=
  s.onSup (fun p => if p.holdupReady then p.retPut s.tmf.retireMap else { p with retNext := some s.tmf.retireMap })

/-- A failed tile is retired: the map, its records and its event (R126 to R128, Table 04-3). `other`: another copy is used. -/
def State.retire (consumer i src : Nat) (other : Bool) (s : State) : State :=
  let phys := s.tmf.physOf i
  let arg := consumer * 2 ^ 16 + i
  let s1 := ((s.onTmf (Tmf.retireIdx consumer i)).saveMap).faultRec 1 0x0101 i consumer phys
  let s2 := if other then s1.postEvent .pf0 66 0x01 arg src
    else (s1.faultRec 1 0x0102 i consumer phys).postEvent .pf0 66 0x02 arg src
  if s.tmf.sparesFree = 0 then (s2.faultRec 1 0x0103 i consumer phys).postEvent .pf0 66 0x03 arg noSource else s2

/-- A copy of a pair can be used: it is in service and not waiting for its restoration (R125, R127). -/
def Tmf.usable (t : Tmf) (i : Nat) : Bool := !t.oos.contains i && !t.restoring.contains i

/-- One copy of a pair failed: it is retired and waits for its restoration from the other copy (R125). -/
def State.retireCopy (consumer i src : Nat) (s : State) : State :=
  (s.retire consumer i src true).onTmf (fun t =>
    { t with restoring := if t.oos.contains i then t.restoring else t.restoring ++ [i] })

/-- The index of the other copy of a pair (Table 04-1). -/
def pairOther (i : Nat) : Nat :=
  if i < 0x20 then i + 0x20 else if i < 0x40 then i - 0x20 else if i < 0x240 then i + 0x200 else i - 0x200

/-- A retired copy is restored from the other one (R125): a coefficient tile's bytes are copied; the ledger's two copies both hold SPA's
entries. -/
def Tmf.restorePair (i : Nat) (t : Tmf) : Tmf :=
  { t with
    restoring := t.restoring.filter (fun x => x ≠ i)
    coeffs := match look (pairOther i) t.coeffs with
      | none => t.coeffs
      | some b => putSorted i b t.coeffs }

/-- A producer's write to a pair waits until its copies are restored (R125): the restoration comes first. -/
def Tmf.settle (a b : Nat) (t : Tmf) : Tmf :=
  [a, b].foldl (fun t i => if t.restoring.contains i then t.restorePair i else t) t

/-- A coefficient set written to its committed pair, copy A and then copy B, once the pair is restored; a copy out of service stays so
(R123, R125, R127, R180). `n` is 8 × group + band. -/
def Tmf.putCoeff (n : Nat) (b : List Byte) (t : Tmf) : Tmf :=
  [0x40 + n, 0x240 + n].foldl (fun t i => if t.oos.contains i then t else { t with coeffs := putSorted i b t.coeffs })
    (t.settle (0x40 + n) (0x240 + n))

/-- KCE loads a committed set from copy A, or from copy B where A fails its check; false where neither is good (R124, R125, R128).
`bad` lists the indices that fail now. -/
def State.loadCoeff (bad : List Nat) (n : Nat) (s : State) : State × Bool :=
  let a := 0x40 + n
  let b := 0x240 + n
  if s.tmf.usable a && !bad.contains a then (s, true)
  else if s.tmf.usable b && !bad.contains b then (if s.tmf.usable a then s.retireCopy consKce a (n / 8) else s, true)
  else (([a, b].filter s.tmf.usable).foldl (fun s i => s.retire consKce i (n / 8) false) s, false)

/-- SUP writes the sets of a commit into their committed tiles and KCE loads each of them; false where one has no good copy
(R66, R124, R180). -/
def State.loadCoeffs (bad : List Nat) (sets : List (Nat × List Byte)) (s : State) : State × Bool :=
  let s1 := sets.foldl (fun s x => s.onTmf (Tmf.putCoeff x.1 x.2)) s
  sets.foldl (fun a x => let y := a.1.loadCoeff bad x.1; (y.1, a.2 && y.2)) (s1, true)

/-! ### Host tile commands (Table 04-6, R134) -/

/-- A tile of a commit in progress (R63). A handle of the commit's manifests counts by its index, whatever its generation (DESIGN CHOICE,
log entry 17). -/
def State.listed (s : State) (i : Nat) : Bool :=
  s.sup.commits.any (fun c => c.handles.any (fun h => handleIdx h == i))

/-- TILE_ALLOC: all or none, within the host limit and the unreserved free tiles (R129). -/
def tileAlloc (q : Sqe) (s : State) : State :=
  let n := bits (sd q 6) 11 0
  if s.tmf.hostCount + n > s.tmf.hostLimit || s.tmf.unreserved < n then s.done q stNO_TILES 0
  else
    let r := s.allocHost n
    r.1.replyDone q (r.2.flatMap (le 4)) n

/-- Meaning of TILE_ALLOC (R129). -/
def execTileAlloc (q : Sqe) (s : State) : Res :=
  let n := bits (sd q 6) 11 0
  .next (hostCmd 0x10 q [(sd q 4 == 4 * n, 4, 0), (1 ≤ n && n ≤ 2048, 6, 0)] (tileAlloc q) s.start)

/-- A host tile's content changed. -/
def State.setTile (i : Nat) (x : Tile) (s : State) : State := s.onTmf (fun t => { t with tiles := put i x t.tiles })

/-- TILE_WRITE into an OPEN tile (R122). -/
def tileWrite (q : Sqe) (h : HostRead) (s : State) : State :=
  let i := handleIdx (sd q 5)
  match s.tmf.hostTile (sd q 5) with
  | none => s.done q stBAD_HANDLE 0
  | some x =>
    if x.closed || s.listed i then s.done q stBAD_STATE 0
    else match s.bufferOf q h with
      | .error => s.done q stDMA_ERROR 0
      | .data b =>
        let o := bits (sd q 6) 11 0
        let n := sd q 4
        (s.setTile i { x with bytes := x.bytes.take o ++ padTo n b ++ x.bytes.drop (o + n) }).done q stDONE 0

/-- Meaning of TILE_WRITE (R122). -/
def execTileWrite (q : Sqe) (h : HostRead) (s : State) : Res :=
  let o := bits (sd q 6) 11 0
  .next (hostCmd 0x11 q [(o + sd q 4 ≤ 4096, 4, 0), (o % 4 == 0, 6, 0)] (tileWrite q h) s.start)

/-- TILE_CLOSE: the check word is computed, and compared on request (R122). -/
def tileClose (q : Sqe) (s : State) : State :=
  let i := handleIdx (sd q 5)
  match s.tmf.hostTile (sd q 5) with
  | none => s.done q stBAD_HANDLE 0
  | some x =>
    if x.closed || s.listed i then s.done q stBAD_STATE 0
    else
      let c := crc32c x.bytes
      if bit (sd q 7) 0 && c != sd q 6 then s.done q stTILE_CHECK 0
      else (s.setTile i { x with closed := true, check := c }).done q stDONE c

/-- Meaning of TILE_CLOSE (R122). -/
def execTileClose (q : Sqe) (s : State) : Res := .next (hostCmd 0x12 q [] (tileClose q) s.start)

/-- TILE_READ: the tile is verified, then delivered (R124); a tile that fails is retired (R98, R126). -/
def tileRead (q : Sqe) (bad : Bool) (s : State) : State :=
  let i := handleIdx (sd q 5)
  match s.tmf.hostTile (sd q 5) with
  | none => s.done q stBAD_HANDLE 0
  | some x =>
    if !x.closed then s.done q stBAD_STATE 0
    else if bad then (s.done q stTILE_CHECK 0).retire consHqe i noSource false
    else s.replyDone q x.bytes x.check

/-- Meaning of TILE_READ (R124). -/
def execTileRead (q : Sqe) (bad : Bool) (s : State) : Res :=
  .next (hostCmd 0x13 q [(sd q 4 == 4096, 4, 0)] (tileRead q bad) s.start)

/-- TILE_FREE (R119). -/
def tileFree (q : Sqe) (s : State) : State :=
  let i := handleIdx (sd q 5)
  match s.tmf.hostTile (sd q 5) with
  | none => s.done q stBAD_HANDLE 0
  | some _ =>
    if s.listed i then s.done q stBAD_STATE 0
    else (s.onTmf (Tmf.freeTile i)).done q stDONE 0

/-- Meaning of TILE_FREE (R119). -/
def execTileFree (q : Sqe) (s : State) : Res := .next (hostCmd 0x14 q [] (tileFree q) s.start)

/-! ### Stream channels (R129 to R133) -/

/-- A channel. -/
def Tmf.chan (t : Tmf) (n : Nat) : Chan := t.chans.getD n Chan.reset

/-- A channel changed. -/
def State.onChan (n : Nat) (f : Chan → Chan) (s : State) : State :=
  s.onTmf (fun t => { t with chans := upd t.chans n f })

/-- The parameter checks of STREAM_OPEN (Table 04-6). -/
def streamOpenParams (q : Sqe) : List (Bool × Nat × Nat) :=
  let reserve := bits (sd q 6) 15 0
  let cap := bits (sd q 6) 31 16
  [(sd q 1 < 16, 1, 0), (reserve ≤ 16384, 6, 0), (max 1 reserve ≤ cap && cap ≤ 32768, 6, 16),
   (bits (sd q 7) 25 16 ≤ 1000, 7, 16)]

/-- STREAM_OPEN. -/
def streamOpen (q : Sqe) (s : State) : State :=
  let n := sd q 1
  let reserve := bits (sd q 6) 15 0
  if (s.tmf.chan n).isOpen then s.done q stBAD_STATE 0
  else if reserve > s.tmf.unreserved then s.done q stNO_TILES 0
  else (s.onChan n (fun _ => { Chan.reset with
    isOpen := true, reserve := reserve, cap := bits (sd q 6) 31 16, mode := bits (sd q 7) 0 0
    flush := bits (sd q 7) 25 16 })).done q stDONE 0

/-- Meaning of STREAM_OPEN (R129). -/
def execStreamOpen (q : Sqe) (s : State) : Res := .next (hostCmd 0x15 q (streamOpenParams q) (streamOpen q) s.start)

/-- STREAM_BUFFER: at most 64 buffers are posted; it completes when it is full or flushed (R131, R134). -/
def streamBuffer (q : Sqe) (s : State) : State :=
  let n := sd q 1
  let c := s.tmf.chan n
  if !c.isOpen then s.done q stBAD_STATE 0
  else if c.bufs.length ≥ 64 then s.done q stBUSY_RETRY 0
  else s.onChan n (fun c => { c with bufs := c.bufs ++ [⟨q.sq, cidOf q, addrOf q, sd q 4, 0⟩] })

/-- Meaning of STREAM_BUFFER (R131). -/
def execStreamBuffer (q : Sqe) (s : State) : Res :=
  .next (hostCmd 0x16 q [(sd q 1 < 16, 1, 0), (sd q 4 ≥ 4096 && sd q 4 % 4096 == 0, 4, 0)] (streamBuffer q) s.start)

/-- The bytes of a stream tile (Table 04-5). -/
def OpenTile.bytes (o : OpenTile) : List Byte :=
  padTo 4096 (le 4 o.seq ++ le 2 o.records.length ++ le 2 o.size ++ le 8 o.first ++ o.records.flatten)

/-- The producer closes the tile it fills (R130). -/
def State.closeFilling (n : Nat) (s : State) : State :=
  match (s.tmf.chan n).filling with
  | none => s
  | some o =>
    (s.setTile o.idx ⟨.channel n, true, o.bytes, crc32c o.bytes⟩).onChan n
      (fun c => { c with filling := none, closed := c.closed ++ [o.idx] })

/-- A channel may take a tile: below its cap, from its reserve or from the unreserved free tiles (R129, R132). -/
def State.chanMay (s : State) (n : Nat) : Bool :=
  let c := s.tmf.chan n
  c.heldTiles < c.cap && (if c.heldTiles < c.reserve then s.tmf.poolFree > 0 else s.tmf.unreserved > 0)

/-- A fresh tile for a producer; in mode 1, when none may be taken, the oldest undelivered tile is freed and given to it (R132). In mode 1
with no undelivered tile a tile's worth of records is dropped as in mode 0 (DESIGN CHOICE, log entry 17). -/
def State.takeTile (n size now : Nat) (s : State) : State :=
  let fill (i : Nat) (c : Chan) : Chan := { c with filling := some ⟨i, c.seq, now, size, []⟩, seq := (c.seq + 1) % 2 ^ 32 }
  if s.chanMay n then
    match s.alloc (.channel n) with
    | (s1, none) => s1
    | (s1, some i) => s1.onChan n (fill i)
  else
    let c := s.tmf.chan n
    match c.mode, c.closed with
    | 1, i :: rest =>
      ((s.onTmf (fun t => let t1 := t.freeTile i
          { t1 with tiles := t1.tiles ++ [(i, ⟨.channel n, false, zeros 4096, 0⟩)] })).onChan n
        (fun c => { c with closed := rest, drop := min (c.drop + 1) 0xFFFF })).onChan n (fill i)
    | _, _ => s.onChan n (fun c => { c with
        seq := (c.seq + 1) % 2 ^ 32, drop := min (c.drop + 1) 0xFFFF, spill := (4096 - 16) / max 1 size })

/-- A producer's record enters its channel, or is discarded with its tile's worth (R130, R132). A record of another size than those of
the tile closes it (DESIGN CHOICE, log entry 17). -/
def State.streamRecord (n : Nat) (r : List Byte) (s : State) : State :=
  let size := r.length
  if !(s.tmf.chan n).isOpen then s
  else
    let fits := match (s.tmf.chan n).filling with
      | none => true
      | some o => o.size = size && 16 + (o.records.length + 1) * size ≤ 4096
    let s := if fits then s else s.closeFilling n
    let s := if (s.tmf.chan n).filling.isNone && (s.tmf.chan n).spill = 0 then s.takeTile n size s.sTime else s
    s.onChan n (fun c => match c.filling with
      | some o => { c with filling := some { o with records := o.records ++ [r] } }
      | none => { c with spill := c.spill - 1 })

/-- A posted buffer of a channel completes. -/
def State.endBuf (n status : Nat) (s : State) : State :=
  match (s.tmf.chan n).bufs with
  | [] => s
  | b :: rest => (s.onChan n (fun c => { c with bufs := rest })).complete .pf0 b.sq b.cid status b.written

/-- The oldest closed tile goes into the oldest posted buffer and is freed; one that fails its check is retired and ends
the buffer (R112, R131). A buffer that is full completes with `full`. -/
def State.deliver (n : Nat) (ok : Bool) (full : Nat) (s : State) : State :=
  match (s.tmf.chan n).closed, (s.tmf.chan n).bufs with
  | i :: tiles, b :: bufs =>
    if ok then
      let bytes := match look i s.tmf.tiles with | none => [] | some x => x.bytes
      let s1 := (s.dma .pf0 (b.addr + 4096 * b.written) bytes).onTmf (Tmf.freeTile i)
      let s2 := s1.onChan n (fun c => { c with closed := tiles, bufs := { b with written := b.written + 1 } :: bufs })
      if 4096 * (b.written + 1) ≥ b.len then s2.endBuf n full else s2
    else
      ((s.onChan n (fun c => { c with closed := tiles })).endBuf n stTILE_CHECK).retire consHqe i n false
  | _, _ => s

/-- Meaning of STREAM_TILE_DELIVERY (R131). -/
def execStreamTileDelivery (ch : Nat) (ok : Bool) (s : State) : Res := .next (s.start.deliver ch ok stDONE)

/-- The flush time of a stream tile has passed since its first record (R130). -/
def streamTileFlush (n : Nat) (s : State) : State := if (s.tmf.chan n).flush = 0 then s else s.closeFilling n

/-- Meaning of STREAM_TILE_FLUSH (R130). -/
def execStreamTileFlush (ch : Nat) (s : State) : Res := .next (streamTileFlush ch s.start)

/-- The flush time of a stream buffer has passed with at least one tile written (R131). -/
def streamBufferFlush (n : Nat) (s : State) : State :=
  match (s.tmf.chan n).bufs with
  | [] => s
  | b :: _ => if (s.tmf.chan n).flush ≠ 0 ∧ b.written > 0 then s.endBuf n stDONE else s

/-- Meaning of STREAM_BUFFER_FLUSH (R131). -/
def execStreamBufferFlush (ch : Nat) (s : State) : Res := .next (streamBufferFlush ch s.start)

/-- Deliveries while tiles and buffers last, at most `k` (R133). -/
def State.deliverAll (n : Nat) (bad : List Nat) : (k : Nat) → State → State
  | 0, s => s
  | k + 1, s => match (s.tmf.chan n).closed with
    | [] => s
    | i :: _ => (s.deliver n (!bad.contains i) stDONE_NOTE).deliverAll n bad k

/-- Every posted buffer of a channel completes with a status, at most `k` of them. -/
def State.endBufs (n status : Nat) : (k : Nat) → State → State
  | 0, s => s
  | k + 1, s => (s.endBuf n status).endBufs n status k

/-- Every capture route into a channel ends (R133, R194). -/
def State.endCaptures (chan : Nat) (s : State) : State :=
  s.onKce (fun x => { x with groups := x.groups.map (fun k =>
    if (match k.capture with | none => false | some c => c.chan == chan) then { k with capture := none } else k) })

/-- A channel's tiles freed and the channel closed; its reserve returns to the pool and its capture routes end. -/
def State.shutChan (n : Nat) (s : State) : State :=
  let c := s.tmf.chan n
  let gone := c.closed ++ (match c.filling with | none => [] | some o => [o.idx])
  ((s.onTmf (fun t => gone.foldl (fun t i => t.freeTile i) t)).onChan n (fun _ => Chan.reset)).endCaptures n

/-- STREAM_CLOSE (R133): the partly filled tile is delivered behind the undelivered ones while buffers are posted, the
rest is freed, every buffer completes with DONE_NOTE, and the command last. -/
def streamClose (q : Sqe) (bad : List Nat) (s : State) : State :=
  let n := sd q 1
  if !(s.tmf.chan n).isOpen then s.done q stBAD_STATE 0
  else
    let s1 := s.closeFilling n
    let s2 := s1.deliverAll n bad (s1.tmf.chan n).closed.length
    let k := (s2.tmf.chan n).closed.length
    let s3 := s2.endBufs n stDONE_NOTE (s2.tmf.chan n).bufs.length
    (s3.shutChan n).done q stDONE k

/-- Meaning of STREAM_CLOSE (R133). -/
def execStreamClose (q : Sqe) (bad : List Nat) (s : State) : Res :=
  .next (hostCmd 0x17 q [(sd q 1 < 16, 1, 0)] (streamClose q bad) s.start)

/-! ### PERST# and disable (R135) -/

/-- Every host tile is freed and every stream channel closed; the commands that posted its buffers (0x16) end without a
completion (R100, R135). -/
def State.endHostTiles (s : State) : State :=
  let hosts := (s.tmf.tiles.filter (fun x => x.2.owner = .host)).map Prod.fst
  let s1 := s.onTmf (fun t => hosts.foldl (fun t i => t.freeTile i) t)
  let s2 := s1.onHqe (fun h => { h with fwd := h.fwd.filter (fun f => !(f.fn = .pf0 && f.op == 0x16)) })
  (List.range 16).foldl (fun s n => s.shutChan n) s2

/-- The write of 0 to HQE_CTRL.enable (R100, R135, R514). -/
def hqeDisable (fn : Fn) (s : State) : State :=
  if !s.hiUp then s
  else match fn with
    | .pf0 => (s.endRings .pf0).endHostTiles
    | .pf1 => s.endRings .pf1

/-- Meaning of HQE_DISABLE (R100). -/
def execHqeDisable (fn : Fn) (s : State) : Res := .next (hqeDisable fn s.start)

end Sys2Proof.Machine
end

