-- ==== Sys2Proof/Machine/Spa.lean ====
section
/-! DEFINITION. The site power allocator: epochs, the setpoint gate, sessions, ledger commands and the session crossing
(R138 to R170). -/

namespace Sys2Proof.Machine

open Sys2Proof

/-! ### The session crossing (R164, R165) -/

/-- A message is held from its due time while the Saggar link is down. A 257th held message makes SPA discard all it holds and
owe a RESYNC with cause 1 instead (R165), for every port session that a plan has opened. A further discard while that RESYNC is owed
restarts its hold time (DESIGN CHOICE, log entry 18). -/
def State.holdCross (m : CrossMsg) (due : Nat) (s : State) : State :=
    let owed := s.spa.outbox.any (fun h => h.msg = .resync 1)
    if s.spa.outbox.length < 256 + b2n owed then s.onSpa (fun p => { p with outbox := p.outbox ++ [⟨m, due⟩] })
    else s.onSpa (fun p => { p with
      outbox := [⟨.resync 1, due⟩]
      sess := p.sess.map (fun x => match look x.1 p.ledger with
        | some (.session _ false _ _ _ _ _ _ _ _) => (x.1, { x.2 with lost := x.2.lost || x.2.opened })
        | _ => x) })

/-- A session-crossing message falls due: sent at once, or held while the Saggar link is down (R165). -/
def State.sendCross (m : CrossMsg) (s : State) : State :=
  if s.lnk.up then s.onLnk (fun l => { l with toSg := l.toSg ++ [(m, 0, s.sup.uptime)] }) else s.holdCross m s.sup.uptime

/-- The token a message relays, by its node (R365). -/
def CrossMsg.tokenNode : CrossMsg → Option Nat
  | .token a _ => some a
  | _ => none

/-- The link has gone down: what SPA had sent and the Saggar had not received is held again, from when it first fell due (R42,
R165). -/
def State.unsent (s : State) : State :=
  (s.lnk.toSg.filter (fun m => m.1.tokenNode.isNone)).foldl (fun s m => s.holdCross m.1 m.2.2)
    (s.onLnk (fun l => { l with toSg := l.toSg.filter (fun m => m.1.tokenNode.isSome) }))

/-- On recovery of the link SPA's held messages leave in their order, with their hold times in ms (R42, R165). -/
def State.flushOutbox (s : State) : State :=
  let now := s.sup.uptime
  (s.onLnk (fun l => { l with
    toSg := l.toSg ++ s.spa.outbox.map (fun h => (h.msg, min ((now - h.due) / 1000) 4294967295, h.due)) })).onSpa
    (fun p => { p with outbox := [] })

/-! ### Sessions (R161 to R163) -/

/-- A session's runtime part changed. -/
def State.onSess (i : Nat) (f : Sess → Sess) (s : State) : State :=
  s.onSpa (fun p => { p with sess := p.sess.map (fun x => if x.1 = i then (i, f x.2) else x) })

/-- The ledger index of the session on a port or string. -/
def sessionOn (l : List (Nat × Entry)) (isString : Bool) (obj : Nat) : Option Nat :=
  (l.find? (fun p => match p.2 with
    | .session _ st _ o _ _ _ _ _ _ => st == isString && o == obj
    | _ => false)).map Prod.fst

/-- The ledger index of a session number. -/
def sessionNo (l : List (Nat × Entry)) (n : Nat) : Option Nat :=
  (l.find? (fun p => match p.2 with
    | .session _ _ _ _ _ _ _ _ m _ => m == n
    | _ => false)).map Prod.fst

/-- The number of a session entry. -/
def Entry.number : Entry → Nat
  | .session _ _ _ _ _ _ _ _ n _ => n
  | _ => 0

/-- True for a port session's entry. -/
def Entry.isPortSession : Entry → Bool
  | .session _ false _ _ _ _ _ _ _ _ => true
  | _ => false

/-- A stop from VPC: the port is no longer ready for a session (R163). -/
def State.portStop (p : Nat) (s : State) : State :=
  match sessionOn s.spa.ledger false p with
  | none => s
  | some i => s.onSess i (fun x => if x.st = .stopping then x else { x with st := .stopped })

/-- A CREDIT message reaches SPA (R162, R165). -/
def creditTo (n st : Nat) (s : State) : State :=
  match sessionNo s.spa.ledger n with
  | none => s
  | some i => s.onSess i (fun x =>
      if st = 2 then
        { x with credit := .exhausted, st := if x.st = .active ∨ x.st = .waitCredit then .withdrawn else x.st }
      else
        let c : Credit := if st = 1 then .low else .ok
        match x.st with
        | .waitCredit => { x with credit := c, st := .active }
        | .withdrawn => { x with credit := c, st := .active, gPrev := 0 }
        | _ => { x with credit := c })

/-- The session and credit state of a CREDIT message. -/
def CrossMsg.creditOf : CrossMsg → Option (Nat × Nat)
  | .credit n st => some (n, st)
  | _ => none

/-- The oldest CREDIT message that has arrived is taken. -/
def creditMessage (s : State) : State :=
  match takeFirst (fun m : CrossMsg × Nat => m.1.creditOf.isSome) s.lnk.inSt with
  | some ((.credit n st, _), rest) => creditTo n st (s.onLnk (fun l => { l with inSt := rest }))
  | _ => s

/-- Meaning of CREDIT_MESSAGE (R162). -/
def execCreditMessage (s : State) : Res := .next (creditMessage s.start)

/-! ### The epoch boundary (R145 to R149, Table 04-2) -/

/-- The plan mode of a device state (R52, R168, R169): SERVICE plans in full, BISQUE by fixed tiers; a ledger that cannot
be read and the admission epoch give ZERO. -/
def planMode (s : State) : Nat × Nat :=
  match s.sup.st with
  | .service => if s.spa.admission then (0, 3) else if !s.spa.ledgerFaults.isEmpty then (0, 2) else (2, 0)
  | .bisque => if !s.spa.ledgerFaults.isEmpty then (0, 2) else (1, 0)
  | _ => (0, 1)

/-- Port sessions whose OPEN is held. -/
def heldOpens (l : List HeldMsg) : List Nat :=
  l.filterMap (fun h => match h.msg with | .open n _ _ => some n | _ => none)

/-- The ledger in effect: the changes whose completions have been posted (R24). -/
def State.ledgerNow (s : State) : List (Nat × Entry) :=
  s.spa.unposted.foldr (fun x l => putEntry x.idx x.old l) s.spa.ledger

/-- The snapshot of a boundary (R21, R24, R149). -/
def takeSnap (s : State) : Snap :=
  let m := planMode s
  { epoch := s.spa.epoch, time := s.sTime, mode := m.1, zero := m.2, inp := s.spa.inp, ledger := s.ledgerNow
    sess := s.spa.sess, linkUp := s.lnk.up, heldOpen := heldOpens s.spa.outbox }

/-- A ledger tile has no good copy left: those in service are retired, and SPA plans nothing until it is written again (R128). -/
def State.ledgerLost (t : Nat) (s : State) : State :=
  (([t, 0x20 + t].filter s.tmf.usable).foldl (fun s i => s.retire consSpa i noSource false) s).onSpa
    (fun p => { p with ledgerFaults := if p.ledgerFaults.contains t then p.ledgerFaults else p.ledgerFaults ++ [t] })

/-- One ledger tile verified at the boundary: copy A, then copy B; a copy out of service or being restored is not used (R125, R127,
R128). `bad` lists the indices that fail now. -/
def verifyLedger (bad : List Nat) (t : Nat) (s : State) : State :=
  if s.tmf.usable t && !bad.contains t then s
  else if !s.tmf.usable (0x20 + t) || bad.contains (0x20 + t) then s.ledgerLost t
  else if s.tmf.usable t then (s.retireCopy consSpa t noSource).onSpa (fun p => { p with fallbacks := p.fallbacks + 1 })
  else s

/-- The OPEN of each port session that first enters a plan (Table 05-9); a discard at that moment takes it too (R165). -/
def sendOpens (s : State) : State :=
  s.ledgerNow.foldl (fun s p => match p.2, look p.1 s.spa.sess with
    | .session pre false _ obj _ _ _ _ n _, some x =>
      if x.opened || x.lost then s else (s.onSess p.1 (fun x => { x with opened := true })).sendCross (.open n obj pre)
    | _, _ => s) s

/-- The boundary's work in SPA: the epoch number, the RESYNC after a main-die reset, the ledger tiles in use, the OPENs,
and the snapshot (R145, R53, R124, R164). -/
def spaBoundary (bad : List Nat) (s : State) : State :=
  let s := s.onSpa (fun p => { p with
    epoch := if p.started then p.epoch + 1 else 0, started := true, fallbacks := 0, window := false, ready := none })
  let s := if s.spa.resyncDue then (s.sendCross (.resync 0)).onSpa (fun p => { p with resyncDue := false }) else s
  let plans := s.sup.st = .service || s.sup.st = .bisque
  let rot := s.spa.epoch % 32
  let tiles := if plans then s.spa.changed.filter (fun t => t ≠ rot) ++ [rot] else []
  let s := tiles.foldl (fun s t => verifyLedger bad t s) s
  let s := s.onSpa (fun p => { p with changed := [] })
  let s := if plans && !s.spa.admission then sendOpens s else s
  let x := takeSnap s
  s.onSpa (fun p => { p with
    snap := some x, snapLedger := x.ledger })

/-- The re-plan finishes (R146): the plan of the snapshot stands ready for the gate. -/
def replanComplete (s : State) : State :=
  match s.spa.snap with
  | none => s
  | some x =>
    let p := planOf x s.conf (Config.freeNat s.free % 256)
    (if x.zero = 2 then s.took else s).onSpa (fun y => { y with ready := some p })

/-- Meaning of REPLAN_COMPLETE (R146). -/
def execReplanComplete (s : State) : Res := .next (replanComplete s.start)

/-! ### Ledger commands (R144, R148, R166) -/

/-- A ledger tile is written: it counts as changed and no longer as FREE, and a pair being restored is restored first (R125, R136). -/
def State.writeTile (t : Nat) (s : State) : State :=
  (s.onTmf (Tmf.settle t (0x20 + t))).onSpa (fun p => { p with
    changed := if p.changed.contains t then p.changed else p.changed ++ [t], unwritten := p.unwritten.filter (fun x => x ≠ t) })

/-- An entry written, its tile pair rewritten (R148). -/
def State.writeEntry (i : Nat) (e : Entry) (s : State) : State :=
  (s.writeTile (i / 128)).onSpa (fun p => { p with ledger := putEntry i e p.ledger })

/-- A ledger command completes with DONE: until its completion is posted, planning goes on with the entries it replaced (R24). -/
def State.ledgerDone (q : Sqe) (result : Nat) (old : List (Nat × Entry)) (s : State) : State :=
  let t := s.done q stDONE result
  let left := (t.hqe.ready.filter (fun c => c.fn = .pf0 && c.sq == q.sq && c.cid == cidOf q)).length
  if t.hqe.ready.length = s.hqe.ready.length then t else t.onSpa (fun p => { p with unposted := p.unposted ++ old.map (fun x => ⟨q.sq, cidOf q, left, x.1, x.2⟩) })

/-- The parameter checks of SESSION_START and SESSION_MODIFY (Table 05-4, R166). -/
def sessionParams (q : Sqe) (objMax : Nat) : List (Bool × Nat × Nat) :=
  let d6 := sd q 6
  [(sd q 1 < objMax, 1, 0), (!(bit d6 4 && bit d6 3), 6, 4), (bits d6 7 5 == 0, 6, 5), (1 ≤ bits d6 15 8, 6, 8),
   (bits d6 31 16 == 0, 6, 16), (sd q 7 ≤ sd q 8, 7, 0), (1 ≤ sd q 8 && sd q 8 ≤ 480000, 8, 0),
   (max 1 (sd q 7) ≤ sd q 9 && sd q 9 ≤ 480000, 9, 0)]

/-- A new session's runtime part (R162). -/
def newSess (prepaid : Bool) : Sess :=
  ⟨if prepaid then .waitCredit else .active, 0, if prepaid then .unknown else .ok, false, false, false, []⟩

/-- SESSION_START in the write window. -/
def sessionStart (q : Sqe) (s : State) : State :=
  let d6 := sd q 6
  let str := bit d6 3
  let obj := sd q 1
  let exists_ := if str then (s.conf.str obj).enable else (s.conf.port obj).enable
  if !exists_ then s.done q stBAD_OBJECT 0
  else if (sessionOn s.spa.ledger str obj).isSome then s.done q stBAD_STATE 0
  else match lowestFree s.spa.ledger 4096 0 with
    | none => s.done q stBAD_STATE 0
    | some i =>
      let n := (s.sup.sessionCtr + 1) % 2 ^ 32
      let s1 := s.onSup (fun p => { p with sessionCtr := n })
      let s2 := s1.writeEntry i (.session (bit d6 4) str (bits d6 2 0) obj (bits d6 15 8) (sd q 7) (sd q 8) (sd q 9) n (sd q 10))
      (s2.onSpa (fun p => { p with sess := putSorted i (newSess (bit d6 4)) p.sess })).ledgerDone q i [(i, .free)]

/-- SESSION_STOP in the write window: the session stands STOPPING until its gate (R163). -/
def sessionStop (q : Sqe) (s : State) : State :=
  let i := sd q 1
  match look i s.spa.sess with
  | none => s.done q stBAD_OBJECT 0
  | some _ => s.onSess i (fun x => { x with st := .stopping, stops := x.stops ++ [(q.sq, cidOf q)] })

/-- SESSION_MODIFY in the write window. -/
def sessionModify (q : Sqe) (s : State) : State :=
  let i := sd q 1
  let d6 := sd q 6
  match entryAt s.spa.ledger i with
  | .session pre str _ obj _ _ _ _ n tag =>
    if bit d6 3 != str then s.done q stBAD_PARAM (badField 6 3)
    else if bit d6 4 != pre then s.done q stBAD_PARAM (badField 6 4)
    else if (look i s.spa.sess).any (fun x => x.st = .stopping) then s.done q stBAD_STATE 0
    else (s.writeEntry i (.session pre str (bits d6 2 0) obj (bits d6 15 8) (sd q 7) (sd q 8) (sd q 9) n tag)).ledgerDone q 0
      [(i, entryAt s.spa.ledger i)]
  | _ => s.done q stBAD_OBJECT 0

/-- The enabled CONSTRAINT entries of a ledger. -/
def enabledCons (l : List (Nat × Entry)) : Nat := countE l (fun e => match e with | .cons en _ _ _ _ => en | _ => false)

/-- A LEDGER_WRITE's entries applied in order to the ledger; the index of the first offending entry otherwise. Where the ledger they
make holds more than 64 enabled CONSTRAINT entries, `most` is 64 and the first entry that takes it above 64 offends (R141). -/
def applyWrite (c : Cfg) (b : List Byte) (first most : Nat) : (n k : Nat) → List (Nat × Entry) → List (Nat × Entry) ⊕ Nat
  | 0, _, l => .inl l
  | n + 1, k, l =>
    let i := first + k
    match decodeEntry ((b.drop (32 * k)).take 32) with
    | none => .inr i
    | some e =>
      let l' := putEntry i e l
      if mayChange (entryAt l i) e && entryFields e && portLimits e && consMembers c e && enabledCons l' ≤ most && edgeEnds l' e then
        applyWrite c b first most n (k + 1) l'
      else .inr i

/-- A LEDGER_WRITE's outcome: the ledger that results has at most 64 enabled CONSTRAINT entries, whatever it had on the way (R141). -/
def writeResult (c : Cfg) (b : List Byte) (first n : Nat) (l : List (Nat × Entry)) : List (Nat × Entry) ⊕ Nat :=
  match applyWrite c b first 4096 n 0 l with
  | .inr i => .inr i
  | .inl l' => if enabledCons l' ≤ 64 then .inl l' else applyWrite c b first 64 n 0 l

/-- LEDGER_WRITE in the write window (R144, R148); it rewrites both copies of its tile, which ends an unreadable tile's fault and
any restoration under way (R123, R128). -/
def ledgerWrite (q : Sqe) (h : HostRead) (s : State) : State :=
  match s.bufferOf q h with
  | .error => s.done q stDMA_ERROR 0
  | .data b =>
    let t := sd q 1 / 128
    match writeResult s.conf (padTo (sd q 4) b) (sd q 1) (sd q 4 / 32) s.spa.ledger with
    | .inr i => s.done q stBAD_PARAM (badContent + i * 2 ^ 16)
    | .inl l =>
      ((s.writeTile t).onSpa (fun p => { p with
        ledger := l
        ledgerFaults := p.ledgerFaults.filter (fun x => x ≠ t) })).ledgerDone q 0
        ((List.range (sd q 4 / 32)).map (fun k => (sd q 1 + k, entryAt s.spa.ledger (sd q 1 + k))))

/-- A ledger command's work once the window is open. -/
def runLedger (q : Sqe) (h : HostRead) (s : State) : State :=
  let s := { s with cur := some (q.fn, q.sq, cidOf q) }
  match opOf q with
  | 0x40 => sessionStart q s
  | 0x41 => sessionStop q s
  | 0x42 => sessionModify q s
  | 0x43 => ledgerWrite q h s
  | _ => s

/-- The ledger tile a command writes. -/
def tileWritten (q : Sqe) (s : State) : Nat :=
  if opOf q = 0x40 then ((lowestFree s.spa.ledger 4096 0).getD 0) / 128 else sd q 1 / 128

/-- A ledger command can run now: the write window is open, and the pair it writes is not being restored (R125, R148). -/
def mayWrite (q : Sqe) (s : State) : Bool :=
  s.spa.window && !s.tmf.restoring.contains (tileWritten q s) && !s.tmf.restoring.contains (0x20 + tileWritten q s)

/-- A ledger command runs in the write window, or waits, behind those that wait already (R148). -/
def inWindow (q : Sqe) (h : HostRead) (s : State) : State :=
  if mayWrite q s && s.spa.waiting.isEmpty then runLedger q h s
  else s.onSpa (fun p => { p with waiting := p.waiting ++ [(q, h)] })

/-- The ledger commands that wait run in their order, as far as they may: at most `n` of them. -/
def runWaiting : (n : Nat) → State → State
  | 0, s => s
  | n + 1, s => match s.spa.waiting with
    | [] => s
    | (q, h) :: rest =>
      if mayWrite q s then runWaiting n (runLedger q h (s.onSpa (fun p => { p with waiting := rest }))) else s

/-- A pair is restored, if it waited for that. -/
def Tmf.restored (i : Nat) (t : Tmf) : Tmf := if t.restoring.contains i then t.restorePair i else t

/-- The TMF finishes copying the good copy of a pair into the retired index: its check word equals the other's, and the pair is
restored; ledger commands that waited for it run (R125). -/
def pairRestore (i : Nat) (s : State) : State :=
  let s1 := s.onTmf (Tmf.restored i)
  runWaiting s1.spa.waiting.length s1

/-- Meaning of PAIR_RESTORE (R125). -/
def execPairRestore (idx : Nat) (s : State) : Res := .next (pairRestore idx s.start)

/-- Meaning of SESSION_START (R144). -/
def execSessionStart (q : Sqe) (s : State) : Res :=
  .next (hostCmd 0x40 q (sessionParams q (if bit (sd q 6) 3 then 32 else 16)) (inWindow q (.data [])) s.start)

/-- Meaning of SESSION_STOP (R163). -/
def execSessionStop (q : Sqe) (s : State) : Res :=
  .next (hostCmd 0x41 q [(sd q 1 < 4096, 1, 0)] (inWindow q (.data [])) s.start)

/-- Meaning of SESSION_MODIFY (R166). -/
def execSessionModify (q : Sqe) (s : State) : Res :=
  .next (hostCmd 0x42 q (sessionParams q 4096) (inWindow q (.data [])) s.start)

/-- Meaning of LEDGER_WRITE (R144). -/
def execLedgerWrite (q : Sqe) (h : HostRead) (s : State) : Res :=
  let n := sd q 4 / 32
  .next (hostCmd 0x43 q
    [(sd q 1 < 4096 && sd q 1 % 128 + n ≤ 128, 1, 0), (sd q 4 % 32 == 0 && 1 ≤ n && n ≤ 128, 4, 0)] (inWindow q h) s.start)

/-- Meaning of LEDGER_READ (R166): the entries as the latest re-plan read them. -/
def execLedgerRead (q : Sqe) (s : State) : Res :=
  let n := sd q 4 / 32
  .next (hostCmd 0x44 q
    [(sd q 1 < 4096 && sd q 1 + n ≤ 4096, 1, 0), (sd q 4 % 32 == 0 && 1 ≤ n && n ≤ 4096, 4, 0)]
    (fun s => s.replyDone q (ledgerBytes s.spa.snapLedger (sd q 1) n) 0) s.start)

/-- The 16 bytes of a session record of a plan; an unused one (Table 05-11). -/
def planSessBytes (p : Option PlanSess) : List Byte :=
  match p with
  | none => [0xFF, 0xFF] ++ zeros 14
  | some x => le 2 x.idx ++ le 1 x.st.code ++ le 1 x.reason ++ le 4 x.grant ++ le 4 x.bound ++ le 4 x.number

/-- The 1,584 bytes of a plan record (Table 05-11). -/
def planBytes (p : Plan) : List Byte :=
  le 8 p.epoch ++ le 8 p.time ++ le 4 p.grid ++ le 4 p.ports ++ le 4 p.charge ++ le 4 p.discharge ++
    le 4 (p.ports + p.charge - p.discharge) ++ le 1 p.mode ++ zeros 11 ++
    (List.range 64).flatMap (fun g => let r := p.refs.getD g (0, 0); leS 4 r.1 ++ le 4 r.2) ++
    (List.range 48).flatMap (fun i => planSessBytes p.sess[i]?) ++
    (List.range 32).flatMap (fun j => let d := p.strings.getD j (0, 0); le 4 d.1 ++ le 4 d.2)

/-- Meaning of PLAN_READ (R167). -/
def execPlanRead (q : Sqe) (s : State) : Res :=
  .next (hostCmd 0x45 q [(1584 ≤ sd q 4, 4, 0)] (fun s => s.replyDone q (planBytes s.spa.plan) 1584) s.start)

/-- A string's rest set or ended; the next boundary's snapshot carries it (R21, R166). -/
def State.setRest (j : Nat) (on : Bool) (s : State) : State :=
  s.onSpa (fun p => { p with inp := { p.inp with resting := p.inp.resting.set j on } })

/-- REST_REQUEST: the string rests from the next gate, for the stated time (R166). -/
def restRequest (q : Sqe) (s : State) : State :=
  let j := sd q 1
  let m := bits (sd q 6) 15 0
  if !(s.conf.str j).enable then s.done q stBAD_OBJECT 0
  else ((s.setRest j (m != 0)).onSpa (fun p => { p with rests := p.rests.set j (m, none) })).done q stDONE 0

/-- Meaning of REST_REQUEST (R166). -/
def execRestRequest (q : Sqe) (s : State) : Res :=
  let m := bits (sd q 6) 15 0
  .next (hostCmd 0x46 q [(sd q 1 < 32, 1, 0), (m == 0 || (30 ≤ m && m ≤ 1440), 6, 0)] (restRequest q) s.start)

/-- The time of a requested rest has run out. -/
def restExpiry (j : Nat) (s : State) : State :=
  match s.spa.rests.getD j (0, none) with
  | (_, some t) => if t ≤ s.sup.uptime then (s.setRest j false).onSpa (fun p => { p with rests := p.rests.set j (0, none) }) else s
  | _ => s

/-- Meaning of REST_EXPIRY (R166). -/
def execRestExpiry (string : Nat) (s : State) : Res := .next (restExpiry string s.start)

/-- The gate of a plan begins the rests it was made with (R166). -/
def State.beginRests (s : State) : State :=
  match s.spa.snap with
  | none => s
  | some x => s.onSpa (fun p => { p with rests := p.rests.mapIdx (fun j r =>
      if r.2.isNone && x.inp.resting.getD j false then (r.1, some (s.sup.uptime + r.1 * 60000000)) else r) })

/-! ### The setpoint gate (R12, R147, R148, R159 to R163) -/

/-- New references and limits reach the Kiln's gate bank 0.080 µs after the gate; the bank before them serves samples already begun
(R25, Table 01-3). -/
def State.setRefs (r : List (Int × Nat)) (s : State) : State :=
  s.onKce (fun k => { k with gateAt := 1000 * s.sup.uptime + 80, groups := (List.range k.groups.length).map (fun g =>
    let x := k.groups.getD g KGroup.reset
    let v := r.getD g (0, 0)
    { x with oldRef := x.bankRef, oldLim := x.bankLim, bankRef := v.1, bankLim := v.2 }) })

/-- One session of a plan at its gate: its grant becomes the previous grant; a stopped one's CLOSE is sent once, and a
STOPPING one is freed and its SESSION_STOPs complete (R163, R164). -/
def gateSession (x : PlanSess) (s : State) : State :=
  match look x.idx s.spa.sess with
  | none => s
  | some y =>
    let e := entryAt s.spa.ledger x.idx
    let s := s.onSess x.idx (fun y => { y with gPrev := x.grant })
    if x.st = .stopping || x.st = .stopped then
      let s := if e.isPortSession && !y.closed then
          (s.sendCross (.close x.number (if x.st = .stopping then 1 else 2))).onSess x.idx (fun y => { y with closed := true })
        else s
      if x.st = .stopping then
        let s := (s.writeEntry x.idx .free).onSpa (fun p => { p with sess := del x.idx p.sess })
        y.stops.foldl (fun s c => s.complete .pf0 c.1 c.2 stDONE 0) s
      else s
    else s

/-- Copy B of the rotation pair is verified in the write window, before any ledger write (R124, R125). -/
def verifyRotation (bad : List Nat) (s : State) : State :=
  let b := 0x20 + s.spa.epoch % 32
  let plans := s.sup.st = .service || s.sup.st = .bisque
  if plans && s.tmf.usable b && bad.contains b then
    if s.tmf.usable (s.spa.epoch % 32) then s.retireCopy consSpa b noSource else s.ledgerLost (s.spa.epoch % 32)
  else s

/-- The write window opens: the waiting commands run (R148). -/
def openWindow (s : State) : State :=
  let s := s.onSpa (fun p => { p with window := true, shown := (p.epoch, p.ledgerFaults.head?) })
  runWaiting s.spa.waiting.length s

/-- The gate of an epoch whose plan is complete. -/
def gatePlan (p : Plan) (s : State) : State :=
  let s := (s.setRefs p.refs).beginRests
  let s := s.onSpa (fun y => { y with plan := p, lateRun := 0, snap := none, ready := none })
  p.sess.foldl (fun s x => gateSession x s) s

/-- The gate of an epoch whose plan is late: the previous references stand, or 0 after a second late plan (R147). -/
def gateLate (s : State) : State :=
  let s := s.faultRec 4 0x0201 (s.spa.epoch % 2 ^ 32) s.spa.fallbacks 0
  let refs := s.kce.groups.map (fun x => (if s.spa.lateRun ≥ 1 then 0 else x.bankRef, x.bankLim))
  (s.setRefs refs).onSpa (fun y => { y with lateRun := y.lateRun + 1, snap := none, ready := none })

/-- The setpoint gate, 250 µs after the boundary (R12). The write window opens with it: copy B of the rotation pair is verified first
(R124). -/
def setpointGate (bad : List Nat) (s : State) : State :=
  match s.spa.snap, s.spa.ready with
  | none, _ => s
  | some _, some p => openWindow (gatePlan p (verifyRotation bad s))
  | some _, none => openWindow (gateLate (verifyRotation bad s))

/-- Meaning of SETPOINT_GATE (R12). -/
def execSetpointGate (bad : List Nat) (s : State) : Res := .next (setpointGate bad s.start)

/-- Meaning of WRITE_WINDOW_CLOSE (R148). -/
def execWriteWindowClose (s : State) : Res := .next (s.start.onSpa (fun p => { p with window := false }))

end Sys2Proof.Machine
end

