-- ==== Sys2Proof/Machine/SgOps.lean ====
section
/-! DEFINITION. What SGM, BTE and MSS share: L-time, registers and rolls (R319, R348), channel and port faults (R316, R317),
events held for PF1 (R344), the parameter change log (R382), the signature trailer (R377), signed commands (R376) and the
frame of a tunnelled command (R77). -/

namespace Sys2Proof.Machine

open Sys2Proof

/-! ### One part changed -/

/-- SGM changed. -/
def State.onSgm (f : Sgm → Sgm) (s : State) : State := { s with sgm := f s.sgm }

/-- BTE changed. -/
def State.onBte (f : Bte → Bte) (s : State) : State := { s with bte := f s.bte }

/-- MSS changed. -/
def State.onMss (f : Mss → Mss) (s : State) : State := { s with mss := f s.mss }

/-! ### L-time -/

/-- L-time as a TS64: all ones while the clock is not valid (R358). -/
def Bte.lTime (b : Bte) : Nat :=
  match b.off with
  | none => timeUnknown
  | some o => ((b.up : Int) + o).toNat

/-- The Saggar runs: on its supply or on the cell. -/
def Sgm.runs (g : Sgm) : Bool := g.mode = .settling || g.mode = .normal || g.mode = .battery

/-- No sample boundary has passed since Saggar power-on: registers that read values of one show their reset values (R345, R373). -/
def Sgm.unsampled (g : Sgm) : Bool := g.mode = .settling && g.settle == 0 && g.batSince.isNone

/-- BTE and MSS take commands and messages: the Saggar runs, and they do not restart (R381). -/
def State.bteRuns (s : State) : Bool := s.sgm.runs && !s.mss.restarting

/-- The short software identification (R385). -/
def Mss.swShort (m : Mss) : Nat := leVal (padTo 4 m.image.1).reverse

/-! ### Calibration (R315) -/

/-- A channel's gain; 0 marks a channel not fitted. -/
def calGain (cal : List Byte) (c : Nat) : Int := sgn cal (16 * c) 4

/-- A channel's offset. -/
def calOffset (cal : List Byte) (c : Nat) : Int := sgn cal (16 * c + 4) 4

/-- A channel's phase trim. -/
def calPhase (cal : List Byte) (c : Nat) : Int := sgn cal (16 * c + 8) 2

/-- A channel's starting current. -/
def calStart (cal : List Byte) (c : Nat) : Nat := u cal (16 * c + 12) 4

/-- Port `n` is enabled in a calibration set. -/
def calPort (cal : List Byte) (n : Nat) : Bool := bit (u cal 640 2) n

/-- Port `n` is enabled by the Saggar. -/
def Sgm.enabled (g : Sgm) (n : Nat) : Bool := n < 16 && calPort g.cal n

/-- Port `n` is METER_FAULT (R317). -/
def Sgm.portFault (g : Sgm) (n : Nat) : Bool := g.faults.getD n 0 != 0 || g.faults.getD (16 + n) 0 != 0

/-- The AC point is AC_FAULT (R317). -/
def Sgm.acFault (g : Sgm) : Bool := [32, 33, 34, 36, 37, 38].any (fun c => g.faults.getD c 0 != 0)

/-! ### Registers (R319, R325) -/

/-- The modulus of every register. -/
def regMod : Nat := 1000000000000

/-- A register's value from its accumulator in µ-units (R319). -/
def regVal (acc : Nat) : Nat := acc / 100000 % regMod

/-- A register's roll count (R319). -/
def regRoll (acc : Nat) : Nat := acc / 100000 / regMod % 256

/-- The increase of a register between two accumulator readings, as a reader of value and roll computes it (R325). -/
def regIncrease (a b : Nat) : Nat := ((regRoll b + 256 - regRoll a) % 256) * regMod + regVal b - regVal a

/-- A register id names an SGM register (R324). -/
def sgmId (id : Nat) : Bool := id < 0x2C || (0x30 ≤ id && id < 0x40)

/-- The unit code of an SGM register (Table 12-9). -/
def sgmUnit (id : Nat) : Nat :=
  if 0x22 ≤ id ∧ id ≤ 0x25 then 1 else if id = 0x26 ∨ id = 0x27 then 2 else if 0x30 ≤ id then 3 else 0

/-- A 16-byte register entry (Table 12-9). -/
def regEntry (id unit roll flags value : Nat) : List Byte :=
  le 1 id ++ le 1 unit ++ le 1 roll ++ le 1 flags ++ le 8 value ++ zeros 4

/-! ### Events of the Saggar -/

/-- The PF1 path between the dies: both ends of the link are up. -/
def SgLink.path (l : SgLink) : Bool := l.up && l.sgUp

/-- The PF1 tunnel's turn from the Saggar: the path is up, and no session-crossing message is on its way (R43). -/
def SgLink.pf1Turn (l : SgLink) : Bool := l.path && l.toSt.isEmpty

/-- A PF1 event: posted when the PF1 tunnel has its turn; otherwise held in the Saggar, while the path is down (R19, R344) or
session-crossing messages go first (R43). -/
def State.pf1Event (vec sub arg src : Nat) (s : State) : State :=
  if s.lnk.pf1Turn then s.postEvent .pf1 vec sub (arg % 2 ^ 32) src
  else s.onLnk (fun l => { l with heldPf1 := l.heldPf1 ++ [(vec, sub, arg % 2 ^ 32, src)] })

/-- The held events are posted in order once the PF1 tunnel has its turn again (R42, R43). -/
def State.flushPf1 (s : State) : State :=
  if s.lnk.pf1Turn then
    s.lnk.heldPf1.foldl (fun s e => s.postEvent .pf1 e.1 e.2.1 e.2.2.1 e.2.2.2) (s.onLnk (fun l => { l with heldPf1 := [] }))
  else s

/-- An SGM event (Table 12-11). -/
def State.sgmEvent (sub arg src : Nat) (s : State) : State :=
  (s.onSgm (fun g => { g with lastEvent := some (src % 256, sub, arg % 256) })).pf1Event 7 sub arg src

/-- A BTE event (Table 13-10). -/
def State.bteEvent (vec sub arg src : Nat) (s : State) : State :=
  (s.onBte (fun b => { b with lastEvent := some (src % 256, sub, arg % 256) })).pf1Event vec sub arg src

/-- An MSS event (Table 14-10). -/
def State.mssEvent (sub arg : Nat) (s : State) : State :=
  (s.onMss (fun m => { m with lastEvent := some (0, sub, arg % 256) })).pf1Event 4 sub arg noSource

/-! ### The parameter change log (R382) -/

/-- A log entry (Table 14-6): into the protected area, which keeps 1,024 entries, or into the circular area of 8,192. -/
def State.log (kind source : Nat) (data : List Byte) (counter : Nat) (done : Bool) (s : State) : State :=
  let m := s.mss
  let seq := (m.logSeq + 1) % 2 ^ 32
  let bytes := le 4 seq ++ le 2 kind ++ le 1 (b2n s.bte.off.isNone + 2 * b2n done) ++ le 1 source ++ le 8 s.bte.lTime ++
    le 4 m.sealCount ++ le 4 m.swShort ++ padTo 32 data ++ le 4 counter ++ zeros 4
  if kind < 0x10 then
    let prot := if m.prot.length < 1024 then m.prot ++ [(seq, bytes)] else m.prot
    let s1 := s.onMss (fun m => { m with logSeq := seq, prot := prot })
    if prot.length = 924 ∧ m.prot.length = 923 then s1.mssEvent 0x07 100 else s1
  else
    s.onMss (fun m => { m with logSeq := seq, ring := (m.ring ++ [(seq, bytes)]).drop (m.ring.length + 1 - 8192) })

/-- A cover opening outside a procedure (R379): the counter and its log entry first, and tamper. -/
def State.coverOutside (s : State) : State :=
  let n := s.mss.sealCount + 1
  ((s.onMss (fun m => { m with sealCount := n, tamper := true, openedOut := true })).log 0x09 3 (le 4 n ++ le 4 0) 0 false).mssEvent
    0x02 (2 ^ 31 + n % 2 ^ 31)

/-! ### Signatures (R376, R377) -/

/-- The first 64 bytes of a trailer (Table 14-2). -/
def trailerHead (kind seq nonce : Nat) (s : State) : List Byte :=
  let m := s.mss
  le 8 m.serial.toNat ++ le 8 s.bte.lTime ++ le 4 m.sealCount ++ le 4 m.swShort ++ le 4 seq ++ le 4 nonce ++
    le 1 (b2n s.bte.off.isSome + 2 * b2n m.tamper + 4 * b2n (m.sealSt == 1)) ++ le 1 kind ++ zeros 30

/-- Content with its signature trailer. -/
def signed (kind seq nonce : Nat) (content : List Byte) (s : State) : List Byte :=
  let b := content ++ trailerHead kind seq nonce s
  b ++ padTo 64 (Config.signRecord s.mss.serial b)

/-- The Saggar's answer to a tunnelled command: status, result and the bytes for the host buffer. -/
structure SgAns where
  status : Nat
  result : Nat
  buf : List Byte
deriving DecidableEq, Repr

/-- An answer without data. -/
def SgAns.plain (status result : Nat) : SgAns := ⟨status, result, []⟩

/-- A legal answer (R377): the next answer number, the request's nonce, the trailer. -/
def legal (q : Sqe) (content : List Byte) (result : Nat) (s : State) : SgAns × State :=
  let seq := (s.mss.answerSeq + 1) % 2 ^ 32
  (⟨stDONE, result, signed 0 seq (sd q 5) content s⟩, s.onMss (fun m => { m with answerSeq := seq }))

/-- The counter of a signature block. -/
def blockCounter (buf : List Byte) : Nat := u (buf.drop (buf.length - 96)) 4 4

/-- A signed command's block holds (R376): the key of its opcode, the serial, a counter above the last one, and the
signature over opcode, dwords 6 to 15, the bytes before the block and the block's bytes 0 to 31. -/
def sigOk (op : Nat) (q : Sqe) (auth : Bool) (buf : List Byte) (s : State) : Bool :=
  let b := buf.drop (buf.length - 96)
  let key := if auth then s.mss.auth else s.mss.oper
  let last := if auth then s.mss.ctrAuth else s.mss.ctrOper
  match key with
  | none => false
  | some k =>
    decide (96 ≤ buf.length) && u b 0 4 == (if auth then 1 else 2) && u b 8 8 == s.mss.serial.toNat &&
      decide (last < u b 4 4) &&
      verifySignature k (le 1 op ++ sdBytes q 6 10 ++ buf.take (buf.length - 96) ++ b.take 32) ((b.drop 32).take 64)

/-- An accepted counter reaches NVM before the command takes effect (R376). -/
def State.counted (auth : Bool) (n : Nat) (s : State) : State :=
  s.onMss (fun m => if auth then { m with ctrAuth := n } else { m with ctrOper := n })

/-! ### Tunnelled commands (R77, R101, R515) -/

/-- A tunnelled command at work in the Saggar: parameter checks, then the body's answer, which travels back. -/
def sgServe (q : Sqe) (params : List (Bool × Nat × Nat)) (body : State → SgAns × State) (s : State) : State :=
  match firstBad params with
  | some r => s.answer q.sq (cidOf q) stBAD_PARAM r (addrOf q) []
  | none =>
    let a := body s
    a.2.answer q.sq (cidOf q) a.1.status a.1.result (addrOf q) a.1.buf

/-- A tunnelled command reaches the Saggar, with the bytes of its host buffer. Without a forwarded entry the HQE's checks come first and
the link must be up; the Saggar answers only while it runs, and when it restarts on another image, after that (R381). Session-crossing
messages on their way come first (R43). -/
def sgReach (op : Nat) (q : Sqe) (b : List Byte) (params : List (Bool × Nat × Nat)) (body : State → SgAns × State) (s : State) : State :=
  if !s.arrives q then s else
  let s := s.accept q
  match preCheck op q s with
  | some (st, r) => s.done q st r
  | none =>
    if !s.lnk.up then s.done q stSAGGAR_UNREACHABLE 0
    else if !s.sgm.runs then s
    else
      let s := s.onLnk (SgLink.sessionFirst true)
      if s.mss.restarting then s.onMss (fun m => { m with waiting := m.waiting ++ [(q, b)] })
      else sgServe q params body s

/-- A tunnelled command without bytes of a host buffer. -/
def sgCmd (op : Nat) (q : Sqe) (params : List (Bool × Nat × Nat)) (body : State → SgAns × State) (s : State) : State :=
  sgReach op q [] params body s

/-- A tunnelled command that brings a host buffer. -/
def sgCmdH (op : Nat) (q : Sqe) (h : HostRead) (params : List Byte → List (Bool × Nat × Nat))
    (body : List Byte → State → SgAns × State) (s : State) : State :=
  match h with
  | .error => hostCmd op q [] (fun s => s.done q stDMA_ERROR 0) s
  | .data b =>
    let b := b.take (sd q 4)
    sgReach op q b (params b) (body b) s

end Sys2Proof.Machine
end

