-- ==== Sys2Proof/Machine/Clock.lean ====
section
/-! DEFINITION. The clocks: what one microsecond does while no command waits (R2, R504, R508; DESIGN CHOICE, log entry 2). -/

namespace Sys2Proof.Machine

open Sys2Proof

/-- One microsecond of S-time. While a slew runs, S-time gains or loses one microsecond in every 2,000, until the
difference is gone; `left` counts the microseconds the slew still takes (R508). -/
def sTimeTick (p : Sup) : Sup :=
  match p.stime, p.slew with
  | none, _ => p
  | some t, none => { p with stime := some (t + 1) }
  | some t, some w =>
    if w.left = 0 then { p with stime := some (t + 1) }
    else
      let left := w.left - 1
      let d := if left % 2000 = 0 then (if w.fast then 2 else 0) else 1
      { p with stime := some (t + d), slew := some { w with left := left } }

/-- The main die's and the Spire's clocks: uptime, trial and ship counters. -/
def supTick (p : Sup) : Sup :=
  let run := p.powered % 128 != 0 && !p.held
  { sTimeTick p with
    spireTime := p.spireTime + 1
    uptime := if run then p.uptime + 1 else p.uptime
    trialLeft := if run && p.trialOn then p.trialLeft - 1 else p.trialLeft
    shipLeft := p.shipLeft - 1 }

/-- The Saggar's uptime, which its legal clock follows; it stands still while the Saggar has no supply at all. -/
def sgTick (s : State) : State := if s.sgm.mode = .off then s else s.onBte (fun b => { b with up := b.up + 1 })

/-- Every millisecond of its time the Spire samples MAIN_12V and the supercapacitor's charge (Table 22-3): open values, of a powered
module not below 10.2 V, of an unpowered one below it (R45; log entry 3). -/
def State.sampleSupply (s : State) : State :=
  if s.sup.spireTime % 1000 ≠ 0 then s
  else
    let v := Config.freeNat s.free
    (s.onSup (fun p => { p with
      main12v := if p.powered % 128 = 0 then v % 10200 else 10200 + v % 55336
      charge := Config.freeNat (s.free + 1) % 101 })).took.took

/-- One microsecond passes. -/
def clockTick (s : State) : State := sgTick (s.start.onSup supTick).sampleSupply

end Sys2Proof.Machine
end

