-- ==== Sys2Proof/Machine/Blk.lean ====
section
/-! DEFINITION. The Belfry auxiliary line (R409 to R425): crossings and bell slots, frames, exchanges, routes, joining and
keypad tokens. -/

namespace Sys2Proof.Machine

open Sys2Proof

/-! ### The record and the nodes -/

/-- The Belfry record in force and enabled. -/
def State.belfryRec (s : State) : Option BelfryRec :=
  match s.conf.belfry with
  | none => none
  | some r => if r.enable && bit s.sup.readyMask 6 then some r else none

/-- The record the line works under: the one in force, or, until the exchange in progress completes, the one a commit has disabled
(Table 16-5). -/
def State.lineRec (s : State) : Option BelfryRec :=
  s.belfryRec.or (if bit s.sup.readyMask 6 then s.blk.held else none)

/-- Node `a`'s entry of the record. -/
def State.nodeRec (s : State) (a : Nat) : NodeRec :=
  match s.belfryRec with
  | none => ⟨0, false, false, false⟩
  | some r => if a = 0 then ⟨0, false, false, false⟩ else r.nodes.getD (a - 1) ⟨0, false, false, false⟩

/-- Node `a`. -/
def State.node (s : State) (a : Nat) : Node := s.blk.nodes.getD (a - 1) Node.reset

/-- Node `a` changed. -/
def State.onNode (a : Nat) (f : Node → Node) (s : State) : State := s.onBlk (fun b => { b with nodes := upd b.nodes (a - 1) f })

/-- Node `a` is JOINED. -/
def State.joined (s : State) (a : Nat) : Bool := (s.nodeRec a).enable && !(s.node a).lost

/-- Node `a` is LOST. -/
def State.isLost (s : State) (a : Nat) : Bool := (s.nodeRec a).enable && (s.node a).lost

/-- A count of the line record raised. -/
def Blk.count (i n : Nat) (b : Blk) : Blk := { b with counts := upd b.counts i (fun x => min (x + n) 0xFFFFFFFF) }

/-- A Belfry event (Table 16-8), with its fault record where it has one. -/
def State.blkEvent (src sub arg : Nat) (fault : Option Nat) (s : State) : State :=
  let s1 := (s.onBlk (fun b => { b with lastEvent := some (src % 256, sub, arg % 256) })).postEvent .pf0 70 sub arg src
  match fault with
  | none => s1
  | some c => s1.faultRec 6 c src arg 0

/-! ### Routes (R418) -/

/-- The repeaters of a route. -/
def Route.hops (r : Route) : Nat := b2n (r.r1 != 0) + b2n (r.r2 != 0)

/-- A route is better: a higher score, fewer hops, a lower first repeater. -/
def Route.before (a b : Route) : Bool :=
  decide (b.score < a.score) || (a.score == b.score && (decide (a.hops < b.hops) || (a.hops == b.hops && decide (a.r1 < b.r1))))

/-- The best of some routes. -/
def bestRoute (l : List Route) : Route := (sortBy Route.before l).headD ⟨0, 0, 0, 0⟩

/-- A node's routes changed; a change of its best route is posted. -/
def State.onRoutes (a : Nat) (f : List Route → List Route) (s : State) : State :=
  let old := bestRoute (s.node a).routes
  let s1 := s.onNode a (fun n => { n with routes := f n.routes })
  let new := bestRoute (s1.node a).routes
  if old.r1 = new.r1 ∧ old.r2 = new.r2 then s1 else s1.blkEvent a 0x04 (new.r1 * 256 + new.r2) none

/-- A route's score after an exchange of quality `q` (0 on a failure). -/
def scoreStep (q score : Nat) : Nat := (clampI ((score : Int) + rneDiv (16 * q - score) 4) 0 255).toNat

/-- An exchange on a route ended. -/
def State.scoreRoute (a r1 r2 q : Nat) (failed : Bool) (s : State) : State :=
  s.onRoutes a (List.map (fun r => if r.r1 = r1 ∧ r.r2 = r2 then
    { r with score := scoreStep q r.score, fails := if failed then incSat r.fails else r.fails } else r))

/-- The routes to a node through JOINED repeaters whose own best route passes `ok`, best first. -/
def State.viaRoutes (s : State) (a : Nat) (ok : Route → Bool) : List Route :=
  let l := (List.range 251).filterMap (fun m =>
    let b := bestRoute (s.node m).routes
    if m ≠ a ∧ (s.nodeRec m).repeater = true ∧ s.joined m = true ∧ ok b = true ∧ b.r2 = 0 ∧ b.r1 ≠ a then
      some (if b.r1 = 0 then (⟨m, 0, b.score, 0⟩ : Route) else ⟨b.r1, m, b.score, 0⟩)
    else none)
  sortBy Route.before l

/-- The routes of a JOIN: direct, then every route to a JOINED repeater and on from it, best first (R421). -/
def State.joinRoutes (s : State) (a : Nat) : List Route :=
  let serves (m : Nat) : Bool := m != a && (s.nodeRec m).repeater && s.joined m
  let via := ((List.range 251).filter serves).flatMap (fun m => (s.node m).routes.filterMap (fun r =>
    if r.r2 ≠ 0 then none
    else if r.r1 = 0 then some (⟨m, 0, r.score, 0⟩ : Route)
    else if serves r.r1 then some ⟨r.r1, m, r.score, 0⟩ else none))
  ⟨0, 0, 0, 0⟩ :: sortBy Route.before via

/-- A node's candidates rebuilt: direct, then the best three through repeaters; a route kept keeps its score. -/
def State.rebuild (a : Nat) (s : State) : State :=
  let via := (s.viaRoutes a (fun b => decide (128 ≤ b.score))).take 3
  s.onRoutes a (fun old =>
    ((⟨0, 0, 0, 0⟩ : Route) :: via).map (fun r =>
      (old.find? (fun o => o.r1 == r.r1 && o.r2 == r.r2)).getD { r with score := 128, fails := 0 }))

/-! ### Frames (R414, R417) -/

/-- A frame's bits: preamble, address, type, payload, check word. -/
def frameBits (addr type n payload : Nat) : List Bool :=
  let b := bitsMsb 8 addr ++ bitsMsb 4 type ++ bitsMsb n payload
  [true, true, false, true] ++ b ++ bitsMsb 8 (crc8 b)

/-- Type, payload bits and payload of a request; `ack` is the toggle last accepted from the node. -/
def askFrame (ask : Ask) (ack : Bool) (serial addr : Nat) : Nat × Nat × Nat :=
  match ask with
  | .poll => (0, 8, b2n ack * 128)
  | .send d t => (3, 40, b2n ack * 2 ^ 39 + b2n t * 2 ^ 38 + d % 2 ^ 32)
  | .join => (6, 64, serial * 2 ^ 32 + addr * 2 ^ 24)

/-- The bits of an exchange's request by its route: as it stands, or in a FORWARD. -/
def State.requestBits (s : State) (x : Exch) : List Bool :=
  let join : Bool := x.ask = Ask.join
  let (type, n, p) := askFrame x.ask (s.node x.node).tog (s.nodeRec x.node).serial x.node
  let target := if join then 0xFE else x.node
  if x.r1 = 0 then frameBits target type n p
  else
    frameBits x.r1 4 64 (target * 2 ^ 56 + x.r2 * 2 ^ 48 + type * 2 ^ 44 + (if join then p / 2 ^ 24 else p) % 2 ^ 40)

/-- The payload bits of a type; none for a reserved one (Table 16-3). -/
def payloadBits (type : Nat) : Option Nat :=
  match type with
  | 0 => some 8
  | 1 => some 64
  | 2 => some 8
  | 3 => some 40
  | 4 => some 64
  | 5 => some 8
  | 6 => some 64
  | _ => none

/-- The bits of the cycles heard; none when one of them is silent or an erasure. -/
def symBits : List Sym → Option (List Bool)
  | [] => some []
  | .bit b _ :: r => (symBits r).map (fun l => b :: l)
  | _ :: _ => none

/-- A frame received: address, type and payload, or invalid; whether its check word failed. -/
def parseFrame (rx : List Sym) : Option (Nat × Nat × Nat) × Bool :=
  match symBits rx with
  | none => (none, false)
  | some b =>
    let body := b.drop 4
    match payloadBits (msbVal ((body.drop 8).take 4)) with
    | none => (none, false)
    | some n =>
      if b.take 4 ≠ [true, true, false, true] ∨ body.length ≠ 20 + n then (none, false)
      else if crc8 (body.take (12 + n)) ≠ msbVal (body.drop (12 + n)) then (none, true)
      else (some (msbVal (body.take 8), msbVal ((body.drop 8).take 4), msbVal ((body.drop 12).take n)), false)

/-- The quality of a frame: the smallest of its cycles. -/
def rxQuality (rx : List Sym) : Nat := rx.foldl (fun m x => match x with | .bit _ q => min m q | _ => m) 15

/-! ### The answer's place (R415, R417) -/

/-- The cycles of a request as a repeater sends it on to its node (Table 16-3). -/
def Ask.cycles : Ask → Nat
  | .poll => 32
  | .send _ _ => 64
  | .join => 88

/-- In which cycle after the request an answer of `a` cycles begins: exactly two silent ones lie between the frames on the line, and each
repeater first sends the request on and hears the answer out (R415, R417, Table 16-4). -/
def Exch.answerAt (x : Exch) (a : Nat) : Nat :=
  2 + (if x.r2 = 0 then 0 else 90) + (if x.r1 = 0 then 0 else x.ask.cycles + a + 4) + (if x.r2 = 0 then 0 else a + 2)

/-- The answers a frame may be, by their cycles: EMPTY and REPORT. -/
def answerCycles : List Nat := [32, 88]

/-- The frames that stand complete at an answer position. -/
def Exch.frames (x : Exch) (rx : List Sym) : List (List Sym) :=
  answerCycles.filterMap (fun a => if rx.length < x.answerAt a + a then none else some ((rx.drop (x.answerAt a)).take a))

/-- The preamble is heard at an answer position. -/
def Exch.preamble (x : Exch) (rx : List Sym) : Bool :=
  answerCycles.any (fun a => symBits ((rx.drop (x.answerAt a)).take 4) == some [true, true, false, true])

/-- The valid frame at an answer position, with its quality. -/
def Exch.valid (x : Exch) (rx : List Sym) : Option ((Nat × Nat × Nat) × Nat) :=
  (x.frames rx).findSome? (fun f => (parseFrame f).1.map (fun v => (v, rxQuality f)))

/-! ### Bell slots (R411 to R413) -/

/-- A sample: its code less the mid-code. -/
def sampleOf (c : Nat) : Int := (c : Int) - 2048

/-- The noise floor after a sample outside both bell slots. -/
def floorStep (f c : Nat) : Nat := ((f : Int) + rneShr (((sampleOf c).natAbs : Int) - f) 10).toNat

/-- The samples since the crossing before, in the bell slot, and after it: the slot is the 32 samples that end 200 µs before the edge, at 64
kHz, 15,625 ns apart (R409, R411). None where there are too few. -/
def slotCut (z : ZeroCross) : Option (List Nat × List Nat × List Nat) :=
  let after := (200000 - z.phase) / 15625 + 1
  let m := z.codes.length
  if m < 32 + after then none
  else some (z.codes.take (m - after - 32), (z.codes.drop (m - after - 32)).take 32, z.codes.drop (m - after))

/-- Which samples of a slot are blanked; `first` says whether its first sample exceeds the limit. -/
def blankedAt (first : Bool) (lim : Nat) (slot : List Nat) : List Bool :=
  let hit (i : Nat) : Bool := match slot[i]? with
    | none => false
    | some c => if i = 0 then first else decide (lim < (sampleOf c).natAbs)
  (List.range slot.length).map (fun i => hit i || hit (i + 1) || (decide (0 < i) && hit (i - 1)))

/-- A slot judged: its energy over the samples that are not blanked. -/
def judgeBell (first : Bool) (lim : Nat) (slot : List Nat) : Bell :=
  let bl := blankedAt first lim slot
  let keep := (slot.zip bl).filterMap (fun x => if x.2 then none else some (sampleOf x.1).natAbs)
  ⟨rneDivN (32 * sumN (keep.map (fun x => x * x))) keep.length, decide (8 < (bl.filter id).length)⟩

/-- floor(log2(a / b)), limited to 0 to 15. -/
def logRatio (a b : Nat) : Nat := countOf 15 (fun k => decide (b * 2 ^ (k + 1) ≤ a))

/-- A cycle judged from its slots F and R (R413). -/
def judgeCycle (floor : Nat) (f r : Bell) : Sym :=
  let hi := max f.energy r.energy
  let lo := min f.energy r.energy
  if f.blanked || r.blanked then .erasure
  else if f.energy < 512 * floor * floor ∧ r.energy < 512 * floor * floor then .silent
  else if 4 * lo ≤ hi then .bit (decide (r.energy < f.energy)) (logRatio hi (max lo (32 * floor * floor)))
  else .erasure

/-- The samples between two edges: the noise floor, and the slot's energy. The slot's first sample is judged by the floor as it stands
when it comes; a sample over the limit at an end of the slot blanks its neighbour outside it, which then leaves the floor alone (DEDUCED,
log entry 29). -/
def Blk.hear (k : Nat) (z : ZeroCross) (b : Blk) : Blk × Option Bell :=
  match slotCut z with
  | none => (b, none)
  | some (pre, slot, post) =>
    let above (f c : Nat) : Bool := k * f < (sampleOf c).natAbs
    let first := above (pre.foldl floorStep b.floor) (slot.headD 2048)
    let f := (if first then pre.dropLast else pre).foldl floorStep b.floor
    let last := above f (slot.getLast?.getD 2048)
    ({ b with floor := (if last then post.drop 1 else post).foldl floorStep f }, some (judgeBell first (k * f) slot))

/-- The mean period of an edge's last crossings: sum and count. -/
def Edge.mean (e : Edge) : Nat := rneDivN (sumN e.pers) e.pers.length

/-! ### Registers (Tables 16-9, 16-10) -/

/-- The state of the Belfry: 0 IDLE, 1 POLLING, 2 LINE_DOWN. -/
def State.blkState (s : State) : Nat :=
  if s.belfryRec.isNone then 0 else if s.blk.down then 2 else if s.sup.st = .service then 1 else 0

/-- How many nodes are JOINED, and how many LOST. -/
def State.nodeCounts (s : State) : Nat × Nat := (countOf 251 s.joined, countOf 251 s.isLost)

/-- The mean mains period in µs. -/
def State.blkPeriod (s : State) : Nat := s.blk.rise.mean

/-- The values of the BLK registers now. -/
def State.blkRegs (s : State) : List (Nat × Nat) :=
  let n := s.nodeCounts
  let cfg := match s.conf.belfry with | none => 8 * 256 | some r => r.blankK * 256 + b2n r.hz60
  let masks (base : Nat) (p : Nat → Bool) : List (Nat × Nat) :=
    (List.range 8).map (fun i => (base + 4 * i, maskOf 32 (fun b => p (32 * i + b))))
  [(0x000, 0xFA020440), (0x004, n.1 * 2 ^ 16 + n.2 * 2 ^ 8 + s.blkState), (0x008, min s.blkPeriod 65535 * 2 ^ 16 + min s.blk.floor 4095),
   (0x00C, cfg), (0x010, s.blk.reportSeq), (0x014, lastEventWord s.blk.lastEvent)] ++ masks 0x020 s.joined ++ masks 0x040 s.isLost

/-- A cycle or an exchange ends: the registers take their values (R425). -/
def State.latchBlk (s : State) : State := s.onBlk (fun b => { b with regs := s.blkRegs })

/-- The BLK registers. -/
def readBlk (off : Nat) (s : State) : Nat := (look off s.blk.regs).getD 0

/-! ### The end of an exchange (R418, R419) -/

/-- The routes an exchange may take, best first. -/
def State.exRoutes (s : State) (x : Exch) : List Route :=
  match x.ask with
  | .join => s.joinRoutes x.node
  | _ => sortBy Route.before (s.node x.node).routes

/-- The line as a commit that disables the Belfry leaves it: no edge is known and nothing goes on. -/
def Blk.idle (b : Blk) : Blk :=
  { b with
    rise := ⟨none, 0, []⟩, fall := ⟨none, 0, []⟩, bad := 0, good := 0, cycOk := false, down := false, slotF := none, mine := false
    silent := 0, rx := [], held := none, again := [], round := [] }

/-- No exchange is in progress any more; with it ends the work of a line that a commit has disabled. Its command completes. -/
def State.exEnd (x : Exch) (status result : Nat) (s : State) : State :=
  let off := s.belfryRec.isNone
  let s1 := s.onBlk (fun b =>
    let b := { b with ex := none, rx := [], mine := false }
    if off then b.idle else b)
  match x.cmd with
  | none => s1
  | some c => s1.complete .pf0 c.1 c.2 status result

/-- Every candidate has failed: a JOIN found no route; otherwise the node is LOST, and a NODE_SEND to it fails. The command completes before
the event it causes (R97). -/
def State.exLost (x : Exch) (s : State) : State :=
  if x.ask = .join then s.exEnd x stDONE_NOTE 0x100
  else
    let s1 := s.exEnd x stBAD_STATE 0
    if (s.node x.node).lost then s1
    else (s1.onNode x.node (fun n => { n with lost := true, cand := 0 })).blkEvent x.node 0x02 x.tried.length (some 0x0B01)

/-- An exchange whose request waits to be sent ends when its node is in the record no more (Table 16-5). -/
def State.settleEx (s : State) : State :=
  match s.blk.ex with
  | none => s
  | some x => if x.st = .ready ∧ (s.nodeRec x.node).enable = false then s.exEnd x stBAD_OBJECT 0 else s

/-- An exchange fails (R419). -/
def State.exFail (x : Exch) (s : State) : State :=
  let s1 := (s.scoreRoute x.node x.r1 x.r2 0 true).onBlk (fun b => { b with rx := [], mine := false })
  if x.probe then (s1.exEnd x stBAD_STATE 0).onNode x.node (fun n => { n with cand := n.cand + 1 })
  else if (s1.nodeRec x.node).enable = false then s1.exEnd x stBAD_OBJECT 0
  else if x.tries < 3 then
    s1.onBlk (fun b => { b with ex := some { x with tries := x.tries + 1, st := .ready, tx := [] } }.count 3 1)
  else match (s1.exRoutes x).find? (fun r => !x.tried.contains (r.r1, r.r2)) with
    | some r => s1.onBlk (fun b =>
        { b with ex := some { x with r1 := r.r1, r2 := r.r2, tries := 0, tried := x.tried ++ [(r.r1, r.r2)], st := .ready
                                     tx := [] } }.count 4 1)
    | none => s1.exLost x

/-- A request to a node waits for its exchange. -/
def State.ask (r : BlkReq) (s : State) : State := s.onBlk (fun b => { b with queue := b.queue ++ [r] })

/-- A reject sent to a keypad node: its reason (R422). -/
def State.tokenReject (a reason : Nat) (s : State) : State := s.ask ⟨a, false, 2 * 2 ^ 24 + reason, none⟩

/-- The 20 digits of a token's number, as ASCII codes. -/
def tokenDigits (n : Nat) : List Nat := (List.range 20).map (fun i => 0x30 + n / 10 ^ (19 - i) % 10)

/-- A report accepted from a node, by its kind (R422, R424). -/
def State.reportTaken (a kind data : Nat) (s : State) : State :=
  let tag := bits data 55 52
  if kind = 1 then
    let s1 := if (s.node a).hi.isSome then s.tokenReject a 0xF0 else s
    s1.onNode a (fun n => { n with hi := some (tag, bits data 33 0) })
  else if kind = 2 then
    let s1 := s.onNode a (fun n => { n with hi := none })
    match (s.node a).hi with
    | none => s1.tokenReject a 0xF0
    | some (t, v) =>
      if t ≠ tag then s1.tokenReject a 0xF0
      else if !s1.lnk.up then s1.tokenReject a 0xF1
      else (s1.onLnk (fun l => { l with
          toSg := l.toSg ++ [(.token a (tokenDigits (v * 2 ^ 32 + bits data 31 0)), 0, s.sup.uptime)] })).onBlk (Blk.count 5 1)
  else if 0x10 ≤ kind then
    let seq := (s.blk.reportSeq + 1) % 2 ^ 32
    let e := le 4 seq ++ le 1 a ++ le 1 kind ++ zeros 2 ++ le 8 s.sTime ++ le 7 data ++ [0]
    (s.onBlk (fun b => { b with
      reports := (b.reports ++ [(seq, e)]).drop (b.reports.length + 1 - 1024), reportSeq := seq })).blkEvent a 0x01
        (kind * 2 ^ 24 + data % 2 ^ 24) none
  else s

/-- An answer of quality `q` reached the Belfry by an exchange's route: its command completes, before the events it causes (R97), then the
route's score, and a LOST node found. -/
def State.answered (x : Exch) (q : Nat) (s : State) : State :=
  let hops := b2n (x.r1 != 0) + b2n (x.r2 != 0)
  let s1 := (s.exEnd x stDONE hops).scoreRoute x.node x.r1 x.r2 q false
  let join : Bool := x.ask = Ask.join
  let s2 := if (s.node x.node).lost || join then
      ((s1.onNode x.node (fun n => if join then { n with lost := false, tog := true, stog := true, hi := none }
        else { n with lost := false })).blkEvent x.node 0x03 hops none).rebuild x.node
    else s1
  match x.ask with
  | .send _ t => s2.onNode x.node (fun n => { n with stog := t })
  | _ => s2

/-- A REPORT: a new toggle is accepted and its content taken; `more` polls the node again at once. -/
def State.report (a p : Nat) (s : State) : State :=
  let tog := bit p 63
  let s1 := if bit p 62 then s.onBlk (fun b => { b with again := b.again.filter (fun n => n != a) ++ [a] }) else s
  if tog = (s.node a).tog then s1
  else (s1.onNode a (fun n => { n with tog := tog })).reportTaken a (bits p 61 56) (bits p 55 0)

/-- A NOANSWER stands behind a routed request: the latest 32 cycles are one to its target (R417, Table 16-3). -/
def Exch.noAnswer (x : Exch) (rx : List Sym) : Bool :=
  x.r1 != 0 && (match (parseFrame (rx.drop (rx.length - 32))).1 with
    | some (a, type, _) => type == 5 && a == (if x.ask = .join then 0xFE else x.node)
    | none => false)

/-- The answer frame ends and is checked: a valid EMPTY or REPORT at the answer position, addressed to the Belfry (R414, R415). Before the
answer position there is none. -/
def belfryFrameRx (s : State) : State :=
  match s.blk.ex with
  | none => s
  | some x =>
    let rx := s.blk.rx
    if x.st ≠ .waiting ∨ s.lineRec.isNone = true then s
    else if rx.length < x.answerAt 32 + 4 ∧ x.noAnswer rx = false then s
    else
      let er := ((rx.drop (x.answerAt 32)).filter (fun y => y = .erasure)).length
      let s0 := s.onBlk (fun b => b.count 2 er)
      let s1 := match x.valid rx with
        | none =>
          let bad := (x.frames rx).any (fun f => (parseFrame f).2)
          (s0.onBlk (fun b => (b.count 1 (b2n bad)).count 0 (b2n (x.noAnswer rx)))).exFail x
        | some ((addr, type, p), q) =>
          let s1 := s0.onBlk (Blk.count 0 1)
          if addr = 0 ∧ type = 2 then s1.answered x q
          else if addr = 0 ∧ type = 1 ∧ x.ask ≠ Ask.join then (s1.answered x q).report x.node p
          else s1.exFail x
      s1.latchBlk

/-- Meaning of BELFRY_FRAME_RX (R414, R416, R418, R422). -/
def execBelfryFrameRx (s : State) : Res := .next (belfryFrameRx s.start)

/-- No preamble at the answer position, which has passed (R419). -/
def answerTimeout (s : State) : State :=
  match s.blk.ex with
  | none => s
  | some x =>
    if x.st ≠ .waiting ∨ s.lineRec.isNone = true ∨ s.blk.rx.length < x.answerAt 88 + 4 ∨ x.preamble s.blk.rx = true then s
    else (s.exFail x).latchBlk

/-- Meaning of ANSWER_TIMEOUT (R419). -/
def execAnswerTimeout (s : State) : Res := .next (answerTimeout s.start)

/-! ### Cycles (R410, R411) -/

/-- The Belfry sends nothing outside SERVICE: a request being sent stops and waits. -/
def Blk.hush (b : Blk) : Blk :=
  match b.ex with
  | none => b
  | some x => { b with ex := some { x with st := .ready, tx := [] }, rx := [], mine := false }

/-- A cycle ends with what it was judged to be; the next one begins, with the next bit of the request in it. A request begins only behind two
silent cycles (R415). -/
def State.cycleEnd (y : Sym) (s : State) : State :=
  let b := s.blk
  let quiet := y = .silent
  let b1 := { b with silent := if b.mine then 0 else if quiet then b.silent + 1 else 0, mine := false }
  if s.sup.st ≠ .service then (s.onBlk (fun _ => b1.hush)).settleEx
  else match b1.ex with
    | none => s.onBlk (fun _ => b1)
    | some x => match x.st, x.tx with
      | .ready, _ => s.onBlk (fun _ => b1)
      | .waiting, _ => s.onBlk (fun _ => { b1 with rx := b1.rx ++ [y] })
      | .sending, [] => s.onBlk (fun _ => { b1 with ex := some { x with st := .waiting }, rx := [], silent := 0 })
      | .sending, d :: r =>
        if b.mine ∨ 2 ≤ b1.silent then (s.onBlk (fun _ => { b1 with mine := true, ex := some { x with tx := r } })).emit (.bell d)
        else s.onBlk (fun _ => b1)

/-- The line goes DOWN: the frame in progress is invalid. -/
def State.lineDown (s : State) : State :=
  let s1 := (s.onBlk (fun b => { b with down := true, good := 0 })).blkEvent noSource 0x05 1 (some 0x0B02)
  match s1.blk.ex with
  | none => s1
  | some x => if x.st = .ready then s1 else (s1.exFail x).latchBlk

/-- A cycle of edges ends: DOWN ends after 16 consecutive good ones. -/
def State.cycleGood (s : State) : State :=
  let b := s.blk
  let g := if b.cycOk then b.good + 1 else 0
  let s1 := s.onBlk (fun b => { b with good := g, cycOk := true })
  if b.down ∧ 16 ≤ g then (s1.onBlk (fun b => { b with down := false })).blkEvent noSource 0x05 0 none else s1

/-- The predicted time of an edge's next crossing: missed ones go on in the mean period. -/
def Edge.predict (e : Edge) : Option Nat :=
  match e.last with
  | none => none
  | some t => if e.pers.isEmpty then none else some (t + (e.due + 1) * e.mean)

/-- A crossing at a time is the one last missed, come late, and not the one predicted next. -/
def Edge.late (now : Nat) (e : Edge) : Bool :=
  0 < e.due && (match e.predict with | none => false | some t => now + 200 < t)

/-- The frequency lies outside 45 to 65 Hz. -/
def Edge.badFreq (e : Edge) : Bool :=
  !e.pers.isEmpty && (decide (1000000 * e.pers.length < 45 * sumN e.pers) || decide (65 * sumN e.pers < 1000000 * e.pers.length))

/-- An edge was good or not: three bad ones in a row, or a bad frequency, put the line DOWN. -/
def State.edgeJudged (ok freqBad : Bool) (s : State) : State :=
  let n := if ok then 0 else s.blk.bad + 1
  let s1 := s.onBlk (fun b => { b with bad := n, cycOk := b.cycOk && ok && !freqBad })
  if !s.blk.down && (decide (3 ≤ n) || freqBad) then s1.lineDown else s1

/-- The measured frequency puts the line DOWN. -/
def State.freqJudged (bad : Bool) (s : State) : State :=
  let s1 := s.onBlk (fun b => { b with cycOk := b.cycOk && !bad })
  if !s.blk.down && bad then s1.lineDown else s1

/-- A crossing of an edge at a time: behind missed ones the mean of the periods since the last one counts (DEDUCED, log entry 29). -/
def Edge.cross (now : Nat) (e : Edge) : Edge :=
  match e.last with
  | none => ⟨some now, 0, e.pers⟩
  | some t =>
    let n := if e.due = 0 then 1 else if e.late now then e.due else e.due + 1
    ⟨some now, 0, (rneDivN (now - t) n :: e.pers).take 8⟩

/-- The deglitcher passes an edge: the level of BLK_ZC changes, and has stood for 100 µs (R409). -/
def Blk.passes (rising : Bool) (now : Nat) (b : Blk) : Bool :=
  match b.level with
  | none => true
  | some l => l != rising && decide (b.edgeAt + 100 ≤ now)

/-- An edge of BLK_ZC arrives. One that was missed and comes late has been counted (R410). While the Belfry has no record a cycle ends for
the registers alone. -/
def zeroCrossing (z : ZeroCross) (s : State) : State :=
  match s.lineRec with
  | none => if z.rising ∧ bit s.sup.readyMask 6 = true then s.latchBlk else s
  | some r =>
    let now := s.sup.uptime
    if s.blk.passes z.rising now = false then s
    else
      let e := if z.rising then s.blk.rise else s.blk.fall
      let ok := match e.predict with
        | none => true
        | some t => decide (now ≤ t + 200) && decide (t ≤ now + 200)
      let e' := e.cross now
      let (b, bell) := s.blk.hear r.blankK z
      let b := { b with
        level := some z.rising, edgeAt := now, next := if e.late now then b.next else !z.rising
        rise := if z.rising then e' else b.rise, fall := if z.rising then b.fall else e' }
      let s0 := s.onBlk (fun _ => b)
      if e.late now then s0.freqJudged e'.badFreq
      else
        let s1 := s0.edgeJudged ok e'.badFreq
        if z.rising then
          let y := match s1.blk.slotF, bell with
            | some f, some r => if ok then judgeCycle b.floor f r else .erasure
            | _, _ => .erasure
          (((s1.onBlk (fun b => { b with slotF := none })).cycleGood).cycleEnd y).latchBlk
        else s1.onBlk (fun b => { b with slotF := if ok then bell else none })

/-- Meaning of ZERO_CROSSING (R410 to R413). -/
def execZeroCrossing (z : ZeroCross) (s : State) : Res := .next (zeroCrossing z s.start)

/-- A predicted crossing has not arrived 200 µs after it was due: the prediction goes on from there. -/
def zeroCrossingMissed (s : State) : State :=
  match s.lineRec with
  | none => s
  | some _ =>
    let rising := s.blk.next
    let e := if rising then s.blk.rise else s.blk.fall
    match e.predict with
    | none => s
    | some t =>
      if s.sup.uptime ≤ t + 200 then s
      else
        let e' := { e with due := e.due + 1 }
        let s1 := (s.onBlk (fun b => { b with
          next := !rising, rise := if rising then e' else b.rise, fall := if rising then b.fall else e'
          slotF := none })).edgeJudged false false
        if rising then (s1.cycleGood.cycleEnd .erasure).latchBlk else s1

/-- Meaning of ZERO_CROSSING_MISSED (R410). -/
def execZeroCrossingMissed (s : State) : Res := .next (zeroCrossingMissed s.start)

/-! ### The next request (R415, R419, R420) -/

/-- Two lists taken in turn. -/
def interleave : List Nat → List Nat → List Nat
  | [], b => b
  | a :: r, b => match b with
    | [] => a :: r
    | c :: t => a :: c :: interleave r t

/-- A new polling round: JOINED nodes, and LOST ones in every sixteenth, keypads and others in turn; candidates are rebuilt in
every 64th. -/
def State.newRound (s : State) : State :=
  let n := s.blk.rounds + 1
  let s1 := if n % 64 = 0 then (List.range 251).foldl (fun s a => if s.joined a then s.rebuild a else s) s else s
  let l := (List.range 251).filter (fun a => s1.joined a || (n % 16 == 0 && s1.isLost a))
  s1.onBlk (fun b => { b with
    rounds := n
    round := interleave (l.filter (fun a => (s1.nodeRec a).keypad)) (l.filter (fun a => !(s1.nodeRec a).keypad)) })

/-- A poll of a node: on its best route, or once on its next candidate while it is LOST. -/
def State.pollOf (s : State) (a : Nat) : Exch :=
  let n := s.node a
  let r := if n.lost then n.routes.getD (n.cand % n.routes.length) ⟨0, 0, 0, 0⟩ else bestRoute n.routes
  ⟨a, .poll, none, r.r1, r.r2, 0, [(r.r1, r.r2)], n.lost, .ready, []⟩

/-- The exchange of a waiting request. -/
def State.reqExch (s : State) (r : BlkReq) : Exch :=
  let n := s.node r.node
  if r.join then ⟨r.node, .join, r.cmd, 0, 0, 0, [(0, 0)], false, .ready, []⟩
  else
    let b := bestRoute n.routes
    ⟨r.node, .send r.data (!n.stog), r.cmd, b.r1, b.r2, 0, [(b.r1, b.r2)], false, .ready, []⟩

/-- A waiting request that cannot be made any more: its node is gone, LOST for a SEND, or JOINED for a JOIN. -/
def State.reqStatus (s : State) (r : BlkReq) : Option Nat :=
  if !(s.nodeRec r.node).enable then some stBAD_OBJECT
  else if (s.node r.node).lost = r.join then none else some stBAD_STATE

/-- Waiting requests that cannot be made complete with their failure. -/
def State.dropReqs (s : State) : State :=
  let s1 := s.onBlk (fun b => { b with queue := b.queue.filter (fun r => (s.reqStatus r).isNone) })
  s.blk.queue.foldl (fun t r => match s.reqStatus r, r.cmd with
    | some st, some c => t.complete .pf0 c.1 c.2 st 0
    | _, _ => t) s1

/-- The next exchange: a waiting request, a node with more to report, the round, in which a LOST node is polled every sixteenth time
only. -/
def State.nextExch (s : State) : State :=
  let s := s.dropReqs
  match s.blk.queue with
  | r :: rest => s.onBlk (fun b => { b with queue := rest, ex := some (s.reqExch r) })
  | [] => match s.blk.again with
    | a :: rest =>
      let s1 := s.onBlk (fun b => { b with again := rest })
      if s1.joined a then s1.onBlk (fun b => { b with ex := some (s1.pollOf a) }) else s1
    | [] =>
      let s1 := if s.blk.round.isEmpty then s.newRound else s
      match s1.blk.round with
      | [] => s1
      | a :: rest =>
        let s2 := s1.onBlk (fun b => { b with round := rest })
        if s2.joined a || (s2.blk.rounds % 16 == 0 && s2.isLost a) then s2.onBlk (fun b => { b with ex := some (s2.pollOf a) }) else s2

/-- The Belfry starts its next request, after at least two silent cycles: it repeats an exchange that failed, or takes the next one. -/
def belfryRequest (s : State) : State :=
  if s.belfryRec.isNone || s.blk.down || s.sup.st ≠ .service || decide (s.blk.silent < 2) then s
  else
    let s1 := match s.blk.ex with | none => s.nextExch | some _ => s
    match s1.blk.ex with
    | none => s1
    | some x =>
      if x.st ≠ .ready then s1
      else if (s1.nodeRec x.node).enable = false then s1.settleEx
      else s1.onBlk (fun b => { b with ex := some { x with st := .sending, tx := s1.requestBits x }, rx := [] })

/-- Meaning of BELFRY_REQUEST (R415, R419, R420). -/
def execBelfryRequest (s : State) : Res := .next (belfryRequest s.start)

/-! ### BTE's answers (R422) -/

/-- BTE's answer to a relayed token goes to its node. -/
def State.tokenAnswered (a data : Nat) (s : State) : State := s.ask ⟨a, false, data, none⟩

/-! ### Commands (Table 16-7, R424) -/

/-- The line record. -/
def State.lineRecord (s : State) : List Byte :=
  let n := s.nodeCounts
  le 1 s.blkState ++ le 1 n.1 ++ le 1 n.2 ++ [0] ++ le 2 (min s.blkPeriod 65535) ++ le 2 s.blk.floor ++
    s.blk.counts.flatMap (le 4) ++ le 4 s.blk.reportSeq ++ zeros 28

/-- Meaning of BELFRY_STATUS (R424). -/
def execBelfryStatus (q : Sqe) (s : State) : Res :=
  let kind := bits (sd q 6) 0 0
  let n := bits (sd q 8) 9 0
  .next (hostCmd 0x78 q [((if kind = 0 then 64 else 24 * n) ≤ sd q 4, 4, 0), (kind = 0 || (1 ≤ n && n ≤ 512), 8, 0)]
    (fun s =>
      let b := if kind = 0 then s.lineRecord
        else ((s.blk.reports.filter (fun x => decide (sd q 7 ≤ x.1))).take n).flatMap Prod.snd
      s.replyDone q b b.length) s.start)

/-- The node of a command: 1 to 250, enabled. -/
def nodeCmd (op : Nat) (q : Sqe) (params : List (Bool × Nat × Nat)) (body : Nat → State → State) (s : State) : State :=
  hostCmd op q ((1 ≤ sd q 1 && sd q 1 ≤ 250, 1, 0) :: params) (fun s =>
    if (s.nodeRec (sd q 1)).enable then body (sd q 1) s else s.done q stBAD_OBJECT 0) s

/-- The nodes of the commands outstanding. -/
def Blk.outstanding (b : Blk) : List Nat :=
  (b.queue.filter (fun r => r.cmd.isSome)).map BlkReq.node ++
    (match b.ex with | some x => if x.cmd.isSome then [x.node] else [] | none => [])

/-- One command to a node at a time, and 16 in all. -/
def State.blkBusy (s : State) (a : Nat) : Bool := s.blk.outstanding.contains a || decide (16 ≤ s.blk.outstanding.length)

/-- Meaning of NODE_SEND (R424): it completes after the node's answer. -/
def execNodeSend (q : Sqe) (s : State) : Res :=
  .next (nodeCmd 0x79 q [] (fun a s =>
    if (s.node a).lost || s.blk.down then s.done q stBAD_STATE 0
    else if s.blkBusy a then s.done q stBUSY_RETRY 0
    else s.ask ⟨a, false, sd q 6, some (q.sq, cidOf q)⟩) s.start)

/-- Meaning of NODE_JOIN (R421, R424). -/
def execNodeJoin (q : Sqe) (s : State) : Res :=
  .next (nodeCmd 0x7B q [] (fun a s =>
    if !(s.node a).lost then s.done q stBAD_STATE 0
    else if s.blkBusy a then s.done q stBUSY_RETRY 0
    else s.ask ⟨a, true, 0, some (q.sq, cidOf q)⟩) s.start)

/-- A route's entry. -/
def routeEntry (r : Route) : List Byte := le 1 r.r1 ++ le 1 r.r2 ++ le 1 r.hops ++ le 1 r.score ++ le 4 r.fails

/-- The four entries of a node's routes; an unused one has hop count 0xFF. -/
def routeEntries (l : List Route) : List Byte :=
  (List.range 4).flatMap (fun i => match l[i]? with
    | some r => routeEntry r
    | none => [0, 0, 0xFF, 0, 0, 0, 0, 0])

/-- Meaning of ROUTE_READ (R424). -/
def execRouteRead (q : Sqe) (s : State) : Res :=
  .next (nodeCmd 0x7A q [(32 ≤ sd q 4, 4, 0)] (fun a s => s.replyDone q (routeEntries (s.node a).routes) 32) s.start)

/-! ### Admission of a record (Table 16-5) -/

/-- A new record takes effect: nodes whose entries did not change keep their routes and toggles; one whose flags alone change, and which so
does not join anew, keeps its toggles (R416); the others start. An exchange in progress completes, and requests that can no longer be made
end (Table 16-5). -/
def State.admitBelfry (old new : Option BelfryRec) (s : State) : State :=
  let of (r : Option BelfryRec) (i : Nat) : NodeRec :=
    match r with | none => ⟨0, false, false, false⟩ | some r => r.nodes.getD i ⟨0, false, false, false⟩
  let on (r : Option BelfryRec) : Bool := match r with | none => false | some r => r.enable
  let node (i : Nat) : Node :=
    let n := s.blk.nodes.getD i Node.reset
    let a := of old i
    let b := of new i
    if a = b then n
    else if a.enable ∧ b.enable ∧ a.serial = b.serial then { n with routes := Node.reset.routes, cand := 0 }
    else Node.reset
  let s1 := ((s.onBlk (fun b => { b with nodes := (List.range 250).map node, round := [] })).settleEx).dropReqs
  if on new then s1.onBlk (fun b => { b with held := none })
  else if s1.blk.ex.isSome then s1.onBlk (fun b => { b with held := if on old then old else b.held })
  else s1.onBlk Blk.idle

end Sys2Proof.Machine
end

