-- ==== Sys2Proof/Machine/Lsw.lean ====
section
/-! DEFINITION. Protected load switches: inrush, clamp budgets, trips and retries, PWM, supply dips and mirror sense (R292
to R309). -/

namespace Sys2Proof.Machine

open Sys2Proof

/-! ### Channel facts -/

/-- The output is on (Table 11-8). -/
def LChan.outOn (c : LChan) : Bool := c.st = .inrush || c.st = .on || c.st = .pwm

/-- PWM is refused (R303): type 4 in every mode, types 2 and 3 in native mode. -/
def pwmRefused (r : ChanRec) : Bool := r.load == 4 || ((r.load == 2 || r.load == 3) && !r.compat)

/-- v_f: the mean of LS_VSUP over the last 100 ms (R303). -/
def Lsw.vf (l : Lsw) : Nat := rneDivN (sumN l.vs) l.vs.length

/-- The compensated duty (R303). -/
def compDuty (r : ChanRec) (d vf : Nat) : Nat :=
  if r.comp then min 1000 (if vf = 0 then Config.dutyUnsampled d else rneDivN (d * (r.vNom * r.vNom)) (vf * vf)) else d

/-- The site island runs. -/
def State.siteUp (s : State) : Bool := bit s.sup.readyMask 4

/-- LSW's control runs: the site island is up and channel records are in force. Without it there is no compensation, no
clamp budget and no retry (R306). -/
def State.lswRuns (s : State) : Bool := s.siteUp && s.cfg.isSome

/-- The channel on LS_SENSE (R307): none below 6.0 V, where LS_SEL is not read (R487). -/
def Lsw.sensed (l : Lsw) : Option Nat :=
  let c := if l.pin = 31 then l.sel else l.pin
  if l.supply ≠ 2 ∧ c < 24 then some c else none

/-- What a channel sources into LS_SENSE, in nA: 1 mA per 2 A, at most 6.0 mA, none while it is off (R307). -/
def LChan.senseNA (c : LChan) : Nat := if c.outOn then min (c.current * 500) 6000000 else 0

/-- The selection and the current on LS_SENSE now. -/
def State.senseNow (s : State) : Option Nat × Nat :=
  (s.lsw.sensed, match s.lsw.sensed with | none => 0 | some n => (s.ch n).senseNA)

/-- LS_SENSE shows its selection. -/
def State.showSense (s : State) : State := s.emit (.sense s.senseNow.1 s.senseNow.2)

/-- LS_SENSE shows its selection and current where they differ from those of the state `old`. -/
def State.resense (old s : State) : State := if s.senseNow = old.senseNow then s else s.showSense

/-- An output turns on or off, and LS_SENSE with it where it mirrors that channel. -/
def State.driveCh (n : Nat) (on : Bool) (s : State) : State :=
  let s1 := s.emit (.loadSwitch n on)
  if s.lsw.sensed = some n then s1.showSense else s1

/-- An LSW event with its fault record, if any (Table 11-9); `cur` is the measured current. None without the site island. -/
def State.lswEvent (src sub arg : Nat) (fault : Option (Nat × Nat)) (s : State) : State :=
  if !s.siteUp then s else
  let c := if src = noSource then 0x1F else src
  let s1 := (s.onLsw (fun l => { l with lastEvent := some (c, sub, arg % 256) })).postEvent .pf0 65 sub arg src
  match fault with
  | none => s1
  | some (code, cur) => s1.faultRec 4 code src arg cur

/-- LOCKOUT, cause and retry count written to the state journal (R302). -/
def State.journalCh (n : Nat) (s : State) : State :=
  let c := s.ch n
  if !s.siteUp then s else
  s.sjWrite (fun j => { j with switches := putSorted n (c.st = .lockout, c.cause, c.retries) j.switches })

/-! ### Turning on (R295 to R297, R304) -/

/-- Channels now in INRUSH. -/
def Lsw.inrushing (l : Lsw) : Nat := (l.chans.filter (fun c => c.st = .inrush)).length

/-- Why an on-order must wait, if it must: 1 SUPPLY, 2 CLAMP, 3 INRUSH_QUEUE. -/
def State.deferCause (s : State) (n : Nat) : Nat :=
  let c := s.ch n
  let r := s.conf.chan n
  if s.lsw.supply = 1 then 1
  else if s.lswRuns ∧ !r.compat ∧ c.budget + c.eLast * 100 > r.clampBudget * 1000 then 2
  else if s.lsw.inrushing ≥ 4 then 3
  else 0

/-- A channel that is off takes an on-order: held off, deferred, or into INRUSH; below 6.0 V it stays off (R305). -/
def State.turnOn (n : Nat) (s : State) : State :=
  if (s.ch n).held ∨ s.lsw.supply = 2 then s.onCh n (fun c => { c with st := .off, defer := 0 })
  else
    let d := s.deferCause n
    if d ≠ 0 then s.onCh n (fun c => { c with st := .deferred, defer := d })
    else (s.onCh n (fun c => { c with st := .inrush, defer := 0 })).driveCh n true

/-- Deferred channels are taken again in ascending number (R296, R304). -/
def State.takeDeferred (s : State) : State :=
  (List.range 24).foldl (fun s n => if (s.ch n).st = .deferred then s.turnOn n else s) s

/-! ### Turning off (R297) -/

/-- A channel enters LOCKOUT with a cause, an event of subcode `sub` and its fault record (R297, R298, R300). -/
def State.lockCh (n cause sub arg code : Nat) (s : State) : State :=
  ((s.onCh n (fun c => { c with
    st := .lockout, cause := cause, retryAt := none, frozen := none, defer := 0, dApp := 0 })).lswEvent n sub arg
      (some (code, (s.ch n).current))).journalCh n

/-- A turn-off in native mode: its clamp energy, an open value in 0.1 mJ, joins the budget, and a budget exceeded locks the
channel out (R297). -/
def State.clampEnergy (n : Nat) (s : State) : State :=
  let r := s.conf.chan n
  if r.compat || !s.lswRuns then s
  else
    let e := Config.freeNat s.free
    let s1 := s.took.onCh n (fun c => { c with budget := c.budget + e * 100, eLast := e })
    if (s1.ch n).budget > r.clampBudget * 1000 then s1.lockCh n 5 0x21 5 0x0802 else s1

/-- An output turns off into state `st`, with its clamp energy (R297). -/
def State.turnOff (n : Nat) (st : LSt) (s : State) : State :=
  ((s.onCh n (fun c => { c with st := st, dApp := 0, defer := 0 })).driveCh n false).clampEnergy n

/-! ### Orders -/

/-- A channel takes its recorded order, as far as its state lets it (R295, R296, R300, R302). -/
def State.applyOrder (n : Nat) (s : State) : State :=
  let c := s.ch n
  match c.st with
  | .lockout => s
  | .off => if c.order = 0 then s else s.turnOn n
  | .deferred => if c.order = 0 then s.onCh n (fun c => { c with st := .off, defer := 0 }) else s
  | .retryWait => if c.order = 0 then s.onCh n (fun c => { c with st := .off, retryAt := none, frozen := none }) else s
  | .inrush => if c.order = 0 then (s.turnOff n .off).takeDeferred else s
  | .on =>
    if c.order = 0 then s.turnOff n .off
    else if c.order = 2 then s.onCh n (fun c => { c with st := .pwm, dApp := compDuty (s.conf.chan n) c.duty s.lsw.vf })
    else s
  | .pwm =>
    if c.order = 0 then s.turnOff n .off
    else if c.order = 1 then s.onCh n (fun c => { c with st := .on, dApp := 0 })
    else s

/-- An order reaches a channel: recorded, then applied. -/
def State.orderCh (n mode duty : Nat) (s : State) : State :=
  (s.onCh n (fun c => { c with order := mode, duty := duty })).applyOrder n

/-- TCM's hold of a channel begins or ends (R301). -/
def State.holdCh (n : Nat) (on : Bool) (s : State) : State :=
  let c := s.ch n
  if c.held = on then s
  else if on then
    let s1 := s.onCh n (fun c => { c with
      held := true, retryAt := none, frozen := c.retryAt.map (fun t => t - s.sup.uptime) })
    if c.outOn then (s1.turnOff n .off).takeDeferred
    else if c.st = .deferred then s1.onCh n (fun c => { c with st := .off, defer := 0 })
    else s1
  else
    let s1 := s.onCh n (fun c => { c with held := false })
    if c.st = .retryWait then
      s1.onCh n (fun c => { c with
        retryAt := some (s.sup.uptime + (s.conf.chan n).retryDelay * 1000), frozen := none })
    else s1.applyOrder n

/-! ### Trips and retries (R299, R300) -/

/-- A channel trips: off at once, its event and record, and RETRY_WAIT unless its clamp budget locks it out. Without LSW's
control it stays off (R306). -/
def State.tripCh (n cause ma : Nat) (s : State) : State :=
  let old := (s.ch n).retries
  let s0 := s.onCh n (fun c => { c with current := ma })
  if !s.siteUp then (s0.onCh n (fun c => { c with order := 0 })).turnOff n .off
  else if !s.lswRuns then
    (((s0.onCh n (fun c => { c with cause := cause })).turnOff n .off).lswEvent n 0x20 (old * 256 + cause)
      (some (0x0801, ma))).journalCh n
  else
    let s1 := (s0.onCh n (fun c => { c with cause := cause })).turnOff n .retryWait
    let s2 := s1.onCh n (fun c =>
      if c.st = .retryWait then { c with retryAt := some (s.sup.uptime + (s.conf.chan n).retryDelay * 1000) } else c)
    ((s2.lswEvent n 0x20 (old * 256 + cause) (some (0x0801, ma))).journalCh n).takeDeferred

/-- Meaning of CHANNEL_TRIP (R299). SHORT and OVERLOAD are judged outside an inrush window; OVERLOAD is timed by the site island (R306). -/
def execChannelTrip (ch : Nat) (cause : TripCause) (ma : Nat) (s : State) : Res :=
  let s := s.start
  let c := s.ch ch
  .next (match cause with
    | .short => if c.st = .on ∨ c.st = .pwm then s.tripCh ch 1 ma else s
    | .overload => if s.siteUp ∧ (c.st = .on ∨ c.st = .pwm) then s.tripCh ch 2 ma else s
    | .thermal => if c.outOn then s.tripCh ch 4 ma else s)

/-- An inrush window ends (R295). -/
def inrushEnd (n : Nat) (limiting : Bool) (s : State) : State :=
  if (s.ch n).st ≠ .inrush then s
  else if limiting then s.tripCh n 3 (s.ch n).current
  else
    (s.onCh n (fun c =>
      if c.order = 2 then { c with st := .pwm, dApp := compDuty (s.conf.chan n) c.duty s.lsw.vf }
      else { c with st := .on })).takeDeferred

/-- Meaning of INRUSH_WINDOW_END (R295). -/
def execInrushWindowEnd (ch : Nat) (limiting : Bool) (s : State) : Res := .next (inrushEnd ch limiting s.start)

/-- The retry wait of a channel ends. -/
def retryWaitEnd (n : Nat) (s : State) : State :=
  let c := s.ch n
  if c.st ≠ .retryWait ∨ c.held ∨ !s.lswRuns then s
  else if c.retries < (s.conf.chan n).retryMax then
    ((s.onCh n (fun c => { c with retries := c.retries + 1, retryAt := none })).journalCh n).turnOn n
  else s.lockCh n c.cause 0x21 c.cause 0x0802

/-- Meaning of CHANNEL_RETRY_WAIT_END (R300). -/
def execChannelRetryWaitEnd (ch : Nat) (s : State) : Res := .next (retryWaitEnd ch s.start)

/-- retry_clear seconds in ON or PWM have passed. -/
def chRetryClear (n : Nat) (s : State) : State :=
  let c := s.ch n
  if (c.st = .on ∨ c.st = .pwm) ∧ !c.held ∧ s.lswRuns then (s.onCh n (fun c => { c with retries := 0 })).journalCh n else s

/-- Meaning of CHANNEL_RETRY_CLEAR (R300). -/
def execChannelRetryClear (ch : Nat) (s : State) : Res := .next (chRetryClear ch s.start)

/-- A compatibility-mode turn-off that shows a missing diode (R298); `mv` is the lowest output voltage. In PWM a period's
off-edge is a turn-off too, and the lock-out ends the switching. -/
def freewheelMissing (n : Nat) (mv : Int) (s : State) : State :=
  let c := s.ch n
  if !s.lswRuns ∨ !(s.conf.chan n).compat ∨ c.st = .inrush ∨ c.st = .on ∨ c.st = .lockout ∨ -3000 ≤ mv then s
  else
    let s1 := s.lockCh n 6 0x25 mv.natAbs 0x0804
    if c.st = .pwm then s1.driveCh n false else s1

/-- Meaning of FREEWHEEL_MISSING (R298). -/
def execFreewheelMissing (ch : Nat) (mv : Int) (s : State) : Res := .next (freewheelMissing ch mv s.start)

/-! ### Each millisecond, supply and sense -/

/-- The 1 ms update: LS_VSUP and currents measured, budgets drained by clamp_pwr (1 mW is 1 µJ a millisecond), deferred
orders taken again. Without the site island only the currents change, which the driver mirrors (R307). -/
def clampDrain (vsup : Nat) (currents : List Nat) (s : State) : State :=
  let s1 := s.onLsw (fun l => { l with
    vs := if s.siteUp then (vsup :: l.vs).take 100 else l.vs
    chans := l.chans.mapIdx (fun n c => { c with
      budget := if s.lswRuns then c.budget - (s.conf.chan n).clampPwr else c.budget, current := currents.getD n 0 }) })
  let s2 := s.resense s1
  if s.siteUp then s2.takeDeferred else s2

/-- Meaning of CLAMP_BUDGET_DRAIN (R297). -/
def execClampBudgetDrain (vsup : Nat) (currents : List Nat) (s : State) : Res := .next (clampDrain vsup currents s.start)

/-- A dip begins: LS_VSUP enters 6.0 V to below 9.0 V from above or from below (R304). -/
def supplyDip (mv : Nat) (s : State) : State :=
  if s.lsw.supply = 1 ∨ mv < 6000 ∨ 9000 ≤ mv then s
  else (s.resense (s.onLsw (fun l => { l with supply := 1, since := s.sup.spireTime }))).lswEvent noSource 0x22 mv none

/-- Meaning of SUPPLY_DIP (R304). -/
def execSupplyDip (mv : Nat) (s : State) : Res := .next (supplyDip mv s.start)

/-- A dip ends: the deferred orders are taken. -/
def dipEnd (s : State) : State :=
  if s.lsw.supply ≠ 1 then s
  else
    ((s.onLsw (fun l => { l with supply := 0 })).lswEvent noSource 0x23 ((s.sup.spireTime - s.lsw.since) / 1000)
      none).takeDeferred

/-- Meaning of DIP_END (R304). -/
def execDipEnd (s : State) : Res := .next (dipEnd s.start)

/-- LS_VSUP falls below 6.0 V: every output off, with its clamp energy; lock-outs and orders stay recorded, and the sense
selection returns to 0x1F (R305). -/
def supplyLoss (s : State) : State :=
  if s.lsw.supply = 2 then s
  else
    let s1 := s.onLsw (fun l => { l with
      supply := 2, since := s.sup.spireTime, lostAt := some (l.lostAt.getD s.sup.spireTime), sel := 0x1F })
    let s2 := (List.range 24).foldl (fun s n => if (s.ch n).outOn then s.turnOff n .off else s) s1
    let s3 := s2.onLsw (fun l => { l with chans := l.chans.map (fun c =>
      if c.st = .lockout then c else { c with st := .off, dApp := 0, defer := 0, retryAt := none, frozen := none }) })
    s.resense s3

/-- Meaning of LS_SUPPLY_LOSS (R305). -/
def execLsSupplyLoss (s : State) : Res := .next (supplyLoss s.start)

/-- Every channel takes its recorded order. -/
def State.applyOrders (s : State) : State := (List.range 24).foldl (fun s n => s.applyOrder n) s

/-- LS_VSUP has been at or above 9.0 V for 10 ms after it was below 6.0 V: a dip on the way ends with it, and with the site
island running the recorded orders are applied again (R304, R305). -/
def supplyRestore (s : State) : State :=
  match s.lsw.lostAt with
  | none => s
  | some t =>
    let s1 := s.resense ((dipEnd s).onLsw (fun l => { l with supply := 0, lostAt := none }))
    if s.siteUp then (s1.lswEvent noSource 0x24 ((s.sup.spireTime - t) / 1000) (some (0x0803, 0))).applyOrders else s1

/-- Meaning of LS_SUPPLY_RESTORE (R305). -/
def execLsSupplyRestore (s : State) : Res := .next (supplyRestore s.start)

/-- LS_SEL changes; below 6.0 V it is not read, and the selection it stands at is taken with the supply (R487). -/
def selChange (code : Nat) (s : State) : State :=
  let s1 := s.onLsw (fun l => { l with pin := code % 32 })
  if s.lsw.supply = 2 then s1 else s1.showSense

/-- Meaning of LS_SEL_CHANGE (R307). -/
def execLsSelChange (code : Nat) (s : State) : Res := .next (selChange code s.start)

/-- A PWM period begins: the driver applies the duty, and the off-edge of the period that ends has its clamp energy (R297,
R303). Without LSW's control the last applied duty goes on (R306). -/
def pwmPeriod (n : Nat) (s : State) : State :=
  let c := s.ch n
  if c.st ≠ .pwm ∨ !s.lswRuns then s
  else
    let s1 := if 0 < c.dApp ∧ c.dApp < 1000 then s.clampEnergy n else s
    if (s1.ch n).st = .pwm then s1.onCh n (fun c => { c with dApp := compDuty (s.conf.chan n) c.duty s.lsw.vf })
    else s1.driveCh n false

/-- Meaning of PWM_PERIOD_START (R303). -/
def execPwmPeriodStart (ch : Nat) (s : State) : Res := .next (pwmPeriod ch s.start)

/-! ### Commands (Table 11-6) -/

/-- The 16 bytes of a SWITCH_STATUS record (Table 11-7). -/
def switchRecord (n : Nat) (s : State) : List Byte :=
  let c := s.ch n
  let r := s.conf.chan n
  let left := match c.retryAt with | none => (c.frozen.getD 0 + 999) / 1000 | some t => (t - s.sup.uptime + 999) / 1000
  le 1 c.st.code ++ le 1 (b2n c.held + 2 * b2n c.outOn + 4 * b2n r.compat + 8 * b2n (c.st = .pwm && r.comp)) ++
    le 1 c.cause ++ le 1 c.retries ++ le 2 c.current ++ le 2 (if c.st = .pwm then c.dApp else 0) ++
    le 2 (if r.compat then 0 else c.budget / 100) ++ le 2 (min c.eLast 65535) ++ le 2 left ++ le 1 c.defer ++ [0]

/-- Meaning of SWITCH_STATUS (R308). -/
def execSwitchStatus (q : Sqe) (s : State) : Res :=
  let n := bits (sd q 6) 4 0
  .next (hostCmd 0x69 q (rangeParams q n 24 16)
    (fun s => s.replyDone q ((List.range n).flatMap (fun i => switchRecord (sd q 1 + i) s)) n) s.start)

/-- SWITCH_SET (R308). -/
def switchSet (q : Sqe) (s : State) : State :=
  let n := sd q 1
  let d := sd q 6
  let s1 := s.orderCh n (bits d 1 0) (bits d 25 16)
  if (s.conf.chan n).owner = 2 then s.done q stBAD_STATE 0
  else if (s.ch n).st = .lockout then s1.done q stDONE_NOTE 6
  else s1.done q stDONE (s1.ch n).st.code

/-- The parameter checks of SWITCH_SET (R308). -/
def switchParams (q : Sqe) (s : State) : List (Bool × Nat × Nat) :=
  let d := sd q 6
  [(sd q 1 < 24, 1, 0), (bits d 1 0 != 3 && !(bits d 1 0 == 2 && pwmRefused (s.conf.chan (sd q 1))), 6, 0),
   (bits d 15 2 == 0, 6, 2), (bits d 25 16 ≤ 1000, 6, 16), (bits d 31 26 == 0, 6, 26)]

/-- Meaning of SWITCH_SET (R308). -/
def execSwitchSet (q : Sqe) (s : State) : Res :=
  .next (hostCmd 0x68 q (switchParams q s) (switchSet q) s.start)

/-- A lock-out may be cleared now (R308): not while a clamp lock-out has more than half its budget. -/
def State.mayUnlock (s : State) (n : Nat) : Bool :=
  let c := s.ch n
  c.st = .lockout && !(c.cause == 5 && decide (2 * c.budget > (s.conf.chan n).clampBudget * 1000))

/-- A lock-out ends, and the channel takes its recorded order. -/
def State.unlockCh (n : Nat) (s : State) : State :=
  ((s.onCh n (fun c => { c with st := .off, retries := 0 })).journalCh n).applyOrder n

/-- LOCKOUT_CLEAR (R308). -/
def lockoutClear (q : Sqe) (s : State) : State :=
  let n := sd q 1
  if n = 0xFFFFFFFF then
    let ok := (List.range 24).filter (fun i => s.mayUnlock i)
    let left := countOf 24 (fun i => (s.ch i).st = .lockout && !s.mayUnlock i)
    (ok.foldl (fun s i => s.unlockCh i) s).done q stDONE (ok.length + 256 * left)
  else if (s.ch n).st ≠ .lockout then s.done q stDONE_NOTE 0
  else if !s.mayUnlock n then s.done q stBAD_STATE 0
  else (s.unlockCh n).done q stDONE 1

/-- Meaning of LOCKOUT_CLEAR (R308). -/
def execLockoutClear (q : Sqe) (s : State) : Res :=
  .next (hostCmd 0x6A q [(sd q 1 < 24 || sd q 1 == 0xFFFFFFFF, 1, 0)] (lockoutClear q) s.start)

end Sys2Proof.Machine
end

