-- ==== Sys2Proof/Machine/Psc.lean ====
section
/-! DEFINITION. Phase groups and power-stage protection (R197 to R215): capacity, interleaving, shedding, the fast limit,
sense and link loss, overload, retries and latches. -/

namespace Sys2Proof.Machine

open Sys2Proof

/-! ### Group map accessors -/

/-- A sample period in ns (Table 08-5). -/
def periodNs (rate : Nat) : Nat :=
  match rate with
  | 0 => 50000
  | 1 => 40000
  | 2 => 25000
  | 3 => 20000
  | 4 => 12500
  | 5 => 10000
  | _ => 50000

/-- The rate code of a group in force: 20 kHz in bisque service (R59, R182). -/
def Cfg.rate (c : Cfg) (g : Nat) : Nat :=
  if c.bisque then 0 else match c.ctx g with | none => 0 | some x => x.rate

/-- The member links of a group, in member order. -/
def Cfg.members (c : Cfg) (g : Nat) : List Nat :=
  match c.group g with
  | none => []
  | some m => m.links.take m.nPh

/-- The group and member index of a link. -/
def Cfg.memberOf (c : Cfg) (l : Nat) : Option (Nat × Nat) :=
  (List.range c.groups.length).findSome? (fun g =>
    if (c.members g).contains l then some (g, (c.members g).idxOf l) else none)

/-- Member `h` is available (R200). -/
def PGroup.avail (p : PGroup) (h : Nat) : Bool := p.lost.getD h 0 == 0

/-- Member `h` is enabled. -/
def PGroup.on (p : PGroup) (h : Nat) : Bool := p.en.getD h false

/-- The number of available phases. -/
def PGroup.nAv (p : PGroup) (n : Nat) : Nat := countOf n p.avail

/-- The number of enabled phases. -/
def PGroup.nEn (p : PGroup) (n : Nat) : Nat := countOf n p.on

/-! ### Capacity and clamp (R202, R203) -/

/-- The local capacity in mA (R202, R59). -/
def localCap (bisque : Bool) (m : GroupMap) (p : PGroup) : Nat :=
  let c := p.nAv m.nPh * m.iPeak
  if bisque then min c (m.iRated / 4) else c

/-- A current in mA as per unit of a group's base current, Q7.24 (R202). -/
def puOfMa (m : GroupMap) (ma : Nat) : Nat := (satS32 (rneDiv (ma * 2 ^ 24 : Nat) (m.baseI * 1000))).toNat

/-- A per-unit current in mA (R206, R210). -/
def maOfPu (m : GroupMap) (i : Int) : Int := rneShr (i * (m.baseI * 1000 : Nat)) 24

/-- The PSC clamp (R202). -/
def clampOf (bisque : Bool) (m : GroupMap) (p : PGroup) : Nat := puOfMa m (localCap bisque m p)

/-- The capacity PSC reports (R203). -/
def capacityOf (bisque : Bool) (m : GroupMap) (p : PGroup) : Nat :=
  if p.st = .running then (if p.ovl then min (localCap bisque m p) m.iRated else localCap bisque m p) else 0

/-- One delivery to the site island: a group's capacity, and its voltage sum and count (R203). -/
def State.sendCap (g c : Nat) (s : State) : State :=
  (s.onPg g (fun p => { p with sent := c })).onSpa (fun y => { y with
    inp := { y.inp with cap := y.inp.cap.set g c }
    vsum := y.vsum.set g ((s.pg g).vsum, (s.pg g).vcnt) })

/-- PSC delivers a group's capacity to the site island when it has changed (R203). -/
def State.deliverCap (m : GroupMap) (g : Nat) (s : State) : State :=
  let c := capacityOf s.conf.bisque m (s.pg g)
  if c = (s.pg g).sent then s else s.sendCap g c

/-- The periodic delivery (R203). -/
def capacityDelivery (g : Nat) (s : State) : State :=
  match s.conf.group g with
  | none => s
  | some m => s.sendCap g (capacityOf s.conf.bisque m (s.pg g))

/-- Meaning of CAPACITY_DELIVERY (R203). -/
def execCapacityDelivery (group : Nat) (s : State) : Res := .next (capacityDelivery group s.start)

/-! ### Events and the state journal -/

/-- A PSC event with its fault record, if it has one (Table 07-8). -/
def State.pscEvent (g sub arg : Nat) (fault : Option Nat) (s : State) : State :=
  let s1 := (s.onPsc (fun p => { p with lastEvent := some (g, sub, arg % 256) })).postEvent .pf0 67 sub arg g
  match fault with
  | none => s1
  | some code => s1.faultRec 3 code g arg (s.lane g).count

/-- LOCKED, retry count and LOST marks written to the state journal (R201). -/
def State.journalGroup (g : Nat) (s : State) : State :=
  let p := s.pg g
  s.sjWrite (fun j => { j with
    groups := putSorted g ⟨s.conf.members g, p.mode = .locked, p.cause, p.retries, p.lost⟩ j.groups })

/-! ### Interleaving and enables (R204, R205) -/

/-- The interleave offsets in force for a set of enables. -/
def ilvOf (m : GroupMap) (p : PGroup) : List Nat :=
  if m.ilvMode then (List.range 8).map (fun h => if h < m.nPh then m.ilv.getD h 0 else 0)
  else
    let ne := p.nEn m.nPh
    (List.range 8).map (fun h => if h < m.nPh && p.on h then rneDivN (65536 * countOf h p.on) ne % 65536 else 0)

/-- The offsets recomputed. -/
def PGroup.setIlv (m : GroupMap) (p : PGroup) : PGroup := { p with ilv := ilvOf m p }

/-- The temperature of each member's terminal in its latest SAMPLE frame. -/
def State.temps (s : State) (m : GroupMap) : List Int := m.links.map (fun l => (s.link l).temp)

/-- The member that add_one enables: the coolest shed phase, the lowest index on a tie. -/
def coolest (m : GroupMap) (temps : List Int) (p : PGroup) : Option Nat :=
  (List.range m.nPh).foldl (fun b h =>
    if p.avail h && !p.on h then
      match b with
      | none => some h
      | some c => if temps.getD h 0 < temps.getD c 0 then some h else b
    else b) none

/-- The member that shed_one disables: the hottest enabled phase, the highest index on a tie. -/
def hottest (m : GroupMap) (temps : List Int) (p : PGroup) : Option Nat :=
  (List.range m.nPh).foldl (fun b h =>
    if p.on h then
      match b with
      | none => some h
      | some c => if temps.getD h 0 ≥ temps.getD c 0 then some h else b
    else b) none

/-- add_one. -/
def addOne (m : GroupMap) (temps : List Int) (p : PGroup) : PGroup :=
  match coolest m temps p with
  | none => p
  | some h => ({ p with en := p.en.set h true }).setIlv m

/-- shed_one. -/
def shedOne (m : GroupMap) (temps : List Int) (p : PGroup) : PGroup :=
  match hottest m temps p with
  | none => p
  | some h => ({ p with en := p.en.set h false }).setIlv m

/-- add_one, `k` times. -/
def addMany (m : GroupMap) (temps : List Int) : (k : Nat) → PGroup → PGroup
  | 0, p => p
  | k + 1, p => addMany m temps k (addOne m temps p)

/-- An entry into RUNNING (R204): shedding state cleared, phases enabled coolest first. -/
def enterRunning (m : GroupMap) (temps : List Int) (p : PGroup) : PGroup :=
  let p := { p with holdLeft := 0, addCnt := 0, shedCnt := 0, irTick := 0, ir := 0, imSum := 0, imCnt := 0
                    en := List.replicate 8 false }
  let k := if m.shedLvl = 0 then m.nPh else m.minPh
  (addMany m temps k p).setIlv m

/-! ### States (R199) -/

/-- The device states and the admission epoch that gate a group (Table 07-3). -/
def State.gates (s : State) (p : PGroup) : Bool := p.gate || !(s.sup.st = .service || s.sup.st = .bisque)

/-- The state of Table 07-3 brought up to date: leaving RUNNING clears θ, entering it enables phases, and the capacity is
delivered. -/
def State.refreshGroup (m : GroupMap) (g : Nat) (s : State) : State :=
  let p := s.pg g
  let st : PState := if p.mode = .running then (if s.gates p then .gated else .running) else p.mode
  let p1 : PGroup := if p.st = .running ∧ st ≠ .running then { p with theta := 0, ovl := false } else p
  let p2 : PGroup := if st = .running ∧ p.st ≠ .running then enterRunning m (s.temps m) p1 else p1
  (s.onPg g (fun _ => { p2 with st := st })).deliverCap m g

/-- Every configured group brought up to date with the device state. -/
def State.refreshGroups (s : State) : State :=
  (List.range 64).foldl (fun s g => match s.conf.group g with | none => s | some m => s.refreshGroup m g) s

/-- A group enters LOCKED (R209, R211). -/
def State.lockGroup (g cause : Nat) (s : State) : State :=
  (s.onPg g (fun p => { p with mode := .locked, cause := cause, retryAt := none, frozen := none })).pscEvent g 0x04
    ((s.pg g).retries * 256 + cause) (some 0x0403)

/-- A phase is declared lost (R207, R209). -/
def State.losePhase (m : GroupMap) (g h cause : Nat) (s : State) : State :=
  let p := s.pg g
  if p.lost.getD h 0 ≠ 0 then
    if cause = 4 then (s.onPg g (fun p => { p with lost := p.lost.set h 4 })).journalGroup g else s
  else
    let p1 := { p with lost := p.lost.set h cause, en := p.en.set h false
                       senseLoss := if cause = 1 ∨ cause = 2 then incSat p.senseLoss else p.senseLoss
                       linkLoss := if cause = 3 then incSat p.linkLoss else p.linkLoss }
    let p2 := if p.on h ∧ p.st = .running then addOne m (s.temps m) p1 else p1
    let s1 := (s.onPg g (fun _ => p2.setIlv m)).pscEvent g 0x03 (h * 256 + cause) (some 0x0402)
    let s2 := if p2.nAv m.nPh = 0 ∧ p.mode ≠ .locked then s1.lockGroup g 2 else s1
    (s2.journalGroup g).refreshGroup m g

/-- PLA reports a link down or disabled (R200, R233). -/
def State.linkLost (l cause : Nat) (s : State) : State :=
  match s.conf.memberOf l with
  | none => s
  | some (g, h) => match s.conf.group g with
    | none => s
    | some m => s.losePhase m g h cause

/-! ### The fast limit and overload (R206, R210) -/

/-- The retry timer starts, or stands frozen while a latch report is set (R211, R212). -/
def startRetry (now : Nat) (m : GroupMap) (p : PGroup) : PGroup :=
  if p.latch then { p with retryAt := none, frozen := some (m.retryDelay * 1000) }
  else { p with retryAt := some (now + m.retryDelay * 1000), frozen := none }

/-- A group trips on its fast limit: member `h` is the first over it. -/
def State.tripGroup (m : GroupMap) (g h : Nat) (s : State) : State :=
  let s1 := s.onPg g (fun p => (startRetry s.sup.uptime m { p with
    mode := .tripped, cause := 3, en := List.replicate 8 false, fastTrips := incSat p.fastTrips }).setIlv m)
  (s1.pscEvent g 0x02 (h * 256 + (s.pg g).retries) (some 0x0401)).refreshGroup m g

/-- The I²t step of one sample (R210). -/
def thetaStep (m : GroupMap) (rate : Nat) (ma : Int) (theta : Nat) : Nat :=
  let alpha := rneDivN (periodNs rate * 2 ^ 32) (m.tau * 1000000)
  let x := rneDivN (min ma.natAbs (8 * m.iRated) * 2 ^ 24) m.iRated
  let sq := (rneShr (x * x : Nat) 24).toNat
  (clampI ((theta : Int) + rneShr (((sq : Int) - theta) * alpha) 32) 0 0xFFFFFFFF).toNat

/-- Overload of a RUNNING group after a sample with group current `ma` (R210). -/
def State.overloadStep (m : GroupMap) (g : Nat) (ma : Int) (s : State) : State :=
  let t := thetaStep m (s.conf.rate g) ma (s.pg g).theta
  let s1 := s.onPg g (fun p => { p with theta := t, imSum := p.imSum + ma.natAbs, imCnt := p.imCnt + 1 })
  if !(s.pg g).ovl ∧ t ≥ rneDivN (m.ovlOn * 2 ^ 24) 100 then
    ((s1.onPg g (fun p => { p with ovl := true, overloads := incSat p.overloads })).pscEvent g 0x05 t none).deliverCap m g
  else if (s.pg g).ovl ∧ t < rneDivN (m.ovlOff * 2 ^ 24) 100 then
    ((s1.onPg g (fun p => { p with ovl := false })).pscEvent g 0x06 t none).deliverCap m g
  else s1

/-! ### One sample of a group (R206 to R210) -/

/-- The loss a member's frame declares, if any (R207). -/
def lossOf (l : Link) : Option Nat :=
  if l.got = some true then
    if bit l.flags 0 then some 1 else if l.pinned ≥ 3 then some 2 else none
  else if l.bad ≥ 2 then some 3 else none

/-- The losses a sample declares, member by member. -/
def State.sampleLosses (m : GroupMap) (g : Nat) (s : State) : State :=
  (List.range m.nPh).foldl (fun s h =>
    match lossOf (s.link (m.links.getD h 0xFF)) with
    | none => s
    | some c => if (s.pg g).avail h then s.losePhase m g h c else s) s

/-- A member's per-unit current as the selectors take it: 0 while it is LOST (R200). -/
def State.iphOf (s : State) (m : GroupMap) (g : Nat) : List Int :=
  (List.range m.nPh).map (fun h => if (s.pg g).avail h then (s.link (m.links.getD h 0xFF)).iph else 0)

/-- The fast limit tests this member in this sample: enabled, its frame accepted and its code in range (R206, R208). -/
def State.fastTested (s : State) (m : GroupMap) (g h : Nat) : Bool :=
  let l := s.link (m.links.getD h 0xFF)
  (s.pg g).on h && l.got = some true && l.code != 32767 && l.code != -32768

/-- The first member over the fast limit. -/
def State.overFast (s : State) (m : GroupMap) (g : Nat) : Option Nat :=
  let i := s.iphOf m g
  (List.range m.nPh).find? (fun h => s.fastTested m g h && decide ((maOfPu m (i.getD h 0)).natAbs ≥ m.iFast))

/-- The voltage and current sums of a sample (R203): from the enabled phases while RUNNING, otherwise from the available
phases whose frames were accepted. -/
def State.sumSample (m : GroupMap) (g : Nat) (ma : Int) (s : State) : State :=
  let p := s.pg g
  let on := (List.range m.nPh).filter (fun h =>
    if p.st = .running then p.on h else p.avail h && (s.link (m.links.getD h 0xFF)).got = some true)
  let v := sumI (on.map (fun h => rneShr ((s.link (m.links.getD h 0xFF)).vout * (m.baseV * 1000 : Nat)) 24))
  let acc := countOf m.nPh (fun h => (s.link (m.links.getD h 0xFF)).fresh)
  s.onPg g (fun p => { p with
    vsum := p.vsum + v, vcnt := p.vcnt + on.length, isum := p.isum + ma, icnt := p.icnt + 1, acc := p.acc + acc })

/-- PSC's work on one complete sample of a group: losses first, then the fast limit, the overload state and the sums
(Table 07-4). -/
def State.pscSample (m : GroupMap) (g : Nat) (s : State) : State :=
  let s1 := s.sampleLosses m g
  let s2 := if (s1.pg g).st = .running then
      match s1.overFast m g with
      | none => s1
      | some h => s1.tripGroup m g h
    else s1
  let ma := maOfPu m (satS32 (sumI (s2.iphOf m g)))
  let s3 := if (s2.pg g).st = .running then s2.overloadStep m g ma else s2
  s3.sumSample m g ma

/-- The load-step check on the collector result that answers a sample (R205). -/
def loadStep (m : GroupMap) (temps : List Int) (rEff : Int) (p : PGroup) : PGroup :=
  let ir := rEff.natAbs * (m.baseI * 1000) / 2 ^ 24
  let p := { p with ir := ir }
  let p := if ir ≥ p.irTick + m.stepLvl * m.iRated / 100 then { p with holdLeft := m.stepHold, shedCnt := 0 } else p
  let need := ((List.range 8).find? (fun k => decide ((k + 1) * m.iPeak * m.addLvl ≥ ir * 100))).getD 7 + 1
  addMany m temps (min need (p.nAv m.nPh) - p.nEn m.nPh) p

/-- One shed tick of a RUNNING group (R205). -/
def shedTick (m : GroupMap) (temps : List Int) (p : PGroup) : PGroup :=
  let im := rneDivN p.imSum p.imCnt
  let ne := p.nEn m.nPh
  let p := { p with irTick := p.ir, holdLeft := p.holdLeft - 1, imSum := 0, imCnt := 0 }
  let add := if ne < p.nAv m.nPh ∧ im * 100 ≥ m.addLvl * ne * m.iPeak then p.addCnt + 1 else 0
  let shed := if m.shedLvl > 0 ∧ ne > m.minPh ∧ p.holdLeft = 0 ∧ im * 100 ≤ m.shedLvl * (ne - 1) * m.iPeak then
      p.shedCnt + 1 else 0
  if add ≥ m.addDwell then addOne m temps { p with addCnt := 0, shedCnt := 0 }
  else if shed ≥ m.shedDwell then shedOne m temps { p with addCnt := add, shedCnt := 0 }
  else { p with addCnt := add, shedCnt := shed }

/-- Meaning of SHED_TICK (R205). -/
def execShedTick (group : Nat) (s : State) : Res :=
  let s := s.start
  .next (match s.conf.group group with
    | none => s
    | some m => if (s.pg group).st = .running then s.onPg group (shedTick m (s.temps m)) else s)

/-! ### Retries and latches (R211, R212) -/

/-- The retry timer of a TRIPPED group expires. -/
def groupRetry (g : Nat) (s : State) : State :=
  match s.conf.group g with
  | none => s
  | some m =>
    let p := s.pg g
    if p.mode ≠ .tripped ∨ p.latch then s
    else if p.retries < m.retryMax then
      let s1 := s.onPg g (fun p => { p with retries := p.retries + 1, mode := .running, retryAt := none, frozen := none })
      ((s1.pscEvent g 0x07 (p.retries + 1) (some 0x0404)).journalGroup g).refreshGroup m g
    else ((s.lockGroup g 1).journalGroup g).refreshGroup m g

/-- Meaning of GROUP_RETRY_TIMER (R211). -/
def execGroupRetryTimer (group : Nat) (s : State) : Res := .next (groupRetry group s.start)

/-- retry_clear seconds in RUNNING have passed (R211); a latch report freezes them (R212). -/
def groupRetryClear (g : Nat) (s : State) : State :=
  if (s.pg g).st = .running ∧ !(s.pg g).latch then (s.onPg g (fun p => { p with retries := 0 })).journalGroup g else s

/-- Meaning of GROUP_RETRY_CLEAR (R211). -/
def execGroupRetryClear (group : Nat) (s : State) : Res := .next (groupRetryClear group s.start)

/-- TCM's latch report for a group reaches PSC (R212). -/
def latchReport (g : Nat) (set : Bool) (s : State) : State :=
  let p := s.pg g
  if set = p.latch then s
  else if set then s.onPg g (fun p => { p with
    latch := true, frozen := p.retryAt.map (fun t => t - s.sup.uptime), retryAt := none })
  else match s.conf.group g with
    | none => s.onPg g (fun p => { p with latch := false, frozen := none })
    | some m => s.onPg g (fun p =>
        if p.mode = .tripped then startRetry s.sup.uptime m { p with latch := false }
        else { p with latch := false, frozen := none })

/-- The Kiln's hold reaches PSC (R190): the group is HELD. -/
def State.holdGroup (g : Nat) (s : State) : State :=
  match s.conf.group g with
  | none => s
  | some m => (s.onPg g (fun p => { p with mode := .held })).refreshGroup m g

/-! ### Commands (Table 07-6) -/

/-- The 64 bytes of a GROUP_STATUS record (Table 07-7). -/
def groupRecord (g : Nat) (s : State) : List Byte :=
  let p := s.pg g
  match s.conf.group g with
  | none => zeros 64
  | some m =>
    let left := match p.retryAt with
      | some t => (t - s.sup.uptime + 999) / 1000
      | none => (p.frozen.getD 0 + 999) / 1000
    le 1 p.st.code ++ le 1 p.cause ++ le 1 (maskOf m.nPh p.avail) ++ le 1 (maskOf m.nPh p.on) ++ le 1 p.retries ++
      le 1 (b2n p.ovl + 2 * b2n p.latch + 4 * b2n (p.holdLeft != 0) + 8 * b2n s.conf.bisque) ++ zeros 2 ++
      le 4 p.sent ++ le 4 (clampOf s.conf.bisque m p) ++ le 4 p.theta ++ le 4 (s.spa.inp.volt.getD g 0) ++ le 4 left ++
      p.ilv.flatMap (le 2) ++ p.lost.flatMap (le 1) ++ zeros 12

/-- Meaning of GROUP_STATUS (R199). -/
def execGroupStatus (q : Sqe) (s : State) : Res :=
  .next (hostCmd 0x24 q [(sd q 1 < 64, 1, 0), (64 ≤ sd q 4, 4, 0)]
    (fun s => s.replyDone q (groupRecord (sd q 1) s) 64) s.start)

/-- Meaning of GROUP_COUNTS (R214). -/
def execGroupCounts (q : Sqe) (s : State) : Res :=
  let n := bits (sd q 6) 6 0
  .next (hostCmd 0x26 q (rangeParams q n 64 16)
    (fun s => s.replyDone q ((List.range n).flatMap (fun i =>
      let p := s.pg (sd q 1 + i)
      le 4 p.fastTrips ++ le 4 p.senseLoss ++ le 4 p.linkLoss ++ le 4 p.overloads)) n) s.start)

/-- A masked member may be restored (R214): its last four samples are valid, and its link has reached UP (R236). -/
def State.mayRestore (s : State) (m : GroupMap) (g h : Nat) : Bool :=
  let l := s.link (m.links.getD h 0xFF)
  !(s.pg g).avail h && decide (l.good ≥ 4) && l.st == .up

/-- The lane of a group released from HELD or LOCKED: one in HOLD becomes QUIET (R190), and its reference is 0 until SPA grants
(R15). -/
def State.unholdLane (g : Nat) (s : State) : State :=
  s.onLane g (fun k => { k with st := if k.st = .hold then .quiet else k.st, bankRef := 0, oldRef := 0 })

/-- GROUP_RELEASE (R214). -/
def groupRelease (q : Sqe) (s : State) : State :=
  let g := sd q 1
  let d := sd q 6
  match s.conf.group g with
  | none => s.done q stBAD_OBJECT 0
  | some m =>
    let p := s.pg g
    if bits d 7 0 ≥ 2 ^ m.nPh then s.done q stBAD_PARAM (badField 6 0)
    else
      let hs := (List.range m.nPh).filter (fun h => bit d h)
      let lost1 := (List.range 8).map (fun h => if hs.contains h then 0 else p.lost.getD h 0)
      let av1 := countOf m.nPh (fun h => lost1.getD h 0 == 0)
      if p.latch || hs.any (fun h => !s.mayRestore m g h) || (bit d 8 && p.mode != .held && p.mode != .locked) ||
          (bit d 8 && p.mode = .locked && av1 == 0) then s.done q stBAD_STATE 0
      else
        let p1 : PGroup := { p with
          lost := lost1
          en := (List.range 8).map (fun h => !hs.contains h && p.on h)
          mode := if bit d 8 then (if av1 = 0 then p.mode else .running) else p.mode
          retries := if bit d 9 || (bit d 8 && p.mode = .locked) then 0 else p.retries }
        let s1 := (hs.foldl (fun s h => s.onLink (m.links.getD h 0xFF) (fun l => { l with bad := 0, pinned := 0 })) s).onPg g
          (fun _ => p1.setIlv m)
        let s2 := if bit d 8 then s1.unholdLane g else s1
        let s3 := if bit d 8 && p.mode = .held && av1 == 0 then s2.lockGroup g 2 else s2
        let s4 := (s3.journalGroup g).refreshGroup m g
        s4.done q stDONE ((s4.pg g).st.code + 256 * maskOf m.nPh (s4.pg g).avail)

/-- Meaning of GROUP_RELEASE (R214). -/
def execGroupRelease (q : Sqe) (s : State) : Res :=
  .next (hostCmd 0x25 q
    [(sd q 1 < 64, 1, 0), (bits (sd q 6) 9 0 != 0, 6, 0), (bits (sd q 6) 31 10 == 0, 6, 10)] (groupRelease q) s.start)

end Sys2Proof.Machine
end

