-- ==== Sys2Proof/Machine/Tcm.lean ====
section
/-! DEFINITION. Thermal Cones and the Aqaux loop (R269 to R291): conversions, readings, levels, caps, latches, pumps and
fans. -/

namespace Sys2Proof.Machine

open Sys2Proof

/-! ### Targets and times -/

/-- grace in ms; 0 selects 2,000 (Table 10-2). -/
def SensorRec.graceMs (r : SensorRec) : Nat := if r.grace = 0 then 2000 else r.grace

/-- t_stop in ms; 0 selects 1,000 (Table 10-2). -/
def SensorRec.stopMs (r : SensorRec) : Nat := if r.tStop = 0 then 1000 else r.tStop

/-- The group of a port's OUTLET edge. -/
def State.portGroup (s : State) (p : Nat) : Option Nat := (farOf s.spa.ledger false p).map Prod.fst

/-- A sensor's associated groups (R277). -/
def State.assoc (s : State) (r : SensorRec) : List Nat :=
  match r.target with
  | 1 => [r.object]
  | 2 => (s.portGroup r.object).toList
  | 3 => (List.range 64).filter (fun g => (s.conf.group g).isSome)
  | _ => []

/-- The power a group carries in the plan that crossed the last gate (R279): the larger of its grant and its discharge, which the plan
holds as one signed number. -/
def State.carried (s : State) (g : Nat) : Nat := (s.spa.plan.grants.getD g 0).natAbs

/-- stop(e) at an uptime (R279). -/
def Stop.cap (t : Stop) (g now : Nat) : Nat :=
  let e := now - t.start
  if e < t.ms * 1000 then rneDivN ((look g t.p0).getD 0 * (t.ms * 1000 - e)) (t.ms * 1000) else 0

/-- Milliseconds an orderly stop has left at an uptime. -/
def Stop.left (t : Stop) (now : Nat) : Nat := (t.start + t.ms * 1000 - now + 999) / 1000

/-! ### Conversions and readings (R272 to R274) -/

/-- A conversion enters a sensor: flagged with a cause, or good (R272). -/
def Sens.convert (code : Int) (flag : Option Nat) (x : Sens) : Sens :=
  match flag with
  | some c =>
    let x := { x with raw := some code, nFlag := x.nFlag + 1, nOk := 0, absent := false }
    if !x.broken && 3 ≤ x.nFlag then { x with broken := true, cause := c } else x
  | none =>
    let x := { x with raw := some code, nFlag := 0, nOk := x.nOk + 1, good := (code :: x.good).take 4, absent := false }
    if x.broken && 10 ≤ x.nOk then { x with broken := false } else x

/-- Why a conversion is flagged, if it is (R272). -/
def flagCause (code : Int) (selfTestFail terminal : Bool) : Option Nat :=
  if terminal && code == 0x7FFF then some 4
  else if selfTestFail then some 3
  else if code > 25000 then some 1
  else if code < -6000 then some 2
  else none

/-- One sensor's conversion of a tick (Table 10-1). A terminal sensor whose link is not UP or in no configured group is
absent (R273). -/
def State.converted (s : State) (raw : List Conversion) (n : Nat) : Sens :=
  let x := s.sens n
  if n < 88 then
    match raw[n]? with
    | none => x
    | some c => x.convert c.code (flagCause c.code (64 ≤ n && c.selfTestFail) false)
  else
    let l := s.link (n - 88)
    if l.st = .up && (s.conf.memberOf (n - 88)).isSome then x.convert l.temp (flagCause l.temp false true)
    else { x with absent := true }

/-- A sensor's reading from its own conversions (R273). -/
def Sens.own (x : Sens) (r : SensorRec) : Option Int :=
  if x.absent || x.broken || x.good.isEmpty then none else some (rneDiv (sumI x.good) x.good.length + r.trim)

/-- The reading of a sensor and whether it is substituted (R273, R274); `all` are the sensors after this tick's conversions. -/
def readingOf (c : Cfg) (cls : Nat) (all : List Sens) (n : Nat) : Option Int × Bool :=
  let x := all.getD n (Sens.reset false false)
  let r := c.sensor n
  if x.absent then (none, false)
  else if !x.broken then (x.own r, false)
  else if cls = 1 then
    match (all[r.neighbour]?).bind (fun y => y.own (c.sensor r.neighbour)) with
    | some v => (some (v + r.nbOffset), true)
    | none => (some (r.th3 + 100), false)
  else (some (r.th3 + 100), false)

/-! ### Cones (R275 to R280) -/

/-- One Cone of a sensor at a tick: whether it is entered, and its two dwell counts. -/
def coneStep (th : Int) (off atOnce : Bool) (hyst : Nat) (v : Int) (c : Bool × Nat × Nat) : Bool × Nat × Nat :=
  let (inC, up, dn) := c
  if off then (false, 0, 0)
  else if inC then
    let dn := if v < th - hyst then dn + 1 else 0
    if 2 ≤ dn ∨ (atOnce ∧ v < th - hyst) then (false, 0, 0) else (true, 0, dn)
  else
    let up := if th ≤ v then up + 1 else 0
    if 2 ≤ up ∨ (atOnce ∧ th ≤ v) then (true, 0, 0) else (false, up, 0)

/-- The four Cones of a sensor at a tick, and the ticks below th3 − hyst (R275, R283). -/
def Sens.cones (r : SensorRec) (atOnce : Bool) (x : Sens) : Sens :=
  match x.reading with
  | none => { x with inCone := List.replicate 4 false, up := List.replicate 4 0, dn := List.replicate 4 0, below := 0 }
  | some v =>
    let ths : List (Int × Bool) := [(r.th1, r.th1 == 0x7FFF), (r.th2, r.th2 == 0x7FFF), (r.th3, false), (r.th4, false)]
    let cs := (List.range 4).map (fun i =>
      let t := ths.getD i (0, true)
      coneStep t.1 t.2 atOnce r.hyst v (x.inCone.getD i false, x.up.getD i 0, x.dn.getD i 0))
    { x with inCone := cs.map Prod.fst, up := cs.map (fun c => c.2.1), dn := cs.map (fun c => c.2.2)
             below := if v < r.th3 - r.hyst then x.below + 1 else 0 }

/-- The level (R275). -/
def Sens.level (x : Sens) : Nat := (List.range 4).foldl (fun a i => if x.inCone.getD i false then i + 1 else a) 0

/-- Cone `c` is newly entered between two ticks. -/
def entered (old x : Sens) (c : Nat) : Bool := x.inCone.getD (c - 1) false && !old.inCone.getD (c - 1) false

/-- Latches, orderly stop, effective level and grace of a sensor whose Cones have been judged (R276 to R279). -/
def Sens.settle (r : SensorRec) (now : Nat) (p0 : List (Nat × Nat)) (x old : Sens) : Sens :=
  let first3 := entered old x 3 && !x.l3
  let l3 := x.l3 || entered old x 3
  let l4 := x.l4 || entered old x 4
  let eff := max x.level (if l4 then 4 else if l3 then 3 else 0)
  { x with
    l3 := l3, l4 := l4, eff := eff
    stop := if first3 then some ⟨now, r.stopMs, p0⟩ else if l3 || l4 then x.stop else none
    tripped := (l3 || l4) && x.tripped && !first3
    grace := if eff < 2 then none else some (x.grace.getD now)
    hard2 := x.hard2 && decide (2 ≤ eff) }

/-- The slope of a sensor (R280): the change over 100 ticks; none without a reading 100 ticks ago. -/
def Sens.rise (x : Sens) : Option Int :=
  match x.reading, x.hist.getD 100 none with
  | some v, some w => some (v - w)
  | _, _ => none

/-- The time-to-trip test is run at this tick (R280). -/
def Sens.tested (x : Sens) (now : Nat) : Bool :=
  x.eff == 3 && !x.broken && !x.subst && !x.tripped && x.reading.isSome &&
    (match x.stop with | none => false | some t => decide (0 < t.left now))

/-- The time-to-trip test fails (R280). -/
def Sens.fails (r : SensorRec) (now : Nat) (x : Sens) : Bool :=
  let v := x.reading.getD 0
  let left := match x.stop with | none => 0 | some t => t.left now
  x.tested now && (decide (r.th4 ≤ v) || (decide (0 < x.slope) && decide ((r.th4 - v) * 1000 < x.slope * left)))

/-- The flags byte of a sensor (Table 10-10, kind 0). -/
def Sens.flags (x : Sens) : Nat :=
  b2n x.l3 + 2 * b2n x.l4 + 4 * b2n x.broken + 8 * b2n x.subst + 16 * b2n x.hard2 + 32 * b2n x.tripped + 64 * b2n x.absent

/-- A TCM event, with its fault record if it has one (Table 10-11). -/
def State.tcmEvent (src sub arg : Nat) (fault : Option Nat) (v : Option Int) (s : State) : State :=
  let s1 := (s.onTcm (fun t => { t with lastEvent := some (src, sub, arg % 256) })).postEvent .pf0 64 sub arg src
  match fault with
  | none => s1
  | some code => s1.faultRec 4 code src arg (ofInt 32 (v.getD 0))

/-- The slope taken, then the time-to-trip test of one sensor. Where the test runs before there is a reading 100 ticks old,
the slope is an open value. -/
def State.tripTest (r : SensorRec) (n : Nat) (s : State) : State :=
  let now := s.sup.uptime
  let x := s.sens n
  let s1 := match x.rise with
    | some v => s.onSens n (fun x => { x with slope := v })
    | none =>
      if x.tested now then s.took.onSens n (fun x => { x with slope := Config.freeInt s.free })
      else s.onSens n (fun x => { x with slope := 0 })
  let y := s1.sens n
  if y.fails r now then
    let gap := max 0 (r.th4 - y.reading.getD 0)
    let ms := if 0 < y.slope then (gap * 1000 / y.slope).toNat else 0
    (s1.onSens n (fun x => { x with tripped := true })).tcmEvent n 0x04 ms (some 0x0703) y.reading
  else s1

/-- One enabled sensor at a tick; `all` are the sensors after this tick's conversions, `old` the sensor before it. -/
def State.senseTick (all : List Sens) (n : Nat) (s : State) : State :=
  let r := s.conf.sensor n
  let old := s.sens n
  let x := all.getD n old
  let v := readingOf s.conf s.sup.cls all n
  let x := { x with reading := v.1, subst := v.2, hist := (v.1 :: x.hist).take 101 }
  let x := x.cones r (x.broken != old.broken)
  let p0 := (s.assoc r).map (fun g => (g, s.carried g))
  let x := x.settle r s.sup.uptime p0 old
  let s1 := s.onSens n (fun _ => x)
  let s2 := if x.broken != old.broken then
      s1.tcmEvent n 0x02 (x.cause * 256 + b2n x.broken) (if x.broken then some 0x0704 else none) x.reading
    else s1
  let s2 := if x.broken then s2 else s2.onSens n (fun x => { x with cause := 0 })
  let arg := x.flags * 65536 + old.eff * 256 + x.eff
  let s3 := if x.eff ≠ old.eff then s2.tcmEvent n 0x01 arg none x.reading else s2
  let s4 := if entered old x 3 then s3.faultRec 4 0x0701 n arg (ofInt 32 (x.reading.getD 0)) else s3
  let s5 := if entered old x 4 then s4.faultRec 4 0x0702 n arg (ofInt 32 (x.reading.getD 0)) else s4
  s5.tripTest r n

/-- A sensor whose record is disabled: nothing but its latches stays. -/
def Sens.idle (x : Sens) : Sens := { Sens.reset x.l3 x.l4 with eff := 0 }

/-! ### Caps (R277 to R281, R289) -/

/-- What a sensor contributes to a group: a soft cap and a hard cap. -/
def State.contribution (s : State) (n g : Nat) : Nat × Nat :=
  let r := s.conf.sensor n
  let x := s.sens n
  let cap2 := if r.target = 3 then
      (rneShr (((nodeOf s.spa.ledger 2 g).map Prod.fst).getD 0 * (r.cap2 % 65536) : Nat) 16).toNat
    else r.cap2
  if x.eff = 2 then (if x.hard2 then (noCap, cap2) else (cap2, noCap))
  else if x.eff = 3 ∧ x.tripped = false then
    (noCap, match x.stop with | none => 0 | some t => t.cap g s.sup.uptime)
  else if 3 ≤ x.eff then (noCap, 0)
  else (noCap, noCap)

/-- A port has a flow fault: one of an enabled record (R287, R289). -/
def State.flowFault (s : State) (p : Nat) : Bool := (s.conf.aq p).enable && (s.aq p).fault

/-- A group's caps as TCM has them now: soft, hard, and the sensor that sets the hard cap (Table 10-10, kind 1). -/
def State.tcmCaps (s : State) (g : Nat) : Nat × Nat × Nat :=
  let base := (List.range 152).foldl (fun (a : Nat × Nat × Nat) n =>
    let r := s.conf.sensor n
    if r.enable && decide (2 ≤ (s.sens n).eff) && (s.assoc r).contains g then
      let c := s.contribution n g
      (min a.1 c.1, if c.2 < a.2.1 then (c.2, n) else a.2)
    else a) (noCap, noCap, 0xFFFF)
  (List.range 16).foldl (fun (a : Nat × Nat × Nat) p =>
    if s.flowFault p && s.portGroup p == some g && decide ((s.conf.aq p).capNoflow < a.2.1) then
      (a.1, (s.conf.aq p).capNoflow, 0xFFFF)
    else a) base

/-- A port of a group has a flow fault. -/
def State.flowFaulted (s : State) (g : Nat) : Bool :=
  (List.range 16).any (fun p => s.flowFault p && s.portGroup p == some g)

/-- The caps a snapshot receives (R281). -/
def State.deliverCaps (s : State) : State :=
  let caps := (List.range 64).map s.tcmCaps
  s.onSpa (fun p => { p with inp := { p.inp with soft := caps.map Prod.fst, hard := caps.map (fun c => c.2.1) } })

/-! ### Latch reports, holds and the state journal (R282, R284) -/

/-- TCM's latch report for a group (R282). -/
def State.tcmReport (s : State) (g : Nat) : Bool :=
  (List.range 152).any (fun n =>
    let r := s.conf.sensor n
    r.enable && (s.sens n).latched && (s.assoc r).contains g)

/-- A latch is set on an enabled sensor of a load-switch channel (R282). -/
def State.latchOn (s : State) (c : Nat) : Bool :=
  (List.range 152).any (fun n =>
    let r := s.conf.sensor n
    r.enable && r.lsw == c && (s.sens n).latched)

/-- TCM's hold of each load-switch channel brought up to date (R282, R301). -/
def State.tcmHolds (s : State) : State := (List.range 24).foldl (fun s c => s.holdCh c (s.latchOn c)) s

/-- The holds that begin; those that end stay until `tcmHolds`. -/
def State.tcmHoldsBegin (s : State) : State :=
  (List.range 24).foldl (fun s c => if s.latchOn c then s.holdCh c true else s) s

/-- The latches that are set, as the journal holds them. -/
def Tcm.latches (t : Tcm) : List (Nat × Bool × Bool) :=
  (List.range t.sens.length).filterMap (fun n =>
    let x := t.sens.getD n (Sens.reset false false)
    if x.latched then some (n, x.l3, x.l4) else none)

/-- The latches written to the state journal when they differ from those before (R284). -/
def State.journalLatches (old : List (Nat × Bool × Bool)) (s : State) : State :=
  if s.tcm.latches = old then s else s.sjWrite (fun j => { j with latches := s.tcm.latches })

/-- The TCM registers taken at a tick (R291). -/
def State.tcmShow (s : State) : State :=
  let caps := (List.range 64).map s.tcmCaps
  let mask (f : Nat × Nat × Nat → Nat) : Nat := maskOf 64 (fun g => f (caps.getD g (noCap, noCap, 0)) != noCap)
  s.onTcm (fun t => { t with
    regs := tcmRegs t.sens t.aq t.lastEvent s.sup.cls (mask (fun c => c.1)) (mask (fun c => c.2.1)) })

/-! ### The Aqaux loop (R286 to R289) -/

/-- A channel ordered on or off; 0xFF is none. -/
def State.aqOrder (ch : Nat) (on : Bool) (s : State) : State := if ch < 24 then s.orderCh ch (b2n on) 0 else s

/-- The loop runs (R286). -/
def State.aqRuns (s : State) : Bool := s.sup.st = .bisque || s.sup.st = .service

/-- One port's loop at a tick (R286). -/
def State.aqTick (p : Nat) (s : State) : State :=
  let r := s.conf.aq p
  let a := s.aq p
  if !r.enable || !s.aqRuns then s.onAq p (fun a => { a with pump := false, fan := false, runLeft := 0, runOn := false })
  else
    let t := (s.sens r.cable).reading
    let hot (th : Int) : Bool := match t with | none => false | some v => decide (th ≤ v)
    let cool : Bool := match t with | none => false | some v => decide (v < r.fanOff)
    let level := (List.range 152).foldl (fun m n =>
      let x := s.conf.sensor n
      if x.enable && x.target == 2 && x.object == p then max m (s.sens n).eff else m) 0
    let force := (a.force && s.sup.st = .service) || decide (2 ≤ level)
    let st := (s.prt p).st
    let demand := force || st = .plugged || st = .energy || hot r.pumpOn || a.fan
    let pump := demand || decide (0 < a.runLeft)
    let fan := if force || hot r.fanOn then true else if cool then false else a.fan
    let s1 := s.onAq p (fun a => { a with
      pump := pump, fan := fan, runOn := pump && !demand
      runLeft := if demand then r.runOn * 1000 else a.runLeft - 10
      pumpSince := if pump && !a.pump then s.sup.uptime else a.pumpSince })
    let s2 := if pump != a.pump then s1.aqOrder r.pump pump else s1
    if fan != a.fan then s2.aqOrder r.fan fan else s2

/-- One port's flow second (R287). -/
def State.flowSecond (pulses : List Nat) (p : Nat) (s : State) : State :=
  let r := s.conf.aq p
  if !r.enable || 16 ≤ r.flow then s
  else
    let n := pulses.getD r.flow 0
    let flow := rneDivN (n * 600) r.kFlow
    let s1 := s.onAq p (fun a => { a with
      flow := flow, low := if flow < r.flowMin then a.low + 1 else 0, ok := if flow < r.flowMin then 0 else a.ok + 1 })
    let a := s1.aq p
    if !a.fault && decide (2 ≤ a.low) && a.pump && decide (r.settle * 1000000 ≤ s.sup.uptime - a.pumpSince) then
      (s1.onAq p (fun a => { a with fault := true })).tcmEvent p 0x05 (flow % 65536 * 65536 + 1) (some 0x0705)
        (s.sens r.cable).reading
    else if a.fault && decide (2 ≤ a.ok) then
      (s1.onAq p (fun a => { a with fault := false })).tcmEvent p 0x05 (flow % 65536 * 65536) none none
    else s1

/-- Every second (R287). -/
def flowSeconds (pulses : List Nat) (s : State) : State :=
  if !s.siteUp then s
  else
    let s1 := s.onTcm (fun t => { t with
      pulses := (List.range 16).map (fun i => (t.pulses.getD i 0 + pulses.getD i 0) % 2 ^ 32) })
    (List.range 16).foldl (fun s p => s.flowSecond pulses p) s1

/-- Meaning of FLOW_SECOND (R287). -/
def execFlowSecond (pulses : List Nat) (s : State) : Res := .next (flowSeconds pulses s.start)

/-! ### The tick -/

/-- A tick: conversions, then the sensors in ascending number, then journal, holds, and the Aqaux loops. -/
def thermalTick (raw : List Conversion) (s : State) : State :=
  if !s.siteUp then s
  else
    let old := s.tcm.latches
    let all := (List.range 152).map (s.converted raw)
    let s1 := (List.range 152).foldl (fun s n =>
      if (s.conf.sensor n).enable then s.senseTick all n else s.onSens n Sens.idle) s
    let s2 := (s1.journalLatches old).tcmHolds
    ((List.range 16).foldl (fun s p => s.aqTick p) s2).tcmShow

/-- Meaning of THERMAL_TICK (R272 to R282, R286). -/
def execThermalTick (raw : List Conversion) (s : State) : Res := .next (thermalTick raw s.start)

/-- A grace timer reaches its time: cap2 becomes hard (R278). -/
def graceExpiry (n : Nat) (s : State) : State :=
  let r := s.conf.sensor n
  let x := s.sens n
  if r.enable ∧ 2 ≤ x.eff ∧ x.hard2 = false then
    (s.onSens n (fun x => { x with hard2 := true })).tcmEvent n 0x03 r.graceMs none none
  else s

/-- Meaning of GRACE_EXPIRY (R278). -/
def execGraceExpiry (sensor : Nat) (s : State) : Res := .next (graceExpiry sensor s.start)

/-- Meaning of LATCH_REPORT (R212, R282): the report TCM now holds for the group reaches PSC. -/
def execLatchReport (group : Nat) (s : State) : Res :=
  let s := s.start
  .next (if group < 64 then latchReport group (s.tcmReport group) s else s)

/-- A FORCE_ON time runs out (R288). -/
def aqForceExpiry (p : Nat) (s : State) : State :=
  s.onAq p (fun a => if a.until_.isSome then { a with force := false, until_ := none } else a)

/-- Meaning of AQAUX_FORCE_EXPIRY (R288). -/
def execAqauxForceExpiry (port : Nat) (s : State) : Res := .next (aqForceExpiry port s.start)

/-! ### Commands (Table 10-9, R290) -/

/-- Meaning of AQAUX_SET (R288). -/
def execAqauxSet (q : Sqe) (s : State) : Res :=
  let p := sd q 1
  let d := sd q 6
  .next (hostCmd 0x62 q [(p < 16, 1, 0), (bits d 15 1 == 0, 6, 1), (bits d 31 16 ≤ 3600, 6, 16)]
    (fun s =>
      if !(s.conf.aq p).enable then s.done q stBAD_OBJECT 0
      else (s.onAq p (fun a => { a with
        force := bit d 0
        until_ := if bit d 0 && bits d 31 16 != 0 then some (s.sup.uptime + bits d 31 16 * 1000000) else none })).done q
          stDONE 0) s.start)

/-- A sensor's latch may be cleared (R283). -/
def State.mayClear (s : State) (n : Nat) : Bool :=
  let x := s.sens n
  (s.conf.sensor n).enable && (!x.broken || x.subst) && decide (2 ≤ x.below)

/-- A sensor's latches clear; its level follows at the next tick (R283). -/
def State.unlatch (n : Nat) (s : State) : State :=
  let x := s.sens n
  (s.onSens n (fun x => { x with l3 := false, l4 := false })).tcmEvent n 0x06 x.eff (some 0x0706) x.reading

/-- LATCH_CLEAR (R283, R290). -/
def latchClear (q : Sqe) (s : State) : State :=
  let n := sd q 1
  let old := s.tcm.latches
  if n = 0xFFFFFFFF then
    let ns := (List.range 152).filter (fun i => (s.sens i).latched && s.mayClear i)
    let left := countOf 152 (fun i => (s.sens i).latched && !s.mayClear i)
    (((ns.foldl (fun s i => s.unlatch i) s).journalLatches old).tcmHolds).done q stDONE (ns.length + 65536 * left)
  else if !(s.conf.sensor n).enable then s.done q stBAD_OBJECT 0
  else if !(s.sens n).latched then s.done q stDONE_NOTE 0
  else if !s.mayClear n then s.done q stBAD_STATE 0
  else (((s.unlatch n).journalLatches old).tcmHolds).done q stDONE 1

/-- Meaning of LATCH_CLEAR (R283). -/
def execLatchClear (q : Sqe) (s : State) : Res :=
  .next (hostCmd 0x61 q [(sd q 1 < 152 || sd q 1 == 0xFFFFFFFF, 1, 0)] (latchClear q) s.start)

/-- The 16 bytes of a sensor's record (Table 10-10, kind 0). -/
def sensorRecord (n : Nat) (s : State) : List Byte :=
  let x := s.sens n
  let now := s.sup.uptime
  let grace := match x.grace with
    | none => 0
    | some t => if x.hard2 then 0 else (t + (s.conf.sensor n).graceMs * 1000 - now + 999) / 1000
  let stop := match x.stop with | none => 0 | some t => if x.tripped then 0 else t.left now
  leS 2 (x.reading.getD (-32768)) ++ leS 2 (x.raw.getD (-32768)) ++ le 1 x.eff ++ le 1 x.flags ++ le 1 x.cause ++ [0] ++
    le 2 grace ++ le 2 stop ++ leS 4 x.slope

/-- The 16 bytes of a group's record (Table 10-10, kind 1). -/
def capRecord (g : Nat) (s : State) : List Byte :=
  let c := s.tcmCaps g
  le 4 c.1 ++ le 4 c.2.1 ++ le 1 (b2n (s.tcmReport g) + 2 * b2n (s.flowFaulted g)) ++ [0] ++ le 2 c.2.2 ++ zeros 4

/-- The 16 bytes of a port's record (Table 10-10, kind 2). -/
def aqauxRecord (p : Nat) (s : State) : List Byte :=
  let a := s.aq p
  let r := s.conf.aq p
  let left := match a.until_ with | none => 0 | some t => (t - s.sup.uptime + 999999) / 1000000
  le 1 (b2n a.force) ++ le 1 (b2n a.pump + 2 * b2n a.fan + 4 * b2n a.fault + 8 * b2n a.runOn) ++ le 2 a.flow ++ le 4 left ++
    le 4 (if r.flow < 16 then s.tcm.pulses.getD r.flow 0 else 0) ++ zeros 4

/-- How many objects a kind of THERMAL_STATUS has. -/
def thermalTotal (kind : Nat) : Nat := match kind with | 0 => 152 | 1 => 64 | _ => 16

/-- THERMAL_STATUS (R290). -/
def thermalStatus (q : Sqe) (s : State) : State :=
  let kind := bits (sd q 6) 1 0
  let n := bits (sd q 6) 15 8
  let objs := (List.range n).map (fun i => sd q 1 + i)
  let bad := objs.any (fun o => match kind with
    | 0 => !(s.conf.sensor o).enable
    | 2 => !(s.conf.aq o).enable
    | _ => false)
  if bad then s.done q stBAD_OBJECT 0
  else s.replyDone q (objs.flatMap (fun o => match kind with
    | 0 => sensorRecord o s
    | 1 => capRecord o s
    | _ => aqauxRecord o s)) n

/-- Meaning of THERMAL_STATUS (R290). -/
def execThermalStatus (q : Sqe) (s : State) : Res :=
  let kind := bits (sd q 6) 1 0
  let n := bits (sd q 6) 15 8
  .next (hostCmd 0x60 q
    [(sd q 1 < thermalTotal kind, 1, 0), (16 * n ≤ sd q 4, 4, 0), (kind != 3, 6, 0),
     (1 ≤ n && sd q 1 + n ≤ thermalTotal kind, 6, 8)] (thermalStatus q) s.start)

end Sys2Proof.Machine
end

