-- ==== Sys2Proof/Machine/Bse.lean ====
section
/-! DEFINITION. Buffer string estimation (R389 to R408): charge count, rests, drift, impedance and capacity learning,
limits, warnings and persistence. -/

namespace Sys2Proof.Machine

open Sys2Proof

/-! ### One part changed, records and events -/

/-- BSE changed. -/
def State.onBse (f : Bse → Bse) (s : State) : State := { s with bse := f s.bse }

/-- A string. -/
def State.str (s : State) (j : Nat) : Str := s.bse.strs.getD j Str.reset

/-- One string changed. -/
def State.onStr (j : Nat) (f : Str → Str) (s : State) : State := s.onBse (fun b => { b with strs := upd b.strs j f })

/-- A BSE event (Table 15-5). -/
def State.bseEvent (src sub arg : Nat) (s : State) : State :=
  (s.onBse (fun b => { b with lastEvent := some (src, sub, arg % 256) })).postEvent .pf0 68 sub arg src

/-- rest_max in hours; 0 selects 24. -/
def StringRec.restHours (r : StringRec) : Nat := if r.restMax = 0 then 24 else r.restMax

/-- drift in 0.01 % per hour; 0 selects 10. -/
def StringRec.driftRate (r : StringRec) : Nat := if r.drift = 0 then 10 else r.drift

/-- eta; 0 selects 65,208. -/
def StringRec.etaOf (r : StringRec) : Nat := if r.eta = 0 then 65208 else r.eta

/-- Milliseconds of an hour: mA·ms of a mAh. -/
def msHour : Nat := 3600000

/-! ### State of charge (R392 to R394) -/

/-- soc in 0.01 %. -/
def Str.soc (x : Str) : Nat := rneDivN (x.q * 10000) (x.cap * msHour)

/-- The charge count of a soc. -/
def qOf (soc cap : Nat) : Nat := rneDivN (soc * (cap * msHour)) 10000

/-- u in 0.01 % (R394, R404, R407). -/
def Str.unc (r : StringRec) (x : Str) : Nat :=
  if x.anch && x.rested then min (100 + r.driftRate * (x.since / msHour)) 2500 else 2500

/-- soc_ocv: the open-circuit voltage table at a voltage, by linear interpolation, held at its ends (R393). -/
def ocvSoc (ocv : List Nat) (v : Int) : Nat :=
  if v ≤ ocv.getD 0 0 then 0
  else if (ocv.getD 10 0 : Int) ≤ v then 10000
  else
    let k := (List.range 10).foldl (fun a i => if (ocv.getD i 0 : Int) ≤ v then i else a) 0
    let lo : Int := ocv.getD k 0
    let hi : Int := ocv.getD (k + 1) 0
    1000 * k + (rneDiv (1000 * (v - lo)) (hi - lo).toNat).toNat

/-! ### The impedance table (R397) -/

/-- A temperature within the table's rows, in 0.01 K above −10 °C. -/
def rowPos (t : Int) : Nat := (clampI t (-1000) 6000 + 1000).toNat

/-- The table's value at a temperature and soc, bilinear, times `k`: 10 for µΩ, 1 for 10 µΩ. -/
def r0At (k : Nat) (tab : List Nat) (t : Int) (soc : Nat) : Nat :=
  let p := rowPos t
  let row := min (p / 1000) 6
  let ft := p - 1000 * row
  let col := min (soc / 1000) 9
  let fs := soc - 1000 * col
  let c (i j : Nat) : Nat := tab.getD (11 * i + j) 0
  let mix (i : Nat) : Nat := (1000 - fs) * c i col + fs * c i (col + 1)
  rneDivN (k * ((1000 - ft) * mix row + ft * mix (row + 1))) 1000000

/-- One learning step at a current step (R397). -/
def learnR0 (t : Int) (soc : Nat) (dv di : Int) (tab : List Nat) : List Nat :=
  let r := if di < 0 then rneDiv (-dv * 100000) di.natAbs else rneDiv (dv * 100000) di.natAbs
  let i := 11 * rneDivN (rowPos t) 1000 + rneDivN soc 1000
  let c := tab.getD i 0
  if r ≤ 0 ∨ r > 4 * c then tab else tab.set i ((c : Int) + rneDiv (r - c) 8).toNat

/-! ### Corrections (R393, R395, R396, R398) -/

/-- BSE's persistent entry of a string (R402). It has no soc_A from which no capacity may be learned: one with a sense_missing
millisecond behind it (R398; DEDUCED, log entry 28). -/
def Str.entry (r : StringRec) (x : Str) : StrJournal :=
  ⟨x.anch, x.cap, x.q, x.soc, x.unc r, x.cycles, x.since / msHour, x.net, if x.clean then x.socA else none⟩

/-- BSE's state written to the state journal (R402): the entries of the configured strings; while no configuration is in force the
entries stay as they are. -/
def State.journalStrings (s : State) : State :=
  let e := (List.range 32).filterMap (fun j => if (s.str j).on then some (j, (s.str j).entry (s.conf.str j)) else none)
  s.sjWrite (fun j => if s.cfg.isSome then { j with strings := e } else j)

/-- Capacity learning between rests A and B (R398); `x` is the string as B found it and `soc` that of B. -/
def State.learnCap (j : Nat) (x : Str) (soc : Nat) (s : State) : State :=
  let r := s.conf.str j
  match x.socA with
  | none => s
  | some a =>
    let d := ((soc : Int) - a).natAbs
    let q := rneDiv x.net msHour
    if !x.clean || d < 5000 then s
    else
      let m := rneDivN (q.natAbs * 10000) d
      if 70 * r.capNom ≤ 100 * m ∧ 100 * m ≤ 110 * r.capNom then
        let c := ((x.cap : Int) + rneDiv ((m : Int) - x.cap) 4).toNat
        ((s.onStr j (fun x => { x with cap := c, q := qOf soc c })).bseEvent j 0x03 (rneDivN c 1000)).journalStrings
      else s.faultRec 4 0x0A02 j m (ofInt 32 q)

/-- A rest correction at the string's present voltage (R393, R395, R396). -/
def State.restCorrect (j : Nat) (s : State) : State :=
  let r := s.conf.str j
  let x := s.str j
  let soc := ocvSoc r.ocv x.volt
  let s1 := (s.onStr j (fun x => { x with
    q := qOf soc x.cap, anch := true, rested := true, since := 0, restTime := s.sTime, pend := false, corrected := true,
    drift := false, loadWait := 0, net := 0, socA := some soc, clean := true })).bseEvent j 0x04 soc
  let s2 := s1.learnCap j x soc
  if x.drift then s2.bseEvent j 0x02 0 else s2

/-- A correction from load may be made in this millisecond (R395). -/
def Str.loadReady (r : StringRec) (x : Str) : Bool :=
  x.on && x.drift && x.anch && x.loadWait == 0 && x.temp.isSome && decide (r.restI ≤ x.cur.natAbs) &&
    decide (2 * x.cur.natAbs ≤ r.iDis) && decide (60000 ≤ x.hist.length) &&
    x.hist.all (fun a => decide ((a - x.cur).natAbs < r.stepI)) &&
    decide ((x.hist.foldl max x.cur - x.hist.foldl min x.cur) < r.stepI)

/-- A correction from load (R395). -/
def Str.loadCorrect (r : StringRec) (x : Str) : Str :=
  let r0 := r0At 1 x.r0 (x.temp.getD 0) x.soc
  let o := ocvSoc r.ocv ((x.volt : Int) - rneDiv (x.cur * r0 * 10) 1000000)
  let soc := ((x.soc : Int) + rneDiv ((o : Int) - x.soc) 4).toNat
  { x with q := qOf soc x.cap, loadWait := msHour }

/-! ### Warning levels (R401) -/

/-- A level entered or left, with hysteresis. -/
def levelStep (was enter leave : Bool) : Bool := if was then !leave else enter

/-- The levels entered after an update: LOW, LOW_LOW, HIGH, HIGH_HIGH. -/
def Str.levels (r : StringRec) (x : Str) : List Bool :=
  let a := x.anch
  let soc := x.soc
  let was (i : Nat) : Bool := x.act.getD i false
  [levelStep (was 0) (a && decide (soc ≤ r.lo)) (!a || decide (r.lo + r.hyst < soc)),
   levelStep (was 1) ((a && decide (soc ≤ r.ll)) || x.vlow) ((!a || decide (r.ll + r.hyst < soc)) && !x.vlow),
   levelStep (was 2) (a && decide (r.hi ≤ soc)) (!a || decide (soc + r.hyst < r.hi)),
   levelStep (was 3) ((a && decide (r.hh ≤ soc)) || x.vhigh) ((!a || decide (soc + r.hyst < r.hh)) && !x.vhigh)]

/-- The level held: LOW_LOW, HIGH_HIGH, LOW, HIGH. -/
def heldLevel (act : List Bool) : Nat :=
  if act.getD 1 false then 2 else if act.getD 3 false then 4 else if act.getD 0 false then 1
  else if act.getD 2 false then 3 else 0

/-- Warning levels judged. -/
def State.warnStr (j : Nat) (s : State) : State :=
  let x := s.str j
  let act := x.levels (s.conf.str j)
  let lvl := heldLevel act
  let s1 := s.onStr j (fun x => { x with act := act, level := lvl })
  if lvl = x.level then s1
  else
    let s2 := s1.bseEvent j 0x01 (x.level * 256 + lvl)
    if lvl = 2 ∨ lvl = 4 then s2.faultRec 4 0x0A01 j lvl x.soc else s2

/-! ### The 1 ms update (R391, R392, R397, R399) -/

/-- The sums of a string's group now. -/
def State.sumsOf (s : State) (g : Nat) : SumBase :=
  let p := s.pg g
  ⟨p.vsum, p.vcnt, p.isum, p.icnt, p.acc⟩

/-- The higher reading of the string's sensors (R391). -/
def State.strTemp (s : State) (r : StringRec) : Option Int :=
  let t (n : Nat) : Option Int := if n < 152 then (s.sens n).reading else none
  match t r.sens0, t r.sens1 with
  | some a, some b => some (max a b)
  | some a, none => some a
  | none, b => b

/-- The measurement of one millisecond taken. -/
def Str.measure (running : Bool) (now : SumBase) (t : Option Int) (x : Str) : Str :=
  let b := x.base
  let i := if !running then 0 else if now.icnt = b.icnt then x.cur else rneDiv (now.isum - b.isum) (now.icnt - b.icnt)
  let v := if now.vcnt = b.vcnt then x.volt else (rneDiv (now.vsum - b.vsum) (now.vcnt - b.vcnt)).toNat
  let sm := now.acc == b.acc
  { x with base := now, sm := sm, cur := if sm && running then x.cur else i, volt := if sm then x.volt else v
           temp := t, nt := t.isNone }

/-- The voltage flags (R400). -/
def Str.voltFlags (r : StringRec) (x : Str) : Str :=
  { x with
    vhigh := decide (r.vMax ≤ x.volt) || (x.vhigh && decide (r.vMax - r.vMax / 100 ≤ x.volt))
    vlow := decide (x.volt ≤ r.vMin) || (x.vlow && decide (x.volt ≤ r.vMin + r.vMin / 100)) }

/-- The counts of one measured millisecond: charge, rest run, cycles, net charge. -/
def Str.count (r : StringRec) (x : Str) : Str :=
  let i := x.cur
  let dq := if 0 < i then rneShr (i * r.etaOf) 16 else i
  let q := if x.anch then (clampI ((x.q : Int) + dq) 0 (x.cap * msHour : Nat)).toNat else 0
  let rem := x.cycRem + (if i < 0 then i.natAbs * 256 else 0)
  let full := x.cap * msHour
  let run := if i.natAbs < r.restI then x.run + 1 else 0
  { x with
    q := q, net := x.net + dq, run := run, corrected := x.corrected && decide (0 < run)
    cycles := (x.cycles + rem / full) % 2 ^ 32, cycRem := rem % full }

/-- Impedance learning of one millisecond against the one before (R397), and what the next compares with. -/
def Str.learn (r : StringRec) (running : Bool) (x : Str) : Str :=
  let ok := running && !x.sm && x.temp.isSome
  let tab := match x.prev, x.temp with
    | some (i, v), some t =>
      if ok && decide (r.stepI ≤ (x.cur - i).natAbs) then learnR0 t x.soc ((x.volt : Int) - v) (x.cur - i) x.r0 else x.r0
    | _, _ => x.r0
  { x with r0 := tab, prev := if ok then some (x.cur, x.volt) else none }

/-- One string's millisecond. -/
def State.bseString (j : Nat) (s : State) : State :=
  let r := s.conf.str j
  let old := s.str j
  if !old.on then s
  else
    let running := (s.pg r.group).st = .running
    let x := old.measure running (s.sumsOf r.group) (s.strTemp r)
    let x := { x with since := x.since + 1, loadWait := x.loadWait - 1 }
    let x := if x.sm then { x with run := 0, corrected := false, hist := [], prev := none, clean := false }
      else
        let y := ((x.voltFlags r).count r).learn r running
        let z := if y.loadReady r then y.loadCorrect r else y
        { z with hist := (z.cur :: z.hist).take 60000 }
    let s1 := s.onStr j (fun _ => x)
    let s2 := if x.nt != old.nt then s1.bseEvent j 0x05 (b2n x.nt) else s1
    let up := (s.conf.members r.group).any (fun l => (s.link l).st = .up)
    let s3 := if x.pend && up && !x.sm then s2.restCorrect j else s2
    if x.sm then s3 else s3.warnStr j

/-- BSE_STRING_n (Table 15-7). -/
def Str.word (r : StringRec) (x : Str) : Nat :=
  if !x.on then 0
  else x.level * 2 ^ 29 + b2n x.drift * 2 ^ 28 + b2n (x.run != 0) * 2 ^ 27 + b2n x.nt * 2 ^ 26 + b2n x.sm * 2 ^ 25 + 2 ^ 24 +
    rneDivN (x.unc r) 10 % 1024 * 2 ^ 14 + x.soc % 16384

/-- BSE_LAST_EVENT. -/
def bseLastEvent (e : Option (Nat × Nat × Nat)) : Nat :=
  match e with
  | none => 0
  | some (src, sub, arg) => 2 ^ 31 + src % 64 * 2 ^ 16 + sub * 256 + arg % 256

/-- The BSE registers by offset (Tables 15-6, 15-7). -/
def State.bseRegs (s : State) : List (Nat × Nat) :=
  let x := s.str
  let c := s.bse.cell
  let cell := c.charger * 2 ^ 30 + c.level * 2 ^ 28 + b2n s.bse.stale * 2 ^ 27 + c.soc
  let status := countOf 32 (fun j => (x j).on) * 2 ^ 16 + countOf 32 (fun j => (x j).drift) * 256 +
    countOf 32 (fun j => (x j).level != 0)
  let head : List (Nat × Nat) :=
    [(0x000, 0x20080B00), (0x004, status), (0x008, maskOf 32 (fun j => (x j).level == 1 || (x j).level == 2)),
     (0x00C, maskOf 32 (fun j => decide (3 ≤ (x j).level))), (0x010, maskOf 32 (fun j => (x j).drift)),
     (0x014, maskOf 32 (fun j => (x j).run != 0)), (0x018, cell), (0x01C, bseLastEvent s.bse.lastEvent)]
  let each : List (Nat × Nat) := (List.range 32).map (fun j => (0x100 + 4 * j, (x j).word (s.conf.str j)))
  head ++ each

/-- A mean of the samples since a base, or what it was before. -/
def meanSince (sum base : Int) (cnt cbase : Nat) (was : Int) : Int :=
  if cnt = cbase then was else satS32 (rneDiv (sum - base) (cnt - cbase))

/-- Every group's mean current and voltage of the last 1 ms, from the PSC deliveries, for the recorder (Table 17-2). -/
def State.groupMeans (s : State) : State :=
  let now := (List.range 64).map s.sumsOf
  s.onEvr (fun e => { e with
    gbase := now
    gmean := (List.range 64).map (fun g =>
      let n := now.getD g ⟨0, 0, 0, 0, 0⟩
      let b := e.gbase.getD g ⟨0, 0, 0, 0, 0⟩
      let w := e.gmean.getD g (0, 0)
      (meanSince n.isum b.isum n.icnt b.icnt w.1, meanSince n.vsum b.vsum n.vcnt b.vcnt w.2)) })

/-- The 1 ms update. -/
def bseUpdate (s : State) : State :=
  if !s.siteUp then s
  else
    let s1 := (List.range 32).foldl (fun s j => s.bseString j) s
    (s1.onBse (fun b => { b with regs := s1.bseRegs })).groupMeans

/-- Meaning of BSE_UPDATE (R391, R392). -/
def execBseUpdate (s : State) : Res := .next (bseUpdate s.start)

/-- The rest of a string reaches 30 min: one correction in the rest (R393). -/
def restCorrection (j : Nat) (s : State) : State :=
  let x := s.str j
  if x.on && decide (1800000 ≤ x.run) && !x.corrected then (s.restCorrect j).warnStr j else s

/-- Meaning of REST_CORRECTION (R393). -/
def execRestCorrection (string : Nat) (s : State) : Res := .next (restCorrection string s.start)

/-- More than rest_max hours have passed since the last rest correction (R395). -/
def driftEntry (j : Nat) (s : State) : State :=
  let x := s.str j
  if x.on && !x.drift && decide ((s.conf.str j).restHours * msHour < x.since) then
    (s.onStr j (fun x => { x with drift := true })).bseEvent j 0x02 1
  else s

/-- Meaning of EST_DRIFT_ENTRY (R395). -/
def execEstDriftEntry (string : Nat) (s : State) : Res := .next (driftEntry string s.start)

/-- Meaning of BSE_JOURNAL_WRITE (R402). -/
def execBseJournalWrite (s : State) : Res :=
  let s := s.start
  .next (if s.siteUp then s.journalStrings else s)

/-- The learned tables of the configured strings. -/
def State.impTables (s : State) : List (Nat × List Nat) :=
  (List.range 32).filterMap (fun j => if (s.str j).on then some (j, (s.str j).r0) else none)

/-- The learned impedance tables written to their slot pair: never during hold-up (R402), not before NVM writes may start (R491), and not
without a configuration, whose strings they are. -/
def impSave (s : State) : State :=
  if !s.siteUp || s.sup.st = .powerFail || s.cfg.isNone then s
  else s.onSup (fun p => if p.holdupReady then p.impPut s.impTables
    else { p with impsNext := some s.impTables })

/-- Meaning of IMPEDANCE_SAVE (R402). -/
def execImpedanceSave (s : State) : Res := .next (impSave s.start)

/-! ### Limits (R400) -/

/-- The current limits of a string: charge and discharge, in mA. -/
def Str.currents (r : StringRec) (x : Str) : Nat × Nat :=
  let u := x.unc r
  let sd := min (x.soc - u) 10000
  let sc := min (x.soc + u) 10000
  let idis := if sd ≤ r.ll then 0 else if r.lo ≤ sd then r.iDis else rneDivN (r.iDis * (sd - r.ll)) (r.lo - r.ll)
  let ichg := if r.hh ≤ sc then 0 else if sc ≤ r.hi then r.iChg else rneDivN (r.iChg * (r.hh - sc)) (r.hh - r.hi)
  let stop := x.nt || x.sm || !x.anch
  let t := x.temp.getD 0
  (if stop || decide (t < r.tChgMin) || decide (r.tChgMax < t) || x.vhigh then 0 else ichg,
   if stop || decide (t < r.tDisMin) || decide (r.tDisMax < t) || x.vlow then 0 else idis)

/-- The limits of every string for a snapshot, at the previous epoch's voltages. -/
def State.deliverLimits (s : State) : State :=
  let lim (j : Nat) : Nat × Nat :=
    let x := s.str j
    if !x.on then (0, 0)
    else
      let r := s.conf.str j
      let v := planVolt s.spa.inp r.group
      let c := x.currents r
      (pwr c.1 v, pwr c.2 v)
  let ls := (List.range 32).map lim
  s.onSpa (fun p => { p with inp := { p.inp with charge := ls.map Prod.fst, discharge := ls.map Prod.snd } })

/-! ### Configuration (R389, R404) -/

/-- A string as an image starts it: unanchored, capacity nominal, the image's table. -/
def Str.start (r : StringRec) : Str := { Str.reset with on := true, cap := r.capNom, r0 := r.r0 }

/-- A string restored from its journal entry (R402). -/
def Str.restore (r : StringRec) (e : StrJournal) (tab : List Nat) (x : Str) : Str :=
  { x with anch := e.anch, cap := e.cap, q := e.q, rested := e.u != 2500, since := e.hours * msHour, cycles := e.cycles
           net := e.net, socA := e.socA, r0 := if tab.length = 88 then tab else r.r0 }

/-- The string records of a configuration come into force (R404): `journal` says that strings start from the state journal,
as at a power-up into BISQUE. A string that stays configured and starts anew leaves its warning level (R401). -/
def State.admitStrings (old new : Cfg) (journal : Bool) (s : State) : State :=
  let dark := decide (1800000000 ≤ s.sup.outage)
  let sj := s.sup.sjNext.getD s.sup.sj
  let imps := s.sup.impsNext.getD s.sup.imps
  let keeps (j : Nat) : Bool :=
    let r := new.str j
    let o := old.str j
    (s.str j).on && o.enable && o.group == r.group && o.capNom == r.capNom
  let one (j : Nat) : Str :=
    let r := new.str j
    let x := s.str j
    if !r.enable then Str.reset
    else if keeps j then x
    else
      let y := match journal, look j sj.strings with
        | true, some e => (Str.start r).restore r e ((look j imps).getD [])
        | _, _ => Str.start r
      { y with base := s.sumsOf r.group, pend := s.bse.fresh && dark }
  let left := (List.range 32).filter (fun j => (s.str j).on && (new.str j).enable && !keeps j && (s.str j).level != 0)
  left.foldl (fun a j => a.bseEvent j 0x01 ((s.str j).level * 256))
    (s.onBse (fun b => { b with strs := (List.range 32).map one, fresh := false }))

/-! ### The backup cell as BSE sees it (R406) -/

/-- Meaning of CELL_STATE_STALE (R406). -/
def execCellStateStale (s : State) : Res := .next (s.start.onBse (fun b => { b with stale := true }))

/-! ### Commands (Table 15-3, R407) -/

/-- A temperature field: 0x8000 for none. -/
def tempField (t : Option Int) : List Byte := leS 2 (t.getD (-32768))

/-- The 64 bytes of a string's record (Table 15-4). With no temperature the resistance at the present temperature is an open
value. -/
def strRecord (j : Nat) (s : State) : List Byte :=
  let x := s.str j
  let r := s.conf.str j
  if !x.on then zeros 64
  else
    let flags := b2n x.drift + 2 * b2n (x.run != 0) + 4 * b2n x.nt + 8 * b2n x.sm + 16 * b2n x.vlow + 32 * b2n x.vhigh +
      128 * b2n !x.anch
    let r0 := match x.temp with | some t => r0At 10 x.r0 t x.soc | none => Config.freeNat (s.free + j) % 2 ^ 32
    le 1 x.level ++ le 1 flags ++ le 2 x.soc ++ le 2 (x.unc r) ++ zeros 2 ++ le 4 x.cap ++ le 4 x.cycles ++ leS 4 x.cur ++
      le 4 x.volt ++ tempField x.temp ++ zeros 2 ++ le 4 (x.since / 1000) ++ le 4 (s.spa.inp.charge.getD j 0) ++
      le 4 (s.spa.inp.discharge.getD j 0) ++ le 4 r0 ++ zeros 12 ++ le 8 x.restTime

/-- The 64 bytes of the backup cell's record (Table 15-4). -/
def cellRecord (s : State) : List Byte :=
  let c := s.bse.cell
  le 1 c.level ++ le 1 (64 * b2n s.bse.stale) ++ le 2 c.soc ++ zeros 2 ++ le 1 c.charger ++ [0] ++ le 4 c.cap ++ zeros 4 ++
    leS 4 c.ma ++ le 4 c.mv ++ tempField c.temp ++ zeros 38

/-- Meaning of STRING_STATUS (R407). -/
def execStringStatus (q : Sqe) (s : State) : Res :=
  let n := bits (sd q 6) 5 0
  .next (hostCmd 0x70 q [(sd q 1 ≤ 32, 1, 0), (64 * n ≤ sd q 4, 4, 0), (sd q 1 + n ≤ 33, 6, 0)]
    (fun s => ({ s with free := s.free + 32 }).replyDone q ((List.range n).flatMap (fun i =>
      if sd q 1 + i = 32 then cellRecord s else strRecord (sd q 1 + i) s)) n) s.start)

/-- Meaning of IMPEDANCE_READ (R407). -/
def execImpedanceRead (q : Sqe) (s : State) : Res :=
  .next (hostCmd 0x71 q [(sd q 1 ≤ 32, 1, 0), (176 ≤ sd q 4, 4, 0)]
    (fun s =>
      if !(s.str (sd q 1)).on then s.done q stBAD_OBJECT 0
      else s.replyDone q (padTo 176 ((s.str (sd q 1)).r0.flatMap (le 2))) 176) s.start)

/-- A command completes after the state-journal write it made (R407, R491). -/
def State.doneAfterJournal (q : Sqe) (s : State) : State :=
  if s.sup.holdupReady then s.done q stDONE 0
  else s.onSup (fun p => { p with sjWait := p.sjWait ++ [(q.sq, cidOf q)] })

/-- CAPACITY_SET. -/
def capacitySet (q : Sqe) (s : State) : State :=
  let j := sd q 1
  let x := s.str j
  if !x.on then s.done q stBAD_OBJECT 0
  else
    let c := sd q 6
    let v := bits (sd q 8) 15 0
    let soc := if v = 0xFFFF then x.soc else v
    let y := { x with cap := c, q := if v = 0xFFFF && !x.anch then 0 else qOf soc c }
    let y := if v = 0xFFFF then y else { y with anch := true, rested := false }
    let y := if bit (sd q 7) 0 then { y with cycles := 0, cycRem := 0 } else y
    let y := if bit (sd q 7) 1 then { y with r0 := (s.conf.str j).r0 } else y
    ((s.onStr j (fun _ => y)).journalStrings).doneAfterJournal q

/-- Meaning of CAPACITY_SET (R407). -/
def execCapacitySet (q : Sqe) (s : State) : Res :=
  let j := sd q 1
  let nom := (s.conf.str j).capNom
  let v := bits (sd q 8) 15 0
  .next (hostCmd 0x72 q
    [(j ≤ 32, 1, 0), (!(s.str j).on || (nom ≤ 2 * sd q 6 && 2 * sd q 6 ≤ 3 * nom), 6, 0), (sd q 7 < 4, 7, 2),
     (v == 0xFFFF || v ≤ 10000, 8, 0)] (capacitySet q) s.start)

end Sys2Proof.Machine
end

