-- ==== Sys2Proof/Machine/Evr.lean ====
section
/-! DEFINITION. The event recorder (R426 to R444): samples, closes, records, windows, restoration and its own failures. -/

namespace Sys2Proof.Machine

open Sys2Proof

/-! ### Time, quantities, events -/

/-- The time of samples and closes: S-time, or main-die uptime while S-time is unknown (R428). -/
def State.evrNow (s : State) : Nat × Bool :=
  match s.sup.stime with
  | some t => (t, false)
  | none => (s.sup.uptime, true)

/-- A quantity. -/
def State.quant (s : State) (i : Nat) : Quant := s.evr.qs.getD i (Quant.reset Ext.none)

/-- A quantity changed. -/
def State.onQuant (i : Nat) (f : Quant → Quant) (s : State) : State := s.onEvr (fun e => { e with qs := upd e.qs i f })

/-- How many quantities the table in force enables. -/
def State.quantsOn (s : State) : Nat := countOf 128 (fun i => (s.conf.quant i).enable)

/-- An EVR event (Table 17-7) with its fault record. -/
def State.evrEvent (sub arg fault : Nat) (s : State) : State :=
  ((s.onEvr (fun e => { e with lastEvent := some (0xFF, sub, arg % 256) })).postEvent .pf0 66 sub arg noSource).faultRec 4 fault
    arg s.evr.lost 0

/-! ### Sources (Table 17-2, R427) -/

/-- The newest summary, at most 2 s old. -/
def State.summary (s : State) : Option Summary :=
  match s.lnk.meter with
  | none => none
  | some m => if s.sup.uptime ≤ s.lnk.meterAt + 2000000 then some m else none

/-- The value a source has delivered to the site island; none while it has no value. -/
def State.sourceValue (s : State) (r : QuantRec) : Option Int :=
  let i := r.index
  match r.kind with
  | 0x01 => if (s.conf.group i).isSome then some (s.evr.gmean.getD i (0, 0)).1 else none
  | 0x02 => if (s.conf.group i).isSome then some (s.evr.gmean.getD i (0, 0)).2 else none
  | 0x03 => if (s.conf.group i).isSome then some (s.spa.plan.grants.getD i 0) else none
  | 0x04 => some (satS32 ((s.spa.plan.ports + s.spa.plan.charge - s.spa.plan.discharge : Nat) : Int))
  | 0x05 => if (s.conf.sensor i).enable && !(s.sens i).absent then (s.sens i).reading else none
  | 0x06 => match s.summary with
    | none => none
    | some m => if (s.conf.port i).enable && bit m.valid i then some (m.ports.getD i (0, 0, 0, 0)).1 else none
  | 0x07 => s.summary.map Summary.gridP
  | 0x08 => if (s.conf.str i).enable then some ((s.str i).soc : Int) else none
  | 0x09 => some (s.lsw.vf : Int)
  | 0x0A => if s.conf.chans.length ≤ i then none else some ((s.ch i).current : Int)
  | 0x0B => if s.blkState = 1 then some (s.blk.floor : Int) else none
  | _ => none

/-! ### Accumulation (R429) -/

/-- The bin of a value. -/
def binOf (r : QuantRec) (x : Int) : Nat :=
  let d := x - r.lo
  if d < r.width then 0 else min (d.toNat / r.width) 31

/-- A sample into the live half. -/
def Half.take (x : Int) (now : Nat) (h : Half) : Half :=
  let n := h.count + 1
  let lower := n = 1 ∨ x < h.min
  let higher := n = 1 ∨ h.max < x
  { h with
    count := n, sum := satS64 (h.sum + x), bins := upd h.bins (binOf h.cfg x) incSat
    min := if lower then x else h.min, tMin := if lower then now else h.tMin
    max := if higher then x else h.max, tMax := if higher then now else h.tMax }

/-- A sample into the extremes kept while DEGRADED (R442). -/
def Ext.take (x : Int) (now : Nat) (e : Ext) : Ext :=
  let first := e.tMin = timeUnknown ∧ e.min = noExtreme
  let lower := first ∨ x < e.min
  let higher := first ∨ e.max < x
  { min := if lower then x else e.min, tMin := if lower then now else e.tMin
    max := if higher then x else e.max, tMax := if higher then now else e.tMax }

/-- One sample of a quantity: a value taken, missing, or lost for want of a live half (R427, R432). -/
def evrSample (i : Nat) (s : State) : State :=
  let r := s.conf.quant i
  if !s.siteUp || !r.enable || decide (128 ≤ i) then s
  else match s.sourceValue r, (s.quant i).live with
    | none, none => s
    | none, some _ => s.onQuant i (fun q => { q with live := q.live.map (fun h => { h with missing := incSat h.missing }) })
    | some x, some _ => s.onQuant i (fun q => { q with live := q.live.map (Half.take x s.evrNow.1) })
    | some x, none =>
      let s1 := s.onEvr (fun e => { e with lost := incSat e.lost })
      if s.evr.degraded.isSome then s1.onQuant i (fun q => { q with ext := q.ext.take x s.evrNow.1 }) else s1

/-- Meaning of EVR_SAMPLE (R427, R429, R432). -/
def execEvrSample (quantity : Nat) (s : State) : Res := .next (evrSample quantity s.start)

/-! ### Closes (R430, R431, R440) -/

/-- The flags a half gives its record. -/
def Half.flags (h : Half) : Nat := 2 * b2n h.short + 8 * b2n h.unk

/-- A quantity's frozen half is still unwritten. -/
def Evr.frozen (e : Evr) (i : Nat) : Bool := e.queue.any (fun c => c.q == i && c.half)

/-- A closed period queued: behind earlier closes, and by quantity among those of its instant; the record being written stays in front
(R434). -/
def Evr.enqueue (c : Closed) (e : Evr) : Evr :=
  let late := (e.queue.reverse.takeWhile (fun x => x.end_ == c.end_ && decide (c.q < x.q))).length
  let n := max (e.queue.length - late) (b2n e.writing.isSome)
  { e with queue := e.queue.take n ++ c :: e.queue.drop n }

/-- A close that falls while the other half is unwritten is deferred (R431). `nominal` is the close it stands for. -/
def State.deferClose (i nominal : Nat) (s : State) : State :=
  (s.onEvr (fun e => { e with defers := incSat e.defers })).onQuant i (fun q => { q with pend := some nominal })

/-- The live half is frozen with its end and queued; the other becomes live, or none does. -/
def State.freeze (i extra : Nat) (next : Option Half) (now : Nat) (s : State) : State :=
  match (s.quant i).live with
  | none => s
  | some h =>
    (s.onEvr (Evr.enqueue ⟨i, h, now, h.flags + extra, true⟩)).onQuant i (fun q =>
      { q with live := next, pend := none })

/-- The nominal close of a live half that is due at `now`: the multiple of its period there, which a fast slew may step over by one
(R428). None where it has been made or deferred. -/
def Quant.closeDue (now : Nat) (q : Quant) : Option Nat :=
  match q.live with
  | none => none
  | some h =>
    let b := now - now % (h.cfg.period * 60000000)
    if max h.start (q.pend.getD 0) < b ∧ now < b + 2 then some b else none

/-- A close of a quantity at a multiple of its period, or its deferral. -/
def periodCloseEvr (i : Nat) (s : State) : State :=
  let (now, unk) := s.evrNow
  match (s.quant i).closeDue now with
  | none => s
  | some b =>
    if !s.siteUp then s
    else if s.evr.frozen i then s.deferClose i b
    else s.freeze i 0 (some (Half.new (s.conf.quant i) b unk false)) b

/-- Meaning of EVR_PERIOD_CLOSE (R428, R430, R431). -/
def execEvrPeriodClose (quantity : Nat) (s : State) : Res := .next (periodCloseEvr quantity s.start)

/-- The deferred close of a quantity whose frozen half has been written (R431): of its live half, or of one that a commit has closed. -/
def State.deferredClose (i : Nat) (s : State) : State :=
  let (now, unk) := s.evrNow
  let q := s.quant i
  let fresh : Half := Half.new (s.conf.quant i) now unk true
  if s.evr.frozen i then s
  else match q.late with
    | some (h, extra) =>
      (s.onEvr (Evr.enqueue ⟨i, h, now, h.flags + extra + 1, true⟩)).onQuant i (fun q =>
        { q with late := none, susp := q.susp && !q.due, due := false, live := if q.due then some fresh else none })
    | none => if q.pend.isSome then s.freeze i 1 (some fresh) now else s

/-- A quantity at a commit's admission boundary: unchanged it runs on; otherwise it closes, and starts at the next boundary if
it is enabled (R440). While its other half is unwritten the close is deferred (R431). -/
def State.admitQuant (old new : QuantRec) (i : Nat) (s : State) : State :=
  if old = new then s
  else
    let s1 := match (s.quant i).live with
      | none => s
      | some h =>
        if s.evr.frozen i then (s.deferClose i 0).onQuant i (fun q => { q with live := none, pend := none, late := some (h, 32) })
        else s.freeze i 32 none s.evrNow.1
    s1.onQuant i (fun q => { q with susp := new.enable, due := false })

/-- The quantities at an admission boundary. -/
def State.admitQuants (old new : List QuantRec) (s : State) : State :=
  (List.range 128).foldl (fun s i => s.admitQuant (old.getD i QuantRec.off) (new.getD i QuantRec.off) i) s

/-- At the next boundary the quantities that wait start, away from a nominal close (R440), once they have a half that is free; none does in
DEGRADED. -/
def State.startQuants (s : State) : State :=
  let (now, unk) := s.evrNow
  let deg := s.evr.degraded.isSome
  let conf := s.conf
  s.onEvr (fun e => { e with qs := e.qs.mapIdx (fun i q =>
    if !q.susp then q
    else if q.late.isSome && !deg then { q with due := true }
    else { q with susp := false, due := false, live := if deg then none else some (Half.new (conf.quant i) now unk true) }) })

/-- A STEP of S-time closes every open period at the time before it; the next ones open at the new time (R508). A close whose other half is
unwritten is deferred (R430, R431). `old` is the time before the step. -/
def State.stepQuants (old : Nat) (s : State) : State :=
  let (now, unk) := s.evrNow
  (List.range 128).foldl (fun s i => match (s.quant i).live with
    | none => s
    | some h => if s.evr.frozen i then s.deferClose i 0 else s.freeze i 0 (some (Half.new h.cfg now unk true)) old) s

/-! ### Records (R433 to R435) -/

/-- A record's 256 bytes (Table 17-3). -/
def recordOf (seq : Nat) (c : Closed) : List Byte :=
  let h := c.h
  let b := le 4 seq ++ le 1 c.q ++ le 1 c.flags ++ le 2 h.cfg.period ++ le 8 h.start ++ le 8 c.end_ ++ le 4 h.count ++
    le 4 h.missing ++ leS 8 h.sum ++ leS 4 h.min ++ leS 4 h.max ++ le 8 h.tMin ++ le 8 h.tMax ++ padTo 128 (h.bins.flatMap (le 4)) ++
    le 1 h.cfg.kind ++ [0] ++ le 2 h.cfg.index ++ leS 4 h.cfg.lo ++ le 4 h.cfg.width ++ zeros 48
  b ++ le 4 (crc32c b)

/-- The tile of a record (R435). -/
def recordTile (seq : Nat) : Nat := if seq < 512 then 0x0440 + seq / 16 else 0x0460 + (seq - 512) / 16 % 512

/-- A record with this seq has been overwritten once the newest is `newest`. -/
def overwritten (newest seq : Nat) : Bool := decide (512 ≤ seq) && decide (seq + 8192 ≤ newest)

/-- Extremes written to Spire NVM, or waiting until NVM writes may start (R442, R491). -/
def State.putExtremes (l : List Ext) (s : State) : State :=
  s.onEvr (fun e => if s.sup.holdupReady then { e with extSaved := l, extNext := none } else { e with extNext := some l })

/-- EVR enters DEGRADED (R442). -/
def State.degrade (s : State) : State :=
  ((s.onEvr (fun e => { e with
    degraded := some s.sTime, queue := [], writing := none
    qs := e.qs.map (fun q => { q with live := none, pend := none, late := none, ext := Ext.none }) })).putExtremes
      (List.replicate 128 Ext.none)).evrEvent 0x10 s.evr.retired 0x0C01

/-- The eighth retired recorder index degrades EVR (R442). -/
def State.degradeDue (s : State) : State := if s.evr.degraded.isNone && decide (8 ≤ s.evr.retired) then s.degrade else s

/-- A recorder index is retired; EVR refills it from the flash (R126, R441). An index that goes out of service has no tile to
refill (R127). The eighth degrades EVR at once. -/
def State.retireRecorder (consumer idx : Nat) (s : State) : State :=
  let s1 := (s.retire consumer idx noSource false).onEvr (fun e => { e with retired := min (e.retired + 1) 255 })
  let s2 := if s1.tmf.oos.contains idx then s1
    else s1.onEvr (fun e => { e with refill := if e.refill.contains idx then e.refill else e.refill ++ [idx] })
  s2.degradeDue

/-- The flash is free for a record: no firmware slot is being staged (R434, R447). -/
def State.flashFree (s : State) : Bool := s.sup.staging.isNone

/-- The next queued record is written: its seq, its tile verified, the tile closed; a tile that fails is retired, and the
write goes on after the refill. -/
def recordWrite (bad : Bool) (s : State) : State :=
  let e := s.evr
  match e.queue with
  | [] => s
  | c :: _ =>
    if !s.siteUp || e.degraded.isSome || e.restoring || e.writing.isSome || !s.flashFree then s
    else
      let t := recordTile e.next
      if e.refill.contains t then s
      else if bad && !s.tmf.oos.contains t then s.retireRecorder consEvr t
      else s.onEvr (fun e => { e with writing := some (e.next, recordOf e.next c), newest := e.next, next := e.next + 1 })

/-- Meaning of RECORD_WRITE (R434, R435, R441). -/
def execRecordWrite (bad : Bool) (s : State) : Res := .next (recordWrite bad s.start)

/-- The records of the flash once a page is programmed: with the first record of a tile the sector of the next tile is erased (R434;
DEDUCED, log entry 30). -/
def Evr.programmed (r : Nat × List Byte) (e : Evr) : List (Nat × List Byte) :=
  let next := recordTile ((r.1 / 16 + 1) * 16)
  (e.flash.filter (fun x => !overwritten r.1 x.1 && !(r.1 % 16 == 0 && recordTile x.1 == next))) ++ [r]

/-- The page is programmed: the write is complete, and a deferred close takes place. -/
def recordWriteDone (s : State) : State :=
  match s.evr.writing, s.evr.queue with
  | some r, c :: rest =>
    (s.onEvr (fun e => { e with
      writing := none, queue := rest, flash := e.programmed r
      held := (e.held.filter (fun x => !overwritten r.1 x.1)) ++ [r] })).deferredClose c.q
  | _, _ => s

/-- Meaning of RECORD_WRITE_DONE (R431, R434). -/
def execRecordWriteDone (s : State) : Res := .next (recordWriteDone s.start)

/-! ### Start-up and refill (R438, R439, R441, R442) -/

/-- The end of the last record of a quantity in the flash. -/
def lastEnd (flash : List (Nat × List Byte)) (i : Nat) : Nat :=
  match (flash.filter (fun x => u x.2 4 1 == i)).getLast? with
  | none => timeUnknown
  | some x => u x.2 16 8

/-- The areas are loaded: torn records are skipped, the seq goes on, and the interrupted records are queued; one that no power-fail ended
goes from the last record's end to now, its extremes unknown (R438, R439). A partition check ends the same way (R437; DEDUCED, log
entry 30). -/
def evrRestoreDone (torn : List Nat) (s : State) : State :=
  if !(s.evr.restoring || s.evr.testing) || !s.tmf.ready then s
  else
    let pages := s.evr.flash ++ s.evr.torn.toList
    let bad := (pages.filter (fun x => torn.contains x.1)).map Prod.fst
    let flash := pages.filter (fun x => !torn.contains x.1)
    let next := match flash.getLast? with | none => 0 | some x => x.1 + 1
    let s1 := bad.foldl (fun s n => s.faultRec 4 0x0C03 n 0 0) s
    if s.evr.testing then s1.onEvr (fun e => { e with testing := false, flash := flash })
    else
      let (now, unk) := s.evrNow
      let cut := s.evr.cutOff.map (fun (x : Nat × QuantRec) =>
        (⟨x.1, Half.new x.2 (lastEnd flash x.1) unk false, now, 4 + 16 + 8 * b2n unk, false⟩ : Closed))
      s1.onEvr (fun e => { e with
        restoring := false, flash := flash, held := flash, torn := none, next := next, newest := next - 1
        queue := if e.degraded.isSome then [] else e.intr ++ cut ++ e.queue, intr := [], cutOff := [] })

/-- Meaning of EVR_RESTORE_DONE (R437 to R439). -/
def execEvrRestoreDone (torn : List Nat) (s : State) : Res := .next (evrRestoreDone torn s.start)

/-- A retired index has been refilled: its tile holds what the flash holds of it (R441). -/
def evrRefillDone (idx : Nat) (s : State) : State :=
  if !s.evr.refill.contains idx then s
  else
    (s.onEvr (fun e => { e with
      refill := e.refill.filter (fun i => i != idx)
      held := sortBy (fun a b => decide (a.1 < b.1)) (e.held.filter (fun x => recordTile x.1 != idx) ++
        e.flash.filter (fun x => recordTile x.1 == idx)) })).evrEvent 0x11 idx 0x0C02

/-- Meaning of EVR_REFILL_DONE (R441, R442). -/
def execEvrRefillDone (idx : Nat) (s : State) : Res := .next (evrRefillDone idx s.start)

/-- The extremes kept in DEGRADED go to Spire NVM (R442). -/
def State.saveExtremes (s : State) : State :=
  if s.evr.degraded.isSome then s.putExtremes (s.evr.qs.map Quant.ext) else s

/-- Meaning of DEGRADED_EXTREMES_SAVE (R442). -/
def execDegradedExtremesSave (s : State) : Res := .next s.start.saveExtremes

/-- The half of a quantity whose period is open or waits to be closed. -/
def Quant.unfinished (q : Quant) : Option Half := q.live.or (q.late.map Prod.fst)

/-- The start of what a quantity has unwritten: that of its frozen half, which is lost, or of its live half (R439). -/
def Evr.openFrom (e : Evr) (i : Nat) (h : Half) : Nat :=
  match e.queue.find? (fun c => c.q == i && c.half) with | none => h.start | some c => c.h.start

/-- The interrupted records that are queued and not written. -/
def Evr.unwritten (e : Evr) : List Closed := e.queue.filter (fun c => !c.half)

/-- The interrupted records of a power-fail: count 0 with the saved extremes, ending now, and over a frozen half that is lost (R439). -/
def State.powerFailQuants (s : State) : State :=
  let (now, _) := s.evrNow
  let rec' (i : Nat) : Option Closed := (s.quant i).unfinished.map (fun h =>
    ⟨i, { h with start := s.evr.openFrom i h, count := 0, missing := 0, sum := 0, bins := List.replicate 32 0 }, now, h.flags + 4, false⟩)
  s.saveExtremes.onEvr (fun e => { e with
    intr := e.intr ++ e.unwritten ++ (List.range 128).filterMap rec', queue := e.queue.filter Closed.half
    qs := e.qs.map (fun q => { q with live := none, pend := none, late := none }) })

/-- EVR at a main-die reset: every quantity with a live half is interrupted, and the page being programmed may be torn (R438, R439). -/
def State.resetEvr (s : State) : State :=
  let e := s.evr
  let cut (i : Nat) : Option (Nat × QuantRec) :=
    if (e.cutOff.map Prod.fst).contains i then none else (s.quant i).unfinished.map (fun h => (i, h.cfg))
  let cuts := e.cutOff ++ (List.range 128).filterMap cut
  { s with evr := Evr.reset e.flash (e.writing.or e.torn) e.retired e.degraded e.extSaved e.extNext (e.intr ++ e.unwritten) cuts }

/-! ### Windows (R436, R437) -/

/-- The records the tiles hold now, by rising seq. How far the areas are loaded while EVR restores is an open value (R437, R438). -/
def State.heldRecords (s : State) : List (Nat × List Byte) :=
  let e := s.evr
  if e.restoring then e.flash.take (Config.freeNat s.free)
  else
    let l : List (Nat × List Byte) := (match e.writing with
      | none => e.held
      | some w => (e.held.filter (fun x => !overwritten w.1 x.1)) ++ [w])
    l.filter (fun x => !e.refill.contains (recordTile x.1) && !s.tmf.oos.contains (recordTile x.1))

/-- LIVE with its reason (Table 17-4): 0, or 1 and the reason. -/
def Evr.liveFlags (e : Evr) : Nat :=
  if e.restoring then 1 + 2 * 1 else if !e.refill.isEmpty then 1 + 2 * 2 else if e.testing then 1 + 2 * 3 else 0

/-- What the registers and the status show of the records: those of the flash until they are loaded (Table 17-9). -/
def State.shownRecords (s : State) : List (Nat × List Byte) := if s.evr.restoring then s.evr.flash else s.heldRecords

/-- The oldest circulating record held, 0 for none. -/
def oldestOf (l : List (Nat × List Byte)) : Nat := ((l.find? (fun x => decide (512 ≤ x.1))).map Prod.fst).getD 0

/-- How many foundation records are held. -/
def foundOf (l : List (Nat × List Byte)) : Nat := (l.filter (fun x => decide (x.1 < 512))).length

/-- The newest seq as a copy starts: under LIVE 1 the record now in its tile may have been written during the copy, an open value
(R437). -/
def State.fenceStart (s : State) : Nat :=
  if s.evr.liveFlags ≠ 0 ∧ s.evr.writing.isSome = true ∧ Config.freeNat (s.free + 1) % 2 = 1 then s.evr.newest - 1 else s.evr.newest

/-- The window of some records (Table 17-4). The seq of the first of none is an open value. -/
def windowBytes (s : State) (l : List (Nat × List Byte)) : List Byte :=
  let all : List (Nat × List Byte) := s.heldRecords
  le 8 s.sTime ++ le 4 s.fenceStart ++ le 4 s.evr.newest ++ le 4 ((l.head?.map Prod.fst).getD (Config.freeNat (s.free + 2))) ++ le 1 l.length ++
    le 1 (s.evr.liveFlags + 8 * b2n s.evr.degraded.isSome) ++ zeros 2 ++ le 4 (oldestOf all) ++ le 4 (foundOf all) ++
    l.flatMap Prod.snd

/-- The window tile a copy uses. -/
def windowTile : Nat := 0x0660

/-- WINDOW_READ: up to `n` records that the quantity filter passes, each tile verified as it is copied; then the window, verified as it is delivered. -/
def windowRead (q : Sqe) (bad : List Nat) (s : State) : State :=
  let n := bits (sd q 7) 4 0
  let f := bits (sd q 7) 15 8
  let at_ := s.heldRecords.filter (fun x : Nat × List Byte => decide (sd q 6 ≤ x.1))
  let l := (at_.filter (fun x : Nat × List Byte => f == 0xFF || u x.2 4 1 == f)).take n
  if 16 < (s.hqe.fwd.filter (fun w => w.op == 0x80)).length then s.done q stBUSY_RETRY 0
  else if at_.isEmpty then s.done q stDONE_NOTE 0
  else match l.find? (fun x => bad.contains (recordTile x.1)) with
    | some x => (s.retireRecorder consEvr (recordTile x.1)).done q stTILE_CHECK (recordTile x.1)
    | none =>
      if bad.contains windowTile && !s.tmf.oos.contains windowTile then (s.retireRecorder consHqe windowTile).done q stTILE_CHECK windowTile
      else ({ s with free := s.free + 3 }).replyDone q (windowBytes s l) l.length

/-- Meaning of WINDOW_READ (R436, R437, R443). -/
def execWindowRead (q : Sqe) (bad : List Nat) (s : State) : Res :=
  let n := bits (sd q 7) 4 0
  .next (hostCmd 0x80 q
    [(32 + 256 * n ≤ sd q 4, 4, 0), (1 ≤ n && n ≤ 16, 7, 0), (bits (sd q 7) 7 5 == 0, 7, 5),
     (bits (sd q 7) 15 8 < 128 || bits (sd q 7) 15 8 == 0xFF, 7, 8), (bits (sd q 7) 31 16 == 0, 7, 16)]
    (windowRead q bad) s.start)

/-! ### Status (R443, R444) -/

/-- The state of EVR: 0 IDLE, 1 RECORDING, 2 DEGRADED. -/
def State.evrState (s : State) : Nat :=
  if s.evr.degraded.isSome then 2 else if s.quantsOn = 0 then 0 else 1

/-- The status record. -/
def State.evrStatus (s : State) : List Byte :=
  let e := s.evr
  let l := s.shownRecords
  le 1 s.evrState ++ le 1 e.liveFlags ++ le 1 e.retired ++ le 1 s.quantsOn ++ le 4 e.newest ++ le 4 (oldestOf l) ++
    le 4 (foundOf l) ++ le 4 e.defers ++ le 4 e.lost ++ le 4 e.queue.length ++ zeros 4 ++ le 8 (e.degraded.getD timeUnknown) ++
    zeros 24

/-- A quantity's extremes: since DEGRADED entry, or those of its live half. -/
def State.extremesOf (s : State) (i : Nat) : Ext :=
  if s.evr.degraded.isSome then (s.quant i).ext
  else match (s.quant i).live with
    | none => Ext.none
    | some h => ⟨h.min, h.max, h.tMin, h.tMax⟩

/-- The extremes table. -/
def State.extremesTable (s : State) : List Byte :=
  (List.range 128).flatMap (fun i => let e := s.extremesOf i; leS 4 e.min ++ leS 4 e.max ++ le 8 e.tMin ++ le 8 e.tMax)

/-- Meaning of RECORDER_STATUS (R443). -/
def execRecorderStatus (q : Sqe) (s : State) : Res :=
  let k := bits (sd q 6) 0 0
  .next (hostCmd 0x81 q [((if k = 0 then 64 else 3072) ≤ sd q 4, 4, 0), (sd q 6 < 2, 6, 0)]
    (fun s => if k = 0 then s.replyDone q s.evrStatus 64 else s.replyDone q s.extremesTable 3072) s.start)

/-- The EVR registers (Tables 17-8, 17-9). -/
def readEvr (off : Nat) (s : State) : Nat :=
  let e := s.evr
  match off with
  | 0x000 => 0x80201010
  | 0x004 => 0x02002000
  | 0x008 => s.quantsOn * 2 ^ 16 + min e.queue.length 255 * 2 ^ 8 + e.liveFlags / 2 * 8 + e.liveFlags % 2 * 4 + s.evrState
  | 0x00C => e.newest
  | 0x010 => oldestOf s.shownRecords
  | 0x014 => e.defers
  | 0x018 => e.lost
  | 0x01C => e.retired
  | 0x020 => lastEventWord e.lastEvent
  | _ => 0

end Sys2Proof.Machine
end

