-- ==== Sys2Proof/Machine/KilnLaw.lean ====
section
/-! DEFINITION. The control law of one firing (R174 to R185) in exact integers with the stated saturation and rounding. -/

namespace Sys2Proof.Machine

open Sys2Proof

/-! ### Arithmetic of R175 -/

/-- Narrowing of an accumulator. -/
def nar (x : Int) : Int := satS32 (rneShr x 28)

/-- An s64 accumulator: every addition saturates. -/
def acc (l : List Int) : Int := l.foldl (fun a x => satS64 (a + x)) 0

/-- Entry `i` of a table of integers, 0 beyond its end. -/
def iat (l : List Int) (i : Nat) : Int := l.getD i 0

/-- A Q7.24 term in the accumulator. -/
def up28 (x : Int) : Int := x * 2 ^ 28

/-- Clamp of an output. -/
def clampU (x lo hi : Int) : Int := min (max x lo) hi

/-- The slew of the reference (R178). -/
def slew (r t d : Int) : Int :=
  if d = 0 then t
  else if r ≥ 0 ∧ t ≥ r then min t (satS32 (r + d))
  else if r ≤ 0 ∧ t ≤ r then max t (satS32 (r - d))
  else if (r > 0 ∧ t < 0) ∨ (r < 0 ∧ t > 0) then 0
  else t

/-! ### Structure of a group's sets (R181) -/

/-- The structure that band 0 gives every band, as the lane reads it. -/
structure Hdr where
  n : Nat
  m : Nat
  p : Nat
  q : Nat
  trk : Nat
  ysel : List Nat
  init : List Nat
  wsel : List Nat
  duty : Option Nat
  shift : Option Nat

/-- The first actuator with a role. -/
def roleIdx (roles : List Nat) (m r : Nat) : Option Nat := (List.range m).find? (fun j => roles.getD j 2 == r)

/-- Band 0's structure. -/
def hdrOf (k : CoeffSet) : Hdr :=
  let n := max k.n 1
  let m := max k.m 1
  let p := max k.p 1
  { n := n, m := m, p := p, q := k.q, trk := if k.trk ≥ p then 0 else k.trk, ysel := k.ysel
    init := k.init.map (fun i => if i ≥ p then 0xFF else i), wsel := k.wsel
    duty := roleIdx k.role m 0, shift := roleIdx k.role m 1 }

/-! ### Measured values (R177, Table 06-3) -/

/-- What a firing works on beside its context: per-unit values of each member, which members are available and enabled,
their interleave offsets, and the clamped limit. -/
structure FireIn where
  iph : List Int
  vin : List Int
  vout : List Int
  avail : List Bool
  enabled : List Bool
  ilv : List Nat
  ref : Int
  lim : Nat

/-- A per-unit value from a code (R177). -/
def perUnit (code scale offset : Int) : Int := satS32 (rneShr (code * scale) 12 + offset)

/-- The entries of a list at the marked positions. -/
def marked (l : List Int) (m : List Bool) : List Int := ((l.zip m).filter (fun x => x.2)).map Prod.fst

/-- The mean over the marked members; 0 when there is none. -/
def meanOf (l : List Int) (m : List Bool) : Int := rneDiv (sumI (marked l m)) (marked l m).length

/-- A selector's value; the reference slope is `dr`. -/
def selVal (f : FireIn) (dr : Int) (isW : Bool) (c : Nat) : Int :=
  if c = 0x10 then meanOf f.vout f.avail
  else if c = 0x11 then meanOf f.vin f.avail
  else if isW then (if c = 0x30 then dr else 0)
  else if c = 0 then satS32 (sumI f.iph)
  else if c ≤ 8 then iat f.iph (c - 1)
  else 0

/-- The measured outputs. -/
def outputs (h : Hdr) (f : FireIn) : List Int := (List.range h.p).map (fun i => selVal f 0 false (h.ysel.getD i 0xFF))

/-- The clamped target of the reference (R178). -/
def target (f : FireIn) : Int := min (max f.ref (-(min f.lim 2147483647 : Nat))) (min f.lim 2147483647 : Nat)

/-! ### Schedule and swap (R174, R183, R184) -/

/-- The schedule variable. -/
def schedVar (c : GroupCtx) (f : FireIn) (rn : Int) : Int :=
  match c.sched with
  | 1 => (rn.natAbs : Int)
  | 2 => meanOf f.vout f.avail
  | 3 => meanOf f.vin f.avail
  | 4 => ((satS32 (sumI f.iph)).natAbs : Int)
  | _ => 0

/-- The lower threshold of band `b ≥ 1`. -/
def thOf (c : GroupCtx) (b : Nat) : Int := iat c.th (b - 1)

/-- Bands moved up, at most `n`. -/
def bandUp (c : GroupCtx) (s : Int) : (n b : Nat) → Nat
  | 0, b => b
  | n + 1, b => if b + 1 < c.bands ∧ s ≥ thOf c (b + 1) + c.hyst then bandUp c s n (b + 1) else b

/-- Bands moved down, at most `n`. -/
def bandDown (c : GroupCtx) (s : Int) : (n b : Nat) → Nat
  | 0, b => b
  | n + 1, b => if b > 0 ∧ s < thOf c b - c.hyst then bandDown c s n (b - 1) else b

/-- The band a firing selects from its active band; with no schedule it is 0 (R183). -/
def bandOf (c : GroupCtx) (s : Int) (b : Nat) : Nat := if c.sched = 0 then 0 else bandDown c s 8 (bandUp c s 8 b)

/-- The band of a start firing: the highest whose threshold is at or below the schedule variable (R174). -/
def startBand (c : GroupCtx) (s : Int) : Nat :=
  if c.sched = 0 then 0
  else (List.range c.bands).foldl (fun a b => if b = 0 ∨ thOf c b ≤ s then b else a) 0

/-- What a firing decides about its set: the band, the set, whether a swap applies, is deferred, or is forced; `pend` is the band a
deferred change goes to. -/
structure Choice where
  band : Nat
  set : CoeffSet
  swapping : Bool
  deferred : Bool
  forced : Bool
  defer : Nat
  pend : Option Nat

/-- The swap decision of a firing that is not a start firing (R183, R184). `setOf` gives the stored set of a band. -/
def chooseSet (h : Hdr) (c : GroupCtx) (setOf : Nat → Option CoeffSet) (g : KGroup) (k : CoeffSet) (s : Int) : Choice :=
  let tb := bandOf c s g.band
  if !g.newSet && tb == g.band then ⟨g.band, k, false, false, false, 0, none⟩
  else
    let kn := (setOf tb).getD k
    let sat := (List.range h.m).any (fun j => iat k.ki j != 0 && g.sat.getD j false)
    if !sat then ⟨tb, kn, true, false, false, 0, none⟩
    else if g.defer < c.deferMax then ⟨g.band, k, false, true, false, g.defer + 1, if tb = g.band then none else some tb⟩
    else ⟨tb, kn, true, false, true, 0, none⟩

/-! ### The firing -/

/-- The outcome of a firing: the new context values. The members' commands follow from it (`phaseCmds`). -/
structure Fired where
  choice : Choice
  rEff : Int
  y : List Int
  w : List Int
  xh : List Int
  zeta : List Int
  u : List Int
  sat : List Bool

/-- The innovation and correction steps: ε, then x̂c. -/
def correct (h : Hdr) (k : CoeffSet) (xh y : List Int) : List Int :=
  let eps := (List.range h.p).map (fun i =>
    nar (acc [up28 (iat y i), -(acc ((List.range h.n).map (fun j => iat k.c (8 * i + j) * iat xh j)))]))
  (List.range h.n).map (fun i =>
    nar (acc [up28 (iat xh i), acc ((List.range h.p).map (fun j => iat k.l (8 * i + j) * iat eps j))]))

/-- The output sum before the integrator. -/
def vpreOf (h : Hdr) (k : CoeffSet) (xc w : List Int) (rEff : Int) (j : Nat) : Int :=
  acc [-(acc ((List.range h.n).map (fun i => iat k.k (8 * j + i) * iat xc i))),
    acc ((List.range h.q).map (fun l => iat k.f (2 * j + l) * iat w l)), iat k.nn j * rEff]

/-- One actuator of an ordinary firing: ζ, u and its saturation (R176). -/
def actuate (k : CoeffSet) (zeta : List Int) (vpre e : Int) (j : Nat) : Int × Int × Bool :=
  let z := iat zeta j
  let zn := nar (acc [up28 z, iat k.ki j * e])
  let v := nar (acc [vpre, up28 zn])
  let lo := iat k.umin j
  let hi := iat k.umax j
  let uj := clampU v lo hi
  (if (v > hi ∧ zn > z) ∨ (v < lo ∧ zn < z) then z else zn, uj, v != uj)

/-- One actuator of a firing in which a swap applies (R185). -/
def backCalc (k : CoeffSet) (uPrev : List Int) (vpre : Int) (j : Nat) : Int × Int × Bool :=
  let lo := iat k.umin j
  let hi := iat k.umax j
  let vp := nar vpre
  let tgt := clampU (iat uPrev j) lo hi
  if iat k.ki j ≠ 0 then
    let z := satS32 (tgt - vp)
    (z, clampU (satS32 (vp + z)) lo hi, false)
  else (0, clampU vp lo hi, false)

/-- The members' commands (R179). -/
def phaseCmds (h : Hdr) (k : CoeffSet) (f : FireIn) (u : List Int) : List Cmd :=
  let mean := meanOf f.iph f.enabled
  (List.range f.iph.length).map (fun i =>
    let en := f.enabled.getD i false
    let trim := if en then k.kb * (mean - iat f.iph i) else 0
    { held := false, safe := false, en := en, ilv := f.ilv.getD i 0
      duty := match h.duty with
        | none => 0
        | some j => satU16 (rneShr (up28 (iat u j) + trim) 36)
      shift := match h.shift with
        | none => f.ilv.getD i 0 % 65536
        | some j => ofInt 16 (f.ilv.getD i 0 + rneShr (iat u j) 8) })

/-- A list of values padded with zeros to its SRAM length. -/
def padI (n : Nat) (l : List Int) : List Int := l ++ List.replicate (n - l.length) 0

/-- One firing of a group (R174 to R185). -/
def fireLaw (h : Hdr) (c : GroupCtx) (setOf : Nat → Option CoeffSet) (g : KGroup) (k0 : CoeffSet) (f : FireIn) : Fired :=
  let y := outputs h f
  let rt := target f
  let xh := if g.start then (List.range h.n).map (fun i =>
      let t := h.init.getD i 0xFF
      if t = 0xFF then 0 else iat y t) else g.xh
  let zeta := if g.start then List.replicate 4 0 else g.zeta
  let r0 := if g.start then 0 else g.rEff
  let r1 := slew r0 rt k0.slew
  let s := schedVar c f r1
  let ch : Choice :=
    if g.start then
      let b := startBand c s
      ⟨b, (setOf b).getD k0, false, false, false, 0, none⟩
    else chooseSet h c setOf g k0 s
  let k := ch.set
  let rn := if ch.swapping || g.start then slew r0 rt k.slew else r1
  let dr := satS32 (rn - r0)
  let w := (List.range h.q).map (fun l => selVal f dr true (h.wsel.getD l 0xFF))
  let xc := correct h k xh y
  let e := satS32 (rn - iat y h.trk)
  let act := (List.range h.m).map (fun j =>
    let vpre := vpreOf h k xc w rn j
    if ch.swapping then backCalc k g.u vpre j else actuate k zeta vpre e j)
  let u := act.map (fun a => a.2.1)
  let xn := (List.range h.n).map (fun i =>
    nar (acc [acc ((List.range h.n).map (fun j => iat k.a (8 * i + j) * iat xc j)),
      acc ((List.range h.m).map (fun j => iat k.b (4 * i + j) * iat u j)),
      acc ((List.range h.q).map (fun l => iat k.g (2 * i + l) * iat w l))]))
  { choice := ch, rEff := rn, y := padI 8 y, w := padI 2 w, xh := padI 8 xn
    zeta := padI 4 (act.map (fun a => a.1)), u := padI 4 u
    sat := act.map (fun a => a.2.2) ++ List.replicate (4 - h.m) false }

end Sys2Proof.Machine
end

