-- ==== Sys2Proof/Machine/Kiln.lean ====
section
/-! DEFINITION. The Kiln control engine: lanes, firings, deadlines and misses, the collector, the capture gate and the
Kiln's commands (R171 to R196). -/

namespace Sys2Proof.Machine

open Sys2Proof

/-! ### Stored sets -/

/-- The stored set of a group's band. -/
def Cfg.set (c : Cfg) (g b : Nat) : Option CoeffSet := look (8 * g + b) c.sets

/-- The context a lane reads: in bisque service one band and no schedule (R59, R182). -/
def Cfg.laneCtx (c : Cfg) (g : Nat) : GroupCtx :=
  let x := (c.ctx g).getD ⟨0, 1, 0, 0, [], 64⟩
  if c.bisque then { x with bands := 1, sched := 0 } else x

/-! ### Entries into QUIET and HOLD (R173) -/

/-- The context cleared on an entry into QUIET or HOLD; a pending swap, of content or of band, applies at once. `stored` gives a
band's stored set. -/
def KGroup.clear (st : KState) (stored : Nat → Option CoeffSet) (k : KGroup) : KGroup :=
  let b := k.pend.getD k.band
  { k with
    st := st, start := true, band := b
    active := if k.newSet ∨ k.pend.isSome then stored b else k.active
    newSet := false, pend := none, defer := 0, deferred := false, xh := List.replicate 8 0, zeta := List.replicate 4 0
    u := List.replicate 4 0, rEff := 0, causes := [] }

/-- A lane enters QUIET or HOLD. -/
def State.laneStop (g : Nat) (st : KState) (s : State) : State :=
  s.onLane g (fun k => k.clear st (s.conf.set g))

/-! ### The collector (R193) -/

/-- A result joins those that became ready since the latest slot, in ascending link number. -/
def State.toCollector (l : Nat) (c : Cmd) (s : State) : State :=
  s.onKce (fun k => { k with fresh := insertBy (fun a b => decide (a.1 < b.1)) (l, c) k.fresh })

/-- The safe command written in a link's slot at once (Table 06-1, R235). -/
def State.safeSlot (l : Nat) (s : State) : State := s.onLink l (fun x => { x with slot := some Cmd.safeCmd })

/-- A collector slot: the next ready result goes into its link's downstream slot; only an UP link takes it, as every other
link carries PLA's safe commands or none (Table 08-9). -/
def collectorSlot (s : State) : State :=
  match s.kce.queue ++ s.kce.fresh with
  | [] => s
  | (l, c) :: rest =>
    (s.onKce (fun k => { k with queue := rest, fresh := [] })).onLink l (fun x =>
      if x.st = .up then { x with slot := some c } else x)

/-- Meaning of COLLECTOR_SLOT (R193). -/
def execCollectorSlot (s : State) : Res := .next (collectorSlot s.start)

/-! ### The capture gate (R194) -/

/-- A capture record (Table 06-12). -/
def captureBytes (full : Bool) (g : Nat) (k : KGroup) (status : Nat) (u : List Int) : List Byte :=
  le 4 k.count ++ le 4 k.stamp ++ le 1 g ++ le 1 status ++ zeros 2 ++ leS 4 k.rEff ++ u.flatMap (leS 4) ++
    k.y.flatMap (leS 4) ++
    (if full then k.xh.flatMap (leS 4) ++ k.zeta.flatMap (leS 4) ++ k.w.flatMap (leS 4) ++ zeros 8 else [])

/-- A sample's capture record leaves the lane, when its counter is a multiple of the decimation. `bits` holds the missed,
re-fired, swap-applied and swap-deferred bits. -/
def State.capture (g flags : Nat) (s : State) : State :=
  let k := s.lane g
  match k.capture with
  | none => s
  | some c =>
    if k.count % c.decim ≠ 0 then s
    else
      let hold := k.st = .hold
      s.streamRecord c.chan (captureBytes c.full g k (flags + b2n hold * 128 + k.band)
        (if hold then List.replicate 4 0 else k.u))

/-! ### A sample reaches the lane (R173, R188) -/

/-- The sample in work began before the latest gate bank was in force: the bank before it serves (R25). -/
def State.oldBank (s : State) (g : Nat) : Bool := (s.lane g).ts < s.kce.gateAt

/-- What a firing works on, from the sample PSC has judged (R25). -/
def State.fireIn (s : State) (m : GroupMap) (g : Nat) : FireIn :=
  let p := s.pg g
  let k := s.lane g
  let old := s.oldBank g
  let lk (h : Nat) : Link := s.link (m.links.getD h 0xFF)
  { iph := s.iphOf m g
    vin := (List.range m.nPh).map (fun h => (lk h).vin)
    vout := (List.range m.nPh).map (fun h => (lk h).vout)
    avail := (List.range m.nPh).map p.avail
    enabled := (List.range m.nPh).map (fun h => p.st = .running && p.on h)
    ilv := (List.range m.nPh).map (fun h => p.ilv.getD h 0)
    ref := if old then k.oldRef else k.bankRef
    lim := min (if old then k.oldLim else k.bankLim) (clampOf s.conf.bisque m p) }

/-- The actuators' structure and the sets a group fires with. -/
def State.laneSets (s : State) (g : Nat) : Option (Hdr × CoeffSet) :=
  match s.conf.set g 0 with
  | none => none
  | some k0 => some (hdrOf k0, if (s.lane g).start then k0 else (s.lane g).active.getD k0)

/-- The measured outputs of the sample of a group that is not fired with, as a capture record shows them (Table 06-12). -/
def State.sampleOut (s : State) (m : GroupMap) (g : Nat) : List Int :=
  match s.laneSets g with
  | none => (s.lane g).y
  | some (h, _) => padI 8 (outputs h (s.fireIn m g))

/-- The sample counter moves to a new sample: 0 at a start firing (Table 06-12). -/
def KGroup.nextCount (k : KGroup) : KGroup := { k with count := if k.start then 0 else (k.count + 1) % 2 ^ 32 }

/-- The character in which frame `k` of a link's schedule begins, from the character of its frame 0 (R225): a period is `periodNs` / 20
quarter-characters. -/
def frameChar (f0 rate k : Nat) : Nat := f0 + (k * (periodNs rate / 20) + 3) / 4

/-- PLA stamps a group's sample with t_S, the start of the character in which its frames begin (R225): the position that the first
member with a schedule has just passed. -/
def State.stampSample (m : GroupMap) (g : Nat) (s : State) : State :=
  match (m.links.take m.nPh).find? (fun l => (s.link l).sched && (s.link l).got.isSome) with
  | none => s
  | some l =>
    let x := s.link l
    let ts := 80 * frameChar x.f0 x.rate (x.pos - 1)
    s.onLane g (fun k => { k with
      ts := ts
      stamp := match s.sup.stime with
        | none => timeUnknown % 2 ^ 32
        | some t => ofInt 32 ((t : Int) + ts / 1000 - s.sup.uptime) })

/-- The lane's part of a complete sample: it becomes FIRING or QUIET as PSC reports (R173), and takes the sample if it
fires; safe commands take the collector's slots like results (R193). A sample missed at its deadline has been counted, recorded and
answered there. `wasRunning` is PSC's report with the sample: a fast trip in it makes the lane QUIET from the next (R206). -/
def State.laneSample (m : GroupMap) (g : Nat) (wasRunning : Bool) (s : State) : State :=
  let k := s.lane g
  let links := m.links.take m.nPh
  let s := s.stampSample m g
  let safe (s : State) : State := links.foldl (fun s l => s.toCollector l Cmd.safeCmd) s
  if k.st = .hold then
    if k.phase = .missed then s.onLane g (fun k => { k with phase := .idle })
    else
      let s1 := s.onLane g (fun k => { k with
        count := (k.count + 1) % 2 ^ 32, phase := .idle, y := s.sampleOut m g })
      (safe s1).capture g 0
  else if !wasRunning then
    let s1 := if k.st = .firing then s.laneStop g .quiet else s.onLane g (fun k => { k with st := .quiet })
    let s2 := s1.onLane g (fun k => { k with phase := .idle })
    if k.phase = .missed then s2 else safe s2
  else
    let s1 := if k.st = .firing then s else s.onLane g (fun k => { k with st := .firing, start := true })
    if k.phase = .missed then s1.onLane g (fun k => { k with phase := .idle })
    else s1.onLane g (fun k => { k.nextCount with phase := .ready })

/-! ### Firings (R188 to R192) -/

/-- A result that compares equal updates the context, PSC's load step runs on it, and the members' commands go to the
collector (R191, R179, R205). -/
def State.fireLane (m : GroupMap) (g : Nat) (refired : Bool) (h : Hdr) (k0 : CoeffSet) (s : State) : State :=
  let f := s.fireIn m g
  let r := fireLaw h (s.conf.laneCtx g) (s.conf.set g) (s.lane g) k0 f
  let s1 := s.onLane g (fun k => { k with
    band := r.choice.band, active := some r.choice.set
    newSet := k.newSet && !r.choice.swapping && !k.start
    pend := r.choice.pend, defer := r.choice.defer, deferred := r.choice.deferred, xh := r.xh, zeta := r.zeta, u := r.u, sat := r.sat
    rEff := r.rEff, y := r.y, w := r.w, start := false, causes := [], doneCount := k.count, phase := .idle
    forced := if r.choice.forced then incSat k.forced else k.forced })
  let s2 := s1.onPg g (fun p => if p.st = .running then loadStep m (s.temps m) r.rEff p else p)
  let f2 := s2.fireIn m g
  let cmds := (m.links.take m.nPh).zip (phaseCmds h r.choice.set f2 r.u)
  let s3 := cmds.foldl (fun s c => s.toCollector c.1 c.2) (s2.onLane g (fun k => { k with last := cmds }))
  s3.capture g (b2n refired * 32 + b2n r.choice.swapping * 16 + b2n r.choice.deferred * 8)

/-- One firing of a group whose inputs are in, with the outcome of its comparison (R189, R192). -/
def firing (g : Nat) (cmp : Compare) (s : State) : State :=
  let k := s.lane g
  match s.conf.group g, s.laneSets g with
  | some m, some (h, k0) =>
    if k.st ≠ .firing ∨ k.phase ≠ .ready then s
    else match cmp with
      | .equal => s.fireLane m g false h k0
      | .refiredEqual => (s.onLane g (fun k => { k with cmp := incSat k.cmp })).fireLane m g true h k0
      | .mismatch => s.onLane g (fun k => { k with cmp := incSat (incSat k.cmp), phase := .failed 2 })
      | .noTime => s.onLane g (fun k => { k with cmp := incSat k.cmp, phase := .failed 3 })
  | _, _ => s

/-- The outcome of a comparison: whether the two results compare equal, and, where they do not, whether the firing run again does,
if there was time for it (R189, R191). -/
def compareOf (first : Bool) (again : Option Bool) : Compare :=
  if first then .equal
  else match again with
    | some true => .refiredEqual
    | some false => .mismatch
    | none => .noTime

/-- Meaning of FIRING (R188). -/
def execFiring (group : Nat) (first : Bool) (again : Option Bool) (s : State) : Res :=
  .next (firing group (compareOf first again) s.start)

/-- The causes of three misses packed as in the event of a hold (Table 06-7): the third highest. -/
def packCauses (l : List Nat) : Nat := l.getD 2 0 * 2 ^ 16 + l.getD 1 0 * 2 ^ 8 + l.getD 0 0

/-- The held or safe commands of a missed firing (R189, R190); a held one carries PSC's enable and offset of its sample (R204). -/
def State.missCommands (m : GroupMap) (g : Nat) (hold : Bool) (s : State) : State :=
  let p := s.pg g
  (m.links.take m.nPh).zipIdx.foldl (fun s x =>
    s.toCollector x.1 (if hold then Cmd.safeCmd else match look x.1 (s.lane g).last with
      | none => Cmd.safeCmd
      | some c => c.again (p.st = .running && p.on x.2) (p.ilv.getD x.2 0))) s

/-- A miss (R189, R190). In the sample of a fast trip the miss count is cleared instead (Table 07-4); PSC's load-step check runs with
the r_eff that stands (R205). -/
def State.missFiring (m : GroupMap) (g cause : Nat) (s : State) : State :=
  let running := (s.pg g).st = .running
  let s0 := s.onPg g (fun p => if p.st = .running then loadStep m (s.temps m) (s.lane g).rEff p else p)
  let s1 := (s0.onLane g (fun k => { k with
    ovr := incSat k.ovr, lastCause := cause, causes := if running then k.causes ++ [cause] else []
    y := s.sampleOut m g })).onKce (fun x => { x with lastMiss := some (g, cause) })
  let k := s1.lane g
  if k.causes.length ≥ 3 then
    let arg := packCauses k.causes
    let s2 := (s1.laneStop g .hold).onLane g (fun k => { k with holds := incSat k.holds })
    let s3 := ((s2.missCommands m g true).postEvent .pf0 67 0x01 arg g).faultRec 2 0x0301 g arg k.count
    (s3.holdGroup g).capture g 64
  else (s1.missCommands m g false).capture g 64

/-- The firing deadline of a group's sample (R188, R189). -/
def firingDeadline (g : Nat) (s : State) : State :=
  match s.conf.group g with
  | none => s
  | some m =>
    if (s.lane g).st ≠ .firing then s
    else match (s.lane g).phase with
      | .ready => (s.onLane g (fun k => { k with phase := .idle })).missFiring m g 1
      | .failed c => (s.onLane g (fun k => { k with phase := .idle })).missFiring m g c
      | .missed => s
      | .idle =>
        if (m.links.take m.nPh).any (fun l => (s.link l).got.isSome) then
          ((s.stampSample m g).onLane g (fun k => { k.nextCount with phase := .missed })).missFiring m g 1
        else s

/-- Meaning of FIRING_DEADLINE (R189). -/
def execFiringDeadline (group : Nat) (s : State) : Res := .next (firingDeadline group s.start)

/-! ### Commands (Table 06-13) -/

/-- A swap is pending (R183). -/
def KGroup.swapPending (k : KGroup) : Bool := k.newSet || k.deferred

/-- Some actuator was saturated in the last completed firing. -/
def KGroup.saturated (k : KGroup) : Bool := k.sat.any id

/-- The 96 bytes of a KILN_STATUS record (Table 06-14). -/
def kilnRecord (g : Nat) (s : State) : List Byte :=
  let k := s.lane g
  le 4 k.doneCount ++ le 1 k.st.code ++ le 1 k.band ++ le 1 (s.conf.rate g) ++
    le 1 (b2n k.swapPending + 2 * b2n k.deferred + 4 * b2n s.conf.bisque + 8 * b2n k.saturated) ++ le 2 k.defer ++
    le 1 k.causes.length ++ le 1 k.lastCause ++ leS 4 k.bankRef ++ le 4 k.bankLim ++ leS 4 k.rEff ++
    k.u.flatMap (leS 4) ++ k.zeta.flatMap (leS 4) ++ k.xh.flatMap (leS 4) ++ zeros 8

/-- Meaning of KILN_STATUS (R172). -/
def execKilnStatus (q : Sqe) (s : State) : Res :=
  .next (hostCmd 0x30 q [(sd q 1 < 64, 1, 0), (96 ≤ sd q 4, 4, 0)]
    (fun s => s.replyDone q (kilnRecord (sd q 1) s) 96) s.start)

/-- Meaning of KILN_COUNTS (R192). -/
def execKilnCounts (q : Sqe) (s : State) : Res :=
  let n := bits (sd q 6) 6 0
  .next (hostCmd 0x32 q (rangeParams q n 64 16)
    (fun s => s.replyDone q ((List.range n).flatMap (fun i =>
      let k := s.lane (sd q 1 + i)
      le 4 k.ovr ++ le 4 k.cmp ++ le 4 k.forced ++ le 4 k.holds)) n) s.start)

/-- CAPTURE_SET (R194, R195). -/
def captureSet (q : Sqe) (s : State) : State :=
  let d6 := sd q 6
  if bit d6 16 then
    if !(s.tmf.chan (bits d6 3 0)).isOpen then s.done q stBAD_STATE 0
    else (s.onLane (sd q 1) (fun k => { k with capture := some ⟨bits d6 3 0, bit d6 8, bits (sd q 7) 15 0⟩ })).done q stDONE 0
  else (s.onLane (sd q 1) (fun k => { k with capture := none })).done q stDONE 0

/-- Meaning of CAPTURE_SET (R194). -/
def execCaptureSet (q : Sqe) (s : State) : Res :=
  .next (hostCmd 0x33 q
    [(sd q 1 < 64, 1, 0), (!bit (sd q 6) 16 || bits (sd q 7) 15 0 != 0, 7, 0)] (captureSet q) s.start)

end Sys2Proof.Machine
end

