-- ==== Sys2Proof/Machine/Gate.lean ====
section
/-! DEFINITION. The commit gate: manifests (R506), the records of an image and the checks of Table 02-11 in their order
(R62, R513, R517, R518). -/

namespace Sys2Proof.Machine

open Sys2Proof

/-! ### The records of an image -/

/-- How many numbers a record kind takes, and the length of one record (R518 and the records' tables; the framing of the
class and of the Belfry header is the model's, DESIGN CHOICE, log entry 4). -/
def recShape : RecKind → Nat × Nat
  | .groupMap => (64, 64)
  | .groupContext => (64, 64)
  | .coeffSet => (512, 4096)
  | .linkScale => (64, 24)
  | .port => (16, 32)
  | .sensor => (152, 32)
  | .channel => (24, 24)
  | .aqaux => (16, 32)
  | .string => (32, 276)
  | .cls => (1, 1)
  | .ledgerTile => (32, 4096)
  | .belfry => (1, 2008)
  | .quantity => (128, 32)
  | .bisqueLimit => (1, 436)
  | .other _ => (0, 0)

/-- The records of one kind, by number. -/
def recsOf (img : List RawRec) (k : RecKind) : List (Nat × List Byte) :=
  (img.filter (fun r => r.kind = k)).map (fun r => (r.number, r.bytes))

/-- A byte string cut into pieces of `k` bytes. -/
def chunks (k : Nat) : (n : Nat) → List Byte → List (List Byte)
  | 0, _ => []
  | n + 1, b => b.take k :: chunks k n (b.drop k)

/-- `n` signed 32-bit words from offset `o` on. -/
def s32s (b : List Byte) (o n : Nat) : List Int := (chunks 4 n (b.drop o)).map (fun c => toInt 32 (leVal c))

/-- `n` unsigned fields of `k` bytes from offset `o` on. -/
def uns (k : Nat) (b : List Byte) (o n : Nat) : List Nat := (chunks k n (b.drop o)).map leVal

/-- A group map record (Table 07-1). -/
def parseGroup (b : List Byte) : GroupMap :=
  { nPh := u b 0 1, minPh := u b 1 1, ilvMode := bit (u b 2 1) 0, dt := u b 3 1 % 16, links := uns 1 b 4 8
    baseI := u b 12 2, baseV := u b 14 2, iRated := u b 16 4, iPeak := u b 20 4, iFast := u b 24 4, ilv := uns 2 b 28 8
    tau := u b 44 2, ovlOn := u b 46 2, ovlOff := u b 48 2, shedLvl := u b 50 1, addLvl := u b 51 1
    shedDwell := u b 52 1, addDwell := u b 53 1, stepHold := u b 54 2, stepLvl := u b 56 1, retryMax := u b 57 1
    retryDelay := u b 58 2, retryClear := u b 60 2 }

/-- A group context record as the lane reads it (Table 06-5). -/
def parseCtx (b : List Byte) : GroupCtx :=
  { rate := u b 0 1, bands := min (max (u b 1 1) 1) 8, sched := if u b 2 1 > 4 then 0 else u b 2 1, hyst := sgn b 4 4
    th := s32s b 8 7, deferMax := if u b 36 2 = 0 then 64 else u b 36 2 }

/-- A coefficient set (Table 06-4). -/
def parseCoeff (b : List Byte) : CoeffSet :=
  { version := u b 0 2, n := u b 2 1, m := u b 3 1, p := u b 4 1, q := u b 5 1, trk := u b 6 1, rsv := u b 7 1, ysel := uns 1 b 8 8
    init := uns 1 b 16 8, wsel := uns 1 b 24 2, role := uns 1 b 26 4, slew := sgn b 32 4, kb := sgn b 36 4
    umin := s32s b 40 4, umax := s32s b 56 4, a := s32s b 128 64, b := s32s b 384 32, c := s32s b 512 64
    l := s32s b 768 64, k := s32s b 1024 32, ki := s32s b 1152 4, f := s32s b 1168 8, nn := s32s b 1200 4
    g := s32s b 1216 16 }

/-- A link scale record (Table 06-5). -/
def parseScale (b : List Byte) : LinkScale :=
  ⟨sgn b 0 4, sgn b 4 4, sgn b 8 4, sgn b 12 4, sgn b 16 4, sgn b 20 4⟩

/-- A port record (Table 09-1); the device never reads a disabled one (R513). -/
def parsePort (b : List Byte) : PortRec :=
  if bit (u b 0 1) 0 then
    ⟨true, bit (u b 0 1) 1, bit (u b 0 1) 2, u b 1 1, u b 2 2, u b 4 2, u b 6 2, u b 8 1⟩
  else PortRec.off

/-- A sensor record (Table 10-2). -/
def parseSensor (b : List Byte) : SensorRec :=
  if bit (u b 0 1) 0 then
    { enable := true, target := bits (u b 0 1) 2 1, object := u b 1 1, neighbour := u b 2 1, lsw := u b 3 1
      th1 := sgn b 4 2, th2 := sgn b 6 2, th3 := sgn b 8 2, th4 := sgn b 10 2, hyst := u b 12 2, nbOffset := sgn b 14 2
      trim := sgn b 16 2, grace := u b 18 2, tStop := u b 20 2, cap2 := u b 24 4 }
  else SensorRec.off

/-- A channel record (Table 11-1). -/
def parseChan (b : List Byte) : ChanRec :=
  { comp := bit (u b 0 1) 6, compat := bit (u b 0 1) 5, owner := bits (u b 0 1) 4 3, load := bits (u b 0 1) 2 0
    default := bits (u b 1 1) 1 0, iCont := u b 2 2, freq := u b 4 2, duty := u b 6 2, clampBudget := u b 8 2
    clampPwr := u b 10 2, retryMax := u b 12 1, retryDelay := u b 14 2, retryClear := u b 16 2, vNom := u b 18 2 }

/-- An Aqaux record (Table 10-5). -/
def parseAqaux (b : List Byte) : AqauxRec :=
  if bit (u b 0 1) 0 then
    { enable := true, pump := u b 1 1, fan := u b 2 1, flow := u b 3 1, cable := u b 4 1, fanOn := sgn b 6 2
      fanOff := sgn b 8 2, pumpOn := sgn b 10 2, kFlow := u b 12 2, flowMin := u b 14 2, runOn := u b 16 2
      settle := u b 18 2, capNoflow := u b 20 4 }
  else AqauxRec.off

/-- A string record (Table 15-1). -/
def parseString (b : List Byte) : StringRec :=
  if bit (u b 0 1) 0 then
    { enable := true, group := u b 1 1, sens0 := u b 2 1, sens1 := u b 3 1, capNom := u b 4 4, iChg := u b 8 4
      iDis := u b 12 4, vMin := u b 16 4, vMax := u b 20 4, ll := u b 24 2, lo := u b 26 2, hi := u b 28 2
      hh := u b 30 2, hyst := u b 32 2, restMax := u b 34 2, restI := u b 36 4, drift := u b 40 2, eta := u b 42 2
      tChgMin := sgn b 44 2, tChgMax := sgn b 46 2, tDisMin := sgn b 48 2, tDisMax := sgn b 50 2, stepI := u b 52 4
      ocv := uns 4 b 56 11, r0 := uns 2 b 100 88 }
  else StringRec.off

/-- The Belfry record (R421): a header of eight bytes, then the nodes; a disabled node's fields are never read. -/
def parseBelfry (b : List Byte) : BelfryRec :=
  { enable := bit (u b 0 1) 0, hz60 := bit (u b 1 1) 0, blankK := u b 2 1
    nodes := (chunks 8 250 (b.drop 8)).map (fun e =>
      if bit (u e 4 1) 0 then ⟨u e 0 4, true, bit (u e 4 1) 1, bit (u e 4 1) 2⟩ else ⟨0, false, false, false⟩) }

/-- A quantity record (Table 17-1). -/
def parseQuant (b : List Byte) : QuantRec :=
  if bit (u b 0 1) 0 then ⟨true, u b 1 1, u b 2 2, u b 4 2, u b 6 2, sgn b 8 4, u b 12 4⟩ else QuantRec.off

/-- The bisque limit record (Table 02-12). -/
def parseLimit (b : List Byte) : BisqueLimit :=
  ⟨u b 0 4, uns 4 b 4 64, uns 4 b 260 16, uns 4 b 324 16, uns 1 b 388 16, uns 1 b 404 32⟩

/-- The entries of a ledger tile that are not FREE, as they decode. -/
def tileEntries (t : Nat) (b : List Byte) : List (Nat × Option Entry) :=
  ((List.range 128).zip (chunks 32 128 b)).filterMap (fun x =>
    if x.2.all (fun y => y == 0) then none else some (128 * t + x.1, decodeEntry x.2))

/-- Every ledger entry of an image that is not FREE, as it decodes, by rising index. -/
def rawLedger (img : List RawRec) : List (Nat × Option Entry) :=
  let r := recsOf img .ledgerTile
  (List.range 32).flatMap (fun t => match look t r with | none => [] | some b => tileEntries t b)

/-- The ledger of a full image. -/
def parseLedger (img : List RawRec) : List (Nat × Entry) :=
  (rawLedger img).filterMap (fun p => p.2.map (fun e => (p.1, e)))

/-- A table of `n` records of a kind. -/
def parseTable {α : Type} (img : List RawRec) (k : RecKind) (n : Nat) (f : List Byte → α) (d : α) : List α :=
  let r := recsOf img k
  (List.range n).map (fun i => match look i r with | none => d | some b => f b)

/-- An image parsed. Kinds and numbers it does not need are ignored. -/
def parseCfg (bisque : Bool) (fmt id : Nat) (img : List RawRec) : Cfg :=
  { bisque := bisque, fmt := fmt, id := id
    cls := match look 0 (recsOf img .cls) with | none => 0 | some b => u b 0 1
    groups := parseTable img .groupMap 64 (fun b => some (parseGroup b)) none
    ctxs := parseTable img .groupContext 64 (fun b => some (parseCtx b)) none
    sets := (recsOf img .coeffSet).map (fun r => (r.1, parseCoeff r.2))
    scales := (recsOf img .linkScale).map (fun r => (r.1, parseScale r.2))
    ports := parseTable img .port 16 parsePort PortRec.off
    sensors := parseTable img .sensor 152 parseSensor SensorRec.off
    chans := parseTable img .channel 24 parseChan ChanRec.off
    aqaux := parseTable img .aqaux 16 parseAqaux AqauxRec.off
    strings := parseTable img .string 32 parseString StringRec.off
    belfry := (look 0 (recsOf img .belfry)).map parseBelfry
    quants := parseTable img .quantity 128 parseQuant QuantRec.off
    limit := if bisque then (look 0 (recsOf img .bisqueLimit)).map parseLimit else none
    ledger := if bisque then [] else parseLedger img }

/-! ### Content stage of check 0x02 (R62, R518) -/

/-- No key stands twice in a list. -/
def noRepeat : List Nat → Bool
  | [] => true
  | x :: r => !r.contains x && noRepeat r

/-- Every kind of record. -/
def recKinds : List RecKind :=
  [.groupMap, .groupContext, .coeffSet, .linkScale, .port, .sensor, .channel, .aqaux, .string, .cls, .ledgerTile, .belfry,
   .quantity, .bisqueLimit]

/-- Every record is of a kind the format defines, has the length of its kind and a number of its kind, and stands once. -/
def recsFit (img : List RawRec) : Bool :=
  img.all (fun r => r.number < (recShape r.kind).1 && r.bytes.length == (recShape r.kind).2) &&
    recKinds.all (fun k => noRepeat ((recsOf img k).map Prod.fst))

/-- All records of a kind are there. -/
def hasAll (img : List RawRec) (k : RecKind) : Bool :=
  let r := (recsOf img k).map Prod.fst
  (List.range (recShape k).1).all r.contains

/-- The records R518 requires are there. A quantity table, where an image carries any of it, is carried whole. -/
def recsComplete (c : Cfg) (img : List RawRec) : Bool :=
  let sets := (recsOf img .coeffSet).map Prod.fst
  let scales := (recsOf img .linkScale).map Prod.fst
  (List.range 64).all (fun g => match c.group g with
    | none => true
    | some m => match c.ctx g with
      | none => false
      | some x => (List.range (if c.bisque then 1 else x.bands)).all (fun b => sets.contains (8 * g + b)) &&
          (m.links.take (min m.nPh 8)).all (fun l => 63 < l || scales.contains l)) &&
    [RecKind.port, .sensor, .channel, .aqaux, .string, .cls].all (hasAll img) &&
    (if c.bisque then hasAll img .bisqueLimit && ((recsOf img .quantity).isEmpty || hasAll img .quantity)
     else hasAll img .ledgerTile && hasAll img .belfry && hasAll img .quantity)

/-! ### Check 0x05, MAP_CONFLICT -/

/-- The configured groups of an image, by number. -/
def Cfg.groupList (c : Cfg) : List (Nat × GroupMap) :=
  (List.range 64).filterMap (fun g => (c.group g).map (fun m => (g, m)))

/-- R198: phases and links. -/
def mapsOk (c : Cfg) : Bool :=
  c.groupList.all (fun x => 1 ≤ x.2.nPh && x.2.nPh ≤ 8 && (x.2.links.take x.2.nPh).all (fun l => decide (l < 64))) &&
    noRepeat (c.groupList.flatMap (fun x => x.2.links.take x.2.nPh))

/-- How often a bisque image's enabled ports and configured strings name a group. -/
def Cfg.named (c : Cfg) (g : Nat) : Nat :=
  countOf 16 (fun p => (c.port p).enable && (c.port p).group == g) +
    countOf 32 (fun j => (c.str j).enable && (c.str j).group == g)

/-- A group that a bisque image's port or string may name (R244, R390). -/
def bisqueGroupOk (c : Cfg) (g : Nat) : Bool := (c.group g).isSome && c.named g == 1

/-- R244: a port and its OUTLET edge. -/
def portMapOk (c : Cfg) (p : Nat) : Bool :=
  let r := c.port p
  if c.bisque then !r.enable || bisqueGroupOk c r.group
  else match (farOf c.ledger false p).map Prod.fst with
    | none => !r.enable
    | some g => r.enable && r.group == g

/-- R390: a string and its STORE edge. -/
def stringMapOk (c : Cfg) (j : Nat) : Bool :=
  let r := c.str j
  !r.enable ||
    (if c.bisque then bisqueGroupOk c r.group else (farOf c.ledger true j).map Prod.fst == some r.group)

/-- The row of Table 10-1 a sensor stands in. -/
def sensorRow (n : Nat) : Nat := if n < 64 then 0 else if n < 88 then 1 else 2

/-- R271: a sensor's target and neighbour. -/
def sensorMapOk (c : Cfg) (n : Nat) : Bool :=
  let r := c.sensor n
  !r.enable ||
    ((r.target != 1 || (c.group r.object).isSome) && (r.target != 2 || (c.port r.object).enable) &&
      (match sensorRow n with
        | 0 => true
        | 1 => r.target == 0 || r.target == 3
        | _ => r.target == 0 || (r.target == 1 && (c.memberOf (n - 88)).map Prod.fst == some r.object)) &&
      (r.neighbour == 0xFF ||
        (r.neighbour != n && (c.sensor r.neighbour).enable && sensorRow r.neighbour == sensorRow n)))

/-- The channels an Aqaux record drives. -/
def AqauxRec.chans (r : AqauxRec) : List Nat := if r.enable then [r.pump, r.fan].filter (fun n => n ≠ 0xFF) else []

/-- R285: ports, cable sensors, flow inputs and channels of the Aqaux records. -/
def aqauxMapOk (c : Cfg) : Bool :=
  (List.range 16).all (fun p =>
    let r := c.aq p
    !r.enable || ((c.port p).enable && (c.sensor r.cable).enable &&
      (List.range 16).all (fun k => k == p || !(c.aq k).enable ||
        ((r.flow == 0xFF || (c.aq k).flow != r.flow) && r.chans.all (fun n => !(c.aq k).chans.contains n)))))

/-- R421: the serial numbers of the enabled nodes. -/
def belfryMapOk (c : Cfg) : Bool :=
  match c.belfry with
  | none => true
  | some r =>
    let l := (r.nodes.filter (fun n => n.enable)).map (fun n => n.serial)
    l.all (fun x => x != 0) && noRepeat l

/-- R426: a quantity's object exists. -/
def quantMapOk (c : Cfg) (q : Nat) : Bool :=
  let r := c.quant q
  !r.enable ||
    (match r.kind with
      | 1 | 2 | 3 => (c.group r.index).isSome
      | 5 => (c.sensor r.index).enable
      | 6 => (c.port r.index).enable
      | 8 => (c.str r.index).enable
      | 10 => r.index < 24
      | _ => true)

/-- Check 0x05. -/
def noConflict (c : Cfg) : Bool :=
  mapsOk c && (List.range 16).all (portMapOk c) && (List.range 32).all (stringMapOk c) &&
    (List.range 152).all (sensorMapOk c) && aqauxMapOk c && belfryMapOk c && (List.range 128).all (quantMapOk c)

/-! ### Check 0x06, LIMIT_RANGE -/

/-- A number lies between two bounds. -/
def inR (x lo hi : Nat) : Bool := decide (lo ≤ x) && decide (x ≤ hi)

/-- An integer lies between two bounds. -/
def inI (x lo hi : Int) : Bool := decide (lo ≤ x) && decide (x ≤ hi)

/-- Table 07-1. -/
def groupRange (b : List Byte) : Bool :=
  let m := parseGroup b
  inR m.minPh 1 m.nPh && u b 2 1 ≤ 1 && u b 3 1 ≤ 15 && (m.links.drop m.nPh).all (fun l => l == 0xFF) &&
    1 ≤ m.baseI && inR m.baseV 1 1250 && m.iPeak ≤ m.iFast && inR m.tau 1 1000 && inR m.ovlOn 100 400 &&
    inR m.ovlOff 50 (m.ovlOn - 1) && m.shedLvl ≤ 90 && inR m.addLvl (m.shedLvl + 10) 100 && inR m.shedDwell 1 100 &&
    inR m.addDwell 1 100 && m.stepHold ≤ 1000 && inR m.stepLvl 1 100 && m.retryMax ≤ 15 && inR m.retryDelay 10 10000 &&
    inR m.retryClear 1 3600 && !nonzero b 62 2

/-- A group's NODE limit, or its rated power in a bisque image (R198). -/
def Cfg.nodeLimit (c : Cfg) (g : Nat) : Nat :=
  match c.limit with
  | some l => l.rated.getD g 0
  | none => match (c.ledger.find? (fun x => isNode 2 g x.2)).map Prod.snd with
    | some (.node _ _ lim _ _ _) => lim
    | _ => 0

/-- R244. -/
def portRange (b : List Byte) : Bool :=
  let r := parsePort b
  u b 0 1 < 8 && !nonzero b 9 23 &&
    (!r.enable || (decide (r.ppLo < r.ppMid) && decide (r.ppMid < r.ppHi) && r.ppHi ≤ 3300 && r.spiClk ≤ 2))

/-- The greatest thresholds of the internal sensors in 0.01 °C (Table 10-3). -/
def internalMax (n : Nat) : List Int :=
  if n = 74 then [5500, 6000, 6500, 7000]
  else if 75 ≤ n ∧ n ≤ 80 then [10000, 11000, 12000, 13000]
  else if 85 ≤ n then [8500, 9000, 9500, 10000]
  else [9500, 10500, 11500, 12500]

/-- R271: the thresholds of a sensor. -/
def thresholdsOk (n : Nat) (r : SensorRec) : Bool :=
  let low := [r.th1, r.th2].filter (fun t => t ≠ 0x7FFF)
  let all := low ++ [r.th3, r.th4]
  let mx := internalMax n
  let under (i : Nat) (t : Int) : Bool := sensorRow n != 1 || t ≤ mx.getD i 0
  all.all (fun t => inI t (-5000) 25000) &&
    (r.th1 == 0x7FFF || r.th2 == 0x7FFF || decide (r.th1 < r.th2)) && low.all (fun t => decide (t < r.th3)) &&
    r.th3 + 200 ≤ r.th4 && (r.th1 == 0x7FFF || under 0 r.th1) && (r.th2 == 0x7FFF || under 1 r.th2) && under 2 r.th3 &&
    under 3 r.th4

/-- R271. -/
def sensorRange (n : Nat) (b : List Byte) : Bool :=
  let r := parseSensor b
  u b 0 1 < 8 && !nonzero b 22 2 && !nonzero b 28 4 &&
    (!r.enable ||
      ((if r.target = 1 then decide (r.object ≤ 63) else if r.target = 2 then decide (r.object ≤ 15) else r.object == 0) &&
        (r.neighbour == 0xFF || r.neighbour < 152) && (r.lsw == 0xFF || r.lsw < 24) && thresholdsOk n r &&
        inR r.hyst 50 1000 && inI r.nbOffset (-2000) 2000 && inI r.trim (-500) 500 &&
        (r.grace == 0 || inR r.grace 100 30000) && (r.tStop == 0 || inR r.tStop 100 10000) &&
        (r.target != 3 || decide (r.cap2 < 65536))))

/-- R294. -/
def chanRange (b : List Byte) : Bool :=
  let r := parseChan b
  u b 0 1 < 128 && r.load ≤ 4 && u b 1 1 ≤ 2 && inR r.iCont 100 4000 && inR r.freq 100 400 && r.duty ≤ 1000 &&
    inR r.clampBudget 1 500 && inR r.clampPwr 10 1000 && r.retryMax ≤ 15 && !nonzero b 13 1 && inR r.retryDelay 10 60000 &&
    inR r.retryClear 1 3600 && inR r.vNom 9000 32000 && !nonzero b 20 4 && !(r.default == 2 && pwmRefused r)

/-- R285. -/
def aqauxRange (b : List Byte) : Bool :=
  let r := parseAqaux b
  let ch (n : Nat) : Bool := n == 0xFF || n < 24
  u b 0 1 < 2 && !nonzero b 5 1 && !nonzero b 24 8 &&
    (!r.enable ||
      (ch r.pump && ch r.fan && (r.flow == 0xFF || r.flow < 16) && r.cable < 64 && decide (r.fanOff < r.fanOn) &&
        inR r.kFlow 100 10000 && inR r.flowMin 1 2000 && r.runOn ≤ 3600 && inR r.settle 1 60))

/-- Each entry of a list is below the next. -/
def rising : List Nat → Bool
  | a :: b :: r => decide (a < b) && rising (b :: r)
  | _ => true

/-- R390. -/
def stringRange (b : List Byte) : Bool :=
  let r := parseString b
  let sens (n : Nat) : Bool := n == 0xFF || n < 152
  u b 0 1 < 2 &&
    (!r.enable ||
      (r.group ≤ 63 && sens r.sens0 && sens r.sens1 && inR r.capNom 1000 4000000 && inR r.iChg 1000 3000000 &&
        inR r.iDis 1000 3000000 && decide (r.vMin < r.vMax) && r.vMax ≤ 1250000 &&
        rising [r.ll, r.lo, r.hi, r.hh] && r.hh ≤ 10000 && inR r.hyst 50 500 && (r.restMax == 0 || inR r.restMax 1 168) &&
        inR r.restI 100 50000 && (r.drift == 0 || inR r.drift 1 100) && (r.eta == 0 || inR r.eta 62259 65535) &&
        decide (r.tChgMin < r.tChgMax) && decide (r.tDisMin < r.tDisMax) && inR r.stepI 10000 1000000 && rising r.ocv))

/-- R421. R513 speaks of a disabled node's entry alone: whether the header's other fields are checked while its enable is 0 is open, and
the model checks them in full whatever the enable (DESIGN CHOICE, log entry 29). -/
def belfryRange (b : List Byte) : Bool :=
  u b 0 1 ≤ 1 && u b 1 1 ≤ 1 && inR (u b 2 1) 2 32 && !nonzero b 3 5 &&
    (chunks 8 250 (b.drop 8)).all (fun e => u e 4 1 < 8 && !nonzero e 5 3)

/-- R426. -/
def quantRange (b : List Byte) : Bool :=
  let r := parseQuant b
  u b 0 1 < 2 && !nonzero b 16 16 &&
    (!r.enable ||
      (inR r.kind 1 11 && 1 ≤ r.period && 1440 % r.period == 0 && inR r.sampleMs 1 1000 && 1 ≤ r.width &&
        ([1, 2, 3, 5, 6, 8, 10].contains r.kind || r.index == 0)))

/-- R517: the entries of what a bisque image configures. -/
def limitRange (c : Cfg) (l : BisqueLimit) : Bool :=
  inR l.imp 1 480000 && c.groupList.all (fun x => inR (l.rated.getD x.1 0) 1 480000) &&
    (List.range 16).all (fun p => !(c.port p).enable ||
      (inR (l.portI.getD p 0) 1 3000000 && inR (l.portV.getD p 0) 1 1250000 && l.portTier.getD p 0 ≤ 7)) &&
    (List.range 32).all (fun j => !(c.str j).enable || l.stringTier.getD j 0 ≤ 7)

/-- Every record of a kind passes a test of its number and bytes. -/
def allRecs (img : List RawRec) (k : RecKind) (f : Nat → List Byte → Bool) : Bool :=
  (recsOf img k).all (fun r => f r.1 r.2)

/-- Check 0x06. -/
def inRange (c : Cfg) (img : List RawRec) : Bool :=
  allRecs img .groupMap (fun _ => groupRange) &&
    c.groupList.all (fun x => decide (c.nodeLimit x.1 ≤ 7500 * x.2.nPh)) &&
    c.ledger.all (fun x => entryRange x.2) && (match c.limit with | none => true | some l => limitRange c l) &&
    allRecs img .port (fun _ => portRange) && allRecs img .sensor sensorRange && allRecs img .channel (fun _ => chanRange) &&
    allRecs img .aqaux (fun _ => aqauxRange) && allRecs img .string (fun _ => stringRange) &&
    allRecs img .belfry (fun _ => belfryRange) && allRecs img .quantity (fun _ => quantRange)

/-! ### Checks 0x07 to 0x0C -/

/-- A coefficient set under the structure of its group's band 0 (R62). -/
def setOk (m : Nat) (k : CoeffSet) : Bool :=
  k.version == 1 && inI k.slew 0 0x1000000 &&
    (List.range (min (max m 1) 4)).all (fun j => decide (k.umin.getD j 0 ≤ k.umax.getD j 0))

/-- The dimensions of band 0. -/
def dimsOk (k : CoeffSet) : Bool := k.n ≤ 8 && k.m ≤ 4 && k.p ≤ 8 && k.q ≤ 2

/-- A group's context and sets. -/
def groupCoeffOk (c : Cfg) (g : Nat) : Bool :=
  match c.ctx g, c.set g 0 with
  | some x, some k0 =>
    inI x.hyst 0 0x1000000 && x.deferMax ≤ 1024 && x.rate ≤ 5 && dimsOk k0 &&
      (List.range (if c.bisque then 1 else x.bands)).all (fun b => match c.set g b with
        | none => false
        | some k => setOk k0.m k)
  | _, _ => false

/-- Check 0x07. -/
def coeffsOk (c : Cfg) : Bool := c.groupList.all (fun x => groupCoeffOk c x.1)

/-- An entry is a SESSION. -/
def Entry.isSession : Entry → Bool
  | .session _ _ _ _ _ _ _ _ _ _ => true
  | _ => false

/-- Check 0x08 of a full image: every entry is valid, none is a SESSION, and the ledger is valid (R141, R144). -/
def ledgerOk (c : Cfg) (img : List RawRec) : Bool :=
  c.bisque || ((rawLedger img).all (fun x => x.2.isSome) && c.ledger.all (fun x => !x.2.isSession) && validLedger c c.ledger)

/-- The number of enabled ports. -/
def Cfg.portCount (c : Cfg) : Nat := countOf 16 (fun p => (c.port p).enable)

/-- R31. -/
def classOk (c : Cfg) : Bool := (c.cls == 1 && inR c.portCount 1 4) || (c.cls == 2 && inR c.portCount 5 16)

/-- Check 0x0B (R23, R271, R285, R294). -/
def ownersOk (c : Cfg) : Bool :=
  let aq := (List.range 16).flatMap (fun p => (c.aq p).chans)
  (List.range 24).all (fun n => (c.chan n).owner == 1 || (c.chan n).owner == 2) &&
    (List.range 152).all (fun n => !(c.sensor n).enable || !aq.contains (c.sensor n).lsw) &&
    aq.all (fun n => (c.chan n).owner == 2)

/-- Check 0x0C. -/
def loadOk (c : Cfg) : Bool := sumN ((List.range 24).map (fun n => (c.chan n).iCont)) ≤ 48000

/-- The content stage of 0x02 and the checks 0x05 to 0x0C in their order: the first reason that fails (R62). `carried` says that
the sessions the admission would carry over stand on free entries, a part of LEDGER_INVALID (R169). -/
def contentReason (c : Cfg) (carried : Bool) (img : List RawRec) : Option Nat :=
  if !(recsFit img && recsComplete c img) then some 0x02
  else if !noConflict c then some 0x05
  else if !inRange c img then some 0x06
  else if !coeffsOk c then some 0x07
  else if !(ledgerOk c img && carried) then some 0x08
  else if c.portCount = 0 then some 0x09
  else if !classOk c then some 0x0A
  else if !ownersOk c then some 0x0B
  else if !loadOk c then some 0x0C
  else none

/-! ### Manifests (R506) -/

/-- A manifest tile (Table 22-7). -/
structure Manifest where
  magic : Nat
  fmt : Nat
  kind : Nat
  id : Nat
  next : Nat
  total : Nat
  handles : List Nat
  count : Nat
deriving DecidableEq, Repr

/-- A manifest tile's content. -/
def parseManifest (b : List Byte) : Manifest :=
  { magic := u b 0 4, fmt := u b 4 2, kind := u b 6 1, id := u b 8 4, next := u b 16 4, total := u b 20 4
    handles := uns 4 b 32 (min (u b 12 2) 1016), count := u b 12 2 }

/-- What the manifest chain and its tiles come to: the image's formats, id, and tiles, or a reason with the tile that
failed its check, if one did. -/
inductive Chain where
  | good (fmts : List Nat) (id : Nat) (handles : List Nat) (listed : Nat)
  | bad (reason : Nat) (tile : Option Nat)
deriving DecidableEq, Repr

/-- A CLOSED host tile's content. -/
def State.closedTile (s : State) (h : Nat) : Option (List Byte) :=
  match s.tmf.hostTile h with
  | none => none
  | some x => if x.closed then some x.bytes else none

/-- The manifests of a chain, each verified as it is read: at most `n` more (R506). `corrupt` are the tile indices that fail
their check now. -/
def readChain (s : State) (kind : Nat) (corrupt : List Nat) : (n h : Nat) → List (Nat × Manifest) → List (Nat × Manifest) ⊕ (Nat × Option Nat)
  | 0, _, _ => .inr (0x02, none)
  | n + 1, h, seen =>
    match s.closedTile h with
    | none => .inr (0x02, none)
    | some b =>
      if corrupt.contains (handleIdx h) then .inr (0x03, some (handleIdx h))
      else
        let m := parseManifest b
        let id := match seen with | [] => m.id | (_, x) :: _ => x.id
        if m.magic ≠ 0x514B4D46 || m.kind ≠ kind || m.id = 0 || m.id ≠ id || !inR m.count 1 1016 then .inr (0x02, none)
        else if m.next = 0 then .inl (seen ++ [(h, m)])
        else readChain s kind corrupt n m.next (seen ++ [(h, m)])

/-- The manifest stage of 0x02, then 0x03 (R62): the chain, that the handles sum to N, that every listed tile is CLOSED, and
that each passes its check. -/
def chainOf (s : State) (h kind : Nat) (corrupt : List Nat) : Chain :=
  match readChain s kind corrupt 3 h [] with
  | .inr (r, t) => .bad r t
  | .inl ms =>
    let tiles := ms.flatMap (fun x => x.2.handles)
    if !inR tiles.length 1 2048 || ms.any (fun x => x.2.total != tiles.length) then .bad 0x02 none
    else if tiles.any (fun t => (s.closedTile t).isNone) then .bad 0x02 none
    else match tiles.find? (fun t => corrupt.contains (handleIdx t)) with
      | some t => .bad 0x03 (some (handleIdx t))
      | none => .good (ms.map (fun x => x.2.fmt)) (match ms with | [] => 0 | (_, x) :: _ => x.id) (ms.map Prod.fst ++ tiles) tiles.length

/-- The gate's verdict on an image: its configuration, or the reason and the tile that failed its check. -/
inductive Verdict where
  | pass (cfg : Cfg)
  | fail (reason : Nat) (tile : Option Nat)
deriving DecidableEq, Repr

/-- Validation (R62): the manifest stage, IMAGE_CRC, VERSION, the content. `img` are the records the image's tiles hold,
`carried` R169's check of the sessions carried over. -/
def gateOf (s : State) (h : Nat) (bisque : Bool) (carried : Cfg → Bool) (img : List RawRec) (corrupt : List Nat) : Verdict :=
  match chainOf s h (b2n bisque) corrupt with
  | .bad r t => .fail r t
  | .good fmts id _ _ =>
    if fmts.any (fun f => !inR f s.sup.cfgMin s.sup.cfgMax) then .fail 0x04 none
    else
      let c := parseCfg bisque (fmts.headD 0) id img
      match contentReason c (carried c) img with
      | some r => .fail r none
      | none => .pass c

end Sys2Proof.Machine
end

