-- ==== Sys2Proof/Machine/Line.lean ====
section
/-! DEFINITION. The 8b/10b line code of the phase links (R217, R219). The code table and the running-disparity rules are those of
IEEE 802.3 clause 36, which the manual names and does not print (PRESUMED, log entry 9). A 10-bit group is a number whose most
significant bit is bit a, the one sent first. -/

namespace Sys2Proof.Machine

open Sys2Proof

/-- A character: a special one or a data octet. -/
structure LineSym where
  special : Bool
  octet : Nat
deriving DecidableEq, Repr

/-- The 6-bit sub-blocks abcdei of D.0 to D.31 at negative running disparity. -/
def code6 : List Nat :=
  [0b100111, 0b011101, 0b101101, 0b110001, 0b110101, 0b101001, 0b011001, 0b111000, 0b111001, 0b100101, 0b010101, 0b110100,
    0b001101, 0b101100, 0b011100, 0b010111, 0b011011, 0b100011, 0b010011, 0b110010, 0b001011, 0b101010, 0b011010, 0b111010,
    0b110011, 0b100110, 0b010110, 0b110110, 0b001110, 0b101110, 0b011110, 0b101011]

/-- The 4-bit sub-blocks fghj of D.x.0 to D.x.7 at negative running disparity. -/
def code4 : List Nat := [0b1011, 0b1001, 0b0101, 0b1100, 0b1101, 0b1010, 0b0110, 0b1110]

/-- The 4-bit sub-blocks fghj of special characters .0 to .7 behind a 6-bit sub-block that leaves positive running disparity. -/
def code4k : List Nat := [0b0100, 0b1001, 0b0101, 0b0011, 0b0010, 0b1010, 0b0110, 0b1000]

/-- The number of ones in a sub-block. -/
def ones (n w : Nat) : Nat := countOf w (bit n)

/-- The 6-bit sub-block of a character at running disparity `rd` (true: positive), and the disparity behind it. -/
def enc6 (rd : Bool) (c : LineSym) : Nat × Bool :=
  let x := c.octet % 32
  let a := if c.special && x == 28 then 0b001111 else code6.getD x 0
  let flat := ones a 6 == 3
  (if rd && (!flat || x == 7) then 63 - a else a, if flat then rd else !rd)

/-- The 4-bit sub-block of a character at the disparity behind its 6-bit sub-block, and the disparity behind the group. The alternate
D.x.A7 stands where five equal bits would follow one another. -/
def enc4 (rd : Bool) (c : LineSym) : Nat × Bool :=
  let x := c.octet % 32
  let y := c.octet / 32 % 8
  if c.special then
    let b := code4k.getD y 0
    (if rd then b else 15 - b, if ones b 4 == 2 then rd else !rd)
  else
    let alt := y == 7 && (if rd then x == 11 || x == 13 || x == 14 else x == 17 || x == 18 || x == 20)
    let b := if alt then 0b0111 else code4.getD y 0
    let flat := ones b 4 == 2
    (if rd && (!flat || y == 3) then 15 - b else b, if flat then rd else !rd)

/-- The 10-bit group of a character at a running disparity, and the disparity behind it. -/
def enc10 (rd : Bool) (c : LineSym) : Nat × Bool :=
  let a := enc6 rd c
  let b := enc4 a.2 c
  (a.1 * 16 + b.1, b.2)

/-- The groups of a run of characters, and the disparity behind them. -/
def encodeLine : (rd : Bool) → List LineSym → List Nat × Bool
  | rd, [] => ([], rd)
  | rd, c :: rest =>
    let a := enc10 rd c
    let r := encodeLine a.2 rest
    (a.1 :: r.1, r.2)

/-- The special characters that 8b/10b has. -/
def specials : List Nat := [0x1C, 0x3C, 0x5C, 0x7C, 0x9C, 0xBC, 0xDC, 0xFC, 0xF7, 0xFB, 0xFD, 0xFE]

/-- The character of a group in the column of a running disparity, if there is one. -/
def dec10 (rd : Bool) (g : Nat) : Option LineSym :=
  match specials.find? (fun o => (enc10 rd ⟨true, o⟩).1 == g) with
  | some o => some ⟨true, o⟩
  | none =>
    match (List.range 32).find? (fun x => (enc6 rd ⟨false, x⟩).1 == g / 16) with
    | none => none
    | some x => ((List.range 8).find? (fun y => (enc10 rd ⟨false, 32 * y + x⟩).1 == g)).map (fun y => ⟨false, 32 * y + x⟩)

/-- The kinds of code error (R219): a special character the link does not use, one of Table 08-1 in the wrong direction, a
running-disparity error, a group that is not in the code table. -/
inductive CodeErr where
  | special
  | direction
  | disparity
  | noCode
deriving DecidableEq, Repr

/-- A received character, or the code error it is (Table 08-1, upstream). -/
def received (rd : Bool) (g : Nat) : LineSym ⊕ CodeErr :=
  match dec10 rd g with
  | none => .inr (if (dec10 (!rd) g).isSome then .disparity else .noCode)
  | some c =>
    if !c.special || [0xBC, 0xFB, 0xF7, 0x7C].contains c.octet then .inl c
    else .inr (if c.octet = 0x3C then .direction else .special)

/-- The disparity behind a received group: that of its ones, or unchanged where they balance. -/
def rdAfter (rd : Bool) (g : Nat) : Bool := if ones g 10 = 5 then rd else 5 < ones g 10

/-- The characters of a received run of groups that begins at disparity `rd`. -/
def receiveLine : (rd : Bool) → List Nat → List (LineSym ⊕ CodeErr)
  | _, [] => []
  | rd, g :: rest => received rd g :: receiveLine (rdAfter rd g) rest

/-- A frame as received: the octets behind its start character, and whether a code error or a special character stands among them;
none where it does not begin with that start character. -/
def rxFrame (sof : Nat) (rd : Bool) (groups : List Nat) : Option (List Byte × Bool) :=
  match receiveLine rd groups with
  | .inl c :: rest =>
    if c.special && c.octet == sof then
      some (rest.map (fun x => match x with | .inl d => BitVec.ofNat 8 d.octet | .inr _ => 0),
        rest.any (fun x => match x with | .inl d => d.special | .inr _ => true))
    else none
  | _ => none

/-- The places of the code errors in a received run of groups (R219, R222). -/
def lineErrors (rd : Bool) (groups : List Nat) : List Nat :=
  (receiveLine rd groups).zipIdx.filterMap (fun x => match x.1 with | .inl _ => none | .inr _ => some x.2)

/-- The groups of a frame: a start character and data octets. -/
def lineSyms (sof : Byte) (chars : List Byte) : List LineSym := ⟨true, sof.toNat⟩ :: chars.map (fun b => ⟨false, b.toNat⟩)

end Sys2Proof.Machine
end

