-- ==== Sys2Proof/Machine/Pla.lean ====
section
/-! DEFINITION. Phase links: SAMPLE, COMMAND and MGMT frames, training, link states and the PLA commands (R216 to R242). -/

namespace Sys2Proof.Machine

open Sys2Proof

/-! ### Frames sent -/

/-- Octets of the special characters (Table 08-1): K27.7 starts a COMMAND downstream and a SAMPLE upstream. -/
def sofCommand : Byte := 0xFB
def sofMgmt : Byte := 0xF7
def sofSync : Byte := 0x3C
def sofEcho : Byte := 0x7C

/-- A frame's covered characters with their CRC, high byte first (R220). -/
def withCrc16 (b : List Byte) : List Byte := b ++ be 2 (crc16 b)

/-- The idle comma K28.5 (R219). -/
def idleComma : LineSym := ⟨true, 0xBC⟩

/-- The groups of a frame or ordered set, behind the idle commas sent since the one before, and the disparity behind them. How many
commas there are is finer than the model's time: an open value (log entry 9). -/
def State.lineGroups (s : State) (l : Nat) (sof : Byte) (chars : List Byte) : List Nat × Bool :=
  encodeLine (s.link l).rd (List.replicate (Config.freeNat s.free) idleComma ++ lineSyms sof chars)

/-- A frame or ordered set goes down a link (R217, R219). -/
def State.sendLine (l : Nat) (sof : Byte) (chars : List Byte) (s : State) : State :=
  let x := s.lineGroups l sof chars
  (s.took.onLink l (fun k => { k with rd := x.2 })).emit (.line l x.1)

/-- The dead-time code PSC supplies for a link (R179, R227): its group's, or 0 in no group. -/
def State.deadTime (s : State) (l : Nat) : Nat :=
  match s.conf.memberOf l with
  | none => 0
  | some (g, _) => match s.conf.group g with
    | none => 0
    | some m => m.dt

/-- A COMMAND frame is sent (Table 08-3): its sequence number advances by 1 on every frame of the link, it answers the latest sample, and
its dead-time code is PSC's. -/
def State.sendCommand (l : Nat) (c : Cmd) (s : State) : State :=
  let k := s.link l
  let seq := match k.seq with | none => 0 | some n => (n + 1) % 256
  let chars := withCrc16 (le 2 c.duty ++ le 2 c.shift ++ le 1 (b2n c.en * 16 + s.deadTime l % 16) ++ le 1 seq ++
    le 2 k.answers ++ le 1 (b2n c.held * 2 + b2n c.safe))
  (s.sendLine l sofCommand chars).onLink l (fun k => { k with seq := some seq, slot := none, owes := false })

/-- The next common-grid boundary of a link whose slot holds a result: its COMMAND frame starts (R218). -/
def commandFrame (l : Nat) (s : State) : State :=
  match (s.link l).slot with
  | none => s
  | some c =>
    if (s.link l).st = .off ∨ (s.link l).st = .failed then s.onLink l (fun k => { k with slot := none })
    else s.sendCommand l c

/-- Meaning of COMMAND_FRAME (R218). -/
def execCommandFrame (link : Nat) (s : State) : Res := .next (commandFrame link s.start)

/-- The characters of an MGMT frame behind its K23.7 (Table 08-4). -/
def mgmtChars (op tag addr n : Nat) (data : List Byte) : List Byte :=
  withCrc16 (le 1 (op * 16) ++ le 1 tag ++ le 2 addr ++ le 1 n ++ data)

/-! ### Events (Table 08-14) -/

/-- A PLA event with its fault record, if any. -/
def State.plaEvent (l sub arg : Nat) (fault : Option Nat) (s : State) : State :=
  let s1 := (s.onPla (fun p => { p with lastEvent := some (l, sub, arg % 256) })).postEvent .pf0 65 sub arg l
  match fault with
  | none => s1
  | some code => s1.faultRec 3 code l arg (s.link l).retrains

/-! ### Sample completion -/

/-- Every member link that is still expected has delivered or failed the current sample of group `g`. -/
def State.sampleDone (s : State) (m : GroupMap) : Bool :=
  let ls := (m.links.take m.nPh).map s.link
  ls.any (fun l => l.sched && l.got.isSome) && ls.all (fun l => !l.sched || l.got.isSome)

/-- A group's sample is evaluated once it is complete: PSC first, then the lane (R188, R199). -/
def State.trySample (g : Nat) (s : State) : State :=
  match s.conf.group g with
  | none => s
  | some m =>
    if s.sampleDone m then
      let was := (s.pg g).st = .running
      let s1 := (s.pscSample m g).laneSample m g was
      (m.links.take m.nPh).foldl (fun s l => s.onLink l (fun k => { k with got := none, fresh := false })) s1
    else s

/-- The group of a link, if any, evaluated. -/
def State.trySampleOf (l : Nat) (s : State) : State :=
  match s.conf.memberOf l with
  | none => s
  | some (g, _) => s.trySample g

/-! ### Link states -/

/-- A LINK_RETRAIN ends with the link's new state (R240). -/
def State.endRetrain (l : Nat) (s : State) : State :=
  match (s.link l).retrain with
  | none => s
  | some (sq, cid) =>
    let st := (s.link l).st
    (s.onLink l (fun k => { k with retrain := none })).complete .pf0 sq cid (if st = .up then stDONE else stDONE_NOTE) st.code

/-- An UP link enters DOWN (R235): a COMMAND it still owes becomes a safe one (Table 08-9). `flags`: those of the causing frame, or 0. -/
def State.linkDown (l cause flags : Nat) (s : State) : State :=
  let s1 := s.onLink l (fun k => { k with
    st := .down, cause := cause, downs := incSat k.downs, run := 0, errs := [], waiting := cause ≤ 2
    slot := if k.owes then some Cmd.safeCmd else none })
  (s1.plaEvent l 0x11 (flags * 256 + cause) (some 0x0502)).linkLost l 3

/-- A training attempt begins with its lock step (R234). -/
def State.beginAttempt (l : Nat) (s : State) : State :=
  s.onLink l (fun k => { k with
    st := .train, step := .lock, waiting := false, attempts := k.attempts + 1, sched := false, got := none, fresh := false, run := 0
    bad := 0, echoes := [], identTag := none, resent := false, slot := none, owes := false, errs := []
    retrains := if k.powerUp then k.retrains else incSat k.retrains })

/-- The rate a link needs: its group's, or 20 kHz in no group (R234). -/
def State.rateNeeded (s : State) (l : Nat) : Nat :=
  match s.conf.memberOf l with
  | none => 0
  | some (g, _) => s.conf.rate g

/-- A common-grid character in the present microsecond, which holds 12.5 of them; which of them is an open value (R218). -/
def State.gridChar (s : State) : Nat := (25 * s.sup.uptime + 1) / 2 + Config.freeNat s.free % 12

/-- The characters from the last SYNC bit to the earliest frame 0: D × 80 ns is at least t_cv + 2.000 µs, and E adds its whole
characters (R224, R225). -/
def Link.reach (k : Link) : Nat := k.echo / 80 + (k.tcv + 2079) / 80

/-- A code error at a character of the common grid: counted, and four within 64 characters send an UP link DOWN (R222, R235). -/
def State.codeErrorAt (l at_ : Nat) (s : State) : State :=
  let near := at_ :: (s.link l).errs.filter (fun x => decide (x ≤ at_) && decide (at_ < x + 64))
  let s1 := s.onLink l (fun k => { k with codeErr := incSat k.codeErr, errs := near })
  if (s.link l).st = .up ∧ near.length ≥ 4 then s1.linkDown l 1 0 else s1

/-- The code errors of a received run of groups that begins in character `c`, at their places in it (R222). -/
def State.codeErrors (l c : Nat) (places : List Nat) (s : State) : State :=
  places.foldl (fun s i => s.codeErrorAt l (c + i)) s

/-- The code errors of a frame outside the SAMPLE schedule: which character of the present microsecond it begins in is an open value
(log entry 9). -/
def State.lineHeard (l : Nat) (rd : Bool) (groups : List Nat) (s : State) : State :=
  match lineErrors rd groups with
  | [] => s
  | e => (s.took).codeErrors l s.gridChar e

/-- The code errors of a SAMPLE frame: it begins in its scheduled character (R225), or, on a link with no schedule, anywhere. -/
def State.sampleHeard (l : Nat) (rd : Bool) (groups : List Nat) (s : State) : State :=
  let k := s.link l
  if k.sched then s.codeErrors l (frameChar k.f0 k.rate k.pos) (lineErrors rd groups) else s.lineHeard l rd groups

/-- The first frame of a group's schedule, a whole number of four periods behind its position `f`, at or after character `need`. -/
def meetPosition (f rate need : Nat) : Nat :=
  let four := periodNs rate / 20
  f + (need - f + (four - 1)) / four * four

/-- A SYNC goes out (R224, R225, R236): the rate and the D that lets frame 0 begin in a character of the group's schedule; a link that is
in no group, or the first of its group, sets its own. -/
def State.sendSync (l rate : Nat) (s : State) : State :=
  let k := s.link l
  let tx := s.gridChar
  let need := tx + k.reach
  let g := (s.conf.memberOf l).map Prod.fst
  let f0 := match g.bind (fun g => s.pla.pos.getD g none) with
    | some f => meetPosition f rate need
    | none => need
  let s1 := (s.took).sendLine l sofSync (withCrc16 (le 1 rate ++ le 2 (f0 - tx - k.echo / 80)))
  let s2 := match g with
    | some g => s1.onPla (fun p => { p with pos := upd p.pos g (fun o => some (o.getD f0)) })
    | none => s1
  s2.onLink l (fun k => { k with
    rate := rate, sched := true, pos := 0, f0 := f0, owes := false, bad := 0, good := 0, pinned := 0, run := 0, got := none, fresh := false })

/-- A link reaches UP. A LINK_RETRAIN completes before the event it causes (R97). -/
def State.becomeUp (l : Nat) (s : State) : State :=
  let trained := (s.link l).st = .train
  let power := (s.link l).powerUp
  let s1 := s.onLink l (fun k => { k with st := .up, step := .none, waiting := false, powerUp := false, bad := 0 })
  let s2 := s1.endRetrain l
  if trained && !power then s2.plaEvent l 0x12 (s.link l).echo none else s2

/-- A training attempt fails in its current step: a new attempt after 1 ms of idle commas, or FAILED after the third
(R234). -/
def State.attemptFails (l : Nat) (s : State) : State :=
  let k := s.link l
  if k.attempts ≥ 3 then
    let s1 := s.onLink l (fun k => { k with
      st := .failed, cause := 5, step := .none, waiting := false, powerUp := false, sched := false, got := none, fresh := false, slot := none })
    (((s1.endRetrain l).plaEvent l 0x10 (k.attempts * 256 + k.step.code) (some 0x0501)).linkLost l 3).trySampleOf l
  else (s.onLink l (fun k => { k with step := .none, waiting := true, sched := false, got := none, fresh := false, slot := none })).trySampleOf l

/-! ### SAMPLE frames (R222, Table 08-2) -/

/-- How a frame is judged (R222): accepted, or failed for the first condition that applies. -/
inductive Judge where
  | ok
  | pos
  | code
  | crc
deriving DecidableEq, Repr

/-- The judgement of the frame at position `pos`. `data` are its 15 data characters. -/
def judge (data : List Byte) (codeErr : Bool) (pos : Nat) : Judge :=
  if codeErr || data.length ≠ 15 then .code
  else if crc16 (data.take 13) ≠ (data.getD 13 0).toNat * 256 + (data.getD 14 0).toNat then .crc
  else if u data 0 2 ≠ pos % 65536 then .pos
  else .ok

/-- Flags [5:1] of a SAMPLE frame. -/
def trainFlags (flags : Nat) : Nat := flags / 2 % 32

/-- The contents of an accepted frame taken into the link's record. -/
def Link.take (d : List Byte) (k : Link) : Link :=
  let flags := u d 10 1
  let code := sgn d 2 2
  { k with
    count := u d 0 2, code := code, temp := sgn d 8 2, flags := flags, ack := u d 11 1, tstate := u d 12 1
    cmdErr := if bit flags 6 then incSat k.cmdErr else k.cmdErr
    good := if code ≠ 32767 ∧ code ≠ -32768 ∧ !bit flags 0 then k.good + 1 else 0
    pinned := if code = 32767 then k.pinned + 1 else 0
    run := if trainFlags flags = 0 then k.run + 1 else 0, bad := 0 }

/-- The per-unit values of an accepted frame (R177); a suspect current keeps the previous value (R208). -/
def Link.scaleTo (x : LinkScale) (d : List Byte) (k : Link) : Link :=
  { k with
    iph := if sgn d 2 2 = 32767 then k.iph else perUnit (sgn d 2 2) x.iScale x.iOffset
    vin := perUnit (u d 4 2 : Nat) x.vinScale x.vinOffset
    vout := perUnit (u d 6 2 : Nat) x.voutScale x.voutOffset }

/-- A failed frame counted once (R222). -/
def Link.failFrame (j : Judge) (k : Link) : Link :=
  { k with
    bad := k.bad + 1, good := 0, pinned := 0, run := 0
    posErr := if j = .pos then incSat k.posErr else k.posErr
    crcErr := if j = .crc then incSat k.crcErr else k.crcErr }

/-- What the link state makes of the frame just taken or failed (R234, R235). -/
def State.afterFrame (l : Nat) (ok : Bool) (s : State) : State :=
  let k := s.link l
  match k.st with
  | .up =>
    if ok then
      if bits k.flags 5 3 ≠ 0 then s.linkDown l 3 k.flags
      else if bits k.flags 2 1 ≠ 0 then s.linkDown l 4 k.flags
      else s
    else if k.bad ≥ 8 then s.linkDown l 2 0 else s
  | .train => if k.run ≥ 16 then s.becomeUp l else s
  | .down => if k.run ≥ 16 ∧ k.cause ≥ 3 then s.becomeUp l else s
  | _ => s

/-- The answer PLA itself gives to a sample: a safe COMMAND on a link that is not UP or that serves no configured group
(R235). -/
def State.plaAnswer (l : Nat) (s : State) : State :=
  if (s.link l).st ≠ .up ∨ (s.conf.memberOf l).isNone then s.safeSlot l else s

/-- A frame position passes: the frame that arrived, or none. -/
def framePosition (l : Nat) (j : Judge) (d : List Byte) (s : State) : State :=
  let k := s.link l
  if !k.sched then s
  else
    let ok := j = .ok
    let s1 := s.onLink l (fun k =>
      let k := { k with pos := k.pos + 1, answers := k.pos % 65536, owes := true, fresh := ok }
      if ok then
        match look l s.conf.scales with
        | none => k.take d
        | some x => (k.take d).scaleTo x d
      else k.failFrame j)
    let s2 := s1.afterFrame l ok
    let s3 := s2.onLink l (fun k => { k with got := some (ok && k.st = .up) })
    (s3.plaAnswer l).trySampleOf l

/-- Meaning of SAMPLE_FRAME (R222). -/
def execSampleFrame (link : Nat) (rd : Bool) (sof : Nat) (groups : List Nat) (s : State) : Res :=
  let s := s.start
  let p := (s.link link).pos
  let s1 := s.sampleHeard link rd (sof :: groups)
  .next (match rxFrame sofCommand.toNat rd (sof :: groups) with
    | none => framePosition link .pos [] s1
    | some (d, err) => framePosition link (judge d err p) d s1)

/-- Meaning of FRAME_MISSING (R222). -/
def execFrameMissing (link : Nat) (s : State) : Res := .next (framePosition link .pos [] s.start)

/-! ### Training (R234, Table 08-10) -/

/-- Meaning of TRAINING_ATTEMPT (R234): a link in TRAIN that is between attempts, and not in its 1 ms delay, begins one. -/
def execTrainingAttempt (link : Nat) (s : State) : Res :=
  let s := s.start
  let k := s.link link
  .next (if k.st = .train ∧ k.step = .none ∧ !k.waiting then s.beginAttempt link else s)

/-- Meaning of RETRAIN_DELAY (R234, R235). -/
def execRetrainDelay (link : Nat) (s : State) : Res :=
  let s := s.start
  let k := s.link link
  .next (if !k.waiting then s
    else if k.st = .train then s.beginAttempt link
    else if k.st = .down then
      ((s.onLink link (fun k => { k with attempts := 0 })).beginAttempt link).trySampleOf link
    else s)

/-- Meaning of TRAINING_STEP_TIMEOUT (R234). -/
def execTrainingStepTimeout (link : Nat) (s : State) : Res :=
  let s := s.start
  let k := s.link link
  .next (if k.st = .train ∧ k.step ≠ .none then s.attemptFails link else s)

/-- The lock step passes; the first ECHO set is sent. -/
def lockStepPass (l : Nat) (s : State) : State :=
  if (s.link l).st = .train ∧ (s.link l).step = .lock then
    (s.sendLine l sofEcho [0]).onLink l (fun k => { k with step := .echo, echoes := [] })
  else s

/-- Meaning of LOCK_STEP_PASS (R234). -/
def execLockStepPass (link : Nat) (s : State) : Res := .next (lockStepPass link s.start)

/-- All eight answers return their byte and all eight values of E are equal. -/
def echoesAgree (l : List (Byte × Nat)) : Bool :=
  l.map Prod.fst == (List.range 8).map (BitVec.ofNat 8) && l.all (fun x => x.2 == (l.headD (0, 0)).2)

/-- The READ of the Ident step is sent, once no MGMT request stands on the link (R229, Table 08-10). -/
def State.sendIdent (l : Nat) (s : State) : State :=
  let k := s.link l
  if k.st ≠ .train ∨ k.step ≠ .ident ∨ (k.mgmt.any (fun x => x.sent)) = true then s
  else (s.sendLine l sofMgmt (mgmtChars 0 k.tag 0 32 [])).onLink l (fun k => { k with
    identTag := some k.tag, tag := (k.tag + 1) % 256 })

/-- An ECHO answer arrives (R225): the next set is sent, or the step is judged; a step that cannot pass ends at its limit. -/
def echoAnswer (l : Nat) (byte : Byte) (e : Nat) (s : State) : State :=
  let k := s.link l
  if k.st ≠ .train ∨ k.step ≠ .echo ∨ k.echoes.length ≥ 8 then s
  else
    let es := k.echoes ++ [(byte, e)]
    let s1 := s.onLink l (fun k => { k with echoes := es })
    if es.length < 8 then s1.sendLine l sofEcho [BitVec.ofNat 8 es.length]
    else if echoesAgree es then
      (s1.onLink l (fun k => { k with step := .ident, echo := e % 65536, identTag := none, resent := false })).sendIdent l
    else s1

/-- Meaning of ECHO_ANSWER (R225): a set that is not K28.3 and one data byte is no answer. -/
def execEchoAnswer (link : Nat) (f : LineFrame) (e : Nat) (s : State) : Res :=
  let s := (s.start).lineHeard link f.rd f.groups
  .next (match rxFrame sofEcho.toNat f.rd f.groups with
    | some ([b], false) => echoAnswer link b e s
    | _ => s)

/-- The Ident answer: 32 bytes from register 0 (Table 08-6). -/
def identAnswer (l : Nat) (d : List Byte) (s : State) : State :=
  let s1 := s.onLink l (fun k => { k with tcv := u d 0x10 2, ifs := u d 0x14 4, identTag := none })
  let rate := s.rateNeeded l
  if u d 0 1 = 1 ∧ bit (u d 1 1) rate ∧ 80 ≤ u d 0x10 2 ∧ u d 0x10 2 ≤ 960 then
    (s1.sendSync l rate).onLink l (fun k => { k with step := .sync })
  else s1

/-! ### MGMT exchanges (R228, R229, R241) -/

/-- A LINK_MGMT ends; an Ident READ that waited for it is sent. -/
def State.endMgmt (l status result : Nat) (s : State) : State :=
  match (s.link l).mgmt with
  | none => s
  | some x =>
    let s1 := (s.onLink l (fun k => { k with mgmt := none })).complete .pf0 x.sq x.cid status result
    if x.sent then s1.sendIdent l else s1

/-- The one resend of the Ident READ (Table 08-10). -/
def State.resendIdent (l : Nat) (s : State) : State :=
  if (s.link l).resent then s else (s.sendIdent l).onLink l (fun k => { k with resent := true })

/-- A frame is well formed: its length is that of its n, and its CRC checks. -/
def mgmtOk (d : List Byte) : Bool :=
  d.length == 7 + u d 4 1 && crc16 (d.take (5 + u d 4 1)) == (d.getD (5 + u d 4 1) 0).toNat * 256 + (d.getD (6 + u d 4 1) 0).toNat

/-- An upstream MGMT frame; one that fails its check, or answers nothing, is dropped. `d` are the characters behind its
K23.7. -/
def mgmtFrame (l : Nat) (d : List Byte) (codeErr : Bool) (s : State) : State :=
  let k := s.link l
  let op := u d 0 1 / 16
  let n := u d 4 1
  let data := (d.drop 5).take n
  if codeErr || !mgmtOk d then s
  else if k.st = .train ∧ k.step = .ident ∧ k.identTag = some (u d 1 1) then
    if op = 8 ∧ n = 32 then identAnswer l data s else s.resendIdent l
  else match k.mgmt with
    | none => s
    | some x =>
      if !x.sent ∨ x.tag ≠ u d 1 1 then s
      else if op = 0xF then s.endMgmt l stDONE_NOTE (0x200 + u data 0 1)
      else if x.write then (if op = 9 then s.endMgmt l stDONE x.n else s)
      else if op = 8 then (s.dma .pf0 x.buf (data.take 32)).endMgmt l stDONE n
      else s

/-- Meaning of MGMT_FRAME (R229). -/
def execMgmtFrame (link : Nat) (rd : Bool) (groups : List Nat) (s : State) : Res :=
  let s := (s.start).lineHeard link rd groups
  .next (match rxFrame sofMgmt.toNat rd groups with
    | some (d, err) => mgmtFrame link d err s
    | none => s)

/-- A pending MGMT request is sent in its window, behind the COMMAND that answers the latest sample (R228). -/
def mgmtSend (l : Nat) (s : State) : State :=
  let k := s.link l
  match k.mgmt with
  | none => s
  | some x =>
    if x.sent ∨ k.st ≠ .up ∨ k.owes then s
    else
      (s.sendLine l sofMgmt (mgmtChars (b2n x.write) k.tag x.addr x.n x.data)).onLink l (fun k => { k with
        mgmt := some { x with sent := true, tag := k.tag }, tag := (k.tag + 1) % 256 })

/-- Meaning of MGMT_SEND (R228). -/
def execMgmtSend (link : Nat) (s : State) : Res := .next (mgmtSend link s.start)

/-- No answer within 1 ms: the outstanding LINK_MGMT ends, or an Ident READ is sent again (R234, R241). -/
def mgmtTimeout (l : Nat) (s : State) : State :=
  let k := s.link l
  if k.st = .train ∧ k.step = .ident ∧ k.identTag.isSome ∧ !k.resent then s.resendIdent l else s.endMgmt l stDONE_NOTE 0x100

/-- Meaning of MGMT_TIMEOUT (R241). -/
def execMgmtTimeout (link : Nat) (s : State) : Res := .next (mgmtTimeout link s.start)

/-! ### Line errors outside frames (R219, R235) -/

/-- A code error `gap` characters after the link's previous one; where the two are 64 or more apart, or there is none, it stands in a
character of the present microsecond (log entry 9). -/
def codeError (l gap : Nat) (s : State) : State :=
  match (s.link l).errs with
  | x :: _ => if gap < 64 then s.codeErrorAt l (x + gap)
      else ((s.took).onLink l (fun k => { k with errs := [] })).codeErrorAt l s.gridChar
  | [] => (s.took).codeErrorAt l s.gridChar

/-- Meaning of CODE_ERROR (R219): a group received that is a code error of one of the four kinds; any other changes
nothing. -/
def execCodeError (link : Nat) (g : RxGroup) (s : State) : Res :=
  .next (match received g.rd g.group with
    | .inr _ => codeError link g.gap s.start
    | .inl _ => s.start)

/-- An UP link loses its alignment. -/
def alignLost (l : Nat) (s : State) : State := if (s.link l).st = .up then s.linkDown l 1 0 else s

/-- Meaning of LOSS_OF_SIGNAL (R235). -/
def execLossOfSignal (link : Nat) (s : State) : Res := .next (alignLost link s.start)

/-- Meaning of COMMA_OFF_ALIGNMENT (R235). -/
def execCommaOffAlignment (link : Nat) (s : State) : Res := .next (alignLost link s.start)

/-! ### Commands (Table 08-12) -/

/-- The 48 bytes of a LINK_STATUS record (Table 08-13). -/
def linkRecord (l : Nat) (s : State) : List Byte :=
  let k := s.link l
  let (g, h) := (s.conf.memberOf l).getD (0xFF, 0xFF)
  le 1 k.st.code ++ le 1 k.cause ++ le 1 g ++ le 1 h ++ le 1 k.rate ++ le 1 k.flags ++ le 1 k.tstate ++ le 1 k.attempts ++
    le 2 k.echo ++ le 2 k.count ++ le 1 (k.seq.getD 0) ++ le 1 k.ack ++ le 2 k.tcv ++ le 4 k.ifs ++ le 4 k.crcErr ++
    le 4 k.posErr ++ le 4 k.codeErr ++ le 4 k.cmdErr ++ le 4 k.downs ++ le 4 k.retrains ++ zeros 4

/-- Meaning of LINK_STATUS (R233). -/
def execLinkStatus (q : Sqe) (s : State) : Res :=
  let n := bits (sd q 6) 6 0
  .next (hostCmd 0x20 q (rangeParams q n 64 48)
    (fun s => s.replyDone q ((List.range n).flatMap (fun i => linkRecord (sd q 1 + i) s)) n) s.start)

/-- A link's phase is LOST, or it has none. -/
def State.noPhase (s : State) (l : Nat) : Bool :=
  match s.conf.memberOf l with
  | none => true
  | some (g, h) => !(s.pg g).avail h

/-- LINK_RETRAIN (R240). -/
def linkRetrain (q : Sqe) (s : State) : State :=
  let l := sd q 1
  let k := s.link l
  if k.st = .train then s.done q stBUSY_RETRY 0
  else if k.st = .up && !s.noPhase l then s.done q stBAD_STATE 0
  else
    ((s.onLink l (fun k => { k with attempts := 0, powerUp := false, retrain := some (q.sq, cidOf q) })).beginAttempt
      l).trySampleOf l

/-- Meaning of LINK_RETRAIN (R240). -/
def execLinkRetrain (q : Sqe) (s : State) : Res := .next (hostCmd 0x21 q [(sd q 1 < 64, 1, 0)] (linkRetrain q) s.start)

/-- LINK_DISABLE (R239): one safe COMMAND, then OFF; training ends and its LINK_RETRAIN completes (R237, R240). -/
def linkDisable (q : Sqe) (s : State) : State :=
  let l := sd q 1
  if (s.link l).st = .off then s.done q stDONE_NOTE 1
  else
    let s1 := (s.sendCommand l Cmd.safeCmd).onLink l (fun k => { k with
      st := .off, cause := 6, step := .none, waiting := false, powerUp := false, sched := false, got := none, fresh := false, slot := none })
    (((s1.linkLost l 4).endRetrain l).trySampleOf l).done q stDONE 0

/-- Meaning of LINK_DISABLE (R239). -/
def execLinkDisable (q : Sqe) (s : State) : Res := .next (hostCmd 0x23 q [(sd q 1 < 64, 1, 0)] (linkDisable q) s.start)

/-- The parameter checks of LINK_MGMT (R241). -/
def mgmtParams (q : Sqe) : List (Bool × Nat × Nat) :=
  let d := sd q 6
  let w := bit d 0
  let n := bits d 15 8
  let a := bits d 31 16
  [(sd q 1 < 64, 1, 0), (!w || sd q 2 == 0, 2, 0), (!w || sd q 3 == 0, 3, 0), (sd q 4 == (if w then 0 else 32), 4, 0),
   (bits d 7 1 == 0, 6, 1), (1 ≤ n && n ≤ 32, 6, 8), (a + n ≤ 0x10000 && (!w || 0x100 ≤ a), 6, 16)]

/-- LINK_MGMT: the request waits for its window. -/
def linkMgmt (q : Sqe) (s : State) : State :=
  let l := sd q 1
  let d := sd q 6
  let n := bits d 15 8
  if (s.link l).st ≠ .up then s.done q stBAD_STATE 0
  else if (s.link l).mgmt.isSome then s.done q stBUSY_RETRY 0
  else
    let data := if bit d 0 then (sdBytes q 7 8).take n else []
    s.onLink l (fun k => { k with mgmt := some ⟨q.sq, cidOf q, bit d 0, n, bits d 31 16, data, addrOf q, 0, false⟩ })

/-- Meaning of LINK_MGMT (R241). -/
def execLinkMgmt (q : Sqe) (s : State) : Res := .next (hostCmd 0x22 q (mgmtParams q) (linkMgmt q) s.start)

end Sys2Proof.Machine
end

