-- ==== Sys2Proof/Machine/Vpc.lean ====
section
/-! DEFINITION. Dispenser ports: the control pilot, proximity, port states and the vehicle link (R243 to R268). -/

namespace Sys2Proof.Machine

open Sys2Proof

/-! ### Bands -/

/-- The pilot band of a high-plateau sample in mV (Table 09-2): each edge belongs to the band above it. -/
def pilotBand (mv : Int) : Nat :=
  if mv ≥ 13500 then 6
  else if mv ≥ 10500 then 0
  else if mv ≥ 7500 then 1
  else if mv ≥ 4500 then 2
  else if mv ≥ 1500 then 3
  else if mv ≥ -1500 then 4
  else 6

/-- The proximity band of a reading (R250). -/
def proxBand (r : PortRec) (mv : Nat) : Nat :=
  if mv ≥ r.ppHi then 0 else if mv ≥ r.ppMid then 1 else if mv ≥ r.ppLo then 2 else 3

/-! ### Port states (R251 to R256) -/

/-- The condition of rule 4 that holds, by its fault cause (Table 09-10). -/
def Port.condition (p : Port) : Option Nat :=
  if p.pilot = some 4 then some 0
  else if p.pilot = some 6 then some 1
  else if p.diode then some 2
  else if p.prox = some 3 then some 3
  else none

/-- Low-plateau sampling runs (R249): PWM in effect and the accepted band B, C or D. -/
def Port.lowSampled (p : Port) : Bool :=
  p.pinMode == 1 && (match p.pilot with | some b => 1 ≤ b && b ≤ 3 | none => false)

/-- The state the rules of R252 give. `recs`: port records are in force; `serve`: the device is in BISQUE or SERVICE. -/
def portRule (recs serve : Bool) (r : PortRec) (p : Port) : PortSt :=
  if !recs then .notReady
  else if !r.enable then .disabled
  else if !serve || p.admission || p.pilot.isNone || p.prox.isNone then .notReady
  else if p.latch || p.condition.isSome then .fault
  else if p.pilot = some 0 ∨ p.prox = some 0 then .vacant
  else if (p.pilot = some 2 ∨ (p.pilot = some 3 ∧ r.ventOk)) ∧ p.prox = some 2 ∧ p.mode ≤ 1 ∧ p.energy then .energy
  else .plugged

/-- A VPC event. -/
def State.vpcEvent (p sub arg : Nat) (s : State) : State :=
  (s.onVpc (fun v => { v with lastEvent := some (p, sub, arg % 256) })).postEvent .pf0 69 sub arg p

/-- The device serves: BISQUE or SERVICE. -/
def State.serves (s : State) : Bool := s.sup.st = .service || s.sup.st = .bisque

/-- A port's state evaluated afresh (R252): its fault latch, its energy flag (R253), and on a change the event, the fault
record and mode STEADY of an entry into FAULT (R255), the report to SPA and VPC's stop (R256). -/
def State.evalPort (n : Nat) (s : State) : State :=
  let r := s.conf.port n
  let p := s.prt n
  let st := portRule s.cfg.isSome s.serves r p
  let cause := if st = .fault && !p.latch then p.condition.getD 0 else p.cause
  let p1 : Port := { p with
    st := st, cause := cause, latch := p.latch || st = .fault
    energy := p.energy && !(p.st = .energy && st ≠ .energy)
    mode := if st = .fault && p.st ≠ .fault then 0 else p.mode
    duty := if st = .fault && p.st ≠ .fault then 0 else p.duty }
  let s1 := s.onPrt n (fun _ => p1)
  if st = p.st then s1
  else
    let arg := (if st = .fault then cause * 2 ^ 16 else 0) + p.st.code * 2 ^ 8 + st.code
    let s2 := s1.vpcEvent n 0x01 arg
    let s3 := if st = .fault then s2.faultRec 5 0x0601 n arg (ofInt 32 p.pilotHi) else s2
    let s4 := s3.onSpa (fun y => { y with inp := { y.inp with ready := y.inp.ready.set n (st = .energy) } })
    if st = .notReady ∨ st = .vacant ∨ st = .fault then s4.portStop n else s4

/-- Every port evaluated. -/
def State.evalPorts (s : State) : State := (List.range 16).foldl (fun s n => s.evalPort n) s

/-- A port's pilot pin falls to the driver's default, STEADY, unless its driver is high-impedance (R52, R258). -/
def State.pilotDefault (n : Nat) (s : State) : State :=
  let p := s.prt n
  if p.pinMode = 0 ∨ p.pinMode = 3 then s
  else (s.onPrt n (fun p => { p with pinMode := 0, pinDuty := 0 })).emit (.pilot n 0 0)

/-- The device has left BISQUE and SERVICE (R258): every enabled port's pilot falls to the driver's default, STEADY, and its
energy flag is 0. -/
def State.portsNotReady (s : State) : State :=
  let s1 := (List.range 16).foldl (fun s n => s.pilotDefault n) s
  (s1.onVpc (fun v => { v with ports := v.ports.map (fun p =>
    { p with energy := false, mode := 0, duty := 0, diode := false, pilotLo := 0 }) })).evalPorts

/-- Every pilot driver is high-impedance: its supply has fallen below its limit (R258). -/
def State.pilotsOff (s : State) : State :=
  (List.range 16).foldl (fun s n => (s.onPrt n (fun p => { p with pinMode := 3, pinDuty := 0 })).emit (.pilotOff n)) s

/-- Every pilot driver has its supply again and gives its default, +12 V (R258). -/
def State.pilotsOn (s : State) : State :=
  (List.range 16).foldl (fun s n => (s.onPrt n (fun p => { p with pinMode := 0, pinDuty := 0 })).emit (.pilot n 0 0)) s

/-! ### Pilot and proximity events -/

/-- The commanded mode and duty take effect (R246): F is its own band at once, and a diode fault ends when low-plateau
sampling stops (R248, R249). -/
def pilotEffect (n : Nat) (s : State) : State :=
  let p := s.prt n
  if p.pinMode = 3 ∨ (p.pinMode = p.mode ∧ p.pinDuty = p.duty) then s
  else
    let p1 : Port := { p with
      pinMode := p.mode, pinDuty := p.duty, prevDuty := if p.pinMode = p.mode then p.pinDuty else p.duty, pilot := if p.mode = 2 then some 5 else p.pilot
      pilotLo := if p.mode = 1 then p.pilotLo else 0 }
    ((s.onPrt n (fun _ => { p1 with diode := p1.diode && p1.lowSampled })).emit (.pilot n p.mode p.duty)).evalPort n

/-- Meaning of PILOT_CHANGE_EFFECT (R246). -/
def execPilotChangeEffect (port : Nat) (s : State) : Res := .next (pilotEffect port s.start)

/-- The last `k` elements of a list, none where it is shorter. -/
def lastOf {α : Type} (k : Nat) (l : List α) : Option (List α) := if l.length < k then none else some (l.drop (l.length - k))

/-- The value that every element of a list has, none where they differ or there are none. -/
def common {α : Type} [DecidableEq α] (l : List α) : Option α :=
  match l with
  | [] => none
  | a :: rest => if rest.all (fun b => b == a) then some a else none

/-- The samples of a plateau of `t` in 0.1 % of a 1 ms period, which is µs: every 5 µs from 10 µs after its edge until 5 µs before the
next (R247, R249). -/
def plateauSamples (t : Nat) : Nat := (t - 15) / 5 + 1

/-- The latest two periods with the plateau each was read on: the later under the duty in effect, the earlier under it or, where the duty
changed between them, under the one before (R246, R248, R249). `span` is the length of the plateau under a duty. -/
def twoPeriods (span : Nat → Nat) (duty prev : Nat) (l : List (List Int)) : Option (List (List Int)) :=
  match lastOf 2 l with
  | some [a, b] =>
    let full (d : Nat) (x : List Int) : Bool := x.length == plateauSamples (span d)
    if full duty b && (full duty a || full prev a) then some [a, b] else none
  | _ => none

/-- The pilot band that high-plateau samples let VPC accept (R248): in STEADY five samples in a row in one band, in PWM two periods whose
samples all fall in one band. `l` holds the samples since the latest change of mode, a list a period. -/
def acceptedBand (mode duty prev : Nat) (l : List (List Int)) : Option Nat :=
  if mode = 0 then (lastOf 5 l.flatten).bind (fun x => common (x.map pilotBand))
  else if mode = 1 then (twoPeriods id duty prev l).bind (fun x => common (x.flatten.map pilotBand))
  else none

/-- The high plateau of a port's pilot is sampled (R247). -/
def State.highRead (s : State) (n : Nat) : Bool := (s.conf.port n).enable && (s.prt n).pinMode < 2

/-- The low plateau of a port's pilot is sampled (R249). -/
def State.lowRead (s : State) (n : Nat) : Bool := (s.conf.port n).enable && (s.prt n).lowSampled

/-- High-plateau samples enter a port's inputs (R247, R248): the latest is kept, and a band they give is accepted. There is no plateau
in F. -/
def pilotInput (n : Nat) (l : List (List Int)) (s : State) : State :=
  let p := s.prt n
  if !s.highRead n then s
  else
    let p1 : Port := { p with
      pilotHi := l.flatten.getLast?.getD p.pilotHi, pilot := (acceptedBand p.pinMode p.pinDuty p.prevDuty l).or p.pilot }
    s.onPrt n (fun _ => { p1 with diode := p1.diode && p1.lowSampled })

/-- Low-plateau samples enter a port's inputs while that plateau is sampled (R249): two periods in a row whose samples are all above
−10.5 V, or are not, set or clear the diode fault; `on` says which. -/
def diodeInput (n : Nat) (on : Bool) (l : List (List Int)) (s : State) : State :=
  let p := s.prt n
  if !s.lowRead n then s
  else
    let seen := (twoPeriods (fun d => 1000 - d) p.pinDuty p.prevDuty l).any (fun x => x.all (fun y => y.all (fun v => -10500 < v) == on))
    s.onPrt n (fun p => { p with
      diode := if seen then on else p.diode, pilotLo := l.flatten.getLast?.getD p.pilotLo })

/-- Proximity readings enter a port's inputs (R250): the latest is kept, and a band with five in a row is accepted. -/
def proxInput (n : Nat) (l : List Nat) (s : State) : State :=
  let r := s.conf.port n
  if !r.enable then s
  else s.onPrt n (fun p => { p with
    prox := ((lastOf 5 l).bind (fun x => common (x.map (proxBand r)))).or p.prox, pp := l.getLast?.getD p.pp })

/-- The arrivals behind a change of a port's inputs that fall in its cycle, and so enter its evaluation (R252, R455). A command carries no
cycle: whether the one that waits next arrives in the same cycle is an open value (log entry 36). -/
def arrivals (n : Nat) : List Instr → State → State
  | i :: rest, s =>
    let input : Option (State → State) := match i with
      | .pilotBandAccept p l => if p = n then some (pilotInput n l) else none
      | .diodeFaultAccept p l => if p = n then some (diodeInput n true l) else none
      | .diodeFaultClear p l => if p = n then some (diodeInput n false l) else none
      | .proximityBandAccept p l => if p = n then some (proxInput n l) else none
      | _ => none
    match input with
    | none => s
    | some f => if Config.freeNat s.free % 2 = 0 then s.took else arrivals n rest (f s.took)
  | [], s => s

/-- A port's inputs with those that arrive in the same cycle. -/
def State.sameCycle (n : Nat) (s : State) : State := arrivals n s.pending s

/-- High-plateau samples arrive, and the port is evaluated. -/
def pilotAccept (n : Nat) (l : List (List Int)) (s : State) : State :=
  if s.highRead n then ((pilotInput n l s).sameCycle n).evalPort n else s

/-- Meaning of PILOT_BAND_ACCEPT (R248). -/
def execPilotBandAccept (port : Nat) (samples : List (List Int)) (s : State) : Res := .next (pilotAccept port samples s.start)

/-- Low-plateau samples arrive, and the port is evaluated. -/
def diodeChange (n : Nat) (on : Bool) (l : List (List Int)) (s : State) : State :=
  if s.lowRead n then ((diodeInput n on l s).sameCycle n).evalPort n else s

/-- Meaning of DIODE_FAULT_ACCEPT (R249). -/
def execDiodeFaultAccept (port : Nat) (lows : List (List Int)) (s : State) : Res := .next (diodeChange port true lows s.start)

/-- Meaning of DIODE_FAULT_CLEAR (R249). -/
def execDiodeFaultClear (port : Nat) (lows : List (List Int)) (s : State) : Res := .next (diodeChange port false lows s.start)

/-- Proximity readings arrive, and the port is evaluated. -/
def proxAccept (n : Nat) (l : List Nat) (s : State) : State :=
  if (s.conf.port n).enable then ((proxInput n l s).sameCycle n).evalPort n else s

/-- Meaning of PROXIMITY_BAND_ACCEPT (R250). -/
def execProximityBandAccept (port : Nat) (readings : List Nat) (s : State) : Res := .next (proxAccept port readings s.start)

/-! ### Commands (Table 09-9) -/

/-- SPA's grant state of a port (R256): its session has a grant in the plan in force. -/
def State.granted (s : State) (n : Nat) : Bool :=
  match sessionOn s.spa.ledger false n with
  | none => false
  | some i => s.spa.plan.sess.any (fun x => x.idx == i && x.grant != 0)

/-- R254. -/
def State.ventRefused (s : State) (n : Nat) : Bool :=
  (s.prt n).st = .plugged && (s.prt n).pilot == some 3 && !(s.conf.port n).ventOk

/-- The 32 bytes of a PORT_STATUS record (Table 09-10). -/
def portRecord (n : Nat) (s : State) : List Byte :=
  let p := s.prt n
  le 1 p.st.code ++ le 1 (p.pilot.getD 0) ++ le 1 (p.prox.getD 0) ++ le 1 p.mode ++ le 2 p.duty ++
    le 1 (b2n p.energy + 2 * b2n (s.granted n) + 4 * b2n (s.ventRefused n) + 8 * b2n p.modemUp) ++
    le 1 (if p.st = .fault then p.cause else 0xFF) ++ leS 2 p.pilotHi ++ leS 2 p.pilotLo ++ le 2 p.pp ++ zeros 2 ++
    le 4 p.rxFrames ++ le 4 p.rxFcs ++ le 4 p.rxDrop ++ le 4 p.txFrames

/-- Meaning of PORT_STATUS (R251). -/
def execPortStatus (q : Sqe) (s : State) : Res :=
  let n := bits (sd q 6) 4 0
  .next (hostCmd 0x50 q (rangeParams q n 16 32)
    (fun s => s.replyDone q ((List.range n).flatMap (fun i => portRecord (sd q 1 + i) s)) n) s.start)

/-- The accepted pilot band lets a port reach ENERGY (rule 6 of R252). -/
def Port.servable (r : PortRec) (p : Port) : Bool := p.pilot == some 2 || (p.pilot == some 3 && r.ventOk)

/-- PILOT_SET (R245, R253, R255), evaluated with what arrives in its cycle: a condition of rule 4 keeps the latch, and a drop out of C
clears the energy flag (Table 09-8). -/
def pilotSet (q : Sqe) (s : State) : State :=
  let n := sd q 1
  let d := sd q 6
  let r := s.conf.port n
  let p := s.prt n
  let s0 := s.sameCycle n
  let now := s0.prt n
  let mode := bits d 1 0
  let clears := mode == 0 && !bit d 2 && now.condition.isNone
  let dropped := p.servable r && !now.servable r
  if !r.enable then s.done q stBAD_OBJECT 0
  else if p.st = .fault && !clears then s.done q stBAD_STATE 0
  else if p.admission then s.done q stBUSY_RETRY 0
  else
    let s1 := (s0.onPrt n (fun p => { p with
      mode := mode, duty := bits d 25 16, energy := bit d 2 && !dropped
      latch := p.latch && !clears })).evalPort n
    s1.done q stDONE (s1.prt n).st.code

/-- The parameter checks of PILOT_SET (R267). -/
def pilotParams (q : Sqe) : List (Bool × Nat × Nat) :=
  let d := sd q 6
  let mode := bits d 1 0
  let duty := bits d 25 16
  [(sd q 1 < 16, 1, 0), (mode != 3, 6, 0), (!(mode == 2 && bit d 2), 6, 2), (bits d 15 3 == 0, 6, 3),
   (if mode = 1 then 30 ≤ duty && duty ≤ 970 else duty == 0, 6, 16), (bits d 31 26 == 0, 6, 26)]

/-- Meaning of PILOT_SET (R255). -/
def execPilotSet (q : Sqe) (s : State) : Res := .next (hostCmd 0x51 q (pilotParams q) (pilotSet q) s.start)

/-! ### Vehicle frames (R264 to R266) -/

/-- The tile index of a port's slot (R264). -/
def frameTile (n slot : Nat) : Nat := 0x0840 + 16 * n + slot

/-- The lowest free slot of a port among `first` to `first + 7` that is in service. -/
def State.freeSlot (s : State) (n first : Nat) (used : List Nat) : Option Nat :=
  ((List.range 8).map (fun i => first + i)).find? (fun k => !used.contains k && !s.tmf.oos.contains (frameTile n k))

/-- A frame with the header of Table 09-7; `sent`: the direction flag. -/
def frameBytes (time n : Nat) (sent : Bool) (d : List Byte) : List Byte :=
  le 8 time ++ le 2 d.length ++ le 1 n ++ le 1 (b2n sent) ++ zeros 4 ++ d

/-- FRAME_TX: the host's frame goes into a free TX tile, which is closed; its header carries the S-time of that moment, before the frame
is sent (DEDUCED, log entry 10). -/
def frameTx (q : Sqe) (h : HostRead) (s : State) : State :=
  let n := sd q 1
  if !(s.conf.port n).enable then s.done q stBAD_OBJECT 0
  else match s.freeSlot n 8 ((s.prt n).tx.map (fun t => t.slot)) with
    | none => s.done q stBUSY_RETRY 0
    | some k => match s.bufferOf q h with
      | .error => s.done q stDMA_ERROR 0
      | .data b =>
        s.onPrt n (fun p => { p with tx := p.tx ++ [⟨q.sq, cidOf q, k, frameBytes s.sTime n true (padTo (bits (sd q 6) 10 0) b)⟩] })

/-- Meaning of FRAME_TX (R266). -/
def execFrameTx (q : Sqe) (h : HostRead) (s : State) : Res :=
  let n := bits (sd q 6) 10 0
  .next (hostCmd 0x52 q
    [(sd q 1 < 16, 1, 0), (sd q 4 == (n + 3) / 4 * 4, 4, 0), (14 ≤ n && n ≤ 1518, 6, 0)] (frameTx q h) s.start)

/-- FRAME_RX_BUFFER: at most eight are posted. -/
def frameRxBuffer (q : Sqe) (s : State) : State :=
  let n := sd q 1
  if !(s.conf.port n).enable then s.done q stBAD_OBJECT 0
  else if (s.prt n).bufs.length ≥ 8 then s.done q stBUSY_RETRY 0
  else s.onPrt n (fun p => { p with bufs := p.bufs ++ [⟨q.sq, cidOf q, addrOf q⟩] })

/-- Meaning of FRAME_RX_BUFFER (R265). -/
def execFrameRxBuffer (q : Sqe) (s : State) : Res :=
  .next (hostCmd 0x53 q [(sd q 1 < 16, 1, 0), (1536 ≤ sd q 4, 4, 0)] (frameRxBuffer q) s.start)

/-- A frame arrives at a port: dropped when bad or out of length, dropped when every RX tile is taken, else stored (R265). -/
def frameArrives (n : Nat) (d : List Byte) (good : Bool) (s : State) : State :=
  if !(s.conf.port n).enable then s
  else if !good ∨ d.length < 14 ∨ 1518 < d.length then s.onPrt n (fun p => { p with rxFcs := incSat p.rxFcs })
  else match s.freeSlot n 0 ((s.prt n).rx.map (fun t => t.slot)) with
    | none =>
      let s1 := s.onPrt n (fun p => { p with rxDrop := incSat p.rxDrop })
      s1.vpcEvent n 0x02 (s1.prt n).rxDrop
    | some k =>
      s.onPrt n (fun p => { p with rx := p.rx ++ [⟨k, frameBytes s.sTime n false d⟩], rxFrames := incSat p.rxFrames })

/-- A frame's FCS, its last four bytes, checks (R265). -/
def fcsGood (d : List Byte) : Bool := 4 ≤ d.length && crc32 (d.take (d.length - 4)) == u d (d.length - 4) 4

/-- Meaning of VEHICLE_FRAME_RX (R265): an MCS port's PHY; the FCS is checked and stripped. -/
def execVehicleFrameRx (port : Nat) (data fcs : List Byte) (s : State) : Res :=
  let s := s.start
  let data := data ++ fcs
  .next (if (s.conf.port port).ccs then s else frameArrives port (data.take (data.length - 4)) (fcsGood data) s)

/-- The oldest frame is verified and delivered into the oldest posted buffer; one that fails is lost with its tile, and the
buffer's command ends (R112, R265). The tile is freed or retired (R119). -/
def frameDelivery (n : Nat) (ok : Bool) (s : State) : State :=
  match (s.prt n).rx, (s.prt n).bufs with
  | f :: rx, b :: bufs =>
    let s1 := (s.onPrt n (fun p => { p with rx := rx, bufs := bufs })).freeTiles (if ok then [frameTile n f.slot] else [])
    if ok then
      (s1.dma .pf0 b.addr f.bytes).complete .pf0 b.sq b.cid stDONE (f.bytes.length - 16)
    else (s1.complete .pf0 b.sq b.cid stTILE_CHECK 0).retire consHqe (frameTile n f.slot) n false
  | _, _ => s

/-- Meaning of VEHICLE_FRAME_DELIVERY (R265). -/
def execVehicleFrameDelivery (port : Nat) (ok : Bool) (s : State) : Res := .next (frameDelivery port ok s.start)

/-- The bytes of a modem TX transaction (Table 09-6). -/
def modemTx (f : List Byte) : List Byte :=
  let b : List Byte := [1, 0] ++ le 2 f.length ++ f
  b ++ le 4 (crc32c b)

/-- A frame padded with zeros to 60 bytes (R266). -/
def padFrame (f : List Byte) : List Byte := padTo (max 60 f.length) f

/-- A frame as the PHY sends it: padded, with its FCS (R266). -/
def etherFrame (f : List Byte) : List Byte := padFrame f ++ le 4 (crc32 (padFrame f))

/-- The STATUS transaction (Table 09-6). -/
def modemStatus : List Byte := [3, 0, 0, 0]

/-- The oldest FRAME_TX of a port ends (R266). On the modem its own CRC-32C stands for the FCS, and a STATUS follows (R262). -/
def frameSent (n : Nat) (outcome : SendOutcome) (s : State) : State :=
  match (s.prt n).tx with
  | [] => s
  | t :: rest =>
    let s1 := (s.onPrt n (fun p => { p with tx := rest })).freeTiles (if outcome = .badTile then [] else [frameTile n t.slot])
    match outcome with
    | .sent =>
      let f := t.bytes.drop 16
      let s2 := s1.onPrt n (fun p => { p with txFrames := incSat p.txFrames, statusDue := (s.conf.port n).ccs })
      let s3 := if (s.conf.port n).ccs then (s2.emit (.modem n (modemTx (padFrame f)))).emit (.modem n modemStatus)
        else s2.emit (.ether n (etherFrame f))
      s3.complete .pf0 t.sq t.cid stDONE 0
    | .abandoned => s1.complete .pf0 t.sq t.cid stDONE_NOTE 1
    | .badTile => (s1.complete .pf0 t.sq t.cid stTILE_CHECK 0).retire consVpc (frameTile n t.slot) n false

/-- Meaning of VEHICLE_FRAME_SENT (R266). -/
def execVehicleFrameSent (port : Nat) (outcome : SendOutcome) (s : State) : Res := .next (frameSent port outcome s.start)

/-! ### The SPI modem (R262, R263) -/

/-- A port has a modem that is not in reset. -/
def State.modemRuns (s : State) (n : Nat) : Bool :=
  (s.conf.port n).enable && (s.conf.port n).ccs && !(s.prt n).resetting

/-- A STATUS transaction, unless the one behind a TX is due, and its eight answer bytes; the third bad answer in a row resets the
modem. -/
def modemPoll (n : Nat) (a : List Byte) (s : State) : State :=
  if !s.modemRuns n then s
  else
    let s0 := if (s.prt n).statusDue then s else s.emit (.modem n modemStatus)
    let s1 := s0.onPrt n (fun p => { p with statusDue := false })
    let none_ := (padTo 8 a).all (fun b => b == 0xFF)
    if !none_ && crc32c (a.take 4) == u a 4 4 then
      s1.onPrt n (fun p => { p with badStatus := 0, modemUp := bit (u a 0 1) 0 })
    else if (s.prt n).badStatus + 1 < 3 then s1.onPrt n (fun p => { p with badStatus := p.badStatus + 1 })
    else
      let arg := if none_ then 1 else 2
      let s2 := s1.onPrt n (fun p => { p with badStatus := 0, resetting := true, modemUp := false })
      ((s2.emit (.modemReset n true)).vpcEvent n 0x03 arg).faultRec 5 0x0602 n arg (ofInt 32 (s.prt n).pilotHi)

/-- Meaning of MODEM_STATUS_POLL (R262). -/
def execModemStatusPoll (port : Nat) (answer : List Byte) (s : State) : Res := .next (modemPoll port answer s.start)

/-- The 10 ms of a modem reset end. -/
def modemResetEnd (n : Nat) (s : State) : State :=
  if (s.prt n).resetting then (s.onPrt n (fun p => { p with resetting := false })).emit (.modemReset n false) else s

/-- Meaning of MODEM_RESET_END (R263). -/
def execModemResetEnd (port : Nat) (s : State) : Res := .next (modemResetEnd port s.start)

/-- Meaning of MODEM_IRQ (R262): an RX transaction, whose answer is a length, that many bytes and a CRC-32C over both. -/
def execModemIrq (port : Nat) (answer crc : List Byte) (s : State) : Res :=
  let s := s.start
  let answer := answer ++ crc
  let n := 2 + u answer 0 2
  .next (if s.modemRuns port then
    frameArrives port ((answer.take n).drop 2) (decide (n + 4 ≤ answer.length) && crc32c (answer.take n) == u answer n 4)
      (s.emit (.modem port [2, 0, 0, 0]))
  else s)

end Sys2Proof.Machine
end

