-- ==== Sys2Proof/Machine/Admit.lean ====
section
/-! DEFINITION. Commits and their admission: CONFIG_COMMIT, CONFIG_ABORT, BISQUE_STORE, COEFF_STAGE, and the epoch boundary
(R58, R62 to R70, R145, R169, R187, R195, R236, R260, R306, R404, R440, R507). -/

namespace Sys2Proof.Machine

open Sys2Proof

/-! ### Device states (R503) -/

/-- SUP_STATE changes; every change is posted. A change away from SHIP_PENDING ends ship mode's 60 s; a charger that ship mode has stopped
stays stopped until MAIN_12V is power-good again (DESIGN CHOICE, log entry 12). -/
def State.setState (st : DevState) (reason : Nat) (s : State) : State :=
  let old := s.sup.st
  if old = st then s.onSup (fun p => { p with reason := reason })
  else (s.onSup (fun p => { p with
    st := st, prev := old.code, reason := reason, shipFrom := if st = .shipPending then p.shipFrom else none
    shipLeft := if st = .shipPending then p.shipLeft else 0 })).supEvent 71 0x06 (old.code * 256 + st.code)
    noSource

/-- The channel records of the active bisque image, whose defaults are the NVM defaults (R306). -/
def Sup.nvmChans (p : Sup) : List ChanRec := parseTable p.bisqueImage .channel 24 parseChan ChanRec.off

/-- Every channel takes its NVM default, OFF where no bisque image exists (R67, R306). -/
def State.nvmDefaults (s : State) : State :=
  let l := if s.sup.bisqueValid then s.sup.nvmChans else []
  (List.range 24).foldl (fun s n => let r := l.getD n ChanRec.off; s.orderCh n r.default r.duty) s

/-- The device enters WAIT_HOST with a reason (R67). The records last in force stay. -/
def State.enterWaitHost (reason : Nat) (s : State) : State :=
  let s1 := (s.setState .waitHost reason).onSup (fun p => { p with configId := 0 })
  (s1.refreshGroups.portsNotReady).nvmDefaults

/-! ### Outcomes of a commit (R62, R64) -/

/-- The status of a failed commit (Table 02-11). -/
def commitStatus (reason : Nat) : Nat :=
  if reason = 0x03 then stTILE_CHECK else if reason = 0x0D then stABORTED_RESET else stBAD_PARAM

/-- A commit's CQE is queued; the commit stays in progress until it is posted, or lost with its rings (R63). -/
def State.postCommit (c : Commit) (status result : Nat) (s : State) : State :=
  let s1 := s.complete .pf0 c.sq c.cid status result
  if s1.hqe.ready.length = s.hqe.ready.length then s1 else s1.onSup (fun p => { p with posting := some c })

/-- A commit ends without effect: its CQE, event and fault record (R64, R511). -/
def State.closeCommit (c : Commit) (reason : Nat) (s : State) : State :=
  let before := s.sup.st.code
  let s1 := s.onSup (fun p => { p with
    commit := none, commitOk := false, commitReason := reason, image := none, storing := none })
  let s2 := (s1.onKce (fun k => { k with staged := none })).postCommit c (commitStatus reason)
    (if c.kind = .coeff then 0 else reason)
  (s2.supEvent 71 0x02 reason noSource).faultRec 8 0x0005 reason before 0

/-- A commit fails or is aborted; one issued in WAIT_HOST or BISQUE leaves the device in WAIT_HOST, from SHIP_PENDING too, whose
ship mode then ends (R67, R68; DEDUCED, log entry 12). -/
def State.failCommit (c : Commit) (reason : Nat) (s : State) : State :=
  let s1 := s.closeCommit c reason
  if c.kind = .config ∧ (c.origin = .waitHost ∨ c.origin = .bisque) ∧ s1.sup.st ≠ .boot ∧ s1.sup.st ≠ .powerFail then
    s1.enterWaitHost reason
  else s1

/-- A commit that no validation lets through also retires the tile that failed its check, for its consumer and source (R126). -/
def State.rejectCommit (c : Commit) (reason cons src : Nat) (tile : Option Nat) (s : State) : State :=
  match tile with
  | none => s.failCommit c reason
  | some i => (s.failCommit c reason).retire cons i src false

/-- A commit or a live switch stands in the way of another (R63, Table 18-4). -/
def State.exclusive (s : State) : Bool := s.sup.committing || s.sup.live.isSome

/-- The manifests of a chain as far as they can be read, at most `n` of them, with their tiles (R506). -/
def chainTiles (s : State) : (n h : Nat) → List (Nat × List Nat)
  | 0, _ => []
  | n + 1, h =>
    match s.closedTile h with
    | none => [(h, [])]
    | some b =>
      let m := parseManifest b
      (h, m.handles) :: (if m.next = 0 then [] else chainTiles s n m.next)

/-- The image tiles a commit names, as far as its manifests can be read (R63): their handles, manifests first, and their count. -/
def imageTiles (s : State) (h : Nat) : List Nat × Nat :=
  let l := chainTiles s 3 h
  let tiles := l.flatMap Prod.snd
  (l.map Prod.fst ++ tiles, tiles.length)

/-- A commit begins. -/
def State.beginCommit (c : Commit) (tiles : Nat) (s : State) : State :=
  s.onSup (fun p => { p with commit := some c, commitKind := c.kind.code, commitTiles := tiles, image := none })

/-! ### CONFIG_COMMIT, its validation and CONFIG_ABORT -/

/-- CONFIG_COMMIT (R63, R120). -/
def configCommit (q : Sqe) (s : State) : State :=
  if (s.tmf.hostTile (sd q 5)).isNone then s.done q stBAD_HANDLE 0
  else if s.exclusive then s.done q stBUSY_RETRY 0
  else
    let t := imageTiles s (sd q 5)
    s.beginCommit ⟨.config, q.sq, cidOf q, s.sup.st, t.1, false, false⟩ t.2

/-- Meaning of CONFIG_COMMIT (R62 to R66). -/
def execConfigCommit (q : Sqe) (s : State) : Res := .next (hostCmd 0x18 q [] (configCommit q) s.start)

/-- The sessions an admission carries from the ledger in force: those in SERVICE whose port or string the new image keeps
(R169). -/
def carriedOver (new : Cfg) (s : State) : List (Nat × Entry) :=
  if s.sup.st ≠ .service then []
  else s.spa.ledger.filter (fun x => match x.2 with
    | .session _ str _ obj _ _ _ _ _ _ => if str then (new.str obj).enable else (new.port obj).enable
    | _ => false)

/-- No carried session stands where the new ledger has an entry (R169). -/
def carryOk (new : Cfg) (s : State) : Bool := (carriedOver new s).all (fun x => (look x.1 new.ledger).isNone)

/-- The end of a CONFIG_COMMIT's validation and of the loading of its coefficient sets (R66, R128). -/
def State.configValidated (c : Commit) (img : List RawRec) (bad : List Nat) (s : State) : State :=
  match gateOf s (c.handles.headD 0) false (fun f => carryOk f s) img bad with
  | .fail r t => s.rejectCommit c r consSup noSource t
  | .pass cfg =>
    let x := s.loadCoeffs bad (recsOf img .coeffSet)
    if x.2 then x.1.onSup (fun p => { p with commit := some { c with validated := true }, image := some cfg })
    else x.1.failCommit c 0x03

/-- Validation of the commit in progress ends: a CONFIG_COMMIT awaits its boundary or fails; a BISQUE_STORE's slot write begins
(R58, R62, R507). -/
def validationDone (img : List RawRec) (bad : List Nat) (s : State) : State :=
  match s.sup.commit with
  | none => s
  | some c => match c.kind with
    | .config => if c.validated then s else s.configValidated c img bad
    | .bisque => s.onSup (fun p => { p with commit := some { c with writing := true } })
    | .coeff => s

/-- Meaning of COMMIT_VALIDATION_DONE (R62, R64). -/
def execCommitValidationDone (img : List RawRec) (bad : List Nat) (s : State) : Res := .next (validationDone img bad s.start)

/-- A commit can still be stopped: a CONFIG_COMMIT until it has passed validation, a BISQUE_STORE until its slot write begins. -/
def Commit.abortable (c : Commit) : Bool :=
  match c.kind with
  | .config => !c.validated
  | .bisque => !c.writing
  | .coeff => false

/-- CONFIG_ABORT (R507). A commit is in progress until its CQE is posted (R63), and by then too late to stop. -/
def configAbort (q : Sqe) (s : State) : State :=
  match s.sup.commit with
  | none => s.done q stDONE_NOTE (if s.sup.posting.isSome then 1 else 2)
  | some c => if c.abortable then (s.failCommit c 0x0D).done q stDONE 0 else s.done q stDONE_NOTE 1

/-- Meaning of CONFIG_ABORT (R507). -/
def execConfigAbort (q : Sqe) (s : State) : Res := .next (hostCmd 0x19 q [] (configAbort q) s.start)

/-! ### BISQUE_STORE (R58) -/

/-- BISQUE_STORE: the image is validated; its slot write begins at COMMIT_VALIDATION_DONE, or with the slot's write itself, and until
then CONFIG_ABORT stops it (R58, R507; log entry 13). -/
def bisqueStore (q : Sqe) (img : List RawRec) (bad : List Nat) (s : State) : State :=
  if (s.tmf.hostTile (sd q 5)).isNone then s.done q stBAD_HANDLE 0
  else if s.exclusive then s.done q stBUSY_RETRY 0
  else
    let t := imageTiles s (sd q 5)
    let c : Commit := ⟨.bisque, q.sq, cidOf q, s.sup.st, t.1, true, false⟩
    let s1 := s.beginCommit c t.2
    match gateOf s (sd q 5) true (fun _ => true) img bad with
    | .fail r i => s1.rejectCommit c r consSup noSource i
    | .pass cfg => s1.onSup (fun p => { p with
        storing := some (if p.bisqueValid then 1 - p.bisqueSlot else p.bisqueSlot, cfg.id, img) })

/-- Meaning of BISQUE_STORE (R58). -/
def execBisqueStore (q : Sqe) (img : List RawRec) (bad : List Nat) (s : State) : Res :=
  .next (hostCmd 0x1A q [] (bisqueStore q img bad) s.start)

/-- The slot of a BISQUE_STORE has been written and read back. With a read-back that fails the previous image stays in force;
the reason code of that outcome is not stated: it is an open value among those of Table 02-11. -/
def slotWritten (ok : Bool) (s : State) : State :=
  match s.sup.commit, s.sup.storing with
  | some c, some (slot, id, recs) =>
    if ok then
      let s1 := s.onSup (fun p => { p with
        commit := none, commitOk := true, commitReason := 0, storing := none, bisqueValid := true, bisqueSlot := slot
        bisqueId := id, bisqueImage := recs })
      (s1.postCommit c stDONE id).supEvent 71 0x03 id noSource
    else s.took.failCommit c (2 + Config.freeChoice s.free 12 % 12)
  | _, _ => s

/-- Meaning of BISQUE_SLOT_WRITTEN (R58). -/
def execBisqueSlotWritten (ok : Bool) (s : State) : Res := .next (slotWritten ok s.start)

/-! ### COEFF_STAGE (R195, Table 06-15) -/

/-- Bytes 2 to 29 of two sets agree. -/
def sameHead (a b : CoeffSet) : Bool :=
  a.n == b.n && a.m == b.m && a.p == b.p && a.q == b.q && a.trk == b.trk && a.rsv == b.rsv && a.ysel == b.ysel &&
    a.init == b.init && a.wsel == b.wsel && a.role == b.role

/-- The set a CLOSED host tile that passes its check holds. -/
def stagedSet (s : State) (bad : List Nat) (h : Nat) : Option CoeffSet :=
  if bad.contains (handleIdx h) then none else (s.closedTile h).map parseCoeff

/-- The bands a COEFF_STAGE names, with their handles. -/
def stageBands (q : Sqe) : List (Nat × Nat) :=
  ((List.range 8).filter (fun b => bit (sd q 14) b)).map (fun b => (b, sd q (6 + b)))

/-- The parameter checks of COEFF_STAGE, in dword order. -/
def stageParams (q : Sqe) (bad : List Nat) (s : State) : List (Bool × Nat × Nat) :=
  let g := sd q 1
  let fits (h : Nat) : Bool := match stagedSet s bad h, s.conf.set g 0 with
    | some k, some k0 => sameHead k0 k && setOk k0.m k
    | _, _ => true
  let one (b : Nat) : Bool × Nat × Nat :=
    let h := sd q (6 + b)
    (if bit (sd q 14) b then h != 0 && fits h else h == 0, 6 + b, 0)
  let mask := bits (sd q 14) 7 0
  [(decide (g < 64), 1, 0)] ++ (List.range 8).map one ++
    [(mask != 0 && ((s.conf.group g).isNone || decide (mask < 2 ^ (s.conf.laneCtx g).bands)), 14, 0)]

/-- COEFF_STAGE. -/
def coeffStage (q : Sqe) (bad : List Nat) (s : State) : State :=
  let g := sd q 1
  let l := stageBands q
  let c : Commit := ⟨.coeff, q.sq, cidOf q, s.sup.st, l.map Prod.snd, true, false⟩
  if l.any (fun x => (s.tmf.hostTile x.2).isNone) then s.done q stBAD_HANDLE 0
  else if (s.conf.group g).isNone || (s.lane g).st = .idle then s.done q stBAD_OBJECT 0
  else if l.any (fun x => (s.closedTile x.2).isNone) then s.done q stBAD_STATE 0
  else if s.exclusive || (s.lane g).swapPending then s.done q stBUSY_RETRY 0
  else match l.find? (fun x => bad.contains (handleIdx x.2)) with
    | some x => (s.beginCommit c l.length).rejectCommit c 0x03 consKce g (some (handleIdx x.2))
    | none => (s.beginCommit c l.length).onKce (fun k => { k with
        staged := some (g, l.filterMap (fun x => (s.closedTile x.2).map (fun b => (x.1, b)))) })

/-- Meaning of COEFF_STAGE (R195). -/
def execCoeffStage (q : Sqe) (bad : List Nat) (s : State) : Res :=
  .next (hostCmd 0x31 q (stageParams q bad s.start) (coeffStage q bad) s.start)

/-- The staged sets of a COEFF_STAGE are admitted at a boundary: the active band's becomes a pending swap; SUP writes the committed
tiles (R184, R195). -/
def State.admitStaged (s : State) : State :=
  match s.kce.staged, s.sup.commit with
  | some (g, l), some c =>
    let band := (s.lane g).band
    let s1 : State := { s with cfg := s.cfg.map (fun f =>
      { f with sets := l.foldl (fun a x => put (8 * g + x.1) (parseCoeff x.2) a) f.sets }) }
    let s2 := s1.onLane g (fun k =>
      if k.st = .firing ∧ l.any (fun x => x.1 == band) then
        { k with newSet := true, pend := none, defer := 0, deferred := false } else k)
    let s2' := l.foldl (fun s x => s.onTmf (Tmf.putCoeff (8 * g + x.1) x.2)) s2
    let s3 := (s2'.onKce (fun k => { k with staged := none })).onSup (fun p => { p with
      commit := none, commitOk := true, commitReason := 0 })
    let s4 := s3.postCommit c stDONE (maskOf 8 (fun b => l.any (fun x => x.1 == b)))
    if s4.receiving .pf0 then s4.fireEvent .pf0 71 else s4
  | _, _ => s

/-! ### Phase groups and lanes at an admission (R70, R187, R201, R236) -/

/-- Two lists of links name the same set. -/
def sameLinks (a b : List Nat) : Bool := a.length == b.length && a.all b.contains

/-- A value per member carried over by link: entry `i` of `vals` belongs to `old[i]`. -/
def byLink {α : Type} (old new : List Nat) (vals : List α) (d : α) : List α :=
  (List.range 8).map (fun h => match new[h]? with
    | none => d
    | some l => if old.contains l then vals.getD (old.idxOf l) d else d)

/-- The structure of a group that a commit may not change without gating it: rate, dimensions, selectors, maps and roles. -/
def structureOf (c : Cfg) (g : Nat) : List (List Nat) :=
  [c.rate g] :: (match c.set g 0 with
    | none => []
    | some k => [[k.n, k.m, k.p, k.q, k.trk], k.ysel, k.init, k.wsel, k.role])

/-- What a PSC group keeps through any configuration: latch report, sums and counts. -/
def PGroup.bare (p : PGroup) : PGroup :=
  { PGroup.reset with
    latch := p.latch, vsum := p.vsum, vcnt := p.vcnt, isum := p.isum, icnt := p.icnt, acc := p.acc, sent := p.sent
    fastTrips := p.fastTrips, senseLoss := p.senseLoss, linkLoss := p.linkLoss, overloads := p.overloads }

/-- A group as an admission leaves it. A group in force whose set of links stays keeps its state, marks and retries; one not in
force takes them from the state journal if its links are those; any other starts fresh. -/
def admitGroup (old new : Cfg) (entry leaving : Bool) (j : List (Nat × GroupJournal)) (g : Nat) (p : PGroup) : PGroup :=
  match new.group g with
  | none => p.bare
  | some m =>
    let ls := new.members g
    let was := old.members g
    let live := (old.group g).isSome
    if live && sameLinks was ls then
      let gate := !entry && (leaving || structureOf old g != structureOf new g)
      { p with gate := gate, lost := byLink was ls p.lost 0, en := byLink was ls p.en false }.setIlv m
    else
      let fresh : PGroup := { p.bare with st := .gated, mode := .running, gate := !entry }.setIlv m
      match look g j with
      | some e =>
        if !live && sameLinks e.links ls then { fresh with
          mode := if e.locked then .locked else .running, cause := e.cause, retries := e.retries
          lost := byLink e.links ls e.lost 0 }
        else fresh
      | none => fresh

/-- A group starts fresh: its journal entries are cleared (R70, R201). -/
def startsFresh (old new : Cfg) (j : List (Nat × GroupJournal)) (g : Nat) : Bool :=
  (new.group g).isSome && !((old.group g).isSome && sameLinks (old.members g) (new.members g)) &&
    (match look g j with
      | none => false
      | some e => (old.group g).isSome || !sameLinks e.links (new.members g))

/-- A lane as an admission leaves it; `keep` is false where the group starts anew. -/
def admitLane (old new : Cfg) (keep leaving held : Bool) (g : Nat) (k : KGroup) : KGroup :=
  match new.group g with
  | none => { KGroup.reset with ovr := k.ovr, cmp := k.cmp, forced := k.forced, holds := k.holds, capture := k.capture }
  | some _ =>
    if keep then
      let b := min k.band ((new.laneCtx g).bands - 1)
      let same := (List.range 8).all (fun i => decide (old.set g i = new.set g i)) && decide (old.laneCtx g = new.laneCtx g)
      if same ∨ k.st ≠ .firing then { k with band := b, pend := k.pend.filter (fun x => x < (new.laneCtx g).bands) }
      else { k with band := b, newSet := true, pend := none, defer := 0, deferred := false }
    else
      let k1 := { k.clear (if held then .hold else .quiet) (fun _ => none) with band := 0, active := none, last := [], phase := .idle }
      if leaving then { k1 with bankRef := 0, oldRef := 0 } else k1

/-- The members of a group that are not UP have their phases LOST from the boundary (R236). -/
def State.loseMembers (m : GroupMap) (g : Nat) (s : State) : State :=
  (List.range m.nPh).foldl (fun s h =>
    let l := s.link (m.links.getD h 0xFF)
    if l.st ≠ .up ∧ (s.pg g).avail h = true then s.losePhase m g h (if l.st = .off then 4 else 3) else s) s

/-- The groups and lanes of an admitted configuration, which is already in force. -/
def State.admitGroups (old new : Cfg) (entry leaving : Bool) (s : State) : State :=
  let j := (s.sup.sjNext.getD s.sup.sj).groups
  let keep (g : Nat) : Bool := !entry && !leaving && (old.group g).isSome && sameLinks (old.members g) (new.members g) &&
    decide (structureOf old g = structureOf new g)
  let s1 := s.onPsc (fun p => { p with groups := p.groups.mapIdx (fun g x => admitGroup old new entry leaving j g x) })
  let s2 := s1.onKce (fun k => { k with
    groups := k.groups.mapIdx (fun g x => admitLane old new (keep g) (entry || leaving) ((s1.pg g).mode = .held) g x) })
  let s3 := if entry then s2
    else (List.range 64).foldl (fun s g => if startsFresh old new j g then s.journalGroup g else s) s2
  let gone := (List.range 64).filter (fun g => (new.group g).isNone)
  let s4 := s3.onSpa (fun p => { p with inp := { p.inp with cap := gone.foldl (fun a g => a.set g 0) p.inp.cap } })
  let s5 := gone.foldl (fun s g => s.onPg g (fun p => { p with sent := 0 })) s4
  (new.groupList.foldl (fun s x => s.loseMembers x.2 x.1) s5).refreshGroups

/-- The frame position of each group from an admission on (R225, R236): a group that keeps its rate and a member link with a schedule, UP or
DOWN, keeps its position; any other takes one that every UP member can meet. -/
def State.admitPositions (old new : Cfg) (s : State) : State :=
  s.onPla (fun p => { p with pos := p.pos.mapIdx (fun g o =>
    let ups := (new.members g).filter (fun l => (s.link l).st = .up)
    if (old.group g).isSome && old.rate g == new.rate g &&
        (new.members g).any (fun l => (s.link l).sched && (old.members g).contains l) then o
    else if ups.isEmpty then none
    else some ((25 * s.sup.uptime + 1) / 2 + 12 + ups.foldl (fun a l => max a (s.link l).reach) 0)) })

/-- A SYNC goes to every UP link whose rate or group the admission changes (R236). -/
def State.admitSync (old new : Cfg) (s : State) : State :=
  let need (c : Cfg) (l : Nat) : Option Nat × Nat := match c.memberOf l with
    | none => (none, 0)
    | some (g, _) => (some g, c.rate g)
  (List.range 64).foldl (fun s l =>
    if (s.link l).st = .up ∧ need old l ≠ need new l then s.sendSync l (need new l).2 else s)
    (s.admitPositions old new)

/-! ### Ports, channels and Aqaux loops (R260, R306) -/

/-- A port that an admission disables: its pilot is high-impedance, its vehicle link off, and its posted buffers and outstanding
FRAME_TXs complete with ABORTED_RESET (R243, Table 09-8). -/
def State.closePort (n : Nat) (s : State) : State :=
  let p := s.prt n
  let s1 := (s.onPrt n (fun p => { p with
    pinMode := 3, pinDuty := 0, rx := [], bufs := [], tx := [], modemUp := false, badStatus := 0, statusDue := false
    resetting := false })).emit (.pilotOff n) |>.freeTiles (p.rx.map (fun f => frameTile n f.slot) ++ p.tx.map (fun t => frameTile n t.slot))
  let s2 := p.bufs.foldl (fun s b => s.complete .pf0 b.sq b.cid stABORTED_RESET 0) s1
  p.tx.foldl (fun s t => s.complete .pf0 t.sq t.cid stABORTED_RESET 0) s2

/-- The pilot drivers at an admission: a disabled port's is high-impedance, an enabled one's is driven (R243). -/
def State.admitPilots (new : Cfg) (s : State) : State :=
  (List.range 16).foldl (fun s n =>
    if !(new.port n).enable then (if (s.prt n).pinMode = 3 then s else s.closePort n)
    else if (s.prt n).pinMode = 3 then (s.onPrt n (fun p => { p with pinMode := 0, pinDuty := 0 })).emit (.pilot n 0 0)
    else s) s

/-- Ports at an admission: one whose record changes starts anew, NOT_READY for the admission epoch of a commit; one that becomes MCS has no
modem (R262). -/
def State.admitPorts (old new : Cfg) (entry : Bool) (s : State) : State :=
  ((s.admitPilots new).onVpc (fun v => { v with ports := v.ports.mapIdx (fun n p =>
    if old.port n = new.port n then p
    else
      let ccs := (new.port n).ccs
      { p with
        mode := 0, duty := 0, energy := false, pilot := none, prox := none, diode := false, admission := !entry
        modemUp := ccs && p.modemUp, badStatus := if ccs then p.badStatus else 0, statusDue := ccs && p.statusDue }) })).evalPorts

/-- Channels at a commit's admission: one whose record changes takes its new default (R306). -/
def State.admitChans (old new : Cfg) (s : State) : State :=
  (List.range 24).foldl (fun s n =>
    if old.chan n = new.chan n then s else s.orderCh n (new.chan n).default (new.chan n).duty) s

/-- Channels at bisque entry: a host-owned one takes its image default, a TCM-owned one follows the Aqaux loop (R306). -/
def State.entryChans (new : Cfg) (s : State) : State :=
  (List.range 24).foldl (fun s n =>
    let r := new.chan n
    if r.owner = 2 then
      s.orderCh n (b2n ((List.range 16).any (fun p => let a := new.aq p
        a.enable && ((a.pump == n && (s.aq p).pump) || (a.fan == n && (s.aq p).fan))))) 0
    else s.orderCh n r.default r.duty) s

/-- Aqaux loops at an admission: a changed record that stays enabled on the same channels keeps its loop; otherwise what the
loop drives is ordered off and it starts from rest. A disabled record has no flow fault (R286, R289). -/
def State.admitAqaux (old new : Cfg) (s : State) : State :=
  (List.range 16).foldl (fun s p =>
    let o := old.aq p
    let r := new.aq p
    let a := s.aq p
    let s1 := if o = r ∨ (o.enable ∧ r.enable ∧ o.pump = r.pump ∧ o.fan = r.fan) then s
      else
        let s2 := if a.pump then s.aqOrder o.pump false else s
        let s3 := if a.fan then s2.aqOrder o.fan false else s2
        s3.onAq p (fun a => { a with pump := false, fan := false, runLeft := 0, runOn := false })
    if r.enable then s1 else s1.onAq p (fun a => { a with fault := false, low := 0, ok := 0 })) s

/-! ### Sessions and the site allocator (R169) -/

/-- A session ends at an admission boundary: CLOSE with reason COMMIT, its entry freed, its SESSION_STOPs DONE. -/
def State.spaEnds (i : Nat) (s : State) : State :=
  match look i s.spa.sess with
  | none => s
  | some x =>
    let e := entryAt s.spa.ledger i
    let s1 := if e.isPortSession && !x.closed then s.sendCross (.close e.number 4) else s
    let late := s1.spa.waiting.filter (fun w => opOf w.1 == 0x41 && sd w.1 1 == i)
    let s2 := (s1.writeEntry i .free).onSpa (fun p => { p with
      sess := del i p.sess
      waiting := p.waiting.filter (fun w => !(opOf w.1 == 0x41 && sd w.1 1 == i)) })
    let s3 := x.stops.foldl (fun s c => s.complete .pf0 c.1 c.2 stDONE 0) s2
    late.foldl (fun s w => s.complete .pf0 w.1.sq (cidOf w.1) stDONE 0) s3

/-- The sessions an admission ends, then the network it plans on, written to the ledger's pairs once they are restored (R125). -/
def State.admitSpa (new : Cfg) (entry leaving : Bool) (keep : List (Nat × Entry)) (s : State) : State :=
  let ends := if entry then [] else (s.spa.sess.map Prod.fst).filter (fun i => (look i keep).isNone)
  let s1 := ends.foldl (fun s i => s.spaEnds i) s
  let net := if new.bisque then bisqueLedger new else new.ledger
  let held := if entry then s1.spa.ledger.filter (fun x => x.2.isSession) else keep
  (s1.onTmf (fun t => (List.range 32).foldl (fun t i => t.settle i (0x20 + i)) t)).onSpa (fun p => { p with
    ledger := held.foldl (fun a x => putSorted x.1 x.2 a) net
    changed := List.range 32, unwritten := []
    ledgerFaults := []
    unposted := p.unposted.filter (fun u => (look u.idx held).isSome)
    epochLen := if entry then 1 else p.cfgReg
    admission := !entry && leaving && s.conf.bisque })

/-! ### The admission (R66, R69) -/

/-- A configuration comes into force as a whole: at bisque entry, or at a commit's admission boundary. `leaving`: the device
was not in SERVICE. A bisque entry has no admission epoch: its quantities start with it (R432). -/
def State.putInForce (new : Cfg) (entry leaving : Bool) (s : State) : State :=
  let old := s.conf
  let keep := carriedOver new s
  let s1 := s.admitSpa new entry leaving keep
  let s2 := { s1 with cfg := some new }.onSup (fun p => { p with cls := new.cls, configId := new.id })
  let s3 := s2.setState (if entry then .bisque else .service) 0
  let s4 := (s3.admitGroups old new entry leaving).admitSync old new
  let s5 := s4.admitPorts old new entry
  let s6 := (s5.tcmHoldsBegin).admitAqaux old new
  let s7 := (if entry then s6.entryChans new else s6.admitChans old new).tcmHolds
  let s8 := (s7.admitStrings old new (entry && s.bse.fresh)).admitBelfry old.belfry new.belfry
  let s9 := s8.admitQuants old.quants new.quants
  if entry then s9.startQuants else s9

/-- A validated CONFIG_COMMIT is admitted at the boundary; RWL registers take effect with it (Table 00-5). -/
def State.admitCommit (s : State) : State :=
  match s.sup.image, s.sup.commit with
  | some new, some c =>
    if !carryOk new s then s.failCommit c 0x08
    else
      let leaving := decide (s.sup.st ≠ .service)
      let s1 := s.onSup (fun p => { p with
        commit := none, commitOk := true, commitReason := 0, image := none })
      let s2 := (s1.postCommit c stDONE 0).supEvent 71 0x01 new.id noSource
      (s2.onTmf (fun t => { t with hostLimit := t.hostLimitReg })).putInForce new false leaving
  | _, _ => s

/-- The admission epoch of the commit before ends: groups, ports and the plan take their course (R69, R260). -/
def State.endAdmission (s : State) : State :=
  let s1 := s.onPsc (fun p => { p with groups := p.groups.map (fun g => { g with gate := false }) })
  let s2 := s1.onVpc (fun v => { v with ports := v.ports.map (fun p => { p with admission := false }) })
  (s2.refreshGroups.evalPorts).onSpa (fun p => { p with admission := false })

/-- Each group's mean voltage over the epoch that ends; without a sample the previous one stands (R150, R203). -/
def State.groupVolts (s : State) : State :=
  s.onSpa (fun p =>
    let v (g : Nat) : Nat :=
      let a := p.vsum.getD g (0, 0)
      let b := p.vbase.getD g (0, 0)
      if a.2 = b.2 then p.inp.volt.getD g 0 else (rneDiv (a.1 - b.1) (a.2 - b.2)).toNat
    { p with inp := { p.inp with volt := (List.range 64).map v }, vbase := p.vsum })

/-- An epoch boundary: what waited for it takes effect, then the snapshot is taken (R21, R145). `bad` are the ledger tiles
that fail their check now. -/
def epochBoundary (bad : List Nat) (s : State) : State :=
  if !s.siteUp then s
  else
    let s1 := s.startQuants.endAdmission
    let s2 := s1.admitCommit.admitStaged
    spaBoundary bad ((s2.groupVolts.deliverCaps).deliverLimits)

/-- Meaning of EPOCH_BOUNDARY (R66, R145). -/
def execEpochBoundary (bad : List Nat) (s : State) : Res := .next (epochBoundary bad s.start)

end Sys2Proof.Machine
end

