-- ==== Sys2Proof/Machine/Reset.lean ====
section
/-! DEFINITION. The main-die reset (R35, R40, R50, R52) as one operation, with what each island keeps through it, and the
registers the Spire clears with it (Table 22-3). -/

namespace Sys2Proof.Machine

open Sys2Proof

/-- The main die is powered and not held in reset. -/
def State.mainRuns (s : State) : Bool := s.sup.powered % 128 != 0 && !s.sup.held

/-- The islands beside HI have reported ready. -/
def State.islandsUp (s : State) : Bool := s.sup.readyMask / 2 % 64 == 63

/-! ### Firmware slots -/

/-- A firmware slot: 0 A, 1 B. -/
def Sup.slot (p : Sup) (i : Nat) : Slot := if i = 0 then p.slotA else p.slotB

/-- A firmware slot changed. -/
def Sup.onSlot (i : Nat) (f : Slot → Slot) (p : Sup) : Sup :=
  if i = 0 then { p with slotA := f p.slotA } else { p with slotB := f p.slotB }

/-- A slot's state set. -/
def Sup.mark (i : Nat) (st : SlotState) (p : Sup) : Sup := p.onSlot i (fun x => { x with st := st })

/-- The slot in a state, if any: A before B. -/
def Sup.slotIn (p : Sup) (st : SlotState) : Option Nat :=
  if p.slotA.st = st then some 0 else if p.slotB.st = st then some 1 else none

/-- The slot the Spire boots: the one on trial, else the active one (R48, R452). -/
def Sup.bootTarget (p : Sup) : Nat := ((p.slotIn .trial).or (p.slotIn .active)).getD p.bootSlot

/-- The Spire boots a slot; watchdog resets count on one slot (R48). -/
def Sup.bootTo (i : Nat) (p : Sup) : Sup :=
  if i = p.bootSlot then p else { p with bootSlot := i, wdTimes := [], wdPast := [] }

/-- The islands run the firmware of a slot, each from one of its banks. -/
def Sup.runs (i : Nat) (p : Sup) : Sup :=
  let x := p.slot i
  { p.bootTo i with banks := banksOf i, fwVersion := x.version, cfgMin := x.cfgMin, cfgMax := x.cfgMax, formats := x.formats }

/-- An island changes over to its idle bank. -/
def Bank.swap (b : Bank) : Bank :=
  match b.idle with
  | none => b
  | some n => ⟨n, some b.run⟩

/-! ### What survives in each island's drivers -/

/-- A load-switch channel across a main-die reset (R302, R306, R307): the driver keeps an output that is on, its duty and its current; LOCKOUT,
cause and retries come back from the state journal; the site island's order is what the output shows. -/
def resetCh (j : List (Nat × Bool × Nat × Nat)) (n : Nat) (c : LChan) : LChan :=
  let e := (look n j).getD (false, 0, 0)
  let st := if e.1 then LSt.lockout else if c.outOn then c.st else .off
  { LChan.reset with
    st := st, cause := e.2.1, retries := e.2.2
    order := if st = .on then 1 else if st = .pwm then 2 else if st = .inrush then c.order else 0
    duty := c.duty, dApp := c.dApp, current := if c.outOn && !e.1 then c.current else 0 }

/-- LSW across a main-die reset: its driver, its supply and LS_SEL go on. -/
def resetLsw (j : List (Nat × Bool × Nat × Nat)) (l : Lsw) : Lsw :=
  { l with chans := l.chans.mapIdx (fun n c => resetCh j n c), vs := [], lastEvent := none }

/-- The queue state of a function across a reset of HI: only held events stay, in the islands that raised them (R514). -/
def FnState.restart (rings vectors : Nat) (f : FnState) : FnState := { FnState.reset rings vectors with held := f.held }

/-- The main die's end of the Saggar link is lost; what the Saggar has sent and what reached it stays with it (R19, R40). -/
def SgLink.mainLost (l : SgLink) : SgLink := { SgLink.reset with inSg := l.inSg, toSt := l.toSt, heldPf1 := l.heldPf1 }

/-- The main-die islands at reset, with what the Spire's NVM gives them back: the retire map, thermal latches and
load-switch lock-outs (R136, R284, R302); EVR keeps its flash (R439). No configuration is in force. -/
def State.islandsReset (s : State) : State :=
  let j := s.sup.sjNext.getD s.sup.sj
  let m := s.sup.retNext.getD s.sup.ret
  { s.resetEvr with
    hqe := { Hqe.reset with f0 := s.hqe.f0.restart 64 72, f1 := s.hqe.f1.restart 4 8, dropped := { s.hqe with dropped := s.hqe.lostIn .pf0 }.lostIn .pf1 }
    tmf := Tmf.reset s.sup.resets m.phys m.oos m.spares
    lnk := s.lnk.mainLost, cfg := none, spa := Spa.reset, kce := Kce.reset, psc := Psc.reset, pla := Pla.reset, vpc := Vpc.reset
    tcm := Tcm.reset j.latches, lsw := resetLsw j.switches s.lsw, bse := Bse.reset, blk := Blk.reset, cur := none
    mss := { s.mss with waiting := [] } }

/-! ### What the Spire does -/

/-- Every link ends with a safe COMMAND frame (R50). -/
def State.safeLinks (s : State) : State :=
  (List.range 64).foldl (fun s l =>
    if (s.link l).st = .off ∨ (s.link l).st = .failed then s else s.sendCommand l Cmd.safeCmd) s

/-- Every port's pilot falls to the driver's default, as VH no longer drives its enable (R52, R258). -/
def State.pilotsDefault (s : State) : State :=
  (List.range 16).foldl (fun s n =>
    if (s.prt n).pinMode = 0 then s else s.emit (.pilot n 0 0)) s

/-- What the Spire drops with the main die: ready reports, staging, live switch, trial clock, ordered resets, and the fields that
Table 22-3 clears at a main-die reset. A slot being staged is INVALID (R447). A reset in SHIP_PENDING also drops ship mode, with no
fault record 0x0008 and no vector 71, and the charger stays stopped until power-good (DESIGN CHOICE, log entry 12). -/
def Sup.mainLost (p : Sup) : Sup :=
  let p1 := match p.staging with
    | none => p
    | some g => p.onSlot g.slot (fun _ => Slot.empty)
  { p1 with
    readyMask := 0x100, pcieUp := false, cls := 0, configId := 0, uptime := 0, lastEvent := none, replaced := false
    posting := none, staging := none, live := none, outage := 0, trialOn := false, trialLeft := 0, restart := none, resetOrdered := false, sjWait := []
    shipFrom := none, shipLeft := 0, image := none, storing := none }

/-- A commit in progress ends with ABORTED; HI no longer runs, so its CQE is lost (R63, R65). -/
def State.abortCommit (s : State) : State :=
  match s.sup.commit with
  | none => s
  | some c => s.closeCommit c 0x0D

/-- The main die goes down: the links' safe frames first, then the commit's end and the islands' reset (R50, R65). -/
def State.mainDown (st : DevState) (s : State) : State :=
  let s1 := s.safeLinks.pilotsDefault
  let s2 := s1.onSup (fun p => { p with readyMask := 0x100, lastEvent := none })
  let s3 := s2.abortCommit.setState st 0
  s3.onSup (fun p => { p.mainLost with lastEvent := p.lastEvent })

/-- A main-die reset with its cause (Table 22-3): counted, the islands reset, the boot slot taken afresh. -/
def State.mainReset (cause : Nat) (s : State) : State :=
  let s1 := s.mainDown .boot
  let s2 := s1.onSup (fun p => { p.bootTo p.bootTarget with lastReset := cause, resets := (p.resets + 1) % 2 ^ 32 })
  s2.islandsReset

end Sys2Proof.Machine
end

