-- ==== Sys2Proof/Machine/Tariff.lean ====
section
/-! DEFINITION. The tariff calendar (R353 to R357, R519): its fields, its checks, and the rate in force at an L-time. -/

namespace Sys2Proof.Machine

open Sys2Proof

/-! ### Fields (Tables 13-3 to 13-5) -/

/-- The calendar id. -/
def Calendar.id (c : Calendar) : Nat := u c.t0 4 4

/-- The interval code. -/
def Calendar.lenCode (c : Calendar) : Nat := u c.t0 16 1

/-- The billing day; 0 none. -/
def Calendar.billingDay (c : Calendar) : Nat := u c.t0 17 1

/-- ADJ_LIMIT in seconds. -/
def Calendar.adjLimit (c : Calendar) : Nat := u c.t0 18 2

/-- credit_low. -/
def Calendar.creditLow (c : Calendar) : Int := sgn c.t0 20 4

/-- Port `n` takes prepayment tokens. -/
def Calendar.prepaid (c : Calendar) (n : Nat) : Bool := bit (u c.t0 26 2) n

/-- The price of a rate. -/
def Calendar.price (c : Calendar) (r : Nat) : Nat := u c.t0 (320 + 8 * r) 4

/-- The port a keypad credits; 0xFF none. -/
def Calendar.keyPort (c : Calendar) (k : Nat) : Nat := u c.t0 (448 + k) 1

/-- Season `k` is valid. -/
def Calendar.seasonOn (c : Calendar) (k : Nat) : Bool := bit (u c.t0 (64 + 16 * k) 1) 0

/-- Season `k`'s start: month and day. -/
def Calendar.seasonStart (c : Calendar) (k : Nat) : Nat × Nat := (u c.t0 (65 + 16 * k) 1, u c.t0 (66 + 16 * k) 1)

/-- Season `k`'s week profile. -/
def Calendar.seasonWeek (c : Calendar) (k : Nat) : Nat := u c.t0 (67 + 16 * k) 1

/-- Season `k`'s offset from UTC in minutes. -/
def Calendar.seasonOffset (c : Calendar) (k : Nat) : Int := sgn c.t0 (68 + 16 * k) 2

/-- Interval lengths in ms, by code (Table 13-3). -/
def intervalMs (code : Nat) : Nat :=
  match code with
  | 0 => 60000
  | 1 => 300000
  | 2 => 600000
  | 3 => 900000
  | 4 => 1800000
  | _ => 3600000

/-! ### The rate in force (R357) -/

/-- True when season `a` starts before season `b` in the year. -/
def startsBefore (c : Calendar) (a b : Nat) : Bool :=
  let x := c.seasonStart a
  let y := c.seasonStart b
  x.1 < y.1 || (x.1 == y.1 && x.2 < y.2)

/-- The valid seasons, by their start in the year. -/
def Calendar.seasons (c : Calendar) : List Nat := sortBy (startsBefore c) ((List.range 8).filter c.seasonOn)

/-- Of starts that fall on one day, as those of 29 February and 1 March do in a common year, the latest start date is in force. -/
def lastOfDay : List (Int × Nat) → List (Int × Nat)
  | a :: b :: r => if a.1 = b.1 then lastOfDay (b :: r) else a :: lastOfDay (b :: r)
  | l => l

/-- The days on which seasons start, and the seasons, in the order of their start dates: a year, the one before and the one
after. -/
def Calendar.starts (c : Calendar) (y : Nat) : List (Int × Nat) :=
  lastOfDay ([y - 1, y, y + 1].flatMap (fun yy => c.seasons.map (fun k =>
    (daysOf yy (c.seasonStart k).1 (c.seasonStart k).2, k))))

/-- From a season in force on through the starts that follow, each at 00:00 on the clock of the season before it, as far as an
L-time has come. -/
def Calendar.walk (c : Calendar) (t : Nat) : (k : Nat) → List (Int × Nat) → Nat
  | k, [] => k
  | k, x :: r => if x.1 * dayUs - c.seasonOffset k * minuteUs ≤ (t : Int) then c.walk t x.2 r else k

/-- The season in force at an L-time: that of the latest start date at or before the local date, wrapping to the year before. -/
def Calendar.seasonAt (c : Calendar) (t : Nat) : Nat :=
  c.walk t (c.seasons.getLast?.getD 0) (c.starts (civil (t / dayUs)).1)

/-- Local time at an L-time, in µs. -/
def Calendar.localAt (c : Calendar) (t : Nat) : Nat := ((t : Int) + c.seasonOffset (c.seasonAt t) * minuteUs).toNat

/-- The special day that matches a date, if any: its day profile. -/
def Calendar.specialDay (c : Calendar) (y m d : Nat) : Option Nat :=
  (List.range 512).findSome? (fun e =>
    let yy := u c.t2 (8 * e) 2
    if u c.t2 (8 * e + 2) 1 = m ∧ u c.t2 (8 * e + 3) 1 = d ∧ (yy = 0 ∨ yy = y) then some (u c.t2 (8 * e + 4) 1) else none)

/-- The rate of the last used switch point of a day profile at or before a minute. -/
def Calendar.profileRate (c : Calendar) (d minute : Nat) : Nat :=
  (List.range 16).foldl (fun r i =>
    let m := u c.t1 (64 * d + 4 * i) 2
    if m ≠ 0xFFFF ∧ m ≤ minute then u c.t1 (64 * d + 4 * i + 2) 1 else r) 0

/-- What is in force at an L-time: rate, season, special day, day profile. -/
def Calendar.at (c : Calendar) (t : Nat) : Nat × Nat × Bool × Nat :=
  let k := c.seasonAt t
  let l := c.localAt t
  let (y, m, d) := civil (l / dayUs)
  let sp := c.specialDay y m d
  let p := sp.getD (u c.t0 (192 + 8 * c.seasonWeek k + weekday (l / dayUs)) 1)
  (c.profileRate p (l / minuteUs % 1440), k, sp.isSome, p)

/-- The rate, season, special day and day profile in force: T0 while the clock is not valid or no calendar is active (R357,
R358, R519). -/
def Bte.inForce (b : Bte) : Nat × Nat × Bool × Nat :=
  match b.off, b.cal with
  | some _, some c => c.at b.lTime
  | _, _ => (0, 0, false, 0)

/-- The rate in force recomputed. -/
def State.recompute (s : State) : State :=
  s.onBte (fun b =>
    let x := b.inForce
    { b with rate := x.1, season := x.2.1, special := x.2.2.1, day := x.2.2.2 })

/-- The rate in force brought up to date. An interval that opened at this instant opens at the new rate (R371). -/
def State.refreshRate (s : State) : State :=
  s.recompute.onBte (fun b => if b.open_.startUp = b.up then { b with open_ := { b.open_ with rate := b.rate } } else b)

/-! ### The checks of a calendar (R354) -/

/-- A check: it holds, or the tile and byte offset of its field. -/
abbrev CalCheck := Bool × Nat × Nat

/-- Reserved bytes are 0: the check of the first that is not. -/
def zeroBytes (tile : Nat) (b : List Byte) (o n : Nat) : List CalCheck :=
  match (List.range n).find? (fun i => u b (o + i) 1 != 0) with
  | none => []
  | some i => [(false, tile, o + i)]

/-- A date exists in some year, with 29 February allowed. -/
def dateOk (m d : Nat) : Bool := 1 ≤ m && m ≤ 12 && 1 ≤ d && d ≤ monthDays m

/-- Checks of a season. -/
def seasonChecks (c : Calendar) (k : Nat) : List CalCheck :=
  let o := 64 + 16 * k
  let (m, d) := c.seasonStart k
  let head : List CalCheck := [(u c.t0 o 1 ≤ 1 && (k != 0 || c.seasonOn 0), 0, o)]
  let dup := (List.range k).any (fun j => c.seasonOn j && c.seasonStart j == (m, d))
  let body : List CalCheck :=
    [(1 ≤ m && m ≤ 12 && !dup, 0, o + 1), (dateOk m d, 0, o + 2), (c.seasonWeek k ≤ 15, 0, o + 3),
     (decide (-720 ≤ c.seasonOffset k) && decide (c.seasonOffset k ≤ 840), 0, o + 4)]
  head ++ (if c.seasonOn k then body ++ zeroBytes 0 c.t0 (o + 6) 10 else zeroBytes 0 c.t0 (o + 1) 15)

/-- Checks of tile 0. -/
def calChecks0 (c : Calendar) : List CalCheck :=
  let b := c.t0
  let head : List CalCheck := [(u b 0 2 == 1, 0, 0)]
  let fields : List CalCheck :=
    [(c.id != 0, 0, 4), (c.lenCode ≤ 5, 0, 16), (c.billingDay ≤ 28, 0, 17), (1 ≤ c.adjLimit && c.adjLimit ≤ 900, 0, 18),
     (decide (0 ≤ c.creditLow), 0, 20)]
  let weeks : List CalCheck := (List.range 16).flatMap (fun w =>
    ((List.range 7).map (fun i => (decide (u b (192 + 8 * w + i) 1 ≤ 63), 0, 192 + 8 * w + i)) : List CalCheck) ++
      zeroBytes 0 b (192 + 8 * w + 7) 1)
  let rates : List CalCheck := (List.range 16).flatMap (fun r => zeroBytes 0 b (320 + 8 * r + 4) 4)
  let keys : List CalCheck := (List.range 256).map (fun k => (c.keyPort k ≤ 15 || c.keyPort k == 0xFF, 0, 448 + k))
  head ++ zeroBytes 0 b 2 2 ++ fields ++ zeroBytes 0 b 28 36 ++ (List.range 8).flatMap (seasonChecks c) ++ weeks ++ rates ++
    keys ++ zeroBytes 0 b 704 3392

/-- A day profile is named by a week profile or a special day. -/
def Calendar.named (c : Calendar) (d : Nat) : Bool :=
  (List.range 16).any (fun w => (List.range 7).any (fun i => u c.t0 (192 + 8 * w + i) 1 == d)) ||
    (List.range 512).any (fun e => u c.t2 (8 * e + 2) 1 != 0 && u c.t2 (8 * e + 4) 1 == d)

/-- Checks of one switch point; `named`: its profile is named. -/
def pointChecks (c : Calendar) (named : Bool) (d i : Nat) : List CalCheck :=
  let o := 64 * d + 4 * i
  let m := u c.t1 o 2
  let before := u c.t1 (o - 4) 2
  let order := if !named then true
    else if i = 0 then m == 0
    else m == 0xFFFF || (before != 0xFFFF && decide (before < m))
  let head : List CalCheck := [((m == 0xFFFF || m ≤ 1439) && order, 1, o)]
  if m = 0xFFFF then head ++ zeroBytes 1 c.t1 (o + 2) 2 else head ++ ([(u c.t1 (o + 2) 1 ≤ 15, 1, o + 2)] : List CalCheck) ++ zeroBytes 1 c.t1 (o + 3) 1

/-- Checks of tile 1. -/
def calChecks1 (c : Calendar) : List CalCheck :=
  (List.range 64).flatMap (fun d => let n := c.named d; (List.range 16).flatMap (pointChecks c n d))

/-- Two special days match one date in one year. -/
def sameDay (c : Calendar) (e f : Nat) : Bool :=
  let x := u c.t2 (8 * e) 2
  let y := u c.t2 (8 * f) 2
  u c.t2 (8 * f + 2) 1 == u c.t2 (8 * e + 2) 1 && u c.t2 (8 * f + 3) 1 == u c.t2 (8 * e + 3) 1 &&
    (x == y || x == 0 || y == 0)

/-- Checks of tile 2. -/
def calChecks2 (c : Calendar) : List CalCheck :=
  (List.range 512).flatMap (fun e =>
    let o := 8 * e
    let y := u c.t2 o 2
    let m := u c.t2 (o + 2) 1
    if m = 0 then zeroBytes 2 c.t2 o 8
    else
      ([((y == 0 || (2000 ≤ y && y ≤ 2099)) && !(List.range e).any (sameDay c e), 2, o), (m ≤ 12, 2, o + 2),
        (dateOk m (u c.t2 (o + 3) 1), 2, o + 3), (u c.t2 (o + 4) 1 ≤ 63, 2, o + 4)] : List CalCheck) ++
        zeroBytes 2 c.t2 (o + 5) 3)

/-- The first field that fails, among the tiles given: its tile and byte offset. -/
def calBad (c : Calendar) (tiles : List Nat) : Option (Nat × Nat) :=
  let all := (if tiles.contains 0 then calChecks0 c else []) ++ (if tiles.contains 1 then calChecks1 c else []) ++
    (if tiles.contains 2 then calChecks2 c else [])
  (all.find? (fun x => !x.1)).map Prod.snd

end Sys2Proof.Machine
end

