-- ==== Sys2Proof/Machine/Bte.lean ====
section
/-! DEFINITION. Billing, tariffs and tokens (R346 to R373): attribution of carries, credit, sessions, intervals, periods, the
legal clock, calendars and tokens. -/

namespace Sys2Proof.Machine

open Sys2Proof

/-! ### Attribution and credit (R347, R362, R363) -/

/-- The price of the rate in force; 0 without a calendar (R519). -/
def Bte.price (b : Bte) : Nat := match b.cal with | none => 0 | some c => c.price b.rate

/-- The state of a port's account: 0 OK, 1 LOW, 2 EXHAUSTED (R363, R519). -/
def Bte.account (b : Bte) (p : Nat) : Nat :=
  let x := (b.credit.getD p (0, 0)).1
  match b.cal with
  | none => 2
  | some c => if x ≤ 0 then 2 else if x ≤ c.creditLow then 1 else 0

/-- A carry charged to a prepaid port (R362): the account after it, and the debit. -/
def chargeAcct (c price : Nat) (a : Int × Nat) : (Int × Nat) × Nat :=
  let r := a.2 + c * price
  let debit := r / 100000000000
  ((satS32 (a.1 - debit), r % 100000000000), debit)

/-- A carry of c µWh credited to one session of its port. -/
def sessCarry (c rate debit : Nat) (x : BteSess) : BteSess :=
  { x with energy := upd x.energy rate (· + c), cost := if x.prepaid then x.cost + debit else x.cost }

/-- A carry of an accumulator credited to everything that follows it (R347). -/
def Bte.attribute (id c : Nat) (b : Bte) : Bte :=
  if id < 16 then
    let pre := b.sess.any (fun x => x.port == id && x.prepaid)
    let (acct, debit) := chargeAcct c b.price (b.credit.getD id (0, 0))
    { b with
      trDc := upd b.trDc b.rate (· + c)
      credit := if pre then b.credit.set id acct else b.credit
      sess := b.sess.map (fun x => if x.port = id then sessCarry c b.rate debit x else x) }
  else if id = 0x20 then { b with trImp := upd b.trImp b.rate (· + c) }
  else if id = 0x21 then { b with trExp := upd b.trExp b.rate (· + c) }
  else b

/-- A carry reaches BTE, or waits in the queue while BTE restarts (R381). -/
def State.carry (id c : Nat) (s : State) : State :=
  if c = 0 then s
  else if s.mss.restarting then s.onBte (fun b => { b with carryQ := b.carryQ ++ [(id, c)] })
  else s.onBte (Bte.attribute id c)

/-- A CREDIT message set on its way (R363, R19). -/
def State.sendCredit (n st : Nat) (s : State) : State :=
  s.onLnk (fun l => { l with toSt := l.toSt ++ [(.credit n st, s.bte.lTime)] })

/-- The credit state a session has: EXHAUSTED on a port that is not enabled or is METER_FAULT (R317), OK postpaid, its
account's state prepaid. -/
def State.creditOf (s : State) (x : BteSess) : Nat :=
  if !s.sgm.enabled x.port || s.sgm.portFault x.port then 2 else if x.prepaid then s.bte.account x.port else 0

/-- One session's credit state evaluated: at a change one CREDIT message, at most one at a sample boundary (R371), and subcode 0x04 for
its account. -/
def State.evalSess (x : BteSess) (s : State) : State :=
  if x.said then s else
  let st := s.creditOf x
  let acct := if x.prepaid then s.bte.account x.port else 0
  let s1 := if st ≠ x.sent then s.sendCredit x.number st else s
  let s2 := if acct ≠ x.acct then s1.bteEvent 5 0x04 (x.acct * 256 + acct) x.port else s1
  s2.onBte (fun b => { b with
    sess := b.sess.map (fun y => if y.number = x.number then { y with sent := st, acct := acct, said := decide (st ≠ x.sent) } else y) })

/-- Every open session's credit state evaluated, while BTE runs. -/
def State.creditEval (s : State) : State := if s.mss.restarting then s else s.bte.sess.foldl (fun s x => s.evalSess x) s

/-! ### Records (R378) -/

/-- A record signed and written to the record store; the store keeps the newest 4,096 session and 64 period records. -/
def State.record (kind : Nat) (body : List Byte) (s : State) : State :=
  let seq := (s.mss.recordSeq + 1) % 2 ^ 32
  let head := le 4 seq ++ le 1 kind ++ [0] ++ le 2 (32 + body.length + 128) ++ le 8 s.bte.lTime ++ zeros 16
  let rec' := (seq, signed kind seq 0 (head ++ body) s)
  s.onMss (fun m =>
    if kind = 1 then { m with recordSeq := seq, sessions := (m.sessions ++ [rec']).drop (m.sessions.length + 1 - 4096) }
    else { m with recordSeq := seq, periods := (m.periods ++ [rec']).drop (m.periods.length + 1 - 64) })

/-- An L-time earlier by a hold time in ms, or unknown. -/
def heldTime (t hold : Nat) : Nat := if t = timeUnknown then t else t - hold * 1000

/-- A session ends: its record goes to MSS (R364, R378). -/
def State.endSession (x : BteSess) (reason hold : Nat) (s : State) : State :=
  let acc := s.sgm.acc.getD x.port 0
  let bal := if x.prepaid then (s.bte.credit.getD x.port (0, 0)).1 else 0
  let body := le 4 x.number ++ le 1 x.port ++ le 1 (b2n x.prepaid) ++ le 1 reason ++ [0] ++ le 8 x.open_ ++
    le 8 (heldTime s.bte.lTime hold) ++ le 8 (regVal x.reg) ++ le 8 (regVal acc) ++ le 1 (regRoll x.reg) ++
    le 1 (regRoll acc) ++ zeros 2 ++ (padTo 64 (x.energy.flatMap (fun e => le 4 (e / 100000)))) ++
    le 4 (min x.cost 0xFFFFFFFF) ++ leS 4 bal ++ zeros 12
  (s.onBte (fun b => { b with sess := b.sess.filter (fun y => y.number != x.number) })).record 1 body

/-! ### Session-crossing messages (R363, R364) -/

/-- An OPEN opens its session and is answered with CREDIT on the same cycle. -/
def openSession (n port : Nat) (prepaid : Bool) (hold : Nat) (s : State) : State :=
  let x : BteSess := ⟨n, port, prepaid, heldTime s.bte.lTime hold, s.sgm.acc.getD port 0, List.replicate 16 0, 0, 0, 0, true⟩
  let acct := if prepaid then s.bte.account port else 0
  let x := { x with sent := s.creditOf x, acct := acct }
  (s.onBte (fun b => { b with sess := b.sess ++ [x] })).sendCredit n x.sent

/-- The message at the front of the arrived ones, taken when it is of the kind asked for; while BTE restarts it waits, behind the carries of
that time (R381). -/
def openMessage (s : State) : State :=
  match s.bteRuns, s.lnk.inSg with
  | true, (.open n p pre, hold) :: rest => openSession n p pre hold (s.onLnk (fun l => { l with inSg := rest }))
  | _, _ => s

/-- Meaning of OPEN_MESSAGE (R363). -/
def execOpenMessage (s : State) : Res := .next (openMessage s.start)

/-- A CLOSE ends its session. -/
def closeMessage (s : State) : State :=
  match s.bteRuns, s.lnk.inSg with
  | true, (.close n reason, hold) :: rest =>
    let s := s.onLnk (fun l => { l with inSg := rest })
    match s.bte.sess.find? (fun x => x.number == n) with
    | none => s
    | some x => s.endSession x reason hold
  | _, _ => s

/-- Meaning of CLOSE_MESSAGE (R364). -/
def execCloseMessage (s : State) : Res := .next (closeMessage s.start)

/-- A RESYNC ends every open session: reason 0x03 for cause 0, 0x05 for cause 1. -/
def resyncMessage (s : State) : State :=
  match s.bteRuns, s.lnk.inSg with
  | true, (.resync cause, hold) :: rest =>
    let s := s.onLnk (fun l => { l with inSg := rest })
    s.bte.sess.foldl (fun s x => s.endSession x (if cause = 0 then 3 else 5) hold) s
  | _, _ => s

/-- Meaning of RESYNC_MESSAGE (R364). -/
def execResyncMessage (s : State) : Res := .next (resyncMessage s.start)

/-! ### Intervals (R349, R350) -/

/-- The interval length in force, in ms: 15 min without a calendar. -/
def Bte.lenMs (b : Bte) : Nat := match b.cal with | none => 900000 | some c => intervalMs c.lenCode

/-- The latest whole multiple of the interval length at or before a time in µs. -/
def Bte.boundary (b : Bte) (t : Nat) : Nat := t / (b.lenMs * 1000) * (b.lenMs * 1000)

/-- The demand of an increment over a duration (R350), in 100 W. -/
def demandOf (e dur len : Nat) : Nat := rneDivN (e * 3600) (max dur len)

/-- A demand register raised by a new demand. -/
def raiseMd (i d seq : Nat) (md : List (Nat × Nat)) : List (Nat × Nat) :=
  upd md i (fun x => if x.1 < d then (d, seq) else x)

/-- The open interval closes at an L-time (all ones when the clock is not valid): its record, its demands. -/
def State.closeInterval (endT extra : Nat) (s : State) : State :=
  let b := s.bte
  let i := b.open_
  let dur := (b.up - i.startUp) / 1000
  let inc (id : Nat) : Nat := regIncrease (i.regs.getD id 0) (s.sgm.acc.getD id 0)
  let d (id : Nat) : Nat := demandOf (inc id) dur b.lenMs
  let flags := i.flags ||| extra ||| (if b.off.isNone then 1 else 0) ||| (if s.sgm.mode = .battery then 8 else 0) |||
    (if s.sgm.saveGap then 32 else 0)
  let rec' := le 8 i.start ++ le 8 endT ++ le 4 i.seq ++ le 1 flags ++ le 1 i.rate ++ leS 2 (rneDiv i.adj 1000000) ++ le 4 dur ++
    [0x20, 0x21, 0x22, 0x23, 0x24, 0x25].flatMap (fun r => le 4 (inc r)) ++ (List.range 16).flatMap (fun p => le 4 (inc p)) ++
    le 4 (d 0x20) ++ zeros 8
  s.onBte (fun b => { b with
    store := (b.store ++ [(i.seq, rec')]).drop (b.store.length + 1 - 8192)
    mdImp := raiseMd i.rate (d 0x20) i.seq b.mdImp
    mdDc := (List.range 16).foldl (fun md p => raiseMd p (d p) i.seq md) b.mdDc })

/-- The next interval opens. -/
def State.openInterval (start flags : Nat) (s : State) : State :=
  let f := flags ||| (if s.bte.off.isNone then 1 else 0) ||| (if s.sgm.mode = .battery then 8 else 0)
  s.onBte (fun b => { b with
    open_ := ⟨(b.open_.seq + 1) % 2 ^ 32, start, b.up, f, b.rate, 0, s.sgm.acc⟩ })

/-- A flag of the open interval set. -/
def State.flagInterval (f : Nat) (s : State) : State :=
  s.onBte (fun b => { b with open_ := { b.open_ with flags := b.open_.flags ||| f } })

/-- An interval boundary that has not yet been passed (R349, R361): in L-time while the clock is valid, otherwise in
uptime. In ship state nothing of it runs (R73). -/
def intervalClose (s : State) : State :=
  if !s.sgm.runs then s
  else match s.bte.off with
    | some _ =>
      let b := s.bte.boundary s.bte.lTime
      if s.bte.closed < b then
        ((s.closeInterval b 0).onBte (fun x => { x with closed := b })).openInterval b 0
      else s
    | none =>
      let b := s.bte.boundary s.bte.up
      if s.bte.closedUp < b then
        ((s.closeInterval timeUnknown 0).onBte (fun x => { x with closedUp := b })).openInterval timeUnknown 0
      else s

/-- Meaning of INTERVAL_CLOSE (R349). -/
def execIntervalClose (s : State) : Res := .next (intervalClose s.start)

/-! ### Billing periods (R351, R352) -/

/-- The source of a BTE register is faulted now (Tables 12-9, 13-1): AC_FAULT; METER_FAULT of the port; for a rate of all ports, of some
enabled port (DEDUCED, log entry 26). -/
def State.bteFault (s : State) (id : Nat) : Bool :=
  if id < 0x20 ∨ (0x30 ≤ id ∧ id < 0x40) then s.sgm.acFault
  else if id < 0x30 then (List.range 16).any (fun n => s.sgm.enabled n && s.sgm.portFault n)
  else s.sgm.portFault (id - 0x40)

/-- A BTE register's 16-byte entry (Table 13-1): energy, or a demand with the interval that set it. -/
def State.bteEntry (s : State) (id : Nat) : List Byte :=
  let b := s.bte
  let flags := b2n (s.bteFault id) + 2 * b2n s.sgm.saveGap
  let acc := if id < 0x10 then b.trImp.getD id 0 else if id < 0x20 then b.trExp.getD (id - 0x10) 0
    else b.trDc.getD (id - 0x20) 0
  let md := if id < 0x40 then b.mdImp.getD (id - 0x30) (0, 0) else b.mdDc.getD (id - 0x40) (0, 0)
  if id < 0x30 then regEntry id 0 (regRoll acc) flags (regVal acc)
  else regEntry id 4 0 flags (md.1 % 2 ^ 32 + md.2 * 2 ^ 32)

/-- The open period closes: its record, demand registers restarted, the number advanced (R351). -/
def State.closePeriod (s : State) : State :=
  let b := s.bte
  let t := b.lTime
  let body := le 4 b.period ++ le 4 (b2n b.periodBad) ++ le 8 b.periodStart ++ le 8 t ++ zeros 8 ++
    (List.range 80).flatMap s.bteEntry
  ((s.record 2 body).onBte (fun b => { b with
    mdImp := List.replicate 16 (0, 0), mdDc := List.replicate 16 (0, 0), period := (b.period + 1) % 65536
    periodStart := t, periodBad := false })).bteEvent 6 0x15 b.period noSource

/-- The 00:00 of a local date is reached: a period close is evaluated once per date (R352), and closes the period on the billing
day (R351). -/
def State.evalPeriod (c : Calendar) (date : Nat) (s : State) : State :=
  if s.bte.periodDates.contains date then s
  else
    let s1 := s.onBte (fun b => { b with periodDates := b.periodDates ++ [date] })
    if c.billingDay ≠ 0 ∧ (civil date).2.2 = c.billingDay then s1.closePeriod else s1

/-- The sample boundary of 00:00 local time, of an active calendar and a valid clock: the local date is another one than at the boundary
before. A season that begins then may move the local time past 00:00 (R357). -/
def periodClose (s : State) : State :=
  match s.sgm.runs, s.bte.off, s.bte.cal with
  | true, some _, some c =>
    let date := c.localAt s.bte.lTime / dayUs
    if date ≠ c.localAt (s.bte.lTime - 125) / dayUs then s.evalPeriod c date else s
  | _, _, _ => s

/-- Meaning of PERIOD_CLOSE (R351). -/
def execPeriodClose (s : State) : Res := .next (periodClose s.start)

/-! ### Calendars (R355 to R357) -/

/-- A pair of copies verified (R355): a copy that fails is restored from the other one (R125). R126's retirement is of the tile store:
Saggar NVM, which keeps these copies, has no tile indices, spares or generations (DEDUCED, log entry 26). -/
def verifyCopies (badA badB : Bool) (p : Option Calendar × Option Calendar) : Option Calendar × Option Calendar :=
  let a := if badA then none else p.1
  let b := if badB then none else p.2
  (a.or b, b.or a)

/-- Both copies of a calendar have failed (R355): no calendar is active, and the failure is logged. -/
def State.calFail (id : Nat) (s : State) : State :=
  (s.onBte (fun b => { b with cal := none, calCopies := (none, none), calFault := true })).refreshRate.log 0x19 2 (le 4 id) 0 false

/-- The pending calendar becomes active at the sample boundary of the first minute at or after its activation (R356); `badA`,
`badB`: the copies of it that fail now. -/
def calendarActivation (badA badB : Bool) (s : State) : State :=
  match s.bte.off, s.bte.calNext with
  | some _, some c =>
    let t := s.bte.lTime
    if t / minuteUs * minuteUs < c.activation ∨ 125 ≤ t % minuteUs then s
    else
      let p := verifyCopies badA badB s.bte.nextCopies
      let s1 := s.onBte (fun b => { b with calNext := none, nextCopies := (none, none) })
      if p.1.isNone then s1.calFail c.id
      else
        let s2 := s1.flagInterval 16
        let load (s : State) : State :=
          (s.onBte (fun b => { b with cal := some c, calCopies := p, calFault := false })).refreshRate
        let s3 := if intervalMs c.lenCode ≠ s.bte.lenMs then
            let s4 := load (s2.closeInterval t 0)
            (s4.onBte (fun x => { x with closed := max x.closed (s4.bte.boundary t) })).openInterval t 64
          else load s2
        (s3.log 0x12 2 (le 4 c.id ++ le 8 c.activation) 0 false).bteEvent 6 0x14 c.id noSource
  | _, _ => s

/-- Meaning of CALENDAR_ACTIVATION (R355, R356). -/
def execCalendarActivation (badA badB : Bool) (s : State) : Res := .next (calendarActivation badA badB s.start)

/-- Meaning of TARIFF_SWITCH (R357): the rate follows the calendar at the current L-time. -/
def execTariffSwitch (s : State) : Res := .next s.start.refreshRate

/-- The active calendar's tiles verified as they are taken into use (R355). -/
def State.verifyCal (badA badB : Bool) (s : State) : State :=
  match s.bte.cal with
  | none => s
  | some c =>
    let p := verifyCopies badA badB s.bte.calCopies
    if p.1.isNone then s.calFail c.id else s.onBte (fun b => { b with calCopies := p })

/-- Local midnight: the calendar's tiles are verified and the day's switch list is built (R355). -/
def midnight (badA badB : Bool) (s : State) : State := (s.verifyCal badA badB).refreshRate

/-- Meaning of MIDNIGHT_SWITCH_LIST (R355). -/
def execMidnightSwitchList (badA badB : Bool) (s : State) : Res := .next (midnight badA badB s.start)

/-- CALENDAR_WRITE's answer: CRC words, fields, signature, then the calendar pends (R353 to R356). Fields are judged in the
tiles that pass their CRC words. -/
def calendarWrite (q : Sqe) (b : List Byte) (s : State) : SgAns × State :=
  let tile (i : Nat) : List Byte := (b.drop (4096 * i)).take 4096
  let good := (List.range 3).filter (fun i => crc32c (tile i) == u b (12288 + 4 * i) 4)
  let c : Calendar := ⟨tile 0, tile 1, tile 2, u b 8 8⟩
  match calBad c good with
  | some (t, o) => (.plain stBAD_PARAM (t * 65536 + o), s)
  | none =>
    match (List.range 3).find? (fun i => !good.contains i) with
    | some t => (.plain stTILE_CHECK t, s)
    | none =>
      if !sigOk 0xB1 q false b s then (.plain stSIGNATURE_BAD 0, s)
      else
        let n := blockCounter b
        let next := (s.bte.lTime / minuteUs + 1) * minuteUs
        let c := if c.activation = 0 then { c with activation := if s.bte.off.isSome then next else 0 } else c
        (.plain stDONE c.id,
          ((s.counted false n).onBte (fun b => { b with calNext := some c, nextCopies := (some c, some c) })).log 0x11 0 (le 4 c.id ++ le 8 c.activation) n false)

/-- Meaning of CALENDAR_WRITE (R354, R356, R372). -/
def execCalendarWrite (q : Sqe) (h : HostRead) (s : State) : Res :=
  .next (sgCmdH 0xB1 q h (fun b => [(b.length == 12396, 4, 0)]) (calendarWrite q) s.start)

/-! ### The legal clock (R358 to R361) -/

/-- ADJ_LIMIT in seconds: 60 without a calendar (Table 13-12). -/
def Bte.adjLimit (b : Bte) : Nat := match b.cal with | none => 60 | some c => c.adjLimit

/-- The small steps of the last 86,400 s of uptime, summed in µs. -/
def Bte.adjSum (b : Bte) : Nat := sumN ((b.smalls.filter (fun x => decide (b.up < x.1 + dayUs))).map Prod.snd)

/-- What is in force at an L-time, with a valid clock. -/
def State.rateAt (t : Nat) (s : State) : State :=
  match s.bte.cal with
  | none => s
  | some c => s.onBte (fun b => { b with rate := (c.at t).1 })

/-- Each boundary a small forward step passes closes at the step, in time order; what opens there opens at the rate of its time. -/
def State.closePassed : (n upTo : Nat) → State → State
  | 0, _, s => s
  | n + 1, upTo, s =>
    let b := s.bte.boundary upTo - n * (s.bte.lenMs * 1000)
    let s1 := if s.bte.closed < b then
        (((s.closeInterval b 0).onBte (fun x => { x with closed := b })).rateAt b).openInterval b 0
      else s
    State.closePassed n upTo s1

/-- A pending save gap is completed at the first valid clock setting (R338). -/
def State.gapDone (s : State) : State :=
  if s.sgm.saveGap then
    let last := s.sgm.gapFrom.getD timeUnknown
    let start := s.bte.lTime - s.bte.up
    let outage := if last = timeUnknown then 0xFFFFFFFF else (start - last) / 1000000
    (s.log 0x15 2 (le 8 last ++ le 4 outage) 0 true).onSgm (fun g => { g with saveGap := false, gapFrom := none })
  else s

/-- An accepted clock step takes effect (R360, Table 13-6). -/
def State.applyStep (st : ClockStep) (s : State) : State :=
  let b := s.bte
  let old := b.lTime
  let new := ((b.up : Int) + st.off).toNat
  let moved := s.onBte (fun b => { b with off := some st.off })
  if st.cls = 2 then
    let s1 := (moved.recompute.onBte (fun b => { b with closed := max b.closed (b.boundary new) }))
    let s2 := { s1 with bte := { s1.bte with off := none } }.closeInterval timeUnknown 2
    ((s2.onBte (fun b => { b with off := some st.off })).openInterval new 64).gapDone
  else if st.cls = 0 then
    let d := (new : Int) - old
    let s1 := moved.onBte (fun b => { b with open_ := { b.open_ with adj := b.open_.adj + d } })
    if 0 ≤ d then
      (State.closePassed (d.toNat / (b.lenMs * 1000) + 1) new s1).recompute
    else
      let s2 := if new < b.closed then s1.flagInterval 4 else s1
      s2.recompute
  else
    let s1 := s.closeInterval old 2
    let s2 := (s1.onBte (fun b => { b with off := some st.off })).recompute
    if old ≤ new then
      (s2.onBte (fun b => { b with closed := max b.closed (b.boundary new) })).openInterval new 64
    else s2.openInterval new 4

/-- The local date now; none without a valid clock and an active calendar. -/
def Bte.localDate (b : Bte) : Option (Calendar × Nat) :=
  match b.off, b.cal with
  | some _, some c => some (c, c.localAt b.lTime / dayUs)
  | _, _ => none

/-- A clock step takes effect. A small forward step that passes 00:00 reaches that period close (R360, R361). -/
def State.takeStep (st : ClockStep) (s : State) : State :=
  let s1 := s.applyStep st
  match s.bte.localDate, s1.bte.localDate with
  | some (_, old), some (c, new) => if st.cls = 0 ∧ old < new then s1.evalPeriod c new else s1
  | _, _ => s1

/-- The clock steps that wait take effect at this sample boundary, in the order of their acceptance. -/
def State.clockStep (s : State) : State :=
  s.bte.steps.foldl (fun s st => s.takeStep st) (s.onBte (fun b => { b with steps := [] }))

/-- The clock's offset from uptime as a CLOCK_SET finds it; a first setting that still waits counts (DEDUCED, log entry 26). -/
def Bte.clockOff (b : Bte) : Option Int := b.off.or (b.steps.getLast?.map ClockStep.off)

/-- CLOCK_SET's answer (R359). -/
def clockSet (q : Sqe) (b : List Byte) (s : State) : SgAns × State :=
  if !sigOk 0xB2 q false b s then (.plain stSIGNATURE_BAD 0, s)
  else
    let n := blockCounter b
    let s := s.counted false n
    let new := sd64 q 6
    let old : Nat := match s.bte.clockOff with
      | none => timeUnknown
      | some o => ((s.bte.up : Int) + o).toNat
    let off := (new : Int) - s.bte.up
    let (cls, d) : Nat × Int := match s.bte.clockOff with
      | none => (2, 0)
      | some _ =>
        let d := (new : Int) - old
        let lim := s.bte.adjLimit * 1000000
        (if d.natAbs ≤ lim ∧ d.natAbs + s.bte.adjSum ≤ lim then 0 else 1, d)
    let s1 := s.onBte (fun b => { b with
      steps := b.steps ++ [⟨off, cls, n⟩]
      smalls := if cls = 0 then (b.smalls.filter (fun x => decide (b.up < x.1 + dayUs))) ++ [(b.up, d.natAbs)] else b.smalls })
    let s2 := s1.log 0x13 0 (le 8 old ++ le 8 new ++ le 1 cls) n false
    let sec := ofInt 32 (d.tdiv 1000000)
    (.plain stDONE cls, if cls = 2 then s2 else s2.bteEvent 6 (if cls = 0 then 0x11 else 0x12) sec noSource)

/-- Meaning of CLOCK_SET (R358, R359, R372). -/
def execClockSet (q : Sqe) (h : HostRead) (s : State) : Res :=
  .next (sgCmdH 0xB2 q h (fun b => [(b.length == 96, 4, 0), (sd64 q 6 != timeUnknown, 6, 0)]) (clockSet q) s.start)

/-! ### Tokens (R365 to R370) -/

/-- A keypad's failures within the last 3,600 s of uptime, newest first. -/
def Bte.recent (b : Bte) (kp : Nat) : List Nat := ((look kp b.fails).getD []).filter (fun t => decide (b.up < t + 3600000000))

/-- A keypad is locked out (R370). -/
def Bte.locked (b : Bte) (kp : Nat) : Bool := 5 ≤ (b.recent kp).length

/-- Minutes until a lock-out ends, rounded up. -/
def Bte.minutesLeft (b : Bte) (kp : Nat) : Nat :=
  let t := (b.recent kp).getD 4 0
  (t + 3600000000 - b.up + minuteUs - 1) / minuteUs

/-- prepaid_enabled (R367). -/
def State.prepaidEnabled (s : State) (port : Nat) : Bool :=
  match s.bte.cal with
  | none => false
  | some c => port < 16 && c.prepaid port && s.sgm.enabled port

/-- A rejected token: its event, and a counted failure that may lock the keypad out. -/
def State.tokenFail (kp reason : Nat) (counted : Bool) (s : State) : (Nat × Nat) × State :=
  let s1 := s.bteEvent 5 0x02 reason kp
  let s2 := if counted then
      s1.onBte (fun b => { b with fails := put kp ((b.up :: b.recent kp).take 5) b.fails })
    else s1
  let s3 := if counted && s2.bte.locked kp then s2.bteEvent 5 0x03 (s2.bte.minutesLeft kp) kp else s2
  ((stTOKEN_REJECT, reason), s3)

/-- mark (R368). -/
def Bte.mark (id : Nat) (b : Bte) : Bte :=
  let lwm := if b.lwm + 4096 ≤ id then id - 4095 else b.lwm
  { b with lwm := lwm, used := (b.used.filter (fun x => decide (lwm ≤ x))) ++ [id] }

/-- The 20 bits of a token's code (R366). -/
def tokenMac (key : List Byte) (serial n : Nat) : Nat :=
  let t := padTo 3 (cmac key (le 8 serial ++ le 6 (n / 2 ^ 20) ++ zeros 2))
  u t 0 1 * 4096 + u t 1 1 * 16 + u t 2 1 / 16

/-- What BTE's slots in Saggar NVM say was spent; without a good slot, nothing has been accepted yet. -/
def Bte.nvSpent (b : Bte) : Spent := ((nvNewest Spent.bytes b.spent).map (fun x => x.2.content)).getD ⟨b.credit, b.lwm, b.used⟩

/-- An accepted token: its id is spent, its effect made and persisted, its event and log entry (R368, R369). -/
def State.tokenAccept (kp port cls id v : Nat) (s : State) : (Nat × Nat) × State :=
  let s1 := s.onBte (Bte.mark id)
  let s2 := if cls = 0 then s1.onBte (fun b => { b with credit := upd b.credit port (fun a => (a.1 + v, a.2)) })
    else if cls = 2 then s1.onBte (fun b => { b with fails := [] }) else s1
  let s3 := s2.bteEvent 5 0x01 id kp
  let s3 := s3.onBte (fun b => { b with spent := nvPut Spent.bytes ⟨b.credit, b.lwm, b.used⟩ b.spent })
  ((stDONE, id), s3.log 0x14 (if kp = 255 then 0 else 1) (le 1 kp ++ le 1 port ++ le 1 cls ++ le 4 id ++ le 8 v) 0 false)

/-- The token procedure (R367): the status and result of TOKEN_ENTER. Without a token key it fails with SIGNATURE_BAD
(R374). -/
def State.token (kp port : Nat) (d : List Nat) (s : State) : (Nat × Nat) × State :=
  if s.bte.locked kp then ((stLOCKED_OUT, s.bte.minutesLeft kp), s)
  else
    let port := if kp = 255 then port else match s.bte.cal with | none => 0xFF | some c => c.keyPort kp
    if port = 0xFF ∨ s.prepaidEnabled port = false then s.tokenFail kp 7 false
    else
      let n := (d.take 20).foldl (fun a x => a * 10 + (x - 0x30)) 0
      if d.length < 20 ∨ (d.take 20).any (fun x => x < 0x30 || 0x39 < x) = true ∨ 2 ^ 66 ≤ n then s.tokenFail kp 1 true
      else match s.mss.token with
        | none => ((stSIGNATURE_BAD, 0), s)
        | some key =>
          let cls := n / 2 ^ 64
          let id := n / 2 ^ 40 % 2 ^ 24
          let amt := n / 2 ^ 24 % 65536
          let sc := n / 2 ^ 20 % 16
          let v : Nat := amt * 10 ^ sc
          if n % 2 ^ 20 ≠ tokenMac key s.mss.serial.toNat n then s.tokenFail kp 2 true
          else if cls = 3 then s.tokenFail kp 3 true
          else if id < s.bte.lwm ∨ s.bte.used.contains id = true then s.tokenFail kp 4 true
          else if cls = 0 ∧ 9 < sc then s.tokenFail kp 5 true
          else if cls = 0 ∧ 2147483647 < (s.bte.credit.getD port (0, 0)).1 + (v : Int) then s.tokenFail kp 6 false
          else s.tokenAccept kp port cls id v

/-- The port a keypad credits. -/
def State.keypadPort (s : State) (kp : Nat) : Nat := match s.bte.cal with | none => 0xFF | some c => c.keyPort kp

/-- A balance in whole units, truncated. -/
def State.wholeUnits (s : State) (kp : Nat) : Int := ((s.bte.credit.getD (s.keypadPort kp) (0, 0)).1).tdiv 1000

/-- The two reason digits a local keypad shows: the reject's reason; for a lock-out or a missing key they are open. -/
def reasonDigits (st r free : Nat) : List Byte :=
  decAscii 2 (if st = stTOKEN_REJECT then r else Config.freeNat free % 100)

/-- The local keypad's frame: "T", 20 digits and CR; its answer (R365). -/
def keypadToken (digits : List Nat) (s : State) : State :=
  if !s.bteRuns then s
  else
    let (r, s1) := s.token 0 0xFF digits
    let bal := s1.wholeUnits 0
    let text : List Byte :=
      if r.1 = stDONE then [0x41] ++ (if bal < 0 then [0x2D] else []) ++ decAscii 1 bal.natAbs
      else [0x52] ++ reasonDigits r.1 r.2 s.free
    s1.took.emit (.uart 0 (text ++ [0x0D]))

/-- Meaning of KEYPAD_TOKEN (R365, R367). -/
def execKeypadToken (digits : List Nat) (s : State) : Res := .next (keypadToken digits s.start)

/-- A relayed token reaches BTE, and its answer goes back to the Belfry (R365, R422). -/
def relayedToken (s : State) : State :=
  match s.bteRuns, s.lnk.inSg with
  | true, (.token node digits, _) :: rest =>
    let s := s.onLnk (fun l => { l with inSg := rest })
    let (r, s1) := s.token node 0xFF digits
    let data := if r.1 = stDONE then 2 ^ 24 + ofInt 24 (s1.wholeUnits node) else 2 * 2 ^ 24 + r.2 % 2 ^ 24
    s1.onLnk (fun l => { l with toSt := l.toSt ++ [(.tokenAnswer node data, s1.bte.lTime)] })
  | _, _ => s

/-- Meaning of RELAYED_TOKEN (R365, R367). -/
def execRelayedToken (s : State) : Res := .next (relayedToken s.start)

/-- TOKEN_ENTER's answer. -/
def tokenEnter (q : Sqe) (s : State) : SgAns × State :=
  let (r, s1) := s.token 255 (sd q 1) ((sdBytes q 6 5).map BitVec.toNat)
  (.plain r.1 r.2, s1)

/-- Meaning of TOKEN_ENTER (R367, R372). -/
def execTokenEnter (q : Sqe) (s : State) : Res := .next (sgCmd 0xB3 q [(sd q 1 < 16, 1, 0)] (tokenEnter q) s.start)

/-- The oldest of a keypad's five failures has reached 3,600 s (R370): failures of that age are dropped. -/
def lockoutEnd (kp : Nat) (s : State) : State :=
  s.onBte (fun b => if b.locked kp then b else { b with fails := put kp (b.recent kp) b.fails })

/-- Meaning of KEYPAD_LOCKOUT_END (R370). -/
def execKeypadLockoutEnd (keypad : Nat) (s : State) : Res := .next (lockoutEnd keypad s.start)

/-! ### Reads (Table 13-9, R372) -/

/-- The header of a register read, with the L-time of the sample boundary read (Table 12-9). -/
def regHeader (count : Nat) (s : State) : List Byte :=
  le 8 s.sgm.boundAt ++ le 1 (b2n s.bte.off.isSome + 2 * b2n s.sgm.saveGap + 4 * b2n s.sgm.batRead) ++ le 1 count ++ zeros 2 ++
    le 4 s.mss.swShort ++ zeros 16

/-- REGISTER_READ's answer. -/
def registerRead (q : Sqe) (s : State) : SgAns × State :=
  let ids := ((List.range 80).filter (fun i => bits (sd q 6) 7 0 ≤ i)).take (bits (sd q 6) 15 8)
  legal q (regHeader ids.length s ++ ids.flatMap s.bteEntry) (32 + 16 * ids.length + 128) s

/-- The parameter checks of the register reads. -/
def regReadParams (q : Sqe) (ok : Bool) (most : Nat) : List (Bool × Nat × Nat) :=
  let n := bits (sd q 6) 15 8
  [(32 + 16 * n + 128 ≤ sd q 4, 4, 0), (ok, 6, 0), (1 ≤ n && n ≤ most, 6, 8)]

/-- Meaning of REGISTER_READ (R348, R372). -/
def execRegisterRead (q : Sqe) (s : State) : Res :=
  .next (sgCmd 0xB0 q (regReadParams q (bits (sd q 6) 7 0 < 80) 80) (registerRead q) s.start)

/-- A port's credit record (R372). -/
def State.creditRecord (s : State) (p : Nat) : List Byte :=
  let x := s.bte.sess.find? (fun x => x.port == p)
  let pre := s.bte.sess.any (fun x => x.port == p && x.prepaid)
  leS 4 (s.bte.credit.getD p (0, 0)).1 ++ le 1 (s.bte.account p) ++ le 1 (b2n pre) ++ zeros 2 ++
    (match x with | none => zeros 8 | some x => le 4 x.number ++ le 4 (min x.cost 0xFFFFFFFF))

/-- CREDIT_READ's answer. -/
def creditRead (q : Sqe) (s : State) : SgAns × State :=
  legal q (le 8 s.bte.lTime ++ zeros 24 ++ (List.range 16).flatMap s.creditRecord) 416 s

/-- Meaning of CREDIT_READ (R372). -/
def execCreditRead (q : Sqe) (s : State) : Res := .next (sgCmd 0xB4 q [(416 ≤ sd q 4, 4, 0)] (creditRead q) s.start)

/-- The records of a store from a number on, at most `n`. -/
def fromSeq (first n : Nat) (l : List (Nat × List Byte)) : List (Nat × List Byte) :=
  (l.filter (fun x => decide (first ≤ x.1))).take n

/-- INTERVAL_READ's answer. -/
def intervalRead (q : Sqe) (s : State) : SgAns × State :=
  let l := fromSeq (sd q 6) (bits (sd q 7) 9 0) s.bte.store
  let head := le 8 s.bte.lTime ++ le 4 ((l.head?.map Prod.fst).getD 0) ++ le 4 l.length ++
    le 4 ((s.bte.store.head?.map Prod.fst).getD 0) ++ le 4 ((s.bte.store.getLast?.map Prod.fst).getD 0) ++
    le 4 s.mss.swShort ++ zeros 4
  legal q (head ++ l.flatMap Prod.snd) l.length s

/-- Meaning of INTERVAL_READ (R372). -/
def execIntervalRead (q : Sqe) (s : State) : Res :=
  let n := bits (sd q 7) 9 0
  .next (sgCmd 0xB5 q [(32 + 128 * n + 128 ≤ sd q 4, 4, 0), (1 ≤ n && n ≤ 512, 7, 0)] (intervalRead q) s.start)

/-! ### Registers (Tables 13-11, 13-12) -/

/-- BTE_STATUS. -/
def bteStatus (unsampled : Bool) (b : Bte) : Nat :=
  b2n b.off.isSome * 2 ^ 31 + b2n b.cal.isSome * 2 ^ 30 + b2n b.calNext.isSome * 2 ^ 29 + b2n (b.calFault && !unsampled) * 2 ^ 28 +
    b.rate * 2 ^ 20 + b.season * 2 ^ 17 + b2n b.special * 2 ^ 16 + b.day * 2 ^ 10 + min 255 (countOf 256 b.locked)

/-- The next interval close in its clock: the first boundary later than now and than the latest one already closed (R361). -/
def Bte.nextClose (b : Bte) : Nat :=
  (match b.off with
    | none => b.boundary (max b.up b.closedUp)
    | some _ => b.boundary (max b.lTime b.closed)) + b.lenMs * 1000

/-- BTE_INTERVAL; `unsampled`: no sample boundary since power-on. -/
def bteInterval (unsampled : Bool) (b : Bte) : Nat :=
  let t := match b.off with | none => b.up | some _ => b.lTime
  let left := if unsampled then 0 else (b.nextClose - t + 999999) / 1000000
  min left 65535 * 2 ^ 16 + (match b.cal with | none => 3 | some c => c.lenCode) * 2 ^ 13

/-- BTE_CREDIT. -/
def bteCredit (unsampled : Bool) (b : Bte) : Nat :=
  (List.range 16).foldl (fun a p =>
    a + (if !unsampled && b.sess.any (fun x => x.port == p && x.prepaid) then b.account p else 3) * 4 ^ p) 0

/-- The BTE registers. They read values of one sample boundary; before the first after power-on they show their reset values (R373). -/
def readBte (off : Nat) (s : State) : Nat :=
  let b := s.bte
  let un := s.sgm.unsampled
  match off with
  | 0x000 => 0x10081040
  | 0x004 => 0x02002000
  | 0x008 => bteStatus un b
  | 0x00C => bteInterval un b
  | 0x010 => b.open_.seq
  | 0x014 => bteCredit un b
  | 0x018 => b.lwm
  | 0x01C => b.adjLimit * 2 ^ 16 + min 65535 (b.adjSum / 1000000)
  | 0x020 => match b.cal with | none => 0 | some c => c.id
  | 0x024 => b.period
  | 0x028 => lastEventWord b.lastEvent
  | _ => 0

end Sys2Proof.Machine
end

