-- ==== Sys2Proof/Machine/Sgm.lean ====
section
/-! DEFINITION. Saggar measurement (R310 to R345): samples, DC and AC energy, pulses, S0 inputs, battery mode, saves, the
measurement crossing and the SGM commands. -/

namespace Sys2Proof.Machine

open Sys2Proof

/-! ### Rails and modulator clocks (R312, Table 12-5) -/

/-- The rails and clocks switched; what changes shows on the pins. -/
def State.supplyMods (vv vi : Bool) (clk : List Nat) (s : State) : State :=
  let g := s.sgm
  let outs := (if g.rails.1 = vv then [] else [Out.rail 0 vv]) ++ (if g.rails.2 = vi then [] else [Out.rail 1 vi]) ++
    (List.range 4).filterMap (fun k => if g.mclk.getD k 0 = clk.getD k 0 then none else some (Out.mclk k (clk.getD k 0)))
  { s.onSgm (fun g => { g with rails := (vv, vi), mclk := clk }) with out := s.out ++ outs }

/-! ### From bitstream to code (R313) -/

/-- n(n − 1)/2. -/
def tri (n : Nat) : Nat := n * (n - 1) / 2

/-- The weight of the bit `k` places before the newest in the sinc³ filter of length 128: the cube of a moving sum. -/
def sincWeight (k : Nat) : Int := (tri (k + 2) : Int) - 3 * tri (k + 2 - 128) + 3 * tri (k + 2 - 256)

/-- What a block of 128 bits, the first its bit 0, adds to the output of the filter `m` blocks on; a bit is +1 or −1. -/
def sincSum (m block : Nat) : Int :=
  sumI ((List.range 128).map (fun j => (if block.testBit j then 1 else -1) * sincWeight (128 * m + (127 - j))))

/-- A block of 128 bits into the sinc³ filter: one more output at 48,000 a second. -/
def Decim.block (b : Nat) (d : Decim) : Decim :=
  { d with
    hist := (sincSum 0 b + d.next) :: d.hist
    next := sincSum 1 b + d.after
    after := sincSum 2 b }

/-- One bit into the STUCK test (R316). -/
def Decim.bit (b : Bool) (d : Decim) : Decim :=
  let run := if b = d.last then d.run + 1 else 1
  { d with last := b, run := run, stuck := d.stuck || decide (4096 ≤ run) }

/-- Half the sum of the FIR filter's taps. -/
def firHalf : Int := (Config.firScale : Int) + 1

/-- The taps of the FIR filter (R313): symmetric, for its delay of 47.5 samples of 48,000 a second is 989.6 µs, and of a fixed sum. The
rest is open (DESIGN CHOICE, log entry 25). -/
def firTaps : List Int :=
  let l := (List.range 47).map Config.firTap
  let h := l ++ [firHalf - sumI l]
  h ++ h.reverse

/-- A s24 code from the latest 96 outputs of the sinc³ filter: the FIR filter, scaled so that the modulator's full-scale input, 128³ at the
sinc³ filter's output, gives ±8,388,607, and narrowed (R6, R313). -/
def firCode (hist : List Int) : Int :=
  clampI (rneDiv (8388607 * sumI (List.zipWith (· * ·) firTaps hist)) (2 * (Config.firScale + 1) * 2 ^ 21)) (-8388608) 8388607

/-- A code's magnitude is at least 8,000,000 (R316). -/
def overrange (code : Int) : Bool := 8000000 ≤ code.natAbs

/-- One sample: 768 bits, the first bit 0 of `bits`, give one code (R313), and the tests of R316 go on. -/
def Decim.sample (bits : Nat) (d : Decim) : Int × Decim :=
  let d1 := (List.range 6).foldl (fun d i => d.block (bits / 2 ^ (128 * i) % 2 ^ 128)) d
  let d2 := (List.range 768).foldl (fun d i => d.bit (bits.testBit i)) { d1 with stuck := false }
  let code := firCode d2.hist
  let overs := if overrange code then d2.overs + 1 else 0
  (code, { d2 with
    hist := d2.hist.take 95, overs := overs, good := if d2.stuck || decide (8 ≤ overs) then 0 else d2.good + 1 })

/-- The tests of R316 start anew. -/
def Decim.fresh (d : Decim) : Decim := { d with run := 0, stuck := false, overs := 0, good := 0 }

/-- The codes of a sample of every channel. -/
def Sgm.codes (g : Sgm) (bits : List Nat) : List Int :=
  (List.range 40).map (fun c => ((g.decim.getD c Decim.reset).sample (bits.getD c 0)).1)

/-- The decimators after a sample. -/
def Sgm.decimate (g : Sgm) (bits : List Nat) : Sgm :=
  { g with decim := g.decim.mapIdx (fun c d => (d.sample (bits.getD c 0)).2) }

/-! ### Saves (R336 to R338) -/

/-- The CRC-32C over the SRAM renewed (R336). -/
def Sgm.renew (g : Sgm) : Sgm := { g with sramCrc := crc32c (sramBytes g.acc g.res (g.pulses.map Pulse.counts)) }

/-- What a save of a kind holds now: 0 PERIODIC, 1 BATTERY, 2 HOLDUP, 3 FINAL. -/
def State.saveNow (s : State) (kind : Nat) : Save :=
  ⟨kind, s.bte.lTime, s.sgm.acc, s.sgm.res, s.sgm.pulses.map Pulse.counts, s.bte.credit⟩

/-- A save reaches its slot of Saggar NVM. -/
def State.savePut (v : Save) (s : State) : State :=
  s.onSgm (fun g => { g with saves := nvPut Save.bytes v g.saves, lastSave := some (v.kind, s.bte.up) })

/-- A periodic save that is being written completes. -/
def State.saveDone (s : State) : State :=
  match s.sgm.saving with
  | none => s
  | some v => (s.onSgm (fun g => { g with saving := none })).savePut v

/-- A save of a kind, made whole. A periodic save being written completes first; before HOLDUP it is abandoned (R340). -/
def State.saveSgm (kind : Nat) (s : State) : State :=
  let s1 := if kind = 2 then s.onSgm (fun g => { g with saving := none }) else s.saveDone
  s1.savePut (s1.saveNow kind)

/-- The periodic save begins; it completes by the next sample boundary at the latest. -/
def periodicSave (s : State) : State :=
  if s.sgm.runs then
    let s1 := s.saveDone
    s1.onSgm (fun g => { g with saving := some (s1.saveNow 0) })
  else s

/-- Meaning of PERIODIC_SAVE (R336). -/
def execPeriodicSave (s : State) : Res := .next (periodicSave s.start)

/-! ### Energy (R314, R318, R322) -/

/-- One µWh in µW·sample (R318). -/
def energyUnit : Nat := 28800000

/-- A code converted with a calibration record (R314). -/
def convertCode (cal : List Byte) (c : Nat) (code : Int) : Int := satS32 (rneShr (code * calGain cal c) 24 + calOffset cal c)

/-- A current code delayed by its phase trim of `phase` / 65,536 sample: between the code and the one before it, or for a
negative trim between it and the one after it, rounded half to even (R314). -/
def phaseTrim (phase before code after : Int) : Int :=
  let other := if 0 ≤ phase then before else after
  rneShr (code * (65536 - phase.natAbs) + other * phase.natAbs) 16

/-- An amount added to a register's residue; whole units move to its accumulator. The carry is the second result. -/
def bump (id amount unit scale : Nat) (g : Sgm) : Sgm × Nat :=
  let r := g.res.getD id 0 + amount
  let c := r / unit
  ({ g with res := g.res.set id (r % unit), acc := upd g.acc id (· + c * scale) }, c)

/-- An amount added to a register, its carry handed to BTE. -/
def State.bumpReg (id amount : Nat) (s : State) : State :=
  let x := bump id amount energyUnit 1 s.sgm
  (s.onSgm (fun _ => x.1)).carry id x.2

/-- Port `n` is measured in this sample: enabled, fitted and not METER_FAULT. -/
def Sgm.measures (g : Sgm) (n : Nat) : Bool :=
  g.enabled n && !g.portFault n && calGain g.cal n != 0 && calGain g.cal (16 + n) != 0

/-- One sample of port `n` (R318). -/
def State.dcSample (xs : List Int) (n : Nat) (s : State) : State :=
  let v := xs.getD n 0
  let i := xs.getD (16 + n) 0
  if !s.sgm.measures n || decide (i.natAbs < calStart s.sgm.cal (16 + n)) then s
  else
    let pr := v * i
    if 0 ≤ pr then s.bumpReg n pr.toNat else s.bumpReg (0x10 + n) pr.natAbs

/-- The converted values of a sample, channel by channel. The AC channels follow one sample behind, so that a negative phase
trim has the code after it. -/
def Sgm.convertAll (g : Sgm) (codes : List Int) : List Int :=
  (List.range 40).map (fun c =>
    if c < 32 then convertCode g.cal c (codes.getD c 0)
    else
      let x := g.prev.getD (c - 32) 0
      let code := if c ≤ 35 then phaseTrim (calPhase g.calAc c) (g.prev2.getD (c - 32) 0) x (codes.getD c 0) else x
      convertCode g.calAc c code)

/-- The codes of the AC channels kept for the next sample. -/
def Sgm.keepAc (g : Sgm) (codes : List Int) : Sgm := { g with prev2 := g.prev, prev := (codes.drop 32).take 8 }

/-- One sample through a band-pass filter tuned to a line frequency (R321): the fundamental, and the filter after it. -/
def Band.step (line : Nat) (x : Int) (b : Band) : Int × Band :=
  let y := Config.bandPass line x b.x2 b.y1 b.y2
  (y, ⟨x, b.x1, y, b.y1⟩)

/-- The fundamental voltage a quarter of a line period ago, interpolated linearly between samples (R321): at 8,000 samples a
second and a frequency in 10 mHz, 200,000 / line samples. -/
def quarterBack (line : Nat) (hist : List Int) : Int :=
  let k := 200000 / line
  let r := 200000 % line
  rneDiv (hist.getD k 0 * (line - r : Nat) + hist.getD (k + 1) 0 * r) line

/-- One sample of a phase (R321): its part of q_blk, and its filters after it. -/
def PhaseBand.step (line : Nat) (v i : Int) (p : PhaseBand) : Int × PhaseBand :=
  let v1 := p.v.step line v
  let i1 := p.i.step line i
  let hist := (v1.1 :: p.hist).take 802
  (quarterBack line hist * i1.1, ⟨v1.2, i1.2, hist⟩)

/-- The phases' parts of q_blk in a sample. -/
def Sgm.reactive (g : Sgm) (xs : List Int) : List Int :=
  (List.range 3).map (fun k =>
    ((g.band.getD k PhaseBand.reset).step g.line (xs.getD (36 + k) 0) (xs.getD (32 + k) 0)).1)

/-- The phases' filters after a sample. -/
def Sgm.filtered (g : Sgm) (xs : List Int) : List PhaseBand :=
  g.band.mapIdx (fun k p => (p.step g.line (xs.getD (36 + k) 0) (xs.getD (32 + k) 0)).2)

/-- The AC block's sums after a sample (R320 to R322); `qs` are the phases' parts of q_blk. -/
def blockSample (fault : Bool) (xs qs : List Int) (b : Block) : Block :=
  let x (c : Nat) : Int := xs.getD c 0
  let ph (k : Nat) : Int := x (36 + k) * x (32 + k)
  let neg := decide (x 36 < 0)
  { n := b.n + 1
    p := if fault then b.p else b.p + ph 0 + ph 1 + ph 2
    sum := (List.range 40).map (fun c => b.sum.getD c 0 + x c)
    sq := (List.range 40).map (fun c => b.sq.getD c 0 + (x c).natAbs * (x c).natAbs)
    pw := (List.range 16).map (fun n => b.pw.getD n 0 + x n * x (16 + n))
    ph := (List.range 3).map (fun k => b.ph.getD k 0 + ph k)
    q := (List.range 3).map (fun k => b.q.getD k 0 + qs.getD k 0)
    nsq := b.nsq + (x 32 + x 33 + x 34).natAbs * (x 32 + x 33 + x 34).natAbs
    cross := if b.neg = some (!neg) then b.cross + 1 else b.cross
    neg := some neg }

/-- The second's sums after a sample (R339). -/
def secondSample (g : Sgm) (xs : List Int) (c : Second) : Second :=
  let x (n : Nat) : Int := xs.getD n 0
  { c with
    n := c.n + 1
    v := (List.range 16).map (fun n => c.v.getD n 0 + x n)
    i := (List.range 16).map (fun n => c.i.getD n 0 + x (16 + n))
    p := (List.range 16).map (fun n => c.p.getD n 0 + x n * x (16 + n))
    bad := (List.range 16).map (fun n => c.bad.getD n false || !g.enabled n || g.portFault n)
    gp := c.gp + x 36 * x 32 + x 37 * x 33 + x 38 * x 34 }

/-! ### Pulse outputs and S0 inputs (R327 to R330) -/

/-- Pulses due since base. -/
def Pulse.due (p : Pulse) (acc : Nat) : Nat := (acc - p.base) / (p.weight * 100000)

/-- A pulse that has been emitted in full: one of those owed, or one more since base; none where it was counted before. -/
def Pulse.finish (p : Pulse) : Pulse :=
  let q := { p with active := none, idle := 1, counted := false }
  if p.counted then q else if 0 < p.owed then { q with owed := p.owed - 1 } else { q with sent := p.sent + 1 }

/-- A pulse output goes inactive without the end of its pulse (R331, R340): the pulse is still due. -/
def Pulse.cut (p : Pulse) : Pulse :=
  { p with active := none, idle := 0, counted := false, owed := p.owed + b2n p.counted }

/-- A pulse output at a sample boundary. A due pulse starts at the first one at which the output has been inactive for its width. -/
def State.pulseSample (k : Nat) (s : State) : State :=
  let p := s.sgm.pulses.getD k Pulse.reset
  let acc := s.sgm.acc.getD p.src 0
  let put (f : Pulse → Pulse) (s : State) : State := s.onSgm (fun g => { g with pulses := upd g.pulses k f })
  match p.active with
  | some (n + 2) => put (fun p => { p with active := some (n + 1) }) s
  | some _ =>
    (put Pulse.finish s).emit (.pulse k false)
  | none =>
    if p.src ≠ 0xFF ∧ p.width * 8 ≤ p.idle ∧ (0 < p.owed ∨ p.sent < p.due acc) then
      (put (fun p => { p with active := some (p.width * 8), idle := 0, counted := false }) s).emit (.pulse k true)
    else put (fun p => { p with idle := p.idle + 1 }) s

/-- The pulse outputs stay inactive for `n` sample boundaries without normal measurement. -/
def Sgm.idleFor (n : Nat) (g : Sgm) : Sgm := { g with pulses := g.pulses.map (fun p => { p with idle := p.idle + n }) }

/-- An accepted PULSE_CONFIG takes effect (R328, R330), and is logged with old and new values. -/
def State.pulseApply (c : PulseCfg) (s : State) : State :=
  if c.input then
    let o := s.sgm.s0.getD c.idx S0In.reset
    (s.onSgm (fun g => { g with s0 := upd g.s0 c.idx (fun x => { x with cls := c.cls, weight := c.weight }) })).log 0x10 0
      (le 1 c.idx ++ le 1 1 ++ le 1 o.cls ++ le 1 c.cls ++ zeros 2 ++ le 4 o.weight ++ le 4 c.weight) c.counter false
  else
    let p := s.sgm.pulses.getD c.idx Pulse.reset
    let now := p.active.isSome && !p.counted && p.owed == 0
    let sent := p.sent + b2n now
    let r := if p.src = 0xFF then 0 else s.sgm.acc.getD p.src 0 - p.base - sent * p.weight * 100000
    let same := p.src = c.src
    let base := s.sgm.acc.getD c.src 0 - (if same then r else 0)
    (s.onSgm (fun g => { g with pulses := upd g.pulses c.idx (fun x => { x with
        src := c.src, width := c.width, weight := c.weight, base := base, sent := 0, counted := if same then x.counted || now else x.active.isSome
        owed := if same then x.owed else 0 }) })).log
      0x10 0 (le 1 c.idx ++ [0] ++ le 1 p.src ++ le 1 c.src ++ le 1 p.width ++ le 1 c.width ++ le 4 p.weight ++ le 4 c.weight ++
        le 8 (if same then 0 else r)) c.counter false

/-- Accepted PULSE_CONFIGs take effect. -/
def State.pulseCfgs (s : State) : State :=
  s.sgm.pulseNext.foldl (fun s c => s.pulseApply c) (s.onSgm (fun g => { g with pulseNext := [] }))

/-- A transition of an S0 input: counted when it was on and, before that, off for at least 20 ms each (R329). -/
def s0Pulse (n onMs offMs : Nat) (on : Bool) (s : State) : State :=
  let x := s.sgm.s0.getD n S0In.reset
  if x.cls = 0 ∨ s.sgm.runs = false then s
  else
    let s1 := s.onSgm (fun g => { g with s0 := upd g.s0 n (fun x => { x with on := on }) })
    if 20 ≤ onMs ∧ 20 ≤ offMs then
      s1.onSgm (fun g => { g with acc := upd g.acc (0x28 + n) (· + x.weight * 100000) }.renew)
    else s1.onSgm (fun g => { g with s0 := upd g.s0 n (fun x => { x with rejects := min (x.rejects + 1) 65535 }) })

/-- Meaning of S0_PULSE (R329, R330). -/
def execS0Pulse (input onMs offMs : Nat) (on : Bool) (s : State) : Res := .next (s0Pulse input onMs offMs on s.start)

/-! ### The block (R320 to R322, R343) -/

/-- The RMS of a square sum over `n` samples. -/
def rmsOf (sq n : Nat) : Nat := isqrtNear (rneDivN sq n)

/-- The registers of a block's quadrant: active, reactive, apparent (Table 12-3). -/
def quadrant (p q : Int) : Nat × Nat × Nat :=
  if 0 ≤ p then (if 0 ≤ q then (0x20, 0x22, 0x26) else (0x20, 0x25, 0x26))
  else (if 0 ≤ q then (0x21, 0x23, 0x27) else (0x21, 0x24, 0x27))

/-- The record of a block (Table 12-10); the mode byte is filled in when it is read. -/
def instRecord (time freq flags : Nat) (b : Block) (qs : List Int) (q : Int) (sBlk : Nat) : List Byte :=
  let w (x : Int) : List Byte := leS 4 (satS32 (rneDiv x (b.n * 1000000)))
  le 8 time ++ le 2 freq ++ [0] ++ le 1 flags ++ zeros 4 ++
    (List.range 40).flatMap (fun c =>
      if c < 32 then leS 4 (satS32 (rneDiv (b.sum.getD c 0) b.n)) else le 4 (rmsOf (b.sq.getD c 0) b.n)) ++
    (List.range 16).flatMap (fun n => w (b.pw.getD n 0)) ++
    (List.range 3).flatMap (fun k => w (b.ph.getD k 0) ++ w (qs.getD k 0)) ++ w b.p ++ w q ++
    le 4 (satU32 (rneDiv sBlk (b.n * 1000000))) ++ zeros 4

/-- The neutral flag after a block (R322). -/
def neutralStep (b : Block) (g : Sgm) : Bool × Nat :=
  let r (c : Nat) : Nat := rmsOf (b.sq.getD c 0) b.n
  let top := max (r 32) (max (r 33) (r 34))
  let differs := decide (top < 20 * ((r 35 : Int) - rmsOf b.nsq b.n).natAbs)
  if differs = g.neutral then (g.neutral, 0)
  else if 1 ≤ g.neutralRun then (differs, 0) else (g.neutral, 1)

/-- The AC channels take the set in force, at a block boundary (R315); a seal procedure that waited for it closes (R381). -/
def State.acBoundary (s : State) : State :=
  let s1 := s.onSgm (fun g => { g with calAc := g.cal })
  if s.mss.sealSt = 2 ∧ s.mss.restarting = false ∧ s.sgm.calNext = none then s1.onMss (fun m => { m with sealSt := 0 }) else s1

/-- The line frequency in 10 mHz that `cross` zero crossings in 200 ms leave open: more than cross − 1 and fewer than
cross + 1 half periods (R321). -/
def freqOf (cross free : Nat) : Nat :=
  let lo := (cross - 1) * 250
  lo + Config.freeNat free % ((cross + 1) * 250 - lo + 1)

/-- A block of 1,600 samples ends (R320 to R322). How the line frequency follows from the crossings is not in the manual: it is
an open value within what their count allows; fewer than two crossings measure none, and the filters stay tuned as they were (log
entry 25). -/
def blockEnd (s : State) : State :=
  let g := s.sgm
  let b := g.block
  if g.mode ≠ .normal ∨ b.n ≠ 1600 then s
  else
    let freq := freqOf b.cross s.free
    let ff := decide (b.cross < 10) || decide (freq < 4500) || decide (6500 < freq)
    let q := if ff then 0 else sumI b.q
    let sBlk := isqrtNear ((b.p * b.p + q * q).toNat)
    let idle := [32, 33, 34].all (fun c =>
      let st := calStart g.calAc c
      decide (b.sq.getD c 0 < st * st * b.n))
    let nt := neutralStep b g
    let flags := b2n g.acFault + 2 * b2n ff + 4 * b2n nt.1
    let shown := if ff then 0 else satU16 freq
    let s1 := s.took.onSgm (fun g => { g with
      freq := shown, line := if b.cross < 2 then g.line else freq, freqFault := ff, neutral := nt.1, neutralRun := nt.2
      inst := instRecord s.bte.lTime shown flags b b.q q sBlk
      block := { Block.empty with neg := b.neg }
      sec := { g.sec with gq := g.sec.gq + q, qn := g.sec.qn + b.n } })
    let s2 := if idle || g.acFault then s1
      else
        let (ra, rr, rs) := quadrant b.p q
        ((s1.bumpReg ra b.p.natAbs).bumpReg rr q.natAbs).bumpReg rs sBlk
    s2.acBoundary

/-- Meaning of BLOCK_END (R321, R322). -/
def execBlockEnd (s : State) : Res := .next (blockEnd s.start)

/-! ### Channel faults (R316, R317) -/

/-- A channel is evaluated: fitted, and of an enabled port or of the AC point. -/
def Sgm.evaluated (g : Sgm) (c : Nat) : Bool :=
  c < 40 && calGain (if c < 32 then g.cal else g.calAc) c != 0 && (decide (32 ≤ c) || g.enabled (c % 16))

/-- The code of a channel fault's cause (R316). -/
def faultCode (c : ChanFault) : Nat := match c with | .stuck => 1 | .overrange => 2

/-- SGM_LAST_EVENT of a channel's fault (Table 12-11). -/
def faultEvent (c arg : Nat) : Nat × Nat × Nat := (if c < 32 then c % 16 else 0xFF, if c < 32 then 0x30 else 0x31, arg)

/-- A channel's fault status changes, with its cause, or 0; sessions of its port learn it at once (R317). -/
def State.setFault (c cause : Nat) (s : State) : State :=
  let old := s.sgm.faults.getD c 0
  if old = cause then s
  else
    (s.onSgm (fun g => { g with
      faults := g.faults.set c cause
      lastEvent := some (faultEvent c (if cause = 0 then old * 2 else cause * 2 + 1)) })).creditEval

/-- The condition of a cause holds at the latest sample (R316). -/
def Decim.shows (d : Decim) (cause : Nat) : Bool := if cause = 1 then d.stuck else 8 ≤ d.overs

/-- A channel shows a fault: it is declared faulted. -/
def channelFault (c cause : Nat) (s : State) : State :=
  let g := s.sgm
  if g.mode = .normal ∧ g.evaluated c = true ∧ g.faults.getD c 0 = 0 ∧ (g.decim.getD c Decim.reset).shows cause = true then
    s.setFault c cause
  else s

/-- Meaning of CHANNEL_FAULT (R316, R317). -/
def execChannelFault (ch : Nat) (cause : ChanFault) (s : State) : Res := .next (channelFault ch (faultCode cause) s.start)

/-- 8,000 codes in a row without a fault condition. -/
def channelClear (c : Nat) (s : State) : State :=
  if s.sgm.mode = .normal ∧ 8000 ≤ (s.sgm.decim.getD c Decim.reset).good then s.setFault c 0 else s

/-- Meaning of CHANNEL_FAULT_CLEAR (R316, R317). -/
def execChannelFaultClear (ch : Nat) (s : State) : Res := .next (channelClear ch s.start)

/-! ### The sample boundary (R318, R371) -/

/-- A sample boundary begins. What waits for it takes effect: the calibration set, at a block boundary for the AC channels too, and pulse
configurations; each session may have its CREDIT of this boundary (R371). -/
def State.boundaryStart (s : State) : State :=
  let s := s.onBte (fun b => { b with sess := b.sess.map (fun x => { x with said := false }) })
  let s1 := match s.sgm.calNext with
    | none => s
    | some c => s.onSgm (fun g => { g with cal := c, calNext := none })
  (if s1.sgm.block.n = 0 then s1.acBoundary else s1).pulseCfgs

/-- The end of a sample boundary: the credit states, then a clock step (R371); the SRAM's CRC is renewed (R336). -/
def State.boundaryEnd (s : State) : State :=
  let s1 := if s.mss.restarting then s else s.creditEval.clockStep
  s1.onSgm (fun g => { g.renew with boundAt := s1.bte.lTime })

/-- What fell due by the latest sample and no command has brought yet: the end of a save and of a block, channel faults and
their ends. -/
def State.sgmDue (s : State) : State :=
  (List.range 40).foldl (fun s c => channelClear c (channelFault c 2 (channelFault c 1 s))) (blockEnd s.saveDone)

/-- The ports' energy in one sample. -/
def State.dcSamples (xs : List Int) (s : State) : State := (List.range 16).foldl (fun s n => s.dcSample xs n) s

/-- A sample boundary. Samples are discarded in SETTLING, and no energy register advances in battery mode, which has none. -/
def sgmSample (bits : List Nat) (s : State) : State :=
  if !s.sgm.runs then s
  else
    let s0 := s.sgmDue.boundaryStart
    let g := s0.sgm
    let codes := g.codes bits
    if g.mode = .settling then
      (s0.onSgm (fun g => { ((g.decimate bits).keepAc codes).idleFor 1 with settle := g.settle + 1 })).boundaryEnd
    else if g.mode ≠ .normal then (s0.onSgm (Sgm.idleFor 1)).boundaryEnd
    else
      let xs := g.convertAll codes
      let s1 := s0.dcSamples xs
      let s2 := s1.onSgm (fun g => { (g.decimate bits).keepAc codes with
        block := blockSample g.acFault xs (g.reactive xs) g.block, band := g.filtered xs, sec := secondSample g xs g.sec })
      let s3 := (List.range 4).foldl (fun s k => s.pulseSample k) s2
      s3.boundaryEnd

/-- Meaning of SGM_SAMPLE (R313 to R318, R327, R347, R362, R363). -/
def execSgmSample (bits : List Nat) (s : State) : Res := .next (sgmSample bits s.start)

/-! ### Supply (R331 to R337) -/

/-- An open seal procedure is abandoned (R381): reason 1 ABANDON, 2 timeout, 3 power loss. -/
def State.abandonSeal (reason : Nat) (s : State) : State :=
  if s.mss.sealSt ≠ 1 then s
  else
    (((s.onMss (fun m => { m with sealSt := 0, staging := [], hash := [], coverSeen := false })).log 0x04
      (if reason = 1 then 0 else 2) (le 1 reason) 0 false)).mssEvent 0x04 reason

/-- The sample in which a supply loss is detected (R331): what waited for its boundary takes effect, and in normal measurement ports whose
codes are not faulted accumulate it; no pulse edge is made, and the partial block is discarded (R340). -/
def State.lossSample (bits : List Nat) (s : State) : State :=
  let s0 := s.sgmDue.boundaryStart
  if s0.sgm.mode ≠ .normal then s0
  else (s0.dcSamples (s0.sgm.convertAll (s0.sgm.codes bits))).onSgm (fun g => g.decimate bits)

/-- What a supply loss ends: the block, the pulses, and the faults of voltage channels, whose rail goes. -/
def State.supplyEnds (s : State) : State :=
  let s1 := s.onSgm (fun g => { g with
    block := Block.empty, pulses := g.pulses.map Pulse.cut
    faults := (List.range 40).map (fun c => if c < 16 ∨ 36 ≤ c then 0 else g.faults.getD c 0) }.renew)
  (List.range 4).foldl (fun t k =>
    if (s.sgm.pulses.getD k Pulse.reset).active.isSome then t.emit (.pulse k false) else t) s1

/-- The Saggar supply falls: ship state where it was ordered and authorised (R73), battery mode on a fitted cell (R331),
or the HOLDUP save and a stop (R337), for which a periodic save being written is abandoned (R340). `cell` is the voltage of the fitted
cell, `bits` the sample in which the loss is detected; its boundary ends, with a clock step that waits, before the save (R371). -/
def supplyLoss' (cell : Option Nat) (bits : List Nat) (s : State) : State :=
  if !(s.sgm.mode = .normal || s.sgm.mode = .settling) then s
  else
    let dark := cell.isNone || s.cell.cut
    let s0 := if dark then s.onSgm (fun g => { g with saving := none }) else s
    let s1 := (((s0.lossSample bits).abandonSeal 3).supplyEnds).boundaryEnd
    if dark then
      (((s1.saveSgm 2).onSgm (fun g => { g with mode := .off })).onBte (fun b => { b with
        off := none, steps := [] })).supplyMods false false [0, 0, 0, 0]
    else if s.sgm.shipOrder && s.mss.shipAuth.isSome then
      (((s1.saveSgm 1).onSgm (fun g => { g with mode := .ship, shipStart := s1.bte.lTime, batSince := some s.bte.up })).onMss (fun m => { m with
        shipAuth := none })).supplyMods false false [0, 0, 0, 0]
    else
      let k := s1.sgm.mclk
      let s2 := (s1.onSgm (fun g => { g with mode := .battery, batSince := some s.bte.up, batRead := true, cws := 0 }))
      (((s2.supplyMods false true [0, k.getD 1 0, k.getD 2 0, 0]).flagInterval 8).saveSgm 1).sgmEvent 0x01 (cell.getD 0)
        noSource

/-- Meaning of SAGGAR_SUPPLY_LOSS (R331, R337). -/
def execSaggarSupplyLoss (cell : Option Nat) (bits : List Nat) (s : State) : Res :=
  .next (supplyLoss' cell bits s.start)

/-- A channel's codes and decimators through the samples of a window, newest first. -/
def Decim.through (bits : List Nat) (d : Decim) : List (Int × Decim) :=
  bits.foldl (fun l b => (match l with | [] => d | x :: _ => x.2).sample b :: l) []

/-- The samples of channel 16 + n from the start of its clock to the end of the window, newest first: the first 40 of the 240
precede the window (Table 12-5). The fault tests start with the clock. -/
def Sgm.window (g : Sgm) (bits : List (List Nat)) (n : Nat) : List (Int × Decim) :=
  Decim.through (bits.map (fun l => l.getD n 0)) (g.decim.getD (16 + n) Decim.reset).fresh

/-- The cause a window shows on a current channel, or 0 (R316, R332). -/
def windowCause (w : List (Int × Decim)) : Nat :=
  if w.any (fun x => x.2.stuck) then 1 else if (w.take 200).any (fun x => decide (8 ≤ x.2.overs)) then 2 else 0

/-- A port's current channel in a battery-mode window: its fault is judged anew (Table 12-7), then the mean of |i| over the 200
window samples is added (R333). -/
def State.cwsPort (bits : List (List Nat)) (n : Nat) (s : State) : State :=
  let c := 16 + n
  let w := s.sgm.window bits n
  let s0 := s.onSgm (fun g => { g with decim := upd g.decim c (fun d => (w.head?.map Prod.snd).getD d) })
  if !s.sgm.evaluated c then s0
  else
    let s0 := s0.setFault c (windowCause w)
    let g := s0.sgm
    let m := rneDivN (sumN ((w.take 200).map (fun x => (convertCode g.cal c x.1).natAbs))) 200
    if g.faults.getD c 0 != 0 || decide (m < calStart g.cal c) then s0
    else
      let first := !bit g.cws n
      let s1 := s0.onSgm (fun g => { (bump (0x30 + n) m 3600 100000 g).1 with cws := g.cws ||| 2 ^ n })
      if first then s1.sgmEvent 0x03 m n else s1

/-- The window of one second in battery mode: MOD_VI and, 20 ms later, MCLK1 and MCLK2 at 1.536 MHz; the window from 40 to 140 ms;
both off again (Table 12-5). `bits` holds, for each sample from the clocks' start, the bits of channels 16 to 31. In SETTLING
rails and clocks stay on. -/
def batteryWindow (bits : List (List Nat)) (s : State) : State :=
  if s.sgm.mode = .battery ∨ (s.sgm.mode = .settling ∧ s.sgm.batSince.isSome = true) then
    let bat := s.sgm.mode = .battery
    let s0 := s.saveDone.boundaryStart
    let s1 := if bat then s0.supplyMods false true [0, 16, 16, 0] else s0
    let s2 := (List.range 16).foldl (fun s n => s.cwsPort bits n) s1
    let s3 := if bat then s2.supplyMods false false [0, 0, 0, 0] else s2
    (s3.onSgm (Sgm.idleFor 8000)).boundaryEnd
  else s

/-- Meaning of BATTERY_WINDOW (R332, R333). -/
def execBatteryWindow (bits : List (List Nat)) (s : State) : Res := .next (batteryWindow bits s.start)

/-- The cell's soc anchored again from its open-circuit voltage after at least 30 min without load above 12 mA (R406); its
table is not in the manual, so the soc is an open value. -/
def State.reanchorCell (s : State) : State :=
  if 1800 ≤ s.cell.quiet then
    let soc := Config.freeNat s.free % 10001
    { s.took with cell := { s.cell with
      q := rneDivN (soc * (s.cell.info.cap * 3600)) 10000, info := { s.cell.info with soc := soc }, fromFull := none } }
  else s

/-- Ship state ends: the ship interval is logged (R74). The cell has carried no load above 12 mA in it, and is anchored again (R406). -/
def State.leaveShip (s : State) : State :=
  let sec := (s.bte.up - s.sgm.batSince.getD s.bte.up) / 1000000
  let s := { s with cell := { s.cell with quiet := s.cell.quiet + sec } }
  ((s.log 0x17 2 (le 8 s.sgm.shipStart ++ le 8 s.bte.lTime) 0 false).onSgm (fun g => { g with
    mode := .battery, batSince := some s.bte.up, batRead := true, cws := 0, shipOrder := false })).reanchorCell

/-- The Saggar supply returns (R334): SETTLING. -/
def supplyReturn (s : State) : State :=
  let s1 := if s.sgm.mode = .ship then s.leaveShip else if s.sgm.mode = .battery then s.reanchorCell else s
  if s1.sgm.mode ≠ .battery then s1
  else (s1.onSgm (fun g => { g with mode := .settling, settle := 0 })).supplyMods true true [4, 4, 4, 4]

/-- Meaning of SAGGAR_SUPPLY_RETURN (R334, R406). -/
def execSaggarSupplyReturn (s : State) : Res := .next (supplyReturn s.start)

/-- SETTLING ends after 40 ms of discarded samples: normal measurement from the next sample boundary (R334). Before the first
block has measured the line frequency it is an open value. -/
def settlingEnd (s : State) : State :=
  if s.sgm.mode ≠ .settling ∨ s.sgm.settle < 320 then s
  else
    let s0 := if s.sgm.line = 0 then s.took.onSgm (fun g => { g with line := 250 + Config.freeNat s.free % 65286 }) else s
    let s1 := s0.onSgm (fun g => { g with
      mode := .normal, batSince := none, block := Block.empty, decim := g.decim.map Decim.fresh
      sec := Second.empty ((List.range 16).map (fun n => (g.acc.getD n 0 : Int) - g.acc.getD (16 + n) 0)) })
    match s.sgm.batSince with
    | none => s1
    | some t => s1.sgmEvent 0x02 ((s.bte.up - t) / 1000000) noSource

/-- Meaning of SETTLING_END (R334). -/
def execSettlingEnd (s : State) : Res := .next (settlingEnd s.start)

/-- The backup cell reaches its cut-off (R335, R358): the FINAL save, the log entry, and the stop. -/
def cellCutoff (mv : Nat) (s : State) : State :=
  if !(s.sgm.mode = .battery || s.sgm.mode = .ship) then s
  else
    let s1 := (s.saveSgm 3).log 0x18 2 (le 4 mv) 0 false
    let s2 := s1.onBte (fun b => { b with off := none, steps := [] })
    let s3 := { s2 with cell := { s2.cell with cut := true, cutMv := some mv } }
    ((s3.bteEvent 6 0x13 2 noSource).onSgm (fun g => { g with mode := .off })).supplyMods false false [0, 0, 0, 0]

/-- Meaning of CELL_CUTOFF (R335). -/
def execCellCutoff (mv : Nat) (s : State) : Res := .next (cellCutoff mv s.start)

/-- The newest save with a good CRC, and its sequence number (R338). -/
def Sgm.newest (g : Sgm) : Option (Nat × Save) := (nvNewest Save.bytes g.saves).map (fun x => (x.2.seq, x.2.content))

/-- The NVM save restored when the SRAM does not hold (R338). With no good slot either, what the SRAM gives is open. -/
def State.restoreSave (s : State) : State :=
  match s.sgm.newest with
  | none =>
    let f (i : Nat) : Nat := Config.freeNat (s.free + i)
    ({ s with free := s.free + 140 } : State).onSgm (fun g => { g with
      acc := (List.range 64).map f, res := (List.range 64).map (fun i => f (64 + i) % (if 0x30 ≤ i then 3600 else energyUnit))
      pulses := g.pulses.mapIdx (fun k p => { p with base := f (128 + k), sent := f (132 + k), owed := f (136 + k) }) })
  | some (seq, v) =>
    let s1 := (s.onSgm (fun g => { g with
      acc := v.acc, res := v.res
      pulses := g.pulses.mapIdx (fun k p =>
        let c := v.pulses.getD k (0, 0, 0)
        { p with base := c.1, sent := c.2.1, owed := c.2.2 }) })).onBte (fun b => { b with credit := v.credit })
    if v.kind = 0 then
      (s1.onSgm (fun g => { g with saveGap := true, gapFrom := some v.time })).sgmEvent 0x05 seq noSource
    else s1

/-- The SRAM's CRC holds (R336, R338): the SRAM was kept, and its CRC is that of its content. -/
def Sgm.sramGood (g : Sgm) (kept : Bool) : Bool :=
  kept && g.sramCrc == crc32c (sramBytes g.acc g.res (g.pulses.map Pulse.counts))

/-- BTE and MSS resume after a restart on another image: the queued carries are taken, in order (R381). -/
def State.resume (s : State) : State :=
  if !s.mss.restarting then s
  else
    let s1 := s.onBte (fun b => (b.carryQ.foldl (fun b x => b.attribute x.1 x.2) { b with carryQ := [] }))
    s1.onMss (fun m => { m with
      restarting := false
      sealSt := if m.sealSt = 2 ∧ s.sgm.calNext = none ∧ s.sgm.calAc = s.sgm.cal then 0 else m.sealSt })

/-- The Saggar powers on (R338, R355, R358, R371, R381): from SRAM or the newest save; the clock is not valid, the interval
that was open closes at the save's L-time, and a procedure that was open is abandoned. A calibration that still waited is in force, and
the image runs for good. A cover found open, which was opened while the Saggar was off, counts (R379, R472). -/
def saggarPowerOn (sramOk badA badB : Bool) (s : State) : State :=
  let endT := (s.sgm.newest.map (fun v => v.2.time)).getD timeUnknown
  let s := (s.abandonSeal 3).resume
  let s1 := s.onSgm (fun g => { g with
    mode := .settling, faults := List.replicate 40 0, block := Block.empty, batSince := none, cws := 0
    shipOrder := false, cal := g.calNext.getD g.cal, calAc := g.calNext.getD g.cal, calNext := none, freqFault := false, neutral := false, neutralRun := 0, lastEvent := none, line := 0
    settle := 0, saving := none, lastSave := none, boundAt := timeUnknown, prev := List.replicate 8 0
    prev2 := List.replicate 8 0, band := List.replicate 3 PhaseBand.reset, decim := List.replicate 40 Decim.reset
    inst := List.replicate 280 0, s0 := g.s0.map (fun x => { x with cls := 0, on := false, rejects := 0 })
    pulses := g.pulses.map (fun p => { p.cut with src := 0xFF, width := 0 }) }) |>.supplyMods true true [4, 4, 4, 4]
  let s2 := (if s.sgm.sramGood sramOk then s1 else s1.restoreSave).onSgm Sgm.renew
  let s3 := (s2.onBte (fun b => { b with off := none, steps := [] })).closeInterval endT 2
  let s4 := s3.onBte (fun b => { b with
    up := 0, closedUp := 0, smalls := [], fails := [], lastEvent := none, periodBad := true
    lwm := b.nvSpent.lwm, used := b.nvSpent.used })
  let s5 := (s4.refreshRate.openInterval timeUnknown 0).onMss (fun m => { m with
    lastEvent := none, shipAuth := none, rollback := false, sealSt := 0, imageOld := none, waiting := [], openedAt := 0
    unseen := false })
  let s6 := if s.mss.unseen then s5.coverOutside else s5
  (s6.verifyCal badA badB).bteEvent 6 0x13 1 noSource

/-- Meaning of SAGGAR_POWER_ON (R338). -/
def execSaggarPowerOn (sramOk badA badB : Bool) (s : State) : Res := .next (saggarPowerOn sramOk badA badB s.start)

/-! ### The backup cell (R405, R406) -/

/-- A level of the cell, with its hysteresis: 0 NORMAL, 1 LOW, 2 LOW_LOW. -/
def cellLevel (old soc : Nat) : Nat :=
  if soc ≤ 1000 ∨ (old = 2 ∧ soc ≤ 1100) then 2 else if soc ≤ 3000 ∨ (old ≠ 0 ∧ soc ≤ 3100) then 1 else 0

/-- The charger's state after a second: 0 OFF, 1 CC, 2 CV, 3 FULL. -/
def chargerStep (on : Bool) (was mv : Nat) (ma temp : Int) : Nat :=
  if !on || decide (temp < 0) || decide (4500 < temp) then 0
  else if was = 3 then 3
  else if was = 2 ∧ ma < 20 then 3
  else if was = 2 ∨ 4100 ≤ mv then 2
  else 1

/-- One second of the cell's estimate: current into the cell, its voltage and temperature. -/
def cellEstimate (ma : Int) (mv : Nat) (temp : Int) (s : State) : State :=
  let c := s.cell
  if !s.sgm.runs then s
  else
    let supply := s.sgm.mode ≠ .battery
    let ch := chargerStep (supply && !c.stopped) c.info.charger mv ma temp
    let full := ch = 3 ∧ c.info.charger ≠ 3
    let cutV := decide (mv < 3300) && !supply
    let ff := if full then some 0 else c.fromFull.map (fun x => ((x : Int) - ma).toNat)
    let cap := match cutV, ff with
      | true, some x => x / 3600
      | _, _ => c.info.cap
    let q := if full then cap * 3600 else (clampI ((c.q : Int) + ma) 0 (cap * 3600 : Nat)).toNat
    let soc := rneDivN (q * 10000) (cap * 3600)
    let cut := !supply && (decide (q ≤ 20 * 3600) || cutV)
    { s with cell := { c with
      info := ⟨soc, cap, cellLevel c.info.level soc, ch, ma, mv, some temp⟩
      q := q, fromFull := if cutV then none else ff, quiet := if decide (ma < -12) then 0 else c.quiet + 1
      cut := if supply then false else c.cut || cut } }

/-- Meaning of CELL_ESTIMATE (R405, R406). -/
def execCellEstimate (ma : Int) (mv : Nat) (temp : Int) (s : State) : Res := .next (cellEstimate ma mv temp s.start)

/-! ### The measurement crossing (R339, R344) -/

/-- The first faulted channel among some, with its cause. -/
def Sgm.firstFault (g : Sgm) (cs : List Nat) : Nat × Nat :=
  match cs.find? (fun c => g.faults.getD c 0 != 0) with
  | none => (0, 0)
  | some c => (c, g.faults.getD c 0)

/-- A port's entry of the summary: mean power, net energy, mean voltage, mean current. -/
def Sgm.portSummary (g : Sgm) (n : Nat) : Int × Int × Nat × Int :=
  let c := g.sec
  let net := (g.acc.getD n 0 : Int) - g.acc.getD (16 + n) 0 - c.base.getD n 0
  (satS32 (rneDiv (c.p.getD n 0) (c.n * 100000000)), satS32 (rneDiv net 1000), satU32 (rneDiv (c.v.getD n 0) c.n),
    satS32 (rneDiv (c.i.getD n 0) c.n))

/-- The summary of the second. -/
def Sgm.summary (g : Sgm) (time : Nat) : Summary :=
  let c := g.sec
  { time := time, valid := maskOf 16 (fun n => g.enabled n && !c.bad.getD n true), fault := maskOf 16 g.portFault
    ac := b2n g.acFault + 2 * b2n g.freqFault + 4 * b2n g.neutral
    causes := (List.range 16).map (fun n => g.firstFault [n, 16 + n]), acCause := g.firstFault [32, 33, 34, 36, 37, 38]
    ports := (List.range 16).map g.portSummary, gridP := satS32 (rneDiv c.gp (c.n * 100000000))
    gridQ := satS32 (rneDiv c.gq (c.qn * 100000000)), freq := g.freq }

/-- The 288 bytes of a summary (Table 12-6). -/
def Summary.bytes (m : Summary) : List Byte :=
  le 8 m.time ++ le 2 m.valid ++ le 2 m.fault ++ le 1 m.ac ++ zeros 3 ++
    (List.range 16).flatMap (fun n =>
      let p := m.ports.getD n (0, 0, 0, 0)
      leS 4 p.1 ++ leS 4 p.2.1 ++ le 4 p.2.2.1 ++ leS 4 p.2.2.2) ++
    leS 4 m.gridP ++ leS 4 m.gridQ ++ le 2 m.freq ++ zeros 6

/-- Bytes cut into frames of at most 64, at most `n` of them (R41, R339). -/
def framesOf : (n : Nat) → List Byte → List (List Byte)
  | 0, _ => []
  | n + 1, b => if b.isEmpty then [] else b.take 64 :: framesOf n (b.drop 64)

/-- A summary as it goes onto the Saggar link: 288 bytes in 5 frames. -/
def Summary.msg (m : Summary) : SumMsg := ⟨framesOf 5 m.bytes, m.causes, m.acCause⟩

/-- The end of an L-time second: the summary is sent, or dropped while the link is down. -/
def summarySend (s : State) : State :=
  if s.sgm.mode ≠ .normal then s
  else
    let m := s.sgm.summary s.bte.lTime
    let s1 := s.onSgm (fun g => { g with
      sec := Second.empty ((List.range 16).map (fun n => (g.acc.getD n 0 : Int) - g.acc.getD (16 + n) 0)) })
    if s.lnk.sgUp then s1.onLnk (fun l => { l with summary := some m.msg }) else s1

/-- Meaning of MEASUREMENT_SUMMARY_SEND (R339). -/
def execMeasurementSummarySend (s : State) : Res := .next (summarySend s.start)

/-! ### Commands (Table 12-8, R341 to R343) -/

/-- A register's entry. -/
def State.sgmEntry (s : State) (id : Nat) : List Byte :=
  let g := s.sgm
  let acc := g.acc.getD id 0
  let bad := if id < 0x20 ∨ 0x30 ≤ id then g.portFault (id % 16) else if id < 0x28 then g.acFault else false
  regEntry id (sgmUnit id) (regRoll acc) (b2n bad + 2 * b2n g.saveGap) (regVal acc)

/-- ENERGY_READ's answer: ids from the first upward, undefined ids skipped. -/
def energyRead (q : Sqe) (s : State) : SgAns × State :=
  let ids := ((List.range 256).filter (fun i => decide (bits (sd q 6) 7 0 ≤ i) && sgmId i)).take (bits (sd q 6) 15 8)
  let a := legal q (regHeader ids.length s ++ ids.flatMap s.sgmEntry) (32 + 16 * ids.length + 128) s
  (a.1, a.2.onSgm (fun g => { g with batRead := g.mode = .battery }))

/-- Meaning of ENERGY_READ (R341, R342). -/
def execEnergyRead (q : Sqe) (s : State) : Res :=
  .next (sgCmd 0xA0 q (regReadParams q (sgmId (bits (sd q 6) 7 0)) 64) (energyRead q) s.start)

/-- INSTANT_READ's answer: the last completed block. -/
def instantRead (s : State) : SgAns × State :=
  (⟨stDONE, 280, s.sgm.inst.set 10 (BitVec.ofNat 8 s.sgm.mode.code)⟩, s)

/-- Meaning of INSTANT_READ (R343). -/
def execInstantRead (q : Sqe) (s : State) : Res := .next (sgCmd 0xA1 q [(280 ≤ sd q 4, 4, 0)] instantRead s.start)

/-- The parameter checks of PULSE_CONFIG (Table 12-8). -/
def pulseParams (q : Sqe) (b : List Byte) : List (Bool × Nat × Nat) :=
  let d := sd q 6
  let input := bit d 2
  let src := bits d 15 8
  let w := sd q 7
  [(b.length == 96, 4, 0), (bits d 7 3 == 0, 6, 3), (input || src ≤ 0x27 || src == 0xFF, 6, 8),
   (!input || bits d 17 16 ≤ 2, 6, 16), (bits d 23 18 == 0, 6, 18),
   (input || (30 ≤ bits d 31 24 && bits d 31 24 ≤ 250), 6, 24), (1 ≤ w && w ≤ (if input then 100000 else 10000000), 7, 0)]

/-- PULSE_CONFIG's answer: it waits for the next sample boundary (R341). -/
def pulseConfig (q : Sqe) (b : List Byte) (s : State) : SgAns × State :=
  if !sigOk 0xA2 q false b s then (.plain stSIGNATURE_BAD 0, s)
  else
    let d := sd q 6
    let n := blockCounter b
    let c : PulseCfg := ⟨bit d 2, bits d 1 0, bits d 15 8, bits d 31 24, bits d 17 16, sd q 7, n⟩
    (.plain stDONE 0, (s.counted false n).onSgm (fun g => { g with pulseNext := g.pulseNext ++ [c] }))

/-- Meaning of PULSE_CONFIG (R328, R341). -/
def execPulseConfig (q : Sqe) (h : HostRead) (s : State) : Res :=
  .next (sgCmdH 0xA2 q h (pulseParams q) (pulseConfig q) s.start)

/-! ### Registers (Tables 12-12, 12-13) -/

/-- SGM_PULSE_n. -/
def pulseWord (p : Pulse) (acc : Nat) : Nat :=
  p.src * 2 ^ 24 + p.width * 2 ^ 16 + (if p.src = 0xFF then 0 else min 65535 (p.due acc - p.sent + p.owed))

/-- The SGM registers. -/
def readSgm (off : Nat) (s : State) : Nat :=
  let g := s.sgm
  match off with
  | 0x000 => 0x28100404
  | 0x004 => b2n g.saveGap * 2 ^ 11 + b2n g.neutral * 2 ^ 10 + b2n g.freqFault * 2 ^ 9 + b2n g.acFault * 2 ^ 8 + g.mode.code
  | 0x008 => maskOf 32 (fun c => g.faults.getD c 0 != 0)
  | 0x00C => maskOf 8 (fun c => g.faults.getD (32 + c) 0 != 0)
  | 0x010 => g.cws * 2 ^ 16 + (if g.unsampled then 0 else maskOf 16 (fun n => g.enabled n && !g.portFault n))
  | 0x014 => (match g.lastSave with
    | none => 0
    | some v => v.1 * 2 ^ 30 + min ((s.bte.up - v.2) / 1000000) (2 ^ 30 - 1))
  | 0x018 => lastEventWord g.lastEvent
  | _ =>
    if 0x020 ≤ off ∧ off < 0x030 ∧ off % 4 = 0 then
      let p := g.pulses.getD ((off - 0x020) / 4) Pulse.reset
      pulseWord p (g.acc.getD p.src 0)
    else if 0x030 ≤ off ∧ off < 0x040 ∧ off % 4 = 0 then
      let x := g.s0.getD ((off - 0x030) / 4) S0In.reset
      x.cls * 2 ^ 30 + b2n x.on * 2 ^ 29 + x.rejects
    else 0

end Sys2Proof.Machine
end

