-- ==== Sys2Proof/Machine/Boot.lean ====
section
/-! DEFINITION. Power, start-up, the watchdog, PERST# and bisque service (R34 to R61, R73, R74, R452, R491). -/

namespace Sys2Proof.Machine

open Sys2Proof

/-! ### Ready reports (R47, R49, R452) -/

/-- Held events of an enabled function fire once HQE_READY reads 1 (R514). -/
def State.fireHeld (fn : Fn) (s : State) : State :=
  if (s.fnOf fn).enable then (s.fnOf fn).held.foldl (fun s e => s.fireEvent fn (e.code / 256)) s else s

/-- The 600 s of a trial begin. -/
def Sup.beginTrial (p : Sup) : Sup := { p with trialOn := true, trialLeft := 600000000 }

/-- HQE_READY becomes 1: held events fire, and a slot on trial starts its time. -/
def State.hqeBegins (s : State) : State :=
  let s1 := (s.fireHeld .pf0).fireHeld .pf1
  if (s.sup.slotIn .trial).isSome && !s.sup.trialOn && s.sup.restart.isNone then s1.onSup Sup.beginTrial else s1

/-- An island has reported ready. -/
def State.islandIsReady (i : Nat) (s : State) : State :=
  let s1 := s.onSup (fun p => { p with
    readyMask := if bit p.readyMask i then p.readyMask else p.readyMask + 2 ^ i
    readySince := if bit p.readySince i then p.readySince else p.readySince + 2 ^ i })
  if !s.hqeReady && s1.hqeReady then s1.hqeBegins else s1

/-! ### Power (R45, R46, R54, R491) -/

/-- The Spire loses power: what it does not keep in NVM returns to its reset value (R502). -/
def Sup.spireOff (p : Sup) : Sup :=
  { Sup.reset with
    perst := p.perst, bisqueValid := p.bisqueValid, bisqueSlot := p.bisqueSlot, bisqueId := p.bisqueId
    bisqueImage := p.bisqueImage, slotA := p.slotA, slotB := p.slotB, bootSlot := p.bootSlot, fwVersion := p.fwVersion
    cfgMin := p.cfgMin, cfgMax := p.cfgMax, formats := p.formats, journal := p.journal, journalSeq := p.journalSeq
    sjSlots := p.sjSlots, impSlots := p.impSlots, retSlots := p.retSlots, resets := p.resets, saggarSerial := p.saggarSerial
    sessionCtr := p.sj.sessions }

/-- The Spire off, with the events it held. -/
def State.spireOff (s : State) : State :=
  (s.onSup Sup.spireOff).onHqe (fun h => { h with f0 := { h.f0 with held := [] }, f1 := { h.f1 with held := [] } })

/-- The supply has gone: the islands are unpowered; MAIN_12V below 10.2 V and the supercapacitor's charge are open values. -/
def State.unpowered (s : State) : State :=
  (s.onSup (fun p => { p with
    powered := 0x100, readySince := 0x100, held := false, main12v := Config.freeNat s.free % 10200
    charge := Config.freeNat (s.free + 1) % 101, holdupReady := false, reserveReady := false, darkSince := some p.spireTime, deferred := [] })).took.took

/-- MAIN_12V has failed in SHIP_PENDING (R73): the Saggar may enter ship state, at once if it runs on its cell already. -/
def State.shipOrder (s : State) : State :=
  if s.sgm.mode = .battery ∧ s.mss.shipAuth.isSome then
    ((s.onSgm (fun g => { g with mode := .ship, shipStart := s.bte.lTime, batSince := some s.bte.up, shipOrder := true })).onMss (fun m =>
      { m with shipAuth := none })).supplyMods false false [0, 0, 0, 0]
  else s.onSgm (fun g => { g with shipOrder := true })

/-- The marks as they stand. -/
def Sup.marks (p : Sup) : NvMarks :=
  ⟨p.bisqueValid, p.bisqueSlot, p.bisqueId, p.bisqueImage, p.slotA, p.slotB, p.resets, p.saggarSerial⟩

/-- The marks that NVM still holds are those in force again. -/
def Sup.unmark (p : Sup) : Sup :=
  match p.marksOld with
  | none => p
  | some m => { p with
      bisqueValid := m.bisqueValid, bisqueSlot := m.bisqueSlot, bisqueId := m.bisqueId, bisqueImage := m.bisqueImage
      slotA := m.slotA, slotB := m.slotB, resets := m.resets, saggarSerial := m.saggarSerial, marksOld := none }

/-- What waits for Spire NVM is lost (R491). -/
def State.dropWrites (s : State) : State :=
  s.onSup (fun p => { p.unmark with deferred := [], sjNext := none, impsNext := none, retNext := none }) |>.onEvr (fun e => { e with extNext := none })

/-- The session counter goes to the state journal (R140). -/
def State.journalSessions (s : State) : State := s.sjWrite (fun j => { j with sessions := s.sup.sessionCtr })

/-- The hold-up writes of Table 02-7: fault record 0x0001, the state journal with the session counter, the extremes of EVR. Before the hold-up is
available nothing is written, and what waited is lost (R491). -/
def State.holdupWrites (s : State) : State :=
  if s.sup.holdupReady then
    ((s.faultRec 8 0x0001 (s.sup.uptime / 1000000) 0 0).journalStrings.journalSessions).powerFailQuants
  else s.dropWrites

/-- A power-fail is detected (R45, R50, Table 02-7). In SHIP_PENDING the Spire does not hold up (R73): it writes nothing to NVM,
the fault record of a commit that ends here included (DEDUCED, log entry 12). -/
def powerFail (s : State) : State :=
  if s.sup.powered % 128 = 0 then s
  else
    let ship := s.sup.st = .shipPending
    let s0 := if ship then (s.onSup (fun p => { p with holdupReady := false })).dropWrites else s.holdupWrites
    let s1 := (s0.mainDown .powerFail).islandsReset.unpowered.pilotsOff
    if ship then s1.spireOff.shipOrder else s1

/-- Meaning of POWER_FAIL (R50, R54, R73). -/
def execPowerFail (s : State) : Res := .next (powerFail s.start)

/-- MAIN_12V is power-good (R45): the main die is powered and boots; ship mode ends, and with it the charger's stop (R74, R405).
The charge is an open value. -/
def powerGood (mv : Nat) (s : State) : State :=
  if s.sup.powered % 128 ≠ 0 ∨ mv ≤ 10800 then s
  else
    let alive := s.sup.st = .powerFail
    let s1 := (s.took.onSup (fun p => { p.bootTo p.bootTarget with
      powered := 0x17F, readySince := 0x100, marksOld := some p.marks, main12v := mv, charge := Config.freeNat s.free % 101, lastReset := if alive then 3 else 0
      resets := (p.resets + 1) % 2 ^ 32, noFirmware := false, held := false, uptime := 0
      outage := match p.darkSince with
        | some t => if p.stime.isSome then p.spireTime - t else 0
        | none => 0
      darkSince := none })).setState .boot 0
    let s2 := s1.onTmf (fun t => Tmf.reset s1.sup.resets t.phys t.oos t.sparesFree)
    let s3 := if s2.sgm.mode = .ship then s2.leaveShip else s2.onSgm (fun g => { g with shipOrder := false })
    { s3.pilotsOn with cell := { s3.cell with stopped := false } }

/-- Meaning of POWER_GOOD (R45, R46, R74). -/
def execPowerGood (mv : Nat) (s : State) : Res := .next (powerGood mv s.start)

/-- The hold-up is available: what waited for Spire NVM is written, and the commands that waited complete (R491). -/
def holdupReady (s : State) : State :=
  if s.sup.powered % 128 = 0 ∨ s.sup.holdupReady then s
  else
    let wait := s.sup.sjWait
    let s1 := s.onSup (fun p =>
      let p1 := p.deferred.foldl (fun p r => p.journalPut r) p
      let p2 := match p1.sjNext with
        | none => p1
        | some j => p1.sjPut j
      let p3 := match p2.impsNext with
        | none => p2
        | some l => p2.impPut l
      let p4 := match p3.retNext with
        | none => p3
        | some m => p3.retPut m
      { p4 with holdupReady := true, deferred := [], sjWait := [], marksOld := none })
    let s2 := s1.onEvr (fun e => { e with extSaved := e.extNext.getD e.extSaved, extNext := none })
    wait.foldl (fun s c => s.complete .pf0 c.1 c.2 stDONE 0) s2

/-- Meaning of HOLDUP_READY (R491). -/
def execHoldupReady (s : State) : Res := .next (holdupReady s.start)

/-- The 72 h reserve is available. -/
def reserveReady (s : State) : State :=
  if s.sup.powered % 128 = 0 then s else s.onSup (fun p => { p with reserveReady := true })

/-- Meaning of RESERVE_READY (R491). -/
def execReserveReady (s : State) : Res := .next (reserveReady s.start)

/-- The supercapacitor has run out while MAIN_12V is absent: S-time becomes unknown (R54). -/
def holdupRunOut (s : State) : State := if s.sup.powered % 128 ≠ 0 then s else s.spireOff

/-- Meaning of HOLDUP_RUN_OUT (R54). -/
def execHoldupRunOut (s : State) : Res := .next (holdupRunOut s.start)

/-! ### Start-up (Table 02-5, R48) -/

/-- The tile store is ready; EVR begins to load its areas (R438). -/
def tileStoreReady (s : State) : State := if s.mainRuns then s.onTmf (fun t => { t with ready := true }) else s

/-- Meaning of TILE_STORE_READY (R438). -/
def execTileStoreReady (s : State) : Res := .next (tileStoreReady s.start)

/-- The Spire leaves one slot and boots the other: its record and event (R48). -/
def State.fallBack (left entered : Nat) (s : State) : State :=
  ((s.onSup (fun p => { (p.mark entered .active) with bootSlot := entered, wdTimes := [], wdPast := [] })).faultRec 8 0x0004 left entered
    0).supEvent 71 0x04 entered noSource

/-- The slot being booted has been read and checked (R48): the islands run it; one that fails is INVALID, and the other is
booted, or the main die stays in reset. -/
def firmwareReadDone (ok : Bool) (s : State) : State :=
  if !s.mainRuns ∨ s.sup.st ≠ .boot then s
  else
    let i := s.sup.bootSlot
    if ok then s.onSup (Sup.runs i)
    else
      let s1 := s.onSup (Sup.onSlot i (fun _ => Slot.empty))
      if (s1.sup.slot (1 - i)).st ≠ .invalid then s1.fallBack i (1 - i)
      else (s1.onSup (fun p => { p with held := true, noFirmware := true })).faultRec 8 0x000A s1.sup.slotA.st.code
        s1.sup.slotB.st.code 0

/-- Meaning of FIRMWARE_READ_DONE (R48). -/
def execFirmwareReadDone (ok : Bool) (s : State) : Res := .next (firmwareReadDone ok s.start)

/-- PCIe link training completes: HI answers configuration requests (R47). -/
def pcieLinkUp (s : State) : State :=
  if s.mainRuns && !s.sup.perst then s.onSup (fun p => { p with pcieUp := true }) else s

/-- Meaning of PCIE_LINK_UP (R47). -/
def execPcieLinkUp (s : State) : Res := .next (pcieLinkUp s.start)

/-! ### Bisque service (R46, R59, R67) -/

/-- The configuration of the stored bisque image. -/
def Sup.bisqueCfg (p : Sup) : Cfg := parseCfg true 0 p.bisqueId p.bisqueImage

/-- The stored bisque image comes into force; its coefficient sets fill their tiles (R59, R67, R136). -/
def State.enterBisque (s : State) : State :=
  ((recsOf s.sup.bisqueImage .coeffSet).foldl (fun s x => s.onTmf (Tmf.putCoeff x.1 x.2)) s).putInForce s.sup.bisqueCfg true false

/-- The bisque image has been read and checked: BISQUE, or WAIT_HOST with reason NO_BISQUE. `bad`: the first tile that
fails. -/
def bisqueEntry (bad : Option Nat) (s : State) : State :=
  if s.sup.st ≠ .boot ∨ !s.mainRuns ∨ !s.islandsUp then s
  else if !s.sup.bisqueValid then s.enterWaitHost 0x01
  else match bad with
    | some t => ((s.faultRec 8 0x0006 s.sup.bisqueSlot t 0).onSup (fun p => { p with
        bisqueValid := false, bisqueId := 0, bisqueImage := [] })).enterWaitHost 0x01
    | none => s.enterBisque

/-- Meaning of BISQUE_ENTRY (R46, R59). -/
def execBisqueEntry (bad : Option Nat) (s : State) : Res := .next (bisqueEntry bad s.start)

/-- Meaning of BISQUE_ENTER (R67). -/
def execBisqueEnter (q : Sqe) (s : State) : Res :=
  .next (hostCmd 0x92 q [] (fun s => s.enterBisque.done q stDONE 0) s.start)

/-! ### The watchdog (R48, R49, R452) -/

/-- The watchdog resets on the active slot within the 10 min before a time (R48). -/
def Sup.wdCount (now : Nat) (p : Sup) : Nat := ((p.wdTimes ++ p.wdPast).filter (fun t => decide (now ≤ t + 600000000))).length

/-- Automatic rollback (R452): the FALLBACK slot is active and boots at once; of a live switch not yet on trial, the active
one. -/
def State.autoRollback (s : State) : State :=
  let entered := ((s.sup.slotIn .fallback).or (s.sup.slotIn .active)).getD s.sup.bootSlot
  let left := 1 - entered
  let s1 := (s.onSup (fun p =>
    let p1 := if (p.slot left).st = .trial then p.mark left .inactive else p
    { (p1.mark entered .active) with wdTimes := [], wdPast := [], bootSlot := entered })).faultRec 8 0x0004 left entered 0
  s1.supEvent 71 0x24 (s1.sup.slot entered).version noSource

/-- The third watchdog reset within 10 min on one slot: the other slot, or 60 s in reset (R48). -/
def State.thirdReset (i : Nat) (s : State) : State :=
  if (s.sup.slot (1 - i)).st ≠ .invalid then (s.onSup (Sup.mark i .inactive)).fallBack i (1 - i)
  else s.onSup (fun p => { p with held := true, wdPast := (p.wdTimes ++ p.wdPast).filter (fun t => decide (p.spireTime ≤ t + 600000000)), wdTimes := [] })

/-- An island misses its report: the main die is reset. -/
def watchdogMiss (i : Nat) (s : State) : State :=
  if !s.mainRuns ∨ 7 ≤ i ∨ (i = 0 ∧ s.sup.perst) then s
  else
    let slot := s.sup.bootSlot
    let rollback := (s.sup.slotIn .trial).isSome || s.sup.live.isSome
    let now := s.sup.spireTime
    let times := now :: s.sup.wdTimes.filter (fun t => decide (now ≤ t + 600000000))
    let s1 := (s.onSup (fun p => { p with wdTimes := times })).mainReset (if rollback then 5 else 1)
    let s2 := (s1.faultRec 8 0x0002 i slot 0).supEvent 65 0x42 i noSource
    if rollback then s2.autoRollback
    else if 3 ≤ times.length then s2.thirdReset slot
    else s2

/-- Meaning of WATCHDOG_MISS (R48, R49, R452). -/
def execWatchdogMiss (island : Nat) (s : State) : Res := .next (watchdogMiss island s.start)

/-- The 60 s of a hold end: fault record 0x0009 with the watchdog resets of the last 10 min, then the active slot boots again
(R48, R57). -/
def holdEnd (s : State) : State :=
  if s.sup.held && !s.sup.noFirmware then
    (s.faultRec 8 0x0009 s.sup.bootSlot (s.sup.wdCount s.sup.spireTime) 0).onSup (fun p => { p with held := false })
  else s

/-- Meaning of MAIN_DIE_HOLD_END (R48). -/
def execMainDieHoldEnd (s : State) : Res := .next (holdEnd s.start)

/-! ### PERST# (R35, R49, R100, R135) -/

/-- PERST# resets HI alone: the rings, the tags and HI's registers go; host tiles and stream channels end; a commit in
progress is aborted (Table 02-11). A live switch that was changing HI's bank does so again (Table 18-4). -/
def perstAssert (s : State) : State :=
  if s.sup.perst then s
  else
    let s1 := s.onSup (fun p => { p with
      perst := true, pcieUp := false, readyMask := if bit p.readyMask 0 then p.readyMask - 1 else p.readyMask
      live := p.live.map (fun l => if l.waiting = some 0 then { l with waiting := none, todo := 0 :: l.todo } else l)
      banks := if p.live.any (fun l => l.waiting = some 0) then upd p.banks 0 Bank.swap else p.banks })
    let held0 := s.hqe.f0.restart 64 72
    let held1 := s.hqe.f1.restart 4 8
    let s2 := ((s1.endRings .pf0).endRings .pf1).onHqe (fun h => { h with
      f0 := held0, f1 := held1, tags := [], readWait := [], lastPf1 := true, extTag := false, maxRead := 512, maxPayload := 128, cplTimeout := 0 })
    let s3 := match s2.sup.commit with
      | none => s2
      | some c => s2.failCommit c 0x0D
    s3.endHostTiles

/-- Meaning of PERST_ASSERT (R35, R135). -/
def execPerstAssert (s : State) : Res := .next (perstAssert s.start)

/-- PERST# is released: HI restarts and reports ready; while the main die still starts, it does so with it. -/
def perstDeassert (s : State) : State :=
  if !s.sup.perst then s
  else
    let s1 := s.onSup (fun p => { p with perst := false })
    if s1.mainRuns && s1.islandsUp then s1.islandIsReady 0 else s1

/-- Meaning of PERST_DEASSERT (R49). -/
def execPerstDeassert (s : State) : Res := .next (perstDeassert s.start)

end Sys2Proof.Machine
end

