-- ==== Sys2Proof/Machine/Link.lean ====
section
/-! DEFINITION. The Saggar link: frames, loss, probes and recovery (R41 to R43, R101, R165, R386). -/

namespace Sys2Proof.Machine

open Sys2Proof

/-- One of two directions: first to the Saggar, second from it. -/
def dirOf {α : Type} (toSg : Bool) (x : α × α) : α := if toSg then x.1 else x.2

/-- One of two directions changed. -/
def setDir {α : Type} (toSg : Bool) (v : α) (x : α × α) : α × α := if toSg then (v, x.2) else (x.1, v)

/-- Both ends of the link are alive. -/
def State.linkAlive (s : State) : Bool := s.mainRuns && s.sgm.runs

/-- Every tunnelled command completes: the link has gone down, the outcome is unknown (R101). -/
def State.tunnelLost (s : State) : State :=
  (s.hqe.fwd.filter Fwd.tunnelled).foldl (fun s f => s.complete .pf1 f.sq f.cid stSAGGAR_UNREACHABLE 1)
    ((s.onHqe (fun h => { h with answers := [] })).onMss (fun m => { m with waiting := [] }))

/-- The tokens the Saggar has not received are answered with reason 0xF1 at their nodes (R422). -/
def State.tokensUnsent (s : State) : State :=
  (s.lnk.toSg.filterMap (fun m => m.1.tokenNode)).foldl (fun s a => s.tokenReject a 0xF1)
    (s.onLnk (fun l => { l with toSg := l.toSg.filter (fun m => m.1.tokenNode.isNone) }))

/-- The link is declared down, at both ends (R41): event, fault record, the tunnelled commands' end; each end holds what the
other has not received (R19, R165). -/
def State.linkFails (toSg : Bool) (seq : Nat) (s : State) : State :=
  let d := b2n (!toSg)
  let s1 := s.onLnk (fun l => { l with
    up := false, sgUp := false, fails := (0, 0), runs := (0, 0), acked := (false, false), summary := none })
  ((((s1.supEvent 65 0x40 d noSource).faultRec 8 0x0007 d seq 0)).tunnelLost).unsent.tokensUnsent

/-- The conditions under which the end that receives a direction's frames declares the link up: eight good frames in a row, and
its own latest probe acknowledged (R42). -/
def SgLink.recovered (toSg : Bool) (l : SgLink) : Bool := decide (8 ≤ dirOf toSg l.runs) && dirOf toSg l.acked

/-- The end that receives a direction's frames is up. -/
def SgLink.endUp (toSg : Bool) (l : SgLink) : Bool := if toSg then l.sgUp else l.up

/-- One end declares the link up (R42): at the main die the event and SPA's held messages; the held PF1 events follow once the
path is whole and the Saggar's held session-crossing messages have gone. -/
def State.endRecovers (toSg : Bool) (s : State) : State :=
  let s1 := s.onLnk (fun l => { l with
    up := l.up || !toSg, sgUp := l.sgUp || toSg, fails := setDir toSg 0 l.fails })
  (if toSg then s1 else (s1.supEvent 65 0x41 0 noSource).flushOutbox).flushPf1

/-- The message at the front of a direction arrives. -/
def SgLink.deliver (toSg : Bool) (l : SgLink) : SgLink :=
  if toSg then { l with inSg := l.inSg ++ (l.toSg.take 1).map (fun m => (m.1, m.2.1)), toSg := l.toSg.drop 1 }
  else { l with inSt := l.inSt ++ l.toSt.take 1, toSt := l.toSt.drop 1 }

/-- A message that answers a relayed token. -/
def CrossMsg.answer : CrossMsg → Option (Nat × Nat)
  | .tokenAnswer a d => some (a, d)
  | _ => none

/-- BTE's answers to relayed tokens go on to their nodes (R365, R422). -/
def State.takeAnswers (s : State) : State :=
  (s.lnk.inSt.filterMap (fun m => m.1.answer)).foldl (fun s x => s.tokenAnswered x.1 x.2)
    (s.onLnk (fun l => { l with inSt := l.inSt.filter (fun m => m.1.answer.isNone) }))

/-- Another Saggar has been fitted (R386). Each unit keeps its own counter, log, records and registers: one that was fitted before comes
back with them and has powered on, any other is as manufactured. What the old one had sent is gone with it. -/
def State.fitSaggar (serial : BitVec 64) (s : State) : State :=
  if s.mss.serial = serial then s
  else
    let other := s.shelf.filter (fun x => x.mss.serial != serial)
    let s1 : State := { s with
      shelf := ⟨s.sgm, s.bte, s.mss, s.cell⟩ :: other
      lnk := { s.lnk with inSg := [], toSt := [], summary := none, heldPf1 := [] }
      hqe := { s.hqe with answers := [] } }
    match s.shelf.find? (fun x => x.mss.serial == serial) with
    | none => { s1 with sgm := Sgm.reset, bte := Bte.reset, mss := State.newMss serial, cell := Cell.reset }
    | some x => saggarPowerOn true false false { s1 with sgm := x.sgm, bte := x.bte, mss := x.mss, cell := x.cell }

/-- The main die meets a serial number (R386): one other than the last it saw brings the record, the event and a RESYNC. The
record's third argument is not stated: an open value. -/
def State.meetSerial (serial : BitVec 64) (s : State) : State :=
  let old := s.sup.saggarSerial
  let n := serial.toNat
  let s0 := s.fitSaggar serial
  if old = n then s0
  else
    let s1 := s0.onSup (fun p => { p with saggarSerial := n })
    if old = 0 then s1
    else
      let s2 := (s1.took.faultRec 8 0x0902 (old % 2 ^ 32) (n % 2 ^ 32) (Config.freeNat s1.free % 2 ^ 32)).supEvent 65 0x32 0 noSource
      (s2.onSup (fun p => { p with replaced := true })).sendCross (.resync 0)

/-- The header's four bytes (R41). -/
def frameHeader (f : SaggarFrame) : List Byte := le 1 f.type ++ le 1 f.length ++ le 2 f.seq

/-- A frame passes its check: 0 to 64 payload bytes as its header says, and the CRC-16-CCITT over both (R41). -/
def frameGood (f : SaggarFrame) : Bool :=
  f.payload.length == f.length && decide (f.length ≤ 64) && f.crc == crc16 (frameHeader f ++ f.payload)

/-- A frame that fails its check ends the run of good frames at a receiving end that is down. While the link is up at an end,
the frame is sent again, and the third failure of one frame takes the link down (R41, R42). -/
def State.badFrame (f : SaggarFrame) (s : State) : State :=
  let s0 := if s.lnk.endUp f.toSaggar then s else s.onLnk (fun l => { l with runs := setDir f.toSaggar 0 l.runs })
  if !s.lnk.up && !s.lnk.sgUp then s0
  else
    let n := if dirOf f.toSaggar s.lnk.seqs = f.seq then dirOf f.toSaggar s.lnk.fails + 1 else 1
    let s1 := s0.onLnk (fun l => { l with
      fails := setDir f.toSaggar n l.fails, seqs := setDir f.toSaggar f.seq l.seqs })
    if 3 ≤ n then s1.linkFails f.toSaggar f.seq else s1

/-- A good frame. While the end that receives it is down it is one more of a run, and perhaps acknowledges that end's latest
probe, and that end may come up. A session-crossing frame of an end that is up delivers its message. -/
def State.goodFrame (f : SaggarFrame) (s : State) : State :=
  let s0 := match f.serial, f.toSaggar with
    | some n, false => s.meetSerial n
    | _, _ => s
  let s1 := s0.onLnk (fun l => { l with fails := setDir f.toSaggar 0 l.fails, seqs := setDir f.toSaggar f.seq l.seqs })
  let s2 := if s1.lnk.endUp f.toSaggar then s1
    else
      let s2 := s1.onLnk (fun l => { l with
        runs := setDir f.toSaggar (dirOf f.toSaggar l.runs + 1) l.runs
        acked := setDir f.toSaggar (dirOf f.toSaggar l.acked || f.ackProbe) l.acked })
      if s2.lnk.recovered f.toSaggar then s2.endRecovers f.toSaggar else s2
  if f.type = 1 ∧ s1.lnk.endUp (!f.toSaggar) = true then (s2.onLnk (SgLink.deliver f.toSaggar)).takeAnswers.flushPf1 else s2

/-- A frame of the Saggar link arrives whole (R41, R42). -/
def linkFrame (f : SaggarFrame) (s : State) : State :=
  if !s.linkAlive then s else if frameGood f then s.goodFrame f else s.badFrame f

/-- Meaning of SAGGAR_LINK_FRAME (R41, R42, R386). -/
def execSaggarLinkFrame (f : SaggarFrame) (s : State) : Res := .next (linkFrame f s.start)

/-- An end that is down sends a new probe, which nobody has acknowledged yet (R42). -/
def linkProbe (s : State) : State :=
  if !s.linkAlive then s
  else s.onLnk (fun l => { l with
    probes := (l.probes.1 + b2n (!l.up), l.probes.2 + b2n (!l.sgUp))
    acked := (l.acked.1 && l.sgUp, l.acked.2 && l.up) })

/-- Meaning of SAGGAR_LINK_PROBE (R42). -/
def execSaggarLinkProbe (s : State) : Res := .next (linkProbe s.start)

/-! ### The other classes of frame (R43, R77, R16) -/

/-- The Saggar's answer is written to the host buffer, and the command completes (R77, R90). -/
def State.takeAnswer (s : State) : State :=
  match s.hqe.answers with
  | [] => s
  | a :: rest =>
    let s := s.onHqe (fun h => { h with answers := rest })
    match takeFirst (Fwd.is .pf1 a.sq a.cid) s.hqe.fwd with
    | none => s
    | some (f, _) =>
      if f.orphan then s.complete .pf1 a.sq a.cid a.status a.result
      else (s.dma .pf1 a.addr a.buf).complete .pf1 a.sq a.cid a.status a.result

/-- While the link is up, the session-crossing messages on their way to the main die arrive, and the PF1 events behind them: they go
before every other frame (R43). -/
def State.sessionArrives (s : State) : State :=
  if s.lnk.path then (s.onLnk (SgLink.sessionFirst false)).takeAnswers.flushPf1 else s

/-- An answer arrives while the link is up, behind the session-crossing messages on their way. -/
def tunnelAnswer (s : State) : State := if s.lnk.path then s.sessionArrives.takeAnswer else s

/-- Meaning of TUNNEL_ANSWER (R77). -/
def execTunnelAnswer (s : State) : Res := .next (tunnelAnswer s.start)

/-! ### The measurement crossing -/

/-- A fault record with time base L-time (R56). -/
def State.faultRecL (time island code a0 a1 a2 : Nat) (s : State) : State :=
  let r : FaultRec := ⟨time, 0, island, true, code, a0, a1, a2⟩
  s.onSup (fun p => if p.holdupReady then p.journalPut r else { p with deferred := p.deferred ++ [r] })

/-- A METER_FAULT or AC_FAULT that changed, posted by the site island. -/
def State.meterEvent (sub src port : Nat) (was now : Bool) (oldC newC : Nat × Nat) (time : Nat) (s : State) : State :=
  if was = now then s
  else
    let c := if now then newC else oldC
    let s1 := s.postEvent .pf0 65 sub (c.1 * 256 + c.2 * 2 + b2n now) src
    if now then s1.faultRecL time 4 0x0901 c.1 c.2 port else s1

/-- A summary as its frames spell it (Table 12-6). -/
def SumMsg.read (m : SumMsg) : Summary :=
  let b := m.frames.flatten
  { time := u b 0 8, valid := u b 8 2, fault := u b 10 2, ac := u b 12 1, causes := m.causes, acCause := m.acCause
    ports := (List.range 16).map (fun n =>
      (sgn b (16 + 16 * n) 4, sgn b (20 + 16 * n) 4, u b (24 + 16 * n) 4, sgn b (28 + 16 * n) 4))
    gridP := sgn b 272 4, gridQ := sgn b 276 4, freq := u b 280 2 }

/-- A summary reaches SPA and EVR (R16): faults that changed are posted on PF0. -/
def State.takeSummary (s : State) : State :=
  match s.lnk.summary with
  | none => s
  | some r =>
    let m := r.read
    if !s.lnk.up || !s.siteUp then s.onLnk (fun l => { l with summary := none })
    else
      let o := s.lnk.meter
      let was (n : Nat) : Bool := match o with | none => false | some x => bit x.fault n
      let cause (n : Nat) : Nat × Nat := match o with | none => (0, 0) | some x => x.causes.getD n (0, 0)
      let wasAc : Bool := match o with | none => false | some x => bit x.ac 0
      let acCause : Nat × Nat := match o with | none => (0, 0) | some x => x.acCause
      let s1 := s.onLnk (fun l => { l with summary := none, meter := some m, meterAt := s.sup.uptime })
      let s2 := (List.range 16).foldl (fun s n =>
        s.meterEvent 0x30 n n (was n) (bit m.fault n) (cause n) (m.causes.getD n (0, 0)) m.time) s1
      s2.meterEvent 0x31 noSource 0xFFFF wasAc (bit m.ac 0) acCause m.acCause m.time

/-- What a frame of the measurement crossing waits for: the session-crossing messages and the tunnel's answers on their way
(R43). -/
def State.crossingsFirst (s : State) : State :=
  if s.lnk.path then s.hqe.answers.foldl (fun s _ => s.takeAnswer) s.sessionArrives else s

/-- A summary arrives. -/
def summaryArrives (s : State) : State := if s.lnk.summary.isNone then s else s.crossingsFirst.takeSummary

/-- Meaning of MEASUREMENT_SUMMARY (R16, R344). -/
def execMeasurementSummary (s : State) : Res := .next (summaryArrives s.start)

/-! ### The backup cell's state (R406) -/

/-- The cell's state arrives at BSE: a level that changed is posted, and a cut-off that has not been. -/
def State.takeCell (s : State) : State :=
  if !s.siteUp || !s.lnk.up then s
  else
    let old := s.bse.cell.level
    let c := s.cell.info
    let s1 := s.onBse (fun b => { b with cell := c, stale := false })
    let s2 := if c.level ≠ old then s1.bseEvent 32 0x01 (old * 256 + c.level) else s1
    match s.cell.cutMv with
    | none => s2
    | some mv => { (s2.bseEvent 32 0x06 mv).faultRec 4 0x0A03 mv 0 0 with cell := { s.cell with cutMv := none } }

/-- The cell's state arrives, at the measurement crossing's priority (R43, R406). -/
def cellMessage (s : State) : State := s.crossingsFirst.takeCell

/-- Meaning of CELL_STATE_MESSAGE (R406). -/
def execCellStateMessage (s : State) : Res := .next (cellMessage s.start)

end Sys2Proof.Machine
end

