-- ==== Sys2Proof/Machine/Mss.lean ====
section
/-! DEFINITION. Seal and signing (R374 to R388): the key export, records and log, the seal procedure, the cover, the ship
authorisation, the software identification, the legal display (R484) and the optical head (R485). -/

namespace Sys2Proof.Machine

open Sys2Proof

/-! ### Reads (R375, R378, R382, R385, R387) -/

/-- KEY_EXPORT's answer (R375). -/
def keyExport (s : State) : SgAns × State :=
  let n := s.mss.serial
  (⟨stDONE, 136, le 8 n.toNat ++ padTo 64 (Config.recordPublicKey n) ++ padTo 64 (Config.manufacturingSignature n)⟩, s)

/-- The parameter checks of KEY_EXPORT. -/
def keyExportParams (q : Sqe) : List (Bool × Nat × Nat) := [(136 ≤ sd q 4, 4, 0)]

/-- Meaning of KEY_EXPORT (R375, R387). -/
def execKeyExport (q : Sqe) (s : State) : Res := .next (sgCmd 0xC0 q (keyExportParams q) keyExport s.start)

/-- The first number of a list of numbered entries, 0 for none. -/
def firstSeq (l : List (Nat × List Byte)) : Nat := (l.head?.map Prod.fst).getD 0

/-- The last number of a list of numbered entries, 0 for none. -/
def lastSeq (l : List (Nat × List Byte)) : Nat := (l.getLast?.map Prod.fst).getD 0

/-- A read of numbered entries: the 32-byte header, the entries from a number on, the trailer. -/
def storeRead (q : Sqe) (first count newest : Nat) (store : List (Nat × List Byte)) (s : State) : SgAns × State :=
  let l := fromSeq first count store
  let head := le 8 s.bte.lTime ++ le 4 (firstSeq l) ++ le 4 l.length ++ le 4 (firstSeq store) ++ le 4 newest ++ zeros 8
  legal q (head ++ l.flatMap Prod.snd) l.length s

/-- RECORD_READ's answer. -/
def recordRead (q : Sqe) (s : State) : SgAns × State :=
  let store := if bits (sd q 7) 1 0 = 1 then s.mss.sessions else s.mss.periods
  storeRead q (sd q 6) (bits (sd q 7) 15 8) (lastSeq store) store s

/-- The parameter checks of RECORD_READ. -/
def recordReadParams (q : Sqe) : List (Bool × Nat × Nat) :=
  let k := bits (sd q 7) 1 0
  let n := bits (sd q 7) 15 8
  [(32 + 1472 * n + 128 ≤ sd q 4, 4, 0), (k = 1 || k = 2, 7, 0), (1 ≤ n && n ≤ 64, 7, 8)]

/-- Meaning of RECORD_READ (R378, R387). -/
def execRecordRead (q : Sqe) (s : State) : Res := .next (sgCmd 0xC1 q (recordReadParams q) (recordRead q) s.start)

/-- The log's two areas as one list by rising number. -/
def Mss.entries (m : Mss) : List (Nat × List Byte) := sortBy (fun a b => decide (a.1 < b.1)) (m.prot ++ m.ring)

/-- LOG_READ's answer. -/
def logRead (q : Sqe) (s : State) : SgAns × State :=
  storeRead q (sd q 6) (bits (sd q 7) 9 0) (lastSeq s.mss.entries) s.mss.entries s

/-- The parameter checks of LOG_READ. -/
def logReadParams (q : Sqe) : List (Bool × Nat × Nat) :=
  let n := bits (sd q 7) 9 0
  [(32 + 64 * n + 128 ≤ sd q 4, 4, 0), (1 ≤ n && n ≤ 512, 7, 0)]

/-- Meaning of LOG_READ (R382, R387). -/
def execLogRead (q : Sqe) (s : State) : Res := .next (sgCmd 0xC2 q (logReadParams q) (logRead q) s.start)

/-- IDENT_READ's answer (R385). -/
def identRead (q : Sqe) (s : State) : SgAns × State :=
  let m := s.mss
  legal q (padTo 32 m.image.1 ++ le 4 m.swShort ++ le 4 m.sealCount ++ le 8 m.serial.toNat ++ le 4 m.image.2 ++
    padTo 32 (sha256 s.sgm.cal) ++ zeros 28) 240 s

/-- The parameter checks of IDENT_READ. -/
def identReadParams (q : Sqe) : List (Bool × Nat × Nat) := [(240 ≤ sd q 4, 4, 0)]

/-- Meaning of IDENT_READ (R385, R387). -/
def execIdentRead (q : Sqe) (s : State) : Res := .next (sgCmd 0xC5 q (identReadParams q) (identRead q) s.start)

/-! ### The seal procedure (R380, R381) -/

/-- The package items of a staged byte string: kind and data; none when a header or length is not well formed. -/
def packageItems : (fuel : Nat) → List Byte → Option (List (Nat × List Byte))
  | 0, _ => none
  | k + 1, b =>
    if b.isEmpty then some []
    else
      let n := u b 4 4
      if b.length < 16 + n ∨ nonzero b 1 3 = true ∨ nonzero b 8 8 = true then none
      else (packageItems k (b.drop (16 + n))).map (fun l => (u b 0 1, (b.drop 16).take n) :: l)

/-- A calibration set is well formed: its length, and its reserved and unused bytes 0 (R315, Table 12-2). -/
def calibrationOk (b : List Byte) : Bool :=
  b.length == 656 && !nonzero b 642 14 &&
    (List.range 40).all (fun c => !nonzero b (16 * c + 10) 2 && ((32 ≤ c && c < 36) || !nonzero b (16 * c + 8) 2) &&
      ((16 ≤ c && c < 36) || !nonzero b (16 * c + 12) 4))

/-- The key of a wrapped key item, of the length its kind has. -/
def itemKey (serial : BitVec 64) (kind : Nat) (b : List Byte) : Option (List Byte) :=
  match unwrapKey serial b with
  | none => none
  | some k => if b.length = k.length + 8 ∧ k.length = (if kind = 4 then 16 else 64) then some k else none

/-- An item is well formed, and an image verifies. -/
def itemOk (serial : BitVec 64) (i : Nat × List Byte) : Bool :=
  if i.1 = 1 then calibrationOk i.2
  else if i.1 = 2 then Config.saggarImageVerifies i.2
  else if 3 ≤ i.1 ∧ i.1 ≤ 5 then (itemKey serial i.1 i.2).isSome
  else false

/-- The last accepted counters of keys not installed, with that of a key that is replaced. -/
def Mss.past (old : Option (List Byte)) (ctr : Nat) (m : Mss) : List (List Byte × Nat) :=
  match old with
  | none => m.pastCtrs
  | some k => (k, ctr) :: m.pastCtrs

/-- The last counter accepted under a key among them; 0 where none was. -/
def lastCtr (k : List Byte) (l : List (List Byte × Nat)) : Nat := ((l.find? (fun x => x.1 == k)).map Prod.snd).getD 0

/-- A key replaced. The last counter accepted under each key holds, also when the key returns (R376). -/
def Mss.setKey (kind : Nat) (k : List Byte) (m : Mss) : Mss :=
  if kind = 3 then
    let l := m.past m.oper m.ctrOper
    { m with oper := some k, ctrOper := lastCtr k l, pastCtrs := l }
  else if kind = 4 then { m with token := some k }
  else
    let l := m.past m.auth m.ctrAuth
    { m with auth := some k, ctrAuth := lastCtr k l, pastCtrs := l }

/-- An item applied (R381, steps 1 and 2); an image goes to the inactive slot, kept in the pair's second part. -/
def applyItem (i : Nat × List Byte) (x : State × Option (List Byte)) : State × Option (List Byte) :=
  if i.1 = 1 then (x.1.onSgm (fun g => { g with calNext := some i.2 }), x.2)
  else if i.1 = 2 then (x.1, some i.2)
  else match itemKey x.1.mss.serial i.1 i.2 with
    | none => x
    | some k => (x.1.onMss (Mss.setKey i.1 k), x.2)

/-- An item's log entry (Table 14-7). -/
def logItem (i : Nat × List Byte) (s : State) : State :=
  if i.1 = 1 then s.log 0x05 0 (sha256 i.2) 0 false
  else if i.1 = 2 then s.log 0x06 0 (sha256 i.2) 0 false
  else s.log 0x07 0 (le 1 i.1 ++ padTo 16 (sha256 ((itemKey s.mss.serial i.1 i.2).getD []))) 0 false

/-- A well-formed package is applied, item by item; the procedure closes. -/
def State.applyPackage (items : List (Nat × List Byte)) (s : State) : State :=
  let old := s.mss.swShort
  let (s1, img) := items.foldl (fun x i => applyItem i x) (s, none)
  let digest := img.map sha256
  let new := match digest with | none => old | some d => leVal (padTo 4 d).reverse
  let s2 := items.foldl (fun s i => logItem i s) s1
  let s3 := s2.log 0x03 0 (le 4 old ++ le 4 new ++ le 4 items.length) 0 false
  let cal := items.any (fun i => i.1 == 1)
  let s4 := s3.onMss (fun m => { m with
    tamper := false, staging := [], hash := [], coverSeen := false, sealSt := if cal || img.isSome then 2 else 0
    sealAt := s.bte.up })
  let s5 := match digest with
    | none => s4
    | some d => s4.onMss (fun m => { m with
        imageOld := some m.image, image := (d, (Config.saggarImageVersion d).toNat), restarting := true, rollback := false, imageAt := s.bte.up })
  s5.mssEvent 0x03 new

/-- OPEN: one procedure at a time, and more than 16 protected entries free (R382). -/
def sealOpen (q : Sqe) (b : List Byte) (s : State) : SgAns × State :=
  if s.mss.sealSt ≠ 0 ∨ 1024 ≤ s.mss.prot.length + 16 then (.plain stBAD_STATE 0, s)
  else if !sigOk 0xC3 q true b s then (.plain stSIGNATURE_BAD 0, s)
  else
    let n := blockCounter b
    let s1 := (s.counted true n).onMss (fun m => { m with
      sealSt := 1, sealAt := s.bte.up, hash := b.take 32, staging := [], coverSeen := false })
    (.plain stDONE 0, (s1.log 0x01 0 (b.take 32) n false).mssEvent 0x01 3600)

/-- LOAD: package bytes appended, up to 4 MiB. -/
def sealLoad (b : List Byte) (s : State) : SgAns × State :=
  if s.mss.sealSt ≠ 1 ∨ 4194304 < s.mss.staging.length + b.length then (.plain stBAD_STATE 0, s)
  else (.plain stDONE 0, s.onMss (fun m => { m with staging := m.staging ++ b }))

/-- CLOSE: the four conditions of R381, then the package is applied. -/
def sealClose (s : State) : SgAns × State :=
  let m := s.mss
  if m.sealSt ≠ 1 then (.plain stBAD_STATE 0, s)
  else if !m.coverSeen || m.cover || sha256 m.staging != m.hash then (.plain stBAD_PARAM badContent, s)
  else match packageItems (m.staging.length + 1) m.staging with
    | none => (.plain stBAD_PARAM badContent, s)
    | some items =>
      if items.all (itemOk m.serial) then (.plain stDONE m.sealCount, s.applyPackage items)
      else (.plain stBAD_PARAM badContent, s)

/-- ABANDON. -/
def sealAbandon (s : State) : SgAns × State :=
  if s.mss.sealSt ≠ 1 then (.plain stBAD_STATE 0, s) else (.plain stDONE 0, s.abandonSeal 1)

/-- SEAL_BEGIN's answer, by its op field (Table 14-4). -/
def sealBegin (q : Sqe) (b : List Byte) (s : State) : SgAns × State :=
  match bits (sd q 6) 3 0 with
  | 0 => sealOpen q b s
  | 1 => sealLoad b s
  | 2 => sealClose s
  | _ => sealAbandon s

/-- The parameter checks of SEAL_BEGIN: OPEN brings 128 bytes, CLOSE and ABANDON no buffer. -/
def sealParams (q : Sqe) (b : List Byte) : List (Bool × Nat × Nat) :=
  let op := bits (sd q 6) 3 0
  let none' := op = 2 || op = 3
  [(!none' || sd q 2 == 0, 2, 0), (!none' || sd q 3 == 0, 3, 0),
   ((!none' || sd q 4 == 0) && (op != 0 || b.length == 128), 4, 0), (op ≤ 3, 6, 0)]

/-- SEAL_BEGIN with any op. -/
def sealCmd (q : Sqe) (h : HostRead) (s : State) : State := sgCmdH 0xC3 q h (sealParams q) (sealBegin q) s.start

/-- Meaning of SEAL_BEGIN_OPEN (R380, R387). -/
def execSealBeginOpen (q : Sqe) (h : HostRead) (s : State) : Res := .next (sealCmd q h s)

/-- Meaning of SEAL_BEGIN_LOAD (R380, R387). -/
def execSealBeginLoad (q : Sqe) (h : HostRead) (s : State) : Res := .next (sealCmd q h s)

/-- Meaning of SEAL_BEGIN_CLOSE (R381, R387). -/
def execSealBeginClose (q : Sqe) (h : HostRead) (s : State) : Res := .next (sealCmd q h s)

/-- Meaning of SEAL_BEGIN_ABANDON (R381, R387). -/
def execSealBeginAbandon (q : Sqe) (h : HostRead) (s : State) : Res := .next (sealCmd q h s)

/-- Meaning of SEAL_TIMEOUT (R381). -/
def execSealTimeout (s : State) : Res := .next (s.start.abandonSeal 2)


/-- The new software fails its self-check within 10 s of the restart: the previous slot runs again (R381). -/
def saggarRollback (s : State) : State :=
  match s.mss.imageOld with
  | none => s
  | some old =>
    if s.mss.imageAt + 10000000 < s.bte.up then s
    else
      let left := s.mss.image.1
      let s1 := s.onMss (fun m => { m with image := old, imageOld := none, rollback := true, restarting := true })
      (s1.log 0x08 2 left 0 false).mssEvent 0x05 s1.mss.swShort

/-- Meaning of SAGGAR_ROLLBACK (R381). -/
def execSaggarRollback (s : State) : Res := .next (saggarRollback s.start)

/-! ### Ship authorisation (R384) -/

/-- SHIP_AUTHORISE's answer: ship state is allowed once, within 24 h. -/
def shipAuthorise (q : Sqe) (b : List Byte) (s : State) : SgAns × State :=
  if !sigOk 0xC4 q true b s then (.plain stSIGNATURE_BAD 0, s)
  else
    let n := blockCounter b
    let s1 := (s.counted true n).onMss (fun m => { m with shipAuth := some (s.bte.up + dayUs) })
    let till := if s.bte.off.isNone then timeUnknown else s.bte.lTime + dayUs
    (.plain stDONE 0, s1.log 0x16 0 (le 8 till) n false)

/-- Meaning of SHIP_AUTHORISE (R384, R387). -/
def execShipAuthorise (q : Sqe) (h : HostRead) (s : State) : Res :=
  .next (sgCmdH 0xC4 q h (fun b => [(b.length == 96, 4, 0)]) (shipAuthorise q) s.start)

/-- Meaning of SHIP_AUTH_LAPSE (R384). -/
def execShipAuthLapse (s : State) : Res := .next (s.start.onMss (fun m => { m with shipAuth := none }))

/-! ### The cover (R379) -/

/-- MSS watches the cover loop: on the supply, on the cell, and in ship state. -/
def Sgm.watches (g : Sgm) : Bool := g.runs || g.mode = .ship

/-- The loop opens: the counter and its log entry first; outside a procedure tamper is set. While the Saggar is off, an opening is found
at power-on. -/
def coverOpen (s : State) : State :=
  if s.mss.cover then s
  else if !s.sgm.watches then s.onMss (fun m => { m with cover := true, unseen := true })
  else
    let m := s.mss
    let inside := m.sealSt = 1
    let s0 := s.onMss (fun m => { m with cover := true, openedAt := s.bte.up, openedOut := false })
    if inside ∧ m.coverSeen = true then s0.mssEvent 0x02 (m.sealCount % 2 ^ 31)
    else if inside then
      let n := m.sealCount + 1
      ((s0.onMss (fun m => { m with sealCount := n, coverSeen := true })).log 0x02 3 (le 4 m.sealCount ++ le 4 n) 0
        false).mssEvent 0x02 (n % 2 ^ 31)
    else s0.coverOutside

/-- Meaning of COVER_OPEN (R379, R483). -/
def execCoverOpen (s : State) : Res := .next (coverOpen s.start)

/-- The loop closes: an opening outside a procedure is logged with its duration (Table 14-7, COVER). -/
def coverClose (s : State) : State :=
  if !s.mss.cover then s
  else
    let s1 := s.onMss (fun m => { m with cover := false, unseen := false, openedOut := false })
    if s.sgm.watches && s.mss.openedOut then
      s1.log 0x09 3 (le 4 s.mss.sealCount ++ le 4 (min ((s.bte.up - s.mss.openedAt) / 1000) 0xFFFFFFFF)) 0 false
    else s1

/-- Meaning of COVER_CLOSE (R379). -/
def execCoverClose (s : State) : Res := .next (coverClose s.start)

/-! ### The legal display (R484) -/

/-- An L-time as YYYY-MM-DD hh:mm:ss. -/
def timeText (t : Nat) : List Byte :=
  let (y, m, d) := civil (t / dayUs)
  let sec := t % dayUs / 1000000
  decAscii 4 y ++ [0x2D] ++ decAscii 2 m ++ [0x2D] ++ decAscii 2 d ++ [0x20] ++ decAscii 2 (sec / 3600) ++ [0x3A] ++
    decAscii 2 (sec / 60 % 60) ++ [0x3A] ++ decAscii 2 (sec % 60)

/-- The registers the display rotates through. -/
def State.displayRegs (s : State) : List Nat := (List.range 16).filter s.sgm.enabled ++ [0x20, 0x21]

/-- The line shown next. -/
def State.displayText (s : State) : List Byte :=
  let l := s.displayRegs
  let id := l.getD (s.mss.line % l.length) 0x20
  let acc := s.sgm.acc.getD id 0
  hexDigits 8 s.mss.swShort ++ [0x20] ++ decAscii 1 s.mss.sealCount ++ [0x20] ++ [if s.mss.tamper then 0x54 else 0x2D] ++
    [0x20] ++ (if s.bte.off.isNone then [0x2D, 0x2D] else timeText s.bte.lTime) ++ [0x20] ++ hexDigits 2 id ++
    decAscii 3 (regRoll acc) ++ decAscii 12 (regVal acc) ++ [0x0D, 0x0A]

/-- One line is sent to the legal display, and the rotation advances. -/
def displayLine (s : State) : State :=
  if !s.bteRuns then s
  else (s.emit (.uart 1 s.displayText)).onMss (fun m => { m with line := (m.line + 1) % s.displayRegs.length })

/-- Meaning of DISPLAY_LINE (R484, R385). -/
def execDisplayLine (s : State) : Res := .next (displayLine s.start)

/-! ### The optical head (R485) -/

/-- The read commands the optical head serves, with their parameter checks and answers. -/
def opticalRow (q : Sqe) : Option (List (Bool × Nat × Nat) × (State → SgAns × State)) :=
  match opOf q with
  | 0xA0 => some (regReadParams q (sgmId (bits (sd q 6) 7 0)) 64, energyRead q)
  | 0xA1 => some ([(280 ≤ sd q 4, 4, 0)], instantRead)
  | 0xB0 => some (regReadParams q (bits (sd q 6) 7 0 < 80) 80, registerRead q)
  | 0xB4 => some ([(416 ≤ sd q 4, 4, 0)], creditRead q)
  | 0xB5 => some ([(32 + 128 * bits (sd q 7) 9 0 + 128 ≤ sd q 4, 4, 0),
      (1 ≤ bits (sd q 7) 9 0 && bits (sd q 7) 9 0 ≤ 512, 7, 0)], intervalRead q)
  | 0xC0 => some (keyExportParams q, keyExport)
  | 0xC1 => some (recordReadParams q, recordRead q)
  | 0xC2 => some (logReadParams q, logRead q)
  | 0xC5 => some (identReadParams q, identRead q)
  | _ => none

/-- The commands with a host buffer, with their parameter checks and answers. -/
def bufferRow (q : Sqe) (b : List Byte) : Option (List (Bool × Nat × Nat) × (State → SgAns × State)) :=
  match opOf q with
  | 0xA2 => some (pulseParams q b, pulseConfig q b)
  | 0xB1 => some ([(b.length == 12396, 4, 0)], calendarWrite q b)
  | 0xB2 => some ([(b.length == 96, 4, 0), (sd64 q 6 != timeUnknown, 6, 0)], clockSet q b)
  | 0xB3 => some ([(sd q 1 < 16, 1, 0)], tokenEnter q)
  | 0xC3 => some (sealParams q b, sealBegin q b)
  | 0xC4 => some ([(b.length == 96, 4, 0)], shipAuthorise q b)
  | _ => none

/-- A command that waited for BTE and MSS to restart. -/
def State.serveWaiting (q : Sqe) (b : List Byte) (s : State) : State :=
  match (bufferRow q b).or (opticalRow q) with
  | none => s
  | some (params, body) => sgServe q params body s

/-- BTE and MSS resume after a restart: the queued carries first, then the commands that waited, in order (R381). -/
def restartDone (s : State) : State :=
  s.mss.waiting.foldl (fun s x => s.serveWaiting x.1 x.2) (s.resume.onMss (fun m => { m with waiting := [] }))

/-- Meaning of SAGGAR_RESTART_DONE (R381). -/
def execSaggarRestartDone (s : State) : Res := .next (restartDone s.start)

/-- The answer to an SQE from the optical head: the general checks without the host buffer address, then the command's. -/
def opticalAnswer (q : Sqe) (s : State) : SgAns × State :=
  match opticalRow q, opRow .pf1 (opOf q) with
  | some (params, body), some r =>
    match generalCheck r { q with dw := (q.dw.set 2 0).set 3 0 } with
    | some d => (.plain stBAD_PARAM (badField d 0), s)
    | none => match firstBad params with
      | some x => (.plain stBAD_PARAM x, s)
      | none => body s
  | _, _ => (.plain stBAD_OPCODE 0, s)

/-- The four-byte words of a byte string. -/
def wordsOf (n : Nat) (b : List Byte) : List Word := (List.range n).map (fun i => BitVec.ofNat 32 (u b (4 * i) 4))

/-- A frame of the optical head: length, body, CRC-16. -/
def opticalFrame (body : List Byte) : List Byte :=
  let b := le 4 body.length ++ body
  b ++ be 2 (crc16 b)

/-- A frame arrives: one of the right length whose CRC holds is answered. -/
def opticalRequest (frame : List Byte) (s : State) : State :=
  let b := frame.take 68
  if !s.bteRuns || frame.length != 70 || u frame 0 4 != 64 || frame.drop 68 != be 2 (crc16 b) then s
  else
    let q : Sqe := ⟨.pf1, 0, wordsOf 16 (b.drop 4)⟩
    let a := opticalAnswer q s
    let cqe := le 4 (cidOf q + a.1.status * 65536) ++ le 4 a.1.result ++ zeros 8
    a.2.emit (.uart 2 (opticalFrame (cqe ++ a.1.buf.take (sd q 4))))

/-- Meaning of OPTICAL_REQUEST (R485). -/
def execOpticalRequest (frame : List Byte) (s : State) : Res := .next (opticalRequest frame s.start)

/-! ### Registers (Tables 14-11, 14-12) -/

/-- MSS_STATUS. -/
def mssStatus (m : Mss) : Nat :=
  b2n m.oper.isSome * 256 + b2n m.auth.isSome * 128 + b2n m.shipAuth.isSome * 64 + b2n (decide (924 ≤ m.prot.length)) * 32 +
    b2n m.rollback * 16 + b2n m.tamper * 8 + b2n m.cover * 4 + m.sealSt

/-- The MSS registers. -/
def readMss (off : Nat) (s : State) : Nat :=
  let m := s.mss
  match off with
  | 0x000 => 0x10004000
  | 0x004 => mssStatus m
  | 0x008 => m.sealCount % 2 ^ 32
  | 0x00C => m.swShort
  | 0x010 => m.serial.toNat % 2 ^ 32
  | 0x014 => m.serial.toNat / 2 ^ 32
  | 0x018 => m.recordSeq
  | 0x01C => m.logSeq
  | 0x020 => if m.sealSt = 1 then (m.sealAt + 3600000000 - s.bte.up + 999999) / 1000000 else 0
  | 0x024 => lastEventWord m.lastEvent
  | _ => 0

end Sys2Proof.Machine
end

