-- ==== Sys2Proof/Machine/Regs.lean ====
section
/-! DEFINITION. The address map (R498, R499): every register the host reads, and the register writes (R8, R9, R500, R512). -/

namespace Sys2Proof.Machine

open Sys2Proof

/-! ### Field maps of PLA, PSC, KCE, SPA, VPC and LSW -/

/-- The half of a 64-bit mask that a LO or HI register holds. -/
def halfOf (hi : Bool) (m : Nat) : Nat := if hi then m / 2 ^ 32 else m % 2 ^ 32

/-- The links that satisfy a predicate. -/
def State.linkMask (p : Link → Bool) (s : State) : Nat := maskOf 64 (fun l => p (s.link l))

/-- PLA_LINK_n. -/
def plaLink (l : Nat) (s : State) : Nat :=
  let k := s.link l
  let own := match s.conf.memberOf l with
    | none => 0
    | some (g, h) => 2 ^ 22 + g * 2 ^ 16 + h * 2 ^ 13
  k.st.code * 2 ^ 29 + k.cause * 2 ^ 26 + k.rate * 2 ^ 23 + own + k.attempts * 2 ^ 11 + bits k.tstate 2 0 * 256 + k.flags

/-- The PLA registers (Tables 08-15, 08-16). -/
def readPla (off : Nat) (s : State) : Nat :=
  let n (f : Link → Bool) : Nat := countOf 64 (fun l => f (s.link l))
  let isDown (k : Link) : Bool := k.st = .down || k.st = .failed
  match off with
  | 0x000 => 0x4020013F
  | 0x004 => n isDown * 2 ^ 16 + n (fun k => k.st = .up) * 256 + n (fun k => k.st = .train)
  | 0x008 => halfOf false (s.linkMask (fun k => k.st = .up))
  | 0x00C => halfOf true (s.linkMask (fun k => k.st = .up))
  | 0x010 => halfOf false (s.linkMask isDown)
  | 0x014 => halfOf true (s.linkMask isDown)
  | 0x018 => halfOf false (s.linkMask (fun k => k.st = .off))
  | 0x01C => halfOf true (s.linkMask (fun k => k.st = .off))
  | 0x020 => lastEventWord s.pla.lastEvent
  | _ => if 0x100 ≤ off ∧ off < 0x200 ∧ off % 4 = 0 then plaLink ((off - 0x100) / 4) s else 0

/-- The groups that satisfy a predicate. -/
def State.groupMask (p : PGroup → Bool) (s : State) : Nat := maskOf 64 (fun g => p (s.pg g))

/-- PSC_GROUP_g. -/
def pscGroup (g : Nat) (s : State) : Nat :=
  let p := s.pg g
  match s.conf.group g with
  | none => p.st.code * 2 ^ 29
  | some m => p.st.code * 2 ^ 29 + b2n p.ovl * 2 ^ 28 + b2n p.latch * 2 ^ 27 + b2n (p.holdLeft != 0) * 2 ^ 26 +
      p.retries * 2 ^ 20 + maskOf m.nPh p.avail * 256 + maskOf m.nPh p.on

/-- The PSC registers (Tables 07-9, 07-10). -/
def readPsc (off : Nat) (s : State) : Nat :=
  let stopped (p : PGroup) : Bool := p.st = .tripped || p.st = .locked
  match off with
  | 0x000 => 0x40400008
  | 0x004 => countOf 64 (fun g => (s.pg g).st = .running) * 256 + b2n s.conf.bisque
  | 0x008 => halfOf false (s.groupMask (fun p => p.st = .running))
  | 0x00C => halfOf true (s.groupMask (fun p => p.st = .running))
  | 0x010 => halfOf false (s.groupMask stopped)
  | 0x014 => halfOf true (s.groupMask stopped)
  | 0x018 => halfOf false (s.groupMask (fun p => p.latch))
  | 0x01C => halfOf true (s.groupMask (fun p => p.latch))
  | 0x020 => lastEventWord s.psc.lastEvent
  | _ => if 0x100 ≤ off ∧ off < 0x200 ∧ off % 4 = 0 then pscGroup ((off - 0x100) / 4) s else 0

/-- The lanes that satisfy a predicate. -/
def State.laneMask (p : KGroup → Bool) (s : State) : Nat := maskOf 64 (fun g => p (s.lane g))

/-- KCE_GROUP_g. -/
def kceGroup (g : Nat) (s : State) : Nat :=
  let k := s.lane g
  k.st.code * 2 ^ 30 + b2n k.swapPending * 2 ^ 29 + b2n k.deferred * 2 ^ 28 + b2n k.saturated * 2 ^ 27 + k.band * 2 ^ 24 +
    s.conf.rate g * 2 ^ 20 + k.causes.length * 2 ^ 18 + k.defer

/-- The KCE registers (Tables 06-16, 06-17). -/
def readKce (off : Nat) (s : State) : Nat :=
  match off with
  | 0x000 => 0x40808482
  | 0x004 => countOf 64 (fun g => (s.lane g).st = .firing) * 256 + b2n s.conf.bisque
  | 0x008 => halfOf false (s.laneMask (fun k => k.st = .firing))
  | 0x00C => halfOf true (s.laneMask (fun k => k.st = .firing))
  | 0x010 => halfOf false (s.laneMask (fun k => k.st = .hold))
  | 0x014 => halfOf true (s.laneMask (fun k => k.st = .hold))
  | 0x018 => halfOf false (s.laneMask KGroup.swapPending)
  | 0x01C => halfOf true (s.laneMask KGroup.swapPending)
  | 0x020 => match s.kce.lastMiss with
    | none => 0
    | some (g, c) => 2 ^ 31 + g * 2 ^ 16 + c
  | _ => if 0x100 ≤ off ∧ off < 0x200 ∧ off % 4 = 0 then kceGroup ((off - 0x100) / 4) s else 0

/-- The SPA registers (Tables 05-15, 05-16). -/
def readSpa (off : Nat) (s : State) : Nat :=
  let p := s.spa.plan
  match off with
  | 0x000 => 0x30001000
  | 0x004 => s.spa.cfgReg
  | 0x008 => p.sess.length * 2 ^ 16 + (if p.mode = 0 then p.zero else 0) * 256 + p.mode
  | 0x00C => s.spa.shown.1 % 2 ^ 32
  | 0x010 => p.grid
  | 0x014 => p.ports + p.charge - p.discharge
  | 0x018 => match s.spa.shown.2 with
    | none => 0
    | some t => 2 ^ 31 + t
  | _ => 0

/-- VPC_PORT_n. -/
def vpcPort (n : Nat) (s : State) : Nat :=
  let p := s.prt n
  p.st.code * 2 ^ 29 + p.pilot.getD 0 * 2 ^ 26 + p.prox.getD 0 * 2 ^ 24 + p.mode * 2 ^ 22 + b2n p.energy * 2 ^ 21 +
    b2n (!p.rx.isEmpty) * 2 ^ 20 + b2n (s.ventRefused n) * 2 ^ 19 + b2n (s.conf.port n).ccs * 2 ^ 18 +
    (if p.st = .fault then p.cause else 0) * 2 ^ 16 + (if p.mode = 1 then p.duty else 0)

/-- The VPC registers (Tables 09-12, 09-13). -/
def readVpc (off : Nat) (s : State) : Nat :=
  let n (f : Port → Bool) : Nat := countOf 16 (fun i => f (s.prt i))
  match off with
  | 0x000 => 0x10000808
  | 0x004 => n (fun p => p.st = .fault) * 2 ^ 16 + n (fun p => p.st = .energy) * 256 +
      n (fun p => p.st = .plugged || p.st = .energy)
  | 0x008 => maskOf 16 (fun i => (s.prt i).st = .energy)
  | 0x00C => maskOf 16 (fun i => (s.prt i).st = .fault)
  | 0x010 => lastEventWord s.vpc.lastEvent
  | _ => if 0x100 ≤ off ∧ off < 0x140 ∧ off % 4 = 0 then vpcPort ((off - 0x100) / 4) s else 0

/-- LSW_CH_n. -/
def lswCh (n : Nat) (s : State) : Nat :=
  let c := s.ch n
  let r := s.conf.chan n
  c.st.code * 2 ^ 29 + b2n c.held * 2 ^ 28 + b2n c.outOn * 2 ^ 27 + r.load * 2 ^ 24 + b2n r.compat * 2 ^ 23 +
    b2n (r.owner == 2) * 2 ^ 22 + c.retries * 2 ^ 18 + c.cause * 2 ^ 15 + c.defer * 2 ^ 12 + c.dApp

/-- The LSW registers (Tables 11-10, 11-11). -/
def readLsw (off : Nat) (s : State) : Nat :=
  let m (f : LChan → Bool) : Nat := maskOf 24 (fun n => f (s.ch n))
  match off with
  | 0x000 => 0x18042830
  | 0x004 => s.lsw.vf * 2 ^ 16 + s.lsw.supply
  | 0x008 => m LChan.outOn
  | 0x00C => m (fun c => c.st = .lockout)
  | 0x010 => m (fun c => c.st = .retryWait)
  | 0x014 => m (fun c => c.held)
  | 0x018 => maskOf 24 (fun n => (s.conf.chan n).owner == 2)
  | 0x01C => s.lsw.sel
  | 0x020 => lastEventWord s.lsw.lastEvent
  | _ => if 0x100 ≤ off ∧ off < 0x160 ∧ off % 4 = 0 then lswCh ((off - 0x100) / 4) s else 0

/-! ### The address map -/

/-- A register of a function's BAR 0, by its offset; reserved offsets read 0 (R498, R499). -/
def readReg (fn : Fn) (off : Nat) (s : State) : Nat :=
  let o := off % 4096
  match fn, off / 4096 with
  | .pf0, 0 => readSup o s
  | .pf0, 1 => readHqe .pf0 o s
  | .pf0, 2 => readTmf o s
  | .pf0, 3 => readPla o s
  | .pf0, 4 => readPsc o s
  | .pf0, 5 => readKce o s
  | .pf0, 6 => readSpa o s
  | .pf0, 7 => readVpc o s
  | .pf0, 8 => (look o s.tcm.regs).getD 0
  | .pf0, 9 => readLsw o s
  | .pf0, 10 => (look o s.bse.regs).getD 0
  | .pf0, 11 => readBlk o s
  | .pf0, 12 => readEvr o s
  | .pf1, 0 => readSgm o s
  | .pf1, 1 => readBte o s
  | .pf1, 2 => readMss o s
  | .pf1, 3 => readHqe .pf1 o s
  | _, _ => 0

/-- The bytes of a function's BAR (Table 03-1). -/
def barSize (fn : Fn) (bar : Nat) : Nat := if bar = 0 then (match fn with | .pf0 => 65536 | .pf1 => 16384) else 4096

/-- The dwords of a BAR: its base address above its size, its type a 64-bit, non-prefetchable memory BAR (R75). -/
def readBar (fn : Fn) (k : Nat) (s : State) : Nat :=
  let b := (s.fnOf fn).bars.getD (k / 2) 0 / barSize fn (k / 2 * 2) * barSize fn (k / 2 * 2)
  if k % 2 = 0 then b % 2 ^ 32 + 4 else b / 2 ^ 32

/-- The code of a Max Payload Size or Max Read Request Size of 128 · 2^code bytes. -/
def sizeCode (n : Nat) : Nat := ((List.range 6).find? (fun c => 128 * 2 ^ c == n)).getD 0

/-- A function's PCI configuration space: its identity (R501), its BARs (R75), and at 0x40 the PCI Express capability: Max Payload
Size Supported 512 and 8-bit tags, Device Control, ASPM L1 alone, and Device Control 2 (R76, R110, R111). The places are those of
PCIe, and that of the capability is the model's (PRESUMED, log entry 8). -/
def readPci (fn : Fn) (off : Nat) (s : State) : Nat :=
  match off with
  | 0x00 => (match fn with | .pf0 => 0x6416 | .pf1 => 0x6417) * 2 ^ 16 + Config.vendorId.toNat
  | 0x08 => 0xFF0000 * 256 + Config.dieRev.toNat
  | 0x10 => readBar fn 0 s
  | 0x14 => readBar fn 1 s
  | 0x18 => readBar fn 2 s
  | 0x1C => readBar fn 3 s
  | 0x20 => readBar fn 4 s
  | 0x24 => readBar fn 5 s
  | 0x44 => 2 ^ 5 + 2
  | 0x48 => sizeCode s.hqe.maxRead * 2 ^ 12 + b2n s.hqe.extTag * 256 + sizeCode s.hqe.maxPayload * 32
  | 0x4C => 2 * 2 ^ 10
  | 0x68 => s.hqe.cplTimeout
  | _ => 0

/-- A function's MSI-X table at 0x000 and its pending bits at 0x800 (Table 03-1). -/
def readMsix (fn : Fn) (off : Nat) (s : State) : Nat :=
  let f := s.fnOf fn
  if off < 0x800 then
    if off / 16 < f.vecs.length then
      let x := f.vec (off / 16)
      match off % 16 with
      | 0 => x.addrLo.toNat
      | 4 => x.addrHi.toNat
      | 8 => x.data.toNat
      | _ => b2n x.masked
    else 0
  else maskOf 32 (fun i => (f.vec ((off - 0x800) * 8 + i)).pend)

/-- A dword of a function's BAR, or of its configuration space as bar 7; doorbells are write only and read 0 (R9, R88). -/
def readWord (fn : Fn) (bar off : Nat) (s : State) : Nat :=
  match bar with
  | 0 => readReg fn off s
  | 4 => readMsix fn off s
  | 7 => readPci fn off s
  | _ => 0

/-- A size and alignment that registers answer: aligned 32-bit and 64-bit reads (R499). -/
def readable (off size : Nat) : Bool := off % size == 0 && (size == 4 || size == 8)

/-- A read of a function's BAR or, as bar 7, of its configuration space: an aligned 64-bit read returns two registers, the lower
offset in the low dword, and a read of any other size returns 0 (R499). -/
def hostReads (fn : Fn) (bar off size : Nat) (s : State) : Nat :=
  if readable off size then readWord fn bar off s + (if size = 8 then readWord fn bar (off + 4) s * 2 ^ 32 else 0) else 0

/-- A read of PF1 BAR 0 (R499, R500). -/
def tunnelRead (off size : Nat) (s : State) : State :=
  if readable off size && off < 0x3000 && !s.linkUp then
    (s.onFn .pf1 (fun f => { f with saggarMiss := true })).emit (.readData (2 ^ (8 * size) - 1))
  else s.emit (.readData (hostReads .pf1 0 off size s))

/-- Meaning of PF1_TUNNEL_READ (R500). -/
def execPf1TunnelRead (off size : Nat) (s : State) : Res := .next (tunnelRead off size s.start)

/-! ### Register writes (R8, R9, R499, R512) -/

/-- A CONFIG_COMMIT is in progress: RWL fields are locked (Table 00-5). -/
def State.locked (s : State) : Bool :=
  s.sup.commits.any (fun c => c.kind = .config)

/-- A write to the HQE registers of a function (Tables 03-12, 03-13). -/
def writeHqe (fn : Fn) (off : Nat) (val : Word) (s : State) : State :=
  let v := val.toNat
  let admin (f : FnState → FnState) : State := if (s.fnOf fn).enable then s else s.onFn fn f
  match off with
  | 0x008 => if bit v 0 then hqeEnable fn s else hqeDisable fn s
  | 0x00C => if fn = .pf1 ∧ bit v 2 then saggarMissClear s else s
  | 0x010 => admin (fun f => { f with asqLo := BitVec.ofNat 32 (v / 4096 * 4096) })
  | 0x014 => admin (fun f => { f with asqHi := val })
  | 0x018 => admin (fun f => { f with acqLo := BitVec.ofNat 32 (v / 4096 * 4096) })
  | 0x01C => admin (fun f => { f with acqHi := val })
  | 0x020 => admin (fun f => { f with adminSize := BitVec.ofNat 32 (bits v 11 8 * 256 + bits v 3 0) })
  | _ => s

/-- A write to a register of PF0 BAR 0: SUP_SCRATCH, HQE, TMF_HOST_LIMIT, SPA_CFG and LSW_SENSE take writes. -/
def writePf0 (off : Nat) (val : Word) (s : State) : State :=
  let v := val.toNat
  if off / 4096 = 1 then writeHqe .pf0 (off % 4096) val s
  else match off with
    | 0x005C => s.onSup (fun p => { p with scratch := val })
    | 0x2010 =>
      if s.locked || bits v 15 0 < 2048 || 16384 < bits v 15 0 then s
      else s.onTmf (fun t => { t with hostLimitReg := bits v 15 0 })
    | 0x6004 => if s.locked || bits v 1 0 = 3 then s else s.onSpa (fun p => { p with cfgReg := bits v 1 0 })
    | 0x901C =>
      let s1 := s.onLsw (fun l => { l with sel := bits v 4 0 })
      if s1.lsw.pin = 31 ∧ s1.lsw.supply ≠ 2 then s1.showSense else s1
    | _ => s

/-- A write to an MSI-X table entry (Table 03-1); unmasking it sends its pending message (R109). -/
def writeMsix (fn : Fn) (off : Nat) (val : Word) (s : State) : State :=
  let v := off / 16
  if off ≥ 0x800 || v ≥ (s.fnOf fn).vecs.length then s
  else match off % 16 with
    | 0 => s.onFn fn (FnState.onVec v (fun x => { x with addrLo := val }))
    | 4 => s.onFn fn (FnState.onVec v (fun x => { x with addrHi := val }))
    | 8 => s.onFn fn (FnState.onVec v (fun x => { x with data := val }))
    | _ => if bit val.toNat 0 then s.onFn fn (FnState.onVec v (fun x => { x with masked := true })) else msixUnmask fn v s

/-- A write to a function's configuration space: a BAR's address, and the Max Payload Size (up to the 512 supported), Extended Tag
Field Enable, Max Read Request Size and Completion Timeout Value of PCIe's Device Control registers (R75, R76, R110, R111). The two
functions share one setting of each, and the last write through either stands (DESIGN CHOICE, log entry 8). -/
def writePci (fn : Fn) (off : Nat) (val : Word) (s : State) : State :=
  let v := val.toNat
  match off with
  | 0x48 => s.onHqe (fun h => { h with
      maxPayload := if bits v 7 5 ≤ 2 then 128 * 2 ^ bits v 7 5 else h.maxPayload
      extTag := bit v 8
      maxRead := if bits v 14 12 ≤ 5 then 128 * 2 ^ bits v 14 12 else h.maxRead })
  | 0x68 => s.onHqe (fun h => { h with cplTimeout := bits v 3 0 })
  | _ =>
    if 0x10 ≤ off ∧ off < 0x28 then
      s.onFn fn (fun f => { f with bars := upd f.bars ((off - 0x10) / 8) (fun b =>
        if off % 8 = 0 then b / 2 ^ 32 * 2 ^ 32 + v else b % 2 ^ 32 + v * 2 ^ 32) })
    else s

/-- A write to a function's BAR 0, 2 or 4 (R498, R499), or to its configuration space as bar 7: only aligned 32-bit writes
count. The configuration space answers from the end of link training, before HI has reported ready (R47). -/
def registerWrite (fn : Fn) (bar off size : Nat) (val : Word) (s : State) : State :=
  if size ≠ 4 || off % 4 ≠ 0 || !(if bar = 7 then s.answersConfig else s.hiUp) then s
  else match bar, fn with
    | 0, .pf0 => writePf0 off val s
    | 0, .pf1 => if off < 0x3000 then tunnelWrite off size s else if off / 4096 = 3 then writeHqe .pf1 (off % 4096) val s else s
    | 2, _ => if off % 8 = 0 then sqTail fn (off / 8) size val s else cqHead fn (off / 8) size val s
    | 4, _ => writeMsix fn off val s
    | 7, _ => writePci fn off val s
    | _, _ => s

/-- Meaning of REGISTER_WRITE (R499). -/
def execRegisterWrite (fn : Fn) (bar off size : Nat) (val : Word) (s : State) : Res :=
  .next (registerWrite fn bar off size val s.start)

end Sys2Proof.Machine
end

