-- ==== Sys2Proof/Machine/Sup.lean ====
section
/-! DEFINITION. The supervisor's own commands: S-time, the fault journal, ship mode and the ordered reset (R56, R71, R72,
R508 to R510), and the pins that show device state and supply (R465, R466). -/

namespace Sys2Proof.Machine

open Sys2Proof

/-! ### Pins -/

/-- SP_RUN_n pulls low (R465). -/
def State.runPinLow (s : State) : Bool := s.sup.st = .bisque || s.sup.st = .service

/-- VOUT_3V3 is present (R466). -/
def State.vout33 (s : State) : Bool := s.sup.powered % 128 != 0

/-! ### S-time (R504, R508) -/

/-- S-time set, with what a STEP does to open EVR periods; any slew ends. -/
def State.stepTime (t : Nat) (s : State) : State :=
  (s.onSup (fun p => { p with stime := some t, slew := none })).stepQuants s.evrNow.1

/-- TIME_SET. -/
def timeSet (q : Sqe) (s : State) : State :=
  let t := sd64 q 6
  if !bit (sd q 8) 0 then (s.stepTime t).done q stDONE 0
  else match s.sup.stime with
    | none => s.done q stBAD_STATE 0
    | some now =>
      let d := max t now - min t now
      if 1000000 < d then s.done q stBAD_STATE 0
      else (s.onSup (fun p => { p with slew := some ⟨decide (now < t), d * 2000⟩ })).done q stDONE 1

/-- Meaning of TIME_SET (R508). -/
def execTimeSet (q : Sqe) (s : State) : Res :=
  .next (hostCmd 0x90 q [(sd64 q 6 ≠ timeUnknown, 6, 0), (sd q 8 < 2, 8, 1)] (timeSet q) s.start)

/-- A slew removes the last of its difference (R508). -/
def slewEnd (s : State) : State :=
  s.onSup (fun p => match p.slew with
    | none => p
    | some w =>
      let left := (w.left + 1999) / 2000
      { p with slew := none, stime := p.stime.map (fun t => if w.fast then t + left else t - left) })

/-- Meaning of SLEW_END (R508). -/
def execSlewEnd (s : State) : Res := .next (slewEnd s.start)

/-! ### The fault journal (R56, R509) -/

/-- The 32 bytes of a fault journal record (Table 02-8). -/
def FaultRec.bytes (r : FaultRec) : List Byte :=
  let b := le 8 r.time ++ le 4 r.seq ++ le 1 r.island ++ le 1 (b2n r.lTime) ++ le 2 r.code ++ le 4 r.arg0 ++ le 4 r.arg1 ++
    le 4 r.arg2
  b ++ le 4 (crc32c b)

/-- JOURNAL_READ: a header, then up to `n` records from the oldest at or after the first asked for. -/
def journalRead (q : Sqe) (s : State) : State :=
  let j := s.sup.journal
  let l := (j.filter (fun r => decide (sd q 6 ≤ r.seq))).take (bits (sd q 7) 10 0)
  let seqOf (o : Option FaultRec) : Nat := (o.map (fun r => r.seq)).getD 0
  let head := le 8 s.sTime ++ le 4 (seqOf l.head?) ++ le 4 l.length ++ le 4 (seqOf j.head?) ++ le 4 s.sup.journalSeq ++ zeros 8
  (s.reply q (head ++ l.flatMap FaultRec.bytes)).done q (if l.isEmpty then stDONE_NOTE else stDONE) l.length

/-- Meaning of JOURNAL_READ (R509). -/
def execJournalRead (q : Sqe) (s : State) : Res :=
  let n := bits (sd q 7) 10 0
  .next (hostCmd 0x91 q [(32 + 32 * n ≤ sd q 4, 4, 0), (1 ≤ n && n ≤ 1024, 7, 0)] (journalRead q) s.start)

/-! ### Ship mode (R71, R72) -/

/-- SHIP_ENTER: groups gated, pilots not-ready, every load switch off, the charger stopped, the state journal written (R71). The
charger is stopped through the link, so not while it is down; a commit in progress runs on; the journal is written with the
strings' present state and the session counter, as no hold-up write follows (DEDUCED, log entry 12). -/
def shipEnter (q : Sqe) (s : State) : State :=
  let s1 := (s.onSup (fun p => { p with shipFrom := some p.st, shipLeft := 60000000 })).setState .shipPending s.sup.reason
  let s2 := (s1.refreshGroups).portsNotReady
  let s3 := (List.range 24).foldl (fun s n => s.orderCh n 0 0) s2
  let s4 := if s3.lnk.up then { s3 with cell := { s3.cell with stopped := true } } else s3
  s4.journalStrings.journalSessions.done q stDONE 0

/-- Meaning of SHIP_ENTER (R71). -/
def execShipEnter (q : Sqe) (s : State) : Res := .next (hostCmd 0x93 q [] (shipEnter q) s.start)

/-- Sixty seconds have passed in SHIP_PENDING: the device returns to the state before (R72). In WAIT_HOST every load switch takes
its NVM default (R67); in BISQUE those switched off stay off, and the charger resumes also while the Saggar link is down
(DESIGN CHOICE, log entry 12). -/
def shipCancel (s : State) : State :=
  match s.sup.shipFrom with
  | none => s
  | some st =>
    let s1 := (s.onSup (fun p => { p with shipFrom := none, shipLeft := 0 })).setState st s.sup.reason
    let s2 := { s1 with cell := { s1.cell with stopped := false } }
    let s3 := ((s2.faultRec 8 0x0008 0 0 0).supEvent 71 0x05 0 noSource).refreshGroups.evalPorts
    if st = .waitHost then s3.nvmDefaults else s3

/-- Meaning of SHIP_CANCEL (R72). -/
def execShipCancel (s : State) : Res := .next (shipCancel s.start)

/-! ### The ordered reset (R510) -/

/-- DEVICE_RESET. -/
def deviceReset (q : Sqe) (s : State) : State :=
  if s.exclusive || s.sup.staging.isSome then s.done q stBUSY_RETRY 0
  else ((s.faultRec 8 0x0003 0 0 0).done q stDONE 0).onSup (fun p => { p with resetOrdered := true })

/-- Meaning of DEVICE_RESET (R510). -/
def execDeviceReset (q : Sqe) (s : State) : Res :=
  .next (hostCmd 0x97 q [(sd q 6 == 0x6416, 6, 0)] (deviceReset q) s.start)

/-- Ten milliseconds later the main die is reset. -/
def deviceResetOrder (s : State) : State :=
  if s.sup.resetOrdered && s.mainRuns then s.mainReset 2 else s

/-- Meaning of DEVICE_RESET_ORDER (R510). -/
def execDeviceResetOrder (s : State) : Res := .next (deviceResetOrder s.start)

end Sys2Proof.Machine
end

