-- ==== Sys2Proof/Machine/Update.lean ====
section
/-! DEFINITION. Main-die firmware while the site runs: staging, live and restart switches, trial and rollback (R445 to
R454). -/

namespace Sys2Proof.Machine

open Sys2Proof

/-! ### Images (R446) -/

/-- The handles a list tile names: its u32 entries before the first 0. -/
def listedHandles (b : List Byte) : List Nat := ((List.range 1024).map (fun i => u b (4 * i) 4)).takeWhile (· != 0)

/-- The slot an image makes (Table 18-2): each island's segment offset, length and state format. The highest Oxris format it accepts is in no field: an open value. -/
def imageSlot (b : List Byte) (cfgMax : Nat) : Slot :=
  { st := .staged, version := u b 8 4, cfgMin := u b 12 4, cfgMax := cfgMax
    formats := (List.range 7).map (fun i => u b (22 + 8 * i) 2)
    segs := (List.range 7).map (fun i => (u b (16 + 8 * i) 4, u b (20 + 8 * i) 2)) }

/-- Why an image is refused, if it is: 1 FORMAT, 4 SIZE, 2 DIGEST, 3 SIGNATURE (R447, R454). -/
def imageFault (tiles : List (List Byte)) : Option Nat :=
  let b := tiles.headD []
  let n := u b 6 2
  if tiles.isEmpty || decide (1016 < tiles.length) then some 4
  else if u b 0 4 ≠ 0x514B4657 ∨ u b 4 2 ≠ 1 then some 1
  else if n = 0 ∨ 1016 < n ∨ n ≠ tiles.length then some 4
  else if sha256 (tiles.flatten.drop 256) ≠ (b.drop 128).take 32 then some 2
  else if !verifySignature Config.releaseKey (b.take 160) ((b.drop 160).take 64) then some 3
  else none

/-! ### UPDATE_STAGE (R447, R448) -/

/-- The inactive slot: the one the islands do not run. -/
def Sup.idleSlot (p : Sup) : Nat := 1 - p.bootSlot

/-- A stage that fails leaves the inactive slot INVALID (R447). -/
def State.stageFails (q : Sqe) (status result : Nat) (s : State) : State :=
  (s.onSup (fun p => p.onSlot p.idleSlot (fun _ => Slot.empty))).done q status result

/-- The tiles of an image: the first handle that is not good, the first tile that is OPEN, the first that fails its check,
or all contents. -/
inductive ImageTiles where
  | badHandle
  | notClosed
  | check (idx : Nat)
  | good (tiles : List (List Byte))
deriving DecidableEq, Repr

/-- The tiles of an image, in order (R120, R124). `bad`: the indices that fail now. -/
def readImage (s : State) (bad : List Nat) : List Nat → ImageTiles
  | [] => .good []
  | h :: rest =>
    match s.tmf.hostTile h with
    | none => .badHandle
    | some x =>
      if !x.closed then .notClosed
      else if bad.contains (handleIdx h) then .check (handleIdx h)
      else match readImage s bad rest with
        | .good t => .good (x.bytes :: t)
        | r => r

/-- An image is on trial, or about to be. -/
def Sup.onTrial (p : Sup) : Bool := (p.slotIn .trial).isSome || p.restart.isSome

/-- The image read and checked; programming begins. -/
def State.stageImage (q : Sqe) (bad : List Nat) (hs : List Nat) (s : State) : State :=
  match readImage s bad hs with
  | .badHandle => s.stageFails q stBAD_HANDLE 0
  | .notClosed => s.stageFails q stBAD_STATE 0
  | .check i => (s.stageFails q stTILE_CHECK 0).retire consSup i noSource false
  | .good tiles =>
    match imageFault tiles with
    | some r => s.stageFails q stBAD_PARAM r
    | none => s.took.onSup (fun p =>
      { p.onSlot p.idleSlot (fun _ => Slot.empty) with
        staging := some ⟨q.sq, cidOf q, p.idleSlot, imageSlot (tiles.headD []) (Config.freeNat s.free)⟩ })

/-- UPDATE_STAGE. -/
def updateStage (q : Sqe) (bad : List Nat) (s : State) : State :=
  let h := sd q 5
  match s.tmf.hostTile h with
  | none => s.done q stBAD_HANDLE 0
  | some x =>
    if !x.closed then s.done q stBAD_STATE 0
    else if s.sup.onTrial || s.sup.staging.isSome || s.sup.live.isSome then s.done q stBUSY_RETRY 0
    else if bad.contains (handleIdx h) then (s.stageFails q stTILE_CHECK 0).retire consSup (handleIdx h) noSource false
    else s.stageImage q bad (listedHandles x.bytes)

/-- Meaning of UPDATE_STAGE (R447, R454). -/
def execUpdateStage (q : Sqe) (bad : List Nat) (s : State) : Res :=
  .next (hostCmd 0x94 q [] (updateStage q bad) s.start)

/-- The slot has been programmed and read back: STAGED, or INVALID with READBACK. -/
def stageDone (ok : Bool) (s : State) : State :=
  match s.sup.staging with
  | none => s
  | some g =>
    let s1 := s.onSup (fun p => { p.onSlot g.slot (fun _ => if ok then g.image else Slot.empty) with staging := none })
    if ok then (s1.complete .pf0 g.sq g.cid stDONE g.image.version).supEvent 71 0x20 g.image.version noSource
    else s1.complete .pf0 g.sq g.cid stBAD_PARAM 5

/-- Meaning of UPDATE_STAGE_DONE (R447). -/
def execUpdateStageDone (ok : Bool) (s : State) : Res := .next (stageDone ok s.start)

/-! ### Switching over (R450 to R453) -/

/-- The order of a live switch: BF, VH, TM, HI, LK, KL, ST. -/
def switchOrder : List Nat := [6, 5, 1, 0, 3, 2, 4]

/-- The slots marked for a switch: the target on trial and the former active slot its fallback; for a rollback the target
active and the slot it leaves inactive. -/
def Sup.marked (target : Nat) (rollback : Bool) (p : Sup) : Sup :=
  if rollback then (p.mark (1 - target) .inactive).mark target .active
  else (p.mark (1 - target) .fallback).mark target .trial

/-- A switch or rollback towards a slot, by the LIVE or the RESTART procedure. LIVE first loads every island's segment of the target
into its idle bank (R450). -/
def State.switchTo (q : Sqe) (target : Nat) (rollback : Bool) (s : State) : State :=
  if bit (sd q 6) 0 then
    let s1 := s.onSup (fun p => { (p.marked target rollback) with
      restart := some target, switched := 0, trialOn := false, trialLeft := 0 })
    let s2 := s1.done q stDONE 0
    if rollback then s2 else s2.supEvent 71 0x22 (s.sup.slot target).version noSource
  else s.onSup (fun p => { p with
    live := some ⟨q.sq, cidOf q, target, switchOrder, none, rollback⟩, switched := 0
    banks := p.banks.map (fun b => { b with idle := some target }) })

/-- A live switch needs every state format number to agree (R450). -/
def State.liveOk (s : State) (target : Nat) : Bool := s.sup.formats == (s.sup.slot target).formats

/-- UPDATE_SWITCH. -/
def updateSwitch (q : Sqe) (s : State) : State :=
  match s.sup.slotIn .staged with
  | none => s.done q stBAD_STATE 0
  | some t =>
    if !bit (sd q 6) 0 && !s.liveOk t then s.done q stBAD_STATE 0
    else if s.exclusive || s.sup.restart.isSome then s.done q stBUSY_RETRY 0
    else s.switchTo q t false

/-- Meaning of UPDATE_SWITCH (R450, R451, R454). -/
def execUpdateSwitch (q : Sqe) (s : State) : Res :=
  .next (hostCmd 0x95 q [(sd q 6 < 2, 6, 1)] (updateSwitch q) s.start)

/-- The configuration in force, committed by the host, passes VERSION against the lowest format a slot's firmware accepts (R453). -/
def State.versionOk (s : State) (target : Nat) : Bool := s.sup.st ≠ .service || (s.sup.slot target).cfgMin ≤ s.conf.fmt

/-- UPDATE_ROLLBACK: a staged slot is discarded (R448); otherwise the fallback or inactive slot is the target. -/
def updateRollback (q : Sqe) (s : State) : State :=
  let t := s.sup.idleSlot
  let x := s.sup.slot t
  let live := !bit (sd q 6) 0
  if x.st = .staged then
    if s.exclusive then s.done q stBUSY_RETRY 0
    else (s.onSup (Sup.onSlot t (fun _ => Slot.empty))).done q stDONE 0
  else if !(x.st = .fallback ∨ x.st = .inactive) ∨ (live ∧ s.liveOk t = false) ∨ s.versionOk t = false then
    s.done q stBAD_STATE 0
  else if s.exclusive || s.sup.restart.isSome then s.done q stBUSY_RETRY 0
  else s.switchTo q t true

/-- Meaning of UPDATE_ROLLBACK (R448, R453). -/
def execUpdateRollback (q : Sqe) (s : State) : Res :=
  .next (hostCmd 0x96 q [(sd q 6 < 2, 6, 1)] (updateRollback q) s.start)

/-- An island's switch point in a live switch: it changes bank, and its ready report is awaited. HI does so while no TLP of the HQE is
in flight, that is, no read request is outstanding (Table 18-3). The Belfry's frame in progress is invalid and is retried. -/
def bankSwitch (i : Nat) (s : State) : State :=
  match s.sup.live with
  | none => s
  | some l =>
    if l.waiting.isSome ∨ l.todo.head? ≠ some i ∨ (i = 0 ∧ (s.sup.perst ∨ s.hqe.tags ≠ [])) then s
    else
      let s1 := s.onSup (fun p => { p with
        live := some { l with waiting := some i, todo := l.todo.drop 1 }, banks := upd p.banks i Bank.swap })
      match i, s.blk.ex with
      | 6, some x => if x.st = .ready then s1 else s1.exFail x
      | _, _ => s1

/-- Meaning of ISLAND_BANK_SWITCH (R450, Table 18-3). -/
def execIslandBankSwitch (island : Nat) (s : State) : Res := .next (bankSwitch island s.start)

/-- The bit of an island in SUP_UPDATE.switched (Table 18-5). -/
def switchedBit (i : Nat) (n : Nat) : Nat := if bit n i then n else n + 2 ^ i

/-- The last island is ready: slots marked, the trial begun, the CQE posted (R450, R453); EVR checks its partition (R437; DEDUCED, log
entry 30). -/
def State.liveEnds (l : LiveSwitch) (s : State) : State :=
  let v := (s.sup.slot l.target).version
  let s1 := s.onSup (fun p =>
    let p1 := { (p.marked l.target l.rollback).runs l.target with live := none, trialOn := false, trialLeft := 0 }
    if l.rollback then p1 else p1.beginTrial)
  let s2 := s1.complete .pf0 l.sq l.cid stDONE s1.sup.switched
  let s3 := s2.onEvr (fun e => { e with testing := true })
  if l.rollback then s3 else s3.supEvent 71 0x22 v noSource

/-- An island of a live switch reports ready. -/
def State.liveReady (i : Nat) (s : State) : State :=
  match s.sup.live with
  | none => s
  | some l =>
    if l.waiting ≠ some i then s
    else
      let l1 := { l with waiting := none }
      let s1 := (s.onSup (fun p => { p with live := some l1, switched := switchedBit i p.switched })).supEvent 71 0x21 i noSource
      if l.todo.isEmpty then s1.liveEnds l1 else s1

/-- A main-die island reports ready (R47, R450); HI does not while PERST# holds it (R49). -/
def islandReady (i : Nat) (s : State) : State :=
  if !s.mainRuns ∨ 7 ≤ i ∨ (i = 0 ∧ s.sup.perst) then s else (s.islandIsReady i).liveReady i

/-- Meaning of ISLAND_READY (R47, R450). -/
def execIslandReady (island : Nat) (s : State) : Res := .next (islandReady island s.start)

/-- Ten milliseconds after a restart switch's CQE the main die is reset into its target (R451, R453). -/
def restartReset (s : State) : State :=
  if s.sup.restart.isSome && s.mainRuns then s.mainReset 4 else s

/-- Meaning of UPDATE_RESTART_RESET (R451). -/
def execUpdateRestartReset (s : State) : Res := .next (restartReset s.start)

/-- The 600 s of a trial have passed: the slot is active, its fallback inactive (R452). -/
def trialEnd (s : State) : State :=
  match s.sup.trialOn, s.sup.slotIn .trial with
  | true, some t =>
    let s1 := s.onSup (fun p => { (p.mark (1 - t) .inactive).mark t .active with trialOn := false, trialLeft := 0 })
    s1.supEvent 71 0x23 (s1.sup.slot t).version noSource
  | _, _ => s

/-- Meaning of TRIAL_END (R452). -/
def execTrialEnd (s : State) : Res := .next (trialEnd s.start)

end Sys2Proof.Machine
end

