-- ==== Sys2Proof/Machine/Dispatch.lean ====
section
/-! DEFINITION. The dispatch of a command to its meaning: one arm per row of the opcode table. -/

namespace Sys2Proof.Machine

open Sys2Proof

/-- The effect of a command on everything but the queue. -/
def exec (i : Instr) (s : State) : Host.Outcome State Fault Refusal :=
  match i with
  | .nop q => Sys2Proof.Machine.execNop q s
  | .cqCreate q => Sys2Proof.Machine.execCqCreate q s
  | .sqCreate q => Sys2Proof.Machine.execSqCreate q s
  | .sqDelete q => Sys2Proof.Machine.execSqDelete q s
  | .cqDelete q => Sys2Proof.Machine.execCqDelete q s
  | .eventCqSet q => Sys2Proof.Machine.execEventCqSet q s
  | .cqModerate q => Sys2Proof.Machine.execCqModerate q s
  | .identify q => Sys2Proof.Machine.execIdentify q s
  | .abort q => Sys2Proof.Machine.execAbort q s
  | .hqeEnable fn => Sys2Proof.Machine.execHqeEnable fn s
  | .hqeDisable fn => Sys2Proof.Machine.execHqeDisable fn s
  | .sqTailDoorbell fn n size val => Sys2Proof.Machine.execSqTailDoorbell fn n size val s
  | .cqHeadDoorbell fn n size val => Sys2Proof.Machine.execCqHeadDoorbell fn n size val s
  | .saggarMissClear => Sys2Proof.Machine.execSaggarMissClear s
  | .pf1TunnelRead off size => Sys2Proof.Machine.execPf1TunnelRead off size s
  | .pf1TunnelWrite off size val => Sys2Proof.Machine.execPf1TunnelWrite off size val s
  | .registerWrite fn bar off size val => Sys2Proof.Machine.execRegisterWrite fn bar off size val s
  | .sqeFetch => Sys2Proof.Machine.execSqeFetch s
  | .sqeForward fn sq => Sys2Proof.Machine.execSqeForward fn sq s
  | .cqePost => Sys2Proof.Machine.execCqePost s
  | .coalescingTimeExpiry fn cq => Sys2Proof.Machine.execCoalescingTimeExpiry fn cq s
  | .eventVectorHoldoffEnd fn vec => Sys2Proof.Machine.execEventVectorHoldoffEnd fn vec s
  | .eventCqePost fn => Sys2Proof.Machine.execEventCqePost fn s
  | .hostReadCompletion tag data ok last => Sys2Proof.Machine.execHostReadCompletion tag data ok last s
  | .dmaCompletionTimeout tag => Sys2Proof.Machine.execDmaCompletionTimeout tag s
  | .tunnelAnswer => Sys2Proof.Machine.execTunnelAnswer s
  | .tunnelTimeout sq cid => Sys2Proof.Machine.execTunnelTimeout sq cid s
  | .tileAlloc q => Sys2Proof.Machine.execTileAlloc q s
  | .tileWrite q h => Sys2Proof.Machine.execTileWrite q h s
  | .tileClose q => Sys2Proof.Machine.execTileClose q s
  | .tileRead q bad => Sys2Proof.Machine.execTileRead q bad s
  | .tileFree q => Sys2Proof.Machine.execTileFree q s
  | .pairRestore idx => Sys2Proof.Machine.execPairRestore idx s
  | .streamOpen q => Sys2Proof.Machine.execStreamOpen q s
  | .streamBuffer q => Sys2Proof.Machine.execStreamBuffer q s
  | .streamClose q bad => Sys2Proof.Machine.execStreamClose q bad s
  | .streamTileDelivery ch ok => Sys2Proof.Machine.execStreamTileDelivery ch ok s
  | .streamTileFlush ch => Sys2Proof.Machine.execStreamTileFlush ch s
  | .streamBufferFlush ch => Sys2Proof.Machine.execStreamBufferFlush ch s
  | .configCommit q => Sys2Proof.Machine.execConfigCommit q s
  | .commitValidationDone img bad => Sys2Proof.Machine.execCommitValidationDone img bad s
  | .configAbort q => Sys2Proof.Machine.execConfigAbort q s
  | .bisqueStore q img bad => Sys2Proof.Machine.execBisqueStore q img bad s
  | .bisqueSlotWritten ok => Sys2Proof.Machine.execBisqueSlotWritten ok s
  | .bisqueEnter q => Sys2Proof.Machine.execBisqueEnter q s
  | .shipEnter q => Sys2Proof.Machine.execShipEnter q s
  | .shipCancel => Sys2Proof.Machine.execShipCancel s
  | .timeSet q => Sys2Proof.Machine.execTimeSet q s
  | .slewEnd => Sys2Proof.Machine.execSlewEnd s
  | .journalRead q => Sys2Proof.Machine.execJournalRead q s
  | .deviceReset q => Sys2Proof.Machine.execDeviceReset q s
  | .deviceResetOrder => Sys2Proof.Machine.execDeviceResetOrder s
  | .updateStage q bad => Sys2Proof.Machine.execUpdateStage q bad s
  | .updateStageDone ok => Sys2Proof.Machine.execUpdateStageDone ok s
  | .updateSwitch q => Sys2Proof.Machine.execUpdateSwitch q s
  | .updateRollback q => Sys2Proof.Machine.execUpdateRollback q s
  | .islandBankSwitch island => Sys2Proof.Machine.execIslandBankSwitch island s
  | .updateRestartReset => Sys2Proof.Machine.execUpdateRestartReset s
  | .trialEnd => Sys2Proof.Machine.execTrialEnd s
  | .powerGood mv => Sys2Proof.Machine.execPowerGood mv s
  | .powerFail => Sys2Proof.Machine.execPowerFail s
  | .holdupReady => Sys2Proof.Machine.execHoldupReady s
  | .firmwareReadDone ok => Sys2Proof.Machine.execFirmwareReadDone ok s
  | .bisqueEntry bad => Sys2Proof.Machine.execBisqueEntry bad s
  | .islandReady island => Sys2Proof.Machine.execIslandReady island s
  | .watchdogMiss island => Sys2Proof.Machine.execWatchdogMiss island s
  | .mainDieHoldEnd => Sys2Proof.Machine.execMainDieHoldEnd s
  | .perstAssert => Sys2Proof.Machine.execPerstAssert s
  | .perstDeassert => Sys2Proof.Machine.execPerstDeassert s
  | .saggarLinkFrame f => Sys2Proof.Machine.execSaggarLinkFrame f s
  | .saggarLinkProbe => Sys2Proof.Machine.execSaggarLinkProbe s
  | .sessionStart q => Sys2Proof.Machine.execSessionStart q s
  | .sessionStop q => Sys2Proof.Machine.execSessionStop q s
  | .sessionModify q => Sys2Proof.Machine.execSessionModify q s
  | .ledgerWrite q h => Sys2Proof.Machine.execLedgerWrite q h s
  | .ledgerRead q => Sys2Proof.Machine.execLedgerRead q s
  | .planRead q => Sys2Proof.Machine.execPlanRead q s
  | .restRequest q => Sys2Proof.Machine.execRestRequest q s
  | .restExpiry string => Sys2Proof.Machine.execRestExpiry string s
  | .epochBoundary bad => Sys2Proof.Machine.execEpochBoundary bad s
  | .replanComplete => Sys2Proof.Machine.execReplanComplete s
  | .setpointGate bad => Sys2Proof.Machine.execSetpointGate bad s
  | .writeWindowClose => Sys2Proof.Machine.execWriteWindowClose s
  | .creditMessage => Sys2Proof.Machine.execCreditMessage s
  | .kilnStatus q => Sys2Proof.Machine.execKilnStatus q s
  | .coeffStage q bad => Sys2Proof.Machine.execCoeffStage q bad s
  | .kilnCounts q => Sys2Proof.Machine.execKilnCounts q s
  | .captureSet q => Sys2Proof.Machine.execCaptureSet q s
  | .sampleFrame link rd sof groups => Sys2Proof.Machine.execSampleFrame link rd sof groups s
  | .frameMissing link => Sys2Proof.Machine.execFrameMissing link s
  | .firing group first again => Sys2Proof.Machine.execFiring group first again s
  | .firingDeadline group => Sys2Proof.Machine.execFiringDeadline group s
  | .collectorSlot => Sys2Proof.Machine.execCollectorSlot s
  | .commandFrame link => Sys2Proof.Machine.execCommandFrame link s
  | .groupStatus q => Sys2Proof.Machine.execGroupStatus q s
  | .groupRelease q => Sys2Proof.Machine.execGroupRelease q s
  | .groupCounts q => Sys2Proof.Machine.execGroupCounts q s
  | .shedTick group => Sys2Proof.Machine.execShedTick group s
  | .capacityDelivery group => Sys2Proof.Machine.execCapacityDelivery group s
  | .groupRetryTimer group => Sys2Proof.Machine.execGroupRetryTimer group s
  | .groupRetryClear group => Sys2Proof.Machine.execGroupRetryClear group s
  | .latchReport group => Sys2Proof.Machine.execLatchReport group s
  | .linkStatus q => Sys2Proof.Machine.execLinkStatus q s
  | .linkRetrain q => Sys2Proof.Machine.execLinkRetrain q s
  | .linkMgmt q => Sys2Proof.Machine.execLinkMgmt q s
  | .linkDisable q => Sys2Proof.Machine.execLinkDisable q s
  | .trainingAttempt link => Sys2Proof.Machine.execTrainingAttempt link s
  | .trainingStepTimeout link => Sys2Proof.Machine.execTrainingStepTimeout link s
  | .retrainDelay link => Sys2Proof.Machine.execRetrainDelay link s
  | .echoAnswer link f e => Sys2Proof.Machine.execEchoAnswer link f e s
  | .mgmtFrame link rd groups => Sys2Proof.Machine.execMgmtFrame link rd groups s
  | .mgmtSend link => Sys2Proof.Machine.execMgmtSend link s
  | .mgmtTimeout link => Sys2Proof.Machine.execMgmtTimeout link s
  | .codeError link g => Sys2Proof.Machine.execCodeError link g s
  | .lossOfSignal link => Sys2Proof.Machine.execLossOfSignal link s
  | .portStatus q => Sys2Proof.Machine.execPortStatus q s
  | .pilotSet q => Sys2Proof.Machine.execPilotSet q s
  | .pilotChangeEffect port => Sys2Proof.Machine.execPilotChangeEffect port s
  | .pilotBandAccept port samples => Sys2Proof.Machine.execPilotBandAccept port samples s
  | .diodeFaultAccept port lows => Sys2Proof.Machine.execDiodeFaultAccept port lows s
  | .diodeFaultClear port lows => Sys2Proof.Machine.execDiodeFaultClear port lows s
  | .proximityBandAccept port readings => Sys2Proof.Machine.execProximityBandAccept port readings s
  | .frameTx q h => Sys2Proof.Machine.execFrameTx q h s
  | .frameRxBuffer q => Sys2Proof.Machine.execFrameRxBuffer q s
  | .vehicleFrameRx port data fcs => Sys2Proof.Machine.execVehicleFrameRx port data fcs s
  | .vehicleFrameDelivery port ok => Sys2Proof.Machine.execVehicleFrameDelivery port ok s
  | .vehicleFrameSent port outcome => Sys2Proof.Machine.execVehicleFrameSent port outcome s
  | .modemStatusPoll port answer => Sys2Proof.Machine.execModemStatusPoll port answer s
  | .modemResetEnd port => Sys2Proof.Machine.execModemResetEnd port s
  | .modemIrq port answer crc => Sys2Proof.Machine.execModemIrq port answer crc s
  | .thermalStatus q => Sys2Proof.Machine.execThermalStatus q s
  | .latchClear q => Sys2Proof.Machine.execLatchClear q s
  | .aqauxSet q => Sys2Proof.Machine.execAqauxSet q s
  | .aqauxForceExpiry port => Sys2Proof.Machine.execAqauxForceExpiry port s
  | .thermalTick raw => Sys2Proof.Machine.execThermalTick raw s
  | .graceExpiry sensor => Sys2Proof.Machine.execGraceExpiry sensor s
  | .flowSecond pulses => Sys2Proof.Machine.execFlowSecond pulses s
  | .switchSet q => Sys2Proof.Machine.execSwitchSet q s
  | .switchStatus q => Sys2Proof.Machine.execSwitchStatus q s
  | .lockoutClear q => Sys2Proof.Machine.execLockoutClear q s
  | .inrushWindowEnd ch limiting => Sys2Proof.Machine.execInrushWindowEnd ch limiting s
  | .channelTrip ch cause ma => Sys2Proof.Machine.execChannelTrip ch cause ma s
  | .channelRetryWaitEnd ch => Sys2Proof.Machine.execChannelRetryWaitEnd ch s
  | .channelRetryClear ch => Sys2Proof.Machine.execChannelRetryClear ch s
  | .clampBudgetDrain vsup currents => Sys2Proof.Machine.execClampBudgetDrain vsup currents s
  | .freewheelMissing ch mv => Sys2Proof.Machine.execFreewheelMissing ch mv s
  | .supplyDip mv => Sys2Proof.Machine.execSupplyDip mv s
  | .dipEnd => Sys2Proof.Machine.execDipEnd s
  | .lsSupplyLoss => Sys2Proof.Machine.execLsSupplyLoss s
  | .lsSupplyRestore => Sys2Proof.Machine.execLsSupplyRestore s
  | .lsSelChange code => Sys2Proof.Machine.execLsSelChange code s
  | .stringStatus q => Sys2Proof.Machine.execStringStatus q s
  | .impedanceRead q => Sys2Proof.Machine.execImpedanceRead q s
  | .capacitySet q => Sys2Proof.Machine.execCapacitySet q s
  | .bseUpdate => Sys2Proof.Machine.execBseUpdate s
  | .restCorrection string => Sys2Proof.Machine.execRestCorrection string s
  | .estDriftEntry string => Sys2Proof.Machine.execEstDriftEntry string s
  | .bseJournalWrite => Sys2Proof.Machine.execBseJournalWrite s
  | .impedanceSave => Sys2Proof.Machine.execImpedanceSave s
  | .cellEstimate ma mv temp => Sys2Proof.Machine.execCellEstimate ma mv temp s
  | .cellStateMessage => Sys2Proof.Machine.execCellStateMessage s
  | .cellStateStale => Sys2Proof.Machine.execCellStateStale s
  | .energyRead q => Sys2Proof.Machine.execEnergyRead q s
  | .instantRead q => Sys2Proof.Machine.execInstantRead q s
  | .pulseConfig q h => Sys2Proof.Machine.execPulseConfig q h s
  | .sgmSample bits => Sys2Proof.Machine.execSgmSample bits s
  | .blockEnd => Sys2Proof.Machine.execBlockEnd s
  | .channelFault ch cause => Sys2Proof.Machine.execChannelFault ch cause s
  | .channelFaultClear ch => Sys2Proof.Machine.execChannelFaultClear ch s
  | .s0Pulse input onMs offMs on => Sys2Proof.Machine.execS0Pulse input onMs offMs on s
  | .saggarSupplyLoss cell bits => Sys2Proof.Machine.execSaggarSupplyLoss cell bits s
  | .batteryWindow bits => Sys2Proof.Machine.execBatteryWindow bits s
  | .saggarSupplyReturn => Sys2Proof.Machine.execSaggarSupplyReturn s
  | .settlingEnd => Sys2Proof.Machine.execSettlingEnd s
  | .cellCutoff mv => Sys2Proof.Machine.execCellCutoff mv s
  | .periodicSave => Sys2Proof.Machine.execPeriodicSave s
  | .saggarPowerOn sramOk badA badB => Sys2Proof.Machine.execSaggarPowerOn sramOk badA badB s
  | .measurementSummarySend => Sys2Proof.Machine.execMeasurementSummarySend s
  | .measurementSummary => Sys2Proof.Machine.execMeasurementSummary s
  | .registerRead q => Sys2Proof.Machine.execRegisterRead q s
  | .calendarWrite q h => Sys2Proof.Machine.execCalendarWrite q h s
  | .clockSet q h => Sys2Proof.Machine.execClockSet q h s
  | .tokenEnter q => Sys2Proof.Machine.execTokenEnter q s
  | .creditRead q => Sys2Proof.Machine.execCreditRead q s
  | .intervalRead q => Sys2Proof.Machine.execIntervalRead q s
  | .openMessage => Sys2Proof.Machine.execOpenMessage s
  | .closeMessage => Sys2Proof.Machine.execCloseMessage s
  | .resyncMessage => Sys2Proof.Machine.execResyncMessage s
  | .intervalClose => Sys2Proof.Machine.execIntervalClose s
  | .periodClose => Sys2Proof.Machine.execPeriodClose s
  | .calendarActivation badA badB => Sys2Proof.Machine.execCalendarActivation badA badB s
  | .tariffSwitch => Sys2Proof.Machine.execTariffSwitch s
  | .midnightSwitchList badA badB => Sys2Proof.Machine.execMidnightSwitchList badA badB s
  | .keypadToken digits => Sys2Proof.Machine.execKeypadToken digits s
  | .relayedToken => Sys2Proof.Machine.execRelayedToken s
  | .keypadLockoutEnd keypad => Sys2Proof.Machine.execKeypadLockoutEnd keypad s
  | .keyExport q => Sys2Proof.Machine.execKeyExport q s
  | .recordRead q => Sys2Proof.Machine.execRecordRead q s
  | .logRead q => Sys2Proof.Machine.execLogRead q s
  | .sealBeginOpen q h => Sys2Proof.Machine.execSealBeginOpen q h s
  | .sealBeginLoad q h => Sys2Proof.Machine.execSealBeginLoad q h s
  | .sealBeginClose q h => Sys2Proof.Machine.execSealBeginClose q h s
  | .sealBeginAbandon q h => Sys2Proof.Machine.execSealBeginAbandon q h s
  | .sealTimeout => Sys2Proof.Machine.execSealTimeout s
  | .saggarRollback => Sys2Proof.Machine.execSaggarRollback s
  | .shipAuthorise q h => Sys2Proof.Machine.execShipAuthorise q h s
  | .shipAuthLapse => Sys2Proof.Machine.execShipAuthLapse s
  | .identRead q => Sys2Proof.Machine.execIdentRead q s
  | .coverOpen => Sys2Proof.Machine.execCoverOpen s
  | .coverClose => Sys2Proof.Machine.execCoverClose s
  | .opticalRequest frame => Sys2Proof.Machine.execOpticalRequest frame s
  | .displayLine => Sys2Proof.Machine.execDisplayLine s
  | .belfryStatus q => Sys2Proof.Machine.execBelfryStatus q s
  | .nodeSend q => Sys2Proof.Machine.execNodeSend q s
  | .routeRead q => Sys2Proof.Machine.execRouteRead q s
  | .nodeJoin q => Sys2Proof.Machine.execNodeJoin q s
  | .zeroCrossing z => Sys2Proof.Machine.execZeroCrossing z s
  | .zeroCrossingMissed => Sys2Proof.Machine.execZeroCrossingMissed s
  | .belfryRequest => Sys2Proof.Machine.execBelfryRequest s
  | .belfryFrameRx => Sys2Proof.Machine.execBelfryFrameRx s
  | .answerTimeout => Sys2Proof.Machine.execAnswerTimeout s
  | .windowRead q bad => Sys2Proof.Machine.execWindowRead q bad s
  | .recorderStatus q => Sys2Proof.Machine.execRecorderStatus q s
  | .evrSample quantity => Sys2Proof.Machine.execEvrSample quantity s
  | .evrPeriodClose quantity => Sys2Proof.Machine.execEvrPeriodClose quantity s
  | .recordWrite bad => Sys2Proof.Machine.execRecordWrite bad s
  | .recordWriteDone => Sys2Proof.Machine.execRecordWriteDone s
  | .evrRestoreDone torn => Sys2Proof.Machine.execEvrRestoreDone torn s
  | .evrRefillDone idx => Sys2Proof.Machine.execEvrRefillDone idx s
  | .degradedExtremesSave => Sys2Proof.Machine.execDegradedExtremesSave s
  | .holdupRunOut => Sys2Proof.Machine.execHoldupRunOut s
  | .reserveReady => Sys2Proof.Machine.execReserveReady s
  | .lockStepPass link => Sys2Proof.Machine.execLockStepPass link s
  | .commaOffAlignment link => Sys2Proof.Machine.execCommaOffAlignment link s
  | .pcieLinkUp => Sys2Proof.Machine.execPcieLinkUp s
  | .tileStoreReady => Sys2Proof.Machine.execTileStoreReady s
  | .saggarRestartDone => Sys2Proof.Machine.execSaggarRestartDone s
  | .pwmPeriodStart ch => Sys2Proof.Machine.execPwmPeriodStart ch s
  | .msixUnmask fn vec => Sys2Proof.Machine.execMsixUnmask fn vec s

end Sys2Proof.Machine
end

