-- ==== Sys2Proof/WellFormed.lean ====
section
/-! DEFINITION. Which commands are well formed: every object number, index and list length an operand carries lies in the
range the manual gives the object. The meanings are total and do not rest on these checks. -/

namespace Sys2Proof

/-- A run of received 10-bit groups is no longer than its frame can be. -/
def LineFrame.wf (f : LineFrame) (n : Nat) : Bool := f.groups.length ≤ n && f.groups.all (fun g => g < 1024)

/-- An SQE is sixteen dwords and comes from a ring its function has (Table 03-1, Table 03-3). -/
def Sqe.wf (q : Sqe) : Bool := q.dw.length == 16 && (match q.fn with | .pf0 => q.sq < 64 | .pf1 => q.sq < 4)

/-- What a host-memory read returned fits the largest buffer, 1 MiB (R86). -/
def HostRead.wf : HostRead → Bool
  | .data b => b.length ≤ 1048576
  | .error => true

/-- Tile indices (R116). -/
def tilesWf (l : List Nat) : Bool := l.all (fun i => i < 65536)

/-- A ring number of a function (Table 03-1). -/
def ringWf (fn : Fn) (n : Nat) : Bool := match fn with | .pf0 => n < 64 | .pf1 => n < 4

/-- A vector of a function (R105). -/
def vecWf (fn : Fn) (n : Nat) : Bool := match fn with | .pf0 => n < 72 | .pf1 => n < 8

/-- A character of the keypad's UART. -/
def charWf (d : Nat) : Bool := d < 256

/-- A cycle's codes are 12-bit (R411). -/
def ZeroCross.wf (z : ZeroCross) : Bool := z.codes.all (fun c => c < 4096) && z.phase < 15625

/-- The checks of every command's operands. -/
def Instr.wf : Instr → Bool
  | .nop q => q.wf
  | .cqCreate q => q.wf
  | .sqCreate q => q.wf
  | .sqDelete q => q.wf
  | .cqDelete q => q.wf
  | .eventCqSet q => q.wf
  | .cqModerate q => q.wf
  | .identify q => q.wf
  | .abort q => q.wf
  | .hqeEnable _ => true
  | .hqeDisable _ => true
  | .sqTailDoorbell _ n size _ => n < 64 && 1 ≤ size && size ≤ 8
  | .cqHeadDoorbell _ n size _ => n < 64 && 1 ≤ size && size ≤ 8
  | .saggarMissClear => true
  | .pf1TunnelRead off size => off < 0x3000 && 1 ≤ size && size ≤ 8
  | .pf1TunnelWrite off size _ => off < 0x3000 && 1 ≤ size && size ≤ 8
  | .registerWrite _ bar off size _ => (bar < 6 || bar == 7) && off < 0x100000 && 1 ≤ size && size ≤ 8
  | .sqeFetch => true
  | .sqeForward fn sq => ringWf fn sq
  | .cqePost => true
  | .coalescingTimeExpiry fn cq => ringWf fn cq
  | .eventVectorHoldoffEnd fn vec => vecWf fn vec
  | .eventCqePost _ => true
  | .hostReadCompletion tag data _ _ => tag < 128 && data.length ≤ 4096
  | .dmaCompletionTimeout tag => tag < 128
  | .tunnelAnswer => true
  | .tunnelTimeout sq cid => sq < 4 && cid < 65536
  | .tileAlloc q => q.wf
  | .tileWrite q h => q.wf && h.wf
  | .tileClose q => q.wf
  | .tileRead q _ => q.wf
  | .tileFree q => q.wf
  | .pairRestore idx => idx < 65536
  | .streamOpen q => q.wf
  | .streamBuffer q => q.wf
  | .streamClose q bad => q.wf && tilesWf bad
  | .streamTileDelivery ch _ => ch < 16
  | .streamTileFlush ch => ch < 16
  | .streamBufferFlush ch => ch < 16
  | .configCommit q => q.wf
  | .commitValidationDone _ bad => tilesWf bad
  | .configAbort q => q.wf
  | .bisqueStore q _ bad => q.wf && tilesWf bad
  | .bisqueSlotWritten _ => true
  | .bisqueEnter q => q.wf
  | .shipEnter q => q.wf
  | .shipCancel => true
  | .timeSet q => q.wf
  | .slewEnd => true
  | .journalRead q => q.wf
  | .deviceReset q => q.wf
  | .deviceResetOrder => true
  | .updateStage q bad => q.wf && tilesWf bad
  | .updateStageDone _ => true
  | .updateSwitch q => q.wf
  | .updateRollback q => q.wf
  | .islandBankSwitch island => island < 9
  | .updateRestartReset => true
  | .trialEnd => true
  | .powerGood mv => mv < 65536
  | .powerFail => true
  | .holdupReady => true
  | .firmwareReadDone _ => true
  | .bisqueEntry _ => true
  | .islandReady island => island < 9
  | .watchdogMiss island => island < 9
  | .mainDieHoldEnd => true
  | .perstAssert => true
  | .perstDeassert => true
  | .saggarLinkFrame _ => true
  | .saggarLinkProbe => true
  | .sessionStart q => q.wf
  | .sessionStop q => q.wf
  | .sessionModify q => q.wf
  | .ledgerWrite q h => q.wf && h.wf
  | .ledgerRead q => q.wf
  | .planRead q => q.wf
  | .restRequest q => q.wf
  | .restExpiry string => string < 32
  | .epochBoundary bad => tilesWf bad
  | .replanComplete => true
  | .setpointGate bad => tilesWf bad
  | .writeWindowClose => true
  | .creditMessage => true
  | .kilnStatus q => q.wf
  | .coeffStage q bad => q.wf && tilesWf bad
  | .kilnCounts q => q.wf
  | .captureSet q => q.wf
  | .sampleFrame link rd sof groups => link < 64 && LineFrame.wf ⟨rd, sof :: groups⟩ 16
  | .frameMissing link => link < 64
  | .firing group _ _ => group < 64
  | .firingDeadline group => group < 64
  | .collectorSlot => true
  | .commandFrame link => link < 64
  | .groupStatus q => q.wf
  | .groupRelease q => q.wf
  | .groupCounts q => q.wf
  | .shedTick group => group < 64
  | .capacityDelivery group => group < 64
  | .groupRetryTimer group => group < 64
  | .groupRetryClear group => group < 64
  | .latchReport group => group < 64
  | .linkStatus q => q.wf
  | .linkRetrain q => q.wf
  | .linkMgmt q => q.wf
  | .linkDisable q => q.wf
  | .trainingAttempt link => link < 64
  | .trainingStepTimeout link => link < 64
  | .retrainDelay link => link < 64
  | .echoAnswer link f e => link < 64 && f.wf 2 && e < 65536
  | .mgmtFrame link rd groups => link < 64 && LineFrame.wf ⟨rd, groups⟩ 40
  | .mgmtSend link => link < 64
  | .mgmtTimeout link => link < 64
  | .codeError link g => link < 64 && g.group < 1024
  | .lossOfSignal link => link < 64
  | .portStatus q => q.wf
  | .pilotSet q => q.wf
  | .pilotChangeEffect port => port < 16
  | .pilotBandAccept port samples => port < 16 && samples.length ≤ 64 && samples.all (fun l => l.length ≤ 200)
  | .diodeFaultAccept port lows => port < 16 && lows.length ≤ 64 && lows.all (fun l => l.length ≤ 200)
  | .diodeFaultClear port lows => port < 16 && lows.length ≤ 64 && lows.all (fun l => l.length ≤ 200)
  | .proximityBandAccept port readings => port < 16 && readings.length ≤ 64 && readings.all (fun v => v < 65536)
  | .frameTx q h => q.wf && h.wf
  | .frameRxBuffer q => q.wf
  | .vehicleFrameRx port data fcs => port < 16 && data.length ≤ 4096 && fcs.length ≤ 4
  | .vehicleFrameDelivery port _ => port < 16
  | .vehicleFrameSent port _ => port < 16
  | .modemStatusPoll port _ => port < 16
  | .modemResetEnd port => port < 16
  | .modemIrq port answer crc => port < 16 && answer.length ≤ 4096 && crc.length ≤ 4
  | .thermalStatus q => q.wf
  | .latchClear q => q.wf
  | .aqauxSet q => q.wf
  | .aqauxForceExpiry port => port < 16
  | .thermalTick raw => raw.length == 152
  | .graceExpiry sensor => sensor < 152
  | .flowSecond pulses => pulses.length == 16
  | .switchSet q => q.wf
  | .switchStatus q => q.wf
  | .lockoutClear q => q.wf
  | .inrushWindowEnd ch _ => ch < 24
  | .channelTrip ch _ _ => ch < 24
  | .channelRetryWaitEnd ch => ch < 24
  | .channelRetryClear ch => ch < 24
  | .clampBudgetDrain _ currents => currents.length == 24
  | .freewheelMissing ch _ => ch < 24
  | .supplyDip mv => mv < 65536
  | .dipEnd => true
  | .lsSupplyLoss => true
  | .lsSupplyRestore => true
  | .lsSelChange code => code < 32
  | .stringStatus q => q.wf
  | .impedanceRead q => q.wf
  | .capacitySet q => q.wf
  | .bseUpdate => true
  | .restCorrection string => string < 32
  | .estDriftEntry string => string < 32
  | .bseJournalWrite => true
  | .impedanceSave => true
  | .cellEstimate _ mv _ => mv < 65536
  | .cellStateMessage => true
  | .cellStateStale => true
  | .energyRead q => q.wf
  | .instantRead q => q.wf
  | .pulseConfig q h => q.wf && h.wf
  | .sgmSample bits => bits.length == 40 && bits.all (fun b => b < 2 ^ 768)
  | .blockEnd => true
  | .channelFault ch _ => ch < 40
  | .channelFaultClear ch => ch < 40
  | .s0Pulse input _ _ _ => input < 8
  | .saggarSupplyLoss cell bits => cell.all (fun mv => mv < 65536) && bits.length == 40 && bits.all (fun b => b < 2 ^ 768)
  | .batteryWindow bits => bits.length == 240 && bits.all (fun l => l.length == 16 && l.all (fun b => b < 2 ^ 768))
  | .saggarSupplyReturn => true
  | .settlingEnd => true
  | .cellCutoff mv => mv < 65536
  | .periodicSave => true
  | .saggarPowerOn _ _ _ => true
  | .measurementSummarySend => true
  | .measurementSummary => true
  | .registerRead q => q.wf
  | .calendarWrite q h => q.wf && h.wf
  | .clockSet q h => q.wf && h.wf
  | .tokenEnter q => q.wf
  | .creditRead q => q.wf
  | .intervalRead q => q.wf
  | .openMessage => true
  | .closeMessage => true
  | .resyncMessage => true
  | .intervalClose => true
  | .periodClose => true
  | .calendarActivation _ _ => true
  | .tariffSwitch => true
  | .midnightSwitchList _ _ => true
  | .keypadToken digits => digits.length == 20 && digits.all charWf
  | .relayedToken => true
  | .keypadLockoutEnd keypad => keypad < 256
  | .keyExport q => q.wf
  | .recordRead q => q.wf
  | .logRead q => q.wf
  | .sealBeginOpen q h => q.wf && h.wf
  | .sealBeginLoad q h => q.wf && h.wf
  | .sealBeginClose q h => q.wf && h.wf
  | .sealBeginAbandon q h => q.wf && h.wf
  | .sealTimeout => true
  | .saggarRollback => true
  | .shipAuthorise q h => q.wf && h.wf
  | .shipAuthLapse => true
  | .identRead q => q.wf
  | .coverOpen => true
  | .coverClose => true
  | .opticalRequest frame => frame.length ≤ 70
  | .displayLine => true
  | .belfryStatus q => q.wf
  | .nodeSend q => q.wf
  | .routeRead q => q.wf
  | .nodeJoin q => q.wf
  | .zeroCrossing z => z.wf
  | .zeroCrossingMissed => true
  | .belfryRequest => true
  | .belfryFrameRx => true
  | .answerTimeout => true
  | .windowRead q bad => q.wf && tilesWf bad
  | .recorderStatus q => q.wf
  | .evrSample quantity => quantity < 128
  | .evrPeriodClose quantity => quantity < 128
  | .recordWrite _ => true
  | .recordWriteDone => true
  | .evrRestoreDone torn => tilesWf torn
  | .evrRefillDone idx => idx < 65536
  | .degradedExtremesSave => true
  | .holdupRunOut => true
  | .reserveReady => true
  | .lockStepPass link => link < 64
  | .commaOffAlignment link => link < 64
  | .pcieLinkUp => true
  | .tileStoreReady => true
  | .saggarRestartDone => true
  | .pwmPeriodStart ch => ch < 24
  | .msixUnmask fn vec => vecWf fn vec

end Sys2Proof
end

