-- ==== Sys2Proof/Safety.lean ====
section
/-! DEFINITION. What a safe run of the block is, in the terms the statements use: a command that answers a next state, a host
command that is taken and completes, and which parts of the state a command may change. -/

namespace Sys2Proof.Machine

open Sys2Proof

/-- The command answers a next state, and `P` holds of it. -/
def Answers (i : Instr) (s : State) (P : State → Prop) : Prop := ∃ t, exec i s = .next t ∧ P t

/-- The rings of a command still exist: its forwarded entry, if there is one, is no orphan (R100). -/
abbrev OwnedAs (fn : Fn) (sq cid : Nat) (s : State) : Prop := ∀ f ∈ s.hqe.fwd, f.is fn sq cid = true → f.orphan = false

/-- The command of an SQE can reach its island now, as the oldest of its SQ and subsystem on the way (R95), and its rings still exist. -/
abbrev Owned (q : Sqe) (s : State) : Prop := OwnedAs q.fn q.sq (cidOf q) s ∧ s.arrives q = true

/-- No read of a command's host buffer has failed (R102). -/
abbrev ReadsOk (q : Sqe) (s : State) : Prop := ∀ f ∈ s.hqe.fwd, f.is q.fn q.sq (cidOf q) = true → f.failed = false

/-- A host command of an opcode passes checks 1 to 4 of R515: its function and opcode, its ring, the device state and the
general SQE checks; it can reach its island and its rings exist. -/
abbrev Taken (op : Nat) (q : Sqe) (s : State) : Prop := preCheck op q s = none ∧ Owned q s

/-- A command has completed with a status and a result: its completion is the newest that waits to be posted, and every
other command's forwarded entry is as it was. -/
def CompletedAs (fn : Fn) (sq cid status result : Nat) (s t : State) : Prop :=
  (∃ quiet, t.hqe.ready = s.hqe.ready ++ [⟨fn, sq, cid, status, result, quiet, none⟩]) ∧
  t.hqe.fwd.filter (fun f => !f.is fn sq cid) = s.hqe.fwd.filter (fun f => !f.is fn sq cid)

/-- The command of an SQE has completed with a status and a result. -/
def Completed (q : Sqe) (status result : Nat) (s t : State) : Prop := CompletedAs q.fn q.sq (cidOf q) status result s t

/-- The command has been taken and has not completed: no completion was added, its forwarded entry is there, and every other
command's entry is as it was. -/
def Running (q : Sqe) (s t : State) : Prop :=
  t.hqe.ready = s.hqe.ready ∧ (∃ f ∈ t.hqe.fwd, f.is q.fn q.sq (cidOf q) = true) ∧
  t.hqe.fwd.filter (fun f => !f.is q.fn q.sq (cidOf q)) = s.hqe.fwd.filter (fun f => !f.is q.fn q.sq (cidOf q))

/-- Only the forwarded and the ready list of the HQE differ: no ring, register, vector or event entry of it has changed. -/
def RingsKept (s t : State) : Prop := t.hqe = { s.hqe with fwd := t.hqe.fwd, ready := t.hqe.ready }

/-- The bytes that a command returned in its host buffer are the only thing the device drove. -/
def Returned (q : Sqe) (bytes : List Byte) (t : State) : Prop := t.out = t.hostWrites q.fn (addrOf q) bytes

/-- A reading command's whole effect on the device: bytes written to its buffer and its completion. Every register, ring,
counter and memory of the device is as it was. -/
def ReadOnly (q : Sqe) (result : Nat) (bytes : List Byte) (s t : State) : Prop :=
  Completed q stDONE result s t ∧ Returned q bytes t ∧ RingsKept s t ∧ t = { s with hqe := t.hqe, out := t.out, cur := t.cur }

/-- A command completes with a status and a result and has no other effect: the device drives nothing, and no part of it changes but
the completion. -/
def OnlyCompletes (q : Sqe) (status result : Nat) (s t : State) : Prop :=
  Completed q status result s t ∧ t.out = [] ∧ RingsKept s t ∧ t = { s with hqe := t.hqe, out := t.out, cur := t.cur }

/-- One submission ring of a function replaced. -/
def FnState.withSq (n : Nat) (r : SqRing) (f : FnState) : FnState := { f with sqs := f.sqs.set n (some r) }

/-- One completion ring of a function replaced. -/
def FnState.withCq (n : Nat) (r : CqRing) (f : FnState) : FnState := { f with cqs := f.cqs.set n (some r) }

/-- A function's pending event entries once a CQ has taken an entry: one for each code and source while the event CQ is full (R107). -/
def FnState.settled (f : FnState) : FnState := if f.eventFull then { f with pendEv := mergeAll f.pendEv } else f

/-- No event entry and no ledger change waits for a command's completion (R24, R97). -/
abbrev NothingWaitsFor (c : Cqe) (s : State) : Prop :=
  (∀ u ∈ s.spa.unposted, ¬(c.fn = .pf0 ∧ u.sq = c.sq ∧ u.cid = c.cid)) ∧
  ∀ fn, ∀ e ∈ (s.fnOf fn).pendEv ++ (s.fnOf fn).held, (c.fn, c.sq, c.cid) ∉ e.after

/-- Only the queue state of one function has changed, beside the lists of forwarded and ready commands and the pins: the other
function's rings, the read tags and every other part of the device are as they were. -/
def OnlyFn (fn : Fn) (s t : State) : Prop :=
  (∀ g, g ≠ fn → t.fnOf g = s.fnOf g) ∧
  t.hqe = { s.hqe with f0 := t.hqe.f0, f1 := t.hqe.f1, fwd := t.hqe.fwd, ready := t.hqe.ready } ∧
  t = { s with hqe := t.hqe, out := t.out, cur := t.cur }

/-- A command's forwarded and ready entries are as they were: an event of the rings, not of a command. -/
def NoCommandMoved (s t : State) : Prop := t.hqe.fwd = s.hqe.fwd ∧ t.hqe.ready = s.hqe.ready

/-- Where a function's HQE registers stand in its BAR 0 (Tables 03-12, 03-13). -/
abbrev HqeBase (fn : Fn) : Nat := if fn = .pf0 then 0x1000 else 0x3000

/-- The event of a ring that has gone into fault (R88, Table 03-10): while the function is enabled and has an event CQ with room, the
entry of code 0x4101 on PF0, 0x0741 on PF1, with the ring as its source waits last; and the vector of the code fires, which is neither
masked nor held off. -/
abbrev FaultEvent (fn : Fn) (ring arg : Nat) (s t : State) : Prop :=
  let v := if fn = .pf0 then 65 else 7
  (s.fnOf fn).enable = true →
    ((s.fnOf fn).eventCq.isSome = true → (s.fnOf fn).eventFull = false → (t.fnOf fn).pendEv =
      (s.fnOf fn).pendEv ++ [⟨if fn = .pf0 then 0x4101 else 0x0741, 1, arg, ring, []⟩]) ∧
    (((s.fnOf fn).vec v).masked = false → ((s.fnOf fn).vec v).hold = false →
      t.out = [.msix fn v (((s.fnOf fn).vec v).addrHi.toNat * 2 ^ 32 + ((s.fnOf fn).vec v).addrLo.toNat) ((s.fnOf fn).vec v).data])

/-- Every other part of the device but the HQE, the tile store and the pins is as it was, and so are the rings. -/
def OnlyTiles (s t : State) : Prop :=
  RingsKept s t ∧ t = { s with hqe := t.hqe, tmf := t.tmf, out := t.out, cur := t.cur }

/-- The completions of a PF0 command's SQ and id that wait to be posted. -/
abbrev ReadyOf (q : Sqe) (s : State) : Nat :=
  (s.hqe.ready.filter (fun c => c.fn = .pf0 && c.sq == q.sq && c.cid == cidOf q)).length

/-- Only the site allocator differs, beside the lists of forwarded and ready commands and the pins. -/
def OnlySpa (s t : State) : Prop :=
  RingsKept s t ∧ t = { s with hqe := t.hqe, spa := t.spa, out := t.out, cur := t.cur }

/-- No gate bank of a lane has changed: no reference and no limit (R12). -/
def RefsKept (s t : State) : Prop := ∀ g, (t.lane g).bankRef = (s.lane g).bankRef ∧ (t.lane g).bankLim = (s.lane g).bankLim

/-- The high-plateau samples on which VPC accepts a pilot band (R247, R248): in STEADY the last five, in PWM all those of the last two
periods, one every 5 µs of the plateau; a change of the duty between the two does not restart the count. -/
abbrev Plateau (p : Port) (l : List (List Int)) (x : List Int) : Prop :=
  (p.pinMode = 0 ∧ x.length = 5 ∧ x <:+ l.flatten) ∨
  (p.pinMode = 1 ∧ ∃ before a b, l = before ++ [a, b] ∧ x = a ++ b ∧ b.length = (p.pinDuty - 15) / 5 + 1 ∧
    (a.length = (p.pinDuty - 15) / 5 + 1 ∨ a.length = (p.prevDuty - 15) / 5 + 1))

/-- The last two periods of low-plateau samples, all their samples there, under the duty in effect or, the earlier, the one before
(R249). -/
abbrev LowPlateaus (p : Port) (l : List (List Int)) : Prop :=
  ∃ before a b, l = before ++ [a, b] ∧ b.length = (1000 - p.pinDuty - 15) / 5 + 1 ∧
    (a.length = (1000 - p.pinDuty - 15) / 5 + 1 ∨ a.length = (1000 - p.prevDuty - 15) / 5 + 1)

/-- The command that waits next is no other input of a port, which might arrive in the same cycle and enter the same evaluation (R252,
R455; log entry 36). -/
abbrev NoInputNext (n : Nat) (s : State) : Prop :=
  ∀ i rest, s.pending = i :: rest → (∀ l, i ≠ .pilotBandAccept n l) ∧ (∀ l, i ≠ .diodeFaultAccept n l) ∧
    (∀ l, i ≠ .diodeFaultClear n l) ∧ (∀ l, i ≠ .proximityBandAccept n l)

/-- Only one phase link differs, beside the pins and the model's count of open values. -/
def OnlyLink (l : Nat) (s t : State) : Prop :=
  (∀ n, n ≠ l → t.link n = s.link n) ∧
  t = { s with pla := { s.pla with links := t.pla.links }, out := t.out, cur := none, free := t.free }

/-- The operands of a command over a range of objects (dword 1 first, dword 6 count): `n` of `total` objects, and a buffer of at
least `size` bytes for each. -/
abbrev RangeOf (q : Sqe) (n total size : Nat) : Prop :=
  bits (sd q 6) 6 0 = n ∧ 1 ≤ n ∧ sd q 1 < total ∧ sd q 1 + n ≤ total ∧ size * n ≤ sd q 4

/-- The operand ranges of SESSION_START and SESSION_MODIFY (Table 05-4, R166), for an object or index below `objs`. -/
abbrev SessionFields (q : Sqe) (objs : Nat) : Prop :=
  sd q 1 < objs ∧ ¬(bit (sd q 6) 4 = true ∧ bit (sd q 6) 3 = true) ∧ bits (sd q 6) 7 5 = 0 ∧ 1 ≤ bits (sd q 6) 15 8 ∧
  bits (sd q 6) 31 16 = 0 ∧ sd q 7 ≤ sd q 8 ∧ 1 ≤ sd q 8 ∧ sd q 8 ≤ 480000 ∧ max 1 (sd q 7) ≤ sd q 9 ∧ sd q 9 ≤ 480000

/-- What a load-switch output that turns on or off drives: the output, and LS_SENSE where it mirrors that channel: 1 mA per 2 A, at
most 6.0 mA, in nA (R295, R307). -/
def switchOut (n : Nat) (on : Bool) (s : State) : List Out :=
  .loadSwitch n on ::
    (if s.lsw.sensed = some n then [.sense (some n) (if on then min ((s.ch n).current * 500) 6000000 else 0)] else [])

/-- At most four load-switch channels are in INRUSH (R296), and a channel that TCM holds has its output off (R301). -/
abbrev LoadSwitchesOk (s : State) : Prop :=
  (s.lsw.chans.filter (fun c => c.st = .inrush)).length ≤ 4 ∧ ∀ c ∈ s.lsw.chans, c.held = true → c.outOn = false

/-- A host command that the Saggar answers: it passes checks 1 to 4 of R515, and the Saggar link and the Saggar run, on the image in
force. -/
abbrev SgTaken (op : Nat) (q : Sqe) (s : State) : Prop :=
  Taken op q s ∧ s.lnk.up = true ∧ s.sgm.runs = true ∧ s.mss.restarting = false

/-- A host command reaches the Saggar while it restarts on another image: it waits there, with its host buffer, and is neither checked
nor answered before the restart ends (R381; log entry 27). -/
def SgWaits (q : Sqe) (b : List Byte) (s t : State) : Prop :=
  Running q s t ∧ RingsKept s t ∧ t = { s with
    hqe := t.hqe, mss := { s.mss with waiting := s.mss.waiting ++ [(q, b)] }
    lnk := s.lnk.sessionFirst true, out := t.out, cur := t.cur }

/-- The Saggar's answer to a command is on its way: a status, a result and the bytes for the command's buffer. The command is
forwarded and has not completed yet; no ring, register or event entry of the HQE has changed, and nothing is driven. -/
def SgAnswered (q : Sqe) (status result : Nat) (buf : List Byte) (s t : State) : Prop :=
  (∃ f ∈ t.hqe.fwd, f.is q.fn q.sq (cidOf q) = true) ∧
  t.hqe.fwd.filter (fun f => !f.is q.fn q.sq (cidOf q)) = s.hqe.fwd.filter (fun f => !f.is q.fn q.sq (cidOf q)) ∧
  t.hqe = { s.hqe with
    fwd := t.hqe.fwd, answers := s.hqe.answers ++ [⟨q.sq, cidOf q, status, result, addrOf q, buf⟩] } ∧ t.out = []

/-- The Saggar's answer is a command's only effect, beside the session-crossing messages that reached the Saggar before the command
did (R43). -/
def SgOnlyAnswers (q : Sqe) (status result : Nat) (buf : List Byte) (s t : State) : Prop :=
  SgAnswered q status result buf s t ∧
  t = { s with hqe := t.hqe, lnk := s.lnk.sessionFirst true, out := t.out, cur := t.cur }

/-- One sample of port `n` at converted voltage `v` and current `i`, from `g` to `u` (R318): v × i joins the residue of the delivered or
the received register, by its sign, and whole µWh move to the accumulator; nothing is added below the starting current, or while the
port is not measured. -/
def PortSampled (n : Nat) (v i : Int) (g u : Sgm) : Prop :=
  (g.measures n = true → calStart g.cal (16 + n) ≤ i.natAbs → 0 ≤ v * i →
    u.acc.getD n 0 = g.acc.getD n 0 + (g.res.getD n 0 + (v * i).toNat) / 28800000 ∧
    u.res.getD n 0 = (g.res.getD n 0 + (v * i).toNat) % 28800000 ∧
    u.acc.getD (16 + n) 0 = g.acc.getD (16 + n) 0 ∧ u.res.getD (16 + n) 0 = g.res.getD (16 + n) 0) ∧
  (g.measures n = true → calStart g.cal (16 + n) ≤ i.natAbs → v * i < 0 →
    u.acc.getD (16 + n) 0 = g.acc.getD (16 + n) 0 + (g.res.getD (16 + n) 0 + (v * i).natAbs) / 28800000 ∧
    u.res.getD (16 + n) 0 = (g.res.getD (16 + n) 0 + (v * i).natAbs) % 28800000 ∧
    u.acc.getD n 0 = g.acc.getD n 0 ∧ u.res.getD n 0 = g.res.getD n 0) ∧
  ((g.measures n = false ∨ i.natAbs < calStart g.cal (16 + n)) →
    u.acc.getD n 0 = g.acc.getD n 0 ∧ u.res.getD n 0 = g.res.getD n 0 ∧
    u.acc.getD (16 + n) 0 = g.acc.getD (16 + n) 0 ∧ u.res.getD (16 + n) 0 = g.res.getD (16 + n) 0)

/-- The newest save of the Saggar's NVM is of a kind and a time, and holds SGM's accumulators and residues (R336). -/
def SavedNow (kind time : Nat) (t : State) : Prop :=
  ∃ x, t.sgm.newest = some x ∧ x.2.kind = kind ∧ x.2.time = time ∧ x.2.acc = t.sgm.acc ∧ x.2.res = t.sgm.res

/-- A legal answer (R18, R377): content with its signature trailer, under the next answer number and the command's nonce. Of
the Saggar's state only the answer number has advanced, and `g` of SGM. -/
def SgLegal (q : Sqe) (result : Nat) (content : List Byte) (g : Sgm) (s t : State) : Prop :=
  SgAnswered q stDONE result (signed 0 ((s.mss.answerSeq + 1) % 2 ^ 32) (sd q 5) content s) s t ∧
  t = { s with
    hqe := t.hqe, sgm := g, mss := { s.mss with answerSeq := (s.mss.answerSeq + 1) % 2 ^ 32 }
    lnk := s.lnk.sessionFirst true, out := t.out, cur := t.cur }

/-- A command has completed with a status and a result, and its completion is the last that waits to be posted. -/
def Finished (q : Sqe) (status result : Nat) (t : State) : Prop :=
  ∃ quiet, t.hqe.ready.getLast? = some ⟨q.fn, q.sq, cidOf q, status, result, quiet, none⟩

/-- The completion of a command of PF0 waits to be posted. -/
def Posted (sq cid status result : Nat) (t : State) : Prop :=
  ∃ c ∈ t.hqe.ready, c.fn = .pf0 ∧ c.sq = sq ∧ c.cid = cid ∧ c.status = status ∧ c.result = result

/-- The main-die islands are at reset: no configuration in force, no command in hand, no session, lane, group, link, port,
string or node in any state but that of reset, the ports' pilot drivers in a mode (R35, R40, R258). -/
def IslandsAtReset (pin : Nat) (t : State) : Prop :=
  t.cfg = none ∧ t.hqe.fwd = [] ∧ t.hqe.ready = [] ∧ t.spa = Spa.reset ∧ t.kce = Kce.reset ∧ t.psc = Psc.reset ∧
  t.pla = Pla.reset ∧ t.vpc = ⟨List.replicate 16 { Port.reset with pinMode := pin }, none⟩ ∧ t.bse = Bse.reset ∧ t.blk = Blk.reset

/-- Nothing of the Saggar has changed (R14, R310). -/
def SaggarKept (s t : State) : Prop := t.sgm = s.sgm ∧ t.bte = s.bte ∧ t.mss = s.mss ∧ t.cell = s.cell

/-- The main die's loss has changed nothing of the Saggar but that no command waits in it any more (R14, R310). -/
def SaggarUnasked (s t : State) : Prop :=
  t.sgm = s.sgm ∧ t.bte = s.bte ∧ t.mss = { s.mss with waiting := [] } ∧ t.cell = s.cell

/-- Only the Spire differs, beside the pins. -/
def OnlySup (s t : State) : Prop := t = { s with sup := t.sup, out := [], cur := none }

/-- The opcode and the SQE of a host command; none for a command of any other kind. -/
def hostOf : Instr → Option (Nat × Sqe)
  | .nop q => some (0x00, q)
  | .cqCreate q => some (0x01, q)
  | .sqCreate q => some (0x02, q)
  | .sqDelete q => some (0x03, q)
  | .cqDelete q => some (0x04, q)
  | .eventCqSet q => some (0x05, q)
  | .cqModerate q => some (0x06, q)
  | .identify q => some (0x07, q)
  | .abort q => some (0x08, q)
  | .tileAlloc q => some (0x10, q)
  | .tileWrite q _ => some (0x11, q)
  | .tileClose q => some (0x12, q)
  | .tileRead q _ => some (0x13, q)
  | .tileFree q => some (0x14, q)
  | .streamOpen q => some (0x15, q)
  | .streamBuffer q => some (0x16, q)
  | .streamClose q _ => some (0x17, q)
  | .configCommit q => some (0x18, q)
  | .configAbort q => some (0x19, q)
  | .bisqueStore q _ _ => some (0x1A, q)
  | .bisqueEnter q => some (0x92, q)
  | .shipEnter q => some (0x93, q)
  | .timeSet q => some (0x90, q)
  | .journalRead q => some (0x91, q)
  | .deviceReset q => some (0x97, q)
  | .updateStage q _ => some (0x94, q)
  | .updateSwitch q => some (0x95, q)
  | .updateRollback q => some (0x96, q)
  | .sessionStart q => some (0x40, q)
  | .sessionStop q => some (0x41, q)
  | .sessionModify q => some (0x42, q)
  | .ledgerWrite q _ => some (0x43, q)
  | .ledgerRead q => some (0x44, q)
  | .planRead q => some (0x45, q)
  | .restRequest q => some (0x46, q)
  | .kilnStatus q => some (0x30, q)
  | .coeffStage q _ => some (0x31, q)
  | .kilnCounts q => some (0x32, q)
  | .captureSet q => some (0x33, q)
  | .groupStatus q => some (0x24, q)
  | .groupRelease q => some (0x25, q)
  | .groupCounts q => some (0x26, q)
  | .linkStatus q => some (0x20, q)
  | .linkRetrain q => some (0x21, q)
  | .linkMgmt q => some (0x22, q)
  | .linkDisable q => some (0x23, q)
  | .portStatus q => some (0x50, q)
  | .pilotSet q => some (0x51, q)
  | .frameTx q _ => some (0x52, q)
  | .frameRxBuffer q => some (0x53, q)
  | .thermalStatus q => some (0x60, q)
  | .latchClear q => some (0x61, q)
  | .aqauxSet q => some (0x62, q)
  | .switchSet q => some (0x68, q)
  | .switchStatus q => some (0x69, q)
  | .lockoutClear q => some (0x6A, q)
  | .stringStatus q => some (0x70, q)
  | .impedanceRead q => some (0x71, q)
  | .capacitySet q => some (0x72, q)
  | .energyRead q => some (0xA0, q)
  | .instantRead q => some (0xA1, q)
  | .pulseConfig q _ => some (0xA2, q)
  | .registerRead q => some (0xB0, q)
  | .calendarWrite q _ => some (0xB1, q)
  | .clockSet q _ => some (0xB2, q)
  | .tokenEnter q => some (0xB3, q)
  | .creditRead q => some (0xB4, q)
  | .intervalRead q => some (0xB5, q)
  | .keyExport q => some (0xC0, q)
  | .recordRead q => some (0xC1, q)
  | .logRead q => some (0xC2, q)
  | .sealBeginOpen q _ => some (0xC3, q)
  | .sealBeginLoad q _ => some (0xC3, q)
  | .sealBeginClose q _ => some (0xC3, q)
  | .sealBeginAbandon q _ => some (0xC3, q)
  | .shipAuthorise q _ => some (0xC4, q)
  | .identRead q => some (0xC5, q)
  | .belfryStatus q => some (0x78, q)
  | .nodeSend q => some (0x79, q)
  | .routeRead q => some (0x7A, q)
  | .nodeJoin q => some (0x7B, q)
  | .windowRead q _ => some (0x80, q)
  | .recorderStatus q => some (0x81, q)
  | _ => none

end Sys2Proof.Machine
end

