-- ==== Sys2Proof/Certificates/Slice0/Obligations.lean ====
section
/-! DEFINITION. The statements for the provers: one definition for each obligation. -/

open Sys2Proof Sys2Proof.Machine

/-! ### The queue of waiting commands and the clock -/

/-- A step with a command at the front of the queue is that command's effect with the queue's rest.
That commands wait in a queue, first in, first out, is log entry 1 (DESIGN CHOICE): the model's choice. -/
def Obligations.FrontCommandRuns : Prop :=
  ∀ (c : Instr) (rest : List Instr) (s : State), s.pending = c :: rest → step s = exec c { s with pending := rest }

/-- With no command waiting, a step is one microsecond (the model's choice, log entry 2): the Spire's time advances by one;
S-time too, where it is known and no slew runs (R508); the main die's uptime while it runs; the Saggar's uptime while it has
supply. Nothing else changes but the counters of a trial, of a slew and of ship mode. -/
def Obligations.IdleStepIsOneMicrosecond : Prop :=
  ∀ s : State, s.pending = [] → ∃ t, step s = .next t ∧
    t.sup.spireTime = s.sup.spireTime + 1 ∧
    (s.sup.slew = none → t.sup.stime = s.sup.stime.map (· + 1)) ∧
    t.sup.uptime = (if s.sup.powered % 128 ≠ 0 ∧ s.sup.held = false then s.sup.uptime + 1 else s.sup.uptime) ∧
    t.bte = { s.bte with up := if s.sgm.mode = .off then s.bte.up else s.bte.up + 1 } ∧
    t.sup = { s.sup with spireTime := t.sup.spireTime, stime := t.sup.stime, slew := t.sup.slew,
                         uptime := t.sup.uptime, trialLeft := t.sup.trialLeft, shipLeft := t.sup.shipLeft } ∧
    t = { s with sup := t.sup, bte := t.bte, out := [], cur := none }

/-! ### Host queues -/

/-- NOP completes with dword 6 echoed and IDENTIFY writes its 4 KiB record; neither changes anything else. -/
def Claim.NopAndIdentify : Prop :=
  (∀ (q : Sqe) (s : State), Taken 0x00 q s → Answers (.nop q) s (OnlyCompletes q stDONE (sd q 6) s)) ∧
  (∀ (q : Sqe) (s : State), Taken 0x07 q s → sd q 4 = 4096 →
    Answers (.identify q) s (fun t => ∃ b, b.length = 4096 ∧ ReadOnly q 0 b s t))

/-- Ring management (Table 03-2): a CQ and an SQ come into existence empty with the base, size and settings given; a CQ with
no SQ bound to it that is not the event CQ is deleted; CQ_MODERATE's completion carries the CQ's new count and time. No other ring, and
nothing of the other function, changes; moderation takes effect when its own completion is posted (R109).
Each of these commands is shown to complete, that is, to answer a next state with its own effect: cqCreate,
sqCreate, cqDelete, cqModerate. -/
def Obligations.RingManagement : Prop :=
  (∀ (q : Sqe) (s : State), Taken 0x01 q s → addrOf q % 4096 = 0 → 1 ≤ bits (sd q 6) 7 0 →
    bits (sd q 6) 7 0 < (s.fnOf q.fn).cqs.length → (s.fnOf q.fn).cq (bits (sd q 6) 7 0) = none →
    4 ≤ bits (sd q 6) 19 16 → bits (sd q 6) 19 16 ≤ 12 → 1 ≤ bits (sd q 7) 7 0 → bits (sd q 7) 25 16 ≤ 1000 →
    Answers (.cqCreate q) s (fun t => Completed q stDONE 0 s t ∧ t.out = [] ∧ OnlyFn q.fn s t ∧
      t.fnOf q.fn = (s.fnOf q.fn).withCq (bits (sd q 6) 7 0)
        { base := addrOf q, k := bits (sd q 6) 19 16, head := 0, tail := 0, phase := true, ie := bit (sd q 6) 24
          count := bits (sd q 7) 7 0, time := bits (sd q 7) 25 16, fresh := 0, timing := false, fault := false })) ∧
  (∀ (q : Sqe) (s : State), Taken 0x02 q s → addrOf q % 4096 = 0 → 1 ≤ bits (sd q 6) 7 0 →
    bits (sd q 6) 7 0 < (s.fnOf q.fn).sqs.length → (s.fnOf q.fn).sq (bits (sd q 6) 7 0) = none →
    4 ≤ bits (sd q 6) 19 16 → bits (sd q 6) 19 16 ≤ 12 → ((s.fnOf q.fn).cq (bits (sd q 7) 7 0)).isSome →
    Answers (.sqCreate q) s (fun t => Completed q stDONE 0 s t ∧ t.out = [] ∧ OnlyFn q.fn s t ∧
      t.fnOf q.fn = (s.fnOf q.fn).withSq (bits (sd q 6) 7 0)
        { base := addrOf q, k := bits (sd q 6) 19 16, cq := bits (sd q 7) 7 0, head := 0, tail := 0, fault := false
          deleting := false, fetched := [] })) ∧
  (∀ (q : Sqe) (s : State), Taken 0x04 q s → 1 ≤ bits (sd q 6) 7 0 → ((s.fnOf q.fn).cq (bits (sd q 6) 7 0)).isSome →
    (∀ n r, (s.fnOf q.fn).sqs.getD n none = some r → r.cq ≠ bits (sd q 6) 7 0) →
    (s.fnOf q.fn).eventCq ≠ some (bits (sd q 6) 7 0) →
    Answers (.cqDelete q) s (fun t => Completed q stDONE 0 s t ∧ t.out = [] ∧ OnlyFn q.fn s t ∧
      t.fnOf q.fn = { s.fnOf q.fn with cqs := (s.fnOf q.fn).cqs.set (bits (sd q 6) 7 0) none })) ∧
  (∀ (q : Sqe) (s : State) (r : CqRing), Taken 0x06 q s → (s.fnOf q.fn).cq (bits (sd q 6) 7 0) = some r →
    1 ≤ bits (sd q 7) 7 0 → bits (sd q 7) 25 16 ≤ 1000 →
    Answers (.cqModerate q) s (fun t => (∃ quiet, t.hqe.ready = s.hqe.ready ++ [⟨q.fn, q.sq, cidOf q, stDONE, 0, quiet,
        some (.moderates (bits (sd q 6) 7 0) (bits (sd q 7) 7 0) (bits (sd q 7) 25 16))⟩]) ∧
      t.hqe.fwd.filter (fun f => !f.is q.fn q.sq (cidOf q)) = s.hqe.fwd.filter (fun f => !f.is q.fn q.sq (cidOf q)) ∧
      t.out = [] ∧ OnlyFn q.fn s t ∧ t.fnOf q.fn = s.fnOf q.fn))

/-- R82: a ring management command from any SQ but SQ 0 completes with BAD_STATE and changes nothing. -/
def Obligations.RingManagementFromSqZeroOnly : Prop :=
  ∀ (i : Instr) (q : Sqe) (s : State), Owned q s → q.sq ≠ 0 →
    ((i = .cqCreate q ∧ opOf q = 0x01) ∨ (i = .sqCreate q ∧ opOf q = 0x02) ∨ (i = .sqDelete q ∧ opOf q = 0x03) ∨
     (i = .cqDelete q ∧ opOf q = 0x04) ∨ (i = .eventCqSet q ∧ opOf q = 0x05) ∨ (i = .cqModerate q ∧ opOf q = 0x06)) →
    Answers i s (OnlyCompletes q stBAD_STATE 0 s)

/-- SQ_DELETE and ABORT (R83, R84). A delete aborts every fetched command that was not forwarded, in order, and its own
completion waits behind the SQ's others; an abort takes one unforwarded command out, its own completion behind that command's, and
answers notes 1 and 2 for a command that was forwarded or is not found; one that an earlier abort or delete took out is not found.
What becomes of a command not yet fetched at SQ_DELETE, and what its own and an ABORT's completion wait for, is log entry 7: the model's
choice. -/
def Claim.DeleteAndAbort : Prop :=
  (∀ (q : Sqe) (s : State) (r : SqRing), Taken 0x03 q s → 1 ≤ bits (sd q 6) 7 0 →
    (s.fnOf q.fn).sq (bits (sd q 6) 7 0) = some r → r.deleting = false →
    Answers (.sqDelete q) s (fun t =>
      let gone := r.fetched.filterMap (fun e => e.dw)
      t.hqe.ready = s.hqe.ready ++
        gone.map (fun dw => ⟨q.fn, bits (sd q 6) 7 0, cidOf ⟨q.fn, bits (sd q 6) 7 0, dw⟩, stABORTED_DELETE, 0,
          quietOf ⟨q.fn, bits (sd q 6) 7 0, dw⟩, none⟩) ++
        [⟨q.fn, q.sq, cidOf q, stDONE, gone.length, quietOf q, some (.sqGone (bits (sd q 6) 7 0))⟩] ∧
      t.fnOf q.fn = (s.fnOf q.fn).withSq (bits (sd q 6) 7 0) { r with deleting := true, fetched := [] } ∧
      t.out = [] ∧ (∀ g, g ≠ q.fn → t.fnOf g = s.fnOf g) ∧ t = { s with hqe := t.hqe, cur := t.cur, out := t.out })) ∧
  (∀ (q : Sqe) (s : State) (r : SqRing) (dw : List Word) (idx : Nat) (rest : List Fetched), Taken 0x08 q s →
    (s.fnOf q.fn).sq (bits (sd q 6) 7 0) = some r →
    takeFirst (Fetched.is q.fn (bits (sd q 6) 7 0) (bits (sd q 6) 31 16)) r.fetched = some (⟨idx, some dw⟩, rest) →
    Answers (.abort q) s (fun t => t.out = [] ∧ OnlyFn q.fn s t ∧
      (∃ quiet, t.hqe.ready = s.hqe.ready ++
        [⟨q.fn, bits (sd q 6) 7 0, bits (sd q 6) 31 16, stABORTED_HOST, 0, quietOf ⟨q.fn, bits (sd q 6) 7 0, dw⟩, none⟩,
         ⟨q.fn, q.sq, cidOf q, stDONE, 0, quiet, some (.aborted (bits (sd q 6) 7 0) (bits (sd q 6) 31 16))⟩]) ∧
      t.fnOf q.fn = (s.fnOf q.fn).withSq (bits (sd q 6) 7 0) { r with fetched := rest })) ∧
  (∀ (q : Sqe) (s : State) (r : SqRing), Taken 0x08 q s → (s.fnOf q.fn).sq (bits (sd q 6) 7 0) = some r →
    takeFirst (Fetched.is q.fn (bits (sd q 6) 7 0) (bits (sd q 6) 31 16)) r.fetched = none →
    (∃ f ∈ s.hqe.fwd, f.is q.fn (bits (sd q 6) 7 0) (bits (sd q 6) 31 16) = true) →
    Answers (.abort q) s (OnlyCompletes q stDONE_NOTE 1 s)) ∧
  (∀ (q : Sqe) (s : State) (r : SqRing), Taken 0x08 q s → (s.fnOf q.fn).sq (bits (sd q 6) 7 0) = some r →
    takeFirst (Fetched.is q.fn (bits (sd q 6) 7 0) (bits (sd q 6) 31 16)) r.fetched = none →
    (∀ f ∈ s.hqe.fwd, f.is q.fn (bits (sd q 6) 7 0) (bits (sd q 6) 31 16) = false) →
    (∀ c ∈ s.hqe.ready, c.fn = q.fn → c.sq = bits (sd q 6) 7 0 → c.cid = bits (sd q 6) 31 16 →
      c.status = stABORTED_HOST ∨ c.status = stABORTED_DELETE) →
    ¬(q.sq = bits (sd q 6) 7 0 ∧ cidOf q = bits (sd q 6) 31 16) →
    Answers (.abort q) s (OnlyCompletes q stDONE_NOTE 2 s))

/-- EVENT_CQ_SET (R106, R107, R514): the result is the previous event CQ or 0xFF. A CQ named takes the entries held and the
entries pending, held first; `none` discards both. -/
def Claim.EventCqSet : Prop :=
  (∀ (q : Sqe) (s : State), Taken 0x05 q s → bit (sd q 6) 8 = false → ((s.fnOf q.fn).cq (bits (sd q 6) 7 0)).isSome →
    Answers (.eventCqSet q) s (fun t => Completed q stDONE ((s.fnOf q.fn).eventCq.getD 0xFF) s t ∧ t.out = [] ∧
      OnlyFn q.fn s t ∧ t.fnOf q.fn = { s.fnOf q.fn with
        eventCq := some (bits (sd q 6) 7 0), pendEv := (s.fnOf q.fn).held ++ (s.fnOf q.fn).pendEv, held := [] })) ∧
  (∀ (q : Sqe) (s : State), Taken 0x05 q s → bit (sd q 6) 8 = true →
    Answers (.eventCqSet q) s (fun t => Completed q stDONE ((s.fnOf q.fn).eventCq.getD 0xFF) s t ∧ t.out = [] ∧
      OnlyFn q.fn s t ∧ t.fnOf q.fn = { s.fnOf q.fn with eventCq := none, pendEv := [], held := [] }))

/-- HQE_CTRL.enable (R79, R100, R115). Writing 1 clears HQE_FAULT_INFO and creates ring 0 from the admin registers, its CQ with
interrupt enable 1, count 1 and time 0; with a size outside 4 to 12 enable stays 0 and the cause is 5. Writing 0 ends every ring
of the function, and its events; of its commands only those an island has accepted go on, as orphans. -/
def Claim.EnableAndDisable : Prop :=
  (∀ (fn : Fn) (s : State), s.hiUp = true → (s.fnOf fn).enable = false →
    4 ≤ bits (s.fnOf fn).adminSize.toNat 3 0 → bits (s.fnOf fn).adminSize.toNat 3 0 ≤ 12 →
    4 ≤ bits (s.fnOf fn).adminSize.toNat 11 8 → bits (s.fnOf fn).adminSize.toNat 11 8 ≤ 12 →
    Answers (.hqeEnable fn) s (fun t => OnlyFn fn s t ∧ NoCommandMoved s t ∧
      t.fnOf fn = { s.fnOf fn with
        enable := true, faultInfo := 0, vecs := (t.fnOf fn).vecs
        sqs := (s.fnOf fn).sqs.set 0 (some
          { base := (s.fnOf fn).asqHi.toNat * 2 ^ 32 + (s.fnOf fn).asqLo.toNat, k := bits (s.fnOf fn).adminSize.toNat 3 0
            cq := 0, head := 0, tail := 0, fault := false, deleting := false, fetched := [] })
        cqs := (s.fnOf fn).cqs.set 0 (some
          { base := (s.fnOf fn).acqHi.toNat * 2 ^ 32 + (s.fnOf fn).acqLo.toNat, k := bits (s.fnOf fn).adminSize.toNat 11 8
            head := 0, tail := 0, phase := true, ie := true, count := 1, time := 0, fresh := 0, timing := false
            fault := false }) })) ∧
  (∀ (fn : Fn) (s : State), s.hiUp = true → (s.fnOf fn).enable = false →
    ¬(4 ≤ bits (s.fnOf fn).adminSize.toNat 3 0 ∧ bits (s.fnOf fn).adminSize.toNat 3 0 ≤ 12 ∧
      4 ≤ bits (s.fnOf fn).adminSize.toNat 11 8 ∧ bits (s.fnOf fn).adminSize.toNat 11 8 ≤ 12) →
    Answers (.hqeEnable fn) s (fun t => OnlyFn fn s t ∧ NoCommandMoved s t ∧ t.out = [] ∧
      t.fnOf fn = { s.fnOf fn with faultInfo := 5 })) ∧
  (∀ (fn : Fn) (s : State), s.hiUp = true →
    Answers (.hqeDisable fn) s (fun t =>
      (t.fnOf fn).enable = false ∧ (∀ n, (t.fnOf fn).sq n = none ∧ (t.fnOf fn).cq n = none) ∧
      (t.fnOf fn).eventCq = none ∧ (t.fnOf fn).pendEv = [] ∧ (t.fnOf fn).held = [] ∧
      (∀ c ∈ t.hqe.ready, c.fn ≠ fn) ∧ (∀ f ∈ t.hqe.fwd, f.fn = fn → f.accepted = true ∧ f.orphan = true) ∧
      (∀ g, g ≠ fn → t.fnOf g = s.fnOf g) ∧ (∀ n, t.lane n = s.lane n ∨ t.lane n = { s.lane n with capture := none }) ∧
      t.sup = { s.sup with posting := if fn = .pf0 then none else s.sup.posting } ∧
      t.spa = { s.spa with unposted := if fn = .pf0 then [] else s.spa.unposted } ∧
      t = { s with
        hqe := t.hqe, tmf := t.tmf, sup := t.sup, spa := t.spa, kce := { s.kce with groups := t.kce.groups }, out := [], cur := none }))

/-- Doorbells (R88). A new tail or head in range is stored. A value of 2^k or more, and a CQ head outside head to tail, put the
ring in fault with its cause and post an event on the ring's own function, of code 0x4101 on PF0 and 0x0741 on PF1, whose source is
the ring and whose vector fires. A doorbell of a ring that does not exist is recorded with cause 2. A write of the current index, or
of a size other than 4, has no effect. -/
def Claim.Doorbells : Prop :=
  (∀ (fn : Fn) (n : Nat) (val : Word) (s : State) (r : SqRing), s.hiUp = true → s.hqeReady = true →
    n < (s.fnOf fn).sqs.length → (s.fnOf fn).sq n = some r → r.fault = false →
    bits val.toNat 15 0 ≠ r.tail → bits val.toNat 15 0 < 2 ^ r.k →
    Answers (.sqTailDoorbell fn n 4 val) s (fun t => OnlyFn fn s t ∧ NoCommandMoved s t ∧ t.out = [] ∧
      t.fnOf fn = (s.fnOf fn).withSq n { r with tail := bits val.toNat 15 0 })) ∧
  (∀ (fn : Fn) (n : Nat) (val : Word) (s : State) (r : SqRing), s.hiUp = true → s.hqeReady = true →
    n < (s.fnOf fn).sqs.length → (s.fnOf fn).sq n = some r → r.fault = false →
    bits val.toNat 15 0 ≠ r.tail → 2 ^ r.k ≤ bits val.toNat 15 0 →
    Answers (.sqTailDoorbell fn n 4 val) s (fun t => OnlyFn fn s t ∧ NoCommandMoved s t ∧ FaultEvent fn n 1 s t ∧
      (t.fnOf fn).faultInfo = BitVec.ofNat 32 (n % 256 * 2 ^ 16 + 1) ∧ (t.fnOf fn).cqs = (s.fnOf fn).cqs ∧
      (t.fnOf fn).sqs = (s.fnOf fn).sqs.set n (some { r with fault := true }))) ∧
  (∀ (fn : Fn) (n : Nat) (val : Word) (s : State) (r : CqRing), s.hiUp = true → s.hqeReady = true →
    n < (s.fnOf fn).cqs.length → (s.fnOf fn).cq n = some r → r.fault = false → r.head < 2 ^ r.k → r.tail < 2 ^ r.k →
    bits val.toNat 15 0 ≠ r.head → bits val.toNat 15 0 < 2 ^ r.k →
    (bits val.toNat 15 0 + 2 ^ r.k - r.head) % 2 ^ r.k ≤ (r.tail + 2 ^ r.k - r.head) % 2 ^ r.k →
    Answers (.cqHeadDoorbell fn n 4 val) s (fun t => OnlyFn fn s t ∧ NoCommandMoved s t ∧ t.out = [] ∧
      t.fnOf fn = (s.fnOf fn).withCq n { r with head := bits val.toNat 15 0 })) ∧
  (∀ (fn : Fn) (n : Nat) (val : Word) (s : State) (r : CqRing), s.hiUp = true → s.hqeReady = true →
    n < (s.fnOf fn).cqs.length → (s.fnOf fn).cq n = some r → r.fault = false → r.head < 2 ^ r.k → r.tail < 2 ^ r.k →
    bits val.toNat 15 0 ≠ r.head →
    (2 ^ r.k ≤ bits val.toNat 15 0 ∨
      (r.tail + 2 ^ r.k - r.head) % 2 ^ r.k < (bits val.toNat 15 0 + 2 ^ r.k - r.head) % 2 ^ r.k) →
    Answers (.cqHeadDoorbell fn n 4 val) s (fun t => OnlyFn fn s t ∧ NoCommandMoved s t ∧
      ((s.fnOf fn).eventCq ≠ some n → FaultEvent fn n (if 2 ^ r.k ≤ bits val.toNat 15 0 then 0x101 else 0x104) s t) ∧
      (t.fnOf fn).faultInfo = BitVec.ofNat 32 (n % 256 * 2 ^ 16 + 2 ^ 15 +
        (if 2 ^ r.k ≤ bits val.toNat 15 0 then 1 else 4)) ∧ (t.fnOf fn).sqs = (s.fnOf fn).sqs ∧
      (t.fnOf fn).cqs = (s.fnOf fn).cqs.set n (some { r with fault := true }))) ∧
  (∀ (fn : Fn) (n : Nat) (val : Word) (s : State), s.hiUp = true → s.hqeReady = true →
    (n < (s.fnOf fn).sqs.length → (s.fnOf fn).sq n = none →
      Answers (.sqTailDoorbell fn n 4 val) s (fun t => OnlyFn fn s t ∧ NoCommandMoved s t ∧ t.out = [] ∧
        t.fnOf fn = { s.fnOf fn with faultInfo := BitVec.ofNat 32 (n % 256 * 2 ^ 16 + 2) })) ∧
    (n < (s.fnOf fn).cqs.length → (s.fnOf fn).cq n = none →
      Answers (.cqHeadDoorbell fn n 4 val) s (fun t => OnlyFn fn s t ∧ NoCommandMoved s t ∧ t.out = [] ∧
        t.fnOf fn = { s.fnOf fn with faultInfo := BitVec.ofNat 32 (n % 256 * 2 ^ 16 + 2 ^ 15 + 2) }))) ∧
  (∀ (fn : Fn) (n size : Nat) (val : Word) (s : State),
    (size ≠ 4 ∨ (∃ r, (s.fnOf fn).sq n = some r ∧ bits val.toNat 15 0 = r.tail)) →
    Answers (.sqTailDoorbell fn n size val) s (fun t => t = { s with out := [], cur := none })) ∧
  (∀ (fn : Fn) (n size : Nat) (val : Word) (s : State),
    (size ≠ 4 ∨ (∃ r, (s.fnOf fn).cq n = some r ∧ bits val.toNat 15 0 = r.head)) →
    Answers (.cqHeadDoorbell fn n size val) s (fun t => t = { s with out := [], cur := none }))

/-- Registers (R8, R9, R499, R500). A 32-bit aligned write is stored in SUP_SCRATCH, in either function's five admin ring registers
while enable is 0, and in an MSI-X entry, where a write of 1 to mask masks the vector and a write of 0 is what MSIX_UNMASK is; a write
to an offset that is reserved or read only, and a write of any other size, are ignored. On PF1, writing 1 to
saggar_miss clears it; while the Saggar link is down a read below 0x3000 returns all ones and a write is dropped, and both set
saggar_miss; while it is up a read returns the register, a 64-bit one two registers, and a write is ignored, every register of the
Saggar being read only. A read of another size, or not aligned, returns 0. -/
def Claim.RegisterAccess : Prop :=
  (∀ (val : Word) (s : State), s.hiUp = true →
    Answers (.registerWrite .pf0 0 0x5C 4 val) s (fun t => t = { s with sup := { s.sup with scratch := val }, out := [], cur := none })) ∧
  (∀ (fn : Fn) (val : Word) (s : State), s.hiUp = true → (s.fnOf fn).enable = false →
    Answers (.registerWrite fn 0 (HqeBase fn + 0x10) 4 val) s (fun t => OnlyFn fn s t ∧ NoCommandMoved s t ∧ t.out = [] ∧
      t.fnOf fn = { s.fnOf fn with asqLo := BitVec.ofNat 32 (val.toNat / 4096 * 4096) }) ∧
    Answers (.registerWrite fn 0 (HqeBase fn + 0x14) 4 val) s (fun t => OnlyFn fn s t ∧ NoCommandMoved s t ∧ t.out = [] ∧
      t.fnOf fn = { s.fnOf fn with asqHi := val }) ∧
    Answers (.registerWrite fn 0 (HqeBase fn + 0x18) 4 val) s (fun t => OnlyFn fn s t ∧ NoCommandMoved s t ∧ t.out = [] ∧
      t.fnOf fn = { s.fnOf fn with acqLo := BitVec.ofNat 32 (val.toNat / 4096 * 4096) }) ∧
    Answers (.registerWrite fn 0 (HqeBase fn + 0x1C) 4 val) s (fun t => OnlyFn fn s t ∧ NoCommandMoved s t ∧ t.out = [] ∧
      t.fnOf fn = { s.fnOf fn with acqHi := val }) ∧
    Answers (.registerWrite fn 0 (HqeBase fn + 0x20) 4 val) s (fun t => OnlyFn fn s t ∧ NoCommandMoved s t ∧ t.out = [] ∧
      t.fnOf fn = { s.fnOf fn with adminSize := BitVec.ofNat 32 (bits val.toNat 11 8 * 256 + bits val.toNat 3 0) })) ∧
  (∀ (fn : Fn) (off : Nat) (val : Word) (s : State), (s.fnOf fn).enable = true → 0x10 ≤ off → off ≤ 0x20 →
    Answers (.registerWrite fn 0 (HqeBase fn + off) 4 val) s (fun t => t = { s with out := [], cur := none })) ∧
  (∀ (fn : Fn) (v : Nat) (val : Word) (s : State), s.hiUp = true → v < (s.fnOf fn).vecs.length → v < 128 →
    Answers (.registerWrite fn 4 (16 * v) 4 val) s (fun t => OnlyFn fn s t ∧ NoCommandMoved s t ∧ t.out = [] ∧
      t.fnOf fn = { s.fnOf fn with vecs := (s.fnOf fn).vecs.set v { (s.fnOf fn).vec v with addrLo := val } }) ∧
    Answers (.registerWrite fn 4 (16 * v + 4) 4 val) s (fun t => OnlyFn fn s t ∧ NoCommandMoved s t ∧ t.out = [] ∧
      t.fnOf fn = { s.fnOf fn with vecs := (s.fnOf fn).vecs.set v { (s.fnOf fn).vec v with addrHi := val } }) ∧
    Answers (.registerWrite fn 4 (16 * v + 8) 4 val) s (fun t => OnlyFn fn s t ∧ NoCommandMoved s t ∧ t.out = [] ∧
      t.fnOf fn = { s.fnOf fn with vecs := (s.fnOf fn).vecs.set v { (s.fnOf fn).vec v with data := val } }) ∧
    (bit val.toNat 0 = true →
      Answers (.registerWrite fn 4 (16 * v + 12) 4 val) s (fun t => OnlyFn fn s t ∧ NoCommandMoved s t ∧ t.out = [] ∧
        t.fnOf fn = { s.fnOf fn with vecs := (s.fnOf fn).vecs.set v { (s.fnOf fn).vec v with masked := true } })) ∧
    (bit val.toNat 0 = false → exec (.registerWrite fn 4 (16 * v + 12) 4 val) s = exec (.msixUnmask fn v) s)) ∧
  (∀ (off : Nat) (val : Word) (s : State),
    off ∉ [0x5C, 0x1008, 0x1010, 0x1014, 0x1018, 0x101C, 0x1020, 0x2010, 0x6004, 0x901C] →
    Answers (.registerWrite .pf0 0 off 4 val) s (fun t => t = { s with out := [], cur := none })) ∧
  (∀ (off : Nat) (val : Word) (s : State), 0x3000 ≤ off → off ∉ [0x3008, 0x300C, 0x3010, 0x3014, 0x3018, 0x301C, 0x3020] →
    Answers (.registerWrite .pf1 0 off 4 val) s (fun t => t = { s with out := [], cur := none })) ∧
  (∀ (fn : Fn) (off : Nat) (val : Word) (s : State), (0x800 ≤ off ∨ (s.fnOf fn).vecs.length ≤ off / 16) →
    Answers (.registerWrite fn 4 off 4 val) s (fun t => t = { s with out := [], cur := none })) ∧
  (∀ (fn : Fn) (bar off size : Nat) (val : Word) (s : State), (size ≠ 4 ∨ off % 4 ≠ 0) →
    Answers (.registerWrite fn bar off size val) s (fun t => t = { s with out := [], cur := none })) ∧
  (∀ (s : State), Answers .saggarMissClear s
    (fun t => t = { s with hqe := { s.hqe with f1 := { s.hqe.f1 with saggarMiss := false } }, out := [], cur := none })) ∧
  (∀ (off : Nat) (s : State), off < 0x3000 → off % 4 = 0 → s.lnk.up = false →
    Answers (.pf1TunnelRead off 4) s (fun t => t = { s with
      hqe := { s.hqe with f1 := { s.hqe.f1 with saggarMiss := true } }, out := [.readData 0xFFFFFFFF], cur := none })) ∧
  (∀ (off : Nat) (s : State), off < 0x3000 → off % 4 = 0 → s.lnk.up = true →
    Answers (.pf1TunnelRead off 4) s (fun t => t = { s with out := [.readData (readReg .pf1 off s)], cur := none })) ∧
  (∀ (off : Nat) (s : State), off < 0x3000 → off % 8 = 0 → s.lnk.up = true →
    Answers (.pf1TunnelRead off 8) s (fun t => t = { s with
      out := [.readData (readReg .pf1 off s + readReg .pf1 (off + 4) s * 2 ^ 32)], cur := none })) ∧
  (∀ (off size : Nat) (s : State), (off % size ≠ 0 ∨ (size ≠ 4 ∧ size ≠ 8)) →
    Answers (.pf1TunnelRead off size) s (fun t => t = { s with out := [.readData 0], cur := none })) ∧
  (∀ (off : Nat) (val : Word) (s : State), off < 0x3000 → off % 4 = 0 → s.lnk.up = false →
    Answers (.pf1TunnelWrite off 4 val) s (fun t => t = { s with
      hqe := { s.hqe with f1 := { s.hqe.f1 with saggarMiss := true } }, out := [], cur := none })) ∧
  (∀ (off : Nat) (val : Word) (s : State), off < 0x3000 → s.lnk.up = true →
    Answers (.pf1TunnelWrite off 4 val) s (fun t => t = { s with out := [], cur := none }))

/-- The registers of Tables 03-11 to 03-15 as reset leaves them, with those of other blocks the manual states. -/
def Claim.RegistersAtReset : Prop :=
  readReg .pf0 0x1000 State.reset = 0x80004040 ∧ readReg .pf1 0x3000 State.reset = 0x80000404 ∧
  readReg .pf0 0x1004 State.reset = 0 ∧ readReg .pf0 0x1008 State.reset = 0 ∧ readReg .pf0 0x100C State.reset = 0 ∧
  readReg .pf0 0x1020 State.reset = 0x404 ∧ readReg .pf0 0x1040 State.reset = 0 ∧
  readReg .pf0 0x2000 State.reset = 0x0400FC00 ∧ readReg .pf0 0x6000 State.reset = 0x30001000 ∧
  readReg .pf0 0x6004 State.reset = 1 ∧ readReg .pf0 0x6008 State.reset = 0x100 ∧ readReg .pf0 0x6018 State.reset = 0 ∧
  readReg .pf0 0x5C State.reset = 0

/-- Fetching (R81, R94, R110): the HQE reads the slot at the head of SQ 0 before any other SQ's, in 64 bytes, on the lowest free
tag, and the head advances; while the CQ of every non-empty SQ is full nothing is fetched.
Which tag a read takes is log entry 7: the model's choice. -/
def Claim.SqeFetch : Prop :=
  (∀ (s : State) (r : SqRing) (c : CqRing), s.hiUp = true → s.hqeReady = true → s.hqe.f0.enable = true → s.hqe.lastPf1 = true →
    s.hqe.tags.length < 32 → s.hqe.f0.sq 0 = some r → s.hqe.f0.cq r.cq = some c → r.fault = false → r.deleting = false →
    r.head ≠ r.tail → (c.tail + 1) % 2 ^ c.k ≠ c.head → c.fault = false →
    Answers .sqeFetch s (fun t => ∃ tag, look tag s.hqe.tags = none ∧
      t.out = [.hostRead .pf0 tag (r.base + 64 * r.head) 64] ∧
      t.hqe = { s.hqe with
        lastPf1 := false, tags := s.hqe.tags ++ [(tag, ⟨.pf0, .sqe 0 r.head, r.base + 64 * r.head, 64, [], false⟩)]
        f0 := s.hqe.f0.withSq 0 { r with head := (r.head + 1) % 2 ^ r.k, fetched := r.fetched ++ [⟨r.head, none⟩] } } ∧
      t = { s with hqe := t.hqe, out := t.out, cur := none })) ∧
  (∀ (s : State), (∀ fn n r c, (s.fnOf fn).sq n = some r → (s.fnOf fn).cq r.cq = some c → r.head ≠ r.tail →
      (c.tail + 1) % 2 ^ c.k = c.head) →
    Answers .sqeFetch s (fun t => t = { s with out := [], cur := none }))

/-- Reads of host memory (R110, R76): the last completion of an SQE read frees the tag and puts the entry's sixteen dwords in its
slot; a completion timeout frees the tag and, for an SQE, puts the ring in fault with cause 3. -/
def Claim.HostReads : Prop :=
  (∀ (tag : Nat) (data : List Byte) (s : State) (fn : Fn) (sq idx addr len : Nat) (got : List Byte) (r : SqRing),
    s.hqe.readWait = [] → s.hqe.canTag .pf1 = true → look tag s.hqe.tags = some ⟨fn, .sqe sq idx, addr, len, got, false⟩ → (s.fnOf fn).sq sq = some r →
    Answers (.hostReadCompletion tag data true true) s (fun t => t.out = [] ∧ look tag t.hqe.tags = none ∧
      (t.fnOf fn).sq sq = some { r with fetched := r.fetched.map (fun e =>
        if e.idx = idx ∧ e.dw = none then { e with dw := some (dwords 16 (got ++ data)) } else e) } ∧
      NoCommandMoved s t ∧ t = { s with hqe := t.hqe, out := t.out, cur := t.cur })) ∧
  (∀ (tag : Nat) (s : State) (fn : Fn) (sq idx addr len : Nat) (got : List Byte) (bad : Bool) (r : SqRing),
    s.hqe.readWait = [] → s.hqe.canTag .pf1 = true → look tag s.hqe.tags = some ⟨fn, .sqe sq idx, addr, len, got, bad⟩ → (s.fnOf fn).sq sq = some r →
    Answers (.dmaCompletionTimeout tag) s (fun t => look tag t.hqe.tags = none ∧
      (t.fnOf fn).faultInfo = BitVec.ofNat 32 (sq % 256 * 2 ^ 16 + 3) ∧
      (t.fnOf fn).sq sq = some { r with fetched := r.fetched.filter (fun e => e.idx ≠ idx), fault := true } ∧
      NoCommandMoved s t ∧ t = { s with hqe := t.hqe, out := t.out, cur := t.cur }))

/-- Forwarding (R77, R95, R101): the oldest decoded SQE of a ring leaves it. A PF0 command without a host-to-device buffer is then
on its way to its island; an opcode its function does not have completes with BAD_OPCODE; on PF1, while the Saggar link is
down, a command for the Saggar that passes checks 1 to 4 completes with SAGGAR_UNREACHABLE. A fence holds the entry back while an
earlier command of its ring has not completed.
When a command counts as accepted is log entry 7: the model's choice. -/
def Claim.SqeForward : Prop :=
  (∀ (sq idx : Nat) (dw : List Word) (rest : List Fetched) (r : SqRing) (w : OpRow) (s : State),
    s.hqe.f0.sq sq = some r → r.fetched = ⟨idx, some dw⟩ :: rest → fenceOf ⟨.pf0, sq, dw⟩ = false →
    opRow .pf0 (opOf ⟨.pf0, sq, dw⟩) = some w → w.buf ≠ .h2d →
    Answers (.sqeForward .pf0 sq) s (fun t => t.out = [] ∧ t.hqe.ready = s.hqe.ready ∧
      t.hqe.fwd = s.hqe.fwd ++ [⟨.pf0, sq, cidOf ⟨.pf0, sq, dw⟩, opOf ⟨.pf0, sq, dw⟩, false, false, quietOf ⟨.pf0, sq, dw⟩, false⟩] ∧
      OnlyFn .pf0 s t ∧ t.fnOf .pf0 = s.hqe.f0.withSq sq { r with fetched := rest })) ∧
  (∀ (fn : Fn) (sq idx : Nat) (dw : List Word) (rest : List Fetched) (r : SqRing) (s : State),
    (s.fnOf fn).sq sq = some r → r.fetched = ⟨idx, some dw⟩ :: rest → fenceOf ⟨fn, sq, dw⟩ = false → s.hqe.fwd = [] →
    opRow fn (opOf ⟨fn, sq, dw⟩) = none →
    Answers (.sqeForward fn sq) s (fun t => Completed ⟨fn, sq, dw⟩ stBAD_OPCODE 0 s t ∧ t.out = [] ∧ OnlyFn fn s t ∧
      t.fnOf fn = (s.fnOf fn).withSq sq { r with fetched := rest })) ∧
  (∀ (sq idx : Nat) (dw : List Word) (rest : List Fetched) (r : SqRing) (s : State),
    s.hqe.f1.sq sq = some r → r.fetched = ⟨idx, some dw⟩ :: rest → fenceOf ⟨.pf1, sq, dw⟩ = false → s.hqe.fwd = [] →
    0x0F < opOf ⟨.pf1, sq, dw⟩ → preCheck (opOf ⟨.pf1, sq, dw⟩) ⟨.pf1, sq, dw⟩ s = none → s.lnk.up = false →
    Answers (.sqeForward .pf1 sq) s (fun t => Completed ⟨.pf1, sq, dw⟩ stSAGGAR_UNREACHABLE 0 s t ∧ t.out = [] ∧ OnlyFn .pf1 s t ∧
      t.fnOf .pf1 = s.hqe.f1.withSq sq { r with fetched := rest })) ∧
  (∀ (fn : Fn) (sq idx : Nat) (dw : List Word) (rest : List Fetched) (r : SqRing) (s : State),
    (s.fnOf fn).sq sq = some r → r.fetched = ⟨idx, some dw⟩ :: rest → fenceOf ⟨fn, sq, dw⟩ = true →
    (∃ f ∈ s.hqe.fwd, f.fn = fn ∧ f.sq = sq) →
    Answers (.sqeForward fn sq) s (fun t => t = { s with out := [], cur := none }))

/-- Posting (R24, R63, R81, R87, R89, R90, R97, R109): the oldest completion whose CQ has room is written as sixteen bytes in the slot at the CQ's tail
with the CQ's phase; the tail advances and the phase inverts when it wraps; a quiet one fires no vector. The delete of an SQ ends
the SQ with its own completion. With a commit's completion the commit is over, with a ledger change's the change counts, no event that
a command caused waits for it any more once it has completed, and with CQ_MODERATE's the CQ's new count and time are in force. An event entry is posted in the same way to the event CQ, with SQ id 0xFF and event bit 1. Once the event CQ is full,
one pending entry stands for each code and source (R107). -/
def Claim.Posting : Prop :=
  (∀ (s : State) (c : Cqe) (rest : List Cqe) (r : SqRing) (k : CqRing), s.hqe.ready = c :: rest → s.sup.posting = none →
    (s.fnOf c.fn).sq c.sq = some r → (s.fnOf c.fn).cq r.cq = some k → c.tail = none → c.quiet = true → NothingWaitsFor c s →
    (k.tail + 1) % 2 ^ k.k ≠ k.head → k.fault = false →
    Answers .cqePost s (fun t =>
      t.out = [.hostWrite c.fn (k.base + 16 * k.tail)
        (cqeBytes (c.cid + c.status * 2 ^ 16) c.result (r.head + c.sq * 2 ^ 16) k.phase false)] ∧
      t.hqe.ready = rest ∧ t.hqe.fwd = s.hqe.fwd ∧ OnlyFn c.fn s t ∧
      t.fnOf c.fn = ((s.fnOf c.fn).withCq r.cq
        { k with
          tail := (k.tail + 1) % 2 ^ k.k, phase := if (k.tail + 1) % 2 ^ k.k = 0 then !k.phase else k.phase }).settled)) ∧
  (∀ (s : State) (c : Cqe) (rest : List Cqe) (r : SqRing) (k : CqRing) (x : Commit), s.hqe.ready = c :: rest → c.fn = .pf0 →
    s.sup.posting = some x → x.sq = c.sq → x.cid = c.cid → c.tail = none →
    s.hqe.f0.sq c.sq = some r → s.hqe.f0.cq r.cq = some k → (k.tail + 1) % 2 ^ k.k ≠ k.head → k.fault = false →
    Answers .cqePost s (fun t => t.sup = { s.sup with posting := none } ∧ t.hqe.ready = rest ∧
      t = { s with sup := t.sup, spa := t.spa, hqe := t.hqe, out := t.out, cur := none })) ∧
  (∀ (s : State) (c : Cqe) (rest : List Cqe) (r : SqRing) (k : CqRing), s.hqe.ready = c :: rest → c.tail = none →
    (s.fnOf c.fn).sq c.sq = some r → (s.fnOf c.fn).cq r.cq = some k → (k.tail + 1) % 2 ^ k.k ≠ k.head → k.fault = false →
    Answers .cqePost s (fun t => t.hqe.ready = rest ∧
      t.spa = { s.spa with
        unposted := if c.fn = .pf1 then s.spa.unposted else s.spa.unposted.filterMap (fun u =>
          if u.sq ≠ c.sq ∨ u.cid ≠ c.cid then some u else if u.left ≤ 1 then none else some { u with left := u.left - 1 }) } ∧
      ∀ fn, ∀ e ∈ (t.fnOf fn).pendEv, (c.fn, c.sq, c.cid) ∉ e.after)) ∧
  (∀ (s : State) (c : Cqe) (rest : List Cqe) (r : SqRing) (k m : CqRing) (n count time : Nat), s.hqe.ready = c :: rest →
    (s.fnOf c.fn).sq c.sq = some r → (s.fnOf c.fn).cq r.cq = some k → (k.tail + 1) % 2 ^ k.k ≠ k.head → k.fault = false →
    c.tail = some (.moderates n count time) → n ≠ r.cq → (s.fnOf c.fn).cq n = some m →
    Answers .cqePost s (fun t => (t.fnOf c.fn).cq n = some { m with count := count, time := time })) ∧
  (∀ (s : State), (∀ c ∈ s.hqe.ready, ∃ r k, (s.fnOf c.fn).sq c.sq = some r ∧ (s.fnOf c.fn).cq r.cq = some k ∧
      (k.tail + 1) % 2 ^ k.k = k.head ∧ ¬(k.fault = true ∧ r.deleting = true)) →
    Answers .cqePost s (fun t => t = { s with out := [], cur := none })) ∧
  (∀ (fn : Fn) (s : State) (e : PendEv) (rest : List PendEv) (n : Nat) (k : CqRing), (s.fnOf fn).eventCq = some n →
    (s.fnOf fn).pendEv = e :: rest → e.after = [] → (s.fnOf fn).cq n = some k → (k.tail + 1) % 2 ^ k.k ≠ k.head → k.fault = false →
    Answers (.eventCqePost fn) s (fun t =>
      t.out = [.hostWrite fn (k.base + 16 * k.tail)
        (cqeBytes (e.code + e.count * 2 ^ 16) e.arg (e.source % 2 ^ 16 + 0xFF * 2 ^ 16) k.phase true)] ∧
      NoCommandMoved s t ∧ OnlyFn fn s t ∧
      t.fnOf fn = ({ s.fnOf fn with pendEv := rest, cqs := (s.fnOf fn).cqs.set n (some { k with
        tail := (k.tail + 1) % 2 ^ k.k, phase := if (k.tail + 1) % 2 ^ k.k = 0 then !k.phase else k.phase }) }).settled))

/-- Vectors (R108, R109): the coalescing time fires the CQ's vector and counts anew; the end of an event vector's 100 µs fires it
for occurrences within them and otherwise ends the hold-off; unmasking a vector sends its pending message, an event vector's not
within the 100 µs since its last one. -/
def Claim.VectorTimers : Prop :=
  (∀ (fn : Fn) (n : Nat) (s : State) (k : CqRing), (s.fnOf fn).cq n = some k → k.timing = true → 0 < k.fresh →
    ((s.fnOf fn).vec n).masked = false →
    Answers (.coalescingTimeExpiry fn n) s (fun t =>
      t.out = [.msix fn n (((s.fnOf fn).vec n).addrHi.toNat * 2 ^ 32 + ((s.fnOf fn).vec n).addrLo.toNat) ((s.fnOf fn).vec n).data] ∧
      NoCommandMoved s t ∧ OnlyFn fn s t ∧
      t.fnOf fn = (s.fnOf fn).withCq n { k with fresh := 0, timing := false })) ∧
  (∀ (fn : Fn) (v : Nat) (s : State), ((s.fnOf fn).vec v).hold = true → ((s.fnOf fn).vec v).again = true →
    ((s.fnOf fn).vec v).masked = false →
    Answers (.eventVectorHoldoffEnd fn v) s (fun t =>
      t.out = [.msix fn v (((s.fnOf fn).vec v).addrHi.toNat * 2 ^ 32 + ((s.fnOf fn).vec v).addrLo.toNat) ((s.fnOf fn).vec v).data] ∧
      ((t.fnOf fn).vec v).hold = true ∧ ((t.fnOf fn).vec v).again = false ∧ NoCommandMoved s t ∧ OnlyFn fn s t ∧
      t.fnOf fn = { s.fnOf fn with vecs := (t.fnOf fn).vecs } ∧ ∀ w, w ≠ v → (t.fnOf fn).vec w = (s.fnOf fn).vec w)) ∧
  (∀ (fn : Fn) (v : Nat) (s : State), ((s.fnOf fn).vec v).hold = true → ((s.fnOf fn).vec v).again = false →
    Answers (.eventVectorHoldoffEnd fn v) s (fun t => t.out = [] ∧ ((t.fnOf fn).vec v).hold = false ∧ NoCommandMoved s t ∧
      OnlyFn fn s t ∧ t.fnOf fn = { s.fnOf fn with vecs := (t.fnOf fn).vecs } ∧
      ∀ w, w ≠ v → (t.fnOf fn).vec w = (s.fnOf fn).vec w)) ∧
  (∀ (fn : Fn) (v : Nat) (s : State), v < (s.fnOf fn).vecs.length → ((s.fnOf fn).vec v).masked = true →
    (isEventVec fn v = false ∨ ((s.fnOf fn).vec v).pend = false) →
    Answers (.msixUnmask fn v) s (fun t =>
      t.out = (if ((s.fnOf fn).vec v).pend then
        [.msix fn v (((s.fnOf fn).vec v).addrHi.toNat * 2 ^ 32 + ((s.fnOf fn).vec v).addrLo.toNat) ((s.fnOf fn).vec v).data] else []) ∧
      NoCommandMoved s t ∧ OnlyFn fn s t ∧
      t.fnOf fn = { s.fnOf fn with vecs := (s.fnOf fn).vecs.set v { (s.fnOf fn).vec v with masked := false, pend := false } })) ∧
  (∀ (fn : Fn) (v : Nat) (s : State), v < (s.fnOf fn).vecs.length → ((s.fnOf fn).vec v).masked = true → isEventVec fn v = true →
    ((s.fnOf fn).vec v).pend = true →
    Answers (.msixUnmask fn v) s (fun t =>
      t.out = (if ((s.fnOf fn).vec v).hold then [] else
        [.msix fn v (((s.fnOf fn).vec v).addrHi.toNat * 2 ^ 32 + ((s.fnOf fn).vec v).addrLo.toNat) ((s.fnOf fn).vec v).data]) ∧
      NoCommandMoved s t ∧ OnlyFn fn s t ∧
      t.fnOf fn = { s.fnOf fn with vecs := (s.fnOf fn).vecs.set v { (s.fnOf fn).vec v with
        masked := false, pend := false, hold := true
        again := ((s.fnOf fn).vec v).again || ((s.fnOf fn).vec v).hold } }))

/-- The PF1 tunnel's answers (R77, R92, R101): while the link is up the Saggar's answer is written to the command's host buffer and
completes it; it goes behind the session messages on their way to the main die and the events behind them (R43), of which none is
waiting here. Without an answer within 5 s the command completes with SAGGAR_UNREACHABLE and result 1, and an answer still on its
way is not written to its buffer any more. -/
def Claim.TunnelAnswers : Prop :=
  (∀ (s : State) (a : Answer) (rest : List Answer) (f : Fwd) (fw : List Fwd), s.hqe.answers = a :: rest →
    takeFirst (Fwd.is .pf1 a.sq a.cid) s.hqe.fwd = some (f, fw) → f.orphan = false → s.lnk.up = true → s.lnk.sgUp = true →
    s.lnk.toSt = [] → s.lnk.inSt = [] → s.lnk.heldPf1 = [] →
    Answers .tunnelAnswer s (fun t => t.out = s.hostWrites .pf1 a.addr a.buf ∧
      t.hqe = { s.hqe with answers := rest, fwd := fw, ready := s.hqe.ready ++ [⟨.pf1, a.sq, a.cid, a.status, a.result, f.quiet, none⟩] } ∧
      t = { s with hqe := t.hqe, out := t.out, cur := t.cur })) ∧
  (∀ (s : State) (sq cid : Nat) (f : Fwd) (fw : List Fwd), takeFirst (Fwd.is .pf1 sq cid) s.hqe.fwd = some (f, fw) →
    0x0F < f.op → f.orphan = false →
    Answers (.tunnelTimeout sq cid) s (fun t => t.out = [] ∧
      t.hqe = { s.hqe with
        fwd := fw, ready := s.hqe.ready ++ [⟨.pf1, sq, cid, stSAGGAR_UNREACHABLE, 1, f.quiet, none⟩], answers := t.hqe.answers } ∧
      (∀ (a : Answer) (rest : List Answer),
        takeFirst (fun a : Answer => a.sq == sq && a.cid == cid) s.hqe.answers = some (a, rest) → t.hqe.answers = rest) ∧
      ((∀ a ∈ s.hqe.answers, a.sq = sq → a.cid ≠ cid) → t.hqe.answers = s.hqe.answers) ∧
      t = { s with
        hqe := t.hqe, mss := { s.mss with waiting := s.mss.waiting.filter (fun x => !(x.1.sq == sq && cidOf x.1 == cid)) }
        out := t.out, cur := t.cur }))

/-! ### Tile memory -/

/-- TILE_ALLOC (R119, R129): within the host limit and the unreserved tiles it takes `count` pool tiles that were free, returns
their handles, generation above index, and each is an OPEN host tile. Which indices it takes is open. No other tile changes. -/
def Claim.TileAlloc : Prop :=
  ∀ (q : Sqe) (s : State), Taken 0x10 q s → 1 ≤ bits (sd q 6) 11 0 → bits (sd q 6) 11 0 ≤ 2048 → sd q 4 = 4 * bits (sd q 6) 11 0 →
    s.tmf.hostCount + bits (sd q 6) 11 0 ≤ s.tmf.hostLimit → bits (sd q 6) 11 0 ≤ s.tmf.unreserved →
    Answers (.tileAlloc q) s (fun t => ∃ hs : List Nat, hs.length = bits (sd q 6) 11 0 ∧ (hs.map handleIdx).Nodup ∧
      (∀ h ∈ hs, isPool (handleIdx h) = true ∧ handleIdx h ∉ s.tmf.oos ∧ look (handleIdx h) s.tmf.tiles = none ∧
        h / 2 ^ 16 = s.tmf.gen (handleIdx h) ∧
        ∃ x, look (handleIdx h) t.tmf.tiles = some x ∧ x.owner = .host ∧ x.closed = false) ∧
      (∀ i, i ∉ hs.map handleIdx → look i t.tmf.tiles = look i s.tmf.tiles) ∧
      Returned q (hs.flatMap (le 4)) t ∧ Completed q stDONE (bits (sd q 6) 11 0) s t ∧ RingsKept s t ∧
      t = { s with hqe := t.hqe, tmf := { s.tmf with tiles := t.tmf.tiles }, out := t.out, cur := t.cur, free := t.free })

/-- A TILE_ALLOC that would exceed the host limit in force, or the tiles no channel has reserved, completes with NO_TILES and takes
none. -/
def Claim.TileAllocAllOrNone : Prop :=
  ∀ (q : Sqe) (s : State), Taken 0x10 q s → 1 ≤ bits (sd q 6) 11 0 → bits (sd q 6) 11 0 ≤ 2048 → sd q 4 = 4 * bits (sd q 6) 11 0 →
    (s.tmf.hostLimit < s.tmf.hostCount + bits (sd q 6) 11 0 ∨ s.tmf.unreserved < bits (sd q 6) 11 0) →
    Answers (.tileAlloc q) s (OnlyCompletes q stNO_TILES 0 s)

/-- A host tile's life (R102, R119, R122, R124). Named by its current handle: it is written and closed while OPEN and not listed by a
commit, a failed read of the host buffer leaves it as it is, its check word is the CRC-32C of its bytes, a closed one reads back as it is, and freeing it ends its generation. -/
def Claim.HostTileLife : Prop :=
  (∀ (q : Sqe) (b : List Byte) (s : State) (x : Tile), Taken 0x11 q s → bits (sd q 6) 11 0 + sd q 4 ≤ 4096 →
    bits (sd q 6) 11 0 % 4 = 0 → s.tmf.hostTile (sd q 5) = some x → x.closed = false → s.listed (handleIdx (sd q 5)) = false → ReadsOk q s →
    Answers (.tileWrite q (.data b)) s (fun t => Completed q stDONE 0 s t ∧ t.out = [] ∧ OnlyTiles s t ∧
      t.tmf = { s.tmf with tiles := put (handleIdx (sd q 5)) { x with
        bytes := x.bytes.take (bits (sd q 6) 11 0) ++ padTo (sd q 4) b ++ x.bytes.drop (bits (sd q 6) 11 0 + sd q 4) } s.tmf.tiles })) ∧
  (∀ (q : Sqe) (s : State) (x : Tile), Taken 0x11 q s → bits (sd q 6) 11 0 + sd q 4 ≤ 4096 →
    bits (sd q 6) 11 0 % 4 = 0 → s.tmf.hostTile (sd q 5) = some x → x.closed = false → s.listed (handleIdx (sd q 5)) = false →
    Answers (.tileWrite q .error) s (OnlyCompletes q stDMA_ERROR 0 s)) ∧
  (∀ (q : Sqe) (s : State) (x : Tile), Taken 0x12 q s → s.tmf.hostTile (sd q 5) = some x → x.closed = false →
    s.listed (handleIdx (sd q 5)) = false → (bit (sd q 7) 0 = false ∨ sd q 6 = crc32c x.bytes) →
    Answers (.tileClose q) s (fun t => Completed q stDONE (crc32c x.bytes) s t ∧ t.out = [] ∧ OnlyTiles s t ∧
      t.tmf = { s.tmf with tiles := put (handleIdx (sd q 5)) { x with closed := true, check := crc32c x.bytes } s.tmf.tiles })) ∧
  (∀ (q : Sqe) (s : State) (x : Tile), Taken 0x12 q s → s.tmf.hostTile (sd q 5) = some x → x.closed = false →
    s.listed (handleIdx (sd q 5)) = false → bit (sd q 7) 0 = true → sd q 6 ≠ crc32c x.bytes →
    Answers (.tileClose q) s (OnlyCompletes q stTILE_CHECK 0 s)) ∧
  (∀ (q : Sqe) (s : State) (x : Tile), Taken 0x13 q s → sd q 4 = 4096 → s.tmf.hostTile (sd q 5) = some x → x.closed = true →
    Answers (.tileRead q false) s (ReadOnly q x.check x.bytes s)) ∧
  (∀ (q : Sqe) (s : State) (x : Tile), Taken 0x14 q s → s.tmf.hostTile (sd q 5) = some x → s.listed (handleIdx (sd q 5)) = false →
    Answers (.tileFree q) s (fun t => Completed q stDONE 0 s t ∧ t.out = [] ∧ OnlyTiles s t ∧
      t.tmf.hostTile (sd q 5) = none ∧ t.tmf.gen (handleIdx (sd q 5)) = nextGen (s.tmf.gen (handleIdx (sd q 5))) ∧
      t.tmf = { s.tmf with tiles := del (handleIdx (sd q 5)) s.tmf.tiles, gens := t.tmf.gens } ∧
      ∀ i, i ≠ handleIdx (sd q 5) → t.tmf.gen i = s.tmf.gen i)) ∧
  (∀ (i : Instr) (q : Sqe) (s : State), s.tmf.hostTile (sd q 5) = none →
    ((∃ h, i = .tileWrite q h ∧ Taken 0x11 q s ∧ bits (sd q 6) 11 0 + sd q 4 ≤ 4096 ∧ bits (sd q 6) 11 0 % 4 = 0) ∨
     (i = .tileClose q ∧ Taken 0x12 q s) ∨ (∃ bad, i = .tileRead q bad ∧ Taken 0x13 q s ∧ sd q 4 = 4096) ∨
     (i = .tileFree q ∧ Taken 0x14 q s)) →
    Answers i s (OnlyCompletes q stBAD_HANDLE 0 s))

/-- Retirement (R126): a host tile that fails its check at TILE_READ is lost, its index goes to a spare under a new generation, so
that every handle to it is stale, the retire map in the Spire's NVM follows, and fault records 0x0101 and 0x0102 name it; the
command completes with TILE_CHECK. A pair's index is restored once its copy is done, a coefficient tile with the bytes of the other
copy (R125). -/
def Claim.Retirement : Prop :=
  (∀ (q : Sqe) (s : State) (x : Tile), Taken 0x13 q s → sd q 4 = 4096 → s.tmf.hostTile (sd q 5) = some x → x.closed = true →
    0 < s.tmf.sparesFree → s.sup.holdupReady = true → s.sup.journal.length < 1000 →
    Answers (.tileRead q true) s (fun t => Completed q stTILE_CHECK 0 s t ∧
      t.tmf.hostTile (sd q 5) = none ∧ look (handleIdx (sd q 5)) t.tmf.tiles = none ∧
      t.tmf.gen (handleIdx (sd q 5)) = nextGen (s.tmf.gen (handleIdx (sd q 5))) ∧ t.tmf.sparesFree = s.tmf.sparesFree - 1 ∧
      t.tmf.lastValid = true ∧ t.tmf.lastIndex = handleIdx (sd q 5) ∧
      t.sup.journal.map (fun r => (r.code, r.arg0)) = s.sup.journal.map (fun r => (r.code, r.arg0)) ++
        [(0x0101, handleIdx (sd q 5)), (0x0102, handleIdx (sd q 5))] ∧
      t.sup.ret = t.tmf.retireMap ∧
      t = { s with
        hqe := t.hqe, tmf := t.tmf, out := t.out, cur := t.cur
        sup := { s.sup with
          journal := t.sup.journal, journalSeq := t.sup.journalSeq, retSlots := t.sup.retSlots, retNext := none } })) ∧
  (∀ (i : Nat) (s : State), s.spa.waiting = [] → Answers (.pairRestore i) s (fun t => i ∉ t.tmf.restoring ∧
    (∀ j, j ≠ i → (j ∈ t.tmf.restoring ↔ j ∈ s.tmf.restoring) ∧ look j t.tmf.coeffs = look j s.tmf.coeffs) ∧
    look i t.tmf.coeffs = (match look (pairOther i) s.tmf.coeffs with | some b => some b | none => look i s.tmf.coeffs) ∧
    t = { s with tmf := { s.tmf with restoring := t.tmf.restoring, coeffs := t.tmf.coeffs }, out := [], cur := none }))

/-- Stream channels (R129 to R131): a channel opens empty with its reserve, cap, mode and flush time; a buffer posted for it waits,
its command running; an opened channel takes at most 64. -/
def Claim.StreamOpenAndBuffer : Prop :=
  (∀ (q : Sqe) (s : State), Taken 0x15 q s → sd q 1 < 16 → bits (sd q 6) 15 0 ≤ 16384 →
    max 1 (bits (sd q 6) 15 0) ≤ bits (sd q 6) 31 16 → bits (sd q 6) 31 16 ≤ 32768 → bits (sd q 7) 25 16 ≤ 1000 →
    (s.tmf.chan (sd q 1)).isOpen = false → bits (sd q 6) 15 0 ≤ s.tmf.unreserved →
    Answers (.streamOpen q) s (fun t => Completed q stDONE 0 s t ∧ t.out = [] ∧ OnlyTiles s t ∧
      t.tmf = { s.tmf with chans := s.tmf.chans.set (sd q 1) { Chan.reset with
        isOpen := true, reserve := bits (sd q 6) 15 0, cap := bits (sd q 6) 31 16, mode := bits (sd q 7) 0 0
        flush := bits (sd q 7) 25 16 } })) ∧
  (∀ (q : Sqe) (s : State), Taken 0x16 q s → sd q 1 < 16 → 4096 ≤ sd q 4 → sd q 4 % 4096 = 0 →
    (s.tmf.chan (sd q 1)).isOpen = true → (s.tmf.chan (sd q 1)).bufs.length < 64 →
    Answers (.streamBuffer q) s (fun t => Running q s t ∧ t.out = [] ∧ OnlyTiles s t ∧
      t.tmf = { s.tmf with chans := s.tmf.chans.set (sd q 1) { s.tmf.chan (sd q 1) with
        bufs := (s.tmf.chan (sd q 1)).bufs ++ [⟨q.sq, cidOf q, addrOf q, sd q 4, 0⟩] } })) ∧
  (∀ (q : Sqe) (s : State), Taken 0x16 q s → sd q 1 < 16 → 4096 ≤ sd q 4 → sd q 4 % 4096 = 0 →
    (s.tmf.chan (sd q 1)).isOpen = true → 64 ≤ (s.tmf.chan (sd q 1)).bufs.length →
    Answers (.streamBuffer q) s (OnlyCompletes q stBUSY_RETRY 0 s)) ∧
  (∀ (q : Sqe) (s : State), Taken 0x15 q s → sd q 1 < 16 → bits (sd q 6) 15 0 ≤ 16384 →
    max 1 (bits (sd q 6) 15 0) ≤ bits (sd q 6) 31 16 → bits (sd q 6) 31 16 ≤ 32768 → bits (sd q 7) 25 16 ≤ 1000 →
    (s.tmf.chan (sd q 1)).isOpen = false → s.tmf.unreserved < bits (sd q 6) 15 0 →
    Answers (.streamOpen q) s (OnlyCompletes q stNO_TILES 0 s))

/-- Delivery (R112, R131): the oldest closed tile goes into the next 4 KiB of the oldest posted buffer and is freed, and a buffer
that is full completes with the number of its tiles; a tile that fails its check is not sent, and the buffer completes with
TILE_CHECK and the number of good tiles before it. -/
def Claim.StreamDelivery : Prop :=
  (∀ (n i : Nat) (s : State) (tiles : List Nat) (b : StreamBuf) (bufs : List StreamBuf) (x : Tile), n < s.tmf.chans.length →
    (s.tmf.chan n).closed = i :: tiles → (s.tmf.chan n).bufs = b :: bufs → look i s.tmf.tiles = some x →
    4096 * (b.written + 1) < b.len →
    Answers (.streamTileDelivery n true) s (fun t => t.out = s.hostWrites .pf0 (b.addr + 4096 * b.written) x.bytes ∧
      look i t.tmf.tiles = none ∧ t.tmf.gen i = nextGen (s.tmf.gen i) ∧
      t.tmf.chan n = { s.tmf.chan n with closed := tiles, bufs := { b with written := b.written + 1 } :: bufs } ∧
      t.hqe = s.hqe ∧ t = { s with tmf := t.tmf, out := t.out, cur := none })) ∧
  (∀ (n i : Nat) (s : State) (tiles : List Nat) (b : StreamBuf) (bufs : List StreamBuf) (x : Tile), n < s.tmf.chans.length →
    (s.tmf.chan n).closed = i :: tiles → (s.tmf.chan n).bufs = b :: bufs → look i s.tmf.tiles = some x →
    b.len ≤ 4096 * (b.written + 1) → OwnedAs .pf0 b.sq b.cid s →
    Answers (.streamTileDelivery n true) s (fun t => t.out = s.hostWrites .pf0 (b.addr + 4096 * b.written) x.bytes ∧
      CompletedAs .pf0 b.sq b.cid stDONE (b.written + 1) s t ∧ look i t.tmf.tiles = none ∧
      t.tmf.chan n = { s.tmf.chan n with closed := tiles, bufs := bufs } ∧ OnlyTiles s t)) ∧
  (∀ (n i : Nat) (s : State) (tiles : List Nat) (b : StreamBuf) (bufs : List StreamBuf), n < s.tmf.chans.length →
    (s.tmf.chan n).closed = i :: tiles → (s.tmf.chan n).bufs = b :: bufs →
    OwnedAs .pf0 b.sq b.cid s →
    Answers (.streamTileDelivery n false) s (fun t => CompletedAs .pf0 b.sq b.cid stTILE_CHECK b.written s t ∧
      look i t.tmf.tiles = none ∧ t.tmf.lastIndex = i ∧ t.tmf.chan n = { s.tmf.chan n with closed := tiles, bufs := bufs } ∧
      (∀ fn a by_, Out.hostWrite fn a by_ ∉ t.out))) ∧
  (∀ (n : Nat) (s : State) (b : StreamBuf) (bufs : List StreamBuf), n < s.tmf.chans.length → (s.tmf.chan n).bufs = b :: bufs →
    (s.tmf.chan n).flush ≠ 0 → 0 < b.written → OwnedAs .pf0 b.sq b.cid s →
    Answers (.streamBufferFlush n) s (fun t => CompletedAs .pf0 b.sq b.cid stDONE b.written s t ∧ t.out = [] ∧
      t.tmf.chan n = { s.tmf.chan n with bufs := bufs } ∧ OnlyTiles s t)) ∧
  (∀ (n : Nat) (s : State) (o : OpenTile), n < s.tmf.chans.length → (s.tmf.chan n).flush ≠ 0 → (s.tmf.chan n).filling = some o →
    Answers (.streamTileFlush n) s (fun t => t.hqe = s.hqe ∧
      look o.idx t.tmf.tiles = some ⟨.channel n, true, o.bytes, crc32c o.bytes⟩ ∧
      t.tmf.chan n = { s.tmf.chan n with filling := none, closed := (s.tmf.chan n).closed ++ [o.idx] } ∧
      t = { s with tmf := t.tmf, out := [], cur := none }))

/-- STREAM_CLOSE (R133): the channel is closed with no tile and no buffer left, its reserve returned, no capture route into it
remains, and its own completion, the last, holds the number of tiles discarded: all of them while no buffer is posted. -/
def Claim.StreamClose : Prop :=
  (∀ (q : Sqe) (bad : List Nat) (s : State), Taken 0x17 q s → sd q 1 < 16 → sd q 1 < s.tmf.chans.length →
    (s.tmf.chan (sd q 1)).isOpen = true →
    Answers (.streamClose q bad) s (fun t => t.tmf.chan (sd q 1) = Chan.reset ∧
      (∀ m, m ≠ sd q 1 → t.tmf.chan m = s.tmf.chan m) ∧
      (∀ g c, (t.lane g).capture = some c → c.chan ≠ sd q 1) ∧
      ∃ before k quiet, t.hqe.ready = before ++ [⟨q.fn, q.sq, cidOf q, stDONE, k, quiet, none⟩])) ∧
  (∀ (q : Sqe) (bad : List Nat) (s : State), Taken 0x17 q s → sd q 1 < 16 → (s.tmf.chan (sd q 1)).isOpen = true →
    (s.tmf.chan (sd q 1)).bufs = [] → sd q 1 < s.tmf.chans.length →
    Answers (.streamClose q bad) s (fun t =>
      Completed q stDONE ((s.tmf.chan (sd q 1)).closed.length + b2n (s.tmf.chan (sd q 1)).filling.isSome) s t ∧ t.out = [] ∧
      (∀ i ∈ (s.tmf.chan (sd q 1)).closed, look i t.tmf.tiles = none) ∧ RingsKept s t ∧
      t = { s with hqe := t.hqe, tmf := t.tmf, kce := t.kce, out := [], cur := t.cur }))

/-! ### The site allocator -/

/-- Session commands in the write window (R144, R148, R162, R163, R166). SESSION_START on a port or string that exists and has no
session takes the lowest FREE index and the next session number and completes with the index; a prepaid session waits for credit, any
other is ACTIVE. SESSION_MODIFY replaces the operands of the entry. SESSION_STOP leaves its session STOPPING and completes at its
gate. A change of the ledger counts once its command's completion is posted, so the entry it replaced is kept beside it until then
(R24). Outside the window, and while the pair of tiles it writes is being restored (R125), each command waits, running, behind those
that wait. That the next session number is the counter plus 1 modulo 2^32, that SESSION_MODIFY keeps the entry's tag (log entry 18,
DEDUCED), and that a command waits for a pair's restoration behind those that wait for the window (log entry 17, DESIGN CHOICE), are
the model's choice.
Each of these commands is shown to complete, that is, to answer a next state with its own effect: sessionStart,
sessionStop, sessionModify. -/
def Obligations.SessionCommands : Prop :=
  (∀ (q : Sqe) (s : State) (i : Nat), Taken 0x40 q s → SessionFields q (if bit (sd q 6) 3 then 32 else 16) →
    s.spa.window = true → s.spa.waiting = [] → s.tmf.restoring = [] →
    (if bit (sd q 6) 3 then (s.conf.str (sd q 1)).enable else (s.conf.port (sd q 1)).enable) = true →
    (∀ e ∈ s.spa.ledger, ∀ pre tier w mn mx ramp n tag,
      e.2 ≠ .session pre (bit (sd q 6) 3) tier (sd q 1) w mn mx ramp n tag) →
    i < 4096 → look i s.spa.ledger = none → (∀ j, j < i → look j s.spa.ledger ≠ none) →
    Answers (.sessionStart q) s (fun t => Completed q stDONE i s t ∧ t.out = [] ∧ RingsKept s t ∧
      t.spa = { s.spa with
        ledger := putSorted i (.session (bit (sd q 6) 4) (bit (sd q 6) 3) (bits (sd q 6) 2 0) (sd q 1) (bits (sd q 6) 15 8)
          (sd q 7) (sd q 8) (sd q 9) ((s.sup.sessionCtr + 1) % 2 ^ 32) (sd q 10)) s.spa.ledger
        changed := t.spa.changed, unwritten := s.spa.unwritten.filter (fun x => x ≠ i / 128)
        unposted := s.spa.unposted ++ [⟨q.sq, cidOf q, ReadyOf q s + 1, i, .free⟩]
        sess := putSorted i { st := if bit (sd q 6) 4 then .waitCredit else .active, gPrev := 0
                              credit := if bit (sd q 6) 4 then .unknown else .ok, opened := false, closed := false
                              lost := false, stops := [] } s.spa.sess } ∧
      (∀ k, k ∈ t.spa.changed ↔ k ∈ s.spa.changed ∨ k = i / 128) ∧
      t.sup = { s.sup with sessionCtr := (s.sup.sessionCtr + 1) % 2 ^ 32 } ∧
      t = { s with hqe := t.hqe, spa := t.spa, sup := t.sup, out := t.out, cur := t.cur })) ∧
  (∀ (q : Sqe) (s : State) (x : Sess) (pre str : Bool) (tier obj w mn mx ramp n tag : Nat), Taken 0x42 q s →
    SessionFields q 4096 → s.spa.window = true → s.spa.waiting = [] → s.tmf.restoring = [] →
    look (sd q 1) s.spa.ledger = some (.session pre str tier obj w mn mx ramp n tag) → look (sd q 1) s.spa.sess = some x →
    x.st ≠ .stopping → bit (sd q 6) 3 = str → bit (sd q 6) 4 = pre →
    Answers (.sessionModify q) s (fun t => Completed q stDONE 0 s t ∧ t.out = [] ∧ OnlySpa s t ∧
      t.spa = { s.spa with
        changed := t.spa.changed, unwritten := s.spa.unwritten.filter (fun x => x ≠ sd q 1 / 128)
        unposted := s.spa.unposted ++
          [⟨q.sq, cidOf q, ReadyOf q s + 1, sd q 1, .session pre str tier obj w mn mx ramp n tag⟩]
        ledger := putSorted (sd q 1) (.session pre str (bits (sd q 6) 2 0) obj (bits (sd q 6) 15 8) (sd q 7) (sd q 8) (sd q 9) n tag)
          s.spa.ledger })) ∧
  (∀ (q : Sqe) (s : State) (x : Sess), Taken 0x41 q s → sd q 1 < 4096 → s.spa.window = true → s.spa.waiting = [] → s.tmf.restoring = [] →
    look (sd q 1) s.spa.sess = some x →
    Answers (.sessionStop q) s (fun t => Running q s t ∧ t.out = [] ∧ OnlySpa s t ∧
      t.spa = { s.spa with sess := s.spa.sess.map (fun y =>
        if y.1 = sd q 1 then (y.1, { y.2 with st := .stopping, stops := y.2.stops ++ [(q.sq, cidOf q)] }) else y) })) ∧
  (∀ (q : Sqe) (s : State), Taken 0x41 q s → sd q 1 < 4096 → s.spa.window = true → s.spa.waiting = [] → s.tmf.restoring = [] →
    look (sd q 1) s.spa.sess = none → Answers (.sessionStop q) s (OnlyCompletes q stBAD_OBJECT 0 s)) ∧
  (∀ (i : Instr) (q : Sqe) (s : State), (s.spa.window = false ∨ (opOf q ≠ 0x40 ∧ sd q 1 / 128 ∈ s.tmf.restoring)) →
    ((i = .sessionStart q ∧ Taken 0x40 q s ∧ SessionFields q (if bit (sd q 6) 3 then 32 else 16)) ∨
     (i = .sessionStop q ∧ Taken 0x41 q s ∧ sd q 1 < 4096) ∨ (i = .sessionModify q ∧ Taken 0x42 q s ∧ SessionFields q 4096)) →
    Answers i s (fun t => Running q s t ∧ t.out = [] ∧ OnlySpa s t ∧
      t.spa = { s.spa with waiting := s.spa.waiting ++ [(q, .data [])] }))

/-- Ledger reads and writes, the plan record and rests (R144, R148, R166, R167). A LEDGER_WRITE of one CONSTRAINT entry whose members
exist replaces the entry of its index; LEDGER_READ returns the entries as the latest re-plan read them; PLAN_READ returns the plan
that crossed the latest gate; REST_REQUEST sets or ends a string's rest of the minutes stated, and its expiry ends it once the
uptime at which it ends has come, and not before. -/
def Claim.LedgerCommands : Prop :=
  (∀ (q : Sqe) (b : List Byte) (s : State) (en : Bool) (ports strings lim tag : Nat), Taken 0x43 q s → sd q 1 < 4096 → sd q 4 = 32 →
    b.length = 32 → decodeEntry b = some (.cons en ports strings lim tag) → s.spa.window = true → s.spa.waiting = [] → s.tmf.restoring = [] →
    ReadsOk q s → (look (sd q 1) s.spa.ledger = none ∨
      ∃ e p st l g, look (sd q 1) s.spa.ledger = some (.cons e p st l g)) →
    consMembers s.conf (.cons en ports strings lim tag) = true →
    countE s.spa.ledger (fun e => match e with | .cons e _ _ _ _ => e | _ => false) < 64 →
    Answers (.ledgerWrite q (.data b)) s (fun t => Completed q stDONE 0 s t ∧ t.out = [] ∧ OnlySpa s t ∧
      t.spa = { s.spa with
        ledger := putSorted (sd q 1) (.cons en ports strings lim tag) s.spa.ledger, changed := t.spa.changed
        ledgerFaults := s.spa.ledgerFaults.filter (fun x => x ≠ sd q 1 / 128)
        unwritten := s.spa.unwritten.filter (fun x => x ≠ sd q 1 / 128)
        unposted := s.spa.unposted ++
          [⟨q.sq, cidOf q, ReadyOf q s + 1, sd q 1, (look (sd q 1) s.spa.ledger).getD .free⟩] })) ∧
  (∀ (q : Sqe) (s : State), Taken 0x43 q s → sd q 1 < 4096 → sd q 4 = 32 → s.spa.window = true → s.spa.waiting = [] → s.tmf.restoring = [] →
    Answers (.ledgerWrite q .error) s (OnlyCompletes q stDMA_ERROR 0 s)) ∧
  (∀ (q : Sqe) (s : State) (n : Nat), Taken 0x44 q s → sd q 4 = 32 * n → 1 ≤ n → sd q 1 + n ≤ 4096 →
    Answers (.ledgerRead q) s (ReadOnly q 0
      ((List.range n).flatMap (fun k => ((look (sd q 1 + k) s.spa.snapLedger).getD .free).bytes)) s)) ∧
  (∀ (q : Sqe) (s : State), Taken 0x45 q s → 1584 ≤ sd q 4 →
    Answers (.planRead q) s (fun t => ∃ b, ReadOnly q 1584 b s t ∧ b.length = 1584 ∧
      u b 0 8 = s.spa.plan.epoch % 2 ^ 64 ∧ u b 8 8 = s.spa.plan.time % 2 ^ 64 ∧ u b 16 4 = s.spa.plan.grid % 2 ^ 32 ∧
      u b 20 4 = s.spa.plan.ports % 2 ^ 32 ∧ u b 24 4 = s.spa.plan.charge % 2 ^ 32 ∧ u b 28 4 = s.spa.plan.discharge % 2 ^ 32)) ∧
  (∀ (q : Sqe) (s : State), Taken 0x46 q s → sd q 1 < 32 → (s.conf.str (sd q 1)).enable = true →
    (bits (sd q 6) 15 0 = 0 ∨ (30 ≤ bits (sd q 6) 15 0 ∧ bits (sd q 6) 15 0 ≤ 1440)) →
    Answers (.restRequest q) s (fun t => Completed q stDONE 0 s t ∧ t.out = [] ∧ OnlySpa s t ∧
      t.spa = { s.spa with
        inp := { s.spa.inp with resting := s.spa.inp.resting.set (sd q 1) (decide (bits (sd q 6) 15 0 ≠ 0)) }
        rests := s.spa.rests.set (sd q 1) (bits (sd q 6) 15 0, none) })) ∧
  (∀ (j m ends : Nat) (s : State), s.spa.rests.getD j (0, none) = (m, some ends) → ends ≤ s.sup.uptime →
    Answers (.restExpiry j) s (fun t => t = { s with
      spa := { s.spa with
        inp := { s.spa.inp with resting := s.spa.inp.resting.set j false }, rests := s.spa.rests.set j (0, none) }
      out := [], cur := none })) ∧
  (∀ (j : Nat) (s : State), (∀ m ends, s.spa.rests.getD j (0, none) = (m, some ends) → s.sup.uptime < ends) →
    Answers (.restExpiry j) s (fun t => t = { s with out := [], cur := none }))

/-- The plan of every snapshot keeps the planned grid import, P + C − Σd, at or below G (R157), in every mode, where session numbers
are distinct and no string offers more than 2^26 of discharge. -/
def Obligations.ImportNeverExceedsGridLimit : Prop :=
  ∀ (x : Snap) (c : Cfg) (why : Nat),
    ((x.ledger.filterMap (fun p => match p.2, look p.1 x.sess with
      | .session _ _ _ _ _ _ _ _ n _, some _ => some n
      | _, _ => none)).Nodup) →
    (∀ j, x.inp.discharge.getD j 0 ≤ 2 ^ 26) →
    (planOf x c why).ports + (planOf x c why).charge ≤ (planOf x c why).grid + (planOf x c why).discharge

/-- One epoch (R12, R24, R145 to R149). At a boundary without a commit to admit the epoch number advances, the write window shuts, and the
inputs are snapshot, the ledger without a change whose command's completion is not posted yet; no reference and no limit in a gate bank changes. The re-plan leaves the plan of that snapshot ready. At the gate
of a plan that is ready every lane takes its reference and limit, the plan becomes the one PLAN_READ shows, the rests it was made
with begin (R166), and the write window opens. -/
def Claim.EpochCycle : Prop :=
  (∀ (bad : List Nat) (s : State) (sq cid left k : Nat) (old : Entry), s.siteUp = true → s.sup.image = none → s.kce.staged = none →
    s.spa.unposted = [⟨sq, cid, left, k, old⟩] →
    Answers (.epochBoundary bad) s (fun t => t.spa.ledger = s.spa.ledger ∧ t.spa.snapLedger = putEntry k old s.spa.ledger ∧
      ∃ x, t.spa.snap = some x ∧ x.ledger = putEntry k old s.spa.ledger)) ∧
  (∀ (bad : List Nat) (s : State), s.siteUp = true → s.sup.image = none → s.kce.staged = none → s.spa.unposted = [] →
    Answers (.epochBoundary bad) s (fun t =>
      t.spa.epoch = (if s.spa.started then s.spa.epoch + 1 else 0) ∧ t.spa.started = true ∧ t.spa.window = false ∧
      t.spa.ready = none ∧ (∃ x, t.spa.snap = some x ∧ x.epoch = t.spa.epoch ∧ x.ledger = s.spa.ledger ∧ x.linkUp = s.lnk.up) ∧
      t.spa.snapLedger = s.spa.ledger ∧ t.spa.ledger = s.spa.ledger ∧ t.spa.plan = s.spa.plan ∧
      (∀ g, (t.lane g).bankRef = (s.lane g).bankRef ∧ (t.lane g).bankLim = (s.lane g).bankLim) ∧ t.cfg = s.cfg)) ∧
  (∀ (s : State) (x : Snap), s.spa.snap = some x →
    Answers .replanComplete s (fun t => ∃ p why, p = planOf x s.conf why ∧
      t = { s with spa := { s.spa with ready := some p }, free := t.free, out := [], cur := none })) ∧
  (∀ (bad : List Nat) (s : State) (x : Snap) (p : Plan), s.spa.snap = some x → s.spa.ready = some p → s.spa.waiting = [] →
    Answers (.setpointGate bad) s (fun t =>
      (∀ g, g < s.kce.groups.length → (t.lane g).bankRef = (p.refs.getD g (0, 0)).1 ∧ (t.lane g).bankLim = (p.refs.getD g (0, 0)).2 ∧
        (t.lane g).oldRef = (s.lane g).bankRef ∧ (t.lane g).oldLim = (s.lane g).bankLim) ∧
      t.spa.plan = p ∧ t.spa.window = true ∧ t.spa.snap = none ∧ t.spa.ready = none ∧ t.spa.lateRun = 0 ∧
      t.spa.rests = s.spa.rests.mapIdx (fun j r =>
        if r.2.isNone && x.inp.resting.getD j false then (r.1, some (s.sup.uptime + r.1 * 60000000)) else r) ∧
      t.spa.epoch = s.spa.epoch)) ∧
  (∀ (bad : List Nat) (s : State), s.spa.snap = none → Answers (.setpointGate bad) s (fun t => t = { s with out := [], cur := none })) ∧
  (∀ (s : State), Answers .writeWindowClose s (fun t => t = { s with spa := { s.spa with window := false }, out := [], cur := none }))

/-- The gate of a plan that is late (R147): the first keeps every reference and limit, a second in a row gates every reference at 0;
fault record 0x0201 names the epoch and the fallbacks, and the plan PLAN_READ shows stands. -/
def Claim.LatePlan : Prop :=
  ∀ (bad : List Nat) (s : State) (x : Snap), s.spa.snap = some x → s.spa.ready = none → s.spa.waiting = [] →
    (s.sup.st ≠ .service ∧ s.sup.st ≠ .bisque ∨ bad = []) → s.sup.holdupReady = true → s.sup.journal.length < 1024 →
    Answers (.setpointGate bad) s (fun t =>
      (∀ g, (t.lane g).bankRef = (if 1 ≤ s.spa.lateRun then 0 else (s.lane g).bankRef) ∧
        (t.lane g).bankLim = (s.lane g).bankLim) ∧
      t.spa.lateRun = s.spa.lateRun + 1 ∧ t.spa.plan = s.spa.plan ∧ t.spa.window = true ∧
      t.sup.journal.map (fun r => (r.code, r.arg0, r.arg1, r.arg2)) =
        s.sup.journal.map (fun r => (r.code, r.arg0, r.arg1, r.arg2)) ++
          [(0x0201, s.spa.epoch % 2 ^ 32, s.spa.fallbacks, 0)] ∧
      t = { s with
        kce := t.kce, spa := t.spa, sup := { s.sup with journal := t.sup.journal, journalSeq := t.sup.journalSeq }
        out := [], cur := none })

/-- A CREDIT message (R162): EXHAUSTED withdraws an ACTIVE session and one that waits for credit; OK and LOW make a waiting session ACTIVE, and a withdrawn one
ACTIVE with a previous grant of 0. No other session changes. -/
def Claim.CreditMessages : Prop :=
  ∀ (s : State) (n st h i : Nat) (rest : List (CrossMsg × Nat)) (x : Sess), s.lnk.inSt = (.credit n st, h) :: rest → st < 3 →
    (∃ p tier obj w mn mx ramp tag, look i s.spa.ledger = some (.session p false tier obj w mn mx ramp n tag)) →
    (∀ j e, (j, e) ∈ s.spa.ledger → e.number = n → e.isSession = true → j = i) → look i s.spa.sess = some x →
    Answers .creditMessage s (fun t => t.lnk = { s.lnk with inSt := rest } ∧
      (∀ j, j ≠ i → look j t.spa.sess = look j s.spa.sess) ∧
      look i t.spa.sess = some { x with
        credit := if st = 2 then .exhausted else if st = 1 then .low else .ok
        st := if st = 2 then (if x.st = .active ∨ x.st = .waitCredit then .withdrawn else x.st)
          else if x.st = .waitCredit ∨ x.st = .withdrawn then .active else x.st
        gPrev := if st < 2 ∧ x.st = .withdrawn then 0 else x.gPrev } ∧
      t = { s with lnk := t.lnk, spa := { s.spa with sess := t.spa.sess }, out := [], cur := none })

/-- A ledger entry is read back from its bytes (Tables 05-1 to 05-4): decoding the 32 bytes of an entry whose fields fit their
widths gives the entry. -/
def Obligations.LedgerEntryRoundTrip : Prop :=
  (decodeEntry Entry.free.bytes = some .free) ∧
  (∀ k n lim cur aux tag : Nat, k ≤ 4 → n < 2 ^ 16 → lim < 2 ^ 32 → cur < 2 ^ 32 → aux < 2 ^ 32 → tag < 2 ^ 32 →
    decodeEntry (Entry.node k n lim cur aux tag).bytes = some (.node k n lim cur aux tag)) ∧
  (∀ k a b f r tag : Nat, k ≤ 3 → a < 2 ^ 16 → b < 2 ^ 16 → f < 2 ^ 32 → r < 2 ^ 32 → tag < 2 ^ 32 →
    decodeEntry (Entry.edge k a b f r tag).bytes = some (.edge k a b f r tag)) ∧
  (∀ (en : Bool) (p st lim tag : Nat), p < 2 ^ 16 → st < 2 ^ 32 → lim < 2 ^ 32 → tag < 2 ^ 32 →
    decodeEntry (Entry.cons en p st lim tag).bytes = some (.cons en p st lim tag)) ∧
  (∀ (pre str : Bool) (tier obj w mn mx ramp n tag : Nat), tier < 8 → obj < 2 ^ 16 → w < 2 ^ 8 → mn < 2 ^ 32 → mx < 2 ^ 32 →
    ramp < 2 ^ 32 → n < 2 ^ 32 → tag < 2 ^ 32 →
    decodeEntry (Entry.session pre str tier obj w mn mx ramp n tag).bytes = some (.session pre str tier obj w mn mx ramp n tag))

/-! ### The Kiln -/

/-- KILN_STATUS, KILN_COUNTS and CAPTURE_SET (Tables 06-13 and 06-14).
Each of these commands is shown to complete, that is, to answer a next state with its own effect: kilnStatus,
kilnCounts, captureSet. -/
def Obligations.KilnCommands : Prop :=
  (∀ (q : Sqe) (s : State), Taken 0x30 q s → sd q 1 < 64 → 96 ≤ sd q 4 →
    Answers (.kilnStatus q) s (fun t => ∃ b, ReadOnly q 96 b s t ∧ u b 0 4 = (s.lane (sd q 1)).doneCount % 2 ^ 32 ∧
      u b 4 1 = (s.lane (sd q 1)).st.code ∧ u b 5 1 = (s.lane (sd q 1)).band % 256 ∧
      u b 10 1 = (s.lane (sd q 1)).causes.length % 256 ∧ u b 12 4 = ofInt 32 (s.lane (sd q 1)).bankRef ∧
      u b 16 4 = (s.lane (sd q 1)).bankLim % 2 ^ 32 ∧ u b 20 4 = ofInt 32 (s.lane (sd q 1)).rEff)) ∧
  (∀ (q : Sqe) (s : State) (n : Nat), Taken 0x32 q s → RangeOf q n 64 16 →
    Answers (.kilnCounts q) s (ReadOnly q n ((List.range n).flatMap (fun i =>
      le 4 (s.lane (sd q 1 + i)).ovr ++ le 4 (s.lane (sd q 1 + i)).cmp ++ le 4 (s.lane (sd q 1 + i)).forced ++
        le 4 (s.lane (sd q 1 + i)).holds)) s)) ∧
  (∀ (q : Sqe) (s : State), Taken 0x33 q s → sd q 1 < 64 → bit (sd q 6) 16 = true → bits (sd q 7) 15 0 ≠ 0 →
    ((s.tmf.chan (bits (sd q 6) 3 0)).isOpen = true →
      Answers (.captureSet q) s (fun t => Completed q stDONE 0 s t ∧ t.out = [] ∧ RingsKept s t ∧
        t = { s with
          hqe := t.hqe
          kce := { s.kce with groups := upd s.kce.groups (sd q 1) (fun k =>
            { k with capture := some ⟨bits (sd q 6) 3 0, bit (sd q 6) 8, bits (sd q 7) 15 0⟩ }) }
          out := t.out, cur := t.cur })) ∧
    ((s.tmf.chan (bits (sd q 6) 3 0)).isOpen = false → Answers (.captureSet q) s (OnlyCompletes q stBAD_STATE 0 s))) ∧
  (∀ (q : Sqe) (s : State), Taken 0x33 q s → sd q 1 < 64 → bit (sd q 6) 16 = false →
    Answers (.captureSet q) s (fun t => Completed q stDONE 0 s t ∧ t.out = [] ∧ RingsKept s t ∧
      t = { s with
        hqe := t.hqe
        kce := { s.kce with groups := upd s.kce.groups (sd q 1) (fun k => { k with capture := none }) }
        out := t.out, cur := t.cur }))

/-- A firing (R191, R192). Only a result that compares equal updates the context and reaches the collector: a re-fired one counts one
failed comparison; a mismatch counts two and a lack of time one, and both leave the context and the collector as they were. A lane that
is not FIRING, or whose inputs are not in, does nothing. The sample works with the gate bank in force when it began (R25).
The places of a sample's characters are log entry 9: the model's choice. -/
def Claim.Firings : Prop :=
  (∀ (g : Nat) (first : Bool) (again : Option Bool) (m : GroupMap) (k0 : CoeffSet) (s : State), s.conf.group g = some m →
    s.conf.set g 0 = some k0 → g < s.kce.groups.length → (s.lane g).st = .firing → (s.lane g).phase = .ready →
    (first = true ∨ again = some true) →
    Answers (.firing g first again) s (fun t =>
      (let r := fireLaw (hdrOf k0) (s.conf.laneCtx g) (s.conf.set g) (s.lane g) (if (s.lane g).start then k0 else (s.lane g).active.getD k0) (s.fireIn m g)
       (t.lane g).rEff = r.rEff ∧ (t.lane g).xh = r.xh ∧ (t.lane g).zeta = r.zeta ∧ (t.lane g).u = r.u ∧
        (t.lane g).band = r.choice.band ∧ (t.lane g).active = some r.choice.set ∧ (t.lane g).defer = r.choice.defer) ∧
      (s.fireIn m g).ref = (if (s.lane g).ts < s.kce.gateAt then (s.lane g).oldRef else (s.lane g).bankRef) ∧
      (t.lane g).causes = [] ∧ (t.lane g).phase = .idle ∧ (t.lane g).start = false ∧
      (t.lane g).doneCount = (s.lane g).count ∧
      (t.lane g).cmp = (if first = false then incSat (s.lane g).cmp else (s.lane g).cmp) ∧
      (∀ l ∈ m.links.take m.nPh, ∃ c, (l, c) ∈ t.kce.fresh ∧ c.held = false ∧ c.safe = false) ∧
      (∀ h, h ≠ g → t.lane h = s.lane h) ∧ RefsKept s t ∧
      ((s.lane g).capture = none → t = { s with kce := t.kce, psc := t.psc, out := [], cur := none }))) ∧
  (∀ (g : Nat) (m : GroupMap) (k0 : CoeffSet) (s : State), s.conf.group g = some m → s.conf.set g 0 = some k0 →
    (s.lane g).st = .firing → (s.lane g).phase = .ready →
    Answers (.firing g false (some false)) s (fun t => t = { s with
      kce := { s.kce with groups := upd s.kce.groups g (fun k => { k with cmp := incSat (incSat k.cmp), phase := .failed 2 }) }
      out := [], cur := none }) ∧
    Answers (.firing g false none) s (fun t => t = { s with
      kce := { s.kce with groups := upd s.kce.groups g (fun k => { k with cmp := incSat k.cmp, phase := .failed 3 }) }
      out := [], cur := none })) ∧
  (∀ (g : Nat) (first : Bool) (again : Option Bool) (s : State), ((s.lane g).st ≠ .firing ∨ (s.lane g).phase ≠ .ready) →
    Answers (.firing g first again) s (fun t => t = { s with out := [], cur := none }))

/-- What no firing exceeds (R178, R176, R179): the effective reference stays within the smaller of the gate limit and the PSC clamp; a
lower magnitude of the same sign takes effect in full; every applied actuator value lies in its range; and every duty and shift fits
its 16-bit field. -/
def Obligations.FiringStaysInItsLimits : Prop :=
  ∀ (h : Hdr) (c : GroupCtx) (sets : Nat → Option CoeffSet) (g : KGroup) (k0 : CoeffSet) (f : FireIn),
    (∀ b k, sets b = some k → 0 ≤ k.slew ∧ ∀ j, iat k.umin j ≤ iat k.umax j) →
    0 ≤ k0.slew → (∀ j, iat k0.umin j ≤ iat k0.umax j) → f.lim < 2 ^ 31 →
    (let r := fireLaw h c sets g k0 f
     (-(f.lim : Int) ≤ r.rEff ∧ r.rEff ≤ f.lim) ∧
     (g.start = false → 0 ≤ target f → target f ≤ g.rEff → r.rEff = target f) ∧
     (g.start = false → g.rEff ≤ target f → target f ≤ 0 → r.rEff = target f) ∧
     (∀ j, j < h.m → iat r.choice.set.umin j ≤ iat r.u j ∧ iat r.u j ≤ iat r.choice.set.umax j) ∧
     ∀ (i : Nat) (p : Cmd), (phaseCmds h r.choice.set f r.u)[i]? = some p →
       p.duty < 2 ^ 16 ∧ p.shift < 2 ^ 16)

/-- A miss (R189, R190). Before the third in a row the lane keeps its whole context, its previous commands go to the collector marked
held, with the enables and the offsets PSC has for the sample (R204; DEDUCED, log entry 20), and the miss is counted with its cause; PSC's load-step check runs with the r_eff that stands (R205). At the third the group enters HOLD: its context is cleared, safe commands take the place
of the held ones, PSC holds the group, and fault record 0x0301 names the group and the three causes. -/
def Claim.FiringMisses : Prop :=
  (∀ (g : Nat) (m : GroupMap) (s : State) (cause : Nat), s.conf.group g = some m → g < s.kce.groups.length →
    (s.lane g).st = .firing → ((s.lane g).phase = .ready ∧ cause = 1 ∨ (s.lane g).phase = .failed cause) →
    (s.pg g).st = .running → (s.lane g).causes.length < 2 →
    Answers (.firingDeadline g) s (fun t =>
      t.lane g = { s.lane g with
        phase := .idle, ovr := incSat (s.lane g).ovr, lastCause := cause, causes := (s.lane g).causes ++ [cause]
        y := (t.lane g).y } ∧
      t.kce.lastMiss = some (g, cause) ∧ (∀ h, h ≠ g → t.lane h = s.lane h ∧ t.pg h = s.pg h) ∧ t.pla = s.pla ∧
      (g < s.psc.groups.length → t.pg g = loadStep m (s.temps m) (s.lane g).rEff (s.pg g)) ∧
      (∀ (i l : Nat) (c : Cmd), (m.links.take m.nPh)[i]? = some l → look l (s.lane g).last = some c →
        (l, c.again (decide ((t.pg g).st = .running) && (t.pg g).on i) ((t.pg g).ilv.getD i 0)) ∈ t.kce.fresh) ∧
      ((s.lane g).capture = none → t = { s with kce := t.kce, psc := t.psc, out := [], cur := none }))) ∧
  (∀ (g : Nat) (m : GroupMap) (s : State) (cause c0 c1 : Nat), s.conf.group g = some m → g < s.kce.groups.length →
    g < s.psc.groups.length → (s.lane g).st = .firing → (s.lane g).phase = .failed cause → (s.pg g).st = .running →
    (s.lane g).causes = [c0, c1] → s.sup.holdupReady = true → s.sup.journal.length < 900 → (s.lane g).capture = none →
    Answers (.firingDeadline g) s (fun t => (t.lane g).st = .hold ∧ (t.lane g).causes = [] ∧
      (t.lane g).xh = List.replicate 8 0 ∧ (t.lane g).zeta = List.replicate 4 0 ∧ (t.lane g).rEff = 0 ∧
      (t.lane g).ovr = incSat (s.lane g).ovr ∧ (t.lane g).holds = incSat (s.lane g).holds ∧
      (∀ l ∈ m.links.take m.nPh, (l, Cmd.safeCmd) ∈ t.kce.fresh) ∧ (t.pg g).mode = .held ∧ (t.pg g).st = .held ∧
      (∃ r ∈ t.sup.journal, r.code = 0x0301 ∧ r.arg0 = g ∧ r.arg1 = cause * 2 ^ 16 + c1 * 2 ^ 8 + c0) ∧
      (∀ h, h ≠ g → t.lane h = s.lane h ∧ t.pg h = s.pg h) ∧ RefsKept s t)) ∧
  (∀ (g : Nat) (s : State), (s.lane g).st ≠ .firing → Answers (.firingDeadline g) s (fun t => t = { s with out := [], cur := none }))

/-- The collector (R193): one result enters its link's downstream slot per collector slot, the oldest first; the slot of a link that is
not UP is left to PLA. -/
def Claim.CollectorSlots : Prop :=
  (∀ (s : State) (l : Nat) (c : Cmd) (rest : List (Nat × Cmd)), s.kce.queue ++ s.kce.fresh = (l, c) :: rest →
    Answers .collectorSlot s (fun t => t.kce = { s.kce with queue := rest, fresh := [] } ∧
      t.link l = (if (s.link l).st = .up then { s.link l with slot := some c } else s.link l) ∧
      (∀ n, n ≠ l → t.link n = s.link n) ∧
      t = { s with kce := t.kce, pla := { s.pla with links := t.pla.links }, out := [], cur := none })) ∧
  (∀ (s : State), s.kce.queue = [] → s.kce.fresh = [] →
    Answers .collectorSlot s (fun t => t = { s with out := [], cur := none }))

/-! ### Phase groups -/

/-- GROUP_STATUS, GROUP_COUNTS and GROUP_RELEASE (R214, Tables 07-6 and 07-7). A release of a group whose latch report is set completes
with BAD_STATE; the end of a HELD group in service makes it RUNNING and its lane QUIET, its reference
0 until the next grant (R15); a masked LOST phase whose link is UP and has delivered four
valid samples becomes available and shed, and one whose link is not UP is turned away with BAD_STATE.
Each of these commands is shown to complete, that is, to answer a next state with its own effect: groupStatus,
groupRelease, groupCounts. -/
def Obligations.GroupCommands : Prop :=
  (∀ (q : Sqe) (s : State) (m : GroupMap), Taken 0x24 q s → sd q 1 < 64 → 64 ≤ sd q 4 → s.conf.group (sd q 1) = some m →
    Answers (.groupStatus q) s (fun t => ∃ b, ReadOnly q 64 b s t ∧ u b 0 1 = (s.pg (sd q 1)).st.code ∧
      u b 1 1 = (s.pg (sd q 1)).cause % 256 ∧ u b 4 1 = (s.pg (sd q 1)).retries % 256 ∧
      u b 8 4 = (s.pg (sd q 1)).sent % 2 ^ 32 ∧ u b 16 4 = (s.pg (sd q 1)).theta % 2 ^ 32)) ∧
  (∀ (q : Sqe) (s : State) (n : Nat), Taken 0x26 q s → RangeOf q n 64 16 →
    Answers (.groupCounts q) s (ReadOnly q n ((List.range n).flatMap (fun i =>
      le 4 (s.pg (sd q 1 + i)).fastTrips ++ le 4 (s.pg (sd q 1 + i)).senseLoss ++ le 4 (s.pg (sd q 1 + i)).linkLoss ++
        le 4 (s.pg (sd q 1 + i)).overloads)) s)) ∧
  (∀ (q : Sqe) (s : State) (m : GroupMap), Taken 0x25 q s → sd q 1 < 64 → bits (sd q 6) 9 0 ≠ 0 → bits (sd q 6) 31 10 = 0 →
    s.conf.group (sd q 1) = some m → bits (sd q 6) 7 0 < 2 ^ m.nPh → (s.pg (sd q 1)).latch = true →
    Answers (.groupRelease q) s (OnlyCompletes q stBAD_STATE 0 s)) ∧
  (∀ (q : Sqe) (s : State), Taken 0x25 q s → sd q 1 < 64 → bits (sd q 6) 9 0 ≠ 0 → bits (sd q 6) 31 10 = 0 →
    s.conf.group (sd q 1) = none → Answers (.groupRelease q) s (OnlyCompletes q stBAD_OBJECT 0 s)) ∧
  (∀ (q : Sqe) (s : State) (m : GroupMap), Taken 0x25 q s → sd q 1 < 64 → sd q 6 = 0x100 → s.conf.group (sd q 1) = some m →
    sd q 1 < s.psc.groups.length → sd q 1 < s.kce.groups.length → m.nPh ≤ 8 → (s.pg (sd q 1)).latch = false →
    (s.pg (sd q 1)).mode = .held → (s.pg (sd q 1)).gate = false → (s.sup.st = .service ∨ s.sup.st = .bisque) →
    (∃ h, h < m.nPh ∧ (s.pg (sd q 1)).avail h = true) →
    Answers (.groupRelease q) s (fun t => (∃ r, Completed q stDONE r s t ∧ bits r 2 0 = 2 ∧
        ∀ h, h < m.nPh → bit r (8 + h) = (s.pg (sd q 1)).avail h) ∧
      (t.pg (sd q 1)).st = .running ∧ (t.pg (sd q 1)).mode = .running ∧
      (t.pg (sd q 1)).retries = (s.pg (sd q 1)).retries ∧
      ((s.lane (sd q 1)).st = .hold → (t.lane (sd q 1)).st = .quiet) ∧
      (t.lane (sd q 1)).bankRef = 0 ∧ (t.lane (sd q 1)).bankLim = (s.lane (sd q 1)).bankLim ∧
      (∀ g, g ≠ sd q 1 → t.pg g = s.pg g ∧ t.lane g = s.lane g))) ∧
  (∀ (q : Sqe) (s : State) (m : GroupMap) (h : Nat), Taken 0x25 q s → sd q 1 < 64 → sd q 6 = 2 ^ h → h < m.nPh → m.nPh ≤ 8 →
    s.conf.group (sd q 1) = some m → sd q 1 < s.psc.groups.length → (s.pg (sd q 1)).latch = false →
    (s.pg (sd q 1)).avail h = false → 4 ≤ (s.link (m.links.getD h 0xFF)).good → (s.link (m.links.getD h 0xFF)).st = .up →
    (s.pg (sd q 1)).st = (s.pg (sd q 1)).mode → (s.pg (sd q 1)).mode ≠ .running →
    Answers (.groupRelease q) s (fun t => (∃ r, Completed q stDONE r s t ∧ bits r 2 0 = (s.pg (sd q 1)).st.code) ∧
      (t.pg (sd q 1)).avail h = true ∧ (t.pg (sd q 1)).on h = false ∧
      (∀ n, n < 8 → n ≠ h → (t.pg (sd q 1)).avail n = (s.pg (sd q 1)).avail n) ∧
      (t.pg (sd q 1)).mode = (s.pg (sd q 1)).mode ∧ (∀ g, g ≠ sd q 1 → t.pg g = s.pg g) ∧ t.kce = s.kce)) ∧
  (∀ (q : Sqe) (s : State) (m : GroupMap) (h : Nat), Taken 0x25 q s → sd q 1 < 64 → sd q 6 = 2 ^ h → h < m.nPh → m.nPh ≤ 8 →
    s.conf.group (sd q 1) = some m → ((s.pg (sd q 1)).avail h = true ∨ (s.link (m.links.getD h 0xFF)).st ≠ .up ∨
      (s.link (m.links.getD h 0xFF)).good < 4) →
    Answers (.groupRelease q) s (OnlyCompletes q stBAD_STATE 0 s))

/-- Capacity reports and shedding (R151, R202 to R205). The capacity delivered is the number of available phases times i_peak, capped at
a quarter of the rating in bisque service and at the rating while overloaded, and 0 in every state but RUNNING. A shed tick moves at most
one enable, touches no LOST mark, and changes nothing SPA plans on. -/
def Claim.CapacityAndShedding : Prop :=
  (∀ (g : Nat) (m : GroupMap) (s : State), s.conf.group g = some m → g < s.psc.groups.length → g < s.spa.inp.cap.length →
    Answers (.capacityDelivery g) s (fun t =>
      t.spa.inp.cap.getD g 0 =
        (if (s.pg g).st = .running then
          (let c := countOf m.nPh (s.pg g).avail * m.iPeak
           let c := if s.conf.bisque then min c (m.iRated / 4) else c
           if (s.pg g).ovl then min c m.iRated else c)
         else 0) ∧
      (t.pg g).sent = t.spa.inp.cap.getD g 0 ∧
      (∀ h, h ≠ g → t.spa.inp.cap.getD h 0 = s.spa.inp.cap.getD h 0 ∧ t.pg h = s.pg h) ∧
      t.spa.vsum = s.spa.vsum.set g ((s.pg g).vsum, (s.pg g).vcnt) ∧
      t = { s with
        psc := { s.psc with groups := t.psc.groups }
        spa := { s.spa with inp := { s.spa.inp with cap := t.spa.inp.cap }, vsum := t.spa.vsum }, out := [], cur := none })) ∧
  (∀ (g : Nat) (m : GroupMap) (s : State), s.conf.group g = some m → g < s.psc.groups.length → (s.pg g).st = .running →
    Answers (.shedTick g) s (fun t => (t.pg g).lost = (s.pg g).lost ∧ (t.pg g).st = .running ∧ (t.pg g).theta = (s.pg g).theta ∧
      (t.pg g).irTick = (s.pg g).ir ∧ (t.pg g).holdLeft = (s.pg g).holdLeft - 1 ∧
      (∃ h, ∀ n, n ≠ h → (t.pg g).on n = (s.pg g).on n) ∧ (∀ n, n ≠ g → t.pg n = s.pg n) ∧
      t = { s with psc := { s.psc with groups := t.psc.groups }, out := [], cur := none })) ∧
  (∀ (g : Nat) (s : State), (s.pg g).st ≠ .running → Answers (.shedTick g) s (fun t => t = { s with out := [], cur := none }))

/-- Retries and latches (R211, R212). Below retry_max the retry timer makes a TRIPPED group RUNNING with one retry more; at retry_max it
locks the group with cause 0x01; while a latch report is set it does nothing. A latch report that is set stops the timer; when it
clears, a TRIPPED group's timer starts from the full delay. Time in RUNNING returns the retry count to 0. -/
def Claim.RetriesAndLatches : Prop :=
  (∀ (g : Nat) (m : GroupMap) (s : State), s.conf.group g = some m → g < s.psc.groups.length → (s.pg g).mode = .tripped →
    (s.pg g).latch = false → (s.pg g).gate = false → (s.sup.st = .service ∨ s.sup.st = .bisque) → (s.pg g).retries < m.retryMax →
    Answers (.groupRetryTimer g) s (fun t => (t.pg g).mode = .running ∧ (t.pg g).st = .running ∧
      (t.pg g).retries = (s.pg g).retries + 1 ∧ (t.pg g).retryAt = none ∧ t.psc.lastEvent = some (g, 7, ((s.pg g).retries + 1) % 256) ∧
      (∀ n, n ≠ g → t.pg n = s.pg n) ∧ RefsKept s t)) ∧
  (∀ (g : Nat) (m : GroupMap) (s : State), s.conf.group g = some m → g < s.psc.groups.length → (s.pg g).mode = .tripped →
    (s.pg g).latch = false → m.retryMax ≤ (s.pg g).retries →
    Answers (.groupRetryTimer g) s (fun t => (t.pg g).mode = .locked ∧ (t.pg g).st = .locked ∧ (t.pg g).cause = 1 ∧
      (t.pg g).retries = (s.pg g).retries ∧ (∀ n, n ≠ g → t.pg n = s.pg n) ∧ RefsKept s t)) ∧
  (∀ (g : Nat) (s : State), ((s.pg g).latch = true ∨ (s.pg g).mode ≠ .tripped) →
    Answers (.groupRetryTimer g) s (fun t => t = { s with out := [], cur := none })) ∧
  (∀ (g : Nat) (s : State), g < s.psc.groups.length → (s.pg g).st = .running → (s.pg g).latch = false →
    Answers (.groupRetryClear g) s (fun t => t.pg g = { s.pg g with retries := 0 } ∧ (∀ n, n ≠ g → t.pg n = s.pg n) ∧
      t = { s with psc := { s.psc with groups := t.psc.groups }, sup := t.sup, out := [], cur := none })) ∧
  (∀ (g : Nat) (s : State), (s.pg g).latch = true →
    Answers (.groupRetryClear g) s (fun t => t = { s with out := [], cur := none })) ∧
  (∀ (g : Nat) (s : State), g < 64 → g < s.psc.groups.length → s.tcmReport g = true → (s.pg g).latch = false →
    Answers (.latchReport g) s (fun t => (t.pg g).latch = true ∧ (t.pg g).retryAt = none ∧ (t.pg g).mode = (s.pg g).mode ∧
      (∀ n, n ≠ g → t.pg n = s.pg n) ∧
      t = { s with psc := { s.psc with groups := t.psc.groups }, out := [], cur := none })) ∧
  (∀ (g : Nat) (m : GroupMap) (s : State), g < 64 → g < s.psc.groups.length → s.conf.group g = some m → s.tcmReport g = false →
    (s.pg g).latch = true → (s.pg g).mode = .tripped →
    Answers (.latchReport g) s (fun t => (t.pg g).latch = false ∧ (t.pg g).retryAt = some (s.sup.uptime + m.retryDelay * 1000) ∧
      (t.pg g).retries = (s.pg g).retries ∧ (t.pg g).mode = .tripped ∧ (∀ n, n ≠ g → t.pg n = s.pg n)))

/-! ### Phase links -/

/-- The PLA commands (R239 to R241, Tables 08-12 and 08-13). LINK_STATUS returns 48 bytes for each link. LINK_RETRAIN begins attempt 1 on
an OFF, DOWN or FAILED link and runs until the training ends; it is turned away on a link in TRAIN and on an UP link whose phase is
available. LINK_DISABLE sends one safe COMMAND and leaves the link OFF with cause DISABLED; an OFF link answers note 1. LINK_MGMT waits
for its window, one on a link at a time.
Where a frame stands on the line is log entry 9: the model's choice. -/
def Claim.LinkCommands : Prop :=
  (∀ (q : Sqe) (s : State) (n : Nat), Taken 0x20 q s → RangeOf q n 64 48 →
    Answers (.linkStatus q) s (fun t => ReadOnly q n ((List.range n).flatMap (fun i => linkRecord (sd q 1 + i) s)) s t ∧
      ∀ l, (linkRecord l s).length = 48 ∧ u (linkRecord l s) 0 1 = (s.link l).st.code ∧
        u (linkRecord l s) 1 1 = (s.link l).cause % 256 ∧ u (linkRecord l s) 20 4 = (s.link l).crcErr % 2 ^ 32 ∧
        u (linkRecord l s) 24 4 = (s.link l).posErr % 2 ^ 32 ∧ u (linkRecord l s) 28 4 = (s.link l).codeErr % 2 ^ 32 ∧
        u (linkRecord l s) 36 4 = (s.link l).downs % 2 ^ 32)) ∧
  (∀ (q : Sqe) (s : State), Taken 0x21 q s → sd q 1 < 64 → sd q 1 < s.pla.links.length →
    ((s.link (sd q 1)).st = .off ∨ (s.link (sd q 1)).st = .down ∨ (s.link (sd q 1)).st = .failed) →
    Answers (.linkRetrain q) s (fun t => Running q s t ∧ (t.link (sd q 1)).st = .train ∧ (t.link (sd q 1)).step = .lock ∧
      (t.link (sd q 1)).attempts = 1 ∧ (t.link (sd q 1)).retrain = some (q.sq, cidOf q) ∧
      (t.link (sd q 1)).retrains = incSat (s.link (sd q 1)).retrains ∧ RefsKept s t)) ∧
  (∀ (q : Sqe) (s : State), Taken 0x21 q s → sd q 1 < 64 → (s.link (sd q 1)).st = .train →
    Answers (.linkRetrain q) s (OnlyCompletes q stBUSY_RETRY 0 s)) ∧
  (∀ (q : Sqe) (s : State) (g h : Nat), Taken 0x21 q s → sd q 1 < 64 → (s.link (sd q 1)).st = .up →
    s.conf.memberOf (sd q 1) = some (g, h) → (s.pg g).avail h = true →
    Answers (.linkRetrain q) s (OnlyCompletes q stBAD_STATE 0 s)) ∧
  (∀ (q : Sqe) (s : State), Taken 0x23 q s → sd q 1 < 64 → (s.link (sd q 1)).st = .off →
    Answers (.linkDisable q) s (OnlyCompletes q stDONE_NOTE 1 s)) ∧
  (∀ (q : Sqe) (s : State), Taken 0x23 q s → sd q 1 < 64 → sd q 1 < s.pla.links.length → (s.link (sd q 1)).st ≠ .off →
    (s.link (sd q 1)).retrain = none →
    Answers (.linkDisable q) s (fun t => Completed q stDONE 0 s t ∧ (t.link (sd q 1)).st = .off ∧ (t.link (sd q 1)).cause = 6 ∧
      t.out.head? = some (.line (sd q 1) (s.lineGroups (sd q 1) 0xFB (withCrc16 ([0, 0, 0, 0] ++ le 1 (s.deadTime (sd q 1) % 16) ++
        le 1 (((s.link (sd q 1)).seq.map (fun n => (n + 1) % 256)).getD 0) ++ le 2 (s.link (sd q 1)).answers ++ [1]))).1) ∧
      (∀ g h, s.conf.memberOf (sd q 1) = some (g, h) → g < s.psc.groups.length → h < (s.pg g).lost.length →
        (t.pg g).avail h = false) ∧ RefsKept s t)) ∧
  (∀ (q : Sqe) (s : State), Taken 0x22 q s → sd q 1 < 64 → sd q 1 < s.pla.links.length → bit (sd q 6) 0 = false →
    bits (sd q 6) 7 1 = 0 → 1 ≤ bits (sd q 6) 15 8 → bits (sd q 6) 15 8 ≤ 32 →
    bits (sd q 6) 31 16 + bits (sd q 6) 15 8 ≤ 0x10000 → sd q 4 = 32 → (s.link (sd q 1)).st = .up → (s.link (sd q 1)).mgmt = none →
    Answers (.linkMgmt q) s (fun t => Running q s t ∧ t.out = [] ∧ RingsKept s t ∧
      t.link (sd q 1) = { s.link (sd q 1) with
        mgmt := some ⟨q.sq, cidOf q, false, bits (sd q 6) 15 8, bits (sd q 6) 31 16, [], addrOf q, 0, false⟩ } ∧
      (∀ n, n ≠ sd q 1 → t.link n = s.link n) ∧
      t = { s with hqe := t.hqe, pla := { s.pla with links := t.pla.links }, out := t.out, cur := t.cur })) ∧
  (∀ (q : Sqe) (s : State), Taken 0x22 q s → sd q 1 < 64 → bit (sd q 6) 0 = true → sd q 2 = 0 → sd q 3 = 0 → sd q 4 = 0 →
    bits (sd q 6) 7 1 = 0 → 1 ≤ bits (sd q 6) 15 8 → bits (sd q 6) 15 8 ≤ 32 → 0x100 ≤ bits (sd q 6) 31 16 →
    bits (sd q 6) 31 16 + bits (sd q 6) 15 8 ≤ 0x10000 →
    ((s.link (sd q 1)).st ≠ .up → Answers (.linkMgmt q) s (OnlyCompletes q stBAD_STATE 0 s)) ∧
    ((s.link (sd q 1)).st = .up → (s.link (sd q 1)).mgmt.isSome → Answers (.linkMgmt q) s (OnlyCompletes q stBUSY_RETRY 0 s)))

/-- Training (R234). An attempt begins with the lock step; the lock passes into the echo step with the first ECHO set; each echo answer
sends the next; eight answers that agree send the Ident read, which is sent once again when no answer comes; its answer sends the SYNC,
whose D leaves t_cv and 2 microseconds and puts frame 0 in a character of the group's schedule (R224, R225); the character of the
microsecond in which the SYNC goes out is an open value (the model's choice, log entry 9). A step that runs out of its limit ends the attempt, and the third leaves
the link FAILED with cause TRAIN; 1 ms after an attempt that was not the third the next begins. -/
def Claim.LinkTraining : Prop :=
  (∀ (l : Nat) (s : State), l < s.pla.links.length → (s.link l).st = .train → (s.link l).step = .none →
    (s.link l).waiting = false →
    Answers (.trainingAttempt l) s (fun t => (t.link l).st = .train ∧ (t.link l).step = .lock ∧
      (t.link l).attempts = (s.link l).attempts + 1 ∧ t.out = [] ∧ OnlyLink l s t)) ∧
  (∀ (l : Nat) (s : State), l < s.pla.links.length → (s.link l).st = .train → (s.link l).waiting = true →
    Answers (.retrainDelay l) s (fun t => (t.link l).st = .train ∧ (t.link l).step = .lock ∧ (t.link l).waiting = false ∧
      (t.link l).attempts = (s.link l).attempts + 1 ∧ t.out = [] ∧ OnlyLink l s t)) ∧
  (∀ (l : Nat) (s : State), l < s.pla.links.length → (s.link l).st = .train → (s.link l).step = .lock →
    Answers (.lockStepPass l) s (fun t => t.out = [.line l (s.lineGroups l 0x7C [0]).1] ∧
      t.link l = { s.link l with step := .echo, echoes := [], rd := (s.lineGroups l 0x7C [0]).2 } ∧ OnlyLink l s t)) ∧
  (∀ (l e : Nat) (f : LineFrame) (b : Byte) (s : State), l < s.pla.links.length → (s.link l).st = .train → (s.link l).step = .echo →
    (s.link l).echoes.length < 7 → rxFrame 0x7C f.rd f.groups = some ([b], false) →
    Answers (.echoAnswer l f e) s (fun t =>
      t.out = [.line l (s.lineGroups l 0x7C [BitVec.ofNat 8 ((s.link l).echoes.length + 1)]).1] ∧
      (t.link l).echoes = (s.link l).echoes ++ [(b, e)] ∧ (t.link l).step = .echo ∧ OnlyLink l s t)) ∧
  (∀ (l e : Nat) (f : LineFrame) (s : State), l < s.pla.links.length → (s.link l).st = .train → (s.link l).step = .echo →
    e < 2 ^ 16 → (s.link l).echoes = (List.range 7).map (fun i => (BitVec.ofNat 8 i, e)) → (s.link l).mgmt = none →
    rxFrame 0x7C f.rd f.groups = some ([7], false) →
    Answers (.echoAnswer l f e) s (fun t => (t.link l).step = .ident ∧ (t.link l).echo = e ∧
      (t.link l).identTag = some (s.link l).tag ∧
      t.out = [.line l (s.lineGroups l 0xF7 (withCrc16 ([0] ++ le 1 (s.link l).tag ++ [0, 0, 32]))).1] ∧ OnlyLink l s t)) ∧
  (∀ (l e : Nat) (f : LineFrame) (s : State), ((s.link l).st ≠ .train ∨ (s.link l).step ≠ .echo ∨
      ∀ b, rxFrame 0x7C f.rd f.groups ≠ some ([b], false)) → lineErrors f.rd f.groups = [] →
    Answers (.echoAnswer l f e) s (fun t => t = { s with out := [], cur := none })) ∧
  (∀ (l tag : Nat) (f : LineFrame) (d : List Byte) (s : State), l < s.pla.links.length → (s.link l).st = .train →
    (s.link l).step = .ident → (s.link l).identTag = some tag → tag < 256 → d.length = 32 → u d 0 1 = 1 →
    bit (u d 1 1) (s.rateNeeded l) = true → 80 ≤ u d 16 2 → u d 16 2 ≤ 960 →
    rxFrame 0xF7 f.rd f.groups = some (withCrc16 ([0x80] ++ le 1 tag ++ [0, 0, 32] ++ d), false) →
    Answers (.mgmtFrame l f.rd f.groups) s (fun t => (t.link l).step = .sync ∧ (t.link l).tcv = u d 16 2 ∧ (t.link l).ifs = u d 20 4 ∧
      (t.link l).rate = s.rateNeeded l ∧ (t.link l).sched = true ∧ (t.link l).pos = 0 ∧
      (∃ dist, u d 16 2 + 2000 ≤ 80 * dist ∧ (t.link l).f0 = s.gridChar + (s.link l).echo / 80 + dist ∧
        t.out = [.line l (({ s with free := s.free + 1 } : State).lineGroups l 0x3C
          (withCrc16 (le 1 (s.rateNeeded l) ++ le 2 dist))).1]) ∧
      (∀ x, s.conf.memberOf l = some x → ∀ p, s.pla.pos.getD x.1 none = some p →
        ∃ k, (t.link l).f0 = p + k * (periodNs (s.rateNeeded l) / 20)) ∧
      (∀ n, n ≠ l → t.link n = s.link n) ∧
      t = { s with pla := t.pla, out := t.out, cur := none, free := t.free })) ∧
  (∀ (l tag : Nat) (s : State), l < s.pla.links.length → (s.link l).st = .train → (s.link l).step = .ident →
    (s.link l).identTag = some tag → (s.link l).resent = false → (s.link l).mgmt = none →
    Answers (.mgmtTimeout l) s (fun t => (t.link l).resent = true ∧ (t.link l).identTag = some (s.link l).tag ∧
      t.out = [.line l (s.lineGroups l 0xF7 (withCrc16 ([0] ++ le 1 (s.link l).tag ++ [0, 0, 32]))).1] ∧ OnlyLink l s t)) ∧
  (∀ (l : Nat) (s : State), l < s.pla.links.length → (s.link l).st = .train → (s.link l).step ≠ .none → (s.link l).attempts < 3 →
    s.conf.memberOf l = none →
    Answers (.trainingStepTimeout l) s (fun t => (t.link l).st = .train ∧ (t.link l).step = .none ∧ (t.link l).waiting = true ∧
      (t.link l).attempts = (s.link l).attempts ∧ t.out = [] ∧ OnlyLink l s t)) ∧
  (∀ (l : Nat) (s : State), l < s.pla.links.length → (s.link l).st = .train → (s.link l).step ≠ .none → 3 ≤ (s.link l).attempts →
    Answers (.trainingStepTimeout l) s (fun t => (t.link l).st = .failed ∧ (t.link l).cause = 5 ∧ (t.link l).retrain = none ∧
      (∀ sq cid, (s.link l).retrain = some (sq, cid) → OwnedAs .pf0 sq cid s →
        ∃ quiet, (⟨.pf0, sq, cid, stDONE_NOTE, 4, quiet, none⟩ : Cqe) ∈ t.hqe.ready) ∧ RefsKept s t))

/-- SAMPLE frames (R220, R222, R235). A frame position that passes counts on the link, whatever arrived, and the next COMMAND answers
its counter. A frame judged good has its fields taken; any other is counted once, by the first condition that applies, and changes no
field of the latest accepted frame; every code error in it is counted too, and four of them send an UP link DOWN with cause ALIGN. The
eighth failed frame in a row sends an UP link DOWN with cause FRAMES, and a trip, driver or supply flag with cause TERMINAL. The
sixteenth good frame in a row brings a training link UP and completes its LINK_RETRAIN.
Where a frame stands on the line is log entry 9: the model's choice. -/
def Claim.SampleFrames : Prop :=
  (∀ (l : Nat) (rd : Bool) (sof : Nat) (groups : List Nat) (d : List Byte) (err : Bool) (s : State), l < s.pla.links.length → (s.link l).sched = true →
    rxFrame 0xFB rd (sof :: groups) = some (d, err) → judge d err (s.link l).pos = .ok →
    Answers (.sampleFrame l rd sof groups) s (fun t => (t.link l).count = u d 0 2 ∧ (t.link l).code = sgn d 2 2 ∧
      (t.link l).temp = sgn d 8 2 ∧ (t.link l).flags = u d 10 1 ∧ (t.link l).ack = u d 11 1 ∧ (t.link l).tstate = u d 12 1 ∧
      (t.link l).crcErr = (s.link l).crcErr ∧ (t.link l).posErr = (s.link l).posErr ∧
      (t.link l).pos = (s.link l).pos + 1 ∧ (t.link l).answers = (s.link l).pos % 65536 ∧
      (t.link l).codeErr = (s.link l).codeErr ∧ RefsKept s t)) ∧
  (∀ (l : Nat) (rd : Bool) (sof : Nat) (groups : List Nat) (d : List Byte) (err : Bool) (s : State), l < s.pla.links.length → (s.link l).sched = true →
    rxFrame 0xFB rd (sof :: groups) = some (d, err) → judge d err (s.link l).pos ≠ .ok →
    Answers (.sampleFrame l rd sof groups) s (fun t =>
      (t.link l).codeErr = (lineErrors rd (sof :: groups)).foldl (fun n _ => incSat n) (s.link l).codeErr ∧
      (t.link l).crcErr = (if judge d err (s.link l).pos = .crc then incSat (s.link l).crcErr else (s.link l).crcErr) ∧
      (t.link l).posErr = (if judge d err (s.link l).pos = .pos then incSat (s.link l).posErr else (s.link l).posErr) ∧
      (t.link l).count = (s.link l).count ∧ (t.link l).code = (s.link l).code ∧ (t.link l).flags = (s.link l).flags ∧
      (t.link l).iph = (s.link l).iph ∧ (t.link l).pos = (s.link l).pos + 1 ∧ RefsKept s t)) ∧
  (∀ (i : Instr) (l : Nat) (rd : Bool) (sof : Nat) (groups : List Nat) (s : State), l < s.pla.links.length → (s.link l).sched = true →
    (i = .frameMissing l ∨ (i = .sampleFrame l rd sof groups ∧ rxFrame 0xFB rd (sof :: groups) = none)) →
    Answers i s (fun t => (t.link l).posErr = incSat (s.link l).posErr ∧ (t.link l).pos = (s.link l).pos + 1 ∧
      (t.link l).iph = (s.link l).iph ∧
      ((s.link l).st = .up → 7 ≤ (s.link l).bad → (i = .frameMissing l ∨ lineErrors rd (sof :: groups) = []) →
        (t.link l).st = .down ∧ (t.link l).cause = 2 ∧ (t.link l).downs = incSat (s.link l).downs) ∧ RefsKept s t)) ∧
  (∀ (l : Nat) (rd : Bool) (sof : Nat) (groups : List Nat) (d : List Byte) (err : Bool) (s : State), l < s.pla.links.length → (s.link l).sched = true →
    (s.link l).st = .up → rxFrame 0xFB rd (sof :: groups) = some (d, err) → judge d err (s.link l).pos = .ok →
    bits (u d 10 1) 5 3 ≠ 0 →
    Answers (.sampleFrame l rd sof groups) s (fun t => (t.link l).st = .down ∧ (t.link l).cause = 3)) ∧
  (∀ (l : Nat) (rd : Bool) (sof : Nat) (groups : List Nat) (s : State), l < s.pla.links.length → (s.link l).sched = true →
    (s.link l).st = .up → groups.length < 63 → 4 ≤ (lineErrors rd (sof :: groups)).length →
    Answers (.sampleFrame l rd sof groups) s (fun t => (t.link l).st = .down ∧ (t.link l).cause = 1 ∧
      (t.link l).downs = incSat (s.link l).downs)) ∧
  (∀ (l : Nat) (rd : Bool) (sof : Nat) (groups : List Nat) (d : List Byte) (err : Bool) (s : State), l < s.pla.links.length → (s.link l).sched = true →
    (s.link l).st = .train → (s.link l).run = 15 → rxFrame 0xFB rd (sof :: groups) = some (d, err) →
    judge d err (s.link l).pos = .ok → bits (u d 10 1) 5 1 = 0 →
    Answers (.sampleFrame l rd sof groups) s (fun t => (t.link l).st = .up ∧ (t.link l).retrain = none ∧
      (∀ sq cid, (s.link l).retrain = some (sq, cid) → OwnedAs .pf0 sq cid s →
        ∃ quiet, (⟨.pf0, sq, cid, stDONE, 2, quiet, none⟩ : Cqe) ∈ t.hqe.ready))) ∧
  (∀ (l : Nat) (rd : Bool) (sof : Nat) (groups : List Nat) (s : State), (s.link l).sched = false →
    lineErrors rd (sof :: groups) = [] →
    Answers (.sampleFrame l rd sof groups) s (fun t => t = { s with out := [], cur := none }))

/-- The line code (R217, R219): the characters of a frame that leaves are those a receiver of the same disparity takes from its groups,
and every group has ten bits, four to six of them ones.
The form of the code's tables is log entry 9: the model's choice. -/
def Claim.LineCode : Prop :=
  (∀ (rd : Bool) (sof : Byte) (chars : List Byte), sof ∈ [(0xFB : Byte), 0xF7, 0x7C] →
    rxFrame sof.toNat rd (encodeLine rd (lineSyms sof chars)).1 = some (chars, false)) ∧
  (∀ (rd : Bool) (sof : Byte) (chars : List Byte) (g : Nat), sof ∈ [(0xFB : Byte), 0xF7, 0x3C, 0x7C] →
    g ∈ (encodeLine rd (lineSyms sof chars)).1 → g < 1024 ∧ 4 ≤ ones g 10 ∧ ones g 10 ≤ 6)

/-- Commands, MGMT frames and line errors (R219, R218, R228, R229, R235, R241). The result in a link's slot leaves as a COMMAND frame
with the next sequence number, the enable the Kiln's result came with, and the counter of the sample it answers. A waiting MGMT request
is sent once, behind the COMMAND that answers the latest sample; its answer completes it, or 1 ms without one. Loss of signal, a comma
off the alignment, and the fourth code error within 64 characters send an UP link DOWN with cause ALIGN; how many idle commas go before
a frame, and in which character of the microsecond a code error outside the frames stands that follows none within 64, are open values
(the model's choice, log entry 9). -/
def Claim.LinkLine : Prop :=
  (∀ (l : Nat) (c : Cmd) (s : State), l < s.pla.links.length → (s.link l).slot = some c → (s.link l).st ≠ .off →
    (s.link l).st ≠ .failed →
    Answers (.commandFrame l) s (fun t =>
      t.out = [.line l (s.lineGroups l 0xFB (withCrc16 (le 2 c.duty ++ le 2 c.shift ++
        le 1 (b2n c.en * 16 + s.deadTime l % 16) ++
        le 1 (((s.link l).seq.map (fun n => (n + 1) % 256)).getD 0) ++ le 2 (s.link l).answers ++
        le 1 (b2n c.held * 2 + b2n c.safe)))).1] ∧
      t.link l = { s.link l with
        slot := none, owes := false, seq := some (((s.link l).seq.map (fun n => (n + 1) % 256)).getD 0), rd := (t.link l).rd } ∧
      OnlyLink l s t)) ∧
  (∀ (l : Nat) (s : State), (s.link l).slot = none → Answers (.commandFrame l) s (fun t => t = { s with out := [], cur := none })) ∧
  (∀ (l : Nat) (x : Mgmt) (s : State), l < s.pla.links.length → (s.link l).mgmt = some x → x.sent = false → (s.link l).st = .up →
    (s.link l).owes = false →
    Answers (.mgmtSend l) s (fun t =>
      t.out = [.line l (s.lineGroups l 0xF7
        (withCrc16 (le 1 (b2n x.write * 16) ++ le 1 (s.link l).tag ++ le 2 x.addr ++ le 1 x.n ++ x.data))).1] ∧
      t.link l = { s.link l with
        mgmt := some { x with sent := true, tag := (s.link l).tag }, tag := ((s.link l).tag + 1) % 256, rd := (t.link l).rd } ∧
      OnlyLink l s t)) ∧
  (∀ (l : Nat) (s : State), (s.link l).owes = true → Answers (.mgmtSend l) s (fun t => t = { s with out := [], cur := none })) ∧
  (∀ (l n : Nat) (x : Mgmt) (f : LineFrame) (data : List Byte) (s : State), l < s.pla.links.length → (s.link l).mgmt = some x →
    x.sent = true → x.write = false → (s.link l).st = .up → n ≤ 32 → data.length = n → x.tag < 256 →
    rxFrame 0xF7 f.rd f.groups = some (withCrc16 ([0x80] ++ le 1 x.tag ++ le 2 x.addr ++ le 1 n ++ data), false) →
    OwnedAs .pf0 x.sq x.cid s →
    Answers (.mgmtFrame l f.rd f.groups) s (fun t => CompletedAs .pf0 x.sq x.cid stDONE n s t ∧ t.out = t.hostWrites .pf0 x.buf data ∧
      t.link l = { s.link l with mgmt := none } ∧ (∀ m, m ≠ l → t.link m = s.link m) ∧ RingsKept s t)) ∧
  (∀ (l : Nat) (x : Mgmt) (f : LineFrame) (s : State), l < s.pla.links.length → (s.link l).mgmt = some x → x.sent = true →
    x.write = true → (s.link l).st = .up → x.tag < 256 →
    rxFrame 0xF7 f.rd f.groups = some (withCrc16 ([0x90] ++ le 1 x.tag ++ le 2 x.addr ++ [0]), false) →
    OwnedAs .pf0 x.sq x.cid s →
    Answers (.mgmtFrame l f.rd f.groups) s (fun t => CompletedAs .pf0 x.sq x.cid stDONE x.n s t ∧ t.out = [] ∧
      t.link l = { s.link l with mgmt := none } ∧ (∀ m, m ≠ l → t.link m = s.link m) ∧ RingsKept s t)) ∧
  (∀ (l : Nat) (x : Mgmt) (code : Byte) (f : LineFrame) (s : State), l < s.pla.links.length → (s.link l).mgmt = some x →
    x.sent = true → (s.link l).st = .up → x.tag < 256 →
    rxFrame 0xF7 f.rd f.groups = some (withCrc16 ([0xF0] ++ le 1 x.tag ++ le 2 x.addr ++ [1, code]), false) →
    OwnedAs .pf0 x.sq x.cid s →
    Answers (.mgmtFrame l f.rd f.groups) s (fun t => CompletedAs .pf0 x.sq x.cid stDONE_NOTE (0x200 + code.toNat) s t ∧ t.out = [] ∧
      t.link l = { s.link l with mgmt := none } ∧ (∀ m, m ≠ l → t.link m = s.link m) ∧ RingsKept s t)) ∧
  (∀ (l : Nat) (x : Mgmt) (s : State), l < s.pla.links.length → (s.link l).mgmt = some x → (s.link l).st = .up →
    OwnedAs .pf0 x.sq x.cid s →
    Answers (.mgmtTimeout l) s (fun t => CompletedAs .pf0 x.sq x.cid stDONE_NOTE 0x100 s t ∧ t.out = [] ∧
      t.link l = { s.link l with mgmt := none } ∧ (∀ m, m ≠ l → t.link m = s.link m) ∧ RingsKept s t)) ∧
  (∀ (i : Instr) (l : Nat) (s : State), l < s.pla.links.length → (s.link l).st = .up → (i = .lossOfSignal l ∨ i = .commaOffAlignment l) →
    Answers i s (fun t => (t.link l).st = .down ∧ (t.link l).cause = 1 ∧ (t.link l).downs = incSat (s.link l).downs ∧
      (t.link l).waiting = true ∧ (t.link l).slot = (if (s.link l).owes then some Cmd.safeCmd else none) ∧
      (∀ m, m ≠ l → t.link m = s.link m) ∧ RefsKept s t)) ∧
  (∀ (l group gap : Nat) (rd : Bool) (c : LineSym) (s : State), received rd group = .inl c →
    Answers (.codeError l ⟨rd, group, gap⟩) s (fun t => t = { s with out := [], cur := none })) ∧
  (∀ (l group gap : Nat) (rd : Bool) (e : CodeErr) (s : State), l < s.pla.links.length → (s.link l).st = .up →
    received rd group = .inr e → ((s.link l).errs = [] ∨ 64 ≤ gap) →
    Answers (.codeError l ⟨rd, group, gap⟩) s (fun t => (t.link l).st = .up ∧ (t.link l).codeErr = incSat (s.link l).codeErr ∧ OnlyLink l s t)) ∧
  (∀ (l group gap x : Nat) (rest : List Nat) (rd : Bool) (e : CodeErr) (s : State), l < s.pla.links.length → (s.link l).st = .up →
    received rd group = .inr e → (s.link l).errs = x :: rest → gap < 64 →
    ((x :: rest).filter (fun y => y ≤ x + gap ∧ x + gap < y + 64)).length < 3 →
    Answers (.codeError l ⟨rd, group, gap⟩) s (fun t => (t.link l).st = .up ∧ (t.link l).codeErr = incSat (s.link l).codeErr ∧ OnlyLink l s t)) ∧
  (∀ (l group gap x : Nat) (rest : List Nat) (rd : Bool) (e : CodeErr) (s : State), l < s.pla.links.length → (s.link l).st = .up →
    received rd group = .inr e → (s.link l).errs = x :: rest → gap < 64 →
    3 ≤ ((x :: rest).filter (fun y => y ≤ x + gap ∧ x + gap < y + 64)).length →
    Answers (.codeError l ⟨rd, group, gap⟩) s (fun t => (t.link l).st = .down ∧ (t.link l).cause = 1 ∧
      (t.link l).codeErr = incSat (s.link l).codeErr)) ∧
  (∀ (i : Instr) (l : Nat) (s : State), (s.link l).st ≠ .up → (i = .lossOfSignal l ∨ i = .commaOffAlignment l) →
    Answers i s (fun t => t = { s with out := [], cur := none }))

/-! ### Dispenser ports -/

/-- PORT_STATUS and PILOT_SET (R245, R253, R255, R267). PILOT_SET gives an enabled port its mode, duty and energy flag, evaluates it and
returns its state, whatever arrives in its cycle; it clears the fault latch only with STEADY, energy 0 and no fault condition, and any
other on a FAULT port is refused with BAD_STATE, changing nothing. Which commands arrive in one cycle is the model's choice: the one
that waits next may (log entry 36), and in the clauses with NoInputNext it is no input of the port. -/
def Claim.PilotCommands : Prop :=
  (∀ (q : Sqe) (s : State) (n : Nat), Taken 0x50 q s → bits (sd q 6) 4 0 = n → 1 ≤ n → sd q 1 < 16 → sd q 1 + n ≤ 16 →
    32 * n ≤ sd q 4 →
    Answers (.portStatus q) s (fun t => ReadOnly q n ((List.range n).flatMap (fun i => portRecord (sd q 1 + i) s)) s t ∧
      ∀ p, (portRecord p s).length = 32 ∧ u (portRecord p s) 0 1 = (s.prt p).st.code ∧
        u (portRecord p s) 3 1 = (s.prt p).mode % 256 ∧ u (portRecord p s) 4 2 = (s.prt p).duty % 2 ^ 16 ∧
        u (portRecord p s) 16 4 = (s.prt p).rxFrames % 2 ^ 32 ∧ u (portRecord p s) 24 4 = (s.prt p).rxDrop % 2 ^ 32)) ∧
  (∀ (q : Sqe) (s : State), Taken 0x51 q s → sd q 1 < 16 → sd q 1 < s.vpc.ports.length → bits (sd q 6) 1 0 ≠ 3 →
    ¬(bits (sd q 6) 1 0 = 2 ∧ bit (sd q 6) 2 = true) → bits (sd q 6) 15 3 = 0 → bits (sd q 6) 31 26 = 0 →
    (if bits (sd q 6) 1 0 = 1 then 30 ≤ bits (sd q 6) 25 16 ∧ bits (sd q 6) 25 16 ≤ 970 else bits (sd q 6) 25 16 = 0) →
    (s.conf.port (sd q 1)).enable = true → (s.prt (sd q 1)).st ≠ .fault → (s.prt (sd q 1)).latch = false →
    (s.prt (sd q 1)).admission = false →
    Answers (.pilotSet q) s (fun t => Completed q stDONE (t.prt (sd q 1)).st.code s t ∧
      ((t.prt (sd q 1)).energy = true → bit (sd q 6) 2 = true) ∧ (∀ p, p ≠ sd q 1 → t.prt p = s.prt p) ∧ RefsKept s t)) ∧
  (∀ (q : Sqe) (s : State), Taken 0x51 q s → sd q 1 < 16 → sd q 1 < s.vpc.ports.length → bits (sd q 6) 1 0 ≠ 3 →
    ¬(bits (sd q 6) 1 0 = 2 ∧ bit (sd q 6) 2 = true) → bits (sd q 6) 15 3 = 0 → bits (sd q 6) 31 26 = 0 →
    (if bits (sd q 6) 1 0 = 1 then 30 ≤ bits (sd q 6) 25 16 ∧ bits (sd q 6) 25 16 ≤ 970 else bits (sd q 6) 25 16 = 0) →
    (s.conf.port (sd q 1)).enable = true → (s.prt (sd q 1)).st ≠ .fault → (s.prt (sd q 1)).latch = false →
    (s.prt (sd q 1)).condition = none → (s.prt (sd q 1)).admission = false → NoInputNext (sd q 1) s →
    Answers (.pilotSet q) s (fun t => Completed q stDONE (t.prt (sd q 1)).st.code s t ∧
      (t.prt (sd q 1)).mode = bits (sd q 6) 1 0 ∧ (t.prt (sd q 1)).duty = bits (sd q 6) 25 16 ∧
      ((s.prt (sd q 1)).st ≠ .energy → (t.prt (sd q 1)).energy = bit (sd q 6) 2) ∧
      (∀ p, p ≠ sd q 1 → t.prt p = s.prt p) ∧ RefsKept s t)) ∧
  (∀ (q : Sqe) (s : State), Taken 0x51 q s → sd q 1 < 16 → sd q 1 < s.vpc.ports.length → sd q 6 = 0 →
    (s.conf.port (sd q 1)).enable = true → (s.prt (sd q 1)).st = .fault → (s.prt (sd q 1)).condition = none →
    (s.prt (sd q 1)).admission = false → s.cfg.isSome → s.serves = true → (s.prt (sd q 1)).pilot = some 0 →
    (s.prt (sd q 1)).prox.isSome → NoInputNext (sd q 1) s →
    Answers (.pilotSet q) s (fun t => Completed q stDONE 2 s t ∧ (t.prt (sd q 1)).latch = false ∧
      (t.prt (sd q 1)).st = .vacant ∧ (t.prt (sd q 1)).mode = 0 ∧ (t.prt (sd q 1)).energy = false)) ∧
  (∀ (q : Sqe) (s : State), Taken 0x51 q s → sd q 1 < 16 → bits (sd q 6) 1 0 = 1 → bits (sd q 6) 15 3 = 0 →
    bits (sd q 6) 31 26 = 0 → 30 ≤ bits (sd q 6) 25 16 → bits (sd q 6) 25 16 ≤ 970 → (s.conf.port (sd q 1)).enable = true →
    (s.prt (sd q 1)).st = .fault → Answers (.pilotSet q) s (OnlyCompletes q stBAD_STATE 0 s))

/-- Bands and port states (R247, R250, R252, R253, R255, R256). The samples of a high plateau and five proximity readings in a row in one band give the bands
of Table 09-2 and R250, and the state of the port follows the rules of R252 in their order; a port that leaves ENERGY loses its energy
flag, and SPA sees it not ready. An entry into FAULT sets the latch and mode STEADY. Here the command that waits next is no other input
of the port, which might arrive in the same cycle (the model's choice, log entry 36). -/
def Claim.PortStates : Prop :=
  (∀ (n : Nat) (l : List (List Int)) (x : List Int) (s : State), n < s.vpc.ports.length → n < s.spa.inp.ready.length →
    s.cfg.isSome → s.serves = true →
    (s.conf.port n).enable = true → Plateau (s.prt n) l x → (s.prt n).latch = false → (s.prt n).admission = false →
    (s.prt n).diode = false → (s.prt n).prox = some 2 → (s.prt n).mode ≤ 1 → (s.prt n).st ≠ .fault → NoInputNext n s →
    Answers (.pilotBandAccept n l) s (fun t =>
      ((∀ mv ∈ x, 4500 ≤ mv ∧ mv < 7500) → (s.prt n).energy = true →
        (t.prt n).pilot = some 2 ∧ (t.prt n).st = .energy ∧
        ((s.prt n).st ≠ .energy → t.spa.inp.ready.getD n false = true)) ∧
      ((∀ mv ∈ x, 7500 ≤ mv ∧ mv < 10500) →
        (t.prt n).pilot = some 1 ∧ (t.prt n).st = .plugged ∧
        ((s.prt n).st = .energy → (t.prt n).energy = false ∧ t.spa.inp.ready.getD n false = false)) ∧
      ((∀ mv ∈ x, 10500 ≤ mv ∧ mv < 13500) →
        (t.prt n).pilot = some 0 ∧ (t.prt n).st = .vacant ∧
        ((s.prt n).st = .energy → (t.prt n).energy = false ∧ t.spa.inp.ready.getD n false = false)) ∧
      ((∀ mv ∈ x, 1500 ≤ mv ∧ mv < 4500) →
        (t.prt n).pilot = some 3 ∧
        ((s.conf.port n).ventOk = false → (t.prt n).st = .plugged) ∧
        ((s.conf.port n).ventOk = true → (s.prt n).energy = true → (t.prt n).st = .energy)) ∧
      ((∀ mv ∈ x, -1500 ≤ mv ∧ mv < 1500) →
        (t.prt n).pilot = some 4 ∧ (t.prt n).st = .fault ∧ (t.prt n).latch = true ∧ (t.prt n).mode = 0 ∧ (t.prt n).cause = 0) ∧
      ((∀ mv ∈ x, mv < -1500 ∨ 13500 ≤ mv) →
        (t.prt n).pilot = some 6 ∧ (t.prt n).st = .fault ∧ (t.prt n).latch = true ∧ (t.prt n).mode = 0 ∧ (t.prt n).cause = 1) ∧
      (t.prt n).pilotHi = l.flatten.getLast?.getD (s.prt n).pilotHi ∧
      (∀ p, p ≠ n → t.prt p = s.prt p) ∧ RefsKept s t)) ∧
  (∀ (n : Nat) (l : List (List Int)) (s : State), n < s.vpc.ports.length → (s.conf.port n).enable = true → (s.prt n).pinMode = 0 →
    l.flatten.length < 5 → NoInputNext n s →
    Answers (.pilotBandAccept n l) s (fun t => (t.prt n).pilot = (s.prt n).pilot ∧ ∀ p, p ≠ n → t.prt p = s.prt p)) ∧
  (∀ (n : Nat) (l : List (List Int)) (s : State), 2 ≤ (s.prt n).pinMode →
    Answers (.pilotBandAccept n l) s (fun t => t = { s with out := [], cur := none })) ∧
  (∀ (n : Nat) (l x : List Nat) (s : State), n < s.vpc.ports.length → x.length = 5 → x <:+ l → n < s.spa.inp.ready.length → s.cfg.isSome → s.serves = true →
    (s.conf.port n).enable = true → (s.prt n).latch = false → (s.prt n).admission = false →
    (s.prt n).diode = false → (s.prt n).pilot = some 2 → (s.prt n).mode ≤ 1 → (s.prt n).st ≠ .fault →
    (s.conf.port n).ppLo < (s.conf.port n).ppMid → (s.conf.port n).ppMid < (s.conf.port n).ppHi → NoInputNext n s →
    Answers (.proximityBandAccept n l) s (fun t =>
      ((∀ mv ∈ x, (s.conf.port n).ppHi ≤ mv) → (t.prt n).prox = some 0 ∧ (t.prt n).st = .vacant) ∧
      ((∀ mv ∈ x, (s.conf.port n).ppMid ≤ mv ∧ mv < (s.conf.port n).ppHi) → (t.prt n).prox = some 1 ∧ (t.prt n).st = .plugged) ∧
      ((∀ mv ∈ x, (s.conf.port n).ppLo ≤ mv ∧ mv < (s.conf.port n).ppMid) → (s.prt n).energy = true →
        (t.prt n).prox = some 2 ∧ (t.prt n).st = .energy) ∧
      ((∀ mv ∈ x, mv < (s.conf.port n).ppLo) → (t.prt n).prox = some 3 ∧ (t.prt n).st = .fault ∧ (t.prt n).latch = true ∧ (t.prt n).cause = 3) ∧
      (t.prt n).pp = l.getLast?.getD (s.prt n).pp ∧
      (∀ p, p ≠ n → t.prt p = s.prt p) ∧ RefsKept s t)) ∧
  (∀ (n : Nat) (l : List (List Int)) (s : State), n < s.vpc.ports.length → s.cfg.isSome → s.serves = true →
    (s.conf.port n).enable = true → LowPlateaus (s.prt n) l → (∀ y ∈ l.drop (l.length - 2), ∀ v ∈ y, -10500 < v) →
    (s.prt n).pilot ≠ some 4 → (s.prt n).pilot ≠ some 6 → (s.prt n).lowSampled = true → (s.prt n).latch = false → (s.prt n).admission = false → (s.prt n).prox = some 2 →
    (s.prt n).st ≠ .fault → NoInputNext n s →
    Answers (.diodeFaultAccept n l) s (fun t => (t.prt n).diode = true ∧ (t.prt n).st = .fault ∧ (t.prt n).cause = 2 ∧
      (t.prt n).latch = true ∧ (t.prt n).mode = 0 ∧ ∀ p, p ≠ n → t.prt p = s.prt p)) ∧
  (∀ (n : Nat) (l : List (List Int)) (s : State), n < s.vpc.ports.length → s.cfg.isSome → s.serves = true →
    (s.conf.port n).enable = true → LowPlateaus (s.prt n) l → (∀ y ∈ l.drop (l.length - 2), ∃ v ∈ y, v ≤ -10500) →
    (s.prt n).lowSampled = true → (s.prt n).latch = true → (s.prt n).admission = false → (s.prt n).prox = some 2 →
    NoInputNext n s →
    Answers (.diodeFaultClear n l) s (fun t => (t.prt n).diode = false ∧ (t.prt n).st = .fault ∧ (t.prt n).latch = true ∧
      ∀ p, p ≠ n → t.prt p = s.prt p)) ∧
  (∀ (n : Nat) (s : State), n < s.vpc.ports.length → (s.prt n).pinMode ≠ 3 → ((s.prt n).pinMode ≠ (s.prt n).mode ∨ (s.prt n).pinDuty ≠ (s.prt n).duty) →
    Answers (.pilotChangeEffect n) s (fun t => t.out.head? = some (.pilot n (s.prt n).mode (s.prt n).duty) ∧
      (t.prt n).pinMode = (s.prt n).mode ∧ (t.prt n).pinDuty = (s.prt n).duty ∧
      ((s.prt n).mode = 2 → (t.prt n).pilot = some 5) ∧ (∀ p, p ≠ n → t.prt p = s.prt p) ∧ RefsKept s t))

/-- Vehicle frames (R264 to R266, Table 09-7). FRAME_TX and FRAME_RX_BUFFER run, at most eight each on a port; a good frame from 14 to
1,518 bytes is stored behind its header when a tile is free and dropped and counted when none is; a bad one is dropped and counted; the
oldest frame goes into the oldest buffer and completes it with its length, and its tile is freed under a new generation (R119); the
oldest FRAME_TX completes when its frame has been sent, padded to 60 bytes on the PHY.
A frame's padding and its FCS are log entry 10 (PRESUMED, DEDUCED): the model's choice. -/
def Claim.VehicleFrames : Prop :=
  (∀ (q : Sqe) (b : List Byte) (s : State) (k : Nat), Taken 0x52 q s → sd q 1 < 16 → sd q 1 < s.vpc.ports.length →
    sd q 4 = (bits (sd q 6) 10 0 + 3) / 4 * 4 → 14 ≤ bits (sd q 6) 10 0 → bits (sd q 6) 10 0 ≤ 1518 →
    (s.conf.port (sd q 1)).enable = true → s.freeSlot (sd q 1) 8 ((s.prt (sd q 1)).tx.map (fun t => t.slot)) = some k → ReadsOk q s →
    Answers (.frameTx q (.data b)) s (fun t => Running q s t ∧ t.out = [] ∧ RingsKept s t ∧
      t.prt (sd q 1) = { s.prt (sd q 1) with
        tx := (s.prt (sd q 1)).tx ++ [⟨q.sq, cidOf q, k,
          le 8 s.sTime ++ le 2 (padTo (bits (sd q 6) 10 0) b).length ++ le 1 (sd q 1) ++ [1] ++ zeros 4 ++ padTo (bits (sd q 6) 10 0) b⟩] } ∧
      (∀ p, p ≠ sd q 1 → t.prt p = s.prt p) ∧
      t = { s with hqe := t.hqe, vpc := { s.vpc with ports := t.vpc.ports }, out := t.out, cur := t.cur })) ∧
  (∀ (q : Sqe) (s : State), Taken 0x53 q s → sd q 1 < 16 → sd q 1 < s.vpc.ports.length → 1536 ≤ sd q 4 →
    (s.conf.port (sd q 1)).enable = true →
    ((s.prt (sd q 1)).bufs.length < 8 → Answers (.frameRxBuffer q) s (fun t => Running q s t ∧ t.out = [] ∧ RingsKept s t ∧
      t.prt (sd q 1) = { s.prt (sd q 1) with bufs := (s.prt (sd q 1)).bufs ++ [⟨q.sq, cidOf q, addrOf q⟩] } ∧
      (∀ p, p ≠ sd q 1 → t.prt p = s.prt p) ∧
      t = { s with hqe := t.hqe, vpc := { s.vpc with ports := t.vpc.ports }, out := t.out, cur := t.cur })) ∧
    (8 ≤ (s.prt (sd q 1)).bufs.length → Answers (.frameRxBuffer q) s (OnlyCompletes q stBUSY_RETRY 0 s))) ∧
  (∀ (n k : Nat) (d : List Byte) (s : State), n < s.vpc.ports.length → (s.conf.port n).enable = true → (s.conf.port n).ccs = false →
    14 ≤ d.length → d.length ≤ 1518 → s.freeSlot n 0 ((s.prt n).rx.map (fun t => t.slot)) = some k →
    Answers (.vehicleFrameRx n d (le 4 (crc32 d))) s (fun t =>
      t.prt n = { s.prt n with
        rx := (s.prt n).rx ++ [⟨k, le 8 s.sTime ++ le 2 d.length ++ le 1 n ++ [0] ++ zeros 4 ++ d⟩]
        rxFrames := incSat (s.prt n).rxFrames } ∧
      (∀ p, p ≠ n → t.prt p = s.prt p) ∧ t = { s with vpc := { s.vpc with ports := t.vpc.ports }, out := [], cur := none })) ∧
  (∀ (n : Nat) (d : List Byte) (s : State), n < s.vpc.ports.length → (s.conf.port n).enable = true → (s.conf.port n).ccs = false →
    14 ≤ d.length → d.length ≤ 1518 → s.freeSlot n 0 ((s.prt n).rx.map (fun t => t.slot)) = none →
    Answers (.vehicleFrameRx n d (le 4 (crc32 d))) s (fun t => t.prt n = { s.prt n with rxDrop := incSat (s.prt n).rxDrop } ∧
      t.vpc.lastEvent = some (n, 2, incSat (s.prt n).rxDrop % 256) ∧ (∀ p, p ≠ n → t.prt p = s.prt p))) ∧
  (∀ (n : Nat) (d fcs : List Byte) (s : State), n < s.vpc.ports.length → (s.conf.port n).enable = true →
    (s.conf.port n).ccs = false → fcs.length = 4 → (d.length < 14 ∨ 1518 < d.length ∨ crc32 d ≠ leVal fcs) →
    Answers (.vehicleFrameRx n d fcs) s (fun t => t.prt n = { s.prt n with rxFcs := incSat (s.prt n).rxFcs } ∧
      (∀ p, p ≠ n → t.prt p = s.prt p) ∧ t = { s with vpc := { s.vpc with ports := t.vpc.ports }, out := [], cur := none })) ∧
  (∀ (n : Nat) (s : State) (f : FrameTile) (rx : List FrameTile) (b : RxBuf) (bufs : List RxBuf), n < s.vpc.ports.length →
    (s.prt n).rx = f :: rx → (s.prt n).bufs = b :: bufs → OwnedAs .pf0 b.sq b.cid s →
    Answers (.vehicleFrameDelivery n true) s (fun t => t.out = t.hostWrites .pf0 b.addr f.bytes ∧
      CompletedAs .pf0 b.sq b.cid stDONE (f.bytes.length - 16) s t ∧ t.prt n = { s.prt n with rx := rx, bufs := bufs } ∧
      t.tmf.gen (0x0840 + 16 * n + f.slot) = nextGen (s.tmf.gen (0x0840 + 16 * n + f.slot)) ∧
      (∀ p, p ≠ n → t.prt p = s.prt p) ∧ RingsKept s t) ∧
    Answers (.vehicleFrameDelivery n false) s (fun t => CompletedAs .pf0 b.sq b.cid stTILE_CHECK 0 s t ∧
      t.prt n = { s.prt n with rx := rx, bufs := bufs } ∧ (∀ fn a by_, Out.hostWrite fn a by_ ∉ t.out))) ∧
  (∀ (n : Nat) (s : State) (x : TxReq) (rest : List TxReq) (f : List Byte), n < s.vpc.ports.length → (s.prt n).tx = x :: rest →
    x.bytes.drop 16 = f → (s.conf.port n).ccs = false → OwnedAs .pf0 x.sq x.cid s →
    Answers (.vehicleFrameSent n .sent) s (fun t => t.out = [.ether n (padTo (max 60 f.length) f ++ le 4 (crc32 (padTo (max 60 f.length) f)))] ∧
      CompletedAs .pf0 x.sq x.cid stDONE 0 s t ∧
      t.prt n = { s.prt n with tx := rest, txFrames := incSat (s.prt n).txFrames, statusDue := false } ∧
      (∀ p, p ≠ n → t.prt p = s.prt p)) ∧
    Answers (.vehicleFrameSent n .abandoned) s (fun t => t.out = [] ∧ CompletedAs .pf0 x.sq x.cid stDONE_NOTE 1 s t ∧
      t.prt n = { s.prt n with tx := rest }) ∧
    Answers (.vehicleFrameSent n .badTile) s (fun t => CompletedAs .pf0 x.sq x.cid stTILE_CHECK 0 s t ∧
      t.prt n = { s.prt n with tx := rest })) ∧
  (∀ (n : Nat) (s : State) (x : TxReq) (rest : List TxReq) (f b : List Byte), n < s.vpc.ports.length → (s.prt n).tx = x :: rest →
    x.bytes.drop 16 = f → b = [1, 0] ++ le 2 (max 60 f.length) ++ padTo (max 60 f.length) f →
    (s.conf.port n).ccs = true → OwnedAs .pf0 x.sq x.cid s →
    Answers (.vehicleFrameSent n .sent) s (fun t => t.out = [.modem n (b ++ le 4 (crc32c b)), .modem n [3, 0, 0, 0]] ∧
      CompletedAs .pf0 x.sq x.cid stDONE 0 s t ∧
      t.prt n = { s.prt n with tx := rest, txFrames := incSat (s.prt n).txFrames, statusDue := true })) ∧
  (∀ (n k : Nat) (d : List Byte) (s : State), n < s.vpc.ports.length → s.modemRuns n = true → 14 ≤ d.length → d.length ≤ 1518 →
    s.freeSlot n 0 ((s.prt n).rx.map (fun t => t.slot)) = some k →
    Answers (.modemIrq n (le 2 d.length ++ d) (le 4 (crc32c (le 2 d.length ++ d)))) s (fun t => t.out = [.modem n [2, 0, 0, 0]] ∧
      t.prt n = { s.prt n with
        rx := (s.prt n).rx ++ [⟨k, le 8 s.sTime ++ le 2 d.length ++ le 1 n ++ [0] ++ zeros 4 ++ d⟩]
        rxFrames := incSat (s.prt n).rxFrames } ∧ (∀ p, p ≠ n → t.prt p = s.prt p)))

/-- The modem (R262, R263): each STATUS transaction sends four bytes; a good answer gives the link state; the third bad one in a row
resets the modem for 10 ms with an event and fault record 0x0602, and the port state is not affected. -/
def Claim.ModemStatus : Prop :=
  (∀ (n : Nat) (a : List Byte) (s : State), n < s.vpc.ports.length → s.modemRuns n = true → a.length = 8 →
    crc32c (a.take 4) = u a 4 4 → (∃ x ∈ a, x ≠ 0xFF) →
    Answers (.modemStatusPoll n a) s (fun t => t.out = (if (s.prt n).statusDue then [] else [.modem n [3, 0, 0, 0]]) ∧
      t.prt n = { s.prt n with badStatus := 0, modemUp := bit (u a 0 1) 0, statusDue := false } ∧ (∀ p, p ≠ n → t.prt p = s.prt p) ∧
      t = { s with vpc := { s.vpc with ports := t.vpc.ports }, out := t.out, cur := none })) ∧
  (∀ (n : Nat) (a : List Byte) (s : State), n < s.vpc.ports.length → s.modemRuns n = true → a.length = 8 → (∀ x ∈ a, x = 0xFF) →
    (s.prt n).badStatus = 2 → s.sup.holdupReady = true → s.sup.journal.length < 1024 →
    Answers (.modemStatusPoll n a) s (fun t => .modemReset n true ∈ t.out ∧
      t.prt n = { s.prt n with badStatus := 0, resetting := true, modemUp := false, statusDue := false } ∧ t.vpc.lastEvent = some (n, 3, 1) ∧
      t.sup.journal.map (fun r => (r.code, r.arg0, r.arg1)) = s.sup.journal.map (fun r => (r.code, r.arg0, r.arg1)) ++ [(0x0602, n, 1)] ∧
      (∀ p, p ≠ n → t.prt p = s.prt p))) ∧
  (∀ (n : Nat) (s : State), n < s.vpc.ports.length → (s.prt n).resetting = true →
    Answers (.modemResetEnd n) s (fun t => t.out = [.modemReset n false] ∧ t.prt n = { s.prt n with resetting := false } ∧
      (∀ p, p ≠ n → t.prt p = s.prt p) ∧ t = { s with vpc := { s.vpc with ports := t.vpc.ports }, out := t.out, cur := none }))

/-! ### Thermal Cones and the Aqaux loop -/

/-- The TCM commands (R283, R288, R290, Tables 10-9 and 10-10). THERMAL_STATUS returns 16 bytes for each enabled object. LATCH_CLEAR
clears the latches of a sensor that has read below th3 − hyst at two ticks, answers note 0 for one that is not latched, and refuses any
other; 0xFFFFFFFF clears every latch it may and counts them and those left. AQAUX_SET sets the loop's mode and its end. -/
def Claim.ThermalCommands : Prop :=
  (∀ (q : Sqe) (s : State) (n : Nat), Taken 0x60 q s → bits (sd q 6) 1 0 = 1 → bits (sd q 6) 15 8 = n → 1 ≤ n → sd q 1 < 64 →
    sd q 1 + n ≤ 64 → 16 * n ≤ sd q 4 →
    Answers (.thermalStatus q) s (ReadOnly q n (((List.range n).map (fun i => sd q 1 + i)).flatMap (fun g =>
      le 4 (s.tcmCaps g).1 ++ le 4 (s.tcmCaps g).2.1 ++ le 1 (b2n (s.tcmReport g) + 2 * b2n (s.flowFaulted g)) ++ [0] ++
        le 2 (s.tcmCaps g).2.2 ++ zeros 4)) s)) ∧
  (∀ (q : Sqe) (s : State) (n : Nat), Taken 0x60 q s → bits (sd q 6) 1 0 = 0 → bits (sd q 6) 15 8 = n → 1 ≤ n → sd q 1 < 152 →
    sd q 1 + n ≤ 152 → 16 * n ≤ sd q 4 →
    ((∀ i, i < n → (s.conf.sensor (sd q 1 + i)).enable = true) →
      Answers (.thermalStatus q) s
        (ReadOnly q n (((List.range n).map (fun i => sd q 1 + i)).flatMap (fun o => sensorRecord o s)) s)) ∧
    ((∃ i, i < n ∧ (s.conf.sensor (sd q 1 + i)).enable = false) →
      Answers (.thermalStatus q) s (OnlyCompletes q stBAD_OBJECT 0 s))) ∧
  (∀ (q : Sqe) (s : State) (n : Nat), Taken 0x60 q s → bits (sd q 6) 1 0 = 2 → bits (sd q 6) 15 8 = n → 1 ≤ n → sd q 1 < 16 →
    sd q 1 + n ≤ 16 → 16 * n ≤ sd q 4 →
    ((∀ i, i < n → (s.conf.aq (sd q 1 + i)).enable = true) →
      Answers (.thermalStatus q) s
        (ReadOnly q n (((List.range n).map (fun i => sd q 1 + i)).flatMap (fun o => aqauxRecord o s)) s)) ∧
    ((∃ i, i < n ∧ (s.conf.aq (sd q 1 + i)).enable = false) →
      Answers (.thermalStatus q) s (OnlyCompletes q stBAD_OBJECT 0 s))) ∧
  (∀ (q : Sqe) (s : State), Taken 0x61 q s → sd q 1 = 0xFFFFFFFF → s.tcm.sens.length = 152 →
    Answers (.latchClear q) s (fun t =>
      Completed q stDONE (countOf 152 (fun i => (s.sens i).latched && s.mayClear i) +
        65536 * countOf 152 (fun i => (s.sens i).latched && !s.mayClear i)) s t ∧
      (∀ n, n < 152 → ((s.sens n).latched = true → s.mayClear n = true → t.sens n = { s.sens n with l3 := false, l4 := false }) ∧
        (s.mayClear n = false → t.sens n = s.sens n)) ∧ t.spa = s.spa ∧ t.kce = s.kce ∧ t.psc = s.psc)) ∧
  (∀ (q : Sqe) (s : State), Taken 0x61 q s → sd q 1 < 152 → sd q 1 < s.tcm.sens.length → (s.conf.sensor (sd q 1)).enable = true →
    (s.sens (sd q 1)).latched = true → ((s.sens (sd q 1)).broken = false ∨ (s.sens (sd q 1)).subst = true) →
    2 ≤ (s.sens (sd q 1)).below →
    Answers (.latchClear q) s (fun t => Completed q stDONE 1 s t ∧
      t.sens (sd q 1) = { s.sens (sd q 1) with l3 := false, l4 := false } ∧ (∀ n, n ≠ sd q 1 → t.sens n = s.sens n) ∧
      t.tcm.lastEvent = some (sd q 1, 6, (s.sens (sd q 1)).eff % 256) ∧ t.spa = s.spa ∧ t.kce = s.kce ∧ t.psc = s.psc)) ∧
  (∀ (q : Sqe) (s : State), Taken 0x61 q s → sd q 1 < 152 → (s.conf.sensor (sd q 1)).enable = true →
    ((s.sens (sd q 1)).latched = false → Answers (.latchClear q) s (OnlyCompletes q stDONE_NOTE 0 s)) ∧
    ((s.sens (sd q 1)).latched = true → ((s.sens (sd q 1)).broken = true ∧ (s.sens (sd q 1)).subst = false ∨ (s.sens (sd q 1)).below < 2) →
      Answers (.latchClear q) s (OnlyCompletes q stBAD_STATE 0 s))) ∧
  (∀ (q : Sqe) (s : State), Taken 0x62 q s → sd q 1 < 16 → sd q 1 < s.tcm.aq.length → bits (sd q 6) 15 1 = 0 →
    bits (sd q 6) 31 16 ≤ 3600 → (s.conf.aq (sd q 1)).enable = true →
    Answers (.aqauxSet q) s (fun t => Completed q stDONE 0 s t ∧ t.out = [] ∧ RingsKept s t ∧
      t.aq (sd q 1) = { s.aq (sd q 1) with
        force := bit (sd q 6) 0
        until_ := if bit (sd q 6) 0 = true ∧ bits (sd q 6) 31 16 ≠ 0 then some (s.sup.uptime + bits (sd q 6) 31 16 * 1000000)
          else none } ∧
      (∀ p, p ≠ sd q 1 → t.aq p = s.aq p) ∧
      t = { s with hqe := t.hqe, tcm := { s.tcm with aq := t.tcm.aq }, out := t.out, cur := t.cur }))

/-- A tick of TCM (R20, R272 to R274, R276, R283). An external or internal sensor's conversion counts toward its being broken or
restored; an unbroken one reads the mean of its last four good conversions plus its trim; one that becomes broken in Class L reads one
kelvin above th3 and latches at once. No tick clears a latch, and none acts on a lane, a phase group or the site plan. -/
def Claim.ThermalTick : Prop :=
  ∀ (raw : List Conversion) (s : State), s.siteUp = true → s.tcm.sens.length = 152 →
    Answers (.thermalTick raw) s (fun t =>
      (∀ (n : Nat) (c : Conversion), n < 88 → raw[n]? = some c → (s.conf.sensor n).enable = true →
        (let bad := decide (25000 < c.code) || decide (c.code < -6000) || (decide (64 ≤ n) && c.selfTestFail)
         (t.sens n).nFlag = (if bad then (s.sens n).nFlag + 1 else 0) ∧
         (t.sens n).broken = (if bad then (s.sens n).broken || decide (3 ≤ (s.sens n).nFlag + 1)
           else (s.sens n).broken && decide ((s.sens n).nOk + 1 < 10)) ∧
         (bad = false → (t.sens n).broken = false →
           (t.sens n).reading = some (rneDiv (sumI ((c.code :: (s.sens n).good).take 4)) ((c.code :: (s.sens n).good).take 4).length +
             (s.conf.sensor n).trim)) ∧
         (bad = true → (s.sens n).broken = false → (s.sens n).nFlag = 2 → s.sup.cls ≠ 1 → (s.sens n).inCone.getD 2 false = false →
           (t.sens n).broken = true ∧ (t.sens n).reading = some ((s.conf.sensor n).th3 + 100) ∧ (t.sens n).l3 = true ∧
             3 ≤ (t.sens n).eff))) ∧
      (∀ n, ((s.sens n).l3 = true → (t.sens n).l3 = true) ∧ ((s.sens n).l4 = true → (t.sens n).l4 = true)) ∧
      t.kce = s.kce ∧ t.psc = s.psc ∧ t.pla = s.pla ∧ t.spa = s.spa)

/-- What TCM gives the site plan (R277 to R281, R289): a snapshot's soft cap is no higher than any soft cap a sensor contributes to the
group, and its hard cap no higher than any hard one; a sensor at effective level 4, or tripped at level 3, contributes a hard cap of 0;
an orderly stop falls from P0 to 0 over its time; a port with a flow fault gives its group its uncooled limit. -/
def Claim.ThermalCaps : Prop :=
  (∀ (s : State) (g n : Nat), g < 64 → n < 152 → (s.conf.sensor n).enable = true → 2 ≤ (s.sens n).eff →
    g ∈ s.assoc (s.conf.sensor n) →
    (s.tcmCaps g).1 ≤ (s.contribution n g).1 ∧ (s.tcmCaps g).2.1 ≤ (s.contribution n g).2) ∧
  (∀ (s : State) (g n : Nat), ((s.sens n).eff = 4 ∨ ((s.sens n).eff = 3 ∧ (s.sens n).tripped = true)) →
    s.contribution n g = (noCap, 0)) ∧
  (∀ (s : State) (g n : Nat) (x : Stop), (s.sens n).eff = 3 → (s.sens n).tripped = false → (s.sens n).stop = some x → 0 < x.ms →
    (∃ c, s.contribution n g = (noCap, c) ∧ c ≤ (look g x.p0).getD 0 ∧
      (s.sup.uptime = x.start → c = (look g x.p0).getD 0) ∧ (x.start + x.ms * 1000 ≤ s.sup.uptime → c = 0))) ∧
  (∀ (s : State) (g p : Nat), p < 16 → (s.conf.aq p).enable = true → (s.aq p).fault = true → s.portGroup p = some g →
    (s.tcmCaps g).2.1 ≤ (s.conf.aq p).capNoflow) ∧
  (∀ (n : Nat) (s : State), n < s.tcm.sens.length → (s.conf.sensor n).enable = true → 2 ≤ (s.sens n).eff → (s.sens n).hard2 = false →
    Answers (.graceExpiry n) s (fun t => t.sens n = { s.sens n with hard2 := true } ∧
      t.tcm.lastEvent = some (n, 3, (s.conf.sensor n).graceMs % 256) ∧ (∀ m, m ≠ n → t.sens m = s.sens m) ∧ t.spa = s.spa)) ∧
  (∀ (n : Nat) (s : State), (s.sens n).eff < 2 → Answers (.graceExpiry n) s (fun t => t = { s with out := [], cur := none }))

/-- The flow second and FORCE_ON (R287, R288). Pulses count and give each port's flow; the second second in a row below flow_min raises
a flow fault once the pump has been on for its settling time, and the second at or above it clears the fault. -/
def Claim.FlowAndForce : Prop :=
  (∀ (pulses : List Nat) (s : State), s.siteUp = true → s.tcm.aq.length = 16 →
    Answers (.flowSecond pulses) s (fun t =>
      (∀ i, i < 16 → t.tcm.pulses.getD i 0 = (s.tcm.pulses.getD i 0 + pulses.getD i 0) % 2 ^ 32) ∧
      (∀ p, p < 16 → (s.conf.aq p).enable = true → (s.conf.aq p).flow < 16 →
        (let f := rneDivN (pulses.getD (s.conf.aq p).flow 0 * 600) (s.conf.aq p).kFlow
         (t.aq p).flow = f ∧
         (f < (s.conf.aq p).flowMin → (s.aq p).fault = false → (s.aq p).low = 1 → (s.aq p).pump = true →
           (s.conf.aq p).settle * 1000000 ≤ s.sup.uptime - (s.aq p).pumpSince → (t.aq p).fault = true) ∧
         (f < (s.conf.aq p).flowMin → (s.aq p).fault = true → (t.aq p).fault = true) ∧
         ((s.conf.aq p).flowMin ≤ f → (s.aq p).fault = false → (t.aq p).fault = false) ∧
         ((s.conf.aq p).flowMin ≤ f → (s.aq p).fault = true → ((t.aq p).fault = true ↔ (s.aq p).ok = 0)))) ∧
      (∀ p, ((s.conf.aq p).enable = false ∨ 16 ≤ (s.conf.aq p).flow) → t.aq p = s.aq p) ∧
      t.spa = s.spa ∧ t.kce = s.kce ∧ t.lsw = s.lsw)) ∧
  (∀ (p : Nat) (s : State), p < s.tcm.aq.length → (s.aq p).until_.isSome →
    Answers (.aqauxForceExpiry p) s (fun t => t.aq p = { s.aq p with force := false, until_ := none } ∧
      (∀ r, r ≠ p → t.aq r = s.aq r) ∧ t = { s with tcm := { s.tcm with aq := t.tcm.aq }, out := [], cur := none })) ∧
  (∀ (p : Nat) (s : State), (s.aq p).until_ = none →
    Answers (.aqauxForceExpiry p) s (fun t => t = { s with out := [], cur := none }))

/-! ### Load switches -/

/-- The LSW commands (R296, R302, R308, Tables 11-6 and 11-7). SWITCH_SET records the order of a host-owned channel; an on-order of an
OFF channel that nothing defers puts it in INRUSH with its output on, an off-order turns its output off, and the result is the new
state. A TCM-owned channel is refused; a LOCKOUT channel records the order and answers note 6. LOCKOUT_CLEAR ends a lock-out, clears the
retry count, and the channel takes its recorded order;
0xFFFFFFFF clears every one it may and counts them and those left.
Each of these commands is shown to complete, that is, to answer a next state with its own effect: switchSet,
switchStatus, lockoutClear. -/
def Obligations.SwitchCommands : Prop :=
  (∀ (q : Sqe) (s : State), Taken 0x68 q s → sd q 1 < 24 → sd q 1 < s.lsw.chans.length → sd q 6 = 1 →
    (s.conf.chan (sd q 1)).owner = 1 → (s.ch (sd q 1)).st = .off → (s.ch (sd q 1)).held = false → s.lsw.supply = 0 →
    ((s.conf.chan (sd q 1)).compat = true ∨
      (s.ch (sd q 1)).budget + (s.ch (sd q 1)).eLast * 100 ≤ (s.conf.chan (sd q 1)).clampBudget * 1000) →
    (s.lsw.chans.filter (fun c => c.st = .inrush)).length < 4 →
    Answers (.switchSet q) s (fun t => Completed q stDONE 1 s t ∧ t.out = switchOut (sd q 1) true s ∧ RingsKept s t ∧
      t.ch (sd q 1) = { s.ch (sd q 1) with st := .inrush, order := 1, duty := 0, defer := 0 } ∧
      (∀ n, n ≠ sd q 1 → t.ch n = s.ch n) ∧
      t = { s with hqe := t.hqe, lsw := { s.lsw with chans := t.lsw.chans }, out := t.out, cur := t.cur })) ∧
  (∀ (q : Sqe) (s : State), Taken 0x68 q s → sd q 1 < 24 → sd q 1 < s.lsw.chans.length → sd q 6 = 0 →
    (s.conf.chan (sd q 1)).owner = 1 → (s.conf.chan (sd q 1)).compat = true →
    ((s.ch (sd q 1)).st = .on ∨ (s.ch (sd q 1)).st = .pwm) →
    Answers (.switchSet q) s (fun t => Completed q stDONE 0 s t ∧ t.out = switchOut (sd q 1) false s ∧ RingsKept s t ∧
      t.ch (sd q 1) = { s.ch (sd q 1) with st := .off, order := 0, duty := 0, dApp := 0, defer := 0 } ∧
      (∀ n, n ≠ sd q 1 → t.ch n = s.ch n))) ∧
  (∀ (q : Sqe) (s : State), Taken 0x68 q s → sd q 1 < 24 → (sd q 6 = 0 ∨ sd q 6 = 1) → (s.conf.chan (sd q 1)).owner = 2 →
    Answers (.switchSet q) s (OnlyCompletes q stBAD_STATE 0 s)) ∧
  (∀ (q : Sqe) (s : State), Taken 0x68 q s → sd q 1 < 24 → sd q 1 < s.lsw.chans.length → (sd q 6 = 0 ∨ sd q 6 = 1) →
    (s.conf.chan (sd q 1)).owner = 1 → (s.ch (sd q 1)).st = .lockout →
    Answers (.switchSet q) s (fun t => Completed q stDONE_NOTE 6 s t ∧ t.out = [] ∧
      t.ch (sd q 1) = { s.ch (sd q 1) with order := sd q 6, duty := 0 } ∧ (∀ n, n ≠ sd q 1 → t.ch n = s.ch n))) ∧
  (∀ (q : Sqe) (s : State) (n : Nat), Taken 0x69 q s → bits (sd q 6) 4 0 = n → 1 ≤ n → sd q 1 < 24 → sd q 1 + n ≤ 24 →
    16 * n ≤ sd q 4 →
    Answers (.switchStatus q) s (fun t => ReadOnly q n ((List.range n).flatMap (fun i => switchRecord (sd q 1 + i) s)) s t ∧
      ∀ c, (switchRecord c s).length = 16 ∧ u (switchRecord c s) 0 1 = (s.ch c).st.code ∧
        u (switchRecord c s) 2 1 = (s.ch c).cause % 256 ∧ u (switchRecord c s) 3 1 = (s.ch c).retries % 256 ∧
        u (switchRecord c s) 14 1 = (s.ch c).defer % 256)) ∧
  (∀ (q : Sqe) (s : State), Taken 0x6A q s → sd q 1 < 24 → sd q 1 < s.lsw.chans.length →
    ((s.ch (sd q 1)).st = .lockout → (s.ch (sd q 1)).cause ≠ 5 → (s.ch (sd q 1)).order = 0 →
      Answers (.lockoutClear q) s (fun t => Completed q stDONE 1 s t ∧ t.out = [] ∧
        t.ch (sd q 1) = { s.ch (sd q 1) with st := .off, retries := 0 } ∧ (∀ n, n ≠ sd q 1 → t.ch n = s.ch n))) ∧
    ((s.ch (sd q 1)).st ≠ .lockout → Answers (.lockoutClear q) s (OnlyCompletes q stDONE_NOTE 0 s)) ∧
    ((s.ch (sd q 1)).st = .lockout → (s.ch (sd q 1)).cause = 5 →
      (s.conf.chan (sd q 1)).clampBudget * 1000 < 2 * (s.ch (sd q 1)).budget →
      Answers (.lockoutClear q) s (OnlyCompletes q stBAD_STATE 0 s))) ∧
  (∀ (q : Sqe) (s : State), Taken 0x6A q s → sd q 1 = 0xFFFFFFFF → s.lsw.chans.length = 24 →
    Answers (.lockoutClear q) s (fun t =>
      Completed q stDONE (countOf 24 (fun n => s.mayUnlock n) +
        256 * countOf 24 (fun n => (s.ch n).st = .lockout && !s.mayUnlock n)) s t ∧
      ∀ n, n < 24 → (s.mayUnlock n = true → (t.ch n).st ≠ .lockout ∧ (t.ch n).retries = 0) ∧
        (s.mayUnlock n = false → t.ch n = s.ch n)))

/-- Trips, retries and lock-outs (R295, R298, R299, R300). A trip turns the output off and starts the retry wait, with its cause; the end
of the wait turns the channel on again below retry_max with one retry more, and locks it out at retry_max. An inrush window that ends
without limiting leaves the channel ON. A missing free-wheel path locks a compatibility-mode channel out. While the
site island does not run a trip turns its output off and nothing else happens, and an overload, which that island times, is no trip
(R306).
What a channel does without records in force is log entry 24: the model's choice. -/
def Claim.SwitchProtection : Prop :=
  (∀ (n ma : Nat) (cause : TripCause) (s : State), n < s.lsw.chans.length → s.lswRuns = true →
    (s.conf.chan n).compat = true → ((s.ch n).st = .on ∨ (s.ch n).st = .pwm) → (∀ m, (s.ch m).st ≠ .deferred) →
    Answers (.channelTrip n cause ma) s (fun t => (t.ch n).st = .retryWait ∧ .loadSwitch n false ∈ t.out ∧
      (t.ch n).cause = (match cause with | .short => 1 | .overload => 2 | .thermal => 4) ∧
      (t.ch n).retryAt = some (s.sup.uptime + (s.conf.chan n).retryDelay * 1000) ∧
      (t.ch n).retries = (s.ch n).retries ∧ (t.ch n).order = (s.ch n).order ∧ (t.ch n).current = ma ∧
      (∀ m, m ≠ n → t.ch m = s.ch m) ∧ t.lsw.lastEvent = some (n, 0x20, ((s.ch n).retries * 256 + (t.ch n).cause) % 256))) ∧
  (∀ (n ma : Nat) (s : State), s.siteUp = false →
    Answers (.channelTrip n .overload ma) s (fun t => t = { s with out := [], cur := none })) ∧
  (∀ (n ma : Nat) (cause : TripCause) (s : State), n < s.lsw.chans.length → s.siteUp = false → cause ≠ .overload →
    ((s.ch n).st = .on ∨ (s.ch n).st = .pwm) →
    Answers (.channelTrip n cause ma) s (fun t =>
      t.out = .loadSwitch n false :: (if s.lsw.sensed = some n then [.sense (some n) 0] else []) ∧
      t = { s with
        lsw := { s.lsw with
          chans := s.lsw.chans.set n { s.ch n with st := .off, order := 0, dApp := 0, defer := 0, current := ma } }
        out := t.out, cur := none })) ∧
  (∀ (n ma : Nat) (cause : TripCause) (s : State), (s.ch n).outOn = false →
    Answers (.channelTrip n cause ma) s (fun t => t = { s with out := [], cur := none })) ∧
  (∀ (n : Nat) (s : State), n < s.lsw.chans.length → (s.ch n).st = .inrush → (s.ch n).order = 1 → (∀ m, (s.ch m).st ≠ .deferred) →
    Answers (.inrushWindowEnd n false) s (fun t => t.ch n = { s.ch n with st := .on } ∧ (∀ m, m ≠ n → t.ch m = s.ch m) ∧
      t = { s with lsw := { s.lsw with chans := t.lsw.chans }, out := [], cur := none })) ∧
  (∀ (n : Nat) (s : State), n < s.lsw.chans.length → (s.ch n).st = .retryWait → (s.ch n).held = false → s.lswRuns = true →
    (s.ch n).retries < (s.conf.chan n).retryMax → s.lsw.supply = 0 → (s.conf.chan n).compat = true →
    (s.lsw.chans.filter (fun c => c.st = .inrush)).length < 4 →
    Answers (.channelRetryWaitEnd n) s (fun t => (t.ch n).st = .inrush ∧ (t.ch n).retries = (s.ch n).retries + 1 ∧
      t.out = switchOut n true s ∧ (∀ m, m ≠ n → t.ch m = s.ch m))) ∧
  (∀ (n : Nat) (s : State), n < s.lsw.chans.length → (s.ch n).st = .retryWait → (s.ch n).held = false → s.lswRuns = true →
    (s.conf.chan n).retryMax ≤ (s.ch n).retries →
    Answers (.channelRetryWaitEnd n) s (fun t =>
      t.ch n = { s.ch n with st := .lockout, retryAt := none, frozen := none, dApp := 0, defer := 0 } ∧
      t.lsw.lastEvent = some (n, 0x21, (s.ch n).cause % 256) ∧ (∀ m, m ≠ n → t.ch m = s.ch m))) ∧
  (∀ (n : Nat) (s : State), (s.ch n).held = true →
    Answers (.channelRetryWaitEnd n) s (fun t => t = { s with out := [], cur := none }) ∧
    Answers (.channelRetryClear n) s (fun t => t = { s with out := [], cur := none })) ∧
  (∀ (n : Nat) (s : State), n < s.lsw.chans.length → ((s.ch n).st = .on ∨ (s.ch n).st = .pwm) → (s.ch n).held = false →
    s.lswRuns = true →
    Answers (.channelRetryClear n) s (fun t => t.ch n = { s.ch n with retries := 0 } ∧ (∀ m, m ≠ n → t.ch m = s.ch m) ∧
      t = { s with lsw := { s.lsw with chans := t.lsw.chans }, sup := t.sup, out := [], cur := none })) ∧
  (∀ (n : Nat) (mv : Int) (s : State), n < s.lsw.chans.length → s.lswRuns = true → (s.conf.chan n).compat = true →
    (s.ch n).st ≠ .inrush → (s.ch n).st ≠ .on → (s.ch n).st ≠ .lockout → mv < -3000 →
    Answers (.freewheelMissing n mv) s (fun t =>
      t.ch n = { s.ch n with st := .lockout, cause := 6, retryAt := none, frozen := none, dApp := 0, defer := 0 } ∧
      ((s.ch n).st = .pwm → .loadSwitch n false ∈ t.out) ∧
      t.lsw.lastEvent = some (n, 0x25, mv.natAbs % 256) ∧ (∀ m, m ≠ n → t.ch m = s.ch m))) ∧
  (∀ (n : Nat) (mv : Int) (s : State), (-3000 ≤ mv ∨ (s.conf.chan n).compat = false ∨ s.lswRuns = false) →
    Answers (.freewheelMissing n mv) s (fun t => t = { s with out := [], cur := none })) ∧
  (∀ (n : Nat) (s : State), s.lswRuns = false →
    Answers (.channelRetryWaitEnd n) s (fun t => t = { s with out := [], cur := none }) ∧
    Answers (.channelRetryClear n) s (fun t => t = { s with out := [], cur := none }) ∧
    Answers (.pwmPeriodStart n) s (fun t => t = { s with out := [], cur := none }))

/-- Supply, compensation and sense (R297, R303 to R307). Each millisecond drains every budget and takes LS_VSUP into its mean; a
dip is entered from 6.0 V to below 9.0 V, from above or from below, and ended; below 6.0 V every output is off and the orders stay
recorded, and the return applies them; LS_SEL selects the sensed channel, and is not read below 6.0 V (R487); without the site island
LS_SENSE still mirrors the selected channel's current (R307); a PWM period applies the compensated duty, and in native mode
the off-edge of the period before adds its clamp energy.
When a dip ends and what it posts is log entry 24: the model's choice. -/
def Claim.SwitchSupply : Prop :=
  (∀ (v : Nat) (cur : List Nat) (s : State), s.siteUp = true → (∀ m, (s.ch m).st ≠ .deferred) →
    Answers (.clampBudgetDrain v cur) s (fun t => t.lsw.vs = (v :: s.lsw.vs).take 100 ∧
      (∀ n, n < s.lsw.chans.length → t.ch n = { s.ch n with
        budget := if s.lswRuns then (s.ch n).budget - (s.conf.chan n).clampPwr else (s.ch n).budget, current := cur.getD n 0 }) ∧
      t.out = (if t.senseNow = s.senseNow then [] else [.sense t.senseNow.1 t.senseNow.2]) ∧
      t = { s with lsw := { s.lsw with chans := t.lsw.chans, vs := t.lsw.vs }, out := t.out, cur := none })) ∧
  (∀ (v : Nat) (cur : List Nat) (s : State), s.siteUp = false →
    Answers (.clampBudgetDrain v cur) s (fun t =>
      (∀ n, n < s.lsw.chans.length → t.ch n = { s.ch n with current := cur.getD n 0 }) ∧
      t.out = (if t.senseNow = s.senseNow then [] else [.sense t.senseNow.1 t.senseNow.2]) ∧
      t = { s with lsw := { s.lsw with chans := t.lsw.chans }, out := t.out, cur := none })) ∧
  (∀ (mv : Nat) (s : State), s.lsw.supply ≠ 1 → 6000 ≤ mv → mv < 9000 →
    Answers (.supplyDip mv) s (fun t => t.lsw = { s.lsw with
      supply := 1, since := s.sup.spireTime
      lastEvent := if s.siteUp then some (0x1F, 0x22, mv % 256) else s.lsw.lastEvent } ∧
      t = { s with lsw := t.lsw, hqe := t.hqe, out := t.out, cur := none })) ∧
  (∀ (s : State), s.lsw.supply = 1 → (∀ m, (s.ch m).st ≠ .deferred) →
    Answers .dipEnd s (fun t => t.lsw = { s.lsw with
      supply := 0
      lastEvent := if s.siteUp then some (0x1F, 0x23, (s.sup.spireTime - s.lsw.since) / 1000 % 256) else s.lsw.lastEvent } ∧
      t = { s with lsw := t.lsw, hqe := t.hqe, out := t.out, cur := none })) ∧
  (∀ (s : State), s.lsw.supply ≠ 2 →
    Answers .lsSupplyLoss s (fun t => t.lsw.supply = 2 ∧ t.lsw.sel = 0x1F ∧
      t.lsw.lostAt = some (s.lsw.lostAt.getD s.sup.spireTime) ∧
      (∀ n, (t.ch n).outOn = false ∧ (t.ch n).order = (s.ch n).order ∧ (t.ch n).retries = (s.ch n).retries ∧
        ((s.ch n).st = .lockout → (t.ch n).st = .lockout) ∧
        ((t.ch n).st = .lockout → (s.ch n).st = .lockout ∨ ((s.conf.chan n).compat = false ∧ (t.ch n).cause = 5)) ∧
        (n < 24 → (s.ch n).outOn = true → .loadSwitch n false ∈ t.out)) ∧
      t = { s with lsw := t.lsw, hqe := t.hqe, sup := t.sup, out := t.out, free := t.free, cur := none })) ∧
  (∀ (x : Nat) (s : State), s.lsw.lostAt = some x → s.siteUp = true → s.lsw.chans.length = 24 →
    (∀ n, (s.ch n).order = 0 ∨ (s.ch n).st = .lockout) → (∀ n, (s.ch n).outOn = false ∧ (s.ch n).st ≠ .deferred) →
    Answers .lsSupplyRestore s (fun t => t.lsw.supply = 0 ∧ t.lsw.lostAt = none ∧
      t.lsw.lastEvent = some (0x1F, 0x24, (s.sup.spireTime - x) / 1000 % 256) ∧
      (∀ n, (t.ch n).outOn = false ∧ ((t.ch n).st = .lockout ↔ (s.ch n).st = .lockout)))) ∧
  (∀ (n : Nat) (x : Nat) (s : State), n < s.lsw.chans.length → s.lsw.chans.length = 24 → s.lsw.lostAt = some x →
    s.siteUp = true → s.lsw.supply = 2 → (s.ch n).st = .off → (s.ch n).order = 1 → (s.ch n).held = false →
    (s.conf.chan n).compat = true → (∀ m, m ≠ n → (s.ch m).order = 0 ∧ (s.ch m).st = .off) →
    Answers .lsSupplyRestore s (fun t => (t.ch n).st = .inrush ∧ .loadSwitch n true ∈ t.out)) ∧
  (∀ (s : State), s.lsw.lostAt = none → Answers .lsSupplyRestore s (fun t => t = { s with out := [], cur := none })) ∧
  (∀ (code : Nat) (s : State), s.lsw.supply = 2 →
    Answers (.lsSelChange code) s (fun t => t = { s with lsw := { s.lsw with pin := code % 32 }, out := [], cur := none })) ∧
  (∀ (code c : Nat) (s : State), s.lsw.supply ≠ 2 → c = (if code % 32 = 31 then s.lsw.sel else code % 32) →
    Answers (.lsSelChange code) s (fun t => t.lsw = { s.lsw with pin := code % 32 } ∧
      t.out = [if c < 24 then .sense (some c) (if (s.ch c).outOn then min ((s.ch c).current * 500) 6000000 else 0)
        else .sense none 0] ∧
      t = { s with lsw := t.lsw, out := t.out, cur := none })) ∧
  (∀ (n : Nat) (s : State), n < s.lsw.chans.length → (s.ch n).st = .pwm → s.lswRuns = true →
    ((s.conf.chan n).comp = true → 0 < rneDivN (sumN s.lsw.vs) s.lsw.vs.length →
      ((s.conf.chan n).compat = true ∨ (s.ch n).dApp = 0 ∨ 1000 ≤ (s.ch n).dApp) →
      Answers (.pwmPeriodStart n) s (fun t => t.ch n = { s.ch n with
        dApp := min 1000 (rneDivN ((s.ch n).duty * ((s.conf.chan n).vNom * (s.conf.chan n).vNom))
          (rneDivN (sumN s.lsw.vs) s.lsw.vs.length * rneDivN (sumN s.lsw.vs) s.lsw.vs.length)) } ∧
        (∀ m, m ≠ n → t.ch m = s.ch m))) ∧
    ((s.conf.chan n).comp = false → ((s.conf.chan n).compat = true ∨ (s.ch n).dApp = 0 ∨ 1000 ≤ (s.ch n).dApp) →
      Answers (.pwmPeriodStart n) s (fun t => t.ch n = { s.ch n with dApp := (s.ch n).duty } ∧
        (∀ m, m ≠ n → t.ch m = s.ch m))) ∧
    ((s.conf.chan n).compat = false → 0 < (s.ch n).dApp → (s.ch n).dApp < 1000 →
      Answers (.pwmPeriodStart n) s (fun t => (t.ch n).budget = (s.ch n).budget + (t.ch n).eLast * 100 ∧
        (if (s.conf.chan n).clampBudget * 1000 < (t.ch n).budget then
            (t.ch n).st = .lockout ∧ (t.ch n).cause = 5 ∧ .loadSwitch n false ∈ t.out
          else (t.ch n).st = .pwm) ∧ (∀ m, m ≠ n → t.ch m = s.ch m))))

/-- What every step keeps of the load switches (R296, R301): at most four channels are in INRUSH at once, and the output of a channel
that TCM holds is off. -/
def Obligations.LoadSwitchInvariant : Prop :=
  ∀ s t : State, LoadSwitchesOk s → step s = .next t → LoadSwitchesOk t

/-! ### Saggar measurement -/

/-- The SGM commands (R341 to R343, Tables 12-8 to 12-10). ENERGY_READ answers a header, whose time is that of the sample boundary
read, one entry for each register from the first id upward, and the signature trailer; each read from its accumulator (R319, R324). INSTANT_READ answers the last block's record. PULSE_CONFIG with a good signature waits for the next sample boundary, and
without one it is refused. While the Saggar link is down every one completes with SAGGAR_UNREACHABLE (R101), and while the Saggar restarts
on another image it waits (R381; that a command waits, and is not lost, is log entry 27: the model's choice).
Each of these commands is shown to complete, that is, to answer a next state with its own effect: energyRead,
instantRead, pulseConfig. -/
def Obligations.MeasurementCommands : Prop :=
  (∀ (q : Sqe) (s : State) (ids : List Nat), SgTaken 0xA0 q s → sgmId (bits (sd q 6) 7 0) = true → 1 ≤ bits (sd q 6) 15 8 →
    bits (sd q 6) 15 8 ≤ 64 → 32 + 16 * bits (sd q 6) 15 8 + 128 ≤ sd q 4 →
    ids = ((List.range 256).filter (fun i => decide (bits (sd q 6) 7 0 ≤ i) && sgmId i)).take (bits (sd q 6) 15 8) →
    Answers (.energyRead q) s (fun t => SgLegal q (32 + 16 * ids.length + 128) (regHeader ids.length s ++ ids.flatMap s.sgmEntry)
        { s.sgm with batRead := s.sgm.mode = .battery } s t ∧ u (regHeader ids.length s) 0 8 = s.sgm.boundAt % 2 ^ 64)) ∧
  (∀ (q : Sqe) (s : State), SgTaken 0xA1 q s → 280 ≤ sd q 4 → Answers (.instantRead q) s
    (SgOnlyAnswers q stDONE 280 (s.sgm.inst.set 10 (BitVec.ofNat 8 s.sgm.mode.code)) s)) ∧
  (∀ (q : Sqe) (b : List Byte) (s : State), SgTaken 0xA2 q s → b.length = 96 → 96 ≤ sd q 4 → bits (sd q 6) 7 3 = 0 →
    bits (sd q 6) 23 18 = 0 →
    (bit (sd q 6) 2 = true ∧ bits (sd q 6) 17 16 ≤ 2 ∧ 1 ≤ sd q 7 ∧ sd q 7 ≤ 100000 ∨
      bit (sd q 6) 2 = false ∧ (bits (sd q 6) 15 8 ≤ 0x27 ∨ bits (sd q 6) 15 8 = 0xFF) ∧ 30 ≤ bits (sd q 6) 31 24 ∧
        bits (sd q 6) 31 24 ≤ 250 ∧ 1 ≤ sd q 7 ∧ sd q 7 ≤ 10000000) →
    Answers (.pulseConfig q (.data b)) s (fun t => sigOk 0xA2 q false b s = true → SgAnswered q stDONE 0 [] s t ∧
        t = { s with hqe := t.hqe, mss := { s.mss with ctrOper := blockCounter b }, sgm := { s.sgm with
          pulseNext := s.sgm.pulseNext ++ [⟨bit (sd q 6) 2, bits (sd q 6) 1 0, bits (sd q 6) 15 8, bits (sd q 6) 31 24,
            bits (sd q 6) 17 16, sd q 7, blockCounter b⟩] }, lnk := s.lnk.sessionFirst true, out := t.out, cur := t.cur }) ∧
    (sigOk 0xA2 q false b s = false → Answers (.pulseConfig q (.data b)) s (SgOnlyAnswers q stSIGNATURE_BAD 0 [] s))) ∧
  (∀ (q : Sqe) (b : List Byte) (s : State), s.lnk.up = false →
    (Taken 0xA0 q s → Answers (.energyRead q) s (OnlyCompletes q stSAGGAR_UNREACHABLE 0 s)) ∧
    (Taken 0xA1 q s → Answers (.instantRead q) s (OnlyCompletes q stSAGGAR_UNREACHABLE 0 s)) ∧
    (Taken 0xA2 q s → Answers (.pulseConfig q (.data b)) s (OnlyCompletes q stSAGGAR_UNREACHABLE 0 s))) ∧
  (∀ (q : Sqe) (b : List Byte) (s : State), s.lnk.up = true → s.sgm.runs = true → s.mss.restarting = true →
    (Taken 0xA0 q s → Answers (.energyRead q) s (SgWaits q [] s)) ∧
    (Taken 0xA1 q s → Answers (.instantRead q) s (SgWaits q [] s)) ∧
    (Taken 0xA2 q s → Answers (.pulseConfig q (.data b)) s (SgWaits q (b.take (sd q 4)) s)))

/-- R319: the billing register of every accumulator of SGM holds (acc / 100,000) mod 10^12 and its roll count
((acc / 100,000) / 10^12) mod 256, both derived from the same accumulator value, for every register of Table 12-4. -/
def Obligations.RegisterValues : Prop :=
  ∀ (s : State) (id : Nat), sgmId id = true → (s.sgmEntry id).length = 16 ∧ u (s.sgmEntry id) 0 1 = id ∧
    u (s.sgmEntry id) 2 1 = s.sgm.acc.getD id 0 / 100000 / 1000000000000 % 256 ∧
    u (s.sgmEntry id) 4 8 = s.sgm.acc.getD id 0 / 100000 % 1000000000000

/-- A sample (R313, R314, R318). In normal measurement every measured port whose current reaches its starting current adds v × i to one
residue, by the product's sign; whole µWh move to the accumulator and less than one stays behind. Below the starting current, or while
the port is METER_FAULT, nothing is added. Outside normal measurement no register advances. What was due before (a save, a block's end,
a channel fault, a calibration set, a pulse configuration) comes first.
The corners of a sample are log entry 25: the model's choice.
Each of these commands is shown to complete, that is, to answer a next state with its own effect: sgmSample,
s0Pulse. -/
def Obligations.EnergySample : Prop :=
  (∀ (bits : List Nat) (s b : State), b = s.sgmDue.boundaryStart → s.sgm.mode = .normal → b.sgm.acc.length = 64 →
    b.sgm.res.length = 64 →
    Answers (.sgmSample bits) s (fun t => ∀ n, n < 16 →
      PortSampled n (convertCode b.sgm.cal n ((b.sgm.codes bits).getD n 0))
        (convertCode b.sgm.cal (16 + n) ((b.sgm.codes bits).getD (16 + n) 0)) b.sgm t.sgm)) ∧
  (∀ (bits : List Nat) (s : State), s.sgm.mode ≠ .normal →
    Answers (.sgmSample bits) s (fun t => t.sgm.acc = s.sgm.acc ∧ t.sgm.res = s.sgm.res ∧ t.sgm.block = s.sgm.block)) ∧
  (∀ (bits : List Nat) (s b : State) (k : Nat) (p : Pulse), b = s.sgmDue.boundaryStart → s.sgm.mode = .normal →
    k < b.sgm.pulses.length → k < 4 → b.sgm.pulses.getD k Pulse.reset = p → p.active = none → p.src ≠ 0xFF → p.width * 8 ≤ p.idle →
    Answers (.sgmSample bits) s (fun t =>
      (0 < p.owed ∨ p.sent < (t.sgm.acc.getD p.src 0 - p.base) / (p.weight * 100000)) →
      .pulse k true ∈ t.out ∧ (t.sgm.pulses.getD k Pulse.reset).active = some (p.width * 8))) ∧
  (∀ (bits : List Nat) (s : State) (v : Save), s.sgm.runs = true → s.sgm.saving = some v →
    Answers (.sgmSample bits) s (fun t => t.sgm.saving = none ∧ ∃ x, t.sgm.newest = some x ∧ x.2 = v)) ∧
  (∀ (n onMs offMs : Nat) (on : Bool) (s : State), n < 4 → s.sgm.s0.length = 4 → s.sgm.acc.length = 64 → s.sgm.runs = true →
    (s.sgm.s0.getD n S0In.reset).cls ≠ 0 →
    (20 ≤ onMs → 20 ≤ offMs → Answers (.s0Pulse n onMs offMs on) s (fun t =>
      t.sgm.acc.getD (0x28 + n) 0 = s.sgm.acc.getD (0x28 + n) 0 + (s.sgm.s0.getD n S0In.reset).weight * 100000 ∧
      (∀ id, id ≠ 0x28 + n → t.sgm.acc.getD id 0 = s.sgm.acc.getD id 0) ∧
      t = { s with sgm := { s.sgm with acc := t.sgm.acc, s0 := t.sgm.s0, sramCrc := t.sgm.sramCrc }, out := [], cur := none })) ∧
    ((onMs < 20 ∨ offMs < 20) → Answers (.s0Pulse n onMs offMs on) s (fun t => t.sgm.acc = s.sgm.acc ∧
      (t.sgm.s0.getD n S0In.reset).rejects = min ((s.sgm.s0.getD n S0In.reset).rejects + 1) 65535 ∧
      t = { s with sgm := { s.sgm with s0 := t.sgm.s0 }, out := [], cur := none })))

/-- A block's end (R320 to R322, Table 12-3) and channel faults (R316, R317). After 1,600 samples the block's active, reactive and
apparent sums go to the three registers of one quadrant; with fewer than 10 zero crossings, or a line frequency outside 45 to 65 Hz, its
reactive sum is 0 and freq_fault is set; below every starting current, or during AC_FAULT, no register advances. How the frequency
follows from the crossings is not in the spec: it is an open value within what their count allows. A channel of an enabled port that has
shown 4,096 equal bits, or eight codes in a row of 8,000,000 or more, is declared faulted; every session open on the port that had another
credit state is sent EXHAUSTED at once, where it has not had its one CREDIT of this sample boundary (R371); 8,000 good codes in a row end the fault.
The corners of a block are log entry 25: the model's choice.
Each of these commands is shown to complete, that is, to answer a next state with its own effect: blockEnd,
channelFault, channelFaultClear. -/
def Obligations.BlocksAndFaults : Prop :=
  (∀ (s : State) (q : Int), s.sgm.mode = .normal → s.sgm.block.n = 1600 → s.sgm.acc.length = 64 → s.sgm.res.length = 64 →
    Answers .blockEnd s (fun t =>
      (s.sgm.block.cross < 10 → t.sgm.freqFault = true) ∧ (19 ≤ s.sgm.block.cross → s.sgm.block.cross ≤ 25 → t.sgm.freqFault = false) ∧
      (t.sgm.freqFault = false → (s.sgm.block.cross - 1) * 250 ≤ t.sgm.line ∧ t.sgm.line ≤ (s.sgm.block.cross + 1) * 250 ∧
        t.sgm.freq = t.sgm.line) ∧ (t.sgm.freqFault = true → t.sgm.freq = 0) ∧
      t.sgm.block.n = 0 ∧ t.sgm.calAc = s.sgm.cal ∧
      (q = (if t.sgm.freqFault then 0 else sumI s.sgm.block.q) →
      ((s.sgm.acFault = true ∨
          ∀ c ∈ [32, 33, 34], s.sgm.block.sq.getD c 0 < calStart s.sgm.calAc c * calStart s.sgm.calAc c * 1600) →
        t.sgm.acc = s.sgm.acc ∧ t.sgm.res = s.sgm.res) ∧
      (s.sgm.acFault = false →
        (∃ c ∈ [32, 33, 34], calStart s.sgm.calAc c * calStart s.sgm.calAc c * 1600 ≤ s.sgm.block.sq.getD c 0) →
        ∀ (ra rr rs : Nat),
          (ra, rr, rs) = (if 0 ≤ s.sgm.block.p then (if 0 ≤ q then (0x20, 0x22, 0x26) else (0x20, 0x25, 0x26))
            else (if 0 ≤ q then (0x21, 0x23, 0x27) else (0x21, 0x24, 0x27))) →
          28800000 * t.sgm.acc.getD ra 0 + t.sgm.res.getD ra 0 =
            28800000 * s.sgm.acc.getD ra 0 + s.sgm.res.getD ra 0 + s.sgm.block.p.natAbs ∧
          28800000 * t.sgm.acc.getD rr 0 + t.sgm.res.getD rr 0 = 28800000 * s.sgm.acc.getD rr 0 + s.sgm.res.getD rr 0 + q.natAbs ∧
          28800000 * t.sgm.acc.getD rs 0 + t.sgm.res.getD rs 0 =
            28800000 * s.sgm.acc.getD rs 0 + s.sgm.res.getD rs 0 +
              isqrtNear (s.sgm.block.p * s.sgm.block.p + q * q).toNat ∧
          (∀ id, id ≠ ra → id ≠ rr → id ≠ rs →
            t.sgm.acc.getD id 0 = s.sgm.acc.getD id 0 ∧ t.sgm.res.getD id 0 = s.sgm.res.getD id 0))))) ∧
  (∀ (s : State), (s.sgm.mode ≠ .normal ∨ s.sgm.block.n ≠ 1600) →
    Answers .blockEnd s (fun t => t = { s with out := [], cur := none })) ∧
  (∀ (c : Nat) (cause : ChanFault) (s : State), s.sgm.mode = .normal → s.sgm.evaluated c = true →
    s.sgm.faults.length = 40 → s.sgm.faults.getD c 0 = 0 →
    (cause = .stuck ∧ (s.sgm.decim.getD c Decim.reset).stuck = true ∨
      cause = .overrange ∧ 8 ≤ (s.sgm.decim.getD c Decim.reset).overs) →
    Answers (.channelFault c cause) s (fun t =>
      t.sgm.faults.getD c 0 = (match cause with | .stuck => 1 | .overrange => 2) ∧
      (∀ d, d ≠ c → t.sgm.faults.getD d 0 = s.sgm.faults.getD d 0) ∧
      t.sgm = { s.sgm with faults := t.sgm.faults, lastEvent := t.sgm.lastEvent } ∧
      (s.mss.restarting = false → ∀ x ∈ s.bte.sess, c < 32 → x.port = c % 16 → x.sent ≠ 2 → x.said = false → (.credit x.number 2, s.bte.lTime) ∈ t.lnk.toSt))) ∧
  (∀ (c : Nat) (cause : ChanFault) (s : State), (s.sgm.decim.getD c Decim.reset).stuck = false →
    (s.sgm.decim.getD c Decim.reset).overs < 8 →
    Answers (.channelFault c cause) s (fun t => t = { s with out := [], cur := none })) ∧
  (∀ (c : Nat) (s : State), s.sgm.mode = .normal → 8000 ≤ (s.sgm.decim.getD c Decim.reset).good →
    s.sgm.faults.getD c 0 ≠ 0 → s.bte.sess = [] →
    Answers (.channelFaultClear c) s (fun t => t.sgm.faults = s.sgm.faults.set c 0 ∧
      t = { s with sgm := { s.sgm with faults := t.sgm.faults, lastEvent := t.sgm.lastEvent }, out := [], cur := none })) ∧
  (∀ (c : Nat) (s : State), (s.sgm.decim.getD c Decim.reset).good < 8000 →
    Answers (.channelFaultClear c) s (fun t => t = { s with out := [], cur := none }))

/-- Battery mode and saves (R312, R331 to R338). A loss of the supply with a fitted cell above its cut-off accumulates its sample, enters
battery mode with a BATTERY save, and switches MOD_VV, MCLK0 and MCLK3 off; without a cell it makes the HOLDUP save and stops, and a periodic
save being written is abandoned (R340). A clock step that waited takes effect before the save (R371). In a battery
window each current channel's fault is judged anew, and a port whose mean current over the 200 samples reaches its starting current adds
it to its current-without-supply register. The supply's return leads, with rails and clocks on, through 320 samples of SETTLING to normal
measurement. A save holds every accumulator and residue; a power-on takes them from SRAM, or from the newest save, and a PERIODIC save
sets save_gap. -/
def Claim.BatteryMode : Prop :=
  (∀ (mv : Nat) (bits : List Nat) (s : State), (s.sgm.mode = .normal ∨ s.sgm.mode = .settling) → s.cell.cut = false →
    s.sgm.shipOrder = false →
    Answers (.saggarSupplyLoss (some mv) bits) s (fun t => t.sgm.mode = .battery ∧
      (s.sgm.mode = .settling → t.sgm.acc = s.sgm.acc ∧ t.sgm.res = s.sgm.res) ∧
      SavedNow 1 t.bte.lTime t ∧ (s.bte.steps = [] → t.bte.off = s.bte.off) ∧
      (∀ st, s.bte.steps = [st] → s.mss.restarting = false → t.bte.off = some st.off) ∧ t.sgm.lastSave = some (1, s.bte.up) ∧ t.sgm.rails = (false, true) ∧
      t.sgm.mclk.getD 0 0 = 0 ∧ t.sgm.mclk.getD 3 0 = 0 ∧ t.sgm.block.n = 0 ∧
      t.sgm.batSince = some s.bte.up ∧ (∀ p ∈ t.sgm.pulses, p.active = none) ∧ t.sgm.lastEvent = some (255, 1, mv % 256) ∧
      (s.mss.sealSt = 1 → t.mss.sealSt = 0) ∧
      t = { s with
        hqe := t.hqe, sgm := t.sgm, bte := t.bte, mss := t.mss, lnk := t.lnk, free := t.free, out := t.out, cur := none })) ∧
  (∀ (mv : Nat) (bits : List Nat) (s : State), (s.sgm.mode = .normal ∨ s.sgm.mode = .settling) → s.cell.cut = false →
    s.sgm.shipOrder = true → s.mss.shipAuth.isSome = true →
    Answers (.saggarSupplyLoss (some mv) bits) s (fun t => t.sgm.mode = .ship ∧ SavedNow 1 t.bte.lTime t ∧ t.mss.shipAuth = none ∧
      t.sgm.shipStart = t.bte.lTime ∧ t.sgm.rails = (false, false))) ∧
  (∀ (cell : Option Nat) (bits : List Nat) (s b : State), b = s.sgmDue.boundaryStart → s.sgm.saving = none → s.sgm.mode = .normal → b.sgm.acc.length = 64 →
    b.sgm.res.length = 64 →
    Answers (.saggarSupplyLoss cell bits) s (fun t => ∀ n, n < 16 →
      PortSampled n (convertCode b.sgm.cal n ((b.sgm.codes bits).getD n 0))
        (convertCode b.sgm.cal (16 + n) ((b.sgm.codes bits).getD (16 + n) 0)) b.sgm t.sgm)) ∧
  (∀ (bits : List Nat) (s : State), (s.sgm.mode = .normal ∨ s.sgm.mode = .settling) →
    Answers (.saggarSupplyLoss none bits) s (fun t => t.sgm.mode = .off ∧ t.bte.off = none ∧ t.sgm.saving = none ∧
      (s.bte.steps = [] → SavedNow 2 s.bte.lTime t) ∧
      (∀ st, s.bte.steps = [st] → s.mss.restarting = false → SavedNow 2 ((s.bte.up : Int) + st.off).toNat t) ∧
      t.sgm.rails = (false, false))) ∧
  (∀ (bits : List (List Nat)) (s : State), s.sgm.mode = .battery → s.sgm.calNext = none → s.sgm.pulseNext = [] →
    s.sgm.acc.length = 64 → s.sgm.res.length = 64 → s.sgm.faults.length = 40 → s.sgm.decim.length = 40 →
    Answers (.batteryWindow bits) s (fun t => ∀ n, n < 16 → ∀ m,
      m = rneDivN (sumN (((s.sgm.window bits n).take 200).map (fun x => (convertCode s.sgm.cal (16 + n) x.1).natAbs))) 200 →
      (s.sgm.evaluated (16 + n) = true → t.sgm.faults.getD (16 + n) 0 = windowCause (s.sgm.window bits n)) ∧
      (s.sgm.evaluated (16 + n) = true → windowCause (s.sgm.window bits n) = 0 → calStart s.sgm.cal (16 + n) ≤ m →
        t.sgm.acc.getD (0x30 + n) 0 = s.sgm.acc.getD (0x30 + n) 0 + (s.sgm.res.getD (0x30 + n) 0 + m) / 3600 * 100000 ∧
        t.sgm.res.getD (0x30 + n) 0 = (s.sgm.res.getD (0x30 + n) 0 + m) % 3600 ∧ bit t.sgm.cws n = true) ∧
      ((s.sgm.evaluated (16 + n) = false ∨ windowCause (s.sgm.window bits n) ≠ 0 ∨ m < calStart s.sgm.cal (16 + n)) →
        t.sgm.acc.getD (0x30 + n) 0 = s.sgm.acc.getD (0x30 + n) 0) ∧
      (∀ id, id < 0x30 → t.sgm.acc.getD id 0 = s.sgm.acc.getD id 0))) ∧
  (∀ (s : State), s.sgm.mode = .battery → s.cell.quiet < 1800 →
    Answers .saggarSupplyReturn s (fun t =>
      (s.sgm.rails.1 = false → .rail 0 true ∈ t.out) ∧ (s.sgm.rails.2 = false → .rail 1 true ∈ t.out) ∧
      t = { s with
        sgm := { s.sgm with mode := .settling, settle := 0, rails := (true, true), mclk := [4, 4, 4, 4] }
        out := t.out, cur := none })) ∧
  (∀ (s : State) (b : Nat), s.sgm.mode = .settling → 320 ≤ s.sgm.settle → s.sgm.batSince = some b →
    Answers .settlingEnd s (fun t => t.sgm.mode = .normal ∧ t.sgm.batSince = none ∧ t.sgm.acc = s.sgm.acc ∧ t.sgm.res = s.sgm.res ∧
      t.sgm.lastEvent = some (255, 2, (s.bte.up - b) / 1000000 % 256) ∧
      t = { s with hqe := t.hqe, sgm := t.sgm, lnk := t.lnk, free := t.free, out := t.out, cur := none })) ∧
  (∀ (s : State), s.sgm.settle < 320 → Answers .settlingEnd s (fun t => t = { s with out := [], cur := none })) ∧
  (∀ (mv : Nat) (s : State), (s.sgm.mode = .battery ∨ s.sgm.mode = .ship) →
    Answers (.cellCutoff mv) s (fun t => t.sgm.mode = .off ∧ t.bte.off = none ∧ t.cell.cut = true ∧ t.mss.ring.getLast?.isSome = true ∧
      SavedNow 3 s.bte.lTime t ∧ t.sgm.acc = s.sgm.acc ∧ t.sgm.res = s.sgm.res)) ∧
  (∀ (s : State), s.sgm.runs = true → s.sgm.saving = none → Answers .periodicSave s (fun t =>
    t = { s with sgm := { s.sgm with saving := t.sgm.saving }, out := [], cur := none } ∧
    (∃ v, t.sgm.saving = some v ∧ v.kind = 0 ∧ v.acc = s.sgm.acc ∧ v.res = s.sgm.res ∧ v.time = s.bte.lTime ∧
      v.credit = s.bte.credit))) ∧
  (∀ (a b : Bool) (s : State), s.sgm.sramGood true = true →
    Answers (.saggarPowerOn true a b) s (fun t => t.sgm.mode = .settling ∧ t.bte.off = none ∧
    t.sgm.acc = s.sgm.acc ∧ t.sgm.res = s.sgm.res ∧ t.sgm.saveGap = s.sgm.saveGap ∧
    t.bte.open_.start = 0xFFFFFFFFFFFFFFFF ∧ t.bte.open_.seq = (s.bte.open_.seq + 1) % 2 ^ 32)) ∧
  (∀ (kept a b : Bool) (s : State) (seq : Nat) (v : Save), s.sgm.sramGood kept = false → s.sgm.newest = some (seq, v) →
    Answers (.saggarPowerOn kept a b) s (fun t =>
    t.sgm.mode = .settling ∧ t.bte.off = none ∧ t.sgm.acc = v.acc ∧ t.sgm.res = v.res ∧ t.bte.credit = v.credit ∧
    (v.kind = 0 → t.sgm.saveGap = true ∧ t.sgm.gapFrom = some v.time))) ∧
  (∀ (kept a b : Bool) (s : State), s.sgm.sramGood kept = false → s.sgm.newest = none →
    Answers (.saggarPowerOn kept a b) s (fun t => t.sgm.mode = .settling ∧ t.bte.off = none ∧ t.sgm.saveGap = s.sgm.saveGap))

/-- The measurement crossing (R16, R43, R339, R344). In normal measurement the summary of the second goes onto the Saggar link as 288
bytes in five frames, and is dropped while the link is down; a new second begins. It arrives behind the session-crossing messages and the
tunnel's answers; at a running site island it becomes the summary in force, and ports whose fault state is as before post nothing. -/
def Claim.MeasurementCrossing : Prop :=
  (∀ (s : State), s.sgm.mode = .normal → Answers .measurementSummarySend s (fun t =>
    (s.lnk.sgUp = true → ∃ m, t.lnk.summary = some m ∧ m.frames.length = 5 ∧ (∀ f ∈ m.frames, f.length ≤ 64) ∧
      m.frames.flatten = (s.sgm.summary s.bte.lTime).bytes ∧ m.frames.flatten.length = 288) ∧
    (s.lnk.sgUp = false → t.lnk.summary = s.lnk.summary) ∧ t.sgm.sec.n = 0 ∧
    t = { s with sgm := { s.sgm with sec := t.sgm.sec }, lnk := { s.lnk with summary := t.lnk.summary }, out := [], cur := none })) ∧
  (∀ (s : State), s.sgm.mode ≠ .normal → Answers .measurementSummarySend s (fun t => t = { s with out := [], cur := none })) ∧
  (∀ (s : State) (m : SumMsg) (o : Summary), s.lnk.summary = some m → s.lnk.up = true → s.siteUp = true → s.lnk.meter = some o →
    o.fault = m.read.fault → o.ac = m.read.ac → s.hqe.answers = [] → s.lnk.toSt = [] → s.lnk.heldPf1 = [] → (∀ x ∈ s.lnk.inSt, x.1.answer = none) →
    Answers .measurementSummary s (fun t => t = { s with
      lnk := { s.lnk with summary := none, meter := some m.read, meterAt := s.sup.uptime }, out := [], cur := none })) ∧
  (∀ (s : State) (m : SumMsg), s.lnk.summary = some m → (s.lnk.up = false ∨ s.siteUp = false) → s.hqe.answers = [] →
    s.lnk.toSt = [] → s.lnk.heldPf1 = [] → (∀ x ∈ s.lnk.inSt, x.1.answer = none) →
    Answers .measurementSummary s (fun t => t = { s with lnk := { s.lnk with summary := none }, out := [], cur := none })) ∧
  (∀ (s : State), s.lnk.summary.isSome = true →
    Answers .measurementSummary s (fun t => t.lnk.summary = none ∧ (s.lnk.path = true → t.lnk.toSt = [] ∧ t.hqe.answers = []))) ∧
  (∀ (s : State), s.lnk.summary = none → Answers .measurementSummary s (fun t => t = { s with out := [], cur := none }))

/-! ### Saggar billing -/

/-- The reading BTE commands and the signed settings (R372, R353 to R356, R359). REGISTER_READ, CREDIT_READ and INTERVAL_READ are legal
answers. CALENDAR_WRITE with sound tiles and a good signature makes its calendar pending; CLOCK_SET with a good signature waits for the next
sample boundary as a first, small or large step. Without a good signature each is refused and nothing changes. While the Saggar restarts on another image a command waits (log entry
27: the model's choice); a first setting that still waits counts as a setting, and a register of all ports is flagged by a fault of some
enabled port (DEDUCED, log entry 26).
Each of these commands is shown to complete, that is, to answer a next state with its own effect: registerRead,
calendarWrite, clockSet, tokenEnter, creditRead, intervalRead. -/
def Obligations.BillingCommands : Prop :=
  (∀ (q : Sqe) (s : State) (ids : List Nat), SgTaken 0xB0 q s → bits (sd q 6) 7 0 < 80 → 1 ≤ bits (sd q 6) 15 8 →
    bits (sd q 6) 15 8 ≤ 80 → 32 + 16 * bits (sd q 6) 15 8 + 128 ≤ sd q 4 →
    ids = ((List.range 80).filter (fun i => bits (sd q 6) 7 0 ≤ i)).take (bits (sd q 6) 15 8) →
    Answers (.registerRead q) s
      (SgLegal q (32 + 16 * ids.length + 128) (regHeader ids.length s ++ ids.flatMap s.bteEntry) s.sgm s)) ∧
  (∀ (s : State) (r : Nat), r < 16 →
    u (s.bteEntry r) 4 8 = s.bte.trImp.getD r 0 / 100000 % 1000000000000 ∧
    u (s.bteEntry (16 + r)) 4 8 = s.bte.trExp.getD r 0 / 100000 % 1000000000000 ∧
    u (s.bteEntry (32 + r)) 4 8 = s.bte.trDc.getD r 0 / 100000 % 1000000000000 ∧
    u (s.bteEntry (48 + r)) 4 4 = (s.bte.mdImp.getD r (0, 0)).1 % 2 ^ 32 ∧
    u (s.bteEntry (64 + r)) 8 4 = (s.bte.mdDc.getD r (0, 0)).2 % 2 ^ 32 ∧
    (∀ id ∈ [r, 16 + r, 48 + r], u (s.bteEntry id) 3 1 = b2n s.sgm.acFault + 2 * b2n s.sgm.saveGap) ∧
    u (s.bteEntry (32 + r)) 3 1 =
      b2n ((List.range 16).any (fun n => s.sgm.enabled n && s.sgm.portFault n)) + 2 * b2n s.sgm.saveGap ∧
    u (s.bteEntry (64 + r)) 3 1 = b2n (s.sgm.portFault r) + 2 * b2n s.sgm.saveGap) ∧
  (∀ (q : Sqe) (s : State), SgTaken 0xB4 q s → 416 ≤ sd q 4 → Answers (.creditRead q) s
    (SgLegal q 416 (le 8 s.bte.lTime ++ zeros 24 ++ (List.range 16).flatMap s.creditRecord) s.sgm s)) ∧
  (∀ (s : State) (p : Nat) (c : Calendar), (s.creditRecord p).length = 16 ∧ u (s.creditRecord p) 4 1 = s.bte.account p ∧
    (s.bte.cal = none → s.bte.account p = 2) ∧
    (s.bte.cal = some c → ((s.bte.credit.getD p (0, 0)).1 ≤ 0 → s.bte.account p = 2) ∧
      (0 < (s.bte.credit.getD p (0, 0)).1 → (s.bte.credit.getD p (0, 0)).1 ≤ c.creditLow → s.bte.account p = 1) ∧
      (0 < (s.bte.credit.getD p (0, 0)).1 → c.creditLow < (s.bte.credit.getD p (0, 0)).1 → s.bte.account p = 0))) ∧
  (∀ (q : Sqe) (s : State) (l : List (Nat × List Byte)), SgTaken 0xB5 q s → 1 ≤ bits (sd q 7) 9 0 → bits (sd q 7) 9 0 ≤ 512 →
    32 + 128 * bits (sd q 7) 9 0 + 128 ≤ sd q 4 →
    l = (s.bte.store.filter (fun x => decide (sd q 6 ≤ x.1))).take (bits (sd q 7) 9 0) →
    Answers (.intervalRead q) s (fun t => ∃ head, head.length = 32 ∧ SgLegal q l.length (head ++ l.flatMap Prod.snd) s.sgm s t ∧
      u head 12 4 = l.length)) ∧
  (∀ (q : Sqe) (b : List Byte) (s : State) (c : Calendar), SgTaken 0xB1 q s → b.length = 12396 → 12396 ≤ sd q 4 →
    c = ⟨b.take 4096, (b.drop 4096).take 4096, (b.drop 8192).take 4096, u b 8 8⟩ →
    crc32c c.t0 = u b 12288 4 → crc32c c.t1 = u b 12292 4 → crc32c c.t2 = u b 12296 4 → calBad c [0, 1, 2] = none →
    (c.activation ≠ 0 →
      Answers (.calendarWrite q (.data b)) s (fun t => sigOk 0xB1 q false b s = true → SgAnswered q stDONE (u c.t0 4 4) [] s t ∧
        t.bte = { s.bte with calNext := some c, nextCopies := (some c, some c) } ∧ t.mss.ctrOper = blockCounter b ∧
        t.mss.logSeq = (s.mss.logSeq + 1) % 2 ^ 32 ∧
        t = { s with hqe := t.hqe, bte := t.bte, mss := t.mss, lnk := s.lnk.sessionFirst true, out := t.out, cur := t.cur })) ∧
    (c.activation = 0 → s.bte.off.isSome = true →
      Answers (.calendarWrite q (.data b)) s (fun t => sigOk 0xB1 q false b s = true → SgAnswered q stDONE (u c.t0 4 4) [] s t ∧
        t.bte.calNext = some { c with activation := (s.bte.lTime / 60000000 + 1) * 60000000 } ∧ t.bte.cal = s.bte.cal)) ∧
    (sigOk 0xB1 q false b s = false → Answers (.calendarWrite q (.data b)) s (SgOnlyAnswers q stSIGNATURE_BAD 0 [] s))) ∧
  (∀ (q : Sqe) (b : List Byte) (s : State), SgTaken 0xB2 q s → b.length = 96 → 96 ≤ sd q 4 → sd64 q 6 ≠ timeUnknown →
    (s.bte.clockOff = none →
      Answers (.clockSet q (.data b)) s (fun t => sigOk 0xB2 q false b s = true → SgAnswered q stDONE 2 [] s t ∧
        t.bte = { s.bte with steps := [⟨(sd64 q 6 : Int) - s.bte.up, 2, blockCounter b⟩] } ∧ t.mss.ctrOper = blockCounter b ∧
        t = { s with hqe := t.hqe, bte := t.bte, mss := t.mss, lnk := s.lnk.sessionFirst true, out := t.out, cur := t.cur })) ∧
    (∀ o d : Int, s.bte.clockOff = some o → d = (sd64 q 6 : Int) - ((s.bte.up : Int) + o).toNat →
      Answers (.clockSet q (.data b)) s (fun t => sigOk 0xB2 q false b s = true →
        (∃ st, t.bte.steps = s.bte.steps ++ [st] ∧ st.off = (sd64 q 6 : Int) - s.bte.up ∧
          (st.cls = 0 ↔ d.natAbs ≤ s.bte.adjLimit * 1000000 ∧ d.natAbs + s.bte.adjSum ≤ s.bte.adjLimit * 1000000) ∧
          (st.cls = 0 ∨ st.cls = 1) ∧ (∃ f ∈ t.hqe.answers, f.status = stDONE ∧ f.result = st.cls ∧ f.cid = cidOf q) ∧
          t.bte.lastEvent = some (255, 0x11 + st.cls, ofInt 32 (d.tdiv 1000000) % 256)) ∧ t.bte.off = s.bte.off)) ∧
    (sigOk 0xB2 q false b s = false → Answers (.clockSet q (.data b)) s (SgOnlyAnswers q stSIGNATURE_BAD 0 [] s))) ∧
  (∀ (q : Sqe) (b : List Byte) (s : State), s.lnk.up = true → s.sgm.runs = true → s.mss.restarting = true →
    (Taken 0xB0 q s → Answers (.registerRead q) s (SgWaits q [] s)) ∧
    (Taken 0xB1 q s → Answers (.calendarWrite q (.data b)) s (SgWaits q (b.take (sd q 4)) s)) ∧
    (Taken 0xB2 q s → Answers (.clockSet q (.data b)) s (SgWaits q (b.take (sd q 4)) s)) ∧
    (Taken 0xB3 q s → Answers (.tokenEnter q) s (SgWaits q [] s)) ∧
    (Taken 0xB4 q s → Answers (.creditRead q) s (SgWaits q [] s)) ∧
    (Taken 0xB5 q s → Answers (.intervalRead q) s (SgWaits q [] s)))

/-- Tokens (R365 to R370). A token that passes every check of R367 is answered with its id, its value reaches its port's account, what it spent
reaches Saggar NVM, and it can never be accepted again: the same digits for the same port are then refused with reason USED. A locked-out keypad, a port that takes no
tokens and a token of wrong digits are refused as R367 orders. The local keypad and a relayed token are answered on their own routes, and a
lock-out ends when its oldest failure has reached 3,600 s of uptime, and not before.
The corners of a token's checks are log entry 26: the model's choice.
Each of these commands is shown to complete, that is, to answer a next state with its own effect: tokenEnter,
keypadToken, relayedToken, keypadLockoutEnd. -/
def Obligations.Tokens : Prop :=
  (∀ (q : Sqe) (s : State) (d : List Nat) (n id v : Nat) (key : List Byte), SgTaken 0xB3 q s → sd q 1 < 16 →
    d = (sdBytes q 6 5).map BitVec.toNat → n = d.foldl (fun a x => a * 10 + (x - 0x30)) 0 → s.bte.credit.length = 16 →
    s.bte.locked 255 = false → s.prepaidEnabled (sd q 1) = true → (∀ x ∈ d, 0x30 ≤ x ∧ x ≤ 0x39) → n < 2 ^ 66 →
    s.mss.token = some key → n % 2 ^ 20 = tokenMac key s.mss.serial.toNat n →
    id = n / 2 ^ 40 % 2 ^ 24 → s.bte.lwm ≤ id → s.bte.used.contains id = false →
    v = n / 2 ^ 24 % 65536 * 10 ^ (n / 2 ^ 20 % 16) → n / 2 ^ 64 = 0 → n / 2 ^ 20 % 16 ≤ 9 →
    (s.bte.credit.getD (sd q 1) (0, 0)).1 + (v : Int) ≤ 2147483647 →
    Answers (.tokenEnter q) s (fun t =>
      (∃ f ∈ t.hqe.answers, f.cid = cidOf q ∧ f.sq = q.sq ∧ f.status = stDONE ∧ f.result = id) ∧
      (t.bte.credit.getD (sd q 1) (0, 0)).1 = (s.bte.credit.getD (sd q 1) (0, 0)).1 + v ∧
      (∀ p, p ≠ sd q 1 → t.bte.credit.getD p (0, 0) = s.bte.credit.getD p (0, 0)) ∧
      t.bte.used.contains id = true ∧ s.bte.lwm ≤ t.bte.lwm ∧ t.bte.lastEvent = some (255, 1, id % 256) ∧
      t.bte.nvSpent = ⟨t.bte.credit, t.bte.lwm, t.bte.used⟩ ∧
      (∀ q' : Sqe, SgTaken 0xB3 q' t → sd q' 1 = sd q 1 → sdBytes q' 6 5 = sdBytes q 6 5 →
        Answers (.tokenEnter q') t (fun w => w.bte.credit = t.bte.credit ∧ w.bte.used = t.bte.used ∧
          ∃ f ∈ w.hqe.answers, f.cid = cidOf q' ∧ f.sq = q'.sq ∧ f.status = stTOKEN_REJECT ∧ f.result = 4)))) ∧
  (∀ (q : Sqe) (s : State), SgTaken 0xB3 q s → sd q 1 < 16 →
    (s.bte.locked 255 = true → Answers (.tokenEnter q) s (SgOnlyAnswers q stLOCKED_OUT (s.bte.minutesLeft 255) [] s)) ∧
    (s.bte.locked 255 = false → s.prepaidEnabled (sd q 1) = false → Answers (.tokenEnter q) s (fun t =>
      (∃ f ∈ t.hqe.answers, f.cid = cidOf q ∧ f.status = stTOKEN_REJECT ∧ f.result = 7) ∧
      t.bte = { s.bte with lastEvent := some (255, 2, 7) })) ∧
    (s.bte.locked 255 = false → s.prepaidEnabled (sd q 1) = true →
      (∃ x ∈ (sdBytes q 6 5).map BitVec.toNat, x < 0x30 ∨ 0x39 < x) → Answers (.tokenEnter q) s (fun t =>
        (∃ f ∈ t.hqe.answers, f.cid = cidOf q ∧ f.status = stTOKEN_REJECT ∧ f.result = 1) ∧
        t.bte.credit = s.bte.credit ∧ t.bte.used = s.bte.used ∧ t.bte.lwm = s.bte.lwm ∧
        t.bte.fails = put 255 ((s.bte.up :: s.bte.recent 255).take 5) s.bte.fails))) ∧
  (∀ (digits : List Nat) (s : State), s.bteRuns = true →
    Answers (.keypadToken digits) s (fun t => ∃ text, .uart 0 (text ++ [0x0D]) ∈ t.out ∧
      ((s.start.token 0 0xFF digits).1.1 = stDONE → ∃ w, text = 0x41 :: w) ∧
      ((s.start.token 0 0xFF digits).1.1 ≠ stDONE → ∃ w, text = 0x52 :: w ∧ t.bte.credit = s.bte.credit) ∧
      t.bte.used = (s.start.token 0 0xFF digits).2.bte.used ∧ t.sgm = s.sgm)) ∧
  (∀ (s s1 : State) (r : (Nat × Nat) × State) (node hold : Nat) (digits : List Nat) (rest : List (CrossMsg × Nat)),
    s.bteRuns = true → s.lnk.inSg = (.token node digits, hold) :: rest →
    s1 = s.start.onLnk (fun l => { l with inSg := rest }) → r = s1.token node 0xFF digits →
    Answers .relayedToken s (fun t => t.bte = r.2.bte ∧ t.mss = r.2.mss ∧ t.sgm = s.sgm ∧ t.lnk.inSg = rest ∧
      t.lnk.toSt = s.lnk.toSt ++ [(.tokenAnswer node (if r.1.1 = stDONE then 2 ^ 24 + ofInt 24 (r.2.wholeUnits node)
        else 2 * 2 ^ 24 + r.1.2 % 2 ^ 24), s.bte.lTime)])) ∧
  (∀ (digits : List Nat) (s : State), s.mss.restarting = true →
    Answers (.keypadToken digits) s (fun t => t = { s with out := [], cur := none }) ∧
    Answers .relayedToken s (fun t => t = { s with out := [], cur := none })) ∧
  (∀ (kp : Nat) (s : State) (l : List Nat), look kp s.bte.fails = some l →
    (l.length ≤ 5 → l.getD 4 0 + 3600000000 ≤ s.bte.up →
      Answers (.keypadLockoutEnd kp) s (fun t => t.bte.locked kp = false ∧
        look kp t.bte.fails = some (l.filter (fun x => decide (s.bte.up < x + 3600000000))) ∧
        t = { s with bte := { s.bte with fails := t.bte.fails }, out := [], cur := none })) ∧
    (l.length = 5 → (∀ x ∈ l, s.bte.up < x + 3600000000) →
      Answers (.keypadLockoutEnd kp) s (fun t => t.bte.locked kp = true ∧ t = { s with out := [], cur := none })))

/-- Sessions, charges and attribution (R347, R362 to R364). An OPEN opens its session, stamped with its arrival less its hold time, and is
answered with its credit state: EXHAUSTED on a port that is not enabled or METER_FAULT, OK postpaid, the account's state prepaid. While the Saggar
restarts on another image the messages wait behind the carries of that time (R381). A CLOSE
hands one session record to MSS and ends it; a RESYNC ends every session. In a sample the energy that reaches the DC_DEL accumulators
reaches the tariff register of the rate in force, to the µWh, and a prepaid session's account is charged with its carry.
The corners of attribution are log entry 26: the model's choice.
Each of these commands is shown to complete, that is, to answer a next state with its own effect: sgmSample,
openMessage, closeMessage, resyncMessage. -/
def Obligations.BillingSessions : Prop :=
  (∀ (s : State) (n p hold : Nat) (pre : Bool) (rest : List (CrossMsg × Nat)), s.bteRuns = true →
    s.lnk.inSg = (.open n p pre, hold) :: rest →
    Answers .openMessage s (fun t => ∃ x st, t.bte = { s.bte with sess := s.bte.sess ++ [x] } ∧ x.number = n ∧ x.port = p ∧
      x.prepaid = pre ∧ x.reg = s.sgm.acc.getD p 0 ∧ x.cost = 0 ∧ x.said = true ∧
      x.open_ = (if s.bte.lTime = timeUnknown then timeUnknown else s.bte.lTime - hold * 1000) ∧
      t.lnk = { s.lnk with inSg := rest, toSt := s.lnk.toSt ++ [(.credit n st, s.bte.lTime)] } ∧ x.sent = st ∧
      st = (if s.sgm.enabled p = false ∨ s.sgm.portFault p = true then 2 else if pre then s.bte.account p else 0) ∧
      t = { s with bte := t.bte, lnk := t.lnk, out := [], cur := none })) ∧
  (∀ (s : State) (n reason hold : Nat) (x : BteSess) (rest : List (CrossMsg × Nat)), s.bteRuns = true →
    s.lnk.inSg = (.close n reason, hold) :: rest → s.bte.sess.find? (fun y => y.number == n) = some x →
    Answers .closeMessage s (fun t => t.bte = { s.bte with sess := s.bte.sess.filter (fun y => y.number != n) } ∧
      t.lnk = { s.lnk with inSg := rest } ∧ t.mss.recordSeq = (s.mss.recordSeq + 1) % 2 ^ 32 ∧
      (∃ rec', t.mss.sessions.getLast? = some (t.mss.recordSeq, rec') ∧ u rec' 4 1 = 1 ∧ u rec' 32 4 = n % 2 ^ 32 ∧
        u rec' 36 1 = x.port % 256 ∧ u rec' 38 1 = reason % 256) ∧
      t = { s with bte := t.bte, lnk := t.lnk, mss := { s.mss with
        recordSeq := t.mss.recordSeq, sessions := t.mss.sessions }, out := [], cur := none })) ∧
  (∀ (s : State) (cause hold : Nat) (rest : List (CrossMsg × Nat)), s.bteRuns = true → s.lnk.inSg = (.resync cause, hold) :: rest →
    s.mss.recordSeq < 2 ^ 32 →
    Answers .resyncMessage s (fun t => t.bte = { s.bte with sess := [] } ∧ t.lnk = { s.lnk with inSg := rest } ∧
      t.mss.recordSeq = (s.mss.recordSeq + s.bte.sess.length) % 2 ^ 32)) ∧
  (∀ s : State, s.mss.restarting = true → ∀ i ∈ [Instr.openMessage, .closeMessage, .resyncMessage],
    Answers i s (fun t => t = { s with out := [], cur := none })) ∧
  (∀ (bits : List Nat) (s : State), s.sgm.mode = .normal → s.mss.restarting = false → s.bte.rate < 16 → s.bte.trDc.length = 16 →
    s.bte.steps = [] → s.sgm.acc.length = 64 → s.sgm.res.length = 64 →
    Answers (.sgmSample bits) s (fun t =>
      sumN t.bte.trDc + sumN (s.sgm.acc.take 16) = sumN s.bte.trDc + sumN (t.sgm.acc.take 16) ∧
      (∀ r, r ≠ s.bte.rate → t.bte.trDc.getD r 0 = s.bte.trDc.getD r 0) ∧
      (∀ p price, p < 16 → price = (match s.bte.cal with | none => 0 | some c => c.price s.bte.rate) → s.bte.credit.length = 16 →
        (s.bte.sess.any (fun x => x.port == p && x.prepaid) = true → s.sgm.acc.getD p 0 < t.sgm.acc.getD p 0 →
          t.bte.credit.getD p (0, 0) =
            (satS32 ((s.bte.credit.getD p (0, 0)).1 -
              (((s.bte.credit.getD p (0, 0)).2 + (t.sgm.acc.getD p 0 - s.sgm.acc.getD p 0) * price) / 100000000000 : Nat)),
              ((s.bte.credit.getD p (0, 0)).2 + (t.sgm.acc.getD p 0 - s.sgm.acc.getD p 0) * price) % 100000000000)) ∧
        (s.bte.sess.any (fun x => x.port == p && x.prepaid) = false → t.bte.credit.getD p (0, 0) = s.bte.credit.getD p (0, 0)))))

/-- Intervals, periods, calendars and the legal clock (R349 to R352, R356 to R361). An interval boundary later than every closed one closes
the open interval with its record and demand and opens the next; one already passed closes nothing. A period closes once for a local date, at the sample
boundary that reaches it, from another date at the boundary before.
A pending calendar activates at the first
minute at or after its time, and a copy that fails its check is restored from the other. A large clock step closes the interval and opens the next at the new time, and never closes a
boundary twice.
The corners of the legal clock are log entry 26: the model's choice.
Each of these commands is shown to complete, that is, to answer a next state with its own effect: sgmSample,
intervalClose, periodClose, calendarActivation, tariffSwitch, midnightSwitchList. -/
def Obligations.BillingTime : Prop :=
  (∀ (s : State) (o : Int) (b e dur d : Nat), s.sgm.runs = true → s.bte.off = some o →
    b = s.bte.lTime / (s.bte.lenMs * 1000) * (s.bte.lenMs * 1000) → dur = (s.bte.up - s.bte.open_.startUp) / 1000 →
    e = regIncrease (s.bte.open_.regs.getD 0x20 0) (s.sgm.acc.getD 0x20 0) → d = rneDivN (e * 3600) (max dur s.bte.lenMs) →
    (s.bte.closed < b → b < 2 ^ 64 → s.bte.open_.seq < 2 ^ 32 → s.bte.open_.rate < s.bte.mdImp.length →
      Answers .intervalClose s (fun t => t.bte.closed = b ∧
        t.bte.open_ = { t.bte.open_ with
          seq := (s.bte.open_.seq + 1) % 2 ^ 32, start := b, startUp := s.bte.up, rate := s.bte.rate, adj := 0, regs := s.sgm.acc } ∧
        (∃ rec', t.bte.store.getLast? = some (s.bte.open_.seq, rec') ∧ rec'.length = 128 ∧ u rec' 8 8 = b ∧
          u rec' 16 4 = s.bte.open_.seq ∧ u rec' 28 4 = e % 2 ^ 32 ∧ u rec' 116 4 = d % 2 ^ 32 ∧
          (t.bte.mdImp.getD s.bte.open_.rate (0, 0)).1 = max (s.bte.mdImp.getD s.bte.open_.rate (0, 0)).1 d) ∧
        t.bte = { s.bte with
          closed := b, open_ := t.bte.open_, store := t.bte.store, mdImp := t.bte.mdImp, mdDc := t.bte.mdDc } ∧
        t = { s with bte := t.bte, out := [], cur := none })) ∧
    (b ≤ s.bte.closed → Answers .intervalClose s (fun t => t = { s with out := [], cur := none }))) ∧
  (∀ s : State, s.sgm.runs = false → Answers .intervalClose s (fun t => t = { s with out := [], cur := none })) ∧
  (∀ (s : State) (o : Int) (c : Calendar) (date : Nat), s.sgm.runs = true → s.bte.off = some o → s.bte.cal = some c →
    date = c.localAt s.bte.lTime / 86400000000 → date ≠ c.localAt (s.bte.lTime - 125) / 86400000000 → c.billingDay ≠ 0 →
    (civil date).2.2 = c.billingDay →
    (s.bte.periodDates.contains date = false → Answers .periodClose s (fun t =>
      t.bte.period = (s.bte.period + 1) % 65536 ∧ t.bte.periodDates.contains date = true ∧
      t.bte.mdImp = List.replicate 16 (0, 0) ∧ t.bte.mdDc = List.replicate 16 (0, 0) ∧ t.bte.trImp = s.bte.trImp ∧
      t.bte.trExp = s.bte.trExp ∧ t.bte.trDc = s.bte.trDc ∧ t.bte.credit = s.bte.credit ∧
      t.mss.recordSeq = (s.mss.recordSeq + 1) % 2 ^ 32 ∧ t.bte.lastEvent = some (255, 0x15, s.bte.period % 256) ∧ t.sgm = s.sgm)) ∧
    (s.bte.periodDates.contains date = true → Answers .periodClose s (fun t => t = { s with out := [], cur := none }))) ∧
  (∀ (s : State) (o : Int) (c : Calendar) (date : Nat), s.bte.off = some o → s.bte.cal = some c →
    date = c.localAt s.bte.lTime / 86400000000 → (c.billingDay = 0 ∨ (civil date).2.2 ≠ c.billingDay) →
    Answers .periodClose s (fun t => t.bte.period = s.bte.period ∧
      t = { s with bte := { s.bte with periodDates := t.bte.periodDates }, out := [], cur := none })) ∧
  (∀ (s : State) (c : Calendar), (s.sgm.runs = false ∨ s.bte.off = none ∨ s.bte.cal = none ∨
      s.bte.cal = some c ∧ c.localAt s.bte.lTime / 86400000000 = c.localAt (s.bte.lTime - 125) / 86400000000) →
    Answers .periodClose s (fun t => t = { s with out := [], cur := none })) ∧
  (∀ (s : State) (o : Int) (c : Calendar), s.bte.off = some o → s.bte.calNext = some c → s.bte.nextCopies = (some c, some c) →
    c.activation ≤ s.bte.lTime / 60000000 * 60000000 → s.bte.lTime % 60000000 < 125 →
    (∀ a b : Bool, (a && b) = false → Answers (.calendarActivation a b) s (fun t => t.bte.cal = some c ∧ t.bte.calNext = none ∧
      t.bte.calCopies = (some c, some c) ∧ t.bte.calFault = false ∧ t.bte.rate = (c.at s.bte.lTime).1 ∧ t.bte.credit = s.bte.credit ∧ t.bte.trDc = s.bte.trDc ∧
      t.bte.open_.seq = (if intervalMs c.lenCode = s.bte.lenMs then s.bte.open_.seq else (s.bte.open_.seq + 1) % 2 ^ 32) ∧
      s.bte.closed ≤ t.bte.closed ∧ t.bte.lastEvent = some (255, 0x14, u c.t0 4 4 % 256))) ∧
    Answers (.calendarActivation true true) s (fun t => t.bte.cal = none ∧ t.bte.calNext = none ∧ t.bte.calFault = true ∧
      t.bte.rate = 0)) ∧
  (∀ (s : State) (a b : Bool) (c : Calendar), (s.bte.off = none ∨ s.bte.calNext = none ∨
      s.bte.calNext = some c ∧ (s.bte.lTime / 60000000 * 60000000 < c.activation ∨ 125 ≤ s.bte.lTime % 60000000)) →
    Answers (.calendarActivation a b) s (fun t => t = { s with out := [], cur := none })) ∧
  (∀ (s : State),
    (∀ (o : Int) (c : Calendar), s.bte.off = some o → s.bte.cal = some c → Answers .tariffSwitch s (fun t =>
      t.bte.rate = (c.at s.bte.lTime).1 ∧
      t = { s with out := [], cur := none, bte := { s.bte with
        rate := t.bte.rate, season := t.bte.season, special := t.bte.special, day := t.bte.day,
        open_ := (if s.bte.open_.startUp = s.bte.up then { s.bte.open_ with rate := t.bte.rate } else s.bte.open_) } })) ∧
    ((s.bte.off = none ∨ s.bte.cal = none) → Answers .tariffSwitch s (fun t => t.bte.rate = 0 ∧ t.bte.cal = s.bte.cal)) ∧
    Answers (.midnightSwitchList true true) s (fun t => t.bte.cal = none ∧ t.bte.rate = 0 ∧
      (s.bte.cal.isSome = true → t.bte.calFault = true ∧ t.mss.logSeq = (s.mss.logSeq + 1) % 2 ^ 32)) ∧
    (∀ c : Calendar, s.bte.cal = some c → s.bte.calCopies = (some c, some c) →
      Answers (.midnightSwitchList true false) s (fun t => t.bte.cal = some c ∧ t.bte.calCopies = (some c, some c) ∧
        t.mss = s.mss ∧ t.bte.credit = s.bte.credit))) ∧
  (∀ (bits : List Nat) (s : State) (st : ClockStep) (o : Int) (new : Nat), s.sgm.mode = .settling → s.mss.restarting = false →
    s.bte.off = some o → s.bte.steps = [st] → st.cls = 1 → new = ((s.bte.up : Int) + st.off).toNat →
    Answers (.sgmSample bits) s (fun t => t.bte.off = some st.off ∧ t.bte.steps = [] ∧
      t.bte.open_.seq = (s.bte.open_.seq + 1) % 2 ^ 32 ∧ t.bte.open_.start = new ∧ s.bte.closed ≤ t.bte.closed ∧
      (s.bte.lTime ≤ new → bit t.bte.open_.flags 6 = true) ∧
      (new < s.bte.lTime → bit t.bte.open_.flags 2 = true ∧ t.bte.closed = s.bte.closed) ∧
      (∃ rec', t.bte.store.getLast? = some (s.bte.open_.seq, rec') ∧ u rec' 8 8 = s.bte.lTime % 2 ^ 64 ∧ bit (u rec' 20 1) 1 = true) ∧
      t.sgm.acc = s.sgm.acc)) ∧
  (∀ (bits : List Nat) (s : State) (st : ClockStep), s.sgm.mode = .settling → s.mss.restarting = false → s.bte.steps = [st] →
    (st.cls = 0 → Answers (.sgmSample bits) s (fun t => t.bte.off = some st.off ∧ t.bte.steps = [] ∧ t.sgm.acc = s.sgm.acc)) ∧
    (st.cls = 2 → s.bte.off = none → Answers (.sgmSample bits) s (fun t => t.bte.off = some st.off ∧ t.bte.steps = [] ∧
      t.bte.open_.seq = (s.bte.open_.seq + 1) % 2 ^ 32 ∧ t.bte.open_.start = ((s.bte.up : Int) + st.off).toNat ∧
      bit t.bte.open_.flags 6 = true ∧ s.bte.closed ≤ t.bte.closed ∧ t.sgm.saveGap = false ∧ t.sgm.acc = s.sgm.acc)))

/-! ### Saggar seal and signed records -/

/-- The seal procedure (R376, R380 to R382, Table 14-4). OPEN needs no open procedure, more than 16 free protected entries and a signature
by AUTH; LOAD appends to the staged package up to 4 MiB; CLOSE applies the package only with the cover opened and closed again, the hash
that OPEN gave and every item well formed, clears tamper and keeps the seal count; ABANDON and the timeout apply nothing. A restart ends with
the queued carries taken, and then serves the commands that waited; a rollback within 10 s of the restart brings the previous image back.
A key that returns finds the last counter accepted under it. (That a command waits for the restart, and that a rollback is a restart too,
is log entry 27: the model's choice.)
Each of these commands is shown to complete, that is, to answer a next state with its own effect: sealBeginOpen,
sealBeginLoad, sealBeginClose, sealBeginAbandon, sealTimeout, saggarRollback, saggarRestartDone. -/
def Obligations.SealProcedure : Prop :=
  (∀ (q : Sqe) (b : List Byte) (s : State), SgTaken 0xC3 q s → bits (sd q 6) 3 0 = 0 → b.length = 128 → 128 ≤ sd q 4 →
    (s.mss.sealSt = 0 → s.mss.prot.length + 16 < 1024 →
      Answers (.sealBeginOpen q (.data b)) s (fun t => sigOk 0xC3 q true b s = true →
        (∃ f ∈ t.hqe.answers, f.cid = cidOf q ∧ f.sq = q.sq ∧ f.status = stDONE ∧ f.result = 0) ∧
        t.mss.sealSt = 1 ∧ t.mss.hash = b.take 32 ∧ t.mss.staging = [] ∧ t.mss.sealAt = s.bte.up ∧ t.mss.ctrAuth = blockCounter b ∧
        t.mss.ctrOper = s.mss.ctrOper ∧ t.mss.sealCount = s.mss.sealCount ∧ t.mss.tamper = s.mss.tamper ∧
        (∃ e, t.mss.prot = s.mss.prot ++ [e] ∧ u e.2 4 2 = 1 ∧ u e.2 56 4 = blockCounter b) ∧ t.sgm = s.sgm ∧ t.bte = s.bte)) ∧
    ((s.mss.sealSt ≠ 0 ∨ 1024 ≤ s.mss.prot.length + 16) →
      Answers (.sealBeginOpen q (.data b)) s (SgOnlyAnswers q stBAD_STATE 0 [] s)) ∧
    (s.mss.sealSt = 0 → s.mss.prot.length + 16 < 1024 → sigOk 0xC3 q true b s = false →
      Answers (.sealBeginOpen q (.data b)) s (SgOnlyAnswers q stSIGNATURE_BAD 0 [] s))) ∧
  (∀ (q : Sqe) (b : List Byte) (s : State), SgTaken 0xC3 q s → bits (sd q 6) 3 0 = 1 → b.length ≤ sd q 4 →
    (s.mss.sealSt = 1 → s.mss.staging.length + b.length ≤ 4194304 →
      Answers (.sealBeginLoad q (.data b)) s (fun t => SgAnswered q stDONE 0 [] s t ∧
        t = { s with hqe := t.hqe, mss := { s.mss with staging := s.mss.staging ++ b }, lnk := s.lnk.sessionFirst true, out := t.out, cur := t.cur })) ∧
    ((s.mss.sealSt ≠ 1 ∨ 4194304 < s.mss.staging.length + b.length) →
      Answers (.sealBeginLoad q (.data b)) s (SgOnlyAnswers q stBAD_STATE 0 [] s))) ∧
  (∀ (q : Sqe) (s : State), SgTaken 0xC3 q s → bits (sd q 6) 3 0 = 2 → sd q 2 = 0 → sd q 3 = 0 → sd q 4 = 0 →
    (∀ items, s.mss.sealSt = 1 → s.mss.coverSeen = true → s.mss.cover = false → sha256 s.mss.staging = s.mss.hash →
      packageItems (s.mss.staging.length + 1) s.mss.staging = some items →
      Answers (.sealBeginClose q (.data [])) s (fun t => (∀ i ∈ items, itemOk s.mss.serial i = true) →
        (∃ f ∈ t.hqe.answers, f.cid = cidOf q ∧ f.sq = q.sq ∧ f.status = stDONE ∧ f.result = s.mss.sealCount) ∧
        t.mss.tamper = false ∧ t.mss.sealCount = s.mss.sealCount ∧ t.mss.sealSt ≠ 1 ∧ t.mss.staging = [] ∧
        t.mss.logSeq = (s.mss.logSeq + (items.length + 1)) % 2 ^ 32 ∧
        (∀ c, items = [(1, c)] → t.sgm = { s.sgm with calNext := some c } ∧ t.mss.sealSt = 2 ∧ t.mss.image = s.mss.image) ∧
        (∀ m, items = [(2, m)] → t.sgm = s.sgm ∧ t.mss.image.1 = sha256 m ∧ t.mss.imageOld = some s.mss.image ∧
          t.mss.restarting = true ∧ t.mss.imageAt = s.bte.up) ∧
        (∀ k w, items = [(3, w)] → itemKey s.mss.serial 3 w = some k → t.mss.oper = some k ∧ t.mss.auth = s.mss.auth ∧
          (s.mss.oper = some k → t.mss.ctrOper = s.mss.ctrOper) ∧
          (∀ j, s.mss.oper = some j → (j, s.mss.ctrOper) ∈ t.mss.pastCtrs)) ∧
        (∀ k w, items = [(4, w)] → itemKey s.mss.serial 4 w = some k → t.sgm = s.sgm ∧ t.mss.token = some k ∧
          t.mss.sealSt = 0 ∧ t.mss.oper = s.mss.oper ∧ t.mss.auth = s.mss.auth) ∧ t.bte = s.bte)) ∧
    (s.mss.sealSt = 1 → (s.mss.coverSeen = false ∨ s.mss.cover = true ∨ sha256 s.mss.staging ≠ s.mss.hash) →
      Answers (.sealBeginClose q (.data [])) s (fun t => ∃ r, SgOnlyAnswers q stBAD_PARAM r [] s t)) ∧
    (s.mss.sealSt ≠ 1 → Answers (.sealBeginClose q (.data [])) s (SgOnlyAnswers q stBAD_STATE 0 [] s))) ∧
  (∀ (q : Sqe) (s : State), SgTaken 0xC3 q s → bits (sd q 6) 3 0 = 3 → sd q 2 = 0 → sd q 3 = 0 → sd q 4 = 0 → s.mss.sealSt = 1 →
    Answers (.sealBeginAbandon q (.data [])) s (fun t =>
      (∃ f ∈ t.hqe.answers, f.cid = cidOf q ∧ f.sq = q.sq ∧ f.status = stDONE ∧ f.result = 0) ∧ t.mss.sealSt = 0 ∧ t.mss.staging = [] ∧
      t.mss.sealCount = s.mss.sealCount ∧ t.mss.tamper = s.mss.tamper ∧ t.sgm = s.sgm ∧ t.mss.image = s.mss.image)) ∧
  (∀ (s : State), s.mss.sealSt = 1 → Answers .sealTimeout s (fun t => t.mss.sealSt = 0 ∧ t.mss.staging = [] ∧
    t.mss.sealCount = s.mss.sealCount ∧ t.mss.tamper = s.mss.tamper ∧ t.sgm = s.sgm ∧ t.bte = s.bte ∧
    t.mss.lastEvent.map (fun e => e.2.1) ≠ some 3)) ∧
  (∀ (s : State), s.mss.restarting = true →
    (s.mss.waiting = [] → Answers .saggarRestartDone s (fun t => t.mss.restarting = false ∧ t.bte.carryQ = [] ∧
      t.bte = s.bte.carryQ.foldl (fun b x => b.attribute x.1 x.2) { s.bte with carryQ := [] } ∧ t.sgm = s.sgm ∧ t.hqe = s.hqe)) ∧
    (∀ q b, s.mss.waiting = [(q, b)] → opOf q = 0xC5 → 240 ≤ sd q 4 → Answers .saggarRestartDone s (fun t =>
      t.mss.restarting = false ∧ t.mss.waiting = [] ∧
      ∃ buf, t.hqe.answers = s.hqe.answers ++ [⟨q.sq, cidOf q, stDONE, 240, addrOf q, buf⟩]))) ∧
  (∀ (s : State) (old : List Byte × Nat), s.mss.imageOld = some old → s.bte.up ≤ s.mss.imageAt + 10000000 →
    Answers .saggarRollback s (fun t => t.mss.image = old ∧ t.mss.rollback = true ∧ t.mss.restarting = true ∧ t.mss.sealCount = s.mss.sealCount ∧ t.sgm = s.sgm ∧
      t.mss.logSeq = (s.mss.logSeq + 1) % 2 ^ 32)) ∧
  (∀ (s : State) (old : List Byte × Nat), s.mss.imageOld = some old → s.mss.imageAt + 10000000 < s.bte.up →
    Answers .saggarRollback s (fun t => t = { s with out := [], cur := none })) ∧
  (∀ (q : Sqe) (b : List Byte) (s : State), Taken 0xC3 q s → s.lnk.up = true → s.sgm.runs = true → s.mss.restarting = true →
    ∀ i ∈ [Instr.sealBeginOpen q (.data b), .sealBeginLoad q (.data b), .sealBeginClose q (.data b), .sealBeginAbandon q (.data b)],
      Answers i s (SgWaits q (b.take (sd q 4)) s))

/-- The cover, the ship authorisation and the reads (R375, R377 to R379, R382, R384, R385, R484, R485). Each opening outside a procedure raises the
seal count and sets tamper; inside a procedure only the first raises it; one while the Saggar
was off counts at its next power-on. The closing of an opening that was outside a procedure is logged. RECORD_READ, LOG_READ and IDENT_READ are legal answers. A request at
the optical head that is not a sound frame is not answered.
How openings in and outside a procedure are logged, and what an answer's reserved bytes hold, is log entry 27: the model's choice.
Each of these commands is shown to complete, that is, to answer a next state with its own effect: saggarPowerOn,
keyExport, recordRead, logRead, shipAuthorise, shipAuthLapse, identRead, coverOpen, coverClose, opticalRequest,
displayLine. -/
def Obligations.SealAndReads : Prop :=
  (∀ (s : State), s.mss.cover = false → s.sgm.watches = true →
    (s.mss.sealSt ≠ 1 → Answers .coverOpen s (fun t => t.mss.sealCount = s.mss.sealCount + 1 ∧ t.mss.tamper = true ∧
      t.mss.cover = true ∧ t.mss.openedOut = true ∧ t.mss.logSeq = (s.mss.logSeq + 1) % 2 ^ 32 ∧ t.sgm = s.sgm ∧ t.bte = s.bte)) ∧
    (s.mss.sealSt = 1 → s.mss.coverSeen = false → Answers .coverOpen s (fun t => t.mss.sealCount = s.mss.sealCount + 1 ∧
      t.mss.tamper = s.mss.tamper ∧ t.mss.cover = true ∧ t.mss.coverSeen = true ∧ t.mss.openedOut = false ∧ t.mss.logSeq = (s.mss.logSeq + 1) % 2 ^ 32 ∧
      t.sgm = s.sgm ∧ t.bte = s.bte)) ∧
    (s.mss.sealSt = 1 → s.mss.coverSeen = true → Answers .coverOpen s (fun t => t.mss.sealCount = s.mss.sealCount ∧
      t.mss.tamper = s.mss.tamper ∧ t.mss.cover = true ∧ t.mss.logSeq = s.mss.logSeq))) ∧
  (∀ (s : State), s.mss.cover = false → s.sgm.watches = false →
    Answers .coverOpen s (fun t => t = { s with mss := { s.mss with cover := true, unseen := true }, out := [], cur := none })) ∧
  (∀ (k a b : Bool) (s : State),
    (s.mss.unseen = true → Answers (.saggarPowerOn k a b) s (fun t => t.mss.sealCount = s.mss.sealCount + 1 ∧ t.mss.tamper = true ∧
      t.mss.unseen = false)) ∧
    (s.mss.unseen = false → Answers (.saggarPowerOn k a b) s (fun t => t.mss.sealCount = s.mss.sealCount ∧
      t.mss.tamper = s.mss.tamper))) ∧
  (∀ (s : State), s.mss.cover = true → Answers .coverClose s (fun t => t.mss.cover = false ∧
    (s.sgm.watches = true → s.mss.openedOut = true → t.mss.logSeq = (s.mss.logSeq + 1) % 2 ^ 32) ∧
    ((s.sgm.watches = false ∨ s.mss.openedOut = false) → t.mss.logSeq = s.mss.logSeq) ∧ t.mss.sealCount = s.mss.sealCount ∧
    t.mss.tamper = s.mss.tamper ∧ t.mss.coverSeen = s.mss.coverSeen ∧ t.sgm = s.sgm)) ∧
  (∀ (q : Sqe) (b : List Byte) (s : State), SgTaken 0xC4 q s → b.length = 96 → 96 ≤ sd q 4 →
    (Answers (.shipAuthorise q (.data b)) s (fun t => sigOk 0xC4 q true b s = true → SgAnswered q stDONE 0 [] s t ∧
      t.mss.shipAuth = some (s.bte.up + 86400000000) ∧ t.mss.ctrAuth = blockCounter b ∧
      t = { s with hqe := t.hqe, mss := { s.mss with
        shipAuth := t.mss.shipAuth, ctrAuth := t.mss.ctrAuth, logSeq := t.mss.logSeq, ring := t.mss.ring }, lnk := s.lnk.sessionFirst true, out := t.out, cur := t.cur })) ∧
    (sigOk 0xC4 q true b s = false → Answers (.shipAuthorise q (.data b)) s (SgOnlyAnswers q stSIGNATURE_BAD 0 [] s))) ∧
  (∀ (s : State), Answers .shipAuthLapse s (fun t => t = { s with mss := { s.mss with shipAuth := none }, out := [], cur := none })) ∧
  (∀ (q : Sqe) (s : State), SgTaken 0xC0 q s → 136 ≤ sd q 4 → Answers (.keyExport q) s (SgOnlyAnswers q stDONE 136
    (le 8 s.mss.serial.toNat ++ padTo 64 (Config.recordPublicKey s.mss.serial) ++ padTo 64 (Config.manufacturingSignature s.mss.serial)) s)) ∧
  (∀ (q : Sqe) (s : State) (store l : List (Nat × List Byte)), SgTaken 0xC1 q s → 1 ≤ bits (sd q 7) 15 8 → bits (sd q 7) 15 8 ≤ 64 →
    32 + 1472 * bits (sd q 7) 15 8 + 128 ≤ sd q 4 →
    (bits (sd q 7) 1 0 = 1 ∧ store = s.mss.sessions ∨ bits (sd q 7) 1 0 = 2 ∧ store = s.mss.periods) →
    l = (store.filter (fun x => decide (sd q 6 ≤ x.1))).take (bits (sd q 7) 15 8) →
    Answers (.recordRead q) s (fun t => ∃ head, head.length = 32 ∧ u head 12 4 = l.length ∧
      SgLegal q l.length (head ++ l.flatMap Prod.snd) s.sgm s t)) ∧
  (∀ (q : Sqe) (s : State) (l : List (Nat × List Byte)), SgTaken 0xC2 q s → 1 ≤ bits (sd q 7) 9 0 → bits (sd q 7) 9 0 ≤ 512 →
    32 + 64 * bits (sd q 7) 9 0 + 128 ≤ sd q 4 →
    l = (s.mss.entries.filter (fun x => decide (sd q 6 ≤ x.1))).take (bits (sd q 7) 9 0) →
    Answers (.logRead q) s (fun t => ∃ head, head.length = 32 ∧ u head 12 4 = l.length ∧
      SgLegal q l.length (head ++ l.flatMap Prod.snd) s.sgm s t)) ∧
  (∀ (q : Sqe) (s : State), SgTaken 0xC5 q s → 240 ≤ sd q 4 → Answers (.identRead q) s (SgLegal q 240
    (padTo 32 s.mss.image.1 ++ le 4 s.mss.swShort ++ le 4 s.mss.sealCount ++ le 8 s.mss.serial.toNat ++ le 4 s.mss.image.2 ++
      padTo 32 (sha256 s.sgm.cal) ++ zeros 28) s.sgm s)) ∧
  (∀ (q : Sqe) (b : List Byte) (s : State), s.lnk.up = true → s.sgm.runs = true → s.mss.restarting = true →
    (Taken 0xC0 q s → Answers (.keyExport q) s (SgWaits q [] s)) ∧
    (Taken 0xC1 q s → Answers (.recordRead q) s (SgWaits q [] s)) ∧
    (Taken 0xC2 q s → Answers (.logRead q) s (SgWaits q [] s)) ∧
    (Taken 0xC4 q s → Answers (.shipAuthorise q (.data b)) s (SgWaits q (b.take (sd q 4)) s)) ∧
    (Taken 0xC5 q s → Answers (.identRead q) s (SgWaits q [] s))) ∧
  (∀ (frame : List Byte) (s : State), s.bteRuns = false →
    Answers .displayLine s (fun t => t = { s with out := [], cur := none }) ∧
    Answers (.opticalRequest frame) s (fun t => t = { s with out := [], cur := none })) ∧
  (∀ (s : State), s.bteRuns = true → Answers .displayLine s (fun t => t.out = [.uart 1 s.displayText] ∧
    t = { s with mss := { s.mss with line := t.mss.line }, out := t.out, cur := none } ∧ t.mss.line < s.displayRegs.length)) ∧
  (∀ (frame : List Byte) (s : State), (frame.length ≠ 70 ∨ u frame 0 4 ≠ 64 ∨ frame.drop 68 ≠ be 2 (crc16 (frame.take 68))) →
    Answers (.opticalRequest frame) s (fun t => t = { s with out := [], cur := none })) ∧
  (∀ (frame : List Byte) (s : State), s.bteRuns = true → frame.length = 70 → u frame 0 4 = 64 →
    frame.drop 68 = be 2 (crc16 (frame.take 68)) →
    Answers (.opticalRequest frame) s (fun t => (∃ body, t.out = [.uart 2 (opticalFrame body)] ∧ 16 ≤ body.length) ∧
      t.bte = s.bte ∧ t.sgm = { s.sgm with batRead := t.sgm.batRead } ∧ t.mss = { s.mss with answerSeq := t.mss.answerSeq } ∧
      t.hqe = s.hqe))

/-- The seal-event counter never falls (R379): whatever the step, while the same Saggar stays fitted, its seal count is at least what it
was. -/
def Obligations.SealCountNeverFalls : Prop :=
  ∀ s t : State, step s = .next t → t.mss.serial = s.mss.serial → s.mss.sealCount ≤ t.mss.sealCount

/-! ### Battery estimation -/

/-- The BSE commands (R407, Tables 15-3 and 15-4). STRING_STATUS returns a 64-byte record for each string of its range, zeros for a string
that is not configured; IMPEDANCE_READ returns the learned table; CAPACITY_SET gives a configured string a capacity, and with a soc anchors
it. An unconfigured string fails the last two with BAD_OBJECT. -/
def Claim.StringCommands : Prop :=
  (∀ (q : Sqe) (s : State) (n : Nat), Taken 0x70 q s → bits (sd q 6) 5 0 = n → sd q 1 ≤ 32 → sd q 1 + n ≤ 33 → 64 * n ≤ sd q 4 →
    Answers (.stringStatus q) s (fun t => ∃ bytes, bytes.length = 64 * n ∧ Completed q stDONE n s t ∧ Returned q bytes t ∧
      RingsKept s t ∧ t = { s with hqe := t.hqe, free := t.free, out := t.out, cur := t.cur } ∧
      (∀ i, i < n → sd q 1 + i < 32 → (s.str (sd q 1 + i)).on = false → (bytes.drop (64 * i)).take 64 = zeros 64) ∧
      (∀ i x, i < n → sd q 1 + i < 32 → x = s.str (sd q 1 + i) → x.on = true →
        u bytes (64 * i) 1 = x.level % 256 ∧ u bytes (64 * i + 2) 2 = x.soc % 65536 ∧ u bytes (64 * i + 8) 4 = x.cap % 2 ^ 32 ∧
        u bytes (64 * i + 12) 4 = x.cycles % 2 ^ 32 ∧ u bytes (64 * i + 20) 4 = x.volt % 2 ^ 32 ∧
        u bytes (64 * i + 28) 4 = x.since / 1000 % 2 ^ 32 ∧ bit (u bytes (64 * i + 1) 1) 7 = !x.anch))) ∧
  (∀ (q : Sqe) (s : State), Taken 0x71 q s → sd q 1 < 32 → 176 ≤ sd q 4 →
    ((s.str (sd q 1)).on = true → Answers (.impedanceRead q) s
      (ReadOnly q 176 (padTo 176 ((s.str (sd q 1)).r0.flatMap (le 2))) s)) ∧
    ((s.str (sd q 1)).on = false → Answers (.impedanceRead q) s (OnlyCompletes q stBAD_OBJECT 0 s))) ∧
  (∀ (q : Sqe) (s : State) (x y : Str) (v : Nat), Taken 0x72 q s → sd q 1 < 32 → sd q 1 < s.bse.strs.length → x = s.str (sd q 1) →
    x.on = true → (s.conf.str (sd q 1)).capNom ≤ 2 * sd q 6 → 2 * sd q 6 ≤ 3 * (s.conf.str (sd q 1)).capNom → sd q 7 = 0 →
    v = bits (sd q 8) 15 0 → v ≤ 10000 → s.sup.holdupReady = true → s.cfg.isSome = true →
    y = { x with cap := sd q 6, q := qOf v (sd q 6), anch := true, rested := false } →
    Answers (.capacitySet q) s (fun t => Completed q stDONE 0 s t ∧ t.out = [] ∧ RingsKept s t ∧ t.str (sd q 1) = y ∧
      y.unc (s.conf.str (sd q 1)) = 2500 ∧ (∀ j, j ≠ sd q 1 → t.str j = s.str j) ∧
      look (sd q 1) t.sup.sj.strings = some (y.entry (s.conf.str (sd q 1))) ∧
      t.sup.stateJournalSeq = (s.sup.stateJournalSeq + 1) % 2 ^ 32 ∧
      t = { s with hqe := t.hqe, bse := { s.bse with strs := t.bse.strs }, sup := { s.sup with
        sjSlots := t.sup.sjSlots, sjNext := none }, out := [], cur := t.cur })) ∧
  (∀ (q : Sqe) (s : State), Taken 0x72 q s → sd q 1 ≤ 32 → (s.str (sd q 1)).on = false → sd q 7 < 4 →
    bits (sd q 8) 15 0 ≤ 10000 → Answers (.capacitySet q) s (OnlyCompletes q stBAD_OBJECT 0 s))

/-- A string's millisecond and its limits (R391, R392, R397, R400, R404). A measured millisecond moves the charge count by the mean current,
less the charge efficiency when charging, within the capacity; a sense-missing one holds it and ends the rest. The impedance table moves
only by a learning step. Limits are 0 while a string is unanchored, has no temperature or is sense_missing, and otherwise fall from the full
current to 0 between its thresholds. -/
def Claim.StringMillisecond : Prop :=
  (∀ (s : State) (j : Nat) (x : Str) (r : StringRec) (b : SumBase) (i : Int), s.siteUp = true → j < 32 → s.bse.strs.length = 32 →
    x = s.str j → r = s.conf.str j → b = s.sumsOf r.group →
    i = (if (s.pg r.group).st = .running then rneDiv (b.isum - x.base.isum) (b.icnt - x.base.icnt) else 0) → x.on = true → x.pend = false →
    (b.acc ≠ x.base.acc → x.anch = true → x.drift = false →
      Answers .bseUpdate s (fun t =>
        (t.str j).cur = i ∧
        (t.str j).q = (clampI (x.q + (if 0 < i then rneShr (i * r.etaOf) 16 else i)) 0 (x.cap * 3600000 : Nat)).toNat ∧
        (t.str j).cap = x.cap ∧ (t.str j).since = x.since + 1 ∧ (t.str j).sm = false ∧
        (i.natAbs < r.restI → (t.str j).run = x.run + 1) ∧ (r.restI ≤ i.natAbs → (t.str j).run = 0) ∧
        (x.prev = none → (t.str j).r0 = x.r0) ∧ (t.str j).temp = s.strTemp r)) ∧
    (b.acc = x.base.acc → Answers .bseUpdate s (fun t => (t.str j).q = x.q ∧ (t.str j).cap = x.cap ∧ (t.str j).r0 = x.r0 ∧
      (t.str j).cycles = x.cycles ∧ (t.str j).run = 0 ∧ (t.str j).clean = false ∧ (t.str j).sm = true ∧
      (t.str j).level = x.level))) ∧
  (∀ (s : State), s.siteUp = true → Answers .bseUpdate s (fun t =>
    (∀ j, j < 32 → s.bse.strs.length = 32 → (s.str j).on = false → t.str j = s.str j) ∧ RefsKept s t ∧ t.psc = s.psc ∧ t.tcm = s.tcm ∧
    t.spa = s.spa ∧ t.cfg = s.cfg)) ∧
  (∀ (r : StringRec) (x : Str) (sd sc : Nat), sd = x.soc - x.unc r → sc = min (x.soc + x.unc r) 10000 → x.soc ≤ 10000 →
    ((x.nt = true ∨ x.sm = true ∨ x.anch = false) → x.currents r = (0, 0)) ∧
    (∀ t, x.temp = some t → x.nt = false → x.sm = false → x.anch = true → x.vhigh = false → x.vlow = false →
      r.tChgMin ≤ t → t ≤ r.tChgMax → r.tDisMin ≤ t → t ≤ r.tDisMax → r.ll < r.lo → r.hi < r.hh →
      (x.currents r).2 = (if sd ≤ r.ll then 0 else if r.lo ≤ sd then r.iDis
        else rneDivN (r.iDis * (sd - r.ll)) (r.lo - r.ll)) ∧
      (x.currents r).1 = (if r.hh ≤ sc then 0 else if sc ≤ r.hi then r.iChg
        else rneDivN (r.iChg * (r.hh - sc)) (r.hh - r.hi))))

/-- Rests, drift, persistence and the backup cell (R55, R393, R395, R398, R402, R405, R406). A rest of 30 min makes one correction: soc from the
open-circuit voltage, uncertainty 1.00 %, the string anchored. Between two rests far enough apart a capacity within range is learned by a
quarter. A string older than rest_max enters EST_DRIFT. Journal and impedance writes hold the configured strings; the state journal's go to its two slots in turn. The cell counts its
current once a second and keeps its levels, and learns its capacity at the voltage cut-off from the charge since it was full. (Without a
configuration the entries stay as they are, and an entry keeps no rest whose span has a missing sense: log entry 28, DEDUCED.)
Each of these commands is shown to complete, that is, to answer a next state with its own effect: restCorrection,
estDriftEntry, bseJournalWrite, impedanceSave, cellEstimate, cellStateMessage, cellStateStale. -/
def Obligations.RestsAndCell : Prop :=
  (∀ (s : State) (j soc : Nat) (x : Str), j < s.bse.strs.length → x = s.str j → x.on = true → 1800000 ≤ x.run → x.corrected = false →
    soc = ocvSoc (s.conf.str j).ocv x.volt →
    Answers (.restCorrection j) s (fun t => (t.str j).anch = true ∧ (t.str j).since = 0 ∧ (t.str j).drift = false ∧
      (t.str j).corrected = true ∧ (t.str j).socA = some soc ∧ (t.str j).net = 0 ∧
      (t.str j).unc (s.conf.str j) = 100 ∧
      ((x.socA = none ∨ x.clean = false) → (t.str j).cap = x.cap ∧ (t.str j).q = qOf soc x.cap) ∧
      (∀ a m, x.socA = some a → x.clean = true → 5000 ≤ ((soc : Int) - a).natAbs →
        m = rneDivN ((rneDiv x.net 3600000).natAbs * 10000) ((soc : Int) - a).natAbs →
        70 * (s.conf.str j).capNom ≤ 100 * m → 100 * m ≤ 110 * (s.conf.str j).capNom →
        (t.str j).cap = ((x.cap : Int) + rneDiv ((m : Int) - x.cap) 4).toNat ∧ (t.str j).q = qOf soc (t.str j).cap) ∧
      (∀ k, k ≠ j → t.str k = s.str k))) ∧
  (∀ (s : State) (j : Nat), ((s.str j).run < 1800000 ∨ (s.str j).corrected = true) →
    Answers (.restCorrection j) s (fun t => t = { s with out := [], cur := none })) ∧
  (∀ (s : State) (j : Nat), j < s.bse.strs.length → (s.str j).on = true → (s.str j).drift = false →
    ((s.conf.str j).restHours * 3600000 < (s.str j).since → Answers (.estDriftEntry j) s (fun t =>
      t.str j = { s.str j with drift := true } ∧ (∀ k, k ≠ j → t.str k = s.str k) ∧ t.bse.lastEvent = some (j, 2, 1))) ∧
    ((s.str j).since ≤ (s.conf.str j).restHours * 3600000 →
      Answers (.estDriftEntry j) s (fun t => t = { s with out := [], cur := none }))) ∧
  (∀ (s : State), s.siteUp = true → s.sup.holdupReady = true →
    Answers .bseJournalWrite s (fun t => t.sup.stateJournalSeq = (s.sup.stateJournalSeq + 1) % 2 ^ 32 ∧
      (s.cfg.isSome = true →
        ∀ j, j < 32 → (s.str j).on = true → look j t.sup.sj.strings = some ((s.str j).entry (s.conf.str j))) ∧
      (s.cfg = none → t.sup.sj.strings = s.sup.sj.strings) ∧
      t = { s with sup := { s.sup with sjSlots := t.sup.sjSlots, sjNext := none }, out := [], cur := none }) ∧
    (s.sup.st ≠ .powerFail → s.cfg.isSome = true → Answers .impedanceSave s (fun t =>
      (∀ j, j < 32 → (s.str j).on = true → look j t.sup.imps = some (s.str j).r0) ∧
      t = { s with sup := { s.sup with impSlots := t.sup.impSlots, impsNext := none }, out := [], cur := none }))) ∧
  (∀ (s : State) (a : NvSlot Journal), s.siteUp = true → s.sup.holdupReady = true →
    (nvNewest Journal.bytes s.sup.sjSlots = some (false, a) → Answers .bseJournalWrite s (fun t => t.sup.sjSlots.1 = none ∧
      ∃ b, t.sup.sjSlots.2 = some b ∧ b.seq = (a.seq + 1) % 2 ^ 32 ∧ b.valid Journal.bytes = true)) ∧
    (nvNewest Journal.bytes s.sup.sjSlots = some (true, a) → Answers .bseJournalWrite s (fun t => t.sup.sjSlots.2 = none ∧
      ∃ b, t.sup.sjSlots.1 = some b ∧ b.seq = (a.seq + 1) % 2 ^ 32 ∧ b.valid Journal.bytes = true))) ∧
  (∀ (s : State), (s.sup.st = .powerFail ∨ s.cfg = none) → Answers .impedanceSave s (fun t => t = { s with out := [], cur := none })) ∧
  (∀ (ma : Int) (mv : Nat) (temp : Int) (s : State), s.sgm.mode = .battery → 3300 ≤ mv → s.cell.info.cap ≠ 0 →
    Answers (.cellEstimate ma mv temp) s (fun t =>
      t.cell.q = (clampI ((s.cell.q : Int) + ma) 0 (s.cell.info.cap * 3600 : Nat)).toNat ∧ t.cell.info.charger = 0 ∧
      t.cell.info.cap = s.cell.info.cap ∧ t.cell.info.soc = rneDivN (t.cell.q * 10000) (s.cell.info.cap * 3600) ∧
      (t.cell.info.soc ≤ 1000 → t.cell.info.level = 2) ∧ (3100 < t.cell.info.soc → t.cell.info.level = 0) ∧
      (t.cell.q ≤ 72000 → t.cell.cut = true) ∧ t = { s with cell := t.cell, out := [], cur := none })) ∧
  (∀ (ma : Int) (mv x : Nat) (temp : Int) (s : State), s.sgm.mode = .battery → mv < 3300 → s.cell.fromFull = some x →
    Answers (.cellEstimate ma mv temp) s (fun t => t.cell.info.cap = ((x : Int) - ma).toNat / 3600 ∧ t.cell.fromFull = none ∧
      t.cell.cut = true)) ∧
  (∀ (s : State), s.siteUp = true → s.lnk.up = true → s.cell.cutMv = none →
    Answers .cellStateMessage s (fun t => t.bse.cell = s.cell.info ∧ t.bse.stale = false ∧ t.bse.strs = s.bse.strs ∧
      (s.lnk.toSt = [] → s.lnk.heldPf1 = [] → (∀ m ∈ s.lnk.inSt, CrossMsg.answer m.1 = none) → s.hqe.answers = [] → s.cell.info.level = s.bse.cell.level → t = { s with bse := { s.bse with cell := s.cell.info, stale := false }, out := [], cur := none }))) ∧
  (∀ (s : State), Answers .cellStateStale s (fun t => t = { s with bse := { s.bse with stale := true }, out := [], cur := none }))

/-! ### The Belfry -/

/-- The BLK commands (R421, R424, Table 16-7). BELFRY_STATUS returns the line record or the report queue's entries; ROUTE_READ the four
routes of a node; NODE_SEND and NODE_JOIN queue a request that completes after the node's answer, and fail with BAD_OBJECT for a node that is
not enabled, with BAD_STATE for the wrong state of the node or a line that is DOWN, with BUSY_RETRY for a second command to a node.
How many commands count as outstanding is log entry 29: the model's choice.
Each of these commands is shown to complete, that is, to answer a next state with its own effect: belfryStatus,
nodeSend, routeRead, nodeJoin. -/
def Obligations.BelfryCommands : Prop :=
  (∀ (q : Sqe) (s : State), Taken 0x78 q s → bits (sd q 6) 0 0 = 0 → 64 ≤ sd q 4 → s.blk.counts.length = 6 →
    Answers (.belfryStatus q) s (fun t => ReadOnly q 64 s.lineRecord s t ∧ u s.lineRecord 0 1 = s.blkState ∧
      u s.lineRecord 6 2 = s.blk.floor % 65536 ∧ u s.lineRecord 8 4 = s.blk.counts.getD 0 0 % 2 ^ 32 ∧
      u s.lineRecord 32 4 = s.blk.reportSeq % 2 ^ 32)) ∧
  (∀ (q : Sqe) (s : State) (b : List Byte), Taken 0x78 q s → bits (sd q 6) 0 0 = 1 → 1 ≤ bits (sd q 8) 9 0 → bits (sd q 8) 9 0 ≤ 512 →
    24 * bits (sd q 8) 9 0 ≤ sd q 4 →
    b = ((s.blk.reports.filter (fun x => decide (sd q 7 ≤ x.1))).take (bits (sd q 8) 9 0)).flatMap Prod.snd →
    Answers (.belfryStatus q) s (ReadOnly q b.length b s)) ∧
  (∀ (q : Sqe) (s : State) (n : Node), Taken 0x7A q s → 1 ≤ sd q 1 → sd q 1 ≤ 250 → 32 ≤ sd q 4 → n = s.node (sd q 1) →
    (s.nodeRec (sd q 1)).enable = true →
    Answers (.routeRead q) s (fun t => ∃ b, b.length = 32 ∧ ReadOnly q 32 b s t ∧
      (∀ i r, n.routes[i]? = some r → i < 4 → u b (8 * i) 1 = r.r1 % 256 ∧ u b (8 * i + 1) 1 = r.r2 % 256 ∧
        u b (8 * i + 2) 1 = r.hops ∧ u b (8 * i + 3) 1 = r.score % 256 ∧ u b (8 * i + 4) 4 = r.fails % 2 ^ 32) ∧
      (∀ i, n.routes.length ≤ i → i < 4 → u b (8 * i + 2) 1 = 0xFF))) ∧
  (∀ (q : Sqe) (s : State), Taken 0x79 q s → 1 ≤ sd q 1 → sd q 1 ≤ 250 → (s.nodeRec (sd q 1)).enable = true →
    ((s.node (sd q 1)).lost = false → s.blk.down = false → sd q 1 ∉ s.blk.outstanding → s.blk.outstanding.length < 16 →
      Answers (.nodeSend q) s (fun t => Running q s t ∧ t.out = [] ∧ RingsKept s t ∧
        t = { s with hqe := t.hqe, blk := { s.blk with
          queue := s.blk.queue ++ [⟨sd q 1, false, sd q 6, some (q.sq, cidOf q)⟩] }, out := [], cur := t.cur })) ∧
    (((s.node (sd q 1)).lost = true ∨ s.blk.down = true) → Answers (.nodeSend q) s (OnlyCompletes q stBAD_STATE 0 s)) ∧
    ((s.node (sd q 1)).lost = false → s.blk.down = false → (sd q 1 ∈ s.blk.outstanding ∨ 16 ≤ s.blk.outstanding.length) →
      Answers (.nodeSend q) s (OnlyCompletes q stBUSY_RETRY 0 s))) ∧
  (∀ (q : Sqe) (s : State), Taken 0x7B q s → 1 ≤ sd q 1 → sd q 1 ≤ 250 → (s.nodeRec (sd q 1)).enable = true →
    ((s.node (sd q 1)).lost = true → sd q 1 ∉ s.blk.outstanding → s.blk.outstanding.length < 16 →
      Answers (.nodeJoin q) s (fun t => Running q s t ∧ t.out = [] ∧ RingsKept s t ∧
        t = { s with hqe := t.hqe, blk := { s.blk with
          queue := s.blk.queue ++ [⟨sd q 1, true, 0, some (q.sq, cidOf q)⟩] }, out := [], cur := t.cur })) ∧
    ((s.node (sd q 1)).lost = false → Answers (.nodeJoin q) s (OnlyCompletes q stBAD_STATE 0 s))) ∧
  (∀ (q : Sqe) (s : State), 1 ≤ sd q 1 → sd q 1 ≤ 250 → (s.nodeRec (sd q 1)).enable = false →
    (Taken 0x79 q s → Answers (.nodeSend q) s (OnlyCompletes q stBAD_OBJECT 0 s)) ∧
    (Taken 0x7B q s → Answers (.nodeJoin q) s (OnlyCompletes q stBAD_OBJECT 0 s)) ∧
    (Taken 0x7A q s → 32 ≤ sd q 4 → Answers (.routeRead q) s (OnlyCompletes q stBAD_OBJECT 0 s)))

/-- Exchanges (R414 to R416, R418, R419, R422, R425). A request that is ready is sent as its frame after two silent cycles. A valid EMPTY
to the Belfry at the answer position ends the exchange and raises its route's score by the quality; a REPORT is taken once: one with the
stored toggle is not delivered again; one with more to report has its node polled again. A frame to another address is no answer. A missing
answer repeats the request on its route up to three times, and after every candidate the node is LOST. Two halves of a token with one tag are
relayed with its digits. (Where an answer begins behind repeaters, and that its check waits for that position, is read from Table 16-4: log
entry 29, DEDUCED.) -/
def Claim.BelfryExchanges : Prop :=
  (∀ (s : State) (x : Exch), s.blk.ex = some x → x.st = .ready → s.belfryRec.isSome = true → s.blk.down = false → s.sup.st = .service →
    2 ≤ s.blk.silent → (s.nodeRec x.node).enable = true →
    Answers .belfryRequest s (fun t =>
      t = { s with blk := { s.blk with ex := some { x with st := .sending, tx := s.requestBits x }, rx := [] }, out := [], cur := none } ∧
      (x.ask = .poll → x.r1 = 0 → s.requestBits x =
        [true, true, false, true] ++ bitsMsb 8 x.node ++ [false, false, false, false] ++ bitsMsb 8 (if (s.node x.node).tog then 128 else 0) ++
          bitsMsb 8 (crc8 (bitsMsb 8 x.node ++ [false, false, false, false] ++
            bitsMsb 8 (if (s.node x.node).tog then 128 else 0)))))) ∧
  (∀ (s : State), (s.belfryRec = none ∨ s.blk.down = true ∨ s.sup.st ≠ .service ∨ s.blk.silent < 2) →
    Answers .belfryRequest s (fun t => t = { s with out := [], cur := none })) ∧
  (∀ (s : State) (x : Exch) (addr type p q : Nat), s.blk.ex = some x → x.st = .waiting → s.belfryRec.isSome = true →
    x.answerAt 32 + 4 ≤ s.blk.rx.length → x.valid s.blk.rx = some ((addr, type, p), q) → 1 ≤ x.node → x.node ≤ s.blk.nodes.length →
    (s.nodeRec x.node).enable = true → (s.node x.node).lost = false → x.ask = .poll → x.cmd = none →
    (addr = 0 → type = 2 → Answers .belfryFrameRx s (fun t => t.blk.ex = none ∧ t.lnk = s.lnk ∧ t.blk.regs = t.blkRegs ∧
      t.blk.reports = s.blk.reports ∧ (t.node x.node).lost = false ∧ (t.node x.node).tog = (s.node x.node).tog ∧
      (t.node x.node).routes = (s.node x.node).routes.map (fun r => if r.r1 = x.r1 ∧ r.r2 = x.r2 then
        { r with score := (clampI ((r.score : Int) + rneDiv (16 * q - r.score) 4) 0 255).toNat } else r))) ∧
    (addr = 0 → type = 1 → bit p 63 = (s.node x.node).tog →
      Answers .belfryFrameRx s (fun t => t.blk.ex = none ∧ t.lnk = s.lnk ∧ t.blk.reports = s.blk.reports ∧
        t.blk.queue = s.blk.queue ∧ (t.node x.node).tog = (s.node x.node).tog ∧ (t.node x.node).hi = (s.node x.node).hi ∧
        (bit p 62 = true → x.node ∈ t.blk.again))) ∧
    (addr = 0 → type = 1 → bit p 63 ≠ (s.node x.node).tog → 0x10 ≤ bits p 61 56 →
      Answers .belfryFrameRx s (fun t => t.blk.ex = none ∧ (t.node x.node).tog = bit p 63 ∧
        t.blk.reportSeq = (s.blk.reportSeq + 1) % 2 ^ 32 ∧
        (∃ e, t.blk.reports.getLast? = some (t.blk.reportSeq, e) ∧ u e 4 1 = x.node % 256 ∧ u e 5 1 = bits p 61 56))) ∧
    (addr = 0 → type = 1 → bit p 63 ≠ (s.node x.node).tog → bits p 61 56 = 2 → s.lnk.up = true →
      ∀ tag v, (s.node x.node).hi = some (tag, v) → tag = bits p 55 52 →
      Answers .belfryFrameRx s (fun t => t.blk.ex = none ∧ (t.node x.node).hi = none ∧ (t.node x.node).tog = bit p 63 ∧
        t.lnk.toSg = s.lnk.toSg ++ [(.token x.node (tokenDigits (v * 2 ^ 32 + bits p 31 0)), 0, s.sup.uptime)])) ∧
    (addr ≠ 0 → x.probe = false → x.tries < 3 → Answers .belfryFrameRx s (fun t =>
      t.blk.ex = some { x with tries := x.tries + 1, st := .ready, tx := [] } ∧ t.blk.reports = s.blk.reports ∧ t.lnk = s.lnk))) ∧
  (∀ (s : State) (x : Exch), s.blk.ex = some x → x.st = .waiting → s.belfryRec.isSome = true → x.probe = false → 1 ≤ x.node →
    x.node ≤ s.blk.nodes.length → (s.nodeRec x.node).enable = true → x.answerAt 88 + 4 ≤ s.blk.rx.length →
    x.preamble s.blk.rx = false →
    (x.tries < 3 → Answers .answerTimeout s (fun t => t.blk.ex = some { x with tries := x.tries + 1, st := .ready, tx := [] } ∧
      (t.node x.node).lost = (s.node x.node).lost ∧ t.blk.queue = s.blk.queue ∧ t.lnk = s.lnk)) ∧
    (3 ≤ x.tries → x.ask ≠ .join → x.cmd = none → (s.node x.node).lost = false →
      (∀ r ∈ (s.node x.node).routes, (r.r1, r.r2) ∈ x.tried) → Answers .answerTimeout s (fun t => t.blk.ex = none ∧
        (t.node x.node).lost = true ∧ t.blk.lastEvent = some (x.node % 256, 2, x.tried.length % 256) ∧ t.lnk = s.lnk))) ∧
  (∀ (s : State) (x : Exch), s.blk.ex = some x → (s.blk.rx.length < x.answerAt 88 + 4 ∨ x.preamble s.blk.rx = true) →
    Answers .answerTimeout s (fun t => t = { s with out := [], cur := none }))

/-- The line (R409 to R413, R425). An edge within 100 µs of the last one does not pass the deglitcher. A cycle is judged from its two slots in
the order of R413. A predicted crossing counts as missed once it is 200 µs late; the third bad edge in a row puts the line DOWN. A falling
crossing judges slot F, where its 32 samples stand in the record of the samples. A rising crossing puts the next bit of a request being sent
on the line and gives the registers the values of the cycle's end. (That the slot's first sample is judged by the floor as it stands when it
comes, and that the prediction goes on behind a missed crossing, is log entry 29: DEDUCED.) -/
def Claim.BelfryLine : Prop :=
  (∀ (floor : Nat) (f r : Bell),
    ((f.blanked = true ∨ r.blanked = true) → judgeCycle floor f r = .erasure) ∧
    (f.blanked = false → r.blanked = false → f.energy < 512 * floor ^ 2 → r.energy < 512 * floor ^ 2 →
      judgeCycle floor f r = .silent) ∧
    (f.blanked = false → r.blanked = false → (512 * floor ^ 2 ≤ f.energy ∨ 512 * floor ^ 2 ≤ r.energy) →
      (4 * r.energy ≤ f.energy → r.energy < f.energy → ∃ q, q ≤ 15 ∧ judgeCycle floor f r = .bit true q) ∧
      (4 * f.energy ≤ r.energy → f.energy < r.energy → ∃ q, q ≤ 15 ∧ judgeCycle floor f r = .bit false q) ∧
      (f.energy < 4 * r.energy → r.energy < 4 * f.energy → judgeCycle floor f r = .erasure))) ∧
  (∀ (s : State) (e : Edge) (p : Nat), s.belfryRec.isSome = true → e = (if s.blk.next then s.blk.rise else s.blk.fall) →
    e.predict = some p →
    (p + 200 < s.sup.uptime → Answers .zeroCrossingMissed s (fun t => t.blk.next = !s.blk.next ∧
      (if s.blk.next then t.blk.rise else t.blk.fall) = { e with due := e.due + 1 } ∧
      (s.blk.bad + 1 < 3 → t.blk.bad = s.blk.bad + 1 ∧ (s.blk.down = false → t.blk.down = false)) ∧
      (2 ≤ s.blk.bad → s.blk.down = false → t.blk.down = true ∧ t.blk.bad = s.blk.bad + 1))) ∧
    (s.sup.uptime ≤ p + 200 → Answers .zeroCrossingMissed s (fun t => t = { s with out := [], cur := none }))) ∧
  (∀ (s : State) (z : ZeroCross), s.belfryRec.isSome = true →
    (s.blk.level = some z.rising ∨ s.blk.level.isSome = true ∧ s.sup.uptime < s.blk.edgeAt + 100) →
    Answers (.zeroCrossing z) s (fun t => t = { s with out := [], cur := none })) ∧
  (∀ (s : State) (z : ZeroCross) (r : BelfryRec), s.belfryRec = some r → z.rising = false →
    (s.blk.level = none ∨ s.blk.level = some true ∧ s.blk.edgeAt + 100 ≤ s.sup.uptime) →
    Answers (.zeroCrossing z) s (fun t => t.blk.level = some false ∧ t.blk.edgeAt = s.sup.uptime ∧
      t.blk.fall.last = some s.sup.uptime ∧ t.blk.fall.due = 0 ∧ t.blk.rise = s.blk.rise ∧
      (s.blk.fall = ⟨none, 0, []⟩ → t.blk.next = true ∧ t.blk.bad = 0 ∧ (slotCut z = none → t.blk.slotF = none) ∧
        (∀ pre slot post, slotCut z = some (pre, slot, post) → slot.length = 32 ∧ pre ++ slot ++ post = z.codes ∧
          ((sampleOf (slot.headD 2048)).natAbs ≤ r.blankK * pre.foldl floorStep s.blk.floor →
            t.blk.slotF = some (judgeBell false (r.blankK * pre.foldl floorStep s.blk.floor) slot)))))) ∧
  (∀ (s : State) (z : ZeroCross) (r : BelfryRec) (x : Exch) (d : Bool) (l : List Bool), s.belfryRec = some r → z.rising = true →
    (s.blk.level = none ∨ s.blk.level = some false ∧ s.blk.edgeAt + 100 ≤ s.sup.uptime) → s.blk.rise.due = 0 →
    s.blk.ex = some x → x.st = .sending → x.tx = d :: l → s.blk.mine = true → s.sup.st = .service → s.blk.down = false →
    Answers (.zeroCrossing z) s (fun t => t.blk.rise.last = some s.sup.uptime ∧ t.blk.next = false ∧ t.blk.regs = t.blkRegs ∧
      (t.blk.down = false → .bell d ∈ t.out ∧ t.blk.ex = some { x with tx := l } ∧ t.blk.mine = true)))

/-! ### The event recorder -/

/-- The EVR commands (R436, R441, R443). WINDOW_READ returns the first records held at or after its cursor that match its filter, behind a
32-byte header; with none held there it completes with DONE_NOTE 0; a tile that fails its check is retired and the command completes with
TILE_CHECK and the index. Unless LIVE is 1 the window's two fences are equal. RECORDER_STATUS returns 64 bytes of status or 3,072 bytes of
extremes, and knows no other kind. (How far the areas are loaded while EVR restores is an open value of log entry 30: the model's choice.)
Each of these commands is shown to complete, that is, to answer a next state with its own effect: windowRead,
recorderStatus. -/
def Obligations.RecorderCommands : Prop :=
  (∀ (q : Sqe) (bad : List Nat) (s : State) (n : Nat) (at_ l : List (Nat × List Byte)), Taken 0x80 q s → bits (sd q 7) 4 0 = n → 1 ≤ n →
    n ≤ 16 → 32 + 256 * n ≤ sd q 4 → bits (sd q 7) 7 5 = 0 → (bits (sd q 7) 15 8 < 128 ∨ bits (sd q 7) 15 8 = 0xFF) →
    bits (sd q 7) 31 16 = 0 → (s.hqe.fwd.filter (fun w => w.op == 0x80)).length < 16 →
    at_ = s.heldRecords.filter (fun x => decide (sd q 6 ≤ x.1)) →
    l = (at_.filter (fun x => bits (sd q 7) 15 8 == 0xFF || u x.2 4 1 == bits (sd q 7) 15 8)).take n →
    (at_ ≠ [] → (∀ x ∈ l, recordTile x.1 ∉ bad) → 0x0660 ∉ bad → Answers (.windowRead q bad) s (fun t => ∃ head, head.length = 32 ∧
      Completed q stDONE l.length s t ∧ Returned q (head ++ l.flatMap Prod.snd) t ∧ RingsKept s t ∧
      t = { s with hqe := t.hqe, free := t.free, out := t.out, cur := t.cur } ∧ u head 20 1 = l.length ∧
      u head 12 4 = s.evr.newest % 2 ^ 32 ∧ (bit (u head 21 1) 0 = false → u head 8 4 = u head 12 4) ∧
      bit (u head 21 1) 0 = (s.evr.restoring || !s.evr.refill.isEmpty || s.evr.testing))) ∧
    (at_ = [] → Answers (.windowRead q bad) s (OnlyCompletes q stDONE_NOTE 0 s)) ∧
    (∀ x r, l = x :: r → recordTile x.1 ∈ bad → Answers (.windowRead q bad) s (fun t =>
      Completed q stTILE_CHECK (recordTile x.1) s t ∧ t.out.all (fun o => match o with | .hostWrite _ _ _ => false | _ => true) = true ∧
      (recordTile x.1 ∉ t.tmf.oos → recordTile x.1 ∈ t.evr.refill) ∧ t.evr.flash = s.evr.flash))) ∧
  (∀ (q : Sqe) (s : State), Taken 0x81 q s → sd q 6 = 0 → 64 ≤ sd q 4 → Answers (.recorderStatus q) s (fun t =>
    ∃ b, b.length = 64 ∧ ReadOnly q 64 b s t ∧ u b 4 4 = s.evr.newest % 2 ^ 32 ∧ u b 16 4 = s.evr.defers % 2 ^ 32 ∧
      u b 20 4 = s.evr.lost % 2 ^ 32 ∧ u b 24 4 = s.evr.queue.length % 2 ^ 32 ∧
      u b 0 1 = (if s.evr.degraded.isSome then 2 else if s.quantsOn = 0 then 0 else 1))) ∧
  (∀ (q : Sqe) (s : State), Taken 0x81 q s → 2 ≤ sd q 6 → 3072 ≤ sd q 4 →
    Answers (.recorderStatus q) s (OnlyCompletes q stBAD_PARAM (badField 6 0) s)) ∧
  (∀ (q : Sqe) (s : State), Taken 0x81 q s → sd q 6 = 1 → 3072 ≤ sd q 4 → Answers (.recorderStatus q) s (fun t =>
    ∃ b, b.length = 3072 ∧ ReadOnly q 3072 b s t ∧ (∀ i, i < 128 → u b (24 * i + 8) 8 = (s.extremesOf i).tMin % 2 ^ 64)))

/-- Samples (R427, R429, R432). A sample enters the live half: its count, sum, one bin and the extremes, an equalled extreme keeping its first
instant; a value below the lowest edge or above the highest is counted in an edge bin. Without a value the missing count rises, and without
a live half LOST_COUNT, and while DEGRADED the extremes take it. -/
def Claim.RecorderSamples : Prop :=
  (∀ (i : Nat) (x : Int) (h : Half) (s : State), s.siteUp = true → i < 128 → i < s.evr.qs.length → (s.conf.quant i).enable = true →
    s.sourceValue (s.conf.quant i) = some x → (s.quant i).live = some h → h.bins.length = 32 → 0 < h.cfg.width →
    Answers (.evrSample i) s (fun t => ∃ h', (t.quant i).live = some h' ∧ h'.count = h.count + 1 ∧
      h'.sum = satS64 (h.sum + x) ∧ h'.missing = h.missing ∧ h'.start = h.start ∧
      (∀ b, b = (if x < h.cfg.lo + h.cfg.width then 0 else if h.cfg.lo + 31 * h.cfg.width ≤ x then 31
          else ((x - h.cfg.lo) / h.cfg.width).toNat) →
        h'.bins.getD b 0 = min (h.bins.getD b 0 + 1) 0xFFFFFFFF ∧ (∀ c, c ≠ b → h'.bins.getD c 0 = h.bins.getD c 0)) ∧
      (h.count ≠ 0 → h.min ≤ x → h'.min = h.min ∧ h'.tMin = h.tMin) ∧ ((h.count = 0 ∨ x < h.min) → h'.min = x ∧ h'.tMin = s.evrNow.1) ∧
      (h.count ≠ 0 → x ≤ h.max → h'.max = h.max ∧ h'.tMax = h.tMax) ∧ ((h.count = 0 ∨ h.max < x) → h'.max = x ∧ h'.tMax = s.evrNow.1) ∧
      (∀ j, j ≠ i → t.quant j = s.quant j) ∧
      t = { s with evr := { s.evr with qs := t.evr.qs }, out := [], cur := none })) ∧
  (∀ (i : Nat) (h : Half) (s : State), s.siteUp = true → i < 128 → i < s.evr.qs.length → (s.conf.quant i).enable = true →
    s.sourceValue (s.conf.quant i) = none → (s.quant i).live = some h →
    Answers (.evrSample i) s (fun t => (t.quant i).live = some { h with missing := min (h.missing + 1) 0xFFFFFFFF } ∧
      (∀ j, j ≠ i → t.quant j = s.quant j) ∧ t.evr.lost = s.evr.lost)) ∧
  (∀ (i : Nat) (x : Int) (s : State), s.siteUp = true → i < 128 → (s.conf.quant i).enable = true →
    s.sourceValue (s.conf.quant i) = some x → (s.quant i).live = none → s.evr.degraded = none →
    Answers (.evrSample i) s (fun t =>
      t = { s with evr := { s.evr with lost := min (s.evr.lost + 1) 0xFFFFFFFF }, out := [], cur := none })) ∧
  (∀ (i : Nat) (x : Int) (s : State), s.siteUp = true → i < 128 → i < s.evr.qs.length → (s.conf.quant i).enable = true →
    s.sourceValue (s.conf.quant i) = some x → (s.quant i).live = none → s.evr.degraded.isSome = true →
    Answers (.evrSample i) s (fun t => t.evr.lost = min (s.evr.lost + 1) 0xFFFFFFFF ∧
      ((s.quant i).ext = Ext.none → (t.quant i).ext = ⟨x, x, s.evrNow.1, s.evrNow.1⟩) ∧ (∀ j, j ≠ i → t.quant j = s.quant j)))

/-- Closes, records and the recorder's own failures (R428, R430, R431, R434, R435, R437 to R439, R441, R442). At a multiple of its period
a close freezes the live half and a new one becomes live; while the frozen half is unwritten the close is deferred and loses nothing. At any
other time there is no close. The next queued record takes the next seq and goes to its tile; when its page is programmed the write is
complete and a deferred close takes place. The restoration skips torn pages, continues above the highest seq and queues the interrupted
records; the eighth retired index degrades EVR at once. (When the sector of the next tile is erased, and that a commit's close of a
half whose other is unwritten waits as a half of its own, is log entry 30: DEDUCED.) -/
def Claim.RecorderWrites : Prop :=
  (∀ (q : Quant) (h : Half) (now b : Nat), q.live = some h → q.closeDue now = some b →
    b % (h.cfg.period * 60000000) = 0 ∧ h.start < b ∧ b ≤ now ∧ now < b + 2) ∧
  (∀ (i b : Nat) (h : Half) (s : State), s.siteUp = true → i < s.evr.qs.length → (s.quant i).live = some h →
    (s.quant i).closeDue s.evrNow.1 = some b →
    (s.evr.frozen i = false → Answers (.evrPeriodClose i) s (fun t =>
      (t.quant i).live = some (Half.new (s.conf.quant i) b s.evrNow.2 false) ∧ (t.quant i).pend = none ∧
      (∃ c ∈ t.evr.queue, c.q = i ∧ c.h = h ∧ c.end_ = b ∧ c.half = true ∧ bit c.flags 0 = false ∧
        t.evr.queue.length = s.evr.queue.length + 1 ∧
        ((∀ d ∈ s.evr.queue, d.end_ = b → d.q ≤ i) → t.evr.queue = s.evr.queue ++ [c])) ∧
      (∀ j, j ≠ i → t.quant j = s.quant j) ∧ t.evr.defers = s.evr.defers ∧ t.evr.lost = s.evr.lost)) ∧
    (s.evr.frozen i = true → Answers (.evrPeriodClose i) s (fun t => (t.quant i).live = some h ∧ (t.quant i).pend = some b ∧
      t.evr.queue = s.evr.queue ∧ t.evr.defers = min (s.evr.defers + 1) 0xFFFFFFFF ∧ t.evr.lost = s.evr.lost))) ∧
  (∀ (i : Nat) (s : State), (s.quant i).closeDue s.evrNow.1 = none →
    Answers (.evrPeriodClose i) s (fun t => t = { s with out := [], cur := none })) ∧
  (∀ (c : Closed) (rest : List Closed) (s : State), s.evr.queue = c :: rest → s.siteUp = true → s.evr.degraded = none →
    s.evr.restoring = false → s.evr.writing = none → s.sup.staging = none →
    recordTile s.evr.next ∉ s.evr.refill →
    Answers (.recordWrite false) s (fun t => (∃ b, t.evr.writing = some (s.evr.next, b) ∧ b.length = 256 ∧
        u b 0 4 = s.evr.next % 2 ^ 32 ∧ u b 4 1 = c.q % 256 ∧ u b 24 4 = c.h.count % 2 ^ 32 ∧ u b 252 4 = crc32c (b.take 252) % 2 ^ 32) ∧
      t.evr.newest = s.evr.next ∧ t.evr.next = s.evr.next + 1 ∧ t.evr.queue = s.evr.queue ∧ t.evr.flash = s.evr.flash) ∧
    (recordTile s.evr.next ∉ s.tmf.oos → Answers (.recordWrite true) s (fun t => t.evr.writing = none ∧ t.evr.next = s.evr.next ∧
      t.evr.flash = s.evr.flash ∧ (recordTile s.evr.next ∉ t.tmf.oos → recordTile s.evr.next ∈ t.evr.refill) ∧
      (s.evr.retired < 7 → t.evr.queue = s.evr.queue ∧ t.evr.degraded = none ∧ t.evr.qs = s.evr.qs) ∧
      (7 ≤ s.evr.retired → t.evr.degraded = some s.sTime ∧ t.evr.queue = [] ∧ (∀ x ∈ t.evr.qs, x.live = none))))) ∧
  (∀ (s : State), s.sup.staging.isSome = true → Answers (.recordWrite false) s (fun t => t = { s with out := [], cur := none })) ∧
  (∀ n, (n < 512 → 0x0440 ≤ recordTile n ∧ recordTile n ≤ 0x045F) ∧ (512 ≤ n → 0x0460 ≤ recordTile n ∧ recordTile n ≤ 0x065F)) ∧
  (∀ (r : Nat × List Byte) (c : Closed) (rest : List Closed) (s : State), s.evr.writing = some r → s.evr.queue = c :: rest →
    c.q < s.evr.qs.length →
    Answers .recordWriteDone s (fun t => t.evr.writing = none ∧ t.evr.flash.getLast? = some r ∧ t.evr.held.getLast? = some r ∧
      (∀ x ∈ s.evr.flash, x.1 < 512 → x.1 ≤ r.1 → x ∈ t.evr.flash) ∧
      (r.1 % 16 = 0 → ∀ x ∈ t.evr.flash, x = r ∨ recordTile x.1 ≠ recordTile (r.1 + 16)) ∧
      ((s.quant c.q).pend = none → (s.quant c.q).late = none → t.evr.queue = rest) ∧
      (∀ h b, (s.quant c.q).pend = some b → (s.quant c.q).late = none → (s.quant c.q).live = some h → (∀ d ∈ rest, d.q ≠ c.q) →
        (∀ d ∈ rest, d.end_ = s.evrNow.1 → d.q ≤ c.q) →
        (∃ d, t.evr.queue = rest ++ [d] ∧ d.q = c.q ∧ d.h = h ∧ bit d.flags 0 = true ∧ d.end_ = s.evrNow.1) ∧
        (t.quant c.q).pend = none ∧
        (t.quant c.q).live = some (Half.new (s.conf.quant c.q) s.evrNow.1 s.evrNow.2 true)) ∧
      (∀ h, (s.quant c.q).late = some (h, 32) → (∀ d ∈ rest, d.q ≠ c.q) → (∀ d ∈ rest, d.end_ = s.evrNow.1 → d.q ≤ c.q) →
        (∃ d, t.evr.queue = rest ++ [d] ∧ d.q = c.q ∧ d.h = h ∧ bit d.flags 0 = true ∧ bit d.flags 5 = true) ∧
        (t.quant c.q).late = none))) ∧
  (∀ (torn : List Nat) (s : State), s.evr.restoring = true → s.evr.testing = false → s.tmf.ready = true →
    Answers (.evrRestoreDone torn) s (fun t => t.evr.restoring = false ∧ t.evr.torn = none ∧ t.evr.held = t.evr.flash ∧
      t.evr.flash = (s.evr.flash ++ s.evr.torn.toList).filter (fun x => !torn.contains x.1) ∧
      (∀ x, t.evr.flash.getLast? = some x → t.evr.next = x.1 + 1) ∧ (t.evr.flash = [] → t.evr.next = 0) ∧
      (s.evr.degraded = none → s.evr.cutOff = [] → t.evr.queue = s.evr.intr ++ s.evr.queue) ∧
      (s.evr.degraded = none → ∀ x ∈ s.evr.cutOff, ∃ c ∈ t.evr.queue, c.q = x.1 ∧ c.h.cfg = x.2 ∧ c.h.count = 0 ∧
        c.h.min = noExtreme ∧ c.end_ = s.evrNow.1 ∧ bit c.flags 2 = true) ∧
      t.evr.intr = [] ∧ t.evr.cutOff = [] ∧ t = { s with evr := t.evr, sup := t.sup, out := [], cur := none })) ∧
  (∀ (idx : Nat) (s : State), idx ∈ s.evr.refill →
    Answers (.evrRefillDone idx) s (fun t => idx ∉ t.evr.refill ∧ t.evr.flash = s.evr.flash ∧ t.evr.degraded = s.evr.degraded ∧
      t.evr.queue = s.evr.queue ∧ t.evr.qs = s.evr.qs ∧ t.evr.lastEvent = some (255, 0x11, idx % 256) ∧
      (∀ x ∈ s.evr.flash, recordTile x.1 = idx → x ∈ t.evr.held))) ∧
  (∀ (s : State), s.evr.degraded.isSome = true →
    (s.sup.holdupReady = true → Answers .degradedExtremesSave s (fun t =>
      t = { s with evr := { s.evr with extSaved := s.evr.qs.map Quant.ext, extNext := none }, out := [], cur := none })) ∧
    (s.sup.holdupReady = false → Answers .degradedExtremesSave s (fun t =>
      t = { s with evr := { s.evr with extNext := some (s.evr.qs.map Quant.ext) }, out := [], cur := none })))

/-! ### The supervisor -/

/-- S-time and the fault journal (R508, R509). A STEP sets S-time and ends a slew; a SLEW of at most 1 s runs for 2,000 µs for each
microsecond of difference and completes with 1; a longer one, or one with S-time unknown, completes with BAD_STATE. SLEW_END brings the rest
at once. (That the rest comes at once, at SLEW_END, is log entry 33: the model's choice.) JOURNAL_READ returns the records from the first asked for on, behind a 32-byte header. -/
def Claim.TimeAndJournal : Prop :=
  (∀ (q : Sqe) (s : State), Taken 0x90 q s → sd64 q 6 ≠ 0xFFFFFFFFFFFFFFFF → sd q 8 = 0 →
    Answers (.timeSet q) s (fun t => Completed q stDONE 0 s t ∧ RingsKept s t ∧ t.out = [] ∧
      t = { s with hqe := t.hqe, sup := { s.sup with stime := some (sd64 q 6), slew := none }, evr := t.evr, out := t.out, cur := t.cur })) ∧
  (∀ (q : Sqe) (s : State) (now d : Nat), Taken 0x90 q s → sd64 q 6 ≠ 0xFFFFFFFFFFFFFFFF → sd q 8 = 1 → s.sup.stime = some now →
    d = max (sd64 q 6) now - min (sd64 q 6) now →
    (d ≤ 1000000 → Answers (.timeSet q) s (fun t => Completed q stDONE 1 s t ∧ RingsKept s t ∧ t.out = [] ∧
      t = { s with hqe := t.hqe, sup := { s.sup with slew := some ⟨decide (now < sd64 q 6), 2000 * d⟩ }, out := t.out, cur := t.cur })) ∧
    (1000000 < d → Answers (.timeSet q) s (OnlyCompletes q stBAD_STATE 0 s))) ∧
  (∀ (q : Sqe) (s : State), Taken 0x90 q s → sd64 q 6 ≠ 0xFFFFFFFFFFFFFFFF → sd q 8 = 1 → s.sup.stime = none →
    Answers (.timeSet q) s (OnlyCompletes q stBAD_STATE 0 s)) ∧
  (∀ (s : State) (now : Nat) (w : Slew), s.sup.stime = some now → s.sup.slew = some w → Answers .slewEnd s (fun t => OnlySup s t ∧
    t.sup = { s.sup with slew := none, stime := some (if w.fast then now + (w.left + 1999) / 2000 else now - (w.left + 1999) / 2000) })) ∧
  (∀ (q : Sqe) (s : State) (n : Nat) (l : List FaultRec), Taken 0x91 q s → n = bits (sd q 7) 10 0 → 1 ≤ n → n ≤ 1024 →
    32 + 32 * n ≤ sd q 4 → l = (s.sup.journal.filter (fun r => decide (sd q 6 ≤ r.seq))).take n →
    (∀ r, l.head? = some r → Answers (.journalRead q) s (fun t => ∃ head, head.length = 32 ∧
      ReadOnly q l.length (head ++ l.flatMap FaultRec.bytes) s t ∧ u head 0 8 = s.sTime % 2 ^ 64 ∧ u head 8 4 = r.seq % 2 ^ 32 ∧
      u head 12 4 = l.length ∧ u head 20 4 = s.sup.journalSeq % 2 ^ 32)) ∧
    (l = [] → Answers (.journalRead q) s (fun t => ∃ head, head.length = 32 ∧ Completed q stDONE_NOTE 0 s t ∧ Returned q head t ∧
      RingsKept s t ∧ u head 12 4 = 0 ∧ t = { s with hqe := t.hqe, out := t.out, cur := t.cur })))

/-- Ship mode and the ordered reset (R71 to R73, R510). SHIP_ENTER enters SHIP_PENDING for 60 s with every load switch ordered off and every
port's energy withdrawn; MAIN_12V lasting longer ends it with record 0x0008; a power-fail in it is not held up, and S-time becomes
unknown, and a Saggar that runs on its cell with its authorisation enters ship state at once. DEVICE_RESET orders a reset with its record,
which then takes place with cause 2; neither changes the Saggar. (That the charger is stopped through the link, what a ship mode ended by a
commit or a reset leaves, and what the journal of SHIP_ENTER holds are log entry 12: the model's choice.) -/
def Claim.ShipAndReset : Prop :=
  (∀ (q : Sqe) (s : State), Taken 0x93 q s → s.lsw.chans.length = 24 → Answers (.shipEnter q) s (fun t => Finished q stDONE 0 t ∧
    t.sup.st = .shipPending ∧ t.sup.shipFrom = some s.sup.st ∧ t.sup.shipLeft = 60000000 ∧ t.sup.prev = s.sup.st.code ∧
    (∀ n, (t.ch n).order = 0) ∧ (∀ n, (t.prt n).energy = false ∧ (t.prt n).pinMode = (if (s.prt n).pinMode = 3 then 3 else 0)) ∧
    (s.lnk.up = true → t.cell.stopped = true) ∧
    (s.sup.holdupReady = true → t.sup.sjNext = none ∧ t.sup.sj.sessions = s.sup.sessionCtr) ∧
    t.cfg = s.cfg ∧ t.spa.ledger = s.spa.ledger ∧ t.kce = s.kce ∧ t.sgm = s.sgm ∧ t.bte = s.bte ∧ t.mss = s.mss)) ∧
  (∀ (s : State) (st : DevState), s.sup.shipFrom = some st → s.sup.holdupReady = true → st ≠ s.sup.st →
    Answers .shipCancel s (fun t =>
      t.sup.st = st ∧ t.sup.shipFrom = none ∧ t.sup.lastEvent = some (7, 255, 0x05, 0) ∧
      (∃ r ∈ t.sup.journal, r.code = 0x0008) ∧ t.cfg = s.cfg ∧ t.kce = s.kce ∧ t.mss = s.mss)) ∧
  (∀ (q : Sqe) (s : State), Taken 0x97 q s → sd q 6 = 0x6416 → s.exclusive = false → s.sup.staging = none → s.sup.holdupReady = true →
    Answers (.deviceReset q) s (fun t => Completed q stDONE 0 s t ∧ RingsKept s t ∧ t.out = [] ∧
      (∃ r, t.sup.journal.getLast? = some r ∧ r.code = 0x0003 ∧ r.seq = (s.sup.journalSeq + 1) % 2 ^ 32) ∧
      t = { s with hqe := t.hqe, sup := { s.sup with
        journal := t.sup.journal, journalSeq := (s.sup.journalSeq + 1) % 2 ^ 32, resetOrdered := true }, out := t.out, cur := t.cur })) ∧
  (∀ (q : Sqe) (s : State), Taken 0x97 q s → sd q 6 = 0x6416 → (s.exclusive = true ∨ s.sup.staging.isSome = true) →
    Answers (.deviceReset q) s (OnlyCompletes q stBUSY_RETRY 0 s)) ∧
  (∀ (q : Sqe) (s : State), Taken 0x97 q s → sd q 6 ≠ 0x6416 → Answers (.deviceReset q) s (OnlyCompletes q stBAD_PARAM 6 s)) ∧
  (∀ (s : State), s.sup.resetOrdered = true → s.mainRuns = true → s.sup.staging = none → Answers .deviceResetOrder s (fun t =>
    IslandsAtReset 0 t ∧ SaggarUnasked s t ∧ t.sup.st = .boot ∧ t.sup.lastReset = 2 ∧ t.sup.resets = (s.sup.resets + 1) % 2 ^ 32 ∧
    t.sup.bootSlot = s.sup.bootTarget ∧ t.sup.uptime = 0 ∧ t.sup.resetOrdered = false ∧ t.sup.stime = s.sup.stime ∧
    t.sup.configId = 0)) ∧
  (∀ (s : State), s.sup.powered % 128 ≠ 0 → s.sup.st = .shipPending → s.sup.commit = none → Answers .powerFail s (fun t =>
    IslandsAtReset 3 t ∧ t.sup.stime = none ∧ t.sup.journal = s.sup.journal ∧ t.sup.stateJournalSeq = s.sup.stateJournalSeq ∧
    t.sup.sessionCtr = s.sup.sj.sessions ∧ t.bte = s.bte ∧ t.cell = s.cell ∧
    ((s.sgm.mode ≠ .battery ∨ s.mss.shipAuth = none) →
      t.sgm = { s.sgm with shipOrder := true } ∧ t.mss = { s.mss with waiting := [] }) ∧
    (s.sgm.mode = .battery → s.mss.shipAuth.isSome = true → t.sgm.mode = .ship ∧ t.sgm.rails = (false, false) ∧
      t.sgm.mclk = [0, 0, 0, 0] ∧ t.sgm.shipStart = s.bte.lTime ∧ t.sgm.batSince = some s.bte.up ∧ t.mss.shipAuth = none ∧
      t.sgm.acc = s.sgm.acc)))

/-! ### Power, start-up and the watchdog -/

/-- Power (R45, R50, R54, R491). POWER_GOOD needs more than 10.8 V and a main die that is off; it powers the die, counts a reset and clears
uptime. A power-fail takes the islands to reset and leaves the Saggar and the Spire's time alone, with record 0x0001 once the hold-up is
available. With the hold-up ready the waiting records are written; when it runs out S-time is unknown. (What waits for the hold-up, and that the Spire's
marks in NVM wait with it, is log entries 12 and 31: the model's choice.) -/
def Claim.Power : Prop :=
  (∀ (mv : Nat) (s : State), s.sup.powered % 128 = 0 → 10800 < mv → Answers (.powerGood mv) s (fun t =>
    t.sup.powered = 0x17F ∧ t.sup.main12v = mv ∧ t.sup.st = .boot ∧ t.sup.uptime = 0 ∧ t.sup.resets = (s.sup.resets + 1) % 2 ^ 32 ∧
    t.sup.bootSlot = s.sup.bootTarget ∧ t.sup.lastReset = (if s.sup.st = .powerFail then 3 else 0) ∧ t.sup.stime = s.sup.stime ∧
    t.sup.marksOld = some s.sup.marks ∧ NoCommandMoved s t ∧ t.cfg = s.cfg ∧ t.lsw = s.lsw ∧ t.evr = s.evr ∧
    (s.sgm.mode ≠ .ship → t.sgm = { s.sgm with shipOrder := false } ∧ t.bte = s.bte ∧ t.mss = s.mss ∧ t.cell = { s.cell with stopped := false }))) ∧
  (∀ (mv : Nat) (s : State), (s.sup.powered % 128 ≠ 0 ∨ mv ≤ 10800) →
    Answers (.powerGood mv) s (fun t => t = { s with out := [], cur := none })) ∧
  (∀ (s : State), s.sup.powered % 128 ≠ 0 → s.sup.st ≠ .shipPending → s.sup.holdupReady = true → s.sup.commit = none →
    s.sup.staging = none → Answers .powerFail s (fun t =>
    IslandsAtReset 3 t ∧ SaggarUnasked s t ∧ t.sup.st = .powerFail ∧ t.sup.powered = 0x100 ∧ t.sup.main12v < 10200 ∧ t.sup.charge ≤ 100 ∧
    t.sup.stime = s.sup.stime ∧ t.sup.slotA = s.sup.slotA ∧ t.sup.slotB = s.sup.slotB ∧ t.sup.bisqueImage = s.sup.bisqueImage ∧
    (∃ r, t.sup.journal.getLast? = some r ∧ r.code = 0x0001 ∧ r.arg0 = s.sup.uptime / 1000000) ∧ t.sup.sj.sessions = s.sup.sessionCtr ∧
    t.sup.holdupReady = false)) ∧
  (∀ (s : State) (m : NvMarks), s.sup.powered % 128 ≠ 0 → s.sup.holdupReady = false → s.sup.marksOld = some m → s.sup.commit = none →
    s.sup.staging = none → Answers .powerFail s (fun t => t.sup.slotA = m.slotA ∧ t.sup.slotB = m.slotB ∧ t.sup.resets = m.resets ∧
      t.sup.bisqueImage = m.bisqueImage ∧ t.sup.saggarSerial = m.saggarSerial ∧ t.sup.journal = s.sup.journal)) ∧
  (∀ (s : State), s.sup.powered % 128 = 0 → Answers .powerFail s (fun t => t = { s with out := [], cur := none })) ∧
  (∀ (s : State), s.sup.powered % 128 ≠ 0 → s.sup.holdupReady = false → Answers .holdupReady s (fun t =>
    t.sup.holdupReady = true ∧ t.sup.deferred = [] ∧ t.sup.sj = s.sup.sjNext.getD s.sup.sj ∧
    t.sup.imps = s.sup.impsNext.getD s.sup.imps ∧ t.sup.ret = s.sup.retNext.getD s.sup.ret ∧
    t.sup.sjNext = none ∧ t.sup.impsNext = none ∧ t.sup.retNext = none ∧ t.sup.sjWait = [] ∧
    t.sup.marksOld = none ∧ t.sup.slotA = s.sup.slotA ∧ t.sup.slotB = s.sup.slotB ∧
    t.evr = { s.evr with extSaved := s.evr.extNext.getD s.evr.extSaved, extNext := none } ∧
    (s.sup.deferred ≠ [] → t.sup.journalSeq = (s.sup.journalSeq + s.sup.deferred.length) % 2 ^ 32) ∧
    (s.sup.deferred = [] → t.sup.journal = s.sup.journal) ∧ SaggarKept s t)) ∧
  (∀ (s : State), s.sup.powered % 128 ≠ 0 → Answers .reserveReady s (fun t => OnlySup s t ∧ t.sup = { s.sup with reserveReady := true })) ∧
  (∀ (s : State), s.sup.powered % 128 = 0 → Answers .holdupRunOut s (fun t => t.sup.stime = none ∧ t.sup.uptime = 0 ∧
    t.sup.sessionCtr = s.sup.sj.sessions ∧ t.sup.journal = s.sup.journal ∧ t.sup.slotA = s.sup.slotA ∧ t.sup.slotB = s.sup.slotB ∧ t.sup.bisqueImage = s.sup.bisqueImage ∧
    SaggarKept s t)) ∧
  (∀ (s : State), s.sup.powered % 128 ≠ 0 → Answers .holdupRunOut s (fun t => t = { s with out := [], cur := none }))

/-- Start-up (R46 to R48, R438). The slot read is run; one that fails is INVALID and the other is booted, or the die is held. An island's
report sets its ready bit, and HQE_READY follows from all of them. Bisque service begins with a good image, WAIT_HOST (reason 1) without;
BISQUE_ENTER leaves WAIT_HOST for it. (What comes in force with a bisque image beyond the records of Table 02-6 is log entries 12 and 31: the
model's choice.) -/
def Claim.StartUp : Prop :=
  (∀ (s : State), s.mainRuns = true → s.sup.st = .boot → Answers (.firmwareReadDone true) s (fun t => OnlySup s t ∧
    t.sup = { s.sup with
      fwVersion := (s.sup.slot s.sup.bootSlot).version, cfgMin := (s.sup.slot s.sup.bootSlot).cfgMin
      cfgMax := (s.sup.slot s.sup.bootSlot).cfgMax, formats := (s.sup.slot s.sup.bootSlot).formats
      banks := List.replicate 7 ⟨s.sup.bootSlot, none⟩ })) ∧
  (∀ (s : State), s.mainRuns = true → s.sup.st = .boot → s.sup.bootSlot < 2 → (s.sup.slot (1 - s.sup.bootSlot)).st ≠ .invalid →
    Answers (.firmwareReadDone false) s (fun t => t.sup.bootSlot = 1 - s.sup.bootSlot ∧
      (t.sup.slot s.sup.bootSlot).st = .invalid ∧ (t.sup.slot (1 - s.sup.bootSlot)).st = .active ∧ t.sup.held = s.sup.held ∧
      t.sup.lastEvent = some (7, 255, 0x04, (1 - s.sup.bootSlot) % 256) ∧ SaggarKept s t)) ∧
  (∀ (s : State), s.mainRuns = true → s.sup.st = .boot → s.sup.bootSlot < 2 → (s.sup.slot (1 - s.sup.bootSlot)).st = .invalid →
    Answers (.firmwareReadDone false) s (fun t => t.sup.held = true ∧ t.sup.noFirmware = true ∧
      (t.sup.slot s.sup.bootSlot).st = .invalid ∧ OnlySup s t)) ∧
  (∀ (i : Nat) (s : State), s.mainRuns = true → i < 7 → (i = 0 → s.sup.perst = false) → s.sup.live = none →
    Answers (.islandReady i) s (fun t => bit t.sup.readyMask i = true ∧ bit t.sup.readySince i = true ∧ (∀ j, j ≠ i → bit t.sup.readyMask j = bit s.sup.readyMask j) ∧
      t.sup.st = s.sup.st ∧ NoCommandMoved s t ∧
      (t.hqeReady = true → s.hqeReady = false → (s.sup.slotIn .trial).isSome = true → s.sup.trialOn = false → s.sup.restart = none →
        t.sup.trialOn = true ∧ t.sup.trialLeft = 600000000) ∧
      t = { s with sup := t.sup, hqe := t.hqe, out := t.out, cur := none })) ∧
  (∀ (s : State), s.mainRuns = true → Answers .tileStoreReady s (fun t =>
    t = { s with tmf := { s.tmf with ready := true }, out := [], cur := none })) ∧
  (∀ (s : State), s.mainRuns = true → s.sup.perst = false → Answers .pcieLinkUp s (fun t => OnlySup s t ∧
    t.sup = { s.sup with pcieUp := true })) ∧
  (∀ (bad : Option Nat) (s : State), s.sup.st = .boot → s.mainRuns = true → s.islandsUp = true → s.sup.bisqueValid = false →
    Answers (.bisqueEntry bad) s (fun t => t.sup.st = .waitHost ∧ t.sup.reason = 1 ∧ t.sup.configId = 0 ∧ t.cfg = s.cfg ∧
      t.kce = s.kce ∧ SaggarKept s t)) ∧
  (∀ (tile : Nat) (s : State), s.sup.st = .boot → s.mainRuns = true → s.islandsUp = true → s.sup.bisqueValid = true →
    s.sup.holdupReady = true →
    Answers (.bisqueEntry (some tile)) s (fun t => t.sup.st = .waitHost ∧ t.sup.reason = 1 ∧ t.sup.bisqueValid = false ∧
      (∃ r ∈ t.sup.journal, r.code = 0x0006 ∧ r.arg0 = s.sup.bisqueSlot ∧ r.arg1 = tile) ∧ t.cfg = s.cfg ∧ t.kce = s.kce ∧ SaggarKept s t)) ∧
  (∀ (s : State), s.sup.st = .boot → s.mainRuns = true → s.islandsUp = true → s.sup.bisqueValid = true →
    Answers (.bisqueEntry none) s (fun t => t.sup.st = .bisque ∧ t.sup.reason = 0 ∧ t.cfg = some s.sup.bisqueCfg ∧
      t.sup.configId = s.sup.bisqueId ∧ t.sup.cls = s.sup.bisqueCfg.cls ∧ t.sgm = s.sgm ∧ t.bte = s.bte ∧ t.mss = s.mss)) ∧
  (∀ (q : Sqe) (s : State), Taken 0x92 q s → Answers (.bisqueEnter q) s (fun t => Finished q stDONE 0 t ∧ t.sup.st = .bisque ∧
    t.sup.reason = 0 ∧ t.cfg = some s.sup.bisqueCfg ∧ t.sup.configId = s.sup.bisqueId ∧ t.sgm = s.sgm ∧ t.bte = s.bte ∧ t.mss = s.mss))

/-- The watchdog and PERST# (R35, R48, R49, R100, R452). A missed report resets the main die with cause 1; the third in 10 min on one slot
boots the other, or holds the die for 60 s; with a slot on trial the reset has cause 5 and the fallback boots. PERST# resets HI alone: its
rings and registers go, and its release lets it report. -/
def Claim.WatchdogAndPerst : Prop :=
  (∀ (i : Nat) (s : State), s.mainRuns = true → i < 7 → (i = 0 → s.sup.perst = false) → s.sup.slotIn .trial = none → s.sup.live = none →
    s.sup.staging = none → (s.sup.wdTimes.filter (fun t => decide (s.sup.spireTime ≤ t + 600000000))).length < 2 →
    s.sup.holdupReady = true →
    Answers (.watchdogMiss i) s (fun t => IslandsAtReset 0 t ∧ SaggarUnasked s t ∧ t.sup.st = .boot ∧ t.sup.lastReset = 1 ∧
      t.sup.resets = (s.sup.resets + 1) % 2 ^ 32 ∧ t.sup.bootSlot = s.sup.bootTarget ∧
      (∃ r, t.sup.journal.getLast? = some r ∧ r.code = 0x0002 ∧ r.arg0 = i ∧ r.arg1 = s.sup.bootSlot) ∧
      t.sup.lastEvent = some (1, 255, 0x42, i))) ∧
  (∀ (i : Nat) (s : State), s.mainRuns = true → i < 7 → (i = 0 → s.sup.perst = false) → s.sup.slotIn .trial = none → s.sup.live = none →
    s.sup.staging = none → 2 ≤ (s.sup.wdTimes.filter (fun t => decide (s.sup.spireTime ≤ t + 600000000))).length → s.sup.bootSlot < 2 →
    ((s.sup.slot (1 - s.sup.bootSlot)).st ≠ .invalid → Answers (.watchdogMiss i) s (fun t =>
      IslandsAtReset 0 t ∧ SaggarUnasked s t ∧ t.sup.bootSlot = 1 - s.sup.bootSlot ∧ (t.sup.slot (1 - s.sup.bootSlot)).st = .active ∧
      (t.sup.slot s.sup.bootSlot).st = .inactive ∧ t.sup.held = s.sup.held ∧ t.sup.wdTimes = [])) ∧
    ((s.sup.slot (1 - s.sup.bootSlot)).st = .invalid → Answers (.watchdogMiss i) s (fun t =>
      IslandsAtReset 0 t ∧ SaggarUnasked s t ∧ t.sup.held = true ∧ t.sup.noFirmware = s.sup.noFirmware ∧ t.sup.wdTimes = []))) ∧
  (∀ (i : Nat) (s : State), s.mainRuns = true → i < 7 → (i = 0 → s.sup.perst = false) → s.sup.slotA.st = .fallback →
    s.sup.slotB.st = .trial → s.sup.staging = none →
    Answers (.watchdogMiss i) s (fun t => IslandsAtReset 0 t ∧ SaggarUnasked s t ∧ t.sup.lastReset = 5 ∧ t.sup.bootSlot = 0 ∧
      t.sup.slotA.st = .active ∧ t.sup.slotB.st = .inactive ∧ t.sup.trialOn = false ∧
      t.sup.lastEvent = some (7, 255, 0x24, s.sup.slotA.version % 256))) ∧
  (∀ (s : State), s.sup.held = true → s.sup.noFirmware = false → s.sup.holdupReady = true →
    Answers .mainDieHoldEnd s (fun t => OnlySup s t ∧
      (∃ r, t.sup.journal.getLast? = some r ∧ r.code = 0x0009 ∧ r.arg0 = s.sup.bootSlot ∧ r.seq = (s.sup.journalSeq + 1) % 2 ^ 32 ∧
        r.arg1 = ((s.sup.wdTimes ++ s.sup.wdPast).filter (fun w => decide (s.sup.spireTime ≤ w + 600000000))).length) ∧
      t.sup = { s.sup with held := false, journal := t.sup.journal, journalSeq := (s.sup.journalSeq + 1) % 2 ^ 32 })) ∧
  (∀ (s : State), s.sup.perst = false → s.sup.commit = none → Answers .perstAssert s (fun t =>
    t.sup.perst = true ∧ t.sup.pcieUp = false ∧ bit t.sup.readyMask 0 = false ∧
    (∀ j, j ≠ 0 → bit t.sup.readyMask j = bit s.sup.readyMask j) ∧ t.sup.st = s.sup.st ∧
    t.hqe.f0 = s.hqe.f0.restart 64 72 ∧ t.hqe.f1 = s.hqe.f1.restart 4 8 ∧ t.hqe.tags = [] ∧ t.hqe.ready = [] ∧
    (∀ f ∈ t.hqe.fwd, f.accepted = true ∧ f.orphan = true) ∧ (∀ x ∈ t.tmf.tiles, x.2.owner ≠ .host) ∧
    t.cfg = s.cfg ∧ t.spa = { s.spa with unposted := [] } ∧ t.psc = s.psc ∧ t.pla = s.pla ∧ t.vpc = s.vpc ∧
    t.sup.readySince = s.sup.readySince ∧ SaggarKept s t)) ∧
  (∀ (s : State), s.sup.perst = true → Answers .perstDeassert s (fun t => t.sup.perst = false ∧ NoCommandMoved s t ∧
    (s.mainRuns = true → s.islandsUp = true → bit t.sup.readyMask 0 = true) ∧ (∀ j, j ≠ 0 → bit t.sup.readyMask j = bit s.sup.readyMask j) ∧
    t = { s with sup := t.sup, hqe := t.hqe, out := t.out, cur := none }))

/-! ### Commits -/

/-- The commit gate (R62 to R68, R507). A CONFIG_COMMIT runs until its boundary; a second commit completes with BUSY_RETRY. Validation with
no failing check leaves the device as it is until then; a failing check ends the commit with its reason and record 0x0005, leaves the
configuration in force, and in WAIT_HOST or BISQUE leaves the device in WAIT_HOST. CONFIG_ABORT ends a CONFIG_COMMIT not yet validated and a BISQUE_STORE whose slot
write has not begun, and comes too late for any other commit in progress, one whose CQE is not yet posted too (R63; which moments the
commands of the world mark is log entry 12, 13: the model's choice). -/
def Claim.ConfigCommits : Prop :=
  (∀ (q : Sqe) (s : State), (s.tmf.hostTile (sd q 5)).isSome = true → s.exclusive = true →
    (Taken 0x18 q s → Answers (.configCommit q) s (OnlyCompletes q stBUSY_RETRY 0 s)) ∧
    (∀ img bad, Taken 0x1A q s → Answers (.bisqueStore q img bad) s (OnlyCompletes q stBUSY_RETRY 0 s))) ∧
  (∀ (q : Sqe) (s : State), s.tmf.hostTile (sd q 5) = none →
    (Taken 0x18 q s → Answers (.configCommit q) s (OnlyCompletes q stBAD_HANDLE 0 s)) ∧
    (∀ img bad, Taken 0x1A q s → Answers (.bisqueStore q img bad) s (OnlyCompletes q stBAD_HANDLE 0 s))) ∧
  (∀ (q : Sqe) (s : State), Taken 0x18 q s → (s.tmf.hostTile (sd q 5)).isSome = true → s.exclusive = false → Answers (.configCommit q) s (fun t => Running q s t ∧ RingsKept s t ∧
    (∃ c, t.sup = { s.sup with commit := some c, commitKind := 1, commitTiles := t.sup.commitTiles, image := none } ∧
      c.kind = .config ∧ c.sq = q.sq ∧ c.cid = cidOf q ∧ c.origin = s.sup.st ∧ c.validated = false) ∧
    t = { s with hqe := t.hqe, sup := t.sup, out := [], cur := t.cur })) ∧
  (∀ (img : List RawRec) (bad : List Nat) (s : State) (c : Commit) (cfg : Cfg), s.sup.commit = some c → c.kind = .config →
    c.validated = false → gateOf s (c.handles.headD 0) false (fun f => carryOk f s) img bad = .pass cfg →
    (∀ x ∈ recsOf img .coeffSet, x.1 < 512) →
    ((∀ x ∈ recsOf img .coeffSet, s.tmf.usable (0x40 + x.1) = true ∧ 0x40 + x.1 ∉ bad) →
      Answers (.commitValidationDone img bad) s (fun t =>
        t.sup = { s.sup with commit := some { c with validated := true }, image := some cfg } ∧
        (∀ x ∈ recsOf img .coeffSet, (∀ y ∈ recsOf img .coeffSet, y.1 = x.1 → y = x) → look (0x40 + x.1) t.tmf.coeffs = some x.2 ∧
          (0x240 + x.1 ∉ s.tmf.oos → look (0x240 + x.1) t.tmf.coeffs = some x.2)) ∧
        t = { s with sup := t.sup, tmf := { s.tmf with coeffs := t.tmf.coeffs, restoring := t.tmf.restoring }, out := [], cur := none })) ∧
    (∀ x, x ∈ recsOf img .coeffSet → 0x40 + x.1 ∈ bad → 0x240 + x.1 ∈ bad → Answers (.commitValidationDone img bad) s (fun t =>
      t.sup.commit = none ∧ t.sup.commitOk = false ∧ t.sup.commitReason = 3 ∧ t.sup.image = none ∧ t.cfg = s.cfg))) ∧
  (∀ (img : List RawRec) (bad : List Nat) (s : State) (c : Commit) (r : Nat), s.sup.commit = some c → c.kind = .config →
    c.validated = false → gateOf s (c.handles.headD 0) false (fun f => carryOk f s) img bad = .fail r none → OwnedAs .pf0 c.sq c.cid s →
    s.sup.holdupReady = true →
    (c.origin = .service → s.sup.st = .service → Answers (.commitValidationDone img bad) s (fun t =>
      t.sup.posting = some c ∧ CompletedAs .pf0 c.sq c.cid (if r = 3 then stTILE_CHECK else if r = 0x0D then stABORTED_RESET else stBAD_PARAM) r s t ∧
      t.sup.st = .service ∧ t.sup.commit = none ∧ t.sup.commitOk = false ∧ t.sup.commitReason = r ∧ t.sup.image = none ∧
      (∃ x, t.sup.journal.getLast? = some x ∧ x.code = 0x0005 ∧ x.arg0 = r) ∧ t.sup.lastEvent = some (7, 255, 0x02, r % 256) ∧
      t = { s with hqe := t.hqe, sup := t.sup, kce := { s.kce with staged := none }, out := t.out, cur := t.cur })) ∧
    ((c.origin = .waitHost ∨ c.origin = .bisque) → s.sup.st ≠ .boot → s.sup.st ≠ .powerFail → Answers (.commitValidationDone img bad) s (fun t =>
      t.sup.st = .waitHost ∧ t.sup.reason = r ∧ t.sup.commit = none ∧ t.sup.commitReason = r ∧ t.sup.configId = 0 ∧ t.cfg = s.cfg ∧
      Posted c.sq c.cid (if r = 3 then stTILE_CHECK else if r = 0x0D then stABORTED_RESET else stBAD_PARAM) r t ∧
      (∀ n, (t.prt n).energy = false) ∧ SaggarKept s t))) ∧
  (∀ (q : Sqe) (s : State), Taken 0x19 q s →
    (s.sup.commit = none → s.sup.posting = none → Answers (.configAbort q) s (OnlyCompletes q stDONE_NOTE 2 s)) ∧
    (s.sup.commit = none → s.sup.posting.isSome = true → Answers (.configAbort q) s (OnlyCompletes q stDONE_NOTE 1 s)) ∧
    (∀ c, s.sup.commit = some c → (c.kind = .coeff ∨ c.kind = .config ∧ c.validated = true ∨ c.kind = .bisque ∧ c.writing = true) →
      Answers (.configAbort q) s (OnlyCompletes q stDONE_NOTE 1 s)) ∧
    (∀ c, s.sup.commit = some c → c.kind = .bisque → c.writing = false → OwnedAs .pf0 c.sq c.cid s →
      Answers (.configAbort q) s (fun t =>
        (∃ a b, t.hqe.ready = s.hqe.ready ++
          [⟨.pf0, c.sq, c.cid, stABORTED_RESET, 0x0D, a, none⟩, ⟨q.fn, q.sq, cidOf q, stDONE, 0, b, none⟩]) ∧
        t.sup.commit = none ∧ t.sup.storing = none ∧ t.sup.commitReason = 0x0D ∧ t.sup.bisqueImage = s.sup.bisqueImage ∧
        t.sup.bisqueValid = s.sup.bisqueValid ∧ t.sup.st = s.sup.st ∧ t.cfg = s.cfg)) ∧
    (∀ c, s.sup.commit = some c → c.validated = false → c.origin = .service → s.sup.st = .service → c.kind = .config → OwnedAs .pf0 c.sq c.cid s →
      Answers (.configAbort q) s (fun t =>
      (∃ a b, t.hqe.ready = s.hqe.ready ++
        [⟨.pf0, c.sq, c.cid, stABORTED_RESET, 0x0D, a, none⟩, ⟨q.fn, q.sq, cidOf q, stDONE, 0, b, none⟩]) ∧
      t.sup.st = .service ∧ t.sup.commit = none ∧ t.sup.commitReason = 0x0D ∧ t.sup.image = none ∧ t.cfg = s.cfg ∧ t.spa = s.spa)))

/-- The admission of a commit (R21, R66, R184, R195). At the epoch boundary the whole validated configuration comes into force, its device
state is SERVICE and its commit completes; the staged sets of a COEFF_STAGE replace those of its bands and no others.
What an admission leaves of the state before is log entry 12: the model's choice. -/
def Claim.Admission : Prop :=
  (∀ (bad : List Nat) (s : State) (c : Commit) (new : Cfg), s.siteUp = true → s.sup.commit = some c → s.sup.image = some new →
    s.sup.st ≠ .service → OwnedAs .pf0 c.sq c.cid s → Answers (.epochBoundary bad) s (fun t =>
    t.cfg = some new ∧ t.sup.st = .service ∧ t.sup.cls = new.cls ∧ t.sup.configId = new.id ∧ t.sup.commit = none ∧
    t.sup.commitOk = true ∧ t.sup.image = none ∧ t.tmf.hostLimit = s.tmf.hostLimitReg ∧ Posted c.sq c.cid stDONE 0 t ∧ SaggarKept s t)) ∧
  (∀ (bad : List Nat) (s : State) (c : Commit) (g : Nat) (l : List (Nat × List Byte)), s.siteUp = true → s.sup.image = none →
    s.sup.commit = some c → s.kce.staged = some (g, l) → OwnedAs .pf0 c.sq c.cid s → Answers (.epochBoundary bad) s (fun t =>
    t.cfg = s.cfg.map (fun f => { f with sets := l.foldl (fun a x => put (8 * g + x.1) (parseCoeff x.2) a) f.sets }) ∧ t.kce.staged = none ∧
    t.sup.commit = none ∧ t.sup.commitOk = true ∧ Posted c.sq c.cid stDONE (maskOf 8 (fun b => l.any (fun x => x.1 == b))) t)) ∧
  (∀ (bad : List Nat) (s : State), s.siteUp = true → s.sup.image = none → s.kce.staged = none → Answers (.epochBoundary bad) s (fun t =>
    t.cfg = s.cfg ∧ t.sup.commit = s.sup.commit ∧ t.sup.st = s.sup.st ∧ RefsKept s t ∧ SaggarKept s t))

/-- BISQUE_STORE and COEFF_STAGE (R58, R195). A bisque image that passes the gate is written to the slot not in use, and takes the place of
the old one only when the slot has been read back; its slot write begins at the end of its validation; the gate's refusal or a failed read-back leaves the old image. Sets that pass are staged
until the boundary, and the configuration in force stays.
When a bisque image's slot write begins is log entries 12 and 13: the model's choice.
Each of these commands is shown to complete, that is, to answer a next state with its own effect:
commitValidationDone, bisqueStore, bisqueSlotWritten, coeffStage. -/
def Obligations.StoredCommits : Prop :=
  (∀ (q : Sqe) (img : List RawRec) (bad : List Nat) (s : State) (cfg : Cfg), Taken 0x1A q s → (s.tmf.hostTile (sd q 5)).isSome = true → s.exclusive = false →
    gateOf s (sd q 5) true (fun _ => true) img bad = .pass cfg → Answers (.bisqueStore q img bad) s (fun t => Running q s t ∧ RingsKept s t ∧
      (∃ c, t.sup = { s.sup with
        commit := some c, commitKind := 3, commitTiles := t.sup.commitTiles, image := none
        storing := some (if s.sup.bisqueValid then 1 - s.sup.bisqueSlot else s.sup.bisqueSlot, cfg.id, img) } ∧
        c.kind = .bisque ∧ c.writing = false ∧ c.sq = q.sq ∧ c.cid = cidOf q) ∧
      t = { s with hqe := t.hqe, sup := t.sup, out := [], cur := t.cur })) ∧
  (∀ (img : List RawRec) (bad : List Nat) (s : State) (c : Commit), s.sup.commit = some c → c.kind = .bisque →
    Answers (.commitValidationDone img bad) s (fun t =>
      t = { s with sup := { s.sup with commit := some { c with writing := true } }, out := [], cur := none })) ∧
  (∀ (q : Sqe) (img : List RawRec) (bad : List Nat) (s : State) (r : Nat), Taken 0x1A q s → (s.tmf.hostTile (sd q 5)).isSome = true → s.exclusive = false →
    gateOf s (sd q 5) true (fun _ => true) img bad = .fail r none → Answers (.bisqueStore q img bad) s (fun t =>
      Completed q (if r = 3 then stTILE_CHECK else if r = 0x0D then stABORTED_RESET else stBAD_PARAM) r s t ∧ t.sup.commit = none ∧
      t.sup.commitOk = false ∧ t.sup.commitReason = r ∧ t.sup.bisqueImage = s.sup.bisqueImage ∧ t.sup.bisqueValid = s.sup.bisqueValid ∧
      t.sup.st = s.sup.st ∧ t.cfg = s.cfg)) ∧
  (∀ (s : State) (c : Commit) (slot id : Nat) (recs : List RawRec), s.sup.commit = some c → s.sup.storing = some (slot, id, recs) →
    OwnedAs .pf0 c.sq c.cid s →
    Answers (.bisqueSlotWritten true) s (fun t => CompletedAs .pf0 c.sq c.cid stDONE id s t ∧
      t.sup = { s.sup with
        commit := none, posting := some c, commitOk := true, commitReason := 0, storing := none, bisqueValid := true, bisqueSlot := slot, bisqueId := id
        bisqueImage := recs, lastEvent := some (7, 255, 0x03, id % 256) } ∧
      t = { s with hqe := t.hqe, sup := t.sup, out := t.out, cur := t.cur }) ∧
    (c.kind = .bisque → Answers (.bisqueSlotWritten false) s (fun t =>
      t.sup.commit = none ∧ t.sup.commitOk = false ∧ t.sup.storing = none ∧ t.sup.bisqueValid = s.sup.bisqueValid ∧
      t.sup.bisqueSlot = s.sup.bisqueSlot ∧ t.sup.bisqueId = s.sup.bisqueId ∧ t.sup.bisqueImage = s.sup.bisqueImage ∧ t.cfg = s.cfg))) ∧
  (∀ (q : Sqe) (bad : List Nat) (s : State), Taken 0x31 q s → firstBad (stageParams q bad s) = none →
    (∀ x ∈ stageBands q, (s.closedTile x.2).isSome = true ∧ handleIdx x.2 ∉ bad) → (s.conf.group (sd q 1)).isSome = true →
    (s.lane (sd q 1)).st ≠ .idle → (s.lane (sd q 1)).swapPending = false → s.exclusive = false →
    Answers (.coeffStage q bad) s (fun t => Running q s t ∧ RingsKept s t ∧ t.cfg = s.cfg ∧
      t.kce = { s.kce with staged := some (sd q 1, (stageBands q).filterMap (fun x => (s.closedTile x.2).map (fun b => (x.1, b)))) } ∧
      (∃ c, t.sup = { s.sup with commit := some c, commitKind := 2, commitTiles := (stageBands q).length, image := none } ∧
        c.kind = .coeff ∧ c.sq = q.sq ∧ c.cid = cidOf q) ∧
      t = { s with hqe := t.hqe, sup := t.sup, kce := t.kce, out := [], cur := t.cur }))

/-! ### Firmware in service -/

/-- Staging and switching (R447, R448, R450, R451, R453). An image that passes its checks is programmed to the slot not in use; a switch needs a
staged slot and, LIVE, equal format numbers; a RESTART switch completes at once and resets the die later with cause 4; a LIVE one loads every
island's idle bank and runs through the islands in order. A rollback asks only for the lowest format the target accepts.
The order of an image's checks, and what a failed stage leaves, is log entry 32: the model's choice. -/
def Claim.UpdateStaging : Prop :=
  (∀ (q : Sqe) (bad : List Nat) (s : State) (x : Tile) (tiles : List (List Byte)), Taken 0x94 q s → s.tmf.hostTile (sd q 5) = some x →
    x.closed = true → s.sup.onTrial = false → s.sup.staging = none → s.sup.live = none → handleIdx (sd q 5) ∉ bad →
    readImage s bad (listedHandles x.bytes) = .good tiles →
    Answers (.updateStage q bad) s (fun t =>
      (imageFault tiles = none → Running q s t ∧ RingsKept s t ∧ (t.sup.slot (1 - s.sup.bootSlot)).st = .invalid ∧
        (∃ g, t.sup.staging = some g ∧ g.sq = q.sq ∧ g.cid = cidOf q ∧ g.slot = 1 - s.sup.bootSlot ∧ g.image.st = .staged ∧
          g.image.version = u (tiles.headD []) 8 4 ∧ (∀ i, i < 7 → g.image.segs[i]? =
            some (u (tiles.headD []) (16 + 8 * i) 4, u (tiles.headD []) (20 + 8 * i) 2)))) ∧
      (∀ r, imageFault tiles = some r → Completed q stBAD_PARAM r s t ∧ RingsKept s t ∧
        (t.sup.slot (1 - s.sup.bootSlot)).st = .invalid ∧ t.sup.staging = none) ∧
      (s.sup.bootSlot < 2 → t.sup.slot s.sup.bootSlot = s.sup.slot s.sup.bootSlot) ∧
      t = { s with hqe := t.hqe, sup := t.sup, free := t.free, out := [], cur := t.cur })) ∧
  (∀ (q : Sqe) (bad : List Nat) (s : State), Taken 0x94 q s → s.tmf.hostTile (sd q 5) = none →
    Answers (.updateStage q bad) s (OnlyCompletes q stBAD_HANDLE 0 s)) ∧
  (∀ (q : Sqe) (bad : List Nat) (s : State) (x : Tile), Taken 0x94 q s → s.tmf.hostTile (sd q 5) = some x →
    (x.closed = false → Answers (.updateStage q bad) s (OnlyCompletes q stBAD_STATE 0 s)) ∧
    (x.closed = true → (s.sup.onTrial = true ∨ s.sup.staging.isSome = true ∨ s.sup.live.isSome = true) →
      Answers (.updateStage q bad) s (OnlyCompletes q stBUSY_RETRY 0 s))) ∧
  (∀ (s : State) (g : Staging), s.sup.staging = some g → g.slot < 2 → OwnedAs .pf0 g.sq g.cid s →
    Answers (.updateStageDone true) s (fun t => CompletedAs .pf0 g.sq g.cid stDONE g.image.version s t ∧ t.sup.staging = none ∧
      t.sup.slot g.slot = g.image ∧ t.sup.slot (1 - g.slot) = s.sup.slot (1 - g.slot) ∧
      t.sup.lastEvent = some (7, 255, 0x20, g.image.version % 256) ∧
      t = { s with hqe := t.hqe, sup := t.sup, out := t.out, cur := t.cur }) ∧
    Answers (.updateStageDone false) s (fun t => CompletedAs .pf0 g.sq g.cid stBAD_PARAM 5 s t ∧ t.sup.staging = none ∧
      (t.sup.slot g.slot).st = .invalid ∧ t.sup.slot (1 - g.slot) = s.sup.slot (1 - g.slot) ∧
      t = { s with hqe := t.hqe, sup := t.sup, out := [], cur := t.cur })) ∧
  (∀ (q : Sqe) (s : State), Taken 0x95 q s → sd q 6 < 2 → s.sup.slotIn .staged = none →
    Answers (.updateSwitch q) s (OnlyCompletes q stBAD_STATE 0 s)) ∧
  (∀ (q : Sqe) (s : State) (x : Nat), Taken 0x95 q s → s.sup.slotIn .staged = some x → s.exclusive = false → s.sup.restart = none →
    (sd q 6 = 1 → Answers (.updateSwitch q) s (fun t => Completed q stDONE 0 s t ∧ t.sup.restart = some x ∧
      (t.sup.slot x).st = .trial ∧ (t.sup.slot (1 - x)).st = .fallback ∧ t.sup.live = none ∧ t.sup.fwVersion = s.sup.fwVersion ∧
      t = { s with hqe := t.hqe, sup := t.sup, out := t.out, cur := t.cur })) ∧
    (sd q 6 = 0 → s.sup.formats = (s.sup.slot x).formats → Answers (.updateSwitch q) s (fun t => Running q s t ∧ RingsKept s t ∧
      t.sup = { s.sup with
        live := some ⟨q.sq, cidOf q, x, [6, 5, 1, 0, 3, 2, 4], none, false⟩, switched := 0
        banks := s.sup.banks.map (fun b => { b with idle := some x }) } ∧
      t = { s with hqe := t.hqe, sup := t.sup, out := [], cur := t.cur })) ∧
    (sd q 6 = 0 → s.sup.formats ≠ (s.sup.slot x).formats →
      Answers (.updateSwitch q) s (OnlyCompletes q stBAD_STATE 0 s))) ∧
  (∀ (q : Sqe) (s : State), Taken 0x96 q s → sd q 6 < 2 → s.exclusive = false → s.sup.restart = none →
    ((s.sup.slot (1 - s.sup.bootSlot)).st = .staged → Answers (.updateRollback q) s (fun t => Completed q stDONE 0 s t ∧ RingsKept s t ∧
      (t.sup.slot (1 - s.sup.bootSlot)).st = .invalid ∧ t.sup.live = none ∧ t.sup.restart = none ∧
      t = { s with hqe := t.hqe, sup := t.sup, out := [], cur := t.cur })) ∧
    (((s.sup.slot (1 - s.sup.bootSlot)).st = .fallback ∨ (s.sup.slot (1 - s.sup.bootSlot)).st = .inactive) →
      (s.sup.st = .service → (s.sup.slot (1 - s.sup.bootSlot)).cfgMin ≤ s.conf.fmt) →
      (sd q 6 = 1 → s.sup.bootSlot < 2 → Answers (.updateRollback q) s (fun t => Completed q stDONE 0 s t ∧ RingsKept s t ∧
        t.sup.restart = some (1 - s.sup.bootSlot) ∧
        (t.sup.slot (1 - s.sup.bootSlot)).st = .active ∧ (t.sup.slot s.sup.bootSlot).st = .inactive ∧ t.sup.lastEvent = s.sup.lastEvent)) ∧
      (sd q 6 = 0 → s.sup.formats = (s.sup.slot (1 - s.sup.bootSlot)).formats → Answers (.updateRollback q) s (fun t =>
        Running q s t ∧ RingsKept s t ∧
        t.sup = { s.sup with
          live := some ⟨q.sq, cidOf q, 1 - s.sup.bootSlot, [6, 5, 1, 0, 3, 2, 4], none, true⟩, switched := 0
          banks := s.sup.banks.map (fun b => { b with idle := some (1 - s.sup.bootSlot) }) }))) ∧
    ((s.sup.slot (1 - s.sup.bootSlot)).st = .invalid → Answers (.updateRollback q) s (OnlyCompletes q stBAD_STATE 0 s)))

/-- The course of a switch (R450 to R452). The next island in order changes bank at its switch point, HI only while no read of the HQE is in
flight, and its report sets its bit; after the last the target's firmware runs, on trial for 600 s; the trial's end makes it active. A RESTART resets the die with cause 4 into its target.
When the trial starts and which slot a rollback marks is log entry 32: the model's choice. -/
def Claim.UpdateCourse : Prop :=
  (∀ (i : Nat) (s : State) (l : LiveSwitch) (rest : List Nat), s.sup.live = some l → l.waiting = none → l.todo = i :: rest →
    (i = 0 → s.sup.perst = false ∧ s.hqe.tags = []) → Answers (.islandBankSwitch i) s (fun t =>
      t.sup.live = some { l with waiting := some i, todo := rest } ∧
      (∀ b n, s.sup.banks[i]? = some b → b.idle = some n → t.sup.banks[i]? = some ⟨n, some b.run⟩) ∧
      (∀ j, j ≠ i → t.sup.banks[j]? = s.sup.banks[j]?) ∧
      (i ≠ 6 → OnlySup s t ∧ t.sup = { s.sup with live := t.sup.live, banks := t.sup.banks }))) ∧
  (∀ (s : State), s.hqe.tags ≠ [] → Answers (.islandBankSwitch 0) s (fun t => t = { s with out := [], cur := none })) ∧
  (∀ (i : Nat) (s : State) (l : LiveSwitch), s.sup.live = some l → (l.waiting.isSome = true ∨ l.todo.head? ≠ some i) →
    Answers (.islandBankSwitch i) s (fun t => t = { s with out := [], cur := none })) ∧
  (∀ (i : Nat) (s : State) (l : LiveSwitch), s.mainRuns = true → i < 7 → (i = 0 → s.sup.perst = false) → s.sup.live = some l →
    l.waiting = some i → l.todo ≠ [] → s.hqeReady = true → Answers (.islandReady i) s (fun t =>
      t.sup.live = some { l with waiting := none } ∧ bit t.sup.switched i = true ∧
      (∀ j, j ≠ i → bit t.sup.switched j = bit s.sup.switched j) ∧ t.sup.lastEvent = some (7, 255, 0x21, i) ∧
      t.sup.fwVersion = s.sup.fwVersion ∧ NoCommandMoved s t)) ∧
  (∀ (i : Nat) (s : State) (l : LiveSwitch), s.mainRuns = true → i < 7 → (i = 0 → s.sup.perst = false) → s.sup.live = some l →
    l.waiting = some i → l.todo = [] → l.target < 2 → s.hqeReady = true → OwnedAs .pf0 l.sq l.cid s → Answers (.islandReady i) s (fun t =>
      t.sup.live = none ∧ t.sup.bootSlot = l.target ∧ t.sup.fwVersion = (s.sup.slot l.target).version ∧
      t.sup.formats = (s.sup.slot l.target).formats ∧ t.sup.banks = List.replicate 7 ⟨l.target, none⟩ ∧ t.evr.testing = true ∧
      bit t.sup.switched i = true ∧
      CompletedAs .pf0 l.sq l.cid stDONE t.sup.switched s t ∧
      (l.rollback = false → (t.sup.slot l.target).st = .trial ∧ (t.sup.slot (1 - l.target)).st = .fallback ∧ t.sup.trialOn = true ∧
        t.sup.trialLeft = 600000000 ∧ t.sup.lastEvent = some (7, 255, 0x22, (s.sup.slot l.target).version % 256)) ∧
      (l.rollback = true → (t.sup.slot l.target).st = .active ∧ (t.sup.slot (1 - l.target)).st = .inactive ∧ t.sup.trialOn = false) ∧
      t.cfg = s.cfg ∧ t.spa = s.spa ∧ t.psc = s.psc ∧ t.kce = s.kce)) ∧
  (∀ (s : State) (x : Nat), s.sup.trialOn = true → s.sup.slotIn .trial = some x → Answers .trialEnd s (fun t =>
    (t.sup.slot x).st = .active ∧ (t.sup.slot (1 - x)).st = .inactive ∧ t.sup.trialOn = false ∧
    t.sup.lastEvent = some (7, 255, 0x23, (s.sup.slot x).version % 256) ∧ NoCommandMoved s t)) ∧
  (∀ (s : State) (x : Nat), s.sup.restart = some x → s.sup.slotIn .trial = some x → s.mainRuns = true → s.sup.staging = none →
    Answers .updateRestartReset s (fun t => IslandsAtReset 0 t ∧ SaggarUnasked s t ∧ t.sup.st = .boot ∧ t.sup.lastReset = 4 ∧
      t.sup.bootSlot = x ∧ t.sup.restart = none ∧ t.sup.resets = (s.sup.resets + 1) % 2 ^ 32))

/-! ### The Saggar link -/

/-- The Saggar link (R41, R42, R43, R101, R165). A frame is good when its payload has the length its header gives, at most 64 bytes, and the
CRC-16-CCITT holds. A good session-crossing frame delivers the message at the front of its direction; the third failure of one frame takes the link
down at both ends, with fault record 0x0007, every tunnelled command completes with SAGGAR_UNREACHABLE, result 1, and SPA holds again what the Saggar
has not received. The Saggar's held PF1 events follow once no session-crossing message is on its way (R43). A Saggar fitted again comes back
with what it keeps (R386). Each end comes up by itself after eight good frames in a row and the acknowledgement of its latest probe; while it is down it sends a
new probe.
What a frame's header spells, which message a frame carries and when a count of failures starts anew are log entry 6, what another unit
brings is log entry 35: the model's choice.
Each of these commands is shown to complete, that is, to answer a next state with its own effect: saggarLinkFrame,
saggarLinkProbe. -/
def Obligations.SaggarLink : Prop :=
  (∀ (f : SaggarFrame), f.payload.length = f.length → f.length ≤ 64 → f.crc = crc16 (le 1 f.type ++ le 1 f.length ++ le 2 f.seq ++ f.payload) →
    frameGood f = true) ∧
  (∀ (f : SaggarFrame), (f.payload.length ≠ f.length ∨ 64 < f.length ∨ f.crc ≠ crc16 (le 1 f.type ++ le 1 f.length ++ le 2 f.seq ++ f.payload)) →
    frameGood f = false) ∧
  (∀ (f : SaggarFrame) (s : State), s.mainRuns = true → s.sgm.runs = true → s.lnk.up = true → s.lnk.sgUp = true → frameGood f = true →
    f.toSaggar = true →
    (f.type = 1 → s.lnk.heldPf1 = [] → (∀ m ∈ s.lnk.inSt, CrossMsg.answer m.1 = none) → Answers (.saggarLinkFrame f) s (fun t =>
      t = { s with
        lnk := { s.lnk with
          fails := (0, s.lnk.fails.2), seqs := (f.seq, s.lnk.seqs.2)
          inSg := s.lnk.inSg ++ (s.lnk.toSg.take 1).map (fun m => (m.1, m.2.1)), toSg := s.lnk.toSg.drop 1 }
        out := [], cur := none })) ∧
    (f.type ≠ 1 → Answers (.saggarLinkFrame f) s (fun t =>
      t = { s with lnk := { s.lnk with fails := (0, s.lnk.fails.2), seqs := (f.seq, s.lnk.seqs.2) }, out := [], cur := none }))) ∧
  (∀ (f : SaggarFrame) (s : State), s.mainRuns = true → s.sgm.runs = true → s.lnk.up = true → s.lnk.sgUp = true → frameGood f = true →
    f.serial = none → f.toSaggar = false →
    (f.type = 1 → (∀ m ∈ s.lnk.inSt ++ s.lnk.toSt.take 1, CrossMsg.answer m.1 = none) → Answers (.saggarLinkFrame f) s (fun t =>
      (s.lnk.toSt.length ≤ 1 → t.lnk.heldPf1 = []) ∧ (1 < s.lnk.toSt.length → t.lnk.heldPf1 = s.lnk.heldPf1))) ∧
    (f.type = 1 → s.lnk.heldPf1 = [] → (∀ m ∈ s.lnk.inSt ++ s.lnk.toSt.take 1, CrossMsg.answer m.1 = none) → Answers (.saggarLinkFrame f) s (fun t =>
      t = { s with
        lnk := { s.lnk with fails := (s.lnk.fails.1, 0), seqs := (s.lnk.seqs.1, f.seq), inSt := s.lnk.inSt ++ s.lnk.toSt.take 1, toSt := s.lnk.toSt.drop 1 }
        out := [], cur := none })) ∧
    (f.type ≠ 1 → Answers (.saggarLinkFrame f) s (fun t =>
      t = { s with lnk := { s.lnk with fails := (s.lnk.fails.1, 0), seqs := (s.lnk.seqs.1, f.seq) }, out := [], cur := none }))) ∧
  (∀ (f : SaggarFrame) (s : State), s.mainRuns = true → s.sgm.runs = true → s.lnk.up = true → s.lnk.sgUp = true → frameGood f = false →
    f.toSaggar = true →
    (s.lnk.seqs.1 ≠ f.seq → Answers (.saggarLinkFrame f) s (fun t =>
      t = { s with lnk := { s.lnk with fails := (1, s.lnk.fails.2), seqs := (f.seq, s.lnk.seqs.2) }, out := [], cur := none })) ∧
    (s.lnk.seqs.1 = f.seq → s.lnk.fails.1 < 2 → Answers (.saggarLinkFrame f) s (fun t =>
      t = { s with lnk := { s.lnk with fails := (s.lnk.fails.1 + 1, s.lnk.fails.2) }, out := [], cur := none })) ∧
    (s.lnk.seqs.1 = f.seq → s.lnk.fails.1 = 2 → s.sup.holdupReady = true →
      s.hqe.fwd.Pairwise (fun a b => ¬(a.fn = b.fn ∧ a.sq = b.sq ∧ a.cid = b.cid)) → Answers (.saggarLinkFrame f) s (fun t =>
      t.lnk.up = false ∧ t.lnk.sgUp = false ∧ t.lnk.runs = (0, 0) ∧ t.lnk.acked = (false, false) ∧ t.lnk.toSg = [] ∧ t.lnk.toSt = s.lnk.toSt ∧
      (s.spa.outbox = [] → s.lnk.toSg.length ≤ 256 → (∀ m ∈ s.lnk.toSg, CrossMsg.tokenNode m.1 = none) →
        t.spa.outbox = s.lnk.toSg.map (fun m => ⟨m.1, m.2.2⟩)) ∧
      t.sup.lastEvent = some (1, 255, 0x40, 0) ∧ (∃ r, t.sup.journal.getLast? = some r ∧ r.code = 0x0007 ∧ r.arg0 = 0 ∧ r.arg1 = f.seq) ∧
      (∀ x ∈ t.hqe.fwd, x.tunnelled = false) ∧ t.hqe.answers = [] ∧
      (∀ x ∈ s.hqe.fwd, x.tunnelled = true → x.orphan = false →
        ∃ c ∈ t.hqe.ready, c.fn = .pf1 ∧ c.sq = x.sq ∧ c.cid = x.cid ∧ c.status = stSAGGAR_UNREACHABLE ∧ c.result = 1) ∧
      SaggarUnasked s t))) ∧
  (∀ (f : SaggarFrame) (s : State), s.mainRuns = true → s.sgm.runs = true → s.lnk.up = false → frameGood f = true → f.serial = none →
    f.toSaggar = false → f.type ≠ 1 →
    (8 ≤ s.lnk.runs.2 + 1 → (s.lnk.acked.2 || f.ackProbe) = true →
      Answers (.saggarLinkFrame f) s (fun t => t.lnk.up = true ∧ t.lnk.sgUp = s.lnk.sgUp ∧ t.lnk.runs = (s.lnk.runs.1, s.lnk.runs.2 + 1) ∧
        t.sup.lastEvent = some (1, 255, 0x41, 0) ∧ t.spa.outbox = [] ∧ t.lnk.toSg.map Prod.fst = s.lnk.toSg.map Prod.fst ++ s.spa.outbox.map HeldMsg.msg ∧
        (s.lnk.sgUp = true → s.lnk.toSt = [] → t.lnk.heldPf1 = []) ∧
        ((s.lnk.sgUp = false ∨ s.lnk.toSt ≠ []) → t.lnk.heldPf1 = s.lnk.heldPf1) ∧ NoCommandMoved s t)) ∧
    (s.lnk.runs.2 + 1 < 8 ∨ (s.lnk.acked.2 || f.ackProbe) = false → Answers (.saggarLinkFrame f) s (fun t => t = { s with
      lnk := { s.lnk with
        fails := (s.lnk.fails.1, 0), seqs := (s.lnk.seqs.1, f.seq), runs := (s.lnk.runs.1, s.lnk.runs.2 + 1)
        acked := (s.lnk.acked.1, s.lnk.acked.2 || f.ackProbe) }
      out := [], cur := none }))) ∧
  (∀ (f : SaggarFrame) (s : State), s.mainRuns = true → s.sgm.runs = true → s.lnk.sgUp = false → frameGood f = true →
    f.toSaggar = true → f.type ≠ 1 →
    (8 ≤ s.lnk.runs.1 + 1 → (s.lnk.acked.1 || f.ackProbe) = true →
      Answers (.saggarLinkFrame f) s (fun t => t.lnk.sgUp = true ∧ t.lnk.up = s.lnk.up ∧ t.sup = s.sup ∧ t.spa = s.spa ∧
        (s.lnk.up = true → s.lnk.toSt = [] → t.lnk.heldPf1 = []) ∧
        ((s.lnk.up = false ∨ s.lnk.toSt ≠ []) → t.lnk.heldPf1 = s.lnk.heldPf1) ∧ NoCommandMoved s t)) ∧
    (s.lnk.runs.1 + 1 < 8 ∨ (s.lnk.acked.1 || f.ackProbe) = false → Answers (.saggarLinkFrame f) s (fun t => t = { s with
      lnk := { s.lnk with
        fails := (0, s.lnk.fails.2), seqs := (f.seq, s.lnk.seqs.2), runs := (s.lnk.runs.1 + 1, s.lnk.runs.2)
        acked := (s.lnk.acked.1 || f.ackProbe, s.lnk.acked.2) }
      out := [], cur := none }))) ∧
  (∀ (f : SaggarFrame) (s : State), s.mainRuns = true → s.sgm.runs = true → s.lnk.up = false → s.lnk.sgUp = false → frameGood f = false →
    Answers (.saggarLinkFrame f) s (fun t => t = { s with
      lnk := { s.lnk with runs := if f.toSaggar then (0, s.lnk.runs.2) else (s.lnk.runs.1, 0) }, out := [], cur := none })) ∧
  (∀ (s : State), s.mainRuns = true → s.sgm.runs = true →
    (s.lnk.up = false → s.lnk.sgUp = false → Answers .saggarLinkProbe s (fun t =>
      t = { s with
        lnk := { s.lnk with probes := (s.lnk.probes.1 + 1, s.lnk.probes.2 + 1), acked := (false, false) }
        out := [], cur := none })) ∧
    (s.lnk.up = true → s.lnk.sgUp = false → Answers .saggarLinkProbe s (fun t =>
      t = { s with
        lnk := { s.lnk with probes := (s.lnk.probes.1, s.lnk.probes.2 + 1), acked := (false, s.lnk.acked.2) }
        out := [], cur := none })) ∧
    (s.lnk.up = false → s.lnk.sgUp = true → Answers .saggarLinkProbe s (fun t =>
      t = { s with
        lnk := { s.lnk with probes := (s.lnk.probes.1 + 1, s.lnk.probes.2), acked := (s.lnk.acked.1, false) }
        out := [], cur := none }))) ∧
  (∀ (s : State), s.lnk.up = true → s.lnk.sgUp = true → Answers .saggarLinkProbe s (fun t => t = { s with out := [], cur := none })) ∧
  (∀ (f : SaggarFrame) (s : State) (n : BitVec 64), s.mainRuns = true → s.sgm.runs = true → frameGood f = true → f.serial = some n →
    f.toSaggar = false → n ≠ s.mss.serial → s.sup.saggarSerial ≠ 0 → s.sup.saggarSerial ≠ n.toNat → s.sup.holdupReady = true →
    s.lnk.up = true → s.lnk.sgUp = true →
    Answers (.saggarLinkFrame f) s (fun t =>
      (s.shelf.find? (fun x => x.mss.serial == n) = none → t.mss = State.newMss n ∧ t.bte = Bte.reset ∧ t.sgm = Sgm.reset) ∧
      (∀ x, s.shelf.find? (fun x => x.mss.serial == n) = some x → t.mss.serial = n ∧ t.mss.sessions = x.mss.sessions ∧
        (x.mss.unseen = false → t.mss.sealCount = x.mss.sealCount) ∧ (x.sgm.sramGood true = true → t.sgm.acc = x.sgm.acc)) ∧
      t.shelf.head? = some ⟨s.sgm, s.bte, s.mss, s.cell⟩ ∧ t.sup.saggarSerial = n.toNat ∧
      t.sup.replaced = true ∧ t.sup.lastEvent = some (1, 255, 0x32, 0) ∧
      CrossMsg.resync 0 ∈ t.lnk.toSg.map Prod.fst ++ t.lnk.inSg.map Prod.fst ∧
      (∃ r, t.sup.journal.getLast? = some r ∧ r.code = 0x0902 ∧ r.arg0 = s.sup.saggarSerial % 2 ^ 32 ∧ r.arg1 = n.toNat % 2 ^ 32)))

/-! ### Rules over every command -/

/-- A host command that fails a check of R515 before its parameters (function and opcode, ring, device state, general SQE fields) completes
with that check's status and result and changes nothing (R98), whichever command it is. -/
def Obligations.TurnedAwayCommandsChangeNothing : Prop :=
  ∀ (i : Instr) (op : Nat) (q : Sqe) (s : State) (st r : Nat), hostOf i = some (op, q) → Owned q s → preCheck op q s = some (st, r) →
    Answers i s (OnlyCompletes q st r s)

/-- References and limits of a group change only at the setpoint gate (R12). Beside it the device's own configuration changes and the reset
of the main die take each to 0 or keep it; a GROUP_RELEASE, after which a group that was HELD or LOCKED runs with reference 0 (R15), takes its
own group's reference to 0 or keeps it, and keeps every limit; every other command keeps all of them. -/
def Obligations.ReferencesChangeOnlyAtTheGate : Prop :=
  ∀ (i : Instr) (s t : State), exec i s = .next t → (∀ bad, i ≠ .setpointGate bad) →
    (∀ g, ((t.lane g).bankRef = (s.lane g).bankRef ∨ (t.lane g).bankRef = 0) ∧
      ((t.lane g).bankLim = (s.lane g).bankLim ∨ (t.lane g).bankLim = 0)) ∧
    (∀ q, i = .groupRelease q → ∀ g, (t.lane g).bankLim = (s.lane g).bankLim ∧
      (g ≠ sd q 1 → (t.lane g).bankRef = (s.lane g).bankRef)) ∧
    ((∀ bad, i ≠ .epochBoundary bad) → (∀ q, i ≠ .bisqueEnter q) → (∀ bad, i ≠ .bisqueEntry bad) → (∀ n, i ≠ .watchdogMiss n) →
      i ≠ .deviceResetOrder → i ≠ .updateRestartReset → i ≠ .powerFail → (∀ q, i ≠ .groupRelease q) → RefsKept s t)

/-- The measurement stands apart (R14, R310): no host command of either function changes an accumulator or a residue of SGM, and no
command of PF0 changes anything of SGM, BTE or MSS. -/
def Obligations.HostCommandsLeaveTheMeasurementAlone : Prop :=
  ∀ (i : Instr) (op : Nat) (q : Sqe) (s t : State), hostOf i = some (op, q) → exec i s = .next t →
    t.sgm.acc = s.sgm.acc ∧ t.sgm.res = s.sgm.res ∧ (op < 0xA0 → t.sgm = s.sgm ∧ t.bte = s.bte ∧ t.mss = s.mss)

/-! ### Statements made of several parts -/

/-- NOP, IDENTIFY, EVENT_CQ_SET, SQ_DELETE and ABORT (R83, R85, R86, R97, R98).
What becomes of a command not yet fetched at SQ_DELETE, and what its own and an ABORT's completion wait for, is log entry 7: the model's
choice.
Each of these commands is shown to complete, that is, to answer a next state with its own effect: nop, sqDelete,
eventCqSet, identify, abort. -/
def Obligations.QueueAdministration : Prop := Claim.NopAndIdentify ∧ Claim.EventCqSet ∧ Claim.DeleteAndAbort

/-- HQE_ENABLE and HQE_DISABLE, doorbells, register reads and writes, and what a function’s registers hold at reset (R80, R81, R499, R500).
Which doorbell and register writes are ignored beyond the rules' words is log entry 7, the layout of the configuration space log entry
8: the model's choice.
Each of these commands is shown to complete, that is, to answer a next state with its own effect: hqeEnable,
hqeDisable, sqTailDoorbell, cqHeadDoorbell, saggarMissClear, pf1TunnelRead, pf1TunnelWrite, registerWrite. -/
def Obligations.DoorbellsAndRegisters : Prop := Claim.EnableAndDisable ∧ Claim.Doorbells ∧ Claim.RegisterAccess ∧ Claim.RegistersAtReset

/-- From a doorbell to the owning island: the SQE’s fetch, the host reads, the forwarding (R82, R93, R94, R110).
Which tag a read takes and when a command counts as accepted is log entry 7: the model's choice.
Each of these commands is shown to complete, that is, to answer a next state with its own effect: sqeFetch,
sqeForward, hostReadCompletion, dmaCompletionTimeout. -/
def Obligations.CommandFetch : Prop := Claim.SqeFetch ∧ Claim.HostReads ∧ Claim.SqeForward

/-- Completions and events posted, the vectors’ timers, the Saggar’s answers (R89, R97, R105 to R109, R77).
The order of the events that one command raises is log entry 36: the model's choice.
Each of these commands is shown to complete, that is, to answer a next state with its own effect: cqePost,
coalescingTimeExpiry, eventVectorHoldoffEnd, eventCqePost, tunnelAnswer, tunnelTimeout, msixUnmask. -/
def Obligations.CompletionPosting : Prop := Claim.Posting ∧ Claim.VectorTimers ∧ Claim.TunnelAnswers

/-- TILE_ALLOC, which allocates all or nothing (R121, R122).
Each of these commands is shown to complete, that is, to answer a next state with its own effect: tileAlloc. -/
def Obligations.TileAllocation : Prop := Claim.TileAlloc ∧ Claim.TileAllocAllOrNone

/-- The life of a host tile, and tiles that fail their check (R120 to R126).
Which spare is taken and which handles lock a tile is log entry 17: the model's choice.
Each of these commands is shown to complete, that is, to answer a next state with its own effect: tileWrite,
tileClose, tileRead, tileFree, pairRestore. -/
def Obligations.TileLife : Prop := Claim.HostTileLife ∧ Claim.Retirement

/-- Stream channels: opened, fed with buffers, delivered, closed (R127 to R136).
Which spare, which tile and which record ends a tile is log entry 17: the model's choice.
Each of these commands is shown to complete, that is, to answer a next state with its own effect: streamOpen,
streamBuffer, streamClose, streamTileDelivery, streamTileFlush, streamBufferFlush. -/
def Obligations.Streams : Prop := Claim.StreamOpenAndBuffer ∧ Claim.StreamDelivery ∧ Claim.StreamClose

/-- The ledger commands and the credit messages of the Saggar (R144, R162, R170).
The corners of the ledger's commands are log entry 18: the model's choice.
Each of these commands is shown to complete, that is, to answer a next state with its own effect: ledgerWrite,
ledgerRead, planRead, restRequest, restExpiry, creditMessage. -/
def Obligations.LedgerAndCredit : Prop := Claim.LedgerCommands ∧ Claim.CreditMessages

/-- The epoch’s cycle: snapshot, plan, gate, and a plan that comes late (R145 to R160).
What a ZERO plan shows and where a session's run starts is log entry 18: the model's choice.
Each of these commands is shown to complete, that is, to answer a next state with its own effect: epochBoundary,
replanComplete, setpointGate, writeWindowClose. -/
def Obligations.EpochsAndPlans : Prop := Claim.EpochCycle ∧ Claim.LatePlan

/-- A lane’s firing, its misses, and the command collector (R172 to R196).
The places of a sample's characters are log entry 9, what a held command carries is log entry 20: the model's choice.
Each of these commands is shown to complete, that is, to answer a next state with its own effect: firing,
firingDeadline, collectorSlot. -/
def Obligations.LaneFirings : Prop := Claim.Firings ∧ Claim.FiringMisses ∧ Claim.CollectorSlots

/-- A phase group’s capacity, shedding, retries and latches (R202 to R215).
The corners of a release and of a retry are log entry 20: the model's choice.
Each of these commands is shown to complete, that is, to answer a next state with its own effect: shedTick,
capacityDelivery, groupRetryTimer, groupRetryClear, latchReport. -/
def Obligations.GroupConduct : Prop := Claim.CapacityAndShedding ∧ Claim.RetriesAndLatches

/-- The phase-link commands and a training attempt (R220 to R229).
Where a frame stands on the line and which moments are open are log entry 9: the model's choice.
Each of these commands is shown to complete, that is, to answer a next state with its own effect: linkStatus,
linkRetrain, linkMgmt, linkDisable, trainingAttempt, trainingStepTimeout, retrainDelay, echoAnswer, mgmtFrame,
mgmtTimeout, lockStepPass. -/
def Obligations.LinkConduct : Prop := Claim.LinkCommands ∧ Claim.LinkTraining

/-- SAMPLE frames, the line code and the line’s other characters (R217 to R242).
Where a frame stands on the line, and which of its code errors are counted when, is log entry 9: the model's choice.
Each of these commands is shown to complete, that is, to answer a next state with its own effect: sampleFrame,
frameMissing, commandFrame, mgmtFrame, mgmtSend, mgmtTimeout, codeError, lossOfSignal, commaOffAlignment. -/
def Obligations.LinkFrames : Prop := Claim.SampleFrames ∧ Claim.LineCode ∧ Claim.LinkLine

/-- The pilot commands and a dispenser port’s states (R245 to R262).
The corners of a pilot's evaluation are log entry 22, inputs of one cycle log entry 36: the model's choice.
Each of these commands is shown to complete, that is, to answer a next state with its own effect: portStatus,
pilotSet, pilotChangeEffect, pilotBandAccept, diodeFaultAccept, diodeFaultClear, proximityBandAccept. -/
def Obligations.PortConduct : Prop := Claim.PilotCommands ∧ Claim.PortStates

/-- Vehicle frames and the modem (R263 to R268).
A frame's padding and its FCS are log entry 10 (PRESUMED, DEDUCED): the model's choice.
Each of these commands is shown to complete, that is, to answer a next state with its own effect: frameTx,
frameRxBuffer, vehicleFrameRx, vehicleFrameDelivery, vehicleFrameSent, modemStatusPoll, modemResetEnd, modemIrq. -/
def Obligations.VehicleLink : Prop := Claim.VehicleFrames ∧ Claim.ModemStatus

/-- A thermal tick and the caps it gives the site plan (R272 to R283).
The corners of a tick are log entry 23: the model's choice.
Each of these commands is shown to complete, that is, to answer a next state with its own effect: thermalTick,
graceExpiry. -/
def Obligations.ThermalConduct : Prop := Claim.ThermalTick ∧ Claim.ThermalCaps

/-- The TCM commands, the flow second and FORCE_ON (R283 to R290).
The corners of cooling control are log entry 23: the model's choice.
Each of these commands is shown to complete, that is, to answer a next state with its own effect: thermalStatus,
latchClear, aqauxSet, aqauxForceExpiry, flowSecond. -/
def Obligations.CoolingCommands : Prop := Claim.ThermalCommands ∧ Claim.FlowAndForce

/-- Load-switch protection and supply (R295 to R307).
What a channel does without records in force, at a dip's end and at a PWM edge is log entry 24: the model's choice.
Each of these commands is shown to complete, that is, to answer a next state with its own effect: inrushWindowEnd,
channelTrip, channelRetryWaitEnd, channelRetryClear, clampBudgetDrain, freewheelMissing, supplyDip, dipEnd,
lsSupplyLoss, lsSupplyRestore, lsSelChange, pwmPeriodStart. -/
def Obligations.SwitchConduct : Prop := Claim.SwitchProtection ∧ Claim.SwitchSupply

/-- Battery mode with its saves, and the measurement crossing (R331 to R344).
The corners of battery mode and of the crossing are log entry 25: the model's choice.
Each of these commands is shown to complete, that is, to answer a next state with its own effect: saggarSupplyLoss,
batteryWindow, saggarSupplyReturn, settlingEnd, cellCutoff, periodicSave, saggarPowerOn, measurementSummarySend,
measurementSummary. -/
def Obligations.BatteryAndCrossing : Prop := Claim.BatteryMode ∧ Claim.MeasurementCrossing

/-- The BSE commands and a string’s millisecond (R391 to R407).
The corners of a string's estimate are log entry 28: the model's choice.
Each of these commands is shown to complete, that is, to answer a next state with its own effect: stringStatus,
impedanceRead, capacitySet, bseUpdate. -/
def Obligations.StringEstimates : Prop := Claim.StringCommands ∧ Claim.StringMillisecond

/-- Belfry exchanges and the line under them (R410 to R422).
An answer's place behind repeaters, the floor's moments and the prediction behind a missed crossing are log entry 29: the model's
choice.
Each of these commands is shown to complete, that is, to answer a next state with its own effect: zeroCrossing,
zeroCrossingMissed, belfryRequest, belfryFrameRx, answerTimeout. -/
def Obligations.BelfryConduct : Prop := Claim.BelfryExchanges ∧ Claim.BelfryLine

/-- The recorder’s samples, closes and records (R427 to R442).
When a sector is erased, how a commit's close waits, and when the check after a switch ends is log entry 30: the model's choice.
Each of these commands is shown to complete, that is, to answer a next state with its own effect: evrSample,
evrPeriodClose, recordWrite, recordWriteDone, evrRestoreDone, evrRefillDone, degradedExtremesSave. -/
def Obligations.RecorderConduct : Prop := Claim.RecorderSamples ∧ Claim.RecorderWrites

/-- S-time, the fault journal, ship mode and DEVICE_RESET (R71 to R73, R508 to R510).
What ends with ship mode is log entry 12, the order at a reset log entry 31, the end of a slew log entry 33: the model's choice.
Each of these commands is shown to complete, that is, to answer a next state with its own effect: shipEnter,
shipCancel, timeSet, slewEnd, journalRead, deviceReset, deviceResetOrder, powerFail. -/
def Obligations.ShipModeAndTime : Prop := Claim.TimeAndJournal ∧ Claim.ShipAndReset

/-- Power, hold-up, start-up, the watchdog and PERST# (R35, R45 to R54, R100, R452, R491).
What waits for the hold-up is log entry 12, the order at a reset log entry 31: the model's choice.
Each of these commands is shown to complete, that is, to answer a next state with its own effect: bisqueEnter,
powerGood, powerFail, holdupReady, firmwareReadDone, bisqueEntry, islandReady, watchdogMiss, mainDieHoldEnd,
perstAssert, perstDeassert, holdupRunOut, reserveReady, pcieLinkUp, tileStoreReady. -/
def Obligations.PowerAndStartUp : Prop := Claim.Power ∧ Claim.StartUp ∧ Claim.WatchdogAndPerst

/-- CONFIG_COMMIT, CONFIG_ABORT and the admission at an epoch boundary (R62 to R68, R21).
What a commit's end leaves in the device, and which moments the commands of the world mark, is log entries 12 and 13: the model's
choice.
Each of these commands is shown to complete, that is, to answer a next state with its own effect: configCommit,
commitValidationDone, configAbort, bisqueStore, epochBoundary. -/
def Obligations.ConfigurationChange : Prop := Claim.ConfigCommits ∧ Claim.Admission

/-- Firmware staged, switched, tried and rolled back (R447 to R453).
The order of an image's checks, and what a failed stage or a rollback leaves, is log entry 32: the model's choice.
Each of these commands is shown to complete, that is, to answer a next state with its own effect: updateStage,
updateStageDone, updateSwitch, updateRollback, islandBankSwitch, updateRestartReset, trialEnd, islandReady. -/
def Obligations.FirmwareInService : Prop := Claim.UpdateStaging ∧ Claim.UpdateCourse

/-- Every command, in every state, answers a next state, and leaves the queue of waiting commands as it is: the block never stops
on a command.
The commands it names are all 239 constructors of Instr: nop, cqCreate, sqCreate, sqDelete, cqDelete, eventCqSet,
cqModerate, identify, abort, hqeEnable, hqeDisable, sqTailDoorbell, cqHeadDoorbell, saggarMissClear, pf1TunnelRead,
pf1TunnelWrite, registerWrite, sqeFetch, sqeForward, cqePost, coalescingTimeExpiry, eventVectorHoldoffEnd,
eventCqePost, hostReadCompletion, dmaCompletionTimeout, tunnelAnswer, tunnelTimeout, tileAlloc, tileWrite,
tileClose, tileRead, tileFree, pairRestore, streamOpen, streamBuffer, streamClose, streamTileDelivery,
streamTileFlush, streamBufferFlush, configCommit, commitValidationDone, configAbort, bisqueStore, bisqueSlotWritten,
bisqueEnter, shipEnter, shipCancel, timeSet, slewEnd, journalRead, deviceReset, deviceResetOrder, updateStage,
updateStageDone, updateSwitch, updateRollback, islandBankSwitch, updateRestartReset, trialEnd, powerGood, powerFail,
holdupReady, firmwareReadDone, bisqueEntry, islandReady, watchdogMiss, mainDieHoldEnd, perstAssert, perstDeassert,
saggarLinkFrame, saggarLinkProbe, sessionStart, sessionStop, sessionModify, ledgerWrite, ledgerRead, planRead,
restRequest, restExpiry, epochBoundary, replanComplete, setpointGate, writeWindowClose, creditMessage, kilnStatus,
coeffStage, kilnCounts, captureSet, sampleFrame, frameMissing, firing, firingDeadline, collectorSlot, commandFrame,
groupStatus, groupRelease, groupCounts, shedTick, capacityDelivery, groupRetryTimer, groupRetryClear, latchReport,
linkStatus, linkRetrain, linkMgmt, linkDisable, trainingAttempt, trainingStepTimeout, retrainDelay, echoAnswer,
mgmtFrame, mgmtSend, mgmtTimeout, codeError, lossOfSignal, portStatus, pilotSet, pilotChangeEffect, pilotBandAccept,
diodeFaultAccept, diodeFaultClear, proximityBandAccept, frameTx, frameRxBuffer, vehicleFrameRx,
vehicleFrameDelivery, vehicleFrameSent, modemStatusPoll, modemResetEnd, modemIrq, thermalStatus, latchClear,
aqauxSet, aqauxForceExpiry, thermalTick, graceExpiry, flowSecond, switchSet, switchStatus, lockoutClear,
inrushWindowEnd, channelTrip, channelRetryWaitEnd, channelRetryClear, clampBudgetDrain, freewheelMissing, supplyDip,
dipEnd, lsSupplyLoss, lsSupplyRestore, lsSelChange, stringStatus, impedanceRead, capacitySet, bseUpdate,
restCorrection, estDriftEntry, bseJournalWrite, impedanceSave, cellEstimate, cellStateMessage, cellStateStale,
energyRead, instantRead, pulseConfig, sgmSample, blockEnd, channelFault, channelFaultClear, s0Pulse,
saggarSupplyLoss, batteryWindow, saggarSupplyReturn, settlingEnd, cellCutoff, periodicSave, saggarPowerOn,
measurementSummarySend, measurementSummary, registerRead, calendarWrite, clockSet, tokenEnter, creditRead,
intervalRead, openMessage, closeMessage, resyncMessage, intervalClose, periodClose, calendarActivation,
tariffSwitch, midnightSwitchList, keypadToken, relayedToken, keypadLockoutEnd, keyExport, recordRead, logRead,
sealBeginOpen, sealBeginLoad, sealBeginClose, sealBeginAbandon, sealTimeout, saggarRollback, shipAuthorise,
shipAuthLapse, identRead, coverOpen, coverClose, opticalRequest, displayLine, belfryStatus, nodeSend, routeRead,
nodeJoin, zeroCrossing, zeroCrossingMissed, belfryRequest, belfryFrameRx, answerTimeout, windowRead, recorderStatus,
evrSample, evrPeriodClose, recordWrite, recordWriteDone, evrRestoreDone, evrRefillDone, degradedExtremesSave,
holdupRunOut, reserveReady, lockStepPass, commaOffAlignment, pcieLinkUp, tileStoreReady, saggarRestartDone,
pwmPeriodStart, msixUnmask. -/
def Obligations.EveryCommandAnswers : Prop :=
  ∀ (i : Instr) (s : State), Answers i s (fun t => t.pending = s.pending)

/-- The load-switch invariant holds at reset (R296, R301). -/
def Obligations.LoadSwitchesOkAtReset : Prop := LoadSwitchesOk State.reset
end

