-- ==== Sys2Proof/Laws/State.lean ====
section
/-! SUPPORT. What one part of the state changed leaves of the others: one lemma for each field of the state and each of the
updates of the operations files. -/

namespace Sys2Proof.Machine

open Sys2Proof

section onHqe
variable (f : Hqe → Hqe) (s : State)
@[simp] theorem State.onHqe_hqe : (s.onHqe f).hqe = f s.hqe := rfl
@[simp] theorem State.onHqe_tmf : (s.onHqe f).tmf = s.tmf := rfl
@[simp] theorem State.onHqe_sup : (s.onHqe f).sup = s.sup := rfl
@[simp] theorem State.onHqe_lnk : (s.onHqe f).lnk = s.lnk := rfl
@[simp] theorem State.onHqe_cfg : (s.onHqe f).cfg = s.cfg := rfl
@[simp] theorem State.onHqe_spa : (s.onHqe f).spa = s.spa := rfl
@[simp] theorem State.onHqe_kce : (s.onHqe f).kce = s.kce := rfl
@[simp] theorem State.onHqe_psc : (s.onHqe f).psc = s.psc := rfl
@[simp] theorem State.onHqe_pla : (s.onHqe f).pla = s.pla := rfl
@[simp] theorem State.onHqe_vpc : (s.onHqe f).vpc = s.vpc := rfl
@[simp] theorem State.onHqe_tcm : (s.onHqe f).tcm = s.tcm := rfl
@[simp] theorem State.onHqe_lsw : (s.onHqe f).lsw = s.lsw := rfl
@[simp] theorem State.onHqe_bse : (s.onHqe f).bse = s.bse := rfl
@[simp] theorem State.onHqe_cell : (s.onHqe f).cell = s.cell := rfl
@[simp] theorem State.onHqe_sgm : (s.onHqe f).sgm = s.sgm := rfl
@[simp] theorem State.onHqe_bte : (s.onHqe f).bte = s.bte := rfl
@[simp] theorem State.onHqe_mss : (s.onHqe f).mss = s.mss := rfl
@[simp] theorem State.onHqe_shelf : (s.onHqe f).shelf = s.shelf := rfl
@[simp] theorem State.onHqe_blk : (s.onHqe f).blk = s.blk := rfl
@[simp] theorem State.onHqe_evr : (s.onHqe f).evr = s.evr := rfl
@[simp] theorem State.onHqe_out : (s.onHqe f).out = s.out := rfl
@[simp] theorem State.onHqe_cur : (s.onHqe f).cur = s.cur := rfl
@[simp] theorem State.onHqe_free : (s.onHqe f).free = s.free := rfl
@[simp] theorem State.onHqe_pending : (s.onHqe f).pending = s.pending := rfl
end onHqe

section onTmf
variable (f : Tmf → Tmf) (s : State)
@[simp] theorem State.onTmf_hqe : (s.onTmf f).hqe = s.hqe := rfl
@[simp] theorem State.onTmf_tmf : (s.onTmf f).tmf = f s.tmf := rfl
@[simp] theorem State.onTmf_sup : (s.onTmf f).sup = s.sup := rfl
@[simp] theorem State.onTmf_lnk : (s.onTmf f).lnk = s.lnk := rfl
@[simp] theorem State.onTmf_cfg : (s.onTmf f).cfg = s.cfg := rfl
@[simp] theorem State.onTmf_spa : (s.onTmf f).spa = s.spa := rfl
@[simp] theorem State.onTmf_kce : (s.onTmf f).kce = s.kce := rfl
@[simp] theorem State.onTmf_psc : (s.onTmf f).psc = s.psc := rfl
@[simp] theorem State.onTmf_pla : (s.onTmf f).pla = s.pla := rfl
@[simp] theorem State.onTmf_vpc : (s.onTmf f).vpc = s.vpc := rfl
@[simp] theorem State.onTmf_tcm : (s.onTmf f).tcm = s.tcm := rfl
@[simp] theorem State.onTmf_lsw : (s.onTmf f).lsw = s.lsw := rfl
@[simp] theorem State.onTmf_bse : (s.onTmf f).bse = s.bse := rfl
@[simp] theorem State.onTmf_cell : (s.onTmf f).cell = s.cell := rfl
@[simp] theorem State.onTmf_sgm : (s.onTmf f).sgm = s.sgm := rfl
@[simp] theorem State.onTmf_bte : (s.onTmf f).bte = s.bte := rfl
@[simp] theorem State.onTmf_mss : (s.onTmf f).mss = s.mss := rfl
@[simp] theorem State.onTmf_shelf : (s.onTmf f).shelf = s.shelf := rfl
@[simp] theorem State.onTmf_blk : (s.onTmf f).blk = s.blk := rfl
@[simp] theorem State.onTmf_evr : (s.onTmf f).evr = s.evr := rfl
@[simp] theorem State.onTmf_out : (s.onTmf f).out = s.out := rfl
@[simp] theorem State.onTmf_cur : (s.onTmf f).cur = s.cur := rfl
@[simp] theorem State.onTmf_free : (s.onTmf f).free = s.free := rfl
@[simp] theorem State.onTmf_pending : (s.onTmf f).pending = s.pending := rfl
end onTmf

section onSup
variable (f : Sup → Sup) (s : State)
@[simp] theorem State.onSup_hqe : (s.onSup f).hqe = s.hqe := rfl
@[simp] theorem State.onSup_tmf : (s.onSup f).tmf = s.tmf := rfl
@[simp] theorem State.onSup_sup : (s.onSup f).sup = f s.sup := rfl
@[simp] theorem State.onSup_lnk : (s.onSup f).lnk = s.lnk := rfl
@[simp] theorem State.onSup_cfg : (s.onSup f).cfg = s.cfg := rfl
@[simp] theorem State.onSup_spa : (s.onSup f).spa = s.spa := rfl
@[simp] theorem State.onSup_kce : (s.onSup f).kce = s.kce := rfl
@[simp] theorem State.onSup_psc : (s.onSup f).psc = s.psc := rfl
@[simp] theorem State.onSup_pla : (s.onSup f).pla = s.pla := rfl
@[simp] theorem State.onSup_vpc : (s.onSup f).vpc = s.vpc := rfl
@[simp] theorem State.onSup_tcm : (s.onSup f).tcm = s.tcm := rfl
@[simp] theorem State.onSup_lsw : (s.onSup f).lsw = s.lsw := rfl
@[simp] theorem State.onSup_bse : (s.onSup f).bse = s.bse := rfl
@[simp] theorem State.onSup_cell : (s.onSup f).cell = s.cell := rfl
@[simp] theorem State.onSup_sgm : (s.onSup f).sgm = s.sgm := rfl
@[simp] theorem State.onSup_bte : (s.onSup f).bte = s.bte := rfl
@[simp] theorem State.onSup_mss : (s.onSup f).mss = s.mss := rfl
@[simp] theorem State.onSup_shelf : (s.onSup f).shelf = s.shelf := rfl
@[simp] theorem State.onSup_blk : (s.onSup f).blk = s.blk := rfl
@[simp] theorem State.onSup_evr : (s.onSup f).evr = s.evr := rfl
@[simp] theorem State.onSup_out : (s.onSup f).out = s.out := rfl
@[simp] theorem State.onSup_cur : (s.onSup f).cur = s.cur := rfl
@[simp] theorem State.onSup_free : (s.onSup f).free = s.free := rfl
@[simp] theorem State.onSup_pending : (s.onSup f).pending = s.pending := rfl
end onSup

section onLnk
variable (f : SgLink → SgLink) (s : State)
@[simp] theorem State.onLnk_hqe : (s.onLnk f).hqe = s.hqe := rfl
@[simp] theorem State.onLnk_tmf : (s.onLnk f).tmf = s.tmf := rfl
@[simp] theorem State.onLnk_sup : (s.onLnk f).sup = s.sup := rfl
@[simp] theorem State.onLnk_lnk : (s.onLnk f).lnk = f s.lnk := rfl
@[simp] theorem State.onLnk_cfg : (s.onLnk f).cfg = s.cfg := rfl
@[simp] theorem State.onLnk_spa : (s.onLnk f).spa = s.spa := rfl
@[simp] theorem State.onLnk_kce : (s.onLnk f).kce = s.kce := rfl
@[simp] theorem State.onLnk_psc : (s.onLnk f).psc = s.psc := rfl
@[simp] theorem State.onLnk_pla : (s.onLnk f).pla = s.pla := rfl
@[simp] theorem State.onLnk_vpc : (s.onLnk f).vpc = s.vpc := rfl
@[simp] theorem State.onLnk_tcm : (s.onLnk f).tcm = s.tcm := rfl
@[simp] theorem State.onLnk_lsw : (s.onLnk f).lsw = s.lsw := rfl
@[simp] theorem State.onLnk_bse : (s.onLnk f).bse = s.bse := rfl
@[simp] theorem State.onLnk_cell : (s.onLnk f).cell = s.cell := rfl
@[simp] theorem State.onLnk_sgm : (s.onLnk f).sgm = s.sgm := rfl
@[simp] theorem State.onLnk_bte : (s.onLnk f).bte = s.bte := rfl
@[simp] theorem State.onLnk_mss : (s.onLnk f).mss = s.mss := rfl
@[simp] theorem State.onLnk_shelf : (s.onLnk f).shelf = s.shelf := rfl
@[simp] theorem State.onLnk_blk : (s.onLnk f).blk = s.blk := rfl
@[simp] theorem State.onLnk_evr : (s.onLnk f).evr = s.evr := rfl
@[simp] theorem State.onLnk_out : (s.onLnk f).out = s.out := rfl
@[simp] theorem State.onLnk_cur : (s.onLnk f).cur = s.cur := rfl
@[simp] theorem State.onLnk_free : (s.onLnk f).free = s.free := rfl
@[simp] theorem State.onLnk_pending : (s.onLnk f).pending = s.pending := rfl
end onLnk

section onSpa
variable (f : Spa → Spa) (s : State)
@[simp] theorem State.onSpa_hqe : (s.onSpa f).hqe = s.hqe := rfl
@[simp] theorem State.onSpa_tmf : (s.onSpa f).tmf = s.tmf := rfl
@[simp] theorem State.onSpa_sup : (s.onSpa f).sup = s.sup := rfl
@[simp] theorem State.onSpa_lnk : (s.onSpa f).lnk = s.lnk := rfl
@[simp] theorem State.onSpa_cfg : (s.onSpa f).cfg = s.cfg := rfl
@[simp] theorem State.onSpa_spa : (s.onSpa f).spa = f s.spa := rfl
@[simp] theorem State.onSpa_kce : (s.onSpa f).kce = s.kce := rfl
@[simp] theorem State.onSpa_psc : (s.onSpa f).psc = s.psc := rfl
@[simp] theorem State.onSpa_pla : (s.onSpa f).pla = s.pla := rfl
@[simp] theorem State.onSpa_vpc : (s.onSpa f).vpc = s.vpc := rfl
@[simp] theorem State.onSpa_tcm : (s.onSpa f).tcm = s.tcm := rfl
@[simp] theorem State.onSpa_lsw : (s.onSpa f).lsw = s.lsw := rfl
@[simp] theorem State.onSpa_bse : (s.onSpa f).bse = s.bse := rfl
@[simp] theorem State.onSpa_cell : (s.onSpa f).cell = s.cell := rfl
@[simp] theorem State.onSpa_sgm : (s.onSpa f).sgm = s.sgm := rfl
@[simp] theorem State.onSpa_bte : (s.onSpa f).bte = s.bte := rfl
@[simp] theorem State.onSpa_mss : (s.onSpa f).mss = s.mss := rfl
@[simp] theorem State.onSpa_shelf : (s.onSpa f).shelf = s.shelf := rfl
@[simp] theorem State.onSpa_blk : (s.onSpa f).blk = s.blk := rfl
@[simp] theorem State.onSpa_evr : (s.onSpa f).evr = s.evr := rfl
@[simp] theorem State.onSpa_out : (s.onSpa f).out = s.out := rfl
@[simp] theorem State.onSpa_cur : (s.onSpa f).cur = s.cur := rfl
@[simp] theorem State.onSpa_free : (s.onSpa f).free = s.free := rfl
@[simp] theorem State.onSpa_pending : (s.onSpa f).pending = s.pending := rfl
end onSpa

section onKce
variable (f : Kce → Kce) (s : State)
@[simp] theorem State.onKce_hqe : (s.onKce f).hqe = s.hqe := rfl
@[simp] theorem State.onKce_tmf : (s.onKce f).tmf = s.tmf := rfl
@[simp] theorem State.onKce_sup : (s.onKce f).sup = s.sup := rfl
@[simp] theorem State.onKce_lnk : (s.onKce f).lnk = s.lnk := rfl
@[simp] theorem State.onKce_cfg : (s.onKce f).cfg = s.cfg := rfl
@[simp] theorem State.onKce_spa : (s.onKce f).spa = s.spa := rfl
@[simp] theorem State.onKce_kce : (s.onKce f).kce = f s.kce := rfl
@[simp] theorem State.onKce_psc : (s.onKce f).psc = s.psc := rfl
@[simp] theorem State.onKce_pla : (s.onKce f).pla = s.pla := rfl
@[simp] theorem State.onKce_vpc : (s.onKce f).vpc = s.vpc := rfl
@[simp] theorem State.onKce_tcm : (s.onKce f).tcm = s.tcm := rfl
@[simp] theorem State.onKce_lsw : (s.onKce f).lsw = s.lsw := rfl
@[simp] theorem State.onKce_bse : (s.onKce f).bse = s.bse := rfl
@[simp] theorem State.onKce_cell : (s.onKce f).cell = s.cell := rfl
@[simp] theorem State.onKce_sgm : (s.onKce f).sgm = s.sgm := rfl
@[simp] theorem State.onKce_bte : (s.onKce f).bte = s.bte := rfl
@[simp] theorem State.onKce_mss : (s.onKce f).mss = s.mss := rfl
@[simp] theorem State.onKce_shelf : (s.onKce f).shelf = s.shelf := rfl
@[simp] theorem State.onKce_blk : (s.onKce f).blk = s.blk := rfl
@[simp] theorem State.onKce_evr : (s.onKce f).evr = s.evr := rfl
@[simp] theorem State.onKce_out : (s.onKce f).out = s.out := rfl
@[simp] theorem State.onKce_cur : (s.onKce f).cur = s.cur := rfl
@[simp] theorem State.onKce_free : (s.onKce f).free = s.free := rfl
@[simp] theorem State.onKce_pending : (s.onKce f).pending = s.pending := rfl
end onKce

section onPsc
variable (f : Psc → Psc) (s : State)
@[simp] theorem State.onPsc_hqe : (s.onPsc f).hqe = s.hqe := rfl
@[simp] theorem State.onPsc_tmf : (s.onPsc f).tmf = s.tmf := rfl
@[simp] theorem State.onPsc_sup : (s.onPsc f).sup = s.sup := rfl
@[simp] theorem State.onPsc_lnk : (s.onPsc f).lnk = s.lnk := rfl
@[simp] theorem State.onPsc_cfg : (s.onPsc f).cfg = s.cfg := rfl
@[simp] theorem State.onPsc_spa : (s.onPsc f).spa = s.spa := rfl
@[simp] theorem State.onPsc_kce : (s.onPsc f).kce = s.kce := rfl
@[simp] theorem State.onPsc_psc : (s.onPsc f).psc = f s.psc := rfl
@[simp] theorem State.onPsc_pla : (s.onPsc f).pla = s.pla := rfl
@[simp] theorem State.onPsc_vpc : (s.onPsc f).vpc = s.vpc := rfl
@[simp] theorem State.onPsc_tcm : (s.onPsc f).tcm = s.tcm := rfl
@[simp] theorem State.onPsc_lsw : (s.onPsc f).lsw = s.lsw := rfl
@[simp] theorem State.onPsc_bse : (s.onPsc f).bse = s.bse := rfl
@[simp] theorem State.onPsc_cell : (s.onPsc f).cell = s.cell := rfl
@[simp] theorem State.onPsc_sgm : (s.onPsc f).sgm = s.sgm := rfl
@[simp] theorem State.onPsc_bte : (s.onPsc f).bte = s.bte := rfl
@[simp] theorem State.onPsc_mss : (s.onPsc f).mss = s.mss := rfl
@[simp] theorem State.onPsc_shelf : (s.onPsc f).shelf = s.shelf := rfl
@[simp] theorem State.onPsc_blk : (s.onPsc f).blk = s.blk := rfl
@[simp] theorem State.onPsc_evr : (s.onPsc f).evr = s.evr := rfl
@[simp] theorem State.onPsc_out : (s.onPsc f).out = s.out := rfl
@[simp] theorem State.onPsc_cur : (s.onPsc f).cur = s.cur := rfl
@[simp] theorem State.onPsc_free : (s.onPsc f).free = s.free := rfl
@[simp] theorem State.onPsc_pending : (s.onPsc f).pending = s.pending := rfl
end onPsc

section onPla
variable (f : Pla → Pla) (s : State)
@[simp] theorem State.onPla_hqe : (s.onPla f).hqe = s.hqe := rfl
@[simp] theorem State.onPla_tmf : (s.onPla f).tmf = s.tmf := rfl
@[simp] theorem State.onPla_sup : (s.onPla f).sup = s.sup := rfl
@[simp] theorem State.onPla_lnk : (s.onPla f).lnk = s.lnk := rfl
@[simp] theorem State.onPla_cfg : (s.onPla f).cfg = s.cfg := rfl
@[simp] theorem State.onPla_spa : (s.onPla f).spa = s.spa := rfl
@[simp] theorem State.onPla_kce : (s.onPla f).kce = s.kce := rfl
@[simp] theorem State.onPla_psc : (s.onPla f).psc = s.psc := rfl
@[simp] theorem State.onPla_pla : (s.onPla f).pla = f s.pla := rfl
@[simp] theorem State.onPla_vpc : (s.onPla f).vpc = s.vpc := rfl
@[simp] theorem State.onPla_tcm : (s.onPla f).tcm = s.tcm := rfl
@[simp] theorem State.onPla_lsw : (s.onPla f).lsw = s.lsw := rfl
@[simp] theorem State.onPla_bse : (s.onPla f).bse = s.bse := rfl
@[simp] theorem State.onPla_cell : (s.onPla f).cell = s.cell := rfl
@[simp] theorem State.onPla_sgm : (s.onPla f).sgm = s.sgm := rfl
@[simp] theorem State.onPla_bte : (s.onPla f).bte = s.bte := rfl
@[simp] theorem State.onPla_mss : (s.onPla f).mss = s.mss := rfl
@[simp] theorem State.onPla_shelf : (s.onPla f).shelf = s.shelf := rfl
@[simp] theorem State.onPla_blk : (s.onPla f).blk = s.blk := rfl
@[simp] theorem State.onPla_evr : (s.onPla f).evr = s.evr := rfl
@[simp] theorem State.onPla_out : (s.onPla f).out = s.out := rfl
@[simp] theorem State.onPla_cur : (s.onPla f).cur = s.cur := rfl
@[simp] theorem State.onPla_free : (s.onPla f).free = s.free := rfl
@[simp] theorem State.onPla_pending : (s.onPla f).pending = s.pending := rfl
end onPla

section onVpc
variable (f : Vpc → Vpc) (s : State)
@[simp] theorem State.onVpc_hqe : (s.onVpc f).hqe = s.hqe := rfl
@[simp] theorem State.onVpc_tmf : (s.onVpc f).tmf = s.tmf := rfl
@[simp] theorem State.onVpc_sup : (s.onVpc f).sup = s.sup := rfl
@[simp] theorem State.onVpc_lnk : (s.onVpc f).lnk = s.lnk := rfl
@[simp] theorem State.onVpc_cfg : (s.onVpc f).cfg = s.cfg := rfl
@[simp] theorem State.onVpc_spa : (s.onVpc f).spa = s.spa := rfl
@[simp] theorem State.onVpc_kce : (s.onVpc f).kce = s.kce := rfl
@[simp] theorem State.onVpc_psc : (s.onVpc f).psc = s.psc := rfl
@[simp] theorem State.onVpc_pla : (s.onVpc f).pla = s.pla := rfl
@[simp] theorem State.onVpc_vpc : (s.onVpc f).vpc = f s.vpc := rfl
@[simp] theorem State.onVpc_tcm : (s.onVpc f).tcm = s.tcm := rfl
@[simp] theorem State.onVpc_lsw : (s.onVpc f).lsw = s.lsw := rfl
@[simp] theorem State.onVpc_bse : (s.onVpc f).bse = s.bse := rfl
@[simp] theorem State.onVpc_cell : (s.onVpc f).cell = s.cell := rfl
@[simp] theorem State.onVpc_sgm : (s.onVpc f).sgm = s.sgm := rfl
@[simp] theorem State.onVpc_bte : (s.onVpc f).bte = s.bte := rfl
@[simp] theorem State.onVpc_mss : (s.onVpc f).mss = s.mss := rfl
@[simp] theorem State.onVpc_shelf : (s.onVpc f).shelf = s.shelf := rfl
@[simp] theorem State.onVpc_blk : (s.onVpc f).blk = s.blk := rfl
@[simp] theorem State.onVpc_evr : (s.onVpc f).evr = s.evr := rfl
@[simp] theorem State.onVpc_out : (s.onVpc f).out = s.out := rfl
@[simp] theorem State.onVpc_cur : (s.onVpc f).cur = s.cur := rfl
@[simp] theorem State.onVpc_free : (s.onVpc f).free = s.free := rfl
@[simp] theorem State.onVpc_pending : (s.onVpc f).pending = s.pending := rfl
end onVpc

section onTcm
variable (f : Tcm → Tcm) (s : State)
@[simp] theorem State.onTcm_hqe : (s.onTcm f).hqe = s.hqe := rfl
@[simp] theorem State.onTcm_tmf : (s.onTcm f).tmf = s.tmf := rfl
@[simp] theorem State.onTcm_sup : (s.onTcm f).sup = s.sup := rfl
@[simp] theorem State.onTcm_lnk : (s.onTcm f).lnk = s.lnk := rfl
@[simp] theorem State.onTcm_cfg : (s.onTcm f).cfg = s.cfg := rfl
@[simp] theorem State.onTcm_spa : (s.onTcm f).spa = s.spa := rfl
@[simp] theorem State.onTcm_kce : (s.onTcm f).kce = s.kce := rfl
@[simp] theorem State.onTcm_psc : (s.onTcm f).psc = s.psc := rfl
@[simp] theorem State.onTcm_pla : (s.onTcm f).pla = s.pla := rfl
@[simp] theorem State.onTcm_vpc : (s.onTcm f).vpc = s.vpc := rfl
@[simp] theorem State.onTcm_tcm : (s.onTcm f).tcm = f s.tcm := rfl
@[simp] theorem State.onTcm_lsw : (s.onTcm f).lsw = s.lsw := rfl
@[simp] theorem State.onTcm_bse : (s.onTcm f).bse = s.bse := rfl
@[simp] theorem State.onTcm_cell : (s.onTcm f).cell = s.cell := rfl
@[simp] theorem State.onTcm_sgm : (s.onTcm f).sgm = s.sgm := rfl
@[simp] theorem State.onTcm_bte : (s.onTcm f).bte = s.bte := rfl
@[simp] theorem State.onTcm_mss : (s.onTcm f).mss = s.mss := rfl
@[simp] theorem State.onTcm_shelf : (s.onTcm f).shelf = s.shelf := rfl
@[simp] theorem State.onTcm_blk : (s.onTcm f).blk = s.blk := rfl
@[simp] theorem State.onTcm_evr : (s.onTcm f).evr = s.evr := rfl
@[simp] theorem State.onTcm_out : (s.onTcm f).out = s.out := rfl
@[simp] theorem State.onTcm_cur : (s.onTcm f).cur = s.cur := rfl
@[simp] theorem State.onTcm_free : (s.onTcm f).free = s.free := rfl
@[simp] theorem State.onTcm_pending : (s.onTcm f).pending = s.pending := rfl
end onTcm

section onLsw
variable (f : Lsw → Lsw) (s : State)
@[simp] theorem State.onLsw_hqe : (s.onLsw f).hqe = s.hqe := rfl
@[simp] theorem State.onLsw_tmf : (s.onLsw f).tmf = s.tmf := rfl
@[simp] theorem State.onLsw_sup : (s.onLsw f).sup = s.sup := rfl
@[simp] theorem State.onLsw_lnk : (s.onLsw f).lnk = s.lnk := rfl
@[simp] theorem State.onLsw_cfg : (s.onLsw f).cfg = s.cfg := rfl
@[simp] theorem State.onLsw_spa : (s.onLsw f).spa = s.spa := rfl
@[simp] theorem State.onLsw_kce : (s.onLsw f).kce = s.kce := rfl
@[simp] theorem State.onLsw_psc : (s.onLsw f).psc = s.psc := rfl
@[simp] theorem State.onLsw_pla : (s.onLsw f).pla = s.pla := rfl
@[simp] theorem State.onLsw_vpc : (s.onLsw f).vpc = s.vpc := rfl
@[simp] theorem State.onLsw_tcm : (s.onLsw f).tcm = s.tcm := rfl
@[simp] theorem State.onLsw_lsw : (s.onLsw f).lsw = f s.lsw := rfl
@[simp] theorem State.onLsw_bse : (s.onLsw f).bse = s.bse := rfl
@[simp] theorem State.onLsw_cell : (s.onLsw f).cell = s.cell := rfl
@[simp] theorem State.onLsw_sgm : (s.onLsw f).sgm = s.sgm := rfl
@[simp] theorem State.onLsw_bte : (s.onLsw f).bte = s.bte := rfl
@[simp] theorem State.onLsw_mss : (s.onLsw f).mss = s.mss := rfl
@[simp] theorem State.onLsw_shelf : (s.onLsw f).shelf = s.shelf := rfl
@[simp] theorem State.onLsw_blk : (s.onLsw f).blk = s.blk := rfl
@[simp] theorem State.onLsw_evr : (s.onLsw f).evr = s.evr := rfl
@[simp] theorem State.onLsw_out : (s.onLsw f).out = s.out := rfl
@[simp] theorem State.onLsw_cur : (s.onLsw f).cur = s.cur := rfl
@[simp] theorem State.onLsw_free : (s.onLsw f).free = s.free := rfl
@[simp] theorem State.onLsw_pending : (s.onLsw f).pending = s.pending := rfl
end onLsw

section onBse
variable (f : Bse → Bse) (s : State)
@[simp] theorem State.onBse_hqe : (s.onBse f).hqe = s.hqe := rfl
@[simp] theorem State.onBse_tmf : (s.onBse f).tmf = s.tmf := rfl
@[simp] theorem State.onBse_sup : (s.onBse f).sup = s.sup := rfl
@[simp] theorem State.onBse_lnk : (s.onBse f).lnk = s.lnk := rfl
@[simp] theorem State.onBse_cfg : (s.onBse f).cfg = s.cfg := rfl
@[simp] theorem State.onBse_spa : (s.onBse f).spa = s.spa := rfl
@[simp] theorem State.onBse_kce : (s.onBse f).kce = s.kce := rfl
@[simp] theorem State.onBse_psc : (s.onBse f).psc = s.psc := rfl
@[simp] theorem State.onBse_pla : (s.onBse f).pla = s.pla := rfl
@[simp] theorem State.onBse_vpc : (s.onBse f).vpc = s.vpc := rfl
@[simp] theorem State.onBse_tcm : (s.onBse f).tcm = s.tcm := rfl
@[simp] theorem State.onBse_lsw : (s.onBse f).lsw = s.lsw := rfl
@[simp] theorem State.onBse_bse : (s.onBse f).bse = f s.bse := rfl
@[simp] theorem State.onBse_cell : (s.onBse f).cell = s.cell := rfl
@[simp] theorem State.onBse_sgm : (s.onBse f).sgm = s.sgm := rfl
@[simp] theorem State.onBse_bte : (s.onBse f).bte = s.bte := rfl
@[simp] theorem State.onBse_mss : (s.onBse f).mss = s.mss := rfl
@[simp] theorem State.onBse_shelf : (s.onBse f).shelf = s.shelf := rfl
@[simp] theorem State.onBse_blk : (s.onBse f).blk = s.blk := rfl
@[simp] theorem State.onBse_evr : (s.onBse f).evr = s.evr := rfl
@[simp] theorem State.onBse_out : (s.onBse f).out = s.out := rfl
@[simp] theorem State.onBse_cur : (s.onBse f).cur = s.cur := rfl
@[simp] theorem State.onBse_free : (s.onBse f).free = s.free := rfl
@[simp] theorem State.onBse_pending : (s.onBse f).pending = s.pending := rfl
end onBse

section onSgm
variable (f : Sgm → Sgm) (s : State)
@[simp] theorem State.onSgm_hqe : (s.onSgm f).hqe = s.hqe := rfl
@[simp] theorem State.onSgm_tmf : (s.onSgm f).tmf = s.tmf := rfl
@[simp] theorem State.onSgm_sup : (s.onSgm f).sup = s.sup := rfl
@[simp] theorem State.onSgm_lnk : (s.onSgm f).lnk = s.lnk := rfl
@[simp] theorem State.onSgm_cfg : (s.onSgm f).cfg = s.cfg := rfl
@[simp] theorem State.onSgm_spa : (s.onSgm f).spa = s.spa := rfl
@[simp] theorem State.onSgm_kce : (s.onSgm f).kce = s.kce := rfl
@[simp] theorem State.onSgm_psc : (s.onSgm f).psc = s.psc := rfl
@[simp] theorem State.onSgm_pla : (s.onSgm f).pla = s.pla := rfl
@[simp] theorem State.onSgm_vpc : (s.onSgm f).vpc = s.vpc := rfl
@[simp] theorem State.onSgm_tcm : (s.onSgm f).tcm = s.tcm := rfl
@[simp] theorem State.onSgm_lsw : (s.onSgm f).lsw = s.lsw := rfl
@[simp] theorem State.onSgm_bse : (s.onSgm f).bse = s.bse := rfl
@[simp] theorem State.onSgm_cell : (s.onSgm f).cell = s.cell := rfl
@[simp] theorem State.onSgm_sgm : (s.onSgm f).sgm = f s.sgm := rfl
@[simp] theorem State.onSgm_bte : (s.onSgm f).bte = s.bte := rfl
@[simp] theorem State.onSgm_mss : (s.onSgm f).mss = s.mss := rfl
@[simp] theorem State.onSgm_shelf : (s.onSgm f).shelf = s.shelf := rfl
@[simp] theorem State.onSgm_blk : (s.onSgm f).blk = s.blk := rfl
@[simp] theorem State.onSgm_evr : (s.onSgm f).evr = s.evr := rfl
@[simp] theorem State.onSgm_out : (s.onSgm f).out = s.out := rfl
@[simp] theorem State.onSgm_cur : (s.onSgm f).cur = s.cur := rfl
@[simp] theorem State.onSgm_free : (s.onSgm f).free = s.free := rfl
@[simp] theorem State.onSgm_pending : (s.onSgm f).pending = s.pending := rfl
end onSgm

section onBte
variable (f : Bte → Bte) (s : State)
@[simp] theorem State.onBte_hqe : (s.onBte f).hqe = s.hqe := rfl
@[simp] theorem State.onBte_tmf : (s.onBte f).tmf = s.tmf := rfl
@[simp] theorem State.onBte_sup : (s.onBte f).sup = s.sup := rfl
@[simp] theorem State.onBte_lnk : (s.onBte f).lnk = s.lnk := rfl
@[simp] theorem State.onBte_cfg : (s.onBte f).cfg = s.cfg := rfl
@[simp] theorem State.onBte_spa : (s.onBte f).spa = s.spa := rfl
@[simp] theorem State.onBte_kce : (s.onBte f).kce = s.kce := rfl
@[simp] theorem State.onBte_psc : (s.onBte f).psc = s.psc := rfl
@[simp] theorem State.onBte_pla : (s.onBte f).pla = s.pla := rfl
@[simp] theorem State.onBte_vpc : (s.onBte f).vpc = s.vpc := rfl
@[simp] theorem State.onBte_tcm : (s.onBte f).tcm = s.tcm := rfl
@[simp] theorem State.onBte_lsw : (s.onBte f).lsw = s.lsw := rfl
@[simp] theorem State.onBte_bse : (s.onBte f).bse = s.bse := rfl
@[simp] theorem State.onBte_cell : (s.onBte f).cell = s.cell := rfl
@[simp] theorem State.onBte_sgm : (s.onBte f).sgm = s.sgm := rfl
@[simp] theorem State.onBte_bte : (s.onBte f).bte = f s.bte := rfl
@[simp] theorem State.onBte_mss : (s.onBte f).mss = s.mss := rfl
@[simp] theorem State.onBte_shelf : (s.onBte f).shelf = s.shelf := rfl
@[simp] theorem State.onBte_blk : (s.onBte f).blk = s.blk := rfl
@[simp] theorem State.onBte_evr : (s.onBte f).evr = s.evr := rfl
@[simp] theorem State.onBte_out : (s.onBte f).out = s.out := rfl
@[simp] theorem State.onBte_cur : (s.onBte f).cur = s.cur := rfl
@[simp] theorem State.onBte_free : (s.onBte f).free = s.free := rfl
@[simp] theorem State.onBte_pending : (s.onBte f).pending = s.pending := rfl
end onBte

section onMss
variable (f : Mss → Mss) (s : State)
@[simp] theorem State.onMss_hqe : (s.onMss f).hqe = s.hqe := rfl
@[simp] theorem State.onMss_tmf : (s.onMss f).tmf = s.tmf := rfl
@[simp] theorem State.onMss_sup : (s.onMss f).sup = s.sup := rfl
@[simp] theorem State.onMss_lnk : (s.onMss f).lnk = s.lnk := rfl
@[simp] theorem State.onMss_cfg : (s.onMss f).cfg = s.cfg := rfl
@[simp] theorem State.onMss_spa : (s.onMss f).spa = s.spa := rfl
@[simp] theorem State.onMss_kce : (s.onMss f).kce = s.kce := rfl
@[simp] theorem State.onMss_psc : (s.onMss f).psc = s.psc := rfl
@[simp] theorem State.onMss_pla : (s.onMss f).pla = s.pla := rfl
@[simp] theorem State.onMss_vpc : (s.onMss f).vpc = s.vpc := rfl
@[simp] theorem State.onMss_tcm : (s.onMss f).tcm = s.tcm := rfl
@[simp] theorem State.onMss_lsw : (s.onMss f).lsw = s.lsw := rfl
@[simp] theorem State.onMss_bse : (s.onMss f).bse = s.bse := rfl
@[simp] theorem State.onMss_cell : (s.onMss f).cell = s.cell := rfl
@[simp] theorem State.onMss_sgm : (s.onMss f).sgm = s.sgm := rfl
@[simp] theorem State.onMss_bte : (s.onMss f).bte = s.bte := rfl
@[simp] theorem State.onMss_mss : (s.onMss f).mss = f s.mss := rfl
@[simp] theorem State.onMss_shelf : (s.onMss f).shelf = s.shelf := rfl
@[simp] theorem State.onMss_blk : (s.onMss f).blk = s.blk := rfl
@[simp] theorem State.onMss_evr : (s.onMss f).evr = s.evr := rfl
@[simp] theorem State.onMss_out : (s.onMss f).out = s.out := rfl
@[simp] theorem State.onMss_cur : (s.onMss f).cur = s.cur := rfl
@[simp] theorem State.onMss_free : (s.onMss f).free = s.free := rfl
@[simp] theorem State.onMss_pending : (s.onMss f).pending = s.pending := rfl
end onMss

section onBlk
variable (f : Blk → Blk) (s : State)
@[simp] theorem State.onBlk_hqe : (s.onBlk f).hqe = s.hqe := rfl
@[simp] theorem State.onBlk_tmf : (s.onBlk f).tmf = s.tmf := rfl
@[simp] theorem State.onBlk_sup : (s.onBlk f).sup = s.sup := rfl
@[simp] theorem State.onBlk_lnk : (s.onBlk f).lnk = s.lnk := rfl
@[simp] theorem State.onBlk_cfg : (s.onBlk f).cfg = s.cfg := rfl
@[simp] theorem State.onBlk_spa : (s.onBlk f).spa = s.spa := rfl
@[simp] theorem State.onBlk_kce : (s.onBlk f).kce = s.kce := rfl
@[simp] theorem State.onBlk_psc : (s.onBlk f).psc = s.psc := rfl
@[simp] theorem State.onBlk_pla : (s.onBlk f).pla = s.pla := rfl
@[simp] theorem State.onBlk_vpc : (s.onBlk f).vpc = s.vpc := rfl
@[simp] theorem State.onBlk_tcm : (s.onBlk f).tcm = s.tcm := rfl
@[simp] theorem State.onBlk_lsw : (s.onBlk f).lsw = s.lsw := rfl
@[simp] theorem State.onBlk_bse : (s.onBlk f).bse = s.bse := rfl
@[simp] theorem State.onBlk_cell : (s.onBlk f).cell = s.cell := rfl
@[simp] theorem State.onBlk_sgm : (s.onBlk f).sgm = s.sgm := rfl
@[simp] theorem State.onBlk_bte : (s.onBlk f).bte = s.bte := rfl
@[simp] theorem State.onBlk_mss : (s.onBlk f).mss = s.mss := rfl
@[simp] theorem State.onBlk_shelf : (s.onBlk f).shelf = s.shelf := rfl
@[simp] theorem State.onBlk_blk : (s.onBlk f).blk = f s.blk := rfl
@[simp] theorem State.onBlk_evr : (s.onBlk f).evr = s.evr := rfl
@[simp] theorem State.onBlk_out : (s.onBlk f).out = s.out := rfl
@[simp] theorem State.onBlk_cur : (s.onBlk f).cur = s.cur := rfl
@[simp] theorem State.onBlk_free : (s.onBlk f).free = s.free := rfl
@[simp] theorem State.onBlk_pending : (s.onBlk f).pending = s.pending := rfl
end onBlk

section onEvr
variable (f : Evr → Evr) (s : State)
@[simp] theorem State.onEvr_hqe : (s.onEvr f).hqe = s.hqe := rfl
@[simp] theorem State.onEvr_tmf : (s.onEvr f).tmf = s.tmf := rfl
@[simp] theorem State.onEvr_sup : (s.onEvr f).sup = s.sup := rfl
@[simp] theorem State.onEvr_lnk : (s.onEvr f).lnk = s.lnk := rfl
@[simp] theorem State.onEvr_cfg : (s.onEvr f).cfg = s.cfg := rfl
@[simp] theorem State.onEvr_spa : (s.onEvr f).spa = s.spa := rfl
@[simp] theorem State.onEvr_kce : (s.onEvr f).kce = s.kce := rfl
@[simp] theorem State.onEvr_psc : (s.onEvr f).psc = s.psc := rfl
@[simp] theorem State.onEvr_pla : (s.onEvr f).pla = s.pla := rfl
@[simp] theorem State.onEvr_vpc : (s.onEvr f).vpc = s.vpc := rfl
@[simp] theorem State.onEvr_tcm : (s.onEvr f).tcm = s.tcm := rfl
@[simp] theorem State.onEvr_lsw : (s.onEvr f).lsw = s.lsw := rfl
@[simp] theorem State.onEvr_bse : (s.onEvr f).bse = s.bse := rfl
@[simp] theorem State.onEvr_cell : (s.onEvr f).cell = s.cell := rfl
@[simp] theorem State.onEvr_sgm : (s.onEvr f).sgm = s.sgm := rfl
@[simp] theorem State.onEvr_bte : (s.onEvr f).bte = s.bte := rfl
@[simp] theorem State.onEvr_mss : (s.onEvr f).mss = s.mss := rfl
@[simp] theorem State.onEvr_shelf : (s.onEvr f).shelf = s.shelf := rfl
@[simp] theorem State.onEvr_blk : (s.onEvr f).blk = s.blk := rfl
@[simp] theorem State.onEvr_evr : (s.onEvr f).evr = f s.evr := rfl
@[simp] theorem State.onEvr_out : (s.onEvr f).out = s.out := rfl
@[simp] theorem State.onEvr_cur : (s.onEvr f).cur = s.cur := rfl
@[simp] theorem State.onEvr_free : (s.onEvr f).free = s.free := rfl
@[simp] theorem State.onEvr_pending : (s.onEvr f).pending = s.pending := rfl
end onEvr

section onFn
variable (n : Fn) (f : FnState → FnState) (s : State)
@[simp] theorem State.onFn_hqe : (s.onFn n f).hqe = Hqe.onFn n f s.hqe := rfl
@[simp] theorem State.onFn_tmf : (s.onFn n f).tmf = s.tmf := rfl
@[simp] theorem State.onFn_sup : (s.onFn n f).sup = s.sup := rfl
@[simp] theorem State.onFn_lnk : (s.onFn n f).lnk = s.lnk := rfl
@[simp] theorem State.onFn_cfg : (s.onFn n f).cfg = s.cfg := rfl
@[simp] theorem State.onFn_spa : (s.onFn n f).spa = s.spa := rfl
@[simp] theorem State.onFn_kce : (s.onFn n f).kce = s.kce := rfl
@[simp] theorem State.onFn_psc : (s.onFn n f).psc = s.psc := rfl
@[simp] theorem State.onFn_pla : (s.onFn n f).pla = s.pla := rfl
@[simp] theorem State.onFn_vpc : (s.onFn n f).vpc = s.vpc := rfl
@[simp] theorem State.onFn_tcm : (s.onFn n f).tcm = s.tcm := rfl
@[simp] theorem State.onFn_lsw : (s.onFn n f).lsw = s.lsw := rfl
@[simp] theorem State.onFn_bse : (s.onFn n f).bse = s.bse := rfl
@[simp] theorem State.onFn_cell : (s.onFn n f).cell = s.cell := rfl
@[simp] theorem State.onFn_sgm : (s.onFn n f).sgm = s.sgm := rfl
@[simp] theorem State.onFn_bte : (s.onFn n f).bte = s.bte := rfl
@[simp] theorem State.onFn_mss : (s.onFn n f).mss = s.mss := rfl
@[simp] theorem State.onFn_shelf : (s.onFn n f).shelf = s.shelf := rfl
@[simp] theorem State.onFn_blk : (s.onFn n f).blk = s.blk := rfl
@[simp] theorem State.onFn_evr : (s.onFn n f).evr = s.evr := rfl
@[simp] theorem State.onFn_out : (s.onFn n f).out = s.out := rfl
@[simp] theorem State.onFn_cur : (s.onFn n f).cur = s.cur := rfl
@[simp] theorem State.onFn_free : (s.onFn n f).free = s.free := rfl
@[simp] theorem State.onFn_pending : (s.onFn n f).pending = s.pending := rfl
end onFn

section onLane
variable (n : Nat) (f : KGroup → KGroup) (s : State)
@[simp] theorem State.onLane_hqe : (s.onLane n f).hqe = s.hqe := rfl
@[simp] theorem State.onLane_tmf : (s.onLane n f).tmf = s.tmf := rfl
@[simp] theorem State.onLane_sup : (s.onLane n f).sup = s.sup := rfl
@[simp] theorem State.onLane_lnk : (s.onLane n f).lnk = s.lnk := rfl
@[simp] theorem State.onLane_cfg : (s.onLane n f).cfg = s.cfg := rfl
@[simp] theorem State.onLane_spa : (s.onLane n f).spa = s.spa := rfl
@[simp] theorem State.onLane_kce : (s.onLane n f).kce = { s.kce with groups := upd s.kce.groups n f } := rfl
@[simp] theorem State.onLane_psc : (s.onLane n f).psc = s.psc := rfl
@[simp] theorem State.onLane_pla : (s.onLane n f).pla = s.pla := rfl
@[simp] theorem State.onLane_vpc : (s.onLane n f).vpc = s.vpc := rfl
@[simp] theorem State.onLane_tcm : (s.onLane n f).tcm = s.tcm := rfl
@[simp] theorem State.onLane_lsw : (s.onLane n f).lsw = s.lsw := rfl
@[simp] theorem State.onLane_bse : (s.onLane n f).bse = s.bse := rfl
@[simp] theorem State.onLane_cell : (s.onLane n f).cell = s.cell := rfl
@[simp] theorem State.onLane_sgm : (s.onLane n f).sgm = s.sgm := rfl
@[simp] theorem State.onLane_bte : (s.onLane n f).bte = s.bte := rfl
@[simp] theorem State.onLane_mss : (s.onLane n f).mss = s.mss := rfl
@[simp] theorem State.onLane_shelf : (s.onLane n f).shelf = s.shelf := rfl
@[simp] theorem State.onLane_blk : (s.onLane n f).blk = s.blk := rfl
@[simp] theorem State.onLane_evr : (s.onLane n f).evr = s.evr := rfl
@[simp] theorem State.onLane_out : (s.onLane n f).out = s.out := rfl
@[simp] theorem State.onLane_cur : (s.onLane n f).cur = s.cur := rfl
@[simp] theorem State.onLane_free : (s.onLane n f).free = s.free := rfl
@[simp] theorem State.onLane_pending : (s.onLane n f).pending = s.pending := rfl
end onLane

section onPg
variable (n : Nat) (f : PGroup → PGroup) (s : State)
@[simp] theorem State.onPg_hqe : (s.onPg n f).hqe = s.hqe := rfl
@[simp] theorem State.onPg_tmf : (s.onPg n f).tmf = s.tmf := rfl
@[simp] theorem State.onPg_sup : (s.onPg n f).sup = s.sup := rfl
@[simp] theorem State.onPg_lnk : (s.onPg n f).lnk = s.lnk := rfl
@[simp] theorem State.onPg_cfg : (s.onPg n f).cfg = s.cfg := rfl
@[simp] theorem State.onPg_spa : (s.onPg n f).spa = s.spa := rfl
@[simp] theorem State.onPg_kce : (s.onPg n f).kce = s.kce := rfl
@[simp] theorem State.onPg_psc : (s.onPg n f).psc = { s.psc with groups := upd s.psc.groups n f } := rfl
@[simp] theorem State.onPg_pla : (s.onPg n f).pla = s.pla := rfl
@[simp] theorem State.onPg_vpc : (s.onPg n f).vpc = s.vpc := rfl
@[simp] theorem State.onPg_tcm : (s.onPg n f).tcm = s.tcm := rfl
@[simp] theorem State.onPg_lsw : (s.onPg n f).lsw = s.lsw := rfl
@[simp] theorem State.onPg_bse : (s.onPg n f).bse = s.bse := rfl
@[simp] theorem State.onPg_cell : (s.onPg n f).cell = s.cell := rfl
@[simp] theorem State.onPg_sgm : (s.onPg n f).sgm = s.sgm := rfl
@[simp] theorem State.onPg_bte : (s.onPg n f).bte = s.bte := rfl
@[simp] theorem State.onPg_mss : (s.onPg n f).mss = s.mss := rfl
@[simp] theorem State.onPg_shelf : (s.onPg n f).shelf = s.shelf := rfl
@[simp] theorem State.onPg_blk : (s.onPg n f).blk = s.blk := rfl
@[simp] theorem State.onPg_evr : (s.onPg n f).evr = s.evr := rfl
@[simp] theorem State.onPg_out : (s.onPg n f).out = s.out := rfl
@[simp] theorem State.onPg_cur : (s.onPg n f).cur = s.cur := rfl
@[simp] theorem State.onPg_free : (s.onPg n f).free = s.free := rfl
@[simp] theorem State.onPg_pending : (s.onPg n f).pending = s.pending := rfl
end onPg

section onLink
variable (n : Nat) (f : Link → Link) (s : State)
@[simp] theorem State.onLink_hqe : (s.onLink n f).hqe = s.hqe := rfl
@[simp] theorem State.onLink_tmf : (s.onLink n f).tmf = s.tmf := rfl
@[simp] theorem State.onLink_sup : (s.onLink n f).sup = s.sup := rfl
@[simp] theorem State.onLink_lnk : (s.onLink n f).lnk = s.lnk := rfl
@[simp] theorem State.onLink_cfg : (s.onLink n f).cfg = s.cfg := rfl
@[simp] theorem State.onLink_spa : (s.onLink n f).spa = s.spa := rfl
@[simp] theorem State.onLink_kce : (s.onLink n f).kce = s.kce := rfl
@[simp] theorem State.onLink_psc : (s.onLink n f).psc = s.psc := rfl
@[simp] theorem State.onLink_pla : (s.onLink n f).pla = { s.pla with links := upd s.pla.links n f } := rfl
@[simp] theorem State.onLink_vpc : (s.onLink n f).vpc = s.vpc := rfl
@[simp] theorem State.onLink_tcm : (s.onLink n f).tcm = s.tcm := rfl
@[simp] theorem State.onLink_lsw : (s.onLink n f).lsw = s.lsw := rfl
@[simp] theorem State.onLink_bse : (s.onLink n f).bse = s.bse := rfl
@[simp] theorem State.onLink_cell : (s.onLink n f).cell = s.cell := rfl
@[simp] theorem State.onLink_sgm : (s.onLink n f).sgm = s.sgm := rfl
@[simp] theorem State.onLink_bte : (s.onLink n f).bte = s.bte := rfl
@[simp] theorem State.onLink_mss : (s.onLink n f).mss = s.mss := rfl
@[simp] theorem State.onLink_shelf : (s.onLink n f).shelf = s.shelf := rfl
@[simp] theorem State.onLink_blk : (s.onLink n f).blk = s.blk := rfl
@[simp] theorem State.onLink_evr : (s.onLink n f).evr = s.evr := rfl
@[simp] theorem State.onLink_out : (s.onLink n f).out = s.out := rfl
@[simp] theorem State.onLink_cur : (s.onLink n f).cur = s.cur := rfl
@[simp] theorem State.onLink_free : (s.onLink n f).free = s.free := rfl
@[simp] theorem State.onLink_pending : (s.onLink n f).pending = s.pending := rfl
end onLink

section onPrt
variable (n : Nat) (f : Port → Port) (s : State)
@[simp] theorem State.onPrt_hqe : (s.onPrt n f).hqe = s.hqe := rfl
@[simp] theorem State.onPrt_tmf : (s.onPrt n f).tmf = s.tmf := rfl
@[simp] theorem State.onPrt_sup : (s.onPrt n f).sup = s.sup := rfl
@[simp] theorem State.onPrt_lnk : (s.onPrt n f).lnk = s.lnk := rfl
@[simp] theorem State.onPrt_cfg : (s.onPrt n f).cfg = s.cfg := rfl
@[simp] theorem State.onPrt_spa : (s.onPrt n f).spa = s.spa := rfl
@[simp] theorem State.onPrt_kce : (s.onPrt n f).kce = s.kce := rfl
@[simp] theorem State.onPrt_psc : (s.onPrt n f).psc = s.psc := rfl
@[simp] theorem State.onPrt_pla : (s.onPrt n f).pla = s.pla := rfl
@[simp] theorem State.onPrt_vpc : (s.onPrt n f).vpc = { s.vpc with ports := upd s.vpc.ports n f } := rfl
@[simp] theorem State.onPrt_tcm : (s.onPrt n f).tcm = s.tcm := rfl
@[simp] theorem State.onPrt_lsw : (s.onPrt n f).lsw = s.lsw := rfl
@[simp] theorem State.onPrt_bse : (s.onPrt n f).bse = s.bse := rfl
@[simp] theorem State.onPrt_cell : (s.onPrt n f).cell = s.cell := rfl
@[simp] theorem State.onPrt_sgm : (s.onPrt n f).sgm = s.sgm := rfl
@[simp] theorem State.onPrt_bte : (s.onPrt n f).bte = s.bte := rfl
@[simp] theorem State.onPrt_mss : (s.onPrt n f).mss = s.mss := rfl
@[simp] theorem State.onPrt_shelf : (s.onPrt n f).shelf = s.shelf := rfl
@[simp] theorem State.onPrt_blk : (s.onPrt n f).blk = s.blk := rfl
@[simp] theorem State.onPrt_evr : (s.onPrt n f).evr = s.evr := rfl
@[simp] theorem State.onPrt_out : (s.onPrt n f).out = s.out := rfl
@[simp] theorem State.onPrt_cur : (s.onPrt n f).cur = s.cur := rfl
@[simp] theorem State.onPrt_free : (s.onPrt n f).free = s.free := rfl
@[simp] theorem State.onPrt_pending : (s.onPrt n f).pending = s.pending := rfl
end onPrt

section onSens
variable (n : Nat) (f : Sens → Sens) (s : State)
@[simp] theorem State.onSens_hqe : (s.onSens n f).hqe = s.hqe := rfl
@[simp] theorem State.onSens_tmf : (s.onSens n f).tmf = s.tmf := rfl
@[simp] theorem State.onSens_sup : (s.onSens n f).sup = s.sup := rfl
@[simp] theorem State.onSens_lnk : (s.onSens n f).lnk = s.lnk := rfl
@[simp] theorem State.onSens_cfg : (s.onSens n f).cfg = s.cfg := rfl
@[simp] theorem State.onSens_spa : (s.onSens n f).spa = s.spa := rfl
@[simp] theorem State.onSens_kce : (s.onSens n f).kce = s.kce := rfl
@[simp] theorem State.onSens_psc : (s.onSens n f).psc = s.psc := rfl
@[simp] theorem State.onSens_pla : (s.onSens n f).pla = s.pla := rfl
@[simp] theorem State.onSens_vpc : (s.onSens n f).vpc = s.vpc := rfl
@[simp] theorem State.onSens_tcm : (s.onSens n f).tcm = { s.tcm with sens := upd s.tcm.sens n f } := rfl
@[simp] theorem State.onSens_lsw : (s.onSens n f).lsw = s.lsw := rfl
@[simp] theorem State.onSens_bse : (s.onSens n f).bse = s.bse := rfl
@[simp] theorem State.onSens_cell : (s.onSens n f).cell = s.cell := rfl
@[simp] theorem State.onSens_sgm : (s.onSens n f).sgm = s.sgm := rfl
@[simp] theorem State.onSens_bte : (s.onSens n f).bte = s.bte := rfl
@[simp] theorem State.onSens_mss : (s.onSens n f).mss = s.mss := rfl
@[simp] theorem State.onSens_shelf : (s.onSens n f).shelf = s.shelf := rfl
@[simp] theorem State.onSens_blk : (s.onSens n f).blk = s.blk := rfl
@[simp] theorem State.onSens_evr : (s.onSens n f).evr = s.evr := rfl
@[simp] theorem State.onSens_out : (s.onSens n f).out = s.out := rfl
@[simp] theorem State.onSens_cur : (s.onSens n f).cur = s.cur := rfl
@[simp] theorem State.onSens_free : (s.onSens n f).free = s.free := rfl
@[simp] theorem State.onSens_pending : (s.onSens n f).pending = s.pending := rfl
end onSens

section onAq
variable (n : Nat) (f : Aqaux → Aqaux) (s : State)
@[simp] theorem State.onAq_hqe : (s.onAq n f).hqe = s.hqe := rfl
@[simp] theorem State.onAq_tmf : (s.onAq n f).tmf = s.tmf := rfl
@[simp] theorem State.onAq_sup : (s.onAq n f).sup = s.sup := rfl
@[simp] theorem State.onAq_lnk : (s.onAq n f).lnk = s.lnk := rfl
@[simp] theorem State.onAq_cfg : (s.onAq n f).cfg = s.cfg := rfl
@[simp] theorem State.onAq_spa : (s.onAq n f).spa = s.spa := rfl
@[simp] theorem State.onAq_kce : (s.onAq n f).kce = s.kce := rfl
@[simp] theorem State.onAq_psc : (s.onAq n f).psc = s.psc := rfl
@[simp] theorem State.onAq_pla : (s.onAq n f).pla = s.pla := rfl
@[simp] theorem State.onAq_vpc : (s.onAq n f).vpc = s.vpc := rfl
@[simp] theorem State.onAq_tcm : (s.onAq n f).tcm = { s.tcm with aq := upd s.tcm.aq n f } := rfl
@[simp] theorem State.onAq_lsw : (s.onAq n f).lsw = s.lsw := rfl
@[simp] theorem State.onAq_bse : (s.onAq n f).bse = s.bse := rfl
@[simp] theorem State.onAq_cell : (s.onAq n f).cell = s.cell := rfl
@[simp] theorem State.onAq_sgm : (s.onAq n f).sgm = s.sgm := rfl
@[simp] theorem State.onAq_bte : (s.onAq n f).bte = s.bte := rfl
@[simp] theorem State.onAq_mss : (s.onAq n f).mss = s.mss := rfl
@[simp] theorem State.onAq_shelf : (s.onAq n f).shelf = s.shelf := rfl
@[simp] theorem State.onAq_blk : (s.onAq n f).blk = s.blk := rfl
@[simp] theorem State.onAq_evr : (s.onAq n f).evr = s.evr := rfl
@[simp] theorem State.onAq_out : (s.onAq n f).out = s.out := rfl
@[simp] theorem State.onAq_cur : (s.onAq n f).cur = s.cur := rfl
@[simp] theorem State.onAq_free : (s.onAq n f).free = s.free := rfl
@[simp] theorem State.onAq_pending : (s.onAq n f).pending = s.pending := rfl
end onAq

section onCh
variable (n : Nat) (f : LChan → LChan) (s : State)
@[simp] theorem State.onCh_hqe : (s.onCh n f).hqe = s.hqe := rfl
@[simp] theorem State.onCh_tmf : (s.onCh n f).tmf = s.tmf := rfl
@[simp] theorem State.onCh_sup : (s.onCh n f).sup = s.sup := rfl
@[simp] theorem State.onCh_lnk : (s.onCh n f).lnk = s.lnk := rfl
@[simp] theorem State.onCh_cfg : (s.onCh n f).cfg = s.cfg := rfl
@[simp] theorem State.onCh_spa : (s.onCh n f).spa = s.spa := rfl
@[simp] theorem State.onCh_kce : (s.onCh n f).kce = s.kce := rfl
@[simp] theorem State.onCh_psc : (s.onCh n f).psc = s.psc := rfl
@[simp] theorem State.onCh_pla : (s.onCh n f).pla = s.pla := rfl
@[simp] theorem State.onCh_vpc : (s.onCh n f).vpc = s.vpc := rfl
@[simp] theorem State.onCh_tcm : (s.onCh n f).tcm = s.tcm := rfl
@[simp] theorem State.onCh_lsw : (s.onCh n f).lsw = { s.lsw with chans := upd s.lsw.chans n f } := rfl
@[simp] theorem State.onCh_bse : (s.onCh n f).bse = s.bse := rfl
@[simp] theorem State.onCh_cell : (s.onCh n f).cell = s.cell := rfl
@[simp] theorem State.onCh_sgm : (s.onCh n f).sgm = s.sgm := rfl
@[simp] theorem State.onCh_bte : (s.onCh n f).bte = s.bte := rfl
@[simp] theorem State.onCh_mss : (s.onCh n f).mss = s.mss := rfl
@[simp] theorem State.onCh_shelf : (s.onCh n f).shelf = s.shelf := rfl
@[simp] theorem State.onCh_blk : (s.onCh n f).blk = s.blk := rfl
@[simp] theorem State.onCh_evr : (s.onCh n f).evr = s.evr := rfl
@[simp] theorem State.onCh_out : (s.onCh n f).out = s.out := rfl
@[simp] theorem State.onCh_cur : (s.onCh n f).cur = s.cur := rfl
@[simp] theorem State.onCh_free : (s.onCh n f).free = s.free := rfl
@[simp] theorem State.onCh_pending : (s.onCh n f).pending = s.pending := rfl
end onCh

section onStr
variable (n : Nat) (f : Str → Str) (s : State)
@[simp] theorem State.onStr_hqe : (s.onStr n f).hqe = s.hqe := rfl
@[simp] theorem State.onStr_tmf : (s.onStr n f).tmf = s.tmf := rfl
@[simp] theorem State.onStr_sup : (s.onStr n f).sup = s.sup := rfl
@[simp] theorem State.onStr_lnk : (s.onStr n f).lnk = s.lnk := rfl
@[simp] theorem State.onStr_cfg : (s.onStr n f).cfg = s.cfg := rfl
@[simp] theorem State.onStr_spa : (s.onStr n f).spa = s.spa := rfl
@[simp] theorem State.onStr_kce : (s.onStr n f).kce = s.kce := rfl
@[simp] theorem State.onStr_psc : (s.onStr n f).psc = s.psc := rfl
@[simp] theorem State.onStr_pla : (s.onStr n f).pla = s.pla := rfl
@[simp] theorem State.onStr_vpc : (s.onStr n f).vpc = s.vpc := rfl
@[simp] theorem State.onStr_tcm : (s.onStr n f).tcm = s.tcm := rfl
@[simp] theorem State.onStr_lsw : (s.onStr n f).lsw = s.lsw := rfl
@[simp] theorem State.onStr_bse : (s.onStr n f).bse = { s.bse with strs := upd s.bse.strs n f } := rfl
@[simp] theorem State.onStr_cell : (s.onStr n f).cell = s.cell := rfl
@[simp] theorem State.onStr_sgm : (s.onStr n f).sgm = s.sgm := rfl
@[simp] theorem State.onStr_bte : (s.onStr n f).bte = s.bte := rfl
@[simp] theorem State.onStr_mss : (s.onStr n f).mss = s.mss := rfl
@[simp] theorem State.onStr_shelf : (s.onStr n f).shelf = s.shelf := rfl
@[simp] theorem State.onStr_blk : (s.onStr n f).blk = s.blk := rfl
@[simp] theorem State.onStr_evr : (s.onStr n f).evr = s.evr := rfl
@[simp] theorem State.onStr_out : (s.onStr n f).out = s.out := rfl
@[simp] theorem State.onStr_cur : (s.onStr n f).cur = s.cur := rfl
@[simp] theorem State.onStr_free : (s.onStr n f).free = s.free := rfl
@[simp] theorem State.onStr_pending : (s.onStr n f).pending = s.pending := rfl
end onStr

section onNode
variable (n : Nat) (f : Node → Node) (s : State)
@[simp] theorem State.onNode_hqe : (s.onNode n f).hqe = s.hqe := rfl
@[simp] theorem State.onNode_tmf : (s.onNode n f).tmf = s.tmf := rfl
@[simp] theorem State.onNode_sup : (s.onNode n f).sup = s.sup := rfl
@[simp] theorem State.onNode_lnk : (s.onNode n f).lnk = s.lnk := rfl
@[simp] theorem State.onNode_cfg : (s.onNode n f).cfg = s.cfg := rfl
@[simp] theorem State.onNode_spa : (s.onNode n f).spa = s.spa := rfl
@[simp] theorem State.onNode_kce : (s.onNode n f).kce = s.kce := rfl
@[simp] theorem State.onNode_psc : (s.onNode n f).psc = s.psc := rfl
@[simp] theorem State.onNode_pla : (s.onNode n f).pla = s.pla := rfl
@[simp] theorem State.onNode_vpc : (s.onNode n f).vpc = s.vpc := rfl
@[simp] theorem State.onNode_tcm : (s.onNode n f).tcm = s.tcm := rfl
@[simp] theorem State.onNode_lsw : (s.onNode n f).lsw = s.lsw := rfl
@[simp] theorem State.onNode_bse : (s.onNode n f).bse = s.bse := rfl
@[simp] theorem State.onNode_cell : (s.onNode n f).cell = s.cell := rfl
@[simp] theorem State.onNode_sgm : (s.onNode n f).sgm = s.sgm := rfl
@[simp] theorem State.onNode_bte : (s.onNode n f).bte = s.bte := rfl
@[simp] theorem State.onNode_mss : (s.onNode n f).mss = s.mss := rfl
@[simp] theorem State.onNode_shelf : (s.onNode n f).shelf = s.shelf := rfl
@[simp] theorem State.onNode_blk : (s.onNode n f).blk = { s.blk with nodes := upd s.blk.nodes (n - 1) f } := rfl
@[simp] theorem State.onNode_evr : (s.onNode n f).evr = s.evr := rfl
@[simp] theorem State.onNode_out : (s.onNode n f).out = s.out := rfl
@[simp] theorem State.onNode_cur : (s.onNode n f).cur = s.cur := rfl
@[simp] theorem State.onNode_free : (s.onNode n f).free = s.free := rfl
@[simp] theorem State.onNode_pending : (s.onNode n f).pending = s.pending := rfl
end onNode

section onQuant
variable (n : Nat) (f : Quant → Quant) (s : State)
@[simp] theorem State.onQuant_hqe : (s.onQuant n f).hqe = s.hqe := rfl
@[simp] theorem State.onQuant_tmf : (s.onQuant n f).tmf = s.tmf := rfl
@[simp] theorem State.onQuant_sup : (s.onQuant n f).sup = s.sup := rfl
@[simp] theorem State.onQuant_lnk : (s.onQuant n f).lnk = s.lnk := rfl
@[simp] theorem State.onQuant_cfg : (s.onQuant n f).cfg = s.cfg := rfl
@[simp] theorem State.onQuant_spa : (s.onQuant n f).spa = s.spa := rfl
@[simp] theorem State.onQuant_kce : (s.onQuant n f).kce = s.kce := rfl
@[simp] theorem State.onQuant_psc : (s.onQuant n f).psc = s.psc := rfl
@[simp] theorem State.onQuant_pla : (s.onQuant n f).pla = s.pla := rfl
@[simp] theorem State.onQuant_vpc : (s.onQuant n f).vpc = s.vpc := rfl
@[simp] theorem State.onQuant_tcm : (s.onQuant n f).tcm = s.tcm := rfl
@[simp] theorem State.onQuant_lsw : (s.onQuant n f).lsw = s.lsw := rfl
@[simp] theorem State.onQuant_bse : (s.onQuant n f).bse = s.bse := rfl
@[simp] theorem State.onQuant_cell : (s.onQuant n f).cell = s.cell := rfl
@[simp] theorem State.onQuant_sgm : (s.onQuant n f).sgm = s.sgm := rfl
@[simp] theorem State.onQuant_bte : (s.onQuant n f).bte = s.bte := rfl
@[simp] theorem State.onQuant_mss : (s.onQuant n f).mss = s.mss := rfl
@[simp] theorem State.onQuant_shelf : (s.onQuant n f).shelf = s.shelf := rfl
@[simp] theorem State.onQuant_blk : (s.onQuant n f).blk = s.blk := rfl
@[simp] theorem State.onQuant_evr : (s.onQuant n f).evr = { s.evr with qs := upd s.evr.qs n f } := rfl
@[simp] theorem State.onQuant_out : (s.onQuant n f).out = s.out := rfl
@[simp] theorem State.onQuant_cur : (s.onQuant n f).cur = s.cur := rfl
@[simp] theorem State.onQuant_free : (s.onQuant n f).free = s.free := rfl
@[simp] theorem State.onQuant_pending : (s.onQuant n f).pending = s.pending := rfl
end onQuant

section emit
variable (o : Out) (s : State)
@[simp] theorem State.emit_hqe : (s.emit o).hqe = s.hqe := rfl
@[simp] theorem State.emit_tmf : (s.emit o).tmf = s.tmf := rfl
@[simp] theorem State.emit_sup : (s.emit o).sup = s.sup := rfl
@[simp] theorem State.emit_lnk : (s.emit o).lnk = s.lnk := rfl
@[simp] theorem State.emit_cfg : (s.emit o).cfg = s.cfg := rfl
@[simp] theorem State.emit_spa : (s.emit o).spa = s.spa := rfl
@[simp] theorem State.emit_kce : (s.emit o).kce = s.kce := rfl
@[simp] theorem State.emit_psc : (s.emit o).psc = s.psc := rfl
@[simp] theorem State.emit_pla : (s.emit o).pla = s.pla := rfl
@[simp] theorem State.emit_vpc : (s.emit o).vpc = s.vpc := rfl
@[simp] theorem State.emit_tcm : (s.emit o).tcm = s.tcm := rfl
@[simp] theorem State.emit_lsw : (s.emit o).lsw = s.lsw := rfl
@[simp] theorem State.emit_bse : (s.emit o).bse = s.bse := rfl
@[simp] theorem State.emit_cell : (s.emit o).cell = s.cell := rfl
@[simp] theorem State.emit_sgm : (s.emit o).sgm = s.sgm := rfl
@[simp] theorem State.emit_bte : (s.emit o).bte = s.bte := rfl
@[simp] theorem State.emit_mss : (s.emit o).mss = s.mss := rfl
@[simp] theorem State.emit_shelf : (s.emit o).shelf = s.shelf := rfl
@[simp] theorem State.emit_blk : (s.emit o).blk = s.blk := rfl
@[simp] theorem State.emit_evr : (s.emit o).evr = s.evr := rfl
@[simp] theorem State.emit_out : (s.emit o).out = s.out ++ [o] := rfl
@[simp] theorem State.emit_cur : (s.emit o).cur = s.cur := rfl
@[simp] theorem State.emit_free : (s.emit o).free = s.free := rfl
@[simp] theorem State.emit_pending : (s.emit o).pending = s.pending := rfl
end emit

section took
variable (s : State)
@[simp] theorem State.took_hqe : (s.took).hqe = s.hqe := rfl
@[simp] theorem State.took_tmf : (s.took).tmf = s.tmf := rfl
@[simp] theorem State.took_sup : (s.took).sup = s.sup := rfl
@[simp] theorem State.took_lnk : (s.took).lnk = s.lnk := rfl
@[simp] theorem State.took_cfg : (s.took).cfg = s.cfg := rfl
@[simp] theorem State.took_spa : (s.took).spa = s.spa := rfl
@[simp] theorem State.took_kce : (s.took).kce = s.kce := rfl
@[simp] theorem State.took_psc : (s.took).psc = s.psc := rfl
@[simp] theorem State.took_pla : (s.took).pla = s.pla := rfl
@[simp] theorem State.took_vpc : (s.took).vpc = s.vpc := rfl
@[simp] theorem State.took_tcm : (s.took).tcm = s.tcm := rfl
@[simp] theorem State.took_lsw : (s.took).lsw = s.lsw := rfl
@[simp] theorem State.took_bse : (s.took).bse = s.bse := rfl
@[simp] theorem State.took_cell : (s.took).cell = s.cell := rfl
@[simp] theorem State.took_sgm : (s.took).sgm = s.sgm := rfl
@[simp] theorem State.took_bte : (s.took).bte = s.bte := rfl
@[simp] theorem State.took_mss : (s.took).mss = s.mss := rfl
@[simp] theorem State.took_shelf : (s.took).shelf = s.shelf := rfl
@[simp] theorem State.took_blk : (s.took).blk = s.blk := rfl
@[simp] theorem State.took_evr : (s.took).evr = s.evr := rfl
@[simp] theorem State.took_out : (s.took).out = s.out := rfl
@[simp] theorem State.took_cur : (s.took).cur = s.cur := rfl
@[simp] theorem State.took_free : (s.took).free = s.free + 1 := rfl
@[simp] theorem State.took_pending : (s.took).pending = s.pending := rfl
end took

section start
variable (s : State)
@[simp] theorem State.start_hqe : s.start.hqe = s.hqe := rfl
@[simp] theorem State.start_tmf : s.start.tmf = s.tmf := rfl
@[simp] theorem State.start_sup : s.start.sup = s.sup := rfl
@[simp] theorem State.start_lnk : s.start.lnk = s.lnk := rfl
@[simp] theorem State.start_cfg : s.start.cfg = s.cfg := rfl
@[simp] theorem State.start_spa : s.start.spa = s.spa := rfl
@[simp] theorem State.start_kce : s.start.kce = s.kce := rfl
@[simp] theorem State.start_psc : s.start.psc = s.psc := rfl
@[simp] theorem State.start_pla : s.start.pla = s.pla := rfl
@[simp] theorem State.start_vpc : s.start.vpc = s.vpc := rfl
@[simp] theorem State.start_tcm : s.start.tcm = s.tcm := rfl
@[simp] theorem State.start_lsw : s.start.lsw = s.lsw := rfl
@[simp] theorem State.start_bse : s.start.bse = s.bse := rfl
@[simp] theorem State.start_cell : s.start.cell = s.cell := rfl
@[simp] theorem State.start_sgm : s.start.sgm = s.sgm := rfl
@[simp] theorem State.start_bte : s.start.bte = s.bte := rfl
@[simp] theorem State.start_mss : s.start.mss = s.mss := rfl
@[simp] theorem State.start_shelf : s.start.shelf = s.shelf := rfl
@[simp] theorem State.start_blk : s.start.blk = s.blk := rfl
@[simp] theorem State.start_evr : s.start.evr = s.evr := rfl
@[simp] theorem State.start_out : s.start.out = [] := rfl
@[simp] theorem State.start_cur : s.start.cur = none := rfl
@[simp] theorem State.start_free : s.start.free = s.free := rfl
@[simp] theorem State.start_pending : s.start.pending = s.pending := rfl
end start

end Sys2Proof.Machine
end

