-- ==== Sys2Proof/Laws/Ops.lean ====
section
/-! SUPPORT. What the shared operations do: for each the parts of the state it may change, and every other part unchanged; and
the completion of a host command. -/

namespace Sys2Proof.Machine

open Sys2Proof

section complete
variable (s : State) (fn : Fn) (sq cid status result : Nat)
theorem State.complete_frame : s.complete fn sq cid status result = { s with hqe := (s.complete fn sq cid status result).hqe, cur := (s.complete fn sq cid status result).cur } := by
  unfold State.complete; dsimp only; split
  · rfl
  · split <;> rfl
@[simp] theorem State.complete_tmf : (s.complete fn sq cid status result).tmf = s.tmf := by
  have h := congrArg State.tmf (s.complete_frame fn sq cid status result); exact h
@[simp] theorem State.complete_sup : (s.complete fn sq cid status result).sup = s.sup := by
  have h := congrArg State.sup (s.complete_frame fn sq cid status result); exact h
@[simp] theorem State.complete_lnk : (s.complete fn sq cid status result).lnk = s.lnk := by
  have h := congrArg State.lnk (s.complete_frame fn sq cid status result); exact h
@[simp] theorem State.complete_cfg : (s.complete fn sq cid status result).cfg = s.cfg := by
  have h := congrArg State.cfg (s.complete_frame fn sq cid status result); exact h
@[simp] theorem State.complete_spa : (s.complete fn sq cid status result).spa = s.spa := by
  have h := congrArg State.spa (s.complete_frame fn sq cid status result); exact h
@[simp] theorem State.complete_kce : (s.complete fn sq cid status result).kce = s.kce := by
  have h := congrArg State.kce (s.complete_frame fn sq cid status result); exact h
@[simp] theorem State.complete_psc : (s.complete fn sq cid status result).psc = s.psc := by
  have h := congrArg State.psc (s.complete_frame fn sq cid status result); exact h
@[simp] theorem State.complete_pla : (s.complete fn sq cid status result).pla = s.pla := by
  have h := congrArg State.pla (s.complete_frame fn sq cid status result); exact h
@[simp] theorem State.complete_vpc : (s.complete fn sq cid status result).vpc = s.vpc := by
  have h := congrArg State.vpc (s.complete_frame fn sq cid status result); exact h
@[simp] theorem State.complete_tcm : (s.complete fn sq cid status result).tcm = s.tcm := by
  have h := congrArg State.tcm (s.complete_frame fn sq cid status result); exact h
@[simp] theorem State.complete_lsw : (s.complete fn sq cid status result).lsw = s.lsw := by
  have h := congrArg State.lsw (s.complete_frame fn sq cid status result); exact h
@[simp] theorem State.complete_bse : (s.complete fn sq cid status result).bse = s.bse := by
  have h := congrArg State.bse (s.complete_frame fn sq cid status result); exact h
@[simp] theorem State.complete_cell : (s.complete fn sq cid status result).cell = s.cell := by
  have h := congrArg State.cell (s.complete_frame fn sq cid status result); exact h
@[simp] theorem State.complete_sgm : (s.complete fn sq cid status result).sgm = s.sgm := by
  have h := congrArg State.sgm (s.complete_frame fn sq cid status result); exact h
@[simp] theorem State.complete_bte : (s.complete fn sq cid status result).bte = s.bte := by
  have h := congrArg State.bte (s.complete_frame fn sq cid status result); exact h
@[simp] theorem State.complete_mss : (s.complete fn sq cid status result).mss = s.mss := by
  have h := congrArg State.mss (s.complete_frame fn sq cid status result); exact h
@[simp] theorem State.complete_shelf : (s.complete fn sq cid status result).shelf = s.shelf := by
  have h := congrArg State.shelf (s.complete_frame fn sq cid status result); exact h
@[simp] theorem State.complete_blk : (s.complete fn sq cid status result).blk = s.blk := by
  have h := congrArg State.blk (s.complete_frame fn sq cid status result); exact h
@[simp] theorem State.complete_evr : (s.complete fn sq cid status result).evr = s.evr := by
  have h := congrArg State.evr (s.complete_frame fn sq cid status result); exact h
@[simp] theorem State.complete_out : (s.complete fn sq cid status result).out = s.out := by
  have h := congrArg State.out (s.complete_frame fn sq cid status result); exact h
@[simp] theorem State.complete_free : (s.complete fn sq cid status result).free = s.free := by
  have h := congrArg State.free (s.complete_frame fn sq cid status result); exact h
@[simp] theorem State.complete_pending : (s.complete fn sq cid status result).pending = s.pending := by
  have h := congrArg State.pending (s.complete_frame fn sq cid status result); exact h
end complete

section done
variable (s : State) (q : Sqe) (status result : Nat)
theorem State.done_frame : s.done q status result = { s with hqe := (s.done q status result).hqe, cur := (s.done q status result).cur } := s.complete_frame q.fn q.sq (cidOf q) status result
@[simp] theorem State.done_tmf : (s.done q status result).tmf = s.tmf := by
  have h := congrArg State.tmf (s.done_frame q status result); exact h
@[simp] theorem State.done_sup : (s.done q status result).sup = s.sup := by
  have h := congrArg State.sup (s.done_frame q status result); exact h
@[simp] theorem State.done_lnk : (s.done q status result).lnk = s.lnk := by
  have h := congrArg State.lnk (s.done_frame q status result); exact h
@[simp] theorem State.done_cfg : (s.done q status result).cfg = s.cfg := by
  have h := congrArg State.cfg (s.done_frame q status result); exact h
@[simp] theorem State.done_spa : (s.done q status result).spa = s.spa := by
  have h := congrArg State.spa (s.done_frame q status result); exact h
@[simp] theorem State.done_kce : (s.done q status result).kce = s.kce := by
  have h := congrArg State.kce (s.done_frame q status result); exact h
@[simp] theorem State.done_psc : (s.done q status result).psc = s.psc := by
  have h := congrArg State.psc (s.done_frame q status result); exact h
@[simp] theorem State.done_pla : (s.done q status result).pla = s.pla := by
  have h := congrArg State.pla (s.done_frame q status result); exact h
@[simp] theorem State.done_vpc : (s.done q status result).vpc = s.vpc := by
  have h := congrArg State.vpc (s.done_frame q status result); exact h
@[simp] theorem State.done_tcm : (s.done q status result).tcm = s.tcm := by
  have h := congrArg State.tcm (s.done_frame q status result); exact h
@[simp] theorem State.done_lsw : (s.done q status result).lsw = s.lsw := by
  have h := congrArg State.lsw (s.done_frame q status result); exact h
@[simp] theorem State.done_bse : (s.done q status result).bse = s.bse := by
  have h := congrArg State.bse (s.done_frame q status result); exact h
@[simp] theorem State.done_cell : (s.done q status result).cell = s.cell := by
  have h := congrArg State.cell (s.done_frame q status result); exact h
@[simp] theorem State.done_sgm : (s.done q status result).sgm = s.sgm := by
  have h := congrArg State.sgm (s.done_frame q status result); exact h
@[simp] theorem State.done_bte : (s.done q status result).bte = s.bte := by
  have h := congrArg State.bte (s.done_frame q status result); exact h
@[simp] theorem State.done_mss : (s.done q status result).mss = s.mss := by
  have h := congrArg State.mss (s.done_frame q status result); exact h
@[simp] theorem State.done_shelf : (s.done q status result).shelf = s.shelf := by
  have h := congrArg State.shelf (s.done_frame q status result); exact h
@[simp] theorem State.done_blk : (s.done q status result).blk = s.blk := by
  have h := congrArg State.blk (s.done_frame q status result); exact h
@[simp] theorem State.done_evr : (s.done q status result).evr = s.evr := by
  have h := congrArg State.evr (s.done_frame q status result); exact h
@[simp] theorem State.done_out : (s.done q status result).out = s.out := by
  have h := congrArg State.out (s.done_frame q status result); exact h
@[simp] theorem State.done_free : (s.done q status result).free = s.free := by
  have h := congrArg State.free (s.done_frame q status result); exact h
@[simp] theorem State.done_pending : (s.done q status result).pending = s.pending := by
  have h := congrArg State.pending (s.done_frame q status result); exact h
end done

section dma
variable (s : State) (fn : Fn) (addr : Nat) (b : List Byte)
theorem State.dma_frame : s.dma fn addr b = { s with out := (s.dma fn addr b).out } := rfl
@[simp] theorem State.dma_hqe : (s.dma fn addr b).hqe = s.hqe := by
  have h := congrArg State.hqe (s.dma_frame fn addr b); exact h
@[simp] theorem State.dma_tmf : (s.dma fn addr b).tmf = s.tmf := by
  have h := congrArg State.tmf (s.dma_frame fn addr b); exact h
@[simp] theorem State.dma_sup : (s.dma fn addr b).sup = s.sup := by
  have h := congrArg State.sup (s.dma_frame fn addr b); exact h
@[simp] theorem State.dma_lnk : (s.dma fn addr b).lnk = s.lnk := by
  have h := congrArg State.lnk (s.dma_frame fn addr b); exact h
@[simp] theorem State.dma_cfg : (s.dma fn addr b).cfg = s.cfg := by
  have h := congrArg State.cfg (s.dma_frame fn addr b); exact h
@[simp] theorem State.dma_spa : (s.dma fn addr b).spa = s.spa := by
  have h := congrArg State.spa (s.dma_frame fn addr b); exact h
@[simp] theorem State.dma_kce : (s.dma fn addr b).kce = s.kce := by
  have h := congrArg State.kce (s.dma_frame fn addr b); exact h
@[simp] theorem State.dma_psc : (s.dma fn addr b).psc = s.psc := by
  have h := congrArg State.psc (s.dma_frame fn addr b); exact h
@[simp] theorem State.dma_pla : (s.dma fn addr b).pla = s.pla := by
  have h := congrArg State.pla (s.dma_frame fn addr b); exact h
@[simp] theorem State.dma_vpc : (s.dma fn addr b).vpc = s.vpc := by
  have h := congrArg State.vpc (s.dma_frame fn addr b); exact h
@[simp] theorem State.dma_tcm : (s.dma fn addr b).tcm = s.tcm := by
  have h := congrArg State.tcm (s.dma_frame fn addr b); exact h
@[simp] theorem State.dma_lsw : (s.dma fn addr b).lsw = s.lsw := by
  have h := congrArg State.lsw (s.dma_frame fn addr b); exact h
@[simp] theorem State.dma_bse : (s.dma fn addr b).bse = s.bse := by
  have h := congrArg State.bse (s.dma_frame fn addr b); exact h
@[simp] theorem State.dma_cell : (s.dma fn addr b).cell = s.cell := by
  have h := congrArg State.cell (s.dma_frame fn addr b); exact h
@[simp] theorem State.dma_sgm : (s.dma fn addr b).sgm = s.sgm := by
  have h := congrArg State.sgm (s.dma_frame fn addr b); exact h
@[simp] theorem State.dma_bte : (s.dma fn addr b).bte = s.bte := by
  have h := congrArg State.bte (s.dma_frame fn addr b); exact h
@[simp] theorem State.dma_mss : (s.dma fn addr b).mss = s.mss := by
  have h := congrArg State.mss (s.dma_frame fn addr b); exact h
@[simp] theorem State.dma_shelf : (s.dma fn addr b).shelf = s.shelf := by
  have h := congrArg State.shelf (s.dma_frame fn addr b); exact h
@[simp] theorem State.dma_blk : (s.dma fn addr b).blk = s.blk := by
  have h := congrArg State.blk (s.dma_frame fn addr b); exact h
@[simp] theorem State.dma_evr : (s.dma fn addr b).evr = s.evr := by
  have h := congrArg State.evr (s.dma_frame fn addr b); exact h
@[simp] theorem State.dma_cur : (s.dma fn addr b).cur = s.cur := by
  have h := congrArg State.cur (s.dma_frame fn addr b); exact h
@[simp] theorem State.dma_free : (s.dma fn addr b).free = s.free := by
  have h := congrArg State.free (s.dma_frame fn addr b); exact h
@[simp] theorem State.dma_pending : (s.dma fn addr b).pending = s.pending := by
  have h := congrArg State.pending (s.dma_frame fn addr b); exact h
end dma

section reply
variable (s : State) (q : Sqe) (b : List Byte)
theorem State.reply_frame : s.reply q b = { s with out := (s.reply q b).out } := rfl
@[simp] theorem State.reply_hqe : (s.reply q b).hqe = s.hqe := by
  have h := congrArg State.hqe (s.reply_frame q b); exact h
@[simp] theorem State.reply_tmf : (s.reply q b).tmf = s.tmf := by
  have h := congrArg State.tmf (s.reply_frame q b); exact h
@[simp] theorem State.reply_sup : (s.reply q b).sup = s.sup := by
  have h := congrArg State.sup (s.reply_frame q b); exact h
@[simp] theorem State.reply_lnk : (s.reply q b).lnk = s.lnk := by
  have h := congrArg State.lnk (s.reply_frame q b); exact h
@[simp] theorem State.reply_cfg : (s.reply q b).cfg = s.cfg := by
  have h := congrArg State.cfg (s.reply_frame q b); exact h
@[simp] theorem State.reply_spa : (s.reply q b).spa = s.spa := by
  have h := congrArg State.spa (s.reply_frame q b); exact h
@[simp] theorem State.reply_kce : (s.reply q b).kce = s.kce := by
  have h := congrArg State.kce (s.reply_frame q b); exact h
@[simp] theorem State.reply_psc : (s.reply q b).psc = s.psc := by
  have h := congrArg State.psc (s.reply_frame q b); exact h
@[simp] theorem State.reply_pla : (s.reply q b).pla = s.pla := by
  have h := congrArg State.pla (s.reply_frame q b); exact h
@[simp] theorem State.reply_vpc : (s.reply q b).vpc = s.vpc := by
  have h := congrArg State.vpc (s.reply_frame q b); exact h
@[simp] theorem State.reply_tcm : (s.reply q b).tcm = s.tcm := by
  have h := congrArg State.tcm (s.reply_frame q b); exact h
@[simp] theorem State.reply_lsw : (s.reply q b).lsw = s.lsw := by
  have h := congrArg State.lsw (s.reply_frame q b); exact h
@[simp] theorem State.reply_bse : (s.reply q b).bse = s.bse := by
  have h := congrArg State.bse (s.reply_frame q b); exact h
@[simp] theorem State.reply_cell : (s.reply q b).cell = s.cell := by
  have h := congrArg State.cell (s.reply_frame q b); exact h
@[simp] theorem State.reply_sgm : (s.reply q b).sgm = s.sgm := by
  have h := congrArg State.sgm (s.reply_frame q b); exact h
@[simp] theorem State.reply_bte : (s.reply q b).bte = s.bte := by
  have h := congrArg State.bte (s.reply_frame q b); exact h
@[simp] theorem State.reply_mss : (s.reply q b).mss = s.mss := by
  have h := congrArg State.mss (s.reply_frame q b); exact h
@[simp] theorem State.reply_shelf : (s.reply q b).shelf = s.shelf := by
  have h := congrArg State.shelf (s.reply_frame q b); exact h
@[simp] theorem State.reply_blk : (s.reply q b).blk = s.blk := by
  have h := congrArg State.blk (s.reply_frame q b); exact h
@[simp] theorem State.reply_evr : (s.reply q b).evr = s.evr := by
  have h := congrArg State.evr (s.reply_frame q b); exact h
@[simp] theorem State.reply_cur : (s.reply q b).cur = s.cur := by
  have h := congrArg State.cur (s.reply_frame q b); exact h
@[simp] theorem State.reply_free : (s.reply q b).free = s.free := by
  have h := congrArg State.free (s.reply_frame q b); exact h
@[simp] theorem State.reply_pending : (s.reply q b).pending = s.pending := by
  have h := congrArg State.pending (s.reply_frame q b); exact h
end reply

section replyDone
variable (s : State) (q : Sqe) (b : List Byte) (r : Nat)
theorem State.replyDone_frame : s.replyDone q b r = { s with hqe := (s.replyDone q b r).hqe, cur := (s.replyDone q b r).cur, out := (s.replyDone q b r).out } := by
  have h := (s.reply q b).done_frame q stDONE r
  unfold State.replyDone; rw [h]; rfl
@[simp] theorem State.replyDone_tmf : (s.replyDone q b r).tmf = s.tmf := by
  have h := congrArg State.tmf (s.replyDone_frame q b r); exact h
@[simp] theorem State.replyDone_sup : (s.replyDone q b r).sup = s.sup := by
  have h := congrArg State.sup (s.replyDone_frame q b r); exact h
@[simp] theorem State.replyDone_lnk : (s.replyDone q b r).lnk = s.lnk := by
  have h := congrArg State.lnk (s.replyDone_frame q b r); exact h
@[simp] theorem State.replyDone_cfg : (s.replyDone q b r).cfg = s.cfg := by
  have h := congrArg State.cfg (s.replyDone_frame q b r); exact h
@[simp] theorem State.replyDone_spa : (s.replyDone q b r).spa = s.spa := by
  have h := congrArg State.spa (s.replyDone_frame q b r); exact h
@[simp] theorem State.replyDone_kce : (s.replyDone q b r).kce = s.kce := by
  have h := congrArg State.kce (s.replyDone_frame q b r); exact h
@[simp] theorem State.replyDone_psc : (s.replyDone q b r).psc = s.psc := by
  have h := congrArg State.psc (s.replyDone_frame q b r); exact h
@[simp] theorem State.replyDone_pla : (s.replyDone q b r).pla = s.pla := by
  have h := congrArg State.pla (s.replyDone_frame q b r); exact h
@[simp] theorem State.replyDone_vpc : (s.replyDone q b r).vpc = s.vpc := by
  have h := congrArg State.vpc (s.replyDone_frame q b r); exact h
@[simp] theorem State.replyDone_tcm : (s.replyDone q b r).tcm = s.tcm := by
  have h := congrArg State.tcm (s.replyDone_frame q b r); exact h
@[simp] theorem State.replyDone_lsw : (s.replyDone q b r).lsw = s.lsw := by
  have h := congrArg State.lsw (s.replyDone_frame q b r); exact h
@[simp] theorem State.replyDone_bse : (s.replyDone q b r).bse = s.bse := by
  have h := congrArg State.bse (s.replyDone_frame q b r); exact h
@[simp] theorem State.replyDone_cell : (s.replyDone q b r).cell = s.cell := by
  have h := congrArg State.cell (s.replyDone_frame q b r); exact h
@[simp] theorem State.replyDone_sgm : (s.replyDone q b r).sgm = s.sgm := by
  have h := congrArg State.sgm (s.replyDone_frame q b r); exact h
@[simp] theorem State.replyDone_bte : (s.replyDone q b r).bte = s.bte := by
  have h := congrArg State.bte (s.replyDone_frame q b r); exact h
@[simp] theorem State.replyDone_mss : (s.replyDone q b r).mss = s.mss := by
  have h := congrArg State.mss (s.replyDone_frame q b r); exact h
@[simp] theorem State.replyDone_shelf : (s.replyDone q b r).shelf = s.shelf := by
  have h := congrArg State.shelf (s.replyDone_frame q b r); exact h
@[simp] theorem State.replyDone_blk : (s.replyDone q b r).blk = s.blk := by
  have h := congrArg State.blk (s.replyDone_frame q b r); exact h
@[simp] theorem State.replyDone_evr : (s.replyDone q b r).evr = s.evr := by
  have h := congrArg State.evr (s.replyDone_frame q b r); exact h
@[simp] theorem State.replyDone_free : (s.replyDone q b r).free = s.free := by
  have h := congrArg State.free (s.replyDone_frame q b r); exact h
@[simp] theorem State.replyDone_pending : (s.replyDone q b r).pending = s.pending := by
  have h := congrArg State.pending (s.replyDone_frame q b r); exact h
end replyDone

section accept
variable (s : State) (q : Sqe)
theorem State.accept_frame : s.accept q = { s with hqe := (s.accept q).hqe, cur := (s.accept q).cur } := rfl
@[simp] theorem State.accept_tmf : (s.accept q).tmf = s.tmf := by
  have h := congrArg State.tmf (s.accept_frame q); exact h
@[simp] theorem State.accept_sup : (s.accept q).sup = s.sup := by
  have h := congrArg State.sup (s.accept_frame q); exact h
@[simp] theorem State.accept_lnk : (s.accept q).lnk = s.lnk := by
  have h := congrArg State.lnk (s.accept_frame q); exact h
@[simp] theorem State.accept_cfg : (s.accept q).cfg = s.cfg := by
  have h := congrArg State.cfg (s.accept_frame q); exact h
@[simp] theorem State.accept_spa : (s.accept q).spa = s.spa := by
  have h := congrArg State.spa (s.accept_frame q); exact h
@[simp] theorem State.accept_kce : (s.accept q).kce = s.kce := by
  have h := congrArg State.kce (s.accept_frame q); exact h
@[simp] theorem State.accept_psc : (s.accept q).psc = s.psc := by
  have h := congrArg State.psc (s.accept_frame q); exact h
@[simp] theorem State.accept_pla : (s.accept q).pla = s.pla := by
  have h := congrArg State.pla (s.accept_frame q); exact h
@[simp] theorem State.accept_vpc : (s.accept q).vpc = s.vpc := by
  have h := congrArg State.vpc (s.accept_frame q); exact h
@[simp] theorem State.accept_tcm : (s.accept q).tcm = s.tcm := by
  have h := congrArg State.tcm (s.accept_frame q); exact h
@[simp] theorem State.accept_lsw : (s.accept q).lsw = s.lsw := by
  have h := congrArg State.lsw (s.accept_frame q); exact h
@[simp] theorem State.accept_bse : (s.accept q).bse = s.bse := by
  have h := congrArg State.bse (s.accept_frame q); exact h
@[simp] theorem State.accept_cell : (s.accept q).cell = s.cell := by
  have h := congrArg State.cell (s.accept_frame q); exact h
@[simp] theorem State.accept_sgm : (s.accept q).sgm = s.sgm := by
  have h := congrArg State.sgm (s.accept_frame q); exact h
@[simp] theorem State.accept_bte : (s.accept q).bte = s.bte := by
  have h := congrArg State.bte (s.accept_frame q); exact h
@[simp] theorem State.accept_mss : (s.accept q).mss = s.mss := by
  have h := congrArg State.mss (s.accept_frame q); exact h
@[simp] theorem State.accept_shelf : (s.accept q).shelf = s.shelf := by
  have h := congrArg State.shelf (s.accept_frame q); exact h
@[simp] theorem State.accept_blk : (s.accept q).blk = s.blk := by
  have h := congrArg State.blk (s.accept_frame q); exact h
@[simp] theorem State.accept_evr : (s.accept q).evr = s.evr := by
  have h := congrArg State.evr (s.accept_frame q); exact h
@[simp] theorem State.accept_out : (s.accept q).out = s.out := by
  have h := congrArg State.out (s.accept_frame q); exact h
@[simp] theorem State.accept_free : (s.accept q).free = s.free := by
  have h := congrArg State.free (s.accept_frame q); exact h
@[simp] theorem State.accept_pending : (s.accept q).pending = s.pending := by
  have h := congrArg State.pending (s.accept_frame q); exact h
end accept

section answer
variable (s : State) (sq cid status result addr : Nat) (b : List Byte)
theorem State.answer_frame : s.answer sq cid status result addr b = { s with hqe := (s.answer sq cid status result addr b).hqe } := rfl
@[simp] theorem State.answer_tmf : (s.answer sq cid status result addr b).tmf = s.tmf := by
  have h := congrArg State.tmf (s.answer_frame sq cid status result addr b); exact h
@[simp] theorem State.answer_sup : (s.answer sq cid status result addr b).sup = s.sup := by
  have h := congrArg State.sup (s.answer_frame sq cid status result addr b); exact h
@[simp] theorem State.answer_lnk : (s.answer sq cid status result addr b).lnk = s.lnk := by
  have h := congrArg State.lnk (s.answer_frame sq cid status result addr b); exact h
@[simp] theorem State.answer_cfg : (s.answer sq cid status result addr b).cfg = s.cfg := by
  have h := congrArg State.cfg (s.answer_frame sq cid status result addr b); exact h
@[simp] theorem State.answer_spa : (s.answer sq cid status result addr b).spa = s.spa := by
  have h := congrArg State.spa (s.answer_frame sq cid status result addr b); exact h
@[simp] theorem State.answer_kce : (s.answer sq cid status result addr b).kce = s.kce := by
  have h := congrArg State.kce (s.answer_frame sq cid status result addr b); exact h
@[simp] theorem State.answer_psc : (s.answer sq cid status result addr b).psc = s.psc := by
  have h := congrArg State.psc (s.answer_frame sq cid status result addr b); exact h
@[simp] theorem State.answer_pla : (s.answer sq cid status result addr b).pla = s.pla := by
  have h := congrArg State.pla (s.answer_frame sq cid status result addr b); exact h
@[simp] theorem State.answer_vpc : (s.answer sq cid status result addr b).vpc = s.vpc := by
  have h := congrArg State.vpc (s.answer_frame sq cid status result addr b); exact h
@[simp] theorem State.answer_tcm : (s.answer sq cid status result addr b).tcm = s.tcm := by
  have h := congrArg State.tcm (s.answer_frame sq cid status result addr b); exact h
@[simp] theorem State.answer_lsw : (s.answer sq cid status result addr b).lsw = s.lsw := by
  have h := congrArg State.lsw (s.answer_frame sq cid status result addr b); exact h
@[simp] theorem State.answer_bse : (s.answer sq cid status result addr b).bse = s.bse := by
  have h := congrArg State.bse (s.answer_frame sq cid status result addr b); exact h
@[simp] theorem State.answer_cell : (s.answer sq cid status result addr b).cell = s.cell := by
  have h := congrArg State.cell (s.answer_frame sq cid status result addr b); exact h
@[simp] theorem State.answer_sgm : (s.answer sq cid status result addr b).sgm = s.sgm := by
  have h := congrArg State.sgm (s.answer_frame sq cid status result addr b); exact h
@[simp] theorem State.answer_bte : (s.answer sq cid status result addr b).bte = s.bte := by
  have h := congrArg State.bte (s.answer_frame sq cid status result addr b); exact h
@[simp] theorem State.answer_mss : (s.answer sq cid status result addr b).mss = s.mss := by
  have h := congrArg State.mss (s.answer_frame sq cid status result addr b); exact h
@[simp] theorem State.answer_shelf : (s.answer sq cid status result addr b).shelf = s.shelf := by
  have h := congrArg State.shelf (s.answer_frame sq cid status result addr b); exact h
@[simp] theorem State.answer_blk : (s.answer sq cid status result addr b).blk = s.blk := by
  have h := congrArg State.blk (s.answer_frame sq cid status result addr b); exact h
@[simp] theorem State.answer_evr : (s.answer sq cid status result addr b).evr = s.evr := by
  have h := congrArg State.evr (s.answer_frame sq cid status result addr b); exact h
@[simp] theorem State.answer_out : (s.answer sq cid status result addr b).out = s.out := by
  have h := congrArg State.out (s.answer_frame sq cid status result addr b); exact h
@[simp] theorem State.answer_cur : (s.answer sq cid status result addr b).cur = s.cur := by
  have h := congrArg State.cur (s.answer_frame sq cid status result addr b); exact h
@[simp] theorem State.answer_free : (s.answer sq cid status result addr b).free = s.free := by
  have h := congrArg State.free (s.answer_frame sq cid status result addr b); exact h
@[simp] theorem State.answer_pending : (s.answer sq cid status result addr b).pending = s.pending := by
  have h := congrArg State.pending (s.answer_frame sq cid status result addr b); exact h
end answer

section fire
variable (s : State) (fn : Fn) (v : Nat)
theorem State.fire_frame : s.fire fn v = { s with hqe := (s.fire fn v).hqe, out := (s.fire fn v).out } := by unfold State.fire; dsimp only; split <;> rfl
@[simp] theorem State.fire_tmf : (s.fire fn v).tmf = s.tmf := by
  have h := congrArg State.tmf (s.fire_frame fn v); exact h
@[simp] theorem State.fire_sup : (s.fire fn v).sup = s.sup := by
  have h := congrArg State.sup (s.fire_frame fn v); exact h
@[simp] theorem State.fire_lnk : (s.fire fn v).lnk = s.lnk := by
  have h := congrArg State.lnk (s.fire_frame fn v); exact h
@[simp] theorem State.fire_cfg : (s.fire fn v).cfg = s.cfg := by
  have h := congrArg State.cfg (s.fire_frame fn v); exact h
@[simp] theorem State.fire_spa : (s.fire fn v).spa = s.spa := by
  have h := congrArg State.spa (s.fire_frame fn v); exact h
@[simp] theorem State.fire_kce : (s.fire fn v).kce = s.kce := by
  have h := congrArg State.kce (s.fire_frame fn v); exact h
@[simp] theorem State.fire_psc : (s.fire fn v).psc = s.psc := by
  have h := congrArg State.psc (s.fire_frame fn v); exact h
@[simp] theorem State.fire_pla : (s.fire fn v).pla = s.pla := by
  have h := congrArg State.pla (s.fire_frame fn v); exact h
@[simp] theorem State.fire_vpc : (s.fire fn v).vpc = s.vpc := by
  have h := congrArg State.vpc (s.fire_frame fn v); exact h
@[simp] theorem State.fire_tcm : (s.fire fn v).tcm = s.tcm := by
  have h := congrArg State.tcm (s.fire_frame fn v); exact h
@[simp] theorem State.fire_lsw : (s.fire fn v).lsw = s.lsw := by
  have h := congrArg State.lsw (s.fire_frame fn v); exact h
@[simp] theorem State.fire_bse : (s.fire fn v).bse = s.bse := by
  have h := congrArg State.bse (s.fire_frame fn v); exact h
@[simp] theorem State.fire_cell : (s.fire fn v).cell = s.cell := by
  have h := congrArg State.cell (s.fire_frame fn v); exact h
@[simp] theorem State.fire_sgm : (s.fire fn v).sgm = s.sgm := by
  have h := congrArg State.sgm (s.fire_frame fn v); exact h
@[simp] theorem State.fire_bte : (s.fire fn v).bte = s.bte := by
  have h := congrArg State.bte (s.fire_frame fn v); exact h
@[simp] theorem State.fire_mss : (s.fire fn v).mss = s.mss := by
  have h := congrArg State.mss (s.fire_frame fn v); exact h
@[simp] theorem State.fire_shelf : (s.fire fn v).shelf = s.shelf := by
  have h := congrArg State.shelf (s.fire_frame fn v); exact h
@[simp] theorem State.fire_blk : (s.fire fn v).blk = s.blk := by
  have h := congrArg State.blk (s.fire_frame fn v); exact h
@[simp] theorem State.fire_evr : (s.fire fn v).evr = s.evr := by
  have h := congrArg State.evr (s.fire_frame fn v); exact h
@[simp] theorem State.fire_cur : (s.fire fn v).cur = s.cur := by
  have h := congrArg State.cur (s.fire_frame fn v); exact h
@[simp] theorem State.fire_free : (s.fire fn v).free = s.free := by
  have h := congrArg State.free (s.fire_frame fn v); exact h
@[simp] theorem State.fire_pending : (s.fire fn v).pending = s.pending := by
  have h := congrArg State.pending (s.fire_frame fn v); exact h
end fire

section fireEvent
variable (s : State) (fn : Fn) (v : Nat)
theorem State.fireEvent_frame : s.fireEvent fn v = { s with hqe := (s.fireEvent fn v).hqe, out := (s.fireEvent fn v).out } := by
  have h := s.fire_frame fn v
  unfold State.fireEvent; dsimp only; split
  · rfl
  · split
    · exact h
    · rw [h]; rfl
@[simp] theorem State.fireEvent_tmf : (s.fireEvent fn v).tmf = s.tmf := by
  have h := congrArg State.tmf (s.fireEvent_frame fn v); exact h
@[simp] theorem State.fireEvent_sup : (s.fireEvent fn v).sup = s.sup := by
  have h := congrArg State.sup (s.fireEvent_frame fn v); exact h
@[simp] theorem State.fireEvent_lnk : (s.fireEvent fn v).lnk = s.lnk := by
  have h := congrArg State.lnk (s.fireEvent_frame fn v); exact h
@[simp] theorem State.fireEvent_cfg : (s.fireEvent fn v).cfg = s.cfg := by
  have h := congrArg State.cfg (s.fireEvent_frame fn v); exact h
@[simp] theorem State.fireEvent_spa : (s.fireEvent fn v).spa = s.spa := by
  have h := congrArg State.spa (s.fireEvent_frame fn v); exact h
@[simp] theorem State.fireEvent_kce : (s.fireEvent fn v).kce = s.kce := by
  have h := congrArg State.kce (s.fireEvent_frame fn v); exact h
@[simp] theorem State.fireEvent_psc : (s.fireEvent fn v).psc = s.psc := by
  have h := congrArg State.psc (s.fireEvent_frame fn v); exact h
@[simp] theorem State.fireEvent_pla : (s.fireEvent fn v).pla = s.pla := by
  have h := congrArg State.pla (s.fireEvent_frame fn v); exact h
@[simp] theorem State.fireEvent_vpc : (s.fireEvent fn v).vpc = s.vpc := by
  have h := congrArg State.vpc (s.fireEvent_frame fn v); exact h
@[simp] theorem State.fireEvent_tcm : (s.fireEvent fn v).tcm = s.tcm := by
  have h := congrArg State.tcm (s.fireEvent_frame fn v); exact h
@[simp] theorem State.fireEvent_lsw : (s.fireEvent fn v).lsw = s.lsw := by
  have h := congrArg State.lsw (s.fireEvent_frame fn v); exact h
@[simp] theorem State.fireEvent_bse : (s.fireEvent fn v).bse = s.bse := by
  have h := congrArg State.bse (s.fireEvent_frame fn v); exact h
@[simp] theorem State.fireEvent_cell : (s.fireEvent fn v).cell = s.cell := by
  have h := congrArg State.cell (s.fireEvent_frame fn v); exact h
@[simp] theorem State.fireEvent_sgm : (s.fireEvent fn v).sgm = s.sgm := by
  have h := congrArg State.sgm (s.fireEvent_frame fn v); exact h
@[simp] theorem State.fireEvent_bte : (s.fireEvent fn v).bte = s.bte := by
  have h := congrArg State.bte (s.fireEvent_frame fn v); exact h
@[simp] theorem State.fireEvent_mss : (s.fireEvent fn v).mss = s.mss := by
  have h := congrArg State.mss (s.fireEvent_frame fn v); exact h
@[simp] theorem State.fireEvent_shelf : (s.fireEvent fn v).shelf = s.shelf := by
  have h := congrArg State.shelf (s.fireEvent_frame fn v); exact h
@[simp] theorem State.fireEvent_blk : (s.fireEvent fn v).blk = s.blk := by
  have h := congrArg State.blk (s.fireEvent_frame fn v); exact h
@[simp] theorem State.fireEvent_evr : (s.fireEvent fn v).evr = s.evr := by
  have h := congrArg State.evr (s.fireEvent_frame fn v); exact h
@[simp] theorem State.fireEvent_cur : (s.fireEvent fn v).cur = s.cur := by
  have h := congrArg State.cur (s.fireEvent_frame fn v); exact h
@[simp] theorem State.fireEvent_free : (s.fireEvent fn v).free = s.free := by
  have h := congrArg State.free (s.fireEvent_frame fn v); exact h
@[simp] theorem State.fireEvent_pending : (s.fireEvent fn v).pending = s.pending := by
  have h := congrArg State.pending (s.fireEvent_frame fn v); exact h
end fireEvent

section postEvent
variable (s : State) (fn : Fn) (vec sub arg src : Nat)
theorem State.postEvent_frame : s.postEvent fn vec sub arg src = { s with hqe := (s.postEvent fn vec sub arg src).hqe, out := (s.postEvent fn vec sub arg src).out } := by
  have h := s.fireEvent_frame fn vec
  unfold State.postEvent; dsimp only; split
  · split
    · exact h
    · split <;> (rw [h]; rfl)
  · rfl
@[simp] theorem State.postEvent_tmf : (s.postEvent fn vec sub arg src).tmf = s.tmf := by
  have h := congrArg State.tmf (s.postEvent_frame fn vec sub arg src); exact h
@[simp] theorem State.postEvent_sup : (s.postEvent fn vec sub arg src).sup = s.sup := by
  have h := congrArg State.sup (s.postEvent_frame fn vec sub arg src); exact h
@[simp] theorem State.postEvent_lnk : (s.postEvent fn vec sub arg src).lnk = s.lnk := by
  have h := congrArg State.lnk (s.postEvent_frame fn vec sub arg src); exact h
@[simp] theorem State.postEvent_cfg : (s.postEvent fn vec sub arg src).cfg = s.cfg := by
  have h := congrArg State.cfg (s.postEvent_frame fn vec sub arg src); exact h
@[simp] theorem State.postEvent_spa : (s.postEvent fn vec sub arg src).spa = s.spa := by
  have h := congrArg State.spa (s.postEvent_frame fn vec sub arg src); exact h
@[simp] theorem State.postEvent_kce : (s.postEvent fn vec sub arg src).kce = s.kce := by
  have h := congrArg State.kce (s.postEvent_frame fn vec sub arg src); exact h
@[simp] theorem State.postEvent_psc : (s.postEvent fn vec sub arg src).psc = s.psc := by
  have h := congrArg State.psc (s.postEvent_frame fn vec sub arg src); exact h
@[simp] theorem State.postEvent_pla : (s.postEvent fn vec sub arg src).pla = s.pla := by
  have h := congrArg State.pla (s.postEvent_frame fn vec sub arg src); exact h
@[simp] theorem State.postEvent_vpc : (s.postEvent fn vec sub arg src).vpc = s.vpc := by
  have h := congrArg State.vpc (s.postEvent_frame fn vec sub arg src); exact h
@[simp] theorem State.postEvent_tcm : (s.postEvent fn vec sub arg src).tcm = s.tcm := by
  have h := congrArg State.tcm (s.postEvent_frame fn vec sub arg src); exact h
@[simp] theorem State.postEvent_lsw : (s.postEvent fn vec sub arg src).lsw = s.lsw := by
  have h := congrArg State.lsw (s.postEvent_frame fn vec sub arg src); exact h
@[simp] theorem State.postEvent_bse : (s.postEvent fn vec sub arg src).bse = s.bse := by
  have h := congrArg State.bse (s.postEvent_frame fn vec sub arg src); exact h
@[simp] theorem State.postEvent_cell : (s.postEvent fn vec sub arg src).cell = s.cell := by
  have h := congrArg State.cell (s.postEvent_frame fn vec sub arg src); exact h
@[simp] theorem State.postEvent_sgm : (s.postEvent fn vec sub arg src).sgm = s.sgm := by
  have h := congrArg State.sgm (s.postEvent_frame fn vec sub arg src); exact h
@[simp] theorem State.postEvent_bte : (s.postEvent fn vec sub arg src).bte = s.bte := by
  have h := congrArg State.bte (s.postEvent_frame fn vec sub arg src); exact h
@[simp] theorem State.postEvent_mss : (s.postEvent fn vec sub arg src).mss = s.mss := by
  have h := congrArg State.mss (s.postEvent_frame fn vec sub arg src); exact h
@[simp] theorem State.postEvent_shelf : (s.postEvent fn vec sub arg src).shelf = s.shelf := by
  have h := congrArg State.shelf (s.postEvent_frame fn vec sub arg src); exact h
@[simp] theorem State.postEvent_blk : (s.postEvent fn vec sub arg src).blk = s.blk := by
  have h := congrArg State.blk (s.postEvent_frame fn vec sub arg src); exact h
@[simp] theorem State.postEvent_evr : (s.postEvent fn vec sub arg src).evr = s.evr := by
  have h := congrArg State.evr (s.postEvent_frame fn vec sub arg src); exact h
@[simp] theorem State.postEvent_cur : (s.postEvent fn vec sub arg src).cur = s.cur := by
  have h := congrArg State.cur (s.postEvent_frame fn vec sub arg src); exact h
@[simp] theorem State.postEvent_free : (s.postEvent fn vec sub arg src).free = s.free := by
  have h := congrArg State.free (s.postEvent_frame fn vec sub arg src); exact h
@[simp] theorem State.postEvent_pending : (s.postEvent fn vec sub arg src).pending = s.pending := by
  have h := congrArg State.pending (s.postEvent_frame fn vec sub arg src); exact h
end postEvent

section supEvent
variable (s : State) (vec sub arg src : Nat)
theorem State.supEvent_frame : s.supEvent vec sub arg src = { s with hqe := (s.supEvent vec sub arg src).hqe, out := (s.supEvent vec sub arg src).out, sup := (s.supEvent vec sub arg src).sup } := by
  have h := (s.onSup (fun p => { p with lastEvent := some (vec - 64, src % 256, sub, arg % 256) })).postEvent_frame .pf0 vec sub arg src
  unfold State.supEvent; rw [h]; rfl
@[simp] theorem State.supEvent_tmf : (s.supEvent vec sub arg src).tmf = s.tmf := by
  have h := congrArg State.tmf (s.supEvent_frame vec sub arg src); exact h
@[simp] theorem State.supEvent_lnk : (s.supEvent vec sub arg src).lnk = s.lnk := by
  have h := congrArg State.lnk (s.supEvent_frame vec sub arg src); exact h
@[simp] theorem State.supEvent_cfg : (s.supEvent vec sub arg src).cfg = s.cfg := by
  have h := congrArg State.cfg (s.supEvent_frame vec sub arg src); exact h
@[simp] theorem State.supEvent_spa : (s.supEvent vec sub arg src).spa = s.spa := by
  have h := congrArg State.spa (s.supEvent_frame vec sub arg src); exact h
@[simp] theorem State.supEvent_kce : (s.supEvent vec sub arg src).kce = s.kce := by
  have h := congrArg State.kce (s.supEvent_frame vec sub arg src); exact h
@[simp] theorem State.supEvent_psc : (s.supEvent vec sub arg src).psc = s.psc := by
  have h := congrArg State.psc (s.supEvent_frame vec sub arg src); exact h
@[simp] theorem State.supEvent_pla : (s.supEvent vec sub arg src).pla = s.pla := by
  have h := congrArg State.pla (s.supEvent_frame vec sub arg src); exact h
@[simp] theorem State.supEvent_vpc : (s.supEvent vec sub arg src).vpc = s.vpc := by
  have h := congrArg State.vpc (s.supEvent_frame vec sub arg src); exact h
@[simp] theorem State.supEvent_tcm : (s.supEvent vec sub arg src).tcm = s.tcm := by
  have h := congrArg State.tcm (s.supEvent_frame vec sub arg src); exact h
@[simp] theorem State.supEvent_lsw : (s.supEvent vec sub arg src).lsw = s.lsw := by
  have h := congrArg State.lsw (s.supEvent_frame vec sub arg src); exact h
@[simp] theorem State.supEvent_bse : (s.supEvent vec sub arg src).bse = s.bse := by
  have h := congrArg State.bse (s.supEvent_frame vec sub arg src); exact h
@[simp] theorem State.supEvent_cell : (s.supEvent vec sub arg src).cell = s.cell := by
  have h := congrArg State.cell (s.supEvent_frame vec sub arg src); exact h
@[simp] theorem State.supEvent_sgm : (s.supEvent vec sub arg src).sgm = s.sgm := by
  have h := congrArg State.sgm (s.supEvent_frame vec sub arg src); exact h
@[simp] theorem State.supEvent_bte : (s.supEvent vec sub arg src).bte = s.bte := by
  have h := congrArg State.bte (s.supEvent_frame vec sub arg src); exact h
@[simp] theorem State.supEvent_mss : (s.supEvent vec sub arg src).mss = s.mss := by
  have h := congrArg State.mss (s.supEvent_frame vec sub arg src); exact h
@[simp] theorem State.supEvent_shelf : (s.supEvent vec sub arg src).shelf = s.shelf := by
  have h := congrArg State.shelf (s.supEvent_frame vec sub arg src); exact h
@[simp] theorem State.supEvent_blk : (s.supEvent vec sub arg src).blk = s.blk := by
  have h := congrArg State.blk (s.supEvent_frame vec sub arg src); exact h
@[simp] theorem State.supEvent_evr : (s.supEvent vec sub arg src).evr = s.evr := by
  have h := congrArg State.evr (s.supEvent_frame vec sub arg src); exact h
@[simp] theorem State.supEvent_cur : (s.supEvent vec sub arg src).cur = s.cur := by
  have h := congrArg State.cur (s.supEvent_frame vec sub arg src); exact h
@[simp] theorem State.supEvent_free : (s.supEvent vec sub arg src).free = s.free := by
  have h := congrArg State.free (s.supEvent_frame vec sub arg src); exact h
@[simp] theorem State.supEvent_pending : (s.supEvent vec sub arg src).pending = s.pending := by
  have h := congrArg State.pending (s.supEvent_frame vec sub arg src); exact h
end supEvent

section faultRec
variable (s : State) (island code a0 a1 a2 : Nat)
theorem State.faultRec_frame : s.faultRec island code a0 a1 a2 = { s with sup := (s.faultRec island code a0 a1 a2).sup } := rfl
@[simp] theorem State.faultRec_hqe : (s.faultRec island code a0 a1 a2).hqe = s.hqe := by
  have h := congrArg State.hqe (s.faultRec_frame island code a0 a1 a2); exact h
@[simp] theorem State.faultRec_tmf : (s.faultRec island code a0 a1 a2).tmf = s.tmf := by
  have h := congrArg State.tmf (s.faultRec_frame island code a0 a1 a2); exact h
@[simp] theorem State.faultRec_lnk : (s.faultRec island code a0 a1 a2).lnk = s.lnk := by
  have h := congrArg State.lnk (s.faultRec_frame island code a0 a1 a2); exact h
@[simp] theorem State.faultRec_cfg : (s.faultRec island code a0 a1 a2).cfg = s.cfg := by
  have h := congrArg State.cfg (s.faultRec_frame island code a0 a1 a2); exact h
@[simp] theorem State.faultRec_spa : (s.faultRec island code a0 a1 a2).spa = s.spa := by
  have h := congrArg State.spa (s.faultRec_frame island code a0 a1 a2); exact h
@[simp] theorem State.faultRec_kce : (s.faultRec island code a0 a1 a2).kce = s.kce := by
  have h := congrArg State.kce (s.faultRec_frame island code a0 a1 a2); exact h
@[simp] theorem State.faultRec_psc : (s.faultRec island code a0 a1 a2).psc = s.psc := by
  have h := congrArg State.psc (s.faultRec_frame island code a0 a1 a2); exact h
@[simp] theorem State.faultRec_pla : (s.faultRec island code a0 a1 a2).pla = s.pla := by
  have h := congrArg State.pla (s.faultRec_frame island code a0 a1 a2); exact h
@[simp] theorem State.faultRec_vpc : (s.faultRec island code a0 a1 a2).vpc = s.vpc := by
  have h := congrArg State.vpc (s.faultRec_frame island code a0 a1 a2); exact h
@[simp] theorem State.faultRec_tcm : (s.faultRec island code a0 a1 a2).tcm = s.tcm := by
  have h := congrArg State.tcm (s.faultRec_frame island code a0 a1 a2); exact h
@[simp] theorem State.faultRec_lsw : (s.faultRec island code a0 a1 a2).lsw = s.lsw := by
  have h := congrArg State.lsw (s.faultRec_frame island code a0 a1 a2); exact h
@[simp] theorem State.faultRec_bse : (s.faultRec island code a0 a1 a2).bse = s.bse := by
  have h := congrArg State.bse (s.faultRec_frame island code a0 a1 a2); exact h
@[simp] theorem State.faultRec_cell : (s.faultRec island code a0 a1 a2).cell = s.cell := by
  have h := congrArg State.cell (s.faultRec_frame island code a0 a1 a2); exact h
@[simp] theorem State.faultRec_sgm : (s.faultRec island code a0 a1 a2).sgm = s.sgm := by
  have h := congrArg State.sgm (s.faultRec_frame island code a0 a1 a2); exact h
@[simp] theorem State.faultRec_bte : (s.faultRec island code a0 a1 a2).bte = s.bte := by
  have h := congrArg State.bte (s.faultRec_frame island code a0 a1 a2); exact h
@[simp] theorem State.faultRec_mss : (s.faultRec island code a0 a1 a2).mss = s.mss := by
  have h := congrArg State.mss (s.faultRec_frame island code a0 a1 a2); exact h
@[simp] theorem State.faultRec_shelf : (s.faultRec island code a0 a1 a2).shelf = s.shelf := by
  have h := congrArg State.shelf (s.faultRec_frame island code a0 a1 a2); exact h
@[simp] theorem State.faultRec_blk : (s.faultRec island code a0 a1 a2).blk = s.blk := by
  have h := congrArg State.blk (s.faultRec_frame island code a0 a1 a2); exact h
@[simp] theorem State.faultRec_evr : (s.faultRec island code a0 a1 a2).evr = s.evr := by
  have h := congrArg State.evr (s.faultRec_frame island code a0 a1 a2); exact h
@[simp] theorem State.faultRec_out : (s.faultRec island code a0 a1 a2).out = s.out := by
  have h := congrArg State.out (s.faultRec_frame island code a0 a1 a2); exact h
@[simp] theorem State.faultRec_cur : (s.faultRec island code a0 a1 a2).cur = s.cur := by
  have h := congrArg State.cur (s.faultRec_frame island code a0 a1 a2); exact h
@[simp] theorem State.faultRec_free : (s.faultRec island code a0 a1 a2).free = s.free := by
  have h := congrArg State.free (s.faultRec_frame island code a0 a1 a2); exact h
@[simp] theorem State.faultRec_pending : (s.faultRec island code a0 a1 a2).pending = s.pending := by
  have h := congrArg State.pending (s.faultRec_frame island code a0 a1 a2); exact h
end faultRec

section sjWrite
variable (s : State) (f : Journal → Journal)
theorem State.sjWrite_frame : s.sjWrite f = { s with sup := (s.sjWrite f).sup } := rfl
@[simp] theorem State.sjWrite_hqe : (s.sjWrite f).hqe = s.hqe := by
  have h := congrArg State.hqe (s.sjWrite_frame f); exact h
@[simp] theorem State.sjWrite_tmf : (s.sjWrite f).tmf = s.tmf := by
  have h := congrArg State.tmf (s.sjWrite_frame f); exact h
@[simp] theorem State.sjWrite_lnk : (s.sjWrite f).lnk = s.lnk := by
  have h := congrArg State.lnk (s.sjWrite_frame f); exact h
@[simp] theorem State.sjWrite_cfg : (s.sjWrite f).cfg = s.cfg := by
  have h := congrArg State.cfg (s.sjWrite_frame f); exact h
@[simp] theorem State.sjWrite_spa : (s.sjWrite f).spa = s.spa := by
  have h := congrArg State.spa (s.sjWrite_frame f); exact h
@[simp] theorem State.sjWrite_kce : (s.sjWrite f).kce = s.kce := by
  have h := congrArg State.kce (s.sjWrite_frame f); exact h
@[simp] theorem State.sjWrite_psc : (s.sjWrite f).psc = s.psc := by
  have h := congrArg State.psc (s.sjWrite_frame f); exact h
@[simp] theorem State.sjWrite_pla : (s.sjWrite f).pla = s.pla := by
  have h := congrArg State.pla (s.sjWrite_frame f); exact h
@[simp] theorem State.sjWrite_vpc : (s.sjWrite f).vpc = s.vpc := by
  have h := congrArg State.vpc (s.sjWrite_frame f); exact h
@[simp] theorem State.sjWrite_tcm : (s.sjWrite f).tcm = s.tcm := by
  have h := congrArg State.tcm (s.sjWrite_frame f); exact h
@[simp] theorem State.sjWrite_lsw : (s.sjWrite f).lsw = s.lsw := by
  have h := congrArg State.lsw (s.sjWrite_frame f); exact h
@[simp] theorem State.sjWrite_bse : (s.sjWrite f).bse = s.bse := by
  have h := congrArg State.bse (s.sjWrite_frame f); exact h
@[simp] theorem State.sjWrite_cell : (s.sjWrite f).cell = s.cell := by
  have h := congrArg State.cell (s.sjWrite_frame f); exact h
@[simp] theorem State.sjWrite_sgm : (s.sjWrite f).sgm = s.sgm := by
  have h := congrArg State.sgm (s.sjWrite_frame f); exact h
@[simp] theorem State.sjWrite_bte : (s.sjWrite f).bte = s.bte := by
  have h := congrArg State.bte (s.sjWrite_frame f); exact h
@[simp] theorem State.sjWrite_mss : (s.sjWrite f).mss = s.mss := by
  have h := congrArg State.mss (s.sjWrite_frame f); exact h
@[simp] theorem State.sjWrite_shelf : (s.sjWrite f).shelf = s.shelf := by
  have h := congrArg State.shelf (s.sjWrite_frame f); exact h
@[simp] theorem State.sjWrite_blk : (s.sjWrite f).blk = s.blk := by
  have h := congrArg State.blk (s.sjWrite_frame f); exact h
@[simp] theorem State.sjWrite_evr : (s.sjWrite f).evr = s.evr := by
  have h := congrArg State.evr (s.sjWrite_frame f); exact h
@[simp] theorem State.sjWrite_out : (s.sjWrite f).out = s.out := by
  have h := congrArg State.out (s.sjWrite_frame f); exact h
@[simp] theorem State.sjWrite_cur : (s.sjWrite f).cur = s.cur := by
  have h := congrArg State.cur (s.sjWrite_frame f); exact h
@[simp] theorem State.sjWrite_free : (s.sjWrite f).free = s.free := by
  have h := congrArg State.free (s.sjWrite_frame f); exact h
@[simp] theorem State.sjWrite_pending : (s.sjWrite f).pending = s.pending := by
  have h := congrArg State.pending (s.sjWrite_frame f); exact h
end sjWrite

/-! ### Taking and completing a host command -/

/-- An entry taken out of a list leaves the entries that are not like it. -/
theorem takeFirst_filter {α : Type} (p : α → Bool) (l : List α) (x : α) (r : List α)
    (h : takeFirst p l = some (x, r)) : r.filter (fun a => !p a) = l.filter (fun a => !p a) ∧ p x = true ∧ x ∈ l := by
  induction l generalizing x r with
  | nil => simp [takeFirst] at h
  | cons a l ih =>
    unfold takeFirst at h
    split at h
    · next hp => simp only [Option.some.injEq, Prod.mk.injEq] at h; obtain ⟨rfl, rfl⟩ := h; simp [hp]
    · next hp =>
      simp only [Option.map_eq_some_iff, Prod.exists, Prod.mk.injEq] at h
      obtain ⟨y, t, ht, rfl, rfl⟩ := h
      obtain ⟨h1, h2, h3⟩ := ih y t ht
      exact ⟨by simp [hp, h1], h2, List.mem_cons_of_mem _ h3⟩

/-- An entry that is in the list is found. -/
theorem takeFirst_isSome {α : Type} (p : α → Bool) (l : List α) (h : l.any p = true) : (takeFirst p l).isSome = true := by
  induction l with
  | nil => simp at h
  | cons a l ih =>
    unfold takeFirst
    split
    · rfl
    · next hp => simp only [List.any_cons, hp, Bool.or_eq_true] at h; simpa using ih (by simpa using h)

/-- The ready list after a command is taken. -/
@[simp] theorem State.accept_ready (s : State) (q : Sqe) : (s.accept q).hqe.ready = s.hqe.ready := rfl

/-- Only the forwarded list of the HQE changes when a command is taken. -/
theorem State.accept_rings (s : State) (q : Sqe) : (s.accept q).hqe = { s.hqe with fwd := (s.accept q).hqe.fwd } := rfl

/-- The forwarded list after a command is taken. -/
theorem State.accept_hqe_fwd (s : State) (q : Sqe) : (s.accept q).hqe.fwd = acceptIn q s.hqe.fwd := rfl

/-- Only the forwarded and the ready list of the HQE change when a command completes. -/
theorem State.done_rings (s : State) (q : Sqe) (st r : Nat) :
    (s.done q st r).hqe = { s.hqe with fwd := (s.done q st r).hqe.fwd, ready := (s.done q st r).hqe.ready } := by
  unfold State.done State.complete
  dsimp only
  split
  · rfl
  · split <;> rfl

/-- Taking a command leaves the other entries. -/
theorem acceptIn_others (q : Sqe) (l : List Fwd) :
    (acceptIn q l).filter (fun f => !f.is q.fn q.sq (cidOf q)) = l.filter (fun f => !f.is q.fn q.sq (cidOf q)) := by
  induction l with
  | nil => simp [acceptIn, Fwd.is]
  | cons f r ih =>
    unfold acceptIn
    split
    · next h =>
      have h1 : f.is q.fn q.sq (cidOf q) = true := by simp only [Bool.and_eq_true] at h; exact h.1
      have h2 : Fwd.is q.fn q.sq (cidOf q) { f with accepted := true } = true := h1
      simp [h1, h2]
    · simp [List.filter_cons, ih]

/-- A command taken has an entry. -/
theorem acceptIn_any (q : Sqe) (l : List Fwd) : (acceptIn q l).any (Fwd.is q.fn q.sq (cidOf q)) = true := by
  induction l with
  | nil => simp [acceptIn, Fwd.is]
  | cons f r ih =>
    unfold acceptIn
    split
    · next h =>
      have h1 : f.is q.fn q.sq (cidOf q) = true := by simp only [Bool.and_eq_true] at h; exact h.1
      have h2 : Fwd.is q.fn q.sq (cidOf q) { f with accepted := true } = true := h1
      simp [h2]
    · simp [ih]

/-- Taking a command makes none of its entries an orphan. -/
theorem acceptIn_owned (q : Sqe) (l : List Fwd) (h : ∀ f ∈ l, f.is q.fn q.sq (cidOf q) = true → f.orphan = false) :
    ∀ f ∈ acceptIn q l, f.is q.fn q.sq (cidOf q) = true → f.orphan = false := by
  induction l with
  | nil => intro f hf _; simp only [acceptIn, List.mem_singleton] at hf; subst hf; rfl
  | cons f r ih =>
    unfold acceptIn
    split
    · next hc =>
      have h1 : f.is q.fn q.sq (cidOf q) = true := by simp only [Bool.and_eq_true] at hc; exact hc.1
      intro g hg hi
      rcases List.mem_cons.mp hg with rfl | hg
      · exact h f List.mem_cons_self h1
      · exact h g (List.mem_cons_of_mem _ hg) hi
    · intro g hg hi
      rcases List.mem_cons.mp hg with rfl | hg
      · exact h g List.mem_cons_self hi
      · exact ih (fun x hx => h x (List.mem_cons_of_mem _ hx)) g hg hi

/-- The entry of a command is marked accepted, and no other entry changes. -/
theorem State.accept_fwd (s : State) (q : Sqe) (h : OwnedAs q.fn q.sq (cidOf q) s) :
    (s.accept q).hqe.fwd.filter (fun f => !f.is q.fn q.sq (cidOf q)) = s.hqe.fwd.filter (fun f => !f.is q.fn q.sq (cidOf q)) ∧
    (s.accept q).hqe.fwd.any (Fwd.is q.fn q.sq (cidOf q)) = true ∧
    ∀ f ∈ (s.accept q).hqe.fwd, f.is q.fn q.sq (cidOf q) = true → f.orphan = false := by
  rw [State.accept_hqe_fwd]
  exact ⟨acceptIn_others q _, acceptIn_any q _, acceptIn_owned q _ h⟩

/-- A command taken in `s` completes from any state that has kept its forwarded entry and the ready list. -/
theorem State.done_completed {q : Sqe} {st r : Nat} {s s1 : State} (h : OwnedAs q.fn q.sq (cidOf q) s)
    (hf : s1.hqe.fwd = (s.start.accept q).hqe.fwd) (hr : s1.hqe.ready = s.hqe.ready) : Completed q st r s (s1.done q st r) := by
  obtain ⟨h1, h2, h3⟩ := s.start.accept_fwd q h
  rw [← hf] at h1 h2 h3
  have hs := takeFirst_isSome _ _ h2
  obtain ⟨⟨f, rest⟩, hx⟩ := Option.isSome_iff_exists.mp hs
  obtain ⟨hr1, hp, hm⟩ := takeFirst_filter _ _ _ _ hx
  have ho := h3 f hm hp
  unfold State.done State.complete
  simp only [hx, ho, Bool.false_eq_true, if_false]
  refine ⟨⟨f.quiet, ?_⟩, ?_⟩
  · simp [State.onHqe, hr]
  · simpa [State.onHqe, hr1] using h1

/-- Whether a command can reach its island depends only on the HQE. -/
theorem State.arrives_congr (q : Sqe) {s t : State} (h : t.hqe = s.hqe) : t.arrives q = s.arrives q := by
  simp [State.arrives, h]

/-- What a host command does: nothing while an older one of its SQ and subsystem is on the way; otherwise it is turned away with the
status of the first check that fails, or its body runs. -/
theorem hostCmd_cases (op : Nat) (q : Sqe) (ps : List (Bool × Nat × Nat)) (body : State → State) (s : State) :
    (s.arrives q = false ∧ hostCmd op q ps body s = s) ∨
    (∃ st r, preCheck op q (s.accept q) = some (st, r) ∧ hostCmd op q ps body s = (s.accept q).done q st r) ∨
    (preCheck op q (s.accept q) = none ∧ ∃ r, firstBad ps = some r ∧ hostCmd op q ps body s = (s.accept q).done q stBAD_PARAM r) ∨
    (preCheck op q (s.accept q) = none ∧ firstBad ps = none ∧ hostCmd op q ps body s = body (s.accept q)) := by
  unfold hostCmd
  dsimp only
  cases h0 : s.arrives q with
  | false => exact .inl ⟨rfl, rfl⟩
  | true =>
    refine .inr ?_
    simp only [Bool.not_true, Bool.false_eq_true, if_false]
    cases h1 : preCheck op q (s.accept q) with
    | some x => exact .inl ⟨x.1, x.2, rfl, rfl⟩
    | none =>
      cases h2 : firstBad ps with
      | some r => exact .inr (.inl ⟨rfl, r, rfl, rfl⟩)
      | none => exact .inr (.inr ⟨rfl, rfl, rfl⟩)

/-- Checks 1 to 4 of R515 read only the Spire, the phase groups and the sessions. -/
theorem preCheck_congr (op : Nat) (q : Sqe) {s t : State} (h1 : t.sup = s.sup) (h2 : t.psc = s.psc) (h3 : t.spa = s.spa) :
    preCheck op q t = preCheck op q s := by
  simp [preCheck, stateCheck, State.hqeReady, State.quietSite, h1, h2, h3]

/-- Taking a command changes no check. -/
theorem preCheck_taken (op : Nat) (q : Sqe) (s : State) : preCheck op q (s.start.accept q) = preCheck op q s :=
  preCheck_congr op q (by simp) (by simp) (by simp)

/-- A taken command with good parameters runs its body. -/
theorem hostCmd_taken {op : Nat} {q : Sqe} {ps : List (Bool × Nat × Nat)} {body : State → State} {s : State}
    (h : Taken op q s) (hp : firstBad ps = none) : hostCmd op q ps body s.start = body (s.start.accept q) := by
  have ha : s.start.arrives q = true := (State.arrives_congr q rfl).trans h.2.2
  simp [hostCmd, ha, preCheck_taken, h.1, hp]

/-- A command whose body only returns bytes has no other effect. -/
theorem replyDone_readOnly {q : Sqe} {bytes : List Byte} {r : Nat} {s : State} (h : OwnedAs q.fn q.sq (cidOf q) s) :
    ReadOnly q r bytes s ((s.start.accept q).replyDone q bytes r) := by
  refine ⟨?_, ?_, ?_, ?_⟩
  · exact State.done_completed h (by simp) (by simp)
  · have h1 := (((s.start.accept q).reply q bytes)).done_rings q stDONE r
    have h2 := s.start.accept_rings q
    simp only [Returned, State.replyDone, State.done_out]
    unfold State.hostWrites
    rw [h1]
    rfl
  · have h1 := (((s.start.accept q).reply q bytes)).done_rings q stDONE r
    have h2 := s.start.accept_rings q
    unfold RingsKept State.replyDone
    rw [h1]
    simp only [State.reply_hqe]
    rw [h2]
    rfl
  · apply State.ext <;> simp

/-- A command that completes at once with a status has no other effect. -/
theorem done_onlyCompletes {q : Sqe} {st r : Nat} {s : State} (h : OwnedAs q.fn q.sq (cidOf q) s) :
    OnlyCompletes q st r s ((s.start.accept q).done q st r) := by
  refine ⟨?_, ?_, ?_, ?_⟩
  · exact State.done_completed h (by simp) (by simp)
  · simp
  · have h1 := (s.start.accept q).done_rings q st r
    have h2 := s.start.accept_rings q
    unfold RingsKept
    rw [h1, h2]
    rfl
  · apply State.ext <;> simp

/-! ### One function's queue state changed -/

@[simp] theorem Hqe.onFn_fnOf (h : Hqe) (n : Fn) (f : FnState → FnState) : (h.onFn n f).fnOf n = f (h.fnOf n) := by
  cases n <;> rfl

theorem Hqe.onFn_other (h : Hqe) {n m : Fn} (f : FnState → FnState) (hm : m ≠ n) : (h.onFn n f).fnOf m = h.fnOf m := by
  cases n <;> cases m <;> first | rfl | exact absurd rfl hm

@[simp] theorem State.onFn_fnOf (s : State) (n : Fn) (f : FnState → FnState) : (s.onFn n f).fnOf n = f (s.fnOf n) :=
  Hqe.onFn_fnOf s.hqe n f

theorem State.onFn_other (s : State) {n m : Fn} (f : FnState → FnState) (hm : m ≠ n) : (s.onFn n f).fnOf m = s.fnOf m :=
  Hqe.onFn_other s.hqe f hm

@[simp] theorem State.done_fnOf (s : State) (q : Sqe) (st r : Nat) (n : Fn) : (s.done q st r).fnOf n = s.fnOf n := by
  have h := s.done_rings q st r
  unfold State.fnOf
  rw [h]; cases n <;> rfl

@[simp] theorem State.accept_fnOf (s : State) (q : Sqe) (n : Fn) : (s.accept q).fnOf n = s.fnOf n := by
  have h := s.accept_rings q
  unfold State.fnOf
  rw [h]; cases n <;> rfl

@[simp] theorem State.start_fnOf (s : State) (n : Fn) : s.start.fnOf n = s.fnOf n := rfl

@[simp] theorem Hqe.onFn_fwd (h : Hqe) (n : Fn) (f : FnState → FnState) : (h.onFn n f).fwd = h.fwd := by
  cases n <;> rfl

@[simp] theorem Hqe.onFn_ready (h : Hqe) (n : Fn) (f : FnState → FnState) : (h.onFn n f).ready = h.ready := by
  cases n <;> rfl

/-- A ring command: its function's queue state changes as given, it completes, and nothing else changes. -/
theorem onFn_done {q : Sqe} {st r : Nat} {s : State} (f : FnState → FnState) (h : OwnedAs q.fn q.sq (cidOf q) s) :
    let t := ((s.start.accept q).onFn q.fn f).done q st r
    Completed q st r s t ∧ t.out = [] ∧ OnlyFn q.fn s t ∧ t.fnOf q.fn = f (s.fnOf q.fn) := by
  refine ⟨State.done_completed h (by simp) (by simp), by simp, ⟨?_, ?_, ?_⟩, by simp⟩
  · intro g hg
    simp [State.onFn_other _ _ hg]
  · have h1 := ((s.start.accept q).onFn q.fn f).done_rings q st r
    have h2 := s.start.accept_rings q
    rw [h1]
    generalize (((s.start.accept q).onFn q.fn f).done q st r).hqe.fwd = a
    generalize (((s.start.accept q).onFn q.fn f).done q st r).hqe.ready = b
    simp only [State.onFn_hqe]
    rw [h2]
    cases q.fn <;> rfl
  · apply State.ext <;> simp

/-- A table entry changed is the entry replaced. -/
theorem upd_eq_set {α : Type} (l : List α) (n : Nat) (f : α → α) (a : α) (h : l[n]? = some a) : upd l n f = l.set n (f a) := by
  unfold upd
  apply List.ext_getElem?
  intro i
  rw [List.getElem?_modify, List.getElem?_set]
  have hn : n < l.length := (List.getElem?_eq_some_iff.mp h).1
  by_cases hi : n = i
  · subst hi; simp only [if_pos rfl, h, hn]; rfl
  · simp [hi]

/-- A ring that exists is in its table. -/
theorem FnState.sq_getElem {f : FnState} {n : Nat} {r : SqRing} (h : f.sq n = some r) : f.sqs[n]? = some (some r) := by
  unfold FnState.sq at h
  rw [List.getD_eq_getElem?_getD] at h
  cases hx : f.sqs[n]? with
  | none => simp [hx] at h
  | some o => simp [hx] at h; rw [h]

/-- A ring that exists is in its table. -/
theorem FnState.cq_getElem {f : FnState} {n : Nat} {r : CqRing} (h : f.cq n = some r) : f.cqs[n]? = some (some r) := by
  unfold FnState.cq at h
  rw [List.getD_eq_getElem?_getD] at h
  cases hx : f.cqs[n]? with
  | none => simp [hx] at h
  | some o => simp [hx] at h; rw [h]

/-- An existing SQ changed. -/
theorem FnState.onSq_eq {f : FnState} {n : Nat} {r : SqRing} (g : SqRing → SqRing) (h : f.sq n = some r) :
    f.onSq n g = f.withSq n (g r) := by
  unfold FnState.onSq FnState.withSq
  rw [upd_eq_set _ _ _ _ (FnState.sq_getElem h)]; rfl

/-- An existing CQ changed. -/
theorem FnState.onCq_eq {f : FnState} {n : Nat} {r : CqRing} (g : CqRing → CqRing) (h : f.cq n = some r) :
    f.onCq n g = f.withCq n (g r) := by
  unfold FnState.onCq FnState.withCq
  rw [upd_eq_set _ _ _ _ (FnState.cq_getElem h)]; rfl

end Sys2Proof.Machine
end

