-- ==== Sys2Proof/Machine/Region.lean ====
section
/-! DEFINITION. The tiles of the store by index, as the TMF's metadata and the producers of the regions give them (R116, R117, R119,
R122, Table 04-1): a view of the state, in which each tile's content is held by its producer. -/

namespace Sys2Proof.Machine

open Sys2Proof

/-- The states of a tile (R122). -/
inductive TileState where
  | free
  | opened
  | closed
deriving DecidableEq, Repr

/-- The regions of Table 04-1; the indices above name no tile. -/
inductive Region where
  | ledgerA
  | ledgerB
  | coeffA
  | coeffB
  | recorder
  | frames
  | pool
  | none
deriving DecidableEq, Repr

/-- The region of an index. -/
def regionOf (i : Nat) : Region :=
  if i < 0x20 then .ledgerA else if i < 0x40 then .ledgerB else if i < 0x240 then .coeffA else if i < 0x440 then .coeffB
  else if i < 0x840 then .recorder else if i < 0x940 then .frames else if i < 0xFC00 then .pool else .none

/-- A tile as the store holds it: its state, 4,096 bytes, check word and generation (R117). -/
structure TileView where
  state : TileState
  bytes : List Byte
  check : Nat
  gen : Nat
deriving DecidableEq, Repr

/-- A CLOSED tile with its check word (R118, R122). -/
def closedView (gen : Nat) (b : List Byte) : TileView := let b := padTo 4096 b; ⟨.closed, b, crc32c b, gen⟩

/-- A FREE tile. -/
def freeView (gen : Nat) : TileView := ⟨.free, [], 0, gen⟩

/-- The records of a recorder tile in their places (R433, R435). -/
def State.recorderTile (s : State) (i : Nat) : List Byte :=
  let l := s.heldRecords.filter (fun x => recordTile x.1 == i)
  (List.range 16).flatMap (fun k => match l.find? (fun x => x.1 % 16 == k) with
    | some x => x.2
    | none => zeros 256)

/-- The frame of a frame tile: the low eight slots of a port receive, the others send (R264). -/
def State.frameOf (s : State) (i : Nat) : Option (List Byte) :=
  let p := s.prt ((i - 0x840) / 16)
  let k := i % 16
  (p.rx.map (fun f => (f.slot, f.bytes)) ++ p.tx.map (fun t => (t.slot, t.bytes))).find? (fun x => x.1 == k) |>.map Prod.snd

/-- The tile of an index: none for an index that names no tile or is out of service (R116, R127). A copy of a pair that waits for its
restoration is OPEN (R123, R125). -/
def State.tileView (s : State) (i : Nat) : Option TileView :=
  let t := s.tmf
  let g := t.gen i
  if t.oos.contains i then Option.none
  else match regionOf i with
  | .none => Option.none
  | .ledgerA | .ledgerB =>
    some (if t.restoring.contains i then ⟨.opened, [], 0, g⟩
      else if s.spa.unwritten.contains (i % 32) then freeView g else closedView g (ledgerBytes s.spa.ledger (128 * (i % 32)) 128))
  | .coeffA | .coeffB =>
    some (if t.restoring.contains i then ⟨.opened, [], 0, g⟩
      else match look i t.coeffs with | some b => closedView g b | Option.none => freeView g)
  | .recorder =>
    some (if s.evr.refill.contains i then ⟨.opened, [], 0, g⟩
      else if s.heldRecords.any (fun x => recordTile x.1 == i) then closedView g (s.recorderTile i) else freeView g)
  | .frames => some (match s.frameOf i with | some b => closedView g b | Option.none => freeView g)
  | .pool => some (match look i t.tiles with
    | some x => ⟨if x.closed then .closed else .opened, x.bytes, x.check, g⟩
    | Option.none => freeView g)

end Sys2Proof.Machine
end

