-- ==== Sys2Proof/Tests/Slice0.lean ====
section
/-! SUPPORT. The model's own tests: the manual's examples, ill-formed commands that the checks refuse, and for every claim with
hypotheses a state and operands that meet them all (hypotheses_met_<claim>, one conjunct for each of its clauses). -/

open Sys2Proof Sys2Proof.Machine

namespace Sys2Proof.Tests

set_option maxRecDepth 20000
set_option linter.unusedVariables false
set_option Elab.async false

/-- A property of every entry of a list holds of each entry read by its number. -/
theorem of_getD_all {α : Type} (l : List (Option α)) (p : α → Bool) (h : l.all (fun x => x.all p) = true) (n : Nat) (r : α)
    (hr : l.getD n none = some r) : p r = true := by
  have hm : some r ∈ l := by
    rw [List.getD_eq_getElem?_getD] at hr
    cases hx : l[n]? with
    | none => simp [hx] at hr
    | some y => simp [hx] at hr; subst hr; exact List.mem_of_getElem? hx
  simpa using List.all_eq_true.mp h _ hm

/-- A property of a list's default and of every entry of it holds of each entry read by its number. -/
theorem getD_all {α : Type} (l : List α) (d : α) (p : α → Bool) (h : (l.all p && p d) = true) (m : Nat) : p (l.getD m d) = true := by
  rw [Bool.and_eq_true] at h
  rw [List.getD_eq_getElem?_getD]
  cases hx : l[m]? with
  | none => simpa [hx] using h.2
  | some y => simpa [hx] using List.all_eq_true.mp h.1 _ (List.mem_of_getElem? hx)

/-- The same with one entry put in. -/
theorem getD_set_all {α : Type} (l : List α) (n : Nat) (x d : α) (p : α → Bool) (h : (l.all p && p d) = true) (m : Nat)
    (hm : m ≠ n) : p ((l.set n x).getD m d) = true := by
  have h2 := getD_all l d p h m
  rw [List.getD_eq_getElem?_getD] at h2
  rw [List.getD_eq_getElem?_getD, List.getElem?_set_ne (Ne.symm hm)]
  exact h2

/-- A property of every load-switch channel. -/
theorem ch_all (s : State) (p : LChan → Bool) (h : (s.lsw.chans.all p && p LChan.reset) = true) (m : Nat) : p (s.ch m) = true :=
  getD_all _ _ p h m

/-! ### States and operands -/

/-- An SQE of a function, from a ring, with command id 5 and some of its dwords. -/
def mkQ (fn : Fn) (sq op : Nat) (l : List (Nat × Nat)) : Sqe :=
  ⟨fn, sq, (List.range 16).map (fun i => BitVec.ofNat 32 (if i = 0 then op + 5 * 65536 else (look i l).getD 0))⟩

/-- A command of PF0 from SQ 0, and one of PF1. -/
def q0 (op : Nat) (l : List (Nat × Nat)) : Sqe := mkQ .pf0 0 op l
def q1 (op : Nat) (l : List (Nat × Nat)) : Sqe := mkQ .pf1 0 op l

/-- A submission ring and a completion ring of sixteen entries. -/
def wSq (cq : Nat) : SqRing := ⟨0x10000, 4, cq, 0, 0, false, false, []⟩
def wCq : CqRing := ⟨0x20000, 4, 0, 0, true, true, 1, 0, 0, false, false⟩

/-- A function with two rings of each kind. -/
def wFn (rings vecs : Nat) : FnState :=
  { FnState.reset rings vecs with
    enable := true
    sqs := ((List.replicate rings none).set 0 (some (wSq 0))).set 1 (some (wSq 1))
    cqs := ((List.replicate rings none).set 0 (some wCq)).set 1 (some wCq) }

/-- The supervisor with every island up, in a device state. -/
def wSup (st : DevState) : Sup :=
  { Sup.reset with st := st, powered := 0x17F, readyMask := 0x1FF, perst := false, pcieUp := true, holdupReady := true, main12v := 12000 }

/-- A device that runs, in a device state, with an empty configuration. -/
def wIn (st : DevState) : State :=
  { State.reset with
    hqe := { Hqe.reset with f0 := wFn 64 72, f1 := wFn 4 8 }, sup := wSup st, cfg := some Cfg.empty
    lnk := { SgLink.reset with up := true, sgUp := true }, sgm := { Sgm.reset with mode := .normal }, tmf := { Tmf.reset 0 [] [] 1024 with ready := true } }

/-- A device in SERVICE. -/
def sv : State := wIn .service

/-- SQ 1 with one command fetched, and the device with that ring. -/
def wFetched : SqRing := { wSq 1 with fetched := [⟨3, some (mkQ .pf0 1 0x00 []).dw⟩] }
def svFetched : State := { sv with hqe := { sv.hqe with f0 := sv.hqe.f0.withSq 1 wFetched } }

/-- The device with an event that waits and one that is held; one with PF1 off; and one with a CQ 1 of its own. -/
def svEvents : State := { sv with hqe := { sv.hqe with f0 := { sv.hqe.f0 with
  eventCq := some 1, pendEv := [⟨0x4101, 2, 3, 4, []⟩], held := [⟨0x4206, 1, 0, 0xFFFF, []⟩] } } }
def svOff (size : Word) : State := { sv with hqe := { sv.hqe with f1 := { FnState.reset 4 8 with adminSize := size } } }
def svCq (r : CqRing) : State := { sv with hqe := { sv.hqe with f0 := sv.hqe.f0.withCq 1 r } }

/-- The device with a read tag in use, with a completion ready, and with an MSI-X vector 1. -/
def svTag : State := { sv with hqe := { sv.hqe with
  tags := [(3, ⟨.pf0, .sqe 1 0, 0x10000, 64, [], false⟩)], f0 := sv.hqe.f0.withSq 1 { wSq 1 with fetched := [⟨0, none⟩] } } }
def svReady (quiet : Bool) (k : CqRing) : State := { sv with hqe := { sv.hqe with
  ready := [⟨.pf0, 1, 5, 0, 9, quiet, none⟩], f0 := sv.hqe.f0.withCq 1 k } }
def svVec (v : MsixVec) : State := { sv with hqe := { sv.hqe with
  f0 := { sv.hqe.f0.withCq 1 { wCq with fresh := 1, timing := true } with vecs := (List.replicate 72 MsixVec.reset).set 1 v } } }

/-- The device with a completion of a given tail ready, a commit whose completion waits, and a CQ 2. -/
def svTail (x : Option CqeTail) : State :=
  { svReady true wCq with
    hqe := { (svReady true wCq).hqe with ready := [⟨.pf0, 1, 5, 0, 9, true, x⟩], f0 := (svReady true wCq).hqe.f0.withCq 2 wCq }
    sup := { wSup .service with posting := some ⟨.config, 1, 5, .service, [], true, false⟩ } }

/-- A host tile of index 0x940 (handle 0x10940), and the device with it. -/
def wTile (closed : Bool) : Tile := ⟨.host, closed, List.replicate 4096 7, if closed then crc32c (List.replicate 4096 7) else 0⟩
def svTile (closed : Bool) : State := { sv with tmf := { sv.tmf with tiles := [(0x940, wTile closed)] } }

/-- Stream channel 15 open, with tiles and buffers. -/
def wChan (closed : List Nat) (bufs : List StreamBuf) : Chan := ⟨true, 4, 8, 0, 100, 0, 0, none, closed, bufs, 0⟩
def svChan (c : Chan) : State := { sv with tmf := { sv.tmf with
  tiles := [(0x941, ⟨.channel 15, true, List.replicate 4096 9, 0⟩)], chans := sv.tmf.chans.set 15 c } }

/-- A configuration with port 15 and string 31. -/
def wPort : PortRec := ⟨true, true, false, 0, 3000, 2000, 1000, 0⟩
def wCfg : Cfg := { Cfg.empty with
  ports := (List.replicate 16 PortRec.off).set 15 wPort
  strings := (List.replicate 32 StringRec.off).set 31 { StringRec.off with enable := true } }

/-- A session on port 15, its runtime part, and a device in SERVICE with both, the write window open. -/
def wSess : Entry := .session true false 0 15 1 0 1000 500 9 0
def wRun (st : SessState) : Sess := ⟨st, 0, .ok, true, false, false, []⟩
def svSpa (led : List (Nat × Entry)) (sess : List (Nat × Sess)) : State :=
  { sv with cfg := some wCfg, spa := { sv.spa with window := true, ledger := led, sess := sess } }

/-- A snapshot. -/
def wSnap : Snap := ⟨1, 0, 2, 0, SpaIn.reset, [(3, wSess)], [(3, wRun .active)], true, []⟩

/-- Group 63 of two phases on links 62 and 63, its coefficient set, and a configuration with both. -/
def wGroup : GroupMap :=
  { nPh := 2, minPh := 1, ilvMode := false, dt := 3, links := [62, 63], baseI := 1000, baseV := 100, iRated := 1500, iPeak := 2000
    iFast := 3000, ilv := [0, 0], tau := 100, ovlOn := 110, ovlOff := 90, shedLvl := 30, addLvl := 60, shedDwell := 20
    addDwell := 5, stepHold := 50, stepLvl := 10, retryMax := 3, retryDelay := 1000, retryClear := 600 }
def wSet : CoeffSet :=
  { version := 1, n := 1, m := 2, p := 2, q := 1, trk := 0, rsv := 0, ysel := [1, 2], init := [1], wsel := [0], role := [1, 1]
    slew := 65536, kb := 0, umin := [0, 0], umax := [65536, 65536], a := [], b := [], c := [], l := [], k := [], ki := [], f := []
    nn := [], g := [] }
def wGrpCfg : Cfg := { Cfg.empty with
  groups := (List.replicate 64 none).set 63 (some wGroup), ctxs := (List.replicate 64 none).set 63 (some ⟨3, 1, 0, 0, [], 64⟩)
  sets := [(504, wSet)] }

/-- A device with that group in force: its lane and its phase group. -/
def svGrp (k : KGroup) (p : PGroup) : State :=
  { sv with cfg := some wGrpCfg, kce := { sv.kce with groups := sv.kce.groups.set 63 k }, psc := { sv.psc with groups := sv.psc.groups.set 63 p } }
def wFire (ph : KPhase) : KGroup := { KGroup.reset with st := .firing, phase := ph, start := false, bankLim := 100, last := [(62, ⟨5, 6, true, 0, false, false⟩)] }
def wPg (st : PState) : PGroup := { PGroup.reset with st := st, mode := if st = .gated then .running else st, en := List.replicate 8 true }

/-- The limits of that set are in order. -/
theorem wSet_range : ∀ j, iat wSet.umin j ≤ iat wSet.umax j
  | 0 => by decide
  | 1 => by decide
  | _ + 2 => Int.le_refl 0

/-- Group 63 with a latched sensor on it. -/
def wSensor : SensorRec := { SensorRec.off with enable := true, target := 1, object := 63, th1 := 6000, th2 := 8000, th3 := 9000, th4 := 500, hyst := 200, grace := 10, cap2 := 1000 }
def svLatch (p : PGroup) : State :=
  { svGrp KGroup.reset p with
    cfg := some { wGrpCfg with sensors := (List.replicate 152 SensorRec.off).set 151 wSensor }
    tcm := { sv.tcm with sens := sv.tcm.sens.set 151 { Sens.reset true false with eff := 3 } } }

/-- Link 63 in a state; and one in training. -/
def wLink (st : LinkSt) : Link := { Link.reset with st := st, sched := true }
def svLink (x : Link) : State := { sv with cfg := some wGrpCfg, pla := { sv.pla with links := sv.pla.links.set 63 x } }
def wTrain (step : TrainStep) : Link := { Link.reset with step := step }

/-- A management exchange. -/
def wMgmt : Mgmt := ⟨1, 7, false, 4, 0x100, [], 0x9000, 200, true⟩

/-- A sound SAMPLE frame at position 0 with some flags. -/
def goodFrame (flags : Byte) : List Byte := withCrc16 (zeros 10 ++ [flags, 0, 0])

/-- A frame on the line, from negative disparity. -/
def lineF (sof : Byte) (chars : List Byte) : LineFrame := ⟨false, (encodeLine false (lineSyms sof chars)).1⟩

/-- A terminal's identity: version 1, every rate, t_cv 500 ns. -/
def wIdent : List Byte := [1, 0x3F] ++ zeros 14 ++ le 2 500 ++ zeros 14

/-- Port 15 in a state of its own; and the same without a modem. -/
def svPort (p : Port) : State := { sv with cfg := some wCfg, vpc := { sv.vpc with ports := sv.vpc.ports.set 15 p } }
def svEth (p : Port) : State :=
  { svPort p with cfg := some { wCfg with ports := (List.replicate 16 PortRec.off).set 15 { wPort with ccs := false } } }
def wPrt : Port := { Port.reset with st := .plugged, pilot := some 2, prox := some 2 }

/-- Sensor 151 of group 63, the Aqaux loop of port 15, and a device with both. -/
def wAq : AqauxRec := { AqauxRec.off with enable := true, pump := 22, fan := 23, flow := 15, kFlow := 100, flowMin := 100, settle := 0, capNoflow := 50 }
def svCone (x : Sens) (a : Aqaux) : State :=
  { sv with
    cfg := some { wGrpCfg with
      sensors := (List.replicate 152 SensorRec.off).set 151 wSensor, aqaux := (List.replicate 16 AqauxRec.off).set 15 wAq
      ports := wCfg.ports }
    spa := { sv.spa with ledger := [(0, .node 3 15 10 10 0 0), (1, .node 2 63 10 10 0 0), (2, .edge 2 1 0 10 10 0)] }
    tcm := { sv.tcm with sens := sv.tcm.sens.set 151 x, aq := sv.tcm.aq.set 15 a } }
def wCold : Sens := Sens.reset false false

/-- Load-switch channel 23, owned by the host or by TCM. -/
def wChRec (owner : Nat) (compat comp : Bool) : ChanRec := { ChanRec.off with owner := owner, compat := compat, comp := comp, retryMax := 3 }
def svCh (r : ChanRec) (c : LChan) : State :=
  { sv with cfg := some { Cfg.empty with chans := (List.replicate 24 ChanRec.off).set 23 r }, lsw := { sv.lsw with chans := sv.lsw.chans.set 23 c } }
def svDip : State := { sv with pending := [.dipEnd], lsw := { sv.lsw with supply := 1, chans := List.replicate 24 { LChan.reset with st := .deferred, order := 1 } } }

/-- A calibration set with every channel's gain 1, a starting value and every port enabled. -/
def wCal (start : Nat) : List Byte :=
  (List.range 40).flatMap (fun _ => le 4 (2 ^ 24) ++ le 4 0 ++ le 2 0 ++ le 2 0 ++ le 4 start) ++ le 2 65535 ++ zeros 14

/-- The same with offsets: a voltage of 9,000 everywhere, a current of 8,000, on port 1 of −8,000 and on port 2 below the start. -/
def wCalO (start : Nat) : List Byte :=
  (List.range 40).flatMap (fun c => le 4 (2 ^ 24) ++
    leS 4 (if c < 16 then 9000 else if c = 17 then -8000 else if c = 18 then 99 else 8000) ++ le 2 0 ++ le 2 0 ++ le 4 start) ++
    le 2 65535 ++ zeros 14

/-- A Saggar that measures. -/
def wSgm (m : SgMode) : Sgm := { Sgm.reset with mode := m, cal := wCal 100, calAc := wCal 100 }
def wSgmO (m : SgMode) : Sgm := { Sgm.reset with mode := m, cal := wCalO 100, calAc := wCalO 100 }
def svSg (g : Sgm) : State := { sv with sgm := g }
def svSgN : State := svSg (wSgm .normal)
def svSgO : State := svSg (wSgmO .normal)

/-- The command is on its way to the Saggar. -/
def wSave (k : Nat) : Save := ⟨k, 77, List.replicate 64 5, List.replicate 64 6, List.replicate 4 (0, 0, 0), List.replicate 16 (7, 8)⟩
def wSaved (k : Nat) (m : SgMode) : Sgm := { wSgm m with saves := (none, some (NvSlot.make Save.bytes 3 (wSave k))) }
def wBSess (n p : Nat) (pre : Bool) : BteSess := ⟨n, p, pre, 1000, 0, List.replicate 16 0, 0, 0, 0, false⟩
def wSummary : Summary := ⟨5, 65535, 0, 0, List.replicate 16 (0, 0), (0, 0), List.replicate 16 (0, 0, 0, 0), 0, 0, 5000⟩
def wBlock : Block := { Block.empty with n := 1600, p := -(10 ^ 10), sq := List.replicate 40 (10 ^ 9), cross := 20, q := [1, -10, 3] }

/-- Four pulse outputs with a pulse due. -/
def wPul : Sgm := { wSgm .normal with pulses := List.replicate 4 ⟨0, 30, 1, 0, 4, none, 240, false, 0⟩, acc := List.replicate 64 500000 }

/-- A sound calendar: one season, every day one profile with two rates, prepayment on port 15, low-credit mark 50. -/
def wCalendar (act len bill : Nat) : Calendar :=
  ⟨[le 2 1, le 2 0, le 4 77, le 8 act, le 1 len, le 1 bill, le 2 900, le 4 50, le 2 0, le 2 32768, zeros 36, [1, 1, 1, 0], zeros 252,
      (List.range 16).flatMap (fun r => le 4 (1000 * r + 1) ++ zeros 4), List.replicate 256 15, zeros 3392].flatten,
    [[0, 0, 3, 0], le 2 600, [15, 0], (List.range 14).flatMap (fun _ => [0xFF, 0xFF, 0, 0]), zeros 4032].flatten, zeros 4096, act⟩
def wBte : Bte := { Bte.reset with
  off := some 1700000000000000, up := 3600000000, cal := some (wCalendar 1 3 0)
  credit := (List.range 16).map (fun (i : Nat) => ((if i = 14 then 0 else if i = 13 then 50 else 51 + i : Int), 5)), rate := 3, closed := 1700000000000000 }
def svB (b : Bte) : State := { svSgN with bte := b }
def svBO (b : Bte) : State := { svSgO with bte := b }
def svM : State := { svB wBte with mss := { sv.mss with serial := 0x0102030405060708, token := some (zeros 16), oper := some (zeros 64) } }
def sigBlock (key ctr : Nat) (s : State) : List Byte := le 4 key ++ le 4 ctr ++ le 8 s.mss.serial.toNat ++ zeros 80
def wMsg (m : CrossMsg) (hold : Nat) (s : State) : State := { s with lnk := { s.lnk with inSg := [(m, hold)] } }
/-- The ASCII digits of a token. -/
def digits20 (n : Nat) : List Nat := (List.range 20).map (fun i => 48 + n / 10 ^ (19 - i) % 10)
def tokenDw (n : Nat) : List (Nat × Nat) := (List.range 5).map (fun j => (6 + j, u ((digits20 n).map (BitVec.ofNat 8)) (4 * j) 4))
/-- A token of class 0, id 9, value 3 × 10, with its code under the key of `svM`. -/
def wTok (id val sc : Nat) : Nat :=
  let hi := id * 2 ^ 20 + val * 2 ^ 4 + sc
  hi * 2 ^ 20 + tokenMac (zeros 16) 0x0102030405060708 (hi * 2 ^ 20)
def qTok (n p : Nat) : Sqe := q1 0xB3 ([(1, p)] ++ tokenDw n)

theorem leVal_append_zeros (l : List Byte) (k : Nat) : leVal (l ++ List.replicate k 0) = leVal l := by
  induction l with
  | nil =>
    induction k with
    | zero => rfl
    | succ k ih =>
      have h : leVal (List.replicate (k + 1) 0) = (0 : Byte).toNat + 256 * leVal (List.replicate k 0) := rfl
      have ih' : leVal (List.replicate k 0) = 0 := ih
      show leVal (List.replicate (k + 1) 0) = 0
      rw [h, ih']; rfl
  | cons x l ih =>
    show x.toNat + 256 * leVal (l ++ List.replicate k 0) = x.toNat + 256 * leVal l
    rw [ih]

/-- A field of bytes padded with zeros is that of the bytes. -/
theorem u_append_zeros (l : List Byte) (k o n : Nat) : u (l ++ zeros k) o n = u l o n := by
  rw [u, u, zeros, List.drop_append, List.take_append, List.drop_replicate, List.take_replicate, leVal_append_zeros]

theorem u_zeros (k o n : Nat) : u (zeros k) o n = 0 := by
  have h := u_append_zeros [] k o n
  rw [List.nil_append] at h
  rw [h, u]; simp [leVal]

/-- Zero bytes fail no check. -/
theorem zeroBytes_zeros (t k o n : Nat) : zeroBytes t (zeros k) o n = [] := by
  have h : (List.range n).find? (fun i => u (zeros k) (o + i) 1 != 0) = none := by
    rw [List.find?_eq_none]; intro i _; simp [u_zeros]
  simp [zeroBytes, h]

/-- A calendar without a failing check of tiles 0 and 1 and without special days is sound. -/
theorem calBad_none (c : Calendar) (h2 : c.t2 = zeros 4096) (h0 : (calChecks0 c).all (·.1) = true)
    (h1 : (calChecks1 c).all (·.1) = true) : calBad c [0, 1, 2] = none := by
  have hz : calChecks2 c = [] := by simp [calChecks2, h2, u_zeros, zeroBytes_zeros]
  have : (calChecks0 c ++ calChecks1 c).find? (fun x => !x.1) = none := by
    rw [List.find?_eq_none]
    intro x hx
    rcases List.mem_append.mp hx with hx | hx
    · simp [List.all_eq_true.mp h0 x hx]
    · simp [List.all_eq_true.mp h1 x hx]
  simp [calBad, hz, this]

/-- A field past the bytes before the zeros is 0. -/
theorem u_past (l : List Byte) (k o n : Nat) (h : l.length ≤ o) : u (l ++ zeros k) o n = 0 := by
  rw [u_append_zeros, u, List.drop_eq_nil_of_le h]; simp [leVal]

theorem zeroBytes_past (l : List Byte) (t k o n : Nat) (h : l.length ≤ o) : zeroBytes t (l ++ zeros k) o n = [] := by
  have h : (List.range n).find? (fun i => u (l ++ zeros k) (o + i) 1 != 0) = none := by
    rw [List.find?_eq_none]; intro i _; simp [u_past l k (o + i) 1 (by omega)]
  simp [zeroBytes, h]

/-- A sound calendar with its activation time: one season, one profile. -/
def calHead (act : Byte) : List Byte :=
  [1, 0, 0, 0, 77, 0, 0, 0, act, 0, 0, 0, 0, 0, 0, 0, 3, 28, 132, 3, 50, 0, 0, 0, 0, 0, 0, 128] ++ zeros 36 ++ [1, 1, 1, 0]
def calDay : List Byte := [0, 0, 3, 0, 88, 2, 15, 0] ++ (List.range 14).flatMap (fun _ => [0xFF, 0xFF, 0, 0])
def wSound (act : Byte) : Calendar := ⟨calHead act ++ zeros 4028, calDay ++ zeros 4032, zeros 4096, act.toNat⟩

theorem wSound_checks0 (act : Byte) (h : act = 99 ∨ act = 0) : (calChecks0 (wSound act)).all (·.1) = true := by
  have hl : (calHead act).length = 68 := by simp [calHead, zeros]
  have h0 : ∀ o n, 68 ≤ o → u (wSound act).t0 o n = 0 := fun o n ho => u_past _ _ _ _ (by omega)
  have hz : ∀ o n, 68 ≤ o → zeroBytes 0 (wSound act).t0 o n = [] := fun o n ho => zeroBytes_past _ _ _ _ _ (by omega)
  have hw : ∀ w i, u (wSound act).t0 (192 + 8 * w + i) 1 = 0 := fun w i => h0 _ _ (by omega)
  have hwz : ∀ w, zeroBytes 0 (wSound act).t0 (192 + 8 * w + 7) 1 = [] := fun w => hz _ _ (by omega)
  have hr : ∀ r, zeroBytes 0 (wSound act).t0 (320 + 8 * r + 4) 4 = [] := fun r => hz _ _ (by omega)
  have hk : ∀ k, (wSound act).keyPort k = 0 := fun k => h0 _ _ (by omega)
  unfold calChecks0
  simp only [List.all_append, Bool.and_eq_true, hw, hwz, hr, hk, hz 704 3392 (by omega)]
  rcases h with rfl | rfl <;> decide +kernel

theorem wSound_named (act : Byte) (d : Nat) (h : d ≠ 0) : (wSound act).named d = false := by
  have hl : (calHead act).length = 68 := by simp [calHead, zeros]
  have h0 : ∀ o n, 68 ≤ o → u (wSound act).t0 o n = 0 := fun o n ho => u_past _ _ _ _ (by omega)
  have h2 : ∀ o n, u (wSound act).t2 o n = 0 := fun o n => u_zeros _ _ _
  unfold Calendar.named
  rw [Bool.or_eq_false_iff]
  constructor
  · rw [List.any_eq_false]
    intro w _
    simp only [Bool.not_eq_true, List.any_eq_false]
    intro i _
    rw [h0 _ _ (by omega)]; simp; omega
  · rw [List.any_eq_false]
    intro e _
    rw [h2 (8 * e + 2) 1]; simp

theorem wSound_points (act : Byte) (d i : Nat) (h : d ≠ 0) : (pointChecks (wSound act) false d i).all (·.1) = true := by
  have h1 : ∀ o n, 64 ≤ o → u (wSound act).t1 o n = 0 := fun o n ho => u_past _ _ _ _ (by simpa [calDay] using ho)
  have hz : ∀ o n, 64 ≤ o → zeroBytes 1 (wSound act).t1 o n = [] := fun o n ho => zeroBytes_past _ _ _ _ _ (by simpa [calDay] using ho)
  unfold pointChecks
  simp [h1 (64 * d + 4 * i) 2 (by omega), h1 (64 * d + 4 * i + 2) 1 (by omega), hz (64 * d + 4 * i + 3) 1 (by omega)]

theorem wSound_checks1 (act : Byte) : (calChecks1 (wSound act)).all (·.1) = true := by
  have h0 : ∀ i ∈ List.range 16, ∀ n, (pointChecks (wSound act) n 0 i).all (·.1) = true := by
    intro i hi n
    show (pointChecks (wSound 0) n 0 i).all (·.1) = true
    revert i; cases n <;> decide +kernel
  rw [List.all_eq_true]
  intro x hx
  simp only [calChecks1, List.mem_flatMap] at hx
  obtain ⟨d, _, i, hi, hx⟩ := hx
  by_cases hd : d = 0
  · subst hd; exact List.all_eq_true.mp (h0 i hi _) x hx
  · rw [wSound_named act d hd] at hx; exact List.all_eq_true.mp (wSound_points act d i hd) x hx

/-- A calendar that no check of CALENDAR_WRITE refuses. -/
theorem wSound_good (act : Byte) (h : act = 99 ∨ act = 0) : calBad (wSound act) [0, 1, 2] = none :=
  calBad_none _ rfl (wSound_checks0 act h) (wSound_checks1 act)

theorem crc32cBit_lt (x : Nat) (h : x < 2 ^ 32) : crc32cBit x < 2 ^ 32 := by
  unfold crc32cBit
  split
  · exact Nat.xor_lt_two_pow (by omega) (by decide)
  · omega

theorem crc32c_lt (b : List Byte) : crc32c b < 2 ^ 32 := by
  have h : ∀ (b : List Byte) (x : Nat), x < 2 ^ 32 → b.foldl crc32cByte x < 2 ^ 32 := by
    intro b
    induction b with
    | nil => exact fun _ h => h
    | cons y b ih =>
      intro x hx
      refine ih _ ?_
      unfold crc32cByte
      repeat' apply crc32cBit_lt
      exact Nat.xor_lt_two_pow hx (by have := y.isLt; omega)
  exact Nat.xor_lt_two_pow (h b _ (by decide)) (by decide)

/-- A dword written in bytes is read back from its place. -/
theorem u_le (p r : List Byte) (x o : Nat) (ho : p.length = o) (hx : x < 2 ^ 32) : u (p ++ (le 4 x ++ r)) o 4 = x := by
  rw [u, List.drop_left' ho, List.take_left' (by simp [le])]
  simp only [le, leVal, BitVec.toNat_ofNat]
  omega

/-- The buffer of a CALENDAR_WRITE: the calendar's tiles, their check words, the signature block. -/
def calBuf (c : Calendar) (sig : List Byte) : List Byte :=
  c.t0 ++ (c.t1 ++ (c.t2 ++ (le 4 (crc32c c.t0) ++ (le 4 (crc32c c.t1) ++ (le 4 (crc32c c.t2) ++ sig)))))

/-- What CALENDAR_WRITE reads of the buffer of a calendar. -/
def CalReads (c : Calendar) (sig : List Byte) : Prop :=
  (calBuf c sig).length = 12396 ∧
  c = ⟨(calBuf c sig).take 4096, ((calBuf c sig).drop 4096).take 4096, ((calBuf c sig).drop 8192).take 4096, u (calBuf c sig) 8 8⟩ ∧
  crc32c c.t0 = u (calBuf c sig) 12288 4 ∧ crc32c c.t1 = u (calBuf c sig) 12292 4 ∧ crc32c c.t2 = u (calBuf c sig) 12296 4

theorem calBuf_reads (c : Calendar) (sig : List Byte) (h0 : c.t0.length = 4096) (h1 : c.t1.length = 4096) (h2 : c.t2.length = 4096)
    (hs : sig.length = 96) (ha : u c.t0 8 8 = c.activation) : CalReads c sig := by
  have d1 : (calBuf c sig).drop 4096 = c.t1 ++ (c.t2 ++ (le 4 (crc32c c.t0) ++ (le 4 (crc32c c.t1) ++ (le 4 (crc32c c.t2) ++ sig)))) :=
    List.drop_left' h0
  have d2 : (calBuf c sig).drop 8192 = c.t2 ++ (le 4 (crc32c c.t0) ++ (le 4 (crc32c c.t1) ++ (le 4 (crc32c c.t2) ++ sig))) := by
    rw [show 8192 = 4096 + 4096 from rfl, ← List.drop_drop, d1]; exact List.drop_left' h1
  refine ⟨by simp [calBuf, h0, h1, h2, hs, le], ?_, ?_, ?_, ?_⟩
  · have ht : u (calBuf c sig) 8 8 = c.activation := by
      rw [u, calBuf, List.drop_append_of_le_length (by omega), List.take_append_of_le_length (by simp; omega), ← ha]; rfl
    rw [d1, d2, ht, List.take_left' h1, List.take_left' h2, show (calBuf c sig).take 4096 = c.t0 from List.take_left' h0]
  · have e : calBuf c sig = (c.t0 ++ (c.t1 ++ c.t2)) ++ (le 4 (crc32c c.t0) ++ (le 4 (crc32c c.t1) ++ (le 4 (crc32c c.t2) ++ sig))) := by
      simp [calBuf]
    rw [e, u_le _ _ _ _ (by simp [h0, h1, h2]) (crc32c_lt _)]
  · have e : calBuf c sig = (c.t0 ++ (c.t1 ++ (c.t2 ++ le 4 (crc32c c.t0)))) ++
        (le 4 (crc32c c.t1) ++ (le 4 (crc32c c.t2) ++ sig)) := by simp [calBuf]
    rw [e, u_le _ _ _ _ (by simp [h0, h1, h2, le]) (crc32c_lt _)]
  · have e : calBuf c sig = (c.t0 ++ (c.t1 ++ (c.t2 ++ (le 4 (crc32c c.t0) ++ le 4 (crc32c c.t1))))) ++
        (le 4 (crc32c c.t2) ++ sig) := by simp [calBuf]
    rw [e, u_le _ _ _ _ (by simp [h0, h1, h2, le]) (crc32c_lt _)]

/-- The same of the sound calendar. -/
theorem wSound_reads (act : Byte) (h : act = 99 ∨ act = 0) (sig : List Byte) (hs : sig.length = 96) : CalReads (wSound act) sig :=
  calBuf_reads (wSound act) sig (by simp [wSound, calHead, zeros]) (by simp [wSound, calDay, zeros]) (by simp [wSound, zeros]) hs
    (by rcases h with rfl | rfl <;> decide +kernel)

def svMs (m : Mss) : State := { svM with mss := m }
def wMss : Mss := { svM.mss with sealCount := 41, tamper := true, logSeq := 9, recordSeq := 3, auth := some (zeros 64), image := (zeros 32, 6) }
def wItem (kind : Nat) (d : List Byte) : List Byte := le 1 kind ++ zeros 3 ++ le 4 d.length ++ zeros 8 ++ d
def wClose (staging : List Byte) : State := svMs { wMss with sealSt := 1, coverSeen := true, staging := staging, hash := sha256 staging }
def wCalOk : List Byte := (List.range 40).flatMap (fun c => le 4 (2 ^ 24) ++ zeros 8 ++ le 4 (if 16 ≤ c && c < 36 then 7 else 0)) ++ le 2 65535 ++ zeros 14
def wRec (n len : Nat) : List (Nat × List Byte) := (List.range 3).map (fun i => (n + i, List.replicate len (BitVec.ofNat 8 i)))
def wFrame (q : Sqe) : List Byte :=
  let b := le 4 64 ++ q.dw.flatMap (fun w => le 4 w.toNat)
  b ++ be 2 (crc16 b)

/-- A string of group 63 with two sensors. -/
def wStrRec : StringRec := { StringRec.off with
  enable := true, group := 63, sens0 := 0, sens1 := 1, capNom := 50000, iChg := 20000, iDis := 30000, vMin := 300000, vMax := 420000
  ll := 500, lo := 1000, hi := 9000, hh := 9500, hyst := 100, restMax := 168, restI := 500, drift := 10, eta := 64881
  tChgMin := 0, tChgMax := 4500, tDisMin := -1000, tDisMax := 6000, stepI := 1000
  ocv := (List.range 11).map (fun i => 300000 + 10000 * i), r0 := List.replicate 88 5000 }
def wStr : Str := { Str.reset with
  on := true, anch := true, q := 90000000000, cap := 50000, volt := 355000, r0 := List.replicate 88 5000, temp := some 2500
  base := ⟨100, 1, -200, 1, 4⟩ }
def svStr (x : Str) : State :=
  { svGrp (wFire .idle) { wPg .running with vsum := 800, vcnt := 3, isum := 9700, icnt := 4, acc := 7 } with
    cfg := some { wGrpCfg with strings := (List.replicate 32 StringRec.off).set 31 wStrRec }
    bse := { sv.bse with strs := sv.bse.strs.set 31 x }
    tcm := { sv.tcm with sens := (sv.tcm.sens.set 0 { wCold with reading := some 2400 }).set 1 { wCold with reading := some 2500 } } }
def wCell : Cell := { Cell.reset with q := 1000000, info := { CellInfo.reset with cap := 1000 } }
def svSlots (x : Option (NvSlot Journal) × Option (NvSlot Journal)) : State := (fun (s : State) => { s with sup := { s.sup with sjSlots := x } }) (svStr wStr)

/-- Belfry with nodes 1 to 250 enabled but 249. -/
def wBelfry : BelfryRec := ⟨true, false, 8, (List.range 250).map (fun i => ⟨1000 + i, i != 248, i % 2 == 0, i == 0⟩)⟩
def svBk (b : Blk) : State := { sv with cfg := some { Cfg.empty with belfry := some wBelfry }, blk := b }
def wNodes (n : Node) : List Node := Blk.reset.nodes.set 249 n |>.set 248 { Node.reset with lost := true }
def wBlk (n : Node) : Blk := { Blk.reset with nodes := wNodes n }
def wEx (st : ExSt) : Exch := ⟨250, .poll, none, 0, 0, 0, [], false, st, []⟩
def wRx (addr type n p q : Nat) : List Sym := [.silent, .silent] ++ (frameBits addr type n p).map (fun b => .bit b q)
def wZc (rising : Bool) : ZeroCross := ⟨rising, List.replicate 40 2500 ++ List.replicate 32 3000, 7000⟩
def svEx (x : Exch) (n : Node) (rx : List Sym) : State := svBk { wBlk n with ex := some x, rx := rx }
def svQuiet (s : State) : State := { s with blk := { s.blk with silent := 2 } }
def svUp (n : Nat) (s : State) : State := { s with sup := { s.sup with uptime := n } }

/-- Quantity 127: the charge of string 31 at 1 ms samples; and its half. -/
def wQuant : QuantRec := ⟨true, 0x08, 31, 1, 1, -100, 300⟩
def wHalf : Half := { Half.new wQuant 5 false false with count := 2, sum := 30, min := 10, max := 20, tMin := 6, tMax := 7 }
def wEvr (x : Option Half) : Evr := { Evr.reset [] none 0 none [] none [] [] with restoring := false, qs := Evr.reset [] none 0 none [] none [] [] |>.qs.set 127 ⟨x, none, none, false, false, Ext.none⟩ }
def svEv (e : Evr) : State := { svStr wStr with
  cfg := some { wGrpCfg with strings := (List.replicate 32 StringRec.off).set 31 wStrRec, quants := (List.replicate 128 QuantRec.off).set 127 wQuant }
  evr := e }
def wPage (qi seq : Nat) : Nat × List Byte := (seq, le 4 seq ++ le 1 qi ++ zeros 251)
def wClosed : Closed := ⟨127, wHalf, 99, 2, true⟩

/-- A manifest tile of kind `k` over one tile, and a device that holds it (handles 0x10942 and 0x10943). -/
def wManifest (k : Nat) : List Byte := padTo 4096 (le 4 0x514B4D46 ++ le 2 1 ++ le 1 k ++ le 1 0 ++ le 4 77 ++ le 2 1 ++ le 2 0 ++ le 4 0 ++ le 4 1 ++ zeros 8 ++ le 4 0x10943)
def wHost (b : List Byte) : Tile := ⟨.host, true, b, crc32c b⟩
def svImg (k : Nat) : State := { sv with tmf := { sv.tmf with tiles := [(0x942, wHost (wManifest k)), (0x943, wHost (zeros 4096))] } }
def wGroupBytes : List Byte :=
  le 1 1 ++ le 1 1 ++ le 1 0 ++ le 1 0 ++ [0, 255, 255, 255, 255, 255, 255, 255] ++ le 2 1000 ++ le 2 1000 ++ le 4 0 ++ le 4 0 ++ le 4 0 ++ zeros 16 ++
    le 2 10 ++ le 2 200 ++ le 2 100 ++ le 1 20 ++ le 1 50 ++ le 1 5 ++ le 1 5 ++ le 2 5 ++ le 1 10 ++ le 1 2 ++ le 2 100 ++ le 2 100 ++ zeros 2
def wCtxBytes : List Byte := padTo 64 (le 1 0 ++ le 1 1)
def wSetBytes : List Byte := padTo 4096 (le 2 1 ++ le 1 1 ++ le 1 1 ++ le 1 1 ++ zeros 27 ++ le 4 100)
def wPortBytes : List Byte := padTo 32 ([7, 0] ++ le 2 3000 ++ le 2 2000 ++ le 2 1000)
def wChanBytes : List Byte :=
  padTo 24 ([0x10, 0] ++ le 2 1000 ++ le 2 200 ++ le 2 0 ++ le 2 100 ++ le 2 100 ++ [3, 0] ++ le 2 100 ++ le 2 100 ++ le 2 12000)
def wEntries : List Entry :=
  [.node 0 0 400000 0 0 0, .node 1 0 0 0 0 0, .node 2 0 5000 0 0 0, .node 3 0 5000 100000 1000000 0, .edge 0 0 1 400000 0 0,
   .edge 1 1 2 5000 0 0, .edge 2 2 3 5000 0 0]
def wImg (bisque : Bool) : List RawRec :=
  let all (k : RecKind) (n : Nat) (b : List Byte) : List RawRec := (List.range n).map (fun i => ⟨k, i, b⟩)
  [⟨.groupMap, 0, wGroupBytes⟩, ⟨.groupContext, 0, wCtxBytes⟩, ⟨.coeffSet, 0, wSetBytes⟩, ⟨.linkScale, 0, zeros 24⟩, ⟨.cls, 0, [1]⟩,
   ⟨.port, 0, wPortBytes⟩] ++ (all .port 16 (zeros 32)).drop 1 ++ all .sensor 152 (zeros 32) ++ all .channel 24 wChanBytes ++
  all .aqaux 16 (zeros 32) ++ all .string 32 (zeros 276) ++ all .quantity 128 (zeros 32) ++
  (if bisque then [⟨.bisqueLimit, 0, padTo 436 (le 4 400000 ++ le 4 5000 ++ zeros 252 ++ le 4 100000 ++ zeros 60 ++ le 4 1000000)⟩]
   else [⟨.ledgerTile, 0, padTo 4096 (wEntries.flatMap Entry.bytes)⟩] ++ (all .ledgerTile 32 (zeros 4096)).drop 1 ++
     [⟨.belfry, 0, padTo 2008 [0, 0, 8]⟩])
def wCommit : Commit := ⟨.config, 3, 9, .service, [0x10942], false, false⟩
def svSup (p : Sup) : State := { sv with sup := p }
def wPow (st : DevState) : Sup := wSup st
def wSlots (a b : SlotState) : Sup := { wPow .service with
  slotA := ⟨a, 5, 0, 9, [1, 2, 3, 4, 5, 6, 7], []⟩, slotB := ⟨b, 6, 0, 9, [1, 2, 3, 4, 5, 6, 7], []⟩, formats := [1, 2, 3, 4, 5, 6, 7], bootSlot := if b = .active then 1 else 0 }
def wFault (n : Nat) : FaultRec := ⟨7, n, 4, false, 0x0701, 1, 2, 3⟩
def wBoot : Sup := { wSlots .active .inactive with st := .boot }
def svFrame (l : SgLink) : State := { sv with lnk := l }
def wFrameOf (toSg : Bool) (type : Nat) (p : List Byte) (good ack : Bool) (sn : Option (BitVec 64)) : SaggarFrame :=
  let h := le 1 type ++ le 1 p.length ++ le 2 9
  ⟨toSg, type, p.length, 9, p, if good then crc16 (h ++ p) else crc16 (h ++ p) + 1, ack, sn⟩
def wFrameIn (good : Bool) : SaggarFrame := wFrameOf true 1 [1, 2, 3] good false none
def wFrameOut (good : Bool) : SaggarFrame := wFrameOf false 1 [1, 2, 3] good false none
def wFrameTo (toSg ack : Bool) : SaggarFrame := wFrameOf toSg 0 [] true ack none
def svCommit (st : DevState) (c : Commit) (k : Nat) : State := { svImg k with sup := { wPow st with commit := some c, cfgMin := 1, cfgMax := 1 } }
def wFw : List Byte := padTo 4096 (le 4 0x514B4657 ++ le 2 1 ++ le 2 1 ++ le 4 77 ++ le 4 1)
def svFw (b : List Byte) : State := { svSup (wSlots .active .inactive) with tmf := { sv.tmf with tiles :=
  [(0x942, wHost (padTo 4096 (le 4 0x10943))), (0x943, wHost b), (0x944, { wHost b with closed := false })] } }
def svStage : State := { svGrp (wFire .idle) (wPg .running) with
  cfg := some { wGrpCfg with sets := [(504, parseCoeff wSetBytes)] }, tmf := { sv.tmf with tiles := [(0x942, wHost wSetBytes)] } }

/-! ### What the manual gives as examples -/

/-- "123456789". -/
def ascii9 : List Byte := [0x31, 0x32, 0x33, 0x34, 0x35, 0x36, 0x37, 0x38, 0x39]

/-- R118: CRC-32C of "123456789". -/
theorem test_crc32c : crc32c ascii9 = 0xE3069283 := by decide +kernel

/-- R220: CRC-16-CCITT of "123456789". -/
theorem test_crc16 : crc16 ascii9 = 0x29B1 := by decide +kernel

/-- R220: over the covered characters and their CRC, high byte first, it gives 0. -/
theorem test_crc16_over_itself : crc16 (ascii9 ++ [0x29, 0xB1]) = 0 := by decide +kernel

/-- Chapter 16's frame table: CRC-8 of "123456789". -/
theorem test_crc8 : crc8 (ascii9.flatMap (fun b => bitsMsb 8 b.toNat)) = 0xF4 := by decide +kernel

/-- Chapter 00: 24/16 and 40/16 both round to 2. -/
theorem test_rne_shr : rneShr 0x18 4 = 2 ∧ rneShr 0x28 4 = 2 := by decide

/-- R350: 30,000,000 over 900 s is a demand of 120,000. -/
theorem test_demand : demandOf 30000000 900000 900000 = 120000 := by decide +kernel

/-- Chapter 11: LSW_CH_16 in PWM, on, type 1, host-owned, d_app 1,000. -/
theorem test_lsw_ch : lswCh 16 { sv with
    lsw := { sv.lsw with chans := sv.lsw.chans.set 16 { LChan.reset with st := .pwm, order := 2, duty := 1000, dApp := 1000 } }
    cfg := some { sv.conf with chans := (List.replicate 24 ChanRec.off).set 16 { ChanRec.off with owner := 1, load := 1, compat := false } } } = 0x690003E8 := by
  decide +kernel

/-- Chapter 14: MSS_STATUS APPLYING with both keys installed and no tamper. -/
theorem test_mss_status : mssStatus { wMss with sealSt := 2, tamper := false, auth := some (zeros 64), oper := some (zeros 64) } = 0x182 := by
  decide +kernel

/-- Chapter 13: BTE_CREDIT with port 4's session open and its account OK. -/
theorem test_bte_credit : bteCredit false { wBte with sess := [wBSess 40 4 true] } = 0xFFFFFCFF := by decide +kernel

/-- The address map right after reset (Table 03-12). -/
theorem test_hqe_cap : readReg .pf0 0x1000 State.reset = 0x80004040 := by decide +kernel

/-- R217: K28.5 and D0.0 of 8b/10b, bit a first, from both disparities. -/
theorem test_8b10b : enc10 false ⟨true, 0xBC⟩ = (0b0011111010, true) ∧ enc10 true ⟨true, 0xBC⟩ = (0b1100000101, false) ∧
    enc10 false ⟨false, 0⟩ = (0b1001110100, false) ∧ enc10 true ⟨false, 0⟩ = (0b0110001011, true) := by decide +kernel

/-- FIPS 180-4: SHA-256 of "abc". -/
theorem test_sha256 : sha256 [0x61, 0x62, 0x63] = be 32 0xBA7816BF8F01CFEA414140DE5DAE2223B00361A396177A9CB410FF61F20015AD := by decide +kernel

/-- FIPS 197, appendix C.1: AES-128 of 00112233…FF under 000102…0F. -/
theorem test_aes : beNat (aesEncrypt (List.range 16) ((List.range 16).map (fun i => 17 * i))) = 0x69C4E0D86A7B0430D8CDB78070B4C55A := by
  decide +kernel

/-- RFC 4493, section 4: the CMAC of no bytes, and of sixteen. -/
theorem test_cmac : cmac (be 16 0x2B7E151628AED2A6ABF7158809CF4F3C) [] = be 16 0xBB1D6929E95937287FA37D129B756746 ∧
    cmac (be 16 0x2B7E151628AED2A6ABF7158809CF4F3C) (be 16 0x6BC1BEE22E409F96E93D7E117393172A) = be 16 0x070A16B46B4D4144F79BDD9DD04A287C := by
  decide +kernel

/-- RFC 6979, section A.2.5: the P-256 signature of "sample" with SHA-256, and the same with another first byte. -/
theorem test_ecdsa :
    [0x73, 0x72].map (fun b : Byte => verifySignature
      (be 32 0x60FED4BA255A9D31C961EB74C6356D68C049B8923B61FA6CE669622E60F29FB6 ++
        be 32 0x7903FE1008B8BC99A41AE9E95628BC64F2F1B20C2D7E9F5177A3C294D4462299)
      [b, 0x61, 0x6D, 0x70, 0x6C, 0x65]
      (be 32 0xEFD48B2AACB6A8FD1140DD9CD45E81D69D2C877B56AAF991C34D0EA84EAF3716 ++
        be 32 0xF7CB1C942D657C41D436C7A1B6E29F65F3E900DBB9AFF4064DC4AB2F843ACDA8)) = [true, false] := by decide +kernel

/-! ### Ill-formed commands are refused -/

/-- An SQE of a ring PF0 does not have, one short of sixteen dwords, one of a ring PF1 does not have. -/
theorem test_wf_sqe : Instr.wf (.nop ⟨.pf0, 64, List.replicate 16 0⟩) = false ∧ Instr.wf (.nop ⟨.pf0, 0, List.replicate 15 0⟩) = false ∧
    Instr.wf (.nop ⟨.pf1, 4, List.replicate 16 0⟩) = false ∧ Instr.wf (.nop ⟨.pf0, 63, List.replicate 16 0⟩) = true := by decide

/-- Numbers of rings, vectors, registers, tags, tiles and islands out of range. -/
theorem test_wf_numbers :
    ([.sqTailDoorbell .pf0 64 4 0, .cqHeadDoorbell .pf0 0 9 0, .pf1TunnelRead 0x3000 4, .pf1TunnelWrite 0 0 0, .registerWrite .pf0 6 0 4 0,
      .registerWrite .pf0 0 0x100000 4 0, .sqeForward .pf1 4, .coalescingTimeExpiry .pf0 64, .eventVectorHoldoffEnd .pf1 8,
      .msixUnmask .pf0 72, .hostReadCompletion 128 [] true true, .dmaCompletionTimeout 128, .tunnelTimeout 4 0, .pairRestore 65536,
      .streamClose ⟨.pf0, 0, List.replicate 16 0⟩ [65536], .streamTileDelivery 16 true, .islandBankSwitch 9, .islandReady 9,
      .powerGood 65536, .restExpiry 32, .epochBoundary [65536]] : List Instr).all (fun i => i.wf == false) = true := by decide

/-- Links, groups, ports, sensors and channels out of range. -/
theorem test_wf_objects :
    ([.frameMissing 64, .sampleFrame 0 false 0 (List.replicate 16 0), .sampleFrame 0 false 1024 [], .firingDeadline 64,
      .echoAnswer 0 ⟨false, []⟩ 65536, .mgmtFrame 0 false (List.replicate 41 0), .codeError 0 ⟨false, 1024, 0⟩, .pilotChangeEffect 16,
      .vehicleFrameRx 16 [] [], .modemIrq 0 [] [1, 2, 3, 4, 5], .thermalTick [], .graceExpiry 152, .flowSecond [], .inrushWindowEnd 24 false,
      .clampBudgetDrain 0 [], .supplyDip 65536, .lsSelChange 32, .restCorrection 32] : List Instr).all (fun i => i.wf == false) = true := by
  decide

/-- Samples, readings, keypads, frames and quantities out of range. -/
theorem test_wf_measurement :
    ([.sgmSample [], .sgmSample (List.replicate 40 (2 ^ 768)), .channelFault 40 .stuck, .channelFaultClear 40, .s0Pulse 8 0 0 false,
      .saggarSupplyLoss (some 65536) [], .batteryWindow [], .cellCutoff 65536, .keypadToken [48], .keypadToken (List.replicate 20 256),
      .keypadLockoutEnd 256, .opticalRequest (List.replicate 71 0), .zeroCrossing ⟨false, [4096], 0⟩, .evrSample 128,
      .evrPeriodClose 128, .evrRestoreDone [65536], .evrRefillDone 65536] : List Instr).all (fun i => i.wf == false) = true := by decide +kernel

/-- A read of host memory longer than 1 MiB is refused. -/
theorem test_wf_host_read : HostRead.wf (.data (List.replicate 1048577 0)) = false ∧ HostRead.wf .error = true := by
  refine ⟨?_, rfl⟩
  show decide ((List.replicate 1048577 (0 : Byte)).length ≤ 1048576) = false
  rw [List.length_replicate]; decide

/-! ### Hypotheses that can be met -/

theorem hypotheses_met_FrontCommandRuns :
    (fun (c : Instr) (rest : List Instr) (s : State) => s.pending = c :: rest) .saggarMissClear ([.tunnelAnswer]) ({ sv with pending := [.saggarMissClear, .tunnelAnswer] }) :=
  by decide +kernel

theorem hypotheses_met_IdleStepIsOneMicrosecond :
    (fun (s : State) => s.pending = []) sv :=
  by decide +kernel

theorem hypotheses_met_NopAndIdentify :
    ((fun (q : Sqe) (s : State) => Taken 0x00 q s) (q0 0x00 [(6, 77)]) sv) ∧
    ((fun (q : Sqe) (s : State) => Taken 0x07 q s ∧ sd q 4 = 4096) (q0 0x07 [(2, 0x1000), (4, 4096)]) sv) :=
  by and_intros <;> decide +kernel

theorem hypotheses_met_RingManagement :
    ((fun (q : Sqe) (s : State) => Taken 0x01 q s ∧ addrOf q % 4096 = 0 ∧ 1 ≤ bits (sd q 6) 7 0 ∧ bits (sd q 6) 7 0 < (s.fnOf q.fn).cqs.length ∧ (s.fnOf q.fn).cq (bits (sd q 6) 7 0) = none ∧ 4 ≤ bits (sd q 6) 19 16 ∧ bits (sd q 6) 19 16 ≤ 12 ∧ 1 ≤ bits (sd q 7) 7 0 ∧ bits (sd q 7) 25 16 ≤ 1000) (q0 0x01 [(2, 0x3000), (6, 63 + 2 ^ 16 * 12), (7, 1 + 2 ^ 16 * 1000)]) sv) ∧
    ((fun (q : Sqe) (s : State) => Taken 0x02 q s ∧ addrOf q % 4096 = 0 ∧ 1 ≤ bits (sd q 6) 7 0 ∧ bits (sd q 6) 7 0 < (s.fnOf q.fn).sqs.length ∧ (s.fnOf q.fn).sq (bits (sd q 6) 7 0) = none ∧ 4 ≤ bits (sd q 6) 19 16 ∧ bits (sd q 6) 19 16 ≤ 12 ∧ ((s.fnOf q.fn).cq (bits (sd q 7) 7 0)).isSome) (q0 0x02 [(2, 0x3000), (6, 63 + 2 ^ 16 * 4), (7, 1)]) sv) ∧
    ((fun (q : Sqe) (s : State) (r : CqRing) => Taken 0x06 q s ∧ (s.fnOf q.fn).cq (bits (sd q 6) 7 0) = some r ∧ 1 ≤ bits (sd q 7) 7 0 ∧ bits (sd q 7) 25 16 ≤ 1000) (q0 0x06 [(6, 1), (7, 255 + 2 ^ 16 * 1000)]) sv wCq) :=
  by and_intros <;> decide +kernel

theorem hypotheses_met_RingManagement_3 :
    (fun (q : Sqe) (s : State) => Taken 0x04 q s ∧ 1 ≤ bits (sd q 6) 7 0 ∧ ((s.fnOf q.fn).cq (bits (sd q 6) 7 0)).isSome ∧ (∀ n r, (s.fnOf q.fn).sqs.getD n none = some r → r.cq ≠ bits (sd q 6) 7 0) ∧ (s.fnOf q.fn).eventCq ≠ some (bits (sd q 6) 7 0)) (q0 0x04 [(6, 1)]) ({ sv with hqe := { sv.hqe with f0 := sv.hqe.f0.withSq 1 (wSq 0) } }) :=
  ⟨by decide +kernel, by decide +kernel, by decide +kernel, (fun n r h => of_decide_eq_true (of_getD_all _ (fun r => decide (r.cq ≠ 1)) (by decide +kernel) n r h)), by decide +kernel⟩

theorem hypotheses_met_RingManagementFromSqZeroOnly :
    (fun (i : Instr) (q : Sqe) (s : State) => Owned q s ∧ q.sq ≠ 0 ∧ ((i = .cqCreate q ∧ opOf q = 0x01) ∨ (i = .sqCreate q ∧ opOf q = 0x02) ∨ (i = .sqDelete q ∧ opOf q = 0x03) ∨ (i = .cqDelete q ∧ opOf q = 0x04) ∨ (i = .eventCqSet q ∧ opOf q = 0x05) ∨ (i = .cqModerate q ∧ opOf q = 0x06))) (.cqModerate (mkQ .pf0 1 0x06 [])) (mkQ .pf0 1 0x06 []) sv :=
  by and_intros <;> decide +kernel

theorem hypotheses_met_DeleteAndAbort :
    ((fun (q : Sqe) (s : State) (r : SqRing) => Taken 0x03 q s ∧ 1 ≤ bits (sd q 6) 7 0 ∧ (s.fnOf q.fn).sq (bits (sd q 6) 7 0) = some r ∧ r.deleting = false) (q0 0x03 [(6, 1)]) svFetched wFetched) ∧
    ((fun (q : Sqe) (s : State) (r : SqRing) (dw : List Word) (idx : Nat) (rest : List Fetched) => Taken 0x08 q s ∧ (s.fnOf q.fn).sq (bits (sd q 6) 7 0) = some r ∧ takeFirst (Fetched.is q.fn (bits (sd q 6) 7 0) (bits (sd q 6) 31 16)) r.fetched = some (⟨idx, some dw⟩, rest)) (q0 0x08 [(6, 1 + 2 ^ 16 * 5)]) svFetched wFetched ((mkQ .pf0 1 0x00 []).dw) 3 ([])) ∧
    ((fun (q : Sqe) (s : State) (r : SqRing) => Taken 0x08 q s ∧ (s.fnOf q.fn).sq (bits (sd q 6) 7 0) = some r ∧ takeFirst (Fetched.is q.fn (bits (sd q 6) 7 0) (bits (sd q 6) 31 16)) r.fetched = none ∧ (∃ f ∈ s.hqe.fwd, f.is q.fn (bits (sd q 6) 7 0) (bits (sd q 6) 31 16) = true)) (q0 0x08 [(6, 1 + 2 ^ 16 * 5)]) ({ sv with hqe := { sv.hqe with fwd := [⟨.pf0, 1, 5, 0x13, true, false, false, false⟩] } }) (wSq 1)) ∧
    ((fun (q : Sqe) (s : State) (r : SqRing) => Taken 0x08 q s ∧ (s.fnOf q.fn).sq (bits (sd q 6) 7 0) = some r ∧ takeFirst (Fetched.is q.fn (bits (sd q 6) 7 0) (bits (sd q 6) 31 16)) r.fetched = none ∧ (∀ f ∈ s.hqe.fwd, f.is q.fn (bits (sd q 6) 7 0) (bits (sd q 6) 31 16) = false) ∧ (∀ c ∈ s.hqe.ready, c.fn = q.fn → c.sq = bits (sd q 6) 7 0 → c.cid = bits (sd q 6) 31 16 → c.status = stABORTED_HOST ∨ c.status = stABORTED_DELETE) ∧ (¬(q.sq = bits (sd q 6) 7 0 ∧ cidOf q = bits (sd q 6) 31 16))) (q0 0x08 [(6, 1 + 2 ^ 16 * 9)]) sv (wSq 1)) :=
  by and_intros <;> decide +kernel

theorem hypotheses_met_EventCqSet :
    ((fun (q : Sqe) (s : State) => Taken 0x05 q s ∧ bit (sd q 6) 8 = false ∧ ((s.fnOf q.fn).cq (bits (sd q 6) 7 0)).isSome) (q0 0x05 [(6, 1)]) svEvents) ∧
    ((fun (q : Sqe) (s : State) => Taken 0x05 q s ∧ bit (sd q 6) 8 = true) (q0 0x05 [(6, 0x100)]) svEvents) :=
  by and_intros <;> decide +kernel

theorem hypotheses_met_EnableAndDisable :
    ((fun (fn : Fn) (s : State) => s.hiUp = true ∧ (s.fnOf fn).enable = false ∧ 4 ≤ bits (s.fnOf fn).adminSize.toNat 3 0 ∧ bits (s.fnOf fn).adminSize.toNat 3 0 ≤ 12 ∧ 4 ≤ bits (s.fnOf fn).adminSize.toNat 11 8 ∧ bits (s.fnOf fn).adminSize.toNat 11 8 ≤ 12) .pf1 (svOff 0xC04)) ∧
    ((fun (fn : Fn) (s : State) => s.hiUp = true ∧ (s.fnOf fn).enable = false ∧ (¬(4 ≤ bits (s.fnOf fn).adminSize.toNat 3 0 ∧ bits (s.fnOf fn).adminSize.toNat 3 0 ≤ 12 ∧ 4 ≤ bits (s.fnOf fn).adminSize.toNat 11 8 ∧ bits (s.fnOf fn).adminSize.toNat 11 8 ≤ 12))) .pf1 (svOff 0xD04)) ∧
    ((fun (s : State) => s.hiUp = true) svFetched) :=
  by and_intros <;> decide +kernel

theorem hypotheses_met_Doorbells :
    ((fun (fn : Fn) (n : Nat) (val : Word) (s : State) (r : SqRing) => s.hiUp = true ∧ s.hqeReady = true ∧ n < (s.fnOf fn).sqs.length ∧ (s.fnOf fn).sq n = some r ∧ r.fault = false ∧ bits val.toNat 15 0 ≠ r.tail ∧ bits val.toNat 15 0 < 2 ^ r.k) .pf0 1 15 sv (wSq 1)) ∧
    ((fun (fn : Fn) (n : Nat) (val : Word) (s : State) (r : SqRing) => s.hiUp = true ∧ s.hqeReady = true ∧ n < (s.fnOf fn).sqs.length ∧ (s.fnOf fn).sq n = some r ∧ r.fault = false ∧ bits val.toNat 15 0 ≠ r.tail ∧ 2 ^ r.k ≤ bits val.toNat 15 0) .pf0 1 16 sv (wSq 1)) ∧
    ((fun (fn : Fn) (n : Nat) (val : Word) (s : State) (r : CqRing) => s.hiUp = true ∧ s.hqeReady = true ∧ n < (s.fnOf fn).cqs.length ∧ (s.fnOf fn).cq n = some r ∧ r.fault = false ∧ r.head < 2 ^ r.k ∧ r.tail < 2 ^ r.k ∧ bits val.toNat 15 0 ≠ r.head ∧ bits val.toNat 15 0 < 2 ^ r.k ∧ (bits val.toNat 15 0 + 2 ^ r.k - r.head) % 2 ^ r.k ≤ (r.tail + 2 ^ r.k - r.head) % 2 ^ r.k) .pf0 1 3 (svCq ⟨0x20000, 4, 0, 3, true, true, 1, 0, 0, false, false⟩) (⟨0x20000, 4, 0, 3, true, true, 1, 0, 0, false, false⟩)) ∧
    ((fun (fn : Fn) (n : Nat) (val : Word) (s : State) (r : CqRing) => s.hiUp = true ∧ s.hqeReady = true ∧ n < (s.fnOf fn).cqs.length ∧ (s.fnOf fn).cq n = some r ∧ r.fault = false ∧ r.head < 2 ^ r.k ∧ r.tail < 2 ^ r.k ∧ bits val.toNat 15 0 ≠ r.head ∧ (2 ^ r.k ≤ bits val.toNat 15 0 ∨ (r.tail + 2 ^ r.k - r.head) % 2 ^ r.k < (bits val.toNat 15 0 + 2 ^ r.k - r.head) % 2 ^ r.k)) .pf0 1 4 (svCq ⟨0x20000, 4, 0, 3, true, true, 1, 0, 0, false, false⟩) (⟨0x20000, 4, 0, 3, true, true, 1, 0, 0, false, false⟩)) ∧
    ((fun (fn : Fn) (n : Nat) (val : Word) (s : State) (r : CqRing) => s.hiUp = true ∧ s.hqeReady = true ∧ n < (s.fnOf fn).cqs.length ∧ (s.fnOf fn).cq n = some r ∧ r.fault = false ∧ r.head < 2 ^ r.k ∧ r.tail < 2 ^ r.k ∧ bits val.toNat 15 0 ≠ r.head ∧ (2 ^ r.k ≤ bits val.toNat 15 0 ∨ (r.tail + 2 ^ r.k - r.head) % 2 ^ r.k < (bits val.toNat 15 0 + 2 ^ r.k - r.head) % 2 ^ r.k)) .pf1 1 16 sv wCq) ∧
    ((fun (fn : Fn) (n : Nat) (s : State) => s.hiUp = true ∧ s.hqeReady = true ∧ n < (s.fnOf fn).sqs.length ∧ (s.fnOf fn).sq n = none) .pf0 63 sv) ∧
    ((fun (fn : Fn) (n : Nat) (s : State) => s.hiUp = true ∧ s.hqeReady = true ∧ n < (s.fnOf fn).cqs.length ∧ (s.fnOf fn).cq n = none) .pf1 3 sv) ∧
    ((fun (fn : Fn) (n : Nat) (size : Nat) (val : Word) (s : State) => (size ≠ 4 ∨ (∃ r, (s.fnOf fn).sq n = some r ∧ bits val.toNat 15 0 = r.tail))) .pf0 1 2 3 sv) ∧
    ((fun (fn : Fn) (n : Nat) (size : Nat) (val : Word) (s : State) => (size ≠ 4 ∨ (∃ r, (s.fnOf fn).sq n = some r ∧ bits val.toNat 15 0 = r.tail))) .pf0 1 4 0 sv) ∧
    ((fun (fn : Fn) (n : Nat) (size : Nat) (val : Word) (s : State) => (size ≠ 4 ∨ (∃ r, (s.fnOf fn).cq n = some r ∧ bits val.toNat 15 0 = r.head))) .pf0 1 8 3 sv) ∧
    ((fun (fn : Fn) (n : Nat) (size : Nat) (val : Word) (s : State) => (size ≠ 4 ∨ (∃ r, (s.fnOf fn).cq n = some r ∧ bits val.toNat 15 0 = r.head))) .pf0 1 4 0 sv) :=
  by and_intros <;> decide +kernel

theorem hypotheses_met_RegisterAccess :
    ((fun (s : State) => s.hiUp = true) sv) ∧
    ((fun (fn : Fn) (s : State) => s.hiUp = true ∧ (s.fnOf fn).enable = false) .pf0 ({ sv with hqe := { sv.hqe with f0 := FnState.reset 64 72, f1 := FnState.reset 4 8 } })) ∧
    ((fun (fn : Fn) (s : State) => s.hiUp = true ∧ (s.fnOf fn).enable = false) .pf1 ({ sv with hqe := { sv.hqe with f0 := FnState.reset 64 72, f1 := FnState.reset 4 8 } })) ∧
    ((fun (fn : Fn) (s : State) => s.hiUp = true ∧ (s.fnOf fn).enable = false) .pf0 ({ sv with hqe := { sv.hqe with f0 := FnState.reset 64 72, f1 := FnState.reset 4 8 } })) ∧
    ((fun (fn : Fn) (s : State) => s.hiUp = true ∧ (s.fnOf fn).enable = false) .pf1 ({ sv with hqe := { sv.hqe with f0 := FnState.reset 64 72, f1 := FnState.reset 4 8 } })) ∧
    ((fun (fn : Fn) (s : State) => s.hiUp = true ∧ (s.fnOf fn).enable = false) .pf0 ({ sv with hqe := { sv.hqe with f0 := FnState.reset 64 72, f1 := FnState.reset 4 8 } })) ∧
    ((fun (fn : Fn) (off : Nat) (s : State) => (s.fnOf fn).enable = true ∧ 0x10 ≤ off ∧ off ≤ 0x20) .pf1 0x10 sv) ∧
    ((fun (fn : Fn) (off : Nat) (s : State) => (s.fnOf fn).enable = true ∧ 0x10 ≤ off ∧ off ≤ 0x20) .pf0 0x20 sv) ∧
    ((fun (fn : Fn) (v : Nat) (s : State) => s.hiUp = true ∧ v < (s.fnOf fn).vecs.length ∧ v < 128) .pf1 7 sv) ∧
    ((fun (fn : Fn) (v : Nat) (s : State) => s.hiUp = true ∧ v < (s.fnOf fn).vecs.length ∧ v < 128) .pf1 7 sv) ∧
    ((fun (fn : Fn) (v : Nat) (s : State) => s.hiUp = true ∧ v < (s.fnOf fn).vecs.length ∧ v < 128) .pf1 7 sv) ∧
    ((fun (fn : Fn) (v : Nat) (val : Word) (s : State) => s.hiUp = true ∧ v < (s.fnOf fn).vecs.length ∧ v < 128 ∧ bit val.toNat 0 = true) .pf0 71 1 sv) ∧
    ((fun (fn : Fn) (v : Nat) (val : Word) (s : State) => s.hiUp = true ∧ v < (s.fnOf fn).vecs.length ∧ v < 128 ∧ bit val.toNat 0 = false) .pf0 71 2 sv) ∧
    ((fun (off : Nat) => off ∉ [0x5C, 0x1008, 0x1010, 0x1014, 0x1018, 0x101C, 0x1020, 0x2010, 0x6004, 0x901C]) 0x1024) ∧
    ((fun (off : Nat) => 0x3000 ≤ off ∧ off ∉ [0x3008, 0x300C, 0x3010, 0x3014, 0x3018, 0x301C, 0x3020]) 0x3000) ∧
    ((fun (fn : Fn) (off : Nat) (s : State) => (0x800 ≤ off ∨ (s.fnOf fn).vecs.length ≤ off / 16)) .pf0 0x800 sv) ∧
    ((fun (fn : Fn) (off : Nat) (s : State) => (0x800 ≤ off ∨ (s.fnOf fn).vecs.length ≤ off / 16)) .pf1 0x80 sv) ∧
    ((fun (off : Nat) (size : Nat) => (size ≠ 4 ∨ off % 4 ≠ 0)) 0x5C 2) ∧
    ((fun (off : Nat) (size : Nat) => (size ≠ 4 ∨ off % 4 ≠ 0)) 0x5E 4) ∧
    ((fun (off : Nat) (s : State) => off < 0x3000 ∧ off % 4 = 0 ∧ s.lnk.up = false) 0x2FFC ({ sv with lnk := SgLink.reset })) ∧
    ((fun (off : Nat) (s : State) => off < 0x3000 ∧ off % 4 = 0 ∧ s.lnk.up = true) 0x2FFC sv) ∧
    ((fun (off : Nat) (s : State) => off < 0x3000 ∧ off % 8 = 0 ∧ s.lnk.up = true) 0x2FF8 sv) ∧
    ((fun (off : Nat) (size : Nat) => (off % size ≠ 0 ∨ (size ≠ 4 ∧ size ≠ 8))) 2 4) ∧
    ((fun (off : Nat) (size : Nat) => (off % size ≠ 0 ∨ (size ≠ 4 ∧ size ≠ 8))) 4 2) ∧
    ((fun (off : Nat) (s : State) => off < 0x3000 ∧ off % 4 = 0 ∧ s.lnk.up = false) 0x2FFC ({ sv with lnk := SgLink.reset })) ∧
    ((fun (off : Nat) (s : State) => off < 0x3000 ∧ s.lnk.up = true) 0x2FFC sv) :=
  by and_intros <;> decide +kernel

theorem hypotheses_met_SqeFetch :
    (fun (s : State) (r : SqRing) (c : CqRing) => s.hiUp = true ∧ s.hqeReady = true ∧ s.hqe.f0.enable = true ∧ s.hqe.lastPf1 = true ∧ s.hqe.tags.length < 32 ∧ s.hqe.f0.sq 0 = some r ∧ s.hqe.f0.cq r.cq = some c ∧ r.fault = false ∧ r.deleting = false ∧ r.head ≠ r.tail ∧ (c.tail + 1) % 2 ^ c.k ≠ c.head ∧ c.fault = false) ({ sv with hqe := { sv.hqe with f0 := sv.hqe.f0.withSq 0 { wSq 0 with tail := 1 } } }) ({ wSq 0 with tail := 1 }) wCq :=
  by and_intros <;> decide +kernel

theorem hypotheses_met_SqeFetch_2 :
    (fun (s : State) => (∀ fn n r c, (s.fnOf fn).sq n = some r → (s.fnOf fn).cq r.cq = some c → r.head ≠ r.tail → (c.tail + 1) % 2 ^ c.k = c.head)) sv :=
  (fun fn n r c h _ hne => absurd (of_decide_eq_true (of_getD_all _ (fun r => decide (r.head = r.tail)) (by cases fn <;> decide +kernel) n r h)) hne)

theorem hypotheses_met_HostReads :
    ((fun (tag : Nat) (s : State) (fn : Fn) (sq : Nat) (idx : Nat) (addr : Nat) (len : Nat) (got : List Byte) (r : SqRing) => s.hqe.readWait = [] ∧ s.hqe.canTag .pf1 = true ∧ look tag s.hqe.tags = some ⟨fn, .sqe sq idx, addr, len, got, false⟩ ∧ (s.fnOf fn).sq sq = some r) 3 svTag .pf0 1 0 0x10000 64 ([]) ({ wSq 1 with fetched := [⟨0, none⟩] })) ∧
    ((fun (tag : Nat) (s : State) (fn : Fn) (sq : Nat) (idx : Nat) (addr : Nat) (len : Nat) (got : List Byte) (bad : Bool) (r : SqRing) => s.hqe.readWait = [] ∧ s.hqe.canTag .pf1 = true ∧ look tag s.hqe.tags = some ⟨fn, .sqe sq idx, addr, len, got, bad⟩ ∧ (s.fnOf fn).sq sq = some r) 3 svTag .pf0 1 0 0x10000 64 ([]) false ({ wSq 1 with fetched := [⟨0, none⟩] })) :=
  by and_intros <;> decide +kernel

theorem hypotheses_met_SqeForward :
    ((fun (sq : Nat) (idx : Nat) (dw : List Word) (rest : List Fetched) (r : SqRing) (w : OpRow) (s : State) => s.hqe.f0.sq sq = some r ∧ r.fetched = ⟨idx, some dw⟩ :: rest ∧ fenceOf ⟨.pf0, sq, dw⟩ = false ∧ opRow .pf0 (opOf ⟨.pf0, sq, dw⟩) = some w ∧ w.buf ≠ .h2d) 1 3 ((mkQ .pf0 1 0x00 []).dw) ([]) wFetched (⟨0x00, true, true, .all, .none, [6]⟩) svFetched) ∧
    ((fun (fn : Fn) (sq : Nat) (idx : Nat) (dw : List Word) (rest : List Fetched) (r : SqRing) (s : State) => (s.fnOf fn).sq sq = some r ∧ r.fetched = ⟨idx, some dw⟩ :: rest ∧ fenceOf ⟨fn, sq, dw⟩ = false ∧ s.hqe.fwd = [] ∧ opRow fn (opOf ⟨fn, sq, dw⟩) = none) .pf0 1 3 ((mkQ .pf0 1 0xFF []).dw) ([]) ({ wSq 1 with fetched := [⟨3, some (mkQ .pf0 1 0xFF []).dw⟩] }) ({ sv with hqe := { sv.hqe with f0 := sv.hqe.f0.withSq 1 { wSq 1 with fetched := [⟨3, some (mkQ .pf0 1 0xFF []).dw⟩] } } })) ∧
    ((fun (sq : Nat) (idx : Nat) (dw : List Word) (rest : List Fetched) (r : SqRing) (s : State) => s.hqe.f1.sq sq = some r ∧ r.fetched = ⟨idx, some dw⟩ :: rest ∧ fenceOf ⟨.pf1, sq, dw⟩ = false ∧ s.hqe.fwd = [] ∧ 0x0F < opOf ⟨.pf1, sq, dw⟩ ∧ preCheck (opOf ⟨.pf1, sq, dw⟩) ⟨.pf1, sq, dw⟩ s = none ∧ s.lnk.up = false) 1 3 ((mkQ .pf1 1 0xA1 [(4, 280)]).dw) ([]) ({ wSq 1 with fetched := [⟨3, some (mkQ .pf1 1 0xA1 [(4, 280)]).dw⟩] }) ({ sv with lnk := SgLink.reset, hqe := { sv.hqe with f1 := sv.hqe.f1.withSq 1 { wSq 1 with fetched := [⟨3, some (mkQ .pf1 1 0xA1 [(4, 280)]).dw⟩] } } })) ∧
    ((fun (fn : Fn) (sq : Nat) (idx : Nat) (dw : List Word) (rest : List Fetched) (r : SqRing) (s : State) => (s.fnOf fn).sq sq = some r ∧ r.fetched = ⟨idx, some dw⟩ :: rest ∧ fenceOf ⟨fn, sq, dw⟩ = true ∧ (∃ f ∈ s.hqe.fwd, f.fn = fn ∧ f.sq = sq)) .pf0 1 3 ((mkQ .pf0 1 0x100 []).dw) ([]) ({ wSq 1 with fetched := [⟨3, some (mkQ .pf0 1 0x100 []).dw⟩] }) ({ sv with hqe := { sv.hqe with fwd := [⟨.pf0, 1, 7, 0x13, true, false, false, false⟩], f0 := sv.hqe.f0.withSq 1 { wSq 1 with fetched := [⟨3, some (mkQ .pf0 1 0x100 []).dw⟩] } } })) :=
  by and_intros <;> decide +kernel

theorem hypotheses_met_Posting :
    ((fun (s : State) (c : Cqe) (rest : List Cqe) (r : SqRing) (k : CqRing) (x : Commit) => s.hqe.ready = c :: rest ∧ c.fn = .pf0 ∧ s.sup.posting = some x ∧ x.sq = c.sq ∧ x.cid = c.cid ∧ c.tail = none ∧ s.hqe.f0.sq c.sq = some r ∧ s.hqe.f0.cq r.cq = some k ∧ (k.tail + 1) % 2 ^ k.k ≠ k.head ∧ k.fault = false) (svTail none) (⟨.pf0, 1, 5, 0, 9, true, none⟩) ([]) (wSq 1) wCq (⟨.config, 1, 5, .service, [], true, false⟩)) ∧
    ((fun (fn : Fn) (s : State) (e : PendEv) (rest : List PendEv) (n : Nat) (k : CqRing) => (s.fnOf fn).eventCq = some n ∧ (s.fnOf fn).pendEv = e :: rest ∧ e.after = [] ∧ (s.fnOf fn).cq n = some k ∧ (k.tail + 1) % 2 ^ k.k ≠ k.head ∧ k.fault = false) .pf0 svEvents (⟨0x4101, 2, 3, 4, []⟩) ([]) 1 wCq) ∧
    ((fun (s : State) (c : Cqe) (rest : List Cqe) (r : SqRing) (k : CqRing) (m : CqRing) (n : Nat) (count : Nat) (time : Nat) => s.hqe.ready = c :: rest ∧ (s.fnOf c.fn).sq c.sq = some r ∧ (s.fnOf c.fn).cq r.cq = some k ∧ (k.tail + 1) % 2 ^ k.k ≠ k.head ∧ k.fault = false ∧ c.tail = some (.moderates n count time) ∧ n ≠ r.cq ∧ (s.fnOf c.fn).cq n = some m) (svTail (some (.moderates 2 3 40))) (⟨.pf0, 1, 5, 0, 9, true, some (.moderates 2 3 40)⟩) ([]) (wSq 1) wCq wCq 2 3 40) ∧
    ((fun (s : State) (c : Cqe) (rest : List Cqe) (r : SqRing) (k : CqRing) => s.hqe.ready = c :: rest ∧ c.tail = none ∧ (s.fnOf c.fn).sq c.sq = some r ∧ (s.fnOf c.fn).cq r.cq = some k ∧ (k.tail + 1) % 2 ^ k.k ≠ k.head ∧ k.fault = false) (svReady true wCq) (⟨.pf0, 1, 5, 0, 9, true, none⟩) ([]) (wSq 1) wCq) :=
  by and_intros <;> decide +kernel

theorem hypotheses_met_Posting_1 :
    (fun (s : State) (c : Cqe) (rest : List Cqe) (r : SqRing) (k : CqRing) => s.hqe.ready = c :: rest ∧ s.sup.posting = none ∧ (s.fnOf c.fn).sq c.sq = some r ∧ (s.fnOf c.fn).cq r.cq = some k ∧ c.tail = none ∧ c.quiet = true ∧ NothingWaitsFor c s ∧ (k.tail + 1) % 2 ^ k.k ≠ k.head ∧ k.fault = false) (svReady true wCq) (⟨.pf0, 1, 5, 0, 9, true, none⟩) ([]) (wSq 1) wCq :=
  ⟨by decide +kernel, by decide +kernel, by decide +kernel, by decide +kernel, by decide +kernel, by decide +kernel, (⟨by decide +kernel, fun fn => by cases fn <;> decide +kernel⟩), by and_intros <;> decide +kernel⟩

theorem hypotheses_met_Posting_5 :
    (fun (s : State) => (∀ c ∈ s.hqe.ready, ∃ r k, (s.fnOf c.fn).sq c.sq = some r ∧ (s.fnOf c.fn).cq r.cq = some k ∧ (k.tail + 1) % 2 ^ k.k = k.head ∧ ¬(k.fault = true ∧ r.deleting = true))) (svReady true { wCq with tail := 15 }) :=
  (fun c hc => by cases hc with | head => exact ⟨_, _, rfl, rfl, (by decide +kernel), (by decide +kernel)⟩ | tail _ h => cases h)

theorem hypotheses_met_VectorTimers :
    ((fun (fn : Fn) (n : Nat) (s : State) (k : CqRing) => (s.fnOf fn).cq n = some k ∧ k.timing = true ∧ 0 < k.fresh ∧ ((s.fnOf fn).vec n).masked = false) .pf0 1 (svVec { MsixVec.reset with masked := false }) ({ wCq with fresh := 1, timing := true })) ∧
    ((fun (fn : Fn) (v : Nat) (s : State) => ((s.fnOf fn).vec v).hold = true ∧ ((s.fnOf fn).vec v).again = true ∧ ((s.fnOf fn).vec v).masked = false) .pf0 1 (svVec { MsixVec.reset with masked := false, hold := true, again := true })) ∧
    ((fun (fn : Fn) (v : Nat) (s : State) => ((s.fnOf fn).vec v).hold = true ∧ ((s.fnOf fn).vec v).again = false) .pf0 1 (svVec { MsixVec.reset with hold := true })) ∧
    ((fun (fn : Fn) (v : Nat) (s : State) => v < (s.fnOf fn).vecs.length ∧ ((s.fnOf fn).vec v).masked = true ∧ (isEventVec fn v = false ∨ ((s.fnOf fn).vec v).pend = false)) .pf0 71 sv) ∧
    ((fun (fn : Fn) (v : Nat) (s : State) => v < (s.fnOf fn).vecs.length ∧ ((s.fnOf fn).vec v).masked = true ∧ isEventVec fn v = true ∧ ((s.fnOf fn).vec v).pend = true) .pf0 71 ({ sv with hqe := { sv.hqe with f0 := { sv.hqe.f0 with vecs := (List.replicate 72 MsixVec.reset).set 71 { MsixVec.reset with pend := true } } } })) ∧
    ((fun (fn : Fn) (v : Nat) (s : State) => v < (s.fnOf fn).vecs.length ∧ ((s.fnOf fn).vec v).masked = true ∧ isEventVec fn v = true ∧ ((s.fnOf fn).vec v).pend = true) .pf0 71 ({ sv with hqe := { sv.hqe with f0 := { sv.hqe.f0 with vecs := (List.replicate 72 MsixVec.reset).set 71 { MsixVec.reset with pend := true, hold := true } } } })) :=
  by and_intros <;> decide +kernel

theorem hypotheses_met_TunnelAnswers :
    ((fun (s : State) (a : Answer) (rest : List Answer) (f : Fwd) (fw : List Fwd) => s.hqe.answers = a :: rest ∧ takeFirst (Fwd.is .pf1 a.sq a.cid) s.hqe.fwd = some (f, fw) ∧ f.orphan = false ∧ s.lnk.up = true ∧ s.lnk.sgUp = true ∧ s.lnk.toSt = [] ∧ s.lnk.inSt = [] ∧ s.lnk.heldPf1 = []) ({ sv with hqe := { sv.hqe with fwd := [⟨.pf1, 1, 7, 0xA1, true, false, false, false⟩], answers := [⟨1, 7, 0, 2, 0x5000, [1, 2, 3, 4]⟩] } }) (⟨1, 7, 0, 2, 0x5000, [1, 2, 3, 4]⟩) ([]) (⟨.pf1, 1, 7, 0xA1, true, false, false, false⟩) ([])) ∧
    ((fun (s : State) (sq : Nat) (cid : Nat) (f : Fwd) (fw : List Fwd) => takeFirst (Fwd.is .pf1 sq cid) s.hqe.fwd = some (f, fw) ∧ 0x0F < f.op ∧ f.orphan = false) ({ sv with hqe := { sv.hqe with fwd := [⟨.pf1, 1, 7, 0xA1, true, false, false, false⟩] } }) 1 7 (⟨.pf1, 1, 7, 0xA1, true, false, false, false⟩) ([])) :=
  by and_intros <;> decide +kernel

theorem hypotheses_met_TileAlloc :
    (fun (q : Sqe) (s : State) => Taken 0x10 q s ∧ 1 ≤ bits (sd q 6) 11 0 ∧ bits (sd q 6) 11 0 ≤ 2048 ∧ sd q 4 = 4 * bits (sd q 6) 11 0 ∧ s.tmf.hostCount + bits (sd q 6) 11 0 ≤ s.tmf.hostLimit ∧ bits (sd q 6) 11 0 ≤ s.tmf.unreserved) (q0 0x10 [(4, 12), (6, 3)]) ({ sv with tmf := { sv.tmf with hostLimit := 3 } }) :=
  by and_intros <;> decide +kernel

theorem hypotheses_met_TileAllocAllOrNone :
    ((fun (q : Sqe) (s : State) => Taken 0x10 q s ∧ 1 ≤ bits (sd q 6) 11 0 ∧ bits (sd q 6) 11 0 ≤ 2048 ∧ sd q 4 = 4 * bits (sd q 6) 11 0 ∧ (s.tmf.hostLimit < s.tmf.hostCount + bits (sd q 6) 11 0 ∨ s.tmf.unreserved < bits (sd q 6) 11 0)) (q0 0x10 [(4, 12), (6, 3)]) ({ sv with tmf := { sv.tmf with hostLimit := 2 } })) ∧
    ((fun (q : Sqe) (s : State) => Taken 0x10 q s ∧ 1 ≤ bits (sd q 6) 11 0 ∧ bits (sd q 6) 11 0 ≤ 2048 ∧ sd q 4 = 4 * bits (sd q 6) 11 0 ∧ (s.tmf.hostLimit < s.tmf.hostCount + bits (sd q 6) 11 0 ∨ s.tmf.unreserved < bits (sd q 6) 11 0)) (q0 0x10 [(4, 8192), (6, 2048)]) ({ sv with tmf := { sv.tmf with hostLimit := 8192, chans := List.replicate 16 (wChan [] [] |> fun c => { c with reserve := 3800 }) } })) :=
  by and_intros <;> decide +kernel

theorem hypotheses_met_HostTileLife :
    ((fun (q : Sqe) (s : State) (x : Tile) => Taken 0x11 q s ∧ bits (sd q 6) 11 0 + sd q 4 ≤ 4096 ∧ bits (sd q 6) 11 0 % 4 = 0 ∧ s.tmf.hostTile (sd q 5) = some x ∧ x.closed = false ∧ s.listed (handleIdx (sd q 5)) = false ∧ ReadsOk q s) (q0 0x11 [(4, 4), (5, 0x10940), (6, 4092)]) (svTile false) (wTile false)) ∧
    ((fun (q : Sqe) (s : State) (x : Tile) => Taken 0x11 q s ∧ bits (sd q 6) 11 0 + sd q 4 ≤ 4096 ∧ bits (sd q 6) 11 0 % 4 = 0 ∧ s.tmf.hostTile (sd q 5) = some x ∧ x.closed = false ∧ s.listed (handleIdx (sd q 5)) = false) (q0 0x11 [(4, 4), (5, 0x10940), (6, 4092)]) (svTile false) (wTile false)) ∧
    ((fun (q : Sqe) (s : State) (x : Tile) => Taken 0x12 q s ∧ s.tmf.hostTile (sd q 5) = some x ∧ x.closed = false ∧ s.listed (handleIdx (sd q 5)) = false ∧ (bit (sd q 7) 0 = false ∨ sd q 6 = crc32c x.bytes)) (q0 0x12 [(5, 0x10940)]) (svTile false) (wTile false)) ∧
    ((fun (q : Sqe) (s : State) (x : Tile) => Taken 0x12 q s ∧ s.tmf.hostTile (sd q 5) = some x ∧ x.closed = false ∧ s.listed (handleIdx (sd q 5)) = false ∧ bit (sd q 7) 0 = true ∧ sd q 6 ≠ crc32c x.bytes) (q0 0x12 [(5, 0x10940), (7, 1)]) (svTile false) (wTile false)) ∧
    ((fun (q : Sqe) (s : State) (x : Tile) => Taken 0x13 q s ∧ sd q 4 = 4096 ∧ s.tmf.hostTile (sd q 5) = some x ∧ x.closed = true) (q0 0x13 [(4, 4096), (5, 0x10940)]) (svTile true) (wTile true)) ∧
    ((fun (q : Sqe) (s : State) (x : Tile) => Taken 0x14 q s ∧ s.tmf.hostTile (sd q 5) = some x ∧ s.listed (handleIdx (sd q 5)) = false) (q0 0x14 [(5, 0x10940)]) (svTile true) (wTile true)) :=
  by and_intros <;> decide +kernel

theorem hypotheses_met_HostTileLife_7 :
    (fun (i : Instr) (q : Sqe) (s : State) => s.tmf.hostTile (sd q 5) = none ∧ ((∃ h, i = .tileWrite q h ∧ Taken 0x11 q s ∧ bits (sd q 6) 11 0 + sd q 4 ≤ 4096 ∧ bits (sd q 6) 11 0 % 4 = 0) ∨ (i = .tileClose q ∧ Taken 0x12 q s) ∨ (∃ bad, i = .tileRead q bad ∧ Taken 0x13 q s ∧ sd q 4 = 4096) ∨ (i = .tileFree q ∧ Taken 0x14 q s))) (.tileFree (q0 0x14 [(5, 0x20940)])) (q0 0x14 [(5, 0x20940)]) (svTile true) :=
  ⟨by decide +kernel, (.inr (.inr (.inr ⟨rfl, by decide +kernel⟩)))⟩

theorem hypotheses_met_Retirement :
    ((fun (q : Sqe) (s : State) (x : Tile) => Taken 0x13 q s ∧ sd q 4 = 4096 ∧ s.tmf.hostTile (sd q 5) = some x ∧ x.closed = true ∧ 0 < s.tmf.sparesFree ∧ s.sup.holdupReady = true ∧ s.sup.journal.length < 1000) (q0 0x13 [(4, 4096), (5, 0x10940)]) (svTile true) (wTile true)) ∧
    ((fun (s : State) => s.spa.waiting = []) ({ sv with tmf := { sv.tmf with restoring := [0x20] } })) :=
  by and_intros <;> decide +kernel

theorem hypotheses_met_StreamOpenAndBuffer :
    ((fun (q : Sqe) (s : State) => Taken 0x15 q s ∧ sd q 1 < 16 ∧ bits (sd q 6) 15 0 ≤ 16384 ∧ max 1 (bits (sd q 6) 15 0) ≤ bits (sd q 6) 31 16 ∧ bits (sd q 6) 31 16 ≤ 32768 ∧ bits (sd q 7) 25 16 ≤ 1000 ∧ (s.tmf.chan (sd q 1)).isOpen = false ∧ bits (sd q 6) 15 0 ≤ s.tmf.unreserved) (q0 0x15 [(1, 15), (6, 16384 + 2 ^ 16 * 32768), (7, 2 ^ 16 * 1000)]) sv) ∧
    ((fun (q : Sqe) (s : State) => Taken 0x16 q s ∧ sd q 1 < 16 ∧ 4096 ≤ sd q 4 ∧ sd q 4 % 4096 = 0 ∧ (s.tmf.chan (sd q 1)).isOpen = true ∧ (s.tmf.chan (sd q 1)).bufs.length < 64) (q0 0x16 [(1, 15), (4, 8192)]) (svChan (wChan [] []))) ∧
    ((fun (q : Sqe) (s : State) => Taken 0x16 q s ∧ sd q 1 < 16 ∧ 4096 ≤ sd q 4 ∧ sd q 4 % 4096 = 0 ∧ (s.tmf.chan (sd q 1)).isOpen = true ∧ 64 ≤ (s.tmf.chan (sd q 1)).bufs.length) (q0 0x16 [(1, 15), (4, 4096)]) (svChan (wChan [] (List.replicate 64 ⟨0, 1, 0, 4096, 0⟩)))) ∧
    ((fun (q : Sqe) (s : State) => Taken 0x15 q s ∧ sd q 1 < 16 ∧ bits (sd q 6) 15 0 ≤ 16384 ∧ max 1 (bits (sd q 6) 15 0) ≤ bits (sd q 6) 31 16 ∧ bits (sd q 6) 31 16 ≤ 32768 ∧ bits (sd q 7) 25 16 ≤ 1000 ∧ (s.tmf.chan (sd q 1)).isOpen = false ∧ s.tmf.unreserved < bits (sd q 6) 15 0) (q0 0x15 [(1, 15), (6, 16384 + 2 ^ 16 * 16384)]) ({ sv with tmf := { sv.tmf with chans := (List.replicate 16 (wChan [] [] |> fun c => { c with reserve := 3500 })).set 15 Chan.reset } })) :=
  by and_intros <;> decide +kernel

theorem hypotheses_met_StreamDelivery :
    ((fun (n : Nat) (i : Nat) (s : State) (tiles : List Nat) (b : StreamBuf) (bufs : List StreamBuf) (x : Tile) => n < s.tmf.chans.length ∧ (s.tmf.chan n).closed = i :: tiles ∧ (s.tmf.chan n).bufs = b :: bufs ∧ look i s.tmf.tiles = some x ∧ 4096 * (b.written + 1) < b.len) 15 0x941 (svChan (wChan [0x941] [⟨1, 7, 0x8000, 8192, 0⟩])) ([]) (⟨1, 7, 0x8000, 8192, 0⟩) ([]) (⟨.channel 15, true, List.replicate 4096 9, 0⟩)) ∧
    ((fun (n : Nat) (i : Nat) (s : State) (tiles : List Nat) (b : StreamBuf) (bufs : List StreamBuf) (x : Tile) => n < s.tmf.chans.length ∧ (s.tmf.chan n).closed = i :: tiles ∧ (s.tmf.chan n).bufs = b :: bufs ∧ look i s.tmf.tiles = some x ∧ b.len ≤ 4096 * (b.written + 1) ∧ OwnedAs .pf0 b.sq b.cid s) 15 0x941 (svChan (wChan [0x941] [⟨1, 7, 0x8000, 4096, 0⟩])) ([]) (⟨1, 7, 0x8000, 4096, 0⟩) ([]) (⟨.channel 15, true, List.replicate 4096 9, 0⟩)) ∧
    ((fun (n : Nat) (i : Nat) (s : State) (tiles : List Nat) (b : StreamBuf) (bufs : List StreamBuf) => n < s.tmf.chans.length ∧ (s.tmf.chan n).closed = i :: tiles ∧ (s.tmf.chan n).bufs = b :: bufs ∧ OwnedAs .pf0 b.sq b.cid s) 15 0x941 (svChan (wChan [0x941] [⟨1, 7, 0x8000, 8192, 1⟩])) ([]) (⟨1, 7, 0x8000, 8192, 1⟩) ([])) ∧
    ((fun (n : Nat) (s : State) (b : StreamBuf) (bufs : List StreamBuf) => n < s.tmf.chans.length ∧ (s.tmf.chan n).bufs = b :: bufs ∧ (s.tmf.chan n).flush ≠ 0 ∧ 0 < b.written ∧ OwnedAs .pf0 b.sq b.cid s) 15 (svChan (wChan [] [⟨1, 7, 0x8000, 8192, 1⟩])) (⟨1, 7, 0x8000, 8192, 1⟩) ([])) ∧
    ((fun (n : Nat) (s : State) (o : OpenTile) => n < s.tmf.chans.length ∧ (s.tmf.chan n).flush ≠ 0 ∧ (s.tmf.chan n).filling = some o) 15 (svChan { wChan [] [] with filling := some ⟨0x941, 0, 0, 8, [[1, 2]]⟩ }) (⟨0x941, 0, 0, 8, [[1, 2]]⟩)) :=
  by and_intros <;> decide +kernel

theorem hypotheses_met_StreamClose :
    ((fun (q : Sqe) (s : State) => Taken 0x17 q s ∧ sd q 1 < 16 ∧ sd q 1 < s.tmf.chans.length ∧ (s.tmf.chan (sd q 1)).isOpen = true) (q0 0x17 [(1, 15)]) (svChan (wChan [0x941] [⟨1, 7, 0x8000, 8192, 0⟩]))) ∧
    ((fun (q : Sqe) (s : State) => Taken 0x17 q s ∧ sd q 1 < 16 ∧ (s.tmf.chan (sd q 1)).isOpen = true ∧ (s.tmf.chan (sd q 1)).bufs = [] ∧ sd q 1 < s.tmf.chans.length) (q0 0x17 [(1, 15)]) (svChan (wChan [0x941] []))) :=
  by and_intros <;> decide +kernel

theorem hypotheses_met_SessionCommands :
    ((fun (q : Sqe) (s : State) (x : Sess) (pre : Bool) (str : Bool) (tier : Nat) (obj : Nat) (w : Nat) (mn : Nat) (mx : Nat) (ramp : Nat) (n : Nat) (tag : Nat) => Taken 0x42 q s ∧ SessionFields q 4096 ∧ s.spa.window = true ∧ s.spa.waiting = [] ∧ s.tmf.restoring = [] ∧ look (sd q 1) s.spa.ledger = some (.session pre str tier obj w mn mx ramp n tag) ∧ look (sd q 1) s.spa.sess = some x ∧ x.st ≠ .stopping ∧ bit (sd q 6) 3 = str ∧ bit (sd q 6) 4 = pre) (q0 0x42 [(1, 3), (6, 0x710), (7, 5), (8, 480000), (9, 480000)]) (svSpa [(3, wSess)] [(3, wRun .active)]) (wRun .active) true false 0 15 1 0 1000 500 9 0) ∧
    ((fun (q : Sqe) (s : State) (x : Sess) => Taken 0x41 q s ∧ sd q 1 < 4096 ∧ s.spa.window = true ∧ s.spa.waiting = [] ∧ s.tmf.restoring = [] ∧ look (sd q 1) s.spa.sess = some x) (q0 0x41 [(1, 3)]) (svSpa [(3, wSess)] [(3, wRun .active)]) (wRun .active)) ∧
    ((fun (q : Sqe) (s : State) => Taken 0x41 q s ∧ sd q 1 < 4096 ∧ s.spa.window = true ∧ s.spa.waiting = [] ∧ s.tmf.restoring = [] ∧ look (sd q 1) s.spa.sess = none) (q0 0x41 [(1, 4095)]) (svSpa [(3, wSess)] [(3, wRun .active)])) ∧
    ((fun (i : Instr) (q : Sqe) (s : State) => (s.spa.window = false ∨ (opOf q ≠ 0x40 ∧ sd q 1 / 128 ∈ s.tmf.restoring)) ∧ ((i = .sessionStart q ∧ Taken 0x40 q s ∧ SessionFields q (if bit (sd q 6) 3 then 32 else 16)) ∨ (i = .sessionStop q ∧ Taken 0x41 q s ∧ sd q 1 < 4096) ∨ (i = .sessionModify q ∧ Taken 0x42 q s ∧ SessionFields q 4096))) (.sessionStop (q0 0x41 [(1, 3)])) (q0 0x41 [(1, 3)]) ({ svSpa [] [] with tmf := { sv.tmf with restoring := [0] } })) ∧
    ((fun (i : Instr) (q : Sqe) (s : State) => (s.spa.window = false ∨ (opOf q ≠ 0x40 ∧ sd q 1 / 128 ∈ s.tmf.restoring)) ∧ ((i = .sessionStart q ∧ Taken 0x40 q s ∧ SessionFields q (if bit (sd q 6) 3 then 32 else 16)) ∨ (i = .sessionStop q ∧ Taken 0x41 q s ∧ sd q 1 < 4096) ∨ (i = .sessionModify q ∧ Taken 0x42 q s ∧ SessionFields q 4096))) (.sessionStop (q0 0x41 [(1, 3)])) (q0 0x41 [(1, 3)]) ({ svSpa [] [] with spa := { sv.spa with window := false } })) :=
  by and_intros <;> decide +kernel

theorem hypotheses_met_SessionCommands_1 :
    (fun (q : Sqe) (s : State) (i : Nat) => Taken 0x40 q s ∧ SessionFields q (if bit (sd q 6) 3 then 32 else 16) ∧ s.spa.window = true ∧ s.spa.waiting = [] ∧ s.tmf.restoring = [] ∧ (if bit (sd q 6) 3 then (s.conf.str (sd q 1)).enable else (s.conf.port (sd q 1)).enable) = true ∧ (∀ e ∈ s.spa.ledger, ∀ pre tier w mn mx ramp n tag, e.2 ≠ .session pre (bit (sd q 6) 3) tier (sd q 1) w mn mx ramp n tag) ∧ i < 4096 ∧ look i s.spa.ledger = none ∧ (∀ j, j < i → look j s.spa.ledger ≠ none)) (q0 0x40 [(1, 15), (6, 0x100), (8, 480000), (9, 480000)]) (svSpa [(0, .free)] []) 1 :=
  ⟨by decide +kernel, by decide +kernel, by decide +kernel, by decide +kernel, by decide +kernel, by decide +kernel, (fun e h => by cases h with | head => intros; exact fun h => Entry.noConfusion h | tail _ h => cases h), by and_intros <;> decide +kernel⟩

theorem hypotheses_met_SessionCommands_1b :
    (fun (q : Sqe) (s : State) (i : Nat) => Taken 0x40 q s ∧ SessionFields q (if bit (sd q 6) 3 then 32 else 16) ∧ s.spa.window = true ∧ s.spa.waiting = [] ∧ s.tmf.restoring = [] ∧ (if bit (sd q 6) 3 then (s.conf.str (sd q 1)).enable else (s.conf.port (sd q 1)).enable) = true ∧ (∀ e ∈ s.spa.ledger, ∀ pre tier w mn mx ramp n tag, e.2 ≠ .session pre (bit (sd q 6) 3) tier (sd q 1) w mn mx ramp n tag) ∧ i < 4096 ∧ look i s.spa.ledger = none ∧ (∀ j, j < i → look j s.spa.ledger ≠ none)) (q0 0x40 [(1, 31), (6, 0x108), (8, 1), (9, 1)]) (svSpa [] []) 0 :=
  ⟨by decide +kernel, by decide +kernel, by decide +kernel, by decide +kernel, by decide +kernel, by decide +kernel, (fun e h => by cases h), by and_intros <;> decide +kernel⟩

theorem hypotheses_met_LedgerCommands :
    ((fun (q : Sqe) (s : State) => Taken 0x43 q s ∧ sd q 1 < 4096 ∧ sd q 4 = 32 ∧ s.spa.window = true ∧ s.spa.waiting = [] ∧ s.tmf.restoring = []) (q0 0x43 [(1, 4095), (4, 32)]) (svSpa [] [])) ∧
    ((fun (q : Sqe) (s : State) (n : Nat) => Taken 0x44 q s ∧ sd q 4 = 32 * n ∧ 1 ≤ n ∧ sd q 1 + n ≤ 4096) (q0 0x44 [(1, 3), (4, 64)]) (svSpa [(3, wSess)] []) 2) ∧
    ((fun (q : Sqe) (s : State) => Taken 0x45 q s ∧ 1584 ≤ sd q 4) (q0 0x45 [(4, 1584)]) (svSpa [(3, wSess)] [])) ∧
    ((fun (q : Sqe) (s : State) => Taken 0x46 q s ∧ sd q 1 < 32 ∧ (s.conf.str (sd q 1)).enable = true ∧ (bits (sd q 6) 15 0 = 0 ∨ (30 ≤ bits (sd q 6) 15 0 ∧ bits (sd q 6) 15 0 ≤ 1440))) (q0 0x46 [(1, 31), (6, 1440)]) (svSpa [] [])) ∧
    ((fun (j : Nat) (m : Nat) (ends : Nat) (s : State) => s.spa.rests.getD j (0, none) = (m, some ends) ∧ ends ≤ s.sup.uptime) 31 5 7 ({ svSpa [] [] with spa := { (svSpa [] []).spa with rests := (List.replicate 32 (0, none)).set 31 (5, some 7) }, sup := { (svSpa [] []).sup with uptime := 7 } })) :=
  by and_intros <;> decide +kernel

theorem hypotheses_met_LedgerCommands_1 :
    (fun (q : Sqe) (b : List Byte) (s : State) (en : Bool) (ports : Nat) (strings : Nat) (lim : Nat) (tag : Nat) => Taken 0x43 q s ∧ sd q 1 < 4096 ∧ sd q 4 = 32 ∧ b.length = 32 ∧ decodeEntry b = some (.cons en ports strings lim tag) ∧ s.spa.window = true ∧ s.spa.waiting = [] ∧ s.tmf.restoring = [] ∧ ReadsOk q s ∧ (look (sd q 1) s.spa.ledger = none ∨ ∃ e p st l g, look (sd q 1) s.spa.ledger = some (.cons e p st l g)) ∧ consMembers s.conf (.cons en ports strings lim tag) = true ∧ countE s.spa.ledger (fun e => match e with | .cons e _ _ _ _ => e | _ => false) < 64) (q0 0x43 [(1, 4095), (4, 32)]) ((Entry.cons true 0x8000 0x80000000 77 5).bytes) (svSpa [] []) true 0x8000 0x80000000 77 5 :=
  by refine ⟨?_, ?_, ?_, ?_, ?_, ?_, ?_, ?_, ?_, (.inl (by decide +kernel)), ?_, ?_⟩ <;> decide +kernel

theorem hypotheses_met_LedgerCommands_7 :
    (fun (j : Nat) (s : State) => (∀ m ends, s.spa.rests.getD j (0, none) = (m, some ends) → s.sup.uptime < ends)) 31 ({ svSpa [] [] with spa := { (svSpa [] []).spa with rests := (List.replicate 32 (0, none)).set 31 (5, some 7) }, sup := { (svSpa [] []).sup with uptime := 6 } }) :=
  (fun m e h => by cases h; decide +kernel)

theorem hypotheses_met_CreditMessages_1 :
    (fun (s : State) (n : Nat) (st : Nat) (h : Nat) (i : Nat) (rest : List (CrossMsg × Nat)) (x : Sess) => s.lnk.inSt = (.credit n st, h) :: rest ∧ st < 3 ∧ (∃ p tier obj w mn mx ramp tag, look i s.spa.ledger = some (.session p false tier obj w mn mx ramp n tag)) ∧ (∀ j e, (j, e) ∈ s.spa.ledger → e.number = n → e.isSession = true → j = i) ∧ look i s.spa.sess = some x) ({ svSpa [(3, wSess)] [(3, wRun .withdrawn)] with lnk := { sv.lnk with inSt := [(.credit 9 1, 0)] } }) 9 1 0 3 ([]) (wRun .withdrawn) :=
  ⟨by decide +kernel, by decide +kernel, (⟨_, _, _, _, _, _, _, _, rfl⟩), (fun j e h _ _ => by cases h with | head => rfl | tail _ h => cases h), by decide +kernel⟩

theorem hypotheses_met_CreditMessages_1c :
    (fun (s : State) (n : Nat) (st : Nat) (h : Nat) (i : Nat) (rest : List (CrossMsg × Nat)) (x : Sess) => s.lnk.inSt = (.credit n st, h) :: rest ∧ st < 3 ∧ (∃ p tier obj w mn mx ramp tag, look i s.spa.ledger = some (.session p false tier obj w mn mx ramp n tag)) ∧ (∀ j e, (j, e) ∈ s.spa.ledger → e.number = n → e.isSession = true → j = i) ∧ look i s.spa.sess = some x) ({ svSpa [(3, wSess)] [(3, wRun .waitCredit)] with lnk := { sv.lnk with inSt := [(.credit 9 2, 0)] } }) 9 2 0 3 ([]) (wRun .waitCredit) :=
  ⟨by decide +kernel, by decide +kernel, (⟨_, _, _, _, _, _, _, _, rfl⟩), (fun j e h _ _ => by cases h with | head => rfl | tail _ h => cases h), by decide +kernel⟩

theorem hypotheses_met_CreditMessages_1b :
    (fun (s : State) (n : Nat) (st : Nat) (h : Nat) (i : Nat) (rest : List (CrossMsg × Nat)) (x : Sess) => s.lnk.inSt = (.credit n st, h) :: rest ∧ st < 3 ∧ (∃ p tier obj w mn mx ramp tag, look i s.spa.ledger = some (.session p false tier obj w mn mx ramp n tag)) ∧ (∀ j e, (j, e) ∈ s.spa.ledger → e.number = n → e.isSession = true → j = i) ∧ look i s.spa.sess = some x) ({ svSpa [(3, wSess)] [(3, wRun .active)] with lnk := { sv.lnk with inSt := [(.credit 9 2, 0)] } }) 9 2 0 3 ([]) (wRun .active) :=
  ⟨by decide +kernel, by decide +kernel, (⟨_, _, _, _, _, _, _, _, rfl⟩), (fun j e h _ _ => by cases h with | head => rfl | tail _ h => cases h), by decide +kernel⟩

theorem hypotheses_met_ImportNeverExceedsGridLimit :
    (fun (x : Snap) => ((x.ledger.filterMap (fun p => match p.2, look p.1 x.sess with | .session _ _ _ _ _ _ _ _ n _, some _ => some n | _, _ => none)).Nodup) ∧ (∀ j, x.inp.discharge.getD j 0 ≤ 2 ^ 26)) wSnap :=
  ⟨by decide +kernel, (fun j => of_decide_eq_true (getD_all _ _ (fun x => decide (x ≤ 2 ^ 26)) (by decide +kernel) j))⟩

theorem hypotheses_met_EpochCycle :
    ((fun (s : State) (sq : Nat) (cid : Nat) (left : Nat) (k : Nat) (old : Entry) => s.siteUp = true ∧ s.sup.image = none ∧ s.kce.staged = none ∧ s.spa.unposted = [⟨sq, cid, left, k, old⟩]) ({ svSpa [(3, wSess)] [(3, wRun .active)] with hqe := { sv.hqe with ready := [⟨.pf0, 1, 5, 0, 3, false, none⟩] }, spa := { (svSpa [(3, wSess)] [(3, wRun .active)]).spa with unposted := [⟨1, 5, 1, 3, .free⟩] } }) 1 5 1 3 .free) ∧
    ((fun (s : State) => s.siteUp = true ∧ s.sup.image = none ∧ s.kce.staged = none ∧ s.spa.unposted = []) (svSpa [(3, wSess)] [(3, wRun .active)])) ∧
    ((fun (s : State) (x : Snap) => s.spa.snap = some x) ({ svSpa [(3, wSess)] [] with spa := { sv.spa with snap := some wSnap } }) wSnap) ∧
    ((fun (s : State) (x : Snap) (p : Plan) => s.spa.snap = some x ∧ s.spa.ready = some p ∧ s.spa.waiting = []) ({ sv with spa := { sv.spa with snap := some wSnap, ready := some { Plan.reset with refs := List.replicate 64 (7, 9) } } }) wSnap ({ Plan.reset with refs := List.replicate 64 (7, 9) })) ∧
    ((fun (s : State) => s.spa.snap = none) sv) :=
  by and_intros <;> decide +kernel

theorem hypotheses_met_LatePlan :
    ((fun (bad : List Nat) (s : State) (x : Snap) => s.spa.snap = some x ∧ s.spa.ready = none ∧ s.spa.waiting = [] ∧ (s.sup.st ≠ .service ∧ s.sup.st ≠ .bisque ∨ bad = []) ∧ s.sup.holdupReady = true ∧ s.sup.journal.length < 1024) ([]) ({ sv with spa := { sv.spa with snap := some wSnap } }) wSnap) ∧
    ((fun (bad : List Nat) (s : State) (x : Snap) => s.spa.snap = some x ∧ s.spa.ready = none ∧ s.spa.waiting = [] ∧ (s.sup.st ≠ .service ∧ s.sup.st ≠ .bisque ∨ bad = []) ∧ s.sup.holdupReady = true ∧ s.sup.journal.length < 1024) ([]) ({ sv with spa := { sv.spa with snap := some wSnap, lateRun := 1 } }) wSnap) :=
  by and_intros <;> decide +kernel

theorem hypotheses_met_LedgerEntryRoundTrip :
    ((fun (k : Nat) (n : Nat) (lim : Nat) (cur : Nat) (aux : Nat) (tag : Nat) => k ≤ 4 ∧ n < 2 ^ 16 ∧ lim < 2 ^ 32 ∧ cur < 2 ^ 32 ∧ aux < 2 ^ 32 ∧ tag < 2 ^ 32) 4 65535 0xFFFFFFFF 0xFFFFFFFF 1 0xFFFFFFFF) ∧
    ((fun (k : Nat) (a : Nat) (b : Nat) (f : Nat) (r : Nat) (tag : Nat) => k ≤ 3 ∧ a < 2 ^ 16 ∧ b < 2 ^ 16 ∧ f < 2 ^ 32 ∧ r < 2 ^ 32 ∧ tag < 2 ^ 32) 3 65535 1 0xFFFFFFFF 2 3) ∧
    ((fun (p : Nat) (st : Nat) (lim : Nat) (tag : Nat) => p < 2 ^ 16 ∧ st < 2 ^ 32 ∧ lim < 2 ^ 32 ∧ tag < 2 ^ 32) 65535 0xFFFFFFFF 1 2) ∧
    ((fun (tier : Nat) (obj : Nat) (w : Nat) (mn : Nat) (mx : Nat) (ramp : Nat) (n : Nat) (tag : Nat) => tier < 8 ∧ obj < 2 ^ 16 ∧ w < 2 ^ 8 ∧ mn < 2 ^ 32 ∧ mx < 2 ^ 32 ∧ ramp < 2 ^ 32 ∧ n < 2 ^ 32 ∧ tag < 2 ^ 32) 7 65535 255 1 2 3 0xFFFFFFFF 4) :=
  by and_intros <;> decide +kernel

theorem hypotheses_met_KilnCommands :
    ((fun (q : Sqe) (s : State) => Taken 0x30 q s ∧ sd q 1 < 64 ∧ 96 ≤ sd q 4) (q0 0x30 [(1, 63), (4, 96)]) (svGrp (wFire .ready) (wPg .running))) ∧
    ((fun (q : Sqe) (s : State) (n : Nat) => Taken 0x32 q s ∧ RangeOf q n 64 16) (q0 0x32 [(1, 62), (4, 32), (6, 2)]) (svGrp (wFire .ready) (wPg .running)) 2) ∧
    ((fun (q : Sqe) (s : State) => Taken 0x33 q s ∧ sd q 1 < 64 ∧ bit (sd q 6) 16 = true ∧ bits (sd q 7) 15 0 ≠ 0 ∧ (s.tmf.chan (bits (sd q 6) 3 0)).isOpen = true) (q0 0x33 [(1, 63), (6, 0x1010F), (7, 1)]) (svChan (wChan [] []))) ∧
    ((fun (q : Sqe) (s : State) => Taken 0x33 q s ∧ sd q 1 < 64 ∧ bit (sd q 6) 16 = true ∧ bits (sd q 7) 15 0 ≠ 0 ∧ (s.tmf.chan (bits (sd q 6) 3 0)).isOpen = false) (q0 0x33 [(1, 63), (6, 0x1000E), (7, 65535)]) (svChan (wChan [] []))) ∧
    ((fun (q : Sqe) (s : State) => Taken 0x33 q s ∧ sd q 1 < 64 ∧ bit (sd q 6) 16 = false) (q0 0x33 [(1, 63)]) (svGrp { wFire .ready with capture := some ⟨1, true, 4⟩ } (wPg .running))) :=
  by and_intros <;> decide +kernel

theorem hypotheses_met_Firings :
    ((fun (g : Nat) (first : Bool) (again : Option Bool) (m : GroupMap) (k0 : CoeffSet) (s : State) => s.conf.group g = some m ∧ s.conf.set g 0 = some k0 ∧ g < s.kce.groups.length ∧ (s.lane g).st = .firing ∧ (s.lane g).phase = .ready ∧ (first = true ∨ again = some true)) 63 false (some true) wGroup wSet (svGrp (wFire .ready) (wPg .running))) ∧
    ((fun (g : Nat) (first : Bool) (again : Option Bool) (m : GroupMap) (k0 : CoeffSet) (s : State) => s.conf.group g = some m ∧ s.conf.set g 0 = some k0 ∧ g < s.kce.groups.length ∧ (s.lane g).st = .firing ∧ (s.lane g).phase = .ready ∧ (first = true ∨ again = some true)) 63 true none wGroup wSet (svGrp { wFire .ready with start := true, bankRef := 50, oldRef := 30, oldLim := 40 } (wPg .running))) ∧
    ((fun (g : Nat) (m : GroupMap) (k0 : CoeffSet) (s : State) => s.conf.group g = some m ∧ s.conf.set g 0 = some k0 ∧ (s.lane g).st = .firing ∧ (s.lane g).phase = .ready) 63 wGroup wSet (svGrp (wFire .ready) (wPg .running))) ∧
    ((fun (g : Nat) (m : GroupMap) (k0 : CoeffSet) (s : State) => s.conf.group g = some m ∧ s.conf.set g 0 = some k0 ∧ (s.lane g).st = .firing ∧ (s.lane g).phase = .ready) 63 wGroup wSet (svGrp (wFire .ready) (wPg .running))) ∧
    ((fun (g : Nat) (s : State) => ((s.lane g).st ≠ .firing ∨ (s.lane g).phase ≠ .ready)) 63 (svGrp (wFire .idle) (wPg .running))) :=
  by and_intros <;> decide +kernel

theorem hypotheses_met_FiringMisses :
    ((fun (g : Nat) (m : GroupMap) (s : State) (cause : Nat) => s.conf.group g = some m ∧ g < s.kce.groups.length ∧ (s.lane g).st = .firing ∧ ((s.lane g).phase = .ready ∧ cause = 1 ∨ (s.lane g).phase = .failed cause) ∧ (s.pg g).st = .running ∧ (s.lane g).causes.length < 2) 63 wGroup (svGrp (wFire .ready) (wPg .running)) 1) ∧
    ((fun (g : Nat) (m : GroupMap) (s : State) (cause : Nat) => s.conf.group g = some m ∧ g < s.kce.groups.length ∧ (s.lane g).st = .firing ∧ ((s.lane g).phase = .ready ∧ cause = 1 ∨ (s.lane g).phase = .failed cause) ∧ (s.pg g).st = .running ∧ (s.lane g).causes.length < 2) 63 wGroup (svGrp { wFire (.failed 3) with causes := [2] } (wPg .running)) 3) ∧
    ((fun (g : Nat) (m : GroupMap) (s : State) (cause : Nat) (c0 : Nat) (c1 : Nat) => s.conf.group g = some m ∧ g < s.kce.groups.length ∧ g < s.psc.groups.length ∧ (s.lane g).st = .firing ∧ (s.lane g).phase = .failed cause ∧ (s.pg g).st = .running ∧ (s.lane g).causes = [c0, c1] ∧ s.sup.holdupReady = true ∧ s.sup.journal.length < 900 ∧ (s.lane g).capture = none) 63 wGroup (svGrp { wFire (.failed 3) with causes := [2, 1] } (wPg .running)) 3 2 1) ∧
    ((fun (g : Nat) (s : State) => (s.lane g).st ≠ .firing) 63 (svGrp KGroup.reset (wPg .running))) :=
  by and_intros <;> decide +kernel

theorem hypotheses_met_CollectorSlots :
    ((fun (s : State) (l : Nat) (c : Cmd) (rest : List (Nat × Cmd)) => s.kce.queue ++ s.kce.fresh = (l, c) :: rest) ({ svGrp (wFire .ready) (wPg .running) with kce := { sv.kce with queue := [(62, Cmd.safeCmd)], fresh := [(63, Cmd.safeCmd)] } }) 62 Cmd.safeCmd ([(63, Cmd.safeCmd)])) ∧
    ((fun (s : State) (l : Nat) (c : Cmd) (rest : List (Nat × Cmd)) => s.kce.queue ++ s.kce.fresh = (l, c) :: rest) ({ sv with kce := { sv.kce with fresh := [(63, Cmd.safeCmd)] }, pla := { sv.pla with links := sv.pla.links.set 63 { Link.reset with st := .up } } }) 63 Cmd.safeCmd ([])) ∧
    ((fun (s : State) => s.kce.queue = [] ∧ s.kce.fresh = []) sv) :=
  by and_intros <;> decide +kernel

theorem hypotheses_met_FiringStaysInItsLimits :
    (∀ (b : Nat) (k : CoeffSet), (fun _ => some wSet : Nat → Option CoeffSet) b = some k →
      0 ≤ k.slew ∧ ∀ j, iat k.umin j ≤ iat k.umax j) ∧ 0 ≤ wSet.slew ∧ (∀ j, iat wSet.umin j ≤ iat wSet.umax j) ∧ 100 < 2 ^ 31 :=
  ⟨fun _ _ h => Option.some.inj h ▸ ⟨by decide, wSet_range⟩, by decide, wSet_range, by decide⟩

theorem hypotheses_met_GroupCommands :
    ((fun (q : Sqe) (s : State) (m : GroupMap) => Taken 0x24 q s ∧ sd q 1 < 64 ∧ 64 ≤ sd q 4 ∧ s.conf.group (sd q 1) = some m) (q0 0x24 [(1, 63), (4, 64)]) (svGrp (wFire .ready) (wPg .running)) wGroup) ∧
    ((fun (q : Sqe) (s : State) (n : Nat) => Taken 0x26 q s ∧ RangeOf q n 64 16) (q0 0x26 [(1, 62), (4, 32), (6, 2)]) (svGrp (wFire .ready) (wPg .running)) 2) ∧
    ((fun (q : Sqe) (s : State) (m : GroupMap) => Taken 0x25 q s ∧ sd q 1 < 64 ∧ bits (sd q 6) 9 0 ≠ 0 ∧ bits (sd q 6) 31 10 = 0 ∧ s.conf.group (sd q 1) = some m ∧ bits (sd q 6) 7 0 < 2 ^ m.nPh ∧ (s.pg (sd q 1)).latch = true) (q0 0x25 [(1, 63), (6, 0x100)]) (svGrp (wFire .ready) { wPg .locked with latch := true }) wGroup) ∧
    ((fun (q : Sqe) (s : State) => Taken 0x25 q s ∧ sd q 1 < 64 ∧ bits (sd q 6) 9 0 ≠ 0 ∧ bits (sd q 6) 31 10 = 0 ∧ s.conf.group (sd q 1) = none) (q0 0x25 [(1, 62), (6, 0x100)]) (svGrp (wFire .ready) (wPg .running))) ∧
    ((fun (q : Sqe) (s : State) (m : GroupMap) => Taken 0x25 q s ∧ sd q 1 < 64 ∧ sd q 6 = 0x100 ∧ s.conf.group (sd q 1) = some m ∧ sd q 1 < s.psc.groups.length ∧ sd q 1 < s.kce.groups.length ∧ m.nPh ≤ 8 ∧ (s.pg (sd q 1)).latch = false ∧ (s.pg (sd q 1)).mode = .held ∧ (s.pg (sd q 1)).gate = false ∧ (s.sup.st = .service ∨ s.sup.st = .bisque) ∧ (∃ h, h < m.nPh ∧ (s.pg (sd q 1)).avail h = true)) (q0 0x25 [(1, 63), (6, 0x100)]) (svGrp { KGroup.reset with st := .hold } (wPg .held)) wGroup) ∧
    ((fun (q : Sqe) (s : State) (m : GroupMap) (h : Nat) => Taken 0x25 q s ∧ sd q 1 < 64 ∧ sd q 6 = 2 ^ h ∧ h < m.nPh ∧ m.nPh ≤ 8 ∧ s.conf.group (sd q 1) = some m ∧ sd q 1 < s.psc.groups.length ∧ (s.pg (sd q 1)).latch = false ∧ (s.pg (sd q 1)).avail h = false ∧ 4 ≤ (s.link (m.links.getD h 0xFF)).good ∧ (s.link (m.links.getD h 0xFF)).st = .up ∧ (s.pg (sd q 1)).st = (s.pg (sd q 1)).mode ∧ (s.pg (sd q 1)).mode ≠ .running) (q0 0x25 [(1, 63), (6, 2)]) ({ svGrp (wFire .idle) { wPg .held with lost := [0, 1, 0, 0, 0, 0, 0, 0] } with pla := { sv.pla with links := sv.pla.links.set 63 { Link.reset with st := .up, good := 4 } } }) wGroup 1) ∧
    ((fun (q : Sqe) (s : State) (m : GroupMap) (h : Nat) => Taken 0x25 q s ∧ sd q 1 < 64 ∧ sd q 6 = 2 ^ h ∧ h < m.nPh ∧ m.nPh ≤ 8 ∧ s.conf.group (sd q 1) = some m ∧ ((s.pg (sd q 1)).avail h = true ∨ (s.link (m.links.getD h 0xFF)).st ≠ .up ∨ (s.link (m.links.getD h 0xFF)).good < 4)) (q0 0x25 [(1, 63), (6, 2)]) (svGrp (wFire .idle) { wPg .held with lost := [0, 1, 0, 0, 0, 0, 0, 0] }) wGroup 1) ∧
    ((fun (q : Sqe) (s : State) (m : GroupMap) (h : Nat) => Taken 0x25 q s ∧ sd q 1 < 64 ∧ sd q 6 = 2 ^ h ∧ h < m.nPh ∧ m.nPh ≤ 8 ∧ s.conf.group (sd q 1) = some m ∧ ((s.pg (sd q 1)).avail h = true ∨ (s.link (m.links.getD h 0xFF)).st ≠ .up ∨ (s.link (m.links.getD h 0xFF)).good < 4)) (q0 0x25 [(1, 63), (6, 2)]) ({ svGrp (wFire .idle) { wPg .held with lost := [0, 1, 0, 0, 0, 0, 0, 0] } with pla := { sv.pla with links := sv.pla.links.set 63 { Link.reset with st := .up, good := 3 } } }) wGroup 1) ∧
    ((fun (q : Sqe) (s : State) (m : GroupMap) (h : Nat) => Taken 0x25 q s ∧ sd q 1 < 64 ∧ sd q 6 = 2 ^ h ∧ h < m.nPh ∧ m.nPh ≤ 8 ∧ s.conf.group (sd q 1) = some m ∧ ((s.pg (sd q 1)).avail h = true ∨ (s.link (m.links.getD h 0xFF)).st ≠ .up ∨ (s.link (m.links.getD h 0xFF)).good < 4)) (q0 0x25 [(1, 63), (6, 2)]) ({ svGrp (wFire .idle) { wPg .held with lost := [0, 1, 0, 0, 0, 0, 0, 0] } with pla := { sv.pla with links := sv.pla.links.set 63 { Link.reset with st := .down, good := 4 } } }) wGroup 1) :=
  by and_intros <;> decide +kernel

theorem hypotheses_met_CapacityAndShedding :
    ((fun (g : Nat) (m : GroupMap) (s : State) => s.conf.group g = some m ∧ g < s.psc.groups.length ∧ g < s.spa.inp.cap.length) 63 wGroup (svGrp (wFire .idle) (wPg .running))) ∧
    ((fun (g : Nat) (m : GroupMap) (s : State) => s.conf.group g = some m ∧ g < s.psc.groups.length ∧ (s.pg g).st = .running) 63 wGroup (svGrp (wFire .idle) (wPg .running))) ∧
    ((fun (g : Nat) (s : State) => (s.pg g).st ≠ .running) 63 (svGrp (wFire .idle) (wPg .gated))) :=
  by and_intros <;> decide +kernel

theorem hypotheses_met_RetriesAndLatches :
    ((fun (g : Nat) (m : GroupMap) (s : State) => s.conf.group g = some m ∧ g < s.psc.groups.length ∧ (s.pg g).mode = .tripped ∧ (s.pg g).latch = false ∧ (s.pg g).gate = false ∧ (s.sup.st = .service ∨ s.sup.st = .bisque) ∧ (s.pg g).retries < m.retryMax) 63 wGroup (svGrp (wFire .idle) { wPg .tripped with retries := 2 })) ∧
    ((fun (g : Nat) (m : GroupMap) (s : State) => s.conf.group g = some m ∧ g < s.psc.groups.length ∧ (s.pg g).mode = .tripped ∧ (s.pg g).latch = false ∧ m.retryMax ≤ (s.pg g).retries) 63 wGroup (svGrp (wFire .idle) { wPg .tripped with retries := 3 })) ∧
    ((fun (g : Nat) (s : State) => ((s.pg g).latch = true ∨ (s.pg g).mode ≠ .tripped)) 63 (svGrp (wFire .idle) { wPg .tripped with latch := true })) ∧
    ((fun (g : Nat) (s : State) => ((s.pg g).latch = true ∨ (s.pg g).mode ≠ .tripped)) 63 (svGrp (wFire .idle) (wPg .running))) ∧
    ((fun (g : Nat) (s : State) => g < s.psc.groups.length ∧ (s.pg g).st = .running ∧ (s.pg g).latch = false) 63 (svGrp (wFire .idle) { wPg .running with retries := 2 })) ∧
    ((fun (g : Nat) (s : State) => (s.pg g).latch = true) 63 (svGrp (wFire .idle) { wPg .running with latch := true })) ∧
    ((fun (g : Nat) (s : State) => g < 64 ∧ g < s.psc.groups.length ∧ s.tcmReport g = true ∧ (s.pg g).latch = false) 63 (svLatch { wPg .running with latch := false })) ∧
    ((fun (g : Nat) (m : GroupMap) (s : State) => g < 64 ∧ g < s.psc.groups.length ∧ s.conf.group g = some m ∧ s.tcmReport g = false ∧ (s.pg g).latch = true ∧ (s.pg g).mode = .tripped) 63 wGroup (svGrp (wFire .idle) { wPg .tripped with latch := true, frozen := some 500 })) :=
  by and_intros <;> decide +kernel

theorem hypotheses_met_LinkCommands :
    ((fun (q : Sqe) (s : State) (n : Nat) => Taken 0x20 q s ∧ RangeOf q n 64 48) (q0 0x20 [(1, 62), (4, 96), (6, 2)]) (svLink (wLink .up)) 2) ∧
    ((fun (q : Sqe) (s : State) => Taken 0x21 q s ∧ sd q 1 < 64 ∧ sd q 1 < s.pla.links.length ∧ ((s.link (sd q 1)).st = .off ∨ (s.link (sd q 1)).st = .down ∨ (s.link (sd q 1)).st = .failed)) (q0 0x21 [(1, 63)]) (svLink (wLink .failed))) ∧
    ((fun (q : Sqe) (s : State) => Taken 0x21 q s ∧ sd q 1 < 64 ∧ (s.link (sd q 1)).st = .train) (q0 0x21 [(1, 63)]) (svLink (wLink .train))) ∧
    ((fun (q : Sqe) (s : State) (g : Nat) (h : Nat) => Taken 0x21 q s ∧ sd q 1 < 64 ∧ (s.link (sd q 1)).st = .up ∧ s.conf.memberOf (sd q 1) = some (g, h) ∧ (s.pg g).avail h = true) (q0 0x21 [(1, 63)]) ({ svLink (wLink .up) with psc := { sv.psc with groups := sv.psc.groups.set 63 (wPg .running) } }) 63 1) ∧
    ((fun (q : Sqe) (s : State) => Taken 0x23 q s ∧ sd q 1 < 64 ∧ (s.link (sd q 1)).st = .off) (q0 0x23 [(1, 63)]) (svLink (wLink .off))) ∧
    ((fun (q : Sqe) (s : State) => Taken 0x23 q s ∧ sd q 1 < 64 ∧ sd q 1 < s.pla.links.length ∧ (s.link (sd q 1)).st ≠ .off ∧ (s.link (sd q 1)).retrain = none) (q0 0x23 [(1, 63)]) (svLink (wLink .up))) ∧
    ((fun (q : Sqe) (s : State) => Taken 0x22 q s ∧ sd q 1 < 64 ∧ sd q 1 < s.pla.links.length ∧ bit (sd q 6) 0 = false ∧ bits (sd q 6) 7 1 = 0 ∧ 1 ≤ bits (sd q 6) 15 8 ∧ bits (sd q 6) 15 8 ≤ 32 ∧ bits (sd q 6) 31 16 + bits (sd q 6) 15 8 ≤ 0x10000 ∧ sd q 4 = 32 ∧ (s.link (sd q 1)).st = .up ∧ (s.link (sd q 1)).mgmt = none) (q0 0x22 [(1, 63), (2, 0x9000), (4, 32), (6, 0x2000 + 2 ^ 16 * 0xFFE0)]) (svLink (wLink .up))) ∧
    ((fun (q : Sqe) (s : State) => Taken 0x22 q s ∧ sd q 1 < 64 ∧ bit (sd q 6) 0 = true ∧ sd q 2 = 0 ∧ sd q 3 = 0 ∧ sd q 4 = 0 ∧ bits (sd q 6) 7 1 = 0 ∧ 1 ≤ bits (sd q 6) 15 8 ∧ bits (sd q 6) 15 8 ≤ 32 ∧ 0x100 ≤ bits (sd q 6) 31 16 ∧ bits (sd q 6) 31 16 + bits (sd q 6) 15 8 ≤ 0x10000 ∧ (s.link (sd q 1)).st ≠ .up) (q0 0x22 [(1, 63), (6, 0x2001 + 2 ^ 16 * 0x100)]) (svLink (wLink .train))) ∧
    ((fun (q : Sqe) (s : State) => Taken 0x22 q s ∧ sd q 1 < 64 ∧ bit (sd q 6) 0 = true ∧ sd q 2 = 0 ∧ sd q 3 = 0 ∧ sd q 4 = 0 ∧ bits (sd q 6) 7 1 = 0 ∧ 1 ≤ bits (sd q 6) 15 8 ∧ bits (sd q 6) 15 8 ≤ 32 ∧ 0x100 ≤ bits (sd q 6) 31 16 ∧ bits (sd q 6) 31 16 + bits (sd q 6) 15 8 ≤ 0x10000 ∧ (s.link (sd q 1)).st = .up ∧ (s.link (sd q 1)).mgmt.isSome) (q0 0x22 [(1, 63), (6, 0x101 + 2 ^ 16 * 0xFFFF)]) (svLink { wLink .up with mgmt := some wMgmt })) :=
  by and_intros <;> decide +kernel

theorem hypotheses_met_LinkTraining :
    ((fun (l : Nat) (s : State) => l < s.pla.links.length ∧ (s.link l).st = .train ∧ (s.link l).step = .none ∧ (s.link l).waiting = false) 63 (svLink (wTrain .none))) ∧
    ((fun (l : Nat) (s : State) => l < s.pla.links.length ∧ (s.link l).st = .train ∧ (s.link l).waiting = true) 63 (svLink { wTrain .none with waiting := true })) ∧
    ((fun (l : Nat) (s : State) => l < s.pla.links.length ∧ (s.link l).st = .train ∧ (s.link l).step = .lock) 63 (svLink (wTrain .lock))) ∧
    ((fun (l : Nat) (f : LineFrame) (b : Byte) (s : State) => l < s.pla.links.length ∧ (s.link l).st = .train ∧ (s.link l).step = .echo ∧ (s.link l).echoes.length < 7 ∧ rxFrame 0x7C f.rd f.groups = some ([b], false)) 63 (lineF 0x7C [3]) 3 (svLink { wTrain .echo with echoes := [(0, 77), (1, 78), (2, 77)] })) ∧
    ((fun (l : Nat) (e : Nat) (f : LineFrame) (s : State) => l < s.pla.links.length ∧ (s.link l).st = .train ∧ (s.link l).step = .echo ∧ e < 2 ^ 16 ∧ (s.link l).echoes = (List.range 7).map (fun i => (BitVec.ofNat 8 i, e)) ∧ (s.link l).mgmt = none ∧ rxFrame 0x7C f.rd f.groups = some ([7], false)) 63 65535 (lineF 0x7C [7]) (svLink { wTrain .echo with echoes := (List.range 7).map (fun i => (BitVec.ofNat 8 i, 65535)) })) ∧
    ((fun (l : Nat) (f : LineFrame) (s : State) => ((s.link l).st ≠ .train ∨ (s.link l).step ≠ .echo ∨ ∀ b, rxFrame 0x7C f.rd f.groups ≠ some ([b], false)) ∧ lineErrors f.rd f.groups = []) 63 (lineF 0x7C [7]) (svLink (wTrain .ident))) ∧
    ((fun (l : Nat) (f : LineFrame) (s : State) => ((s.link l).st ≠ .train ∨ (s.link l).step ≠ .echo ∨ ∀ b, rxFrame 0x7C f.rd f.groups ≠ some ([b], false)) ∧ lineErrors f.rd f.groups = []) 63 (lineF 0x7C [7]) (svLink (wLink .up))) ∧
    ((fun (l : Nat) (tag : Nat) (f : LineFrame) (d : List Byte) (s : State) => l < s.pla.links.length ∧ (s.link l).st = .train ∧ (s.link l).step = .ident ∧ (s.link l).identTag = some tag ∧ tag < 256 ∧ d.length = 32 ∧ u d 0 1 = 1 ∧ bit (u d 1 1) (s.rateNeeded l) = true ∧ 80 ≤ u d 16 2 ∧ u d 16 2 ≤ 960 ∧ rxFrame 0xF7 f.rd f.groups = some (withCrc16 ([0x80] ++ le 1 tag ++ [0, 0, 32] ++ d), false)) 63 9 (lineF 0xF7 (withCrc16 ([0x80] ++ le 1 9 ++ [0, 0, 32] ++ wIdent))) wIdent (svLink { wTrain .ident with identTag := some 9, echo := 250 })) ∧
    ((fun (l : Nat) (tag : Nat) (f : LineFrame) (d : List Byte) (s : State) => l < s.pla.links.length ∧ (s.link l).st = .train ∧ (s.link l).step = .ident ∧ (s.link l).identTag = some tag ∧ tag < 256 ∧ d.length = 32 ∧ u d 0 1 = 1 ∧ bit (u d 1 1) (s.rateNeeded l) = true ∧ 80 ≤ u d 16 2 ∧ u d 16 2 ≤ 960 ∧ rxFrame 0xF7 f.rd f.groups = some (withCrc16 ([0x80] ++ le 1 tag ++ [0, 0, 32] ++ d), false)) 63 9 (lineF 0xF7 (withCrc16 ([0x80] ++ le 1 9 ++ [0, 0, 32] ++ wIdent))) wIdent ({ svLink { wTrain .ident with identTag := some 9, echo := 250 } with pla := { (svLink { wTrain .ident with identTag := some 9, echo := 250 }).pla with pos := (svLink (wTrain .ident)).pla.pos.set 63 (some 5) } })) ∧
    ((fun (l : Nat) (tag : Nat) (s : State) => l < s.pla.links.length ∧ (s.link l).st = .train ∧ (s.link l).step = .ident ∧ (s.link l).identTag = some tag ∧ (s.link l).resent = false ∧ (s.link l).mgmt = none) 63 9 (svLink { wTrain .ident with identTag := some 9 })) ∧
    ((fun (l : Nat) (s : State) => l < s.pla.links.length ∧ (s.link l).st = .train ∧ (s.link l).step ≠ .none ∧ (s.link l).attempts < 3 ∧ s.conf.memberOf l = none) 0 ({ svLink (wTrain .none) with pla := { sv.pla with links := sv.pla.links.set 0 { wTrain .lock with attempts := 2 } } })) ∧
    ((fun (l : Nat) (s : State) => l < s.pla.links.length ∧ (s.link l).st = .train ∧ (s.link l).step ≠ .none ∧ 3 ≤ (s.link l).attempts) 63 (svLink { wTrain .sync with attempts := 3 })) :=
  by and_intros <;> decide +kernel

theorem hypotheses_met_SampleFrames :
    ((fun (l : Nat) (rd : Bool) (sof : Nat) (groups : List Nat) (d : List Byte) (err : Bool) (s : State) => l < s.pla.links.length ∧ (s.link l).sched = true ∧ rxFrame 0xFB rd (sof :: groups) = some (d, err) ∧ judge d err (s.link l).pos = .ok) 63 ((lineF 0xFB (goodFrame 0)).rd) ((lineF 0xFB (goodFrame 0)).groups.headD 0) ((lineF 0xFB (goodFrame 0)).groups.tail) (goodFrame 0) false (svLink (wLink .up))) ∧
    ((fun (l : Nat) (rd : Bool) (sof : Nat) (groups : List Nat) (d : List Byte) (err : Bool) (s : State) => l < s.pla.links.length ∧ (s.link l).sched = true ∧ rxFrame 0xFB rd (sof :: groups) = some (d, err) ∧ judge d err (s.link l).pos ≠ .ok) 63 ((lineF 0xFB ((goodFrame 0).set 3 1)).rd) ((lineF 0xFB ((goodFrame 0).set 3 1)).groups.headD 0) ((lineF 0xFB ((goodFrame 0).set 3 1)).groups.tail) ((goodFrame 0).set 3 1) false (svLink (wLink .up))) ∧
    ((fun (l : Nat) (rd : Bool) (sof : Nat) (groups : List Nat) (d : List Byte) (err : Bool) (s : State) => l < s.pla.links.length ∧ (s.link l).sched = true ∧ rxFrame 0xFB rd (sof :: groups) = some (d, err) ∧ judge d err (s.link l).pos ≠ .ok) 63 ((lineF 0xFB (goodFrame 0)).rd) ((lineF 0xFB (goodFrame 0)).groups.headD 0) ((lineF 0xFB (goodFrame 0)).groups.tail) (goodFrame 0) false (svLink { wLink .up with pos := 1 })) ∧
    ((fun (l : Nat) (rd : Bool) (sof : Nat) (groups : List Nat) (d : List Byte) (err : Bool) (s : State) => l < s.pla.links.length ∧ (s.link l).sched = true ∧ (s.link l).st = .up ∧ rxFrame 0xFB rd (sof :: groups) = some (d, err) ∧ judge d err (s.link l).pos = .ok ∧ bits (u d 10 1) 5 3 ≠ 0) 63 ((lineF 0xFB (goodFrame 8)).rd) ((lineF 0xFB (goodFrame 8)).groups.headD 0) ((lineF 0xFB (goodFrame 8)).groups.tail) (goodFrame 8) false (svLink (wLink .up))) ∧
    ((fun (l : Nat) (rd : Bool) (sof : Nat) (groups : List Nat) (d : List Byte) (err : Bool) (s : State) => l < s.pla.links.length ∧ (s.link l).sched = true ∧ (s.link l).st = .train ∧ (s.link l).run = 15 ∧ rxFrame 0xFB rd (sof :: groups) = some (d, err) ∧ judge d err (s.link l).pos = .ok ∧ bits (u d 10 1) 5 1 = 0) 63 ((lineF 0xFB (goodFrame 0)).rd) ((lineF 0xFB (goodFrame 0)).groups.headD 0) ((lineF 0xFB (goodFrame 0)).groups.tail) (goodFrame 0) false (svLink { wLink .train with run := 15, step := .sync })) ∧
    ((fun (l : Nat) (rd : Bool) (sof : Nat) (groups : List Nat) (s : State) => (s.link l).sched = false ∧ lineErrors rd (sof :: groups) = []) 63 ((lineF 0xFB (goodFrame 0)).rd) ((lineF 0xFB (goodFrame 0)).groups.headD 0) ((lineF 0xFB (goodFrame 0)).groups.tail) (svLink Link.reset)) ∧
    ((fun (l : Nat) (rd : Bool) (sof : Nat) (groups : List Nat) (s : State) => l < s.pla.links.length ∧ (s.link l).sched = true ∧ (s.link l).st = .up ∧ groups.length < 63 ∧ 4 ≤ (lineErrors rd (sof :: groups)).length) 63 ((lineF 0xFB (goodFrame 0)).rd) ((lineF 0xFB (goodFrame 0)).groups.headD 0) (List.replicate 15 0) (svLink (wLink .up))) :=
  by and_intros <;> decide +kernel

theorem hypotheses_met_SampleFrames_3 :
    (fun (i : Instr) (l : Nat) (rd : Bool) (sof : Nat) (groups : List Nat) (s : State) => l < s.pla.links.length ∧ (s.link l).sched = true ∧ (i = .frameMissing l ∨ (i = .sampleFrame l rd sof groups ∧ rxFrame 0xFB rd (sof :: groups) = none))) (.frameMissing 63) 63 false 0 ([]) (svLink (wLink .up)) :=
  ⟨by decide +kernel, by decide +kernel, (.inl rfl)⟩

theorem hypotheses_met_SampleFrames_3b :
    (fun (i : Instr) (l : Nat) (rd : Bool) (sof : Nat) (groups : List Nat) (s : State) => l < s.pla.links.length ∧ (s.link l).sched = true ∧ (i = .frameMissing l ∨ (i = .sampleFrame l rd sof groups ∧ rxFrame 0xFB rd (sof :: groups) = none))) (.sampleFrame 63 false 0 []) 63 false 0 ([]) (svLink { wLink .up with bad := 7 }) :=
  ⟨by decide +kernel, by decide +kernel, (.inr ⟨rfl, by decide +kernel⟩)⟩

theorem hypotheses_met_LineCode :
    ((fun (sof : Byte) => sof ∈ [(0xFB : Byte), 0xF7, 0x7C]) 0xFB) ∧
    ((fun (sof : Byte) => sof ∈ [(0xFB : Byte), 0xF7, 0x7C]) 0x7C) ∧
    ((fun (rd : Bool) (sof : Byte) (chars : List Byte) (g : Nat) => sof ∈ [(0xFB : Byte), 0xF7, 0x3C, 0x7C] ∧ g ∈ (encodeLine rd (lineSyms sof chars)).1) true 0x3C ([0, 1]) ((encodeLine true (lineSyms 0x3C [0, 1])).1.getD 2 0)) :=
  by and_intros <;> decide +kernel

theorem hypotheses_met_LinkLine :
    ((fun (l : Nat) (s : State) => (s.link l).slot = none) 63 (svLink (wLink .up))) ∧
    ((fun (l : Nat) (x : Mgmt) (s : State) => l < s.pla.links.length ∧ (s.link l).mgmt = some x ∧ x.sent = false ∧ (s.link l).st = .up ∧ (s.link l).owes = false) 63 ({ wMgmt with sent := false }) (svLink { wLink .up with mgmt := some { wMgmt with sent := false } })) ∧
    ((fun (l : Nat) (s : State) => (s.link l).owes = true) 63 (svLink { wLink .up with mgmt := some { wMgmt with sent := false }, owes := true })) ∧
    ((fun (l : Nat) (n : Nat) (x : Mgmt) (f : LineFrame) (data : List Byte) (s : State) => l < s.pla.links.length ∧ (s.link l).mgmt = some x ∧ x.sent = true ∧ x.write = false ∧ (s.link l).st = .up ∧ n ≤ 32 ∧ data.length = n ∧ x.tag < 256 ∧ rxFrame 0xF7 f.rd f.groups = some (withCrc16 ([0x80] ++ le 1 x.tag ++ le 2 x.addr ++ le 1 n ++ data), false) ∧ OwnedAs .pf0 x.sq x.cid s) 63 4 wMgmt (lineF 0xF7 (withCrc16 ([0x80] ++ le 1 200 ++ le 2 0x100 ++ le 1 4 ++ [1, 2, 3, 4]))) ([1, 2, 3, 4]) (svLink { wLink .up with mgmt := some wMgmt })) ∧
    ((fun (l : Nat) (x : Mgmt) (f : LineFrame) (s : State) => l < s.pla.links.length ∧ (s.link l).mgmt = some x ∧ x.sent = true ∧ x.write = true ∧ (s.link l).st = .up ∧ x.tag < 256 ∧ rxFrame 0xF7 f.rd f.groups = some (withCrc16 ([0x90] ++ le 1 x.tag ++ le 2 x.addr ++ [0]), false) ∧ OwnedAs .pf0 x.sq x.cid s) 63 ({ wMgmt with write := true }) (lineF 0xF7 (withCrc16 ([0x90] ++ le 1 200 ++ le 2 0x100 ++ [0]))) (svLink { wLink .up with mgmt := some { wMgmt with write := true } })) ∧
    ((fun (l : Nat) (x : Mgmt) (code : Byte) (f : LineFrame) (s : State) => l < s.pla.links.length ∧ (s.link l).mgmt = some x ∧ x.sent = true ∧ (s.link l).st = .up ∧ x.tag < 256 ∧ rxFrame 0xF7 f.rd f.groups = some (withCrc16 ([0xF0] ++ le 1 x.tag ++ le 2 x.addr ++ [1, code]), false) ∧ OwnedAs .pf0 x.sq x.cid s) 63 wMgmt 3 (lineF 0xF7 (withCrc16 ([0xF0] ++ le 1 200 ++ le 2 0x100 ++ [1, 3]))) (svLink { wLink .up with mgmt := some wMgmt })) ∧
    ((fun (l : Nat) (x : Mgmt) (s : State) => l < s.pla.links.length ∧ (s.link l).mgmt = some x ∧ (s.link l).st = .up ∧ OwnedAs .pf0 x.sq x.cid s) 63 wMgmt (svLink { wLink .up with mgmt := some wMgmt })) ∧
    ((fun (i : Instr) (l : Nat) (s : State) => l < s.pla.links.length ∧ (s.link l).st = .up ∧ (i = .lossOfSignal l ∨ i = .commaOffAlignment l)) (.commaOffAlignment 63) 63 (svLink (wLink .up))) ∧
    ((fun (i : Instr) (l : Nat) (s : State) => l < s.pla.links.length ∧ (s.link l).st = .up ∧ (i = .lossOfSignal l ∨ i = .commaOffAlignment l)) (.commaOffAlignment 63) 63 (svLink { wLink .up with owes := true })) ∧
    ((fun (i : Instr) (l : Nat) (s : State) => l < s.pla.links.length ∧ (s.link l).st = .up ∧ (i = .lossOfSignal l ∨ i = .commaOffAlignment l)) (.lossOfSignal 63) 63 (svLink (wLink .up))) ∧
    ((fun (group : Nat) (rd : Bool) (c : LineSym) => received rd group = .inl c) 0b0011111010 false (⟨true, 0xBC⟩)) ∧
    ((fun (l : Nat) (c : Cmd) (s : State) => l < s.pla.links.length ∧ (s.link l).slot = some c ∧ (s.link l).st ≠ .off ∧ (s.link l).st ≠ .failed) 63 (⟨100, 50, true, 0, true, false⟩) (svLink { wLink .up with slot := some ⟨100, 50, true, 0, true, false⟩, owes := true })) ∧
    ((fun (l : Nat) (group : Nat) (gap : Nat) (rd : Bool) (e : CodeErr) (s : State) => l < s.pla.links.length ∧ (s.link l).st = .up ∧ received rd group = .inr e ∧ ((s.link l).errs = [] ∨ 64 ≤ gap)) 63 0 64 false .noCode (svLink { wLink .up with errs := [7, 6, 5] })) ∧
    ((fun (l : Nat) (group : Nat) (gap : Nat) (x : Nat) (rest : List Nat) (rd : Bool) (e : CodeErr) (s : State) => l < s.pla.links.length ∧ (s.link l).st = .up ∧ received rd group = .inr e ∧ (s.link l).errs = x :: rest ∧ gap < 64 ∧ (((x :: rest).filter (fun y => y ≤ x + gap ∧ x + gap < y + 64)).length < 3)) 63 0b0011111010 61 70 ([68, 2]) true .disparity (svLink { wLink .up with errs := [70, 68, 2] })) ∧
    ((fun (l : Nat) (group : Nat) (gap : Nat) (x : Nat) (rest : List Nat) (rd : Bool) (e : CodeErr) (s : State) => l < s.pla.links.length ∧ (s.link l).st = .up ∧ received rd group = .inr e ∧ (s.link l).errs = x :: rest ∧ gap < 64 ∧ (3 ≤ ((x :: rest).filter (fun y => y ≤ x + gap ∧ x + gap < y + 64)).length)) 63 0b0011111010 60 70 ([68, 67]) true .disparity (svLink { wLink .up with errs := [70, 68, 67] })) ∧
    ((fun (i : Instr) (l : Nat) (s : State) => (s.link l).st ≠ .up ∧ (i = .lossOfSignal l ∨ i = .commaOffAlignment l)) (.commaOffAlignment 63) 63 (svLink (wLink .down))) :=
  by and_intros <;> decide +kernel

theorem hypotheses_met_PilotCommands :
    ((fun (q : Sqe) (s : State) (n : Nat) => Taken 0x50 q s ∧ bits (sd q 6) 4 0 = n ∧ 1 ≤ n ∧ sd q 1 < 16 ∧ sd q 1 + n ≤ 16 ∧ 32 * n ≤ sd q 4) (q0 0x50 [(1, 14), (4, 64), (6, 2)]) (svPort wPrt) 2) ∧
    ((fun (q : Sqe) (s : State) => Taken 0x51 q s ∧ sd q 1 < 16 ∧ sd q 1 < s.vpc.ports.length ∧ bits (sd q 6) 1 0 ≠ 3 ∧ (¬(bits (sd q 6) 1 0 = 2 ∧ bit (sd q 6) 2 = true)) ∧ bits (sd q 6) 15 3 = 0 ∧ bits (sd q 6) 31 26 = 0 ∧ (if bits (sd q 6) 1 0 = 1 then 30 ≤ bits (sd q 6) 25 16 ∧ bits (sd q 6) 25 16 ≤ 970 else bits (sd q 6) 25 16 = 0) ∧ (s.conf.port (sd q 1)).enable = true ∧ (s.prt (sd q 1)).st ≠ .fault ∧ (s.prt (sd q 1)).latch = false ∧ (s.prt (sd q 1)).admission = false) (q0 0x51 [(1, 15), (6, 1 + 4 + 2 ^ 16 * 970)]) (svPort wPrt)) ∧
    ((fun (q : Sqe) (s : State) => Taken 0x51 q s ∧ sd q 1 < 16 ∧ sd q 1 < s.vpc.ports.length ∧ bits (sd q 6) 1 0 ≠ 3 ∧ (¬(bits (sd q 6) 1 0 = 2 ∧ bit (sd q 6) 2 = true)) ∧ bits (sd q 6) 15 3 = 0 ∧ bits (sd q 6) 31 26 = 0 ∧ (if bits (sd q 6) 1 0 = 1 then 30 ≤ bits (sd q 6) 25 16 ∧ bits (sd q 6) 25 16 ≤ 970 else bits (sd q 6) 25 16 = 0) ∧ (s.conf.port (sd q 1)).enable = true ∧ (s.prt (sd q 1)).st ≠ .fault ∧ (s.prt (sd q 1)).latch = false ∧ (s.prt (sd q 1)).admission = false) (q0 0x51 [(1, 15), (6, 1 + 2 ^ 16 * 30)]) (svPort { wPrt with pilot := none })) ∧
    ((fun (q : Sqe) (s : State) => Taken 0x51 q s ∧ sd q 1 < 16 ∧ bits (sd q 6) 1 0 = 1 ∧ bits (sd q 6) 15 3 = 0 ∧ bits (sd q 6) 31 26 = 0 ∧ 30 ≤ bits (sd q 6) 25 16 ∧ bits (sd q 6) 25 16 ≤ 970 ∧ (s.conf.port (sd q 1)).enable = true ∧ (s.prt (sd q 1)).st = .fault) (q0 0x51 [(1, 15), (6, 1 + 2 ^ 16 * 970)]) (svPort { wPrt with st := .fault, latch := true })) :=
  by and_intros <;> decide +kernel

theorem hypotheses_met_PilotCommands_3 :
    (fun (q : Sqe) (s : State) => Taken 0x51 q s ∧ sd q 1 < 16 ∧ sd q 1 < s.vpc.ports.length ∧ bits (sd q 6) 1 0 ≠ 3 ∧ (¬(bits (sd q 6) 1 0 = 2 ∧ bit (sd q 6) 2 = true)) ∧ bits (sd q 6) 15 3 = 0 ∧ bits (sd q 6) 31 26 = 0 ∧ (if bits (sd q 6) 1 0 = 1 then 30 ≤ bits (sd q 6) 25 16 ∧ bits (sd q 6) 25 16 ≤ 970 else bits (sd q 6) 25 16 = 0) ∧ (s.conf.port (sd q 1)).enable = true ∧ (s.prt (sd q 1)).st ≠ .fault ∧ (s.prt (sd q 1)).latch = false ∧ (s.prt (sd q 1)).condition = none ∧ (s.prt (sd q 1)).admission = false ∧ NoInputNext (sd q 1) s) (q0 0x51 [(1, 15), (6, 1 + 4 + 2 ^ 16 * 970)]) (svPort wPrt) :=
  by refine ⟨?_, ?_, ?_, ?_, ?_, ?_, ?_, ?_, ?_, ?_, ?_, ?_, ?_, (fun _ _ h => nomatch h)⟩ <;> decide +kernel

theorem hypotheses_met_PilotCommands_4 :
    (fun (q : Sqe) (s : State) => Taken 0x51 q s ∧ sd q 1 < 16 ∧ sd q 1 < s.vpc.ports.length ∧ sd q 6 = 0 ∧ (s.conf.port (sd q 1)).enable = true ∧ (s.prt (sd q 1)).st = .fault ∧ (s.prt (sd q 1)).condition = none ∧ (s.prt (sd q 1)).admission = false ∧ s.cfg.isSome ∧ s.serves = true ∧ (s.prt (sd q 1)).pilot = some 0 ∧ (s.prt (sd q 1)).prox.isSome ∧ NoInputNext (sd q 1) s) (q0 0x51 [(1, 15)]) (svPort { wPrt with st := .fault, latch := true, pilot := some 0 }) :=
  by refine ⟨?_, ?_, ?_, ?_, ?_, ?_, ?_, ?_, ?_, ?_, ?_, ?_, (fun _ _ h => nomatch h)⟩ <;> decide +kernel

theorem hypotheses_met_PilotCommands_3b :
    (fun (q : Sqe) (s : State) => Taken 0x51 q s ∧ sd q 1 < 16 ∧ sd q 1 < s.vpc.ports.length ∧ bits (sd q 6) 1 0 ≠ 3 ∧ (¬(bits (sd q 6) 1 0 = 2 ∧ bit (sd q 6) 2 = true)) ∧ bits (sd q 6) 15 3 = 0 ∧ bits (sd q 6) 31 26 = 0 ∧ (if bits (sd q 6) 1 0 = 1 then 30 ≤ bits (sd q 6) 25 16 ∧ bits (sd q 6) 25 16 ≤ 970 else bits (sd q 6) 25 16 = 0) ∧ (s.conf.port (sd q 1)).enable = true ∧ (s.prt (sd q 1)).st ≠ .fault ∧ (s.prt (sd q 1)).latch = false ∧ (s.prt (sd q 1)).condition = none ∧ (s.prt (sd q 1)).admission = false ∧ NoInputNext (sd q 1) s) (q0 0x51 [(1, 15), (6, 2)]) (svPort wPrt) :=
  by refine ⟨?_, ?_, ?_, ?_, ?_, ?_, ?_, ?_, ?_, ?_, ?_, ?_, ?_, (fun _ _ h => nomatch h)⟩ <;> decide +kernel

theorem hypotheses_met_PortStates :
    ((fun (n : Nat) (s : State) => 2 ≤ (s.prt n).pinMode) 15 (svPort { wPrt with pinMode := 2 })) ∧
    ((fun (n : Nat) (s : State) => n < s.vpc.ports.length ∧ (s.prt n).pinMode ≠ 3 ∧ ((s.prt n).pinMode ≠ (s.prt n).mode ∨ (s.prt n).pinDuty ≠ (s.prt n).duty)) 15 (svPort { wPrt with mode := 1, duty := 970 })) :=
  by and_intros <;> decide +kernel

theorem hypotheses_met_PortStates_1 :
    (fun (n : Nat) (l : List (List Int)) (x : List Int) (s : State) => n < s.vpc.ports.length ∧ n < s.spa.inp.ready.length ∧ s.cfg.isSome ∧ s.serves = true ∧ (s.conf.port n).enable = true ∧ Plateau (s.prt n) l x ∧ (s.prt n).latch = false ∧ (s.prt n).admission = false ∧ (s.prt n).diode = false ∧ (s.prt n).prox = some 2 ∧ (s.prt n).mode ≤ 1 ∧ (s.prt n).st ≠ .fault ∧ NoInputNext n s) 15 ([[1], List.replicate 5 4500]) (List.replicate 5 4500) (svPort wPrt) :=
  by refine ⟨?_, ?_, ?_, ?_, ?_, (.inl (by decide +kernel)), ?_, ?_, ?_, ?_, ?_, ?_, (fun _ _ h => nomatch h)⟩ <;> decide +kernel

theorem hypotheses_met_PortStates_1b :
    (fun (n : Nat) (l : List (List Int)) (x : List Int) (s : State) => n < s.vpc.ports.length ∧ n < s.spa.inp.ready.length ∧ s.cfg.isSome ∧ s.serves = true ∧ (s.conf.port n).enable = true ∧ Plateau (s.prt n) l x ∧ (s.prt n).latch = false ∧ (s.prt n).admission = false ∧ (s.prt n).diode = false ∧ (s.prt n).prox = some 2 ∧ (s.prt n).mode ≤ 1 ∧ (s.prt n).st ≠ .fault ∧ NoInputNext n s) 15 ([List.replicate 98 7500, List.replicate 98 10500, List.replicate 98 13499]) (List.replicate 98 10500 ++ List.replicate 98 13499) (svPort { wPrt with st := .energy, mode := 1, pinMode := 1, pinDuty := 500, energy := true }) :=
  by refine ⟨?_, ?_, ?_, ?_, ?_, (.inr ⟨rfl, [List.replicate 98 7500], List.replicate 98 10500, List.replicate 98 13499, rfl, rfl, by decide +kernel, by decide +kernel⟩), ?_, ?_, ?_, ?_, ?_, ?_, (fun _ _ h => nomatch h)⟩ <;> decide +kernel

theorem hypotheses_met_PortStates_1c :
    (fun (n : Nat) (l : List (List Int)) (x : List Int) (s : State) => n < s.vpc.ports.length ∧ n < s.spa.inp.ready.length ∧ s.cfg.isSome ∧ s.serves = true ∧ (s.conf.port n).enable = true ∧ Plateau (s.prt n) l x ∧ (s.prt n).latch = false ∧ (s.prt n).admission = false ∧ (s.prt n).diode = false ∧ (s.prt n).prox = some 2 ∧ (s.prt n).mode ≤ 1 ∧ (s.prt n).st ≠ .fault ∧ NoInputNext n s) 15 ([[1], List.replicate 5 7499]) (List.replicate 5 7499) (svPort wPrt) :=
  by refine ⟨?_, ?_, ?_, ?_, ?_, (.inl (by decide +kernel)), ?_, ?_, ?_, ?_, ?_, ?_, (fun _ _ h => nomatch h)⟩ <;> decide +kernel

theorem hypotheses_met_PortStates_1d :
    (fun (n : Nat) (l : List (List Int)) (x : List Int) (s : State) => n < s.vpc.ports.length ∧ n < s.spa.inp.ready.length ∧ s.cfg.isSome ∧ s.serves = true ∧ (s.conf.port n).enable = true ∧ Plateau (s.prt n) l x ∧ (s.prt n).latch = false ∧ (s.prt n).admission = false ∧ (s.prt n).diode = false ∧ (s.prt n).prox = some 2 ∧ (s.prt n).mode ≤ 1 ∧ (s.prt n).st ≠ .fault ∧ NoInputNext n s) 15 ([[1], List.replicate 5 1500]) (List.replicate 5 1500) (svPort wPrt) :=
  by refine ⟨?_, ?_, ?_, ?_, ?_, (.inl (by decide +kernel)), ?_, ?_, ?_, ?_, ?_, ?_, (fun _ _ h => nomatch h)⟩ <;> decide +kernel

theorem hypotheses_met_PortStates_1e :
    (fun (n : Nat) (l : List (List Int)) (x : List Int) (s : State) => n < s.vpc.ports.length ∧ n < s.spa.inp.ready.length ∧ s.cfg.isSome ∧ s.serves = true ∧ (s.conf.port n).enable = true ∧ Plateau (s.prt n) l x ∧ (s.prt n).latch = false ∧ (s.prt n).admission = false ∧ (s.prt n).diode = false ∧ (s.prt n).prox = some 2 ∧ (s.prt n).mode ≤ 1 ∧ (s.prt n).st ≠ .fault ∧ NoInputNext n s) 15 ([[1], List.replicate 5 1499]) (List.replicate 5 1499) (svPort wPrt) :=
  by refine ⟨?_, ?_, ?_, ?_, ?_, (.inl (by decide +kernel)), ?_, ?_, ?_, ?_, ?_, ?_, (fun _ _ h => nomatch h)⟩ <;> decide +kernel

theorem hypotheses_met_PortStates_2 :
    (fun (n : Nat) (l : List (List Int)) (s : State) => n < s.vpc.ports.length ∧ (s.conf.port n).enable = true ∧ (s.prt n).pinMode = 0 ∧ l.flatten.length < 5 ∧ NoInputNext n s) 15 ([[1], List.replicate 3 4500]) (svPort wPrt) :=
  ⟨by decide +kernel, by decide +kernel, by decide +kernel, by decide +kernel, (fun _ _ h => nomatch h)⟩

theorem hypotheses_met_PortStates_4 :
    (fun (n : Nat) (l : List Nat) (x : List Nat) (s : State) => n < s.vpc.ports.length ∧ x.length = 5 ∧ x <:+ l ∧ n < s.spa.inp.ready.length ∧ s.cfg.isSome ∧ s.serves = true ∧ (s.conf.port n).enable = true ∧ (s.prt n).latch = false ∧ (s.prt n).admission = false ∧ (s.prt n).diode = false ∧ (s.prt n).pilot = some 2 ∧ (s.prt n).mode ≤ 1 ∧ (s.prt n).st ≠ .fault ∧ (s.conf.port n).ppLo < (s.conf.port n).ppMid ∧ (s.conf.port n).ppMid < (s.conf.port n).ppHi ∧ NoInputNext n s) 15 (1 :: List.replicate 5 2000) (List.replicate 5 2000) (svPort { wPrt with energy := true, mode := 1 }) :=
  by refine ⟨?_, ?_, ?_, ?_, ?_, ?_, ?_, ?_, ?_, ?_, ?_, ?_, ?_, ?_, ?_, (fun _ _ h => nomatch h)⟩ <;> decide +kernel

theorem hypotheses_met_PortStates_4b :
    (fun (n : Nat) (l : List Nat) (x : List Nat) (s : State) => n < s.vpc.ports.length ∧ x.length = 5 ∧ x <:+ l ∧ n < s.spa.inp.ready.length ∧ s.cfg.isSome ∧ s.serves = true ∧ (s.conf.port n).enable = true ∧ (s.prt n).latch = false ∧ (s.prt n).admission = false ∧ (s.prt n).diode = false ∧ (s.prt n).pilot = some 2 ∧ (s.prt n).mode ≤ 1 ∧ (s.prt n).st ≠ .fault ∧ (s.conf.port n).ppLo < (s.conf.port n).ppMid ∧ (s.conf.port n).ppMid < (s.conf.port n).ppHi ∧ NoInputNext n s) 15 (1 :: List.replicate 5 3000) (List.replicate 5 3000) (svPort wPrt) :=
  by refine ⟨?_, ?_, ?_, ?_, ?_, ?_, ?_, ?_, ?_, ?_, ?_, ?_, ?_, ?_, ?_, (fun _ _ h => nomatch h)⟩ <;> decide +kernel

theorem hypotheses_met_PortStates_4c :
    (fun (n : Nat) (l : List Nat) (x : List Nat) (s : State) => n < s.vpc.ports.length ∧ x.length = 5 ∧ x <:+ l ∧ n < s.spa.inp.ready.length ∧ s.cfg.isSome ∧ s.serves = true ∧ (s.conf.port n).enable = true ∧ (s.prt n).latch = false ∧ (s.prt n).admission = false ∧ (s.prt n).diode = false ∧ (s.prt n).pilot = some 2 ∧ (s.prt n).mode ≤ 1 ∧ (s.prt n).st ≠ .fault ∧ (s.conf.port n).ppLo < (s.conf.port n).ppMid ∧ (s.conf.port n).ppMid < (s.conf.port n).ppHi ∧ NoInputNext n s) 15 (1 :: List.replicate 5 999) (List.replicate 5 999) (svPort wPrt) :=
  by refine ⟨?_, ?_, ?_, ?_, ?_, ?_, ?_, ?_, ?_, ?_, ?_, ?_, ?_, ?_, ?_, (fun _ _ h => nomatch h)⟩ <;> decide +kernel

theorem hypotheses_met_PortStates_4d :
    (fun (n : Nat) (l : List Nat) (x : List Nat) (s : State) => n < s.vpc.ports.length ∧ x.length = 5 ∧ x <:+ l ∧ n < s.spa.inp.ready.length ∧ s.cfg.isSome ∧ s.serves = true ∧ (s.conf.port n).enable = true ∧ (s.prt n).latch = false ∧ (s.prt n).admission = false ∧ (s.prt n).diode = false ∧ (s.prt n).pilot = some 2 ∧ (s.prt n).mode ≤ 1 ∧ (s.prt n).st ≠ .fault ∧ (s.conf.port n).ppLo < (s.conf.port n).ppMid ∧ (s.conf.port n).ppMid < (s.conf.port n).ppHi ∧ NoInputNext n s) 15 (1 :: List.replicate 5 1000) (List.replicate 5 1000) (svPort wPrt) :=
  by refine ⟨?_, ?_, ?_, ?_, ?_, ?_, ?_, ?_, ?_, ?_, ?_, ?_, ?_, ?_, ?_, (fun _ _ h => nomatch h)⟩ <;> decide +kernel

theorem hypotheses_met_PortStates_5 :
    (fun (n : Nat) (l : List (List Int)) (s : State) => n < s.vpc.ports.length ∧ s.cfg.isSome ∧ s.serves = true ∧ (s.conf.port n).enable = true ∧ LowPlateaus (s.prt n) l ∧ (∀ y ∈ l.drop (l.length - 2), ∀ v ∈ y, -10500 < v) ∧ (s.prt n).pilot ≠ some 4 ∧ (s.prt n).pilot ≠ some 6 ∧ (s.prt n).lowSampled = true ∧ (s.prt n).latch = false ∧ (s.prt n).admission = false ∧ (s.prt n).prox = some 2 ∧ (s.prt n).st ≠ .fault ∧ NoInputNext n s) 15 ([[1], List.replicate 98 (-10499), List.replicate 98 (-5000)]) (svPort { wPrt with pinMode := 1, mode := 1, pinDuty := 500, duty := 500 }) :=
  by refine ⟨?_, ?_, ?_, ?_, (⟨[[1]], List.replicate 98 (-10499), List.replicate 98 (-5000), rfl, by decide +kernel, by decide +kernel⟩), ?_, ?_, ?_, ?_, ?_, ?_, ?_, ?_, (fun _ _ h => nomatch h)⟩ <;> decide +kernel

theorem hypotheses_met_PortStates_6 :
    (fun (n : Nat) (l : List (List Int)) (s : State) => n < s.vpc.ports.length ∧ s.cfg.isSome ∧ s.serves = true ∧ (s.conf.port n).enable = true ∧ LowPlateaus (s.prt n) l ∧ (∀ y ∈ l.drop (l.length - 2), ∃ v ∈ y, v ≤ -10500) ∧ (s.prt n).lowSampled = true ∧ (s.prt n).latch = true ∧ (s.prt n).admission = false ∧ (s.prt n).prox = some 2 ∧ NoInputNext n s) 15 ([List.replicate 98 (-10500), -12000 :: List.replicate 97 0]) (svPort { wPrt with st := .fault, pinMode := 1, mode := 1, pinDuty := 500, latch := true, diode := true }) :=
  by refine ⟨?_, ?_, ?_, ?_, (⟨[], List.replicate 98 (-10500), -12000 :: List.replicate 97 0, rfl, by decide +kernel, by decide +kernel⟩), ?_, ?_, ?_, ?_, ?_, (fun _ _ h => nomatch h)⟩ <;> decide +kernel

theorem hypotheses_met_PortStates_1f :
    (fun (n : Nat) (l : List (List Int)) (x : List Int) (s : State) => n < s.vpc.ports.length ∧ n < s.spa.inp.ready.length ∧ s.cfg.isSome ∧ s.serves = true ∧ (s.conf.port n).enable = true ∧ Plateau (s.prt n) l x ∧ (s.prt n).latch = false ∧ (s.prt n).admission = false ∧ (s.prt n).diode = false ∧ (s.prt n).prox = some 2 ∧ (s.prt n).mode ≤ 1 ∧ (s.prt n).st ≠ .fault ∧ NoInputNext n s) 15 ([[7], List.replicate 58 10500, List.replicate 98 13499]) (List.replicate 58 10500 ++ List.replicate 98 13499) (svPort { wPrt with st := .energy, mode := 1, pinMode := 1, pinDuty := 500, prevDuty := 300, energy := true }) :=
  by refine ⟨?_, ?_, ?_, ?_, ?_, (.inr ⟨rfl, [[7]], List.replicate 58 10500, List.replicate 98 13499, rfl, rfl, by decide +kernel, by decide +kernel⟩), ?_, ?_, ?_, ?_, ?_, ?_, (fun _ _ h => nomatch h)⟩ <;> decide +kernel

theorem hypotheses_met_VehicleFrames :
    ((fun (q : Sqe) (s : State) (k : Nat) => Taken 0x52 q s ∧ sd q 1 < 16 ∧ sd q 1 < s.vpc.ports.length ∧ sd q 4 = (bits (sd q 6) 10 0 + 3) / 4 * 4 ∧ 14 ≤ bits (sd q 6) 10 0 ∧ bits (sd q 6) 10 0 ≤ 1518 ∧ (s.conf.port (sd q 1)).enable = true ∧ s.freeSlot (sd q 1) 8 ((s.prt (sd q 1)).tx.map (fun t => t.slot)) = some k ∧ ReadsOk q s) (q0 0x52 [(1, 15), (2, 0x1000), (4, 1520), (6, 1518)]) (svEth wPrt) 8) ∧
    ((fun (q : Sqe) (s : State) (k : Nat) => Taken 0x52 q s ∧ sd q 1 < 16 ∧ sd q 1 < s.vpc.ports.length ∧ sd q 4 = (bits (sd q 6) 10 0 + 3) / 4 * 4 ∧ 14 ≤ bits (sd q 6) 10 0 ∧ bits (sd q 6) 10 0 ≤ 1518 ∧ (s.conf.port (sd q 1)).enable = true ∧ s.freeSlot (sd q 1) 8 ((s.prt (sd q 1)).tx.map (fun t => t.slot)) = some k ∧ ReadsOk q s) (q0 0x52 [(1, 15), (2, 0x1000), (4, 16), (6, 14)]) (svEth wPrt) 8) ∧
    ((fun (q : Sqe) (s : State) => Taken 0x53 q s ∧ sd q 1 < 16 ∧ sd q 1 < s.vpc.ports.length ∧ 1536 ≤ sd q 4 ∧ (s.conf.port (sd q 1)).enable = true ∧ (s.prt (sd q 1)).bufs.length < 8) (q0 0x53 [(1, 15), (2, 0x1000), (4, 1536)]) (svEth wPrt)) ∧
    ((fun (q : Sqe) (s : State) => Taken 0x53 q s ∧ sd q 1 < 16 ∧ sd q 1 < s.vpc.ports.length ∧ 1536 ≤ sd q 4 ∧ (s.conf.port (sd q 1)).enable = true ∧ 8 ≤ (s.prt (sd q 1)).bufs.length) (q0 0x53 [(1, 15), (2, 0x1000), (4, 1536)]) (svEth { wPrt with bufs := List.replicate 8 ⟨1, 2, 3⟩ })) ∧
    ((fun (n : Nat) (k : Nat) (d : List Byte) (s : State) => n < s.vpc.ports.length ∧ (s.conf.port n).enable = true ∧ (s.conf.port n).ccs = false ∧ 14 ≤ d.length ∧ d.length ≤ 1518 ∧ s.freeSlot n 0 ((s.prt n).rx.map (fun t => t.slot)) = some k) 15 1 (List.replicate 14 9) (svEth { wPrt with rx := [⟨0, [1]⟩] })) ∧
    ((fun (n : Nat) (d : List Byte) (s : State) => n < s.vpc.ports.length ∧ (s.conf.port n).enable = true ∧ (s.conf.port n).ccs = false ∧ 14 ≤ d.length ∧ d.length ≤ 1518 ∧ s.freeSlot n 0 ((s.prt n).rx.map (fun t => t.slot)) = none) 15 (List.replicate 1518 9) (svEth { wPrt with rx := (List.range 8).map (fun i => ⟨i, [1]⟩) })) ∧
    ((fun (n : Nat) (d : List Byte) (fcs : List Byte) (s : State) => n < s.vpc.ports.length ∧ (s.conf.port n).enable = true ∧ (s.conf.port n).ccs = false ∧ fcs.length = 4 ∧ (d.length < 14 ∨ 1518 < d.length ∨ crc32 d ≠ leVal fcs)) 15 (List.replicate 13 9) ([1, 2, 3, 4]) (svEth wPrt)) ∧
    ((fun (n : Nat) (d : List Byte) (fcs : List Byte) (s : State) => n < s.vpc.ports.length ∧ (s.conf.port n).enable = true ∧ (s.conf.port n).ccs = false ∧ fcs.length = 4 ∧ (d.length < 14 ∨ 1518 < d.length ∨ crc32 d ≠ leVal fcs)) 15 (List.replicate 64 9) ([1, 2, 3, 4]) (svEth wPrt)) ∧
    ((fun (n : Nat) (s : State) (f : FrameTile) (rx : List FrameTile) (b : RxBuf) (bufs : List RxBuf) => n < s.vpc.ports.length ∧ (s.prt n).rx = f :: rx ∧ (s.prt n).bufs = b :: bufs ∧ OwnedAs .pf0 b.sq b.cid s) 15 (svEth { wPrt with rx := [⟨0, [1, 2, 3, 4]⟩], bufs := [⟨1, 7, 0x4000⟩] }) (⟨0, [1, 2, 3, 4]⟩) ([]) (⟨1, 7, 0x4000⟩) ([])) ∧
    ((fun (n : Nat) (s : State) (f : FrameTile) (rx : List FrameTile) (b : RxBuf) (bufs : List RxBuf) => n < s.vpc.ports.length ∧ (s.prt n).rx = f :: rx ∧ (s.prt n).bufs = b :: bufs ∧ OwnedAs .pf0 b.sq b.cid s) 15 (svEth { wPrt with rx := [⟨0, [1, 2, 3, 4]⟩], bufs := [⟨1, 7, 0x4000⟩] }) (⟨0, [1, 2, 3, 4]⟩) ([]) (⟨1, 7, 0x4000⟩) ([])) ∧
    ((fun (n : Nat) (s : State) (x : TxReq) (rest : List TxReq) (f : List Byte) => n < s.vpc.ports.length ∧ (s.prt n).tx = x :: rest ∧ x.bytes.drop 16 = f ∧ (s.conf.port n).ccs = false ∧ OwnedAs .pf0 x.sq x.cid s) 15 (svEth { wPrt with tx := [⟨1, 7, 8, zeros 16 ++ [1, 2, 3]⟩] }) (⟨1, 7, 8, zeros 16 ++ [1, 2, 3]⟩) ([]) ([1, 2, 3])) ∧
    ((fun (n : Nat) (s : State) (x : TxReq) (rest : List TxReq) (f : List Byte) => n < s.vpc.ports.length ∧ (s.prt n).tx = x :: rest ∧ x.bytes.drop 16 = f ∧ (s.conf.port n).ccs = false ∧ OwnedAs .pf0 x.sq x.cid s) 15 (svEth { wPrt with tx := [⟨1, 7, 8, zeros 16 ++ [1, 2, 3]⟩] }) (⟨1, 7, 8, zeros 16 ++ [1, 2, 3]⟩) ([]) ([1, 2, 3])) ∧
    ((fun (n : Nat) (s : State) (x : TxReq) (rest : List TxReq) (f : List Byte) => n < s.vpc.ports.length ∧ (s.prt n).tx = x :: rest ∧ x.bytes.drop 16 = f ∧ (s.conf.port n).ccs = false ∧ OwnedAs .pf0 x.sq x.cid s) 15 (svEth { wPrt with tx := [⟨1, 7, 8, zeros 16 ++ [1, 2, 3]⟩] }) (⟨1, 7, 8, zeros 16 ++ [1, 2, 3]⟩) ([]) ([1, 2, 3])) ∧
    ((fun (n : Nat) (s : State) (x : TxReq) (rest : List TxReq) (f : List Byte) (b : List Byte) => n < s.vpc.ports.length ∧ (s.prt n).tx = x :: rest ∧ x.bytes.drop 16 = f ∧ b = [1, 0] ++ le 2 (max 60 f.length) ++ padTo (max 60 f.length) f ∧ (s.conf.port n).ccs = true ∧ OwnedAs .pf0 x.sq x.cid s) 15 (svPort { wPrt with tx := [⟨1, 7, 8, zeros 16 ++ [1, 2, 3]⟩] }) (⟨1, 7, 8, zeros 16 ++ [1, 2, 3]⟩) ([]) ([1, 2, 3]) ([1, 0, 60, 0, 1, 2, 3] ++ zeros 57)) ∧
    ((fun (n : Nat) (k : Nat) (d : List Byte) (s : State) => n < s.vpc.ports.length ∧ s.modemRuns n = true ∧ 14 ≤ d.length ∧ d.length ≤ 1518 ∧ s.freeSlot n 0 ((s.prt n).rx.map (fun t => t.slot)) = some k) 15 0 (List.replicate 14 5) (svPort wPrt)) :=
  by and_intros <;> decide +kernel

theorem hypotheses_met_ModemStatus :
    ((fun (n : Nat) (a : List Byte) (s : State) => n < s.vpc.ports.length ∧ s.modemRuns n = true ∧ a.length = 8 ∧ crc32c (a.take 4) = u a 4 4 ∧ (∃ x ∈ a, x ≠ 0xFF)) 15 ([1, 0, 0, 0] ++ le 4 (crc32c [1, 0, 0, 0])) (svPort { wPrt with badStatus := 2 })) ∧
    ((fun (n : Nat) (a : List Byte) (s : State) => n < s.vpc.ports.length ∧ s.modemRuns n = true ∧ a.length = 8 ∧ (∀ x ∈ a, x = 0xFF) ∧ (s.prt n).badStatus = 2 ∧ s.sup.holdupReady = true ∧ s.sup.journal.length < 1024) 15 (List.replicate 8 0xFF) (svPort { wPrt with badStatus := 2, modemUp := true })) ∧
    ((fun (n : Nat) (s : State) => n < s.vpc.ports.length ∧ (s.prt n).resetting = true) 15 (svPort { wPrt with resetting := true })) :=
  by and_intros <;> decide +kernel

theorem hypotheses_met_ThermalCommands :
    ((fun (q : Sqe) (s : State) (n : Nat) => Taken 0x60 q s ∧ bits (sd q 6) 1 0 = 1 ∧ bits (sd q 6) 15 8 = n ∧ 1 ≤ n ∧ sd q 1 < 64 ∧ sd q 1 + n ≤ 64 ∧ 16 * n ≤ sd q 4) (q0 0x60 [(1, 62), (2, 0x1000), (4, 32), (6, 0x201)]) (svCone wCold Aqaux.reset) 2) ∧
    ((fun (q : Sqe) (s : State) (n : Nat) => Taken 0x60 q s ∧ bits (sd q 6) 1 0 = 0 ∧ bits (sd q 6) 15 8 = n ∧ 1 ≤ n ∧ sd q 1 < 152 ∧ sd q 1 + n ≤ 152 ∧ 16 * n ≤ sd q 4 ∧ (∀ i, i < n → (s.conf.sensor (sd q 1 + i)).enable = true)) (q0 0x60 [(1, 151), (2, 0x1000), (4, 16), (6, 0x100)]) (svCone wCold Aqaux.reset) 1) ∧
    ((fun (q : Sqe) (s : State) (n : Nat) => Taken 0x60 q s ∧ bits (sd q 6) 1 0 = 0 ∧ bits (sd q 6) 15 8 = n ∧ 1 ≤ n ∧ sd q 1 < 152 ∧ sd q 1 + n ≤ 152 ∧ 16 * n ≤ sd q 4 ∧ (∃ i, i < n ∧ (s.conf.sensor (sd q 1 + i)).enable = false)) (q0 0x60 [(1, 150), (2, 0x1000), (4, 32), (6, 0x200)]) (svCone wCold Aqaux.reset) 2) ∧
    ((fun (q : Sqe) (s : State) (n : Nat) => Taken 0x60 q s ∧ bits (sd q 6) 1 0 = 2 ∧ bits (sd q 6) 15 8 = n ∧ 1 ≤ n ∧ sd q 1 < 16 ∧ sd q 1 + n ≤ 16 ∧ 16 * n ≤ sd q 4 ∧ (∀ i, i < n → (s.conf.aq (sd q 1 + i)).enable = true)) (q0 0x60 [(1, 15), (2, 0x1000), (4, 16), (6, 0x102)]) (svCone wCold Aqaux.reset) 1) ∧
    ((fun (q : Sqe) (s : State) (n : Nat) => Taken 0x60 q s ∧ bits (sd q 6) 1 0 = 2 ∧ bits (sd q 6) 15 8 = n ∧ 1 ≤ n ∧ sd q 1 < 16 ∧ sd q 1 + n ≤ 16 ∧ 16 * n ≤ sd q 4 ∧ (∃ i, i < n ∧ (s.conf.aq (sd q 1 + i)).enable = false)) (q0 0x60 [(1, 14), (2, 0x1000), (4, 32), (6, 0x202)]) (svCone wCold Aqaux.reset) 2) ∧
    ((fun (q : Sqe) (s : State) => Taken 0x61 q s ∧ sd q 1 = 0xFFFFFFFF ∧ s.tcm.sens.length = 152) (q0 0x61 [(1, 0xFFFFFFFF)]) (svCone { Sens.reset true false with below := 2 } Aqaux.reset)) ∧
    ((fun (q : Sqe) (s : State) => Taken 0x61 q s ∧ sd q 1 = 0xFFFFFFFF ∧ s.tcm.sens.length = 152) (q0 0x61 [(1, 0xFFFFFFFF)]) (svCone { Sens.reset true false with below := 1 } Aqaux.reset)) ∧
    ((fun (q : Sqe) (s : State) => Taken 0x61 q s ∧ sd q 1 < 152 ∧ sd q 1 < s.tcm.sens.length ∧ (s.conf.sensor (sd q 1)).enable = true ∧ (s.sens (sd q 1)).latched = true ∧ ((s.sens (sd q 1)).broken = false ∨ (s.sens (sd q 1)).subst = true) ∧ 2 ≤ (s.sens (sd q 1)).below) (q0 0x61 [(1, 151)]) (svCone { Sens.reset true false with below := 2 } Aqaux.reset)) ∧
    ((fun (q : Sqe) (s : State) => Taken 0x61 q s ∧ sd q 1 < 152 ∧ (s.conf.sensor (sd q 1)).enable = true ∧ (s.sens (sd q 1)).latched = false) (q0 0x61 [(1, 151)]) (svCone wCold Aqaux.reset)) ∧
    ((fun (q : Sqe) (s : State) => Taken 0x61 q s ∧ sd q 1 < 152 ∧ (s.conf.sensor (sd q 1)).enable = true ∧ (s.sens (sd q 1)).latched = true ∧ ((s.sens (sd q 1)).broken = true ∧ (s.sens (sd q 1)).subst = false ∨ (s.sens (sd q 1)).below < 2)) (q0 0x61 [(1, 151)]) (svCone { Sens.reset true true with below := 1 } Aqaux.reset)) ∧
    ((fun (q : Sqe) (s : State) => Taken 0x61 q s ∧ sd q 1 < 152 ∧ (s.conf.sensor (sd q 1)).enable = true ∧ (s.sens (sd q 1)).latched = true ∧ ((s.sens (sd q 1)).broken = true ∧ (s.sens (sd q 1)).subst = false ∨ (s.sens (sd q 1)).below < 2)) (q0 0x61 [(1, 151)]) (svCone { Sens.reset true true with below := 9, broken := true } Aqaux.reset)) ∧
    ((fun (q : Sqe) (s : State) => Taken 0x62 q s ∧ sd q 1 < 16 ∧ sd q 1 < s.tcm.aq.length ∧ bits (sd q 6) 15 1 = 0 ∧ bits (sd q 6) 31 16 ≤ 3600 ∧ (s.conf.aq (sd q 1)).enable = true) (q0 0x62 [(1, 15), (6, 1 + 2 ^ 16 * 3600)]) (svCone wCold Aqaux.reset)) :=
  by and_intros <;> decide +kernel

theorem hypotheses_met_ThermalTick :
    ((fun (s : State) => s.siteUp = true ∧ s.tcm.sens.length = 152) ({ sv with cfg := some { Cfg.empty with sensors := (List.replicate 152 SensorRec.off).set 1 { wSensor with target := 0 } |>.set 0 { wSensor with target := 0 } }, tcm := { sv.tcm with sens := sv.tcm.sens.set 1 { wCold with nFlag := 2 } } })) ∧
    ((fun (s : State) => s.siteUp = true ∧ s.tcm.sens.length = 152) ({ sv with cfg := some { Cfg.empty with sensors := List.replicate 152 { wSensor with target := 0 } }, tcm := { sv.tcm with sens := List.replicate 152 { wCold with nFlag := 2, broken := true, nOk := 9, l3 := true } } })) :=
  by and_intros <;> decide +kernel

theorem hypotheses_met_ThermalCaps :
    ((fun (s : State) (g : Nat) (n : Nat) => g < 64 ∧ n < 152 ∧ (s.conf.sensor n).enable = true ∧ 2 ≤ (s.sens n).eff ∧ g ∈ s.assoc (s.conf.sensor n)) (svCone { wCold with eff := 2 } Aqaux.reset) 63 151) ∧
    ((fun (s : State) (n : Nat) => ((s.sens n).eff = 4 ∨ ((s.sens n).eff = 3 ∧ (s.sens n).tripped = true))) (svCone { wCold with eff := 3, tripped := true } Aqaux.reset) 151) ∧
    ((fun (s : State) (n : Nat) => ((s.sens n).eff = 4 ∨ ((s.sens n).eff = 3 ∧ (s.sens n).tripped = true))) (svCone { wCold with eff := 4 } Aqaux.reset) 151) ∧
    ((fun (s : State) (n : Nat) (x : Stop) => (s.sens n).eff = 3 ∧ (s.sens n).tripped = false ∧ (s.sens n).stop = some x ∧ 0 < x.ms) (svCone { wCold with eff := 3, stop := some ⟨0, 100, [(63, 200)]⟩ } Aqaux.reset) 151 (⟨0, 100, [(63, 200)]⟩)) ∧
    ((fun (s : State) (g : Nat) (p : Nat) => p < 16 ∧ (s.conf.aq p).enable = true ∧ (s.aq p).fault = true ∧ s.portGroup p = some g) (svCone wCold { Aqaux.reset with fault := true }) 63 15) ∧
    ((fun (n : Nat) (s : State) => n < s.tcm.sens.length ∧ (s.conf.sensor n).enable = true ∧ 2 ≤ (s.sens n).eff ∧ (s.sens n).hard2 = false) 151 (svCone { wCold with eff := 2 } Aqaux.reset)) ∧
    ((fun (n : Nat) (s : State) => n < s.tcm.sens.length ∧ (s.conf.sensor n).enable = true ∧ 2 ≤ (s.sens n).eff ∧ (s.sens n).hard2 = false) 151 (svCone { wCold with eff := 4 } Aqaux.reset)) ∧
    ((fun (n : Nat) (s : State) => (s.sens n).eff < 2) 151 (svCone { wCold with eff := 1 } Aqaux.reset)) :=
  by and_intros <;> decide +kernel

theorem hypotheses_met_FlowAndForce :
    ((fun (s : State) => s.siteUp = true ∧ s.tcm.aq.length = 16) (svCone wCold { Aqaux.reset with low := 1, pump := true })) ∧
    ((fun (s : State) => s.siteUp = true ∧ s.tcm.aq.length = 16) (svCone wCold { Aqaux.reset with fault := true, ok := 1 })) ∧
    ((fun (p : Nat) (s : State) => p < s.tcm.aq.length ∧ (s.aq p).until_.isSome) 15 (svCone wCold { Aqaux.reset with force := true, until_ := some 5 })) ∧
    ((fun (p : Nat) (s : State) => (s.aq p).until_ = none) 15 (svCone wCold Aqaux.reset)) :=
  by and_intros <;> decide +kernel

theorem hypotheses_met_SwitchCommands :
    ((fun (q : Sqe) (s : State) => Taken 0x68 q s ∧ sd q 1 < 24 ∧ sd q 1 < s.lsw.chans.length ∧ sd q 6 = 1 ∧ (s.conf.chan (sd q 1)).owner = 1 ∧ (s.ch (sd q 1)).st = .off ∧ (s.ch (sd q 1)).held = false ∧ s.lsw.supply = 0 ∧ ((s.conf.chan (sd q 1)).compat = true ∨ (s.ch (sd q 1)).budget + (s.ch (sd q 1)).eLast * 100 ≤ (s.conf.chan (sd q 1)).clampBudget * 1000) ∧ (s.lsw.chans.filter (fun c => c.st = .inrush)).length < 4) (q0 0x68 [(1, 23), (6, 1)]) (svCh (wChRec 1 false false) { LChan.reset with budget := 900, eLast := 1 })) ∧
    ((fun (q : Sqe) (s : State) => Taken 0x68 q s ∧ sd q 1 < 24 ∧ sd q 1 < s.lsw.chans.length ∧ sd q 6 = 0 ∧ (s.conf.chan (sd q 1)).owner = 1 ∧ (s.conf.chan (sd q 1)).compat = true ∧ ((s.ch (sd q 1)).st = .on ∨ (s.ch (sd q 1)).st = .pwm)) (q0 0x68 [(1, 23)]) (svCh (wChRec 1 true false) { LChan.reset with st := .pwm, order := 2 })) ∧
    ((fun (q : Sqe) (s : State) => Taken 0x68 q s ∧ sd q 1 < 24 ∧ (sd q 6 = 0 ∨ sd q 6 = 1) ∧ (s.conf.chan (sd q 1)).owner = 2) (q0 0x68 [(1, 23), (6, 1)]) (svCh (wChRec 2 true false) LChan.reset)) ∧
    ((fun (q : Sqe) (s : State) => Taken 0x68 q s ∧ sd q 1 < 24 ∧ sd q 1 < s.lsw.chans.length ∧ (sd q 6 = 0 ∨ sd q 6 = 1) ∧ (s.conf.chan (sd q 1)).owner = 1 ∧ (s.ch (sd q 1)).st = .lockout) (q0 0x68 [(1, 23), (6, 1)]) (svCh (wChRec 1 true false) { LChan.reset with st := .lockout })) ∧
    ((fun (q : Sqe) (s : State) (n : Nat) => Taken 0x69 q s ∧ bits (sd q 6) 4 0 = n ∧ 1 ≤ n ∧ sd q 1 < 24 ∧ sd q 1 + n ≤ 24 ∧ 16 * n ≤ sd q 4) (q0 0x69 [(1, 22), (2, 0x1000), (4, 32), (6, 2)]) (svCh (wChRec 1 true false) LChan.reset) 2) ∧
    ((fun (q : Sqe) (s : State) => Taken 0x6A q s ∧ sd q 1 < 24 ∧ sd q 1 < s.lsw.chans.length ∧ (s.ch (sd q 1)).st = .lockout ∧ (s.ch (sd q 1)).cause ≠ 5 ∧ (s.ch (sd q 1)).order = 0) (q0 0x6A [(1, 23)]) (svCh (wChRec 1 true false) { LChan.reset with st := .lockout, cause := 1, retries := 3 })) ∧
    ((fun (q : Sqe) (s : State) => Taken 0x6A q s ∧ sd q 1 < 24 ∧ sd q 1 < s.lsw.chans.length ∧ (s.ch (sd q 1)).st ≠ .lockout) (q0 0x6A [(1, 23)]) (svCh (wChRec 1 true false) LChan.reset)) ∧
    ((fun (q : Sqe) (s : State) => Taken 0x6A q s ∧ sd q 1 < 24 ∧ sd q 1 < s.lsw.chans.length ∧ (s.ch (sd q 1)).st = .lockout ∧ (s.ch (sd q 1)).cause = 5 ∧ (s.conf.chan (sd q 1)).clampBudget * 1000 < 2 * (s.ch (sd q 1)).budget) (q0 0x6A [(1, 23)]) (svCh (wChRec 1 false false) { LChan.reset with st := .lockout, cause := 5, budget := 501 })) ∧
    ((fun (q : Sqe) (s : State) => Taken 0x6A q s ∧ sd q 1 = 0xFFFFFFFF ∧ s.lsw.chans.length = 24) (q0 0x6A [(1, 0xFFFFFFFF)]) (svCh (wChRec 1 true false) { LChan.reset with st := .lockout, cause := 1, retries := 3, order := 1 })) ∧
    ((fun (q : Sqe) (s : State) => Taken 0x6A q s ∧ sd q 1 = 0xFFFFFFFF ∧ s.lsw.chans.length = 24) (q0 0x6A [(1, 0xFFFFFFFF)]) (svCh (wChRec 1 false false) { LChan.reset with st := .lockout, cause := 5, budget := 501 })) :=
  by and_intros <;> decide +kernel

theorem hypotheses_met_SwitchProtection :
    ((fun (n : Nat) (s : State) => (s.ch n).outOn = false) 23 (svCh (wChRec 1 true false) { LChan.reset with st := .deferred, order := 1 })) ∧
    ((fun (n : Nat) (s : State) => n < s.lsw.chans.length ∧ (s.ch n).st = .retryWait ∧ (s.ch n).held = false ∧ s.lswRuns = true ∧ (s.ch n).retries < (s.conf.chan n).retryMax ∧ s.lsw.supply = 0 ∧ (s.conf.chan n).compat = true ∧ (s.lsw.chans.filter (fun c => c.st = .inrush)).length < 4) 23 (svCh (wChRec 1 true false) { LChan.reset with st := .retryWait, order := 1, retries := 2 })) ∧
    ((fun (n : Nat) (s : State) => n < s.lsw.chans.length ∧ (s.ch n).st = .retryWait ∧ (s.ch n).held = false ∧ s.lswRuns = true ∧ (s.conf.chan n).retryMax ≤ (s.ch n).retries) 23 (svCh (wChRec 1 true false) { LChan.reset with st := .retryWait, order := 1, retries := 3 })) ∧
    ((fun (n : Nat) (s : State) => (s.ch n).held = true) 23 (svCh (wChRec 1 true false) { LChan.reset with st := .retryWait, held := true })) ∧
    ((fun (n : Nat) (s : State) => (s.ch n).held = true) 23 (svCh (wChRec 1 true false) { LChan.reset with held := true })) ∧
    ((fun (n : Nat) (s : State) => n < s.lsw.chans.length ∧ ((s.ch n).st = .on ∨ (s.ch n).st = .pwm) ∧ (s.ch n).held = false ∧ s.lswRuns = true) 23 (svCh (wChRec 1 true false) { LChan.reset with st := .on, order := 1, retries := 2 })) ∧
    ((fun (n : Nat) (mv : Int) (s : State) => n < s.lsw.chans.length ∧ s.lswRuns = true ∧ (s.conf.chan n).compat = true ∧ (s.ch n).st ≠ .inrush ∧ (s.ch n).st ≠ .on ∧ (s.ch n).st ≠ .lockout ∧ mv < -3000) 23 (-3001) (svCh (wChRec 1 true false) { LChan.reset with st := .pwm })) ∧
    ((fun (n : Nat) (mv : Int) (s : State) => n < s.lsw.chans.length ∧ s.lswRuns = true ∧ (s.conf.chan n).compat = true ∧ (s.ch n).st ≠ .inrush ∧ (s.ch n).st ≠ .on ∧ (s.ch n).st ≠ .lockout ∧ mv < -3000) 23 (-9000) (svCh (wChRec 1 true false) { LChan.reset with st := .off })) ∧
    ((fun (n : Nat) (mv : Int) (s : State) => (-3000 ≤ mv ∨ (s.conf.chan n).compat = false ∨ s.lswRuns = false)) 23 (-3000) (svCh (wChRec 1 true false) { LChan.reset with st := .off })) ∧
    ((fun (s : State) => s.lswRuns = false) ({ svCh (wChRec 1 true false) { LChan.reset with st := .retryWait, order := 1 } with sup := { sv.sup with readyMask := 0x1EF } })) ∧
    ((fun (s : State) => s.lswRuns = false) ({ svCh (wChRec 1 true false) { LChan.reset with st := .on, order := 1 } with sup := { sv.sup with readyMask := 0x1EF } })) ∧
    ((fun (s : State) => s.lswRuns = false) ({ svCh (wChRec 1 true false) { LChan.reset with st := .pwm, order := 1 } with sup := { sv.sup with readyMask := 0x1EF } })) ∧
    ((fun (n : Nat) (cause : TripCause) (s : State) => n < s.lsw.chans.length ∧ s.siteUp = false ∧ cause ≠ .overload ∧ ((s.ch n).st = .on ∨ (s.ch n).st = .pwm)) 23 .short ({ svCh (wChRec 1 false false) { LChan.reset with st := .on, order := 1 } with sup := { sv.sup with readyMask := 0x1EF } })) ∧
    ((fun (s : State) => s.siteUp = false) ({ svCh (wChRec 1 false false) { LChan.reset with st := .on, order := 1 } with sup := { sv.sup with readyMask := 0x1EF } })) ∧
    ((fun (n : Nat) (mv : Int) (s : State) => (-3000 ≤ mv ∨ (s.conf.chan n).compat = false ∨ s.lswRuns = false)) 23 (-9000) (svCh (wChRec 1 false false) { LChan.reset with st := .off })) ∧
    ((fun (n : Nat) (mv : Int) (s : State) => (-3000 ≤ mv ∨ (s.conf.chan n).compat = false ∨ s.lswRuns = false)) 23 (-9000) ({ svCh (wChRec 1 true false) { LChan.reset with st := .off } with sup := { sv.sup with readyMask := 0x1EF } })) :=
  by and_intros <;> decide +kernel

theorem hypotheses_met_SwitchProtection_1 :
    (fun (n : Nat) (s : State) => n < s.lsw.chans.length ∧ s.lswRuns = true ∧ (s.conf.chan n).compat = true ∧ ((s.ch n).st = .on ∨ (s.ch n).st = .pwm) ∧ (∀ m, (s.ch m).st ≠ .deferred)) 23 (svCh (wChRec 1 true false) { LChan.reset with st := .on, order := 1 }) :=
  ⟨by decide +kernel, by decide +kernel, by decide +kernel, by decide +kernel, (fun m => of_decide_eq_true (ch_all _ (fun c => decide (c.st ≠ .deferred)) (by decide +kernel) m))⟩

theorem hypotheses_met_SwitchProtection_5 :
    (fun (n : Nat) (s : State) => n < s.lsw.chans.length ∧ (s.ch n).st = .inrush ∧ (s.ch n).order = 1 ∧ (∀ m, (s.ch m).st ≠ .deferred)) 23 (svCh (wChRec 1 true false) { LChan.reset with st := .inrush, order := 1 }) :=
  ⟨by decide +kernel, by decide +kernel, by decide +kernel, (fun m => of_decide_eq_true (ch_all _ (fun c => decide (c.st ≠ .deferred)) (by decide +kernel) m))⟩

theorem hypotheses_met_SwitchSupply :
    ((fun (s : State) => s.siteUp = false) ({ svCh (wChRec 1 true false) LChan.reset with sup := { sv.sup with readyMask := 0x1EF } })) ∧
    ((fun (mv : Nat) (s : State) => s.lsw.supply ≠ 1 ∧ 6000 ≤ mv ∧ mv < 9000) 6000 (svCh (wChRec 1 false false) LChan.reset)) ∧
    ((fun (mv : Nat) (s : State) => s.lsw.supply ≠ 1 ∧ 6000 ≤ mv ∧ mv < 9000) 8999 ({ svCh (wChRec 1 false false) LChan.reset with lsw := { sv.lsw with supply := 2 } })) ∧
    ((fun (s : State) => s.lsw.supply ≠ 2) (svCh (wChRec 1 true false) { LChan.reset with st := .on, order := 1 })) ∧
    ((fun (s : State) => s.lsw.supply ≠ 2) (svCh (wChRec 1 false false) { LChan.reset with st := .on, order := 1, budget := 100000000 })) ∧
    ((fun (s : State) => s.lsw.lostAt = none) (svCh (wChRec 1 true false) { LChan.reset with st := .on, order := 1 })) ∧
    ((fun (code : Nat) (c : Nat) (s : State) => s.lsw.supply ≠ 2 ∧ c = (if code % 32 = 31 then s.lsw.sel else code % 32)) 55 23 (svCh (wChRec 1 true false) { LChan.reset with st := .on, current := 9000 })) ∧
    ((fun (code : Nat) (c : Nat) (s : State) => s.lsw.supply ≠ 2 ∧ c = (if code % 32 = 31 then s.lsw.sel else code % 32)) 31 31 (svCh (wChRec 1 true false) { LChan.reset with st := .on, current := 9000 })) ∧
    ((fun (n : Nat) (s : State) => n < s.lsw.chans.length ∧ (s.ch n).st = .pwm ∧ s.lswRuns = true ∧ (s.conf.chan n).comp = true ∧ 0 < rneDivN (sumN s.lsw.vs) s.lsw.vs.length ∧ ((s.conf.chan n).compat = true ∨ (s.ch n).dApp = 0 ∨ 1000 ≤ (s.ch n).dApp)) 23 ({ svCh (wChRec 1 true true) LChan.reset with lsw := { sv.lsw with vs := [9000, 9001], chans := sv.lsw.chans.set 23 { LChan.reset with st := .pwm, duty := 500, order := 2 } } })) ∧
    ((fun (n : Nat) (s : State) => n < s.lsw.chans.length ∧ (s.ch n).st = .pwm ∧ s.lswRuns = true ∧ (s.conf.chan n).comp = false ∧ ((s.conf.chan n).compat = true ∨ (s.ch n).dApp = 0 ∨ 1000 ≤ (s.ch n).dApp)) 23 (svCh (wChRec 1 true false) { LChan.reset with st := .pwm, duty := 500, order := 2 })) ∧
    ((fun (n : Nat) (s : State) => n < s.lsw.chans.length ∧ (s.ch n).st = .pwm ∧ s.lswRuns = true ∧ (s.conf.chan n).compat = false ∧ 0 < (s.ch n).dApp ∧ (s.ch n).dApp < 1000) 23 (svCh (wChRec 1 false false) { LChan.reset with st := .pwm, duty := 500, dApp := 500, order := 2 })) ∧
    ((fun (n : Nat) (s : State) => n < s.lsw.chans.length ∧ (s.ch n).st = .pwm ∧ s.lswRuns = true ∧ (s.conf.chan n).compat = false ∧ 0 < (s.ch n).dApp ∧ (s.ch n).dApp < 1000) 23 (svCh (wChRec 1 false false) { LChan.reset with st := .pwm, duty := 500, dApp := 500, order := 2, budget := 100000000 })) ∧
    ((fun (s : State) => s.lsw.supply = 2) ({ svCh (wChRec 1 true false) LChan.reset with lsw := { sv.lsw with supply := 2 } })) :=
  by and_intros <;> decide +kernel

theorem hypotheses_met_SwitchSupply_1 :
    (fun (s : State) => s.siteUp = true ∧ (∀ m, (s.ch m).st ≠ .deferred)) (svCh (wChRec 1 false false) { LChan.reset with budget := 500 }) :=
  ⟨by decide +kernel, (fun m => of_decide_eq_true (ch_all _ (fun c => decide (c.st ≠ .deferred)) (by decide +kernel) m))⟩

theorem hypotheses_met_SwitchSupply_1b :
    (fun (s : State) => s.siteUp = true ∧ (∀ m, (s.ch m).st ≠ .deferred)) ({ svCh (wChRec 1 false false) LChan.reset with lsw := { sv.lsw with pin := 23, chans := sv.lsw.chans.set 23 { LChan.reset with st := .on } } }) :=
  ⟨by decide +kernel, (fun m => of_decide_eq_true (ch_all _ (fun c => decide (c.st ≠ .deferred)) (by decide +kernel) m))⟩

theorem hypotheses_met_SwitchSupply_4 :
    (fun (s : State) => s.lsw.supply = 1 ∧ (∀ m, (s.ch m).st ≠ .deferred)) ({ svCh (wChRec 1 false false) LChan.reset with lsw := { sv.lsw with supply := 1 } }) :=
  ⟨by decide +kernel, (fun m => of_decide_eq_true (ch_all _ (fun c => decide (c.st ≠ .deferred)) (by decide +kernel) m))⟩

theorem hypotheses_met_SwitchSupply_6 :
    (fun (x : Nat) (s : State) => s.lsw.lostAt = some x ∧ s.siteUp = true ∧ s.lsw.chans.length = 24 ∧ (∀ n, (s.ch n).order = 0 ∨ (s.ch n).st = .lockout) ∧ (∀ n, (s.ch n).outOn = false ∧ (s.ch n).st ≠ .deferred)) 0 ({ svCh (wChRec 1 true false) LChan.reset with lsw := { sv.lsw with supply := 2, lostAt := some 0 } }) :=
  ⟨by decide +kernel, by decide +kernel, by decide +kernel, (fun m => of_decide_eq_true (ch_all _ (fun c => decide (c.order = 0 ∨ c.st = .lockout)) (by decide +kernel) m)), (fun m => of_decide_eq_true (ch_all _ (fun c => decide (c.outOn = false ∧ c.st ≠ .deferred)) (by decide +kernel) m))⟩

theorem hypotheses_met_SwitchSupply_7 :
    (fun (n : Nat) (x : Nat) (s : State) => n < s.lsw.chans.length ∧ s.lsw.chans.length = 24 ∧ s.lsw.lostAt = some x ∧ s.siteUp = true ∧ s.lsw.supply = 2 ∧ (s.ch n).st = .off ∧ (s.ch n).order = 1 ∧ (s.ch n).held = false ∧ (s.conf.chan n).compat = true ∧ (∀ m, m ≠ n → (s.ch m).order = 0 ∧ (s.ch m).st = .off)) 23 0 ({ svCh (wChRec 1 true false) LChan.reset with lsw := { sv.lsw with supply := 2, lostAt := some 0, chans := sv.lsw.chans.set 23 { LChan.reset with order := 1 } } }) :=
  by refine ⟨?_, ?_, ?_, ?_, ?_, ?_, ?_, ?_, ?_, (fun m hm => of_decide_eq_true (getD_set_all sv.lsw.chans 23 _ LChan.reset (fun c : LChan => decide (c.order = 0 ∧ c.st = .off)) (by decide +kernel) m hm))⟩ <;> decide +kernel

theorem hypotheses_met_LoadSwitchInvariant :
    ∃ t, LoadSwitchesOk svDip ∧ step svDip = .next t :=
  ⟨_, by decide +kernel, rfl⟩

theorem hypotheses_met_MeasurementCommands :
    ((fun (q : Sqe) (s : State) (ids : List Nat) => SgTaken 0xA0 q s ∧ sgmId (bits (sd q 6) 7 0) = true ∧ 1 ≤ bits (sd q 6) 15 8 ∧ bits (sd q 6) 15 8 ≤ 64 ∧ 32 + 16 * bits (sd q 6) 15 8 + 128 ≤ sd q 4 ∧ ids = ((List.range 256).filter (fun i => decide (bits (sd q 6) 7 0 ≤ i) && sgmId i)).take (bits (sd q 6) 15 8)) (q1 0xA0 [(2, 0x1000), (4, 1184), (6, 0x4000)]) svSgN ((List.range 256).filter (fun i => sgmId i) |>.take 64)) ∧
    ((fun (q : Sqe) (s : State) (ids : List Nat) => SgTaken 0xA0 q s ∧ sgmId (bits (sd q 6) 7 0) = true ∧ 1 ≤ bits (sd q 6) 15 8 ∧ bits (sd q 6) 15 8 ≤ 64 ∧ 32 + 16 * bits (sd q 6) 15 8 + 128 ≤ sd q 4 ∧ ids = ((List.range 256).filter (fun i => decide (bits (sd q 6) 7 0 ≤ i) && sgmId i)).take (bits (sd q 6) 15 8)) (q1 0xA0 [(2, 0x1000), (4, 192), (6, 0x23F)]) (svSg (wSgm .battery)) ([63])) ∧
    ((fun (q : Sqe) (s : State) => SgTaken 0xA1 q s ∧ 280 ≤ sd q 4) (q1 0xA1 [(2, 0x1000), (4, 280)]) svSgN) ∧
    ((fun (q : Sqe) (b : List Byte) (s : State) => SgTaken 0xA2 q s ∧ b.length = 96 ∧ 96 ≤ sd q 4 ∧ bits (sd q 6) 7 3 = 0 ∧ bits (sd q 6) 23 18 = 0 ∧ (bit (sd q 6) 2 = true ∧ bits (sd q 6) 17 16 ≤ 2 ∧ 1 ≤ sd q 7 ∧ sd q 7 ≤ 100000 ∨ bit (sd q 6) 2 = false ∧ (bits (sd q 6) 15 8 ≤ 0x27 ∨ bits (sd q 6) 15 8 = 0xFF) ∧ 30 ≤ bits (sd q 6) 31 24 ∧ bits (sd q 6) 31 24 ≤ 250 ∧ 1 ≤ sd q 7 ∧ sd q 7 ≤ 10000000)) (q1 0xA2 [(2, 0x1000), (4, 96), (6, 4 + 3 + 2 ^ 16 * 2), (7, 100000)]) (zeros 96) svSgN) ∧
    ((fun (q : Sqe) (b : List Byte) (s : State) => SgTaken 0xA2 q s ∧ b.length = 96 ∧ 96 ≤ sd q 4 ∧ bits (sd q 6) 7 3 = 0 ∧ bits (sd q 6) 23 18 = 0 ∧ (bit (sd q 6) 2 = true ∧ bits (sd q 6) 17 16 ≤ 2 ∧ 1 ≤ sd q 7 ∧ sd q 7 ≤ 100000 ∨ bit (sd q 6) 2 = false ∧ (bits (sd q 6) 15 8 ≤ 0x27 ∨ bits (sd q 6) 15 8 = 0xFF) ∧ 30 ≤ bits (sd q 6) 31 24 ∧ bits (sd q 6) 31 24 ≤ 250 ∧ 1 ≤ sd q 7 ∧ sd q 7 ≤ 10000000)) (q1 0xA2 [(2, 0x1000), (4, 96), (6, 2 + 0x27 * 256 + 2 ^ 24 * 250), (7, 10000000)]) (zeros 96) svSgN) ∧
    ((fun (q : Sqe) (b : List Byte) (s : State) => SgTaken 0xA2 q s ∧ b.length = 96 ∧ 96 ≤ sd q 4 ∧ bits (sd q 6) 7 3 = 0 ∧ bits (sd q 6) 23 18 = 0 ∧ (bit (sd q 6) 2 = true ∧ bits (sd q 6) 17 16 ≤ 2 ∧ 1 ≤ sd q 7 ∧ sd q 7 ≤ 100000 ∨ bit (sd q 6) 2 = false ∧ (bits (sd q 6) 15 8 ≤ 0x27 ∨ bits (sd q 6) 15 8 = 0xFF) ∧ 30 ≤ bits (sd q 6) 31 24 ∧ bits (sd q 6) 31 24 ≤ 250 ∧ 1 ≤ sd q 7 ∧ sd q 7 ≤ 10000000) ∧ sigOk 0xA2 q false b s = false) (q1 0xA2 [(2, 0x1000), (4, 96), (6, 4 + 3 + 2 ^ 16 * 2), (7, 100000)]) (zeros 96) svSgN) ∧
    ((fun (q : Sqe) (s : State) => s.lnk.up = false ∧ Taken 0xA0 q s) (q1 0xA0 [(2, 0x1000), (4, 192), (6, 0x23F)]) ({ svSgN with lnk := { sv.lnk with up := false } })) ∧
    ((fun (q : Sqe) (s : State) => s.lnk.up = false ∧ Taken 0xA1 q s) (q1 0xA1 [(2, 0x1000), (4, 280)]) ({ svSgN with lnk := { sv.lnk with up := false } })) ∧
    ((fun (q : Sqe) (s : State) => s.lnk.up = false ∧ Taken 0xA2 q s) (q1 0xA2 [(2, 0x1000), (4, 96)]) ({ svSgN with lnk := { sv.lnk with up := false } })) ∧
    ((fun (q : Sqe) (s : State) => s.lnk.up = true ∧ s.sgm.runs = true ∧ s.mss.restarting = true ∧ Taken 0xA0 q s) (q1 0xA0 [(4, 1728)]) ({ svSgN with mss := { svSgN.mss with restarting := true } })) ∧
    ((fun (q : Sqe) (s : State) => s.lnk.up = true ∧ s.sgm.runs = true ∧ s.mss.restarting = true ∧ Taken 0xA1 q s) (q1 0xA1 [(4, 280)]) ({ svSgN with mss := { svSgN.mss with restarting := true } })) ∧
    ((fun (q : Sqe) (s : State) => s.lnk.up = true ∧ s.sgm.runs = true ∧ s.mss.restarting = true ∧ Taken 0xA2 q s) (q1 0xA2 [(2, 0x1000), (4, 96), (6, 4 + 3 + 2 ^ 16 * 2), (7, 100000)]) ({ svSgN with mss := { svSgN.mss with restarting := true } })) :=
  by and_intros <;> decide +kernel

theorem hypotheses_met_RegisterValues :
    (fun (id : Nat) => sgmId id = true) 0x3F :=
  by decide +kernel

theorem hypotheses_met_EnergySample :
    ((fun (s : State) => s.sgm.mode ≠ .normal) (svSg (wSgmO .battery))) ∧
    ((fun (s : State) => s.sgm.mode ≠ .normal) (svSg (wSgmO .settling))) ∧
    ((fun (s : State) (v : Save) => s.sgm.runs = true ∧ s.sgm.saving = some v) (svSg { wSgmO .battery with saving := some (wSave 0) }) (wSave 0)) ∧
    ((fun (n : Nat) (onMs : Nat) (offMs : Nat) (s : State) => n < 4 ∧ s.sgm.s0.length = 4 ∧ s.sgm.acc.length = 64 ∧ s.sgm.runs = true ∧ (s.sgm.s0.getD n S0In.reset).cls ≠ 0 ∧ 20 ≤ onMs ∧ 20 ≤ offMs) 3 20 20 (svSg { wSgm .battery with s0 := List.replicate 4 ⟨1, 77, false, 0⟩ })) ∧
    ((fun (n : Nat) (onMs : Nat) (offMs : Nat) (s : State) => n < 4 ∧ s.sgm.s0.length = 4 ∧ s.sgm.acc.length = 64 ∧ s.sgm.runs = true ∧ (s.sgm.s0.getD n S0In.reset).cls ≠ 0 ∧ (onMs < 20 ∨ offMs < 20)) 3 20 19 (svSg { wSgm .battery with s0 := List.replicate 4 ⟨1, 77, false, 65535⟩ })) :=
  by and_intros <;> decide +kernel

theorem hypotheses_met_EnergySample_1 :
    (fun (s : State) (b : State) => b = s.sgmDue.boundaryStart ∧ s.sgm.mode = .normal ∧ b.sgm.acc.length = 64 ∧ b.sgm.res.length = 64) (svSg { wSgmO .normal with faults := List.replicate 40 0 |>.set 3 1 }) ((svSg { wSgmO .normal with faults := List.replicate 40 0 |>.set 3 1 }).sgmDue.boundaryStart) :=
  ⟨(rfl), by and_intros <;> decide +kernel⟩

theorem hypotheses_met_EnergySample_3 :
    (fun (s : State) (b : State) (k : Nat) (p : Pulse) => b = s.sgmDue.boundaryStart ∧ s.sgm.mode = .normal ∧ k < b.sgm.pulses.length ∧ k < 4 ∧ b.sgm.pulses.getD k Pulse.reset = p ∧ p.active = none ∧ p.src ≠ 0xFF ∧ p.width * 8 ≤ p.idle) (svSg wPul) ((svSg wPul).sgmDue.boundaryStart) 3 (⟨0, 30, 1, 0, 4, none, 240, false, 0⟩) :=
  ⟨(rfl), by and_intros <;> decide +kernel⟩

theorem hypotheses_met_EnergySample_3b :
    (fun (s : State) (b : State) (k : Nat) (p : Pulse) => b = s.sgmDue.boundaryStart ∧ s.sgm.mode = .normal ∧ k < b.sgm.pulses.length ∧ k < 4 ∧ b.sgm.pulses.getD k Pulse.reset = p ∧ p.active = none ∧ p.src ≠ 0xFF ∧ p.width * 8 ≤ p.idle) (svSg { wPul with pulses := List.replicate 4 ⟨0, 30, 1, 0, 400, none, 240, false, 1⟩ }) ((svSg { wPul with pulses := List.replicate 4 ⟨0, 30, 1, 0, 400, none, 240, false, 1⟩ }).sgmDue.boundaryStart) 3 (⟨0, 30, 1, 0, 400, none, 240, false, 1⟩) :=
  ⟨(rfl), by and_intros <;> decide +kernel⟩

theorem hypotheses_met_BlocksAndFaults :
    ((fun (s : State) => s.sgm.mode = .normal ∧ s.sgm.block.n = 1600 ∧ s.sgm.acc.length = 64 ∧ s.sgm.res.length = 64) (svSg { wSgm .normal with block := wBlock })) ∧
    ((fun (s : State) => s.sgm.mode = .normal ∧ s.sgm.block.n = 1600 ∧ s.sgm.acc.length = 64 ∧ s.sgm.res.length = 64) (svSg { wSgm .normal with block := { wBlock with cross := 9, p := 10 ^ 11 } })) ∧
    ((fun (s : State) => s.sgm.mode = .normal ∧ s.sgm.block.n = 1600 ∧ s.sgm.acc.length = 64 ∧ s.sgm.res.length = 64) (svSg { wSgm .normal with block := { wBlock with sq := List.replicate 40 0 } })) ∧
    ((fun (s : State) => s.sgm.mode = .normal ∧ s.sgm.block.n = 1600 ∧ s.sgm.acc.length = 64 ∧ s.sgm.res.length = 64) (svSg { wSgm .normal with faults := List.replicate 40 2, block := wBlock })) ∧
    ((fun (s : State) => (s.sgm.mode ≠ .normal ∨ s.sgm.block.n ≠ 1600)) (svSg { wSgm .normal with block := { wBlock with n := 1599 } })) ∧
    ((fun (c : Nat) (cause : ChanFault) (s : State) => s.sgm.mode = .normal ∧ s.sgm.evaluated c = true ∧ s.sgm.faults.length = 40 ∧ s.sgm.faults.getD c 0 = 0 ∧ (cause = .stuck ∧ (s.sgm.decim.getD c Decim.reset).stuck = true ∨ cause = .overrange ∧ 8 ≤ (s.sgm.decim.getD c Decim.reset).overs)) 31 .overrange ({ svSg { wSgm .normal with decim := Sgm.reset.decim.set 31 { Decim.reset with overs := 8 } } with bte := { sv.bte with sess := [wBSess 4 15 true, wBSess 5 15 false, wBSess 6 1 true] } })) ∧
    ((fun (c : Nat) (cause : ChanFault) (s : State) => s.sgm.mode = .normal ∧ s.sgm.evaluated c = true ∧ s.sgm.faults.length = 40 ∧ s.sgm.faults.getD c 0 = 0 ∧ (cause = .stuck ∧ (s.sgm.decim.getD c Decim.reset).stuck = true ∨ cause = .overrange ∧ 8 ≤ (s.sgm.decim.getD c Decim.reset).overs)) 38 .stuck ({ svSg { wSgm .normal with decim := Sgm.reset.decim.set 38 { Decim.reset with stuck := true } } with bte := { sv.bte with sess := [wBSess 4 7 true] } })) ∧
    ((fun (c : Nat) (s : State) => (s.sgm.decim.getD c Decim.reset).stuck = false ∧ (s.sgm.decim.getD c Decim.reset).overs < 8) 31 svSgN) ∧
    ((fun (c : Nat) (s : State) => s.sgm.mode = .normal ∧ 8000 ≤ (s.sgm.decim.getD c Decim.reset).good ∧ s.sgm.faults.getD c 0 ≠ 0 ∧ s.bte.sess = []) 39 (svSg { wSgm .normal with faults := List.replicate 40 2, decim := Sgm.reset.decim.set 39 { Decim.reset with good := 8000 } })) ∧
    ((fun (c : Nat) (s : State) => (s.sgm.decim.getD c Decim.reset).good < 8000) 39 (svSg { wSgm .normal with faults := List.replicate 40 2 })) :=
  by and_intros <;> decide +kernel

theorem hypotheses_met_BatteryMode :
    ((fun (s : State) => (s.sgm.mode = .normal ∨ s.sgm.mode = .settling) ∧ s.cell.cut = false ∧ s.sgm.shipOrder = false) svSgO) ∧
    ((fun (s : State) => (s.sgm.mode = .normal ∨ s.sgm.mode = .settling) ∧ s.cell.cut = false ∧ s.sgm.shipOrder = false) ({ svSg (wSgm .settling) with mss := { sv.mss with sealSt := 1 }, cell := { sv.cell with cut := false } })) ∧
    ((fun (s : State) => (s.sgm.mode = .normal ∨ s.sgm.mode = .settling) ∧ s.cell.cut = false ∧ s.sgm.shipOrder = true ∧ s.mss.shipAuth.isSome = true) ({ svSg { wSgm .settling with shipOrder := true } with mss := { sv.mss with shipAuth := some 3 } })) ∧
    ((fun (s : State) => (s.sgm.mode = .normal ∨ s.sgm.mode = .settling)) svSgO) ∧
    ((fun (s : State) => s.sgm.mode = .battery ∧ s.sgm.calNext = none ∧ s.sgm.pulseNext = [] ∧ s.sgm.acc.length = 64 ∧ s.sgm.res.length = 64 ∧ s.sgm.faults.length = 40 ∧ s.sgm.decim.length = 40) (svSg { wSgmO .battery with faults := List.replicate 40 0 |>.set 19 1 })) ∧
    ((fun (s : State) => s.sgm.mode = .battery ∧ s.cell.quiet < 1800) (svSg (wSgm .battery))) ∧
    ((fun (s : State) (b : Nat) => s.sgm.mode = .settling ∧ 320 ≤ s.sgm.settle ∧ s.sgm.batSince = some b) (svSg { wSgm .settling with batSince := some 0, settle := 320 }) 0) ∧
    ((fun (s : State) => s.sgm.settle < 320) (svSg { wSgm .settling with batSince := some 0, settle := 319 })) ∧
    ((fun (s : State) => (s.sgm.mode = .battery ∨ s.sgm.mode = .ship)) (svSg (wSgm .battery))) ∧
    ((fun (s : State) => (s.sgm.mode = .battery ∨ s.sgm.mode = .ship)) (svSg (wSgm .ship))) ∧
    ((fun (s : State) => s.sgm.runs = true ∧ s.sgm.saving = none) svSgN) ∧
    ((fun (s : State) => s.sgm.sramGood true = true) (svSg (Sgm.renew (wSaved 0 .off)))) ∧
    ((fun (kept : Bool) (s : State) (seq : Nat) (v : Save) => s.sgm.sramGood kept = false ∧ s.sgm.newest = some (seq, v)) false (svSg (wSaved 0 .off)) 3 (wSave 0)) ∧
    ((fun (kept : Bool) (s : State) (seq : Nat) (v : Save) => s.sgm.sramGood kept = false ∧ s.sgm.newest = some (seq, v)) true (svSg { wSaved 3 .off with sramCrc := 1 }) 3 (wSave 3)) ∧
    ((fun (kept : Bool) (s : State) => s.sgm.sramGood kept = false ∧ s.sgm.newest = none) false (svSg (wSgm .off))) :=
  by and_intros <;> decide +kernel

theorem hypotheses_met_BatteryMode_3 :
    (fun (s : State) (b : State) => b = s.sgmDue.boundaryStart ∧ s.sgm.saving = none ∧ s.sgm.mode = .normal ∧ b.sgm.acc.length = 64 ∧ b.sgm.res.length = 64) svSgO svSgO.sgmDue :=
  ⟨(rfl), by and_intros <;> decide +kernel⟩

theorem hypotheses_met_MeasurementCrossing :
    ((fun (s : State) => s.sgm.mode = .normal) svSgN) ∧
    ((fun (s : State) => s.sgm.mode = .normal) ({ svSgN with lnk := { sv.lnk with sgUp := true } })) ∧
    ((fun (s : State) => s.sgm.mode ≠ .normal) (svSg (wSgm .battery))) ∧
    ((fun (s : State) (m : SumMsg) (o : Summary) => s.lnk.summary = some m ∧ s.lnk.up = true ∧ s.siteUp = true ∧ s.lnk.meter = some o ∧ o.fault = m.read.fault ∧ o.ac = m.read.ac ∧ s.hqe.answers = [] ∧ s.lnk.toSt = [] ∧ s.lnk.heldPf1 = [] ∧ (∀ x ∈ s.lnk.inSt, x.1.answer = none)) ({ svSgN with lnk := { sv.lnk with summary := some wSummary.msg, meter := some { wSummary with time := 4 } } }) wSummary.msg ({ wSummary with time := 4 })) ∧
    ((fun (s : State) (m : SumMsg) => s.lnk.summary = some m ∧ (s.lnk.up = false ∨ s.siteUp = false) ∧ s.hqe.answers = [] ∧ s.lnk.toSt = [] ∧ s.lnk.heldPf1 = [] ∧ (∀ x ∈ s.lnk.inSt, x.1.answer = none)) ({ svSgN with lnk := { sv.lnk with up := false, summary := some wSummary.msg } }) wSummary.msg) ∧
    ((fun (s : State) (m : SumMsg) => s.lnk.summary = some m ∧ (s.lnk.up = false ∨ s.siteUp = false) ∧ s.hqe.answers = [] ∧ s.lnk.toSt = [] ∧ s.lnk.heldPf1 = [] ∧ (∀ x ∈ s.lnk.inSt, x.1.answer = none)) ({ svSgN with sup := { sv.sup with readyMask := 0 }, lnk := { sv.lnk with summary := some wSummary.msg } }) wSummary.msg) ∧
    ((fun (s : State) => s.lnk.summary.isSome = true) ({ svSgN with lnk := { sv.lnk with summary := some wSummary.msg, toSt := [(.credit 3 1, 7)] }, hqe := { sv.hqe with answers := [⟨0, 9, 0, 0, 0, []⟩] } })) ∧
    ((fun (s : State) => s.lnk.summary = none) svSgN) :=
  by and_intros <;> decide +kernel

theorem hypotheses_met_BillingCommands :
    ((fun (q : Sqe) (s : State) (ids : List Nat) => SgTaken 0xB0 q s ∧ bits (sd q 6) 7 0 < 80 ∧ 1 ≤ bits (sd q 6) 15 8 ∧ bits (sd q 6) 15 8 ≤ 80 ∧ 32 + 16 * bits (sd q 6) 15 8 + 128 ≤ sd q 4 ∧ ids = ((List.range 80).filter (fun i => bits (sd q 6) 7 0 ≤ i)).take (bits (sd q 6) 15 8)) (q1 0xB0 [(2, 0x1000), (4, 1440), (6, 80 * 256)]) (svB wBte) (List.range 80)) ∧
    ((fun (q : Sqe) (s : State) (ids : List Nat) => SgTaken 0xB0 q s ∧ bits (sd q 6) 7 0 < 80 ∧ 1 ≤ bits (sd q 6) 15 8 ∧ bits (sd q 6) 15 8 ≤ 80 ∧ 32 + 16 * bits (sd q 6) 15 8 + 128 ≤ sd q 4 ∧ ids = ((List.range 80).filter (fun i => bits (sd q 6) 7 0 ≤ i)).take (bits (sd q 6) 15 8)) (q1 0xB0 [(2, 0x1000), (4, 192), (6, 256 * 2 + 79)]) (svB wBte) ([79])) ∧
    ((fun (r : Nat) => r < 16) 15) ∧
    ((fun (q : Sqe) (s : State) => SgTaken 0xB4 q s ∧ 416 ≤ sd q 4) (q1 0xB4 [(2, 0x1000), (4, 416)]) (svB wBte)) ∧
    ((fun (s : State) => s.bte.cal = none) (svB { wBte with cal := none })) ∧
    ((fun (s : State) (p : Nat) (c : Calendar) => s.bte.cal = some c ∧ (s.bte.credit.getD p (0, 0)).1 ≤ 0) (svB wBte) 14 (wCalendar 1 3 0)) ∧
    ((fun (s : State) (p : Nat) (c : Calendar) => s.bte.cal = some c ∧ 0 < (s.bte.credit.getD p (0, 0)).1 ∧ (s.bte.credit.getD p (0, 0)).1 ≤ c.creditLow) (svB wBte) 13 (wCalendar 1 3 0)) ∧
    ((fun (s : State) (p : Nat) (c : Calendar) => s.bte.cal = some c ∧ 0 < (s.bte.credit.getD p (0, 0)).1 ∧ c.creditLow < (s.bte.credit.getD p (0, 0)).1) (svB wBte) 0 (wCalendar 1 3 0)) ∧
    ((fun (q : Sqe) (s : State) (l : List (Nat × List Byte)) => SgTaken 0xB5 q s ∧ 1 ≤ bits (sd q 7) 9 0 ∧ bits (sd q 7) 9 0 ≤ 512 ∧ 32 + 128 * bits (sd q 7) 9 0 + 128 ≤ sd q 4 ∧ l = (s.bte.store.filter (fun x => decide (sd q 6 ≤ x.1))).take (bits (sd q 7) 9 0)) (q1 0xB5 [(2, 0x1000), (4, 416), (6, 4), (7, 2)]) (svB { wBte with store := [(3, zeros 128), (4, List.replicate 128 1), (5, List.replicate 128 2), (6, zeros 128)] }) ([(4, List.replicate 128 1), (5, List.replicate 128 2)])) ∧
    ((fun (q : Sqe) (b : List Byte) (s : State) => SgTaken 0xB2 q s ∧ b.length = 96 ∧ 96 ≤ sd q 4 ∧ sd64 q 6 ≠ timeUnknown ∧ s.bte.clockOff = none) (q1 0xB2 [(2, 0x1000), (4, 96), (6, 5), (7, 400000)]) (sigBlock 2 7 svM) ({ svM with bte := { svM.bte with off := none } })) ∧
    ((fun (q : Sqe) (b : List Byte) (s : State) (o : Int) (d : Int) => SgTaken 0xB2 q s ∧ b.length = 96 ∧ 96 ≤ sd q 4 ∧ sd64 q 6 ≠ timeUnknown ∧ s.bte.clockOff = some o ∧ d = (sd64 q 6 : Int) - ((s.bte.up : Int) + o).toNat) (q1 0xB2 [(2, 0x1000), (4, 96), (6, 1700003600000000 % 2 ^ 32), (7, 1700003600000000 / 2 ^ 32)]) (sigBlock 2 7 svM) svM 1700000000000000 0) ∧
    ((fun (q : Sqe) (b : List Byte) (s : State) (o : Int) (d : Int) => SgTaken 0xB2 q s ∧ b.length = 96 ∧ 96 ≤ sd q 4 ∧ sd64 q 6 ≠ timeUnknown ∧ s.bte.clockOff = some o ∧ d = (sd64 q 6 : Int) - ((s.bte.up : Int) + o).toNat) (q1 0xB2 [(2, 0x1000), (4, 96), (6, 1700004500000001 % 2 ^ 32), (7, 1700004500000001 / 2 ^ 32)]) (sigBlock 2 7 svM) svM 1700000000000000 900000001) ∧
    ((fun (q : Sqe) (b : List Byte) (s : State) (o : Int) (d : Int) => SgTaken 0xB2 q s ∧ b.length = 96 ∧ 96 ≤ sd q 4 ∧ sd64 q 6 ≠ timeUnknown ∧ s.bte.clockOff = some o ∧ d = (sd64 q 6 : Int) - ((s.bte.up : Int) + o).toNat) (q1 0xB2 [(2, 0x1000), (4, 96), (6, 1700004500000000 % 2 ^ 32), (7, 1700004500000000 / 2 ^ 32)]) (sigBlock 2 7 svM) svM 1700000000000000 900000000) ∧
    ((fun (q : Sqe) (b : List Byte) (s : State) => SgTaken 0xB2 q s ∧ b.length = 96 ∧ 96 ≤ sd q 4 ∧ sd64 q 6 ≠ timeUnknown ∧ sigOk 0xB2 q false b s = false) (q1 0xB2 [(2, 0x1000), (4, 96), (6, 5), (7, 400000)]) (sigBlock 1 7 svM) ({ svM with bte := { svM.bte with off := none } })) ∧
    ((fun (q : Sqe) (s : State) => s.lnk.up = true ∧ s.sgm.runs = true ∧ s.mss.restarting = true ∧ Taken 0xB0 q s) (q1 0xB0 [(4, 1440), (6, 80 * 256)]) ({ svM with mss := { svM.mss with restarting := true } })) ∧
    ((fun (q : Sqe) (s : State) => s.lnk.up = true ∧ s.sgm.runs = true ∧ s.mss.restarting = true ∧ Taken 0xB1 q s) (q1 0xB1 [(4, 12396)]) ({ svM with mss := { svM.mss with restarting := true } })) ∧
    ((fun (q : Sqe) (s : State) => s.lnk.up = true ∧ s.sgm.runs = true ∧ s.mss.restarting = true ∧ Taken 0xB2 q s) (q1 0xB2 [(4, 96), (6, 5)]) ({ svM with mss := { svM.mss with restarting := true } })) ∧
    ((fun (q : Sqe) (s : State) => s.lnk.up = true ∧ s.sgm.runs = true ∧ s.mss.restarting = true ∧ Taken 0xB3 q s) (qTok 5 15) ({ svM with mss := { svM.mss with restarting := true } })) ∧
    ((fun (q : Sqe) (s : State) => s.lnk.up = true ∧ s.sgm.runs = true ∧ s.mss.restarting = true ∧ Taken 0xB4 q s) (q1 0xB4 [(4, 416)]) ({ svM with mss := { svM.mss with restarting := true } })) ∧
    ((fun (q : Sqe) (s : State) => s.lnk.up = true ∧ s.sgm.runs = true ∧ s.mss.restarting = true ∧ Taken 0xB5 q s) (q1 0xB5 [(4, 288), (7, 1)]) ({ svM with mss := { svM.mss with restarting := true } })) :=
  by and_intros <;> decide +kernel

theorem hypotheses_met_BillingCommands_10 :
    (fun (q : Sqe) (b : List Byte) (s : State) (c : Calendar) => SgTaken 0xB1 q s ∧ b.length = 12396 ∧ 12396 ≤ sd q 4 ∧ c = ⟨b.take 4096, (b.drop 4096).take 4096, (b.drop 8192).take 4096, u b 8 8⟩ ∧ crc32c c.t0 = u b 12288 4 ∧ crc32c c.t1 = u b 12292 4 ∧ crc32c c.t2 = u b 12296 4 ∧ calBad c [0, 1, 2] = none ∧ c.activation ≠ 0) (q1 0xB1 [(2, 0x1000), (4, 12396)]) (calBuf (wSound 99) (sigBlock 2 7 svM)) svM (wSound 99) :=
  ⟨by decide +kernel, ((wSound_reads 99 (.inl rfl) (sigBlock 2 7 svM) (by decide +kernel)).1), by decide +kernel, ((wSound_reads 99 (.inl rfl) (sigBlock 2 7 svM) (by decide +kernel)).2.1), ((wSound_reads 99 (.inl rfl) (sigBlock 2 7 svM) (by decide +kernel)).2.2.1), ((wSound_reads 99 (.inl rfl) (sigBlock 2 7 svM) (by decide +kernel)).2.2.2.1), ((wSound_reads 99 (.inl rfl) (sigBlock 2 7 svM) (by decide +kernel)).2.2.2.2), (wSound_good 99 (.inl rfl)), by decide +kernel⟩

theorem hypotheses_met_BillingCommands_11 :
    (fun (q : Sqe) (b : List Byte) (s : State) (c : Calendar) => SgTaken 0xB1 q s ∧ b.length = 12396 ∧ 12396 ≤ sd q 4 ∧ c = ⟨b.take 4096, (b.drop 4096).take 4096, (b.drop 8192).take 4096, u b 8 8⟩ ∧ crc32c c.t0 = u b 12288 4 ∧ crc32c c.t1 = u b 12292 4 ∧ crc32c c.t2 = u b 12296 4 ∧ calBad c [0, 1, 2] = none ∧ c.activation = 0 ∧ s.bte.off.isSome = true) (q1 0xB1 [(2, 0x1000), (4, 12396)]) (calBuf (wSound 0) (sigBlock 2 7 svM)) svM (wSound 0) :=
  ⟨by decide +kernel, ((wSound_reads 0 (.inr rfl) (sigBlock 2 7 svM) (by decide +kernel)).1), by decide +kernel, ((wSound_reads 0 (.inr rfl) (sigBlock 2 7 svM) (by decide +kernel)).2.1), ((wSound_reads 0 (.inr rfl) (sigBlock 2 7 svM) (by decide +kernel)).2.2.1), ((wSound_reads 0 (.inr rfl) (sigBlock 2 7 svM) (by decide +kernel)).2.2.2.1), ((wSound_reads 0 (.inr rfl) (sigBlock 2 7 svM) (by decide +kernel)).2.2.2.2), (wSound_good 0 (.inr rfl)), by and_intros <;> decide +kernel⟩

theorem hypotheses_met_BillingCommands_12 :
    (fun (q : Sqe) (b : List Byte) (s : State) (c : Calendar) => SgTaken 0xB1 q s ∧ b.length = 12396 ∧ 12396 ≤ sd q 4 ∧ c = ⟨b.take 4096, (b.drop 4096).take 4096, (b.drop 8192).take 4096, u b 8 8⟩ ∧ crc32c c.t0 = u b 12288 4 ∧ crc32c c.t1 = u b 12292 4 ∧ crc32c c.t2 = u b 12296 4 ∧ calBad c [0, 1, 2] = none ∧ sigOk 0xB1 q false b s = false) (q1 0xB1 [(2, 0x1000), (4, 12396)]) (calBuf (wSound 99) (sigBlock 1 7 svM)) svM (wSound 99) :=
  ⟨by decide +kernel, ((wSound_reads 99 (.inl rfl) (sigBlock 1 7 svM) (by decide +kernel)).1), by decide +kernel, ((wSound_reads 99 (.inl rfl) (sigBlock 1 7 svM) (by decide +kernel)).2.1), ((wSound_reads 99 (.inl rfl) (sigBlock 1 7 svM) (by decide +kernel)).2.2.1), ((wSound_reads 99 (.inl rfl) (sigBlock 1 7 svM) (by decide +kernel)).2.2.2.1), ((wSound_reads 99 (.inl rfl) (sigBlock 1 7 svM) (by decide +kernel)).2.2.2.2), (wSound_good 99 (.inl rfl)), by decide +kernel⟩

theorem hypotheses_met_Tokens :
    ((fun (q : Sqe) (s : State) (d : List Nat) (n : Nat) (id : Nat) (v : Nat) (key : List Byte) => SgTaken 0xB3 q s ∧ sd q 1 < 16 ∧ d = (sdBytes q 6 5).map BitVec.toNat ∧ n = d.foldl (fun a x => a * 10 + (x - 0x30)) 0 ∧ s.bte.credit.length = 16 ∧ s.bte.locked 255 = false ∧ s.prepaidEnabled (sd q 1) = true ∧ (∀ x ∈ d, 0x30 ≤ x ∧ x ≤ 0x39) ∧ n < 2 ^ 66 ∧ s.mss.token = some key ∧ n % 2 ^ 20 = tokenMac key s.mss.serial.toNat n ∧ id = n / 2 ^ 40 % 2 ^ 24 ∧ s.bte.lwm ≤ id ∧ s.bte.used.contains id = false ∧ v = n / 2 ^ 24 % 65536 * 10 ^ (n / 2 ^ 20 % 16) ∧ n / 2 ^ 64 = 0 ∧ n / 2 ^ 20 % 16 ≤ 9 ∧ (s.bte.credit.getD (sd q 1) (0, 0)).1 + (v : Int) ≤ 2147483647) (qTok (wTok 9 3 1) 15) svM ((sdBytes (qTok (wTok 9 3 1) 15) 6 5).map BitVec.toNat) (wTok 9 3 1) 9 30 (zeros 16)) ∧
    ((fun (q : Sqe) (s : State) => SgTaken 0xB3 q s ∧ sd q 1 < 16 ∧ s.bte.locked 255 = true) (qTok 5 15) (svB { wBte with fails := [(255, [3600000000, 3599999000, 3599998000, 3599997000, 3599996000])] })) ∧
    ((fun (q : Sqe) (s : State) => SgTaken 0xB3 q s ∧ sd q 1 < 16 ∧ s.bte.locked 255 = false ∧ s.prepaidEnabled (sd q 1) = false) (qTok 5 14) svM) ∧
    ((fun (q : Sqe) (s : State) => SgTaken 0xB3 q s ∧ sd q 1 < 16 ∧ s.bte.locked 255 = false ∧ s.prepaidEnabled (sd q 1) = true ∧ (∃ x ∈ (sdBytes q 6 5).map BitVec.toNat, x < 0x30 ∨ 0x39 < x)) (q1 0xB3 [(1, 15), (6, 0x30303030), (7, 0x30303030), (8, 0x30303030), (9, 0x30303030), (10, 0x3A303030)]) svM) ∧
    ((fun (s : State) => s.bteRuns = true) svM) ∧
    ((fun (s : State) => s.bteRuns = true) svM) ∧
    ((fun (s : State) => s.mss.restarting = true) ({ svM with mss := { svM.mss with restarting := true } })) ∧
    ((fun (s : State) => s.mss.restarting = true) ({ svM with mss := { svM.mss with restarting := true } })) ∧
    ((fun (kp : Nat) (s : State) (l : List Nat) => look kp s.bte.fails = some l ∧ l.length ≤ 5 ∧ l.getD 4 0 + 3600000000 ≤ s.bte.up) 255 (svB { wBte with fails := [(3, [8, 7]), (255, [4, 3, 2, 1, 0])] }) ([4, 3, 2, 1, 0])) ∧
    ((fun (kp : Nat) (s : State) (l : List Nat) => look kp s.bte.fails = some l ∧ l.length ≤ 5 ∧ l.getD 4 0 + 3600000000 ≤ s.bte.up) 3 (svB { wBte with fails := [(3, [8, 7]), (255, [4, 3, 2, 1, 0])] }) ([8, 7])) ∧
    ((fun (kp : Nat) (s : State) (l : List Nat) => look kp s.bte.fails = some l ∧ l.length = 5 ∧ (∀ x ∈ l, s.bte.up < x + 3600000000)) 255 (svB { wBte with fails := [(3, [8, 7]), (255, [3600000000, 3599999000, 3599998000, 3599997000, 1])] }) ([3600000000, 3599999000, 3599998000, 3599997000, 1])) :=
  by and_intros <;> decide +kernel

theorem hypotheses_met_Tokens_6 :
    (fun (s : State) (s1 : State) (r : (Nat × Nat) × State) (node : Nat) (hold : Nat) (digits : List Nat) (rest : List (CrossMsg × Nat)) => s.bteRuns = true ∧ s.lnk.inSg = (.token node digits, hold) :: rest ∧ s1 = s.start.onLnk (fun l => { l with inSg := rest }) ∧ r = s1.token node 0xFF digits) (wMsg (.token 7 (digits20 (wTok 9 3 1))) 5 svM) ((wMsg (.token 7 (digits20 (wTok 9 3 1))) 5 svM).start.onLnk (fun l => { l with inSg := [] })) (((wMsg (.token 7 (digits20 (wTok 9 3 1))) 5 svM).start.onLnk (fun l => { l with inSg := [] })).token 7 0xFF (digits20 (wTok 9 3 1))) 7 5 (digits20 (wTok 9 3 1)) ([]) :=
  ⟨by decide +kernel, by decide +kernel, (rfl), (rfl)⟩

theorem hypotheses_met_Tokens_6b :
    (fun (s : State) (s1 : State) (r : (Nat × Nat) × State) (node : Nat) (hold : Nat) (digits : List Nat) (rest : List (CrossMsg × Nat)) => s.bteRuns = true ∧ s.lnk.inSg = (.token node digits, hold) :: rest ∧ s1 = s.start.onLnk (fun l => { l with inSg := rest }) ∧ r = s1.token node 0xFF digits) (wMsg (.token 7 [48]) 5 svM) ((wMsg (.token 7 [48]) 5 svM).start.onLnk (fun l => { l with inSg := [] })) (((wMsg (.token 7 [48]) 5 svM).start.onLnk (fun l => { l with inSg := [] })).token 7 0xFF [48]) 7 5 ([48]) ([]) :=
  ⟨by decide +kernel, by decide +kernel, (rfl), (rfl)⟩

theorem hypotheses_met_BillingSessions :
    ((fun (s : State) (n : Nat) (p : Nat) (hold : Nat) (pre : Bool) (rest : List (CrossMsg × Nat)) => s.bteRuns = true ∧ s.lnk.inSg = (.open n p pre, hold) :: rest) (wMsg (.open 40 15 true) 5 { svM with lnk := { svM.lnk with toSt := [(.credit 3 1, 5)] } }) 40 15 5 true ([])) ∧
    ((fun (s : State) (n : Nat) (p : Nat) (hold : Nat) (pre : Bool) (rest : List (CrossMsg × Nat)) => s.bteRuns = true ∧ s.lnk.inSg = (.open n p pre, hold) :: rest) (wMsg (.open 40 13 false) 5 { svSg { wSgm .battery with faults := List.replicate 40 1 } with bte := wBte }) 40 13 5 false ([])) ∧
    ((fun (s : State) (n : Nat) (reason : Nat) (hold : Nat) (x : BteSess) (rest : List (CrossMsg × Nat)) => s.bteRuns = true ∧ s.lnk.inSg = (.close n reason, hold) :: rest ∧ s.bte.sess.find? (fun y => y.number == n) = some x) (wMsg (.close 40 3) 5 (svB { wBte with sess := [wBSess 39 1 true, wBSess 40 15 true] })) 40 3 5 (wBSess 40 15 true) ([])) ∧
    ((fun (s : State) (cause : Nat) (hold : Nat) (rest : List (CrossMsg × Nat)) => s.bteRuns = true ∧ s.lnk.inSg = (.resync cause, hold) :: rest ∧ s.mss.recordSeq < 2 ^ 32) (wMsg (.resync 2) 5 (svB { wBte with sess := [wBSess 39 1 true, wBSess 40 15 true] })) 2 5 ([])) ∧
    ((fun (s : State) => s.sgm.mode = .normal ∧ s.mss.restarting = false ∧ s.bte.rate < 16 ∧ s.bte.trDc.length = 16 ∧ s.bte.steps = [] ∧ s.sgm.acc.length = 64 ∧ s.sgm.res.length = 64) (svBO { wBte with sess := [wBSess 39 1 true, wBSess 40 15 true] })) ∧
    ((fun (s : State) => s.sgm.mode = .normal ∧ s.mss.restarting = false ∧ s.bte.rate < 16 ∧ s.bte.trDc.length = 16 ∧ s.bte.steps = [] ∧ s.sgm.acc.length = 64 ∧ s.sgm.res.length = 64) (svBO { wBte with sess := [wBSess 39 1 true, wBSess 40 15 true] })) ∧
    ((fun (s : State) => s.sgm.mode = .normal ∧ s.mss.restarting = false ∧ s.bte.rate < 16 ∧ s.bte.trDc.length = 16 ∧ s.bte.steps = [] ∧ s.sgm.acc.length = 64 ∧ s.sgm.res.length = 64) (svBO { wBte with sess := [wBSess 39 1 true, wBSess 40 15 false] })) ∧
    ((fun (s : State) => s.mss.restarting = true) ({ svM with mss := { svM.mss with restarting := true } })) :=
  by and_intros <;> decide +kernel

theorem hypotheses_met_BillingTime :
    ((fun (s : State) (o : Int) (b : Nat) (e : Nat) (dur : Nat) (d : Nat) => s.sgm.runs = true ∧ s.bte.off = some o ∧ b = s.bte.lTime / (s.bte.lenMs * 1000) * (s.bte.lenMs * 1000) ∧ dur = (s.bte.up - s.bte.open_.startUp) / 1000 ∧ e = regIncrease (s.bte.open_.regs.getD 0x20 0) (s.sgm.acc.getD 0x20 0) ∧ d = rneDivN (e * 3600) (max dur s.bte.lenMs) ∧ s.bte.closed < b ∧ b < 2 ^ 64 ∧ s.bte.open_.seq < 2 ^ 32 ∧ s.bte.open_.rate < s.bte.mdImp.length) ({ svB { wBte with open_ := { wBte.open_ with rate := 15, startUp := 5 }, up := 9000000000, mdImp := List.replicate 16 (1, 2) } with sgm := { wSgm .normal with acc := List.replicate 64 123456789012 } }) 1700000000000000 (1700009000000000 / 900000000 * 900000000) (123456789012 / 100000) 8999999 ((123456789012 / 100000 * 3600 + 4499999) / 8999999)) ∧
    ((fun (s : State) (o : Int) (b : Nat) (e : Nat) (dur : Nat) (d : Nat) => s.sgm.runs = true ∧ s.bte.off = some o ∧ b = s.bte.lTime / (s.bte.lenMs * 1000) * (s.bte.lenMs * 1000) ∧ dur = (s.bte.up - s.bte.open_.startUp) / 1000 ∧ e = regIncrease (s.bte.open_.regs.getD 0x20 0) (s.sgm.acc.getD 0x20 0) ∧ d = rneDivN (e * 3600) (max dur s.bte.lenMs) ∧ b ≤ s.bte.closed) (svB { wBte with closed := 1700003600000000 / 900000000 * 900000000 }) 1700000000000000 (1700003600000000 / 900000000 * 900000000) 0 3600000 0) ∧
    ((fun (s : State) (o : Int) (c : Calendar) (date : Nat) => s.sgm.runs = true ∧ s.bte.off = some o ∧ s.bte.cal = some c ∧ date = c.localAt s.bte.lTime / 86400000000 ∧ date ≠ c.localAt (s.bte.lTime - 125) / 86400000000 ∧ c.billingDay ≠ 0 ∧ (civil date).2.2 = c.billingDay ∧ s.bte.periodDates.contains date = false) (svB { wBte with up := 6400000000, cal := some (wCalendar 1 3 14) }) 1700000000000000 (wCalendar 1 3 14) 19676) ∧
    ((fun (s : State) (o : Int) (c : Calendar) (date : Nat) => s.sgm.runs = true ∧ s.bte.off = some o ∧ s.bte.cal = some c ∧ date = c.localAt s.bte.lTime / 86400000000 ∧ date ≠ c.localAt (s.bte.lTime - 125) / 86400000000 ∧ c.billingDay ≠ 0 ∧ (civil date).2.2 = c.billingDay ∧ s.bte.periodDates.contains date = true) (svB { wBte with up := 6400000000, cal := some (wCalendar 1 3 14), periodDates := [19676] }) 1700000000000000 (wCalendar 1 3 14) 19676) ∧
    ((fun (s : State) (o : Int) (c : Calendar) (date : Nat) => s.bte.off = some o ∧ s.bte.cal = some c ∧ date = c.localAt s.bte.lTime / 86400000000 ∧ (c.billingDay = 0 ∨ (civil date).2.2 ≠ c.billingDay)) (svB wBte) 1700000000000000 (wCalendar 1 3 0) 19675) ∧
    ((fun (s : State) (o : Int) (c : Calendar) (date : Nat) => s.bte.off = some o ∧ s.bte.cal = some c ∧ date = c.localAt s.bte.lTime / 86400000000 ∧ (c.billingDay = 0 ∨ (civil date).2.2 ≠ c.billingDay)) (svB { wBte with up := 6400000000, cal := some (wCalendar 1 3 13) }) 1700000000000000 (wCalendar 1 3 13) 19676) ∧
    ((fun (s : State) (c : Calendar) => (s.sgm.runs = false ∨ s.bte.off = none ∨ s.bte.cal = none ∨ s.bte.cal = some c ∧ c.localAt s.bte.lTime / 86400000000 = c.localAt (s.bte.lTime - 125) / 86400000000)) (svB Bte.reset) (wCalendar 1 3 13)) ∧
    ((fun (s : State) (c : Calendar) => (s.sgm.runs = false ∨ s.bte.off = none ∨ s.bte.cal = none ∨ s.bte.cal = some c ∧ c.localAt s.bte.lTime / 86400000000 = c.localAt (s.bte.lTime - 125) / 86400000000)) (svB { wBte with cal := some (wCalendar 1 3 13) }) (wCalendar 1 3 13)) ∧
    ((fun (s : State) (o : Int) (c : Calendar) (a : Bool) (b : Bool) => s.bte.off = some o ∧ s.bte.calNext = some c ∧ s.bte.nextCopies = (some c, some c) ∧ c.activation ≤ s.bte.lTime / 60000000 * 60000000 ∧ s.bte.lTime % 60000000 < 125 ∧ (a && b) = false) (svB { wBte with up := 3640000000, calNext := some (wCalendar 2 4 14), nextCopies := (some (wCalendar 2 4 14), some (wCalendar 2 4 14)) }) 1700000000000000 (wCalendar 2 4 14) true false) ∧
    ((fun (s : State) (o : Int) (c : Calendar) (a : Bool) (b : Bool) => s.bte.off = some o ∧ s.bte.calNext = some c ∧ s.bte.nextCopies = (some c, some c) ∧ c.activation ≤ s.bte.lTime / 60000000 * 60000000 ∧ s.bte.lTime % 60000000 < 125 ∧ (a && b) = false) (svB { wBte with up := 3640000000, calNext := some (wCalendar 2 3 14), nextCopies := (some (wCalendar 2 3 14), some (wCalendar 2 3 14)) }) 1700000000000000 (wCalendar 2 3 14) false true) ∧
    ((fun (s : State) (o : Int) (c : Calendar) => s.bte.off = some o ∧ s.bte.calNext = some c ∧ s.bte.nextCopies = (some c, some c) ∧ c.activation ≤ s.bte.lTime / 60000000 * 60000000 ∧ s.bte.lTime % 60000000 < 125) (svB { wBte with up := 3640000000, calNext := some (wCalendar 2 4 14), nextCopies := (some (wCalendar 2 4 14), some (wCalendar 2 4 14)) }) 1700000000000000 (wCalendar 2 4 14)) ∧
    ((fun (s : State) (c : Calendar) => (s.bte.off = none ∨ s.bte.calNext = none ∨ s.bte.calNext = some c ∧ (s.bte.lTime / 60000000 * 60000000 < c.activation ∨ 125 ≤ s.bte.lTime % 60000000))) (svB Bte.reset) (wCalendar 2 4 14)) ∧
    ((fun (s : State) (c : Calendar) => (s.bte.off = none ∨ s.bte.calNext = none ∨ s.bte.calNext = some c ∧ (s.bte.lTime / 60000000 * 60000000 < c.activation ∨ 125 ≤ s.bte.lTime % 60000000))) (svB { wBte with calNext := some (wCalendar 2 4 14) }) (wCalendar 2 4 14)) ∧
    ((fun (s : State) (o : Int) (c : Calendar) => s.bte.off = some o ∧ s.bte.cal = some c) (svB { wBte with rate := 7 }) 1700000000000000 (wCalendar 1 3 0)) ∧
    ((fun (s : State) => (s.bte.off = none ∨ s.bte.cal = none)) (svB { Bte.reset with rate := 7 })) ∧
    ((fun (s : State) (c : Calendar) => s.bte.cal = some c ∧ s.bte.calCopies = (some c, some c)) (svB { wBte with calCopies := (some (wCalendar 1 3 0), some (wCalendar 1 3 0)) }) (wCalendar 1 3 0)) ∧
    ((fun (s : State) (st : ClockStep) (o : Int) (new : Nat) => s.sgm.mode = .settling ∧ s.mss.restarting = false ∧ s.bte.off = some o ∧ s.bte.steps = [st] ∧ st.cls = 1 ∧ new = ((s.bte.up : Int) + st.off).toNat) ({ svB { wBte with steps := [⟨1700000900000000, 1, 7⟩] } with sgm := wSgm .settling }) (⟨1700000900000000, 1, 7⟩) 1700000000000000 1700004500000000) ∧
    ((fun (s : State) (st : ClockStep) (o : Int) (new : Nat) => s.sgm.mode = .settling ∧ s.mss.restarting = false ∧ s.bte.off = some o ∧ s.bte.steps = [st] ∧ st.cls = 1 ∧ new = ((s.bte.up : Int) + st.off).toNat) ({ svB { wBte with steps := [⟨1600000900000000, 1, 7⟩] } with sgm := wSgm .settling }) (⟨1600000900000000, 1, 7⟩) 1700000000000000 1600004500000000) ∧
    ((fun (s : State) (st : ClockStep) => s.sgm.mode = .settling ∧ s.mss.restarting = false ∧ s.bte.steps = [st] ∧ st.cls = 0) ({ svB { wBte with steps := [⟨1700000900000000, 0, 7⟩] } with sgm := wSgm .settling }) (⟨1700000900000000, 0, 7⟩)) ∧
    ((fun (s : State) (st : ClockStep) => s.sgm.mode = .settling ∧ s.mss.restarting = false ∧ s.bte.steps = [st] ∧ st.cls = 2 ∧ s.bte.off = none) ({ svB { wBte with off := none, steps := [⟨1700000900000000, 2, 7⟩] } with sgm := wSgm .settling }) (⟨1700000900000000, 2, 7⟩)) ∧
    ((fun (s : State) => s.sgm.runs = false) ({ svB wBte with sgm := wSgm .off })) ∧
    ((fun (s : State) (c : Calendar) => (s.sgm.runs = false ∨ s.bte.off = none ∨ s.bte.cal = none ∨ s.bte.cal = some c ∧ c.localAt s.bte.lTime / 86400000000 = c.localAt (s.bte.lTime - 125) / 86400000000)) ({ svB wBte with sgm := wSgm .off }) (wCalendar 1 3 13)) :=
  by and_intros <;> decide +kernel

theorem hypotheses_met_SealProcedure :
    ((fun (q : Sqe) (b : List Byte) (s : State) => SgTaken 0xC3 q s ∧ bits (sd q 6) 3 0 = 0 ∧ b.length = 128 ∧ 128 ≤ sd q 4 ∧ s.mss.sealSt = 0 ∧ s.mss.prot.length + 16 < 1024) (q1 0xC3 [(2, 0x1000), (4, 128)]) (zeros 32 ++ sigBlock 1 7 (svMs wMss)) (svMs wMss)) ∧
    ((fun (q : Sqe) (b : List Byte) (s : State) => SgTaken 0xC3 q s ∧ bits (sd q 6) 3 0 = 0 ∧ b.length = 128 ∧ 128 ≤ sd q 4 ∧ s.mss.sealSt = 0 ∧ s.mss.prot.length + 16 < 1024) (q1 0xC3 [(2, 0x1000), (4, 128)]) (zeros 32 ++ sigBlock 1 7 (svMs wMss)) (svMs { wMss with prot := List.replicate 1007 (0, zeros 64) })) ∧
    ((fun (q : Sqe) (b : List Byte) (s : State) => SgTaken 0xC3 q s ∧ bits (sd q 6) 3 0 = 0 ∧ b.length = 128 ∧ 128 ≤ sd q 4 ∧ (s.mss.sealSt ≠ 0 ∨ 1024 ≤ s.mss.prot.length + 16)) (q1 0xC3 [(2, 0x1000), (4, 128)]) (zeros 128) (svMs { wMss with sealSt := 2 })) ∧
    ((fun (q : Sqe) (b : List Byte) (s : State) => SgTaken 0xC3 q s ∧ bits (sd q 6) 3 0 = 0 ∧ b.length = 128 ∧ 128 ≤ sd q 4 ∧ (s.mss.sealSt ≠ 0 ∨ 1024 ≤ s.mss.prot.length + 16)) (q1 0xC3 [(2, 0x1000), (4, 128)]) (zeros 128) (svMs { wMss with prot := List.replicate 1008 (0, zeros 64) })) ∧
    ((fun (q : Sqe) (b : List Byte) (s : State) => SgTaken 0xC3 q s ∧ bits (sd q 6) 3 0 = 0 ∧ b.length = 128 ∧ 128 ≤ sd q 4 ∧ s.mss.sealSt = 0 ∧ s.mss.prot.length + 16 < 1024 ∧ sigOk 0xC3 q true b s = false) (q1 0xC3 [(2, 0x1000), (4, 128)]) (zeros 128) (svMs wMss)) ∧
    ((fun (q : Sqe) (b : List Byte) (s : State) => SgTaken 0xC3 q s ∧ bits (sd q 6) 3 0 = 1 ∧ b.length ≤ sd q 4 ∧ s.mss.sealSt = 1 ∧ s.mss.staging.length + b.length ≤ 4194304) (q1 0xC3 [(2, 0x1000), (4, 4096), (6, 1)]) (zeros 4096) (svMs { wMss with sealSt := 1, staging := [1] })) ∧
    ((fun (q : Sqe) (b : List Byte) (s : State) => SgTaken 0xC3 q s ∧ bits (sd q 6) 3 0 = 1 ∧ b.length ≤ sd q 4 ∧ (s.mss.sealSt ≠ 1 ∨ 4194304 < s.mss.staging.length + b.length)) (q1 0xC3 [(2, 0x1000), (4, 4096), (6, 1)]) (zeros 4096) (svMs { wMss with sealSt := 0 })) ∧
    ((fun (q : Sqe) (s : State) => SgTaken 0xC3 q s ∧ bits (sd q 6) 3 0 = 2 ∧ sd q 2 = 0 ∧ sd q 3 = 0 ∧ sd q 4 = 0 ∧ s.mss.sealSt = 1 ∧ (s.mss.coverSeen = false ∨ s.mss.cover = true ∨ sha256 s.mss.staging ≠ s.mss.hash)) (q1 0xC3 [(6, 2)]) (svMs { wMss with sealSt := 1 })) ∧
    ((fun (q : Sqe) (s : State) => SgTaken 0xC3 q s ∧ bits (sd q 6) 3 0 = 2 ∧ sd q 2 = 0 ∧ sd q 3 = 0 ∧ sd q 4 = 0 ∧ s.mss.sealSt = 1 ∧ (s.mss.coverSeen = false ∨ s.mss.cover = true ∨ sha256 s.mss.staging ≠ s.mss.hash)) (q1 0xC3 [(6, 2)]) (svMs { wMss with sealSt := 1, coverSeen := true, cover := true })) ∧
    ((fun (q : Sqe) (s : State) => SgTaken 0xC3 q s ∧ bits (sd q 6) 3 0 = 2 ∧ sd q 2 = 0 ∧ sd q 3 = 0 ∧ sd q 4 = 0 ∧ s.mss.sealSt ≠ 1) (q1 0xC3 [(6, 2)]) (svMs { wMss with sealSt := 2 })) ∧
    ((fun (q : Sqe) (s : State) => SgTaken 0xC3 q s ∧ bits (sd q 6) 3 0 = 3 ∧ sd q 2 = 0 ∧ sd q 3 = 0 ∧ sd q 4 = 0 ∧ s.mss.sealSt = 1) (q1 0xC3 [(6, 3)]) (svMs { wMss with sealSt := 1, staging := [4] })) ∧
    ((fun (s : State) => s.mss.sealSt = 1) (svMs { wMss with sealSt := 1, staging := [4] })) ∧
    ((fun (s : State) => s.mss.restarting = true ∧ s.mss.waiting = []) ({ svB { wBte with carryQ := [(1, 100000), (15, 7)], sess := [wBSess 40 15 true] } with mss := { wMss with restarting := true } })) ∧
    ((fun (s : State) q b => s.mss.restarting = true ∧ s.mss.waiting = [(q, b)] ∧ opOf q = 0xC5 ∧ 240 ≤ sd q 4) (svMs { wMss with restarting := true, waiting := [(q1 0xC5 [(2, 0x1000), (4, 240)], [])] }) (q1 0xC5 [(2, 0x1000), (4, 240)]) ([])) ∧
    ((fun (s : State) (old : List Byte × Nat) => s.mss.imageOld = some old ∧ s.bte.up ≤ s.mss.imageAt + 10000000) (svMs { wMss with imageOld := some (zeros 32, 3), imageAt := 3600000000 - 10000000 }) ((zeros 32, 3))) ∧
    ((fun (s : State) (old : List Byte × Nat) => s.mss.imageOld = some old ∧ s.mss.imageAt + 10000000 < s.bte.up) (svMs { wMss with imageOld := some (zeros 32, 3), imageAt := 3600000000 - 10000001 }) ((zeros 32, 3))) ∧
    ((fun (q : Sqe) (s : State) => Taken 0xC3 q s ∧ s.lnk.up = true ∧ s.sgm.runs = true ∧ s.mss.restarting = true) (q1 0xC3 [(2, 0x1000), (4, 128)]) (svMs { wMss with restarting := true })) :=
  by and_intros <;> decide +kernel

theorem hypotheses_met_SealProcedure_6 :
    (fun (q : Sqe) (s : State) items => SgTaken 0xC3 q s ∧ bits (sd q 6) 3 0 = 2 ∧ sd q 2 = 0 ∧ sd q 3 = 0 ∧ sd q 4 = 0 ∧ s.mss.sealSt = 1 ∧ s.mss.coverSeen = true ∧ s.mss.cover = false ∧ sha256 s.mss.staging = s.mss.hash ∧ packageItems (s.mss.staging.length + 1) s.mss.staging = some items) (q1 0xC3 [(6, 2)]) (wClose (wItem 1 wCalOk)) ([(1, wCalOk)]) :=
  by refine ⟨?_, ?_, ?_, ?_, ?_, ?_, ?_, ?_, (rfl), ?_⟩ <;> decide +kernel

theorem hypotheses_met_SealProcedure_6b :
    (fun (q : Sqe) (s : State) items => SgTaken 0xC3 q s ∧ bits (sd q 6) 3 0 = 2 ∧ sd q 2 = 0 ∧ sd q 3 = 0 ∧ sd q 4 = 0 ∧ s.mss.sealSt = 1 ∧ s.mss.coverSeen = true ∧ s.mss.cover = false ∧ sha256 s.mss.staging = s.mss.hash ∧ packageItems (s.mss.staging.length + 1) s.mss.staging = some items) (q1 0xC3 [(6, 2)]) (wClose (wItem 2 (zeros 5))) ([(2, zeros 5)]) :=
  by refine ⟨?_, ?_, ?_, ?_, ?_, ?_, ?_, ?_, (rfl), ?_⟩ <;> decide +kernel

theorem hypotheses_met_SealProcedure_6c :
    (fun (q : Sqe) (s : State) items => SgTaken 0xC3 q s ∧ bits (sd q 6) 3 0 = 2 ∧ sd q 2 = 0 ∧ sd q 3 = 0 ∧ sd q 4 = 0 ∧ s.mss.sealSt = 1 ∧ s.mss.coverSeen = true ∧ s.mss.cover = false ∧ sha256 s.mss.staging = s.mss.hash ∧ packageItems (s.mss.staging.length + 1) s.mss.staging = some items) (q1 0xC3 [(6, 2)]) (wClose (wItem 4 (zeros 24))) ([(4, zeros 24)]) :=
  by refine ⟨?_, ?_, ?_, ?_, ?_, ?_, ?_, ?_, (rfl), ?_⟩ <;> decide +kernel

theorem hypotheses_met_SealAndReads :
    ((fun (s : State) => s.mss.cover = false ∧ s.sgm.watches = true ∧ s.mss.sealSt ≠ 1) (svMs wMss)) ∧
    ((fun (s : State) => s.mss.cover = false ∧ s.sgm.watches = true ∧ s.mss.sealSt ≠ 1) (svMs { wMss with sealSt := 2, coverSeen := true })) ∧
    ((fun (s : State) => s.mss.cover = false ∧ s.sgm.watches = true ∧ s.mss.sealSt = 1 ∧ s.mss.coverSeen = false) (svMs { wMss with sealSt := 1 })) ∧
    ((fun (s : State) => s.mss.cover = false ∧ s.sgm.watches = true ∧ s.mss.sealSt = 1 ∧ s.mss.coverSeen = true) (svMs { wMss with sealSt := 1, coverSeen := true })) ∧
    ((fun (s : State) => s.mss.cover = true) (svMs { wMss with cover := true })) ∧
    ((fun (q : Sqe) (b : List Byte) (s : State) => SgTaken 0xC4 q s ∧ b.length = 96 ∧ 96 ≤ sd q 4) (q1 0xC4 [(2, 0x1000), (4, 96)]) (sigBlock 1 7 (svMs wMss)) (svMs wMss)) ∧
    ((fun (q : Sqe) (b : List Byte) (s : State) => SgTaken 0xC4 q s ∧ b.length = 96 ∧ 96 ≤ sd q 4 ∧ sigOk 0xC4 q true b s = false) (q1 0xC4 [(2, 0x1000), (4, 96)]) (sigBlock 2 7 (svMs wMss)) (svMs wMss)) ∧
    ((fun (q : Sqe) (s : State) => SgTaken 0xC0 q s ∧ 136 ≤ sd q 4) (q1 0xC0 [(2, 0x1000), (4, 136)]) (svMs wMss)) ∧
    ((fun (q : Sqe) (s : State) (store : List (Nat × List Byte)) (l : List (Nat × List Byte)) => SgTaken 0xC1 q s ∧ 1 ≤ bits (sd q 7) 15 8 ∧ bits (sd q 7) 15 8 ≤ 64 ∧ 32 + 1472 * bits (sd q 7) 15 8 + 128 ≤ sd q 4 ∧ (bits (sd q 7) 1 0 = 1 ∧ store = s.mss.sessions ∨ bits (sd q 7) 1 0 = 2 ∧ store = s.mss.periods) ∧ l = (store.filter (fun x => decide (sd q 6 ≤ x.1))).take (bits (sd q 7) 15 8)) (q1 0xC1 [(2, 0x1000), (4, 3104), (6, 5), (7, 0x201)]) (svMs { wMss with sessions := wRec 4 1472 }) (wRec 4 1472) ((wRec 4 1472).drop 1)) ∧
    ((fun (q : Sqe) (s : State) (store : List (Nat × List Byte)) (l : List (Nat × List Byte)) => SgTaken 0xC1 q s ∧ 1 ≤ bits (sd q 7) 15 8 ∧ bits (sd q 7) 15 8 ≤ 64 ∧ 32 + 1472 * bits (sd q 7) 15 8 + 128 ≤ sd q 4 ∧ (bits (sd q 7) 1 0 = 1 ∧ store = s.mss.sessions ∨ bits (sd q 7) 1 0 = 2 ∧ store = s.mss.periods) ∧ l = (store.filter (fun x => decide (sd q 6 ≤ x.1))).take (bits (sd q 7) 15 8)) (q1 0xC1 [(2, 0x1000), (4, 3104), (6, 0), (7, 0x102)]) (svMs { wMss with periods := wRec 4 1472 }) (wRec 4 1472) ((wRec 4 1472).take 1)) ∧
    ((fun (q : Sqe) (s : State) (l : List (Nat × List Byte)) => SgTaken 0xC2 q s ∧ 1 ≤ bits (sd q 7) 9 0 ∧ bits (sd q 7) 9 0 ≤ 512 ∧ 32 + 64 * bits (sd q 7) 9 0 + 128 ≤ sd q 4 ∧ l = (s.mss.entries.filter (fun x => decide (sd q 6 ≤ x.1))).take (bits (sd q 7) 9 0)) (q1 0xC2 [(2, 0x1000), (4, 3104), (6, 5), (7, 2)]) (svMs { wMss with prot := [(2, zeros 64)], ring := wRec 4 64 }) ((wRec 4 64).drop 1)) ∧
    ((fun (q : Sqe) (s : State) => SgTaken 0xC5 q s ∧ 240 ≤ sd q 4) (q1 0xC5 [(2, 0x1000), (4, 240)]) (svMs wMss)) ∧
    ((fun (s : State) => s.bteRuns = true) (svMs { wMss with line := 3 })) ∧
    ((fun (frame : List Byte) => (frame.length ≠ 70 ∨ u frame 0 4 ≠ 64 ∨ frame.drop 68 ≠ be 2 (crc16 (frame.take 68)))) ((wFrame (q1 0xC5 [(2, 0x1000), (4, 240)])).set 3 1)) ∧
    ((fun (frame : List Byte) => (frame.length ≠ 70 ∨ u frame 0 4 ≠ 64 ∨ frame.drop 68 ≠ be 2 (crc16 (frame.take 68)))) ([])) ∧
    ((fun (frame : List Byte) (s : State) => s.bteRuns = true ∧ frame.length = 70 ∧ u frame 0 4 = 64 ∧ frame.drop 68 = be 2 (crc16 (frame.take 68))) (wFrame (q1 0xC5 [(2, 0x1000), (4, 240)])) (svMs wMss)) ∧
    ((fun (frame : List Byte) (s : State) => s.bteRuns = true ∧ frame.length = 70 ∧ u frame 0 4 = 64 ∧ frame.drop 68 = be 2 (crc16 (frame.take 68))) (wFrame (q1 0xB3 [(1, 15)])) (svMs wMss)) ∧
    ((fun (s : State) => s.mss.cover = false ∧ s.sgm.watches = false) ({ svMs wMss with sgm := wSgm .off })) ∧
    ((fun (s : State) => s.mss.unseen = true) (svMs { wMss with cover := true, unseen := true })) ∧
    ((fun (s : State) => s.mss.unseen = true) ({ svMs { wMss with cover := true, unseen := true, sealSt := 2 } with sgm := wSgm .off })) ∧
    ((fun (s : State) => s.mss.unseen = false) (svMs { wMss with cover := true })) ∧
    ((fun (s : State) => s.mss.cover = true) ({ svMs { wMss with cover := true } with sgm := wSgm .off })) ∧
    ((fun (s : State) => s.mss.cover = true) (svMs { wMss with cover := true, openedOut := true, prot := [(9, zeros 64)] })) ∧
    ((fun (q : Sqe) (s : State) => s.lnk.up = true ∧ s.sgm.runs = true ∧ s.mss.restarting = true ∧ Taken 0xC0 q s) (q1 0xC0 [(2, 0x1000), (4, 136)]) (svMs { wMss with restarting := true })) ∧
    ((fun (q : Sqe) (s : State) => s.lnk.up = true ∧ s.sgm.runs = true ∧ s.mss.restarting = true ∧ Taken 0xC1 q s) (q1 0xC1 [(2, 0x1000), (4, 3104), (6, 5), (7, 0x201)]) (svMs { wMss with restarting := true })) ∧
    ((fun (q : Sqe) (s : State) => s.lnk.up = true ∧ s.sgm.runs = true ∧ s.mss.restarting = true ∧ Taken 0xC2 q s) (q1 0xC2 [(2, 0x1000), (4, 3104), (6, 5), (7, 2)]) (svMs { wMss with restarting := true })) ∧
    ((fun (q : Sqe) (s : State) => s.lnk.up = true ∧ s.sgm.runs = true ∧ s.mss.restarting = true ∧ Taken 0xC4 q s) (q1 0xC4 [(2, 0x1000), (4, 96)]) (svMs { wMss with restarting := true })) ∧
    ((fun (q : Sqe) (s : State) => s.lnk.up = true ∧ s.sgm.runs = true ∧ s.mss.restarting = true ∧ Taken 0xC5 q s) (q1 0xC5 [(2, 0x1000), (4, 240)]) (svMs { wMss with restarting := true })) ∧
    ((fun (s : State) => s.bteRuns = false) (svMs { wMss with restarting := true })) ∧
    ((fun (s : State) => s.bteRuns = false) (svMs { wMss with restarting := true })) :=
  by and_intros <;> decide +kernel

theorem hypotheses_met_SealCountNeverFalls :
    ∃ t, step { svMs wMss with pending := [.coverOpen] } = .next t ∧ t.mss.serial = (svMs wMss).mss.serial :=
  ⟨_, rfl, rfl⟩

theorem hypotheses_met_StringCommands :
    ((fun (q : Sqe) (s : State) (n : Nat) => Taken 0x70 q s ∧ bits (sd q 6) 5 0 = n ∧ sd q 1 ≤ 32 ∧ sd q 1 + n ≤ 33 ∧ 64 * n ≤ sd q 4) (q0 0x70 [(1, 29), (2, 0x1000), (4, 256), (6, 4)]) (svStr wStr) 4) ∧
    ((fun (q : Sqe) (s : State) => Taken 0x71 q s ∧ sd q 1 < 32 ∧ 176 ≤ sd q 4 ∧ (s.str (sd q 1)).on = true) (q0 0x71 [(1, 31), (2, 0x1000), (4, 176)]) (svStr wStr)) ∧
    ((fun (q : Sqe) (s : State) => Taken 0x71 q s ∧ sd q 1 < 32 ∧ 176 ≤ sd q 4 ∧ (s.str (sd q 1)).on = false) (q0 0x71 [(1, 30), (2, 0x1000), (4, 176)]) (svStr wStr)) ∧
    ((fun (q : Sqe) (s : State) (x : Str) (y : Str) (v : Nat) => Taken 0x72 q s ∧ sd q 1 < 32 ∧ sd q 1 < s.bse.strs.length ∧ x = s.str (sd q 1) ∧ x.on = true ∧ (s.conf.str (sd q 1)).capNom ≤ 2 * sd q 6 ∧ 2 * sd q 6 ≤ 3 * (s.conf.str (sd q 1)).capNom ∧ sd q 7 = 0 ∧ v = bits (sd q 8) 15 0 ∧ v ≤ 10000 ∧ s.sup.holdupReady = true ∧ s.cfg.isSome = true ∧ y = { x with cap := sd q 6, q := qOf v (sd q 6), anch := true, rested := false }) (q0 0x72 [(1, 31), (6, 25000), (7, 0), (8, 10000)]) (svStr wStr) wStr ({ wStr with cap := 25000, q := qOf 10000 25000, anch := true, rested := false }) 10000) ∧
    ((fun (q : Sqe) (s : State) (x : Str) (y : Str) (v : Nat) => Taken 0x72 q s ∧ sd q 1 < 32 ∧ sd q 1 < s.bse.strs.length ∧ x = s.str (sd q 1) ∧ x.on = true ∧ (s.conf.str (sd q 1)).capNom ≤ 2 * sd q 6 ∧ 2 * sd q 6 ≤ 3 * (s.conf.str (sd q 1)).capNom ∧ sd q 7 = 0 ∧ v = bits (sd q 8) 15 0 ∧ v ≤ 10000 ∧ s.sup.holdupReady = true ∧ s.cfg.isSome = true ∧ y = { x with cap := sd q 6, q := qOf v (sd q 6), anch := true, rested := false }) (q0 0x72 [(1, 31), (6, 75000), (7, 0), (8, 0)]) (svStr wStr) wStr ({ wStr with cap := 75000, q := qOf 0 75000, anch := true, rested := false }) 0) ∧
    ((fun (q : Sqe) (s : State) => Taken 0x72 q s ∧ sd q 1 ≤ 32 ∧ (s.str (sd q 1)).on = false ∧ sd q 7 < 4 ∧ bits (sd q 8) 15 0 ≤ 10000) (q0 0x72 [(1, 30), (6, 25000), (7, 3), (8, 10000)]) (svStr wStr)) ∧
    ((fun (q : Sqe) (s : State) => Taken 0x72 q s ∧ sd q 1 ≤ 32 ∧ (s.str (sd q 1)).on = false ∧ sd q 7 < 4 ∧ bits (sd q 8) 15 0 ≤ 10000) (q0 0x72 [(1, 32), (6, 25000), (7, 1), (8, 10000)]) (svStr wStr)) :=
  by and_intros <;> decide +kernel

theorem hypotheses_met_StringMillisecond :
    ((fun (s : State) (j : Nat) (x : Str) (r : StringRec) (b : SumBase) (i : Int) => s.siteUp = true ∧ j < 32 ∧ s.bse.strs.length = 32 ∧ x = s.str j ∧ r = s.conf.str j ∧ b = s.sumsOf r.group ∧ i = (if (s.pg r.group).st = .running then rneDiv (b.isum - x.base.isum) (b.icnt - x.base.icnt) else 0) ∧ x.on = true ∧ x.pend = false ∧ b.acc ≠ x.base.acc ∧ x.anch = true ∧ x.drift = false) (svStr wStr) 31 wStr wStrRec (⟨800, 3, 9700, 4, 7⟩) 3300) ∧
    ((fun (s : State) (j : Nat) (x : Str) (r : StringRec) (b : SumBase) (i : Int) => s.siteUp = true ∧ j < 32 ∧ s.bse.strs.length = 32 ∧ x = s.str j ∧ r = s.conf.str j ∧ b = s.sumsOf r.group ∧ i = (if (s.pg r.group).st = .running then rneDiv (b.isum - x.base.isum) (b.icnt - x.base.icnt) else 0) ∧ x.on = true ∧ x.pend = false ∧ b.acc ≠ x.base.acc ∧ x.anch = true ∧ x.drift = false) (svStr { wStr with q := 0, base := ⟨100, 1, 20000, 1, 4⟩, prev := some (-2000, 355000), hist := List.replicate 60 5 }) 31 ({ wStr with q := 0, base := ⟨100, 1, 20000, 1, 4⟩, prev := some (-2000, 355000), hist := List.replicate 60 5 }) wStrRec (⟨800, 3, 9700, 4, 7⟩) (-3433)) ∧
    ((fun (s : State) (j : Nat) (x : Str) (r : StringRec) (b : SumBase) (i : Int) => s.siteUp = true ∧ j < 32 ∧ s.bse.strs.length = 32 ∧ x = s.str j ∧ r = s.conf.str j ∧ b = s.sumsOf r.group ∧ i = (if (s.pg r.group).st = .running then rneDiv (b.isum - x.base.isum) (b.icnt - x.base.icnt) else 0) ∧ x.on = true ∧ x.pend = false ∧ b.acc = x.base.acc) (svStr { wStr with base := ⟨800, 3, 9700, 4, 7⟩ }) 31 ({ wStr with base := ⟨800, 3, 9700, 4, 7⟩ }) wStrRec (⟨800, 3, 9700, 4, 7⟩) 0) ∧
    ((fun (s : State) => s.siteUp = true) (svStr wStr)) ∧
    ((fun (r : StringRec) (x : Str) (sd : Nat) (sc : Nat) => sd = x.soc - x.unc r ∧ sc = min (x.soc + x.unc r) 10000 ∧ x.soc ≤ 10000 ∧ (x.nt = true ∨ x.sm = true ∨ x.anch = false)) wStrRec ({ wStr with sm := true }) 2500 7500) ∧
    ((fun (r : StringRec) (x : Str) (sd : Nat) (sc : Nat) t => sd = x.soc - x.unc r ∧ sc = min (x.soc + x.unc r) 10000 ∧ x.soc ≤ 10000 ∧ x.temp = some t ∧ x.nt = false ∧ x.sm = false ∧ x.anch = true ∧ x.vhigh = false ∧ x.vlow = false ∧ r.tChgMin ≤ t ∧ t ≤ r.tChgMax ∧ r.tDisMin ≤ t ∧ t ≤ r.tDisMax ∧ r.ll < r.lo ∧ r.hi < r.hh) wStrRec ({ wStr with rested := true, q := 14400000000, temp := some 4500 }) 700 900 4500) ∧
    ((fun (r : StringRec) (x : Str) (sd : Nat) (sc : Nat) t => sd = x.soc - x.unc r ∧ sc = min (x.soc + x.unc r) 10000 ∧ x.soc ≤ 10000 ∧ x.temp = some t ∧ x.nt = false ∧ x.sm = false ∧ x.anch = true ∧ x.vhigh = false ∧ x.vlow = false ∧ r.tChgMin ≤ t ∧ t ≤ r.tChgMax ∧ r.tDisMin ≤ t ∧ t ≤ r.tDisMax ∧ r.ll < r.lo ∧ r.hi < r.hh) ({ wStrRec with ll := 600 }) ({ wStr with rested := true, q := 167400000000, temp := some 0 }) 9200 9400 0) :=
  by and_intros <;> decide +kernel

theorem hypotheses_met_RestsAndCell :
    ((fun (s : State) (j : Nat) (soc : Nat) (x : Str) => j < s.bse.strs.length ∧ x = s.str j ∧ x.on = true ∧ 1800000 ≤ x.run ∧ x.corrected = false ∧ soc = ocvSoc (s.conf.str j).ocv x.volt) (svStr { wStr with run := 1800000 }) 31 5500 ({ wStr with run := 1800000 })) ∧
    ((fun (s : State) (j : Nat) (soc : Nat) (x : Str) => j < s.bse.strs.length ∧ x = s.str j ∧ x.on = true ∧ 1800000 ≤ x.run ∧ x.corrected = false ∧ soc = ocvSoc (s.conf.str j).ocv x.volt) (svStr { wStr with run := 1800000, socA := some 500, clean := true, net := 87840000000 }) 31 5500 ({ wStr with run := 1800000, socA := some 500, clean := true, net := 87840000000 })) ∧
    ((fun (s : State) (j : Nat) => ((s.str j).run < 1800000 ∨ (s.str j).corrected = true)) (svStr { wStr with run := 1799999 }) 31) ∧
    ((fun (s : State) (j : Nat) => ((s.str j).run < 1800000 ∨ (s.str j).corrected = true)) (svStr { wStr with run := 1800000, corrected := true }) 31) ∧
    ((fun (s : State) (j : Nat) => j < s.bse.strs.length ∧ (s.str j).on = true ∧ (s.str j).drift = false ∧ (s.conf.str j).restHours * 3600000 < (s.str j).since) (svStr { wStr with since := 604800001 }) 31) ∧
    ((fun (s : State) (j : Nat) => j < s.bse.strs.length ∧ (s.str j).on = true ∧ (s.str j).drift = false ∧ (s.str j).since ≤ (s.conf.str j).restHours * 3600000) (svStr { wStr with since := 604800000 }) 31) ∧
    ((fun (s : State) => s.siteUp = true ∧ s.sup.holdupReady = true) (svStr wStr)) ∧
    ((fun (s : State) => s.siteUp = true ∧ s.sup.holdupReady = true ∧ s.sup.st ≠ .powerFail ∧ s.cfg.isSome = true) (svStr wStr)) ∧
    ((fun (s : State) (a : NvSlot Journal) => s.siteUp = true ∧ s.sup.holdupReady = true ∧ nvNewest Journal.bytes s.sup.sjSlots = some (false, a)) (svSlots (some (NvSlot.make Journal.bytes 4 ⟨[], [], [], [], 7⟩), none)) (NvSlot.make Journal.bytes 4 ⟨[], [], [], [], 7⟩)) ∧
    ((fun (s : State) (a : NvSlot Journal) => s.siteUp = true ∧ s.sup.holdupReady = true ∧ nvNewest Journal.bytes s.sup.sjSlots = some (true, a)) (svSlots (some (NvSlot.make Journal.bytes 4 ⟨[], [], [], [], 7⟩), some (NvSlot.make Journal.bytes 5 ⟨[], [], [], [], 7⟩))) (NvSlot.make Journal.bytes 5 ⟨[], [], [], [], 7⟩)) ∧
    ((fun (s : State) => (s.sup.st = .powerFail ∨ s.cfg = none)) ({ svStr wStr with sup := wSup .powerFail })) ∧
    ((fun (mv : Nat) (s : State) => s.sgm.mode = .battery ∧ 3300 ≤ mv ∧ s.cell.info.cap ≠ 0) 3700 ({ svSg (wSgm .battery) with cell := wCell })) ∧
    ((fun (mv : Nat) (s : State) => s.sgm.mode = .battery ∧ 3300 ≤ mv ∧ s.cell.info.cap ≠ 0) 3300 ({ svSg (wSgm .battery) with cell := { wCell with q := 72020 } })) ∧
    ((fun (mv : Nat) (s : State) => s.sgm.mode = .battery ∧ 3300 ≤ mv ∧ s.cell.info.cap ≠ 0) 3300 ({ svSg (wSgm .battery) with cell := { wCell with q := 3600000 } })) ∧
    ((fun (mv : Nat) (x : Nat) (s : State) => s.sgm.mode = .battery ∧ mv < 3300 ∧ s.cell.fromFull = some x) 3299 3600000 ({ svSg (wSgm .battery) with cell := { wCell with fromFull := some 3600000 } })) ∧
    ((fun (s : State) => s.siteUp = true ∧ s.lnk.up = true ∧ s.cell.cutMv = none) ({ sv with cell := wCell })) ∧
    ((fun (s : State) => s.siteUp = true ∧ s.lnk.up = true ∧ s.cell.cutMv = none) ({ sv with cell := { wCell with info := { wCell.info with level := 2 } } })) :=
  by and_intros <;> decide +kernel

theorem hypotheses_met_BelfryCommands :
    ((fun (q : Sqe) (s : State) => Taken 0x78 q s ∧ bits (sd q 6) 0 0 = 0 ∧ 64 ≤ sd q 4 ∧ s.blk.counts.length = 6) (q0 0x78 [(2, 0x1000), (4, 64)]) (svBk { wBlk Node.reset with floor := 700, counts := [1, 2, 3, 4, 5, 6], reportSeq := 2 ^ 32 - 1 })) ∧
    ((fun (q : Sqe) (s : State) (b : List Byte) => Taken 0x78 q s ∧ bits (sd q 6) 0 0 = 1 ∧ 1 ≤ bits (sd q 8) 9 0 ∧ bits (sd q 8) 9 0 ≤ 512 ∧ 24 * bits (sd q 8) 9 0 ≤ sd q 4 ∧ b = ((s.blk.reports.filter (fun x => decide (sd q 7 ≤ x.1))).take (bits (sd q 8) 9 0)).flatMap Prod.snd) (q0 0x78 [(2, 0x1000), (4, 48), (6, 1), (7, 5), (8, 2)]) (svBk { wBlk Node.reset with reports := wRec 4 24 }) (((wRec 4 24).drop 1).flatMap Prod.snd)) ∧
    ((fun (q : Sqe) (s : State) (n : Node) => Taken 0x7A q s ∧ 1 ≤ sd q 1 ∧ sd q 1 ≤ 250 ∧ 32 ≤ sd q 4 ∧ n = s.node (sd q 1) ∧ (s.nodeRec (sd q 1)).enable = true) (q0 0x7A [(1, 250), (2, 0x1000), (4, 32)]) (svBk (wBlk { Node.reset with routes := [⟨3, 4, 200, 7⟩, ⟨0, 0, 128, 1⟩, ⟨5, 0, 255, 2⟩] })) ({ Node.reset with routes := [⟨3, 4, 200, 7⟩, ⟨0, 0, 128, 1⟩, ⟨5, 0, 255, 2⟩] })) ∧
    ((fun (q : Sqe) (s : State) => Taken 0x79 q s ∧ 1 ≤ sd q 1 ∧ sd q 1 ≤ 250 ∧ (s.nodeRec (sd q 1)).enable = true ∧ (s.node (sd q 1)).lost = false ∧ s.blk.down = false ∧ sd q 1 ∉ s.blk.outstanding ∧ s.blk.outstanding.length < 16) (q0 0x79 [(1, 250), (6, 77)]) (svBk (wBlk Node.reset))) ∧
    ((fun (q : Sqe) (s : State) => Taken 0x79 q s ∧ 1 ≤ sd q 1 ∧ sd q 1 ≤ 250 ∧ (s.nodeRec (sd q 1)).enable = true ∧ ((s.node (sd q 1)).lost = true ∨ s.blk.down = true)) (q0 0x79 [(1, 250), (6, 77)]) (svBk (wBlk { Node.reset with lost := true }))) ∧
    ((fun (q : Sqe) (s : State) => Taken 0x79 q s ∧ 1 ≤ sd q 1 ∧ sd q 1 ≤ 250 ∧ (s.nodeRec (sd q 1)).enable = true ∧ ((s.node (sd q 1)).lost = true ∨ s.blk.down = true)) (q0 0x79 [(1, 250), (6, 77)]) (svBk { wBlk Node.reset with down := true })) ∧
    ((fun (q : Sqe) (s : State) => Taken 0x79 q s ∧ 1 ≤ sd q 1 ∧ sd q 1 ≤ 250 ∧ (s.nodeRec (sd q 1)).enable = true ∧ (s.node (sd q 1)).lost = false ∧ s.blk.down = false ∧ (sd q 1 ∈ s.blk.outstanding ∨ 16 ≤ s.blk.outstanding.length)) (q0 0x79 [(1, 250), (6, 77)]) (svBk { wBlk Node.reset with queue := [⟨250, false, 5, some (0, 9)⟩] })) ∧
    ((fun (q : Sqe) (s : State) => Taken 0x79 q s ∧ 1 ≤ sd q 1 ∧ sd q 1 ≤ 250 ∧ (s.nodeRec (sd q 1)).enable = true ∧ (s.node (sd q 1)).lost = false ∧ s.blk.down = false ∧ (sd q 1 ∈ s.blk.outstanding ∨ 16 ≤ s.blk.outstanding.length)) (q0 0x79 [(1, 250), (6, 77)]) (svBk { wBlk Node.reset with queue := (List.range 16).map (fun i => ⟨i + 1, false, 5, some (0, i)⟩) })) ∧
    ((fun (q : Sqe) (s : State) => Taken 0x7B q s ∧ 1 ≤ sd q 1 ∧ sd q 1 ≤ 250 ∧ (s.nodeRec (sd q 1)).enable = true ∧ (s.node (sd q 1)).lost = true ∧ sd q 1 ∉ s.blk.outstanding ∧ s.blk.outstanding.length < 16) (q0 0x7B [(1, 250)]) (svBk (wBlk { Node.reset with lost := true }))) ∧
    ((fun (q : Sqe) (s : State) => Taken 0x7B q s ∧ 1 ≤ sd q 1 ∧ sd q 1 ≤ 250 ∧ (s.nodeRec (sd q 1)).enable = true ∧ (s.node (sd q 1)).lost = false) (q0 0x7B [(1, 250)]) (svBk (wBlk Node.reset))) ∧
    ((fun (q : Sqe) (s : State) => 1 ≤ sd q 1 ∧ sd q 1 ≤ 250 ∧ (s.nodeRec (sd q 1)).enable = false ∧ Taken 0x79 q s) (q0 0x79 [(1, 249), (6, 77)]) (svBk (wBlk Node.reset))) ∧
    ((fun (q : Sqe) (s : State) => 1 ≤ sd q 1 ∧ sd q 1 ≤ 250 ∧ (s.nodeRec (sd q 1)).enable = false ∧ Taken 0x7B q s) (q0 0x7B [(1, 249)]) (svBk (wBlk Node.reset))) ∧
    ((fun (q : Sqe) (s : State) => 1 ≤ sd q 1 ∧ sd q 1 ≤ 250 ∧ (s.nodeRec (sd q 1)).enable = false ∧ Taken 0x7A q s ∧ 32 ≤ sd q 4) (q0 0x7A [(1, 249), (2, 0x1000), (4, 32)]) (svBk (wBlk Node.reset))) :=
  by and_intros <;> decide +kernel

theorem hypotheses_met_BelfryExchanges :
    ((fun (s : State) (x : Exch) => s.blk.ex = some x ∧ x.st = .ready ∧ s.belfryRec.isSome = true ∧ s.blk.down = false ∧ s.sup.st = .service ∧ 2 ≤ s.blk.silent ∧ (s.nodeRec x.node).enable = true) (svQuiet (svEx (wEx .ready) Node.reset [])) (wEx .ready)) ∧
    ((fun (s : State) (x : Exch) => s.blk.ex = some x ∧ x.st = .ready ∧ s.belfryRec.isSome = true ∧ s.blk.down = false ∧ s.sup.st = .service ∧ 2 ≤ s.blk.silent ∧ (s.nodeRec x.node).enable = true) (svQuiet (svEx { wEx .ready with r1 := 3, r2 := 4, ask := .send 5 true } Node.reset [])) ({ wEx .ready with r1 := 3, r2 := 4, ask := .send 5 true })) ∧
    ((fun (s : State) => (s.belfryRec = none ∨ s.blk.down = true ∨ s.sup.st ≠ .service ∨ s.blk.silent < 2)) (svBk { wBlk Node.reset with down := true, silent := 5, ex := some (wEx .ready) })) ∧
    ((fun (s : State) => (s.belfryRec = none ∨ s.blk.down = true ∨ s.sup.st ≠ .service ∨ s.blk.silent < 2)) (svBk { wBlk Node.reset with silent := 1, ex := some (wEx .ready) })) ∧
    ((fun (s : State) => (s.belfryRec = none ∨ s.blk.down = true ∨ s.sup.st ≠ .service ∨ s.blk.silent < 2)) ({ svQuiet (svBk (wBlk Node.reset)) with sup := wSup .bisque })) ∧
    ((fun (s : State) (x : Exch) (addr : Nat) (type : Nat) (p : Nat) (q : Nat) => s.blk.ex = some x ∧ x.st = .waiting ∧ s.belfryRec.isSome = true ∧ x.answerAt 32 + 4 ≤ s.blk.rx.length ∧ x.valid s.blk.rx = some ((addr, type, p), q) ∧ 1 ≤ x.node ∧ x.node ≤ s.blk.nodes.length ∧ (s.nodeRec x.node).enable = true ∧ (s.node x.node).lost = false ∧ x.ask = .poll ∧ x.cmd = none ∧ addr = 0 ∧ type = 2) (svEx (wEx .waiting) Node.reset (wRx 0 2 8 (3) 7)) (wEx .waiting) 0 2 3 7) ∧
    ((fun (s : State) (x : Exch) (addr : Nat) (type : Nat) (p : Nat) (q : Nat) => s.blk.ex = some x ∧ x.st = .waiting ∧ s.belfryRec.isSome = true ∧ x.answerAt 32 + 4 ≤ s.blk.rx.length ∧ x.valid s.blk.rx = some ((addr, type, p), q) ∧ 1 ≤ x.node ∧ x.node ≤ s.blk.nodes.length ∧ (s.nodeRec x.node).enable = true ∧ (s.node x.node).lost = false ∧ x.ask = .poll ∧ x.cmd = none ∧ addr = 0 ∧ type = 1 ∧ bit p 63 = (s.node x.node).tog) (svEx (wEx .waiting) Node.reset (wRx 0 1 64 (2 ^ 63 + 5) 7)) (wEx .waiting) 0 1 (2 ^ 63 + 5) 7) ∧
    ((fun (s : State) (x : Exch) (addr : Nat) (type : Nat) (p : Nat) (q : Nat) => s.blk.ex = some x ∧ x.st = .waiting ∧ s.belfryRec.isSome = true ∧ x.answerAt 32 + 4 ≤ s.blk.rx.length ∧ x.valid s.blk.rx = some ((addr, type, p), q) ∧ 1 ≤ x.node ∧ x.node ≤ s.blk.nodes.length ∧ (s.nodeRec x.node).enable = true ∧ (s.node x.node).lost = false ∧ x.ask = .poll ∧ x.cmd = none ∧ addr = 0 ∧ type = 1 ∧ bit p 63 ≠ (s.node x.node).tog ∧ 0x10 ≤ bits p 61 56) (svEx (wEx .waiting) Node.reset (wRx 0 1 64 (16 * 2 ^ 56 + 5) 7)) (wEx .waiting) 0 1 (16 * 2 ^ 56 + 5) 7) ∧
    ((fun (s : State) (x : Exch) (addr : Nat) (type : Nat) (p : Nat) (q : Nat) tag v => s.blk.ex = some x ∧ x.st = .waiting ∧ s.belfryRec.isSome = true ∧ x.answerAt 32 + 4 ≤ s.blk.rx.length ∧ x.valid s.blk.rx = some ((addr, type, p), q) ∧ 1 ≤ x.node ∧ x.node ≤ s.blk.nodes.length ∧ (s.nodeRec x.node).enable = true ∧ (s.node x.node).lost = false ∧ x.ask = .poll ∧ x.cmd = none ∧ addr = 0 ∧ type = 1 ∧ bit p 63 ≠ (s.node x.node).tog ∧ bits p 61 56 = 2 ∧ s.lnk.up = true ∧ (s.node x.node).hi = some (tag, v) ∧ tag = bits p 55 52) (svEx (wEx .waiting) ({ Node.reset with hi := some (9, 77) }) (wRx 0 1 64 (2 * 2 ^ 56 + 9 * 2 ^ 52 + 5) 7)) (wEx .waiting) 0 1 (2 * 2 ^ 56 + 9 * 2 ^ 52 + 5) 7 9 77) ∧
    ((fun (s : State) (x : Exch) (addr : Nat) (type : Nat) (p : Nat) (q : Nat) => s.blk.ex = some x ∧ x.st = .waiting ∧ s.belfryRec.isSome = true ∧ x.answerAt 32 + 4 ≤ s.blk.rx.length ∧ x.valid s.blk.rx = some ((addr, type, p), q) ∧ 1 ≤ x.node ∧ x.node ≤ s.blk.nodes.length ∧ (s.nodeRec x.node).enable = true ∧ (s.node x.node).lost = false ∧ x.ask = .poll ∧ x.cmd = none ∧ addr ≠ 0 ∧ x.probe = false ∧ x.tries < 3) (svEx ({ wEx .waiting with tries := 2 }) Node.reset (wRx 250 2 8 (3) 7)) ({ wEx .waiting with tries := 2 }) 250 2 3 7) ∧
    ((fun (s : State) (x : Exch) => s.blk.ex = some x ∧ x.st = .waiting ∧ s.belfryRec.isSome = true ∧ x.probe = false ∧ 1 ≤ x.node ∧ x.node ≤ s.blk.nodes.length ∧ (s.nodeRec x.node).enable = true ∧ x.answerAt 88 + 4 ≤ s.blk.rx.length ∧ x.preamble s.blk.rx = false ∧ x.tries < 3) (svEx { wEx .waiting with tries := 2 } Node.reset (List.replicate 6 .silent)) ({ wEx .waiting with tries := 2 })) ∧
    ((fun (s : State) (x : Exch) => s.blk.ex = some x ∧ x.st = .waiting ∧ s.belfryRec.isSome = true ∧ x.probe = false ∧ 1 ≤ x.node ∧ x.node ≤ s.blk.nodes.length ∧ (s.nodeRec x.node).enable = true ∧ x.answerAt 88 + 4 ≤ s.blk.rx.length ∧ x.preamble s.blk.rx = false ∧ 3 ≤ x.tries ∧ x.ask ≠ .join ∧ x.cmd = none ∧ (s.node x.node).lost = false ∧ (∀ r ∈ (s.node x.node).routes, (r.r1, r.r2) ∈ x.tried)) (svEx { wEx .waiting with tries := 3, tried := [(0, 0)] } Node.reset (List.replicate 6 .silent)) ({ wEx .waiting with tries := 3, tried := [(0, 0)] })) ∧
    ((fun (s : State) (x : Exch) => s.blk.ex = some x ∧ (s.blk.rx.length < x.answerAt 88 + 4 ∨ x.preamble s.blk.rx = true)) (svEx (wEx .waiting) Node.reset (List.replicate 5 .silent)) (wEx .waiting)) ∧
    ((fun (s : State) (x : Exch) => s.blk.ex = some x ∧ (s.blk.rx.length < x.answerAt 88 + 4 ∨ x.preamble s.blk.rx = true)) (svEx (wEx .waiting) Node.reset (wRx 0 2 8 3 7)) (wEx .waiting)) :=
  by and_intros <;> decide +kernel

theorem hypotheses_met_BelfryLine :
    ((fun (f : Bell) (r : Bell) => (f.blanked = true ∨ r.blanked = true)) (⟨9, true⟩) (⟨9, false⟩)) ∧
    ((fun (floor : Nat) (f : Bell) (r : Bell) => f.blanked = false ∧ r.blanked = false ∧ f.energy < 512 * floor ^ 2 ∧ r.energy < 512 * floor ^ 2) 5 (⟨12799, false⟩) (⟨0, false⟩)) ∧
    ((fun (floor : Nat) (f : Bell) (r : Bell) => f.blanked = false ∧ r.blanked = false ∧ (512 * floor ^ 2 ≤ f.energy ∨ 512 * floor ^ 2 ≤ r.energy) ∧ 4 * r.energy ≤ f.energy ∧ r.energy < f.energy) 5 (⟨12800, false⟩) (⟨3200, false⟩)) ∧
    ((fun (floor : Nat) (f : Bell) (r : Bell) => f.blanked = false ∧ r.blanked = false ∧ (512 * floor ^ 2 ≤ f.energy ∨ 512 * floor ^ 2 ≤ r.energy) ∧ 4 * f.energy ≤ r.energy ∧ f.energy < r.energy) 0 (⟨3200, false⟩) (⟨12800, false⟩)) ∧
    ((fun (floor : Nat) (f : Bell) (r : Bell) => f.blanked = false ∧ r.blanked = false ∧ (512 * floor ^ 2 ≤ f.energy ∨ 512 * floor ^ 2 ≤ r.energy) ∧ f.energy < 4 * r.energy ∧ r.energy < 4 * f.energy) 5 (⟨12800, false⟩) (⟨3201, false⟩)) ∧
    ((fun (s : State) (e : Edge) (p : Nat) => s.belfryRec.isSome = true ∧ e = (if s.blk.next then s.blk.rise else s.blk.fall) ∧ e.predict = some p ∧ p + 200 < s.sup.uptime) (svUp 20301 (svBk { wBlk Node.reset with next := true, rise := ⟨some 100, 0, [20000, 20000]⟩, bad := 2 })) (⟨some 100, 0, [20000, 20000]⟩) 20100) ∧
    ((fun (s : State) (e : Edge) (p : Nat) => s.belfryRec.isSome = true ∧ e = (if s.blk.next then s.blk.rise else s.blk.fall) ∧ e.predict = some p ∧ p + 200 < s.sup.uptime) (svUp 40301 (svBk { wBlk Node.reset with next := false, fall := ⟨some 100, 1, List.replicate 8 20000⟩, bad := 1 })) (⟨some 100, 1, List.replicate 8 20000⟩) 40100) ∧
    ((fun (s : State) (e : Edge) (p : Nat) => s.belfryRec.isSome = true ∧ e = (if s.blk.next then s.blk.rise else s.blk.fall) ∧ e.predict = some p ∧ s.sup.uptime ≤ p + 200) (svUp 20300 (svBk { wBlk Node.reset with next := true, rise := ⟨some 100, 0, [20000, 20000]⟩ })) (⟨some 100, 0, [20000, 20000]⟩) 20100) ∧
    ((fun (s : State) (z : ZeroCross) => s.belfryRec.isSome = true ∧ (s.blk.level = some z.rising ∨ s.blk.level.isSome = true ∧ s.sup.uptime < s.blk.edgeAt + 100)) (svBk { wBlk Node.reset with level := some true }) (wZc true)) ∧
    ((fun (s : State) (z : ZeroCross) => s.belfryRec.isSome = true ∧ (s.blk.level = some z.rising ∨ s.blk.level.isSome = true ∧ s.sup.uptime < s.blk.edgeAt + 100)) (svUp 199 (svBk { wBlk Node.reset with level := some true, edgeAt := 100 })) (wZc false)) ∧
    ((fun (s : State) (z : ZeroCross) (r : BelfryRec) => s.belfryRec = some r ∧ z.rising = false ∧ (s.blk.level = none ∨ s.blk.level = some true ∧ s.blk.edgeAt + 100 ≤ s.sup.uptime)) (svUp 200 (svBk { wBlk Node.reset with level := some true, edgeAt := 100, next := false, bad := 2 })) (wZc false) wBelfry) ∧
    ((fun (s : State) (z : ZeroCross) (r : BelfryRec) => s.belfryRec = some r ∧ z.rising = false ∧ (s.blk.level = none ∨ s.blk.level = some true ∧ s.blk.edgeAt + 100 ≤ s.sup.uptime)) (svBk (wBlk Node.reset)) (⟨false, [], 0⟩) wBelfry) ∧
    ((fun (s : State) (z : ZeroCross) (r : BelfryRec) (x : Exch) (d : Bool) (l : List Bool) => s.belfryRec = some r ∧ z.rising = true ∧ (s.blk.level = none ∨ s.blk.level = some false ∧ s.blk.edgeAt + 100 ≤ s.sup.uptime) ∧ s.blk.rise.due = 0 ∧ s.blk.ex = some x ∧ x.st = .sending ∧ x.tx = d :: l ∧ s.blk.mine = true ∧ s.sup.st = .service ∧ s.blk.down = false) (svBk { wBlk Node.reset with ex := some { wEx .sending with tx := [true, false] }, mine := true }) (wZc true) wBelfry ({ wEx .sending with tx := [true, false] }) true ([false])) :=
  by and_intros <;> decide +kernel

theorem hypotheses_met_RecorderCommands :
    ((fun (q : Sqe) (bad : List Nat) (s : State) (n : Nat) (at_ : List (Nat × List Byte)) (l : List (Nat × List Byte)) => Taken 0x80 q s ∧ bits (sd q 7) 4 0 = n ∧ 1 ≤ n ∧ n ≤ 16 ∧ 32 + 256 * n ≤ sd q 4 ∧ bits (sd q 7) 7 5 = 0 ∧ (bits (sd q 7) 15 8 < 128 ∨ bits (sd q 7) 15 8 = 0xFF) ∧ bits (sd q 7) 31 16 = 0 ∧ (s.hqe.fwd.filter (fun w => w.op == 0x80)).length < 16 ∧ at_ = s.heldRecords.filter (fun x => decide (sd q 6 ≤ x.1)) ∧ l = (at_.filter (fun x => bits (sd q 7) 15 8 == 0xFF || u x.2 4 1 == bits (sd q 7) 15 8)).take n ∧ at_ ≠ [] ∧ (∀ x ∈ l, recordTile x.1 ∉ bad) ∧ 0x0660 ∉ bad) (q0 0x80 [(2, 0x1000), (4, 544), (6, 5), (7, 2 + 0xFF00)]) ([0x441, 0x444]) (svEv { wEvr (some wHalf) with held := (List.range 4).map (fun i => wPage (i % 2) (4 + i)), newest := 7 }) 2 ([wPage 1 5, wPage 0 6, wPage 1 7]) ([wPage 1 5, wPage 0 6])) ∧
    ((fun (q : Sqe) (bad : List Nat) (s : State) (n : Nat) (at_ : List (Nat × List Byte)) (l : List (Nat × List Byte)) => Taken 0x80 q s ∧ bits (sd q 7) 4 0 = n ∧ 1 ≤ n ∧ n ≤ 16 ∧ 32 + 256 * n ≤ sd q 4 ∧ bits (sd q 7) 7 5 = 0 ∧ (bits (sd q 7) 15 8 < 128 ∨ bits (sd q 7) 15 8 = 0xFF) ∧ bits (sd q 7) 31 16 = 0 ∧ (s.hqe.fwd.filter (fun w => w.op == 0x80)).length < 16 ∧ at_ = s.heldRecords.filter (fun x => decide (sd q 6 ≤ x.1)) ∧ l = (at_.filter (fun x => bits (sd q 7) 15 8 == 0xFF || u x.2 4 1 == bits (sd q 7) 15 8)).take n ∧ at_ ≠ [] ∧ (∀ x ∈ l, recordTile x.1 ∉ bad) ∧ 0x0660 ∉ bad) (q0 0x80 [(2, 0x1000), (4, 4128), (6, 5), (7, 16 + 0x0100)]) ([]) (svEv { wEvr (some wHalf) with held := (List.range 4).map (fun i => wPage (i % 2) (4 + i)), newest := 7 }) 16 ([wPage 1 5, wPage 0 6, wPage 1 7]) ([wPage 1 5, wPage 1 7])) ∧
    ((fun (q : Sqe) (s : State) (n : Nat) (at_ : List (Nat × List Byte)) (l : List (Nat × List Byte)) => Taken 0x80 q s ∧ bits (sd q 7) 4 0 = n ∧ 1 ≤ n ∧ n ≤ 16 ∧ 32 + 256 * n ≤ sd q 4 ∧ bits (sd q 7) 7 5 = 0 ∧ (bits (sd q 7) 15 8 < 128 ∨ bits (sd q 7) 15 8 = 0xFF) ∧ bits (sd q 7) 31 16 = 0 ∧ (s.hqe.fwd.filter (fun w => w.op == 0x80)).length < 16 ∧ at_ = s.heldRecords.filter (fun x => decide (sd q 6 ≤ x.1)) ∧ l = (at_.filter (fun x => bits (sd q 7) 15 8 == 0xFF || u x.2 4 1 == bits (sd q 7) 15 8)).take n ∧ at_ = []) (q0 0x80 [(2, 0x1000), (4, 4128), (6, 8), (7, 16 + 0x0100)]) (svEv { wEvr (some wHalf) with held := (List.range 4).map (fun i => wPage (i % 2) (4 + i)), newest := 7 }) 16 ([]) ([])) ∧
    ((fun (q : Sqe) (bad : List Nat) (s : State) (n : Nat) (at_ : List (Nat × List Byte)) (l : List (Nat × List Byte)) x r => Taken 0x80 q s ∧ bits (sd q 7) 4 0 = n ∧ 1 ≤ n ∧ n ≤ 16 ∧ 32 + 256 * n ≤ sd q 4 ∧ bits (sd q 7) 7 5 = 0 ∧ (bits (sd q 7) 15 8 < 128 ∨ bits (sd q 7) 15 8 = 0xFF) ∧ bits (sd q 7) 31 16 = 0 ∧ (s.hqe.fwd.filter (fun w => w.op == 0x80)).length < 16 ∧ at_ = s.heldRecords.filter (fun x => decide (sd q 6 ≤ x.1)) ∧ l = (at_.filter (fun x => bits (sd q 7) 15 8 == 0xFF || u x.2 4 1 == bits (sd q 7) 15 8)).take n ∧ l = x :: r ∧ recordTile x.1 ∈ bad) (q0 0x80 [(2, 0x1000), (4, 4128), (6, 5), (7, 16 + 0x0100)]) ([0x440]) (svEv { wEvr (some wHalf) with held := (List.range 4).map (fun i => wPage (i % 2) (4 + i)), newest := 7 }) 16 ([wPage 1 5, wPage 0 6, wPage 1 7]) ([wPage 1 5, wPage 1 7]) (wPage 1 5) ([wPage 1 7])) ∧
    ((fun (q : Sqe) (s : State) => Taken 0x81 q s ∧ sd q 6 = 0 ∧ 64 ≤ sd q 4) (q0 0x81 [(2, 0x1000), (4, 64)]) (svEv { wEvr (some wHalf) with newest := 7, defers := 9, lost := 2 ^ 32 - 1, queue := [wClosed] })) ∧
    ((fun (q : Sqe) (s : State) => Taken 0x81 q s ∧ sd q 6 = 0 ∧ 64 ≤ sd q 4) (q0 0x81 [(2, 0x1000), (4, 64)]) (svEv { wEvr none with degraded := some 4 })) ∧
    ((fun (q : Sqe) (s : State) => Taken 0x81 q s ∧ sd q 6 = 1 ∧ 3072 ≤ sd q 4) (q0 0x81 [(2, 0x1000), (4, 3072), (6, 1)]) (svEv (wEvr (some wHalf)))) ∧
    ((fun (q : Sqe) (bad : List Nat) (s : State) (n : Nat) (at_ : List (Nat × List Byte)) (l : List (Nat × List Byte)) => Taken 0x80 q s ∧ bits (sd q 7) 4 0 = n ∧ 1 ≤ n ∧ n ≤ 16 ∧ 32 + 256 * n ≤ sd q 4 ∧ bits (sd q 7) 7 5 = 0 ∧ (bits (sd q 7) 15 8 < 128 ∨ bits (sd q 7) 15 8 = 0xFF) ∧ bits (sd q 7) 31 16 = 0 ∧ (s.hqe.fwd.filter (fun w => w.op == 0x80)).length < 16 ∧ at_ = s.heldRecords.filter (fun x => decide (sd q 6 ≤ x.1)) ∧ l = (at_.filter (fun x => bits (sd q 7) 15 8 == 0xFF || u x.2 4 1 == bits (sd q 7) 15 8)).take n ∧ at_ ≠ [] ∧ (∀ x ∈ l, recordTile x.1 ∉ bad) ∧ 0x0660 ∉ bad) (q0 0x80 [(2, 0x1000), (4, 4128), (6, 5), (7, 16 + 0x7F00)]) ([]) (svEv { wEvr (some wHalf) with held := (List.range 4).map (fun i => wPage (i % 2) (4 + i)), newest := 7 }) 16 ([wPage 1 5, wPage 0 6, wPage 1 7]) ([])) ∧
    ((fun (q : Sqe) (s : State) => Taken 0x81 q s ∧ 2 ≤ sd q 6 ∧ 3072 ≤ sd q 4) (q0 0x81 [(2, 0x1000), (4, 3072), (6, 2)]) (svEv (wEvr (some wHalf)))) :=
  by and_intros <;> decide +kernel

theorem hypotheses_met_RecorderSamples :
    ((fun (i : Nat) (x : Int) (h : Half) (s : State) => s.siteUp = true ∧ i < 128 ∧ i < s.evr.qs.length ∧ (s.conf.quant i).enable = true ∧ s.sourceValue (s.conf.quant i) = some x ∧ (s.quant i).live = some h ∧ h.bins.length = 32 ∧ 0 < h.cfg.width) 127 5000 wHalf (svEv (wEvr (some wHalf)))) ∧
    ((fun (i : Nat) (x : Int) (h : Half) (s : State) => s.siteUp = true ∧ i < 128 ∧ i < s.evr.qs.length ∧ (s.conf.quant i).enable = true ∧ s.sourceValue (s.conf.quant i) = some x ∧ (s.quant i).live = some h ∧ h.bins.length = 32 ∧ 0 < h.cfg.width) 127 5000 ({ wHalf with cfg := { wQuant with lo := 4701, width := 300 }, max := 5000 }) (svEv (wEvr (some { wHalf with cfg := { wQuant with lo := 4701, width := 300 }, max := 5000 })))) ∧
    ((fun (i : Nat) (x : Int) (h : Half) (s : State) => s.siteUp = true ∧ i < 128 ∧ i < s.evr.qs.length ∧ (s.conf.quant i).enable = true ∧ s.sourceValue (s.conf.quant i) = some x ∧ (s.quant i).live = some h ∧ h.bins.length = 32 ∧ 0 < h.cfg.width) 127 5000 ({ wHalf with cfg := { wQuant with lo := -4300, width := 300 }, count := 0 }) (svEv (wEvr (some { wHalf with cfg := { wQuant with lo := -4300, width := 300 }, count := 0 })))) ∧
    ((fun (i : Nat) (x : Int) (h : Half) (s : State) => s.siteUp = true ∧ i < 128 ∧ i < s.evr.qs.length ∧ (s.conf.quant i).enable = true ∧ s.sourceValue (s.conf.quant i) = some x ∧ (s.quant i).live = some h ∧ h.bins.length = 32 ∧ 0 < h.cfg.width) 127 5000 ({ wHalf with cfg := { wQuant with lo := 4700, width := 300 } }) (svEv (wEvr (some { wHalf with cfg := { wQuant with lo := 4700, width := 300 } })))) ∧
    ((fun (i : Nat) (h : Half) (s : State) => s.siteUp = true ∧ i < 128 ∧ i < s.evr.qs.length ∧ (s.conf.quant i).enable = true ∧ s.sourceValue (s.conf.quant i) = none ∧ (s.quant i).live = some h) 127 wHalf ((fun (x : State) => { x with cfg := some { x.conf with strings := [] } }) (svEv (wEvr (some wHalf))))) ∧
    ((fun (i : Nat) (x : Int) (s : State) => s.siteUp = true ∧ i < 128 ∧ (s.conf.quant i).enable = true ∧ s.sourceValue (s.conf.quant i) = some x ∧ (s.quant i).live = none ∧ s.evr.degraded = none) 127 5000 (svEv (wEvr none))) ∧
    ((fun (i : Nat) (x : Int) (s : State) => s.siteUp = true ∧ i < 128 ∧ i < s.evr.qs.length ∧ (s.conf.quant i).enable = true ∧ s.sourceValue (s.conf.quant i) = some x ∧ (s.quant i).live = none ∧ s.evr.degraded.isSome = true) 127 5000 (svEv { wEvr none with degraded := some 4 })) :=
  by and_intros <;> decide +kernel

theorem hypotheses_met_RecorderWrites :
    ((fun (i : Nat) (b : Nat) (h : Half) (s : State) => s.siteUp = true ∧ i < s.evr.qs.length ∧ (s.quant i).live = some h ∧ (s.quant i).closeDue s.evrNow.1 = some b ∧ s.evr.frozen i = true) 127 60000000 wHalf (svUp 60000001 (svEv { wEvr (some wHalf) with queue := [wClosed] }))) ∧
    ((fun (c : Closed) (rest : List Closed) (s : State) => s.evr.queue = c :: rest ∧ s.siteUp = true ∧ s.evr.degraded = none ∧ s.evr.restoring = false ∧ s.evr.writing = none ∧ s.sup.staging = none ∧ recordTile s.evr.next ∉ s.evr.refill) wClosed ([{ wClosed with q := 3 }]) (svEv { wEvr (some wHalf) with queue := [wClosed, { wClosed with q := 3 }], next := 8703, newest := 8702, flash := [wPage 3 8702] })) ∧
    ((fun (c : Closed) (rest : List Closed) (s : State) => s.evr.queue = c :: rest ∧ s.siteUp = true ∧ s.evr.degraded = none ∧ s.evr.restoring = false ∧ s.evr.writing = none ∧ s.sup.staging = none ∧ recordTile s.evr.next ∉ s.evr.refill ∧ recordTile s.evr.next ∉ s.tmf.oos) wClosed ([{ wClosed with q := 3 }]) (svEv { wEvr (some wHalf) with queue := [wClosed, { wClosed with q := 3 }], next := 511 })) ∧
    ((fun (s : State) => s.sup.staging.isSome = true) ({ svEv { wEvr (some wHalf) with queue := [wClosed] } with sup := { sv.sup with staging := some ⟨0, 9, 1, ⟨.inactive, 3, 0, 0, [], []⟩⟩ } })) ∧
    ((fun n => n < 512) 511) ∧
    ((fun n => 512 ≤ n) 8703) ∧
    ((fun n => 512 ≤ n) 512) ∧
    ((fun (r : Nat × List Byte) (c : Closed) (rest : List Closed) (s : State) => s.evr.writing = some r ∧ s.evr.queue = c :: rest ∧ c.q < s.evr.qs.length) (wPage 127 8) wClosed ([{ wClosed with q := 3 }]) (svEv { wEvr (some wHalf) with queue := [wClosed, { wClosed with q := 3 }], writing := some (wPage 127 8), qs := (wEvr none).qs.set 127 ⟨some wHalf, none, none, true, false, Ext.none⟩ })) ∧
    ((fun (r : Nat × List Byte) (c : Closed) (rest : List Closed) (s : State) => s.evr.writing = some r ∧ s.evr.queue = c :: rest ∧ c.q < s.evr.qs.length) (wPage 127 9000) wClosed ([]) (svEv { wEvr (some wHalf) with queue := [wClosed], writing := some (wPage 127 9000), flash := [wPage 1 5, wPage 1 800, wPage 1 809] })) ∧
    ((fun (s : State) => s.evr.restoring = true ∧ s.evr.testing = false ∧ s.tmf.ready = true) (svEv { wEvr (some wHalf) with restoring := true, flash := [wPage 1 4, wPage 1 5], intr := [wClosed] })) ∧
    ((fun (s : State) => s.evr.restoring = true ∧ s.evr.testing = false ∧ s.tmf.ready = true) (svEv { wEvr (some wHalf) with restoring := true, flash := [wPage 1 5], intr := [wClosed], degraded := some 4 })) ∧
    ((fun (idx : Nat) (s : State) => idx ∈ s.evr.refill) 0x440 (svEv { wEvr (some wHalf) with refill := [0x440, 0x441], retired := 7, queue := [wClosed] })) ∧
    ((fun (idx : Nat) (s : State) => idx ∈ s.evr.refill) 0x65F (svEv { wEvr (some wHalf) with refill := [0x65F], retired := 8, queue := [wClosed] })) ∧
    ((fun (s : State) => s.evr.degraded.isSome = true ∧ s.sup.holdupReady = true) (svEv { wEvr none with degraded := some 4 })) ∧
    ((fun (q : Quant) (h : Half) (now : Nat) (b : Nat) => q.live = some h ∧ q.closeDue now = some b) (⟨some wHalf, none, none, false, false, Ext.none⟩) wHalf 60000001 60000000) ∧
    ((fun (i : Nat) (b : Nat) (h : Half) (s : State) => s.siteUp = true ∧ i < s.evr.qs.length ∧ (s.quant i).live = some h ∧ (s.quant i).closeDue s.evrNow.1 = some b ∧ s.evr.frozen i = false) 127 60000000 wHalf (svUp 60000001 (svEv (wEvr (some wHalf))))) ∧
    ((fun (i : Nat) (s : State) => (s.quant i).closeDue s.evrNow.1 = none) 127 (svUp 59999999 (svEv (wEvr (some wHalf))))) ∧
    ((fun (i : Nat) (s : State) => (s.quant i).closeDue s.evrNow.1 = none) 127 (svUp 60000002 (svEv (wEvr (some wHalf))))) ∧
    ((fun (s : State) => s.evr.degraded.isSome = true ∧ s.sup.holdupReady = false) ({ svEv { wEvr none with degraded := some 4 } with sup := { sv.sup with holdupReady := false } })) :=
  by and_intros <;> decide +kernel

theorem hypotheses_met_TimeAndJournal :
    ((fun (q : Sqe) (s : State) => Taken 0x90 q s ∧ sd64 q 6 ≠ 0xFFFFFFFFFFFFFFFF ∧ sd q 8 = 0) (q0 0x90 [(6, 5), (7, 6), (8, 0)]) (svSup { wPow .service with slew := some ⟨true, 7⟩ })) ∧
    ((fun (q : Sqe) (s : State) (now : Nat) (d : Nat) => Taken 0x90 q s ∧ sd64 q 6 ≠ 0xFFFFFFFFFFFFFFFF ∧ sd q 8 = 1 ∧ s.sup.stime = some now ∧ d = max (sd64 q 6) now - min (sd64 q 6) now ∧ d ≤ 1000000) (q0 0x90 [(6, 1500000), (8, 1)]) (svSup { wPow .service with stime := some 500000 }) 500000 1000000) ∧
    ((fun (q : Sqe) (s : State) (now : Nat) (d : Nat) => Taken 0x90 q s ∧ sd64 q 6 ≠ 0xFFFFFFFFFFFFFFFF ∧ sd q 8 = 1 ∧ s.sup.stime = some now ∧ d = max (sd64 q 6) now - min (sd64 q 6) now ∧ d ≤ 1000000) (q0 0x90 [(6, 500000), (8, 1)]) (svSup { wPow .service with stime := some 500000 }) 500000 0) ∧
    ((fun (q : Sqe) (s : State) (now : Nat) (d : Nat) => Taken 0x90 q s ∧ sd64 q 6 ≠ 0xFFFFFFFFFFFFFFFF ∧ sd q 8 = 1 ∧ s.sup.stime = some now ∧ d = max (sd64 q 6) now - min (sd64 q 6) now ∧ 1000000 < d) (q0 0x90 [(6, 500000), (8, 1)]) (svSup { wPow .service with stime := some 1500001 }) 1500001 1000001) ∧
    ((fun (q : Sqe) (s : State) => Taken 0x90 q s ∧ sd64 q 6 ≠ 0xFFFFFFFFFFFFFFFF ∧ sd q 8 = 1 ∧ s.sup.stime = none) (q0 0x90 [(6, 500000), (8, 1)]) sv) ∧
    ((fun (s : State) (now : Nat) (w : Slew) => s.sup.stime = some now ∧ s.sup.slew = some w) (svSup { wPow .service with stime := some 500000, slew := some ⟨false, 4001⟩ }) 500000 (⟨false, 4001⟩)) ∧
    ((fun (s : State) (now : Nat) (w : Slew) => s.sup.stime = some now ∧ s.sup.slew = some w) (svSup { wPow .service with stime := some 500000, slew := some ⟨true, 4000⟩ }) 500000 (⟨true, 4000⟩)) ∧
    ((fun (q : Sqe) (s : State) (n : Nat) (l : List FaultRec) r => Taken 0x91 q s ∧ n = bits (sd q 7) 10 0 ∧ 1 ≤ n ∧ n ≤ 1024 ∧ 32 + 32 * n ≤ sd q 4 ∧ l = (s.sup.journal.filter (fun r => decide (sd q 6 ≤ r.seq))).take n ∧ l.head? = some r) (q0 0x91 [(2, 0x1000), (4, 32800), (6, 5), (7, 1024)]) (svSup { wPow .service with journal := [wFault 4, wFault 5, wFault 6], journalSeq := 6 }) 1024 ([wFault 5, wFault 6]) (wFault 5)) ∧
    ((fun (q : Sqe) (s : State) (n : Nat) (l : List FaultRec) => Taken 0x91 q s ∧ n = bits (sd q 7) 10 0 ∧ 1 ≤ n ∧ n ≤ 1024 ∧ 32 + 32 * n ≤ sd q 4 ∧ l = (s.sup.journal.filter (fun r => decide (sd q 6 ≤ r.seq))).take n ∧ l = []) (q0 0x91 [(2, 0x1000), (4, 64), (6, 7), (7, 1)]) (svSup { wPow .service with journal := [wFault 4, wFault 5, wFault 6], journalSeq := 6 }) 1 ([])) :=
  by and_intros <;> decide +kernel

theorem hypotheses_met_ShipAndReset :
    ((fun (q : Sqe) (s : State) => Taken 0x93 q s ∧ s.lsw.chans.length = 24) (q0 0x93 []) ({ svPort { Port.reset with energy := true, pinMode := 1 } with sup := wSup .bisque, lsw := { sv.lsw with chans := sv.lsw.chans.set 23 { LChan.reset with st := .on, order := 1 } } })) ∧
    ((fun (q : Sqe) (s : State) => Taken 0x93 q s ∧ s.lsw.chans.length = 24) (q0 0x93 []) ({ sv with sup := wSup .bisque, lnk := { sv.lnk with up := false } })) ∧
    ((fun (s : State) (st : DevState) => s.sup.shipFrom = some st ∧ s.sup.holdupReady = true ∧ st ≠ s.sup.st) (svSup { wPow .shipPending with shipFrom := some .service }) .service) ∧
    ((fun (s : State) (st : DevState) => s.sup.shipFrom = some st ∧ s.sup.holdupReady = true ∧ st ≠ s.sup.st) (svSup { wPow .shipPending with shipFrom := some .bisque }) .bisque) ∧
    ((fun (q : Sqe) (s : State) => Taken 0x97 q s ∧ sd q 6 = 0x6416 ∧ s.exclusive = false ∧ s.sup.staging = none ∧ s.sup.holdupReady = true) (q0 0x97 [(6, 0x6416)]) sv) ∧
    ((fun (q : Sqe) (s : State) => Taken 0x97 q s ∧ sd q 6 = 0x6416 ∧ (s.exclusive = true ∨ s.sup.staging.isSome = true)) (q0 0x97 [(6, 0x6416)]) (svCommit .service wCommit 0)) ∧
    ((fun (q : Sqe) (s : State) => Taken 0x97 q s ∧ sd q 6 = 0x6416 ∧ (s.exclusive = true ∨ s.sup.staging.isSome = true)) (q0 0x97 [(6, 0x6416)]) (svSup { wPow .service with staging := some ⟨0, 9, 1, ⟨.inactive, 3, 0, 0, [], []⟩⟩ })) ∧
    ((fun (q : Sqe) (s : State) => Taken 0x97 q s ∧ sd q 6 ≠ 0x6416) (q0 0x97 [(6, 0x6417)]) sv) ∧
    ((fun (s : State) => s.sup.resetOrdered = true ∧ s.mainRuns = true ∧ s.sup.staging = none) (svSup { wPow .service with resetOrdered := true })) ∧
    ((fun (s : State) => s.sup.powered % 128 ≠ 0 ∧ s.sup.st = .shipPending ∧ s.sup.commit = none) (svSup { wPow .shipPending with shipFrom := some .service })) ∧
    ((fun (s : State) => s.sup.powered % 128 ≠ 0 ∧ s.sup.st = .shipPending ∧ s.sup.commit = none) ({ svSup { wPow .shipPending with shipFrom := some .service } with sgm := wSgm .battery })) :=
  by and_intros <;> decide +kernel

theorem hypotheses_met_Power :
    ((fun (mv : Nat) (s : State) => s.sup.powered % 128 = 0 ∧ 10800 < mv) 10801 (svSup { Sup.reset with powered := 0x100 })) ∧
    ((fun (mv : Nat) (s : State) => s.sup.powered % 128 = 0 ∧ 10800 < mv) 12000 ({ svSup { Sup.reset with powered := 0x100, st := .powerFail } with sgm := wSgm .ship })) ∧
    ((fun (mv : Nat) (s : State) => (s.sup.powered % 128 ≠ 0 ∨ mv ≤ 10800)) 12000 sv) ∧
    ((fun (mv : Nat) (s : State) => (s.sup.powered % 128 ≠ 0 ∨ mv ≤ 10800)) 10800 (svSup { Sup.reset with powered := 0x100 })) ∧
    ((fun (s : State) => s.sup.powered % 128 ≠ 0 ∧ s.sup.st ≠ .shipPending ∧ s.sup.holdupReady = true ∧ s.sup.commit = none ∧ s.sup.staging = none) (svSup { wPow .service with stime := some 9, uptime := 7500000 })) ∧
    ((fun (s : State) => s.sup.powered % 128 = 0) (svSup { Sup.reset with powered := 0x100 })) ∧
    ((fun (s : State) => s.sup.powered % 128 ≠ 0 ∧ s.sup.holdupReady = false) (svSup { wPow .bisque with holdupReady := false, deferred := [wFault 0, wFault 0], sjNext := some ⟨[], [], [], [], 7⟩ })) ∧
    ((fun (s : State) => s.sup.powered % 128 ≠ 0 ∧ s.sup.holdupReady = false) (svSup { wPow .bisque with holdupReady := false })) ∧
    ((fun (s : State) => s.sup.powered % 128 ≠ 0) sv) ∧
    ((fun (s : State) => s.sup.powered % 128 = 0) (svSup { Sup.reset with powered := 0x100, st := .powerFail, stime := some 7 })) ∧
    ((fun (s : State) => s.sup.powered % 128 ≠ 0) sv) ∧
    ((fun (s : State) (m : NvMarks) => s.sup.powered % 128 ≠ 0 ∧ s.sup.holdupReady = false ∧ s.sup.marksOld = some m ∧ s.sup.commit = none ∧ s.sup.staging = none) (svSup { wPow .service with holdupReady := false, marksOld := some ⟨true, 1, 77, [], ⟨.active, 5, 0, 9, [1, 2], []⟩, ⟨.inactive, 6, 0, 9, [1, 2], []⟩, 41, 7⟩ }) (⟨true, 1, 77, [], ⟨.active, 5, 0, 9, [1, 2], []⟩, ⟨.inactive, 6, 0, 9, [1, 2], []⟩, 41, 7⟩)) :=
  by and_intros <;> decide +kernel

theorem hypotheses_met_StartUp :
    ((fun (s : State) => s.mainRuns = true ∧ s.sup.st = .boot) (svSup { wBoot with bootSlot := 1, fwVersion := 0 })) ∧
    ((fun (s : State) => s.mainRuns = true ∧ s.sup.st = .boot ∧ s.sup.bootSlot < 2 ∧ (s.sup.slot (1 - s.sup.bootSlot)).st ≠ .invalid) (svSup wBoot)) ∧
    ((fun (s : State) => s.mainRuns = true ∧ s.sup.st = .boot ∧ s.sup.bootSlot < 2 ∧ (s.sup.slot (1 - s.sup.bootSlot)).st = .invalid) (svSup { wBoot with slotB := Slot.empty })) ∧
    ((fun (i : Nat) (s : State) => s.mainRuns = true ∧ i < 7 ∧ (i = 0 → s.sup.perst = false) ∧ s.sup.live = none) 6 (svSup { wBoot with readyMask := 0x100 })) ∧
    ((fun (i : Nat) (s : State) => s.mainRuns = true ∧ i < 7 ∧ (i = 0 → s.sup.perst = false) ∧ s.sup.live = none) 0 ({ svSup { wBoot with readyMask := 0x17E, slotB := ⟨.trial, 6, 0, 9, [], []⟩ } with hqe := { sv.hqe with f1 := { sv.hqe.f1 with enable := false } } })) ∧
    ((fun (s : State) => s.mainRuns = true) (svSup wBoot)) ∧
    ((fun (s : State) => s.mainRuns = true ∧ s.sup.perst = false) (svSup wBoot)) ∧
    ((fun (s : State) => s.sup.st = .boot ∧ s.mainRuns = true ∧ s.islandsUp = true ∧ s.sup.bisqueValid = false) (svSup wBoot)) ∧
    ((fun (s : State) => s.sup.st = .boot ∧ s.mainRuns = true ∧ s.islandsUp = true ∧ s.sup.bisqueValid = true ∧ s.sup.holdupReady = true) (svSup { wBoot with bisqueValid := true, bisqueImage := wImg true, bisqueId := 77 })) ∧
    ((fun (s : State) => s.sup.st = .boot ∧ s.mainRuns = true ∧ s.islandsUp = true ∧ s.sup.bisqueValid = true) (svSup { wBoot with bisqueValid := true, bisqueImage := wImg true, bisqueId := 77 })) ∧
    ((fun (q : Sqe) (s : State) => Taken 0x92 q s) (q0 0x92 []) (svSup { wPow .waitHost with bisqueValid := true, bisqueImage := wImg true, bisqueId := 77 })) :=
  by and_intros <;> decide +kernel

theorem hypotheses_met_WatchdogAndPerst :
    ((fun (i : Nat) (s : State) => s.mainRuns = true ∧ i < 7 ∧ (i = 0 → s.sup.perst = false) ∧ s.sup.slotIn .trial = none ∧ s.sup.live = none ∧ s.sup.staging = none ∧ (s.sup.wdTimes.filter (fun t => decide (s.sup.spireTime ≤ t + 600000000))).length < 2 ∧ s.sup.holdupReady = true) 6 (svSup { wSlots .active .inactive with wdTimes := [5], uptime := 9 })) ∧
    ((fun (i : Nat) (s : State) => s.mainRuns = true ∧ i < 7 ∧ (i = 0 → s.sup.perst = false) ∧ s.sup.slotIn .trial = none ∧ s.sup.live = none ∧ s.sup.staging = none ∧ (s.sup.wdTimes.filter (fun t => decide (s.sup.spireTime ≤ t + 600000000))).length < 2 ∧ s.sup.holdupReady = true) 0 (svSup { wSlots .active .inactive with wdTimes := [5, 6], spireTime := 600000006, uptime := 9 })) ∧
    ((fun (i : Nat) (s : State) => s.mainRuns = true ∧ i < 7 ∧ (i = 0 → s.sup.perst = false) ∧ s.sup.slotIn .trial = none ∧ s.sup.live = none ∧ s.sup.staging = none ∧ 2 ≤ (s.sup.wdTimes.filter (fun t => decide (s.sup.spireTime ≤ t + 600000000))).length ∧ s.sup.bootSlot < 2 ∧ (s.sup.slot (1 - s.sup.bootSlot)).st ≠ .invalid) 6 (svSup { wSlots .active .inactive with wdTimes := [5, 6] })) ∧
    ((fun (i : Nat) (s : State) => s.mainRuns = true ∧ i < 7 ∧ (i = 0 → s.sup.perst = false) ∧ s.sup.slotIn .trial = none ∧ s.sup.live = none ∧ s.sup.staging = none ∧ 2 ≤ (s.sup.wdTimes.filter (fun t => decide (s.sup.spireTime ≤ t + 600000000))).length ∧ s.sup.bootSlot < 2 ∧ (s.sup.slot (1 - s.sup.bootSlot)).st = .invalid) 6 (svSup { wSlots .active .invalid with wdTimes := [5, 6] })) ∧
    ((fun (i : Nat) (s : State) => s.mainRuns = true ∧ i < 7 ∧ (i = 0 → s.sup.perst = false) ∧ s.sup.slotA.st = .fallback ∧ s.sup.slotB.st = .trial ∧ s.sup.staging = none) 6 (svSup { wSlots .fallback .trial with wdTimes := [], trialOn := true, trialLeft := 7, bootSlot := 1 })) ∧
    ((fun (s : State) => s.sup.held = true ∧ s.sup.noFirmware = false ∧ s.sup.holdupReady = true) (svSup { wBoot with held := true })) ∧
    ((fun (s : State) => s.sup.perst = false ∧ s.sup.commit = none) ({ svTile true with hqe := { sv.hqe with fwd := [⟨.pf0, 1, 5, 0x13, true, false, false, false⟩, ⟨.pf0, 1, 6, 0x13, false, false, false, false⟩] } })) ∧
    ((fun (s : State) => s.sup.perst = true) (svSup { wSup .service with perst := true, readyMask := 0x1FE })) :=
  by and_intros <;> decide +kernel

theorem hypotheses_met_ConfigCommits_1 :
    (fun (q : Sqe) (s : State) => (s.tmf.hostTile (sd q 5)).isSome = true ∧ s.exclusive = true ∧ Taken 0x18 q s) (q0 0x18 [(5, 0x10942)]) (svCommit .service wCommit 0) :=
  by and_intros <;> decide +kernel

theorem hypotheses_met_ConfigCommits_2 :
    (fun (q : Sqe) (s : State) => (s.tmf.hostTile (sd q 5)).isSome = true ∧ s.exclusive = true ∧ Taken 0x1A q s) (q0 0x1A [(5, 0x10942)]) (svCommit .service wCommit 0) :=
  by and_intros <;> decide +kernel

theorem hypotheses_met_ConfigCommits_3 :
    (fun (q : Sqe) (s : State) => s.tmf.hostTile (sd q 5) = none ∧ Taken 0x18 q s) (q0 0x18 [(5, 0x10949)]) (svCommit .service wCommit 0) :=
  by and_intros <;> decide +kernel

theorem hypotheses_met_ConfigCommits_4 :
    (fun (q : Sqe) (s : State) => s.tmf.hostTile (sd q 5) = none ∧ Taken 0x1A q s) (q0 0x1A [(5, 0x20942)]) (svImg 0) :=
  by and_intros <;> decide +kernel

theorem hypotheses_met_ConfigCommits_5 :
    (fun (q : Sqe) (s : State) => Taken 0x18 q s ∧ (s.tmf.hostTile (sd q 5)).isSome = true ∧ s.exclusive = false) (q0 0x18 [(5, 0x10942)]) (svImg 0) :=
  by and_intros <;> decide +kernel

theorem hypotheses_met_ConfigCommits_5b :
    (fun (q : Sqe) (s : State) => Taken 0x18 q s ∧ (s.tmf.hostTile (sd q 5)).isSome = true ∧ s.exclusive = false) (q0 0x18 [(5, 0x10942)]) ({ svImg 0 with sup := wSup .bisque }) :=
  by and_intros <;> decide +kernel

theorem hypotheses_met_ConfigCommits_6 :
    (fun (img : List RawRec) (bad : List Nat) (s : State) (c : Commit) (cfg : Cfg) => s.sup.commit = some c ∧ c.kind = .config ∧ c.validated = false ∧ gateOf s (c.handles.headD 0) false (fun f => carryOk f s) img bad = .pass cfg ∧ (∀ x ∈ recsOf img .coeffSet, x.1 < 512) ∧ (∀ x ∈ recsOf img .coeffSet, s.tmf.usable (0x40 + x.1) = true ∧ 0x40 + x.1 ∉ bad)) (wImg false) ([]) (svCommit .service wCommit 0) wCommit (parseCfg false 1 77 (wImg false)) :=
  by and_intros <;> decide +kernel

theorem hypotheses_met_ConfigCommits_7 :
    (fun (img : List RawRec) (bad : List Nat) (s : State) (c : Commit) (cfg : Cfg) x => s.sup.commit = some c ∧ c.kind = .config ∧ c.validated = false ∧ gateOf s (c.handles.headD 0) false (fun f => carryOk f s) img bad = .pass cfg ∧ (∀ x ∈ recsOf img .coeffSet, x.1 < 512) ∧ x ∈ recsOf img .coeffSet ∧ 0x40 + x.1 ∈ bad ∧ 0x240 + x.1 ∈ bad) (wImg false) ([0x40, 0x240]) (svCommit .service wCommit 0) wCommit (parseCfg false 1 77 (wImg false)) ((0, wSetBytes)) :=
  by and_intros <;> decide +kernel

theorem hypotheses_met_ConfigCommits_8 :
    (fun (img : List RawRec) (bad : List Nat) (s : State) (c : Commit) (r : Nat) => s.sup.commit = some c ∧ c.kind = .config ∧ c.validated = false ∧ gateOf s (c.handles.headD 0) false (fun f => carryOk f s) img bad = .fail r none ∧ OwnedAs .pf0 c.sq c.cid s ∧ s.sup.holdupReady = true ∧ c.origin = .service ∧ s.sup.st = .service) ([]) ([]) (svCommit .service wCommit 0) wCommit 2 :=
  by and_intros <;> decide +kernel

theorem hypotheses_met_ConfigCommits_9 :
    (fun (img : List RawRec) (bad : List Nat) (s : State) (c : Commit) (r : Nat) => s.sup.commit = some c ∧ c.kind = .config ∧ c.validated = false ∧ gateOf s (c.handles.headD 0) false (fun f => carryOk f s) img bad = .fail r none ∧ OwnedAs .pf0 c.sq c.cid s ∧ s.sup.holdupReady = true ∧ (c.origin = .waitHost ∨ c.origin = .bisque) ∧ s.sup.st ≠ .boot ∧ s.sup.st ≠ .powerFail) ([]) ([]) (svCommit .bisque { wCommit with origin := .bisque } 0) ({ wCommit with origin := .bisque }) 2 :=
  by and_intros <;> decide +kernel

theorem hypotheses_met_ConfigCommits_9b :
    (fun (img : List RawRec) (bad : List Nat) (s : State) (c : Commit) (r : Nat) => s.sup.commit = some c ∧ c.kind = .config ∧ c.validated = false ∧ gateOf s (c.handles.headD 0) false (fun f => carryOk f s) img bad = .fail r none ∧ OwnedAs .pf0 c.sq c.cid s ∧ s.sup.holdupReady = true ∧ (c.origin = .waitHost ∨ c.origin = .bisque) ∧ s.sup.st ≠ .boot ∧ s.sup.st ≠ .powerFail) ((wImg false).drop 1) ([]) (svCommit .shipPending { wCommit with origin := .waitHost } 0) ({ wCommit with origin := .waitHost }) 8 :=
  by and_intros <;> decide +kernel

theorem hypotheses_met_ConfigCommits_10 :
    (fun (q : Sqe) (s : State) => Taken 0x19 q s ∧ s.sup.commit = none ∧ s.sup.posting = none) (q0 0x19 []) sv :=
  by and_intros <;> decide +kernel

theorem hypotheses_met_ConfigCommits_12 :
    (fun (q : Sqe) (s : State) c => Taken 0x19 q s ∧ s.sup.commit = some c ∧ (c.kind = .coeff ∨ c.kind = .config ∧ c.validated = true ∨ c.kind = .bisque ∧ c.writing = true)) (q0 0x19 []) (svCommit .service { wCommit with validated := true } 0) ({ wCommit with validated := true }) :=
  by and_intros <;> decide +kernel

theorem hypotheses_met_ConfigCommits_14 :
    (fun (q : Sqe) (s : State) c => Taken 0x19 q s ∧ s.sup.commit = some c ∧ c.validated = false ∧ c.origin = .service ∧ s.sup.st = .service ∧ c.kind = .config ∧ OwnedAs .pf0 c.sq c.cid s) (q0 0x19 []) (svCommit .service wCommit 0) wCommit :=
  by and_intros <;> decide +kernel

theorem hypotheses_met_ConfigCommits_11 :
    (fun (q : Sqe) (s : State) => Taken 0x19 q s ∧ s.sup.commit = none ∧ s.sup.posting.isSome = true) (q0 0x19 []) (svSup { wPow .service with posting := some wCommit }) :=
  by and_intros <;> decide +kernel

theorem hypotheses_met_ConfigCommits_12b :
    (fun (q : Sqe) (s : State) c => Taken 0x19 q s ∧ s.sup.commit = some c ∧ (c.kind = .coeff ∨ c.kind = .config ∧ c.validated = true ∨ c.kind = .bisque ∧ c.writing = true)) (q0 0x19 []) (svCommit .service { wCommit with kind := .bisque, writing := true } 0) ({ wCommit with kind := .bisque, writing := true }) :=
  by and_intros <;> decide +kernel

theorem hypotheses_met_ConfigCommits_12c :
    (fun (q : Sqe) (s : State) c => Taken 0x19 q s ∧ s.sup.commit = some c ∧ (c.kind = .coeff ∨ c.kind = .config ∧ c.validated = true ∨ c.kind = .bisque ∧ c.writing = true)) (q0 0x19 []) (svCommit .service { wCommit with kind := .coeff } 0) ({ wCommit with kind := .coeff }) :=
  by and_intros <;> decide +kernel

theorem hypotheses_met_ConfigCommits_13 :
    (fun (q : Sqe) (s : State) c => Taken 0x19 q s ∧ s.sup.commit = some c ∧ c.kind = .bisque ∧ c.writing = false ∧ OwnedAs .pf0 c.sq c.cid s) (q0 0x19 []) (svCommit .service { wCommit with kind := .bisque } 0) ({ wCommit with kind := .bisque }) :=
  by and_intros <;> decide +kernel

theorem hypotheses_met_Admission :
    ((fun (s : State) (c : Commit) (new : Cfg) => s.siteUp = true ∧ s.sup.commit = some c ∧ s.sup.image = some new ∧ s.sup.st ≠ .service ∧ OwnedAs .pf0 c.sq c.cid s) ({ svCommit .bisque { wCommit with validated := true } 0 with sup := { (svCommit .bisque { wCommit with validated := true } 0).sup with image := some (parseCfg false 1 77 (wImg false)) } }) ({ wCommit with validated := true }) (parseCfg false 1 77 (wImg false))) ∧
    ((fun (s : State) (c : Commit) (g : Nat) (l : List (Nat × List Byte)) => s.siteUp = true ∧ s.sup.image = none ∧ s.sup.commit = some c ∧ s.kce.staged = some (g, l) ∧ OwnedAs .pf0 c.sq c.cid s) ({ svStage with sup := { wPow .service with commit := some { wCommit with kind := .coeff, validated := true } }, kce := { svStage.kce with staged := some (63, [(0, wSetBytes), (7, wSetBytes)]) } }) ({ wCommit with kind := .coeff, validated := true }) 63 ([(0, wSetBytes), (7, wSetBytes)])) ∧
    ((fun (s : State) => s.siteUp = true ∧ s.sup.image = none ∧ s.kce.staged = none) (svGrp (wFire .idle) (wPg .running))) :=
  by and_intros <;> decide +kernel

theorem hypotheses_met_StoredCommits :
    ((fun (q : Sqe) (img : List RawRec) (bad : List Nat) (s : State) (cfg : Cfg) => Taken 0x1A q s ∧ (s.tmf.hostTile (sd q 5)).isSome = true ∧ s.exclusive = false ∧ gateOf s (sd q 5) true (fun _ => true) img bad = .pass cfg) (q0 0x1A [(5, 0x10942)]) (wImg true) ([]) ({ svImg 1 with sup := { wPow .service with bisqueValid := true } }) (parseCfg true 1 77 (wImg true))) ∧
    ((fun (q : Sqe) (img : List RawRec) (bad : List Nat) (s : State) (r : Nat) => Taken 0x1A q s ∧ (s.tmf.hostTile (sd q 5)).isSome = true ∧ s.exclusive = false ∧ gateOf s (sd q 5) true (fun _ => true) img bad = .fail r none) (q0 0x1A [(5, 0x10942)]) (wImg true) ([]) (svImg 0) 2) ∧
    ((fun (s : State) (c : Commit) (slot : Nat) (id : Nat) (recs : List RawRec) => s.sup.commit = some c ∧ s.sup.storing = some (slot, id, recs) ∧ OwnedAs .pf0 c.sq c.cid s) (svSup { wPow .service with commit := some { wCommit with kind := .bisque }, storing := some (1, 77, wImg true) }) ({ wCommit with kind := .bisque }) 1 77 (wImg true)) ∧
    ((fun (s : State) (c : Commit) (slot : Nat) (id : Nat) (recs : List RawRec) => s.sup.commit = some c ∧ s.sup.storing = some (slot, id, recs) ∧ OwnedAs .pf0 c.sq c.cid s ∧ c.kind = .bisque) (svSup { wPow .service with commit := some { wCommit with kind := .bisque }, storing := some (1, 77, wImg true) }) ({ wCommit with kind := .bisque }) 1 77 (wImg true)) ∧
    ((fun (q : Sqe) (bad : List Nat) (s : State) => Taken 0x31 q s ∧ firstBad (stageParams q bad s) = none ∧ (∀ x ∈ stageBands q, (s.closedTile x.2).isSome = true ∧ handleIdx x.2 ∉ bad) ∧ (s.conf.group (sd q 1)).isSome = true ∧ (s.lane (sd q 1)).st ≠ .idle ∧ (s.lane (sd q 1)).swapPending = false ∧ s.exclusive = false) (q0 0x31 [(1, 63), (6, 0x10942), (14, 1)]) ([]) svStage) ∧
    ((fun (s : State) (c : Commit) => s.sup.commit = some c ∧ c.kind = .bisque) (svCommit .service { wCommit with kind := .bisque } 0) ({ wCommit with kind := .bisque })) :=
  by and_intros <;> decide +kernel

theorem hypotheses_met_UpdateStaging :
    ((fun (q : Sqe) (bad : List Nat) (s : State) (x : Tile) (tiles : List (List Byte)) => Taken 0x94 q s ∧ s.tmf.hostTile (sd q 5) = some x ∧ x.closed = true ∧ s.sup.onTrial = false ∧ s.sup.staging = none ∧ s.sup.live = none ∧ handleIdx (sd q 5) ∉ bad ∧ readImage s bad (listedHandles x.bytes) = .good tiles) (q0 0x94 [(5, 0x10942)]) ([]) (svFw wFw) (wHost (padTo 4096 (le 4 0x10943))) ([wFw])) ∧
    ((fun (q : Sqe) (s : State) => Taken 0x94 q s ∧ s.tmf.hostTile (sd q 5) = none) (q0 0x94 [(5, 0x10945)]) (svFw wFw)) ∧
    ((fun (q : Sqe) (s : State) (x : Tile) => Taken 0x94 q s ∧ s.tmf.hostTile (sd q 5) = some x ∧ x.closed = false) (q0 0x94 [(5, 0x10944)]) (svFw wFw) ({ wHost wFw with closed := false })) ∧
    ((fun (q : Sqe) (s : State) (x : Tile) => Taken 0x94 q s ∧ s.tmf.hostTile (sd q 5) = some x ∧ x.closed = true ∧ (s.sup.onTrial = true ∨ s.sup.staging.isSome = true ∨ s.sup.live.isSome = true)) (q0 0x94 [(5, 0x10943)]) ({ svFw wFw with sup := wSlots .fallback .trial }) (wHost wFw)) ∧
    ((fun (s : State) (g : Staging) => s.sup.staging = some g ∧ g.slot < 2 ∧ OwnedAs .pf0 g.sq g.cid s) (svSup { wSlots .active .invalid with staging := some ⟨0, 9, 1, ⟨.staged, 300, 0, 0, [], [(0, 4)]⟩⟩ }) (⟨0, 9, 1, ⟨.staged, 300, 0, 0, [], [(0, 4)]⟩⟩)) ∧
    ((fun (s : State) (g : Staging) => s.sup.staging = some g ∧ g.slot < 2 ∧ OwnedAs .pf0 g.sq g.cid s) (svSup { wSlots .active .invalid with staging := some ⟨0, 9, 1, ⟨.staged, 300, 0, 0, [], [(0, 4)]⟩⟩ }) (⟨0, 9, 1, ⟨.staged, 300, 0, 0, [], [(0, 4)]⟩⟩)) ∧
    ((fun (q : Sqe) (s : State) => Taken 0x95 q s ∧ sd q 6 < 2 ∧ s.sup.slotIn .staged = none) (q0 0x95 []) (svSup (wSlots .active .inactive))) ∧
    ((fun (q : Sqe) (s : State) (x : Nat) => Taken 0x95 q s ∧ s.sup.slotIn .staged = some x ∧ s.exclusive = false ∧ s.sup.restart = none ∧ sd q 6 = 1) (q0 0x95 [(6, 1)]) (svSup (wSlots .active .staged)) 1) ∧
    ((fun (q : Sqe) (s : State) (x : Nat) => Taken 0x95 q s ∧ s.sup.slotIn .staged = some x ∧ s.exclusive = false ∧ s.sup.restart = none ∧ sd q 6 = 0 ∧ s.sup.formats = (s.sup.slot x).formats) (q0 0x95 [(6, 0)]) (svSup (wSlots .staged .active)) 0) ∧
    ((fun (q : Sqe) (s : State) (x : Nat) => Taken 0x95 q s ∧ s.sup.slotIn .staged = some x ∧ s.exclusive = false ∧ s.sup.restart = none ∧ sd q 6 = 0 ∧ s.sup.formats ≠ (s.sup.slot x).formats) (q0 0x95 [(6, 0)]) (svSup { wSlots .active .staged with formats := [] }) 1) ∧
    ((fun (q : Sqe) (s : State) => Taken 0x96 q s ∧ sd q 6 < 2 ∧ s.exclusive = false ∧ s.sup.restart = none ∧ (s.sup.slot (1 - s.sup.bootSlot)).st = .staged) (q0 0x96 [(6, 0)]) (svSup (wSlots .active .staged))) ∧
    ((fun (q : Sqe) (s : State) => Taken 0x96 q s ∧ sd q 6 < 2 ∧ s.exclusive = false ∧ s.sup.restart = none ∧ ((s.sup.slot (1 - s.sup.bootSlot)).st = .fallback ∨ (s.sup.slot (1 - s.sup.bootSlot)).st = .inactive) ∧ (s.sup.st = .service → (s.sup.slot (1 - s.sup.bootSlot)).cfgMin ≤ s.conf.fmt) ∧ sd q 6 = 1 ∧ s.sup.bootSlot < 2) (q0 0x96 [(6, 1)]) (svSup (wSlots .active .fallback))) ∧
    ((fun (q : Sqe) (s : State) => Taken 0x96 q s ∧ sd q 6 < 2 ∧ s.exclusive = false ∧ s.sup.restart = none ∧ ((s.sup.slot (1 - s.sup.bootSlot)).st = .fallback ∨ (s.sup.slot (1 - s.sup.bootSlot)).st = .inactive) ∧ (s.sup.st = .service → (s.sup.slot (1 - s.sup.bootSlot)).cfgMin ≤ s.conf.fmt) ∧ sd q 6 = 0 ∧ s.sup.formats = (s.sup.slot (1 - s.sup.bootSlot)).formats) (q0 0x96 [(6, 0)]) (svSup (wSlots .inactive .active))) ∧
    ((fun (q : Sqe) (s : State) => Taken 0x96 q s ∧ sd q 6 < 2 ∧ s.exclusive = false ∧ s.sup.restart = none ∧ (s.sup.slot (1 - s.sup.bootSlot)).st = .invalid) (q0 0x96 [(6, 0)]) (svSup (wSlots .active .invalid))) :=
  by and_intros <;> decide +kernel

theorem hypotheses_met_UpdateCourse :
    ((fun (i : Nat) (s : State) (l : LiveSwitch) (rest : List Nat) => s.sup.live = some l ∧ l.waiting = none ∧ l.todo = i :: rest ∧ (i = 0 → s.sup.perst = false ∧ s.hqe.tags = [])) 6 (svSup { wSlots .active .staged with live := some ⟨0, 9, 1, [6, 5, 1, 0, 3, 2, 4], none, false⟩ }) (⟨0, 9, 1, [6, 5, 1, 0, 3, 2, 4], none, false⟩) ([5, 1, 0, 3, 2, 4])) ∧
    ((fun (i : Nat) (s : State) (l : LiveSwitch) (rest : List Nat) => s.sup.live = some l ∧ l.waiting = none ∧ l.todo = i :: rest ∧ (i = 0 → s.sup.perst = false ∧ s.hqe.tags = [])) 0 (svSup { wSlots .active .staged with live := some ⟨0, 9, 1, [0, 3, 2, 4], none, false⟩ }) (⟨0, 9, 1, [0, 3, 2, 4], none, false⟩) ([3, 2, 4])) ∧
    ((fun (i : Nat) (s : State) (l : LiveSwitch) => s.sup.live = some l ∧ (l.waiting.isSome = true ∨ l.todo.head? ≠ some i)) 5 (svSup { wSlots .active .staged with live := some ⟨0, 9, 1, [6, 5, 1, 0, 3, 2, 4], none, false⟩ }) (⟨0, 9, 1, [6, 5, 1, 0, 3, 2, 4], none, false⟩)) ∧
    ((fun (i : Nat) (s : State) (l : LiveSwitch) => s.mainRuns = true ∧ i < 7 ∧ (i = 0 → s.sup.perst = false) ∧ s.sup.live = some l ∧ l.waiting = some i ∧ l.todo ≠ [] ∧ s.hqeReady = true) 5 (svSup { wSlots .active .staged with live := some ⟨0, 9, 1, [1, 0], some 5, false⟩ }) (⟨0, 9, 1, [1, 0], some 5, false⟩)) ∧
    ((fun (i : Nat) (s : State) (l : LiveSwitch) => s.mainRuns = true ∧ i < 7 ∧ (i = 0 → s.sup.perst = false) ∧ s.sup.live = some l ∧ l.waiting = some i ∧ l.todo = [] ∧ l.target < 2 ∧ s.hqeReady = true ∧ OwnedAs .pf0 l.sq l.cid s) 4 (svSup { wSlots .active .staged with switched := 0x6F, live := some ⟨0, 9, 1, [], some 4, false⟩ }) (⟨0, 9, 1, [], some 4, false⟩)) ∧
    ((fun (i : Nat) (s : State) (l : LiveSwitch) => s.mainRuns = true ∧ i < 7 ∧ (i = 0 → s.sup.perst = false) ∧ s.sup.live = some l ∧ l.waiting = some i ∧ l.todo = [] ∧ l.target < 2 ∧ s.hqeReady = true ∧ OwnedAs .pf0 l.sq l.cid s) 4 (svSup { wSlots .fallback .trial with bootSlot := 1, switched := 0x6F, live := some ⟨0, 9, 0, [], some 4, true⟩, trialOn := true }) (⟨0, 9, 0, [], some 4, true⟩)) ∧
    ((fun (s : State) (x : Nat) => s.sup.trialOn = true ∧ s.sup.slotIn .trial = some x) (svSup { wSlots .fallback .trial with bootSlot := 1, trialOn := true }) 1) ∧
    ((fun (s : State) (x : Nat) => s.sup.restart = some x ∧ s.sup.slotIn .trial = some x ∧ s.mainRuns = true ∧ s.sup.staging = none) (svSup { wSlots .fallback .trial with restart := some 1 }) 1) ∧
    ((fun (s : State) => s.hqe.tags ≠ []) ({ svTag with sup := { wSlots .active .staged with live := some ⟨0, 9, 1, [0, 3, 2, 4], none, false⟩ } })) ∧
    ((fun (i : Nat) (s : State) (l : LiveSwitch) => s.sup.live = some l ∧ (l.waiting.isSome = true ∨ l.todo.head? ≠ some i)) 1 (svSup { wSlots .active .staged with live := some ⟨0, 9, 1, [1, 0], some 5, false⟩ }) (⟨0, 9, 1, [1, 0], some 5, false⟩)) :=
  by and_intros <;> decide +kernel

theorem hypotheses_met_HostCommandsLeaveTheMeasurementAlone :
    ∃ t, hostOf (.nop (q0 0 [])) = some (0, q0 0 []) ∧ exec (.nop (q0 0 [])) sv = .next t :=
  ⟨_, rfl, rfl⟩

theorem hypotheses_met_SaggarLink :
    ((fun (f : SaggarFrame) => f.payload.length = f.length ∧ f.length ≤ 64 ∧ f.crc = crc16 (le 1 f.type ++ le 1 f.length ++ le 2 f.seq ++ f.payload)) (wFrameIn true)) ∧
    ((fun (f : SaggarFrame) => (f.payload.length ≠ f.length ∨ 64 < f.length ∨ f.crc ≠ crc16 (le 1 f.type ++ le 1 f.length ++ le 2 f.seq ++ f.payload))) (wFrameIn false)) ∧
    ((fun (f : SaggarFrame) => (f.payload.length ≠ f.length ∨ 64 < f.length ∨ f.crc ≠ crc16 (le 1 f.type ++ le 1 f.length ++ le 2 f.seq ++ f.payload))) (wFrameOf true 1 (List.replicate 65 1) true false none)) ∧
    ((fun (f : SaggarFrame) => (f.payload.length ≠ f.length ∨ 64 < f.length ∨ f.crc ≠ crc16 (le 1 f.type ++ le 1 f.length ++ le 2 f.seq ++ f.payload))) ({ wFrameIn true with length := 4 })) ∧
    ((fun (f : SaggarFrame) (s : State) => s.mainRuns = true ∧ s.sgm.runs = true ∧ s.lnk.up = true ∧ s.lnk.sgUp = true ∧ frameGood f = true ∧ f.toSaggar = true ∧ f.type = 1 ∧ s.lnk.heldPf1 = [] ∧ (∀ m ∈ s.lnk.inSt, CrossMsg.answer m.1 = none)) (wFrameIn true) (svFrame { sv.lnk with toSg := [(.open 3 4 true, 5, 1), (.close 3 1, 6, 2)], fails := (2, 1) })) ∧
    ((fun (f : SaggarFrame) (s : State) => s.mainRuns = true ∧ s.sgm.runs = true ∧ s.lnk.up = true ∧ s.lnk.sgUp = true ∧ frameGood f = true ∧ f.toSaggar = true ∧ f.type ≠ 1) (wFrameTo true true) (svFrame { sv.lnk with toSg := [(.open 3 4 true, 5, 1), (.close 3 1, 6, 2)], fails := (2, 1) })) ∧
    ((fun (f : SaggarFrame) (s : State) => s.mainRuns = true ∧ s.sgm.runs = true ∧ s.lnk.up = true ∧ s.lnk.sgUp = true ∧ frameGood f = true ∧ f.serial = none ∧ f.toSaggar = false ∧ f.type = 1 ∧ (∀ m ∈ s.lnk.inSt ++ s.lnk.toSt.take 1, CrossMsg.answer m.1 = none)) (wFrameOut true) (svFrame { sv.lnk with toSt := [(.credit 3 1, 5), (.credit 4 1, 6)], fails := (2, 1) })) ∧
    ((fun (f : SaggarFrame) (s : State) => s.mainRuns = true ∧ s.sgm.runs = true ∧ s.lnk.up = true ∧ s.lnk.sgUp = true ∧ frameGood f = true ∧ f.serial = none ∧ f.toSaggar = false ∧ f.type ≠ 1) (wFrameTo false true) (svFrame { sv.lnk with toSt := [(.credit 3 1, 5), (.credit 4 1, 6)], fails := (2, 1) })) ∧
    ((fun (f : SaggarFrame) (s : State) => s.mainRuns = true ∧ s.sgm.runs = true ∧ s.lnk.up = true ∧ s.lnk.sgUp = true ∧ frameGood f = false ∧ f.toSaggar = true ∧ s.lnk.seqs.1 ≠ f.seq) (wFrameIn false) (svFrame { sv.lnk with seqs := (8, 3), fails := (2, 0) })) ∧
    ((fun (f : SaggarFrame) (s : State) => s.mainRuns = true ∧ s.sgm.runs = true ∧ s.lnk.up = true ∧ s.lnk.sgUp = true ∧ frameGood f = false ∧ f.toSaggar = true ∧ s.lnk.seqs.1 = f.seq ∧ s.lnk.fails.1 < 2) (wFrameIn false) (svFrame { sv.lnk with seqs := (9, 3), fails := (1, 0) })) ∧
    ((fun (f : SaggarFrame) (s : State) => s.mainRuns = true ∧ s.sgm.runs = true ∧ s.lnk.up = true ∧ s.lnk.sgUp = true ∧ frameGood f = false ∧ f.toSaggar = true ∧ s.lnk.seqs.1 = f.seq ∧ s.lnk.fails.1 = 2 ∧ s.sup.holdupReady = true ∧ (s.hqe.fwd.Pairwise (fun a b => ¬(a.fn = b.fn ∧ a.sq = b.sq ∧ a.cid = b.cid)))) (wFrameIn false) ({ svFrame { sv.lnk with seqs := (9, 3), fails := (2, 0), toSg := [(.open 3 4 true, 5, 1), (.close 3 1, 0, 2)] } with hqe := { sv.hqe with fwd := [⟨.pf1, 1, 5, 0xA0, true, true, false, false⟩, ⟨.pf0, 1, 5, 0x13, true, false, false, false⟩, ⟨.pf1, 1, 6, 0xA0, true, true, false, false⟩] } })) ∧
    ((fun (f : SaggarFrame) (s : State) => s.mainRuns = true ∧ s.sgm.runs = true ∧ s.lnk.up = false ∧ frameGood f = true ∧ f.serial = none ∧ f.toSaggar = false ∧ f.type ≠ 1 ∧ 8 ≤ s.lnk.runs.2 + 1 ∧ (s.lnk.acked.2 || f.ackProbe) = true) (wFrameTo false true) ({ svFrame { sv.lnk with up := false, sgUp := true, runs := (3, 7), heldPf1 := [(7, 1, 2, 3)] } with spa := { sv.spa with outbox := [⟨.open 3 4 true, 5⟩, ⟨.close 3 1, 9⟩] } })) ∧
    ((fun (f : SaggarFrame) (s : State) => s.mainRuns = true ∧ s.sgm.runs = true ∧ s.lnk.up = false ∧ frameGood f = true ∧ f.serial = none ∧ f.toSaggar = false ∧ f.type ≠ 1 ∧ 8 ≤ s.lnk.runs.2 + 1 ∧ (s.lnk.acked.2 || f.ackProbe) = true) (wFrameTo false true) ({ svFrame { sv.lnk with up := false, sgUp := false, runs := (3, 7), heldPf1 := [(7, 1, 2, 3)] } with spa := { sv.spa with outbox := [⟨.open 3 4 true, 5⟩, ⟨.close 3 1, 9⟩] } })) ∧
    ((fun (f : SaggarFrame) (s : State) => s.mainRuns = true ∧ s.sgm.runs = true ∧ s.lnk.up = false ∧ frameGood f = true ∧ f.serial = none ∧ f.toSaggar = false ∧ f.type ≠ 1 ∧ (s.lnk.runs.2 + 1 < 8 ∨ (s.lnk.acked.2 || f.ackProbe) = false)) (wFrameTo false true) (svFrame { sv.lnk with up := false, sgUp := true, runs := (3, 6) })) ∧
    ((fun (f : SaggarFrame) (s : State) => s.mainRuns = true ∧ s.sgm.runs = true ∧ s.lnk.up = false ∧ frameGood f = true ∧ f.serial = none ∧ f.toSaggar = false ∧ f.type ≠ 1 ∧ (s.lnk.runs.2 + 1 < 8 ∨ (s.lnk.acked.2 || f.ackProbe) = false)) (wFrameTo false false) (svFrame { sv.lnk with up := false, sgUp := false, runs := (3, 16) })) ∧
    ((fun (f : SaggarFrame) (s : State) => s.mainRuns = true ∧ s.sgm.runs = true ∧ s.lnk.sgUp = false ∧ frameGood f = true ∧ f.toSaggar = true ∧ f.type ≠ 1 ∧ 8 ≤ s.lnk.runs.1 + 1 ∧ (s.lnk.acked.1 || f.ackProbe) = true) (wFrameTo true true) (svFrame { sv.lnk with up := true, sgUp := false, runs := (7, 0), heldPf1 := [(7, 1, 2, 3)] })) ∧
    ((fun (f : SaggarFrame) (s : State) => s.mainRuns = true ∧ s.sgm.runs = true ∧ s.lnk.sgUp = false ∧ frameGood f = true ∧ f.toSaggar = true ∧ f.type ≠ 1 ∧ 8 ≤ s.lnk.runs.1 + 1 ∧ (s.lnk.acked.1 || f.ackProbe) = true) (wFrameTo true false) (svFrame { sv.lnk with up := false, sgUp := false, runs := (7, 0), acked := (true, false), heldPf1 := [(7, 1, 2, 3)] })) ∧
    ((fun (f : SaggarFrame) (s : State) => s.mainRuns = true ∧ s.sgm.runs = true ∧ s.lnk.sgUp = false ∧ frameGood f = true ∧ f.toSaggar = true ∧ f.type ≠ 1 ∧ (s.lnk.runs.1 + 1 < 8 ∨ (s.lnk.acked.1 || f.ackProbe) = false)) (wFrameTo true true) (svFrame { sv.lnk with sgUp := false, runs := (6, 0), heldPf1 := [(7, 1, 2, 3)] })) ∧
    ((fun (f : SaggarFrame) (s : State) => s.mainRuns = true ∧ s.sgm.runs = true ∧ s.lnk.up = false ∧ s.lnk.sgUp = false ∧ frameGood f = false) (wFrameIn false) (svFrame { sv.lnk with up := false, sgUp := false, runs := (6, 5) })) ∧
    ((fun (s : State) => s.mainRuns = true ∧ s.sgm.runs = true ∧ s.lnk.up = false ∧ s.lnk.sgUp = false) (svFrame { sv.lnk with up := false, sgUp := false, probes := (3, 4), acked := (true, true) })) ∧
    ((fun (s : State) => s.mainRuns = true ∧ s.sgm.runs = true ∧ s.lnk.up = true ∧ s.lnk.sgUp = false) (svFrame { sv.lnk with up := true, sgUp := false, probes := (3, 4), acked := (true, true) })) ∧
    ((fun (s : State) => s.mainRuns = true ∧ s.sgm.runs = true ∧ s.lnk.up = false ∧ s.lnk.sgUp = true) (svFrame { sv.lnk with up := false, sgUp := true, probes := (3, 4), acked := (true, true) })) ∧
    ((fun (s : State) => s.lnk.up = true ∧ s.lnk.sgUp = true) sv) ∧
    ((fun (f : SaggarFrame) (s : State) (n : BitVec 64) => s.mainRuns = true ∧ s.sgm.runs = true ∧ frameGood f = true ∧ f.serial = some n ∧ f.toSaggar = false ∧ n ≠ s.mss.serial ∧ s.sup.saggarSerial ≠ 0 ∧ s.sup.saggarSerial ≠ n.toNat ∧ s.sup.holdupReady = true ∧ s.lnk.up = true ∧ s.lnk.sgUp = true) ({ wFrameTo false true with serial := some 77 }) ({ svSup { wPow .service with saggarSerial := 5 } with mss := { sv.mss with serial := 3 } }) 77) ∧
    ((fun (f : SaggarFrame) (s : State) => s.mainRuns = true ∧ s.sgm.runs = true ∧ s.lnk.up = true ∧ s.lnk.sgUp = true ∧ frameGood f = true ∧ f.serial = none ∧ f.toSaggar = false ∧ f.type = 1 ∧ s.lnk.heldPf1 = [] ∧ (∀ m ∈ s.lnk.inSt ++ s.lnk.toSt.take 1, CrossMsg.answer m.1 = none)) (wFrameOut true) (svFrame { sv.lnk with toSt := [(.credit 3 1, 5), (.credit 4 1, 6)], fails := (2, 1) })) :=
  by and_intros <;> decide +kernel

theorem hypotheses_met_TurnedAwayCommandsChangeNothing :
    (fun (i : Instr) (op : Nat) (q : Sqe) (s : State) (st : Nat) (r : Nat) => hostOf i = some (op, q) ∧ Owned q s ∧ preCheck op q s = some (st, r)) (.tileFree (q0 0x14 [(6, 5)])) 0x14 (q0 0x14 [(6, 5)]) sv 0x11 6 :=
  by and_intros <;> decide +kernel

theorem hypotheses_met_ReferencesChangeOnlyAtTheGate :
    (∃ t, exec (.groupRelease (q0 0x25 [(1, 63), (6, 0x100)])) (svGrp { KGroup.reset with st := .hold } (wPg .held)) = .next t ∧
      ∀ bad, (.groupRelease (q0 0x25 [(1, 63), (6, 0x100)]) : Instr) ≠ .setpointGate bad) ∧
    ∃ t, exec (.thermalTick []) sv = .next t ∧ (∀ bad, (.thermalTick [] : Instr) ≠ .setpointGate bad) ∧
      (∀ bad, (.thermalTick [] : Instr) ≠ .epochBoundary bad) ∧ (∀ q, (.thermalTick [] : Instr) ≠ .bisqueEnter q) ∧
      (∀ bad, (.thermalTick [] : Instr) ≠ .bisqueEntry bad) ∧ (∀ n, (.thermalTick [] : Instr) ≠ .watchdogMiss n) ∧
      (.thermalTick [] : Instr) ≠ .deviceResetOrder ∧ (.thermalTick [] : Instr) ≠ .updateRestartReset ∧
      (.thermalTick [] : Instr) ≠ .powerFail ∧ ∀ q, (.thermalTick [] : Instr) ≠ .groupRelease q :=
  ⟨⟨_, rfl, nofun⟩, _, rfl, nofun, nofun, nofun, nofun, nofun, nofun, nofun, nofun, nofun⟩

end Sys2Proof.Tests
end

section
/-! PROOFS. Host commands that a check before their parameters turns away, and the ring management commands outside SQ 0 (R82). -/

namespace Sys2Proof.Machine

open Sys2Proof

/-- An owned command that fails a check of R515 before its parameters is taken and completes with that check's status and result,
whatever its parameters and its body. -/
theorem hostCmd_turnedAway {op st r : Nat} {q : Sqe} {ps : List (Bool × Nat × Nat)} {body : State → State} {s : State}
    (h : Owned q s) (hp : preCheck op q s = some (st, r)) :
    hostCmd op q ps body s.start = (s.start.accept q).done q st r := by
  have ha : s.start.arrives q = true := (State.arrives_congr q rfl).trans h.2
  simp [hostCmd, ha, preCheck_taken, hp]

/-- A command whose meaning is `hostCmd` has no effect but its completion when a check before its parameters fails. -/
theorem answers_turnedAway {i : Instr} {op st r : Nat} {q : Sqe} {ps : List (Bool × Nat × Nat)} {body : State → State}
    {s : State} (he : exec i s = .next (hostCmd op q ps body s.start)) (h : Owned q s)
    (hp : preCheck op q s = some (st, r)) : Answers i s (OnlyCompletes q st r s) := by
  rw [hostCmd_turnedAway h hp] at he
  exact ⟨_, he, done_onlyCompletes h.1⟩

/-- Both functions have the ring management opcodes (Table 03-9). -/
theorem opRow_ringManagement_isSome (fn : Fn) {op : Nat} (h1 : 1 ≤ op) (h6 : op ≤ 6) : (opRow fn op).isSome = true := by
  cases fn <;> interval_cases op <;> rfl

/-- Outside SQ 0 the ring check turns a ring management command away, before the device state and the general SQE fields are
looked at (R82, R515). -/
theorem preCheck_ringManagement_of_sq_ne_zero {op : Nat} {q : Sqe} (s : State) (h1 : 1 ≤ op) (h6 : op ≤ 6)
    (hop : opOf q = op) (hsq : q.sq ≠ 0) : preCheck op q s = some (stBAD_STATE, 0) := by
  obtain ⟨row, hrow⟩ := Option.isSome_iff_exists.mp (opRow_ringManagement_isSome q.fn h1 h6)
  simp [preCheck, hrow, hop, h1, h6, hsq]

/-- Settles O4: each of the six commands is a `hostCmd` of its opcode, whose ring check fails outside SQ 0. -/
theorem ringManagementFromSqZeroOnly : Obligations.RingManagementFromSqZeroOnly := by
  intro i q s ho hsq hi
  rcases hi with ⟨rfl, hop⟩ | ⟨rfl, hop⟩ | ⟨rfl, hop⟩ | ⟨rfl, hop⟩ | ⟨rfl, hop⟩ | ⟨rfl, hop⟩
  all_goals
    exact answers_turnedAway rfl ho (preCheck_ringManagement_of_sq_ne_zero s (by decide) (by decide) hop hsq)

end Sys2Proof.Machine
end
section
/-! PROOFS. Little-endian fields of byte strings (R7), and the entry of an SGM register (R319, Table 12-9). -/

namespace Sys2Proof.Machine

open Sys2Proof

/-- A field written in `n` bytes takes `n` bytes. -/
@[simp] theorem le_length (n v : Nat) : (le n v).length = n := by
  induction n generalizing v with
  | zero => rfl
  | succ n ih => simp [le, ih]

/-- The bytes written for a number read back as its low `n` bytes. -/
theorem leVal_le (n v : Nat) : leVal (le n v) = v % 256 ^ n := by
  induction n generalizing v with
  | zero => simp [le, leVal, Nat.mod_one]
  | succ n ih =>
    rw [le, leVal, ih, BitVec.toNat_ofNat, pow_succ' 256]
    exact Nat.mod_mul.symm

/-- A field written at offset `o` of a record is read back from there, in whatever record it stands. -/
theorem u_append_le {p : List Byte} {o : Nat} (r : List Byte) (n v : Nat) (ho : p.length = o) :
    u (p ++ (le n v ++ r)) o n = v % 256 ^ n := by
  rw [u, List.drop_left' ho, List.take_left' (le_length n v), leVal_le]

section
variable (id unit roll flags value : Nat)

/-- A register entry takes 16 bytes (Table 12-9). -/
@[simp] theorem regEntry_length : (regEntry id unit roll flags value).length = 16 := by simp [regEntry, zeros]

/-- Byte 0 of a register entry is the register's id. -/
theorem u_regEntry_id : u (regEntry id unit roll flags value) 0 1 = id % 256 := by
  simpa [regEntry] using u_append_le (p := []) _ 1 id rfl

/-- Byte 2 of a register entry is its roll count. -/
theorem u_regEntry_roll : u (regEntry id unit roll flags value) 2 1 = roll % 256 := by
  simpa [regEntry] using u_append_le (p := le 1 id ++ le 1 unit) _ 1 roll (by simp)

/-- Bytes 4 to 11 of a register entry are its value. -/
theorem u_regEntry_value : u (regEntry id unit roll flags value) 4 8 = value % 256 ^ 8 := by
  simpa [regEntry] using u_append_le (p := le 1 id ++ le 1 unit ++ le 1 roll ++ le 1 flags) _ 8 value (by simp)

end

/-- The ids of Table 12-4 fit the entry's id byte (R324). -/
theorem sgmId_lt_256 {id : Nat} (h : sgmId id = true) : id < 256 := by
  simp only [sgmId, Bool.or_eq_true, Bool.and_eq_true, decide_eq_true_eq] at h
  omega

/-- A roll count fits its byte. -/
theorem regRoll_lt_256 (acc : Nat) : regRoll acc < 256 := Nat.mod_lt _ (by decide)

/-- A register value fits its 8 bytes: it is below the register's modulus of 10^12. -/
theorem regVal_lt_pow (acc : Nat) : regVal acc < 256 ^ 8 :=
  (Nat.mod_lt _ (by decide : 0 < regMod)).trans (by decide)

/-- Settles O14: an SGM entry writes `regRoll` and `regVal` of the register's own accumulator, and each of the three fields fits
its width, so that it is read back whole. -/
theorem registerValues : Obligations.RegisterValues := by
  intro s id hid
  refine ⟨regEntry_length .., ?_, ?_, ?_⟩
  · exact (u_regEntry_id ..).trans (Nat.mod_eq_of_lt (sgmId_lt_256 hid))
  · exact (u_regEntry_roll ..).trans (Nat.mod_eq_of_lt (regRoll_lt_256 _))
  · exact (u_regEntry_value ..).trans (Nat.mod_eq_of_lt (regVal_lt_pow _))

end Sys2Proof.Machine
end
section
/-! PROOFS. What a command can change: the parts of the state, and for each operation the parts it leaves alone. -/

namespace Sys2Proof.Machine

open Sys2Proof

/-- The parts of the state that the frame facts speak of: its fields, with the HQE and the Spire cut into the lists and records
that the shared operations change (`fwd`, `ready`; `faults` for journal and last event, `sj` for the state journal), and beside four
of the fields the values that the invariants speak of: `banks` (the gate banks of the lanes), `chans` (state and hold of the
load-switch channels), `meters` (accumulators and residues) and `seal` (the Saggar's serial and seal count). -/
inductive Part where
  | fwd | ready | rings | tmf | faults | sj | sup | lnk | cfg | spa | kce | banks | psc | pla | vpc | tcm | lsw | chans
  | bse | cell | sgm | meters | bte | mss | seal | shelf | blk | evr | out | cur | free | pending
deriving DecidableEq

/-- The type of a part's value. -/
abbrev Part.Val : Part → Type
  | .fwd => List Fwd
  | .ready => List Cqe
  | .rings => Hqe
  | .tmf => Tmf
  | .faults => Option (Nat × Nat × Nat × Nat) × List FaultRec × Nat × List FaultRec
  | .sj => (Option (NvSlot Journal) × Option (NvSlot Journal)) × Option Journal
  | .sup => Sup
  | .lnk => SgLink
  | .cfg => Option Cfg
  | .spa => Spa
  | .kce => Kce
  | .banks => Nat → Int × Nat
  | .psc => Psc
  | .pla => Pla
  | .vpc => Vpc
  | .tcm => Tcm
  | .lsw => Lsw
  | .chans => List (LSt × Bool)
  | .bse => Bse
  | .cell => Cell
  | .sgm => Sgm
  | .meters => List Nat × List Nat
  | .bte => Bte
  | .mss => Mss
  | .seal => BitVec 64 × Nat
  | .shelf => List SaggarUnit
  | .blk => Blk
  | .evr => Evr
  | .out => List Out
  | .cur => Option (Fn × Nat × Nat)
  | .free => Nat
  | .pending => List Instr

/-- The HQE without the lists of forwarded and ready commands. -/
@[simp] def Hqe.rings (h : Hqe) : Hqe := { h with fwd := [], ready := [] }

/-- What an event and a fault record change of the Spire: its last event, and the journal with its deferred records. -/
@[simp] def Sup.faults (p : Sup) : Option (Nat × Nat × Nat × Nat) × List FaultRec × Nat × List FaultRec :=
  (p.lastEvent, p.journal, p.journalSeq, p.deferred)

/-- The Spire without its last event, its fault journal and the state journal. -/
@[simp] def Sup.rest (p : Sup) : Sup :=
  { p with lastEvent := none, journal := [], journalSeq := 0, deferred := [], sjSlots := (none, none), sjNext := none }

/-- The fault journal and the state journal of a Spire are those of another. -/
abbrev Sup.SameJournals (x y : Sup) : Prop :=
  x.journal = y.journal ∧ x.journalSeq = y.journalSeq ∧ x.deferred = y.deferred ∧ x.sjSlots = y.sjSlots ∧ x.sjNext = y.sjNext

/-- Both journals and the last event of a Spire are those of another. -/
abbrev Sup.SameLogs (x y : Sup) : Prop := x.lastEvent = y.lastEvent ∧ x.SameJournals y

@[simp] theorem Sup.ite_sameLogs (c : Prop) [Decidable c] (x y : Sup) :
    (if c then x else y).lastEvent = (if c then x.lastEvent else y.lastEvent) ∧
    (if c then x else y).journal = (if c then x.journal else y.journal) ∧
    (if c then x else y).journalSeq = (if c then x.journalSeq else y.journalSeq) ∧
    (if c then x else y).deferred = (if c then x.deferred else y.deferred) ∧
    (if c then x else y).sjSlots = (if c then x.sjSlots else y.sjSlots) ∧
    (if c then x else y).sjNext = (if c then x.sjNext else y.sjNext) := by
  split <;> exact ⟨rfl, rfl, rfl, rfl, rfl, rfl⟩

@[simp] theorem Sup.retPut_sameLogs (m : RetireMap) (x : Sup) : (x.retPut m).SameLogs x := by simp [Sup.SameLogs, Sup.SameJournals, Sup.retPut]

@[simp] theorem Sup.impPut_sameLogs (l : List (Nat × List Nat)) (x : Sup) : (x.impPut l).SameLogs x := by simp [Sup.SameLogs, Sup.SameJournals, Sup.impPut]

@[simp] theorem Sup.onSlot_sameLogs (i : Nat) (f : Slot → Slot) (x : Sup) : (x.onSlot i f).SameLogs x := by simp [Sup.SameLogs, Sup.SameJournals, Sup.onSlot]

@[simp] theorem Sup.mark_sameLogs (i : Nat) (st : SlotState) (x : Sup) : (x.mark i st).SameLogs x := by simp [Sup.SameLogs, Sup.SameJournals, Sup.mark]

@[simp] theorem Sup.marked_sameLogs (i : Nat) (b : Bool) (x : Sup) : (x.marked i b).SameLogs x := by simp [Sup.SameLogs, Sup.SameJournals, Sup.marked]

@[simp] theorem Sup.bootTo_sameLogs (i : Nat) (x : Sup) : (x.bootTo i).SameLogs x := by simp [Sup.SameLogs, Sup.SameJournals, Sup.bootTo]

@[simp] theorem Sup.runs_sameLogs (i : Nat) (x : Sup) : (x.runs i).SameLogs x := by simp [Sup.SameLogs, Sup.SameJournals, Sup.runs]

@[simp] theorem Sup.beginTrial_sameLogs (x : Sup) : x.beginTrial.SameLogs x := by simp [Sup.SameLogs, Sup.SameJournals, Sup.beginTrial]

@[simp] theorem Sup.mainLost_sameJournals (x : Sup) : x.mainLost.SameJournals x := by
  unfold Sup.mainLost
  cases x.staging <;> simp [Sup.SameJournals]

@[simp] theorem supTick_sameLogs (x : Sup) : (supTick x).SameLogs x := by
  simp only [supTick, sTimeTick]
  (repeat' split) <;> simp [Sup.SameLogs, Sup.SameJournals]

/-- The gate bank of each lane. -/
def Kce.banks (k : Kce) (g : Nat) : Int × Nat :=
  ((k.groups.getD g KGroup.reset).bankRef, (k.groups.getD g KGroup.reset).bankLim)

/-- State and hold of each load-switch channel. -/
@[simp] def Lsw.marks (l : Lsw) : List (LSt × Bool) := l.chans.map (fun c => (c.st, c.held))

/-- A part's value in a state. -/
def part (π : Part) (s : State) : π.Val :=
  match π with
  | .fwd => s.hqe.fwd
  | .ready => s.hqe.ready
  | .rings => s.hqe.rings
  | .tmf => s.tmf
  | .faults => s.sup.faults
  | .sj => (s.sup.sjSlots, s.sup.sjNext)
  | .sup => s.sup.rest
  | .lnk => s.lnk
  | .cfg => s.cfg
  | .spa => s.spa
  | .kce => s.kce
  | .banks => s.kce.banks
  | .psc => s.psc
  | .pla => s.pla
  | .vpc => s.vpc
  | .tcm => s.tcm
  | .lsw => s.lsw
  | .chans => s.lsw.marks
  | .bse => s.bse
  | .cell => s.cell
  | .sgm => s.sgm
  | .meters => (s.sgm.acc, s.sgm.res)
  | .bte => s.bte
  | .mss => s.mss
  | .seal => (s.mss.serial, s.mss.sealCount)
  | .shelf => s.shelf
  | .blk => s.blk
  | .evr => s.evr
  | .out => s.out
  | .cur => s.cur
  | .free => s.free
  | .pending => s.pending

variable {π : Part}

@[simp] theorem KGroup.clear_bank (st : KState) (f : Nat → Option CoeffSet) (k : KGroup) :
    (k.clear st f).bankRef = k.bankRef ∧ (k.clear st f).bankLim = k.bankLim := ⟨rfl, rfl⟩

@[simp] theorem KGroup.nextCount_bank (k : KGroup) : k.nextCount.bankRef = k.bankRef ∧ k.nextCount.bankLim = k.bankLim := ⟨rfl, rfl⟩

@[simp] theorem KGroup.ite_bank (c : Prop) [Decidable c] (k l : KGroup) :
    (if c then k else l).bankRef = (if c then k.bankRef else l.bankRef) ∧
    (if c then k else l).bankLim = (if c then k.bankLim else l.bankLim) := by
  split <;> exact ⟨rfl, rfl⟩

@[simp] theorem Sgm.renew_meters (g : Sgm) : g.renew.acc = g.acc ∧ g.renew.res = g.res := ⟨rfl, rfl⟩

@[simp] theorem Mss.setKey_seal (t : Nat) (k : List Byte) (m : Mss) :
    (m.setKey t k).serial = m.serial ∧ (m.setKey t k).sealCount = m.sealCount := by
  unfold Mss.setKey
  (repeat' split) <;> exact ⟨rfl, rfl⟩

/-- A conditional operation changes a part as its branches do. -/
@[simp] theorem part_ite (c : Prop) [Decidable c] (a b : State) : part π (if c then a else b) = if c then part π a else part π b :=
  apply_ite (part π) c a b

/-- The same of an operation that answers a value beside the state. -/
@[simp] theorem part_ite_snd {β : Type} (c : Prop) [Decidable c] (a b : β × State) :
    part π (if c then a else b).2 = if c then part π a.2 else part π b.2 :=
  apply_ite (fun x => part π x.2) c a b

/-- An operation repeated over a list leaves alone what each of its runs leaves alone. -/
@[simp] theorem part_foldl {α : Type} {f : State → α → State} (h : ∀ s x, part π (f s x) = part π s) (l : List α) (s : State) :
    part π (l.foldl f s) = part π s := by
  induction l generalizing s with
  | nil => rfl
  | cons x l ih => exact (ih _).trans (h s x)

/-- The same of a repeated operation that carries a value along. -/
@[simp] theorem part_foldl_fst {α β : Type} {f : State × β → α → State × β} (h : ∀ a x, part π (f a x).1 = part π a.1) (l : List α)
    (a : State × β) : part π (l.foldl f a).1 = part π a.1 := by
  induction l generalizing a with
  | nil => rfl
  | cons x l ih => exact (ih _).trans (h a x)

/-! ### One part changed -/

@[simp] theorem withCur_part (hp : π ∉ [.cur]) (c : Option (Fn × Nat × Nat)) (s : State) : part π { s with cur := c } = part π s := by
  cases π <;> simp_all [part]

@[simp] theorem withFree_part (hp : π ∉ [.free]) (n : Nat) (s : State) : part π { s with free := n } = part π s := by
  cases π <;> simp_all [part]

@[simp] theorem withCell_part (hp : π ∉ [.cell]) (c : Cell) (s : State) : part π { s with cell := c } = part π s := by
  cases π <;> simp_all [part]

@[simp] theorem withCfg_part (hp : π ∉ [.cfg]) (c : Option Cfg) (s : State) : part π { s with cfg := c } = part π s := by
  cases π <;> simp_all [part]

@[simp] theorem withBte_part (hp : π ∉ [.bte]) (b : Bte) (s : State) : part π { s with bte := b } = part π s := by
  cases π <;> simp_all [part]

@[simp] theorem withEvr_part (hp : π ∉ [.evr]) (e : Evr) (s : State) : part π { s with evr := e } = part π s := by
  cases π <;> simp_all [part]

@[simp] theorem withPending_part (hp : π ∉ [.pending]) (l : List Instr) (s : State) : part π { s with pending := l } = part π s := by
  cases π <;> simp_all [part]

@[simp] theorem onHqe_part {f : Hqe → Hqe} (h1 : π ≠ .fwd ∨ ∀ h, (f h).fwd = h.fwd) (h2 : π ≠ .ready ∨ ∀ h, (f h).ready = h.ready)
    (h3 : π ≠ .rings ∨ ∀ h, (f h).rings = h.rings) (s : State) : part π (s.onHqe f) = part π s := by
  cases π <;> simp_all [part]

@[simp] theorem onFn_part (hp : π ∉ [.rings]) (fn : Fn) (f : FnState → FnState) (s : State) : part π (s.onFn fn f) = part π s :=
  onHqe_part (by simp) (by simp) (by simp_all) s

@[simp] theorem onTmf_part (hp : π ∉ [.tmf]) (f : Tmf → Tmf) (s : State) : part π (s.onTmf f) = part π s := by
  cases π <;> simp_all [part]

@[simp] theorem onSup_part {f : Sup → Sup} (h1 : π ≠ .faults ∨ ∀ x, (f x).faults = x.faults)
    (h2 : π ≠ .sj ∨ ∀ x, (f x).sjSlots = x.sjSlots ∧ (f x).sjNext = x.sjNext) (h3 : π ≠ .sup ∨ ∀ x, (f x).rest = x.rest) (s : State) :
    part π (s.onSup f) = part π s := by
  cases π <;> simp_all [part]

@[simp] theorem onLnk_part (hp : π ∉ [.lnk]) (f : SgLink → SgLink) (s : State) : part π (s.onLnk f) = part π s := by
  cases π <;> simp_all [part]

@[simp] theorem onSpa_part (hp : π ∉ [.spa]) (f : Spa → Spa) (s : State) : part π (s.onSpa f) = part π s := by
  cases π <;> simp_all [part]

@[simp] theorem onKce_part {f : Kce → Kce} (hp : π ∉ [.kce]) (h : π ≠ .banks ∨ ∀ k, (f k).groups = k.groups) (s : State) :
    part π (s.onKce f) = part π s := by
  cases π <;> simp_all [part]
  funext g
  simp [Kce.banks, h]

theorem onKce_part_of_banks {f : Kce → Kce} (hp : π ∉ [.kce]) (h : ∀ k, (f k).banks = k.banks) (s : State) :
    part π (s.onKce f) = part π s := by
  cases π <;> simp_all [part]

/-- A lane changed outside its gate bank keeps every gate bank. -/
@[simp] theorem onLane_part {f : KGroup → KGroup} (hp : π ∉ [.kce])
    (h : π ≠ .banks ∨ ∀ k, (f k).bankRef = k.bankRef ∧ (f k).bankLim = k.bankLim) (g : Nat) (s : State) :
    part π (s.onLane g f) = part π s := by
  unfold State.onLane
  by_cases hb : π = .banks
  · subst hb
    replace h := h.resolve_left (by simp)
    funext n
    simp only [part, Kce.banks, State.onKce_kce, upd, List.getD_eq_getElem?_getD, List.getElem?_modify]
    cases s.kce.groups[n]? with
    | none => rfl
    | some k => by_cases hn : g = n <;> simp [hn, h k]
  · exact onKce_part hp (by simp [hb]) s

@[simp] theorem onPsc_part (hp : π ∉ [.psc]) (f : Psc → Psc) (s : State) : part π (s.onPsc f) = part π s := by
  cases π <;> simp_all [part]

@[simp] theorem onPg_part (hp : π ∉ [.psc]) (g : Nat) (f : PGroup → PGroup) (s : State) : part π (s.onPg g f) = part π s :=
  onPsc_part hp _ s

@[simp] theorem onPla_part (hp : π ∉ [.pla]) (f : Pla → Pla) (s : State) : part π (s.onPla f) = part π s := by
  cases π <;> simp_all [part]

@[simp] theorem onLink_part (hp : π ∉ [.pla]) (n : Nat) (f : Link → Link) (s : State) : part π (s.onLink n f) = part π s :=
  onPla_part hp _ s

@[simp] theorem onVpc_part (hp : π ∉ [.vpc]) (f : Vpc → Vpc) (s : State) : part π (s.onVpc f) = part π s := by
  cases π <;> simp_all [part]

@[simp] theorem onPrt_part (hp : π ∉ [.vpc]) (n : Nat) (f : Port → Port) (s : State) : part π (s.onPrt n f) = part π s :=
  onVpc_part hp _ s

@[simp] theorem onTcm_part (hp : π ∉ [.tcm]) (f : Tcm → Tcm) (s : State) : part π (s.onTcm f) = part π s := by
  cases π <;> simp_all [part]

@[simp] theorem onSens_part (hp : π ∉ [.tcm]) (n : Nat) (f : Sens → Sens) (s : State) : part π (s.onSens n f) = part π s :=
  onTcm_part hp _ s

@[simp] theorem onAq_part (hp : π ∉ [.tcm]) (n : Nat) (f : Aqaux → Aqaux) (s : State) : part π (s.onAq n f) = part π s :=
  onTcm_part hp _ s

@[simp] theorem onLsw_part {f : Lsw → Lsw} (hp : π ∉ [.lsw]) (h : π ≠ .chans ∨ ∀ l, (f l).marks = l.marks) (s : State) :
    part π (s.onLsw f) = part π s := by
  cases π <;> simp_all [part]

/-- A channel changed beside its state and its hold keeps the marks of every channel. -/
@[simp] theorem onCh_part {f : LChan → LChan} (hp : π ∉ [.lsw]) (h : π ≠ .chans ∨ ∀ c, (f c).st = c.st ∧ (f c).held = c.held)
    (n : Nat) (s : State) : part π (s.onCh n f) = part π s := by
  refine onLsw_part hp (h.imp_right fun h l => ?_) s
  apply List.ext_getElem?
  intro i
  simp only [Lsw.marks, upd, List.getElem?_map, List.getElem?_modify]
  cases l.chans[i]? with
  | none => rfl
  | some c => by_cases hn : n = i <;> simp [hn, h c]

@[simp] theorem onBse_part (hp : π ∉ [.bse]) (f : Bse → Bse) (s : State) : part π (s.onBse f) = part π s := by
  cases π <;> simp_all [part]

@[simp] theorem onStr_part (hp : π ∉ [.bse]) (n : Nat) (f : Str → Str) (s : State) : part π (s.onStr n f) = part π s :=
  onBse_part hp _ s

@[simp] theorem onSgm_part {f : Sgm → Sgm} (hp : π ∉ [.sgm]) (h : π ≠ .meters ∨ ∀ g, (f g).acc = g.acc ∧ (f g).res = g.res)
    (s : State) : part π (s.onSgm f) = part π s := by
  cases π <;> simp_all [part]

@[simp] theorem onBte_part (hp : π ∉ [.bte]) (f : Bte → Bte) (s : State) : part π (s.onBte f) = part π s := by
  cases π <;> simp_all [part]

@[simp] theorem onMss_part {f : Mss → Mss} (hp : π ∉ [.mss])
    (h : π ≠ .seal ∨ ∀ m, (f m).serial = m.serial ∧ (f m).sealCount = m.sealCount) (s : State) :
    part π (s.onMss f) = part π s := by
  cases π <;> simp_all [part]

@[simp] theorem onBlk_part (hp : π ∉ [.blk]) (f : Blk → Blk) (s : State) : part π (s.onBlk f) = part π s := by
  cases π <;> simp_all [part]

@[simp] theorem onEvr_part (hp : π ∉ [.evr]) (f : Evr → Evr) (s : State) : part π (s.onEvr f) = part π s := by
  cases π <;> simp_all [part]

@[simp] theorem onNode_part (hp : π ∉ [.blk]) (a : Nat) (f : Node → Node) (s : State) : part π (s.onNode a f) = part π s :=
  onBlk_part hp _ s

@[simp] theorem onQuant_part (hp : π ∉ [.evr]) (i : Nat) (f : Quant → Quant) (s : State) : part π (s.onQuant i f) = part π s :=
  onEvr_part hp _ s

@[simp] theorem emit_part (hp : π ∉ [.out]) (o : Out) (s : State) : part π (s.emit o) = part π s := by
  cases π <;> simp_all [part]

@[simp] theorem took_part (hp : π ∉ [.free]) (s : State) : part π s.took = part π s := by
  cases π <;> simp_all [part]

@[simp] theorem start_part (hp : π ∉ [.out, .cur]) (s : State) : part π s.start = part π s := by
  cases π <;> simp_all [part]

end Sys2Proof.Machine
end
section
/-! PROOFS. What each operation leaves alone: one fact for each function that answers a state, in the order of the model -/

namespace Sys2Proof.Machine

open Sys2Proof

variable {π : Part}

/-! ### The shared operations -/

@[simp] theorem fire_part (hp : π ∉ [.rings, .out]) (fn : Fn) (v : Nat) (s : State) : part π (State.fire fn v s) = part π s
    := by
  simp only [List.mem_cons, List.not_mem_nil, or_false, not_or] at hp
  simp [State.fire, hp]

@[simp] theorem fireEvent_part (hp : π ∉ [.rings, .out]) (fn : Fn) (v : Nat) (s : State) : part π (State.fireEvent fn v s) =
    part π s := by
  simp only [List.mem_cons, List.not_mem_nil, or_false, not_or] at hp
  simp [State.fireEvent, hp]

@[simp] theorem postEvent_part (hp : π ∉ [.rings, .out]) (fn : Fn) (vec sub arg src : Nat) (s : State) : part π
    (State.postEvent fn vec sub arg src s) = part π s := by
  simp only [List.mem_cons, List.not_mem_nil, or_false, not_or] at hp
  unfold State.postEvent
  (repeat' split) <;> simp [hp]

@[simp] theorem settleEvents_part (hp : π ∉ [.rings]) (fn : Fn) (s : State) : part π (State.settleEvents fn s) = part π s := by
  simp only [List.mem_cons, List.not_mem_nil, or_false] at hp
  simp [State.settleEvents, hp]

@[simp] theorem supEvent_part (hp : π ∉ [.rings, .faults, .out]) (vec sub arg src : Nat) (s : State) : part π (State.supEvent
    vec sub arg src s) = part π s := by
  simp only [List.mem_cons, List.not_mem_nil, or_false, not_or] at hp
  simp [State.supEvent, hp]

@[simp] theorem faultRec_part (hp : π ∉ [.faults]) (island code a0 a1 a2 : Nat) (s : State) : part π (State.faultRec island
    code a0 a1 a2 s) = part π s := by
  unfold State.faultRec
  refine onSup_part (.inl (by simpa using hp)) (.inr fun x => ?_) (.inr fun x => ?_) s <;> split <;>
    simp [Sup.journalPut]

@[simp] theorem sjWrite_part (hp : π ∉ [.sj]) (f : Journal → Journal) (s : State) : part π (State.sjWrite f s) = part π s := by
  unfold State.sjWrite
  refine onSup_part (.inr fun x => ?_) (.inl (by simpa using hp)) (.inr fun x => ?_) s <;> dsimp only <;> split <;>
    simp [Sup.sjPut]

@[simp] theorem dma_part (hp : π ∉ [.out]) (fn : Fn) (addr : Nat) (b : List Byte) (s : State) : part π (State.dma fn addr b
    s) = part π s := by
  cases π <;> simp_all [State.dma, part]

@[simp] theorem complete_part (hp : π ∉ [.fwd, .ready, .cur]) (fn : Fn) (sq cid status result : Nat) (s : State) : part π
    (State.complete fn sq cid status result s) = part π s := by
  simp only [List.mem_cons, List.not_mem_nil, or_false, not_or] at hp
  unfold State.complete
  dsimp only
  (repeat' split) <;> cases π <;> simp_all [part]

@[simp] theorem answer_part (hp : π ∉ [.rings]) (sq cid status result addr : Nat) (buf : List Byte) (s : State) : part π
    (State.answer sq cid status result addr buf s) = part π s := by
  simp only [List.mem_cons, List.not_mem_nil, or_false] at hp
  simp [State.answer, hp]

/-! ### Host commands -/

@[simp] theorem done_part (hp : π ∉ [.fwd, .ready, .cur]) (q : Sqe) (status result : Nat) (s : State) : part π (State.done q
    status result s) = part π s := by
  simp only [List.mem_cons, List.not_mem_nil, or_false, not_or] at hp
  simp [State.done, hp]

@[simp] theorem accept_part (hp : π ∉ [.fwd, .cur]) (q : Sqe) (s : State) : part π (State.accept q s) = part π s := by
  cases π <;> simp_all [State.accept, part]

@[simp] theorem hostCmd_part (hp : π ∉ [.fwd, .ready, .cur]) (op : Nat) (q : Sqe) (params : List (Bool × Nat × Nat)) (body :
    State → State) (s : State) (hb : ∀ s, part π (body s) = part π s) : part π (hostCmd op q params body s) = part π s := by
  simp only [List.mem_cons, List.not_mem_nil, or_false, not_or] at hp
  rcases hostCmd_cases op q params body s with ⟨-, h⟩ | ⟨st, r, -, h⟩ | ⟨-, r, -, h⟩ | ⟨-, -, h⟩ <;> rw [h] <;> simp [hp, hb]

@[simp] theorem reply_part (hp : π ∉ [.out]) (q : Sqe) (bytes : List Byte) (s : State) : part π (State.reply q bytes s) =
    part π s := by
  simp only [List.mem_cons, List.not_mem_nil, or_false] at hp
  simp [State.reply, hp]

@[simp] theorem replyDone_part (hp : π ∉ [.fwd, .ready, .out, .cur]) (q : Sqe) (bytes : List Byte) (result : Nat) (s : State)
    : part π (State.replyDone q bytes result s) = part π s := by
  simp only [List.mem_cons, List.not_mem_nil, or_false, not_or] at hp
  simp [State.replyDone, hp]

/-! ### Host queues -/

@[simp] theorem noteFault_part (hp : π ∉ [.rings]) (fn : Fn) (isCq : Bool) (n cause : Nat) (s : State) : part π
    (State.noteFault fn isCq n cause s) = part π s := by
  simp only [List.mem_cons, List.not_mem_nil, or_false] at hp
  simp [State.noteFault, hp]

@[simp] theorem ringFault_part (hp : π ∉ [.rings, .out]) (fn : Fn) (isCq : Bool) (n cause : Nat) (s : State) : part π
    (State.ringFault fn isCq n cause s) = part π s := by
  simp only [List.mem_cons, List.not_mem_nil, or_false, not_or] at hp
  unfold State.ringFault
  (repeat' split) <;> simp [hp]

@[simp] theorem dmaError_part (hp : π ∉ [.rings, .out]) (fn : Fn) (s : State) : part π (State.dmaError fn s) = part π s := by
  simp only [List.mem_cons, List.not_mem_nil, or_false, not_or] at hp
  unfold State.dmaError
  (repeat' split) <;> simp [hp]

@[simp] theorem nop_part (hp : π ∉ [.fwd, .ready, .cur]) (q : Sqe) (s : State) : part π (nop q s) = part π s := by
  simp only [List.mem_cons, List.not_mem_nil, or_false, not_or] at hp
  simp [nop, hp]

@[simp] theorem dropFetched_part (hp : π ∉ [.ready]) (fn : Fn) (sq status : Nat) (dw : List Word) (s : State) : part π
    (State.dropFetched fn sq status dw s) = part π s := by
  simp only [List.mem_cons, List.not_mem_nil, or_false] at hp
  simp [State.dropFetched, hp]

@[simp] theorem sqDelete_part (hp : π ∉ [.fwd, .ready, .rings, .cur]) (q : Sqe) (s : State) : part π (sqDelete q s) = part π
    s := by
  simp only [List.mem_cons, List.not_mem_nil, or_false, not_or] at hp
  unfold sqDelete
  dsimp only
  (repeat' split) <;> simp [hp]

@[simp] theorem eventCqSet_part (hp : π ∉ [.fwd, .ready, .rings, .cur]) (q : Sqe) (s : State) : part π (eventCqSet q s) =
    part π s := by
  simp only [List.mem_cons, List.not_mem_nil, or_false, not_or] at hp
  simp [eventCqSet, hp]

@[simp] theorem doneWith_part (hp : π ∉ [.fwd, .ready, .cur]) (q : Sqe) (status result : Nat) (x : CqeTail) (s : State) :
    part π (State.doneWith q status result x s) = part π s := by
  simp only [List.mem_cons, List.not_mem_nil, or_false, not_or] at hp
  simp [State.doneWith, hp]

@[simp] theorem abort_part (hp : π ∉ [.fwd, .ready, .rings, .cur]) (q : Sqe) (s : State) : part π (abort q s) = part π s := by
  simp only [List.mem_cons, List.not_mem_nil, or_false, not_or] at hp
  unfold abort
  dsimp only
  (repeat' split) <;> simp [hp]

@[simp] theorem hqeEnable_part (hp : π ∉ [.rings, .out]) (fn : Fn) (s : State) : part π (hqeEnable fn s) = part π s := by
  simp only [List.mem_cons, List.not_mem_nil, or_false, not_or] at hp
  simp [hqeEnable, hp]

@[simp] theorem endRings_part (hp : π ∉ [.fwd, .ready, .rings, .sup, .spa]) (fn : Fn) (s : State) : part π (State.endRings fn
    s) = part π s := by
  simp only [List.mem_cons, List.not_mem_nil, or_false, not_or] at hp
  unfold State.endRings
  (repeat' split) <;> simp [hp]

@[simp] theorem sqTail_part (hp : π ∉ [.rings, .out]) (fn : Fn) (n size : Nat) (val : Word) (s : State) : part π (sqTail fn n
    size val s) = part π s := by
  simp only [List.mem_cons, List.not_mem_nil, or_false, not_or] at hp
  unfold sqTail
  (repeat' split) <;> simp [hp]

@[simp] theorem cqHead_part (hp : π ∉ [.rings, .out]) (fn : Fn) (n size : Nat) (val : Word) (s : State) : part π (cqHead fn n
    size val s) = part π s := by
  simp only [List.mem_cons, List.not_mem_nil, or_false, not_or] at hp
  unfold cqHead
  (repeat' split) <;> simp [hp]

@[simp] theorem issue_part (hp : π ∉ [.rings, .out]) (r : ReadReq) (s : State) : part π (State.issue r s) = part π s := by
  simp only [List.mem_cons, List.not_mem_nil, or_false, not_or] at hp
  simp [State.issue, hp]

@[simp] theorem issueOne_part (hp : π ∉ [.rings, .out]) (s : State) : part π (State.issueOne s) = part π s := by
  simp only [List.mem_cons, List.not_mem_nil, or_false, not_or] at hp
  unfold State.issueOne
  (repeat' split) <;> simp [hp]

@[simp] theorem issueAll_part (hp : π ∉ [.rings, .out]) (n : Nat) (s : State) : part π (State.issueAll n s) = part π s := by
  simp only [List.mem_cons, List.not_mem_nil, or_false, not_or] at hp
  induction n generalizing s with
  | zero => rfl
  | succ n ih => simp [State.issueAll, ih, hp]

@[simp] theorem fetchFrom_part (hp : π ∉ [.rings, .out]) (fn : Fn) (n : Nat) (s : State) : part π (State.fetchFrom fn n s) =
    part π s := by
  simp only [List.mem_cons, List.not_mem_nil, or_false, not_or] at hp
  unfold State.fetchFrom
  (repeat' split) <;> simp [hp]

@[simp] theorem sqeFetch_part (hp : π ∉ [.rings, .out]) (s : State) : part π (sqeFetch s) = part π s := by
  simp only [List.mem_cons, List.not_mem_nil, or_false, not_or] at hp
  unfold sqeFetch
  dsimp only
  (repeat' split) <;> simp [hp]

@[simp] theorem freedTag_part (hp : π ∉ [.rings, .out]) (wanted : Bool) (s : State) : part π (State.freedTag wanted s) = part
    π s := by
  simp only [List.mem_cons, List.not_mem_nil, or_false, not_or] at hp
  unfold State.freedTag
  (repeat' split) <;> simp [hp]

@[simp] theorem readEnd_part (hp : π ∉ [.fwd, .ready, .rings, .out, .cur]) (r : ReadReq) (s : State) : part π (State.readEnd
    r s) = part π s := by
  simp only [List.mem_cons, List.not_mem_nil, or_false, not_or] at hp
  unfold State.readEnd
  (repeat' split) <;> simp [hp]

@[simp] theorem hostReadCompletion_part (hp : π ∉ [.fwd, .ready, .rings, .out, .cur]) (tag : Nat) (data : List Byte) (ok last
    : Bool) (s : State) : part π (hostReadCompletion tag data ok last s) = part π s := by
  simp only [List.mem_cons, List.not_mem_nil, or_false, not_or] at hp
  unfold hostReadCompletion
  (repeat' split) <;> simp [hp]

@[simp] theorem startReads_part (hp : π ∉ [.rings, .out]) (q : Sqe) (s : State) : part π (State.startReads q s) = part π s := by
  simp only [List.mem_cons, List.not_mem_nil, or_false, not_or] at hp
  simp [State.startReads, hp]

@[simp] theorem forward_part (hp : π ∉ [.fwd, .ready, .rings, .out, .cur]) (q : Sqe) (s : State) : part π (State.forward q s)
    = part π s := by
  simp only [List.mem_cons, List.not_mem_nil, or_false, not_or] at hp
  unfold State.forward
  dsimp only
  (repeat' split) <;> simp [hp]

@[simp] theorem sqeForward_part (hp : π ∉ [.fwd, .ready, .rings, .out, .cur]) (fn : Fn) (sq : Nat) (s : State) : part π
    (sqeForward fn sq s) = part π s := by
  simp only [List.mem_cons, List.not_mem_nil, or_false, not_or] at hp
  unfold sqeForward
  (repeat' split) <;> simp [hp]

@[simp] theorem writeCqe_part (hp : π ∉ [.rings, .out]) (fn : Fn) (c d0 d1 d2 : Nat) (event : Bool) (s : State) : part π
    (State.writeCqe fn c d0 d1 d2 event s) = part π s := by
  simp only [List.mem_cons, List.not_mem_nil, or_false, not_or] at hp
  unfold State.writeCqe
  (repeat' split) <;> simp [hp]

@[simp] theorem moderate_part (hp : π ∉ [.rings, .out]) (fn : Fn) (c : Nat) (s : State) : part π (State.moderate fn c s) =
    part π s := by
  simp only [List.mem_cons, List.not_mem_nil, or_false, not_or] at hp
  unfold State.moderate
  (repeat' split) <;> simp [hp]

@[simp] theorem tailDone_part (hp : π ∉ [.rings]) (c : Cqe) (s : State) : part π (State.tailDone c s) = part π s := by
  simp only [List.mem_cons, List.not_mem_nil, or_false] at hp
  unfold State.tailDone
  (repeat' split) <;> simp [hp]

@[simp] theorem commitPosted_part (hp : π ∉ [.sup]) (c : Cqe) (s : State) : part π (State.commitPosted c s) = part π s := by
  simp only [List.mem_cons, List.not_mem_nil, or_false] at hp
  simp [State.commitPosted, hp]

@[simp] theorem changePosted_part (hp : π ∉ [.spa]) (c : Cqe) (s : State) : part π (State.changePosted c s) = part π s := by
  simp only [List.mem_cons, List.not_mem_nil, or_false] at hp
  simp [State.changePosted, hp]

@[simp] theorem cqePosted_part (hp : π ∉ [.rings, .sup, .spa]) (c : Cqe) (s : State) : part π (State.cqePosted c s) = part π
    s := by
  simp only [List.mem_cons, List.not_mem_nil, or_false, not_or] at hp
  simp [State.cqePosted, hp]

@[simp] theorem cqePost_part (hp : π ∉ [.ready, .rings, .sup, .spa, .out]) (s : State) : part π (cqePost s) = part π s := by
  simp only [List.mem_cons, List.not_mem_nil, or_false, not_or] at hp
  unfold cqePost
  dsimp only
  (repeat' split) <;> simp [hp]

@[simp] theorem coalescingTimeExpiry_part (hp : π ∉ [.rings, .out]) (fn : Fn) (c : Nat) (s : State) : part π
    (coalescingTimeExpiry fn c s) = part π s := by
  simp only [List.mem_cons, List.not_mem_nil, or_false, not_or] at hp
  unfold coalescingTimeExpiry
  (repeat' split) <;> simp [hp]

@[simp] theorem holdoffEnd_part (hp : π ∉ [.rings, .out]) (fn : Fn) (v : Nat) (s : State) : part π (holdoffEnd fn v s) = part
    π s := by
  simp only [List.mem_cons, List.not_mem_nil, or_false, not_or] at hp
  simp [holdoffEnd, hp]

@[simp] theorem eventCqePost_part (hp : π ∉ [.rings, .out]) (fn : Fn) (s : State) : part π (eventCqePost fn s) = part π s := by
  simp only [List.mem_cons, List.not_mem_nil, or_false, not_or] at hp
  unfold eventCqePost
  (repeat' split) <;> simp [hp]

@[simp] theorem msixUnmask_part (hp : π ∉ [.rings, .out]) (fn : Fn) (v : Nat) (s : State) : part π (msixUnmask fn v s) = part
    π s := by
  simp only [List.mem_cons, List.not_mem_nil, or_false, not_or] at hp
  simp [msixUnmask, hp]

@[simp] theorem forgetWaiting_part (hp : π ∉ [.mss]) (sq cid : Nat) (s : State) : part π (State.forgetWaiting sq cid s) =
    part π s := by
  simp only [List.mem_cons, List.not_mem_nil, or_false] at hp
  cases π <;> simp_all [State.forgetWaiting, part]

@[simp] theorem tunnelTimeout_part (hp : π ∉ [.fwd, .ready, .rings, .mss, .cur]) (sq cid : Nat) (s : State) : part π
    (tunnelTimeout sq cid s) = part π s := by
  simp only [List.mem_cons, List.not_mem_nil, or_false, not_or] at hp
  simp [tunnelTimeout, hp]

@[simp] theorem saggarMissClear_part (hp : π ∉ [.rings]) (s : State) : part π (saggarMissClear s) = part π s := by
  simp only [List.mem_cons, List.not_mem_nil, or_false] at hp
  simp [saggarMissClear, hp]

@[simp] theorem tunnelWrite_part (hp : π ∉ [.rings]) (off size : Nat) (s : State) : part π (tunnelWrite off size s) = part π
    s := by
  simp only [List.mem_cons, List.not_mem_nil, or_false] at hp
  simp [tunnelWrite, hp]

/-! ### Tile memory -/

@[simp] theorem freeTiles_part (hp : π ∉ [.tmf]) (l : List Nat) (s : State) : part π (State.freeTiles l s) = part π s := by
  simp only [List.mem_cons, List.not_mem_nil, or_false] at hp
  simp [State.freeTiles, hp]

@[simp] theorem alloc_part (hp : π ∉ [.tmf, .free]) (o : TileOwner) (s : State) : part π (State.alloc o s).1 = part π s := by
  simp only [List.mem_cons, List.not_mem_nil, or_false, not_or] at hp
  unfold State.alloc
  (repeat' split) <;> simp [hp]

@[simp] theorem allocHost_part (hp : π ∉ [.tmf, .free]) (n : Nat) (s : State) : part π (State.allocHost n s).1 = part π s := by
  simp only [List.mem_cons, List.not_mem_nil, or_false, not_or] at hp
  induction n generalizing s with
  | zero => rfl
  | succ n ih =>
    have h := alloc_part (π := π) (by simpa using hp) .host s
    unfold State.allocHost
    split <;> simp_all

@[simp] theorem saveMap_part (hp : π ∉ [.sup]) (s : State) : part π (State.saveMap s) = part π s := by
  exact onSup_part (.inr fun x => by simp) (.inr fun x => by simp) (.inl (by simpa using hp)) s

@[simp] theorem retire_part (hp : π ∉ [.rings, .tmf, .faults, .sup, .out]) (consumer i src : Nat) (other : Bool) (s : State)
    : part π (State.retire consumer i src other s) = part π s := by
  simp only [List.mem_cons, List.not_mem_nil, or_false, not_or] at hp
  simp [State.retire, hp]

@[simp] theorem retireCopy_part (hp : π ∉ [.rings, .tmf, .faults, .sup, .out]) (consumer i src : Nat) (s : State) : part π
    (State.retireCopy consumer i src s) = part π s := by
  simp only [List.mem_cons, List.not_mem_nil, or_false, not_or] at hp
  simp [State.retireCopy, hp]

@[simp] theorem loadCoeff_part (hp : π ∉ [.rings, .tmf, .faults, .sup, .out]) (bad : List Nat) (n : Nat) (s : State) : part π
    (State.loadCoeff bad n s).1 = part π s := by
  simp only [List.mem_cons, List.not_mem_nil, or_false, not_or] at hp
  unfold State.loadCoeff
  dsimp only
  (repeat' split) <;> simp [hp]

@[simp] theorem loadCoeffs_part (hp : π ∉ [.rings, .tmf, .faults, .sup, .out]) (bad : List Nat) (sets : List (Nat × List
    Byte)) (s : State) : part π (State.loadCoeffs bad sets s).1 = part π s := by
  simp only [List.mem_cons, List.not_mem_nil, or_false, not_or] at hp
  simp [State.loadCoeffs, hp]

@[simp] theorem tileAlloc_part (hp : π ∉ [.fwd, .ready, .tmf, .out, .cur, .free]) (q : Sqe) (s : State) : part π (tileAlloc q
    s) = part π s := by
  simp only [List.mem_cons, List.not_mem_nil, or_false, not_or] at hp
  simp [tileAlloc, hp]

@[simp] theorem setTile_part (hp : π ∉ [.tmf]) (i : Nat) (x : Tile) (s : State) : part π (State.setTile i x s) = part π s := by
  simp only [List.mem_cons, List.not_mem_nil, or_false] at hp
  simp [State.setTile, hp]

@[simp] theorem tileWrite_part (hp : π ∉ [.fwd, .ready, .tmf, .cur]) (q : Sqe) (h : HostRead) (s : State) : part π (tileWrite
    q h s) = part π s := by
  simp only [List.mem_cons, List.not_mem_nil, or_false, not_or] at hp
  unfold tileWrite
  (repeat' split) <;> simp [hp]

@[simp] theorem tileClose_part (hp : π ∉ [.fwd, .ready, .tmf, .cur]) (q : Sqe) (s : State) : part π (tileClose q s) = part π
    s := by
  simp only [List.mem_cons, List.not_mem_nil, or_false, not_or] at hp
  unfold tileClose
  (repeat' split) <;> simp [hp]

@[simp] theorem tileRead_part (hp : π ∉ [.fwd, .ready, .rings, .tmf, .faults, .sup, .out, .cur]) (q : Sqe) (bad : Bool) (s :
    State) : part π (tileRead q bad s) = part π s := by
  simp only [List.mem_cons, List.not_mem_nil, or_false, not_or] at hp
  unfold tileRead
  (repeat' split) <;> simp [hp]

@[simp] theorem tileFree_part (hp : π ∉ [.fwd, .ready, .tmf, .cur]) (q : Sqe) (s : State) : part π (tileFree q s) = part π s
    := by
  simp only [List.mem_cons, List.not_mem_nil, or_false, not_or] at hp
  unfold tileFree
  (repeat' split) <;> simp [hp]

@[simp] theorem onChan_part (hp : π ∉ [.tmf]) (n : Nat) (f : Chan → Chan) (s : State) : part π (State.onChan n f s) = part π
    s := by
  simp only [List.mem_cons, List.not_mem_nil, or_false] at hp
  simp [State.onChan, hp]

@[simp] theorem streamOpen_part (hp : π ∉ [.fwd, .ready, .tmf, .cur]) (q : Sqe) (s : State) : part π (streamOpen q s) = part
    π s := by
  simp only [List.mem_cons, List.not_mem_nil, or_false, not_or] at hp
  simp [streamOpen, hp]

@[simp] theorem streamBuffer_part (hp : π ∉ [.fwd, .ready, .tmf, .cur]) (q : Sqe) (s : State) : part π (streamBuffer q s) =
    part π s := by
  simp only [List.mem_cons, List.not_mem_nil, or_false, not_or] at hp
  simp [streamBuffer, hp]

@[simp] theorem closeFilling_part (hp : π ∉ [.tmf]) (n : Nat) (s : State) : part π (State.closeFilling n s) = part π s := by
  simp only [List.mem_cons, List.not_mem_nil, or_false] at hp
  unfold State.closeFilling
  (repeat' split) <;> simp [hp]

@[simp] theorem takeTile_part (hp : π ∉ [.tmf, .free]) (n size now : Nat) (s : State) : part π (State.takeTile n size now s)
    = part π s := by
  simp only [List.mem_cons, List.not_mem_nil, or_false, not_or] at hp
  have h := alloc_part (π := π) (by simp [hp]) (.channel n) s
  unfold State.takeTile
  dsimp only
  (repeat' split) <;> simp_all

@[simp] theorem streamRecord_part (hp : π ∉ [.tmf, .free]) (n : Nat) (r : List Byte) (s : State) : part π (State.streamRecord
    n r s) = part π s := by
  simp only [List.mem_cons, List.not_mem_nil, or_false, not_or] at hp
  simp [State.streamRecord, hp]

@[simp] theorem endBuf_part (hp : π ∉ [.fwd, .ready, .tmf, .cur]) (n status : Nat) (s : State) : part π (State.endBuf n
    status s) = part π s := by
  simp only [List.mem_cons, List.not_mem_nil, or_false, not_or] at hp
  unfold State.endBuf
  (repeat' split) <;> simp [hp]

@[simp] theorem deliver_part (hp : π ∉ [.fwd, .ready, .rings, .tmf, .faults, .sup, .out, .cur]) (n : Nat) (ok : Bool) (full :
    Nat) (s : State) : part π (State.deliver n ok full s) = part π s := by
  simp only [List.mem_cons, List.not_mem_nil, or_false, not_or] at hp
  unfold State.deliver
  (repeat' split) <;> simp [hp]

@[simp] theorem streamTileFlush_part (hp : π ∉ [.tmf]) (n : Nat) (s : State) : part π (streamTileFlush n s) = part π s := by
  simp only [List.mem_cons, List.not_mem_nil, or_false] at hp
  simp [streamTileFlush, hp]

@[simp] theorem streamBufferFlush_part (hp : π ∉ [.fwd, .ready, .tmf, .cur]) (n : Nat) (s : State) : part π
    (streamBufferFlush n s) = part π s := by
  simp only [List.mem_cons, List.not_mem_nil, or_false, not_or] at hp
  unfold streamBufferFlush
  (repeat' split) <;> simp [hp]

@[simp] theorem deliverAll_part (hp : π ∉ [.fwd, .ready, .rings, .tmf, .faults, .sup, .out, .cur]) (n : Nat) (bad : List Nat)
    (k : Nat) (s : State) : part π (State.deliverAll n bad k s) = part π s := by
  simp only [List.mem_cons, List.not_mem_nil, or_false, not_or] at hp
  induction k generalizing s with
  | zero => rfl
  | succ k ih =>
    unfold State.deliverAll
    split <;> simp [ih, hp]

@[simp] theorem endBufs_part (hp : π ∉ [.fwd, .ready, .tmf, .cur]) (n status : Nat) (k : Nat) (s : State) : part π
    (State.endBufs n status k s) = part π s := by
  simp only [List.mem_cons, List.not_mem_nil, or_false, not_or] at hp
  induction k generalizing s with
  | zero => rfl
  | succ n ih => simp [State.endBufs, ih, hp]

@[simp] theorem endCaptures_part (hp : π ∉ [.kce]) (chan : Nat) (s : State) : part π (State.endCaptures chan s) = part π s := by
  simp only [List.mem_cons, List.not_mem_nil, or_false] at hp
  refine onKce_part_of_banks (by simpa using hp) (fun k => ?_) s
  funext g
  simp only [Kce.banks, List.getD_eq_getElem?_getD, List.getElem?_map]
  cases k.groups[g]? with
  | none => rfl
  | some x => simp

@[simp] theorem shutChan_part (hp : π ∉ [.tmf, .kce]) (n : Nat) (s : State) : part π (State.shutChan n s) = part π s := by
  simp only [List.mem_cons, List.not_mem_nil, or_false, not_or] at hp
  simp [State.shutChan, hp]

@[simp] theorem streamClose_part (hp : π ∉ [.fwd, .ready, .rings, .tmf, .faults, .sup, .kce, .out, .cur]) (q : Sqe) (bad :
    List Nat) (s : State) : part π (streamClose q bad s) = part π s := by
  simp only [List.mem_cons, List.not_mem_nil, or_false, not_or] at hp
  simp [streamClose, hp]

@[simp] theorem endHostTiles_part (hp : π ∉ [.fwd, .tmf, .kce]) (s : State) : part π (State.endHostTiles s) = part π s := by
  simp only [List.mem_cons, List.not_mem_nil, or_false, not_or] at hp
  simp [State.endHostTiles, hp]

@[simp] theorem hqeDisable_part (hp : π ∉ [.fwd, .ready, .rings, .tmf, .sup, .spa, .kce]) (fn : Fn) (s : State) : part π
    (hqeDisable fn s) = part π s := by
  simp only [List.mem_cons, List.not_mem_nil, or_false, not_or] at hp
  unfold hqeDisable
  (repeat' split) <;> simp [hp]

/-! ### The site allocator -/

@[simp] theorem holdCross_part (hp : π ∉ [.spa]) (m : CrossMsg) (due : Nat) (s : State) : part π (State.holdCross m due s) =
    part π s := by
  simp only [List.mem_cons, List.not_mem_nil, or_false] at hp
  simp [State.holdCross, hp]

@[simp] theorem sendCross_part (hp : π ∉ [.lnk, .spa]) (m : CrossMsg) (s : State) : part π (State.sendCross m s) = part π s
    := by
  simp only [List.mem_cons, List.not_mem_nil, or_false, not_or] at hp
  simp [State.sendCross, hp]

@[simp] theorem unsent_part (hp : π ∉ [.lnk, .spa]) (s : State) : part π (State.unsent s) = part π s := by
  simp only [List.mem_cons, List.not_mem_nil, or_false, not_or] at hp
  simp [State.unsent, hp]

@[simp] theorem flushOutbox_part (hp : π ∉ [.lnk, .spa]) (s : State) : part π (State.flushOutbox s) = part π s := by
  simp only [List.mem_cons, List.not_mem_nil, or_false, not_or] at hp
  simp [State.flushOutbox, hp]

@[simp] theorem onSess_part (hp : π ∉ [.spa]) (i : Nat) (f : Sess → Sess) (s : State) : part π (State.onSess i f s) = part π
    s := by
  simp only [List.mem_cons, List.not_mem_nil, or_false] at hp
  simp [State.onSess, hp]

@[simp] theorem portStop_part (hp : π ∉ [.spa]) (p : Nat) (s : State) : part π (State.portStop p s) = part π s := by
  simp only [List.mem_cons, List.not_mem_nil, or_false] at hp
  unfold State.portStop
  (repeat' split) <;> simp [hp]

@[simp] theorem creditTo_part (hp : π ∉ [.spa]) (n st : Nat) (s : State) : part π (creditTo n st s) = part π s := by
  simp only [List.mem_cons, List.not_mem_nil, or_false] at hp
  unfold creditTo
  (repeat' split) <;> simp [hp]

@[simp] theorem creditMessage_part (hp : π ∉ [.lnk, .spa]) (s : State) : part π (creditMessage s) = part π s := by
  simp only [List.mem_cons, List.not_mem_nil, or_false, not_or] at hp
  unfold creditMessage
  (repeat' split) <;> simp [hp]

@[simp] theorem ledgerLost_part (hp : π ∉ [.rings, .tmf, .faults, .sup, .spa, .out]) (t : Nat) (s : State) : part π
    (State.ledgerLost t s) = part π s := by
  simp only [List.mem_cons, List.not_mem_nil, or_false, not_or] at hp
  simp [State.ledgerLost, hp]

@[simp] theorem verifyLedger_part (hp : π ∉ [.rings, .tmf, .faults, .sup, .spa, .out]) (bad : List Nat) (t : Nat) (s : State)
    : part π (verifyLedger bad t s) = part π s := by
  simp only [List.mem_cons, List.not_mem_nil, or_false, not_or] at hp
  simp [verifyLedger, hp]

@[simp] theorem sendOpens_part (hp : π ∉ [.lnk, .spa]) (s : State) : part π (sendOpens s) = part π s := by
  simp only [List.mem_cons, List.not_mem_nil, or_false, not_or] at hp
  refine part_foldl (fun s x => ?_) _ s
  (repeat' split) <;> simp [hp]

@[simp] theorem spaBoundary_part (hp : π ∉ [.rings, .tmf, .faults, .sup, .lnk, .spa, .out]) (bad : List Nat) (s : State) :
    part π (spaBoundary bad s) = part π s := by
  simp only [List.mem_cons, List.not_mem_nil, or_false, not_or] at hp
  unfold spaBoundary
  dsimp only
  (repeat' split) <;> simp [hp]

@[simp] theorem replanComplete_part (hp : π ∉ [.spa, .free]) (s : State) : part π (replanComplete s) = part π s := by
  simp only [List.mem_cons, List.not_mem_nil, or_false, not_or] at hp
  unfold replanComplete
  (repeat' split) <;> simp [hp]

@[simp] theorem writeTile_part (hp : π ∉ [.tmf, .spa]) (t : Nat) (s : State) : part π (State.writeTile t s) = part π s := by
  simp only [List.mem_cons, List.not_mem_nil, or_false, not_or] at hp
  simp [State.writeTile, hp]

@[simp] theorem writeEntry_part (hp : π ∉ [.tmf, .spa]) (i : Nat) (e : Entry) (s : State) : part π (State.writeEntry i e s) =
    part π s := by
  simp only [List.mem_cons, List.not_mem_nil, or_false, not_or] at hp
  simp [State.writeEntry, hp]

@[simp] theorem ledgerDone_part (hp : π ∉ [.fwd, .ready, .spa, .cur]) (q : Sqe) (result : Nat) (old : List (Nat × Entry)) (s
    : State) : part π (State.ledgerDone q result old s) = part π s := by
  simp only [List.mem_cons, List.not_mem_nil, or_false, not_or] at hp
  simp [State.ledgerDone, hp]

@[simp] theorem sessionStart_part (hp : π ∉ [.fwd, .ready, .tmf, .sup, .spa, .cur]) (q : Sqe) (s : State) : part π
    (sessionStart q s) = part π s := by
  simp only [List.mem_cons, List.not_mem_nil, or_false, not_or] at hp
  unfold sessionStart
  (repeat' split) <;> simp [hp]

@[simp] theorem sessionStop_part (hp : π ∉ [.fwd, .ready, .spa, .cur]) (q : Sqe) (s : State) : part π (sessionStop q s) =
    part π s := by
  simp only [List.mem_cons, List.not_mem_nil, or_false, not_or] at hp
  unfold sessionStop
  dsimp only
  (repeat' split) <;> simp [hp]

@[simp] theorem sessionModify_part (hp : π ∉ [.fwd, .ready, .tmf, .spa, .cur]) (q : Sqe) (s : State) : part π (sessionModify
    q s) = part π s := by
  simp only [List.mem_cons, List.not_mem_nil, or_false, not_or] at hp
  unfold sessionModify
  dsimp only
  (repeat' split) <;> simp [hp]

@[simp] theorem ledgerWrite_part (hp : π ∉ [.fwd, .ready, .tmf, .spa, .cur]) (q : Sqe) (h : HostRead) (s : State) : part π
    (ledgerWrite q h s) = part π s := by
  simp only [List.mem_cons, List.not_mem_nil, or_false, not_or] at hp
  unfold ledgerWrite
  (repeat' split) <;> simp [hp]

@[simp] theorem runLedger_part (hp : π ∉ [.fwd, .ready, .tmf, .sup, .spa, .cur]) (q : Sqe) (h : HostRead) (s : State) : part
    π (runLedger q h s) = part π s := by
  simp only [List.mem_cons, List.not_mem_nil, or_false, not_or] at hp
  unfold runLedger
  dsimp only
  split <;> simp [hp]

@[simp] theorem inWindow_part (hp : π ∉ [.fwd, .ready, .tmf, .sup, .spa, .cur]) (q : Sqe) (h : HostRead) (s : State) : part π
    (inWindow q h s) = part π s := by
  simp only [List.mem_cons, List.not_mem_nil, or_false, not_or] at hp
  simp [inWindow, hp]

@[simp] theorem runWaiting_part (hp : π ∉ [.fwd, .ready, .tmf, .sup, .spa, .cur]) (n : Nat) (s : State) : part π (runWaiting
    n s) = part π s := by
  simp only [List.mem_cons, List.not_mem_nil, or_false, not_or] at hp
  induction n generalizing s with
  | zero => rfl
  | succ n ih =>
    unfold runWaiting
    (repeat' split) <;> simp [ih, hp]

@[simp] theorem pairRestore_part (hp : π ∉ [.fwd, .ready, .tmf, .sup, .spa, .cur]) (i : Nat) (s : State) : part π
    (pairRestore i s) = part π s := by
  simp only [List.mem_cons, List.not_mem_nil, or_false, not_or] at hp
  simp [pairRestore, hp]

@[simp] theorem setRest_part (hp : π ∉ [.spa]) (j : Nat) (on : Bool) (s : State) : part π (State.setRest j on s) = part π s
    := by
  simp only [List.mem_cons, List.not_mem_nil, or_false] at hp
  simp [State.setRest, hp]

@[simp] theorem restRequest_part (hp : π ∉ [.fwd, .ready, .spa, .cur]) (q : Sqe) (s : State) : part π (restRequest q s) =
    part π s := by
  simp only [List.mem_cons, List.not_mem_nil, or_false, not_or] at hp
  simp [restRequest, hp]

@[simp] theorem restExpiry_part (hp : π ∉ [.spa]) (j : Nat) (s : State) : part π (restExpiry j s) = part π s := by
  simp only [List.mem_cons, List.not_mem_nil, or_false] at hp
  unfold restExpiry
  (repeat' split) <;> simp [hp]

@[simp] theorem beginRests_part (hp : π ∉ [.spa]) (s : State) : part π (State.beginRests s) = part π s := by
  simp only [List.mem_cons, List.not_mem_nil, or_false] at hp
  unfold State.beginRests
  (repeat' split) <;> simp [hp]

@[simp] theorem setRefs_part (hp : π ∉ [.kce, .banks]) (r : List (Int × Nat)) (s : State) : part π (State.setRefs r s) = part
    π s := by
  simp only [List.mem_cons, List.not_mem_nil, or_false, not_or] at hp
  simp [State.setRefs, hp]

@[simp] theorem gateSession_part (hp : π ∉ [.fwd, .ready, .tmf, .lnk, .spa, .cur]) (x : PlanSess) (s : State) : part π
    (gateSession x s) = part π s := by
  simp only [List.mem_cons, List.not_mem_nil, or_false, not_or] at hp
  unfold gateSession
  (repeat' split) <;> simp [hp]

@[simp] theorem verifyRotation_part (hp : π ∉ [.rings, .tmf, .faults, .sup, .spa, .out]) (bad : List Nat) (s : State) : part
    π (verifyRotation bad s) = part π s := by
  simp only [List.mem_cons, List.not_mem_nil, or_false, not_or] at hp
  simp [verifyRotation, hp]

@[simp] theorem openWindow_part (hp : π ∉ [.fwd, .ready, .tmf, .sup, .spa, .cur]) (s : State) : part π (openWindow s) = part
    π s := by
  simp only [List.mem_cons, List.not_mem_nil, or_false, not_or] at hp
  simp [openWindow, hp]

@[simp] theorem gatePlan_part (hp : π ∉ [.fwd, .ready, .tmf, .lnk, .spa, .kce, .banks, .cur]) (p : Plan) (s : State) : part π
    (gatePlan p s) = part π s := by
  simp only [List.mem_cons, List.not_mem_nil, or_false, not_or] at hp
  simp [gatePlan, hp]

@[simp] theorem gateLate_part (hp : π ∉ [.faults, .spa, .kce, .banks]) (s : State) : part π (gateLate s) = part π s := by
  simp only [List.mem_cons, List.not_mem_nil, or_false, not_or] at hp
  simp [gateLate, hp]

@[simp] theorem setpointGate_part (hp : π ∉ [.fwd, .ready, .rings, .tmf, .faults, .sup, .lnk, .spa, .kce, .banks, .out,
    .cur]) (bad : List Nat) (s : State) : part π (setpointGate bad s) = part π s := by
  simp only [List.mem_cons, List.not_mem_nil, or_false, not_or] at hp
  unfold setpointGate
  (repeat' split) <;> simp [hp]

/-! ### What SGM, BTE and MSS share -/

@[simp] theorem pf1Event_part (hp : π ∉ [.rings, .lnk, .out]) (vec sub arg src : Nat) (s : State) : part π (State.pf1Event
    vec sub arg src s) = part π s := by
  simp only [List.mem_cons, List.not_mem_nil, or_false, not_or] at hp
  simp [State.pf1Event, hp]

@[simp] theorem flushPf1_part (hp : π ∉ [.rings, .lnk, .out]) (s : State) : part π (State.flushPf1 s) = part π s := by
  simp only [List.mem_cons, List.not_mem_nil, or_false, not_or] at hp
  simp [State.flushPf1, hp]

@[simp] theorem sgmEvent_part (hp : π ∉ [.rings, .lnk, .sgm, .out]) (sub arg src : Nat) (s : State) : part π (State.sgmEvent
    sub arg src s) = part π s := by
  simp only [List.mem_cons, List.not_mem_nil, or_false, not_or] at hp
  simp [State.sgmEvent, hp]

@[simp] theorem bteEvent_part (hp : π ∉ [.rings, .lnk, .bte, .out]) (vec sub arg src : Nat) (s : State) : part π
    (State.bteEvent vec sub arg src s) = part π s := by
  simp only [List.mem_cons, List.not_mem_nil, or_false, not_or] at hp
  simp [State.bteEvent, hp]

@[simp] theorem mssEvent_part (hp : π ∉ [.rings, .lnk, .mss, .out]) (sub arg : Nat) (s : State) : part π (State.mssEvent sub
    arg s) = part π s := by
  simp only [List.mem_cons, List.not_mem_nil, or_false, not_or] at hp
  simp [State.mssEvent, hp]

@[simp] theorem log_part (hp : π ∉ [.rings, .lnk, .mss, .out]) (kind source : Nat) (data : List Byte) (counter : Nat) (done :
    Bool) (s : State) : part π (State.log kind source data counter done s) = part π s := by
  simp only [List.mem_cons, List.not_mem_nil, or_false, not_or] at hp
  simp [State.log, hp]

@[simp] theorem coverOutside_part (hp : π ∉ [.rings, .lnk, .mss, .seal, .out]) (s : State) : part π (State.coverOutside s) =
    part π s := by
  simp only [List.mem_cons, List.not_mem_nil, or_false, not_or] at hp
  simp [State.coverOutside, hp]

@[simp] theorem legal_part (hp : π ∉ [.mss]) (q : Sqe) (content : List Byte) (result : Nat) (s : State) : part π (legal q
    content result s).2 = part π s := by
  simp only [List.mem_cons, List.not_mem_nil, or_false] at hp
  simp [legal, hp]

@[simp] theorem counted_part (hp : π ∉ [.mss]) (auth : Bool) (n : Nat) (s : State) : part π (State.counted auth n s) = part π
    s := by
  simp only [List.mem_cons, List.not_mem_nil, or_false] at hp
  unfold State.counted
  (repeat' split) <;> simp [hp]

@[simp] theorem sgServe_part (hp : π ∉ [.rings]) (q : Sqe) (params : List (Bool × Nat × Nat)) (body : State → SgAns × State)
    (s : State) (hb : ∀ s, part π (body s).2 = part π s) : part π (sgServe q params body s) = part π s := by
  simp only [List.mem_cons, List.not_mem_nil, or_false] at hp
  unfold sgServe
  split <;> simp [hp, hb]

@[simp] theorem sgReach_part (hp : π ∉ [.fwd, .ready, .rings, .lnk, .mss, .cur]) (op : Nat) (q : Sqe) (b : List Byte) (params
    : List (Bool × Nat × Nat)) (body : State → SgAns × State) (s : State) (hb : ∀ s, part π (body s).2 = part π s) : part π
    (sgReach op q b params body s) = part π s := by
  simp only [List.mem_cons, List.not_mem_nil, or_false, not_or] at hp
  unfold sgReach
  dsimp only
  (repeat' split) <;> simp [hp, hb]

@[simp] theorem sgCmd_part (hp : π ∉ [.fwd, .ready, .rings, .lnk, .mss, .cur]) (op : Nat) (q : Sqe) (params : List (Bool ×
    Nat × Nat)) (body : State → SgAns × State) (s : State) (hb : ∀ s, part π (body s).2 = part π s) : part π (sgCmd op q
    params body s) = part π s := by
  exact sgReach_part (by simpa using hp) op q [] params body s hb

@[simp] theorem sgCmdH_part (hp : π ∉ [.fwd, .ready, .rings, .lnk, .mss, .cur]) (op : Nat) (q : Sqe) (h : HostRead) (params :
    List Byte → List (Bool × Nat × Nat)) (body : List Byte → State → SgAns × State) (s : State) (hb : ∀ b s, part π (body b
    s).2 = part π s) : part π (sgCmdH op q h params body s) = part π s := by
  simp only [List.mem_cons, List.not_mem_nil, or_false, not_or] at hp
  unfold sgCmdH
  cases h with
  | error => simp [hp]
  | data b => simp [hp, hb]

/-! ### The clocks -/

@[simp] theorem sgTick_part (hp : π ∉ [.bte]) (s : State) : part π (sgTick s) = part π s := by
  simp only [List.mem_cons, List.not_mem_nil, or_false] at hp
  simp [sgTick, hp]

@[simp] theorem sampleSupply_part (hp : π ∉ [.sup, .free]) (s : State) : part π (State.sampleSupply s) = part π s := by
  simp only [List.mem_cons, List.not_mem_nil, or_false, not_or] at hp
  simp [State.sampleSupply, hp]

@[simp] theorem clockTick_part (hp : π ∉ [.sup, .bte, .out, .cur, .free]) (s : State) : part π (clockTick s) = part π s := by
  simp only [List.mem_cons, List.not_mem_nil, or_false, not_or] at hp
  simp [clockTick, hp]

/-! ### The Belfry -/

@[simp] theorem blkEvent_part (hp : π ∉ [.rings, .faults, .blk, .out]) (src sub arg : Nat) (fault : Option Nat) (s : State) :
    part π (State.blkEvent src sub arg fault s) = part π s := by
  simp only [List.mem_cons, List.not_mem_nil, or_false, not_or] at hp
  unfold State.blkEvent
  (repeat' split) <;> simp [hp]

@[simp] theorem onRoutes_part (hp : π ∉ [.rings, .faults, .blk, .out]) (a : Nat) (f : List Route → List Route) (s : State) :
    part π (State.onRoutes a f s) = part π s := by
  simp only [List.mem_cons, List.not_mem_nil, or_false, not_or] at hp
  simp [State.onRoutes, hp]

@[simp] theorem scoreRoute_part (hp : π ∉ [.rings, .faults, .blk, .out]) (a r1 r2 q : Nat) (failed : Bool) (s : State) : part
    π (State.scoreRoute a r1 r2 q failed s) = part π s := by
  simp only [List.mem_cons, List.not_mem_nil, or_false, not_or] at hp
  simp [State.scoreRoute, hp]

@[simp] theorem rebuild_part (hp : π ∉ [.rings, .faults, .blk, .out]) (a : Nat) (s : State) : part π (State.rebuild a s) =
    part π s := by
  simp only [List.mem_cons, List.not_mem_nil, or_false, not_or] at hp
  simp [State.rebuild, hp]

@[simp] theorem latchBlk_part (hp : π ∉ [.blk]) (s : State) : part π (State.latchBlk s) = part π s := by
  simp only [List.mem_cons, List.not_mem_nil, or_false] at hp
  simp [State.latchBlk, hp]

@[simp] theorem exEnd_part (hp : π ∉ [.fwd, .ready, .blk, .cur]) (x : Exch) (status result : Nat) (s : State) : part π
    (State.exEnd x status result s) = part π s := by
  simp only [List.mem_cons, List.not_mem_nil, or_false, not_or] at hp
  unfold State.exEnd
  (repeat' split) <;> simp [hp]

@[simp] theorem exLost_part (hp : π ∉ [.fwd, .ready, .rings, .faults, .blk, .out, .cur]) (x : Exch) (s : State) : part π
    (State.exLost x s) = part π s := by
  simp only [List.mem_cons, List.not_mem_nil, or_false, not_or] at hp
  simp [State.exLost, hp]

@[simp] theorem settleEx_part (hp : π ∉ [.fwd, .ready, .blk, .cur]) (s : State) : part π (State.settleEx s) = part π s := by
  simp only [List.mem_cons, List.not_mem_nil, or_false, not_or] at hp
  unfold State.settleEx
  (repeat' split) <;> simp [hp]

@[simp] theorem exFail_part (hp : π ∉ [.fwd, .ready, .rings, .faults, .blk, .out, .cur]) (x : Exch) (s : State) : part π
    (State.exFail x s) = part π s := by
  simp only [List.mem_cons, List.not_mem_nil, or_false, not_or] at hp
  unfold State.exFail
  dsimp only
  (repeat' split) <;> simp [hp]

@[simp] theorem ask_part (hp : π ∉ [.blk]) (r : BlkReq) (s : State) : part π (State.ask r s) = part π s := by
  simp only [List.mem_cons, List.not_mem_nil, or_false] at hp
  simp [State.ask, hp]

@[simp] theorem tokenReject_part (hp : π ∉ [.blk]) (a reason : Nat) (s : State) : part π (State.tokenReject a reason s) =
    part π s := by
  simp only [List.mem_cons, List.not_mem_nil, or_false] at hp
  simp [State.tokenReject, hp]

@[simp] theorem reportTaken_part (hp : π ∉ [.rings, .faults, .lnk, .blk, .out]) (a kind data : Nat) (s : State) : part π
    (State.reportTaken a kind data s) = part π s := by
  simp only [List.mem_cons, List.not_mem_nil, or_false, not_or] at hp
  unfold State.reportTaken
  (repeat' split) <;> simp [hp]

@[simp] theorem answered_part (hp : π ∉ [.fwd, .ready, .rings, .faults, .blk, .out, .cur]) (x : Exch) (q : Nat) (s : State) :
    part π (State.answered x q s) = part π s := by
  simp only [List.mem_cons, List.not_mem_nil, or_false, not_or] at hp
  unfold State.answered
  (repeat' split) <;> simp [hp]

@[simp] theorem report_part (hp : π ∉ [.rings, .faults, .lnk, .blk, .out]) (a p : Nat) (s : State) : part π (State.report a p
    s) = part π s := by
  simp only [List.mem_cons, List.not_mem_nil, or_false, not_or] at hp
  simp [State.report, hp]

@[simp] theorem belfryFrameRx_part (hp : π ∉ [.fwd, .ready, .rings, .faults, .lnk, .blk, .out, .cur]) (s : State) : part π
    (belfryFrameRx s) = part π s := by
  simp only [List.mem_cons, List.not_mem_nil, or_false, not_or] at hp
  unfold belfryFrameRx
  dsimp only
  (repeat' split) <;> simp [hp]

@[simp] theorem answerTimeout_part (hp : π ∉ [.fwd, .ready, .rings, .faults, .blk, .out, .cur]) (s : State) : part π
    (answerTimeout s) = part π s := by
  simp only [List.mem_cons, List.not_mem_nil, or_false, not_or] at hp
  unfold answerTimeout
  (repeat' split) <;> simp [hp]

@[simp] theorem cycleEnd_part (hp : π ∉ [.fwd, .ready, .blk, .out, .cur]) (y : Sym) (s : State) : part π (State.cycleEnd y s)
    = part π s := by
  simp only [List.mem_cons, List.not_mem_nil, or_false, not_or] at hp
  unfold State.cycleEnd
  dsimp only
  (repeat' split) <;> simp [hp]

@[simp] theorem lineDown_part (hp : π ∉ [.fwd, .ready, .rings, .faults, .blk, .out, .cur]) (s : State) : part π
    (State.lineDown s) = part π s := by
  simp only [List.mem_cons, List.not_mem_nil, or_false, not_or] at hp
  unfold State.lineDown
  dsimp only
  (repeat' split) <;> simp [hp]

@[simp] theorem cycleGood_part (hp : π ∉ [.rings, .faults, .blk, .out]) (s : State) : part π (State.cycleGood s) = part π s
    := by
  simp only [List.mem_cons, List.not_mem_nil, or_false, not_or] at hp
  simp [State.cycleGood, hp]

@[simp] theorem edgeJudged_part (hp : π ∉ [.fwd, .ready, .rings, .faults, .blk, .out, .cur]) (ok freqBad : Bool) (s : State)
    : part π (State.edgeJudged ok freqBad s) = part π s := by
  simp only [List.mem_cons, List.not_mem_nil, or_false, not_or] at hp
  simp [State.edgeJudged, hp]

@[simp] theorem freqJudged_part (hp : π ∉ [.fwd, .ready, .rings, .faults, .blk, .out, .cur]) (bad : Bool) (s : State) : part
    π (State.freqJudged bad s) = part π s := by
  simp only [List.mem_cons, List.not_mem_nil, or_false, not_or] at hp
  simp [State.freqJudged, hp]

@[simp] theorem zeroCrossing_part (hp : π ∉ [.fwd, .ready, .rings, .faults, .blk, .out, .cur]) (z : ZeroCross) (s : State) :
    part π (zeroCrossing z s) = part π s := by
  simp only [List.mem_cons, List.not_mem_nil, or_false, not_or] at hp
  unfold zeroCrossing
  (repeat' split) <;> simp [hp]

@[simp] theorem zeroCrossingMissed_part (hp : π ∉ [.fwd, .ready, .rings, .faults, .blk, .out, .cur]) (s : State) : part π
    (zeroCrossingMissed s) = part π s := by
  simp only [List.mem_cons, List.not_mem_nil, or_false, not_or] at hp
  unfold zeroCrossingMissed
  dsimp only
  (repeat' split) <;> simp [hp]

@[simp] theorem newRound_part (hp : π ∉ [.rings, .faults, .blk, .out]) (s : State) : part π (State.newRound s) = part π s := by
  simp only [List.mem_cons, List.not_mem_nil, or_false, not_or] at hp
  simp [State.newRound, hp]

@[simp] theorem dropReqs_part (hp : π ∉ [.fwd, .ready, .blk, .cur]) (s : State) : part π (State.dropReqs s) = part π s := by
  simp only [List.mem_cons, List.not_mem_nil, or_false, not_or] at hp
  refine (part_foldl (fun t r => ?_) _ _).trans (by simp [hp])
  (repeat' split) <;> simp [hp]

@[simp] theorem nextExch_part (hp : π ∉ [.fwd, .ready, .rings, .faults, .blk, .out, .cur]) (s : State) : part π
    (State.nextExch s) = part π s := by
  simp only [List.mem_cons, List.not_mem_nil, or_false, not_or] at hp
  unfold State.nextExch
  dsimp only
  (repeat' split) <;> simp [hp]

@[simp] theorem belfryRequest_part (hp : π ∉ [.fwd, .ready, .rings, .faults, .blk, .out, .cur]) (s : State) : part π
    (belfryRequest s) = part π s := by
  simp only [List.mem_cons, List.not_mem_nil, or_false, not_or] at hp
  unfold belfryRequest
  dsimp only
  (repeat' split) <;> simp [hp]

@[simp] theorem tokenAnswered_part (hp : π ∉ [.blk]) (a data : Nat) (s : State) : part π (State.tokenAnswered a data s) =
    part π s := by
  simp only [List.mem_cons, List.not_mem_nil, or_false] at hp
  simp [State.tokenAnswered, hp]

@[simp] theorem nodeCmd_part (hp : π ∉ [.fwd, .ready, .cur]) (op : Nat) (q : Sqe) (params : List (Bool × Nat × Nat)) (body :
    Nat → State → State) (s : State) (hb : ∀ a s, part π (body a s) = part π s) : part π (nodeCmd op q params body s) = part
    π s := by
  simp only [List.mem_cons, List.not_mem_nil, or_false, not_or] at hp
  refine hostCmd_part (by simp [hp]) op q _ _ s (fun s => ?_)
  split <;> simp [hp, hb]

@[simp] theorem admitBelfry_part (hp : π ∉ [.fwd, .ready, .blk, .cur]) (old new : Option BelfryRec) (s : State) : part π
    (State.admitBelfry old new s) = part π s := by
  simp only [List.mem_cons, List.not_mem_nil, or_false, not_or] at hp
  simp [State.admitBelfry, hp]

/-! ### Load switches -/

@[simp] theorem showSense_part (hp : π ∉ [.out]) (s : State) : part π (State.showSense s) = part π s := by
  simp only [List.mem_cons, List.not_mem_nil, or_false] at hp
  simp [State.showSense, hp]

@[simp] theorem resense_part (hp : π ∉ [.out]) (old s : State) : part π (State.resense old s) = part π s := by
  simp only [List.mem_cons, List.not_mem_nil, or_false] at hp
  simp [State.resense, hp]

@[simp] theorem driveCh_part (hp : π ∉ [.out]) (n : Nat) (on : Bool) (s : State) : part π (State.driveCh n on s) = part π s
    := by
  simp only [List.mem_cons, List.not_mem_nil, or_false] at hp
  simp [State.driveCh, hp]

@[simp] theorem lswEvent_part (hp : π ∉ [.rings, .faults, .lsw, .out]) (src sub arg : Nat) (fault : Option (Nat × Nat)) (s :
    State) : part π (State.lswEvent src sub arg fault s) = part π s := by
  simp only [List.mem_cons, List.not_mem_nil, or_false, not_or] at hp
  unfold State.lswEvent
  (repeat' split) <;> simp [hp]

@[simp] theorem journalCh_part (hp : π ∉ [.sj]) (n : Nat) (s : State) : part π (State.journalCh n s) = part π s := by
  simp only [List.mem_cons, List.not_mem_nil, or_false] at hp
  simp [State.journalCh, hp]

@[simp] theorem turnOn_part (hp : π ∉ [.lsw, .chans, .out]) (n : Nat) (s : State) : part π (State.turnOn n s) = part π s := by
  simp only [List.mem_cons, List.not_mem_nil, or_false, not_or] at hp
  simp [State.turnOn, hp]

@[simp] theorem takeDeferred_part (hp : π ∉ [.lsw, .chans, .out]) (s : State) : part π (State.takeDeferred s) = part π s := by
  simp only [List.mem_cons, List.not_mem_nil, or_false, not_or] at hp
  simp [State.takeDeferred, hp]

@[simp] theorem lockCh_part (hp : π ∉ [.rings, .faults, .sj, .lsw, .chans, .out]) (n cause sub arg code : Nat) (s : State) :
    part π (State.lockCh n cause sub arg code s) = part π s := by
  simp only [List.mem_cons, List.not_mem_nil, or_false, not_or] at hp
  simp [State.lockCh, hp]

@[simp] theorem clampEnergy_part (hp : π ∉ [.rings, .faults, .sj, .lsw, .chans, .out, .free]) (n : Nat) (s : State) : part π
    (State.clampEnergy n s) = part π s := by
  simp only [List.mem_cons, List.not_mem_nil, or_false, not_or] at hp
  simp [State.clampEnergy, hp]

@[simp] theorem turnOff_part (hp : π ∉ [.rings, .faults, .sj, .lsw, .chans, .out, .free]) (n : Nat) (st : LSt) (s : State) :
    part π (State.turnOff n st s) = part π s := by
  simp only [List.mem_cons, List.not_mem_nil, or_false, not_or] at hp
  simp [State.turnOff, hp]

@[simp] theorem applyOrder_part (hp : π ∉ [.rings, .faults, .sj, .lsw, .chans, .out, .free]) (n : Nat) (s : State) : part π
    (State.applyOrder n s) = part π s := by
  simp only [List.mem_cons, List.not_mem_nil, or_false, not_or] at hp
  unfold State.applyOrder
  dsimp only
  (repeat' split) <;> simp [hp]

@[simp] theorem orderCh_part (hp : π ∉ [.rings, .faults, .sj, .lsw, .chans, .out, .free]) (n mode duty : Nat) (s : State) :
    part π (State.orderCh n mode duty s) = part π s := by
  simp only [List.mem_cons, List.not_mem_nil, or_false, not_or] at hp
  simp [State.orderCh, hp]

@[simp] theorem holdCh_part (hp : π ∉ [.rings, .faults, .sj, .lsw, .chans, .out, .free]) (n : Nat) (on : Bool) (s : State) :
    part π (State.holdCh n on s) = part π s := by
  simp only [List.mem_cons, List.not_mem_nil, or_false, not_or] at hp
  simp [State.holdCh, hp]

@[simp] theorem tripCh_part (hp : π ∉ [.rings, .faults, .sj, .lsw, .chans, .out, .free]) (n cause ma : Nat) (s : State) :
    part π (State.tripCh n cause ma s) = part π s := by
  simp only [List.mem_cons, List.not_mem_nil, or_false, not_or] at hp
  simp [State.tripCh, hp]

@[simp] theorem inrushEnd_part (hp : π ∉ [.rings, .faults, .sj, .lsw, .chans, .out, .free]) (n : Nat) (limiting : Bool) (s :
    State) : part π (inrushEnd n limiting s) = part π s := by
  simp only [List.mem_cons, List.not_mem_nil, or_false, not_or] at hp
  simp [inrushEnd, hp]

@[simp] theorem retryWaitEnd_part (hp : π ∉ [.rings, .faults, .sj, .lsw, .chans, .out]) (n : Nat) (s : State) : part π
    (retryWaitEnd n s) = part π s := by
  simp only [List.mem_cons, List.not_mem_nil, or_false, not_or] at hp
  simp [retryWaitEnd, hp]

@[simp] theorem chRetryClear_part (hp : π ∉ [.sj, .lsw]) (n : Nat) (s : State) : part π (chRetryClear n s) = part π s := by
  simp only [List.mem_cons, List.not_mem_nil, or_false, not_or] at hp
  simp [chRetryClear, hp]

@[simp] theorem freewheelMissing_part (hp : π ∉ [.rings, .faults, .sj, .lsw, .chans, .out]) (n : Nat) (mv : Int) (s : State)
    : part π (freewheelMissing n mv s) = part π s := by
  simp only [List.mem_cons, List.not_mem_nil, or_false, not_or] at hp
  simp [freewheelMissing, hp]

@[simp] theorem clampDrain_part (hp : π ∉ [.lsw, .chans, .out]) (vsup : Nat) (currents : List Nat) (s : State) : part π
    (clampDrain vsup currents s) = part π s := by
  simp only [List.mem_cons, List.not_mem_nil, or_false, not_or] at hp
  unfold clampDrain
  dsimp only
  split <;> simp [hp, -Lsw.marks]

@[simp] theorem supplyDip_part (hp : π ∉ [.rings, .faults, .lsw, .out]) (mv : Nat) (s : State) : part π (supplyDip mv s) =
    part π s := by
  simp only [List.mem_cons, List.not_mem_nil, or_false, not_or] at hp
  simp [supplyDip, hp]

@[simp] theorem dipEnd_part (hp : π ∉ [.rings, .faults, .lsw, .chans, .out]) (s : State) : part π (dipEnd s) = part π s := by
  simp only [List.mem_cons, List.not_mem_nil, or_false, not_or] at hp
  simp [dipEnd, hp]

@[simp] theorem supplyLoss_part (hp : π ∉ [.rings, .faults, .sj, .lsw, .chans, .out, .free]) (s : State) : part π (supplyLoss
    s) = part π s := by
  simp only [List.mem_cons, List.not_mem_nil, or_false, not_or] at hp
  simp [supplyLoss, hp]

@[simp] theorem applyOrders_part (hp : π ∉ [.rings, .faults, .sj, .lsw, .chans, .out, .free]) (s : State) : part π
    (State.applyOrders s) = part π s := by
  simp only [List.mem_cons, List.not_mem_nil, or_false, not_or] at hp
  simp [State.applyOrders, hp]

@[simp] theorem supplyRestore_part (hp : π ∉ [.rings, .faults, .sj, .lsw, .chans, .out, .free]) (s : State) : part π
    (supplyRestore s) = part π s := by
  simp only [List.mem_cons, List.not_mem_nil, or_false, not_or] at hp
  unfold supplyRestore
  (repeat' split) <;> simp [hp]

@[simp] theorem selChange_part (hp : π ∉ [.lsw, .out]) (code : Nat) (s : State) : part π (selChange code s) = part π s := by
  simp only [List.mem_cons, List.not_mem_nil, or_false, not_or] at hp
  simp [selChange, hp]

@[simp] theorem pwmPeriod_part (hp : π ∉ [.rings, .faults, .sj, .lsw, .chans, .out, .free]) (n : Nat) (s : State) : part π
    (pwmPeriod n s) = part π s := by
  simp only [List.mem_cons, List.not_mem_nil, or_false, not_or] at hp
  simp [pwmPeriod, hp]

@[simp] theorem switchSet_part (hp : π ∉ [.fwd, .ready, .rings, .faults, .sj, .lsw, .chans, .out, .cur, .free]) (q : Sqe) (s
    : State) : part π (switchSet q s) = part π s := by
  simp only [List.mem_cons, List.not_mem_nil, or_false, not_or] at hp
  simp [switchSet, hp]

@[simp] theorem unlockCh_part (hp : π ∉ [.rings, .faults, .sj, .lsw, .chans, .out, .free]) (n : Nat) (s : State) : part π
    (State.unlockCh n s) = part π s := by
  simp only [List.mem_cons, List.not_mem_nil, or_false, not_or] at hp
  simp [State.unlockCh, hp]

@[simp] theorem lockoutClear_part (hp : π ∉ [.fwd, .ready, .rings, .faults, .sj, .lsw, .chans, .out, .cur, .free]) (q : Sqe)
    (s : State) : part π (lockoutClear q s) = part π s := by
  simp only [List.mem_cons, List.not_mem_nil, or_false, not_or] at hp
  simp [lockoutClear, hp]

/-! ### Phase groups -/

@[simp] theorem sendCap_part (hp : π ∉ [.spa, .psc]) (g c : Nat) (s : State) : part π (State.sendCap g c s) = part π s := by
  simp only [List.mem_cons, List.not_mem_nil, or_false, not_or] at hp
  simp [State.sendCap, hp]

@[simp] theorem deliverCap_part (hp : π ∉ [.spa, .psc]) (m : GroupMap) (g : Nat) (s : State) : part π (State.deliverCap m g
    s) = part π s := by
  simp only [List.mem_cons, List.not_mem_nil, or_false, not_or] at hp
  simp [State.deliverCap, hp]

@[simp] theorem capacityDelivery_part (hp : π ∉ [.spa, .psc]) (g : Nat) (s : State) : part π (capacityDelivery g s) = part π
    s := by
  simp only [List.mem_cons, List.not_mem_nil, or_false, not_or] at hp
  unfold capacityDelivery
  (repeat' split) <;> simp [hp]

@[simp] theorem pscEvent_part (hp : π ∉ [.rings, .faults, .psc, .out]) (g sub arg : Nat) (fault : Option Nat) (s : State) :
    part π (State.pscEvent g sub arg fault s) = part π s := by
  simp only [List.mem_cons, List.not_mem_nil, or_false, not_or] at hp
  unfold State.pscEvent
  (repeat' split) <;> simp [hp]

@[simp] theorem journalGroup_part (hp : π ∉ [.sj]) (g : Nat) (s : State) : part π (State.journalGroup g s) = part π s := by
  simp only [List.mem_cons, List.not_mem_nil, or_false] at hp
  simp [State.journalGroup, hp]

@[simp] theorem refreshGroup_part (hp : π ∉ [.spa, .psc]) (m : GroupMap) (g : Nat) (s : State) : part π (State.refreshGroup m
    g s) = part π s := by
  simp only [List.mem_cons, List.not_mem_nil, or_false, not_or] at hp
  simp [State.refreshGroup, hp]

@[simp] theorem refreshGroups_part (hp : π ∉ [.spa, .psc]) (s : State) : part π (State.refreshGroups s) = part π s := by
  simp only [List.mem_cons, List.not_mem_nil, or_false, not_or] at hp
  refine part_foldl (fun s g => ?_) _ s
  split <;> simp [hp]

@[simp] theorem lockGroup_part (hp : π ∉ [.rings, .faults, .psc, .out]) (g cause : Nat) (s : State) : part π (State.lockGroup
    g cause s) = part π s := by
  simp only [List.mem_cons, List.not_mem_nil, or_false, not_or] at hp
  simp [State.lockGroup, hp]

@[simp] theorem losePhase_part (hp : π ∉ [.rings, .faults, .sj, .spa, .psc, .out]) (m : GroupMap) (g h cause : Nat) (s :
    State) : part π (State.losePhase m g h cause s) = part π s := by
  simp only [List.mem_cons, List.not_mem_nil, or_false, not_or] at hp
  simp [State.losePhase, hp]

@[simp] theorem linkLost_part (hp : π ∉ [.rings, .faults, .sj, .spa, .psc, .out]) (l cause : Nat) (s : State) : part π
    (State.linkLost l cause s) = part π s := by
  simp only [List.mem_cons, List.not_mem_nil, or_false, not_or] at hp
  unfold State.linkLost
  (repeat' split) <;> simp [hp]

@[simp] theorem tripGroup_part (hp : π ∉ [.rings, .faults, .spa, .psc, .out]) (m : GroupMap) (g h : Nat) (s : State) : part π
    (State.tripGroup m g h s) = part π s := by
  simp only [List.mem_cons, List.not_mem_nil, or_false, not_or] at hp
  simp [State.tripGroup, hp]

@[simp] theorem overloadStep_part (hp : π ∉ [.rings, .faults, .spa, .psc, .out]) (m : GroupMap) (g : Nat) (ma : Int) (s :
    State) : part π (State.overloadStep m g ma s) = part π s := by
  simp only [List.mem_cons, List.not_mem_nil, or_false, not_or] at hp
  simp [State.overloadStep, hp]

@[simp] theorem sampleLosses_part (hp : π ∉ [.rings, .faults, .sj, .spa, .psc, .out]) (m : GroupMap) (g : Nat) (s : State) :
    part π (State.sampleLosses m g s) = part π s := by
  simp only [List.mem_cons, List.not_mem_nil, or_false, not_or] at hp
  refine part_foldl (fun s h => ?_) _ s
  (repeat' split) <;> simp [hp]

@[simp] theorem sumSample_part (hp : π ∉ [.psc]) (m : GroupMap) (g : Nat) (ma : Int) (s : State) : part π (State.sumSample m
    g ma s) = part π s := by
  simp only [List.mem_cons, List.not_mem_nil, or_false] at hp
  simp [State.sumSample, hp]

@[simp] theorem pscSample_part (hp : π ∉ [.rings, .faults, .sj, .spa, .psc, .out]) (m : GroupMap) (g : Nat) (s : State) :
    part π (State.pscSample m g s) = part π s := by
  simp only [List.mem_cons, List.not_mem_nil, or_false, not_or] at hp
  unfold State.pscSample
  dsimp only
  (repeat' split) <;> simp [hp]

@[simp] theorem groupRetry_part (hp : π ∉ [.rings, .faults, .sj, .spa, .psc, .out]) (g : Nat) (s : State) : part π
    (groupRetry g s) = part π s := by
  simp only [List.mem_cons, List.not_mem_nil, or_false, not_or] at hp
  unfold groupRetry
  (repeat' split) <;> simp [hp]

@[simp] theorem groupRetryClear_part (hp : π ∉ [.sj, .psc]) (g : Nat) (s : State) : part π (groupRetryClear g s) = part π s
    := by
  simp only [List.mem_cons, List.not_mem_nil, or_false, not_or] at hp
  simp [groupRetryClear, hp]

@[simp] theorem latchReport_part (hp : π ∉ [.psc]) (g : Nat) (set : Bool) (s : State) : part π (latchReport g set s) = part π
    s := by
  simp only [List.mem_cons, List.not_mem_nil, or_false] at hp
  unfold latchReport
  (repeat' split) <;> simp [hp]

@[simp] theorem holdGroup_part (hp : π ∉ [.spa, .psc]) (g : Nat) (s : State) : part π (State.holdGroup g s) = part π s := by
  simp only [List.mem_cons, List.not_mem_nil, or_false, not_or] at hp
  unfold State.holdGroup
  (repeat' split) <;> simp [hp]

@[simp] theorem unholdLane_part (hp : π ∉ [.kce, .banks]) (g : Nat) (s : State) : part π (State.unholdLane g s) = part π s := by
  simp only [List.mem_cons, List.not_mem_nil, or_false, not_or] at hp
  simp [State.unholdLane, hp]

@[simp] theorem groupRelease_part (hp : π ∉ [.fwd, .ready, .rings, .faults, .sj, .spa, .kce, .banks, .psc, .pla, .out, .cur])
    (q : Sqe) (s : State) : part π (groupRelease q s) = part π s := by
  simp only [List.mem_cons, List.not_mem_nil, or_false, not_or] at hp
  unfold groupRelease
  dsimp only
  (repeat' split) <;> simp [hp]

/-! ### Thermal control -/

@[simp] theorem tcmEvent_part (hp : π ∉ [.rings, .faults, .tcm, .out]) (src sub arg : Nat) (fault : Option Nat) (v : Option
    Int) (s : State) : part π (State.tcmEvent src sub arg fault v s) = part π s := by
  simp only [List.mem_cons, List.not_mem_nil, or_false, not_or] at hp
  unfold State.tcmEvent
  (repeat' split) <;> simp [hp]

@[simp] theorem tripTest_part (hp : π ∉ [.rings, .faults, .tcm, .out, .free]) (r : SensorRec) (n : Nat) (s : State) : part π
    (State.tripTest r n s) = part π s := by
  simp only [List.mem_cons, List.not_mem_nil, or_false, not_or] at hp
  unfold State.tripTest
  dsimp only
  (repeat' split) <;> simp [hp]

@[simp] theorem senseTick_part (hp : π ∉ [.rings, .faults, .tcm, .out, .free]) (all : List Sens) (n : Nat) (s : State) : part
    π (State.senseTick all n s) = part π s := by
  simp only [List.mem_cons, List.not_mem_nil, or_false, not_or] at hp
  simp [State.senseTick, hp]

@[simp] theorem deliverCaps_part (hp : π ∉ [.spa]) (s : State) : part π (State.deliverCaps s) = part π s := by
  simp only [List.mem_cons, List.not_mem_nil, or_false] at hp
  simp [State.deliverCaps, hp]

@[simp] theorem tcmHolds_part (hp : π ∉ [.rings, .faults, .sj, .lsw, .chans, .out, .free]) (s : State) : part π
    (State.tcmHolds s) = part π s := by
  simp only [List.mem_cons, List.not_mem_nil, or_false, not_or] at hp
  simp [State.tcmHolds, hp]

@[simp] theorem tcmHoldsBegin_part (hp : π ∉ [.rings, .faults, .sj, .lsw, .chans, .out, .free]) (s : State) : part π
    (State.tcmHoldsBegin s) = part π s := by
  simp only [List.mem_cons, List.not_mem_nil, or_false, not_or] at hp
  simp [State.tcmHoldsBegin, hp]

@[simp] theorem journalLatches_part (hp : π ∉ [.sj]) (old : List (Nat × Bool × Bool)) (s : State) : part π
    (State.journalLatches old s) = part π s := by
  simp only [List.mem_cons, List.not_mem_nil, or_false] at hp
  simp [State.journalLatches, hp]

@[simp] theorem tcmShow_part (hp : π ∉ [.tcm]) (s : State) : part π (State.tcmShow s) = part π s := by
  simp only [List.mem_cons, List.not_mem_nil, or_false] at hp
  simp [State.tcmShow, hp]

@[simp] theorem aqOrder_part (hp : π ∉ [.rings, .faults, .sj, .lsw, .chans, .out, .free]) (ch : Nat) (on : Bool) (s : State)
    : part π (State.aqOrder ch on s) = part π s := by
  simp only [List.mem_cons, List.not_mem_nil, or_false, not_or] at hp
  simp [State.aqOrder, hp]

@[simp] theorem aqTick_part (hp : π ∉ [.rings, .faults, .sj, .tcm, .lsw, .chans, .out, .free]) (p : Nat) (s : State) : part π
    (State.aqTick p s) = part π s := by
  simp only [List.mem_cons, List.not_mem_nil, or_false, not_or] at hp
  simp [State.aqTick, hp]

@[simp] theorem flowSecond_part (hp : π ∉ [.rings, .faults, .tcm, .out]) (pulses : List Nat) (p : Nat) (s : State) : part π
    (State.flowSecond pulses p s) = part π s := by
  simp only [List.mem_cons, List.not_mem_nil, or_false, not_or] at hp
  simp [State.flowSecond, hp]

@[simp] theorem flowSeconds_part (hp : π ∉ [.rings, .faults, .tcm, .out]) (pulses : List Nat) (s : State) : part π
    (flowSeconds pulses s) = part π s := by
  simp only [List.mem_cons, List.not_mem_nil, or_false, not_or] at hp
  simp [flowSeconds, hp]

@[simp] theorem thermalTick_part (hp : π ∉ [.rings, .faults, .sj, .tcm, .lsw, .chans, .out, .free]) (raw : List Conversion)
    (s : State) : part π (thermalTick raw s) = part π s := by
  simp only [List.mem_cons, List.not_mem_nil, or_false, not_or] at hp
  simp [thermalTick, hp]

@[simp] theorem graceExpiry_part (hp : π ∉ [.rings, .faults, .tcm, .out]) (n : Nat) (s : State) : part π (graceExpiry n s) =
    part π s := by
  simp only [List.mem_cons, List.not_mem_nil, or_false, not_or] at hp
  simp [graceExpiry, hp]

@[simp] theorem aqForceExpiry_part (hp : π ∉ [.tcm]) (p : Nat) (s : State) : part π (aqForceExpiry p s) = part π s := by
  simp only [List.mem_cons, List.not_mem_nil, or_false] at hp
  simp [aqForceExpiry, hp]

@[simp] theorem unlatch_part (hp : π ∉ [.rings, .faults, .tcm, .out]) (n : Nat) (s : State) : part π (State.unlatch n s) =
    part π s := by
  simp only [List.mem_cons, List.not_mem_nil, or_false, not_or] at hp
  simp [State.unlatch, hp]

@[simp] theorem latchClear_part (hp : π ∉ [.fwd, .ready, .rings, .faults, .sj, .tcm, .lsw, .chans, .out, .cur, .free]) (q :
    Sqe) (s : State) : part π (latchClear q s) = part π s := by
  simp only [List.mem_cons, List.not_mem_nil, or_false, not_or] at hp
  simp [latchClear, hp]

@[simp] theorem thermalStatus_part (hp : π ∉ [.fwd, .ready, .out, .cur]) (q : Sqe) (s : State) : part π (thermalStatus q s) =
    part π s := by
  simp only [List.mem_cons, List.not_mem_nil, or_false, not_or] at hp
  simp [thermalStatus, hp]

/-! ### Battery estimation -/

@[simp] theorem bseEvent_part (hp : π ∉ [.rings, .bse, .out]) (src sub arg : Nat) (s : State) : part π (State.bseEvent src
    sub arg s) = part π s := by
  simp only [List.mem_cons, List.not_mem_nil, or_false, not_or] at hp
  simp [State.bseEvent, hp]

@[simp] theorem journalStrings_part (hp : π ∉ [.sj]) (s : State) : part π (State.journalStrings s) = part π s := by
  simp only [List.mem_cons, List.not_mem_nil, or_false] at hp
  simp [State.journalStrings, hp]

@[simp] theorem learnCap_part (hp : π ∉ [.rings, .faults, .sj, .bse, .out]) (j : Nat) (x : Str) (soc : Nat) (s : State) :
    part π (State.learnCap j x soc s) = part π s := by
  simp only [List.mem_cons, List.not_mem_nil, or_false, not_or] at hp
  unfold State.learnCap
  (repeat' split) <;> simp [hp]

@[simp] theorem restCorrect_part (hp : π ∉ [.rings, .faults, .sj, .bse, .out]) (j : Nat) (s : State) : part π
    (State.restCorrect j s) = part π s := by
  simp only [List.mem_cons, List.not_mem_nil, or_false, not_or] at hp
  simp [State.restCorrect, hp]

@[simp] theorem warnStr_part (hp : π ∉ [.rings, .faults, .bse, .out]) (j : Nat) (s : State) : part π (State.warnStr j s) =
    part π s := by
  simp only [List.mem_cons, List.not_mem_nil, or_false, not_or] at hp
  simp [State.warnStr, hp]

@[simp] theorem bseString_part (hp : π ∉ [.rings, .faults, .sj, .bse, .out]) (j : Nat) (s : State) : part π (State.bseString
    j s) = part π s := by
  simp only [List.mem_cons, List.not_mem_nil, or_false, not_or] at hp
  simp [State.bseString, hp]

@[simp] theorem groupMeans_part (hp : π ∉ [.evr]) (s : State) : part π (State.groupMeans s) = part π s := by
  simp only [List.mem_cons, List.not_mem_nil, or_false] at hp
  simp [State.groupMeans, hp]

@[simp] theorem bseUpdate_part (hp : π ∉ [.rings, .faults, .sj, .bse, .evr, .out]) (s : State) : part π (bseUpdate s) = part
    π s := by
  simp only [List.mem_cons, List.not_mem_nil, or_false, not_or] at hp
  simp [bseUpdate, hp]

@[simp] theorem restCorrection_part (hp : π ∉ [.rings, .faults, .sj, .bse, .out]) (j : Nat) (s : State) : part π
    (restCorrection j s) = part π s := by
  simp only [List.mem_cons, List.not_mem_nil, or_false, not_or] at hp
  simp [restCorrection, hp]

@[simp] theorem driftEntry_part (hp : π ∉ [.rings, .bse, .out]) (j : Nat) (s : State) : part π (driftEntry j s) = part π s := by
  simp only [List.mem_cons, List.not_mem_nil, or_false, not_or] at hp
  simp [driftEntry, hp]

@[simp] theorem impSave_part (hp : π ∉ [.sup]) (s : State) : part π (impSave s) = part π s := by
  simp only [List.mem_cons, List.not_mem_nil, or_false] at hp
  simp [impSave, hp]

@[simp] theorem deliverLimits_part (hp : π ∉ [.spa]) (s : State) : part π (State.deliverLimits s) = part π s := by
  simp only [List.mem_cons, List.not_mem_nil, or_false] at hp
  simp [State.deliverLimits, hp]

@[simp] theorem admitStrings_part (hp : π ∉ [.rings, .bse, .out]) (old new : Cfg) (journal : Bool) (s : State) : part π
    (State.admitStrings old new journal s) = part π s := by
  simp only [List.mem_cons, List.not_mem_nil, or_false, not_or] at hp
  simp [State.admitStrings, hp]

@[simp] theorem doneAfterJournal_part (hp : π ∉ [.fwd, .ready, .sup, .cur]) (q : Sqe) (s : State) : part π
    (State.doneAfterJournal q s) = part π s := by
  simp only [List.mem_cons, List.not_mem_nil, or_false, not_or] at hp
  simp [State.doneAfterJournal, hp]

@[simp] theorem capacitySet_part (hp : π ∉ [.fwd, .ready, .sj, .sup, .bse, .cur]) (q : Sqe) (s : State) : part π (capacitySet
    q s) = part π s := by
  simp only [List.mem_cons, List.not_mem_nil, or_false, not_or] at hp
  simp [capacitySet, hp]

/-! ### The event recorder -/

@[simp] theorem evrEvent_part (hp : π ∉ [.rings, .faults, .evr, .out]) (sub arg fault : Nat) (s : State) : part π
    (State.evrEvent sub arg fault s) = part π s := by
  simp only [List.mem_cons, List.not_mem_nil, or_false, not_or] at hp
  simp [State.evrEvent, hp]

@[simp] theorem evrSample_part (hp : π ∉ [.evr]) (i : Nat) (s : State) : part π (evrSample i s) = part π s := by
  simp only [List.mem_cons, List.not_mem_nil, or_false] at hp
  unfold evrSample
  dsimp only
  (repeat' split) <;> simp [hp]

@[simp] theorem deferClose_part (hp : π ∉ [.evr]) (i nominal : Nat) (s : State) : part π (State.deferClose i nominal s) =
    part π s := by
  simp only [List.mem_cons, List.not_mem_nil, or_false] at hp
  simp [State.deferClose, hp]

@[simp] theorem freeze_part (hp : π ∉ [.evr]) (i extra : Nat) (next : Option Half) (now : Nat) (s : State) : part π
    (State.freeze i extra next now s) = part π s := by
  simp only [List.mem_cons, List.not_mem_nil, or_false] at hp
  unfold State.freeze
  (repeat' split) <;> simp [hp]

@[simp] theorem periodCloseEvr_part (hp : π ∉ [.evr]) (i : Nat) (s : State) : part π (periodCloseEvr i s) = part π s := by
  simp only [List.mem_cons, List.not_mem_nil, or_false] at hp
  unfold periodCloseEvr
  (repeat' split) <;> simp [hp]

@[simp] theorem deferredClose_part (hp : π ∉ [.evr]) (i : Nat) (s : State) : part π (State.deferredClose i s) = part π s := by
  simp only [List.mem_cons, List.not_mem_nil, or_false] at hp
  unfold State.deferredClose
  dsimp only
  (repeat' split) <;> simp [hp]

@[simp] theorem admitQuant_part (hp : π ∉ [.evr]) (old new : QuantRec) (i : Nat) (s : State) : part π (State.admitQuant old
    new i s) = part π s := by
  simp only [List.mem_cons, List.not_mem_nil, or_false] at hp
  unfold State.admitQuant
  (repeat' split) <;> simp [hp]

@[simp] theorem admitQuants_part (hp : π ∉ [.evr]) (old new : List QuantRec) (s : State) : part π (State.admitQuants old new
    s) = part π s := by
  simp only [List.mem_cons, List.not_mem_nil, or_false] at hp
  simp [State.admitQuants, hp]

@[simp] theorem startQuants_part (hp : π ∉ [.evr]) (s : State) : part π (State.startQuants s) = part π s := by
  simp only [List.mem_cons, List.not_mem_nil, or_false] at hp
  simp [State.startQuants, hp]

@[simp] theorem stepQuants_part (hp : π ∉ [.evr]) (old : Nat) (s : State) : part π (State.stepQuants old s) = part π s := by
  simp only [List.mem_cons, List.not_mem_nil, or_false] at hp
  refine part_foldl (fun s i => ?_) _ s
  (repeat' split) <;> simp [hp]

@[simp] theorem putExtremes_part (hp : π ∉ [.evr]) (l : List Ext) (s : State) : part π (State.putExtremes l s) = part π s := by
  simp only [List.mem_cons, List.not_mem_nil, or_false] at hp
  simp [State.putExtremes, hp]

@[simp] theorem degrade_part (hp : π ∉ [.rings, .faults, .evr, .out]) (s : State) : part π (State.degrade s) = part π s := by
  simp only [List.mem_cons, List.not_mem_nil, or_false, not_or] at hp
  simp [State.degrade, hp]

@[simp] theorem degradeDue_part (hp : π ∉ [.rings, .faults, .evr, .out]) (s : State) : part π (State.degradeDue s) = part π s
    := by
  simp only [List.mem_cons, List.not_mem_nil, or_false, not_or] at hp
  simp [State.degradeDue, hp]

@[simp] theorem retireRecorder_part (hp : π ∉ [.rings, .tmf, .faults, .sup, .evr, .out]) (consumer idx : Nat) (s : State) :
    part π (State.retireRecorder consumer idx s) = part π s := by
  simp only [List.mem_cons, List.not_mem_nil, or_false, not_or] at hp
  simp [State.retireRecorder, hp]

@[simp] theorem recordWrite_part (hp : π ∉ [.rings, .tmf, .faults, .sup, .evr, .out]) (bad : Bool) (s : State) : part π
    (recordWrite bad s) = part π s := by
  simp only [List.mem_cons, List.not_mem_nil, or_false, not_or] at hp
  unfold recordWrite
  dsimp only
  (repeat' split) <;> simp [hp]

@[simp] theorem recordWriteDone_part (hp : π ∉ [.evr]) (s : State) : part π (recordWriteDone s) = part π s := by
  simp only [List.mem_cons, List.not_mem_nil, or_false] at hp
  unfold recordWriteDone
  (repeat' split) <;> simp [hp]

@[simp] theorem evrRestoreDone_part (hp : π ∉ [.faults, .evr]) (torn : List Nat) (s : State) : part π (evrRestoreDone torn s)
    = part π s := by
  simp only [List.mem_cons, List.not_mem_nil, or_false, not_or] at hp
  simp [evrRestoreDone, hp]

@[simp] theorem evrRefillDone_part (hp : π ∉ [.rings, .faults, .evr, .out]) (idx : Nat) (s : State) : part π (evrRefillDone
    idx s) = part π s := by
  simp only [List.mem_cons, List.not_mem_nil, or_false, not_or] at hp
  simp [evrRefillDone, hp]

@[simp] theorem saveExtremes_part (hp : π ∉ [.evr]) (s : State) : part π (State.saveExtremes s) = part π s := by
  simp only [List.mem_cons, List.not_mem_nil, or_false] at hp
  simp [State.saveExtremes, hp]

@[simp] theorem powerFailQuants_part (hp : π ∉ [.evr]) (s : State) : part π (State.powerFailQuants s) = part π s := by
  simp only [List.mem_cons, List.not_mem_nil, or_false] at hp
  simp [State.powerFailQuants, hp]

@[simp] theorem resetEvr_part (hp : π ∉ [.evr]) (s : State) : part π (State.resetEvr s) = part π s := by
  simp only [List.mem_cons, List.not_mem_nil, or_false] at hp
  cases π <;> simp_all [State.resetEvr, part]

@[simp] theorem windowRead_part (hp : π ∉ [.fwd, .ready, .rings, .tmf, .faults, .sup, .evr, .out, .cur, .free]) (q : Sqe)
    (bad : List Nat) (s : State) : part π (windowRead q bad s) = part π s := by
  simp only [List.mem_cons, List.not_mem_nil, or_false, not_or] at hp
  unfold windowRead
  dsimp only
  (repeat' split) <;> simp [hp]

/-! ### The Kiln -/

@[simp] theorem laneStop_part (hp : π ∉ [.kce]) (g : Nat) (st : KState) (s : State) : part π (State.laneStop g st s) = part π
    s := by
  simp only [List.mem_cons, List.not_mem_nil, or_false] at hp
  simp [State.laneStop, hp]

@[simp] theorem toCollector_part (hp : π ∉ [.kce]) (l : Nat) (c : Cmd) (s : State) : part π (State.toCollector l c s) = part
    π s := by
  simp only [List.mem_cons, List.not_mem_nil, or_false] at hp
  simp [State.toCollector, hp]

@[simp] theorem safeSlot_part (hp : π ∉ [.pla]) (l : Nat) (s : State) : part π (State.safeSlot l s) = part π s := by
  simp only [List.mem_cons, List.not_mem_nil, or_false] at hp
  simp [State.safeSlot, hp]

@[simp] theorem collectorSlot_part (hp : π ∉ [.kce, .pla]) (s : State) : part π (collectorSlot s) = part π s := by
  simp only [List.mem_cons, List.not_mem_nil, or_false, not_or] at hp
  unfold collectorSlot
  (repeat' split) <;> simp [hp]

@[simp] theorem capture_part (hp : π ∉ [.tmf, .free]) (g flags : Nat) (s : State) : part π (State.capture g flags s) = part π
    s := by
  simp only [List.mem_cons, List.not_mem_nil, or_false, not_or] at hp
  unfold State.capture
  dsimp only
  (repeat' split) <;> simp [hp]

@[simp] theorem stampSample_part (hp : π ∉ [.kce]) (m : GroupMap) (g : Nat) (s : State) : part π (State.stampSample m g s) =
    part π s := by
  simp only [List.mem_cons, List.not_mem_nil, or_false] at hp
  unfold State.stampSample
  (repeat' split) <;> simp [hp]

@[simp] theorem laneSample_part (hp : π ∉ [.tmf, .kce, .free]) (m : GroupMap) (g : Nat) (wasRunning : Bool) (s : State) :
    part π (State.laneSample m g wasRunning s) = part π s := by
  simp only [List.mem_cons, List.not_mem_nil, or_false, not_or] at hp
  unfold State.laneSample
  dsimp only
  (repeat' split) <;> simp [hp]

@[simp] theorem fireLane_part (hp : π ∉ [.tmf, .kce, .psc, .free]) (m : GroupMap) (g : Nat) (refired : Bool) (h : Hdr) (k0 :
    CoeffSet) (s : State) : part π (State.fireLane m g refired h k0 s) = part π s := by
  simp only [List.mem_cons, List.not_mem_nil, or_false, not_or] at hp
  simp [State.fireLane, hp]

@[simp] theorem firing_part (hp : π ∉ [.tmf, .kce, .psc, .free]) (g : Nat) (cmp : Compare) (s : State) : part π (firing g cmp
    s) = part π s := by
  simp only [List.mem_cons, List.not_mem_nil, or_false, not_or] at hp
  unfold firing
  (repeat' split) <;> simp [hp]

@[simp] theorem missCommands_part (hp : π ∉ [.kce]) (m : GroupMap) (g : Nat) (hold : Bool) (s : State) : part π
    (State.missCommands m g hold s) = part π s := by
  simp only [List.mem_cons, List.not_mem_nil, or_false] at hp
  simp [State.missCommands, hp]

@[simp] theorem missFiring_part (hp : π ∉ [.rings, .tmf, .faults, .spa, .kce, .psc, .out, .free]) (m : GroupMap) (g cause :
    Nat) (s : State) : part π (State.missFiring m g cause s) = part π s := by
  simp only [List.mem_cons, List.not_mem_nil, or_false, not_or] at hp
  simp [State.missFiring, hp]

@[simp] theorem firingDeadline_part (hp : π ∉ [.rings, .tmf, .faults, .spa, .kce, .psc, .out, .free]) (g : Nat) (s : State) :
    part π (firingDeadline g s) = part π s := by
  simp only [List.mem_cons, List.not_mem_nil, or_false, not_or] at hp
  unfold firingDeadline
  dsimp only
  (repeat' split) <;> simp [hp]

@[simp] theorem captureSet_part (hp : π ∉ [.fwd, .ready, .kce, .cur]) (q : Sqe) (s : State) : part π (captureSet q s) = part
    π s := by
  simp only [List.mem_cons, List.not_mem_nil, or_false, not_or] at hp
  simp [captureSet, hp]

/-! ### Phase links -/

@[simp] theorem sendLine_part (hp : π ∉ [.pla, .out, .free]) (l : Nat) (sof : Byte) (chars : List Byte) (s : State) : part π
    (State.sendLine l sof chars s) = part π s := by
  simp only [List.mem_cons, List.not_mem_nil, or_false, not_or] at hp
  simp [State.sendLine, hp]

@[simp] theorem sendCommand_part (hp : π ∉ [.pla, .out, .free]) (l : Nat) (c : Cmd) (s : State) : part π (State.sendCommand l
    c s) = part π s := by
  simp only [List.mem_cons, List.not_mem_nil, or_false, not_or] at hp
  simp [State.sendCommand, hp]

@[simp] theorem commandFrame_part (hp : π ∉ [.pla, .out, .free]) (l : Nat) (s : State) : part π (commandFrame l s) = part π s
    := by
  simp only [List.mem_cons, List.not_mem_nil, or_false, not_or] at hp
  unfold commandFrame
  (repeat' split) <;> simp [hp]

@[simp] theorem plaEvent_part (hp : π ∉ [.rings, .faults, .pla, .out]) (l sub arg : Nat) (fault : Option Nat) (s : State) :
    part π (State.plaEvent l sub arg fault s) = part π s := by
  simp only [List.mem_cons, List.not_mem_nil, or_false, not_or] at hp
  unfold State.plaEvent
  (repeat' split) <;> simp [hp]

@[simp] theorem trySample_part (hp : π ∉ [.rings, .tmf, .faults, .sj, .spa, .kce, .psc, .pla, .out, .free]) (g : Nat) (s :
    State) : part π (State.trySample g s) = part π s := by
  simp only [List.mem_cons, List.not_mem_nil, or_false, not_or] at hp
  unfold State.trySample
  (repeat' split) <;> simp [hp]

@[simp] theorem trySampleOf_part (hp : π ∉ [.rings, .tmf, .faults, .sj, .spa, .kce, .psc, .pla, .out, .free]) (l : Nat) (s :
    State) : part π (State.trySampleOf l s) = part π s := by
  simp only [List.mem_cons, List.not_mem_nil, or_false, not_or] at hp
  unfold State.trySampleOf
  (repeat' split) <;> simp [hp]

@[simp] theorem endRetrain_part (hp : π ∉ [.fwd, .ready, .pla, .cur]) (l : Nat) (s : State) : part π (State.endRetrain l s) =
    part π s := by
  simp only [List.mem_cons, List.not_mem_nil, or_false, not_or] at hp
  unfold State.endRetrain
  (repeat' split) <;> simp [hp]

@[simp] theorem linkDown_part (hp : π ∉ [.rings, .faults, .sj, .spa, .psc, .pla, .out]) (l cause flags : Nat) (s : State) :
    part π (State.linkDown l cause flags s) = part π s := by
  simp only [List.mem_cons, List.not_mem_nil, or_false, not_or] at hp
  simp [State.linkDown, hp]

@[simp] theorem beginAttempt_part (hp : π ∉ [.pla]) (l : Nat) (s : State) : part π (State.beginAttempt l s) = part π s := by
  simp only [List.mem_cons, List.not_mem_nil, or_false] at hp
  simp [State.beginAttempt, hp]

@[simp] theorem codeErrorAt_part (hp : π ∉ [.rings, .faults, .sj, .spa, .psc, .pla, .out]) (l at_ : Nat) (s : State) : part π
    (State.codeErrorAt l at_ s) = part π s := by
  simp only [List.mem_cons, List.not_mem_nil, or_false, not_or] at hp
  simp [State.codeErrorAt, hp]

@[simp] theorem codeErrors_part (hp : π ∉ [.rings, .faults, .sj, .spa, .psc, .pla, .out]) (l c : Nat) (places : List Nat) (s
    : State) : part π (State.codeErrors l c places s) = part π s := by
  simp only [List.mem_cons, List.not_mem_nil, or_false, not_or] at hp
  simp [State.codeErrors, hp]

@[simp] theorem lineHeard_part (hp : π ∉ [.rings, .faults, .sj, .spa, .psc, .pla, .out, .free]) (l : Nat) (rd : Bool) (groups
    : List Nat) (s : State) : part π (State.lineHeard l rd groups s) = part π s := by
  simp only [List.mem_cons, List.not_mem_nil, or_false, not_or] at hp
  unfold State.lineHeard
  (repeat' split) <;> simp [hp]

@[simp] theorem sampleHeard_part (hp : π ∉ [.rings, .faults, .sj, .spa, .psc, .pla, .out, .free]) (l : Nat) (rd : Bool)
    (groups : List Nat) (s : State) : part π (State.sampleHeard l rd groups s) = part π s := by
  simp only [List.mem_cons, List.not_mem_nil, or_false, not_or] at hp
  simp [State.sampleHeard, hp]

@[simp] theorem sendSync_part (hp : π ∉ [.pla, .out, .free]) (l rate : Nat) (s : State) : part π (State.sendSync l rate s) =
    part π s := by
  simp only [List.mem_cons, List.not_mem_nil, or_false, not_or] at hp
  unfold State.sendSync
  dsimp only
  (repeat' split) <;> simp [hp]

@[simp] theorem becomeUp_part (hp : π ∉ [.fwd, .ready, .rings, .faults, .pla, .out, .cur]) (l : Nat) (s : State) : part π
    (State.becomeUp l s) = part π s := by
  simp only [List.mem_cons, List.not_mem_nil, or_false, not_or] at hp
  simp [State.becomeUp, hp]

@[simp] theorem attemptFails_part (hp : π ∉ [.fwd, .ready, .rings, .tmf, .faults, .sj, .spa, .kce, .psc, .pla, .out, .cur,
    .free]) (l : Nat) (s : State) : part π (State.attemptFails l s) = part π s := by
  simp only [List.mem_cons, List.not_mem_nil, or_false, not_or] at hp
  simp [State.attemptFails, hp]

@[simp] theorem afterFrame_part (hp : π ∉ [.fwd, .ready, .rings, .faults, .sj, .spa, .psc, .pla, .out, .cur]) (l : Nat) (ok :
    Bool) (s : State) : part π (State.afterFrame l ok s) = part π s := by
  simp only [List.mem_cons, List.not_mem_nil, or_false, not_or] at hp
  unfold State.afterFrame
  dsimp only
  (repeat' split) <;> simp [hp]

@[simp] theorem plaAnswer_part (hp : π ∉ [.pla]) (l : Nat) (s : State) : part π (State.plaAnswer l s) = part π s := by
  simp only [List.mem_cons, List.not_mem_nil, or_false] at hp
  simp [State.plaAnswer, hp]

@[simp] theorem framePosition_part (hp : π ∉ [.fwd, .ready, .rings, .tmf, .faults, .sj, .spa, .kce, .psc, .pla, .out, .cur,
    .free]) (l : Nat) (j : Judge) (d : List Byte) (s : State) : part π (framePosition l j d s) = part π s := by
  simp only [List.mem_cons, List.not_mem_nil, or_false, not_or] at hp
  simp [framePosition, hp]

@[simp] theorem lockStepPass_part (hp : π ∉ [.pla, .out, .free]) (l : Nat) (s : State) : part π (lockStepPass l s) = part π s
    := by
  simp only [List.mem_cons, List.not_mem_nil, or_false, not_or] at hp
  simp [lockStepPass, hp]

@[simp] theorem sendIdent_part (hp : π ∉ [.pla, .out, .free]) (l : Nat) (s : State) : part π (State.sendIdent l s) = part π s
    := by
  simp only [List.mem_cons, List.not_mem_nil, or_false, not_or] at hp
  simp [State.sendIdent, hp]

@[simp] theorem echoAnswer_part (hp : π ∉ [.pla, .out, .free]) (l : Nat) (byte : Byte) (e : Nat) (s : State) : part π
    (echoAnswer l byte e s) = part π s := by
  simp only [List.mem_cons, List.not_mem_nil, or_false, not_or] at hp
  simp [echoAnswer, hp]

@[simp] theorem identAnswer_part (hp : π ∉ [.pla, .out, .free]) (l : Nat) (d : List Byte) (s : State) : part π (identAnswer l
    d s) = part π s := by
  simp only [List.mem_cons, List.not_mem_nil, or_false, not_or] at hp
  simp [identAnswer, hp]

@[simp] theorem endMgmt_part (hp : π ∉ [.fwd, .ready, .pla, .out, .cur, .free]) (l status result : Nat) (s : State) : part π
    (State.endMgmt l status result s) = part π s := by
  simp only [List.mem_cons, List.not_mem_nil, or_false, not_or] at hp
  unfold State.endMgmt
  (repeat' split) <;> simp [hp]

@[simp] theorem resendIdent_part (hp : π ∉ [.pla, .out, .free]) (l : Nat) (s : State) : part π (State.resendIdent l s) = part
    π s := by
  simp only [List.mem_cons, List.not_mem_nil, or_false, not_or] at hp
  simp [State.resendIdent, hp]

@[simp] theorem mgmtFrame_part (hp : π ∉ [.fwd, .ready, .pla, .out, .cur, .free]) (l : Nat) (d : List Byte) (codeErr : Bool)
    (s : State) : part π (mgmtFrame l d codeErr s) = part π s := by
  simp only [List.mem_cons, List.not_mem_nil, or_false, not_or] at hp
  unfold mgmtFrame
  dsimp only
  (repeat' split) <;> simp [hp]

@[simp] theorem mgmtSend_part (hp : π ∉ [.pla, .out, .free]) (l : Nat) (s : State) : part π (mgmtSend l s) = part π s := by
  simp only [List.mem_cons, List.not_mem_nil, or_false, not_or] at hp
  unfold mgmtSend
  dsimp only
  (repeat' split) <;> simp [hp]

@[simp] theorem mgmtTimeout_part (hp : π ∉ [.fwd, .ready, .pla, .out, .cur, .free]) (l : Nat) (s : State) : part π
    (mgmtTimeout l s) = part π s := by
  simp only [List.mem_cons, List.not_mem_nil, or_false, not_or] at hp
  simp [mgmtTimeout, hp]

@[simp] theorem codeError_part (hp : π ∉ [.rings, .faults, .sj, .spa, .psc, .pla, .out, .free]) (l gap : Nat) (s : State) :
    part π (codeError l gap s) = part π s := by
  simp only [List.mem_cons, List.not_mem_nil, or_false, not_or] at hp
  unfold codeError
  (repeat' split) <;> simp [hp]

@[simp] theorem alignLost_part (hp : π ∉ [.rings, .faults, .sj, .spa, .psc, .pla, .out]) (l : Nat) (s : State) : part π
    (alignLost l s) = part π s := by
  simp only [List.mem_cons, List.not_mem_nil, or_false, not_or] at hp
  simp [alignLost, hp]

@[simp] theorem linkRetrain_part (hp : π ∉ [.fwd, .ready, .rings, .tmf, .faults, .sj, .spa, .kce, .psc, .pla, .out, .cur,
    .free]) (q : Sqe) (s : State) : part π (linkRetrain q s) = part π s := by
  simp only [List.mem_cons, List.not_mem_nil, or_false, not_or] at hp
  simp [linkRetrain, hp]

@[simp] theorem linkDisable_part (hp : π ∉ [.fwd, .ready, .rings, .tmf, .faults, .sj, .spa, .kce, .psc, .pla, .out, .cur,
    .free]) (q : Sqe) (s : State) : part π (linkDisable q s) = part π s := by
  simp only [List.mem_cons, List.not_mem_nil, or_false, not_or] at hp
  simp [linkDisable, hp]

@[simp] theorem linkMgmt_part (hp : π ∉ [.fwd, .ready, .pla, .cur]) (q : Sqe) (s : State) : part π (linkMgmt q s) = part π s
    := by
  simp only [List.mem_cons, List.not_mem_nil, or_false, not_or] at hp
  simp [linkMgmt, hp]

/-! ### Dispenser ports -/

@[simp] theorem vpcEvent_part (hp : π ∉ [.rings, .vpc, .out]) (p sub arg : Nat) (s : State) : part π (State.vpcEvent p sub
    arg s) = part π s := by
  simp only [List.mem_cons, List.not_mem_nil, or_false, not_or] at hp
  simp [State.vpcEvent, hp]

@[simp] theorem evalPort_part (hp : π ∉ [.rings, .faults, .spa, .vpc, .out]) (n : Nat) (s : State) : part π (State.evalPort n
    s) = part π s := by
  simp only [List.mem_cons, List.not_mem_nil, or_false, not_or] at hp
  simp [State.evalPort, hp]

@[simp] theorem evalPorts_part (hp : π ∉ [.rings, .faults, .spa, .vpc, .out]) (s : State) : part π (State.evalPorts s) = part
    π s := by
  simp only [List.mem_cons, List.not_mem_nil, or_false, not_or] at hp
  simp [State.evalPorts, hp]

@[simp] theorem pilotDefault_part (hp : π ∉ [.vpc, .out]) (n : Nat) (s : State) : part π (State.pilotDefault n s) = part π s
    := by
  simp only [List.mem_cons, List.not_mem_nil, or_false, not_or] at hp
  simp [State.pilotDefault, hp]

@[simp] theorem portsNotReady_part (hp : π ∉ [.rings, .faults, .spa, .vpc, .out]) (s : State) : part π (State.portsNotReady
    s) = part π s := by
  simp only [List.mem_cons, List.not_mem_nil, or_false, not_or] at hp
  simp [State.portsNotReady, hp]

@[simp] theorem pilotsOff_part (hp : π ∉ [.vpc, .out]) (s : State) : part π (State.pilotsOff s) = part π s := by
  simp only [List.mem_cons, List.not_mem_nil, or_false, not_or] at hp
  simp [State.pilotsOff, hp]

@[simp] theorem pilotsOn_part (hp : π ∉ [.vpc, .out]) (s : State) : part π (State.pilotsOn s) = part π s := by
  simp only [List.mem_cons, List.not_mem_nil, or_false, not_or] at hp
  simp [State.pilotsOn, hp]

@[simp] theorem pilotEffect_part (hp : π ∉ [.rings, .faults, .spa, .vpc, .out]) (n : Nat) (s : State) : part π (pilotEffect n
    s) = part π s := by
  simp only [List.mem_cons, List.not_mem_nil, or_false, not_or] at hp
  simp [pilotEffect, hp]

@[simp] theorem pilotInput_part (hp : π ∉ [.vpc]) (n : Nat) (l : List (List Int)) (s : State) : part π (pilotInput n l s) =
    part π s := by
  simp only [List.mem_cons, List.not_mem_nil, or_false] at hp
  simp [pilotInput, hp]

@[simp] theorem diodeInput_part (hp : π ∉ [.vpc]) (n : Nat) (on : Bool) (l : List (List Int)) (s : State) : part π
    (diodeInput n on l s) = part π s := by
  simp only [List.mem_cons, List.not_mem_nil, or_false] at hp
  simp [diodeInput, hp]

@[simp] theorem proxInput_part (hp : π ∉ [.vpc]) (n : Nat) (l : List Nat) (s : State) : part π (proxInput n l s) = part π s
    := by
  simp only [List.mem_cons, List.not_mem_nil, or_false] at hp
  simp [proxInput, hp]

@[simp] theorem arrivals_part (hp : π ∉ [.vpc, .free]) (n : Nat) (l : List Instr) (s : State) : part π (arrivals n l s) =
    part π s := by
  simp only [List.mem_cons, List.not_mem_nil, or_false, not_or] at hp
  induction l generalizing s with
  | nil => rfl
  | cons i rest ih =>
    unfold arrivals
    dsimp only
    split
    · rfl
    · next f hf =>
      have h : part π (f s.took) = part π s := by
        (repeat' split at hf) <;> simp only [reduceCtorEq, Option.some.injEq] at hf <;> subst hf <;> simp [hp]
      split <;> simp [ih, h, hp]

@[simp] theorem sameCycle_part (hp : π ∉ [.vpc, .free]) (n : Nat) (s : State) : part π (State.sameCycle n s) = part π s := by
  simp only [List.mem_cons, List.not_mem_nil, or_false, not_or] at hp
  simp [State.sameCycle, hp]

@[simp] theorem pilotAccept_part (hp : π ∉ [.rings, .faults, .spa, .vpc, .out, .free]) (n : Nat) (l : List (List Int)) (s :
    State) : part π (pilotAccept n l s) = part π s := by
  simp only [List.mem_cons, List.not_mem_nil, or_false, not_or] at hp
  simp [pilotAccept, hp]

@[simp] theorem diodeChange_part (hp : π ∉ [.rings, .faults, .spa, .vpc, .out, .free]) (n : Nat) (on : Bool) (l : List (List
    Int)) (s : State) : part π (diodeChange n on l s) = part π s := by
  simp only [List.mem_cons, List.not_mem_nil, or_false, not_or] at hp
  simp [diodeChange, hp]

@[simp] theorem proxAccept_part (hp : π ∉ [.rings, .faults, .spa, .vpc, .out, .free]) (n : Nat) (l : List Nat) (s : State) :
    part π (proxAccept n l s) = part π s := by
  simp only [List.mem_cons, List.not_mem_nil, or_false, not_or] at hp
  simp [proxAccept, hp]

@[simp] theorem pilotSet_part (hp : π ∉ [.fwd, .ready, .rings, .faults, .spa, .vpc, .out, .cur, .free]) (q : Sqe) (s : State)
    : part π (pilotSet q s) = part π s := by
  simp only [List.mem_cons, List.not_mem_nil, or_false, not_or] at hp
  simp [pilotSet, hp]

@[simp] theorem frameTx_part (hp : π ∉ [.fwd, .ready, .vpc, .cur]) (q : Sqe) (h : HostRead) (s : State) : part π (frameTx q h
    s) = part π s := by
  simp only [List.mem_cons, List.not_mem_nil, or_false, not_or] at hp
  unfold frameTx
  dsimp only
  (repeat' split) <;> simp [hp]

@[simp] theorem frameRxBuffer_part (hp : π ∉ [.fwd, .ready, .vpc, .cur]) (q : Sqe) (s : State) : part π (frameRxBuffer q s) =
    part π s := by
  simp only [List.mem_cons, List.not_mem_nil, or_false, not_or] at hp
  simp [frameRxBuffer, hp]

@[simp] theorem frameArrives_part (hp : π ∉ [.rings, .vpc, .out]) (n : Nat) (d : List Byte) (good : Bool) (s : State) : part
    π (frameArrives n d good s) = part π s := by
  simp only [List.mem_cons, List.not_mem_nil, or_false, not_or] at hp
  unfold frameArrives
  (repeat' split) <;> simp [hp]

@[simp] theorem frameDelivery_part (hp : π ∉ [.fwd, .ready, .rings, .tmf, .faults, .sup, .vpc, .out, .cur]) (n : Nat) (ok :
    Bool) (s : State) : part π (frameDelivery n ok s) = part π s := by
  simp only [List.mem_cons, List.not_mem_nil, or_false, not_or] at hp
  unfold frameDelivery
  (repeat' split) <;> simp [hp]

@[simp] theorem frameSent_part (hp : π ∉ [.fwd, .ready, .rings, .tmf, .faults, .sup, .vpc, .out, .cur]) (n : Nat) (outcome :
    SendOutcome) (s : State) : part π (frameSent n outcome s) = part π s := by
  simp only [List.mem_cons, List.not_mem_nil, or_false, not_or] at hp
  unfold frameSent
  (repeat' split) <;> simp [hp]

@[simp] theorem modemPoll_part (hp : π ∉ [.rings, .faults, .vpc, .out]) (n : Nat) (a : List Byte) (s : State) : part π
    (modemPoll n a s) = part π s := by
  simp only [List.mem_cons, List.not_mem_nil, or_false, not_or] at hp
  simp [modemPoll, hp]

@[simp] theorem modemResetEnd_part (hp : π ∉ [.vpc, .out]) (n : Nat) (s : State) : part π (modemResetEnd n s) = part π s := by
  simp only [List.mem_cons, List.not_mem_nil, or_false, not_or] at hp
  simp [modemResetEnd, hp]

/-! ### Commits and admission -/

@[simp] theorem setState_part (hp : π ∉ [.rings, .faults, .sup, .out]) (st : DevState) (reason : Nat) (s : State) : part π
    (State.setState st reason s) = part π s := by
  simp only [List.mem_cons, List.not_mem_nil, or_false, not_or] at hp
  simp [State.setState, hp]

@[simp] theorem nvmDefaults_part (hp : π ∉ [.rings, .faults, .sj, .lsw, .chans, .out, .free]) (s : State) : part π
    (State.nvmDefaults s) = part π s := by
  simp only [List.mem_cons, List.not_mem_nil, or_false, not_or] at hp
  simp [State.nvmDefaults, hp]

@[simp] theorem enterWaitHost_part (hp : π ∉ [.rings, .faults, .sj, .sup, .spa, .psc, .vpc, .lsw, .chans, .out, .free])
    (reason : Nat) (s : State) : part π (State.enterWaitHost reason s) = part π s := by
  simp only [List.mem_cons, List.not_mem_nil, or_false, not_or] at hp
  simp [State.enterWaitHost, hp]

@[simp] theorem postCommit_part (hp : π ∉ [.fwd, .ready, .sup, .cur]) (c : Commit) (status result : Nat) (s : State) : part π
    (State.postCommit c status result s) = part π s := by
  simp only [List.mem_cons, List.not_mem_nil, or_false, not_or] at hp
  simp [State.postCommit, hp]

@[simp] theorem closeCommit_part (hp : π ∉ [.fwd, .ready, .rings, .faults, .sup, .kce, .out, .cur]) (c : Commit) (reason :
    Nat) (s : State) : part π (State.closeCommit c reason s) = part π s := by
  simp only [List.mem_cons, List.not_mem_nil, or_false, not_or] at hp
  simp [State.closeCommit, hp]

@[simp] theorem failCommit_part (hp : π ∉ [.fwd, .ready, .rings, .faults, .sj, .sup, .spa, .kce, .psc, .vpc, .lsw, .chans,
    .out, .cur, .free]) (c : Commit) (reason : Nat) (s : State) : part π (State.failCommit c reason s) = part π s := by
  simp only [List.mem_cons, List.not_mem_nil, or_false, not_or] at hp
  simp [State.failCommit, hp]

@[simp] theorem rejectCommit_part (hp : π ∉ [.fwd, .ready, .rings, .tmf, .faults, .sj, .sup, .spa, .kce, .psc, .vpc, .lsw,
    .chans, .out, .cur, .free]) (c : Commit) (reason cons src : Nat) (tile : Option Nat) (s : State) : part π
    (State.rejectCommit c reason cons src tile s) = part π s := by
  simp only [List.mem_cons, List.not_mem_nil, or_false, not_or] at hp
  unfold State.rejectCommit
  (repeat' split) <;> simp [hp]

@[simp] theorem beginCommit_part (hp : π ∉ [.sup]) (c : Commit) (tiles : Nat) (s : State) : part π (State.beginCommit c tiles
    s) = part π s := by
  simp only [List.mem_cons, List.not_mem_nil, or_false] at hp
  simp [State.beginCommit, hp]

@[simp] theorem configCommit_part (hp : π ∉ [.fwd, .ready, .sup, .cur]) (q : Sqe) (s : State) : part π (configCommit q s) =
    part π s := by
  simp only [List.mem_cons, List.not_mem_nil, or_false, not_or] at hp
  simp [configCommit, hp]

@[simp] theorem configValidated_part (hp : π ∉ [.fwd, .ready, .rings, .tmf, .faults, .sj, .sup, .spa, .kce, .psc, .vpc, .lsw,
    .chans, .out, .cur, .free]) (c : Commit) (img : List RawRec) (bad : List Nat) (s : State) : part π (State.configValidated
    c img bad s) = part π s := by
  simp only [List.mem_cons, List.not_mem_nil, or_false, not_or] at hp
  unfold State.configValidated
  (repeat' split) <;> simp [hp]

@[simp] theorem validationDone_part (hp : π ∉ [.fwd, .ready, .rings, .tmf, .faults, .sj, .sup, .spa, .kce, .psc, .vpc, .lsw,
    .chans, .out, .cur, .free]) (img : List RawRec) (bad : List Nat) (s : State) : part π (validationDone img bad s) = part π
    s := by
  simp only [List.mem_cons, List.not_mem_nil, or_false, not_or] at hp
  unfold validationDone
  (repeat' split) <;> simp [hp]

@[simp] theorem configAbort_part (hp : π ∉ [.fwd, .ready, .rings, .faults, .sj, .sup, .spa, .kce, .psc, .vpc, .lsw, .chans,
    .out, .cur, .free]) (q : Sqe) (s : State) : part π (configAbort q s) = part π s := by
  simp only [List.mem_cons, List.not_mem_nil, or_false, not_or] at hp
  unfold configAbort
  (repeat' split) <;> simp [hp]

@[simp] theorem bisqueStore_part (hp : π ∉ [.fwd, .ready, .rings, .tmf, .faults, .sj, .sup, .spa, .kce, .psc, .vpc, .lsw,
    .chans, .out, .cur, .free]) (q : Sqe) (img : List RawRec) (bad : List Nat) (s : State) : part π (bisqueStore q img bad s)
    = part π s := by
  simp only [List.mem_cons, List.not_mem_nil, or_false, not_or] at hp
  unfold bisqueStore
  (repeat' split) <;> simp [hp]

@[simp] theorem slotWritten_part (hp : π ∉ [.fwd, .ready, .rings, .faults, .sj, .sup, .spa, .kce, .psc, .vpc, .lsw, .chans,
    .out, .cur, .free]) (ok : Bool) (s : State) : part π (slotWritten ok s) = part π s := by
  simp only [List.mem_cons, List.not_mem_nil, or_false, not_or] at hp
  unfold slotWritten
  (repeat' split) <;> simp [hp]

@[simp] theorem coeffStage_part (hp : π ∉ [.fwd, .ready, .rings, .tmf, .faults, .sj, .sup, .spa, .kce, .psc, .vpc, .lsw,
    .chans, .out, .cur, .free]) (q : Sqe) (bad : List Nat) (s : State) : part π (coeffStage q bad s) = part π s := by
  simp only [List.mem_cons, List.not_mem_nil, or_false, not_or] at hp
  unfold coeffStage
  dsimp only
  (repeat' split) <;> simp [hp]

@[simp] theorem admitStaged_part (hp : π ∉ [.fwd, .ready, .rings, .tmf, .sup, .cfg, .kce, .out, .cur]) (s : State) : part π
    (State.admitStaged s) = part π s := by
  simp only [List.mem_cons, List.not_mem_nil, or_false, not_or] at hp
  unfold State.admitStaged
  dsimp only
  (repeat' split) <;> simp [hp]

@[simp] theorem loseMembers_part (hp : π ∉ [.rings, .faults, .sj, .spa, .psc, .out]) (m : GroupMap) (g : Nat) (s : State) :
    part π (State.loseMembers m g s) = part π s := by
  simp only [List.mem_cons, List.not_mem_nil, or_false, not_or] at hp
  simp [State.loseMembers, hp]

@[simp] theorem admitGroups_part (hp : π ∉ [.rings, .faults, .sj, .spa, .kce, .banks, .psc, .out]) (old new : Cfg) (entry
    leaving : Bool) (s : State) : part π (State.admitGroups old new entry leaving s) = part π s := by
  simp only [List.mem_cons, List.not_mem_nil, or_false, not_or] at hp
  simp [State.admitGroups, hp]

@[simp] theorem admitPositions_part (hp : π ∉ [.pla]) (old new : Cfg) (s : State) : part π (State.admitPositions old new s) =
    part π s := by
  simp only [List.mem_cons, List.not_mem_nil, or_false] at hp
  simp [State.admitPositions, hp]

@[simp] theorem admitSync_part (hp : π ∉ [.pla, .out, .free]) (old new : Cfg) (s : State) : part π (State.admitSync old new
    s) = part π s := by
  simp only [List.mem_cons, List.not_mem_nil, or_false, not_or] at hp
  simp [State.admitSync, hp]

@[simp] theorem closePort_part (hp : π ∉ [.fwd, .ready, .tmf, .vpc, .out, .cur]) (n : Nat) (s : State) : part π
    (State.closePort n s) = part π s := by
  simp only [List.mem_cons, List.not_mem_nil, or_false, not_or] at hp
  simp [State.closePort, hp]

@[simp] theorem admitPilots_part (hp : π ∉ [.fwd, .ready, .tmf, .vpc, .out, .cur]) (new : Cfg) (s : State) : part π
    (State.admitPilots new s) = part π s := by
  simp only [List.mem_cons, List.not_mem_nil, or_false, not_or] at hp
  simp [State.admitPilots, hp]

@[simp] theorem admitPorts_part (hp : π ∉ [.fwd, .ready, .rings, .tmf, .faults, .spa, .vpc, .out, .cur]) (old new : Cfg)
    (entry : Bool) (s : State) : part π (State.admitPorts old new entry s) = part π s := by
  simp only [List.mem_cons, List.not_mem_nil, or_false, not_or] at hp
  simp [State.admitPorts, hp]

@[simp] theorem admitChans_part (hp : π ∉ [.rings, .faults, .sj, .lsw, .chans, .out, .free]) (old new : Cfg) (s : State) :
    part π (State.admitChans old new s) = part π s := by
  simp only [List.mem_cons, List.not_mem_nil, or_false, not_or] at hp
  simp [State.admitChans, hp]

@[simp] theorem entryChans_part (hp : π ∉ [.rings, .faults, .sj, .lsw, .chans, .out, .free]) (new : Cfg) (s : State) : part π
    (State.entryChans new s) = part π s := by
  simp only [List.mem_cons, List.not_mem_nil, or_false, not_or] at hp
  simp [State.entryChans, hp]

@[simp] theorem admitAqaux_part (hp : π ∉ [.rings, .faults, .sj, .tcm, .lsw, .chans, .out, .free]) (old new : Cfg) (s :
    State) : part π (State.admitAqaux old new s) = part π s := by
  simp only [List.mem_cons, List.not_mem_nil, or_false, not_or] at hp
  simp [State.admitAqaux, hp]

@[simp] theorem spaEnds_part (hp : π ∉ [.fwd, .ready, .tmf, .lnk, .spa, .cur]) (i : Nat) (s : State) : part π (State.spaEnds
    i s) = part π s := by
  simp only [List.mem_cons, List.not_mem_nil, or_false, not_or] at hp
  unfold State.spaEnds
  (repeat' split) <;> simp [hp]

@[simp] theorem admitSpa_part (hp : π ∉ [.fwd, .ready, .tmf, .lnk, .spa, .cur]) (new : Cfg) (entry leaving : Bool) (keep :
    List (Nat × Entry)) (s : State) : part π (State.admitSpa new entry leaving keep s) = part π s := by
  simp only [List.mem_cons, List.not_mem_nil, or_false, not_or] at hp
  simp [State.admitSpa, hp]

@[simp] theorem putInForce_part (hp : π ∉ [.fwd, .ready, .rings, .tmf, .faults, .sj, .sup, .lnk, .cfg, .spa, .kce, .banks,
    .psc, .pla, .vpc, .tcm, .lsw, .chans, .bse, .blk, .evr, .out, .cur, .free]) (new : Cfg) (entry leaving : Bool) (s :
    State) : part π (State.putInForce new entry leaving s) = part π s := by
  simp only [List.mem_cons, List.not_mem_nil, or_false, not_or] at hp
  unfold State.putInForce
  dsimp only
  (repeat' split) <;> simp [hp]

@[simp] theorem admitCommit_part (hp : π ∉ [.fwd, .ready, .rings, .tmf, .faults, .sj, .sup, .lnk, .cfg, .spa, .kce, .banks,
    .psc, .pla, .vpc, .tcm, .lsw, .chans, .bse, .blk, .evr, .out, .cur, .free]) (s : State) : part π (State.admitCommit s) =
    part π s := by
  simp only [List.mem_cons, List.not_mem_nil, or_false, not_or] at hp
  unfold State.admitCommit
  (repeat' split) <;> simp [hp]

@[simp] theorem endAdmission_part (hp : π ∉ [.rings, .faults, .spa, .psc, .vpc, .out]) (s : State) : part π
    (State.endAdmission s) = part π s := by
  simp only [List.mem_cons, List.not_mem_nil, or_false, not_or] at hp
  simp [State.endAdmission, hp]

@[simp] theorem groupVolts_part (hp : π ∉ [.spa]) (s : State) : part π (State.groupVolts s) = part π s := by
  simp only [List.mem_cons, List.not_mem_nil, or_false] at hp
  simp [State.groupVolts, hp]

@[simp] theorem epochBoundary_part (hp : π ∉ [.fwd, .ready, .rings, .tmf, .faults, .sj, .sup, .lnk, .cfg, .spa, .kce, .banks,
    .psc, .pla, .vpc, .tcm, .lsw, .chans, .bse, .blk, .evr, .out, .cur, .free]) (bad : List Nat) (s : State) : part π
    (epochBoundary bad s) = part π s := by
  simp only [List.mem_cons, List.not_mem_nil, or_false, not_or] at hp
  simp [epochBoundary, hp]

/-! ### The main-die reset -/

@[simp] theorem islandsReset_part (hp : π ∉ [.fwd, .ready, .rings, .tmf, .lnk, .cfg, .spa, .kce, .banks, .psc, .pla, .vpc,
    .tcm, .lsw, .chans, .bse, .mss, .blk, .evr, .cur]) (s : State) : part π (State.islandsReset s) = part π s := by
  simp only [List.mem_cons, List.not_mem_nil, or_false, not_or] at hp
  cases π <;> simp_all [State.islandsReset, State.resetEvr, part]

@[simp] theorem safeLinks_part (hp : π ∉ [.pla, .out, .free]) (s : State) : part π (State.safeLinks s) = part π s := by
  simp only [List.mem_cons, List.not_mem_nil, or_false, not_or] at hp
  simp [State.safeLinks, hp]

@[simp] theorem pilotsDefault_part (hp : π ∉ [.out]) (s : State) : part π (State.pilotsDefault s) = part π s := by
  simp only [List.mem_cons, List.not_mem_nil, or_false] at hp
  simp [State.pilotsDefault, hp]

@[simp] theorem abortCommit_part (hp : π ∉ [.fwd, .ready, .rings, .faults, .sup, .kce, .out, .cur]) (s : State) : part π
    (State.abortCommit s) = part π s := by
  simp only [List.mem_cons, List.not_mem_nil, or_false, not_or] at hp
  unfold State.abortCommit
  (repeat' split) <;> simp [hp]

@[simp] theorem mainDown_part (hp : π ∉ [.fwd, .ready, .rings, .faults, .sup, .kce, .pla, .out, .cur, .free]) (st : DevState)
    (s : State) : part π (State.mainDown st s) = part π s := by
  simp only [List.mem_cons, List.not_mem_nil, or_false, not_or] at hp
  simp [State.mainDown, hp]

@[simp] theorem mainReset_part (hp : π ∉ [.fwd, .ready, .rings, .tmf, .faults, .sup, .lnk, .cfg, .spa, .kce, .banks, .psc,
    .pla, .vpc, .tcm, .lsw, .chans, .bse, .mss, .blk, .evr, .out, .cur, .free]) (cause : Nat) (s : State) : part π
    (State.mainReset cause s) = part π s := by
  simp only [List.mem_cons, List.not_mem_nil, or_false, not_or] at hp
  simp [State.mainReset, hp]

/-! ### Tariffs -/

@[simp] theorem recompute_part (hp : π ∉ [.bte]) (s : State) : part π (State.recompute s) = part π s := by
  simp only [List.mem_cons, List.not_mem_nil, or_false] at hp
  simp [State.recompute, hp]

@[simp] theorem refreshRate_part (hp : π ∉ [.bte]) (s : State) : part π (State.refreshRate s) = part π s := by
  simp only [List.mem_cons, List.not_mem_nil, or_false] at hp
  simp [State.refreshRate, hp]

/-! ### Billing -/

@[simp] theorem carry_part (hp : π ∉ [.bte]) (id c : Nat) (s : State) : part π (State.carry id c s) = part π s := by
  simp only [List.mem_cons, List.not_mem_nil, or_false] at hp
  simp [State.carry, hp]

@[simp] theorem sendCredit_part (hp : π ∉ [.lnk]) (n st : Nat) (s : State) : part π (State.sendCredit n st s) = part π s := by
  simp only [List.mem_cons, List.not_mem_nil, or_false] at hp
  simp [State.sendCredit, hp]

@[simp] theorem evalSess_part (hp : π ∉ [.rings, .lnk, .bte, .out]) (x : BteSess) (s : State) : part π (State.evalSess x s) =
    part π s := by
  simp only [List.mem_cons, List.not_mem_nil, or_false, not_or] at hp
  simp [State.evalSess, hp]

@[simp] theorem creditEval_part (hp : π ∉ [.rings, .lnk, .bte, .out]) (s : State) : part π (State.creditEval s) = part π s := by
  simp only [List.mem_cons, List.not_mem_nil, or_false, not_or] at hp
  simp [State.creditEval, hp]

@[simp] theorem record_part (hp : π ∉ [.mss]) (kind : Nat) (body : List Byte) (s : State) : part π (State.record kind body s)
    = part π s := by
  simp only [List.mem_cons, List.not_mem_nil, or_false] at hp
  unfold State.record
  (repeat' split) <;> simp [hp]

@[simp] theorem endSession_part (hp : π ∉ [.bte, .mss]) (x : BteSess) (reason hold : Nat) (s : State) : part π
    (State.endSession x reason hold s) = part π s := by
  simp only [List.mem_cons, List.not_mem_nil, or_false, not_or] at hp
  simp [State.endSession, hp]

@[simp] theorem openSession_part (hp : π ∉ [.lnk, .bte]) (n port : Nat) (prepaid : Bool) (hold : Nat) (s : State) : part π
    (openSession n port prepaid hold s) = part π s := by
  simp only [List.mem_cons, List.not_mem_nil, or_false, not_or] at hp
  simp [openSession, hp]

@[simp] theorem openMessage_part (hp : π ∉ [.lnk, .bte]) (s : State) : part π (openMessage s) = part π s := by
  simp only [List.mem_cons, List.not_mem_nil, or_false, not_or] at hp
  unfold openMessage
  (repeat' split) <;> simp [hp]

@[simp] theorem closeMessage_part (hp : π ∉ [.lnk, .bte, .mss]) (s : State) : part π (closeMessage s) = part π s := by
  simp only [List.mem_cons, List.not_mem_nil, or_false, not_or] at hp
  unfold closeMessage
  dsimp only
  (repeat' split) <;> simp [hp]

@[simp] theorem resyncMessage_part (hp : π ∉ [.lnk, .bte, .mss]) (s : State) : part π (resyncMessage s) = part π s := by
  simp only [List.mem_cons, List.not_mem_nil, or_false, not_or] at hp
  unfold resyncMessage
  (repeat' split) <;> simp [hp]

@[simp] theorem closeInterval_part (hp : π ∉ [.bte]) (endT extra : Nat) (s : State) : part π (State.closeInterval endT extra
    s) = part π s := by
  simp only [List.mem_cons, List.not_mem_nil, or_false] at hp
  simp [State.closeInterval, hp]

@[simp] theorem openInterval_part (hp : π ∉ [.bte]) (start flags : Nat) (s : State) : part π (State.openInterval start flags
    s) = part π s := by
  simp only [List.mem_cons, List.not_mem_nil, or_false] at hp
  simp [State.openInterval, hp]

@[simp] theorem flagInterval_part (hp : π ∉ [.bte]) (f : Nat) (s : State) : part π (State.flagInterval f s) = part π s := by
  simp only [List.mem_cons, List.not_mem_nil, or_false] at hp
  simp [State.flagInterval, hp]

@[simp] theorem intervalClose_part (hp : π ∉ [.bte]) (s : State) : part π (intervalClose s) = part π s := by
  simp only [List.mem_cons, List.not_mem_nil, or_false] at hp
  unfold intervalClose
  (repeat' split) <;> simp [hp]

@[simp] theorem closePeriod_part (hp : π ∉ [.rings, .lnk, .bte, .mss, .out]) (s : State) : part π (State.closePeriod s) =
    part π s := by
  simp only [List.mem_cons, List.not_mem_nil, or_false, not_or] at hp
  simp [State.closePeriod, hp]

@[simp] theorem evalPeriod_part (hp : π ∉ [.rings, .lnk, .bte, .mss, .out]) (c : Calendar) (date : Nat) (s : State) : part π
    (State.evalPeriod c date s) = part π s := by
  simp only [List.mem_cons, List.not_mem_nil, or_false, not_or] at hp
  simp [State.evalPeriod, hp]

@[simp] theorem periodClose_part (hp : π ∉ [.rings, .lnk, .bte, .mss, .out]) (s : State) : part π (periodClose s) = part π s
    := by
  simp only [List.mem_cons, List.not_mem_nil, or_false, not_or] at hp
  unfold periodClose
  (repeat' split) <;> simp [hp]

@[simp] theorem calFail_part (hp : π ∉ [.rings, .lnk, .bte, .mss, .out]) (id : Nat) (s : State) : part π (State.calFail id s)
    = part π s := by
  simp only [List.mem_cons, List.not_mem_nil, or_false, not_or] at hp
  simp [State.calFail, hp]

@[simp] theorem calendarActivation_part (hp : π ∉ [.rings, .lnk, .bte, .mss, .out]) (badA badB : Bool) (s : State) : part π
    (calendarActivation badA badB s) = part π s := by
  simp only [List.mem_cons, List.not_mem_nil, or_false, not_or] at hp
  unfold calendarActivation
  (repeat' split) <;> simp [hp]

@[simp] theorem verifyCal_part (hp : π ∉ [.rings, .lnk, .bte, .mss, .out]) (badA badB : Bool) (s : State) : part π
    (State.verifyCal badA badB s) = part π s := by
  simp only [List.mem_cons, List.not_mem_nil, or_false, not_or] at hp
  unfold State.verifyCal
  (repeat' split) <;> simp [hp]

@[simp] theorem midnight_part (hp : π ∉ [.rings, .lnk, .bte, .mss, .out]) (badA badB : Bool) (s : State) : part π (midnight
    badA badB s) = part π s := by
  simp only [List.mem_cons, List.not_mem_nil, or_false, not_or] at hp
  simp [midnight, hp]

@[simp] theorem calendarWrite_part (hp : π ∉ [.rings, .lnk, .bte, .mss, .out]) (q : Sqe) (b : List Byte) (s : State) : part π
    (calendarWrite q b s).2 = part π s := by
  simp only [List.mem_cons, List.not_mem_nil, or_false, not_or] at hp
  unfold calendarWrite
  dsimp only
  (repeat' split) <;> simp [hp]

@[simp] theorem rateAt_part (hp : π ∉ [.bte]) (t : Nat) (s : State) : part π (State.rateAt t s) = part π s := by
  simp only [List.mem_cons, List.not_mem_nil, or_false] at hp
  unfold State.rateAt
  (repeat' split) <;> simp [hp]

@[simp] theorem closePassed_part (hp : π ∉ [.bte]) (n upTo : Nat) (s : State) : part π (State.closePassed n upTo s) = part π
    s := by
  simp only [List.mem_cons, List.not_mem_nil, or_false] at hp
  induction n generalizing s with
  | zero => rfl
  | succ n ih => simp [State.closePassed, ih, hp]

@[simp] theorem gapDone_part (hp : π ∉ [.rings, .lnk, .sgm, .mss, .out]) (s : State) : part π (State.gapDone s) = part π s := by
  simp only [List.mem_cons, List.not_mem_nil, or_false, not_or] at hp
  simp [State.gapDone, hp]

@[simp] theorem applyStep_part (hp : π ∉ [.rings, .lnk, .sgm, .bte, .mss, .out]) (st : ClockStep) (s : State) : part π
    (State.applyStep st s) = part π s := by
  simp only [List.mem_cons, List.not_mem_nil, or_false, not_or] at hp
  unfold State.applyStep
  dsimp only
  (repeat' split) <;> simp [hp]

@[simp] theorem takeStep_part (hp : π ∉ [.rings, .lnk, .sgm, .bte, .mss, .out]) (st : ClockStep) (s : State) : part π
    (State.takeStep st s) = part π s := by
  simp only [List.mem_cons, List.not_mem_nil, or_false, not_or] at hp
  unfold State.takeStep
  dsimp only
  (repeat' split) <;> simp [hp]

@[simp] theorem clockStep_part (hp : π ∉ [.rings, .lnk, .sgm, .bte, .mss, .out]) (s : State) : part π (State.clockStep s) =
    part π s := by
  simp only [List.mem_cons, List.not_mem_nil, or_false, not_or] at hp
  simp [State.clockStep, hp]

@[simp] theorem clockSet_part (hp : π ∉ [.rings, .lnk, .bte, .mss, .out]) (q : Sqe) (b : List Byte) (s : State) : part π
    (clockSet q b s).2 = part π s := by
  simp only [List.mem_cons, List.not_mem_nil, or_false, not_or] at hp
  unfold clockSet
  (repeat' split) <;> simp [hp]

@[simp] theorem tokenFail_part (hp : π ∉ [.rings, .lnk, .bte, .out]) (kp reason : Nat) (counted : Bool) (s : State) : part π
    (State.tokenFail kp reason counted s).2 = part π s := by
  simp only [List.mem_cons, List.not_mem_nil, or_false, not_or] at hp
  simp [State.tokenFail, hp]

@[simp] theorem tokenAccept_part (hp : π ∉ [.rings, .lnk, .bte, .mss, .out]) (kp port cls id v : Nat) (s : State) : part π
    (State.tokenAccept kp port cls id v s).2 = part π s := by
  simp only [List.mem_cons, List.not_mem_nil, or_false, not_or] at hp
  simp [State.tokenAccept, hp]

@[simp] theorem token_part (hp : π ∉ [.rings, .lnk, .bte, .mss, .out]) (kp port : Nat) (d : List Nat) (s : State) : part π
    (State.token kp port d s).2 = part π s := by
  simp only [List.mem_cons, List.not_mem_nil, or_false, not_or] at hp
  simp only [State.token, part_ite_snd]
  cases s.mss.token <;> simp [hp]

@[simp] theorem keypadToken_part (hp : π ∉ [.rings, .lnk, .bte, .mss, .out, .free]) (digits : List Nat) (s : State) : part π
    (keypadToken digits s) = part π s := by
  simp only [List.mem_cons, List.not_mem_nil, or_false, not_or] at hp
  unfold keypadToken
  dsimp only
  (repeat' split) <;> simp [hp]

@[simp] theorem relayedToken_part (hp : π ∉ [.rings, .lnk, .bte, .mss, .out]) (s : State) : part π (relayedToken s) = part π
    s := by
  simp only [List.mem_cons, List.not_mem_nil, or_false, not_or] at hp
  unfold relayedToken
  dsimp only
  (repeat' split) <;> simp [hp]

@[simp] theorem tokenEnter_part (hp : π ∉ [.rings, .lnk, .bte, .mss, .out]) (q : Sqe) (s : State) : part π (tokenEnter q s).2
    = part π s := by
  simp only [List.mem_cons, List.not_mem_nil, or_false, not_or] at hp
  simp [tokenEnter, hp]

@[simp] theorem lockoutEnd_part (hp : π ∉ [.bte]) (kp : Nat) (s : State) : part π (lockoutEnd kp s) = part π s := by
  simp only [List.mem_cons, List.not_mem_nil, or_false] at hp
  simp [lockoutEnd, hp]

@[simp] theorem registerRead_part (hp : π ∉ [.mss]) (q : Sqe) (s : State) : part π (registerRead q s).2 = part π s := by
  simp only [List.mem_cons, List.not_mem_nil, or_false] at hp
  simp [registerRead, hp]

@[simp] theorem creditRead_part (hp : π ∉ [.mss]) (q : Sqe) (s : State) : part π (creditRead q s).2 = part π s := by
  simp only [List.mem_cons, List.not_mem_nil, or_false] at hp
  simp [creditRead, hp]

@[simp] theorem intervalRead_part (hp : π ∉ [.mss]) (q : Sqe) (s : State) : part π (intervalRead q s).2 = part π s := by
  simp only [List.mem_cons, List.not_mem_nil, or_false] at hp
  simp [intervalRead, hp]

/-! ### Measurement -/

@[simp] theorem supplyMods_part (hp : π ∉ [.sgm, .out]) (vv vi : Bool) (clk : List Nat) (s : State) : part π
    (State.supplyMods vv vi clk s) = part π s := by
  simp only [List.mem_cons, List.not_mem_nil, or_false, not_or] at hp
  cases π <;> simp_all [State.supplyMods, part]

@[simp] theorem savePut_part (hp : π ∉ [.sgm]) (v : Save) (s : State) : part π (State.savePut v s) = part π s := by
  simp only [List.mem_cons, List.not_mem_nil, or_false] at hp
  simp [State.savePut, hp]

@[simp] theorem saveDone_part (hp : π ∉ [.sgm]) (s : State) : part π (State.saveDone s) = part π s := by
  simp only [List.mem_cons, List.not_mem_nil, or_false] at hp
  unfold State.saveDone
  (repeat' split) <;> simp [hp]

@[simp] theorem saveSgm_part (hp : π ∉ [.sgm]) (kind : Nat) (s : State) : part π (State.saveSgm kind s) = part π s := by
  simp only [List.mem_cons, List.not_mem_nil, or_false] at hp
  simp [State.saveSgm, hp]

@[simp] theorem periodicSave_part (hp : π ∉ [.sgm]) (s : State) : part π (periodicSave s) = part π s := by
  simp only [List.mem_cons, List.not_mem_nil, or_false] at hp
  simp [periodicSave, hp]

@[simp] theorem bumpReg_part (hp : π ∉ [.sgm, .meters, .bte]) (id amount : Nat) (s : State) : part π (State.bumpReg id amount
    s) = part π s := by
  simp only [List.mem_cons, List.not_mem_nil, or_false, not_or] at hp
  simp [State.bumpReg, hp]

@[simp] theorem dcSample_part (hp : π ∉ [.sgm, .meters, .bte]) (xs : List Int) (n : Nat) (s : State) : part π (State.dcSample
    xs n s) = part π s := by
  simp only [List.mem_cons, List.not_mem_nil, or_false, not_or] at hp
  simp [State.dcSample, hp]

@[simp] theorem pulseSample_part (hp : π ∉ [.sgm, .out]) (k : Nat) (s : State) : part π (State.pulseSample k s) = part π s := by
  simp only [List.mem_cons, List.not_mem_nil, or_false, not_or] at hp
  unfold State.pulseSample
  dsimp only
  (repeat' split) <;> simp [hp]

@[simp] theorem pulseApply_part (hp : π ∉ [.rings, .lnk, .sgm, .mss, .out]) (c : PulseCfg) (s : State) : part π
    (State.pulseApply c s) = part π s := by
  simp only [List.mem_cons, List.not_mem_nil, or_false, not_or] at hp
  simp [State.pulseApply, hp]

@[simp] theorem pulseCfgs_part (hp : π ∉ [.rings, .lnk, .sgm, .mss, .out]) (s : State) : part π (State.pulseCfgs s) = part π
    s := by
  simp only [List.mem_cons, List.not_mem_nil, or_false, not_or] at hp
  simp [State.pulseCfgs, hp]

@[simp] theorem s0Pulse_part (hp : π ∉ [.sgm, .meters]) (n onMs offMs : Nat) (on : Bool) (s : State) : part π (s0Pulse n onMs
    offMs on s) = part π s := by
  simp only [List.mem_cons, List.not_mem_nil, or_false, not_or] at hp
  simp [s0Pulse, hp]

@[simp] theorem acBoundary_part (hp : π ∉ [.sgm, .mss]) (s : State) : part π (State.acBoundary s) = part π s := by
  simp only [List.mem_cons, List.not_mem_nil, or_false, not_or] at hp
  simp [State.acBoundary, hp]

@[simp] theorem blockEnd_part (hp : π ∉ [.sgm, .meters, .bte, .mss, .free]) (s : State) : part π (blockEnd s) = part π s := by
  simp only [List.mem_cons, List.not_mem_nil, or_false, not_or] at hp
  simp [blockEnd, hp]

@[simp] theorem setFault_part (hp : π ∉ [.rings, .lnk, .sgm, .bte, .out]) (c cause : Nat) (s : State) : part π
    (State.setFault c cause s) = part π s := by
  simp only [List.mem_cons, List.not_mem_nil, or_false, not_or] at hp
  simp [State.setFault, hp]

@[simp] theorem channelFault_part (hp : π ∉ [.rings, .lnk, .sgm, .bte, .out]) (c cause : Nat) (s : State) : part π
    (channelFault c cause s) = part π s := by
  simp only [List.mem_cons, List.not_mem_nil, or_false, not_or] at hp
  simp [channelFault, hp]

@[simp] theorem channelClear_part (hp : π ∉ [.rings, .lnk, .sgm, .bte, .out]) (c : Nat) (s : State) : part π (channelClear c
    s) = part π s := by
  simp only [List.mem_cons, List.not_mem_nil, or_false, not_or] at hp
  simp [channelClear, hp]

@[simp] theorem boundaryStart_part (hp : π ∉ [.rings, .lnk, .sgm, .bte, .mss, .out]) (s : State) : part π
    (State.boundaryStart s) = part π s := by
  simp only [List.mem_cons, List.not_mem_nil, or_false, not_or] at hp
  unfold State.boundaryStart
  dsimp only
  (repeat' split) <;> simp [hp]

@[simp] theorem boundaryEnd_part (hp : π ∉ [.rings, .lnk, .sgm, .bte, .mss, .out]) (s : State) : part π (State.boundaryEnd s)
    = part π s := by
  simp only [List.mem_cons, List.not_mem_nil, or_false, not_or] at hp
  unfold State.boundaryEnd
  dsimp only
  split <;> simp [hp]

@[simp] theorem sgmDue_part (hp : π ∉ [.rings, .lnk, .sgm, .meters, .bte, .mss, .out, .free]) (s : State) : part π
    (State.sgmDue s) = part π s := by
  simp only [List.mem_cons, List.not_mem_nil, or_false, not_or] at hp
  simp [State.sgmDue, hp]

@[simp] theorem dcSamples_part (hp : π ∉ [.sgm, .meters, .bte]) (xs : List Int) (s : State) : part π (State.dcSamples xs s) =
    part π s := by
  simp only [List.mem_cons, List.not_mem_nil, or_false, not_or] at hp
  simp [State.dcSamples, hp]

@[simp] theorem sgmSample_part (hp : π ∉ [.rings, .lnk, .sgm, .meters, .bte, .mss, .out, .free]) (bits : List Nat) (s :
    State) : part π (sgmSample bits s) = part π s := by
  simp only [List.mem_cons, List.not_mem_nil, or_false, not_or] at hp
  simp [sgmSample, hp]

@[simp] theorem abandonSeal_part (hp : π ∉ [.rings, .lnk, .mss, .out]) (reason : Nat) (s : State) : part π (State.abandonSeal
    reason s) = part π s := by
  simp only [List.mem_cons, List.not_mem_nil, or_false, not_or] at hp
  simp [State.abandonSeal, hp]

@[simp] theorem lossSample_part (hp : π ∉ [.rings, .lnk, .sgm, .meters, .bte, .mss, .out, .free]) (bits : List Nat) (s :
    State) : part π (State.lossSample bits s) = part π s := by
  simp only [List.mem_cons, List.not_mem_nil, or_false, not_or] at hp
  simp [State.lossSample, hp]

@[simp] theorem supplyEnds_part (hp : π ∉ [.sgm, .out]) (s : State) : part π (State.supplyEnds s) = part π s := by
  simp only [List.mem_cons, List.not_mem_nil, or_false, not_or] at hp
  refine (part_foldl (fun t k => ?_) _ _).trans (by simp [hp])
  split <;> simp [hp]

@[simp] theorem supplyLoss'_part (hp : π ∉ [.rings, .lnk, .sgm, .meters, .bte, .mss, .out, .free]) (cell : Option Nat) (bits
    : List Nat) (s : State) : part π (supplyLoss' cell bits s) = part π s := by
  simp only [List.mem_cons, List.not_mem_nil, or_false, not_or] at hp
  simp [supplyLoss', hp]

@[simp] theorem cwsPort_part (hp : π ∉ [.rings, .lnk, .sgm, .meters, .bte, .out]) (bits : List (List Nat)) (n : Nat) (s :
    State) : part π (State.cwsPort bits n s) = part π s := by
  simp only [List.mem_cons, List.not_mem_nil, or_false, not_or] at hp
  simp [State.cwsPort, hp]

@[simp] theorem batteryWindow_part (hp : π ∉ [.rings, .lnk, .sgm, .meters, .bte, .mss, .out]) (bits : List (List Nat)) (s :
    State) : part π (batteryWindow bits s) = part π s := by
  simp only [List.mem_cons, List.not_mem_nil, or_false, not_or] at hp
  simp [batteryWindow, hp]

@[simp] theorem reanchorCell_part (hp : π ∉ [.cell, .free]) (s : State) : part π (State.reanchorCell s) = part π s := by
  simp only [List.mem_cons, List.not_mem_nil, or_false, not_or] at hp
  unfold State.reanchorCell
  dsimp only
  (repeat' split) <;> simp [↓withCell_part, hp]

@[simp] theorem leaveShip_part (hp : π ∉ [.rings, .lnk, .cell, .sgm, .mss, .out, .free]) (s : State) : part π
    (State.leaveShip s) = part π s := by
  simp only [List.mem_cons, List.not_mem_nil, or_false, not_or] at hp
  simp [State.leaveShip, hp]

@[simp] theorem supplyReturn_part (hp : π ∉ [.rings, .lnk, .cell, .sgm, .mss, .out, .free]) (s : State) : part π
    (supplyReturn s) = part π s := by
  simp only [List.mem_cons, List.not_mem_nil, or_false, not_or] at hp
  simp [supplyReturn, hp]

@[simp] theorem settlingEnd_part (hp : π ∉ [.rings, .lnk, .sgm, .out, .free]) (s : State) : part π (settlingEnd s) = part π s
    := by
  simp only [List.mem_cons, List.not_mem_nil, or_false, not_or] at hp
  unfold settlingEnd
  (repeat' split) <;> simp [hp]

@[simp] theorem cellCutoff_part (hp : π ∉ [.rings, .lnk, .cell, .sgm, .bte, .mss, .out]) (mv : Nat) (s : State) : part π
    (cellCutoff mv s) = part π s := by
  simp only [List.mem_cons, List.not_mem_nil, or_false, not_or] at hp
  unfold cellCutoff
  split
  · rfl
  · extract_lets s1 s2 c s3
    have h3 : part π s3 = part π s := (withCell_part (by simp [hp]) _ s2).trans (by simp [s2, s1, hp])
    simp [h3, hp]

@[simp] theorem restoreSave_part (hp : π ∉ [.rings, .lnk, .sgm, .meters, .bte, .out, .free]) (s : State) : part π
    (State.restoreSave s) = part π s := by
  simp only [List.mem_cons, List.not_mem_nil, or_false, not_or] at hp
  unfold State.restoreSave
  dsimp only
  (repeat' split) <;> simp [hp]

@[simp] theorem resume_part (hp : π ∉ [.bte, .mss]) (s : State) : part π (State.resume s) = part π s := by
  simp only [List.mem_cons, List.not_mem_nil, or_false, not_or] at hp
  simp [State.resume, hp]

@[simp] theorem saggarPowerOn_part (hp : π ∉ [.rings, .lnk, .sgm, .meters, .bte, .mss, .seal, .out, .free]) (sramOk badA badB
    : Bool) (s : State) : part π (saggarPowerOn sramOk badA badB s) = part π s := by
  simp only [List.mem_cons, List.not_mem_nil, or_false, not_or] at hp
  unfold saggarPowerOn
  extract_lets endT s0 s1 s2 s3 s4 s5 s6
  have h1 : part π s1 = part π s := by simp [s1, s0, hp, -List.reduceReplicate]
  have h3 : part π s3 = part π s := by simp [s3, s2, h1, hp]
  have h5 : part π s5 = part π s := by simp [s5, s4, h3, hp]
  simp [s6, h5, hp]

@[simp] theorem cellEstimate_part (hp : π ∉ [.cell]) (ma : Int) (mv : Nat) (temp : Int) (s : State) : part π (cellEstimate ma
    mv temp s) = part π s := by
  unfold cellEstimate
  split
  · rfl
  · exact withCell_part hp _ s

@[simp] theorem summarySend_part (hp : π ∉ [.lnk, .sgm]) (s : State) : part π (summarySend s) = part π s := by
  simp only [List.mem_cons, List.not_mem_nil, or_false, not_or] at hp
  simp [summarySend, hp]

@[simp] theorem energyRead_part (hp : π ∉ [.sgm, .mss]) (q : Sqe) (s : State) : part π (energyRead q s).2 = part π s := by
  simp only [List.mem_cons, List.not_mem_nil, or_false, not_or] at hp
  simp [energyRead, hp]

@[simp] theorem instantRead_part (s : State) : part π (instantRead s).2 = part π s := by
  cases π <;> simp_all [instantRead, part]

@[simp] theorem pulseConfig_part (hp : π ∉ [.sgm, .mss]) (q : Sqe) (b : List Byte) (s : State) : part π (pulseConfig q b s).2
    = part π s := by
  simp only [List.mem_cons, List.not_mem_nil, or_false, not_or] at hp
  unfold pulseConfig
  (repeat' split) <;> simp [hp]

/-! ### Power and start-up -/

@[simp] theorem fireHeld_part (hp : π ∉ [.rings, .out]) (fn : Fn) (s : State) : part π (State.fireHeld fn s) = part π s := by
  simp only [List.mem_cons, List.not_mem_nil, or_false, not_or] at hp
  simp [State.fireHeld, hp]

@[simp] theorem hqeBegins_part (hp : π ∉ [.rings, .sup, .out]) (s : State) : part π (State.hqeBegins s) = part π s := by
  simp only [List.mem_cons, List.not_mem_nil, or_false, not_or] at hp
  simp [State.hqeBegins, hp]

@[simp] theorem islandIsReady_part (hp : π ∉ [.rings, .sup, .out]) (i : Nat) (s : State) : part π (State.islandIsReady i s) =
    part π s := by
  simp only [List.mem_cons, List.not_mem_nil, or_false, not_or] at hp
  simp [State.islandIsReady, hp]

@[simp] theorem spireOff_part (hp : π ∉ [.rings, .faults, .sj, .sup]) (s : State) : part π (State.spireOff s) = part π s := by
  simp only [List.mem_cons, List.not_mem_nil, or_false, not_or] at hp
  simp [State.spireOff, hp]

@[simp] theorem unpowered_part (hp : π ∉ [.faults, .sup, .free]) (s : State) : part π (State.unpowered s) = part π s := by
  simp only [List.mem_cons, List.not_mem_nil, or_false, not_or] at hp
  simp [State.unpowered, hp]

@[simp] theorem shipOrder_part (hp : π ∉ [.sgm, .mss, .out]) (s : State) : part π (State.shipOrder s) = part π s := by
  simp only [List.mem_cons, List.not_mem_nil, or_false, not_or] at hp
  simp [State.shipOrder, hp]

@[simp] theorem dropWrites_part (hp : π ∉ [.faults, .sj, .sup, .evr]) (s : State) : part π (State.dropWrites s) = part π s := by
  simp only [List.mem_cons, List.not_mem_nil, or_false, not_or] at hp
  simp [State.dropWrites, hp]

@[simp] theorem journalSessions_part (hp : π ∉ [.sj]) (s : State) : part π (State.journalSessions s) = part π s := by
  simp only [List.mem_cons, List.not_mem_nil, or_false] at hp
  simp [State.journalSessions, hp]

@[simp] theorem holdupWrites_part (hp : π ∉ [.faults, .sj, .sup, .evr]) (s : State) : part π (State.holdupWrites s) = part π
    s := by
  simp only [List.mem_cons, List.not_mem_nil, or_false, not_or] at hp
  simp [State.holdupWrites, hp]

@[simp] theorem powerFail_part (hp : π ∉ [.fwd, .ready, .rings, .tmf, .faults, .sj, .sup, .lnk, .cfg, .spa, .kce, .banks,
    .psc, .pla, .vpc, .tcm, .lsw, .chans, .bse, .sgm, .mss, .blk, .evr, .out, .cur, .free]) (s : State) : part π (powerFail
    s) = part π s := by
  simp only [List.mem_cons, List.not_mem_nil, or_false, not_or] at hp
  simp [powerFail, hp]

@[simp] theorem powerGood_part (hp : π ∉ [.rings, .tmf, .faults, .sup, .lnk, .vpc, .cell, .sgm, .mss, .out, .free]) (mv :
    Nat) (s : State) : part π (powerGood mv s) = part π s := by
  simp only [List.mem_cons, List.not_mem_nil, or_false, not_or] at hp
  unfold powerGood
  dsimp only
  (repeat' split) <;> simp [hp]

@[simp] theorem holdupReady_part (hp : π ∉ [.fwd, .ready, .faults, .sj, .sup, .evr, .cur]) (s : State) : part π (holdupReady
    s) = part π s := by
  simp only [List.mem_cons, List.not_mem_nil, or_false, not_or] at hp
  simp [holdupReady, hp]

@[simp] theorem reserveReady_part (hp : π ∉ [.sup]) (s : State) : part π (reserveReady s) = part π s := by
  simp only [List.mem_cons, List.not_mem_nil, or_false] at hp
  simp [reserveReady, hp]

@[simp] theorem holdupRunOut_part (hp : π ∉ [.rings, .faults, .sj, .sup]) (s : State) : part π (holdupRunOut s) = part π s := by
  simp only [List.mem_cons, List.not_mem_nil, or_false, not_or] at hp
  simp [holdupRunOut, hp]

@[simp] theorem tileStoreReady_part (hp : π ∉ [.tmf]) (s : State) : part π (tileStoreReady s) = part π s := by
  simp only [List.mem_cons, List.not_mem_nil, or_false] at hp
  simp [tileStoreReady, hp]

@[simp] theorem fallBack_part (hp : π ∉ [.rings, .faults, .sup, .out]) (left entered : Nat) (s : State) : part π
    (State.fallBack left entered s) = part π s := by
  simp only [List.mem_cons, List.not_mem_nil, or_false, not_or] at hp
  simp [State.fallBack, hp]

@[simp] theorem firmwareReadDone_part (hp : π ∉ [.rings, .faults, .sup, .out]) (ok : Bool) (s : State) : part π
    (firmwareReadDone ok s) = part π s := by
  simp only [List.mem_cons, List.not_mem_nil, or_false, not_or] at hp
  unfold firmwareReadDone
  dsimp only
  (repeat' split) <;> simp [hp]

@[simp] theorem pcieLinkUp_part (hp : π ∉ [.sup]) (s : State) : part π (pcieLinkUp s) = part π s := by
  simp only [List.mem_cons, List.not_mem_nil, or_false] at hp
  simp [pcieLinkUp, hp]

@[simp] theorem enterBisque_part (hp : π ∉ [.fwd, .ready, .rings, .tmf, .faults, .sj, .sup, .lnk, .cfg, .spa, .kce, .banks,
    .psc, .pla, .vpc, .tcm, .lsw, .chans, .bse, .blk, .evr, .out, .cur, .free]) (s : State) : part π (State.enterBisque s) =
    part π s := by
  simp only [List.mem_cons, List.not_mem_nil, or_false, not_or] at hp
  simp [State.enterBisque, hp]

@[simp] theorem bisqueEntry_part (hp : π ∉ [.fwd, .ready, .rings, .tmf, .faults, .sj, .sup, .lnk, .cfg, .spa, .kce, .banks,
    .psc, .pla, .vpc, .tcm, .lsw, .chans, .bse, .blk, .evr, .out, .cur, .free]) (bad : Option Nat) (s : State) : part π
    (bisqueEntry bad s) = part π s := by
  simp only [List.mem_cons, List.not_mem_nil, or_false, not_or] at hp
  unfold bisqueEntry
  (repeat' split) <;> simp [hp]

@[simp] theorem autoRollback_part (hp : π ∉ [.rings, .faults, .sup, .out]) (s : State) : part π (State.autoRollback s) = part
    π s := by
  simp only [List.mem_cons, List.not_mem_nil, or_false, not_or] at hp
  simp [State.autoRollback, hp]

@[simp] theorem thirdReset_part (hp : π ∉ [.rings, .faults, .sup, .out]) (i : Nat) (s : State) : part π (State.thirdReset i
    s) = part π s := by
  simp only [List.mem_cons, List.not_mem_nil, or_false, not_or] at hp
  simp [State.thirdReset, hp]

@[simp] theorem watchdogMiss_part (hp : π ∉ [.fwd, .ready, .rings, .tmf, .faults, .sup, .lnk, .cfg, .spa, .kce, .banks, .psc,
    .pla, .vpc, .tcm, .lsw, .chans, .bse, .mss, .blk, .evr, .out, .cur, .free]) (i : Nat) (s : State) : part π (watchdogMiss
    i s) = part π s := by
  simp only [List.mem_cons, List.not_mem_nil, or_false, not_or] at hp
  simp [watchdogMiss, hp]

@[simp] theorem holdEnd_part (hp : π ∉ [.faults, .sup]) (s : State) : part π (holdEnd s) = part π s := by
  simp only [List.mem_cons, List.not_mem_nil, or_false, not_or] at hp
  simp [holdEnd, hp]

@[simp] theorem perstAssert_part (hp : π ∉ [.fwd, .ready, .rings, .tmf, .faults, .sj, .sup, .spa, .kce, .psc, .vpc, .lsw,
    .chans, .out, .cur, .free]) (s : State) : part π (perstAssert s) = part π s := by
  simp only [List.mem_cons, List.not_mem_nil, or_false, not_or] at hp
  unfold perstAssert
  dsimp only
  (repeat' split) <;> simp [hp]

@[simp] theorem perstDeassert_part (hp : π ∉ [.rings, .sup, .out]) (s : State) : part π (perstDeassert s) = part π s := by
  simp only [List.mem_cons, List.not_mem_nil, or_false, not_or] at hp
  simp [perstDeassert, hp]

/-! ### The Saggar link -/

@[simp] theorem tunnelLost_part (hp : π ∉ [.fwd, .ready, .rings, .mss, .cur]) (s : State) : part π (State.tunnelLost s) =
    part π s := by
  simp only [List.mem_cons, List.not_mem_nil, or_false, not_or] at hp
  simp [State.tunnelLost, hp]

@[simp] theorem tokensUnsent_part (hp : π ∉ [.lnk, .blk]) (s : State) : part π (State.tokensUnsent s) = part π s := by
  simp only [List.mem_cons, List.not_mem_nil, or_false, not_or] at hp
  simp [State.tokensUnsent, hp]

@[simp] theorem linkFails_part (hp : π ∉ [.fwd, .ready, .rings, .faults, .lnk, .spa, .mss, .blk, .out, .cur]) (toSg : Bool)
    (seq : Nat) (s : State) : part π (State.linkFails toSg seq s) = part π s := by
  simp only [List.mem_cons, List.not_mem_nil, or_false, not_or] at hp
  simp [State.linkFails, hp]

@[simp] theorem endRecovers_part (hp : π ∉ [.rings, .faults, .lnk, .spa, .out]) (toSg : Bool) (s : State) : part π
    (State.endRecovers toSg s) = part π s := by
  simp only [List.mem_cons, List.not_mem_nil, or_false, not_or] at hp
  simp [State.endRecovers, hp]

@[simp] theorem takeAnswers_part (hp : π ∉ [.lnk, .blk]) (s : State) : part π (State.takeAnswers s) = part π s := by
  simp only [List.mem_cons, List.not_mem_nil, or_false, not_or] at hp
  simp [State.takeAnswers, hp]

@[simp] theorem fitSaggar_part (hp : π ∉ [.rings, .lnk, .cell, .sgm, .meters, .bte, .mss, .seal, .shelf, .out, .free])
    (serial : BitVec 64) (s : State) : part π (State.fitSaggar serial s) = part π s := by
  simp only [List.mem_cons, List.not_mem_nil, or_false, not_or] at hp
  unfold State.fitSaggar
  dsimp only
  (repeat' split)
  · rfl
  · cases π <;> simp_all [part]
  · rw [saggarPowerOn_part (by simp [hp])]
    cases π <;> simp_all [part]

@[simp] theorem meetSerial_part (hp : π ∉ [.rings, .faults, .sup, .lnk, .spa, .cell, .sgm, .meters, .bte, .mss, .seal,
    .shelf, .out, .free]) (serial : BitVec 64) (s : State) : part π (State.meetSerial serial s) = part π s := by
  simp only [List.mem_cons, List.not_mem_nil, or_false, not_or] at hp
  simp [State.meetSerial, hp]

@[simp] theorem badFrame_part (hp : π ∉ [.fwd, .ready, .rings, .faults, .lnk, .spa, .mss, .blk, .out, .cur]) (f :
    SaggarFrame) (s : State) : part π (State.badFrame f s) = part π s := by
  simp only [List.mem_cons, List.not_mem_nil, or_false, not_or] at hp
  simp [State.badFrame, hp]

@[simp] theorem goodFrame_part (hp : π ∉ [.rings, .faults, .sup, .lnk, .spa, .cell, .sgm, .meters, .bte, .mss, .seal, .shelf,
    .blk, .out, .free]) (f : SaggarFrame) (s : State) : part π (State.goodFrame f s) = part π s := by
  simp only [List.mem_cons, List.not_mem_nil, or_false, not_or] at hp
  unfold State.goodFrame
  dsimp only
  (repeat' split) <;> simp [hp]

@[simp] theorem linkFrame_part (hp : π ∉ [.fwd, .ready, .rings, .faults, .sup, .lnk, .spa, .cell, .sgm, .meters, .bte, .mss,
    .seal, .shelf, .blk, .out, .cur, .free]) (f : SaggarFrame) (s : State) : part π (linkFrame f s) = part π s := by
  simp only [List.mem_cons, List.not_mem_nil, or_false, not_or] at hp
  simp [linkFrame, hp]

@[simp] theorem linkProbe_part (hp : π ∉ [.lnk]) (s : State) : part π (linkProbe s) = part π s := by
  simp only [List.mem_cons, List.not_mem_nil, or_false] at hp
  simp [linkProbe, hp]

@[simp] theorem takeAnswer_part (hp : π ∉ [.fwd, .ready, .rings, .out, .cur]) (s : State) : part π (State.takeAnswer s) =
    part π s := by
  simp only [List.mem_cons, List.not_mem_nil, or_false, not_or] at hp
  unfold State.takeAnswer
  dsimp only
  (repeat' split) <;> simp [hp]

@[simp] theorem sessionArrives_part (hp : π ∉ [.rings, .lnk, .blk, .out]) (s : State) : part π (State.sessionArrives s) =
    part π s := by
  simp only [List.mem_cons, List.not_mem_nil, or_false, not_or] at hp
  simp [State.sessionArrives, hp]

@[simp] theorem tunnelAnswer_part (hp : π ∉ [.fwd, .ready, .rings, .lnk, .blk, .out, .cur]) (s : State) : part π
    (tunnelAnswer s) = part π s := by
  simp only [List.mem_cons, List.not_mem_nil, or_false, not_or] at hp
  simp [tunnelAnswer, hp]

@[simp] theorem faultRecL_part (hp : π ∉ [.faults]) (time island code a0 a1 a2 : Nat) (s : State) : part π (State.faultRecL
    time island code a0 a1 a2 s) = part π s := by
  unfold State.faultRecL
  refine onSup_part (.inl (by simpa using hp)) (.inr fun x => ?_) (.inr fun x => ?_) s <;> split <;>
    simp [Sup.journalPut]

@[simp] theorem meterEvent_part (hp : π ∉ [.rings, .faults, .out]) (sub src port : Nat) (was now : Bool) (oldC newC : Nat ×
    Nat) (time : Nat) (s : State) : part π (State.meterEvent sub src port was now oldC newC time s) = part π s := by
  simp only [List.mem_cons, List.not_mem_nil, or_false, not_or] at hp
  simp [State.meterEvent, hp]

@[simp] theorem takeSummary_part (hp : π ∉ [.rings, .faults, .lnk, .out]) (s : State) : part π (State.takeSummary s) = part π
    s := by
  simp only [List.mem_cons, List.not_mem_nil, or_false, not_or] at hp
  unfold State.takeSummary
  (repeat' split) <;> simp [hp]

@[simp] theorem crossingsFirst_part (hp : π ∉ [.fwd, .ready, .rings, .lnk, .blk, .out, .cur]) (s : State) : part π
    (State.crossingsFirst s) = part π s := by
  simp only [List.mem_cons, List.not_mem_nil, or_false, not_or] at hp
  simp [State.crossingsFirst, hp]

@[simp] theorem summaryArrives_part (hp : π ∉ [.fwd, .ready, .rings, .faults, .lnk, .blk, .out, .cur]) (s : State) : part π
    (summaryArrives s) = part π s := by
  simp only [List.mem_cons, List.not_mem_nil, or_false, not_or] at hp
  simp [summaryArrives, hp]

@[simp] theorem takeCell_part (hp : π ∉ [.rings, .faults, .bse, .cell, .out]) (s : State) : part π (State.takeCell s) = part
    π s := by
  simp only [List.mem_cons, List.not_mem_nil, or_false, not_or] at hp
  unfold State.takeCell
  dsimp only
  (repeat' split) <;> simp [↓withCell_part, hp]

@[simp] theorem cellMessage_part (hp : π ∉ [.fwd, .ready, .rings, .faults, .lnk, .bse, .cell, .blk, .out, .cur]) (s : State)
    : part π (cellMessage s) = part π s := by
  simp only [List.mem_cons, List.not_mem_nil, or_false, not_or] at hp
  simp [cellMessage, hp]

/-! ### Metrology security -/

@[simp] theorem keyExport_part (s : State) : part π (keyExport s).2 = part π s := by
  cases π <;> simp_all [keyExport, part]

@[simp] theorem storeRead_part (hp : π ∉ [.mss]) (q : Sqe) (first count newest : Nat) (store : List (Nat × List Byte)) (s :
    State) : part π (storeRead q first count newest store s).2 = part π s := by
  simp only [List.mem_cons, List.not_mem_nil, or_false] at hp
  simp [storeRead, hp]

@[simp] theorem recordRead_part (hp : π ∉ [.mss]) (q : Sqe) (s : State) : part π (recordRead q s).2 = part π s := by
  simp only [List.mem_cons, List.not_mem_nil, or_false] at hp
  simp [recordRead, hp]

@[simp] theorem logRead_part (hp : π ∉ [.mss]) (q : Sqe) (s : State) : part π (logRead q s).2 = part π s := by
  simp only [List.mem_cons, List.not_mem_nil, or_false] at hp
  simp [logRead, hp]

@[simp] theorem identRead_part (hp : π ∉ [.mss]) (q : Sqe) (s : State) : part π (identRead q s).2 = part π s := by
  simp only [List.mem_cons, List.not_mem_nil, or_false] at hp
  simp [identRead, hp]

@[simp] theorem applyItem_part (hp : π ∉ [.sgm, .mss]) (i : Nat × List Byte) (x : State × Option (List Byte)) : part π
    (applyItem i x).1 = part π x.1 := by
  simp only [List.mem_cons, List.not_mem_nil, or_false, not_or] at hp
  unfold applyItem
  (repeat' split) <;> simp [hp]

@[simp] theorem logItem_part (hp : π ∉ [.rings, .lnk, .mss, .out]) (i : Nat × List Byte) (s : State) : part π (logItem i s) =
    part π s := by
  simp only [List.mem_cons, List.not_mem_nil, or_false, not_or] at hp
  simp [logItem, hp]

@[simp] theorem applyPackage_part (hp : π ∉ [.rings, .lnk, .sgm, .mss, .out]) (items : List (Nat × List Byte)) (s : State) :
    part π (State.applyPackage items s) = part π s := by
  simp only [List.mem_cons, List.not_mem_nil, or_false, not_or] at hp
  unfold State.applyPackage
  dsimp only
  (repeat' split) <;> simp [hp]

@[simp] theorem sealOpen_part (hp : π ∉ [.rings, .lnk, .mss, .out]) (q : Sqe) (b : List Byte) (s : State) : part π (sealOpen
    q b s).2 = part π s := by
  simp only [List.mem_cons, List.not_mem_nil, or_false, not_or] at hp
  unfold sealOpen
  (repeat' split) <;> simp [hp]

@[simp] theorem sealLoad_part (hp : π ∉ [.mss]) (b : List Byte) (s : State) : part π (sealLoad b s).2 = part π s := by
  simp only [List.mem_cons, List.not_mem_nil, or_false] at hp
  unfold sealLoad
  (repeat' split) <;> simp [hp]

@[simp] theorem sealClose_part (hp : π ∉ [.rings, .lnk, .sgm, .mss, .out]) (s : State) : part π (sealClose s).2 = part π s := by
  simp only [List.mem_cons, List.not_mem_nil, or_false, not_or] at hp
  unfold sealClose
  dsimp only
  (repeat' split) <;> simp [hp]

@[simp] theorem sealAbandon_part (hp : π ∉ [.rings, .lnk, .mss, .out]) (s : State) : part π (sealAbandon s).2 = part π s := by
  simp only [List.mem_cons, List.not_mem_nil, or_false, not_or] at hp
  unfold sealAbandon
  (repeat' split) <;> simp [hp]

@[simp] theorem sealBegin_part (hp : π ∉ [.rings, .lnk, .sgm, .mss, .out]) (q : Sqe) (b : List Byte) (s : State) : part π
    (sealBegin q b s).2 = part π s := by
  simp only [List.mem_cons, List.not_mem_nil, or_false, not_or] at hp
  unfold sealBegin
  (repeat' split) <;> simp [hp]

@[simp] theorem sealCmd_part (hp : π ∉ [.fwd, .ready, .rings, .lnk, .sgm, .mss, .out, .cur]) (q : Sqe) (h : HostRead) (s :
    State) : part π (sealCmd q h s) = part π s := by
  simp only [List.mem_cons, List.not_mem_nil, or_false, not_or] at hp
  simp [sealCmd, hp]

@[simp] theorem saggarRollback_part (hp : π ∉ [.rings, .lnk, .mss, .out]) (s : State) : part π (saggarRollback s) = part π s
    := by
  simp only [List.mem_cons, List.not_mem_nil, or_false, not_or] at hp
  unfold saggarRollback
  (repeat' split) <;> simp [hp]

@[simp] theorem shipAuthorise_part (hp : π ∉ [.rings, .lnk, .mss, .out]) (q : Sqe) (b : List Byte) (s : State) : part π
    (shipAuthorise q b s).2 = part π s := by
  simp only [List.mem_cons, List.not_mem_nil, or_false, not_or] at hp
  unfold shipAuthorise
  (repeat' split) <;> simp [hp]

@[simp] theorem coverOpen_part (hp : π ∉ [.rings, .lnk, .mss, .seal, .out]) (s : State) : part π (coverOpen s) = part π s := by
  simp only [List.mem_cons, List.not_mem_nil, or_false, not_or] at hp
  simp [coverOpen, hp]

@[simp] theorem coverClose_part (hp : π ∉ [.rings, .lnk, .mss, .out]) (s : State) : part π (coverClose s) = part π s := by
  simp only [List.mem_cons, List.not_mem_nil, or_false, not_or] at hp
  simp [coverClose, hp]

@[simp] theorem displayLine_part (hp : π ∉ [.mss, .out]) (s : State) : part π (displayLine s) = part π s := by
  simp only [List.mem_cons, List.not_mem_nil, or_false, not_or] at hp
  simp [displayLine, hp]

@[simp] theorem serveWaiting_part (hp : π ∉ [.rings, .lnk, .sgm, .bte, .mss, .out]) (q : Sqe) (b : List Byte) (s : State) :
    part π (State.serveWaiting q b s) = part π s := by
  simp only [List.mem_cons, List.not_mem_nil, or_false, not_or] at hp
  have hb : ∀ params body, (bufferRow q b).or (opticalRow q) = some (params, body) → ∀ s, part π (body s).2 = part π s := by
    intro params body h
    unfold bufferRow opticalRow at h
    split at h
    case h_7 => split at h <;> cases h <;> simp [hp]
    all_goals
      cases h
      simp [hp]
  unfold State.serveWaiting
  split
  · rfl
  · next params body h => simp [hp, hb params body h]

@[simp] theorem restartDone_part (hp : π ∉ [.rings, .lnk, .sgm, .bte, .mss, .out]) (s : State) : part π (restartDone s) =
    part π s := by
  simp only [List.mem_cons, List.not_mem_nil, or_false, not_or] at hp
  simp [restartDone, hp]

@[simp] theorem opticalAnswer_part (hp : π ∉ [.sgm, .mss]) (q : Sqe) (s : State) : part π (opticalAnswer q s).2 = part π s := by
  simp only [List.mem_cons, List.not_mem_nil, or_false, not_or] at hp
  have hb : ∀ params body, opticalRow q = some (params, body) → ∀ s, part π (body s).2 = part π s := by
    intro params body h
    unfold opticalRow at h
    split at h <;> cases h <;> simp [hp]
  unfold opticalAnswer
  (repeat' split) <;> simp_all

@[simp] theorem opticalRequest_part (hp : π ∉ [.sgm, .mss, .out]) (frame : List Byte) (s : State) : part π (opticalRequest
    frame s) = part π s := by
  simp only [List.mem_cons, List.not_mem_nil, or_false, not_or] at hp
  simp [opticalRequest, hp]

/-! ### Registers -/

@[simp] theorem tunnelRead_part (hp : π ∉ [.rings, .out]) (off size : Nat) (s : State) : part π (tunnelRead off size s) =
    part π s := by
  simp only [List.mem_cons, List.not_mem_nil, or_false, not_or] at hp
  simp [tunnelRead, hp]

@[simp] theorem writeHqe_part (hp : π ∉ [.fwd, .ready, .rings, .tmf, .sup, .spa, .kce, .out]) (fn : Fn) (off : Nat) (val :
    Word) (s : State) : part π (writeHqe fn off val s) = part π s := by
  simp only [List.mem_cons, List.not_mem_nil, or_false, not_or] at hp
  unfold writeHqe
  (repeat' split) <;> simp [hp]

@[simp] theorem writePf0_part (hp : π ∉ [.fwd, .ready, .rings, .tmf, .sup, .spa, .kce, .lsw, .out]) (off : Nat) (val : Word)
    (s : State) : part π (writePf0 off val s) = part π s := by
  simp only [List.mem_cons, List.not_mem_nil, or_false, not_or] at hp
  unfold writePf0
  dsimp only
  (repeat' split) <;> simp [hp]

@[simp] theorem writeMsix_part (hp : π ∉ [.rings, .out]) (fn : Fn) (off : Nat) (val : Word) (s : State) : part π (writeMsix
    fn off val s) = part π s := by
  simp only [List.mem_cons, List.not_mem_nil, or_false, not_or] at hp
  unfold writeMsix
  (repeat' split) <;> simp [hp]

@[simp] theorem writePci_part (hp : π ∉ [.rings]) (fn : Fn) (off : Nat) (val : Word) (s : State) : part π (writePci fn off
    val s) = part π s := by
  simp only [List.mem_cons, List.not_mem_nil, or_false] at hp
  unfold writePci
  (repeat' split) <;> simp [hp]

@[simp] theorem registerWrite_part (hp : π ∉ [.fwd, .ready, .rings, .tmf, .sup, .spa, .kce, .lsw, .out]) (fn : Fn) (bar off
    size : Nat) (val : Word) (s : State) : part π (registerWrite fn bar off size val s) = part π s := by
  simp only [List.mem_cons, List.not_mem_nil, or_false, not_or] at hp
  unfold registerWrite
  (repeat' split) <;> simp [hp]

/-! ### Ship mode and time -/

@[simp] theorem stepTime_part (hp : π ∉ [.sup, .evr]) (t : Nat) (s : State) : part π (State.stepTime t s) = part π s := by
  simp only [List.mem_cons, List.not_mem_nil, or_false, not_or] at hp
  simp [State.stepTime, hp]

@[simp] theorem timeSet_part (hp : π ∉ [.fwd, .ready, .sup, .evr, .cur]) (q : Sqe) (s : State) : part π (timeSet q s) = part
    π s := by
  simp only [List.mem_cons, List.not_mem_nil, or_false, not_or] at hp
  unfold timeSet
  (repeat' split) <;> simp [hp]

@[simp] theorem slewEnd_part (hp : π ∉ [.sup]) (s : State) : part π (slewEnd s) = part π s := by
  refine onSup_part (.inr fun x => ?_) (.inr fun x => ?_) (.inl (by simpa using hp)) s <;> split <;> simp

@[simp] theorem journalRead_part (hp : π ∉ [.fwd, .ready, .out, .cur]) (q : Sqe) (s : State) : part π (journalRead q s) =
    part π s := by
  simp only [List.mem_cons, List.not_mem_nil, or_false, not_or] at hp
  simp [journalRead, hp]

@[simp] theorem shipEnter_part (hp : π ∉ [.fwd, .ready, .rings, .faults, .sj, .sup, .spa, .psc, .vpc, .lsw, .chans, .cell,
    .out, .cur, .free]) (q : Sqe) (s : State) : part π (shipEnter q s) = part π s := by
  simp only [List.mem_cons, List.not_mem_nil, or_false, not_or] at hp
  unfold shipEnter
  dsimp only
  (repeat' split) <;> simp [hp]

@[simp] theorem shipCancel_part (hp : π ∉ [.rings, .faults, .sj, .sup, .spa, .psc, .vpc, .lsw, .chans, .cell, .out, .free])
    (s : State) : part π (shipCancel s) = part π s := by
  simp only [List.mem_cons, List.not_mem_nil, or_false, not_or] at hp
  unfold shipCancel
  dsimp only
  (repeat' split) <;> simp [hp]

@[simp] theorem deviceReset_part (hp : π ∉ [.fwd, .ready, .faults, .sup, .cur]) (q : Sqe) (s : State) : part π (deviceReset q
    s) = part π s := by
  simp only [List.mem_cons, List.not_mem_nil, or_false, not_or] at hp
  simp [deviceReset, hp]

@[simp] theorem deviceResetOrder_part (hp : π ∉ [.fwd, .ready, .rings, .tmf, .faults, .sup, .lnk, .cfg, .spa, .kce, .banks,
    .psc, .pla, .vpc, .tcm, .lsw, .chans, .bse, .mss, .blk, .evr, .out, .cur, .free]) (s : State) : part π (deviceResetOrder
    s) = part π s := by
  simp only [List.mem_cons, List.not_mem_nil, or_false, not_or] at hp
  simp [deviceResetOrder, hp]

/-! ### Firmware update -/

@[simp] theorem stageFails_part (hp : π ∉ [.fwd, .ready, .sup, .cur]) (q : Sqe) (status result : Nat) (s : State) : part π
    (State.stageFails q status result s) = part π s := by
  simp only [List.mem_cons, List.not_mem_nil, or_false, not_or] at hp
  simp [State.stageFails, hp]

@[simp] theorem stageImage_part (hp : π ∉ [.fwd, .ready, .rings, .tmf, .faults, .sup, .out, .cur, .free]) (q : Sqe) (bad :
    List Nat) (hs : List Nat) (s : State) : part π (State.stageImage q bad hs s) = part π s := by
  simp only [List.mem_cons, List.not_mem_nil, or_false, not_or] at hp
  unfold State.stageImage
  (repeat' split) <;> simp [hp]

@[simp] theorem updateStage_part (hp : π ∉ [.fwd, .ready, .rings, .tmf, .faults, .sup, .out, .cur, .free]) (q : Sqe) (bad :
    List Nat) (s : State) : part π (updateStage q bad s) = part π s := by
  simp only [List.mem_cons, List.not_mem_nil, or_false, not_or] at hp
  unfold updateStage
  dsimp only
  (repeat' split) <;> simp [hp]

@[simp] theorem stageDone_part (hp : π ∉ [.fwd, .ready, .rings, .faults, .sup, .out, .cur]) (ok : Bool) (s : State) : part π
    (stageDone ok s) = part π s := by
  simp only [List.mem_cons, List.not_mem_nil, or_false, not_or] at hp
  unfold stageDone
  (repeat' split) <;> simp [hp]

@[simp] theorem switchTo_part (hp : π ∉ [.fwd, .ready, .rings, .faults, .sup, .out, .cur]) (q : Sqe) (target : Nat) (rollback
    : Bool) (s : State) : part π (State.switchTo q target rollback s) = part π s := by
  simp only [List.mem_cons, List.not_mem_nil, or_false, not_or] at hp
  simp [State.switchTo, hp]

@[simp] theorem updateSwitch_part (hp : π ∉ [.fwd, .ready, .rings, .faults, .sup, .out, .cur]) (q : Sqe) (s : State) : part π
    (updateSwitch q s) = part π s := by
  simp only [List.mem_cons, List.not_mem_nil, or_false, not_or] at hp
  unfold updateSwitch
  (repeat' split) <;> simp [hp]

@[simp] theorem updateRollback_part (hp : π ∉ [.fwd, .ready, .rings, .faults, .sup, .out, .cur]) (q : Sqe) (s : State) : part
    π (updateRollback q s) = part π s := by
  simp only [List.mem_cons, List.not_mem_nil, or_false, not_or] at hp
  simp [updateRollback, hp]

@[simp] theorem bankSwitch_part (hp : π ∉ [.fwd, .ready, .rings, .faults, .sup, .blk, .out, .cur]) (i : Nat) (s : State) :
    part π (bankSwitch i s) = part π s := by
  simp only [List.mem_cons, List.not_mem_nil, or_false, not_or] at hp
  unfold bankSwitch
  (repeat' split) <;> simp [hp]

@[simp] theorem liveEnds_part (hp : π ∉ [.fwd, .ready, .rings, .faults, .sup, .evr, .out, .cur]) (l : LiveSwitch) (s : State)
    : part π (State.liveEnds l s) = part π s := by
  simp only [List.mem_cons, List.not_mem_nil, or_false, not_or] at hp
  simp [State.liveEnds, hp]

@[simp] theorem liveReady_part (hp : π ∉ [.fwd, .ready, .rings, .faults, .sup, .evr, .out, .cur]) (i : Nat) (s : State) :
    part π (State.liveReady i s) = part π s := by
  simp only [List.mem_cons, List.not_mem_nil, or_false, not_or] at hp
  unfold State.liveReady
  (repeat' split) <;> simp [hp]

@[simp] theorem islandReady_part (hp : π ∉ [.fwd, .ready, .rings, .faults, .sup, .evr, .out, .cur]) (i : Nat) (s : State) :
    part π (islandReady i s) = part π s := by
  simp only [List.mem_cons, List.not_mem_nil, or_false, not_or] at hp
  simp [islandReady, hp]

@[simp] theorem restartReset_part (hp : π ∉ [.fwd, .ready, .rings, .tmf, .faults, .sup, .lnk, .cfg, .spa, .kce, .banks, .psc,
    .pla, .vpc, .tcm, .lsw, .chans, .bse, .mss, .blk, .evr, .out, .cur, .free]) (s : State) : part π (restartReset s) = part
    π s := by
  simp only [List.mem_cons, List.not_mem_nil, or_false, not_or] at hp
  simp [restartReset, hp]

@[simp] theorem trialEnd_part (hp : π ∉ [.rings, .faults, .sup, .out]) (s : State) : part π (trialEnd s) = part π s := by
  simp only [List.mem_cons, List.not_mem_nil, or_false, not_or] at hp
  unfold trialEnd
  (repeat' split) <;> simp [hp]

end Sys2Proof.Machine
end
section
/-! PROOFS. What each command can change, and that it changes nothing else -/

namespace Sys2Proof.Machine

open Sys2Proof

/-- The parts of the state a command can change, whatever its operands and the state. -/
def footprint : Instr → List Part
  | .nop _ | .cqModerate _ | .identify _ | .journalRead _ | .ledgerRead _ | .planRead _ | .kilnStatus _ | .kilnCounts _ |
    .groupStatus _ | .groupCounts _ | .linkStatus _ | .portStatus _ | .thermalStatus _ | .switchStatus _ | .impedanceRead _ |
    .belfryStatus _ | .routeRead _ | .recorderStatus _ => [.fwd, .ready, .out, .cur]
  | .cqCreate _ | .sqCreate _ | .sqDelete _ | .cqDelete _ | .eventCqSet _ | .abort _ | .sqeForward _ _ | .hostReadCompletion _
    _ _ _ | .dmaCompletionTimeout _ => [.fwd, .ready, .rings, .out, .cur]
  | .hqeEnable _ | .sqTailDoorbell _ _ _ _ | .cqHeadDoorbell _ _ _ _ | .saggarMissClear | .pf1TunnelRead _ _ | .pf1TunnelWrite
    _ _ _ | .sqeFetch | .coalescingTimeExpiry _ _ | .eventVectorHoldoffEnd _ _ | .eventCqePost _ | .msixUnmask _ _ =>
    [.rings, .out, .cur]
  | .hqeDisable _ => [.fwd, .ready, .rings, .tmf, .sup, .spa, .kce, .out, .cur]
  | .registerWrite _ _ _ _ _ => [.fwd, .ready, .rings, .tmf, .sup, .spa, .kce, .lsw, .out, .cur]
  | .cqePost => [.ready, .rings, .sup, .spa, .out, .cur]
  | .tunnelAnswer => [.fwd, .ready, .rings, .lnk, .blk, .out, .cur]
  | .tunnelTimeout _ _ => [.fwd, .ready, .rings, .mss, .out, .cur]
  | .tileAlloc _ => [.fwd, .ready, .tmf, .out, .cur, .free]
  | .tileWrite _ _ | .tileClose _ | .tileFree _ | .streamOpen _ | .streamBuffer _ | .streamBufferFlush _ => [.fwd, .ready,
    .tmf, .out, .cur]
  | .tileRead _ _ | .streamTileDelivery _ _ => [.fwd, .ready, .rings, .tmf, .faults, .sup, .out, .cur]
  | .pairRestore _ | .sessionStart _ | .sessionStop _ | .sessionModify _ | .ledgerWrite _ _ => [.fwd, .ready, .tmf, .sup, .spa,
    .out, .cur]
  | .streamClose _ _ => [.fwd, .ready, .rings, .tmf, .faults, .sup, .kce, .out, .cur]
  | .streamTileFlush _ | .tileStoreReady => [.tmf, .out, .cur]
  | .configCommit _ => [.fwd, .ready, .sup, .out, .cur]
  | .commitValidationDone _ _ | .bisqueStore _ _ _ | .perstAssert | .coeffStage _ _ => [.fwd, .ready, .rings, .tmf, .faults,
    .sj, .sup, .spa, .kce, .psc, .vpc, .lsw, .chans, .out, .cur, .free]
  | .configAbort _ | .bisqueSlotWritten _ => [.fwd, .ready, .rings, .faults, .sj, .sup, .spa, .kce, .psc, .vpc, .lsw, .chans,
    .out, .cur, .free]
  | .bisqueEnter _ | .bisqueEntry _ | .epochBoundary _ => [.fwd, .ready, .rings, .tmf, .faults, .sj, .sup, .lnk, .cfg, .spa,
    .kce, .banks, .psc, .pla, .vpc, .tcm, .lsw, .chans, .bse, .blk, .evr, .out, .cur, .free]
  | .shipEnter _ => [.fwd, .ready, .rings, .faults, .sj, .sup, .spa, .psc, .vpc, .lsw, .chans, .cell, .out, .cur, .free]
  | .shipCancel => [.rings, .faults, .sj, .sup, .spa, .psc, .vpc, .lsw, .chans, .cell, .out, .cur, .free]
  | .timeSet _ => [.fwd, .ready, .sup, .evr, .out, .cur]
  | .slewEnd | .impedanceSave | .reserveReady | .pcieLinkUp => [.sup, .out, .cur]
  | .deviceReset _ => [.fwd, .ready, .faults, .sup, .out, .cur]
  | .deviceResetOrder | .updateRestartReset | .watchdogMiss _ => [.fwd, .ready, .rings, .tmf, .faults, .sup, .lnk, .cfg, .spa,
    .kce, .banks, .psc, .pla, .vpc, .tcm, .lsw, .chans, .bse, .mss, .blk, .evr, .out, .cur, .free]
  | .updateStage _ _ => [.fwd, .ready, .rings, .tmf, .faults, .sup, .out, .cur, .free]
  | .updateStageDone _ | .updateSwitch _ | .updateRollback _ => [.fwd, .ready, .rings, .faults, .sup, .out, .cur]
  | .islandBankSwitch _ => [.fwd, .ready, .rings, .faults, .sup, .blk, .out, .cur]
  | .trialEnd | .firmwareReadDone _ => [.rings, .faults, .sup, .out, .cur]
  | .powerGood _ => [.rings, .tmf, .faults, .sup, .lnk, .vpc, .cell, .sgm, .mss, .out, .cur, .free]
  | .powerFail => [.fwd, .ready, .rings, .tmf, .faults, .sj, .sup, .lnk, .cfg, .spa, .kce, .banks, .psc, .pla, .vpc, .tcm,
    .lsw, .chans, .bse, .sgm, .mss, .blk, .evr, .out, .cur, .free]
  | .holdupReady => [.fwd, .ready, .faults, .sj, .sup, .evr, .out, .cur]
  | .islandReady _ => [.fwd, .ready, .rings, .faults, .sup, .evr, .out, .cur]
  | .mainDieHoldEnd => [.faults, .sup, .out, .cur]
  | .perstDeassert => [.rings, .sup, .out, .cur]
  | .saggarLinkFrame _ => [.fwd, .ready, .rings, .faults, .sup, .lnk, .spa, .cell, .sgm, .meters, .bte, .mss, .seal, .shelf,
    .blk, .out, .cur, .free]
  | .saggarLinkProbe => [.lnk, .out, .cur]
  | .restRequest _ => [.fwd, .ready, .spa, .out, .cur]
  | .restExpiry _ | .writeWindowClose => [.spa, .out, .cur]
  | .replanComplete => [.spa, .out, .cur, .free]
  | .setpointGate _ => [.fwd, .ready, .rings, .tmf, .faults, .sup, .lnk, .spa, .kce, .banks, .out, .cur]
  | .creditMessage => [.lnk, .spa, .out, .cur]
  | .captureSet _ => [.fwd, .ready, .kce, .out, .cur]
  | .sampleFrame _ _ _ _ | .frameMissing _ | .linkRetrain _ | .linkDisable _ | .trainingStepTimeout _ => [.fwd, .ready, .rings,
    .tmf, .faults, .sj, .spa, .kce, .psc, .pla, .out, .cur, .free]
  | .firing _ _ _ => [.tmf, .kce, .psc, .out, .cur, .free]
  | .firingDeadline _ => [.rings, .tmf, .faults, .spa, .kce, .psc, .out, .cur, .free]
  | .collectorSlot => [.kce, .pla, .out, .cur]
  | .commandFrame _ | .mgmtSend _ | .lockStepPass _ => [.pla, .out, .cur, .free]
  | .groupRelease _ => [.fwd, .ready, .rings, .faults, .sj, .spa, .kce, .banks, .psc, .pla, .out, .cur]
  | .shedTick _ | .latchReport _ => [.psc, .out, .cur]
  | .capacityDelivery _ => [.spa, .psc, .out, .cur]
  | .groupRetryTimer _ => [.rings, .faults, .sj, .spa, .psc, .out, .cur]
  | .groupRetryClear _ => [.sj, .psc, .out, .cur]
  | .linkMgmt _ => [.fwd, .ready, .pla, .out, .cur]
  | .trainingAttempt _ => [.pla, .out, .cur]
  | .retrainDelay _ => [.rings, .tmf, .faults, .sj, .spa, .kce, .psc, .pla, .out, .cur, .free]
  | .echoAnswer _ _ _ | .codeError _ _ => [.rings, .faults, .sj, .spa, .psc, .pla, .out, .cur, .free]
  | .mgmtFrame _ _ _ => [.fwd, .ready, .rings, .faults, .sj, .spa, .psc, .pla, .out, .cur, .free]
  | .mgmtTimeout _ => [.fwd, .ready, .pla, .out, .cur, .free]
  | .lossOfSignal _ | .commaOffAlignment _ => [.rings, .faults, .sj, .spa, .psc, .pla, .out, .cur]
  | .pilotSet _ => [.fwd, .ready, .rings, .faults, .spa, .vpc, .out, .cur, .free]
  | .pilotChangeEffect _ => [.rings, .faults, .spa, .vpc, .out, .cur]
  | .pilotBandAccept _ _ | .diodeFaultAccept _ _ | .diodeFaultClear _ _ | .proximityBandAccept _ _ => [.rings, .faults, .spa,
    .vpc, .out, .cur, .free]
  | .frameTx _ _ | .frameRxBuffer _ => [.fwd, .ready, .vpc, .out, .cur]
  | .vehicleFrameRx _ _ _ | .modemIrq _ _ _ => [.rings, .vpc, .out, .cur]
  | .vehicleFrameDelivery _ _ | .vehicleFrameSent _ _ => [.fwd, .ready, .rings, .tmf, .faults, .sup, .vpc, .out, .cur]
  | .modemStatusPoll _ _ => [.rings, .faults, .vpc, .out, .cur]
  | .modemResetEnd _ => [.vpc, .out, .cur]
  | .latchClear _ => [.fwd, .ready, .rings, .faults, .sj, .tcm, .lsw, .chans, .out, .cur, .free]
  | .aqauxSet _ => [.fwd, .ready, .tcm, .out, .cur]
  | .aqauxForceExpiry _ => [.tcm, .out, .cur]
  | .thermalTick _ => [.rings, .faults, .sj, .tcm, .lsw, .chans, .out, .cur, .free]
  | .graceExpiry _ | .flowSecond _ => [.rings, .faults, .tcm, .out, .cur]
  | .switchSet _ | .lockoutClear _ => [.fwd, .ready, .rings, .faults, .sj, .lsw, .chans, .out, .cur, .free]
  | .inrushWindowEnd _ _ | .channelTrip _ _ _ | .lsSupplyLoss | .lsSupplyRestore | .pwmPeriodStart _ => [.rings, .faults, .sj,
    .lsw, .chans, .out, .cur, .free]
  | .channelRetryWaitEnd _ | .freewheelMissing _ _ => [.rings, .faults, .sj, .lsw, .chans, .out, .cur]
  | .channelRetryClear _ => [.sj, .lsw, .out, .cur]
  | .clampBudgetDrain _ _ => [.lsw, .chans, .out, .cur]
  | .supplyDip _ => [.rings, .faults, .lsw, .out, .cur]
  | .dipEnd => [.rings, .faults, .lsw, .chans, .out, .cur]
  | .lsSelChange _ => [.lsw, .out, .cur]
  | .stringStatus _ => [.fwd, .ready, .out, .cur, .free]
  | .capacitySet _ => [.fwd, .ready, .sj, .sup, .bse, .out, .cur]
  | .bseUpdate => [.rings, .faults, .sj, .bse, .evr, .out, .cur]
  | .restCorrection _ => [.rings, .faults, .sj, .bse, .out, .cur]
  | .estDriftEntry _ => [.rings, .bse, .out, .cur]
  | .bseJournalWrite => [.sj, .out, .cur]
  | .cellEstimate _ _ _ => [.cell, .out, .cur]
  | .cellStateMessage => [.fwd, .ready, .rings, .faults, .lnk, .bse, .cell, .blk, .out, .cur]
  | .cellStateStale => [.bse, .out, .cur]
  | .energyRead _ | .pulseConfig _ _ | .sealBeginOpen _ _ | .sealBeginLoad _ _ | .sealBeginClose _ _ | .sealBeginAbandon _ _ =>
    [.fwd, .ready, .rings, .lnk, .sgm, .mss, .out, .cur]
  | .instantRead _ | .registerRead _ | .creditRead _ | .intervalRead _ | .keyExport _ | .recordRead _ | .logRead _ |
    .shipAuthorise _ _ | .identRead _ => [.fwd, .ready, .rings, .lnk, .mss, .out, .cur]
  | .sgmSample _ | .saggarSupplyLoss _ _ => [.rings, .lnk, .sgm, .meters, .bte, .mss, .out, .cur, .free]
  | .blockEnd => [.sgm, .meters, .bte, .mss, .out, .cur, .free]
  | .channelFault _ _ | .channelFaultClear _ => [.rings, .lnk, .sgm, .bte, .out, .cur]
  | .s0Pulse _ _ _ _ => [.sgm, .meters, .out, .cur]
  | .batteryWindow _ => [.rings, .lnk, .sgm, .meters, .bte, .mss, .out, .cur]
  | .saggarSupplyReturn => [.rings, .lnk, .cell, .sgm, .mss, .out, .cur, .free]
  | .settlingEnd => [.rings, .lnk, .sgm, .out, .cur, .free]
  | .cellCutoff _ => [.rings, .lnk, .cell, .sgm, .bte, .mss, .out, .cur]
  | .periodicSave => [.sgm, .out, .cur]
  | .saggarPowerOn _ _ _ => [.rings, .lnk, .sgm, .meters, .bte, .mss, .seal, .out, .cur, .free]
  | .measurementSummarySend => [.lnk, .sgm, .out, .cur]
  | .measurementSummary | .belfryFrameRx => [.fwd, .ready, .rings, .faults, .lnk, .blk, .out, .cur]
  | .calendarWrite _ _ | .clockSet _ _ | .tokenEnter _ => [.fwd, .ready, .rings, .lnk, .bte, .mss, .out, .cur]
  | .openMessage => [.lnk, .bte, .out, .cur]
  | .closeMessage | .resyncMessage => [.lnk, .bte, .mss, .out, .cur]
  | .intervalClose | .tariffSwitch | .keypadLockoutEnd _ => [.bte, .out, .cur]
  | .periodClose | .calendarActivation _ _ | .midnightSwitchList _ _ | .relayedToken => [.rings, .lnk, .bte, .mss, .out, .cur]
  | .keypadToken _ => [.rings, .lnk, .bte, .mss, .out, .cur, .free]
  | .sealTimeout | .saggarRollback | .coverClose => [.rings, .lnk, .mss, .out, .cur]
  | .shipAuthLapse | .displayLine => [.mss, .out, .cur]
  | .coverOpen => [.rings, .lnk, .mss, .seal, .out, .cur]
  | .opticalRequest _ => [.sgm, .mss, .out, .cur]
  | .nodeSend _ | .nodeJoin _ => [.fwd, .ready, .blk, .out, .cur]
  | .zeroCrossing _ | .zeroCrossingMissed | .belfryRequest | .answerTimeout => [.fwd, .ready, .rings, .faults, .blk, .out, .cur]
  | .windowRead _ _ => [.fwd, .ready, .rings, .tmf, .faults, .sup, .evr, .out, .cur, .free]
  | .evrSample _ | .evrPeriodClose _ | .recordWriteDone | .degradedExtremesSave => [.evr, .out, .cur]
  | .recordWrite _ => [.rings, .tmf, .faults, .sup, .evr, .out, .cur]
  | .evrRestoreDone _ => [.faults, .evr, .out, .cur]
  | .evrRefillDone _ => [.rings, .faults, .evr, .out, .cur]
  | .holdupRunOut => [.rings, .faults, .sj, .sup, .out, .cur]
  | .saggarRestartDone => [.rings, .lnk, .sgm, .bte, .mss, .out, .cur]

variable {π : Part}

/-- A command leaves every part of the state alone that its footprint does not name. -/
theorem exec_part {i : Instr} {s t : State} (hp : π ∉ footprint i) (h : exec i s = .next t) : part π t = part π s := by
  cases i
  all_goals
    simp only [footprint, List.mem_cons, List.not_mem_nil, or_false, not_or] at hp
    obtain rfl := Host.Outcome.next.inj h
    (repeat' split) <;> simp [hp]

end Sys2Proof.Machine
end
section
/-! PROOFS. The queue of waiting commands, the idle step, and what stands apart from whole classes of commands -/

namespace Sys2Proof.Machine

open Sys2Proof

/-- Settles O1: `step` runs the command at the front. -/
theorem frontCommandRuns : Obligations.FrontCommandRuns := by
  intro c rest s h
  simp [step, h]

/-- Settles O59: no channel of the reset state is on or held. -/
theorem loadSwitchesOkAtReset : Obligations.LoadSwitchesOkAtReset := by
  constructor <;> decide

/-- The queue of waiting commands is in no command's footprint. -/
theorem pending_notMem_footprint (i : Instr) : .pending ∉ footprint i := by
  cases i <;> simp [footprint]

/-- `exec` answers a next state for every command. -/
theorem exec_next (i : Instr) (s : State) : ∃ t, exec i s = .next t := by
  cases i <;> exact ⟨_, rfl⟩

/-- Settles O58: every arm of `exec` answers a next state, and no command's footprint names the queue. -/
theorem everyCommandAnswers : Obligations.EveryCommandAnswers := by
  intro i s
  obtain ⟨t, ht⟩ := exec_next i s
  exact ⟨t, ht, exec_part (π := .pending) (pending_notMem_footprint i) ht⟩

/-- No host command's footprint names the accumulators, and none of PF0's names the Saggar's measurement, billing or seal. -/
theorem footprint_hostOf {i : Instr} {op : Nat} {q : Sqe} (h : hostOf i = some (op, q)) :
    .meters ∉ footprint i ∧ (op < 0xA0 → .sgm ∉ footprint i ∧ .bte ∉ footprint i ∧ .mss ∉ footprint i) := by
  cases i <;> simp only [hostOf, reduceCtorEq, Option.some.injEq, Prod.mk.injEq] at h <;> obtain ⟨rfl, -⟩ := h <;>
    simp [footprint]

/-- Settles O31, from the footprints of the host commands. -/
theorem hostCommandsLeaveTheMeasurementAlone : Obligations.HostCommandsLeaveTheMeasurementAlone := by
  intro i op q s t hi he
  obtain ⟨hm, hpf0⟩ := footprint_hostOf hi
  obtain ⟨hacc, hres⟩ := Prod.mk.inj (exec_part (π := .meters) hm he)
  refine ⟨hacc, hres, fun hop => ?_⟩
  obtain ⟨hsgm, hbte, hmss⟩ := hpf0 hop
  exact ⟨exec_part (π := .sgm) hsgm he, exec_part (π := .bte) hbte he, exec_part (π := .mss) hmss he⟩

/-- What holds of the state, of a command's end without effect, and of its body's outcome holds of a host command's outcome. -/
theorem hostCmd_of {P : State → Prop} {op : Nat} {q : Sqe} {ps : List (Bool × Nat × Nat)} {body : State → State} {s : State}
    (hs : P s) (hd : ∀ st r, P ((s.accept q).done q st r)) (hb : P (body (s.accept q))) : P (hostCmd op q ps body s) := by
  rcases hostCmd_cases op q ps body s with ⟨-, h⟩ | ⟨st, r, -, h⟩ | ⟨-, r, -, h⟩ | ⟨-, -, h⟩
  · rw [h]; exact hs
  · rw [h]; exact hd st r
  · rw [h]; exact hd _ r
  · rw [h]; exact hb

/-! ### The idle step -/

/-- The reset state one microsecond before a whole millisecond of the Spire's time. -/
def beforeMillisecond : State := { State.reset with sup := { State.reset.sup with spireTime := 999 } }

/-- Refutes O2: at a whole millisecond the idle step also samples MAIN_12V and the hold-up charge, so two open values are used up
and the state differs beyond the clocks. -/
theorem not_idleStepIsOneMicrosecond : ¬ Obligations.IdleStepIsOneMicrosecond := by
  intro h
  obtain ⟨t, ht, -, -, -, -, -, hrest⟩ := h beforeMillisecond rfl
  have hfree : t.free = 0 := (congrArg State.free hrest).trans rfl
  have htick : t.free = 2 := Host.Outcome.next.inj ht ▸ (by decide : (clockTick beforeMillisecond).free = 2)
  exact absurd (hfree.symm.trans htick) (by decide)

/-! ### Commands turned away -/

/-- A command of the tunnel that fails a check of R515 before its parameters completes like any other. -/
theorem sgReach_turnedAway {op st r : Nat} {q : Sqe} {b : List Byte} {ps : List (Bool × Nat × Nat)}
    {body : State → SgAns × State} {s : State} (h : Owned q s) (hp : preCheck op q s = some (st, r)) :
    sgReach op q b ps body s.start = (s.start.accept q).done q st r := by
  have ha : s.start.arrives q = true := (State.arrives_congr q rfl).trans h.2
  simp [sgReach, ha, preCheck_taken, hp]

/-- A command of the tunnel with a host-to-device buffer is `sgReach` when the buffer was read, and otherwise a `hostCmd`. -/
theorem sgCmdH_turnedAway {op st r : Nat} {q : Sqe} {h : HostRead} {ps : List Byte → List (Bool × Nat × Nat)}
    {body : List Byte → State → SgAns × State} {s : State} (ho : Owned q s) (hp : preCheck op q s = some (st, r)) :
    sgCmdH op q h ps body s.start = (s.start.accept q).done q st r := by
  cases h with
  | error => rw [sgCmdH]; exact hostCmd_turnedAway ho hp
  | data b => rw [sgCmdH]; exact sgReach_turnedAway ho hp

/-- Settles O29: every host command looks at the checks before its parameters first, whichever way it goes on. -/
theorem turnedAwayCommandsChangeNothing : Obligations.TurnedAwayCommandsChangeNothing := by
  intro i op q s st r hi ho hp
  suffices h : exec i s = .next ((s.start.accept q).done q st r) from ⟨_, h, done_onlyCompletes ho.1⟩
  cases i <;> simp only [hostOf, reduceCtorEq, Option.some.injEq, Prod.mk.injEq] at hi <;> obtain ⟨rfl, rfl⟩ := hi
  case energyRead | instantRead | registerRead | tokenEnter | creditRead | intervalRead | keyExport | recordRead | logRead |
      identRead => exact congrArg Host.Outcome.next (sgReach_turnedAway ho hp)
  case pulseConfig | calendarWrite | clockSet | sealBeginOpen | sealBeginLoad | sealBeginClose | sealBeginAbandon |
      shipAuthorise => exact congrArg Host.Outcome.next (sgCmdH_turnedAway ho hp)
  all_goals exact congrArg Host.Outcome.next (hostCmd_turnedAway ho hp)

/-! ### The seal count -/

/-- The seal-event counter of a Saggar that stays fitted has not fallen. -/
def SealKept (s t : State) : Prop := t.mss.serial = s.mss.serial → s.mss.sealCount ≤ t.mss.sealCount

theorem sealKept_congr {s t u : State} (h : part .seal u = part .seal t) (hst : SealKept s t) : SealKept s u := by
  obtain ⟨hserial, hcount⟩ := Prod.mk.inj h
  intro hs
  rw [hcount]
  exact hst (hserial ▸ hs)

theorem sealKept_of_part {s t : State} (h : part .seal t = part .seal s) : SealKept s t :=
  sealKept_congr h fun _ => le_rfl

/-- An opening outside a procedure counts one, on the Saggar that is fitted. -/
@[simp] theorem coverOutside_seal (s : State) : part .seal s.coverOutside = (s.mss.serial, s.mss.sealCount + 1) := by
  simp only [State.coverOutside]
  rw [mssEvent_part (by simp), log_part (by simp)]
  rfl

/-- An opening counts at most one, on the Saggar that is fitted. -/
theorem coverOpen_seal (s : State) :
    part .seal (coverOpen s) = part .seal s ∨ part .seal (coverOpen s) = (s.mss.serial, s.mss.sealCount + 1) := by
  simp only [coverOpen]
  split
  · exact .inl rfl
  · split
    · exact .inl (by simp)
    · split
      · exact .inl (by simp)
      · split
        · refine .inr ?_
          rw [mssEvent_part (by simp), log_part (by simp)]
          rfl
        · exact .inr (coverOutside_seal _)

theorem coverOpen_sealKept (s : State) : SealKept s (coverOpen s) := by
  rcases coverOpen_seal s with h | h
  · exact sealKept_of_part h
  · obtain ⟨-, hcount⟩ := Prod.mk.inj h
    intro _
    rw [hcount]
    exact Nat.le_succ _

/-- A power-on counts at most one opening, on the Saggar that is fitted. -/
theorem saggarPowerOn_seal (ok a b : Bool) (s : State) :
    part .seal (saggarPowerOn ok a b s) = part .seal s ∨
      part .seal (saggarPowerOn ok a b s) = (s.mss.serial, s.mss.sealCount + 1) := by
  unfold saggarPowerOn
  extract_lets endT s0 s1 s2 s3 s4 s5 s6
  have h1 : part .seal s1 = part .seal s := by simp [s1, s0, -List.reduceReplicate]
  have h3 : part .seal s3 = part .seal s := by simp [s3, s2, h1]
  have h5 : part .seal s5 = part .seal s := by simp [s5, s4, h3]
  rw [bteEvent_part (by simp), verifyCal_part (by simp)]
  simp only [s6]
  split
  · obtain ⟨hserial, hcount⟩ := Prod.mk.inj h5
    exact .inr (by rw [coverOutside_seal, hserial, hcount])
  · exact .inl h5

theorem saggarPowerOn_sealKept (ok a b : Bool) (s : State) : SealKept s (saggarPowerOn ok a b s) := by
  rcases saggarPowerOn_seal ok a b s with h | h
  · exact sealKept_of_part h
  · obtain ⟨-, hcount⟩ := Prod.mk.inj h
    intro _
    rw [hcount]
    exact Nat.le_succ _

theorem saggarPowerOn_serial (ok a b : Bool) (s : State) : (saggarPowerOn ok a b s).mss.serial = s.mss.serial := by
  rcases saggarPowerOn_seal ok a b s with h | h <;> exact (Prod.mk.inj h).1

/-- A Saggar fitted in another's place has another serial. -/
theorem fitSaggar_sealKept (n : BitVec 64) (s : State) : SealKept s (s.fitSaggar n) := by
  unfold State.fitSaggar
  split
  · exact fun _ => le_rfl
  next hn =>
    extract_lets other s1
    split
    · exact fun h => absurd h.symm hn
    next x hx =>
      have hserial : x.mss.serial = n := by simpa using List.find?_some hx
      intro h
      rw [saggarPowerOn_serial] at h
      exact absurd (h.symm.trans hserial) hn

/-- A good frame changes the seal only where it brings another Saggar's serial. -/
theorem goodFrame_sealKept (f : SaggarFrame) (s : State) : SealKept s (s.goodFrame f) := by
  unfold State.goodFrame
  extract_lets s0 s1 s2 s3
  have h0 : SealKept s s0 := by
    simp only [s0]
    split
    next n _ _ => exact sealKept_congr (t := s.fitSaggar n) (by simp [State.meetSerial]) (fitSaggar_sealKept n s)
    · exact fun _ => le_rfl
  have h1 : part .seal s1 = part .seal s0 := onLnk_part (by simp) _ s0
  have h3 : part .seal s3 = part .seal s0 := by
    simp only [s3]
    (repeat' split) <;> simp [s2, h1]
  refine sealKept_congr (t := s0) ?_ h0
  split <;> simp [h3]

theorem linkFrame_sealKept (f : SaggarFrame) (s : State) : SealKept s (linkFrame f s) := by
  unfold linkFrame
  split
  · exact fun _ => le_rfl
  · split
    · exact goodFrame_sealKept f s
    · exact sealKept_of_part (badFrame_part (by simp) f s)

/-- A command on whose Saggar no cover opens, none powers on and none is exchanged leaves the seal alone. -/
theorem exec_sealKept {i : Instr} {s t : State} (h : exec i s = .next t) : SealKept s t := by
  cases i
  case saggarLinkFrame f => exact Host.Outcome.next.inj h ▸ linkFrame_sealKept f s.start
  case saggarPowerOn ok a b => exact Host.Outcome.next.inj h ▸ saggarPowerOn_sealKept ok a b s.start
  case coverOpen => exact Host.Outcome.next.inj h ▸ coverOpen_sealKept s.start
  all_goals exact sealKept_of_part (exec_part (π := .seal) (by simp [footprint]) h)

/-- Settles O23: only an opening of the cover, a power-on and another Saggar change the seal. -/
theorem sealCountNeverFalls : Obligations.SealCountNeverFalls := by
  intro s t h
  unfold step at h
  split at h
  · cases h
    exact sealKept_of_part (clockTick_part (by simp) s)
  next c rest _ => exact exec_sealKept (s := { s with pending := rest }) h

end Sys2Proof.Machine
end
section
/-! PROOFS. References and limits change only at the setpoint gate (R12) -/

namespace Sys2Proof.Machine

open Sys2Proof

/-- A gate bank is another with each of its two values kept or 0. -/
def BankDrop (a b : Int × Nat) : Prop := (b.1 = a.1 ∨ b.1 = 0) ∧ (b.2 = a.2 ∨ b.2 = 0)

theorem BankDrop.refl (a : Int × Nat) : BankDrop a a := ⟨.inl rfl, .inl rfl⟩

theorem BankDrop.of_zero {a b : Int × Nat} (h : b = (0, 0)) : BankDrop a b := ⟨.inr (by simp [h]), .inr (by simp [h])⟩

/-- Every reference and every limit in force is kept or 0. -/
def BanksDrop (s t : State) : Prop := ∀ g, BankDrop (part .banks s g) (part .banks t g)

theorem banksDrop_of_part {s t : State} (h : part .banks t = part .banks s) : BanksDrop s t := fun _ => h ▸ BankDrop.refl _

theorem banksDrop_congr {s s' t t' : State} (hs : part .banks s = part .banks s') (ht : part .banks t = part .banks t')
    (h : BanksDrop s' t') : BanksDrop s t := fun g => by rw [hs, ht]; exact h g

/-! ### Admissions -/

/-- The gate bank of a lane. -/
abbrev KGroup.bank (k : KGroup) : Int × Nat := (k.bankRef, k.bankLim)

/-- An admission keeps a lane's gate bank, or clears it where the group is no longer configured, or its reference where the group starts
anew. -/
theorem admitLane_bankDrop (old new : Cfg) (keep leaving held : Bool) (g : Nat) (k : KGroup) :
    BankDrop k.bank (admitLane old new keep leaving held g k).bank := by
  unfold admitLane
  split
  · exact .of_zero rfl
  · dsimp only
    split
    · split <;> exact .refl _
    · split
      · exact ⟨.inr rfl, .inl rfl⟩
      · exact .refl _

theorem admitGroups_banksDrop (old new : Cfg) (entry leaving : Bool) (s : State) :
    BanksDrop s (s.admitGroups old new entry leaving) := by
  unfold State.admitGroups
  extract_lets j keep s1 s2 s3 gone s4 s5
  refine banksDrop_congr (s' := s) (t' := s2) rfl ?_ fun g => ?_
  · have h3 : part .banks s3 = part .banks s2 := by simp only [s3]; split <;> simp
    simp [s5, s4, h3]
  · have h1 : s1.kce = s.kce := rfl
    simp only [part, Kce.banks, s2, State.onKce_kce, h1, List.getD_eq_getElem?_getD, List.getElem?_mapIdx]
    cases s.kce.groups[g]? with
    | none => exact .refl _
    | some k => exact admitLane_bankDrop ..

theorem putInForce_banksDrop (new : Cfg) (entry leaving : Bool) (s : State) : BanksDrop s (s.putInForce new entry leaving) := by
  unfold State.putInForce
  extract_lets old keep s1 s2 s3 s4 s5 s6 s7 s8 s9
  have h3 : part .banks s3 = part .banks s := by
    have h2 : part .banks s2 = part .banks s1 := by simp [s2]
    simp [s3, h2, s1]
  have h4 : part .banks s4 = part .banks (s3.admitGroups old new entry leaving) := admitSync_part (by simp) ..
  have h9 : part .banks s9 = part .banks s4 := by simp only [s9, s8, s7]; split <;> simp [s6, s5]
  refine banksDrop_congr h3.symm ?_ (admitGroups_banksDrop old new entry leaving s3)
  split <;> simp [h9, h4]

theorem admitCommit_banksDrop (s : State) : BanksDrop s s.admitCommit := by
  unfold State.admitCommit
  split
  · dsimp only
    split
    · exact banksDrop_of_part (by simp)
    · refine banksDrop_congr ?_ rfl (putInForce_banksDrop _ false _ _)
      simp
  · exact banksDrop_of_part rfl

theorem epochBoundary_banksDrop (bad : List Nat) (s : State) : BanksDrop s (epochBoundary bad s) := by
  unfold epochBoundary
  split
  · exact banksDrop_of_part rfl
  · exact banksDrop_congr (by simp) (by simp) (admitCommit_banksDrop s.startQuants.endAdmission)

theorem enterBisque_banksDrop (s : State) : BanksDrop s s.enterBisque :=
  banksDrop_congr (by simp) rfl (putInForce_banksDrop s.sup.bisqueCfg true false _)

theorem bisqueEntry_banksDrop (bad : Option Nat) (s : State) : BanksDrop s (bisqueEntry bad s) := by
  unfold bisqueEntry
  (repeat' split)
  case h_2 => exact enterBisque_banksDrop s
  all_goals exact banksDrop_of_part (by simp)

/-- A host command drops no more than its body does. -/
theorem hostCmd_banksDrop {op : Nat} {q : Sqe} {ps : List (Bool × Nat × Nat)} {body : State → State}
    (hb : ∀ s, BanksDrop s (body s)) (s : State) : BanksDrop s (hostCmd op q ps body s) :=
  hostCmd_of (banksDrop_of_part rfl) (fun _ _ => banksDrop_of_part (by simp))
    (banksDrop_congr (by simp) rfl (hb (s.accept q)))

theorem bisqueEnter_banksDrop (q : Sqe) (s : State) :
    BanksDrop s (hostCmd 0x92 q [] (fun s => s.enterBisque.done q stDONE 0) s) :=
  hostCmd_banksDrop (fun s => banksDrop_congr rfl (by simp) (enterBisque_banksDrop s)) s

/-! ### The reset of the main die -/

/-- The reset of the main die leaves every gate bank 0. -/
@[simp] theorem islandsReset_banks (s : State) : part .banks s.islandsReset = fun _ => (0, 0) := by
  funext g
  simp only [part, State.islandsReset, Kce.banks, Kce.reset, List.getD_eq_getElem?_getD, List.getElem?_replicate]
  split <;> rfl

@[simp] theorem mainReset_banks (cause : Nat) (s : State) : part .banks (s.mainReset cause) = fun _ => (0, 0) :=
  islandsReset_banks _

theorem banksDrop_of_zero {s t : State} (h : part .banks t = fun _ => (0, 0)) : BanksDrop s t :=
  fun g => .of_zero (congrFun h g)

theorem watchdogMiss_banksDrop (n : Nat) (s : State) : BanksDrop s (watchdogMiss n s) := by
  unfold watchdogMiss
  split
  · exact banksDrop_of_part rfl
  · exact banksDrop_of_zero (by simp)

theorem deviceResetOrder_banksDrop (s : State) : BanksDrop s (deviceResetOrder s) := by
  unfold deviceResetOrder
  split
  · exact banksDrop_of_zero (by simp)
  · exact banksDrop_of_part rfl

theorem restartReset_banksDrop (s : State) : BanksDrop s (restartReset s) := by
  unfold restartReset
  split
  · exact banksDrop_of_zero (by simp)
  · exact banksDrop_of_part rfl

theorem powerFail_banksDrop (s : State) : BanksDrop s (powerFail s) := by
  unfold powerFail
  split
  · exact banksDrop_of_part rfl
  · exact banksDrop_of_zero (by simp)

/-! ### Releases -/

/-- A group's release keeps the banks of the other groups and its own limit, and keeps its own reference or makes it 0. -/
def ReleaseKeeps (g : Nat) (s t : State) : Prop :=
  ∀ n, ((t.lane n).bankRef = (s.lane n).bankRef ∨ (n = g ∧ (t.lane n).bankRef = 0)) ∧ (t.lane n).bankLim = (s.lane n).bankLim

theorem releaseKeeps_congr {g : Nat} {s s' t t' : State} (hs : part .banks s = part .banks s') (ht : part .banks t = part .banks t')
    (h : ReleaseKeeps g s' t') : ReleaseKeeps g s t := by
  intro n
  obtain ⟨hsr, hsl⟩ := Prod.mk.inj (congrFun hs n)
  obtain ⟨htr, htl⟩ := Prod.mk.inj (congrFun ht n)
  obtain ⟨hr, hl⟩ := h n
  exact ⟨hr.imp (fun h => htr.trans (h.trans hsr.symm)) (And.imp_right htr.trans), htl.trans (hl.trans hsl.symm)⟩

theorem releaseKeeps_refl (g : Nat) (s : State) : ReleaseKeeps g s s := fun _ => ⟨.inl rfl, rfl⟩

theorem unholdLane_releaseKeeps (g : Nat) (s : State) : ReleaseKeeps g s (s.unholdLane g) := by
  intro n
  simp only [State.lane, State.unholdLane, State.onLane_kce, upd, List.getD_eq_getElem?_getD, List.getElem?_modify]
  cases s.kce.groups[n]? with
  | none => exact ⟨.inl rfl, rfl⟩
  | some k =>
    by_cases hn : g = n
    · exact ⟨.inr ⟨hn.symm, by simp [hn]⟩, by simp [hn]⟩
    · simp [hn]

theorem groupRelease_releaseKeeps (q : Sqe) (s : State) : ReleaseKeeps (sd q 1) s (groupRelease q s) := by
  unfold groupRelease
  extract_lets g d p
  split
  · exact releaseKeeps_congr rfl (by simp) (releaseKeeps_refl _ s)
  next m _ =>

    extract_lets hs lost1 av1 p1 s1 s2 s3 s4

    split
    · exact releaseKeeps_congr rfl (by simp) (releaseKeeps_refl _ s)
    · split
      · exact releaseKeeps_congr rfl (by simp) (releaseKeeps_refl _ s)
      · have h1 : part .banks s1 = part .banks s := by simp [s1]
        have h3 : part .banks s3 = part .banks s2 := by simp only [s3]; split <;> simp
        refine releaseKeeps_congr (s' := s1) (t' := s2) h1.symm (by simp [s4, h3]) ?_
        simp only [s2]
        split
        · exact unholdLane_releaseKeeps _ s1
        · exact releaseKeeps_refl _ s1

theorem hostCmd_releaseKeeps {op g : Nat} {q : Sqe} {ps : List (Bool × Nat × Nat)} {body : State → State}
    (hb : ∀ s, ReleaseKeeps g s (body s)) (s : State) : ReleaseKeeps g s (hostCmd op q ps body s) :=
  hostCmd_of (releaseKeeps_refl g s) (fun _ _ => releaseKeeps_congr rfl (by simp) (releaseKeeps_refl g s))
    (releaseKeeps_congr (by simp) rfl (hb (s.accept q)))

/-- A GROUP_RELEASE keeps every limit, and every reference but its own group's. -/
theorem exec_groupRelease_releaseKeeps {q : Sqe} {s t : State} (h : exec (.groupRelease q) s = .next t) :
    ReleaseKeeps (sd q 1) s t := by
  obtain rfl := Host.Outcome.next.inj h
  exact releaseKeeps_congr rfl rfl (hostCmd_releaseKeeps (groupRelease_releaseKeeps q) s.start)

/-! ### Every command -/

/-- Beside the setpoint gate a command keeps every reference and limit or makes it 0. -/
theorem exec_banksDrop {i : Instr} {s t : State} (h : exec i s = .next t) (hi : ∀ bad, i ≠ .setpointGate bad) : BanksDrop s t := by
  cases i
  case setpointGate bad => exact absurd rfl (hi bad)
  case epochBoundary bad => exact Host.Outcome.next.inj h ▸ epochBoundary_banksDrop bad s.start
  case bisqueEnter q => exact Host.Outcome.next.inj h ▸ bisqueEnter_banksDrop q s.start
  case bisqueEntry bad => exact Host.Outcome.next.inj h ▸ bisqueEntry_banksDrop bad s.start
  case watchdogMiss n => exact Host.Outcome.next.inj h ▸ watchdogMiss_banksDrop n s.start
  case deviceResetOrder => exact Host.Outcome.next.inj h ▸ deviceResetOrder_banksDrop s.start
  case updateRestartReset => exact Host.Outcome.next.inj h ▸ restartReset_banksDrop s.start
  case powerFail => exact Host.Outcome.next.inj h ▸ powerFail_banksDrop s.start
  case groupRelease q =>
    intro g
    obtain ⟨hr, hl⟩ := exec_groupRelease_releaseKeeps h g
    exact ⟨hr.imp_right And.right, .inl hl⟩
  all_goals exact banksDrop_of_part (exec_part (π := .banks) (by simp [footprint]) h)

/-- Settles O30. -/
theorem referencesChangeOnlyAtTheGate : Obligations.ReferencesChangeOnlyAtTheGate := by
  intro i s t h hi
  refine ⟨exec_banksDrop h hi, ?_, ?_⟩
  · rintro q rfl g
    obtain ⟨hr, hl⟩ := exec_groupRelease_releaseKeeps h g
    exact ⟨hl, fun hg => hr.resolve_right fun h => hg h.1⟩
  · intro h1 h2 h3 h4 h5 h6 h7 h8 g
    have hp : part .banks t = part .banks s := by
      refine exec_part ?_ h
      cases i <;> simp_all [footprint]
    exact Prod.mk.inj (congrFun hp g)

end Sys2Proof.Machine
end
section
/-! PROOFS. What every step keeps of the load switches (R296, R301), and the invariant at reset. -/

namespace Sys2Proof.Machine

open Sys2Proof

/-! ### The invariant as a property of the marks -/

/-- A channel state whose output is on (Table 11-8). -/
def LSt.outOn (x : LSt) : Bool := x = .inrush || x = .on || x = .pwm

/-- At most four marks in INRUSH (R296), and every held mark with its output off (R301). -/
def MarksOk (l : List (LSt × Bool)) : Prop :=
  l.countP (fun m => m.1 = .inrush) ≤ 4 ∧ ∀ m ∈ l, m.2 = true → m.1.outOn = false

/-- The load-switch invariant, as a property of the part `chans`. -/
abbrev SwitchesOk (s : State) : Prop := MarksOk (part .chans s)

theorem loadSwitchesOk_iff (s : State) : LoadSwitchesOk s ↔ SwitchesOk s := by
  simp only [LoadSwitchesOk, SwitchesOk, MarksOk, part, Lsw.marks, List.countP_eq_length_filter, List.filter_map, List.length_map,
    List.forall_mem_map]
  rfl

theorem switchesOk_congr {s t : State} (h : part .chans t = part .chans s) (hs : SwitchesOk s) : SwitchesOk t := by
  unfold SwitchesOk
  rwa [h]

/-- Changing one entry of a list adds at most one to a count, and nothing where the new value counts only if the old one did. -/
theorem countP_modify_le {α : Type} (p : α → Bool) (f : α → α) (l : List α) (n : Nat) :
    (l.modify n f).countP p ≤ l.countP p + 1 := by
  induction l generalizing n with
  | nil => simp
  | cons a l ih =>
    cases n with
    | zero => simp only [List.modify_zero_cons, List.countP_cons]; split <;> split <;> omega
    | succ n => simp only [List.modify_succ_cons, List.countP_cons]; have := ih n; omega

theorem countP_modify_le_of {α : Type} (p : α → Bool) (f : α → α) (l : List α) (n : Nat)
    (h : ∀ a, l[n]? = some a → p (f a) = true → p a = true) : (l.modify n f).countP p ≤ l.countP p := by
  induction l generalizing n with
  | nil => simp
  | cons a l ih =>
    cases n with
    | zero =>
      simp only [List.modify_zero_cons, List.countP_cons]
      cases hf : p (f a) with
      | false => simp
      | true => simp [h a rfl hf]
    | succ n => simp only [List.modify_succ_cons, List.countP_cons]; have := ih n (by simpa using h); omega

/-! ### One channel changed -/

theorem ch_of_getElem? {s : State} {n : Nat} {c : LChan} (h : s.lsw.chans[n]? = some c) : s.ch n = c := by
  simp [State.ch, h]

/-- The invariant with the hold of channel `n` left out: TCM has just taken it, and its output is about to turn off. -/
def SwitchesOkBut (n : Nat) (s : State) : Prop :=
  s.lsw.inrushing ≤ 4 ∧ ∀ i c, i ≠ n → s.lsw.chans[i]? = some c → c.held = true → c.outOn = false

theorem SwitchesOk.but {s : State} (hs : SwitchesOk s) (n : Nat) : SwitchesOkBut n s := by
  obtain ⟨hc, hh⟩ := (loadSwitchesOk_iff s).mpr hs
  exact ⟨hc, fun i c _ hi => hh c (List.mem_of_getElem? hi)⟩

/-- A channel that TCM holds is off. -/
theorem SwitchesOk.not_held {s : State} (hs : SwitchesOk s) {n : Nat} (ho : (s.ch n).outOn = true) : (s.ch n).held = false := by
  obtain ⟨-, hh⟩ := (loadSwitchesOk_iff s).mpr hs
  cases hx : s.lsw.chans[n]? with
  | none => simp [State.ch, hx, LChan.reset]
  | some c =>
    rw [ch_of_getElem? hx] at ho ⊢
    cases hc : c.held with
    | false => rfl
    | true => exact absurd (hh c (List.mem_of_getElem? hx) hc) (by simp [ho])

/-- A channel changed brings the invariant when a held one is left with its output off, and one enters INRUSH only while fewer than
four are in it. -/
theorem SwitchesOkBut.onCh {s : State} {n : Nat} {f : LChan → LChan} (hs : SwitchesOkBut n s)
    (h1 : (f (s.ch n)).held = true → (f (s.ch n)).outOn = false)
    (h2 : (f (s.ch n)).st = .inrush → (s.ch n).st = .inrush ∨ s.lsw.inrushing < 4) : SwitchesOk (s.onCh n f) := by
  rw [← loadSwitchesOk_iff]
  obtain ⟨hc, hh⟩ := hs
  simp only [Lsw.inrushing, ← List.countP_eq_length_filter] at hc h2
  constructor
  · simp only [State.onCh_lsw, upd, ← List.countP_eq_length_filter]
    by_cases h4 : s.lsw.chans.countP (fun c => decide (c.st = .inrush)) < 4
    · exact (countP_modify_le _ f _ n).trans h4
    · refine (countP_modify_le_of _ f _ n fun c hn hi => ?_).trans hc
      rw [ch_of_getElem? hn] at h2
      simpa using (h2 (by simpa using hi)).resolve_right h4
  · intro c hm
    obtain ⟨i, hi⟩ := List.mem_iff_getElem?.mp hm
    rw [State.onCh_lsw, upd, List.getElem?_modify, Option.map_eq_map, Option.map_eq_some_iff] at hi
    obtain ⟨x, hx, rfl⟩ := hi
    by_cases hni : n = i
    · subst hni
      simpa [ch_of_getElem? hx] using h1
    · simpa [hni] using hh i x (Ne.symm hni) hx

theorem SwitchesOk.onCh {s : State} {n : Nat} {f : LChan → LChan} (hs : SwitchesOk s)
    (h1 : (f (s.ch n)).held = true → (f (s.ch n)).outOn = false)
    (h2 : (f (s.ch n)).st = .inrush → (s.ch n).st = .inrush ∨ s.lsw.inrushing < 4) : SwitchesOk (s.onCh n f) :=
  (hs.but n).onCh h1 h2

/-- A channel whose output is off after the change. -/
theorem SwitchesOkBut.onCh_off {s : State} {n : Nat} {f : LChan → LChan} (hs : SwitchesOkBut n s)
    (h : (f (s.ch n)).outOn = false) : SwitchesOk (s.onCh n f) :=
  hs.onCh (fun _ => h) (fun hi => by simp [LChan.outOn, hi] at h)

theorem SwitchesOk.onCh_off {s : State} {n : Nat} {f : LChan → LChan} (hs : SwitchesOk s)
    (h : (f (s.ch n)).outOn = false) : SwitchesOk (s.onCh n f) :=
  (hs.but n).onCh_off h

/-- A channel changed beside its state and its hold. -/
theorem SwitchesOk.onCh_marks {s : State} {n : Nat} {f : LChan → LChan} (hs : SwitchesOk s)
    (h : ∀ c, (f c).st = c.st ∧ (f c).held = c.held) : SwitchesOk (s.onCh n f) :=
  switchesOk_congr (onCh_part (by simp) (.inr h) n s) hs

theorem driveCh_switchesOk {s : State} (hs : SwitchesOk s) (n : Nat) (on : Bool) : SwitchesOk (s.driveCh n on) :=
  switchesOk_congr (driveCh_part (by simp) n on s) hs

/-- With every output off the invariant holds. -/
theorem switchesOk_of_off {s : State} (h : ∀ c ∈ s.lsw.chans, c.outOn = false) : SwitchesOk s := by
  rw [← loadSwitchesOk_iff]
  refine ⟨?_, fun c hc _ => h c hc⟩
  have h0 : s.lsw.chans.filter (fun c => decide (c.st = .inrush)) = [] :=
    List.filter_eq_nil_iff.mpr fun c hc hi => by
      have := h c hc
      simp [LChan.outOn, of_decide_eq_true hi] at this
  simp [h0]

/-- An operation repeated over a list keeps the invariant when each run does. -/
theorem foldl_switchesOk {α : Type} {f : State → α → State} (h : ∀ s x, SwitchesOk s → SwitchesOk (f s x)) (l : List α) {s : State}
    (hs : SwitchesOk s) : SwitchesOk (l.foldl f s) :=
  List.foldlRecOn l f hs fun s hs x _ => h s x hs

/-! ### Turning on and off -/

/-- Nothing defers an on-order only while fewer than four channels are in INRUSH (R296). -/
theorem inrushing_lt_of_deferCause {s : State} {n : Nat} (h : s.deferCause n = 0) : s.lsw.inrushing < 4 := by
  unfold State.deferCause at h
  dsimp only at h
  (repeat' split at h) <;> omega

theorem turnOn_switchesOk {s : State} (hs : SwitchesOk s) (n : Nat) : SwitchesOk (s.turnOn n) := by
  unfold State.turnOn
  split
  · exact hs.onCh_off rfl
  next hh =>
    dsimp only
    split
    · exact hs.onCh_off rfl
    next hd =>
      refine driveCh_switchesOk (hs.onCh (fun h => ?_) fun _ => .inr (inrushing_lt_of_deferCause (by simpa using hd))) n true
      exact absurd (Or.inl h) hh

theorem takeDeferred_switchesOk {s : State} (hs : SwitchesOk s) : SwitchesOk s.takeDeferred := by
  refine foldl_switchesOk (fun s n hs => ?_) _ hs
  split
  · exact turnOn_switchesOk hs n
  · exact hs

theorem lockCh_switchesOk {s : State} (hs : SwitchesOk s) (n cause sub arg code : Nat) :
    SwitchesOk (s.lockCh n cause sub arg code) := by
  unfold State.lockCh
  exact switchesOk_congr (by simp) (hs.onCh_off (n := n) (f := fun c => { c with
    st := .lockout, cause := cause, retryAt := none, frozen := none, defer := 0, dApp := 0 }) rfl)

theorem clampEnergy_switchesOk {s : State} (hs : SwitchesOk s) (n : Nat) : SwitchesOk (s.clampEnergy n) := by
  unfold State.clampEnergy
  dsimp only
  split
  · exact hs
  · have h1 : SwitchesOk (s.took.onCh n fun c => { c with budget := c.budget + Config.freeNat s.free * 100, eLast := Config.freeNat s.free }) :=
      switchesOk_congr (by simp) hs
    split
    · exact lockCh_switchesOk h1 ..
    · exact h1

/-- An output turned off brings the invariant, whether or not TCM held the channel. -/
theorem SwitchesOkBut.turnOff {s : State} {n : Nat} (hs : SwitchesOkBut n s) {st : LSt} (h : st.outOn = false) :
    SwitchesOk (s.turnOff n st) := by
  unfold State.turnOff
  have h1 : SwitchesOk (s.onCh n fun c => { c with st := st, dApp := 0, defer := 0 }) := hs.onCh_off h
  exact clampEnergy_switchesOk (driveCh_switchesOk h1 n false) n

theorem turnOff_switchesOk {s : State} (hs : SwitchesOk s) (n : Nat) {st : LSt} (h : st.outOn = false) :
    SwitchesOk (s.turnOff n st) :=
  (hs.but n).turnOff h

/-! ### Orders and holds -/

theorem applyOrder_switchesOk {s : State} (hs : SwitchesOk s) (n : Nat) : SwitchesOk (s.applyOrder n) := by
  unfold State.applyOrder
  dsimp only
  split
  · exact hs
  · split
    · exact hs
    · exact turnOn_switchesOk hs n
  · split
    · exact hs.onCh_off rfl
    · exact hs
  · split
    · exact hs.onCh_off rfl
    · exact hs
  · split
    · exact takeDeferred_switchesOk (turnOff_switchesOk hs n rfl)
    · exact hs
  next hst =>
    have hn := hs.not_held (n := n) (by simp [LChan.outOn, hst])
    split
    · exact turnOff_switchesOk hs n rfl
    · split
      · exact hs.onCh (by simp [hn]) (by simp)
      · exact hs
  next hst =>
    have hn := hs.not_held (n := n) (by simp [LChan.outOn, hst])
    split
    · exact turnOff_switchesOk hs n rfl
    · split
      · exact hs.onCh (by simp [hn]) (by simp)
      · exact hs

theorem orderCh_switchesOk {s : State} (hs : SwitchesOk s) (n mode duty : Nat) : SwitchesOk (s.orderCh n mode duty) := by
  unfold State.orderCh
  have h1 : SwitchesOk (s.onCh n fun c => { c with order := mode, duty := duty }) := hs.onCh_marks fun _ => ⟨rfl, rfl⟩
  exact applyOrder_switchesOk h1 n

/-- Orders given to channels one after another keep the invariant. -/
theorem foldl_orderCh_switchesOk {s : State} (hs : SwitchesOk s) (mode duty : Nat → Nat) (l : List Nat) :
    SwitchesOk (l.foldl (fun s n => s.orderCh n (mode n) (duty n)) s) :=
  foldl_switchesOk (fun _ n hs => orderCh_switchesOk hs n _ _) l hs

/-- A channel whose hold alone changes keeps its output, and the other channels their marks. -/
theorem SwitchesOk.onCh_hold {s : State} {n : Nat} {f : LChan → LChan} (hs : SwitchesOk s) (h : ∀ c, (f c).st = c.st) :
    SwitchesOkBut n (s.onCh n f) := by
  obtain ⟨hc, hh⟩ := hs.but n
  constructor
  · simp only [Lsw.inrushing, State.onCh_lsw, upd, ← List.countP_eq_length_filter] at hc ⊢
    exact (countP_modify_le_of _ f _ n fun c _ hi => by simpa [h] using hi).trans hc
  · intro i c hi hx
    exact hh i c hi (by simpa [upd, List.getElem?_modify, hi.symm] using hx)

theorem holdCh_switchesOk {s : State} (hs : SwitchesOk s) (n : Nat) (on : Bool) : SwitchesOk (s.holdCh n on) := by
  unfold State.holdCh
  extract_lets c s1 s2
  split
  · exact hs
  · split
    · split
      · have h1 : SwitchesOkBut n s1 := hs.onCh_hold fun _ => rfl
        exact takeDeferred_switchesOk (h1.turnOff rfl)
      next ho =>
        have h1 : SwitchesOk s1 := hs.onCh (fun _ => by simpa [LChan.outOn] using ho) .inl
        split
        · exact h1.onCh_off rfl
        · exact h1
    · have h2 : SwitchesOk s2 := hs.onCh (by simp) .inl
      split
      · exact h2.onCh_marks fun _ => ⟨rfl, rfl⟩
      · exact applyOrder_switchesOk h2 n

/-! ### Trips, retries, supply and PWM -/

theorem tripCh_switchesOk {s : State} (hs : SwitchesOk s) (n cause ma : Nat) : SwitchesOk (s.tripCh n cause ma) := by
  unfold State.tripCh
  extract_lets old s0 s1 s2
  have h0 : SwitchesOk s0 := hs.onCh_marks fun _ => ⟨rfl, rfl⟩
  split
  · have h1 : SwitchesOk (s0.onCh n fun c => { c with order := 0 }) := h0.onCh_marks fun _ => ⟨rfl, rfl⟩
    exact turnOff_switchesOk h1 n rfl
  · have h1 : SwitchesOk (s0.onCh n fun c => { c with cause := cause }) := h0.onCh_marks fun _ => ⟨rfl, rfl⟩
    split
    · exact switchesOk_congr (by simp) (turnOff_switchesOk h1 n (st := .off) rfl)
    · have h2 : SwitchesOk s2 := (turnOff_switchesOk h1 n rfl).onCh_marks fun c => by split <;> exact ⟨rfl, rfl⟩
      exact takeDeferred_switchesOk (switchesOk_congr (by simp) h2)

theorem inrushEnd_switchesOk {s : State} (hs : SwitchesOk s) (n : Nat) (limiting : Bool) : SwitchesOk (inrushEnd n limiting s) := by
  unfold inrushEnd
  split
  · exact hs
  next hst =>
    split
    · exact tripCh_switchesOk hs ..
    · have hn := hs.not_held (n := n) (by simp [LChan.outOn, not_not.mp hst])
      refine takeDeferred_switchesOk (hs.onCh (fun h => ?_) fun h => ?_)
      · split at h <;> simp [hn] at h
      · exact .inl (not_not.mp hst)

theorem channelTrip_switchesOk {s t : State} {n : Nat} {cause : TripCause} {ma : Nat} (hs : SwitchesOk s)
    (h : exec (.channelTrip n cause ma) s = .next t) : SwitchesOk t := by
  obtain rfl := Host.Outcome.next.inj h
  have h0 : SwitchesOk s.start := hs
  cases cause
  all_goals
    dsimp only
    split
    · exact tripCh_switchesOk h0 ..
    · exact h0

theorem retryWaitEnd_switchesOk {s : State} (hs : SwitchesOk s) (n : Nat) : SwitchesOk (retryWaitEnd n s) := by
  unfold retryWaitEnd
  dsimp only
  split
  · exact hs
  · split
    · exact turnOn_switchesOk (switchesOk_congr (by simp) hs) n
    · exact lockCh_switchesOk hs ..

theorem freewheelMissing_switchesOk {s : State} (hs : SwitchesOk s) (n : Nat) (mv : Int) : SwitchesOk (freewheelMissing n mv s) := by
  unfold freewheelMissing
  dsimp only
  split
  · exact hs
  · split
    · exact driveCh_switchesOk (lockCh_switchesOk hs ..) n false
    · exact lockCh_switchesOk hs ..

theorem clampDrain_switchesOk {s : State} (hs : SwitchesOk s) (vsup : Nat) (currents : List Nat) :
    SwitchesOk (clampDrain vsup currents s) := by
  unfold clampDrain
  extract_lets s1 s2
  have h2 : SwitchesOk s2 := by
    refine switchesOk_congr ((resense_part (by simp) s s1).trans (onLsw_part (by simp) (.inr fun l => ?_) s)) hs
    refine List.ext_getElem? fun i => ?_
    simp only [Lsw.marks, List.getElem?_map, List.getElem?_mapIdx, Option.map_map]
    rfl
  split
  · exact takeDeferred_switchesOk h2
  · exact h2

theorem dipEnd_switchesOk {s : State} (hs : SwitchesOk s) : SwitchesOk (dipEnd s) := by
  unfold dipEnd
  split
  · exact hs
  · exact takeDeferred_switchesOk (switchesOk_congr (by simp) hs)

/-- With no supply every channel is off (R305). -/
theorem supplyLoss_switchesOk {s : State} (hs : SwitchesOk s) : SwitchesOk (supplyLoss s) := by
  unfold supplyLoss
  split
  · exact hs
  · extract_lets s1 s2 s3
    have h3 : ∀ c ∈ s3.lsw.chans, c.outOn = false := by
      simp only [s3, State.onLsw_lsw, List.forall_mem_map]
      intro c _
      split
      next hc => simp [LChan.outOn, hc]
      · rfl
    exact switchesOk_congr (resense_part (by simp) s s3) (switchesOk_of_off h3)

theorem supplyRestore_switchesOk {s : State} (hs : SwitchesOk s) : SwitchesOk (supplyRestore s) := by
  unfold supplyRestore
  split
  · exact hs
  · dsimp only
    have h1 : SwitchesOk (s.resense ((dipEnd s).onLsw fun l => { l with supply := 0, lostAt := none })) :=
      switchesOk_congr (by simp) (dipEnd_switchesOk hs)
    split
    · exact foldl_switchesOk (fun s n hs => applyOrder_switchesOk hs n) _ (switchesOk_congr (by simp) h1)
    · exact h1

theorem pwmPeriod_switchesOk {s : State} (hs : SwitchesOk s) (n : Nat) : SwitchesOk (pwmPeriod n s) := by
  unfold pwmPeriod
  extract_lets c s1
  split
  · exact hs
  · have h1 : SwitchesOk s1 := by
      simp only [s1]
      split
      · exact clampEnergy_switchesOk hs n
      · exact hs
    split
    · exact h1.onCh_marks fun _ => ⟨rfl, rfl⟩
    · exact driveCh_switchesOk h1 n false

theorem switchSet_switchesOk {s : State} (hs : SwitchesOk s) (q : Sqe) : SwitchesOk (switchSet q s) := by
  unfold switchSet
  extract_lets n d s1
  have h1 : SwitchesOk s1 := orderCh_switchesOk hs ..
  split
  · exact switchesOk_congr (by simp) hs
  · split <;> exact switchesOk_congr (by simp) h1

theorem unlockCh_switchesOk {s : State} (hs : SwitchesOk s) (n : Nat) : SwitchesOk (s.unlockCh n) := by
  unfold State.unlockCh
  have h1 : SwitchesOk (s.onCh n fun c => { c with st := .off, retries := 0 }) := hs.onCh_off rfl
  exact applyOrder_switchesOk (switchesOk_congr (by simp) h1) n

theorem lockoutClear_switchesOk {s : State} (hs : SwitchesOk s) (q : Sqe) : SwitchesOk (lockoutClear q s) := by
  unfold lockoutClear
  dsimp only
  (repeat' split)
  · exact switchesOk_congr (done_part (by simp) ..) (foldl_switchesOk (fun s n hs => unlockCh_switchesOk hs n) _ hs)
  · exact switchesOk_congr (by simp) hs
  · exact switchesOk_congr (by simp) hs
  · exact switchesOk_congr (done_part (by simp) ..) (unlockCh_switchesOk hs _)

/-! ### Thermal management -/

theorem tcmHolds_switchesOk {s : State} (hs : SwitchesOk s) : SwitchesOk s.tcmHolds :=
  foldl_switchesOk (fun _ n hs => holdCh_switchesOk hs n _) _ hs

theorem tcmHoldsBegin_switchesOk {s : State} (hs : SwitchesOk s) : SwitchesOk s.tcmHoldsBegin := by
  refine foldl_switchesOk (fun s n hs => ?_) _ hs
  split
  · exact holdCh_switchesOk hs n true
  · exact hs

theorem aqOrder_switchesOk {s : State} (hs : SwitchesOk s) (n : Nat) (on : Bool) : SwitchesOk (s.aqOrder n on) := by
  unfold State.aqOrder
  split
  · exact orderCh_switchesOk hs ..
  · exact hs

theorem onAq_switchesOk {s : State} (hs : SwitchesOk s) (n : Nat) (f : Aqaux → Aqaux) : SwitchesOk (s.onAq n f) :=
  switchesOk_congr (onAq_part (by simp) n f s) hs

/-- An order given only on a condition. -/
theorem ite_aqOrder_switchesOk {c : Prop} [Decidable c] {s : State} (hs : SwitchesOk s) (n : Nat) (on : Bool) :
    SwitchesOk (if c then s.aqOrder n on else s) := by
  split
  · exact aqOrder_switchesOk hs n on
  · exact hs

theorem aqTick_switchesOk {s : State} (hs : SwitchesOk s) (p : Nat) : SwitchesOk (s.aqTick p) := by
  unfold State.aqTick
  dsimp only
  split
  · exact onAq_switchesOk hs ..
  · exact ite_aqOrder_switchesOk (ite_aqOrder_switchesOk (onAq_switchesOk hs ..) ..) ..

theorem thermalTick_switchesOk {s : State} (hs : SwitchesOk s) (raw : List Conversion) : SwitchesOk (thermalTick raw s) := by
  unfold thermalTick
  extract_lets old all s1 s2
  split
  · exact hs
  · have h1 : SwitchesOk s1 := by
      refine foldl_switchesOk (fun s n hs => switchesOk_congr ?_ hs) _ hs
      split <;> simp
    have h2 : SwitchesOk s2 := tcmHolds_switchesOk (switchesOk_congr (journalLatches_part (by simp) ..) h1)
    exact switchesOk_congr (tcmShow_part (by simp) ..) (foldl_switchesOk (fun s p hs => aqTick_switchesOk hs p) _ h2)

theorem latchClear_switchesOk {s : State} (hs : SwitchesOk s) (q : Sqe) : SwitchesOk (latchClear q s) := by
  unfold latchClear
  extract_lets n old ns left
  (repeat' split)
  · exact switchesOk_congr (done_part (by simp) ..) (tcmHolds_switchesOk (switchesOk_congr (by simp) hs))
  · exact switchesOk_congr (by simp) hs
  · exact switchesOk_congr (by simp) hs
  · exact switchesOk_congr (by simp) hs
  · exact switchesOk_congr (done_part (by simp) ..) (tcmHolds_switchesOk (switchesOk_congr (by simp) hs))

/-! ### Commits -/

theorem nvmDefaults_switchesOk {s : State} (hs : SwitchesOk s) : SwitchesOk s.nvmDefaults :=
  foldl_switchesOk (fun _ n hs => orderCh_switchesOk hs n _ _) _ hs

theorem enterWaitHost_switchesOk {s : State} (hs : SwitchesOk s) (reason : Nat) : SwitchesOk (s.enterWaitHost reason) := by
  unfold State.enterWaitHost
  exact nvmDefaults_switchesOk (switchesOk_congr (by simp) hs)

theorem failCommit_switchesOk {s : State} (hs : SwitchesOk s) (c : Commit) (reason : Nat) : SwitchesOk (s.failCommit c reason) := by
  unfold State.failCommit
  dsimp only
  have h1 : SwitchesOk (s.closeCommit c reason) := switchesOk_congr (by simp) hs
  split
  · exact enterWaitHost_switchesOk h1 reason
  · exact h1

theorem rejectCommit_switchesOk {s : State} (hs : SwitchesOk s) (c : Commit) (reason cons src : Nat) (tile : Option Nat) :
    SwitchesOk (s.rejectCommit c reason cons src tile) := by
  unfold State.rejectCommit
  split
  · exact failCommit_switchesOk hs ..
  · exact switchesOk_congr (retire_part (by simp) ..) (failCommit_switchesOk hs ..)

theorem configValidated_switchesOk {s : State} (hs : SwitchesOk s) (c : Commit) (img : List RawRec) (bad : List Nat) :
    SwitchesOk (s.configValidated c img bad) := by
  unfold State.configValidated
  split
  · exact rejectCommit_switchesOk hs ..
  · have h1 : SwitchesOk (s.loadCoeffs bad (recsOf img .coeffSet)).1 := switchesOk_congr (by simp) hs
    dsimp only
    split
    · exact switchesOk_congr (by simp) h1
    · exact failCommit_switchesOk h1 ..

theorem validationDone_switchesOk {s : State} (hs : SwitchesOk s) (img : List RawRec) (bad : List Nat) :
    SwitchesOk (validationDone img bad s) := by
  unfold validationDone
  (repeat' split)
  · exact hs
  · exact hs
  · exact configValidated_switchesOk hs ..
  · exact switchesOk_congr (by simp) hs
  · exact hs

theorem configAbort_switchesOk {s : State} (hs : SwitchesOk s) (q : Sqe) : SwitchesOk (configAbort q s) := by
  unfold configAbort
  (repeat' split)
  · exact switchesOk_congr (by simp) hs
  · exact switchesOk_congr (by simp) hs
  · exact switchesOk_congr (done_part (by simp) ..) (failCommit_switchesOk hs ..)
  · exact switchesOk_congr (by simp) hs

theorem beginCommit_switchesOk {s : State} (hs : SwitchesOk s) (c : Commit) (n : Nat) : SwitchesOk (s.beginCommit c n) :=
  switchesOk_congr (by simp) hs

theorem bisqueStore_switchesOk {s : State} (hs : SwitchesOk s) (q : Sqe) (img : List RawRec) (bad : List Nat) :
    SwitchesOk (bisqueStore q img bad s) := by
  unfold bisqueStore
  dsimp only
  (repeat' split)
  · exact switchesOk_congr (by simp) hs
  · exact switchesOk_congr (by simp) hs
  · exact rejectCommit_switchesOk (beginCommit_switchesOk hs ..) ..
  · exact switchesOk_congr (by simp) hs

theorem slotWritten_switchesOk {s : State} (hs : SwitchesOk s) (ok : Bool) : SwitchesOk (slotWritten ok s) := by
  unfold slotWritten
  (repeat' split)
  · exact switchesOk_congr (by simp) hs
  · exact failCommit_switchesOk (switchesOk_congr (by simp) hs) ..
  · exact hs

theorem coeffStage_switchesOk {s : State} (hs : SwitchesOk s) (q : Sqe) (bad : List Nat) : SwitchesOk (coeffStage q bad s) := by
  unfold coeffStage
  dsimp only
  (repeat' split)
  case h_1 => exact rejectCommit_switchesOk (beginCommit_switchesOk hs ..) ..
  all_goals exact switchesOk_congr (by simp) hs

/-! ### Admissions -/

theorem admitChans_switchesOk {s : State} (hs : SwitchesOk s) (old new : Cfg) : SwitchesOk (s.admitChans old new) := by
  refine foldl_switchesOk (fun s n hs => ?_) _ hs
  split
  · exact hs
  · exact orderCh_switchesOk hs ..

theorem entryChans_switchesOk {s : State} (hs : SwitchesOk s) (new : Cfg) : SwitchesOk (s.entryChans new) := by
  refine foldl_switchesOk (fun s n hs => ?_) _ hs
  dsimp only
  split <;> exact orderCh_switchesOk hs ..

theorem admitAqaux_switchesOk {s : State} (hs : SwitchesOk s) (old new : Cfg) : SwitchesOk (s.admitAqaux old new) := by
  refine foldl_switchesOk (fun s p hs => ?_) _ hs
  extract_lets o r a s2 s3 s1
  have h1 : SwitchesOk s1 := by
    simp only [s1]
    split
    · exact hs
    · exact onAq_switchesOk (ite_aqOrder_switchesOk (ite_aqOrder_switchesOk hs ..) ..) ..
  split
  · exact h1
  · exact onAq_switchesOk h1 ..

theorem putInForce_switchesOk {s : State} (hs : SwitchesOk s) (new : Cfg) (entry leaving : Bool) :
    SwitchesOk (s.putInForce new entry leaving) := by
  unfold State.putInForce
  extract_lets old keep s1 s2 s3 s4 s5 s6 s7 s8 s9
  have h3 : SwitchesOk s3 := by
    have h2 : SwitchesOk s2 := switchesOk_congr (by simp [s2, s1]) hs
    exact switchesOk_congr (by simp [s3]) h2
  have h5 : SwitchesOk s5 := switchesOk_congr (by simp [s5, s4]) h3
  have h6 : SwitchesOk s6 := admitAqaux_switchesOk (tcmHoldsBegin_switchesOk h5) ..
  have h7 : SwitchesOk s7 := by
    refine tcmHolds_switchesOk ?_
    split
    · exact entryChans_switchesOk h6 new
    · exact admitChans_switchesOk h6 old new
  have h9 : SwitchesOk s9 := switchesOk_congr (by simp [s9, s8]) h7
  split
  · exact switchesOk_congr (by simp) h9
  · exact h9

theorem admitCommit_switchesOk {s : State} (hs : SwitchesOk s) : SwitchesOk s.admitCommit := by
  unfold State.admitCommit
  split
  · dsimp only
    split
    · exact failCommit_switchesOk hs ..
    · exact putInForce_switchesOk (switchesOk_congr (by simp) hs) ..
  · exact hs

theorem epochBoundary_switchesOk {s : State} (hs : SwitchesOk s) (bad : List Nat) : SwitchesOk (epochBoundary bad s) := by
  unfold epochBoundary
  split
  · exact hs
  · have h1 : SwitchesOk s.startQuants.endAdmission := switchesOk_congr (by simp) hs
    exact switchesOk_congr (by simp) (admitCommit_switchesOk h1)

theorem enterBisque_switchesOk {s : State} (hs : SwitchesOk s) : SwitchesOk s.enterBisque :=
  putInForce_switchesOk (switchesOk_congr (by simp) hs) ..

theorem bisqueEntry_switchesOk {s : State} (hs : SwitchesOk s) (bad : Option Nat) : SwitchesOk (bisqueEntry bad s) := by
  unfold bisqueEntry
  (repeat' split)
  · exact hs
  · exact enterWaitHost_switchesOk hs _
  · exact enterWaitHost_switchesOk (switchesOk_congr (by simp) hs) _
  · exact enterBisque_switchesOk hs

/-! ### Ship mode and resets -/

theorem shipEnter_switchesOk {s : State} (hs : SwitchesOk s) (q : Sqe) : SwitchesOk (shipEnter q s) := by
  unfold shipEnter
  extract_lets s1 s2 s3 c s4
  have h2 : SwitchesOk s2 := switchesOk_congr (by simp [s2, s1]) hs
  have h3 : SwitchesOk s3 := foldl_switchesOk (fun s n hs => orderCh_switchesOk hs n 0 0) _ h2
  clear_value s3
  have h4 : SwitchesOk s4 := by
    simp only [s4]
    split <;> exact h3
  exact switchesOk_congr (by simp) h4

theorem shipCancel_switchesOk {s : State} (hs : SwitchesOk s) : SwitchesOk (shipCancel s) := by
  unfold shipCancel
  split
  · exact hs
  · extract_lets s1 c s2 s3
    have h2 : SwitchesOk s2 := switchesOk_congr (s := s) (by simp [s2, s1]) hs
    have h3 : SwitchesOk s3 := switchesOk_congr (by simp [s3]) h2
    split
    · exact nvmDefaults_switchesOk h3
    · exact h3

/-- Changing the entries of a list so that only those that counted count does not raise the count. -/
theorem countP_mapIdx_le {α β : Type} {p : α → Bool} {q : β → Bool} {f : Nat → α → β} {l : List α}
    (h : ∀ n a, q (f n a) = true → p a = true) : (l.mapIdx f).countP q ≤ l.countP p := by
  rw [List.mapIdx_eq_zipIdx_map, List.countP_map]
  calc
    _ ≤ l.zipIdx.countP (p ∘ Prod.fst) := List.countP_mono_left fun x _ hx => h _ _ hx
    _ = l.countP p := by rw [← List.countP_map, List.zipIdx_map_fst]

/-- A channel is in INRUSH after the reset only where it was (R306). -/
theorem resetCh_inrush {j : List (Nat × Bool × Nat × Nat)} {n : Nat} {c : LChan} (h : (resetCh j n c).st = .inrush) :
    c.st = .inrush := by
  simp only [resetCh] at h
  split at h
  · exact absurd h (by simp)
  · split at h
    · exact h
    · exact absurd h (by simp)

/-- The reset of the main die ends every hold, and leaves a channel in INRUSH only where it was (R301, R306). -/
theorem islandsReset_switchesOk {s : State} (hs : SwitchesOk s) : SwitchesOk s.islandsReset := by
  rw [← loadSwitchesOk_iff] at hs ⊢
  have hlsw : s.islandsReset.lsw = resetLsw (s.sup.sjNext.getD s.sup.sj).switches s.lsw := rfl
  simp only [LoadSwitchesOk, hlsw, resetLsw]
  obtain ⟨hc, -⟩ := hs
  constructor
  · rw [← List.countP_eq_length_filter] at hc ⊢
    refine (countP_mapIdx_le fun n c hi => ?_).trans hc
    simpa using resetCh_inrush (by simpa using hi)
  · intro c hc hheld
    obtain ⟨n, hn, rfl⟩ := List.mem_mapIdx.mp hc
    exact absurd hheld (by simp [resetCh, LChan.reset])

theorem mainReset_switchesOk {s : State} (hs : SwitchesOk s) (cause : Nat) : SwitchesOk (s.mainReset cause) :=
  islandsReset_switchesOk (switchesOk_congr (by simp) hs)

theorem watchdogMiss_switchesOk {s : State} (hs : SwitchesOk s) (n : Nat) : SwitchesOk (watchdogMiss n s) := by
  unfold watchdogMiss
  split
  · exact hs
  · extract_lets slot rollback now times s1 s2
    have h1 : SwitchesOk s1 := mainReset_switchesOk (switchesOk_congr (by simp) hs) _
    have h2 : SwitchesOk s2 := switchesOk_congr (by simp [s2]) h1
    (repeat' split)
    · exact switchesOk_congr (by simp) h2
    · exact switchesOk_congr (by simp) h2
    · exact h2

theorem powerFail_switchesOk {s : State} (hs : SwitchesOk s) : SwitchesOk (powerFail s) := by
  unfold powerFail
  split
  · exact hs
  · extract_lets ship s0 s1
    have h0 : SwitchesOk s0 := by
      simp only [s0]
      split <;> exact switchesOk_congr (by simp) hs
    have hr : SwitchesOk (s0.mainDown .powerFail).islandsReset := islandsReset_switchesOk (switchesOk_congr (by simp) h0)
    have h1 : SwitchesOk s1 := switchesOk_congr (by simp [s1]) hr
    split
    · exact switchesOk_congr (by simp) h1
    · exact h1

theorem perstAssert_switchesOk {s : State} (hs : SwitchesOk s) : SwitchesOk (perstAssert s) := by
  unfold perstAssert
  split
  · exact hs
  · extract_lets s1 held0 held1 s2 s3
    have h2 : SwitchesOk s2 := switchesOk_congr (by simp [s2, s1]) hs
    have h3 : SwitchesOk s3 := by
      simp only [s3]
      split
      · exact h2
      · exact failCommit_switchesOk h2 ..
    exact switchesOk_congr (by simp) h3

/-! ### Every command, and the clock -/

theorem hostCmd_switchesOk {op : Nat} {q : Sqe} {ps : List (Bool × Nat × Nat)} {body : State → State} {s : State} (hs : SwitchesOk s)
    (hb : ∀ s, SwitchesOk s → SwitchesOk (body s)) : SwitchesOk (hostCmd op q ps body s) :=
  hostCmd_of hs (fun _ _ => switchesOk_congr (by simp) hs) (hb _ (switchesOk_congr (by simp) hs))

/-- The commands that change the marks of a channel keep the invariant; every other command leaves them alone. -/
theorem exec_switchesOk {i : Instr} {s t : State} (hs : SwitchesOk s) (h : exec i s = .next t) : SwitchesOk t := by
  have h0 : SwitchesOk s.start := hs
  cases i
  case commitValidationDone img bad => exact Host.Outcome.next.inj h ▸ validationDone_switchesOk h0 img bad
  case configAbort q => exact Host.Outcome.next.inj h ▸ hostCmd_switchesOk h0 fun _ hs => configAbort_switchesOk hs q
  case bisqueStore q img bad => exact Host.Outcome.next.inj h ▸ hostCmd_switchesOk h0 fun _ hs => bisqueStore_switchesOk hs q img bad
  case bisqueSlotWritten ok => exact Host.Outcome.next.inj h ▸ slotWritten_switchesOk h0 ok
  case bisqueEnter q =>
    exact Host.Outcome.next.inj h ▸ hostCmd_switchesOk h0 fun _ hs =>
      switchesOk_congr (done_part (by simp) ..) (enterBisque_switchesOk hs)
  case shipEnter q => exact Host.Outcome.next.inj h ▸ hostCmd_switchesOk h0 fun _ hs => shipEnter_switchesOk hs q
  case shipCancel => exact Host.Outcome.next.inj h ▸ shipCancel_switchesOk h0
  case deviceResetOrder =>
    obtain rfl := Host.Outcome.next.inj h
    unfold deviceResetOrder
    split
    · exact mainReset_switchesOk h0 2
    · exact h0
  case updateRestartReset =>
    obtain rfl := Host.Outcome.next.inj h
    unfold restartReset
    split
    · exact mainReset_switchesOk h0 4
    · exact h0
  case powerFail => exact Host.Outcome.next.inj h ▸ powerFail_switchesOk h0
  case bisqueEntry bad => exact Host.Outcome.next.inj h ▸ bisqueEntry_switchesOk h0 bad
  case watchdogMiss n => exact Host.Outcome.next.inj h ▸ watchdogMiss_switchesOk h0 n
  case perstAssert => exact Host.Outcome.next.inj h ▸ perstAssert_switchesOk h0
  case epochBoundary bad => exact Host.Outcome.next.inj h ▸ epochBoundary_switchesOk h0 bad
  case coeffStage q bad => exact Host.Outcome.next.inj h ▸ hostCmd_switchesOk h0 fun _ hs => coeffStage_switchesOk hs q bad
  case latchClear q => exact Host.Outcome.next.inj h ▸ hostCmd_switchesOk h0 fun _ hs => latchClear_switchesOk hs q
  case thermalTick raw => exact Host.Outcome.next.inj h ▸ thermalTick_switchesOk h0 raw
  case switchSet q => exact Host.Outcome.next.inj h ▸ hostCmd_switchesOk h0 fun _ hs => switchSet_switchesOk hs q
  case lockoutClear q => exact Host.Outcome.next.inj h ▸ hostCmd_switchesOk h0 fun _ hs => lockoutClear_switchesOk hs q
  case inrushWindowEnd n limiting => exact Host.Outcome.next.inj h ▸ inrushEnd_switchesOk h0 n limiting
  case channelTrip n cause ma => exact channelTrip_switchesOk hs h
  case channelRetryWaitEnd n => exact Host.Outcome.next.inj h ▸ retryWaitEnd_switchesOk h0 n
  case clampBudgetDrain vsup currents => exact Host.Outcome.next.inj h ▸ clampDrain_switchesOk h0 vsup currents
  case freewheelMissing n mv => exact Host.Outcome.next.inj h ▸ freewheelMissing_switchesOk h0 n mv
  case dipEnd => exact Host.Outcome.next.inj h ▸ dipEnd_switchesOk h0
  case lsSupplyLoss => exact Host.Outcome.next.inj h ▸ supplyLoss_switchesOk h0
  case lsSupplyRestore => exact Host.Outcome.next.inj h ▸ supplyRestore_switchesOk h0
  case pwmPeriodStart n => exact Host.Outcome.next.inj h ▸ pwmPeriod_switchesOk h0 n
  all_goals exact switchesOk_congr (exec_part (π := .chans) (by simp [footprint]) h) hs

/-- Settles O12: the clock leaves the channels alone, and every command keeps the invariant. -/
theorem loadSwitchInvariant : Obligations.LoadSwitchInvariant := by
  intro s t hs h
  rw [loadSwitchesOk_iff] at hs ⊢
  unfold step at h
  split at h
  · cases h
    exact switchesOk_congr (clockTick_part (by simp) s) hs
  next c rest _ => exact exec_switchesOk (s := { s with pending := rest }) hs h

end Sys2Proof.Machine
end
section
/-! PROOFS. Host commands: a taken command runs its body, and what its completion leaves alone; ring management -/

namespace Sys2Proof.Machine

open Sys2Proof

/-! ### Frames -/

/-- A value taken from the new state where one of the parts named may change, and kept otherwise. -/
def pick {α : Type} (changed : Bool) (new old : α) : α := cond changed new old

/-- The state `s` with the parts named taken from `t`. -/
def frameOf (l : List Part) (s t : State) : State :=
  let has (π : Part) : Bool := l.contains π
  { hqe := pick (has .rings || has .fwd || has .ready) t.hqe s.hqe
    tmf := pick (has .tmf) t.tmf s.tmf
    sup := pick (has .faults || has .sj || has .sup) t.sup s.sup
    lnk := pick (has .lnk) t.lnk s.lnk
    cfg := pick (has .cfg) t.cfg s.cfg
    spa := pick (has .spa) t.spa s.spa
    kce := pick (has .kce) t.kce s.kce
    psc := pick (has .psc) t.psc s.psc
    pla := pick (has .pla) t.pla s.pla
    vpc := pick (has .vpc) t.vpc s.vpc
    tcm := pick (has .tcm) t.tcm s.tcm
    lsw := pick (has .lsw) t.lsw s.lsw
    bse := pick (has .bse) t.bse s.bse
    cell := pick (has .cell) t.cell s.cell
    sgm := pick (has .sgm) t.sgm s.sgm
    bte := pick (has .bte) t.bte s.bte
    mss := pick (has .mss) t.mss s.mss
    shelf := pick (has .shelf) t.shelf s.shelf
    blk := pick (has .blk) t.blk s.blk
    evr := pick (has .evr) t.evr s.evr
    out := pick (has .out) t.out s.out
    cur := pick (has .cur) t.cur s.cur
    free := pick (has .free) t.free s.free
    pending := pick (has .pending) t.pending s.pending }

theorem eq_pick {α : Type} {b : Bool} {new old : α} (h : b = false → new = old) : new = pick b new old := by
  cases b
  · exact h rfl
  · rfl

/-- A state whose other parts are those of `s` is `s` with the parts named changed. -/
theorem eq_frameOf (l : List Part) {s t : State} (h : ∀ π, π ∉ l → part π t = part π s) : t = frameOf l s t := by
  have hp (π : Part) (hl : l.contains π = false) : part π t = part π s := h π (by simpa using hl)
  have hhqe (h1 : part .rings t = part .rings s) (h2 : part .fwd t = part .fwd s) (h3 : part .ready t = part .ready s) :
      t.hqe = s.hqe := by
    have h4 : t.hqe = { s.hqe with fwd := t.hqe.fwd, ready := t.hqe.ready } :=
      congrArg (fun h : Hqe => { h with fwd := t.hqe.fwd, ready := t.hqe.ready }) h1
    have h2' : t.hqe.fwd = s.hqe.fwd := h2
    have h3' : t.hqe.ready = s.hqe.ready := h3
    rw [h4, h2', h3']
  have hsup (h1 : part .faults t = part .faults s) (h2 : part .sj t = part .sj s) (h3 : part .sup t = part .sup s) :
      t.sup = s.sup := by
    have h4 : t.sup = { s.sup with
        lastEvent := t.sup.lastEvent, journal := t.sup.journal, journalSeq := t.sup.journalSeq, deferred := t.sup.deferred
        sjSlots := t.sup.sjSlots, sjNext := t.sup.sjNext } :=
      congrArg (fun p : Sup => { p with
        lastEvent := t.sup.lastEvent, journal := t.sup.journal, journalSeq := t.sup.journalSeq, deferred := t.sup.deferred
        sjSlots := t.sup.sjSlots, sjNext := t.sup.sjNext }) h3
    simp only [part, Sup.faults, Prod.mk.injEq] at h1 h2
    rw [h4]
    simp only [h1, h2]
  refine State.ext ?_ ?_ ?_ ?_ ?_ ?_ ?_ ?_ ?_ ?_ ?_ ?_ ?_ ?_ ?_ ?_ ?_ ?_ ?_ ?_ ?_ ?_ ?_ ?_
  case refine_1 =>
    refine eq_pick fun hb => ?_
    simp only [Bool.or_eq_false_iff] at hb
    exact hhqe (hp _ hb.1.1) (hp _ hb.1.2) (hp _ hb.2)
  case refine_3 =>
    refine eq_pick fun hb => ?_
    simp only [Bool.or_eq_false_iff] at hb
    exact hsup (hp _ hb.1.1) (hp _ hb.1.2) (hp _ hb.2)
  · exact eq_pick (hp .tmf)
  · exact eq_pick (hp .lnk)
  · exact eq_pick (hp .cfg)
  · exact eq_pick (hp .spa)
  · exact eq_pick (hp .kce)
  · exact eq_pick (hp .psc)
  · exact eq_pick (hp .pla)
  · exact eq_pick (hp .vpc)
  · exact eq_pick (hp .tcm)
  · exact eq_pick (hp .lsw)
  · exact eq_pick (hp .bse)
  · exact eq_pick (hp .cell)
  · exact eq_pick (hp .sgm)
  · exact eq_pick (hp .bte)
  · exact eq_pick (hp .mss)
  · exact eq_pick (hp .shelf)
  · exact eq_pick (hp .blk)
  · exact eq_pick (hp .evr)
  · exact eq_pick (hp .out)
  · exact eq_pick (hp .cur)
  · exact eq_pick (hp .free)
  · exact eq_pick (hp .pending)

/-- A command changes nothing beside its footprint. -/
theorem exec_frame {i : Instr} {s t : State} (h : exec i s = .next t) : t = frameOf (footprint i) s t :=
  eq_frameOf _ fun _ hp => exec_part hp h

/-! ### Parameters and bodies -/

/-- No parameter check fails when each holds. -/
theorem firstBad_eq_none {ps : List (Bool × Nat × Nat)} : firstBad ps = none ↔ ∀ p ∈ ps, p.1 = true := by
  induction ps with
  | nil => simp [firstBad]
  | cons p ps ih =>
    obtain ⟨ok, d, b⟩ := p
    cases ok <;> simp [firstBad, ih]

/-- A taken command whose parameters are good answers what its body makes of the state in which it was taken. -/
theorem answers_taken {i : Instr} {op : Nat} {q : Sqe} {ps : List (Bool × Nat × Nat)} {body : State → State} {s : State}
    {P : State → Prop} (he : exec i s = .next (hostCmd op q ps body s.start)) (h : Taken op q s) (hp : ∀ p ∈ ps, p.1 = true)
    (hb : P (body (s.start.accept q))) : Answers i s P :=
  ⟨_, by rw [he, hostCmd_taken h (firstBad_eq_none.mpr hp)], hb⟩

/-- A command with no queue of its own answers its effect. -/
theorem answers_of {i : Instr} {s t : State} {P : State → Prop} (he : exec i s = .next t) (ht : P t) : Answers i s P := ⟨t, he, ht⟩

/-- The rings are kept where the part of that name is. -/
theorem ringsKept_of_part {s t : State} (h : part .rings t = part .rings s) : RingsKept s t := by
  have h' : { t.hqe with fwd := [], ready := [] } = { s.hqe with fwd := [], ready := [] } := h
  have hf := congrArg (fun h : Hqe => { h with fwd := t.hqe.fwd, ready := t.hqe.ready }) h'
  exact hf

/-- The rings of both functions are among the rings. -/
theorem RingsKept.fnOf {s t : State} (h : RingsKept s t) (fn : Fn) : t.fnOf fn = s.fnOf fn := by
  simp only [State.fnOf]
  rw [h]
  cases fn <;> rfl

/-- A function's queue state is one of two fields of the HQE. -/
theorem State.fnOf_congr {s t : State} (h0 : t.hqe.f0 = s.hqe.f0) (h1 : t.hqe.f1 = s.hqe.f1) (fn : Fn) : t.fnOf fn = s.fnOf fn := by
  cases fn
  · exact h0
  · exact h1

/-- Where no ring has changed, no function's has. -/
theorem onlyFn_of_rings {fn : Fn} {s t : State} (h : RingsKept s t) (ht : t = { s with hqe := t.hqe, out := t.out, cur := t.cur }) :
    OnlyFn fn s t := by
  refine ⟨fun g _ => h.fnOf g, ?_, ht⟩
  conv_lhs => rw [h]
  rw [h]

/-- One function's queue state changed, beside the lists of forwarded and ready commands. -/
theorem onlyFn_of_onFn {fn : Fn} {f : FnState → FnState} {s t : State} (h : part .rings t = part .rings (s.onFn fn f))
    (ht : t = { s with hqe := t.hqe, out := t.out, cur := t.cur }) : OnlyFn fn s t ∧ t.fnOf fn = f (s.fnOf fn) := by
  have hk : RingsKept (s.onFn fn f) t := ringsKept_of_part h
  refine ⟨⟨fun g hg => (hk.fnOf g).trans (s.onFn_other f hg), ?_, ht⟩, by rw [hk.fnOf fn, State.onFn_fnOf]⟩
  rw [hk]
  cases fn <;> rfl

/-- Taking a command and changing a function's queue state touch different parts. -/
theorem onFn_accept_rings (q : Sqe) (fn : Fn) (f : FnState → FnState) (s : State) :
    part .rings ((s.start.accept q).onFn fn f) = part .rings (s.onFn fn f) := by
  cases fn <;> rfl

/-! ### Ring management -/

/-- The tail goes on the last completion. -/
theorem tailOn_append_singleton (x : CqeTail) (l : List Cqe) (c : Cqe) : tailOn x (l ++ [c]) = l ++ [{ c with tail := some x }] := by
  induction l with
  | nil => rfl
  | cons a l ih => cases l <;> simp_all [tailOn]

/-- A command taken in `s` completes behind the completions that wait, from any state that has kept its forwarded entry. -/
theorem done_ready {q : Sqe} {st r : Nat} {s s1 : State} (h : OwnedAs q.fn q.sq (cidOf q) s)
    (hf : s1.hqe.fwd = (s.start.accept q).hqe.fwd) :
    (∃ quiet, (s1.done q st r).hqe.ready = s1.hqe.ready ++ [⟨q.fn, q.sq, cidOf q, st, r, quiet, none⟩]) ∧
    (s1.done q st r).hqe.fwd.filter (fun f => !f.is q.fn q.sq (cidOf q)) =
      s.hqe.fwd.filter (fun f => !f.is q.fn q.sq (cidOf q)) :=
  State.done_completed (s := { s with hqe := { s.hqe with ready := s1.hqe.ready } }) h hf rfl

/-- The same with a tail. -/
theorem doneWith_ready {q : Sqe} {st r : Nat} {x : CqeTail} {s s1 : State} (h : OwnedAs q.fn q.sq (cidOf q) s)
    (hf : s1.hqe.fwd = (s.start.accept q).hqe.fwd) :
    (∃ quiet, (s1.doneWith q st r x).hqe.ready = s1.hqe.ready ++ [⟨q.fn, q.sq, cidOf q, st, r, quiet, some x⟩]) ∧
    (s1.doneWith q st r x).hqe.fwd.filter (fun f => !f.is q.fn q.sq (cidOf q)) =
      s.hqe.fwd.filter (fun f => !f.is q.fn q.sq (cidOf q)) := by
  obtain ⟨⟨quiet, hready⟩, hfwd⟩ := done_ready (st := st) (r := r) h hf
  refine ⟨⟨quiet, ?_⟩, hfwd⟩
  simp [State.doneWith, hready, tailOn_append_singleton]

/-- A CQ is bound when some SQ completes to it. -/
theorem bound_eq_false {f : FnState} {c : Nat} (h : ∀ n r, f.sqs.getD n none = some r → r.cq ≠ c) : f.bound c = false := by
  simp only [FnState.bound, List.any_eq_false]
  intro o ho
  cases o with
  | none => simp
  | some r =>
    obtain ⟨n, hn⟩ := List.mem_iff_getElem?.mp ho
    simpa using h n r (by simp [List.getD_eq_getElem?_getD, hn])

/-- Settles O3. -/
theorem ringManagement : Obligations.RingManagement := by
  refine ⟨?cqCreate, ?sqCreate, ?cqDelete, ?cqModerate⟩
  case cqCreate =>
    intro q s h haddr hid1 hid2 hnone hk1 hk2 hc ht
    exact answers_taken rfl h (by simp [cqCreateParams, *]) (onFn_done _ h.2.1)
  case sqCreate =>
    intro q s h haddr hid1 hid2 hnone hk1 hk2 hcq
    exact answers_taken rfl h (by simp [sqCreateParams, *]) (onFn_done _ h.2.1)
  case cqDelete =>
    intro q s h hid hcq hbound hev
    refine answers_taken rfl h (by simp [*]) ?_
    have hmay : ¬((s.fnOf q.fn).bound (bits (sd q 6) 7 0) || (s.fnOf q.fn).eventCq == some (bits (sd q 6) 7 0)) = true := by
      simp [bound_eq_false hbound, hev]
    simp only [State.accept_fnOf, State.start_fnOf, if_neg hmay]
    exact onFn_done (fun f => { f with cqs := f.cqs.set (bits (sd q 6) 7 0) none }) h.2.1
  case cqModerate =>
    intro q s r h hcq hc ht
    refine answers_taken rfl h (by simp [*]) ?_
    obtain ⟨hready, hfwd⟩ := doneWith_ready (st := stDONE) (r := 0)
      (x := .moderates (bits (sd q 6) 7 0) (bits (sd q 7) 7 0) (bits (sd q 7) 25 16)) h.2.1 rfl
    have hrings : RingsKept s ((s.start.accept q).doneWith q stDONE 0
        (.moderates (bits (sd q 6) 7 0) (bits (sd q 7) 7 0) (bits (sd q 7) 25 16))) := ringsKept_of_part (by simp)
    refine ⟨hready, hfwd, ?_, onlyFn_of_rings hrings ?_, hrings.fnOf q.fn⟩
    · simp [State.doneWith]
    · exact eq_frameOf [.fwd, .ready, .out, .cur] fun π hp => by simp_all

/-! ### NOP, IDENTIFY and EVENT_CQ_SET -/

/-- A padded record has the record's length. -/
@[simp] theorem padTo_length (n : Nat) (b : List Byte) : (padTo n b).length = n := by
  simp [padTo, zeros]
  omega

theorem nopAndIdentify : Claim.NopAndIdentify := by
  refine ⟨fun q s h => ?_, fun q s h hlen => ?_⟩
  · exact answers_taken rfl h (by simp) (done_onlyCompletes h.2.1)
  · exact answers_taken rfl h (by simp [hlen]) ⟨_, padTo_length .., replyDone_readOnly h.2.1⟩

/-- What EVENT_CQ_SET makes of its function's queue state. -/
theorem eventCqSet_eq (q : Sqe) (s : State) :
    eventCqSet q s = (s.onFn q.fn (fun f =>
      if bit (sd q 6) 8 then { f with eventCq := none, pendEv := [], held := [] }
      else { f with eventCq := some (bits (sd q 6) 7 0), pendEv := f.held ++ f.pendEv, held := [] })).done q stDONE
        ((s.fnOf q.fn).eventCq.getD 0xFF) := by
  unfold eventCqSet
  dsimp only
  cases (s.fnOf q.fn).eventCq <;> rfl

theorem eventCqSet_claim : Claim.EventCqSet := by
  refine ⟨fun q s h hbit hcq => ?_, fun q s h hbit => ?_⟩
  all_goals
    refine answers_taken rfl h (by simp [*]) ?_
    simp only [eventCqSet_eq, hbit, if_true, Bool.false_eq_true, if_false]
    exact onFn_done _ h.2.1

/-! ### SQ_DELETE and ABORT -/

/-- The completions of commands taken out of a ring join the ready list in their order. -/
theorem foldl_dropFetched (fn : Fn) (sq status : Nat) (l : List (List Word)) (s : State) :
    l.foldl (fun s dw => s.dropFetched fn sq status dw) s = s.onHqe (fun h => { h with
      ready := h.ready ++ l.map (fun dw => ⟨fn, sq, cidOf ⟨fn, sq, dw⟩, status, 0, quietOf ⟨fn, sq, dw⟩, none⟩) }) := by
  induction l generalizing s with
  | nil => simp [State.onHqe]
  | cons dw l ih =>
    rw [List.foldl_cons, ih]
    simp [State.dropFetched, State.onHqe]

/-- An entry of the forwarded list still has its like there when another command is taken. -/
theorem acceptIn_any_of_mem {q : Sqe} {fn : Fn} {sq cid : Nat} {l : List Fwd} (h : ∃ f ∈ l, f.is fn sq cid = true) :
    (acceptIn q l).any (Fwd.is fn sq cid) = true := by
  induction l with
  | nil => simp at h
  | cons f r ih =>
    unfold acceptIn
    obtain ⟨g, hg, hi⟩ := h
    split
    · rcases List.mem_cons.mp hg with rfl | hg
      · simp [Fwd.is] at hi ⊢
        simp [hi]
      · simp [List.any_eq_true.mpr ⟨g, hg, hi⟩]
    · rcases List.mem_cons.mp hg with rfl | hg
      · simp [hi]
      · simp [ih ⟨g, hg, hi⟩]

/-- A command of another id that was not in the forwarded list is not there when a command is taken. -/
theorem acceptIn_any_eq_false {q : Sqe} {fn : Fn} {sq cid : Nat} {l : List Fwd} (h : ∀ f ∈ l, f.is fn sq cid = false)
    (hq : ¬(q.fn = fn ∧ q.sq = sq ∧ cidOf q = cid)) : (acceptIn q l).any (Fwd.is fn sq cid) = false := by
  induction l with
  | nil => simpa [acceptIn, Fwd.is] using hq
  | cons f r ih =>
    have hf := h f List.mem_cons_self
    have hr := ih fun g hg => h g (List.mem_cons_of_mem _ hg)
    unfold acceptIn
    split
    · have : Fwd.is fn sq cid { f with accepted := true } = false := hf
      simp only [List.any_cons, this, Bool.false_or, List.any_eq_false]
      intro g hg
      simp [h g (List.mem_cons_of_mem _ hg)]
    · simp [hf, hr]

theorem deleteAndAbort : Claim.DeleteAndAbort := by
  refine ⟨?delete, ?taken, ?forwarded, ?gone⟩
  case delete =>
    intro q s r h hid hr hdel
    refine answers_taken rfl h (by simp [hid, hr]) ?_
    have hr' : ((s.start.accept q).fnOf q.fn).sq (bits (sd q 6) 7 0) = some r := by simpa using hr
    simp only [sqDelete, hr', hdel, Bool.false_eq_true, if_false, foldl_dropFetched]
    refine ⟨?_, ?_, ?_, ?_, ?_⟩
    · simp
    · refine (State.fnOf_congr (s := (s.start.accept q).onFn q.fn (FnState.onSq (bits (sd q 6) 7 0) fun r =>
        { r with deleting := true, fetched := [] })) rfl rfl q.fn).trans ?_
      simp only [State.onFn_fnOf, State.accept_fnOf, State.start_fnOf]
      exact FnState.onSq_eq _ hr
    · simp
    · intro g hg
      refine (State.fnOf_congr (s := (s.start.accept q).onFn q.fn (FnState.onSq (bits (sd q 6) 7 0) fun r =>
        { r with deleting := true, fetched := [] })) rfl rfl g).trans ?_
      simp [State.onFn_other _ _ hg]
    · exact eq_frameOf [.fwd, .ready, .rings, .out, .cur] fun π hp => by simp_all
  case taken =>
    intro q s r dw idx rest h hr ht
    refine answers_taken rfl h (by simp [hr]) ?_
    have hr' : ((s.start.accept q).fnOf q.fn).sq (bits (sd q 6) 7 0) = some r := by simpa using hr
    simp only [abort, hr', ht]
    have htail := doneWith_ready (st := stDONE) (r := 0) (x := .aborted (bits (sd q 6) 7 0) (bits (sd q 6) 31 16)) h.2.1
      (s1 := ((s.start.accept q).onFn q.fn (FnState.onSq (bits (sd q 6) 7 0) fun r => { r with fetched := rest })).dropFetched
        q.fn (bits (sd q 6) 7 0) stABORTED_HOST dw) (by simp [State.dropFetched])
    obtain ⟨⟨quiet, hready⟩, -⟩ := htail
    obtain ⟨honly, hfn⟩ := onlyFn_of_onFn (s := s) (fn := q.fn)
      (f := FnState.onSq (bits (sd q 6) 7 0) fun r => { r with fetched := rest })
      (t := (State.dropFetched q.fn (bits (sd q 6) 7 0) stABORTED_HOST dw ((s.start.accept q).onFn q.fn
        (FnState.onSq (bits (sd q 6) 7 0) fun r => { r with fetched := rest }))).doneWith q stDONE 0
          (.aborted (bits (sd q 6) 7 0) (bits (sd q 6) 31 16)))
      ((by simp : _ = part .rings ((s.start.accept q).onFn q.fn _)).trans (onFn_accept_rings ..))
      (eq_frameOf [.fwd, .ready, .rings, .out, .cur] fun π hp => by simp_all)
    refine ⟨by simp [State.doneWith, State.dropFetched], honly, ⟨quiet, ?_⟩, hfn.trans (FnState.onSq_eq _ hr)⟩
    have hcid : cidOf ⟨q.fn, bits (sd q 6) 7 0, dw⟩ = bits (sd q 6) 31 16 := by
      simpa [Fetched.is] using (takeFirst_filter _ _ _ _ ht).2.1
    rw [Option.getD_some, hready]
    simp [State.dropFetched, hcid]
  case forwarded =>
    intro q s r h hr ht hf
    refine answers_taken rfl h (by simp [hr]) ?_
    have hr' : ((s.start.accept q).fnOf q.fn).sq (bits (sd q 6) 7 0) = some r := by simpa using hr
    have hany : (s.start.accept q).hqe.fwd.any (Fwd.is q.fn (bits (sd q 6) 7 0) (bits (sd q 6) 31 16)) = true :=
      acceptIn_any_of_mem hf
    simp only [abort, hr', ht, hany, Bool.true_or, if_true]
    exact done_onlyCompletes h.2.1
  case gone =>
    intro q s r h hr ht hf hready hself
    refine answers_taken rfl h (by simp [hr]) ?_
    have hr' : ((s.start.accept q).fnOf q.fn).sq (bits (sd q 6) 7 0) = some r := by simpa using hr
    have hany : (s.start.accept q).hqe.fwd.any (Fwd.is q.fn (bits (sd q 6) 7 0) (bits (sd q 6) 31 16)) = false :=
      acceptIn_any_eq_false hf (by simpa using hself)
    have hrd : (s.start.accept q).hqe.ready.any (Cqe.forwarded q.fn (bits (sd q 6) 7 0) (bits (sd q 6) 31 16)) = false := by
      rw [List.any_eq_false]
      intro c hc
      have := hready c hc
      simp only [Cqe.forwarded]
      by_contra hb
      simp only [Bool.and_eq_true, decide_eq_true_eq, beq_iff_eq, bne_iff_ne] at hb
      obtain ⟨⟨⟨⟨h1, h2⟩, h3⟩, h4⟩, h5⟩ := hb
      exact (this h1 h2 h3).elim h4 h5
    simp only [abort, hr', ht, hany, hrd, Bool.or_self, Bool.false_eq_true, if_false]
    exact done_onlyCompletes h.2.1

/-- Settles O32. -/
theorem queueAdministration : Obligations.QueueAdministration := ⟨nopAndIdentify, eventCqSet_claim, deleteAndAbort⟩

end Sys2Proof.Machine
end
section
/-! PROOFS. Enable and disable, doorbells, and register access -/

namespace Sys2Proof.Machine

open Sys2Proof

/-! ### Operations on one function's queue state -/

/-- Of the device only one function's queue state has changed, beside the pins. -/
def FnStep (fn : Fn) (s t : State) : Prop := t = { s.onFn fn (fun _ => t.fnOf fn) with out := t.out }

theorem Hqe.onFn_fnOf_self (h : Hqe) (fn : Fn) : h.onFn fn (fun _ => h.fnOf fn) = h := by cases fn <;> rfl

theorem FnStep.refl (fn : Fn) (s : State) : FnStep fn s s := by
  apply State.ext <;> simp
  exact (s.hqe.onFn_fnOf_self fn).symm

theorem FnStep.of_eq {fn : Fn} {s t : State} {f : FnState → FnState} {o : List Out} (h : t = { s.onFn fn f with out := o }) :
    FnStep fn s t := by
  subst h
  cases fn <;> rfl

theorem FnStep.trans {fn : Fn} {s t u : State} (h1 : FnStep fn s t) (h2 : FnStep fn t u) : FnStep fn s u := by
  unfold FnStep at h1 h2 ⊢
  have hu : u = { ({ s.onFn fn (fun _ => t.fnOf fn) with out := t.out } : State).onFn fn (fun _ => u.fnOf fn) with out := u.out } :=
    h1 ▸ h2
  rw [hu]
  cases fn <;> rfl

theorem onFn_fnStep (fn : Fn) (f : FnState → FnState) (s : State) : FnStep fn s (s.onFn fn f) := .of_eq rfl

theorem emit_fnStep (fn : Fn) (o : Out) (s : State) : FnStep fn s (s.emit o) := by
  apply State.ext <;> simp
  exact (s.hqe.onFn_fnOf_self fn).symm

theorem FnStep.ite {fn : Fn} {c : Prop} [Decidable c] {s t u : State} (ht : FnStep fn s t) (hu : FnStep fn s u) :
    FnStep fn s (if c then t else u) := by
  split
  · exact ht
  · exact hu

theorem fire_fnStep (fn : Fn) (v : Nat) (s : State) : FnStep fn s (s.fire fn v) :=
  .ite (onFn_fnStep ..) (emit_fnStep ..)

theorem fireEvent_fnStep (fn : Fn) (v : Nat) (s : State) : FnStep fn s (s.fireEvent fn v) :=
  .ite (onFn_fnStep ..) (.ite (fire_fnStep ..) ((fire_fnStep ..).trans (onFn_fnStep ..)))

theorem postEvent_fnStep (fn : Fn) (vec sub arg src : Nat) (s : State) : FnStep fn s (s.postEvent fn vec sub arg src) := by
  unfold State.postEvent
  dsimp only
  split
  · split
    · exact fireEvent_fnStep ..
    · exact .ite ((fireEvent_fnStep ..).trans (onFn_fnStep ..)) ((fireEvent_fnStep ..).trans (onFn_fnStep ..))
  · exact onFn_fnStep ..

theorem ringFault_fnStep (fn : Fn) (isCq : Bool) (n cause : Nat) (s : State) : FnStep fn s (s.ringFault fn isCq n cause) := by
  unfold State.ringFault State.noteFault
  cases fn
  all_goals exact ((onFn_fnStep ..).trans (onFn_fnStep ..)).trans (postEvent_fnStep ..)

/-- A step of one function's queue state, from a command's start. -/
theorem FnStep.only {fn : Fn} {s t : State} (h : FnStep fn s.start t) : OnlyFn fn s t ∧ NoCommandMoved s t := by
  refine ⟨⟨fun g hg => ?_, ?_, ?_⟩, ?_⟩
  · rw [h]
    exact s.onFn_other _ hg
  · rw [h]
    cases fn <;> rfl
  · rw [h]
    rfl
  · rw [h]
    cases fn <;> exact ⟨rfl, rfl⟩

/-! ### Vectors and events -/

@[simp] theorem State.emit_fnOf (s : State) (o : Out) (fn : Fn) : (s.emit o).fnOf fn = s.fnOf fn := rfl

/-- Only the vectors of one function's queue state have changed. -/
def VecsOnly (fn : Fn) (s t : State) : Prop := t.fnOf fn = { s.fnOf fn with vecs := (t.fnOf fn).vecs }

theorem VecsOnly.trans {fn : Fn} {s t u : State} (h1 : VecsOnly fn s t) (h2 : VecsOnly fn t u) : VecsOnly fn s u := by
  unfold VecsOnly at h1 h2 ⊢
  rw [h2, h1]

theorem onVec_vecsOnly (fn : Fn) (v : Nat) (g : MsixVec → MsixVec) (s : State) : VecsOnly fn s (s.onFn fn (FnState.onVec v g)) := by
  simp [VecsOnly, FnState.onVec]

theorem fire_vecsOnly (fn : Fn) (v : Nat) (s : State) : VecsOnly fn s (s.fire fn v) := by
  unfold State.fire
  dsimp only
  split
  · exact onVec_vecsOnly ..
  · rfl

theorem fireEvent_vecsOnly (fn : Fn) (v : Nat) (s : State) : VecsOnly fn s (s.fireEvent fn v) := by
  unfold State.fireEvent
  dsimp only
  split
  · exact onVec_vecsOnly ..
  · split
    · exact fire_vecsOnly ..
    · exact (fire_vecsOnly ..).trans (onVec_vecsOnly ..)

/-- An unmasked event vector that is not held off sends its message at once. -/
theorem fireEvent_out {fn : Fn} {v : Nat} {s : State} (hm : ((s.fnOf fn).vec v).masked = false) (hh : ((s.fnOf fn).vec v).hold = false) :
    (s.fireEvent fn v).out = s.out ++ [.msix fn v
      (((s.fnOf fn).vec v).addrHi.toNat * 2 ^ 32 + ((s.fnOf fn).vec v).addrLo.toNat) ((s.fnOf fn).vec v).data] := by
  simp [State.fireEvent, State.fire, hm, hh]

/-- An event of a function that receives events and has an event CQ with room is the last that waits, and its vector fires. -/
theorem postEvent_room {fn : Fn} {vec sub arg src : Nat} {s : State} (hr : s.receiving fn = true) :
    VecsOnly fn (s.onFn fn (fun f => { f with pendEv := ((s.postEvent fn vec sub arg src).fnOf fn).pendEv })) (s.postEvent fn vec sub arg src) ∧
    (s.postEvent fn vec sub arg src).out = (s.fireEvent fn vec).out ∧
    ((s.fnOf fn).eventCq.isSome = true → (s.fnOf fn).eventFull = false →
      ((s.postEvent fn vec sub arg src).fnOf fn).pendEv = (s.fnOf fn).pendEv ++ [⟨vec * 256 + sub, 1, arg, src, s.cur.toList⟩]) := by
  have hv := fireEvent_vecsOnly fn vec s
  unfold VecsOnly at hv ⊢
  unfold State.postEvent
  simp only [hr, if_true]
  cases hc : (s.fnOf fn).eventCq with
  | none => exact ⟨by rw [hv]; simp, by simp, by simp⟩
  | some c =>
    dsimp only
    split
    next hf => exact ⟨by simp only [State.onFn_fnOf]; rw [hv], by simp, by simp [hf]⟩
    next hf => exact ⟨by simp only [State.onFn_fnOf]; rw [hv], by simp, fun _ _ => by simp only [State.onFn_fnOf]; rw [hv]⟩

/-- An event changes the vectors of its function and the entries that wait, and nothing else of it. -/
theorem postEvent_fnOf (fn : Fn) (vec sub arg src : Nat) (s : State) :
    (s.postEvent fn vec sub arg src).fnOf fn = { s.fnOf fn with
      vecs := ((s.postEvent fn vec sub arg src).fnOf fn).vecs, pendEv := ((s.postEvent fn vec sub arg src).fnOf fn).pendEv
      held := ((s.postEvent fn vec sub arg src).fnOf fn).held } := by
  cases hr : s.receiving fn with
  | true =>
    have h := (postEvent_room (vec := vec) (sub := sub) (arg := arg) (src := src) hr).1
    unfold VecsOnly at h
    simp only [State.onFn_fnOf] at h
    rw [h]
  | false => simp [State.postEvent, hr]

/-! ### Rings in fault -/

/-- The ring in fault and the fault recorded, before the event. -/
def FnState.faulted (isCq : Bool) (n cause : Nat) (f : FnState) : FnState :=
  { (if isCq then f.onCq n (fun r => { r with fault := true }) else f.onSq n (fun r => { r with fault := true })) with
    faultInfo := faultInfoWord isCq n cause }

theorem ringFault_eq (fn : Fn) (isCq : Bool) (n cause : Nat) (s : State) :
    s.ringFault fn isCq n cause = (s.onFn fn (FnState.faulted isCq n cause)).postEvent fn (if fn = .pf0 then 65 else 7)
      (if fn = .pf0 then 0x01 else 0x41) (cause + 256 * b2n isCq) n := by
  cases fn <;> rfl

section
variable (isCq : Bool) (n cause : Nat) (f : FnState)

@[simp] theorem FnState.faulted_enable : (f.faulted isCq n cause).enable = f.enable := by
  cases isCq <;> simp [FnState.faulted, FnState.onCq, FnState.onSq]

@[simp] theorem FnState.faulted_eventCq : (f.faulted isCq n cause).eventCq = f.eventCq := by
  cases isCq <;> simp [FnState.faulted, FnState.onCq, FnState.onSq]

@[simp] theorem FnState.faulted_pendEv : (f.faulted isCq n cause).pendEv = f.pendEv := by
  cases isCq <;> simp [FnState.faulted, FnState.onCq, FnState.onSq]

@[simp] theorem FnState.faulted_vec (v : Nat) : (f.faulted isCq n cause).vec v = f.vec v := by
  cases isCq <;> simp [FnState.faulted, FnState.onCq, FnState.onSq, FnState.vec]

end

/-- Whether the event CQ is full does not change with another ring's fault. -/
theorem FnState.faulted_eventFull {f : FnState} {isCq : Bool} {n cause : Nat} (h : isCq = true → f.eventCq ≠ some n) :
    (f.faulted isCq n cause).eventFull = f.eventFull := by
  unfold FnState.eventFull
  rw [FnState.faulted_eventCq]
  cases hc : f.eventCq with
  | none => rfl
  | some c =>
    have hcq : (f.faulted isCq n cause).cq c = f.cq c := by
      cases isCq with
      | false => simp [FnState.faulted, FnState.onSq, FnState.cq]
      | true =>
        have hn : n ≠ c := fun hn => h rfl (by rw [hc, hn])
        simp [FnState.faulted, FnState.onCq, FnState.cq, upd, hn]
    simp only [hcq]

section
variable (n cause : Nat) (f : FnState)

theorem FnState.faulted_sq : (f.faulted false n cause).sqs = (f.onSq n (fun r => { r with fault := true })).sqs ∧
    (f.faulted false n cause).cqs = f.cqs := by
  simp [FnState.faulted, FnState.onSq]

theorem FnState.faulted_cq : (f.faulted true n cause).cqs = (f.onCq n (fun r => { r with fault := true })).cqs ∧
    (f.faulted true n cause).sqs = f.sqs := by
  simp [FnState.faulted, FnState.onCq]

end

theorem ringFault_fnOf (fn : Fn) (isCq : Bool) (n cause : Nat) (s : State) :
    ((s.ringFault fn isCq n cause).fnOf fn).faultInfo = faultInfoWord isCq n cause ∧
    ((s.ringFault fn isCq n cause).fnOf fn).sqs = ((s.fnOf fn).faulted isCq n cause).sqs ∧
    ((s.ringFault fn isCq n cause).fnOf fn).cqs = ((s.fnOf fn).faulted isCq n cause).cqs := by
  rw [ringFault_eq, postEvent_fnOf, State.onFn_fnOf]
  exact ⟨rfl, rfl, rfl⟩

/-- A ring's fault posts the event of its function. -/
theorem ringFault_event {fn : Fn} {isCq : Bool} {n cause : Nat} {s : State} (hhi : s.hiUp = true) (hrdy : s.hqeReady = true)
    (h : isCq = true → (s.fnOf fn).eventCq ≠ some n) :
    FaultEvent fn n (cause + 256 * b2n isCq) s (s.start.ringFault fn isCq n cause) := by
  intro hen
  have hrec : (s.start.onFn fn (FnState.faulted isCq n cause)).receiving fn = true := by
    simp only [State.receiving, State.onFn_fnOf, State.start_fnOf, FnState.faulted_enable, hen, Bool.and_true, Bool.and_eq_true]
    exact ⟨hrdy, hhi⟩
  obtain ⟨-, hout, hpend⟩ := postEvent_room (vec := if fn = .pf0 then 65 else 7) (sub := if fn = .pf0 then 0x01 else 0x41)
    (arg := cause + 256 * b2n isCq) (src := n) hrec
  simp only [State.onFn_fnOf, State.start_fnOf, FnState.faulted_eventCq, FnState.faulted_pendEv, FnState.faulted_eventFull h] at hpend
  rw [ringFault_eq]
  refine ⟨fun hs hf => ?_, fun hm hh => ?_⟩
  · rw [hpend hs hf]
    cases fn <;> rfl
  · rw [hout, fireEvent_out (by simpa using hm) (by simpa using hh)]
    simp

@[simp] theorem faultInfoWord_sq (n cause : Nat) : faultInfoWord false n cause = BitVec.ofNat 32 (n % 256 * 2 ^ 16 + cause) := by
  simp [faultInfoWord, b2n]

@[simp] theorem faultInfoWord_cq (n cause : Nat) :
    faultInfoWord true n cause = BitVec.ofNat 32 (n % 256 * 2 ^ 16 + 2 ^ 15 + cause) := by
  simp [faultInfoWord, b2n]

/-! ### Doorbells -/

/-- A tail doorbell of a ring that is not in fault, with another index: the new tail, or the ring's fault. -/
theorem sqTail_of_ring {fn : Fn} {n : Nat} {val : Word} {s : State} {r : SqRing} (hhi : s.hiUp = true) (hrdy : s.hqeReady = true)
    (hlen : n < (s.fnOf fn).sqs.length) (hr : (s.fnOf fn).sq n = some r) (hf : r.fault = false) (hne : bits val.toNat 15 0 ≠ r.tail) :
    sqTail fn n 4 val s = if 2 ^ r.k ≤ bits val.toNat 15 0 then s.ringFault fn false n 0x01
      else s.onFn fn (FnState.onSq n fun r => { r with tail := bits val.toNat 15 0 }) := by
  simp [sqTail, hhi, hrdy, hlen, hr, hf, hne, SqRing.size]

/-- A head doorbell of a ring that is not in fault, with another index: the new head, or the ring's fault. -/
theorem cqHead_of_ring {fn : Fn} {n : Nat} {val : Word} {s : State} {r : CqRing} (hhi : s.hiUp = true) (hrdy : s.hqeReady = true)
    (hlen : n < (s.fnOf fn).cqs.length) (hr : (s.fnOf fn).cq n = some r) (hf : r.fault = false) (hne : bits val.toNat 15 0 ≠ r.head) :
    cqHead fn n 4 val s = if 2 ^ r.k ≤ bits val.toNat 15 0 then s.ringFault fn true n 0x01
      else if (r.tail + 2 ^ r.k - r.head) % 2 ^ r.k < (bits val.toNat 15 0 + 2 ^ r.k - r.head) % 2 ^ r.k then s.ringFault fn true n 0x04
      else s.onFn fn (FnState.onCq n fun r => { r with head := bits val.toNat 15 0 }) := by
  simp [cqHead, hhi, hrdy, hlen, hr, hf, hne, CqRing.size]

/-- What a ring's fault leaves, from a command's start. -/
theorem ringFault_only {fn : Fn} {isCq : Bool} {n cause : Nat} {s t : State} (h : t = s.start.ringFault fn isCq n cause) :
    OnlyFn fn s t ∧ NoCommandMoved s t ∧ (t.fnOf fn).faultInfo = faultInfoWord isCq n cause ∧
    (t.fnOf fn).sqs = ((s.fnOf fn).faulted isCq n cause).sqs ∧ (t.fnOf fn).cqs = ((s.fnOf fn).faulted isCq n cause).cqs := by
  subst h
  obtain ⟨honly, hmoved⟩ := (ringFault_fnStep fn isCq n cause s.start).only
  exact ⟨honly, hmoved, ringFault_fnOf fn isCq n cause s.start⟩

/-- What a change of one function's queue state leaves, from a command's start. -/
theorem onFn_only (fn : Fn) (f : FnState → FnState) (s : State) :
    OnlyFn fn s (s.start.onFn fn f) ∧ NoCommandMoved s (s.start.onFn fn f) ∧ (s.start.onFn fn f).out = [] ∧
    (s.start.onFn fn f).fnOf fn = f (s.fnOf fn) := by
  obtain ⟨honly, hmoved⟩ := (onFn_fnStep fn f s.start).only
  exact ⟨honly, hmoved, rfl, State.onFn_fnOf ..⟩

theorem doorbells : Claim.Doorbells := by
  refine ⟨?sq, ?sqFault, ?cq, ?cqFault, ?missing, ?sqIgnored, ?cqIgnored⟩
  case sq =>
    intro fn n val s r hhi hrdy hlen hr hf hne hlt
    have he : sqTail fn n 4 val s.start = _ := sqTail_of_ring (s := s.start) hhi hrdy hlen hr hf hne
    rw [if_neg (Nat.not_le.mpr hlt)] at he
    obtain ⟨honly, hmoved, hout, hfn⟩ := onFn_only fn (FnState.onSq n fun r => { r with tail := bits val.toNat 15 0 }) s
    exact answers_of (congrArg Host.Outcome.next he) ⟨honly, hmoved, hout, hfn.trans (FnState.onSq_eq _ hr)⟩
  case sqFault =>
    intro fn n val s r hhi hrdy hlen hr hf hne hle
    have he : sqTail fn n 4 val s.start = _ := sqTail_of_ring (s := s.start) hhi hrdy hlen hr hf hne
    rw [if_pos hle] at he
    obtain ⟨honly, hmoved, hinfo, hsqs, hcqs⟩ := ringFault_only rfl
    refine answers_of (congrArg Host.Outcome.next he) ⟨honly, hmoved, ringFault_event hhi hrdy (by simp), by simpa using hinfo,
      hcqs.trans (FnState.faulted_sq ..).2, hsqs.trans ((FnState.faulted_sq ..).1.trans ?_)⟩
    exact congrArg FnState.sqs (FnState.onSq_eq _ hr)
  case cq =>
    intro fn n val s r hhi hrdy hlen hr hf _ _ hne hlt hin
    have he : cqHead fn n 4 val s.start = _ := cqHead_of_ring (s := s.start) hhi hrdy hlen hr hf hne
    rw [if_neg (Nat.not_le.mpr hlt), if_neg (Nat.not_lt.mpr hin)] at he
    obtain ⟨honly, hmoved, hout, hfn⟩ := onFn_only fn (FnState.onCq n fun r => { r with head := bits val.toNat 15 0 }) s
    exact answers_of (congrArg Host.Outcome.next he) ⟨honly, hmoved, hout, hfn.trans (FnState.onCq_eq _ hr)⟩
  case cqFault =>
    intro fn n val s r hhi hrdy hlen hr hf _ _ hne hout
    have he : cqHead fn n 4 val s.start =
        s.start.ringFault fn true n (if 2 ^ r.k ≤ bits val.toNat 15 0 then 1 else 4) := by
      rw [cqHead_of_ring (s := s.start) hhi hrdy hlen hr hf hne]
      split
      · rfl
      next h1 => rw [if_pos (hout.resolve_left h1)]
    obtain ⟨honly, hmoved, hinfo, hsqs, hcqs⟩ := ringFault_only (s := s) rfl
    refine answers_of (congrArg Host.Outcome.next he) ⟨honly, hmoved, fun hev => ?_, ?_,
      hsqs.trans (FnState.faulted_cq ..).2, hcqs.trans ((FnState.faulted_cq ..).1.trans ?_)⟩
    · have h := ringFault_event (isCq := true) (cause := if 2 ^ r.k ≤ bits val.toNat 15 0 then 1 else 4) hhi hrdy fun _ => hev
      split at h
      next h1 => simpa [h1, b2n] using h
      next h1 => simpa [h1, b2n] using h
    · simpa using hinfo
    · exact congrArg FnState.cqs (FnState.onCq_eq _ hr)
  case missing =>
    intro fn n val s hhi hrdy
    have hhi' : s.start.hiUp = true := hhi
    have hrdy' : s.start.hqeReady = true := hrdy
    refine ⟨fun hlen hr => ?_, fun hlen hr => ?_⟩
    · have he : sqTail fn n 4 val s.start = s.start.noteFault fn false n 0x02 := by
        simp [sqTail, hhi', hrdy', hlen, hr]
      obtain ⟨honly, hmoved, hout, hfn⟩ := onFn_only fn (fun f => { f with faultInfo := faultInfoWord false n 0x02 }) s
      exact answers_of (congrArg Host.Outcome.next he) ⟨honly, hmoved, hout, hfn.trans (by simp only [faultInfoWord_sq])⟩
    · have he : cqHead fn n 4 val s.start = s.start.noteFault fn true n 0x02 := by
        simp [cqHead, hhi', hrdy', hlen, hr]
      obtain ⟨honly, hmoved, hout, hfn⟩ := onFn_only fn (fun f => { f with faultInfo := faultInfoWord true n 0x02 }) s
      exact answers_of (congrArg Host.Outcome.next he) ⟨honly, hmoved, hout, hfn.trans (by simp only [faultInfoWord_cq])⟩
  case sqIgnored =>
    intro fn n size val s h
    have he : sqTail fn n size val s.start = s.start := by
      rcases h with h | ⟨r, hr, hv⟩
      · simp [sqTail, h]
      · simp [sqTail, hr, hv]
    exact answers_of (congrArg Host.Outcome.next he) rfl
  case cqIgnored =>
    intro fn n size val s h
    have he : cqHead fn n size val s.start = s.start := by
      rcases h with h | ⟨r, hr, hv⟩
      · simp [cqHead, h]
      · simp [cqHead, hr, hv]
    exact answers_of (congrArg Host.Outcome.next he) rfl

/-! ### Enable and disable -/

theorem foldl_fnStep {α : Type} {fn : Fn} {f : State → α → State} (h : ∀ s x, FnStep fn s (f s x)) (l : List α) (s : State) :
    FnStep fn s (l.foldl f s) :=
  List.foldlRecOn l f (FnStep.refl fn s) fun _ hs x _ => hs.trans (h _ x)

theorem foldl_vecsOnly {α : Type} {fn : Fn} {f : State → α → State} (h : ∀ s x, VecsOnly fn s (f s x)) (l : List α) (s : State) :
    VecsOnly fn s (l.foldl f s) :=
  List.foldlRecOn l f (show VecsOnly fn s s from rfl) fun _ hs x _ => hs.trans (h _ x)

theorem kOk_iff (k : Nat) : kOk k = true ↔ 4 ≤ k ∧ k ≤ 12 := by simp [kOk]

/-- A write of 1 with sizes in range: ring 0 and no fault, and the vectors of the events that waited fire. -/
theorem hqeEnable_of_ok {fn : Fn} {s : State} (hhi : s.hiUp = true) (hen : (s.fnOf fn).enable = false)
    (h : (kOk (bits (s.fnOf fn).adminSize.toNat 3 0) && kOk (bits (s.fnOf fn).adminSize.toNat 11 8)) = true) :
    FnStep fn s (hqeEnable fn s) ∧
    VecsOnly fn (s.onFn fn (fun f => { f with
      enable := true, faultInfo := 0, sqs := f.sqs.set 0 (some (adminSq f)), cqs := f.cqs.set 0 (some (adminCq f)) }))
      (hqeEnable fn s) := by
  unfold hqeEnable
  simp only [hhi, hen, h, Bool.not_true, Bool.false_eq_true, if_false, State.onFn_fnOf, if_true]
  split
  · refine ⟨((onFn_fnStep ..).trans (onFn_fnStep ..)).trans (foldl_fnStep (fun s e => fireEvent_fnStep ..) ..), ?_⟩
    refine VecsOnly.trans ?_ (foldl_vecsOnly (fun s e => fireEvent_vecsOnly ..) ..)
    simp only [VecsOnly, State.onFn_fnOf]
    rfl
  · refine ⟨(onFn_fnStep ..).trans (onFn_fnStep ..), ?_⟩
    simp only [VecsOnly, State.onFn_fnOf]
    rfl

/-- A write of 1 with a size out of range: the cause is 5. -/
theorem hqeEnable_of_bad {fn : Fn} {s : State} (hhi : s.hiUp = true) (hen : (s.fnOf fn).enable = false)
    (h : (kOk (bits (s.fnOf fn).adminSize.toNat 3 0) && kOk (bits (s.fnOf fn).adminSize.toNat 11 8)) = false) :
    hqeEnable fn s = s.onFn fn (fun f => { f with faultInfo := 5 }) := by
  unfold hqeEnable
  simp only [hhi, hen, h, Bool.not_true, Bool.false_eq_true, if_false, State.onFn_fnOf]
  have hw : faultInfoWord false 0 5 = 5 := by decide
  simp only [State.noteFault, hw]
  cases fn <;> rfl

/-- Only captures of lanes have ended. -/
def LanesKept (s t : State) : Prop := ∀ n, t.lane n = s.lane n ∨ t.lane n = { s.lane n with capture := none }

theorem LanesKept.trans {s t u : State} (h1 : LanesKept s t) (h2 : LanesKept t u) : LanesKept s u := by
  intro n
  rcases h1 n with h1 | h1 <;> rcases h2 n with h2 | h2 <;> simp [h1, h2]

theorem endCaptures_lanesKept (c : Nat) (s : State) : LanesKept s (s.endCaptures c) := by
  intro n
  simp only [State.lane, State.endCaptures, State.onKce_kce, List.getD_eq_getElem?_getD, List.getElem?_map]
  cases s.kce.groups[n]? with
  | none => exact .inl rfl
  | some k =>
    exact (ite_eq_or_eq _ _ _).symm

theorem lanesKept_of_kce {s t : State} (h : t.kce = s.kce) : LanesKept s t := fun n => .inl (by simp [State.lane, h])

theorem shutChan_lanesKept (n : Nat) (s : State) : LanesKept s (s.shutChan n) :=
  (lanesKept_of_kce rfl).trans (endCaptures_lanesKept n _)

theorem endHostTiles_lanesKept (s : State) : LanesKept s s.endHostTiles :=
  (lanesKept_of_kce (t := (s.onTmf _).onHqe _) rfl).trans
    (List.foldlRecOn _ _ (lanesKept_of_kce rfl) fun _ hs n _ => hs.trans (shutChan_lanesKept n _))

/-- Beside its lanes the Kiln keeps everything when streams are shut. -/
theorem endHostTiles_kce (s : State) : s.endHostTiles.kce = { s.kce with groups := s.endHostTiles.kce.groups } := by
  refine List.foldlRecOn (motive := fun t : State => t.kce = { s.kce with groups := t.kce.groups }) _ _ rfl fun t ht n _ => ?_
  have hn : (t.shutChan n).kce = { t.kce with groups := (t.shutChan n).kce.groups } := rfl
  rw [hn, ht]

theorem endHostTiles_fwd (s : State) :
    s.endHostTiles.hqe.fwd = s.hqe.fwd.filter (fun f => !(f.fn = .pf0 && f.op == 0x16)) :=
  (part_foldl (π := .fwd) (fun s n => shutChan_part (by simp) n s) _ _).trans rfl

/-- The rings of a function that has ended. -/
theorem endRings_fnOf (fn : Fn) (s : State) : ((s.endRings fn).fnOf fn) = { s.fnOf fn with
    enable := false, sqs := (s.fnOf fn).sqs.map (fun _ => none), cqs := (s.fnOf fn).cqs.map (fun _ => none), eventCq := none
    pendEv := [], held := [] } := by
  cases fn <;> rfl

theorem endRings_other {fn g : Fn} (s : State) (h : g ≠ fn) : (s.endRings fn).fnOf g = s.fnOf g := by
  cases fn <;> cases g <;> simp at h <;> rfl

theorem endRings_ready (fn : Fn) (s : State) : (s.endRings fn).hqe.ready = s.hqe.ready.filter (fun c => c.fn ≠ fn) := by
  cases fn <;> rfl

theorem endRings_fwd (fn : Fn) (s : State) : (s.endRings fn).hqe.fwd =
    (s.hqe.fwd.filter (fun f => f.fn ≠ fn || f.accepted)).map (fun f => if f.fn = fn then { f with orphan := true } else f) := by
  cases fn <;> rfl

/-- The end of a function's rings leaves of its commands only those accepted, as orphans. -/
theorem endRings_orphans {fn : Fn} {s : State} {f : Fwd} (hf : f ∈ (s.endRings fn).hqe.fwd) (hfn : f.fn = fn) :
    f.accepted = true ∧ f.orphan = true := by
  rw [endRings_fwd, List.mem_map] at hf
  obtain ⟨g, hg, rfl⟩ := hf
  obtain ⟨-, hacc⟩ := List.mem_filter.mp hg
  split at hfn <;> simp_all

theorem getD_map_none {α β : Type} (l : List (Option α)) (n : Nat) : (l.map (fun _ => (none : Option β))).getD n none = none := by
  simp [List.getD_eq_getElem?_getD]

/-- Disabling a function ends its rings, and PF0's host tiles with them. -/
theorem hqeDisable_eq {fn : Fn} {s : State} (hhi : s.hiUp = true) :
    hqeDisable fn s = if fn = .pf0 then (s.endRings fn).endHostTiles else s.endRings fn := by
  cases fn <;> simp [hqeDisable, hhi]

/-- What the disabling of a function makes of its rings: the same whether its host tiles end with it or not. -/
theorem hqeDisable_rings {fn : Fn} {s : State} (hhi : s.hiUp = true) {π : Part} (hp : π ∉ [.fwd, .tmf, .kce]) :
    part π (hqeDisable fn s) = part π (s.endRings fn) := by
  rw [hqeDisable_eq hhi]
  split
  · exact endHostTiles_part hp _
  · rfl

theorem mem_hqeDisable_fwd {fn : Fn} {s : State} (hhi : s.hiUp = true) {f : Fwd} (hf : f ∈ (hqeDisable fn s).hqe.fwd) :
    f ∈ (s.endRings fn).hqe.fwd := by
  rw [hqeDisable_eq hhi] at hf
  split at hf
  · rw [endHostTiles_fwd] at hf
    exact (List.mem_filter.mp hf).1
  · exact hf

theorem hqeDisable_lanes {fn : Fn} {s : State} (hhi : s.hiUp = true) :
    LanesKept s (hqeDisable fn s) ∧ (hqeDisable fn s).kce = { s.kce with groups := (hqeDisable fn s).kce.groups } := by
  have hk : (s.endRings fn).kce = s.kce := rfl
  rw [hqeDisable_eq hhi]
  split
  · exact ⟨(lanesKept_of_kce hk).trans (endHostTiles_lanesKept _), (endHostTiles_kce _).trans (by rw [hk])⟩
  · exact ⟨lanesKept_of_kce hk, by rw [hk]⟩

/-- What the end of a function's rings takes from the Spire and the allocator: a posting and the changes not posted, of PF0. -/
theorem endRings_sup_spa (fn : Fn) (s : State) :
    (s.endRings fn).sup = { s.sup with posting := if fn = .pf0 then none else s.sup.posting } ∧
    (s.endRings fn).spa = { s.spa with unposted := if fn = .pf0 then [] else s.spa.unposted } := by
  cases fn <;> exact ⟨rfl, rfl⟩

theorem enableAndDisable : Claim.EnableAndDisable := by
  refine ⟨?enable, ?size, ?disable⟩
  case enable =>
    intro fn s hhi hen h1 h2 h3 h4
    obtain ⟨hstep, hvecs⟩ := hqeEnable_of_ok (s := s.start) (fn := fn) hhi hen
      (by rw [Bool.and_eq_true, kOk_iff, kOk_iff]; exact ⟨⟨h1, h2⟩, h3, h4⟩)
    obtain ⟨honly, hmoved⟩ := hstep.only
    refine answers_of rfl ⟨honly, hmoved, ?_⟩
    simp only [VecsOnly, State.onFn_fnOf, State.start_fnOf] at hvecs
    exact hvecs
  case size =>
    intro fn s hhi hen h
    have he := hqeEnable_of_bad (s := s.start) (fn := fn) hhi hen (by
      rw [Bool.eq_false_iff]
      intro hk
      rw [Bool.and_eq_true, kOk_iff, kOk_iff, and_assoc] at hk
      exact h hk)
    exact answers_of (congrArg Host.Outcome.next he) (onFn_only fn (fun f => { f with faultInfo := 5 }) s)
  case disable =>
    intro fn s hhi
    have h : exec (.hqeDisable fn) s = .next (hqeDisable fn s.start) := rfl
    have hhi' : s.start.hiUp = true := hhi
    have hk : RingsKept (s.start.endRings fn) (hqeDisable fn s.start) :=
      ringsKept_of_part (hqeDisable_rings hhi' (by simp))
    have hfn : (hqeDisable fn s.start).fnOf fn = _ := (hk.fnOf fn).trans (endRings_fnOf fn s.start)
    have hready : (hqeDisable fn s.start).hqe.ready = _ :=
      (hqeDisable_rings (π := .ready) hhi' (by simp)).trans (endRings_ready fn s.start)
    obtain ⟨hlanes, hkce⟩ := hqeDisable_lanes (fn := fn) hhi'
    obtain ⟨hsup, hspa⟩ := endRings_sup_spa fn s.start
    refine answers_of h ⟨?_, ?_, ?_, ?_, ?_, ?_, ?_, ?_, hlanes, ?_, ?_, ?_⟩
    · rw [hfn]
    · intro n
      rw [hfn]
      exact ⟨getD_map_none .., getD_map_none ..⟩
    · rw [hfn]
    · rw [hfn]
    · rw [hfn]
    · intro c hc
      rw [hready] at hc
      simpa using (List.mem_filter.mp hc).2
    · exact fun f hf hfn => endRings_orphans (mem_hqeDisable_fwd hhi' hf) hfn
    · exact fun g hg => (hk.fnOf g).trans (endRings_other _ hg)
    · exact (congrArg State.sup (eq_frameOf [.fwd, .tmf, .kce] fun π hp => hqeDisable_rings hhi' hp)).trans hsup
    · exact (hqeDisable_rings (π := .spa) hhi' (by simp)).trans hspa
    · have hout : (hqeDisable fn s.start).out = [] := hqeDisable_part (π := .out) (by simp) fn s.start
      have hcur : (hqeDisable fn s.start).cur = none := hqeDisable_part (π := .cur) (by simp) fn s.start
      have hkce' : (hqeDisable fn s.start).kce = { s.kce with groups := (hqeDisable fn s.start).kce.groups } := hkce
      rw [← hkce', ← hout, ← hcur]
      exact exec_frame h

/-! ### Registers -/

/-- A table of vectors with one of them changed. -/
theorem FnState.onVec_eq {f : FnState} {v : Nat} (g : MsixVec → MsixVec) (h : v < f.vecs.length) :
    f.onVec v g = { f with vecs := f.vecs.set v (g (f.vec v)) } := by
  have hv : f.vecs[v]? = some (f.vec v) := by simp [FnState.vec, h]
  rw [FnState.onVec, upd_eq_set _ _ _ _ hv]

/-- A register that is written when the function's rings do not exist. -/
theorem answers_onFn {i : Instr} {fn : Fn} {f : FnState → FnState} {x : FnState} {s : State} (he : exec i s = .next (s.start.onFn fn f))
    (hx : f (s.fnOf fn) = x) :
    Answers i s (fun t => OnlyFn fn s t ∧ NoCommandMoved s t ∧ t.out = [] ∧ t.fnOf fn = x) := by
  obtain ⟨honly, hmoved, hout, hfn⟩ := onFn_only fn f s
  exact answers_of he ⟨honly, hmoved, hout, hfn.trans hx⟩

/-- A write that is ignored. -/
theorem answers_start {i : Instr} {s : State} (he : exec i s = .next s.start) : Answers i s (fun t => t = { s with out := [], cur := none }) :=
  answers_of he rfl

/-- A write that is not 32-bit and aligned, or finds HI down, is ignored (R499). -/
theorem registerWrite_ignored {fn : Fn} {bar off size : Nat} {val : Word} {s : State} (h : size ≠ 4 ∨ off % 4 ≠ 0) :
    registerWrite fn bar off size val s = s := by
  rcases h with h | h <;> simp [registerWrite, h]

section
variable {off : Nat} {val : Word} {s : State}

theorem registerWrite_pf0 (hhi : s.hiUp = true) (ho : off % 4 = 0) : registerWrite .pf0 0 off 4 val s = writePf0 off val s := by
  simp [registerWrite, ho, hhi]

theorem registerWrite_pf1 (hhi : s.hiUp = true) (ho : off % 4 = 0) (hge : 0x3000 ≤ off) :
    registerWrite .pf1 0 off 4 val s = if off / 4096 = 3 then writeHqe .pf1 (off % 4096) val s else s := by
  simp [registerWrite, ho, hhi, Nat.not_lt.mpr hge]

theorem registerWrite_msix (fn : Fn) (hhi : s.hiUp = true) (ho : off % 4 = 0) :
    registerWrite fn 4 off 4 val s = writeMsix fn off val s := by
  cases fn <;> simp [registerWrite, ho, hhi]

/-- A write while HI is down is ignored. -/
theorem registerWrite_down {fn : Fn} {bar size : Nat} (hhi : s.hiUp = false) (hb : bar ≠ 7) :
    registerWrite fn bar off size val s = s := by
  simp [registerWrite, hhi, hb]

theorem writePf0_hqe (h : off / 4096 = 1) : writePf0 off val s = writeHqe .pf0 (off % 4096) val s := by
  unfold writePf0
  exact if_pos h

/-- An HQE register of a function stands at its base. -/
theorem registerWrite_hqe (fn : Fn) (hhi : s.hiUp = true) (ho : off % 4 = 0) (hlt : off < 4096) :
    registerWrite fn 0 (HqeBase fn + off) 4 val s = writeHqe fn off val s := by
  cases fn with
  | pf0 =>
    have hb : HqeBase .pf0 = 4096 := rfl
    have h1 : (4096 + off) % 4096 = off := by omega
    have h2 : (4096 + off) / 4096 = 1 := by omega
    rw [hb, registerWrite_pf0 hhi (by omega), writePf0_hqe h2, h1]
  | pf1 =>
    have hb : HqeBase .pf1 = 12288 := rfl
    have h1 : (12288 + off) % 4096 = off := by omega
    have h2 : (12288 + off) / 4096 = 3 := by omega
    rw [hb, registerWrite_pf1 hhi (by omega) (by omega), if_pos h2, h1]

/-- An HQE register that takes no write, or an admin ring register while the function is enabled. -/
theorem writeHqe_ignored (fn : Fn) (h : off ∉ [0x008, 0x00C, 0x010, 0x014, 0x018, 0x01C, 0x020] ∨
    (0x10 ≤ off ∧ (s.fnOf fn).enable = true) ∨ (fn = .pf0 ∧ off = 0x00C)) : writeHqe fn off val s = s := by
  unfold writeHqe
  dsimp only
  split
  all_goals simp_all

/-- An offset of PF0 that is reserved or read only. -/
theorem writePf0_ignored (h : off ∉ [0x5C, 0x1008, 0x1010, 0x1014, 0x1018, 0x101C, 0x1020, 0x2010, 0x6004, 0x901C]) :
    writePf0 off val s = s := by
  simp only [List.mem_cons, List.not_mem_nil, or_false, not_or] at h
  by_cases hq : off / 4096 = 1
  · rw [writePf0_hqe hq]
    by_cases h12 : off % 4096 = 0xC
    · exact writeHqe_ignored _ (.inr (.inr ⟨rfl, h12⟩))
    · exact writeHqe_ignored _ (.inl (by simp only [List.mem_cons, List.not_mem_nil, or_false]; omega))
  · unfold writePf0
    dsimp only
    rw [if_neg hq]
    split
    all_goals simp_all

end

theorem registersAtReset : Claim.RegistersAtReset := by
  unfold Claim.RegistersAtReset
  and_intros <;> decide +kernel

/-- No register shows what a step drives. -/
theorem readReg_start (fn : Fn) (off : Nat) (s : State) : readReg fn off s.start = readReg fn off s := by
  rfl

theorem registerAccess : Claim.RegisterAccess := by
  refine ⟨?scratch, ?admin, ?locked, ?msix, ?pf0, ?pf1, ?msixOut, ?size, ?miss, ?readDown, ?readUp, ?readUp8, ?readSize, ?writeDown, ?writeUp⟩
  case scratch =>
    intro val s hhi
    refine answers_of (congrArg Host.Outcome.next (registerWrite_pf0 (s := s.start) hhi rfl)) ?_
    rfl
  case admin =>
    intro fn val s hhi hen
    have hen' : (s.start.fnOf fn).enable = false := hen
    have he {off : Nat} {f : FnState → FnState} (ho : off % 4 = 0) (hlt : off < 4096)
        (hw : writeHqe fn off val s.start = s.start.onFn fn f) :=
      answers_onFn (i := .registerWrite fn 0 (HqeBase fn + off) 4 val) (congrArg Host.Outcome.next ((registerWrite_hqe (val := val) (s := s.start) fn hhi ho hlt).trans hw)) rfl
    refine ⟨he (off := 0x10) (f := fun f => { f with asqLo := BitVec.ofNat 32 (val.toNat / 4096 * 4096) }) rfl (by decide) ?_,
      he (off := 0x14) (f := fun f => { f with asqHi := val }) rfl (by decide) ?_,
      he (off := 0x18) (f := fun f => { f with acqLo := BitVec.ofNat 32 (val.toNat / 4096 * 4096) }) rfl (by decide) ?_,
      he (off := 0x1C) (f := fun f => { f with acqHi := val }) rfl (by decide) ?_, he (off := 0x20)
        (f := fun f => { f with adminSize := BitVec.ofNat 32 (bits val.toNat 11 8 * 256 + bits val.toNat 3 0) }) rfl (by decide) ?_⟩
    all_goals simp only [writeHqe, hen', Bool.false_eq_true, if_false]
  case locked =>
    intro fn off val s hen h1 h2
    refine answers_start (congrArg Host.Outcome.next ?_)
    cases hhi : s.start.hiUp with
    | false => exact registerWrite_down hhi (by decide)
    | true =>
      by_cases ho : off % 4 = 0
      · rw [registerWrite_hqe fn hhi ho (by omega)]
        exact writeHqe_ignored fn (.inr (.inl ⟨h1, hen⟩))
      · refine registerWrite_ignored (.inr ?_)
        cases fn
        · show (4096 + off) % 4 ≠ 0
          omega
        · show (12288 + off) % 4 ≠ 0
          omega
  case msix =>
    intro fn v val s hhi hv hv'
    have he {k : Nat} (hk : k < 16) (h4 : k % 4 = 0) :
        registerWrite fn 4 (16 * v + k) 4 val s.start = writeMsix fn (16 * v + k) val s.start :=
      registerWrite_msix (s := s.start) fn hhi (by omega)
    have hm {k : Nat} {g : MsixVec → MsixVec} (hk : k < 16) (h4 : k % 4 = 0)
        (hw : writeMsix fn (16 * v + k) val s.start = s.start.onFn fn (FnState.onVec v g)) :=
      answers_onFn (i := .registerWrite fn 4 (16 * v + k) 4 val) (congrArg Host.Outcome.next ((he hk h4).trans hw)) (FnState.onVec_eq g hv)
    have hlt {k : Nat} (hk : k < 16) : ¬(2048 ≤ 16 * v + k) := by omega
    have hlen : ¬((s.fnOf fn).vecs.length ≤ v) := Nat.not_le.mpr hv
    refine ⟨hm (k := 0) (g := fun x => { x with addrLo := val }) (by decide) rfl ?_,
      hm (k := 4) (g := fun x => { x with addrHi := val }) (by decide) rfl ?_,
      hm (k := 8) (g := fun x => { x with data := val }) (by decide) rfl ?_, fun hb =>
      hm (k := 12) (g := fun x => { x with masked := true }) (by decide) rfl ?_, fun hb =>
      congrArg Host.Outcome.next ((he (k := 12) (by decide) rfl).trans ?_)⟩
    · simpa [writeMsix, hlen] using fun h : 2048 ≤ 16 * v => absurd h (hlt (k := 0) (by decide))
    · simp [writeMsix, hlen, hlt, Nat.mul_add_div]
    · simp [writeMsix, hlen, hlt, Nat.mul_add_div]
    · simp [writeMsix, hlen, hlt, Nat.mul_add_div, hb]
    · simp [writeMsix, hlen, hlt, Nat.mul_add_div, hb]
  case pf0 =>
    intro off val s h
    refine answers_start (congrArg Host.Outcome.next ?_)
    cases hhi : s.start.hiUp with
    | false => exact registerWrite_down hhi (by decide)
    | true =>
      by_cases ho : off % 4 = 0
      · rw [registerWrite_pf0 hhi ho]
        exact writePf0_ignored h
      · exact registerWrite_ignored (.inr ho)
  case pf1 =>
    intro off val s hge h
    refine answers_start (congrArg Host.Outcome.next ?_)
    cases hhi : s.start.hiUp with
    | false => exact registerWrite_down hhi (by decide)
    | true =>
      by_cases ho : off % 4 = 0
      · rw [registerWrite_pf1 hhi ho hge]
        simp only [List.mem_cons, List.not_mem_nil, or_false, not_or] at h
        split
        · exact writeHqe_ignored _ (.inl (by simp only [List.mem_cons, List.not_mem_nil, or_false]; omega))
        · rfl
      · exact registerWrite_ignored (.inr ho)
  case msixOut =>
    intro fn off val s h
    refine answers_start (congrArg Host.Outcome.next ?_)
    cases hhi : s.start.hiUp with
    | false => exact registerWrite_down hhi (by decide)
    | true =>
      by_cases ho : off % 4 = 0
      · rw [registerWrite_msix fn hhi ho, writeMsix]
        exact if_pos (by simpa using h)
      · exact registerWrite_ignored (.inr ho)
  case size =>
    intro fn bar off size val s h
    exact answers_start (congrArg Host.Outcome.next (registerWrite_ignored h))
  case miss =>
    intro s
    exact answers_of rfl rfl
  case readDown =>
    intro off s hlt ho hup
    have hup' : s.start.linkUp = false := hup
    refine answers_of (t := (s.start.onFn .pf1 fun f => { f with saggarMiss := true }).emit (.readData 0xFFFFFFFF)) ?_ rfl
    exact congrArg Host.Outcome.next (by simp [tunnelRead, readable, hlt, ho, hup'])
  case readUp =>
    intro off s hlt ho hup
    have hup' : s.start.linkUp = true := hup
    refine answers_of (t := s.start.emit (.readData (readReg .pf1 off s.start))) ?_ ?_
    · exact congrArg Host.Outcome.next (by simp [tunnelRead, readable, hostReads, readWord, ho, hup'])
    · rw [readReg_start]
      rfl
  case readUp8 =>
    intro off s hlt ho hup
    have hup' : s.start.linkUp = true := hup
    refine answers_of (t := s.start.emit (.readData (readReg .pf1 off s.start + readReg .pf1 (off + 4) s.start * 2 ^ 32))) ?_ ?_
    · exact congrArg Host.Outcome.next (by simp [tunnelRead, readable, hostReads, readWord, ho, hup'])
    · rw [readReg_start, readReg_start]
      rfl
  case readSize =>
    intro off size s h
    have hr : readable off size = false := by
      rcases h with h | ⟨h4, h8⟩ <;> simp [readable, *]
    refine answers_of (t := s.start.emit (.readData 0)) ?_ rfl
    exact congrArg Host.Outcome.next (by simp [tunnelRead, hostReads, hr])
  case writeDown =>
    intro off val s hlt ho hup
    refine answers_of (t := s.start.onFn .pf1 fun f => { f with saggarMiss := true }) (congrArg Host.Outcome.next ?_) rfl
    have hup' : s.start.linkUp = false := hup
    simp [tunnelWrite, hlt, ho, hup']
  case writeUp =>
    intro off val s hlt hup
    have hup' : s.start.linkUp = true := hup
    exact answers_start (congrArg Host.Outcome.next (by simp [tunnelWrite, hup']))

/-- Settles O33. -/
theorem doorbellsAndRegisters : Obligations.DoorbellsAndRegisters :=
  ⟨enableAndDisable, doorbells, registerAccess, registersAtReset⟩

end Sys2Proof.Machine
end
section
/-! PROOFS. Fetching, host reads and forwarding -/

namespace Sys2Proof.Machine

open Sys2Proof

/-! ### Tags -/

theorem look_isNone_of_not_mem {α β : Type} [DecidableEq α] {k : α} {l : List (α × β)} (h : k ∉ l.map Prod.fst) : look k l = none := by
  induction l with
  | nil => rfl
  | cons p l ih =>
    obtain ⟨a, b⟩ := p
    simp only [List.map_cons, List.mem_cons, not_or] at h
    simp [look, Ne.symm h.1, ih h.2]

theorem look_del_self {α β : Type} [DecidableEq α] (k : α) (l : List (α × β)) : look k (del k l) = none :=
  look_isNone_of_not_mem (by simp [del])

/-- While fewer than 128 tags are held, the lowest free one is free. -/
theorem look_freeTag {h : Hqe} (hl : h.tags.length < 128) : look h.freeTag h.tags = none := by
  obtain ⟨t, ht, hn⟩ : ∃ t ∈ List.range 128, t ∉ h.tags.map Prod.fst := by
    by_contra hc
    push Not at hc
    have := (List.nodup_range (n := 128)).subperm hc |>.length_le
    simp at this
    omega
  have hs : ((List.range 128).find? fun t => (look t h.tags).isNone).isSome = true :=
    List.find?_isSome.mpr ⟨t, ht, by simp [look_isNone_of_not_mem hn]⟩
  obtain ⟨u, hu⟩ := Option.isSome_iff_exists.mp hs
  have := List.find?_some hu
  simpa [Hqe.freeTag, hu] using this

/-! ### Fetching -/

theorem CqRing.room_eq_true {c : CqRing} (h : (c.tail + 1) % 2 ^ c.k ≠ c.head) (hf : c.fault = false) : c.room = true := by
  simp [CqRing.room, CqRing.full, CqRing.size, h, hf]

theorem CqRing.room_eq_false {c : CqRing} (h : (c.tail + 1) % 2 ^ c.k = c.head) : c.room = false := by
  simp [CqRing.room, CqRing.full, CqRing.size, h]

/-- Where the CQ of every non-empty SQ is full, no SQ can be fetched. -/
theorem pick_eq_none {f : FnState} (h : ∀ n r c, f.sq n = some r → f.cq r.cq = some c → r.head ≠ r.tail → (c.tail + 1) % 2 ^ c.k = c.head) :
    f.pick = none := by
  have hn (n : Nat) : f.fetchable n = false := by
    unfold FnState.fetchable
    cases hr : f.sq n with
    | none => rfl
    | some r =>
      cases hc : f.cq r.cq with
      | none => simp [hc]
      | some c =>
        by_cases he : r.head = r.tail
        · simp [he]
        · simp [hc, CqRing.room_eq_false (h n r c hr hc he)]
  simp [FnState.pick, hn]

theorem sqeFetch_claim : Claim.SqeFetch := by
  refine ⟨?read, ?full⟩
  case read =>
    intro s r c hhi hrdy hen hlast htags hr hc hf hd hne hroom hcf
    have hcan : s.hqe.canTag .pf0 = true := by
      have hlim : 32 ≤ s.hqe.tagLimit := by unfold Hqe.tagLimit; split <;> omega
      simp [Hqe.canTag]
      omega
    have hpick : s.hqe.f0.pick = some 0 := by
      simp [FnState.pick, FnState.fetchable, hr, hf, hd, hne, hc, CqRing.room_eq_true hroom hcf]
    have he : sqeFetch s.start = s.start.fetchFrom .pf0 0 := by
      have hfn : s.fnOf .pf0 = s.hqe.f0 := rfl
      have hhi' : s.start.hiUp = true := hhi
      have hrdy' : s.start.hqeReady = true := hrdy
      simp [sqeFetch, hlast, hhi', hrdy', hcan, hfn, hen, hpick]
    refine answers_of (congrArg Host.Outcome.next he) ⟨s.hqe.freeTag, look_freeTag (by omega), ?_⟩
    have hr' : (s.start.fnOf .pf0).sq 0 = some r := hr
    have hx := FnState.onSq_eq (fun r : SqRing => { r with head := (r.head + 1) % r.size, fetched := r.fetched ++ [⟨r.head, none⟩] }) hr
    have hx0 : (FnState.onSq 0 (fun r : SqRing => { r with head := (r.head + 1) % r.size, fetched := r.fetched ++ [⟨r.head, none⟩] }) s.hqe.f0)
        = s.hqe.f0.withSq 0 { r with head := (r.head + 1) % 2 ^ r.k, fetched := r.fetched ++ [⟨r.head, none⟩] } := hx
    have hfetch : s.start.fetchFrom .pf0 0 = { s.start with
        hqe := { s.hqe with
          lastPf1 := false, tags := s.hqe.tags ++ [(s.hqe.freeTag, ⟨.pf0, .sqe 0 r.head, r.base + 64 * r.head, 64, [], false⟩)]
          f0 := s.hqe.f0.withSq 0 { r with head := (r.head + 1) % 2 ^ r.k, fetched := r.fetched ++ [⟨r.head, none⟩] } }
        out := [.hostRead .pf0 s.hqe.freeTag (r.base + 64 * r.head) 64] } := by
      unfold State.fetchFrom
      rw [hr']
      rw [← hx0]
      rfl
    rw [hfetch]
    exact ⟨rfl, rfl, rfl⟩
  case full =>
    intro s hall
    have hp (fn : Fn) : (s.fnOf fn).pick = none := pick_eq_none (hall fn)
    exact answers_start (by simp [exec, execSqeFetch, sqeFetch, hp])

/-! ### Reads of host memory -/

/-- A freed tag that nobody waits for stays free. -/
theorem freedTag_false {s : State} (h : s.hqe.readWait = []) : s.freedTag false = s := by
  simp [State.freedTag, h, State.issueOne, takeFirst]

/-- The end of an SQE's read, while no read waits. -/
theorem hostReadCompletion_last {tag : Nat} {data : List Byte} {ok : Bool} {s : State} {r : ReadReq} (hw : s.hqe.readWait = [])
    (hc : s.hqe.canTag .pf1 = true) (hr : look tag s.hqe.tags = some r)
    (hk : ∀ u : State, u.hqe.readWait = [] → (u.readEnd { r with got := r.got ++ data, failed := r.failed || !ok }).hqe.readWait = []) :
    hostReadCompletion tag data ok true s =
      (s.onHqe fun h => { h with tags := del tag h.tags }).readEnd { r with got := r.got ++ data, failed := r.failed || !ok } := by
  unfold hostReadCompletion
  simp only [hr, if_true, hc, Bool.not_true]
  exact freedTag_false (hk _ hw)

/-- What a read's end leaves where it changes one function's queue state. -/
theorem FnStep.freed {fn : Fn} {tag : Nat} {s t : State} (h : FnStep fn (s.start.onHqe fun h => { h with tags := del tag h.tags }) t) :
    look tag t.hqe.tags = none ∧ NoCommandMoved s t ∧ t = { s with hqe := t.hqe, out := t.out, cur := t.cur } := by
  rw [h]
  cases fn <;> exact ⟨look_del_self .., ⟨rfl, rfl⟩, rfl⟩

theorem FnStep.readWait {fn : Fn} {s t : State} (h : FnStep fn s t) : t.hqe.readWait = s.hqe.readWait := by
  rw [h]
  cases fn <;> rfl

theorem onHqe_tags_sq {s : State} {fn : Fn} {tag n : Nat} {r : SqRing} (h : (s.fnOf fn).sq n = some r) :
    ((s.start.onHqe fun h => { h with tags := del tag h.tags }).fnOf fn).sq n = some r := by
  cases fn <;> exact h

theorem withSq_sq {f : FnState} {n : Nat} {r : SqRing} (x : SqRing) (h : f.sq n = some r) : (f.withSq n x).sq n = some x := by
  obtain ⟨hn, -⟩ := List.getElem?_eq_some_iff.mp (FnState.sq_getElem h)
  simp [FnState.withSq, FnState.sq, hn]

theorem dmaError_fnStep (fn : Fn) (s : State) : FnStep fn s (s.dmaError fn) := by
  cases fn <;> exact postEvent_fnStep ..

/-- The end of an SQE's read changes one function's queue state only. -/
theorem readEnd_sqe_fnStep (fn : Fn) (sq idx addr len : Nat) (got : List Byte) (bad : Bool) (s : State) :
    FnStep fn s (s.readEnd ⟨fn, .sqe sq idx, addr, len, got, bad⟩) := by
  unfold State.readEnd
  dsimp only
  split
  · split
    · exact dmaError_fnStep ..
    · exact (onFn_fnStep ..).trans (ringFault_fnStep ..)
  · exact onFn_fnStep ..

/-- A failed read of an SQE puts its ring in fault and drops the entry (R76). -/
theorem readEnd_failed {fn : Fn} {sq idx addr len : Nat} {got : List Byte} {s : State} {r : SqRing} (h : (s.fnOf fn).sq sq = some r) :
    s.readEnd ⟨fn, .sqe sq idx, addr, len, got, true⟩ =
      (s.onFn fn (FnState.onSq sq fun x => { x with fetched := x.fetched.filter (fun e => e.idx ≠ idx) })).ringFault fn false sq 0x03 := by
  simp [State.readEnd, h]

theorem hostReads_claim : Claim.HostReads := by
  refine ⟨?last, ?timeout⟩
  case last =>
    intro tag data s fn sq idx addr len got r hw hc hl hr
    have he := hostReadCompletion_last (s := s.start) (data := data) (ok := true) hw hc hl fun u hu =>
      (readEnd_sqe_fnStep fn sq idx addr len (got ++ data) false u).readWait.trans hu
    obtain ⟨htag, hmoved, hrest⟩ :=
      (readEnd_sqe_fnStep fn sq idx addr len (got ++ data) false (s.start.onHqe fun h => { h with tags := del tag h.tags })).freed
    refine answers_of (congrArg Host.Outcome.next he) ⟨rfl, htag, ?_, hmoved, hrest⟩
    show ((State.onFn fn _ _).fnOf fn).sq sq = _
    rw [State.onFn_fnOf, FnState.onSq_eq _ (onHqe_tags_sq hr), withSq_sq _ (onHqe_tags_sq hr)]
    simp
  case timeout =>
    intro tag s fn sq idx addr len got bad r hw hc hl hr
    have he := hostReadCompletion_last (s := s.start) (data := []) (ok := false) hw hc hl fun u hu =>
      (readEnd_sqe_fnStep fn sq idx addr len (got ++ []) (bad || true) u).readWait.trans hu
    simp only [Bool.not_false, Bool.or_true] at he
    obtain ⟨htag, hmoved, hrest⟩ :=
      (readEnd_sqe_fnStep fn sq idx addr len (got ++ []) true (s.start.onHqe fun h => { h with tags := del tag h.tags })).freed
    have hr0 := onHqe_tags_sq (tag := tag) hr
    refine answers_of (congrArg Host.Outcome.next he) ⟨htag, ?_, ?_, hmoved, hrest⟩
    · rw [readEnd_failed hr0, (ringFault_fnOf ..).1, faultInfoWord_sq]
    · rw [readEnd_failed hr0, FnState.sq, (ringFault_fnOf ..).2.1, (FnState.faulted_sq ..).1, State.onFn_fnOf, FnState.onSq_eq _ hr0,
        FnState.onSq_eq _ (withSq_sq _ hr0)]
      exact withSq_sq _ (withSq_sq _ hr0)

/-! ### Forwarding -/

/-- The entry that HQE keeps of a command it forwards. -/
def fwdOf (q : Sqe) : Fwd := ⟨q.fn, q.sq, cidOf q, opOf q, false, false, quietOf q, false⟩

/-- A decoded SQE whose fence allows it is forwarded. -/
theorem sqeForward_eq {fn : Fn} {sq idx : Nat} {dw : List Word} {rest : List Fetched} {r : SqRing} {s : State}
    (hr : (s.fnOf fn).sq sq = some r) (hfetch : r.fetched = ⟨idx, some dw⟩ :: rest) (hfence : fenceOf ⟨fn, sq, dw⟩ = false) :
    sqeForward fn sq s = (s.onFn fn (FnState.onSq sq fun r => { r with fetched := rest })).forward ⟨fn, sq, dw⟩ := by
  simp [sqeForward, hr, hfetch, hfence]

/-- A command of PF0 without a buffer to be read is on its way, whether or not its island will take it. -/
theorem forward_pf0 {q : Sqe} {w : OpRow} {s : State} (hq : q.fn = .pf0) (hop : opRow q.fn (opOf q) = some w) (hbuf : w.buf ≠ .h2d) :
    s.forward q = s.onHqe fun h => { h with fwd := h.fwd ++ [fwdOf q] } := by
  unfold State.forward
  simp only [hop]
  simp only [hq, reduceCtorEq, decide_false, Bool.false_and, hbuf, if_false]
  split <;> simp_all [fwdOf]

/-- A command whose function does not have its opcode completes at once. -/
theorem forward_unknown {q : Sqe} {s : State} (hop : opRow q.fn (opOf q) = none) :
    s.forward q = (s.onHqe fun h => { h with fwd := h.fwd ++ [fwdOf q] }).done q stBAD_OPCODE 0 := by
  simp only [State.forward, hop, fwdOf]

/-- While the Saggar link is down a command for the Saggar completes with SAGGAR_UNREACHABLE. -/
theorem forward_down {q : Sqe} {s : State} (hq : q.fn = .pf1) (hop : 0x0F < opOf q) (hpre : preCheck (opOf q) q s = none)
    (hup : s.lnk.up = false) :
    s.forward q = (s.onHqe fun h => { h with fwd := h.fwd ++ [fwdOf q] }).done q stSAGGAR_UNREACHABLE 0 := by
  have hpre' : preCheck (opOf q) q (s.onHqe fun h => { h with fwd := h.fwd ++ [fwdOf q] }) = none := by
    rw [← hpre]
    exact preCheck_congr _ _ rfl rfl rfl
  have hlink : (s.onHqe fun h => { h with fwd := h.fwd ++ [fwdOf q] }).linkUp = false := hup
  cases hrow : opRow q.fn (opOf q) with
  | none => simp [preCheck, hrow] at hpre
  | some w =>
    rw [fwdOf] at hpre' hlink
    unfold State.forward
    simp only [hrow]
    rw [hpre', hlink]
    simp [hq, hop, fwdOf]

/-- The end of the only command that is forwarded. -/
theorem done_of_fwd_eq {q : Sqe} {st r : Nat} {s : State} {f : Fwd} (hf : s.hqe.fwd = [f]) (his : f.is q.fn q.sq (cidOf q) = true)
    (ho : f.orphan = false) :
    s.done q st r = { s with
      hqe := { s.hqe with fwd := [], ready := s.hqe.ready ++ [⟨q.fn, q.sq, cidOf q, st, r, f.quiet, none⟩] }
      cur := some (q.fn, q.sq, cidOf q) } := by
  simp [State.done, State.complete, hf, takeFirst, his, ho, State.onHqe]

/-- What the end of a command just forwarded leaves. -/
theorem done_forwarded {q : Sqe} {st : Nat} {g : SqRing → SqRing} {s : State} {r : SqRing} (hr : (s.fnOf q.fn).sq q.sq = some r)
    (hw : s.hqe.fwd = []) :
    let t := ((s.start.onFn q.fn (FnState.onSq q.sq g)).onHqe fun h => { h with fwd := h.fwd ++ [fwdOf q] }).done q st 0
    Completed q st 0 s t ∧ t.out = [] ∧ OnlyFn q.fn s t ∧ t.fnOf q.fn = (s.fnOf q.fn).withSq q.sq (g r) := by
  have hone : ((s.start.onFn q.fn (FnState.onSq q.sq g)).onHqe fun h => { h with fwd := h.fwd ++ [fwdOf q] }).hqe.fwd = [fwdOf q] := by
    cases q.fn <;> exact congrArg (· ++ [fwdOf q]) hw
  rw [← FnState.onSq_eq g hr, done_of_fwd_eq hone (by simp [Fwd.is, fwdOf]) rfl]
  refine ⟨⟨⟨quietOf q, ?_⟩, by simp [hw]⟩, rfl, ⟨fun h hh => ?_, ?_, rfl⟩, ?_⟩
  · cases q.fn <;> rfl
  · exact s.onFn_other _ hh
  · cases q.fn <;> rfl
  · cases q.fn <;> rfl

theorem sqeForward_claim : Claim.SqeForward := by
  refine ⟨?own, ?bad, ?down, ?fence⟩
  case own =>
    intro sq idx dw rest r w s hr hfetch hfence hop hbuf
    have he := (sqeForward_eq (fn := .pf0) (s := s.start) hr hfetch hfence).trans (forward_pf0 rfl hop hbuf)
    refine answers_of (congrArg Host.Outcome.next he) ⟨rfl, rfl, rfl, ⟨fun g hg => ?_, rfl, rfl⟩, FnState.onSq_eq _ hr⟩
    cases g
    · exact absurd rfl hg
    · rfl
  case bad =>
    intro fn sq idx dw rest r s hr hfetch hfence hw hop
    have he := (sqeForward_eq (s := s.start) hr hfetch hfence).trans (forward_unknown hop)
    exact answers_of (congrArg Host.Outcome.next he) (done_forwarded hr hw)
  case down =>
    intro sq idx dw rest r s hr hfetch hfence hw hop hpre hup
    have hpre' : preCheck (opOf ⟨.pf1, sq, dw⟩) ⟨.pf1, sq, dw⟩ (s.start.onFn .pf1 (FnState.onSq sq fun r => { r with fetched := rest })) =
        none := by
      rw [← hpre]
      exact preCheck_congr _ _ rfl rfl rfl
    have he := (sqeForward_eq (fn := .pf1) (s := s.start) hr hfetch hfence).trans (forward_down rfl hop hpre' hup)
    exact answers_of (congrArg Host.Outcome.next he) (done_forwarded (q := ⟨.pf1, sq, dw⟩) hr hw)
  case fence =>
    intro fn sq idx dw rest r s hr hfetch hfence ⟨f, hf, hfn, hsq⟩
    have hquiet : s.sqQuiet fn sq = false := by
      have : s.hqe.fwd.any (fun f => f.fn = fn && f.sq == sq) = true := List.any_eq_true.mpr ⟨f, hf, by simp [hfn, hsq]⟩
      simp [State.sqQuiet, this]
    have hquiet' : s.start.sqQuiet fn sq = false := hquiet
    exact answers_start (by simp [exec, execSqeForward, sqeForward, hr, hfetch, hfence, hquiet'])

/-- Settles O34: each fetch, read and forwarding is one change of its function's queue state. -/
theorem commandFetch : Obligations.CommandFetch := ⟨sqeFetch_claim, hostReads_claim, sqeForward_claim⟩

end Sys2Proof.Machine
end
section
/-! PROOFS. Posting, vector timers and the answers of the tunnel -/

namespace Sys2Proof.Machine

open Sys2Proof

/-! ### A completion queue and its entry -/

theorem FnState.onCq_cq_of_ne {f : FnState} {n m : Nat} (g : CqRing → CqRing) (h : m ≠ n) : (f.onCq n g).cq m = f.cq m := by
  simp [FnState.onCq, FnState.cq, upd, Ne.symm h]

theorem FnState.withCq_cq {f : FnState} {n : Nat} {r : CqRing} (x : CqRing) (h : f.cq n = some r) : (f.withCq n x).cq n = some x := by
  obtain ⟨hn, -⟩ := List.getElem?_eq_some_iff.mp (FnState.cq_getElem h)
  simp [FnState.withCq, FnState.cq, hn]

/-- A CQ with an entry more. -/
def CqRing.pushed (r : CqRing) : CqRing :=
  { r with tail := (r.tail + 1) % 2 ^ r.k, phase := if (r.tail + 1) % 2 ^ r.k = 0 then !r.phase else r.phase }

theorem State.onFn_congr {fn : Fn} {f g : FnState → FnState} {s : State} (h : f (s.fnOf fn) = g (s.fnOf fn)) :
    s.onFn fn f = s.onFn fn g := by
  cases fn
  · exact congrArg (fun x => { s with hqe := { s.hqe with f0 := x } }) h
  · exact congrArg (fun x => { s with hqe := { s.hqe with f1 := x } }) h

theorem State.onFn_onFn (fn : Fn) (f g : FnState → FnState) (s : State) : (s.onFn fn f).onFn fn g = s.onFn fn (g ∘ f) := by
  cases fn <;> rfl

theorem writeCqe_eq {fn : Fn} {n d0 d1 d2 : Nat} {ev : Bool} {s : State} {r : CqRing} (hr : (s.fnOf fn).cq n = some r) :
    s.writeCqe fn n d0 d1 d2 ev =
      (s.emit (.hostWrite fn (r.base + 16 * r.tail) (cqeBytes d0 d1 d2 r.phase ev))).onFn fn
        (fun f => (f.withCq n r.pushed).settled) := by
  simp only [State.writeCqe, hr]
  unfold State.settleEvents
  rw [State.onFn_onFn]
  refine State.onFn_congr ?_
  show FnState.settled (FnState.onCq n _ (s.fnOf fn)) = _
  rw [FnState.onCq_eq _ hr]
  rfl

theorem writeCqe_fnStep (fn : Fn) (n d0 d1 d2 : Nat) (ev : Bool) (s : State) : FnStep fn s (s.writeCqe fn n d0 d1 d2 ev) := by
  unfold State.writeCqe
  split
  · exact .refl ..
  · exact ((emit_fnStep ..).trans (onFn_fnStep ..)).trans (onFn_fnStep ..)

theorem moderate_fnStep (fn : Fn) (n : Nat) (s : State) : FnStep fn s (s.moderate fn n) := by
  unfold State.moderate
  split
  · exact .refl ..
  · exact .ite (.refl ..) (.ite ((onFn_fnStep ..).trans (fire_fnStep ..)) (onFn_fnStep ..))

theorem tailDone_fnStep (c : Cqe) (s : State) : FnStep c.fn s (s.tailDone c) := by
  unfold State.tailDone
  split
  · exact onFn_fnStep ..
  · exact onFn_fnStep ..
  · exact .refl ..

/-- Moderation touches the CQ it moderates and the vectors. -/
theorem moderate_fnOf (fn : Fn) (n : Nat) (s : State) :
    ((s.moderate fn n).fnOf fn).pendEv = (s.fnOf fn).pendEv ∧ ∀ m, m ≠ n → ((s.moderate fn n).fnOf fn).cq m = (s.fnOf fn).cq m := by
  unfold State.moderate
  split
  · exact ⟨rfl, fun _ _ => rfl⟩
  · split
    · exact ⟨rfl, fun _ _ => rfl⟩
    · split
      · have hv := fire_vecsOnly fn n (s.onFn fn (FnState.onCq n (fun r => { r with fresh := 0, timing := false })))
        unfold VecsOnly at hv
        rw [hv, State.onFn_fnOf]
        exact ⟨rfl, fun m hm => FnState.onCq_cq_of_ne _ hm⟩
      · rw [State.onFn_fnOf]
        exact ⟨rfl, fun m hm => FnState.onCq_cq_of_ne _ hm⟩

/-! ### The entries that wait for a completion -/

/-- Merging joins the waits of what it merges and adds none. -/
theorem mem_mergeEv {e x : PendEv} {l : List PendEv} {k : Fn × Nat × Nat} (hx : x ∈ mergeEv e l) (hk : k ∈ x.after) :
    k ∈ e.after ∨ ∃ y ∈ l, k ∈ y.after := by
  induction l with
  | nil =>
    simp only [mergeEv, List.mem_singleton] at hx
    exact .inl (hx ▸ hk)
  | cons y l ih =>
    unfold mergeEv at hx
    split at hx
    · rcases List.mem_cons.mp hx with rfl | hx
      · rcases List.mem_append.mp hk with hk | hk
        · exact .inr ⟨y, by simp, hk⟩
        · exact .inl hk
      · exact .inr ⟨x, by simp [hx], hk⟩
    · rcases List.mem_cons.mp hx with rfl | hx
      · exact .inr ⟨x, by simp, hk⟩
      · rcases ih hx with h | ⟨z, hz, h⟩
        · exact .inl h
        · exact .inr ⟨z, by simp [hz], h⟩

theorem not_mem_mergeAll {l : List PendEv} {k : Fn × Nat × Nat} (h : ∀ e ∈ l, k ∉ e.after) : ∀ e ∈ mergeAll l, k ∉ e.after := by
  suffices hs : ∀ a : List PendEv, (∀ e ∈ a, k ∉ e.after) → ∀ e ∈ l.foldl (fun a e => mergeEv e a) a, k ∉ e.after from hs [] (by simp)
  induction l with
  | nil => exact fun a ha => ha
  | cons x l ih =>
    refine fun a ha => ih (fun e he => h e (by simp [he])) _ fun e he hk => ?_
    rcases mem_mergeEv he hk with hx | ⟨y, hy, hyk⟩
    · exact h x (by simp) hx
    · exact ha y hy hyk

theorem settled_pendEv {f : FnState} {k : Fn × Nat × Nat} (h : ∀ e ∈ f.pendEv, k ∉ e.after) : ∀ e ∈ f.settled.pendEv, k ∉ e.after := by
  unfold FnState.settled
  split
  · exact not_mem_mergeAll h
  · exact h

theorem settled_cq (f : FnState) (n : Nat) : f.settled.cq n = f.cq n := by
  unfold FnState.settled
  split <;> rfl

theorem not_mem_caused (k : Fn × Nat × Nat) (f : FnState) : ∀ e ∈ (f.caused k).pendEv, k ∉ e.after := by
  simp [FnState.caused]

theorem caused_eq_self {k : Fn × Nat × Nat} {f : FnState} (h : ∀ e ∈ f.pendEv ++ f.held, k ∉ e.after) : f.caused k = f := by
  have hf (l : List PendEv) (hl : ∀ e ∈ l, k ∉ e.after) :
      l.map (fun e => { e with after := e.after.filter (fun y => y ≠ k) }) = l := by
    refine (List.map_congr_left fun e he => ?_).trans (List.map_id l)
    have : e.after.filter (fun y => y ≠ k) = e.after := List.filter_eq_self.mpr fun y hy => by
      simpa using fun hyk : y = k => hl e he (hyk ▸ hy)
    rw [this]
    rfl
  show { f with pendEv := f.pendEv.map _, held := f.held.map _ } = f
  rw [hf f.pendEv fun e he => h e (by simp [he]), hf f.held fun e he => h e (by simp [he])]

/-! ### Posting -/

theorem takeFirst_eq_none {α : Type} {p : α → Bool} {l : List α} (h : ∀ x ∈ l, p x = false) : takeFirst p l = none := by
  induction l with
  | nil => rfl
  | cons x l ih => simp [takeFirst, h x (by simp), ih fun y hy => h y (by simp [hy])]

/-- What a completion leaves before its entry is written. -/
def State.unlisted (c : Cqe) (rest : List Cqe) (s : State) : State := (s.onHqe fun h => { h with ready := rest }).cqePosted c

theorem unlisted_hqe (c : Cqe) (rest : List Cqe) (s : State) : (s.unlisted c rest).hqe = { s.hqe with
    ready := rest, f0 := s.hqe.f0.caused (c.fn, c.sq, c.cid), f1 := s.hqe.f1.caused (c.fn, c.sq, c.cid) } := by
  unfold State.unlisted State.cqePosted State.changePosted
  split <;> rfl

theorem unlisted_spa (c : Cqe) (rest : List Cqe) (s : State) : (s.unlisted c rest).spa = { s.spa with
    unposted := if c.fn = .pf1 then s.spa.unposted else s.spa.unposted.filterMap (fun u =>
      if u.sq ≠ c.sq ∨ u.cid ≠ c.cid then some u else if u.left ≤ 1 then none else some { u with left := u.left - 1 }) } := by
  unfold State.unlisted State.cqePosted State.changePosted
  split <;> rfl

theorem unlisted_sup (c : Cqe) (rest : List Cqe) (s : State) : (s.unlisted c rest).sup =
    if c.fn = .pf0 && s.sup.posting.any (fun x => x.sq == c.sq && x.cid == c.cid) then { s.sup with posting := none } else s.sup := by
  unfold State.unlisted State.cqePosted State.changePosted
  split <;> rfl

theorem unlisted_eq (c : Cqe) (rest : List Cqe) (s : State) : s.unlisted c rest =
    { s with hqe := (s.unlisted c rest).hqe, spa := (s.unlisted c rest).spa, sup := (s.unlisted c rest).sup } := by
  unfold State.unlisted State.cqePosted State.changePosted
  split <;> rfl

theorem unlisted_fnOf (c : Cqe) (rest : List Cqe) (s : State) (fn : Fn) :
    (s.unlisted c rest).fnOf fn = (s.fnOf fn).caused (c.fn, c.sq, c.cid) := by
  simp only [State.fnOf, unlisted_hqe]
  cases fn <;> rfl

/-- The oldest completion is posted where its CQ has room. -/
theorem cqePost_eq {s : State} {c : Cqe} {rest : List Cqe} {r : SqRing} {k : CqRing} (hready : s.hqe.ready = c :: rest)
    (htail : s.tailFree c = true) (hr : (s.fnOf c.fn).sq c.sq = some r) (hk : (s.fnOf c.fn).cq r.cq = some k)
    (hroom : (k.tail + 1) % 2 ^ k.k ≠ k.head) (hf : k.fault = false) :
    cqePost s = (if c.quiet then
        (s.unlisted c rest).writeCqe c.fn r.cq (c.cid + c.status * 2 ^ 16) c.result (r.head + c.sq * 2 ^ 16) false
      else ((s.unlisted c rest).writeCqe c.fn r.cq (c.cid + c.status * 2 ^ 16) c.result (r.head + c.sq * 2 ^ 16) false).moderate
        c.fn r.cq).tailDone c := by
  have hpost : s.postable c = true := by simp [State.postable, hr, hk, CqRing.room_eq_true hroom hf, htail]
  have hr' : ((s.unlisted c rest).fnOf c.fn).sq c.sq = some r := by rw [unlisted_fnOf]; exact hr
  have hk' : ((s.unlisted c rest).fnOf c.fn).cq r.cq = some k := by rw [unlisted_fnOf]; exact hk
  unfold cqePost
  rw [hready]
  simp only [takeFirst, hpost, if_true]
  unfold State.unlisted at hr' hk' ⊢
  simp only [hr', hk', hf, Bool.false_eq_true, if_false]

/-- A step of one function's queue state leaves everything but its queue state and the pins. -/
theorem FnStep.kept {fn : Fn} {s t : State} (h : FnStep fn s t) :
    t.hqe.ready = s.hqe.ready ∧ t.hqe.fwd = s.hqe.fwd ∧ (∀ g, g ≠ fn → t.fnOf g = s.fnOf g) ∧
    t.hqe = { s.hqe with f0 := t.hqe.f0, f1 := t.hqe.f1 } ∧ t = { s with hqe := t.hqe, out := t.out } := by
  rw [h]
  refine ⟨?_, ?_, fun g hg => State.onFn_other s _ hg, ?_, rfl⟩
  all_goals cases fn <;> rfl

theorem tailFree_of_tail_none {s : State} {c : Cqe} (h : c.tail = none) : s.tailFree c = true := by simp [State.tailFree, h]

theorem tailFree_moderates {s : State} {c : Cqe} {n count time : Nat} (h : c.tail = some (.moderates n count time)) :
    s.tailFree c = true := by simp [State.tailFree, h]

/-- The posting of the oldest completion, as one step of its function's queue state. -/
theorem cqePost_step {s : State} {c : Cqe} {rest : List Cqe} {r : SqRing} {k : CqRing} (hready : s.hqe.ready = c :: rest)
    (htail : s.tailFree c = true) (hr : (s.fnOf c.fn).sq c.sq = some r) (hk : (s.fnOf c.fn).cq r.cq = some k)
    (hroom : (k.tail + 1) % 2 ^ k.k ≠ k.head) (hf : k.fault = false) : FnStep c.fn (s.unlisted c rest) (cqePost s) := by
  rw [cqePost_eq hready htail hr hk hroom hf]
  exact (FnStep.ite (writeCqe_fnStep ..) ((writeCqe_fnStep ..).trans (moderate_fnStep ..))).trans (tailDone_fnStep ..)

/-- What the posting of the oldest completion leaves of its function's queue state, whatever vector fires. -/
theorem cqePost_fnOf {s : State} {c : Cqe} {rest : List Cqe} {r : SqRing} {k : CqRing} (hready : s.hqe.ready = c :: rest)
    (htail : s.tailFree c = true) (hr : (s.fnOf c.fn).sq c.sq = some r) (hk : (s.fnOf c.fn).cq r.cq = some k)
    (hroom : (k.tail + 1) % 2 ^ k.k ≠ k.head) (hf : k.fault = false) :
    ∃ u : State, cqePost s = u.tailDone c ∧ (∀ e ∈ (u.fnOf c.fn).pendEv, (c.fn, c.sq, c.cid) ∉ e.after) ∧
      ∀ m, m ≠ r.cq → (u.fnOf c.fn).cq m = (s.fnOf c.fn).cq m := by
  have hk' : ((s.unlisted c rest).fnOf c.fn).cq r.cq = some k := by rw [unlisted_fnOf]; exact hk
  refine ⟨_, cqePost_eq hready htail hr hk hroom hf, ?_⟩
  rw [writeCqe_eq hk']
  generalize hw : State.onFn c.fn (fun f => (f.withCq r.cq k.pushed).settled) _ = w
  have hfn : w.fnOf c.fn = (((s.fnOf c.fn).caused (c.fn, c.sq, c.cid)).withCq r.cq k.pushed).settled := by
    rw [← hw, State.onFn_fnOf, State.emit_fnOf, unlisted_fnOf]
  have hpend : ∀ e ∈ (w.fnOf c.fn).pendEv, (c.fn, c.sq, c.cid) ∉ e.after := by
    rw [hfn]
    exact settled_pendEv (not_mem_caused _ (s.fnOf c.fn))
  have hcq : ∀ m, m ≠ r.cq → (w.fnOf c.fn).cq m = (s.fnOf c.fn).cq m := fun m hm => by
    rw [hfn, settled_cq]
    simp [FnState.withCq, FnState.cq, FnState.caused, Ne.symm hm]
  split
  · exact ⟨hpend, hcq⟩
  · obtain ⟨hp, hc⟩ := moderate_fnOf c.fn r.cq w
    exact ⟨hp ▸ hpend, fun m hm => (hc m hm).trans (hcq m hm)⟩

/-- A completion that nothing waits for leaves no more than its own entry. -/
theorem unlisted_eq_of_nothing {s : State} {c : Cqe} {rest : List Cqe} (hpost : s.sup.posting = none) (h : NothingWaitsFor c s) :
    s.unlisted c rest = s.onHqe fun h => { h with ready := rest } := by
  obtain ⟨hspa, hev⟩ := h
  have hu : (s.unlisted c rest).spa = s.spa := by
    rw [unlisted_spa]
    split
    · rfl
    next hc =>
      have hc0 : c.fn = .pf0 := by cases hfn : c.fn <;> simp_all
      have : s.spa.unposted.filterMap (fun u =>
          if u.sq ≠ c.sq ∨ u.cid ≠ c.cid then some u else if u.left ≤ 1 then none else some { u with left := u.left - 1 }) =
          s.spa.unposted := by
        refine (List.filterMap_congr fun u hu => ?_).trans List.filterMap_some
        rw [if_pos (by have := hspa u hu; grind)]
      rw [this]
  have hh : (s.unlisted c rest).hqe = { s.hqe with ready := rest } := by
    have h0 : s.hqe.f0.caused (c.fn, c.sq, c.cid) = s.hqe.f0 := caused_eq_self (hev .pf0)
    have h1 : s.hqe.f1.caused (c.fn, c.sq, c.cid) = s.hqe.f1 := caused_eq_self (hev .pf1)
    rw [unlisted_hqe, h0, h1]
  rw [unlisted_eq, hu, hh, unlisted_sup, hpost]
  simp [State.onHqe]

theorem posting : Claim.Posting := by
  refine ⟨?quiet, ?commit, ?change, ?moderates, ?full, ?event⟩
  case quiet =>
    intro s c rest r k hready hpost hr hk htail hq hnone hroom hf
    have he : cqePost s.start = (s.start.onHqe fun h => { h with ready := rest }).writeCqe c.fn r.cq (c.cid + c.status * 2 ^ 16)
        c.result (r.head + c.sq * 2 ^ 16) false := by
      rw [cqePost_eq (s := s.start) hready (tailFree_of_tail_none htail) hr hk hroom hf, if_pos hq, State.tailDone, htail,
        unlisted_eq_of_nothing (s := s.start) hpost hnone]
    have hk' : ((s.start.onHqe fun h => { h with ready := rest }).fnOf c.fn).cq r.cq = some k := by
      cases hc : c.fn <;> rw [hc] at hk <;> exact hk
    rw [writeCqe_eq hk'] at he
    refine answers_of (congrArg Host.Outcome.next he) ⟨rfl, ?_, ?_, ⟨fun g hg => ?_, ?_, rfl⟩, ?_⟩
    · cases c.fn <;> rfl
    · cases c.fn <;> rfl
    · rw [State.onFn_other _ _ hg]
      cases g <;> rfl
    · cases c.fn <;> rfl
    · rw [State.onFn_fnOf]
      cases c.fn <;> rfl
  case commit =>
    intro s c rest r k x hready hc hpost hsq hcid htail hr hk hroom hf
    have hr' : (s.start.fnOf c.fn).sq c.sq = some r := by rw [hc]; exact hr
    have hk' : (s.start.fnOf c.fn).cq r.cq = some k := by rw [hc]; exact hk
    obtain ⟨hrest, -, -, -, heq⟩ := (cqePost_step (s := s.start) hready (tailFree_of_tail_none htail) hr' hk' hroom hf).kept
    rw [unlisted_eq] at heq
    refine answers_of rfl ⟨?_, hrest.trans (by rw [unlisted_hqe]), ?_⟩
    · rw [heq]
      show (s.start.unlisted c rest).sup = _
      rw [unlisted_sup]
      simp [hc, hpost, hsq, hcid]
    · rw [heq]
      rfl
  case change =>
    intro s c rest r k hready htail hr hk hroom hf
    have hfree := tailFree_of_tail_none (s := s.start) htail
    obtain ⟨hrest, -, hother, -, heq⟩ := (cqePost_step (s := s.start) hready hfree hr hk hroom hf).kept
    refine answers_of rfl ⟨hrest.trans (by rw [unlisted_hqe]), ?_, fun fn => ?_⟩
    · rw [heq]
      exact unlisted_spa ..
    · by_cases hfn : fn = c.fn
      · obtain ⟨u, hu, hpend, -⟩ := cqePost_fnOf (s := s.start) hready hfree hr hk hroom hf
        rw [hu, hfn, State.tailDone, htail]
        exact hpend
      · rw [hother fn hfn, unlisted_fnOf]
        exact not_mem_caused (c.fn, c.sq, c.cid) _
  case moderates =>
    intro s c rest r k m n count time hready hr hk hroom hf htail hne hm
    obtain ⟨u, hu, -, hcq⟩ := cqePost_fnOf (s := s.start) hready (tailFree_moderates htail) hr hk hroom hf
    refine answers_of rfl ?_
    rw [hu, State.tailDone, htail]
    have hm' : (u.fnOf c.fn).cq n = some m := (hcq n hne).trans hm
    dsimp only
    rw [State.onFn_fnOf, FnState.onCq_eq _ hm', FnState.withCq_cq _ hm']
  case full =>
    intro s hall
    have hnone : takeFirst s.start.postable s.start.hqe.ready = none := by
      refine takeFirst_eq_none fun c hc => ?_
      obtain ⟨r, k, hr, hk, hfull, hnf⟩ := hall c hc
      have : ¬(k.fault = true ∧ r.deleting = true) := hnf
      simp only [State.postable, State.start_fnOf, hr, hk, CqRing.room_eq_false hfull]
      simp_all
    exact answers_start (by simp only [exec, execCqePost, cqePost, hnone])
  case event =>
    intro fn s e rest n k hev hpend hafter hk hroom hf
    have hfull : (s.fnOf fn).eventFull = false := by simp [FnState.eventFull, hev, hk, CqRing.room_eq_true hroom hf]
    have hk' : ((s.start.onFn fn fun f => { f with pendEv := rest }).fnOf fn).cq n = some k := by
      rw [State.onFn_fnOf]
      exact hk
    have he : eventCqePost fn s.start = (s.start.onFn fn fun f => { f with pendEv := rest }).writeCqe fn n (e.code + e.count * 2 ^ 16)
        e.arg (e.source % 2 ^ 16 + 0xFF * 2 ^ 16) true := by
      simp [eventCqePost, hev, hpend, hfull, State.causeWaits, hafter]
    rw [writeCqe_eq hk'] at he
    obtain ⟨honly, hmoved⟩ := (((onFn_fnStep fn (fun f => { f with pendEv := rest }) s.start).trans (emit_fnStep ..)).trans
      (onFn_fnStep fn (fun f => (f.withCq n k.pushed).settled) _)).only
    refine answers_of (congrArg Host.Outcome.next he) ⟨rfl, hmoved, honly, ?_⟩
    rw [State.onFn_fnOf, State.emit_fnOf, State.onFn_fnOf]
    rfl

/-! ### Vectors -/

theorem fire_unmasked {fn : Fn} {v : Nat} {s : State} (h : ((s.fnOf fn).vec v).masked = false) :
    s.fire fn v = s.emit (.msix fn v (((s.fnOf fn).vec v).addrHi.toNat * 2 ^ 32 + ((s.fnOf fn).vec v).addrLo.toNat)
      ((s.fnOf fn).vec v).data) := by
  simp [State.fire, h]

/-- A vector whose state is not that of reset exists. -/
theorem vec_lt_of_hold {f : FnState} {v : Nat} (h : (f.vec v).hold = true) : v < f.vecs.length := by
  by_contra hn
  have : f.vecs[v]? = none := List.getElem?_eq_none (by omega)
  simp [FnState.vec, this] at h
  exact absurd h (by decide)

theorem onVec_vec {f : FnState} {v : Nat} (g : MsixVec → MsixVec) (h : v < f.vecs.length) :
    (f.onVec v g).vec v = g (f.vec v) ∧ ∀ w, w ≠ v → (f.onVec v g).vec w = f.vec w := by
  rw [FnState.onVec_eq g h]
  exact ⟨by simp [FnState.vec, h], fun w hw => by simp [FnState.vec, Ne.symm hw]⟩

theorem vectorTimers : Claim.VectorTimers := by
  refine ⟨?coalesce, ?again, ?quiet, ?unmask, ?unmaskEvent⟩
  case coalesce =>
    intro fn n s k hk ht hfresh hm
    have hstep := onFn_fnStep fn (FnState.onCq n fun r => { r with fresh := 0, timing := false }) s.start
    have hm' : (((s.start.onFn fn (FnState.onCq n fun r => { r with fresh := 0, timing := false })).fnOf fn).vec n).masked = false := by
      rw [State.onFn_fnOf]
      exact hm
    have he : coalescingTimeExpiry fn n s.start =
        (s.start.onFn fn (FnState.onCq n fun r => { r with fresh := 0, timing := false })).fire fn n := by
      simp [coalescingTimeExpiry, hk, ht, hfresh]
    rw [fire_unmasked hm'] at he
    obtain ⟨honly, hmoved⟩ := (hstep.trans (emit_fnStep ..)).only
    refine answers_of (congrArg Host.Outcome.next he) ⟨?_, hmoved, honly, ?_⟩
    · rw [State.onFn_fnOf]
      rfl
    · rw [State.emit_fnOf, State.onFn_fnOf]
      exact FnState.onCq_eq _ hk
  case again =>
    intro fn v s hh ha hm
    have hv := vec_lt_of_hold hh
    have he : holdoffEnd fn v s.start = (s.start.fire fn v).onFn fn (FnState.onVec v fun x => { x with again := false, hold := !x.masked }) := by
      simp [holdoffEnd, hh, ha]
    rw [fire_unmasked (s := s.start) hm] at he
    obtain ⟨honly, hmoved⟩ := ((emit_fnStep fn _ s.start).trans (onFn_fnStep fn (FnState.onVec v fun x => { x with
      again := false, hold := !x.masked }) _)).only
    obtain ⟨hvec, hother⟩ := onVec_vec (fun x : MsixVec => { x with again := false, hold := !x.masked }) hv
    refine answers_of (congrArg Host.Outcome.next he) ⟨rfl, ?_, ?_, hmoved, honly, ?_, ?_⟩
    all_goals rw [State.onFn_fnOf, State.emit_fnOf, State.start_fnOf]
    · simp [hvec, hm]
    · simp [hvec]
    · rfl
    · exact hother
  case quiet =>
    intro fn v s hh ha
    have hv := vec_lt_of_hold hh
    have he : holdoffEnd fn v s.start = s.start.onFn fn (FnState.onVec v fun x => { x with hold := false }) := by
      simp [holdoffEnd, hh, ha]
    obtain ⟨honly, hmoved⟩ := (onFn_fnStep fn (FnState.onVec v fun x => { x with hold := false }) s.start).only
    obtain ⟨hvec, hother⟩ := onVec_vec (fun x : MsixVec => { x with hold := false }) hv
    refine answers_of (congrArg Host.Outcome.next he) ⟨rfl, ?_, hmoved, honly, ?_, ?_⟩
    all_goals rw [State.onFn_fnOf, State.start_fnOf]
    · simp [hvec]
    · rfl
    · exact hother
  case unmask =>
    intro fn v s hv hm hp
    have hfn : (s.start.onFn fn (FnState.onVec v fun x => { x with masked := false, pend := false })).fnOf fn =
        { s.fnOf fn with vecs := (s.fnOf fn).vecs.set v { (s.fnOf fn).vec v with masked := false, pend := false } } := by
      rw [State.onFn_fnOf, State.start_fnOf, FnState.onVec_eq _ hv]
    have hstep := onFn_fnStep fn (FnState.onVec v fun x => { x with masked := false, pend := false }) s.start
    cases hpend : ((s.fnOf fn).vec v).pend with
    | false =>
      have he : msixUnmask fn v s.start = s.start.onFn fn (FnState.onVec v fun x => { x with masked := false, pend := false }) := by
        simp [msixUnmask, hpend]
      obtain ⟨honly, hmoved⟩ := hstep.only
      exact answers_of (congrArg Host.Outcome.next he) ⟨by simp, hmoved, honly, hfn⟩
    | true =>
      have hev : isEventVec fn v = false := by simpa [hpend] using hp
      have hvec : ((s.start.onFn fn (FnState.onVec v fun x => { x with masked := false, pend := false })).fnOf fn).vec v =
          { (s.fnOf fn).vec v with masked := false, pend := false } := by
        rw [State.onFn_fnOf]
        exact (onVec_vec _ hv).1
      have he : msixUnmask fn v s.start =
          (s.start.onFn fn (FnState.onVec v fun x => { x with masked := false, pend := false })).fire fn v := by
        simp [msixUnmask, hpend, hm, hev]
      rw [fire_unmasked (by rw [hvec]), hvec] at he
      obtain ⟨honly, hmoved⟩ := (hstep.trans (emit_fnStep ..)).only
      exact answers_of (congrArg Host.Outcome.next he) ⟨by simp, hmoved, honly, by rw [State.emit_fnOf, hfn]⟩
  case unmaskEvent =>
    intro fn v s hv hm hev hpend
    have hset (g : MsixVec → MsixVec) : (((s.fnOf fn).onVec v fun x => { x with masked := false, pend := false }).onVec v g) =
        { s.fnOf fn with vecs := (s.fnOf fn).vecs.set v (g { (s.fnOf fn).vec v with masked := false, pend := false }) } := by
      have hv' : v < ((s.fnOf fn).onVec v fun x => { x with masked := false, pend := false }).vecs.length := by
        rw [FnState.onVec_eq _ hv]
        simpa using hv
      rw [FnState.onVec_eq _ hv', (onVec_vec _ hv).1, FnState.onVec_eq _ hv]
      simp
    have hstep := onFn_fnStep fn (FnState.onVec v fun x => { x with masked := false, pend := false }) s.start
    have hvec : ((s.start.onFn fn (FnState.onVec v fun x => { x with masked := false, pend := false })).fnOf fn).vec v =
        { (s.fnOf fn).vec v with masked := false, pend := false } := by
      rw [State.onFn_fnOf]
      exact (onVec_vec _ hv).1
    have he : msixUnmask fn v s.start =
        (s.start.onFn fn (FnState.onVec v fun x => { x with masked := false, pend := false })).fireEvent fn v := by
      simp [msixUnmask, hpend, hm, hev]
    obtain ⟨honly, hmoved⟩ := (hstep.trans (fireEvent_fnStep ..)).only
    refine answers_of (congrArg Host.Outcome.next he) ⟨?_, hmoved, honly, ?_⟩
    all_goals cases hh : ((s.fnOf fn).vec v).hold
    all_goals simp only [State.fireEvent, hvec, hh, Bool.false_eq_true, if_false, if_true]
    · rw [fire_unmasked (by rw [hvec]), hvec]
      rfl
    · rfl
    · rw [fire_unmasked (by rw [hvec]), State.onFn_fnOf, State.emit_fnOf, State.onFn_fnOf, State.start_fnOf, hset]
      simp
    · rw [State.onFn_fnOf, State.onFn_fnOf, State.start_fnOf, hset]
      simp [hh]

/-! ### The answers of the tunnel -/

/-- With no message before it, the Saggar's answer arrives alone. -/
theorem sessionArrives_eq_self {s : State} (h1 : s.lnk.toSt = []) (h2 : s.lnk.inSt = []) (h3 : s.lnk.heldPf1 = []) :
    s.sessionArrives = s := by
  unfold State.sessionArrives
  split
  next hp =>
    have hl : SgLink.sessionFirst false s.lnk = s.lnk := by
      simp only [SgLink.sessionFirst, Bool.false_eq_true, if_false, h1, List.append_nil]
      rw [← h1]
    have hs : s.onLnk (SgLink.sessionFirst false) = s := by
      unfold State.onLnk
      rw [hl]
    rw [hs]
    have h0 : s.takeAnswers = s := by
      simp only [State.takeAnswers, State.onLnk, h2, List.filterMap_nil, List.foldl_nil, List.filter_nil]
      rw [← h2]
    rw [h0]
    unfold State.flushPf1
    split
    · rw [h3, List.foldl_nil]
      unfold State.onLnk
      rw [← h3]
    · rfl
  · rfl

/-- A command that its rings still own completes. -/
theorem complete_of_takeFirst {fn : Fn} {sq cid st r : Nat} {s : State} {f : Fwd} {fw : List Fwd}
    (h : takeFirst (Fwd.is fn sq cid) s.hqe.fwd = some (f, fw)) (ho : f.orphan = false) :
    s.complete fn sq cid st r = { s with
      hqe := { s.hqe with fwd := fw, ready := s.hqe.ready ++ [⟨fn, sq, cid, st, r, f.quiet, none⟩] }
      cur := some (fn, sq, cid) } := by
  simp [State.complete, h, ho, State.onHqe]

theorem tunnelAnswers : Claim.TunnelAnswers := by
  refine ⟨?answer, ?timeout⟩
  case answer =>
    intro s a rest f fw ha hf ho hup hsg h1 h2 h3
    have hpath : s.start.lnk.path = true := by simp [SgLink.path, hup, hsg]
    have he : tunnelAnswer s.start =
        ((s.start.onHqe fun h => { h with answers := rest }).dma .pf1 a.addr a.buf).complete .pf1 a.sq a.cid a.status a.result := by
      have hf' : takeFirst (Fwd.is .pf1 a.sq a.cid) (s.start.onHqe fun h => { h with answers := rest }).hqe.fwd = some (f, fw) := hf
      rw [tunnelAnswer, if_pos hpath, sessionArrives_eq_self (s := s.start) h1 h2 h3, State.takeAnswer]
      simp only [State.start_hqe, ha, hf', ho, Bool.false_eq_true, if_false]
    rw [complete_of_takeFirst (s := (s.start.onHqe fun h => { h with answers := rest }).dma .pf1 a.addr a.buf) hf ho] at he
    exact answers_of (congrArg Host.Outcome.next he) ⟨by simp [State.dma, State.hostWrites]; rfl, rfl, rfl⟩
  case timeout =>
    intro s sq cid f fw hf hop ho
    obtain ⟨-, his, hmem⟩ := takeFirst_filter _ _ _ _ hf
    have hfn : f.fn = .pf1 := by
      simp only [Fwd.is, Bool.and_eq_true, decide_eq_true_eq] at his
      exact his.1.1
    have hany : s.hqe.fwd.any (fun f => f.tunnelled && f.is .pf1 sq cid) = true :=
      List.any_eq_true.mpr ⟨f, hmem, by simp [Fwd.tunnelled, hfn, hop, his]⟩
    have he : tunnelTimeout sq cid s.start = _ := if_pos hany
    rw [complete_of_takeFirst (s := (s.start.onHqe _).forgetWaiting sq cid) hf ho] at he
    refine answers_of (congrArg Host.Outcome.next he) ⟨rfl, rfl, fun a rest ha => ?_, fun hno => ?_, rfl⟩
    · simp [State.forgetWaiting, State.onHqe, ha]
    · have hnone : takeFirst (fun a : Answer => a.sq == sq && a.cid == cid) s.hqe.answers = none :=
        takeFirst_eq_none fun a ha => by simpa using hno a ha
      simp [State.forgetWaiting, State.onHqe, hnone]

/-- Settles O35: an entry posted, a vector fired and an answer taken are each one step of a function's queue state. -/
theorem completionPosting : Obligations.CompletionPosting := ⟨posting, vectorTimers, tunnelAnswers⟩

end Sys2Proof.Machine
end
section
/-! PROOFS. Tile memory: allocation, a tile's life and retirement -/

namespace Sys2Proof.Machine

open Sys2Proof

/-! ### Completion from a state that its command has changed -/

/-- A command that has changed the state outside the HQE completes. -/
theorem done_kept {q : Sqe} {st r : Nat} {s s1 : State} (h : OwnedAs q.fn q.sq (cidOf q) s) (hh : s1.hqe = (s.start.accept q).hqe) :
    Completed q st r s (s1.done q st r) ∧ RingsKept s (s1.done q st r) := by
  refine ⟨State.done_completed h (by rw [hh]) (by rw [hh]; rfl), ?_⟩
  unfold RingsKept
  rw [s1.done_rings, hh]
  rfl

/-- The same with bytes for its buffer. -/
theorem replyDone_kept {q : Sqe} {r : Nat} {bytes : List Byte} {s s1 : State} (h : OwnedAs q.fn q.sq (cidOf q) s)
    (hh : s1.hqe = (s.start.accept q).hqe) (ho : s1.out = []) :
    Completed q stDONE r s (s1.replyDone q bytes r) ∧ Returned q bytes (s1.replyDone q bytes r) ∧
    RingsKept s (s1.replyDone q bytes r) := by
  have hreply : (s1.reply q bytes).hqe = (s.start.accept q).hqe := by rw [State.reply_hqe, hh]
  obtain ⟨hc, hk⟩ := done_kept (st := stDONE) (r := r) h hreply
  refine ⟨hc, ?_, hk⟩
  simp only [Returned, State.replyDone, State.done_out, State.hostWrites]
  rw [(s1.reply q bytes).done_rings]
  show s1.out ++ _ = _
  rw [ho]
  rfl

/-! ### Free indices -/

/-- A pool index that no tile holds and that is in service. -/
abbrev Tmf.isFree (t : Tmf) (i : Nat) : Prop := isPool i = true ∧ look i t.tiles = none ∧ i ∉ t.oos

/-- The pool's indices in their cycle. -/
def cyc (a : Nat) : Nat := 0x0940 + a % 62144

theorem isPool_cyc (a : Nat) : isPool (cyc a) = true := by
  unfold isPool cyc
  simp only [Bool.and_eq_true, decide_eq_true_eq]
  omega

theorem cyc_succ (a : Nat) : (if cyc a ≥ 0xFBFF then 0x0940 else cyc a + 1) = cyc (a + 1) := by
  unfold cyc
  split <;> omega

/-- The search finds a free index or has seen every index of its range held. -/
theorem freeFrom_cases (t : Tmf) (n a : Nat) :
    (∃ i, t.freeFrom n (cyc a) = some i ∧ t.isFree i) ∨ ∀ d < n, ¬t.isFree (cyc (a + d)) := by
  induction n generalizing a with
  | zero => exact .inr (by simp)
  | succ n ih =>
    by_cases hf : t.isFree (cyc a)
    · obtain ⟨hp, hl, ho⟩ := hf
      exact .inl ⟨cyc a, by simp [Tmf.freeFrom, hl, ho], hp, hl, ho⟩
    · have hnext : t.freeFrom (n + 1) (cyc a) = t.freeFrom n (cyc (a + 1)) := by
        conv_lhs => unfold Tmf.freeFrom
        rw [if_neg, cyc_succ]
        simpa [Tmf.isFree, isPool_cyc] using hf
      rw [hnext]
      refine (ih (a + 1)).imp_right fun h d hd => ?_
      cases d with
      | zero => exact hf
      | succ d =>
        have := h d (by omega)
        rwa [Nat.add_right_comm, Nat.add_assoc] at this

theorem mem_keys_of_look {α β : Type} [DecidableEq α] {k : α} {l : List (α × β)} (h : look k l ≠ none) : k ∈ l.map Prod.fst := by
  by_contra hn
  exact h (look_isNone_of_not_mem hn)

/-- While the pool has a free tile, the next index exists and is free. -/
theorem freeIndex_of_poolFree {s : State} (h : 0 < s.tmf.poolFree) : ∃ i, s.freeIndex = some i ∧ s.tmf.isFree i := by
  refine (freeFrom_cases s.tmf 62144 (Config.freeNat s.free)).resolve_right fun hall => ?_
  have hheld : ∀ a ∈ (List.range 62144).map (fun d => 0x0940 + d), a ∈ s.tmf.oos.filter isPool ++ s.tmf.tiles.map Prod.fst := by
    intro a ha
    obtain ⟨d, hd, rfl⟩ := List.mem_map.mp ha
    have hd' : d < 62144 := List.mem_range.mp hd
    have hcyc : cyc (Config.freeNat s.free + (d + 62144 - Config.freeNat s.free % 62144) % 62144) = 0x0940 + d := by
      unfold cyc
      omega
    have hn := hall ((d + 62144 - Config.freeNat s.free % 62144) % 62144) (Nat.mod_lt _ (by decide))
    rw [hcyc] at hn
    have hp : isPool (0x0940 + d) = true := by
      rw [← hcyc]
      exact isPool_cyc _
    simp only [List.mem_append, List.mem_filter, hp, and_true]
    by_contra hc
    push Not at hc
    exact hn ⟨hp, look_isNone_of_not_mem hc.2, hc.1⟩
  have hnd : ((List.range 62144).map (fun d => 0x0940 + d)).Nodup := by
    refine List.Nodup.map (fun a b hab => ?_) List.nodup_range
    simpa using hab
  have hlen := (hnd.subperm hheld).length_le
  simp only [List.length_map, List.length_range, List.length_append] at hlen
  unfold Tmf.poolFree at h
  omega

/-! ### Allocation -/

/-- A host tile as it is allocated. -/
def freshTile : Tile := ⟨.host, false, zeros 4096, 0⟩

/-- The state with host tiles of the indices `is` allocated. -/
def State.withHosts (is : List Nat) (s : State) : State :=
  { s with tmf := { s.tmf with tiles := s.tmf.tiles ++ is.map (fun i => (i, freshTile)) }, free := s.free + is.length }

theorem alloc_host {s : State} {i : Nat} (h : s.freeIndex = some i) : s.alloc .host = (s.withHosts [i], some i) := by
  simp only [State.alloc, h]
  rfl

theorem look_append {α β : Type} [DecidableEq α] (k : α) (l m : List (α × β)) : look k (l ++ m) = (look k l).or (look k m) := by
  induction l with
  | nil => rfl
  | cons p l ih =>
    obtain ⟨a, b⟩ := p
    by_cases h : a = k <;> simp [look, h, ih]

theorem look_map_const {α β : Type} [DecidableEq α] (k : α) (l : List α) (x : β) :
    look k (l.map fun i => (i, x)) = if k ∈ l then some x else none := by
  induction l with
  | nil => rfl
  | cons a l ih =>
    by_cases h : a = k
    · simp [look, h]
    · simp [look, h, ih, Ne.symm h]

/-- As many host tiles as the pool has free are allocated, each on an index that was free. -/
theorem allocHost_eq {n : Nat} {s : State} (h : n ≤ s.tmf.poolFree) :
    ∃ is : List Nat, s.allocHost n = (s.withHosts is, is.map s.tmf.handle) ∧ is.length = n ∧ is.Nodup ∧ ∀ i ∈ is, s.tmf.isFree i := by
  induction n generalizing s with
  | zero => exact ⟨[], by simp [State.allocHost, State.withHosts], rfl, .nil, by simp⟩
  | succ n ih =>
    obtain ⟨i, hi, hfree⟩ := freeIndex_of_poolFree (s := s) (by omega)
    have hpool : n ≤ (s.withHosts [i]).tmf.poolFree := by
      simp only [State.withHosts, Tmf.poolFree, List.length_append, List.map_cons, List.map_nil, List.length_singleton] at h ⊢
      omega
    obtain ⟨is, heq, hlen, hnd, hall⟩ := ih hpool
    have hnot : i ∉ is := fun hm => by
      have := (hall i hm).2.1
      simp [State.withHosts, look_append, look] at this
    refine ⟨i :: is, ?_, by simp [hlen], List.nodup_cons.mpr ⟨hnot, hnd⟩, fun j hj => ?_⟩
    · simp only [State.allocHost, alloc_host hi, heq]
      refine Prod.ext ?_ rfl
      simp [State.withHosts, Nat.add_assoc, Nat.add_comm 1]
    · rcases List.mem_cons.mp hj with rfl | hj
      · exact hfree
      · obtain ⟨hp, hl, ho⟩ := hall j hj
        refine ⟨hp, ?_, ho⟩
        simp only [State.withHosts, look_append, Option.or_eq_none_iff] at hl
        exact hl.1

theorem tileAlloc_claim : Claim.TileAlloc := by
  intro q s h h1 h2 hlen hlim hfree
  refine answers_taken rfl h (by simp [hlen, h1, h2]) ?_
  have hpool : bits (sd q 6) 11 0 ≤ (s.start.accept q).tmf.poolFree := by
    simp only [State.accept_tmf, State.start_tmf]
    exact hfree.trans (Nat.sub_le ..)
  obtain ⟨is, heq, hn, hnd, hall⟩ := allocHost_eq hpool
  have hbody : tileAlloc q (s.start.accept q) = ((s.start.accept q).withHosts is).replyDone q
      ((is.map (s.start.accept q).tmf.handle).flatMap (le 4)) (bits (sd q 6) 11 0) := by
    simp only [tileAlloc, heq]
    rw [if_neg]
    simp only [State.accept_tmf, State.start_tmf, Bool.or_eq_true, decide_eq_true_eq]
    omega
  have hidx (i : Nat) (hi : i ∈ is) : handleIdx (s.tmf.handle i) = i ∧ s.tmf.handle i / 2 ^ 16 = s.tmf.gen i := by
    have hp := (hall i hi).1
    simp only [isPool, Bool.and_eq_true, decide_eq_true_eq] at hp
    unfold handleIdx Tmf.handle
    omega
  have hmap : (is.map s.tmf.handle).map handleIdx = is := by
    rw [List.map_map]
    exact (List.map_congr_left fun i hi => (hidx i hi).1).trans (List.map_id is)
  obtain ⟨hc, hret, hk⟩ := replyDone_kept (r := bits (sd q 6) 11 0) (bytes := (is.map (s.start.accept q).tmf.handle).flatMap (le 4))
    (s1 := (s.start.accept q).withHosts is) h.2.1 rfl (by simp [State.withHosts])
  rw [hbody]
  have htiles : (((s.start.accept q).withHosts is).replyDone q ((is.map (s.start.accept q).tmf.handle).flatMap (le 4))
      (bits (sd q 6) 11 0)).tmf.tiles = s.tmf.tiles ++ is.map (fun i => (i, freshTile)) := by
    simp [State.replyDone, State.withHosts]
  refine ⟨is.map s.tmf.handle, by simp [hn], by rw [hmap]; exact hnd, fun x hx => ?_, fun i hi => ?_, by simpa using hret, hc, hk, ?_⟩
  · obtain ⟨i, hi, rfl⟩ := List.mem_map.mp hx
    obtain ⟨hp, hl, ho⟩ := hall i hi
    obtain ⟨h3, h4⟩ := hidx i hi
    simp only [State.accept_tmf, State.start_tmf] at hl ho
    rw [h3, h4, htiles, look_append, hl, look_map_const, if_pos hi]
    exact ⟨hp, ho, rfl, rfl, freshTile, rfl, rfl, rfl⟩
  · rw [hmap] at hi
    rw [htiles, look_append, look_map_const, if_neg hi, Option.or_none]
  · apply State.ext <;> simp [State.replyDone, State.withHosts]

/-- Settles O36: the search finds a free index while the pool has one. -/
theorem tileAllocation : Obligations.TileAllocation := by
  refine ⟨tileAlloc_claim, fun q s h h1 h2 hlen hno => answers_taken rfl h (by simp [hlen, h1, h2]) ?_⟩
  have hbody : tileAlloc q (s.start.accept q) = (s.start.accept q).done q stNO_TILES 0 := by
    unfold tileAlloc
    dsimp only
    rw [if_pos]
    simpa using hno
  rw [hbody]
  exact done_onlyCompletes h.2.1

/-! ### Retirement -/

/-- A device whose pair 0x40 holds no coefficients and whose other copy holds a byte. -/
def pairState : State := { State.reset with tmf := { State.reset.tmf with coeffs := [(0x240, [1])] } }

/-- Refutes O37: of an index that does not wait for its restoration, PAIR_RESTORE copies nothing, so that the index keeps what it
holds where the other copy holds something else (here nothing and the byte 1). -/
theorem not_tileLife : ¬ Obligations.TileLife := by
  rintro ⟨-, -, h⟩
  obtain ⟨t, ht, -, -, hlook, -⟩ := h 0x40 pairState rfl
  have hfalse : look 0x40 t.tmf.coeffs = none := by
    obtain rfl := Host.Outcome.next.inj ht
    rfl
  rw [hfalse] at hlook
  exact absurd hlook (by decide)

end Sys2Proof.Machine
end
section
/-! PROOFS. Stream channels -/

namespace Sys2Proof.Machine

open Sys2Proof

/-! ### Completions of commands that wait -/

theorem takeFirst_sublist {α : Type} {p : α → Bool} {l r : List α} {x : α} (h : takeFirst p l = some (x, r)) : r.Sublist l := by
  induction l generalizing x r with
  | nil => simp [takeFirst] at h
  | cons a l ih =>
    unfold takeFirst at h
    split at h
    · obtain ⟨rfl, rfl⟩ := Prod.mk.inj (Option.some.inj h)
      exact .cons _ (.refl _)
    · simp only [Option.map_eq_some_iff, Prod.exists, Prod.mk.injEq] at h
      obtain ⟨y, t, ht, rfl, rfl⟩ := h
      exact .cons_cons _ (ih ht)

/-- A command that waits completes from any state that has kept the HQE. -/
theorem complete_kept {fn : Fn} {sq cid st r : Nat} {s s1 : State} (h : OwnedAs fn sq cid s) (hh : s1.hqe = s.hqe) :
    CompletedAs fn sq cid st r s (s1.complete fn sq cid st r) ∧ RingsKept s (s1.complete fn sq cid st r) := by
  cases hx : takeFirst (Fwd.is fn sq cid) s1.hqe.fwd with
  | none =>
    have he : s1.complete fn sq cid st r = { s1 with
        hqe := { s1.hqe with ready := s1.hqe.ready ++ [⟨fn, sq, cid, st, r, false, none⟩] }, cur := some (fn, sq, cid) } := by
      simp [State.complete, hx, State.onHqe]
    rw [he, hh]
    exact ⟨⟨⟨false, rfl⟩, rfl⟩, rfl⟩
  | some x =>
    obtain ⟨f, rest⟩ := x
    obtain ⟨hrest, his, hmem⟩ := takeFirst_filter _ _ _ _ hx
    rw [complete_of_takeFirst hx (h f (hh ▸ hmem) his), hh]
    exact ⟨⟨⟨f.quiet, rfl⟩, by rw [hh] at hrest; exact hrest⟩, rfl⟩

/-- The end of another command makes none an orphan. -/
theorem OwnedAs.complete {fn fn' : Fn} {sq cid sq' cid' st r : Nat} {s : State} (h : OwnedAs fn sq cid s) :
    OwnedAs fn sq cid (s.complete fn' sq' cid' st r) := by
  have hsub : (s.complete fn' sq' cid' st r).hqe.fwd.Sublist s.hqe.fwd := by
    unfold State.complete
    dsimp only
    split
    · exact .refl _
    next hx => split <;> exact takeFirst_sublist hx
  exact fun f hf his => h f (hsub.subset hf) his

/-- A command that is taken and does not complete runs. -/
theorem accept_running {q : Sqe} {s t : State} (h : OwnedAs q.fn q.sq (cidOf q) s) (hh : t.hqe = (s.start.accept q).hqe) :
    Running q s t ∧ RingsKept s t := by
  obtain ⟨hothers, hany, -⟩ := s.start.accept_fwd q h
  refine ⟨⟨by rw [hh]; rfl, ?_, by rw [hh]; exact hothers⟩, by rw [RingsKept, hh]; rfl⟩
  rw [hh]
  simpa using List.any_eq_true.mp hany

/-! ### Channels and tiles -/

theorem look_put_self {α β : Type} [DecidableEq α] (k : α) (v : β) (l : List (α × β)) : look k (put k v l) = some v := by
  induction l with
  | nil => simp [put, look]
  | cons p l ih =>
    obtain ⟨a, b⟩ := p
    by_cases h : a = k <;> simp [put, look, h, ih]

theorem look_del_of_none {α β : Type} [DecidableEq α] {k j : α} {l : List (α × β)} (h : look k l = none) : look k (del j l) = none := by
  induction l with
  | nil => rfl
  | cons p l ih =>
    obtain ⟨a, b⟩ := p
    simp only [look] at h
    split at h
    · exact absurd h (by simp)
    next hne =>
      have hl := ih h
      unfold del at hl ⊢
      by_cases hj : a = j
      · simpa [hj] using hl
      · simpa [hj, look, hne] using hl

theorem Tmf.freeTile_look (i : Nat) (t : Tmf) : look i (t.freeTile i).tiles = none := look_del_self ..

theorem Tmf.freeTile_gen (i : Nat) (t : Tmf) : (t.freeTile i).gen i = nextGen (t.gen i) := by
  simp [Tmf.freeTile, Tmf.bump, Tmf.gen, look_put_self]

/-- Of the tile store, the tile that is retired is lost and the channels are kept. -/
theorem Tmf.retireIdx_kept (c i : Nat) (t : Tmf) : (t.retireIdx c i).chans = t.chans ∧ look i (t.retireIdx c i).tiles = none ∧
    (t.retireIdx c i).lastIndex = i := by
  unfold Tmf.retireIdx
  dsimp only
  split
  · split <;> exact ⟨rfl, look_del_self .., rfl⟩
  · exact ⟨rfl, look_del_self .., rfl⟩

theorem retire_tmf (c i src : Nat) (o : Bool) (s : State) : (s.retire c i src o).tmf = s.tmf.retireIdx c i := by
  have h1 : ∀ u : State, part .tmf u.saveMap = part .tmf u := fun u => saveMap_part (by simp) u
  have h2 (a b x y z : Nat) (u : State) : part .tmf (u.faultRec a b x y z) = part .tmf u := faultRec_part (by simp) ..
  have h3 (v a b x : Nat) (u : State) : part .tmf (u.postEvent .pf0 v a b x) = part .tmf u := postEvent_part (by simp) ..
  change part .tmf _ = _
  unfold State.retire
  simp only [part_ite, h1, h2, h3, ite_self]
  rfl

/-- Nothing more is written to the host. -/
structure NoHostWrite (s t : State) : Prop where
  mem : ∀ g a b, Out.hostWrite g a b ∈ t.out → Out.hostWrite g a b ∈ s.out

theorem NoHostWrite.trans {s t u : State} (h1 : NoHostWrite s t) (h2 : NoHostWrite t u) : NoHostWrite s u :=
  ⟨fun g a b h => h1.mem g a b (h2.mem g a b h)⟩

theorem NoHostWrite.of_eq {s t : State} (h : t.out = s.out) : NoHostWrite s t := ⟨fun _ _ _ ht => h ▸ ht⟩

theorem fire_noHostWrite (fn : Fn) (v : Nat) (s : State) : NoHostWrite s (s.fire fn v) := by
  unfold State.fire
  dsimp only
  split
  · exact .of_eq rfl
  · exact ⟨fun g a b h => by simpa [State.emit] using h⟩

theorem fireEvent_noHostWrite (fn : Fn) (v : Nat) (s : State) : NoHostWrite s (s.fireEvent fn v) := by
  unfold State.fireEvent
  dsimp only
  split
  · exact .of_eq rfl
  · split
    · exact fire_noHostWrite ..
    · exact (fire_noHostWrite ..).trans (.of_eq rfl)

/-- Events send messages, and write nothing to the host. -/
theorem postEvent_noHostWrite (fn : Fn) (vec sub arg src : Nat) (s : State) : NoHostWrite s (s.postEvent fn vec sub arg src) := by
  unfold State.postEvent
  dsimp only
  split
  · split
    · exact fireEvent_noHostWrite ..
    · split <;> exact (fireEvent_noHostWrite ..).trans (.of_eq rfl)
  · exact .of_eq rfl

theorem faultRec_noHostWrite (i c a0 a1 a2 : Nat) (s : State) : NoHostWrite s (s.faultRec i c a0 a1 a2) := .of_eq rfl

theorem retire_noHostWrite (c i src : Nat) (o : Bool) (s : State) : NoHostWrite s (s.retire c i src o) := by
  have h0 : NoHostWrite s ((s.onTmf (Tmf.retireIdx c i)).saveMap) := .of_eq rfl
  have h1 := h0.trans (faultRec_noHostWrite 1 0x0101 i c (s.tmf.physOf i) _)
  have h2 := h1.trans (postEvent_noHostWrite .pf0 66 0x01 (c * 2 ^ 16 + i) src _)
  have h3 := (h1.trans (faultRec_noHostWrite 1 0x0102 i c (s.tmf.physOf i) _)).trans
    (postEvent_noHostWrite .pf0 66 0x02 (c * 2 ^ 16 + i) src _)
  have h4 {u : State} (h : NoHostWrite s u) := (h.trans (faultRec_noHostWrite 1 0x0103 i c (s.tmf.physOf i) _)).trans
    (postEvent_noHostWrite .pf0 66 0x03 (c * 2 ^ 16 + i) noSource _)
  unfold State.retire
  dsimp only
  cases o
  · simp only [Bool.false_eq_true, if_false]
    split
    · exact h4 h3
    · exact h3
  · simp only [if_true]
    split
    · exact h4 h2
    · exact h2

theorem upd_getD {α : Type} (l : List α) (n : Nat) (f : α → α) (d : α) (h : n < l.length) :
    (upd l n f).getD n d = f (l.getD n d) ∧ upd l n f = l.set n (f (l.getD n d)) := by
  have hl : l[n]? = some (l.getD n d) := by simp [h]
  rw [upd_eq_set _ _ _ _ hl]
  simp [h]

/-- A channel changed is what its change says. -/
theorem onChan_chan {n : Nat} {f : Chan → Chan} {s : State} (h : n < s.tmf.chans.length) :
    (s.onChan n f).tmf.chan n = f (s.tmf.chan n) := (upd_getD _ _ _ _ h).1

theorem onChan_chan_of_ne {n m : Nat} {f : Chan → Chan} {s : State} (h : m ≠ n) : (s.onChan n f).tmf.chan m = s.tmf.chan m := by
  simp [State.onChan, Tmf.chan, upd, Ne.symm h]

/-- A channel whose state is not that of reset exists. -/
theorem chan_lt_of_isOpen {t : Tmf} {n : Nat} (h : (t.chan n).isOpen = true) : n < t.chans.length := by
  by_contra hn
  have : t.chans[n]? = none := List.getElem?_eq_none (by omega)
  simp [Tmf.chan, this, Chan.reset] at h

theorem onChan_tmf {n : Nat} {f : Chan → Chan} {s : State} (h : n < s.tmf.chans.length) :
    (s.onChan n f).tmf = { s.tmf with chans := s.tmf.chans.set n (f (s.tmf.chan n)) } := by
  have := (upd_getD s.tmf.chans n f Chan.reset h).2
  simp only [State.onChan, State.onTmf_tmf, this]
  rfl

/-- STREAM_OPEN of a channel that is closed. -/
theorem streamOpen_body {q : Sqe} {s : State} (h : (s.tmf.chan (sd q 1)).isOpen = false) (hr : bits (sd q 6) 15 0 ≤ s.tmf.unreserved) :
    streamOpen q s = (s.onChan (sd q 1) (fun _ => { Chan.reset with
      isOpen := true, reserve := bits (sd q 6) 15 0, cap := bits (sd q 6) 31 16, mode := bits (sd q 7) 0 0
      flush := bits (sd q 7) 25 16 })).done q stDONE 0 := by
  unfold streamOpen
  dsimp only
  rw [if_neg (by simpa using h), if_neg (by simpa using hr)]

theorem upd_const {α : Type} (l : List α) (n : Nat) (x : α) : upd l n (fun _ => x) = l.set n x := by
  by_cases h : n < l.length
  · exact upd_eq_set _ _ _ _ (List.getElem?_eq_getElem h)
  · unfold upd
    rw [List.modify_eq_self (by omega), List.set_eq_of_length_le (by omega)]

/-! ### Opening and feeding -/

theorem streamOpenAndBuffer : Claim.StreamOpenAndBuffer := by
  refine ⟨?openChan, ?buffer, ?full, ?noTiles⟩
  case openChan =>
    intro q s h hn hres hcap hmax hflush hopen hfree
    refine answers_taken rfl h (by simp [streamOpenParams, hn, hres, hmax, hflush]; omega) ?_
    rw [streamOpen_body (by simpa using hopen) (by simpa using hfree)]
    obtain ⟨hc, hk⟩ := done_kept (st := stDONE) (r := 0) (s1 := (s.start.accept q).onChan (sd q 1) (fun _ => { Chan.reset with
        isOpen := true, reserve := bits (sd q 6) 15 0, cap := bits (sd q 6) 31 16, mode := bits (sd q 7) 0 0
        flush := bits (sd q 7) 25 16 })) h.2.1 rfl
    refine ⟨hc, by simp [State.onChan], ⟨hk, ?_⟩, ?_⟩
    · apply State.ext <;> simp [State.onChan]
    · rw [State.done_tmf, State.onChan, State.onTmf_tmf, upd_const]
      simp
  case buffer =>
    intro q s h hn hlen hmod hopen hroom
    refine answers_taken rfl h (by simp [hn, hlen, hmod]) ?_
    have hbody : streamBuffer q (s.start.accept q) = (s.start.accept q).onChan (sd q 1)
        (fun c => { c with bufs := c.bufs ++ [⟨q.sq, cidOf q, addrOf q, sd q 4, 0⟩] }) := by
      unfold streamBuffer
      dsimp only
      rw [if_neg (by simp [hopen]), if_neg (by simpa using hroom)]
    rw [hbody]
    obtain ⟨hrun, hk⟩ := accept_running (t := (s.start.accept q).onChan (sd q 1)
        (fun c => { c with bufs := c.bufs ++ [⟨q.sq, cidOf q, addrOf q, sd q 4, 0⟩] })) h.2.1 rfl
    refine ⟨hrun, rfl, ⟨hk, rfl⟩, ?_⟩
    rw [onChan_tmf (chan_lt_of_isOpen (by simpa using hopen))]
    rfl
  case full =>
    intro q s h hn hlen hmod hopen hfull
    refine answers_taken rfl h (by simp [hn, hlen, hmod]) ?_
    have hbody : streamBuffer q (s.start.accept q) = (s.start.accept q).done q stBUSY_RETRY 0 := by
      unfold streamBuffer
      dsimp only
      rw [if_neg (by simp [hopen]), if_pos (by simpa using hfull)]
    rw [hbody]
    exact done_onlyCompletes h.2.1
  case noTiles =>
    intro q s h hn hres hcap hmax hflush hopen hfree
    refine answers_taken rfl h (by simp [streamOpenParams, hn, hres, hmax, hflush]; omega) ?_
    have hbody : streamOpen q (s.start.accept q) = (s.start.accept q).done q stNO_TILES 0 := by
      unfold streamOpen
      dsimp only
      rw [if_neg (by simpa using hopen), if_pos (by simpa using hfree)]
    rw [hbody]
    exact done_onlyCompletes h.2.1

/-! ### Delivery -/

/-- The state in which a tile has gone into a buffer, before the buffer's end is considered. -/
def State.sent (n i : Nat) (tiles : List Nat) (b : StreamBuf) (bufs : List StreamBuf) (bytes : List Byte) (s : State) : State :=
  ((s.dma .pf0 (b.addr + 4096 * b.written) bytes).onTmf (Tmf.freeTile i)).onChan n
    (fun c => { c with closed := tiles, bufs := { b with written := b.written + 1 } :: bufs })

section
variable {n i : Nat} {tiles : List Nat} {b : StreamBuf} {bufs : List StreamBuf} {s : State}

theorem deliver_ok {x : Tile} {full : Nat} (hc : (s.tmf.chan n).closed = i :: tiles) (hb : (s.tmf.chan n).bufs = b :: bufs)
    (hx : look i s.tmf.tiles = some x) : s.deliver n true full =
      if 4096 * (b.written + 1) ≥ b.len then (s.sent n i tiles b bufs x.bytes).endBuf n full else s.sent n i tiles b bufs x.bytes := by
  simp only [State.deliver, hc, hb, hx, if_true]
  rfl

theorem endBuf_eq {st : Nat} (hb : (s.tmf.chan n).bufs = b :: bufs) :
    s.endBuf n st = (s.onChan n (fun c => { c with bufs := bufs })).complete .pf0 b.sq b.cid st b.written := by
  simp only [State.endBuf, hb]

theorem sent_chan (bytes : List Byte) (hn : n < s.tmf.chans.length) : (s.sent n i tiles b bufs bytes).tmf.chan n =
    { s.tmf.chan n with closed := tiles, bufs := { b with written := b.written + 1 } :: bufs } :=
  onChan_chan (s := (s.dma .pf0 (b.addr + 4096 * b.written) bytes).onTmf (Tmf.freeTile i)) hn

end

theorem onChan_tiles (n : Nat) (f : Chan → Chan) (s : State) : (s.onChan n f).tmf.tiles = s.tmf.tiles := rfl

theorem onChan_length (n : Nat) (f : Chan → Chan) (s : State) : (s.onChan n f).tmf.chans.length = s.tmf.chans.length := by
  simp [State.onChan, upd]

/-- A partly filled tile closed. -/
theorem closeFilling_eq {n : Nat} {o : OpenTile} {s : State} (h : (s.tmf.chan n).filling = some o) :
    s.closeFilling n = (s.setTile o.idx ⟨.channel n, true, o.bytes, crc32c o.bytes⟩).onChan n
      (fun c => { c with filling := none, closed := c.closed ++ [o.idx] }) := by
  simp only [State.closeFilling, h]

theorem streamDelivery : Claim.StreamDelivery := by
  refine ⟨?more, ?full, ?bad, ?flush, ?tileFlush⟩
  case more =>
    intro n i s tiles b bufs x hn hc hb hx hlen
    have he : s.start.deliver n true stDONE = s.start.sent n i tiles b bufs x.bytes := by
      rw [deliver_ok (s := s.start) hc hb hx, if_neg (by omega)]
    refine answers_of (congrArg Host.Outcome.next he) ⟨?_, Tmf.freeTile_look .., Tmf.freeTile_gen .., sent_chan _ hn, rfl, rfl⟩
    simp [State.sent, State.onChan, State.dma]
    rfl
  case full =>
    intro n i s tiles b bufs x hn hc hb hx hlen hown
    have hchan := sent_chan (i := i) (tiles := tiles) (b := b) (bufs := bufs) (s := s.start) x.bytes hn
    have he : s.start.deliver n true stDONE = ((s.start.sent n i tiles b bufs x.bytes).onChan n (fun c => { c with
        bufs := bufs })).complete .pf0 b.sq b.cid stDONE (b.written + 1) := by
      rw [deliver_ok (s := s.start) hc hb hx, if_pos (by omega), endBuf_eq (by rw [hchan])]
    obtain ⟨hdone, hk⟩ := complete_kept (st := stDONE) (r := b.written + 1)
      (s1 := (s.start.sent n i tiles b bufs x.bytes).onChan n (fun c => { c with bufs := bufs })) hown rfl
    refine answers_of (congrArg Host.Outcome.next he) ⟨?_, hdone, ?_, ?_, hk, ?_⟩
    · rw [State.complete_out]
      simp [State.sent, State.onChan, State.dma]
      rfl
    · rw [State.complete_tmf, onChan_tiles]
      exact Tmf.freeTile_look ..
    · rw [State.complete_tmf, onChan_chan, hchan]
      · rfl
      · rw [State.sent, onChan_length]
        exact hn
    · apply State.ext <;> simp [State.sent, State.onChan, State.dma]
  case bad =>
    intro n i s tiles b bufs hn hc hb hown
    have hb' : ((s.start.onChan n (fun c => { c with closed := tiles })).tmf.chan n).bufs = b :: bufs := by
      rw [onChan_chan (s := s.start) hn]
      exact hb
    have he : s.start.deliver n false stDONE = (((s.start.onChan n (fun c => { c with closed := tiles })).onChan n (fun c => { c with
        bufs := bufs })).complete .pf0 b.sq b.cid stTILE_CHECK b.written).retire consHqe i n false := by
      rw [← endBuf_eq hb']
      have hc' : (s.start.tmf.chan n).closed = i :: tiles := hc
      have hb'' : (s.start.tmf.chan n).bufs = b :: bufs := hb
      simp only [State.deliver, hc', hb'', Bool.false_eq_true, if_false]
    obtain ⟨⟨⟨quiet, hready⟩, hfwd⟩, -⟩ := complete_kept (st := stTILE_CHECK) (r := b.written)
      (s1 := (s.start.onChan n (fun c => { c with closed := tiles })).onChan n (fun c => { c with bufs := bufs })) hown rfl
    obtain ⟨hchans, hlook, hlast⟩ := Tmf.retireIdx_kept consHqe i (((s.start.onChan n (fun c => { c with
      closed := tiles })).onChan n (fun c => { c with bufs := bufs })).complete .pf0 b.sq b.cid stTILE_CHECK b.written).tmf
    refine answers_of (congrArg Host.Outcome.next he) ⟨⟨⟨quiet, ?_⟩, ?_⟩, ?_, ?_, ?_, fun fn a l hm => ?_⟩
    · exact (retire_part (π := .ready) (by simp) ..).trans hready
    · exact (congrArg (List.filter _) (retire_part (π := .fwd) (by simp) ..)).trans hfwd
    · rw [retire_tmf]
      exact hlook
    · rw [retire_tmf]
      exact hlast
    · rw [retire_tmf, Tmf.chan, hchans, State.complete_tmf]
      show ((State.onChan n _ _).tmf.chan n) = _
      rw [onChan_chan (by rw [onChan_length]; exact hn), onChan_chan (s := s.start) hn]
      rfl
    · have := (retire_noHostWrite ..).mem _ _ _ hm
      rw [State.complete_out] at this
      simp [State.onChan] at this
  case flush =>
    intro n s b bufs hn hb hflush hw hown
    have he : streamBufferFlush n s.start = (s.start.onChan n (fun c => { c with bufs := bufs })).complete .pf0 b.sq b.cid stDONE
        b.written := by
      rw [← endBuf_eq (s := s.start) hb]
      simp [streamBufferFlush, hb, hflush, hw]
    obtain ⟨hdone, hk⟩ := complete_kept (st := stDONE) (r := b.written)
      (s1 := s.start.onChan n (fun c => { c with bufs := bufs })) hown rfl
    refine answers_of (congrArg Host.Outcome.next he) ⟨hdone, by rw [State.complete_out]; rfl, ?_, hk, ?_⟩
    · rw [State.complete_tmf, onChan_chan (s := s.start) hn]
      rfl
    · apply State.ext <;> simp [State.onChan]
  case tileFlush =>
    intro n s o hn hflush hfill
    have he : streamTileFlush n s.start = (s.start.setTile o.idx ⟨.channel n, true, o.bytes, crc32c o.bytes⟩).onChan n
        (fun c => { c with filling := none, closed := c.closed ++ [o.idx] }) := by
      rw [← closeFilling_eq (s := s.start) hfill]
      simp [streamTileFlush, hflush]
    refine answers_of (congrArg Host.Outcome.next he) ⟨rfl, look_put_self .., ?_, rfl⟩
    exact onChan_chan (s := s.start.setTile o.idx _) hn

/-! ### Closing -/

/-- One channel is worked on: every other channel is as it was, and no command has become an orphan. -/
structure ChanStep (n : Nat) (s t : State) : Prop where
  chan : ∀ m, m ≠ n → t.tmf.chan m = s.tmf.chan m
  owned : ∀ fn sq cid, OwnedAs fn sq cid s → OwnedAs fn sq cid t

theorem ChanStep.refl (n : Nat) (s : State) : ChanStep n s s := ⟨fun _ _ => rfl, fun _ _ _ h => h⟩

theorem ChanStep.trans {n : Nat} {s t u : State} (h1 : ChanStep n s t) (h2 : ChanStep n t u) : ChanStep n s u :=
  ⟨fun m hm => (h2.chan m hm).trans (h1.chan m hm), fun fn sq cid h => h2.owned fn sq cid (h1.owned fn sq cid h)⟩

theorem onChan_chanStep (n : Nat) (f : Chan → Chan) (s : State) : ChanStep n s (s.onChan n f) :=
  ⟨fun _ hm => onChan_chan_of_ne hm, fun _ _ _ h => h⟩

theorem chanStep_of_chans {n : Nat} {s t : State} (hc : t.tmf.chans = s.tmf.chans) (hf : t.hqe.fwd = s.hqe.fwd) : ChanStep n s t :=
  ⟨fun m _ => by simp only [Tmf.chan, hc], fun _ _ _ h => by simpa only [OwnedAs, hf] using h⟩

theorem complete_chanStep (n : Nat) (fn : Fn) (sq cid st r : Nat) (s : State) : ChanStep n s (s.complete fn sq cid st r) :=
  ⟨fun m _ => by rw [State.complete_tmf], fun _ _ _ h => h.complete⟩

theorem endBuf_chanStep (n st : Nat) (s : State) : ChanStep n s (s.endBuf n st) := by
  unfold State.endBuf
  split
  · exact .refl ..
  · exact (onChan_chanStep ..).trans (complete_chanStep ..)

theorem retire_chanStep (n c i src : Nat) (o : Bool) (s : State) : ChanStep n s (s.retire c i src o) :=
  chanStep_of_chans (by rw [retire_tmf, (Tmf.retireIdx_kept ..).1]) (retire_part (π := .fwd) (by simp) ..)

theorem closeFilling_chanStep (n : Nat) (s : State) : ChanStep n s (s.closeFilling n) := by
  unfold State.closeFilling
  split
  · exact .refl ..
  · refine ChanStep.trans ?_ (onChan_chanStep ..)
    exact chanStep_of_chans rfl rfl

theorem deliver_chanStep (n : Nat) (ok : Bool) (full : Nat) (s : State) : ChanStep n s (s.deliver n ok full) := by
  unfold State.deliver
  split
  · split
    · have hsent : ∀ x : List Byte, ∀ f : Chan → Chan, ∀ a, ∀ i, ChanStep n s (((s.dma .pf0 a x).onTmf (Tmf.freeTile i)).onChan n f) :=
        fun x f a i => ChanStep.trans (chanStep_of_chans (t := (s.dma .pf0 a x).onTmf (Tmf.freeTile i)) rfl rfl) (onChan_chanStep ..)
      dsimp only
      split
      · exact (hsent ..).trans (endBuf_chanStep ..)
      · exact hsent ..
    · exact ((onChan_chanStep ..).trans (endBuf_chanStep ..)).trans (retire_chanStep ..)
  · exact .refl ..

theorem deliverAll_chanStep (n : Nat) (bad : List Nat) (k : Nat) (s : State) : ChanStep n s (s.deliverAll n bad k) := by
  induction k generalizing s with
  | zero => exact .refl ..
  | succ k ih =>
    unfold State.deliverAll
    split
    · exact .refl ..
    · exact (deliver_chanStep ..).trans (ih _)

theorem endBufs_chanStep (n st k : Nat) (s : State) : ChanStep n s (s.endBufs n st k) := by
  induction k generalizing s with
  | zero => exact .refl ..
  | succ k ih => exact (endBuf_chanStep ..).trans (ih _)

theorem foldl_freeTile_kept (l : List Nat) (t : Tmf) : (l.foldl (fun t i => t.freeTile i) t).chans = t.chans ∧
    (∀ j, (j ∈ l ∨ look j t.tiles = none) → look j (l.foldl (fun t i => t.freeTile i) t).tiles = none) := by
  induction l generalizing t with
  | nil => exact ⟨rfl, by simp⟩
  | cons i l ih =>
    obtain ⟨hc, hl⟩ := ih (t.freeTile i)
    refine ⟨hc, fun j hj => hl j ?_⟩
    by_cases hij : j = i
    · exact .inr (hij ▸ Tmf.freeTile_look ..)
    · refine hj.imp (fun hm => (List.mem_cons.mp hm).resolve_left hij) fun hn => look_del_of_none hn

/-- The end of a channel: it is as at reset, its tiles are free, and no capture goes into it. -/
theorem shutChan_kept (n : Nat) (s : State) : ChanStep n s (s.shutChan n) ∧ (s.shutChan n).tmf.chan n = Chan.reset ∧
    (∀ g c, ((s.shutChan n).lane g).capture = some c → c.chan ≠ n) ∧
    ∀ i ∈ (s.tmf.chan n).closed, look i (s.shutChan n).tmf.tiles = none := by
  obtain ⟨hchans, hlook⟩ := foldl_freeTile_kept ((s.tmf.chan n).closed ++
    (match (s.tmf.chan n).filling with | none => [] | some o => [o.idx])) s.tmf
  have htmf : (s.shutChan n).tmf = { (((s.tmf.chan n).closed ++ (match (s.tmf.chan n).filling with | none => [] | some o => [o.idx])).foldl
      (fun t i => t.freeTile i) s.tmf) with chans := s.tmf.chans.set n Chan.reset } := by
    rw [← hchans, ← upd_const]
    rfl
  refine ⟨⟨fun m hm => ?_, fun _ _ _ h => h⟩, ?_, fun g c hg => ?_, fun i hi => ?_⟩
  · rw [htmf]
    simp [Tmf.chan, Ne.symm hm]
  · rw [htmf]
    by_cases hn : n < s.tmf.chans.length <;> simp [Tmf.chan, hn]
  · have hlane : (s.shutChan n).lane g = (s.kce.groups.map (fun k =>
        if (match k.capture with | none => false | some c => c.chan == n) then { k with capture := none } else k)).getD g KGroup.reset := rfl
    rw [hlane, List.getD_eq_getElem?_getD, List.getElem?_map] at hg
    cases hx : s.kce.groups[g]? with
    | none => simp [hx, KGroup.reset] at hg
    | some x =>
      simp only [hx, Option.map_some, Option.getD_some] at hg
      cases hcap : x.capture with
      | none => simp [hcap] at hg
      | some d =>
        simp only [hcap, beq_iff_eq] at hg
        split at hg
        · exact absurd hg (by simp)
        next hne => exact Option.some.inj (hcap.symm.trans hg) ▸ hne
  · rw [htmf]
    exact hlook i (.inl (by simp [hi]))

/-- With no buffer posted nothing is delivered. -/
theorem deliverAll_of_bufs_nil {n k : Nat} {bad : List Nat} {s : State} (h : (s.tmf.chan n).bufs = []) : s.deliverAll n bad k = s := by
  induction k with
  | zero => rfl
  | succ k ih =>
    cases hc : (s.tmf.chan n).closed with
    | nil => simp [State.deliverAll, hc]
    | cons i l =>
      have hd (ok : Bool) (full : Nat) : s.deliver n ok full = s := by simp [State.deliver, hc, h]
      simp [State.deliverAll, hc, hd, ih]

theorem streamClose_body {q : Sqe} {bad : List Nat} {s : State} (h : (s.tmf.chan (sd q 1)).isOpen = true) : ∃ k v : Nat,
    ∃ s2 : State, s2 = (s.closeFilling (sd q 1)).deliverAll (sd q 1) bad v ∧ k = (s2.tmf.chan (sd q 1)).closed.length ∧
    streamClose q bad s = ((s2.endBufs (sd q 1) stDONE_NOTE (s2.tmf.chan (sd q 1)).bufs.length).shutChan (sd q 1)).done q stDONE k :=
  ⟨_, ((s.closeFilling (sd q 1)).tmf.chan (sd q 1)).closed.length, _, rfl, rfl, by simp [streamClose, h]⟩

theorem closeFilling_chan {n : Nat} {s : State} (hn : n < s.tmf.chans.length) : ((s.closeFilling n).tmf.chan n).bufs = (s.tmf.chan n).bufs ∧
    ((s.closeFilling n).tmf.chan n).closed.length = (s.tmf.chan n).closed.length + b2n (s.tmf.chan n).filling.isSome ∧
    ∀ i ∈ (s.tmf.chan n).closed, i ∈ ((s.closeFilling n).tmf.chan n).closed := by
  cases hf : (s.tmf.chan n).filling with
  | none => simp [State.closeFilling, hf, b2n]
  | some o =>
    rw [closeFilling_eq hf, onChan_chan (s := s.setTile o.idx _) hn]
    refine ⟨rfl, ?_, fun i hi => ?_⟩
    · show ((s.tmf.chan n).closed ++ [o.idx]).length = _
      simp [b2n]
    · exact List.mem_append_left _ hi

theorem streamClose_claim : Claim.StreamClose := by
  refine ⟨?any, ?unbuffered⟩
  case any =>
    intro q bad s h hn hlt hopen
    refine answers_taken rfl h (by simp [hn]) ?_
    obtain ⟨k, v, s2, hs2, -, hbody⟩ := streamClose_body (bad := bad) (s := s.start.accept q) (by simpa using hopen)
    have hstep : ChanStep (sd q 1) (s.start.accept q) s2 :=
      hs2 ▸ (closeFilling_chanStep (sd q 1) (s.start.accept q)).trans (deliverAll_chanStep (sd q 1) bad v _)
    obtain ⟨hshut, hreset, hcap, -⟩ := shutChan_kept (sd q 1) (s2.endBufs (sd q 1) stDONE_NOTE (s2.tmf.chan (sd q 1)).bufs.length)
    obtain ⟨hchan, howned⟩ := (hstep.trans (endBufs_chanStep ..)).trans hshut
    rw [hbody]
    refine ⟨by rw [State.done_tmf]; exact hreset, fun m hm => ?_, fun g c hg => hcap g c ?_, ?_⟩
    · rw [State.done_tmf, hchan m hm, State.accept_tmf, State.start_tmf]
    · simpa [State.lane] using hg
    · obtain ⟨⟨⟨quiet, hready⟩, -⟩, -⟩ := complete_kept (st := stDONE) (r := k) (howned q.fn q.sq (cidOf q) (s.start.accept_fwd q h.2.1).2.2) rfl
      exact ⟨_, k, quiet, hready⟩
  case unbuffered =>
    intro q bad s h hn hopen hbufs hlt
    refine answers_taken rfl h (by simp [hn]) ?_
    obtain ⟨k, v, s2, hs2, hk, hbody⟩ := streamClose_body (bad := bad) (s := s.start.accept q) (by simpa using hopen)
    have hlt' : sd q 1 < (s.start.accept q).tmf.chans.length := by simpa using hlt
    obtain ⟨hb, hl, hmem⟩ := closeFilling_chan hlt'
    have hbufs' : ((s.start.accept q).tmf.chan (sd q 1)).bufs = [] := by simpa using hbufs
    rw [deliverAll_of_bufs_nil (hb.trans hbufs')] at hs2
    subst hs2
    rw [hb, hbufs', List.length_nil, State.endBufs] at hbody
    obtain ⟨-, -, -, hgone⟩ := shutChan_kept (sd q 1) ((s.start.accept q).closeFilling (sd q 1))
    have hhqe : (((s.start.accept q).closeFilling (sd q 1)).shutChan (sd q 1)).hqe = (s.start.accept q).hqe := by
      unfold State.closeFilling
      split <;> rfl
    obtain ⟨hc, hr⟩ := done_kept (st := stDONE) (r := k) h.2.1 hhqe
    rw [hbody]
    have hk' : k = (s.tmf.chan (sd q 1)).closed.length + b2n (s.tmf.chan (sd q 1)).filling.isSome := by simpa using hk.trans hl
    have hout : (((s.start.accept q).closeFilling (sd q 1)).shutChan (sd q 1)).out = [] :=
      ((shutChan_part (π := .out) (by simp) ..).trans (closeFilling_part (π := .out) (by simp) ..)).trans (s.start.accept_out q)
    refine ⟨hk' ▸ hc, ?_, fun i hi => ?_, hr, ?_⟩
    · rw [State.done_out]
      exact hout
    · rw [State.done_tmf]
      exact hgone i (hmem i (by simpa using hi))
    · have hframe := eq_frameOf [.rings, .fwd, .ready, .tmf, .kce, .out, .cur] (s := s)
        (t := (((s.start.accept q).closeFilling (sd q 1)).shutChan (sd q 1)).done q stDONE k) fun π hp => by simp_all
      refine hframe.trans ?_
      show ({ s with hqe := _, tmf := _, kce := _, out := (State.done q stDONE k _).out, cur := _ } : State) = _
      rw [State.done_out, hout]
      rfl

/-- Settles O38: each operation of a channel is worked out on the channel that it names. -/
theorem streams : Obligations.Streams := ⟨streamOpenAndBuffer, streamDelivery, streamClose_claim⟩

end Sys2Proof.Machine
end
section
/-! PROOFS. The bytes of a ledger entry -/

namespace Sys2Proof.Machine

open Sys2Proof

/-! ### Fields of a byte string -/

theorem u_le_zero (n v : Nat) (r : List Byte) : u (le n v ++ r) 0 n = v % 256 ^ n := u_append_le (p := []) r n v rfl

theorem u_le_last (n v : Nat) : u (le n v) 0 n = v % 256 ^ n := by
  have h := u_le_zero n v []
  rwa [List.append_nil] at h

theorem u_le_skip {n v o m : Nat} {r : List Byte} (h : n ≤ o) : u (le n v ++ r) o m = u r (o - n) m := by
  have hd : (le n v).drop o = [] := List.drop_of_length_le (by simpa using h)
  simp [u, List.drop_append, hd]

theorem u_zeros_skip {n o m : Nat} {r : List Byte} (h : n ≤ o) : u (zeros n ++ r) o m = u r (o - n) m := by
  have hd : (zeros n).drop o = [] := List.drop_of_length_le (by simpa [zeros] using h)
  simp only [u, List.drop_append, hd, List.nil_append]
  simp [zeros]

theorem nonzero_le_skip {n v o m : Nat} {r : List Byte} (h : n ≤ o) : nonzero (le n v ++ r) o m = nonzero r (o - n) m := by
  have hd : (le n v).drop o = [] := List.drop_of_length_le (by simpa using h)
  simp [nonzero, List.drop_append, hd]

theorem nonzero_zeros_skip {n o m : Nat} {r : List Byte} (h : n ≤ o) : nonzero (zeros n ++ r) o m = nonzero r (o - n) m := by
  have hd : (zeros n).drop o = [] := List.drop_of_length_le (by simpa [zeros] using h)
  simp only [nonzero, List.drop_append, hd, List.nil_append]
  simp [zeros]

theorem nonzero_zeros (n : Nat) (r : List Byte) : nonzero (zeros n ++ r) 0 n = false := by
  simp [nonzero, zeros]

/-- The flags and the tier of a session share a byte. -/
theorem sessionFlags (pre str : Bool) {tier : Nat} (h : tier < 8) : b2n pre * 16 + b2n str * 8 + tier < 32 ∧
    bit (b2n pre * 16 + b2n str * 8 + tier) 4 = pre ∧ bit (b2n pre * 16 + b2n str * 8 + tier) 3 = str ∧
    (b2n pre * 16 + b2n str * 8 + tier) % 8 = tier := by
  have hbit (n i : Nat) (b : Bool) (hn : n / 2 ^ i % 2 = b2n b) : bit n i = b := by
    rw [bit, hn]
    cases b <;> rfl
  have hp : b2n pre ≤ 1 := by cases pre <;> decide
  have hs : b2n str ≤ 1 := by cases str <;> decide
  exact ⟨by omega, hbit _ _ _ (by omega), hbit _ _ _ (by omega), by omega⟩

theorem b2n_le_one (b : Bool) : b2n b ≤ 1 := by cases b <;> decide

theorem b2n_eq_one (b : Bool) : (b2n b == 1) = b := by cases b <;> rfl

/-- Settles O7: each field is read where its table puts it. -/
theorem ledgerEntryRoundTrip : Obligations.LedgerEntryRoundTrip := by
  refine ⟨by decide, ?node, ?edge, ?cons, ?session⟩
  case node =>
    intro k n lim cur aux tag hk hn hlim hcur haux htag
    have hk' : k % 256 = k := by omega
    simp only [Entry.bytes, List.append_assoc, decodeEntry]
    simp (disch := decide) only [u_le_zero, u_le_skip, u_zeros_skip, nonzero_le_skip]
    simp [u_le_zero, u_le_last, nonzero_zeros, hk', hk]
    omega
  case edge =>
    intro k a b f r tag hk ha hb hf hr htag
    have hk' : k % 256 = k := by omega
    simp only [Entry.bytes, List.append_assoc, decodeEntry]
    simp (disch := decide) only [u_le_zero, u_le_skip, u_zeros_skip, nonzero_le_skip, nonzero_zeros_skip]
    simp [u_le_zero, u_le_last, nonzero_zeros, hk', hk]
    omega
  case cons =>
    intro en p st lim tag hp hst hlim htag
    have hen : b2n en % 256 = b2n en := by have := b2n_le_one en; omega
    simp only [Entry.bytes, List.append_assoc, decodeEntry]
    simp (disch := decide) only [u_le_zero, u_le_skip, u_zeros_skip, nonzero_le_skip]
    simp [u_le_zero, u_le_last, nonzero_zeros, hen, b2n_le_one, b2n_eq_one]
    omega
  case session =>
    intro pre str tier obj w mn mx ramp n tag htier hobj hw hmn hmx hramp hn htag
    obtain ⟨hlt, hpre, hstr, hmod⟩ := sessionFlags pre str htier
    simp only [Entry.bytes, List.append_assoc, decodeEntry]
    generalize b2n pre * 16 + b2n str * 8 + tier = flags at hlt hpre hstr hmod ⊢
    have hflags : flags % 256 = flags := by omega
    simp (disch := decide) only [u_le_zero, u_le_skip, u_zeros_skip, nonzero_le_skip, nonzero_zeros_skip]
    simp [u_le_zero, u_le_last, nonzero_zeros, hflags, hlt, hpre, hstr, hmod]
    omega

end Sys2Proof.Machine
end
section
/-! PROOFS. The re-plan and the grid limit -/

namespace Sys2Proof.Machine

open Sys2Proof

/-! ### Sums and orders -/

theorem sumN_eq_sum (l : List Nat) : sumN l = l.sum := by
  have h (a : Nat) : l.foldl (· + ·) a = a + l.sum := by
    induction l generalizing a with
    | nil => simp
    | cons x l ih => simp [ih, Nat.add_assoc]
  simpa [sumN] using h 0

/-- A sum over the members that a test picks. -/
theorem sumN_filter {α : Type} (p : α → Bool) (f : α → Nat) (l : List α) :
    sumN ((l.filter p).map f) = (l.map fun x => if p x then f x else 0).sum := by
  rw [sumN_eq_sum]
  induction l with
  | nil => rfl
  | cons x l ih => by_cases h : p x <;> simp [h, ih]

theorem insertBy_perm {α : Type} (before : α → α → Bool) (x : α) (l : List α) : (insertBy before x l).Perm (x :: l) := by
  induction l with
  | nil => exact .refl _
  | cons y l ih =>
    unfold insertBy
    split
    · exact .refl _
    · exact (ih.cons y).trans (.swap x y l)

theorem sortBy_perm {α : Type} (before : α → α → Bool) (l : List α) : (sortBy before l).Perm l := by
  have h (a : List α) : (l.foldl (fun a x => insertBy before x a) a).Perm (a ++ l) := by
    induction l generalizing a with
    | nil => simp
    | cons x l ih =>
      refine (ih _).trans (((insertBy_perm before x a).append_right l).trans ?_)
      simpa using (List.perm_middle (a := x) (l₁ := a) (l₂ := l)).symm
  simpa [sortBy] using h []

/-- One member of a list with distinct keys takes another value. -/
theorem sum_update {α : Type} {key : α → Nat} {l : List α} {x : α} (F G : α → Nat) (hnd : (l.map key).Nodup) (hx : x ∈ l) :
    (l.map fun y => if key y = key x then G y else F y).sum + F x = (l.map F).sum + G x := by
  induction l with
  | nil => simp at hx
  | cons y l ih =>
    simp only [List.map_cons, List.nodup_cons, List.mem_map, not_exists, not_and] at hnd
    rcases List.mem_cons.mp hx with rfl | hx
    · have hrest : (l.map fun y => if key y = key x then G y else F y) = l.map F :=
        List.map_congr_left fun y hy => if_neg (hnd.1 y hy)
      simp only [List.map_cons, List.sum_cons, if_true, hrest]
      omega
    · have hne : key y ≠ key x := fun h => hnd.1 x hx h.symm
      have := ih hnd.2 hx
      simp only [List.map_cons, List.sum_cons, hne, if_false]
      omega

/-! ### What a fill keeps -/

/-- A session without what a fill gives it. -/
def PSess.core (x : PSess) : PSess := { x with lb := 0, cv := 0, g := 0, reason := 0 }

/-- The sessions `t` are those of `s`, those with a number in `r` filled on. -/
def Fills (r : List Nat) (s t : List PSess) : Prop :=
  ∃ h : PSess → PSess, t = s.map h ∧ ∀ x ∈ s, (h x).core = x.core ∧ (x.number ∉ r → h x = x)

theorem core_fields {x y : PSess} (h : x.core = y.core) : x.number = y.number ∧ x.isString = y.isString ∧ x.object = y.object ∧
    x.tier = y.tier ∧ x.min = y.min ∧ x.u = y.u ∧ x.f = y.f := by
  simp only [PSess.core, PSess.mk.injEq] at h
  obtain ⟨-, hn, hs, ho, ht, -, hm, hu, hf, -⟩ := h
  exact ⟨hn, hs, ho, ht, hm, hu, hf⟩

theorem number_of_core {x y : PSess} (h : x.core = y.core) : x.number = y.number := (core_fields h).1

theorem has_of_core {x y : PSess} (k : PCons) (h : x.core = y.core) : k.has x = k.has y := by
  obtain ⟨-, h1, h2, -⟩ := core_fields h
  simp only [PCons.has, h1, h2]

theorem Fills.refl (r : List Nat) (s : List PSess) : Fills r s s := ⟨id, by simp, fun _ _ => ⟨rfl, fun _ => rfl⟩⟩

theorem Fills.trans {r : List Nat} {s t u : List PSess} (h1 : Fills r s t) (h2 : Fills r t u) : Fills r s u := by
  obtain ⟨f, rfl, hf⟩ := h1
  obtain ⟨g, rfl, hg⟩ := h2
  refine ⟨g ∘ f, by simp, fun x hx => ?_⟩
  obtain ⟨hc, hn⟩ := hf x hx
  obtain ⟨hc', hn'⟩ := hg (f x) (List.mem_map_of_mem hx)
  refine ⟨hc'.trans hc, fun hr => ?_⟩
  have hfx := hn hr
  rw [Function.comp, hn' (by rwa [hfx]), hfx]

theorem Fills.mono {r r' : List Nat} {s t : List PSess} (h : Fills r s t) (hr : ∀ n ∈ r, n ∈ r') : Fills r' s t := by
  obtain ⟨f, rfl, hf⟩ := h
  exact ⟨f, rfl, fun x hx => ⟨(hf x hx).1, fun hn => (hf x hx).2 fun h => hn (hr _ h)⟩⟩

theorem Fills.numbers {r : List Nat} {s t : List PSess} (h : Fills r s t) : t.map PSess.number = s.map PSess.number := by
  obtain ⟨f, rfl, hf⟩ := h
  rw [List.map_map]
  exact List.map_congr_left fun x hx => number_of_core (hf x hx).1

/-- Each session after a fill is one before it. -/
theorem Fills.mem {r : List Nat} {s t : List PSess} (h : Fills r s t) {y : PSess} (hy : y ∈ t) :
    ∃ x ∈ s, y.core = x.core ∧ (x.number ∉ r → y = x) := by
  obtain ⟨f, rfl, hf⟩ := h
  obtain ⟨x, hx, rfl⟩ := List.mem_map.mp hy
  exact ⟨x, hx, hf x hx⟩

/-- One update of the sessions with a number. -/
theorem fills_update (n : Nat) (f : PSess → PSess) (hf : ∀ x, (f x).core = x.core) (s : List PSess) :
    Fills [n] s (s.map fun y => if y.number == n then f y else y) := by
  refine ⟨_, rfl, fun x _ => ⟨?_, fun hn => ?_⟩⟩
  · split
    · exact hf x
    · rfl
  · have : x.number ≠ n := by simpa using hn
    simp [this]

/-- The sessions of a plan are sound: numbers are distinct, and what a session can be given reaches its floor and its minimum. -/
structure Sound (ss : List PSess) : Prop where
  nodup : (ss.map PSess.number).Nodup
  bound : ∀ x ∈ ss, x.f ≤ x.u ∧ (0 < x.u → x.min ≤ x.u)

theorem Fills.sound {r : List Nat} {s t : List PSess} (h : Fills r s t) (hs : Sound s) : Sound t := by
  refine ⟨h.numbers ▸ hs.nodup, fun y hy => ?_⟩
  obtain ⟨x, hx, hc, -⟩ := h.mem hy
  obtain ⟨-, -, -, -, h3, h2, h1⟩ := core_fields hc
  rw [h1, h2, h3]
  exact hs.bound x hx

/-! ### The sums that constraints see -/

theorem sumCv_eq (k : PCons) (ss : List PSess) : sumCv k ss = (ss.map fun x => if k.has x then x.cv else 0).sum := sumN_filter ..

theorem sumAt_eq (k : PCons) (un : List Nat) (ss : List PSess) (lam : Nat) :
    sumAt k un ss lam = (ss.map fun x => if k.has x then (if un.contains x.number then lvl x lam else x.cv) else 0).sum := sumN_filter ..

/-- Every constraint holds, and every session has its floor. -/
structure Within (ks : List PCons) (ss : List PSess) : Prop where
  fits : ∀ k ∈ ks, sumCv k ss ≤ k.cap
  floor : ∀ x ∈ ss, x.f ≤ x.cv ∧ x.g ≤ x.cv

/-! ### Admission -/

/-- The least that a session is admitted with (R155). -/
def PSess.least (x : PSess) : Nat := if x.f > 0 then x.f else x.min

theorem eq_of_number {ss : List PSess} (hs : Sound ss) {x y : PSess} (hx : x ∈ ss) (hy : y ∈ ss) (h : x.number = y.number) : x = y :=
  List.inj_on_of_nodup_map hs.nodup hx hy h

/-- A session's value changed: what a constraint sees follows. -/
theorem sumCv_update {k : PCons} {ss : List PSess} {x : PSess} (f : PSess → PSess) (hf : ∀ y, (f y).core = y.core) (hs : Sound ss)
    (hx : x ∈ ss) :
    sumCv k (ss.map fun y => if y.number == x.number then f y else y) + (if k.has x then x.cv else 0) =
      sumCv k ss + (if k.has x then (f x).cv else 0) := by
  rw [sumCv_eq, sumCv_eq, List.map_map]
  have h := sum_update (key := PSess.number) (fun y => if k.has y then y.cv else 0) (fun y => if k.has y then (f y).cv else 0)
    hs.nodup hx
  rw [← h]
  congr 2
  refine List.map_congr_left fun y _ => ?_
  simp only [Function.comp, beq_iff_eq]
  split
  · rw [has_of_core k (hf y)]
  · rfl

theorem le_sumCv {k : PCons} {ss : List PSess} {x : PSess} (hx : x ∈ ss) (hk : k.has x = true) : x.cv ≤ sumCv k ss := by
  rw [sumCv_eq]
  refine List.single_le_sum (by simp) _ (List.mem_map.mpr ⟨x, hx, ?_⟩)
  simp [hk]

/-- One session taken with a value that every constraint has room for. -/
theorem Within.update {ks : List PCons} {ss : List PSess} {x : PSess} (f : PSess → PSess) (hf : ∀ y, (f y).core = y.core)
    (hs : Sound ss) (hw : Within ks ss) (hx : x ∈ ss)
    (hfit : ∀ k ∈ ks, k.has x = true → sumCv k ss - x.cv + (f x).cv ≤ k.cap) (hfloor : x.f ≤ (f x).cv ∧ (f x).g ≤ (f x).cv) :
    Within ks (ss.map fun y => if y.number == x.number then f y else y) := by
  refine ⟨fun k hk => ?_, fun y hy => ?_⟩
  · have h := sumCv_update (k := k) f hf hs hx
    have hcap := hw.fits k hk
    by_cases hh : k.has x = true
    · have hle := le_sumCv hx hh
      have := hfit k hk hh
      simp only [hh, if_true] at h
      omega
    · simp only [hh] at h
      simp only [Bool.false_eq_true, if_false, Nat.add_zero] at h
      omega
  · obtain ⟨z, hz, rfl⟩ := List.mem_map.mp hy
    split
    next hn =>
      obtain rfl := eq_of_number hs hz hx (by simpa using hn)
      rw [(core_fields (hf z)).2.2.2.2.2.2]
      exact hfloor
    · exact hw.floor z hz

/-- What admission leaves: the constraints hold, floors are kept, and the admitted have their least. -/
structure Admitted (ks : List PCons) (r : List Nat) (ss : List PSess) (a : List Nat × List PSess) : Prop where
  fills : Fills r ss a.2
  within : Within ks a.2
  mem : ∀ n ∈ a.1, n ∈ r
  least : ∀ x ∈ a.2, x.number ∈ a.1 → x.cv = x.lb ∧ x.lb ≤ x.u

theorem admitAll_admitted {ks : List PCons} {r : List Nat} {ss : List PSess} (hr : r.Nodup) (hs : Sound ss) (hw : Within ks ss)
    (hz : ∀ x ∈ ss, x.number ∈ r → x.g = 0 ∧ 0 < x.u) : Admitted ks r ss (admitAll ks r ss) := by
  induction r generalizing ss with
  | nil => exact ⟨.refl .., hw, by simp [admitAll], by simp [admitAll]⟩
  | cons n r ih =>
    obtain ⟨hn, hr'⟩ := List.nodup_cons.mp hr
    unfold admitAll
    cases hfind : ss.find? (fun x => x.number == n) with
    | none =>
      obtain ⟨h1, h2, h3, h4⟩ := ih hr' hs hw fun x hx hm => hz x hx (List.mem_cons_of_mem _ hm)
      exact ⟨h1.mono fun m hm => List.mem_cons_of_mem _ hm, h2, fun m hm => List.mem_cons_of_mem _ (h3 m hm), h4⟩
    | some x =>
      have hx : x ∈ ss := List.mem_of_find?_eq_some hfind
      obtain rfl : x.number = n := by simpa using List.find?_some hfind
      obtain ⟨hg, hu⟩ := hz x hx (by simp)
      obtain ⟨hfu, hmu⟩ := hs.bound x hx
      have hleast : x.f ≤ x.least ∧ x.least ≤ x.u := by
        unfold PSess.least
        split <;> have := hmu hu <;> omega
      have hnext (f : PSess → PSess) (hf : ∀ y, (f y).core = y.core)
          (hw' : Within ks (ss.map fun y => if y.number == x.number then f y else y)) :
          Admitted ks r (ss.map fun y => if y.number == x.number then f y else y)
            (admitAll ks r (ss.map fun y => if y.number == x.number then f y else y)) := by
        have hfill := fills_update x.number f hf ss
        refine ih hr' (hfill.sound hs) hw' fun y hy hm => ?_
        obtain ⟨z, hz', hc, hsame⟩ := hfill.mem hy
        have hyn : z.number ≠ x.number := fun h => hn (h ▸ number_of_core hc ▸ hm)
        rw [hsame (by simpa using hyn)] at hm ⊢
        exact hz z hz' (List.mem_cons_of_mem _ hm)
      have hlb : (if x.f > 0 then x.f else x.min) = x.least := rfl
      simp only [hlb]
      split
      next htest =>
        have hw' := hw.update (fun y => { y with lb := x.least, cv := x.least }) (fun _ => rfl) hs hx
          (fun k hk hh => by simpa [hh] using List.all_eq_true.mp htest k hk) ⟨hleast.1, by simp [hg]⟩
        obtain ⟨h1, h2, h3, h4⟩ := hnext (fun y => { y with lb := x.least, cv := x.least }) (fun _ => rfl) hw'
        have hfill := fills_update x.number (fun y => { y with lb := x.least, cv := x.least }) (fun _ => rfl) ss
        refine ⟨(hfill.mono (by simp)).trans (h1.mono fun m hm => List.mem_cons_of_mem _ hm), h2, fun m hm => ?_, fun y hy hm => ?_⟩
        · exact (List.mem_cons.mp hm).elim (fun h => by simp [h]) fun h => List.mem_cons_of_mem _ (h3 m h)
        · rcases List.mem_cons.mp hm with hyn | hm
          · obtain ⟨z, hz', hc, hsame⟩ := h1.mem hy
            have hzn : z.number = x.number := (number_of_core hc).symm.trans hyn
            rw [hsame (hzn ▸ hn)]
            obtain ⟨v, hv, rfl⟩ := List.mem_map.mp hz'
            by_cases hvn : v.number = x.number
            · obtain rfl := eq_of_number hs hv hx hvn
              simpa using hleast.2
            · simp only [hvn, beq_iff_eq, if_false] at hzn
          · exact h4 y hy hm
      next htest =>
        have hf0 : x.f = 0 := by
          by_contra hpos
          refine htest (List.all_eq_true.mpr fun k hk => ?_)
          have hcap := hw.fits k hk
          have hfc := (hw.floor x hx).1
          by_cases hh : k.has x = true
          · have hle := le_sumCv hx hh
            simp only [hh, Bool.not_true, Bool.false_or, decide_eq_true_eq]
            have hl : x.least = x.f := if_pos (by omega)
            omega
          · simp [hh]
        have hw' := hw.update (fun y => { y with lb := x.least, cv := 0, g := 0, reason := rNOT_ADMITTED }) (fun _ => rfl) hs hx
          (fun k hk hh => by have := hw.fits k hk; dsimp only; omega) ⟨by simp [hf0], Nat.le_refl 0⟩
        obtain ⟨h1, h2, h3, h4⟩ := hnext (fun y => { y with lb := x.least, cv := 0, g := 0, reason := rNOT_ADMITTED }) (fun _ => rfl) hw'
        have hfill := fills_update x.number (fun y => { y with lb := x.least, cv := 0, g := 0, reason := rNOT_ADMITTED }) (fun _ => rfl) ss
        exact ⟨(hfill.mono (by simp)).trans (h1.mono fun m hm => List.mem_cons_of_mem _ hm), h2,
          fun m hm => List.mem_cons_of_mem _ (h3 m hm), h4⟩

/-! ### Freezing rounds -/

/-- The bisection ends at a level that holds when it begins at one. -/
theorem bisect_ok {ok : Nat → Bool} {n lo top : Nat} (h : ok lo = true) : ok (bisect ok n lo top) = true := by
  induction n generalizing lo top with
  | zero => exact h
  | succ n ih =>
    unfold bisect
    split
    · dsimp only
      split
      next hm => exact ih hm
      · exact ih h
    · exact h

/-- While a tier is filled: the constraints hold at the level reached, and the unfrozen have their least. -/
structure Filling (ks : List PCons) (un : List Nat) (lam : Nat) (ss : List PSess) : Prop where
  ok : okAt ks un ss lam = true
  floor : ∀ x ∈ ss, x.f ≤ x.cv ∧ x.g ≤ x.cv
  least : ∀ x ∈ ss, x.number ∈ un → x.cv = x.lb ∧ x.lb ≤ x.u

theorem okAt_iff {ks : List PCons} {un : List Nat} {ss : List PSess} {lam : Nat} :
    okAt ks un ss lam = true ↔ ∀ k ∈ ks, sumAt k un ss lam ≤ k.cap := by simp [okAt]

theorem lb_le_lvl {x : PSess} (lam : Nat) (h : x.lb ≤ x.u) : x.lb ≤ lvl x lam := by
  unfold lvl
  omega

/-- What a constraint sees at the level reached is at least what the sessions have. -/
theorem Filling.within {ks : List PCons} {un : List Nat} {lam : Nat} {ss : List PSess} (h : Filling ks un lam ss) : Within ks ss := by
  refine ⟨fun k hk => le_trans ?_ (okAt_iff.mp h.ok k hk), h.floor⟩
  rw [sumCv_eq, sumAt_eq]
  refine List.sum_le_sum fun x hx => ?_
  split
  · split
    next hun =>
      obtain ⟨hcv, hu⟩ := h.least x hx (by simpa using hun)
      rw [hcv]
      exact lb_le_lvl lam hu
    · exact Nat.le_refl _
  · exact Nat.le_refl _

/-- One round: the sessions frozen at a level keep what it gives them. -/
theorem Filling.freeze {ks : List PCons} {un : List Nat} {lam : Nat} {ss : List PSess} (hs : Sound ss) (h : Filling ks un lam ss)
    (frozen : PSess → Bool) (hfr : ∀ x, frozen x = true → x.number ∈ un) (why : PSess → Nat) :
    Filling ks (un.filter fun m => !((ss.filter frozen).map fun x => x.number).contains m) lam
      (ss.map fun x => if frozen x then { x with g := lvl x lam, cv := lvl x lam, reason := why x } else x) := by
  have hgone (x : PSess) (hx : x ∈ ss) : x.number ∈ (ss.filter frozen).map (fun x => x.number) ↔ frozen x = true := by
    constructor
    · intro hm
      obtain ⟨y, hy, hyn⟩ := List.mem_map.mp hm
      obtain ⟨hy, hf⟩ := List.mem_filter.mp hy
      exact eq_of_number hs hy hx hyn ▸ hf
    · exact fun hf => List.mem_map.mpr ⟨x, List.mem_filter.mpr ⟨hx, hf⟩, rfl⟩
  refine ⟨okAt_iff.mpr fun k hk => ?_, fun y hy => ?_, fun y hy hm => ?_⟩
  · refine le_of_eq_of_le ?_ (okAt_iff.mp h.ok k hk)
    rw [sumAt_eq, sumAt_eq, List.map_map]
    congr 1
    refine List.map_congr_left fun x hx => ?_
    have hg := hgone x hx
    by_cases hf : frozen x = true
    · simp only [Function.comp, hf, if_true, has_of_core k (show ({ x with g := lvl x lam, cv := lvl x lam, reason := why x } : PSess).core =
        x.core from rfl)]
      simp [hg.mpr hf, hfr x hf]
    · simp only [Function.comp, hf, Bool.false_eq_true, if_false]
      have hng : x.number ∉ (ss.filter frozen).map (fun x => x.number) := fun hm => hf (hg.mp hm)
      simp [hng]
  · obtain ⟨x, hx, rfl⟩ := List.mem_map.mp hy
    obtain ⟨h1, h2⟩ := h.floor x hx
    split
    next hf =>
      obtain ⟨hcv, hu⟩ := h.least x hx (hfr x hf)
      exact ⟨(h1.trans (le_of_eq hcv)).trans (lb_le_lvl lam hu), Nat.le_refl _⟩
    · exact ⟨h1, h2⟩
  · obtain ⟨x, hx, rfl⟩ := List.mem_map.mp hy
    obtain ⟨hun, hng⟩ := List.mem_filter.mp hm
    have hf : ¬frozen x = true := by
      intro hf
      simp only [hf, if_true] at hng
      simp [(hgone x hx).mpr hf] at hng
    simp only [hf, Bool.false_eq_true, if_false] at hun ⊢
    exact h.least x hx hun

theorem fillRounds_within {ks : List PCons} {n lam : Nat} {un : List Nat} {ss : List PSess} (hs : Sound ss) (h : Filling ks un lam ss) :
    Fills un ss (fillRounds ks n lam un ss) ∧ Within ks (fillRounds ks n lam un ss) := by
  induction n generalizing lam un ss with
  | zero => exact ⟨.refl .., h.within⟩
  | succ n ih =>
    unfold fillRounds
    split
    · exact ⟨.refl .., h.within⟩
    · extract_lets hi lam' tight frozen gone ss'
      have hok : okAt ks un ss lam' = true := by
        show okAt ks un ss (if okAt ks un ss hi then hi else bisect (okAt ks un ss) 40 lam hi) = true
        split
        next hh => exact hh
        · exact bisect_ok h.ok
      have hfr (x : PSess) (hx : frozen x = true) : x.number ∈ un := by
        have : un.contains x.number = true := (Bool.and_eq_true _ _ ▸ hx : _ ∧ _).1
        simpa using this
      have hfill : Fills un ss ss' := by
        refine ⟨_, rfl, fun x _ => ⟨?_, fun hn => ?_⟩⟩
        · split <;> rfl
        · exact if_neg fun hf => hn (hfr x hf)
      have hnext : Filling ks (un.filter fun m => !gone.contains m) lam' ss' :=
        Filling.freeze hs ⟨hok, h.floor, h.least⟩ frozen hfr _
      obtain ⟨h1, h2⟩ := ih (hfill.sound hs) hnext
      exact ⟨hfill.trans (h1.mono fun m hm => (List.mem_filter.mp hm).1), h2⟩

/-- At the start of a fill every level is the least. -/
theorem lvl_zero {x : PSess} (h : x.lb ≤ x.u) : lvl x 0 = x.lb := by
  have h0 : satU32 (rneShr (x.w * 0) 8) = 0 := by simp [satU32, rneShr, rneDiv, clampI]
  unfold lvl
  push_cast at h0 ⊢
  rw [h0]
  omega

/-- The numbers of a tier's sessions. -/
def tierNumbers (isString : Bool) (tier : Nat) (ss : List PSess) : List Nat :=
  sortBy (fun a b : Nat => a < b) ((ss.filter (fun x => x.isString == isString && x.tier == tier && x.u > 0)).map (fun x => x.number))

theorem mem_tierNumbers {isString : Bool} {tier n : Nat} {ss : List PSess} :
    n ∈ tierNumbers isString tier ss ↔ ∃ x ∈ ss, x.number = n ∧ x.isString = isString ∧ x.tier = tier ∧ 0 < x.u := by
  unfold tierNumbers
  rw [(sortBy_perm _ _).mem_iff]
  simp only [List.mem_map, List.mem_filter, Bool.and_eq_true, beq_iff_eq, decide_eq_true_eq]
  constructor
  · rintro ⟨x, ⟨hx, ⟨hs, ht⟩, hu⟩, rfl⟩
    exact ⟨x, hx, rfl, hs, ht, hu⟩
  · rintro ⟨x, hx, rfl, hs, ht, hu⟩
    exact ⟨x, ⟨hx, ⟨hs, ht⟩, hu⟩, rfl⟩

/-- A tier filled changes its sessions only, and every constraint still holds. -/
theorem fillTier_within {ks : List PCons} {isString : Bool} {tier : Nat} {ss : List PSess} (hs : Sound ss) (hw : Within ks ss)
    (hz : ∀ x ∈ ss, x.isString = isString → x.tier = tier → x.g = 0) :
    Fills (tierNumbers isString tier ss) ss (fillTier ks isString tier ss) ∧ Within ks (fillTier ks isString tier ss) := by
  have hnd : (tierNumbers isString tier ss).Nodup :=
    (sortBy_perm _ _).nodup_iff.mpr (hs.nodup.sublist (List.filter_sublist.map _))
  have hz' (x : PSess) (hx : x ∈ ss) (hm : x.number ∈ tierNumbers isString tier ss) : x.g = 0 ∧ 0 < x.u := by
    obtain ⟨y, hy, hyn, h1, h2, h3⟩ := mem_tierNumbers.mp hm
    obtain rfl := eq_of_number hs hy hx hyn
    exact ⟨hz y hy h1 h2, h3⟩
  obtain ⟨h1, h2, h3, h4⟩ := admitAll_admitted hnd hs hw hz'
  have hfilling : Filling ks (admitAll ks (tierNumbers isString tier ss) ss).1 0 (admitAll ks (tierNumbers isString tier ss) ss).2 := by
    refine ⟨okAt_iff.mpr fun k hk => le_of_eq_of_le ?_ (h2.fits k hk), h2.floor, h4⟩
    rw [sumAt_eq, sumCv_eq]
    congr 1
    refine List.map_congr_left fun x hx => ?_
    split
    · split
      next hun =>
        obtain ⟨hcv, hu⟩ := h4 x hx (by simpa using hun)
        rw [lvl_zero hu, hcv]
      · rfl
    · rfl
  obtain ⟨h5, h6⟩ := fillRounds_within (n := (tierNumbers isString tier ss).length + 1) (h1.sound hs) hfilling
  exact ⟨h1.trans (h5.mono h3), h6⟩

/-! ### All tiers -/

/-- The numbers of the port or the charge sessions. -/
def kindNumbers (isString : Bool) (ss : List PSess) : List Nat := (ss.filter fun x => x.isString == isString).map PSess.number

theorem mem_kindNumbers {isString : Bool} {n : Nat} {ss : List PSess} :
    n ∈ kindNumbers isString ss ↔ ∃ x ∈ ss, x.isString = isString ∧ x.number = n := by
  simp [kindNumbers, and_assoc]

theorem isString_of_mem_kindNumbers {isString : Bool} {ss : List PSess} {x : PSess} (hs : Sound ss) (hx : x ∈ ss)
    (h : x.number ∈ kindNumbers isString ss) : x.isString = isString := by
  obtain ⟨y, hy, hk, hn⟩ := mem_kindNumbers.mp h
  exact eq_of_number hs hy hx hn ▸ hk

theorem mem_kindNumbers_of_tier {isString : Bool} {tier n : Nat} {ss : List PSess} (h : n ∈ tierNumbers isString tier ss) :
    n ∈ kindNumbers isString ss := by
  obtain ⟨x, hx, hn, hk, -⟩ := mem_tierNumbers.mp h
  exact mem_kindNumbers.mpr ⟨x, hx, hk, hn⟩

theorem Fills.kindNumbers {r : List Nat} {s t : List PSess} (h : Fills r s t) {isString : Bool} {n : Nat}
    (hn : n ∈ kindNumbers isString t) : n ∈ kindNumbers isString s := by
  obtain ⟨y, hy, hk, hyn⟩ := mem_kindNumbers.mp hn
  obtain ⟨x, hx, hc, -⟩ := h.mem hy
  obtain ⟨h1, h2, -⟩ := core_fields hc
  exact mem_kindNumbers.mpr ⟨x, hx, h2 ▸ hk, h1 ▸ hyn⟩

/-- Tiers filled one after another change the sessions of their kind only, and every constraint still holds. -/
theorem foldl_fillTier_within {ks : List PCons} {isString : Bool} {ts : List Nat} {ss : List PSess} (hts : ts.Nodup) (hs : Sound ss)
    (hw : Within ks ss) (hz : ∀ x ∈ ss, x.isString = isString → x.tier ∈ ts → x.g = 0) :
    Fills (kindNumbers isString ss) ss (ts.foldl (fun ss t => fillTier ks isString t ss) ss) ∧
    Within ks (ts.foldl (fun ss t => fillTier ks isString t ss) ss) := by
  induction ts generalizing ss with
  | nil => exact ⟨.refl .., hw⟩
  | cons t ts ih =>
    obtain ⟨ht, hts⟩ := List.nodup_cons.mp hts
    obtain ⟨h1, h2⟩ := fillTier_within hs hw fun x hx hk htier => hz x hx hk (htier ▸ List.mem_cons_self)
    obtain ⟨h3, h4⟩ := ih hts (h1.sound hs) h2 fun y hy hk htier => by
      obtain ⟨x, hx, hc, hsame⟩ := h1.mem hy
      obtain ⟨-, hk', -, ht', -⟩ := core_fields hc
      have hnot : x.number ∉ tierNumbers isString t ss := fun hm => by
        obtain ⟨z, hz', hzn, -, hzt, -⟩ := mem_tierNumbers.mp hm
        obtain rfl := eq_of_number hs hz' hx hzn
        exact ht (hzt ▸ ht' ▸ htier)
      rw [hsame hnot]
      exact hz x hx (hk' ▸ hk) (by simp [← ht', htier])
    exact ⟨(h1.mono fun n hn => mem_kindNumbers_of_tier hn).trans (h3.mono fun n hn => h1.kindNumbers hn), h4⟩

theorem fillAll_within {ks : List PCons} {isString : Bool} {ss : List PSess} (hs : Sound ss) (hw : Within ks ss)
    (hz : ∀ x ∈ ss, x.isString = isString → x.g = 0) :
    Fills (kindNumbers isString ss) ss (fillAll ks isString ss) ∧ Within ks (fillAll ks isString ss) :=
  foldl_fillTier_within List.nodup_range hs hw fun x hx hk _ => hz x hx hk

/-! ### A fill whose supply is exceeded by floors that no release reaches -/

/-- The sessions `t` are those of `s` with the same values: no charge session is touched, and no grant is higher. -/
def Idle (s t : List PSess) : Prop :=
  ∃ h : PSess → PSess, t = s.map h ∧ ∀ x ∈ s, (h x).core = x.core ∧ (h x).cv = x.cv ∧ (h x).g ≤ x.g ∧ (x.isString = true → h x = x)

theorem Idle.refl (s : List PSess) : Idle s s := ⟨id, by simp, fun _ _ => ⟨rfl, rfl, Nat.le_refl _, fun _ => rfl⟩⟩

theorem Idle.trans {s t u : List PSess} (h1 : Idle s t) (h2 : Idle t u) : Idle s u := by
  obtain ⟨f, rfl, hf⟩ := h1
  obtain ⟨g, rfl, hg⟩ := h2
  refine ⟨g ∘ f, by simp, fun x hx => ?_⟩
  obtain ⟨hc, hv, hgr, hsame⟩ := hf x hx
  obtain ⟨hc', hv', hgr', hsame'⟩ := hg (f x) (List.mem_map_of_mem hx)
  refine ⟨hc'.trans hc, hv'.trans hv, hgr'.trans hgr, fun hstr => ?_⟩
  have hfx := hsame hstr
  rw [Function.comp, hsame' (by rwa [hfx]), hfx]

theorem Idle.mem {s t : List PSess} (h : Idle s t) {y : PSess} (hy : y ∈ t) :
    ∃ x ∈ s, y.core = x.core ∧ y.cv = x.cv ∧ y.g ≤ x.g ∧ (x.isString = true → y = x) := by
  obtain ⟨f, rfl, hf⟩ := h
  obtain ⟨x, hx, rfl⟩ := List.mem_map.mp hy
  exact ⟨x, hx, hf x hx⟩

theorem Idle.sumCv {s t : List PSess} (h : Idle s t) (k : PCons) : sumCv k t = sumCv k s := by
  obtain ⟨f, rfl, hf⟩ := h
  rw [sumCv_eq, sumCv_eq, List.map_map]
  congr 1
  refine List.map_congr_left fun x hx => ?_
  obtain ⟨hc, hv, -⟩ := hf x hx
  simp only [Function.comp, has_of_core k hc, hv]

theorem Idle.sound {s t : List PSess} (h : Idle s t) (hs : Sound s) : Sound t := by
  obtain ⟨f, rfl, hf⟩ := h
  exact Fills.sound (r := s.map PSess.number) ⟨f, rfl, fun x hx => ⟨(hf x hx).1, fun hn => absurd (List.mem_map_of_mem hx) hn⟩⟩ hs

/-- No port session without a value is admitted while floors exceed the supply of the ports. -/
theorem admitAll_idle {ks : List PCons} {k : PCons} {r : List Nat} {ss : List PSess} (hk : k ∈ ks) (hcap : k.cap < sumCv k ss)
    (hs : Sound ss) (hr : ∀ x ∈ ss, x.number ∈ r → k.has x = true ∧ x.cv = 0 ∧ x.isString = false) :
    (admitAll ks r ss).1 = [] ∧ Idle ss (admitAll ks r ss).2 := by
  induction r generalizing ss with
  | nil => exact ⟨rfl, .refl _⟩
  | cons n r ih =>
    unfold admitAll
    cases hfind : ss.find? (fun x => x.number == n) with
    | none => exact ih hcap hs fun x hx hm => hr x hx (List.mem_cons_of_mem _ hm)
    | some x =>
      have hx : x ∈ ss := List.mem_of_find?_eq_some hfind
      obtain rfl : x.number = n := by simpa using List.find?_some hfind
      obtain ⟨hhas, hcv, hstr⟩ := hr x hx (by simp)
      have htest : ¬(ks.all fun k => !k.has x || sumCv k ss - x.cv + x.least ≤ k.cap) = true := fun h => by
        have := List.all_eq_true.mp h k hk
        simp only [hhas, Bool.not_true, Bool.false_or, decide_eq_true_eq] at this
        omega
      have hlb : (if x.f > 0 then x.f else x.min) = x.least := rfl
      simp only [hlb]
      rw [if_neg htest]
      have hidle : Idle ss (ss.map fun y => if y.number == x.number then
          { y with lb := x.least, cv := 0, g := 0, reason := rNOT_ADMITTED } else y) := by
        refine ⟨_, rfl, fun y hy => ?_⟩
        split
        next hn =>
          obtain rfl := eq_of_number hs hy hx (by simpa using hn)
          exact ⟨rfl, hcv.symm, Nat.zero_le _, fun h => absurd (hstr.symm.trans h) (by simp)⟩
        · exact ⟨rfl, rfl, Nat.le_refl _, fun _ => rfl⟩
      obtain ⟨h1, h2⟩ := ih (by rw [hidle.sumCv]; exact hcap) (hidle.sound hs) fun y hy hm => by
        obtain ⟨z, hz, hc, hv, -⟩ := hidle.mem hy
        obtain ⟨hn, hstr', -⟩ := core_fields hc
        rw [has_of_core k hc, hv, hstr']
        exact hr z hz (List.mem_cons_of_mem _ (hn ▸ hm))
      exact ⟨h1, hidle.trans h2⟩

theorem foldl_fillTier_idle {ks : List PCons} {k : PCons} {ts : List Nat} {ss : List PSess} (hk : k ∈ ks) (hcap : k.cap < sumCv k ss)
    (hs : Sound ss) (hz : ∀ x ∈ ss, x.isString = false → x.tier ∈ ts → k.has x = true ∧ x.cv = 0) :
    Idle ss (ts.foldl (fun ss t => fillTier ks false t ss) ss) := by
  induction ts generalizing ss with
  | nil => exact .refl _
  | cons t ts ih =>
    obtain ⟨h1, h2⟩ := admitAll_idle (r := tierNumbers false t ss) hk hcap hs fun x hx hm => by
      obtain ⟨y, hy, hn, hstr, htier, -⟩ := mem_tierNumbers.mp hm
      obtain rfl := eq_of_number hs hy hx hn
      obtain ⟨h3, h4⟩ := hz y hy hstr (htier ▸ List.mem_cons_self)
      exact ⟨h3, h4, hstr⟩
    have hfill : fillTier ks false t ss = (admitAll ks (tierNumbers false t ss) ss).2 := by
      show fillRounds ks ((tierNumbers false t ss).length + 1) 0 (admitAll ks (tierNumbers false t ss) ss).1 _ = _
      rw [h1]
      rfl
    have hidle : Idle ss (fillTier ks false t ss) := hfill ▸ h2
    refine hidle.trans (ih (by rw [hidle.sumCv]; exact hcap) (hidle.sound hs) fun y hy hstr htier => ?_)
    obtain ⟨x, hx, hc, hv, -⟩ := hidle.mem hy
    obtain ⟨-, hstr', -, ht', -⟩ := core_fields hc
    rw [has_of_core k hc, hv]
    exact hz x hx (hstr' ▸ hstr) (List.mem_cons_of_mem _ (ht' ▸ htier))

/-! ### Sessions and floors before the fill -/

/-- The bounds of a session reach its floor and its minimum, and it has been given nothing. -/
def PSess.Sane (n : Nat) (y : PSess) : Prop := y.number = n ∧ y.f ≤ y.u ∧ (0 < y.u → y.min ≤ y.u) ∧ y.g = 0

theorem cut_bound {a mn : Nat} (h : 0 < if a < mn then 0 else a) : mn ≤ if a < mn then 0 else a := by
  split <;> simp_all

theorem boundsOf_sane (s : Snap) (c : Cfg) (i : Nat) (x : Sess) (pre str : Bool) (tier obj w mn mx ramp n : Nat) :
    (boundsOf s c i x pre str tier obj w mn mx ramp n).Sane n := by
  unfold boundsOf
  extract_lets lim tier w base cr
  have hbase (r : Nat) : ({ base with reason := r } : PSess).Sane n := ⟨rfl, Nat.le_refl _, fun h => absurd h (by simp [base]), rfl⟩
  split
  · exact hbase _
  · split
    · exact hbase _
    · split
      · exact hbase _
      · split
        · exact hbase _
        · split
          · exact hbase _
          · exact ⟨rfl, Nat.min_le_right .., fun hu => cut_bound hu, rfl⟩

/-- The numbers of the sessions that the ledger and the session table share. -/
def ledgerNumbers (s : Snap) : List Nat := s.ledger.filterMap fun p => match p.2, look p.1 s.sess with
  | .session _ _ _ _ _ _ _ _ n _, some _ => some n
  | _, _ => none

theorem planSessions_sound {s : Snap} {c : Cfg} (h : (ledgerNumbers s).Nodup) :
    Sound (planSessions s c) ∧ ∀ x ∈ planSessions s c, x.g = 0 := by
  have hsane : ∀ x ∈ planSessions s c, ∃ n, x.Sane n := by
    intro x hx
    obtain ⟨p, -, hp⟩ := List.mem_filterMap.mp hx
    split at hp
    next => exact ⟨_, Option.some.inj hp ▸ boundsOf_sane ..⟩
    · exact absurd hp (by simp)
  refine ⟨⟨?_, fun x hx => ?_⟩, fun x hx => ?_⟩
  · have he : (planSessions s c).map PSess.number = ledgerNumbers s := by
      unfold planSessions ledgerNumbers
      rw [List.map_filterMap]
      refine List.filterMap_congr fun p _ => ?_
      cases p.2 with
      | session =>
        cases look p.1 s.sess with
        | none => rfl
        | some x => exact congrArg some (boundsOf_sane ..).1
      | _ => rfl
    exact he ▸ h
  · obtain ⟨n, -, h1, h2, -⟩ := hsane x hx
    exact ⟨h1, h2⟩
  · obtain ⟨n, -, -, -, h3⟩ := hsane x hx
    exact h3

/-- Floors released: each session is as it was or has floor 0. -/
theorem releaseAll_cases (s : Snap) (r : List Nat) (ss : List PSess) :
    (∃ h : PSess → PSess, releaseAll s r ss = ss.map h ∧ ∀ x, h x = x ∨ h x = { x with f := 0 }) ∧
    (floorsFit s (releaseAll s r ss) = true ∨ ∀ x ∈ releaseAll s r ss, x.number ∈ r → x.f = 0) := by
  induction r generalizing ss with
  | nil => exact ⟨⟨id, by simp [releaseAll], fun _ => .inl rfl⟩, .inr (by simp)⟩
  | cons n r ih =>
    unfold releaseAll
    split
    next hfit => exact ⟨⟨id, by simp, fun _ => .inl rfl⟩, .inl hfit⟩
    · obtain ⟨⟨h, heq, hh⟩, hcase⟩ := ih (releaseFloor n ss)
      have hcomp : releaseAll s r (releaseFloor n ss) = ss.map fun x => h (if x.number == n then { x with f := 0 } else x) := by
        rw [heq, releaseFloor, List.map_map]
        rfl
      refine ⟨⟨_, hcomp, fun x => ?_⟩, hcase.imp_right fun hz x hx hm => ?_⟩
      · by_cases hn : x.number = n
        · rw [if_pos (by simpa using hn)]
          rcases hh { x with f := 0 } with he | he <;> exact .inr he
        · simp only [beq_iff_eq, hn, if_false]
          exact hh x
      · rcases List.mem_cons.mp hm with hn | hm
        · rw [hcomp] at hx
          obtain ⟨y, -, rfl⟩ := List.mem_map.mp hx
          by_cases hy : y.number = n
          · rw [if_pos (by simpa using hy)]
            rcases hh { y with f := 0 } with he | he <;> exact congrArg PSess.f he
          · simp only [beq_iff_eq, hy, if_false] at hn ⊢
            rcases hh y with he | he <;> rw [he] at hn ⊢
            exact absurd hn hy
        · exact hz x hx hm

/-- Every charge session, and every port session of a tier below 8, is released in its turn. -/
theorem mem_releaseOrder {ss : List PSess} {x : PSess} (hx : x ∈ ss) (h : x.isString = true ∨ x.tier < 8) : x.number ∈ releaseOrder ss := by
  unfold releaseOrder
  simp only [List.mem_append, List.mem_flatMap, List.mem_map, (sortBy_perm _ _).mem_iff, List.mem_filter]
  by_cases hstr : x.isString = true
  · exact .inl ⟨x, ⟨hx, hstr⟩, rfl⟩
  · have ht : x.tier < 8 := h.resolve_left hstr
    refine .inr ⟨x.tier, ?_, x, ⟨hx, by simp [hstr]⟩, rfl⟩
    simp only [List.mem_cons, List.not_mem_nil, or_false]
    omega

/-! ### Discharge -/

theorem shareAt_top {d : Nat} (h : d ≤ 2 ^ 26) : shareAt d 65536 = d := by
  have hr : rneShr ((d * 65536 : Nat) : Int) 16 = d := by
    have hq : ((d * 65536 : Nat) : Int) / ((2 ^ 16 : Nat) : Int) = d := by omega
    simp only [rneShr, rneDiv, hq]
    norm_num
  unfold shareAt
  push_cast at hr ⊢
  rw [hr]
  simp only [satU32, clampI]
  omega

theorem muOf_go_covers {ds : List Nat} {x n lo hi : Nat} (h : x ≤ sumN (ds.map fun d => shareAt d hi)) :
    x ≤ sumN (ds.map fun d => shareAt d (muOf.go ds x n lo hi)) := by
  induction n generalizing lo hi with
  | zero => exact h
  | succ n ih =>
    unfold muOf.go
    split
    · dsimp only
      split
      next hm => exact ih hm
      · exact ih h
    · exact h

/-- The share found covers what is needed, where the strings can give it. -/
theorem muOf_covers {ds : List Nat} {x : Nat} (hd : ∀ d ∈ ds, d ≤ 2 ^ 26) (h : x ≤ sumN ds) :
    x ≤ sumN (ds.map fun d => shareAt d (muOf ds x)) := by
  unfold muOf
  split
  next h0 =>
    subst h0
    exact Nat.zero_le _
  · refine muOf_go_covers ?_
    rw [List.map_congr_left fun d hm => shareAt_top (hd d hm), List.map_id']
    exact h

theorem shareAt_zero (d : Nat) : shareAt d 0 = 0 := by simp [shareAt, rneShr, rneDiv, satU32, clampI]

theorem availOf_le (s : Snap) (ss : List PSess) (j : Nat) : availOf s ss j ≤ s.inp.discharge.getD j 0 := by
  unfold availOf
  split
  · exact Nat.zero_le _
  · split
    · exact Nat.zero_le _
    · split
      · exact Nat.zero_le _
      · exact Nat.min_le_left ..

/-- A string with a floor to keep offers nothing. -/
theorem availOf_eq_zero {s : Snap} {ss : List PSess} {x : PSess} (hx : x ∈ ss) (hstr : x.isString = true) (hf : 0 < x.f) :
    availOf s ss x.object = 0 := by
  unfold availOf
  rw [if_pos]
  simp only [Bool.or_eq_true, List.any_eq_true]
  exact .inr ⟨x, hx, by simp [hstr, hf]⟩

/-! ### The plan of a snapshot -/

/-- The sessions with which the fills begin: each has its floor. -/
def startSessions (s : Snap) (c : Cfg) : List PSess :=
  (releaseAll s (releaseOrder (planSessions s c)) (planSessions s c)).map fun x => { x with cv := x.f }

/-- The sessions before the fills: sound, with their floors and nothing granted. -/
structure Start (s : Snap) (ss : List PSess) : Prop where
  sound : Sound ss
  value : ∀ x ∈ ss, x.g = 0 ∧ x.cv = x.f
  fit : floorsFit s ss = true ∨ ∀ x ∈ ss, x.isString = true ∨ x.tier < 8 → x.f = 0

theorem floors_map_cv (b : Bool) (ss : List PSess) : floors b (ss.map fun x => { x with cv := x.f }) = floors b ss := by
  simp only [floors, sumN_filter, List.map_map]
  rfl

theorem avails_map_cv (s : Snap) (ss : List PSess) : avails s (ss.map fun x => { x with cv := x.f }) = avails s ss := by
  have h (j : Nat) : (ss.map fun x => { x with cv := x.f }).any (fun x => x.isString && x.object == j && x.f > 0) =
      ss.any (fun x => x.isString && x.object == j && x.f > 0) := by
    rw [List.any_map]
    rfl
  refine List.map_congr_left fun j _ => ?_
  unfold availOf
  rw [h]

theorem start_of_numbers {s : Snap} {c : Cfg} (h : (ledgerNumbers s).Nodup) : Start s (startSessions s c) := by
  obtain ⟨hs, hg⟩ := planSessions_sound (c := c) h
  obtain ⟨⟨f, heq, hf⟩, hcase⟩ := releaseAll_cases s (releaseOrder (planSessions s c)) (planSessions s c)
  have hmap : startSessions s c = (planSessions s c).map fun x => { f x with cv := (f x).f } := by
    rw [startSessions, heq, List.map_map]
    rfl
  have hsame (x : PSess) : (f x).number = x.number ∧ (f x).u = x.u ∧ (f x).min = x.min ∧ (f x).g = x.g ∧ (f x).f ≤ x.f ∧
      (f x).isString = x.isString ∧ (f x).tier = x.tier := by
    rcases hf x with he | he <;> rw [he] <;> simp
  refine ⟨⟨?_, fun y hy => ?_⟩, fun y hy => ?_, ?_⟩
  · rw [hmap, List.map_map]
    have : (planSessions s c).map (PSess.number ∘ fun x => { f x with cv := (f x).f }) = (planSessions s c).map PSess.number :=
      List.map_congr_left fun x _ => (hsame x).1
    rw [this]
    exact hs.nodup
  · rw [hmap] at hy
    obtain ⟨x, hx, rfl⟩ := List.mem_map.mp hy
    obtain ⟨-, h2, h3, -, h5, -⟩ := hsame x
    obtain ⟨h6, h7⟩ := hs.bound x hx
    dsimp only
    rw [h2, h3]
    exact ⟨h5.trans h6, h7⟩
  · rw [hmap] at hy
    obtain ⟨x, hx, rfl⟩ := List.mem_map.mp hy
    exact ⟨(hsame x).2.2.2.1.trans (hg x hx), rfl⟩
  · refine hcase.imp (fun hfit => ?_) fun hz y hy hk => ?_
    · rwa [floorsFit, startSessions, floors_map_cv, floors_map_cv, avails_map_cv]
    · obtain ⟨z, hz', rfl⟩ := List.mem_map.mp hy
      refine hz z hz' ?_
      rw [heq] at hz'
      obtain ⟨x, hx, rfl⟩ := List.mem_map.mp hz'
      obtain ⟨h1, -, -, -, -, h6, h7⟩ := hsame x
      rw [h1]
      exact mem_releaseOrder hx (by simpa [h6, h7] using hk)

/-- The supply constraint of the ports or of the charge sessions. -/
abbrev supplyCons (isString : Bool) (cap : Nat) : PCons := ⟨true, isString, 0, 0, cap⟩

theorem supplyCons_has (b : Bool) (cap : Nat) (x : PSess) : (supplyCons b cap).has x = (x.isString == b) := by simp [PCons.has]

/-- What the sessions of a kind have been granted. -/
def grants (b : Bool) (ss : List PSess) : Nat := sumN ((ss.filter fun x => x.isString == b).map fun x => x.g)

theorem floors_eq_sumCv {s : Snap} {ss : List PSess} (h : Start s ss) (b : Bool) (cap : Nat) : sumCv (supplyCons b cap) ss = floors b ss := by
  rw [sumCv_eq, floors, sumN_filter]
  congr 1
  exact List.map_congr_left fun x hx => by rw [supplyCons_has, (h.value x hx).2]

theorem grants_le_sumCv {ks : List PCons} {ss : List PSess} (h : Within ks ss) (b : Bool) (cap : Nat) :
    grants b ss ≤ sumCv (supplyCons b cap) ss := by
  rw [sumCv_eq, grants, sumN_filter]
  refine List.sum_le_sum fun x hx => ?_
  rw [supplyCons_has]
  split
  · exact (h.floor x hx).2
  · exact Nat.le_refl _

/-- The soft constraints leave room for the floors. -/
theorem softCons_room {s : Snap} {ss : List PSess} (h : Start s ss) : ∀ k ∈ softCons s ss, sumCv k ss ≤ k.cap := by
  intro k hk
  unfold softCons at hk
  split at hk
  · simp at hk
  · obtain ⟨p, -, hp⟩ := List.mem_filterMap.mp hk
    split at hp
    next ports strings lim tag heq =>
      obtain rfl := Option.some.inj hp
      refine le_trans (le_of_eq ?_) (Nat.le_max_right ..)
      rw [sumCv, sumN_eq_sum, sumN_eq_sum]
      congr 1
      exact List.map_congr_left fun x hx => (h.value x (List.mem_filter.mp hx).1).2
    · simp at hp

/-- After the fill of the ports: the charge sessions are as they were, the soft constraints hold, and the ports' grants and the charge
sessions' floors are within the supply. -/
theorem portFill {s : Snap} {ss : List PSess} (h : Start s ss) :
    let t := fillAll (supplyCons false (gridLimit s + sumN (avails s ss) - floors true ss) :: softCons s ss) false ss
    (∃ f : PSess → PSess, t = ss.map f ∧ ∀ x ∈ ss, (f x).core = x.core ∧ (x.isString = true → f x = x)) ∧
    Within (softCons s ss) t ∧ grants false t + floors true ss ≤ gridLimit s + sumN (avails s ss) := by
  intro t
  have hwithin (hfit : floors false ss ≤ gridLimit s + sumN (avails s ss) - floors true ss) :
      Within (supplyCons false (gridLimit s + sumN (avails s ss) - floors true ss) :: softCons s ss) ss := by
    refine ⟨fun k hk => ?_, fun x hx => ?_⟩
    · rcases List.mem_cons.mp hk with rfl | hk
      · rw [floors_eq_sumCv h]
        exact hfit
      · exact softCons_room h k hk
    · obtain ⟨h1, h2⟩ := h.value x hx
      omega
  by_cases hfit : floorsFit s ss = true
  · have hle : floors false ss + floors true ss ≤ gridLimit s + sumN (avails s ss) := by simpa [floorsFit] using hfit
    obtain ⟨⟨f, heq, hf⟩, hw⟩ := fillAll_within h.sound (hwithin (by omega)) fun x hx _ => (h.value x hx).1
    refine ⟨⟨f, heq, fun x hx => ⟨(hf x hx).1, fun hstr => (hf x hx).2 fun hm => ?_⟩⟩, ⟨fun k hk => hw.fits k (by simp [hk]), hw.floor⟩, ?_⟩
    · exact absurd (isString_of_mem_kindNumbers h.sound hx hm) (by simp [hstr])
    · have h1 := grants_le_sumCv hw false (gridLimit s + sumN (avails s ss) - floors true ss)
      have h2 := hw.fits _ List.mem_cons_self
      have h3 : grants false t ≤ gridLimit s + sumN (avails s ss) - floors true ss := h1.trans h2
      omega
  · have hz := h.fit.resolve_left hfit
    have hcf : floors true ss = 0 := by
      rw [floors, sumN_filter]
      refine List.sum_eq_zero fun n hn => ?_
      obtain ⟨x, hx, rfl⟩ := List.mem_map.mp hn
      split
      next hstr => exact hz x hx (.inl (by simpa using hstr))
      · rfl
    have hcap : gridLimit s + sumN (avails s ss) - floors true ss <
        sumCv (supplyCons false (gridLimit s + sumN (avails s ss) - floors true ss)) ss := by
      rw [floors_eq_sumCv h]
      have : ¬floors false ss + floors true ss ≤ gridLimit s + sumN (avails s ss) := by simpa [floorsFit] using hfit
      omega
    have hidle : Idle ss t := foldl_fillTier_idle List.mem_cons_self hcap h.sound fun x hx hstr htier => by
      obtain ⟨-, h2⟩ := h.value x hx
      exact ⟨by rw [supplyCons_has, hstr]; rfl, h2.trans (hz x hx (.inr (List.mem_range.mp htier)))⟩
    have hg : ∀ y ∈ t, y.g = 0 ∧ y.f ≤ y.cv := fun y hy => by
      obtain ⟨x, hx, hc, hv, hle, -⟩ := hidle.mem hy
      obtain ⟨h1, h2⟩ := h.value x hx
      obtain ⟨-, -, -, -, -, -, h3⟩ := core_fields hc
      omega
    refine ⟨?_, ⟨fun k hk => ?_, fun y hy => ?_⟩, ?_⟩
    · obtain ⟨f, heq, hf⟩ := hidle
      exact ⟨f, heq, fun x hx => ⟨(hf x hx).1, (hf x hx).2.2.2⟩⟩
    · rw [hidle.sumCv]
      exact softCons_room h k hk
    · obtain ⟨h1, h2⟩ := hg y hy
      omega
    · have h0 : grants false t = 0 := by
        rw [grants, sumN_filter]
        refine List.sum_eq_zero fun n hn => ?_
        obtain ⟨x, hx, rfl⟩ := List.mem_map.mp hn
        rw [(hg x hx).1, ite_self]
      omega

/-- After the fill of the charge sessions: their grants are within what the ports leave, or are the floors alone, each of a session
with a floor. -/
theorem chargeFill {s : Snap} {ss t : List PSess} {room : Nat} (h : Start s ss)
    (ht : ∃ f : PSess → PSess, t = ss.map f ∧ ∀ x ∈ ss, (f x).core = x.core ∧ (x.isString = true → f x = x))
    (hw : Within (softCons s ss) t) :
    let v := fillAll (supplyCons true (max room (floors true ss)) :: softCons s ss) true t
    grants true v ≤ max room (floors true ss) ∧
    (room ≤ floors true ss → ∀ y ∈ v, y.isString = true → 0 < y.g → ∃ x ∈ ss, x.isString = true ∧ x.object = y.object ∧ 0 < x.f) := by
  intro v
  obtain ⟨f, heq, hf⟩ := ht
  have hfill : Fills (ss.map PSess.number) ss t :=
    ⟨f, heq, fun x hx => ⟨(hf x hx).1, fun hn => absurd (List.mem_map_of_mem hx) hn⟩⟩
  have hcv : sumCv (supplyCons true (max room (floors true ss))) t = floors true ss := by
    rw [← floors_eq_sumCv h true (max room (floors true ss)), sumCv_eq, sumCv_eq, heq, List.map_map]
    congr 1
    refine List.map_congr_left fun x hx => ?_
    obtain ⟨hc, hsame⟩ := hf x hx
    simp only [Function.comp, has_of_core _ hc, supplyCons_has]
    by_cases hstr : x.isString = true
    · rw [hsame hstr]
    · simp [hstr]
  have hstart : Within (supplyCons true (max room (floors true ss)) :: softCons s ss) t := by
    refine ⟨fun k hk => ?_, hw.floor⟩
    rcases List.mem_cons.mp hk with rfl | hk
    · exact hcv ▸ Nat.le_max_right ..
    · exact hw.fits k hk
  obtain ⟨hv, hwv⟩ : Fills (kindNumbers true t) t v ∧ Within (supplyCons true (max room (floors true ss)) :: softCons s ss) v :=
    fillAll_within (hfill.sound h.sound) hstart fun y hy hstr => by
      rw [heq] at hy
      obtain ⟨x, hx, rfl⟩ := List.mem_map.mp hy
      obtain ⟨hc, hsame⟩ := hf x hx
      rw [hsame ((core_fields hc).2.1 ▸ hstr)]
      exact (h.value x hx).1
  clear_value v
  have hcap := hwv.fits _ List.mem_cons_self
  refine ⟨(grants_le_sumCv hwv true _).trans hcap, fun hroom y hy hstr hg => ?_⟩
  obtain ⟨z, hz, hc, -⟩ := hv.mem hy
  obtain ⟨x, hx, hc', -⟩ := hfill.mem hz
  obtain ⟨-, h1, h2, -, -, -, h3⟩ := core_fields (hc.trans hc')
  refine ⟨x, hx, h1 ▸ hstr, h2.symm, ?_⟩
  by_contra hf0
  have hyf : y.f = 0 := by omega
  have hlt : (v.map fun x => if x.isString then x.f else 0).sum < (v.map fun x => if x.isString then x.cv else 0).sum := by
    refine List.sum_lt_sum _ _ (fun w hw' => ?_) ⟨y, hy, ?_⟩
    · split
      · exact (hwv.floor w hw').1
      · exact Nat.le_refl _
    · rw [if_pos hstr, if_pos hstr, hyf]
      exact lt_of_lt_of_le hg (hwv.floor y hy).2
  have hfl : (v.map fun x => if x.isString then x.f else 0).sum = floors true ss := by
    obtain ⟨g, hgeq, hgf⟩ := hv
    rw [floors, sumN_filter]
    rw [hgeq, heq, List.map_map, List.map_map]
    congr 1
    refine List.map_congr_left fun x hx => ?_
    have hc1 := (hgf (f x) (heq ▸ List.mem_map_of_mem hx)).1.trans (hf x hx).1
    obtain ⟨-, h4, -, -, -, -, h5⟩ := core_fields hc1
    simp [h4, h5]
  have hcvv : (v.map fun x => if x.isString then x.cv else 0).sum ≤ max room (floors true ss) := by
    refine le_trans (le_of_eq ?_) hcap
    rw [sumCv_eq]
    congr 1
    exact List.map_congr_left fun x _ => by rw [supplyCons_has]; simp
  rw [Nat.max_eq_right hroom] at hcvv
  omega

theorem grants_false (ss : List PSess) : grants false ss = sumN ((ss.filter fun x => !x.isString).map fun x => x.g) := by
  simp [grants]

theorem grants_true (ss : List PSess) : grants true ss = sumN ((ss.filter fun x => x.isString).map fun x => x.g) := by
  simp [grants]

/-- The full plan's numbers, in the terms of the two fills. -/
theorem fullPlan_eq (s : Snap) (c : Cfg) :
    let ss := startSessions s c
    let ds := avails s ss
    let t := fillAll (supplyCons false (gridLimit s + sumN ds - floors true ss) :: softCons s ss) false ss
    let d := ds.map fun a => shareAt a (muOf ds (satU32 ((grants false t : Int) + floors true ss - gridLimit s)))
    let v := fillAll (supplyCons true (max (gridLimit s - grants false t) (floors true ss)) :: softCons s ss) true t
    (fullPlan s c).grid = gridLimit s ∧ (fullPlan s c).ports = grants false t ∧ (fullPlan s c).charge = grants true v ∧
    (fullPlan s c).discharge =
      sumN ((List.range 32).map fun j => if v.any (fun x => x.isString && x.object == j && x.g > 0) then 0 else d.getD j 0) := by
  simp only [grants_false, grants_true]
  unfold fullPlan startSessions
  refine ⟨?_, ?_, ?_, ?_⟩ <;> with_reducible rfl

/-- Strings that are charged offer nothing, so that leaving them out of the discharge leaves its sum. -/
theorem sumN_shares {s : Snap} {ss v : List PSess} (mu : Nat)
    (hz : ∀ j, v.any (fun x => x.isString && x.object == j && x.g > 0) = true → availOf s ss j = 0) :
    sumN ((List.range 32).map fun j => if v.any (fun x => x.isString && x.object == j && x.g > 0) then 0
      else ((avails s ss).map fun a => shareAt a mu).getD j 0) = sumN ((avails s ss).map fun a => shareAt a mu) := by
  congr 1
  refine List.ext_getElem (by simp [avails]) fun j h1 h2 => ?_
  simp only [avails, List.getElem_map, List.getElem_range]
  split
  next hj => simp [hz j hj, shareAt]
  · have hj : j < 32 := by simpa using h1
    simp [hj]

/-- Settles O6: floors that fit stay within the supply through both fills, and strings that are charged beyond their floors are not
counted on for discharge. -/
theorem importNeverExceedsGridLimit : Obligations.ImportNeverExceedsGridLimit := by
  intro s c why hnd hdis
  unfold planOf
  split
  · exact Nat.le_refl 0
  · have hs : Start s (startSessions s c) := start_of_numbers hnd
    obtain ⟨hgrid, hports, hcharge, hdischarge⟩ := fullPlan_eq s c
    rw [hgrid, hports, hcharge, hdischarge]
    clear hgrid hports hcharge hdischarge
    generalize startSessions s c = ss at hs ⊢
    obtain ⟨ht, hw, hp⟩ := portFill hs
    generalize fillAll (supplyCons false (gridLimit s + sumN (avails s ss) - floors true ss) :: softCons s ss) false ss = t at ht hw hp ⊢
    obtain ⟨hc, hfloor⟩ := chargeFill (room := gridLimit s - grants false t) hs ht hw
    generalize fillAll (supplyCons true (max (gridLimit s - grants false t) (floors true ss)) :: softCons s ss) true t = v at hc hfloor ⊢
    have hds : ∀ d ∈ avails s ss, d ≤ 2 ^ 26 := fun d hd => by
      obtain ⟨j, -, rfl⟩ := List.mem_map.mp hd
      exact (availOf_le s ss j).trans (hdis j)
    have htotal : sumN (avails s ss) ≤ 32 * 2 ^ 26 := by
      rw [sumN_eq_sum]
      refine (List.sum_le_card_nsmul _ _ hds).trans ?_
      simp [avails]
    have hx : satU32 ((grants false t : Int) + floors true ss - gridLimit s) = grants false t + floors true ss - gridLimit s := by
      simp only [satU32, clampI]
      omega
    rw [hx]
    by_cases hneed : grants false t + floors true ss ≤ gridLimit s
    · omega
    · have hzero (j : Nat) (hj : v.any (fun x => x.isString && x.object == j && x.g > 0) = true) : availOf s ss j = 0 := by
        obtain ⟨y, hy, htest⟩ := List.any_eq_true.mp hj
        simp only [Bool.and_eq_true, beq_iff_eq, decide_eq_true_eq] at htest
        obtain ⟨⟨hstr, rfl⟩, hg⟩ := htest
        obtain ⟨x, hx, hxs, hxo, hxf⟩ := hfloor (by omega) y hy hstr hg
        exact hxo ▸ availOf_eq_zero hx hxs hxf
      have hsame := sumN_shares (v := v) (muOf (avails s ss) (grants false t + floors true ss - gridLimit s)) hzero
      have hcover := muOf_covers hds (x := grants false t + floors true ss - gridLimit s) (by omega)
      rw [hsame]
      omega

end Sys2Proof.Machine
end
section
/-! PROOFS. Session and ledger commands, rests and credit messages -/

namespace Sys2Proof.Machine

open Sys2Proof

/-! ### Ledger commands in and outside the write window -/

/-- A command that passes the general checks has the opcode it runs under, on its own function. -/
theorem opOf_of_preCheck {op : Nat} {q : Sqe} {s : State} (h : preCheck op q s = none) : opOf q = op ∧ (opRow q.fn op).isSome := by
  unfold preCheck at h
  split at h
  · exact absurd h (by simp)
  next r hr =>
    split at h
    · exact absurd h (by simp)
    next hop => exact ⟨by simpa using hop, by simp [hr]⟩

/-- A ledger command is one of PF0. -/
theorem fn_of_ledger {op : Nat} {q : Sqe} {s : State} (h : preCheck op q s = none) (h1 : opRow .pf1 op = none) : q.fn = .pf0 := by
  obtain ⟨-, hrow⟩ := opOf_of_preCheck h
  cases hq : q.fn with
  | pf0 => rfl
  | pf1 => simp [hq, h1] at hrow

theorem settle_of_restoring_nil {t : Tmf} (a b : Nat) (h : t.restoring = []) : t.settle a b = t := by
  simp [Tmf.settle, h]

/-- The write window is open for a command, and nothing waits before it. -/
structure Open (s : State) : Prop where
  window : s.spa.window = true
  waiting : s.spa.waiting = []
  restoring : s.tmf.restoring = []

theorem Open.inWindow {s : State} (h : Open s) (q : Sqe) (b : HostRead) :
    inWindow q b (s.start.accept q) = runLedger q b (s.start.accept q) := by
  have hm : mayWrite q (s.start.accept q) = true := by simp [mayWrite, h.window, h.restoring]
  have hw : (s.start.accept q).spa.waiting.isEmpty = true := by simp [h.waiting]
  rw [Machine.inWindow, hm, hw]
  rfl

theorem Open.writeTile {s s1 : State} (h : Open s) (ht : s1.tmf = s.tmf) (t : Nat) : s1.writeTile t = s1.onSpa (fun p => { p with
    changed := if p.changed.contains t then p.changed else p.changed ++ [t], unwritten := p.unwritten.filter (fun x => x ≠ t) }) := by
  have hs : s1.onTmf (Tmf.settle t (0x20 + t)) = s1 := by
    unfold State.onTmf
    rw [settle_of_restoring_nil _ _ (ht ▸ h.restoring)]
  rw [State.writeTile, hs]

/-- The end of a ledger command keeps what it replaced until its completion is posted (R24). -/
theorem ledgerDone_eq {q : Sqe} {s s1 : State} {r : Nat} {old : List (Nat × Entry)} (h : OwnedAs q.fn q.sq (cidOf q) s) (hq : q.fn = .pf0)
    (hh : s1.hqe = (s.start.accept q).hqe) : s1.ledgerDone q r old = (s1.done q stDONE r).onSpa (fun p => { p with
      unposted := p.unposted ++ old.map fun x => ⟨q.sq, cidOf q, ReadyOf q s + 1, x.1, x.2⟩ }) := by
  obtain ⟨⟨⟨quiet, hready⟩, -⟩, -⟩ := done_kept (st := stDONE) (r := r) h hh
  have hs : s1.hqe.ready = s.hqe.ready := by rw [hh]; rfl
  have hleft : ((s1.done q stDONE r).hqe.ready.filter (fun c => c.fn = .pf0 && c.sq == q.sq && c.cid == cidOf q)).length =
      ReadyOf q s + 1 := by
    rw [hready, List.filter_append, List.length_append]
    simp [ReadyOf, hq]
  unfold State.ledgerDone
  simp only [hleft]
  rw [if_neg]
  rw [hready, hs]
  simp

/-- What a ledger command leaves that has changed the allocator's state only. -/
theorem ledgerDone_kept {q : Sqe} {s s1 : State} {r : Nat} {old : List (Nat × Entry)} (h : OwnedAs q.fn q.sq (cidOf q) s) (hq : q.fn = .pf0)
    (hh : s1.hqe = (s.start.accept q).hqe) :
    Completed q stDONE r s (s1.ledgerDone q r old) ∧ RingsKept s (s1.ledgerDone q r old) ∧
    (s1.ledgerDone q r old).spa = { s1.spa with
      unposted := s1.spa.unposted ++ old.map fun x => ⟨q.sq, cidOf q, ReadyOf q s + 1, x.1, x.2⟩ } ∧
    s1.ledgerDone q r old = { s1 with
      hqe := (s1.ledgerDone q r old).hqe, spa := (s1.ledgerDone q r old).spa, cur := (s1.ledgerDone q r old).cur } := by
  obtain ⟨hc, hk⟩ := done_kept (st := stDONE) (r := r) h hh
  rw [ledgerDone_eq h hq hh]
  refine ⟨hc, hk, by simp, ?_⟩
  apply State.ext <;> simp

/-! ### Session commands -/

theorem sessionParams_ok {q : Sqe} {objs : Nat} (h : SessionFields q objs) : ∀ p ∈ sessionParams q objs, p.1 = true := by
  obtain ⟨h1, h2, h3, h4, h5, h6, h7, h8, h9, h10⟩ := h
  have h2' : (bit (sd q 6) 4 && bit (sd q 6) 3) = false := by
    cases h : bit (sd q 6) 4 && bit (sd q 6) 3 with
    | false => rfl
    | true => exact absurd (by simpa using h) h2
  simp only [sessionParams, List.mem_cons, List.not_mem_nil, or_false, forall_eq_or_imp, forall_eq, h2', h3, h5]
  simp only [Bool.and_eq_true, decide_eq_true_eq, Bool.not_false, beq_self_eq_true, true_and]
  omega

/-- The search ends at the lowest free index. -/
theorem lowestFree_eq {l : List (Nat × Entry)} {n a i : Nat} (hi : look i l = none) (hle : a ≤ i) (hlt : i < a + n)
    (hmin : ∀ j, a ≤ j → j < i → look j l ≠ none) : lowestFree l n a = some i := by
  induction n generalizing a with
  | zero => omega
  | succ n ih =>
    unfold lowestFree
    by_cases h : a = i
    · simp [h, hi]
    · have ha : (look a l).isNone = false := by
        have := hmin a (Nat.le_refl a) (by omega)
        cases hl : look a l <;> simp_all
      simp only [ha, Bool.false_eq_true, if_false]
      exact ih (by omega) (by omega) fun j h1 h2 => hmin j (by omega) h2

/-- No entry of the ledger is a session on the object. -/
theorem sessionOn_eq_none {l : List (Nat × Entry)} {str : Bool} {obj : Nat}
    (h : ∀ e ∈ l, ∀ pre tier w mn mx ramp n tag, e.2 ≠ .session pre str tier obj w mn mx ramp n tag) : sessionOn l str obj = none := by
  unfold sessionOn
  rw [List.find?_eq_none.mpr, Option.map_none]
  intro e he
  split
  next pre st tier o w mn mx ramp n tag heq =>
    intro hc
    simp only [Bool.and_eq_true, beq_iff_eq] at hc
    exact h e he pre tier w mn mx ramp n tag (by rw [heq, hc.1, hc.2])
  · simp

/-- What SESSION_START makes of the state before it completes. -/
def State.started (q : Sqe) (i : Nat) (s : State) : State :=
  let n := (s.sup.sessionCtr + 1) % 2 ^ 32
  ((s.onSup (fun p => { p with sessionCtr := n })).writeEntry i (.session (bit (sd q 6) 4) (bit (sd q 6) 3) (bits (sd q 6) 2 0) (sd q 1)
    (bits (sd q 6) 15 8) (sd q 7) (sd q 8) (sd q 9) n (sd q 10))).onSpa (fun p => { p with sess := putSorted i (newSess (bit (sd q 6) 4)) p.sess })

theorem sessionStart_eq {q : Sqe} {s : State} {i : Nat}
    (hex : (if bit (sd q 6) 3 then (s.conf.str (sd q 1)).enable else (s.conf.port (sd q 1)).enable) = true)
    (hnone : sessionOn s.spa.ledger (bit (sd q 6) 3) (sd q 1) = none) (hlow : lowestFree s.spa.ledger 4096 0 = some i) :
    sessionStart q s = (s.started q i).ledgerDone q i [(i, .free)] := by
  unfold sessionStart
  simp only [hex, hnone, hlow]
  rfl

theorem runLedger_start {q : Sqe} {s : State} {b : HostRead} (h : opOf q = 0x40) :
    runLedger q b (s.start.accept q) = sessionStart q (s.start.accept q) := by
  rw [runLedger, h]
  rfl

theorem runLedger_stop {q : Sqe} {s : State} {b : HostRead} (h : opOf q = 0x41) :
    runLedger q b (s.start.accept q) = sessionStop q (s.start.accept q) := by
  rw [runLedger, h]
  rfl

theorem runLedger_modify {q : Sqe} {s : State} {b : HostRead} (h : opOf q = 0x42) :
    runLedger q b (s.start.accept q) = sessionModify q (s.start.accept q) := by
  rw [runLedger, h]
  rfl

theorem runLedger_write {q : Sqe} {s : State} {b : HostRead} (h : opOf q = 0x43) :
    runLedger q b (s.start.accept q) = ledgerWrite q b (s.start.accept q) := by
  rw [runLedger, h]
  rfl

theorem mem_changed (l : List Nat) (t k : Nat) : (k ∈ if l.contains t then l else l ++ [t]) ↔ k ∈ l ∨ k = t := by
  by_cases h : t ∈ l
  · simp only [List.contains_iff_mem, h, if_true]
    exact ⟨.inl, fun hk => hk.elim id fun hkt => hkt ▸ h⟩
  · simp [h]

theorem sessionStart_ok : (∀ (q : Sqe) (s : State) (i : Nat), Taken 0x40 q s → SessionFields q (if bit (sd q 6) 3 then 32 else 16) →
    s.spa.window = true → s.spa.waiting = [] → s.tmf.restoring = [] →
    (if bit (sd q 6) 3 then (s.conf.str (sd q 1)).enable else (s.conf.port (sd q 1)).enable) = true →
    (∀ e ∈ s.spa.ledger, ∀ pre tier w mn mx ramp n tag,
      e.2 ≠ .session pre (bit (sd q 6) 3) tier (sd q 1) w mn mx ramp n tag) →
    i < 4096 → look i s.spa.ledger = none → (∀ j, j < i → look j s.spa.ledger ≠ none) →
    Answers (.sessionStart q) s (fun t => Completed q stDONE i s t ∧ t.out = [] ∧ RingsKept s t ∧
      t.spa = { s.spa with
        ledger := putSorted i (.session (bit (sd q 6) 4) (bit (sd q 6) 3) (bits (sd q 6) 2 0) (sd q 1) (bits (sd q 6) 15 8)
          (sd q 7) (sd q 8) (sd q 9) ((s.sup.sessionCtr + 1) % 2 ^ 32) (sd q 10)) s.spa.ledger
        changed := t.spa.changed, unwritten := s.spa.unwritten.filter (fun x => x ≠ i / 128)
        unposted := s.spa.unposted ++ [⟨q.sq, cidOf q, ReadyOf q s + 1, i, .free⟩]
        sess := putSorted i { st := if bit (sd q 6) 4 then .waitCredit else .active, gPrev := 0
                              credit := if bit (sd q 6) 4 then .unknown else .ok, opened := false, closed := false
                              lost := false, stops := [] } s.spa.sess } ∧
      (∀ k, k ∈ t.spa.changed ↔ k ∈ s.spa.changed ∨ k = i / 128) ∧
      t.sup = { s.sup with sessionCtr := (s.sup.sessionCtr + 1) % 2 ^ 32 } ∧
      t = { s with hqe := t.hqe, spa := t.spa, sup := t.sup, out := t.out, cur := t.cur })) := by
  intro q s i h hfields hwin hwait hrest hex hno hi hfree hmin
  have hopen : Open s := ⟨hwin, hwait, hrest⟩
  obtain ⟨hop, -⟩ := opOf_of_preCheck h.1
  have hfn : q.fn = .pf0 := fn_of_ledger h.1 (by decide)
  refine answers_taken rfl h (sessionParams_ok hfields) ?_
  have hwt := hopen.writeTile (s1 := (s.start.accept q).onSup fun p => { p with sessionCtr := (s.sup.sessionCtr + 1) % 2 ^ 32 }) (by simp) (i / 128)
  have hbody : Machine.inWindow q (.data []) (s.start.accept q) = ((s.start.accept q).started q i).ledgerDone q i [(i, .free)] := by
    rw [hopen.inWindow]
    have hnone : sessionOn s.spa.ledger (bit (sd q 6) 3) (sd q 1) = none := sessionOn_eq_none hno
    have hlow : lowestFree s.spa.ledger 4096 0 = some i := lowestFree_eq hfree (by omega) (by omega) fun j _ hj => hmin j hj
    rw [runLedger_start hop]
    exact sessionStart_eq (s := s.start.accept q) hex hnone hlow
  rw [hbody]
  have hstarted : (s.start.accept q).started q i = { s.start.accept q with
      sup := { s.sup with sessionCtr := (s.sup.sessionCtr + 1) % 2 ^ 32 }
      spa := { s.spa with
        ledger := putSorted i (.session (bit (sd q 6) 4) (bit (sd q 6) 3) (bits (sd q 6) 2 0) (sd q 1) (bits (sd q 6) 15 8)
          (sd q 7) (sd q 8) (sd q 9) ((s.sup.sessionCtr + 1) % 2 ^ 32) (sd q 10)) s.spa.ledger
        changed := if s.spa.changed.contains (i / 128) then s.spa.changed else s.spa.changed ++ [i / 128]
        unwritten := s.spa.unwritten.filter (fun x => x ≠ i / 128)
        sess := putSorted i (newSess (bit (sd q 6) 4)) s.spa.sess } } := by
    have hsup : (s.start.accept q).sup = s.sup := by simp
    rw [State.started, State.writeEntry, hsup, hwt]
    rfl
  rw [hstarted]
  generalize hs1 : ({ s.start.accept q with sup := _, spa := _ } : State) = s1
  obtain ⟨hc, hk, hspa, hframe⟩ := ledgerDone_kept (s1 := s1) (r := i) (old := [(i, .free)]) h.2.1 hfn (by rw [← hs1])
  refine ⟨hc, ?_, hk, ?_, fun k => ?_, ?_, ?_⟩
  · rw [hframe, ← hs1]; rfl
  · rw [hspa, ← hs1]; rfl
  · rw [hspa, ← hs1]; exact mem_changed ..
  · rw [hframe, ← hs1]
  · rw [hframe, ← hs1]; rfl

/-- A command of the write window that leaves its entry rewritten in the ledger completes with the entry it replaced kept beside. -/
theorem entry_rewritten {q : Sqe} {s : State} {i : Nat} {e old : Entry} (h : OwnedAs q.fn q.sq (cidOf q) s) (hfn : q.fn = .pf0) (hopen : Open s)
    (he : e ≠ .free) :
    let t := ((s.start.accept q).writeEntry i e).ledgerDone q 0 [(i, old)]
    Completed q stDONE 0 s t ∧ t.out = [] ∧ OnlySpa s t ∧
      t.spa = { s.spa with
        changed := t.spa.changed, unwritten := s.spa.unwritten.filter (fun x => x ≠ i / 128)
        unposted := s.spa.unposted ++ [⟨q.sq, cidOf q, ReadyOf q s + 1, i, old⟩]
        ledger := putSorted i e s.spa.ledger } := by
  have hwrite : (s.start.accept q).writeEntry i e = { s.start.accept q with spa := { s.spa with
      ledger := putSorted i e s.spa.ledger
      changed := if s.spa.changed.contains (i / 128) then s.spa.changed else s.spa.changed ++ [i / 128]
      unwritten := s.spa.unwritten.filter (fun x => x ≠ i / 128) } } := by
    rw [State.writeEntry, hopen.writeTile (s1 := s.start.accept q) rfl]
    simp only [putEntry, if_neg he]
    rfl
  obtain ⟨hc, hk, hspa, hframe⟩ := ledgerDone_kept (s1 := (s.start.accept q).writeEntry i e) (r := 0) (old := [(i, old)]) h hfn
    (by rw [hwrite])
  refine ⟨hc, ?_, ⟨hk, ?_⟩, ?_⟩
  · rw [hframe, hwrite]; rfl
  · rw [hframe, hwrite]; rfl
  · rw [hspa, hwrite]; rfl

theorem onSess_spa (i : Nat) (f : Sess → Sess) (s : State) :
    (s.onSess i f).spa = { s.spa with sess := s.spa.sess.map (fun x => if x.1 = i then (i, f x.2) else x) } := rfl

/-- A ledger command that may not run yet waits. -/
theorem inWindow_waits {q : Sqe} {b : HostRead} {s : State} (h : mayWrite q s = false) :
    inWindow q b s = s.onSpa (fun p => { p with waiting := p.waiting ++ [(q, b)] }) := by
  rw [inWindow, h, Bool.false_and, if_neg (by simp)]

theorem mayWrite_of_closed {q : Sqe} {s : State} (h : s.spa.window = false ∨ (opOf q ≠ 0x40 ∧ sd q 1 / 128 ∈ s.tmf.restoring)) :
    mayWrite q s = false := by
  rcases h with h | ⟨hop, h⟩
  · simp [mayWrite, h]
  · simp [mayWrite, tileWritten, hop, h]

/-- Settles O5: session commands in the write window change one entry through `writeEntry`; outside it they join those that wait. -/
theorem sessionCommands : Obligations.SessionCommands := by
  unfold Obligations.SessionCommands
  refine ⟨sessionStart_ok, ?modify, ?stop, ?unknown, ?waits⟩
  case modify =>
    intro q s x pre str tier obj w mn mx ramp n tag h hfields hwin hwait hrest hentry hsess hst hstr hpre
    have hopen : Open s := ⟨hwin, hwait, hrest⟩
    refine answers_taken rfl h (sessionParams_ok hfields) ?_
    have hold : entryAt s.spa.ledger (sd q 1) = .session pre str tier obj w mn mx ramp n tag := by rw [entryAt, hentry, Option.getD_some]
    have hbody : sessionModify q (s.start.accept q) = ((s.start.accept q).writeEntry (sd q 1) (.session pre str (bits (sd q 6) 2 0) obj
        (bits (sd q 6) 15 8) (sd q 7) (sd q 8) (sd q 9) n tag)).ledgerDone q 0
          [(sd q 1, .session pre str tier obj w mn mx ramp n tag)] := by
      simp [sessionModify, hold, hstr, hpre, hsess, hst]
    rw [hopen.inWindow, runLedger_modify (opOf_of_preCheck h.1).1, hbody]
    exact entry_rewritten h.2.1 (fn_of_ledger h.1 (by decide)) hopen (by simp)
  case stop =>
    intro q s x h hi hwin hwait hrest hsess
    have hopen : Open s := ⟨hwin, hwait, hrest⟩
    refine answers_taken rfl h (by simp [hi]) ?_
    have hbody : sessionStop q (s.start.accept q) =
        (s.start.accept q).onSess (sd q 1) (fun x => { x with st := .stopping, stops := x.stops ++ [(q.sq, cidOf q)] }) := by
      simp only [sessionStop, State.accept_spa, State.start_spa, hsess]
    rw [hopen.inWindow, runLedger_stop (opOf_of_preCheck h.1).1, hbody]
    obtain ⟨hr, hk⟩ := accept_running (t := (s.start.accept q).onSess (sd q 1)
      (fun x => { x with st := .stopping, stops := x.stops ++ [(q.sq, cidOf q)] })) h.2.1 rfl
    refine ⟨hr, rfl, ⟨hk, rfl⟩, ?_⟩
    rw [onSess_spa]
    simp only [State.accept_spa, State.start_spa]
    congr 2
    funext y
    by_cases hy : y.1 = sd q 1 <;> simp [hy]
  case unknown =>
    intro q s h hi hwin hwait hrest hsess
    have hopen : Open s := ⟨hwin, hwait, hrest⟩
    refine answers_taken rfl h (by simp [hi]) ?_
    have hbody : sessionStop q (s.start.accept q) = (s.start.accept q).done q stBAD_OBJECT 0 := by
      simp only [sessionStop, State.accept_spa, State.start_spa, hsess]
    rw [hopen.inWindow, runLedger_stop (opOf_of_preCheck h.1).1, hbody]
    exact done_onlyCompletes h.2.1
  case waits =>
    intro i q s hclosed hi
    have waits (hown : OwnedAs q.fn q.sq (cidOf q) s) : Running q s (inWindow q (.data []) (s.start.accept q)) ∧
        (inWindow q (.data []) (s.start.accept q)).out = [] ∧ OnlySpa s (inWindow q (.data []) (s.start.accept q)) ∧
        (inWindow q (.data []) (s.start.accept q)).spa = { s.spa with waiting := s.spa.waiting ++ [(q, .data [])] } := by
      rw [inWindow_waits (mayWrite_of_closed (s := s.start.accept q) hclosed)]
      obtain ⟨hr, hk⟩ := accept_running (t := (s.start.accept q).onSpa
        (fun p => { p with waiting := p.waiting ++ [(q, .data [])] })) hown rfl
      exact ⟨hr, rfl, ⟨hk, rfl⟩, rfl⟩
    rcases hi with ⟨rfl, h, hp⟩ | ⟨rfl, h, hp⟩ | ⟨rfl, h, hp⟩
    · exact answers_taken rfl h (sessionParams_ok hp) (waits h.2.1)
    · exact answers_taken rfl h (by simp [hp]) (waits h.2.1)
    · exact answers_taken rfl h (sessionParams_ok hp) (waits h.2.1)

end Sys2Proof.Machine
end
section
/-! PROOFS. Ledger reads and writes, the plan record, rests and credit messages -/

namespace Sys2Proof.Machine

open Sys2Proof

/-! ### Ledger reads and writes -/

theorem countE_cons (p : Entry → Bool) (x : Nat × Entry) (l : List (Nat × Entry)) : countE (x :: l) p = countE l p + b2n (p x.2) := by
  cases h : p x.2 <;> simp [countE, h, b2n]

theorem countE_putSorted_le (p : Entry → Bool) (i : Nat) (e : Entry) (l : List (Nat × Entry)) :
    countE (putSorted i e l) p ≤ countE l p + 1 := by
  have hone : b2n (p (i, e).2) ≤ 1 := b2n_le_one _
  induction l with
  | nil => rw [putSorted, countE_cons]; omega
  | cons x l ih =>
    obtain ⟨a, b⟩ := x
    unfold putSorted
    split
    · rw [countE_cons]; omega
    · split
      · rw [countE_cons, countE_cons]; omega
      · rw [countE_cons, countE_cons]; omega

/-- LEDGER_WRITE of one CONSTRAINT entry whose members exist replaces the entry of its index. -/
theorem writeResult_cons {c : Cfg} {b : List Byte} {i : Nat} {l : List (Nat × Entry)} {en : Bool} {ports strings lim tag : Nat}
    (hb : b.length = 32) (hd : decodeEntry b = some (.cons en ports strings lim tag))
    (hold : look i l = none ∨ ∃ e p st li g, look i l = some (.cons e p st li g))
    (hm : consMembers c (.cons en ports strings lim tag) = true)
    (hcount : countE l (fun e => match e with | .cons e _ _ _ _ => e | _ => false) < 64) :
    writeResult c b i 1 l = .inl (putSorted i (.cons en ports strings lim tag) l) := by
  have hle : enabledCons (putSorted i (.cons en ports strings lim tag) l) ≤ 64 := by
    have := countE_putSorted_le (fun e => match e with | .cons en _ _ _ _ => en | _ => false) i (.cons en ports strings lim tag) l
    exact this.trans hcount
  have hmay : mayChange (entryAt l i) (.cons en ports strings lim tag) = true := by
    rcases hold with h | ⟨e, p, st, li, g, h⟩ <;> simp [entryAt, h, mayChange]
  have happly : applyWrite c b i 4096 1 0 l = .inl (putSorted i (.cons en ports strings lim tag) l) := by
    have htake : (b.drop (32 * 0)).take 32 = b := by simp [List.take_of_length_le, hb]
    simp only [applyWrite, htake, hd, Nat.add_zero, hmay, hm, putEntry, reduceCtorEq, if_false, entryFields, portLimits, edgeEnds]
    rw [if_pos]
    simp only [Bool.and_true, Bool.true_and, decide_eq_true_eq]
    omega
  rw [writeResult, happly]
  simp only [if_pos hle]

theorem acceptIn_failed (q : Sqe) (l : List Fwd) (h : ∀ f ∈ l, f.is q.fn q.sq (cidOf q) = true → f.failed = false) :
    ∀ f ∈ acceptIn q l, f.is q.fn q.sq (cidOf q) = true → f.failed = false := by
  induction l with
  | nil =>
    intro f hf _
    rw [acceptIn, List.mem_singleton] at hf
    rw [hf]
  | cons f r ih =>
    have hr := ih fun g hg => h g (List.mem_cons_of_mem _ hg)
    unfold acceptIn
    split
    · next hc =>
      have hi : f.is q.fn q.sq (cidOf q) = true := (Bool.and_eq_true_iff.mp hc).1
      exact List.forall_mem_cons.mpr ⟨fun _ => h f List.mem_cons_self hi, fun g hg => h g (List.mem_cons_of_mem _ hg)⟩
    · exact List.forall_mem_cons.mpr ⟨h f List.mem_cons_self, hr⟩

/-- While no read of its host buffer has failed, a command has its bytes (R102). -/
theorem bufferOf_of_readsOk {q : Sqe} {s : State} (h : ReadsOk q s) (b : HostRead) : (s.start.accept q).bufferOf q b = b := by
  have hf := acceptIn_failed q s.start.hqe.fwd h
  rw [State.bufferOf, State.accept_hqe_fwd, if_neg]
  rw [List.any_eq_true]
  rintro ⟨f, hmem, hc⟩
  obtain ⟨hi, hx⟩ := Bool.and_eq_true_iff.mp hc
  rw [hf f hmem hi] at hx
  exact Bool.false_ne_true hx

theorem bufferOf_error (q : Sqe) (s : State) : s.bufferOf q .error = .error := by
  rw [State.bufferOf, ite_self]

theorem ledgerWrite_error (q : Sqe) (s : State) : ledgerWrite q .error s = s.done q stDMA_ERROR 0 := by
  rw [ledgerWrite, bufferOf_error]

/-- The content of a plan record behind its head. -/
def planTail (p : Plan) : List Byte :=
  le 4 (p.ports + p.charge - p.discharge) ++ le 1 p.mode ++ zeros 11 ++
    (List.range 64).flatMap (fun g => let r := p.refs.getD g (0, 0); leS 4 r.1 ++ le 4 r.2) ++
    (List.range 48).flatMap (fun i => planSessBytes p.sess[i]?) ++
    (List.range 32).flatMap (fun j => let d := p.strings.getD j (0, 0); le 4 d.1 ++ le 4 d.2)

theorem planBytes_eq (p : Plan) : planBytes p =
    le 8 p.epoch ++ (le 8 p.time ++ (le 4 p.grid ++ (le 4 p.ports ++ (le 4 p.charge ++ (le 4 p.discharge ++ planTail p))))) := by
  simp only [planBytes, planTail, List.append_assoc]

theorem planSessBytes_length (x : Option PlanSess) : (planSessBytes x).length = 16 := by
  cases x <;> simp [planSessBytes, zeros]

theorem flatMap_length_const {α β : Type} (l : List α) (f : α → List β) (n : Nat) (h : ∀ x ∈ l, (f x).length = n) :
    (l.flatMap f).length = n * l.length := by
  rw [List.length_flatMap, List.map_congr_left h, List.map_const', List.sum_replicate, smul_eq_mul, Nat.mul_comm]

theorem planBytes_length (p : Plan) : (planBytes p).length = 1584 := by
  have h1 := flatMap_length_const (List.range 64) (fun g => leS 4 (p.refs.getD g (0, 0)).1 ++ le 4 (p.refs.getD g (0, 0)).2) 8
    fun g _ => by simp [leS]
  have h2 := flatMap_length_const (List.range 48) (fun i => planSessBytes p.sess[i]?) 16 fun i _ => planSessBytes_length _
  have h3 := flatMap_length_const (List.range 32) (fun j => le 4 (p.strings.getD j (0, 0)).1 ++ le 4 (p.strings.getD j (0, 0)).2) 8
    fun j _ => by simp
  simp only [List.length_range] at h1 h2 h3
  rw [planBytes_eq, planTail]
  simp only [List.length_append, le_length, h1, h2, h3]
  simp [zeros]

theorem setRest_restExpiry {j m ends : Nat} {s : State} (h : s.spa.rests.getD j (0, none) = (m, some ends)) (hle : ends ≤ s.sup.uptime) :
    restExpiry j s.start = (s.start.setRest j false).onSpa (fun p => { p with rests := p.rests.set j (0, none) }) := by
  simp only [restExpiry, State.start_spa, h]
  exact if_pos hle

/-- Ledger reads and writes, the plan record and rests. -/
theorem ledgerCommands : Claim.LedgerCommands := by
  unfold Claim.LedgerCommands
  refine ⟨?write, ?error, ?read, ?plan, ?rest, ?expiry, ?early⟩
  case write =>
    intro q b s en ports strings lim tag h hi hlen hb hd hwin hwait hrest hok hold hm hcount
    have hopen : Open s := ⟨hwin, hwait, hrest⟩
    refine answers_taken rfl h (by simp [hlen]; omega) ?_
    have hres : writeResult (s.start.accept q).conf b (sd q 1) 1 s.spa.ledger =
        .inl (putSorted (sd q 1) (.cons en ports strings lim tag) s.spa.ledger) := writeResult_cons hb hd hold hm hcount
    have hpad : padTo 32 b = b := by simp [padTo, hb, List.take_of_length_le, zeros]
    have hbody : ledgerWrite q (.data b) (s.start.accept q) = (({ s.start.accept q with spa := { s.spa with
        ledger := putSorted (sd q 1) (.cons en ports strings lim tag) s.spa.ledger
        changed := if s.spa.changed.contains (sd q 1 / 128) then s.spa.changed else s.spa.changed ++ [sd q 1 / 128]
        unwritten := s.spa.unwritten.filter (fun x => x ≠ sd q 1 / 128)
        ledgerFaults := s.spa.ledgerFaults.filter (fun x => x ≠ sd q 1 / 128) } } : State).ledgerDone q 0
          [(sd q 1, entryAt s.spa.ledger (sd q 1))]) := by
      simp only [ledgerWrite, bufferOf_of_readsOk hok, hlen, hpad, State.accept_spa, State.start_spa, Nat.div_self (show 0 < 32 by decide), hres,
        hopen.writeTile (s1 := s.start.accept q) rfl]
      rfl
    rw [hopen.inWindow, runLedger_write (opOf_of_preCheck h.1).1, hbody]
    generalize hs1 : ({ s.start.accept q with spa := _ } : State) = s1
    obtain ⟨hc, hk, hspa, hframe⟩ := ledgerDone_kept (s1 := s1) (r := 0) (old := [(sd q 1, entryAt s.spa.ledger (sd q 1))]) h.2.1
      (fn_of_ledger h.1 (by decide)) (by rw [← hs1])
    refine ⟨hc, ?_, ⟨hk, ?_⟩, ?_⟩
    · rw [hframe, ← hs1]; rfl
    · rw [hframe, ← hs1]; rfl
    · rw [hspa, ← hs1]; rfl
  case error =>
    intro q s h hi hlen hwin hwait hrest
    have hopen : Open s := ⟨hwin, hwait, hrest⟩
    refine answers_taken rfl h (by simp [hlen]; omega) ?_
    rw [hopen.inWindow, runLedger_write (opOf_of_preCheck h.1).1, ledgerWrite_error]
    exact done_onlyCompletes h.2.1
  case read =>
    intro q s n h hlen hn hle
    have hdiv : sd q 4 / 32 = n := by omega
    refine answers_taken rfl h (by simp [hlen]; omega) ?_
    have hb : ledgerBytes s.spa.snapLedger (sd q 1) (sd q 4 / 32) =
      (List.range n).flatMap (fun k => ((look (sd q 1 + k) s.spa.snapLedger).getD .free).bytes) := by rw [hdiv]; rfl
    rw [← hb]
    exact replyDone_readOnly h.2.1
  case plan =>
    intro q s h hlen
    refine answers_taken rfl h (by simp [hlen]) ⟨planBytes s.spa.plan, replyDone_readOnly h.2.1, planBytes_length _, ?_⟩
    rw [planBytes_eq]
    refine ⟨?_, ?_, ?_, ?_, ?_, ?_⟩
    · exact u_append_le (p := []) _ 8 _ rfl
    · exact u_append_le (p := le 8 s.spa.plan.epoch) _ 8 _ (by simp)
    · rw [← List.append_assoc]
      exact u_append_le _ 4 _ (by simp)
    · rw [← List.append_assoc, ← List.append_assoc]
      exact u_append_le _ 4 _ (by simp)
    · rw [← List.append_assoc, ← List.append_assoc, ← List.append_assoc]
      exact u_append_le _ 4 _ (by simp)
    · rw [← List.append_assoc, ← List.append_assoc, ← List.append_assoc, ← List.append_assoc]
      exact u_append_le _ 4 _ (by simp)
  case rest =>
    intro q s h hj hen hm
    refine answers_taken rfl h (by simp [hj]; omega) ?_
    have hbody : restRequest q (s.start.accept q) = ((((s.start.accept q).setRest (sd q 1) (decide (bits (sd q 6) 15 0 ≠ 0))).onSpa
        (fun p => { p with rests := p.rests.set (sd q 1) (bits (sd q 6) 15 0, none) })).done q stDONE 0) := by
      have hen' : ((s.start.accept q).conf.str (sd q 1)).enable = true := hen
      have hne : (bits (sd q 6) 15 0 != 0) = decide (bits (sd q 6) 15 0 ≠ 0) := by
        rw [decide_not]
        rfl
      simp only [restRequest, hen', hne]
      rfl
    rw [hbody]
    obtain ⟨hc, hk⟩ := done_kept (s1 := ((s.start.accept q).setRest (sd q 1) (decide (bits (sd q 6) 15 0 ≠ 0))).onSpa
        (fun p => { p with rests := p.rests.set (sd q 1) (bits (sd q 6) 15 0, none) })) (st := stDONE) (r := 0) h.2.1 rfl
    refine ⟨hc, by simp [State.setRest], ⟨hk, ?_⟩, by simp [State.setRest]⟩
    apply State.ext <;> simp [State.setRest]
  case expiry =>
    intro j m ends s h hle
    exact ⟨_, rfl, by rw [setRest_restExpiry h hle]; rfl⟩
  case early =>
    intro j s h
    refine ⟨_, rfl, ?_⟩
    show restExpiry j s.start = s.start
    unfold restExpiry
    split
    next m ends heq => rw [if_neg (by have := h m ends heq; simp; omega)]
    next => rfl

/-! ### Credit messages -/

theorem look_map_other {β : Type} {i j : Nat} (h : j ≠ i) (f : β → β) (l : List (Nat × β)) :
    look j (l.map fun x => if x.1 = i then (i, f x.2) else x) = look j l := by
  induction l with
  | nil => rfl
  | cons x l ih =>
    obtain ⟨a, b⟩ := x
    by_cases ha : a = i
    · simp [look, ha, ih, h.symm]
    · simp [look, ha, ih]

theorem look_map_self {β : Type} {i : Nat} (f : β → β) (l : List (Nat × β)) :
    look i (l.map fun x => if x.1 = i then (i, f x.2) else x) = (look i l).map f := by
  induction l with
  | nil => rfl
  | cons x l ih =>
    obtain ⟨a, b⟩ := x
    by_cases ha : a = i
    · simp [ha, look]
    · simp [ha, look, ih]

theorem mem_of_look {α β : Type} [DecidableEq α] {k : α} {v : β} {l : List (α × β)} (h : look k l = some v) : (k, v) ∈ l := by
  induction l with
  | nil => exact absurd h (by simp [look])
  | cons x l ih =>
    obtain ⟨a, b⟩ := x
    by_cases ha : a = k
    · simp only [look, ha, if_true, Option.some.injEq] at h
      exact List.mem_cons.mpr (.inl (by rw [ha, h]))
    · rw [look, if_neg ha] at h
      exact List.mem_cons_of_mem _ (ih h)

/-- The index of a session whose number no other session has. -/
theorem sessionNo_eq {l : List (Nat × Entry)} {n i : Nat} {p str : Bool} {tier obj w mn mx ramp tag : Nat}
    (h : look i l = some (.session p str tier obj w mn mx ramp n tag))
    (hu : ∀ j e, (j, e) ∈ l → e.number = n → e.isSession = true → j = i) : sessionNo l n = some i := by
  unfold sessionNo
  cases hf : l.find? _ with
  | none => exact absurd (List.find?_eq_none.mp hf _ (mem_of_look h)) (by simp)
  | some x =>
    obtain ⟨j, e⟩ := x
    have hc := List.find?_some hf
    rw [Option.map_some, Option.some.injEq]
    cases e with
    | session => exact hu j _ (List.mem_of_find?_eq_some hf) (by simpa [Entry.number] using hc) rfl
    | _ => exact absurd hc (by simp)

/-- A session that a CREDIT message of a state has reached (R162). -/
def Sess.credited (st : Nat) (x : Sess) : Sess :=
  if st = 2 then { x with credit := .exhausted, st := if x.st = .active ∨ x.st = .waitCredit then .withdrawn else x.st }
  else
    let c : Credit := if st = 1 then .low else .ok
    match x.st with
    | .waitCredit => { x with credit := c, st := .active }
    | .withdrawn => { x with credit := c, st := .active, gPrev := 0 }
    | _ => { x with credit := c }

theorem creditTo_eq {s : State} {n st i : Nat} (h : sessionNo s.spa.ledger n = some i) :
    creditTo n st s = s.onSess i (Sess.credited st) := by
  simp only [creditTo, h]
  rfl

/-- A CREDIT message changes one session. -/
theorem creditMessages : Claim.CreditMessages := by
  unfold Claim.CreditMessages
  intro s n st h i rest x hin hst ⟨p, tier, obj, w, mn, mx, ramp, tag, hentry⟩ hu hsess
  have hno : sessionNo s.spa.ledger n = some i := sessionNo_eq hentry hu
  refine ⟨_, rfl, ?_⟩
  have hmsg : creditMessage s.start = creditTo n st (s.start.onLnk (fun l => { l with inSt := rest })) := by
    simp only [creditMessage, State.start_lnk, hin, takeFirst, CrossMsg.creditOf, Option.isSome_some, if_true]
  rw [hmsg]
  rw [creditTo_eq (s := s.start.onLnk (fun l => { l with inSt := rest })) hno]
  refine ⟨rfl, fun j hj => look_map_other hj (Sess.credited st) s.spa.sess, (look_map_self (Sess.credited st) s.spa.sess).trans ?_, rfl⟩
  rw [hsess, Option.map_some, Sess.credited]
  by_cases h2 : st = 2
  · simp [h2]
  · have h01 : st < 2 := by omega
    cases hx : x.st <;> simp [h2, h01]

/-- Settles O39, from its two parts. -/
theorem ledgerAndCredit : Obligations.LedgerAndCredit := by
  unfold Obligations.LedgerAndCredit
  exact ⟨ledgerCommands, creditMessages⟩

end Sys2Proof.Machine
end
section
/-! PROOFS. The epoch's cycle: boundary, snapshot, plan and setpoint gate -/

namespace Sys2Proof.Machine

open Sys2Proof

/-! ### What the operations of a boundary and a gate leave alone in the allocator -/

/-- An operation repeated over a list keeps what each of its runs keeps. -/
theorem foldl_kept {α β γ : Type} {φ : β → γ} {f : β → α → β} (h : ∀ s x, φ (f s x) = φ s) (l : List α) (s : β) : φ (l.foldl f s) = φ s := by
  induction l generalizing s with
  | nil => rfl
  | cons x l ih => exact (ih _).trans (h s x)

/-- The allocator's plan and clock: its state without what capacities, pilots, ledger checks and messages change of it. -/
def State.spaCore (s : State) : Spa × Bool :=
  ({ s.spa with inp := SpaIn.reset, sess := [], outbox := [], fallbacks := 0, ledgerFaults := [], vsum := [], vbase := [] }, s.lnk.up)

/-- The part of the allocator that a gate's sessions and its check of the rotation pair leave alone. -/
def State.gateCore (s : State) : Spa :=
  { s.spa with ledger := [], sess := [], unwritten := [], changed := [], outbox := [], fallbacks := 0, ledgerFaults := [] }

theorem spaCore_of_part {s t : State} (h : part .spa t = part .spa s) (hl : part .lnk t = part .lnk s) : t.spaCore = s.spaCore := by
  change t.spa = s.spa at h
  change t.lnk = s.lnk at hl
  rw [State.spaCore, State.spaCore, h, hl]

theorem gateCore_of_part {s t : State} (h : part .spa t = part .spa s) : t.gateCore = s.gateCore := by
  change t.spa = s.spa at h
  rw [State.gateCore, State.gateCore, h]

theorem startQuants_spaCore (s : State) : s.startQuants.spaCore = s.spaCore :=
  spaCore_of_part (startQuants_part (by simp) s) (startQuants_part (by simp) s)

theorem onSess_spaCore (i : Nat) (f : Sess → Sess) (s : State) : (s.onSess i f).spaCore = s.spaCore := rfl

theorem portStop_spaCore (p : Nat) (s : State) : (s.portStop p).spaCore = s.spaCore := by
  unfold State.portStop
  split <;> rfl

theorem evalPort_spaCore (n : Nat) (s : State) : (s.evalPort n).spaCore = s.spaCore := by
  have hev (u : State) (a b c : Nat) : (u.vpcEvent a b c).spaCore = u.spaCore :=
    spaCore_of_part (vpcEvent_part (by simp) ..) (vpcEvent_part (by simp) ..)
  have hready (u : State) (b : Bool) :
      (u.onSpa (fun y => { y with inp := { y.inp with ready := y.inp.ready.set n b } })).spaCore = u.spaCore := rfl
  have hfault (u : State) (a b c d e : Nat) : (u.faultRec a b c d e).spaCore = u.spaCore := rfl
  unfold State.evalPort
  dsimp only
  split
  · rfl
  · split <;> split <;> simp only [portStop_spaCore, hready, hfault, hev] <;> rfl

theorem evalPorts_spaCore (s : State) : s.evalPorts.spaCore = s.spaCore := foldl_kept (fun s n => evalPort_spaCore n s) _ s

theorem deliverCap_spaCore (m : GroupMap) (g : Nat) (s : State) : (s.deliverCap m g).spaCore = s.spaCore := by
  unfold State.deliverCap
  dsimp only
  split <;> rfl

theorem refreshGroups_spaCore (s : State) : s.refreshGroups.spaCore = s.spaCore := by
  refine foldl_kept (fun s g => ?_) _ s
  split
  · rfl
  · exact deliverCap_spaCore ..

/-- The end of the admission epoch before, where no commit was made: only the admission mark of SPA goes. -/
theorem endAdmission_spaCore (s : State) : s.endAdmission.spaCore = ({ s.spaCore.1 with admission := false }, s.lnk.up) := by
  have h (u : State) : (u.onSpa fun p => { p with admission := false }).spaCore = ({ u.spaCore.1 with admission := false }, u.spaCore.2) := rfl
  unfold State.endAdmission
  rw [h, evalPorts_spaCore, refreshGroups_spaCore]
  rfl

theorem groupVolts_spaCore (s : State) : s.groupVolts.spaCore = s.spaCore := rfl

theorem deliverCaps_spaCore (s : State) : s.deliverCaps.spaCore = s.spaCore := rfl

theorem deliverLimits_spaCore (s : State) : s.deliverLimits.spaCore = s.spaCore := rfl

theorem retire_spaCore (c i src : Nat) (o : Bool) (s : State) : (s.retire c i src o).spaCore = s.spaCore :=
  spaCore_of_part (retire_part (by simp) ..) (retire_part (by simp) ..)

theorem ledgerLost_spaCore (t : Nat) (s : State) : (s.ledgerLost t).spaCore = s.spaCore := by
  have h (u : State) (f : List Nat → List Nat) :
      (u.onSpa fun p => { p with ledgerFaults := f p.ledgerFaults }).spaCore = u.spaCore := rfl
  unfold State.ledgerLost
  rw [h _ fun l => if l.contains t then l else l ++ [t]]
  exact foldl_kept (fun s i => retire_spaCore ..) _ s

theorem verifyLedger_spaCore (bad : List Nat) (t : Nat) (s : State) : (verifyLedger bad t s).spaCore = s.spaCore := by
  have h (u : State) : (u.onSpa fun p => { p with fallbacks := p.fallbacks + 1 }).spaCore = u.spaCore := rfl
  unfold verifyLedger
  split
  · rfl
  · split
    · exact ledgerLost_spaCore ..
    · split
      · rw [h]
        exact spaCore_of_part (retireCopy_part (by simp) ..) (retireCopy_part (by simp) ..)
      · rfl

theorem sendCross_spaCore (m : CrossMsg) (s : State) : (s.sendCross m).spaCore = s.spaCore := by
  unfold State.sendCross State.holdCross
  dsimp only
  split
  · rfl
  · split <;> rfl

theorem sendOpens_spaCore (s : State) : (sendOpens s).spaCore = s.spaCore := by
  refine foldl_kept (fun s p => ?_) _ s
  split
  · split
    · rfl
    · rw [sendCross_spaCore, onSess_spaCore]
  · rfl

theorem ledgerNow_congr {s t : State} (h : t.spaCore = s.spaCore) : t.ledgerNow = s.ledgerNow := by
  have h1 : t.spa.ledger = s.spa.ledger := congrArg (fun x => x.1.ledger) h
  have h2 : t.spa.unposted = s.spa.unposted := congrArg (fun x => x.1.unposted) h
  rw [State.ledgerNow, State.ledgerNow, h1, h2]

/-! ### The boundary -/

/-- The allocator's plan and clock as a boundary sets them before its snapshot. -/
def Spa.atBoundary (p : Spa) : Spa :=
  { p with epoch := if p.started then p.epoch + 1 else 0, started := true, window := false, ready := none, resyncDue := false, changed := [] }

/-- A boundary's work in SPA up to the snapshot. -/
def boundaryWork (bad : List Nat) (s : State) : State :=
  let s := s.onSpa (fun p => { p with
    epoch := if p.started then p.epoch + 1 else 0, started := true, fallbacks := 0, window := false, ready := none })
  let s := if s.spa.resyncDue then (s.sendCross (.resync 0)).onSpa (fun p => { p with resyncDue := false }) else s
  let plans := s.sup.st = .service || s.sup.st = .bisque
  let rot := s.spa.epoch % 32
  let tiles := if plans then s.spa.changed.filter (fun t => t ≠ rot) ++ [rot] else []
  let s := tiles.foldl (fun s t => verifyLedger bad t s) s
  let s := s.onSpa (fun p => { p with changed := [] })
  if plans && !s.spa.admission then sendOpens s else s

theorem spaBoundary_eq (bad : List Nat) (s : State) : spaBoundary bad s =
    (boundaryWork bad s).onSpa (fun p => { p with snap := some (takeSnap (boundaryWork bad s)), snapLedger := (boundaryWork bad s).ledgerNow }) := rfl

theorem boundaryWork_spaCore (bad : List Nat) (s : State) : (boundaryWork bad s).spaCore = (s.spaCore.1.atBoundary, s.lnk.up) := by
  have hopens (b : Bool) (u : State) : (if b then sendOpens u else u).spaCore = u.spaCore := by
    split
    · exact sendOpens_spaCore u
    · rfl
  have hchanged (u : State) : (u.onSpa fun p => { p with changed := [] }).spaCore = ({ u.spaCore.1 with changed := [] }, u.spaCore.2) := rfl
  have hdue (u : State) : (if u.spa.resyncDue then (u.sendCross (.resync 0)).onSpa (fun p => { p with resyncDue := false }) else u).spaCore =
      ({ u.spaCore.1 with resyncDue := false }, u.spaCore.2) := by
    have hr (v : State) : (v.onSpa fun p => { p with resyncDue := false }).spaCore = ({ v.spaCore.1 with resyncDue := false }, v.spaCore.2) := rfl
    split
    · rw [hr, sendCross_spaCore]
    next h =>
      have hf : u.spa.resyncDue = false := by simpa using h
      unfold State.spaCore
      simp only [← hf]
  unfold boundaryWork
  dsimp only
  rw [hopens, hchanged, foldl_kept (fun s t => verifyLedger_spaCore bad t s), hdue]
  rfl

theorem sup_of_part {α : Type} {s t : State} (h : part .sup t = part .sup s) (f : Sup → α) (hf : ∀ p : Sup, f p.rest = f p) : f t.sup = f s.sup :=
  (hf t.sup).symm.trans ((congrArg f h).trans (hf s.sup))

/-- The state a boundary without a commit hands to SPA. -/
theorem epochBoundary_eq {bad : List Nat} {s : State} (hsite : s.siteUp = true) (himage : s.sup.image = none) (hstaged : s.kce.staged = none) :
    ∃ u : State, epochBoundary bad s = spaBoundary bad u ∧ u.spaCore = ({ s.spaCore.1 with admission := false }, s.lnk.up) ∧
      part .banks u = part .banks s ∧ part .cfg u = part .cfg s := by
  have hsup : part .sup s.startQuants.endAdmission = part .sup s :=
    (endAdmission_part (by simp) _).trans (startQuants_part (by simp) s)
  have hkce : part .kce s.startQuants.endAdmission = part .kce s :=
    (endAdmission_part (by simp) _).trans (startQuants_part (by simp) s)
  change s.startQuants.endAdmission.kce = s.kce at hkce
  have hi : s.startQuants.endAdmission.sup.image = none := (sup_of_part hsup (·.image) fun _ => rfl).trans himage
  have hk : s.startQuants.endAdmission.kce.staged = none := by rw [hkce]; exact hstaged
  have hadmit : s.startQuants.endAdmission.admitCommit.admitStaged = s.startQuants.endAdmission := by
    have h1 : s.startQuants.endAdmission.admitCommit = s.startQuants.endAdmission := by
      simp only [State.admitCommit, hi]
    rw [h1]
    simp only [State.admitStaged, hk]
  refine ⟨((s.startQuants.endAdmission.groupVolts).deliverCaps).deliverLimits, ?_, ?_, ?_, ?_⟩
  · simp only [epochBoundary, hsite, hadmit]
    rfl
  · rw [deliverLimits_spaCore, deliverCaps_spaCore, groupVolts_spaCore, endAdmission_spaCore, startQuants_spaCore]
    rfl
  · simp
  · simp

theorem lane_of_banks {s t : State} (h : part .banks t = part .banks s) (g : Nat) :
    (t.lane g).bankRef = (s.lane g).bankRef ∧ (t.lane g).bankLim = (s.lane g).bankLim := by
  have hg : t.kce.banks g = s.kce.banks g := congrFun h g
  exact ⟨congrArg Prod.fst hg, congrArg Prod.snd hg⟩

/-- A boundary without a commit: what it leaves in the allocator, and what else it leaves alone. -/
theorem boundary_quiet {bad : List Nat} {s : State} (hsite : s.siteUp = true) (himage : s.sup.image = none) (hstaged : s.kce.staged = none) :
    ∃ v : State, v.spaCore = ({ s.spaCore.1 with admission := false }.atBoundary, s.lnk.up) ∧
      epochBoundary bad s = v.onSpa (fun p => { p with snap := some (takeSnap v), snapLedger := v.ledgerNow }) ∧
      part .banks v = part .banks s ∧ part .cfg v = part .cfg s := by
  obtain ⟨u, he, hu, hbanks, hcfg⟩ := epochBoundary_eq (bad := bad) hsite himage hstaged
  have hlnk : u.lnk.up = s.lnk.up := congrArg Prod.snd hu
  refine ⟨boundaryWork bad u, ?_, he.trans (spaBoundary_eq bad u), ?_, ?_⟩
  · rw [boundaryWork_spaCore, hu, hlnk]
  · have h := spaBoundary_part (π := .banks) (by simp) bad u
    exact h.trans hbanks
  · have h := spaBoundary_part (π := .cfg) (by simp) bad u
    exact h.trans hcfg

theorem took_ite_eq (c : Prop) [Decidable c] (s : State) : (if c then s.took else s) = { s with free := (if c then s.took else s).free } := by
  split <;> rfl

/-! ### The setpoint gate -/

theorem writeTile_gateCore (t : Nat) (s : State) : (s.writeTile t).gateCore = s.gateCore := rfl

theorem sendCross_gateCore (m : CrossMsg) (s : State) : (s.sendCross m).gateCore = s.gateCore := by
  unfold State.sendCross State.holdCross
  dsimp only
  split
  · rfl
  · split <;> rfl

theorem complete_gateCore (c : Nat × Nat) (st : Nat) (s : State) : (s.complete .pf0 c.1 c.2 st 0).gateCore = s.gateCore :=
  gateCore_of_part (complete_part (by simp) ..)

theorem gateSession_gateCore (x : PlanSess) (s : State) : (gateSession x s).gateCore = s.gateCore := by
  have hsess (u : State) (i : Nat) (f : Sess → Sess) : (u.onSess i f).gateCore = u.gateCore := rfl
  have hdel (u : State) (i : Nat) : (u.onSpa fun p => { p with sess := del i p.sess }).gateCore = u.gateCore := rfl
  have hwrite (u : State) (i : Nat) (e : Entry) : (u.writeEntry i e).gateCore = u.gateCore := rfl
  unfold gateSession
  split
  · rfl
  · dsimp only
    have hclose (b : Bool) (u : State) (r : Nat) : (if b then
        (u.sendCross (.close x.number r)).onSess x.idx (fun y => { y with closed := true }) else u).gateCore = u.gateCore := by
      split
      · rw [hsess, sendCross_gateCore]
      · rfl
    split
    · split
      · rw [foldl_kept (fun s c => complete_gateCore c _ s), hdel, hwrite, hclose, hsess]
      · rw [hclose, hsess]
    · exact hsess ..

theorem retire_uptime (c i src : Nat) (o : Bool) (s : State) : (s.retire c i src o).sup.uptime = s.sup.uptime := by
  have hmap (u : State) : u.saveMap.sup.uptime = u.sup.uptime := by
    change (if u.sup.holdupReady then _ else _ : Sup).uptime = _
    split <;> rfl
  have hrec (u : State) (a b x y z : Nat) : (u.faultRec a b x y z).sup.uptime = u.sup.uptime :=
    sup_of_part (faultRec_part (by simp) ..) (·.uptime) fun _ => rfl
  unfold State.retire
  dsimp only
  split <;> split <;> simp only [State.postEvent_sup, hrec, hmap] <;> rfl

/-- What the check of the rotation pair leaves alone. -/
theorem verifyRotation_kept (bad : List Nat) (s : State) :
    (verifyRotation bad s).gateCore = s.gateCore ∧ (verifyRotation bad s).sup.uptime = s.sup.uptime := by
  have hretire (c i src : Nat) (o : Bool) (u : State) : (u.retire c i src o).gateCore = u.gateCore := gateCore_of_part (retire_part (by simp) ..)
  unfold verifyRotation
  dsimp only
  split
  · split
    · exact ⟨gateCore_of_part (retireCopy_part (by simp) ..), retire_uptime ..⟩
    · refine ⟨?_, ?_⟩
      · exact foldl_kept (φ := State.gateCore) (fun s i => hretire ..) _ s
      · exact foldl_kept (φ := fun u : State => u.sup.uptime) (fun s i => retire_uptime ..) _ s
  · exact ⟨rfl, rfl⟩

theorem openWindow_eq {s : State} (h : s.spa.waiting = []) :
    openWindow s = s.onSpa (fun p => { p with window := true, shown := (p.epoch, p.ledgerFaults.head?) }) := by
  unfold openWindow
  dsimp only
  rw [show (s.onSpa (fun p => { p with window := true, shown := (p.epoch, p.ledgerFaults.head?) })).spa.waiting = [] from h]
  rfl

theorem setRefs_lane (r : List (Int × Nat)) (s : State) {g : Nat} (hg : g < s.kce.groups.length) :
    (s.setRefs r).lane g = { s.lane g with
      oldRef := (s.lane g).bankRef, oldLim := (s.lane g).bankLim, bankRef := (r.getD g (0, 0)).1, bankLim := (r.getD g (0, 0)).2 } := by
  change ((List.range s.kce.groups.length).map _).getD g KGroup.reset = _
  rw [List.getD_eq_getElem?_getD, List.getElem?_map, List.getElem?_range hg]
  rfl

theorem setRefs_lane_beyond (r : List (Int × Nat)) (s : State) {g : Nat} (hg : s.kce.groups.length ≤ g) : (s.setRefs r).lane g = s.lane g := by
  change ((List.range s.kce.groups.length).map _).getD g KGroup.reset = s.kce.groups.getD g KGroup.reset
  rw [List.getD_eq_default _ _ (by simpa using hg), List.getD_eq_default _ _ hg]

/-- The gate of a plan that is ready, up to the opening of the write window. -/
theorem gatePlan_kept (p : Plan) (s : State) : (gatePlan p s).gateCore = { s.beginRests.gateCore with
    plan := p, lateRun := 0, snap := none, ready := none } ∧ part .kce (gatePlan p s) = part .kce (s.setRefs p.refs) := by
  have hset : ((s.setRefs p.refs).beginRests).gateCore = s.beginRests.gateCore := by
    unfold State.beginRests
    rw [show (s.setRefs p.refs).spa.snap = s.spa.snap from rfl]
    split <;> rfl
  constructor
  · unfold gatePlan
    dsimp only
    rw [foldl_kept fun s x => gateSession_gateCore x s, ← hset]
    rfl
  · have hfold (l : List PlanSess) (u : State) : part .kce (l.foldl (fun s x => gateSession x s) u) = part .kce u :=
      part_foldl (fun s x => gateSession_part (by simp) x s) l u
    refine (hfold _ _).trans ?_
    exact beginRests_part (π := .kce) (by simp) (s.setRefs p.refs)

/-- The boundary, the re-plan, the gate and the write window of one epoch. -/
theorem epochCycle : Claim.EpochCycle := by
  unfold Claim.EpochCycle
  refine ⟨?unposted, ?boundary, ?replan, ?gate, ?nogate, ?close⟩
  case unposted =>
    intro bad s sq cid left k old hsite himage hstaged hun
    obtain ⟨v, hv, he, -⟩ := boundary_quiet (bad := bad) (s := s.start) hsite himage hstaged
    have hnow : v.ledgerNow = putEntry k old s.spa.ledger := by
      have h1 : v.spa.ledger = s.spa.ledger := congrArg (fun x => x.1.ledger) hv
      have h2 : v.spa.unposted = s.spa.unposted := congrArg (fun x => x.1.unposted) hv
      rw [State.ledgerNow, h1, h2, hun]
      rfl
    refine ⟨_, congrArg Host.Outcome.next he, congrArg (fun x => x.1.ledger) hv, hnow, _, rfl, hnow⟩
  case boundary =>
    intro bad s hsite himage hstaged hun
    obtain ⟨v, hv, he, hbanks, hcfg⟩ := boundary_quiet (bad := bad) (s := s.start) hsite himage hstaged
    have hledger : v.spa.ledger = s.spa.ledger := congrArg (fun x => x.1.ledger) hv
    have hnow : v.ledgerNow = s.spa.ledger := by
      have h2 : v.spa.unposted = s.spa.unposted := congrArg (fun x => x.1.unposted) hv
      rw [State.ledgerNow, hledger, h2, hun]
      rfl
    refine ⟨_, congrArg Host.Outcome.next he, congrArg (fun x => x.1.epoch) hv, congrArg (fun x => x.1.started) hv,
      congrArg (fun x => x.1.window) hv, congrArg (fun x => x.1.ready) hv, ⟨_, rfl, rfl, hnow, congrArg Prod.snd hv⟩, hnow, hledger,
      congrArg (fun x => x.1.plan) hv, fun g => lane_of_banks (t := v) (s := s) hbanks g, hcfg⟩
  case replan =>
    intro s x hx
    refine ⟨_, rfl, planOf x s.conf (Config.freeNat s.free % 256), _, rfl, ?_⟩
    have he : replanComplete s.start = (if x.zero = 2 then s.start.took else s.start).onSpa (fun y => { y with
        ready := some (planOf x s.conf (Config.freeNat s.free % 256)) }) := by
      simp only [replanComplete, State.start_spa, hx]
      rfl
    rw [he]
    split <;> rfl
  case gate =>
    intro bad s x p hx hp hw
    have hs : (verifyRotation bad s.start).gateCore = s.gateCore := (verifyRotation_kept bad s.start).1
    have hup : (verifyRotation bad s.start).sup.uptime = s.sup.uptime := (verifyRotation_kept bad s.start).2
    have hkce : (verifyRotation bad s.start).kce = s.kce := verifyRotation_part (π := .kce) (by simp) bad s.start
    generalize hu : verifyRotation bad s.start = u at hs hup hkce
    obtain ⟨hcore, hk⟩ := gatePlan_kept p u
    have hrests : u.beginRests.gateCore.rests = s.spa.rests.mapIdx (fun j r =>
        if r.2.isNone && x.inp.resting.getD j false then (r.1, some (s.sup.uptime + r.1 * 60000000)) else r) := by
      have h1 : u.spa.snap = some x := (congrArg Spa.snap hs).trans hx
      have h2 : u.spa.rests = s.spa.rests := (congrArg Spa.rests hs :)
      simp only [State.beginRests, h1]
      rw [← h2, ← hup]
      rfl
    have hepoch : u.beginRests.gateCore.epoch = s.spa.epoch := by
      have h1 : u.spa.snap = some x := (congrArg Spa.snap hs).trans hx
      simp only [State.beginRests, h1]
      exact (congrArg Spa.epoch hs :)
    have hwait : (gatePlan p u).spa.waiting = [] := by
      have h1 : u.spa.snap = some x := (congrArg Spa.snap hs).trans hx
      refine (congrArg Spa.waiting hcore).trans ?_
      simp only [State.beginRests, h1]
      exact (congrArg Spa.waiting hs).trans hw
    have he : setpointGate bad s.start = openWindow (gatePlan p u) := by
      simp only [setpointGate, State.start_spa, hx, hp, hu]
    rw [openWindow_eq hwait] at he
    refine ⟨_, congrArg Host.Outcome.next he, fun g hg => ?_, congrArg Spa.plan hcore, rfl, congrArg Spa.snap hcore, congrArg Spa.ready hcore,
      congrArg Spa.lateRun hcore, (congrArg Spa.rests hcore).trans hrests, (congrArg Spa.epoch hcore).trans hepoch⟩
    have hl : (gatePlan p u).lane g = (u.setRefs p.refs).lane g := congrArg (fun k : Kce => k.groups.getD g KGroup.reset) hk
    have hl0 : u.lane g = s.lane g := congrArg (fun k : Kce => k.groups.getD g KGroup.reset) hkce
    change ((gatePlan p u).lane g).bankRef = _ ∧ ((gatePlan p u).lane g).bankLim = _ ∧
      ((gatePlan p u).lane g).oldRef = _ ∧ ((gatePlan p u).lane g).oldLim = _
    rw [hl, setRefs_lane _ _ (by rw [hkce]; exact hg), hl0]
    exact ⟨rfl, rfl, rfl, rfl⟩
  case nogate =>
    intro bad s hx
    refine ⟨_, rfl, ?_⟩
    simp only [setpointGate, State.start_spa, hx]
    rfl
  case close => exact fun s => ⟨_, rfl, rfl⟩

/-- The references that the gate of a late plan sets: those in force, or 0 (R147). -/
def lateRefs (n : Nat) (l : List KGroup) : List (Int × Nat) := l.map (fun x => (if n ≥ 1 then 0 else x.bankRef, x.bankLim))

theorem lateRefs_lane (n : Nat) (s : State) (g : Nat) :
    ((s.setRefs (lateRefs n s.kce.groups)).lane g).bankRef = (if 1 ≤ n then 0 else (s.lane g).bankRef) ∧
    ((s.setRefs (lateRefs n s.kce.groups)).lane g).bankLim = (s.lane g).bankLim := by
  by_cases hg : g < s.kce.groups.length
  · rw [setRefs_lane _ _ hg]
    simp [lateRefs, State.lane, hg]
  · have hge : s.kce.groups.length ≤ g := by omega
    have hreset : s.lane g = KGroup.reset := List.getD_eq_default _ _ hge
    rw [setRefs_lane_beyond _ _ hge, hreset]
    exact ⟨by simp [KGroup.reset], rfl⟩

/-- With the hold-up ready and room in the journal, a fault record stands last in it. -/
theorem faultRec_journal {s : State} (h : s.sup.holdupReady = true) (hlen : s.sup.journal.length < 1024) (i c a0 a1 a2 : Nat) :
    (s.faultRec i c a0 a1 a2).sup = { s.sup with
      journal := s.sup.journal ++ [⟨s.sTime, (s.sup.journalSeq + 1) % 2 ^ 32, i, false, c, a0, a1, a2⟩]
      journalSeq := (s.sup.journalSeq + 1) % 2 ^ 32 } := by
  have hdrop : s.sup.journal.length + 1 - 1024 = 0 := by omega
  simp only [State.faultRec, State.onSup, h, if_true, Sup.journalPut, hdrop, List.drop_zero]

/-- The gate of a late plan keeps the references once and gates 0 from the second in a row on. -/
theorem latePlan : Claim.LatePlan := by
  unfold Claim.LatePlan
  intro bad s x hx hready hw hbad hhold hlen
  have hrot : verifyRotation bad s.start = s.start := by
    unfold verifyRotation
    dsimp only
    rw [if_neg]
    rcases hbad with ⟨h1, h2⟩ | h
    · simp [h1, h2]
    · simp [h]
  have he : setpointGate bad s.start = openWindow (gateLate s.start) := by
    simp only [setpointGate, State.start_spa, hx, hready, hrot]
  rw [openWindow_eq (s := gateLate s.start) hw] at he
  have hlate : gateLate s.start = ((s.start.faultRec 4 0x0201 (s.spa.epoch % 2 ^ 32) s.spa.fallbacks 0).setRefs
      (lateRefs s.spa.lateRun s.kce.groups)).onSpa (fun y => { y with lateRun := y.lateRun + 1, snap := none, ready := none }) := rfl
  have hsup : (gateLate s.start).sup = _ := faultRec_journal (s := s.start) hhold hlen 4 0x0201 (s.spa.epoch % 2 ^ 32) s.spa.fallbacks 0
  refine ⟨_, congrArg Host.Outcome.next he, fun g => lateRefs_lane s.spa.lateRun (s.start.faultRec 4 0x0201 (s.spa.epoch % 2 ^ 32) s.spa.fallbacks 0) g,
    rfl, rfl, rfl, ?_, ?_⟩
  · change (gateLate s.start).sup.journal.map _ = _
    rw [hsup, List.map_append]
    rfl
  · apply State.ext
    case sup =>
      change (gateLate s.start).sup = { s.sup with journal := (gateLate s.start).sup.journal, journalSeq := (gateLate s.start).sup.journalSeq }
      rw [hsup]
      rfl
    all_goals rfl

/-- Settles O40, from the cycle of a plan that is ready and the gate of one that is late. -/
theorem epochsAndPlans : Obligations.EpochsAndPlans := by
  unfold Obligations.EpochsAndPlans
  exact ⟨epochCycle, latePlan⟩

end Sys2Proof.Machine
end
section
/-! PROOFS. The rows of the islands' tables, the Kiln's commands and the limits of its control law -/

namespace Sys2Proof.Machine

open Sys2Proof

/-! ### The rows of the islands' tables -/

theorem getD_upd_self {α : Type} {l : List α} {n : Nat} (f : α → α) (d : α) (h : n < l.length) : (upd l n f).getD n d = f (l.getD n d) :=
  (upd_getD l n f d h).1

theorem getD_upd_of_ne {α : Type} {n m : Nat} (h : m ≠ n) (l : List α) (f : α → α) (d : α) : (upd l n f).getD m d = l.getD m d := by
  simp [upd, Ne.symm h]

theorem upd_length {α : Type} (l : List α) (n : Nat) (f : α → α) : (upd l n f).length = l.length := by simp [upd]

/-- Two changes of one row are one change. -/
theorem upd_upd {α : Type} (l : List α) (n : Nat) (f g : α → α) : upd (upd l n f) n g = upd l n (fun x => g (f x)) := by
  simp only [upd, List.modify_modify_eq]
  rfl

theorem onLane_lane {g : Nat} {s : State} (f : KGroup → KGroup) (h : g < s.kce.groups.length) : (s.onLane g f).lane g = f (s.lane g) :=
  getD_upd_self f _ h

theorem onLane_lane_of_ne {g n : Nat} (h : n ≠ g) (s : State) (f : KGroup → KGroup) : (s.onLane g f).lane n = s.lane n :=
  getD_upd_of_ne h _ f _

theorem onPg_pg {g : Nat} {s : State} (f : PGroup → PGroup) (h : g < s.psc.groups.length) : (s.onPg g f).pg g = f (s.pg g) :=
  getD_upd_self f _ h

theorem onPg_pg_of_ne {g n : Nat} (h : n ≠ g) (s : State) (f : PGroup → PGroup) : (s.onPg g f).pg n = s.pg n :=
  getD_upd_of_ne h _ f _

theorem onLink_link {n : Nat} {s : State} (f : Link → Link) (h : n < s.pla.links.length) : (s.onLink n f).link n = f (s.link n) :=
  getD_upd_self f _ h

theorem onLink_link_of_ne {n m : Nat} (h : m ≠ n) (s : State) (f : Link → Link) : (s.onLink n f).link m = s.link m :=
  getD_upd_of_ne h _ f _

theorem lane_of_part {s t : State} (h : part .kce t = part .kce s) (g : Nat) : t.lane g = s.lane g := by
  change t.kce = s.kce at h
  rw [State.lane, h]
  rfl

theorem pg_of_part {s t : State} (h : part .psc t = part .psc s) (g : Nat) : t.pg g = s.pg g := by
  change t.psc = s.psc at h
  rw [State.pg, h]
  rfl

theorem link_of_part {s t : State} (h : part .pla t = part .pla s) (n : Nat) : t.link n = s.link n := by
  change t.pla = s.pla at h
  rw [State.link, h]
  rfl

/-! ### Commands over a range of objects -/

theorem rangeParams_ok {q : Sqe} {n total size : Nat} (h : RangeOf q n total size) :
    ∀ p ∈ rangeParams q (bits (sd q 6) 6 0) total size, p.1 = true := by
  obtain ⟨rfl, h1, h2, h3, h4⟩ := h
  simp only [rangeParams, List.mem_cons, List.not_mem_nil, or_false, forall_eq_or_imp, forall_eq, Bool.and_eq_true, decide_eq_true_eq]
  exact ⟨h2, h4, h1, h3⟩

/-! ### The Kiln's commands -/

theorem kState_code_lt (k : KState) : k.code < 256 := by cases k <;> decide

theorem ofInt_lt (w : Nat) (i : Int) : ofInt w i < 2 ^ w := by
  have hpos : (0 : Int) < (2 ^ w : Nat) := by positivity
  have h1 := Int.emod_nonneg i hpos.ne'
  have h2 := Int.emod_lt_of_pos i hpos
  unfold ofInt
  omega

/-- A command that changes its lane only completes with that change. -/
theorem onLane_done {q : Sqe} {s : State} (h : OwnedAs q.fn q.sq (cidOf q) s) (f : KGroup → KGroup) :
    let t := ((s.start.accept q).onLane (sd q 1) f).done q stDONE 0
    Completed q stDONE 0 s t ∧ t.out = [] ∧ RingsKept s t ∧
      t = { s with hqe := t.hqe, kce := { s.kce with groups := upd s.kce.groups (sd q 1) f }, out := t.out, cur := t.cur } := by
  obtain ⟨hc, hk⟩ := done_kept (s1 := (s.start.accept q).onLane (sd q 1) f) (st := stDONE) (r := 0) h rfl
  refine ⟨hc, by simp, hk, ?_⟩
  apply State.ext <;> simp

/-- Settles O8: the records are read where Tables 06-13 and 06-14 put their fields. -/
theorem kilnCommands : Obligations.KilnCommands := by
  unfold Obligations.KilnCommands
  refine ⟨?status, ?counts, ?set, ?clear⟩
  case status =>
    intro q s h hg hlen
    refine answers_taken rfl h (by simp [hg, hlen]) ⟨_, replyDone_readOnly h.2.1, ?_⟩
    have hlane : (s.start.accept q).lane (sd q 1) = s.lane (sd q 1) := rfl
    have hcode : (s.lane (sd q 1)).st.code % 256 = (s.lane (sd q 1)).st.code := Nat.mod_eq_of_lt (kState_code_lt _)
    simp only [kilnRecord, List.append_assoc, hlane, leS]
    simp (disch := decide) only [u_le_zero, u_le_skip]
    simp [u_le_zero, hcode]
    exact ⟨ofInt_lt 32 _, ofInt_lt 32 _⟩
  case counts =>
    intro q s n h hr
    refine answers_taken rfl h (rangeParams_ok hr) ?_
    obtain ⟨rfl, -⟩ := hr
    exact replyDone_readOnly h.2.1
  case set =>
    intro q s h hg hset hd
    have hp : ∀ p ∈ [(decide (sd q 1 < 64), 1, 0), (!bit (sd q 6) 16 || bits (sd q 7) 15 0 != 0, 7, 0)], p.1 = true := by
      simp [hg, hset, hd]
    constructor
    · intro hopen
      refine answers_taken rfl h hp ?_
      have hbody : captureSet q (s.start.accept q) = ((s.start.accept q).onLane (sd q 1) (fun k =>
          { k with capture := some ⟨bits (sd q 6) 3 0, bit (sd q 6) 8, bits (sd q 7) 15 0⟩ })).done q stDONE 0 := by
        simp [captureSet, hset, hopen]
      rw [hbody]
      exact onLane_done h.2.1 _
    · intro hclosed
      refine answers_taken rfl h hp ?_
      have hbody : captureSet q (s.start.accept q) = (s.start.accept q).done q stBAD_STATE 0 := by
        simp [captureSet, hset, hclosed]
      rw [hbody]
      exact done_onlyCompletes h.2.1
  case clear =>
    intro q s h hg hclear
    refine answers_taken rfl h (by simp [hg, hclear]) ?_
    have hbody : captureSet q (s.start.accept q) = ((s.start.accept q).onLane (sd q 1) (fun k => { k with capture := none })).done q stDONE 0 := by
      simp [captureSet, hclear]
    rw [hbody]
    exact onLane_done h.2.1 _

/-! ### What no firing exceeds -/

theorem target_bounds {f : FireIn} (h : f.lim < 2 ^ 31) : -(f.lim : Int) ≤ target f ∧ target f ≤ f.lim := by
  unfold target
  rw [Nat.min_eq_left (by omega)]
  omega

/-- The slewed reference stays within a limit that its target keeps. -/
theorem slew_bounds {r t d : Int} {lim : Nat} (hd : 0 ≤ d) (h1 : -(lim : Int) ≤ t) (h2 : t ≤ lim) :
    -(lim : Int) ≤ slew r t d ∧ slew r t d ≤ lim := by
  unfold slew satS32 clampI
  split
  · exact ⟨h1, h2⟩
  · split
    · omega
    · split
      · omega
      · split <;> omega

/-- A target of a lower magnitude and the same sign takes effect in full. -/
theorem slew_pos {r t d : Int} (hd : 0 ≤ d) (h0 : 0 ≤ t) (hr : t ≤ r) (hs : t < 2 ^ 31) : slew r t d = t := by
  unfold slew satS32 clampI
  split
  · rfl
  · split
    · omega
    · split
      · omega
      · split <;> omega

theorem slew_neg {r t d : Int} (hd : 0 ≤ d) (h0 : t ≤ 0) (hr : r ≤ t) (hs : -2 ^ 31 ≤ t) : slew r t d = t := by
  unfold slew satS32 clampI
  split
  · rfl
  · split
    · omega
    · split
      · omega
      · split <;> omega

theorem clampU_bounds {x lo hi : Int} (h : lo ≤ hi) : lo ≤ clampU x lo hi ∧ clampU x lo hi ≤ hi := by
  unfold clampU
  omega

theorem actuate_bounds (k : CoeffSet) (z : List Int) (v e : Int) (j : Nat) (h : iat k.umin j ≤ iat k.umax j) :
    iat k.umin j ≤ (actuate k z v e j).2.1 ∧ (actuate k z v e j).2.1 ≤ iat k.umax j := clampU_bounds h

theorem backCalc_bounds (k : CoeffSet) (p : List Int) (v : Int) (j : Nat) (h : iat k.umin j ≤ iat k.umax j) :
    iat k.umin j ≤ (backCalc k p v j).2.1 ∧ (backCalc k p v j).2.1 ≤ iat k.umax j := by
  unfold backCalc
  dsimp only
  split <;> exact clampU_bounds h

theorem driven_bounds (b : Bool) (k : CoeffSet) (p z : List Int) (v e : Int) (j : Nat) (h : iat k.umin j ≤ iat k.umax j) :
    iat k.umin j ≤ (if b then backCalc k p v j else actuate k z v e j).2.1 ∧
      (if b then backCalc k p v j else actuate k z v e j).2.1 ≤ iat k.umax j := by
  split
  · exact backCalc_bounds k p v j h
  · exact actuate_bounds k z v e j h

/-- A property of every stored set and of the set in use holds of the set a firing chooses. -/
theorem chooseSet_of {P : CoeffSet → Prop} (h : Hdr) (c : GroupCtx) {sets : Nat → Option CoeffSet} (g : KGroup) {k : CoeffSet} (s : Int)
    (hs : ∀ b x, sets b = some x → P x) (hk : P k) : P (chooseSet h c sets g k s).set := by
  have hget (b : Nat) : P ((sets b).getD k) := by
    cases hb : sets b with
    | none => exact hk
    | some x => exact hs b x hb
  unfold chooseSet
  dsimp only
  split
  · exact hk
  · split
    · exact hget _
    · split
      · exact hk
      · exact hget _

theorem satU16_lt (x : Int) : satU16 x < 2 ^ 16 := by
  unfold satU16 clampI
  omega

theorem phaseCmds_fits {h : Hdr} {k : CoeffSet} {f : FireIn} {v : List Int} {i : Nat} {p : Cmd} (hp : (phaseCmds h k f v)[i]? = some p) :
    p.duty < 2 ^ 16 ∧ p.shift < 2 ^ 16 := by
  have hmem := List.mem_of_getElem? hp
  simp only [phaseCmds, List.mem_map] at hmem
  obtain ⟨n, -, rfl⟩ := hmem
  constructor
  · dsimp only
    split
    · decide
    · exact satU16_lt _
  · dsimp only
    split
    · exact Nat.mod_lt _ (by decide)
    · exact ofInt_lt 16 _

theorem iat_padI {l : List Int} {n j : Nat} (h : j < l.length) : iat (padI n l) j = l[j] := by
  simp [iat, padI, List.getD_eq_getElem?_getD, List.getElem?_append_left h, h]

/-- The set that a firing uses. -/
theorem fireLaw_set {P : CoeffSet → Prop} (h : Hdr) (c : GroupCtx) {sets : Nat → Option CoeffSet} (g : KGroup) {k0 : CoeffSet} (f : FireIn)
    (hs : ∀ b x, sets b = some x → P x) (hk : P k0) : P (fireLaw h c sets g k0 f).choice.set := by
  unfold fireLaw
  dsimp only
  split
  · dsimp only
    cases hb : sets _ with
    | none => exact hk
    | some x => exact hs _ x hb
  · exact chooseSet_of h c g _ hs hk

/-- The effective reference of a firing is slewed to its target at the rate of a set in use. -/
theorem fireLaw_rEff {P : CoeffSet → Prop} (h : Hdr) (c : GroupCtx) {sets : Nat → Option CoeffSet} (g : KGroup) {k0 : CoeffSet} (f : FireIn)
    (hs : ∀ b x, sets b = some x → P x) (hk : P k0) :
    ∃ k, P k ∧ (fireLaw h c sets g k0 f).rEff = slew (if g.start then 0 else g.rEff) (target f) k.slew := by
  have hset := fireLaw_set (P := P) h c g f hs hk
  by_cases hb : ((fireLaw h c sets g k0 f).choice.swapping || g.start) = true
  · exact ⟨_, hset, if_pos hb⟩
  · exact ⟨k0, hk, if_neg hb⟩

/-- An actuator of a firing has a value in its range. -/
theorem fireLaw_u (h : Hdr) (c : GroupCtx) (sets : Nat → Option CoeffSet) (g : KGroup) (k0 : CoeffSet) (f : FireIn)
    (hr : ∀ j, iat (fireLaw h c sets g k0 f).choice.set.umin j ≤ iat (fireLaw h c sets g k0 f).choice.set.umax j) {j : Nat} (hj : j < h.m) :
    iat (fireLaw h c sets g k0 f).choice.set.umin j ≤ iat (fireLaw h c sets g k0 f).u j ∧
      iat (fireLaw h c sets g k0 f).u j ≤ iat (fireLaw h c sets g k0 f).choice.set.umax j := by
  have hu : (fireLaw h c sets g k0 f).u = padI 4 _ := rfl
  rw [hu, iat_padI (by simpa using hj)]
  simp only [List.getElem_map, List.getElem_range]
  exact driven_bounds _ _ _ _ _ _ _ (hr j)

/-- Settles O9: the slew of the reference stays between the reference and its target, and every output is clamped. -/
theorem firingStaysInItsLimits : Obligations.FiringStaysInItsLimits := by
  unfold Obligations.FiringStaysInItsLimits
  intro h c sets g k0 f hs hslew hrange hlim
  have hP (b : Nat) (x : CoeffSet) (hx : sets b = some x) : 0 ≤ x.slew ∧ ∀ j, iat x.umin j ≤ iat x.umax j := hs b x hx
  obtain ⟨k, ⟨hk, -⟩, hr⟩ := fireLaw_rEff h c g f hP ⟨hslew, hrange⟩
  obtain ⟨-, hu⟩ := fireLaw_set h c g f hP ⟨hslew, hrange⟩
  obtain ⟨ht1, ht2⟩ := target_bounds hlim
  refine ⟨?_, fun hst h0 hle => ?_, fun hst hle h0 => ?_, fun j hj => fireLaw_u h c sets g k0 f hu hj, fun i p hp => phaseCmds_fits hp⟩
  · rw [hr]
    exact slew_bounds hk ht1 ht2
  · rw [hr, hst]
    exact slew_pos hk h0 hle (by omega)
  · rw [hr, hst]
    exact slew_neg hk h0 hle (by omega)

end Sys2Proof.Machine
end
section
/-! PROOFS. A lane's firing, its misses and the command collector -/

namespace Sys2Proof.Machine

open Sys2Proof

/-! ### The collector -/

/-- Results have joined those for the collector's next slot, and nothing else has changed. -/
structure Collected (l : List (Nat × Cmd)) (s t : State) : Prop where
  frame : t = { s with kce := { s.kce with fresh := t.kce.fresh } }
  mem : ∀ x ∈ l, x ∈ t.kce.fresh
  kept : ∀ x ∈ s.kce.fresh, x ∈ t.kce.fresh

theorem mem_insertBy {α : Type} (before : α → α → Bool) (x y : α) (l : List α) : y ∈ insertBy before x l ↔ y = x ∨ y ∈ l := by
  induction l with
  | nil => simp [insertBy]
  | cons z l ih =>
    unfold insertBy
    split
    · simp
    · simp only [List.mem_cons, ih]
      tauto

theorem toCollector_collected (l : Nat) (c : Cmd) (s : State) : Collected [(l, c)] s (s.toCollector l c) where
  frame := rfl
  mem := by simp [State.toCollector, mem_insertBy]
  kept := fun x hx => by simp [State.toCollector, mem_insertBy, hx]

/-- Commands that do not depend on what the collector holds join it one by one. -/
theorem foldl_collected {α : Type} (k : α → Nat) (c : State → α → Cmd) (hc : ∀ s n d a, c (State.toCollector n d s) a = c s a) (l : List α) (s : State) :
    Collected (l.map fun a => (k a, c s a)) s (l.foldl (fun s a => s.toCollector (k a) (c s a)) s) := by
  induction l generalizing s with
  | nil => exact ⟨rfl, by simp, fun x hx => hx⟩
  | cons a l ih =>
    have h0 := toCollector_collected (k a) (c s a) s
    have h1 := ih (s.toCollector (k a) (c s a))
    refine ⟨h1.frame, fun x hx => ?_, fun x hx => h1.kept x (h0.kept x hx)⟩
    rw [List.map_cons, List.mem_cons] at hx
    rcases hx with rfl | hx
    · exact h1.kept _ (h0.mem _ (by simp))
    · refine h1.mem x ?_
      simpa only [hc] using hx

theorem Collected.lane {l : List (Nat × Cmd)} {s t : State} (h : Collected l s t) (g : Nat) : t.lane g = s.lane g := by
  rw [h.frame]
  rfl

theorem Collected.pg {l : List (Nat × Cmd)} {s t : State} (h : Collected l s t) (g : Nat) : t.pg g = s.pg g := by
  rw [h.frame]
  rfl

/-! ### The capture of a sample -/

theorem capture_lane (g n flags : Nat) (s : State) : (s.capture g flags).lane n = s.lane n := lane_of_part (capture_part (by simp) ..) n

theorem capture_pg (g n flags : Nat) (s : State) : (s.capture g flags).pg n = s.pg n := pg_of_part (capture_part (by simp) ..) n

theorem capture_kce (g flags : Nat) (s : State) : (s.capture g flags).kce = s.kce := capture_part (π := .kce) (by simp) ..

theorem capture_none {g flags : Nat} {s : State} (h : (s.lane g).capture = none) : s.capture g flags = s := by
  unfold State.capture
  simp only [h]

/-! ### A result that compares equal -/

/-- What a result that compares equal makes of its lane's context (R191). -/
def KGroup.fired (r : Fired) (k : KGroup) : KGroup :=
  { k with
    band := r.choice.band, active := some r.choice.set
    newSet := k.newSet && !r.choice.swapping && !k.start
    pend := r.choice.pend, defer := r.choice.defer, deferred := r.choice.deferred, xh := r.xh, zeta := r.zeta, u := r.u, sat := r.sat
    rEff := r.rEff, y := r.y, w := r.w, start := false, causes := [], doneCount := k.count, phase := .idle
    forced := if r.choice.forced then incSat k.forced else k.forced }

/-- The outcome of a lane's firing in a state. -/
def State.outcome (s : State) (m : GroupMap) (g : Nat) (h : Hdr) (k0 : CoeffSet) : Fired :=
  fireLaw h (s.conf.laneCtx g) (s.conf.set g) (s.lane g) k0 (s.fireIn m g)

/-- A fired lane and PSC's load step, before the members' commands are made. -/
def State.firedStep (m : GroupMap) (g : Nat) (r : Fired) (s : State) : State :=
  (s.onLane g (KGroup.fired r)).onPg g (fun p => if p.st = .running then loadStep m (s.temps m) r.rEff p else p)

/-- The members' commands of a firing. -/
def State.firedCmds (s : State) (m : GroupMap) (g : Nat) (h : Hdr) (r : Fired) : List (Nat × Cmd) :=
  (m.links.take m.nPh).zip (phaseCmds h r.choice.set (s.fireIn m g) r.u)

theorem fireLane_eq (m : GroupMap) (g : Nat) (refired : Bool) (h : Hdr) (k0 : CoeffSet) (s : State) :
    let r := s.outcome m g h k0
    let s2 := s.firedStep m g r
    let cmds := s2.firedCmds m g h r
    s.fireLane m g refired h k0 = (cmds.foldl (fun s c => s.toCollector c.1 c.2) (s2.onLane g (fun k => { k with last := cmds }))).capture g
      (b2n refired * 32 + b2n r.choice.swapping * 16 + b2n r.choice.deferred * 8) := rfl

theorem phaseCmds_length (h : Hdr) (k : CoeffSet) (f : FireIn) (v : List Int) : (phaseCmds h k f v).length = f.iph.length := by simp [phaseCmds]

theorem phaseCmds_fresh {h : Hdr} {k : CoeffSet} {f : FireIn} {v : List Int} {c : Cmd} (hc : c ∈ phaseCmds h k f v) :
    c.held = false ∧ c.safe = false := by
  simp only [phaseCmds, List.mem_map] at hc
  obtain ⟨n, -, rfl⟩ := hc
  exact ⟨rfl, rfl⟩

/-- Every member has a command in the result of a firing. -/
theorem firedCmds_member {s : State} {m : GroupMap} {g : Nat} {h : Hdr} {r : Fired} {l : Nat} (hl : l ∈ m.links.take m.nPh) :
    ∃ c, (l, c) ∈ s.firedCmds m g h r ∧ c.held = false ∧ c.safe = false := by
  obtain ⟨i, hi, rfl⟩ := List.getElem_of_mem hl
  have hlen : i < (phaseCmds h r.choice.set (s.fireIn m g) r.u).length := by
    rw [phaseCmds_length]
    simp only [State.fireIn, State.iphOf, List.length_map, List.length_range]
    rw [List.length_take] at hi
    omega
  refine ⟨(phaseCmds h r.choice.set (s.fireIn m g) r.u)[i], ?_, phaseCmds_fresh (List.getElem_mem hlen)⟩
  unfold State.firedCmds
  rw [List.mem_iff_getElem]
  exact ⟨i, by rw [List.length_zip]; omega, by simp⟩

/-- What a result that compares equal leaves. -/
structure FiredLane (m : GroupMap) (g : Nat) (r : Fired) (s t : State) : Prop where
  lane : ∃ last, t.lane g = { (s.lane g).fired r with last := last }
  others : ∀ n, n ≠ g → t.lane n = s.lane n
  cmds : ∀ l ∈ m.links.take m.nPh, ∃ c, (l, c) ∈ t.kce.fresh ∧ c.held = false ∧ c.safe = false
  frame : (s.lane g).capture = none → t = { s with kce := t.kce, psc := t.psc }

theorem fireLane_spec {m : GroupMap} {g : Nat} {refired : Bool} {h : Hdr} {k0 : CoeffSet} {s : State} (hg : g < s.kce.groups.length) :
    FiredLane m g (s.outcome m g h k0) s (s.fireLane m g refired h k0) := by
  have he := fireLane_eq m g refired h k0 s
  dsimp only at he
  generalize s.outcome m g h k0 = r at he ⊢
  generalize hs2 : s.firedStep m g r = s2 at he
  generalize hcmds : s2.firedCmds m g h r = cmds at he
  have hlane2 : s2.lane g = (s.lane g).fired r := by rw [← hs2]; exact onLane_lane (KGroup.fired r) hg
  have hother2 (n : Nat) (hn : n ≠ g) : s2.lane n = s.lane n := by rw [← hs2]; exact onLane_lane_of_ne hn s (KGroup.fired r)
  have hg2 : g < s2.kce.groups.length := by
    rw [← hs2]
    exact (upd_length s.kce.groups g _).symm ▸ hg
  have hcol := foldl_collected (α := Nat × Cmd) Prod.fst (fun _ c => c.2) (fun _ _ _ _ => rfl) cmds (s2.onLane g (fun k => { k with last := cmds }))
  generalize hs3 : cmds.foldl (fun s c => s.toCollector c.1 c.2) (s2.onLane g (fun k => { k with last := cmds })) = s3 at he hcol
  have hlane3 : s3.lane g = { (s.lane g).fired r with last := cmds } := by
    rw [hcol.lane, onLane_lane _ hg2, hlane2]
  rw [he]
  refine ⟨⟨cmds, by rw [capture_lane, hlane3]⟩, fun n hn => ?_, fun l hl => ?_, fun hc => ?_⟩
  · rw [capture_lane, hcol.lane, onLane_lane_of_ne hn, hother2 n hn]
  · obtain ⟨c, hmem, hprop⟩ := firedCmds_member (s := s2) (g := g) (h := h) (r := r) hl
    rw [hcmds] at hmem
    refine ⟨c, ?_, hprop⟩
    rw [capture_kce]
    exact hcol.mem (l, c) (by simpa using hmem)
  · rw [capture_none (by rw [hlane3]; exact hc), hcol.frame, ← hs2]
    rfl

/-! ### Firings -/

theorem firing_eq {g : Nat} {cmp : Compare} {s : State} {m : GroupMap} {k0 : CoeffSet} (hm : s.conf.group g = some m)
    (hk : s.conf.set g 0 = some k0) (hst : (s.lane g).st = .firing) (hph : (s.lane g).phase = .ready) :
    firing g cmp s = match cmp with
      | .equal => s.fireLane m g false (hdrOf k0) (if (s.lane g).start then k0 else (s.lane g).active.getD k0)
      | .refiredEqual => (s.onLane g (fun k => { k with cmp := incSat k.cmp })).fireLane m g true (hdrOf k0)
          (if (s.lane g).start then k0 else (s.lane g).active.getD k0)
      | .mismatch => s.onLane g (fun k => { k with cmp := incSat (incSat k.cmp), phase := .failed 2 })
      | .noTime => s.onLane g (fun k => { k with cmp := incSat k.cmp, phase := .failed 3 }) := by
  have hc : ¬((s.lane g).st ≠ .firing ∨ (s.lane g).phase ≠ .ready) := by simp [hst, hph]
  simp only [firing, hm, State.laneSets, hk, if_neg hc] <;> cases cmp <;> rfl

/-- A failed comparison more does not change what a firing works on. -/
theorem outcome_cmp {g : Nat} {s : State} (hg : g < s.kce.groups.length) (m : GroupMap) (h : Hdr) (k0 : CoeffSet) :
    (s.onLane g (fun k => { k with cmp := incSat k.cmp })).outcome m g h k0 = s.outcome m g h k0 := by
  have hl := onLane_lane (s := s) (fun k => { k with cmp := incSat k.cmp }) hg
  have hf : (s.onLane g (fun k => { k with cmp := incSat k.cmp })).fireIn m g = s.fireIn m g := by
    unfold State.fireIn State.oldBank
    rw [hl]
    rfl
  unfold State.outcome
  rw [hf, hl]
  rfl

/-- A firing whose result compares equal, at once or run again. -/
theorem firing_equal {g : Nat} {first : Bool} {again : Option Bool} {s : State} {m : GroupMap} {k0 : CoeffSet} (hm : s.conf.group g = some m)
    (hk : s.conf.set g 0 = some k0) (hg : g < s.kce.groups.length) (hst : (s.lane g).st = .firing) (hph : (s.lane g).phase = .ready)
    (heq : first = true ∨ again = some true) :
    let set := if (s.lane g).start then k0 else (s.lane g).active.getD k0
    ∃ t, firing g (compareOf first again) s = t ∧ ∃ k n, (k = { s.lane g with cmp := n } ∧ n = if first = false then incSat (s.lane g).cmp else (s.lane g).cmp) ∧
      (∃ last, t.lane g = { k.fired (s.outcome m g (hdrOf k0) set) with last := last }) ∧
      (∀ n, n ≠ g → t.lane n = s.lane n) ∧ (∀ l ∈ m.links.take m.nPh, ∃ c, (l, c) ∈ t.kce.fresh ∧ c.held = false ∧ c.safe = false) ∧
      ((s.lane g).capture = none → t = { s with kce := t.kce, psc := t.psc }) := by
  intro set
  have he := firing_eq (cmp := compareOf first again) hm hk hst hph
  by_cases hf : first = true
  · have hc : compareOf first again = .equal := by simp [compareOf, hf]
    rw [hc] at he ⊢
    have h := fireLane_spec (m := m) (refired := false) (h := hdrOf k0) (k0 := set) hg
    exact ⟨_, he, s.lane g, (s.lane g).cmp, ⟨rfl, by simp [hf]⟩, h.lane, h.others, h.cmds, h.frame⟩
  · have hc : compareOf first again = .refiredEqual := by simp [compareOf, hf, heq.resolve_left hf]
    rw [hc] at he ⊢
    have hl := onLane_lane (s := s) (fun k => { k with cmp := incSat k.cmp }) hg
    have h := fireLane_spec (m := m) (refired := true) (h := hdrOf k0) (k0 := set)
      (s := s.onLane g (fun k => { k with cmp := incSat k.cmp })) ((upd_length s.kce.groups g _).symm ▸ hg)
    rw [outcome_cmp hg] at h
    refine ⟨_, he, _, _, ⟨rfl, by simp [hf]⟩, hl ▸ h.lane, fun n hn => ?_, h.cmds, fun hcap => ?_⟩
    · exact (h.others n hn).trans (onLane_lane_of_ne hn _ _)
    · exact h.frame (by rw [hl]; exact hcap)

/-- Firings whose results compare equal, those that do not, and a lane that does not fire. -/
theorem firings : Claim.Firings := by
  unfold Claim.Firings
  refine ⟨?equal, ?unequal, ?idle⟩
  case equal =>
    intro g first again m k0 s hm hk hg hst hph heq
    obtain ⟨t, he, k, n, ⟨rfl, rfl⟩, ⟨last, hlane⟩, hothers, hcmds, hframe⟩ := firing_equal (s := s.start) hm hk hg hst hph heq
    refine ⟨t, congrArg Host.Outcome.next he, ?_, by simp only [State.fireIn, State.oldBank, decide_eq_true_eq], ?_, ?_, ?_, ?_, ?_, hcmds, hothers, fun n => ?_, hframe⟩
    · rw [hlane]
      exact ⟨rfl, rfl, rfl, rfl, rfl, rfl, rfl⟩
    · rw [hlane]; rfl
    · rw [hlane]; rfl
    · rw [hlane]; rfl
    · rw [hlane]; rfl
    · rw [hlane]; rfl
    · by_cases hn : n = g
      · subst hn
        rw [hlane]
        exact ⟨rfl, rfl⟩
      · rw [hothers n hn]
        exact ⟨rfl, rfl⟩
  case unequal =>
    intro g m k0 s hm hk hst hph
    exact ⟨⟨_, congrArg Host.Outcome.next (firing_eq (s := s.start) (cmp := .mismatch) hm hk hst hph), rfl⟩,
      ⟨_, congrArg Host.Outcome.next (firing_eq (s := s.start) (cmp := .noTime) hm hk hst hph), rfl⟩⟩
  case idle =>
    intro g first again s h
    refine ⟨_, rfl, ?_⟩
    unfold firing
    split
    · dsimp only
      rw [if_pos (show (s.start.lane g).st ≠ .firing ∨ (s.start.lane g).phase ≠ .ready from h)]
      rfl
    · rfl

/-! ### A phase group brought up to date -/

theorem addOne_kept (m : GroupMap) (temps : List Int) (p : PGroup) : ∃ en ilv, addOne m temps p = { p with en := en, ilv := ilv } := by
  unfold addOne
  split
  · exact ⟨p.en, p.ilv, rfl⟩
  · exact ⟨_, _, rfl⟩

theorem addMany_kept (m : GroupMap) (temps : List Int) (k : Nat) (p : PGroup) :
    ∃ en ilv, addMany m temps k p = { p with en := en, ilv := ilv } := by
  induction k generalizing p with
  | zero => exact ⟨p.en, p.ilv, rfl⟩
  | succ k ih =>
    obtain ⟨en, ilv, h⟩ := addOne_kept m temps p
    obtain ⟨en2, ilv2, h2⟩ := ih (addOne m temps p)
    exact ⟨en2, ilv2, by rw [addMany, h2, h]⟩

/-- An entry into RUNNING enables phases and clears the shedding state. -/
theorem enterRunning_kept (m : GroupMap) (temps : List Int) (p : PGroup) : ∃ en ilv, enterRunning m temps p = { p with
    holdLeft := 0, addCnt := 0, shedCnt := 0, irTick := 0, ir := 0, imSum := 0, imCnt := 0, en := en, ilv := ilv } := by
  obtain ⟨en, ilv, h⟩ := addMany_kept m temps (if m.shedLvl = 0 then m.nPh else m.minPh) { p with
    holdLeft := 0, addCnt := 0, shedCnt := 0, irTick := 0, ir := 0, imSum := 0, imCnt := 0, en := List.replicate 8 false }
  exact ⟨en, _, congrArg (PGroup.setIlv m) h⟩

/-- The state that Table 07-3 gives a group. -/
def State.groupState (s : State) (p : PGroup) : PState := if p.mode = .running then (if s.gates p then .gated else .running) else p.mode

theorem deliverCap_pg {m : GroupMap} {g : Nat} {s : State} (h : g < s.psc.groups.length) :
    ∃ c, (s.deliverCap m g).pg g = { s.pg g with sent := c } := by
  unfold State.deliverCap
  dsimp only
  split
  · exact ⟨(s.pg g).sent, rfl⟩
  · exact ⟨_, onPg_pg (s := s) (fun p => { p with sent := _ }) h⟩

theorem deliverCap_pg_of_ne {m : GroupMap} {g n : Nat} (h : n ≠ g) (s : State) : (s.deliverCap m g).pg n = s.pg n := by
  unfold State.deliverCap
  dsimp only
  split
  · rfl
  · exact onPg_pg_of_ne h s _

/-- A group as the refresh leaves it, before its capacity is delivered. -/
def State.refreshed (s : State) (m : GroupMap) (p : PGroup) : PGroup :=
  let p1 : PGroup := if p.st = .running ∧ s.groupState p ≠ .running then { p with theta := 0, ovl := false } else p
  let p2 : PGroup := if s.groupState p = .running ∧ p.st ≠ .running then enterRunning m (s.temps m) p1 else p1
  { p2 with st := s.groupState p }

theorem refreshGroup_eq (m : GroupMap) (g : Nat) (s : State) :
    s.refreshGroup m g = (s.onPg g (fun _ => s.refreshed m (s.pg g))).deliverCap m g := rfl

/-- A group brought up to date keeps its mode, its marks and its timers. -/
theorem refreshed_kept (s : State) (m : GroupMap) (p : PGroup) : ∃ x : PGroup, s.refreshed m p = { x with
    st := s.groupState p, mode := p.mode, cause := p.cause, lost := p.lost, retries := p.retries, retryAt := p.retryAt
    frozen := p.frozen, latch := p.latch, gate := p.gate } := by
  obtain ⟨en, ilv, he⟩ := enterRunning_kept m (s.temps m)
    (if p.st = .running ∧ s.groupState p ≠ .running then { p with theta := 0, ovl := false } else p)
  refine ⟨s.refreshed m p, ?_⟩
  unfold State.refreshed
  dsimp only
  rw [he]
  split <;> split <;> rfl

/-- A group that neither runs nor comes to run takes its state only. -/
theorem refreshed_idle {s : State} {m : GroupMap} {p : PGroup} (h : p.st ≠ .running) (hs : s.groupState p ≠ .running) :
    s.refreshed m p = { p with st := s.groupState p } := by
  unfold State.refreshed
  simp only [h, hs, false_and, if_false]

/-- A group brought up to date, which exists. -/
theorem refreshGroup_pg {m : GroupMap} {g : Nat} {s : State} (h : g < s.psc.groups.length) :
    ∃ c, (s.refreshGroup m g).pg g = { s.refreshed m (s.pg g) with sent := c } := by
  have hlen : g < (s.onPg g (fun _ => s.refreshed m (s.pg g))).psc.groups.length := (upd_length s.psc.groups g _).symm ▸ h
  obtain ⟨c, hc⟩ := deliverCap_pg (m := m) hlen
  exact ⟨c, by rw [refreshGroup_eq, hc, onPg_pg _ h]⟩

theorem refreshGroup_pg_of_ne {m : GroupMap} {g n : Nat} (h : n ≠ g) (s : State) : (s.refreshGroup m g).pg n = s.pg n := by
  unfold State.refreshGroup
  dsimp only
  rw [deliverCap_pg_of_ne h, onPg_pg_of_ne h]

/-! ### A miss -/

/-- The command a member is given at a miss (R189, R190). -/
def State.missCommand (s : State) (g : Nat) (hold : Bool) (p : PGroup) (x : Nat × Nat) : Cmd :=
  if hold then Cmd.safeCmd else match look x.1 (s.lane g).last with
    | none => Cmd.safeCmd
    | some c => c.again (p.st = .running && p.on x.2) (p.ilv.getD x.2 0)

theorem missCommands_collected (m : GroupMap) (g : Nat) (hold : Bool) (s : State) :
    Collected ((m.links.take m.nPh).zipIdx.map fun x => (x.1, s.missCommand g hold (s.pg g) x)) s (s.missCommands m g hold) :=
  foldl_collected (α := Nat × Nat) Prod.fst (fun u x => u.missCommand g hold (s.pg g) x) (fun _ _ _ _ => rfl) _ s

/-- A miss counted, before its commands are made. -/
def State.missStep (m : GroupMap) (g cause : Nat) (s : State) : State :=
  ((s.onPg g (fun p => if p.st = .running then loadStep m (s.temps m) (s.lane g).rEff p else p)).onLane g (fun k => { k with
    ovr := incSat k.ovr, lastCause := cause, causes := if (s.pg g).st = .running then k.causes ++ [cause] else []
    y := s.sampleOut m g })).onKce (fun x => { x with lastMiss := some (g, cause) })

theorem missFiring_eq (m : GroupMap) (g cause : Nat) (s : State) : s.missFiring m g cause =
    let s1 := s.missStep m g cause
    if (s1.lane g).causes.length ≥ 3 then
      let arg := packCauses (s1.lane g).causes
      ((((((s1.laneStop g .hold).onLane g (fun k => { k with holds := incSat k.holds })).missCommands m g true).postEvent .pf0 67 0x01 arg g).faultRec
        2 0x0301 g arg (s1.lane g).count).holdGroup g).capture g 64
    else (s1.missCommands m g false).capture g 64 := rfl

/-- A lane whose firing is missed while its group runs. -/
theorem missStep_lane {m : GroupMap} {g cause : Nat} {s : State} (hg : g < s.kce.groups.length) (hr : (s.pg g).st = .running) :
    (s.missStep m g cause).lane g = { s.lane g with
      ovr := incSat (s.lane g).ovr, lastCause := cause, causes := (s.lane g).causes ++ [cause], y := s.sampleOut m g } := by
  have h := onLane_lane (s := s.onPg g (fun p => if p.st = .running then loadStep m (s.temps m) (s.lane g).rEff p else p)) (fun k => { k with
    ovr := incSat k.ovr, lastCause := cause, causes := if (s.pg g).st = .running then k.causes ++ [cause] else []
    y := s.sampleOut m g }) hg
  rw [if_pos hr] at h
  exact h

theorem missStep_lane_of_ne {m : GroupMap} {g n cause : Nat} {s : State} (h : n ≠ g) : (s.missStep m g cause).lane n = s.lane n :=
  onLane_lane_of_ne (s := s.onPg g _) h _

theorem missStep_pg {m : GroupMap} {g cause : Nat} {s : State} (hg : g < s.psc.groups.length) (hr : (s.pg g).st = .running) :
    (s.missStep m g cause).pg g = loadStep m (s.temps m) (s.lane g).rEff (s.pg g) := by
  have h := onPg_pg (s := s) (fun p => if p.st = .running then loadStep m (s.temps m) (s.lane g).rEff p else p) hg
  rw [if_pos hr] at h
  exact h

theorem missStep_pg_of_ne {m : GroupMap} {g n cause : Nat} {s : State} (h : n ≠ g) : (s.missStep m g cause).pg n = s.pg n :=
  onPg_pg_of_ne h s _

/-- The deadline of a sample whose firing has not finished. -/
theorem firingDeadline_eq {g cause : Nat} {m : GroupMap} {s : State} (hm : s.conf.group g = some m) (hst : (s.lane g).st = .firing)
    (hph : (s.lane g).phase = .ready ∧ cause = 1 ∨ (s.lane g).phase = .failed cause) :
    firingDeadline g s = (s.onLane g (fun k => { k with phase := .idle })).missFiring m g cause := by
  unfold firingDeadline
  rcases hph with ⟨hph, rfl⟩ | hph <;> simp [hm, hst, hph]

/-- A miss takes its sample first. -/
def State.missBegun (s : State) (g : Nat) : State := s.start.onLane g (fun k => { k with phase := .idle })

theorem missBegun_lane {g : Nat} {s : State} (hg : g < s.kce.groups.length) : (s.missBegun g).lane g = { s.lane g with phase := .idle } :=
  onLane_lane (s := s.start) _ hg

theorem missBegun_lane_of_ne {g n : Nat} (h : n ≠ g) (s : State) : (s.missBegun g).lane n = s.lane n := onLane_lane_of_ne h s.start _

theorem missBegun_length (g : Nat) (s : State) : (s.missBegun g).kce.groups.length = s.kce.groups.length := upd_length s.kce.groups g _

theorem missBegun_pg (g n : Nat) (s : State) : (s.missBegun g).pg n = s.pg n := rfl

/-- What PSC holds a group with. -/
theorem holdGroup_pg {g : Nat} {s : State} {m : GroupMap} (hm : s.conf.group g = some m) (hg : g < s.psc.groups.length) :
    ((s.holdGroup g).pg g).mode = .held ∧ ((s.holdGroup g).pg g).st = .held ∧ ∀ n, n ≠ g → (s.holdGroup g).pg n = s.pg n := by
  have he : s.holdGroup g = (s.onPg g (fun p => { p with mode := .held })).refreshGroup m g := by
    unfold State.holdGroup
    simp only [hm]
  have hp : (s.onPg g (fun p => { p with mode := .held })).pg g = { s.pg g with mode := .held } := onPg_pg _ hg
  obtain ⟨c, hc⟩ := refreshGroup_pg (m := m) (s := s.onPg g (fun p => { p with mode := .held })) ((upd_length s.psc.groups g _).symm ▸ hg)
  obtain ⟨x, hx⟩ := refreshed_kept (s.onPg g (fun p => { p with mode := .held })) m { s.pg g with mode := .held }
  rw [he, hc, hp, hx]
  exact ⟨rfl, rfl, fun n hn => by rw [refreshGroup_pg_of_ne hn, onPg_pg_of_ne hn]⟩

/-- The hold of a lane at its third miss in a row (R190). -/
def State.missHeld (m : GroupMap) (g cause : Nat) (s : State) : State :=
  ((s.missStep m g cause).laneStop g .hold).onLane g (fun k => { k with holds := incSat k.holds })

theorem missHeld_lane {m : GroupMap} {g cause : Nat} {s : State} (hg : g < s.kce.groups.length) (hr : (s.pg g).st = .running) :
    ∃ stored, (s.missHeld m g cause).lane g = { ({ s.lane g with
      ovr := incSat (s.lane g).ovr, lastCause := cause, causes := (s.lane g).causes ++ [cause], y := s.sampleOut m g } : KGroup).clear .hold stored with
        holds := incSat (s.lane g).holds } := by
  have hlen1 : g < (s.missStep m g cause).kce.groups.length := (upd_length s.kce.groups g _).symm ▸ hg
  have hlen2 : g < ((s.missStep m g cause).laneStop g .hold).kce.groups.length :=
    (upd_length (s.missStep m g cause).kce.groups g _).symm ▸ hlen1
  refine ⟨(s.missStep m g cause).conf.set g, ?_⟩
  have h1 : ((s.missStep m g cause).laneStop g .hold).lane g = ((s.missStep m g cause).lane g).clear .hold ((s.missStep m g cause).conf.set g) :=
    onLane_lane _ hlen1
  rw [State.missHeld, onLane_lane _ hlen2, h1, missStep_lane hg hr]
  rfl

theorem missHeld_lane_of_ne {m : GroupMap} {g n cause : Nat} {s : State} (h : n ≠ g) : (s.missHeld m g cause).lane n = s.lane n :=
  (onLane_lane_of_ne h _ _).trans ((onLane_lane_of_ne h _ _).trans (missStep_lane_of_ne h))

/-- The third miss in a row, with no capture set. -/
theorem missFiring_hold {m : GroupMap} {g cause : Nat} {s : State} (hc : ((s.missStep m g cause).lane g).causes.length ≥ 3)
    (hcap : ((s.missHeld m g cause).lane g).capture = none) : s.missFiring m g cause =
    ((((s.missHeld m g cause).missCommands m g true).postEvent .pf0 67 0x01 (packCauses ((s.missStep m g cause).lane g).causes) g).faultRec
      2 0x0301 g (packCauses ((s.missStep m g cause).lane g).causes) ((s.missStep m g cause).lane g).count).holdGroup g := by
  rw [missFiring_eq]
  dsimp only
  rw [if_pos hc, capture_none]
  · rfl
  · have h : ∀ u : State, (u.holdGroup g).lane g = u.lane g := fun u => lane_of_part (holdGroup_part (by simp) g u) g
    have h2 (u : State) (a b x y z : Nat) : (u.faultRec a b x y z).lane g = u.lane g := rfl
    have h3 (u : State) (a b c d : Nat) : (u.postEvent .pf0 a b c d).lane g = u.lane g := lane_of_part (postEvent_part (by simp) ..) g
    rw [h, h2, h3, (missCommands_collected m g true _).lane]
    exact hcap

/-- A miss before the third in a row, the hold, and a lane that does not fire. -/
theorem firingMisses : Claim.FiringMisses := by
  unfold Claim.FiringMisses
  refine ⟨?miss, ?hold, ?idle⟩
  case miss =>
    intro g m s cause hm hg hst hph hrun hcauses
    have he := firingDeadline_eq (s := s.start) hm hst hph
    have hl0 := missBegun_lane (s := s) hg
    have hg0 : g < (s.missBegun g).kce.groups.length := missBegun_length g s ▸ hg
    have hother0 (n : Nat) (hn : n ≠ g) := missBegun_lane_of_ne hn s
    have hbase : s.missBegun g = { s with kce := (s.missBegun g).kce, out := [], cur := none } := rfl
    change firingDeadline g s.start = (s.missBegun g).missFiring m g cause at he
    generalize s.missBegun g = s0 at he hl0 hg0 hother0 hbase
    have hrun0 : (s0.pg g).st = .running := by rw [hbase]; exact hrun
    have hl1 := missStep_lane (m := m) (cause := cause) hg0 hrun0
    have hcol := missCommands_collected m g false (s0.missStep m g cause)
    have hlen : ¬((s0.missStep m g cause).lane g).causes.length ≥ 3 := by
      rw [hl1, hl0]
      simp
      omega
    rw [missFiring_eq] at he
    dsimp only at he
    rw [if_neg hlen] at he
    have hpg (n : Nat) : s0.pg n = s.pg n := by rw [hbase]; rfl
    have hpg1 (hp : g < s.psc.groups.length) : (s0.missStep m g cause).pg g = loadStep m (s.temps m) (s.lane g).rEff (s.pg g) := by
      have htemps : s0.temps m = s.temps m := by rw [hbase]; rfl
      rw [missStep_pg (by rw [hbase]; exact hp) hrun0, hl0, hpg, htemps]
    refine ⟨_, congrArg Host.Outcome.next he, ?_, ?_, fun n hn => ⟨?_, ?_⟩, ?_, fun hp => ?_, fun i l c hi hc => ?_, fun hcap => ?_⟩
    · rw [capture_lane, hcol.lane, hl1, hl0]
    · rw [capture_kce, hcol.frame]
      rfl
    · rw [capture_lane, hcol.lane, missStep_lane_of_ne hn, hother0 n hn]
    · rw [capture_pg, hcol.pg, missStep_pg_of_ne hn, hpg]
    · have hpla := capture_part (π := .pla) (by simp) g 64 ((s0.missStep m g cause).missCommands m g false)
      refine hpla.trans ?_
      rw [hcol.frame, hbase]
      rfl
    · rw [capture_pg, hcol.pg, hpg1 hp]
    · rw [capture_kce, capture_pg, hcol.pg]
      refine hcol.mem _ (List.mem_map.mpr ⟨(l, i), List.mk_mem_zipIdx_iff_getElem?.mpr hi, ?_⟩)
      have hlast : look l ((s0.missStep m g cause).lane g).last = some c := by rw [hl1, hl0]; exact hc
      simp only [State.missCommand, Bool.false_eq_true, if_false, hlast]
    · rw [capture_none (by rw [hcol.lane, hl1, hl0]; exact hcap), hcol.frame, hbase]
      rfl
  case hold =>
    intro g m s cause c0 c1 hm hg hpg hst hph hrun hcauses hready hlen hcap
    have he := firingDeadline_eq (cause := cause) (s := s.start) hm hst (.inr hph)
    have hl0 := missBegun_lane (s := s) hg
    have hg0 : g < (s.missBegun g).kce.groups.length := missBegun_length g s ▸ hg
    have hother0 (n : Nat) (hn : n ≠ g) := missBegun_lane_of_ne hn s
    have hbase : s.missBegun g = { s with kce := (s.missBegun g).kce, out := [], cur := none } := rfl
    change firingDeadline g s.start = (s.missBegun g).missFiring m g cause at he
    generalize s.missBegun g = s0 at he hl0 hg0 hother0 hbase
    have hrun0 : (s0.pg g).st = .running := by rw [hbase]; exact hrun
    have hcs : ((s0.missStep m g cause).lane g).causes = [c0, c1, cause] := by
      rw [missStep_lane hg0 hrun0, hl0]
      simp only [hcauses]
      rfl
    obtain ⟨stored, hheld⟩ := missHeld_lane (m := m) (cause := cause) hg0 hrun0
    rw [hl0] at hheld
    rw [missFiring_hold (by rw [hcs]; simp) (by rw [hheld]; exact hcap), hcs] at he
    have hcol := missCommands_collected m g true (s0.missHeld m g cause)
    generalize hcount : ((s0.missStep m g cause).lane g).count = count at he
    generalize hpack : packCauses [c0, c1, cause] = arg at he
    have hsup : ((s0.missHeld m g cause).missCommands m g true).sup = s.sup := by
      rw [hcol.frame, hbase]
      rfl
    have hpsc : ((s0.missHeld m g cause).missCommands m g true).psc.groups.length = s.psc.groups.length := by
      rw [hcol.frame, hbase]
      exact upd_length s.psc.groups g _
    have hconf : ((s0.missHeld m g cause).missCommands m g true).conf = s.conf := by
      rw [hcol.frame, hbase]
      rfl
    have hpgs (n : Nat) (hn : n ≠ g) : ((s0.missHeld m g cause).missCommands m g true).pg n = s.pg n := by
      rw [hcol.pg, hbase]
      exact missStep_pg_of_ne (m := m) (cause := cause) hn
    have hlane (n : Nat) : ((s0.missHeld m g cause).missCommands m g true).lane n = (s0.missHeld m g cause).lane n := hcol.lane n
    have hmem := hcol.mem
    generalize (s0.missHeld m g cause).missCommands m g true = s3 at he hsup hpsc hconf hpgs hlane hmem
    have hrec := faultRec_journal (s := s3.postEvent .pf0 67 1 arg g) (by rw [State.postEvent_sup, hsup]; exact hready)
      (by rw [State.postEvent_sup, hsup]; omega) 2 0x0301 g arg count
    have hkce : ((s3.postEvent .pf0 67 1 arg g).faultRec 2 0x0301 g arg count).kce = s3.kce := by simp
    have hpsc5 : ((s3.postEvent .pf0 67 1 arg g).faultRec 2 0x0301 g arg count).psc = s3.psc := by simp
    have hcfg5 : ((s3.postEvent .pf0 67 1 arg g).faultRec 2 0x0301 g arg count).cfg = s3.cfg := by simp
    generalize (s3.postEvent .pf0 67 1 arg g).faultRec 2 0x0301 g arg count = s5 at he hrec hkce hpsc5 hcfg5
    have hfinal : (s5.holdGroup g).kce = s3.kce := (holdGroup_part (π := .kce) (by simp) g s5).trans hkce
    have hlanes (n : Nat) : (s5.holdGroup g).lane n = (s0.missHeld m g cause).lane n :=
      (congrArg (fun k : Kce => k.groups.getD n KGroup.reset) hfinal).trans (hlane n)
    have hjournal : (s5.holdGroup g).sup.journal = s5.sup.journal :=
      congrArg (fun x => x.2.1) (holdGroup_part (π := .faults) (by simp) g s5)
    have hm5 : s5.conf.group g = some m := by
      have : s5.conf = s.conf := (congrArg (fun c => c.getD Cfg.empty) hcfg5).trans hconf
      rw [this]
      exact hm
    obtain ⟨hmode, hstate, hrest⟩ := holdGroup_pg hm5 (by rw [hpsc5, hpsc]; exact hpg)
    have hl := (hlanes g).trans hheld
    have hothers (n : Nat) (hn : n ≠ g) : (s5.holdGroup g).lane n = s.lane n := by
      rw [hlanes, missHeld_lane_of_ne hn, hother0 n hn]
    refine ⟨_, congrArg Host.Outcome.next he, (congrArg KGroup.st hl :), (congrArg KGroup.causes hl :), (congrArg KGroup.xh hl :),
      (congrArg KGroup.zeta hl :), (congrArg KGroup.rEff hl :), (congrArg KGroup.ovr hl :), (congrArg KGroup.holds hl :), fun l hl => ?_, hmode, hstate, ?_, fun n hn => ⟨hothers n hn, ?_⟩,
      fun n => ?_⟩
    · rw [hfinal]
      obtain ⟨i, hi⟩ := List.getElem?_of_mem hl
      exact hmem _ (List.mem_map.mpr ⟨(l, i), List.mk_mem_zipIdx_iff_getElem?.mpr hi, rfl⟩)
    · rw [hjournal, hrec]
      exact ⟨_, List.mem_append_right _ (List.mem_singleton_self _), rfl, rfl, hpack ▸ rfl⟩
    · rw [hrest n hn]
      exact (congrArg (fun p : Psc => p.groups.getD n PGroup.reset) hpsc5).trans (hpgs n hn)
    · by_cases hn : n = g
      · subst hn
        rw [hlanes, hheld]
        exact ⟨rfl, rfl⟩
      · rw [hothers n hn]
        exact ⟨rfl, rfl⟩
  case idle =>
    intro g s h
    refine ⟨_, rfl, ?_⟩
    unfold firingDeadline
    split
    · rfl
    · rw [if_pos (show (s.start.lane g).st ≠ .firing from h)]
      rfl

/-! ### Collector slots -/

theorem onLink_frame (n : Nat) (f : Link → Link) (s : State) : s.onLink n f = { s with pla := { s.pla with links := (s.onLink n f).pla.links } } := rfl

theorem link_beyond {n : Nat} {s : State} (h : ¬n < s.pla.links.length) : s.link n = Link.reset := List.getD_eq_default _ _ (by omega)

theorem onLink_beyond {n : Nat} {s : State} (h : ¬n < s.pla.links.length) (f : Link → Link) : (s.onLink n f).link n = Link.reset :=
  List.getD_eq_default _ _ (by simp [upd]; omega)

/-- A slot takes the oldest result. -/
theorem collectorSlots : Claim.CollectorSlots := by
  unfold Claim.CollectorSlots
  refine ⟨?slot, ?empty⟩
  case slot =>
    intro s l c rest h
    have he : collectorSlot s.start = (s.start.onKce (fun k => { k with queue := rest, fresh := [] })).onLink l (fun x =>
        if x.st = .up then { x with slot := some c } else x) := by
      simp only [collectorSlot, State.start_kce, h]
    refine ⟨_, congrArg Host.Outcome.next he, rfl, ?_, fun n hn => onLink_link_of_ne hn _ _, rfl⟩
    by_cases hl : l < s.pla.links.length
    · exact onLink_link (s := s.start.onKce (fun k => { k with queue := rest, fresh := [] })) _ hl
    · rw [onLink_beyond (s := s.start.onKce (fun k => { k with queue := rest, fresh := [] })) hl, link_beyond hl]
      rfl
  case empty =>
    intro s hq hf
    refine ⟨_, rfl, ?_⟩
    simp only [collectorSlot, State.start_kce, hq, hf]
    rfl

/-- Settles O41, from firings, misses and the collector. -/
theorem laneFirings : Obligations.LaneFirings := by
  unfold Obligations.LaneFirings
  exact ⟨firings, firingMisses, collectorSlots⟩

end Sys2Proof.Machine
end
section
/-! PROOFS. Phase groups: their commands, capacity, shedding, retries and latches -/

namespace Sys2Proof.Machine

open Sys2Proof

/-! ### Masks -/

theorem maskOf_succ (n : Nat) (p : Nat → Bool) : maskOf (n + 1) p = maskOf n p + b2n (p n) * 2 ^ n := by
  simp [maskOf, List.range_succ, List.foldl_append]

theorem maskOf_lt (n : Nat) (p : Nat → Bool) : maskOf n p < 2 ^ n := by
  induction n with
  | zero => simp [maskOf]
  | succ n ih =>
    have h1 : b2n (p n) * 2 ^ n ≤ 2 ^ n := by
      have := Nat.mul_le_mul_right (2 ^ n) (b2n_le_one (p n))
      omega
    rw [maskOf_succ, Nat.pow_succ]
    omega

theorem bit_eq_testBit (n i : Nat) : bit n i = n.testBit i := by
  rw [bit, Nat.testBit_eq_decide_div_mod_eq]
  rfl

/-- The bits of a mask are those it was made of. -/
theorem bit_maskOf {n i : Nat} (p : Nat → Bool) (h : i < n) : bit (maskOf n p) i = p i := by
  rw [bit_eq_testBit]
  induction n with
  | zero => omega
  | succ n ih =>
    have hlt := maskOf_lt n p
    rw [maskOf_succ, Nat.mul_comm, Nat.add_comm]
    by_cases hi : i = n
    · subst hi
      rw [Nat.testBit_two_pow_mul_add _ hlt, if_neg (by omega)]
      cases p i <;> simp [b2n]
    · rw [Nat.testBit_two_pow_mul_add _ hlt, if_pos (by omega)]
      exact ih (by omega)

theorem countOf_pos {n h : Nat} {p : Nat → Bool} (hh : h < n) (hp : p h = true) : countOf n p ≠ 0 := by
  unfold countOf
  rw [ne_eq, List.length_eq_zero_iff, List.filter_eq_nil_iff]
  intro hc
  exact hc h (List.mem_range.mpr hh) hp

theorem bit_two_pow (h i : Nat) : bit (2 ^ h) i = decide (h = i) := by
  rw [bit_eq_testBit, Nat.testBit_two_pow]

/-! ### GROUP_STATUS, GROUP_COUNTS -/

theorem pState_code_lt (p : PState) : p.code < 8 := by cases p <;> decide

/-! ### GROUP_RELEASE -/

/-- What GROUP_RELEASE makes of a group's marks: the members `hs` are available and shed. -/
def PGroup.restored (hs : List Nat) (p : PGroup) : PGroup :=
  { p with
    lost := (List.range 8).map (fun h => if hs.contains h then 0 else p.lost.getD h 0)
    en := (List.range 8).map (fun h => !hs.contains h && p.on h) }

theorem restored_avail {hs : List Nat} {p : PGroup} {h : Nat} (hh : h < 8) : (p.restored hs).avail h = (hs.contains h || p.avail h) := by
  unfold PGroup.restored PGroup.avail
  simp only [List.getD_eq_getElem?_getD, List.getElem?_map, List.getElem?_range hh, Option.map_some, Option.getD_some]
  cases hc : hs.contains h <;> simp

theorem restored_on {hs : List Nat} {p : PGroup} {h : Nat} (hh : h < 8) : (p.restored hs).on h = (!hs.contains h && p.on h) := by
  unfold PGroup.restored PGroup.on
  simp only [List.getD_eq_getElem?_getD, List.getElem?_map, List.getElem?_range hh, Option.map_some, Option.getD_some]

theorem release_turnedAway {q : Sqe} {s : State} {m : GroupMap} (hm : s.conf.group (sd q 1) = some m) (hd : bits (sd q 6) 7 0 < 2 ^ m.nPh)
    (h : (s.pg (sd q 1)).latch = true ∨ ∃ h, h < m.nPh ∧ bit (sd q 6) h = true ∧ s.mayRestore m (sd q 1) h = false) :
    groupRelease q s = s.done q stBAD_STATE 0 := by
  unfold groupRelease
  dsimp only
  rw [hm]
  dsimp only
  rw [if_neg (by omega), if_pos]
  rcases h with h | ⟨n, hn, hb, hr⟩
  · simp [h]
  · have : ((List.range m.nPh).filter (fun h => bit (sd q 6) h)).any (fun h => !s.mayRestore m (sd q 1) h) = true :=
      List.any_eq_true.mpr ⟨n, List.mem_filter.mpr ⟨List.mem_range.mpr hn, hb⟩, by simp [hr]⟩
    simp [this]

/-- The end of a HELD group. -/
theorem release_held {q : Sqe} {s : State} {m : GroupMap} (hd : sd q 6 = 0x100) (hm : s.conf.group (sd q 1) = some m) (hn : m.nPh ≤ 8)
    (hlatch : (s.pg (sd q 1)).latch = false) (hmode : (s.pg (sd q 1)).mode = .held) (hav : ∃ h, h < m.nPh ∧ (s.pg (sd q 1)).avail h = true) :
    let s4 := (((s.onPg (sd q 1) (fun _ => ({ (s.pg (sd q 1)).restored [] with mode := .running } : PGroup).setIlv m)).unholdLane (sd q 1)).journalGroup
      (sd q 1)).refreshGroup m (sd q 1)
    groupRelease q s = s4.done q stDONE ((s4.pg (sd q 1)).st.code + 256 * maskOf m.nPh (s4.pg (sd q 1)).avail) := by
  have hnone : (List.range m.nPh).filter (fun h => bit 0x100 h) = [] := by
    rw [List.filter_eq_nil_iff]
    intro h hh
    rw [show (0x100 : Nat) = 2 ^ 8 from rfl, bit_two_pow]
    have := List.mem_range.mp hh
    simp
    omega
  have hav1 : countOf m.nPh (fun h => ((List.range 8).map (fun h => (s.pg (sd q 1)).lost.getD h 0)).getD h 0 == 0) ≠ 0 := by
    obtain ⟨h, hh, ha⟩ := hav
    have := restored_avail (hs := []) (p := s.pg (sd q 1)) (h := h) (by omega)
    simp only [List.contains_nil, Bool.false_or, ha] at this
    exact countOf_pos hh this
  have h8 : bit 0x100 8 = true := by decide
  have h9 : bit 0x100 9 = false := by decide
  have hbits : ¬bits 0x100 7 0 ≥ 2 ^ m.nPh := by
    have : bits 0x100 7 0 = 0 := by decide
    rw [this]
    exact Nat.not_le_of_gt (Nat.two_pow_pos _)
  unfold groupRelease
  dsimp only
  rw [hm, hd]
  dsimp only
  rw [if_neg hbits, hnone]
  have hc1 : ((s.pg (sd q 1)).mode != .held && (s.pg (sd q 1)).mode != .locked) = false := by rw [hmode]; rfl
  have hc2 : decide ((s.pg (sd q 1)).mode = .locked) = false := by rw [hmode]; rfl
  have hc3 : ¬(s.pg (sd q 1)).latch = true := by rw [hlatch]; exact Bool.false_ne_true
  simp only [List.contains_nil, Bool.false_eq_true, if_false, List.any_nil, h8, h9, hc1, hc2, hav1, if_true, Bool.true_and,
    Bool.or_false, Bool.and_false, beq_eq_false_iff_ne.mpr hav1, List.foldl_nil, PGroup.restored]
  rw [if_neg hc3]

/-- The member named alone by a mask. -/
theorem filter_bit_two_pow {h n : Nat} (hh : h < n) : (List.range n).filter (fun i => bit (2 ^ h) i) = [h] := by
  have hp : (fun i => bit (2 ^ h) i) = fun i => i == h := by
    funext i
    rw [bit_two_pow]
    exact decide_eq_decide.mpr eq_comm
  rw [hp, List.filter_beq, List.count_eq_one_of_mem List.nodup_range (List.mem_range.mpr hh)]
  rfl

/-- The restoration of one member. -/
theorem release_member {q : Sqe} {s : State} {m : GroupMap} {h : Nat} (hd : sd q 6 = 2 ^ h) (hm : s.conf.group (sd q 1) = some m)
    (hn : m.nPh ≤ 8) (hh : h < m.nPh) (hlatch : (s.pg (sd q 1)).latch = false) (hr : s.mayRestore m (sd q 1) h = true) :
    let s4 := (((s.onLink (m.links.getD h 0xFF) (fun l => { l with bad := 0, pinned := 0 })).onPg (sd q 1) (fun _ =>
      ((s.pg (sd q 1)).restored [h]).setIlv m)).journalGroup (sd q 1)).refreshGroup m (sd q 1)
    groupRelease q s = s4.done q stDONE ((s4.pg (sd q 1)).st.code + 256 * maskOf m.nPh (s4.pg (sd q 1)).avail) := by
  have h8 : bit (2 ^ h) 8 = false := by rw [bit_two_pow]; simp; omega
  have h9 : bit (2 ^ h) 9 = false := by rw [bit_two_pow]; simp; omega
  have hlt : 2 ^ h < 2 ^ m.nPh := Nat.pow_lt_pow_right (by decide) hh
  have hbits : ¬bits (2 ^ h) 7 0 ≥ 2 ^ m.nPh := by
    have : bits (2 ^ h) 7 0 ≤ 2 ^ h := by rw [bits, Nat.pow_zero, Nat.div_one]; exact Nat.mod_le _ _
    omega
  have hc : ¬(s.pg (sd q 1)).latch = true := by rw [hlatch]; exact Bool.false_ne_true
  unfold groupRelease
  dsimp only
  rw [hm, hd]
  dsimp only
  rw [if_neg hbits, filter_bit_two_pow hh]
  simp only [Bool.false_eq_true, if_false, List.any_cons, List.any_nil, h8, h9, hr, Bool.not_true, Bool.false_and, Bool.or_false, List.foldl_cons,
    List.foldl_nil]
  rw [if_neg hc]
  rfl

/-- The group commands complete with the state and the availability of the group they leave. -/
theorem releaseResult (c : PState) {n : Nat} (p : Nat → Bool) (r : Nat) (hr : r = c.code + 256 * maskOf n p) :
    bits r 2 0 = c.code ∧ ∀ h, h < n → bit r (8 + h) = p h := by
  have hc := pState_code_lt c
  constructor
  · rw [bits, hr]
    omega
  · intro h hh
    rw [← bit_maskOf p hh, bit, bit, Nat.pow_add, ← Nat.div_div_eq_div_mul, show r / 2 ^ 8 = maskOf n p by omega]

theorem sup_st_of_part {s t : State} (h : part .sup t = part .sup s) : t.sup.st = s.sup.st := sup_of_part h (·.st) fun _ => rfl

theorem journalGroup_frame (g : Nat) (s : State) : s.journalGroup g = { s with sup := (s.journalGroup g).sup } := rfl

theorem groupState_congr {s t : State} (h : t.sup.st = s.sup.st) (p : PGroup) : t.groupState p = s.groupState p := by
  rw [State.groupState, State.groupState, State.gates, State.gates, h]

theorem groupState_running {s : State} {p : PGroup} (hm : p.mode = .running) (hg : p.gate = false) (hs : s.sup.st = .service ∨ s.sup.st = .bisque) :
    s.groupState p = .running := by
  unfold State.groupState State.gates
  rcases hs with hs | hs <;> simp [hm, hg, hs]

theorem groupState_mode {s : State} {p : PGroup} (hm : p.mode ≠ .running) : s.groupState p = p.mode := by
  rw [State.groupState, if_neg hm]

/-- The operand of a release of one member. -/
theorem maskOperand {h : Nat} (hh : h < 8) : bits (2 ^ h) 9 0 ≠ 0 ∧ bits (2 ^ h) 31 10 = 0 := by
  have hpow : 2 ^ h < 2 ^ 8 := Nat.pow_lt_pow_right (by decide) hh
  have hpos : 0 < 2 ^ h := Nat.two_pow_pos _
  simp only [bits]
  omega

theorem deliverCap_frame (m : GroupMap) (g : Nat) (s : State) :
    s.deliverCap m g = { s with psc := (s.deliverCap m g).psc, spa := (s.deliverCap m g).spa } := by
  unfold State.deliverCap
  dsimp only
  split <;> rfl

theorem refreshGroup_frame (m : GroupMap) (g : Nat) (s : State) :
    s.refreshGroup m g = { s with psc := (s.refreshGroup m g).psc, spa := (s.refreshGroup m g).spa } :=
  deliverCap_frame m g (s.onPg g (fun _ => s.refreshed m (s.pg g)))

/-- Settles O10: a release changes the group's marks, then brings it up to date. -/
theorem groupCommands : Obligations.GroupCommands := by
  unfold Obligations.GroupCommands
  refine ⟨?status, ?counts, ?latched, ?unknown, ?held, ?member, ?turned⟩
  case status =>
    intro q s m h hg hlen hm
    refine answers_taken rfl h (by simp [hg, hlen]) ⟨_, replyDone_readOnly h.2.1, ?_⟩
    have hm' : (s.start.accept q).conf.group (sd q 1) = some m := hm
    have hpg : (s.start.accept q).pg (sd q 1) = s.pg (sd q 1) := rfl
    have hcode : (s.pg (sd q 1)).st.code % 256 = (s.pg (sd q 1)).st.code := Nat.mod_eq_of_lt ((pState_code_lt _).trans (by decide))
    simp only [groupRecord, hm', List.append_assoc, hpg]
    simp (disch := decide) only [u_le_zero, u_le_skip, u_zeros_skip]
    simp [u_le_zero, hcode]
  case counts =>
    intro q s n h hr
    refine answers_taken rfl h (rangeParams_ok hr) ?_
    obtain ⟨rfl, -⟩ := hr
    exact replyDone_readOnly h.2.1
  case latched =>
    intro q s m h hg h1 h2 hm hd hlatch
    refine answers_taken rfl h (by simp [hg, h1, h2]) ?_
    rw [release_turnedAway (s := s.start.accept q) hm hd (.inl hlatch)]
    exact done_onlyCompletes h.2.1
  case unknown =>
    intro q s h hg h1 h2 hm
    refine answers_taken rfl h (by simp [hg, h1, h2]) ?_
    have hbody : groupRelease q (s.start.accept q) = (s.start.accept q).done q stBAD_OBJECT 0 := by
      have hm' : (s.start.accept q).conf.group (sd q 1) = none := hm
      unfold groupRelease
      simp only [hm']
    rw [hbody]
    exact done_onlyCompletes h.2.1
  case held =>
    intro q s m h hg hd hm hp hk hn hlatch hmode hgate hst hav
    refine answers_taken rfl h (by simp [hg, hd, show bits 256 9 0 = 256 by decide, show bits 256 31 10 = 0 by decide]) ?_
    rw [release_held (s := s.start.accept q) hd hm hn hlatch hmode hav]
    have hpg : (s.start.accept q).pg = s.pg := rfl
    rw [hpg]
    generalize hp1 : ({ (s.pg (sd q 1)).restored [] with mode := .running } : PGroup).setIlv m = p1
    generalize hu : (((s.start.accept q).onPg (sd q 1) (fun _ => p1)).unholdLane (sd q 1)).journalGroup (sd q 1) = u
    have hupg : u.pg (sd q 1) = p1 := by rw [← hu]; exact onPg_pg (s := s.start.accept q) (fun _ => p1) hp
    have hulen : sd q 1 < u.psc.groups.length := by rw [← hu]; exact (upd_length s.psc.groups _ _).symm ▸ hp
    have husup : u.sup.st = s.sup.st := by
      rw [← hu]
      exact sup_st_of_part (s := ((s.start.accept q).onPg (sd q 1) (fun _ => p1)).unholdLane (sd q 1)) (journalGroup_part (by simp) ..)
    have hstate : u.groupState p1 = .running := groupState_running (by rw [← hp1]; rfl) (by rw [← hp1]; exact hgate) (by rw [husup]; exact hst)
    obtain ⟨c, hc⟩ := refreshGroup_pg (m := m) hulen
    obtain ⟨x, hx⟩ := refreshed_kept u m p1
    rw [hupg, hx, hstate, ← hp1] at hc
    have hothers (n : Nat) (hn : n ≠ sd q 1) : (u.refreshGroup m (sd q 1)).pg n = s.pg n := by
      rw [refreshGroup_pg_of_ne hn, ← hu]
      exact onPg_pg_of_ne hn (s.start.accept q) _
    have hlane (n : Nat) : (u.refreshGroup m (sd q 1)).lane n = u.lane n := lane_of_part (refreshGroup_part (by simp) m _ u) n
    have hulane : u.lane (sd q 1) = { s.lane (sd q 1) with
        st := if (s.lane (sd q 1)).st = .hold then .quiet else (s.lane (sd q 1)).st, bankRef := 0, oldRef := 0 } := by
      rw [← hu]
      exact onLane_lane (s := (s.start.accept q).onPg (sd q 1) (fun _ => p1)) _ hk
    have huother (n : Nat) (hn : n ≠ sd q 1) : u.lane n = s.lane n := by
      rw [← hu]
      exact onLane_lane_of_ne hn ((s.start.accept q).onPg (sd q 1) (fun _ => p1)) _
    have hhqe : (u.refreshGroup m (sd q 1)).hqe = (s.start.accept q).hqe := by
      rw [refreshGroup_frame, ← hu]
      rfl
    generalize u.refreshGroup m (sd q 1) = t at hc hothers hlane hhqe
    obtain ⟨hdone, -⟩ := done_kept (st := stDONE) (r := (t.pg (sd q 1)).st.code + 256 * maskOf m.nPh (t.pg (sd q 1)).avail) h.2.1 hhqe
    obtain ⟨hcode, hbits⟩ := releaseResult (t.pg (sd q 1)).st (t.pg (sd q 1)).avail _ rfl (n := m.nPh)
    have htpg (n : Nat) (r : Nat) : (t.done q stDONE r).pg n = t.pg n := by rw [State.pg, State.done_psc]; rfl
    have htlane (n : Nat) (r : Nat) : (t.done q stDONE r).lane n = t.lane n := by rw [State.lane, State.done_kce]; rfl
    refine ⟨⟨_, hdone, by rw [hcode, hc]; rfl, fun i hi => ?_⟩, ?_, ?_, ?_, fun hhold => ?_, ?_, ?_, fun n hn => ⟨?_, ?_⟩⟩
    · rw [hbits i hi, hc]
      exact (restored_avail (hs := []) (by omega)).trans (by simp)
    · rw [htpg, hc]
    · rw [htpg, hc]; rfl
    · rw [htpg, hc]; rfl
    · rw [htlane, hlane, hulane, hhold]; rfl
    · rw [htlane, hlane, hulane]
    · rw [htlane, hlane, hulane]
    · rw [htpg, hothers n hn]
    · rw [htlane, hlane, huother n hn]
  case member =>
    intro q s m h ht hg hd hh hn hm hp hlatch hav hgood hup hst hmode
    obtain ⟨h9, h31⟩ := maskOperand (h := h) (by omega)
    refine answers_taken rfl ht (by simp [hg, hd, h9, h31]) ?_
    have hr : (s.start.accept q).mayRestore m (sd q 1) h = true := by
      change (!(s.pg (sd q 1)).avail h && decide ((s.link (m.links.getD h 0xFF)).good ≥ 4) && (s.link (m.links.getD h 0xFF)).st == .up) = true
      rw [hav, hup, decide_eq_true hgood]
      rfl
    rw [release_member (s := s.start.accept q) hd hm hn hh hlatch hr]
    have hpg : (s.start.accept q).pg = s.pg := rfl
    rw [hpg]
    generalize hp1 : ((s.pg (sd q 1)).restored [h]).setIlv m = p1
    generalize hu : (((s.start.accept q).onLink (m.links.getD h 0xFF) (fun l => { l with bad := 0, pinned := 0 })).onPg (sd q 1)
      (fun _ => p1)).journalGroup (sd q 1) = u
    have hupg : u.pg (sd q 1) = p1 := by rw [← hu]; exact onPg_pg (s := s.start.accept q) (fun _ => p1) hp
    have hulen : sd q 1 < u.psc.groups.length := by rw [← hu]; exact (upd_length s.psc.groups _ _).symm ▸ hp
    have hp1mode : p1.mode = (s.pg (sd q 1)).mode := by rw [← hp1]; rfl
    have hp1st : p1.st ≠ .running := by rw [← hp1]; exact hst ▸ hmode
    have hstate : u.groupState p1 = (s.pg (sd q 1)).st := by rw [groupState_mode (hp1mode ▸ hmode), hp1mode, hst]
    obtain ⟨c, hc⟩ := refreshGroup_pg (m := m) hulen
    rw [hupg, refreshed_idle hp1st (by rw [hstate, hst]; exact hmode), hstate, ← hp1] at hc
    have hothers (n : Nat) (hn : n ≠ sd q 1) : (u.refreshGroup m (sd q 1)).pg n = s.pg n := by
      rw [refreshGroup_pg_of_ne hn, ← hu]
      exact onPg_pg_of_ne hn (s.start.accept q) _
    have hkce : (u.refreshGroup m (sd q 1)).kce = s.kce := by
      rw [refreshGroup_frame, ← hu]
      rfl
    have hhqe : (u.refreshGroup m (sd q 1)).hqe = (s.start.accept q).hqe := by
      rw [refreshGroup_frame, ← hu]
      rfl
    generalize u.refreshGroup m (sd q 1) = t at hc hothers hkce hhqe
    obtain ⟨hdone, -⟩ := done_kept (st := stDONE) (r := (t.pg (sd q 1)).st.code + 256 * maskOf m.nPh (t.pg (sd q 1)).avail) ht.2.1 hhqe
    obtain ⟨hcode, -⟩ := releaseResult (t.pg (sd q 1)).st (t.pg (sd q 1)).avail _ rfl (n := m.nPh)
    have htpg (n : Nat) (r : Nat) : (t.done q stDONE r).pg n = t.pg n := by rw [State.pg, State.done_psc]; rfl
    refine ⟨⟨_, hdone, by rw [hcode, hc]⟩, ?_, ?_, fun n hn8 hne => ?_, ?_, fun n hn => ?_, ?_⟩
    · rw [htpg, hc]
      exact (restored_avail (hs := [h]) (by omega)).trans (by simp)
    · rw [htpg, hc]
      exact (restored_on (hs := [h]) (by omega)).trans (by simp)
    · rw [htpg, hc]
      exact (restored_avail (hs := [h]) hn8).trans (by simp [hne])
    · rw [htpg, hc]; rfl
    · rw [htpg, hothers n hn]
    · rw [State.done_kce, hkce]
  case turned =>
    intro q s m h ht hg hd hh hn hm hno
    obtain ⟨h9, h31⟩ := maskOperand (h := h) (by omega)
    have hlt : 2 ^ h < 2 ^ m.nPh := Nat.pow_lt_pow_right (by decide) hh
    have hpow : 2 ^ h < 2 ^ 8 := Nat.pow_lt_pow_right (by decide) (by omega)
    refine answers_taken rfl ht (by simp [hg, hd, h9, h31]) ?_
    rw [release_turnedAway (s := s.start.accept q) hm (by rw [hd, bits]; omega) (.inr ⟨h, hh, by rw [hd, bit_two_pow]; simp, ?_⟩)]
    · exact done_onlyCompletes ht.2.1
    · unfold State.mayRestore
      dsimp only
      have hpg : (s.start.accept q).pg (sd q 1) = s.pg (sd q 1) := rfl
      have hl : (s.start.accept q).link (m.links.getD h 0xFF) = s.link (m.links.getD h 0xFF) := rfl
      rw [hpg, hl]
      rcases hno with h1 | h1 | h1
      · rw [h1]
        rfl
      · rw [beq_eq_false_iff_ne.mpr h1, Bool.and_false]
      · rw [decide_eq_false (Nat.not_le_of_gt h1), Bool.and_false, Bool.false_and]

/-! ### Capacity and shedding -/

theorem sendCap_pg {g c : Nat} {s : State} (h : g < s.psc.groups.length) : (s.sendCap g c).pg g = { s.pg g with sent := c } :=
  onPg_pg (s := s) (fun p => { p with sent := c }) h

theorem sendCap_pg_of_ne {g n c : Nat} (h : n ≠ g) (s : State) : (s.sendCap g c).pg n = s.pg n := onPg_pg_of_ne h s _

theorem shedOne_one (m : GroupMap) (temps : List Int) (p : PGroup) : ∃ h en ilv, shedOne m temps p = { p with en := en, ilv := ilv } ∧
    ∀ n, n ≠ h → en.getD n false = p.on n := by
  unfold shedOne
  split
  · exact ⟨0, p.en, p.ilv, rfl, fun _ _ => rfl⟩
  next h _ =>
    refine ⟨h, _, _, rfl, fun n hn => ?_⟩
    change (p.en.set h false).getD n false = p.en.getD n false
    simp [List.getD_eq_getElem?_getD, List.getElem?_set_ne (Ne.symm hn)]

theorem addOne_one (m : GroupMap) (temps : List Int) (p : PGroup) : ∃ h en ilv, addOne m temps p = { p with en := en, ilv := ilv } ∧
    ∀ n, n ≠ h → en.getD n false = p.on n := by
  unfold addOne
  split
  · exact ⟨0, p.en, p.ilv, rfl, fun _ _ => rfl⟩
  next h _ =>
    refine ⟨h, _, _, rfl, fun n hn => ?_⟩
    change (p.en.set h true).getD n false = p.en.getD n false
    simp [List.getD_eq_getElem?_getD, List.getElem?_set_ne (Ne.symm hn)]

/-- What a shed tick does with its counts. -/
def shedStep (m : GroupMap) (temps : List Int) (add shed : Nat) (p : PGroup) : PGroup :=
  if add ≥ m.addDwell then addOne m temps { p with addCnt := 0, shedCnt := 0 }
  else if shed ≥ m.shedDwell then shedOne m temps { p with addCnt := add, shedCnt := 0 }
  else { p with addCnt := add, shedCnt := shed }

theorem shedStep_kept (m : GroupMap) (temps : List Int) (add shed : Nat) (p : PGroup) : ∃ h en ilv a b,
    shedStep m temps add shed p = { p with addCnt := a, shedCnt := b, en := en, ilv := ilv } ∧ ∀ n, n ≠ h → en.getD n false = p.on n := by
  unfold shedStep
  split
  · obtain ⟨h, en, ilv, he, hn⟩ := addOne_one m temps { p with addCnt := 0, shedCnt := 0 }
    exact ⟨h, en, ilv, _, _, he, hn⟩
  · split
    · obtain ⟨h, en, ilv, he, hn⟩ := shedOne_one m temps { p with addCnt := add, shedCnt := 0 }
      exact ⟨h, en, ilv, _, _, he, hn⟩
    · exact ⟨0, p.en, p.ilv, _, _, rfl, fun _ _ => rfl⟩

/-- A shed tick moves its counts and at most one enable. -/
theorem shedTick_kept (m : GroupMap) (temps : List Int) (p : PGroup) : ∃ h en ilv a b, shedTick m temps p = { p with
    irTick := p.ir, holdLeft := p.holdLeft - 1, imSum := 0, imCnt := 0, addCnt := a, shedCnt := b, en := en, ilv := ilv } ∧
    ∀ n, n ≠ h → en.getD n false = p.on n :=
  shedStep_kept m temps _ _ { p with irTick := p.ir, holdLeft := p.holdLeft - 1, imSum := 0, imCnt := 0 }

/-- Capacity reports and shed ticks. -/
theorem capacityAndShedding : Claim.CapacityAndShedding := by
  unfold Claim.CapacityAndShedding
  refine ⟨?capacity, ?shed, ?idle⟩
  case capacity =>
    intro g m s hm hg hcap
    have he : capacityDelivery g s.start = s.start.sendCap g (capacityOf s.conf.bisque m (s.pg g)) := by
      have hm' : s.start.conf.group g = some m := hm
      unfold capacityDelivery
      simp only [hm']
      rfl
    have hsent : ((s.start.sendCap g (capacityOf s.conf.bisque m (s.pg g))).spa.inp.cap).getD g 0 = capacityOf s.conf.bisque m (s.pg g) := by
      change (s.spa.inp.cap.set g _).getD g 0 = _
      simp [List.getD_eq_getElem?_getD, hcap]
    refine ⟨_, congrArg Host.Outcome.next he, ?_, ?_, fun h hh => ⟨?_, sendCap_pg_of_ne hh s.start⟩, rfl, rfl⟩
    · rw [hsent]
      unfold capacityOf localCap PGroup.nAv
      rfl
    · rw [hsent, sendCap_pg (s := s.start) hg]
    · change (s.spa.inp.cap.set g _).getD h 0 = _
      simp [List.getD_eq_getElem?_getD, List.getElem?_set_ne (Ne.symm hh)]
  case shed =>
    intro g m s hm hg hrun
    have he : exec (.shedTick g) s = .next (s.start.onPg g (shedTick m (s.temps m))) := by
      have hm' : s.start.conf.group g = some m := hm
      change execShedTick g s = _
      unfold execShedTick
      simp only [hm']
      rw [if_pos (show (s.start.pg g).st = .running from hrun)]
      rfl
    obtain ⟨h, en, ilv, a, b, hk, hon⟩ := shedTick_kept m (s.temps m) (s.pg g)
    have hpg : (s.start.onPg g (shedTick m (s.temps m))).pg g = shedTick m (s.temps m) (s.pg g) := onPg_pg (s := s.start) _ hg
    rw [hk] at hpg
    refine ⟨_, he, ?_, ?_, ?_, ?_, ?_, ⟨h, fun n hn => ?_⟩, fun n hn => onPg_pg_of_ne hn s.start _, rfl⟩
    · rw [hpg]
    · rw [hpg]; exact hrun
    · rw [hpg]
    · rw [hpg]
    · rw [hpg]
    · rw [hpg]; exact hon n hn
  case idle =>
    intro g s h
    refine ⟨_, rfl, ?_⟩
    dsimp only
    split
    · rfl
    · rw [if_neg (show ¬(s.start.pg g).st = .running from h)]
      rfl

/-! ### Retries and latches -/

theorem startRetry_unlatched {now : Nat} {m : GroupMap} {p : PGroup} (h : p.latch = false) :
    startRetry now m p = { p with retryAt := some (now + m.retryDelay * 1000), frozen := none } := by
  rw [startRetry, h]
  rfl

/-- A group changed with its event, its fault record and its journal entry. -/
theorem recorded_kept {g sub arg code : Nat} {f : PGroup → PGroup} {s : State} (hg : g < s.psc.groups.length) :
    let u := ((s.onPg g f).pscEvent g sub arg (some code)).journalGroup g
    u.pg g = f (s.pg g) ∧ (∀ n, n ≠ g → u.pg n = s.pg n) ∧ g < u.psc.groups.length ∧ u.sup.st = s.sup.st ∧ u.kce = s.kce ∧
      u.psc.lastEvent = some (g, sub, arg % 256) := by
  have hpsc : (((s.onPg g f).pscEvent g sub arg (some code)).journalGroup g).psc =
      { (s.onPg g f).psc with lastEvent := some (g, sub, arg % 256) } := by
    rw [journalGroup_frame]
    simp [State.pscEvent]
  have hkce : (((s.onPg g f).pscEvent g sub arg (some code)).journalGroup g).kce = s.kce := by
    rw [journalGroup_frame]
    simp [State.pscEvent]
  have hsup : part .sup (((s.onPg g f).pscEvent g sub arg (some code)).journalGroup g) = part .sup s :=
    (journalGroup_part (by simp) g _).trans ((pscEvent_part (by simp) g sub arg (some code) _).trans (onPg_part (by simp) g f s))
  have hpg (n : Nat) : (((s.onPg g f).pscEvent g sub arg (some code)).journalGroup g).pg n = (s.onPg g f).pg n := by
    rw [State.pg, hpsc]
    rfl
  refine ⟨(hpg g).trans (onPg_pg f hg), fun n hn => (hpg n).trans (onPg_pg_of_ne hn s f), ?_, sup_st_of_part hsup, hkce, congrArg Psc.lastEvent hpsc⟩
  rw [hpsc]
  exact (upd_length s.psc.groups g f).symm ▸ hg

theorem refreshGroup_lastEvent (m : GroupMap) (g : Nat) (s : State) : (s.refreshGroup m g).psc.lastEvent = s.psc.lastEvent := by
  rw [refreshGroup_eq]
  unfold State.deliverCap
  dsimp only
  split <;> rfl

theorem refreshGroup_kce (m : GroupMap) (g : Nat) (s : State) : (s.refreshGroup m g).kce = s.kce := by
  rw [refreshGroup_frame]

theorem refsKept_of_kce {s t : State} (h : t.kce = s.kce) : RefsKept s t := fun g => by
  rw [show t.lane g = s.lane g from congrArg (fun k : Kce => k.groups.getD g KGroup.reset) h]
  exact ⟨rfl, rfl⟩

/-- Retries, lock-outs and latch reports. -/
theorem retriesAndLatches : Claim.RetriesAndLatches := by
  unfold Claim.RetriesAndLatches
  refine ⟨?retry, ?lock, ?nothing, ?clear, ?frozen, ?set, ?unset⟩
  case retry =>
    intro g m s hm hg hmode hlatch hgate hst hlt
    have he : groupRetry g s.start = (((s.start.onPg g (fun p => { p with
        retries := p.retries + 1, mode := .running, retryAt := none, frozen := none })).pscEvent g 0x07 ((s.pg g).retries + 1)
          (some 0x0404)).journalGroup g).refreshGroup m g := by
      have hm' : s.start.conf.group g = some m := hm
      unfold groupRetry
      simp only [hm']
      rw [if_neg (by rw [show (s.start.pg g).mode = .tripped from hmode, show (s.start.pg g).latch = false from hlatch]; simp),
        if_pos (show (s.start.pg g).retries < m.retryMax from hlt)]
      rfl
    obtain ⟨hpg, hothers, hgroup, hsup, hkce, hev⟩ := recorded_kept (g := g) (f := fun p => { p with
        retries := p.retries + 1, mode := .running, retryAt := none, frozen := none }) (sub := 7) (arg := (s.pg g).retries + 1) (code := 0x0404)
        (s := s.start) hg
    generalize ((s.start.onPg g (fun p => { p with
        retries := p.retries + 1, mode := .running, retryAt := none, frozen := none })).pscEvent g 0x07 ((s.pg g).retries + 1)
          (some 0x0404)).journalGroup g = u at he hpg hothers hgroup hsup hkce hev
    have hstate : u.groupState (u.pg g) = .running := groupState_running (by rw [hpg]) (by rw [hpg]; exact hgate) (by rw [hsup]; exact hst)
    obtain ⟨c, hc⟩ := refreshGroup_pg (m := m) hgroup
    obtain ⟨x, hx⟩ := refreshed_kept u m (u.pg g)
    rw [hx, hstate, hpg] at hc
    refine ⟨_, congrArg Host.Outcome.next he, ?_, ?_, ?_, ?_, ?_, fun n hn => ?_, refsKept_of_kce ((refreshGroup_kce m g u).trans hkce)⟩
    · rw [hc]
    · rw [hc]
    · rw [hc]; rfl
    · rw [hc]
    · rw [refreshGroup_lastEvent, hev]
    · rw [refreshGroup_pg_of_ne hn, hothers n hn]; rfl
  case lock =>
    intro g m s hm hg hmode hlatch hle
    have he : groupRetry g s.start = (((s.start.onPg g (fun p => { p with
        mode := .locked, cause := 1, retryAt := none, frozen := none })).pscEvent g 0x04 ((s.pg g).retries * 256 + 1)
          (some 0x0403)).journalGroup g).refreshGroup m g := by
      have hm' : s.start.conf.group g = some m := hm
      unfold groupRetry
      simp only [hm']
      rw [if_neg (by rw [show (s.start.pg g).mode = .tripped from hmode, show (s.start.pg g).latch = false from hlatch]; simp),
        if_neg (show ¬(s.start.pg g).retries < m.retryMax from Nat.not_lt_of_ge hle)]
      rfl
    obtain ⟨hpg, hothers, hgroup, -, hkce, -⟩ := recorded_kept (g := g) (f := fun p => { p with
        mode := .locked, cause := 1, retryAt := none, frozen := none }) (sub := 4) (arg := (s.pg g).retries * 256 + 1) (code := 0x0403)
        (s := s.start) hg
    generalize ((s.start.onPg g (fun p => { p with
        mode := .locked, cause := 1, retryAt := none, frozen := none })).pscEvent g 0x04 ((s.pg g).retries * 256 + 1)
          (some 0x0403)).journalGroup g = u at he hpg hothers hgroup hkce
    have hstate : u.groupState (u.pg g) = .locked := by rw [groupState_mode (by rw [hpg]; simp), hpg]
    obtain ⟨c, hc⟩ := refreshGroup_pg (m := m) hgroup
    obtain ⟨x, hx⟩ := refreshed_kept u m (u.pg g)
    rw [hx, hstate, hpg] at hc
    refine ⟨_, congrArg Host.Outcome.next he, ?_, ?_, ?_, ?_, fun n hn => ?_, refsKept_of_kce ((refreshGroup_kce m g u).trans hkce)⟩
    · rw [hc]
    · rw [hc]
    · rw [hc]
    · rw [hc]; rfl
    · rw [refreshGroup_pg_of_ne hn, hothers n hn]; rfl
  case nothing =>
    intro g s h
    refine ⟨_, rfl, ?_⟩
    unfold groupRetry
    split
    · rfl
    · dsimp only
      rw [if_pos (show (s.start.pg g).mode ≠ .tripped ∨ (s.start.pg g).latch = true from h.symm)]
      rfl
  case clear =>
    intro g s hg hst hlatch
    have he : groupRetryClear g s.start = (s.start.onPg g (fun p => { p with retries := 0 })).journalGroup g := by
      unfold groupRetryClear
      rw [if_pos ⟨hst, by rw [show (s.start.pg g).latch = false from hlatch]; rfl⟩]
    exact ⟨_, congrArg Host.Outcome.next he, onPg_pg (s := s.start) _ hg, fun n hn => onPg_pg_of_ne hn s.start _, rfl⟩
  case frozen =>
    intro g s hlatch
    refine ⟨_, rfl, ?_⟩
    unfold groupRetryClear
    rw [if_neg (by rw [show (s.start.pg g).latch = true from hlatch]; simp)]
    rfl
  case set =>
    intro g s hg64 hg hrep hlatch
    have he : exec (.latchReport g) s = .next (s.start.onPg g (fun p => { p with
        latch := true, frozen := p.retryAt.map (fun t => t - s.sup.uptime), retryAt := none })) := by
      change execLatchReport g s = _
      have hrep' : s.start.tcmReport g = true := hrep
      have hl : (s.start.pg g).latch = false := hlatch
      unfold execLatchReport latchReport
      simp only [hg64, hrep', hl, if_true]
      rfl
    have hpg := onPg_pg (s := s.start) (fun p => { p with latch := true, frozen := p.retryAt.map (fun t => t - s.sup.uptime), retryAt := none }) hg
    exact ⟨_, he, by rw [hpg], by rw [hpg], by rw [hpg]; rfl, fun n hn => onPg_pg_of_ne hn s.start _, rfl⟩
  case unset =>
    intro g m s hg64 hg hm hrep hlatch hmode
    have he : exec (.latchReport g) s = .next (s.start.onPg g (fun p =>
        if p.mode = .tripped then startRetry s.sup.uptime m { p with latch := false } else { p with latch := false, frozen := none })) := by
      change execLatchReport g s = _
      have hrep' : s.start.tcmReport g = false := hrep
      have hl : (s.start.pg g).latch = true := hlatch
      have hm' : s.start.conf.group g = some m := hm
      unfold execLatchReport latchReport
      simp only [hg64, hrep', hl, hm', if_true]
      rfl
    have hpg := onPg_pg (s := s.start) (fun p =>
        if p.mode = .tripped then startRetry s.sup.uptime m { p with latch := false } else { p with latch := false, frozen := none }) hg
    rw [if_pos (show (s.start.pg g).mode = .tripped from hmode), startRetry_unlatched rfl] at hpg
    exact ⟨_, he, by rw [hpg], by rw [hpg], by rw [hpg]; rfl, by rw [hpg]; exact hmode, fun n hn => onPg_pg_of_ne hn s.start _⟩

/-- Settles O42, from its two parts. -/
theorem groupConduct : Obligations.GroupConduct := by
  unfold Obligations.GroupConduct
  exact ⟨capacityAndShedding, retriesAndLatches⟩

end Sys2Proof.Machine
end
section
/-! PROOFS. What the operations of the phase links leave of a link -/

namespace Sys2Proof.Machine

open Sys2Proof

/-! ### One link changed -/

theorem onLink_link_eq (l n : Nat) (f : Link → Link) (s : State) :
    (s.onLink l f).link n = if n = l ∧ l < s.pla.links.length then f (s.link n) else s.link n := by
  by_cases hn : n = l
  · subst hn
    by_cases hl : n < s.pla.links.length
    · rw [if_pos ⟨rfl, hl⟩, onLink_link f hl]
    · rw [if_neg (fun h => hl h.2), onLink_beyond hl, link_beyond hl]
  · rw [if_neg (fun h => hn h.1), onLink_link_of_ne hn]

theorem onLink_length (l : Nat) (f : Link → Link) (s : State) : (s.onLink l f).pla.links.length = s.pla.links.length := upd_length s.pla.links l f

/-- What a function of a link keeps, its change of the table keeps of every link. -/
theorem onLink_kept {α : Type} {φ : Link → α} {f : Link → Link} (h : ∀ k, φ (f k) = φ k) (l n : Nat) (s : State) :
    φ ((s.onLink l f).link n) = φ (s.link n) := by
  rw [onLink_link_eq]
  split
  · exact h _
  · rfl

theorem link_of_links {s t : State} (h : t.pla.links = s.pla.links) (n : Nat) : t.link n = s.link n := by
  rw [State.link, h]
  rfl

theorem plaEvent_links (l sub arg : Nat) (fault : Option Nat) (s : State) : (s.plaEvent l sub arg fault).pla.links = s.pla.links := by
  unfold State.plaEvent
  cases fault <;> simp

theorem linkLost_pla (l c : Nat) (s : State) : (s.linkLost l c).pla = s.pla := linkLost_part (π := .pla) (by simp) l c s

/-! ### An UP link that goes DOWN -/

/-- A link that has gone DOWN (R235). -/
def Link.wentDown (cause : Nat) (k : Link) : Link :=
  { k with
    st := .down, cause := cause, downs := incSat k.downs, run := 0, errs := [], waiting := cause ≤ 2
    slot := if k.owes then some Cmd.safeCmd else none }

theorem linkDown_links (l cause flags : Nat) (s : State) : (s.linkDown l cause flags).pla.links = (s.onLink l (Link.wentDown cause)).pla.links := by
  unfold State.linkDown
  dsimp only
  rw [linkLost_pla, plaEvent_links]
  rfl

theorem linkDown_link {l : Nat} {s : State} (h : l < s.pla.links.length) (cause flags : Nat) :
    (s.linkDown l cause flags).link l = (s.link l).wentDown cause := by
  rw [link_of_links (linkDown_links ..), onLink_link _ h]

theorem linkDown_link_of_ne {l n : Nat} (h : n ≠ l) (s : State) (cause flags : Nat) : (s.linkDown l cause flags).link n = s.link n := by
  rw [link_of_links (linkDown_links ..), onLink_link_of_ne h]

theorem linkDown_length (l cause flags : Nat) (s : State) : (s.linkDown l cause flags).pla.links.length = s.pla.links.length := by
  rw [linkDown_links, onLink_length]

/-! ### Code errors -/

/-- The code errors of a link that stand within 64 characters of a new one (R222). -/
def Link.near (at_ : Nat) (k : Link) : List Nat := at_ :: k.errs.filter (fun x => decide (x ≤ at_) && decide (at_ < x + 64))

/-- A link that has counted a code error. -/
def Link.erred (at_ : Nat) (k : Link) : Link := { k with codeErr := incSat k.codeErr, errs := k.near at_ }

/-- A link behind a code error (R222, R235). -/
def Link.heard (at_ : Nat) (k : Link) : Link :=
  if k.st = .up ∧ (k.near at_).length ≥ 4 then (k.erred at_).wentDown 1 else k.erred at_

theorem codeErrorAt_eq (l at_ : Nat) (s : State) : s.codeErrorAt l at_ =
    if (s.link l).st = .up ∧ ((s.link l).near at_).length ≥ 4 then (s.onLink l (fun k => { k with codeErr := incSat k.codeErr, errs := (s.link l).near at_ })).linkDown l 1 0
    else s.onLink l (fun k => { k with codeErr := incSat k.codeErr, errs := (s.link l).near at_ }) := rfl

theorem codeErrorAt_link {l : Nat} {s : State} (h : l < s.pla.links.length) (at_ : Nat) : (s.codeErrorAt l at_).link l = (s.link l).heard at_ := by
  have h1 : (s.onLink l (fun k => { k with codeErr := incSat k.codeErr, errs := (s.link l).near at_ })).link l = (s.link l).erred at_ :=
    onLink_link _ h
  rw [codeErrorAt_eq, Link.heard]
  split
  · rw [linkDown_link (by rw [onLink_length]; exact h), h1]
  · exact h1

theorem codeErrorAt_link_of_ne {l n : Nat} (h : n ≠ l) (s : State) (at_ : Nat) : (s.codeErrorAt l at_).link n = s.link n := by
  rw [codeErrorAt_eq]
  split
  · rw [linkDown_link_of_ne h, onLink_link_of_ne h]
  · rw [onLink_link_of_ne h]

theorem codeErrorAt_length (l at_ : Nat) (s : State) : (s.codeErrorAt l at_).pla.links.length = s.pla.links.length := by
  rw [codeErrorAt_eq]
  split
  · rw [linkDown_length, onLink_length]
  · rw [onLink_length]

/-- The code errors of a frame, one after another. -/
theorem codeErrors_link {l c : Nat} {s : State} (h : l < s.pla.links.length) (places : List Nat) :
    (s.codeErrors l c places).link l = places.foldl (fun k i => k.heard (c + i)) (s.link l) ∧
    (s.codeErrors l c places).pla.links.length = s.pla.links.length := by
  unfold State.codeErrors
  induction places generalizing s with
  | nil => exact ⟨rfl, rfl⟩
  | cons i places ih =>
    have hlen : l < (s.codeErrorAt l (c + i)).pla.links.length := by rw [codeErrorAt_length]; exact h
    obtain ⟨h1, h2⟩ := ih hlen
    exact ⟨by rw [List.foldl_cons, h1, codeErrorAt_link h]; rfl, by rw [List.foldl_cons, h2, codeErrorAt_length]⟩

theorem codeErrors_nil (l c : Nat) (s : State) : s.codeErrors l c [] = s := rfl

/-- What a code error keeps of a link: all but its counts, its errors and what a fall from UP changes. -/
theorem heard_kept {α : Type} {φ : Link → α} (h1 : ∀ k at_, φ (Link.erred at_ k) = φ k) (h2 : ∀ k, φ (Link.wentDown 1 k) = φ k) (c : Nat) (places : List Nat)
    (k : Link) : φ (places.foldl (fun k i => k.heard (c + i)) k) = φ k := by
  refine foldl_kept (fun k i => ?_) places k
  unfold Link.heard
  split
  · rw [h2, h1]
  · exact h1 _ _

/-! ### A sample evaluated -/

/-- A link without the mark of its current frame. -/
def Link.core (k : Link) : Link := { k with got := none, fresh := false }

theorem trySample_core (g n : Nat) (s : State) : ((s.trySample g).link n).core = (s.link n).core := by
  unfold State.trySample
  split
  · rfl
  · split
    · refine (foldl_kept (φ := fun u : State => (u.link n).core) (fun u l =>
        onLink_kept (f := fun k => { k with got := none, fresh := false }) (fun _ => rfl) l n u) _ _).trans ?_
      rw [link_of_part (laneSample_part (by simp) ..), link_of_part (pscSample_part (by simp) ..)]
    · rfl

theorem trySampleOf_core (l n : Nat) (s : State) : ((s.trySampleOf l).link n).core = (s.link n).core := by
  unfold State.trySampleOf
  split
  · rfl
  · exact trySample_core ..

theorem trySampleOf_none {l : Nat} {s : State} (h : s.conf.memberOf l = none) : s.trySampleOf l = s := by
  unfold State.trySampleOf
  rw [h]

/-! ### A training that ends -/

theorem endRetrain_none {l : Nat} {s : State} (h : (s.link l).retrain = none) : s.endRetrain l = s := by
  unfold State.endRetrain
  rw [h]

theorem endRetrain_some {l sq cid : Nat} {s : State} (h : (s.link l).retrain = some (sq, cid)) : s.endRetrain l =
    (s.onLink l (fun k => { k with retrain := none })).complete .pf0 sq cid (if (s.link l).st = .up then stDONE else stDONE_NOTE) (s.link l).st.code := by
  unfold State.endRetrain
  rw [h]

theorem complete_links (sq cid st r : Nat) (s : State) : (s.complete .pf0 sq cid st r).pla = s.pla := complete_part (π := .pla) (by simp) ..

theorem endRetrain_link {l : Nat} {s : State} (h : l < s.pla.links.length) : (s.endRetrain l).link l = { s.link l with retrain := none } ∧
    (s.endRetrain l).pla.links.length = s.pla.links.length := by
  cases hr : (s.link l).retrain with
  | none =>
    rw [endRetrain_none hr]
    exact ⟨by rw [← hr], rfl⟩
  | some x =>
    rw [endRetrain_some hr]
    exact ⟨(link_of_links (congrArg Pla.links (complete_links ..)) l).trans (onLink_link _ h),
      (congrArg (fun p : Pla => p.links.length) (complete_links ..)).trans (onLink_length ..)⟩

/-- A LINK_RETRAIN that waits for a link completes with the link's state. -/
theorem endRetrain_ready {l sq cid : Nat} {s : State} (h : (s.link l).retrain = some (sq, cid)) (ho : OwnedAs .pf0 sq cid s) :
    ∃ quiet, (⟨.pf0, sq, cid, if (s.link l).st = .up then stDONE else stDONE_NOTE, (s.link l).st.code, quiet, none⟩ : Cqe) ∈
      (s.endRetrain l).hqe.ready := by
  rw [endRetrain_some h]
  obtain ⟨⟨⟨quiet, hready⟩, -⟩, -⟩ := complete_kept (s1 := s.onLink l (fun k => { k with retrain := none }))
    (st := if (s.link l).st = .up then stDONE else stDONE_NOTE) (r := (s.link l).st.code) ho rfl
  exact ⟨quiet, by rw [hready]; simp⟩

end Sys2Proof.Machine
end
section
/-! PROOFS. The phase-link commands and the training of a link -/

namespace Sys2Proof.Machine

open Sys2Proof

/-! ### LOST marks stay -/

/-- No phase that was LOST has become available, and what has been sent stands. -/
structure LostKept (s t : State) : Prop where
  out : s.out <+: t.out
  kept : ∀ g h, (s.pg g).avail h = false → (t.pg g).avail h = false

theorem LostKept.refl (s : State) : LostKept s s := ⟨List.prefix_rfl, fun _ _ h => h⟩

theorem LostKept.trans {s t v : State} (h1 : LostKept s t) (h2 : LostKept t v) : LostKept s v := ⟨h1.out.trans h2.out, fun g h hl => h2.kept g h (h1.kept g h hl)⟩

theorem LostKept.of_psc {s t : State} (h : part .psc t = part .psc s) (ho : part .out t = part .out s) : LostKept s t :=
  ⟨by rw [show t.out = s.out from ho], fun g n hl => by rw [pg_of_part h]; exact hl⟩

theorem LostKept.ite {c : Prop} [Decidable c] {s a b : State} (ha : LostKept s a) (hb : LostKept s b) : LostKept s (if c then a else b) := by
  split
  · exact ha
  · exact hb

theorem LostKept.foldl {α : Type} {f : State → α → State} (h : ∀ s x, LostKept s (f s x)) (l : List α) (s : State) : LostKept s (l.foldl f s) := by
  induction l generalizing s with
  | nil => exact .refl s
  | cons x l ih => exact (h s x).trans (ih _)

theorem onPg_pg_eq (g n : Nat) (f : PGroup → PGroup) (s : State) :
    (s.onPg g f).pg n = if n = g ∧ g < s.psc.groups.length then f (s.pg n) else s.pg n := by
  by_cases hn : n = g
  · subst hn
    by_cases hl : n < s.psc.groups.length
    · rw [if_pos ⟨rfl, hl⟩, onPg_pg f hl]
    · rw [if_neg (fun h => hl h.2)]
      have h1 : (s.onPg n f).pg n = PGroup.reset := List.getD_eq_default _ _ (by simp [upd]; omega)
      have h2 : s.pg n = PGroup.reset := List.getD_eq_default _ _ (by omega)
      rw [h1, h2]
  · rw [if_neg (fun h => hn h.1), onPg_pg_of_ne hn]

theorem onPg_lost {g : Nat} {f : PGroup → PGroup} (s : State) (hf : ∀ h, (s.pg g).avail h = false → (f (s.pg g)).avail h = false) :
    LostKept s (s.onPg g f) := by
  refine ⟨List.prefix_rfl, fun n h hl => ?_⟩
  rw [onPg_pg_eq]
  split
  next hc => exact hc.1 ▸ hf h (hc.1 ▸ hl)
  · exact hl

theorem LostKept.onPg {g : Nat} {f : PGroup → PGroup} {s u : State} (h : LostKept s u) (hf : ∀ p, (f p).lost = p.lost) : LostKept s (u.onPg g f) :=
  h.trans (onPg_lost u fun n hl => by rw [PGroup.avail, hf]; exact hl)

theorem LostKept.deliverCap {m : GroupMap} {g : Nat} {s u : State} (h : LostKept s u) : LostKept s (u.deliverCap m g) := by
  unfold State.deliverCap
  dsimp only
  split
  · exact h
  · exact ⟨h.out, (LostKept.onPg (g := g) (f := fun p => { p with sent := capacityOf u.conf.bisque m (u.pg g) }) h (fun _ => rfl)).kept⟩

theorem LostKept.refreshGroup {m : GroupMap} {g : Nat} {s u : State} (h : LostKept s u) : LostKept s (u.refreshGroup m g) := by
  rw [refreshGroup_eq]
  refine (h.trans (onPg_lost u fun n hl => ?_)).deliverCap
  obtain ⟨x, hx⟩ := refreshed_kept u m (u.pg g)
  rw [hx]
  exact hl

theorem pscEvent_pg (g sub arg : Nat) (fault : Option Nat) (s : State) (n : Nat) : (s.pscEvent g sub arg fault).pg n = s.pg n := by
  unfold State.pscEvent
  cases fault with
  | none => rw [State.pg, State.postEvent_psc]; rfl
  | some code => rw [State.pg, State.faultRec_psc, State.postEvent_psc]; rfl

theorem fire_prefix (fn : Fn) (v : Nat) (s : State) : s.out <+: (s.fire fn v).out := by
  unfold State.fire
  dsimp only
  split
  · exact List.prefix_rfl
  · exact List.prefix_append ..

theorem fireEvent_prefix (fn : Fn) (v : Nat) (s : State) : s.out <+: (s.fireEvent fn v).out := by
  unfold State.fireEvent
  dsimp only
  split
  · exact List.prefix_rfl
  · split <;> exact fire_prefix ..

/-- An event's messages go behind what has been sent. -/
theorem postEvent_prefix (fn : Fn) (vec sub arg src : Nat) (s : State) : s.out <+: (s.postEvent fn vec sub arg src).out := by
  unfold State.postEvent
  dsimp only
  split
  · split
    · exact fireEvent_prefix ..
    · split <;> exact fireEvent_prefix ..
  · exact List.prefix_rfl

theorem pscEvent_prefix (g sub arg : Nat) (fault : Option Nat) (s : State) : s.out <+: (s.pscEvent g sub arg fault).out := by
  unfold State.pscEvent
  cases fault with
  | none => exact postEvent_prefix (s := s.onPsc _) ..
  | some code => exact postEvent_prefix (s := s.onPsc _) ..

theorem LostKept.pscEvent {g sub arg : Nat} {fault : Option Nat} {s u : State} (h : LostKept s u) : LostKept s (u.pscEvent g sub arg fault) :=
  ⟨h.out.trans (pscEvent_prefix ..), fun n i hl => by rw [pscEvent_pg]; exact h.kept n i hl⟩

theorem LostKept.journalGroup {g : Nat} {s u : State} (h : LostKept s u) : LostKept s (u.journalGroup g) :=
  h.trans (.of_psc (journalGroup_part (by simp) g u) (journalGroup_part (by simp) g u))

theorem LostKept.lockGroup {g cause : Nat} {s u : State} (h : LostKept s u) : LostKept s (u.lockGroup g cause) := by
  unfold State.lockGroup
  exact (h.onPg (by exact fun _ => rfl)).pscEvent

/-- A mark set where there was none leaves the others. -/
theorem setLost {l : List Nat} {h n c : Nat} (hl : c ≠ 0 ∨ l.getD h 0 = 0) (hn : (l.getD n 0 == 0) = false) : ((l.set h c).getD n 0 == 0) = false := by
  by_cases hh : n = h
  · subst hh
    rw [beq_eq_false_iff_ne] at hn ⊢
    rcases hl with hc | h0
    · by_cases hlen : n < l.length
      · simpa [List.getD_eq_getElem?_getD, hlen] using hc
      · rw [List.set_eq_of_length_le (by omega)]
        exact hn
    · exact absurd h0 hn
  · simpa [List.getD_eq_getElem?_getD, List.getElem?_set_ne (Ne.symm hh)] using hn

/-- A group as a loss of one of its phases leaves it, before the loss is recorded. -/
def PGroup.losing (m : GroupMap) (temps : List Int) (h cause : Nat) (p : PGroup) : PGroup :=
  let p1 := { p with lost := p.lost.set h cause, en := p.en.set h false
                     senseLoss := if cause = 1 ∨ cause = 2 then incSat p.senseLoss else p.senseLoss
                     linkLoss := if cause = 3 then incSat p.linkLoss else p.linkLoss }
  if p.on h ∧ p.st = .running then addOne m temps p1 else p1

theorem losing_lost (m : GroupMap) (temps : List Int) (h cause : Nat) (p : PGroup) : (p.losing m temps h cause).lost = p.lost.set h cause := by
  unfold PGroup.losing
  dsimp only
  split
  · obtain ⟨en, ilv, he⟩ := addOne_kept m temps { p with
      lost := p.lost.set h cause, en := p.en.set h false
      senseLoss := if cause = 1 ∨ cause = 2 then incSat p.senseLoss else p.senseLoss
      linkLoss := if cause = 3 then incSat p.linkLoss else p.linkLoss }
    rw [he]
  · rfl

/-- The records of a loss. -/
def State.recordLoss (m : GroupMap) (g h cause : Nat) (lock : Bool) (s : State) : State :=
  let s1 := s.pscEvent g 0x03 (h * 256 + cause) (some 0x0402)
  let s2 := if lock then s1.lockGroup g 2 else s1
  (s2.journalGroup g).refreshGroup m g

theorem recordLoss_lost (m : GroupMap) (g h cause : Nat) (lock : Bool) (s : State) : LostKept s (s.recordLoss m g h cause lock) := by
  unfold State.recordLoss
  dsimp only
  refine LostKept.refreshGroup (LostKept.journalGroup ?_)
  split
  · exact (LostKept.refl s).pscEvent.lockGroup
  · exact (LostKept.refl s).pscEvent

theorem losePhase_new {m : GroupMap} {g h cause : Nat} {s : State} (h0 : ¬(s.pg g).lost.getD h 0 ≠ 0) : s.losePhase m g h cause =
    (s.onPg g (fun _ => ((s.pg g).losing m (s.temps m) h cause).setIlv m)).recordLoss m g h cause
      (((s.pg g).losing m (s.temps m) h cause).nAv m.nPh = 0 ∧ (s.pg g).mode ≠ .locked) := by
  unfold State.losePhase State.recordLoss
  simp only [h0, if_false, decide_eq_true_eq]
  rfl

/-- A phase that is declared lost (R207) leaves every other mark. -/
theorem losePhase_lost (m : GroupMap) (g h cause : Nat) (s : State) : LostKept s (s.losePhase m g h cause) := by
  by_cases h0 : (s.pg g).lost.getD h 0 ≠ 0
  · unfold State.losePhase
    dsimp only
    rw [if_pos h0]
    split
    · refine LostKept.journalGroup (onPg_lost s fun n hn => ?_)
      exact setLost (l := (s.pg g).lost) (.inl (by decide)) hn
    · exact .refl s
  · rw [losePhase_new h0]
    refine (onPg_lost s fun n hn => ?_).trans (recordLoss_lost ..)
    change (((s.pg g).losing m (s.temps m) h cause).lost.getD n 0 == 0) = false
    rw [losing_lost]
    exact setLost (.inr (by simpa using h0)) hn

/-- A phase that is declared lost is LOST. -/
theorem losePhase_marks {m : GroupMap} {g h cause : Nat} {s : State} (hg : g < s.psc.groups.length) (hh : h < (s.pg g).lost.length) (hc : cause ≠ 0) :
    ((s.losePhase m g h cause).pg g).avail h = false := by
  by_cases h0 : (s.pg g).lost.getD h 0 ≠ 0
  · exact (losePhase_lost m g h cause s).kept g h (by rw [PGroup.avail, beq_eq_false_iff_ne]; exact h0)
  · rw [losePhase_new h0]
    refine (recordLoss_lost ..).kept g h ?_
    rw [onPg_pg _ hg]
    change (((s.pg g).losing m (s.temps m) h cause).lost.getD h 0 == 0) = false
    rw [losing_lost, beq_eq_false_iff_ne]
    simpa [List.getD_eq_getElem?_getD, hh] using hc

theorem startRetry_lost (now : Nat) (m : GroupMap) (p : PGroup) : (startRetry now m p).lost = p.lost := by
  unfold startRetry
  split <;> rfl

theorem LostKept.tripGroup {m : GroupMap} {g h : Nat} {s u : State} (hu : LostKept s u) : LostKept s (u.tripGroup m g h) := by
  unfold State.tripGroup
  dsimp only
  exact (LostKept.onPg hu (by exact fun p => startRetry_lost ..)).pscEvent.refreshGroup

theorem LostKept.overloadStep {m : GroupMap} {g : Nat} {ma : Int} {s u : State} (hu : LostKept s u) : LostKept s (u.overloadStep m g ma) := by
  unfold State.overloadStep
  dsimp only
  split
  · exact (LostKept.onPg (LostKept.onPg hu (by exact fun _ => rfl)) (by exact fun _ => rfl)).pscEvent.deliverCap
  · split
    · exact (LostKept.onPg (LostKept.onPg hu (by exact fun _ => rfl)) (by exact fun _ => rfl)).pscEvent.deliverCap
    · exact LostKept.onPg hu (by exact fun _ => rfl)

theorem sampleLosses_lost (m : GroupMap) (g : Nat) (s : State) : LostKept s (s.sampleLosses m g) := by
  refine LostKept.foldl (fun u h => ?_) _ s
  split
  · exact .refl u
  · split
    · exact losePhase_lost ..
    · exact .refl u

theorem pscSample_lost (m : GroupMap) (g : Nat) (s : State) : LostKept s (s.pscSample m g) := by
  have htrip {u : State} (h : LostKept s u) : LostKept s (if (u.pg g).st = .running then
      match u.overFast m g with | none => u | some h => u.tripGroup m g h else u) := by
    split
    · split
      · exact h
      · exact h.tripGroup
    · exact h
  have hover {u : State} (h : LostKept s u) (ma : Int) : LostKept s (if (u.pg g).st = .running then u.overloadStep m g ma else u) := by
    split
    · exact h.overloadStep
    · exact h
  unfold State.pscSample State.sumSample
  dsimp only
  exact LostKept.onPg (hover (htrip (sampleLosses_lost m g s)) _) (by exact fun _ => rfl)

theorem trySample_lost (g : Nat) (s : State) : LostKept s (s.trySample g) := by
  unfold State.trySample
  split
  · exact .refl s
  next m _ =>
    split
    · refine LostKept.trans (t := (s.pscSample m g).laneSample m g ((s.pg g).st = .running)) ?_ (LostKept.foldl (f := fun s l => s.onLink l _) (fun u l => .of_psc rfl rfl) _ _)
      exact (pscSample_lost m g s).trans (.of_psc (laneSample_part (by simp) ..) (laneSample_part (by simp) ..))
    · exact .refl s

theorem trySampleOf_lost (l : Nat) (s : State) : LostKept s (s.trySampleOf l) := by
  unfold State.trySampleOf
  split
  · exact .refl s
  · exact trySample_lost ..

end Sys2Proof.Machine
end
section
/-! PROOFS. The phase-link commands -/

namespace Sys2Proof.Machine

open Sys2Proof

/-! ### Frames that go down a link -/

/-- A step that changes one link's record, and what goes out. -/
structure LinkStep (l : Nat) (s t : State) : Prop where
  others : ∀ n, n ≠ l → t.link n = s.link n
  frame : t = { s with pla := { s.pla with links := t.pla.links }, out := t.out, free := t.free }

theorem LinkStep.trans {l : Nat} {s t v : State} (h1 : LinkStep l s t) (h2 : LinkStep l t v) : LinkStep l s v := by
  refine ⟨fun n hn => (h2.others n hn).trans (h1.others n hn), ?_⟩
  rw [h2.frame, h1.frame]

theorem onLink_step (l : Nat) (f : Link → Link) (s : State) : LinkStep l s (s.onLink l f) := ⟨fun _ hn => onLink_link_of_ne hn s f, rfl⟩

theorem sendLine_step (l : Nat) (sof : Byte) (chars : List Byte) (s : State) : LinkStep l s (s.sendLine l sof chars) :=
  ⟨fun _ hn => onLink_link_of_ne hn s.took _, rfl⟩

theorem LinkStep.onlyLink {l : Nat} {s t : State} (h : LinkStep l s.start t) : OnlyLink l s t := ⟨h.others, by rw [h.frame]; rfl⟩

theorem LinkStep.length {l : Nat} {f : Link → Link} {s : State} {n : Nat} (h : n = s.pla.links.length) : n = (s.onLink l f).pla.links.length :=
  h.trans (onLink_length l f s).symm

theorem sendLine_link {l : Nat} {s : State} (h : l < s.pla.links.length) (sof : Byte) (chars : List Byte) :
    (s.sendLine l sof chars).link l = { s.link l with rd := (s.lineGroups l sof chars).2 } := onLink_link (s := s.took) _ h

theorem sendLine_length (l : Nat) (sof : Byte) (chars : List Byte) (s : State) : (s.sendLine l sof chars).pla.links.length = s.pla.links.length :=
  onLink_length l _ s.took

theorem sendLine_out (l : Nat) (sof : Byte) (chars : List Byte) (s : State) :
    (s.sendLine l sof chars).out = s.out ++ [.line l (s.lineGroups l sof chars).1] := rfl

/-- The sequence number of the next COMMAND frame (Table 08-3). -/
def Link.nextSeq (k : Link) : Nat := match k.seq with | none => 0 | some n => (n + 1) % 256

theorem nextSeq_eq (k : Link) : k.nextSeq = (k.seq.map (fun n => (n + 1) % 256)).getD 0 := by
  unfold Link.nextSeq
  cases k.seq <;> rfl

/-- The characters of a COMMAND frame (Table 08-3). -/
def State.commandChars (s : State) (l : Nat) (c : Cmd) : List Byte :=
  withCrc16 (le 2 c.duty ++ le 2 c.shift ++ le 1 (b2n c.en * 16 + s.deadTime l % 16) ++ le 1 (s.link l).nextSeq ++
    le 2 (s.link l).answers ++ le 1 (b2n c.held * 2 + b2n c.safe))

theorem sendCommand_eq (l : Nat) (c : Cmd) (s : State) : s.sendCommand l c = (s.sendLine l sofCommand (s.commandChars l c)).onLink l
    (fun k => { k with seq := some (s.link l).nextSeq, slot := none, owes := false }) := by
  rfl

theorem sendCommand_link {l : Nat} {s : State} (h : l < s.pla.links.length) (c : Cmd) : (s.sendCommand l c).link l = { s.link l with
    rd := (s.lineGroups l sofCommand (s.commandChars l c)).2, seq := some (s.link l).nextSeq, slot := none, owes := false } := by
  rw [sendCommand_eq, onLink_link _ (by rw [sendLine_length]; exact h), sendLine_link h]

theorem sendCommand_step (l : Nat) (c : Cmd) (s : State) : LinkStep l s (s.sendCommand l c) := by
  rw [sendCommand_eq]
  exact (sendLine_step ..).trans (onLink_step ..)

theorem sendCommand_length (l : Nat) (c : Cmd) (s : State) : (s.sendCommand l c).pla.links.length = s.pla.links.length := by
  rw [sendCommand_eq, onLink_length, sendLine_length]

/-! ### The commands -/

theorem refsKept_of_banks {s t : State} (h : part .banks t = part .banks s) : RefsKept s t := lane_of_banks h

theorem running_of {q : Sqe} {s t : State} (h : OwnedAs q.fn q.sq (cidOf q) s) (hf : part .fwd t = part .fwd (s.start.accept q))
    (hr : part .ready t = part .ready s) : Running q s t := by
  obtain ⟨hothers, hany, -⟩ := s.start.accept_fwd q h
  have hf' : t.hqe.fwd = (s.start.accept q).hqe.fwd := hf
  refine ⟨hr, ?_, by rw [hf']; exact hothers⟩
  rw [hf']
  simpa using List.any_eq_true.mp hany

theorem memberOf_group {c : Cfg} {l g h : Nat} (hm : c.memberOf l = some (g, h)) : ∃ m, c.group g = some m := by
  obtain ⟨x, -, hx⟩ := List.exists_of_findSome?_eq_some hm
  split at hx
  next hc =>
    simp only [Option.some.injEq, Prod.mk.injEq] at hx
    obtain ⟨rfl, -⟩ := hx
    unfold Cfg.members at hc
    split at hc
    · simp at hc
    next m hg => exact ⟨m, hg⟩
  · exact absurd hx (by simp)

theorem linkSt_code_lt (k : LinkSt) : k.code < 256 := by cases k <;> decide

theorem linkRecord_eq (l : Nat) (s : State) : ∃ g h, linkRecord l s =
    le 1 (s.link l).st.code ++ le 1 (s.link l).cause ++ le 1 g ++ le 1 h ++ le 1 (s.link l).rate ++ le 1 (s.link l).flags ++
    le 1 (s.link l).tstate ++ le 1 (s.link l).attempts ++ le 2 (s.link l).echo ++ le 2 (s.link l).count ++ le 1 ((s.link l).seq.getD 0) ++
    le 1 (s.link l).ack ++ le 2 (s.link l).tcv ++ le 4 (s.link l).ifs ++ le 4 (s.link l).crcErr ++ le 4 (s.link l).posErr ++
    le 4 (s.link l).codeErr ++ le 4 (s.link l).cmdErr ++ le 4 (s.link l).downs ++ le 4 (s.link l).retrains ++ zeros 4 := ⟨_, _, rfl⟩

/-- The fields of a LINK_STATUS record (Table 08-13). -/
theorem linkRecord_fields (l : Nat) (s : State) : (linkRecord l s).length = 48 ∧ u (linkRecord l s) 0 1 = (s.link l).st.code ∧
    u (linkRecord l s) 1 1 = (s.link l).cause % 256 ∧ u (linkRecord l s) 20 4 = (s.link l).crcErr % 2 ^ 32 ∧
    u (linkRecord l s) 24 4 = (s.link l).posErr % 2 ^ 32 ∧ u (linkRecord l s) 28 4 = (s.link l).codeErr % 2 ^ 32 ∧
    u (linkRecord l s) 36 4 = (s.link l).downs % 2 ^ 32 := by
  obtain ⟨g, h, he⟩ := linkRecord_eq l s
  rw [he]
  refine ⟨by simp [zeros], ?_⟩
  simp only [List.append_assoc]
  simp (disch := decide) only [u_le_zero, u_le_skip, Nat.reduceSub]
  exact ⟨Nat.mod_eq_of_lt (linkSt_code_lt _), rfl, rfl, rfl, rfl, rfl⟩

/-- A link as LINK_RETRAIN's first attempt finds it (R240). -/
def Link.retraining (q : Sqe) (k : Link) : Link := { k with attempts := 0, powerUp := false, retrain := some (q.sq, cidOf q) }

/-- A link whose training attempt has begun with its lock step (R234). -/
def Link.begun (k : Link) : Link :=
  { k with
    st := .train, step := .lock, waiting := false, attempts := k.attempts + 1, sched := false, got := none, fresh := false, run := 0
    bad := 0, echoes := [], identTag := none, resent := false, slot := none, owes := false, errs := []
    retrains := if k.powerUp then k.retrains else incSat k.retrains }

theorem beginAttempt_eq (l : Nat) (s : State) : s.beginAttempt l = s.onLink l Link.begun := rfl

theorem linkRetrain_begins {q : Sqe} {s : State} (h : (s.link (sd q 1)).st = .off ∨ (s.link (sd q 1)).st = .down ∨ (s.link (sd q 1)).st = .failed) :
    linkRetrain q s = ((s.onLink (sd q 1) (Link.retraining q)).beginAttempt (sd q 1)).trySampleOf (sd q 1) := by
  unfold linkRetrain
  dsimp only
  rw [if_neg (by rcases h with h | h | h <;> rw [h] <;> simp), if_neg (by rcases h with h | h | h <;> rw [h] <;> simp)]
  rfl

/-- A link whose LOST mark `linkLost` sets stays lost. -/
theorem linkLost_lost (l cause : Nat) (s : State) : LostKept s (s.linkLost l cause) := by
  unfold State.linkLost
  split
  · exact .refl s
  · split
    · exact .refl s
    · exact losePhase_lost ..

theorem linkLost_marks {l cause g h : Nat} {s : State} (hc : cause ≠ 0) (hm : s.conf.memberOf l = some (g, h)) (hg : g < s.psc.groups.length)
    (hh : h < (s.pg g).lost.length) : ((s.linkLost l cause).pg g).avail h = false := by
  obtain ⟨m, hgm⟩ := memberOf_group hm
  have he : s.linkLost l cause = s.losePhase m g h cause := by
    unfold State.linkLost
    rw [hm]
    dsimp only
    rw [hgm]
  rw [he]
  exact losePhase_marks hg hh hc

/-- A link that LINK_DISABLE has turned off (R239). -/
def Link.disabled (k : Link) : Link :=
  { k with st := .off, cause := 6, step := .none, waiting := false, powerUp := false, sched := false, got := none, fresh := false, slot := none }

theorem linkDisable_turnsOff {q : Sqe} {s : State} (h : (s.link (sd q 1)).st ≠ .off) (hr : (s.link (sd q 1)).retrain = none)
    (hl : sd q 1 < s.pla.links.length) : linkDisable q s =
    ((((s.sendCommand (sd q 1) Cmd.safeCmd).onLink (sd q 1) Link.disabled).linkLost (sd q 1) 4).trySampleOf (sd q 1)).done q stDONE 0 := by
  have hn : ((((s.sendCommand (sd q 1) Cmd.safeCmd).onLink (sd q 1) Link.disabled).linkLost (sd q 1) 4).link (sd q 1)).retrain = none := by
    rw [link_of_links (congrArg Pla.links (linkLost_pla ..)), onLink_link _ (by rw [sendCommand_length]; exact hl), sendCommand_link hl]
    exact hr
  unfold linkDisable
  dsimp only
  rw [if_neg h]
  exact congrArg (fun u : State => (u.trySampleOf (sd q 1)).done q stDONE 0) (endRetrain_none hn)

theorem safe_commandChars (l : Nat) (s : State) : s.commandChars l Cmd.safeCmd = withCrc16 ([0, 0, 0, 0] ++ le 1 (s.deadTime l % 16) ++
    le 1 (((s.link l).seq.map (fun n => (n + 1) % 256)).getD 0) ++ le 2 (s.link l).answers ++ [1]) := by
  have h2 : le 2 0 = [0, 0] := by decide
  have h1 : le 1 (b2n false * 2 + b2n true) = [1] := by decide
  have hb : b2n false * 16 + s.deadTime l % 16 = s.deadTime l % 16 := Nat.zero_add _
  simp only [State.commandChars, Cmd.safeCmd, h2, h1, hb, nextSeq_eq, List.append_assoc, List.cons_append, List.nil_append]

/-- The phase-link commands. -/
theorem linkCommands : Claim.LinkCommands := by
  unfold Claim.LinkCommands
  refine ⟨?status, ?retrain, ?training, ?available, ?isOff, ?disable, ?mgmt, ?mgmtRefused⟩
  case status =>
    intro q s n h hr
    refine answers_taken rfl h (rangeParams_ok hr) ⟨?_, fun l => linkRecord_fields l s⟩
    obtain ⟨rfl, -⟩ := hr
    exact replyDone_readOnly h.2.1
  case retrain =>
    intro q s h hlt hlen hst
    refine answers_taken rfl h (by simp [hlt]) ?_
    rw [linkRetrain_begins (s := s.start.accept q) hst]
    generalize hu : (((s.start.accept q).onLink (sd q 1) (Link.retraining q)).beginAttempt (sd q 1)) = u
    have hlink : u.link (sd q 1) = ((s.link (sd q 1)).retraining q).begun := by
      rw [← hu]
      exact (onLink_link (s := (s.start.accept q).onLink (sd q 1) (Link.retraining q)) Link.begun (by rw [onLink_length]; exact hlen)).trans
        (congrArg Link.begun (onLink_link (s := s.start.accept q) _ hlen))
    have hcore := (trySampleOf_core (sd q 1) (sd q 1) u).trans (congrArg Link.core hlink)
    have hfwd := trySampleOf_part (π := .fwd) (by simp) (sd q 1) u
    have hready := trySampleOf_part (π := .ready) (by simp) (sd q 1) u
    have hbanks := trySampleOf_part (π := .banks) (by simp) (sd q 1) u
    subst hu
    exact ⟨running_of h.2.1 hfwd hready, (congrArg Link.st hcore :), (congrArg Link.step hcore :), (congrArg Link.attempts hcore :),
      (congrArg Link.retrain hcore :), (congrArg Link.retrains hcore :), refsKept_of_banks hbanks⟩
  case training =>
    intro q s h hlt hst
    refine answers_taken rfl h (by simp [hlt]) ?_
    rw [linkRetrain, if_pos (show ((s.start.accept q).link (sd q 1)).st = .train from hst)]
    exact done_onlyCompletes h.2.1
  case available =>
    intro q s g n h hlt hst hm hav
    refine answers_taken rfl h (by simp [hlt]) ?_
    have hst' : ((s.start.accept q).link (sd q 1)).st = .up := hst
    have hph : (s.start.accept q).noPhase (sd q 1) = false := by
      unfold State.noPhase
      rw [show (s.start.accept q).conf.memberOf (sd q 1) = some (g, n) from hm]
      exact congrArg (!·) hav
    rw [linkRetrain, if_neg (by rw [hst']; simp), if_pos (by rw [hst', hph]; rfl)]
    exact done_onlyCompletes h.2.1
  case isOff =>
    intro q s h hlt hst
    refine answers_taken rfl h (by simp [hlt]) ?_
    rw [linkDisable, if_pos (show ((s.start.accept q).link (sd q 1)).st = .off from hst)]
    exact done_onlyCompletes h.2.1
  case disable =>
    intro q s h hlt hlen hst hret
    refine answers_taken rfl h (by simp [hlt]) ?_
    rw [linkDisable_turnsOff (s := s.start.accept q) hst hret hlen]
    generalize hu : ((s.start.accept q).sendCommand (sd q 1) Cmd.safeCmd).onLink (sd q 1) Link.disabled = u
    have hlink : u.link (sd q 1) = (((s.start.accept q).sendCommand (sd q 1) Cmd.safeCmd).link (sd q 1)).disabled := by
      rw [← hu]
      exact onLink_link (s := (s.start.accept q).sendCommand (sd q 1) Cmd.safeCmd) _ (by rw [sendCommand_length]; exact hlen)
    have hcore := (trySampleOf_core (sd q 1) (sd q 1) (u.linkLost (sd q 1) 4)).trans (congrArg Link.core
      ((link_of_links (congrArg Pla.links (linkLost_pla ..)) (sd q 1)).trans hlink))
    have hlost := (linkLost_lost (sd q 1) 4 u).trans (trySampleOf_lost (sd q 1) _)
    have hpart {π : Part} (hp : π ∉ [.rings, .tmf, .faults, .sj, .spa, .kce, .psc, .pla, .out, .free]) :=
      (trySampleOf_part hp (sd q 1) (u.linkLost (sd q 1) 4)).trans (linkLost_part (by simp at hp ⊢; tauto) (sd q 1) 4 u)
    have hmarks (g n : Nat) := linkLost_marks (l := sd q 1) (cause := 4) (g := g) (h := n) (s := u) (by decide)
    have hafter := trySampleOf_lost (sd q 1) (u.linkLost (sd q 1) 4)
    have hpla (t : State) : (t.done q stDONE 0).pla = t.pla := t.done_pla ..
    generalize hv : (u.linkLost (sd q 1) 4).trySampleOf (sd q 1) = v at *
    have hvlink : (v.done q stDONE 0).link (sd q 1) = v.link (sd q 1) := link_of_links (by rw [hpla]) _
    have hfwd := hpart (π := .fwd) (by simp)
    have hready := hpart (π := .ready) (by simp)
    have hbanks := hpart (π := .banks) (by simp)
    subst hu
    refine ⟨State.done_completed h.2.1 hfwd hready, ?_, ?_, ?_, ?_, refsKept_of_banks ((done_part (by simp) ..).trans hbanks)⟩
    · rw [hvlink]; exact (congrArg Link.st hcore :)
    · rw [hvlink]; exact (congrArg Link.cause hcore :)
    · rw [← safe_commandChars, State.done_out]
      obtain ⟨rest, hrest⟩ := hlost.out
      rw [← hrest]
      rw [sendCommand_eq]
      rfl
    · intro g n hm hg hn
      rw [show (v.done q stDONE 0).pg g = v.pg g from pg_of_part (done_part (by simp) ..) g]
      exact hafter.kept g n (hmarks g n hm hg hn)
  case mgmt =>
    intro q s h hlt hlen hw h71 hn1 hn2 ha hlen4 hst hmg
    refine answers_taken rfl h (by simp [mgmtParams, hlt, hw, h71, hn1, hn2, ha, hlen4]) ?_
    have he : linkMgmt q (s.start.accept q) = (s.start.accept q).onLink (sd q 1) (fun k => { k with
        mgmt := some ⟨q.sq, cidOf q, false, bits (sd q 6) 15 8, bits (sd q 6) 31 16, [], addrOf q, 0, false⟩ }) := by
      have hst' : ((s.start.accept q).link (sd q 1)).st = .up := hst
      have hmg' : ((s.start.accept q).link (sd q 1)).mgmt = none := hmg
      unfold linkMgmt
      simp only [hst', hmg', hw]
      rfl
    rw [he]
    obtain ⟨hrun, hrings⟩ := accept_running (q := q) (s := s) (t := (s.start.accept q).onLink (sd q 1) (fun k => { k with
        mgmt := some ⟨q.sq, cidOf q, false, bits (sd q 6) 15 8, bits (sd q 6) 31 16, [], addrOf q, 0, false⟩ })) h.2.1 rfl
    exact ⟨hrun, rfl, hrings, onLink_link (s := s.start.accept q) _ hlen, fun n hn => onLink_link_of_ne hn _ _, rfl⟩
  case mgmtRefused =>
    intro q s h hlt hw h2 h3 h4 h71 hn1 hn2 ha0 ha
    have hp : ∀ p ∈ mgmtParams q, p.1 = true := by simp [mgmtParams, hlt, hw, h2, h3, h4, h71, hn1, hn2, ha0, ha]
    refine ⟨fun hst => answers_taken rfl h hp ?_, fun hst hmg => answers_taken rfl h hp ?_⟩
    · rw [linkMgmt, if_pos (show ((s.start.accept q).link (sd q 1)).st ≠ .up from hst)]
      exact done_onlyCompletes h.2.1
    · rw [linkMgmt, if_neg (by rw [show ((s.start.accept q).link (sd q 1)).st = .up from hst]; simp),
        if_pos (show ((s.start.accept q).link (sd q 1)).mgmt.isSome = true from hmg)]
      exact done_onlyCompletes h.2.1

end Sys2Proof.Machine
end
section
/-! PROOFS. Received frames, and the training of a link -/

namespace Sys2Proof.Machine

open Sys2Proof

/-! ### Received frames -/

/-- A run of groups without a code error has none to count. -/
theorem lineErrors_nil {rd : Bool} {groups : List Nat} (h : ∀ x ∈ receiveLine rd groups, x.isLeft = true) : lineErrors rd groups = [] := by
  unfold lineErrors
  rw [List.filterMap_eq_nil_iff]
  intro x hx
  have hm := List.fst_mem_of_mem_zipIdx hx
  cases hc : x.1 with
  | inl c => rfl
  | inr e => simpa [hc] using h _ hm

/-- A frame received without an error holds no code error. -/
theorem lineErrors_of_rxFrame {sof : Nat} {rd : Bool} {groups : List Nat} {d : List Byte} (h : rxFrame sof rd groups = some (d, false)) :
    lineErrors rd groups = [] := by
  unfold rxFrame at h
  split at h
  next c rest hr =>
    split at h
    · simp only [Option.some.injEq, Prod.mk.injEq, List.any_eq_false] at h
      refine lineErrors_nil fun x hx => ?_
      rw [hr] at hx
      rcases List.mem_cons.mp hx with rfl | hx
      · rfl
      · cases x with
        | inl d => rfl
        | inr e => exact absurd rfl (h.2 _ hx)
    · simp at h
  · simp at h

theorem lineHeard_silent {l : Nat} {rd : Bool} {groups : List Nat} {s : State} (h : lineErrors rd groups = []) : s.lineHeard l rd groups = s := by
  unfold State.lineHeard
  rw [h]

/-! ### The CRC of a frame -/

theorem crc16Bit_lt (c : Nat) : crc16Bit c < 2 ^ 16 := by
  have h : c * 2 % 65536 < 2 ^ 16 := Nat.mod_lt _ (by decide)
  unfold crc16Bit
  split
  · exact Nat.xor_lt_two_pow h (by decide)
  · exact h

theorem crc16_lt (b : List Byte) : crc16 b < 2 ^ 16 := by
  unfold crc16
  induction b using List.reverseRecOn with
  | nil => decide
  | append_singleton b x ih =>
    rw [List.foldl_append]
    exact crc16Bit_lt _

theorem be_two (v : Nat) : be 2 v = [BitVec.ofNat 8 (v / 256), BitVec.ofNat 8 v] := rfl

/-- The two CRC bytes behind a frame's characters check. -/
theorem crc16_checks (b : List Byte) : crc16 ((withCrc16 b).take b.length) =
    ((withCrc16 b).getD b.length 0).toNat * 256 + ((withCrc16 b).getD (b.length + 1) 0).toNat := by
  have hlt := crc16_lt b
  have h0 : (withCrc16 b).getD b.length 0 = BitVec.ofNat 8 (crc16 b / 256) := by
    simp [withCrc16, be_two]
  have h1 : (withCrc16 b).getD (b.length + 1) 0 = BitVec.ofNat 8 (crc16 b) := by
    simp [withCrc16, be_two]
  rw [h0, h1, show (withCrc16 b).take b.length = b from List.take_left]
  simp only [BitVec.toNat_ofNat]
  omega

/-- What an MGMT frame with its CRC gives back: its operation, tag, count and data (Table 08-4). -/
theorem mgmt_fields {op : Byte} {tag n : Nat} {a data : List Byte} (ha : a.length = 2) (hd : data.length = n) (hn : n < 256) (ht : tag < 256) :
    mgmtOk (withCrc16 ([op] ++ le 1 tag ++ a ++ le 1 n ++ data)) = true ∧
    u (withCrc16 ([op] ++ le 1 tag ++ a ++ le 1 n ++ data)) 0 1 = op.toNat ∧ u (withCrc16 ([op] ++ le 1 tag ++ a ++ le 1 n ++ data)) 1 1 = tag ∧
    u (withCrc16 ([op] ++ le 1 tag ++ a ++ le 1 n ++ data)) 4 1 = n ∧
    ((withCrc16 ([op] ++ le 1 tag ++ a ++ le 1 n ++ data)).drop 5).take n = data := by
  obtain ⟨x, y, rfl⟩ : ∃ x y, a = [x, y] := by
    match a, ha with
    | [x, y], _ => exact ⟨x, y, rfl⟩
  have hcount : u (withCrc16 ([op] ++ le 1 tag ++ [x, y] ++ le 1 n ++ data)) 4 1 = n := by
    simp [withCrc16, u, le, leVal, Nat.mod_eq_of_lt hn]
  refine ⟨?_, by simp [withCrc16, u, leVal], by simp [withCrc16, u, le, leVal, Nat.mod_eq_of_lt ht], hcount, ?_⟩
  · have hlen : ([op] ++ le 1 tag ++ [x, y] ++ le 1 n ++ data).length = 5 + n := by simp [hd]; omega
    have hc := crc16_checks ([op] ++ le 1 tag ++ [x, y] ++ le 1 n ++ data)
    rw [hlen] at hc
    unfold mgmtOk
    rw [hcount, hc, show 5 + n + 1 = 6 + n by omega]
    have hall : (withCrc16 ([op] ++ le 1 tag ++ [x, y] ++ le 1 n ++ data)).length = 7 + n := by
      rw [withCrc16, List.length_append, hlen, be_two]
      simp only [List.length_cons, List.length_nil]
      omega
    rw [hall]
    simp
  · subst hd
    simp [withCrc16, le]

/-! ### Training -/

theorem lineGroups_congr {l : Nat} {s t : State} (hrd : (t.link l).rd = (s.link l).rd) (hf : t.free = s.free) (sof : Byte) (chars : List Byte) :
    t.lineGroups l sof chars = s.lineGroups l sof chars := by
  unfold State.lineGroups
  rw [hrd, hf]

theorem execEchoAnswer_good {l e : Nat} {b : Byte} {f : LineFrame} {s : State} (h : rxFrame 0x7C f.rd f.groups = some ([b], false)) :
    exec (.echoAnswer l f e) s = .next (echoAnswer l b e s.start) := by
  change execEchoAnswer l f e s = _
  unfold execEchoAnswer
  dsimp only
  rw [lineHeard_silent (lineErrors_of_rxFrame h), show sofEcho.toNat = 0x7C from rfl, h]

theorem execMgmtFrame_good {l : Nat} {rd : Bool} {groups : List Nat} {d : List Byte} {s : State} (h : rxFrame 0xF7 rd groups = some (d, false)) :
    exec (.mgmtFrame l rd groups) s = .next (mgmtFrame l d false s.start) := by
  change execMgmtFrame l rd groups s = _
  unfold execMgmtFrame
  dsimp only
  rw [lineHeard_silent (lineErrors_of_rxFrame h), show sofMgmt.toNat = 0xF7 from rfl, h]

/-- A link whose Ident READ has gone out. -/
def Link.asked (k : Link) : Link := { k with identTag := some k.tag, tag := (k.tag + 1) % 256 }

theorem sendIdent_eq {l : Nat} {s : State} (hst : (s.link l).st = .train) (hstep : (s.link l).step = .ident) (hm : (s.link l).mgmt = none) :
    s.sendIdent l = (s.sendLine l sofMgmt (mgmtChars 0 (s.link l).tag 0 32 [])).onLink l Link.asked := by
  unfold State.sendIdent
  dsimp only
  rw [if_neg (by rw [hst, hstep, hm]; simp)]
  rfl

theorem identChars (tag : Nat) : mgmtChars 0 tag 0 32 [] = withCrc16 ([0] ++ le 1 tag ++ [0, 0, 32]) := by
  unfold mgmtChars
  rw [show le 1 (0 * 16) = [0] from rfl, show le 2 0 = [0, 0] from rfl, show le 1 32 = [32] from rfl]
  simp only [List.append_assoc, List.cons_append, List.nil_append]

theorem sendIdent_kept {l : Nat} {s : State} (hl : l < s.pla.links.length) (hst : (s.link l).st = .train) (hstep : (s.link l).step = .ident)
    (hm : (s.link l).mgmt = none) : (s.sendIdent l).link l = { s.link l with
      rd := ((s.sendIdent l).link l).rd, identTag := some (s.link l).tag, tag := ((s.link l).tag + 1) % 256 } ∧
    (s.sendIdent l).out = s.out ++ [.line l (s.lineGroups l 0xF7 (withCrc16 ([0] ++ le 1 (s.link l).tag ++ [0, 0, 32]))).1] ∧
    LinkStep l s (s.sendIdent l) ∧ (s.sendIdent l).pla.links.length = s.pla.links.length := by
  rw [sendIdent_eq hst hstep hm]
  refine ⟨?_, ?_, (sendLine_step ..).trans (onLink_step ..), by rw [onLink_length, sendLine_length]⟩
  · rw [onLink_link _ (by rw [sendLine_length]; exact hl), sendLine_link hl]
    rfl
  · rw [← identChars]
    rfl

/-- The D of a SYNC, behind the whole characters of E (R224, R225). -/
theorem reach_le (k : Link) : k.tcv + 2000 ≤ 80 * ((k.tcv + 2079) / 80) ∧ k.reach = k.echo / 80 + (k.tcv + 2079) / 80 := ⟨by omega, rfl⟩

theorem meetPosition_le (f rate need : Nat) : (∃ k, meetPosition f rate need = f + k * (periodNs rate / 20)) ∧ need ≤ meetPosition f rate need := by
  refine ⟨⟨_, rfl⟩, ?_⟩
  have hpos : 0 < periodNs rate / 20 := by
    unfold periodNs
    split <;> decide
  unfold meetPosition
  dsimp only
  have h := Nat.div_add_mod (need - f + (periodNs rate / 20 - 1)) (periodNs rate / 20)
  have hm := Nat.mod_lt (need - f + (periodNs rate / 20 - 1)) hpos
  rw [Nat.mul_comm] at h
  omega

/-- The character in which frame 0 begins (R225, R236). -/
def State.frame0 (s : State) (l rate : Nat) : Nat :=
  match ((s.conf.memberOf l).map Prod.fst).bind (fun g => s.pla.pos.getD g none) with
  | some f => meetPosition f rate (s.gridChar + (s.link l).reach)
  | none => s.gridChar + (s.link l).reach

theorem frame0_le (l rate : Nat) (s : State) : s.gridChar + (s.link l).reach ≤ s.frame0 l rate := by
  unfold State.frame0
  split
  · exact (meetPosition_le ..).2
  · exact Nat.le_refl _

theorem frame0_meets {l rate p : Nat} {x : Nat × Nat} {s : State} (hx : s.conf.memberOf l = some x) (hp : s.pla.pos.getD x.1 none = some p) :
    ∃ k, s.frame0 l rate = p + k * (periodNs rate / 20) := by
  unfold State.frame0
  rw [hx]
  simp only [Option.map_some, Option.bind_some, hp]
  exact (meetPosition_le ..).1

/-- A link whose schedule a SYNC has set. -/
def Link.synced (rate f0 : Nat) (k : Link) : Link :=
  { k with rate := rate, sched := true, pos := 0, f0 := f0, owes := false, bad := 0, good := 0, pinned := 0, run := 0, got := none, fresh := false }

/-- The SYNC of a link on its way (Table 08-5). -/
def State.syncSent (l rate : Nat) (s : State) : State :=
  s.took.sendLine l sofSync (withCrc16 (le 1 rate ++ le 2 (s.frame0 l rate - s.gridChar - (s.link l).echo / 80)))

/-- The same with the position of the link's group, where it is the first of it (R236). -/
def State.syncPlaced (l rate : Nat) (s : State) : State :=
  match (s.conf.memberOf l).map Prod.fst with
  | some g => (s.syncSent l rate).onPla (fun p => { p with pos := upd p.pos g (fun o => some (o.getD (s.frame0 l rate))) })
  | none => s.syncSent l rate

theorem sendSync_eq (l rate : Nat) (s : State) : s.sendSync l rate = (s.syncPlaced l rate).onLink l (Link.synced rate (s.frame0 l rate)) := rfl

theorem syncPlaced_links (l rate : Nat) (s : State) : (s.syncPlaced l rate).pla.links = (s.syncSent l rate).pla.links := by
  unfold State.syncPlaced
  split <;> rfl

theorem syncPlaced_out (l rate : Nat) (s : State) : (s.syncPlaced l rate).out = (s.syncSent l rate).out := by
  unfold State.syncPlaced
  split <;> rfl

theorem syncPlaced_frame (l rate : Nat) (s : State) : s.syncPlaced l rate =
    { s with pla := (s.syncPlaced l rate).pla, out := (s.syncPlaced l rate).out, free := (s.syncPlaced l rate).free } := by
  unfold State.syncPlaced
  split <;> rfl

theorem sendSync_kept {l : Nat} {s : State} (hl : l < s.pla.links.length) (rate : Nat) :
    (s.sendSync l rate).link l = ({ s.link l with rd := ((s.sendSync l rate).link l).rd } : Link).synced rate (s.frame0 l rate) ∧
    (s.sendSync l rate).out = s.out ++ [.line l (s.took.lineGroups l 0x3C
      (withCrc16 (le 1 rate ++ le 2 (s.frame0 l rate - s.gridChar - (s.link l).echo / 80)))).1] ∧
    (∀ n, n ≠ l → (s.sendSync l rate).link n = s.link n) ∧ (s.sendSync l rate).pla.links.length = s.pla.links.length ∧
    s.sendSync l rate = { s with pla := (s.sendSync l rate).pla, out := (s.sendSync l rate).out, free := (s.sendSync l rate).free } := by
  have hlinks := syncPlaced_links l rate s
  have hout := syncPlaced_out l rate s
  have hframe := syncPlaced_frame l rate s
  rw [sendSync_eq]
  generalize s.syncPlaced l rate = v at *
  have hlen : v.pla.links.length = s.pla.links.length := by rw [hlinks]; exact sendLine_length ..
  have hlink := onLink_link (s := v) (Link.synced rate (s.frame0 l rate)) (n := l) (by rw [hlen]; exact hl)
  have hvl := (link_of_links hlinks l).trans (sendLine_link (s := s.took) hl sofSync _)
  refine ⟨?_, hout, fun n hn => ?_, by rw [onLink_length, hlen], ?_⟩
  · rw [hlink, hvl]
    rfl
  · rw [onLink_link_of_ne hn, link_of_links hlinks n]
    exact onLink_link_of_ne (s := s.took) hn _
  · rw [hframe]
    rfl

/-- The link that the Ident answer's registers are taken into. -/
def Link.ident (d : List Byte) (k : Link) : Link := { k with tcv := u d 0x10 2, ifs := u d 0x14 4, identTag := none }

theorem identAnswer_good {l : Nat} {d : List Byte} {s : State} (h0 : u d 0 1 = 1) (hr : bit (u d 1 1) (s.rateNeeded l) = true) (h1 : 80 ≤ u d 16 2)
    (h2 : u d 16 2 ≤ 960) : identAnswer l d s = ((s.onLink l (Link.ident d)).sendSync l (s.rateNeeded l)).onLink l (fun k => { k with step := .sync }) := by
  unfold identAnswer
  dsimp only
  rw [if_pos ⟨h0, hr, h1, h2⟩]
  rfl

theorem mgmtFrame_ident {l : Nat} {d : List Byte} {s : State} (hst : (s.link l).st = .train) (hstep : (s.link l).step = .ident)
    (htag : (s.link l).identTag = some (u d 1 1)) (hok : mgmtOk d = true) (hop : u d 0 1 / 16 = 8) (hn : u d 4 1 = 32) :
    mgmtFrame l d false s = identAnswer l ((d.drop 5).take 32) s := by
  unfold mgmtFrame
  dsimp only
  rw [hok, if_neg (by simp), if_pos ⟨hst, hstep, htag⟩, if_pos ⟨hop, hn⟩, hn]

/-- A link whose training has ended without success (R234). -/
def Link.gaveUp (k : Link) : Link :=
  { k with
    st := .failed, cause := 5, step := .none, waiting := false, powerUp := false, sched := false, got := none, fresh := false, slot := none }

theorem attemptFails_first {l : Nat} {s : State} (h : (s.link l).attempts < 3) : s.attemptFails l = (s.onLink l (fun k => { k with
    step := .none, waiting := true, sched := false, got := none, fresh := false, slot := none })).trySampleOf l := by
  unfold State.attemptFails
  dsimp only
  rw [if_neg (Nat.not_le_of_lt h)]

theorem attemptFails_last {l : Nat} {s : State} (h : 3 ≤ (s.link l).attempts) : s.attemptFails l =
    ((((s.onLink l Link.gaveUp).endRetrain l).plaEvent l 0x10 ((s.link l).attempts * 256 + (s.link l).step.code) (some 0x0501)).linkLost l 3).trySampleOf l := by
  unfold State.attemptFails
  dsimp only
  rw [if_pos h]
  rfl

/-- Training of a link. -/
theorem linkTraining : Claim.LinkTraining := by
  unfold Claim.LinkTraining
  refine ⟨?attempt, ?delay, ?lock, ?echo, ?echoed, ?noAnswer, ?ident, ?resend, ?timeout, ?failed⟩
  case attempt =>
    intro l s hl hst hstep hw
    have he : exec (.trainingAttempt l) s = .next (s.start.onLink l Link.begun) := by
      change execTrainingAttempt l s = _
      have hc : (s.start.link l).st = .train ∧ (s.start.link l).step = .none ∧ (!(s.start.link l).waiting) = true := ⟨hst, hstep, by
        rw [show (s.start.link l).waiting = false from hw]; rfl⟩
      unfold execTrainingAttempt
      dsimp only
      rw [if_pos hc]
      rfl
    have hlink := onLink_link (s := s.start) Link.begun hl
    exact ⟨_, he, by rw [hlink]; rfl, by rw [hlink]; rfl, by rw [hlink]; rfl, rfl, (onLink_step ..).onlyLink⟩
  case delay =>
    intro l s hl hst hw
    have he : exec (.retrainDelay l) s = .next (s.start.onLink l Link.begun) := by
      change execRetrainDelay l s = _
      have hw' : (s.start.link l).waiting = true := hw
      unfold execRetrainDelay
      dsimp only
      rw [if_neg (by rw [hw']; simp), if_pos (show (s.start.link l).st = .train from hst)]
      rfl
    have hlink := onLink_link (s := s.start) Link.begun hl
    exact ⟨_, he, by rw [hlink]; rfl, by rw [hlink]; rfl, by rw [hlink]; rfl, by rw [hlink]; rfl, rfl, (onLink_step ..).onlyLink⟩
  case lock =>
    intro l s hl hst hstep
    have he : lockStepPass l s.start = (s.start.sendLine l sofEcho [0]).onLink l (fun k => { k with step := .echo, echoes := [] }) := by
      unfold lockStepPass
      rw [if_pos ⟨hst, hstep⟩]
    refine ⟨_, congrArg Host.Outcome.next he, rfl, ?_, ((sendLine_step ..).trans (onLink_step ..)).onlyLink⟩
    rw [onLink_link _ (by rw [sendLine_length]; exact hl), sendLine_link (s := s.start) hl]
    rfl
  case echo =>
    intro l e f b s hl hst hstep hlt hrx
    have he : echoAnswer l b e s.start = (s.start.onLink l (fun k => { k with echoes := (s.link l).echoes ++ [(b, e)] })).sendLine l sofEcho
        [BitVec.ofNat 8 ((s.link l).echoes.length + 1)] := by
      have hst' : (s.start.link l).st = .train := hst
      have hstep' : (s.start.link l).step = .echo := hstep
      unfold echoAnswer
      dsimp only
      rw [if_neg (by rw [hst', hstep']; simp only [ne_eq, not_true, false_or]; exact Nat.not_le_of_lt (Nat.lt_of_lt_of_le hlt (by decide))),
        if_pos (show ((s.start.link l).echoes ++ [(b, e)]).length < 8 by rw [List.length_append]; exact Nat.succ_lt_succ hlt),
        List.length_append]
      rfl
    have hlen : l < (s.start.onLink l (fun k => { k with echoes := (s.link l).echoes ++ [(b, e)] })).pla.links.length := by rw [onLink_length]; exact hl
    have hlink := onLink_link (s := s.start) (fun k => { k with echoes := (s.link l).echoes ++ [(b, e)] }) hl
    refine ⟨_, (execEchoAnswer_good hrx).trans (congrArg Host.Outcome.next he), ?_, ?_, ?_, ((onLink_step ..).trans (sendLine_step ..)).onlyLink⟩
    · have hgroups := lineGroups_congr (s := s) (t := s.start.onLink l (fun k => { k with echoes := (s.link l).echoes ++ [(b, e)] })) (l := l)
        (by rw [hlink]; rfl) rfl sofEcho [BitVec.ofNat 8 ((s.link l).echoes.length + 1)]
      rw [sendLine_out, hgroups]
      rfl
    · rw [sendLine_link hlen, hlink]
    · rw [sendLine_link hlen, hlink]; exact hstep
  case echoed =>
    intro l e f s hl hst hstep hlt hes hm hrx
    have hagree : echoesAgree ((List.range 7).map (fun i => (BitVec.ofNat 8 i, e)) ++ [(7, e)]) = true := by
      simp [echoesAgree, List.range_succ]
    have he : echoAnswer l 7 e s.start = ((s.start.onLink l (fun k => { k with echoes := (s.link l).echoes ++ [(7, e)] })).onLink l
        (fun k => { k with step := .ident, echo := e % 65536, identTag := none, resent := false })).sendIdent l := by
      have hst' : (s.start.link l).st = .train := hst
      have hstep' : (s.start.link l).step = .echo := hstep
      have hes' : (s.start.link l).echoes = (s.link l).echoes := rfl
      unfold echoAnswer
      dsimp only
      rw [hes', if_neg (by rw [hst', hstep', hes]; simp), if_neg (by rw [hes]; simp), if_pos (by rw [hes]; exact hagree)]
    have hlink : ((s.start.onLink l (fun k => { k with echoes := (s.link l).echoes ++ [(7, e)] })).onLink l
        (fun k => { k with step := .ident, echo := e % 65536, identTag := none, resent := false })).link l = { s.link l with
          echoes := (s.link l).echoes ++ [(7, e)], step := .ident, echo := e % 65536, identTag := none, resent := false } := by
      rw [onLink_link _ (by rw [onLink_length]; exact hl), onLink_link (s := s.start) _ hl]
      rfl
    have hfree : ((s.start.onLink l (fun k => { k with echoes := (s.link l).echoes ++ [(7, e)] })).onLink l
        (fun k => { k with step := .ident, echo := e % 65536, identTag := none, resent := false })).free = s.free := rfl
    have hstep2 := (onLink_step l (fun k => { k with echoes := (s.link l).echoes ++ [(7, e)] }) s.start).trans (onLink_step l
        (fun k => { k with step := .ident, echo := e % 65536, identTag := none, resent := false }) _)
    have hout : ((s.start.onLink l (fun k => { k with echoes := (s.link l).echoes ++ [(7, e)] })).onLink l
        (fun k => { k with step := .ident, echo := e % 65536, identTag := none, resent := false })).out = [] := rfl
    have hlen : l < ((s.start.onLink l (fun k => { k with echoes := (s.link l).echoes ++ [(7, e)] })).onLink l
        (fun k => { k with step := .ident, echo := e % 65536, identTag := none, resent := false })).pla.links.length := by
      rw [onLink_length, onLink_length]; exact hl
    generalize (s.start.onLink l (fun k => { k with echoes := (s.link l).echoes ++ [(7, e)] })).onLink l
        (fun k => { k with step := .ident, echo := e % 65536, identTag := none, resent := false }) = v at *
    obtain ⟨h1, h2, h3, -⟩ := sendIdent_kept hlen (by rw [hlink]; exact hst) (by rw [hlink]) (by rw [hlink]; exact hm)
    refine ⟨_, (execEchoAnswer_good hrx).trans (congrArg Host.Outcome.next he), ?_, ?_, ?_, ?_, (hstep2.trans h3).onlyLink⟩
    · rw [h1, hlink]
    · rw [h1, hlink]; exact Nat.mod_eq_of_lt hlt
    · rw [h1, hlink]
    · rw [h2, hout, hlink, lineGroups_congr (s := s) (by rw [hlink]) hfree]
      rfl
  case noAnswer =>
    intro l e f s h hq
    refine ⟨_, rfl, ?_⟩
    rw [lineHeard_silent hq, show sofEcho.toNat = 0x7C from rfl]
    split
    next b hb =>
      have hc : (s.start.link l).st ≠ .train ∨ (s.start.link l).step ≠ .echo ∨ (s.start.link l).echoes.length ≥ 8 := by
        rcases h with h | h | h
        · exact .inl h
        · exact .inr (.inl h)
        · exact absurd hb (h b)
      unfold echoAnswer
      dsimp only
      rw [if_pos hc]
      rfl
    · rfl
  case ident =>
    intro l tag f d s hl hst hstep htag htlt hdlen h0 hrate h80 h960 hrx
    obtain ⟨hok, hop, htg, hcnt, hdata⟩ := mgmt_fields (op := 0x80) (tag := tag) (n := 32) (a := [0, 0]) (data := d) rfl hdlen (by decide) htlt
    have hshape : withCrc16 ([0x80] ++ le 1 tag ++ [0, 0, 32] ++ d) = withCrc16 ([0x80] ++ le 1 tag ++ [0, 0] ++ le 1 32 ++ d) := by
      rw [show le 1 32 = [32] from rfl]
      simp only [List.append_assoc, List.cons_append, List.nil_append]
    rw [hshape] at hrx
    generalize withCrc16 ([0x80] ++ le 1 tag ++ [0, 0] ++ le 1 32 ++ d) = w at *
    have he : mgmtFrame l w false s.start = ((s.start.onLink l (Link.ident d)).sendSync l (s.rateNeeded l)).onLink l (fun k => { k with step := .sync }) := by
      rw [mgmtFrame_ident (l := l) (d := w) (s := s.start) hst hstep (by rw [htg]; exact htag) hok (by rw [hop]; rfl) hcnt, hdata]
      exact identAnswer_good (s := s.start) h0 hrate h80 h960
    have hlink : (s.start.onLink l (Link.ident d)).link l = (s.link l).ident d := onLink_link (s := s.start) _ hl
    have hlen : l < (s.start.onLink l (Link.ident d)).pla.links.length := by rw [onLink_length]; exact hl
    obtain ⟨h1, h2, h3, h4, h5⟩ := sendSync_kept hlen (s.rateNeeded l)
    have hle := frame0_le l (s.rateNeeded l) (s.start.onLink l (Link.ident d))
    have hmeets {x : Nat × Nat} {p : Nat} := frame0_meets (l := l) (rate := s.rateNeeded l) (p := p) (x := x) (s := s.start.onLink l (Link.ident d))
    have hreach := reach_le ((s.link l).ident d)
    rw [hlink] at hle h1 h2
    have hfl := onLink_link (s := (s.start.onLink l (Link.ident d)).sendSync l (s.rateNeeded l)) (fun k => { k with step := .sync }) (by rw [h4]; exact hlen)
    have hrd : ((s.start.onLink l (Link.ident d)).took.link l).rd = (s.link l).rd := (congrArg Link.rd hlink :)
    refine ⟨_, (execMgmtFrame_good hrx).trans (congrArg Host.Outcome.next he), ?_, ?_, ?_, ?_, ?_, ?_, ?_, ?_, fun n hn => ?_, ?_⟩
    · rw [hfl]
    · rw [hfl]; exact (congrArg Link.tcv h1 :)
    · rw [hfl]; exact (congrArg Link.ifs h1 :)
    · rw [hfl]; exact (congrArg Link.rate h1 :)
    · rw [hfl]; exact (congrArg Link.sched h1 :)
    · rw [hfl]; exact (congrArg Link.pos h1 :)
    · refine ⟨(s.start.onLink l (Link.ident d)).frame0 l (s.rateNeeded l) - s.gridChar - (s.link l).echo / 80, ?_, ?_, ?_⟩
      · have hg : (s.start.onLink l (Link.ident d)).gridChar = s.gridChar := rfl
        have ht : ((s.link l).ident d).tcv = u d 16 2 := rfl
        have hec : ((s.link l).ident d).echo = (s.link l).echo := rfl
        omega
      · have hg : (s.start.onLink l (Link.ident d)).gridChar = s.gridChar := rfl
        have hec : ((s.link l).ident d).echo = (s.link l).echo := rfl
        rw [hfl, show (((s.start.onLink l (Link.ident d)).sendSync l (s.rateNeeded l)).link l).f0 = _ from (congrArg Link.f0 h1 :)]
        change (s.start.onLink l (Link.ident d)).frame0 l (s.rateNeeded l) = _
        omega
      · change ((s.start.onLink l (Link.ident d)).sendSync l (s.rateNeeded l)).out = _
        rw [h2]
        rw [lineGroups_congr (s := { s with free := s.free + 1 }) hrd rfl]
        rfl
    · intro x hx p hp
      obtain ⟨k, hk⟩ := hmeets hx hp
      refine ⟨k, ?_⟩
      rw [hfl, ← hk]
      exact (congrArg Link.f0 h1 :)
    · rw [onLink_link_of_ne hn, h3 n hn, onLink_link_of_ne hn]
      rfl
    · rw [h5]
      rfl
  case resend =>
    intro l tag s hl hst hstep htag hres hm
    have he : mgmtTimeout l s.start = (s.start.sendIdent l).onLink l (fun k => { k with resent := true }) := by
      have hst' : (s.start.link l).st = .train := hst
      have hres' : (s.start.link l).resent = false := hres
      have hc : (s.start.link l).st = .train ∧ (s.start.link l).step = .ident ∧ (s.start.link l).identTag.isSome = true ∧
          (!(s.start.link l).resent) = true := ⟨hst, hstep, by rw [show (s.start.link l).identTag = some tag from htag]; rfl, by rw [hres']; rfl⟩
      unfold mgmtTimeout
      dsimp only
      rw [if_pos hc, State.resendIdent, if_neg (by rw [hres']; simp)]
    obtain ⟨h1, h2, h3, h4⟩ := sendIdent_kept (s := s.start) hl hst hstep hm
    have hlink := onLink_link (s := s.start.sendIdent l) (fun k => { k with resent := true }) (by rw [h4]; exact hl)
    refine ⟨_, congrArg Host.Outcome.next he, ?_, ?_, h2, (h3.trans (onLink_step ..)).onlyLink⟩
    · rw [hlink]
    · rw [hlink]; exact (congrArg Link.identTag h1 :)
  case timeout =>
    intro l s hl hst hstep hlt hm
    have he : exec (.trainingStepTimeout l) s = .next (s.start.onLink l (fun k => { k with
        step := .none, waiting := true, sched := false, got := none, fresh := false, slot := none })) := by
      change execTrainingStepTimeout l s = _
      unfold execTrainingStepTimeout
      dsimp only
      rw [if_pos ⟨hst, hstep⟩, attemptFails_first (s := s.start) hlt]
      exact congrArg Host.Outcome.next (trySampleOf_none (l := l) hm)
    have hlink := onLink_link (s := s.start) (fun k => { k with
        step := .none, waiting := true, sched := false, got := none, fresh := false, slot := none }) hl
    exact ⟨_, he, by rw [hlink]; exact hst, by rw [hlink], by rw [hlink], by rw [hlink]; rfl, rfl, (onLink_step ..).onlyLink⟩
  case failed =>
    intro l s hl hst hstep hle
    have he : exec (.trainingStepTimeout l) s = .next (((((s.start.onLink l Link.gaveUp).endRetrain l).plaEvent l 0x10
        ((s.link l).attempts * 256 + (s.link l).step.code) (some 0x0501)).linkLost l 3).trySampleOf l) := by
      change execTrainingStepTimeout l s = _
      unfold execTrainingStepTimeout
      dsimp only
      rw [if_pos ⟨hst, hstep⟩, attemptFails_last (s := s.start) hle]
      rfl
    have hlink := onLink_link (s := s.start) Link.gaveUp hl
    obtain ⟨hend, -⟩ := endRetrain_link (s := s.start.onLink l Link.gaveUp) (l := l) (by rw [onLink_length]; exact hl)
    have hready {sq cid : Nat} := endRetrain_ready (s := s.start.onLink l Link.gaveUp) (l := l) (sq := sq) (cid := cid)
    have hbanks : part .banks ((s.start.onLink l Link.gaveUp).endRetrain l) = part .banks s := endRetrain_part (by simp) ..
    rw [hlink] at hend hready
    generalize (s.start.onLink l Link.gaveUp).endRetrain l = v at *
    have hcore := trySampleOf_core l l ((v.plaEvent l 0x10 ((s.link l).attempts * 256 + (s.link l).step.code) (some 0x0501)).linkLost l 3)
    rw [link_of_links (congrArg Pla.links (linkLost_pla ..)), link_of_links (plaEvent_links ..), hend] at hcore
    have hpart {π : Part} (hp : π ∉ [.rings, .tmf, .faults, .sj, .spa, .kce, .psc, .pla, .out, .free]) :=
      (trySampleOf_part hp l ((v.plaEvent l 0x10 ((s.link l).attempts * 256 + (s.link l).step.code) (some 0x0501)).linkLost l 3)).trans
        ((linkLost_part (by simp at hp ⊢; tauto) l 3 _).trans (plaEvent_part (by simp at hp ⊢; tauto) ..))
    have hready' := hpart (π := .ready) (by simp)
    have hbanks' := hpart (π := .banks) (by simp)
    clear hpart
    generalize ((v.plaEvent l 0x10 ((s.link l).attempts * 256 + (s.link l).step.code) (some 0x0501)).linkLost l 3).trySampleOf l = t at *
    refine ⟨t, he, (congrArg Link.st hcore :), (congrArg Link.cause hcore :), (congrArg Link.retrain hcore :), fun sq cid hr ho => ?_,
      refsKept_of_banks (hbanks'.trans hbanks)⟩
    obtain ⟨quiet, hq⟩ := hready hr ho
    refine ⟨quiet, ?_⟩
    rw [show t.hqe.ready = v.hqe.ready from hready']
    exact hq

/-- Settles O43, from its two parts. -/
theorem linkConduct : Obligations.LinkConduct := by
  unfold Obligations.LinkConduct
  exact ⟨linkCommands, linkTraining⟩

end Sys2Proof.Machine
end
section
/-! PROOFS. Commands, MGMT exchanges and line errors of a phase link, and the line code -/

namespace Sys2Proof.Machine

open Sys2Proof

/-! ### MGMT exchanges -/

/-- A LINK_MGMT that ends on an UP link (R241). -/
theorem endMgmt_up {l st r : Nat} {x : Mgmt} {s : State} (hl : l < s.pla.links.length) (hm : (s.link l).mgmt = some x) (hst : (s.link l).st = .up) :
    s.endMgmt l st r = (s.onLink l (fun k => { k with mgmt := none })).complete .pf0 x.sq x.cid st r := by
  have hup : (((s.onLink l (fun k => { k with mgmt := none })).complete .pf0 x.sq x.cid st r).link l).st = .up := by
    rw [link_of_links (congrArg Pla.links (complete_links ..)), onLink_link _ hl]
    exact hst
  unfold State.endMgmt
  rw [hm]
  dsimp only
  split
  · rw [State.sendIdent, if_pos (.inl (by rw [hup]; simp))]
  · rfl

theorem endMgmt_kept {l st r : Nat} {x : Mgmt} {s s1 : State} (hl : l < s.pla.links.length) (hm : (s.link l).mgmt = some x) (hst : (s.link l).st = .up)
    (ho : OwnedAs .pf0 x.sq x.cid s) (hpla : s1.pla = s.pla) (hhqe : s1.hqe = s.hqe) :
    CompletedAs .pf0 x.sq x.cid st r s (s1.endMgmt l st r) ∧ (s1.endMgmt l st r).out = s1.out ∧
    (s1.endMgmt l st r).link l = { s.link l with mgmt := none } ∧ (∀ m, m ≠ l → (s1.endMgmt l st r).link m = s.link m) ∧
    RingsKept s (s1.endMgmt l st r) := by
  have hlinks (n : Nat) : s1.link n = s.link n := link_of_links (congrArg Pla.links hpla) n
  rw [endMgmt_up (s := s1) (by rw [hpla]; exact hl) (by rw [hlinks]; exact hm) (by rw [hlinks]; exact hst)]
  obtain ⟨hc, hr⟩ := complete_kept (s1 := s1.onLink l (fun k => { k with mgmt := none })) (st := st) (r := r) ho hhqe
  have hlink (n : Nat) := link_of_links (congrArg Pla.links (complete_links x.sq x.cid st r (s1.onLink l (fun k => { k with mgmt := none })))) n
  refine ⟨hc, ?_, ?_, fun m hm => ?_, hr⟩
  · exact complete_part (π := .out) (by simp) ..
  · rw [hlink, onLink_link _ (by rw [hpla]; exact hl), hlinks]
  · rw [hlink, onLink_link_of_ne hm, hlinks]

theorem mgmtFrame_answer {l : Nat} {x : Mgmt} {d : List Byte} {s : State} (hok : mgmtOk d = true) (hst : (s.link l).st = .up)
    (hm : (s.link l).mgmt = some x) (hs : x.sent = true) (ht : x.tag = u d 1 1) : mgmtFrame l d false s =
      if u d 0 1 / 16 = 0xF then s.endMgmt l stDONE_NOTE (0x200 + u ((d.drop 5).take (u d 4 1)) 0 1)
      else if x.write then (if u d 0 1 / 16 = 9 then s.endMgmt l stDONE x.n else s)
      else if u d 0 1 / 16 = 8 then (s.dma .pf0 x.buf (((d.drop 5).take (u d 4 1)).take 32)).endMgmt l stDONE (u d 4 1)
      else s := by
  unfold mgmtFrame
  dsimp only
  rw [hok, if_neg (by simp), if_neg (by rw [hst]; simp), hm]
  dsimp only
  rw [if_neg (by rw [hs, ht]; simp)]

/-! ### Code errors -/

theorem near_length (at_ : Nat) (k : Link) : (k.near at_).length = (k.errs.filter (fun y => decide (y ≤ at_ ∧ at_ < y + 64))).length + 1 := by
  simp only [Link.near, List.length_cons, Bool.decide_and]

theorem codeErrorAt_few {l at_ : Nat} {s : State} (h : ((s.link l).near at_).length < 4) :
    s.codeErrorAt l at_ = s.onLink l (fun k => { k with codeErr := incSat k.codeErr, errs := (s.link l).near at_ }) := by
  rw [codeErrorAt_eq, if_neg (fun hc => absurd hc.2 (Nat.not_le_of_lt h))]

theorem codeErrorAt_few_kept {l at_ : Nat} {s : State} (hl : l < s.pla.links.length) (h : ((s.link l).near at_).length < 4) :
    ((s.codeErrorAt l at_).link l).st = (s.link l).st ∧ ((s.codeErrorAt l at_).link l).codeErr = incSat (s.link l).codeErr ∧
    LinkStep l s (s.codeErrorAt l at_) := by
  rw [codeErrorAt_few h]
  have hlink := onLink_link (s := s) (fun k => { k with codeErr := incSat k.codeErr, errs := (s.link l).near at_ }) hl
  exact ⟨by rw [hlink], by rw [hlink], onLink_step ..⟩

theorem execCodeError_none {l group gap : Nat} {rd : Bool} {c : LineSym} {s : State} (h : received rd group = .inl c) :
    exec (.codeError l ⟨rd, group, gap⟩) s = .next s.start := by
  change execCodeError l ⟨rd, group, gap⟩ s = _
  unfold execCodeError
  dsimp only
  rw [h]

theorem execCodeError_some {l group gap : Nat} {rd : Bool} {e : CodeErr} {s : State} (h : received rd group = .inr e) :
    exec (.codeError l ⟨rd, group, gap⟩) s = .next (codeError l gap s.start) := by
  change execCodeError l ⟨rd, group, gap⟩ s = _
  unfold execCodeError
  dsimp only
  rw [h]

theorem codeError_behind {l gap x : Nat} {rest : List Nat} {s : State} (h : (s.link l).errs = x :: rest) (hg : gap < 64) :
    codeError l gap s = s.codeErrorAt l (x + gap) := by
  unfold codeError
  rw [h]
  dsimp only
  rw [if_pos hg]

theorem codeError_alone {l gap : Nat} {s : State} (hl : l < s.pla.links.length) (h : (s.link l).errs = [] ∨ 64 ≤ gap) :
    ∃ u at_, codeError l gap s = u.codeErrorAt l at_ ∧ LinkStep l s u ∧ u.link l = { s.link l with errs := [] } ∧
      u.pla.links.length = s.pla.links.length := by
  unfold codeError
  cases he : (s.link l).errs with
  | nil => exact ⟨s.took, s.gridChar, rfl, ⟨fun _ _ => rfl, rfl⟩, by rw [← he]; rfl, rfl⟩
  | cons x rest =>
    have hg : 64 ≤ gap := h.resolve_left (by rw [he]; simp)
    dsimp only
    rw [if_neg (Nat.not_lt_of_ge hg)]
    have htook : LinkStep l s s.took := ⟨fun _ _ => rfl, rfl⟩
    exact ⟨_, _, rfl, htook.trans (onLink_step ..), onLink_link (s := s.took) _ hl, onLink_length l _ s.took⟩

/-! ### Commands -/

theorem commandFrame_sends {l : Nat} {c : Cmd} {s : State} (h : (s.link l).slot = some c) (h1 : (s.link l).st ≠ .off) (h2 : (s.link l).st ≠ .failed) :
    commandFrame l s = s.sendCommand l c := by
  unfold commandFrame
  rw [h]
  dsimp only
  rw [if_neg (by simp [h1, h2])]

theorem mgmtSend_sends {l : Nat} {x : Mgmt} {s : State} (h : (s.link l).mgmt = some x) (hs : x.sent = false) (hst : (s.link l).st = .up)
    (ho : (s.link l).owes = false) : mgmtSend l s = (s.sendLine l sofMgmt (mgmtChars (b2n x.write) (s.link l).tag x.addr x.n x.data)).onLink l
      (fun k => { k with mgmt := some { x with sent := true, tag := k.tag }, tag := (k.tag + 1) % 256 }) := by
  unfold mgmtSend
  dsimp only
  rw [h]
  dsimp only
  rw [if_neg (by rw [hs, hst, ho]; simp)]

theorem mgmtSend_owes {l : Nat} {s : State} (h : (s.link l).owes = true) : mgmtSend l s = s := by
  unfold mgmtSend
  dsimp only
  split
  · rfl
  · rw [if_pos (.inr (.inr h))]

/-- Commands, MGMT frames and line errors. -/
theorem linkLine : Claim.LinkLine := by
  unfold Claim.LinkLine
  refine ⟨?command, ?noCommand, ?send, ?owes, ?readAnswer, ?writeAnswer, ?refused, ?timeout, ?lost, ?noError, ?first, ?near, ?fourth, ?notUp⟩
  case command =>
    intro l c s hl hc hoff hfailed
    refine ⟨_, congrArg Host.Outcome.next (commandFrame_sends (s := s.start) hc hoff hfailed), ?_, ?_, (sendCommand_step ..).onlyLink⟩
    · rw [← nextSeq_eq, sendCommand_eq]
      rfl
    · rw [← nextSeq_eq, sendCommand_link (s := s.start) hl]
      rfl
  case noCommand =>
    intro l s h
    refine ⟨_, rfl, ?_⟩
    unfold commandFrame
    rw [show (s.start.link l).slot = none from h]
    rfl
  case send =>
    intro l x s hl hm hs hst ho
    refine ⟨_, congrArg Host.Outcome.next (mgmtSend_sends (s := s.start) hm hs hst ho), rfl, ?_, ((sendLine_step ..).trans (onLink_step ..)).onlyLink⟩
    rw [onLink_link _ (by rw [sendLine_length]; exact hl), sendLine_link (s := s.start) hl]
    rfl
  case owes =>
    intro l s h
    exact ⟨_, congrArg Host.Outcome.next (mgmtSend_owes (s := s.start) h), rfl⟩
  case readAnswer =>
    intro l n x f data s hl hm hs hw hst hn hd ht hrx ho
    obtain ⟨hok, hop, htg, hcnt, hdata⟩ := mgmt_fields (op := 0x80) (tag := x.tag) (n := n) (a := le 2 x.addr) (data := data) (by simp) hd
      (by omega) ht
    generalize withCrc16 ([0x80] ++ le 1 x.tag ++ le 2 x.addr ++ le 1 n ++ data) = w at *
    have he : mgmtFrame l w false s.start = (s.start.dma .pf0 x.buf data).endMgmt l stDONE n := by
      rw [mgmtFrame_answer (s := s.start) hok hst hm hs htg.symm, hop, hcnt, hdata, hw, List.take_of_length_le (by omega)]
      rfl
    obtain ⟨h1, h2, h3, h4, h5⟩ := endMgmt_kept (s1 := s.start.dma .pf0 x.buf data) (st := stDONE) (r := n) hl hm hst ho rfl rfl
    refine ⟨_, (execMgmtFrame_good hrx).trans (congrArg Host.Outcome.next he), h1, ?_, h3, h4, h5⟩
    rw [h2]
    unfold State.hostWrites
    rw [h5]
    rfl
  case writeAnswer =>
    intro l x f s hl hm hs hw hst ht hrx ho
    obtain ⟨hok, hop, htg, hcnt, hdata⟩ := mgmt_fields (op := 0x90) (tag := x.tag) (n := 0) (a := le 2 x.addr) (data := []) (by simp) rfl
      (by omega) ht
    have hshape : withCrc16 ([0x90] ++ le 1 x.tag ++ le 2 x.addr ++ [0]) = withCrc16 ([0x90] ++ le 1 x.tag ++ le 2 x.addr ++ le 1 0 ++ []) := by
      rw [List.append_nil, show le 1 0 = [0] from rfl]
    rw [hshape] at hrx
    generalize withCrc16 ([0x90] ++ le 1 x.tag ++ le 2 x.addr ++ le 1 0 ++ []) = w at *
    have he : mgmtFrame l w false s.start = s.start.endMgmt l stDONE x.n := by
      rw [mgmtFrame_answer (s := s.start) hok hst hm hs htg.symm, hop, hw]
      rfl
    obtain ⟨h1, h2, h3, h4, h5⟩ := endMgmt_kept (s1 := s.start) (st := stDONE) (r := x.n) hl hm hst ho rfl rfl
    exact ⟨_, (execMgmtFrame_good hrx).trans (congrArg Host.Outcome.next he), h1, h2, h3, h4, h5⟩
  case refused =>
    intro l x code f s hl hm hs hst ht hrx ho
    obtain ⟨hok, hop, htg, hcnt, hdata⟩ := mgmt_fields (op := 0xF0) (tag := x.tag) (n := 1) (a := le 2 x.addr) (data := [code]) (by simp) rfl
      (by omega) ht
    have hshape : withCrc16 ([0xF0] ++ le 1 x.tag ++ le 2 x.addr ++ [1, code]) = withCrc16 ([0xF0] ++ le 1 x.tag ++ le 2 x.addr ++ le 1 1 ++ [code]) := by
      rw [show le 1 1 = [1] from rfl]
      simp only [List.append_assoc, List.cons_append, List.nil_append]
    rw [hshape] at hrx
    generalize withCrc16 ([0xF0] ++ le 1 x.tag ++ le 2 x.addr ++ le 1 1 ++ [code]) = w at *
    have he : mgmtFrame l w false s.start = s.start.endMgmt l stDONE_NOTE (0x200 + code.toNat) := by
      rw [mgmtFrame_answer (s := s.start) hok hst hm hs htg.symm, hop, hcnt, hdata]
      rfl
    obtain ⟨h1, h2, h3, h4, h5⟩ := endMgmt_kept (s1 := s.start) (st := stDONE_NOTE) (r := 0x200 + code.toNat) hl hm hst ho rfl rfl
    exact ⟨_, (execMgmtFrame_good hrx).trans (congrArg Host.Outcome.next he), h1, h2, h3, h4, h5⟩
  case timeout =>
    intro l x s hl hm hst ho
    have he : mgmtTimeout l s.start = s.start.endMgmt l stDONE_NOTE 0x100 := by
      unfold mgmtTimeout
      dsimp only
      rw [if_neg (by rw [show (s.start.link l).st = .up from hst]; simp)]
    obtain ⟨h1, h2, h3, h4, h5⟩ := endMgmt_kept (s1 := s.start) (st := stDONE_NOTE) (r := 0x100) hl hm hst ho rfl rfl
    exact ⟨_, congrArg Host.Outcome.next he, h1, h2, h3, h4, h5⟩
  case lost =>
    intro i l s hl hst hi
    have he : exec i s = .next (s.start.linkDown l 1 0) := by
      have ha : alignLost l s.start = s.start.linkDown l 1 0 := if_pos hst
      rcases hi with rfl | rfl <;> exact congrArg Host.Outcome.next ha
    have hlink := linkDown_link (s := s.start) hl 1 0
    exact ⟨_, he, by rw [hlink]; rfl, by rw [hlink]; rfl, by rw [hlink]; rfl, by rw [hlink]; rfl, by rw [hlink]; rfl,
      fun m hm => linkDown_link_of_ne hm s.start 1 0, refsKept_of_banks (linkDown_part (π := .banks) (by simp) l 1 0 s.start)⟩
  case noError =>
    intro l group gap rd c s h
    exact ⟨_, execCodeError_none h, rfl⟩
  case first =>
    intro l group gap rd e s hl hst hrx herr
    obtain ⟨v, at_, he, hstep, hlink, hlen⟩ := codeError_alone (s := s.start) hl herr
    obtain ⟨h1, h2, h3⟩ := codeErrorAt_few_kept (at_ := at_) (by rw [hlen]; exact hl) (by rw [near_length, hlink]; simp)
    refine ⟨_, (execCodeError_some hrx).trans (congrArg Host.Outcome.next he), ?_, ?_, (hstep.trans h3).onlyLink⟩
    · rw [h1, hlink]; exact hst
    · rw [h2, hlink]; rfl
  case near =>
    intro l group gap x rest rd e s hl hst hrx herr hg hlt
    obtain ⟨h1, h2, h3⟩ := codeErrorAt_few_kept (s := s.start) (at_ := x + gap) hl (by
      rw [near_length, show (s.start.link l).errs = x :: rest from herr]
      omega)
    exact ⟨_, (execCodeError_some hrx).trans (congrArg Host.Outcome.next (codeError_behind (s := s.start) herr hg)), h1.trans hst, h2, h3.onlyLink⟩
  case fourth =>
    intro l group gap x rest rd e s hl hst hrx herr hg hle
    have hlink := codeErrorAt_link (s := s.start) hl (x + gap)
    rw [Link.heard, if_pos ⟨hst, by rw [near_length, show (s.start.link l).errs = x :: rest from herr]; omega⟩] at hlink
    exact ⟨_, (execCodeError_some hrx).trans (congrArg Host.Outcome.next (codeError_behind (s := s.start) herr hg)), by rw [hlink]; rfl,
      by rw [hlink]; rfl, by rw [hlink]; rfl⟩
  case notUp =>
    intro i l s hst hi
    have ha : alignLost l s.start = s.start := if_neg hst
    rcases hi with rfl | rfl <;> exact ⟨_, congrArg Host.Outcome.next ha, rfl⟩

end Sys2Proof.Machine
end
section
/-! PROOFS. The 8b/10b line code, and SAMPLE frames -/

namespace Sys2Proof.Machine

open Sys2Proof

/-! ### The line code -/

/-- A group that a receiver of disparity `rd` takes for the character it was sent as, with the sender's disparity behind it. -/
abbrev Heard (rd : Bool) (c : LineSym) : Prop := received rd (enc10 rd c).1 = .inl c ∧ rdAfter rd (enc10 rd c).1 = (enc10 rd c).2

/-- A group of ten bits with four to six ones (R217). -/
abbrev Balanced (g : Nat) : Prop := g < 1024 ∧ 4 ≤ ones g 10 ∧ ones g 10 ≤ 6

/-- The code table of the data octets, at both disparities. -/
theorem data_heard : ∀ o < 256, ∀ rd : Bool, Heard rd ⟨false, o⟩ ∧ Balanced (enc10 rd ⟨false, o⟩).1 := by decide +kernel

/-- The code table of the start characters (Table 08-1). -/
theorem start_heard : ∀ o ∈ [0xFB, 0xF7, 0x7C], ∀ rd : Bool, Heard rd ⟨true, o⟩ := by decide +kernel

theorem start_balanced : ∀ o ∈ [0xFB, 0xF7, 0x3C, 0x7C], ∀ rd : Bool, Balanced (enc10 rd ⟨true, o⟩).1 := by decide +kernel

/-- A run of characters that are all heard is received as it was sent. -/
theorem receiveLine_encodeLine (l : List LineSym) (h : ∀ c ∈ l, ∀ rd, Heard rd c) (rd : Bool) :
    receiveLine rd (encodeLine rd l).1 = l.map Sum.inl := by
  induction l generalizing rd with
  | nil => rfl
  | cons c l ih =>
    obtain ⟨h1, h2⟩ := h c (by simp) rd
    have htail := ih (fun x hx => h x (by simp [hx])) (enc10 rd c).2
    rw [← h2] at htail
    simp only [encodeLine, receiveLine, List.map_cons]
    rw [h1, ← h2, htail]

/-- Each group of a run is one of its characters'. -/
theorem mem_encodeLine (l : List LineSym) (rd : Bool) {g : Nat} (h : g ∈ (encodeLine rd l).1) : ∃ c ∈ l, ∃ r, g = (enc10 r c).1 := by
  induction l generalizing rd with
  | nil => simp [encodeLine] at h
  | cons c l ih =>
    simp only [encodeLine, List.mem_cons] at h
    rcases h with rfl | h
    · exact ⟨c, by simp, rd, rfl⟩
    · obtain ⟨x, hx, r, hr⟩ := ih _ h
      exact ⟨x, by simp [hx], r, hr⟩

theorem byte_toNat_lt (b : Byte) : b.toNat < 256 := b.isLt

/-- The line code. -/
theorem lineCode : Claim.LineCode := by
  unfold Claim.LineCode
  refine ⟨fun rd sof chars hs => ?_, fun rd sof chars g hs hg => ?_⟩
  · have hstart : sof.toNat ∈ [0xFB, 0xF7, 0x7C] := by
      simp only [List.mem_cons, List.not_mem_nil, or_false] at hs ⊢
      rcases hs with rfl | rfl | rfl <;> simp
    have hall : ∀ c ∈ lineSyms sof chars, ∀ rd, Heard rd c := by
      intro c hc rd
      rcases List.mem_cons.mp hc with rfl | hc
      · exact start_heard _ hstart rd
      · obtain ⟨b, -, rfl⟩ := List.mem_map.mp hc
        exact (data_heard _ (byte_toNat_lt b) rd).1
    unfold rxFrame
    rw [receiveLine_encodeLine _ hall]
    simp only [lineSyms, List.map_cons, List.map_map, Bool.true_and, beq_self_eq_true, if_true, List.any_map]
    refine congrArg some (Prod.ext ?_ ?_)
    · exact (List.map_congr_left fun b _ => by simp).trans (List.map_id _)
    · simp
  · obtain ⟨c, hc, r, rfl⟩ := mem_encodeLine _ _ hg
    rcases List.mem_cons.mp hc with rfl | hc
    · refine start_balanced _ ?_ r
      simp only [List.mem_cons, List.not_mem_nil, or_false] at hs ⊢
      rcases hs with rfl | rfl | rfl | rfl <;> simp
    · obtain ⟨b, -, rfl⟩ := List.mem_map.mp hc
      exact (data_heard _ (byte_toNat_lt b) r).2

/-! ### The places of code errors -/

theorem receiveLine_length (rd : Bool) (groups : List Nat) : (receiveLine rd groups).length = groups.length := by
  induction groups generalizing rd with
  | nil => rfl
  | cons g groups ih => simp [receiveLine, ih]

/-- The places of the code errors are among the places of the run, in their order. -/
theorem lineErrors_sublist (rd : Bool) (groups : List Nat) : (lineErrors rd groups).Sublist (List.range groups.length) := by
  have h : lineErrors rd groups = ((receiveLine rd groups).zipIdx.filter (fun x => x.1.isRight)).map Prod.snd := by
    unfold lineErrors
    rw [← List.filterMap_eq_map, ← List.filterMap_eq_filter, List.filterMap_filterMap]
    refine List.filterMap_congr fun x _ => ?_
    cases hx : x.1 <;> simp [hx, Option.guard]
  rw [h]
  refine (List.filter_sublist.map Prod.snd).trans ?_
  rw [List.zipIdx_map_snd, receiveLine_length, List.range_eq_range']

theorem lineErrors_increasing (rd : Bool) (groups : List Nat) :
    (lineErrors rd groups).Pairwise (· < ·) ∧ ∀ i ∈ lineErrors rd groups, i < groups.length :=
  ⟨List.Pairwise.sublist (lineErrors_sublist rd groups) List.pairwise_lt_range,
    fun _ hi => List.mem_range.mp ((lineErrors_sublist rd groups).subset hi)⟩

/-- An UP link behind code errors that all stand within 64 characters: it holds them all, or it has gone DOWN, once. -/
theorem heard_down_or_holds {c : Nat} {k : Link} (hup : k.st = .up) (places : List Nat) (hinc : places.Pairwise (· < ·)) (hlt : ∀ i ∈ places, i < 64) :
    let t := places.foldl (fun k i => k.heard (c + i)) k
    (t.st = .down ∧ t.cause = 1 ∧ t.downs = incSat k.downs) ∨
      (t.st = .up ∧ t.downs = k.downs ∧ places.length < 4 ∧ ∃ rest, t.errs = (places.map (c + ·)).reverse ++ rest) := by
  intro t
  induction places using List.reverseRecOn with
  | nil => exact .inr ⟨hup, rfl, by simp, k.errs, rfl⟩
  | append_singleton ps i ih =>
    have hprev := ih (List.pairwise_append.mp hinc).1 (fun x hx => hlt x (by simp [hx]))
    have hbefore : ∀ p ∈ ps, p < i := fun p hp => (List.pairwise_append.mp hinc).2.2 p hp i (by simp)
    have hi : i < 64 := hlt i (by simp)
    have ht : t = (ps.foldl (fun k i => k.heard (c + i)) k).heard (c + i) := List.foldl_append ..
    rw [ht]
    generalize ps.foldl (fun k i => k.heard (c + i)) k = m at hprev
    rcases hprev with ⟨h1, h2, h3⟩ | ⟨h1, h2, h3, rest, h4⟩
    · rw [Link.heard, if_neg (by rw [h1]; simp)]
      exact .inl ⟨h1, h2, h3⟩
    · have hnear : m.near (c + i) = ((ps ++ [i]).map (c + ·)).reverse ++
          rest.filter (fun x => decide (x ≤ c + i) && decide (c + i < x + 64)) := by
        have hall : (ps.map (c + ·)).reverse.filter (fun x => decide (x ≤ c + i) && decide (c + i < x + 64)) = (ps.map (c + ·)).reverse := by
          rw [List.filter_eq_self]
          intro x hx
          rw [List.mem_reverse] at hx
          obtain ⟨p, hp, rfl⟩ := List.mem_map.mp hx
          have := hbefore p hp
          simp only [Bool.and_eq_true, decide_eq_true_eq]
          omega
        rw [Link.near, h4, List.filter_append, hall]
        simp
      rw [Link.heard]
      split
      · exact .inl ⟨rfl, rfl, by rw [← h2]; rfl⟩
      next hfew =>
        have hlen : (m.near (c + i)).length = (ps ++ [i]).length + (rest.filter (fun x => decide (x ≤ c + i) && decide (c + i < x + 64))).length := by
          rw [hnear]; simp; omega
        exact .inr ⟨h1, h2, by by_contra hc; exact hfew ⟨h1, by omega⟩, _, hnear⟩

/-! ### A frame position that passes -/

/-- A link whose frame position has passed with a frame, or without one (R222). -/
def Link.positioned (x : Option LinkScale) (j : Judge) (d : List Byte) (k : Link) : Link :=
  let k1 := { k with pos := k.pos + 1, answers := k.pos % 65536, owes := true, fresh := decide (j = Judge.ok) }
  if j = .ok then
    match x with
    | none => k1.take d
    | some x => (k1.take d).scaleTo x d
  else k1.failFrame j

theorem framePosition_eq {l : Nat} {j : Judge} {d : List Byte} {s : State} (h : (s.link l).sched = true) : framePosition l j d s =
    ((((s.onLink l (Link.positioned (look l s.conf.scales) j d)).afterFrame l (j = .ok)).onLink l
      (fun k => { k with got := some (decide (j = .ok) && decide (k.st = .up)) })).plaAnswer l).trySampleOf l := by
  have hsched : ¬(!(s.link l).sched) = true := by simp [h]
  unfold framePosition Link.positioned
  dsimp only
  cases look l s.conf.scales <;> cases j <;> exact if_neg hsched

/-- A link without what the group's sample and the answer to a frame change. -/
def Link.stripped (k : Link) : Link := { k with got := none, fresh := false, slot := none }

theorem trySampleOf_stripped (l n : Nat) (s : State) : ((s.trySampleOf l).link n).stripped = (s.link n).stripped := by
  have h := trySampleOf_core l n s
  generalize (s.trySampleOf l).link n = a at *
  generalize s.link n = b at *
  exact (congrArg Link.stripped h :)

theorem plaAnswer_stripped (l n : Nat) (s : State) : ((s.plaAnswer l).link n).stripped = (s.link n).stripped := by
  unfold State.plaAnswer
  split
  · exact onLink_kept (f := fun x => { x with slot := some Cmd.safeCmd }) (φ := Link.stripped) (by exact fun _ => rfl) l n _
  · rfl

theorem framePosition_stripped {l : Nat} {j : Judge} {d : List Byte} {s : State} (h : (s.link l).sched = true) : ((framePosition l j d s).link l).stripped =
    (((s.onLink l (Link.positioned (look l s.conf.scales) j d)).afterFrame l (j = .ok)).link l).stripped := by
  rw [framePosition_eq h, trySampleOf_stripped, plaAnswer_stripped]
  exact onLink_kept (φ := Link.stripped) (by exact fun _ => rfl) l l _

/-- A link without what a change of its state changes. -/
def Link.record (k : Link) : Link :=
  { k with
    st := .off, cause := 0, downs := 0, run := 0, errs := [], waiting := false, slot := none, step := .none, powerUp := false, bad := 0
    retrain := none, got := none, fresh := false }

theorem endRetrain_record (l : Nat) (s : State) : ((s.endRetrain l).link l).record = (s.link l).record := by
  cases hr : (s.link l).retrain with
  | none => rw [endRetrain_none hr]
  | some x =>
    rw [endRetrain_some (sq := x.1) (cid := x.2) hr, link_of_links (congrArg Pla.links (complete_links ..))]
    exact onLink_kept (φ := Link.record) (by exact fun _ => rfl) l l s

theorem linkDown_record (l cause flags : Nat) (s : State) : ((s.linkDown l cause flags).link l).record = (s.link l).record := by
  rw [link_of_links (linkDown_links ..)]
  exact onLink_kept (φ := Link.record) (by exact fun _ => rfl) l l s

/-- A link that has reached UP. -/
def Link.raised (k : Link) : Link := { k with st := .up, step := .none, waiting := false, powerUp := false, bad := 0 }

theorem becomeUp_link (l : Nat) (s : State) : (s.becomeUp l).link l = ((s.onLink l Link.raised).endRetrain l).link l := by
  unfold State.becomeUp
  dsimp only
  split
  · exact link_of_links (plaEvent_links ..) l
  · rfl

theorem becomeUp_record (l : Nat) (s : State) : ((s.becomeUp l).link l).record = (s.link l).record := by
  rw [becomeUp_link, endRetrain_record]
  exact onLink_kept (φ := Link.record) (by exact fun _ => rfl) l l s

theorem afterFrame_record (l : Nat) (ok : Bool) (s : State) : ((s.afterFrame l ok).link l).record = (s.link l).record := by
  unfold State.afterFrame
  dsimp only
  split
  · split
    · split
      · exact linkDown_record ..
      · split
        · exact linkDown_record ..
        · rfl
    · split
      · exact linkDown_record ..
      · rfl
  · split
    · exact becomeUp_record ..
    · rfl
  · split
    · exact becomeUp_record ..
    · rfl
  · rfl

theorem framePosition_record {l : Nat} {j : Judge} {d : List Byte} {s : State} (hl : l < s.pla.links.length) (h : (s.link l).sched = true) :
    ((framePosition l j d s).link l).record = ((s.link l).positioned (look l s.conf.scales) j d).record := by
  refine (congrArg Link.record (framePosition_stripped (j := j) (d := d) h)).trans ?_
  refine (afterFrame_record ..).trans ?_
  rw [onLink_link _ hl]

/-! ### The frame behind its code errors -/

/-- What is kept of a link by the code errors of a frame: its schedule and its latest frame. -/
theorem sampleHeard_eq {l : Nat} {rd : Bool} {groups : List Nat} {s : State} (h : (s.link l).sched = true) :
    s.sampleHeard l rd groups = s.codeErrors l (frameChar (s.link l).f0 (s.link l).rate (s.link l).pos) (lineErrors rd groups) := by
  unfold State.sampleHeard
  dsimp only
  rw [if_pos h]

theorem sampleHeard_silent {l : Nat} {rd : Bool} {groups : List Nat} {s : State} (h : lineErrors rd groups = []) : s.sampleHeard l rd groups = s := by
  unfold State.sampleHeard
  dsimp only
  split
  · rw [h, codeErrors_nil]
  · exact lineHeard_silent h

/-- The fields a code error changes, and those a fall from UP changes, left out. -/
def Link.unheard (k : Link) : Link :=
  { k with st := .off, cause := 0, downs := 0, run := 0, errs := [], waiting := false, slot := none, codeErr := 0 }

theorem sampleHeard_kept {l : Nat} {rd : Bool} {groups : List Nat} {s : State} (hl : l < s.pla.links.length) (h : (s.link l).sched = true) :
    ((s.sampleHeard l rd groups).link l).unheard = (s.link l).unheard ∧
    ((s.sampleHeard l rd groups).link l).codeErr = (lineErrors rd groups).foldl (fun n _ => incSat n) (s.link l).codeErr ∧
    (s.sampleHeard l rd groups).pla.links.length = s.pla.links.length := by
  rw [sampleHeard_eq h]
  obtain ⟨h1, h2⟩ := codeErrors_link (c := frameChar (s.link l).f0 (s.link l).rate (s.link l).pos) hl (lineErrors rd groups)
  rw [h1]
  refine ⟨heard_kept (φ := Link.unheard) (fun _ _ => rfl) (fun _ => rfl) _ _ _, ?_, h2⟩
  generalize frameChar (s.link l).f0 (s.link l).rate (s.link l).pos = c
  generalize s.link l = k
  induction lineErrors rd groups generalizing k with
  | nil => rfl
  | cons i places ih =>
    rw [List.foldl_cons, List.foldl_cons, ih]
    congr 1
    unfold Link.heard
    split <;> rfl

theorem execSampleFrame_some {l sof : Nat} {rd : Bool} {groups : List Nat} {d : List Byte} {err : Bool} {s : State}
    (h : rxFrame 0xFB rd (sof :: groups) = some (d, err)) : exec (.sampleFrame l rd sof groups) s =
      .next (framePosition l (judge d err (s.link l).pos) d (s.start.sampleHeard l rd (sof :: groups))) := by
  change execSampleFrame l rd sof groups s = _
  unfold execSampleFrame
  dsimp only
  rw [show sofCommand.toNat = 0xFB from rfl, h]
  rfl

theorem execSampleFrame_none {l sof : Nat} {rd : Bool} {groups : List Nat} {s : State}
    (h : rxFrame 0xFB rd (sof :: groups) = none) : exec (.sampleFrame l rd sof groups) s =
      .next (framePosition l .pos [] (s.start.sampleHeard l rd (sof :: groups))) := by
  change execSampleFrame l rd sof groups s = _
  unfold execSampleFrame
  dsimp only
  rw [show sofCommand.toNat = 0xFB from rfl, h]

theorem judge_ok_err {d : List Byte} {err : Bool} {pos : Nat} (h : judge d err pos = .ok) : err = false := by
  unfold judge at h
  cases err
  · rfl
  · simp at h

/-! ### What the link state makes of a frame -/

theorem afterFrame_eighth {l : Nat} {s : State} (hst : (s.link l).st = .up) (hb : 8 ≤ (s.link l).bad) : s.afterFrame l false = s.linkDown l 2 0 := by
  unfold State.afterFrame
  dsimp only
  rw [hst]
  dsimp only
  rw [if_neg (by simp), if_pos hb]

theorem afterFrame_terminal {l : Nat} {s : State} (hst : (s.link l).st = .up) (hf : bits (s.link l).flags 5 3 ≠ 0) :
    s.afterFrame l true = s.linkDown l 3 (s.link l).flags := by
  unfold State.afterFrame
  dsimp only
  rw [hst]
  dsimp only
  rw [if_pos rfl, if_pos hf]

theorem afterFrame_trained {l : Nat} {s : State} (ok : Bool) (hst : (s.link l).st = .train) (hr : 16 ≤ (s.link l).run) : s.afterFrame l ok = s.becomeUp l := by
  unfold State.afterFrame
  dsimp only
  rw [hst]
  dsimp only
  rw [if_pos hr]

/-- A link that lost its alignment stays DOWN, whatever its frames hold (R235). -/
theorem afterFrame_aligning {l : Nat} {s : State} (ok : Bool) (hst : (s.link l).st = .down) (hc : (s.link l).cause = 1) : s.afterFrame l ok = s := by
  unfold State.afterFrame
  dsimp only
  rw [hst]
  dsimp only
  rw [if_neg (by rw [hc]; simp)]

theorem positioned_failed {x : Option LinkScale} {j : Judge} {d : List Byte} (k : Link) (h : j ≠ .ok) : k.positioned x j d =
    { k with
      pos := k.pos + 1, answers := k.pos % 65536, owes := true, fresh := false, bad := k.bad + 1, good := 0, pinned := 0, run := 0
      posErr := if j = .pos then incSat k.posErr else k.posErr
      crcErr := if j = .crc then incSat k.crcErr else k.crcErr } := by
  unfold Link.positioned
  dsimp only
  rw [if_neg h, decide_eq_false h]
  rfl

theorem positioned_state (x : Option LinkScale) (j : Judge) (d : List Byte) (k : Link) : (k.positioned x j d).st = k.st ∧
    (k.positioned x j d).cause = k.cause ∧ (k.positioned x j d).downs = k.downs ∧ (k.positioned x j d).retrain = k.retrain := by
  unfold Link.positioned
  cases j <;> cases x <;> exact ⟨rfl, rfl, rfl, rfl⟩

/-- What an accepted frame gives the link's record (R222, Table 08-2). -/
theorem positioned_taken (x : Option LinkScale) (d : List Byte) (k : Link) : (k.positioned x .ok d).count = u d 0 2 ∧
    (k.positioned x .ok d).code = sgn d 2 2 ∧ (k.positioned x .ok d).temp = sgn d 8 2 ∧ (k.positioned x .ok d).flags = u d 10 1 ∧
    (k.positioned x .ok d).ack = u d 11 1 ∧ (k.positioned x .ok d).tstate = u d 12 1 ∧ (k.positioned x .ok d).crcErr = k.crcErr ∧
    (k.positioned x .ok d).posErr = k.posErr ∧ (k.positioned x .ok d).pos = k.pos + 1 ∧ (k.positioned x .ok d).answers = k.pos % 65536 ∧
    (k.positioned x .ok d).codeErr = k.codeErr ∧ (k.positioned x .ok d).run = if trainFlags (u d 10 1) = 0 then k.run + 1 else 0 := by
  unfold Link.positioned
  cases x <;> exact ⟨rfl, rfl, rfl, rfl, rfl, rfl, rfl, rfl, rfl, rfl, rfl, rfl⟩

theorem framePosition_refsKept (l : Nat) (j : Judge) (d : List Byte) (rd : Bool) (groups : List Nat) (s : State) :
    RefsKept s (framePosition l j d (s.start.sampleHeard l rd groups)) :=
  refsKept_of_banks ((framePosition_part (π := .banks) (by simp) l j d _).trans (sampleHeard_part (π := .banks) (by simp) l rd groups s.start))

/-- A failed frame, or a position without one, counted on a link that has a schedule. -/
theorem framePosition_failed {l : Nat} {j : Judge} {d : List Byte} {s : State} (hl : l < s.pla.links.length) (h : (s.link l).sched = true) (hj : j ≠ .ok) :
    ((framePosition l j d s).link l).codeErr = (s.link l).codeErr ∧
    ((framePosition l j d s).link l).crcErr = (if j = .crc then incSat (s.link l).crcErr else (s.link l).crcErr) ∧
    ((framePosition l j d s).link l).posErr = (if j = .pos then incSat (s.link l).posErr else (s.link l).posErr) ∧
    ((framePosition l j d s).link l).count = (s.link l).count ∧ ((framePosition l j d s).link l).code = (s.link l).code ∧
    ((framePosition l j d s).link l).flags = (s.link l).flags ∧ ((framePosition l j d s).link l).iph = (s.link l).iph ∧
    ((framePosition l j d s).link l).pos = (s.link l).pos + 1 := by
  have hrec := framePosition_record (j := j) (d := d) hl h
  rw [positioned_failed _ hj] at hrec
  generalize framePosition l j d s = t at *
  exact ⟨(congrArg Link.codeErr hrec :), (congrArg Link.crcErr hrec :), (congrArg Link.posErr hrec :), (congrArg Link.count hrec :),
    (congrArg Link.code hrec :), (congrArg Link.flags hrec :), (congrArg Link.iph hrec :), (congrArg Link.pos hrec :)⟩

/-- The eighth failed frame in a row (R235). -/
theorem framePosition_eighth {l : Nat} {j : Judge} {d : List Byte} {s : State} (hl : l < s.pla.links.length) (h : (s.link l).sched = true) (hj : j ≠ .ok)
    (hst : (s.link l).st = .up) (hb : 7 ≤ (s.link l).bad) : ((framePosition l j d s).link l).st = .down ∧
    ((framePosition l j d s).link l).cause = 2 ∧ ((framePosition l j d s).link l).downs = incSat (s.link l).downs := by
  have hstr := framePosition_stripped (j := j) (d := d) h
  have hlink := onLink_link (Link.positioned (look l s.conf.scales) j d) hl
  rw [positioned_failed _ hj] at hlink
  rw [decide_eq_false hj, afterFrame_eighth (by rw [hlink]; exact hst) (by rw [hlink]; exact Nat.succ_le_succ hb),
    linkDown_link (by rw [onLink_length]; exact hl), hlink] at hstr
  generalize framePosition l j d s = t at *
  exact ⟨(congrArg Link.st hstr :), (congrArg Link.cause hstr :), (congrArg Link.downs hstr :)⟩

/-- SAMPLE frames. -/
theorem sampleFrames : Claim.SampleFrames := by
  unfold Claim.SampleFrames
  refine ⟨?good, ?failed, ?missing, ?terminal, ?aligned, ?trained, ?unscheduled⟩
  case good =>
    intro l rd sof groups d err s hl hs hrx hj
    have hquiet := sampleHeard_silent (l := l) (s := s.start) (lineErrors_of_rxFrame (judge_ok_err hj ▸ hrx))
    have hrec := framePosition_record (s := s.start) (j := .ok) (d := d) hl hs
    have hrefs := framePosition_refsKept l .ok d rd (sof :: groups) s
    rw [hquiet] at hrefs
    obtain ⟨h1, h2, h3, h4, h5, h6, h7, h8, h9, h10, h11, -⟩ := positioned_taken (look l s.start.conf.scales) d (s.start.link l)
    refine answers_of (execSampleFrame_some hrx) ?_
    rw [hj, hquiet]
    generalize framePosition l .ok d s.start = t at *
    exact ⟨(congrArg Link.count hrec).trans h1, (congrArg Link.code hrec).trans h2, (congrArg Link.temp hrec).trans h3, (congrArg Link.flags hrec).trans h4,
      (congrArg Link.ack hrec).trans h5, (congrArg Link.tstate hrec).trans h6, (congrArg Link.crcErr hrec).trans h7, (congrArg Link.posErr hrec).trans h8,
      (congrArg Link.pos hrec).trans h9, (congrArg Link.answers hrec).trans h10, (congrArg Link.codeErr hrec).trans h11, hrefs⟩
  case failed =>
    intro l rd sof groups d err s hl hs hrx hj
    obtain ⟨hkept, hcode, hlen⟩ := sampleHeard_kept (s := s.start) (rd := rd) (groups := sof :: groups) hl hs
    have hrefs := framePosition_refsKept l (judge d err (s.link l).pos) d rd (sof :: groups) s
    refine answers_of (execSampleFrame_some hrx) ?_
    generalize judge d err (s.link l).pos = j at *
    generalize s.start.sampleHeard l rd (sof :: groups) = v at *
    obtain ⟨h1, h2, h3, h4, h5, h6, h7, h8⟩ := framePosition_failed (l := l) (d := d) (s := v) (by rw [hlen]; exact hl)
      ((congrArg Link.sched hkept :).trans hs) hj
    refine ⟨h1.trans hcode, ?_, ?_, h4.trans (congrArg Link.count hkept :), h5.trans (congrArg Link.code hkept :), h6.trans (congrArg Link.flags hkept :),
      h7.trans (congrArg Link.iph hkept :), ?_, hrefs⟩
    · rw [h2, show (v.link l).crcErr = (s.link l).crcErr from (congrArg Link.crcErr hkept :)]
    · rw [h3, show (v.link l).posErr = (s.link l).posErr from (congrArg Link.posErr hkept :)]
    · rw [h8, show (v.link l).pos = (s.link l).pos from (congrArg Link.pos hkept :)]
  case missing =>
    intro i l rd sof groups s hl hs hi
    have hpos : ∃ groups', exec i s = .next (framePosition l .pos [] (s.start.sampleHeard l rd groups')) ∧
        ((i = .frameMissing l ∨ lineErrors rd (sof :: groups) = []) → lineErrors rd groups' = []) := by
      rcases hi with rfl | ⟨rfl, hrx⟩
      · exact ⟨[], by rw [sampleHeard_silent rfl]; rfl, fun _ => rfl⟩
      · exact ⟨sof :: groups, execSampleFrame_none hrx, fun h => h.resolve_left (by simp)⟩
    obtain ⟨groups', he, hnone⟩ := hpos
    obtain ⟨hkept, -, hlen⟩ := sampleHeard_kept (s := s.start) (rd := rd) (groups := groups') hl hs
    have hrefs := framePosition_refsKept l .pos [] rd groups' s
    have hquiet := sampleHeard_silent (l := l) (rd := rd) (groups := groups') (s := s.start)
    refine ⟨_, he, ?_⟩
    generalize s.start.sampleHeard l rd groups' = v at *
    obtain ⟨-, -, h3, -, -, -, h7, h8⟩ := framePosition_failed (l := l) (j := .pos) (d := []) (s := v) (by rw [hlen]; exact hl)
      ((congrArg Link.sched hkept :).trans hs) (by simp)
    refine ⟨?_, ?_, h7.trans (congrArg Link.iph hkept :), fun hst hb hq => ?_, hrefs⟩
    · rw [h3, show (v.link l).posErr = (s.link l).posErr from (congrArg Link.posErr hkept :)]
      rfl
    · rw [h8, show (v.link l).pos = (s.link l).pos from (congrArg Link.pos hkept :)]
    · rw [hquiet (hnone hq)]
      exact framePosition_eighth (s := s.start) hl hs (by simp) hst hb
  case terminal =>
    intro l rd sof groups d err s hl hs hst hrx hj hf
    have hquiet := sampleHeard_silent (l := l) (s := s.start) (lineErrors_of_rxFrame (judge_ok_err hj ▸ hrx))
    have hstr := framePosition_stripped (s := s.start) (j := .ok) (d := d) hs
    have hlink := onLink_link (s := s.start) (Link.positioned (look l s.start.conf.scales) .ok d) hl
    obtain ⟨hst', -⟩ := positioned_state (look l s.start.conf.scales) .ok d (s.start.link l)
    obtain ⟨-, -, -, hfl, -⟩ := positioned_taken (look l s.start.conf.scales) d (s.start.link l)
    rw [decide_eq_true rfl, afterFrame_terminal (by rw [hlink, hst']; exact hst) (by rw [hlink, hfl]; exact hf),
      linkDown_link (by rw [onLink_length]; exact hl)] at hstr
    refine answers_of (execSampleFrame_some hrx) ?_
    rw [hj, hquiet]
    generalize framePosition l .ok d s.start = t at *
    exact ⟨(congrArg Link.st hstr :), (congrArg Link.cause hstr :)⟩
  case aligned =>
    intro l rd sof groups s hl hs hst hlt h4
    obtain ⟨hkept, -, hlen⟩ := sampleHeard_kept (s := s.start) (rd := rd) (groups := sof :: groups) hl hs
    have hdown : ((s.start.sampleHeard l rd (sof :: groups)).link l).st = .down ∧ ((s.start.sampleHeard l rd (sof :: groups)).link l).cause = 1 ∧
        ((s.start.sampleHeard l rd (sof :: groups)).link l).downs = incSat (s.link l).downs := by
      obtain ⟨hinc, hplaces⟩ := lineErrors_increasing rd (sof :: groups)
      rw [sampleHeard_eq (s := s.start) hs, (codeErrors_link (s := s.start) hl _).1]
      exact (heard_down_or_holds (k := s.start.link l) hst _ hinc (fun i hi => (hplaces i hi).trans_le (by simp; omega))).resolve_right
        (fun h => absurd h.2.2.1 (Nat.not_lt_of_ge h4))
    have hexec : ∃ j d, exec (.sampleFrame l rd sof groups) s = .next (framePosition l j d (s.start.sampleHeard l rd (sof :: groups))) := by
      cases hrx : rxFrame 0xFB rd (sof :: groups) with
      | none => exact ⟨_, _, execSampleFrame_none hrx⟩
      | some x => exact ⟨_, _, execSampleFrame_some hrx⟩
    obtain ⟨j, d, he⟩ := hexec
    refine ⟨_, he, ?_⟩
    generalize s.start.sampleHeard l rd (sof :: groups) = v at *
    obtain ⟨hd, hc, hds⟩ := hdown
    have hstr := framePosition_stripped (j := j) (d := d) (s := v) (l := l) ((congrArg Link.sched hkept :).trans hs)
    have hlink := onLink_link (s := v) (Link.positioned (look l v.conf.scales) j d) (n := l) (by rw [hlen]; exact hl)
    obtain ⟨p1, p2, p3, -⟩ := positioned_state (look l v.conf.scales) j d (v.link l)
    rw [afterFrame_aligning _ (by rw [hlink, p1]; exact hd) (by rw [hlink, p2]; exact hc), hlink] at hstr
    generalize framePosition l j d v = t at *
    exact ⟨(congrArg Link.st hstr).trans (p1.trans hd), (congrArg Link.cause hstr).trans (p2.trans hc), (congrArg Link.downs hstr).trans (p3.trans hds)⟩
  case trained =>
    intro l rd sof groups d err s hl hs hst hrun hrx hj hf
    have hquiet := sampleHeard_silent (l := l) (s := s.start) (lineErrors_of_rxFrame (judge_ok_err hj ▸ hrx))
    have hstr := framePosition_stripped (s := s.start) (j := .ok) (d := d) hs
    have hpos := framePosition_eq (s := s.start) (j := .ok) (d := d) hs
    have hlink := onLink_link (s := s.start) (Link.positioned (look l s.start.conf.scales) .ok d) hl
    have hv : part .fwd (s.start.onLink l (Link.positioned (look l s.start.conf.scales) .ok d)) = part .fwd s := rfl
    have hlen := onLink_length l (Link.positioned (look l s.start.conf.scales) .ok d) s.start
    obtain ⟨p1, -, -, p4⟩ := positioned_state (look l s.start.conf.scales) .ok d (s.start.link l)
    obtain ⟨-, -, -, -, -, -, -, -, -, -, -, prun⟩ := positioned_taken (look l s.start.conf.scales) d (s.start.link l)
    rw [if_pos (show trainFlags (u d 10 1) = 0 from hf), show (s.start.link l).run = 15 from hrun] at prun
    refine answers_of (execSampleFrame_some hrx) ?_
    rw [hj, hquiet]
    generalize s.start.onLink l (Link.positioned (look l s.start.conf.scales) .ok d) = v at *
    rw [afterFrame_trained _ (by rw [hlink, p1]; exact hst) (by rw [hlink, prun])] at hstr hpos
    have hraised := onLink_link (s := v) Link.raised (n := l) (by rw [hlen]; exact hl)
    obtain ⟨hend, -⟩ := endRetrain_link (s := v.onLink l Link.raised) (l := l) (by rw [onLink_length, hlen]; exact hl)
    rw [becomeUp_link, hend, hraised] at hstr
    have hready : part .ready (framePosition l .ok d s.start) = part .ready ((v.onLink l Link.raised).endRetrain l) := by
      rw [hpos]
      refine (trySampleOf_part (by simp) ..).trans ((plaAnswer_part (by simp) ..).trans ?_)
      change part .ready (v.becomeUp l) = _
      unfold State.becomeUp
      dsimp only
      split
      · exact plaEvent_part (by simp) ..
      · rfl
    generalize framePosition l .ok d s.start = t at *
    refine ⟨(congrArg Link.st hstr :), (congrArg Link.retrain hstr :), fun sq cid hr ho => ?_⟩
    obtain ⟨quiet, hq⟩ := endRetrain_ready (s := v.onLink l Link.raised) (l := l) (sq := sq) (cid := cid) (by rw [hraised, hlink]; exact p4.trans hr)
      (by intro f hf; exact ho f (by rw [← show v.hqe.fwd = s.hqe.fwd from hv]; exact hf))
    refine ⟨quiet, ?_⟩
    rw [show t.hqe.ready = ((v.onLink l Link.raised).endRetrain l).hqe.ready from hready]
    rw [hraised] at hq
    exact hq
  case unscheduled =>
    intro l rd sof groups s hs hq
    have hnone (j : Judge) (d : List Byte) : framePosition l j d s.start = s.start := by
      unfold framePosition
      dsimp only
      rw [if_pos (by rw [show (s.start.link l).sched = false from hs]; rfl)]
    have hquiet := sampleHeard_silent (l := l) (s := s.start) hq
    cases hrx : rxFrame 0xFB rd (sof :: groups) with
    | none => exact ⟨_, execSampleFrame_none hrx, by rw [hquiet, hnone]; rfl⟩
    | some x => exact ⟨_, execSampleFrame_some hrx, by rw [hquiet, hnone]; rfl⟩

/-- Settles O44, from its three parts. -/
theorem linkFrames : Obligations.LinkFrames := by
  unfold Obligations.LinkFrames
  exact ⟨sampleFrames, lineCode, linkLine⟩

end Sys2Proof.Machine
end
section
/-! PROOFS. Dispenser ports: the pilot, the port states and their commands -/

namespace Sys2Proof.Machine

open Sys2Proof

/-! ### One port changed -/

theorem onPrt_prt {n : Nat} {s : State} (f : Port → Port) (h : n < s.vpc.ports.length) : (s.onPrt n f).prt n = f (s.prt n) :=
  getD_upd_self f _ h

theorem onPrt_prt_of_ne {n p : Nat} (h : p ≠ n) (s : State) (f : Port → Port) : (s.onPrt n f).prt p = s.prt p := getD_upd_of_ne h ..

theorem onPrt_length (n : Nat) (f : Port → Port) (s : State) : (s.onPrt n f).vpc.ports.length = s.vpc.ports.length := upd_length s.vpc.ports n f

theorem prt_of_ports {s t : State} (h : t.vpc.ports = s.vpc.ports) (n : Nat) : t.prt n = s.prt n := by
  rw [State.prt, h]
  rfl

theorem prt_of_part {s t : State} (h : part .vpc t = part .vpc s) (n : Nat) : t.prt n = s.prt n := prt_of_ports (congrArg Vpc.ports h :) n

/-! ### A port evaluated -/

/-- The state a port is given by the rules of R252. -/
def State.ruled (s : State) (n : Nat) : PortSt := portRule s.cfg.isSome s.serves (s.conf.port n) (s.prt n)

/-- A port in a new state: its fault latch and cause, its energy flag, and mode STEADY at an entry into FAULT (R253, R255). -/
def Port.entered (st : PortSt) (p : Port) : Port :=
  { p with
    st := st, cause := if st = .fault && !p.latch then p.condition.getD 0 else p.cause, latch := p.latch || st = .fault
    energy := p.energy && !(p.st = .energy && st ≠ .energy)
    mode := if st = .fault && p.st ≠ .fault then 0 else p.mode
    duty := if st = .fault && p.st ≠ .fault then 0 else p.duty }

/-- What follows a port's change of state: the event, the fault record and the report to SPA (R255, R256). -/
def State.reported (n : Nat) (st : PortSt) (p : Port) (s : State) : State :=
  let arg := (if st = .fault then (p.entered st).cause * 2 ^ 16 else 0) + p.st.code * 2 ^ 8 + st.code
  let s2 := s.vpcEvent n 0x01 arg
  let s3 := if st = .fault then s2.faultRec 5 0x0601 n arg (ofInt 32 p.pilotHi) else s2
  let s4 := s3.onSpa (fun y => { y with inp := { y.inp with ready := y.inp.ready.set n (st = .energy) } })
  if st = .notReady ∨ st = .vacant ∨ st = .fault then s4.portStop n else s4

theorem evalPort_eq (n : Nat) (s : State) : s.evalPort n =
    if s.ruled n = (s.prt n).st then s.onPrt n (fun _ => (s.prt n).entered (s.ruled n))
    else (s.onPrt n (fun _ => (s.prt n).entered (s.ruled n))).reported n (s.ruled n) (s.prt n) := rfl

theorem vpcEvent_ports (n sub arg : Nat) (s : State) : (s.vpcEvent n sub arg).vpc.ports = s.vpc.ports := by simp [State.vpcEvent]

theorem portStop_inp (n : Nat) (s : State) : (s.portStop n).spa.inp = s.spa.inp := by
  unfold State.portStop
  split
  · rfl
  · rw [onSess_spa]

theorem reported_ports (n : Nat) (st : PortSt) (p : Port) (s : State) : (s.reported n st p).vpc.ports = s.vpc.ports := by
  have hstop (u : State) : (u.portStop n).vpc = u.vpc := portStop_part (π := .vpc) (by simp) n u
  unfold State.reported
  dsimp only
  split
  · rw [hstop]
    split <;> exact vpcEvent_ports ..
  · split <;> exact vpcEvent_ports ..

theorem reported_ready (n : Nat) (st : PortSt) (p : Port) (s : State) : (s.reported n st p).spa.inp.ready = s.spa.inp.ready.set n (st = .energy) := by
  have hev (sub arg : Nat) : (s.vpcEvent n sub arg).spa = s.spa := vpcEvent_part (π := .spa) (by simp) ..
  unfold State.reported
  dsimp only
  split
  · rw [portStop_inp]
    split
    · exact congrArg (fun y : Spa => y.inp.ready.set n (st = .energy)) (hev ..)
    · exact congrArg (fun y : Spa => y.inp.ready.set n (st = .energy)) (hev ..)
  · split
    · exact congrArg (fun y : Spa => y.inp.ready.set n (st = .energy)) (hev ..)
    · exact congrArg (fun y : Spa => y.inp.ready.set n (st = .energy)) (hev ..)

theorem evalPort_ports (n : Nat) (s : State) : (s.evalPort n).vpc.ports = (s.onPrt n (fun _ => (s.prt n).entered (s.ruled n))).vpc.ports := by
  rw [evalPort_eq]
  split
  · rfl
  · exact reported_ports ..

theorem evalPort_prt {n : Nat} {s : State} (h : n < s.vpc.ports.length) : (s.evalPort n).prt n = (s.prt n).entered (s.ruled n) := by
  rw [prt_of_ports (evalPort_ports ..), onPrt_prt _ h]

theorem evalPort_prt_of_ne {n p : Nat} (h : p ≠ n) (s : State) : (s.evalPort n).prt p = s.prt p := by
  rw [prt_of_ports (evalPort_ports ..), onPrt_prt_of_ne h]

/-- SPA's view of the port follows a change of its state. -/
theorem evalPort_ready {n : Nat} {s : State} (hn : n < s.spa.inp.ready.length) (h : s.ruled n ≠ (s.prt n).st) :
    (s.evalPort n).spa.inp.ready.getD n false = decide (s.ruled n = .energy) := by
  rw [evalPort_eq, if_neg h, reported_ready]
  change (s.spa.inp.ready.set n _).getD n false = _
  simp [List.getD_eq_getElem?_getD, hn]

theorem evalPort_prefix (n : Nat) (s : State) : s.out <+: (s.evalPort n).out := by
  have hstop (u : State) : (u.portStop n).out = u.out := portStop_part (π := .out) (by simp) n u
  have hev (sub arg : Nat) (u : State) : u.out <+: (u.vpcEvent n sub arg).out := postEvent_prefix (s := u.onVpc _) ..
  rw [evalPort_eq]
  split
  · exact List.prefix_rfl
  · unfold State.reported
    dsimp only
    split
    · rw [hstop]
      split
      · exact hev _ _ (s.onPrt n (fun _ => (s.prt n).entered (s.ruled n)))
      · exact hev _ _ (s.onPrt n (fun _ => (s.prt n).entered (s.ruled n)))
    · split
      · exact hev _ _ (s.onPrt n (fun _ => (s.prt n).entered (s.ruled n)))
      · exact hev _ _ (s.onPrt n (fun _ => (s.prt n).entered (s.ruled n)))

/-! ### The rules of R252, in their order -/

section
variable {r : PortRec} {p : Port}

/-- The rules behind rule 3: the device serves, the port is admitted and has its bands. -/
theorem portRule_served (he : r.enable = true) (ha : p.admission = false) (h1 : p.pilot.isSome) (h2 : p.prox.isSome) : portRule true true r p =
    if p.latch || p.condition.isSome then .fault
    else if p.pilot = some 0 ∨ p.prox = some 0 then .vacant
    else if (p.pilot = some 2 ∨ (p.pilot = some 3 ∧ r.ventOk)) ∧ p.prox = some 2 ∧ p.mode ≤ 1 ∧ p.energy then .energy
    else .plugged := by
  obtain ⟨a, ha'⟩ := Option.isSome_iff_exists.mp h1
  obtain ⟨b, hb'⟩ := Option.isSome_iff_exists.mp h2
  unfold portRule
  rw [if_neg (by simp), if_neg (by simp [he]), if_neg (by simp [ha, ha', hb'])]

/-- No rule but the fourth gives FAULT. -/
theorem portRule_ne_fault (recs serve : Bool) (hl : p.latch = false) (hc : p.condition = none) : portRule recs serve r p ≠ .fault := by
  have hcond : ¬((p.latch || p.condition.isSome) = true) := by simp [hl, hc]
  unfold portRule
  rw [if_neg hcond]
  (repeat' split) <;> simp

end

theorem entered_fault {p : Port} (hl : p.latch = false) (hst : p.st ≠ .fault) : (p.entered .fault).st = .fault ∧
    (p.entered .fault).latch = true ∧ (p.entered .fault).mode = 0 ∧ (p.entered .fault).cause = p.condition.getD 0 := by
  unfold Port.entered
  dsimp only
  rw [hl]
  exact ⟨rfl, rfl, if_pos (by simp [hst]), rfl⟩

theorem entered_calm {p : Port} {st : PortSt} (h : st ≠ .fault) : (p.entered st).st = st ∧ (p.entered st).latch = p.latch ∧
    (p.entered st).mode = p.mode ∧ (p.entered st).duty = p.duty := by
  have hf : decide (st = .fault) = false := decide_eq_false h
  unfold Port.entered
  simp [hf]

theorem entered_energy {p : Port} {st : PortSt} : (p.entered st).energy = (p.energy && !(p.st = .energy && st ≠ .energy)) := rfl

/-! ### Samples and readings -/

theorem lastOf_suffix {α : Type} {x l : List α} (h : x <:+ l) : lastOf x.length l = some x := by
  obtain ⟨before, rfl⟩ := h
  unfold lastOf
  rw [if_neg (by simp)]
  simp

theorem common_const {α β : Type} [DecidableEq β] {f : α → β} {b : β} {x : List α} (hne : x ≠ []) (h : ∀ v ∈ x, f v = b) : common (x.map f) = some b := by
  cases x with
  | nil => exact absurd rfl hne
  | cons a x =>
    have ha : f a = b := h a (by simp)
    have hall : ((x.map f).all (fun c => c == f a)) = true := by
      rw [List.all_eq_true]
      intro c hc
      obtain ⟨v, hv, rfl⟩ := List.mem_map.mp hc
      simp [ha, h v (by simp [hv])]
    rw [List.map_cons, common, if_pos hall, ha]

theorem twoPeriods_pair {span : Nat → Nat} {duty prev : Nat} {before : List (List Int)} {a b : List Int} (hb : b.length = plateauSamples (span duty))
    (ha : a.length = plateauSamples (span duty) ∨ a.length = plateauSamples (span prev)) :
    twoPeriods span duty prev (before ++ [a, b]) = some [a, b] := by
  have hlast : lastOf 2 (before ++ [a, b]) = some [a, b] := lastOf_suffix (x := [a, b]) ⟨before, rfl⟩
  unfold twoPeriods
  rw [hlast]
  dsimp only
  rw [if_pos]
  simp only [hb, beq_self_eq_true, Bool.true_and, Bool.or_eq_true, beq_iff_eq]
  exact ha

/-- The samples of a high plateau in one band give that band (R248). -/
theorem acceptedBand_of_plateau {p : Port} {l : List (List Int)} {x : List Int} {b : Nat} (h : Plateau p l x) (hb : ∀ v ∈ x, pilotBand v = b) :
    acceptedBand p.pinMode p.pinDuty p.prevDuty l = some b := by
  rcases h with ⟨hm, hx, hl⟩ | ⟨hm, before, y, z, rfl, rfl, hz, hy⟩
  · unfold acceptedBand
    rw [hm, if_pos rfl, show 5 = x.length from hx.symm, lastOf_suffix hl, Option.bind_some]
    exact common_const (by intro h; rw [h] at hx; simp at hx) hb
  · unfold acceptedBand
    rw [hm, if_neg (by decide), if_pos rfl, twoPeriods_pair (span := id) hz hy, Option.bind_some]
    have hne : y ++ z ≠ [] := by
      intro h
      have := congrArg List.length h
      simp only [List.length_append, List.length_nil, hz] at this
      omega
    simpa using common_const hne hb

theorem acceptedBand_few {p : Port} {l : List (List Int)} (hm : p.pinMode = 0) (h : l.flatten.length < 5) :
    acceptedBand p.pinMode p.pinDuty p.prevDuty l = none := by
  unfold acceptedBand
  rw [hm, if_pos rfl, lastOf, if_pos h]
  rfl

/-- No input of a port is next: nothing else falls in its cycle. -/
theorem sameCycle_alone {n : Nat} {s : State} (h : NoInputNext n s) : s.sameCycle n = s := by
  unfold State.sameCycle
  cases hp : s.pending with
  | nil => rfl
  | cons i rest =>
    obtain ⟨h1, h2, h3, h4⟩ := h i rest hp
    unfold arrivals
    split
    next p l => dsimp only; rw [if_neg (fun e : p = n => h1 l (by rw [e]))]
    next p l => dsimp only; rw [if_neg (fun e : p = n => h2 l (by rw [e]))]
    next p l => dsimp only; rw [if_neg (fun e : p = n => h3 l (by rw [e]))]
    next p l => dsimp only; rw [if_neg (fun e : p = n => h4 l (by rw [e]))]
    · rfl

/-! ### What falls in a port's cycle -/

/-- A step that changes no port but one. -/
structure PortStep (n : Nat) (s t : State) : Prop where
  others : ∀ p, p ≠ n → t.prt p = s.prt p
  length : t.vpc.ports.length = s.vpc.ports.length

theorem PortStep.refl (n : Nat) (s : State) : PortStep n s s := ⟨fun _ _ => rfl, rfl⟩

theorem PortStep.trans {n : Nat} {s t v : State} (h1 : PortStep n s t) (h2 : PortStep n t v) : PortStep n s v :=
  ⟨fun p hp => (h2.others p hp).trans (h1.others p hp), h2.length.trans h1.length⟩

theorem onPrt_step (n : Nat) (f : Port → Port) (s : State) : PortStep n s (s.onPrt n f) := ⟨fun _ h => onPrt_prt_of_ne h s f, onPrt_length n f s⟩

theorem evalPort_step (n : Nat) (s : State) : PortStep n s (s.evalPort n) :=
  ⟨fun _ h => evalPort_prt_of_ne h s, by rw [evalPort_ports, onPrt_length]⟩

theorem pilotInput_step (n : Nat) (l : List (List Int)) (s : State) : PortStep n s (pilotInput n l s) := by
  unfold pilotInput
  dsimp only
  split
  · exact .refl n s
  · exact onPrt_step ..

theorem diodeInput_step (n : Nat) (on : Bool) (l : List (List Int)) (s : State) : PortStep n s (diodeInput n on l s) := by
  unfold diodeInput
  dsimp only
  split
  · exact .refl n s
  · exact onPrt_step ..

theorem proxInput_step (n : Nat) (l : List Nat) (s : State) : PortStep n s (proxInput n l s) := by
  unfold proxInput
  dsimp only
  split
  · exact .refl n s
  · exact onPrt_step ..

theorem arrivals_step (n : Nat) (l : List Instr) (s : State) : PortStep n s (arrivals n l s) := by
  induction l generalizing s with
  | nil => exact .refl n s
  | cons i l ih =>
    have hinput {c : Prop} [Decidable c] {f : State → State} (hf : ∀ u, PortStep n u (f u)) :
        PortStep n s (match (if c then some f else none : Option (State → State)) with
          | none => s
          | some f => if Config.freeNat s.free % 2 = 0 then s.took else arrivals n l (f s.took)) := by
      have htook : PortStep n s s.took := ⟨fun _ _ => rfl, rfl⟩
      by_cases hc : c
      · rw [if_pos hc]
        dsimp only
        split
        · exact htook
        · exact (htook.trans (hf _)).trans (ih _)
      · rw [if_neg hc]
        exact .refl n s
    unfold arrivals
    split
    · exact hinput (fun u => pilotInput_step n _ u)
    · exact hinput (fun u => diodeInput_step n true _ u)
    · exact hinput (fun u => diodeInput_step n false _ u)
    · exact hinput (fun u => proxInput_step n _ u)
    · exact .refl n s

theorem sameCycle_step (n : Nat) (s : State) : PortStep n s (s.sameCycle n) := arrivals_step ..

/-! ### The pilot commands -/

theorem portRecord_fields (n : Nat) (s : State) : (portRecord n s).length = 32 ∧ u (portRecord n s) 0 1 = (s.prt n).st.code ∧
    u (portRecord n s) 3 1 = (s.prt n).mode % 256 ∧ u (portRecord n s) 4 2 = (s.prt n).duty % 2 ^ 16 ∧
    u (portRecord n s) 16 4 = (s.prt n).rxFrames % 2 ^ 32 ∧ u (portRecord n s) 24 4 = (s.prt n).rxDrop % 2 ^ 32 := by
  have hcode : (s.prt n).st.code % 256 ^ 1 = (s.prt n).st.code := by cases (s.prt n).st <;> rfl
  refine ⟨by simp [portRecord, leS, zeros], ?_⟩
  simp only [portRecord, leS, List.append_assoc]
  simp (disch := decide) only [u_le_zero, u_le_skip, u_zeros_skip, Nat.reduceSub, hcode]
  exact ⟨trivial, rfl, rfl, rfl, rfl⟩

/-- An order of PILOT_SET clears the fault latch (R255). -/
def State.pilotClears (q : Sqe) (s : State) : Bool :=
  bits (sd q 6) 1 0 == 0 && !bit (sd q 6) 2 && ((s.sameCycle (sd q 1)).prt (sd q 1)).condition.isNone

/-- What arrives in the order's cycle drops the port out of the bands of ENERGY (Table 09-8). -/
def State.pilotDrops (q : Sqe) (s : State) : Bool :=
  (s.prt (sd q 1)).servable (s.conf.port (sd q 1)) && !((s.sameCycle (sd q 1)).prt (sd q 1)).servable (s.conf.port (sd q 1))

/-- A port with the mode, duty and energy flag of a PILOT_SET (R245, R253). -/
def Port.ordered (q : Sqe) (dropped clears : Bool) (p : Port) : Port :=
  { p with mode := bits (sd q 6) 1 0, duty := bits (sd q 6) 25 16, energy := bit (sd q 6) 2 && !dropped, latch := p.latch && !clears }

/-- The port of a PILOT_SET evaluated with its order. -/
def State.pilotOrdered (q : Sqe) (s : State) : State :=
  ((s.sameCycle (sd q 1)).onPrt (sd q 1) (Port.ordered q (s.pilotDrops q) (s.pilotClears q))).evalPort (sd q 1)

theorem pilotSet_eq {q : Sqe} {s : State} (he : (s.conf.port (sd q 1)).enable = true) (ha : (s.prt (sd q 1)).admission = false)
    (hf : (s.prt (sd q 1)).st ≠ .fault ∨ s.pilotClears q = true) :
    pilotSet q s = (s.pilotOrdered q).done q stDONE ((s.pilotOrdered q).prt (sd q 1)).st.code := by
  have hcond : ¬((decide ((s.prt (sd q 1)).st = .fault) && !s.pilotClears q) = true) := by
    rcases hf with h | h <;> simp [h]
  unfold pilotSet
  dsimp only
  rw [if_neg (by simp [he])]
  exact (if_neg hcond).trans (if_neg (by simp [ha]))

theorem pilotSet_fault {q : Sqe} {s : State} (he : (s.conf.port (sd q 1)).enable = true) (hf : (s.prt (sd q 1)).st = .fault)
    (hm : bits (sd q 6) 1 0 = 1) : pilotSet q s = s.done q stBAD_STATE 0 := by
  unfold pilotSet
  dsimp only
  rw [if_neg (by simp [he]), if_pos (by simp [hf, hm])]

theorem pilotOrdered_kept (q : Sqe) (s : State) : PortStep (sd q 1) s (s.pilotOrdered q) ∧ part .fwd (s.pilotOrdered q) = part .fwd s ∧
    part .ready (s.pilotOrdered q) = part .ready s ∧ part .banks (s.pilotOrdered q) = part .banks s := by
  have hpart {π : Part} (hp : π ∉ [.rings, .faults, .spa, .vpc, .out, .free]) : part π (s.pilotOrdered q) = part π s :=
    (evalPort_part (by simp at hp ⊢; tauto) ..).trans ((onPrt_part (by simp at hp ⊢; tauto) ..).trans (sameCycle_part (by simp at hp ⊢; tauto) ..))
  exact ⟨((sameCycle_step ..).trans (onPrt_step ..)).trans (evalPort_step ..), hpart (by simp), hpart (by simp), hpart (by simp)⟩

theorem pilotOrdered_prt {q : Sqe} {s : State} (hl : sd q 1 < s.vpc.ports.length) : (s.pilotOrdered q).prt (sd q 1) =
    (((s.sameCycle (sd q 1)).prt (sd q 1)).ordered q (s.pilotDrops q) (s.pilotClears q)).entered
      (((s.sameCycle (sd q 1)).onPrt (sd q 1) (Port.ordered q (s.pilotDrops q) (s.pilotClears q))).ruled (sd q 1)) := by
  have hlen := (sameCycle_step (sd q 1) s).length
  unfold State.pilotOrdered
  rw [evalPort_prt (by rw [onPrt_length, hlen]; exact hl), onPrt_prt _ (by rw [hlen]; exact hl)]

/-- A PILOT_SET that completes. -/
theorem pilotOrdered_completes {q : Sqe} {s : State} (ho : OwnedAs q.fn q.sq (cidOf q) s) (code : Nat) :
    Completed q stDONE code s (((s.start.accept q).pilotOrdered q).done q stDONE code) ∧
    (∀ p, (((s.start.accept q).pilotOrdered q).done q stDONE code).prt p = ((s.start.accept q).pilotOrdered q).prt p) ∧
    (∀ p, p ≠ sd q 1 → (((s.start.accept q).pilotOrdered q).done q stDONE code).prt p = s.prt p) ∧
    RefsKept s (((s.start.accept q).pilotOrdered q).done q stDONE code) := by
  obtain ⟨hstep, hfwd, hready, hbanks⟩ := pilotOrdered_kept q (s.start.accept q)
  have hprt (p : Nat) : (((s.start.accept q).pilotOrdered q).done q stDONE code).prt p = ((s.start.accept q).pilotOrdered q).prt p :=
    prt_of_part (done_part (by simp) ..) p
  exact ⟨State.done_completed ho hfwd hready, hprt, fun p hp => (hprt p).trans (hstep.others p hp),
    refsKept_of_banks ((done_part (by simp) ..).trans hbanks)⟩

theorem pilotParams_ok {q : Sqe} (h1 : sd q 1 < 16) (h2 : bits (sd q 6) 1 0 ≠ 3) (h3 : ¬(bits (sd q 6) 1 0 = 2 ∧ bit (sd q 6) 2 = true))
    (h4 : bits (sd q 6) 15 3 = 0) (h5 : bits (sd q 6) 31 26 = 0)
    (h6 : if bits (sd q 6) 1 0 = 1 then 30 ≤ bits (sd q 6) 25 16 ∧ bits (sd q 6) 25 16 ≤ 970 else bits (sd q 6) 25 16 = 0) :
    ∀ p ∈ pilotParams q, p.1 = true := by
  have h6' : (if bits (sd q 6) 1 0 = 1 then decide (30 ≤ bits (sd q 6) 25 16) && decide (bits (sd q 6) 25 16 ≤ 970)
      else bits (sd q 6) 25 16 == 0) = true := by
    split at h6 <;> rename_i hm
    · rw [if_pos hm]; simp [h6]
    · rw [if_neg hm]; simp [h6]
  simp only [pilotParams, List.mem_cons, List.not_mem_nil, or_false, forall_eq_or_imp, forall_eq]
  refine ⟨by simp [h1], by simp [h2], ?_, by simp [h4], ?_, by simp [h5]⟩
  · by_cases hm : bits (sd q 6) 1 0 = 2
    · have hb : bit (sd q 6) 2 = false := by simpa using fun hb => h3 ⟨hm, hb⟩
      simp [hb]
    · simp [hm]
  · exact h6'

/-- The pilot commands. -/
theorem pilotCommands : Claim.PilotCommands := by
  unfold Claim.PilotCommands
  refine ⟨?status, ?anyCycle, ?alone, ?clears, ?refused⟩
  case status =>
    intro q s n h h1 h2 h3 h4 h5
    subst h1
    refine answers_taken rfl h (by simp [rangeParams, h2, h3, h4, h5]) ⟨?_, fun p => portRecord_fields p s⟩
    exact replyDone_readOnly h.2.1
  case anyCycle =>
    intro q s h h1 hl h2 h3 h4 h5 h6 he hst hlatch ha
    refine answers_taken rfl h (pilotParams_ok h1 h2 h3 h4 h5 h6) ?_
    rw [pilotSet_eq (s := s.start.accept q) he ha (.inl hst)]
    obtain ⟨hc, hprt, hothers, hrefs⟩ := pilotOrdered_completes h.2.1 (((s.start.accept q).pilotOrdered q).prt (sd q 1)).st.code
    refine ⟨by rw [hprt]; exact hc, fun hen => ?_, hothers, hrefs⟩
    rw [hprt, pilotOrdered_prt (s := s.start.accept q) hl, entered_energy] at hen
    simp only [Port.ordered, Bool.and_eq_true] at hen
    exact hen.1.1
  case alone =>
    intro q s h h1 hl h2 h3 h4 h5 h6 he hst hlatch hcond ha hnext
    refine answers_taken rfl h (pilotParams_ok h1 h2 h3 h4 h5 h6) ?_
    rw [pilotSet_eq (s := s.start.accept q) he ha (.inl hst)]
    obtain ⟨hc, hprt, hothers, hrefs⟩ := pilotOrdered_completes h.2.1 (((s.start.accept q).pilotOrdered q).prt (sd q 1)).st.code
    have hcycle := sameCycle_alone (n := sd q 1) (s := s.start.accept q) hnext
    have hdrops : (s.start.accept q).pilotDrops q = false := by
      unfold State.pilotDrops
      rw [hcycle]
      cases ((s.start.accept q).prt (sd q 1)).servable ((s.start.accept q).conf.port (sd q 1)) <;> rfl
    have hport := pilotOrdered_prt (s := s.start.accept q) hl
    rw [hcycle, hdrops] at hport
    have hrule : ((s.start.accept q).onPrt (sd q 1) (Port.ordered q false ((s.start.accept q).pilotClears q))).ruled (sd q 1) ≠ .fault := by
      unfold State.ruled
      rw [onPrt_prt (s := s.start.accept q) _ hl]
      refine portRule_ne_fault _ _ ?_ hcond
      change ((s.prt (sd q 1)).latch && _) = false
      rw [hlatch]
      rfl
    obtain ⟨-, -, hmode, hduty⟩ := entered_calm (p := ((s.start.accept q).prt (sd q 1)).ordered q false ((s.start.accept q).pilotClears q)) hrule
    refine ⟨by rw [hprt]; exact hc, ?_, ?_, fun hne => ?_, hothers, hrefs⟩
    · rw [hprt, hport, hmode]; rfl
    · rw [hprt, hport, hduty]; rfl
    · rw [hprt, hport, entered_energy]
      change ((bit (sd q 6) 2 && true) && !(decide ((s.prt (sd q 1)).st = .energy) && _)) = _
      rw [decide_eq_false hne]
      simp
  case clears =>
    intro q s h h1 hl h6 he hst hcond ha hcfg hserve hpilot hprox hnext
    refine answers_taken rfl h (pilotParams_ok h1 (by rw [h6]; decide) (by rw [h6]; decide) (by rw [h6]; decide) (by rw [h6]; decide)
      (by rw [h6]; decide)) ?_
    have hcycle := sameCycle_alone (n := sd q 1) (s := s.start.accept q) hnext
    have hclears : (s.start.accept q).pilotClears q = true := by
      unfold State.pilotClears
      rw [hcycle, h6, show ((s.start.accept q).prt (sd q 1)).condition = none from hcond]
      rfl
    rw [pilotSet_eq (s := s.start.accept q) he ha (.inr hclears)]
    obtain ⟨hc, hprt, -, -⟩ := pilotOrdered_completes h.2.1 (((s.start.accept q).pilotOrdered q).prt (sd q 1)).st.code
    have hport := pilotOrdered_prt (s := s.start.accept q) hl
    rw [hcycle, hclears] at hport
    have hrule : ((s.start.accept q).onPrt (sd q 1) (Port.ordered q ((s.start.accept q).pilotDrops q) true)).ruled (sd q 1) = .vacant := by
      unfold State.ruled
      rw [onPrt_prt (s := s.start.accept q) _ hl]
      change portRule s.cfg.isSome s.serves (s.conf.port (sd q 1)) _ = _
      rw [hcfg, hserve, portRule_served (p := ((s.start.accept q).prt (sd q 1)).ordered q ((s.start.accept q).pilotDrops q) true) he ha (by change (s.prt (sd q 1)).pilot.isSome = true; rw [hpilot]; rfl) hprox, if_neg, if_pos (.inl hpilot)]
      change ¬(((s.prt (sd q 1)).latch && false || (s.prt (sd q 1)).condition.isSome) = true)
      simp [hcond]
    rw [hrule] at hport
    obtain ⟨hst', hlat, hmode, -⟩ := entered_calm (p := ((s.start.accept q).prt (sd q 1)).ordered q ((s.start.accept q).pilotDrops q) true)
      (st := .vacant) (by simp)
    refine ⟨?_, ?_, ?_, ?_, ?_⟩
    · rw [hport, hst'] at hc ⊢; exact hc
    · rw [hprt, hport, hlat]; exact Bool.and_false _
    · rw [hprt, hport, hst']
    · rw [hprt, hport, hmode]; change bits (sd q 6) 1 0 = 0; rw [h6]; rfl
    · rw [hprt, hport, entered_energy]
      change ((bit (sd q 6) 2 && _) && _) = false
      rw [h6]
      rfl
  case refused =>
    intro q s h h1 hm h4 h5 h30 h970 he hst
    refine answers_taken rfl h (pilotParams_ok h1 (by rw [hm]; decide) (by rw [hm]; simp) h4 h5 (by rw [if_pos hm]; exact ⟨h30, h970⟩)) ?_
    rw [pilotSet_fault (s := s.start.accept q) he hst hm]
    exact done_onlyCompletes h.2.1

end Sys2Proof.Machine
end
section
/-! PROOFS. Bands accepted, and the states they give a port -/

namespace Sys2Proof.Machine

open Sys2Proof

/-- The state the rules of R252 would give a port with the inputs `p`. -/
def State.judged (s : State) (n : Nat) (p : Port) : PortSt := portRule s.cfg.isSome s.serves (s.conf.port n) p

/-- A port evaluated with new inputs. -/
theorem evaluated_kept {n : Nat} {s : State} (hl : n < s.vpc.ports.length) (p : Port) :
    ((s.start.onPrt n (fun _ => p)).evalPort n).prt n = p.entered (s.judged n p) ∧
    (∀ m, m ≠ n → ((s.start.onPrt n (fun _ => p)).evalPort n).prt m = s.prt m) ∧
    RefsKept s ((s.start.onPrt n (fun _ => p)).evalPort n) ∧
    (n < s.spa.inp.ready.length → s.judged n p ≠ p.st →
      ((s.start.onPrt n (fun _ => p)).evalPort n).spa.inp.ready.getD n false = decide (s.judged n p = .energy)) := by
  have hprt : (s.start.onPrt n (fun _ => p)).prt n = p := onPrt_prt (s := s.start) _ hl
  have hrule : (s.start.onPrt n (fun _ => p)).ruled n = s.judged n p := by
    unfold State.ruled
    rw [hprt]
    rfl
  refine ⟨?_, fun m hm => ?_, ?_, fun hn hne => ?_⟩
  · rw [evalPort_prt (by rw [onPrt_length]; exact hl), hrule, hprt]
  · exact (evalPort_prt_of_ne hm _).trans (onPrt_prt_of_ne hm s.start _)
  · exact refsKept_of_banks (evalPort_part (π := .banks) (by simp) ..)
  · rw [evalPort_ready (s := s.start.onPrt n (fun _ => p)) hn (by rw [hrule, hprt]; exact hne), hrule]

/-! ### High-plateau samples -/

/-- A port with the samples of its high plateau (R247, R248). -/
def Port.sampled (l : List (List Int)) (p : Port) : Port :=
  let p1 : Port := { p with
    pilotHi := l.flatten.getLast?.getD p.pilotHi, pilot := (acceptedBand p.pinMode p.pinDuty p.prevDuty l).or p.pilot }
  { p1 with diode := p1.diode && p1.lowSampled }

theorem execPilotBandAccept_alone {n : Nat} {l : List (List Int)} {s : State} (he : (s.conf.port n).enable = true) (hm : (s.prt n).pinMode < 2)
    (hnext : NoInputNext n s) : exec (.pilotBandAccept n l) s = .next ((s.start.onPrt n (fun _ => (s.prt n).sampled l)).evalPort n) := by
  have hread : s.start.highRead n = true := by
    unfold State.highRead
    rw [Bool.and_eq_true]
    exact ⟨he, decide_eq_true hm⟩
  have hin : pilotInput n l s.start = s.start.onPrt n (fun _ => (s.prt n).sampled l) := by
    unfold pilotInput
    dsimp only
    rw [if_neg (by rw [hread]; simp)]
    rfl
  change Host.Outcome.next (pilotAccept n l s.start) = _
  unfold pilotAccept
  rw [if_pos hread, hin, sameCycle_alone (s := s.start.onPrt n (fun _ => (s.prt n).sampled l)) hnext]

theorem sampled_band {p : Port} {l : List (List Int)} {b : Nat} (hd : p.diode = false) (h : acceptedBand p.pinMode p.pinDuty p.prevDuty l = some b) :
    p.sampled l = { p with pilotHi := l.flatten.getLast?.getD p.pilotHi, pilot := some b } := by
  unfold Port.sampled
  dsimp only
  rw [h, hd]
  rfl

theorem plateau_pinMode {p : Port} {l : List (List Int)} {x : List Int} (h : Plateau p l x) : p.pinMode < 2 := by
  rcases h with ⟨h, -⟩ | ⟨h, -⟩ <;> omega

/-! ### Proximity readings -/

/-- A port with its proximity readings (R250). -/
def Port.felt (r : PortRec) (l : List Nat) (p : Port) : Port :=
  { p with prox := ((lastOf 5 l).bind (fun x => common (x.map (proxBand r)))).or p.prox, pp := l.getLast?.getD p.pp }

theorem upd_eq_const {α : Type} (l : List α) (n : Nat) (f : α → α) (d : α) : upd l n f = upd l n (fun _ => f (l.getD n d)) := by
  rw [upd_const]
  by_cases h : n < l.length
  · exact (upd_getD l n f d h).2
  · rw [List.set_eq_of_length_le (by omega)]
    exact List.modify_eq_self (by omega)

theorem onPrt_const (n : Nat) (f : Port → Port) (s : State) : s.onPrt n f = s.onPrt n (fun _ => f (s.prt n)) := by
  unfold State.onPrt State.prt State.onVpc
  dsimp only
  rw [upd_eq_const s.vpc.ports n f Port.reset]

theorem execProximityBandAccept_alone {n : Nat} {l : List Nat} {s : State} (he : (s.conf.port n).enable = true) (hnext : NoInputNext n s) :
    exec (.proximityBandAccept n l) s = .next ((s.start.onPrt n (fun _ => (s.prt n).felt (s.conf.port n) l)).evalPort n) := by
  have he' : (s.start.conf.port n).enable = true := he
  have hin : proxInput n l s.start = s.start.onPrt n (fun _ => (s.prt n).felt (s.conf.port n) l) := by
    unfold proxInput
    dsimp only
    rw [if_neg (by rw [he']; simp)]
    exact onPrt_const n (Port.felt (s.conf.port n) l) s.start
  change Host.Outcome.next (proxAccept n l s.start) = _
  unfold proxAccept
  rw [if_pos he', hin, sameCycle_alone (s := s.start.onPrt n (fun _ => (s.prt n).felt (s.conf.port n) l)) hnext]

theorem felt_band {r : PortRec} {l x : List Nat} {b : Nat} (p : Port) (h5 : x.length = 5) (hx : x <:+ l) (hb : ∀ v ∈ x, proxBand r v = b) :
    p.felt r l = { p with prox := some b, pp := l.getLast?.getD p.pp } := by
  have hlast : lastOf 5 l = some x := h5 ▸ lastOf_suffix hx
  unfold Port.felt
  rw [hlast, Option.bind_some, common_const (by intro h; rw [h] at h5; simp at h5) hb]
  rfl

/-! ### Low-plateau samples -/

/-- A port whose diode fault low-plateau samples set or clear (R249). -/
def Port.probed (on : Bool) (l : List (List Int)) (p : Port) : Port := { p with diode := on, pilotLo := l.flatten.getLast?.getD p.pilotLo }

theorem exec_diode_alone {n : Nat} {on : Bool} {i : Instr} {l : List (List Int)} {s : State} (hi : exec i s = .next (diodeChange n on l s.start))
    (he : (s.conf.port n).enable = true) (hlow : (s.prt n).lowSampled = true) (hp : LowPlateaus (s.prt n) l)
    (hseen : ∀ y ∈ l.drop (l.length - 2), (y.all (fun v => -10500 < v) == on) = true) (hnext : NoInputNext n s) :
    exec i s = .next ((s.start.onPrt n (fun _ => (s.prt n).probed on l)).evalPort n) := by
  have hread : s.start.lowRead n = true := by
    unfold State.lowRead
    rw [Bool.and_eq_true]
    exact ⟨he, hlow⟩
  obtain ⟨before, a, b, rfl, hb, ha⟩ := hp
  have htwo := twoPeriods_pair (span := fun d => 1000 - d) (before := before) hb ha
  have hdrop : (before ++ [a, b]).drop ((before ++ [a, b]).length - 2) = [a, b] := by simp
  rw [hdrop] at hseen
  have hin : diodeInput n on (before ++ [a, b]) s.start = s.start.onPrt n (fun _ => (s.prt n).probed on (before ++ [a, b])) := by
    have hall : (twoPeriods (fun d => 1000 - d) (s.start.prt n).pinDuty (s.start.prt n).prevDuty (before ++ [a, b])).any
        (fun x => x.all (fun y => y.all (fun v => -10500 < v) == on)) = true := by
      have h2 : twoPeriods (fun d => 1000 - d) (s.start.prt n).pinDuty (s.start.prt n).prevDuty (before ++ [a, b]) = some [a, b] := htwo
      rw [h2, Option.any_some, List.all_eq_true]
      exact hseen
    unfold diodeInput
    dsimp only
    rw [if_neg (by rw [hread]; simp), hall]
    exact onPrt_const n (Port.probed on (before ++ [a, b])) s.start
  rw [hi]
  unfold diodeChange
  rw [if_pos hread, hin, sameCycle_alone (s := s.start.onPrt n (fun _ => (s.prt n).probed on (before ++ [a, b]))) hnext]

/-! ### The mode takes effect -/

/-- A port whose mode and duty have taken effect (R246). -/
def Port.effected (p : Port) : Port :=
  let p1 : Port := { p with
    pinMode := p.mode, pinDuty := p.duty, prevDuty := if p.pinMode = p.mode then p.pinDuty else p.duty, pilot := if p.mode = 2 then some 5 else p.pilot
    pilotLo := if p.mode = 1 then p.pilotLo else 0 }
  { p1 with diode := p1.diode && p1.lowSampled }

theorem pilotEffect_eq {n : Nat} {s : State} (h3 : (s.prt n).pinMode ≠ 3) (hd : (s.prt n).pinMode ≠ (s.prt n).mode ∨ (s.prt n).pinDuty ≠ (s.prt n).duty) :
    pilotEffect n s = ((s.onPrt n (fun _ => (s.prt n).effected)).emit (.pilot n (s.prt n).mode (s.prt n).duty)).evalPort n := by
  unfold pilotEffect
  dsimp only
  rw [if_neg (by
    rintro (h | ⟨h, h'⟩)
    · exact h3 h
    · rcases hd with hd | hd
      · exact hd h
      · exact hd h')]
  rfl

theorem effected_entered (p : Port) (st : PortSt) : (p.effected.entered st).pinMode = p.mode ∧ (p.effected.entered st).pinDuty = p.duty ∧
    (p.mode = 2 → (p.effected.entered st).pilot = some 5) := by
  refine ⟨rfl, rfl, fun h => ?_⟩
  change (if p.mode = 2 then some 5 else p.pilot) = some 5
  rw [if_pos h]

/-! ### The states -/

theorem pilotBand_a {mv : Int} (h : 10500 ≤ mv ∧ mv < 13500) : pilotBand mv = 0 := by unfold pilotBand; (repeat' split) <;> omega
theorem pilotBand_b {mv : Int} (h : 7500 ≤ mv ∧ mv < 10500) : pilotBand mv = 1 := by unfold pilotBand; (repeat' split) <;> omega
theorem pilotBand_c {mv : Int} (h : 4500 ≤ mv ∧ mv < 7500) : pilotBand mv = 2 := by unfold pilotBand; (repeat' split) <;> omega
theorem pilotBand_d {mv : Int} (h : 1500 ≤ mv ∧ mv < 4500) : pilotBand mv = 3 := by unfold pilotBand; (repeat' split) <;> omega
theorem pilotBand_e {mv : Int} (h : -1500 ≤ mv ∧ mv < 1500) : pilotBand mv = 4 := by unfold pilotBand; (repeat' split) <;> omega
theorem pilotBand_outside {mv : Int} (h : mv < -1500 ∨ 13500 ≤ mv) : pilotBand mv = 6 := by unfold pilotBand; (repeat' split) <;> omega

section
variable {n : Nat} {s : State} (hcfg : s.cfg.isSome = true) (hserve : s.serves = true) (he : (s.conf.port n).enable = true)
include hcfg hserve he

/-- The state of an enabled port in a device that serves. -/
theorem judged_served {p : Port} (ha : p.admission = false) (h1 : p.pilot.isSome) (h2 : p.prox.isSome) : s.judged n p =
    if p.latch || p.condition.isSome then .fault
    else if p.pilot = some 0 ∨ p.prox = some 0 then .vacant
    else if (p.pilot = some 2 ∨ (p.pilot = some 3 ∧ (s.conf.port n).ventOk)) ∧ p.prox = some 2 ∧ p.mode ≤ 1 ∧ p.energy then .energy
    else .plugged := by
  unfold State.judged
  rw [hcfg, hserve, portRule_served he ha h1 h2]

/-- A port with no fault and both bands (rules 5 to 7 of R252). -/
theorem judged_calm {p : Port} {a b : Nat} (hl : p.latch = false) (ha : p.admission = false) (hd : p.diode = false) (h1 : p.pilot = some a)
    (h2 : p.prox = some b) (ha4 : a ≠ 4) (ha6 : a ≠ 6) (hb3 : b ≠ 3) : s.judged n p =
    if a = 0 ∨ b = 0 then .vacant
    else if (a = 2 ∨ (a = 3 ∧ (s.conf.port n).ventOk = true)) ∧ b = 2 ∧ p.mode ≤ 1 ∧ p.energy = true then .energy
    else .plugged := by
  have hcond : p.condition = none := by
    unfold Port.condition
    simp [h1, h2, hd, ha4, ha6, hb3]
  rw [judged_served hcfg hserve he ha (by rw [h1]; rfl) (by rw [h2]; rfl), if_neg (by simp [hl, hcond]), h1, h2]
  simp only [Option.some.injEq]

/-- A port with a condition of rule 4. -/
theorem judged_fault {p : Port} (ha : p.admission = false) (h1 : p.pilot.isSome) (h2 : p.prox.isSome) (hc : p.latch = true ∨ p.condition.isSome = true) :
    s.judged n p = .fault := by
  rw [judged_served hcfg hserve he ha h1 h2, if_pos (by rcases hc with h | h <;> simp [h])]

end

/-- Bands and port states. -/
theorem portStates : Claim.PortStates := by
  unfold Claim.PortStates
  refine ⟨?high, ?few, ?none_, ?prox, ?diode, ?diodeClear, ?effect⟩
  case high =>
    intro n l x s hl hready hcfg hserve he hpl hlatch ha hd hprox hmode hst hnext
    refine ⟨_, execPilotBandAccept_alone he (plateau_pinMode hpl) hnext, ?_⟩
    obtain ⟨hprt, hothers, hrefs, hsees⟩ := evaluated_kept hl ((s.prt n).sampled l)
    generalize (s.start.onPrt n (fun _ => (s.prt n).sampled l)).evalPort n = t at *
    have hband {b : Nat} (hb : ∀ v ∈ x, pilotBand v = b) := sampled_band hd (acceptedBand_of_plateau hpl hb)
    have hcalm {b : Nat} (hb : ∀ v ∈ x, pilotBand v = b) (h4 : b ≠ 4) (h6 : b ≠ 6) := judged_calm hcfg hserve he (p := (s.prt n).sampled l) (a := b)
      (by rw [hband hb]; exact hlatch) (by rw [hband hb]; exact ha) (by rw [hband hb]; exact hd) (by rw [hband hb]) (by rw [hband hb]; exact hprox) h4 h6 (by decide)
    have hpst : ((s.prt n).sampled l).st = (s.prt n).st := rfl
    have hpmode : ((s.prt n).sampled l).mode = (s.prt n).mode := rfl
    have hpen : ((s.prt n).sampled l).energy = (s.prt n).energy := rfl
    have hpilot (st : PortSt) : (((s.prt n).sampled l).entered st).pilot = ((s.prt n).sampled l).pilot := rfl
    have hleaves {st : PortSt} (hr : s.judged n ((s.prt n).sampled l) = st) (hne : st ≠ .energy) (hs : (s.prt n).st = .energy) :
        (t.prt n).energy = false ∧ t.spa.inp.ready.getD n false = false := by
      refine ⟨?_, ?_⟩
      · rw [hprt, hr, entered_energy, hpst, hs, decide_eq_true hne]
        simp
      · rw [hsees hready (by rw [hr, hpst, hs]; exact hne), hr, decide_eq_false hne]
    have hfaults {b c : Nat} (hb : ∀ v ∈ x, pilotBand v = b) (hc : ({ s.prt n with pilotHi := l.flatten.getLast?.getD (s.prt n).pilotHi, pilot := some b } : Port).condition = some c) :
        (t.prt n).pilot = some b ∧ (t.prt n).st = .fault ∧ (t.prt n).latch = true ∧ (t.prt n).mode = 0 ∧ (t.prt n).cause = c := by
      have hr := judged_fault hcfg hserve he (p := (s.prt n).sampled l) (by rw [hband hb]; exact ha) (by rw [hband hb]; rfl) (by rw [hband hb]; change (s.prt n).prox.isSome = true; rw [hprox]; rfl)
        (.inr (by rw [hband hb, hc]; rfl))
      obtain ⟨h1, h2, h3, h4⟩ := entered_fault (p := (s.prt n).sampled l) (by rw [hband hb]; exact hlatch) hst
      rw [hprt, hr, hpilot]
      exact ⟨by rw [hband hb], h1, h2, h3, by rw [h4, hband hb, hc]; rfl⟩
    refine ⟨fun h hen => ?_, fun h => ?_, fun h => ?_, fun h => ?_, fun h => ?_, fun h => ?_, ?_, hothers, hrefs⟩
    · have hb : ∀ v ∈ x, pilotBand v = 2 := fun v hv => pilotBand_c (h v hv)
      have hr : s.judged n ((s.prt n).sampled l) = .energy := by
        rw [hcalm hb (by decide) (by decide), if_neg (by decide), if_pos ⟨.inl rfl, rfl, hmode, hen⟩]
      refine ⟨by rw [hprt, hpilot, hband hb], by rw [hprt, hr]; rfl, fun hne => ?_⟩
      rw [hsees hready (by rw [hr]; exact fun e => hne e.symm), hr]
      rfl
    · have hb : ∀ v ∈ x, pilotBand v = 1 := fun v hv => pilotBand_b (h v hv)
      have hr : s.judged n ((s.prt n).sampled l) = .plugged := by
        rw [hcalm hb (by decide) (by decide), if_neg (by decide), if_neg (by simp)]
      exact ⟨by rw [hprt, hpilot, hband hb], by rw [hprt, hr]; rfl, hleaves hr (by simp)⟩
    · have hb : ∀ v ∈ x, pilotBand v = 0 := fun v hv => pilotBand_a (h v hv)
      have hr : s.judged n ((s.prt n).sampled l) = .vacant := by
        rw [hcalm hb (by decide) (by decide), if_pos (.inl rfl)]
      exact ⟨by rw [hprt, hpilot, hband hb], by rw [hprt, hr]; rfl, hleaves hr (by simp)⟩
    · have hb : ∀ v ∈ x, pilotBand v = 3 := fun v hv => pilotBand_d (h v hv)
      have hr := hcalm hb (by decide) (by decide)
      rw [if_neg (by decide)] at hr
      refine ⟨by rw [hprt, hpilot, hband hb], fun hv => ?_, fun hv hen => ?_⟩
      · rw [if_neg (by simp [hv])] at hr
        rw [hprt, hr]; rfl
      · rw [if_pos ⟨.inr ⟨rfl, hv⟩, rfl, hmode, hen⟩] at hr
        rw [hprt, hr]; rfl
    · exact hfaults (fun v hv => pilotBand_e (h v hv)) rfl
    · exact hfaults (fun v hv => pilotBand_outside (h v hv)) rfl
    · rw [hprt]; rfl
  case few =>
    intro n l s hl he hm hlt hnext
    refine ⟨_, execPilotBandAccept_alone he (by omega) hnext, ?_⟩
    obtain ⟨hprt, hothers, -⟩ := evaluated_kept hl ((s.prt n).sampled l)
    refine ⟨?_, hothers⟩
    rw [hprt]
    change ((acceptedBand (s.prt n).pinMode (s.prt n).pinDuty (s.prt n).prevDuty l).or (s.prt n).pilot) = (s.prt n).pilot
    rw [acceptedBand_few hm hlt]
    rfl
  case none_ =>
    intro n l s hm
    have hread : s.start.highRead n = false := by
      unfold State.highRead
      rw [Bool.and_eq_false_iff]
      exact .inr (decide_eq_false (Nat.not_lt_of_ge hm))
    refine ⟨_, rfl, ?_⟩
    rw [pilotAccept, if_neg (by rw [hread]; simp)]
    rfl
  case prox =>
    intro n l x s hl h5 hx hready hcfg hserve he hlatch ha hd hpilot hmode hst hlm hmh hnext
    refine ⟨_, execProximityBandAccept_alone he hnext, ?_⟩
    obtain ⟨hprt, hothers, hrefs, -⟩ := evaluated_kept hl ((s.prt n).felt (s.conf.port n) l)
    generalize (s.start.onPrt n (fun _ => (s.prt n).felt (s.conf.port n) l)).evalPort n = t at *
    have hband {b : Nat} (hb : ∀ v ∈ x, proxBand (s.conf.port n) v = b) := felt_band (s.prt n) h5 hx hb
    have hcalm {b : Nat} (hb : ∀ v ∈ x, proxBand (s.conf.port n) v = b) (h3 : b ≠ 3) := judged_calm hcfg hserve he (p := (s.prt n).felt (s.conf.port n) l)
      (a := 2) (b := b) hlatch ha hd hpilot (by rw [hband hb]) (by decide) (by decide) h3
    have hbands (v : Nat) : proxBand (s.conf.port n) v = if v ≥ (s.conf.port n).ppHi then 0 else if v ≥ (s.conf.port n).ppMid then 1
      else if v ≥ (s.conf.port n).ppLo then 2 else 3 := rfl
    refine ⟨fun h => ?_, fun h => ?_, fun h hen => ?_, fun h => ?_, ?_, hothers, hrefs⟩
    · have hb : ∀ v ∈ x, proxBand (s.conf.port n) v = 0 := fun v hv => by rw [hbands, if_pos (h v hv)]
      have hr := hcalm hb (by decide)
      rw [if_pos (.inr rfl)] at hr
      exact ⟨by rw [hprt, hr, hband hb]; rfl, by rw [hprt, hr]; rfl⟩
    · have hb : ∀ v ∈ x, proxBand (s.conf.port n) v = 1 := fun v hv => by
        obtain ⟨h1, h2⟩ := h v hv
        rw [hbands, if_neg (by omega), if_pos h1]
      have hr := hcalm hb (by decide)
      rw [if_neg (by decide), if_neg (by simp)] at hr
      exact ⟨by rw [hprt, hr, hband hb]; rfl, by rw [hprt, hr]; rfl⟩
    · have hb : ∀ v ∈ x, proxBand (s.conf.port n) v = 2 := fun v hv => by
        obtain ⟨h1, h2⟩ := h v hv
        rw [hbands, if_neg (by omega), if_neg (by omega), if_pos h1]
      have hr := hcalm hb (by decide)
      rw [if_neg (by decide), if_pos ⟨.inl rfl, rfl, hmode, hen⟩] at hr
      exact ⟨by rw [hprt, hr, hband hb]; rfl, by rw [hprt, hr]; rfl⟩
    · have hb : ∀ v ∈ x, proxBand (s.conf.port n) v = 3 := fun v hv => by
        have h1 := h v hv
        rw [hbands, if_neg (by omega), if_neg (by omega), if_neg (by omega)]
      have hc : ((s.prt n).felt (s.conf.port n) l).condition = some 3 := by
        rw [hband hb]
        unfold Port.condition
        simp [hpilot, hd]
      have hr := judged_fault hcfg hserve he (p := (s.prt n).felt (s.conf.port n) l) ha (by change (s.prt n).pilot.isSome = true; rw [hpilot]; rfl)
        (by rw [hband hb]; rfl) (.inr (by rw [hc]; rfl))
      obtain ⟨h1, h2, -, h4⟩ := entered_fault (p := (s.prt n).felt (s.conf.port n) l) hlatch hst
      exact ⟨by rw [hprt, hr, hband hb]; rfl, by rw [hprt, hr]; exact h1, by rw [hprt, hr]; exact h2, by rw [hprt, hr, h4, hc]; rfl⟩
    · rw [hprt]; rfl
  case diode =>
    intro n l s hl hcfg hserve he hp hseen hp4 hp6 hlow hlatch ha hprox hst hnext
    have hi := exec_diode_alone (i := .diodeFaultAccept n l) (on := true) rfl he hlow hp (fun y hy => by
      rw [beq_true, List.all_eq_true]
      exact fun v hv => decide_eq_true (hseen y hy v hv)) hnext
    refine ⟨_, hi, ?_⟩
    obtain ⟨hprt, hothers, -⟩ := evaluated_kept hl ((s.prt n).probed true l)
    have hsome : (s.prt n).pilot.isSome = true := by
      unfold Port.lowSampled at hlow
      cases hpi : (s.prt n).pilot with
      | none => rw [hpi] at hlow; simp at hlow
      | some b => rfl
    have hc : ((s.prt n).probed true l).condition = some 2 := by
      unfold Port.condition
      exact (if_neg hp4).trans ((if_neg hp6).trans rfl)
    have hr := judged_fault hcfg hserve he (p := (s.prt n).probed true l) ha hsome (by change (s.prt n).prox.isSome = true; rw [hprox]; rfl)
      (.inr (by rw [hc]; rfl))
    obtain ⟨h1, h2, h3, h4⟩ := entered_fault (p := (s.prt n).probed true l) hlatch hst
    rw [hprt, hr]
    exact ⟨rfl, h1, by rw [h4, hc]; rfl, h2, h3, hothers⟩
  case diodeClear =>
    intro n l s hl hcfg hserve he hp hseen hlow hlatch ha hprox hnext
    have hi := exec_diode_alone (i := .diodeFaultClear n l) (on := false) rfl he hlow hp (fun y hy => by
      obtain ⟨v, hv, hle⟩ := hseen y hy
      rw [beq_iff_eq, List.all_eq_false]
      exact ⟨v, hv, by simpa using hle⟩) hnext
    refine ⟨_, hi, ?_⟩
    obtain ⟨hprt, hothers, -⟩ := evaluated_kept hl ((s.prt n).probed false l)
    have hsome : (s.prt n).pilot.isSome = true := by
      unfold Port.lowSampled at hlow
      cases hpi : (s.prt n).pilot with
      | none => rw [hpi] at hlow; simp at hlow
      | some b => rfl
    have hr := judged_fault hcfg hserve he (p := (s.prt n).probed false l) ha hsome (by change (s.prt n).prox.isSome = true; rw [hprox]; rfl)
      (.inl hlatch)
    rw [hprt, hr]
    refine ⟨rfl, rfl, ?_, hothers⟩
    change ((s.prt n).latch || true) = true
    simp
  case effect =>
    intro n s hl h3 hd
    have he : exec (.pilotChangeEffect n) s = .next (((s.start.onPrt n (fun _ => (s.prt n).effected)).emit
        (.pilot n (s.prt n).mode (s.prt n).duty)).evalPort n) := congrArg Host.Outcome.next (pilotEffect_eq (s := s.start) h3 hd)
    have hprt := evalPort_prt (n := n) (s := (s.start.onPrt n (fun _ => (s.prt n).effected)).emit (.pilot n (s.prt n).mode (s.prt n).duty))
      ((onPrt_length n _ s.start).symm ▸ hl)
    rw [show ((s.start.onPrt n (fun _ => (s.prt n).effected)).emit (.pilot n (s.prt n).mode (s.prt n).duty)).prt n = (s.prt n).effected from
      onPrt_prt (s := s.start) _ hl] at hprt
    obtain ⟨hpin, hduty, hpilot⟩ := effected_entered (s.prt n) (((s.start.onPrt n (fun _ => (s.prt n).effected)).emit
      (.pilot n (s.prt n).mode (s.prt n).duty)).ruled n)
    obtain ⟨rest, hrest⟩ := evalPort_prefix n ((s.start.onPrt n (fun _ => (s.prt n).effected)).emit (.pilot n (s.prt n).mode (s.prt n).duty))
    refine ⟨_, he, ?_, ?_, ?_, ?_, fun p hp => ?_, ?_⟩
    · rw [← hrest]; rfl
    · rw [hprt, hpin]
    · rw [hprt, hduty]
    · rw [hprt]; exact hpilot
    · exact (evalPort_prt_of_ne hp _).trans (onPrt_prt_of_ne hp s.start _)
    · exact refsKept_of_banks (evalPort_part (π := .banks) (by simp) ..)

/-- Settles O45, from its two parts. -/
theorem portConduct : Obligations.PortConduct := by
  unfold Obligations.PortConduct
  exact ⟨pilotCommands, portStates⟩

end Sys2Proof.Machine
end
section
/-! PROOFS. Vehicle frames and the modem -/

namespace Sys2Proof.Machine

open Sys2Proof

/-! ### Checks of a frame -/

/-- A CRC of 32 bits stays one through its bytes. -/
theorem crcFold_lt {step : Nat → Nat} (h : ∀ x < 2 ^ 32, step x < 2 ^ 32) (b : List Byte) :
    b.foldl (fun c x => step (step (step (step (step (step (step (step (c ^^^ x.toNat))))))))) 0xFFFFFFFF < 2 ^ 32 := by
  induction b using List.reverseRecOn with
  | nil => exact show 0xFFFFFFFF < 2 ^ 32 by decide
  | append_singleton b x ih =>
    rw [List.foldl_append]
    have hx : x.toNat < 2 ^ 32 := x.isLt.trans (by decide)
    exact h _ (h _ (h _ (h _ (h _ (h _ (h _ (h _ (Nat.xor_lt_two_pow ih hx))))))))

theorem crc32_lt (b : List Byte) : crc32 b < 2 ^ 32 := by
  have hstep : ∀ x < 2 ^ 32, crc32Bit x < 2 ^ 32 := fun x hx => by
    unfold crc32Bit
    split
    · exact Nat.xor_lt_two_pow (by omega) (by decide)
    · omega
  exact Nat.xor_lt_two_pow (crcFold_lt hstep b) (by decide)

theorem crc32c_fits (b : List Byte) : crc32c b < 2 ^ 32 := by
  have hstep : ∀ x < 2 ^ 32, crc32cBit x < 2 ^ 32 := fun x hx => by
    unfold crc32cBit
    split
    · exact Nat.xor_lt_two_pow (by omega) (by decide)
    · omega
  exact Nat.xor_lt_two_pow (crcFold_lt hstep b) (by decide)

/-- Four bytes behind a frame: the frame is the rest, and its FCS is theirs (R265). -/
theorem fcs_split {d fcs : List Byte} (h : fcs.length = 4) : (d ++ fcs).take ((d ++ fcs).length - 4) = d ∧
    fcsGood (d ++ fcs) = (crc32 d == leVal fcs) := by
  have hlen : (d ++ fcs).length - 4 = d.length := by simp [h]
  have hge : 4 ≤ (d ++ fcs).length := by simp [h]
  have hu : u (d ++ fcs) d.length 4 = leVal fcs := by
    rw [u, List.drop_left, List.take_of_length_le (by omega)]
  refine ⟨by rw [hlen, List.take_left], ?_⟩
  unfold fcsGood
  rw [hlen, List.take_left, hu, decide_eq_true hge, Bool.true_and]

theorem leVal_crc32 (d : List Byte) : leVal (le 4 (crc32 d)) = crc32 d := by
  rw [leVal_le]
  exact Nat.mod_eq_of_lt (crc32_lt d)

/-! ### Frames that arrive -/

theorem frameArrives_stored {n k : Nat} {d : List Byte} {s : State} (he : (s.conf.port n).enable = true) (h14 : 14 ≤ d.length) (h1518 : d.length ≤ 1518)
    (hk : s.freeSlot n 0 ((s.prt n).rx.map (fun t => t.slot)) = some k) : frameArrives n d true s =
    s.onPrt n (fun p => { p with
      rx := p.rx ++ [⟨k, le 8 s.sTime ++ le 2 d.length ++ le 1 n ++ [0] ++ zeros 4 ++ d⟩], rxFrames := incSat p.rxFrames }) := by
  unfold frameArrives
  rw [if_neg (by simp [he]), if_neg (by simp; omega), hk]
  rfl

theorem frameArrives_dropped {n : Nat} {d : List Byte} {s : State} (he : (s.conf.port n).enable = true) (h14 : 14 ≤ d.length) (h1518 : d.length ≤ 1518)
    (hk : s.freeSlot n 0 ((s.prt n).rx.map (fun t => t.slot)) = none) : frameArrives n d true s =
    (s.onPrt n (fun p => { p with rxDrop := incSat p.rxDrop })).vpcEvent n 0x02
      ((s.onPrt n (fun p => { p with rxDrop := incSat p.rxDrop })).prt n).rxDrop := by
  unfold frameArrives
  rw [if_neg (by simp [he]), if_neg (by simp; omega), hk]

theorem frameArrives_bad {n : Nat} {d : List Byte} {good : Bool} {s : State} (he : (s.conf.port n).enable = true)
    (hbad : good = false ∨ d.length < 14 ∨ 1518 < d.length) : frameArrives n d good s = s.onPrt n (fun p => { p with rxFcs := incSat p.rxFcs }) := by
  unfold frameArrives
  rw [if_neg (by simp [he]), if_pos (by rcases hbad with h | h | h <;> simp [h])]

theorem execVehicleFrameRx_phy {n : Nat} {d fcs : List Byte} {s : State} (hc : (s.conf.port n).ccs = false) (h : fcs.length = 4) :
    exec (.vehicleFrameRx n d fcs) s = .next (frameArrives n d (crc32 d == leVal fcs) s.start) := by
  obtain ⟨h1, h2⟩ := fcs_split (d := d) h
  have hc' : (s.start.conf.port n).ccs = false := hc
  change execVehicleFrameRx n d fcs s = _
  unfold execVehicleFrameRx
  dsimp only
  rw [h1, h2, if_neg (by simp [hc'])]

theorem vpcEvent_lastEvent (n sub arg : Nat) (s : State) : (s.vpcEvent n sub arg).vpc.lastEvent = some (n, sub, arg % 256) := by
  simp [State.vpcEvent, State.onVpc]

/-! ### Frames that leave -/

theorem bump_gen (i : Nat) (t : Tmf) : (t.bump i).gen i = nextGen (t.gen i) := by
  unfold Tmf.bump Tmf.gen
  rw [look_put_self]
  rfl

/-- A port without its oldest received frame and its oldest buffer. -/
def State.handed (n : Nat) (rx : List FrameTile) (bufs : List RxBuf) (s : State) : State := s.onPrt n (fun p => { p with rx := rx, bufs := bufs })

theorem frameDelivery_good {n : Nat} {s : State} {f : FrameTile} {rx : List FrameTile} {b : RxBuf} {bufs : List RxBuf} (hr : (s.prt n).rx = f :: rx)
    (hb : (s.prt n).bufs = b :: bufs) : frameDelivery n true s =
    (((s.handed n rx bufs).freeTiles [frameTile n f.slot]).dma .pf0 b.addr f.bytes).complete .pf0 b.sq b.cid stDONE (f.bytes.length - 16) := by
  unfold frameDelivery
  rw [hr, hb]
  rfl

theorem frameDelivery_bad {n : Nat} {s : State} {f : FrameTile} {rx : List FrameTile} {b : RxBuf} {bufs : List RxBuf} (hr : (s.prt n).rx = f :: rx)
    (hb : (s.prt n).bufs = b :: bufs) : frameDelivery n false s =
    (((s.handed n rx bufs).freeTiles []).complete .pf0 b.sq b.cid stTILE_CHECK 0).retire consHqe (frameTile n f.slot) n false := by
  unfold frameDelivery
  rw [hr, hb]
  rfl

/-- A completion of another command, with a tile retired behind it. -/
theorem completeRetire_kept {sq cid st r c i src : Nat} {o : Bool} {s s1 : State} (ho : OwnedAs .pf0 sq cid s) (hh : s1.hqe = s.hqe) :
    CompletedAs .pf0 sq cid st r s ((s1.complete .pf0 sq cid st r).retire c i src o) ∧
    (∀ p, ((s1.complete .pf0 sq cid st r).retire c i src o).prt p = s1.prt p) ∧ NoHostWrite s1 ((s1.complete .pf0 sq cid st r).retire c i src o) := by
  obtain ⟨⟨hready, hfwd⟩, -⟩ := complete_kept (st := st) (r := r) ho hh
  have hr : ((s1.complete .pf0 sq cid st r).retire c i src o).hqe.ready = (s1.complete .pf0 sq cid st r).hqe.ready :=
    retire_part (π := .ready) (by simp) ..
  have hf : ((s1.complete .pf0 sq cid st r).retire c i src o).hqe.fwd = (s1.complete .pf0 sq cid st r).hqe.fwd :=
    retire_part (π := .fwd) (by simp) ..
  refine ⟨⟨by rw [hr]; exact hready, by rw [hf]; exact hfwd⟩, fun p => ?_, ?_⟩
  · exact (prt_of_part (retire_part (by simp) ..) p).trans (prt_of_part (complete_part (by simp) ..) p)
  · exact (NoHostWrite.of_eq (complete_part (π := .out) (by simp) ..)).trans (retire_noHostWrite ..)

/-- A port without its oldest FRAME_TX. -/
def State.unqueued (n : Nat) (rest : List TxReq) (s : State) : State := s.onPrt n (fun p => { p with tx := rest })

/-- A port that has counted a frame sent. -/
def Port.txCounted (due : Bool) (p : Port) : Port := { p with txFrames := incSat p.txFrames, statusDue := due }

def State.frameCounted (n : Nat) (due : Bool) (s : State) : State := s.onPrt n (Port.txCounted due)

theorem frameSent_phy {n : Nat} {s : State} {x : TxReq} {rest : List TxReq} (ht : (s.prt n).tx = x :: rest) (hc : (s.conf.port n).ccs = false) :
    frameSent n .sent s = (((((s.unqueued n rest).freeTiles [frameTile n x.slot])).frameCounted n false).emit
      (.ether n (etherFrame (x.bytes.drop 16)))).complete .pf0 x.sq x.cid stDONE 0 := by
  have hc' : ∀ u : State, u.cfg = s.cfg → (u.conf.port n).ccs = false := fun u hu => by rw [State.conf, hu]; exact hc
  unfold frameSent
  rw [ht]
  dsimp only
  rw [hc' _ rfl, if_neg (by simp), if_neg (by simp)]
  rfl

theorem frameSent_modem {n : Nat} {s : State} {x : TxReq} {rest : List TxReq} (ht : (s.prt n).tx = x :: rest) (hc : (s.conf.port n).ccs = true) :
    frameSent n .sent s = ((((((s.unqueued n rest).freeTiles [frameTile n x.slot])).frameCounted n true).emit
      (.modem n (modemTx (padFrame (x.bytes.drop 16))))).emit (.modem n modemStatus)).complete .pf0 x.sq x.cid stDONE 0 := by
  have hc' : ∀ u : State, u.cfg = s.cfg → (u.conf.port n).ccs = true := fun u hu => by rw [State.conf, hu]; exact hc
  unfold frameSent
  rw [ht]
  dsimp only
  rw [hc' _ rfl, if_pos rfl, if_neg (by simp)]
  rfl

theorem frameSent_abandoned {n : Nat} {s : State} {x : TxReq} {rest : List TxReq} (ht : (s.prt n).tx = x :: rest) :
    frameSent n .abandoned s = ((s.unqueued n rest).freeTiles [frameTile n x.slot]).complete .pf0 x.sq x.cid stDONE_NOTE 1 := by
  unfold frameSent
  rw [ht]
  rfl

theorem frameSent_badTile {n : Nat} {s : State} {x : TxReq} {rest : List TxReq} (ht : (s.prt n).tx = x :: rest) :
    frameSent n .badTile s = (((s.unqueued n rest).freeTiles []).complete .pf0 x.sq x.cid stTILE_CHECK 0).retire consVpc (frameTile n x.slot) n false := by
  unfold frameSent
  rw [ht]
  rfl

theorem padTo_exact {n : Nat} {f : List Byte} (h : f.length ≤ n) : (padTo n f).length = n := by
  simp [padTo, zeros]
  omega

/-- Vehicle frames. -/
theorem vehicleFrames : Claim.VehicleFrames := by
  unfold Claim.VehicleFrames
  refine ⟨?tx, ?buffer, ?stored, ?dropped, ?bad, ?delivery, ?sent, ?sentModem, ?irq⟩
  case tx =>
    intro q b s k h h1 hl h4 h14 h1518 he hk hok
    refine answers_taken rfl h (by simp [h1, h4, h14, h1518]) ?_
    have hbody : frameTx q (.data b) (s.start.accept q) = (s.start.accept q).onPrt (sd q 1) (fun p => { p with
        tx := p.tx ++ [⟨q.sq, cidOf q, k, frameBytes s.sTime (sd q 1) true (padTo (bits (sd q 6) 10 0) b)⟩] }) := by
      have hk' : (s.start.accept q).freeSlot (sd q 1) 8 (((s.start.accept q).prt (sd q 1)).tx.map (fun t => t.slot)) = some k := hk
      have he' : ((s.start.accept q).conf.port (sd q 1)).enable = true := he
      unfold frameTx
      dsimp only
      rw [if_neg (by simp [he']), hk', bufferOf_of_readsOk hok]
      rfl
    rw [hbody]
    obtain ⟨hrun, hrings⟩ := accept_running (q := q) (s := s) (t := (s.start.accept q).onPrt (sd q 1) (fun p => { p with
        tx := p.tx ++ [⟨q.sq, cidOf q, k, frameBytes s.sTime (sd q 1) true (padTo (bits (sd q 6) 10 0) b)⟩] })) h.2.1 rfl
    exact ⟨hrun, rfl, hrings, onPrt_prt (s := s.start.accept q) _ hl, fun p hp => onPrt_prt_of_ne hp _ _, rfl⟩
  case buffer =>
    intro q s h h1 hl h4 he
    have he' : ((s.start.accept q).conf.port (sd q 1)).enable = true := he
    refine ⟨fun hlt => answers_taken rfl h (by simp [h1, h4]) ?_, fun hle => answers_taken rfl h (by simp [h1, h4]) ?_⟩
    · have hbody : frameRxBuffer q (s.start.accept q) = (s.start.accept q).onPrt (sd q 1) (fun p => { p with bufs := p.bufs ++ [⟨q.sq, cidOf q, addrOf q⟩] }) := by
        unfold frameRxBuffer
        dsimp only
        rw [if_neg (by simp [he']), if_neg (show ¬(((s.start.accept q).prt (sd q 1)).bufs.length ≥ 8) from Nat.not_le_of_lt hlt)]
      rw [hbody]
      obtain ⟨hrun, hrings⟩ := accept_running (q := q) (s := s) (t := (s.start.accept q).onPrt (sd q 1)
        (fun p => { p with bufs := p.bufs ++ [⟨q.sq, cidOf q, addrOf q⟩] })) h.2.1 rfl
      exact ⟨hrun, rfl, hrings, onPrt_prt (s := s.start.accept q) _ hl, fun p hp => onPrt_prt_of_ne hp _ _, rfl⟩
    · have hbody : frameRxBuffer q (s.start.accept q) = (s.start.accept q).done q stBUSY_RETRY 0 := by
        unfold frameRxBuffer
        dsimp only
        rw [if_neg (by simp [he']), if_pos (show ((s.start.accept q).prt (sd q 1)).bufs.length ≥ 8 from hle)]
      rw [hbody]
      exact done_onlyCompletes h.2.1
  case stored =>
    intro n k d s hl he hc h14 h1518 hk
    have hexec := execVehicleFrameRx_phy (n := n) (d := d) (fcs := le 4 (crc32 d)) hc (by simp)
    rw [leVal_crc32, beq_self_eq_true, frameArrives_stored (s := s.start) he h14 h1518 hk] at hexec
    exact ⟨_, hexec, onPrt_prt (s := s.start) _ hl, fun p hp => onPrt_prt_of_ne hp s.start _, rfl⟩
  case dropped =>
    intro n d s hl he hc h14 h1518 hk
    have hexec := execVehicleFrameRx_phy (n := n) (d := d) (fcs := le 4 (crc32 d)) hc (by simp)
    rw [leVal_crc32, beq_self_eq_true, frameArrives_dropped (s := s.start) he h14 h1518 hk,
      onPrt_prt (s := s.start) (fun p => { p with rxDrop := incSat p.rxDrop }) hl] at hexec
    refine ⟨_, hexec, ?_, vpcEvent_lastEvent .., fun p hp => ?_⟩
    · rw [prt_of_ports (vpcEvent_ports ..)]
      exact onPrt_prt (s := s.start) _ hl
    · rw [prt_of_ports (vpcEvent_ports ..)]
      exact onPrt_prt_of_ne hp s.start _
  case bad =>
    intro n d fcs s hl he hc h4 hbad
    have hexec := execVehicleFrameRx_phy (n := n) (d := d) (fcs := fcs) hc h4
    rw [frameArrives_bad (s := s.start) he (by
      rcases hbad with h | h | h
      · exact .inr (.inl h)
      · exact .inr (.inr h)
      · exact .inl (by simpa using h))] at hexec
    exact ⟨_, hexec, onPrt_prt (s := s.start) _ hl, fun p hp => onPrt_prt_of_ne hp s.start _, rfl⟩
  case delivery =>
    intro n s f rx b bufs hl hrx hbufs ho
    refine ⟨⟨_, congrArg Host.Outcome.next (frameDelivery_good (s := s.start) hrx hbufs), ?_⟩,
      ⟨_, congrArg Host.Outcome.next (frameDelivery_bad (s := s.start) hrx hbufs), ?_⟩⟩
    · obtain ⟨hc, hr⟩ := complete_kept (s := s) (s1 := ((s.start.handed n rx bufs).freeTiles [frameTile n f.slot]).dma .pf0 b.addr f.bytes)
        (st := stDONE) (r := f.bytes.length - 16) ho rfl
      have hout : (((((s.start.handed n rx bufs).freeTiles [frameTile n f.slot]).dma .pf0 b.addr f.bytes).complete .pf0 b.sq b.cid stDONE
        (f.bytes.length - 16))).out = _ := complete_part (π := .out) (by simp) ..
      have htmf : (((((s.start.handed n rx bufs).freeTiles [frameTile n f.slot]).dma .pf0 b.addr f.bytes).complete .pf0 b.sq b.cid stDONE
        (f.bytes.length - 16))).tmf = s.tmf.bump (frameTile n f.slot) := complete_part (π := .tmf) (by simp) ..
      have hprt (p : Nat) := prt_of_part (complete_part (fn := .pf0) (sq := b.sq) (cid := b.cid) (status := stDONE) (result := f.bytes.length - 16)
        (s := (((s.start.handed n rx bufs).freeTiles [frameTile n f.slot]).dma .pf0 b.addr f.bytes)) (π := .vpc) (by simp)) p
      refine ⟨?_, hc, ?_, ?_, fun p hp => ?_, hr⟩
      · rw [hout]
        unfold State.hostWrites
        rw [hr]
        rfl
      · rw [hprt]
        exact onPrt_prt (s := s.start) _ hl
      · rw [htmf]
        exact bump_gen ..
      · rw [hprt]
        exact onPrt_prt_of_ne hp s.start _
    · obtain ⟨hc, hprt, hno⟩ := completeRetire_kept (s := s) (s1 := (s.start.handed n rx bufs).freeTiles []) (st := stTILE_CHECK) (r := 0)
        (c := consHqe) (i := frameTile n f.slot) (src := n) (o := false) ho rfl
      refine ⟨hc, ?_, fun fn a x hx => ?_⟩
      · rw [hprt]
        exact onPrt_prt (s := s.start) _ hl
      · exact absurd (hno.mem fn a x hx) (List.not_mem_nil)
  case sent =>
    intro n s x rest f hl ht hf hc ho
    subst hf
    refine ⟨⟨_, congrArg Host.Outcome.next (frameSent_phy (s := s.start) ht hc), ?_⟩,
      ⟨_, congrArg Host.Outcome.next (frameSent_abandoned (s := s.start) ht), ?_⟩, ⟨_, congrArg Host.Outcome.next (frameSent_badTile (s := s.start) ht), ?_⟩⟩
    · obtain ⟨hcmp, -⟩ := complete_kept (s := s) (s1 := ((((s.start.unqueued n rest).freeTiles [frameTile n x.slot])).frameCounted n false).emit
        (.ether n (etherFrame (x.bytes.drop 16)))) (st := stDONE) (r := 0) ho rfl
      refine ⟨complete_part (π := .out) (by simp) .., hcmp, ?_, fun p hp => ?_⟩
      · refine (prt_of_part (complete_part (by simp) ..) n).trans ?_
        refine (onPrt_prt (s := (s.start.unqueued n rest).freeTiles [frameTile n x.slot]) _ ((onPrt_length n _ s.start).symm ▸ hl)).trans ?_
        exact congrArg (Port.txCounted false) (onPrt_prt (s := s.start) (fun p => { p with tx := rest }) hl)
      · refine (prt_of_part (complete_part (by simp) ..) p).trans ?_
        exact (onPrt_prt_of_ne hp ((s.start.unqueued n rest).freeTiles [frameTile n x.slot]) _).trans (onPrt_prt_of_ne hp s.start _)
    · obtain ⟨hcmp, -⟩ := complete_kept (s := s) (s1 := (s.start.unqueued n rest).freeTiles [frameTile n x.slot]) (st := stDONE_NOTE) (r := 1) ho rfl
      exact ⟨complete_part (π := .out) (by simp) .., hcmp, (prt_of_part (complete_part (by simp) ..) n).trans (onPrt_prt (s := s.start) _ hl)⟩
    · obtain ⟨hcmp, hprt, -⟩ := completeRetire_kept (s := s) (s1 := (s.start.unqueued n rest).freeTiles []) (st := stTILE_CHECK) (r := 0)
        (c := consVpc) (i := frameTile n x.slot) (src := n) (o := false) ho rfl
      exact ⟨hcmp, (hprt n).trans (onPrt_prt (s := s.start) _ hl)⟩
  case sentModem =>
    intro n s x rest f b hl ht hf hb hc ho
    subst hf
    refine ⟨_, congrArg Host.Outcome.next (frameSent_modem (s := s.start) ht hc), ?_⟩
    obtain ⟨hcmp, -⟩ := complete_kept (s := s) (s1 := (((((s.start.unqueued n rest).freeTiles [frameTile n x.slot])).frameCounted n true).emit
        (.modem n (modemTx (padFrame (x.bytes.drop 16))))).emit (.modem n modemStatus)) (st := stDONE) (r := 0) ho rfl
    have hbytes : modemTx (padFrame (x.bytes.drop 16)) = b ++ le 4 (crc32c b) := by
      unfold modemTx padFrame
      rw [padTo_exact (Nat.le_max_right ..), ← hb]
    refine ⟨?_, hcmp, ?_⟩
    · rw [← hbytes]
      exact complete_part (π := .out) (by simp) ..
    · refine (prt_of_part (complete_part (by simp) ..) n).trans ?_
      refine (onPrt_prt (s := (s.start.unqueued n rest).freeTiles [frameTile n x.slot]) _ ((onPrt_length n _ s.start).symm ▸ hl)).trans ?_
      exact congrArg (Port.txCounted true) (onPrt_prt (s := s.start) (fun p => { p with tx := rest }) hl)
  case irq =>
    intro n k d s hl hm h14 h1518 hk
    have he : (s.conf.port n).enable = true := by
      unfold State.modemRuns at hm
      simp only [Bool.and_eq_true] at hm
      exact hm.1.1
    have hlen : u (le 2 d.length ++ d ++ le 4 (crc32c (le 2 d.length ++ d))) 0 2 = d.length := by
      rw [List.append_assoc, u_le_zero]
      exact Nat.mod_eq_of_lt (by omega)
    have htake : (le 2 d.length ++ d ++ le 4 (crc32c (le 2 d.length ++ d))).take (2 + d.length) = le 2 d.length ++ d :=
      List.take_left' (by simp)
    have hcrc : u (le 2 d.length ++ d ++ le 4 (crc32c (le 2 d.length ++ d))) (2 + d.length) 4 = crc32c (le 2 d.length ++ d) := by
      have hx := u_append_le (p := le 2 d.length ++ d) (o := 2 + d.length) [] 4 (crc32c (le 2 d.length ++ d)) (by simp)
      rw [List.append_nil] at hx
      rw [hx]
      exact Nat.mod_eq_of_lt (crc32c_fits _)
    have hexec : exec (.modemIrq n (le 2 d.length ++ d) (le 4 (crc32c (le 2 d.length ++ d)))) s =
        .next (frameArrives n d true (s.start.emit (.modem n [2, 0, 0, 0]))) := by
      change execModemIrq n (le 2 d.length ++ d) (le 4 (crc32c (le 2 d.length ++ d))) s = _
      unfold execModemIrq
      dsimp only
      rw [if_pos (show s.start.modemRuns n = true from hm), hlen, htake, hcrc, beq_self_eq_true, decide_eq_true (by simp; omega)]
      rw [show (le 2 d.length ++ d).drop 2 = d from List.drop_left' (by simp)]
      rfl
    rw [frameArrives_stored (s := s.start.emit (.modem n [2, 0, 0, 0])) he h14 h1518 hk] at hexec
    exact ⟨_, hexec, rfl, onPrt_prt (s := s.start) _ hl, fun p hp => onPrt_prt_of_ne hp s.start _⟩

/-! ### The modem -/

/-- The answer of a modem that is not there. -/
theorem allOnes_eq {a : List Byte} (h : a.length = 8) : padTo 8 a = a := by
  simp [padTo, h, zeros]

/-- A STATUS transaction made (R262). -/
def State.polled (n : Nat) (s : State) : State :=
  (if (s.prt n).statusDue then s else s.emit (.modem n modemStatus)).onPrt n (fun p => { p with statusDue := false })

theorem polled_out (n : Nat) (s : State) : (s.polled n).out = s.out ++ if (s.prt n).statusDue then [] else [.modem n [3, 0, 0, 0]] := by
  unfold State.polled
  cases (s.prt n).statusDue
  · rfl
  · exact (List.append_nil _).symm

theorem polled_frame (n : Nat) (s : State) : s.polled n = { s with vpc := { s.vpc with ports := (s.polled n).vpc.ports }, out := (s.polled n).out } := by
  unfold State.polled
  cases (s.prt n).statusDue <;> rfl

theorem polled_step (n : Nat) (s : State) : PortStep n s (s.polled n) := by
  unfold State.polled
  cases (s.prt n).statusDue
  · exact ⟨fun p hp => onPrt_prt_of_ne hp (s.emit _) _, onPrt_length n _ (s.emit _)⟩
  · exact onPrt_step ..

theorem polled_prt {n : Nat} {s : State} (hl : n < s.vpc.ports.length) : (s.polled n).prt n = { s.prt n with statusDue := false } := by
  unfold State.polled
  cases (s.prt n).statusDue
  · exact onPrt_prt (s := s.emit _) _ hl
  · exact onPrt_prt _ hl

theorem modemPoll_good {n : Nat} {a : List Byte} {s : State} (hm : s.modemRuns n = true) (hne : (padTo 8 a).all (fun b => b == 0xFF) = false)
    (hcrc : crc32c (a.take 4) = u a 4 4) :
    modemPoll n a s = (s.polled n).onPrt n (fun p => { p with badStatus := 0, modemUp := bit (u a 0 1) 0 }) := by
  unfold modemPoll
  dsimp only
  rw [if_neg (by simp [hm]), if_pos (by rw [hne, hcrc]; simp)]
  rfl

/-- A modem reset because of its answers (R263). -/
def State.modemReset (n : Nat) (s : State) : State :=
  (s.onPrt n (fun p => { p with badStatus := 0, resetting := true, modemUp := false })).emit (.modemReset n true)

theorem modemPoll_third {n : Nat} {a : List Byte} {s : State} (hm : s.modemRuns n = true) (hall : (padTo 8 a).all (fun b => b == 0xFF) = true)
    (hbad : (s.prt n).badStatus = 2) : modemPoll n a s =
      (((s.polled n).modemReset n).vpcEvent n 0x03 1).faultRec 5 0x0602 n 1 (ofInt 32 (s.prt n).pilotHi) := by
  unfold modemPoll
  dsimp only
  rw [if_neg (by simp [hm]), if_neg (by rw [hall]; simp), if_neg (by rw [hbad]; decide), hall, if_pos rfl]
  rfl

/-- The modem. -/
theorem modemStatuses : Claim.ModemStatus := by
  unfold Claim.ModemStatus
  refine ⟨?good, ?third, ?resetEnd⟩
  case good =>
    intro n a s hl hm h8 hcrc hne
    refine ⟨_, congrArg Host.Outcome.next (modemPoll_good (s := s.start) hm (by rw [allOnes_eq h8]; simpa using hne) hcrc), ?_, ?_,
      fun p hp => ?_, ?_⟩
    · change (s.start.polled n).out = _
      rw [polled_out]
      rfl
    · rw [onPrt_prt _ (by rw [(polled_step n s.start).length]; exact hl), polled_prt (s := s.start) hl]
      rfl
    · exact (onPrt_prt_of_ne hp ..).trans ((polled_step n s.start).others p hp)
    · rw [polled_frame]
      rfl
  case third =>
    intro n a s hl hm h8 hall hbad hready hlen
    have hexec := modemPoll_third (s := s.start) (a := a) hm (by rw [allOnes_eq h8]; simpa using hall) hbad
    have hstep := polled_step n s.start
    have hsup : (((s.start.polled n).modemReset n).vpcEvent n 0x03 1).sup = s.sup := by
      have hp : (s.start.polled n).sup = s.sup := by rw [polled_frame]; rfl
      rw [← hp]
      simp [State.vpcEvent, State.modemReset, State.emit]
    have hports (p : Nat) : (((s.start.polled n).modemReset n).vpcEvent n 0x03 1).prt p = ((s.start.polled n).modemReset n).prt p :=
      prt_of_ports (vpcEvent_ports ..) p
    have hev : ((s.start.polled n).modemReset n).out <+: (((s.start.polled n).modemReset n).vpcEvent n 0x03 1).out :=
      postEvent_prefix (s := State.onVpc _ ((s.start.polled n).modemReset n)) ..
    have hlast := vpcEvent_lastEvent n 3 1 ((s.start.polled n).modemReset n)
    have hself : ((s.start.polled n).modemReset n).prt n = { s.prt n with badStatus := 0, resetting := true, modemUp := false, statusDue := false } := by
      refine (onPrt_prt (s := s.start.polled n) _ (by rw [hstep.length]; exact hl)).trans ?_
      rw [polled_prt (s := s.start) hl]
      rfl
    have hothers (p : Nat) (hp : p ≠ n) : ((s.start.polled n).modemReset n).prt p = s.prt p :=
      (onPrt_prt_of_ne (s := s.start.polled n) hp _).trans (hstep.others p hp)
    have hsent : Out.modemReset n true ∈ ((s.start.polled n).modemReset n).out := by simp [State.modemReset, State.emit]
    generalize (s.start.polled n).modemReset n = v at *
    generalize v.vpcEvent n 0x03 1 = w at *
    refine ⟨_, congrArg Host.Outcome.next hexec, hev.subset hsent, (hports n).trans hself, hlast, ?_, fun p hp => (hports p).trans (hothers p hp)⟩
    rw [faultRec_journal (by rw [hsup]; exact hready) (by rw [hsup]; exact hlen), hsup, List.map_append]
    rfl
  case resetEnd =>
    intro n s hl hr
    have he : modemResetEnd n s.start = (s.start.onPrt n (fun p => { p with resetting := false })).emit (.modemReset n false) := if_pos hr
    exact ⟨_, congrArg Host.Outcome.next he, rfl, onPrt_prt (s := s.start) _ hl, fun p hp => onPrt_prt_of_ne hp s.start _, rfl⟩

/-- Settles O46, from its two parts. -/
theorem vehicleLink : Obligations.VehicleLink := by
  unfold Obligations.VehicleLink
  exact ⟨vehicleFrames, modemStatuses⟩

end Sys2Proof.Machine
end
section
/-! PROOFS. Thermal Cones: the sensors at a tick, what they contribute, and the TCM commands -/

namespace Sys2Proof.Machine

open Sys2Proof

/-! ### Runs over a range of objects -/

/-- A run over a range in which one object's turn brings about `Q`: the turns before it keep what it needs, those behind it keep `Q`. -/
theorem foldl_range_at {σ : Type} {f : σ → Nat → σ} {P Q : σ → Prop} {N n : Nat} (hn : n < N) (hbefore : ∀ u i, i ≠ n → P u → P (f u i))
    (hat : ∀ u, P u → Q (f u n)) (hafter : ∀ u i, i ≠ n → Q u → Q (f u i)) {s : σ} (h : P s) : Q ((List.range N).foldl f s) := by
  obtain ⟨before, after, hr⟩ := List.append_of_mem (List.mem_range.mpr hn)
  have hnodup := List.nodup_range (n := N)
  rw [hr, List.nodup_append] at hnodup
  obtain ⟨-, hcons, hdisj⟩ := hnodup
  have h1 (l : List Nat) (hl : ∀ i ∈ l, i ≠ n) (u : σ) (hu : P u) : P (l.foldl f u) := by
    induction l generalizing u with
    | nil => exact hu
    | cons i l ih => exact ih (fun j hj => hl j (by simp [hj])) _ (hbefore u i (hl i (by simp)) hu)
  have h2 (l : List Nat) (hl : ∀ i ∈ l, i ≠ n) (u : σ) (hu : Q u) : Q (l.foldl f u) := by
    induction l generalizing u with
    | nil => exact hu
    | cons i l ih => exact ih (fun j hj => hl j (by simp [hj])) _ (hafter u i (hl i (by simp)) hu)
  rw [hr, List.foldl_append, List.foldl_cons]
  refine h2 after (fun i hi e => ?_) _ (hat _ (h1 before (fun i hi => hdisj i hi n (by simp)) s h))
  subst e
  exact (List.nodup_cons.mp hcons).1 hi

/-- A run that keeps a relation keeps it as a whole. -/
theorem foldl_rel {σ α : Type} {R : σ → σ → Prop} (hrefl : ∀ s, R s s) (htrans : ∀ a b c, R a b → R b c → R a c) {f : σ → α → σ}
    (h : ∀ s x, R s (f s x)) (l : List α) (s : σ) : R s (l.foldl f s) := by
  induction l generalizing s with
  | nil => exact hrefl s
  | cons x l ih => exact htrans _ _ _ (h s x) (ih _)

/-! ### One sensor changed -/

theorem onSens_sens {n : Nat} {s : State} (f : Sens → Sens) (h : n < s.tcm.sens.length) : (s.onSens n f).sens n = f (s.sens n) :=
  getD_upd_self f _ h

theorem onSens_sens_of_ne {n m : Nat} (h : m ≠ n) (s : State) (f : Sens → Sens) : (s.onSens n f).sens m = s.sens m := getD_upd_of_ne h ..

theorem onSens_length (n : Nat) (f : Sens → Sens) (s : State) : (s.onSens n f).tcm.sens.length = s.tcm.sens.length := upd_length s.tcm.sens n f

/-- The default of a sensor beyond the table. -/
theorem sens_beyond {n : Nat} {s : State} (h : s.tcm.sens.length ≤ n) : s.sens n = Sens.reset false false := List.getD_eq_default _ _ h

theorem sens_of_list {s t : State} (h : t.tcm.sens = s.tcm.sens) (n : Nat) : t.sens n = s.sens n := by
  rw [State.sens, h]
  rfl

theorem sens_of_part {s t : State} (h : part .tcm t = part .tcm s) (n : Nat) : t.sens n = s.sens n := sens_of_list (congrArg Tcm.sens h :) n

theorem tcmEvent_tcm (src sub arg : Nat) (fault : Option Nat) (v : Option Int) (s : State) :
    (s.tcmEvent src sub arg fault v).tcm = { s.tcm with lastEvent := some (src, sub, arg % 256) } := by
  unfold State.tcmEvent
  cases fault <;> simp [State.onTcm]

theorem tcmEvent_sens (src sub arg : Nat) (fault : Option Nat) (v : Option Int) (s : State) (n : Nat) :
    (s.tcmEvent src sub arg fault v).sens n = s.sens n := sens_of_list (by rw [tcmEvent_tcm]) n

/-- A step that changes one sensor alone, and keeps its table's length. -/
structure SensStep (n : Nat) (s t : State) : Prop where
  others : ∀ m, m ≠ n → t.sens m = s.sens m
  length : t.tcm.sens.length = s.tcm.sens.length

theorem SensStep.refl (n : Nat) (s : State) : SensStep n s s := ⟨fun _ _ => rfl, rfl⟩

theorem SensStep.trans {n : Nat} {s t v : State} (h1 : SensStep n s t) (h2 : SensStep n t v) : SensStep n s v :=
  ⟨fun m hm => (h2.others m hm).trans (h1.others m hm), h2.length.trans h1.length⟩

theorem SensStep.of_list {n : Nat} {s t : State} (h : t.tcm.sens = s.tcm.sens) : SensStep n s t := ⟨fun m _ => sens_of_list h m, by rw [h]⟩

theorem onSens_step (n : Nat) (f : Sens → Sens) (s : State) : SensStep n s (s.onSens n f) := ⟨fun _ h => onSens_sens_of_ne h s f, onSens_length n f s⟩

theorem tcmEvent_step (n src sub arg : Nat) (fault : Option Nat) (v : Option Int) (s : State) : SensStep n s (s.tcmEvent src sub arg fault v) :=
  .of_list (by rw [tcmEvent_tcm])

/-! ### One sensor at a tick -/

/-- What a sensor's tick may still change of it once its level is settled: the slope, the trip mark and the cause. -/
structure SameTick (x y : Sens) : Prop where
  eq : y = { x with slope := y.slope, tripped := y.tripped, cause := y.cause }

theorem SameTick.refl (x : Sens) : SameTick x x := ⟨rfl⟩

theorem SameTick.trans {x y z : Sens} (h1 : SameTick x y) (h2 : SameTick y z) : SameTick x z := ⟨by rw [h2.eq, h1.eq]⟩

theorem onSens_sameTick {n : Nat} {s : State} {f : Sens → Sens} (h : SameTick (s.sens n) (f (s.sens n))) : SameTick (s.sens n) ((s.onSens n f).sens n) := by
  by_cases hn : n < s.tcm.sens.length
  · rw [onSens_sens f hn]
    exact h
  · rw [sens_beyond (s := s) (by omega), sens_beyond (by rw [onSens_length]; omega)]
    exact .refl _

/-- The slope of a sensor taken (R280). -/
def State.sloped (n : Nat) (s : State) : State :=
  match (s.sens n).rise with
  | some v => s.onSens n (fun x => { x with slope := v })
  | none =>
    if (s.sens n).tested s.sup.uptime then s.took.onSens n (fun x => { x with slope := Config.freeInt s.free })
    else s.onSens n (fun x => { x with slope := 0 })

theorem sloped_kept (n : Nat) (s : State) : SameTick (s.sens n) ((s.sloped n).sens n) ∧ SensStep n s (s.sloped n) := by
  unfold State.sloped
  split
  · exact ⟨onSens_sameTick ⟨rfl⟩, onSens_step ..⟩
  · split
    · have htook : SensStep n s s.took := ⟨fun _ _ => rfl, rfl⟩
      exact ⟨onSens_sameTick (s := s.took) ⟨rfl⟩, htook.trans (onSens_step ..)⟩
    · exact ⟨onSens_sameTick ⟨rfl⟩, onSens_step ..⟩

theorem tripTest_eq (r : SensorRec) (n : Nat) (s : State) : s.tripTest r n =
    if ((s.sloped n).sens n).fails r s.sup.uptime then
      ((s.sloped n).onSens n (fun x => { x with tripped := true })).tcmEvent n 0x04
        (if 0 < ((s.sloped n).sens n).slope then
          (max 0 (r.th4 - ((s.sloped n).sens n).reading.getD 0) * 1000 / ((s.sloped n).sens n).slope).toNat else 0)
        (some 0x0703) ((s.sloped n).sens n).reading
    else s.sloped n := rfl

theorem tripTest_kept (r : SensorRec) (n : Nat) (s : State) : SameTick (s.sens n) ((s.tripTest r n).sens n) ∧ SensStep n s (s.tripTest r n) := by
  obtain ⟨h1, h2⟩ := sloped_kept n s
  have htrip (v : State) (ms : Nat) : SameTick (v.sens n) (((v.onSens n (fun x => { x with tripped := true })).tcmEvent n 0x04 ms (some 0x0703)
      (v.sens n).reading).sens n) ∧ SensStep n v ((v.onSens n (fun x => { x with tripped := true })).tcmEvent n 0x04 ms (some 0x0703) (v.sens n).reading) := by
    refine ⟨?_, (onSens_step ..).trans (tcmEvent_step ..)⟩
    rw [tcmEvent_sens]
    exact onSens_sameTick ⟨rfl⟩
  rw [tripTest_eq]
  split
  · obtain ⟨h3, h4⟩ := htrip (s.sloped n) _
    exact ⟨h1.trans h3, h2.trans h4⟩
  · exact ⟨h1, h2⟩

/-- A sensor with its reading, its Cones and its level (R273 to R279). -/
def State.sensed (s : State) (all : List Sens) (n : Nat) : Sens :=
  let r := s.conf.sensor n
  let old := s.sens n
  let x := all.getD n old
  let v := readingOf s.conf s.sup.cls all n
  let x := { x with reading := v.1, subst := v.2, hist := (v.1 :: x.hist).take 101 }
  (x.cones r (x.broken != old.broken)).settle r s.sup.uptime ((s.assoc r).map (fun g => (g, s.carried g))) old

/-- The records of a sensor's tick (Table 10-11). -/
def State.senseRecords (n : Nat) (x old : Sens) (s : State) : State :=
  let s2 := if x.broken != old.broken then
      s.tcmEvent n 0x02 (x.cause * 256 + b2n x.broken) (if x.broken then some 0x0704 else none) x.reading
    else s
  let s2 := if x.broken then s2 else s2.onSens n (fun x => { x with cause := 0 })
  let arg := x.flags * 65536 + old.eff * 256 + x.eff
  let s3 := if x.eff ≠ old.eff then s2.tcmEvent n 0x01 arg none x.reading else s2
  let s4 := if entered old x 3 then s3.faultRec 4 0x0701 n arg (ofInt 32 (x.reading.getD 0)) else s3
  if entered old x 4 then s4.faultRec 4 0x0702 n arg (ofInt 32 (x.reading.getD 0)) else s4

theorem senseTick_eq (all : List Sens) (n : Nat) (s : State) : s.senseTick all n =
    ((s.onSens n (fun _ => s.sensed all n)).senseRecords n (s.sensed all n) (s.sens n)).tripTest (s.conf.sensor n) n := rfl

/-- A change that keeps a sensor of a tick, and every other. -/
structure TickKept (n : Nat) (s t : State) : Prop where
  same : SameTick (s.sens n) (t.sens n)
  step : SensStep n s t

theorem TickKept.refl (n : Nat) (s : State) : TickKept n s s := ⟨.refl _, .refl n s⟩

theorem TickKept.trans {n : Nat} {s t v : State} (h1 : TickKept n s t) (h2 : TickKept n t v) : TickKept n s v :=
  ⟨h1.same.trans h2.same, h1.step.trans h2.step⟩

theorem TickKept.of_list {n : Nat} {s t : State} (h : t.tcm.sens = s.tcm.sens) : TickKept n s t :=
  ⟨by rw [sens_of_list h]; exact .refl _, .of_list h⟩

theorem TickKept.ite {n : Nat} {c : Prop} [Decidable c] {s a b : State} (ha : TickKept n s a) (hb : TickKept n s b) : TickKept n s (if c then a else b) := by
  split
  · exact ha
  · exact hb

theorem senseRecords_kept (n : Nat) (x old : Sens) (s : State) : TickKept n s (s.senseRecords n x old) := by
  have hev {u : State} (h : TickKept n s u) (src sub arg : Nat) (fault : Option Nat) (v : Option Int) : TickKept n s (u.tcmEvent src sub arg fault v) :=
    h.trans (.of_list (by rw [tcmEvent_tcm]))
  have hrec {u : State} (h : TickKept n s u) (i c a b d : Nat) : TickKept n s (u.faultRec i c a b d) := h.trans (.of_list (by rw [State.faultRec_tcm]))
  have hcause {u : State} (h : TickKept n s u) : TickKept n s (u.onSens n (fun x => { x with cause := 0 })) :=
    h.trans ⟨onSens_sameTick ⟨rfl⟩, onSens_step ..⟩
  have h1 : TickKept n s (if x.broken != old.broken then
      s.tcmEvent n 0x02 (x.cause * 256 + b2n x.broken) (if x.broken then some 0x0704 else none) x.reading else s) := .ite (hev (.refl n s) ..) (.refl n s)
  have h2 := TickKept.ite (c := x.broken = true) h1 (hcause h1)
  have h3 := TickKept.ite (c := x.eff ≠ old.eff) (hev h2 n 0x01 (x.flags * 65536 + old.eff * 256 + x.eff) none x.reading) h2
  have h4 := TickKept.ite (c := entered old x 3 = true) (hrec h3 4 0x0701 n (x.flags * 65536 + old.eff * 256 + x.eff) (ofInt 32 (x.reading.getD 0))) h3
  exact .ite (c := entered old x 4 = true) (hrec h4 4 0x0702 n (x.flags * 65536 + old.eff * 256 + x.eff) (ofInt 32 (x.reading.getD 0))) h4

/-- A sensor's tick: the sensor as its conversion, Cones and level leave it, and no other sensor. -/
theorem senseTick_kept {all : List Sens} {n : Nat} {s : State} (h : n < s.tcm.sens.length) :
    SameTick (s.sensed all n) ((s.senseTick all n).sens n) := by
  rw [senseTick_eq]
  have h1 := senseRecords_kept n (s.sensed all n) (s.sens n) (s.onSens n (fun _ => s.sensed all n))
  have h2 := (tripTest_kept (s.conf.sensor n) n ((s.onSens n (fun _ => s.sensed all n)).senseRecords n (s.sensed all n) (s.sens n))).1
  have h3 := h1.same.trans h2
  rwa [onSens_sens _ h] at h3

theorem senseTick_step (all : List Sens) (n : Nat) (s : State) : SensStep n s (s.senseTick all n) := by
  rw [senseTick_eq]
  exact ((onSens_step ..).trans (senseRecords_kept ..).step).trans (tripTest_kept ..).2

/-! ### The tick -/

/-- The sensors behind a tick's conversions. -/
def State.convertedAll (s : State) (raw : List Conversion) : List Sens := (List.range 152).map (s.converted raw)

theorem convertedAll_getD {n : Nat} (h : n < 152) (s : State) (raw : List Conversion) (d : Sens) : (s.convertedAll raw).getD n d = s.converted raw n := by
  simp [State.convertedAll, h]

/-- One object's turn in the run over the sensors. -/
def State.sensTurn (all : List Sens) (s : State) (n : Nat) : State :=
  if (s.conf.sensor n).enable then s.senseTick all n else s.onSens n Sens.idle

theorem sensTurn_step (all : List Sens) (n : Nat) (s : State) : SensStep n s (s.sensTurn all n) := by
  unfold State.sensTurn
  split
  · exact senseTick_step ..
  · exact onSens_step ..

theorem sensTurn_part {π : Part} (hp : π ∉ [.rings, .faults, .tcm, .out, .free]) (all : List Sens) (n : Nat) (s : State) :
    part π (s.sensTurn all n) = part π s := by
  unfold State.sensTurn
  split
  · exact senseTick_part hp ..
  · exact onSens_part (by simp at hp ⊢; tauto) ..

/-- What a sensor's tick reads besides the conversions. -/
structure SensInput (n : Nat) (s u : State) : Prop where
  sens : u.sens n = s.sens n
  cfg : u.cfg = s.cfg
  sup : part .sup u = part .sup s
  spa : u.spa = s.spa
  length : u.tcm.sens.length = s.tcm.sens.length

theorem SensInput.sensed {n : Nat} {s u : State} (h : SensInput n s u) (all : List Sens) : u.sensed all n = s.sensed all n := by
  have hcls : u.sup.cls = s.sup.cls := sup_of_part h.sup Sup.cls (fun _ => rfl)
  have hup : u.sup.uptime = s.sup.uptime := sup_of_part h.sup Sup.uptime (fun _ => rfl)
  unfold State.sensed State.assoc State.portGroup State.carried State.conf
  simp only [h.sens, h.cfg, h.spa, hcls, hup]

theorem SensInput.turn {n m : Nat} {s u : State} (h : SensInput n s u) (hm : m ≠ n) (all : List Sens) : SensInput n s (u.sensTurn all m) :=
  ⟨((sensTurn_step all m u).others n (Ne.symm hm)).trans h.sens, (sensTurn_part (π := .cfg) (by simp) all m u).trans h.cfg,
    (sensTurn_part (π := .sup) (by simp) all m u).trans h.sup, (sensTurn_part (π := .spa) (by simp) all m u).trans h.spa,
    (sensTurn_step all m u).length.trans h.length⟩

/-- The run over the sensors, for one of them. -/
theorem sensTurns_sens {n : Nat} {s : State} (hn : n < 152) (hlen : s.tcm.sens.length = 152) (all : List Sens) :
    ((s.conf.sensor n).enable = true → SameTick (s.sensed all n) (((List.range 152).foldl (fun s n => s.sensTurn all n) s).sens n)) ∧
    ((s.conf.sensor n).enable = false → ((List.range 152).foldl (fun s n => s.sensTurn all n) s).sens n = (s.sens n).idle) := by
  refine foldl_range_at (P := SensInput n s) (Q := fun t => ((s.conf.sensor n).enable = true → SameTick (s.sensed all n) (t.sens n)) ∧
    ((s.conf.sensor n).enable = false → t.sens n = (s.sens n).idle)) hn (fun u i hi h => h.turn hi all) (fun u h => ?_) (fun u i hi h => ?_)
    ⟨rfl, rfl, rfl, rfl, rfl⟩
  · have hlt : n < u.tcm.sens.length := by rw [h.length, hlen]; exact hn
    have hconf : u.conf = s.conf := by unfold State.conf; rw [h.cfg]
    refine ⟨fun he => ?_, fun he => ?_⟩
    · rw [State.sensTurn, if_pos (by rw [hconf]; exact he), ← h.sensed all]
      exact senseTick_kept hlt
    · rw [State.sensTurn, if_neg (by rw [hconf, he]; simp), onSens_sens _ hlt, h.sens]
  · rw [(sensTurn_step all i u).others n (Ne.symm hi)]
    exact h

theorem sensTurns_length (l : List Nat) (all : List Sens) (s : State) : (l.foldl (fun s n => s.sensTurn all n) s).tcm.sens.length = s.tcm.sens.length :=
  foldl_kept (φ := fun u : State => u.tcm.sens.length) (fun u n => (sensTurn_step all n u).length) l s

theorem aqTick_sens (p : Nat) (s : State) : (s.aqTick p).tcm.sens = s.tcm.sens := by
  have hord (ch : Nat) (on : Bool) (u : State) : (u.aqOrder ch on).tcm = u.tcm := by
    unfold State.aqOrder
    split
    · exact orderCh_part (π := .tcm) (by simp) ..
    · rfl
  have htwo (c d : Prop) [Decidable c] [Decidable d] (u : State) (hu : u.tcm.sens = s.tcm.sens) (ch1 ch2 : Nat) (on1 on2 : Bool) :
      (if d then (if c then u.aqOrder ch1 on1 else u).aqOrder ch2 on2 else (if c then u.aqOrder ch1 on1 else u)).tcm.sens = s.tcm.sens := by
    have h1 : (if c then u.aqOrder ch1 on1 else u).tcm.sens = s.tcm.sens := by
      split
      · rw [hord, hu]
      · exact hu
    split
    · rw [hord, h1]
    · exact h1
  unfold State.aqTick
  dsimp only
  split
  · rfl
  · refine htwo _ _ _ ?_ _ _ _ _
    rfl

theorem thermalTick_eq {s : State} (raw : List Conversion) (hup : s.siteUp = true) : thermalTick raw s =
    ((List.range 16).foldl (fun s p => s.aqTick p)
      ((((List.range 152).foldl (fun u n => u.sensTurn (s.convertedAll raw) n) s).journalLatches s.tcm.latches).tcmHolds)).tcmShow := by
  unfold thermalTick State.sensTurn State.convertedAll
  rw [if_neg (by rw [hup]; simp)]

theorem tcmShow_sens (s : State) : s.tcmShow.tcm.sens = s.tcm.sens := rfl

/-- Behind the sensors' turns a tick changes no sensor. -/
theorem thermalTick_sens {raw : List Conversion} {s : State} (hup : s.siteUp = true) : (thermalTick raw s).tcm.sens =
    ((List.range 152).foldl (fun u n => u.sensTurn (s.convertedAll raw) n) s).tcm.sens := by
  rw [thermalTick_eq raw hup, tcmShow_sens]
  generalize (List.range 152).foldl (fun u n => u.sensTurn (s.convertedAll raw) n) s = u
  generalize List.range 16 = l
  have h1 : (u.journalLatches s.tcm.latches).tcmHolds.tcm = (u.journalLatches s.tcm.latches).tcm := tcmHolds_part (π := .tcm) (by simp) _
  have h2 : (u.journalLatches s.tcm.latches).tcm = u.tcm := journalLatches_part (π := .tcm) (by simp) _ u
  refine (foldl_kept (φ := fun v : State => v.tcm.sens) (fun v p => aqTick_sens p v) l _).trans ?_
  exact congrArg Tcm.sens (h1.trans h2)

/-! ### What a tick makes of one sensor -/

theorem flagCause_isSome (code : Int) (st : Bool) : (flagCause code st false).isSome = (decide (25000 < code) || decide (code < -6000) || st) := by
  unfold flagCause
  cases st
  · by_cases h1 : 25000 < code
    · simp [h1]
    · by_cases h2 : code < -6000 <;> simp [h1, h2]
  · simp

/-- A conversion counted (R272). -/
theorem convert_counts (code : Int) (flag : Option Nat) (x : Sens) : (x.convert code flag).nFlag = (if flag.isSome then x.nFlag + 1 else 0) ∧
    (x.convert code flag).broken = (if flag.isSome then x.broken || decide (3 ≤ x.nFlag + 1) else x.broken && decide (x.nOk + 1 < 10)) ∧
    (x.convert code flag).absent = false ∧ (x.convert code flag).inCone = x.inCone ∧ (x.convert code flag).l3 = x.l3 ∧ (x.convert code flag).l4 = x.l4 ∧
    (flag = none → (x.convert code flag).good = (code :: x.good).take 4) := by
  unfold Sens.convert
  cases flag with
  | some c =>
    dsimp only
    cases hb : x.broken
    · by_cases h3 : 3 ≤ x.nFlag + 1 <;> simp [h3]
    · simp
  | none =>
    dsimp only
    cases hb : x.broken
    · simp
    · by_cases h10 : 10 ≤ x.nOk + 1
      · simp [h10]
      · simp [h10]
        omega

theorem converted_external {raw : List Conversion} {n : Nat} {c : Conversion} (s : State) (hn : n < 88) (hc : raw[n]? = some c) :
    s.converted raw n = (s.sens n).convert c.code (flagCause c.code (decide (64 ≤ n) && c.selfTestFail) false) := by
  unfold State.converted
  dsimp only
  rw [if_pos hn, hc]

theorem converted_latches (raw : List Conversion) (n : Nat) (s : State) : (s.converted raw n).l3 = (s.sens n).l3 ∧ (s.converted raw n).l4 = (s.sens n).l4 := by
  have hconv (code : Int) (flag : Option Nat) := (convert_counts code flag (s.sens n)).2.2.2.2
  unfold State.converted
  dsimp only
  split
  · split
    · exact ⟨rfl, rfl⟩
    · exact ⟨(hconv ..).1, (hconv ..).2.1⟩
  · split
    · exact ⟨(hconv ..).1, (hconv ..).2.1⟩
    · exact ⟨rfl, rfl⟩

/-- A sensor with its reading. -/
def Sens.read (v : Option Int × Bool) (x : Sens) : Sens := { x with reading := v.1, subst := v.2, hist := (v.1 :: x.hist).take 101 }

theorem sensed_eq (s : State) (all : List Sens) (n : Nat) : s.sensed all n =
    (((all.getD n (s.sens n)).read (readingOf s.conf s.sup.cls all n)).cones (s.conf.sensor n)
      ((all.getD n (s.sens n)).broken != (s.sens n).broken)).settle (s.conf.sensor n) s.sup.uptime
      ((s.assoc (s.conf.sensor n)).map (fun g => (g, s.carried g))) (s.sens n) := rfl

/-- What the Cones leave of a sensor. -/
theorem cones_kept (r : SensorRec) (b : Bool) (x : Sens) : (x.cones r b).nFlag = x.nFlag ∧ (x.cones r b).broken = x.broken ∧
    (x.cones r b).reading = x.reading ∧ (x.cones r b).l3 = x.l3 ∧ (x.cones r b).l4 = x.l4 := by
  unfold Sens.cones
  split <;> exact ⟨rfl, rfl, rfl, rfl, rfl⟩

theorem settle_latches (r : SensorRec) (now : Nat) (p0 : List (Nat × Nat)) (x old : Sens) :
    (x.settle r now p0 old).l3 = (x.l3 || entered old x 3) ∧ (x.settle r now p0 old).l4 = (x.l4 || entered old x 4) ∧
    (x.settle r now p0 old).eff = max x.level (if (x.l4 || entered old x 4) = true then 4 else if (x.l3 || entered old x 3) = true then 3 else 0) := ⟨rfl, rfl, rfl⟩

theorem sensed_kept {n : Nat} (hn : n < 152) (s : State) (raw : List Conversion) : (s.sensed (s.convertedAll raw) n).nFlag = (s.converted raw n).nFlag ∧
    (s.sensed (s.convertedAll raw) n).broken = (s.converted raw n).broken ∧
    (s.sensed (s.convertedAll raw) n).reading = (readingOf s.conf s.sup.cls (s.convertedAll raw) n).1 ∧
    ((s.sens n).l3 = true → (s.sensed (s.convertedAll raw) n).l3 = true) ∧ ((s.sens n).l4 = true → (s.sensed (s.convertedAll raw) n).l4 = true) := by
  obtain ⟨c1, c2⟩ := converted_latches raw n s
  rw [sensed_eq, convertedAll_getD hn]
  obtain ⟨h1, h2, h3, h4, h5⟩ := cones_kept (s.conf.sensor n) ((s.converted raw n).broken != (s.sens n).broken)
    ((s.converted raw n).read (readingOf s.conf s.sup.cls (s.convertedAll raw) n))
  refine ⟨h1, h2, h3, fun h => ?_, fun h => ?_⟩
  · rw [(settle_latches ..).1, h4, show (Sens.read _ _).l3 = (s.converted raw n).l3 from rfl, c1, h]
    rfl
  · rw [(settle_latches ..).2.1, h5, show (Sens.read _ _).l4 = (s.converted raw n).l4 from rfl, c2, h]
    rfl

/-- An unbroken sensor that is not absent reads its own mean (R273). -/
theorem readingOf_own {c : Cfg} {cls n : Nat} {s : State} {raw : List Conversion} (hn : n < 152) (ha : (s.converted raw n).absent = false)
    (hb : (s.converted raw n).broken = false) (hg : (s.converted raw n).good ≠ []) : (readingOf c cls (s.convertedAll raw) n).1 =
      some (rneDiv (sumI (s.converted raw n).good) (s.converted raw n).good.length + (c.sensor n).trim) := by
  unfold readingOf
  dsimp only
  rw [convertedAll_getD hn, ha, hb, if_neg (by simp), if_pos (by simp)]
  unfold Sens.own
  rw [if_neg (by simp [ha, hb, hg])]

/-- A broken sensor in Class L reads one kelvin above th3 (R274). -/
theorem readingOf_broken {c : Cfg} {cls n : Nat} {s : State} {raw : List Conversion} (hn : n < 152) (ha : (s.converted raw n).absent = false)
    (hb : (s.converted raw n).broken = true) (hcls : cls ≠ 1) : (readingOf c cls (s.convertedAll raw) n).1 = some ((c.sensor n).th3 + 100) := by
  unfold readingOf
  dsimp only
  rw [convertedAll_getD hn, ha, hb, if_neg (by simp), if_neg (by simp), if_neg hcls]

/-- A reading above th3 enters the third Cone at once where the sensor has just broken (R275, R276). -/
theorem cones_third {r : SensorRec} {x : Sens} {v : Int} (hr : x.reading = some v) (hv : r.th3 ≤ v) : (x.cones r true).inCone.getD 2 false = true ∨
    x.inCone.getD 2 false = true := by
  cases hin : x.inCone.getD 2 false with
  | true => exact .inr rfl
  | false =>
    left
    unfold Sens.cones
    rw [hr]
    dsimp only
    have hstep : (coneStep r.th3 false true r.hyst v (x.inCone.getD 2 false, x.up.getD 2 0, x.dn.getD 2 0)).1 = true := by
      rw [hin]
      unfold coneStep
      simp [hv]
    simpa [List.getD_eq_getElem?_getD] using hstep

/-- A tick of TCM. -/
theorem thermalTicks : Claim.ThermalTick := by
  unfold Claim.ThermalTick
  intro raw s hup hlen
  have hpart {π : Part} (hp : π ∉ [.rings, .faults, .sj, .tcm, .lsw, .chans, .out, .free]) : part π (thermalTick raw s.start) = part π s.start :=
    thermalTick_part hp raw s.start
  have hkce : (thermalTick raw s.start).kce = s.kce := hpart (π := .kce) (by simp)
  have hpsc : (thermalTick raw s.start).psc = s.psc := hpart (π := .psc) (by simp)
  have hpla : (thermalTick raw s.start).pla = s.pla := hpart (π := .pla) (by simp)
  have hspa : (thermalTick raw s.start).spa = s.spa := hpart (π := .spa) (by simp)
  have hsens := thermalTick_sens (raw := raw) (s := s.start) hup
  have htable := sensTurns_length (List.range 152) (s.start.convertedAll raw) s.start
  have hturns {n : Nat} (hn : n < 152) := sensTurns_sens (s := s.start) hn hlen (s.start.convertedAll raw)
  generalize (List.range 152).foldl (fun u n => u.sensTurn (s.start.convertedAll raw) n) s.start = v at hsens htable hturns
  refine ⟨_, rfl, ?_⟩
  have hview (n : Nat) : (thermalTick raw s.start).sens n = v.sens n := sens_of_list hsens n
  generalize thermalTick raw s.start = t at *
  refine ⟨fun n c hn hc he => ?_, fun n => ?_, hkce, hpsc, hpla, hspa⟩
  · have hn' : n < 152 := by omega
    have hsame := (hturns hn').1 he
    obtain ⟨k1, k2, k3, k4, -⟩ := sensed_kept hn' s.start raw
    have hconv := converted_external s.start hn hc
    obtain ⟨c1, c2, c3, c4, -, -, c5⟩ := convert_counts c.code (flagCause c.code (decide (64 ≤ n) && c.selfTestFail) false) (s.sens n)
    have hflag := flagCause_isSome c.code (decide (64 ≤ n) && c.selfTestFail)
    rw [hview n]
    generalize hbad : (decide (25000 < c.code) || decide (c.code < -6000) || (decide (64 ≤ n) && c.selfTestFail)) = bad at *
    have hy := hsame.eq
    generalize hx : s.start.sensed (s.start.convertedAll raw) n = x at *
    have y1 : (v.sens n).nFlag = x.nFlag := by rw [hy]
    have y2 : (v.sens n).broken = x.broken := by rw [hy]
    have y3 : (v.sens n).reading = x.reading := by rw [hy]
    have y4 : (v.sens n).l3 = x.l3 := by rw [hy]
    have y5 : (v.sens n).eff = x.eff := by rw [hy]
    have hbroken : (v.sens n).broken = (if bad then (s.sens n).broken || decide (3 ≤ (s.sens n).nFlag + 1)
        else (s.sens n).broken && decide ((s.sens n).nOk + 1 < 10)) := by
      rw [y2, k2, hconv, ← hflag]
      exact c2
    refine ⟨?_, hbroken, fun hb hnb => ?_, fun hb hnb hn2 hcls hcone => ?_⟩
    · rw [y1, k1, hconv, ← hflag]
      exact c1
    · have hnone : flagCause c.code (decide (64 ≤ n) && c.selfTestFail) false = none := by
        rw [hb] at hflag
        exact Option.not_isSome_iff_eq_none.mp (by rw [hflag]; simp)
      have hgood : (s.start.converted raw n).good = (c.code :: (s.sens n).good).take 4 := by rw [hconv]; exact c5 hnone
      have hown := readingOf_own (c := s.start.conf) (cls := s.start.sup.cls) (s := s.start) (raw := raw) hn' (by rw [hconv]; exact c3)
        (by rw [← k2, ← y2]; exact hnb) (by rw [hgood]; simp)
      rw [y3, k3, hown, hgood]
      rfl
    · have hnow : (v.sens n).broken = true := by rw [hbroken, hb, hnb, hn2]; rfl
      have hread : x.reading = some ((s.conf.sensor n).th3 + 100) := by
        rw [k3]
        exact readingOf_broken hn' (by rw [hconv]; exact c3) (by rw [← k2, ← y2]; exact hnow) hcls
      have hthird : entered (s.sens n) (((s.start.converted raw n).read (readingOf s.start.conf s.start.sup.cls (s.start.convertedAll raw) n)).cones
          (s.conf.sensor n) ((s.start.converted raw n).broken != (s.sens n).broken)) 3 = true := by
        rw [← k2, ← y2, hnow, hnb]
        have hin := cones_third (r := s.conf.sensor n) (x := (s.start.converted raw n).read (readingOf s.start.conf s.start.sup.cls (s.start.convertedAll raw) n))
          (v := (s.conf.sensor n).th3 + 100) (by rw [← hread, k3]; rfl) (by omega)
        have hold : (s.start.converted raw n).inCone.getD 2 false = false := by rw [hconv]; exact (congrArg (fun l => l.getD 2 false) c4).trans hcone
        have hin' := hin.resolve_right (by change ¬((s.start.converted raw n).inCone.getD 2 false = true); rw [hold]; simp)
        unfold entered
        rw [show 3 - 1 = 2 from rfl, hcone]
        exact (Bool.and_true _).trans hin'
      have hl3 : x.l3 = true ∧ 3 ≤ x.eff := by
        have hxe : x = _ := hx.symm.trans ((sensed_eq ..).trans (by rw [convertedAll_getD hn']))
        obtain ⟨s1, s2, s3⟩ := settle_latches (s.conf.sensor n) s.sup.uptime ((s.assoc (s.conf.sensor n)).map (fun g => (g, s.carried g)))
          (((s.start.converted raw n).read (readingOf s.start.conf s.start.sup.cls (s.start.convertedAll raw) n)).cones
          (s.conf.sensor n) ((s.start.converted raw n).broken != (s.sens n).broken)) (s.sens n)
        rw [hthird, Bool.or_true] at s1 s3
        refine ⟨(congrArg Sens.l3 hxe).trans s1, ?_⟩
        rw [show x.eff = _ from (congrArg Sens.eff hxe).trans s3]
        refine Nat.le_trans ?_ (Nat.le_max_right _ _)
        split <;> simp
      exact ⟨hnow, by rw [y3, hread], by rw [y4]; exact hl3.1, by rw [y5]; exact hl3.2⟩
  · rw [hview n]
    by_cases hn : n < 152
    · obtain ⟨-, -, -, k4, k5⟩ := sensed_kept hn s.start raw
      obtain ⟨h1, h2⟩ := hturns hn
      cases he : (s.start.conf.sensor n).enable with
      | true =>
        have hy := (h1 he).eq
        have y4 : (v.sens n).l3 = (s.start.sensed (s.start.convertedAll raw) n).l3 := by rw [hy]
        have y5 : (v.sens n).l4 = (s.start.sensed (s.start.convertedAll raw) n).l4 := by rw [hy]
        exact ⟨fun h => by rw [y4]; exact k4 h, fun h => by rw [y5]; exact k5 h⟩
      | false =>
        rw [h2 he]
        exact ⟨fun h => h, fun h => h⟩
    · rw [sens_beyond (s := v) (by rw [htable]; exact hlen ▸ Nat.le_of_not_lt hn), sens_beyond (s := s) (by omega)]
      exact ⟨fun h => h, fun h => h⟩

end Sys2Proof.Machine
end
section
/-! PROOFS. What TCM gives the site plan, its commands and the Aqaux loop -/

namespace Sys2Proof.Machine

open Sys2Proof

/-! ### Caps -/

/-- The smaller of two caps with their sensors taken over a run is at most each that takes part. -/
theorem tcmCaps_sensor {s : State} {g n : Nat} (hn : n < 152) (he : (s.conf.sensor n).enable = true) (heff : 2 ≤ (s.sens n).eff)
    (ha : g ∈ s.assoc (s.conf.sensor n)) : (s.tcmCaps g).1 ≤ (s.contribution n g).1 ∧ (s.tcmCaps g).2.1 ≤ (s.contribution n g).2 := by
  have hc : ((s.conf.sensor n).enable && decide (2 ≤ (s.sens n).eff) && (s.assoc (s.conf.sensor n)).contains g) = true := by
    rw [he, decide_eq_true heff, List.contains_iff_mem.mpr ha]
    rfl
  unfold State.tcmCaps
  dsimp only
  refine foldl_rel (R := fun a b : Nat × Nat × Nat => a.1 ≤ (s.contribution n g).1 ∧ a.2.1 ≤ (s.contribution n g).2 →
    b.1 ≤ (s.contribution n g).1 ∧ b.2.1 ≤ (s.contribution n g).2) (fun _ h => h) (fun _ _ _ h1 h2 h => h2 (h1 h)) (fun a p h => ?_) _ _ ?_
  · split
    next hp =>
      simp only [Bool.and_eq_true, decide_eq_true_eq] at hp
      exact ⟨h.1, (Nat.le_of_lt hp.2).trans h.2⟩
    · exact h
  · refine foldl_range_at (P := fun _ => True) (Q := fun a : Nat × Nat × Nat => a.1 ≤ (s.contribution n g).1 ∧ a.2.1 ≤ (s.contribution n g).2) hn
      (fun _ _ _ _ => trivial) (fun a _ => ?_) (fun a i _ h => ?_) trivial
    · rw [if_pos hc]
      refine ⟨Nat.min_le_right .., ?_⟩
      dsimp only
      split
      · exact Nat.le_refl _
      next h => exact Nat.le_of_not_lt h
    · split
      · refine ⟨(Nat.min_le_left ..).trans h.1, ?_⟩
        dsimp only
        split
        next hlt => exact (Nat.le_of_lt hlt).trans h.2
        · exact h.2
      · exact h

theorem tcmCaps_port {s : State} {g p : Nat} (hp : p < 16) (he : (s.conf.aq p).enable = true) (hf : (s.aq p).fault = true)
    (hg : s.portGroup p = some g) : (s.tcmCaps g).2.1 ≤ (s.conf.aq p).capNoflow := by
  have hflow : s.flowFault p = true := by rw [State.flowFault, he, hf]; rfl
  unfold State.tcmCaps
  dsimp only
  refine foldl_range_at (P := fun _ => True) (Q := fun a : Nat × Nat × Nat => a.2.1 ≤ (s.conf.aq p).capNoflow) hp (fun _ _ _ _ => trivial)
    (fun a _ => ?_) (fun a i _ h => ?_) trivial
  · rw [hflow, hg]
    split
    · exact Nat.le_refl _
    next h => exact Nat.le_of_not_lt (by simpa using h)
  · split
    next hc =>
      simp only [Bool.and_eq_true, decide_eq_true_eq] at hc
      exact (Nat.le_of_lt hc.2).trans h
    · exact h

/-- A multiple is divided without rounding. -/
theorem rneDivN_mul {a b : Nat} (hb : 0 < b) : rneDivN (a * b) b = a := by
  have hb' : (b : Int) ≠ 0 := by omega
  have hq : ((a * b : Nat) : Int) / (b : Int) = a := by push_cast; exact Int.mul_ediv_cancel _ hb'
  unfold rneDivN rneDiv
  rw [if_neg (by omega)]
  dsimp only
  rw [hq]
  push_cast
  rw [if_pos (by omega)]
  simp

/-- Rounding to the nearest stays at or below an integer bound. -/
theorem rneDivN_le {a b c : Nat} (hb : 0 < b) (h : a ≤ c * b) : rneDivN a b ≤ c := by
  have hb' : (0 : Int) < b := by omega
  have h' : (a : Int) ≤ c * b := by exact_mod_cast h
  have hq : (a : Int) / b ≤ c := Int.ediv_le_of_le_mul hb' h'
  have hr : (a : Int) - a / b * b = a % b := by have := Int.mul_ediv_add_emod (a : Int) b; rw [Int.mul_comm] at this; omega
  have hlt := Int.emod_lt_of_pos (a : Int) hb'
  have hge := Int.emod_nonneg (a : Int) hb'.ne'
  have heq : (a : Int) / b = c → (a : Int) % b = 0 := by
    intro hc
    rw [hc] at hr
    omega
  unfold rneDivN rneDiv
  rw [if_neg (by omega)]
  dsimp only
  rw [hr]
  by_cases hc : (a : Int) / b = c
  · rw [heq hc, if_pos (by omega), hc]
    simp
  · have hlt' : (a : Int) / b + 1 ≤ c := by omega
    split
    · omega
    · split
      · omega
      · split <;> omega

/-- What TCM gives the site plan. -/
theorem thermalCaps : Claim.ThermalCaps := by
  unfold Claim.ThermalCaps
  refine ⟨fun s g n _ hn he heff ha => tcmCaps_sensor hn he heff ha, fun s g n h => ?_, fun s g n x he ht hx hms => ?_,
    fun s g p hp he hf hg => tcmCaps_port hp he hf hg, fun n s hl he heff hh => ?_, fun n s heff => ?_⟩
  · unfold State.contribution
    dsimp only
    rcases h with h | ⟨h, ht⟩
    · rw [if_neg (by rw [h]; decide), if_neg (by rw [h]; simp), if_pos (by rw [h]; decide)]
    · rw [if_neg (by rw [h]; decide), if_neg (by rw [ht]; simp), if_pos (by rw [h])]
  · have hcon : s.contribution n g = (noCap, x.cap g s.sup.uptime) := by
      unfold State.contribution
      dsimp only
      rw [if_neg (by rw [he]; decide), if_pos ⟨he, ht⟩, hx]
    have hpos : 0 < x.ms * 1000 := by omega
    refine ⟨_, hcon, ?_, fun hu => ?_, fun hu => ?_⟩
    · unfold Stop.cap
      dsimp only
      split
      · exact rneDivN_le hpos (Nat.mul_le_mul_left _ (Nat.sub_le ..))
      · exact Nat.zero_le _
    · unfold Stop.cap
      dsimp only
      rw [hu, Nat.sub_self, if_pos hpos, Nat.sub_zero, rneDivN_mul hpos]
    · unfold Stop.cap
      dsimp only
      rw [if_neg (by omega)]
  · have hg : graceExpiry n s.start = (s.start.onSens n (fun x => { x with hard2 := true })).tcmEvent n 0x03 (s.conf.sensor n).graceMs none none :=
      if_pos ⟨he, heff, hh⟩
    refine ⟨_, congrArg Host.Outcome.next hg, ?_, ?_, fun m hm => ?_, ?_⟩
    · rw [tcmEvent_sens]
      exact onSens_sens (s := s.start) _ hl
    · rw [tcmEvent_tcm]
    · rw [tcmEvent_sens]
      exact onSens_sens_of_ne hm s.start _
    · exact tcmEvent_part (π := .spa) (by simp) ..
  · have hg : graceExpiry n s.start = s.start := if_neg (fun h => absurd h.2.1 (Nat.not_le_of_lt heff))
    exact ⟨_, congrArg Host.Outcome.next hg, rfl⟩

/-! ### One port's loop -/

theorem onAq_aq {p : Nat} {s : State} (f : Aqaux → Aqaux) (h : p < s.tcm.aq.length) : (s.onAq p f).aq p = f (s.aq p) := getD_upd_self f _ h

theorem onAq_aq_of_ne {p r : Nat} (h : r ≠ p) (s : State) (f : Aqaux → Aqaux) : (s.onAq p f).aq r = s.aq r := getD_upd_of_ne h ..

theorem onAq_length (p : Nat) (f : Aqaux → Aqaux) (s : State) : (s.onAq p f).tcm.aq.length = s.tcm.aq.length := upd_length s.tcm.aq p f

theorem aq_of_list {s t : State} (h : t.tcm.aq = s.tcm.aq) (p : Nat) : t.aq p = s.aq p := by
  rw [State.aq, h]
  rfl

theorem tcmEvent_aq (src sub arg : Nat) (fault : Option Nat) (v : Option Int) (s : State) (p : Nat) : (s.tcmEvent src sub arg fault v).aq p = s.aq p :=
  aq_of_list (by rw [tcmEvent_tcm]) p

/-- A port's counts at a flow second (R287). -/
def Aqaux.counted (flow flowMin : Nat) (a : Aqaux) : Aqaux :=
  { a with flow := flow, low := if flow < flowMin then a.low + 1 else 0, ok := if flow < flowMin then 0 else a.ok + 1 }

/-- A flow fault is raised at this second. -/
def Aqaux.raises (settle now : Nat) (a : Aqaux) : Bool := !a.fault && decide (2 ≤ a.low) && a.pump && decide (settle * 1000000 ≤ now - a.pumpSince)

/-- A port behind a flow second. -/
def Aqaux.second (flow flowMin settle now : Nat) (a : Aqaux) : Aqaux :=
  let b := a.counted flow flowMin
  if b.raises settle now then { b with fault := true } else if b.fault && decide (2 ≤ b.ok) then { b with fault := false } else b

/-- A step that changes one port's loop alone. -/
structure AqStep (p : Nat) (s t : State) : Prop where
  others : ∀ r, r ≠ p → t.aq r = s.aq r
  length : t.tcm.aq.length = s.tcm.aq.length
  pulses : t.tcm.pulses = s.tcm.pulses

theorem flowSecond_eq (pulses : List Nat) (p : Nat) (s : State) : s.flowSecond pulses p =
    if !(s.conf.aq p).enable || 16 ≤ (s.conf.aq p).flow then s
    else
      let flow := rneDivN (pulses.getD (s.conf.aq p).flow 0 * 600) (s.conf.aq p).kFlow
      let s1 := s.onAq p (Aqaux.counted flow (s.conf.aq p).flowMin)
      if (s1.aq p).raises (s.conf.aq p).settle s.sup.uptime then
        (s1.onAq p (fun a => { a with fault := true })).tcmEvent p 0x05 (flow % 65536 * 65536 + 1) (some 0x0705) (s.sens (s.conf.aq p).cable).reading
      else if (s1.aq p).fault && decide (2 ≤ (s1.aq p).ok) then
        (s1.onAq p (fun a => { a with fault := false })).tcmEvent p 0x05 (flow % 65536 * 65536) none none
      else s1 := rfl

theorem tcmEvent_aqStep {p : Nat} {s u : State} (h : AqStep p s u) (src sub arg : Nat) (fault : Option Nat) (v : Option Int) :
    AqStep p s (u.tcmEvent src sub arg fault v) :=
  ⟨fun r hr => (tcmEvent_aq ..).trans (h.others r hr), by rw [tcmEvent_tcm]; exact h.length, by rw [tcmEvent_tcm]; exact h.pulses⟩

theorem onAq_aqStep {p : Nat} {s u : State} (h : AqStep p s u) (f : Aqaux → Aqaux) : AqStep p s (u.onAq p f) :=
  ⟨fun r hr => (onAq_aq_of_ne hr u f).trans (h.others r hr), (onAq_length p f u).trans h.length, h.pulses⟩

theorem flowSecond_step (pulses : List Nat) (p : Nat) (s : State) : AqStep p s (s.flowSecond pulses p) := by
  have hrefl : AqStep p s s := ⟨fun _ _ => rfl, rfl, rfl⟩
  rw [flowSecond_eq]
  dsimp only
  split
  · exact hrefl
  · split
    · exact tcmEvent_aqStep (onAq_aqStep (onAq_aqStep hrefl _) _) ..
    · split
      · exact tcmEvent_aqStep (onAq_aqStep (onAq_aqStep hrefl _) _) ..
      · exact onAq_aqStep hrefl _

theorem flowSecond_aq {pulses : List Nat} {p : Nat} {s : State} (hp : p < s.tcm.aq.length) (he : (s.conf.aq p).enable = true) (hf : (s.conf.aq p).flow < 16) :
    (s.flowSecond pulses p).aq p = (s.aq p).second (rneDivN (pulses.getD (s.conf.aq p).flow 0 * 600) (s.conf.aq p).kFlow) (s.conf.aq p).flowMin
      (s.conf.aq p).settle s.sup.uptime := by
  rw [flowSecond_eq]
  dsimp only
  rw [if_neg (by simp [he]; omega)]
  generalize rneDivN (pulses.getD (s.conf.aq p).flow 0 * 600) (s.conf.aq p).kFlow = flow
  have h1 := onAq_aq (s := s) (Aqaux.counted flow (s.conf.aq p).flowMin) hp
  have hlen : p < (s.onAq p (Aqaux.counted flow (s.conf.aq p).flowMin)).tcm.aq.length := by rw [onAq_length]; exact hp
  rw [h1]
  unfold Aqaux.second
  dsimp only
  split
  · rw [tcmEvent_aq, onAq_aq _ hlen, h1]
  · split
    · rw [tcmEvent_aq, onAq_aq _ hlen, h1]
    · exact h1

theorem flowSecond_off {pulses : List Nat} {p : Nat} {s : State} (h : (s.conf.aq p).enable = false ∨ 16 ≤ (s.conf.aq p).flow) :
    s.flowSecond pulses p = s := by
  rw [flowSecond_eq, if_pos (by rcases h with h | h <;> simp [h])]

/-- What a port's flow second reads besides the pulses. -/
structure AqInput (p : Nat) (s u : State) : Prop where
  aq : u.aq p = s.aq p
  cfg : u.cfg = s.cfg
  uptime : u.sup.uptime = s.sup.uptime
  length : u.tcm.aq.length = s.tcm.aq.length

theorem AqInput.second {p r : Nat} {s u : State} (h : AqInput p s u) (hr : r ≠ p) (pulses : List Nat) : AqInput p s (u.flowSecond pulses r) := by
  have hstep := flowSecond_step pulses r u
  exact ⟨(hstep.others p (Ne.symm hr)).trans h.aq, (flowSecond_part (π := .cfg) (by simp) ..).trans h.cfg,
    (sup_of_part (flowSecond_part (π := .sup) (by simp) pulses r u) Sup.uptime (fun _ => rfl)).trans h.uptime, hstep.length.trans h.length⟩

/-- A port behind the flow seconds of all. -/
theorem flowSeconds_aq {pulses : List Nat} {p : Nat} {s : State} (hp : p < 16) (hlen : s.tcm.aq.length = 16) (he : (s.conf.aq p).enable = true)
    (hf : (s.conf.aq p).flow < 16) : ((List.range 16).foldl (fun s p => s.flowSecond pulses p) s).aq p =
      (s.aq p).second (rneDivN (pulses.getD (s.conf.aq p).flow 0 * 600) (s.conf.aq p).kFlow) (s.conf.aq p).flowMin (s.conf.aq p).settle s.sup.uptime := by
  refine foldl_range_at (f := fun (s : State) p => s.flowSecond pulses p) (P := AqInput p s) (Q := fun t : State => t.aq p = (s.aq p).second
    (rneDivN (pulses.getD (s.conf.aq p).flow 0 * 600) (s.conf.aq p).kFlow) (s.conf.aq p).flowMin (s.conf.aq p).settle s.sup.uptime) hp
    (fun u i hi h => h.second hi pulses) (fun u h => ?_) (fun u i hi h => ?_) ⟨rfl, rfl, rfl, rfl⟩
  · have hconf : u.conf = s.conf := by unfold State.conf; rw [h.cfg]
    rw [flowSecond_aq (by rw [h.length, hlen]; exact hp) (by rw [hconf]; exact he) (by rw [hconf]; exact hf), hconf, h.aq, h.uptime]
  · rw [(flowSecond_step pulses i u).others p (Ne.symm hi)]
    exact h

theorem flowSeconds_off {pulses : List Nat} {p : Nat} {s : State} (h : (s.conf.aq p).enable = false ∨ 16 ≤ (s.conf.aq p).flow) (l : List Nat) :
    (l.foldl (fun s p => s.flowSecond pulses p) s).aq p = s.aq p := by
  refine (foldl_rel (R := fun a b : State => a.cfg = s.cfg → b.aq p = a.aq p ∧ b.cfg = s.cfg) (fun a h => ⟨rfl, h⟩)
    (fun a b c h1 h2 h => ⟨(h2 (h1 h).2).1.trans (h1 h).1, (h2 (h1 h).2).2⟩) (fun a r hc => ⟨?_, (flowSecond_part (π := .cfg) (by simp) ..).trans hc⟩) l s rfl).1
  by_cases hr : p = r
  · subst hr
    rw [flowSecond_off (by unfold State.conf at h ⊢; rw [hc]; exact h)]
  · exact (flowSecond_step pulses r a).others p hr

theorem flowSeconds_pulses (pulses l : List Nat) (s : State) : (l.foldl (fun s p => s.flowSecond pulses p) s).tcm.pulses = s.tcm.pulses :=
  foldl_kept (φ := fun u : State => u.tcm.pulses) (fun u p => (flowSecond_step pulses p u).pulses) l s

/-- A second of flow on one port. -/
theorem second_faults (flow flowMin settle now : Nat) (a : Aqaux) : (a.second flow flowMin settle now).flow = flow ∧
    (flow < flowMin → a.fault = false → a.low = 1 → a.pump = true → settle * 1000000 ≤ now - a.pumpSince → (a.second flow flowMin settle now).fault = true) ∧
    (flow < flowMin → a.fault = true → (a.second flow flowMin settle now).fault = true) ∧
    (flowMin ≤ flow → a.fault = false → (a.second flow flowMin settle now).fault = false) ∧
    (flowMin ≤ flow → a.fault = true → ((a.second flow flowMin settle now).fault = true ↔ a.ok = 0)) := by
  refine ⟨?_, fun hlt hf hl hp hs => ?_, fun hlt hf => ?_, fun hle hf => ?_, fun hle hf => ?_⟩
  · unfold Aqaux.second
    dsimp only
    split
    · rfl
    · split <;> rfl
  · unfold Aqaux.second Aqaux.raises Aqaux.counted
    simp [hlt, hf, hl, hp, hs]
  · unfold Aqaux.second Aqaux.raises Aqaux.counted
    simp [hlt, hf]
  · unfold Aqaux.second Aqaux.raises Aqaux.counted
    simp [Nat.not_lt_of_ge hle, hf]
  · unfold Aqaux.second Aqaux.raises Aqaux.counted
    by_cases hok : a.ok = 0
    · simp [Nat.not_lt_of_ge hle, hf, hok]
    · have h1 : 1 ≤ a.ok := Nat.one_le_iff_ne_zero.mpr hok
      simp [Nat.not_lt_of_ge hle, hf, hok, h1]

/-- The flow second and FORCE_ON. -/
theorem flowAndForce : Claim.FlowAndForce := by
  unfold Claim.FlowAndForce
  refine ⟨fun pulses s hup hlen => ?_, fun p s hp hu => ?_, fun p s hu => ?_⟩
  · have he : flowSeconds pulses s.start = (List.range 16).foldl (fun s p => s.flowSecond pulses p) (s.start.onTcm (fun t => { t with
        pulses := (List.range 16).map (fun i => (t.pulses.getD i 0 + pulses.getD i 0) % 2 ^ 32) })) := by
      unfold flowSeconds
      rw [if_neg (by rw [show s.start.siteUp = true from hup]; simp)]
    have hpart {π : Part} (hp : π ∉ [.rings, .faults, .tcm, .out]) : part π (flowSeconds pulses s.start) = part π s.start := flowSeconds_part hp pulses s.start
    have hspa := hpart (π := .spa) (by simp)
    have hkce := hpart (π := .kce) (by simp)
    have hlsw := hpart (π := .lsw) (by simp)
    have hpulses := flowSeconds_pulses pulses (List.range 16) (s.start.onTcm (fun t => { t with
        pulses := (List.range 16).map (fun i => (t.pulses.getD i 0 + pulses.getD i 0) % 2 ^ 32) }))
    have haq {p : Nat} (hp : p < 16) (h1 : (s.conf.aq p).enable = true) (h2 : (s.conf.aq p).flow < 16) := flowSeconds_aq (pulses := pulses) (s := s.start.onTcm (fun t => { t with
        pulses := (List.range 16).map (fun i => (t.pulses.getD i 0 + pulses.getD i 0) % 2 ^ 32) })) hp hlen h1 h2
    have hoff {p : Nat} (h : (s.conf.aq p).enable = false ∨ 16 ≤ (s.conf.aq p).flow) := flowSeconds_off (pulses := pulses) (p := p) (s := s.start.onTcm (fun t => { t with
        pulses := (List.range 16).map (fun i => (t.pulses.getD i 0 + pulses.getD i 0) % 2 ^ 32) })) h (List.range 16)
    rw [← he] at hpulses
    simp only [← he] at haq hoff
    refine ⟨_, rfl, ?_⟩
    generalize flowSeconds pulses s.start = t at *
    refine ⟨fun i hi => ?_, fun p hp h1 h2 => ?_, fun p h => hoff h, hspa, hkce, hlsw⟩
    · rw [hpulses]
      change ((List.range 16).map (fun i => (s.tcm.pulses.getD i 0 + pulses.getD i 0) % 2 ^ 32)).getD i 0 = _
      rw [List.getD_eq_getElem?_getD, List.getElem?_map, List.getElem?_range hi]
      rfl
    · rw [haq hp h1 h2]
      exact second_faults ..
  · have he : aqForceExpiry p s.start = s.start.onAq p (fun a => if a.until_.isSome then { a with force := false, until_ := none } else a) := rfl
    refine ⟨_, congrArg Host.Outcome.next he, ?_, fun r hr => onAq_aq_of_ne hr s.start _, rfl⟩
    exact (onAq_aq (s := s.start) _ hp).trans (if_pos hu)
  · have hsame : upd s.tcm.aq p (fun a => if a.until_.isSome then { a with force := false, until_ := none } else a) = s.tcm.aq := by
      rw [upd_eq_const _ _ _ Aqaux.reset, upd_const]
      rw [show s.tcm.aq.getD p Aqaux.reset = s.aq p from rfl, hu]
      by_cases hp : p < s.tcm.aq.length
      · rw [show s.aq p = s.tcm.aq[p] from List.getD_eq_getElem _ _ hp]
        exact List.set_getElem_self hp
      · exact List.set_eq_of_length_le (by omega)
    have he : aqForceExpiry p s.start = s.start :=
      congrArg (fun l => { s.start with tcm := { s.tcm with aq := l } }) hsame
    exact ⟨_, congrArg Host.Outcome.next he, rfl⟩

/-! ### Commands -/

theorem thermalStatus_ok {q : Sqe} {s : State} {bytes : List Byte} {n total : Nat} (h : Taken 0x60 q s) (hk : bits (sd q 6) 1 0 ≠ 3)
    (ht : thermalTotal (bits (sd q 6) 1 0) = total) (hn : bits (sd q 6) 15 8 = n) (h1 : 1 ≤ n) (hlt : sd q 1 < total) (hle : sd q 1 + n ≤ total)
    (h16 : 16 * n ≤ sd q 4) (hb : thermalStatus q (s.start.accept q) = (s.start.accept q).replyDone q bytes n) :
    Answers (.thermalStatus q) s (ReadOnly q n bytes s) := by
  refine answers_taken rfl h (by simp [ht, hn, h1, hlt, hle, h16, hk]) ?_
  rw [hb]
  exact replyDone_readOnly h.2.1

theorem thermalStatus_bad {q : Sqe} {s : State} {n total : Nat} (h : Taken 0x60 q s) (hk : bits (sd q 6) 1 0 ≠ 3)
    (ht : thermalTotal (bits (sd q 6) 1 0) = total) (hn : bits (sd q 6) 15 8 = n) (h1 : 1 ≤ n) (hlt : sd q 1 < total) (hle : sd q 1 + n ≤ total)
    (h16 : 16 * n ≤ sd q 4) (hb : thermalStatus q (s.start.accept q) = (s.start.accept q).done q stBAD_OBJECT 0) :
    Answers (.thermalStatus q) s (OnlyCompletes q stBAD_OBJECT 0 s) := by
  refine answers_taken rfl h (by simp [ht, hn, h1, hlt, hle, h16, hk]) ?_
  rw [hb]
  exact done_onlyCompletes h.2.1

/-- The objects that THERMAL_STATUS may not read are those with a disabled record (R290). -/
theorem any_disabled {q : Sqe} {n : Nat} {en : Nat → Bool} : ((List.range n).map (fun i => sd q 1 + i)).any (fun o => !en o) = true ↔
    ∃ i, i < n ∧ en (sd q 1 + i) = false := by
  simp [List.any_eq_true]

theorem unlatch_eq (n : Nat) (s : State) : s.unlatch n = (s.onSens n (fun x => { x with l3 := false, l4 := false })).tcmEvent n 0x06 (s.sens n).eff
    (some 0x0706) (s.sens n).reading := rfl

/-- The run over the sensors of a LATCH_CLEAR of all. -/
theorem unlatch_step (n : Nat) (s : State) : SensStep n s (s.unlatch n) := by
  rw [unlatch_eq]
  exact (onSens_step ..).trans (tcmEvent_step ..)

theorem unlatch_sens {n : Nat} {s : State} (h : n < s.tcm.sens.length) : (s.unlatch n).sens n = { s.sens n with l3 := false, l4 := false } := by
  unfold State.unlatch
  rw [tcmEvent_sens, onSens_sens _ h]

/-- A sensor among those unlatched, or not. -/
theorem unlatchAll_sens {l : List Nat} {n : Nat} {s : State} (hn : n < s.tcm.sens.length) :
    (l.foldl (fun s i => s.unlatch i) s).sens n = if n ∈ l then { s.sens n with l3 := false, l4 := false } else s.sens n := by
  induction l generalizing s with
  | nil => rfl
  | cons i l ih =>
    rw [List.foldl_cons, ih (by rw [(unlatch_step i s).length]; exact hn)]
    by_cases hi : n = i
    · subst hi
      rw [unlatch_sens hn, if_pos (List.mem_cons_self)]
      split <;> rfl
    · rw [(unlatch_step i s).others n hi]
      simp [hi]

/-- What follows the latches cleared: the journal, the holds, the completion. -/
theorem cleared_kept {q : Sqe} {r : Nat} {s u : State} {old : List (Nat × Bool × Bool)} (h : OwnedAs q.fn q.sq (cidOf q) s)
    (hu : ∀ {π : Part}, π ∉ [.rings, .faults, .tcm, .out] → part π u = part π (s.start.accept q)) :
    Completed q stDONE r s ((u.journalLatches old).tcmHolds.done q stDONE r) ∧ (∀ n, ((u.journalLatches old).tcmHolds.done q stDONE r).sens n = u.sens n) ∧
    ((u.journalLatches old).tcmHolds.done q stDONE r).tcm = u.tcm ∧
    ((u.journalLatches old).tcmHolds.done q stDONE r).spa = s.spa ∧ ((u.journalLatches old).tcmHolds.done q stDONE r).kce = s.kce ∧
    ((u.journalLatches old).tcmHolds.done q stDONE r).psc = s.psc := by
  have hbehind {π : Part} (hp : π ∉ [.rings, .faults, .sj, .lsw, .chans, .out, .free]) : part π (u.journalLatches old).tcmHolds = part π u :=
    (tcmHolds_part hp _).trans (journalLatches_part (by simp at hp ⊢; tauto) ..)
  have hdone {π : Part} (hp : π ∉ [.fwd, .ready, .cur]) : part π ((u.journalLatches old).tcmHolds.done q stDONE r) = part π (u.journalLatches old).tcmHolds :=
    done_part hp ..
  have htcm : part .tcm ((u.journalLatches old).tcmHolds.done q stDONE r) = part .tcm u := (hdone (by simp)).trans (hbehind (by simp))
  refine ⟨State.done_completed h ((hbehind (π := .fwd) (by simp)).trans (hu (by simp))) ((hbehind (π := .ready) (by simp)).trans (hu (by simp))),
    fun n => sens_of_part htcm n, htcm, ?_, ?_, ?_⟩
  · exact (hdone (π := .spa) (by simp)).trans ((hbehind (by simp)).trans (hu (by simp)))
  · exact (hdone (π := .kce) (by simp)).trans ((hbehind (by simp)).trans (hu (by simp)))
  · exact (hdone (π := .psc) (by simp)).trans ((hbehind (by simp)).trans (hu (by simp)))

theorem aq_of_tcm {s t : State} (h : part .tcm t = part .tcm s) (p : Nat) : t.aq p = s.aq p := congrArg (fun l => l.getD p Aqaux.reset) (congrArg Tcm.aq h :)

/-- What AQAUX_SET makes of a port's cooling (R288). -/
def Aqaux.ordered (d now : Nat) (a : Aqaux) : Aqaux :=
  { a with
    force := bit d 0
    until_ := if bit d 0 && bits d 31 16 != 0 then some (now + bits d 31 16 * 1000000) else none }

/-- The TCM commands. -/
theorem thermalCommands : Claim.ThermalCommands := by
  unfold Claim.ThermalCommands
  refine ⟨?groups, ?sensors, ?ports, ?clearAll, ?clear, ?notCleared, ?set⟩
  case groups =>
    intro q s n h hk hn h1 hlt hle h16
    refine thermalStatus_ok h (by rw [hk]; decide) (by rw [hk]; rfl) hn h1 hlt hle h16 ?_
    unfold thermalStatus
    simp only [hk, hn]
    rw [if_neg (by simp)]
    rfl
  case sensors =>
    intro q s n h hk hn h1 hlt hle h16
    have hany := any_disabled (q := q) (n := n) (en := fun o => (s.conf.sensor o).enable)
    refine ⟨fun hen => thermalStatus_ok h (by rw [hk]; decide) (by rw [hk]; rfl) hn h1 hlt hle h16 ?_,
      fun hdis => thermalStatus_bad h (by rw [hk]; decide) (by rw [hk]; rfl) hn h1 hlt hle h16 ?_⟩
    · unfold thermalStatus
      simp only [hk, hn]
      rw [if_neg (fun hc => by
        obtain ⟨i, hi, hd⟩ := hany.mp hc
        rw [hen i hi] at hd
        cases hd)]
      rfl
    · unfold thermalStatus
      simp only [hk, hn]
      exact if_pos (hany.mpr hdis)
  case ports =>
    intro q s n h hk hn h1 hlt hle h16
    have hany := any_disabled (q := q) (n := n) (en := fun o => (s.conf.aq o).enable)
    refine ⟨fun hen => thermalStatus_ok h (by rw [hk]; decide) (by rw [hk]; rfl) hn h1 hlt hle h16 ?_,
      fun hdis => thermalStatus_bad h (by rw [hk]; decide) (by rw [hk]; rfl) hn h1 hlt hle h16 ?_⟩
    · unfold thermalStatus
      simp only [hk, hn]
      rw [if_neg (fun hc => by
        obtain ⟨i, hi, hd⟩ := hany.mp hc
        rw [hen i hi] at hd
        cases hd)]
      rfl
    · unfold thermalStatus
      simp only [hk, hn]
      exact if_pos (hany.mpr hdis)
  case clearAll =>
    intro q s h hall hlen
    refine answers_taken rfl h (by simp [hall]) ?_
    have he : latchClear q (s.start.accept q) = (((((List.range 152).filter (fun i => (s.sens i).latched && s.mayClear i)).foldl (fun s i => s.unlatch i)
        (s.start.accept q)).journalLatches s.tcm.latches).tcmHolds).done q stDONE (countOf 152 (fun i => (s.sens i).latched && s.mayClear i) +
          65536 * countOf 152 (fun i => (s.sens i).latched && !s.mayClear i)) := by
      unfold latchClear
      dsimp only
      rw [if_pos hall]
      rfl
    rw [he]
    have hsens {n : Nat} (hn : n < 152) := unlatchAll_sens (l := (List.range 152).filter (fun i => (s.sens i).latched && s.mayClear i)) (n := n)
      (s := s.start.accept q) (by rw [show (s.start.accept q).tcm = s.tcm from rfl, hlen]; exact hn)
    have hpart {π : Part} (hp : π ∉ [.rings, .faults, .tcm, .out]) : part π (((List.range 152).filter (fun i => (s.sens i).latched && s.mayClear i)).foldl
        (fun s i => s.unlatch i) (s.start.accept q)) = part π (s.start.accept q) := part_foldl (fun u i => unlatch_part hp i u) _ _
    have hmem (n : Nat) : n ∈ (List.range 152).filter (fun i => (s.sens i).latched && s.mayClear i) ↔ n < 152 ∧ (s.sens n).latched = true ∧ s.mayClear n = true := by
      simp
    generalize ((List.range 152).filter (fun i => (s.sens i).latched && s.mayClear i)).foldl (fun s i => s.unlatch i) (s.start.accept q) = u at *
    obtain ⟨k1, k2, -, k4, k5, k6⟩ := cleared_kept (r := countOf 152 (fun i => (s.sens i).latched && s.mayClear i) +
          65536 * countOf 152 (fun i => (s.sens i).latched && !s.mayClear i)) (old := s.tcm.latches) h.2.1 hpart
    refine ⟨k1, fun n hn => ⟨fun hl hm => ?_, fun hm => ?_⟩, k4, k5, k6⟩
    · rw [k2, hsens hn, if_pos ((hmem n).mpr ⟨hn, hl, hm⟩)]
      rfl
    · rw [k2, hsens hn, if_neg (fun hc => by rw [((hmem n).mp hc).2.2] at hm; cases hm)]
      rfl
  case clear =>
    intro q s h hlt hlen hen hlat hb hbelow
    refine answers_taken rfl h (by simp [hlt]) ?_
    have hmay : s.mayClear (sd q 1) = true := by
      unfold State.mayClear
      rcases hb with hb | hb <;> simp [hen, hb, hbelow]
    have he : latchClear q (s.start.accept q) = ((((s.start.accept q).unlatch (sd q 1)).journalLatches s.tcm.latches).tcmHolds).done q stDONE 1 := by
      have h1 : ((s.start.accept q).conf.sensor (sd q 1)).enable = true := hen
      have h2 : ((s.start.accept q).sens (sd q 1)).latched = true := hlat
      have h3 : (s.start.accept q).mayClear (sd q 1) = true := hmay
      unfold latchClear
      dsimp only
      rw [if_neg (by omega), if_neg (by simp [h1]), if_neg (by simp [h2]), if_neg (by simp [h3])]
      rfl
    rw [he]
    have hsens := unlatch_sens (s := s.start.accept q) hlen
    have hothers := (unlatch_step (sd q 1) (s.start.accept q)).others
    have hlast : ((s.start.accept q).unlatch (sd q 1)).tcm.lastEvent = some (sd q 1, 6, (s.sens (sd q 1)).eff % 256) := by
      unfold State.unlatch
      rw [tcmEvent_tcm]
      rfl
    have hpart {π : Part} (hp : π ∉ [.rings, .faults, .tcm, .out]) : part π ((s.start.accept q).unlatch (sd q 1)) = part π (s.start.accept q) :=
      unlatch_part hp ..
    generalize (s.start.accept q).unlatch (sd q 1) = u at *
    obtain ⟨k1, k2, k3, k4, k5, k6⟩ := cleared_kept (r := 1) (old := s.tcm.latches) h.2.1 hpart
    refine ⟨k1, ?_, fun n hn => ?_, ?_, k4, k5, k6⟩
    · rw [k2, hsens]; rfl
    · rw [k2, hothers n hn]; rfl
    · rw [k3]; exact hlast
  case notCleared =>
    intro q s h hlt hen
    have h1 : ((s.start.accept q).conf.sensor (sd q 1)).enable = true := hen
    refine ⟨fun hl => answers_taken rfl h (by simp [hlt]) ?_, fun hl hb => answers_taken rfl h (by simp [hlt]) ?_⟩
    · have h2 : ((s.start.accept q).sens (sd q 1)).latched = false := hl
      have he : latchClear q (s.start.accept q) = (s.start.accept q).done q stDONE_NOTE 0 := by
        unfold latchClear
        dsimp only
        rw [if_neg (by omega), if_neg (by simp [h1]), if_pos (by simp [h2])]
      rw [he]
      exact done_onlyCompletes h.2.1
    · have h2 : ((s.start.accept q).sens (sd q 1)).latched = true := hl
      have hmay : (s.start.accept q).mayClear (sd q 1) = false := by
        change s.mayClear (sd q 1) = false
        unfold State.mayClear
        rcases hb with ⟨hb1, hb2⟩ | hb
        · simp [hb1, hb2]
        · simp; omega
      have he : latchClear q (s.start.accept q) = (s.start.accept q).done q stBAD_STATE 0 := by
        unfold latchClear
        dsimp only
        rw [if_neg (by omega), if_neg (by simp [h1]), if_neg (by simp [h2]), if_pos (by simp [hmay])]
      rw [he]
      exact done_onlyCompletes h.2.1
  case set =>
    intro q s h hlt hlen h15 h3600 hen
    refine answers_taken rfl h (by simp [hlt, h15, h3600]) ?_
    have h1 : ((s.start.accept q).conf.aq (sd q 1)).enable = true := hen
    dsimp only
    rw [if_neg (by simp [h1])]
    have hat := onAq_aq (s := s.start.accept q) (Aqaux.ordered (sd q 6) s.sup.uptime) hlen
    have hothers {p : Nat} (hp : p ≠ sd q 1) := onAq_aq_of_ne hp (s.start.accept q) (Aqaux.ordered (sd q 6) s.sup.uptime)
    have hkept := done_kept (q := q) (st := stDONE) (r := 0) (s1 := (s.start.accept q).onAq (sd q 1) (Aqaux.ordered (sd q 6) s.sup.uptime)) h.2.1 rfl
    have hframe := State.done_frame ((s.start.accept q).onAq (sd q 1) (Aqaux.ordered (sd q 6) s.sup.uptime)) q stDONE 0
    have haq {p : Nat} := aq_of_tcm (done_part (π := .tcm) (by simp) q stDONE 0 ((s.start.accept q).onAq (sd q 1) (Aqaux.ordered (sd q 6) s.sup.uptime))) p
    refine ⟨hkept.1, ?_, hkept.2, ?_, fun p hp => ?_, ?_⟩
    · rw [State.done_out]; rfl
    · refine haq.trans (hat.trans ?_)
      change Aqaux.ordered (sd q 6) s.sup.uptime (s.aq (sd q 1)) = _
      simp [Aqaux.ordered]
    · exact haq.trans (hothers hp)
    · rw [State.done_tcm, State.done_out]
      exact hframe

/-- Settles O47: a tick turns the sensors one after another, each leaving the others alone; the caps are minima over the contributions. -/
theorem thermalConduct : Obligations.ThermalConduct := by
  unfold Obligations.ThermalConduct
  exact ⟨thermalTicks, thermalCaps⟩

/-- Settles O48. -/
theorem coolingCommands : Obligations.CoolingCommands := by
  unfold Obligations.CoolingCommands
  exact ⟨thermalCommands, flowAndForce⟩

end Sys2Proof.Machine
end
section
/-! PROOFS. The load-switch commands: orders, records and lock-outs -/

namespace Sys2Proof.Machine

open Sys2Proof

/-! ### One channel changed -/

theorem onCh_ch {n : Nat} {s : State} (f : LChan → LChan) (h : n < s.lsw.chans.length) : (s.onCh n f).ch n = f (s.ch n) :=
  getD_upd_self f _ h

theorem onCh_ch_of_ne {n m : Nat} (h : m ≠ n) (s : State) (f : LChan → LChan) : (s.onCh n f).ch m = s.ch m := getD_upd_of_ne h ..

theorem onCh_length (n : Nat) (f : LChan → LChan) (s : State) : (s.onCh n f).lsw.chans.length = s.lsw.chans.length :=
  upd_length s.lsw.chans n f

theorem ch_of_chans {s t : State} (h : t.lsw.chans = s.lsw.chans) (n : Nat) : t.ch n = s.ch n := by
  rw [State.ch, h]
  rfl

/-- At most channel `n` differs. -/
structure ChStep (n : Nat) (s t : State) : Prop where
  others : ∀ m, m ≠ n → t.ch m = s.ch m
  length : t.lsw.chans.length = s.lsw.chans.length

theorem ChStep.of_chans {n : Nat} {s t : State} (h : t.lsw.chans = s.lsw.chans) : ChStep n s t := ⟨fun m _ => ch_of_chans h m, by rw [h]⟩

theorem ChStep.trans {n : Nat} {s t u : State} (h1 : ChStep n s t) (h2 : ChStep n t u) : ChStep n s u :=
  ⟨fun m hm => (h2.others m hm).trans (h1.others m hm), h2.length.trans h1.length⟩

theorem ChStep.refl (n : Nat) (s : State) : ChStep n s s := ⟨fun _ _ => rfl, rfl⟩

theorem onCh_chStep (n : Nat) (f : LChan → LChan) (s : State) : ChStep n s (s.onCh n f) := ⟨fun _ h => onCh_ch_of_ne h s f, onCh_length n f s⟩

/-! ### The driver -/

theorem driveCh_lsw (n : Nat) (on : Bool) (s : State) : (s.driveCh n on).lsw = s.lsw := by
  unfold State.driveCh
  dsimp only
  split <;> rfl

theorem driveCh_out (n : Nat) (on : Bool) (s : State) : (s.driveCh n on).out = s.out ++ .loadSwitch n on ::
    (if s.lsw.sensed = some n then [.sense (some n) (s.ch n).senseNA] else []) := by
  unfold State.driveCh State.showSense State.senseNow State.emit
  dsimp only
  split
  · next h =>
    have h1 : s.lsw.sensed = some n := h
    simp only [h1, List.append_assoc]
    rfl
  · rfl

theorem driveCh_frame (n : Nat) (on : Bool) (s : State) : s.driveCh n on = { s with out := (s.driveCh n on).out } := by
  unfold State.driveCh
  dsimp only
  split <;> rfl

/-- What the driver shows of a channel switched to a state in which its output is `on`. -/
theorem driven_out {n : Nat} {on : Bool} {f : LChan → LChan} {s : State} (hn : n < s.lsw.chans.length) (h : (f (s.ch n)).outOn = on)
    (hc : (f (s.ch n)).current = (s.ch n).current) : ((s.onCh n f).driveCh n on).out = s.out ++ switchOut n on s := by
  rw [driveCh_out, onCh_ch f hn]
  unfold switchOut LChan.senseNA
  rw [h, hc]
  rfl

/-! ### Turning on and off -/

/-- A channel that starts (R295). -/
def LChan.started (c : LChan) : LChan := { c with st := .inrush, defer := 0 }

theorem turnOn_now {n : Nat} {s : State} (hheld : (s.ch n).held = false) (hsup : s.lsw.supply ≠ 2) (hdefer : s.deferCause n = 0) :
    s.turnOn n = (s.onCh n LChan.started).driveCh n true := by
  unfold State.turnOn
  rw [if_neg (by simp [hheld, hsup])]
  dsimp only
  rw [if_neg (by simp [hdefer])]
  rfl

theorem turnOn_chStep (n : Nat) (s : State) : ChStep n s (s.turnOn n) := by
  unfold State.turnOn
  split
  · exact onCh_chStep ..
  · dsimp only
    split
    · exact onCh_chStep ..
    · exact (onCh_chStep ..).trans (.of_chans (congrArg Lsw.chans (driveCh_lsw ..)))

/-- Nothing defers an on-order with the supply good, the clamp budget kept and fewer than four channels starting (R296). -/
theorem deferCause_zero {n : Nat} {s : State} (hsup : s.lsw.supply = 0)
    (hclamp : (s.conf.chan n).compat = true ∨ (s.ch n).budget + (s.ch n).eLast * 100 ≤ (s.conf.chan n).clampBudget * 1000)
    (hrush : s.lsw.inrushing < 4) : s.deferCause n = 0 := by
  unfold State.deferCause
  dsimp only
  rw [if_neg (by simp [hsup]), if_neg, if_neg (by omega)]
  rintro ⟨-, hcompat, hover⟩
  rcases hclamp with h | h
  · simp [h] at hcompat
  · omega

/-- The channels that start are as many after a change that starts none and ends none. -/
theorem onCh_inrushing {n : Nat} {f : LChan → LChan} {s : State} (h : ∀ c, (f c).st = c.st) : (s.onCh n f).lsw.inrushing = s.lsw.inrushing := by
  change ((upd s.lsw.chans n f).filter _).length = (s.lsw.chans.filter _).length
  unfold upd
  rw [← List.countP_eq_length_filter, ← List.countP_eq_length_filter]
  have hmap : ((s.lsw.chans.modify n f).map LChan.st) = s.lsw.chans.map LChan.st := by
    apply List.ext_getElem?
    intro i
    rw [List.getElem?_map, List.getElem?_map, List.getElem?_modify]
    cases s.lsw.chans[i]? with
    | none => rfl
    | some c =>
      simp only [Option.map_some, Option.some.injEq, Functor.map]
      split
      · exact h c
      · rfl
  have h2 (l : List LChan) : l.countP (fun c => decide (c.st = .inrush)) = (l.map LChan.st).countP (fun x => decide (x = LSt.inrush)) := by
    rw [List.countP_map]
    rfl
  rw [h2, h2, hmap]

theorem clampEnergy_compat {n : Nat} {s : State} (h : (s.conf.chan n).compat = true) : s.clampEnergy n = s := by
  unfold State.clampEnergy
  dsimp only
  rw [if_pos (by simp [h])]

/-- A channel turned off into a state (R297). -/
def LChan.ended (st : LSt) (c : LChan) : LChan := { c with st := st, dApp := 0, defer := 0 }

theorem turnOff_compat {n : Nat} {st : LSt} {s : State} (h : (s.conf.chan n).compat = true) :
    s.turnOff n st = (s.onCh n (LChan.ended st)).driveCh n false := by
  unfold State.turnOff
  have hcfg : ((s.onCh n (LChan.ended st)).driveCh n false).cfg = s.cfg := driveCh_part (π := .cfg) (by simp) ..
  exact clampEnergy_compat ((congrArg (fun c : Option Cfg => ((c.getD Cfg.empty).chan n).compat) hcfg).trans h)

/-! ### Orders -/

/-- A channel with an order recorded. -/
def LChan.ordered (mode duty : Nat) (c : LChan) : LChan := { c with order := mode, duty := duty }

theorem orderCh_eq (n mode duty : Nat) (s : State) : s.orderCh n mode duty = (s.onCh n (LChan.ordered mode duty)).applyOrder n := rfl

theorem applyOrder_off_on {n : Nat} {s : State} (hst : (s.ch n).st = .off) (ho : (s.ch n).order ≠ 0) : s.applyOrder n = s.turnOn n := by
  unfold State.applyOrder
  dsimp only
  simp only [hst]
  exact if_neg ho

theorem applyOrder_off_none {n : Nat} {s : State} (hst : (s.ch n).st = .off) (ho : (s.ch n).order = 0) : s.applyOrder n = s := by
  unfold State.applyOrder
  dsimp only
  simp only [hst]
  exact if_pos ho

theorem applyOrder_lockout {n : Nat} {s : State} (hst : (s.ch n).st = .lockout) : s.applyOrder n = s := by
  unfold State.applyOrder
  dsimp only
  simp only [hst]

theorem applyOrder_running_off {n : Nat} {s : State} (hst : (s.ch n).st = .on ∨ (s.ch n).st = .pwm) (ho : (s.ch n).order = 0) :
    s.applyOrder n = s.turnOff n .off := by
  unfold State.applyOrder
  dsimp only
  rcases hst with hst | hst
  · simp only [hst]
    exact if_pos ho
  · simp only [hst]
    exact if_pos ho

/-- The order of an OFF channel that nothing defers starts it. -/
theorem orderCh_starts {n mode duty : Nat} {s : State} (hn : n < s.lsw.chans.length) (hmode : mode ≠ 0) (hst : (s.ch n).st = .off)
    (hheld : (s.ch n).held = false) (hsup : s.lsw.supply = 0)
    (hclamp : (s.conf.chan n).compat = true ∨ (s.ch n).budget + (s.ch n).eLast * 100 ≤ (s.conf.chan n).clampBudget * 1000)
    (hrush : s.lsw.inrushing < 4) :
    s.orderCh n mode duty = ((s.onCh n (LChan.ordered mode duty)).onCh n LChan.started).driveCh n true := by
  have hch := onCh_ch (LChan.ordered mode duty) hn
  have hinr := onCh_inrushing (n := n) (f := LChan.ordered mode duty) (s := s) (fun _ => rfl)
  rw [orderCh_eq, applyOrder_off_on (by rw [hch]; exact hst) (by rw [hch]; exact hmode), turnOn_now (by rw [hch]; exact hheld) (by change s.lsw.supply ≠ 2; omega)]
  refine deferCause_zero hsup ?_ (by rw [hinr]; exact hrush)
  rw [hch]
  exact hclamp

/-- What the SWITCH commands change. -/
theorem switchParams_ok {q : Sqe} {s : State} (hn : sd q 1 < 24) (hd : sd q 6 = 0 ∨ sd q 6 = 1) :
    ∀ p ∈ switchParams q s, p.1 = true := by
  unfold switchParams
  rcases hd with hd | hd <;> simp [hd, hn, bits]

/-- What the driver shows does not depend on the order recorded. -/
theorem switchOut_onCh {n : Nat} {on : Bool} {f : LChan → LChan} {s : State} (h : ∀ c, (f c).current = c.current) (hn : n < s.lsw.chans.length) :
    switchOut n on (s.onCh n f) = switchOut n on s := by
  unfold switchOut
  rw [onCh_ch f hn, h]
  rfl

theorem driven_frame {n : Nat} {on : Bool} {s t : State} (h : t = { s with lsw := { s.lsw with chans := t.lsw.chans } }) :
    t.driveCh n on = { s with lsw := { s.lsw with chans := (t.driveCh n on).lsw.chans }, out := (t.driveCh n on).out } := by
  refine (driveCh_frame ..).trans ?_
  rw [driveCh_lsw]
  generalize (t.driveCh n on).out = l
  rw [h]

/-- The completion of a command that has changed channels only. -/
theorem chans_done {q : Sqe} {st r : Nat} {s u : State} (h : OwnedAs q.fn q.sq (cidOf q) s)
    (hu : u = { s.start.accept q with lsw := { s.lsw with chans := u.lsw.chans }, out := u.out }) :
    Completed q st r s (u.done q st r) ∧ RingsKept s (u.done q st r) ∧ (u.done q st r).out = u.out ∧ (∀ n, (u.done q st r).ch n = u.ch n) ∧
      u.done q st r = { s with
        hqe := (u.done q st r).hqe, lsw := { s.lsw with chans := (u.done q st r).lsw.chans }, out := (u.done q st r).out, cur := (u.done q st r).cur } := by
  obtain ⟨hc, hr⟩ := done_kept (q := q) (st := st) (r := r) (s1 := u) h (by rw [hu])
  refine ⟨hc, hr, State.done_out .., fun n => ch_of_chans (by rw [State.done_lsw]) n, ?_⟩
  rw [State.done_lsw, State.done_out]
  refine (State.done_frame ..).trans ?_
  rw [hu]
  rfl

theorem switchSet_taken {q : Sqe} {s : State} {P : State → Prop} (h : Taken 0x68 q s) (hn : sd q 1 < 24) (hd : sd q 6 = 0 ∨ sd q 6 = 1)
    (hp : P (switchSet q (s.start.accept q))) : Answers (.switchSet q) s P :=
  answers_taken rfl h (switchParams_ok hn hd) hp

/-- A SWITCH_SET's command word asks for off or on with no duty. -/
theorem switchWord {q : Sqe} (h : sd q 6 = 0 ∨ sd q 6 = 1) : bits (sd q 6) 1 0 = sd q 6 ∧ bits (sd q 6) 25 16 = 0 := by
  rcases h with h | h <;> simp [h, bits]

theorem switchSet_done {q : Sqe} {s : State} (hd : sd q 6 = 0 ∨ sd q 6 = 1) (ho : (s.conf.chan (sd q 1)).owner = 1) (hst : (s.ch (sd q 1)).st ≠ .lockout) :
    switchSet q s = (s.orderCh (sd q 1) (sd q 6) 0).done q stDONE ((s.orderCh (sd q 1) (sd q 6) 0).ch (sd q 1)).st.code := by
  unfold switchSet
  dsimp only
  rw [if_neg (by omega), if_neg hst, (switchWord hd).1, (switchWord hd).2]

theorem switchSet_locked {q : Sqe} {s : State} (hd : sd q 6 = 0 ∨ sd q 6 = 1) (ho : (s.conf.chan (sd q 1)).owner = 1) (hst : (s.ch (sd q 1)).st = .lockout) :
    switchSet q s = (s.orderCh (sd q 1) (sd q 6) 0).done q stDONE_NOTE 6 := by
  unfold switchSet
  dsimp only
  rw [if_neg (by omega), if_pos hst, (switchWord hd).1, (switchWord hd).2]

/-! ### Lock-outs -/

/-- The lock-out's end before the order is taken. -/
def LChan.unlocked (c : LChan) : LChan := { c with st := .off, retries := 0 }

theorem journalCh_lsw (n : Nat) (s : State) : (s.journalCh n).lsw = s.lsw := by
  unfold State.journalCh
  dsimp only
  split <;> rfl

/-- What an on-order makes of a channel: it waits or starts, and keeps its retries. -/
theorem turnOn_ch {n : Nat} {s : State} (hn : n < s.lsw.chans.length) : ((s.turnOn n).ch n).st ≠ .lockout ∧ ((s.turnOn n).ch n).retries = (s.ch n).retries := by
  unfold State.turnOn
  split
  · rw [onCh_ch _ hn]
    exact ⟨by simp, rfl⟩
  · dsimp only
    split
    · rw [onCh_ch _ hn]
      exact ⟨by simp, rfl⟩
    · rw [ch_of_chans (congrArg Lsw.chans (driveCh_lsw ..)), onCh_ch _ hn]
      exact ⟨by simp, rfl⟩

/-- A lock-out ended: the channel takes its recorded order, with no retries. -/
theorem unlockCh_ch {n : Nat} {s : State} (hn : n < s.lsw.chans.length) : ChStep n s (s.unlockCh n) ∧
    ((s.unlockCh n).ch n).st ≠ .lockout ∧ ((s.unlockCh n).ch n).retries = 0 := by
  have hj : ChStep n s ((s.onCh n LChan.unlocked).journalCh n) :=
    (onCh_chStep ..).trans (.of_chans (congrArg Lsw.chans (journalCh_lsw ..)))
  have hch : ((s.onCh n LChan.unlocked).journalCh n).ch n = (s.ch n).unlocked :=
    (ch_of_chans (congrArg Lsw.chans (journalCh_lsw ..)) n).trans (onCh_ch _ hn)
  change ChStep n s (((s.onCh n LChan.unlocked).journalCh n).applyOrder n) ∧ ((((s.onCh n LChan.unlocked).journalCh n).applyOrder n).ch n).st ≠ _ ∧
    ((((s.onCh n LChan.unlocked).journalCh n).applyOrder n).ch n).retries = 0
  by_cases ho : (s.ch n).order = 0
  · rw [applyOrder_off_none (by rw [hch]; rfl) (by rw [hch]; exact ho), hch]
    exact ⟨hj, by simp [LChan.unlocked], rfl⟩
  · rw [applyOrder_off_on (by rw [hch]; rfl) (by rw [hch]; exact ho)]
    obtain ⟨h1, h2⟩ := turnOn_ch (n := n) (s := (s.onCh n LChan.unlocked).journalCh n) (by rw [hj.length]; exact hn)
    exact ⟨hj.trans (turnOn_chStep ..), h1, by rw [h2, hch]; rfl⟩

/-- Lock-outs ended one after another. -/
theorem unlockAll_ch {l : List Nat} {s : State} (hnodup : l.Nodup) (hl : ∀ i ∈ l, i < s.lsw.chans.length) (n : Nat) :
    (n ∈ l → ((l.foldl (fun s i => s.unlockCh i) s).ch n).st ≠ .lockout ∧ ((l.foldl (fun s i => s.unlockCh i) s).ch n).retries = 0) ∧
    (n ∉ l → (l.foldl (fun s i => s.unlockCh i) s).ch n = s.ch n) := by
  induction l generalizing s with
  | nil => exact ⟨fun h => absurd h (by simp), fun _ => rfl⟩
  | cons i l ih =>
    obtain ⟨hi, hnodup⟩ := List.nodup_cons.mp hnodup
    obtain ⟨hstep, h1, h2⟩ := unlockCh_ch (hl i List.mem_cons_self)
    obtain ⟨hin, hout⟩ := ih (s := s.unlockCh i) hnodup (fun j hj => by rw [hstep.length]; exact hl j (List.mem_cons_of_mem _ hj))
    rw [List.foldl_cons]
    refine ⟨fun hn => ?_, fun hn => ?_⟩
    · rcases List.mem_cons.mp hn with rfl | hn
      · rw [hout hi]
        exact ⟨h1, h2⟩
      · exact hin hn
    · rw [List.mem_cons, not_or] at hn
      rw [hout hn.2, hstep.others n hn.1]

theorem journalCh_hqe (n : Nat) (s : State) : (s.journalCh n).hqe = s.hqe := by
  unfold State.journalCh
  dsimp only
  split <;> rfl

theorem turnOn_hqe (n : Nat) (s : State) : (s.turnOn n).hqe = s.hqe := by
  unfold State.turnOn
  split
  · rfl
  · dsimp only
    split
    · rfl
    · rw [driveCh_frame]
      rfl

/-- No queue of the HQE changes with the lock-outs. -/
theorem unlockAll_hqe (l : List Nat) (s : State) : (l.foldl (fun s i => s.unlockCh i) s).hqe = s.hqe := by
  refine foldl_kept (φ := fun u : State => u.hqe) (fun u i => ?_) l s
  have hj : ((u.onCh i LChan.unlocked).journalCh i).hqe = u.hqe := journalCh_hqe ..
  have hst : (((u.onCh i LChan.unlocked).journalCh i).ch i).st = .off := by
    rw [ch_of_chans (congrArg Lsw.chans (journalCh_lsw ..))]
    by_cases hi : i < u.lsw.chans.length
    · rw [onCh_ch _ hi]
      rfl
    · rw [State.ch, List.getD_eq_default _ _ (by rw [onCh_length]; omega)]
      rfl
  change (((u.onCh i LChan.unlocked).journalCh i).applyOrder i).hqe = u.hqe
  by_cases ho : (((u.onCh i LChan.unlocked).journalCh i).ch i).order = 0
  · rw [applyOrder_off_none hst ho, hj]
  · rw [applyOrder_off_on hst ho, turnOn_hqe, hj]

theorem lockoutClear_one {q : Sqe} {s : State} (hn : sd q 1 < 24) (hst : (s.ch (sd q 1)).st = .lockout) (hmay : s.mayUnlock (sd q 1) = true) :
    lockoutClear q s = (s.unlockCh (sd q 1)).done q stDONE 1 := by
  unfold lockoutClear
  dsimp only
  rw [if_neg (by omega), if_neg (by simp [hst]), if_neg (by simp [hmay])]

/-! ### The commands -/

/-- SWITCH_STATUS's record of a channel. -/
theorem switchRecord_fields (n : Nat) (s : State) : (switchRecord n s).length = 16 ∧ u (switchRecord n s) 0 1 = (s.ch n).st.code ∧
    u (switchRecord n s) 2 1 = (s.ch n).cause % 256 ∧ u (switchRecord n s) 3 1 = (s.ch n).retries % 256 ∧
    u (switchRecord n s) 14 1 = (s.ch n).defer % 256 := by
  have hcode : (s.ch n).st.code % 256 = (s.ch n).st.code := by cases (s.ch n).st <;> rfl
  refine ⟨by simp [switchRecord], ?_, ?_, ?_, ?_⟩ <;> simp only [switchRecord, List.append_assoc] <;>
    simp (disch := decide) only [u_le_zero, u_le_skip, Nat.reduceSub]
  · exact hcode
  all_goals rfl

/-- Settles O11: an order changes its own channel and what the driver shows of it; the run over the lock-outs ends each it may. -/
theorem switchCommands : Obligations.SwitchCommands := by
  unfold Obligations.SwitchCommands
  refine ⟨?on, ?off, ?tcm, ?locked, ?status, ?clear, ?clearAll⟩
  case on =>
    intro q s h hn hlen hd ho hst hheld hsup hclamp hrush
    have he := orderCh_starts (n := sd q 1) (mode := sd q 6) (duty := 0) (s := s.start.accept q) hlen (by omega) hst hheld hsup hclamp hrush
    refine switchSet_taken h hn (.inr hd) ?_
    have hnot : ((s.start.accept q).ch (sd q 1)).st ≠ .lockout := by rw [show ((s.start.accept q).ch (sd q 1)).st = .off from hst]; simp
    rw [switchSet_done (s := s.start.accept q) (.inr hd) ho hnot, he]
    have hlen1 : sd q 1 < ((s.start.accept q).onCh (sd q 1) (LChan.ordered (sd q 6) 0)).lsw.chans.length := by rw [onCh_length]; exact hlen
    have hch : ((((s.start.accept q).onCh (sd q 1) (LChan.ordered (sd q 6) 0)).onCh (sd q 1) LChan.started).driveCh (sd q 1) true).ch (sd q 1) =
        ((s.ch (sd q 1)).ordered (sd q 6) 0).started := by
      rw [ch_of_chans (congrArg Lsw.chans (driveCh_lsw ..)), onCh_ch _ hlen1, onCh_ch _ (show sd q 1 < (s.start.accept q).lsw.chans.length from hlen)]
      rfl
    have hstep : ChStep (sd q 1) (s.start.accept q) ((((s.start.accept q).onCh (sd q 1) (LChan.ordered (sd q 6) 0)).onCh (sd q 1) LChan.started).driveCh (sd q 1) true) :=
      ((onCh_chStep ..).trans (onCh_chStep ..)).trans (.of_chans (congrArg Lsw.chans (driveCh_lsw ..)))
    have hout := driven_out (on := true) (f := LChan.started) hlen1 rfl rfl
    rw [switchOut_onCh (f := LChan.ordered (sd q 6) 0) (by exact fun _ => rfl) (show sd q 1 < (s.start.accept q).lsw.chans.length from hlen)] at hout
    obtain ⟨hc, hr, ho, hchans, hframe⟩ := chans_done (st := stDONE) (r := 1) h.2.1 (driven_frame (on := true) (s := s.start.accept q) (t :=
      ((s.start.accept q).onCh (sd q 1) (LChan.ordered (sd q 6) 0)).onCh (sd q 1) LChan.started) (n := sd q 1) rfl)
    rw [hch]
    refine ⟨hc, ho.trans hout, hr, ?_, fun n hn => (hchans n).trans (hstep.others n hn), hframe⟩
    refine (hchans (sd q 1)).trans (hch.trans ?_)
    rw [hd]
    rfl
  case off =>
    intro q s h hn hlen hd ho hcompat hst
    have hl : sd q 1 < (s.start.accept q).lsw.chans.length := hlen
    have hrec := onCh_ch (s := s.start.accept q) (LChan.ordered (sd q 6) 0) hl
    have hlen1 : sd q 1 < ((s.start.accept q).onCh (sd q 1) (LChan.ordered (sd q 6) 0)).lsw.chans.length := by rw [onCh_length]; exact hlen
    have he : (s.start.accept q).orderCh (sd q 1) (sd q 6) 0 =
        (((s.start.accept q).onCh (sd q 1) (LChan.ordered (sd q 6) 0)).onCh (sd q 1) (LChan.ended .off)).driveCh (sd q 1) false := by
      rw [orderCh_eq, applyOrder_running_off (by rw [hrec]; exact hst) (by rw [hrec]; exact hd)]
      exact turnOff_compat hcompat
    refine switchSet_taken h hn (.inl hd) ?_
    have hnot : ((s.start.accept q).ch (sd q 1)).st ≠ .lockout := by
      change (s.ch (sd q 1)).st ≠ .lockout
      rcases hst with h | h <;> simp [h]
    rw [switchSet_done (s := s.start.accept q) (.inl hd) ho hnot, he]
    have hch : ((((s.start.accept q).onCh (sd q 1) (LChan.ordered (sd q 6) 0)).onCh (sd q 1) (LChan.ended .off)).driveCh (sd q 1) false).ch (sd q 1) =
        ((s.ch (sd q 1)).ordered (sd q 6) 0).ended .off := by
      rw [ch_of_chans (congrArg Lsw.chans (driveCh_lsw ..)), onCh_ch _ hlen1, hrec]
      rfl
    have hstep : ChStep (sd q 1) (s.start.accept q) ((((s.start.accept q).onCh (sd q 1) (LChan.ordered (sd q 6) 0)).onCh (sd q 1) (LChan.ended .off)).driveCh (sd q 1) false) :=
      ((onCh_chStep ..).trans (onCh_chStep ..)).trans (.of_chans (congrArg Lsw.chans (driveCh_lsw ..)))
    have hout := driven_out (on := false) (f := LChan.ended .off) hlen1 rfl rfl
    rw [switchOut_onCh (f := LChan.ordered (sd q 6) 0) (by exact fun _ => rfl) hl] at hout
    obtain ⟨hc, hr, ho, hchans, -⟩ := chans_done (st := stDONE) (r := 0) h.2.1 (driven_frame (on := false) (s := s.start.accept q) (t :=
      ((s.start.accept q).onCh (sd q 1) (LChan.ordered (sd q 6) 0)).onCh (sd q 1) (LChan.ended .off)) (n := sd q 1) rfl)
    rw [hch]
    refine ⟨hc, ho.trans hout, hr, ?_, fun n hn => (hchans n).trans (hstep.others n hn)⟩
    refine (hchans (sd q 1)).trans (hch.trans ?_)
    rw [hd]
    rfl
  case tcm =>
    intro q s h hn hd ho
    refine switchSet_taken h hn hd ?_
    have he : switchSet q (s.start.accept q) = (s.start.accept q).done q stBAD_STATE 0 := if_pos ho
    rw [he]
    exact done_onlyCompletes h.2.1
  case locked =>
    intro q s h hn hlen hd ho hst
    have hl : sd q 1 < (s.start.accept q).lsw.chans.length := hlen
    have hrec := onCh_ch (s := s.start.accept q) (LChan.ordered (sd q 6) 0) hl
    refine switchSet_taken h hn hd ?_
    rw [switchSet_locked (s := s.start.accept q) hd ho hst, orderCh_eq, applyOrder_lockout (by rw [hrec]; exact hst)]
    obtain ⟨hc, -, ho, hchans, -⟩ := chans_done (st := stDONE_NOTE) (r := 6) (u := (s.start.accept q).onCh (sd q 1) (LChan.ordered (sd q 6) 0)) h.2.1 rfl
    exact ⟨hc, ho, (hchans _).trans hrec, fun n hn => (hchans n).trans (onCh_ch_of_ne hn ..)⟩
  case status =>
    intro q s n h hb h1 hn hle h16
    subst hb
    refine answers_taken rfl h ?_ ⟨replyDone_readOnly h.2.1, fun c => switchRecord_fields c s⟩
    simp [rangeParams, h1, hn, hle, h16]
  case clear =>
    intro q s h hn hlen
    refine ⟨fun hst hcause ho => answers_taken rfl h (by simp [hn]) ?_, fun hst => answers_taken rfl h (by simp [hn]) ?_,
      fun hst hcause hbudget => answers_taken rfl h (by simp [hn]) ?_⟩
    · have hl : sd q 1 < (s.start.accept q).lsw.chans.length := hlen
      have hch : (((s.start.accept q).onCh (sd q 1) LChan.unlocked).journalCh (sd q 1)).ch (sd q 1) = (s.ch (sd q 1)).unlocked :=
        (ch_of_chans (congrArg Lsw.chans (journalCh_lsw ..)) _).trans (onCh_ch _ hl)
      have he : lockoutClear q (s.start.accept q) = (((s.start.accept q).onCh (sd q 1) LChan.unlocked).journalCh (sd q 1)).done q stDONE 1 := by
        have hmay : s.mayUnlock (sd q 1) = true := by simp [State.mayUnlock, hst, hcause]
        rw [lockoutClear_one (s := s.start.accept q) hn hst hmay]
        change ((((s.start.accept q).onCh (sd q 1) LChan.unlocked).journalCh (sd q 1)).applyOrder (sd q 1)).done q stDONE 1 = _
        rw [applyOrder_off_none (by rw [hch]; rfl) (by rw [hch]; exact ho)]
      rw [he]
      have hj {π : Part} (hp : π ∉ [.sj]) := journalCh_part hp (sd q 1) ((s.start.accept q).onCh (sd q 1) LChan.unlocked)
      obtain ⟨hc, -⟩ := done_kept (q := q) (st := stDONE) (r := 1) (s1 := ((s.start.accept q).onCh (sd q 1) LChan.unlocked).journalCh (sd q 1)) h.2.1
        (journalCh_hqe ..)
      refine ⟨hc, (State.done_out ..).trans (hj (π := .out) (by simp)), ?_, fun n hn => ?_⟩
      · rw [ch_of_chans (congrArg Lsw.chans (State.done_lsw ..)), hch]
        rfl
      · rw [ch_of_chans (congrArg Lsw.chans (State.done_lsw ..)), ch_of_chans (congrArg Lsw.chans (journalCh_lsw ..)), onCh_ch_of_ne hn]
        rfl
    · have he : lockoutClear q (s.start.accept q) = (s.start.accept q).done q stDONE_NOTE 0 := by
        unfold lockoutClear
        dsimp only
        rw [if_neg (by omega)]
        exact if_pos hst
      rw [he]
      exact done_onlyCompletes h.2.1
    · have hmay : (s.start.accept q).mayUnlock (sd q 1) = false := by
        change s.mayUnlock (sd q 1) = false
        simp [State.mayUnlock, hst, hcause, hbudget]
      have he : lockoutClear q (s.start.accept q) = (s.start.accept q).done q stBAD_STATE 0 := by
        unfold lockoutClear
        dsimp only
        rw [if_neg (by omega), hmay]
        exact (if_neg (not_not.mpr hst)).trans (if_pos rfl)
      rw [he]
      exact done_onlyCompletes h.2.1
  case clearAll =>
    intro q s h hall hlen
    refine answers_taken rfl h (by simp [hall]) ?_
    have he : lockoutClear q (s.start.accept q) = (((List.range 24).filter (fun i => s.mayUnlock i)).foldl (fun s i => s.unlockCh i)
        (s.start.accept q)).done q stDONE (((List.range 24).filter (fun i => s.mayUnlock i)).length +
          256 * countOf 24 (fun i => (s.ch i).st = .lockout && !s.mayUnlock i)) := if_pos hall
    rw [he]
    obtain ⟨hc, -⟩ := done_kept (q := q) (st := stDONE) (r := ((List.range 24).filter (fun i => s.mayUnlock i)).length +
          256 * countOf 24 (fun i => (s.ch i).st = .lockout && !s.mayUnlock i)) h.2.1
      (unlockAll_hqe ((List.range 24).filter (fun i => s.mayUnlock i)) (s.start.accept q))
    refine ⟨hc, fun n hn => ?_⟩
    have hrun := unlockAll_ch (l := (List.range 24).filter (fun i => s.mayUnlock i)) (s := s.start.accept q) (List.nodup_range.filter _)
      (fun i hi => by
        rw [show (s.start.accept q).lsw.chans.length = 24 from hlen]
        exact List.mem_range.mp (List.mem_of_mem_filter hi)) n
    rw [ch_of_chans (congrArg Lsw.chans (State.done_lsw ..))]
    refine ⟨fun hm => hrun.1 (by simp [hn, hm]), fun hm => (hrun.2 (by simp [hm])).trans rfl⟩

/-! ### Locks -/

theorem lswEvent_lsw {src sub arg : Nat} {fault : Option (Nat × Nat)} {s : State} (h : s.siteUp = true) : (s.lswEvent src sub arg fault).lsw =
    { s.lsw with lastEvent := some (if src = noSource then 0x1F else src, sub, arg % 256) } := by
  unfold State.lswEvent
  rw [if_neg (by simp [h])]
  cases fault <;> simp

/-- The event of a lock-out while the site island runs (Table 11-9). -/
theorem lockCh_lastEvent {n cause sub arg code : Nat} {s : State} (h : s.siteUp = true) :
    (s.lockCh n cause sub arg code).lsw.lastEvent = some (if n = noSource then 0x1F else n, sub, arg % 256) := by
  unfold State.lockCh
  generalize hu : s.onCh n _ = u
  have hup : u.siteUp = true := by rw [← hu]; exact h
  rw [journalCh_lsw, lswEvent_lsw hup]

theorem retryWaitEnd_locks {n : Nat} {s : State} (hst : (s.ch n).st = .retryWait) (hheld : (s.ch n).held = false) (hruns : s.lswRuns = true)
    (hmax : (s.conf.chan n).retryMax ≤ (s.ch n).retries) : retryWaitEnd n s = s.lockCh n (s.ch n).cause 0x21 (s.ch n).cause 0x0802 := by
  unfold retryWaitEnd
  dsimp only
  rw [if_neg (by simp [hst, hheld, hruns]), if_neg (by omega)]

/-- A channel that waits to be tried again with no retry left. -/
def LChan.spent : LChan := { LChan.reset with st := .retryWait, retries := (Cfg.empty.chan noSource).retryMax }

/-- A site island that runs with a configuration and with so many channels that the last has the number `noSource`. -/
def crowdedState : State :=
  { State.reset with
    cfg := some Cfg.empty
    sup := { State.reset.sup with readyMask := 16 }
    lsw := { State.reset.lsw with chans := List.replicate (noSource + 1) LChan.spent } }

theorem crowdedState_ch : crowdedState.ch noSource = LChan.spent :=
  List.getD_replicate _ (Nat.lt_succ_self noSource)

/-- Refutes O49: nothing bounds the number of channels, and the lock-out of a channel with the number 0xFFFF, the mark of an event
without a source, has an event of source 0x1F. -/
theorem not_switchConduct : ¬ Obligations.SwitchConduct := by
  intro h
  unfold Obligations.SwitchConduct Claim.SwitchProtection at h
  obtain ⟨⟨-, -, -, -, -, -, hlocks, -⟩, -⟩ := h
  have hlen : noSource < crowdedState.lsw.chans.length := by
    change noSource < (List.replicate (noSource + 1) LChan.spent).length
    rw [List.length_replicate]
    exact Nat.lt_succ_self noSource
  have hst : (crowdedState.ch noSource).st = .retryWait := by rw [crowdedState_ch]; rfl
  have hheld : (crowdedState.ch noSource).held = false := by rw [crowdedState_ch]; rfl
  have hmax : (crowdedState.conf.chan noSource).retryMax ≤ (crowdedState.ch noSource).retries := by rw [crowdedState_ch]; exact le_rfl
  have hup : crowdedState.siteUp = true := rfl
  have hruns : crowdedState.lswRuns = true := rfl
  obtain ⟨t, ht, -, hlast, -⟩ := hlocks noSource crowdedState hlen hst hheld hruns hmax
  have he : t = retryWaitEnd noSource crowdedState.start := (Host.Outcome.next.inj ht).symm
  rw [he, retryWaitEnd_locks (s := crowdedState.start) hst hheld hruns hmax, lockCh_lastEvent (s := crowdedState.start) hup, if_pos rfl] at hlast
  simp [noSource] at hlast

end Sys2Proof.Machine
end
section
/-! PROOFS. Tunnelled commands and the SGM commands -/

namespace Sys2Proof.Machine

open Sys2Proof

/-! ### A command in the tunnel (R77, R101, R381) -/

/-- The device with a tunnelled command in the Saggar: session-crossing messages on their way have arrived (R43). -/
def State.entered (q : Sqe) (s : State) : State := (s.start.accept q).onLnk (SgLink.sessionFirst true)

/-- An answer of the Saggar put on its way. -/
def State.sgAnswered (q : Sqe) (a : SgAns) (u : State) : State := u.answer q.sq (cidOf q) a.status a.result (addrOf q) a.buf

theorem sgReach_served {op : Nat} {q : Sqe} {b : List Byte} {ps : List (Bool × Nat × Nat)} {body : State → SgAns × State} {s : State}
    (h : SgTaken op q s) (hp : ∀ p ∈ ps, p.1 = true) : sgReach op q b ps body s.start = (body (s.entered q)).2.sgAnswered q (body (s.entered q)).1 := by
  obtain ⟨⟨hpre, -, harr⟩, hup, hruns, hrest⟩ := h
  have ha : s.start.arrives q = true := (State.arrives_congr q rfl).trans harr
  have hbad := firstBad_eq_none.mpr hp
  simp [sgReach, ha, preCheck_taken, hpre, hup, hruns, hrest, sgServe, hbad, State.sgAnswered, State.entered]

theorem sgReach_unreachable {op : Nat} {q : Sqe} {b : List Byte} {ps : List (Bool × Nat × Nat)} {body : State → SgAns × State} {s : State}
    (h : Taken op q s) (hup : s.lnk.up = false) : sgReach op q b ps body s.start = (s.start.accept q).done q stSAGGAR_UNREACHABLE 0 := by
  obtain ⟨hpre, -, harr⟩ := h
  have ha : s.start.arrives q = true := (State.arrives_congr q rfl).trans harr
  simp [sgReach, ha, preCheck_taken, hpre, hup]

theorem sgReach_waits {op : Nat} {q : Sqe} {b : List Byte} {ps : List (Bool × Nat × Nat)} {body : State → SgAns × State} {s : State}
    (h : Taken op q s) (hup : s.lnk.up = true) (hruns : s.sgm.runs = true) (hrest : s.mss.restarting = true) :
    sgReach op q b ps body s.start = (s.entered q).onMss (fun m => { m with waiting := m.waiting ++ [(q, b)] }) := by
  obtain ⟨hpre, -, harr⟩ := h
  have ha : s.start.arrives q = true := (State.arrives_congr q rfl).trans harr
  simp [sgReach, ha, preCheck_taken, hpre, hup, hruns, hrest, State.entered]

/-- An answer of a Saggar whose work leaves the HQE alone and drives nothing. -/
theorem answered_of {q : Sqe} {a : SgAns} {s u : State} (h : OwnedAs q.fn q.sq (cidOf q) s) (hh : u.hqe = (s.start.accept q).hqe)
    (ho : u.out = []) : SgAnswered q a.status a.result a.buf s (u.sgAnswered q a) := by
  obtain ⟨hothers, hany, -⟩ := s.start.accept_fwd q h
  have he : (u.sgAnswered q a).hqe = { (s.start.accept q).hqe with
      answers := s.hqe.answers ++ [⟨q.sq, cidOf q, a.status, a.result, addrOf q, a.buf⟩] } := by
    unfold State.sgAnswered State.answer State.onHqe
    dsimp only
    rw [hh]
    rfl
  refine ⟨?_, by rw [he]; exact hothers, by rw [he]; rfl, ho⟩
  rw [he]
  simpa using List.any_eq_true.mp hany

/-- A command that the Saggar answers without another effect. -/
theorem onlyAnswers {q : Sqe} {a : SgAns} {s : State} (h : OwnedAs q.fn q.sq (cidOf q) s) :
    SgOnlyAnswers q a.status a.result a.buf s ((s.entered q).sgAnswered q a) := ⟨answered_of h rfl rfl, rfl⟩

/-- A legal answer (R377). -/
theorem legal_answers {q : Sqe} {content : List Byte} {r : Nat} {g : Sgm → Sgm} {s : State} (h : OwnedAs q.fn q.sq (cidOf q) s) :
    SgLegal q r content (g s.sgm) s (((legal q content r (s.entered q)).2.onSgm g).sgAnswered q (legal q content r (s.entered q)).1) :=
  ⟨answered_of h rfl rfl, rfl⟩

theorem waits {q : Sqe} {b : List Byte} {s : State} (h : OwnedAs q.fn q.sq (cidOf q) s) :
    SgWaits q b s ((s.entered q).onMss (fun m => { m with waiting := m.waiting ++ [(q, b)] })) := by
  obtain ⟨h1, h2⟩ := accept_running (t := (s.entered q).onMss (fun m => { m with waiting := m.waiting ++ [(q, b)] })) h rfl
  exact ⟨h1, h2, rfl⟩

section tunnelled
variable {i : Instr} {op : Nat} {q : Sqe} {b : List Byte} {ps : List (Bool × Nat × Nat)} {body : State → SgAns × State} {s : State} {P : State → Prop}

theorem answers_served (he : exec i s = .next (sgReach op q b ps body s.start)) (h : SgTaken op q s) (hp : ∀ p ∈ ps, p.1 = true)
    (ht : P ((body (s.entered q)).2.sgAnswered q (body (s.entered q)).1)) : Answers i s P := ⟨_, he, by rw [sgReach_served h hp]; exact ht⟩

theorem answers_unreachable (he : exec i s = .next (sgReach op q b ps body s.start)) (h : Taken op q s) (hup : s.lnk.up = false) :
    Answers i s (OnlyCompletes q stSAGGAR_UNREACHABLE 0 s) := ⟨_, he, by rw [sgReach_unreachable h hup]; exact done_onlyCompletes h.2.1⟩

theorem answers_waits (he : exec i s = .next (sgReach op q b ps body s.start)) (h : Taken op q s) (hup : s.lnk.up = true)
    (hruns : s.sgm.runs = true) (hrest : s.mss.restarting = true) : Answers i s (SgWaits q b s) :=
  ⟨_, he, by rw [sgReach_waits h hup hruns hrest]; exact waits h.2.1⟩

end tunnelled

/-! ### The SGM commands -/

/-- A signed PULSE_CONFIG's record (Table 12-8). -/
def pulseCfgOf (q : Sqe) (b : List Byte) : PulseCfg :=
  ⟨bit (sd q 6) 2, bits (sd q 6) 1 0, bits (sd q 6) 15 8, bits (sd q 6) 31 24, bits (sd q 6) 17 16, sd q 7, blockCounter b⟩

theorem sigOk_entered {op : Nat} {q r : Sqe} {auth : Bool} {b : List Byte} {s : State} : sigOk op q auth b (s.entered r) = sigOk op q auth b s := rfl

theorem pulseParams_ok {q : Sqe} {b : List Byte} (hb : b.length = 96) (h73 : bits (sd q 6) 7 3 = 0) (h23 : bits (sd q 6) 23 18 = 0)
    (h : bit (sd q 6) 2 = true ∧ bits (sd q 6) 17 16 ≤ 2 ∧ 1 ≤ sd q 7 ∧ sd q 7 ≤ 100000 ∨
      bit (sd q 6) 2 = false ∧ (bits (sd q 6) 15 8 ≤ 0x27 ∨ bits (sd q 6) 15 8 = 0xFF) ∧ 30 ≤ bits (sd q 6) 31 24 ∧
        bits (sd q 6) 31 24 ≤ 250 ∧ 1 ≤ sd q 7 ∧ sd q 7 ≤ 10000000) : ∀ p ∈ pulseParams q b, p.1 = true := by
  unfold pulseParams
  rcases h with ⟨hin, h1, h2, h3⟩ | ⟨hin, h1, h2, h3, h4, h5⟩
  · simp [hb, h73, h23, hin, h1, h2, h3]
  · simp [hb, h73, h23, hin, h1, h2, h3, h4, h5]

/-- Settles O13: the tunnel leads each command to the Saggar, which answers from its registers. -/
theorem measurementCommands : Obligations.MeasurementCommands := by
  unfold Obligations.MeasurementCommands
  refine ⟨?energy, ?instant, ?pulse, ?down, ?restart⟩
  case energy =>
    intro q s ids h hid h1 h64 hlen hids
    refine answers_served rfl h (by simp [regReadParams, hlen, hid, h1, h64]) ⟨?_, ?_⟩
    · subst hids
      exact legal_answers (g := fun g => { g with batRead := g.mode = .battery }) h.1.2.1
    · simp only [regHeader, List.append_assoc]
      simp (disch := decide) only [u_le_zero]
      norm_num
  case instant =>
    intro q s h hlen
    exact answers_served rfl h (by simp [hlen]) (onlyAnswers h.1.2.1)
  case pulse =>
    intro q b s h hb hlen h73 h23 hfields
    have htake : b.take (sd q 4) = b := List.take_of_length_le (by omega)
    have he : exec (.pulseConfig q (.data b)) s = .next (sgReach 0xA2 q b (pulseParams q b) (pulseConfig q b) s.start) := by
      change Host.Outcome.next (sgReach 0xA2 q (b.take (sd q 4)) (pulseParams q (b.take (sd q 4))) (pulseConfig q (b.take (sd q 4))) s.start) = _
      rw [htake]
    refine ⟨answers_served he h (pulseParams_ok hb h73 h23 hfields) fun hsig => ?_, fun hsig => answers_served he h (pulseParams_ok hb h73 h23 hfields) ?_⟩
    · have hbody : pulseConfig q b (s.entered q) = (.plain stDONE 0, ((s.entered q).counted false (blockCounter b)).onSgm
          (fun g => { g with pulseNext := g.pulseNext ++ [pulseCfgOf q b] })) := by
        unfold pulseConfig
        rw [if_neg (by simp [sigOk_entered, hsig])]
        rfl
      rw [hbody]
      exact ⟨answered_of h.1.2.1 rfl rfl, rfl⟩
    · have hbody : pulseConfig q b (s.entered q) = (.plain stSIGNATURE_BAD 0, s.entered q) := by
        unfold pulseConfig
        rw [if_pos (by simp [sigOk_entered, hsig])]
      rw [hbody]
      exact onlyAnswers h.1.2.1
  case down =>
    intro q b s hup
    exact ⟨fun h => answers_unreachable rfl h hup, fun h => answers_unreachable rfl h hup, fun h => answers_unreachable rfl h hup⟩
  case restart =>
    intro q b s hup hruns hrest
    exact ⟨fun h => answers_waits rfl h hup hruns hrest, fun h => answers_waits rfl h hup hruns hrest, fun h => answers_waits rfl h hup hruns hrest⟩

end Sys2Proof.Machine
end
section
/-! PROOFS. A sample of the measurement: what each part of it leaves alone of SGM, ports, pulses and saves -/

namespace Sys2Proof.Machine

open Sys2Proof

/-! ### Slots of Saggar NVM (R55, R336) -/

theorem NvSlot.make_valid {α : Type} (enc : α → List Byte) (seq : Nat) (v : α) : NvSlot.valid enc (NvSlot.make enc seq v) = true := by
  simp [NvSlot.valid, NvSlot.make]

/-- What is written to a slot pair is its newest copy. -/
theorem nvNewest_nvPut {α : Type} (enc : α → List Byte) (v : α) (p : Option (NvSlot α) × Option (NvSlot α)) :
    ∃ x, nvNewest enc (nvPut enc v p) = some x ∧ x.2.content = v := by
  unfold nvPut
  rcases nvNewest enc p with _ | ⟨_ | _, a⟩ <;> simp [nvNewest, Option.filter, NvSlot.make_valid] <;> rfl

theorem newest_of_saves {g : Sgm} {v : Save} {p : Option (NvSlot Save) × Option (NvSlot Save)} (h : g.saves = nvPut Save.bytes v p) :
    ∃ x, g.newest = some x ∧ x.2 = v := by
  obtain ⟨x, hx, hv⟩ := nvNewest_nvPut Save.bytes v p
  refine ⟨(x.2.seq, x.2.content), ?_, hv⟩
  unfold Sgm.newest
  rw [h, hx]
  rfl

/-! ### What the parts of a sample boundary leave alone of SGM -/

theorem part_sgm {s t : State} (h : part .sgm t = part .sgm s) : t.sgm = s.sgm := h

/-- A calibration set that waits taken over (R315). -/
def Sgm.calSet (g : Sgm) : Sgm :=
  match g.calNext with
  | none => g
  | some c => { g with cal := c, calNext := none }

/-- Each session may have its CREDIT of this boundary (R371). -/
def State.unsaid (s : State) : State := s.onBte (fun b => { b with sess := b.sess.map (fun x => { x with said := false }) })

theorem boundaryStart_eq (s : State) : s.boundaryStart =
    (if (s.unsaid.onSgm Sgm.calSet).sgm.block.n = 0 then (s.unsaid.onSgm Sgm.calSet).acBoundary else s.unsaid.onSgm Sgm.calSet).pulseCfgs := by
  have h : (match s.unsaid.sgm.calNext with
      | none => s.unsaid
      | some c => s.unsaid.onSgm (fun g => { g with cal := c, calNext := none })) = s.unsaid.onSgm Sgm.calSet := by
    unfold State.onSgm Sgm.calSet
    cases s.unsaid.sgm.calNext <;> rfl
  rw [← h]
  rfl

section kept
variable {α : Type} {φ : Sgm → α}

theorem gapDone_sgm (h : ∀ g a b, φ { g with saveGap := a, gapFrom := b } = φ g) (s : State) : φ s.gapDone.sgm = φ s.sgm := by
  unfold State.gapDone
  split
  · dsimp only
    have hlog (d : List Byte) : (s.log 0x15 2 d 0 true).sgm = s.sgm := part_sgm (log_part (by simp) ..)
    change φ { (s.log 0x15 2 _ 0 true).sgm with saveGap := false, gapFrom := none } = _
    rw [hlog, h]
  · rfl

theorem applyStep_sgm (h : ∀ g a b, φ { g with saveGap := a, gapFrom := b } = φ g) (st : ClockStep) (s : State) : φ (s.applyStep st).sgm = φ s.sgm := by
  unfold State.applyStep
  dsimp only
  split
  · rw [gapDone_sgm h]
    exact congrArg φ (part_sgm (by simp))
  · (repeat' split) <;> exact congrArg φ (part_sgm (by simp))

theorem takeStep_sgm (h : ∀ g a b, φ { g with saveGap := a, gapFrom := b } = φ g) (st : ClockStep) (s : State) : φ (s.takeStep st).sgm = φ s.sgm := by
  unfold State.takeStep
  dsimp only
  have happly := applyStep_sgm h st s
  split
  · split
    · exact (congrArg φ (part_sgm (evalPeriod_part (by simp) ..))).trans happly
    · exact happly
  · exact happly

theorem clockStep_sgm (h : ∀ g a b, φ { g with saveGap := a, gapFrom := b } = φ g) (s : State) : φ s.clockStep.sgm = φ s.sgm :=
  foldl_kept (φ := fun u : State => φ u.sgm) (fun u st => takeStep_sgm h st u) _ _

theorem boundaryEnd_sgm (h1 : ∀ g a b, φ { g with saveGap := a, gapFrom := b } = φ g) (h2 : ∀ g a b, φ { g with sramCrc := a, boundAt := b } = φ g) (s : State) :
    φ s.boundaryEnd.sgm = φ s.sgm := by
  unfold State.boundaryEnd
  dsimp only
  refine (h2 (if s.mss.restarting then s else s.creditEval.clockStep).sgm _ _).trans ?_
  split
  · rfl
  · exact (clockStep_sgm h1 _).trans (congrArg φ (part_sgm (creditEval_part (by simp) s)))

theorem acBoundary_sgm (s : State) : s.acBoundary.sgm = { s.sgm with calAc := s.sgm.cal } := by
  unfold State.acBoundary
  dsimp only
  split <;> rfl

theorem pulseApply_sgm (h : ∀ g a b, φ { g with pulses := a, s0 := b } = φ g) (c : PulseCfg) (s : State) : φ (s.pulseApply c).sgm = φ s.sgm := by
  unfold State.pulseApply
  split
  · exact (congrArg φ (part_sgm (log_part (by simp) ..))).trans (h s.sgm _ _)
  · dsimp only
    exact (congrArg φ (part_sgm (log_part (by simp) ..))).trans (h s.sgm _ _)

theorem pulseCfgs_sgm (h1 : ∀ g a b, φ { g with pulses := a, s0 := b } = φ g) (h2 : ∀ g a, φ { g with pulseNext := a } = φ g) (s : State) :
    φ s.pulseCfgs.sgm = φ s.sgm :=
  (foldl_kept (φ := fun u : State => φ u.sgm) (fun u c => pulseApply_sgm h1 c u) _ _).trans (h2 s.sgm _)

theorem boundaryStart_sgm (h1 : ∀ g a b, φ { g with pulses := a, s0 := b } = φ g) (h2 : ∀ g a, φ { g with pulseNext := a } = φ g)
    (h3 : ∀ g a b c, φ { g with cal := a, calNext := b, calAc := c } = φ g) (s : State) : φ s.boundaryStart.sgm = φ s.sgm := by
  have hset (g : Sgm) : φ g.calSet = φ g := by
    unfold Sgm.calSet
    cases g.calNext with
    | none => rfl
    | some c => exact h3 g _ _ _
  rw [boundaryStart_eq, pulseCfgs_sgm h1 h2]
  split
  · rw [acBoundary_sgm]
    exact (h3 s.sgm.calSet s.sgm.calSet.cal s.sgm.calSet.calNext s.sgm.calSet.cal).trans (hset _)
  · exact hset _

theorem setFault_sgm (h : ∀ g a b, φ { g with faults := a, lastEvent := b } = φ g) (c cause : Nat) (s : State) : φ (s.setFault c cause).sgm = φ s.sgm := by
  unfold State.setFault
  dsimp only
  split
  · rfl
  · exact (congrArg φ (part_sgm (creditEval_part (by simp) _))).trans (h s.sgm _ _)

theorem channelFault_sgm (h : ∀ g a b, φ { g with faults := a, lastEvent := b } = φ g) (c cause : Nat) (s : State) : φ (channelFault c cause s).sgm = φ s.sgm := by
  unfold channelFault
  dsimp only
  split
  · exact setFault_sgm h ..
  · rfl

theorem channelClear_sgm (h : ∀ g a b, φ { g with faults := a, lastEvent := b } = φ g) (c : Nat) (s : State) : φ (channelClear c s).sgm = φ s.sgm := by
  unfold channelClear
  split
  · exact setFault_sgm h ..
  · rfl

end kept

/-! ### Registers -/

theorem bump_eq (id amount unit scale : Nat) (g : Sgm) : (bump id amount unit scale g).1 =
    { g with res := g.res.set id ((g.res.getD id 0 + amount) % unit), acc := upd g.acc id (· + (g.res.getD id 0 + amount) / unit * scale) } := rfl

theorem bump_acc {id amount unit scale : Nat} {g : Sgm} (h : id < g.acc.length) :
    (bump id amount unit scale g).1.acc.getD id 0 = g.acc.getD id 0 + (g.res.getD id 0 + amount) / unit * scale := getD_upd_self _ _ h

theorem bump_res {id amount unit scale : Nat} {g : Sgm} (h : id < g.res.length) :
    (bump id amount unit scale g).1.res.getD id 0 = (g.res.getD id 0 + amount) % unit := by
  rw [bump_eq]
  simp [h]

theorem bump_of_ne {id i : Nat} (h : i ≠ id) (amount unit scale : Nat) (g : Sgm) :
    (bump id amount unit scale g).1.acc.getD i 0 = g.acc.getD i 0 ∧ (bump id amount unit scale g).1.res.getD i 0 = g.res.getD i 0 := by
  refine ⟨getD_upd_of_ne h .., ?_⟩
  rw [bump_eq]
  simp [Ne.symm h]

theorem bump_length (id amount unit scale : Nat) (g : Sgm) : (bump id amount unit scale g).1.acc.length = g.acc.length ∧
    (bump id amount unit scale g).1.res.length = g.res.length := ⟨upd_length .., List.length_set⟩

theorem bumpReg_sgm (id amount : Nat) (s : State) : (s.bumpReg id amount).sgm = (bump id amount energyUnit 1 s.sgm).1 :=
  part_sgm (carry_part (by simp) ..)

/-- One sample of port `n` in the registers (R318). -/
def Sgm.sampled (xs : List Int) (n : Nat) (g : Sgm) : Sgm :=
  if !g.measures n || decide ((xs.getD (16 + n) 0).natAbs < calStart g.cal (16 + n)) then g
  else if 0 ≤ xs.getD n 0 * xs.getD (16 + n) 0 then (bump n (xs.getD n 0 * xs.getD (16 + n) 0).toNat energyUnit 1 g).1
  else (bump (16 + n) (xs.getD n 0 * xs.getD (16 + n) 0).natAbs energyUnit 1 g).1

theorem dcSample_sgm (xs : List Int) (n : Nat) (s : State) : (s.dcSample xs n).sgm = s.sgm.sampled xs n := by
  unfold State.dcSample Sgm.sampled
  dsimp only
  split
  · rfl
  · split <;> exact bumpReg_sgm ..

/-- The ports' samples in the registers. -/
def Sgm.samples (xs : List Int) (g : Sgm) : Sgm := (List.range 16).foldl (fun g n => g.sampled xs n) g

theorem dcSamples_sgm (xs : List Int) (s : State) : (s.dcSamples xs).sgm = s.sgm.samples xs := by
  unfold State.dcSamples Sgm.samples
  generalize List.range 16 = l
  induction l generalizing s with
  | nil => rfl
  | cons n l ih => rw [List.foldl_cons, List.foldl_cons, ih, dcSample_sgm]

theorem sampled_kept {α : Type} {φ : Sgm → α} (h : ∀ g a r, φ { g with acc := a, res := r } = φ g) (xs : List Int) (n : Nat) (g : Sgm) :
    φ (g.sampled xs n) = φ g := by
  unfold Sgm.sampled
  split
  · rfl
  · split <;> exact h g _ _

theorem samples_kept {α : Type} {φ : Sgm → α} (h : ∀ g a r, φ { g with acc := a, res := r } = φ g) (xs : List Int) (g : Sgm) : φ (g.samples xs) = φ g :=
  foldl_kept (fun g n => sampled_kept h xs n g) _ _

theorem sampled_length (xs : List Int) (n : Nat) (g : Sgm) : (g.sampled xs n).acc.length = g.acc.length ∧ (g.sampled xs n).res.length = g.res.length := by
  unfold Sgm.sampled
  split
  · exact ⟨rfl, rfl⟩
  · split <;> exact bump_length ..

theorem sampled_of_ne {xs : List Int} {n i : Nat} (h1 : i ≠ n) (h2 : i ≠ 16 + n) (g : Sgm) :
    (g.sampled xs n).acc.getD i 0 = g.acc.getD i 0 ∧ (g.sampled xs n).res.getD i 0 = g.res.getD i 0 := by
  unfold Sgm.sampled
  split
  · exact ⟨rfl, rfl⟩
  · split
    · exact bump_of_ne h1 ..
    · exact bump_of_ne h2 ..

theorem sampled_portSampled {xs : List Int} {n : Nat} {g : Sgm} (hn : n < 16) (ha : g.acc.length = 64) (hr : g.res.length = 64) :
    PortSampled n (xs.getD n 0) (xs.getD (16 + n) 0) g (g.sampled xs n) := by
  generalize hv : xs.getD n 0 = v
  generalize hi : xs.getD (16 + n) 0 = i
  have he : g.sampled xs n = if !g.measures n || decide (i.natAbs < calStart g.cal (16 + n)) then g
      else if 0 ≤ v * i then (bump n (v * i).toNat energyUnit 1 g).1 else (bump (16 + n) (v * i).natAbs energyUnit 1 g).1 := by
    rw [← hv, ← hi]
    rfl
  rw [he]
  refine ⟨fun hm hs hp => ?_, fun hm hs hp => ?_, fun h => ?_⟩
  · rw [if_neg (by simp [hm]; omega), if_pos hp]
    obtain ⟨h1, h2⟩ := bump_of_ne (show 16 + n ≠ n by omega) (v * i).toNat energyUnit 1 g
    exact ⟨by rw [bump_acc (by omega), Nat.mul_one]; rfl, bump_res (by omega), h1, h2⟩
  · rw [if_neg (by simp [hm]; omega), if_neg (by omega)]
    obtain ⟨h1, h2⟩ := bump_of_ne (show n ≠ 16 + n by omega) (v * i).natAbs energyUnit 1 g
    exact ⟨by rw [bump_acc (by omega), Nat.mul_one]; rfl, bump_res (by omega), h1, h2⟩
  · rw [if_pos (by rcases h with h | h <;> simp [h])]
    exact ⟨rfl, rfl, rfl, rfl⟩

/-- `foldl_range_at` where the other turns are bounded too. -/
theorem foldl_range_lt {σ : Type} {f : σ → Nat → σ} {P Q : σ → Prop} {N n : Nat} (hn : n < N) (hbefore : ∀ u i, i < N → i ≠ n → P u → P (f u i))
    (hat : ∀ u, P u → Q (f u n)) (hafter : ∀ u i, i < N → i ≠ n → Q u → Q (f u i)) {s : σ} (h : P s) : Q ((List.range N).foldl f s) := by
  rw [List.foldl_ext (g := fun u i => if i < N then f u i else u) (H := fun u i hi => (if_pos (List.mem_range.mp hi)).symm)]
  refine foldl_range_at (f := fun u i => if i < N then f u i else u) (P := P) hn (fun u i hi hu => ?_) (fun u hu => ?_) (fun u i hi hu => ?_) h
  · split
    · next h => exact hbefore u i h hi hu
    · exact hu
  · rw [if_pos hn]
    exact hat u hu
  · split
    · next h => exact hafter u i h hi hu
    · exact hu

/-- What a port's sample reads and changes of the registers. -/
def PortRegs (n : Nat) (g u : Sgm) : Prop :=
  u.acc.getD n 0 = g.acc.getD n 0 ∧ u.acc.getD (16 + n) 0 = g.acc.getD (16 + n) 0 ∧ u.res.getD n 0 = g.res.getD n 0 ∧
    u.res.getD (16 + n) 0 = g.res.getD (16 + n) 0

theorem PortSampled.congr {n : Nat} {v i : Int} {g g' u u' : Sgm} (h : PortSampled n v i g u) (hcal : g.cal = g'.cal) (hm : g.measures n = g'.measures n)
    (hg : PortRegs n g' g) (hu : PortRegs n u u') : PortSampled n v i g' u' := by
  obtain ⟨g1, g2, g3, g4⟩ := hg
  obtain ⟨u1, u2, u3, u4⟩ := hu
  unfold PortSampled at h ⊢
  rw [hcal, hm, g1, g2, g3, g4] at h
  rw [u1, u2, u3, u4]
  exact h

/-- A sample of another port leaves a port's registers alone. -/
theorem sampled_portRegs {xs : List Int} {n i : Nat} (hn : n < 16) (hi : i < 16) (h : i ≠ n) (g : Sgm) : PortRegs n g (g.sampled xs i) := by
  obtain ⟨h1, h2⟩ := sampled_of_ne (xs := xs) (n := i) (i := n) (Ne.symm h) (by omega) g
  obtain ⟨h3, h4⟩ := sampled_of_ne (xs := xs) (n := i) (i := 16 + n) (by omega) (by omega) g
  exact ⟨h1, h3, h2, h4⟩

theorem PortRegs.trans {n : Nat} {g u w : Sgm} (h1 : PortRegs n g u) (h2 : PortRegs n u w) : PortRegs n g w := by
  obtain ⟨a1, a2, a3, a4⟩ := h1
  obtain ⟨b1, b2, b3, b4⟩ := h2
  exact ⟨b1.trans a1, b2.trans a2, b3.trans a3, b4.trans a4⟩

theorem samples_portSampled {xs : List Int} {n : Nat} {g : Sgm} (hn : n < 16) (ha : g.acc.length = 64) (hr : g.res.length = 64) :
    PortSampled n (xs.getD n 0) (xs.getD (16 + n) 0) g (g.samples xs) := by
  refine foldl_range_lt (f := fun (g : Sgm) n => g.sampled xs n)
    (P := fun u => u.cal = g.cal ∧ u.measures n = g.measures n ∧ PortRegs n g u ∧ u.acc.length = 64 ∧ u.res.length = 64)
    (Q := fun u => PortSampled n (xs.getD n 0) (xs.getD (16 + n) 0) g u) hn ?_ ?_ ?_ ⟨rfl, rfl, ⟨rfl, rfl, rfl, rfl⟩, ha, hr⟩
  · rintro u i hi hne ⟨hcal, hm, hregs, hla, hlr⟩
    obtain ⟨h1, h2⟩ := sampled_length xs i u
    exact ⟨(sampled_kept (φ := Sgm.cal) (by exact fun _ _ _ => rfl) xs i u).trans hcal,
      (sampled_kept (φ := fun g => g.measures n) (by exact fun _ _ _ => rfl) xs i u).trans hm,
      hregs.trans (sampled_portRegs hn hi hne u), h1.trans hla, h2.trans hlr⟩
  · rintro u ⟨hcal, hm, hregs, hla, hlr⟩
    exact (sampled_portSampled hn hla hlr).congr hcal hm hregs ⟨rfl, rfl, rfl, rfl⟩
  · intro u i hi hne h
    exact h.congr rfl rfl ⟨rfl, rfl, rfl, rfl⟩ (sampled_portRegs hn hi hne u)

/-! ### Pins driven -/

theorem prefix_of_out {s t : State} (h : part .out t = part .out s) : s.out <+: t.out := by
  rw [show t.out = s.out from h]

theorem pf1Event_prefix (vec sub arg src : Nat) (s : State) : s.out <+: (s.pf1Event vec sub arg src).out := by
  unfold State.pf1Event
  split
  · exact postEvent_prefix ..
  · exact List.prefix_rfl

theorem bteEvent_prefix (vec sub arg src : Nat) (s : State) : s.out <+: (s.bteEvent vec sub arg src).out := pf1Event_prefix (s := s.onBte _) ..

theorem ite_prefix {c : Prop} [Decidable c] {s t u : State} (h1 : s.out <+: t.out) (h2 : s.out <+: u.out) : s.out <+: (if c then t else u).out := by
  split
  · exact h1
  · exact h2

theorem log_prefix (kind source : Nat) (data : List Byte) (counter : Nat) (done : Bool) (s : State) : s.out <+: (s.log kind source data counter done).out := by
  unfold State.log
  dsimp only
  refine ite_prefix (ite_prefix ?_ List.prefix_rfl) List.prefix_rfl
  exact pf1Event_prefix (s := State.onMss _ (State.onMss _ s)) ..

theorem evalSess_prefix (x : BteSess) (s : State) : s.out <+: (s.evalSess x).out := by
  unfold State.evalSess
  dsimp only
  refine ite_prefix List.prefix_rfl ?_
  change s.out <+: (if _ then State.bteEvent _ _ _ _ (if _ then s.sendCredit _ _ else s) else (if _ then s.sendCredit _ _ else s)).out
  have h1 {c : Prop} [Decidable c] {n st : Nat} : s.out <+: (if c then s.sendCredit n st else s).out := ite_prefix List.prefix_rfl List.prefix_rfl
  exact ite_prefix (h1.trans (bteEvent_prefix ..)) h1

theorem foldl_prefix {α : Type} {f : State → α → State} (h : ∀ s x, s.out <+: (f s x).out) (l : List α) (s : State) : s.out <+: (l.foldl f s).out :=
  foldl_rel (R := fun s t : State => s.out <+: t.out) (fun _ => List.prefix_rfl) (fun _ _ _ h1 h2 => h1.trans h2) h l s

theorem creditEval_prefix (s : State) : s.out <+: s.creditEval.out := by
  unfold State.creditEval
  split
  · exact List.prefix_rfl
  · exact foldl_prefix (fun s x => evalSess_prefix x s) _ _

theorem gapDone_prefix (s : State) : s.out <+: s.gapDone.out := by
  unfold State.gapDone
  split
  · exact log_prefix ..
  · exact List.prefix_rfl

theorem applyStep_prefix (st : ClockStep) (s : State) : s.out <+: (s.applyStep st).out := by
  unfold State.applyStep
  dsimp only
  split
  · refine List.IsPrefix.trans ?_ (gapDone_prefix _)
    exact prefix_of_out (by simp)
  · (repeat' split) <;> exact prefix_of_out (by simp)

theorem evalPeriod_prefix (c : Calendar) (date : Nat) (s : State) : s.out <+: (s.evalPeriod c date).out := by
  unfold State.evalPeriod
  split
  · exact List.prefix_rfl
  · dsimp only
    split
    · unfold State.closePeriod
      refine List.IsPrefix.trans ?_ (bteEvent_prefix ..)
      exact prefix_of_out (by simp)
    · exact List.prefix_rfl

theorem takeStep_prefix (st : ClockStep) (s : State) : s.out <+: (s.takeStep st).out := by
  have happly := applyStep_prefix st s
  unfold State.takeStep
  dsimp only
  split
  · split
    · exact happly.trans (evalPeriod_prefix ..)
    · exact happly
  · exact happly

theorem boundaryEnd_prefix (s : State) : s.out <+: s.boundaryEnd.out := by
  unfold State.boundaryEnd
  dsimp only
  split
  · exact List.prefix_rfl
  · exact (creditEval_prefix s).trans (foldl_prefix (fun s x => takeStep_prefix x s) _ (s.creditEval.onBte _))

/-! ### Pulse outputs (R327) -/

theorem pulseSample_sgm {α : Type} {φ : Sgm → α} (h : ∀ g a, φ { g with pulses := a } = φ g) (k : Nat) (s : State) : φ (s.pulseSample k).sgm = φ s.sgm := by
  unfold State.pulseSample
  dsimp only
  split
  · exact h s.sgm _
  · exact h s.sgm _
  · split <;> exact h s.sgm _

theorem pulseSample_prefix (k : Nat) (s : State) : s.out <+: (s.pulseSample k).out := by
  unfold State.pulseSample State.emit
  dsimp only
  split
  · exact List.prefix_rfl
  · exact List.prefix_append ..
  · split
    · exact List.prefix_append ..
    · exact List.prefix_rfl

/-- Another output's turn leaves an output's record alone. -/
theorem pulseSample_of_ne {j k : Nat} (h : k ≠ j) (s : State) : (s.pulseSample j).sgm.pulses.getD k Pulse.reset = s.sgm.pulses.getD k Pulse.reset := by
  unfold State.pulseSample
  dsimp only
  split
  · exact getD_upd_of_ne h ..
  · exact getD_upd_of_ne h ..
  · split <;> exact getD_upd_of_ne h ..

/-- A due pulse starts at an output that has been inactive for its width. -/
theorem pulseSample_starts {k : Nat} {s : State} {p : Pulse} (hk : k < s.sgm.pulses.length) (hp : s.sgm.pulses.getD k Pulse.reset = p)
    (hidle : p.active = none) (hsrc : p.src ≠ 0xFF) (hw : p.width * 8 ≤ p.idle) (hdue : 0 < p.owed ∨ p.sent < p.due (s.sgm.acc.getD p.src 0)) :
    .pulse k true ∈ (s.pulseSample k).out ∧ ((s.pulseSample k).sgm.pulses.getD k Pulse.reset).active = some (p.width * 8) := by
  have he : s.pulseSample k = (s.onSgm (fun g => { g with pulses := upd g.pulses k (fun p => { p with active := some (p.width * 8), idle := 0, counted := false }) })).emit
      (.pulse k true) := by
    unfold State.pulseSample
    dsimp only
    rw [hp, hidle]
    exact if_pos ⟨hsrc, hw, hdue⟩
  rw [he]
  refine ⟨by simp [State.emit], ?_⟩
  change ((upd s.sgm.pulses k _).getD k Pulse.reset).active = _
  rw [getD_upd_self _ _ hk, hp]

/-! ### Saves -/

theorem saveDone_some {s : State} {v : Save} (h : s.sgm.saving = some v) :
    s.saveDone.sgm = { s.sgm with saving := none, saves := nvPut Save.bytes v s.sgm.saves, lastSave := some (v.kind, s.bte.up) } := by
  unfold State.saveDone
  rw [h]
  rfl

theorem saveDone_none {s : State} (h : s.sgm.saving = none) : s.saveDone = s := by
  unfold State.saveDone
  rw [h]

theorem saveDone_sgm {α : Type} {φ : Sgm → α} (h : ∀ g a b c, φ { g with saving := a, saves := b, lastSave := c } = φ g) (s : State) :
    φ s.saveDone.sgm = φ s.sgm := by
  cases hs : s.sgm.saving with
  | none => rw [saveDone_none hs]
  | some v =>
    rw [saveDone_some hs]
    exact h s.sgm _ _ _

/-! ### The block's end (R320 to R322) -/

/-- freq_fault of a block's end (R321). -/
def Sgm.blockFf (g : Sgm) (free : Nat) : Bool :=
  decide (g.block.cross < 10) || decide (freqOf g.block.cross free < 4500) || decide (6500 < freqOf g.block.cross free)

/-- The block's reactive sum. -/
def Sgm.blockQ (g : Sgm) (free : Nat) : Int := if g.blockFf free then 0 else sumI g.block.q

/-- The block's apparent sum. -/
def Sgm.blockS (g : Sgm) (free : Nat) : Nat := isqrtNear ((g.block.p * g.block.p + g.blockQ free * g.blockQ free).toNat)

/-- Every phase is below its starting current. -/
def Sgm.blockIdle (g : Sgm) : Bool :=
  [32, 33, 34].all (fun c => decide (g.block.sq.getD c 0 < calStart g.calAc c * calStart g.calAc c * g.block.n))

/-- The block's record, and a new block. -/
def Sgm.blockShown (time free : Nat) (g : Sgm) : Sgm :=
  let shown := if g.blockFf free then 0 else satU16 (freqOf g.block.cross free)
  let nt := neutralStep g.block g
  { g with
    freq := shown, line := if g.block.cross < 2 then g.line else freqOf g.block.cross free, freqFault := g.blockFf free
    neutral := nt.1, neutralRun := nt.2
    inst := instRecord time shown (b2n g.acFault + 2 * b2n (g.blockFf free) + 4 * b2n nt.1) g.block g.block.q (g.blockQ free) (g.blockS free)
    block := { Block.empty with neg := g.block.neg }
    sec := { g.sec with gq := g.sec.gq + g.blockQ free, qn := g.sec.qn + g.block.n } }

/-- The block's sums in the registers. -/
def State.blockBumps (p q : Int) (a : Nat) (s : State) : State :=
  ((s.bumpReg (quadrant p q).1 p.natAbs).bumpReg (quadrant p q).2.1 q.natAbs).bumpReg (quadrant p q).2.2 a

/-- The device with a block shown. -/
def State.blockShown (s : State) : State := s.took.onSgm (Sgm.blockShown s.bte.lTime s.free)

theorem blockEnd_eq {s : State} (hm : s.sgm.mode = .normal) (hn : s.sgm.block.n = 1600) : blockEnd s =
    (if s.sgm.blockIdle || s.sgm.acFault then s.blockShown
      else s.blockShown.blockBumps s.sgm.block.p (s.sgm.blockQ s.free) (s.sgm.blockS s.free)).acBoundary := by
  unfold blockEnd
  dsimp only
  rw [if_neg (by simp [hm, hn])]
  rfl

theorem blockEnd_none {s : State} (h : s.sgm.mode ≠ .normal ∨ s.sgm.block.n ≠ 1600) : blockEnd s = s := if_pos h

end Sys2Proof.Machine
end
section
/-! PROOFS. The energy of a sample -/

namespace Sys2Proof.Machine

open Sys2Proof

/-! ### What fell due -/

section kept
variable {α : Type} {φ : Sgm → α}

theorem bumpReg_kept (h : ∀ g a r, φ { g with acc := a, res := r } = φ g) (id amount : Nat) (s : State) : φ (s.bumpReg id amount).sgm = φ s.sgm := by
  rw [bumpReg_sgm]
  exact h s.sgm _ _

theorem blockBumps_kept (h : ∀ g a r, φ { g with acc := a, res := r } = φ g) (p q : Int) (a : Nat) (s : State) : φ (s.blockBumps p q a).sgm = φ s.sgm :=
  (bumpReg_kept h ..).trans ((bumpReg_kept h ..).trans (bumpReg_kept h ..))

theorem blockEnd_sgm (h1 : ∀ g a r, φ { g with acc := a, res := r } = φ g) (h2 : ∀ time free g, φ (Sgm.blockShown time free g) = φ g)
    (h3 : ∀ g a, φ { g with calAc := a } = φ g) (s : State) : φ (blockEnd s).sgm = φ s.sgm := by
  by_cases h : s.sgm.mode ≠ .normal ∨ s.sgm.block.n ≠ 1600
  · rw [blockEnd_none h]
  · rw [not_or, not_not, not_not] at h
    rw [blockEnd_eq h.1 h.2, acBoundary_sgm, h3]
    split
    · exact h2 ..
    · exact (blockBumps_kept h1 ..).trans (h2 ..)

theorem channelsDue_sgm (h : ∀ g a b, φ { g with faults := a, lastEvent := b } = φ g) (l : List Nat) (s : State) :
    φ (l.foldl (fun s c => channelClear c (channelFault c 2 (channelFault c 1 s))) s).sgm = φ s.sgm :=
  foldl_kept (φ := fun u : State => φ u.sgm)
    (fun _ c => (channelClear_sgm h c _).trans ((channelFault_sgm h c 2 _).trans (channelFault_sgm h c 1 _))) l s

theorem sgmDue_sgm (h1 : ∀ g a r, φ { g with acc := a, res := r } = φ g) (h2 : ∀ time free g, φ (Sgm.blockShown time free g) = φ g)
    (h3 : ∀ g a, φ { g with calAc := a } = φ g) (h4 : ∀ g a b, φ { g with faults := a, lastEvent := b } = φ g) (s : State) :
    φ s.sgmDue.sgm = φ s.saveDone.sgm := (channelsDue_sgm h4 ..).trans (blockEnd_sgm h1 h2 h3 _)

end kept

theorem setFault_prefix (c cause : Nat) (s : State) : s.out <+: (s.setFault c cause).out := by
  unfold State.setFault
  dsimp only
  split
  · exact List.prefix_rfl
  · exact creditEval_prefix (s.onSgm _)

theorem channelFault_idle {c cause : Nat} {s : State} (h : s.sgm.mode ≠ .normal) : channelFault c cause s = s := if_neg (fun hc => h hc.1)

theorem channelClear_idle {c : Nat} {s : State} (h : s.sgm.mode ≠ .normal) : channelClear c s = s := if_neg (fun hc => h hc.1)

/-- Outside normal measurement only a save falls due. -/
theorem sgmDue_idle {s : State} (h : s.sgm.mode ≠ .normal) : s.sgmDue = s.saveDone := by
  have hmode : s.saveDone.sgm.mode ≠ .normal := by rw [saveDone_sgm (φ := Sgm.mode) (by exact fun _ _ _ _ => rfl)]; exact h
  unfold State.sgmDue
  rw [blockEnd_none (.inl hmode)]
  generalize s.saveDone = u at *
  generalize List.range 40 = l
  induction l with
  | nil => rfl
  | cons c l ih => rw [List.foldl_cons, channelFault_idle hmode, channelFault_idle hmode, channelClear_idle hmode, ih]

/-! ### What the Saggar's measurement and billing depend on -/

/-- Two devices whose SGM, BTE and MSS and open values are the same. -/
structure SameSaggar (s t : State) : Prop where
  sgm : t.sgm = s.sgm
  bte : t.bte = s.bte
  mss : t.mss = s.mss
  free : t.free = s.free

theorem SameSaggar.start (s : State) : SameSaggar s s.start := ⟨rfl, rfl, rfl, rfl⟩

theorem foldl_same {α : Type} {f : State → α → State} (h : ∀ s t x, SameSaggar s t → SameSaggar (f s x) (f t x)) (l : List α) {s t : State}
    (hs : SameSaggar s t) : SameSaggar (l.foldl f s) (l.foldl f t) := by
  induction l generalizing s t with
  | nil => exact hs
  | cons x l ih => exact ih (h s t x hs)

theorem SameSaggar.ite {c d : Prop} [Decidable c] [Decidable d] {s t u v : State} (hc : c ↔ d) (h1 : SameSaggar s u) (h2 : SameSaggar t v) :
    SameSaggar (if c then s else t) (if d then u else v) := by
  by_cases h : c
  · rw [if_pos h, if_pos (hc.mp h)]
    exact h1
  · rw [if_neg h, if_neg (fun hd => h (hc.mpr hd))]
    exact h2

theorem SameSaggar.onSgm {s t : State} (h : SameSaggar s t) (f : Sgm → Sgm) : SameSaggar (s.onSgm f) (t.onSgm f) :=
  ⟨congrArg f h.sgm, h.bte, h.mss, h.free⟩

theorem SameSaggar.onBte {s t : State} (h : SameSaggar s t) (f : Bte → Bte) : SameSaggar (s.onBte f) (t.onBte f) :=
  ⟨h.sgm, congrArg f h.bte, h.mss, h.free⟩

theorem SameSaggar.onMss {s t : State} (h : SameSaggar s t) (f : Mss → Mss) : SameSaggar (s.onMss f) (t.onMss f) :=
  ⟨h.sgm, h.bte, congrArg f h.mss, h.free⟩

theorem SameSaggar.of_parts {s t u v : State} (h : SameSaggar s t) (h1 : ∀ {π : Part}, π ∉ [.rings, .lnk, .out] → part π u = part π s)
    (h2 : ∀ {π : Part}, π ∉ [.rings, .lnk, .out] → part π v = part π t) : SameSaggar u v :=
  ⟨(h2 (π := .sgm) (by simp)).trans (h.sgm.trans (h1 (π := .sgm) (by simp)).symm), (h2 (π := .bte) (by simp)).trans (h.bte.trans (h1 (π := .bte) (by simp)).symm),
    (h2 (π := .mss) (by simp)).trans (h.mss.trans (h1 (π := .mss) (by simp)).symm), (h2 (π := .free) (by simp)).trans (h.free.trans (h1 (π := .free) (by simp)).symm)⟩

theorem SameSaggar.pf1Event {s t : State} (h : SameSaggar s t) (vec sub arg src : Nat) : SameSaggar (s.pf1Event vec sub arg src) (t.pf1Event vec sub arg src) :=
  h.of_parts (fun hp => pf1Event_part (by simp at hp ⊢; tauto) ..) (fun hp => pf1Event_part (by simp at hp ⊢; tauto) ..)

theorem SameSaggar.bteEvent {s t : State} (h : SameSaggar s t) (vec sub arg src : Nat) : SameSaggar (s.bteEvent vec sub arg src) (t.bteEvent vec sub arg src) :=
  (h.onBte _).pf1Event ..

theorem SameSaggar.sendCredit {s t : State} (h : SameSaggar s t) (n st : Nat) : SameSaggar (s.sendCredit n st) (t.sendCredit n st) := ⟨h.sgm, h.bte, h.mss, h.free⟩

theorem SameSaggar.creditOf {s t : State} (h : SameSaggar s t) (x : BteSess) : t.creditOf x = s.creditOf x := by
  unfold State.creditOf
  rw [h.sgm, h.bte]

theorem SameSaggar.evalSess {s t : State} (h : SameSaggar s t) (x : BteSess) : SameSaggar (s.evalSess x) (t.evalSess x) := by
  unfold State.evalSess
  dsimp only
  rw [h.creditOf, h.bte]
  refine .ite Iff.rfl h (.onBte ?_ _)
  exact .ite Iff.rfl (.bteEvent (.ite Iff.rfl (h.sendCredit ..) h) ..) (.ite Iff.rfl (h.sendCredit ..) h)

theorem SameSaggar.creditEval {s t : State} (h : SameSaggar s t) : SameSaggar s.creditEval t.creditEval := by
  unfold State.creditEval
  rw [h.mss, h.bte]
  exact .ite Iff.rfl h (foldl_same (fun _ _ x h => h.evalSess x) _ h)

theorem SameSaggar.setFault {s t : State} (h : SameSaggar s t) (c cause : Nat) : SameSaggar (s.setFault c cause) (t.setFault c cause) := by
  unfold State.setFault
  dsimp only
  rw [h.sgm]
  exact .ite Iff.rfl h (h.onSgm _).creditEval

theorem SameSaggar.channelFault {s t : State} (h : SameSaggar s t) (c cause : Nat) : SameSaggar (channelFault c cause s) (channelFault c cause t) := by
  unfold Machine.channelFault
  dsimp only
  rw [h.sgm]
  exact .ite Iff.rfl (h.setFault ..) h

theorem SameSaggar.channelClear {s t : State} (h : SameSaggar s t) (c : Nat) : SameSaggar (channelClear c s) (channelClear c t) := by
  unfold Machine.channelClear
  rw [h.sgm]
  exact .ite Iff.rfl (h.setFault ..) h

theorem SameSaggar.carry {s t : State} (h : SameSaggar s t) (id c : Nat) : SameSaggar (s.carry id c) (t.carry id c) := by
  unfold State.carry
  rw [h.mss]
  exact .ite Iff.rfl h (.ite Iff.rfl (h.onBte _) (h.onBte _))

theorem SameSaggar.bumpReg {s t : State} (h : SameSaggar s t) (id amount : Nat) : SameSaggar (s.bumpReg id amount) (t.bumpReg id amount) := by
  unfold State.bumpReg
  dsimp only
  rw [h.sgm]
  exact (h.onSgm _).carry ..

theorem SameSaggar.acBoundary {s t : State} (h : SameSaggar s t) : SameSaggar s.acBoundary t.acBoundary := by
  unfold State.acBoundary
  dsimp only
  rw [h.mss, h.sgm]
  exact .ite Iff.rfl ((h.onSgm _).onMss _) (h.onSgm _)

theorem SameSaggar.blockEnd {s t : State} (h : SameSaggar s t) : SameSaggar (blockEnd s) (blockEnd t) := by
  by_cases hn : s.sgm.mode ≠ .normal ∨ s.sgm.block.n ≠ 1600
  · rw [blockEnd_none hn, blockEnd_none (by rw [h.sgm]; exact hn)]
    exact h
  · rw [not_or, not_not, not_not] at hn
    have hshown : SameSaggar s.blockShown t.blockShown := by
      unfold State.blockShown
      rw [h.bte, h.free]
      exact SameSaggar.onSgm (s := s.took) (t := t.took) ⟨h.sgm, h.bte, h.mss, congrArg (· + 1) h.free⟩ _
    rw [blockEnd_eq hn.1 hn.2, blockEnd_eq (by rw [h.sgm]; exact hn.1) (by rw [h.sgm]; exact hn.2), h.sgm, h.free]
    exact (SameSaggar.ite Iff.rfl hshown (((hshown.bumpReg ..).bumpReg ..).bumpReg ..)).acBoundary

theorem SameSaggar.saveDone {s t : State} (h : SameSaggar s t) : SameSaggar s.saveDone t.saveDone := by
  cases hs : s.sgm.saving with
  | none =>
    rw [saveDone_none hs, saveDone_none (by rw [h.sgm]; exact hs)]
    exact h
  | some v =>
    have hpart {π : Part} (hp : π ∉ [.sgm]) (u : State) : part π u.saveDone = part π u := saveDone_part hp u
    refine ⟨?_, ?_, ?_, ?_⟩
    · rw [saveDone_some hs, saveDone_some (by rw [h.sgm]; exact hs), h.sgm, h.bte]
    · exact (hpart (π := .bte) (by simp) t).trans (h.bte.trans (hpart (π := .bte) (by simp) s).symm)
    · exact (hpart (π := .mss) (by simp) t).trans (h.mss.trans (hpart (π := .mss) (by simp) s).symm)
    · exact (hpart (π := .free) (by simp) t).trans (h.free.trans (hpart (π := .free) (by simp) s).symm)

theorem SameSaggar.sgmDue {s t : State} (h : SameSaggar s t) : SameSaggar s.sgmDue t.sgmDue :=
  foldl_same (fun _ _ c h => ((h.channelFault c 1).channelFault c 2).channelClear c) _ h.saveDone.blockEnd

theorem SameSaggar.log {s t : State} (h : SameSaggar s t) (kind source : Nat) (data : List Byte) (counter : Nat) (done : Bool) :
    SameSaggar (s.log kind source data counter done) (t.log kind source data counter done) := by
  unfold State.log
  dsimp only
  rw [h.mss, h.bte]
  refine .ite Iff.rfl (.ite Iff.rfl ?_ (h.onMss _)) (h.onMss _)
  exact ((h.onMss _).onMss _).pf1Event ..

theorem SameSaggar.pulseApply {s t : State} (h : SameSaggar s t) (c : PulseCfg) : SameSaggar (s.pulseApply c) (t.pulseApply c) := by
  unfold State.pulseApply
  dsimp only
  rw [h.sgm]
  exact .ite Iff.rfl ((h.onSgm _).log ..) ((h.onSgm _).log ..)

theorem SameSaggar.boundaryStart {s t : State} (h : SameSaggar s t) : SameSaggar s.boundaryStart t.boundaryStart := by
  have hset : SameSaggar (s.unsaid.onSgm Sgm.calSet) (t.unsaid.onSgm Sgm.calSet) := (h.onBte _).onSgm _
  rw [boundaryStart_eq, boundaryStart_eq, hset.sgm]
  generalize s.unsaid.onSgm Sgm.calSet = u at *
  generalize t.unsaid.onSgm Sgm.calSet = v at *
  have hac : SameSaggar (if u.sgm.block.n = 0 then u.acBoundary else u) (if u.sgm.block.n = 0 then v.acBoundary else v) := .ite Iff.rfl hset.acBoundary hset
  unfold State.pulseCfgs
  rw [hac.sgm]
  exact foldl_same (fun _ _ c h => h.pulseApply c) _ (hac.onSgm _)

/-! ### The boundary -/

/-- What a sample leaves in SGM beside registers and pulses. -/
def Sgm.shifted (bits : List Nat) (codes xs : List Int) (g : Sgm) : Sgm :=
  { (g.decimate bits).keepAc codes with
    block := blockSample g.acFault xs (g.reactive xs) g.block, band := g.filtered xs, sec := secondSample g xs g.sec }

theorem boundaryStart_mode (s : State) : s.boundaryStart.sgm.mode = s.sgm.mode :=
  boundaryStart_sgm (φ := Sgm.mode) (by exact fun _ _ _ => rfl) (by exact fun _ _ => rfl) (by exact fun _ _ _ _ => rfl) s

theorem sgmDue_mode (s : State) : s.sgmDue.sgm.mode = s.sgm.mode :=
  (sgmDue_sgm (φ := Sgm.mode) (by exact fun _ _ _ => rfl) (by exact fun _ _ _ => rfl) (by exact fun _ _ => rfl) (by exact fun _ _ _ => rfl) s).trans
    (saveDone_sgm (φ := Sgm.mode) (by exact fun _ _ _ _ => rfl) s)

/-- The state before the end of a boundary in normal measurement. -/
def State.sampled (bits : List Nat) (b : State) : State :=
  (List.range 4).foldl (fun s k => s.pulseSample k) ((b.dcSamples (b.sgm.convertAll (b.sgm.codes bits))).onSgm
    (Sgm.shifted bits (b.sgm.codes bits) (b.sgm.convertAll (b.sgm.codes bits))))

theorem sgmSample_normal {bits : List Nat} {s : State} (h : s.sgm.mode = .normal) :
    sgmSample bits s = (s.sgmDue.boundaryStart.sampled bits).boundaryEnd := by
  have hruns : s.sgm.runs = true := by simp [Sgm.runs, h]
  have hmode : s.sgmDue.boundaryStart.sgm.mode = .normal := by rw [boundaryStart_mode, sgmDue_mode, h]
  unfold sgmSample
  dsimp only
  rw [if_neg (by simp [hruns]), if_neg (by simp [hmode]), if_neg (by simp [hmode])]
  rfl

/-- What a discarded sample leaves in SGM (R334). -/
def Sgm.settled (bits : List Nat) (codes : List Int) (g : Sgm) : Sgm := { ((g.decimate bits).keepAc codes).idleFor 1 with settle := g.settle + 1 }

theorem sgmSample_settling {bits : List Nat} {s : State} (h : s.sgm.mode = .settling) :
    sgmSample bits s = (s.saveDone.boundaryStart.onSgm (Sgm.settled bits (s.saveDone.boundaryStart.sgm.codes bits))).boundaryEnd := by
  have hnot : s.sgm.mode ≠ .normal := by simp [h]
  have hmode : s.sgmDue.boundaryStart.sgm.mode = .settling := by rw [boundaryStart_mode, sgmDue_mode, h]
  unfold sgmSample
  dsimp only
  rw [if_neg (by simp [Sgm.runs, h]), if_pos hmode, sgmDue_idle hnot]
  rfl

theorem sgmSample_battery {bits : List Nat} {s : State} (h : s.sgm.mode = .battery) :
    sgmSample bits s = (s.saveDone.boundaryStart.onSgm (Sgm.idleFor 1)).boundaryEnd := by
  have hnot : s.sgm.mode ≠ .normal := by simp [h]
  have hmode : s.sgmDue.boundaryStart.sgm.mode = .battery := by rw [boundaryStart_mode, sgmDue_mode, h]
  unfold sgmSample
  dsimp only
  rw [if_neg (by simp [Sgm.runs, h]), if_neg (by simp [hmode]), if_pos (by simp [hmode]), sgmDue_idle hnot]

theorem sgmSample_off {bits : List Nat} {s : State} (h : s.sgm.runs = false) : sgmSample bits s = s := if_pos (by simp [h])

/-- The modes in which the Saggar runs. -/
theorem runs_iff (g : Sgm) : g.runs = true ↔ g.mode = .settling ∨ g.mode = .normal ∨ g.mode = .battery := by
  simp [Sgm.runs, or_assoc]

theorem sampled_sgm {α : Type} {φ : Sgm → α} (h1 : ∀ g a, φ { g with pulses := a } = φ g) (h2 : ∀ bits codes xs g, φ (Sgm.shifted bits codes xs g) = φ g)
    (bits : List Nat) (b : State) : φ (b.sampled bits).sgm = φ (b.sgm.samples (b.sgm.convertAll (b.sgm.codes bits))) := by
  refine (foldl_kept (φ := fun u : State => φ u.sgm) (fun u k => pulseSample_sgm h1 k u) _ _).trans ((h2 _ _ _ _).trans ?_)
  rw [dcSamples_sgm]

theorem boundaryEnd_meters (s : State) : s.boundaryEnd.sgm.acc = s.sgm.acc ∧ s.boundaryEnd.sgm.res = s.sgm.res :=
  ⟨boundaryEnd_sgm (φ := Sgm.acc) (by exact fun _ _ _ => rfl) (by exact fun _ _ _ => rfl) s,
    boundaryEnd_sgm (φ := Sgm.res) (by exact fun _ _ _ => rfl) (by exact fun _ _ _ => rfl) s⟩

theorem sgmSample_meters {bits : List Nat} {s b : State} (h : s.sgm.mode = .normal) (hb : b = s.sgmDue.boundaryStart) :
    (sgmSample bits s).sgm.acc = (b.sgm.samples (b.sgm.convertAll (b.sgm.codes bits))).acc ∧
    (sgmSample bits s).sgm.res = (b.sgm.samples (b.sgm.convertAll (b.sgm.codes bits))).res := by
  rw [sgmSample_normal h, ← hb, (boundaryEnd_meters _).1, (boundaryEnd_meters _).2]
  exact ⟨sampled_sgm (φ := Sgm.acc) (by exact fun _ _ => rfl) (by exact fun _ _ _ _ => rfl) bits b,
    sampled_sgm (φ := Sgm.res) (by exact fun _ _ => rfl) (by exact fun _ _ _ _ => rfl) bits b⟩

theorem convertAll_dc {g : Sgm} {codes : List Int} {c : Nat} (h : c < 32) : (g.convertAll codes).getD c 0 = convertCode g.cal c (codes.getD c 0) := by
  unfold Sgm.convertAll
  rw [List.getD_eq_getElem?_getD, List.getElem?_map, List.getElem?_range (by omega)]
  exact if_pos h

/-- A sample leaves the saves alone once one that was being written is complete. -/
theorem sgmSample_sgm_of_runs {α : Type} {φ : Sgm → α} {bits : List Nat} {s : State} (h : s.sgm.runs = true)
    (hacc : ∀ g a r, φ { g with acc := a, res := r } = φ g) (hblock : ∀ time free g, φ (Sgm.blockShown time free g) = φ g)
    (hac : ∀ g a, φ { g with calAc := a } = φ g) (hfault : ∀ g a b, φ { g with faults := a, lastEvent := b } = φ g)
    (hpulse : ∀ g a b, φ { g with pulses := a, s0 := b } = φ g) (hnext : ∀ g a, φ { g with pulseNext := a } = φ g)
    (hcal : ∀ g a b c, φ { g with cal := a, calNext := b, calAc := c } = φ g) (hgap : ∀ g a b, φ { g with saveGap := a, gapFrom := b } = φ g)
    (hcrc : ∀ g a b, φ { g with sramCrc := a, boundAt := b } = φ g) (hshift : ∀ bits codes xs g, φ (Sgm.shifted bits codes xs g) = φ g)
    (hsettle : ∀ bits codes g, φ (Sgm.settled bits codes g) = φ g) (hidle : ∀ n g, φ (Sgm.idleFor n g) = φ g) :
    φ (sgmSample bits s).sgm = φ s.saveDone.sgm := by
  have hstart (u : State) : φ u.boundaryStart.sgm = φ u.sgm := boundaryStart_sgm hpulse hnext hcal u
  have hend (u : State) : φ u.boundaryEnd.sgm = φ u.sgm := boundaryEnd_sgm hgap hcrc u
  rcases (runs_iff _).mp h with hn | hn | hn
  · rw [sgmSample_settling hn, hend]
    exact (hsettle ..).trans (hstart _)
  · rw [sgmSample_normal hn, hend, sampled_sgm (fun g a => hpulse g a g.s0) hshift, samples_kept hacc, hstart, sgmDue_sgm hacc hblock hac hfault]
  · rw [sgmSample_battery hn, hend]
    exact (hidle ..).trans (hstart _)

/-- The registers and the block. -/
def Sgm.measured (g : Sgm) : List Nat × List Nat × Block := (g.acc, g.res, g.block)

theorem settled_measured (bits : List Nat) (codes : List Int) (g : Sgm) : (Sgm.settled bits codes g).measured = g.measured := rfl

theorem idleFor_measured (n : Nat) (g : Sgm) : (Sgm.idleFor n g).measured = g.measured := rfl

/-- Outside normal measurement a sample leaves registers and block alone. -/
theorem sgmSample_idle {bits : List Nat} {s : State} (hn : s.sgm.mode ≠ .normal) : (sgmSample bits s).sgm.measured = s.sgm.measured := by
  have hstart : s.saveDone.boundaryStart.sgm.measured = s.sgm.measured :=
    (boundaryStart_sgm (φ := Sgm.measured) (by exact fun _ _ _ => rfl) (by exact fun _ _ => rfl) (by exact fun _ _ _ _ => rfl) _).trans
      (saveDone_sgm (φ := Sgm.measured) (by exact fun _ _ _ _ => rfl) s)
  have hend (u : State) : u.boundaryEnd.sgm.measured = u.sgm.measured :=
    boundaryEnd_sgm (φ := Sgm.measured) (by exact fun _ _ _ => rfl) (by exact fun _ _ _ => rfl) u
  by_cases hr : s.sgm.runs = true
  · rcases (runs_iff _).mp hr with h | h | h
    · rw [sgmSample_settling h, hend]
      exact (settled_measured ..).trans hstart
    · exact absurd h hn
    · rw [sgmSample_battery h, hend]
      exact (idleFor_measured ..).trans hstart
  · rw [sgmSample_off (by simpa using hr)]

/-! ### Pulses and S0 inputs -/

theorem pulseSample_length (k : Nat) (s : State) : (s.pulseSample k).sgm.pulses.length = s.sgm.pulses.length := by
  unfold State.pulseSample
  dsimp only
  split
  · exact upd_length ..
  · exact upd_length ..
  · split <;> exact upd_length ..

/-- A due pulse starts in a sample of normal measurement, behind the port registers of that sample. -/
theorem sampled_starts {bits : List Nat} {b : State} {k : Nat} {p : Pulse} (hlen : k < b.sgm.pulses.length) (hk : k < 4)
    (hp : b.sgm.pulses.getD k Pulse.reset = p) (hidle : p.active = none) (hsrc : p.src ≠ 0xFF) (hw : p.width * 8 ≤ p.idle)
    (hdue : 0 < p.owed ∨ p.sent < p.due ((b.sampled bits).sgm.acc.getD p.src 0)) :
    .pulse k true ∈ (b.sampled bits).out ∧ ((b.sampled bits).sgm.pulses.getD k Pulse.reset).active = some (p.width * 8) := by
  rw [sampled_sgm (φ := Sgm.acc) (by exact fun _ _ => rfl) (by exact fun _ _ _ _ => rfl) bits b] at hdue
  refine foldl_range_at (f := fun (s : State) k => s.pulseSample k)
    (P := fun u => u.sgm.pulses.getD k Pulse.reset = p ∧ u.sgm.pulses.length = b.sgm.pulses.length ∧
      u.sgm.acc = (b.sgm.samples (b.sgm.convertAll (b.sgm.codes bits))).acc)
    (Q := fun u => .pulse k true ∈ u.out ∧ (u.sgm.pulses.getD k Pulse.reset).active = some (p.width * 8)) hk ?_ ?_ ?_ ?_
  · rintro u i hi ⟨h1, h2, h3⟩
    refine ⟨(pulseSample_of_ne (Ne.symm hi) u).trans h1, ?_, (pulseSample_sgm (φ := Sgm.acc) (by exact fun _ _ => rfl) i u).trans h3⟩
    rw [pulseSample_length, h2]
  · rintro u ⟨h1, h2, h3⟩
    exact pulseSample_starts (by rw [h2]; exact hlen) h1 hidle hsrc hw (by rw [h3]; exact hdue)
  · rintro u i hi ⟨h1, h2⟩
    exact ⟨(pulseSample_prefix i u).subset h1, by rw [pulseSample_of_ne (Ne.symm hi)]; exact h2⟩
  · have hsgm := dcSamples_sgm (b.sgm.convertAll (b.sgm.codes bits)) b
    have hpulses : (b.sgm.samples (b.sgm.convertAll (b.sgm.codes bits))).pulses = b.sgm.pulses := samples_kept (φ := Sgm.pulses) (by exact fun _ _ _ => rfl) _ _
    have he : ((b.dcSamples (b.sgm.convertAll (b.sgm.codes bits))).onSgm
        (Sgm.shifted bits (b.sgm.codes bits) (b.sgm.convertAll (b.sgm.codes bits)))).sgm.pulses = b.sgm.pulses := by
      change (Sgm.shifted _ _ _ (b.dcSamples _).sgm).pulses = _
      rw [hsgm]
      exact hpulses
    refine ⟨by rw [he, hp], by rw [he], ?_⟩
    change (Sgm.shifted _ _ _ (b.dcSamples _).sgm).acc = _
    rw [hsgm]
    rfl

theorem s0Pulse_good {n onMs offMs : Nat} {on : Bool} {s : State} (hcls : (s.sgm.s0.getD n S0In.reset).cls ≠ 0) (hruns : s.sgm.runs = true)
    (h1 : 20 ≤ onMs) (h2 : 20 ≤ offMs) : s0Pulse n onMs offMs on s = s.onSgm (fun g => { g with
      s0 := upd g.s0 n (fun x => { x with on := on }), acc := upd g.acc (0x28 + n) (· + (s.sgm.s0.getD n S0In.reset).weight * 100000) }.renew) := by
  have hnot : ¬((s.sgm.s0.getD n S0In.reset).cls = 0 ∨ s.sgm.runs = false) := by
    rintro (h | h)
    · exact hcls h
    · rw [hruns] at h
      cases h
  unfold s0Pulse
  dsimp only
  rw [if_neg hnot, if_pos ⟨h1, h2⟩]
  rfl

theorem s0Pulse_short {n onMs offMs : Nat} {on : Bool} {s : State} (hcls : (s.sgm.s0.getD n S0In.reset).cls ≠ 0) (hruns : s.sgm.runs = true)
    (h : onMs < 20 ∨ offMs < 20) : s0Pulse n onMs offMs on s = s.onSgm (fun g => { g with
      s0 := upd (upd g.s0 n (fun x => { x with on := on })) n (fun x => { x with rejects := min (x.rejects + 1) 65535 }) }) := by
  have hnot : ¬((s.sgm.s0.getD n S0In.reset).cls = 0 ∨ s.sgm.runs = false) := by
    rintro (h | h)
    · exact hcls h
    · rw [hruns] at h
      cases h
  unfold s0Pulse
  dsimp only
  rw [if_neg hnot, if_neg (by omega)]
  rfl

/-- Settles O15: a port's sample changes its own two registers, and what comes behind the samples changes no register. -/
theorem energySample : Obligations.EnergySample := by
  unfold Obligations.EnergySample
  refine ⟨?ports, ?idle, ?pulses, ?save, ?s0⟩
  case ports =>
    intro bits s b hb hm ha hr
    refine ⟨_, rfl, fun n hn => ?_⟩
    have hsame := ((SameSaggar.start s).sgmDue.boundaryStart).sgm
    rw [← hb] at hsame
    obtain ⟨h1, h2⟩ := sgmSample_meters (bits := bits) (s := s.start) hm rfl
    rw [hsame] at h1 h2
    have h := samples_portSampled (xs := b.sgm.convertAll (b.sgm.codes bits)) hn ha hr
    rw [convertAll_dc (by omega), convertAll_dc (by omega)] at h
    exact h.congr rfl rfl ⟨rfl, rfl, rfl, rfl⟩ ⟨by rw [h1], by rw [h1], by rw [h2], by rw [h2]⟩
  case idle =>
    intro bits s hm
    have h := sgmSample_idle (bits := bits) (s := s.start) hm
    exact ⟨_, rfl, (congrArg Prod.fst h :), (congrArg (fun x => x.2.1) h :), (congrArg (fun x => x.2.2) h :)⟩
  case pulses =>
    intro bits s b k p hb hm hlen hk hp hidle hsrc hw
    refine ⟨_, rfl, fun hdue => ?_⟩
    have hsame := ((SameSaggar.start s).sgmDue.boundaryStart).sgm
    rw [← hb] at hsame
    have he := sgmSample_normal (bits := bits) (s := s.start) hm
    generalize s.start.sgmDue.boundaryStart = u at he hsame
    rw [← hsame] at hlen hp
    rw [he] at hdue ⊢
    rw [(boundaryEnd_meters _).1] at hdue
    obtain ⟨h1, h2⟩ := sampled_starts hlen hk hp hidle hsrc hw hdue
    refine ⟨(boundaryEnd_prefix _).subset h1, ?_⟩
    rw [boundaryEnd_sgm (φ := Sgm.pulses) (by exact fun _ _ _ => rfl) (by exact fun _ _ _ => rfl)]
    exact h2
  case save =>
    intro bits s v hruns hv
    have h := sgmSample_sgm_of_runs (φ := fun g => (g.saving, g.saves)) (bits := bits) (s := s.start) hruns (by exact fun _ _ _ => rfl) (by exact fun _ _ _ => rfl)
      (by exact fun _ _ => rfl) (by exact fun _ _ _ => rfl) (by exact fun _ _ _ => rfl) (by exact fun _ _ => rfl) (by exact fun _ _ _ _ => rfl)
      (by exact fun _ _ _ => rfl) (by exact fun _ _ _ => rfl) (by exact fun _ _ _ _ => rfl) (by exact fun _ _ _ => rfl) (by exact fun _ _ => rfl)
    rw [saveDone_some (s := s.start) hv] at h
    exact ⟨_, rfl, (congrArg Prod.fst h :), newest_of_saves (congrArg Prod.snd h :)⟩
  case s0 =>
    intro n onMs offMs on s hn hs0 hacc hruns hcls
    refine ⟨fun h1 h2 => ⟨_, congrArg Host.Outcome.next (s0Pulse_good (s := s.start) hcls hruns h1 h2), ?_, fun id hid => ?_, rfl⟩,
      fun h => ⟨_, congrArg Host.Outcome.next (s0Pulse_short (s := s.start) hcls hruns h), rfl, ?_, rfl⟩⟩
    · exact getD_upd_self (l := s.sgm.acc) _ _ (by omega)
    · exact getD_upd_of_ne hid s.sgm.acc _ _
    · change ((upd (upd s.sgm.s0 n _) n _).getD n S0In.reset).rejects = _
      rw [upd_upd, getD_upd_self _ _ (by omega)]

end Sys2Proof.Machine
end
section
/-! PROOFS. Measurement blocks and channel faults -/

namespace Sys2Proof.Machine

open Sys2Proof

/-! ### The line frequency of a block (R321) -/

theorem freqOf_bounds (cross free : Nat) : (cross - 1) * 250 ≤ freqOf cross free ∧ freqOf cross free ≤ (cross + 1) * 250 := by
  unfold freqOf
  dsimp only
  have h : Config.freeNat free % ((cross + 1) * 250 - (cross - 1) * 250 + 1) < (cross + 1) * 250 - (cross - 1) * 250 + 1 := Nat.mod_lt _ (Nat.succ_pos _)
  generalize Config.freeNat free % _ = r at *
  omega

theorem blockFf_few {g : Sgm} (free : Nat) (h : g.block.cross < 10) : g.blockFf free = true := by simp [Sgm.blockFf, h]

theorem blockFf_within {g : Sgm} (free : Nat) (h1 : 19 ≤ g.block.cross) (h2 : g.block.cross ≤ 25) : g.blockFf free = false := by
  obtain ⟨h3, h4⟩ := freqOf_bounds g.block.cross free
  simp only [Sgm.blockFf, Bool.or_eq_false_iff, decide_eq_false_iff_not]
  omega

theorem blockFf_false {g : Sgm} {free : Nat} (h : g.blockFf free = false) : 10 ≤ g.block.cross ∧ freqOf g.block.cross free ≤ 6500 := by
  simp only [Sgm.blockFf, Bool.or_eq_false_iff, decide_eq_false_iff_not] at h
  omega

/-! ### A block's sums in the registers -/

/-- A register with its residue, in µW·sample. -/
def Sgm.total (g : Sgm) (id : Nat) : Nat := 28800000 * g.acc.getD id 0 + g.res.getD id 0

/-- A change of registers that adds an amount to one. -/
structure Adds (id amount : Nat) (g u : Sgm) : Prop where
  at_ : u.total id = g.total id + amount
  others : ∀ i, i ≠ id → u.acc.getD i 0 = g.acc.getD i 0 ∧ u.res.getD i 0 = g.res.getD i 0
  acc : u.acc.length = g.acc.length
  res : u.res.length = g.res.length

theorem bumpReg_adds {id amount : Nat} {s : State} (ha : id < s.sgm.acc.length) (hr : id < s.sgm.res.length) : Adds id amount s.sgm (s.bumpReg id amount).sgm := by
  rw [bumpReg_sgm]
  refine ⟨?_, fun i hi => bump_of_ne hi .., (bump_length ..).1, (bump_length ..).2⟩
  unfold Sgm.total
  rw [bump_acc ha, bump_res hr, show energyUnit = 28800000 from rfl]
  omega

theorem Adds.total_of_ne {id amount i : Nat} {g u : Sgm} (h : Adds id amount g u) (hi : i ≠ id) : u.total i = g.total i := by
  obtain ⟨h1, h2⟩ := h.others i hi
  unfold Sgm.total
  rw [h1, h2]

theorem quadrant_ids (p q : Int) : (quadrant p q).1 < 64 ∧ (quadrant p q).2.1 < 64 ∧ (quadrant p q).2.2 < 64 ∧ (quadrant p q).1 ≠ (quadrant p q).2.1 ∧
    (quadrant p q).1 ≠ (quadrant p q).2.2 ∧ (quadrant p q).2.1 ≠ (quadrant p q).2.2 := by
  unfold quadrant
  split <;> split <;> decide

theorem blockBumps_totals {p q : Int} {a : Nat} {s : State} (ha : s.sgm.acc.length = 64) (hr : s.sgm.res.length = 64) :
    (s.blockBumps p q a).sgm.total (quadrant p q).1 = s.sgm.total (quadrant p q).1 + p.natAbs ∧
    (s.blockBumps p q a).sgm.total (quadrant p q).2.1 = s.sgm.total (quadrant p q).2.1 + q.natAbs ∧
    (s.blockBumps p q a).sgm.total (quadrant p q).2.2 = s.sgm.total (quadrant p q).2.2 + a ∧
    ∀ i, i ≠ (quadrant p q).1 → i ≠ (quadrant p q).2.1 → i ≠ (quadrant p q).2.2 →
      (s.blockBumps p q a).sgm.acc.getD i 0 = s.sgm.acc.getD i 0 ∧ (s.blockBumps p q a).sgm.res.getD i 0 = s.sgm.res.getD i 0 := by
  obtain ⟨l1, l2, l3, n12, n13, n23⟩ := quadrant_ids p q
  unfold State.blockBumps
  generalize (quadrant p q).1 = ra at *
  generalize (quadrant p q).2.1 = rr at *
  generalize (quadrant p q).2.2 = rs at *
  have h1 := bumpReg_adds (id := ra) (amount := p.natAbs) (s := s) (by omega) (by omega)
  have h2 := bumpReg_adds (id := rr) (amount := q.natAbs) (s := s.bumpReg ra p.natAbs) (by rw [h1.acc]; omega) (by rw [h1.res]; omega)
  have h3 := bumpReg_adds (id := rs) (amount := a) (s := (s.bumpReg ra p.natAbs).bumpReg rr q.natAbs) (by rw [h2.acc, h1.acc]; omega)
    (by rw [h2.res, h1.res]; omega)
  refine ⟨?_, ?_, ?_, fun i hi1 hi2 hi3 => ?_⟩
  · rw [h3.total_of_ne n13, h2.total_of_ne n12, h1.at_]
  · rw [h3.total_of_ne n23, h2.at_, h1.total_of_ne (Ne.symm n12)]
  · rw [h3.at_, h2.total_of_ne (Ne.symm n23), h1.total_of_ne (Ne.symm n13)]
  · exact ⟨(h3.others i hi3).1.trans ((h2.others i hi2).1.trans (h1.others i hi1).1),
      (h3.others i hi3).2.trans ((h2.others i hi2).2.trans (h1.others i hi1).2)⟩

theorem blockIdle_iff {g : Sgm} (hn : g.block.n = 1600) : g.blockIdle = true ↔
    ∀ c ∈ [32, 33, 34], g.block.sq.getD c 0 < calStart g.calAc c * calStart g.calAc c * 1600 := by
  simp only [Sgm.blockIdle, List.all_eq_true, decide_eq_true_eq, hn]

/-- A block's end in SGM: what is shown of it, and the registers. -/
theorem blockEnd_shown {s : State} {α : Type} {φ : Sgm → α} (hm : s.sgm.mode = .normal) (hn : s.sgm.block.n = 1600)
    (h1 : ∀ g a r, φ { g with acc := a, res := r } = φ g) (h2 : ∀ g a, φ { g with calAc := a } = φ g) :
    φ (blockEnd s).sgm = φ (Sgm.blockShown s.bte.lTime s.free s.sgm) := by
  rw [blockEnd_eq hm hn, acBoundary_sgm, h2]
  split
  · rfl
  · exact blockBumps_kept h1 ..

/-- The end of a block. -/
theorem block_ends {s : State} {q : Int} (hm : s.sgm.mode = .normal) (hn : s.sgm.block.n = 1600) (ha : s.sgm.acc.length = 64) (hr : s.sgm.res.length = 64)
    (hq : q = s.sgm.blockQ s.free) :
    ((s.sgm.acFault = true ∨ ∀ c ∈ [32, 33, 34], s.sgm.block.sq.getD c 0 < calStart s.sgm.calAc c * calStart s.sgm.calAc c * 1600) →
      (blockEnd s).sgm.acc = s.sgm.acc ∧ (blockEnd s).sgm.res = s.sgm.res) ∧
    (s.sgm.acFault = false → (∃ c ∈ [32, 33, 34], calStart s.sgm.calAc c * calStart s.sgm.calAc c * 1600 ≤ s.sgm.block.sq.getD c 0) →
      (blockEnd s).sgm.total (quadrant s.sgm.block.p q).1 = s.sgm.total (quadrant s.sgm.block.p q).1 + s.sgm.block.p.natAbs ∧
      (blockEnd s).sgm.total (quadrant s.sgm.block.p q).2.1 = s.sgm.total (quadrant s.sgm.block.p q).2.1 + q.natAbs ∧
      (blockEnd s).sgm.total (quadrant s.sgm.block.p q).2.2 = s.sgm.total (quadrant s.sgm.block.p q).2.2 + s.sgm.blockS s.free ∧
      ∀ i, i ≠ (quadrant s.sgm.block.p q).1 → i ≠ (quadrant s.sgm.block.p q).2.1 → i ≠ (quadrant s.sgm.block.p q).2.2 →
        (blockEnd s).sgm.acc.getD i 0 = s.sgm.acc.getD i 0 ∧ (blockEnd s).sgm.res.getD i 0 = s.sgm.res.getD i 0) := by
  have he := blockEnd_eq hm hn
  refine ⟨fun h => ?_, fun h1 h2 => ?_⟩
  · have hc : (s.sgm.blockIdle || s.sgm.acFault) = true := by
      rcases h with h | h
      · simp [h]
      · simp [(blockIdle_iff hn).mpr h]
    rw [he, if_pos hc, acBoundary_sgm]
    exact ⟨rfl, rfl⟩
  · have hidle : s.sgm.blockIdle = false := by
      obtain ⟨c, hc, hle⟩ := h2
      rw [Bool.eq_false_iff]
      exact fun hi => absurd ((blockIdle_iff hn).mp hi c hc) (by omega)
    rw [he, if_neg (by simp [hidle, h1]), acBoundary_sgm, ← hq]
    exact blockBumps_totals (s := s.blockShown) ha hr

/-! ### Channel faults (R316, R317) -/

/-- A declared or ended fault. -/
theorem setFault_eq {c cause : Nat} {s : State} (h : s.sgm.faults.getD c 0 ≠ cause) : s.setFault c cause = (s.onSgm (fun g => { g with
    faults := g.faults.set c cause
    lastEvent := some (faultEvent c (if cause = 0 then s.sgm.faults.getD c 0 * 2 else cause * 2 + 1)) })).creditEval := by
  unfold State.setFault
  dsimp only
  rw [if_neg h]

theorem pf1Event_lnk {α : Type} {φ : SgLink → α} (h : ∀ l x, φ { l with heldPf1 := x } = φ l) (vec sub arg src : Nat) (s : State) :
    φ (s.pf1Event vec sub arg src).lnk = φ s.lnk := by
  unfold State.pf1Event
  split
  · exact congrArg φ (postEvent_part (π := .lnk) (by simp) ..)
  · exact h ..

theorem bteEvent_lnk {α : Type} {φ : SgLink → α} (h : ∀ l x, φ { l with heldPf1 := x } = φ l) (vec sub arg src : Nat) (s : State) :
    φ (s.bteEvent vec sub arg src).lnk = φ s.lnk := pf1Event_lnk h vec sub arg src (s.onBte _)

theorem bteEvent_bte (vec sub arg src : Nat) (s : State) : (s.bteEvent vec sub arg src).bte = { s.bte with lastEvent := some (src % 256, sub, arg % 256) } :=
  pf1Event_part (π := .bte) (by simp) ..

/-- The account state of a session, as its evaluation sees it. -/
def State.acctOf (s : State) (x : BteSess) : Nat := if x.prepaid then s.bte.account x.port else 0

/-- A session's CREDIT message at a change (R363). -/
def State.told (x : BteSess) (s : State) : State := if s.creditOf x ≠ x.sent then s.sendCredit x.number (s.creditOf x) else s

/-- The event of an account's change. -/
def State.acctEvent (x : BteSess) (acct : Nat) (s : State) : State := if acct ≠ x.acct then s.bteEvent 5 0x04 (x.acct * 256 + acct) x.port else s

/-- A session's record after its evaluation. -/
def BteSess.evaluated (x : BteSess) (st acct : Nat) (y : BteSess) : BteSess :=
  if y.number = x.number then { y with sent := st, acct := acct, said := decide (st ≠ x.sent) } else y

theorem evalSess_said {x : BteSess} (h : x.said = true) (s : State) : s.evalSess x = s := if_pos h

theorem evalSess_eq {x : BteSess} (h : x.said = false) (s : State) : s.evalSess x = ((s.told x).acctEvent x (s.acctOf x)).onBte
    (fun b => { b with sess := b.sess.map (x.evaluated (s.creditOf x) (s.acctOf x)) }) := by
  unfold State.evalSess
  rw [if_neg (by simp [h])]
  rfl

theorem told_bte (x : BteSess) (s : State) : (s.told x).bte = s.bte := by
  unfold State.told
  split <;> rfl

theorem acctEvent_bte {α : Type} {φ : Bte → α} (h : ∀ b x, φ { b with lastEvent := x } = φ b) (x : BteSess) (acct : Nat) (s : State) :
    φ (s.acctEvent x acct).bte = φ s.bte := by
  unfold State.acctEvent
  split
  · rw [bteEvent_bte]
    exact h ..
  · rfl

theorem acctEvent_toSt (x : BteSess) (acct : Nat) (s : State) : (s.acctEvent x acct).lnk.toSt = s.lnk.toSt := by
  unfold State.acctEvent
  split
  · exact bteEvent_lnk (φ := SgLink.toSt) (by exact fun _ _ => rfl) ..
  · rfl

/-- What an evaluation of a session leaves in BTE. -/
theorem evalSess_bte {α : Type} {φ : Bte → α} (h : ∀ b x y, φ { b with lastEvent := x, sess := y } = φ b) (x : BteSess) (s : State) :
    φ (s.evalSess x).bte = φ s.bte := by
  cases hs : x.said with
  | true => rw [evalSess_said hs]
  | false =>
    rw [evalSess_eq hs, ← told_bte x s, ← acctEvent_bte (φ := φ) (fun b e => h b e b.sess) x (s.acctOf x) (s.told x)]
    exact h _ _ _

/-- The messages to the Spire behind an evaluation: its CREDIT message where the state has changed (R363, R371). -/
theorem evalSess_toSt (x : BteSess) (s : State) : (s.evalSess x).lnk.toSt =
    s.lnk.toSt ++ (if x.said = false ∧ s.creditOf x ≠ x.sent then [(.credit x.number (s.creditOf x), s.bte.lTime)] else []) := by
  cases hs : x.said with
  | true => rw [evalSess_said hs, if_neg (by simp), List.append_nil]
  | false =>
    rw [evalSess_eq hs]
    refine (acctEvent_toSt ..).trans ?_
    unfold State.told
    by_cases hne : s.creditOf x ≠ x.sent
    · rw [if_pos hne, if_pos ⟨rfl, hne⟩]
      rfl
    · rw [if_neg hne, if_neg (fun h => hne h.2), List.append_nil]

/-- Every open session whose state has changed is sent it. -/
theorem creditEval_sends {s : State} {x : BteSess} (hr : s.mss.restarting = false) (hx : x ∈ s.bte.sess) (hsaid : x.said = false)
    (hf : (!s.sgm.enabled x.port || s.sgm.portFault x.port) = true) (hsent : x.sent ≠ 2) : (.credit x.number 2, s.bte.lTime) ∈ s.creditEval.lnk.toSt := by
  unfold State.creditEval
  rw [if_neg (by simp [hr])]
  obtain ⟨before, after, hl⟩ := List.append_of_mem hx
  rw [hl, List.foldl_append, List.foldl_cons]
  have hgrow (l : List BteSess) (u : State) : u.lnk.toSt <+: (l.foldl (fun s x => s.evalSess x) u).lnk.toSt :=
    foldl_rel (R := fun s t : State => s.lnk.toSt <+: t.lnk.toSt) (fun _ => List.prefix_rfl) (fun _ _ _ h1 h2 => h1.trans h2)
      (fun u x => by rw [evalSess_toSt]; exact List.prefix_append ..) l u
  have hsgm : (before.foldl (fun s x => s.evalSess x) s).sgm = s.sgm :=
    foldl_kept (φ := fun u : State => u.sgm) (fun u x => part_sgm (evalSess_part (by simp) x u)) before s
  have htime : (before.foldl (fun s x => s.evalSess x) s).bte.lTime = s.bte.lTime :=
    foldl_kept (φ := fun u : State => u.bte.lTime) (fun u x => evalSess_bte (φ := Bte.lTime) (by exact fun _ _ _ => rfl) x u) before s
  generalize before.foldl (fun s x => s.evalSess x) s = u at *
  have hcredit : u.creditOf x = 2 := by
    unfold State.creditOf
    rw [hsgm, if_pos hf]
  refine (hgrow after _).subset ?_
  rw [evalSess_toSt, hcredit, if_pos ⟨hsaid, Ne.symm hsent⟩, htime]
  exact List.mem_append_right _ (List.mem_singleton_self _)

theorem creditEval_none {s : State} (h : s.bte.sess = []) : s.creditEval = s := by
  unfold State.creditEval
  rw [h]
  split <;> rfl

theorem faults_set {l : List Nat} {c d v : Nat} (h : d ≠ c) : (l.set c v).getD d 0 = l.getD d 0 := by
  simp [Ne.symm h]

/-- Settles O16: the block's sums reach the registers of its quadrant, one after another; a fault's declaration evaluates every open session. -/
theorem blocksAndFaults : Obligations.BlocksAndFaults := by
  unfold Obligations.BlocksAndFaults
  refine ⟨?block, ?none, ?fault, ?good, ?clear, ?early⟩
  case block =>
    intro s q hm hn ha hr
    have hshown {α : Type} {φ : Sgm → α} (h1 : ∀ g a r, φ { g with acc := a, res := r } = φ g) (h2 : ∀ g a, φ { g with calAc := a } = φ g) :
        φ (blockEnd s.start).sgm = φ (Sgm.blockShown s.bte.lTime s.free s.sgm) := blockEnd_shown (s := s.start) hm hn h1 h2
    have hff := hshown (φ := Sgm.freqFault) (by exact fun _ _ _ => rfl) (by exact fun _ _ => rfl)
    have hline := hshown (φ := Sgm.line) (by exact fun _ _ _ => rfl) (by exact fun _ _ => rfl)
    have hfreq := hshown (φ := Sgm.freq) (by exact fun _ _ _ => rfl) (by exact fun _ _ => rfl)
    have hblock := hshown (φ := fun g => g.block.n) (by exact fun _ _ _ => rfl) (by exact fun _ _ => rfl)
    have hcal : (blockEnd s.start).sgm.calAc = s.sgm.cal := by
      have h : (blockEnd s.start).sgm.cal = s.sgm.cal := hshown (φ := Sgm.cal) (by exact fun _ _ _ => rfl) (by exact fun _ _ => rfl)
      refine Eq.trans ?_ h
      rw [blockEnd_eq (s := s.start) hm hn, acBoundary_sgm]
    have hends (hq : q = s.sgm.blockQ s.free) := block_ends (s := s.start) (q := q) hm hn ha hr hq
    refine ⟨_, rfl, ?_⟩
    generalize blockEnd s.start = t at *
    have hff : t.sgm.freqFault = s.sgm.blockFf s.free := hff
    refine ⟨fun h => ?_, fun h1 h2 => ?_, fun h => ?_, fun h => ?_, hblock, hcal, fun hq => ?_⟩
    · rw [hff, blockFf_few _ h]
    · rw [hff, blockFf_within _ h1 h2]
    · rw [hff] at h
      obtain ⟨h1, h2⟩ := blockFf_false h
      obtain ⟨h3, h4⟩ := freqOf_bounds s.sgm.block.cross s.free
      have hl : t.sgm.line = freqOf s.sgm.block.cross s.free := hline.trans (if_neg (by omega))
      have hf : t.sgm.freq = freqOf s.sgm.block.cross s.free := by
        refine hfreq.trans ((if_neg (by simp [h])).trans ?_)
        unfold satU16 clampI
        omega
      rw [hl, hf]
      exact ⟨h3, h4, rfl⟩
    · exact hfreq.trans (if_pos (by rw [← hff]; exact h))
    · rw [hff] at hq
      have hq' : q = s.sgm.blockQ s.free := hq
      obtain ⟨hidle, hsums⟩ := hends hq'
      refine ⟨hidle, fun h1 h2 ra rr rs hquad => ?_⟩
      obtain ⟨e1, e2, e3, e4⟩ := hsums h1 h2
      have hquad : (ra, rr, rs) = quadrant s.sgm.block.p q := hquad
      rw [show s.start.sgm = s.sgm from rfl, ← hquad] at e1 e2 e3 e4
      obtain ⟨rfl, hrest⟩ := Prod.mk.inj hquad
      obtain ⟨rfl, rfl⟩ := Prod.mk.inj hrest
      refine ⟨e1, e2, e3.trans ?_, e4⟩
      rw [hq']
      rfl
  case none =>
    intro s h
    exact ⟨_, congrArg Host.Outcome.next (blockEnd_none (s := s.start) h), rfl⟩
  case fault =>
    intro c cause s hm hev hlen h0 hshow
    have hnot0 : s.sgm.faults.getD c 0 ≠ faultCode cause := by rw [h0]; cases cause <;> decide
    have hshows : (s.sgm.decim.getD c Decim.reset).shows (faultCode cause) = true := by
      unfold Decim.shows
      rcases hshow with ⟨rfl, h⟩ | ⟨rfl, h⟩
      · simpa [faultCode] using h
      · simpa [faultCode] using h
    have he : channelFault c (faultCode cause) s.start = (s.start.onSgm (fun g => { g with
        faults := g.faults.set c (faultCode cause)
        lastEvent := some (faultEvent c (if faultCode cause = 0 then s.sgm.faults.getD c 0 * 2 else faultCode cause * 2 + 1)) })).creditEval :=
      (if_pos ⟨hm, hev, h0, hshows⟩).trans (setFault_eq (s := s.start) hnot0)
    refine ⟨_, congrArg Host.Outcome.next he, ?_⟩
    have hc : c < 40 := by
      unfold Sgm.evaluated at hev
      simp only [Bool.and_eq_true, decide_eq_true_eq] at hev
      exact hev.1.1
    generalize hu : s.start.onSgm _ = u
    have hsgm : u.creditEval.sgm = u.sgm := part_sgm (creditEval_part (by simp) u)
    have husgm : u.sgm = { s.sgm with faults := s.sgm.faults.set c (faultCode cause), lastEvent := u.sgm.lastEvent } := by rw [← hu]; rfl
    have hfaults : u.sgm.faults = s.sgm.faults.set c (faultCode cause) := by rw [← hu]; rfl
    have hat : (s.sgm.faults.set c (faultCode cause)).getD c 0 = faultCode cause := by simp [hlen, hc]
    beta_reduce
    rw [hsgm, hfaults]
    refine ⟨hat.trans (by cases cause <;> rfl), fun d hd => faults_set hd, ?_, fun hrest x hx hlt hport hsent hsaid => ?_⟩
    · exact husgm
    · have htime : s.bte.lTime = u.bte.lTime := by rw [← hu]; rfl
      rw [htime]
      refine creditEval_sends (by rw [← hu]; exact hrest) (by rw [← hu]; exact hx) hsaid ?_ hsent
      have hat : (s.sgm.faults.set c (faultCode cause)).getD c 0 ≠ 0 := by
        rw [hat]
        cases cause <;> decide
      have hfault : u.sgm.portFault x.port = true := by
        unfold Sgm.portFault
        rw [hfaults, hport]
        by_cases h16 : c < 16
        · rw [Nat.mod_eq_of_lt h16]
          simp only [bne_iff_ne.mpr hat, Bool.true_or]
        · rw [show 16 + c % 16 = c by omega]
          simp only [bne_iff_ne.mpr hat, Bool.or_true]
      rw [hfault, Bool.or_true]
  case good =>
    intro c cause s h1 h2
    refine ⟨_, congrArg Host.Outcome.next (if_neg ?_ : channelFault c (faultCode cause) s.start = s.start), rfl⟩
    rintro ⟨-, -, -, h⟩
    unfold Decim.shows at h
    change (if faultCode cause = 1 then (s.sgm.decim.getD c Decim.reset).stuck else decide (8 ≤ (s.sgm.decim.getD c Decim.reset).overs)) = true at h
    split at h
    · rw [h1] at h
      cases h
    · rw [decide_eq_true_eq] at h
      omega
  case clear =>
    intro c s hm hgood hne hsess
    have he : channelClear c s.start = (s.start.onSgm (fun g => { g with
        faults := g.faults.set c 0, lastEvent := some (faultEvent c (if 0 = 0 then s.sgm.faults.getD c 0 * 2 else 0 * 2 + 1)) })).creditEval :=
      (if_pos ⟨hm, hgood⟩).trans (setFault_eq (s := s.start) hne)
    rw [creditEval_none (s := s.start.onSgm _) hsess] at he
    exact ⟨_, congrArg Host.Outcome.next he, rfl, rfl⟩
  case early =>
    intro c s h
    exact ⟨_, congrArg Host.Outcome.next (if_neg (fun hc => absurd hc.2 (Nat.not_le_of_lt h)) : channelClear c s.start = s.start), rfl⟩

end Sys2Proof.Machine
end
section
/-! PROOFS. Three statements that fail: what a rest writes to the journal, a string's current, the pilots of ship mode. -/

namespace Sys2Proof.Machine

open Sys2Proof

/-! ### A journal that waits though the hold-up is available -/

/-- The journal entry of one string. -/
def lateEntry : StrJournal := ⟨false, 0, 0, 0, 0, 0, 0, 0, none⟩

/-- A site island without a configuration, the hold-up available, and a journal write that waits all the same. -/
def lateJournalState : State :=
  { State.reset with sup := { State.reset.sup with
      readyMask := 16, holdupReady := true, sjSlots := (none, none), sjNext := some ⟨[], [], [], [(0, lateEntry)], 0⟩ } }

theorem sjPut_sj (j : Journal) (p : Sup) : (p.sjPut j).sj = j := by
  obtain ⟨x, hx, hj⟩ := nvNewest_nvPut Journal.bytes j p.sjSlots
  unfold Sup.sj Sup.sjPut
  rw [hx]
  exact hj

/-- Refutes O24: a write that waits while the hold-up is available is the content the next write starts from, so that a write without a
configuration changes the entries of the journal. -/
theorem not_restsAndCell : ¬ Obligations.RestsAndCell := by
  intro h
  unfold Obligations.RestsAndCell at h
  obtain ⟨-, -, -, hwrite, -⟩ := h
  obtain ⟨⟨t, ht, -, -, hkeeps, -⟩, -⟩ := hwrite lateJournalState rfl rfl
  have he : t = lateJournalState.start.journalStrings := (Host.Outcome.next.inj ht).symm
  have hnew : lateJournalState.start.journalStrings.sup.sj.strings = [(0, lateEntry)] := by
    change (Sup.sjPut _ _).sj.strings = _
    rw [sjPut_sj]
    rfl
  have hold : lateJournalState.sup.sj.strings = [] := rfl
  rw [he] at hkeeps
  have := hkeeps rfl
  rw [hnew, hold] at this
  exact absurd this (by simp)

/-! ### A millisecond without a new current sample -/

/-- A configured string with a current. -/
def loadedStr : Str := { Str.reset with on := true, anch := true, cur := 5 }

/-- A running group that has accepted a frame and measured no current. -/
def quietGroup : PGroup := { PGroup.reset with st := .running, acc := 1 }

/-- A site island whose strings are of such groups, one of them configured. -/
def quietState : State :=
  { State.reset with
    sup := { State.reset.sup with readyMask := 16 }
    bse := { State.reset.bse with strs := loadedStr :: List.replicate 31 Str.reset }
    psc := { State.reset.psc with groups := List.replicate 64 quietGroup } }

theorem quietState_cur : ((bseUpdate quietState.start).str 0).cur = 5 := by
  decide +kernel

/-- Refutes O51: while a running group measures no current, the current of its string stays as it was. -/
theorem not_stringEstimates : ¬ Obligations.StringEstimates := by
  intro h
  unfold Obligations.StringEstimates Claim.StringMillisecond at h
  obtain ⟨-, hmeasured, -⟩ := h
  obtain ⟨hmeasured, -⟩ := hmeasured quietState 0 loadedStr (quietState.conf.str 0) (quietState.sumsOf 0) 0 rfl (by decide) rfl rfl rfl
    rfl rfl rfl rfl
  obtain ⟨t, ht, hcur, -⟩ := hmeasured (by decide) rfl rfl
  have he : t = bseUpdate quietState.start := (Host.Outcome.next.inj ht).symm
  rw [he, quietState_cur] at hcur
  exact absurd hcur (by decide)

/-! ### A port beyond the sixteenth -/

/-- A device that waits for its host, with seventeen ports, of which the last drives its pilot. -/
def seventeenPorts : State :=
  { State.reset with
    sup := { State.reset.sup with st := .waitHost }
    vpc := { State.reset.vpc with ports := List.replicate 16 Port.reset ++ [{ Port.reset with pinMode := 1 }] } }

/-- A SHIP_ENTER on ring 0. -/
def shipSqe : Sqe := ⟨.pf0, 0, BitVec.ofNat 32 0x93 :: List.replicate 15 0⟩

theorem seventeenPorts_pin : ((hostCmd 0x93 shipSqe [] (shipEnter shipSqe) seventeenPorts.start).prt 16).pinMode = 1 := by
  decide +kernel

/-- Refutes O54: nothing bounds the number of ports, and SHIP_ENTER leaves the pilot of a seventeenth port as it is. -/
theorem not_shipModeAndTime : ¬ Obligations.ShipModeAndTime := by
  intro h
  unfold Obligations.ShipModeAndTime Claim.ShipAndReset at h
  obtain ⟨-, hship, -⟩ := h
  have htaken : Taken 0x93 shipSqe seventeenPorts := ⟨by decide +kernel, by simp [OwnedAs, seventeenPorts, State.reset, Hqe.reset], by decide +kernel⟩
  obtain ⟨t, ht, -, -, -, -, -, -, hports, -⟩ := hship shipSqe seventeenPorts htaken rfl
  obtain ⟨-, hpin⟩ := hports 16
  have he : t = hostCmd 0x93 shipSqe [] (shipEnter shipSqe) seventeenPorts.start := (Host.Outcome.next.inj ht).symm
  rw [he, seventeenPorts_pin] at hpin
  exact absurd hpin (by decide)

end Sys2Proof.Machine
end
section
/-! PROOFS. The BLK commands -/

namespace Sys2Proof.Machine

open Sys2Proof

theorem node_start_accept (q : Sqe) (s : State) (a : Nat) : (s.start.accept q).node a = s.node a := rfl

theorem nodeRec_start_accept (q : Sqe) (s : State) (a : Nat) : (s.start.accept q).nodeRec a = s.nodeRec a := rfl

/-- A request of a command waits: the command runs. -/
theorem ask_running {q : Sqe} {r : BlkReq} {s : State} (h : OwnedAs q.fn q.sq (cidOf q) s) :
    Running q s ((s.start.accept q).ask r) ∧ ((s.start.accept q).ask r).out = [] ∧ RingsKept s ((s.start.accept q).ask r) ∧
      (s.start.accept q).ask r = { s with
        hqe := ((s.start.accept q).ask r).hqe, blk := { s.blk with queue := s.blk.queue ++ [r] }, out := []
        cur := ((s.start.accept q).ask r).cur } := by
  obtain ⟨hrun, hrings⟩ := accept_running (t := (s.start.accept q).ask r) h rfl
  exact ⟨hrun, rfl, hrings, rfl⟩

theorem blkBusy_iff (s : State) (a : Nat) : s.blkBusy a = true ↔ a ∈ s.blk.outstanding ∨ 16 ≤ s.blk.outstanding.length := by
  simp [State.blkBusy]

/-! ### Fields of a record of several entries -/

theorem u_append_left {p r : List Byte} {o m : Nat} (h : o + m ≤ p.length) : u (p ++ r) o m = u p o m := by
  unfold u
  rw [List.drop_append_of_le_length (by omega), List.take_append_of_le_length (by rw [List.length_drop]; omega)]

theorem u_append_right {p r : List Byte} {o m : Nat} (h : p.length ≤ o) : u (p ++ r) o m = u r (o - p.length) m := by
  unfold u
  rw [List.drop_append, List.drop_eq_nil_of_le h, List.nil_append]

theorem u_flatMap {α : Type} {f : α → List Byte} {n : Nat} {l : List α} (h : ∀ x ∈ l, (f x).length = n) {i o m : Nat} {x : α}
    (hx : l[i]? = some x) (hom : o + m ≤ n) : u (l.flatMap f) (n * i + o) m = u (f x) o m := by
  induction l generalizing i with
  | nil => simp at hx
  | cons y l ih =>
    have hy : (f y).length = n := h y (List.mem_cons_self ..)
    rw [List.flatMap_cons]
    cases i with
    | zero =>
      obtain rfl : y = x := by simpa using hx
      simpa using u_append_left (by omega)
    | succ i =>
      rw [u_append_right (by rw [hy, Nat.mul_succ]; omega), hy, show n * (i + 1) + o - n = n * i + o by rw [Nat.mul_succ]; omega]
      exact ih (fun z hz => h z (List.mem_cons_of_mem _ hz)) (by simpa using hx)

theorem routeEntry_length (r : Route) : (routeEntry r).length = 8 := by simp [routeEntry]

/-- The eight bytes of a node's `i`-th route. -/
def routeBytes (l : List Route) (i : Nat) : List Byte :=
  match l[i]? with
  | some r => routeEntry r
  | none => [0, 0, 0xFF, 0, 0, 0, 0, 0]

theorem routeBytes_length (l : List Route) (i : Nat) : (routeBytes l i).length = 8 := by
  unfold routeBytes
  cases l[i]? with
  | none => rfl
  | some r => exact routeEntry_length r

theorem routeEntries_eq (l : List Route) : routeEntries l = (List.range 4).flatMap (routeBytes l) := rfl

theorem routeEntries_length (l : List Route) : (routeEntries l).length = 32 := by
  rw [routeEntries_eq, flatMap_length_const _ _ 8 fun i _ => routeBytes_length l i]
  rfl

theorem u_routeEntries (l : List Route) {i o m : Nat} (hi : i < 4) (hom : o + m ≤ 8) :
    u (routeEntries l) (8 * i + o) m = u (routeBytes l i) o m := by
  rw [routeEntries_eq]
  exact u_flatMap (fun i _ => routeBytes_length l i) (by simp [hi]) hom

theorem hops_le (r : Route) : r.hops ≤ 2 := by
  have h1 := b2n_le_one (r.r1 != 0)
  have h2 := b2n_le_one (r.r2 != 0)
  unfold Route.hops
  omega

theorem u_routeEntry (r : Route) : u (routeEntry r) 0 1 = r.r1 % 256 ∧ u (routeEntry r) 1 1 = r.r2 % 256 ∧ u (routeEntry r) 2 1 = r.hops ∧
    u (routeEntry r) 3 1 = r.score % 256 ∧ u (routeEntry r) 4 4 = r.fails % 2 ^ 32 := by
  have hhops : r.hops % 256 = r.hops := Nat.mod_eq_of_lt (by have := hops_le r; omega)
  simp only [routeEntry, List.append_assoc]
  simp (disch := decide) only [u_le_zero, u_le_skip, u_le_last, Nat.reduceSub]
  simp [hhops]

theorem u_lineRecord {s : State} (hlen : s.blk.counts.length = 6) : s.lineRecord.length = 64 ∧ u s.lineRecord 0 1 = s.blkState ∧
    u s.lineRecord 6 2 = s.blk.floor % 65536 ∧ u s.lineRecord 8 4 = s.blk.counts.getD 0 0 % 2 ^ 32 ∧
    u s.lineRecord 32 4 = s.blk.reportSeq % 2 ^ 32 := by
  have hstate : s.blkState % 256 = s.blkState := by
    refine Nat.mod_eq_of_lt ?_
    unfold State.blkState
    split
    · omega
    · split
      · omega
      · split <;> omega
  obtain ⟨c, hc⟩ : ∃ c, s.blk.counts[0]? = some c := ⟨s.blk.counts[0], List.getElem?_eq_getElem (by omega)⟩
  have hcounts : (s.blk.counts.flatMap (le 4)).length = 24 := by
    rw [flatMap_length_const _ _ 4 fun x _ => le_length ..]
    omega
  have hrec : s.lineRecord = le 1 s.blkState ++ (le 1 s.nodeCounts.1 ++ (le 1 s.nodeCounts.2 ++ (le 1 0 ++ (le 2 (min s.blkPeriod 65535) ++
      (le 2 s.blk.floor ++ (s.blk.counts.flatMap (le 4) ++ (le 4 s.blk.reportSeq ++ zeros 28))))))) := by
    simp only [State.lineRecord, List.append_assoc]
    rfl
  rw [hrec]
  refine ⟨by simp [hcounts, zeros], ?_, ?_, ?_, ?_⟩
  · rw [u_le_zero]
    exact hstate
  · simp (disch := decide) only [u_le_zero, u_le_skip, Nat.reduceSub]
    norm_num
  · simp (disch := decide) only [u_le_skip, Nat.reduceSub]
    rw [u_append_left (by omega)]
    have hfield := u_flatMap (f := le 4) (n := 4) (i := 0) (o := 0) (m := 4) (fun x _ => le_length 4 x) hc le_rfl
    rw [u_le_last] at hfield
    rw [show s.blk.counts.getD 0 0 = c by rw [List.getD_eq_getElem?_getD, hc]; rfl]
    exact hfield
  · simp (disch := decide) only [u_le_skip, Nat.reduceSub]
    rw [u_append_right (by omega), hcounts]
    exact u_le_zero ..

/-- Settles O25: the reads return the records; a request that a node can take waits for its exchange. -/
theorem belfryCommands : Obligations.BelfryCommands := by
  unfold Obligations.BelfryCommands
  refine ⟨?line, ?reports, ?route, ?send, ?join, ?disabled⟩
  case line =>
    intro q s h hk hlen hcounts
    obtain ⟨hlength, hfields⟩ := u_lineRecord hcounts
    refine answers_taken rfl h (by simp [hk, hlen]) ⟨?_, hfields⟩
    rw [if_pos hk]
    change ReadOnly q 64 s.lineRecord s ((s.start.accept q).replyDone q s.lineRecord s.lineRecord.length)
    rw [hlength]
    exact replyDone_readOnly h.2.1
  case reports =>
    intro q s b h hk h1 h512 hlen hb
    refine answers_taken rfl h (by simp [hk, h1, h512, hlen]) ?_
    rw [if_neg (by omega), hb]
    exact replyDone_readOnly h.2.1
  case route =>
    intro q s n h h1 h250 hlen hn hen
    refine answers_taken rfl h (by simp [h1, h250, hlen]) ?_
    beta_reduce
    rw [nodeRec_start_accept, if_pos hen, node_start_accept, ← hn]
    refine ⟨routeEntries n.routes, routeEntries_length _, replyDone_readOnly h.2.1, fun i r hr hi => ?_, fun i hlen hi => ?_⟩
    · have hbytes : routeBytes n.routes i = routeEntry r := by simp [routeBytes, hr]
      have hfirst := u_routeEntries n.routes (o := 0) (m := 1) hi (by decide)
      rw [Nat.add_zero] at hfirst
      rw [hfirst, u_routeEntries _ hi (by decide), u_routeEntries _ hi (by decide), u_routeEntries _ hi (by decide),
        u_routeEntries _ hi (by decide), hbytes]
      exact u_routeEntry r
    · rw [u_routeEntries _ hi (by decide), show routeBytes n.routes i = [0, 0, 0xFF, 0, 0, 0, 0, 0] by simp [routeBytes, List.getElem?_eq_none hlen]]
      rfl
  case send =>
    intro q s h h1 h250 hen
    have hps : ∀ p ∈ [(decide (1 ≤ sd q 1) && decide (sd q 1 ≤ 250), 1, 0)], p.1 = true := by simp [h1, h250]
    refine ⟨fun hlost hdown hq hlen => ?_, fun hno => ?_, fun hlost hdown hbusy => ?_⟩
    all_goals
      refine answers_taken rfl h hps ?_
      beta_reduce
      rw [nodeRec_start_accept, if_pos hen]
    · rw [if_neg (by simp [node_start_accept, hlost, hdown]), if_neg (by rw [blkBusy_iff]; exact not_or.mpr ⟨hq, Nat.not_le.mpr hlen⟩)]
      exact ask_running h.2.1
    · rw [if_pos (by simpa [node_start_accept] using hno)]
      exact done_onlyCompletes h.2.1
    · rw [if_neg (by simp [node_start_accept, hlost, hdown]), if_pos (by rw [blkBusy_iff]; exact hbusy)]
      exact done_onlyCompletes h.2.1
  case join =>
    intro q s h h1 h250 hen
    have hps : ∀ p ∈ [(decide (1 ≤ sd q 1) && decide (sd q 1 ≤ 250), 1, 0)], p.1 = true := by simp [h1, h250]
    refine ⟨fun hlost hq hlen => ?_, fun hlost => ?_⟩
    all_goals
      refine answers_taken rfl h hps ?_
      beta_reduce
      rw [nodeRec_start_accept, if_pos hen]
    · rw [if_neg (by simp [node_start_accept, hlost]), if_neg (by rw [blkBusy_iff]; exact not_or.mpr ⟨hq, Nat.not_le.mpr hlen⟩)]
      exact ask_running h.2.1
    · rw [if_pos (by simp [node_start_accept, hlost])]
      exact done_onlyCompletes h.2.1
  case disabled =>
    intro q s h1 h250 hen
    have hps : ∀ p ∈ [(decide (1 ≤ sd q 1) && decide (sd q 1 ≤ 250), 1, 0)], p.1 = true := by simp [h1, h250]
    refine ⟨fun h => answers_taken rfl h hps ?_, fun h => answers_taken rfl h hps ?_, fun h hlen => answers_taken rfl h (by simp [h1, h250, hlen]) ?_⟩
    all_goals
      beta_reduce
      rw [nodeRec_start_accept, if_neg (by simp [hen])]
      exact done_onlyCompletes h.2.1

end Sys2Proof.Machine
end
section
/-! PROOFS. The EVR commands -/

namespace Sys2Proof.Machine

open Sys2Proof

/-! ### What a command changes that fails a parameter check, and one that answers with data -/

theorem answers_badParam {i : Instr} {op : Nat} {q : Sqe} {ps : List (Bool × Nat × Nat)} {body : State → State} {s : State} {r : Nat}
    (he : exec i s = .next (hostCmd op q ps body s.start)) (h : Taken op q s) (hp : firstBad ps = some r) :
    Answers i s (OnlyCompletes q stBAD_PARAM r s) := by
  have ha : s.start.arrives q = true := (State.arrives_congr q rfl).trans h.2.2
  have hbad : hostCmd op q ps body s.start = (s.start.accept q).done q stBAD_PARAM r := by
    simp [hostCmd, ha, preCheck_taken, h.1, hp]
  exact ⟨_, he, by rw [hbad]; exact done_onlyCompletes h.2.1⟩


theorem replyDone_frame (q : Sqe) (b : List Byte) (r : Nat) (s : State) : s.replyDone q b r = { s with
    hqe := (s.replyDone q b r).hqe, out := (s.replyDone q b r).out, cur := (s.replyDone q b r).cur } :=
  eq_frameOf [.fwd, .ready, .out, .cur] fun _ hp => replyDone_part hp ..

/-! ### The retirement of a recorder index (R441, R442) -/

theorem evrEvent_evr (sub arg fault : Nat) (s : State) :
    (s.evrEvent sub arg fault).evr = { s.evr with lastEvent := some (0xFF, sub, arg % 256) } := by
  unfold State.evrEvent
  rw [show ∀ u : State, (u.faultRec 4 fault arg s.evr.lost 0).evr = u.evr from fun u => rfl]
  exact postEvent_part (π := .evr) (by simp) ..

theorem putExtremes_evr (l : List Ext) (s : State) : ∃ saved next,
    (s.putExtremes l).evr = { s.evr with extSaved := saved, extNext := next } := by
  unfold State.putExtremes State.onEvr
  dsimp only
  split
  · exact ⟨_, _, rfl⟩
  · exact ⟨_, _, rfl⟩

theorem degrade_evr (s : State) : ∃ saved next last, s.degrade.evr = { s.evr with
    degraded := some s.sTime, queue := [], writing := none
    qs := s.evr.qs.map (fun q => { q with live := none, pend := none, late := none, ext := Ext.none })
    extSaved := saved, extNext := next, lastEvent := last } := by
  unfold State.degrade
  rw [evrEvent_evr]
  obtain ⟨saved, next, h⟩ := putExtremes_evr (List.replicate 128 Ext.none) (s.onEvr (fun e => { e with
    degraded := some s.sTime, queue := [], writing := none
    qs := e.qs.map (fun q => { q with live := none, pend := none, late := none, ext := Ext.none }) }))
  exact ⟨saved, next, _, by rw [h]; rfl⟩

theorem retire_stime (c i src : Nat) (o : Bool) (s : State) : (s.retire c i src o).sup.stime = s.sup.stime := by
  have hmap (u : State) : u.saveMap.sup.stime = u.sup.stime := by
    change (if u.sup.holdupReady then _ else _ : Sup).stime = _
    split <;> rfl
  have hrec (u : State) (a b x y z : Nat) : (u.faultRec a b x y z).sup.stime = u.sup.stime :=
    sup_of_part (faultRec_part (by simp) ..) (·.stime) fun _ => rfl
  unfold State.retire
  dsimp only
  split <;> split <;> simp only [State.postEvent_sup, hrec, hmap] <;> rfl

/-- The recorder with an index retired, before that may degrade it. -/
def Evr.lose (idx : Nat) (gone : Bool) (e : Evr) : Evr := { e with
  retired := min (e.retired + 1) 255
  refill := if gone then e.refill else if e.refill.contains idx then e.refill else e.refill ++ [idx] }

theorem Evr.mem_lose (idx : Nat) (e : Evr) : idx ∈ (e.lose idx false).refill := by
  unfold Evr.lose
  rw [if_neg (by decide)]
  dsimp only
  split
  next h => simpa using h
  · simp

theorem retireRecorder_eq (c idx : Nat) (s : State) : s.retireRecorder c idx =
    ((s.retire c idx noSource false).onEvr (Evr.lose idx ((s.retire c idx noSource false).tmf.oos.contains idx))).degradeDue := by
  unfold State.retireRecorder
  dsimp only
  congr 1
  generalize s.retire c idx noSource false = u
  change (if u.tmf.oos.contains idx = true then _ else _) = _
  cases h : u.tmf.oos.contains idx <;> simp [State.onEvr, Evr.lose]

/-- The eighth retired index degrades the recorder; the ones before leave its work alone. -/
theorem retireRecorder_evr (c idx : Nat) (s : State) :
    ((s.evr.degraded.isSome = true ∨ s.evr.retired < 7) →
      (s.retireRecorder c idx).evr = s.evr.lose idx ((s.retire c idx noSource false).tmf.oos.contains idx)) ∧
    (s.evr.degraded = none → 7 ≤ s.evr.retired → ∃ saved next last,
      (s.retireRecorder c idx).evr = { s.evr.lose idx ((s.retire c idx noSource false).tmf.oos.contains idx) with
        degraded := some s.sTime, queue := [], writing := none
        qs := s.evr.qs.map (fun q => { q with live := none, pend := none, late := none, ext := Ext.none })
        extSaved := saved, extNext := next, lastEvent := last }) := by
  have hevr : (s.retire c idx noSource false).evr = s.evr := retire_part (π := .evr) (by simp) ..
  have htime : (s.retire c idx noSource false).sTime = s.sTime := by
    unfold State.sTime
    rw [show (s.retire c idx noSource false).sup.stime = s.sup.stime from retire_stime c idx noSource false s]
  rw [retireRecorder_eq]
  generalize s.retire c idx noSource false = u at hevr htime
  constructor
  · intro h
    unfold State.degradeDue
    rw [if_neg]
    · rw [← hevr]; rfl
    · change ¬(u.evr.degraded.isNone && decide (8 ≤ min (u.evr.retired + 1) 255)) = true
      rw [hevr]
      rcases h with h | h
      · simp [Option.isNone_eq_false_iff.mpr h]
      · have : ¬ 8 ≤ min (s.evr.retired + 1) 255 := by omega
        simp [this]
  · intro hdeg hret
    unfold State.degradeDue
    rw [if_pos]
    · obtain ⟨saved, next, last, h⟩ := degrade_evr (u.onEvr (Evr.lose idx (u.tmf.oos.contains idx)))
      refine ⟨saved, next, last, h.trans ?_⟩
      rw [← hevr, ← htime]
      rfl
    · change (u.evr.degraded.isNone && decide (8 ≤ min (u.evr.retired + 1) 255)) = true
      rw [hevr]
      simp [hdeg]
      omega

/-- What a retired index leaves of the recorder, whether or not it degrades it. -/
theorem retireRecorder_kept (c idx : Nat) (s : State) : (s.retireRecorder c idx).evr.flash = s.evr.flash ∧
    (s.retireRecorder c idx).evr.next = s.evr.next ∧
    (idx ∉ (s.retireRecorder c idx).tmf.oos → idx ∈ (s.retireRecorder c idx).evr.refill) := by
  have hoos : (s.retireRecorder c idx).tmf = (s.retire c idx noSource false).tmf := by
    rw [retireRecorder_eq]
    exact degradeDue_part (π := .tmf) (by simp) ..
  rw [hoos]
  have hmem : idx ∉ (s.retire c idx noSource false).tmf.oos →
      idx ∈ (s.evr.lose idx ((s.retire c idx noSource false).tmf.oos.contains idx)).refill := fun h => by
    rw [show (s.retire c idx noSource false).tmf.oos.contains idx = false by simpa using h]
    exact Evr.mem_lose ..
  obtain ⟨hlow, hhigh⟩ := retireRecorder_evr c idx s
  by_cases h : s.evr.degraded.isSome = true ∨ s.evr.retired < 7
  · rw [hlow h]
    exact ⟨rfl, rfl, hmem⟩
  · obtain ⟨hdeg, hret⟩ := not_or.mp h
    obtain ⟨_, _, _, he⟩ := hhigh (by simpa using hdeg) (by omega)
    rw [he]
    exact ⟨rfl, rfl, hmem⟩

theorem evrEvent_noHostWrite (sub arg fault : Nat) (s : State) : NoHostWrite s (s.evrEvent sub arg fault) :=
  have h0 : NoHostWrite s (s.onEvr (fun e => { e with lastEvent := some (0xFF, sub, arg % 256) })) := .of_eq rfl
  (h0.trans (postEvent_noHostWrite .pf0 66 sub arg noSource _)).trans (faultRec_noHostWrite 4 fault arg s.evr.lost 0 _)

theorem degradeDue_noHostWrite (s : State) : NoHostWrite s s.degradeDue := by
  unfold State.degradeDue
  split
  · unfold State.degrade
    generalize List.replicate 128 Ext.none = l
    refine NoHostWrite.trans ?_ (evrEvent_noHostWrite ..)
    exact .of_eq rfl
  · exact .of_eq rfl

theorem retireRecorder_noHostWrite (c idx : Nat) (s : State) : NoHostWrite s (s.retireRecorder c idx) := by
  rw [retireRecorder_eq]
  have h0 : NoHostWrite (s.retire c idx noSource false) ((s.retire c idx noSource false).onEvr
    (Evr.lose idx ((s.retire c idx noSource false).tmf.oos.contains idx))) := .of_eq rfl
  exact ((retire_noHostWrite c idx noSource false s).trans h0).trans (degradeDue_noHostWrite _)

/-- Taking a command adds at most one entry. -/
theorem acceptIn_filter_length {q : Sqe} {p : Nat → Bool} (l : List Fwd) :
    ((acceptIn q l).filter (fun w => p w.op)).length ≤ (l.filter (fun w => p w.op)).length + 1 := by
  induction l with
  | nil =>
    rw [acceptIn]
    exact (List.length_filter_le ..).trans le_rfl
  | cons f r ih =>
    rw [acceptIn]
    split
    · cases h : p f.op <;> simp [h]
    · cases h : p f.op <;> simp [h] <;> omega

/-! ### Windows (R436, R437) -/

/-- The 32 bytes before a window's records (Table 17-4). -/
def windowHead (s : State) (l : List (Nat × List Byte)) : List Byte :=
  le 8 s.sTime ++ (le 4 s.fenceStart ++ (le 4 s.evr.newest ++ (le 4 ((l.head?.map Prod.fst).getD (Config.freeNat (s.free + 2))) ++ (le 1 l.length ++
    (le 1 (s.evr.liveFlags + 8 * b2n s.evr.degraded.isSome) ++ (zeros 2 ++ (le 4 (oldestOf s.heldRecords) ++ le 4 (foundOf s.heldRecords))))))))

theorem windowBytes_eq (s : State) (l : List (Nat × List Byte)) : windowBytes s l = windowHead s l ++ l.flatMap Prod.snd := by
  simp only [windowBytes, windowHead, List.append_assoc]

theorem windowHead_length (s : State) (l : List (Nat × List Byte)) : (windowHead s l).length = 32 := by simp [windowHead, zeros]

theorem liveFlags_lt (e : Evr) : e.liveFlags < 8 ∧ (e.liveFlags % 2 = 1 ↔ e.restoring = true ∨ e.refill ≠ [] ∨ e.testing = true) ∧
    (e.liveFlags % 2 = 0 → e.liveFlags = 0) := by
  unfold Evr.liveFlags
  cases e.restoring <;> cases e.testing <;> cases e.refill <;> simp

theorem u_windowHead (s : State) {l : List (Nat × List Byte)} (hl : l.length ≤ 16) : u (windowHead s l) 20 1 = l.length ∧
    u (windowHead s l) 12 4 = s.evr.newest % 2 ^ 32 ∧
    (bit (u (windowHead s l) 21 1) 0 = false → u (windowHead s l) 8 4 = u (windowHead s l) 12 4) ∧
    bit (u (windowHead s l) 21 1) 0 = (s.evr.restoring || !s.evr.refill.isEmpty || s.evr.testing) := by
  obtain ⟨hlt, hlive, hzero⟩ := liveFlags_lt s.evr
  have hflags : u (windowHead s l) 21 1 = s.evr.liveFlags + 8 * b2n s.evr.degraded.isSome := by
    unfold windowHead
    simp (disch := decide) only [u_le_zero, u_le_skip, Nat.reduceSub]
    have := b2n_le_one s.evr.degraded.isSome
    omega
  have hbit : bit (u (windowHead s l) 21 1) 0 = decide (s.evr.liveFlags % 2 = 1) := by
    rw [hflags]
    simp only [bit]
    congr 1
    simp
    omega
  have hnewest : u (windowHead s l) 12 4 = s.evr.newest % 2 ^ 32 := by
    unfold windowHead
    simp (disch := decide) only [u_le_zero, u_le_skip, Nat.reduceSub]
    norm_num
  refine ⟨?_, hnewest, fun h => ?_, ?_⟩
  · unfold windowHead
    simp (disch := decide) only [u_le_zero, u_le_skip, Nat.reduceSub]
    omega
  · rw [hbit] at h
    have hnone : s.evr.liveFlags = 0 := hzero (by simpa using h)
    rw [hnewest]
    unfold windowHead State.fenceStart
    simp (disch := decide) only [u_le_zero, u_le_skip, Nat.reduceSub]
    rw [if_neg (by simp [hnone])]
    norm_num
  · rw [hbit, Bool.eq_iff_iff]
    simp [hlive, or_assoc]

/-! ### The status and the extremes (R443) -/

/-- The three counts of a status record that the reads of this file name, and what follows them. -/
theorem evrStatus_eq (s : State) : s.evrStatus = le 1 s.evrState ++ (le 1 s.evr.liveFlags ++ (le 1 s.evr.retired ++ (le 1 s.quantsOn ++
    (le 4 s.evr.newest ++ (le 4 (oldestOf s.shownRecords) ++ (le 4 (foundOf s.shownRecords) ++ (le 4 s.evr.defers ++ (le 4 s.evr.lost ++
      (le 4 s.evr.queue.length ++ (zeros 4 ++ (le 8 (s.evr.degraded.getD timeUnknown) ++ zeros 24))))))))))) := by
  simp only [State.evrStatus, List.append_assoc]

theorem u_evrStatus (s : State) : s.evrStatus.length = 64 ∧ u s.evrStatus 4 4 = s.evr.newest % 2 ^ 32 ∧
    u s.evrStatus 16 4 = s.evr.defers % 2 ^ 32 ∧ u s.evrStatus 20 4 = s.evr.lost % 2 ^ 32 ∧
    u s.evrStatus 24 4 = s.evr.queue.length % 2 ^ 32 ∧
    u s.evrStatus 0 1 = (if s.evr.degraded.isSome then 2 else if s.quantsOn = 0 then 0 else 1) := by
  have hstate : s.evrState % 256 = s.evrState := by
    unfold State.evrState
    split
    · rfl
    · split <;> rfl
  rw [evrStatus_eq]
  refine ⟨by simp only [List.length_append, le_length, zeros, List.length_replicate], ?_, ?_, ?_, ?_, ?_⟩
  case refine_5 => exact (u_le_zero ..).trans hstate
  all_goals
    simp (disch := decide) only [u_le_zero, u_le_skip, Nat.reduceSub]
    norm_num

/-- The 24 bytes of a quantity's extremes. -/
def extBytes (e : Ext) : List Byte := leS 4 e.min ++ leS 4 e.max ++ le 8 e.tMin ++ le 8 e.tMax

theorem extBytes_length (e : Ext) : (extBytes e).length = 24 := by simp [extBytes, leS]

theorem extremesTable_eq (s : State) : s.extremesTable = (List.range 128).flatMap (fun i => extBytes (s.extremesOf i)) := rfl

theorem u_extremesTable (s : State) : s.extremesTable.length = 3072 ∧
    ∀ i, i < 128 → u s.extremesTable (24 * i + 8) 8 = (s.extremesOf i).tMin % 2 ^ 64 := by
  rw [extremesTable_eq]
  refine ⟨?_, fun i hi => ?_⟩
  · rw [flatMap_length_const _ _ 24 fun i _ => extBytes_length _]
    rw [List.length_range]
  · rw [u_flatMap (fun i _ => extBytes_length (s.extremesOf i)) (x := i) (List.getElem?_range hi) (by decide)]
    simp only [extBytes, leS, List.append_assoc]
    simp (disch := decide) only [u_le_zero, u_le_skip, Nat.reduceSub]
    norm_num

/-- Settles O26: a window holds the records that the tiles hold; a tile that fails its check is retired. -/
theorem recorderCommands : Obligations.RecorderCommands := by
  unfold Obligations.RecorderCommands
  refine ⟨?window, ?status, ?kind, ?extremes⟩
  case window =>
    intro q bad s n at_ l h hn h1 h16 hlen h75 hf h31 hbusy hat hl
    have hps : ∀ p ∈ [(decide (32 + 256 * bits (sd q 7) 4 0 ≤ sd q 4), 4, 0), (decide (1 ≤ bits (sd q 7) 4 0) && decide (bits (sd q 7) 4 0 ≤ 16), 7, 0),
        (bits (sd q 7) 7 5 == 0, 7, 5), (decide (bits (sd q 7) 15 8 < 128) || bits (sd q 7) 15 8 == 0xFF, 7, 8), (bits (sd q 7) 31 16 == 0, 7, 16)],
        p.1 = true := by
      rcases hf with hf | hf <;> simp [hn, h1, h16, hlen, h75, hf, h31]
    have hserve : windowRead q bad (s.start.accept q) = (if at_.isEmpty then (s.start.accept q).done q stDONE_NOTE 0
        else match l.find? (fun x => bad.contains (recordTile x.1)) with
          | some x => ((s.start.accept q).retireRecorder consEvr (recordTile x.1)).done q stTILE_CHECK (recordTile x.1)
          | none => if bad.contains windowTile && !(s.start.accept q).tmf.oos.contains windowTile then
              ((s.start.accept q).retireRecorder consHqe windowTile).done q stTILE_CHECK windowTile
            else ({ s.start.accept q with free := (s.start.accept q).free + 3 } : State).replyDone q (windowBytes (s.start.accept q) l) l.length) := by
      have hfwd : ((s.start.accept q).hqe.fwd.filter (fun w => w.op == 0x80)).length ≤ 16 := by
        have := acceptIn_filter_length (q := q) (p := fun op => op == 0x80) s.hqe.fwd
        change ((acceptIn q s.hqe.fwd).filter _).length ≤ 16
        omega
      unfold windowRead
      dsimp only
      rw [if_neg (by omega), hl, ← hn, hat]
      rfl
    have hllen : l.length ≤ 16 := by
      rw [hl]
      exact (List.length_take_le ..).trans h16
    refine ⟨fun hne hgood hwin => answers_taken rfl h hps ?_, fun hnone => answers_taken rfl h hps ?_, fun x r hx hbad => answers_taken rfl h hps ?_⟩
    all_goals rw [hserve]
    · have hfind : l.find? (fun x => bad.contains (recordTile x.1)) = none := by simpa using hgood
      rw [if_neg (by simpa using hne), hfind]
      dsimp only
      rw [if_neg (by simpa [windowTile] using fun hc => absurd hc hwin), windowBytes_eq]
      obtain ⟨hc, hr, hk⟩ := replyDone_kept (q := q) (r := l.length) (bytes := windowHead (s.start.accept q) l ++ l.flatMap Prod.snd) h.2.1
        (s1 := { s.start.accept q with free := (s.start.accept q).free + 3 }) rfl rfl
      refine ⟨windowHead (s.start.accept q) l, windowHead_length .., hc, hr, hk, ?_, u_windowHead (s.start.accept q) hllen⟩
      have hfree : (({ s.start.accept q with free := (s.start.accept q).free + 3 } : State).replyDone q
        (windowHead (s.start.accept q) l ++ l.flatMap Prod.snd) l.length).free = s.free + 3 := replyDone_part (π := .free) (by simp) ..
      refine (replyDone_frame ..).trans ?_
      rw [hfree]
      rfl
    · rw [if_pos (by simp [hnone])]
      exact done_onlyCompletes h.2.1
    · have hne : at_.isEmpty = false := by
        cases at_ with
        | nil => simp [hl] at hx
        | cons a b => rfl
      have hfind : l.find? (fun x => bad.contains (recordTile x.1)) = some x := by simp [hx, hbad]
      rw [hne, if_neg (by decide), hfind]
      dsimp only
      obtain ⟨hflash, -, hrefill⟩ := retireRecorder_kept consEvr (recordTile x.1) (s.start.accept q)
      have hout := retireRecorder_noHostWrite consEvr (recordTile x.1) (s.start.accept q)
      have hready : ((s.start.accept q).retireRecorder consEvr (recordTile x.1)).hqe.ready = s.hqe.ready :=
        retireRecorder_part (π := .ready) (by simp) ..
      have hfwd : ((s.start.accept q).retireRecorder consEvr (recordTile x.1)).hqe.fwd = (s.start.accept q).hqe.fwd :=
        retireRecorder_part (π := .fwd) (by simp) ..
      refine ⟨State.done_completed h.2.1 hfwd hready, ?_, ?_, ?_⟩
      · rw [State.done_out, List.all_eq_true]
        intro o ho
        split
        · exact absurd (hout.mem _ _ _ ho) (List.not_mem_nil)
        · rfl
      · simpa using hrefill
      · simpa using hflash
  case status =>
    intro q s h hk hlen
    refine answers_taken rfl h (by simp [hk, hlen, show bits 0 0 0 = 0 from rfl]) ?_
    obtain ⟨hlength, hfields⟩ := u_evrStatus s
    rw [if_pos (by rw [hk]; rfl)]
    exact ⟨s.evrStatus, hlength, replyDone_readOnly h.2.1, hfields⟩
  case kind =>
    intro q s h hk hlen
    have hbits : (if bits (sd q 6) 0 0 = 0 then 64 else 3072) ≤ sd q 4 := by split <;> omega
    have hbad : firstBad [(decide ((if bits (sd q 6) 0 0 = 0 then 64 else 3072) ≤ sd q 4), 4, 0), (decide (sd q 6 < 2), 6, 0)] = some (badField 6 0) := by
      have hnot : decide (sd q 6 < 2) = false := decide_eq_false (Nat.not_lt.mpr hk)
      rw [decide_eq_true hbits, hnot]
      rfl
    exact answers_badParam rfl h hbad
  case extremes =>
    intro q s h hk hlen
    refine answers_taken rfl h (by simp [hk, hlen, show bits 1 0 0 = 1 from rfl]) ?_
    obtain ⟨hlength, hfields⟩ := u_extremesTable s
    rw [if_neg (by rw [hk]; decide)]
    exact ⟨s.extremesTable, hlength, replyDone_readOnly h.2.1, hfields⟩

end Sys2Proof.Machine
end
section
/-! PROOFS. The recorder: samples, closes, records -/

namespace Sys2Proof.Machine

open Sys2Proof

/-! ### One quantity changed -/

theorem onQuant_quant {i : Nat} {s : State} (f : Quant → Quant) (h : i < s.evr.qs.length) : (s.onQuant i f).quant i = f (s.quant i) :=
  getD_upd_self f _ h

theorem onQuant_quant_of_ne {i j : Nat} (h : j ≠ i) (s : State) (f : Quant → Quant) : (s.onQuant i f).quant j = s.quant j :=
  getD_upd_of_ne h ..

/-! ### A sample in a half (R429) -/

theorem binOf_eq {r : QuantRec} {x : Int} (hw : 0 < r.width) : binOf r x =
    (if x < r.lo + r.width then 0 else if r.lo + 31 * r.width ≤ x then 31 else ((x - r.lo) / r.width).toNat) := by
  unfold binOf
  dsimp only
  by_cases h0 : x < r.lo + r.width
  · rw [if_pos (by omega), if_pos h0]
  · rw [if_neg (by omega), if_neg h0]
    obtain ⟨d, hd⟩ := Int.eq_ofNat_of_zero_le (show 0 ≤ x - r.lo by omega)
    rw [hd, Int.toNat_natCast, show ((d : Int) / (r.width : Int)).toNat = d / r.width by rw [← Int.natCast_ediv, Int.toNat_natCast]]
    by_cases h31 : r.lo + 31 * r.width ≤ x
    · rw [if_pos h31]
      have : 31 ≤ d / r.width := (Nat.le_div_iff_mul_le hw).mpr (by omega)
      omega
    · rw [if_neg h31]
      have : d / r.width < 31 := (Nat.div_lt_iff_lt_mul hw).mpr (by omega)
      omega

theorem binOf_lt (r : QuantRec) (x : Int) : binOf r x < 32 := by
  unfold binOf
  dsimp only
  split <;> omega

theorem take_bins {h : Half} {x : Int} {now : Nat} (hlen : h.bins.length = 32) (hw : 0 < h.cfg.width) : ∀ b, b = (if x < h.cfg.lo + h.cfg.width then 0
      else if h.cfg.lo + 31 * h.cfg.width ≤ x then 31 else ((x - h.cfg.lo) / h.cfg.width).toNat) →
    (h.take x now).bins.getD b 0 = min (h.bins.getD b 0 + 1) 0xFFFFFFFF ∧ (∀ c, c ≠ b → (h.take x now).bins.getD c 0 = h.bins.getD c 0) := by
  intro b hb
  rw [← binOf_eq hw] at hb
  subst hb
  exact ⟨getD_upd_self incSat 0 (by rw [hlen]; exact binOf_lt ..), fun c hc => getD_upd_of_ne hc ..⟩

theorem take_min (h : Half) (x : Int) (now : Nat) :
    (h.count ≠ 0 → h.min ≤ x → (h.take x now).min = h.min ∧ (h.take x now).tMin = h.tMin) ∧
    ((h.count = 0 ∨ x < h.min) → (h.take x now).min = x ∧ (h.take x now).tMin = now) := by
  unfold Half.take
  dsimp only
  refine ⟨fun h0 hx => ?_, fun h0 => ?_⟩
  · rw [if_neg (by omega), if_neg (by omega)]
    exact ⟨rfl, rfl⟩
  · rw [if_pos (by omega), if_pos (by omega)]
    exact ⟨rfl, rfl⟩

theorem take_max (h : Half) (x : Int) (now : Nat) :
    (h.count ≠ 0 → x ≤ h.max → (h.take x now).max = h.max ∧ (h.take x now).tMax = h.tMax) ∧
    ((h.count = 0 ∨ h.max < x) → (h.take x now).max = x ∧ (h.take x now).tMax = now) := by
  unfold Half.take
  dsimp only
  refine ⟨fun h0 hx => ?_, fun h0 => ?_⟩
  · rw [if_neg (by omega), if_neg (by omega)]
    exact ⟨rfl, rfl⟩
  · rw [if_pos (by omega), if_pos (by omega)]
    exact ⟨rfl, rfl⟩

theorem Ext.take_none (x : Int) (now : Nat) : Ext.none.take x now = ⟨x, x, now, now⟩ := by
  unfold Ext.take
  simp [Ext.none, timeUnknown]

section sample
variable {i : Nat} {s : State} (hup : s.siteUp = true) (hi : i < 128) (hen : (s.conf.quant i).enable = true)
include hup hi hen

theorem evrSample_taken {x : Int} {h : Half} (hx : s.sourceValue (s.conf.quant i) = some x) (hh : (s.quant i).live = some h) :
    evrSample i s = s.onQuant i (fun q => { q with live := q.live.map (Half.take x s.evrNow.1) }) := by
  unfold evrSample
  dsimp only
  rw [if_neg (by simp [hup, hen, hi]), hx, hh]

theorem evrSample_missing {h : Half} (hx : s.sourceValue (s.conf.quant i) = none) (hh : (s.quant i).live = some h) :
    evrSample i s = s.onQuant i (fun q => { q with live := q.live.map (fun h => { h with missing := incSat h.missing }) }) := by
  unfold evrSample
  dsimp only
  rw [if_neg (by simp [hup, hen, hi]), hx, hh]

theorem evrSample_lost {x : Int} (hx : s.sourceValue (s.conf.quant i) = some x) (hh : (s.quant i).live = none) :
    evrSample i s = (if s.evr.degraded.isSome then
      (s.onEvr (fun e => { e with lost := incSat e.lost })).onQuant i (fun q => { q with ext := q.ext.take x s.evrNow.1 })
      else s.onEvr (fun e => { e with lost := incSat e.lost })) := by
  unfold evrSample
  dsimp only
  rw [if_neg (by simp [hup, hen, hi]), hx, hh]

end sample

/-- A sample goes to the live half, or is missing or lost. -/
theorem recorderSamples : Claim.RecorderSamples := by
  unfold Claim.RecorderSamples
  refine ⟨?taken, ?missing, ?lost, ?degraded⟩
  case taken =>
    intro i x h s hup hi hlen hen hx hh hbins hw
    refine ⟨_, congrArg Host.Outcome.next (evrSample_taken (s := s.start) hup hi hen hx hh), h.take x s.evrNow.1, ?_, rfl, rfl, rfl, rfl,
      take_bins hbins hw, (take_min ..).1, (take_min ..).2, (take_max ..).1, (take_max ..).2, fun j hj => onQuant_quant_of_ne hj .., rfl⟩
    rw [onQuant_quant (s := s.start) _ hlen]
    exact congrArg (Option.map _) hh
  case missing =>
    intro i h s hup hi hlen hen hx hh
    refine ⟨_, congrArg Host.Outcome.next (evrSample_missing (s := s.start) hup hi hen hx hh), ?_, fun j hj => onQuant_quant_of_ne hj .., rfl⟩
    rw [onQuant_quant (s := s.start) _ hlen]
    exact congrArg (Option.map _) hh
  case lost =>
    intro i x s hup hi hen hx hh hdeg
    exact ⟨_, congrArg Host.Outcome.next ((evrSample_lost (s := s.start) hup hi hen hx hh).trans (if_neg (by
      rw [show s.start.evr.degraded = s.evr.degraded from rfl, hdeg]; decide))), rfl⟩
  case degraded =>
    intro i x s hup hi hlen hen hx hh hdeg
    refine ⟨_, congrArg Host.Outcome.next ((evrSample_lost (s := s.start) hup hi hen hx hh).trans (if_pos hdeg)), rfl, fun hext => ?_,
      fun j hj => onQuant_quant_of_ne hj ..⟩
    rw [onQuant_quant (s := s.start.onEvr (fun e => { e with lost := incSat e.lost })) _ hlen]
    exact (congrArg (fun e : Ext => e.take x s.evrNow.1) hext).trans (Ext.take_none ..)

/-! ### Closes (R430, R431) -/

/-- A close that none of its instant follows goes to the end of the queue. -/
theorem enqueue_append {c : Closed} {e : Evr} (h : ∀ d ∈ e.queue, d.end_ = c.end_ → d.q ≤ c.q) : (e.enqueue c).queue = e.queue ++ [c] := by
  have hlate : e.queue.reverse.takeWhile (fun x => x.end_ == c.end_ && decide (c.q < x.q)) = [] := by
    cases hr : e.queue.reverse with
    | nil => rfl
    | cons d r =>
      have hd := h d (List.mem_reverse.mp (by rw [hr]; exact List.mem_cons_self ..))
      rw [List.takeWhile_cons_of_neg]
      simpa using hd
  unfold Evr.enqueue
  dsimp only
  rw [hlate, List.take_of_length_le (by simp), List.drop_eq_nil_of_le (by simp)]

theorem enqueue_mem (c : Closed) (e : Evr) : c ∈ (e.enqueue c).queue ∧ (e.enqueue c).queue.length = e.queue.length + 1 := by
  unfold Evr.enqueue
  dsimp only
  refine ⟨by simp, ?_⟩
  rw [List.length_append, List.length_cons, List.length_take, List.length_drop]
  omega

/-- A close is due at a multiple of the period after the half's start (R428). -/
theorem closeDue_spec {q : Quant} {h : Half} {now b : Nat} (hh : q.live = some h) (hb : q.closeDue now = some b) :
    b % (h.cfg.period * 60000000) = 0 ∧ h.start < b ∧ b ≤ now ∧ now < b + 2 := by
  unfold Quant.closeDue at hb
  rw [hh] at hb
  dsimp only at hb
  split at hb
  next hdue =>
    obtain rfl := Option.some.inj hb
    exact ⟨Nat.mod_eq_zero_of_dvd (Nat.dvd_sub_mod now), by omega, Nat.sub_le .., hdue.2⟩
  · exact absurd hb nofun

theorem freeze_eq {i : Nat} {s : State} {h : Half} (hh : (s.quant i).live = some h) (extra : Nat) (next : Option Half) (now : Nat) :
    s.freeze i extra next now = (s.onEvr (Evr.enqueue ⟨i, h, now, h.flags + extra, true⟩)).onQuant i (fun q =>
      { q with live := next, pend := none }) := by
  unfold State.freeze
  rw [hh]

theorem periodCloseEvr_of_none {i : Nat} {s : State} (h : (s.quant i).closeDue s.evrNow.1 = none) : periodCloseEvr i s = s := by
  unfold periodCloseEvr
  dsimp only
  rw [h]

theorem periodCloseEvr_of_some {i b : Nat} {s : State} (hup : s.siteUp = true) (h : (s.quant i).closeDue s.evrNow.1 = some b) :
    periodCloseEvr i s = (if s.evr.frozen i then s.deferClose i b
      else s.freeze i 0 (some (Half.new (s.conf.quant i) b s.evrNow.2 false)) b) := by
  unfold periodCloseEvr
  dsimp only
  rw [h]
  exact if_neg (by simp [hup])

/-- The flags that a half gives leave the bits of SHORT, of INTERRUPTED and of CONFIG free. -/
theorem flags_bits (h : Half) : bit (h.flags + 0) 0 = false ∧ bit (h.flags + 1) 0 = true ∧ bit (h.flags + 32 + 1) 0 = true ∧
    bit (h.flags + 32 + 1) 5 = true := by
  unfold Half.flags
  cases h.short <;> cases h.unk <;> decide

/-! ### The page of a record (R434, R435) -/

theorem recordOf_eq (seq : Nat) (c : Closed) : ∃ mid b, recordOf seq c = b ++ le 4 (crc32c b) ∧ b.length = 252 ∧
    b = le 4 seq ++ (le 1 c.q ++ (le 1 c.flags ++ (le 2 c.h.cfg.period ++ (le 8 c.h.start ++ (le 8 c.end_ ++ (le 4 c.h.count ++ mid)))))) :=
  ⟨le 4 c.h.missing ++ leS 8 c.h.sum ++ leS 4 c.h.min ++ leS 4 c.h.max ++ le 8 c.h.tMin ++ le 8 c.h.tMax ++ padTo 128 (c.h.bins.flatMap (le 4)) ++
    le 1 c.h.cfg.kind ++ [0] ++ le 2 c.h.cfg.index ++ leS 4 c.h.cfg.lo ++ le 4 c.h.cfg.width ++ zeros 48, _, rfl, by
      simp [leS, zeros], by simp only [List.append_assoc]⟩

theorem u_recordOf (seq : Nat) (c : Closed) : (recordOf seq c).length = 256 ∧ u (recordOf seq c) 0 4 = seq % 2 ^ 32 ∧
    u (recordOf seq c) 4 1 = c.q % 256 ∧ u (recordOf seq c) 24 4 = c.h.count % 2 ^ 32 ∧
    u (recordOf seq c) 252 4 = crc32c ((recordOf seq c).take 252) % 2 ^ 32 := by
  obtain ⟨mid, b, hb, hlen, hfields⟩ := recordOf_eq seq c
  rw [hb]
  refine ⟨by simp [hlen], ?_, ?_, ?_, ?_⟩
  case refine_4 =>
    rw [u_append_right (by omega), hlen, List.take_left' hlen]
    exact u_le_last ..
  all_goals
    rw [u_append_left (by omega), hfields]
    simp (disch := decide) only [u_le_zero, u_le_skip, Nat.reduceSub]
    norm_num

theorem recordTile_bounds (n : Nat) : (n < 512 → 0x0440 ≤ recordTile n ∧ recordTile n ≤ 0x045F) ∧
    (512 ≤ n → 0x0460 ≤ recordTile n ∧ recordTile n ≤ 0x065F) := by
  unfold recordTile
  refine ⟨fun h => ?_, fun h => ?_⟩
  · rw [if_pos h]
    omega
  · rw [if_neg (by omega)]
    omega

section recordWrite
variable {c : Closed} {rest : List Closed} {s : State} (hq : s.evr.queue = c :: rest) (hup : s.siteUp = true) (hdeg : s.evr.degraded = none)
  (hrest : s.evr.restoring = false) (hw : s.evr.writing = none) (hst : s.sup.staging = none) (href : recordTile s.evr.next ∉ s.evr.refill)
include hq hup hdeg hrest hw hst href

theorem recordWrite_eq (bad : Bool) : recordWrite bad s =
    if bad && !s.tmf.oos.contains (recordTile s.evr.next) then s.retireRecorder consEvr (recordTile s.evr.next)
    else s.onEvr (fun e => { e with writing := some (e.next, recordOf e.next c), newest := e.next, next := e.next + 1 }) := by
  unfold recordWrite
  dsimp only
  rw [hq]
  dsimp only
  rw [if_neg (by simp [hup, hdeg, hrest, hw, State.flashFree, hst]), if_neg (by simpa using href)]

end recordWrite

/-- While the flash is being staged no record is written (R434). -/
theorem recordWrite_of_staging {s : State} (h : s.sup.staging.isSome = true) (bad : Bool) : recordWrite bad s = s := by
  unfold recordWrite
  dsimp only
  split
  · rfl
  · rw [if_pos]
    simp [State.flashFree, Option.isNone_eq_false_iff.mpr h]

theorem recordWrites_retired {s : State} (c : Nat) (hdeg : s.evr.degraded = none) (hw : s.evr.writing = none) (idx : Nat) :
    (s.retireRecorder c idx).evr.writing = none ∧
    (s.evr.retired < 7 → (s.retireRecorder c idx).evr.queue = s.evr.queue ∧ (s.retireRecorder c idx).evr.degraded = none ∧
      (s.retireRecorder c idx).evr.qs = s.evr.qs) ∧
    (7 ≤ s.evr.retired → (s.retireRecorder c idx).evr.degraded = some s.sTime ∧ (s.retireRecorder c idx).evr.queue = [] ∧
      (∀ x ∈ (s.retireRecorder c idx).evr.qs, x.live = none)) := by
  obtain ⟨hlow, hhigh⟩ := retireRecorder_evr c idx s
  by_cases h7 : s.evr.retired < 7
  · rw [hlow (.inr h7)]
    exact ⟨hw, fun _ => ⟨rfl, hdeg, rfl⟩, fun h => absurd h (by omega)⟩
  · obtain ⟨_, _, _, he⟩ := hhigh hdeg (by omega)
    rw [he]
    refine ⟨rfl, fun h => absurd h h7, fun _ => ⟨rfl, rfl, fun x hx => ?_⟩⟩
    obtain ⟨y, -, rfl⟩ := List.mem_map.mp hx
    rfl

/-! ### The page is programmed (R431, R434) -/

theorem programmed_spec (r : Nat × List Byte) (e : Evr) : (e.programmed r).getLast? = some r ∧
    (∀ x ∈ e.flash, x.1 < 512 → x.1 ≤ r.1 → x ∈ e.programmed r) ∧
    (r.1 % 16 = 0 → ∀ x ∈ e.programmed r, x = r ∨ recordTile x.1 ≠ recordTile (r.1 + 16)) := by
  unfold Evr.programmed
  dsimp only
  refine ⟨List.getLast?_concat .., fun x hx h512 hle => ?_, fun h16 x hx => ?_⟩
  · refine List.mem_append.mpr (.inl (List.mem_filter.mpr ⟨hx, ?_⟩))
    have hover : overwritten r.1 x.1 = false := by simp [overwritten]; omega
    have hnext : recordTile x.1 ≠ recordTile ((r.1 / 16 + 1) * 16) := by
      unfold recordTile
      rw [if_pos h512]
      split <;> omega
    simp [hover, hnext]
  · rcases List.mem_append.mp hx with hx | hx
    · obtain ⟨-, hp⟩ := List.mem_filter.mp hx
      right
      intro heq
      rw [heq, show (r.1 / 16 + 1) * 16 = r.1 + 16 by omega, h16] at hp
      simp at hp
    · exact .inl (List.mem_singleton.mp hx)

/-- The state of a page that has been programmed, before a deferred close. -/
def State.recordDone (r : Nat × List Byte) (rest : List Closed) (s : State) : State := s.onEvr (fun e => { e with
  writing := none, queue := rest, flash := e.programmed r
  held := (e.held.filter (fun x => !overwritten r.1 x.1)) ++ [r] })

theorem recordWriteDone_eq {r : Nat × List Byte} {c : Closed} {rest : List Closed} {s : State} (hw : s.evr.writing = some r)
    (hq : s.evr.queue = c :: rest) : recordWriteDone s = (s.recordDone r rest).deferredClose c.q := by
  unfold recordWriteDone
  rw [hw, hq]
  rfl

/-- A deferred close changes the queue and the quantity alone. -/
theorem deferredClose_evr (i : Nat) (s : State) : ∃ qs queue, (s.deferredClose i).evr = { s.evr with qs := qs, queue := queue } := by
  unfold State.deferredClose
  dsimp only
  split
  · exact ⟨_, _, rfl⟩
  · split
    · exact ⟨_, _, rfl⟩
    · split
      · unfold State.freeze
        split
        · exact ⟨_, _, rfl⟩
        · exact ⟨_, _, rfl⟩
      · exact ⟨_, _, rfl⟩

theorem deferredClose_none {i : Nat} {s : State} (hp : (s.quant i).pend = none) (hl : (s.quant i).late = none) : s.deferredClose i = s := by
  unfold State.deferredClose
  dsimp only
  split
  · rfl
  · rw [hl]
    dsimp only
    rw [hp]
    exact if_neg (by decide)

theorem frozen_false {e : Evr} {i : Nat} (h : ∀ d ∈ e.queue, d.q ≠ i) : e.frozen i = false := by
  unfold Evr.frozen
  rw [List.any_eq_false]
  intro d hd
  simp [h d hd]

section deferredClose
variable {i : Nat} {s : State} (hi : i < s.evr.qs.length) (hfree : ∀ d ∈ s.evr.queue, d.q ≠ i) (hlast : ∀ d ∈ s.evr.queue, d.end_ = s.evrNow.1 → d.q ≤ i)
include hi hfree hlast

theorem deferredClose_pend {h : Half} {b : Nat} (hp : (s.quant i).pend = some b) (hl : (s.quant i).late = none) (hh : (s.quant i).live = some h) :
    (s.deferredClose i).evr.queue = s.evr.queue ++ [⟨i, h, s.evrNow.1, h.flags + 1, true⟩] ∧
    (s.deferredClose i).quant i = { s.quant i with live := some (Half.new (s.conf.quant i) s.evrNow.1 s.evrNow.2 true), pend := none } := by
  have he : s.deferredClose i = s.freeze i 1 (some (Half.new (s.conf.quant i) s.evrNow.1 s.evrNow.2 true)) s.evrNow.1 := by
    unfold State.deferredClose
    dsimp only
    rw [if_neg (by rw [frozen_false hfree]; decide), hl]
    dsimp only
    exact if_pos (by rw [hp]; rfl)
  rw [he, freeze_eq hh]
  exact ⟨enqueue_append hlast, onQuant_quant (s := s.onEvr _) _ hi⟩

theorem deferredClose_late {h : Half} {extra : Nat} (hl : (s.quant i).late = some (h, extra)) :
    (s.deferredClose i).evr.queue = s.evr.queue ++ [⟨i, h, s.evrNow.1, h.flags + extra + 1, true⟩] ∧
    ((s.deferredClose i).quant i).late = none := by
  have he : s.deferredClose i = (s.onEvr (Evr.enqueue ⟨i, h, s.evrNow.1, h.flags + extra + 1, true⟩)).onQuant i (fun q =>
      { q with late := none, susp := q.susp && !q.due, due := false
               live := if q.due then some (Half.new (s.conf.quant i) s.evrNow.1 s.evrNow.2 true) else none }) := by
    unfold State.deferredClose
    dsimp only
    rw [if_neg (by rw [frozen_false hfree]; decide), hl]
  rw [he]
  exact ⟨enqueue_append hlast, congrArg Quant.late (onQuant_quant (s := s.onEvr _) _ hi)⟩

end deferredClose
/-! ### The restoration and the refill (R438, R439, R441) -/

/-- The seq behind the last record of the flash (R438). -/
def nextSeq (flash : List (Nat × List Byte)) : Nat := match flash.getLast? with | none => 0 | some x => x.1 + 1

theorem nextSeq_of_last {flash : List (Nat × List Byte)} {x : Nat × List Byte} (h : flash.getLast? = some x) : nextSeq flash = x.1 + 1 := by
  unfold nextSeq
  rw [h]

/-- What the restoration brings: the records that are not torn, the next seq, and the interrupted records. -/
def State.restored (torn : List Nat) (s : State) : State :=
  let pages := s.evr.flash ++ s.evr.torn.toList
  let flash := pages.filter (fun x => !torn.contains x.1)
  let next := nextSeq flash
  let cut := s.evr.cutOff.map (fun (x : Nat × QuantRec) =>
    (⟨x.1, Half.new x.2 (lastEnd flash x.1) s.evrNow.2 false, s.evrNow.1, 4 + 16 + 8 * b2n s.evrNow.2, false⟩ : Closed))
  (((pages.filter (fun x => torn.contains x.1)).map Prod.fst).foldl (fun s n => s.faultRec 4 0x0C03 n 0 0) s).onEvr (fun e => { e with
    restoring := false, flash := flash, held := flash, torn := none, next := next, newest := next - 1
    queue := if e.degraded.isSome then [] else e.intr ++ cut ++ e.queue, intr := [], cutOff := [] })

theorem evrRestoreDone_eq {s : State} (hr : s.evr.restoring = true) (ht : s.evr.testing = false) (htmf : s.tmf.ready = true) (torn : List Nat) :
    evrRestoreDone torn s = s.restored torn := by
  unfold evrRestoreDone
  rw [if_neg (by simp [hr, htmf])]
  dsimp only
  rw [if_neg (by simp [ht])]
  rfl

/-- Fault records keep every part of the state but the supervisor's. -/
theorem tornRecords_part {π : Part} (hp : π ∉ [Part.faults]) (l : List Nat) (s : State) :
    part π (l.foldl (fun s n => s.faultRec 4 0x0C03 n 0 0) s) = part π s :=
  foldl_kept (φ := part π) (fun u n => faultRec_part hp 4 0x0C03 n 0 0 u) l s

/-- What the records of a restoration are about. -/
theorem restored_evr (torn : List Nat) (s : State) : ∃ cut, (s.restored torn).evr = { s.evr with
      restoring := false, flash := (s.evr.flash ++ s.evr.torn.toList).filter (fun x => !torn.contains x.1)
      held := (s.evr.flash ++ s.evr.torn.toList).filter (fun x => !torn.contains x.1), torn := none
      next := nextSeq ((s.evr.flash ++ s.evr.torn.toList).filter (fun x => !torn.contains x.1))
      newest := (s.restored torn).evr.newest
      queue := if s.evr.degraded.isSome then [] else s.evr.intr ++ cut ++ s.evr.queue, intr := [], cutOff := [] } ∧
    cut.length = s.evr.cutOff.length ∧
    ∀ x ∈ s.evr.cutOff, ∃ c ∈ cut, c.q = x.1 ∧ c.h.cfg = x.2 ∧ c.h.count = 0 ∧ c.h.min = noExtreme ∧ c.end_ = s.evrNow.1 ∧ bit c.flags 2 = true := by
  have hbit : bit (4 + 16 + 8 * b2n s.evrNow.2) 2 = true := by cases s.evrNow.2 <;> decide
  have hevr := tornRecords_part (π := .evr) (by simp) (((s.evr.flash ++ s.evr.torn.toList).filter (fun x => torn.contains x.1)).map Prod.fst) s
  unfold State.restored State.onEvr
  dsimp only [part] at hevr ⊢
  rw [hevr]
  exact ⟨_, rfl, List.length_map .., fun x hx => ⟨_, List.mem_map.mpr ⟨x, hx, rfl⟩, rfl, rfl, rfl, rfl, rfl, hbit⟩⟩

theorem evrRefillDone_evr {idx : Nat} {s : State} (h : idx ∈ s.evr.refill) : (evrRefillDone idx s).evr = { s.evr with
    refill := s.evr.refill.filter (fun i => i != idx)
    held := sortBy (fun a b => decide (a.1 < b.1)) (s.evr.held.filter (fun x => recordTile x.1 != idx) ++
      s.evr.flash.filter (fun x => recordTile x.1 == idx))
    lastEvent := some (0xFF, 0x11, idx % 256) } := by
  unfold evrRefillDone
  rw [if_neg (by simpa using h), evrEvent_evr]
  rfl

/-- Closes, records, the restoration, the refill and the extremes kept in DEGRADED. -/
theorem recorderWrites : Claim.RecorderWrites := by
  unfold Claim.RecorderWrites
  refine ⟨fun q h now b => closeDue_spec, ?close, ?noClose, ?write, ?staging, recordTile_bounds, ?done, ?restore, ?refill, ?extremes⟩
  case close =>
    intro i b h s hup hi hh hdue
    have he := periodCloseEvr_of_some (s := s.start) hup hdue
    refine ⟨fun hfree => ?_, fun hfrozen => ?_⟩
    · refine ⟨_, congrArg Host.Outcome.next (he.trans (if_neg (by rw [show s.start.evr = s.evr from rfl, hfree]; decide))), ?_⟩
      rw [freeze_eq (s := s.start) hh]
      have hq := onQuant_quant (s := s.start.onEvr (Evr.enqueue ⟨i, h, b, h.flags + 0, true⟩))
        (fun q => { q with live := some (Half.new (s.start.conf.quant i) b s.start.evrNow.2 false), pend := none }) hi
      obtain ⟨hmem, hlen⟩ := enqueue_mem ⟨i, h, b, h.flags + 0, true⟩ s.evr
      exact ⟨congrArg Quant.live hq, congrArg Quant.pend hq,
        ⟨_, hmem, rfl, rfl, rfl, rfl, (flags_bits h).1, hlen, fun hlast => enqueue_append (c := ⟨i, h, b, h.flags + 0, true⟩) hlast⟩,
        fun j hj => onQuant_quant_of_ne hj .., rfl, rfl⟩
    · refine ⟨_, congrArg Host.Outcome.next (he.trans (if_pos hfrozen)), ?_⟩
      have hq := onQuant_quant (s := s.start.onEvr (fun e => { e with defers := incSat e.defers })) (fun q => { q with pend := some b }) hi
      exact ⟨(congrArg Quant.live hq).trans hh, congrArg Quant.pend hq, rfl, rfl, rfl⟩
  case noClose =>
    intro i s h
    exact ⟨_, congrArg Host.Outcome.next (periodCloseEvr_of_none (s := s.start) h), rfl⟩
  case write =>
    intro c rest s hq hup hdeg hrest hw hst href
    have he := recordWrite_eq (s := s.start) hq hup hdeg hrest hw hst href
    refine ⟨?_, fun hoos => ?_⟩
    · refine ⟨_, congrArg Host.Outcome.next ((he false).trans (if_neg (by simp))), ?_⟩
      exact ⟨⟨_, rfl, u_recordOf _ c⟩, rfl, rfl, rfl, rfl⟩
    · refine ⟨_, congrArg Host.Outcome.next ((he true).trans (if_pos (by simpa using hoos))), ?_⟩
      obtain ⟨hwriting, hlow, hhigh⟩ := recordWrites_retired (s := s.start) consEvr hdeg hw (recordTile s.evr.next)
      obtain ⟨hflash, hnext, hrefill⟩ := retireRecorder_kept consEvr (recordTile s.evr.next) s.start
      exact ⟨hwriting, hnext, hflash, hrefill, hlow, hhigh⟩
  case staging =>
    intro s h
    exact ⟨_, congrArg Host.Outcome.next (recordWrite_of_staging (s := s.start) h false), rfl⟩
  case done =>
    intro r c rest s hw hq hc
    refine ⟨_, congrArg Host.Outcome.next (recordWriteDone_eq (s := s.start) hw hq), ?_⟩
    obtain ⟨qs, queue, hevr⟩ := deferredClose_evr c.q (s.start.recordDone r rest)
    obtain ⟨hlast, hkept, herased⟩ := programmed_spec r s.evr
    have hflash : ((s.start.recordDone r rest).deferredClose c.q).evr.flash = s.evr.programmed r := congrArg Evr.flash hevr
    refine ⟨congrArg Evr.writing hevr, ?_, ?_, ?_, ?_, fun hp hl => ?_, fun h b hp hl hh hfree hlate => ?_, fun h hl hfree hlate => ?_⟩
    · rw [hflash]; exact hlast
    · rw [show ((s.start.recordDone r rest).deferredClose c.q).evr.held = _ from congrArg Evr.held hevr]
      exact List.getLast?_concat ..
    · rw [hflash]; exact hkept
    · rw [hflash]; exact herased
    · rw [deferredClose_none (s := s.start.recordDone r rest) hp hl]
      rfl
    · obtain ⟨hqueue, hquant⟩ := deferredClose_pend (s := s.start.recordDone r rest) hc hfree hlate hp hl hh
      exact ⟨⟨_, hqueue, rfl, rfl, (flags_bits h).2.1, rfl⟩, congrArg Quant.pend hquant, congrArg Quant.live hquant⟩
    · obtain ⟨hqueue, hquant⟩ := deferredClose_late (s := s.start.recordDone r rest) hc hfree hlate hl
      exact ⟨⟨_, hqueue, rfl, rfl, (flags_bits h).2.2.1, (flags_bits h).2.2.2⟩, hquant⟩
  case restore =>
    intro torn s hr ht htmf
    refine ⟨_, congrArg Host.Outcome.next (evrRestoreDone_eq (s := s.start) hr ht htmf torn), ?_⟩
    obtain ⟨cut, hevr, hlen, hcut⟩ := restored_evr torn s.start
    have hframe : s.start.restored torn = { s with evr := (s.start.restored torn).evr, sup := (s.start.restored torn).sup, out := [], cur := none } := by
      refine eq_frameOf [.faults, .evr] (s := s.start) fun π hp => ?_
      obtain ⟨hfaults, hevr⟩ := not_or.mp (mt List.mem_cons.mpr hp)
      exact (onEvr_part hevr _ _).trans (tornRecords_part (by simpa using hfaults) ..)
    generalize s.start.restored torn = t at hevr hframe
    rw [show t.evr.flash = _ from congrArg Evr.flash hevr, show t.evr.next = _ from congrArg Evr.next hevr,
      show t.evr.queue = _ from congrArg Evr.queue hevr]
    refine ⟨congrArg Evr.restoring hevr, congrArg Evr.torn hevr, congrArg Evr.held hevr, rfl, fun x hx => ?_, fun hx => ?_, fun hdeg hcutoff => ?_,
      fun hdeg x hx => ?_, congrArg Evr.intr hevr, congrArg Evr.cutOff hevr, hframe⟩
    · exact nextSeq_of_last hx
    · exact congrArg nextSeq hx
    · have hnil : cut = [] := List.eq_nil_of_length_eq_zero (hlen.trans (by rw [show s.start.evr.cutOff = [] from hcutoff]; rfl))
      rw [show s.start.evr.degraded = none from hdeg, hnil, List.append_nil]
      rfl
    · obtain ⟨c, hc, hfields⟩ := hcut x hx
      refine ⟨c, ?_, hfields⟩
      rw [show s.start.evr.degraded = none from hdeg]
      exact List.mem_append.mpr (.inl (List.mem_append.mpr (.inr hc)))
  case refill =>
    intro idx s h
    refine ⟨_, rfl, ?_⟩
    beta_reduce
    rw [evrRefillDone_evr (s := s.start) h]
    refine ⟨by simp, rfl, rfl, rfl, rfl, rfl, fun x hx hidx => ?_⟩
    refine (sortBy_perm _ _).mem_iff.mpr (List.mem_append.mpr (.inr (List.mem_filter.mpr ⟨hx, ?_⟩)))
    simpa using hidx
  case extremes =>
    intro s hdeg
    have he (b : Bool) (h : s.sup.holdupReady = b) : s.start.saveExtremes = s.start.onEvr (fun e =>
        if b then { e with extSaved := s.evr.qs.map Quant.ext, extNext := none } else { e with extNext := some (s.evr.qs.map Quant.ext) }) := by
      unfold State.saveExtremes State.putExtremes
      rw [show s.start.sup.holdupReady = b from h]
      exact if_pos hdeg
    exact ⟨fun h => ⟨_, congrArg Host.Outcome.next (he true h), rfl⟩, fun h => ⟨_, congrArg Host.Outcome.next (he false h), rfl⟩⟩

/-- Settles O53: each sample goes to its half, each half to a record, and each record to its tile. -/
theorem recorderConduct : Obligations.RecorderConduct := ⟨recorderSamples, recorderWrites⟩

end Sys2Proof.Machine
end
section
/-! PROOFS. The Spire: its slots, and the main die's loss and reset -/

namespace Sys2Proof.Machine

open Sys2Proof

/-! ### Firmware slots -/

theorem onSlot_eq (i : Nat) (f : Slot → Slot) (p : Sup) : p.onSlot i f = { p with slotA := (p.onSlot i f).slotA, slotB := (p.onSlot i f).slotB } := by
  unfold Sup.onSlot
  split <;> rfl

theorem slot_onSlot (i : Nat) (f : Slot → Slot) (p : Sup) : (p.onSlot i f).slot i = f (p.slot i) := by
  unfold Sup.onSlot Sup.slot
  split <;> rfl

theorem slot_onSlot_of_ne {i j : Nat} (h : (i = 0) ≠ (j = 0)) (f : Slot → Slot) (p : Sup) : (p.onSlot i f).slot j = p.slot j := by
  unfold Sup.onSlot Sup.slot
  by_cases hi : i = 0 <;> by_cases hj : j = 0 <;> simp_all

/-- The two slots of the Spire. -/
theorem other_slot (i : Nat) : (i = 0) ≠ (1 - i = 0) := by
  intro h
  by_cases hi : i = 0
  · subst hi
    exact absurd (h.mp rfl) (by decide)
  · exact hi (h.mpr (by omega))

theorem slot_onSlot_other (i : Nat) (f : Slot → Slot) (p : Sup) : (p.onSlot i f).slot (1 - i) = p.slot (1 - i) := slot_onSlot_of_ne (other_slot i) f p

theorem slot_onSlot_other' (i : Nat) (f : Slot → Slot) (p : Sup) : (p.onSlot (1 - i) f).slot i = p.slot i := slot_onSlot_of_ne (other_slot i).symm f p

theorem slotIn_spec {p : Sup} {st : SlotState} {x : Nat} (h : p.slotIn st = some x) : x < 2 ∧ (p.slot x).st = st := by
  unfold Sup.slotIn at h
  split at h
  next ha =>
    obtain rfl := Option.some.inj h
    exact ⟨by decide, ha⟩
  · split at h
    next hb =>
      obtain rfl := Option.some.inj h
      exact ⟨by decide, hb⟩
    · exact absurd h nofun

/-- The marks of a switch touch the states of the slots alone. -/
theorem marked_slots (x : Nat) (rollback : Bool) (p : Sup) :
    (p.marked x rollback).slot x = { p.slot x with st := if rollback then .active else .trial } ∧
    (p.marked x rollback).slot (1 - x) = { p.slot (1 - x) with st := if rollback then .inactive else .fallback } := by
  unfold Sup.marked Sup.mark
  cases rollback
  · simp only [Bool.false_eq_true, if_false, slot_onSlot, slot_onSlot_other, slot_onSlot_other', and_self]
  · simp only [if_true, slot_onSlot, slot_onSlot_other, slot_onSlot_other', and_self]

theorem slotsOnly_trans {p q r : Sup} (h1 : q = { p with slotA := q.slotA, slotB := q.slotB }) (h2 : r = { q with slotA := r.slotA, slotB := r.slotB }) :
    r = { p with slotA := r.slotA, slotB := r.slotB } := by
  rw [h1] at h2
  exact h2

theorem marked_eq (x : Nat) (rollback : Bool) (p : Sup) :
    p.marked x rollback = { p with slotA := (p.marked x rollback).slotA, slotB := (p.marked x rollback).slotB } := by
  cases rollback
  · exact slotsOnly_trans (onSlot_eq (1 - x) (fun y => { y with st := .fallback }) p) (onSlot_eq x (fun y => { y with st := .trial }) _)
  · exact slotsOnly_trans (onSlot_eq (1 - x) (fun y => { y with st := .inactive }) p) (onSlot_eq x (fun y => { y with st := .active }) _)

theorem bootTo_eq (i : Nat) (p : Sup) : p.bootTo i = { p with bootSlot := i, wdTimes := (p.bootTo i).wdTimes, wdPast := (p.bootTo i).wdPast } := by
  unfold Sup.bootTo
  split
  next h => rw [h]
  · rfl

/-! ### Events and states of the Spire -/

theorem supEvent_sup (vec sub arg src : Nat) (s : State) :
    (s.supEvent vec sub arg src).sup = { s.sup with lastEvent := some (vec - 64, src % 256, sub, arg % 256) } := State.postEvent_sup ..

theorem supEvent_moved (vec sub arg src : Nat) (s : State) : NoCommandMoved s (s.supEvent vec sub arg src) :=
  ⟨supEvent_part (π := .fwd) (by simp) .., supEvent_part (π := .ready) (by simp) ..⟩

theorem setState_sup (st : DevState) (r : Nat) (s : State) : ∃ prev left ship ev, (s.setState st r).sup = { s.sup with
    st := st, prev := prev, reason := r, shipFrom := ship, shipLeft := left, lastEvent := ev } := by
  unfold State.setState
  dsimp only
  split
  next h => exact ⟨s.sup.prev, s.sup.shipLeft, s.sup.shipFrom, s.sup.lastEvent, by rw [← h]; rfl⟩
  · exact ⟨_, _, _, _, supEvent_sup ..⟩

theorem setState_st (st : DevState) (r : Nat) (s : State) : (s.setState st r).sup.st = st := by
  obtain ⟨_, _, _, _, h⟩ := setState_sup st r s
  rw [h]

/-! ### The main die's loss (R50, R65) -/

/-- The Spire without what the end of a commit and a change of device state move. -/
def Sup.lasting (p : Sup) : Sup := { p.rest with
  readyMask := 0, commit := none, posting := none, commitOk := false, commitReason := 0, image := none, storing := none
  st := .boot, prev := 0, reason := 0, shipFrom := none, shipLeft := 0 }

theorem lasting_of_part {s t : State} (h : part .sup t = part .sup s) : t.sup.lasting = s.sup.lasting :=
  sup_of_part h Sup.lasting fun _ => rfl

theorem setState_lasting (st : DevState) (r : Nat) (s : State) : (s.setState st r).sup.lasting = s.sup.lasting := by
  obtain ⟨_, _, _, _, h⟩ := setState_sup st r s
  rw [h]
  rfl

theorem postCommit_lasting (c : Commit) (st r : Nat) (s : State) : (s.postCommit c st r).sup.lasting = s.sup.lasting := by
  unfold State.postCommit
  dsimp only
  split
  · rw [State.complete_sup]
  · change ({ (s.complete .pf0 c.sq c.cid st r).sup with posting := some c } : Sup).lasting = _
    rw [State.complete_sup]
    rfl

theorem closeCommit_lasting (c : Commit) (r : Nat) (s : State) : (s.closeCommit c r).sup.lasting = s.sup.lasting := by
  unfold State.closeCommit
  exact (lasting_of_part (faultRec_part (by simp) ..)).trans ((lasting_of_part (supEvent_part (by simp) ..)).trans (postCommit_lasting ..))

theorem abortCommit_lasting (s : State) : s.abortCommit.sup.lasting = s.sup.lasting := by
  unfold State.abortCommit
  split
  · rfl
  · exact closeCommit_lasting ..

/-- The state in which the Spire drops what it drops with the main die. -/
def State.beforeLoss (st : DevState) (s : State) : State :=
  ((s.safeLinks.pilotsDefault.onSup (fun p => { p with readyMask := 0x100, lastEvent := none })).abortCommit).setState st 0

theorem mainDown_eq (st : DevState) (s : State) :
    s.mainDown st = (s.beforeLoss st).onSup (fun p => { p.mainLost with lastEvent := p.lastEvent }) := rfl

theorem beforeLoss_lasting (st : DevState) (s : State) : (s.beforeLoss st).sup.lasting = s.sup.lasting := by
  have hsup : s.safeLinks.pilotsDefault.sup.lasting = s.sup.lasting :=
    lasting_of_part ((pilotsDefault_part (by simp) _).trans (safeLinks_part (by simp) s))
  have hmask (u : State) : (u.onSup (fun p => { p with readyMask := 0x100, lastEvent := none })).sup.lasting = u.sup.lasting := rfl
  unfold State.beforeLoss
  rw [setState_lasting, abortCommit_lasting, hmask, hsup]

theorem beforeLoss_st (st : DevState) (s : State) : (s.beforeLoss st).sup.st = st := by
  unfold State.beforeLoss
  exact setState_st ..

/-- Where no slot is being programmed, the loss keeps both slots. -/
theorem mainLost_slots {p : Sup} (h : p.staging = none) : p.mainLost.slotA = p.slotA ∧ p.mainLost.slotB = p.slotB := by
  unfold Sup.mainLost
  rw [h]
  exact ⟨rfl, rfl⟩

theorem mainLost_eq (p : Sup) : p.mainLost = { p with
    slotA := p.mainLost.slotA, slotB := p.mainLost.slotB
    readyMask := 0x100, pcieUp := false, cls := 0, configId := 0, uptime := 0, lastEvent := none, replaced := false
    posting := none, staging := none, live := none, outage := 0, trialOn := false, trialLeft := 0, restart := none, resetOrdered := false
    sjWait := [], shipFrom := none, shipLeft := 0, image := none, storing := none } := by
  unfold Sup.mainLost
  cases p.staging with
  | none => rfl
  | some g =>
    dsimp only
    unfold Sup.onSlot
    split <;> rfl

/-- A field of the Spire that no end of a commit, no change of device state and no loss of the main die moves. -/
theorem mainDown_kept {α : Type} {f : Sup → α} {s : State} (hl : ∀ p : Sup, f p.lasting = f p)
    (hm : ∀ (p : Sup) ev, p.staging = s.sup.staging → f { p.mainLost with lastEvent := ev } = f p) (st : DevState) :
    f (s.mainDown st).sup = f s.sup := by
  have hlast := beforeLoss_lasting st s
  rw [mainDown_eq]
  generalize s.beforeLoss st = u at hlast
  have hstaging := congrArg Sup.staging hlast
  exact (hm u.sup _ hstaging).trans ((hl u.sup).symm.trans ((congrArg f hlast).trans (hl _)))

/-- The slots among them, where none is being programmed. -/
theorem mainDown_slots {s : State} (h : s.sup.staging = none) (st : DevState) :
    (s.mainDown st).sup.slotA = s.sup.slotA ∧ (s.mainDown st).sup.slotB = s.sup.slotB :=
  ⟨mainDown_kept (f := Sup.slotA) (fun _ => rfl) (fun _ _ hs => (mainLost_slots (hs.trans h)).1) st,
    mainDown_kept (f := Sup.slotB) (fun _ => rfl) (fun _ _ hs => (mainLost_slots (hs.trans h)).2) st⟩

/-- A field of the Spire that a loss of the main die touches in no case. -/
theorem mainDown_field {α : Type} {f : Sup → α} (hl : ∀ p : Sup, f p.lasting = f p)
    (hm : ∀ (p : Sup) a b ev, f { p with
      slotA := a, slotB := b, readyMask := 0x100, pcieUp := false, cls := 0, configId := 0, uptime := 0, lastEvent := ev, replaced := false
      posting := none, staging := none, live := none, outage := 0, trialOn := false, trialLeft := 0, restart := none, resetOrdered := false
      sjWait := [], shipFrom := none, shipLeft := 0, image := none, storing := none } = f p) (st : DevState) (s : State) :
    f (s.mainDown st).sup = f s.sup := by
  refine mainDown_kept hl (fun p ev _ => ?_) st
  rw [mainLost_eq]
  exact hm p p.mainLost.slotA p.mainLost.slotB ev

theorem mainDown_st (st : DevState) (s : State) : (s.mainDown st).sup.st = st := by
  have h := beforeLoss_st st s
  rw [mainDown_eq]
  generalize s.beforeLoss st = u at h
  exact (congrArg Sup.st (mainLost_eq u.sup)).trans h

theorem mainDown_restart (st : DevState) (s : State) : (s.mainDown st).sup.restart = none := by
  rw [mainDown_eq]
  generalize s.beforeLoss st = u
  exact congrArg Sup.restart (mainLost_eq u.sup)

/-! ### The reset (Table 22-3) -/

theorem mainReset_sup (cause : Nat) (s : State) : (s.mainReset cause).sup = { (s.mainDown .boot).sup.bootTo (s.mainDown .boot).sup.bootTarget with
    lastReset := cause, resets := ((s.mainDown .boot).sup.resets + 1) % 2 ^ 32 } := rfl

theorem islandsReset_mss (s : State) (f : Sup → Sup) : (s.onSup f).islandsReset.mss = { s.mss with waiting := [] } := rfl

theorem mainReset_saggar (cause : Nat) (s : State) : SaggarUnasked s (s.mainReset cause) := by
  refine ⟨mainReset_part (π := .sgm) (by simp) .., mainReset_part (π := .bte) (by simp) .., ?_, mainReset_part (π := .cell) (by simp) ..⟩
  have h : (s.mainDown .boot).mss = s.mss := mainDown_part (π := .mss) (by simp) ..
  unfold State.mainReset
  dsimp only
  rw [islandsReset_mss, h]

theorem mainReset_islands (cause : Nat) (s : State) : IslandsAtReset 0 (s.mainReset cause) := ⟨rfl, rfl, rfl, rfl, rfl, rfl, rfl, rfl, rfl, rfl⟩

/-- The slot a reset boots and the slots as it leaves them, where none is being programmed. -/
theorem mainReset_boot {s : State} (h : s.sup.staging = none) (cause : Nat) : (s.mainReset cause).sup.st = .boot ∧
    (s.mainReset cause).sup.lastReset = cause ∧ (s.mainReset cause).sup.resets = (s.sup.resets + 1) % 2 ^ 32 ∧
    (s.mainReset cause).sup.bootSlot = s.sup.bootTarget ∧ (s.mainReset cause).sup.slotA = s.sup.slotA ∧
    (s.mainReset cause).sup.slotB = s.sup.slotB ∧ (s.mainReset cause).sup.restart = none := by
  obtain ⟨ha, hb⟩ := mainDown_slots h .boot
  have hboot : (s.mainDown .boot).sup.bootSlot = s.sup.bootSlot := mainDown_field (f := Sup.bootSlot) (fun _ => rfl) (fun _ _ _ _ => rfl) .boot s
  have hresets : (s.mainDown .boot).sup.resets = s.sup.resets := mainDown_field (f := Sup.resets) (fun _ => rfl) (fun _ _ _ _ => rfl) .boot s
  have htarget : (s.mainDown .boot).sup.bootTarget = s.sup.bootTarget := by
    unfold Sup.bootTarget Sup.slotIn
    rw [ha, hb, hboot]
  have hst := mainDown_st .boot s
  have hrestart := mainDown_restart .boot s
  rw [mainReset_sup, bootTo_eq]
  generalize s.mainDown .boot = u at *
  exact ⟨hst, rfl, congrArg (fun n => (n + 1) % 2 ^ 32) hresets, htarget, ha, hb, hrestart⟩

end Sys2Proof.Machine
end
section
/-! PROOFS. Firmware staged, switched, tried and rolled back -/

namespace Sys2Proof.Machine

open Sys2Proof

/-! ### Bits set -/

theorem testBit_add_two_pow {n i : Nat} (h : n.testBit i = false) (j : Nat) : (n + 2 ^ i).testBit j = (decide (j = i) || n.testBit j) := by
  induction i generalizing n j with
  | zero =>
    have heven : n % 2 = 0 := by simpa [Nat.testBit_zero] using h
    cases j with
    | zero => simp [Nat.testBit_zero]; omega
    | succ j =>
      rw [Nat.testBit_succ, Nat.testBit_succ, show (n + 2 ^ 0) / 2 = n / 2 by omega]
      simp
  | succ i ih =>
    rw [Nat.testBit_succ] at h
    cases j with
    | zero =>
      rw [Nat.testBit_zero, Nat.testBit_zero, show (n + 2 ^ (i + 1)) % 2 = n % 2 by rw [Nat.pow_succ]; omega]
      simp
    | succ j =>
      rw [Nat.testBit_succ, Nat.testBit_succ, show (n + 2 ^ (i + 1)) / 2 = n / 2 + 2 ^ i by rw [Nat.pow_succ]; omega, ih h]
      simp

/-- The bit of an island set where it is clear. -/
theorem bit_setBit (n i j : Nat) : bit (if bit n i then n else n + 2 ^ i) j = (decide (j = i) || bit n j) := by
  simp only [bit_eq_testBit]
  split
  next h =>
    by_cases hj : j = i
    · rw [hj, h]
      simp
    · simp [hj]
  next h => exact testBit_add_two_pow (by simpa using h) j

theorem bit_setBit_self (n i : Nat) : bit (if bit n i then n else n + 2 ^ i) i = true := by rw [bit_setBit]; simp

theorem bit_setBit_of_ne {i j : Nat} (h : j ≠ i) (n : Nat) : bit (if bit n i then n else n + 2 ^ i) j = bit n j := by rw [bit_setBit]; simp [h]

/-- A change of the Spire is none of any other part. -/
theorem onSup_kept {π : Part} (h : π ∉ [Part.faults, .sj, .sup]) (f : Sup → Sup) (s : State) : part π (s.onSup f) = part π s := by
  simp only [List.mem_cons, List.not_mem_nil, or_false, not_or] at h
  obtain ⟨h1, h2, h3⟩ := h
  exact onSup_part (h1 := .inl h1) (h2 := .inl h2) (h3 := .inl h3) ..

/-- A completion stands while no command moves. -/
theorem completedAs_moved {fn : Fn} {sq cid st r : Nat} {s t u : State} (h : CompletedAs fn sq cid st r s t) (hm : NoCommandMoved t u) :
    CompletedAs fn sq cid st r s u := by
  obtain ⟨⟨quiet, hready⟩, hfwd⟩ := h
  exact ⟨⟨quiet, hm.2.trans hready⟩, by rw [hm.1]; exact hfwd⟩

theorem slot_lastEvent (e : Option (Nat × Nat × Nat × Nat)) (i : Nat) (p : Sup) : ({ p with lastEvent := e } : Sup).slot i = p.slot i := rfl

/-! ### Staging (R447) -/

theorem readImage_congr {s t : State} (h : s.tmf = t.tmf) (bad : List Nat) (hs : List Nat) : readImage s bad hs = readImage t bad hs := by
  induction hs with
  | nil => rfl
  | cons x r ih =>
    unfold readImage
    rw [h, ih]

/-- The checks of UPDATE_STAGE before the image is read. -/
theorem updateStage_eq {q : Sqe} {bad : List Nat} {s : State} {x : Tile} (hx : s.tmf.hostTile (sd q 5) = some x) (hclosed : x.closed = true)
    (hfree : (s.sup.onTrial || s.sup.staging.isSome || s.sup.live.isSome) = false) (hgood : handleIdx (sd q 5) ∉ bad) :
    updateStage q bad s = s.stageImage q bad (listedHandles x.bytes) := by
  unfold updateStage
  dsimp only
  rw [hx]
  dsimp only
  rw [if_neg (by simp [hclosed]), if_neg (by simp [hfree]), if_neg (by simpa using hgood)]

theorem updateStage_refused {q : Sqe} {bad : List Nat} {s : State} :
    (s.tmf.hostTile (sd q 5) = none → updateStage q bad s = s.done q stBAD_HANDLE 0) ∧
    (∀ x, s.tmf.hostTile (sd q 5) = some x → x.closed = false → updateStage q bad s = s.done q stBAD_STATE 0) ∧
    (∀ x, s.tmf.hostTile (sd q 5) = some x → x.closed = true → (s.sup.onTrial || s.sup.staging.isSome || s.sup.live.isSome) = true →
      updateStage q bad s = s.done q stBUSY_RETRY 0) := by
  unfold updateStage
  dsimp only
  refine ⟨fun h => by rw [h], fun x h hc => ?_, fun x h hc hbusy => ?_⟩
  · rw [h]
    exact if_pos (by simp [hc])
  · rw [h]
    dsimp only
    rw [if_neg (by simp [hc])]
    exact if_pos hbusy

/-- The image is good: its slot begins to be programmed. -/
def State.programs (q : Sqe) (image : Slot) (s : State) : State := s.took.onSup (fun p =>
  { p.onSlot p.idleSlot (fun _ => Slot.empty) with staging := some ⟨q.sq, cidOf q, p.idleSlot, image⟩ })

theorem programs_sup (q : Sqe) (image : Slot) (s : State) :
    ((s.programs q image).sup.slot (1 - s.sup.bootSlot)).st = .invalid ∧
    (s.programs q image).sup.slot s.sup.bootSlot = s.sup.slot s.sup.bootSlot ∧
    (s.programs q image).sup.staging = some ⟨q.sq, cidOf q, 1 - s.sup.bootSlot, image⟩ := by
  have h : (s.programs q image).sup = { s.sup.onSlot (1 - s.sup.bootSlot) (fun _ => Slot.empty) with
    staging := some ⟨q.sq, cidOf q, 1 - s.sup.bootSlot, image⟩ } := rfl
  rw [h]
  exact ⟨congrArg Slot.st (slot_onSlot (1 - s.sup.bootSlot) (fun _ => Slot.empty) s.sup), slot_onSlot_other' .., rfl⟩

theorem programs_frame (q : Sqe) (image : Slot) (s : State) : s.programs q image = { s with
    sup := (s.programs q image).sup, free := (s.programs q image).free } := rfl

theorem programs_hqe (q : Sqe) (image : Slot) (s : State) : (s.programs q image).hqe = s.hqe := rfl

/-- The state of a stage that has failed before its completion. -/
def State.emptied (s : State) : State := s.onSup (fun p => p.onSlot p.idleSlot (fun _ => Slot.empty))

theorem stageFails_eq (q : Sqe) (st r : Nat) (s : State) : s.stageFails q st r = s.emptied.done q st r := rfl

/-- What the end of a slot's programming leaves of the Spire. -/
def Sup.staged (g : Staging) (ok : Bool) (p : Sup) : Sup := { p.onSlot g.slot (fun _ => if ok then g.image else Slot.empty) with staging := none }

theorem staged_sup (g : Staging) (ok : Bool) (p : Sup) : (p.staged g ok).staging = none ∧
    (p.staged g ok).slot g.slot = (if ok then g.image else Slot.empty) ∧ (p.staged g ok).slot (1 - g.slot) = p.slot (1 - g.slot) :=
  ⟨rfl, slot_onSlot g.slot _ p, slot_onSlot_other g.slot _ p⟩

theorem stageDone_eq {s : State} {g : Staging} (h : s.sup.staging = some g) :
    stageDone true s = ((s.onSup (Sup.staged g true)).complete .pf0 g.sq g.cid stDONE g.image.version).supEvent 71 0x20 g.image.version noSource ∧
    stageDone false s = (s.onSup (Sup.staged g false)).complete .pf0 g.sq g.cid stBAD_PARAM 5 := by
  unfold stageDone
  rw [h]
  exact ⟨rfl, rfl⟩

section stageImage
variable {q : Sqe} {bad hs : List Nat} {s : State} {tiles : List (List Byte)} (h : readImage s bad hs = .good tiles)
include h

theorem stageImage_ok (hf : imageFault tiles = none) :
    s.stageImage q bad hs = s.programs q (imageSlot (tiles.headD []) (Config.freeNat s.free)) := by
  unfold State.stageImage
  rw [h]
  dsimp only
  rw [hf]
  rfl

theorem stageImage_fault {r : Nat} (hf : imageFault tiles = some r) : s.stageImage q bad hs = s.stageFails q stBAD_PARAM r := by
  unfold State.stageImage
  rw [h]
  dsimp only
  rw [hf]

end stageImage

theorem imageSlot_seg (b : List Byte) (m : Nat) {i : Nat} (h : i < 7) : (imageSlot b m).segs[i]? = some (u b (16 + 8 * i) 4, u b (20 + 8 * i) 2) := by
  unfold imageSlot
  rw [List.getElem?_map, List.getElem?_range h]
  rfl

/-! ### A switch (R450, R451) -/

/-- The state of a RESTART switch before its completion. -/
def State.restarts (x : Nat) (rollback : Bool) (s : State) : State :=
  s.onSup (fun p => { (p.marked x rollback) with restart := some x, switched := 0, trialOn := false, trialLeft := 0 })

theorem restarts_sup (x : Nat) (rollback : Bool) (s : State) : (s.restarts x rollback).sup = { s.sup with
    slotA := (s.sup.marked x rollback).slotA, slotB := (s.sup.marked x rollback).slotB
    restart := some x, switched := 0, trialOn := false, trialLeft := 0 } :=
  congrArg (fun p : Sup => { p with restart := some x, switched := 0, trialOn := false, trialLeft := 0 }) (marked_eq x rollback s.sup)

/-- A LIVE switch loads the idle banks. -/
def State.goesLive (q : Sqe) (x : Nat) (rollback : Bool) (s : State) : State := s.onSup (fun p => { p with
  live := some ⟨q.sq, cidOf q, x, switchOrder, none, rollback⟩, switched := 0
  banks := p.banks.map (fun b => { b with idle := some x }) })

theorem switchTo_live {q : Sqe} (h : sd q 6 = 0) (x : Nat) (rollback : Bool) (s : State) : s.switchTo q x rollback = s.goesLive q x rollback := by
  unfold State.switchTo
  rw [if_neg (by rw [h]; decide)]
  rfl

theorem switchTo_restart {q : Sqe} (h : sd q 6 = 1) (x : Nat) (s : State) :
    s.switchTo q x true = (s.restarts x true).done q stDONE 0 ∧
    s.switchTo q x false = ((s.restarts x false).done q stDONE 0).supEvent 71 0x22 (s.sup.slot x).version noSource := by
  have hb : bit (sd q 6) 0 = true := by rw [h]; decide
  unfold State.switchTo
  exact ⟨(if_pos hb).trans rfl, (if_pos hb).trans rfl⟩

theorem bit_zero_of {q : Sqe} : (sd q 6 = 0 → bit (sd q 6) 0 = false) ∧ (sd q 6 = 1 → bit (sd q 6) 0 = true) :=
  ⟨fun h => by rw [h]; decide, fun h => by rw [h]; decide⟩

theorem updateSwitch_eq {q : Sqe} {s : State} {x : Nat} (h : s.sup.slotIn .staged = some x) :
    updateSwitch q s = (if !bit (sd q 6) 0 && !s.liveOk x then s.done q stBAD_STATE 0
      else if s.exclusive || s.sup.restart.isSome then s.done q stBUSY_RETRY 0 else s.switchTo q x false) := by
  unfold updateSwitch
  rw [h]

theorem updateRollback_eq (q : Sqe) (s : State) : updateRollback q s =
    (if (s.sup.slot (1 - s.sup.bootSlot)).st = .staged then
      if s.exclusive then s.done q stBUSY_RETRY 0
      else (s.onSup (Sup.onSlot (1 - s.sup.bootSlot) (fun _ => Slot.empty))).done q stDONE 0
    else if !((s.sup.slot (1 - s.sup.bootSlot)).st = .fallback ∨ (s.sup.slot (1 - s.sup.bootSlot)).st = .inactive) ∨
        (!bit (sd q 6) 0 ∧ s.liveOk (1 - s.sup.bootSlot) = false) ∨ s.versionOk (1 - s.sup.bootSlot) = false then
      s.done q stBAD_STATE 0
    else if s.exclusive || s.sup.restart.isSome then s.done q stBUSY_RETRY 0
    else s.switchTo q (1 - s.sup.bootSlot) true) := rfl

/-- A rollback that nothing bars goes to the other slot. -/
theorem rollback_switches {q : Sqe} {s : State}
    (hst : (s.sup.slot (1 - s.sup.bootSlot)).st = .fallback ∨ (s.sup.slot (1 - s.sup.bootSlot)).st = .inactive)
    (hver : s.sup.st = .service → (s.sup.slot (1 - s.sup.bootSlot)).cfgMin ≤ s.conf.fmt)
    (hlive : bit (sd q 6) 0 = true ∨ s.liveOk (1 - s.sup.bootSlot) = true) (hbusy : (s.exclusive || s.sup.restart.isSome) = false) :
    updateRollback q s = s.switchTo q (1 - s.sup.bootSlot) true := by
  have hversion : s.versionOk (1 - s.sup.bootSlot) = true := by
    unfold State.versionOk
    by_cases h : s.sup.st = .service
    · simp [h, hver h]
    · simp [h]
  rw [updateRollback_eq, if_neg (by rcases hst with h | h <;> rw [h] <;> decide), if_neg (by
    rcases hlive with h | h <;> simp [hst, hversion, h]), if_neg (by rw [hbusy]; decide)]

/-- UPDATE_STAGE, UPDATE_SWITCH and UPDATE_ROLLBACK. -/
theorem updateStaging : Claim.UpdateStaging := by
  unfold Claim.UpdateStaging
  refine ⟨?stage, ?noTile, ?turned, ?stageDone, ?noStaged, ?switch, ?rollback⟩
  case stage =>
    intro q bad s x tiles h hx hclosed htrial hstaging hlive hgood hread
    refine answers_taken rfl h (by simp) ?_
    rw [updateStage_eq (s := s.start.accept q) hx hclosed (by
      change (s.sup.onTrial || s.sup.staging.isSome || s.sup.live.isSome) = false
      rw [htrial, hstaging, hlive]; rfl) hgood]
    have hread' : readImage (s.start.accept q) bad (listedHandles x.bytes) = .good tiles := (readImage_congr (s := s.start.accept q) (t := s) rfl ..).trans hread
    cases hf : imageFault tiles with
    | none =>
      rw [stageImage_ok hread' hf]
      obtain ⟨hrun, hrings⟩ := accept_running (t := (s.start.accept q).programs q (imageSlot (tiles.headD []) (Config.freeNat s.free))) h.2.1 (programs_hqe ..)
      obtain ⟨hinvalid, hboot, hstaged⟩ := programs_sup q (imageSlot (tiles.headD []) (Config.freeNat s.free)) (s.start.accept q)
      exact ⟨fun _ => ⟨hrun, hrings, hinvalid, _, hstaged, rfl, rfl, rfl, rfl, rfl,
        fun i hi => imageSlot_seg _ _ hi⟩, fun r hr => absurd hr nofun, fun _ => hboot, programs_frame ..⟩
    | some r =>
      rw [stageImage_fault hread' hf]
      obtain ⟨hdone, hrings⟩ := done_kept (st := stBAD_PARAM) (r := r) (s1 := (s.start.accept q).emptied) h.2.1 rfl
      have hsup : ((s.start.accept q).stageFails q stBAD_PARAM r).sup = s.sup.onSlot (1 - s.sup.bootSlot) (fun _ => Slot.empty) := State.done_sup ..
      rw [← stageFails_eq] at hdone hrings
      refine ⟨fun hn => absurd hn nofun, fun r' hr => ?_, fun _ => ?_, ?_⟩
      · obtain rfl := Option.some.inj hr
        refine ⟨hdone, hrings, ?_, ?_⟩
        · rw [hsup, slot_onSlot]
          rfl
        · rw [hsup, onSlot_eq]
          exact hstaging
      · rw [hsup, slot_onSlot_other']
      · rw [stageFails_eq]
        refine (State.done_frame ..).trans ?_
        rw [State.done_sup, State.done_free]
        rfl
  case noTile =>
    intro q bad s h hx
    refine answers_taken rfl h (by simp) ?_
    rw [(updateStage_refused (s := s.start.accept q)).1 hx]
    exact done_onlyCompletes h.2.1
  case turned =>
    intro q bad s x h hx
    refine ⟨fun hc => answers_taken rfl h (by simp) ?_, fun hc hbusy => answers_taken rfl h (by simp) ?_⟩
    · rw [(updateStage_refused (s := s.start.accept q)).2.1 x hx hc]
      exact done_onlyCompletes h.2.1
    · rw [(updateStage_refused (s := s.start.accept q)).2.2 x hx hc (by
        change (s.sup.onTrial || s.sup.staging.isSome || s.sup.live.isSome) = true
        simpa [or_assoc] using hbusy)]
      exact done_onlyCompletes h.2.1
  case stageDone =>
    intro s g hg hslot hown
    obtain ⟨htrue, hfalse⟩ := stageDone_eq (s := s.start) hg
    constructor
    · obtain ⟨hdone, -⟩ := complete_kept (s1 := s.start.onSup (Sup.staged g true)) (st := stDONE) (r := g.image.version) hown rfl
      obtain ⟨hnone, himage, hother⟩ := staged_sup g true s.sup
      refine ⟨_, congrArg Host.Outcome.next htrue, completedAs_moved hdone (supEvent_moved ..), ?_⟩
      have hsup := supEvent_sup 71 0x20 g.image.version noSource ((s.start.onSup (Sup.staged g true)).complete .pf0 g.sq g.cid stDONE g.image.version)
      rw [State.complete_sup] at hsup
      rw [hsup]
      refine ⟨hnone, (slot_lastEvent ..).trans himage, (slot_lastEvent ..).trans hother, rfl, ?_⟩
      rw [← hsup]
      refine eq_frameOf (s := s.start) [.fwd, .ready, .rings, .faults, .sj, .sup, .out, .cur] fun π hp => ?_
      simp only [List.mem_cons, List.not_mem_nil, or_false, not_or] at hp
      exact (supEvent_part (by simp [hp]) ..).trans ((complete_part (by simp [hp]) ..).trans (onSup_kept (by simp [hp]) ..))
    · obtain ⟨hdone, -⟩ := complete_kept (s1 := s.start.onSup (Sup.staged g false)) (st := stBAD_PARAM) (r := 5) hown rfl
      obtain ⟨hnone, himage, hother⟩ := staged_sup g false s.sup
      refine ⟨_, congrArg Host.Outcome.next hfalse, hdone, ?_⟩
      have hframe := State.complete_frame (s.start.onSup (Sup.staged g false)) .pf0 g.sq g.cid stBAD_PARAM 5
      have hsup : ((s.start.onSup (Sup.staged g false)).complete .pf0 g.sq g.cid stBAD_PARAM 5).sup = s.sup.staged g false := State.complete_sup ..
      rw [hsup]
      exact ⟨hnone, congrArg Slot.st himage, hother, hframe⟩
  case noStaged =>
    intro q s h hk hnone
    refine answers_taken rfl h (by simp [hk]) ?_
    have hserve : updateSwitch q (s.start.accept q) = (s.start.accept q).done q stBAD_STATE 0 := by
      unfold updateSwitch
      rw [show (s.start.accept q).sup.slotIn .staged = none from hnone]
    rw [hserve]
    exact done_onlyCompletes h.2.1
  case switch =>
    intro q s x h hx hexcl hrestart
    have hbusy : ((s.start.accept q).exclusive || (s.start.accept q).sup.restart.isSome) = false := by
      change (s.exclusive || s.sup.restart.isSome) = false
      rw [hexcl, hrestart]; rfl
    refine ⟨fun hk => answers_taken rfl h (by simp [hk]) ?_, fun hk hfmt => answers_taken rfl h (by simp [hk]) ?_,
      fun hk hfmt => answers_taken rfl h (by simp [hk]) ?_⟩
    all_goals rw [updateSwitch_eq (s := s.start.accept q) hx]
    · rw [if_neg (by simp [bit_zero_of.2 hk]), if_neg (by rw [hbusy]; decide), (switchTo_restart hk x _).2]
      obtain ⟨hdone, -⟩ := done_kept (s1 := (s.start.accept q).restarts x false) (st := stDONE) (r := 0) h.2.1 rfl
      obtain ⟨htarget, hother⟩ := marked_slots x false s.sup
      obtain ⟨-, hlive⟩ := Bool.or_eq_false_iff.mp hexcl
      have hsup := supEvent_sup 71 0x22 (s.sup.slot x).version noSource (((s.start.accept q).restarts x false).done q stDONE 0)
      rw [State.done_sup, restarts_sup] at hsup
      refine ⟨completedAs_moved hdone (supEvent_moved ..), ?_⟩
      rw [show ((((s.start.accept q).restarts x false).done q stDONE 0).supEvent 71 0x22 ((s.start.accept q).sup.slot x).version noSource).sup = _ from hsup]
      refine ⟨rfl, congrArg Slot.st htarget, congrArg Slot.st hother, by simpa using hlive, rfl, ?_⟩
      rw [← hsup]
      refine eq_frameOf (s := s.start) [.fwd, .ready, .rings, .faults, .sj, .sup, .out, .cur] fun π hp => ?_
      simp only [List.mem_cons, List.not_mem_nil, or_false, not_or] at hp
      exact (supEvent_part (by simp [hp]) ..).trans ((done_part (by simp [hp]) ..).trans ((onSup_kept (by simp [hp]) ..).trans (accept_part (by simp [hp]) ..)))
    · rw [if_neg (by simp [State.liveOk]; exact fun _ => hfmt), if_neg (by rw [hbusy]; decide), switchTo_live hk]
      obtain ⟨hrun, hrings⟩ := accept_running (t := (s.start.accept q).goesLive q x false) h.2.1 rfl
      exact ⟨hrun, hrings, rfl, rfl⟩
    · rw [if_pos (by simp [bit_zero_of.1 hk, State.liveOk]; exact hfmt)]
      exact done_onlyCompletes h.2.1
  case rollback =>
    intro q s h hk hexcl hrestart
    have hcommit : (s.start.accept q).exclusive = false := hexcl
    have hbusy : ((s.start.accept q).exclusive || (s.start.accept q).sup.restart.isSome) = false := by
      rw [hcommit]
      change s.sup.restart.isSome = false
      rw [hrestart]; rfl
    obtain ⟨-, hlive⟩ := Bool.or_eq_false_iff.mp hexcl
    refine ⟨fun hst => answers_taken rfl h (by simp [hk]) ?_, fun hst hver => ⟨fun hk1 hboot => answers_taken rfl h (by simp [hk]) ?_,
      fun hk0 hfmt => answers_taken rfl h (by simp [hk]) ?_⟩, fun hst => answers_taken rfl h (by simp [hk]) ?_⟩
    · have hserve : updateRollback q (s.start.accept q) = ((s.start.accept q).emptied).done q stDONE 0 :=
        (updateRollback_eq ..).trans ((if_pos hst).trans (if_neg (by rw [hcommit]; decide)))
      rw [hserve]
      obtain ⟨hdone, hrings⟩ := done_kept (s1 := (s.start.accept q).emptied) (st := stDONE) (r := 0) h.2.1 rfl
      have hsup : (((s.start.accept q).emptied).done q stDONE 0).sup = s.sup.onSlot (1 - s.sup.bootSlot) (fun _ => Slot.empty) := State.done_sup ..
      have hframe := State.done_frame (s.start.accept q).emptied q stDONE 0
      have hout : (((s.start.accept q).emptied).done q stDONE 0).out = [] := State.done_out ..
      refine ⟨hdone, hrings, ?_⟩
      rw [hsup]
      refine ⟨congrArg Slot.st (slot_onSlot ..), ?_, ?_, hframe⟩
      · rw [onSlot_eq]
        simpa using hlive
      · rw [onSlot_eq]
        exact hrestart
    · rw [rollback_switches (s := s.start.accept q) hst hver (.inl (bit_zero_of.2 hk1)) hbusy, (switchTo_restart hk1 _ _).1]
      obtain ⟨hdone, hrings⟩ := done_kept (s1 := (s.start.accept q).restarts (1 - s.sup.bootSlot) true) (st := stDONE) (r := 0) h.2.1 rfl
      obtain ⟨htarget, hother⟩ := marked_slots (1 - s.sup.bootSlot) true s.sup
      have hsup : (((s.start.accept q).restarts (1 - s.sup.bootSlot) true).done q stDONE 0).sup = _ := (State.done_sup ..).trans (restarts_sup ..)
      refine ⟨hdone, hrings, ?_⟩
      rw [show (((s.start.accept q).restarts (1 - (s.start.accept q).sup.bootSlot) true).done q stDONE 0).sup = _ from hsup]
      rw [show 1 - (1 - s.sup.bootSlot) = s.sup.bootSlot by omega] at hother
      exact ⟨rfl, congrArg Slot.st htarget, congrArg Slot.st hother, rfl⟩
    · rw [rollback_switches (s := s.start.accept q) hst hver (.inr (by simpa [State.liveOk] using hfmt)) hbusy, switchTo_live hk0]
      obtain ⟨hrun, hrings⟩ := accept_running (t := (s.start.accept q).goesLive q (1 - s.sup.bootSlot) true) h.2.1 rfl
      exact ⟨hrun, hrings, rfl⟩
    · have hserve : updateRollback q (s.start.accept q) = (s.start.accept q).done q stBAD_STATE 0 :=
        (updateRollback_eq ..).trans ((if_neg (by rw [show (s.start.accept q).sup = s.sup from rfl, hst]; decide)).trans (if_pos (.inl (by
          rw [show (s.start.accept q).sup = s.sup from rfl, hst]; decide))))
      rw [hserve]
      exact done_onlyCompletes h.2.1

/-! ### The course of a switch (R450 to R452) -/

section bankSwitch
variable {i : Nat} {s : State} {l : LiveSwitch} (hl : s.sup.live = some l)
include hl

theorem bankSwitch_stays (h : l.waiting.isSome ∨ l.todo.head? ≠ some i ∨ (i = 0 ∧ (s.sup.perst ∨ s.hqe.tags ≠ []))) : bankSwitch i s = s := by
  unfold bankSwitch
  rw [hl]
  exact if_pos h

/-- The switch of an island's bank. -/
def State.swaps (i : Nat) (l : LiveSwitch) (s : State) : State := s.onSup (fun p => { p with
  live := some { l with waiting := some i, todo := l.todo.drop 1 }, banks := upd p.banks i Bank.swap })

theorem bankSwitch_eq (h : ¬(l.waiting.isSome ∨ l.todo.head? ≠ some i ∨ (i = 0 ∧ (s.sup.perst ∨ s.hqe.tags ≠ [])))) :
    (i ≠ 6 → bankSwitch i s = s.swaps i l) ∧ (bankSwitch i s = s.swaps i l ∨ ∃ x, bankSwitch i s = (s.swaps i l).exFail x) := by
  unfold bankSwitch
  rw [hl]
  dsimp only
  rw [if_neg h]
  split
  next x _ =>
    refine ⟨fun h6 => absurd rfl h6, ?_⟩
    split
    · exact .inl rfl
    · exact .inr ⟨_, rfl⟩
  · exact ⟨fun _ => rfl, .inl rfl⟩

end bankSwitch

theorem swaps_banks (i : Nat) (l : LiveSwitch) (s : State) :
    (∀ b n, s.sup.banks[i]? = some b → b.idle = some n → (s.swaps i l).sup.banks[i]? = some ⟨n, some b.run⟩) ∧
    (∀ j, j ≠ i → (s.swaps i l).sup.banks[j]? = s.sup.banks[j]?) := by
  have he : (s.swaps i l).sup.banks = upd s.sup.banks i Bank.swap := rfl
  rw [he]
  unfold upd
  refine ⟨fun b n hb hn => ?_, fun j hj => ?_⟩
  · rw [List.getElem?_modify_eq, hb]
    simp [Bank.swap, hn]
  · exact List.getElem?_modify_ne _ _ (Ne.symm hj)

/-- The state in which an island's report counts. -/
def State.setReady (i : Nat) (s : State) : State := s.onSup (fun p => { p with
  readyMask := if bit p.readyMask i then p.readyMask else p.readyMask + 2 ^ i
  readySince := if bit p.readySince i then p.readySince else p.readySince + 2 ^ i })

/-- An island that is ready while HQE_READY stands sets its bits alone. -/
theorem islandIsReady_of_hqeReady {s : State} (h : s.hqeReady = true) (i : Nat) : s.islandIsReady i = s.setReady i := by
  unfold State.islandIsReady
  dsimp only
  exact if_neg (by simp [h])

theorem islandReady_eq {i : Nat} {s : State} (hm : s.mainRuns = true) (hi : i < 7) (hp : i = 0 → s.sup.perst = false) :
    islandReady i s = (s.islandIsReady i).liveReady i := by
  unfold islandReady
  refine if_neg ?_
  rintro (h | h | ⟨h, h'⟩)
  · rw [hm] at h
    exact absurd h (by decide)
  · omega
  · rw [hp h] at h'
    exact absurd h' (by decide)

/-- The report of an island in a switch. -/
def State.reports (i : Nat) (l : LiveSwitch) (s : State) : State :=
  (s.onSup (fun p => { p with live := some { l with waiting := none }, switched := switchedBit i p.switched })).supEvent 71 0x21 i noSource

theorem liveReady_eq {i : Nat} {s : State} {l : LiveSwitch} (hl : s.sup.live = some l) (hw : l.waiting = some i) :
    s.liveReady i = if l.todo.isEmpty then (s.reports i l).liveEnds { l with waiting := none } else s.reports i l := by
  unfold State.liveReady
  rw [hl]
  exact if_neg (by simp [hw])

theorem reports_sup (i : Nat) (l : LiveSwitch) (s : State) : (s.reports i l).sup = { s.sup with
    live := some { l with waiting := none }, switched := switchedBit i s.sup.switched, lastEvent := some (7, 255, 0x21, i % 256) } :=
  supEvent_sup ..

theorem restartReset_eq {s : State} {x : Nat} (hr : s.sup.restart = some x) (hm : s.mainRuns = true) : restartReset s = s.mainReset 4 := by
  unfold restartReset
  exact if_pos (by rw [hr, hm]; rfl)

theorem reports_moved (i : Nat) (l : LiveSwitch) (s : State) : NoCommandMoved s (s.reports i l) :=
  supEvent_moved 71 0x21 i noSource (s.onSup (fun p => { p with live := some { l with waiting := none }, switched := switchedBit i p.switched }))

theorem switchedBit_bits (i n : Nat) : bit (switchedBit i n) i = true ∧ ∀ j, j ≠ i → bit (switchedBit i n) j = bit n j :=
  ⟨bit_setBit_self n i, fun _ hj => bit_setBit_of_ne hj n⟩

/-- A command completes from any state in which no command has moved. -/
theorem complete_moved {fn : Fn} {sq cid st r : Nat} {s s1 : State} (h : OwnedAs fn sq cid s) (hm : NoCommandMoved s s1) :
    CompletedAs fn sq cid st r s (s1.complete fn sq cid st r) := by
  have hown : OwnedAs fn sq cid s1 := fun f hf his => h f (hm.1 ▸ hf) his
  obtain ⟨⟨⟨quiet, hready⟩, hfwd⟩, -⟩ := complete_kept (st := st) (r := r) hown rfl
  exact ⟨⟨quiet, by rw [hready, hm.2]⟩, by rw [hfwd, hm.1]⟩

/-- The Spire at the end of a switch. -/
def Sup.ended (l : LiveSwitch) (p : Sup) : Sup :=
  let p1 := { (p.marked l.target l.rollback).runs l.target with live := none, trialOn := false, trialLeft := 0 }
  if l.rollback then p1 else p1.beginTrial

theorem ended_eq (l : LiveSwitch) (p : Sup) : p.ended l = { p with
    slotA := (p.marked l.target l.rollback).slotA, slotB := (p.marked l.target l.rollback).slotB
    bootSlot := l.target, wdTimes := (p.ended l).wdTimes, wdPast := (p.ended l).wdPast, banks := banksOf l.target
    fwVersion := (p.slot l.target).version, cfgMin := (p.slot l.target).cfgMin, cfgMax := (p.slot l.target).cfgMax
    formats := (p.slot l.target).formats, live := none, trialOn := !l.rollback, trialLeft := if l.rollback then 0 else 600000000 } := by
  have hmarked := marked_eq l.target l.rollback p
  have hslot := (marked_slots l.target l.rollback p).1
  unfold Sup.ended Sup.runs
  dsimp only
  rw [hslot, bootTo_eq]
  generalize p.marked l.target l.rollback = m at hmarked ⊢
  rw [hmarked]
  cases l.rollback <;> rfl

/-- The state in which a switch's command completes, and that behind its event. -/
def State.endsLive (l : LiveSwitch) (s : State) : State :=
  ((s.onSup (Sup.ended l)).complete .pf0 l.sq l.cid stDONE (s.sup.ended l).switched).onEvr (fun e => { e with testing := true })

theorem liveEnds_eq (l : LiveSwitch) (s : State) : s.liveEnds l =
    if l.rollback then s.endsLive l else (s.endsLive l).supEvent 71 0x22 (s.sup.slot l.target).version noSource := rfl

theorem endsLive_kept {π : Part} (hp : π ∉ [.fwd, .ready, .rings, .faults, .sj, .sup, .evr, .out, .cur]) (l : LiveSwitch) (s : State) :
    part π (s.endsLive l) = part π s := by
  simp only [List.mem_cons, List.not_mem_nil, or_false, not_or] at hp
  exact (onEvr_part (by simp [hp]) _ _).trans ((complete_part (by simp [hp]) ..).trans (onSup_kept (by simp [hp]) ..))

theorem endsLive_sup (l : LiveSwitch) (s : State) : (s.endsLive l).sup = s.sup.ended l := State.complete_sup ..

/-- The last report of a switch: its command completes, and the target runs. -/
theorem liveEnds_spec (l : LiveSwitch) (u : State) : ∃ ev, (u.liveEnds l).evr.testing = true ∧ (u.liveEnds l).sup = { u.sup.ended l with lastEvent := ev } ∧
    (l.rollback = false → ev = some (7, 255, 0x22, (u.sup.slot l.target).version % 256)) ∧
    NoCommandMoved ((u.onSup (Sup.ended l)).complete .pf0 l.sq l.cid stDONE (u.sup.ended l).switched) (u.liveEnds l) ∧
    (∀ π : Part, π ∉ [Part.fwd, .ready, .rings, .faults, .sj, .sup, .evr, .out, .cur] → part π (u.liveEnds l) = part π u) := by
  rw [liveEnds_eq]
  have hsup := endsLive_sup l u
  have hkept : ∀ π : Part, π ∉ [Part.fwd, .ready, .rings, .faults, .sj, .sup, .evr, .out, .cur] → part π (u.endsLive l) = part π u :=
    fun π hp => endsLive_kept hp l u
  have hmoved : NoCommandMoved ((u.onSup (Sup.ended l)).complete .pf0 l.sq l.cid stDONE (u.sup.ended l).switched) (u.endsLive l) := ⟨rfl, rfl⟩
  have htesting : (u.endsLive l).evr.testing = true := rfl
  generalize u.endsLive l = v at hsup hkept hmoved htesting
  cases hr : l.rollback
  · obtain ⟨hfwd, hready⟩ := supEvent_moved 71 0x22 (u.sup.slot l.target).version noSource v
    have hev : (v.supEvent 71 0x22 (u.sup.slot l.target).version noSource).evr = v.evr := supEvent_part (π := .evr) (by simp) ..
    refine ⟨some (7, 255, 0x22, (u.sup.slot l.target).version % 256), (congrArg Evr.testing hev).trans htesting, ?_, fun _ => rfl,
      ⟨hfwd.trans hmoved.1, hready.trans hmoved.2⟩, fun π hp => ?_⟩
    · rw [← hsup]
      exact supEvent_sup ..
    · refine Eq.trans ?_ (hkept π hp)
      simp only [List.mem_cons, List.not_mem_nil, or_false, not_or] at hp
      exact supEvent_part (by simp [hp]) ..
  · exact ⟨(u.sup.ended l).lastEvent, htesting, hsup, fun h => absurd h nofun, hmoved, hkept⟩

/-- The state of a trial that has passed, before its event. -/
def State.trialOver (x : Nat) (s : State) : State := s.onSup (fun p => { p.marked x true with trialOn := false, trialLeft := 0 })

theorem trialOver_sup (x : Nat) (s : State) : ((s.trialOver x).sup.slot x).st = .active ∧ ((s.trialOver x).sup.slot (1 - x)).st = .inactive ∧
    (s.trialOver x).sup.trialOn = false := by
  obtain ⟨htarget, hother⟩ := marked_slots x true s.sup
  have h1 := congrArg Slot.st htarget
  have h2 := congrArg Slot.st hother
  exact ⟨h1, h2, rfl⟩

theorem trialEnd_eq {s : State} {x : Nat} (hon : s.sup.trialOn = true) (hx : s.sup.slotIn .trial = some x) :
    trialEnd s = (s.trialOver x).supEvent 71 0x23 (s.sup.slot x).version noSource := by
  have hslot := congrArg Slot.version (marked_slots x true s.sup).1
  have hv : ((s.trialOver x).sup.slot x).version = (s.sup.slot x).version := hslot
  unfold trialEnd
  rw [hon, hx, ← hv]
  rfl

/-- The switch, its reports, its end, and a reset into the target. -/
theorem updateCourse : Claim.UpdateCourse := by
  unfold Claim.UpdateCourse
  refine ⟨?switch, ?tags, ?stays, ?report, ?last, ?trial, ?restart⟩
  case switch =>
    intro i s l rest hl hw htodo h0
    have hgo : ¬(l.waiting.isSome ∨ l.todo.head? ≠ some i ∨ (i = 0 ∧ (s.start.sup.perst ∨ s.start.hqe.tags ≠ []))) := by
      rintro (h | h | ⟨h, h' | h'⟩)
      · simp [hw] at h
      · simp [htodo] at h
      · exact absurd ((h0 h).1.symm.trans h') (by decide)
      · exact h' (h0 h).2
    obtain ⟨hother, hcases⟩ := bankSwitch_eq (s := s.start) hl hgo
    obtain ⟨hbank, hbanks⟩ := swaps_banks i l s.start
    have hlive : (s.start.swaps i l).sup.live = some { l with waiting := some i, todo := rest } := by
      change some { l with waiting := some i, todo := l.todo.drop 1 } = _
      rw [htodo]
      rfl
    refine ⟨_, rfl, ?_⟩
    have hsup : part .sup (bankSwitch i s.start) = part .sup (s.start.swaps i l) := by
      rcases hcases with h | ⟨x, h⟩
      · rw [h]
      · rw [h]
        exact exFail_part (by simp) ..
    have hb : (bankSwitch i s.start).sup.banks = (s.start.swaps i l).sup.banks := sup_of_part hsup Sup.banks fun _ => rfl
    refine ⟨(sup_of_part hsup Sup.live fun _ => rfl).trans hlive, ?_, ?_, fun h6 => ?_⟩
    · rw [hb]
      exact hbank
    · rw [hb]
      exact hbanks
    · rw [hother h6]
      exact ⟨rfl, rfl⟩
  case tags =>
    intro s htags
    refine ⟨_, rfl, ?_⟩
    cases hl : s.sup.live with
    | none =>
      unfold bankSwitch
      rw [show s.start.sup.live = none from hl]
      rfl
    | some l => exact bankSwitch_stays (s := s.start) hl (.inr (.inr ⟨rfl, .inr htags⟩))
  case stays =>
    intro i s l hl h
    exact ⟨_, rfl, bankSwitch_stays (s := s.start) hl (h.imp id .inl)⟩
  case report =>
    intro i s l hm hi hp hl hw htodo hready
    have hset := islandIsReady_of_hqeReady (s := s.start) hready i
    have he : islandReady i s.start = (s.start.setReady i).reports i l := by
      rw [islandReady_eq (s := s.start) hm hi hp, hset, liveReady_eq (s := s.start.setReady i) hl hw]
      exact if_neg (by simpa using htodo)
    have hsup := reports_sup i l (s.start.setReady i)
    obtain ⟨hself, hothers⟩ := switchedBit_bits i s.sup.switched
    refine ⟨_, congrArg Host.Outcome.next he, ?_⟩
    obtain ⟨hfwd, hres⟩ := reports_moved i l (s.start.setReady i)
    rw [hsup]
    exact ⟨rfl, hself, hothers, by rw [Nat.mod_eq_of_lt (by omega)], rfl, hfwd, hres⟩
  case last =>
    intro i s l hm hi hp hl hw htodo htarget hready hown
    have hset := islandIsReady_of_hqeReady (s := s.start) hready i
    have he : islandReady i s.start = ((s.start.setReady i).reports i l).liveEnds { l with waiting := none } := by
      rw [islandReady_eq (s := s.start) hm hi hp, hset, liveReady_eq (s := s.start.setReady i) hl hw]
      exact if_pos (by simp [htodo])
    refine ⟨_, congrArg Host.Outcome.next he, ?_⟩
    have hsup := reports_sup i l (s.start.setReady i)
    obtain ⟨hself, -⟩ := switchedBit_bits i s.sup.switched
    obtain ⟨hfwd, hres⟩ := reports_moved i l (s.start.setReady i)
    have hparts {π : Part} (hp : π ∉ [.fwd, .ready, .rings, .faults, .sj, .sup, .evr, .out, .cur]) :
        part π ((s.start.setReady i).reports i l) = part π s.start := by
      simp only [List.mem_cons, List.not_mem_nil, or_false, not_or] at hp
      exact (supEvent_part (by simp [hp]) ..).trans ((onSup_kept (by simp [hp]) ..).trans (onSup_kept (by simp [hp]) ..))
    have hslot : ((s.start.setReady i).reports i l).sup.slot l.target = s.sup.slot l.target := by
      rw [hsup]
      rfl
    have hswitched : ((s.start.setReady i).reports i l).sup.switched = switchedBit i s.sup.switched := congrArg Sup.switched hsup
    generalize (s.start.setReady i).reports i l = u at hparts hfwd hres hslot hswitched
    obtain ⟨ev, htesting, hend, hevent, hdone, hkept⟩ := liveEnds_spec { l with waiting := none } u
    have hcompleted := completedAs_moved (complete_moved (s1 := u.onSup (Sup.ended { l with waiting := none })) (st := stDONE)
      (r := (u.sup.ended { l with waiting := none }).switched) hown ⟨hfwd, hres⟩) hdone
    have hall {π : Part} (hp : π ∉ [.fwd, .ready, .rings, .faults, .sj, .sup, .evr, .out, .cur]) :
        part π (u.liveEnds { l with waiting := none }) = part π s.start := (hkept π hp).trans (hparts hp)
    obtain ⟨htarget, hother⟩ := marked_slots l.target l.rollback u.sup
    rw [ended_eq] at hend hcompleted
    have hcfg := hall (π := .cfg) (by simp)
    have hspa := hall (π := .spa) (by simp)
    have hpsc := hall (π := .psc) (by simp)
    have hkce := hall (π := .kce) (by simp)
    generalize u.liveEnds { l with waiting := none } = t at *
    beta_reduce
    rw [hend]
    refine ⟨rfl, rfl, congrArg Slot.version hslot, congrArg Slot.formats hslot, rfl, htesting, (congrArg (bit · i) hswitched).trans hself, hcompleted,
      fun hr => ⟨?_, ?_, ?_, ?_, ?_⟩, fun hr => ⟨?_, ?_, ?_⟩, hcfg, hspa, hpsc, hkce⟩
    · exact (congrArg Slot.st htarget).trans (by rw [hr]; rfl)
    · exact (congrArg Slot.st hother).trans (by rw [hr]; rfl)
    · exact congrArg not hr
    · exact if_neg (by rw [hr]; decide)
    · exact (hevent hr).trans (by rw [hslot])
    · exact (congrArg Slot.st htarget).trans (by rw [hr]; rfl)
    · exact (congrArg Slot.st hother).trans (by rw [hr]; rfl)
    · exact congrArg not hr
  case trial =>
    intro s x hon hx
    have hsup := supEvent_sup 71 0x23 (s.start.sup.slot x).version noSource (s.start.trialOver x)
    obtain ⟨hfwd, hres⟩ := supEvent_moved 71 0x23 (s.start.sup.slot x).version noSource (s.start.trialOver x)
    refine ⟨_, congrArg Host.Outcome.next (trialEnd_eq (s := s.start) hon hx), ?_⟩
    beta_reduce
    rw [hsup]
    obtain ⟨hactive, hinactive, hoff⟩ := trialOver_sup x s.start
    exact ⟨(congrArg Slot.st (slot_lastEvent ..)).trans hactive, (congrArg Slot.st (slot_lastEvent ..)).trans hinactive, hoff, rfl, hfwd, hres⟩
  case restart =>
    intro s x hr hx hm hstaging
    refine ⟨s.start.mainReset 4, congrArg Host.Outcome.next (restartReset_eq (s := s.start) hr hm), mainReset_islands 4 s.start, mainReset_saggar 4 s.start, ?_⟩
    obtain ⟨hst, hlast, hresets, hboot, -, -, hnone⟩ := mainReset_boot (s := s.start) hstaging 4
    refine ⟨hst, hlast, hboot.trans ?_, hnone, hresets⟩
    unfold Sup.bootTarget
    rw [show s.start.sup.slotIn .trial = some x from hx]
    rfl

/-- Settles O57: an image is staged, switched to, tried and rolled back. -/
theorem firmwareInService : Obligations.FirmwareInService := ⟨updateStaging, updateCourse⟩

end Sys2Proof.Machine
end
section
/-! PROOFS. Power, start-up, the watchdog and PERST#: what the operations they share keep -/

namespace Sys2Proof.Machine

open Sys2Proof

/-! ### Records that stay in the journal -/

/-- A record of the fault journal with at most `k` behind it. -/
def Recent (k : Nat) (r : FaultRec) (s : State) : Prop := ∃ pre post, s.sup.journal = pre ++ r :: post ∧ post.length ≤ k

theorem Recent.mem {k : Nat} {r : FaultRec} {s : State} (h : Recent k r s) : r ∈ s.sup.journal := by
  obtain ⟨pre, post, he, -⟩ := h
  rw [he]
  simp

/-- At most `n` records have joined the journal. -/
structure Grew (n : Nat) (s t : State) : Prop where
  recent : ∀ k r, Recent k r s → k + n < 1024 → Recent (k + n) r t

theorem Grew.of_journal {s t : State} (h : t.sup.journal = s.sup.journal) : Grew 0 s t where
  recent := by
    intro k r hr _
    obtain ⟨pre, post, he, hk⟩ := hr
    exact ⟨pre, post, h.trans he, hk⟩

theorem Grew.mono {n m : Nat} {s t : State} (h : Grew n s t) (hle : n ≤ m) : Grew m s t where
  recent := by
    intro k r hr hlt
    obtain ⟨pre, post, he, hk⟩ := h.recent k r hr (by omega)
    exact ⟨pre, post, he, by omega⟩

theorem Grew.trans {n m : Nat} {s t u : State} (h1 : Grew n s t) (h2 : Grew m t u) : Grew (n + m) s u where
  recent := by
    intro k r hr hlt
    rw [← Nat.add_assoc]
    exact h2.recent _ r (h1.recent k r hr (by omega)) (by omega)

theorem Grew.refl (n : Nat) (s : State) : Grew n s s := (Grew.of_journal rfl).mono (Nat.zero_le n)

theorem Grew.foldl {α : Type} {n : Nat} {f : State → α → State} (h : ∀ s x, Grew n s (f s x)) (l : List α) (s : State) :
    Grew (n * l.length) s (l.foldl f s) := by
  induction l generalizing s with
  | nil => exact .refl ..
  | cons x l ih => exact ((h s x).trans (ih _)).mono (by rw [List.length_cons, Nat.mul_succ]; omega)

theorem journalPut_journal (r : FaultRec) (p : Sup) : (p.journalPut r).journal =
    (p.journal ++ [{ r with seq := (p.journalSeq + 1) % 2 ^ 32 }]).drop (p.journal.length + 1 - 1024) := by
  simp only [Sup.journalPut]

theorem faultRec_log (i c a0 a1 a2 : Nat) (s : State) : (s.faultRec i c a0 a1 a2).sup.journal = if s.sup.holdupReady then
    (s.sup.journal ++ [(⟨s.sTime, (s.sup.journalSeq + 1) % 2 ^ 32, i, false, c, a0, a1, a2⟩ : FaultRec)]).drop (s.sup.journal.length + 1 - 1024)
    else s.sup.journal := by
  have hs : (s.faultRec i c a0 a1 a2).sup = if s.sup.holdupReady then s.sup.journalPut ⟨s.sTime, 0, i, false, c, a0, a1, a2⟩
    else { s.sup with deferred := s.sup.deferred ++ [⟨s.sTime, 0, i, false, c, a0, a1, a2⟩] } := rfl
  rw [hs]
  by_cases h : s.sup.holdupReady = true
  · rw [if_pos h, if_pos h, journalPut_journal]
  · rw [if_neg h, if_neg h]

theorem faultRec_grew (i c a0 a1 a2 : Nat) (s : State) : Grew 1 s (s.faultRec i c a0 a1 a2) where
  recent := by
    intro k r hr hlt
    obtain ⟨pre, post, he, hk⟩ := hr
    unfold Recent
    rw [faultRec_log]
    split
    · rw [he]
      refine ⟨pre.drop ((pre ++ r :: post).length + 1 - 1024), post ++ [⟨s.sTime, (s.sup.journalSeq + 1) % 2 ^ 32, i, false, c, a0, a1, a2⟩], ?_,
        by simpa using hk⟩
      rw [List.append_assoc, List.drop_append_of_le_length (by simp; omega), List.cons_append]
    · exact ⟨pre, post, he, by omega⟩

theorem faultRec_recent {s : State} (h : s.sup.holdupReady = true) (i c a0 a1 a2 : Nat) :
    Recent 0 ⟨s.sTime, (s.sup.journalSeq + 1) % 2 ^ 32, i, false, c, a0, a1, a2⟩ (s.faultRec i c a0 a1 a2) := by
  refine ⟨s.sup.journal.drop (s.sup.journal.length + 1 - 1024), [], ?_, Nat.le_refl _⟩
  rw [faultRec_log, if_pos h, List.drop_append_of_le_length (by omega)]

theorem grew_of_faults {s t : State} (h : part .faults t = part .faults s) : Grew 0 s t := .of_journal (congrArg (fun x => x.2.1) h)

theorem onCh_grew {k : Nat} (n : Nat) (f : LChan → LChan) (s : State) : Grew k s (s.onCh n f) :=
  (Grew.of_journal (s := s) (t := s.onCh n f) rfl).mono (Nat.zero_le k)

theorem onSpa_grew {k : Nat} (f : Spa → Spa) (s : State) : Grew k s (s.onSpa f) := (Grew.of_journal (s := s) (t := s.onSpa f) rfl).mono (Nat.zero_le k)

theorem took_grew {k : Nat} (s : State) : Grew k s s.took := (Grew.of_journal (s := s) (t := s.took) rfl).mono (Nat.zero_le k)

/-! ### A load switch ordered, a port judged -/

theorem lswEvent_grew (src sub arg : Nat) (fault : Option (Nat × Nat)) (s : State) : Grew 1 s (s.lswEvent src sub arg fault) := by
  have hpost (u : State) : Grew 0 s u → Grew 0 s (u.postEvent .pf0 65 sub arg src) := fun h => h.trans (grew_of_faults (postEvent_part (by simp) ..))
  unfold State.lswEvent
  dsimp only
  split
  · exact .refl ..
  · split
    · exact (hpost (s.onLsw _) (.of_journal rfl)).mono (m := 1) (by decide)
    · exact ((hpost (s.onLsw _) (.of_journal rfl)).trans (faultRec_grew ..)).mono (Nat.le_refl _)

theorem journalCh_grew (n : Nat) (s : State) : Grew 0 s (s.journalCh n) := grew_of_faults (journalCh_part (by simp) n s)

theorem lockCh_grew (n cause sub arg code : Nat) (s : State) : Grew 1 s (s.lockCh n cause sub arg code) := by
  unfold State.lockCh
  generalize (s.ch n).current = cur
  have h0 : Grew 0 s (s.onCh n (fun c => { c with st := .lockout, cause := cause, retryAt := none, frozen := none, defer := 0, dApp := 0 })) := .of_journal rfl
  exact ((h0.trans (lswEvent_grew n sub arg (some (code, cur)) _)).trans (journalCh_grew n _)).mono (Nat.le_refl _)

theorem clampEnergy_grew (n : Nat) (s : State) : Grew 1 s (s.clampEnergy n) := by
  unfold State.clampEnergy
  dsimp only
  split
  · exact .refl ..
  · split
    · refine (Grew.trans (n := 0) (m := 1) ?_ (lockCh_grew ..)).mono (by decide)
      exact .of_journal rfl
    · exact (took_grew (k := 0) s).trans (onCh_grew (k := 1) n _ _)

theorem turnOff_grew (n : Nat) (st : LSt) (s : State) : Grew 1 s (s.turnOff n st) := by
  have h : Grew 0 s ((s.onCh n (fun c => { c with st := st, dApp := 0, defer := 0 })).driveCh n false) :=
    grew_of_faults ((driveCh_part (by simp) ..).trans rfl)
  exact (h.trans (clampEnergy_grew n _)).mono (m := 1) (Nat.le_refl _)

theorem applyOrder_grew (n : Nat) (s : State) : Grew 1 s (s.applyOrder n) := by
  have hrefl : Grew 1 s s := (Grew.of_journal rfl).mono (Nat.zero_le 1)
  have hch (f : LChan → LChan) : Grew 1 s (s.onCh n f) := onCh_grew ..
  unfold State.applyOrder
  dsimp only
  split
  · exact hrefl
  · split
    · exact hrefl
    · exact (grew_of_faults (turnOn_part (by simp) ..)).mono (by decide)
  · split
    · exact hch _
    · exact hrefl
  · split
    · exact hch _
    · exact hrefl
  · split
    · exact ((turnOff_grew n .off s).trans (grew_of_faults (takeDeferred_part (by simp) _))).mono (by decide)
    · exact hrefl
  · split
    · exact turnOff_grew ..
    · split
      · exact hch _
      · exact hrefl
  · split
    · exact turnOff_grew ..
    · split
      · exact hch _
      · exact hrefl

theorem orderCh_grew (n mode duty : Nat) (s : State) : Grew 1 s (s.orderCh n mode duty) := by
  have h : Grew 0 s (s.onCh n (fun c => { c with order := mode, duty := duty })) := .of_journal rfl
  exact (h.trans (applyOrder_grew n _)).mono (by decide)

theorem nvmDefaults_grew (s : State) : Grew 24 s s.nvmDefaults := by
  unfold State.nvmDefaults
  generalize (if s.sup.bisqueValid then s.sup.nvmChans else []) = l
  exact (Grew.foldl (fun s n => orderCh_grew n (l.getD n ChanRec.off).default (l.getD n ChanRec.off).duty s) (List.range 24) s).mono
    (by rw [List.length_range])

theorem portStop_grew (n : Nat) (s : State) : Grew 0 s (s.portStop n) := grew_of_faults (portStop_part (by simp) ..)

theorem vpcEvent_grew (p sub arg : Nat) (s : State) : Grew 0 s (s.vpcEvent p sub arg) := grew_of_faults (vpcEvent_part (by simp) ..)

theorem Grew.ite {n : Nat} {c : Prop} [Decidable c] {s t u : State} (ht : Grew n s t) (hu : Grew n s u) : Grew n s (if c then t else u) := by
  split
  · exact ht
  · exact hu

theorem evalPort_grew (n : Nat) (s : State) : Grew 1 s (s.evalPort n) := by
  have hport (p : Port) : Grew 0 s (s.onPrt n (fun _ => p)) := .of_journal rfl
  have hspa {u : State} (f : Spa → Spa) (h : Grew 1 s u) : Grew 1 s (u.onSpa f) := h.trans (onSpa_grew (k := 0) f u)
  have hevent (p : Port) (arg : Nat) : Grew 0 s ((s.onPrt n (fun _ => p)).vpcEvent n 0x01 arg) := (hport p).trans (vpcEvent_grew ..)
  have hlogged (p : Port) (arg a0 a1 a2 : Nat) : Grew 1 s (((s.onPrt n (fun _ => p)).vpcEvent n 0x01 arg).faultRec 5 0x0601 a0 a1 a2) :=
    ((hevent p arg).trans (faultRec_grew ..)).mono (Nat.le_refl 1)
  unfold State.evalPort
  dsimp only
  refine .ite ((hport _).mono (Nat.zero_le 1)) (.ite ?_ ?_)
  · exact (hspa _ (.ite (hlogged ..) ((hevent ..).mono (Nat.zero_le 1)))).trans (portStop_grew ..)
  · exact hspa _ (.ite (hlogged ..) ((hevent ..).mono (Nat.zero_le 1)))

end Sys2Proof.Machine
end
section
/-! PROOFS. Power, start-up, the watchdog and PERST# -/

namespace Sys2Proof.Machine

open Sys2Proof

/-! ### What the loss of the main die keeps of the journals -/

/-- The Spire is as it was where none of its parts has changed. -/
theorem sup_of_frame {l : List Part} {s t : State} (h : ∀ π, π ∉ l → part π t = part π s) (hf : Part.faults ∉ l) (hj : Part.sj ∉ l)
    (hs : Part.sup ∉ l) : t.sup = s.sup := by
  have he := congrArg State.sup (eq_frameOf l h)
  simpa [frameOf, pick, hf, hj, hs] using he

theorem safeLinks_sup (s : State) : s.safeLinks.pilotsDefault.sup = s.sup :=
  sup_of_frame (l := [.pla, .out, .free]) (fun π hp => by
    simp only [List.mem_cons, List.not_mem_nil, or_false, not_or] at hp
    exact (pilotsDefault_part (by simp [hp]) _).trans (safeLinks_part (by simp [hp]) s)) (by simp) (by simp) (by simp)

/-- Without a commit in progress the loss of the main die writes no record. -/
theorem mainDown_journals {s : State} (h : s.sup.commit = none) (st : DevState) : (s.mainDown st).sup.SameJournals s.sup := by
  have hu := safeLinks_sup s
  rw [mainDown_eq]
  unfold State.beforeLoss
  generalize s.safeLinks.pilotsDefault = u at hu
  have habort : (u.onSup (fun p => { p with readyMask := 0x100, lastEvent := none })).abortCommit =
      u.onSup (fun p => { p with readyMask := 0x100, lastEvent := none }) := by
    unfold State.abortCommit
    rw [show (u.onSup (fun p => { p with readyMask := 0x100, lastEvent := none })).sup.commit = none from (congrArg Sup.commit hu).trans h]
  rw [habort]
  obtain ⟨_, _, _, _, hs⟩ := setState_sup st 0 (u.onSup (fun p => { p with readyMask := 0x100, lastEvent := none }))
  generalize (u.onSup (fun p => { p with readyMask := 0x100, lastEvent := none })).setState st 0 = v at hs
  have hv : v.sup.SameJournals s.sup := by
    rw [hs, ← hu]
    exact ⟨rfl, rfl, rfl, rfl, rfl⟩
  obtain ⟨h1, h2, h3, h4, h5⟩ := hv
  have hl := mainLost_eq v.sup
  exact ⟨(congrArg Sup.journal hl).trans h1, (congrArg Sup.journalSeq hl).trans h2, (congrArg Sup.deferred hl).trans h3,
    (congrArg Sup.sjSlots hl).trans h4, (congrArg Sup.sjNext hl).trans h5⟩

/-! ### Power (R45, R50, R54, R491) -/

/-- The end of a power-fail: the main die down and the Spire without its supply. -/
def State.dies (s : State) : State := (s.mainDown .powerFail).islandsReset.unpowered.pilotsOff

/-- The Spire once the supply has gone. -/
def Sup.unfed (free : Nat) (p : Sup) : Sup := { p with
  powered := 0x100, readySince := 0x100, held := false, main12v := Config.freeNat free % 10200
  charge := Config.freeNat (free + 1) % 101, holdupReady := false, reserveReady := false, darkSince := some p.spireTime, deferred := [] }

theorem unpowered_sup (s : State) : s.islandsReset.unpowered.sup = s.sup.unfed s.free := rfl

theorem pilotsOff_sup (s : State) : s.pilotsOff.sup = s.sup :=
  sup_of_frame (fun _ hp => pilotsOff_part hp s) (by simp) (by simp) (by simp)

theorem dies_sup (s : State) : ∃ free, s.dies.sup = (s.mainDown .powerFail).sup.unfed free := by
  unfold State.dies
  rw [pilotsOff_sup, unpowered_sup]
  exact ⟨_, rfl⟩

/-- Sixteen pilots switched off. -/
def Vpc.pilotsOff (v : Vpc) : Vpc := (List.range 16).foldl (fun v n => { v with ports := upd v.ports n (fun p => { p with pinMode := 3, pinDuty := 0 }) }) v

theorem pilotsOff_vpc (s : State) : s.pilotsOff.vpc = s.vpc.pilotsOff := by
  unfold State.pilotsOff Vpc.pilotsOff
  generalize List.range 16 = l
  induction l generalizing s with
  | nil => rfl
  | cons n l ih => exact ih ..

theorem islandsReset_islands (s : State) : s.islandsReset.cfg = none ∧ s.islandsReset.hqe.fwd = [] ∧ s.islandsReset.hqe.ready = [] ∧
    s.islandsReset.spa = Spa.reset ∧ s.islandsReset.kce = Kce.reset ∧ s.islandsReset.psc = Psc.reset ∧ s.islandsReset.pla = Pla.reset ∧
    s.islandsReset.vpc = Vpc.reset ∧ s.islandsReset.bse = Bse.reset ∧ s.islandsReset.blk = Blk.reset := ⟨rfl, rfl, rfl, rfl, rfl, rfl, rfl, rfl, rfl, rfl⟩

theorem dies_islands (s : State) : IslandsAtReset 3 s.dies := by
  have hvpc : Vpc.reset.pilotsOff = ⟨List.replicate 16 { Port.reset with pinMode := 3 }, none⟩ := by decide
  unfold State.dies
  obtain ⟨h1, h2, h3, h4, h5, h6, h7, h8, h9, h10⟩ := islandsReset_islands (s.mainDown .powerFail)
  generalize (s.mainDown .powerFail).islandsReset = u at *
  have hp {π : Part} (h : π ∉ [Part.vpc, .out, .faults, .sup, .free]) : part π u.unpowered.pilotsOff = part π u := by
    simp only [List.mem_cons, List.not_mem_nil, or_false, not_or] at h
    exact (pilotsOff_part (by simp [h]) _).trans (unpowered_part (by simp [h]) u)
  refine ⟨(hp (π := .cfg) (by simp)).trans h1, (hp (π := .fwd) (by simp)).trans h2, (hp (π := .ready) (by simp)).trans h3,
    (hp (π := .spa) (by simp)).trans h4, (hp (π := .kce) (by simp)).trans h5, (hp (π := .psc) (by simp)).trans h6,
    (hp (π := .pla) (by simp)).trans h7, ?_, (hp (π := .bse) (by simp)).trans h9, (hp (π := .blk) (by simp)).trans h10⟩
  rw [pilotsOff_vpc, show u.unpowered.vpc = u.vpc from rfl, h8, hvpc]

theorem dies_saggar (s : State) : SaggarUnasked s s.dies := by
  have hp {π : Part} (h : π ∈ [Part.sgm, .bte, .cell]) : part π s.dies = part π s := by
    simp only [List.mem_cons, List.not_mem_nil, or_false] at h
    unfold State.dies
    rcases h with rfl | rfl | rfl <;>
    exact (pilotsOff_part (by simp) _).trans ((unpowered_part (by simp) _).trans ((islandsReset_part (by simp) _).trans (mainDown_part (by simp) ..)))
  refine ⟨hp (π := .sgm) (by simp), hp (π := .bte) (by simp), ?_, hp (π := .cell) (by simp)⟩
  have hmss : (s.mainDown .powerFail).mss = s.mss := mainDown_part (π := .mss) (by simp) ..
  have hrest : s.dies.mss = (s.mainDown .powerFail).islandsReset.mss := (pilotsOff_part (π := .mss) (by simp) _).trans (unpowered_part (π := .mss) (by simp) _)
  rw [hrest, ← hmss]
  generalize s.mainDown .powerFail = u
  rfl

theorem powerFail_off {s : State} (h : s.sup.powered % 128 = 0) : powerFail s = s := if_pos h

theorem powerFail_eq {s : State} (h : s.sup.powered % 128 ≠ 0) :
    (s.sup.st ≠ .shipPending → powerFail s = s.holdupWrites.dies) ∧
    (s.sup.st = .shipPending → powerFail s = ((s.onSup (fun p => { p with holdupReady := false })).dropWrites.dies).spireOff.shipOrder) := by
  unfold powerFail
  rw [if_neg h]
  dsimp only
  refine ⟨fun hs => ?_, fun hs => ?_⟩
  · rw [if_neg hs, if_neg hs]
    rfl
  · rw [if_pos hs, if_pos hs]
    rfl

/-- The hold-up writes with the hold-up available. -/
theorem holdupWrites_ready {s : State} (h : s.sup.holdupReady = true) : s.holdupWrites =
    ((s.faultRec 8 0x0001 (s.sup.uptime / 1000000) 0 0).journalStrings.journalSessions).powerFailQuants := if_pos h

theorem holdupWrites_part' {π : Part} {s : State} (h : s.sup.holdupReady = true) (hp : π ∉ [Part.faults, .sj, .evr]) :
    part π s.holdupWrites = part π s := by
  simp only [List.mem_cons, List.not_mem_nil, or_false, not_or] at hp
  rw [holdupWrites_ready h]
  exact (powerFailQuants_part (by simp [hp]) _).trans ((journalSessions_part (by simp [hp]) _).trans ((journalStrings_part (by simp [hp]) _).trans
    (faultRec_part (by simp [hp]) ..)))

/-- The state journal of the hold-up holds the session counter. -/
theorem journalSessions_sj {s : State} (h : s.sup.holdupReady = true) : s.journalSessions.sup.sj.sessions = s.sup.sessionCtr := by
  have he : s.journalSessions.sup = s.sup.sjPut { s.sup.sjNext.getD s.sup.sj with sessions := s.sup.sessionCtr } := if_pos h
  rw [he, sjPut_sj]

theorem holdupWrites_journals {s : State} (h : s.sup.holdupReady = true) :
    (∃ r, s.holdupWrites.sup.journal.getLast? = some r ∧ r.code = 0x0001 ∧ r.arg0 = s.sup.uptime / 1000000) ∧
    s.holdupWrites.sup.sj.sessions = s.sup.sessionCtr := by
  rw [holdupWrites_ready h]
  have hsup (u : State) : u.powerFailQuants.sup = u.sup := sup_of_frame (fun _ hp => powerFailQuants_part hp u) (by simp) (by simp) (by simp)
  rw [hsup]
  have hlast : ∃ r, (s.faultRec 8 0x0001 (s.sup.uptime / 1000000) 0 0).sup.journal.getLast? = some r ∧ r.code = 0x0001 ∧ r.arg0 = s.sup.uptime / 1000000 := by
    obtain ⟨pre, post, he, hlen⟩ := faultRec_recent h 8 0x0001 (s.sup.uptime / 1000000) 0 0
    obtain rfl := List.eq_nil_of_length_eq_zero (Nat.le_zero.mp hlen)
    exact ⟨_, by rw [he]; exact List.getLast?_concat .., rfl, rfl⟩
  have hready : (s.faultRec 8 0x0001 (s.sup.uptime / 1000000) 0 0).sup.holdupReady = s.sup.holdupReady :=
    sup_of_part (faultRec_part (by simp) ..) Sup.holdupReady fun _ => rfl
  have hctr : (s.faultRec 8 0x0001 (s.sup.uptime / 1000000) 0 0).sup.sessionCtr = s.sup.sessionCtr :=
    sup_of_part (faultRec_part (by simp) ..) Sup.sessionCtr fun _ => rfl
  generalize s.faultRec 8 0x0001 (s.sup.uptime / 1000000) 0 0 = u at *
  have hfaults : part .faults u.journalStrings.journalSessions = part .faults u := (journalSessions_part (by simp) _).trans (journalStrings_part (by simp) u)
  have hstrings : part .sup u.journalStrings = part .sup u := journalStrings_part (by simp) u
  refine ⟨?_, ?_⟩
  · rw [show u.journalStrings.journalSessions.sup.journal = u.sup.journal from congrArg (fun x => x.2.1) hfaults]
    exact hlast
  · rw [journalSessions_sj ((sup_of_part hstrings Sup.holdupReady fun _ => rfl).trans (hready.trans h))]
    exact (sup_of_part hstrings Sup.sessionCtr fun _ => rfl).trans hctr

/-- What waits for Spire NVM is lost with the supply. -/
theorem dropWrites_sup {s : State} {m : NvMarks} (h : s.sup.marksOld = some m) : s.dropWrites.sup = { s.sup with
    bisqueValid := m.bisqueValid, bisqueSlot := m.bisqueSlot, bisqueId := m.bisqueId, bisqueImage := m.bisqueImage
    slotA := m.slotA, slotB := m.slotB, resets := m.resets, saggarSerial := m.saggarSerial, marksOld := none
    deferred := [], sjNext := none, impsNext := none, retNext := none } := by
  have he : s.dropWrites.sup = { s.sup.unmark with deferred := [], sjNext := none, impsNext := none, retNext := none } := rfl
  rw [he]
  unfold Sup.unmark
  rw [h]

/-- What a supply lost keeps of the marks in NVM and of the journal. -/
def Sup.nvm (p : Sup) : Slot × Slot × Nat × List RawRec × Nat × List FaultRec := (p.slotA, p.slotB, p.resets, p.bisqueImage, p.saggarSerial, p.journal)

theorem dies_nvm {s : State} (hc : s.sup.commit = none) (hst : s.sup.staging = none) : s.dies.sup.nvm = s.sup.nvm := by
  obtain ⟨free, hd⟩ := dies_sup s
  obtain ⟨ha, hb⟩ := mainDown_slots hst .powerFail
  have hresets : (s.mainDown .powerFail).sup.resets = s.sup.resets := mainDown_field (f := Sup.resets) (fun _ => rfl) (fun _ _ _ _ => rfl) _ s
  have himage : (s.mainDown .powerFail).sup.bisqueImage = s.sup.bisqueImage := mainDown_field (f := Sup.bisqueImage) (fun _ => rfl) (fun _ _ _ _ => rfl) _ s
  have hserial : (s.mainDown .powerFail).sup.saggarSerial = s.sup.saggarSerial := mainDown_field (f := Sup.saggarSerial) (fun _ => rfl) (fun _ _ _ _ => rfl) _ s
  obtain ⟨hjournal, -⟩ := mainDown_journals hc .powerFail
  have hu : (s.mainDown .powerFail).sup.nvm = s.sup.nvm := by
    unfold Sup.nvm
    rw [ha, hb, hresets, himage, hserial, hjournal]
  have hunfed (p : Sup) : (p.unfed free).nvm = p.nvm := rfl
  rw [hd, hunfed, hu]

/-- A Spire without supply keeps what its NVM holds. -/
theorem spireOff_nvm (s : State) : s.spireOff.shipOrder.sup.nvm = s.sup.nvm := by
  have h : s.spireOff.shipOrder.sup = s.spireOff.sup := sup_of_frame (fun _ hp => shipOrder_part hp _) (by simp) (by simp) (by simp)
  rw [h]
  rfl

/-- A power-fail that the hold-up covers. -/
theorem powerFail_heldUp {s : State} (hst : s.sup.st ≠ .shipPending) (hp : s.sup.powered % 128 ≠ 0) (hh : s.sup.holdupReady = true) (hc : s.sup.commit = none)
    (hs : s.sup.staging = none) : IslandsAtReset 3 (powerFail s) ∧ SaggarUnasked s (powerFail s) ∧ (powerFail s).sup.st = .powerFail ∧
    (powerFail s).sup.powered = 0x100 ∧ (powerFail s).sup.main12v < 10200 ∧ (powerFail s).sup.charge ≤ 100 ∧
    (powerFail s).sup.stime = s.sup.stime ∧ (powerFail s).sup.nvm = (s.sup.slotA, s.sup.slotB, s.sup.resets, s.sup.bisqueImage, s.sup.saggarSerial,
      s.holdupWrites.sup.journal) ∧ (powerFail s).sup.sj = s.holdupWrites.sup.sj ∧ (powerFail s).sup.holdupReady = false := by
  rw [(powerFail_eq hp).1 hst]
  have hsup : part .sup s.holdupWrites = part .sup s := holdupWrites_part' hh (by simp)
  have hc' : s.holdupWrites.sup.commit = none := (sup_of_part hsup Sup.commit fun _ => rfl).trans hc
  have hs' : s.holdupWrites.sup.staging = none := (sup_of_part hsup Sup.staging fun _ => rfl).trans hs
  have hsaggar := dies_saggar s.holdupWrites
  have hnvm := dies_nvm hc' hs'
  have hislands := dies_islands s.holdupWrites
  have hkept : SaggarKept s s.holdupWrites := ⟨holdupWrites_part (π := .sgm) (by simp) s, holdupWrites_part (π := .bte) (by simp) s,
    holdupWrites_part (π := .mss) (by simp) s, holdupWrites_part (π := .cell) (by simp) s⟩
  obtain ⟨free, hd⟩ := dies_sup s.holdupWrites
  have hdown := mainDown_st .powerFail s.holdupWrites
  have hstime : (s.holdupWrites.mainDown .powerFail).sup.stime = s.sup.stime :=
    (mainDown_field (f := Sup.stime) (fun _ => rfl) (fun _ _ _ _ => rfl) _ _).trans (sup_of_part hsup Sup.stime fun _ => rfl)
  obtain ⟨-, -, -, hslots, -⟩ := mainDown_journals hc' .powerFail
  have hsj : (s.holdupWrites.mainDown .powerFail).sup.sj = s.holdupWrites.sup.sj := by
    unfold Sup.sj
    rw [hslots]
  have hnvm' : s.holdupWrites.sup.nvm = (s.sup.slotA, s.sup.slotB, s.sup.resets, s.sup.bisqueImage, s.sup.saggarSerial, s.holdupWrites.sup.journal) := by
    unfold Sup.nvm
    rw [sup_of_part hsup Sup.slotA fun _ => rfl, sup_of_part hsup Sup.slotB fun _ => rfl, sup_of_part hsup Sup.resets fun _ => rfl,
      sup_of_part hsup Sup.bisqueImage fun _ => rfl, sup_of_part hsup Sup.saggarSerial fun _ => rfl]
  generalize s.holdupWrites.mainDown .powerFail = v at hd hdown hstime hsj
  generalize s.holdupWrites.dies = t at *
  generalize s.holdupWrites = u at *
  obtain ⟨h1, h2, h3, h4⟩ := hsaggar
  obtain ⟨k1, k2, k3, k4⟩ := hkept
  refine ⟨hislands, ⟨h1.trans k1, h2.trans k2, by rw [h3, k3], h4.trans k4⟩, ?_, ?_, ?_, ?_, ?_, hnvm.trans hnvm', ?_, ?_⟩
  all_goals rw [hd]
  · exact hdown
  · rfl
  · exact Nat.mod_lt _ (by decide)
  · exact Nat.le_of_lt_succ (Nat.mod_lt _ (by decide))
  · exact hstime
  · exact hsj
  · rfl

/-- A power-fail before the hold-up is available. -/
theorem powerFail_dropped {s : State} {m : NvMarks} (hp : s.sup.powered % 128 ≠ 0) (hh : s.sup.holdupReady = false) (hm : s.sup.marksOld = some m)
    (hc : s.sup.commit = none) (hs : s.sup.staging = none) :
    (powerFail s).sup.nvm = (m.slotA, m.slotB, m.resets, m.bisqueImage, m.saggarSerial, s.sup.journal) := by
  obtain ⟨hheld, hship⟩ := powerFail_eq hp
  by_cases h : s.sup.st = .shipPending
  · rw [hship h, spireOff_nvm]
    have hd := dropWrites_sup (s := s.onSup (fun p => { p with holdupReady := false })) hm
    generalize (s.onSup (fun p => { p with holdupReady := false })).dropWrites = u at hd
    rw [dies_nvm (by rw [hd]; exact hc) (by rw [hd]; exact hs), hd]
    rfl
  · have hwrites : s.holdupWrites = s.dropWrites := if_neg (by rw [hh]; decide)
    have hd := dropWrites_sup hm
    rw [hheld h, hwrites]
    generalize s.dropWrites = u at hd
    rw [dies_nvm (by rw [hd]; exact hc) (by rw [hd]; exact hs), hd]
    rfl

/-! ### What waits for the hold-up is written (R491) -/

theorem journalPut_eq (r : FaultRec) (p : Sup) : ∃ j, p.journalPut r = { p with journal := j, journalSeq := (p.journalSeq + 1) % 2 ^ 32 } :=
  ⟨(p.journal ++ [{ r with seq := (p.journalSeq + 1) % 2 ^ 32 }]).drop (p.journal.length + 1 - 1024), by simp only [Sup.journalPut]⟩

theorem journalAll_eq (l : List FaultRec) (p : Sup) : ∃ j n, l.foldl (fun p r => p.journalPut r) p = { p with journal := j, journalSeq := n } ∧
    (l ≠ [] → n = (p.journalSeq + l.length) % 2 ^ 32) ∧ (l = [] → j = p.journal) := by
  induction l generalizing p with
  | nil => exact ⟨p.journal, p.journalSeq, rfl, fun h => absurd rfl h, fun _ => rfl⟩
  | cons r l ih =>
    obtain ⟨j1, h1⟩ := journalPut_eq r p
    obtain ⟨j, n, he, hn, -⟩ := ih (p.journalPut r)
    refine ⟨j, n, ?_, fun _ => ?_, fun h => absurd h nofun⟩
    · rw [List.foldl_cons, he, h1]
    · cases l with
      | nil =>
        have hq := (congrArg Sup.journalSeq he).symm
        rw [List.foldl_nil, h1] at hq
        exact hq
      | cons r' l =>
        rw [hn (by simp), h1, List.length_cons (a := r)]
        change ((p.journalSeq + 1) % 2 ^ 32 + (r' :: l).length) % 2 ^ 32 = _
        rw [Nat.mod_add_mod]
        congr 1
        omega

/-- A content that waits is written. -/
def Sup.writeSj (p : Sup) : Sup := match p.sjNext with | none => p | some j => p.sjPut j

def Sup.writeImps (p : Sup) : Sup := match p.impsNext with | none => p | some l => p.impPut l

def Sup.writeRet (p : Sup) : Sup := match p.retNext with | none => p | some m => p.retPut m

theorem writeSj_eq (p : Sup) : ∃ x, p.writeSj = { p with sjSlots := x, sjNext := none } ∧ p.writeSj.sj = p.sjNext.getD p.sj := by
  cases h : p.sjNext with
  | none =>
    have hw : p.writeSj = p := by
      unfold Sup.writeSj
      rw [h]
    exact ⟨p.sjSlots, by rw [hw, ← h], congrArg Sup.sj hw⟩
  | some j =>
    have hw : p.writeSj = p.sjPut j := by
      unfold Sup.writeSj
      rw [h]
    rw [hw]
    exact ⟨_, rfl, sjPut_sj ..⟩

theorem writeImps_eq (p : Sup) : ∃ x, p.writeImps = { p with impSlots := x, impsNext := none } ∧ p.writeImps.imps = p.impsNext.getD p.imps := by
  cases h : p.impsNext with
  | none =>
    have hw : p.writeImps = p := by
      unfold Sup.writeImps
      rw [h]
    exact ⟨p.impSlots, by rw [hw, ← h], congrArg Sup.imps hw⟩
  | some l =>
    have hw : p.writeImps = p.impPut l := by
      unfold Sup.writeImps
      rw [h]
    rw [hw]
    obtain ⟨x, hx, hl⟩ := nvNewest_nvPut impBytes l p.impSlots
    refine ⟨_, rfl, ?_⟩
    unfold Sup.imps Sup.impPut
    dsimp only
    rw [hx]
    exact hl

theorem writeRet_eq (p : Sup) : ∃ x, p.writeRet = { p with retSlots := x, retNext := none } ∧ p.writeRet.ret = p.retNext.getD p.ret := by
  cases h : p.retNext with
  | none =>
    have hw : p.writeRet = p := by
      unfold Sup.writeRet
      rw [h]
    exact ⟨p.retSlots, by rw [hw, ← h], congrArg Sup.ret hw⟩
  | some m =>
    have hw : p.writeRet = p.retPut m := by
      unfold Sup.writeRet
      rw [h]
    rw [hw]
    obtain ⟨x, hx, hl⟩ := nvNewest_nvPut RetireMap.bytes m p.retSlots
    refine ⟨_, rfl, ?_⟩
    unfold Sup.ret Sup.retPut
    dsimp only
    rw [hx]
    exact hl

/-- The Spire once its hold-up is available. -/
def Sup.heldUp (p : Sup) : Sup := { ((p.deferred.foldl (fun p r => p.journalPut r) p).writeSj.writeImps).writeRet with
  holdupReady := true, deferred := [], sjWait := [], marksOld := none }

theorem heldUp_eq (p : Sup) : ∃ j n x y z, p.heldUp = { p with
      journal := j, journalSeq := n, sjSlots := x, sjNext := none, impSlots := y, impsNext := none, retSlots := z, retNext := none
      holdupReady := true, deferred := [], sjWait := [], marksOld := none } ∧
    (p.deferred ≠ [] → n = (p.journalSeq + p.deferred.length) % 2 ^ 32) ∧ (p.deferred = [] → j = p.journal) ∧
    p.heldUp.sj = p.sjNext.getD p.sj ∧ p.heldUp.imps = p.impsNext.getD p.imps ∧ p.heldUp.ret = p.retNext.getD p.ret := by
  obtain ⟨j, n, h1, hn, hj⟩ := journalAll_eq p.deferred p
  unfold Sup.heldUp
  generalize p.deferred.foldl (fun p r => p.journalPut r) p = p1 at h1
  obtain ⟨x, h2, hsj⟩ := writeSj_eq p1
  generalize p1.writeSj = p2 at h2 hsj
  obtain ⟨y, h3, himps⟩ := writeImps_eq p2
  generalize p2.writeImps = p3 at h3 himps
  obtain ⟨z, h4, hret⟩ := writeRet_eq p3
  generalize p3.writeRet = p4 at h4 hret
  subst h1 h2 h3 h4
  exact ⟨j, n, x, y, z, rfl, hn, hj, hsj, himps, hret⟩

/-- The state in which the commands that waited for the hold-up complete. -/
def State.heldUp (s : State) : State := (s.onSup Sup.heldUp).onEvr (fun e => { e with extSaved := e.extNext.getD e.extSaved, extNext := none })

theorem holdupReady_eq {s : State} (hp : s.sup.powered % 128 ≠ 0) (hh : s.sup.holdupReady = false) :
    holdupReady s = s.sup.sjWait.foldl (fun s c => s.complete .pf0 c.1 c.2 stDONE 0) s.heldUp := by
  unfold holdupReady
  rw [if_neg (by simp [hp, hh])]
  rfl

theorem completes_part {π : Part} (hp : π ∉ [Part.fwd, .ready, .cur]) (l : List (Nat × Nat)) (s : State) :
    part π (l.foldl (fun s c => s.complete .pf0 c.1 c.2 stDONE 0) s) = part π s :=
  foldl_kept (φ := part π) (fun _ _ => complete_part hp ..) l s

/-! ### Power-good (R45) -/

/-- The Spire at power-good. -/
def Sup.fed (mv free : Nat) (p : Sup) : Sup := { p.bootTo p.bootTarget with
  powered := 0x17F, readySince := 0x100, marksOld := some p.marks, main12v := mv, charge := Config.freeNat free % 101
  lastReset := if p.st = .powerFail then 3 else 0
  resets := (p.resets + 1) % 2 ^ 32, noFirmware := false, held := false, uptime := 0
  outage := match p.darkSince with
    | some t => if p.stime.isSome then p.spireTime - t else 0
    | none => 0
  darkSince := none }

/-- The main die powered, before its tile store, the Saggar and the pilots take part. -/
def State.boots (mv : Nat) (s : State) : State := (s.took.onSup (Sup.fed mv s.free)).setState .boot 0

/-- Power-good at the tile store and the Saggar. -/
def State.supplied (s : State) : State :=
  let s2 := s.onTmf (fun t => Tmf.reset s.sup.resets t.phys t.oos t.sparesFree)
  if s2.sgm.mode = .ship then s2.leaveShip else s2.onSgm (fun g => { g with shipOrder := false })

theorem powerGood_eq {mv : Nat} {s : State} (hp : s.sup.powered % 128 = 0) (hmv : 10800 < mv) :
    powerGood mv s = { (s.boots mv).supplied.pilotsOn with cell := { (s.boots mv).supplied.cell with stopped := false } } := by
  unfold powerGood
  rw [if_neg (by simp [hp]; omega)]
  rfl

theorem supplied_part {π : Part} (hp : π ∉ [.rings, .tmf, .lnk, .cell, .sgm, .meters, .mss, .seal, .out, .free]) (s : State) : part π s.supplied = part π s := by
  simp only [List.mem_cons, List.not_mem_nil, or_false, not_or] at hp
  unfold State.supplied
  dsimp only
  split
  · exact (leaveShip_part (by simp [hp]) _).trans (onTmf_part (by simp [hp]) ..)
  · exact (onSgm_part (by simp [hp]) (.inl (by simp [hp])) _).trans (onTmf_part (by simp [hp]) ..)

theorem boots_sup (mv : Nat) (s : State) : ∃ prev left ship ev, (s.boots mv).sup = { s.sup.fed mv s.free with
    st := .boot, prev := prev, reason := 0, shipFrom := ship, shipLeft := left, lastEvent := ev } := setState_sup .boot 0 (s.took.onSup (Sup.fed mv s.free))

theorem fed_eq (mv free : Nat) (p : Sup) : ∃ out wd past, p.fed mv free = { p with
    bootSlot := p.bootTarget, wdTimes := wd, wdPast := past
    powered := 0x17F, readySince := 0x100, marksOld := some p.marks, main12v := mv, charge := Config.freeNat free % 101
    lastReset := if p.st = .powerFail then 3 else 0
    resets := (p.resets + 1) % 2 ^ 32, noFirmware := false, held := false, uptime := 0, outage := out, darkSince := none } := by
  unfold Sup.fed
  rw [bootTo_eq]
  exact ⟨_, _, _, rfl⟩

theorem powerGood_frame {π : Part} {mv : Nat} {s : State} (hp : s.sup.powered % 128 = 0) (hmv : 10800 < mv)
    (h : π ∉ [.rings, .tmf, .lnk, .cell, .sgm, .meters, .mss, .seal, .out, .free, .faults, .sj, .sup, .vpc]) : part π (powerGood mv s) = part π s := by
  rw [powerGood_eq hp hmv]
  simp only [List.mem_cons, List.not_mem_nil, or_false, not_or] at h
  have hcell (u : State) (c : Cell) : part π { u with cell := c } = part π u := by cases π <;> simp_all [part]
  rw [hcell]
  exact (pilotsOn_part (by simp [h]) _).trans ((supplied_part (by simp [h]) _).trans ((setState_part (by simp [h]) ..).trans
    ((onSup_kept (by simp [h]) ..).trans (took_part (by simp [h]) s))))

theorem powerGood_sup {mv : Nat} {s : State} (hp : s.sup.powered % 128 = 0) (hmv : 10800 < mv) : ∃ prev left ship ev,
    (powerGood mv s).sup = { s.sup.fed mv s.free with st := .boot, prev := prev, reason := 0, shipFrom := ship, shipLeft := left, lastEvent := ev } := by
  obtain ⟨prev, left, ship, ev, hb⟩ := boots_sup mv s
  refine ⟨prev, left, ship, ev, ?_⟩
  rw [powerGood_eq hp hmv, ← hb]
  generalize s.boots mv = u
  have hsup : u.supplied.pilotsOn.sup = u.sup := sup_of_frame (l := [.rings, .tmf, .lnk, .cell, .sgm, .meters, .mss, .seal, .out, .free, .vpc])
    (fun π h => by
      simp only [List.mem_cons, List.not_mem_nil, or_false, not_or] at h
      exact (pilotsOn_part (by simp [h]) _).trans (supplied_part (by simp [h]) _)) (by simp) (by simp) (by simp)
  exact hsup

theorem powerGood_saggar {mv : Nat} {s : State} (hp : s.sup.powered % 128 = 0) (hmv : 10800 < mv) (hship : s.sgm.mode ≠ .ship) :
    (powerGood mv s).sgm = { s.sgm with shipOrder := false } ∧ (powerGood mv s).mss = s.mss ∧ (powerGood mv s).cell = { s.cell with stopped := false } := by
  have hb {π : Part} (h : π ∈ [Part.sgm, .mss, .cell]) : part π (s.boots mv) = part π s := by
    simp only [List.mem_cons, List.not_mem_nil, or_false] at h
    rcases h with rfl | rfl | rfl <;>
    exact (setState_part (by simp) ..).trans ((onSup_kept (by simp) ..).trans (took_part (by simp) s))
  have hsgm : (s.boots mv).sgm = s.sgm := hb (π := .sgm) (by simp)
  have hmss : (s.boots mv).mss = s.mss := hb (π := .mss) (by simp)
  have hcell : (s.boots mv).cell = s.cell := hb (π := .cell) (by simp)
  rw [powerGood_eq hp hmv]
  generalize s.boots mv = u at hsgm hmss hcell
  have hsup : u.supplied = (u.onTmf (fun t => Tmf.reset u.sup.resets t.phys t.oos t.sparesFree)).onSgm (fun g => { g with shipOrder := false }) :=
    if_neg (by rw [show (u.onTmf _).sgm = u.sgm from rfl, hsgm]; exact hship)
  have hon {π : Part} (h : π ∈ [Part.sgm, .mss, .cell]) : part π u.supplied.pilotsOn = part π u.supplied := by
    simp only [List.mem_cons, List.not_mem_nil, or_false] at h
    rcases h with rfl | rfl | rfl <;> exact pilotsOn_part (by simp) _
  have h1 : u.supplied.pilotsOn.sgm = u.supplied.sgm := hon (π := .sgm) (by simp)
  have h2 : u.supplied.pilotsOn.mss = u.supplied.mss := hon (π := .mss) (by simp)
  refine ⟨h1.trans ?_, h2.trans ?_, ?_⟩
  all_goals rw [hsup]
  · rw [← hsgm]; rfl
  · exact hmss
  · rw [← hcell]; rfl

/-- Power-good, power-fail and the hold-up. -/
theorem power : Claim.Power := by
  unfold Claim.Power
  refine ⟨?good, ?noGood, ?fail, ?dropped, ?off, ?holdup, ?reserve, ?runOut, ?runs⟩
  case good =>
    intro mv s hp hmv
    refine ⟨_, rfl, ?_⟩
    have hpart {π : Part} (h : π ∉ [.rings, .tmf, .lnk, .cell, .sgm, .meters, .mss, .seal, .out, .free, .faults, .sj, .sup, .vpc]) :
      part π (powerGood mv s.start) = part π s.start := powerGood_frame hp hmv h
    have hfwd := hpart (π := .fwd) (by simp)
    have hready := hpart (π := .ready) (by simp)
    have hcfg := hpart (π := .cfg) (by simp)
    have hlsw := hpart (π := .lsw) (by simp)
    have hevr := hpart (π := .evr) (by simp)
    have hbte := hpart (π := .bte) (by simp)
    obtain ⟨_, _, _, _, hs⟩ := powerGood_sup (s := s.start) hp hmv
    obtain ⟨_, _, _, hf⟩ := fed_eq mv s.start.free s.start.sup
    refine ⟨?_, ?_, ?_, ?_, ?_, ?_, ?_, ?_, ?_, ⟨hfwd, hready⟩, hcfg, hlsw, hevr, fun hship => ?_⟩
    case refine_10 =>
      obtain ⟨hsgm, hmss, hcell⟩ := powerGood_saggar (s := s.start) hp hmv hship
      exact ⟨hsgm, hbte, hmss, hcell⟩
    all_goals rw [hs, hf] <;> rfl
  case noGood =>
    intro mv s h
    refine ⟨_, rfl, if_pos ?_⟩
    exact h
  case fail =>
    intro s hp hship hh hc hst
    refine ⟨_, rfl, ?_⟩
    obtain ⟨hislands, hsaggar, hfail, hpow, hmv, hcharge, hstime, hnvm, hsj, hoff⟩ := powerFail_heldUp (s := s.start) hship hp hh hc hst
    obtain ⟨hlast, hsess⟩ := holdupWrites_journals (s := s.start) hh
    simp only [Sup.nvm, Prod.mk.injEq] at hnvm
    obtain ⟨ha, hb, -, himage, -, hjournal⟩ := hnvm
    rw [← hjournal] at hlast
    rw [← hsj] at hsess
    exact ⟨hislands, hsaggar, hfail, hpow, hmv, hcharge, hstime, ha, hb, himage, hlast, hsess, hoff⟩
  case dropped =>
    intro s m hp hh hm hc hst
    refine ⟨_, rfl, ?_⟩
    have hnvm := powerFail_dropped (s := s.start) hp hh hm hc hst
    simp only [Sup.nvm, Prod.mk.injEq] at hnvm
    obtain ⟨ha, hb, hresets, himage, hserial, hjournal⟩ := hnvm
    exact ⟨ha, hb, hresets, himage, hserial, hjournal⟩
  case off =>
    intro s hp
    exact ⟨_, rfl, powerFail_off (s := s.start) hp⟩
  case holdup =>
    intro s hp hh
    refine ⟨_, rfl, ?_⟩
    beta_reduce
    rw [holdupReady_eq (s := s.start) hp hh]
    have hpart {π : Part} (h : π ∉ [Part.fwd, .ready, .cur]) := completes_part h s.start.sup.sjWait s.start.heldUp
    have hsup : (s.start.sup.sjWait.foldl (fun s c => s.complete .pf0 c.1 c.2 stDONE 0) s.start.heldUp).sup = s.sup.heldUp :=
      sup_of_frame (fun _ hp => hpart hp) (by simp) (by simp) (by simp)
    have hevr := hpart (π := .evr) (by simp)
    have hsgm := hpart (π := .sgm) (by simp)
    have hbte := hpart (π := .bte) (by simp)
    have hmss := hpart (π := .mss) (by simp)
    have hcell := hpart (π := .cell) (by simp)
    generalize s.start.sup.sjWait.foldl (fun s c => s.complete .pf0 c.1 c.2 stDONE 0) s.start.heldUp = t at *
    obtain ⟨j, n, x, y, z, he, hn, hj, hsj, himps, hret⟩ := heldUp_eq s.sup
    rw [hsup]
    refine ⟨?_, ?_, hsj, himps, hret, ?_, ?_, ?_, ?_, ?_, ?_, ?_, hevr, fun hd => ?_, fun hd => ?_, hsgm, hbte, hmss, hcell⟩
    all_goals rw [he]
    · exact hn hd
    · exact hj hd
  case reserve =>
    intro s hp
    exact ⟨_, congrArg Host.Outcome.next (if_neg hp), rfl, rfl⟩
  case runOut =>
    intro s hp
    exact ⟨_, congrArg Host.Outcome.next (if_neg (not_not.mpr hp)), rfl, rfl, rfl, rfl, rfl, rfl, rfl, rfl, rfl, rfl, rfl⟩
  case runs =>
    intro s hp
    exact ⟨_, congrArg Host.Outcome.next (if_pos hp), rfl⟩

end Sys2Proof.Machine
end
section
/-! PROOFS. Start-up (R46 to R48, R438) -/

namespace Sys2Proof.Machine

open Sys2Proof

/-! ### Firmware (R48) -/

theorem firmwareReadDone_eq {ok : Bool} {s : State} (hm : s.mainRuns = true) (hb : s.sup.st = .boot) : firmwareReadDone ok s =
    if ok then s.onSup (Sup.runs s.sup.bootSlot)
    else
      let s1 := s.onSup (Sup.onSlot s.sup.bootSlot (fun _ => Slot.empty))
      if (s1.sup.slot (1 - s.sup.bootSlot)).st ≠ .invalid then s1.fallBack s.sup.bootSlot (1 - s.sup.bootSlot)
      else (s1.onSup (fun p => { p with held := true, noFirmware := true })).faultRec 8 0x000A s1.sup.slotA.st.code s1.sup.slotB.st.code 0 :=
  if_neg (by simp [hm, hb])

/-- A fault record changes the Spire alone, and of it the journal. -/
theorem faultRec_sup (i c a0 a1 a2 : Nat) (s : State) : ∃ j n d, (s.faultRec i c a0 a1 a2).sup = { s.sup with journal := j, journalSeq := n, deferred := d } := by
  have hs : (s.faultRec i c a0 a1 a2).sup = if s.sup.holdupReady then s.sup.journalPut ⟨s.sTime, 0, i, false, c, a0, a1, a2⟩
    else { s.sup with deferred := s.sup.deferred ++ [⟨s.sTime, 0, i, false, c, a0, a1, a2⟩] } := rfl
  rw [hs]
  split
  · obtain ⟨j, hj⟩ := journalPut_eq ⟨s.sTime, 0, i, false, c, a0, a1, a2⟩ s.sup
    exact ⟨j, (s.sup.journalSeq + 1) % 2 ^ 32, s.sup.deferred, hj⟩
  · exact ⟨s.sup.journal, s.sup.journalSeq, _, rfl⟩

theorem faultRec_eq (i c a0 a1 a2 : Nat) (s : State) : s.faultRec i c a0 a1 a2 = { s with sup := (s.faultRec i c a0 a1 a2).sup } := rfl

/-- The Spire boots the slot that it enters. -/
theorem fallBack_sup (left entered : Nat) (s : State) : ∃ j n d, (s.fallBack left entered).sup = { s.sup.mark entered .active with
    bootSlot := entered, wdTimes := [], wdPast := [], journal := j, journalSeq := n, deferred := d, lastEvent := some (7, 255, 0x04, entered % 256) } := by
  obtain ⟨j, n, d, h⟩ := faultRec_sup 8 0x0004 left entered 0 (s.onSup (fun p => { (p.mark entered .active) with bootSlot := entered, wdTimes := [], wdPast := [] }))
  refine ⟨j, n, d, ?_⟩
  unfold State.fallBack
  rw [supEvent_sup, h]
  rfl

theorem slot_mark_other (i : Nat) (st : SlotState) (p : Sup) : (p.mark (1 - i) st).slot i = p.slot i := slot_onSlot_other' ..

theorem slot_mark (i : Nat) (st : SlotState) (p : Sup) : (p.mark i st).slot i = { p.slot i with st := st } := slot_onSlot ..

/-! ### Ready reports (R47, R452) -/

theorem fireHeld_sup (fn : Fn) (s : State) : (s.fireHeld fn).sup = s.sup :=
  sup_of_frame (fun _ hp => fireHeld_part hp fn s) (by simp) (by simp) (by simp)

/-- The time of a trial begins with HQE_READY where a slot is on trial and its time has not begun. -/
theorem hqeBegins_sup (s : State) : s.hqeBegins.sup = if (s.sup.slotIn .trial).isSome && !s.sup.trialOn && s.sup.restart.isNone then s.sup.beginTrial
    else s.sup := by
  have h : ((s.fireHeld .pf0).fireHeld .pf1).sup = s.sup := (fireHeld_sup ..).trans (fireHeld_sup ..)
  unfold State.hqeBegins
  dsimp only
  split
  · exact congrArg Sup.beginTrial h
  · exact h

theorem islandIsReady_sup (i : Nat) (s : State) : ∃ on left, (s.islandIsReady i).sup = { (s.setReady i).sup with trialOn := on, trialLeft := left } ∧
    (s.hqeReady = false → (s.setReady i).hqeReady = true → (s.sup.slotIn .trial).isSome = true → s.sup.trialOn = false → s.sup.restart = none →
      on = true ∧ left = 600000000) := by
  have he : s.islandIsReady i = if !s.hqeReady && (s.setReady i).hqeReady then (s.setReady i).hqeBegins else s.setReady i := rfl
  rw [he]
  split
  next hb =>
    rw [hqeBegins_sup]
    split
    · exact ⟨true, 600000000, rfl, fun _ _ _ _ _ => ⟨rfl, rfl⟩⟩
    next hn =>
      refine ⟨s.sup.trialOn, s.sup.trialLeft, rfl, fun _ _ ht hon hr => absurd ?_ hn⟩
      change ((s.sup.slotIn .trial).isSome && !s.sup.trialOn && s.sup.restart.isNone) = true
      rw [ht, hon, hr]
      rfl
  next hn =>
    refine ⟨s.sup.trialOn, s.sup.trialLeft, rfl, fun h1 h2 => absurd ?_ hn⟩
    rw [h1, h2]
    rfl

theorem islandIsReady_frame (i : Nat) (s : State) : s.islandIsReady i = { s with
    sup := (s.islandIsReady i).sup, hqe := (s.islandIsReady i).hqe, out := (s.islandIsReady i).out } :=
  eq_frameOf [.rings, .faults, .sj, .sup, .out] fun π hp => by
    simp only [List.mem_cons, List.not_mem_nil, or_false, not_or] at hp
    exact islandIsReady_part (by simp [hp]) ..

theorem islandIsReady_moved (i : Nat) (s : State) : NoCommandMoved s (s.islandIsReady i) :=
  ⟨islandIsReady_part (π := .fwd) (by simp) .., islandIsReady_part (π := .ready) (by simp) ..⟩

/-! ### Commands that end while a configuration comes into force -/

/-- Commands have only ended: no entry has joined those forwarded, and no completion has left those that wait. -/
structure CmdStep (s t : State) : Prop where
  fwd : t.hqe.fwd.Sublist s.hqe.fwd
  ready : s.hqe.ready <+: t.hqe.ready

theorem CmdStep.of_hqe {s t : State} (h : t.hqe = s.hqe) : CmdStep s t := ⟨by rw [h], by rw [h]⟩

theorem CmdStep.refl (s : State) : CmdStep s s := .of_hqe rfl

theorem CmdStep.trans {s t u : State} (h1 : CmdStep s t) (h2 : CmdStep t u) : CmdStep s u := ⟨h2.fwd.trans h1.fwd, h1.ready.trans h2.ready⟩

theorem CmdStep.of_parts {s t : State} (h : ∀ π ∈ [Part.fwd, .ready], part π t = part π s) : CmdStep s t := by
  have h1 : t.hqe.fwd = s.hqe.fwd := h .fwd (by simp)
  have h2 : t.hqe.ready = s.hqe.ready := h .ready (by simp)
  exact ⟨by rw [h1], by rw [h2]⟩

theorem CmdStep.foldl {α : Type} {f : State → α → State} (h : ∀ s x, CmdStep s (f s x)) (l : List α) (s : State) : CmdStep s (l.foldl f s) := by
  induction l generalizing s with
  | nil => exact .refl s
  | cons x l ih => exact (h s x).trans (ih _)

theorem CmdStep.ite {c : Prop} [Decidable c] {s t u : State} (ht : CmdStep s t) (hu : CmdStep s u) : CmdStep s (if c then t else u) := by
  split
  · exact ht
  · exact hu

theorem CmdStep.owned {fn : Fn} {sq cid : Nat} {s t : State} (h : CmdStep s t) (ho : OwnedAs fn sq cid s) : OwnedAs fn sq cid t :=
  fun f hf his => ho f (h.fwd.subset hf) his

theorem complete_cmdStep (fn : Fn) (sq cid st r : Nat) (s : State) : CmdStep s (s.complete fn sq cid st r) := by
  unfold State.complete
  dsimp only
  split
  · exact ⟨.refl _, List.prefix_append ..⟩
  next hx =>
    split
    · exact ⟨takeFirst_sublist hx, List.prefix_rfl⟩
    · exact ⟨takeFirst_sublist hx, List.prefix_append ..⟩

theorem onBlk_cmdStep (f : Blk → Blk) (s : State) : CmdStep s (s.onBlk f) := .of_hqe (s := s) (t := s.onBlk f) rfl

theorem onVpc_cmdStep (f : Vpc → Vpc) (s : State) : CmdStep s (s.onVpc f) := .of_hqe (s := s) (t := s.onVpc f) rfl

theorem onTmf_cmdStep (f : Tmf → Tmf) (s : State) : CmdStep s (s.onTmf f) := .of_hqe (s := s) (t := s.onTmf f) rfl

theorem onSpa_cmdStep (f : Spa → Spa) (s : State) : CmdStep s (s.onSpa f) := .of_hqe (s := s) (t := s.onSpa f) rfl

theorem exEnd_cmdStep (x : Exch) (st r : Nat) (s : State) : CmdStep s (s.exEnd x st r) := by
  unfold State.exEnd
  dsimp only
  split
  · exact .of_hqe rfl
  · exact (onBlk_cmdStep _ s).trans (complete_cmdStep ..)

theorem settleEx_cmdStep (s : State) : CmdStep s s.settleEx := by
  unfold State.settleEx
  split
  · exact .refl s
  · exact .ite (exEnd_cmdStep ..) (.refl s)

theorem dropReqs_cmdStep (s : State) : CmdStep s s.dropReqs := by
  unfold State.dropReqs
  refine (onBlk_cmdStep _ s).trans (.foldl (fun t r => ?_) _ _)
  split
  · exact complete_cmdStep ..
  · exact .refl t

theorem admitBelfry_cmdStep (old new : Option BelfryRec) (s : State) : CmdStep s (s.admitBelfry old new) := by
  unfold State.admitBelfry
  dsimp only
  have h1 (f : Blk → Blk) : CmdStep s ((s.onBlk f).settleEx.dropReqs) :=
    (onBlk_cmdStep f s).trans ((settleEx_cmdStep _).trans (dropReqs_cmdStep _))
  have h2 {u : State} (f : Blk → Blk) (h : CmdStep s u) : CmdStep s (u.onBlk f) := h.trans (onBlk_cmdStep f u)
  exact .ite (h2 _ (h1 _)) (.ite (h2 _ (h1 _)) (h2 _ (h1 _)))

theorem closePort_cmdStep (n : Nat) (s : State) : CmdStep s (s.closePort n) := by
  unfold State.closePort
  dsimp only
  refine CmdStep.trans ?_ (.foldl (fun t x => complete_cmdStep ..) _ _)
  refine CmdStep.trans ?_ (.foldl (fun t x => complete_cmdStep ..) _ _)
  exact .of_hqe rfl

theorem admitPilots_cmdStep (new : Cfg) (s : State) : CmdStep s (s.admitPilots new) := by
  unfold State.admitPilots
  refine .foldl (fun t n => ?_) _ _
  exact .ite (.ite (.refl t) (closePort_cmdStep ..)) (.ite (.of_hqe rfl) (.refl t))

theorem evalPorts_hqeMoved (s : State) : CmdStep s s.evalPorts := .of_parts fun π hπ => by
  simp only [List.mem_cons, List.not_mem_nil, or_false] at hπ
  rcases hπ with rfl | rfl <;> exact evalPorts_part (by simp) s

theorem admitPorts_cmdStep (old new : Cfg) (entry : Bool) (s : State) : CmdStep s (s.admitPorts old new entry) :=
  ((admitPilots_cmdStep new s).trans (onVpc_cmdStep _ _)).trans (evalPorts_hqeMoved _)

theorem writeEntry_hqe (i : Nat) (e : Entry) (s : State) : (s.writeEntry i e).hqe = s.hqe := rfl

theorem spaEnds_cmdStep (i : Nat) (s : State) : CmdStep s (s.spaEnds i) := by
  unfold State.spaEnds
  split
  · exact .refl s
  next x _ =>
    dsimp only
    refine CmdStep.trans ?_ (.foldl (fun t w => complete_cmdStep ..) _ _)
    refine CmdStep.trans ?_ (.foldl (fun t w => complete_cmdStep ..) _ _)
    have hcross (m : CrossMsg) : CmdStep s (s.sendCross m) := .of_parts (by simp)
    have hwrite (u : State) (f : Spa → Spa) : CmdStep u ((u.writeEntry i .free).onSpa f) := .of_hqe (s := u) (t := (u.writeEntry i .free).onSpa f) rfl
    exact (CmdStep.ite (hcross _) (.refl s)).trans (hwrite ..)

theorem admitSpa_cmdStep (new : Cfg) (entry leaving : Bool) (keep : List (Nat × Entry)) (s : State) : CmdStep s (s.admitSpa new entry leaving keep) := by
  unfold State.admitSpa
  dsimp only
  exact (CmdStep.foldl (fun t i => spaEnds_cmdStep i t) _ s).trans ((onTmf_cmdStep _ _).trans (onSpa_cmdStep _ _))

/-- The state in which a new configuration and its device state are in force, and each island has yet to take it up. -/
def State.inForce (new : Cfg) (entry leaving : Bool) (s : State) : State :=
  let s1 := s.admitSpa new entry leaving (carriedOver new s)
  let s2 := { s1 with cfg := some new }.onSup (fun p => { p with cls := new.cls, configId := new.id })
  s2.setState (if entry then .bisque else .service) 0

theorem inForce_sup (new : Cfg) (entry leaving : Bool) (s : State) : ∃ prev left ship ev, (s.inForce new entry leaving).sup = { s.sup with
    cls := new.cls, configId := new.id, st := if entry then .bisque else .service, prev := prev, reason := 0, shipFrom := ship, shipLeft := left
    lastEvent := ev } := by
  have h : (s.admitSpa new entry leaving (carriedOver new s)).sup = s.sup := sup_of_frame (fun _ hp => admitSpa_part hp ..) (by simp) (by simp) (by simp)
  obtain ⟨prev, left, ship, ev, hs⟩ := setState_sup (if entry then .bisque else .service) 0
    (({ s.admitSpa new entry leaving (carriedOver new s) with cfg := some new } : State).onSup (fun p => { p with cls := new.cls, configId := new.id }))
  refine ⟨prev, left, ship, ev, hs.trans ?_⟩
  rw [← h]
  rfl

theorem inForce_cfg (new : Cfg) (entry leaving : Bool) (s : State) : (s.inForce new entry leaving).cfg = some new := setState_part (π := .cfg) (by simp) ..

/-- What each island makes of a configuration in force leaves the Spire's fields and the configuration alone. -/
theorem putInForce_kept {π : Part} (h : π ∈ [Part.sup, .cfg]) (new : Cfg) (entry leaving : Bool) (s : State) :
    part π (s.putInForce new entry leaving) = part π (s.inForce new entry leaving) := by
  simp only [List.mem_cons, List.not_mem_nil, or_false] at h
  unfold State.putInForce State.inForce
  dsimp only
  rcases h with rfl | rfl <;> (repeat' split) <;> simp

theorem inForce_cmdStep (new : Cfg) (entry leaving : Bool) (s : State) : CmdStep s (s.inForce new entry leaving) := by
  have hcfg (u : State) (f : Sup → Sup) : CmdStep u (({ u with cfg := some new } : State).onSup f) :=
    .of_hqe (s := u) (t := ({ u with cfg := some new } : State).onSup f) rfl
  have hset (u : State) (st : DevState) : CmdStep u (u.setState st 0) := .of_parts (by simp)
  exact ((admitSpa_cmdStep ..).trans (hcfg ..)).trans (hset ..)

theorem putInForce_cmdStep (new : Cfg) (entry leaving : Bool) (s : State) : CmdStep s (s.putInForce new entry leaving) := by
  have h3 := inForce_cmdStep new entry leaving s
  unfold State.inForce at h3
  unfold State.putInForce
  dsimp only at h3 ⊢
  generalize State.setState _ _ _ = s3 at h3 ⊢
  have hports (u : State) (h : CmdStep s u) : CmdStep s ((u.admitGroups s.conf new entry leaving).admitSync s.conf new |>.admitPorts s.conf new entry) :=
    h.trans ((CmdStep.of_parts (by simp)).trans (admitPorts_cmdStep ..))
  have hchans (u : State) (h : CmdStep s u) : CmdStep s (if entry then (u.tcmHoldsBegin.admitAqaux s.conf new).entryChans new
      else (u.tcmHoldsBegin.admitAqaux s.conf new).admitChans s.conf new).tcmHolds :=
    h.trans (.of_parts (by cases entry <;> simp))
  have hstrings (u : State) (journal : Bool) : CmdStep u (u.admitStrings s.conf new journal) := .of_parts (by simp)
  have hquants (u : State) : CmdStep u (u.admitQuants s.conf.quants new.quants) := .of_parts (by simp)
  have hstart (u : State) : CmdStep u u.startQuants := .of_parts (by simp)
  have hrest (u : State) (h : CmdStep s u) (journal : Bool) : CmdStep s (((u.admitStrings s.conf new journal).admitBelfry s.conf.belfry new.belfry).admitQuants
      s.conf.quants new.quants) :=
    h.trans (((hstrings u journal).trans (admitBelfry_cmdStep ..)).trans (hquants _))
  exact .ite ((hrest _ (hchans _ (hports _ h3)) _).trans (hstart _)) (hrest _ (hchans _ (hports _ h3)) _)

/-- The stored image's coefficient sets in their tiles (R136). -/
def State.bisqueTiles (s : State) : State := (recsOf s.sup.bisqueImage .coeffSet).foldl (fun s x => s.onTmf (Tmf.putCoeff x.1 x.2)) s

theorem bisqueTiles_part {π : Part} (hp : π ∉ [Part.tmf]) (s : State) : part π s.bisqueTiles = part π s :=
  foldl_kept (φ := part π) (fun _ _ => onTmf_part hp ..) _ s

theorem enterBisque_eq (s : State) : s.enterBisque = s.bisqueTiles.putInForce s.sup.bisqueCfg true false := rfl

theorem bisqueTiles_sup (s : State) : s.bisqueTiles.sup = s.sup := sup_of_frame (fun _ hp => bisqueTiles_part hp s) (by simp) (by simp) (by simp)

/-- Bisque service is in force (R46, R59). -/
theorem enterBisque_spec (s : State) : s.enterBisque.sup.st = .bisque ∧ s.enterBisque.sup.reason = 0 ∧ s.enterBisque.cfg = some s.sup.bisqueCfg ∧
    s.enterBisque.sup.configId = s.sup.bisqueId ∧ s.enterBisque.sup.cls = s.sup.bisqueCfg.cls ∧ s.enterBisque.sgm = s.sgm ∧
    s.enterBisque.bte = s.bte ∧ s.enterBisque.mss = s.mss ∧ CmdStep s s.enterBisque := by
  have hsgm : s.enterBisque.sgm = s.sgm := enterBisque_part (π := .sgm) (by simp) s
  have hbte : s.enterBisque.bte = s.bte := enterBisque_part (π := .bte) (by simp) s
  have hmss : s.enterBisque.mss = s.mss := enterBisque_part (π := .mss) (by simp) s
  have hcmd : CmdStep s s.enterBisque := by
    rw [enterBisque_eq]
    exact (CmdStep.of_parts fun π hπ => bisqueTiles_part (by
      simp only [List.mem_cons, List.not_mem_nil, or_false] at hπ ⊢
      rcases hπ with rfl | rfl <;> decide) s).trans (putInForce_cmdStep ..)
  have hcfg : s.enterBisque.cfg = some s.sup.bisqueCfg := by
    rw [enterBisque_eq]
    exact (putInForce_kept (π := .cfg) (by simp) ..).trans (inForce_cfg ..)
  have hsup : part .sup s.enterBisque = part .sup (s.bisqueTiles.inForce s.sup.bisqueCfg true false) := by
    rw [enterBisque_eq]
    exact putInForce_kept (by simp) ..
  obtain ⟨prev, left, ship, ev, hs⟩ := inForce_sup s.sup.bisqueCfg true false s.bisqueTiles
  refine ⟨?_, ?_, hcfg, ?_, ?_, hsgm, hbte, hmss, hcmd⟩
  · exact (sup_of_part hsup Sup.st fun _ => rfl).trans (congrArg Sup.st hs)
  · exact (sup_of_part hsup Sup.reason fun _ => rfl).trans (congrArg Sup.reason hs)
  · exact (sup_of_part hsup Sup.configId fun _ => rfl).trans (congrArg Sup.configId hs)
  · exact (sup_of_part hsup Sup.cls fun _ => rfl).trans (congrArg Sup.cls hs)

/-! ### WAIT_HOST (R46) -/

theorem enterWaitHost_sup (reason : Nat) (s : State) : (s.enterWaitHost reason).sup.st = .waitHost ∧ (s.enterWaitHost reason).sup.reason = reason ∧
    (s.enterWaitHost reason).sup.configId = 0 ∧ (s.enterWaitHost reason).sup.bisqueValid = s.sup.bisqueValid := by
  obtain ⟨_, _, _, _, hs⟩ := setState_sup .waitHost reason s
  have hrest (u : State) : part .sup (u.refreshGroups.portsNotReady).nvmDefaults = part .sup u := by simp
  have hp : part .sup (s.enterWaitHost reason) = part .sup ((s.setState .waitHost reason).onSup (fun p => { p with configId := 0 })) := by
    unfold State.enterWaitHost
    exact hrest _
  generalize s.setState .waitHost reason = u at hs hp
  have hf {α : Type} (f : Sup → α) (hr : ∀ p : Sup, f p.rest = f p) : f (s.enterWaitHost reason).sup = f { u.sup with configId := 0 } := sup_of_part hp f hr
  rw [hs] at hf
  exact ⟨hf Sup.st fun _ => rfl, hf Sup.reason fun _ => rfl, hf Sup.configId fun _ => rfl, hf Sup.bisqueValid fun _ => rfl⟩

theorem setState_grew (st : DevState) (r : Nat) (s : State) : Grew 0 s (s.setState st r) := by
  obtain ⟨_, _, _, _, h⟩ := setState_sup st r s
  exact .of_journal (by rw [h])

theorem onSup_grew {f : Sup → Sup} {s : State} (h : (f s.sup).journal = s.sup.journal) : Grew 0 s (s.onSup f) := .of_journal (t := s.onSup f) h

theorem enterWaitHost_grew (reason : Nat) (s : State) : Grew 40 s (s.enterWaitHost reason) := by
  have hports (u : State) : Grew 16 u u.portsNotReady := by
    have h0 : Grew 0 u ((List.range 16).foldl (fun s n => s.pilotDefault n) u) := grew_of_faults (foldl_kept (φ := part .faults) (fun _ _ => by simp) _ u)
    have h1 (v : State) (f : Vpc → Vpc) : Grew 16 v (v.onVpc f).evalPorts :=
      (Grew.trans (n := 0) (.of_journal (s := v) (t := v.onVpc f) rfl) (.foldl (fun t n => evalPort_grew n t) (List.range 16) _)).mono (by
        rw [List.length_range])
    exact (h0.trans (h1 _ _)).mono (by decide)
  have hconfig (u : State) : Grew 0 u (u.onSup (fun p => { p with configId := 0 })) := onSup_grew rfl
  have hset : Grew 0 s ((s.setState .waitHost reason).onSup (fun p => { p with configId := 0 })) :=
    (setState_grew ..).trans (hconfig _)
  have hgroups (u : State) : Grew 0 u u.refreshGroups := grew_of_faults (refreshGroups_part (by simp) u)
  exact ((((hset.trans (hgroups _)).trans (hports _)).trans (nvmDefaults_grew _))).mono (by decide)

/-- The report of an island that is no switch's. -/
theorem islandReady_alone {i : Nat} {s : State} (hm : s.mainRuns = true) (hi : i < 7) (hp : i = 0 → s.sup.perst = false) (hl : s.sup.live = none) :
    islandReady i s = s.islandIsReady i := by
  obtain ⟨_, _, hs, -⟩ := islandIsReady_sup i s
  rw [islandReady_eq hm hi hp]
  unfold State.liveReady
  rw [show (s.islandIsReady i).sup.live = none from (congrArg Sup.live hs).trans hl]

theorem enterWaitHost_kept (reason : Nat) (s : State) : (s.enterWaitHost reason).cfg = s.cfg ∧ (s.enterWaitHost reason).kce = s.kce ∧
    SaggarKept s (s.enterWaitHost reason) :=
  ⟨enterWaitHost_part (π := .cfg) (by simp) .., enterWaitHost_part (π := .kce) (by simp) .., enterWaitHost_part (π := .sgm) (by simp) ..,
    enterWaitHost_part (π := .bte) (by simp) .., enterWaitHost_part (π := .mss) (by simp) .., enterWaitHost_part (π := .cell) (by simp) ..⟩

/-- The bisque image found bad. -/
def State.bisqueLost (tile : Nat) (s : State) : State :=
  (s.faultRec 8 0x0006 s.sup.bisqueSlot tile 0).onSup (fun p => { p with bisqueValid := false, bisqueId := 0, bisqueImage := [] })

theorem bisqueLost_kept (tile : Nat) (s : State) : (s.bisqueLost tile).cfg = s.cfg ∧ (s.bisqueLost tile).kce = s.kce ∧ SaggarKept s (s.bisqueLost tile) :=
  ⟨rfl, rfl, rfl, rfl, rfl, rfl⟩

theorem bisqueLost_recent {s : State} (h : s.sup.holdupReady = true) (tile : Nat) :
    Recent 0 ⟨s.sTime, (s.sup.journalSeq + 1) % 2 ^ 32, 8, false, 0x0006, s.sup.bisqueSlot, tile, 0⟩ (s.bisqueLost tile) := by
  have hrec := faultRec_recent h 8 0x0006 s.sup.bisqueSlot tile 0
  unfold State.bisqueLost
  generalize s.faultRec 8 0x0006 s.sup.bisqueSlot tile 0 = u at hrec
  exact hrec

theorem bisqueEntry_eq {s : State} (hst : s.sup.st = .boot) (hm : s.mainRuns = true) (hup : s.islandsUp = true) (bad : Option Nat) :
    bisqueEntry bad s = if !s.sup.bisqueValid then s.enterWaitHost 0x01
      else match bad with | some t => (s.bisqueLost t).enterWaitHost 0x01 | none => s.enterBisque := by
  unfold bisqueEntry
  rw [if_neg (by simp [hst, hm, hup])]
  cases bad <;> rfl

/-- The slots at a fall-back from a slot that has failed. -/
theorem booted_slots (i : Nat) (p : Sup) : (((p.onSlot i (fun _ => Slot.empty)).mark (1 - i) .active).slot i).st = .invalid ∧
    (((p.onSlot i (fun _ => Slot.empty)).mark (1 - i) .active).slot (1 - i)).st = .active ∧
    ((p.onSlot i (fun _ => Slot.empty)).mark (1 - i) .active).held = p.held := by
  refine ⟨?_, ?_, ?_⟩
  · rw [slot_mark_other, slot_onSlot]
    rfl
  · rw [slot_mark]
  · unfold Sup.mark
    rw [onSlot_eq, onSlot_eq]

/-- A command that is no orphan finishes with its completion. -/
theorem complete_finished {q : Sqe} {s : State} (h : OwnedAs q.fn q.sq (cidOf q) s) (st r : Nat) : Finished q st r (s.done q st r) := by
  obtain ⟨⟨⟨quiet, hready⟩, -⟩, -⟩ := complete_kept (s1 := s) (st := st) (r := r) h rfl
  exact ⟨quiet, by rw [show (s.done q st r).hqe.ready = _ from hready]; exact List.getLast?_concat ..⟩

/-- Firmware, ready reports, and the entry into WAIT_HOST or BISQUE. -/
theorem startUp : Claim.StartUp := by
  unfold Claim.StartUp
  refine ⟨?firmware, ?other, ?held, ?ready, ?store, ?pcie, ?noImage, ?badImage, ?bisque, ?enter⟩
  case firmware =>
    intro s hm hb
    refine ⟨_, congrArg Host.Outcome.next ((firmwareReadDone_eq (s := s.start) hm hb).trans (if_pos rfl)), rfl, ?_⟩
    change s.sup.runs s.sup.bootSlot = _
    unfold Sup.runs Sup.bootTo
    rw [if_pos rfl]
    rfl
  case other =>
    intro s hm hb hboot hslot
    have hslot' : ((s.sup.onSlot s.sup.bootSlot (fun _ => Slot.empty)).slot (1 - s.sup.bootSlot)).st ≠ .invalid := by
      rw [slot_onSlot_other]
      exact hslot
    have he : firmwareReadDone false s.start =
        (s.start.onSup (Sup.onSlot s.sup.bootSlot (fun _ => Slot.empty))).fallBack s.sup.bootSlot (1 - s.sup.bootSlot) :=
      (firmwareReadDone_eq (s := s.start) hm hb).trans ((if_neg (by decide)).trans (if_pos hslot'))
    refine ⟨_, congrArg Host.Outcome.next he, ?_⟩
    obtain ⟨j, n, d, hsup⟩ := fallBack_sup s.sup.bootSlot (1 - s.sup.bootSlot) (s.start.onSup (Sup.onSlot s.sup.bootSlot (fun _ => Slot.empty)))
    have hsaggar (u : State) (a b : Nat) : SaggarKept u (u.fallBack a b) := ⟨fallBack_part (π := .sgm) (by simp) .., fallBack_part (π := .bte) (by simp) ..,
      fallBack_part (π := .mss) (by simp) .., fallBack_part (π := .cell) (by simp) ..⟩
    obtain ⟨h1, h2, h3, h4⟩ := hsaggar (s.start.onSup (Sup.onSlot s.sup.bootSlot (fun _ => Slot.empty))) s.sup.bootSlot (1 - s.sup.bootSlot)
    obtain ⟨hleft, hentered, hheld⟩ := booted_slots s.sup.bootSlot s.sup
    generalize (s.start.onSup (Sup.onSlot s.sup.bootSlot (fun _ => Slot.empty))).fallBack s.sup.bootSlot (1 - s.sup.bootSlot) = t at *
    rw [hsup]
    exact ⟨rfl, hleft, hentered, hheld, rfl, h1, h2, h3, h4⟩
  case held =>
    intro s hm hb hboot hslot
    have hslot' : ¬((s.sup.onSlot s.sup.bootSlot (fun _ => Slot.empty)).slot (1 - s.sup.bootSlot)).st ≠ .invalid := by
      rw [slot_onSlot_other]
      exact not_not.mpr hslot
    refine ⟨_, congrArg Host.Outcome.next ((firmwareReadDone_eq (s := s.start) hm hb).trans ((if_neg (by decide)).trans (if_neg hslot'))), ?_⟩
    obtain ⟨j, n, d, hsup⟩ := faultRec_sup 8 0x000A (s.sup.onSlot s.sup.bootSlot (fun _ => Slot.empty)).slotA.st.code
      (s.sup.onSlot s.sup.bootSlot (fun _ => Slot.empty)).slotB.st.code 0
      ((s.start.onSup (Sup.onSlot s.sup.bootSlot (fun _ => Slot.empty))).onSup (fun p => { p with held := true, noFirmware := true }))
    refine ⟨congrArg Sup.held hsup, congrArg Sup.noFirmware hsup, ?_, rfl⟩
    refine (congrArg (fun p : Sup => (p.slot s.sup.bootSlot).st) hsup).trans ?_
    exact congrArg Slot.st (slot_onSlot s.sup.bootSlot (fun _ => Slot.empty) s.sup)
  case ready =>
    intro i s hm hi hp hl
    refine ⟨_, congrArg Host.Outcome.next (islandReady_alone (s := s.start) hm hi hp hl), ?_⟩
    obtain ⟨on, left, hsup, htrial⟩ := islandIsReady_sup i s.start
    obtain ⟨hfwd, hready⟩ := islandIsReady_moved i s.start
    have hframe := islandIsReady_frame i s.start
    have hmask := congrArg Sup.readyMask hsup
    have hst := congrArg Sup.st hsup
    refine ⟨?_, ?_, fun j hj => ?_, hst, ⟨hfwd, hready⟩, fun hnow hbefore hslot hon hr => ?_, hframe⟩
    · rw [hmask]
      exact bit_setBit_self ..
    · rw [congrArg Sup.readySince hsup]
      exact bit_setBit_self ..
    · rw [hmask]
      exact bit_setBit_of_ne hj ..
    · have hq : (s.start.setReady i).hqeReady = true := by
        unfold State.hqeReady at hnow ⊢
        rw [hmask] at hnow
        exact hnow
      obtain ⟨h1, h2⟩ := htrial hbefore hq hslot hon hr
      rw [hsup]
      exact ⟨h1, h2⟩
  case store =>
    intro s hm
    exact ⟨_, congrArg Host.Outcome.next (if_pos hm), rfl⟩
  case pcie =>
    intro s hm hp
    have h : (s.start.mainRuns && !s.start.sup.perst) = true := by
      change (s.mainRuns && !s.sup.perst) = true
      rw [hm, hp]
      rfl
    exact ⟨_, congrArg Host.Outcome.next (if_pos h), rfl, rfl⟩
  case noImage =>
    intro bad s hst hm hup hv
    refine ⟨_, congrArg Host.Outcome.next ((bisqueEntry_eq (s := s.start) hst hm hup bad).trans (if_pos (by rw [show s.start.sup = s.sup from rfl, hv]; rfl))), ?_⟩
    obtain ⟨hwait, hreason, hid, -⟩ := enterWaitHost_sup 1 s.start
    obtain ⟨hcfg, hkce, hsaggar⟩ := enterWaitHost_kept 1 s.start
    exact ⟨hwait, hreason, hid, hcfg, hkce, hsaggar⟩
  case badImage =>
    intro tile s hst hm hup hv hh
    have he : bisqueEntry (some tile) s.start = (s.start.bisqueLost tile).enterWaitHost 1 :=
      (bisqueEntry_eq (s := s.start) hst hm hup (some tile)).trans (if_neg (by rw [show s.start.sup = s.sup from rfl, hv]; decide))
    refine ⟨_, congrArg Host.Outcome.next he, ?_⟩
    obtain ⟨hwait, hreason, -, hvalid⟩ := enterWaitHost_sup 1 (s.start.bisqueLost tile)
    obtain ⟨hcfg, hkce, h1, h2, h3, h4⟩ := enterWaitHost_kept 1 (s.start.bisqueLost tile)
    obtain ⟨k1, k2, k3, k4, k5, k6⟩ := bisqueLost_kept tile s.start
    have hlast := ((enterWaitHost_grew 1 _).recent 0 _ (bisqueLost_recent (s := s.start) hh tile) (by decide)).mem
    have hgone : (s.start.bisqueLost tile).sup.bisqueValid = false := rfl
    rw [hgone] at hvalid
    generalize (s.start.bisqueLost tile).enterWaitHost 1 = t at *
    exact ⟨hwait, hreason, hvalid, ⟨_, hlast, rfl, rfl, rfl⟩, hcfg.trans k1, hkce.trans k2, h1.trans k3, h2.trans k4, h3.trans k5, h4.trans k6⟩
  case bisque =>
    intro s hst hm hup hv
    refine ⟨_, congrArg Host.Outcome.next ((bisqueEntry_eq (s := s.start) hst hm hup none).trans (if_neg (by
      rw [show s.start.sup = s.sup from rfl, hv]; decide))), ?_⟩
    obtain ⟨h1, h2, h3, h4, h5, h6, h7, h8, -⟩ := enterBisque_spec s.start
    exact ⟨h1, h2, h3, h4, h5, h6, h7, h8⟩
  case enter =>
    intro q s h
    refine answers_taken rfl h (by simp) ?_
    obtain ⟨h1, h2, h3, h4, -, h6, h7, h8, hcmd⟩ := enterBisque_spec (s.start.accept q)
    obtain ⟨-, -, hown⟩ := s.start.accept_fwd q h.2.1
    have hfinished : Finished q stDONE 0 ((s.start.accept q).enterBisque.done q stDONE 0) := complete_finished (hcmd.owned hown) ..
    generalize (s.start.accept q).enterBisque = u at *
    refine ⟨hfinished, ?_, ?_, (State.done_cfg ..).trans h3, ?_, (State.done_sgm ..).trans h6, (State.done_bte ..).trans h7, (State.done_mss ..).trans h8⟩
    all_goals rw [State.done_sup]
    · exact h1
    · exact h2
    · exact h4

end Sys2Proof.Machine
end
section
/-! PROOFS. The watchdog and PERST# (R35, R48, R49, R100, R452) -/

namespace Sys2Proof.Machine

open Sys2Proof

/-! ### The watchdog (R48) -/

/-- The record and the event of a missed report. -/
def State.wdReported (i slot : Nat) (u : State) : State := (u.faultRec 8 0x0002 i slot 0).supEvent 65 0x42 i noSource

/-- The watchdog's reset counted. -/
def State.watchdogCounted (s : State) : State :=
  s.onSup (fun p => { p with wdTimes := p.spireTime :: p.wdTimes.filter (fun t => decide (p.spireTime ≤ t + 600000000)) })

/-- The die reset for a missed report, with its record and its event. -/
def State.missed (i cause : Nat) (s : State) : State :=
  (s.watchdogCounted.mainReset cause).wdReported i s.sup.bootSlot

theorem watchdogMiss_eq {i : Nat} {s : State} (hm : s.mainRuns = true) (hi : i < 7) (hp : i = 0 → s.sup.perst = false) : watchdogMiss i s =
    if (s.sup.slotIn .trial).isSome || s.sup.live.isSome then (s.missed i 5).autoRollback
    else if 3 ≤ (s.sup.spireTime :: s.sup.wdTimes.filter (fun t => decide (s.sup.spireTime ≤ t + 600000000))).length then
      (s.missed i 1).thirdReset s.sup.bootSlot
    else s.missed i 1 := by
  have hgo : ¬(!s.mainRuns ∨ 7 ≤ i ∨ (i = 0 ∧ s.sup.perst)) := by
    rintro (h | h | ⟨h, h'⟩)
    · rw [hm] at h
      exact absurd h (by decide)
    · omega
    · rw [hp h] at h'
      exact absurd h' (by decide)
  have he : watchdogMiss i s = if (s.sup.slotIn .trial).isSome || s.sup.live.isSome then
        (s.missed i (if (s.sup.slotIn .trial).isSome || s.sup.live.isSome then 5 else 1)).autoRollback
      else if 3 ≤ (s.sup.spireTime :: s.sup.wdTimes.filter (fun t => decide (s.sup.spireTime ≤ t + 600000000))).length then
        (s.missed i (if (s.sup.slotIn .trial).isSome || s.sup.live.isSome then 5 else 1)).thirdReset s.sup.bootSlot
      else s.missed i (if (s.sup.slotIn .trial).isSome || s.sup.live.isSome then 5 else 1) := if_neg hgo
  rw [he]
  split
  · rfl
  · rfl

/-! ### What a reset's records and events leave as it is -/

/-- Nothing but rings, the Spire and the pins has changed. -/
structure Logged (s t : State) : Prop where
  kept : ∀ π, π ∉ [Part.rings, .faults, .sup, .out] → part π t = part π s

theorem Logged.trans {s t u : State} (h1 : Logged s t) (h2 : Logged t u) : Logged s u := ⟨fun π hp => (h2.kept π hp).trans (h1.kept π hp)⟩

theorem Logged.islands {pin : Nat} {s t : State} (h : Logged s t) (hs : IslandsAtReset pin s) : IslandsAtReset pin t := by
  obtain ⟨h1, h2, h3, h4, h5, h6, h7, h8, h9, h10⟩ := hs
  exact ⟨(h.kept .cfg (by simp)).trans h1, (h.kept .fwd (by simp)).trans h2, (h.kept .ready (by simp)).trans h3,
    (h.kept .spa (by simp)).trans h4, (h.kept .kce (by simp)).trans h5, (h.kept .psc (by simp)).trans h6, (h.kept .pla (by simp)).trans h7,
    (h.kept .vpc (by simp)).trans h8, (h.kept .bse (by simp)).trans h9, (h.kept .blk (by simp)).trans h10⟩

theorem Logged.saggar {s0 s t : State} (h : Logged s t) (hs : SaggarUnasked s0 s) : SaggarUnasked s0 t := by
  obtain ⟨h1, h2, h3, h4⟩ := hs
  exact ⟨(h.kept .sgm (by simp)).trans h1, (h.kept .bte (by simp)).trans h2, (h.kept .mss (by simp)).trans h3,
    (h.kept .cell (by simp)).trans h4⟩

theorem supEvent_logged (vec sub arg src : Nat) (s : State) : Logged s (s.supEvent vec sub arg src) := ⟨fun π hp => by
  simp only [List.mem_cons, List.not_mem_nil, or_false, not_or] at hp
  exact supEvent_part (by simp [hp]) ..⟩

theorem faultRec_logged (i c a0 a1 a2 : Nat) (s : State) : Logged s (s.faultRec i c a0 a1 a2) := ⟨fun π hp => by
  simp only [List.mem_cons, List.not_mem_nil, or_false, not_or] at hp
  exact faultRec_part (by simp [hp]) ..⟩

theorem thirdReset_logged (i : Nat) (s : State) : Logged s (s.thirdReset i) := ⟨fun π hp => by
  simp only [List.mem_cons, List.not_mem_nil, or_false, not_or] at hp
  exact thirdReset_part (by simp [hp]) ..⟩

theorem autoRollback_logged (s : State) : Logged s s.autoRollback := ⟨fun π hp => by
  simp only [List.mem_cons, List.not_mem_nil, or_false, not_or] at hp
  exact autoRollback_part (by simp [hp]) ..⟩

/-! ### The die after a missed report -/

theorem wdReported_logged (i slot : Nat) (u : State) : Logged u (u.wdReported i slot) := (faultRec_logged ..).trans (supEvent_logged ..)

theorem wdReported_sup (i slot : Nat) (u : State) : ∃ j n d, (u.wdReported i slot).sup = { u.sup with
    journal := j, journalSeq := n, deferred := d, lastEvent := some (1, 255, 0x42, i % 256) } := by
  obtain ⟨j, n, d, h⟩ := faultRec_sup 8 0x0002 i slot 0 u
  refine ⟨j, n, d, ?_⟩
  unfold State.wdReported
  rw [supEvent_sup, h]
  rfl

theorem wdReported_recent {u : State} (h : u.sup.holdupReady = true) (i slot : Nat) :
    ∃ r, (u.wdReported i slot).sup.journal.getLast? = some r ∧ r.code = 0x0002 ∧ r.arg0 = i ∧ r.arg1 = slot := by
  obtain ⟨pre, post, hj, hp⟩ := faultRec_recent h 8 0x0002 i slot 0
  obtain rfl := List.eq_nil_of_length_eq_zero (Nat.le_zero.mp hp)
  refine ⟨⟨u.sTime, (u.sup.journalSeq + 1) % 2 ^ 32, 8, false, 0x0002, i, slot, 0⟩, ?_, rfl, rfl, rfl⟩
  have he := congrArg Sup.journal (supEvent_sup 65 0x42 i noSource (u.faultRec 8 0x0002 i slot 0))
  exact (congrArg List.getLast? (he.trans hj)).trans List.getLast?_concat

/-- The die reset with a cause, nothing else of the slots and the Saggar touched. -/
structure Rebooted (cause : Nat) (s u : State) : Prop where
  islands : IslandsAtReset 0 u
  saggar : SaggarUnasked s u
  st : u.sup.st = .boot
  lastReset : u.sup.lastReset = cause
  resets : u.sup.resets = (s.sup.resets + 1) % 2 ^ 32
  bootSlot : u.sup.bootSlot = s.sup.bootTarget
  slotA : u.sup.slotA = s.sup.slotA
  slotB : u.sup.slotB = s.sup.slotB
  held : u.sup.held = s.sup.held
  noFirmware : u.sup.noFirmware = s.sup.noFirmware
  holdupReady : u.sup.holdupReady = s.sup.holdupReady
  trialOn : u.sup.trialOn = false

theorem Rebooted.slot {cause : Nat} {s u : State} (h : Rebooted cause s u) (i : Nat) : u.sup.slot i = s.sup.slot i := by
  unfold Sup.slot
  rw [h.slotA, h.slotB]

theorem mainDown_trialOn (st : DevState) (s : State) : (s.mainDown st).sup.trialOn = false := by
  rw [mainDown_eq]
  generalize s.beforeLoss st = u
  exact congrArg Sup.trialOn (mainLost_eq u.sup)

theorem mainReset_rebooted {s : State} (h : s.sup.staging = none) (cause : Nat) : Rebooted cause s (s.mainReset cause) := by
  obtain ⟨hst, hl, hr, hb, ha, hB, -⟩ := mainReset_boot h cause
  have hheld : (s.mainDown .boot).sup.held = s.sup.held := mainDown_field (f := Sup.held) (fun _ => rfl) (fun _ _ _ _ => rfl) .boot s
  have hno : (s.mainDown .boot).sup.noFirmware = s.sup.noFirmware :=
    mainDown_field (f := Sup.noFirmware) (fun _ => rfl) (fun _ _ _ _ => rfl) .boot s
  have hhr : (s.mainDown .boot).sup.holdupReady = s.sup.holdupReady :=
    mainDown_field (f := Sup.holdupReady) (fun _ => rfl) (fun _ _ _ _ => rfl) .boot s
  have htr := mainDown_trialOn .boot s
  have hsup := (mainReset_sup cause s).trans (by rw [bootTo_eq])
  generalize s.mainDown .boot = u at *
  have h1 := congrArg Sup.held hsup
  have h2 := congrArg Sup.noFirmware hsup
  have h3 := congrArg Sup.holdupReady hsup
  have h4 := congrArg Sup.trialOn hsup
  exact ⟨mainReset_islands cause s, mainReset_saggar cause s, hst, hl, hr, hb, ha, hB, h1.trans hheld, h2.trans hno, h3.trans hhr, h4.trans htr⟩

theorem watchdogReset {s : State} (h : s.sup.staging = none) (cause : Nat) : Rebooted cause s (s.watchdogCounted.mainReset cause) := by
  obtain ⟨h1, h2, h3, h4, h5, h6, h7, h8, h9, h10, h11, h12⟩ := mainReset_rebooted (s := s.watchdogCounted) h cause
  generalize s.watchdogCounted.mainReset cause = u at *
  exact ⟨h1, h2, h3, h4, h5, h6, h7, h8, h9, h10, h11, h12⟩

/-! ### The slots after the third reset and after a rollback -/

theorem thirdReset_moved {i : Nat} {s : State} (h : (s.sup.slot (1 - i)).st ≠ .invalid) : (s.thirdReset i).sup.bootSlot = 1 - i ∧
    ((s.thirdReset i).sup.slot (1 - i)).st = .active ∧ ((s.thirdReset i).sup.slot i).st = .inactive ∧ (s.thirdReset i).sup.held = s.sup.held ∧
    (s.thirdReset i).sup.wdTimes = [] := by
  have he : s.thirdReset i = (s.onSup (Sup.mark i .inactive)).fallBack i (1 - i) := if_pos h
  obtain ⟨j, n, d, hsup⟩ := fallBack_sup i (1 - i) (s.onSup (Sup.mark i .inactive))
  have h1 : ((s.onSup (Sup.mark i .inactive)).sup.mark (1 - i) .active).slot (1 - i) = _ := slot_mark ..
  have h2 : ((s.onSup (Sup.mark i .inactive)).sup.mark (1 - i) .active).slot i = _ := slot_mark_other ..
  have h3 : ((s.sup.mark i .inactive).mark (1 - i) .active).held = s.sup.held := by
    unfold Sup.mark
    rw [onSlot_eq, onSlot_eq]
  rw [he, hsup]
  refine ⟨rfl, congrArg Slot.st h1, (congrArg Slot.st h2).trans (congrArg Slot.st (slot_mark i .inactive s.sup)), h3, rfl⟩

theorem thirdReset_holds {i : Nat} {s : State} (h : (s.sup.slot (1 - i)).st = .invalid) : (s.thirdReset i).sup.held = true ∧
    (s.thirdReset i).sup.noFirmware = s.sup.noFirmware ∧ (s.thirdReset i).sup.wdTimes = [] := by
  have he : s.thirdReset i = _ := if_neg (fun hn => hn h)
  rw [he]
  exact ⟨rfl, rfl, rfl⟩

/-- The slots as an automatic rollback from slot B leaves them. -/
def Sup.rolledToA (p : Sup) : Sup :=
  { ((if (p.slot 1).st = .trial then p.mark 1 .inactive else p).mark 0 .active) with wdTimes := [], wdPast := [], bootSlot := 0 }

theorem rollbackReport_sup (u : State) : ∃ j n d, ((u.faultRec 8 0x0004 1 0 0).supEvent 71 0x24
    ((u.faultRec 8 0x0004 1 0 0).sup.slot 0).version noSource).sup =
    { u.sup with journal := j, journalSeq := n, deferred := d, lastEvent := some (7, 255, 0x24, (u.sup.slot 0).version % 256) } := by
  obtain ⟨j, n, d, h⟩ := faultRec_sup 8 0x0004 1 0 0 u
  refine ⟨j, n, d, ?_⟩
  rw [supEvent_sup, h]
  rfl

/-- The automatic rollback from slot B on trial to the fallback in slot A. -/
theorem autoRollback_toA {s : State} (ha : s.sup.slotA.st = .fallback) (hb : s.sup.slotB.st = .trial) : s.autoRollback.sup.bootSlot = 0 ∧
    s.autoRollback.sup.slotA.st = .active ∧ s.autoRollback.sup.slotB.st = .inactive ∧ s.autoRollback.sup.trialOn = s.sup.trialOn ∧
    s.autoRollback.sup.lastReset = s.sup.lastReset ∧ s.autoRollback.sup.lastEvent = some (7, 255, 0x24, s.sup.slotA.version % 256) := by
  have hin : s.sup.slotIn .fallback = some 0 := if_pos ha
  have he : s.autoRollback = ((s.onSup Sup.rolledToA).faultRec 8 0x0004 1 0 0).supEvent 71 0x24
      (((s.onSup Sup.rolledToA).faultRec 8 0x0004 1 0 0).sup.slot 0).version noSource := by
    unfold State.autoRollback
    rw [hin]
    rfl
  have hs : (s.onSup Sup.rolledToA).sup = { ((s.sup.mark 1 .inactive).mark 0 .active) with wdTimes := [], wdPast := [], bootSlot := 0 } := by
    change s.sup.rolledToA = _
    unfold Sup.rolledToA
    rw [if_pos (show (s.sup.slot 1).st = .trial from hb)]
  obtain ⟨j, n, d, hf⟩ := rollbackReport_sup (s.onSup Sup.rolledToA)
  rw [he, hf, hs]
  exact ⟨rfl, rfl, rfl, rfl, rfl, rfl⟩

/-! ### PERST# (R35) -/

theorem freeTile_tiles {i : Nat} {t : Tmf} {x : Nat × Tile} (h : x ∈ (t.freeTile i).tiles) : x ∈ t.tiles ∧ x.1 ≠ i := by
  have hx : x ∈ del i t.tiles := h
  simpa [del] using hx

theorem foldl_freeTile_tiles {l : List Nat} {t : Tmf} {x : Nat × Tile} (h : x ∈ (l.foldl (fun t i => t.freeTile i) t).tiles) :
    x ∈ t.tiles ∧ x.1 ∉ l := by
  induction l generalizing t with
  | nil => exact ⟨h, by simp⟩
  | cons i l ih =>
    obtain ⟨hx, hl⟩ := ih h
    obtain ⟨hx, hi⟩ := freeTile_tiles hx
    exact ⟨hx, by simp [hi, hl]⟩

theorem endCaptures_tmf (n : Nat) (s : State) : (s.endCaptures n).tmf = s.tmf := endCaptures_part (π := .tmf) (by simp) ..

theorem shutChan_tiles {n : Nat} {s : State} {x : Nat × Tile} (h : x ∈ (s.shutChan n).tmf.tiles) : x ∈ s.tmf.tiles := by
  unfold State.shutChan at h
  dsimp only at h
  rw [endCaptures_tmf] at h
  exact (foldl_freeTile_tiles h).1

theorem foldl_shutChan_tiles {l : List Nat} {s : State} {x : Nat × Tile} (h : x ∈ (l.foldl (fun s n => s.shutChan n) s).tmf.tiles) :
    x ∈ s.tmf.tiles := by
  induction l generalizing s with
  | nil => exact h
  | cons n l ih => exact shutChan_tiles (ih h)

/-- No tile of the host is left. -/
theorem endHostTiles_tiles {s : State} {x : Nat × Tile} (h : x ∈ s.endHostTiles.tmf.tiles) : x.2.owner ≠ .host := by
  intro ho
  obtain ⟨hx, hn⟩ := foldl_freeTile_tiles (t := s.tmf) (foldl_shutChan_tiles h)
  exact hn (List.mem_map_of_mem (List.mem_filter.mpr ⟨hx, decide_eq_true ho⟩))

/-- PERST# seen by the Spire. -/
def Sup.perstSeen (p : Sup) : Sup := { p with
  perst := true, pcieUp := false, readyMask := if bit p.readyMask 0 then p.readyMask - 1 else p.readyMask
  live := p.live.map (fun l => if l.waiting = some 0 then { l with waiting := none, todo := 0 :: l.todo } else l)
  banks := if p.live.any (fun l => l.waiting = some 0) then upd p.banks 0 Bank.swap else p.banks }

/-- Both functions without rings, HI's own state as its reset leaves it. -/
def State.hiReset (s : State) : State :=
  (((s.onSup Sup.perstSeen).endRings .pf0).endRings .pf1).onHqe (fun h => { h with
    f0 := s.hqe.f0.restart 64 72, f1 := s.hqe.f1.restart 4 8, tags := [], readWait := [], lastPf1 := true, extTag := false, maxRead := 512
    maxPayload := 128, cplTimeout := 0 })

theorem hiReset_sup (s : State) : s.hiReset.sup = { s.sup.perstSeen with posting := none } := rfl

theorem hiReset_spa (s : State) : s.hiReset.spa = { s.spa with unposted := [] } := rfl

theorem hiReset_rings (s : State) : s.hiReset.hqe.f0 = s.hqe.f0.restart 64 72 ∧ s.hiReset.hqe.f1 = s.hqe.f1.restart 4 8 ∧
    s.hiReset.hqe.tags = [] := ⟨rfl, rfl, rfl⟩

theorem hiReset_ready (s : State) : s.hiReset.hqe.ready = [] := by
  have h : s.hiReset.hqe.ready = (s.hqe.ready.filter (fun c => c.fn ≠ Fn.pf0)).filter (fun c => c.fn ≠ Fn.pf1) := rfl
  rw [h]
  refine List.eq_nil_iff_forall_not_mem.mpr fun c hc => ?_
  obtain ⟨hc, h1⟩ := List.mem_filter.mp hc
  have h0 := (List.mem_filter.mp hc).2
  cases hf : c.fn
  · exact of_decide_eq_true h0 hf
  · exact of_decide_eq_true h1 hf

/-- What a function's end leaves of the commands forwarded. -/
theorem mem_endRings_fwd (fn : Fn) (s : State) (f : Fwd) (h : f ∈ (s.endRings fn).hqe.fwd) :
    (f.fn = fn ∧ f.accepted = true ∧ f.orphan = true) ∨ (f.fn ≠ fn ∧ f ∈ s.hqe.fwd) := by
  rw [endRings_fwd] at h
  obtain ⟨g, hg, rfl⟩ := List.mem_map.mp h
  obtain ⟨hg, hk⟩ := List.mem_filter.mp hg
  by_cases hf : g.fn = fn
  · rw [if_pos hf]
    exact .inl ⟨hf, by simpa [hf] using hk, rfl⟩
  · rw [if_neg hf]
    exact .inr ⟨hf, hg⟩

theorem hiReset_fwd (s : State) (f : Fwd) (h : f ∈ s.hiReset.hqe.fwd) : f.accepted = true ∧ f.orphan = true := by
  obtain ⟨-, h1⟩ | ⟨hn1, h⟩ := mem_endRings_fwd .pf1 ((s.onSup Sup.perstSeen).endRings .pf0) f h
  · exact h1
  · obtain ⟨-, h0⟩ | ⟨hn0, -⟩ := mem_endRings_fwd .pf0 (s.onSup Sup.perstSeen) f h
    · exact h0
    · cases hf : f.fn
      · exact absurd hf hn0
      · exact absurd hf hn1

theorem perstAssert_eq {s : State} (hp : s.sup.perst = false) (hc : s.sup.commit = none) : perstAssert s = s.hiReset.endHostTiles := by
  have he : perstAssert s = if s.sup.perst then s else (match s.hiReset.sup.commit with
    | none => s.hiReset
    | some c => s.hiReset.failCommit c 0x0D).endHostTiles := rfl
  have hcommit : s.hiReset.sup.commit = none := (congrArg Sup.commit (hiReset_sup s)).trans hc
  rw [he, hp, hcommit]
  rfl

/-- Ready bit 0 taken away. -/
theorem bit_unready (m j : Nat) : bit (if bit m 0 then m - 1 else m) j = if j = 0 then false else bit m j := by
  by_cases hb : bit m 0 = true
  · rw [if_pos hb]
    have hodd : m % 2 = 1 := by simpa [bit] using hb
    cases j with
    | zero => simp [bit]; omega
    | succ j =>
      rw [if_neg (Nat.succ_ne_zero j), bit_eq_testBit, bit_eq_testBit, Nat.testBit_succ, Nat.testBit_succ, show (m - 1) / 2 = m / 2 by omega]
  · rw [if_neg hb]
    split
    next h => rw [h]; exact Bool.eq_false_iff.mpr hb
    · rfl

theorem perstAssert_spec (s : State) : s.hiReset.endHostTiles.sup = { s.sup.perstSeen with posting := none } ∧
    s.hiReset.endHostTiles.spa = { s.spa with unposted := [] } ∧ s.hiReset.endHostTiles.hqe.f0 = s.hqe.f0.restart 64 72 ∧
    s.hiReset.endHostTiles.hqe.f1 = s.hqe.f1.restart 4 8 ∧ s.hiReset.endHostTiles.hqe.tags = [] ∧ s.hiReset.endHostTiles.hqe.ready = [] ∧
    (∀ f ∈ s.hiReset.endHostTiles.hqe.fwd, f.accepted = true ∧ f.orphan = true) := by
  have hsup : s.hiReset.endHostTiles.sup = s.hiReset.sup :=
    sup_of_frame (fun _ hp => endHostTiles_part hp s.hiReset) (by simp) (by simp) (by simp)
  have hspa : s.hiReset.endHostTiles.spa = s.hiReset.spa := endHostTiles_part (π := .spa) (by simp) ..
  have hready : s.hiReset.endHostTiles.hqe.ready = s.hiReset.hqe.ready := endHostTiles_part (π := .ready) (by simp) ..
  have hrings : s.hiReset.endHostTiles.hqe.rings = s.hiReset.hqe.rings := endHostTiles_part (π := .rings) (by simp) ..
  obtain ⟨h0, h1, ht⟩ := hiReset_rings s
  refine ⟨hsup.trans (hiReset_sup s), hspa.trans (hiReset_spa s), (congrArg Hqe.f0 hrings).trans h0, (congrArg Hqe.f1 hrings).trans h1,
    (congrArg Hqe.tags hrings).trans ht, hready.trans (hiReset_ready s), fun f hf => hiReset_fwd s f ?_⟩
  rw [endHostTiles_fwd] at hf
  exact (List.mem_filter.mp hf).1

/-! ### The end of a hold (R48) -/

theorem holdEnded_sup {s : State} (h : s.sup.holdupReady = true) (i c a0 a1 a2 : Nat) :
    ((s.faultRec i c a0 a1 a2).onSup (fun p => { p with held := false })).sup = { s.sup with
      held := false, journal := ((s.faultRec i c a0 a1 a2).onSup (fun p => { p with held := false })).sup.journal
      journalSeq := (s.sup.journalSeq + 1) % 2 ^ 32 } := by
  obtain ⟨j, hj⟩ := journalPut_eq ⟨s.sTime, 0, i, false, c, a0, a1, a2⟩ s.sup
  have hsup : (s.faultRec i c a0 a1 a2).sup = { s.sup with journal := j, journalSeq := (s.sup.journalSeq + 1) % 2 ^ 32 } := (if_pos h).trans hj
  generalize s.faultRec i c a0 a1 a2 = u at hsup
  unfold State.onSup
  dsimp only
  rw [hsup]

/-! ### The claim -/

theorem watchdogAndPerst : Claim.WatchdogAndPerst := by
  refine ⟨?missed, ?third, ?onTrial, ?holdEnd, ?assert, ?deassert⟩
  case missed =>
    intro i s hm hi hp ht hl hst hw hh
    have hroll : ¬ ((s.start.sup.slotIn .trial).isSome || s.start.sup.live.isSome) = true := by
      rw [show s.start.sup = s.sup from rfl, ht, hl]
      decide
    have he : watchdogMiss i s.start = s.start.missed i 1 := by
      rw [watchdogMiss_eq (s := s.start) hm hi hp, if_neg hroll]
      exact if_neg (by rw [List.length_cons]; exact Nat.not_le.mpr (Nat.succ_lt_succ hw))
    refine ⟨_, congrArg Host.Outcome.next he, ?_⟩
    obtain ⟨hisl, hsag, h1, h2, h3, h4, -, -, -, -, hready, -⟩ := watchdogReset (s := s.start) hst 1
    unfold State.missed
    generalize s.start.watchdogCounted.mainReset 1 = u at *
    have hlog := wdReported_logged i s.start.sup.bootSlot u
    obtain ⟨j, n, d, hsup⟩ := wdReported_sup i s.start.sup.bootSlot u
    obtain ⟨r, hr⟩ := wdReported_recent (hready.trans hh) i s.start.sup.bootSlot
    have k1 := congrArg Sup.st hsup
    have k2 := congrArg Sup.lastReset hsup
    have k3 := congrArg Sup.resets hsup
    have k4 := congrArg Sup.bootSlot hsup
    have k5 := congrArg Sup.lastEvent hsup
    rw [Nat.mod_eq_of_lt (by omega : i < 256)] at k5
    exact ⟨hlog.islands hisl, hlog.saggar hsag, k1.trans h1, k2.trans h2, k3.trans h3, k4.trans h4, ⟨r, hr⟩, k5⟩
  case third =>
    intro i s hm hi hp ht hl hst hw hb
    have hroll : ¬ ((s.start.sup.slotIn .trial).isSome || s.start.sup.live.isSome) = true := by
      rw [show s.start.sup = s.sup from rfl, ht, hl]
      decide
    have he : watchdogMiss i s.start = (s.start.missed i 1).thirdReset s.sup.bootSlot := by
      rw [watchdogMiss_eq (s := s.start) hm hi hp, if_neg hroll]
      exact if_pos (by rw [List.length_cons]; exact Nat.succ_le_succ hw)
    have hreset := watchdogReset (s := s.start) hst 1
    have hlog := (wdReported_logged i s.start.sup.bootSlot (s.start.watchdogCounted.mainReset 1)).trans (thirdReset_logged s.sup.bootSlot _)
    obtain ⟨j, n, d, hsup⟩ := wdReported_sup i s.start.sup.bootSlot (s.start.watchdogCounted.mainReset 1)
    have hmissed : s.start.missed i 1 = (s.start.watchdogCounted.mainReset 1).wdReported i s.start.sup.bootSlot := rfl
    rw [← hmissed] at hlog hsup
    generalize s.start.missed i 1 = v at *
    generalize s.start.watchdogCounted.mainReset 1 = u at *
    have hslot : v.sup.slot (1 - s.sup.bootSlot) = s.sup.slot (1 - s.sup.bootSlot) := by
      rw [hsup]
      exact hreset.slot _
    have hheld : v.sup.held = s.sup.held := by
      rw [hsup]
      exact hreset.held
    have hno : v.sup.noFirmware = s.sup.noFirmware := by
      rw [hsup]
      exact hreset.noFirmware
    refine ⟨fun hv => ⟨_, congrArg Host.Outcome.next he, hlog.islands hreset.islands, hlog.saggar hreset.saggar, ?_⟩,
      fun hv => ⟨_, congrArg Host.Outcome.next he, hlog.islands hreset.islands, hlog.saggar hreset.saggar, ?_⟩⟩
    · obtain ⟨h1, h2, h3, h4, h5⟩ := thirdReset_moved (s := v) (i := s.sup.bootSlot) (by rw [hslot]; exact hv)
      exact ⟨h1, h2, h3, h4.trans hheld, h5⟩
    · obtain ⟨h1, h2, h3⟩ := thirdReset_holds (s := v) (i := s.sup.bootSlot) (by rw [hslot]; exact hv)
      exact ⟨h1, h2.trans hno, h3⟩
  case onTrial =>
    intro i s hm hi hp ha hb hst
    have htrial : s.start.sup.slotIn .trial = some 1 := (if_neg (by rw [show s.start.sup = s.sup from rfl, ha]; decide)).trans (if_pos hb)
    have he : watchdogMiss i s.start = (s.start.missed i 5).autoRollback := by
      rw [watchdogMiss_eq (s := s.start) hm hi hp]
      exact if_pos (by rw [htrial]; rfl)
    refine ⟨_, congrArg Host.Outcome.next he, ?_⟩
    have hreset := watchdogReset (s := s.start) hst 5
    have hlog := (wdReported_logged i s.start.sup.bootSlot (s.start.watchdogCounted.mainReset 5)).trans (autoRollback_logged _)
    obtain ⟨j, n, d, hsup⟩ := wdReported_sup i s.start.sup.bootSlot (s.start.watchdogCounted.mainReset 5)
    have hmissed : s.start.missed i 5 = (s.start.watchdogCounted.mainReset 5).wdReported i s.start.sup.bootSlot := rfl
    rw [← hmissed] at hlog hsup
    generalize s.start.missed i 5 = v at *
    generalize s.start.watchdogCounted.mainReset 5 = u at *
    have hA : v.sup.slotA = s.sup.slotA := by
      rw [hsup]
      exact hreset.slotA
    have hB : v.sup.slotB = s.sup.slotB := by
      rw [hsup]
      exact hreset.slotB
    obtain ⟨h1, h2, h3, h4, h5, h6⟩ := autoRollback_toA (s := v) (by rw [hA]; exact ha) (by rw [hB]; exact hb)
    rw [hA] at h6
    have k4 := congrArg Sup.trialOn hsup
    have k5 := congrArg Sup.lastReset hsup
    exact ⟨hlog.islands hreset.islands, hlog.saggar hreset.saggar, h5.trans (k5.trans hreset.lastReset), h1, h2, h3,
      h4.trans (k4.trans hreset.trialOn), h6⟩
  case holdEnd =>
    intro s hheld hno hh
    have he : holdEnd s.start = (s.start.faultRec 8 0x0009 s.sup.bootSlot (s.sup.wdCount s.sup.spireTime) 0).onSup
        (fun p => { p with held := false }) := if_pos (by rw [show s.start.sup = s.sup from rfl, hheld, hno]; rfl)
    refine ⟨_, congrArg Host.Outcome.next he, rfl, ?_, ?_⟩
    · obtain ⟨pre, post, hj, hp⟩ := faultRec_recent (s := s.start) hh 8 0x0009 s.sup.bootSlot (s.sup.wdCount s.sup.spireTime) 0
      obtain rfl := List.eq_nil_of_length_eq_zero (Nat.le_zero.mp hp)
      exact ⟨⟨s.start.sTime, (s.start.sup.journalSeq + 1) % 2 ^ 32, 8, false, 0x0009, s.sup.bootSlot, s.sup.wdCount s.sup.spireTime, 0⟩,
        (congrArg List.getLast? hj).trans List.getLast?_concat, rfl, rfl, rfl, rfl⟩
    · exact holdEnded_sup hh ..
  case assert =>
    intro s hp hc
    refine ⟨_, congrArg Host.Outcome.next (perstAssert_eq (s := s.start) hp hc), ?_⟩
    obtain ⟨hsup, hspa, h0, h1, htags, hready, hfwd⟩ := perstAssert_spec s.start
    have hk {π : Part} (h : π ∉ [Part.fwd, .ready, .rings, .tmf, .faults, .sup, .spa, .kce, .out, .cur]) :
        part π s.start.hiReset.endHostTiles = part π s := by
      simp only [List.mem_cons, List.not_mem_nil, or_false, not_or] at h
      have hu : part π s.start.hiReset = part π s := by
        unfold State.hiReset
        cases π <;> simp at h <;> rfl
      exact (endHostTiles_part (by simp [h]) ..).trans hu
    have htiles : ∀ x ∈ s.start.hiReset.endHostTiles.tmf.tiles, x.2.owner ≠ .host := fun x hx => endHostTiles_tiles hx
    generalize s.start.hiReset.endHostTiles = t at *
    have hmask := congrArg Sup.readyMask hsup
    have hperst := congrArg Sup.perst hsup
    have hpcie := congrArg Sup.pcieUp hsup
    have hst := congrArg Sup.st hsup
    have hsince := congrArg Sup.readySince hsup
    refine ⟨hperst, hpcie, ?_, fun j hj => ?_, hst, h0, h1, htags, hready, hfwd, htiles,
      hk (π := .cfg) (by simp), hspa, hk (π := .psc) (by simp), hk (π := .pla) (by simp), hk (π := .vpc) (by simp),
      hsince, hk (π := .sgm) (by simp), hk (π := .bte) (by simp), hk (π := .mss) (by simp), hk (π := .cell) (by simp)⟩
    · rw [hmask]
      exact (bit_unready s.sup.readyMask 0).trans (if_pos rfl)
    · rw [hmask]
      exact (bit_unready s.sup.readyMask j).trans (if_neg hj)
  case deassert =>
    intro s hp
    have he : perstDeassert s.start = if s.start.mainRuns && s.start.islandsUp then
        (s.start.onSup (fun p => { p with perst := false })).islandIsReady 0 else s.start.onSup (fun p => { p with perst := false }) :=
      if_neg (by rw [show s.start.sup = s.sup from rfl, hp]; decide)
    by_cases hup : (s.start.mainRuns && s.start.islandsUp) = true
    · rw [if_pos hup] at he
      refine ⟨_, congrArg Host.Outcome.next he, ?_⟩
      have hmoved := islandIsReady_moved 0 (s.start.onSup (fun p => { p with perst := false }))
      have hframe := islandIsReady_frame 0 (s.start.onSup (fun p => { p with perst := false }))
      have hcur : ((s.start.onSup (fun p => { p with perst := false })).islandIsReady 0).cur = none :=
        islandIsReady_part (π := .cur) (by simp) ..
      obtain ⟨on, left, hsup, -⟩ := islandIsReady_sup 0 (s.start.onSup (fun p => { p with perst := false }))
      have h1 := congrArg Sup.perst hsup
      have hmask := congrArg Sup.readyMask hsup
      generalize (s.start.onSup (fun p => { p with perst := false })).islandIsReady 0 = t at *
      refine ⟨h1, hmoved, fun _ _ => ?_, fun j hj => ?_, hframe⟩
      · rw [hmask]
        exact bit_setBit_self s.sup.readyMask 0
      · rw [hmask]
        exact bit_setBit_of_ne hj s.sup.readyMask
    · rw [if_neg hup] at he
      refine ⟨_, congrArg Host.Outcome.next he, rfl, ⟨rfl, rfl⟩, fun h1 h2 => absurd ?_ hup, fun _ _ => rfl, rfl⟩
      change (s.mainRuns && s.islandsUp) = true
      rw [h1, h2]
      rfl

/-- Settles O55: the power of the main die, the start-up, the watchdog and PERST#, clause by clause. -/
theorem powerAndStartUp : Obligations.PowerAndStartUp := ⟨power, startUp, watchdogAndPerst⟩

end Sys2Proof.Machine
end
section
/-! PROOFS. Commits (R58, R62 to R68, R195, R507) -/

namespace Sys2Proof.Machine

open Sys2Proof

/-! ### Coefficient tiles written -/

theorem look_putSorted_self {β : Type} (k : Nat) (v : β) (l : List (Nat × β)) : look k (putSorted k v l) = some v := by
  induction l with
  | nil => simp [putSorted, look]
  | cons x l ih =>
    obtain ⟨a, b⟩ := x
    unfold putSorted
    split
    · simp [look]
    · split
      · simp [look]
      next h => simpa [look, Ne.symm h] using ih

theorem look_putSorted_of_ne {β : Type} {j k : Nat} (h : j ≠ k) (v : β) (l : List (Nat × β)) : look j (putSorted k v l) = look j l := by
  induction l with
  | nil => simp [putSorted, look, h.symm]
  | cons x l ih =>
    obtain ⟨a, b⟩ := x
    unfold putSorted
    split
    · simp [look, h.symm]
    · split
      next hk => simp [look, hk ▸ h.symm, h.symm]
      · by_cases ha : a = j <;> simp [look, ha, ih]

/-- What writing coefficient tiles touches of the store. -/
def Tmf.CoeffsOnly (t u : Tmf) : Prop := u = { t with coeffs := u.coeffs, restoring := u.restoring } ∧ u.restoring ⊆ t.restoring

theorem Tmf.CoeffsOnly.refl (t : Tmf) : t.CoeffsOnly t := ⟨rfl, fun _ h => h⟩

theorem Tmf.CoeffsOnly.trans {t u v : Tmf} (h1 : t.CoeffsOnly u) (h2 : u.CoeffsOnly v) : t.CoeffsOnly v := by
  obtain ⟨e1, r1⟩ := h1
  obtain ⟨e2, r2⟩ := h2
  refine ⟨?_, fun _ h => r1 (r2 h)⟩
  rw [e1] at e2
  exact e2

theorem Tmf.CoeffsOnly.oos {t u : Tmf} (h : t.CoeffsOnly u) : u.oos = t.oos := by rw [h.1]

theorem restorePair_coeffsOnly (i : Nat) (t : Tmf) : t.CoeffsOnly (t.restorePair i) := ⟨rfl, fun _ h => (List.mem_filter.mp h).1⟩

theorem settle_coeffsOnly (a b : Nat) (t : Tmf) : t.CoeffsOnly (t.settle a b) := by
  have h (i : Nat) (t : Tmf) : t.CoeffsOnly (if t.restoring.contains i then t.restorePair i else t) := by
    split
    · exact restorePair_coeffsOnly i t
    · exact .refl t
  exact (h a t).trans (h b _)

theorem putCoeff_coeffsOnly (n : Nat) (b : List Byte) (t : Tmf) : t.CoeffsOnly (t.putCoeff n b) := by
  have h (i : Nat) (t : Tmf) : t.CoeffsOnly (if t.oos.contains i then t else { t with coeffs := putSorted i b t.coeffs }) := by
    split
    · exact .refl t
    · exact ⟨rfl, fun _ h => h⟩
  exact (settle_coeffsOnly ..).trans ((h (0x40 + n) _).trans (h (0x240 + n) _))

theorem restorePair_look {i j : Nat} (h : j ≠ i) (t : Tmf) : look j (t.restorePair i).coeffs = look j t.coeffs := by
  unfold Tmf.restorePair
  dsimp only
  split
  · rfl
  · exact look_putSorted_of_ne h ..

theorem settle_look {a b j : Nat} (ha : j ≠ a) (hb : j ≠ b) (t : Tmf) : look j (t.settle a b).coeffs = look j t.coeffs := by
  have h {i : Nat} (hi : j ≠ i) (t : Tmf) : look j (if t.restoring.contains i then t.restorePair i else t).coeffs = look j t.coeffs := by
    split
    · exact restorePair_look hi t
    · rfl
  exact (h hb _).trans (h ha t)

/-- One copy of a set written. -/
def Tmf.putCopy (b : List Byte) (t : Tmf) (i : Nat) : Tmf := if t.oos.contains i then t else { t with coeffs := putSorted i b t.coeffs }

theorem putCopy_look_of_ne {i j : Nat} (h : j ≠ i) (b : List Byte) (t : Tmf) : look j (t.putCopy b i).coeffs = look j t.coeffs := by
  unfold Tmf.putCopy
  split
  · rfl
  · exact look_putSorted_of_ne h ..

theorem putCopy_look_self {i : Nat} {t : Tmf} (h : i ∉ t.oos) (b : List Byte) : look i (t.putCopy b i).coeffs = some b := by
  unfold Tmf.putCopy
  rw [if_neg (by simpa using h)]
  exact look_putSorted_self ..

theorem putCopy_oos (b : List Byte) (t : Tmf) (i : Nat) : (t.putCopy b i).oos = t.oos := by
  unfold Tmf.putCopy
  split <;> rfl

theorem putCoeff_eq (n : Nat) (b : List Byte) (t : Tmf) : t.putCoeff n b = ((t.settle (0x40 + n) (0x240 + n)).putCopy b (0x40 + n)).putCopy b (0x240 + n) := rfl

theorem putCoeff_look_of_ne {n j : Nat} (h : j ≠ 0x40 + n) (h' : j ≠ 0x240 + n) (b : List Byte) (t : Tmf) :
    look j (t.putCoeff n b).coeffs = look j t.coeffs := by
  rw [putCoeff_eq, putCopy_look_of_ne h', putCopy_look_of_ne h, settle_look h h']

theorem putCoeff_look (n : Nat) (b : List Byte) (t : Tmf) : (0x40 + n ∉ t.oos → look (0x40 + n) (t.putCoeff n b).coeffs = some b) ∧
    (0x240 + n ∉ t.oos → look (0x240 + n) (t.putCoeff n b).coeffs = some b) := by
  have ho : (t.settle (0x40 + n) (0x240 + n)).oos = t.oos := (settle_coeffsOnly ..).oos
  rw [putCoeff_eq]
  refine ⟨fun h => ?_, fun h => ?_⟩
  · rw [putCopy_look_of_ne (by omega)]
    exact putCopy_look_self (by rw [ho]; exact h) b
  · exact putCopy_look_self (by rw [putCopy_oos, ho]; exact h) b

/-- The sets of an image written to their tiles. -/
def Tmf.putCoeffs (l : List (Nat × List Byte)) (t : Tmf) : Tmf := l.foldl (fun t x => t.putCoeff x.1 x.2) t

theorem putCoeffs_coeffsOnly (l : List (Nat × List Byte)) (t : Tmf) : t.CoeffsOnly (t.putCoeffs l) := by
  induction l generalizing t with
  | nil => exact .refl t
  | cons x l ih => exact (putCoeff_coeffsOnly x.1 x.2 t).trans (ih _)

/-- A tile that every set for it agrees on holds that set, once it has been written or where it held it before. -/
theorem putCoeffs_look {l : List (Nat × List Byte)} {n j : Nat} {b : List Byte} {t : Tmf} (hj : j = 0x40 + n ∨ j = 0x240 + n) (hoos : j ∉ t.oos)
    (hlt : n < 512) (hl : ∀ x ∈ l, x.1 < 512) (hone : ∀ y ∈ l, y.1 = n → y.2 = b) (h : (n, b) ∈ l ∨ look j t.coeffs = some b) :
    look j (t.putCoeffs l).coeffs = some b := by
  induction l generalizing t with
  | nil => exact h.resolve_left (by simp)
  | cons x l ih =>
    have hx := hl x (by simp)
    refine ih (by rw [(putCoeff_coeffsOnly x.1 x.2 t).oos]; exact hoos) (fun y hy => hl y (by simp [hy])) (fun y hy => hone y (by simp [hy])) ?_
    by_cases hn : x.1 = n
    · right
      have hb := hone x (by simp) hn
      obtain ⟨h1, h2⟩ := putCoeff_look x.1 x.2 t
      subst hn
      rcases hj with rfl | rfl
      · exact (h1 hoos).trans (congrArg some hb)
      · exact (h2 hoos).trans (congrArg some hb)
    · rcases h with h | h
      · left
        refine (List.mem_cons.mp h).resolve_left fun he => hn ?_
        rw [← he]
      · right
        rw [putCoeff_look_of_ne (by omega) (by omega)]
        exact h

theorem foldl_onTmf {α : Type} (f : α → Tmf → Tmf) (l : List α) (s : State) :
    l.foldl (fun s x => s.onTmf (f x)) s = s.onTmf (fun t => l.foldl (fun t x => f x t) t) := by
  induction l generalizing s with
  | nil => rfl
  | cons x l ih => exact ih _

theorem usable_of_coeffsOnly {t u : Tmf} (h : t.CoeffsOnly u) {i : Nat} (hu : t.usable i = true) : u.usable i = true := by
  unfold Tmf.usable at hu ⊢
  rw [h.oos]
  simp only [Bool.and_eq_true, Bool.not_eq_true', List.contains_eq_mem, decide_eq_false_iff_not] at hu ⊢
  exact ⟨hu.1, fun hi => hu.2 (h.2 hi)⟩

/-- Sets whose first copies are sound are loaded as they were written. -/
theorem loadCoeffs_good {bad : List Nat} {l : List (Nat × List Byte)} {s : State}
    (h : ∀ x ∈ l, s.tmf.usable (0x40 + x.1) = true ∧ 0x40 + x.1 ∉ bad) :
    s.loadCoeffs bad l = (s.onTmf (Tmf.putCoeffs l), true) := by
  have h1 : l.foldl (fun s x => s.onTmf (Tmf.putCoeff x.1 x.2)) s = s.onTmf (Tmf.putCoeffs l) := foldl_onTmf (fun x => Tmf.putCoeff x.1 x.2) l s
  have hsame (m : List (Nat × List Byte)) (u : State) (hm : ∀ x ∈ m, u.tmf.usable (0x40 + x.1) = true ∧ 0x40 + x.1 ∉ bad) :
      m.foldl (fun a x => let y := a.1.loadCoeff bad x.1; (y.1, a.2 && y.2)) (u, true) = (u, true) := by
    induction m with
    | nil => rfl
    | cons x m ih =>
      obtain ⟨hu, hb⟩ := hm x (by simp)
      have hx : u.loadCoeff bad x.1 = (u, true) := if_pos (by simpa [hu] using hb)
      rw [List.foldl_cons]
      dsimp only
      rw [hx]
      exact ih fun y hy => hm y (by simp [hy])
  have hu := hsame l (s.onTmf (Tmf.putCoeffs l)) fun x hx =>
    ⟨usable_of_coeffsOnly (t := s.tmf) (putCoeffs_coeffsOnly l s.tmf) (h x hx).1, (h x hx).2⟩
  rw [← h1] at hu ⊢
  exact hu

/-- A set of which no copy is sound fails the loading. -/
theorem loadCoeffs_bad {bad : List Nat} {l : List (Nat × List Byte)} {x : Nat × List Byte} (hx : x ∈ l) (ha : 0x40 + x.1 ∈ bad)
    (hb : 0x240 + x.1 ∈ bad) (s : State) : (s.loadCoeffs bad l).2 = false := by
  have hone (u : State) : (u.loadCoeff bad x.1).2 = false := by
    unfold State.loadCoeff
    dsimp only
    rw [if_neg (by simp [ha]), if_neg (by simp [hb])]
  have hfalse (m : List (Nat × List Byte)) (a : State × Bool) (h : a.2 = false) :
      (m.foldl (fun a x => let y := a.1.loadCoeff bad x.1; (y.1, a.2 && y.2)) a).2 = false := by
    induction m generalizing a with
    | nil => exact h
    | cons y m ih => exact ih _ (by simp [h])
  obtain ⟨pre, post, rfl⟩ := List.append_of_mem hx
  unfold State.loadCoeffs
  rw [List.foldl_append (l := pre), List.foldl_append (l := pre), List.foldl_cons]
  exact hfalse post _ (by simp [hone])

/-! ### The gate reads nothing but tiles and the formats -/

theorem readChain_congr {s t : State} (h : s.tmf = t.tmf) (kind : Nat) (bad : List Nat) (n hd : Nat) (seen : List (Nat × Manifest)) :
    readChain s kind bad n hd seen = readChain t kind bad n hd seen := by
  induction n generalizing hd seen with
  | zero => rfl
  | succ n ih =>
    have hc : s.closedTile hd = t.closedTile hd := by
      unfold State.closedTile
      rw [h]
    unfold readChain
    rw [hc]
    simp only [ih]

theorem gateOf_congr {s t : State} (h : s.tmf = t.tmf) (hs : s.sup = t.sup) (hd : Nat) (b : Bool) (f : Cfg → Bool) (img : List RawRec) (bad : List Nat) :
    gateOf s hd b f img bad = gateOf t hd b f img bad := by
  have hc : chainOf s hd (b2n b) bad = chainOf t hd (b2n b) bad := by
    have hclosed (x : Nat) : s.closedTile x = t.closedTile x := by
      unfold State.closedTile
      rw [h]
    unfold chainOf
    rw [readChain_congr h]
    simp only [hclosed]
  unfold gateOf
  rw [hc, hs]

end Sys2Proof.Machine
end
section
/-! PROOFS. How a commit ends (R63, R507) -/

namespace Sys2Proof.Machine

open Sys2Proof

/-! ### The end of a commit -/

theorem postCommit_sup (c : Commit) (st r : Nat) (s : State) : ∃ p, (s.postCommit c st r).sup = { s.sup with posting := p } ∧
    (OwnedAs .pf0 c.sq c.cid s → p = some c) := by
  have hs : (s.complete .pf0 c.sq c.cid st r).sup = s.sup := State.complete_sup ..
  have hr (h : OwnedAs .pf0 c.sq c.cid s) : (s.complete .pf0 c.sq c.cid st r).hqe.ready.length = s.hqe.ready.length + 1 := by
    obtain ⟨⟨⟨quiet, hready⟩, -⟩, -⟩ := complete_kept (s1 := s) (st := st) (r := r) h rfl
    rw [hready, List.length_append]
    rfl
  unfold State.postCommit
  dsimp only
  split
  next he => exact ⟨s.sup.posting, hs, fun h => absurd he (by rw [hr h]; omega)⟩
  · exact ⟨some c, congrArg (fun p : Sup => { p with posting := some c }) hs, fun _ => rfl⟩

theorem postCommit_hqe (c : Commit) (st r : Nat) (s : State) : (s.postCommit c st r).hqe = (s.complete .pf0 c.sq c.cid st r).hqe := by
  unfold State.postCommit
  dsimp only
  split <;> rfl

theorem postCommit_completed {c : Commit} {s s1 : State} (h : OwnedAs .pf0 c.sq c.cid s) (hm : NoCommandMoved s s1) (st r : Nat) :
    CompletedAs .pf0 c.sq c.cid st r s (s1.postCommit c st r) := by
  have hc := complete_moved (st := st) (r := r) h hm
  unfold CompletedAs at hc ⊢
  rw [postCommit_hqe]
  exact hc

/-- The Spire and the Kiln have given a commit up. -/
def State.dropCommit (reason : Nat) (s : State) : State :=
  (s.onSup (fun p => { p with commit := none, commitOk := false, commitReason := reason, image := none, storing := none })).onKce
    (fun k => { k with staged := none })

theorem closeCommit_eq (c : Commit) (reason : Nat) (s : State) : s.closeCommit c reason =
    ((((s.dropCommit reason).postCommit c (commitStatus reason) (if c.kind = .coeff then 0 else reason)).supEvent 71 0x02 reason noSource).faultRec
      8 0x0005 reason s.sup.st.code 0) := rfl

theorem closeCommit_sup (c : Commit) (reason : Nat) (s : State) : ∃ p j n d, (s.closeCommit c reason).sup = { s.sup with
      commit := none, commitOk := false, commitReason := reason, image := none, storing := none, posting := p
      lastEvent := some (7, 255, 0x02, reason % 256), journal := j, journalSeq := n, deferred := d } ∧
    (OwnedAs .pf0 c.sq c.cid s → p = some c) := by
  obtain ⟨p, hp, hpo⟩ := postCommit_sup c (commitStatus reason) (if c.kind = .coeff then 0 else reason) (s.dropCommit reason)
  have he := supEvent_sup 71 0x02 reason noSource
    ((s.dropCommit reason).postCommit c (commitStatus reason) (if c.kind = .coeff then 0 else reason))
  rw [closeCommit_eq]
  generalize (s.dropCommit reason).postCommit c (commitStatus reason) (if c.kind = .coeff then 0 else reason) = u at *
  obtain ⟨j, n, d, hf⟩ := faultRec_sup 8 0x0005 reason s.sup.st.code 0 (u.supEvent 71 0x02 reason noSource)
  refine ⟨p, j, n, d, ?_, fun h => hpo h⟩
  rw [hf, he, hp]
  rfl

theorem closeCommit_completed {c : Commit} {s : State} (h : OwnedAs .pf0 c.sq c.cid s) (reason : Nat) :
    CompletedAs .pf0 c.sq c.cid (commitStatus reason) (if c.kind = .coeff then 0 else reason) s (s.closeCommit c reason) := by
  have hp := postCommit_completed (s1 := s.dropCommit reason) h ⟨rfl, rfl⟩ (commitStatus reason) (if c.kind = .coeff then 0 else reason)
  rw [closeCommit_eq]
  exact completedAs_moved (completedAs_moved hp (supEvent_moved ..)) ⟨rfl, rfl⟩

theorem closeCommit_recent {s : State} (h : s.sup.holdupReady = true) (c : Commit) (reason : Nat) :
    ∃ x, (s.closeCommit c reason).sup.journal.getLast? = some x ∧ x.code = 0x0005 ∧ x.arg0 = reason := by
  obtain ⟨p, hp, -⟩ := postCommit_sup c (commitStatus reason) (if c.kind = .coeff then 0 else reason) (s.dropCommit reason)
  have he := supEvent_sup 71 0x02 reason noSource
    ((s.dropCommit reason).postCommit c (commitStatus reason) (if c.kind = .coeff then 0 else reason))
  rw [closeCommit_eq]
  generalize (s.dropCommit reason).postCommit c (commitStatus reason) (if c.kind = .coeff then 0 else reason) = u at *
  have hh : (u.supEvent 71 0x02 reason noSource).sup.holdupReady = true := by
    rw [he, hp]
    exact h
  obtain ⟨pre, post, hj, hl⟩ := faultRec_recent hh 8 0x0005 reason s.sup.st.code 0
  obtain rfl := List.eq_nil_of_length_eq_zero (Nat.le_zero.mp hl)
  exact ⟨_, (congrArg List.getLast? hj).trans List.getLast?_concat, rfl, rfl⟩

theorem closeCommit_frame (c : Commit) (reason : Nat) (s : State) : s.closeCommit c reason = { s with
    hqe := (s.closeCommit c reason).hqe, sup := (s.closeCommit c reason).sup, kce := { s.kce with staged := none }
    out := (s.closeCommit c reason).out, cur := (s.closeCommit c reason).cur } := by
  have hk : part .kce (s.closeCommit c reason) = part .kce (s.dropCommit reason) := by
    rw [closeCommit_eq]
    simp
  have hf := eq_frameOf [.fwd, .ready, .rings, .faults, .sup, .kce, .out, .cur] (s := s) (t := s.closeCommit c reason) fun π hp => by
    simp only [List.mem_cons, List.not_mem_nil, or_false, not_or] at hp
    exact closeCommit_part (by simp [hp]) ..
  have hkce : (s.closeCommit c reason).kce = { s.kce with staged := none } := hk
  generalize s.closeCommit c reason = t at *
  refine hf.trans ?_
  unfold frameOf
  rw [← hkce]
  rfl

/-! ### A commit fails -/

/-- The fields that a commit's failure leaves. -/
structure Failed (reason : Nat) (s t : State) : Prop where
  commit : t.sup.commit = none
  ok : t.sup.commitOk = false
  reason : t.sup.commitReason = reason
  image : t.sup.image = none
  storing : t.sup.storing = none
  bisqueImage : t.sup.bisqueImage = s.sup.bisqueImage
  bisqueValid : t.sup.bisqueValid = s.sup.bisqueValid
  bisqueSlot : t.sup.bisqueSlot = s.sup.bisqueSlot
  cfg : t.cfg = s.cfg

theorem closeCommit_failed (c : Commit) (reason : Nat) (s : State) : Failed reason s (s.closeCommit c reason) ∧
    (s.closeCommit c reason).sup.st = s.sup.st ∧ (s.closeCommit c reason).sup.bisqueId = s.sup.bisqueId := by
  obtain ⟨p, j, n, d, h, -⟩ := closeCommit_sup c reason s
  have hcfg : (s.closeCommit c reason).cfg = s.cfg := closeCommit_part (π := .cfg) (by simp) ..
  generalize s.closeCommit c reason = t at *
  have h1 := congrArg Sup.commit h
  have h2 := congrArg Sup.commitOk h
  have h3 := congrArg Sup.commitReason h
  have h4 := congrArg Sup.image h
  have h5 := congrArg Sup.storing h
  have h6 := congrArg Sup.bisqueImage h
  have h7 := congrArg Sup.bisqueValid h
  have h8 := congrArg Sup.bisqueSlot h
  have h9 := congrArg Sup.st h
  have h10 := congrArg Sup.bisqueId h
  exact ⟨⟨h1, h2, h3, h4, h5, h6, h7, h8, hcfg⟩, h9, h10⟩

/-- Beside the state, its reason, ship mode and the configuration number the Spire keeps its fields when it enters WAIT_HOST. -/
theorem enterWaitHost_field {α : Type} {f : Sup → α} (hr : ∀ p : Sup, f p.rest = f p)
    (hf : ∀ (p : Sup) prev left ship ev, f { p with
      st := .waitHost, prev := prev, reason := reason, shipFrom := ship, shipLeft := left, lastEvent := ev, configId := 0 } = f p)
    (s : State) : f (s.enterWaitHost reason).sup = f s.sup := by
  obtain ⟨prev, left, ship, ev, hs⟩ := setState_sup .waitHost reason s
  have hrest (u : State) : part .sup (u.refreshGroups.portsNotReady).nvmDefaults = part .sup u := by simp
  have hp : part .sup (s.enterWaitHost reason) = part .sup ((s.setState .waitHost reason).onSup (fun p => { p with configId := 0 })) := by
    unfold State.enterWaitHost
    exact hrest _
  generalize s.setState .waitHost reason = u at hs hp
  have h : f (s.enterWaitHost reason).sup = f { u.sup with configId := 0 } := sup_of_part hp f hr
  rw [hs] at h
  exact h.trans (hf s.sup prev left ship ev)

theorem enterWaitHost_failed {reason r : Nat} {s t : State} (h : Failed r s t) : Failed r s (t.enterWaitHost reason) where
  commit := (enterWaitHost_field (f := Sup.commit) (fun _ => rfl) (fun _ _ _ _ _ => rfl) t).trans h.commit
  ok := (enterWaitHost_field (f := Sup.commitOk) (fun _ => rfl) (fun _ _ _ _ _ => rfl) t).trans h.ok
  reason := (enterWaitHost_field (f := Sup.commitReason) (fun _ => rfl) (fun _ _ _ _ _ => rfl) t).trans h.reason
  image := (enterWaitHost_field (f := Sup.image) (fun _ => rfl) (fun _ _ _ _ _ => rfl) t).trans h.image
  storing := (enterWaitHost_field (f := Sup.storing) (fun _ => rfl) (fun _ _ _ _ _ => rfl) t).trans h.storing
  bisqueImage := (enterWaitHost_field (f := Sup.bisqueImage) (fun _ => rfl) (fun _ _ _ _ _ => rfl) t).trans h.bisqueImage
  bisqueValid := (enterWaitHost_field (f := Sup.bisqueValid) (fun _ => rfl) (fun _ _ _ _ _ => rfl) t).trans h.bisqueValid
  bisqueSlot := (enterWaitHost_field (f := Sup.bisqueSlot) (fun _ => rfl) (fun _ _ _ _ _ => rfl) t).trans h.bisqueSlot
  cfg := (enterWaitHost_kept reason t).1.trans h.cfg

theorem failCommit_failed (c : Commit) (reason : Nat) (s : State) : Failed reason s (s.failCommit c reason) := by
  obtain ⟨h, -⟩ := closeCommit_failed c reason s
  unfold State.failCommit
  dsimp only
  split
  · exact enterWaitHost_failed h
  · exact h

theorem failCommit_closes {c : Commit} (h : ¬(c.kind = .config ∧ (c.origin = .waitHost ∨ c.origin = .bisque))) (reason : Nat) (s : State) :
    s.failCommit c reason = s.closeCommit c reason := by
  unfold State.failCommit
  dsimp only
  rw [if_neg fun hn => h ⟨hn.1, hn.2.1⟩]

theorem failCommit_waits {c : Commit} {s : State} (hk : c.kind = .config) (ho : c.origin = .waitHost ∨ c.origin = .bisque) (h1 : s.sup.st ≠ .boot)
    (h2 : s.sup.st ≠ .powerFail) (reason : Nat) : s.failCommit c reason = (s.closeCommit c reason).enterWaitHost reason := by
  have hst : (s.closeCommit c reason).sup.st = s.sup.st := (closeCommit_failed c reason s).2.1
  unfold State.failCommit
  dsimp only
  rw [hst, if_pos ⟨hk, ho, h1, h2⟩]

/-! ### No port is left with energy in WAIT_HOST -/

theorem nvmDefaults_prt (n : Nat) (s : State) : s.nvmDefaults.prt n = s.prt n := by
  have h : s.nvmDefaults.vpc = s.vpc := nvmDefaults_part (π := .vpc) (by simp) ..
  unfold State.prt
  rw [h]

theorem evalPort_energy {k n : Nat} {s : State} (h : (s.prt n).energy = false) : ((s.evalPort k).prt n).energy = false := by
  have hon (p1 : Port) (hp : k = n → p1.energy = false) : ((s.onPrt k (fun _ => p1)).prt n).energy = false := by
    change ((upd s.vpc.ports k (fun _ => p1)).getD n Port.reset).energy = false
    by_cases hk : k = n
    · subst hk
      by_cases hl : k < s.vpc.ports.length
      · rw [getD_upd_self _ _ hl]
        exact hp rfl
      · have hup : (upd s.vpc.ports k (fun _ => p1)).length ≤ k := by rw [upd_length]; omega
        rw [List.getD_eq_default _ _ hup]
        rfl
    · rw [getD_upd_of_ne (Ne.symm hk)]
      exact h
  have hv (u v : State) (hu : (u.prt n).energy = false) (hp : v.vpc = u.vpc) : (v.prt n).energy = false := by
    unfold State.prt at hu ⊢
    rw [hp]
    exact hu
  unfold State.evalPort
  dsimp only
  have hone {b : Bool} : k = n → ((s.prt k).energy && b) = false := fun he => by
    rw [he, h]
    rfl
  split
  · refine hon _ fun he => ?_
    exact hone he
  · have hlogged {c : Prop} [Decidable c] {u : State} {a0 a1 : Nat} (hu : (u.prt n).energy = false) :
        ((if c then u.faultRec 5 0x0601 k a0 a1 else u).prt n).energy = false := by
      split
      · exact hv u _ hu (faultRec_part (π := .vpc) (by simp) ..)
      · exact hu
    have hready {u : State} {f : Spa → Spa} (hu : (u.prt n).energy = false) : ((u.onSpa f).prt n).energy = false := hu
    have hevent {u : State} {a : Nat} (hu : (u.prt n).energy = false) : ((u.vpcEvent k 0x01 a).prt n).energy = false :=
      hv (u.onVpc (fun v => { v with lastEvent := some (k, 0x01, a % 256) })) _ hu (postEvent_part (π := .vpc) (by simp) ..)
    split
    · refine hv _ _ (hready (hlogged (hevent (hon _ fun he => ?_)))) (portStop_part (π := .vpc) (by simp) ..)
      exact hone he
    · refine hready (hlogged (hevent (hon _ fun he => ?_)))
      exact hone he

theorem portsNotReady_energy (n : Nat) (s : State) : (s.portsNotReady.prt n).energy = false := by
  have hoff (u : State) : (((u.onVpc (fun v => { v with ports := v.ports.map (fun p =>
      { p with energy := false, mode := 0, duty := 0, diode := false, pilotLo := 0 }) })).prt n).energy = false) := by
    change ((u.vpc.ports.map _).getD n Port.reset).energy = false
    rw [List.getD_eq_getElem?_getD, List.getElem?_map]
    cases u.vpc.ports[n]? <;> rfl
  have heval (l : List Nat) (u : State) (h : (u.prt n).energy = false) : ((l.foldl (fun s n => s.evalPort n) u).prt n).energy = false := by
    induction l generalizing u with
    | nil => exact h
    | cons k l ih => exact ih _ (evalPort_energy h)
  exact heval _ _ (hoff _)

theorem enterWaitHost_energy (reason n : Nat) (s : State) : ((s.enterWaitHost reason).prt n).energy = false := by
  unfold State.enterWaitHost
  dsimp only
  rw [nvmDefaults_prt]
  exact portsNotReady_energy ..

end Sys2Proof.Machine
end
section
/-! PROOFS. The commit gate, CONFIG_ABORT, BISQUE_STORE and COEFF_STAGE (R58, R62 to R68, R195, R507) -/

namespace Sys2Proof.Machine

open Sys2Proof

/-! ### A command taken owns what was owned before -/

theorem acceptIn_ownedAs {q : Sqe} {l : List Fwd} {fn : Fn} {sq cid : Nat} (h : ∀ f ∈ l, f.is fn sq cid = true → f.orphan = false) :
    ∀ f ∈ acceptIn q l, f.is fn sq cid = true → f.orphan = false := by
  induction l with
  | nil =>
    intro f hf _
    rw [show f = _ from List.mem_singleton.mp hf]
  | cons g r ih =>
    intro f hf his
    unfold acceptIn at hf
    split at hf
    · rcases List.mem_cons.mp hf with rfl | hf
      · exact h g (by simp) his
      · exact h f (by simp [hf]) his
    · rcases List.mem_cons.mp hf with rfl | hf
      · exact h f (by simp) his
      · exact ih (fun f hf => h f (by simp [hf])) f hf his

theorem OwnedAs.accepted {fn : Fn} {sq cid : Nat} {s : State} (h : OwnedAs fn sq cid s) (q : Sqe) : OwnedAs fn sq cid (s.start.accept q) :=
  acceptIn_ownedAs h

/-! ### A commit begins -/

theorem configCommit_begins {q : Sqe} {s : State} (ht : (s.tmf.hostTile (sd q 5)).isSome = true) (hx : s.exclusive = false) :
    configCommit q s = s.beginCommit ⟨.config, q.sq, cidOf q, s.sup.st, (imageTiles s (sd q 5)).1, false, false⟩ (imageTiles s (sd q 5)).2 := by
  unfold configCommit
  rw [if_neg (by simpa [Option.isSome_iff_ne_none] using ht), if_neg (by simp [hx])]

/-- The BISQUE_STORE of a command. -/
def bisqueCommit (q : Sqe) (s : State) : Commit := ⟨.bisque, q.sq, cidOf q, s.sup.st, (imageTiles s (sd q 5)).1, true, false⟩

theorem bisqueStore_begins {q : Sqe} {img : List RawRec} {bad : List Nat} {s : State} {cfg : Cfg} (ht : (s.tmf.hostTile (sd q 5)).isSome = true)
    (hx : s.exclusive = false) (hg : gateOf s (sd q 5) true (fun _ => true) img bad = .pass cfg) :
    bisqueStore q img bad s = (s.beginCommit (bisqueCommit q s) (imageTiles s (sd q 5)).2).onSup (fun p => { p with
      storing := some (if p.bisqueValid then 1 - p.bisqueSlot else p.bisqueSlot, cfg.id, img) }) := by
  unfold bisqueStore
  rw [if_neg (by simpa [Option.isSome_iff_ne_none] using ht), if_neg (by simp [hx])]
  dsimp only
  rw [hg]
  rfl

theorem bisqueStore_refused {q : Sqe} {img : List RawRec} {bad : List Nat} {s : State} {r : Nat} (ht : (s.tmf.hostTile (sd q 5)).isSome = true)
    (hx : s.exclusive = false) (hg : gateOf s (sd q 5) true (fun _ => true) img bad = .fail r none) :
    bisqueStore q img bad s = (s.beginCommit (bisqueCommit q s) (imageTiles s (sd q 5)).2).closeCommit (bisqueCommit q s) r := by
  have hf : (s.beginCommit (bisqueCommit q s) (imageTiles s (sd q 5)).2).failCommit (bisqueCommit q s) r = _ :=
    failCommit_closes (by rintro ⟨hk, -⟩; exact absurd hk nofun) r _
  rw [← hf]
  unfold bisqueStore
  rw [if_neg (by simpa [Option.isSome_iff_ne_none] using ht), if_neg (by simp [hx])]
  dsimp only
  rw [hg]
  rfl

/-! ### The end of a validation -/

theorem validationDone_eq {img : List RawRec} {bad : List Nat} {s : State} {c : Commit} (hc : s.sup.commit = some c) (hk : c.kind = .config)
    (hv : c.validated = false) : validationDone img bad s = s.configValidated c img bad := by
  unfold validationDone
  rw [hc]
  dsimp only
  rw [hk]
  dsimp only
  rw [if_neg (by simp [hv])]

theorem configValidated_fail {img : List RawRec} {bad : List Nat} {s : State} {c : Commit} {r : Nat}
    (hg : gateOf s (c.handles.headD 0) false (fun f => carryOk f s) img bad = .fail r none) :
    s.configValidated c img bad = s.failCommit c r := by
  unfold State.configValidated
  rw [hg]
  rfl

theorem configValidated_pass {img : List RawRec} {bad : List Nat} {s : State} {c : Commit} {cfg : Cfg}
    (hg : gateOf s (c.handles.headD 0) false (fun f => carryOk f s) img bad = .pass cfg) :
    s.configValidated c img bad = if (s.loadCoeffs bad (recsOf img .coeffSet)).2 then
      (s.loadCoeffs bad (recsOf img .coeffSet)).1.onSup (fun p => { p with commit := some { c with validated := true }, image := some cfg })
    else (s.loadCoeffs bad (recsOf img .coeffSet)).1.failCommit c 0x03 := by
  unfold State.configValidated
  rw [hg]

theorem gate_start {f : State → Cfg → Bool} {s : State} (hf : f s.start = f s) {hd : Nat} {b : Bool} {img : List RawRec} {bad : List Nat} {v : Verdict}
    (h : gateOf s hd b (f s) img bad = v) : gateOf s.start hd b (f s.start) img bad = v := by
  rw [hf]
  exact (gateOf_congr (s := s.start) (t := s) rfl rfl ..).trans h

theorem coeffsWritten_frame {f : Tmf → Tmf} {g : Sup → Sup} {s : State}
    (h : f s.tmf = { s.tmf with coeffs := (f s.tmf).coeffs, restoring := (f s.tmf).restoring }) :
    (s.start.onTmf f).onSup g = { s with
      sup := ((s.start.onTmf f).onSup g).sup
      tmf := { s.tmf with coeffs := ((s.start.onTmf f).onSup g).tmf.coeffs, restoring := ((s.start.onTmf f).onSup g).tmf.restoring }
      out := [], cur := none } := by
  change ({ s with sup := g s.sup, tmf := f s.tmf, out := [], cur := none } : State) = { s with
    sup := g s.sup, tmf := { s.tmf with coeffs := (f s.tmf).coeffs, restoring := (f s.tmf).restoring }, out := [], cur := none }
  rw [← h]

/-! ### CONFIG_ABORT -/

theorem configAbort_of {q : Sqe} {s : State} {c : Commit} (h : s.sup.commit = some c) :
    configAbort q s = if c.abortable then (s.failCommit c 0x0D).done q stDONE 0 else s.done q stDONE_NOTE 1 := by
  unfold configAbort
  rw [h]

/-- The commit's completion goes before that of the command that aborts it. -/
theorem closeCommit_done {q : Sqe} {c : Commit} {s : State} (hq : OwnedAs q.fn q.sq (cidOf q) s) (hc : OwnedAs .pf0 c.sq c.cid s) (hk : c.kind ≠ .coeff) :
    ∃ a b, (((s.start.accept q).closeCommit c 0x0D).done q stDONE 0).hqe.ready = s.hqe.ready ++
      [⟨.pf0, c.sq, c.cid, stABORTED_RESET, 0x0D, a, none⟩, ⟨q.fn, q.sq, cidOf q, stDONE, 0, b, none⟩] := by
  have hsub : ((s.start.accept q).closeCommit c 0x0D).hqe.fwd.Sublist (s.start.accept q).hqe.fwd := by
    have hp := postCommit_hqe c (commitStatus 0x0D) (if c.kind = .coeff then 0 else 0x0D) ((s.start.accept q).dropCommit 0x0D)
    have hs := (complete_cmdStep .pf0 c.sq c.cid (commitStatus 0x0D) (if c.kind = .coeff then 0 else 0x0D) ((s.start.accept q).dropCommit 0x0D)).fwd
    rw [← hp] at hs
    have hm := (supEvent_moved 71 0x02 0x0D noSource (((s.start.accept q).dropCommit 0x0D).postCommit c (commitStatus 0x0D)
      (if c.kind = .coeff then 0 else 0x0D))).1
    rw [closeCommit_eq]
    exact hm ▸ hs
  obtain ⟨⟨a, hready⟩, -⟩ := closeCommit_completed (hc.accepted q) 0x0D
  rw [if_neg hk] at hready
  generalize (s.start.accept q).closeCommit c 0x0D = u at *
  have hown : OwnedAs q.fn q.sq (cidOf q) u := fun f hf his => (s.start.accept_fwd q hq).2.2 f (hsub.subset hf) his
  obtain ⟨⟨⟨b, hb⟩, -⟩, -⟩ := complete_kept (s1 := u) (st := stDONE) (r := 0) hown rfl
  refine ⟨a, b, ?_⟩
  have hd : (u.done q stDONE 0).hqe.ready = u.hqe.ready ++ [⟨q.fn, q.sq, cidOf q, stDONE, 0, b, none⟩] := hb
  rw [hd, hready]
  exact List.append_assoc ..

/-! ### The gate's claim -/

theorem configCommits : Claim.ConfigCommits := by
  refine ⟨?busy, ?noTile, ?begins, ?passes, ?fails, ?aborts⟩
  case busy =>
    intro q s ht hx
    refine ⟨fun h => answers_taken rfl h (by simp) ?_, fun img bad h => answers_taken rfl h (by simp) ?_⟩
    · have he : configCommit q (s.start.accept q) = (s.start.accept q).done q stBUSY_RETRY 0 :=
        (if_neg (by simpa [Option.isSome_iff_ne_none] using ht)).trans (if_pos hx)
      rw [he]
      exact done_onlyCompletes h.2.1
    · have he : bisqueStore q img bad (s.start.accept q) = (s.start.accept q).done q stBUSY_RETRY 0 :=
        (if_neg (by simpa [Option.isSome_iff_ne_none] using ht)).trans (if_pos hx)
      rw [he]
      exact done_onlyCompletes h.2.1
  case noTile =>
    intro q s ht
    refine ⟨fun h => answers_taken rfl h (by simp) ?_, fun img bad h => answers_taken rfl h (by simp) ?_⟩
    · have he : configCommit q (s.start.accept q) = (s.start.accept q).done q stBAD_HANDLE 0 := if_pos (by simpa using ht)
      rw [he]
      exact done_onlyCompletes h.2.1
    · have he : bisqueStore q img bad (s.start.accept q) = (s.start.accept q).done q stBAD_HANDLE 0 := if_pos (by simpa using ht)
      rw [he]
      exact done_onlyCompletes h.2.1
  case begins =>
    intro q s h ht hx
    refine answers_taken rfl h (by simp) ?_
    rw [configCommit_begins (s := s.start.accept q) ht hx]
    obtain ⟨hrun, hrings⟩ := accept_running (t := (s.start.accept q).beginCommit _ _) h.2.1 rfl
    exact ⟨hrun, hrings, ⟨_, rfl, rfl, rfl, rfl, rfl, rfl⟩, rfl⟩
  case passes =>
    intro img bad s c cfg hc hk hv hg hlt
    have he : validationDone img bad s.start = _ := (validationDone_eq (s := s.start) hc hk hv).trans
      (configValidated_pass (gate_start (f := fun s f => carryOk f s) rfl hg))
    refine ⟨fun hgood => ⟨_, congrArg Host.Outcome.next he, ?_⟩, fun x hx ha hb => ⟨_, congrArg Host.Outcome.next he, ?_⟩⟩
    · rw [loadCoeffs_good (s := s.start) hgood, if_pos rfl]
      obtain ⟨hcoeffs, -⟩ := putCoeffs_coeffsOnly (recsOf img .coeffSet) s.tmf
      refine ⟨rfl, fun x hx hone => ?_, ?_⟩
      · have hlook {j : Nat} (hj : j = 0x40 + x.1 ∨ j = 0x240 + x.1) (ho : j ∉ s.tmf.oos) :
            look j (s.tmf.putCoeffs (recsOf img .coeffSet)).coeffs = some x.2 :=
          putCoeffs_look hj ho (hlt x hx) hlt (fun y hy hn => congrArg Prod.snd (hone y hy hn)) (.inl hx)
        have hfirst : 0x40 + x.1 ∉ s.tmf.oos := by
          have hu := (hgood x hx).1
          unfold Tmf.usable at hu
          simp only [Bool.and_eq_true, Bool.not_eq_true', List.contains_eq_mem, decide_eq_false_iff_not] at hu
          exact hu.1
        exact ⟨hlook (.inl rfl) hfirst, fun ho => hlook (.inr rfl) ho⟩
      · exact coeffsWritten_frame hcoeffs
    · rw [loadCoeffs_bad hx ha hb, if_neg (by decide)]
      have hcfg : (s.start.loadCoeffs bad (recsOf img .coeffSet)).1.cfg = s.cfg := loadCoeffs_part (π := .cfg) (by simp) ..
      obtain ⟨h1, h2, h3, h4, -, -, -, -, h5⟩ := failCommit_failed c 0x03 (s.start.loadCoeffs bad (recsOf img .coeffSet)).1
      exact ⟨h1, h2, h3, h4, h5.trans hcfg⟩
  case fails =>
    intro img bad s c r hc hk hv hg hown hh
    have he : validationDone img bad s.start = s.start.failCommit c r := (validationDone_eq (s := s.start) hc hk hv).trans
      (configValidated_fail (gate_start (f := fun s f => carryOk f s) rfl hg))
    have hkind : ¬ c.kind = .coeff := by rw [hk]; decide
    have hdone := closeCommit_completed (s := s.start) hown r
    rw [if_neg hkind] at hdone
    obtain ⟨⟨h1, h2, h3, h4, -, -, -, -, hcfg⟩, hst, -⟩ := closeCommit_failed c r s.start
    refine ⟨fun ho hs => ⟨_, congrArg Host.Outcome.next he, ?_⟩, fun ho hb hp => ⟨_, congrArg Host.Outcome.next he, ?_⟩⟩
    · rw [failCommit_closes (by rintro ⟨-, h | h⟩ <;> rw [ho] at h <;> exact absurd h (by decide))]
      obtain ⟨p, j, n, d, hsup, hpo⟩ := closeCommit_sup c r s.start
      have hposting := congrArg Sup.posting hsup
      have hev := congrArg Sup.lastEvent hsup
      have hframe := closeCommit_frame c r s.start
      have hrec := closeCommit_recent (s := s.start) hh c r
      generalize s.start.closeCommit c r = t at *
      exact ⟨hposting.trans (hpo hown), hdone, hst.trans hs, h1, h2, h3, h4, hrec, hev, hframe⟩
    · rw [failCommit_waits (s := s.start) hk ho hb hp]
      obtain ⟨hwait, hreason, hid, -⟩ := enterWaitHost_sup r (s.start.closeCommit c r)
      obtain ⟨-, -, k1, k2, k3, k4⟩ := enterWaitHost_kept r (s.start.closeCommit c r)
      obtain ⟨f1, -, f3, -, -, -, -, -, f5⟩ := enterWaitHost_failed (reason := r) (closeCommit_failed c r s.start).1
      have hready : ((s.start.closeCommit c r).enterWaitHost r).hqe.ready = (s.start.closeCommit c r).hqe.ready :=
        enterWaitHost_part (π := .ready) (by simp) ..
      have henergy (n : Nat) := enterWaitHost_energy r n (s.start.closeCommit c r)
      obtain ⟨⟨quiet, hq⟩, -⟩ := hdone
      have hs : SaggarKept s (s.start.closeCommit c r) := ⟨closeCommit_part (π := .sgm) (by simp) .., closeCommit_part (π := .bte) (by simp) ..,
        closeCommit_part (π := .mss) (by simp) .., closeCommit_part (π := .cell) (by simp) ..⟩
      obtain ⟨m1, m2, m3, m4⟩ := hs
      generalize (s.start.closeCommit c r).enterWaitHost r = t at *
      refine ⟨hwait, hreason, f1, f3, hid, f5, ⟨⟨.pf0, c.sq, c.cid, commitStatus r, r, quiet, none⟩, ?_, rfl, rfl, rfl, rfl, rfl⟩, henergy,
        k1.trans m1, k2.trans m2, k3.trans m3, k4.trans m4⟩
      rw [hready, hq]
      simp
  case aborts =>
    intro q s h
    refine ⟨fun hc hp => ?none, fun hc hp => ?posting, fun c hc hlate => ?late, fun c hc hk hw hown => ?bisque, fun c hc hv ho hst hk hown => ?config⟩
    case none =>
      refine answers_taken rfl h (by simp) ?_
      have he : configAbort q (s.start.accept q) = (s.start.accept q).done q stDONE_NOTE 2 := by
        unfold configAbort
        rw [show (s.start.accept q).sup = s.sup from rfl, hc, hp]
        rfl
      rw [he]
      exact done_onlyCompletes h.2.1
    case posting =>
      refine answers_taken rfl h (by simp) ?_
      have he : configAbort q (s.start.accept q) = (s.start.accept q).done q stDONE_NOTE 1 := by
        unfold configAbort
        rw [show (s.start.accept q).sup = s.sup from rfl, hc, hp]
        rfl
      rw [he]
      exact done_onlyCompletes h.2.1
    case late =>
      refine answers_taken rfl h (by simp) ?_
      have hb : c.abortable = false := by
        unfold Commit.abortable
        rcases hlate with hk | ⟨hk, hv⟩ | ⟨hk, hw⟩
        · rw [hk]
        · rw [hk, hv]
          rfl
        · rw [hk, hw]
          rfl
      rw [configAbort_of (s := s.start.accept q) hc, hb]
      exact done_onlyCompletes h.2.1
    case bisque =>
      refine answers_taken rfl h (by simp) ?_
      have hb : c.abortable = true := by
        unfold Commit.abortable
        rw [hk, hw]
        rfl
      have he : configAbort q (s.start.accept q) = ((s.start.accept q).closeCommit c 0x0D).done q stDONE 0 := by
        rw [configAbort_of (s := s.start.accept q) hc, hb, if_pos rfl, failCommit_closes (by rintro ⟨h, -⟩; rw [hk] at h; exact absurd h nofun)]
      rw [he]
      have hready := closeCommit_done h.2.1 hown (by rw [hk]; decide)
      obtain ⟨⟨f1, -, f3, -, f4, f5, f6, -, f8⟩, f9, -⟩ := closeCommit_failed c 0x0D (s.start.accept q)
      refine ⟨hready, ?_⟩
      rw [State.done_sup, State.done_cfg]
      exact ⟨f1, f4, f3, f5, f6, f9, f8⟩
    case config =>
      refine answers_taken rfl h (by simp) ?_
      have hb : c.abortable = true := by
        unfold Commit.abortable
        rw [hk, hv]
        rfl
      have he : configAbort q (s.start.accept q) = ((s.start.accept q).closeCommit c 0x0D).done q stDONE 0 := by
        rw [configAbort_of (s := s.start.accept q) hc, hb, if_pos rfl,
          failCommit_closes (by rintro ⟨-, h | h⟩ <;> rw [ho] at h <;> exact absurd h (by decide))]
      rw [he]
      have hready := closeCommit_done h.2.1 hown (by rw [hk]; decide)
      obtain ⟨⟨f1, -, f3, f4, -, -, -, -, f8⟩, f9, -⟩ := closeCommit_failed c 0x0D (s.start.accept q)
      have hspa : ((s.start.accept q).closeCommit c 0x0D).spa = s.spa := closeCommit_part (π := .spa) (by simp) ..
      refine ⟨hready, ?_⟩
      rw [State.done_sup, State.done_cfg, State.done_spa]
      exact ⟨f9.trans hst, f1, f3, f4, f8, hspa⟩

end Sys2Proof.Machine
end
section
/-! PROOFS. BISQUE_STORE and COEFF_STAGE (R58, R195) -/

namespace Sys2Proof.Machine

open Sys2Proof

/-- The slot of a bisque image has been read back. -/
def Sup.bisqueStored (slot id : Nat) (recs : List RawRec) (p : Sup) : Sup := { p with
  commit := none, commitOk := true, commitReason := 0, storing := none, bisqueValid := true, bisqueSlot := slot, bisqueId := id, bisqueImage := recs }

theorem slotWritten_good {s : State} {c : Commit} {slot id : Nat} {recs : List RawRec} (hc : s.sup.commit = some c)
    (hst : s.sup.storing = some (slot, id, recs)) :
    slotWritten true s = ((s.onSup (Sup.bisqueStored slot id recs)).postCommit c stDONE id).supEvent 71 0x03 id noSource := by
  unfold slotWritten
  rw [hc, hst]
  rfl

theorem slotWritten_bad {s : State} {c : Commit} {slot id : Nat} {recs : List RawRec} (hc : s.sup.commit = some c)
    (hst : s.sup.storing = some (slot, id, recs)) :
    slotWritten false s = s.took.failCommit c (2 + Config.freeChoice s.free 12 % 12) := by
  unfold slotWritten
  rw [hc, hst]
  rfl

/-- The Spire and the commands behind a good read-back. -/
theorem slotWritten_spec {s : State} {c : Commit} (slot id : Nat) (recs : List RawRec) (ho : OwnedAs .pf0 c.sq c.cid s) :
    CompletedAs .pf0 c.sq c.cid stDONE id s (((s.onSup (Sup.bisqueStored slot id recs)).postCommit c stDONE id).supEvent 71 0x03 id noSource) ∧
    (((s.onSup (Sup.bisqueStored slot id recs)).postCommit c stDONE id).supEvent 71 0x03 id noSource).sup =
      { s.sup.bisqueStored slot id recs with posting := some c, lastEvent := some (7, 255, 0x03, id % 256) } := by
  have hdone := postCommit_completed (s1 := s.onSup (Sup.bisqueStored slot id recs)) ho ⟨rfl, rfl⟩ stDONE id
  obtain ⟨p, hp, hpo⟩ := postCommit_sup c stDONE id (s.onSup (Sup.bisqueStored slot id recs))
  have hsup := supEvent_sup 71 0x03 id noSource ((s.onSup (Sup.bisqueStored slot id recs)).postCommit c stDONE id)
  refine ⟨completedAs_moved hdone (supEvent_moved ..), ?_⟩
  rw [hsup, hp, hpo ho]
  rfl

theorem slotWritten_frame (s : State) (c : Commit) (slot id : Nat) (recs : List RawRec) :
    ((s.onSup (Sup.bisqueStored slot id recs)).postCommit c stDONE id).supEvent 71 0x03 id noSource = { s with
      hqe := (((s.onSup (Sup.bisqueStored slot id recs)).postCommit c stDONE id).supEvent 71 0x03 id noSource).hqe
      sup := (((s.onSup (Sup.bisqueStored slot id recs)).postCommit c stDONE id).supEvent 71 0x03 id noSource).sup
      out := (((s.onSup (Sup.bisqueStored slot id recs)).postCommit c stDONE id).supEvent 71 0x03 id noSource).out
      cur := (((s.onSup (Sup.bisqueStored slot id recs)).postCommit c stDONE id).supEvent 71 0x03 id noSource).cur } :=
  eq_frameOf [.fwd, .ready, .rings, .faults, .sj, .sup, .out, .cur] fun π hp => by
    simp only [List.mem_cons, List.not_mem_nil, or_false, not_or] at hp
    exact (supEvent_part (by simp [hp]) ..).trans ((postCommit_part (by simp [hp]) ..).trans (onSup_kept (by simp [hp]) ..))

/-- The commit of a COEFF_STAGE. -/
def coeffCommit (q : Sqe) (s : State) : Commit := ⟨.coeff, q.sq, cidOf q, s.sup.st, (stageBands q).map Prod.snd, true, false⟩

theorem hostTile_of_closed {s : State} {h : Nat} (hc : (s.closedTile h).isSome = true) : (s.tmf.hostTile h).isSome = true := by
  unfold State.closedTile at hc
  cases hx : s.tmf.hostTile h with
  | none => rw [hx] at hc; exact absurd hc (by decide)
  | some x => rfl

/-- Sets that pass are staged. -/
theorem coeffStage_stages {q : Sqe} {bad : List Nat} {s : State}
    (ht : ∀ x ∈ stageBands q, (s.closedTile x.2).isSome = true ∧ handleIdx x.2 ∉ bad) (hg : (s.conf.group (sd q 1)).isSome = true)
    (hi : (s.lane (sd q 1)).st ≠ .idle) (hw : (s.lane (sd q 1)).swapPending = false) (hx : s.exclusive = false) :
    coeffStage q bad s = (s.beginCommit (coeffCommit q s) (stageBands q).length).onKce (fun k => { k with
      staged := some (sd q 1, (stageBands q).filterMap (fun x => (s.closedTile x.2).map (fun b => (x.1, b)))) }) := by
  have h1 : ¬ ((stageBands q).any (fun x => (s.tmf.hostTile x.2).isNone)) = true := by
    rw [List.any_eq_true]
    rintro ⟨x, hx, hn⟩
    have := hostTile_of_closed (ht x hx).1
    rw [Option.isNone_iff_eq_none.mp hn] at this
    exact absurd this (by decide)
  have h2 : ¬ ((s.conf.group (sd q 1)).isNone || (s.lane (sd q 1)).st = .idle) = true := by
    simp [Option.isSome_iff_ne_none.mp hg, hi]
  have h3 : ¬ ((stageBands q).any (fun x => (s.closedTile x.2).isNone)) = true := by
    rw [List.any_eq_true]
    rintro ⟨x, hx, hn⟩
    have := (ht x hx).1
    rw [Option.isNone_iff_eq_none.mp hn] at this
    exact absurd this (by decide)
  have h4 : (stageBands q).find? (fun x => bad.contains (handleIdx x.2)) = none := by
    rw [List.find?_eq_none]
    intro x hx
    simpa using (ht x hx).2
  unfold coeffStage
  dsimp only
  rw [if_neg h1, if_neg h2, if_neg h3, if_neg (by simp [hx, hw]), h4]
  rfl

/-- Settles O27: BISQUE_STORE with its validation, its slot write and its read-back, and COEFF_STAGE, each from how its commit begins
and ends. -/
theorem storedCommits : Obligations.StoredCommits := by
  refine ⟨?begins, ?validated, ?refused, ?written, ?staged⟩
  case begins =>
    intro q img bad s cfg h ht hx hg
    refine answers_taken rfl h (by simp) ?_
    rw [bisqueStore_begins (s := s.start.accept q) ht hx ((gateOf_congr (s := s.start.accept q) (t := s) rfl rfl ..).trans hg)]
    obtain ⟨hrun, hrings⟩ := accept_running (t := ((s.start.accept q).beginCommit _ _).onSup _) h.2.1 rfl
    exact ⟨hrun, hrings, ⟨_, rfl, rfl, rfl, rfl, rfl⟩, rfl⟩
  case validated =>
    intro img bad s c hc hk
    have he : validationDone img bad s.start = s.start.onSup (fun p => { p with commit := some { c with writing := true } }) := by
      unfold validationDone
      rw [show s.start.sup = s.sup from rfl, hc]
      dsimp only
      rw [hk]
    exact ⟨_, congrArg Host.Outcome.next he, rfl⟩
  case refused =>
    intro q img bad s r h ht hx hg
    have hfn : q.fn = .pf0 := fn_of_ledger h.1 (by decide)
    refine answers_taken rfl h (by simp) ?_
    rw [bisqueStore_refused (s := s.start.accept q) ht hx ((gateOf_congr (s := s.start.accept q) (t := s) rfl rfl ..).trans hg)]
    have hown : OwnedAs .pf0 (bisqueCommit q (s.start.accept q)).sq (bisqueCommit q (s.start.accept q)).cid ((s.start.accept q).beginCommit
        (bisqueCommit q (s.start.accept q)) (imageTiles (s.start.accept q) (sd q 5)).2) :=
      hfn ▸ (s.start.accept_fwd q h.2.1).2.2
    obtain ⟨⟨quiet, hready⟩, hfwd⟩ := closeCommit_completed hown r
    obtain ⟨⟨f1, f2, f3, -, -, f5, f6, -, f8⟩, f9, -⟩ := closeCommit_failed (bisqueCommit q (s.start.accept q)) r
      ((s.start.accept q).beginCommit (bisqueCommit q (s.start.accept q)) (imageTiles (s.start.accept q) (sd q 5)).2)
    generalize ((s.start.accept q).beginCommit (bisqueCommit q (s.start.accept q)) (imageTiles (s.start.accept q) (sd q 5)).2).closeCommit
      (bisqueCommit q (s.start.accept q)) r = t at *
    refine ⟨⟨⟨quiet, hready.trans ?_⟩, ?_⟩, f1, f2, f3, f5, f6, f9, f8⟩
    · rw [hfn]
      rfl
    · rw [hfn]
      exact hfwd.trans (hfn ▸ (s.start.accept_fwd q h.2.1).1)
  case written =>
    intro s c slot id recs hc hst hown
    refine ⟨⟨_, congrArg Host.Outcome.next (slotWritten_good (s := s.start) hc hst), ?_⟩,
      fun hk => ⟨_, congrArg Host.Outcome.next (slotWritten_bad (s := s.start) hc hst), ?_⟩⟩
    · obtain ⟨hdone, hsup⟩ := slotWritten_spec (s := s.start) slot id recs hown
      have hframe := slotWritten_frame s.start c slot id recs
      generalize ((s.start.onSup (Sup.bisqueStored slot id recs)).postCommit c stDONE id).supEvent 71 0x03 id noSource = t at *
      exact ⟨hdone, hsup, hframe⟩
    · rw [failCommit_closes (by rintro ⟨h, -⟩; rw [hk] at h; exact absurd h nofun)]
      obtain ⟨⟨f1, f2, -, -, f4, f5, f6, f7, f8⟩, -, f9⟩ := closeCommit_failed c (2 + Config.freeChoice s.start.free 12 % 12) s.start.took
      exact ⟨f1, f2, f4, f6, f7, f9, f5, f8⟩
  case staged =>
    intro q bad s h hp ht hg hi hw hx
    refine answers_taken rfl h (firstBad_eq_none.mp hp) ?_
    rw [coeffStage_stages (s := s.start.accept q) ht hg hi hw hx]
    obtain ⟨hrun, hrings⟩ := accept_running (t := ((s.start.accept q).beginCommit _ _).onKce _) h.2.1 rfl
    exact ⟨hrun, hrings, rfl, rfl, ⟨_, rfl, rfl, rfl, rfl⟩, rfl⟩

end Sys2Proof.Machine
end
section
/-! PROOFS. What an epoch boundary admits (R21, R66, R184, R195) -/

namespace Sys2Proof.Machine

open Sys2Proof

/-! ### What a boundary keeps of the Spire and of the host limit -/

/-- The Spire without its journals, its last event and the retire map in NVM. -/
def State.calm (s : State) : Sup := { s.sup.rest with retSlots := (none, none), retNext := none }

theorem calm_of_part {s t : State} (h : part .sup t = part .sup s) : t.calm = s.calm :=
  congrArg (fun p : Sup => ({ p with retSlots := (none, none), retNext := none } : Sup)) h

theorem saveMap_calm (s : State) : s.saveMap.calm = s.calm := by
  have h : s.saveMap.sup = if s.sup.holdupReady then s.sup.retPut s.tmf.retireMap else { s.sup with retNext := some s.tmf.retireMap } := rfl
  unfold State.calm
  rw [h]
  split <;> rfl

theorem retire_calm (c i src : Nat) (other : Bool) (s : State) : (s.retire c i src other).calm = s.calm := by
  have h0 : ((s.onTmf (Tmf.retireIdx c i)).saveMap).calm = s.calm := saveMap_calm _
  rw [← h0]
  unfold State.retire
  dsimp only
  generalize (s.onTmf (Tmf.retireIdx c i)).saveMap = u
  have h1 (a b d e f : Nat) (u : State) : (u.faultRec a b d e f).calm = u.calm := calm_of_part (faultRec_part (by simp) ..)
  have h2 (fn : Fn) (a b d e : Nat) (u : State) : (u.postEvent fn a b d e).calm = u.calm := calm_of_part (postEvent_part (by simp) ..)
  split <;> split <;> simp only [h1, h2]

theorem onSpa_calm (f : Spa → Spa) (s : State) : (s.onSpa f).calm = s.calm := rfl

theorem verifyLedger_calm (bad : List Nat) (t : Nat) (s : State) : (verifyLedger bad t s).calm = s.calm := by
  have hlost : (s.ledgerLost t).calm = s.calm := by
    unfold State.ledgerLost
    rw [onSpa_calm]
    exact foldl_kept (φ := State.calm) (fun u i => retire_calm ..) _ s
  have hcopy : (s.retireCopy consSpa t noSource).calm = s.calm := retire_calm ..
  unfold verifyLedger
  split
  · rfl
  · split
    · exact hlost
    · split
      · rw [onSpa_calm]
        exact hcopy
      · rfl

theorem sendCross_calm (m : CrossMsg) (s : State) : (s.sendCross m).calm = s.calm := calm_of_part (sendCross_part (by simp) ..)

theorem spaBoundary_calm (bad : List Nat) (s : State) : (spaBoundary bad s).calm = s.calm := by
  have hopens (c : Bool) (u : State) : (if c then sendOpens u else u).calm = u.calm := by
    split
    · exact calm_of_part (sendOpens_part (by simp) u)
    · rfl
  have hdue (u : State) : (if u.spa.resyncDue then (u.sendCross (.resync 0)).onSpa (fun p => { p with resyncDue := false }) else u).calm = u.calm := by
    split
    · rw [onSpa_calm, sendCross_calm]
    · rfl
  rw [spaBoundary_eq, onSpa_calm]
  unfold boundaryWork
  dsimp only
  rw [hopens, onSpa_calm, foldl_kept (φ := State.calm) (fun u t => verifyLedger_calm bad t u), hdue, onSpa_calm]

/-- The limit of the host's tiles in force. -/
def State.limit (s : State) : Nat := s.tmf.hostLimit

theorem limit_of_part {s t : State} (h : part .tmf t = part .tmf s) : t.limit = s.limit := congrArg Tmf.hostLimit h

theorem foldl_limit {α : Type} {f : Tmf → α → Tmf} (h : ∀ t x, (f t x).hostLimit = t.hostLimit) (l : List α) (t : Tmf) :
    (l.foldl f t).hostLimit = t.hostLimit := by
  induction l generalizing t with
  | nil => rfl
  | cons x l ih => exact (ih _).trans (h t x)

theorem settle_limit (a b : Nat) (t : Tmf) : (t.settle a b).hostLimit = t.hostLimit := by rw [(settle_coeffsOnly a b t).1]

theorem retireIdx_limit (c i : Nat) (t : Tmf) : (t.retireIdx c i).hostLimit = t.hostLimit := by
  unfold Tmf.retireIdx
  dsimp only
  split
  · split <;> rfl
  · rfl

theorem retire_limit (c i src : Nat) (other : Bool) (s : State) : (s.retire c i src other).limit = s.limit := by
  have h0 : ((s.onTmf (Tmf.retireIdx c i)).saveMap).limit = s.limit := retireIdx_limit c i s.tmf
  rw [← h0]
  unfold State.retire
  dsimp only
  generalize (s.onTmf (Tmf.retireIdx c i)).saveMap = u
  have h1 (a b d e f : Nat) (u : State) : (u.faultRec a b d e f).limit = u.limit := limit_of_part (faultRec_part (by simp) ..)
  have h2 (fn : Fn) (a b d e : Nat) (u : State) : (u.postEvent fn a b d e).limit = u.limit := limit_of_part (postEvent_part (by simp) ..)
  split <;> split <;> simp only [h1, h2]

theorem onSpa_limit (f : Spa → Spa) (s : State) : (s.onSpa f).limit = s.limit := rfl

theorem verifyLedger_limit (bad : List Nat) (t : Nat) (s : State) : (verifyLedger bad t s).limit = s.limit := by
  have hlost : (s.ledgerLost t).limit = s.limit := by
    unfold State.ledgerLost
    rw [onSpa_limit]
    exact foldl_kept (φ := State.limit) (fun u i => retire_limit ..) _ s
  have hcopy : (s.retireCopy consSpa t noSource).limit = s.limit := retire_limit ..
  unfold verifyLedger
  split
  · rfl
  · split
    · exact hlost
    · split
      · rw [onSpa_limit]
        exact hcopy
      · rfl

theorem spaBoundary_limit (bad : List Nat) (s : State) : (spaBoundary bad s).limit = s.limit := by
  have hcross (m : CrossMsg) (u : State) : (u.sendCross m).limit = u.limit := limit_of_part (sendCross_part (by simp) ..)
  have hopens (c : Bool) (u : State) : (if c then sendOpens u else u).limit = u.limit := by
    split
    · exact limit_of_part (sendOpens_part (by simp) u)
    · rfl
  have hdue (u : State) : (if u.spa.resyncDue then (u.sendCross (.resync 0)).onSpa (fun p => { p with resyncDue := false }) else u).limit = u.limit := by
    split
    · rw [onSpa_limit, hcross]
    · rfl
  rw [spaBoundary_eq, onSpa_limit]
  unfold boundaryWork
  dsimp only
  rw [hopens, onSpa_limit, foldl_kept (φ := State.limit) (fun u t => verifyLedger_limit bad t u), hdue, onSpa_limit]

/-! ### A configuration coming into force keeps the host limit -/

theorem complete_limit (fn : Fn) (sq cid st r : Nat) (s : State) : (s.complete fn sq cid st r).limit = s.limit :=
  congrArg Tmf.hostLimit (State.complete_tmf ..)

theorem spaEnds_limit (i : Nat) (s : State) : (s.spaEnds i).limit = s.limit := by
  have hcross (m : CrossMsg) (u : State) : (u.sendCross m).limit = u.limit := limit_of_part (sendCross_part (by simp) ..)
  have hwrite (e : Entry) (u : State) : (u.writeEntry i e).limit = u.limit := settle_limit _ _ u.tmf
  unfold State.spaEnds
  split
  · rfl
  · dsimp only
    rw [foldl_kept (φ := State.limit) (fun t w => complete_limit ..), foldl_kept (φ := State.limit) (fun t w => complete_limit ..), onSpa_limit, hwrite]
    split
    · exact hcross ..
    · rfl

theorem admitSpa_limit (new : Cfg) (entry leaving : Bool) (keep : List (Nat × Entry)) (s : State) : (s.admitSpa new entry leaving keep).limit = s.limit := by
  have hsettled (u : State) : (u.onTmf (fun t => (List.range 32).foldl (fun t i => t.settle i (0x20 + i)) t)).limit = u.limit :=
    foldl_limit (fun t i => settle_limit ..) _ u.tmf
  unfold State.admitSpa
  dsimp only
  rw [onSpa_limit, hsettled]
  exact foldl_kept (φ := State.limit) (fun t i => spaEnds_limit i t) _ s

theorem inForce_limit (new : Cfg) (entry leaving : Bool) (s : State) : (s.inForce new entry leaving).limit = s.limit := by
  have hset (u : State) (st : DevState) : (u.setState st 0).limit = u.limit := limit_of_part (setState_part (by simp) ..)
  have hcfg (u : State) (f : Sup → Sup) : (({ u with cfg := some new } : State).onSup f).limit = u.limit := rfl
  unfold State.inForce
  dsimp only
  rw [hset, hcfg]
  exact admitSpa_limit ..

theorem closePort_limit (n : Nat) (s : State) : (s.closePort n).limit = s.limit := by
  have hfree (l : List Nat) (u : State) : (u.freeTiles l).limit = u.limit := foldl_limit (f := fun t i => t.bump i) (fun t i => rfl) l u.tmf
  unfold State.closePort
  dsimp only
  rw [foldl_kept (φ := State.limit) (fun t w => complete_limit ..), foldl_kept (φ := State.limit) (fun t w => complete_limit ..), hfree]
  rfl

theorem admitPorts_limit (old new : Cfg) (entry : Bool) (s : State) : (s.admitPorts old new entry).limit = s.limit := by
  have heval (u : State) : u.evalPorts.limit = u.limit := limit_of_part (evalPorts_part (by simp) u)
  have hvpc (f : Vpc → Vpc) (u : State) : (u.onVpc f).limit = u.limit := rfl
  unfold State.admitPorts
  rw [heval, hvpc]
  unfold State.admitPilots
  refine foldl_kept (φ := State.limit) (fun t n => ?_) _ s
  split
  · split
    · rfl
    · exact closePort_limit ..
  · split <;> rfl

theorem putInForce_limit (new : Cfg) (leaving : Bool) (s : State) : (s.putInForce new false leaving).limit = s.limit := by
  have h := inForce_limit new false leaving s
  unfold State.inForce at h
  dsimp only at h
  have hgroups (u : State) (old : Cfg) : (u.admitGroups old new false leaving).limit = u.limit := limit_of_part (by simp)
  have hsync (u : State) (old : Cfg) : (u.admitSync old new).limit = u.limit := limit_of_part (by simp)
  have hafter (u : State) (old : Cfg) : (u.tcmHoldsBegin.admitAqaux old new).limit = u.limit := limit_of_part (by simp)
  have hchans (u : State) (old : Cfg) : (u.admitChans old new).tcmHolds.limit = u.limit := limit_of_part (by simp)
  have hstrings (u : State) (old : Cfg) (b : Bool) : (u.admitStrings old new b).limit = u.limit := limit_of_part (by simp)
  have hbelfry (u : State) (a b : Option BelfryRec) : (u.admitBelfry a b).limit = u.limit := limit_of_part (by simp)
  have hquants (u : State) (a b : List QuantRec) : (u.admitQuants a b).limit = u.limit := limit_of_part (by simp)
  unfold State.putInForce
  dsimp only [Bool.false_eq_true, if_false]
  simp only [hquants, hbelfry, hstrings, hchans, hafter, admitPorts_limit, hsync, hgroups, Bool.false_eq_true, if_false]
  exact h

/-! ### The phases of a boundary -/

/-- The state as an admission finds it. -/
def State.beforeAdmission (s : State) : State := s.startQuants.endAdmission

/-- The boundary behind the admission. -/
def State.behindAdmission (bad : List Nat) (s : State) : State := spaBoundary bad ((s.groupVolts.deliverCaps).deliverLimits)

theorem epochBoundary_admits {bad : List Nat} {s : State} (hsite : s.siteUp = true) :
    epochBoundary bad s = s.beforeAdmission.admitCommit.admitStaged.behindAdmission bad :=
  if_neg (by simp [hsite])

theorem behindAdmission_part {π : Part} (hp : π ∉ [Part.rings, .tmf, .faults, .sup, .lnk, .spa, .out]) (bad : List Nat) (s : State) :
    part π (s.behindAdmission bad) = part π s := by
  simp only [List.mem_cons, List.not_mem_nil, or_false, not_or] at hp
  unfold State.behindAdmission
  simp [hp]

theorem behindAdmission_calm (bad : List Nat) (s : State) : (s.behindAdmission bad).calm = s.calm := by
  unfold State.behindAdmission
  rw [spaBoundary_calm]
  exact calm_of_part (by simp)

theorem behindAdmission_limit (bad : List Nat) (s : State) : (s.behindAdmission bad).limit = s.limit := by
  unfold State.behindAdmission
  rw [spaBoundary_limit]
  exact limit_of_part (by simp)

theorem beforeAdmission_part {π : Part} (hp : π ∉ [Part.rings, .faults, .spa, .psc, .vpc, .evr, .out]) (s : State) :
    part π s.beforeAdmission = part π s := by
  simp only [List.mem_cons, List.not_mem_nil, or_false, not_or] at hp
  unfold State.beforeAdmission
  simp [hp]

theorem admitCommit_none {s : State} (h : s.sup.image = none) : s.admitCommit = s := by
  unfold State.admitCommit
  rw [h]

theorem admitStaged_none {s : State} (h : s.kce.staged = none) : s.admitStaged = s := by
  unfold State.admitStaged
  rw [h]

theorem admitStaged_idle {s : State} (h : s.sup.commit = none) : s.admitStaged = s := by
  unfold State.admitStaged
  rw [h]
  split
  · rename_i he
    exact absurd he (by simp)
  · rfl

/-! ### A commit admitted (R66) -/

/-- The commit is over, and its completion waits. -/
def State.admitted (c : Commit) (id : Nat) (s : State) : State :=
  (((s.onSup (fun p => { p with commit := none, commitOk := true, commitReason := 0, image := none })).postCommit c stDONE 0).supEvent
    71 0x01 id noSource).onTmf (fun t => { t with hostLimit := t.hostLimitReg })

theorem admitCommit_eq {s : State} {c : Commit} {new : Cfg} (hi : s.sup.image = some new) (hc : s.sup.commit = some c) (hst : s.sup.st ≠ .service) :
    s.admitCommit = (s.admitted c new.id).putInForce new false true := by
  have hcarry : carryOk new s = true := by
    unfold carryOk carriedOver
    rw [if_pos hst]
    rfl
  have hleaving : decide (s.sup.st ≠ .service) = true := decide_eq_true hst
  unfold State.admitCommit
  rw [hi, hc]
  dsimp only
  rw [if_neg (by simp [hcarry]), hleaving]
  rfl

theorem admitted_sup (c : Commit) (id : Nat) (s : State) : ∃ p, (s.admitted c id).sup = { s.sup with
    commit := none, commitOk := true, commitReason := 0, image := none, posting := p, lastEvent := some (7, 255, 0x01, id % 256) } := by
  obtain ⟨p, hp, -⟩ := postCommit_sup c stDONE 0 (s.onSup (fun p => { p with commit := none, commitOk := true, commitReason := 0, image := none }))
  have he := supEvent_sup 71 0x01 id noSource
    ((s.onSup (fun p => { p with commit := none, commitOk := true, commitReason := 0, image := none })).postCommit c stDONE 0)
  refine ⟨p, ?_⟩
  change (((s.onSup _).postCommit c stDONE 0).supEvent 71 0x01 id noSource).sup = _
  rw [he, hp]
  rfl

theorem admitted_completed {c : Commit} {s : State} (h : OwnedAs .pf0 c.sq c.cid s) (id : Nat) :
    CompletedAs .pf0 c.sq c.cid stDONE 0 s (s.admitted c id) := by
  have hp := postCommit_completed (s1 := s.onSup (fun p => { p with commit := none, commitOk := true, commitReason := 0, image := none }))
    h ⟨rfl, rfl⟩ stDONE 0
  exact completedAs_moved (completedAs_moved hp (supEvent_moved 71 0x01 id noSource _)) ⟨rfl, rfl⟩

theorem admitted_limit (c : Commit) (id : Nat) (s : State) : (s.admitted c id).limit = s.tmf.hostLimitReg := by
  have h : part .tmf (((s.onSup (fun p => { p with commit := none, commitOk := true, commitReason := 0, image := none })).postCommit c stDONE 0).supEvent
      71 0x01 id noSource) = part .tmf s :=
    (supEvent_part (by simp) ..).trans ((postCommit_part (by simp) ..).trans rfl)
  exact congrArg Tmf.hostLimitReg h

theorem posted_of {fn : Fn} {sq cid st r : Nat} {s t u : State} (hfn : fn = .pf0) (h : CompletedAs fn sq cid st r s t) (hm : t.hqe.ready <+: u.hqe.ready) :
    Posted sq cid st r u := by
  obtain ⟨⟨quiet, hready⟩, -⟩ := h
  refine ⟨⟨fn, sq, cid, st, r, quiet, none⟩, hm.subset ?_, hfn, rfl, rfl, rfl, rfl⟩
  rw [hready]
  simp

/-- What an admission at a boundary leaves. -/
theorem admitCommit_spec {s : State} {c : Commit} {new : Cfg} (hi : s.sup.image = some new) (hc : s.sup.commit = some c) (hst : s.sup.st ≠ .service)
    (ho : OwnedAs .pf0 c.sq c.cid s) : s.admitCommit.cfg = some new ∧ s.admitCommit.sup.st = .service ∧ s.admitCommit.sup.cls = new.cls ∧
    s.admitCommit.sup.configId = new.id ∧ s.admitCommit.sup.commit = none ∧ s.admitCommit.sup.commitOk = true ∧ s.admitCommit.sup.image = none ∧
    s.admitCommit.limit = s.tmf.hostLimitReg ∧ Posted c.sq c.cid stDONE 0 s.admitCommit := by
  rw [admitCommit_eq hi hc hst]
  have hcfg : ((s.admitted c new.id).putInForce new false true).cfg = some new := (putInForce_kept (π := .cfg) (by simp) ..).trans (inForce_cfg ..)
  have hpart : part .sup ((s.admitted c new.id).putInForce new false true) = part .sup ((s.admitted c new.id).inForce new false true) :=
    putInForce_kept (by simp) ..
  have hlimit := (putInForce_limit new true (s.admitted c new.id)).trans (admitted_limit c new.id s)
  have hposted := posted_of rfl (admitted_completed ho new.id) (putInForce_cmdStep new false true (s.admitted c new.id)).ready
  obtain ⟨prev, left, ship, ev, hs⟩ := inForce_sup new false true (s.admitted c new.id)
  obtain ⟨p, hp⟩ := admitted_sup c new.id s
  generalize (s.admitted c new.id).putInForce new false true = t at *
  have hf {α : Type} (f : Sup → α) (hr : ∀ p : Sup, f p.rest = f p) : f t.sup = f ((s.admitted c new.id).inForce new false true).sup := sup_of_part hpart f hr
  rw [hs, hp] at hf
  have h1 := hf Sup.st fun _ => rfl
  have h2 := hf Sup.cls fun _ => rfl
  have h3 := hf Sup.configId fun _ => rfl
  have h4 := hf Sup.commit fun _ => rfl
  have h5 := hf Sup.commitOk fun _ => rfl
  have h6 := hf Sup.image fun _ => rfl
  exact ⟨hcfg, h1, h2, h3, h4, h5, h6, hlimit, hposted⟩

/-! ### Staged sets admitted (R184, R195) -/

/-- The configuration and the lane take the staged sets. -/
def State.takeSets (g : Nat) (l : List (Nat × List Byte)) (s : State) : State :=
  l.foldl (fun s x => s.onTmf (Tmf.putCoeff (8 * g + x.1) x.2)) (({ s with cfg := s.cfg.map (fun f =>
    { f with sets := l.foldl (fun a x => put (8 * g + x.1) (parseCoeff x.2) a) f.sets }) } : State).onLane g (fun k =>
      if k.st = .firing ∧ l.any (fun x => x.1 == (s.lane g).band) then
        { k with newSet := true, pend := none, defer := 0, deferred := false } else k))

/-- The staged sets are in force and the commit is over. -/
def State.setsAdmitted (s : State) : State :=
  (s.onKce (fun k => { k with staged := none })).onSup (fun p => { p with commit := none, commitOk := true, commitReason := 0 })

theorem admitStaged_eq {s : State} {c : Commit} {g : Nat} {l : List (Nat × List Byte)} (hs : s.kce.staged = some (g, l)) (hc : s.sup.commit = some c) :
    s.admitStaged = if ((s.takeSets g l).setsAdmitted.postCommit c stDONE (maskOf 8 (fun b => l.any (fun x => x.1 == b)))).receiving .pf0 then
      ((s.takeSets g l).setsAdmitted.postCommit c stDONE (maskOf 8 (fun b => l.any (fun x => x.1 == b)))).fireEvent .pf0 71
    else (s.takeSets g l).setsAdmitted.postCommit c stDONE (maskOf 8 (fun b => l.any (fun x => x.1 == b))) := by
  unfold State.admitStaged
  rw [hs, hc]
  rfl

theorem takeSets_part {π : Part} (hp : π ∉ [Part.tmf, .cfg, .kce, .banks]) (g : Nat) (l : List (Nat × List Byte)) (s : State) :
    part π (s.takeSets g l) = part π s := by
  simp only [List.mem_cons, List.not_mem_nil, or_false, not_or] at hp
  unfold State.takeSets
  refine (foldl_kept (φ := part π) (fun u x => onTmf_part (by simp [hp]) ..) l _).trans ?_
  refine (onLane_part (by simp [hp]) (.inl hp.2.2.2) g _).trans ?_
  cases π <;> simp at hp <;> rfl

theorem takeSets_cfg (g : Nat) (l : List (Nat × List Byte)) (s : State) : (s.takeSets g l).cfg = s.cfg.map (fun f =>
    { f with sets := l.foldl (fun a x => put (8 * g + x.1) (parseCoeff x.2) a) f.sets }) := by
  unfold State.takeSets
  exact foldl_kept (φ := part .cfg) (fun u x => onTmf_part (by simp) ..) l _

theorem admitStaged_spec {s : State} {c : Commit} {g : Nat} {l : List (Nat × List Byte)} (hs : s.kce.staged = some (g, l)) (hc : s.sup.commit = some c)
    (ho : OwnedAs .pf0 c.sq c.cid s) : s.admitStaged.cfg = s.cfg.map (fun f =>
      { f with sets := l.foldl (fun a x => put (8 * g + x.1) (parseCoeff x.2) a) f.sets }) ∧ s.admitStaged.kce.staged = none ∧
    s.admitStaged.sup.commit = none ∧ s.admitStaged.sup.commitOk = true ∧
    Posted c.sq c.cid stDONE (maskOf 8 (fun b => l.any (fun x => x.1 == b))) s.admitStaged := by
  have hfired {u : State} : part .cfg (if u.receiving .pf0 then u.fireEvent .pf0 71 else u) = part .cfg u ∧
      part .kce (if u.receiving .pf0 then u.fireEvent .pf0 71 else u) = part .kce u ∧
      part .sup (if u.receiving .pf0 then u.fireEvent .pf0 71 else u) = part .sup u ∧
      part .ready (if u.receiving .pf0 then u.fireEvent .pf0 71 else u) = part .ready u := by
    split
    · exact ⟨fireEvent_part (by simp) .., fireEvent_part (by simp) .., fireEvent_part (by simp) .., fireEvent_part (by simp) ..⟩
    · exact ⟨rfl, rfl, rfl, rfl⟩
  rw [admitStaged_eq hs hc]
  obtain ⟨h1, h2, h3, h4⟩ := hfired (u := (s.takeSets g l).setsAdmitted.postCommit c stDONE (maskOf 8 (fun b => l.any (fun x => x.1 == b))))
  have hmoved : NoCommandMoved s (s.takeSets g l).setsAdmitted :=
    ⟨takeSets_part (π := .fwd) (by simp) g l s, takeSets_part (π := .ready) (by simp) g l s⟩
  have hdone := postCommit_completed ho hmoved stDONE (maskOf 8 (fun b => l.any (fun x => x.1 == b)))
  have hcfg := takeSets_cfg g l s
  obtain ⟨p, hp, -⟩ := postCommit_sup c stDONE (maskOf 8 (fun b => l.any (fun x => x.1 == b))) (s.takeSets g l).setsAdmitted
  have k1 : part .cfg ((s.takeSets g l).setsAdmitted.postCommit c stDONE (maskOf 8 (fun b => l.any (fun x => x.1 == b)))) =
      (s.takeSets g l).cfg := (postCommit_part (by simp) ..).trans rfl
  have k2 : part .kce ((s.takeSets g l).setsAdmitted.postCommit c stDONE (maskOf 8 (fun b => l.any (fun x => x.1 == b)))) =
      { (s.takeSets g l).kce with staged := none } := (postCommit_part (by simp) ..).trans rfl
  have k3 := congrArg Sup.commit hp
  have k4 := congrArg Sup.commitOk hp
  generalize (s.takeSets g l).setsAdmitted.postCommit c stDONE (maskOf 8 (fun b => l.any (fun x => x.1 == b))) = u at *
  have m3 := (sup_of_part h3 Sup.commit fun _ => rfl).trans k3
  have m4 := (sup_of_part h3 Sup.commitOk fun _ => rfl).trans k4
  have m2 := congrArg Kce.staged (h2.trans k2)
  generalize (if u.receiving .pf0 then u.fireEvent .pf0 71 else u) = v at *
  refine ⟨h1.trans (k1.trans hcfg), m2, m3, m4, posted_of rfl hdone ?_⟩
  rw [show v.hqe.ready = u.hqe.ready from h4]

/-! ### The claim -/

theorem admission : Claim.Admission := by
  refine ⟨?commit, ?staged, ?idle⟩
  case commit =>
    intro bad s c new hsite hc hi hst ho
    have hsup : part .sup s.start.beforeAdmission = part .sup s := beforeAdmission_part (by simp) s.start
    have hfwd : s.start.beforeAdmission.hqe.fwd = s.hqe.fwd := beforeAdmission_part (π := .fwd) (by simp) s.start
    have htmf : s.start.beforeAdmission.tmf = s.tmf := beforeAdmission_part (π := .tmf) (by simp) s.start
    obtain ⟨h1, h2, h3, h4, h5, h6, h7, h8, h9⟩ := admitCommit_spec (s := s.start.beforeAdmission)
      ((sup_of_part hsup Sup.image fun _ => rfl).trans hi) ((sup_of_part hsup Sup.commit fun _ => rfl).trans hc)
      (by rw [sup_of_part hsup Sup.st fun _ => rfl]; exact hst) (by intro f hf; rw [hfwd] at hf; exact ho f hf)
    have he : epochBoundary bad s.start = s.start.beforeAdmission.admitCommit.behindAdmission bad := by
      rw [epochBoundary_admits (s := s.start) hsite, admitStaged_idle h5]
    refine ⟨_, congrArg Host.Outcome.next he, ?_⟩
    have hkept {π : Part} (h : π ∈ [Part.sgm, .bte, .mss, .cell]) : part π (s.start.beforeAdmission.admitCommit.behindAdmission bad) = part π s := by
      rw [← he]
      simp only [List.mem_cons, List.not_mem_nil, or_false] at h
      rcases h with rfl | rfl | rfl | rfl <;> exact epochBoundary_part (by simp) bad s.start
    have hcfg : (s.start.beforeAdmission.admitCommit.behindAdmission bad).cfg = _ := behindAdmission_part (π := .cfg) (by simp) ..
    have hready : (s.start.beforeAdmission.admitCommit.behindAdmission bad).hqe.ready = _ := behindAdmission_part (π := .ready) (by simp) ..
    have hcalm := behindAdmission_calm bad s.start.beforeAdmission.admitCommit
    have hlimit := behindAdmission_limit bad s.start.beforeAdmission.admitCommit
    rw [htmf] at h8
    have k1 := hkept (π := .sgm) (by simp)
    have k2 := hkept (π := .bte) (by simp)
    have k3 := hkept (π := .mss) (by simp)
    have k4 := hkept (π := .cell) (by simp)
    generalize s.start.beforeAdmission.admitCommit = u at *
    generalize u.behindAdmission bad = t at *
    have m2 := congrArg Sup.st hcalm
    have m3 := congrArg Sup.cls hcalm
    have m4 := congrArg Sup.configId hcalm
    have m5 := congrArg Sup.commit hcalm
    have m6 := congrArg Sup.commitOk hcalm
    have m7 := congrArg Sup.image hcalm
    obtain ⟨x, hx, hf⟩ := h9
    exact ⟨hcfg.trans h1, m2.trans h2, m3.trans h3, m4.trans h4, m5.trans h5, m6.trans h6, m7.trans h7, hlimit.trans h8,
      ⟨x, by rw [hready]; exact hx, hf⟩, k1, k2, k3, k4⟩
  case staged =>
    intro bad s c g l hsite hi hc hs ho
    have hsup : part .sup s.start.beforeAdmission = part .sup s := beforeAdmission_part (by simp) s.start
    have hfwd : s.start.beforeAdmission.hqe.fwd = s.hqe.fwd := beforeAdmission_part (π := .fwd) (by simp) s.start
    have hkce : s.start.beforeAdmission.kce = s.kce := beforeAdmission_part (π := .kce) (by simp) s.start
    have hcfg0 : s.start.beforeAdmission.cfg = s.cfg := beforeAdmission_part (π := .cfg) (by simp) s.start
    obtain ⟨h1, h2, h3, h4, h5⟩ := admitStaged_spec (s := s.start.beforeAdmission) (by rw [hkce]; exact hs)
      ((sup_of_part hsup Sup.commit fun _ => rfl).trans hc) (by intro f hf; rw [hfwd] at hf; exact ho f hf)
    have he : epochBoundary bad s.start = s.start.beforeAdmission.admitStaged.behindAdmission bad := by
      rw [epochBoundary_admits (s := s.start) hsite, admitCommit_none ((sup_of_part hsup Sup.image fun _ => rfl).trans hi)]
    refine ⟨_, congrArg Host.Outcome.next he, ?_⟩
    have hcfg : (s.start.beforeAdmission.admitStaged.behindAdmission bad).cfg = _ := behindAdmission_part (π := .cfg) (by simp) ..
    have hk : (s.start.beforeAdmission.admitStaged.behindAdmission bad).kce = _ := behindAdmission_part (π := .kce) (by simp) ..
    have hready : (s.start.beforeAdmission.admitStaged.behindAdmission bad).hqe.ready = _ := behindAdmission_part (π := .ready) (by simp) ..
    have hcalm := behindAdmission_calm bad s.start.beforeAdmission.admitStaged
    rw [hcfg0] at h1
    generalize s.start.beforeAdmission.admitStaged = u at *
    generalize u.behindAdmission bad = t at *
    have m1 := congrArg Sup.commit hcalm
    have m2 := congrArg Sup.commitOk hcalm
    obtain ⟨x, hx, hf⟩ := h5
    exact ⟨hcfg.trans h1, by rw [hk]; exact h2, m1.trans h3, m2.trans h4, ⟨x, by rw [hready]; exact hx, hf⟩⟩
  case idle =>
    intro bad s hsite hi hs
    have hsup : part .sup s.start.beforeAdmission = part .sup s := beforeAdmission_part (by simp) s.start
    have hkce : s.start.beforeAdmission.kce = s.kce := beforeAdmission_part (π := .kce) (by simp) s.start
    have hcfg0 : s.start.beforeAdmission.cfg = s.cfg := beforeAdmission_part (π := .cfg) (by simp) s.start
    have he : epochBoundary bad s.start = s.start.beforeAdmission.behindAdmission bad := by
      rw [epochBoundary_admits (s := s.start) hsite, admitCommit_none ((sup_of_part hsup Sup.image fun _ => rfl).trans hi),
        admitStaged_none (by rw [hkce]; exact hs)]
    refine ⟨_, congrArg Host.Outcome.next he, ?_⟩
    have hkept {π : Part} (h : π ∈ [Part.sgm, .bte, .mss, .cell]) : part π (s.start.beforeAdmission.behindAdmission bad) = part π s := by
      rw [← he]
      simp only [List.mem_cons, List.not_mem_nil, or_false] at h
      rcases h with rfl | rfl | rfl | rfl <;> exact epochBoundary_part (by simp) bad s.start
    have hcfg : (s.start.beforeAdmission.behindAdmission bad).cfg = _ := behindAdmission_part (π := .cfg) (by simp) ..
    have hbanks : part .banks (s.start.beforeAdmission.behindAdmission bad) = part .banks s :=
      (behindAdmission_part (by simp) ..).trans (beforeAdmission_part (by simp) s.start)
    have hcalm := (behindAdmission_calm bad s.start.beforeAdmission).trans (calm_of_part hsup)
    have k1 := hkept (π := .sgm) (by simp)
    have k2 := hkept (π := .bte) (by simp)
    have k3 := hkept (π := .mss) (by simp)
    have k4 := hkept (π := .cell) (by simp)
    have hrefs := fun g => lane_of_banks hbanks g
    generalize s.start.beforeAdmission.behindAdmission bad = t at *
    have m1 := congrArg Sup.commit hcalm
    have m2 := congrArg Sup.st hcalm
    exact ⟨hcfg.trans hcfg0, m1, m2, hrefs, k1, k2, k3, k4⟩

/-- Settles O56: the commit gate and the admission at an epoch boundary. -/
theorem configurationChange : Obligations.ConfigurationChange := ⟨configCommits, admission⟩

end Sys2Proof.Machine
end
section
/-! PROOFS. The cover, the ship authorisation, the reads of MSS, the optical head (R375, R377 to R385, R484, R485) -/

namespace Sys2Proof.Machine

open Sys2Proof

/-! ### The log of MSS and its events -/

/-- What the log and MSS's events change of MSS: its entries, their counter and its last event. -/
structure MssLogged (m m' : Mss) : Prop where
  eq : m' = { m with logSeq := m'.logSeq, prot := m'.prot, ring := m'.ring, lastEvent := m'.lastEvent }

theorem MssLogged.refl (m : Mss) : MssLogged m m := ⟨rfl⟩

theorem MssLogged.trans {m m' m'' : Mss} (h1 : MssLogged m m') (h2 : MssLogged m' m'') : MssLogged m m'' := by
  obtain ⟨e1⟩ := h1
  obtain ⟨e2⟩ := h2
  rw [e1] at e2
  exact ⟨e2⟩

theorem mssEvent_mss (sub arg : Nat) (s : State) : (s.mssEvent sub arg).mss = { s.mss with lastEvent := some (0, sub, arg % 256) } :=
  pf1Event_part (π := .mss) (by simp) ..

theorem mssEvent_logged (sub arg : Nat) (s : State) : MssLogged s.mss (s.mssEvent sub arg).mss := ⟨by rw [mssEvent_mss]⟩

theorem mssEvent_logSeq (sub arg : Nat) (s : State) : (s.mssEvent sub arg).mss.logSeq = s.mss.logSeq := by rw [mssEvent_mss]

theorem log_mss (kind source : Nat) (data : List Byte) (counter : Nat) (done : Bool) (s : State) :
    (s.log kind source data counter done).mss.logSeq = (s.mss.logSeq + 1) % 2 ^ 32 ∧ MssLogged s.mss (s.log kind source data counter done).mss := by
  have hadd (n : Nat) (p r : List (Nat × List Byte)) : (s.onMss (fun m => { m with logSeq := n, prot := p, ring := r })).mss.logSeq = n ∧
      MssLogged s.mss (s.onMss (fun m => { m with logSeq := n, prot := p, ring := r })).mss := ⟨rfl, ⟨rfl⟩⟩
  have hevent (n : Nat) (p : List (Nat × List Byte)) : ((s.onMss (fun m => { m with logSeq := n, prot := p })).mssEvent 0x07 100).mss.logSeq = n ∧
      MssLogged s.mss ((s.onMss (fun m => { m with logSeq := n, prot := p })).mssEvent 0x07 100).mss :=
    ⟨mssEvent_logSeq 0x07 100 (s.onMss (fun m => { m with logSeq := n, prot := p })),
      (hadd n p s.mss.ring).2.trans (mssEvent_logged 0x07 100 (s.onMss (fun m => { m with logSeq := n, prot := p })))⟩
  unfold State.log
  dsimp only
  generalize (s.mss.logSeq + 1) % 2 ^ 32 = n
  by_cases hk : kind < 0x10
  · rw [if_pos hk]
    split
    · split
      · exact hevent n _
      · exact hadd n _ s.mss.ring
    · split
      · exact hevent n _
      · exact hadd n _ s.mss.ring
  · rw [if_neg hk]
    exact hadd n s.mss.prot _

/-- Entries from 0x10 on go to the ring, and no event tells of them. -/
theorem log_ring {kind : Nat} (h : 0x10 ≤ kind) (source : Nat) (data : List Byte) (counter : Nat) (done : Bool) (s : State) :
    s.log kind source data counter done = { s with mss := { s.mss with
      logSeq := (s.log kind source data counter done).mss.logSeq, ring := (s.log kind source data counter done).mss.ring } } := by
  have hadd (n : Nat) (f : Mss → List (Nat × List Byte)) : s.onMss (fun m => { m with logSeq := n, ring := f m }) = { s with mss := { s.mss with
      logSeq := (s.onMss (fun m => { m with logSeq := n, ring := f m })).mss.logSeq
      ring := (s.onMss (fun m => { m with logSeq := n, ring := f m })).mss.ring } } := rfl
  unfold State.log
  dsimp only
  generalize (s.mss.logSeq + 1) % 2 ^ 32 = n
  rw [if_neg (by omega)]
  exact hadd n (fun m => (m.ring ++ _).drop (m.ring.length + 1 - 8192))

/-! ### The cover (R379) -/

theorem coverOutside_mss (s : State) : s.coverOutside.mss.sealCount = s.mss.sealCount + 1 ∧ s.coverOutside.mss.tamper = true ∧
    s.coverOutside.mss.openedOut = true ∧ s.coverOutside.mss.logSeq = (s.mss.logSeq + 1) % 2 ^ 32 ∧ s.coverOutside.mss.cover = s.mss.cover ∧
    s.coverOutside.mss.unseen = s.mss.unseen := by
  obtain ⟨h1, ⟨h2⟩⟩ := log_mss 0x09 3 (le 4 (s.mss.sealCount + 1) ++ le 4 0) 0 false
    (s.onMss (fun m => { m with sealCount := s.mss.sealCount + 1, tamper := true, openedOut := true }))
  have he := mssEvent_mss 0x02 (2 ^ 31 + (s.mss.sealCount + 1) % 2 ^ 31) ((s.onMss (fun m =>
    { m with sealCount := s.mss.sealCount + 1, tamper := true, openedOut := true })).log 0x09 3 (le 4 (s.mss.sealCount + 1) ++ le 4 0) 0 false)
  have hc : s.coverOutside.mss = _ := he
  rw [hc]
  refine ⟨?_, ?_, ?_, h1, ?_, ?_⟩
  all_goals
    rw [h2]
    rfl

theorem coverOutside_kept (s : State) : s.coverOutside.sgm = s.sgm ∧ s.coverOutside.bte = s.bte :=
  ⟨(mssEvent_part (π := .sgm) (by simp) ..).trans ((log_part (π := .sgm) (by simp) ..).trans rfl),
    (mssEvent_part (π := .bte) (by simp) ..).trans ((log_part (π := .bte) (by simp) ..).trans rfl)⟩

/-- The cover seen open. -/
def State.coverUp (s : State) : State := s.onMss (fun m => { m with cover := true, openedAt := s.bte.up, openedOut := false })

/-- The first opening inside a procedure. -/
def State.coverInside (s : State) : State :=
  ((s.coverUp.onMss (fun m => { m with sealCount := s.mss.sealCount + 1, coverSeen := true })).log 0x02 3
    (le 4 s.mss.sealCount ++ le 4 (s.mss.sealCount + 1)) 0 false).mssEvent 0x02 ((s.mss.sealCount + 1) % 2 ^ 31)

theorem coverOpen_eq {s : State} (hc : s.mss.cover = false) (hw : s.sgm.watches = true) : coverOpen s =
    if s.mss.sealSt = 1 ∧ s.mss.coverSeen = true then s.coverUp.mssEvent 0x02 (s.mss.sealCount % 2 ^ 31)
    else if s.mss.sealSt = 1 then s.coverInside else s.coverUp.coverOutside := by
  unfold coverOpen
  rw [if_neg (by simp [hc]), if_neg (by simp [hw])]
  rfl

theorem coverInside_spec (s : State) : s.coverInside.mss.sealCount = s.mss.sealCount + 1 ∧ s.coverInside.mss.tamper = s.mss.tamper ∧
    s.coverInside.mss.cover = true ∧ s.coverInside.mss.coverSeen = true ∧ s.coverInside.mss.openedOut = false ∧
    s.coverInside.mss.logSeq = (s.mss.logSeq + 1) % 2 ^ 32 ∧ s.coverInside.sgm = s.sgm ∧ s.coverInside.bte = s.bte := by
  obtain ⟨h1, ⟨h2⟩⟩ := log_mss 0x02 3 (le 4 s.mss.sealCount ++ le 4 (s.mss.sealCount + 1)) 0 false
    (s.coverUp.onMss (fun m => { m with sealCount := s.mss.sealCount + 1, coverSeen := true }))
  have hc : s.coverInside.mss = _ := mssEvent_mss 0x02 ((s.mss.sealCount + 1) % 2 ^ 31) _
  refine ⟨?_, ?_, ?_, ?_, ?_, ?_, (mssEvent_part (π := .sgm) (by simp) ..).trans ((log_part (π := .sgm) (by simp) ..).trans rfl),
    (mssEvent_part (π := .bte) (by simp) ..).trans ((log_part (π := .bte) (by simp) ..).trans rfl)⟩
  all_goals rw [hc]
  case refine_6 => exact h1
  all_goals
    rw [h2]
    rfl

theorem coverClose_eq {s : State} (hc : s.mss.cover = true) : coverClose s =
    if s.sgm.watches && s.mss.openedOut then
      (s.onMss (fun m => { m with cover := false, unseen := false, openedOut := false })).log 0x09 3
        (le 4 s.mss.sealCount ++ le 4 (min ((s.bte.up - s.mss.openedAt) / 1000) 0xFFFFFFFF)) 0 false
    else s.onMss (fun m => { m with cover := false, unseen := false, openedOut := false }) :=
  if_neg (by simp [hc])

/-! ### The seal count behind a power-on -/

/-- The seal count, tamper, and whether an opening has not been seen. -/
def State.sealed (s : State) : Nat × Bool × Bool := (s.mss.sealCount, s.mss.tamper, s.mss.unseen)

theorem sealed_of_part {s t : State} (h : part .mss t = part .mss s) : t.sealed = s.sealed :=
  congrArg (fun m : Mss => (m.sealCount, m.tamper, m.unseen)) h

theorem sealed_of_logged {s t : State} (h : MssLogged s.mss t.mss) : t.sealed = s.sealed := by
  unfold State.sealed
  rw [h.eq]

theorem log_sealed (kind source : Nat) (data : List Byte) (counter : Nat) (done : Bool) (s : State) :
    (s.log kind source data counter done).sealed = s.sealed := sealed_of_logged (log_mss ..).2

theorem mssEvent_sealed (sub arg : Nat) (s : State) : (s.mssEvent sub arg).sealed = s.sealed := sealed_of_logged (mssEvent_logged ..)

theorem abandonSeal_sealed (r : Nat) (s : State) : (s.abandonSeal r).sealed = s.sealed := by
  unfold State.abandonSeal
  split
  · rfl
  · rw [mssEvent_sealed, log_sealed]
    rfl

theorem resume_sealed (s : State) : s.resume.sealed = s.sealed := by
  unfold State.resume
  split
  · rfl
  · rfl

theorem verifyCal_sealed (a b : Bool) (s : State) : (s.verifyCal a b).sealed = s.sealed := by
  have hfail (id : Nat) : (s.calFail id).sealed = s.sealed := by
    unfold State.calFail
    rw [log_sealed]
    exact (sealed_of_part (refreshRate_part (by simp) _)).trans rfl
  unfold State.verifyCal
  split
  · rfl
  · dsimp only
    split
    · exact hfail _
    · rfl

/-- MSS at a power-on. -/
def Mss.powered (m : Mss) : Mss := { m with
  lastEvent := none, shipAuth := none, rollback := false, sealSt := 0, imageOld := none, waiting := [], openedAt := 0, unseen := false }

/-- A power-on leaves the seal to what the cover shows. -/
theorem saggarPowerOn_eq (k a b : Bool) (s : State) : ∃ u : State, u.sealed = s.sealed ∧ saggarPowerOn k a b s =
    ((if s.mss.unseen then (u.onMss Mss.powered).coverOutside else u.onMss Mss.powered).verifyCal a b).bteEvent 6 0x13 1 noSource := by
  have hs : ((s.abandonSeal 3).resume).sealed = s.sealed := (resume_sealed _).trans (abandonSeal_sealed 3 s)
  have hunseen : ((s.abandonSeal 3).resume).mss.unseen = s.mss.unseen := congrArg (fun x => x.2.2) hs
  unfold saggarPowerOn
  dsimp only
  rw [hunseen]
  refine ⟨_, ?_, rfl⟩
  refine Eq.trans (sealed_of_part ?_) hs
  have hrest (v : State) : part .mss (if ((s.abandonSeal 3).resume).sgm.sramGood k then v else v.restoreSave) = part .mss v := by
    split
    · rfl
    · exact restoreSave_part (by simp) v
  have hbte (f : Bte → Bte) (v : State) : part .mss (v.onBte f) = part .mss v := rfl
  have hsgm (f : Sgm → Sgm) (v : State) : part .mss (v.onSgm f) = part .mss v := rfl
  refine (openInterval_part (by simp) ..).trans ((refreshRate_part (by simp) ..).trans ((hbte ..).trans ((closeInterval_part (by simp) ..).trans
    ((hbte ..).trans ((hsgm ..).trans ((hrest _).trans ?_))))))
  exact (supplyMods_part (by simp) ..).trans (hsgm ..)

theorem saggarPowerOn_sealed (k a b : Bool) (s : State) : (saggarPowerOn k a b s).mss.unseen = false ∧
    (s.mss.unseen = true → (saggarPowerOn k a b s).mss.sealCount = s.mss.sealCount + 1 ∧ (saggarPowerOn k a b s).mss.tamper = true) ∧
    (s.mss.unseen = false → (saggarPowerOn k a b s).mss.sealCount = s.mss.sealCount ∧ (saggarPowerOn k a b s).mss.tamper = s.mss.tamper) := by
  obtain ⟨u, hu, he⟩ := saggarPowerOn_eq k a b s
  have hlast (v : State) : ((v.verifyCal a b).bteEvent 6 0x13 1 noSource).sealed = v.sealed :=
    (sealed_of_part (bteEvent_part (by simp) ..)).trans (verifyCal_sealed a b v)
  have hpowered : (u.onMss Mss.powered).sealed = (u.sealed.1, u.sealed.2.1, false) := rfl
  rw [hu] at hpowered
  obtain ⟨k1, k2, -, -, -, k6⟩ := coverOutside_mss (u.onMss Mss.powered)
  rw [he]
  generalize u.onMss Mss.powered = v at *
  have h := hlast (if s.mss.unseen then v.coverOutside else v)
  generalize ((if s.mss.unseen then v.coverOutside else v).verifyCal a b).bteEvent 6 0x13 1 noSource = t at *
  have p1 := congrArg (fun x => x.1) h
  have p2 := congrArg (fun x => x.2.1) h
  have p3 := congrArg (fun x => x.2.2) h
  have q1 := congrArg (fun x => x.1) hpowered
  have q2 := congrArg (fun x => x.2.1) hpowered
  have q3 := congrArg (fun x => x.2.2) hpowered
  cases hun : s.mss.unseen
  · rw [hun] at p1 p2 p3
    exact ⟨p3.trans q3, fun hf => absurd hf nofun, fun _ => ⟨p1.trans q1, p2.trans q2⟩⟩
  · rw [hun] at p1 p2 p3
    refine ⟨p3.trans (k6.trans q3), fun _ => ⟨p1.trans (k1.trans ?_), p2.trans k2⟩, fun hf => absurd hf nofun⟩
    exact congrArg (· + 1) q1

/-! ### The optical head (R484, R485) -/

/-- A read of the Saggar changes at most the number of its legal answers and the mark of a reading on battery. -/
def SgReadOnly (s t : State) : Prop := t = { s with sgm := { s.sgm with batRead := t.sgm.batRead }, mss := { s.mss with answerSeq := t.mss.answerSeq } }

theorem legal_readOnly (q : Sqe) (content : List Byte) (r : Nat) (s : State) : SgReadOnly s (legal q content r s).2 := rfl

theorem energyRead_readOnly (q : Sqe) (s : State) : SgReadOnly s (energyRead q s).2 := rfl

theorem opticalRow_readOnly {q : Sqe} {x : List (Bool × Nat × Nat) × (State → SgAns × State)} (h : opticalRow q = some x) (s : State) :
    SgReadOnly s (x.2 s).2 := by
  unfold opticalRow at h
  split at h
  case h_1 => rw [← Option.some.inj h]; exact energyRead_readOnly q s
  case h_2 => rw [← Option.some.inj h]; rfl
  case h_3 => rw [← Option.some.inj h]; exact legal_readOnly ..
  case h_4 => rw [← Option.some.inj h]; exact legal_readOnly ..
  case h_5 => rw [← Option.some.inj h]; exact legal_readOnly ..
  case h_6 => rw [← Option.some.inj h]; rfl
  case h_7 => rw [← Option.some.inj h]; exact legal_readOnly ..
  case h_8 => rw [← Option.some.inj h]; exact legal_readOnly ..
  case h_9 => rw [← Option.some.inj h]; exact legal_readOnly ..
  case h_10 => exact absurd h nofun

theorem opticalAnswer_readOnly (q : Sqe) (s : State) : SgReadOnly s (opticalAnswer q s).2 := by
  unfold opticalAnswer
  split
  next hrow hop =>
    split
    · rfl
    · split
      · rfl
      · exact opticalRow_readOnly hrow s
  · rfl

end Sys2Proof.Machine
end
section
/-! PROOFS. The MSS commands, the display and the optical head answer (R375 to R385, R484, R485) -/

namespace Sys2Proof.Machine

open Sys2Proof

/-- The header of a reading of a store. -/
def storeHead (s : State) (l store : List (Nat × List Byte)) (newest : Nat) : List Byte :=
  le 8 s.bte.lTime ++ le 4 (firstSeq l) ++ le 4 l.length ++ le 4 (firstSeq store) ++ le 4 newest ++ zeros 8

theorem storeHead_length (s : State) (l store : List (Nat × List Byte)) (newest : Nat) : (storeHead s l store newest).length = 32 := by
  simp [storeHead, zeros]

theorem u_storeHead {l : List (Nat × List Byte)} (h : l.length < 2 ^ 32) (s : State) (store : List (Nat × List Byte)) (newest : Nat) :
    u (storeHead s l store newest) 12 4 = l.length := by
  simp only [storeHead, List.append_assoc]
  simp (disch := decide) only [u_le_skip, u_le_zero, Nat.reduceSub]
  exact Nat.mod_eq_of_lt h

theorem storeRead_eq (q : Sqe) (first count newest : Nat) (store : List (Nat × List Byte)) (s : State) :
    storeRead q first count newest store s = legal q (storeHead s (fromSeq first count store) store newest ++ (fromSeq first count store).flatMap Prod.snd)
      (fromSeq first count store).length s := rfl

theorem fromSeq_length_le (first count : Nat) (store : List (Nat × List Byte)) : (fromSeq first count store).length ≤ count :=
  List.length_take_le ..

/-- A reading of a store is a legal answer. -/
theorem storeRead_legal {q : Sqe} {s : State} (h : OwnedAs q.fn q.sq (cidOf q) s) {count : Nat} (hc : count < 2 ^ 32) (first newest : Nat)
    (store : List (Nat × List Byte)) : ∃ head, head.length = 32 ∧ u head 12 4 = (fromSeq first count store).length ∧
      SgLegal q (fromSeq first count store).length (head ++ (fromSeq first count store).flatMap Prod.snd) s.sgm s
        ((storeRead q first count newest store (s.entered q)).2.sgAnswered q (storeRead q first count newest store (s.entered q)).1) :=
  ⟨_, storeHead_length (s.entered q) _ store newest, u_storeHead (Nat.lt_of_le_of_lt (fromSeq_length_le ..) hc) (s.entered q) store newest,
    legal_answers (g := id) h⟩

/-- A ship mode authorised under a counter. -/
def State.shipAuthorised (n : Nat) (s : State) : State :=
  { s with mss := { s.mss with shipAuth := some (s.bte.up + dayUs), ctrAuth := n } }

theorem shipAuthorise_eq {q : Sqe} {b : List Byte} {s : State} (h : sigOk 0xC4 q true b s = true) :
    shipAuthorise q b s = (.plain stDONE 0, (s.shipAuthorised (blockCounter b)).log 0x16 0
      (le 8 (if s.bte.off.isNone then timeUnknown else s.bte.lTime + dayUs)) (blockCounter b) false) := by
  unfold shipAuthorise
  rw [if_neg (by simp [h])]
  rfl

theorem shipAuthorised_logged (n : Nat) (data : List Byte) (s : State) : ∃ seq ring, (s.shipAuthorised n).log 0x16 0 data n false =
    { s with mss := { s.mss with shipAuth := some (s.bte.up + dayUs), ctrAuth := n, logSeq := seq, ring := ring } } := by
  have hl := log_ring (by decide : 0x10 ≤ 0x16) 0 data n false (s.shipAuthorised n)
  generalize (s.shipAuthorised n).log 0x16 0 data n false = t at hl
  exact ⟨t.mss.logSeq, t.mss.ring, hl⟩

theorem shipAuthorise_good {q : Sqe} {b : List Byte} {s : State} (h : sigOk 0xC4 q true b s = true) : ∃ seq ring,
    shipAuthorise q b s = (.plain stDONE 0, { s with mss := { s.mss with
      shipAuth := some (s.bte.up + dayUs), ctrAuth := blockCounter b, logSeq := seq, ring := ring } }) := by
  obtain ⟨seq, ring, hl⟩ := shipAuthorised_logged (blockCounter b) (le 8 (if s.bte.off.isNone then timeUnknown else s.bte.lTime + dayUs)) s
  exact ⟨seq, ring, (shipAuthorise_eq h).trans (congrArg (Prod.mk (SgAns.plain stDONE 0)) hl)⟩

theorem sound_cqe_length (a b : Nat) (l : List Byte) : 16 ≤ (le 4 a ++ le 4 b ++ zeros 8 ++ l).length := by
  simp [zeros]
  omega

/-- Settles O22: the cover and the power-on by what the log and its events leave, the commands by what a served command answers, the optical
head by what its reads may change. -/
theorem sealAndReads : Obligations.SealAndReads := by
  refine ⟨?cover, ?unwatched, ?power, ?close, ?ship, ?lapse, ?key, ?records, ?log, ?ident, ?waiting, ?off, ?line, ?unsound, ?optical⟩
  case cover =>
    intro s hc hw
    have he := coverOpen_eq (s := s.start) hc hw
    refine ⟨fun hst => ⟨_, congrArg Host.Outcome.next (he.trans ((if_neg (fun h => hst h.1)).trans (if_neg hst))), ?_⟩,
      fun hst hseen => ⟨_, congrArg Host.Outcome.next (he.trans ((if_neg (fun h => absurd (hseen.symm.trans h.2) (by decide))).trans (if_pos hst))), ?_⟩,
      fun hst hseen => ⟨_, congrArg Host.Outcome.next (he.trans (if_pos ⟨hst, hseen⟩)), ?_⟩⟩
    · obtain ⟨h1, h2, h3, h4, h5, -⟩ := coverOutside_mss s.start.coverUp
      obtain ⟨h6, h7⟩ := coverOutside_kept s.start.coverUp
      exact ⟨h1, h2, h5, h3, h4, h6, h7⟩
    · exact coverInside_spec s.start
    · have hm := mssEvent_mss 0x02 (s.start.mss.sealCount % 2 ^ 31) s.start.coverUp
      generalize s.start.coverUp.mssEvent 0x02 (s.start.mss.sealCount % 2 ^ 31) = t at *
      have h1 := congrArg Mss.sealCount hm
      have h2 := congrArg Mss.tamper hm
      have h3 := congrArg Mss.cover hm
      have h4 := congrArg Mss.logSeq hm
      exact ⟨h1, h2, h3, h4⟩
  case unwatched =>
    intro s hc hw
    refine ⟨_, congrArg Host.Outcome.next ((if_neg ?_).trans (if_pos ?_)), rfl⟩
    · rw [show s.start.mss = s.mss from rfl, hc]
      decide
    · rw [show s.start.sgm = s.sgm from rfl, hw]
      rfl
  case power =>
    intro k a b s
    obtain ⟨h1, h2, h3⟩ := saggarPowerOn_sealed k a b s.start
    exact ⟨fun hun => ⟨_, rfl, (h2 hun).1, (h2 hun).2, h1⟩, fun hun => ⟨_, rfl, h3 hun⟩⟩
  case close =>
    intro s hc
    refine ⟨_, congrArg Host.Outcome.next (coverClose_eq (s := s.start) hc), ?_⟩
    obtain ⟨hseq, ⟨hl⟩⟩ := log_mss 0x09 3 (le 4 s.start.mss.sealCount ++ le 4 (min ((s.start.bte.up - s.start.mss.openedAt) / 1000) 0xFFFFFFFF)) 0 false
      (s.start.onMss (fun m => { m with cover := false, unseen := false, openedOut := false }))
    have hsgm := log_part (π := .sgm) (by simp) 0x09 3 (le 4 s.start.mss.sealCount ++ le 4 (min ((s.start.bte.up - s.start.mss.openedAt) / 1000) 0xFFFFFFFF))
      0 false (s.start.onMss (fun m => { m with cover := false, unseen := false, openedOut := false }))
    by_cases hb : (s.start.sgm.watches && s.start.mss.openedOut) = true
    · rw [if_pos hb]
      obtain ⟨hb1, hb2⟩ : s.sgm.watches = true ∧ s.mss.openedOut = true := by simpa using hb
      refine ⟨by rw [hl]; rfl, fun _ _ => hseq, fun h => ?_, by rw [hl]; rfl, by rw [hl]; rfl, by rw [hl]; rfl, hsgm⟩
      rcases h with h | h
      · exact absurd (hb1.symm.trans h) (by decide)
      · exact absurd (hb2.symm.trans h) (by decide)
    · rw [if_neg hb]
      refine ⟨rfl, fun h1 h2 => absurd ?_ hb, fun _ => rfl, rfl, rfl, rfl, rfl⟩
      change (s.sgm.watches && s.mss.openedOut) = true
      rw [h1, h2]
      rfl
  case ship =>
    intro q b s h hb hlen
    have htake : b.take (sd q 4) = b := List.take_of_length_le (by omega)
    have he : exec (.shipAuthorise q (.data b)) s = .next (sgReach 0xC4 q b [(b.length == 96, 4, 0)] (shipAuthorise q b) s.start) := by
      change Host.Outcome.next (sgReach 0xC4 q (b.take (sd q 4)) [((b.take (sd q 4)).length == 96, 4, 0)] (shipAuthorise q (b.take (sd q 4))) s.start) = _
      rw [htake]
    refine ⟨answers_served he h (by simp [hb]) fun hsig => ?_, fun hsig => answers_served he h (by simp [hb]) ?_⟩
    · obtain ⟨seq, ring, hbody⟩ := shipAuthorise_good (q := q) (b := b) (s := s.entered q) hsig
      rw [hbody]
      exact ⟨answered_of h.1.2.1 rfl rfl, rfl, rfl, rfl⟩
    · have hbody : shipAuthorise q b (s.entered q) = (.plain stSIGNATURE_BAD 0, s.entered q) := by
        unfold shipAuthorise
        rw [if_pos (by simp [sigOk_entered, hsig])]
      rw [hbody]
      exact onlyAnswers h.1.2.1
  case lapse =>
    intro s
    exact ⟨_, rfl, rfl⟩
  case key =>
    intro q s h hlen
    exact answers_served rfl h (by simp [keyExportParams, hlen]) (onlyAnswers h.1.2.1)
  case records =>
    intro q s store l h h1 h64 hlen hstore hl
    have hk : bits (sd q 7) 1 0 = 1 ∨ bits (sd q 7) 1 0 = 2 := hstore.imp (fun h => h.1) (fun h => h.1)
    refine answers_served rfl h (by simp [recordReadParams, hlen, h1, h64, hk]) ?_
    have hread : recordRead q (s.entered q) = storeRead q (sd q 6) (bits (sd q 7) 15 8) (lastSeq store) store (s.entered q) := by
      unfold recordRead
      rcases hstore with ⟨hk, rfl⟩ | ⟨hk, rfl⟩
      · rw [if_pos hk]
        rfl
      · rw [if_neg (by rw [hk]; decide)]
        rfl
    rw [hread, hl]
    exact storeRead_legal h.1.2.1 (by omega) ..
  case log =>
    intro q s l h h1 h512 hlen hl
    refine answers_served rfl h (by simp [logReadParams, hlen, h1, h512]) ?_
    rw [hl]
    exact storeRead_legal h.1.2.1 (by omega) ..
  case ident =>
    intro q s h hlen
    exact answers_served rfl h (by simp [identReadParams, hlen]) (legal_answers (g := id) h.1.2.1)
  case waiting =>
    intro q b s hup hruns hrest
    exact ⟨fun h => answers_waits rfl h hup hruns hrest, fun h => answers_waits rfl h hup hruns hrest, fun h => answers_waits rfl h hup hruns hrest,
      fun h => answers_waits rfl h hup hruns hrest, fun h => answers_waits rfl h hup hruns hrest⟩
  case off =>
    intro frame s hb
    refine ⟨⟨_, congrArg Host.Outcome.next (if_pos ?_), rfl⟩, ⟨_, congrArg Host.Outcome.next (if_pos ?_), rfl⟩⟩
    · rw [show s.start.bteRuns = s.bteRuns from rfl, hb]
      rfl
    · rw [show s.start.bteRuns = s.bteRuns from rfl, hb]
      rfl
  case line =>
    intro s hb
    refine ⟨_, congrArg Host.Outcome.next (if_neg ?_), rfl, rfl, ?_⟩
    · rw [show s.start.bteRuns = s.bteRuns from rfl, hb]
      decide
    · refine Nat.mod_lt _ ?_
      simp [State.displayRegs]
  case unsound =>
    intro frame s hbad
    refine ⟨_, congrArg Host.Outcome.next (if_pos ?_), rfl⟩
    rcases hbad with h | h | h <;> simp [h]
  case optical =>
    intro frame s hb hlen hhead hcrc
    have hgo : ¬ (!s.start.bteRuns || frame.length != 70 || u frame 0 4 != 64 || frame.drop 68 != be 2 (crc16 (frame.take 68))) = true := by
      rw [show s.start.bteRuns = s.bteRuns from rfl, hb, hlen, hhead, hcrc]
      simp
    refine ⟨_, congrArg Host.Outcome.next (if_neg hgo), ?_⟩
    generalize (⟨.pf1, 0, wordsOf 16 ((frame.take 68).drop 4)⟩ : Sqe) = q
    have hread := opticalAnswer_readOnly q s.start
    generalize opticalAnswer q s.start = a at *
    unfold SgReadOnly at hread
    have hout : a.2.out = [] := by rw [hread]; rfl
    refine ⟨⟨_, ?_, sound_cqe_length (cidOf q + a.1.status * 65536) a.1.result (a.1.buf.take (sd q 4))⟩, ?_, ?_, ?_, ?_⟩
    · exact congrArg (· ++ [Out.uart 2 (opticalFrame (le 4 (cidOf q + a.1.status * 65536) ++ le 4 a.1.result ++ zeros 8 ++ a.1.buf.take (sd q 4)))]) hout
    · change a.2.bte = s.bte
      rw [hread]
      rfl
    · change a.2.sgm = { s.sgm with batRead := a.2.sgm.batRead }
      rw [hread]
      rfl
    · change a.2.mss = { s.mss with answerSeq := a.2.mss.answerSeq }
      rw [hread]
      rfl
    · change a.2.hqe = s.hqe
      rw [hread]
      rfl

end Sys2Proof.Machine
end
section
/-! PROOFS. The seal procedure (R376, R380 to R382, Table 14-4) -/

namespace Sys2Proof.Machine

open Sys2Proof

/-! ### A protected entry -/

/-- The bytes of a log entry. -/
def logBytes (kind source : Nat) (data : List Byte) (counter : Nat) (done : Bool) (s : State) : List Byte :=
  le 4 ((s.mss.logSeq + 1) % 2 ^ 32) ++ le 2 kind ++ le 1 (b2n s.bte.off.isNone + 2 * b2n done) ++ le 1 source ++ le 8 s.bte.lTime ++
    le 4 s.mss.sealCount ++ le 4 s.mss.swShort ++ padTo 32 data ++ le 4 counter ++ zeros 4

theorem u_logBytes {data : List Byte} (hd : data.length = 32) (kind source counter : Nat) (done : Bool) (s : State) :
    u (logBytes kind source data counter done s) 4 2 = kind % 2 ^ 16 ∧ u (logBytes kind source data counter done s) 56 4 = counter % 2 ^ 32 := by
  have hpad : padTo 32 data = data := by
    unfold padTo
    rw [hd, List.take_of_length_le (Nat.le_of_eq hd)]
    exact List.append_nil data
  refine ⟨?_, ?_⟩
  · simp only [logBytes, List.append_assoc]
    simp (disch := decide) only [u_le_skip, u_le_zero, Nat.reduceSub]
    rfl
  · simp only [logBytes, List.append_assoc, hpad]
    simp (disch := decide) only [u_le_skip, Nat.reduceSub]
    rw [u_append_right (by rw [hd]), hd]
    simp (disch := decide) only [u_le_zero, Nat.reduceSub]
    rfl

theorem log_prot {kind : Nat} {s : State} (hk : kind < 0x10) (hp : s.mss.prot.length < 1024) (source : Nat) (data : List Byte) (counter : Nat)
    (done : Bool) : (s.log kind source data counter done).mss.prot =
      s.mss.prot ++ [((s.mss.logSeq + 1) % 2 ^ 32, logBytes kind source data counter done s)] := by
  have hadd (n : Nat) (p : List (Nat × List Byte)) : (s.onMss (fun m => { m with logSeq := n, prot := p })).mss.prot = p := rfl
  have hevent (n : Nat) (p : List (Nat × List Byte)) : ((s.onMss (fun m => { m with logSeq := n, prot := p })).mssEvent 0x07 100).mss.prot = p := by
    rw [mssEvent_mss]
    rfl
  unfold State.log logBytes
  dsimp only
  generalize (s.mss.logSeq + 1) % 2 ^ 32 = n
  rw [if_pos hk, if_pos hp]
  split
  · exact hevent ..
  · exact hadd ..

theorem leVal_lt (b : List Byte) : leVal b < 256 ^ b.length := by
  induction b with
  | nil => exact Nat.one_pos
  | cons x b ih =>
    have hx := x.isLt
    rw [leVal, List.length_cons, Nat.pow_succ]
    omega

theorem u_lt (b : List Byte) (o n : Nat) : u b o n < 256 ^ n :=
  Nat.lt_of_lt_of_le (leVal_lt _) (Nat.pow_le_pow_right (by decide) (List.length_take_le ..))

theorem blockCounter_lt (b : List Byte) : blockCounter b < 2 ^ 32 := u_lt _ 4 4

/-! ### OPEN and LOAD -/

/-- The procedure opened. -/
def State.sealOpened (b : List Byte) (s : State) : State :=
  s.onMss (fun m => { m with ctrAuth := blockCounter b, sealSt := 1, sealAt := s.bte.up, hash := b.take 32, staging := [], coverSeen := false })

theorem sealOpen_good {q : Sqe} {b : List Byte} {s : State} (hst : s.mss.sealSt = 0) (hp : s.mss.prot.length + 16 < 1024)
    (hsig : sigOk 0xC3 q true b s = true) : sealOpen q b s =
      (.plain stDONE 0, ((s.sealOpened b).log 0x01 0 (b.take 32) (blockCounter b) false).mssEvent 0x01 3600) := by
  unfold sealOpen
  rw [if_neg (by omega), if_neg (by simp [hsig])]
  rfl

theorem sealOpened_logged {b : List Byte} {s : State} (hp : s.mss.prot.length < 1024) (hb : b.length = 128) (t : State)
    (ht : ((s.sealOpened b).log 0x01 0 (b.take 32) (blockCounter b) false).mssEvent 0x01 3600 = t) :
    t.mss.sealSt = 1 ∧ t.mss.hash = b.take 32 ∧ t.mss.staging = [] ∧ t.mss.sealAt = s.bte.up ∧ t.mss.ctrAuth = blockCounter b ∧
    t.mss.ctrOper = s.mss.ctrOper ∧ t.mss.sealCount = s.mss.sealCount ∧ t.mss.tamper = s.mss.tamper ∧
    (∃ e, t.mss.prot = s.mss.prot ++ [e] ∧ u e.2 4 2 = 1 ∧ u e.2 56 4 = blockCounter b) ∧ t.sgm = s.sgm ∧ t.bte = s.bte := by
  obtain ⟨-, ⟨hl⟩⟩ := log_mss 0x01 0 (b.take 32) (blockCounter b) false (s.sealOpened b)
  have hprot := log_prot (s := s.sealOpened b) (by decide : 0x01 < 0x10) hp 0 (b.take 32) (blockCounter b) false
  have hbytes := u_logBytes (data := b.take 32) (by simp [hb]) 0x01 0 (blockCounter b) false (s.sealOpened b)
  have hsgm : t.sgm = s.sgm := ht ▸ (mssEvent_part (π := .sgm) (by simp) ..).trans ((log_part (π := .sgm) (by simp) ..).trans rfl)
  have hbte : t.bte = s.bte := ht ▸ (mssEvent_part (π := .bte) (by simp) ..).trans ((log_part (π := .bte) (by simp) ..).trans rfl)
  have hm := mssEvent_mss 0x01 3600 ((s.sealOpened b).log 0x01 0 (b.take 32) (blockCounter b) false)
  rw [ht] at hm
  generalize (s.sealOpened b).log 0x01 0 (b.take 32) (blockCounter b) false = v at *
  rw [hm]
  refine ⟨?_, ?_, ?_, ?_, ?_, ?_, ?_, ?_, ⟨_, hprot, hbytes.1, ?_⟩, hsgm, hbte⟩
  case refine_9 => rw [hbytes.2, Nat.mod_eq_of_lt (blockCounter_lt b)]
  all_goals
    rw [hl]
    rfl

/-! ### CLOSE: the package applied -/

/-- The items of a package applied, and the image among them. -/
def State.itemsApplied (items : List (Nat × List Byte)) (s : State) : State × Option (List Byte) :=
  items.foldl (fun x i => applyItem i x) (s, none)

/-- What applying an item may change. -/
structure Applied (s t : State) : Prop where
  bte : t.bte = s.bte
  sealCount : t.mss.sealCount = s.mss.sealCount
  logSeq : t.mss.logSeq = s.mss.logSeq

theorem Applied.trans {s t u : State} (h1 : Applied s t) (h2 : Applied t u) : Applied s u :=
  ⟨h2.bte.trans h1.bte, h2.sealCount.trans h1.sealCount, h2.logSeq.trans h1.logSeq⟩

theorem setKey_kept (kind : Nat) (k : List Byte) (m : Mss) : (Mss.setKey kind k m).sealCount = m.sealCount ∧ (Mss.setKey kind k m).logSeq = m.logSeq := by
  unfold Mss.setKey
  split
  · exact ⟨rfl, rfl⟩
  · split <;> exact ⟨rfl, rfl⟩

theorem applyItem_applied (i : Nat × List Byte) (x : State × Option (List Byte)) : Applied x.1 (applyItem i x).1 := by
  unfold applyItem
  split
  · exact ⟨rfl, rfl, rfl⟩
  · split
    · exact ⟨rfl, rfl, rfl⟩
    · split
      · exact ⟨rfl, rfl, rfl⟩
      next k _ => exact ⟨rfl, (setKey_kept i.1 k x.1.mss).1, (setKey_kept i.1 k x.1.mss).2⟩

theorem itemsApplied_applied (items : List (Nat × List Byte)) (s : State) : Applied s (s.itemsApplied items).1 := by
  have h (l : List (Nat × List Byte)) (x : State × Option (List Byte)) : Applied x.1 (l.foldl (fun x i => applyItem i x) x).1 := by
    induction l generalizing x with
    | nil => exact ⟨rfl, rfl, rfl⟩
    | cons i l ih => exact (applyItem_applied i x).trans (ih _)
  exact h items (s, none)

theorem logItem_logged (i : Nat × List Byte) (s : State) : (logItem i s).mss.logSeq = (s.mss.logSeq + 1) % 2 ^ 32 ∧ MssLogged s.mss (logItem i s).mss ∧
    (logItem i s).sgm = s.sgm ∧ (logItem i s).bte = s.bte := by
  have h (k a : Nat) (d : List Byte) (c : Nat) (b : Bool) : (s.log k a d c b).mss.logSeq = (s.mss.logSeq + 1) % 2 ^ 32 ∧ MssLogged s.mss (s.log k a d c b).mss ∧
      (s.log k a d c b).sgm = s.sgm ∧ (s.log k a d c b).bte = s.bte :=
    ⟨(log_mss ..).1, (log_mss ..).2, log_part (π := .sgm) (by simp) .., log_part (π := .bte) (by simp) ..⟩
  unfold logItem
  split
  · exact h ..
  · split
    · exact h ..
    · exact h ..

theorem itemsLogged (items : List (Nat × List Byte)) (s : State) : (items.foldl (fun s i => logItem i s) s).mss.logSeq % 2 ^ 32 =
      (s.mss.logSeq + items.length) % 2 ^ 32 ∧ MssLogged s.mss (items.foldl (fun s i => logItem i s) s).mss ∧
    (items.foldl (fun s i => logItem i s) s).sgm = s.sgm ∧ (items.foldl (fun s i => logItem i s) s).bte = s.bte := by
  induction items generalizing s with
  | nil => exact ⟨rfl, .refl _, rfl, rfl⟩
  | cons i l ih =>
    obtain ⟨h1, h2, h3, h4⟩ := ih (logItem i s)
    obtain ⟨k1, k2, k3, k4⟩ := logItem_logged i s
    refine ⟨h1.trans ?_, k2.trans h2, h3.trans k3, h4.trans k4⟩
    rw [k1, List.length_cons, Nat.mod_add_mod, Nat.add_assoc, Nat.add_comm 1]

/-- MSS behind a package that carries the image `img`. -/
def State.sealClosed (items : List (Nat × List Byte)) (img : Option (List Byte)) (at_ : Nat) (s : State) : State :=
  let s4 := s.onMss (fun m => { m with
    tamper := false, staging := [], hash := [], coverSeen := false
    sealSt := if items.any (fun i => i.1 == 1) || img.isSome then 2 else 0, sealAt := at_ })
  match img with
  | none => s4
  | some d => s4.onMss (fun m => { m with
      imageOld := some m.image, image := (sha256 d, (Config.saggarImageVersion (sha256 d)).toNat), restarting := true, rollback := false, imageAt := at_ })

theorem applyPackage_eq (items : List (Nat × List Byte)) (s : State) : ∃ src data new, s.applyPackage items =
    (((items.foldl (fun s i => logItem i s) (s.itemsApplied items).1).log 0x03 src data 0 false).sealClosed items (s.itemsApplied items).2 s.bte.up).mssEvent
      0x03 new := by
  unfold State.applyPackage
  dsimp only
  rw [show items.foldl (fun x i => applyItem i x) (s, none) = s.itemsApplied items from rfl]
  obtain ⟨s1, img⟩ := s.itemsApplied items
  cases img with
  | none => exact ⟨_, _, _, rfl⟩
  | some d => exact ⟨_, _, _, rfl⟩

theorem sealClosed_spec (items : List (Nat × List Byte)) (img : Option (List Byte)) (at_ : Nat) (s : State) :
    (s.sealClosed items img at_).mss.tamper = false ∧ (s.sealClosed items img at_).mss.sealCount = s.mss.sealCount ∧
    (s.sealClosed items img at_).mss.sealSt = (if items.any (fun i => i.1 == 1) || img.isSome then 2 else 0) ∧
    (s.sealClosed items img at_).mss.staging = [] ∧ (s.sealClosed items img at_).mss.logSeq = s.mss.logSeq ∧
    (s.sealClosed items img at_).sgm = s.sgm ∧ (s.sealClosed items img at_).bte = s.bte := by
  unfold State.sealClosed
  cases img <;> exact ⟨rfl, rfl, rfl, rfl, rfl, rfl, rfl⟩

/-- Fields of MSS that neither the log nor the end of a procedure without an image changes. -/
theorem sealClosed_none {α : Type} {f : Mss → α} (items : List (Nat × List Byte)) (at_ : Nat) (s : State)
    (hf : ∀ (m : Mss) a b c d e g, f { m with tamper := a, staging := b, hash := c, coverSeen := d, sealSt := e, sealAt := g } = f m) :
    f (s.sealClosed items none at_).mss = f s.mss := hf s.mss ..

/-- What a package leaves, whatever its items. -/
theorem applyPackage_spec (items : List (Nat × List Byte)) (s : State) : (s.applyPackage items).mss.tamper = false ∧
    (s.applyPackage items).mss.sealCount = s.mss.sealCount ∧ (s.applyPackage items).mss.staging = [] ∧
    (s.applyPackage items).mss.sealSt = (if items.any (fun i => i.1 == 1) || (s.itemsApplied items).2.isSome then 2 else 0) ∧
    (s.applyPackage items).mss.logSeq = (s.mss.logSeq + (items.length + 1)) % 2 ^ 32 ∧ (s.applyPackage items).sgm = (s.itemsApplied items).1.sgm ∧
    (s.applyPackage items).bte = s.bte := by
  obtain ⟨src, data, new, he⟩ := applyPackage_eq items s
  obtain ⟨hbte, hcount, hseq⟩ := itemsApplied_applied items s
  obtain ⟨k1, ⟨k2⟩, k3, k4⟩ := itemsLogged items (s.itemsApplied items).1
  rw [he]
  generalize (s.itemsApplied items).1 = u at *
  generalize (s.itemsApplied items).2 = img
  generalize items.foldl (fun s i => logItem i s) u = v at *
  obtain ⟨l1, ⟨l2⟩⟩ := log_mss 0x03 src data 0 false v
  have l3 : (v.log 0x03 src data 0 false).sgm = v.sgm := log_part (π := .sgm) (by simp) ..
  have l4 : (v.log 0x03 src data 0 false).bte = v.bte := log_part (π := .bte) (by simp) ..
  generalize v.log 0x03 src data 0 false = w at *
  obtain ⟨c1, c2, c3, c4, c5, c6, c7⟩ := sealClosed_spec items img s.bte.up w
  have hm := mssEvent_mss 0x03 new (w.sealClosed items img s.bte.up)
  have e1 : ((w.sealClosed items img s.bte.up).mssEvent 0x03 new).sgm = _ := mssEvent_part (π := .sgm) (by simp) ..
  have e2 : ((w.sealClosed items img s.bte.up).mssEvent 0x03 new).bte = _ := mssEvent_part (π := .bte) (by simp) ..
  generalize w.sealClosed items img s.bte.up = x at *
  generalize x.mssEvent 0x03 new = t at *
  have m1 := congrArg Mss.tamper hm
  have m2 := congrArg Mss.sealCount hm
  have m3 := congrArg Mss.staging hm
  have m4 := congrArg Mss.sealSt hm
  have m5 := congrArg Mss.logSeq hm
  have n1 := congrArg Mss.sealCount l2
  have n2 := congrArg Mss.sealCount k2
  refine ⟨m1.trans c1, m2.trans (c2.trans (n1.trans (n2.trans hcount))), m3.trans c4, m4.trans c3, ?_, e1.trans (c6.trans (l3.trans k3)),
    e2.trans (c7.trans (l4.trans (k4.trans hbte)))⟩
  refine m5.trans (c5.trans (l1.trans ?_))
  rw [← Nat.mod_add_mod, k1, Nat.mod_add_mod, hseq, Nat.add_assoc]

/-- The keys and the image of MSS behind a package without an image are those behind its items. -/
theorem applyPackage_field {α : Type} {f : Mss → α} {items : List (Nat × List Byte)} {s : State} (himg : (s.itemsApplied items).2 = none)
    (hc : ∀ (m : Mss) a b c d e g, f { m with tamper := a, staging := b, hash := c, coverSeen := d, sealSt := e, sealAt := g } = f m)
    (hl : ∀ (m : Mss) a b c d, f { m with logSeq := a, prot := b, ring := c, lastEvent := d } = f m) :
    f (s.applyPackage items).mss = f (s.itemsApplied items).1.mss := by
  obtain ⟨src, data, new, he⟩ := applyPackage_eq items s
  obtain ⟨-, k, -, -⟩ := itemsLogged items (s.itemsApplied items).1
  have hlogged {m m' : Mss} (h : MssLogged m m') : f m' = f m := by
    rw [h.eq]
    exact hl ..
  rw [he, himg]
  have h1 := hlogged (mssEvent_logged 0x03 new (((items.foldl (fun s i => logItem i s) (s.itemsApplied items).1).log 0x03 src data 0 false).sealClosed
    items none s.bte.up))
  have h2 := sealClosed_none items s.bte.up ((items.foldl (fun s i => logItem i s) (s.itemsApplied items).1).log 0x03 src data 0 false) hc
  have h3 := hlogged (log_mss 0x03 src data 0 false (items.foldl (fun s i => logItem i s) (s.itemsApplied items).1)).2
  exact h1.trans (h2.trans (h3.trans (hlogged k)))

/-- The image of a package takes the place of the one in force. -/
theorem applyPackage_image (m : List Byte) (s : State) : (s.applyPackage [(2, m)]).mss.image.1 = sha256 m ∧
    (s.applyPackage [(2, m)]).mss.imageOld = some s.mss.image ∧ (s.applyPackage [(2, m)]).mss.restarting = true ∧
    (s.applyPackage [(2, m)]).mss.imageAt = s.bte.up := by
  obtain ⟨src, data, new, he⟩ := applyPackage_eq [(2, m)] s
  obtain ⟨-, ⟨k⟩, -, -⟩ := itemsLogged [(2, m)] (s.itemsApplied [(2, m)]).1
  have himg : (s.itemsApplied [(2, m)]).2 = some m := rfl
  have hsame : (s.itemsApplied [(2, m)]).1.mss = s.mss := rfl
  rw [he, himg]
  generalize [(2, m)].foldl (fun s i => logItem i s) (s.itemsApplied [(2, m)]).1 = v at *
  obtain ⟨-, ⟨l⟩⟩ := log_mss 0x03 src data 0 false v
  generalize v.log 0x03 src data 0 false = w at *
  have hm := mssEvent_mss 0x03 new (w.sealClosed [(2, m)] (some m) s.bte.up)
  generalize (w.sealClosed [(2, m)] (some m) s.bte.up).mssEvent 0x03 new = t at *
  have m1 := congrArg (fun m : Mss => m.image.1) hm
  have m2 := congrArg Mss.imageOld hm
  have m3 := congrArg Mss.restarting hm
  have m4 := congrArg Mss.imageAt hm
  have n1 := congrArg Mss.image l
  have n2 := congrArg Mss.image k
  have n3 := congrArg Mss.image hsame
  exact ⟨m1, m2.trans (congrArg some (n1.trans (n2.trans n3))), m3, m4⟩

theorem sealClose_good {s : State} {items : List (Nat × List Byte)} (hst : s.mss.sealSt = 1) (hseen : s.mss.coverSeen = true) (hc : s.mss.cover = false)
    (hh : sha256 s.mss.staging = s.mss.hash) (hi : packageItems (s.mss.staging.length + 1) s.mss.staging = some items)
    (hok : ∀ i ∈ items, itemOk s.mss.serial i = true) : sealClose s = (.plain stDONE s.mss.sealCount, s.applyPackage items) := by
  unfold sealClose
  dsimp only
  rw [if_neg (by simp [hst]), if_neg (by simp [hseen, hc, hh]), hi]
  exact if_pos (List.all_eq_true.mpr hok)

theorem sealClose_bad {s : State} (hst : s.mss.sealSt = 1) (h : s.mss.coverSeen = false ∨ s.mss.cover = true ∨ sha256 s.mss.staging ≠ s.mss.hash) :
    sealClose s = (.plain stBAD_PARAM badContent, s) := by
  unfold sealClose
  dsimp only
  rw [if_neg (by simp [hst])]
  refine if_pos ?_
  rcases h with h | h | h <;> simp [h]

end Sys2Proof.Machine
end
section
/-! PROOFS. The seal commands, the end of a restart and the rollback answer (R376, R380 to R382) -/

namespace Sys2Proof.Machine

open Sys2Proof

/-! ### ABANDON and the timeout -/

/-- The procedure given up. -/
def State.sealDropped (s : State) : State := s.onMss (fun m => { m with sealSt := 0, staging := [], hash := [], coverSeen := false })

theorem abandonSeal_spec {s : State} (h : s.mss.sealSt = 1) (r : Nat) : (s.abandonSeal r).mss.sealSt = 0 ∧ (s.abandonSeal r).mss.staging = [] ∧
    (s.abandonSeal r).mss.sealCount = s.mss.sealCount ∧ (s.abandonSeal r).mss.tamper = s.mss.tamper ∧ (s.abandonSeal r).mss.image = s.mss.image ∧
    (s.abandonSeal r).mss.lastEvent = some (0, 0x04, r % 256) ∧ (s.abandonSeal r).sgm = s.sgm ∧ (s.abandonSeal r).bte = s.bte := by
  have he : s.abandonSeal r = (s.sealDropped.log 0x04 (if r = 1 then 0 else 2) (le 1 r) 0 false).mssEvent 0x04 r := if_neg (by simp [h])
  obtain ⟨-, ⟨hl⟩⟩ := log_mss 0x04 (if r = 1 then 0 else 2) (le 1 r) 0 false s.sealDropped
  have l1 : (s.sealDropped.log 0x04 (if r = 1 then 0 else 2) (le 1 r) 0 false).sgm = s.sgm := log_part (π := .sgm) (by simp) ..
  have l2 : (s.sealDropped.log 0x04 (if r = 1 then 0 else 2) (le 1 r) 0 false).bte = s.bte := log_part (π := .bte) (by simp) ..
  rw [he]
  generalize s.sealDropped.log 0x04 (if r = 1 then 0 else 2) (le 1 r) 0 false = u at *
  have hm := mssEvent_mss 0x04 r u
  have e1 : (u.mssEvent 0x04 r).sgm = u.sgm := mssEvent_part (π := .sgm) (by simp) ..
  have e2 : (u.mssEvent 0x04 r).bte = u.bte := mssEvent_part (π := .bte) (by simp) ..
  generalize u.mssEvent 0x04 r = t at *
  rw [hm]
  refine ⟨?_, ?_, ?_, ?_, ?_, rfl, e1.trans l1, e2.trans l2⟩
  all_goals
    rw [hl]
    rfl

/-! ### The restart on another image (R381) -/

/-- A carry of a port's delivered energy in its tariff register, its account and its sessions (R347, R362). -/
def Bte.delivered (p c : Nat) (b : Bte) : Bte := { b with
  trDc := upd b.trDc b.rate (· + c)
  credit := if b.sess.any (fun x => x.port == p && x.prepaid) then b.credit.set p (chargeAcct c b.price (b.credit.getD p (0, 0))).1 else b.credit
  sess := b.sess.map (fun x => if x.port = p then sessCarry c b.rate (chargeAcct c b.price (b.credit.getD p (0, 0))).2 x else x) }

/-- What a carry does where BTE takes it at once. -/
def Bte.carried (id c : Nat) (b : Bte) : Bte :=
  if id < 16 then b.delivered id c
  else if id = 0x20 then { b with trImp := upd b.trImp b.rate (· + c) }
  else if id = 0x21 then { b with trExp := upd b.trExp b.rate (· + c) }
  else b

theorem carry_eq (id c : Nat) (s : State) : s.carry id c = if c = 0 then s
    else if s.mss.restarting then s.onBte (fun b => { b with carryQ := b.carryQ ++ [(id, c)] }) else s.onBte (Bte.carried id c) := rfl

theorem resume_eq {s : State} (h : s.mss.restarting = true) : s.resume = { s with
    bte := s.bte.carryQ.foldl (fun b x => b.carried x.1 x.2) { s.bte with carryQ := [] }, mss := s.resume.mss } ∧
    s.resume.mss.restarting = false ∧ s.resume.mss.waiting = s.mss.waiting := by
  have he : s.resume = (s.onBte (fun b => (b.carryQ.foldl (fun b x => b.carried x.1 x.2) { b with carryQ := [] }))).onMss (fun m => { m with
      restarting := false
      sealSt := if m.sealSt = 2 ∧ s.sgm.calNext = none ∧ s.sgm.calAc = s.sgm.cal then 0 else m.sealSt }) := if_neg (by simp [h])
  rw [he]
  exact ⟨rfl, rfl, rfl⟩

theorem carried_carryQ (id c : Nat) (b : Bte) : (b.carried id c).carryQ = b.carryQ := by
  unfold Bte.carried
  repeat' split
  all_goals rfl

theorem carries_carryQ (l : List (Nat × Nat)) (b : Bte) : (l.foldl (fun b x => b.carried x.1 x.2) b).carryQ = b.carryQ := by
  induction l generalizing b with
  | nil => rfl
  | cons x l ih => exact (ih _).trans (carried_carryQ ..)

/-- The Saggar runs on the image before. -/
theorem saggarRollback_spec {s : State} {old : List Byte × Nat} (h : s.mss.imageOld = some old) (ht : s.bte.up ≤ s.mss.imageAt + 10000000) :
    (saggarRollback s).mss.image = old ∧ (saggarRollback s).mss.rollback = true ∧ (saggarRollback s).mss.restarting = true ∧
    (saggarRollback s).mss.sealCount = s.mss.sealCount ∧ (saggarRollback s).sgm = s.sgm ∧
    (saggarRollback s).mss.logSeq = (s.mss.logSeq + 1) % 2 ^ 32 := by
  have he : ∃ u : State, ∃ n, u = s.onMss (fun m => { m with image := old, imageOld := none, rollback := true, restarting := true }) ∧
      saggarRollback s = (u.log 0x08 2 s.mss.image.1 0 false).mssEvent 0x05 n := by
    refine ⟨_, (s.onMss (fun m => { m with image := old, imageOld := none, rollback := true, restarting := true })).mss.swShort, rfl, ?_⟩
    unfold saggarRollback
    rw [h]
    exact if_neg (by omega)
  obtain ⟨u, n, hu, he⟩ := he
  obtain ⟨hseq, ⟨hl⟩⟩ := log_mss 0x08 2 s.mss.image.1 0 false u
  have l1 : (u.log 0x08 2 s.mss.image.1 0 false).sgm = u.sgm := log_part (π := .sgm) (by simp) ..
  rw [he]
  generalize u.log 0x08 2 s.mss.image.1 0 false = v at *
  have hm := mssEvent_mss 0x05 n v
  have e1 : (v.mssEvent 0x05 n).sgm = v.sgm := mssEvent_part (π := .sgm) (by simp) ..
  generalize v.mssEvent 0x05 n = t at *
  rw [hm]
  subst hu
  refine ⟨?_, ?_, ?_, ?_, e1.trans l1, hseq⟩
  all_goals
    rw [hl]
    rfl

/-! ### Keys -/

theorem itemsApplied_key {kind : Nat} {w k : List Byte} {s : State} (h1 : kind ≠ 1) (h2 : kind ≠ 2) (h : itemKey s.mss.serial kind w = some k) :
    s.itemsApplied [(kind, w)] = (s.onMss (Mss.setKey kind k), none) := by
  have he : s.itemsApplied [(kind, w)] = applyItem (kind, w) (s, none) := rfl
  rw [he]
  unfold applyItem
  dsimp only
  rw [if_neg h1, if_neg h2, h]

/-- An answer that ends a command. -/
theorem answered_mem (q : Sqe) (a : SgAns) (u : State) : ∃ f ∈ (u.sgAnswered q a).hqe.answers, f.cid = cidOf q ∧ f.sq = q.sq ∧ f.status = a.status ∧
    f.result = a.result :=
  ⟨⟨q.sq, cidOf q, a.status, a.result, addrOf q, a.buf⟩, List.mem_append_right _ (by simp), rfl, rfl, rfl, rfl⟩

theorem sgAnswered_kept (q : Sqe) (a : SgAns) (u : State) : (u.sgAnswered q a).mss = u.mss ∧ (u.sgAnswered q a).sgm = u.sgm ∧
    (u.sgAnswered q a).bte = u.bte := ⟨rfl, rfl, rfl⟩

/-- What a package that its items pass leaves. -/
theorem package_applied {s : State} (items : List (Nat × List Byte)) (t : State) (ht : s.applyPackage items = t) :
    t.mss.tamper = false ∧ t.mss.sealCount = s.mss.sealCount ∧ t.mss.sealSt ≠ 1 ∧ t.mss.staging = [] ∧
    t.mss.logSeq = (s.mss.logSeq + (items.length + 1)) % 2 ^ 32 ∧
    (∀ c, items = [(1, c)] → t.sgm = { s.sgm with calNext := some c } ∧ t.mss.sealSt = 2 ∧ t.mss.image = s.mss.image) ∧
    (∀ m, items = [(2, m)] → t.sgm = s.sgm ∧ t.mss.image.1 = sha256 m ∧ t.mss.imageOld = some s.mss.image ∧
      t.mss.restarting = true ∧ t.mss.imageAt = s.bte.up) ∧
    (∀ k w, items = [(3, w)] → itemKey s.mss.serial 3 w = some k → t.mss.oper = some k ∧ t.mss.auth = s.mss.auth ∧
      (s.mss.oper = some k → t.mss.ctrOper = s.mss.ctrOper) ∧ (∀ j, s.mss.oper = some j → (j, s.mss.ctrOper) ∈ t.mss.pastCtrs)) ∧
    (∀ k w, items = [(4, w)] → itemKey s.mss.serial 4 w = some k → t.sgm = s.sgm ∧ t.mss.token = some k ∧
      t.mss.sealSt = 0 ∧ t.mss.oper = s.mss.oper ∧ t.mss.auth = s.mss.auth) ∧ t.bte = s.bte := by
  obtain ⟨h1, h2, h3, h4, h5, h6, h7⟩ := applyPackage_spec items s
  rw [ht] at h1 h2 h3 h4 h5 h6 h7
  refine ⟨h1, h2, ?_, h3, h5, fun c hi => ?calibration, fun m hi => ?image, fun k w hi hk => ?oper, fun k w hi hk => ?token, h7⟩
  · rw [h4]
    split <;> decide
  case calibration =>
    subst hi
    have himage : t.mss.image = s.mss.image := ht ▸ applyPackage_field (f := Mss.image) (items := [(1, c)]) (s := s) rfl
      (fun _ _ _ _ _ _ _ => rfl) (fun _ _ _ _ _ => rfl)
    exact ⟨h6, h4, himage⟩
  case image =>
    subst hi
    obtain ⟨k1, k2, k3, k4⟩ := applyPackage_image m s
    rw [ht] at k1 k2 k3 k4
    exact ⟨h6, k1, k2, k3, k4⟩
  case oper =>
    subst hi
    have hap := itemsApplied_key (by decide) (by decide) hk
    have hnone : (s.itemsApplied [(3, w)]).2 = none := congrArg Prod.snd hap
    have hmss : (s.itemsApplied [(3, w)]).1.mss = Mss.setKey 3 k s.mss := congrArg (fun x => x.1.mss) hap
    have k1 : t.mss.oper = _ := ht ▸ applyPackage_field (f := Mss.oper) hnone (fun _ _ _ _ _ _ _ => rfl) (fun _ _ _ _ _ => rfl)
    have k2 : t.mss.auth = _ := ht ▸ applyPackage_field (f := Mss.auth) hnone (fun _ _ _ _ _ _ _ => rfl) (fun _ _ _ _ _ => rfl)
    have k3 : t.mss.ctrOper = _ := ht ▸ applyPackage_field (f := Mss.ctrOper) hnone (fun _ _ _ _ _ _ _ => rfl) (fun _ _ _ _ _ => rfl)
    have k4 : t.mss.pastCtrs = _ := ht ▸ applyPackage_field (f := Mss.pastCtrs) hnone (fun _ _ _ _ _ _ _ => rfl) (fun _ _ _ _ _ => rfl)
    rw [hmss] at k1 k2 k3 k4
    refine ⟨k1, k2, fun ho => k3.trans ?_, fun j ho => ?_⟩
    · change lastCtr k (s.mss.past s.mss.oper s.mss.ctrOper) = s.mss.ctrOper
      rw [ho]
      simp [lastCtr, Mss.past]
    · rw [k4]
      change (j, s.mss.ctrOper) ∈ s.mss.past s.mss.oper s.mss.ctrOper
      rw [ho]
      exact List.mem_cons_self ..
  case token =>
    subst hi
    have hap := itemsApplied_key (by decide) (by decide) hk
    have hnone : (s.itemsApplied [(4, w)]).2 = none := congrArg Prod.snd hap
    have hmss : (s.itemsApplied [(4, w)]).1.mss = Mss.setKey 4 k s.mss := congrArg (fun x => x.1.mss) hap
    have hsgm : (s.itemsApplied [(4, w)]).1.sgm = s.sgm := congrArg (fun x => x.1.sgm) hap
    have k1 : t.mss.token = _ := ht ▸ applyPackage_field (f := Mss.token) hnone (fun _ _ _ _ _ _ _ => rfl) (fun _ _ _ _ _ => rfl)
    have k2 : t.mss.oper = _ := ht ▸ applyPackage_field (f := Mss.oper) hnone (fun _ _ _ _ _ _ _ => rfl) (fun _ _ _ _ _ => rfl)
    have k3 : t.mss.auth = _ := ht ▸ applyPackage_field (f := Mss.auth) hnone (fun _ _ _ _ _ _ _ => rfl) (fun _ _ _ _ _ => rfl)
    rw [hmss] at k1 k2 k3
    rw [hnone] at h4
    exact ⟨h6.trans hsgm, k1, h4, k2, k3⟩

/-! ### The claim -/

section procedure
variable {q : Sqe} {b : List Byte} {s : State}

theorem sealParams_ok (hop : bits (sd q 6) 3 0 ≤ 3) (hb : bits (sd q 6) 3 0 = 0 → b.length = 128)
    (hn : 2 ≤ bits (sd q 6) 3 0 → sd q 2 = 0 ∧ sd q 3 = 0 ∧ sd q 4 = 0) : ∀ p ∈ sealParams q b, p.1 = true := by
  unfold sealParams
  generalize bits (sd q 6) 3 0 = k at *
  obtain rfl | rfl | rfl | rfl : k = 0 ∨ k = 1 ∨ k = 2 ∨ k = 3 := by omega
  · simp [hb rfl]
  · simp
  · simp [hn (by decide)]
  · simp [hn (by decide)]

theorem sealCmd_eq (hlen : b.length ≤ sd q 4) : sealCmd q (.data b) s = sgReach 0xC3 q b (sealParams q b) (sealBegin q b) s.start := by
  have h : sealCmd q (.data b) s = sgReach 0xC3 q (b.take (sd q 4)) (sealParams q (b.take (sd q 4))) (sealBegin q (b.take (sd q 4))) s.start := rfl
  rw [h, List.take_of_length_le hlen]

theorem sealBegin_open (h : bits (sd q 6) 3 0 = 0) : sealBegin q b s = sealOpen q b s := by
  unfold sealBegin
  rw [h]
  rfl

theorem sealBegin_load (h : bits (sd q 6) 3 0 = 1) : sealBegin q b s = sealLoad b s := by
  unfold sealBegin
  rw [h]
  rfl

theorem sealBegin_close (h : bits (sd q 6) 3 0 = 2) : sealBegin q b s = sealClose s := by
  unfold sealBegin
  rw [h]
  rfl

theorem sealBegin_abandon (h : bits (sd q 6) 3 0 = 3) : sealBegin q b s = sealAbandon s := by
  unfold sealBegin
  rw [h]
  rfl

end procedure

/-- Settles O21: each step of the procedure from what the log and its events leave, the package from what its items change. -/
theorem sealProcedure : Obligations.SealProcedure := by
  refine ⟨?open_, ?load, ?close, ?abandon, ?timeout, ?done, ?rollback, ?late, ?waiting⟩
  case open_ =>
    intro q b s h hk hb hlen
    have he : exec (.sealBeginOpen q (.data b)) s = .next (sgReach 0xC3 q b (sealParams q b) (sealBegin q b) s.start) :=
      congrArg Host.Outcome.next (sealCmd_eq (by omega))
    have hp : ∀ p ∈ sealParams q b, p.1 = true := sealParams_ok (by omega) (fun _ => hb) (by omega)
    have hbody : sealBegin q b (s.entered q) = sealOpen q b (s.entered q) := sealBegin_open hk
    refine ⟨fun hst hprot => answers_served he h hp fun hsig => ?_, fun hbad => answers_served he h hp ?_,
      fun hst hprot hsig => answers_served he h hp ?_⟩
    · rw [hbody, sealOpen_good (s := s.entered q) hst hprot hsig]
      have hopened := sealOpened_logged (s := s.entered q) (Nat.lt_of_le_of_lt (Nat.le_add_right _ 16) hprot) hb _ rfl
      exact ⟨answered_mem .., hopened⟩
    · have hs : sealOpen q b (s.entered q) = (.plain stBAD_STATE 0, s.entered q) := if_pos hbad
      rw [hbody, hs]
      exact onlyAnswers h.1.2.1
    · have hs : sealOpen q b (s.entered q) = (.plain stSIGNATURE_BAD 0, s.entered q) := by
        unfold sealOpen
        rw [if_neg (by rintro (h | h); exacts [h hst, absurd hprot (Nat.not_lt.mpr h)]), if_pos (by simp [sigOk_entered, hsig])]
      rw [hbody, hs]
      exact onlyAnswers h.1.2.1
  case load =>
    intro q b s h hk hlen
    have he : exec (.sealBeginLoad q (.data b)) s = .next (sgReach 0xC3 q b (sealParams q b) (sealBegin q b) s.start) :=
      congrArg Host.Outcome.next (sealCmd_eq hlen)
    have hp : ∀ p ∈ sealParams q b, p.1 = true := sealParams_ok (by omega) (by omega) (by omega)
    have hbody : sealBegin q b (s.entered q) = sealLoad b (s.entered q) := sealBegin_load hk
    refine ⟨fun hst hsize => answers_served he h hp ?_, fun hbad => answers_served he h hp ?_⟩
    · have hs : sealLoad b (s.entered q) = (.plain stDONE 0, (s.entered q).onMss (fun m => { m with staging := m.staging ++ b })) :=
        if_neg (by rintro (h | h); exacts [h hst, absurd hsize (Nat.not_le.mpr h)])
      rw [hbody, hs]
      exact ⟨answered_of h.1.2.1 rfl rfl, rfl⟩
    · have hs : sealLoad b (s.entered q) = (.plain stBAD_STATE 0, s.entered q) := if_pos hbad
      rw [hbody, hs]
      exact onlyAnswers h.1.2.1
  case close =>
    intro q s h hk h2 h3 h4
    have he : exec (.sealBeginClose q (.data [])) s = .next (sgReach 0xC3 q [] (sealParams q []) (sealBegin q []) s.start) :=
      congrArg Host.Outcome.next (sealCmd_eq (by simp))
    have hp : ∀ p ∈ sealParams q [], p.1 = true := sealParams_ok (by omega) (by omega) (fun _ => ⟨h2, h3, h4⟩)
    have hbody : sealBegin q [] (s.entered q) = sealClose (s.entered q) := sealBegin_close hk
    refine ⟨fun items hst hseen hc hh hi => answers_served he h hp fun hok => ?_, fun hst hbad => answers_served he h hp ?_,
      fun hst => answers_served he h hp ?_⟩
    · rw [hbody, sealClose_good (s := s.entered q) hst hseen hc hh hi hok]
      have hpackage := package_applied (s := s.entered q) items _ rfl
      exact ⟨answered_mem .., hpackage⟩
    · rw [hbody, sealClose_bad (s := s.entered q) hst hbad]
      exact ⟨_, onlyAnswers h.1.2.1⟩
    · have hs : sealClose (s.entered q) = (.plain stBAD_STATE 0, s.entered q) := if_pos hst
      rw [hbody, hs]
      exact onlyAnswers h.1.2.1
  case abandon =>
    intro q s h hk h2 h3 h4 hst
    have he : exec (.sealBeginAbandon q (.data [])) s = .next (sgReach 0xC3 q [] (sealParams q []) (sealBegin q []) s.start) :=
      congrArg Host.Outcome.next (sealCmd_eq (by simp))
    have hp : ∀ p ∈ sealParams q [], p.1 = true := sealParams_ok (by omega) (by omega) (fun _ => ⟨h2, h3, h4⟩)
    have hbody : sealBegin q [] (s.entered q) = sealAbandon (s.entered q) := sealBegin_abandon hk
    have hs : sealAbandon (s.entered q) = (.plain stDONE 0, (s.entered q).abandonSeal 1) := if_neg (fun hn => hn hst)
    refine answers_served he h hp ?_
    rw [hbody, hs]
    obtain ⟨k1, k2, k3, k4, k5, -, k7, -⟩ := abandonSeal_spec (s := s.entered q) hst 1
    exact ⟨answered_mem .., k1, k2, k3, k4, k7, k5⟩
  case timeout =>
    intro s hst
    obtain ⟨k1, k2, k3, k4, -, k6, k7, k8⟩ := abandonSeal_spec (s := s.start) hst 2
    refine ⟨_, rfl, k1, k2, k3, k4, k7, k8, ?_⟩
    rw [k6]
    decide
  case done =>
    intro s hr
    obtain ⟨hres, hrest, hwait⟩ := resume_eq (s := s.start) hr
    refine ⟨fun hw => ?_, fun q b hw hop hlen => ?_⟩
    · have he : restartDone s.start = s.start.resume.onMss (fun m => { m with waiting := [] }) := by
        unfold restartDone
        rw [show s.start.mss.waiting = s.mss.waiting from rfl, hw]
        rfl
      refine ⟨_, congrArg Host.Outcome.next he, ?_⟩
      have hbte := congrArg State.bte hres
      have hsgm := congrArg State.sgm hres
      have hhqe := congrArg State.hqe hres
      generalize s.start.resume = u at *
      refine ⟨hrest, ?_, hbte, hsgm, hhqe⟩
      change u.bte.carryQ = []
      rw [hbte]
      exact carries_carryQ ..
    · have hrow : (bufferRow q b).or (opticalRow q) = some (identReadParams q, identRead q) := by
        unfold bufferRow opticalRow
        rw [hop]
        rfl
      have hparams : firstBad (identReadParams q) = none := firstBad_eq_none.mpr (by simp [identReadParams, hlen])
      have he : restartDone s.start = (identRead q (s.start.resume.onMss (fun m => { m with waiting := [] }))).2.sgAnswered q
          (identRead q (s.start.resume.onMss (fun m => { m with waiting := [] }))).1 := by
        unfold restartDone
        rw [show s.start.mss.waiting = s.mss.waiting from rfl, hw]
        change (s.start.resume.onMss (fun m => { m with waiting := [] })).serveWaiting q b = _
        unfold State.serveWaiting
        rw [hrow]
        dsimp only
        unfold sgServe
        rw [hparams]
        rfl
      have hhqe := congrArg State.hqe hres
      refine ⟨_, congrArg Host.Outcome.next he, ?_⟩
      generalize s.start.resume = u at *
      refine ⟨hrest, rfl, (identRead q (u.onMss (fun m => { m with waiting := [] }))).1.buf, ?_⟩
      exact congrArg (fun h : Hqe => h.answers ++
        [⟨q.sq, cidOf q, stDONE, 240, addrOf q, (identRead q (u.onMss (fun m => { m with waiting := [] }))).1.buf⟩]) hhqe
  case rollback =>
    intro s old ho ht
    exact ⟨_, rfl, saggarRollback_spec (s := s.start) ho ht⟩
  case late =>
    intro s old ho ht
    refine ⟨_, congrArg Host.Outcome.next ?_, rfl⟩
    unfold saggarRollback
    rw [show s.start.mss = s.mss from rfl, ho]
    exact if_pos ht
  case waiting =>
    intro q b s h hup hruns hrest i hi
    simp only [List.mem_cons, List.not_mem_nil, or_false] at hi
    rcases hi with rfl | rfl | rfl | rfl
    all_goals exact answers_waits rfl h hup hruns hrest

end Sys2Proof.Machine
end
section
/-! PROOFS. The BTE commands (R353 to R356, R359, R372) -/

namespace Sys2Proof.Machine

open Sys2Proof

/-! ### Entries of REGISTER_READ and CREDIT_READ -/

theorem u_regEntry (id unit roll flags value : Nat) : u (regEntry id unit roll flags value) 3 1 = flags % 256 ∧
    u (regEntry id unit roll flags value) 4 8 = value % 2 ^ 64 := by
  simp only [regEntry, List.append_assoc]
  simp (disch := decide) only [u_le_skip, u_le_zero, Nat.reduceSub]
  exact ⟨rfl, rfl⟩

/-- The two words of a maximum demand. -/
theorem u_mdEntry (id flags a b : Nat) : u (regEntry id 4 0 flags (a % 2 ^ 32 + b * 2 ^ 32)) 4 4 = a % 2 ^ 32 ∧
    u (regEntry id 4 0 flags (a % 2 ^ 32 + b * 2 ^ 32)) 8 4 = b % 2 ^ 32 := by
  have hle (v : Nat) : le 8 v = le 4 v ++ le 4 (v / 2 ^ 32) := by
    simp [le, Nat.div_div_eq_div_mul]
  simp only [regEntry, hle, List.append_assoc]
  simp (disch := decide) only [u_le_skip, u_le_zero, Nat.reduceSub]
  omega

theorem regVal_lt (acc : Nat) : regVal acc % 2 ^ 64 = acc / 100000 % 1000000000000 := by
  have h : regVal acc = acc / 100000 % 1000000000000 := rfl
  rw [h]
  omega

theorem flags_lt (a b : Bool) : (b2n a + 2 * b2n b) % 256 = b2n a + 2 * b2n b := by
  cases a <;> cases b <;> rfl

theorem bteEntry_energy {s : State} {id : Nat} (h : id < 0x30) : s.bteEntry id = regEntry id 0
    (regRoll (if id < 0x10 then s.bte.trImp.getD id 0 else if id < 0x20 then s.bte.trExp.getD (id - 0x10) 0 else s.bte.trDc.getD (id - 0x20) 0))
    (b2n (s.bteFault id) + 2 * b2n s.sgm.saveGap)
    (regVal (if id < 0x10 then s.bte.trImp.getD id 0 else if id < 0x20 then s.bte.trExp.getD (id - 0x10) 0 else s.bte.trDc.getD (id - 0x20) 0)) :=
  if_pos h

theorem bteEntry_demand {s : State} {id : Nat} (h : 0x30 ≤ id) : s.bteEntry id = regEntry id 4 0 (b2n (s.bteFault id) + 2 * b2n s.sgm.saveGap)
    ((if id < 0x40 then s.bte.mdImp.getD (id - 0x30) (0, 0) else s.bte.mdDc.getD (id - 0x40) (0, 0)).1 % 2 ^ 32 +
      (if id < 0x40 then s.bte.mdImp.getD (id - 0x30) (0, 0) else s.bte.mdDc.getD (id - 0x40) (0, 0)).2 * 2 ^ 32) :=
  if_neg (by omega)

theorem bteEntry_flags (s : State) (id : Nat) : u (s.bteEntry id) 3 1 = b2n (s.bteFault id) + 2 * b2n s.sgm.saveGap := by
  by_cases h : id < 0x30
  · rw [bteEntry_energy h, (u_regEntry ..).1]
    exact flags_lt ..
  · rw [bteEntry_demand (by omega), (u_regEntry ..).1]
    exact flags_lt ..

theorem bteFault_ac {s : State} {id : Nat} (h : id < 0x20 ∨ 0x30 ≤ id ∧ id < 0x40) : s.bteFault id = s.sgm.acFault := if_pos h

theorem bteFault_all {s : State} {id : Nat} (h1 : 0x20 ≤ id) (h2 : id < 0x30) :
    s.bteFault id = (List.range 16).any (fun n => s.sgm.enabled n && s.sgm.portFault n) :=
  (if_neg (by omega)).trans (if_pos h2)

theorem bteFault_port {s : State} {id : Nat} (h : 0x40 ≤ id) : s.bteFault id = s.sgm.portFault (id - 0x40) :=
  (if_neg (by omega)).trans (if_neg (by omega))

theorem u_bteEntry (s : State) {r : Nat} (hr : r < 16) :
    u (s.bteEntry r) 4 8 = s.bte.trImp.getD r 0 / 100000 % 1000000000000 ∧
    u (s.bteEntry (16 + r)) 4 8 = s.bte.trExp.getD r 0 / 100000 % 1000000000000 ∧
    u (s.bteEntry (32 + r)) 4 8 = s.bte.trDc.getD r 0 / 100000 % 1000000000000 ∧
    u (s.bteEntry (48 + r)) 4 4 = (s.bte.mdImp.getD r (0, 0)).1 % 2 ^ 32 ∧
    u (s.bteEntry (64 + r)) 8 4 = (s.bte.mdDc.getD r (0, 0)).2 % 2 ^ 32 := by
  refine ⟨?_, ?_, ?_, ?_, ?_⟩
  · rw [bteEntry_energy (by omega), (u_regEntry ..).2, regVal_lt, if_pos (by omega)]
  · rw [bteEntry_energy (by omega), (u_regEntry ..).2, regVal_lt, if_neg (by omega), if_pos (by omega), Nat.add_sub_cancel_left]
  · rw [bteEntry_energy (by omega), (u_regEntry ..).2, regVal_lt, if_neg (by omega), if_neg (by omega), Nat.add_sub_cancel_left]
  · rw [bteEntry_demand (by omega), (u_mdEntry ..).1, if_pos (by omega), Nat.add_sub_cancel_left]
  · rw [bteEntry_demand (by omega), (u_mdEntry ..).2, if_neg (by omega), Nat.add_sub_cancel_left]

theorem account_spec (b : Bte) (p : Nat) (c : Calendar) : (b.cal = none → b.account p = 2) ∧
    (b.cal = some c → ((b.credit.getD p (0, 0)).1 ≤ 0 → b.account p = 2) ∧
      (0 < (b.credit.getD p (0, 0)).1 → (b.credit.getD p (0, 0)).1 ≤ c.creditLow → b.account p = 1) ∧
      (0 < (b.credit.getD p (0, 0)).1 → c.creditLow < (b.credit.getD p (0, 0)).1 → b.account p = 0)) := by
  unfold Bte.account
  refine ⟨fun h => by rw [h], fun h => ?_⟩
  rw [h]
  exact ⟨fun h => if_pos h, fun h1 h2 => (if_neg (by omega)).trans (if_pos h2), fun h1 h2 => (if_neg (by omega)).trans (if_neg (by omega))⟩

theorem account_le (b : Bte) (p : Nat) : b.account p ≤ 2 := by
  unfold Bte.account
  split
  · exact Nat.le_refl 2
  · dsimp only
    repeat' split
    all_goals decide

theorem creditRecord_eq (s : State) (p : Nat) : ∃ pre session, session.length = 8 ∧ s.creditRecord p =
    leS 4 (s.bte.credit.getD p (0, 0)).1 ++ le 1 (s.bte.account p) ++ le 1 pre ++ zeros 2 ++ session := by
  refine ⟨_, _, ?_, rfl⟩
  split <;> simp [zeros]

theorem u_creditRecord (s : State) (p : Nat) : (s.creditRecord p).length = 16 ∧ u (s.creditRecord p) 4 1 = s.bte.account p := by
  obtain ⟨pre, session, hlen, he⟩ := creditRecord_eq s p
  have ha : s.bte.account p % 256 = s.bte.account p := Nat.mod_eq_of_lt (by have := account_le s.bte p; omega)
  rw [he]
  refine ⟨by simp [leS, zeros, hlen], ?_⟩
  simp only [leS, List.append_assoc]
  simp (disch := decide) only [u_le_skip, u_le_zero, Nat.reduceSub]
  exact ha

/-! ### CALENDAR_WRITE (R353) -/

/-- The calendar that a buffer holds. -/
def calendarOf (b : List Byte) : Calendar := ⟨b.take 4096, (b.drop 4096).take 4096, (b.drop 8192).take 4096, u b 8 8⟩

/-- The time at which a calendar written comes into force. -/
def Bte.activates (b : Bte) (c : Calendar) : Calendar :=
  if c.activation = 0 then { c with activation := if b.off.isSome then (b.lTime / minuteUs + 1) * minuteUs else 0 } else c

/-- A calendar pending. -/
def State.calendarPending (c : Calendar) (n : Nat) (s : State) : State :=
  { s with bte := { s.bte with calNext := some c, nextCopies := (some c, some c) }, mss := { s.mss with ctrOper := n } }

theorem calendarWrite_sound {q : Sqe} {b : List Byte} {s : State} (h0 : crc32c (calendarOf b).t0 = u b 12288 4)
    (h1 : crc32c (calendarOf b).t1 = u b 12292 4) (h2 : crc32c (calendarOf b).t2 = u b 12296 4) (hbad : calBad (calendarOf b) [0, 1, 2] = none) :
    calendarWrite q b s = if !sigOk 0xB1 q false b s then (.plain stSIGNATURE_BAD 0, s)
    else (.plain stDONE (s.bte.activates (calendarOf b)).id,
      (s.calendarPending (s.bte.activates (calendarOf b)) (blockCounter b)).log 0x11 0
        (le 4 (s.bte.activates (calendarOf b)).id ++ le 8 (s.bte.activates (calendarOf b)).activation) (blockCounter b) false) := by
  have hgood : (List.range 3).filter (fun i => crc32c ((b.drop (4096 * i)).take 4096) == u b (12288 + 4 * i) 4) = [0, 1, 2] := by
    have h0' : crc32c ((b.drop 0).take 4096) = u b 12288 4 := h0
    have h1' : crc32c ((b.drop 4096).take 4096) = u b 12292 4 := h1
    have h2' : crc32c ((b.drop 8192).take 4096) = u b 12296 4 := h2
    simp only [List.range_eq_range', List.range', List.filter, Nat.reduceMul, Nat.reduceAdd, h0', h1', h2', beq_self_eq_true]
  unfold calendarWrite
  dsimp only
  rw [hgood]
  rw [show calBad ⟨(b.drop (4096 * 0)).take 4096, (b.drop (4096 * 1)).take 4096, (b.drop (4096 * 2)).take 4096, u b 8 8⟩ [0, 1, 2] = none from hbad]
  rfl

theorem activates_id (b : Bte) (c : Calendar) : (b.activates c).id = c.id := by
  unfold Bte.activates
  split <;> rfl

/-! ### CLOCK_SET (R354 to R356, R359) -/

/-- A setting of the clock that waits. -/
def State.stepWaits (x : ClockStep) (smalls : List (Nat × Nat)) (s : State) : State :=
  { s with bte := { s.bte with steps := s.bte.steps ++ [x], smalls := smalls }, mss := { s.mss with ctrOper := x.counter } }

theorem clockSet_first {q : Sqe} {b : List Byte} {s : State} (h : s.bte.clockOff = none) (hsig : sigOk 0xB2 q false b s = true) : ∃ data,
    clockSet q b s = (.plain stDONE 2,
      (s.stepWaits ⟨(sd64 q 6 : Int) - s.bte.up, 2, blockCounter b⟩ s.bte.smalls).log 0x13 0 data (blockCounter b) false) := by
  have hc : (s.counted false (blockCounter b)).bte.clockOff = none := h
  unfold clockSet
  rw [if_neg (by simp [hsig])]
  dsimp only
  rw [hc]
  exact ⟨_, rfl⟩

/-- The class of a setting by `d` µs. -/
def Bte.stepClass (b : Bte) (d : Int) : Nat :=
  if d.natAbs ≤ b.adjLimit * 1000000 ∧ d.natAbs + b.adjSum ≤ b.adjLimit * 1000000 then 0 else 1

theorem clockSet_later {q : Sqe} {b : List Byte} {s : State} {o : Int} (h : s.bte.clockOff = some o) (hsig : sigOk 0xB2 q false b s = true) :
    ∃ data smalls, clockSet q b s = (.plain stDONE (s.bte.stepClass ((sd64 q 6 : Int) - ((s.bte.up : Int) + o).toNat)),
      ((s.stepWaits ⟨(sd64 q 6 : Int) - s.bte.up, s.bte.stepClass ((sd64 q 6 : Int) - ((s.bte.up : Int) + o).toNat), blockCounter b⟩ smalls).log 0x13 0
        data (blockCounter b) false).bteEvent 6 (if s.bte.stepClass ((sd64 q 6 : Int) - ((s.bte.up : Int) + o).toNat) = 0 then 0x11 else 0x12)
          (ofInt 32 (((sd64 q 6 : Int) - ((s.bte.up : Int) + o).toNat).tdiv 1000000)) noSource) := by
  have hc : (s.counted false (blockCounter b)).bte.clockOff = some o := h
  have hcls : s.bte.stepClass ((sd64 q 6 : Int) - ((s.bte.up : Int) + o).toNat) ≠ 2 := by
    unfold Bte.stepClass
    split <;> decide
  have hfold (d : Int) : (if d.natAbs ≤ s.bte.adjLimit * 1000000 ∧ d.natAbs + s.bte.adjSum ≤ s.bte.adjLimit * 1000000 then 0 else 1) =
    s.bte.stepClass d := rfl
  unfold clockSet
  rw [if_neg (by simp [hsig])]
  dsimp only
  rw [hc]
  dsimp only
  rw [show (s.counted false (blockCounter b)).bte = s.bte from rfl, hfold, if_neg hcls]
  generalize s.bte.stepClass _ = k
  exact ⟨_, _, rfl⟩

end Sys2Proof.Machine
end
section
/-! PROOFS. The BTE commands answer (R353 to R356, R359, R372) -/

namespace Sys2Proof.Machine

open Sys2Proof

/-- A command of the Saggar whose work leaves the HQE alone, drives nothing and touches only BTE and MSS. -/
theorem served_of {q : Sqe} {a : SgAns} {s u : State} (h : OwnedAs q.fn q.sq (cidOf q) s)
    (hu : u = { s.entered q with bte := u.bte, mss := u.mss }) : SgAnswered q a.status a.result a.buf s (u.sgAnswered q a) ∧
    u.sgAnswered q a = { s with
      hqe := (u.sgAnswered q a).hqe, bte := (u.sgAnswered q a).bte, mss := (u.sgAnswered q a).mss, lnk := s.lnk.sessionFirst true
      out := (u.sgAnswered q a).out, cur := (u.sgAnswered q a).cur } := by
  have hhqe := congrArg State.hqe hu
  have hout := congrArg State.out hu
  refine ⟨answered_of h hhqe hout, ?_⟩
  rw [hu]
  rfl

/-- An entry of the ring logged: BTE stays as it is, MSS but for its log. -/
theorem logged_ring {kind : Nat} (hk : 0x10 ≤ kind) (source : Nat) (data : List Byte) (counter : Nat) (s v : State)
    (hv : v = { s with bte := v.bte, mss := v.mss }) :
    v.log kind source data counter false = { s with bte := (v.log kind source data counter false).bte, mss := (v.log kind source data counter false).mss } ∧
    (v.log kind source data counter false).bte = v.bte ∧ (v.log kind source data counter false).mss.logSeq = (v.mss.logSeq + 1) % 2 ^ 32 ∧
    (v.log kind source data counter false).mss.ctrOper = v.mss.ctrOper := by
  have hl := log_ring hk source data counter false v
  have hseq := (log_mss kind source data counter false v).1
  generalize v.log kind source data counter false = t at *
  have hbte := congrArg State.bte hl
  have hmss := congrArg (fun t : State => t.mss.ctrOper) hl
  refine ⟨?_, hbte, hseq, hmss⟩
  rw [hl, hv]

/-- Settles O17: the reads as legal answers, with what their entries hold; the two signed settings by what they leave in BTE and MSS. -/
theorem billingCommands : Obligations.BillingCommands := by
  refine ⟨?registers, ?entries, ?credit, ?record, ?intervals, ?calendar, ?clock, ?waiting⟩
  case registers =>
    intro q s ids h hid h1 h80 hlen hids
    subst hids
    exact answers_served rfl h (by simp [regReadParams, hlen, hid, h1, h80]) (legal_answers (g := id) h.1.2.1)
  case entries =>
    intro s r hr
    obtain ⟨h1, h2, h3, h4, h5⟩ := u_bteEntry s hr
    refine ⟨h1, h2, h3, h4, h5, fun id hid => ?_, ?_, ?_⟩
    · rw [bteEntry_flags, bteFault_ac]
      simp only [List.mem_cons, List.not_mem_nil, or_false] at hid
      omega
    · rw [bteEntry_flags, bteFault_all (by omega) (by omega)]
    · rw [bteEntry_flags, bteFault_port (by omega), Nat.add_sub_cancel_left]
  case credit =>
    intro q s h hlen
    exact answers_served rfl h (by simp [hlen]) (legal_answers (g := id) h.1.2.1)
  case record =>
    intro s p c
    obtain ⟨h1, h2⟩ := u_creditRecord s p
    exact ⟨h1, h2, account_spec s.bte p c⟩
  case intervals =>
    intro q s l h h1 h512 hlen hl
    have hcount : l.length < 2 ^ 32 := by
      rw [hl]
      exact Nat.lt_of_le_of_lt (List.length_take_le ..) (by omega)
    refine answers_served rfl h (by simp [hlen, h1, h512]) ?_
    subst hl
    refine ⟨_, ?_, legal_answers (g := id) h.1.2.1, ?_⟩
    · simp [zeros]
    · simp only [List.append_assoc]
      simp (disch := decide) only [u_le_skip, u_le_zero, Nat.reduceSub]
      exact Nat.mod_eq_of_lt hcount
  case calendar =>
    intro q b s c h hb hlen hc h0 h1 h2 hbad
    have hce : c = calendarOf b := hc
    subst hce
    have htake : b.take (sd q 4) = b := List.take_of_length_le (by omega)
    have he : exec (.calendarWrite q (.data b)) s = .next (sgReach 0xB1 q b [(b.length == 12396, 4, 0)] (calendarWrite q b) s.start) := by
      change Host.Outcome.next (sgReach 0xB1 q (b.take (sd q 4)) [((b.take (sd q 4)).length == 12396, 4, 0)] (calendarWrite q (b.take (sd q 4))) s.start) = _
      rw [htake]
    have hbody := calendarWrite_sound (q := q) (s := s.entered q) h0 h1 h2 hbad
    have hlogged := logged_ring (by decide : 0x10 ≤ 0x11) 0
      (le 4 ((s.entered q).bte.activates (calendarOf b)).id ++ le 8 ((s.entered q).bte.activates (calendarOf b)).activation) (blockCounter b)
      (s.entered q) ((s.entered q).calendarPending ((s.entered q).bte.activates (calendarOf b)) (blockCounter b)) rfl
    rw [activates_id] at hbody hlogged
    refine ⟨fun hact => answers_served he h (by simp [hb]) fun hsig => ?_, fun hact hoff => answers_served he h (by simp [hb]) fun hsig => ?_,
      fun hsig => answers_served he h (by simp [hb]) ?_⟩
    · rw [if_neg (by simp [sigOk_entered, hsig])] at hbody
      rw [hbody]
      obtain ⟨k1, k2, k3, k4⟩ := hlogged
      have hsame : (s.entered q).bte.activates (calendarOf b) = calendarOf b := if_neg hact
      obtain ⟨hans, hframe⟩ := served_of (a := .plain stDONE (calendarOf b).id) h.1.2.1 k1
      refine ⟨hans, k2.trans ?_, k4, k3, hframe⟩
      rw [hsame]
      rfl
    · rw [if_neg (by simp [sigOk_entered, hsig])] at hbody
      rw [hbody]
      obtain ⟨k1, k2, -, -⟩ := hlogged
      obtain ⟨hans, -⟩ := served_of (a := .plain stDONE (calendarOf b).id) h.1.2.1 k1
      have hnext : (s.entered q).bte.activates (calendarOf b) = { calendarOf b with activation := (s.bte.lTime / 60000000 + 1) * 60000000 } := by
        unfold Bte.activates
        rw [if_pos hact, if_pos (show (s.entered q).bte.off.isSome = true from hoff)]
        rfl
      have hn := congrArg Bte.calNext k2
      have hcal := congrArg Bte.cal k2
      exact ⟨hans, hn.trans (congrArg some hnext), hcal⟩
    · rw [if_pos (by simp [sigOk_entered, hsig])] at hbody
      rw [hbody]
      exact onlyAnswers h.1.2.1
  case clock =>
    intro q b s h hb hlen htime
    have htake : b.take (sd q 4) = b := List.take_of_length_le (by omega)
    have he : exec (.clockSet q (.data b)) s = .next (sgReach 0xB2 q b [(b.length == 96, 4, 0), (sd64 q 6 != timeUnknown, 6, 0)] (clockSet q b) s.start) := by
      change Host.Outcome.next (sgReach 0xB2 q (b.take (sd q 4)) [((b.take (sd q 4)).length == 96, 4, 0), (sd64 q 6 != timeUnknown, 6, 0)]
        (clockSet q (b.take (sd q 4))) s.start) = _
      rw [htake]
    have hp : ∀ p ∈ [(b.length == 96, 4, 0), (sd64 q 6 != timeUnknown, 6, 0)], p.1 = true := by simp [hb, htime]
    refine ⟨fun hfirst => answers_served he h hp fun hsig => ?_, fun o d ho hd => answers_served he h hp fun hsig => ?_,
      fun hsig => answers_served he h hp ?_⟩
    · obtain ⟨data, hbody⟩ := clockSet_first (q := q) (b := b) (s := s.entered q) hfirst hsig
      have hsteps : s.bte.steps = [] := by
        unfold Bte.clockOff at hfirst
        simpa using (Option.or_eq_none_iff.mp hfirst).2
      obtain ⟨k1, k2, -, k4⟩ := logged_ring (by decide : 0x10 ≤ 0x13) 0 data (blockCounter b) (s.entered q)
        ((s.entered q).stepWaits ⟨(sd64 q 6 : Int) - s.bte.up, 2, blockCounter b⟩ s.bte.smalls) rfl
      obtain ⟨hans, hframe⟩ := served_of (a := .plain stDONE 2) h.1.2.1 k1
      rw [hbody]
      refine ⟨hans, k2.trans ?_, k4, hframe⟩
      have hwaits (x : ClockStep) : ((s.entered q).stepWaits x s.bte.smalls).bte = { s.bte with steps := s.bte.steps ++ [x] } := rfl
      rw [hwaits, hsteps]
      rfl
    · obtain ⟨data, smalls, hbody⟩ := clockSet_later (q := q) (b := b) (s := s.entered q) ho hsig
      have hup : (s.entered q).bte.up = s.bte.up := rfl
      rw [hbody, hup, ← hd]
      have hcls : (s.entered q).bte.stepClass d = s.bte.stepClass d := rfl
      rw [hcls]
      have hclass : (s.bte.stepClass d = 0 ↔ d.natAbs ≤ s.bte.adjLimit * 1000000 ∧ d.natAbs + s.bte.adjSum ≤ s.bte.adjLimit * 1000000) ∧
          (s.bte.stepClass d = 0 ∨ s.bte.stepClass d = 1) ∧ (if s.bte.stepClass d = 0 then 0x11 else 0x12) = 0x11 + s.bte.stepClass d := by
        unfold Bte.stepClass
        split
        next h => exact ⟨iff_of_true rfl h, .inl rfl, rfl⟩
        next h => exact ⟨iff_of_false (by decide) h, .inr rfl, rfl⟩
      obtain ⟨-, k2, -, -⟩ := logged_ring (by decide : 0x10 ≤ 0x13) 0 data (blockCounter b) (s.entered q)
        ((s.entered q).stepWaits ⟨(sd64 q 6 : Int) - s.bte.up, s.bte.stepClass d, blockCounter b⟩ smalls) rfl
      obtain ⟨hiff, hor, hsub⟩ := hclass
      rw [hsub]
      generalize s.bte.stepClass d = k at *
      have hev := bteEvent_bte 6 (0x11 + k) (ofInt 32 (d.tdiv 1000000)) noSource
        (((s.entered q).stepWaits ⟨(sd64 q 6 : Int) - s.bte.up, k, blockCounter b⟩ smalls).log 0x13 0 data (blockCounter b) false)
      generalize ((s.entered q).stepWaits ⟨(sd64 q 6 : Int) - s.bte.up, k, blockCounter b⟩ smalls).log 0x13 0 data (blockCounter b) false = v at *
      have e1 := congrArg Bte.steps hev
      have e2 := congrArg Bte.off hev
      have e3 := congrArg Bte.lastEvent hev
      have f1 := congrArg Bte.steps k2
      have f2 := congrArg Bte.off k2
      obtain ⟨f, hf, hcid, -, hst, hres⟩ := answered_mem q (.plain stDONE k) (v.bteEvent 6 (0x11 + k) (ofInt 32 (d.tdiv 1000000)) noSource)
      exact ⟨⟨⟨(sd64 q 6 : Int) - s.bte.up, k, blockCounter b⟩, e1.trans f1, rfl, hiff, hor, ⟨f, hf, hst, hres, hcid⟩, e3⟩, e2.trans f2⟩
    · have hbody : clockSet q b (s.entered q) = (.plain stSIGNATURE_BAD 0, s.entered q) := by
        unfold clockSet
        rw [if_pos (by simp [sigOk_entered, hsig])]
      rw [hbody]
      exact onlyAnswers h.1.2.1
  case waiting =>
    intro q b s hup hruns hrest
    exact ⟨fun h => answers_waits rfl h hup hruns hrest, fun h => answers_waits rfl h hup hruns hrest, fun h => answers_waits rfl h hup hruns hrest,
      fun h => answers_waits rfl h hup hruns hrest, fun h => answers_waits rfl h hup hruns hrest, fun h => answers_waits rfl h hup hruns hrest⟩

end Sys2Proof.Machine
end
section
/-! PROOFS. Tokens (R365 to R370) -/

namespace Sys2Proof.Machine

open Sys2Proof

/-! ### A token refused -/

/-- What a refused token leaves of BTE. -/
theorem tokenFail_spec (kp r : Nat) (counted : Bool) (s : State) : (s.tokenFail kp r counted).1 = (stTOKEN_REJECT, r) ∧
    (∃ e, (s.tokenFail kp r counted).2.bte = { s.bte with
      lastEvent := e, fails := if counted then put kp ((s.bte.up :: s.bte.recent kp).take 5) s.bte.fails else s.bte.fails } ∧
      (counted = false → e = some (kp % 256, 2, r % 256))) ∧
    (∀ {α : Type} (φ : SgLink → α), (∀ l x, φ { l with heldPf1 := x } = φ l) → φ (s.tokenFail kp r counted).2.lnk = φ s.lnk) := by
  have hev := bteEvent_bte 5 0x02 r kp s
  have hlnk {α : Type} (φ : SgLink → α) (h : ∀ l x, φ { l with heldPf1 := x } = φ l) : φ (s.bteEvent 5 0x02 r kp).lnk = φ s.lnk := bteEvent_lnk h ..
  cases counted
  · refine ⟨rfl, ⟨_, hev, fun _ => rfl⟩, hlnk⟩
  · have hadd : ((s.bteEvent 5 0x02 r kp).onBte (fun b => { b with fails := put kp ((b.up :: b.recent kp).take 5) b.fails })).bte = { s.bte with
        lastEvent := some (kp % 256, 2, r % 256), fails := put kp ((s.bte.up :: s.bte.recent kp).take 5) s.bte.fails } := by
      unfold State.onBte
      dsimp only
      rw [hev]
      rfl
    have hsame {α : Type} (φ : SgLink → α) : φ ((s.bteEvent 5 0x02 r kp).onBte (fun b => { b with fails := put kp ((b.up :: b.recent kp).take 5) b.fails })).lnk =
        φ (s.bteEvent 5 0x02 r kp).lnk := rfl
    have he : (s.tokenFail kp r true).2 = if ((s.bteEvent 5 0x02 r kp).onBte (fun b => { b with fails := put kp ((b.up :: b.recent kp).take 5) b.fails })).bte.locked kp
        then ((s.bteEvent 5 0x02 r kp).onBte (fun b => { b with fails := put kp ((b.up :: b.recent kp).take 5) b.fails })).bteEvent 5 0x03
          (((s.bteEvent 5 0x02 r kp).onBte (fun b => { b with fails := put kp ((b.up :: b.recent kp).take 5) b.fails })).bte.minutesLeft kp) kp
        else (s.bteEvent 5 0x02 r kp).onBte (fun b => { b with fails := put kp ((b.up :: b.recent kp).take 5) b.fails }) := rfl
    generalize (s.bteEvent 5 0x02 r kp).onBte (fun b => { b with fails := put kp ((b.up :: b.recent kp).take 5) b.fails }) = u at *
    rw [he]
    split
    · refine ⟨rfl, ⟨some (kp % 256, 3, u.bte.minutesLeft kp % 256), ?_, fun h => absurd h nofun⟩, fun φ h => ?_⟩
      · rw [bteEvent_bte, hadd]
        rfl
      · exact (bteEvent_lnk h ..).trans ((hsame φ).trans (hlnk φ h))
    · exact ⟨rfl, ⟨_, hadd, fun h => absurd h nofun⟩, fun φ h => (hsame φ).trans (hlnk φ h)⟩

/-! ### A token accepted -/

/-- BTE behind a token accepted that carries credit. -/
def Bte.credited (kp port id v : Nat) (b : Bte) : Bte :=
  { b.mark id with
    credit := upd b.credit port (fun a => (a.1 + v, a.2)), lastEvent := some (kp % 256, 1, id % 256)
    spent := nvPut Spent.bytes ⟨upd b.credit port (fun a => (a.1 + v, a.2)), (b.mark id).lwm, (b.mark id).used⟩ b.spent }

theorem tokenAccept_credit (kp port id v : Nat) (s : State) : (s.tokenAccept kp port 0 id v).1 = (stDONE, id) ∧
    (s.tokenAccept kp port 0 id v).2.bte = s.bte.credited kp port id v ∧
    MssLogged s.mss (s.tokenAccept kp port 0 id v).2.mss := by
  have hlog (k a : Nat) (d : List Byte) (u : State) : (u.log k a d 0 false).bte = u.bte ∧ MssLogged u.mss (u.log k a d 0 false).mss :=
    ⟨log_part (π := .bte) (by simp) .., (log_mss ..).2⟩
  have hev := bteEvent_bte 5 0x01 id kp ((s.onBte (Bte.mark id)).onBte (fun b => { b with credit := upd b.credit port (fun a => (a.1 + v, a.2)) }))
  have hmss : (((s.onBte (Bte.mark id)).onBte (fun b => { b with credit := upd b.credit port (fun a => (a.1 + v, a.2)) })).bteEvent 5 0x01 id kp).mss = s.mss :=
    bteEvent_part (π := .mss) (by simp) ..
  unfold State.tokenAccept
  dsimp only
  rw [if_pos rfl]
  generalize ((s.onBte (Bte.mark id)).onBte (fun b => { b with credit := upd b.credit port (fun a => (a.1 + v, a.2)) })).bteEvent 5 0x01 id kp = u at *
  obtain ⟨h1, h2⟩ := hlog 0x14 (if kp = 255 then 0 else 1) (le 1 kp ++ le 1 port ++ le 1 0 ++ le 4 id ++ le 8 v)
    (u.onBte (fun b => { b with spent := nvPut Spent.bytes ⟨b.credit, b.lwm, b.used⟩ b.spent }))
  refine ⟨rfl, h1.trans ?_, by rw [← hmss]; exact h2⟩
  change ({ u.bte with spent := nvPut Spent.bytes ⟨u.bte.credit, u.bte.lwm, u.bte.used⟩ u.bte.spent } : Bte) = _
  rw [hev]
  rfl

theorem mark_spec (id : Nat) (b : Bte) : (b.mark id).used.contains id = true ∧ b.lwm ≤ (b.mark id).lwm ∧
    (b.mark id) = { b with lwm := (b.mark id).lwm, used := (b.mark id).used } := by
  unfold Bte.mark
  dsimp only
  refine ⟨by simp, ?_, rfl⟩
  split <;> omega

theorem nvSpent_put {b : Bte} {x : Spent} {p : Option (NvSlot Spent) × Option (NvSlot Spent)} (h : b.spent = nvPut Spent.bytes x p) : b.nvSpent = x := by
  obtain ⟨y, hy, hc⟩ := nvNewest_nvPut Spent.bytes x p
  unfold Bte.nvSpent
  rw [h, hy]
  exact hc

theorem credited_spec {port : Nat} {b : Bte} (hl : port < b.credit.length) (kp id v : Nat) :
    ((b.credited kp port id v).credit.getD port (0, 0)).1 = (b.credit.getD port (0, 0)).1 + v ∧
    (∀ p, p ≠ port → (b.credited kp port id v).credit.getD p (0, 0) = b.credit.getD p (0, 0)) ∧
    (b.credited kp port id v).used.contains id = true ∧ b.lwm ≤ (b.credited kp port id v).lwm ∧
    (b.credited kp port id v).lastEvent = some (kp % 256, 1, id % 256) ∧
    (b.credited kp port id v).nvSpent = ⟨(b.credited kp port id v).credit, (b.credited kp port id v).lwm, (b.credited kp port id v).used⟩ ∧
    (b.credited kp port id v).up = b.up ∧ (b.credited kp port id v).fails = b.fails ∧ (b.credited kp port id v).cal = b.cal := by
  obtain ⟨h1, h2, h3⟩ := mark_spec id b
  have hup := congrArg Bte.up h3
  have hfails := congrArg Bte.fails h3
  have hcal := congrArg Bte.cal h3
  refine ⟨congrArg Prod.fst (getD_upd_self _ _ hl), fun p hp => getD_upd_of_ne hp .., h1, h2, rfl, nvSpent_put rfl, hup, hfails, hcal⟩

/-! ### The checks of R367 -/

theorem token_locked {kp port : Nat} {d : List Nat} {s : State} (h : s.bte.locked kp = true) :
    s.token kp port d = ((stLOCKED_OUT, s.bte.minutesLeft kp), s) := if_pos h

theorem token_closed {port : Nat} {d : List Nat} {s : State} (hl : s.bte.locked 255 = false) (h : s.prepaidEnabled port = false) :
    s.token 255 port d = s.tokenFail 255 7 false := by
  unfold State.token
  rw [if_neg (by simp [hl]), if_pos rfl]
  exact if_pos (.inr h)

theorem prepaid_lt {port : Nat} {s : State} (h : s.prepaidEnabled port = true) : port ≠ 0xFF := by
  unfold State.prepaidEnabled at h
  split at h
  · exact absurd h nofun
  · simp only [Bool.and_eq_true, decide_eq_true_eq] at h
    omega

/-- The number that a token's digits spell. -/
def tokenNumber (d : List Nat) : Nat := d.foldl (fun a x => a * 10 + (x - 0x30)) 0

theorem token_digits {port : Nat} {d : List Nat} {s : State} (hl : s.bte.locked 255 = false) (hp : s.prepaidEnabled port = true) (hlen : d.length = 20)
    (h : ∃ x ∈ d, x < 0x30 ∨ 0x39 < x) : s.token 255 port d = s.tokenFail 255 1 true := by
  have hany : d.any (fun x => x < 0x30 || 0x39 < x) = true := by
    obtain ⟨x, hx, hb⟩ := h
    exact List.any_eq_true.mpr ⟨x, hx, by simpa using hb⟩
  unfold State.token
  rw [if_neg (by simp [hl]), if_pos rfl]
  dsimp only
  rw [if_neg (by rintro (h | h); exacts [prepaid_lt hp h, absurd (hp.symm.trans h) (by decide)]), List.take_of_length_le (Nat.le_of_eq hlen)]
  exact if_pos (.inr (.inl hany))

section good
variable {port : Nat} {d : List Nat} {s : State} {key : List Byte} (hl : s.bte.locked 255 = false) (hp : s.prepaidEnabled port = true)
  (hlen : d.length = 20) (hd : ∀ x ∈ d, 0x30 ≤ x ∧ x ≤ 0x39) (hn : tokenNumber d < 2 ^ 66) (hkey : s.mss.token = some key)
  (hmac : tokenNumber d % 2 ^ 20 = tokenMac key s.mss.serial.toNat (tokenNumber d)) (hcls : tokenNumber d / 2 ^ 64 = 0)
include hl hp hlen hd hn hkey hmac hcls

/-- A token of class 0 with a good code, from the check of its number on. -/
theorem token_coded : s.token 255 port d =
    if tokenNumber d / 2 ^ 40 % 2 ^ 24 < s.bte.lwm ∨ s.bte.used.contains (tokenNumber d / 2 ^ 40 % 2 ^ 24) = true then s.tokenFail 255 4 true
    else if tokenNumber d / 2 ^ 64 = 0 ∧ 9 < tokenNumber d / 2 ^ 20 % 16 then s.tokenFail 255 5 true
    else if tokenNumber d / 2 ^ 64 = 0 ∧ 2147483647 < (s.bte.credit.getD port (0, 0)).1 +
      ((tokenNumber d / 2 ^ 24 % 65536 * 10 ^ (tokenNumber d / 2 ^ 20 % 16) : Nat) : Int) then s.tokenFail 255 6 false
    else s.tokenAccept 255 port (tokenNumber d / 2 ^ 64) (tokenNumber d / 2 ^ 40 % 2 ^ 24)
      (tokenNumber d / 2 ^ 24 % 65536 * 10 ^ (tokenNumber d / 2 ^ 20 % 16)) := by
  have hany : ¬ d.any (fun x => x < 0x30 || 0x39 < x) = true := by
    rw [List.any_eq_true]
    rintro ⟨x, hx, hb⟩
    have := hd x hx
    simp only [Bool.or_eq_true, decide_eq_true_eq] at hb
    omega
  unfold State.token
  rw [if_neg (by simp [hl]), if_pos rfl]
  dsimp only
  rw [if_neg (by rintro (h | h); exacts [prepaid_lt hp h, absurd (hp.symm.trans h) (by decide)]), List.take_of_length_le (Nat.le_of_eq hlen)]
  rw [show d.foldl (fun a x => a * 10 + (x - 0x30)) 0 = tokenNumber d from rfl]
  rw [if_neg (by rintro (h | h | h); exacts [absurd h (by omega), hany h, absurd hn (Nat.not_lt.mpr h)]), hkey]
  dsimp only
  rw [if_neg (fun h => h hmac), if_neg (by omega)]

theorem token_accepted (hlwm : s.bte.lwm ≤ tokenNumber d / 2 ^ 40 % 2 ^ 24) (hused : s.bte.used.contains (tokenNumber d / 2 ^ 40 % 2 ^ 24) = false)
    (hsc : tokenNumber d / 2 ^ 20 % 16 ≤ 9)
    (hsum : (s.bte.credit.getD port (0, 0)).1 + ((tokenNumber d / 2 ^ 24 % 65536 * 10 ^ (tokenNumber d / 2 ^ 20 % 16) : Nat) : Int) ≤ 2147483647) :
    s.token 255 port d = s.tokenAccept 255 port 0 (tokenNumber d / 2 ^ 40 % 2 ^ 24)
      (tokenNumber d / 2 ^ 24 % 65536 * 10 ^ (tokenNumber d / 2 ^ 20 % 16)) := by
  rw [token_coded hl hp hlen hd hn hkey hmac hcls, if_neg, if_neg, if_neg, hcls]
  · exact fun h => absurd h.2 (Int.not_lt.mpr hsum)
  · exact fun h => absurd h.2 (by omega)
  · rintro (h | h)
    · omega
    · exact absurd (hused.symm.trans h) (by decide)

theorem token_used (hused : s.bte.used.contains (tokenNumber d / 2 ^ 40 % 2 ^ 24) = true) : s.token 255 port d = s.tokenFail 255 4 true :=
  (token_coded hl hp hlen hd hn hkey hmac hcls).trans (if_pos (.inr hused))

end good

end Sys2Proof.Machine
end
section
/-! PROOFS. Tokens at the keypads and through the Belfry (R365 to R370) -/

namespace Sys2Proof.Machine

open Sys2Proof

/-! ### What any token leaves -/

/-- What no token touches, and what a refused one leaves. -/
structure Tokened (s : State) (r : (Nat × Nat) × State) : Prop where
  clock : r.2.bte.lTime = s.bte.lTime
  link : ∀ {α : Type} (φ : SgLink → α), (∀ l x, φ { l with heldPf1 := x } = φ l) → φ r.2.lnk = φ s.lnk
  credit : r.1.1 ≠ stDONE → r.2.bte.credit = s.bte.credit

theorem tokened_same (x : Nat × Nat) (s : State) : Tokened s (x, s) := ⟨rfl, fun _ _ => rfl, fun _ => rfl⟩

theorem tokenFail_tokened (kp r : Nat) (counted : Bool) (s : State) : Tokened s (s.tokenFail kp r counted) := by
  obtain ⟨-, ⟨e, he, -⟩, hl⟩ := tokenFail_spec kp r counted s
  refine ⟨?_, hl, fun _ => ?_⟩
  · rw [he]
    rfl
  · rw [he]

theorem tokenAccept_tokened (kp port cls id v : Nat) (s : State) : Tokened s (s.tokenAccept kp port cls id v) := by
  have hmark := (mark_spec id s.bte).2.2
  have htime : (s.bte.mark id).lTime = s.bte.lTime := by
    rw [hmark]
    rfl
  have hlog (k a : Nat) (d : List Byte) (hk : 0x10 ≤ k) (u : State) : (u.log k a d 0 false).bte = u.bte ∧ (u.log k a d 0 false).lnk = u.lnk := by
    have h := log_ring hk a d 0 false u
    have hbte := congrArg State.bte h
    have hlnk := congrArg State.lnk h
    exact ⟨hbte, hlnk⟩
  have hpaid {u : State} (hu : u.bte.lTime = s.bte.lTime) (hul : u.lnk = s.lnk) : Tokened s ((stDONE, id),
      (((u.bteEvent 5 0x01 id kp).onBte (fun b => { b with spent := nvPut Spent.bytes ⟨b.credit, b.lwm, b.used⟩ b.spent })).log 0x14
        (if kp = 255 then 0 else 1) (le 1 kp ++ le 1 port ++ le 1 cls ++ le 4 id ++ le 8 v) 0 false)) := by
    have hev := bteEvent_bte 5 0x01 id kp u
    have hel {α : Type} (φ : SgLink → α) (h : ∀ l x, φ { l with heldPf1 := x } = φ l) : φ (u.bteEvent 5 0x01 id kp).lnk = φ u.lnk := bteEvent_lnk h ..
    generalize u.bteEvent 5 0x01 id kp = w at *
    obtain ⟨h1, h2⟩ := hlog 0x14 (if kp = 255 then 0 else 1) (le 1 kp ++ le 1 port ++ le 1 cls ++ le 4 id ++ le 8 v) (by decide)
      (w.onBte (fun b => { b with spent := nvPut Spent.bytes ⟨b.credit, b.lwm, b.used⟩ b.spent }))
    refine ⟨?_, fun φ h => ?_, fun h => absurd rfl h⟩
    · dsimp only
      rw [h1]
      change w.bte.lTime = s.bte.lTime
      rw [hev]
      exact hu
    · dsimp only
      rw [h2, ← hul]
      exact hel φ h
  unfold State.tokenAccept
  dsimp only
  refine hpaid ?_ ?_
  · split
    · exact htime
    · split
      · exact htime
      · exact htime
  · split
    · rfl
    · split <;> rfl

theorem token_tokened (kp port : Nat) (d : List Nat) (s : State) : Tokened s (s.token kp port d) := by
  unfold State.token
  dsimp only
  split
  · exact tokened_same ..
  · generalize (if kp = 255 then port else _) = port
    split
    · exact tokenFail_tokened ..
    · split
      · exact tokenFail_tokened ..
      · split
        · exact tokened_same ..
        · repeat' (split; exact tokenFail_tokened ..)
          exact tokenAccept_tokened ..

theorem token_sgm (kp port : Nat) (d : List Nat) (s : State) : (s.token kp port d).2.sgm = s.sgm := token_part (π := .sgm) (by simp) ..

theorem token_mss_kept (kp r : Nat) (counted : Bool) (s : State) : (s.tokenFail kp r counted).2.mss = s.mss := tokenFail_part (π := .mss) (by simp) ..

/-! ### The end of a lock-out (R370) -/

theorem recent_of_look {b : Bte} {kp : Nat} {l : List Nat} (h : look kp b.fails = some l) :
    b.recent kp = l.filter (fun x => decide (b.up < x + 3600000000)) := by
  unfold Bte.recent
  rw [h]
  rfl

theorem lockoutEnd_free {kp : Nat} {s : State} {l : List Nat} (h : look kp s.bte.fails = some l) (hlen : l.length ≤ 5)
    (hold : l.getD 4 0 + 3600000000 ≤ s.bte.up) : s.bte.locked kp = false ∧ (l.filter (fun x => decide (s.bte.up < x + 3600000000))).length < 5 := by
  have hlt : (l.filter (fun x => decide (s.bte.up < x + 3600000000))).length < 5 := by
    by_contra hn
    have hle := List.length_filter_le (fun x => decide (s.bte.up < x + 3600000000)) l
    have hall : l.filter (fun x => decide (s.bte.up < x + 3600000000)) = l := List.filter_eq_self.mpr
      (List.length_filter_eq_length_iff.mp (by omega))
    have h4 : 4 < l.length := by rw [hall] at hn; omega
    have hmem : l.getD 4 0 ∈ l.filter (fun x => decide (s.bte.up < x + 3600000000)) := by
      rw [hall, List.getD_eq_getElem _ _ h4]
      exact List.getElem_mem h4
    have := of_decide_eq_true (List.mem_filter.mp hmem).2
    omega
  refine ⟨?_, hlt⟩
  unfold Bte.locked
  rw [recent_of_look h]
  exact decide_eq_false (by omega)

/-- Settles O18: the tokens from what the checks of R367 leave, the keypads' and the Belfry's answers from what no token touches. -/
theorem tokens : Obligations.Tokens := by
  refine ⟨?accepted, ?refused, ?keypad, ?relayed, ?restarting, ?lockout⟩
  case accepted =>
    intro q s d n id v key h hport hd hn hcredit hl hp hdigits hlt hkey hmac hid hlwm hused hv hcls hsc hsum
    have hlen : d.length = 20 := by
      rw [hd, List.length_map]
      simp [sdBytes]
    subst hn hid hv
    refine answers_served rfl h (by simp [hport]) ?_
    have htoken := token_accepted (s := s.entered q) hl hp hlen hdigits hlt hkey hmac hcls hlwm hused hsc hsum
    obtain ⟨hans, hbte, hmss⟩ := tokenAccept_credit 255 (sd q 1) (tokenNumber d / 2 ^ 40 % 2 ^ 24)
      (tokenNumber d / 2 ^ 24 % 65536 * 10 ^ (tokenNumber d / 2 ^ 20 % 16)) (s.entered q)
    have hsgm := token_sgm 255 (sd q 1) d (s.entered q)
    rw [← htoken] at hans hbte hmss
    have hbody : tokenEnter q (s.entered q) = (.plain ((s.entered q).token 255 (sd q 1) d).1.1 ((s.entered q).token 255 (sd q 1) d).1.2,
        ((s.entered q).token 255 (sd q 1) d).2) := by
      unfold tokenEnter
      rw [← hd]
    rw [hbody, hans]
    generalize ((s.entered q).token 255 (sd q 1) d).2 = u at *
    obtain ⟨c1, c2, c3, c4, c5, c6, c7, c8, c9⟩ := credited_spec (b := (s.entered q).bte) (port := sd q 1) (by
      change sd q 1 < s.bte.credit.length
      rw [hcredit]
      exact hport) 255 (tokenNumber d / 2 ^ 40 % 2 ^ 24) (tokenNumber d / 2 ^ 24 % 65536 * 10 ^ (tokenNumber d / 2 ^ 20 % 16))
    rw [← hbte] at c1 c2 c3 c4 c5 c6 c7 c8 c9
    have hmem := answered_mem q (.plain stDONE (tokenNumber d / 2 ^ 40 % 2 ^ 24)) u
    refine ⟨hmem, c1, c2, c3, c4, c5, c6, fun q' h' hq1 hqd => ?_⟩
    generalize hw : u.sgAnswered q (.plain stDONE (tokenNumber d / 2 ^ 40 % 2 ^ 24)) = w at *
    have hwb : w.bte = u.bte := by rw [← hw]; rfl
    have hwm : w.mss = u.mss := by rw [← hw]; rfl
    have hws : w.sgm = s.sgm := by rw [← hw]; exact hsgm
    refine answers_served rfl h' (by simp [hq1, hport]) ?_
    have hl' : (w.entered q').bte.locked 255 = false := by
      change w.bte.locked 255 = false
      rw [hwb]
      unfold Bte.locked Bte.recent at hl ⊢
      rw [c7, c8]
      exact hl
    have hp' : (w.entered q').prepaidEnabled (sd q 1) = true := by
      unfold State.prepaidEnabled at hp ⊢
      change (match w.bte.cal with
        | none => false
        | some c => sd q 1 < 16 && c.prepaid (sd q 1) && w.sgm.enabled (sd q 1)) = true
      rw [hwb, c9, hws]
      exact hp
    have hkey' : (w.entered q').mss.token = some key := by
      change w.mss.token = some key
      rw [hwm, hmss.eq]
      exact hkey
    have hserial : (w.entered q').mss.serial = s.mss.serial := by
      change w.mss.serial = s.mss.serial
      rw [hwm, hmss.eq]
      rfl
    have hused' : (w.entered q').bte.used.contains (tokenNumber d / 2 ^ 40 % 2 ^ 24) = true := by
      change w.bte.used.contains _ = true
      rw [hwb]
      exact c3
    have htoken' := token_used (s := w.entered q') hl' hp' hlen hdigits hlt hkey' (by rw [hserial]; exact hmac) hcls hused'
    obtain ⟨f1, ⟨e, f2, -⟩, -⟩ := tokenFail_spec 255 4 true (w.entered q')
    rw [← htoken'] at f1 f2
    have hbody' : tokenEnter q' (w.entered q') = (.plain ((w.entered q').token 255 (sd q 1) d).1.1 ((w.entered q').token 255 (sd q 1) d).1.2,
        ((w.entered q').token 255 (sd q 1) d).2) := by
      unfold tokenEnter
      rw [hq1, hqd, ← hd]
    rw [hbody', f1]
    generalize ((w.entered q').token 255 (sd q 1) d).2 = x at *
    have g1 := congrArg Bte.credit f2
    have g2 := congrArg Bte.used f2
    exact ⟨g1, g2, answered_mem q' (.plain stTOKEN_REJECT 4) x⟩
  case refused =>
    intro q s h hport
    refine ⟨fun hl => answers_served rfl h (by simp [hport]) ?_, fun hl hp => answers_served rfl h (by simp [hport]) ?_,
      fun hl hp hbad => answers_served rfl h (by simp [hport]) ?_⟩
    · have hbody : tokenEnter q (s.entered q) = (.plain stLOCKED_OUT (s.bte.minutesLeft 255), s.entered q) := by
        unfold tokenEnter
        rw [token_locked (s := s.entered q) hl]
        rfl
      rw [hbody]
      exact onlyAnswers h.1.2.1
    · have hbody : tokenEnter q (s.entered q) = (.plain ((s.entered q).tokenFail 255 7 false).1.1 ((s.entered q).tokenFail 255 7 false).1.2,
          ((s.entered q).tokenFail 255 7 false).2) := by
        unfold tokenEnter
        rw [token_closed (s := s.entered q) hl hp]
      obtain ⟨f1, ⟨e, f2, f3⟩, -⟩ := tokenFail_spec 255 7 false (s.entered q)
      rw [hbody, f1]
      generalize ((s.entered q).tokenFail 255 7 false).2 = u at *
      obtain ⟨f, hf, hcid, -, hst, hres⟩ := answered_mem q (.plain stTOKEN_REJECT 7) u
      refine ⟨⟨f, hf, hcid, hst, hres⟩, f2.trans ?_⟩
      rw [f3 rfl]
      rfl
    · have hlen : ((sdBytes q 6 5).map BitVec.toNat).length = 20 := by
        rw [List.length_map]
        simp [sdBytes]
      have hbody : tokenEnter q (s.entered q) = (.plain ((s.entered q).tokenFail 255 1 true).1.1 ((s.entered q).tokenFail 255 1 true).1.2,
          ((s.entered q).tokenFail 255 1 true).2) := by
        unfold tokenEnter
        rw [token_digits (s := s.entered q) hl hp hlen hbad]
      obtain ⟨f1, ⟨e, f2, -⟩, -⟩ := tokenFail_spec 255 1 true (s.entered q)
      rw [hbody, f1]
      generalize ((s.entered q).tokenFail 255 1 true).2 = u at *
      have g1 := congrArg Bte.credit f2
      have g2 := congrArg Bte.used f2
      have g3 := congrArg Bte.lwm f2
      have g4 := congrArg Bte.fails f2
      obtain ⟨f, hf, hcid, -, hst, hres⟩ := answered_mem q (.plain stTOKEN_REJECT 1) u
      exact ⟨⟨f, hf, hcid, hst, hres⟩, g1, g2, g3, g4⟩
  case keypad =>
    intro digits s hb
    have ht := token_tokened 0 0xFF digits s.start
    have hsgm := token_sgm 0 0xFF digits s.start
    have he : keypadToken digits s.start = (s.start.token 0 0xFF digits).2.took.emit (.uart 0
        ((if (s.start.token 0 0xFF digits).1.1 = stDONE then [0x41] ++ (if (s.start.token 0 0xFF digits).2.wholeUnits 0 < 0 then [0x2D] else []) ++
            decAscii 1 ((s.start.token 0 0xFF digits).2.wholeUnits 0).natAbs
          else [0x52] ++ reasonDigits (s.start.token 0 0xFF digits).1.1 (s.start.token 0 0xFF digits).1.2 s.start.free) ++ [0x0D])) :=
      if_neg (by rw [show s.start.bteRuns = s.bteRuns from rfl, hb]; decide)
    refine ⟨_, congrArg Host.Outcome.next he, ?_⟩
    generalize s.start.token 0 0xFF digits = r at *
    refine ⟨_, List.mem_append_right _ (List.mem_singleton.mpr rfl), fun hdone => ?_, fun hn => ?_, rfl, hsgm⟩
    · rw [if_pos hdone]
      exact ⟨_, rfl⟩
    · rw [if_neg hn]
      exact ⟨_, rfl, ht.credit hn⟩
  case relayed =>
    intro s s1 r node hold digits rest hb hin hs1 hr
    have he : relayedToken s.start = r.2.onLnk (fun l => { l with toSt := l.toSt ++ [(.tokenAnswer node (if r.1.1 = stDONE then
        2 ^ 24 + ofInt 24 (r.2.wholeUnits node) else 2 * 2 ^ 24 + r.1.2 % 2 ^ 24), r.2.bte.lTime)] }) := by
      unfold relayedToken
      rw [show s.start.bteRuns = s.bteRuns from rfl, hb, show s.start.lnk = s.lnk from rfl, hin, hr, hs1]
    refine ⟨_, congrArg Host.Outcome.next he, ?_⟩
    have ht := token_tokened node 0xFF digits s1
    have hsgm := token_sgm node 0xFF digits s1
    rw [← hr] at ht hsgm
    have hclock : r.2.bte.lTime = s.bte.lTime := ht.clock.trans (by rw [hs1]; rfl)
    have hinSg : r.2.lnk.inSg = rest := (ht.link SgLink.inSg (by exact fun _ _ => rfl)).trans (by rw [hs1]; rfl)
    have htoSt : r.2.lnk.toSt = s.lnk.toSt := (ht.link SgLink.toSt (by exact fun _ _ => rfl)).trans (by rw [hs1]; rfl)
    refine ⟨rfl, rfl, hsgm.trans (by rw [hs1]; rfl), hinSg, ?_⟩
    rw [← hclock, ← htoSt]
    rfl
  case restarting =>
    intro digits s hr
    have hb : s.start.bteRuns = false := by
      unfold State.bteRuns
      rw [show s.start.mss = s.mss from rfl, hr]
      exact Bool.and_false _
    refine ⟨⟨_, congrArg Host.Outcome.next (if_pos (by rw [hb]; rfl)), rfl⟩, ⟨_, congrArg Host.Outcome.next ?_, rfl⟩⟩
    unfold relayedToken
    rw [hb]
    rfl
  case lockout =>
    intro kp s l hlook
    have hrecent : s.bte.recent kp = l.filter (fun x => decide (s.bte.up < x + 3600000000)) := recent_of_look hlook
    refine ⟨fun hlen hold => ?_, fun hlen hall => ?_⟩
    · obtain ⟨hfree, hlt⟩ := lockoutEnd_free hlook hlen hold
      have he : lockoutEnd kp s.start = s.start.onBte (fun b => { b with fails := put kp (s.bte.recent kp) b.fails }) := by
        change ({ s.start with bte := if s.bte.locked kp then s.bte else { s.bte with fails := put kp (s.bte.recent kp) s.bte.fails } } : State) = _
        rw [if_neg (by simp [hfree])]
        rfl
      refine ⟨_, congrArg Host.Outcome.next he, ?_, ?_, rfl⟩
      · have hlook' : look kp (put kp (s.bte.recent kp) s.bte.fails) = some (s.bte.recent kp) := look_put_self ..
        have hr := recent_of_look (b := { s.bte with fails := put kp (s.bte.recent kp) s.bte.fails }) hlook'
        refine decide_eq_false (Nat.not_le.mpr ?_)
        change (({ s.bte with fails := put kp (s.bte.recent kp) s.bte.fails } : Bte).recent kp).length < 5
        rw [hr]
        refine Nat.lt_of_le_of_lt (List.length_filter_le ..) ?_
        rw [hrecent]
        exact hlt
      · exact (look_put_self ..).trans (congrArg some hrecent)
    · have hlocked : s.bte.locked kp = true := by
        unfold Bte.locked
        rw [hrecent, List.filter_eq_self.mpr (fun x hx => decide_eq_true (hall x hx)), hlen]
        rfl
      refine ⟨s.start, congrArg Host.Outcome.next ?_, hlocked, rfl⟩
      change ({ s.start with bte := if s.bte.locked kp then s.bte else { s.bte with fails := put kp (s.bte.recent kp) s.bte.fails } } : State) = _
      rw [if_pos hlocked]
      rfl

end Sys2Proof.Machine
end
section
/-! PROOFS. The Saggar's power-on (R338, R355, R358, R379) -/

namespace Sys2Proof.Machine

open Sys2Proof

/-! ### Its stages -/

/-- SGM at a power-on, in SETTLING, before its memory is looked at. -/
def Sgm.restarted (g : Sgm) : Sgm := { g with
  mode := .settling, faults := List.replicate 40 0, block := Block.empty, batSince := none, cws := 0
  shipOrder := false, cal := g.calNext.getD g.cal, calAc := g.calNext.getD g.cal, calNext := none, freqFault := false, neutral := false, neutralRun := 0, lastEvent := none, line := 0
  settle := 0, saving := none, lastSave := none, boundAt := timeUnknown, prev := List.replicate 8 0
  prev2 := List.replicate 8 0, band := List.replicate 3 PhaseBand.reset, decim := List.replicate 40 Decim.reset
  inst := List.replicate 280 0, s0 := g.s0.map (fun x => { x with cls := 0, on := false, rejects := 0 })
  pulses := g.pulses.map (fun p => { p.cut with src := 0xFF, width := 0 }) }

/-- Rails and clocks on. -/
def State.modsOn (s : State) : State := (s.onSgm Sgm.restarted).supplyMods true true [4, 4, 4, 4]

/-- The accumulators from SRAM, or from a save. -/
def State.memory (kept : Bool) (s : State) : State := (if s.sgm.sramGood kept then s.modsOn else s.modsOn.restoreSave).onSgm Sgm.renew

/-- The interval that was open is closed at the save's L-time, and the next opens with the clock not valid. -/
def State.reopened (endT : Nat) (s : State) : State :=
  let s3 := (s.onBte (fun b => { b with off := none, steps := [] })).closeInterval endT 2
  let s4 := s3.onBte (fun b => { b with
    up := 0, closedUp := 0, smalls := [], fails := [], lastEvent := none, periodBad := true
    lwm := b.nvSpent.lwm, used := b.nvSpent.used })
  s4.refreshRate.openInterval timeUnknown 0

/-- The L-time of the newest save. -/
def Sgm.saveTime (g : Sgm) : Nat := (g.newest.map (fun v => v.2.time)).getD timeUnknown

/-- The Saggar as a power-on finds it: without a procedure, and without a restart. -/
def State.found (s : State) : State := (s.abandonSeal 3).resume

/-- A cover opened while the Saggar was off counts. -/
def State.coverFound (unseen : Bool) (s : State) : State := if unseen then s.coverOutside else s

theorem saggarPowerOn_stages (k a b : Bool) (s : State) : saggarPowerOn k a b s =
    ((((s.found.memory k).reopened s.sgm.saveTime).onMss Mss.powered |>.coverFound s.found.mss.unseen).verifyCal a b).bteEvent 6 0x13 1 noSource := rfl

theorem found_sgm (s : State) : s.found.sgm = s.sgm :=
  (resume_part (π := .sgm) (by simp) _).trans (abandonSeal_part (π := .sgm) (by simp) ..)

/-! ### SGM -/

theorem sgmEvent_sgm (sub arg src : Nat) (s : State) : (s.sgmEvent sub arg src).sgm = { s.sgm with lastEvent := some (src % 256, sub, arg % 256) } :=
  pf1Event_part (π := .sgm) (by simp) ..

theorem coverFound_part {π : Part} (hp : π ∉ [.rings, .lnk, .mss, .seal, .out]) (u : Bool) (s : State) : part π (s.coverFound u) = part π s := by
  cases u
  · rfl
  · exact coverOutside_part hp s

theorem reopened_part {π : Part} (hp : π ∉ [.bte]) (endT : Nat) (s : State) : part π (s.reopened endT) = part π s := by
  unfold State.reopened
  simp [hp]

theorem saggarPowerOn_sgm (k a b : Bool) (s : State) : (saggarPowerOn k a b s).sgm = (s.found.memory k).sgm := by
  have hevent (u : State) : (u.bteEvent 6 0x13 1 noSource).sgm = u.sgm := bteEvent_part (π := .sgm) (by simp) ..
  have hverify (u : State) : (u.verifyCal a b).sgm = u.sgm := verifyCal_part (π := .sgm) (by simp) ..
  have hcover (c : Bool) (u : State) : (u.coverFound c).sgm = u.sgm := coverFound_part (π := .sgm) (by simp) ..
  have hmss (u : State) : (u.onMss Mss.powered).sgm = u.sgm := rfl
  have hopen (t : Nat) (u : State) : (u.reopened t).sgm = u.sgm := reopened_part (π := .sgm) (by simp) ..
  rw [saggarPowerOn_stages, hevent, hverify, hcover, hmss, hopen]

theorem modsOn_sgm {α : Type} {φ : Sgm → α} (h : ∀ g, φ g.restarted = φ g) (hr : ∀ g r c, φ { g with rails := r, mclk := c } = φ g) (s : State) :
    φ s.modsOn.sgm = φ s.sgm :=
  (hr s.sgm.restarted ..).trans (h s.sgm)

/-- What a restoration from NVM leaves of SGM beyond the registers. -/
theorem restoreSave_sgm {α : Type} {φ : Sgm → α} (h : ∀ g a r p, φ { g with acc := a, res := r, pulses := p } = φ g)
    (hgap : ∀ g a b e, φ { g with saveGap := a, gapFrom := b, lastEvent := e } = φ g) (s : State) : φ s.restoreSave.sgm = φ s.sgm := by
  unfold State.restoreSave
  split
  · exact h ..
  next seq v _ =>
    have hg (p : List Pulse) (e : Option (Nat × Nat × Nat)) : φ { s.sgm with
        acc := v.acc, res := v.res, pulses := p, saveGap := true, gapFrom := some v.time, lastEvent := e } = φ s.sgm :=
      (hgap { s.sgm with acc := v.acc, res := v.res, pulses := p } true (some v.time) e).trans (h ..)
    dsimp only
    split
    · rw [sgmEvent_sgm]
      exact hg _ _
    · exact h ..

/-- A power-on leaves SGM in SETTLING. -/
theorem memory_mode (k : Bool) (s : State) : (s.memory k).sgm.mode = .settling := by
  have hm : s.modsOn.sgm.mode = .settling := rfl
  unfold State.memory
  split
  · exact hm
  · exact (restoreSave_sgm (φ := Sgm.mode) (fun _ _ _ _ => rfl) (fun _ _ _ _ => rfl) s.modsOn).trans hm

theorem memory_kept {k : Bool} {s : State} (h : s.sgm.sramGood k = true) : (s.memory k).sgm.acc = s.sgm.acc ∧ (s.memory k).sgm.res = s.sgm.res ∧
    (s.memory k).sgm.saveGap = s.sgm.saveGap := by
  unfold State.memory
  rw [if_pos h]
  exact ⟨rfl, rfl, rfl⟩

theorem restoreSave_saved {s : State} {seq : Nat} {v : Save} (h : s.sgm.newest = some (seq, v)) :
    s.restoreSave.sgm.acc = v.acc ∧ s.restoreSave.sgm.res = v.res ∧ s.restoreSave.bte.credit = v.credit ∧
    (v.kind = 0 → s.restoreSave.sgm.saveGap = true ∧ s.restoreSave.sgm.gapFrom = some v.time) := by
  unfold State.restoreSave
  rw [h]
  dsimp only
  split
  · rw [sgmEvent_sgm]
    exact ⟨rfl, rfl, congrArg Bte.credit (sgmEvent_part (π := .bte) (by simp) 0x05 seq noSource _), fun _ => ⟨rfl, rfl⟩⟩
  next hk => exact ⟨rfl, rfl, rfl, fun h0 => absurd h0 hk⟩

theorem memory_saved {k : Bool} {s : State} {seq : Nat} {v : Save} (hk : s.sgm.sramGood k = false) (h : s.sgm.newest = some (seq, v)) :
    (s.memory k).sgm.acc = v.acc ∧ (s.memory k).sgm.res = v.res ∧ (s.memory k).bte.credit = v.credit ∧
    (v.kind = 0 → (s.memory k).sgm.saveGap = true ∧ (s.memory k).sgm.gapFrom = some v.time) := by
  have hn : s.modsOn.sgm.newest = some (seq, v) := h
  have hs := restoreSave_saved hn
  unfold State.memory
  rw [if_neg (by simp [hk])]
  exact hs

theorem restoreSave_none {s : State} (h : s.sgm.newest = none) : s.restoreSave.sgm.saveGap = s.sgm.saveGap := by
  unfold State.restoreSave
  rw [h]
  rfl

theorem memory_none {k : Bool} {s : State} (hk : s.sgm.sramGood k = false) (h : s.sgm.newest = none) : (s.memory k).sgm.saveGap = s.sgm.saveGap := by
  have hn : s.modsOn.sgm.newest = none := h
  have hs := restoreSave_none hn
  unfold State.memory
  rw [if_neg (by simp [hk])]
  exact hs

/-! ### BTE -/

theorem memory_bte {α : Type} {φ : Bte → α} (h : ∀ b x, φ { b with credit := x } = φ b) (k : Bool) (s : State) : φ (s.memory k).bte = φ s.bte := by
  have hm : s.modsOn.bte = s.bte := rfl
  unfold State.memory
  split
  · rfl
  · rw [← hm]
    generalize s.modsOn = u
    unfold State.restoreSave
    split
    · rfl
    next seq v _ =>
      dsimp only
      split
      · exact (congrArg φ (sgmEvent_part (π := .bte) (by simp) 0x05 seq noSource _)).trans (h ..)
      · exact h ..

theorem refreshRate_bte {α : Type} {φ : Bte → α} (h : ∀ b r s p d o, φ { b with rate := r, season := s, special := p, day := d, open_ := { b.open_ with rate := o } } = φ b)
    (s : State) : φ s.refreshRate.bte = φ s.bte := by
  have hr (b : Bte) (r p d : Nat) (x : Bool) : φ { b with rate := r, season := p, special := x, day := d } = φ b := h b r p x d b.open_.rate
  unfold State.refreshRate State.recompute State.onBte
  dsimp only
  split
  · exact h ..
  · exact hr ..

theorem verifyCal_bte {α : Type} {φ : Bte → α} (h : ∀ b r s p d o, φ { b with rate := r, season := s, special := p, day := d, open_ := { b.open_ with rate := o } } = φ b)
    (hc : ∀ b c k f, φ { b with cal := c, calCopies := k, calFault := f } = φ b) (x y : Bool) (s : State) : φ (s.verifyCal x y).bte = φ s.bte := by
  unfold State.verifyCal
  split
  · rfl
  · dsimp only
    split
    · unfold State.calFail
      exact (congrArg φ (log_part (π := .bte) (by simp) ..)).trans ((refreshRate_bte h _).trans (hc ..))
    · exact hc s.bte s.bte.cal _ s.bte.calFault

/-- The interval a power-on opens. -/
theorem reopened_open (endT : Nat) (s : State) : (s.reopened endT).bte.open_.start = timeUnknown ∧
    (s.reopened endT).bte.open_.seq = (s.bte.open_.seq + 1) % 2 ^ 32 ∧ (s.reopened endT).bte.off = none ∧ (s.reopened endT).bte.credit = s.bte.credit := by
  have hopen (u : State) : (u.refreshRate.openInterval timeUnknown 0).bte.open_.start = timeUnknown ∧
      (u.refreshRate.openInterval timeUnknown 0).bte.open_.seq = (u.refreshRate.bte.open_.seq + 1) % 2 ^ 32 ∧
      (u.refreshRate.openInterval timeUnknown 0).bte.off = u.refreshRate.bte.off ∧
      (u.refreshRate.openInterval timeUnknown 0).bte.credit = u.refreshRate.bte.credit := ⟨rfl, rfl, rfl, rfl⟩
  have hseq (u : State) : u.refreshRate.bte.open_.seq = u.bte.open_.seq := refreshRate_bte (φ := fun b => b.open_.seq) (fun _ _ _ _ _ _ => rfl) u
  have hoff (u : State) : u.refreshRate.bte.off = u.bte.off := refreshRate_bte (φ := Bte.off) (fun _ _ _ _ _ _ => rfl) u
  have hcredit (u : State) : u.refreshRate.bte.credit = u.bte.credit := refreshRate_bte (φ := Bte.credit) (fun _ _ _ _ _ _ => rfl) u
  unfold State.reopened
  dsimp only
  obtain ⟨h1, h2, h3, h4⟩ := hopen (((s.onBte (fun b => { b with off := none, steps := [] })).closeInterval endT 2).onBte (fun b => { b with
    up := 0, closedUp := 0, smalls := [], fails := [], lastEvent := none, periodBad := true, lwm := b.nvSpent.lwm, used := b.nvSpent.used }))
  rw [hseq] at h2
  rw [hoff] at h3
  rw [hcredit] at h4
  exact ⟨h1, h2, h3, h4⟩

theorem saggarPowerOn_bte {α : Type} {φ : Bte → α} (h : ∀ b r s p d o, φ { b with rate := r, season := s, special := p, day := d, open_ := { b.open_ with rate := o } } = φ b)
    (hc : ∀ b c k f, φ { b with cal := c, calCopies := k, calFault := f } = φ b) (he : ∀ b e, φ { b with lastEvent := e } = φ b) (k a b : Bool) (s : State) :
    φ (saggarPowerOn k a b s).bte = φ ((s.found.memory k).reopened s.sgm.saveTime).bte := by
  rw [saggarPowerOn_stages, bteEvent_bte, he, verifyCal_bte h hc]
  exact congrArg φ (coverFound_part (π := .bte) (by simp) ..)

theorem found_open (s : State) : s.found.bte.open_ = s.bte.open_ := by
  have ha : (s.abandonSeal 3).bte = s.bte := abandonSeal_part (π := .bte) (by simp) ..
  unfold State.found
  rw [← ha]
  generalize s.abandonSeal 3 = u
  have hcarried (id c : Nat) (b : Bte) : (b.carried id c).open_ = b.open_ := by
    unfold Bte.carried
    repeat' split
    all_goals rfl
  unfold State.resume
  split
  · rfl
  · exact foldl_kept (φ := Bte.open_) (f := fun b x => b.carried x.1 x.2) (fun b x => hcarried x.1 x.2 b) u.bte.carryQ { u.bte with carryQ := [] }

theorem saggarPowerOn_open (k a b : Bool) (s : State) : (saggarPowerOn k a b s).bte.off = none ∧
    (saggarPowerOn k a b s).bte.open_.start = timeUnknown ∧ (saggarPowerOn k a b s).bte.open_.seq = (s.bte.open_.seq + 1) % 2 ^ 32 := by
  obtain ⟨h1, h2, h3, -⟩ := reopened_open s.sgm.saveTime (s.found.memory k)
  have hseq : (s.found.memory k).bte.open_.seq = s.bte.open_.seq := (memory_bte (φ := fun b => b.open_.seq) (fun _ _ => rfl) k s.found).trans
    (congrArg (fun o => o.seq) (found_open s))
  rw [hseq] at h2
  refine ⟨(saggarPowerOn_bte (φ := Bte.off) (fun _ _ _ _ _ _ => rfl) (fun _ _ _ _ => rfl) (fun _ _ => rfl) ..).trans h3,
    (saggarPowerOn_bte (φ := fun b => b.open_.start) (fun _ _ _ _ _ _ => rfl) (fun _ _ _ _ => rfl) (fun _ _ => rfl) ..).trans h1,
    (saggarPowerOn_bte (φ := fun b => b.open_.seq) (fun _ _ _ _ _ _ => rfl) (fun _ _ _ _ => rfl) (fun _ _ => rfl) ..).trans h2⟩

theorem saggarPowerOn_credit (k a b : Bool) (s : State) : (saggarPowerOn k a b s).bte.credit = (s.found.memory k).bte.credit :=
  (saggarPowerOn_bte (φ := Bte.credit) (fun _ _ _ _ _ _ => rfl) (fun _ _ _ _ => rfl) (fun _ _ => rfl) ..).trans (reopened_open ..).2.2.2

/-! ### MSS and the link -/

/-- What no event and no log entry of the Saggar changes: MSS's records, and the link but for the PF1 events held. -/
structure Announced (s t : State) : Prop where
  mss : t.mss.sessions = s.mss.sessions ∧ t.mss.serial = s.mss.serial
  lnk : { t.lnk with heldPf1 := [] } = { s.lnk with heldPf1 := [] }

theorem Announced.refl (s : State) : Announced s s := ⟨⟨rfl, rfl⟩, rfl⟩

theorem Announced.trans {s t u : State} (h1 : Announced s t) (h2 : Announced t u) : Announced s u :=
  ⟨⟨h2.mss.1.trans h1.mss.1, h2.mss.2.trans h1.mss.2⟩, h2.lnk.trans h1.lnk⟩

theorem Announced.of_parts {s t : State} (hm : part .mss t = part .mss s) (hl : part .lnk t = part .lnk s) : Announced s t :=
  ⟨⟨congrArg Mss.sessions (show t.mss = s.mss from hm), congrArg Mss.serial (show t.mss = s.mss from hm)⟩,
    congrArg (fun l : SgLink => { l with heldPf1 := [] }) (show t.lnk = s.lnk from hl)⟩

theorem onSgm_announced (f : Sgm → Sgm) (s : State) : Announced s (s.onSgm f) := ⟨⟨rfl, rfl⟩, rfl⟩

theorem onBte_announced (f : Bte → Bte) (s : State) : Announced s (s.onBte f) := ⟨⟨rfl, rfl⟩, rfl⟩

theorem pf1Event_announced (vec sub arg src : Nat) (s : State) : Announced s (s.pf1Event vec sub arg src) where
  mss := by rw [show (s.pf1Event vec sub arg src).mss = s.mss from pf1Event_part (π := .mss) (by simp) ..]; exact ⟨rfl, rfl⟩
  lnk := pf1Event_lnk (φ := fun l => { l with heldPf1 := [] }) (fun _ _ => rfl) vec sub arg src s

theorem mssEvent_announced (sub arg : Nat) (s : State) : Announced s (s.mssEvent sub arg) :=
  (Announced.mk ⟨rfl, rfl⟩ rfl : Announced s (s.onMss (fun m => { m with lastEvent := some (0, sub, arg % 256) }))).trans (pf1Event_announced ..)

theorem bteEvent_announced (vec sub arg src : Nat) (s : State) : Announced s (s.bteEvent vec sub arg src) :=
  (onBte_announced ..).trans (pf1Event_announced ..)

theorem sgmEvent_announced (sub arg src : Nat) (s : State) : Announced s (s.sgmEvent sub arg src) :=
  (onSgm_announced ..).trans (pf1Event_announced ..)

theorem log_announced (kind source : Nat) (data : List Byte) (counter : Nat) (done : Bool) (s : State) :
    Announced s (s.log kind source data counter done) := by
  have hadd (n : Nat) (p r : List (Nat × List Byte)) : Announced s (s.onMss (fun m => { m with logSeq := n, prot := p, ring := r })) := ⟨⟨rfl, rfl⟩, rfl⟩
  have hevent (n : Nat) (p : List (Nat × List Byte)) : Announced s ((s.onMss (fun m => { m with logSeq := n, prot := p })).mssEvent 0x07 100) :=
    (hadd n p s.mss.ring).trans (mssEvent_announced 0x07 100 (s.onMss (fun m => { m with logSeq := n, prot := p })))
  unfold State.log
  dsimp only
  generalize (s.mss.logSeq + 1) % 2 ^ 32 = n
  split
  · split
    · split
      · exact hevent n _
      · exact hadd n _ s.mss.ring
    · split
      · exact hevent n _
      · exact hadd n _ s.mss.ring
  · exact hadd n s.mss.prot _

theorem abandonSeal_announced (r : Nat) (s : State) : Announced s (s.abandonSeal r) := by
  have h0 : Announced s (s.onMss (fun m => { m with sealSt := 0, staging := [], hash := [], coverSeen := false })) := ⟨⟨rfl, rfl⟩, rfl⟩
  unfold State.abandonSeal
  split
  · exact .refl s
  · exact (h0.trans (log_announced ..)).trans (mssEvent_announced ..)

theorem resume_announced (s : State) : Announced s s.resume := by
  unfold State.resume
  split
  · exact .refl s
  · exact ⟨⟨rfl, rfl⟩, rfl⟩

theorem coverOutside_announced (s : State) : Announced s s.coverOutside := by
  have h0 (n : Nat) : Announced s (s.onMss (fun m => { m with sealCount := n, tamper := true, openedOut := true })) := ⟨⟨rfl, rfl⟩, rfl⟩
  unfold State.coverOutside
  exact ((h0 _).trans (log_announced ..)).trans (mssEvent_announced ..)

theorem calFail_announced (id : Nat) (s : State) : Announced s (s.calFail id) := by
  have hrate (u : State) : Announced u u.refreshRate := .of_parts (refreshRate_part (by simp) _) (refreshRate_part (by simp) _)
  unfold State.calFail
  exact ((onBte_announced _ s).trans (hrate _)).trans (log_announced ..)

theorem verifyCal_announced (a b : Bool) (s : State) : Announced s (s.verifyCal a b) := by
  unfold State.verifyCal
  split
  · exact .refl s
  · dsimp only
    split
    · exact calFail_announced _ s
    · exact onBte_announced _ s

theorem restoreSave_announced (s : State) : Announced s s.restoreSave := by
  unfold State.restoreSave
  split
  · exact ⟨⟨rfl, rfl⟩, rfl⟩
  next seq v _ =>
    have h0 (f : Sgm → Sgm) (g : Bte → Bte) : Announced s ((s.onSgm f).onBte g) := (onSgm_announced f s).trans (onBte_announced g _)
    dsimp only
    split
    · exact ((h0 _ _).trans (onSgm_announced ..)).trans (sgmEvent_announced 0x05 seq noSource _)
    · exact h0 _ _

theorem memory_announced (k : Bool) (s : State) : Announced s (s.memory k) := by
  have hm : Announced s s.modsOn := ⟨⟨rfl, rfl⟩, rfl⟩
  have hn (u : State) : Announced u (u.onSgm Sgm.renew) := onSgm_announced _ u
  unfold State.memory
  split
  · exact hm.trans (hn _)
  · exact (hm.trans (restoreSave_announced _)).trans (hn _)

theorem saggarPowerOn_announced (k a b : Bool) (s : State) : Announced s (saggarPowerOn k a b s) := by
  have hfound : Announced s s.found := (abandonSeal_announced 3 s).trans (resume_announced _)
  have hopen (u : State) (endT : Nat) : Announced u ((u.reopened endT).onMss Mss.powered) :=
    (Announced.of_parts (reopened_part (by simp) ..) (reopened_part (by simp) ..) : Announced u (u.reopened endT)).trans ⟨⟨rfl, rfl⟩, rfl⟩
  have hcover (c : Bool) (u : State) : Announced u (u.coverFound c) := by
    cases c
    · exact .refl u
    · exact coverOutside_announced u
  rw [saggarPowerOn_stages]
  exact ((((hfound.trans (memory_announced k _)).trans (hopen _ _)).trans (hcover _ _)).trans (verifyCal_announced a b _)).trans (bteEvent_announced ..)

end Sys2Proof.Machine
end
section
/-! PROOFS. The Saggar link (R41 to R43, R101, R165, R386) -/

namespace Sys2Proof.Machine

open Sys2Proof

/-! ### What arrives at the main die -/

theorem takeAnswers_eq_self {s : State} (h : ∀ m ∈ s.lnk.inSt, m.1.answer = none) : s.takeAnswers = s := by
  have hmap : s.lnk.inSt.filterMap (fun m => m.1.answer) = [] := List.filterMap_eq_nil_iff.mpr h
  have hfilter : s.lnk.inSt.filter (fun m => m.1.answer.isNone) = s.lnk.inSt := List.filter_eq_self.mpr (fun m hm => by rw [h m hm]; rfl)
  have he : s.takeAnswers = s.onLnk (fun l => { l with inSt := l.inSt.filter (fun m => m.1.answer.isNone) }) := by
    unfold State.takeAnswers
    rw [hmap, List.foldl_nil]
  rw [he]
  unfold State.onLnk
  dsimp only
  rw [hfilter]

theorem flushPf1_eq_self {s : State} (h : s.lnk.heldPf1 = []) : s.flushPf1 = s := by
  unfold State.flushPf1
  split
  · rw [h, List.foldl_nil]
    unfold State.onLnk
    rw [← h]
  · rfl

/-- The held PF1 events go when the tunnel has its turn. -/
theorem flushPf1_lnk (s : State) : s.flushPf1.lnk = if s.lnk.pf1Turn then { s.lnk with heldPf1 := [] } else s.lnk := by
  have hpost (u : State) (e : Nat × Nat × Nat × Nat) : part .lnk (u.postEvent .pf1 e.1 e.2.1 e.2.2.1 e.2.2.2) = part .lnk u := postEvent_part (by simp) ..
  unfold State.flushPf1
  split
  · exact part_foldl hpost _ _
  · rfl

theorem flushPf1_sup (s : State) : s.flushPf1.sup = s.sup :=
  sup_of_frame (fun _ hp => flushPf1_part hp s) (by simp) (by simp) (by simp)

/-! ### Frames -/

/-- What a good frame leaves of its direction's counters. -/
def SgLink.seen (f : SaggarFrame) (l : SgLink) : SgLink :=
  { l with fails := setDir f.toSaggar 0 l.fails, seqs := setDir f.toSaggar f.seq l.seqs }

/-- One more good frame at an end that is down. -/
def SgLink.ran (f : SaggarFrame) (l : SgLink) : SgLink := { l with
  runs := setDir f.toSaggar (dirOf f.toSaggar l.runs + 1) l.runs
  acked := setDir f.toSaggar (dirOf f.toSaggar l.acked || f.ackProbe) l.acked }

/-- The end that receives the frame, up as it was or perhaps come up. -/
def State.received (f : SaggarFrame) (s : State) : State :=
  if s.lnk.endUp f.toSaggar then s
  else
    let s2 := s.onLnk (SgLink.ran f)
    if s2.lnk.recovered f.toSaggar then s2.endRecovers f.toSaggar else s2

/-- A good frame behind the serial number it may carry. -/
def State.frameTaken (f : SaggarFrame) (s : State) : State :=
  let s1 := s.onLnk (SgLink.seen f)
  if f.type = 1 ∧ s1.lnk.endUp (!f.toSaggar) = true then ((s1.received f).onLnk (SgLink.deliver f.toSaggar)).takeAnswers.flushPf1 else s1.received f

theorem goodFrame_plain {f : SaggarFrame} (h : f.serial = none ∨ f.toSaggar = true) (s : State) : s.goodFrame f = s.frameTaken f := by
  obtain ⟨toSaggar, type, length, seq, payload, crc, ackProbe, serial⟩ := f
  cases toSaggar with
  | true => cases serial <;> rfl
  | false =>
    obtain rfl : serial = none := h.resolve_right Bool.false_ne_true
    rfl

theorem goodFrame_met {f : SaggarFrame} {n : BitVec 64} (hn : f.serial = some n) (ht : f.toSaggar = false) (s : State) :
    s.goodFrame f = (s.meetSerial n).frameTaken f := by
  unfold State.goodFrame
  split
  next m hm _ =>
    rw [hn] at hm
    obtain rfl := Option.some.inj hm
    rfl
  next hno => exact absurd ht (hno n hn)

theorem linkFrame_good {f : SaggarFrame} {s : State} (hm : s.mainRuns = true) (hr : s.sgm.runs = true) (hg : frameGood f = true) :
    linkFrame f s = s.goodFrame f := by
  unfold linkFrame State.linkAlive
  rw [hm, hr, if_neg (by decide), if_pos hg]

theorem linkFrame_bad {f : SaggarFrame} {s : State} (hm : s.mainRuns = true) (hr : s.sgm.runs = true) (hg : frameGood f = false) :
    linkFrame f s = s.badFrame f := by
  unfold linkFrame State.linkAlive
  rw [hm, hr, if_neg (by decide), if_neg (by simp [hg])]

theorem endUp_of_up {l : SgLink} (hup : l.up = true) (hsg : l.sgUp = true) (d : Bool) : l.endUp d = true := by
  cases d
  · exact hup
  · exact hsg

theorem frameTaken_up {f : SaggarFrame} {s : State} (hup : s.lnk.up = true) (hsg : s.lnk.sgUp = true) : s.frameTaken f =
    if f.type = 1 then ((s.onLnk (SgLink.seen f)).onLnk (SgLink.deliver f.toSaggar)).takeAnswers.flushPf1 else s.onLnk (SgLink.seen f) := by
  have hend (d : Bool) : (s.onLnk (SgLink.seen f)).lnk.endUp d = true := endUp_of_up (l := (s.onLnk (SgLink.seen f)).lnk) hup hsg d
  unfold State.frameTaken State.received
  simp only [hend, and_true, if_true]

theorem frameTaken_other {f : SaggarFrame} {s : State} (ht : f.type ≠ 1) (h : s.lnk.endUp f.toSaggar = false) : s.frameTaken f =
    if ((s.onLnk (SgLink.seen f)).onLnk (SgLink.ran f)).lnk.recovered f.toSaggar then
      ((s.onLnk (SgLink.seen f)).onLnk (SgLink.ran f)).endRecovers f.toSaggar
    else (s.onLnk (SgLink.seen f)).onLnk (SgLink.ran f) := by
  have hend : (s.onLnk (SgLink.seen f)).lnk.endUp f.toSaggar = false := h
  unfold State.frameTaken State.received
  rw [if_neg (fun hc => ht hc.1), if_neg (by rw [hend]; decide)]

/-! ### The link fails -/

/-- No two commands under way have one function, ring and id. -/
abbrev Distinct (l : List Fwd) : Prop := l.Pairwise (fun a b => ¬(a.fn = b.fn ∧ a.sq = b.sq ∧ a.cid = b.cid))

theorem eq_of_keyed {α : Type} {p : α → Bool} {l : List α} {x y : α} (hd : l.Pairwise (fun a b => ¬(p a = true ∧ p b = true))) (hx : x ∈ l) (hy : y ∈ l)
    (hpx : p x = true) (hpy : p y = true) : x = y := by
  have hsymm : Std.Symm (fun a b : α => ¬(p a = true ∧ p b = true)) := ⟨fun _ _ h hc => h hc.symm⟩
  by_contra hne
  exact hd.forall hx hy hne ⟨hpx, hpy⟩

theorem takeFirst_rest {α : Type} {p : α → Bool} {l r : List α} {x : α} (h : takeFirst p l = some (x, r)) (hd : l.Pairwise (fun a b => ¬(p a = true ∧ p b = true))) :
    ∀ y ∈ r, p y = false := by
  intro y hy
  obtain ⟨hf, hx, hm⟩ := takeFirst_filter p l x r h
  induction l generalizing x r with
  | nil => simp [takeFirst] at h
  | cons a l ih =>
    obtain ⟨ha, hl⟩ := List.pairwise_cons.mp hd
    unfold takeFirst at h
    split at h
    next hpa =>
      obtain ⟨rfl, rfl⟩ := Prod.mk.inj (Option.some.inj h)
      exact Bool.eq_false_iff.mpr (fun hpy => ha y hy ⟨hpa, hpy⟩)
    next hpa =>
      obtain ⟨⟨z, t⟩, hz, hzt⟩ := Option.map_eq_some_iff.mp h
      obtain ⟨rfl, rfl⟩ := Prod.mk.inj hzt
      obtain ⟨hf', hx', hm'⟩ := takeFirst_filter p l z t hz
      rcases List.mem_cons.mp hy with rfl | hy
      · exact Bool.eq_false_iff.mpr hpa
      · exact ih hz hl hy hf' hx' hm'

/-- A command under way completes, and no other leaves. -/
theorem complete_takes {s : State} {f : Fwd} (hd : Distinct s.hqe.fwd) (hf : f ∈ s.hqe.fwd) (hpf1 : f.fn = .pf1) (st r : Nat) :
    ∃ u, s.complete .pf1 f.sq f.cid st r = u ∧ u.hqe.fwd.Sublist s.hqe.fwd ∧ f ∉ u.hqe.fwd ∧ (∀ y ∈ s.hqe.fwd, y ≠ f → y ∈ u.hqe.fwd) ∧
      s.hqe.ready <+: u.hqe.ready ∧ (f.orphan = false → (⟨.pf1, f.sq, f.cid, st, r, f.quiet, none⟩ : Cqe) ∈ u.hqe.ready) := by
  have his : Fwd.is .pf1 f.sq f.cid f = true := by simp [Fwd.is, hpf1]
  have hkeys : s.hqe.fwd.Pairwise (fun a b => ¬(Fwd.is .pf1 f.sq f.cid a = true ∧ Fwd.is .pf1 f.sq f.cid b = true)) :=
    hd.imp (fun {a b} hab hc => by
      simp only [Fwd.is, Bool.and_eq_true, decide_eq_true_eq, beq_iff_eq] at hc
      obtain ⟨⟨⟨a1, a2⟩, a3⟩, ⟨b1, b2⟩, b3⟩ := hc
      exact hab ⟨a1.trans b1.symm, a2.trans b2.symm, a3.trans b3.symm⟩)
  obtain ⟨⟨g, rest⟩, hx⟩ := Option.isSome_iff_exists.mp (takeFirst_isSome _ _ (List.any_eq_true.mpr ⟨f, hf, his⟩))
  obtain ⟨hfilter, hg, hmem⟩ := takeFirst_filter _ _ _ _ hx
  obtain rfl : g = f := eq_of_keyed hkeys hmem hf hg his
  have hrest : ∀ y ∈ rest, Fwd.is .pf1 g.sq g.cid y = false := takeFirst_rest hx hkeys
  have hnot : g ∉ rest := fun hy => absurd his (by rw [hrest g hy]; decide)
  have hothers : ∀ y ∈ s.hqe.fwd, y ≠ g → y ∈ rest := by
    intro y hy hne
    have hyis : Fwd.is .pf1 g.sq g.cid y = false := Bool.eq_false_iff.mpr (fun hc => hne (eq_of_keyed hkeys hy hf hc his))
    have : y ∈ s.hqe.fwd.filter (fun a => !Fwd.is .pf1 g.sq g.cid a) := List.mem_filter.mpr ⟨hy, by rw [hyis]; rfl⟩
    rw [← hfilter] at this
    exact (List.mem_filter.mp this).1
  refine ⟨_, rfl, ?_⟩
  unfold State.complete
  dsimp only
  rw [hx]
  dsimp only
  split
  next ho => exact ⟨takeFirst_sublist hx, hnot, hothers, List.prefix_rfl, fun hc => absurd (hc.symm.trans ho) (by decide)⟩
  · exact ⟨takeFirst_sublist hx, hnot, hothers, List.prefix_append _ _, fun _ => List.mem_append_right _ (List.mem_singleton.mpr rfl)⟩

/-- Commands under way complete in turn. -/
theorem complete_all (st r : Nat) (l : List Fwd) {s : State} (hl : l.Nodup) (hsub : ∀ f ∈ l, f ∈ s.hqe.fwd ∧ f.fn = .pf1) (hd : Distinct s.hqe.fwd) :
    ∃ t, l.foldl (fun s f => s.complete .pf1 f.sq f.cid st r) s = t ∧ (∀ y ∈ t.hqe.fwd, y ∈ s.hqe.fwd ∧ y ∉ l) ∧ s.hqe.ready <+: t.hqe.ready ∧
      ∀ f ∈ l, f.orphan = false → (⟨.pf1, f.sq, f.cid, st, r, f.quiet, none⟩ : Cqe) ∈ t.hqe.ready := by
  induction l generalizing s with
  | nil => exact ⟨s, rfl, fun y hy => ⟨hy, List.not_mem_nil⟩, List.prefix_rfl, fun f hf => absurd hf List.not_mem_nil⟩
  | cons f l ih =>
    obtain ⟨hfl, hl⟩ := List.nodup_cons.mp hl
    obtain ⟨hf, hpf1⟩ := hsub f List.mem_cons_self
    obtain ⟨u, hu, hfwd, hnot, hothers, hready, hc⟩ := complete_takes hd hf hpf1 st r
    have hsub' : ∀ g ∈ l, g ∈ u.hqe.fwd ∧ g.fn = .pf1 := fun g hg =>
      ⟨hothers g (hsub g (List.mem_cons_of_mem f hg)).1 (fun he => hfl (he ▸ hg)), (hsub g (List.mem_cons_of_mem f hg)).2⟩
    obtain ⟨t, ht, h1, h2, h3⟩ := ih hl hsub' (List.Pairwise.sublist hfwd hd)
    refine ⟨t, ?_, fun y hy => ⟨hfwd.subset (h1 y hy).1, fun hm => ?_⟩, hready.trans h2, fun g hg ho => ?_⟩
    · rw [List.foldl_cons, hu, ht]
    · rcases List.mem_cons.mp hm with rfl | hm
      · exact hnot (h1 y hy).1
      · exact (h1 y hy).2 hm
    · rcases List.mem_cons.mp hg with rfl | hg
      · exact h2.subset (hc ho)
      · exact h3 g hg ho

/-- Every tunnelled command completes once the link is down. -/
theorem tunnelLost_spec {s : State} (hd : Distinct s.hqe.fwd) : (∀ x ∈ s.tunnelLost.hqe.fwd, x.tunnelled = false) ∧
    (∀ x ∈ s.hqe.fwd, x.tunnelled = true → x.orphan = false →
      ∃ c ∈ s.tunnelLost.hqe.ready, c.fn = .pf1 ∧ c.sq = x.sq ∧ c.cid = x.cid ∧ c.status = stSAGGAR_UNREACHABLE ∧ c.result = 1) := by
  have hnodup : s.hqe.fwd.Nodup := hd.imp (fun {a b} hab he => hab (by rw [he]; exact ⟨rfl, rfl, rfl⟩))
  have hpf1 : ∀ f ∈ s.hqe.fwd.filter Fwd.tunnelled, f ∈ s.hqe.fwd ∧ f.fn = .pf1 := by
    intro f hf
    obtain ⟨hm, ht⟩ := List.mem_filter.mp hf
    simp only [Fwd.tunnelled, Bool.and_eq_true, decide_eq_true_eq] at ht
    exact ⟨hm, ht.1⟩
  obtain ⟨t, ht, h1, -, h3⟩ := complete_all stSAGGAR_UNREACHABLE 1 (s.hqe.fwd.filter Fwd.tunnelled) (s :=
    (s.onHqe (fun h => { h with answers := [] })).onMss (fun m => { m with waiting := [] })) (hnodup.filter _) hpf1 hd
  have he : s.tunnelLost = t := ht
  rw [he]
  refine ⟨fun x hx => ?_, fun x hx htun ho => ⟨_, h3 x (List.mem_filter.mpr ⟨hx, htun⟩) ho, rfl, rfl, rfl, rfl, rfl⟩⟩
  obtain ⟨hm, hn⟩ := h1 x hx
  exact Bool.eq_false_iff.mpr (fun htun => hn (List.mem_filter.mpr ⟨hm, htun⟩))

theorem tunnelLost_kept (s : State) : s.tunnelLost.hqe.answers = [] ∧ s.tunnelLost.mss = { s.mss with waiting := [] } := by
  have hfold (l : List Fwd) (u : State) : part .rings (l.foldl (fun s f => s.complete .pf1 f.sq f.cid stSAGGAR_UNREACHABLE 1) u) = part .rings u ∧
      part .mss (l.foldl (fun s f => s.complete .pf1 f.sq f.cid stSAGGAR_UNREACHABLE 1) u) = part .mss u :=
    ⟨part_foldl (fun v f => complete_part (by simp) .pf1 f.sq f.cid _ _ v) l u, part_foldl (fun v f => complete_part (by simp) .pf1 f.sq f.cid _ _ v) l u⟩
  obtain ⟨h1, h2⟩ := hfold (s.hqe.fwd.filter Fwd.tunnelled) ((s.onHqe (fun h => { h with answers := [] })).onMss (fun m => { m with waiting := [] }))
  have ha := congrArg Hqe.answers h1
  exact ⟨ha, h2⟩

/-! ### What was not received -/

theorem holdCross_all (l : List (CrossMsg × Nat × Nat)) {s : State} (h : s.spa.outbox.length + l.length ≤ 256) :
    (l.foldl (fun s m => s.holdCross m.1 m.2.2) s).spa.outbox = s.spa.outbox ++ l.map (fun m => ⟨m.1, m.2.2⟩) := by
  induction l generalizing s with
  | nil => exact (List.append_nil _).symm
  | cons m l ih =>
    have hone : (s.holdCross m.1 m.2.2).spa.outbox = s.spa.outbox ++ [⟨m.1, m.2.2⟩] := by
      unfold State.holdCross
      dsimp only
      rw [if_pos (by rw [List.length_cons] at h; omega)]
      rfl
    have hlen : (s.holdCross m.1 m.2.2).spa.outbox.length + l.length ≤ 256 := by
      rw [hone, List.length_append]
      simp only [List.length_cons, List.length_nil] at h ⊢
      omega
    rw [List.foldl_cons, ih hlen, hone, List.append_assoc]
    rfl

theorem unsent_outbox {s : State} (ho : s.spa.outbox = []) (hlen : s.lnk.toSg.length ≤ 256) (hn : ∀ m ∈ s.lnk.toSg, m.1.tokenNode = none) :
    s.unsent.spa.outbox = s.lnk.toSg.map (fun m => ⟨m.1, m.2.2⟩) := by
  have hfilter : s.lnk.toSg.filter (fun m => m.1.tokenNode.isNone) = s.lnk.toSg := List.filter_eq_self.mpr (fun m hm => by rw [hn m hm]; rfl)
  have h := holdCross_all s.lnk.toSg (s := s.onLnk (fun l => { l with toSg := l.toSg.filter (fun m => m.1.tokenNode.isSome) }))
    (by rw [show (State.onLnk _ s).spa.outbox = [] from ho]; simpa using hlen)
  rw [show (State.onLnk (fun l => { l with toSg := l.toSg.filter (fun m => m.1.tokenNode.isSome) }) s).spa.outbox = [] from ho, List.nil_append] at h
  unfold State.unsent
  rw [hfilter]
  exact h

theorem unsent_lnk (s : State) : s.unsent.lnk = { s.lnk with toSg := s.lnk.toSg.filter (fun m => m.1.tokenNode.isSome) } :=
  part_foldl (π := .lnk) (fun u m => by simp) _ _

theorem tokensUnsent_lnk (s : State) : s.tokensUnsent.lnk = { s.lnk with toSg := s.lnk.toSg.filter (fun m => m.1.tokenNode.isNone) } :=
  part_foldl (π := .lnk) (fun u a => tokenReject_part (by simp) a 0xF1 u) _ _

/-- Nothing of SPA's is on its way behind the failure. -/
theorem unsent_toSg (s : State) : s.unsent.tokensUnsent.lnk = { s.lnk with toSg := [] } := by
  have hnil : (s.lnk.toSg.filter (fun m => m.1.tokenNode.isSome)).filter (fun m => m.1.tokenNode.isNone) = [] := by
    rw [List.filter_eq_nil_iff]
    intro m hm
    have h := (List.mem_filter.mp hm).2
    cases hm1 : m.1.tokenNode with
    | none => rw [hm1] at h; exact absurd h (by decide)
    | some a => simp
  rw [tokensUnsent_lnk, unsent_lnk, hnil]

end Sys2Proof.Machine
end
section
/-! PROOFS. The Saggar link: its failure, its recovery, another Saggar (R41 to R43, R101, R165, R386) -/

namespace Sys2Proof.Machine

open Sys2Proof

/-! ### The third failure of a frame -/

/-- The link down at both ends. -/
def SgLink.fallen (l : SgLink) : SgLink := { l with
  up := false, sgUp := false, fails := (0, 0), runs := (0, 0), acked := (false, false), summary := none }

/-- The event and the fault record of a link that fails. -/
def State.failureTold (toSg : Bool) (seq : Nat) (s : State) : State :=
  ((s.onLnk SgLink.fallen).supEvent 65 0x40 (b2n (!toSg)) noSource).faultRec 8 0x0007 (b2n (!toSg)) seq 0

theorem linkFails_eq (toSg : Bool) (seq : Nat) (s : State) : s.linkFails toSg seq = (s.failureTold toSg seq).tunnelLost.unsent.tokensUnsent := rfl

theorem failureTold_part {π : Part} (hp : π ∉ [.rings, .faults, .lnk, .out]) (toSg : Bool) (seq : Nat) (s : State) :
    part π (s.failureTold toSg seq) = part π s := by
  simp only [List.mem_cons, List.not_mem_nil, or_false, not_or] at hp
  unfold State.failureTold
  simp [hp]

/-- What follows a failure's record reaches neither the records nor the commands. -/
theorem lost_part {π : Part} (hp : π ∉ [.lnk, .spa, .blk]) (s : State) : part π s.unsent.tokensUnsent = part π s := by
  simp only [List.mem_cons, List.not_mem_nil, or_false, not_or] at hp
  simp [hp]

theorem failureTold_sup {s : State} (h : s.sup.holdupReady = true) (toSg : Bool) (seq : Nat) :
    (s.failureTold toSg seq).sup.lastEvent = some (1, 255, 0x40, b2n (!toSg) % 256) ∧
    ∃ r, (s.failureTold toSg seq).sup.journal.getLast? = some r ∧ r.code = 0x0007 ∧ r.arg0 = b2n (!toSg) ∧ r.arg1 = seq := by
  have hs := supEvent_sup 65 0x40 (b2n (!toSg)) noSource (s.onLnk SgLink.fallen)
  have hready : ((s.onLnk SgLink.fallen).supEvent 65 0x40 (b2n (!toSg)) noSource).sup.holdupReady = true := by rw [hs]; exact h
  unfold State.failureTold
  generalize (s.onLnk SgLink.fallen).supEvent 65 0x40 (b2n (!toSg)) noSource = u at *
  obtain ⟨j, n, d, he⟩ := faultRec_sup 8 0x0007 (b2n (!toSg)) seq 0 u
  obtain ⟨pre, post, hj, hlen⟩ := faultRec_recent hready 8 0x0007 (b2n (!toSg)) seq 0
  obtain rfl : post = [] := List.eq_nil_of_length_eq_zero (Nat.le_zero.mp hlen)
  refine ⟨?_, _, by rw [hj]; exact List.getLast?_concat, rfl, rfl, rfl⟩
  rw [he, hs]
  rfl

theorem linkFails_sup {s : State} (h : s.sup.holdupReady = true) (toSg : Bool) (seq : Nat) :
    (s.linkFails toSg seq).sup.lastEvent = some (1, 255, 0x40, b2n (!toSg) % 256) ∧
    ∃ r, (s.linkFails toSg seq).sup.journal.getLast? = some r ∧ r.code = 0x0007 ∧ r.arg0 = b2n (!toSg) ∧ r.arg1 = seq := by
  obtain ⟨hlast, r, hr, hcode⟩ := failureTold_sup h toSg seq
  have hf : part .faults (s.linkFails toSg seq) = part .faults (s.failureTold toSg seq) :=
    (lost_part (by simp) _).trans (tunnelLost_part (by simp) _)
  have h1 := congrArg (fun x => x.1) hf
  have h2 := congrArg (fun x => x.2.1) hf
  refine ⟨h1.trans hlast, r, ?_, hcode⟩
  rw [← hr]
  exact congrArg List.getLast? h2

theorem linkFails_lnk (toSg : Bool) (seq : Nat) (s : State) : (s.linkFails toSg seq).lnk = { s.lnk.fallen with toSg := [] } := by
  have h : (s.failureTold toSg seq).tunnelLost.lnk = s.lnk.fallen := by
    refine (tunnelLost_part (π := .lnk) (by simp) _).trans ?_
    unfold State.failureTold
    exact (faultRec_part (π := .lnk) (by simp) ..).trans (supEvent_part (π := .lnk) (by simp) ..)
  rw [linkFails_eq, unsent_toSg, h]

theorem linkFails_outbox {s : State} (ho : s.spa.outbox = []) (hlen : s.lnk.toSg.length ≤ 256) (hn : ∀ m ∈ s.lnk.toSg, m.1.tokenNode = none) (toSg : Bool) (seq : Nat) :
    (s.linkFails toSg seq).spa.outbox = s.lnk.toSg.map (fun m => ⟨m.1, m.2.2⟩) := by
  have hspa : (s.failureTold toSg seq).tunnelLost.spa = s.spa := (tunnelLost_part (π := .spa) (by simp) _).trans (failureTold_part (π := .spa) (by simp) ..)
  have hsg : (s.failureTold toSg seq).tunnelLost.lnk.toSg = s.lnk.toSg := by
    have h : (s.failureTold toSg seq).tunnelLost.lnk = s.lnk.fallen := by
      refine (tunnelLost_part (π := .lnk) (by simp) _).trans ?_
      unfold State.failureTold
      exact (faultRec_part (π := .lnk) (by simp) ..).trans (supEvent_part (π := .lnk) (by simp) ..)
    rw [h]
    rfl
  have hkeep (u : State) : u.tokensUnsent.spa = u.spa := tokensUnsent_part (π := .spa) (by simp) u
  rw [linkFails_eq, hkeep, ← hsg]
  rw [← hsg] at hlen hn
  rw [← hspa] at ho
  exact unsent_outbox ho hlen hn

theorem linkFails_tunnel {s : State} (hd : Distinct s.hqe.fwd) (toSg : Bool) (seq : Nat) : (∀ x ∈ (s.linkFails toSg seq).hqe.fwd, x.tunnelled = false) ∧
    (s.linkFails toSg seq).hqe.answers = [] ∧
    (∀ x ∈ s.hqe.fwd, x.tunnelled = true → x.orphan = false →
      ∃ c ∈ (s.linkFails toSg seq).hqe.ready, c.fn = .pf1 ∧ c.sq = x.sq ∧ c.cid = x.cid ∧ c.status = stSAGGAR_UNREACHABLE ∧ c.result = 1) := by
  have hfwd : (s.failureTold toSg seq).hqe.fwd = s.hqe.fwd := failureTold_part (π := .fwd) (by simp) ..
  have hd' : Distinct (s.failureTold toSg seq).hqe.fwd := by rw [hfwd]; exact hd
  obtain ⟨h1, h2⟩ := tunnelLost_spec hd'
  have h3 := (tunnelLost_kept (s.failureTold toSg seq)).1
  rw [hfwd] at h2
  rw [linkFails_eq]
  generalize (s.failureTold toSg seq).tunnelLost = u at *
  have kfwd : u.unsent.tokensUnsent.hqe.fwd = u.hqe.fwd := lost_part (π := .fwd) (by simp) u
  have kready : u.unsent.tokensUnsent.hqe.ready = u.hqe.ready := lost_part (π := .ready) (by simp) u
  have krings := lost_part (π := .rings) (by simp) u
  have kanswers := congrArg Hqe.answers krings
  rw [kfwd, kready]
  exact ⟨h1, kanswers.trans h3, h2⟩

theorem linkFails_saggar (toSg : Bool) (seq : Nat) (s : State) : SaggarUnasked s (s.linkFails toSg seq) := by
  have hpart {π : Part} (hp : π ∈ [.sgm, .bte, .cell]) : part π (s.linkFails toSg seq) = part π s := by
    simp only [List.mem_cons, List.not_mem_nil, or_false] at hp
    refine (lost_part ?_ _).trans ((tunnelLost_part ?_ _).trans (failureTold_part ?_ ..))
    all_goals rcases hp with rfl | rfl | rfl <;> simp
  refine ⟨hpart (π := .sgm) (by simp), hpart (π := .bte) (by simp), ?_, hpart (π := .cell) (by simp)⟩
  have h0 : (s.failureTold toSg seq).mss = s.mss := failureTold_part (π := .mss) (by simp) ..
  rw [← h0, ← (tunnelLost_kept (s.failureTold toSg seq)).2]
  exact lost_part (π := .mss) (by simp) _

/-! ### A frame that fails its check -/

/-- One more failure of a frame, or the first. -/
def SgLink.failCount (f : SaggarFrame) (l : SgLink) : Nat := if dirOf f.toSaggar l.seqs = f.seq then dirOf f.toSaggar l.fails + 1 else 1

theorem badFrame_up {f : SaggarFrame} {s : State} (hup : s.lnk.up = true) (hsg : s.lnk.sgUp = true) : s.badFrame f =
    if 3 ≤ s.lnk.failCount f then
      (s.onLnk (fun l => { l with fails := setDir f.toSaggar (s.lnk.failCount f) l.fails, seqs := setDir f.toSaggar f.seq l.seqs })).linkFails f.toSaggar f.seq
    else s.onLnk (fun l => { l with fails := setDir f.toSaggar (s.lnk.failCount f) l.fails, seqs := setDir f.toSaggar f.seq l.seqs }) := by
  unfold State.badFrame
  rw [if_pos (endUp_of_up hup hsg f.toSaggar)]
  dsimp only
  rw [if_neg (by rw [hup, hsg]; decide)]
  rfl

theorem badFrame_down {f : SaggarFrame} {s : State} (hup : s.lnk.up = false) (hsg : s.lnk.sgUp = false) : s.badFrame f =
    s.onLnk (fun l => { l with runs := setDir f.toSaggar 0 l.runs }) := by
  have hend : s.lnk.endUp f.toSaggar = false := by
    unfold SgLink.endUp
    rw [hup, hsg]
    exact ite_self _
  unfold State.badFrame
  dsimp only
  rw [if_pos (by rw [hup, hsg]; decide), if_neg (by rw [hend]; decide)]

/-! ### An end comes up -/

/-- The main die's end comes up: the event, SPA's messages, and perhaps the PF1 events. -/
theorem endRecovers_main (s : State) : ∃ t, s.endRecovers false = t ∧ t.sup.lastEvent = some (1, 255, 0x41, 0) ∧ t.spa.outbox = [] ∧
    (∃ ms, ms.map Prod.fst = s.spa.outbox.map HeldMsg.msg ∧
      t.lnk = { s.lnk with up := true, fails := (s.lnk.fails.1, 0), toSg := s.lnk.toSg ++ ms
                           heldPf1 := if s.lnk.sgUp && s.lnk.toSt.isEmpty then [] else s.lnk.heldPf1 }) ∧ NoCommandMoved s t := by
  let u := (s.onLnk (fun l => { l with up := true, sgUp := l.sgUp, fails := (l.fails.1, 0) })).supEvent 65 0x41 0 noSource
  have hul : u.lnk = { s.lnk with up := true, fails := (s.lnk.fails.1, 0) } := supEvent_part (π := .lnk) (by simp) ..
  have hus : u.spa = s.spa := supEvent_part (π := .spa) (by simp) ..
  have hue : u.sup.lastEvent = some (1, 255, 0x41, 0) := by
    have h := supEvent_sup 65 0x41 0 noSource (s.onLnk (fun l => { l with up := true, sgUp := l.sgUp, fails := (l.fails.1, 0) }))
    exact (congrArg Sup.lastEvent h).trans rfl
  have huc : NoCommandMoved s u := supEvent_moved 65 0x41 0 noSource (s.onLnk (fun l => { l with up := true, sgUp := l.sgUp, fails := (l.fails.1, 0) }))
  have he : s.endRecovers false = u.flushOutbox.flushPf1 := by
    unfold State.endRecovers
    dsimp only
    rw [if_neg (by decide)]
    simp only [Bool.not_false, Bool.or_true, Bool.or_false, setDir, Bool.false_eq_true, if_false]
    rfl
  have hsup : u.flushOutbox.flushPf1.sup = u.sup := (flushPf1_sup _).trans rfl
  have hspa : u.flushOutbox.flushPf1.spa = { u.spa with outbox := [] } := flushPf1_part (π := .spa) (by simp) u.flushOutbox
  have hlnk := flushPf1_lnk u.flushOutbox
  have hfwd : u.flushOutbox.flushPf1.hqe.fwd = u.hqe.fwd := flushPf1_part (π := .fwd) (by simp) u.flushOutbox
  have hready : u.flushOutbox.flushPf1.hqe.ready = u.hqe.ready := flushPf1_part (π := .ready) (by simp) u.flushOutbox
  have hol : u.flushOutbox.lnk = { u.lnk with toSg := u.lnk.toSg ++ u.spa.outbox.map (fun h => (h.msg, min ((u.sup.uptime - h.due) / 1000) 4294967295, h.due)) } := rfl
  refine ⟨_, he, (congrArg Sup.lastEvent hsup).trans hue, congrArg Spa.outbox hspa,
    ⟨u.spa.outbox.map (fun h => (h.msg, min ((u.sup.uptime - h.due) / 1000) 4294967295, h.due)), ?_, ?_⟩, hfwd.trans huc.1, hready.trans huc.2⟩
  · rw [hus, List.map_map]
    rfl
  · rw [hlnk, hol, hul]
    generalize u.spa.outbox.map (fun h => (h.msg, min ((u.sup.uptime - h.due) / 1000) 4294967295, h.due)) = ms
    simp only [SgLink.pf1Turn, SgLink.path, Bool.true_and]
    split <;> rfl

/-- The Saggar's end comes up. -/
theorem endRecovers_saggar (s : State) : ∃ t, s.endRecovers true = t ∧ t.sup = s.sup ∧ t.spa = s.spa ∧
    t.lnk = { s.lnk with sgUp := true, fails := (0, s.lnk.fails.2), heldPf1 := if s.lnk.up && s.lnk.toSt.isEmpty then [] else s.lnk.heldPf1 } ∧
    NoCommandMoved s t := by
  let u := s.onLnk (fun l => { l with up := l.up, sgUp := true, fails := (0, l.fails.2) })
  have he : s.endRecovers true = u.flushPf1 := by
    unfold State.endRecovers
    dsimp only
    rw [if_pos rfl]
    simp only [Bool.not_true, Bool.or_true, Bool.or_false, setDir, if_true]
    rfl
  have hfwd : u.flushPf1.hqe.fwd = u.hqe.fwd := flushPf1_part (π := .fwd) (by simp) u
  have hready : u.flushPf1.hqe.ready = u.hqe.ready := flushPf1_part (π := .ready) (by simp) u
  have hul : u.lnk = { s.lnk with sgUp := true, fails := (0, s.lnk.fails.2) } := rfl
  refine ⟨_, he, flushPf1_sup u, flushPf1_part (π := .spa) (by simp) u, ?_, hfwd, hready⟩
  rw [flushPf1_lnk, hul]
  simp only [SgLink.pf1Turn, SgLink.path, Bool.and_true]
  split <;> rfl

/-! ### Another Saggar (R386) -/

/-- What the main die had of the old Saggar's link. -/
def SgLink.emptied (l : SgLink) : SgLink := { l with inSg := [], toSt := [], summary := none, heldPf1 := [] }

/-- A Saggar with a serial of its own is fitted. -/
theorem fitSaggar_spec {n : BitVec 64} {s : State} (hn : n ≠ s.mss.serial) : ∃ t, s.fitSaggar n = t ∧
    (s.shelf.find? (fun x => x.mss.serial == n) = none → t.mss = State.newMss n ∧ t.bte = Bte.reset ∧ t.sgm = Sgm.reset) ∧
    (∀ x, s.shelf.find? (fun x => x.mss.serial == n) = some x → t.mss.serial = n ∧ t.mss.sessions = x.mss.sessions ∧
      (x.mss.unseen = false → t.mss.sealCount = x.mss.sealCount) ∧ (x.sgm.sramGood true = true → t.sgm.acc = x.sgm.acc)) ∧
    t.shelf.head? = some ⟨s.sgm, s.bte, s.mss, s.cell⟩ ∧ t.sup = s.sup ∧ { t.lnk with heldPf1 := [] } = s.lnk.emptied := by
  unfold State.fitSaggar
  rw [if_neg (fun h => hn h.symm)]
  dsimp only
  cases hx : s.shelf.find? (fun x => x.mss.serial == n) with
  | none => exact ⟨_, rfl, fun _ => ⟨rfl, rfl, rfl⟩, fun x hc => absurd hc nofun, rfl, rfl, rfl⟩
  | some x =>
    have hserial : x.mss.serial = n := by simpa using List.find?_some hx
    let w : State := { s with
      shelf := ⟨s.sgm, s.bte, s.mss, s.cell⟩ :: s.shelf.filter (fun x => x.mss.serial != n), lnk := s.lnk.emptied
      hqe := { s.hqe with answers := [] }, sgm := x.sgm, bte := x.bte, mss := x.mss, cell := x.cell }
    have hann := saggarPowerOn_announced true false false w
    obtain ⟨⟨hsess, hser⟩, hlnk⟩ := hann
    have hseal := (saggarPowerOn_sealed true false false w).2.2
    have hshelf : (saggarPowerOn true false false w).shelf = w.shelf := saggarPowerOn_part (π := .shelf) (by simp) ..
    have hsup : (saggarPowerOn true false false w).sup = w.sup :=
      sup_of_frame (fun _ hp => saggarPowerOn_part hp true false false w) (by simp) (by simp) (by simp)
    have hacc (hg : x.sgm.sramGood true = true) : (saggarPowerOn true false false w).sgm.acc = x.sgm.acc := by
      have hf : w.found.sgm = x.sgm := found_sgm w
      have hk := (memory_kept (k := true) (s := w.found) (by rw [hf]; exact hg)).1
      rw [saggarPowerOn_sgm, hk, hf]
    refine ⟨_, rfl, fun hc => absurd hc nofun, fun y hy => ?_, congrArg List.head? hshelf, hsup, hlnk⟩
    obtain rfl := Option.some.inj hy
    exact ⟨hser.trans hserial, hsess, fun hu => (hseal hu).1, hacc⟩

/-- The main die meets a Saggar that was not the last it saw. -/
theorem meetSerial_spec {n : BitVec 64} {s : State} (hn : n ≠ s.mss.serial) (h0 : s.sup.saggarSerial ≠ 0) (hold : s.sup.saggarSerial ≠ n.toNat)
    (hready : s.sup.holdupReady = true) (hup : s.lnk.up = true) : ∃ v t, s.fitSaggar n = v ∧ s.meetSerial n = t ∧ t.mss = v.mss ∧ t.bte = v.bte ∧ t.sgm = v.sgm ∧
    t.shelf = v.shelf ∧ t.sup.saggarSerial = n.toNat ∧ t.sup.replaced = true ∧ t.sup.lastEvent = some (1, 255, 0x32, 0) ∧
    (∃ r, t.sup.journal.getLast? = some r ∧ r.code = 0x0902 ∧ r.arg0 = s.sup.saggarSerial % 2 ^ 32 ∧ r.arg1 = n.toNat % 2 ^ 32) ∧
    (∃ m, t.lnk = { v.lnk with toSg := v.lnk.toSg ++ [(.resync 0, m)] }) := by
  obtain ⟨v, hv, -, -, -, hsup, hl⟩ := fitSaggar_spec hn
  have hvup : v.lnk.up = true := (congrArg SgLink.up hl).trans hup
  let u := (v.onSup (fun p => { p with saggarSerial := n.toNat })).took
  have huready : u.sup.holdupReady = true := by
    have h : u.sup.holdupReady = v.sup.holdupReady := rfl
    rw [h, hsup]
    exact hready
  have hfree (a0 a1 a2 : Nat) : ∃ w, (u.faultRec 8 0x0902 a0 a1 a2).supEvent 65 0x32 0 noSource = w ∧ w.mss = v.mss ∧ w.bte = v.bte ∧ w.sgm = v.sgm ∧ w.shelf = v.shelf ∧
      w.lnk = v.lnk ∧ w.sup.saggarSerial = n.toNat ∧ w.sup.lastEvent = some (1, 255, 0x32, 0) ∧
      ∃ r, w.sup.journal.getLast? = some r ∧ r.code = 0x0902 ∧ r.arg0 = a0 ∧ r.arg1 = a1 := by
    obtain ⟨j, k, d, he⟩ := faultRec_sup 8 0x0902 a0 a1 a2 u
    obtain ⟨pre, post, hj, hlen⟩ := faultRec_recent huready 8 0x0902 a0 a1 a2
    obtain rfl : post = [] := List.eq_nil_of_length_eq_zero (Nat.le_zero.mp hlen)
    have hs := supEvent_sup 65 0x32 0 noSource (u.faultRec 8 0x0902 a0 a1 a2)
    have hpart {π : Part} (hp : π ∉ [.rings, .faults, .out]) : part π ((u.faultRec 8 0x0902 a0 a1 a2).supEvent 65 0x32 0 noSource) = part π u := by
      simp only [List.mem_cons, List.not_mem_nil, or_false, not_or] at hp
      simp [hp]
    have hserial : (u.faultRec 8 0x0902 a0 a1 a2).sup.saggarSerial = n.toNat := (congrArg Sup.saggarSerial he).trans rfl
    have hgl := (congrArg (fun p : Sup => p.journal.getLast?) hs).trans ((congrArg List.getLast? hj).trans List.getLast?_concat)
    refine ⟨_, rfl, hpart (π := .mss) (by simp), hpart (π := .bte) (by simp), hpart (π := .sgm) (by simp), hpart (π := .shelf) (by simp),
      hpart (π := .lnk) (by simp), (congrArg Sup.saggarSerial hs).trans hserial, (congrArg Sup.lastEvent hs).trans rfl, _, hgl, rfl, rfl, rfl⟩
  obtain ⟨w, hw, wmss, wbte, wsgm, wshelf, wlnk, wserial, wlast, r, hr, hcode, ha0, ha1⟩ := hfree (s.sup.saggarSerial % 2 ^ 32) (n.toNat % 2 ^ 32)
    (Config.freeNat (v.onSup (fun p => { p with saggarSerial := n.toNat })).free % 2 ^ 32)
  have he : s.meetSerial n = (w.onSup (fun p => { p with replaced := true })).sendCross (.resync 0) := by
    unfold State.meetSerial
    dsimp only
    rw [if_neg hold, if_neg h0, hv, hw]
  have hsend : (w.onSup (fun p => { p with replaced := true })).sendCross (.resync 0) =
      (w.onSup (fun p => { p with replaced := true })).onLnk (fun l => { l with toSg := l.toSg ++ [(.resync 0, 0, w.sup.uptime)] }) :=
    if_pos (by rw [show (w.onSup _).lnk = w.lnk from rfl, wlnk]; exact hvup)
  refine ⟨v, _, hv, he.trans hsend, wmss, wbte, wsgm, wshelf, wserial, rfl, wlast, ⟨r, hr, hcode, ha0, ha1⟩, (0, w.sup.uptime), ?_⟩
  rw [← wlnk]
  rfl

end Sys2Proof.Machine
end
section
/-! PROOFS. The Saggar link answers (R41 to R43, R101, R165, R386) -/

namespace Sys2Proof.Machine

open Sys2Proof

theorem takeAnswers_lnk (s : State) : s.takeAnswers.lnk = { s.lnk with inSt := s.lnk.inSt.filter (fun m => m.1.answer.isNone) } := by
  have hone (u : State) (a : Nat × Nat) : part .lnk (u.tokenAnswered a.1 a.2) = part .lnk u := tokenAnswered_part (by simp) ..
  unfold State.takeAnswers
  exact part_foldl hone _ _

theorem nothing_arrives {s : State} (h1 : ∀ m ∈ s.lnk.inSt, m.1.answer = none) (h2 : s.lnk.heldPf1 = []) : s.takeAnswers.flushPf1 = s := by
  rw [takeAnswers_eq_self h1, flushPf1_eq_self h2]

/-- A frame while both ends are up, to the Saggar. -/
theorem goodFrame_toSaggar {f : SaggarFrame} {s : State} (hup : s.lnk.up = true) (hsg : s.lnk.sgUp = true) (hto : f.toSaggar = true) : s.goodFrame f =
    if f.type = 1 then (s.onLnk (fun l => { l with
        fails := (0, l.fails.2), seqs := (f.seq, l.seqs.2)
        inSg := l.inSg ++ (l.toSg.take 1).map (fun m => (m.1, m.2.1)), toSg := l.toSg.drop 1 })).takeAnswers.flushPf1
    else s.onLnk (fun l => { l with fails := (0, l.fails.2), seqs := (f.seq, l.seqs.2) }) := by
  rw [goodFrame_plain (.inr hto), frameTaken_up hup hsg, hto]
  unfold SgLink.seen SgLink.deliver
  rw [hto]
  rfl

/-- A frame while both ends are up, to the main die. -/
theorem goodFrame_toMain {f : SaggarFrame} {s : State} (hup : s.lnk.up = true) (hsg : s.lnk.sgUp = true) (hser : f.serial = none) (hto : f.toSaggar = false) :
    s.goodFrame f =
    if f.type = 1 then (s.onLnk (fun l => { l with
        fails := (l.fails.1, 0), seqs := (l.seqs.1, f.seq), inSt := l.inSt ++ l.toSt.take 1, toSt := l.toSt.drop 1 })).takeAnswers.flushPf1
    else s.onLnk (fun l => { l with fails := (l.fails.1, 0), seqs := (l.seqs.1, f.seq) }) := by
  rw [goodFrame_plain (.inl hser), frameTaken_up hup hsg, hto]
  unfold SgLink.seen SgLink.deliver
  rw [hto]
  rfl

/-- A frame of another class, to the main die's end that is down. -/
theorem goodFrame_downMain {f : SaggarFrame} {s : State} (hup : s.lnk.up = false) (hser : f.serial = none) (hto : f.toSaggar = false) (ht : f.type ≠ 1)
    {u : State} (hu : u = s.onLnk (fun l => { l with
      fails := (l.fails.1, 0), seqs := (l.seqs.1, f.seq), runs := (l.runs.1, l.runs.2 + 1), acked := (l.acked.1, l.acked.2 || f.ackProbe) })) :
    s.goodFrame f = if 8 ≤ s.lnk.runs.2 + 1 ∧ (s.lnk.acked.2 || f.ackProbe) = true then u.endRecovers false else u := by
  have he : (s.onLnk (SgLink.seen f)).onLnk (SgLink.ran f) = u := by
    rw [hu]
    unfold SgLink.seen SgLink.ran
    rw [hto]
    rfl
  have hrec : u.lnk.recovered false = (decide (8 ≤ s.lnk.runs.2 + 1) && (s.lnk.acked.2 || f.ackProbe)) := by
    rw [hu]
    rfl
  rw [goodFrame_plain (.inl hser), frameTaken_other ht (by rw [hto]; exact hup), he, hto, hrec]
  simp only [Bool.and_eq_true, decide_eq_true_eq]

/-- A frame of another class, to the Saggar's end that is down. -/
theorem goodFrame_downSaggar {f : SaggarFrame} {s : State} (hsg : s.lnk.sgUp = false) (hto : f.toSaggar = true) (ht : f.type ≠ 1)
    {u : State} (hu : u = s.onLnk (fun l => { l with
      fails := (0, l.fails.2), seqs := (f.seq, l.seqs.2), runs := (l.runs.1 + 1, l.runs.2), acked := (l.acked.1 || f.ackProbe, l.acked.2) })) :
    s.goodFrame f = if 8 ≤ s.lnk.runs.1 + 1 ∧ (s.lnk.acked.1 || f.ackProbe) = true then u.endRecovers true else u := by
  have he : (s.onLnk (SgLink.seen f)).onLnk (SgLink.ran f) = u := by
    rw [hu]
    unfold SgLink.seen SgLink.ran
    rw [hto]
    rfl
  have hrec : u.lnk.recovered true = (decide (8 ≤ s.lnk.runs.1 + 1) && (s.lnk.acked.1 || f.ackProbe)) := by
    rw [hu]
    rfl
  rw [goodFrame_plain (.inr hto), frameTaken_other ht (by rw [hto]; exact hsg), he, hto, hrec]
  simp only [Bool.and_eq_true, decide_eq_true_eq]

theorem frameGood_iff (f : SaggarFrame) : frameGood f = true ↔ f.payload.length = f.length ∧ f.length ≤ 64 ∧
    f.crc = crc16 (le 1 f.type ++ le 1 f.length ++ le 2 f.seq ++ f.payload) := by
  unfold frameGood frameHeader
  simp only [Bool.and_eq_true, beq_iff_eq, decide_eq_true_eq, and_assoc]

theorem frame_of {f : SaggarFrame} {s u : State} {P : State → Prop} (he : linkFrame f s.start = u) (h : P u) : Answers (.saggarLinkFrame f) s P :=
  ⟨u, congrArg Host.Outcome.next he, h⟩

theorem probed_up {l : SgLink} (hup : l.up = true) (hsg : l.sgUp = true) : { l with
    probes := (l.probes.1 + b2n (!l.up), l.probes.2 + b2n (!l.sgUp)), acked := (l.acked.1 && l.sgUp, l.acked.2 && l.up) } = l := by
  obtain ⟨up, sgUp, _, _, _, _, _, _, _, _, _, _, _, _, _⟩ := l
  obtain rfl : up = true := hup
  obtain rfl : sgUp = true := hsg
  simp [b2n]

theorem linkProbe_alive {s : State} (hm : s.mainRuns = true) (hr : s.sgm.runs = true) : linkProbe s = s.onLnk (fun l => { l with
    probes := (l.probes.1 + b2n (!l.up), l.probes.2 + b2n (!l.sgUp)), acked := (l.acked.1 && l.sgUp, l.acked.2 && l.up) }) := by
  unfold linkProbe State.linkAlive
  rw [hm, hr, if_neg (by decide)]

/-- Another Saggar's frame. -/
theorem saggar_replaced {f : SaggarFrame} {s : State} {n : BitVec 64} (hserial : f.serial = some n) (hto : f.toSaggar = false) (hn : n ≠ s.mss.serial)
    (h0 : s.sup.saggarSerial ≠ 0) (hold : s.sup.saggarSerial ≠ n.toNat) (hready : s.sup.holdupReady = true) (hup : s.lnk.up = true) (hsg : s.lnk.sgUp = true) :
    ∃ v t, s.fitSaggar n = v ∧ s.goodFrame f = t ∧ t.mss = v.mss ∧ t.bte = v.bte ∧ t.sgm = v.sgm ∧ t.shelf = v.shelf ∧ t.sup.saggarSerial = n.toNat ∧
      t.sup.replaced = true ∧ t.sup.lastEvent = some (1, 255, 0x32, 0) ∧ CrossMsg.resync 0 ∈ t.lnk.toSg.map Prod.fst ++ t.lnk.inSg.map Prod.fst ∧
      (∃ r, t.sup.journal.getLast? = some r ∧ r.code = 0x0902 ∧ r.arg0 = s.sup.saggarSerial % 2 ^ 32 ∧ r.arg1 = n.toNat % 2 ^ 32) := by
  obtain ⟨v', hv', -, -, -, -, hl⟩ := fitSaggar_spec hn
  obtain ⟨v, w, hv, hw, wmss, wbte, wsgm, wshelf, wserial, wreplaced, wlast, wjournal, m, wlnk⟩ := meetSerial_spec hn h0 hold hready hup
  obtain rfl : v' = v := hv'.symm.trans hv
  have hvup : v'.lnk.up = true := (congrArg SgLink.up hl).trans hup
  have hvsg : v'.lnk.sgUp = true := (congrArg SgLink.sgUp hl).trans hsg
  have he : s.goodFrame f = if f.type = 1 then ((w.onLnk (SgLink.seen f)).onLnk (SgLink.deliver f.toSaggar)).takeAnswers.flushPf1 else w.onLnk (SgLink.seen f) := by
    rw [goodFrame_met hserial hto, hw]
    exact frameTaken_up (by rw [wlnk]; exact hvup) (by rw [wlnk]; exact hvsg)
  have hsent : CrossMsg.resync 0 ∈ w.lnk.toSg.map Prod.fst := by
    rw [wlnk, List.map_append]
    exact List.mem_append_right _ (List.mem_singleton.mpr rfl)
  refine ⟨v', _, hv, he, ?_⟩
  by_cases ht : f.type = 1
  · rw [if_pos ht]
    let x := (w.onLnk (SgLink.seen f)).onLnk (SgLink.deliver f.toSaggar)
    have hlnk : x.takeAnswers.flushPf1.lnk.toSg = w.lnk.toSg := by
      have hx : x.lnk.toSg = w.lnk.toSg := by
        change (SgLink.deliver f.toSaggar _).toSg = _
        unfold SgLink.deliver
        rw [hto]
        rfl
      rw [flushPf1_lnk, takeAnswers_lnk, ← hx]
      split <;> rfl
    have hpart {π : Part} (hp : π ∉ [.rings, .lnk, .blk, .out]) : part π x.takeAnswers.flushPf1 = part π w := by
      simp only [List.mem_cons, List.not_mem_nil, or_false, not_or] at hp
      exact (flushPf1_part (by simp [hp]) _).trans ((takeAnswers_part (by simp [hp]) _).trans
        ((onLnk_part (by simp [hp]) _ _).trans (onLnk_part (by simp [hp]) _ _)))
    have hsup : x.takeAnswers.flushPf1.sup = w.sup := sup_of_frame (fun _ hp => hpart hp) (by simp) (by simp) (by simp)
    change x.takeAnswers.flushPf1.mss = _ ∧ x.takeAnswers.flushPf1.bte = _ ∧ x.takeAnswers.flushPf1.sgm = _ ∧ x.takeAnswers.flushPf1.shelf = _ ∧
      x.takeAnswers.flushPf1.sup.saggarSerial = _ ∧ x.takeAnswers.flushPf1.sup.replaced = _ ∧ x.takeAnswers.flushPf1.sup.lastEvent = _ ∧
      CrossMsg.resync 0 ∈ x.takeAnswers.flushPf1.lnk.toSg.map Prod.fst ++ _ ∧ (∃ r, x.takeAnswers.flushPf1.sup.journal.getLast? = some r ∧ _)
    rw [hsup, hlnk]
    exact ⟨(hpart (π := .mss) (by simp)).trans wmss, (hpart (π := .bte) (by simp)).trans wbte, (hpart (π := .sgm) (by simp)).trans wsgm,
      (hpart (π := .shelf) (by simp)).trans wshelf, wserial, wreplaced, wlast, List.mem_append_left _ hsent, wjournal⟩
  · rw [if_neg ht]
    exact ⟨wmss, wbte, wsgm, wshelf, wserial, wreplaced, wlast, List.mem_append_left _ hsent, wjournal⟩

/-- Settles O28: a frame is judged by its check, delivers or counts as its class says, and the ends fall and rise as R41 and R42 order. -/
theorem saggarLink : Obligations.SaggarLink := by
  refine ⟨?sound, ?unsound, ?toSaggar, ?toMain, ?bad, ?riseMain, ?riseSaggar, ?badDown, ?probe, ?noProbe, ?other⟩
  case sound => exact fun f h1 h2 h3 => (frameGood_iff f).mpr ⟨h1, h2, h3⟩
  case unsound =>
    intro f h
    refine Bool.eq_false_iff.mpr (fun hg => ?_)
    obtain ⟨h1, h2, h3⟩ := (frameGood_iff f).mp hg
    rcases h with h | h | h
    · exact h h1
    · omega
    · exact h h3
  case toSaggar =>
    intro f s hm hr hup hsg hg hto
    have he : linkFrame f s.start = _ := (linkFrame_good (s := s.start) hm hr hg).trans (goodFrame_toSaggar hup hsg hto)
    refine ⟨fun ht hheld hin => ?_, fun ht => ?_⟩
    · rw [if_pos ht] at he
      exact frame_of (he.trans (nothing_arrives hin hheld)) rfl
    · rw [if_neg ht] at he
      exact frame_of he rfl
  case toMain =>
    intro f s hm hr hup hsg hg hser hto
    have he : linkFrame f s.start = _ := (linkFrame_good (s := s.start) hm hr hg).trans (goodFrame_toMain hup hsg hser hto)
    refine ⟨fun ht hin => ?_, fun ht hheld hin => ?_, fun ht => ?_⟩
    · rw [if_pos ht] at he
      have hf := he.trans (congrArg State.flushPf1 (takeAnswers_eq_self hin))
      refine frame_of hf ?_
      rw [flushPf1_lnk]
      have hturn (x : SgLink) (h1 : x.up = true) (h2 : x.sgUp = true) (h3 : x.toSt = s.lnk.toSt.drop 1) (h4 : x.heldPf1 = s.lnk.heldPf1) :
          (s.lnk.toSt.length ≤ 1 → (if x.pf1Turn then { x with heldPf1 := [] } else x).heldPf1 = []) ∧
          (1 < s.lnk.toSt.length → (if x.pf1Turn then { x with heldPf1 := [] } else x).heldPf1 = s.lnk.heldPf1) := by
        have hx : x.pf1Turn = (s.lnk.toSt.drop 1).isEmpty := by
          unfold SgLink.pf1Turn SgLink.path
          rw [h1, h2, h3]
          rfl
        refine ⟨fun hlen => ?_, fun hlen => ?_⟩
        · rw [if_pos (by rw [hx, List.isEmpty_iff, List.drop_eq_nil_iff]; exact hlen)]
        · rw [if_neg (by rw [hx, List.isEmpty_iff, List.drop_eq_nil_iff]; omega)]
          exact h4
      exact hturn _ hup hsg rfl rfl
    · rw [if_pos ht] at he
      exact frame_of (he.trans (nothing_arrives hin hheld)) rfl
    · rw [if_neg ht] at he
      exact frame_of he rfl
  case bad =>
    intro f s hm hr hup hsg hg hto
    have he : linkFrame f s.start = _ := (linkFrame_bad (s := s.start) hm hr hg).trans (badFrame_up hup hsg)
    have hcount : s.start.lnk.failCount f = if s.lnk.seqs.1 = f.seq then s.lnk.fails.1 + 1 else 1 := by
      unfold SgLink.failCount
      rw [hto]
      rfl
    rw [hcount] at he
    refine ⟨fun hne => ?_, fun heq hlt => ?_, fun heq htwo hready hd => ?_⟩
    · rw [if_neg hne, if_neg (by omega), hto] at he
      exact frame_of he rfl
    · rw [if_pos heq, if_neg (by omega), hto] at he
      refine frame_of he ?_
      rw [← heq]
      rfl
    · rw [if_pos heq, if_pos (by omega), hto, htwo] at he
      let u : State := s.start.onLnk (fun l => { l with fails := (3, l.fails.2), seqs := (f.seq, l.seqs.2) })
      have hf : linkFrame f s.start = u.linkFails true f.seq := he
      have hlnk := linkFails_lnk true f.seq u
      obtain ⟨hlast, hjournal⟩ := linkFails_sup (s := u) hready true f.seq
      obtain ⟨ht1, ht2, ht3⟩ := linkFails_tunnel (s := u) hd true f.seq
      have hout := linkFails_outbox (s := u) (toSg := true) (seq := f.seq)
      have hsag := linkFails_saggar true f.seq u
      refine frame_of hf ?_
      generalize u.linkFails true f.seq = t at *
      rw [hlnk]
      exact ⟨rfl, rfl, rfl, rfl, rfl, rfl, fun h1 h2 h3 => hout h1 h2 h3, hlast, hjournal, ht1, ht2, ht3, hsag⟩
  case riseMain =>
    intro f s hm hr hup hg hser hto ht
    have he : linkFrame f s.start = _ := (linkFrame_good (s := s.start) hm hr hg).trans (goodFrame_downMain (s := s.start) hup hser hto ht rfl)
    refine ⟨fun h8 hack => ?_, fun hno => ?_⟩
    · rw [if_pos ⟨h8, hack⟩] at he
      obtain ⟨t, hu, hlast, hbox, ⟨ms, hms, hl⟩, hmoved⟩ := endRecovers_main (s.start.onLnk (fun l => { l with
        fails := (l.fails.1, 0), seqs := (l.seqs.1, f.seq), runs := (l.runs.1, l.runs.2 + 1), acked := (l.acked.1, l.acked.2 || f.ackProbe) }))
      refine frame_of (he.trans hu) ?_
      rw [hl]
      refine ⟨rfl, rfl, rfl, hlast, hbox, ?_, fun h1 h2 => ?_, fun h => ?_, hmoved⟩
      · rw [← show ms.map Prod.fst = s.spa.outbox.map HeldMsg.msg from hms]
        exact List.map_append
      · exact if_pos (by rw [show State.lnk _ = _ from rfl]; simp [State.onLnk, State.start, h1, h2])
      · refine if_neg ?_
        rcases h with h | h
        · simp [State.onLnk, State.start, h]
        · simp [State.onLnk, State.start, h]
    · have hcond : ¬(8 ≤ s.start.lnk.runs.2 + 1 ∧ (s.start.lnk.acked.2 || f.ackProbe) = true) := fun h =>
        hno.elim (fun h1 => Nat.not_le.mpr h1 h.1) (fun h2 => Bool.false_ne_true (h2.symm.trans h.2))
      rw [if_neg hcond] at he
      exact frame_of he rfl
  case riseSaggar =>
    intro f s hm hr hsg hg hto ht
    have he : linkFrame f s.start = _ := (linkFrame_good (s := s.start) hm hr hg).trans (goodFrame_downSaggar (s := s.start) hsg hto ht rfl)
    refine ⟨fun h8 hack => ?_, fun hno => ?_⟩
    · rw [if_pos ⟨h8, hack⟩] at he
      obtain ⟨t, hu, hsup, hspa, hl, hmoved⟩ := endRecovers_saggar (s.start.onLnk (fun l => { l with
        fails := (0, l.fails.2), seqs := (f.seq, l.seqs.2), runs := (l.runs.1 + 1, l.runs.2), acked := (l.acked.1 || f.ackProbe, l.acked.2) }))
      refine frame_of (he.trans hu) ?_
      rw [hl]
      refine ⟨rfl, rfl, hsup, hspa, fun h1 h2 => ?_, fun h => ?_, hmoved⟩
      · exact if_pos (by simp [State.onLnk, State.start, h1, h2])
      · refine if_neg ?_
        rcases h with h | h
        · simp [State.onLnk, State.start, h]
        · simp [State.onLnk, State.start, h]
    · have hcond : ¬(8 ≤ s.start.lnk.runs.1 + 1 ∧ (s.start.lnk.acked.1 || f.ackProbe) = true) := fun h =>
        hno.elim (fun h1 => Nat.not_le.mpr h1 h.1) (fun h2 => Bool.false_ne_true (h2.symm.trans h.2))
      rw [if_neg hcond] at he
      exact frame_of he rfl
  case badDown =>
    intro f s hm hr hup hsg hg
    exact frame_of ((linkFrame_bad (s := s.start) hm hr hg).trans (badFrame_down hup hsg)) rfl
  case probe =>
    intro s hm hr
    have he := linkProbe_alive (s := s.start) hm hr
    refine ⟨fun hup hsg => ?_, fun hup hsg => ?_, fun hup hsg => ?_⟩
    all_goals
      refine ⟨_, congrArg Host.Outcome.next he, ?_⟩
      simp [State.onLnk, State.start, hup, hsg, b2n]
  case noProbe =>
    intro s hup hsg
    have he : linkProbe s.start = s.start := by
      unfold linkProbe
      split
      · rfl
      · unfold State.onLnk
        dsimp only
        rw [probed_up (l := s.start.lnk) hup hsg]
    exact ⟨_, congrArg Host.Outcome.next he, rfl⟩
  case other =>
    intro f s n hm hr hg hserial hto hn h0 hold hready hup hsg
    obtain ⟨v', hv', hnew, hback, hhead, -, -⟩ := fitSaggar_spec (s := s.start) hn
    obtain ⟨v, t, hv, ht, tmss, tbte, tsgm, tshelf, hrest⟩ := saggar_replaced (s := s.start) hserial hto hn h0 hold hready hup hsg
    obtain rfl : v' = v := hv'.symm.trans hv
    obtain ⟨hser, hrep, hlast, hsync, hjournal⟩ := hrest
    refine frame_of ((linkFrame_good (s := s.start) hm hr hg).trans ht) ?_
    rw [tmss, tbte, tsgm, tshelf]
    exact ⟨hnew, hback, hhead, hser, hrep, hlast, hsync, hjournal⟩

end Sys2Proof.Machine
end
section
/-! PROOFS. BTE and MSS through the parts of a sample (R347, R360 to R363, R371) -/

namespace Sys2Proof.Machine

open Sys2Proof

/-! ### What no carry and no credit evaluation changes of BTE -/

/-- A part of BTE that attribution, charges and credit messages leave alone. -/
def Unbilled {α : Type} (φ : Bte → α) : Prop :=
  ∀ b t c s i e q l, φ { b with trDc := t, credit := c, sess := s, trImp := i, trExp := e, carryQ := q, lastEvent := l } = φ b

section unbilled
variable {α : Type} {φ : Bte → α}

theorem carried_bte (h : Unbilled φ) (id c : Nat) (b : Bte) : φ (b.carried id c) = φ b := by
  unfold Bte.carried
  split
  · exact h b _ _ _ b.trImp b.trExp b.carryQ b.lastEvent
  · split
    · exact h b b.trDc b.credit b.sess _ b.trExp b.carryQ b.lastEvent
    · split
      · exact h b b.trDc b.credit b.sess b.trImp _ b.carryQ b.lastEvent
      · rfl

theorem carry_bte (h : Unbilled φ) (id c : Nat) (s : State) : φ (s.carry id c).bte = φ s.bte := by
  rw [carry_eq]
  split
  · rfl
  · split
    · exact h s.bte s.bte.trDc s.bte.credit s.bte.sess s.bte.trImp s.bte.trExp _ s.bte.lastEvent
    · exact carried_bte h ..

theorem bumpReg_bte (h : Unbilled φ) (id a : Nat) (s : State) : φ (s.bumpReg id a).bte = φ s.bte := by
  unfold State.bumpReg
  exact carry_bte h id _ (s.onSgm _)

theorem dcSample_bte (h : Unbilled φ) (xs : List Int) (n : Nat) (s : State) : φ (s.dcSample xs n).bte = φ s.bte := by
  unfold State.dcSample
  dsimp only
  split
  · rfl
  · split <;> exact bumpReg_bte h ..

theorem dcSamples_bte (h : Unbilled φ) (xs : List Int) (s : State) : φ (s.dcSamples xs).bte = φ s.bte :=
  foldl_kept (φ := fun u : State => φ u.bte) (fun u n => dcSample_bte h xs n u) _ s

theorem acBoundary_bte (s : State) : s.acBoundary.bte = s.bte := by
  unfold State.acBoundary
  dsimp only
  split <;> rfl

theorem blockEnd_bte (h : Unbilled φ) (s : State) : φ (blockEnd s).bte = φ s.bte := by
  have hbumps (p q : Int) (a : Nat) (u : State) : φ (u.blockBumps p q a).bte = φ u.bte :=
    (bumpReg_bte h ..).trans ((bumpReg_bte h ..).trans (bumpReg_bte h ..))
  by_cases hb : s.sgm.mode ≠ .normal ∨ s.sgm.block.n ≠ 1600
  · rw [blockEnd_none hb]
  · rw [not_or, not_not, not_not] at hb
    rw [blockEnd_eq hb.1 hb.2, acBoundary_bte]
    split
    · rfl
    · rw [hbumps]
      rfl

theorem creditEval_bte (h : Unbilled φ) (s : State) : φ s.creditEval.bte = φ s.bte := by
  unfold State.creditEval
  split
  · rfl
  · exact foldl_kept (φ := fun u : State => φ u.bte)
      (fun u x => evalSess_bte (fun b l y => h b b.trDc b.credit y b.trImp b.trExp b.carryQ l) x u) _ s

theorem setFault_bte (h : Unbilled φ) (c cause : Nat) (s : State) : φ (s.setFault c cause).bte = φ s.bte := by
  unfold State.setFault
  dsimp only
  split
  · rfl
  · exact creditEval_bte h (s.onSgm _)

theorem channelFault_bte (h : Unbilled φ) (c cause : Nat) (s : State) : φ (channelFault c cause s).bte = φ s.bte := by
  unfold channelFault
  dsimp only
  split
  · exact setFault_bte h ..
  · rfl

theorem channelClear_bte (h : Unbilled φ) (c : Nat) (s : State) : φ (channelClear c s).bte = φ s.bte := by
  unfold channelClear
  split
  · exact setFault_bte h ..
  · rfl

theorem saveDone_bte (s : State) : s.saveDone.bte = s.bte := saveDone_part (π := .bte) (by simp) s

theorem sgmDue_bte (h : Unbilled φ) (s : State) : φ s.sgmDue.bte = φ s.bte := by
  have hone (u : State) (c : Nat) : φ (channelClear c (channelFault c 2 (channelFault c 1 u))).bte = φ u.bte :=
    (channelClear_bte h c _).trans ((channelFault_bte h c 2 _).trans (channelFault_bte h c 1 u))
  unfold State.sgmDue
  rw [foldl_kept (φ := fun u : State => φ u.bte) hone, blockEnd_bte h, saveDone_bte]

theorem pulseApply_bte (c : PulseCfg) (s : State) : (s.pulseApply c).bte = s.bte := by
  unfold State.pulseApply
  split
  · exact log_part (π := .bte) (by simp) ..
  · exact log_part (π := .bte) (by simp) ..

theorem boundaryStart_bte (h : Unbilled φ) (s : State) : φ s.boundaryStart.bte = φ s.bte := by
  have hfold (l : List PulseCfg) (u : State) : (l.foldl (fun s c => s.pulseApply c) u).bte = u.bte :=
    foldl_kept (φ := fun u : State => u.bte) (fun u c => pulseApply_bte c u) l u
  have hunsaid : φ s.unsaid.bte = φ s.bte := h s.bte s.bte.trDc s.bte.credit _ s.bte.trImp s.bte.trExp s.bte.carryQ s.bte.lastEvent
  rw [boundaryStart_eq]
  unfold State.pulseCfgs
  rw [hfold]
  split
  · exact (congrArg φ (acBoundary_bte _)).trans hunsaid
  · exact hunsaid

end unbilled

/-! ### The legal clock behind a boundary -/

theorem unbilled_clock : Unbilled (fun b : Bte => (b.off, b.steps, b.up)) := fun _ _ _ _ _ _ _ _ => rfl

/-- What a period's close and its dates change of BTE. -/
def Unperiodic {α : Type} (φ : Bte → α) : Prop := ∀ b d i m p t f l, φ { b with
  periodDates := d, mdImp := i, mdDc := m, period := p, periodStart := t, periodBad := f, lastEvent := l } = φ b

theorem closePeriod_bte {α : Type} {φ : Bte → α} (h : Unperiodic φ) (s : State) : φ s.closePeriod.bte = φ s.bte := by
  have hrecord (d : List Byte) : (s.record 2 d).bte = s.bte := record_part (π := .bte) (by simp) ..
  unfold State.closePeriod
  dsimp only
  generalize le 4 s.bte.period ++ le 4 (b2n s.bte.periodBad) ++ le 8 s.bte.periodStart ++ le 8 s.bte.lTime ++ zeros 8 ++ (List.range 80).flatMap s.bteEntry = d
  rw [bteEvent_bte]
  refine (h (s.record 2 d).bte _ _ _ _ _ _ _).trans ?_
  rw [hrecord]

theorem evalPeriod_bte {α : Type} {φ : Bte → α} (h : Unperiodic φ) (c : Calendar) (date : Nat) (s : State) : φ (s.evalPeriod c date).bte = φ s.bte := by
  have hdate : φ (s.onBte (fun b => { b with periodDates := b.periodDates ++ [date] })).bte = φ s.bte :=
    h s.bte _ s.bte.mdImp s.bte.mdDc s.bte.period s.bte.periodStart s.bte.periodBad s.bte.lastEvent
  unfold State.evalPeriod
  dsimp only
  split
  · rfl
  · split
    · exact (closePeriod_bte h _).trans hdate
    · exact hdate

theorem gapDone_bte (s : State) : s.gapDone.bte = s.bte := by
  unfold State.gapDone
  split
  · exact log_part (π := .bte) (by simp) ..
  · rfl

/-- The offset of the legal clock and the uptime. -/
def State.clock (s : State) : Option Int × Nat := (s.bte.off, s.bte.up)

/-- A closed interval's record and demands. -/
theorem closeInterval_eq (t f : Nat) (s : State) : ∃ st i d, s.closeInterval t f = { s with bte := { s.bte with store := st, mdImp := i, mdDc := d } } := by
  unfold State.closeInterval State.onBte
  dsimp only
  exact ⟨_, _, _, rfl⟩

theorem closeInterval_clock (t f : Nat) (s : State) : (s.closeInterval t f).clock = s.clock := by
  obtain ⟨st, i, d, h⟩ := closeInterval_eq t f s
  rw [h]
  rfl

theorem openInterval_clock (t f : Nat) (s : State) : (s.openInterval t f).clock = s.clock := rfl

theorem flagInterval_clock (f : Nat) (s : State) : (s.flagInterval f).clock = s.clock := rfl

theorem recompute_clock (s : State) : s.recompute.clock = s.clock := rfl

theorem gapDone_clock (s : State) : s.gapDone.clock = s.clock := by
  unfold State.clock
  rw [gapDone_bte]

theorem rateAt_clock (t : Nat) (s : State) : (s.rateAt t).clock = s.clock := by
  unfold State.rateAt
  split <;> rfl

theorem closePassed_clock (n k : Nat) (s : State) : (State.closePassed n k s).clock = s.clock := by
  have hclosed (u : State) (b : Nat) : (u.onBte (fun x => { x with closed := b })).clock = u.clock := rfl
  induction n generalizing s with
  | zero => rfl
  | succ n ih =>
    unfold State.closePassed
    dsimp only
    generalize s.bte.boundary k - n * (s.bte.lenMs * 1000) = b
    rw [ih]
    split
    · rw [openInterval_clock, rateAt_clock, hclosed, closeInterval_clock]
    · rfl

/-- The legal clock set. -/
def State.clockSet (o : Int) (s : State) : State := s.onBte (fun b => { b with off := some o })

theorem clockSet_clock (o : Int) (s : State) : (s.clockSet o).clock = (some o, s.clock.2) := rfl

theorem applyStep_first {st : ClockStep} (h : st.cls = 2) (s : State) : s.applyStep st =
    let s1 := (s.clockSet st.off).recompute.onBte (fun b => { b with closed := max b.closed (b.boundary ((s.bte.up : Int) + st.off).toNat) })
    (((({ s1 with bte := { s1.bte with off := none } } : State).closeInterval timeUnknown 2).clockSet st.off).openInterval ((s.bte.up : Int) + st.off).toNat 64).gapDone :=
  if_pos h

theorem applyStep_small {st : ClockStep} (h : st.cls = 0) (s : State) : s.applyStep st =
    let d := (((s.bte.up : Int) + st.off).toNat : Int) - s.bte.lTime
    let s1 := (s.clockSet st.off).onBte (fun b => { b with open_ := { b.open_ with adj := b.open_.adj + d } })
    if 0 ≤ d then (State.closePassed (d.toNat / (s.bte.lenMs * 1000) + 1) ((s.bte.up : Int) + st.off).toNat s1).recompute
    else (if ((s.bte.up : Int) + st.off).toNat < s.bte.closed then s1.flagInterval 4 else s1).recompute := by
  unfold State.applyStep
  dsimp only
  rw [if_neg (by omega), if_pos h]
  rfl

theorem applyStep_large {st : ClockStep} (h : st.cls ≠ 0) (h2 : st.cls ≠ 2) (s : State) : s.applyStep st =
    let s2 := ((s.closeInterval s.bte.lTime 2).clockSet st.off).recompute
    if s.bte.lTime ≤ ((s.bte.up : Int) + st.off).toNat then
      (s2.onBte (fun b => { b with closed := max b.closed (b.boundary ((s.bte.up : Int) + st.off).toNat) })).openInterval ((s.bte.up : Int) + st.off).toNat 64
    else s2.openInterval ((s.bte.up : Int) + st.off).toNat 4 := by
  unfold State.applyStep
  dsimp only
  rw [if_neg h2, if_neg h]
  rfl

/-- An accepted step moves the clock, whatever its class. -/
theorem applyStep_clock (st : ClockStep) (s : State) : (s.applyStep st).clock = (some st.off, s.bte.up) := by
  have hnone (u : State) : ({ u with bte := { u.bte with off := none } } : State).clock = (none, u.clock.2) := rfl
  have hclosed (u : State) (f : Bte → Nat) : (u.onBte (fun b => { b with closed := f b })).clock = u.clock := rfl
  have hadj (u : State) (d : Int) : (u.onBte (fun b => { b with open_ := { b.open_ with adj := b.open_.adj + d } })).clock = u.clock := rfl
  have hup : s.clock.2 = s.bte.up := rfl
  generalize hnew : ((s.bte.up : Int) + st.off).toNat = new
  by_cases h2 : st.cls = 2
  · rw [applyStep_first h2, hnew]
    dsimp only
    rw [gapDone_clock, openInterval_clock, clockSet_clock, closeInterval_clock, hnone, hclosed _ (fun b => max b.closed (b.boundary new)), recompute_clock,
      clockSet_clock, hup]
  · by_cases h0 : st.cls = 0
    · rw [applyStep_small h0, hnew]
      dsimp only
      split
      · rw [recompute_clock, closePassed_clock, hadj, clockSet_clock, hup]
      · rw [recompute_clock]
        split
        · rw [flagInterval_clock, hadj, clockSet_clock, hup]
        · rw [hadj, clockSet_clock, hup]
    · rw [applyStep_large h0 h2, hnew]
      dsimp only
      split
      · rw [openInterval_clock, hclosed _ (fun b => max b.closed (b.boundary new)), recompute_clock, clockSet_clock, closeInterval_clock, hup]
      · rw [openInterval_clock, recompute_clock, clockSet_clock, closeInterval_clock, hup]

theorem takeStep_clock (st : ClockStep) (s : State) : (s.takeStep st).clock = (some st.off, s.bte.up) := by
  have heval (c : Calendar) (d : Nat) (u : State) : (u.evalPeriod c d).clock = u.clock :=
    evalPeriod_bte (φ := fun b => (b.off, b.up)) (fun _ _ _ _ _ _ _ _ => rfl) c d u
  have happly := applyStep_clock st s
  unfold State.takeStep
  dsimp only
  split
  · split
    · rw [heval, happly]
    · exact happly
  · exact happly

/-- The steps that waited are over. -/
theorem clockStep_one {s : State} {st : ClockStep} (h : s.bte.steps = [st]) : s.clockStep = (s.onBte (fun b => { b with steps := [] })).takeStep st := by
  unfold State.clockStep
  rw [h]
  rfl

theorem clockStep_none {s : State} (h : s.bte.steps = []) : s.clockStep = s.onBte (fun b => { b with steps := [] }) := by
  unfold State.clockStep
  rw [h]
  rfl

/-- The clock at the end of a boundary. -/
theorem boundaryEnd_clock (s : State) : s.boundaryEnd.bte.up = s.bte.up ∧ (s.bte.steps = [] → s.boundaryEnd.bte.off = s.bte.off) ∧
    (∀ st, s.bte.steps = [st] → s.mss.restarting = false → s.boundaryEnd.bte.off = some st.off) := by
  have hfold (l : List ClockStep) (u : State) : (l.foldl (fun s st => s.takeStep st) u).bte.up = u.bte.up :=
    foldl_kept (φ := fun u : State => u.bte.up) (fun u st => congrArg Prod.snd (takeStep_clock st u)) l u
  have hcredit := creditEval_bte unbilled_clock s
  have hoff : s.creditEval.bte.off = s.bte.off := congrArg Prod.fst hcredit
  have hsteps : s.creditEval.bte.steps = s.bte.steps := congrArg (fun x => x.2.1) hcredit
  have hup : s.creditEval.bte.up = s.bte.up := congrArg (fun x => x.2.2) hcredit
  have hb : s.boundaryEnd.bte = (if s.mss.restarting then s else s.creditEval.clockStep).bte := rfl
  rw [hb]
  split
  next hr => exact ⟨rfl, fun _ => rfl, fun st _ hn => absurd (hr.symm.trans hn) (by decide)⟩
  next hr =>
    refine ⟨(hfold _ _).trans hup, fun h => ?_, fun st h _ => ?_⟩
    · rw [clockStep_none (hsteps.trans h)]
      exact hoff
    · rw [clockStep_one (hsteps.trans h)]
      exact congrArg Prod.fst (takeStep_clock ..)

theorem lTime_eq {b b' : Bte} (h1 : b'.off = b.off) (h2 : b'.up = b.up) : b'.lTime = b.lTime := by
  unfold Bte.lTime
  rw [h1, h2]

/-! ### MSS through a boundary -/

/-- Whether the Saggar restarts, and whether a procedure is open. -/
def State.guarded (s : State) : Bool × Bool := (s.mss.restarting, decide (s.mss.sealSt = 1))

theorem guarded_of_mss {s t : State} (h : t.mss = s.mss) : t.guarded = s.guarded := by
  unfold State.guarded
  rw [h]

theorem guarded_of_logged {s t : State} (h : MssLogged s.mss t.mss) : t.guarded = s.guarded := by
  unfold State.guarded
  rw [h.eq]

theorem acBoundary_guarded (s : State) : s.acBoundary.guarded = s.guarded := by
  unfold State.acBoundary
  dsimp only
  split
  next h =>
    unfold State.guarded
    rw [h.1]
    rfl
  · rfl

theorem pulseApply_guarded (c : PulseCfg) (s : State) : (s.pulseApply c).guarded = s.guarded := by
  unfold State.pulseApply
  split
  · exact (guarded_of_logged (log_mss ..).2).trans rfl
  · exact (guarded_of_logged (log_mss ..).2).trans rfl

theorem boundaryStart_guarded (s : State) : s.boundaryStart.guarded = s.guarded := by
  rw [boundaryStart_eq]
  unfold State.pulseCfgs
  rw [foldl_kept (φ := State.guarded) (fun u c => pulseApply_guarded c u)]
  split
  · exact (acBoundary_guarded (s.unsaid.onSgm Sgm.calSet)).trans rfl
  · rfl

theorem blockEnd_guarded (s : State) : (blockEnd s).guarded = s.guarded := by
  have hbump (id a : Nat) (u : State) : (u.bumpReg id a).guarded = u.guarded := guarded_of_mss (bumpReg_part (π := .mss) (by simp) ..)
  by_cases hb : s.sgm.mode ≠ .normal ∨ s.sgm.block.n ≠ 1600
  · rw [blockEnd_none hb]
  · rw [not_or, not_not, not_not] at hb
    rw [blockEnd_eq hb.1 hb.2, acBoundary_guarded]
    split
    · rfl
    · unfold State.blockBumps
      rw [hbump, hbump, hbump]
      rfl

theorem sgmDue_guarded (s : State) : s.sgmDue.guarded = s.guarded := by
  have hone (u : State) (c : Nat) : (channelClear c (channelFault c 2 (channelFault c 1 u))).guarded = u.guarded := by
    refine guarded_of_mss (show part .mss _ = part .mss u from ?_)
    simp
  unfold State.sgmDue
  rw [foldl_kept (φ := State.guarded) hone, blockEnd_guarded]
  exact guarded_of_mss (saveDone_part (π := .mss) (by simp) s)

/-- Whether the Saggar restarts, and how far the procedure is. -/
def State.procedure (s : State) : Bool × Nat := (s.mss.restarting, s.mss.sealSt)

theorem procedure_of_mss {s t : State} (h : t.mss = s.mss) : t.procedure = s.procedure := by
  unfold State.procedure
  rw [h]

theorem procedure_of_logged {s t : State} (h : MssLogged s.mss t.mss) : t.procedure = s.procedure := by
  unfold State.procedure
  rw [h.eq]

theorem closePeriod_procedure (s : State) : s.closePeriod.procedure = s.procedure := by
  have hrecord (b : List Byte) : (s.record 2 b).procedure = s.procedure := rfl
  unfold State.closePeriod
  dsimp only
  exact (procedure_of_mss (bteEvent_part (π := .mss) (by simp) ..)).trans (hrecord _)

theorem evalPeriod_procedure (c : Calendar) (date : Nat) (s : State) : (s.evalPeriod c date).procedure = s.procedure := by
  unfold State.evalPeriod
  dsimp only
  split
  · rfl
  · split
    · exact (closePeriod_procedure _).trans rfl
    · rfl

theorem takeStep_procedure (st : ClockStep) (s : State) : (s.takeStep st).procedure = s.procedure := by
  have hgap (u : State) : u.gapDone.procedure = u.procedure := by
    unfold State.gapDone
    split
    · exact procedure_of_logged (log_mss ..).2
    · rfl
  have happly : (s.applyStep st).procedure = s.procedure := by
    unfold State.applyStep
    dsimp only
    split
    · rw [hgap]
      exact procedure_of_mss (show part .mss _ = part .mss s by simp)
    · split
      · split
        · exact procedure_of_mss (show part .mss _ = part .mss s by simp)
        · split <;> exact procedure_of_mss (show part .mss _ = part .mss s by simp)
      · split <;> exact procedure_of_mss (show part .mss _ = part .mss s by simp)
  unfold State.takeStep
  dsimp only
  split
  · split
    · rw [evalPeriod_procedure, happly]
    · exact happly
  · exact happly

theorem boundaryEnd_procedure (s : State) : s.boundaryEnd.procedure = s.procedure := by
  have hb : s.boundaryEnd.procedure = (if s.mss.restarting then s else s.creditEval.clockStep).procedure := rfl
  rw [hb]
  split
  · rfl
  · unfold State.clockStep
    rw [foldl_kept (φ := State.procedure) (fun u st => takeStep_procedure st u)]
    exact procedure_of_mss (creditEval_part (π := .mss) (by simp) s)

end Sys2Proof.Machine
end
section
/-! PROOFS. The Saggar's supply: its loss, saves and return (R73, R331 to R340, R371) -/

namespace Sys2Proof.Machine

open Sys2Proof

/-! ### Saves -/

theorem saveDone_saving (s : State) : s.saveDone.sgm.saving = none := by
  cases h : s.sgm.saving with
  | none => rw [saveDone_none h, h]
  | some v =>
    unfold State.saveDone
    rw [h]
    rfl

/-- A save of a kind reaches its slot. -/
theorem saveSgm_eq (k : Nat) (s : State) : ∃ p, s.saveSgm k = { s with sgm := { s.sgm with
    saving := none, saves := nvPut Save.bytes (s.saveNow k) p, lastSave := some (k, s.bte.up) } } := by
  unfold State.saveSgm
  dsimp only
  split
  next hk => exact ⟨s.sgm.saves, rfl⟩
  next hk =>
    cases h : s.sgm.saving with
    | none =>
      rw [saveDone_none h]
      refine ⟨s.sgm.saves, ?_⟩
      unfold State.savePut State.onSgm
      dsimp only
      rw [h]
      rfl
    | some v =>
      unfold State.saveDone
      rw [h]
      exact ⟨nvPut Save.bytes v s.sgm.saves, rfl⟩

theorem saved_of_saves {k t : Nat} {u : State} {v : Save} {p : Option (NvSlot Save) × Option (NvSlot Save)} (h : u.sgm.saves = nvPut Save.bytes v p)
    (hk : v.kind = k) (ht : v.time = t) (ha : v.acc = u.sgm.acc) (hr : v.res = u.sgm.res) : SavedNow k t u := by
  obtain ⟨x, hn, rfl⟩ := newest_of_saves h
  exact ⟨x, hn, hk, ht, ha, hr⟩

/-! ### The boundary at which the supply is lost -/

/-- The boundary of the sample in which the loss is detected, behind what it ends. -/
def State.lossBoundary (bits : List Nat) (s : State) : State := (((s.lossSample bits).abandonSeal 3).supplyEnds).boundaryEnd

theorem guarded_spec {s t : State} (h : t.guarded = s.guarded) : t.mss.restarting = s.mss.restarting ∧ (t.mss.sealSt = 1 ↔ s.mss.sealSt = 1) := by
  obtain ⟨h1, h2⟩ := Prod.mk.inj h
  exact ⟨h1, decide_eq_decide.mp h2⟩

theorem procedure_spec {s t : State} (h : t.procedure = s.procedure) : t.mss.restarting = s.mss.restarting ∧ t.mss.sealSt = s.mss.sealSt := Prod.mk.inj h

theorem supplyEnds_sgm (s : State) : s.supplyEnds.sgm = { s.sgm with
    block := Block.empty, pulses := s.sgm.pulses.map Pulse.cut
    faults := (List.range 40).map (fun c => if c < 16 ∨ 36 ≤ c then 0 else s.sgm.faults.getD c 0) }.renew := by
  have hone (t : State) (k : Nat) : (if (s.sgm.pulses.getD k Pulse.reset).active.isSome then t.emit (.pulse k false) else t).sgm = t.sgm := by
    split <;> rfl
  unfold State.supplyEnds
  exact foldl_kept (φ := State.sgm) hone _ _

theorem lossSample_meters_idle {bits : List Nat} {s : State} (h : s.sgm.mode ≠ .normal) : (s.lossSample bits).sgm.acc = s.sgm.acc ∧
    (s.lossSample bits).sgm.res = s.sgm.res := by
  have hmode : s.sgmDue.boundaryStart.sgm.mode ≠ .normal := by rw [boundaryStart_mode, sgmDue_mode]; exact h
  unfold State.lossSample
  dsimp only
  rw [if_pos hmode, sgmDue_idle h]
  exact ⟨(boundaryStart_sgm (φ := Sgm.acc) (by exact fun _ _ _ => rfl) (by exact fun _ _ => rfl) (by exact fun _ _ _ _ => rfl) _).trans
      (saveDone_sgm (φ := Sgm.acc) (by exact fun _ _ _ _ => rfl) s),
    (boundaryStart_sgm (φ := Sgm.res) (by exact fun _ _ _ => rfl) (by exact fun _ _ => rfl) (by exact fun _ _ _ _ => rfl) _).trans
      (saveDone_sgm (φ := Sgm.res) (by exact fun _ _ _ _ => rfl) s)⟩

theorem lossSample_normal {bits : List Nat} {s b : State} (h : s.sgm.mode = .normal) (hb : b = s.sgmDue.boundaryStart) :
    (s.lossSample bits).sgm = (b.sgm.samples (b.sgm.convertAll (b.sgm.codes bits))).decimate bits := by
  have hmode : b.sgm.mode = .normal := by rw [hb, boundaryStart_mode, sgmDue_mode, h]
  unfold State.lossSample
  dsimp only
  rw [← hb, if_neg (by simp [hmode]), ← dcSamples_sgm]
  rfl

/-- A part of BTE that the sample of a loss leaves alone. -/
theorem lossSample_bte {α : Type} {φ : Bte → α} (h : Unbilled φ) (bits : List Nat) (s : State) : φ (s.lossSample bits).bte = φ s.bte := by
  have hstart : φ s.sgmDue.boundaryStart.bte = φ s.bte := (boundaryStart_bte h _).trans (sgmDue_bte h s)
  unfold State.lossSample
  dsimp only
  split
  · exact hstart
  · exact (dcSamples_bte h _ s.sgmDue.boundaryStart).trans hstart

theorem lossSample_guarded (bits : List Nat) (s : State) : (s.lossSample bits).guarded = s.guarded := by
  have hstart : s.sgmDue.boundaryStart.guarded = s.guarded := (boundaryStart_guarded _).trans (sgmDue_guarded s)
  unfold State.lossSample
  dsimp only
  split
  · exact hstart
  · rw [← hstart]
    exact guarded_of_mss (dcSamples_part (π := .mss) (by simp) _ s.sgmDue.boundaryStart)

theorem abandonSeal_guarded (r : Nat) (s : State) : (s.abandonSeal r).mss.restarting = s.mss.restarting ∧ (s.mss.sealSt = 1 → (s.abandonSeal r).mss.sealSt = 0) := by
  refine ⟨?_, fun h => (abandonSeal_spec h r).1⟩
  unfold State.abandonSeal
  split
  · rfl
  · have hlog (d : List Byte) := guarded_of_logged (log_mss 0x04 (if r = 1 then 0 else 2) d 0 false s.sealDropped).2
    have hevent (u : State) : (u.mssEvent 0x04 r).guarded = u.guarded := guarded_of_logged (mssEvent_logged ..)
    exact congrArg Prod.fst ((hevent _).trans (hlog (le 1 r)))

/-- The boundary at which the supply is lost. -/
theorem lossBoundary_spec (bits : List Nat) (s : State) : ∃ u, s.lossBoundary bits = u ∧ u.sgm.block.n = 0 ∧ (∀ p ∈ u.sgm.pulses, p.active = none) ∧
    u.bte.up = s.bte.up ∧ (s.bte.steps = [] → u.bte.off = s.bte.off) ∧ (∀ st, s.bte.steps = [st] → s.mss.restarting = false → u.bte.off = some st.off) ∧
    (s.mss.sealSt = 1 → u.mss.sealSt = 0) ∧ u.sgm.acc = (s.lossSample bits).sgm.acc ∧ u.sgm.res = (s.lossSample bits).sgm.res := by
  have hsgm : ((s.lossSample bits).abandonSeal 3).sgm = (s.lossSample bits).sgm := abandonSeal_part (π := .sgm) (by simp) ..
  have hbte : ((s.lossSample bits).abandonSeal 3).supplyEnds.bte = (s.lossSample bits).bte :=
    (supplyEnds_part (π := .bte) (by simp) _).trans (abandonSeal_part (π := .bte) (by simp) ..)
  have hmss : ((s.lossSample bits).abandonSeal 3).supplyEnds.mss = ((s.lossSample bits).abandonSeal 3).mss := supplyEnds_part (π := .mss) (by simp) _
  have hends := supplyEnds_sgm ((s.lossSample bits).abandonSeal 3)
  rw [hsgm] at hends
  have hoff := lossSample_bte (φ := Bte.off) (by exact fun _ _ _ _ _ _ _ _ => rfl) bits s
  have hsteps := lossSample_bte (φ := Bte.steps) (by exact fun _ _ _ _ _ _ _ _ => rfl) bits s
  have hup := lossSample_bte (φ := Bte.up) (by exact fun _ _ _ _ _ _ _ _ => rfl) bits s
  obtain ⟨hrest, hseal⟩ := guarded_spec (lossSample_guarded bits s)
  obtain ⟨ha1, ha2⟩ := abandonSeal_guarded 3 (s.lossSample bits)
  unfold State.lossBoundary
  generalize s.lossSample bits = w at *
  generalize (w.abandonSeal 3).supplyEnds = v at *
  obtain ⟨c1, c2, c3⟩ := boundaryEnd_clock v
  have hend {α : Type} (φ : Sgm → α) (h1 : ∀ g a b, φ { g with saveGap := a, gapFrom := b } = φ g) (h2 : ∀ g a b, φ { g with sramCrc := a, boundAt := b } = φ g) :
      φ v.boundaryEnd.sgm = φ v.sgm := boundaryEnd_sgm h1 h2 v
  have gblock := hend (fun g => g.block.n) (by exact fun _ _ _ => rfl) (by exact fun _ _ _ => rfl)
  have gpulses := hend Sgm.pulses (by exact fun _ _ _ => rfl) (by exact fun _ _ _ => rfl)
  have gacc := hend Sgm.acc (by exact fun _ _ _ => rfl) (by exact fun _ _ _ => rfl)
  have gres := hend Sgm.res (by exact fun _ _ _ => rfl) (by exact fun _ _ _ => rfl)
  have gguard := boundaryEnd_procedure v
  refine ⟨_, rfl, ?_, ?_, ?_, fun h => ?_, fun st h hr => ?_, fun h => ?_, ?_, ?_⟩
  · rw [gblock, hends]
    rfl
  · intro p hp
    rw [gpulses, hends] at hp
    obtain ⟨q, -, rfl⟩ := List.mem_map.mp hp
    rfl
  · rw [c1, hbte, hup]
  · have hv : v.bte.steps = [] := (congrArg Bte.steps hbte).trans (hsteps.trans h)
    exact (c2 hv).trans ((congrArg Bte.off hbte).trans hoff)
  · have hv : v.bte.steps = [st] := (congrArg Bte.steps hbte).trans (hsteps.trans h)
    exact c3 st hv ((congrArg Mss.restarting hmss).trans (ha1.trans (hrest.trans hr)))
  · have h1 := hseal.mpr h
    have h0 : v.mss.sealSt = 0 := by rw [hmss]; exact ha2 h1
    exact (procedure_spec gguard).2.trans h0
  · rw [gacc, hends]
    rfl
  · rw [gres, hends]
    rfl

end Sys2Proof.Machine
end
section
/-! PROOFS. Battery mode, ship state and the stop (R73, R331 to R337) -/

namespace Sys2Proof.Machine

open Sys2Proof

/-! ### The branches of a supply loss -/

/-- Battery mode entered: one rail off, the clocks of the voltage channels off, and the save. -/
def State.entersBattery (mv up : Nat) (u : State) : State :=
  ((((u.onSgm (fun g => { g with mode := .battery, batSince := some up, batRead := true, cws := 0 })).supplyMods false true
    [0, u.sgm.mclk.getD 1 0, u.sgm.mclk.getD 2 0, 0]).flagInterval 8).saveSgm 1).sgmEvent 0x01 mv noSource

/-- Ship state entered. -/
def State.entersShip (up : Nat) (u : State) : State :=
  (((u.saveSgm 1).onSgm (fun g => { g with mode := .ship, shipStart := u.bte.lTime, batSince := some up })).onMss (fun m => { m with
    shipAuth := none })).supplyMods false false [0, 0, 0, 0]

/-- The Saggar stops with a save. -/
def State.stops (u : State) : State :=
  (((u.saveSgm 2).onSgm (fun g => { g with mode := .off })).onBte (fun b => { b with off := none, steps := [] })).supplyMods false false [0, 0, 0, 0]

theorem supplyLoss_battery {mv : Nat} {bits : List Nat} {s : State} (hm : s.sgm.mode = .normal ∨ s.sgm.mode = .settling) (hc : s.cell.cut = false)
    (ho : (s.sgm.shipOrder && s.mss.shipAuth.isSome) = false) : supplyLoss' (some mv) bits s = (s.lossBoundary bits).entersBattery mv s.bte.up := by
  unfold supplyLoss'
  dsimp only
  rw [if_neg (by rcases hm with h | h <;> simp [h])]
  simp only [Option.isNone_some, Bool.false_or, hc, ho, Bool.false_eq_true, if_false]
  rfl

theorem supplyLoss_ship {mv : Nat} {bits : List Nat} {s : State} (hm : s.sgm.mode = .normal ∨ s.sgm.mode = .settling) (hc : s.cell.cut = false)
    (ho : s.sgm.shipOrder = true) (ha : s.mss.shipAuth.isSome = true) : supplyLoss' (some mv) bits s = (s.lossBoundary bits).entersShip s.bte.up := by
  unfold supplyLoss'
  dsimp only
  rw [if_neg (by rcases hm with h | h <;> simp [h])]
  simp only [Option.isNone_some, Bool.false_or, hc, ho, ha, Bool.true_and, Bool.false_eq_true, if_false, if_true]
  rfl

theorem supplyLoss_dark {cell : Option Nat} {bits : List Nat} {s : State} (hm : s.sgm.mode = .normal ∨ s.sgm.mode = .settling)
    (hd : (cell.isNone || s.cell.cut) = true) : supplyLoss' cell bits s = ((s.onSgm (fun g => { g with saving := none })).lossBoundary bits).stops := by
  unfold supplyLoss'
  dsimp only
  rw [if_neg (by rcases hm with h | h <;> simp [h])]
  simp only [hd, if_true]
  rfl

/-! ### What each leaves -/

theorem entersBattery_spec (mv up : Nat) (u : State) : ∃ t, u.entersBattery mv up = t ∧ t.sgm.mode = .battery ∧ t.sgm.acc = u.sgm.acc ∧ t.sgm.res = u.sgm.res ∧
    SavedNow 1 u.bte.lTime t ∧ t.bte.off = u.bte.off ∧ t.bte.lTime = u.bte.lTime ∧ t.sgm.lastSave = some (1, u.bte.up) ∧ t.sgm.rails = (false, true) ∧
    t.sgm.mclk.getD 0 0 = 0 ∧ t.sgm.mclk.getD 3 0 = 0 ∧ t.sgm.block = u.sgm.block ∧ t.sgm.batSince = some up ∧ t.sgm.pulses = u.sgm.pulses ∧
    t.sgm.lastEvent = some (255, 1, mv % 256) ∧ t.mss = u.mss := by
  let v := (((u.onSgm (fun g => { g with mode := .battery, batSince := some up, batRead := true, cws := 0 })).supplyMods false true
    [0, u.sgm.mclk.getD 1 0, u.sgm.mclk.getD 2 0, 0]).flagInterval 8)
  obtain ⟨p, hp⟩ := saveSgm_eq 1 v
  have hs : (u.entersBattery mv up).sgm = { (v.saveSgm 1).sgm with lastEvent := some (noSource % 256, 0x01, mv % 256) } := sgmEvent_sgm 0x01 mv noSource _
  have hb : (u.entersBattery mv up).bte = (v.saveSgm 1).bte := sgmEvent_part (π := .bte) (by simp) ..
  have hm : (u.entersBattery mv up).mss = (v.saveSgm 1).mss := sgmEvent_part (π := .mss) (by simp) ..
  rw [hp] at hs hb hm
  have hl : v.bte.lTime = u.bte.lTime := rfl
  refine ⟨_, rfl, ?_⟩
  generalize u.entersBattery mv up = t at *
  rw [hb, hm]
  refine ⟨by rw [hs]; rfl, by rw [hs]; rfl, by rw [hs]; rfl, ?_, rfl, hl, by rw [hs]; rfl, by rw [hs]; rfl, by rw [hs]; rfl, by rw [hs]; rfl, by rw [hs]; rfl,
    by rw [hs]; rfl, by rw [hs]; rfl, by rw [hs]; rfl, rfl⟩
  exact saved_of_saves (v := v.saveNow 1) (by rw [hs]) rfl hl (by rw [hs]; rfl) (by rw [hs]; rfl)

theorem entersShip_spec (up : Nat) (u : State) : ∃ t, u.entersShip up = t ∧ t.sgm.mode = .ship ∧ SavedNow 1 u.bte.lTime t ∧ t.mss.shipAuth = none ∧
    t.sgm.shipStart = u.bte.lTime ∧ t.bte.lTime = u.bte.lTime ∧ t.sgm.rails = (false, false) ∧ t.sgm.acc = u.sgm.acc ∧ t.sgm.res = u.sgm.res := by
  obtain ⟨p, hp⟩ := saveSgm_eq 1 u
  refine ⟨_, rfl, ?_⟩
  unfold State.entersShip
  rw [hp]
  exact ⟨rfl, saved_of_saves (v := u.saveNow 1) rfl rfl rfl rfl rfl, rfl, rfl, rfl, rfl, rfl, rfl⟩

theorem stops_spec (u : State) : ∃ t, u.stops = t ∧ t.sgm.mode = .off ∧ t.bte.off = none ∧ t.sgm.saving = none ∧ SavedNow 2 u.bte.lTime t ∧
    t.sgm.rails = (false, false) ∧ t.sgm.acc = u.sgm.acc ∧ t.sgm.res = u.sgm.res := by
  obtain ⟨p, hp⟩ := saveSgm_eq 2 u
  refine ⟨_, rfl, ?_⟩
  unfold State.stops
  rw [hp]
  exact ⟨rfl, rfl, rfl, saved_of_saves (v := u.saveNow 2) rfl rfl rfl rfl rfl, rfl, rfl, rfl⟩

/-! ### The sample of the loss -/

/-- A port's energy of the sample in which the supply is lost. -/
theorem loss_portSampled {n : Nat} {bits : List Nat} {s b : State} {u : Sgm} (hm : s.sgm.mode = .normal) (hb : b = s.sgmDue.boundaryStart) (hn : n < 16)
    (ha : b.sgm.acc.length = 64) (hr : b.sgm.res.length = 64) (hacc : u.acc = (s.lossSample bits).sgm.acc) (hres : u.res = (s.lossSample bits).sgm.res) :
    PortSampled n (convertCode b.sgm.cal n ((b.sgm.codes bits).getD n 0)) (convertCode b.sgm.cal (16 + n) ((b.sgm.codes bits).getD (16 + n) 0)) b.sgm u := by
  have h := samples_portSampled (xs := b.sgm.convertAll (b.sgm.codes bits)) hn ha hr
  rw [convertAll_dc (by omega), convertAll_dc (by omega)] at h
  rw [lossSample_normal hm hb] at hacc hres
  have ha' : u.acc = (b.sgm.samples (b.sgm.convertAll (b.sgm.codes bits))).acc := hacc
  have hr' : u.res = (b.sgm.samples (b.sgm.convertAll (b.sgm.codes bits))).res := hres
  refine h.congr rfl rfl ⟨rfl, rfl, rfl, rfl⟩ ?_
  unfold PortRegs
  rw [ha', hr']
  exact ⟨rfl, rfl, rfl, rfl⟩

/-! ### The return of the supply -/

theorem reanchorCell_eq_self {s : State} (h : s.cell.quiet < 1800) : s.reanchorCell = s := if_neg (by omega)

theorem supplyMods_rails {vv vi : Bool} {clk : List Nat} {s : State} : (s.sgm.rails.1 ≠ vv → .rail 0 vv ∈ (s.supplyMods vv vi clk).out) ∧
    (s.sgm.rails.2 ≠ vi → .rail 1 vi ∈ (s.supplyMods vv vi clk).out) := by
  unfold State.supplyMods
  dsimp only
  refine ⟨fun h => ?_, fun h => ?_⟩
  · rw [if_neg h]
    simp
  · rw [if_neg h]
    simp

theorem supplyReturn_battery {s : State} (hm : s.sgm.mode = .battery) (hq : s.cell.quiet < 1800) : supplyReturn s =
    (s.onSgm (fun g => { g with mode := .settling, settle := 0 })).supplyMods true true [4, 4, 4, 4] := by
  unfold supplyReturn
  dsimp only
  have hship : ¬s.sgm.mode = .ship := by rw [hm]; decide
  rw [if_neg hship, if_pos hm, reanchorCell_eq_self hq, if_neg (not_not.mpr hm)]

/-- SETTLING's end without the event. -/
def State.settled (s : State) : State :=
  (if s.sgm.line = 0 then s.took.onSgm (fun g => { g with line := 250 + Config.freeNat s.free % 65286 }) else s).onSgm (fun g => { g with
    mode := .normal, batSince := none, block := Block.empty, decim := g.decim.map Decim.fresh
    sec := Second.empty ((List.range 16).map (fun n => (g.acc.getD n 0 : Int) - g.acc.getD (16 + n) 0)) })

theorem settlingEnd_battery {s : State} {b : Nat} (hm : s.sgm.mode = .settling) (hset : 320 ≤ s.sgm.settle) (hb : s.sgm.batSince = some b) :
    settlingEnd s = s.settled.sgmEvent 0x02 ((s.bte.up - b) / 1000000) noSource := by
  unfold settlingEnd
  rw [if_neg (by simp only [hm, ne_eq, not_true_eq_false, false_or]; omega)]
  dsimp only
  rw [hb]
  rfl

theorem settled_sgm (s : State) : s.settled.sgm.mode = .normal ∧ s.settled.sgm.batSince = none ∧ s.settled.sgm.acc = s.sgm.acc ∧ s.settled.sgm.res = s.sgm.res := by
  unfold State.settled
  split
  · exact ⟨rfl, rfl, rfl, rfl⟩
  · exact ⟨rfl, rfl, rfl, rfl⟩

/-! ### The cut-off -/

theorem log_ring_some {kind : Nat} (h : 0x10 ≤ kind) (source : Nat) (data : List Byte) (counter : Nat) (done : Bool) (s : State) :
    (s.log kind source data counter done).mss.ring.getLast?.isSome = true := by
  have hkeep (r : List (Nat × List Byte)) (x : Nat × List Byte) (k : Nat) (hk : k ≤ r.length) : ((r ++ [x]).drop k).getLast?.isSome = true := by
    rw [List.drop_append_of_le_length hk, List.getLast?_concat]
    rfl
  unfold State.log
  dsimp only
  rw [if_neg (by omega)]
  unfold State.onMss
  dsimp only
  exact hkeep s.mss.ring _ _ (by omega)

theorem cellCutoff_spec {mv : Nat} {s : State} (hm : s.sgm.mode = .battery ∨ s.sgm.mode = .ship) : ∃ t, cellCutoff mv s = t ∧ t.sgm.mode = .off ∧ t.bte.off = none ∧
    t.cell.cut = true ∧ t.mss.ring.getLast?.isSome = true ∧ SavedNow 3 s.bte.lTime t ∧ t.sgm.acc = s.sgm.acc ∧ t.sgm.res = s.sgm.res := by
  obtain ⟨p, hp⟩ := saveSgm_eq 3 s
  have hring := log_ring_some (kind := 0x18) (by decide) 2 (le 4 mv) 0 false (s.saveSgm 3)
  have hlogsgm : ((s.saveSgm 3).log 0x18 2 (le 4 mv) 0 false).sgm = (s.saveSgm 3).sgm := log_part (π := .sgm) (by simp) ..
  have he : cellCutoff mv s = (((({ (((s.saveSgm 3).log 0x18 2 (le 4 mv) 0 false).onBte (fun b => { b with off := none, steps := [] })) with
      cell := { ((s.saveSgm 3).log 0x18 2 (le 4 mv) 0 false).cell with cut := true, cutMv := some mv } } : State).bteEvent 6 0x13 2 noSource).onSgm
        (fun g => { g with mode := .off }))).supplyMods false false [0, 0, 0, 0] := by
    unfold cellCutoff
    rw [if_neg (by rcases hm with h | h <;> simp [h])]
    rfl
  generalize (s.saveSgm 3).log 0x18 2 (le 4 mv) 0 false = w at *
  have hb := bteEvent_bte 6 0x13 2 noSource ({ (w.onBte (fun b => { b with off := none, steps := [] })) with cell := { w.cell with cut := true, cutMv := some mv } } : State)
  have hpart {π : Part} (h : π ∉ [.rings, .lnk, .bte, .out]) := bteEvent_part h 6 0x13 2 noSource
    ({ (w.onBte (fun b => { b with off := none, steps := [] })) with cell := { w.cell with cut := true, cutMv := some mv } } : State)
  have hsgm := hpart (π := .sgm) (by simp)
  have hmss := hpart (π := .mss) (by simp)
  have hcell := hpart (π := .cell) (by simp)
  generalize State.bteEvent 6 0x13 2 noSource _ = x at *
  have xsgm : x.sgm = w.sgm := hsgm
  have xmss : x.mss = w.mss := hmss
  have xcell : x.cell = { w.cell with cut := true, cutMv := some mv } := hcell
  have hfields : (cellCutoff mv s).sgm = { x.sgm with mode := .off, rails := (false, false), mclk := [0, 0, 0, 0] } ∧ (cellCutoff mv s).bte = x.bte ∧
      (cellCutoff mv s).cell = x.cell ∧ (cellCutoff mv s).mss = x.mss := by
    rw [he]
    exact ⟨rfl, rfl, rfl, rfl⟩
  obtain ⟨f1, f2, f3, f4⟩ := hfields
  rw [xsgm, hlogsgm, hp] at f1
  rw [hb] at f2
  rw [xcell] at f3
  rw [xmss] at f4
  refine ⟨_, rfl, ?_⟩
  generalize cellCutoff mv s = t at *
  refine ⟨by rw [f1], by rw [f2]; rfl, by rw [f3], by rw [f4]; exact hring, ?_, by rw [f1], by rw [f1]⟩
  exact saved_of_saves (v := s.saveNow 3) (by rw [f1]) rfl rfl (by rw [f1]; rfl) (by rw [f1]; rfl)

end Sys2Proof.Machine
end
section
/-! PROOFS. The window of a second in battery mode (R332, R333) -/

namespace Sys2Proof.Machine

open Sys2Proof

/-! ### A port's window in SGM alone -/

/-- A channel's fault set in SGM. -/
def Sgm.faulted (c cause : Nat) (g : Sgm) : Sgm :=
  if g.faults.getD c 0 = cause then g
  else { g with
    faults := g.faults.set c cause
    lastEvent := some (faultEvent c (if cause = 0 then g.faults.getD c 0 * 2 else cause * 2 + 1)) }

theorem setFault_faulted (c cause : Nat) (s : State) : (s.setFault c cause).sgm = s.sgm.faulted c cause := by
  unfold State.setFault Sgm.faulted
  dsimp only
  split
  · rfl
  · exact creditEval_part (π := .sgm) (by simp) (s.onSgm _)

/-- The mean current of a port's window. -/
def Sgm.windowMean (g : Sgm) (bits : List (List Nat)) (n : Nat) : Nat :=
  rneDivN (sumN (((g.window bits n).take 200).map (fun x => (convertCode g.cal (16 + n) x.1).natAbs))) 200

/-- The decimator of a port's current channel behind its window. -/
def Sgm.windowed (bits : List (List Nat)) (n : Nat) (g : Sgm) : Sgm :=
  { g with decim := upd g.decim (16 + n) (fun d => ((g.window bits n).head?.map Prod.snd).getD d) }

/-- A mean current in a port's register. -/
def Sgm.cwsAdd (m n : Nat) (g : Sgm) : Sgm :=
  let u : Sgm := { (bump (0x30 + n) m 3600 100000 g).1 with cws := g.cws ||| 2 ^ n }
  if bit g.cws n then u else { u with lastEvent := some (n % 256, 0x03, m % 256) }

/-- A port's window in SGM. -/
def Sgm.portWindow (bits : List (List Nat)) (n : Nat) (g : Sgm) : Sgm :=
  if !g.evaluated (16 + n) then g.windowed bits n
  else
    let g1 := (g.windowed bits n).faulted (16 + n) (windowCause (g.window bits n))
    if g1.faults.getD (16 + n) 0 != 0 || decide (g.windowMean bits n < calStart g.cal (16 + n)) then g1 else g1.cwsAdd (g.windowMean bits n) n

theorem faulted_kept {α : Type} {φ : Sgm → α} (h : ∀ g f e, φ { g with faults := f, lastEvent := e } = φ g) (c cause : Nat) (g : Sgm) : φ (g.faulted c cause) = φ g := by
  unfold Sgm.faulted
  split
  · rfl
  · exact h ..

theorem cwsPort_sgm (bits : List (List Nat)) (n : Nat) (s : State) : (s.cwsPort bits n).sgm = s.sgm.portWindow bits n := by
  have hwin : (s.onSgm (Sgm.windowed bits n)).sgm = s.sgm.windowed bits n := rfl
  have hset := setFault_faulted (16 + n) (windowCause (s.sgm.window bits n)) (s.onSgm (Sgm.windowed bits n))
  rw [hwin] at hset
  have hcal : ((s.sgm.windowed bits n).faulted (16 + n) (windowCause (s.sgm.window bits n))).cal = s.sgm.cal :=
    faulted_kept (φ := Sgm.cal) (by exact fun _ _ _ => rfl) ..
  have hadd (u : State) (m : Nat) : (if !bit u.sgm.cws n then (u.onSgm (fun g => { (bump (0x30 + n) m 3600 100000 g).1 with cws := g.cws ||| 2 ^ n })).sgmEvent 0x03 m n
      else u.onSgm (fun g => { (bump (0x30 + n) m 3600 100000 g).1 with cws := g.cws ||| 2 ^ n })).sgm = u.sgm.cwsAdd m n := by
    unfold Sgm.cwsAdd
    cases bit u.sgm.cws n with
    | true => rfl
    | false => exact sgmEvent_sgm 0x03 m n _
  obtain ⟨v, hv⟩ : ∃ v, v = s.onSgm (fun g => { g with decim := upd g.decim (16 + n) (fun d => ((s.sgm.window bits n).head?.map Prod.snd).getD d) }) := ⟨_, rfl⟩
  have he : s.cwsPort bits n = if !s.sgm.evaluated (16 + n) then v
      else
        let u := v.setFault (16 + n) (windowCause (s.sgm.window bits n))
        let m := rneDivN (sumN (((s.sgm.window bits n).take 200).map (fun x => (convertCode u.sgm.cal (16 + n) x.1).natAbs))) 200
        if u.sgm.faults.getD (16 + n) 0 != 0 || decide (m < calStart u.sgm.cal (16 + n)) then u
        else if !bit u.sgm.cws n then (u.onSgm (fun g => { (bump (0x30 + n) m 3600 100000 g).1 with cws := g.cws ||| 2 ^ n })).sgmEvent 0x03 m n
        else u.onSgm (fun g => { (bump (0x30 + n) m 3600 100000 g).1 with cws := g.cws ||| 2 ^ n }) := by
    rw [hv]
    unfold State.cwsPort
    dsimp only
  have hvw : v = s.onSgm (Sgm.windowed bits n) := by
    rw [hv]
    unfold State.onSgm Sgm.windowed
    dsimp only
  rw [hvw] at he
  rw [he]
  unfold Sgm.portWindow Sgm.windowMean
  dsimp only
  rw [← hset] at hcal
  rw [← hset, ← hcal]
  generalize (s.onSgm (Sgm.windowed bits n)).setFault (16 + n) (windowCause (s.sgm.window bits n)) = u
  split
  · rfl
  · split
    · rfl
    · exact hadd u _

/-! ### One port among the others -/

theorem bit_or_two_pow (x i j : Nat) : bit (x ||| 2 ^ i) j = (bit x j || decide (i = j)) := by
  rw [bit_eq_testBit, bit_eq_testBit, Nat.testBit_or, Nat.testBit_two_pow]

/-- What a port's window reads and changes. -/
structure WindowKept (n : Nat) (g u : Sgm) : Prop where
  cal : u.cal = g.cal
  decim : u.decim.getD (16 + n) Decim.reset = g.decim.getD (16 + n) Decim.reset
  fault : u.faults.getD (16 + n) 0 = g.faults.getD (16 + n) 0
  acc : u.acc.getD (0x30 + n) 0 = g.acc.getD (0x30 + n) 0
  res : u.res.getD (0x30 + n) 0 = g.res.getD (0x30 + n) 0
  mark : bit u.cws n = bit g.cws n

/-- The sizes of SGM's tables. -/
def Sgm.sizes (g : Sgm) : Nat × Nat × Nat × Nat := (g.acc.length, g.res.length, g.faults.length, g.decim.length)

theorem WindowKept.refl (n : Nat) (g : Sgm) : WindowKept n g g := ⟨rfl, rfl, rfl, rfl, rfl, rfl⟩

theorem WindowKept.trans {n : Nat} {g u v : Sgm} (h1 : WindowKept n g u) (h2 : WindowKept n u v) : WindowKept n g v :=
  ⟨h2.cal.trans h1.cal, h2.decim.trans h1.decim, h2.fault.trans h1.fault, h2.acc.trans h1.acc, h2.res.trans h1.res, h2.mark.trans h1.mark⟩

theorem windowed_kept {n i : Nat} (h : i ≠ n) (bits : List (List Nat)) (g : Sgm) : WindowKept n g (g.windowed bits i) :=
  ⟨rfl, getD_upd_of_ne (by omega) .., rfl, rfl, rfl, rfl⟩

theorem faulted_kept_other {n i : Nat} (h : i ≠ n) (cause : Nat) (g : Sgm) : WindowKept n g (g.faulted (16 + i) cause) := by
  unfold Sgm.faulted
  split
  · exact .refl n g
  · exact ⟨rfl, rfl, faults_set (by omega), rfl, rfl, rfl⟩

theorem cwsAdd_kept_other {n i : Nat} (h : i ≠ n) (m : Nat) (g : Sgm) : WindowKept n g (g.cwsAdd m i) := by
  obtain ⟨h1, h2⟩ := bump_of_ne (show 0x30 + n ≠ 0x30 + i by omega) m 3600 100000 g
  have hb : bit (g.cws ||| 2 ^ i) n = bit g.cws n := by rw [bit_or_two_pow]; simp [h]
  have hk : WindowKept n g { (bump (0x30 + i) m 3600 100000 g).1 with cws := g.cws ||| 2 ^ i } := ⟨rfl, rfl, rfl, h1, h2, hb⟩
  unfold Sgm.cwsAdd
  dsimp only
  split
  · exact hk
  · exact ⟨hk.cal, hk.decim, hk.fault, hk.acc, hk.res, hk.mark⟩

/-- Another port's window leaves a port alone. -/
theorem portWindow_kept {n i : Nat} (h : i ≠ n) (bits : List (List Nat)) (g : Sgm) : WindowKept n g (g.portWindow bits i) := by
  unfold Sgm.portWindow
  dsimp only
  have hw := windowed_kept h bits g
  have hf := hw.trans (faulted_kept_other h (windowCause (g.window bits i)) (g.windowed bits i))
  split
  · exact hw
  · split
    · exact hf
    · exact hf.trans (cwsAdd_kept_other h _ _)

theorem cwsAdd_sizes (m n : Nat) (g : Sgm) : (g.cwsAdd m n).sizes = g.sizes := by
  obtain ⟨h1, h2⟩ := bump_length (0x30 + n) m 3600 100000 g
  have hk : Sgm.sizes { (bump (0x30 + n) m 3600 100000 g).1 with cws := g.cws ||| 2 ^ n } = g.sizes := by
    unfold Sgm.sizes
    dsimp only
    rw [h1, h2]
    rfl
  unfold Sgm.cwsAdd
  dsimp only
  split
  · exact hk
  · exact hk

theorem portWindow_sizes (bits : List (List Nat)) (n : Nat) (g : Sgm) : (g.portWindow bits n).sizes = g.sizes := by
  have hw : (g.windowed bits n).sizes = g.sizes := by
    unfold Sgm.sizes Sgm.windowed
    dsimp only
    rw [upd_length]
  have hf (c x : Nat) : ((g.windowed bits n).faulted c x).sizes = g.sizes := by
    rw [← hw]
    unfold Sgm.faulted
    split
    · rfl
    · unfold Sgm.sizes
      dsimp only
      rw [List.length_set]
  unfold Sgm.portWindow
  dsimp only
  split
  · exact hw
  · split
    · exact hf _ _
    · rw [cwsAdd_sizes, hf]

theorem portWindow_energy {bits : List (List Nat)} {n id : Nat} (h : id < 0x30) (g : Sgm) : (g.portWindow bits n).acc.getD id 0 = g.acc.getD id 0 := by
  have hf (c x : Nat) : ((g.windowed bits n).faulted c x).acc = g.acc := faulted_kept (φ := Sgm.acc) (by exact fun _ _ _ => rfl) c x (g.windowed bits n)
  have hadd (m : Nat) (u : Sgm) : (u.cwsAdd m n).acc.getD id 0 = u.acc.getD id 0 := by
    obtain ⟨h1, -⟩ := bump_of_ne (show id ≠ 0x30 + n by omega) m 3600 100000 u
    unfold Sgm.cwsAdd
    dsimp only
    split
    · exact h1
    · exact h1
  unfold Sgm.portWindow
  dsimp only
  split
  · rfl
  · split
    · rw [hf]
    · rw [hadd, hf]

/-! ### The port itself -/

/-- What a battery window does to a port (R332, R333). -/
def PortWindowed (bits : List (List Nat)) (n : Nat) (g u : Sgm) : Prop :=
  (g.evaluated (16 + n) = true → u.faults.getD (16 + n) 0 = windowCause (g.window bits n)) ∧
  (g.evaluated (16 + n) = true → windowCause (g.window bits n) = 0 → calStart g.cal (16 + n) ≤ g.windowMean bits n →
    u.acc.getD (0x30 + n) 0 = g.acc.getD (0x30 + n) 0 + (g.res.getD (0x30 + n) 0 + g.windowMean bits n) / 3600 * 100000 ∧
    u.res.getD (0x30 + n) 0 = (g.res.getD (0x30 + n) 0 + g.windowMean bits n) % 3600 ∧ bit u.cws n = true) ∧
  ((g.evaluated (16 + n) = false ∨ windowCause (g.window bits n) ≠ 0 ∨ g.windowMean bits n < calStart g.cal (16 + n)) →
    u.acc.getD (0x30 + n) 0 = g.acc.getD (0x30 + n) 0)

theorem evaluated_current {n : Nat} (hn : n < 16) (g : Sgm) : g.evaluated (16 + n) =
    (calGain g.cal (16 + n) != 0 && (decide (32 ≤ 16 + n) || (decide ((16 + n) % 16 < 16) && calPort g.cal ((16 + n) % 16)))) := by
  unfold Sgm.evaluated Sgm.enabled
  rw [if_pos (by omega), decide_eq_true (by omega : 16 + n < 40), Bool.true_and]

/-- A port's window depends on the calibration and its decimator. -/
theorem WindowKept.reads {n : Nat} {g u : Sgm} (hn : n < 16) (h : WindowKept n g u) (bits : List (List Nat)) : u.evaluated (16 + n) = g.evaluated (16 + n) ∧
    u.window bits n = g.window bits n ∧ u.windowMean bits n = g.windowMean bits n := by
  have hw : u.window bits n = g.window bits n := by
    unfold Sgm.window
    rw [h.decim]
  refine ⟨by rw [evaluated_current hn, evaluated_current hn, h.cal], hw, ?_⟩
  unfold Sgm.windowMean
  rw [hw, h.cal]

theorem PortWindowed.congr {bits : List (List Nat)} {n : Nat} {g g' u u' : Sgm} (hn : n < 16) (h : PortWindowed bits n g u) (hg : WindowKept n g' g)
    (hf : u'.faults.getD (16 + n) 0 = u.faults.getD (16 + n) 0) (ha : u'.acc.getD (0x30 + n) 0 = u.acc.getD (0x30 + n) 0)
    (hr : u'.res.getD (0x30 + n) 0 = u.res.getD (0x30 + n) 0) (hm : bit u'.cws n = bit u.cws n) : PortWindowed bits n g' u' := by
  obtain ⟨he, hw, hmean⟩ := hg.reads hn bits
  unfold PortWindowed at h ⊢
  rw [he, hw, hmean, hg.cal, hg.acc, hg.res] at h
  rw [hf, ha, hr, hm]
  exact h

theorem portWindow_at {bits : List (List Nat)} {n : Nat} {g : Sgm} (hn : n < 16) (hs : g.acc.length = 64 ∧ g.res.length = 64 ∧ g.faults.length = 40) :
    PortWindowed bits n g (g.portWindow bits n) := by
  obtain ⟨hla, hlr, hlf⟩ := hs
  have hfault (cause : Nat) : ((g.windowed bits n).faulted (16 + n) cause).faults.getD (16 + n) 0 = cause := by
    unfold Sgm.faulted
    split
    next h => exact h
    · dsimp only
      rw [List.getD_eq_getElem?_getD, List.getElem?_set_self (by rw [show (g.windowed bits n).faults = g.faults from rfl, hlf]; omega)]
      rfl
  have hacc (cause : Nat) : ((g.windowed bits n).faulted (16 + n) cause).acc = g.acc := faulted_kept (φ := Sgm.acc) (by exact fun _ _ _ => rfl) _ cause (g.windowed bits n)
  have hres (cause : Nat) : ((g.windowed bits n).faulted (16 + n) cause).res = g.res := faulted_kept (φ := Sgm.res) (by exact fun _ _ _ => rfl) _ cause (g.windowed bits n)
  have hadd (m : Nat) {u : Sgm} (ha : u.acc.length = 64) (hr : u.res.length = 64) : (u.cwsAdd m n).faults = u.faults ∧
      (u.cwsAdd m n).acc.getD (0x30 + n) 0 = u.acc.getD (0x30 + n) 0 + (u.res.getD (0x30 + n) 0 + m) / 3600 * 100000 ∧
      (u.cwsAdd m n).res.getD (0x30 + n) 0 = (u.res.getD (0x30 + n) 0 + m) % 3600 ∧ bit (u.cwsAdd m n).cws n = true := by
    have h1 := bump_acc (id := 0x30 + n) (amount := m) (unit := 3600) (scale := 100000) (g := u) (by omega)
    have h2 := bump_res (id := 0x30 + n) (amount := m) (unit := 3600) (scale := 100000) (g := u) (by omega)
    have h3 : bit (u.cws ||| 2 ^ n) n = true := by rw [bit_or_two_pow]; simp
    unfold Sgm.cwsAdd
    dsimp only
    split
    · exact ⟨rfl, h1, h2, h3⟩
    · exact ⟨rfl, h1, h2, h3⟩
  cases he : g.evaluated (16 + n) with
  | false =>
    have hp : g.portWindow bits n = g.windowed bits n := if_pos (by rw [he]; rfl)
    rw [hp]
    exact ⟨fun h => absurd (he.symm.trans h) (by decide), fun h => absurd (he.symm.trans h) (by decide), fun _ => rfl⟩
  | true =>
    generalize hc : windowCause (g.window bits n) = cause
    generalize hm : g.windowMean bits n = m
    have hp : g.portWindow bits n = if (((g.windowed bits n).faulted (16 + n) cause).faults.getD (16 + n) 0 != 0 || decide (m < calStart g.cal (16 + n))) = true then
        (g.windowed bits n).faulted (16 + n) cause else ((g.windowed bits n).faulted (16 + n) cause).cwsAdd m n := by
      unfold Sgm.portWindow
      dsimp only
      rw [if_neg (by rw [he]; decide), hc, hm]
    rw [hp, hfault cause]
    unfold PortWindowed
    rw [hc, hm]
    by_cases hcond : cause ≠ 0 ∨ m < calStart g.cal (16 + n)
    · rw [if_pos (by rcases hcond with h | h <;> simp [h])]
      exact ⟨fun _ => hfault cause, fun _ h0 hle => absurd hcond (by simp [h0]; omega), fun _ => by rw [hacc cause]⟩
    · rw [not_or, not_not] at hcond
      obtain ⟨h0, hge⟩ := hcond
      rw [if_neg (by simp [h0]; omega)]
      obtain ⟨k1, k2, k3, k4⟩ := hadd m (u := (g.windowed bits n).faulted (16 + n) cause) (by rw [hacc]; exact hla) (by rw [hres]; exact hlr)
      rw [hacc, hres] at k2
      rw [hres] at k3
      refine ⟨fun _ => by rw [k1]; exact hfault cause, fun _ _ _ => ⟨k2, k3, k4⟩, fun h => ?_⟩
      rcases h with h | h | h
      · exact absurd (he.symm.trans h) (by decide)
      · exact absurd h0 h
      · exact absurd h hge

/-- All ports' windows. -/
theorem portWindows {bits : List (List Nat)} {n : Nat} {g : Sgm} (hn : n < 16) (hs : g.acc.length = 64 ∧ g.res.length = 64 ∧ g.faults.length = 40) :
    PortWindowed bits n g ((List.range 16).foldl (fun g i => g.portWindow bits i) g) := by
  refine foldl_range_lt (f := fun (g : Sgm) i => g.portWindow bits i) (P := fun u => WindowKept n g u ∧ u.sizes = g.sizes)
    (Q := fun u => PortWindowed bits n g u) hn ?_ ?_ ?_ ⟨.refl n g, rfl⟩
  · rintro u i - hne ⟨hk, hz⟩
    exact ⟨hk.trans (portWindow_kept hne bits u), (portWindow_sizes bits i u).trans hz⟩
  · rintro u ⟨hk, hz⟩
    obtain ⟨z1, z2⟩ := Prod.mk.inj hz
    obtain ⟨z2, z3⟩ := Prod.mk.inj z2
    obtain ⟨z3, -⟩ := Prod.mk.inj z3
    exact (portWindow_at hn ⟨z1.trans hs.1, z2.trans hs.2.1, z3.trans hs.2.2⟩).congr hn hk rfl rfl rfl rfl
  · rintro u i - hne h
    have hk := portWindow_kept hne bits u
    exact h.congr hn (.refl n g) hk.fault hk.acc hk.res hk.mark

theorem cwsPorts_sgm (bits : List (List Nat)) (s : State) :
    ((List.range 16).foldl (fun s n => s.cwsPort bits n) s).sgm = (List.range 16).foldl (fun g n => g.portWindow bits n) s.sgm := by
  generalize List.range 16 = l
  induction l generalizing s with
  | nil => rfl
  | cons n l ih => rw [List.foldl_cons, List.foldl_cons, ih, cwsPort_sgm]

/-! ### The second -/

theorem boundaryStart_cal {s : State} (h : s.sgm.calNext = none) : s.boundaryStart.sgm.cal = s.sgm.cal := by
  have hset : s.sgm.calSet = s.sgm := by
    unfold Sgm.calSet
    rw [h]
  have hcal : s.sgm.calSet.cal = s.sgm.cal := congrArg Sgm.cal hset
  rw [boundaryStart_eq, pulseCfgs_sgm (φ := Sgm.cal) (by exact fun _ _ _ => rfl) (by exact fun _ _ => rfl)]
  split
  · rw [acBoundary_sgm]
    exact hcal
  · exact hcal

/-- SGM before the windows of a second. -/
theorem window_start {s : State} (hcal : s.sgm.calNext = none) : (s.saveDone.boundaryStart.supplyMods false true [0, 16, 16, 0]).sgm.cal = s.sgm.cal ∧
    (s.saveDone.boundaryStart.supplyMods false true [0, 16, 16, 0]).sgm.sizes = s.sgm.sizes ∧
    ∃ u, s.saveDone.boundaryStart.supplyMods false true [0, 16, 16, 0] = u ∧ u.sgm.acc = s.sgm.acc ∧ u.sgm.res = s.sgm.res ∧ u.sgm.faults = s.sgm.faults ∧
      u.sgm.decim = s.sgm.decim ∧ u.sgm.cws = s.sgm.cws := by
  have hkept {α : Type} (φ : Sgm → α) (h1 : ∀ g a b, φ { g with pulses := a, s0 := b } = φ g) (h2 : ∀ g a, φ { g with pulseNext := a } = φ g)
      (h3 : ∀ g a b c, φ { g with cal := a, calNext := b, calAc := c } = φ g) (h4 : ∀ g a b c, φ { g with saving := a, saves := b, lastSave := c } = φ g)
      (h5 : ∀ g r c, φ { g with rails := r, mclk := c } = φ g) : φ (s.saveDone.boundaryStart.supplyMods false true [0, 16, 16, 0]).sgm = φ s.sgm :=
    (h5 ..).trans ((boundaryStart_sgm h1 h2 h3 _).trans (saveDone_sgm h4 s))
  have hnext : s.saveDone.sgm.calNext = none := (saveDone_sgm (φ := Sgm.calNext) (by exact fun _ _ _ _ => rfl) s).trans hcal
  refine ⟨(boundaryStart_cal hnext).trans (saveDone_sgm (φ := Sgm.cal) (by exact fun _ _ _ _ => rfl) s),
    hkept Sgm.sizes (by exact fun _ _ _ => rfl) (by exact fun _ _ => rfl) (by exact fun _ _ _ _ => rfl) (by exact fun _ _ _ _ => rfl) (by exact fun _ _ _ => rfl),
    _, rfl, ?_, ?_, ?_, ?_, ?_⟩
  · exact hkept Sgm.acc (by exact fun _ _ _ => rfl) (by exact fun _ _ => rfl) (by exact fun _ _ _ _ => rfl) (by exact fun _ _ _ _ => rfl) (by exact fun _ _ _ => rfl)
  · exact hkept Sgm.res (by exact fun _ _ _ => rfl) (by exact fun _ _ => rfl) (by exact fun _ _ _ _ => rfl) (by exact fun _ _ _ _ => rfl) (by exact fun _ _ _ => rfl)
  · exact hkept Sgm.faults (by exact fun _ _ _ => rfl) (by exact fun _ _ => rfl) (by exact fun _ _ _ _ => rfl) (by exact fun _ _ _ _ => rfl) (by exact fun _ _ _ => rfl)
  · exact hkept Sgm.decim (by exact fun _ _ _ => rfl) (by exact fun _ _ => rfl) (by exact fun _ _ _ _ => rfl) (by exact fun _ _ _ _ => rfl) (by exact fun _ _ _ => rfl)
  · exact hkept Sgm.cws (by exact fun _ _ _ => rfl) (by exact fun _ _ => rfl) (by exact fun _ _ _ _ => rfl) (by exact fun _ _ _ _ => rfl) (by exact fun _ _ _ => rfl)

/-- A second's window leaves every port as R332 and R333 order, and the energy registers alone. -/
theorem batteryWindow_spec {bits : List (List Nat)} {s : State} (hm : s.sgm.mode = .battery) (hcal : s.sgm.calNext = none)
    (hs : s.sgm.acc.length = 64 ∧ s.sgm.res.length = 64 ∧ s.sgm.faults.length = 40) {n : Nat} (hn : n < 16) :
    PortWindowed bits n s.sgm (batteryWindow bits s).sgm ∧ ∀ id, id < 0x30 → (batteryWindow bits s).sgm.acc.getD id 0 = s.sgm.acc.getD id 0 := by
  obtain ⟨h1, h2, u, hu, ha, hr, hf, hd, hc⟩ := window_start hcal
  rw [hu] at h1 h2
  have he : batteryWindow bits s = ((((List.range 16).foldl (fun s n => s.cwsPort bits n) u).supplyMods false false [0, 0, 0, 0]).onSgm (Sgm.idleFor 8000)).boundaryEnd := by
    rw [← hu]
    unfold batteryWindow
    dsimp only
    rw [if_pos (.inl hm), if_pos hm, if_pos hm]
  have hk : WindowKept n s.sgm u.sgm := ⟨h1, by rw [hd], by rw [hf], by rw [ha], by rw [hr], by rw [hc]⟩
  have hp := portWindows (bits := bits) hn (g := u.sgm) ⟨by rw [ha]; exact hs.1, by rw [hr]; exact hs.2.1, by rw [hf]; exact hs.2.2⟩
  have henergy (id : Nat) (hid : id < 0x30) : ((List.range 16).foldl (fun g i => g.portWindow bits i) u.sgm).acc.getD id 0 = u.sgm.acc.getD id 0 :=
    foldl_kept (φ := fun g : Sgm => g.acc.getD id 0) (fun g i => portWindow_energy hid g) _ _
  rw [← cwsPorts_sgm] at hp
  simp only [← cwsPorts_sgm] at henergy
  generalize (List.range 16).foldl (fun s n => s.cwsPort bits n) u = v at *
  have hend {α : Type} (φ : Sgm → α) (g1 : ∀ g a b, φ { g with saveGap := a, gapFrom := b } = φ g) (g2 : ∀ g a b, φ { g with sramCrc := a, boundAt := b } = φ g)
      (g3 : ∀ g p, φ { g with pulses := p } = φ g) (g4 : ∀ g r c, φ { g with rails := r, mclk := c } = φ g) : φ (batteryWindow bits s).sgm = φ v.sgm := by
    rw [he, boundaryEnd_sgm g1 g2]
    exact (g3 (v.supplyMods false false [0, 0, 0, 0]).sgm _).trans (g4 ..)
  have gacc := hend Sgm.acc (by exact fun _ _ _ => rfl) (by exact fun _ _ _ => rfl) (by exact fun _ _ => rfl) (by exact fun _ _ _ => rfl)
  have gres := hend Sgm.res (by exact fun _ _ _ => rfl) (by exact fun _ _ _ => rfl) (by exact fun _ _ => rfl) (by exact fun _ _ _ => rfl)
  have gfaults := hend Sgm.faults (by exact fun _ _ _ => rfl) (by exact fun _ _ _ => rfl) (by exact fun _ _ => rfl) (by exact fun _ _ _ => rfl)
  have gcws := hend Sgm.cws (by exact fun _ _ _ => rfl) (by exact fun _ _ _ => rfl) (by exact fun _ _ => rfl) (by exact fun _ _ _ => rfl)
  refine ⟨hp.congr hn hk (by rw [gfaults]) (by rw [gacc]) (by rw [gres]) (by rw [gcws]), fun id hid => ?_⟩
  rw [gacc, henergy id hid, ha]

end Sys2Proof.Machine
end
section
/-! PROOFS. The measurement crossing, and the Saggar's supply (R16, R43, R331 to R340, R344) -/

namespace Sys2Proof.Machine

open Sys2Proof

/-! ### The summary and its frames (R41, R339) -/

theorem leS_length (n : Nat) (x : Int) : (leS n x).length = n := le_length ..

theorem summary_bytes_length (m : Summary) : m.bytes.length = 288 := by
  have hports : ((List.range 16).flatMap (fun n =>
      let p := m.ports.getD n (0, 0, 0, 0)
      leS 4 p.1 ++ leS 4 p.2.1 ++ le 4 p.2.2.1 ++ leS 4 p.2.2.2)).length = 256 := by
    rw [flatMap_length_const (n := 16)]
    · rfl
    · intro n _
      simp only [List.length_append, le_length, leS_length]
  unfold Summary.bytes
  simp only [List.length_append, le_length, leS_length, hports]
  rfl

theorem framesOf_spec (n : Nat) (b : List Byte) : (∀ f ∈ framesOf n b, f.length ≤ 64) ∧ (b.length ≤ 64 * n → (framesOf n b).flatten = b) ∧
    (b.length ≤ 64 * n → 64 * n < b.length + 64 → (framesOf n b).length = n) := by
  induction n generalizing b with
  | zero =>
    refine ⟨fun f hf => absurd hf List.not_mem_nil, fun h => ?_, fun _ _ => rfl⟩
    rw [List.eq_nil_of_length_eq_zero (Nat.le_zero.mp h)]
    rfl
  | succ n ih =>
    obtain ⟨h1, h2, h3⟩ := ih (b.drop 64)
    unfold framesOf
    split
    next hb =>
      rw [List.isEmpty_iff] at hb
      subst hb
      exact ⟨fun f hf => absurd hf List.not_mem_nil, fun _ => rfl, fun _ h => by simp only [List.length_nil] at h; omega⟩
    next hb =>
      have hlen : (b.drop 64).length = b.length - 64 := List.length_drop
      refine ⟨fun f hf => ?_, fun h => ?_, fun h hlt => ?_⟩
      · rcases List.mem_cons.mp hf with rfl | hf
        · exact List.length_take_le 64 b
        · exact h1 f hf
      · rw [List.flatten_cons, h2 (by omega), List.take_append_drop]
      · have hpos : 0 < b.length := List.length_pos_iff.mpr (by simpa using hb)
        rw [List.length_cons]
        by_cases hn : n = 0
        · subst hn
          rfl
        · rw [h3 (by omega) (by omega)]

theorem summary_frames (m : Summary) : m.msg.frames.length = 5 ∧ (∀ f ∈ m.msg.frames, f.length ≤ 64) ∧ m.msg.frames.flatten = m.bytes ∧
    m.msg.frames.flatten.length = 288 := by
  have hlen := summary_bytes_length m
  obtain ⟨h1, h2, h3⟩ := framesOf_spec 5 m.bytes
  have hf : m.msg.frames.flatten = m.bytes := h2 (by omega)
  exact ⟨h3 (by omega) (by omega), h1, hf, by rw [hf, hlen]⟩

/-! ### Its arrival (R43, R344) -/

theorem onLnk_sessionFirst {s : State} (h : s.lnk.toSt = []) : s.onLnk (SgLink.sessionFirst false) = s := by
  have hl : SgLink.sessionFirst false s.lnk = s.lnk := by
    unfold SgLink.sessionFirst
    rw [if_neg (by decide), h, List.append_nil, ← h]
  unfold State.onLnk
  rw [hl]

/-- With nothing before it, a summary arrives alone. -/
theorem crossingsFirst_eq_self {s : State} (ha : s.hqe.answers = []) (h1 : s.lnk.toSt = []) (h2 : s.lnk.heldPf1 = []) (h3 : ∀ x ∈ s.lnk.inSt, x.1.answer = none) :
    s.crossingsFirst = s := by
  unfold State.crossingsFirst State.sessionArrives
  split
  · rw [ha, List.foldl_nil, onLnk_sessionFirst h1, nothing_arrives h3 h2]
  · rfl

theorem summaryArrives_eq {s : State} {m : SumMsg} (h : s.lnk.summary = some m) : summaryArrives s = s.crossingsFirst.takeSummary :=
  if_neg (by rw [h]; exact Bool.false_ne_true)

/-- A summary whose fault states are as before posts nothing. -/
theorem takeSummary_same {s : State} {m : SumMsg} {o : Summary} (h : s.lnk.summary = some m) (hup : s.lnk.up = true) (hsite : s.siteUp = true)
    (ho : s.lnk.meter = some o) (hf : o.fault = m.read.fault) (hac : o.ac = m.read.ac) :
    s.takeSummary = s.onLnk (fun l => { l with summary := none, meter := some m.read, meterAt := s.sup.uptime }) := by
  have hone (sub src port : Nat) (was now : Bool) (a b : Nat × Nat) (time : Nat) (u : State) (he : was = now) : u.meterEvent sub src port was now a b time = u := if_pos he
  have hfold (l : List Nat) (g : State → Nat → State) (hg : ∀ u n, g u n = u) (u : State) : l.foldl g u = u := by
    induction l generalizing u with
    | nil => rfl
    | cons n l ih => rw [List.foldl_cons, hg, ih]
  unfold State.takeSummary
  rw [h]
  dsimp only
  rw [if_neg (by rw [hup, hsite]; decide), hone _ _ _ _ _ _ _ _ _ (by rw [ho, ← hac]), hfold _ _ (fun u n => hone _ _ _ _ _ _ _ _ u (by rw [ho, ← hf]))]

theorem takeSummary_dropped {s : State} {m : SumMsg} (h : s.lnk.summary = some m) (hd : s.lnk.up = false ∨ s.siteUp = false) :
    s.takeSummary = s.onLnk (fun l => { l with summary := none }) := by
  unfold State.takeSummary
  rw [h]
  dsimp only
  rw [if_pos (by rcases hd with hd | hd <;> simp [hd])]

theorem postEvent_answers (fn : Fn) (vec sub arg src : Nat) (s : State) : (s.postEvent fn vec sub arg src).hqe.answers = s.hqe.answers := by
  have honFn (g : Fn) (f : FnState → FnState) (u : State) : (u.onFn g f).hqe.answers = u.hqe.answers := by cases g <;> rfl
  have hemit (o : Out) (u : State) : (u.emit o).hqe.answers = u.hqe.answers := rfl
  have hfire (g : Fn) (v : Nat) (u : State) : (u.fire g v).hqe.answers = u.hqe.answers := by
    unfold State.fire
    dsimp only
    split
    · exact honFn ..
    · rfl
  have hevent (g : Fn) (v : Nat) (u : State) : (u.fireEvent g v).hqe.answers = u.hqe.answers := by
    unfold State.fireEvent
    dsimp only
    split
    · exact honFn ..
    · split
      · exact hfire ..
      · rw [honFn, hfire]
  unfold State.postEvent
  dsimp only
  split
  · split
    · exact hevent ..
    · split
      · rw [honFn, hevent]
      · rw [honFn, hevent]
  · exact honFn ..

/-- The way to the main die, and what waits on it. -/
def State.crossing (s : State) : Option SumMsg × List (CrossMsg × Nat) × List Answer := (s.lnk.summary, s.lnk.toSt, s.hqe.answers)

theorem flushPf1_crossing (s : State) : s.flushPf1.crossing = s.crossing := by
  have hpost (u : State) (e : Nat × Nat × Nat × Nat) : (u.postEvent .pf1 e.1 e.2.1 e.2.2.1 e.2.2.2).crossing = u.crossing := by
    have hl : (u.postEvent .pf1 e.1 e.2.1 e.2.2.1 e.2.2.2).lnk = u.lnk := postEvent_part (π := .lnk) (by simp) ..
    unfold State.crossing
    rw [hl, postEvent_answers]
  unfold State.flushPf1
  split
  · exact foldl_kept (φ := State.crossing) hpost _ _
  · rfl

theorem takeAnswers_crossing (s : State) : s.takeAnswers.crossing = s.crossing := by
  have hr : part .rings s.takeAnswers = part .rings s := takeAnswers_part (by simp) s
  have ha := congrArg Hqe.answers hr
  have ha' : s.takeAnswers.hqe.answers = s.hqe.answers := ha
  unfold State.crossing
  rw [takeAnswers_lnk, ha']

/-- The Saggar's answer leaves the way. -/
theorem takeAnswer_crossing (s : State) : s.takeAnswer.crossing = (s.lnk.summary, s.lnk.toSt, s.hqe.answers.tail) := by
  have hcomplete (fn : Fn) (sq cid st r : Nat) (u : State) : (u.complete fn sq cid st r).crossing = u.crossing := by
    have hl : (u.complete fn sq cid st r).lnk = u.lnk := complete_part (π := .lnk) (by simp) ..
    have hr : part .rings (u.complete fn sq cid st r) = part .rings u := complete_part (by simp) ..
    have ha := congrArg Hqe.answers hr
    have ha' : (u.complete fn sq cid st r).hqe.answers = u.hqe.answers := ha
    unfold State.crossing
    rw [hl, ha']
  unfold State.takeAnswer
  split
  next h =>
    rw [h]
    unfold State.crossing
    rw [h]
    rfl
  next a rest h =>
    rw [h]
    dsimp only
    split
    · rfl
    · split
      · exact hcomplete ..
      · exact hcomplete ..

theorem sessionArrives_crossing {s : State} (h : s.lnk.path = true) : s.sessionArrives.crossing = (s.lnk.summary, [], s.hqe.answers) := by
  unfold State.sessionArrives
  rw [if_pos h, flushPf1_crossing, takeAnswers_crossing]
  rfl

/-- The crossings that go before a summary have gone. -/
theorem crossingsFirst_crossing (s : State) : s.crossingsFirst.lnk.summary = s.lnk.summary ∧
    (s.lnk.path = true → s.crossingsFirst.lnk.toSt = [] ∧ s.crossingsFirst.hqe.answers = []) := by
  have hfold (l : List Answer) (u : State) (hs : u.hqe.answers = l) (ht : u.lnk.toSt = []) :
      (l.foldl (fun s _ => s.takeAnswer) u).crossing = (u.lnk.summary, [], []) := by
    induction l generalizing u with
    | nil =>
      unfold State.crossing
      rw [List.foldl_nil, hs, ht]
    | cons a l ih =>
      have h := takeAnswer_crossing u
      obtain ⟨h1, h2⟩ := Prod.mk.inj h
      obtain ⟨h2, h3⟩ := Prod.mk.inj h2
      rw [List.foldl_cons, ih _ (by rw [h3, hs]; rfl) (h2.trans ht), h1]
  unfold State.crossingsFirst
  split
  next hp =>
    have h := sessionArrives_crossing hp
    obtain ⟨h1, h2⟩ := Prod.mk.inj h
    obtain ⟨h2, h3⟩ := Prod.mk.inj h2
    have hf := hfold s.hqe.answers s.sessionArrives h3 h2
    obtain ⟨f1, f2⟩ := Prod.mk.inj hf
    obtain ⟨f2, f3⟩ := Prod.mk.inj f2
    exact ⟨f1.trans h1, fun _ => ⟨f2, f3⟩⟩
  next hp => exact ⟨rfl, fun h => absurd h hp⟩

/-- A summary taken leaves the way as it was. -/
theorem takeSummary_crossing {s : State} {m : SumMsg} (h : s.lnk.summary = some m) : s.takeSummary.crossing = (none, s.lnk.toSt, s.hqe.answers) := by
  have hone (sub src port : Nat) (was now : Bool) (a b : Nat × Nat) (time : Nat) (u : State) : (u.meterEvent sub src port was now a b time).crossing = u.crossing := by
    have hpost (arg : Nat) : (u.postEvent .pf0 65 sub arg src).crossing = u.crossing := by
      have hl : (u.postEvent .pf0 65 sub arg src).lnk = u.lnk := postEvent_part (π := .lnk) (by simp) ..
      unfold State.crossing
      rw [hl, postEvent_answers]
    unfold State.meterEvent
    dsimp only
    split
    · rfl
    · split
      · exact hpost _
      · exact hpost _
  unfold State.takeSummary
  rw [h]
  dsimp only
  split
  · rfl
  · rw [hone, foldl_kept (φ := State.crossing) (fun u n => hone _ _ _ _ _ _ _ _ u)]
    rfl

theorem measurementCrossing : Claim.MeasurementCrossing := by
  refine ⟨?send, ?silent, ?arrives, ?dropped, ?behind, ?none⟩
  case send =>
    intro s hm
    have he : summarySend s.start = if s.lnk.sgUp then (s.start.onSgm (fun g => { g with
        sec := Second.empty ((List.range 16).map (fun n => (g.acc.getD n 0 : Int) - g.acc.getD (16 + n) 0)) })).onLnk (fun l => { l with
          summary := some (s.sgm.summary s.bte.lTime).msg })
        else s.start.onSgm (fun g => { g with sec := Second.empty ((List.range 16).map (fun n => (g.acc.getD n 0 : Int) - g.acc.getD (16 + n) 0)) }) :=
      if_neg (not_not.mpr hm)
    refine ⟨_, congrArg Host.Outcome.next he, ?_⟩
    obtain ⟨f1, f2, f3, f4⟩ := summary_frames (s.sgm.summary s.bte.lTime)
    split
    next hsg => exact ⟨fun _ => ⟨_, rfl, f1, f2, f3, f4⟩, fun h => absurd (hsg.symm.trans h) (by decide), rfl, rfl⟩
    next hsg => exact ⟨fun h => absurd h hsg, fun _ => rfl, rfl, rfl⟩
  case silent => exact fun s hm => ⟨_, congrArg Host.Outcome.next (if_pos hm), rfl⟩
  case arrives =>
    intro s m o h hup hsite ho hf hac ha h1 h2 h3
    have he : summaryArrives s.start = _ := (summaryArrives_eq (s := s.start) h).trans ((congrArg State.takeSummary (crossingsFirst_eq_self (s := s.start) ha h1 h2 h3)).trans
      (takeSummary_same (s := s.start) h hup hsite ho hf hac))
    exact ⟨_, congrArg Host.Outcome.next he, rfl⟩
  case dropped =>
    intro s m h hd ha h1 h2 h3
    have he : summaryArrives s.start = _ := (summaryArrives_eq (s := s.start) h).trans ((congrArg State.takeSummary (crossingsFirst_eq_self (s := s.start) ha h1 h2 h3)).trans
      (takeSummary_dropped (s := s.start) h hd))
    exact ⟨_, congrArg Host.Outcome.next he, rfl⟩
  case behind =>
    intro s h
    obtain ⟨m, hm⟩ := Option.isSome_iff_exists.mp h
    obtain ⟨hsum, hway⟩ := crossingsFirst_crossing s.start
    have ht := takeSummary_crossing (hsum.trans hm)
    obtain ⟨t1, t2⟩ := Prod.mk.inj ht
    obtain ⟨t2, t3⟩ := Prod.mk.inj t2
    refine ⟨_, congrArg Host.Outcome.next (summaryArrives_eq (s := s.start) hm), t1, fun hp => ?_⟩
    obtain ⟨w1, w2⟩ := hway hp
    exact ⟨t2.trans w1, t3.trans w2⟩
  case none => exact fun s h => ⟨_, congrArg Host.Outcome.next (if_pos (by rw [show s.start.lnk.summary = s.lnk.summary from rfl, h]; rfl)), rfl⟩

/-! ### The supply -/

theorem batteryMode : Claim.BatteryMode := by
  refine ⟨?battery, ?ship, ?sample, ?stop, ?window, ?return_, ?settled, ?settling, ?cutoff, ?periodic, ?sram, ?saved, ?neither⟩
  case battery =>
    intro mv bits s hm hc ho
    obtain ⟨u, hu, u1, u2, u3, u4, u5, u6, u7, u8⟩ := lossBoundary_spec bits s.start
    obtain ⟨t, ht, t1, t2, t3, t4, t5, t6, t7, t8, t9, t10, t11, t12, t13, t14, t15⟩ := entersBattery_spec mv s.start.bte.up u
    have he : supplyLoss' (some mv) bits s.start = t := by rw [supplyLoss_battery (s := s.start) hm hc (by rw [show s.start.sgm.shipOrder = false from ho]; rfl), hu, ht]
    have hframe : t = frameOf [.rings, .lnk, .sgm, .meters, .bte, .mss, .out, .free] s.start t :=
      eq_frameOf _ (fun π hp => by rw [← he]; exact supplyLoss'_part hp (some mv) bits s.start)
    refine ⟨t, congrArg Host.Outcome.next he, t1, fun hset => ?_, by rw [t6]; exact t4, fun h => t5.trans (u4 h), fun st h hr => t5.trans (u5 st h hr),
      by rw [t7, u3]; rfl, t8, t9, t10, by rw [t11]; exact u1, t12, fun p hp => u2 p (by rw [← t13]; exact hp), t14, fun h => by rw [t15]; exact u6 h, ?_⟩
    · obtain ⟨m1, m2⟩ := lossSample_meters_idle (bits := bits) (s := s.start) (by rw [show s.start.sgm.mode = s.sgm.mode from rfl, hset]; decide)
      exact ⟨t2.trans (u7.trans m1), t3.trans (u8.trans m2)⟩
    · exact hframe
  case ship =>
    intro mv bits s hm hc ho ha
    obtain ⟨t, ht, t1, t2, t3, t4, t5, t6, -, -⟩ := entersShip_spec s.start.bte.up (s.start.lossBoundary bits)
    have he : supplyLoss' (some mv) bits s.start = t := by rw [supplyLoss_ship (s := s.start) hm hc ho ha, ht]
    exact ⟨t, congrArg Host.Outcome.next he, t1, by rw [t5]; exact t2, t3, by rw [t5]; exact t4, t6⟩
  case sample =>
    intro cell bits s b hb hsave hm ha hr
    have hsame := (SameSaggar.start s).sgmDue.boundaryStart
    rw [← hb] at hsame
    have hdark : (s.start.onSgm (fun g => { g with saving := none })) = s.start := by
      unfold State.onSgm
      dsimp only
      rw [← show s.start.sgm.saving = none from hsave]
    have hport (u : State) (hacc : u.sgm.acc = (s.start.lossSample bits).sgm.acc) (hres : u.sgm.res = (s.start.lossSample bits).sgm.res) (n : Nat) (hn : n < 16) :
        PortSampled n (convertCode b.sgm.cal n ((b.sgm.codes bits).getD n 0)) (convertCode b.sgm.cal (16 + n) ((b.sgm.codes bits).getD (16 + n) 0)) b.sgm u.sgm := by
      have h := loss_portSampled (b := s.start.sgmDue.boundaryStart) (n := n) (u := u.sgm) (s := s.start) hm rfl hn (by rw [hsame.sgm]; exact ha)
        (by rw [hsame.sgm]; exact hr) hacc hres
      rw [hsame.sgm] at h
      exact h
    obtain ⟨v, hv, -, -, -, -, -, -, v1, v2⟩ := lossBoundary_spec bits s.start
    cases hd : (cell.isNone || s.cell.cut) with
    | true =>
      obtain ⟨t, ht, -, -, -, -, -, t1, t2⟩ := stops_spec v
      have he : supplyLoss' cell bits s.start = t := by rw [supplyLoss_dark (s := s.start) (.inl hm) hd, hdark, hv, ht]
      exact ⟨t, congrArg Host.Outcome.next he, hport t (t1.trans v1) (t2.trans v2)⟩
    | false =>
      obtain ⟨hcell, hcut⟩ := Bool.or_eq_false_iff.mp hd
      obtain ⟨mv, rfl⟩ : ∃ mv, cell = some mv := by
        cases cell with
        | none => exact absurd hcell (by decide)
        | some mv => exact ⟨mv, rfl⟩
      cases ho : s.sgm.shipOrder && s.mss.shipAuth.isSome with
      | true =>
        obtain ⟨ho1, ho2⟩ := Bool.and_eq_true_iff.mp ho
        obtain ⟨t, ht, -, -, -, -, -, -, t1, t2⟩ := entersShip_spec s.start.bte.up v
        have he : supplyLoss' (some mv) bits s.start = t := by rw [supplyLoss_ship (s := s.start) (.inl hm) hcut ho1 ho2, hv, ht]
        exact ⟨t, congrArg Host.Outcome.next he, hport t (t1.trans v1) (t2.trans v2)⟩
      | false =>
        obtain ⟨t, ht, -, t1, t2, -⟩ := entersBattery_spec mv s.start.bte.up v
        have he : supplyLoss' (some mv) bits s.start = t := by rw [supplyLoss_battery (s := s.start) (.inl hm) hcut ho, hv, ht]
        exact ⟨t, congrArg Host.Outcome.next he, hport t (t1.trans v1) (t2.trans v2)⟩
  case stop =>
    intro bits s hm
    obtain ⟨v, hv, v1, v2, v3, v4, v5, v6, v7, v8⟩ := lossBoundary_spec bits (s.start.onSgm (fun g => { g with saving := none }))
    obtain ⟨t, ht, t1, t2, t3, t4, t5, -, -⟩ := stops_spec v
    have he : supplyLoss' none bits s.start = t := by rw [supplyLoss_dark (s := s.start) hm rfl, hv, ht]
    refine ⟨t, congrArg Host.Outcome.next he, t1, t2, t3, fun h => ?_, fun st h hr => ?_, t5⟩
    · have hl : v.bte.lTime = s.bte.lTime := lTime_eq (v4 h) v3
      rw [← hl]
      exact t4
    · have hl : v.bte.lTime = ((s.bte.up : Int) + st.off).toNat := by
        unfold Bte.lTime
        rw [v5 st h hr, v3]
        rfl
      rw [← hl]
      exact t4
  case window =>
    intro bits s hm hcal _ ha hr hf _
    refine ⟨_, rfl, fun n hn m hmean => ?_⟩
    obtain ⟨⟨w1, w2, w3⟩, w4⟩ := batteryWindow_spec (bits := bits) (s := s.start) hm hcal ⟨ha, hr, hf⟩ hn
    have hmean' : m = s.start.sgm.windowMean bits n := hmean
    rw [hmean']
    exact ⟨w1, w2, w3, w4⟩
  case return_ =>
    intro s hm hq
    have he := supplyReturn_battery (s := s.start) hm hq
    obtain ⟨r1, r2⟩ := supplyMods_rails (vv := true) (vi := true) (clk := [4, 4, 4, 4]) (s := s.start.onSgm (fun g => { g with mode := .settling, settle := 0 }))
    exact ⟨_, congrArg Host.Outcome.next he, fun h => r1 (fun hc => Bool.false_ne_true (h.symm.trans hc)),
      fun h => r2 (fun hc => Bool.false_ne_true (h.symm.trans hc)), rfl⟩
  case settled =>
    intro s b hm hset hb
    have he := settlingEnd_battery (s := s.start) hm hset hb
    have hsgm := sgmEvent_sgm 0x02 ((s.bte.up - b) / 1000000) noSource s.start.settled
    obtain ⟨g1, g2, g3, g4⟩ := settled_sgm s.start
    have hframe := eq_frameOf [.rings, .lnk, .sgm, .out, .free] (s := s.start) (t := settlingEnd s.start) (fun π hp => settlingEnd_part hp s.start)
    refine ⟨settlingEnd s.start, rfl, ?_, ?_, ?_, ?_, ?_, hframe⟩
    all_goals
      rw [he]
      rw [show (s.start.settled.sgmEvent 0x02 ((s.start.bte.up - b) / 1000000) noSource).sgm = _ from hsgm]
    · exact g1
    · exact g2
    · exact g3
    · exact g4
    · rfl
  case settling => exact fun s h => ⟨_, congrArg Host.Outcome.next (if_pos (.inr h)), rfl⟩
  case cutoff =>
    intro mv s hm
    obtain ⟨t, ht, hall⟩ := cellCutoff_spec (mv := mv) (s := s.start) hm
    exact ⟨t, congrArg Host.Outcome.next ht, hall⟩
  case periodic =>
    intro s hr hs
    have he : periodicSave s.start = s.start.onSgm (fun g => { g with saving := some (s.start.saveNow 0) }) := by
      unfold periodicSave
      rw [if_pos (show s.start.sgm.runs = true from hr), saveDone_none (s := s.start) hs]
    exact ⟨_, congrArg Host.Outcome.next he, rfl, _, rfl, rfl, rfl, rfl, rfl, rfl⟩
  case sram =>
    intro a b s hg
    have hf := found_sgm s.start
    obtain ⟨k1, k2, k3⟩ := memory_kept (k := true) (s := s.start.found) (by rw [hf]; exact hg)
    rw [hf] at k1 k2 k3
    obtain ⟨o1, o2, o3⟩ := saggarPowerOn_open true a b s.start
    have hsgm := saggarPowerOn_sgm true a b s.start
    have hmode := memory_mode true s.start.found
    refine ⟨_, rfl, ?_⟩
    dsimp only
    rw [hsgm]
    exact ⟨hmode, o1, k1, k2, k3, o2, o3⟩
  case saved =>
    intro kept a b s seq v hg hn
    have hf := found_sgm s.start
    obtain ⟨k1, k2, k3, k4⟩ := memory_saved (k := kept) (s := s.start.found) (by rw [hf]; exact hg) (by rw [hf]; exact hn)
    have hsgm := saggarPowerOn_sgm kept a b s.start
    have hmode := memory_mode kept s.start.found
    have hcredit := saggarPowerOn_credit kept a b s.start
    refine ⟨_, rfl, ?_⟩
    dsimp only
    rw [hsgm, hcredit]
    exact ⟨hmode, (saggarPowerOn_open kept a b s.start).1, k1, k2, k3, k4⟩
  case neither =>
    intro kept a b s hg hn
    have hf := found_sgm s.start
    have hk := memory_none (k := kept) (s := s.start.found) (by rw [hf]; exact hg) (by rw [hf]; exact hn)
    rw [hf] at hk
    have hsgm := saggarPowerOn_sgm kept a b s.start
    have hmode := memory_mode kept s.start.found
    refine ⟨_, rfl, ?_⟩
    dsimp only
    rw [hsgm]
    exact ⟨hmode, (saggarPowerOn_open kept a b s.start).1, hk⟩

/-- Settles O50: a supply loss ends the sample's boundary and saves before it enters battery mode, ship state or the stop, and the summary of a
second goes behind what crosses before it. -/
theorem batteryAndCrossing : Obligations.BatteryAndCrossing := ⟨batteryMode, measurementCrossing⟩

end Sys2Proof.Machine
end
section
/-! PROOFS. The energy of a sample in the tariff registers and the accounts (R347, R362) -/

namespace Sys2Proof.Machine

open Sys2Proof

/-! ### What a carry goes by -/

/-- The ports with open sessions, and whether each is prepaid. -/
def Bte.keys (b : Bte) : List (Nat × Bool) := b.sess.map (fun x => (x.port, x.prepaid))

/-- What the delivered energy reaches, and what it goes by. -/
structure Billing where
  trDc : List Nat
  credit : List (Int × Nat)
  rate : Nat
  cal : Option Calendar
  keys : List (Nat × Bool)
  steps : List ClockStep
  acc : List Nat
  restarting : Bool

/-- The billing of delivered energy. -/
def State.billing (s : State) : Billing :=
  ⟨s.bte.trDc, s.bte.credit, s.bte.rate, s.bte.cal, s.bte.keys, s.bte.steps, s.sgm.acc.take 16, s.mss.restarting⟩

theorem billing_congr {s t : State} (h1 : t.bte.trDc = s.bte.trDc) (h2 : t.bte.credit = s.bte.credit) (h3 : t.bte.rate = s.bte.rate) (h4 : t.bte.cal = s.bte.cal)
    (h5 : t.bte.keys = s.bte.keys) (h6 : t.bte.steps = s.bte.steps) (h7 : t.sgm.acc.take 16 = s.sgm.acc.take 16) (h8 : t.mss.restarting = s.mss.restarting) :
    t.billing = s.billing := by
  unfold State.billing
  rw [h1, h2, h3, h4, h5, h6, h7, h8]

theorem billing_of {s t : State} (hb : t.bte = s.bte) (ha : t.sgm.acc = s.sgm.acc) (hm : t.mss.restarting = s.mss.restarting) : t.billing = s.billing :=
  billing_congr (by rw [hb]) (by rw [hb]) (by rw [hb]) (by rw [hb]) (by rw [hb]) (by rw [hb]) (by rw [ha]) hm

/-! ### What leaves it alone -/

theorem evalSess_billing (x : BteSess) (s : State) : (s.evalSess x).billing = s.billing := by
  have hkeys (st acct : Nat) (b : Bte) : Bte.keys { b with sess := b.sess.map (x.evaluated st acct) } = b.keys := by
    unfold Bte.keys
    dsimp only
    rw [List.map_map]
    refine List.map_congr_left (fun y _ => ?_)
    unfold BteSess.evaluated
    dsimp only [Function.comp]
    split <;> rfl
  cases hs : x.said with
  | true => rw [evalSess_said hs]
  | false =>
    have hk : (s.evalSess x).bte.keys = s.bte.keys := by
      rw [evalSess_eq hs]
      refine (hkeys ..).trans ?_
      rw [acctEvent_bte (φ := Bte.keys) (by exact fun _ _ => rfl), told_bte]
    have hb {α : Type} (φ : Bte → α) (h : ∀ b x y, φ { b with lastEvent := x, sess := y } = φ b) : φ (s.evalSess x).bte = φ s.bte := evalSess_bte h x s
    have hsgm : (s.evalSess x).sgm = s.sgm := part_sgm (evalSess_part (by simp) x s)
    have hmss : (s.evalSess x).mss = s.mss := evalSess_part (π := .mss) (by simp) x s
    exact billing_congr (hb Bte.trDc (by exact fun _ _ _ => rfl)) (hb Bte.credit (by exact fun _ _ _ => rfl)) (hb Bte.rate (by exact fun _ _ _ => rfl))
      (hb Bte.cal (by exact fun _ _ _ => rfl)) hk (hb Bte.steps (by exact fun _ _ _ => rfl)) (by rw [hsgm]) (by rw [hmss])

theorem creditEval_billing (s : State) : s.creditEval.billing = s.billing := by
  unfold State.creditEval
  split
  · rfl
  · exact foldl_kept (φ := State.billing) (fun u x => evalSess_billing x u) _ s

theorem setFault_billing (c cause : Nat) (s : State) : (s.setFault c cause).billing = s.billing := by
  unfold State.setFault
  dsimp only
  split
  · rfl
  · exact creditEval_billing (s.onSgm _)

theorem channelFault_billing (c cause : Nat) (s : State) : (channelFault c cause s).billing = s.billing := by
  unfold channelFault
  dsimp only
  split
  · exact setFault_billing ..
  · rfl

theorem channelClear_billing (c : Nat) (s : State) : (channelClear c s).billing = s.billing := by
  unfold channelClear
  split
  · exact setFault_billing ..
  · rfl

/-- A register of the grid bills no port. -/
theorem bumpReg_billing {id : Nat} (hid : 16 ≤ id) (a : Nat) {s : State} (hr : s.mss.restarting = false) : (s.bumpReg id a).billing = s.billing := by
  have hacc : (bump id a energyUnit 1 s.sgm).1.acc.take 16 = s.sgm.acc.take 16 := by
    rw [bump_eq]
    unfold upd
    rw [List.take_modify]
    exact List.modify_eq_self (by rw [List.length_take]; omega)
  have hcarried (b : Bte) (c : Nat) : b.carried id c = { b with trImp := (b.carried id c).trImp, trExp := (b.carried id c).trExp } := by
    unfold Bte.carried
    rw [if_neg (by omega)]
    split
    · rfl
    · split <;> rfl
  have hcarry (u : State) (c : Nat) (hu : u.mss.restarting = false) : (u.carry id c).billing = u.billing := by
    rw [carry_eq, hu]
    split
    · rfl
    · rw [if_neg (by decide)]
      have h := hcarried u.bte c
      unfold State.billing Bte.keys State.onBte
      dsimp only
      rw [h]
  unfold State.bumpReg
  dsimp only
  refine (hcarry (s.onSgm _) _ hr).trans ?_
  exact billing_congr rfl rfl rfl rfl rfl rfl hacc rfl

theorem quadrant_grid (p q : Int) : 16 ≤ (quadrant p q).1 ∧ 16 ≤ (quadrant p q).2.1 ∧ 16 ≤ (quadrant p q).2.2 := by
  unfold quadrant
  split <;> split <;> decide

theorem acBoundary_billing (s : State) : s.acBoundary.billing = s.billing :=
  billing_of (acBoundary_bte s) (by rw [acBoundary_sgm]) (guarded_spec (acBoundary_guarded s)).1

theorem blockEnd_billing {s : State} (hr : s.mss.restarting = false) : (blockEnd s).billing = s.billing := by
  by_cases hb : s.sgm.mode ≠ .normal ∨ s.sgm.block.n ≠ 1600
  · rw [blockEnd_none hb]
  · rw [not_or, not_not, not_not] at hb
    rw [blockEnd_eq hb.1 hb.2, acBoundary_billing]
    have hshown : s.blockShown.billing = s.billing := rfl
    split
    · exact hshown
    · obtain ⟨q1, q2, q3⟩ := quadrant_grid s.sgm.block.p (s.sgm.blockQ s.free)
      have hrest (id a : Nat) (u : State) : (u.bumpReg id a).mss.restarting = u.mss.restarting :=
        congrArg Mss.restarting (show (u.bumpReg id a).mss = u.mss from bumpReg_part (π := .mss) (by simp) ..)
      have h0 : s.blockShown.mss.restarting = false := hr
      unfold State.blockBumps
      rw [bumpReg_billing q3 _ (by rw [hrest, hrest]; exact h0), bumpReg_billing q2 _ (by rw [hrest]; exact h0), bumpReg_billing q1 _ h0, hshown]

theorem sgmDue_billing {s : State} (hr : s.mss.restarting = false) : s.sgmDue.billing = s.billing := by
  have hone (u : State) (c : Nat) : (channelClear c (channelFault c 2 (channelFault c 1 u))).billing = u.billing :=
    (channelClear_billing ..).trans ((channelFault_billing ..).trans (channelFault_billing ..))
  have hsave : s.saveDone.mss = s.mss := saveDone_part (π := .mss) (by simp) s
  unfold State.sgmDue
  rw [foldl_kept (φ := State.billing) hone, blockEnd_billing (by rw [hsave]; exact hr)]
  exact billing_of (saveDone_bte s) (saveDone_sgm (φ := Sgm.acc) (by exact fun _ _ _ _ => rfl) s) (by rw [hsave])

theorem boundaryStart_billing (s : State) : s.boundaryStart.billing = s.billing := by
  have hb {α : Type} (φ : Bte → α) (h : Unbilled φ) : φ s.boundaryStart.bte = φ s.bte := boundaryStart_bte h s
  have hacc : s.boundaryStart.sgm.acc = s.sgm.acc :=
    boundaryStart_sgm (φ := Sgm.acc) (by exact fun _ _ _ => rfl) (by exact fun _ _ => rfl) (by exact fun _ _ _ _ => rfl) s
  have hbte : s.boundaryStart.bte = s.unsaid.bte := by
    have hfold (l : List PulseCfg) (u : State) : (l.foldl (fun s c => s.pulseApply c) u).bte = u.bte :=
      foldl_kept (φ := fun u : State => u.bte) (fun u c => pulseApply_bte c u) l u
    rw [boundaryStart_eq]
    unfold State.pulseCfgs
    rw [hfold]
    split
    · exact acBoundary_bte (s.unsaid.onSgm Sgm.calSet)
    · rfl
  have hunsaid : s.unsaid.billing = s.billing := by
    refine billing_congr rfl rfl rfl rfl ?_ rfl rfl rfl
    unfold State.unsaid Bte.keys State.onBte
    dsimp only
    rw [List.map_map]
    rfl
  rw [← hunsaid]
  exact billing_of hbte hacc (guarded_spec (boundaryStart_guarded s)).1

theorem boundaryEnd_billing {s : State} (hs : s.bte.steps = []) : s.boundaryEnd.billing = s.billing := by
  have hend : s.boundaryEnd.billing = (if s.mss.restarting then s else s.creditEval.clockStep).billing := rfl
  have hcredit := creditEval_billing s
  have hsteps : s.creditEval.bte.steps = s.bte.steps := congrArg Billing.steps hcredit
  rw [hend]
  split
  · rfl
  · rw [clockStep_none (hsteps.trans hs), ← hcredit]
    exact billing_congr rfl rfl rfl rfl rfl (hsteps.trans hs).symm rfl rfl

/-! ### A port's sample -/

/-- The price of the rate in force. -/
def Billing.price (b : Billing) : Nat := match b.cal with
  | none => 0
  | some x => x.price b.rate

/-- A carry into an accumulator, billed where it is a port's delivered energy. -/
def Billing.add (n c : Nat) (b : Billing) : Billing := { b with
  trDc := upd b.trDc b.rate (· + c), acc := upd b.acc n (· + c)
  credit := if b.keys.any (fun k => k.1 == n && k.2) then
      b.credit.set n (chargeAcct c b.price (b.credit.getD n (0, 0))).1 else b.credit }

theorem any_keys (n : Nat) (b : Bte) : b.keys.any (fun k => k.1 == n && k.2) = b.sess.any (fun x => x.port == n && x.prepaid) := by
  unfold Bte.keys
  rw [List.any_map]
  rfl

theorem bumpReg_port {n : Nat} (hn : n < 16) (a : Nat) {s : State} (hr : s.mss.restarting = false) :
    ∃ c, (c = 0 ∧ (s.bumpReg n a).billing = s.billing ∨ c ≠ 0 ∧ (s.bumpReg n a).billing = s.billing.add n c) := by
  have hacc (c : Nat) : (upd s.sgm.acc n (· + c)).take 16 = upd (s.sgm.acc.take 16) n (· + c) := by
    unfold upd
    rw [List.take_modify]
  have hkeys (c : Nat) : (s.bte.delivered n c).keys = s.bte.keys := by
    unfold Bte.keys Bte.delivered
    dsimp only
    rw [List.map_map]
    refine List.map_congr_left (fun y _ => ?_)
    dsimp only [Function.comp]
    split <;> rfl
  refine ⟨(bump n a energyUnit 1 s.sgm).2, ?_⟩
  have hb := bump_eq n a energyUnit 1 s.sgm
  have hc : (bump n a energyUnit 1 s.sgm).2 = (s.sgm.res.getD n 0 + a) / energyUnit := rfl
  unfold State.bumpReg
  dsimp only
  rw [carry_eq]
  by_cases h0 : (bump n a energyUnit 1 s.sgm).2 = 0
  · refine .inl ⟨h0, ?_⟩
    rw [if_pos h0]
    refine billing_congr rfl rfl rfl rfl rfl rfl ?_ rfl
    change (bump n a energyUnit 1 s.sgm).1.acc.take 16 = _
    rw [hb, ← hc, h0]
    change (upd s.sgm.acc n (· + 0 * 1)).take 16 = _
    rw [hacc]
    unfold upd
    exact List.modify_id n _
  · refine .inr ⟨h0, ?_⟩
    rw [if_neg h0, if_neg (by rw [show (s.onSgm _).mss.restarting = false from hr]; decide)]
    generalize hcc : (bump n a energyUnit 1 s.sgm).2 = c
    have hacc' : (bump n a energyUnit 1 s.sgm).1.acc.take 16 = upd (s.sgm.acc.take 16) n (· + c) := by
      rw [hb, ← hc, hcc, ← hacc]
      simp only [Nat.mul_one]
    unfold State.billing State.onBte State.onSgm Billing.add Bte.carried
    dsimp only
    rw [if_pos hn, hacc', hkeys, any_keys]
    rfl

end Sys2Proof.Machine
end
section
/-! PROOFS. Sessions of the Saggar and the charges of a sample (R347, R362 to R364) -/

namespace Sys2Proof.Machine

open Sys2Proof

/-! ### The sixteen ports of a sample -/

theorem sumN_upd_add {l : List Nat} {i : Nat} (h : i < l.length) (c : Nat) : sumN (upd l i (· + c)) = sumN l + c := by
  rw [sumN_eq_sum, sumN_eq_sum]
  unfold upd
  induction l generalizing i with
  | nil => simp at h
  | cons x l ih =>
    cases i with
    | zero => simp; omega
    | succ i => simp only [List.modify_succ_cons, List.sum_cons, ih (Nat.lt_of_succ_lt_succ h)]; omega

/-- Carries to the rate in force, each of one accumulator. -/
structure Billing.Grows (b t : Billing) : Prop where
  rate : t.rate = b.rate
  cal : t.cal = b.cal
  keys : t.keys = b.keys
  steps : t.steps = b.steps
  restarting : t.restarting = b.restarting
  tariffs : t.trDc.length = b.trDc.length
  ports : t.acc.length = b.acc.length
  accounts : t.credit.length = b.credit.length
  sums : sumN t.trDc + sumN b.acc = sumN b.trDc + sumN t.acc
  others : ∀ r, r ≠ b.rate → t.trDc.getD r 0 = b.trDc.getD r 0

theorem Billing.Grows.refl (b : Billing) : b.Grows b := ⟨rfl, rfl, rfl, rfl, rfl, rfl, rfl, rfl, rfl, fun _ _ => rfl⟩

theorem Billing.Grows.add {b t : Billing} (h : b.Grows t) {n : Nat} (hn : n < b.acc.length) (hr : b.rate < b.trDc.length) (c : Nat) : b.Grows (t.add n c) where
  rate := h.rate
  cal := h.cal
  keys := h.keys
  steps := h.steps
  restarting := h.restarting
  tariffs := (upd_length ..).trans h.tariffs
  ports := (upd_length ..).trans h.ports
  accounts := by
    unfold Billing.add
    dsimp only
    split
    · exact (List.length_set ..).trans h.accounts
    · exact h.accounts
  sums := by
    have hs := h.sums
    unfold Billing.add
    dsimp only
    rw [sumN_upd_add (by rw [h.rate, h.tariffs]; exact hr), sumN_upd_add (by rw [h.ports]; exact hn)]
    omega
  others r hne := by
    unfold Billing.add
    dsimp only
    rw [getD_upd_of_ne (by rw [h.rate]; exact hne), h.others r hne]

theorem dcSample_billing {n : Nat} (hn : n < 16) (xs : List Int) {s : State} (hr : s.mss.restarting = false) :
    (s.dcSample xs n).billing = s.billing ∨ ∃ c, c ≠ 0 ∧ (s.dcSample xs n).billing = s.billing.add n c := by
  have hport (a : Nat) : (s.bumpReg n a).billing = s.billing ∨ ∃ c, c ≠ 0 ∧ (s.bumpReg n a).billing = s.billing.add n c := by
    obtain ⟨c, ⟨-, h⟩ | ⟨hc, h⟩⟩ := bumpReg_port hn a hr
    · exact .inl h
    · exact .inr ⟨c, hc, h⟩
  unfold State.dcSample
  dsimp only
  split
  · exact .inl rfl
  · split
    · exact hport _
    · exact .inl (bumpReg_billing (by omega) _ hr)

/-- A port's account has been charged with the carry of its accumulator, where it is prepaid. -/
def Billing.Charged (p : Nat) (b t : Billing) : Prop :=
  b.Grows t ∧ (b.keys.any (fun k => k.1 == p && k.2) = false → t.credit.getD p (0, 0) = b.credit.getD p (0, 0)) ∧
  (b.keys.any (fun k => k.1 == p && k.2) = true → b.acc.getD p 0 < t.acc.getD p 0 →
    t.credit.getD p (0, 0) = (chargeAcct (t.acc.getD p 0 - b.acc.getD p 0) b.price (b.credit.getD p (0, 0))).1)

/-- A port's account and accumulator stand as they were. -/
def Billing.Uncharged (p : Nat) (b t : Billing) : Prop :=
  b.Grows t ∧ t.credit.getD p (0, 0) = b.credit.getD p (0, 0) ∧ t.acc.getD p 0 = b.acc.getD p 0

theorem Billing.Uncharged.charged {p : Nat} {b t : Billing} (h : b.Uncharged p t) : b.Charged p t := by
  obtain ⟨hg, hc, ha⟩ := h
  exact ⟨hg, fun _ => hc, fun _ hlt => absurd ha.symm (Nat.ne_of_lt hlt)⟩

/-- Another port's carry leaves a port's account and accumulator. -/
theorem Billing.add_other {p n : Nat} (h : p ≠ n) (c : Nat) (t : Billing) :
    (t.add n c).credit.getD p (0, 0) = t.credit.getD p (0, 0) ∧ (t.add n c).acc.getD p 0 = t.acc.getD p 0 := by
  refine ⟨?_, getD_upd_of_ne h ..⟩
  unfold Billing.add
  dsimp only
  split
  · rw [List.getD_eq_getElem?_getD, List.getElem?_set_ne h.symm, ← List.getD_eq_getElem?_getD]
  · rfl

theorem Billing.Uncharged.add {p n : Nat} {b t : Billing} (h : b.Uncharged p t) (hne : p ≠ n) (hn : n < b.acc.length) (hr : b.rate < b.trDc.length) (c : Nat) :
    b.Uncharged p (t.add n c) := by
  obtain ⟨hg, hc, ha⟩ := h
  obtain ⟨h1, h2⟩ := Billing.add_other hne c t
  exact ⟨hg.add hn hr c, h1.trans hc, h2.trans ha⟩

theorem Billing.Charged.add {p n : Nat} {b t : Billing} (h : b.Charged p t) (hne : p ≠ n) (hn : n < b.acc.length) (hr : b.rate < b.trDc.length) (c : Nat) :
    b.Charged p (t.add n c) := by
  obtain ⟨hg, hno, hyes⟩ := h
  obtain ⟨h1, h2⟩ := Billing.add_other hne c t
  unfold Billing.Charged
  rw [h1, h2]
  exact ⟨hg.add hn hr c, hno, hyes⟩

theorem Billing.Uncharged.add_self {p : Nat} {b t : Billing} (h : b.Uncharged p t) (hn : p < b.acc.length) (hr : b.rate < b.trDc.length)
    (hl : p < b.credit.length) (c : Nat) : b.Charged p (t.add p c) := by
  obtain ⟨hg, hc, ha⟩ := h
  have hacc : (t.add p c).acc.getD p 0 = b.acc.getD p 0 + c := by
    unfold Billing.add
    dsimp only
    rw [getD_upd_self _ _ (by rw [hg.ports]; exact hn), ha]
  have hprice : t.price = b.price := by
    unfold Billing.price
    rw [hg.cal, hg.rate]
  refine ⟨hg.add hn hr c, fun hno => ?_, fun hyes _ => ?_⟩
  · unfold Billing.add
    dsimp only
    rw [hg.keys, if_neg (by rw [hno]; exact Bool.false_ne_true), hc]
  · rw [hacc, Nat.add_sub_cancel_left]
    unfold Billing.add
    dsimp only
    rw [hg.keys, if_pos hyes, List.getD_eq_getElem?_getD, List.getElem?_set_self (by rw [hg.accounts]; exact hl), hc, hprice]
    rfl

theorem dcSamples_grows {xs : List Int} {s : State} (hr : s.mss.restarting = false) (hrate : s.billing.rate < s.billing.trDc.length)
    (hacc : s.billing.acc.length = 16) : s.billing.Grows (s.dcSamples xs).billing := by
  unfold State.dcSamples
  refine List.foldlRecOn (motive := fun u : State => s.billing.Grows u.billing) _ _ (Billing.Grows.refl _) (fun u hu n hn => ?_)
  rcases dcSample_billing (List.mem_range.mp hn) xs (s := u) (hu.restarting.trans hr) with h | ⟨c, -, h⟩
  · rw [h]; exact hu
  · rw [h]; exact hu.add (by rw [hacc]; exact List.mem_range.mp hn) hrate c

theorem dcSamples_charged {xs : List Int} {s : State} (hr : s.mss.restarting = false) (hrate : s.billing.rate < s.billing.trDc.length)
    (hacc : s.billing.acc.length = 16) {p : Nat} (hp : p < 16) (hl : s.billing.credit.length = 16) : s.billing.Charged p (s.dcSamples xs).billing := by
  unfold State.dcSamples
  refine foldl_range_lt (P := fun u : State => s.billing.Uncharged p u.billing) (Q := fun u : State => s.billing.Charged p u.billing) hp (fun u n hn hne hu => ?_)
    (fun u hu => ?_) (fun u n hn hne hu => ?_) ⟨Billing.Grows.refl _, rfl, rfl⟩
  · rcases dcSample_billing hn xs (s := u) (hu.1.restarting.trans hr) with h | ⟨c, -, h⟩
    · rw [h]; exact hu
    · rw [h]; exact hu.add hne.symm (by rw [hacc]; exact hn) hrate c
  · rcases dcSample_billing hp xs (s := u) (hu.1.restarting.trans hr) with h | ⟨c, -, h⟩
    · rw [h]; exact hu.charged
    · rw [h]; exact hu.add_self (by rw [hacc]; exact hp) hrate (by rw [hl]; exact hp) c
  · rcases dcSample_billing hn xs (s := u) (hu.1.restarting.trans hr) with h | ⟨c, -, h⟩
    · rw [h]; exact hu
    · rw [h]; exact hu.add hne.symm (by rw [hacc]; exact hn) hrate c

theorem sampled_billing (bits : List Nat) (s : State) : (s.sampled bits).billing = (s.dcSamples (s.sgm.convertAll (s.sgm.codes bits))).billing := by
  unfold State.sampled
  generalize s.sgm.convertAll (s.sgm.codes bits) = xs
  generalize s.sgm.codes bits = codes
  refine (foldl_kept (φ := State.billing) (fun u k => ?_) _ _).trans (billing_of rfl rfl rfl)
  exact billing_of (pulseSample_part (π := .bte) (by simp) k u) (pulseSample_sgm (φ := Sgm.acc) (by exact fun _ _ => rfl) k u)
    (congrArg Mss.restarting (pulseSample_part (π := .mss) (by simp) k u))

/-- A sample in normal measurement bills what its sixteen ports carry. -/
theorem sgmSample_billing {bits : List Nat} {s : State} (hm : s.sgm.mode = .normal) (hr : s.mss.restarting = false) (hs : s.bte.steps = [])
    (hrate : s.bte.rate < s.bte.trDc.length) (hacc : (s.sgm.acc.take 16).length = 16) : s.billing.Grows (sgmSample bits s).billing ∧
    ∀ p < 16, s.bte.credit.length = 16 → s.billing.Charged p (sgmSample bits s).billing := by
  have hb : s.sgmDue.boundaryStart.billing = s.billing := (boundaryStart_billing _).trans (sgmDue_billing hr)
  rw [sgmSample_normal hm]
  generalize s.sgmDue.boundaryStart = b at hb
  have hsamp := sampled_billing bits b
  generalize b.sgm.convertAll (b.sgm.codes bits) = xs at hsamp
  have hr' : b.mss.restarting = false := (congrArg Billing.restarting hb).trans hr
  have hrate' : b.billing.rate < b.billing.trDc.length := by rw [hb]; exact hrate
  have hacc' : b.billing.acc.length = 16 := by rw [hb]; exact hacc
  have hg := dcSamples_grows (xs := xs) hr' hrate' hacc'
  have hsteps : (b.sampled bits).bte.steps = [] := (congrArg Billing.steps hsamp).trans (hg.steps.trans ((congrArg Billing.steps hb).trans hs))
  rw [boundaryEnd_billing hsteps, hsamp, ← hb]
  exact ⟨hg, fun p hp hl => dcSamples_charged hr' hrate' hacc' hp ((congrArg (fun b : Billing => b.credit.length) hb).trans hl)⟩

/-! ### Messages -/

theorem openMessage_eq {s : State} {n p hold : Nat} {pre : Bool} {rest : List (CrossMsg × Nat)} (hb : s.bteRuns = true) (hin : s.lnk.inSg = (.open n p pre, hold) :: rest) :
    openMessage s = openSession n p pre hold (s.onLnk (fun l => { l with inSg := rest })) := by
  unfold openMessage
  rw [hb, hin]

theorem closeMessage_eq {s : State} {n reason hold : Nat} {x : BteSess} {rest : List (CrossMsg × Nat)} (hb : s.bteRuns = true)
    (hin : s.lnk.inSg = (.close n reason, hold) :: rest) (hx : s.bte.sess.find? (fun y => y.number == n) = some x) :
    closeMessage s = (s.onLnk (fun l => { l with inSg := rest })).endSession x reason hold := by
  unfold closeMessage
  rw [hb, hin]
  dsimp only
  change (match s.bte.sess.find? (fun y => y.number == n) with | none => _ | some x => _) = _
  rw [hx]

theorem resyncMessage_eq {s : State} {cause hold : Nat} {rest : List (CrossMsg × Nat)} (hb : s.bteRuns = true) (hin : s.lnk.inSg = (.resync cause, hold) :: rest) :
    resyncMessage s = s.bte.sess.foldl (fun s x => s.endSession x (if cause = 0 then 3 else 5) hold) (s.onLnk (fun l => { l with inSg := rest })) := by
  unfold resyncMessage
  rw [hb, hin]
  rfl

/-- No message is taken while the Saggar restarts. -/
theorem messages_wait {s : State} (hb : s.bteRuns = false) : openMessage s = s ∧ closeMessage s = s ∧ resyncMessage s = s := by
  unfold openMessage closeMessage resyncMessage
  rw [hb]
  exact ⟨rfl, rfl, rfl⟩

/-- The body of a session's record (Table 14-3). -/
def BteSess.body (x : BteSess) (reason hold : Nat) (s : State) : List Byte :=
  le 4 x.number ++ le 1 x.port ++ le 1 (b2n x.prepaid) ++ le 1 reason ++ [0] ++ le 8 x.open_ ++
    le 8 (heldTime s.bte.lTime hold) ++ le 8 (regVal x.reg) ++ le 8 (regVal (s.sgm.acc.getD x.port 0)) ++ le 1 (regRoll x.reg) ++
    le 1 (regRoll (s.sgm.acc.getD x.port 0)) ++ zeros 2 ++ (padTo 64 (x.energy.flatMap (fun e => le 4 (e / 100000)))) ++
    le 4 (min x.cost 0xFFFFFFFF) ++ leS 4 (if x.prepaid then (s.bte.credit.getD x.port (0, 0)).1 else 0) ++ zeros 12

/-- A record of kind `kind` as it is signed. -/
def State.newRecord (kind : Nat) (body : List Byte) (s : State) : List Byte :=
  signed kind ((s.mss.recordSeq + 1) % 2 ^ 32) 0 (le 4 ((s.mss.recordSeq + 1) % 2 ^ 32) ++ le 1 kind ++ [0] ++ le 2 (32 + body.length + 128) ++ le 8 s.bte.lTime ++
    zeros 16 ++ body) s

theorem record_session (body : List Byte) (s : State) : ∃ l, (s.record 1 body) = { s with mss := { s.mss with
    recordSeq := (s.mss.recordSeq + 1) % 2 ^ 32, sessions := l } } ∧ l.getLast? = some ((s.mss.recordSeq + 1) % 2 ^ 32, s.newRecord 1 body) := by
  have hkeep (r : List (Nat × List Byte)) (x : Nat × List Byte) (k : Nat) (hk : k ≤ r.length) : ((r ++ [x]).drop k).getLast? = some x := by
    rw [List.drop_append_of_le_length hk, List.getLast?_concat]
  refine ⟨_, rfl, ?_⟩
  exact hkeep s.mss.sessions _ _ (by omega)

theorem u_byte_skip {b : Byte} {o m : Nat} {r : List Byte} (h : 1 ≤ o) : u ([b] ++ r) o m = u r (o - 1) m := by
  have hd : [b].drop o = [] := List.drop_of_length_le (by simpa using h)
  simp only [u, List.drop_append, hd, List.nil_append]
  simp

theorem newRecord_session (x : BteSess) (reason hold : Nat) (v s : State) : u (s.newRecord 1 (x.body reason hold v)) 4 1 = 1 ∧
    u (s.newRecord 1 (x.body reason hold v)) 32 4 = x.number % 2 ^ 32 ∧ u (s.newRecord 1 (x.body reason hold v)) 36 1 = x.port % 256 ∧
    u (s.newRecord 1 (x.body reason hold v)) 38 1 = reason % 256 := by
  unfold State.newRecord signed
  generalize 32 + (x.body reason hold v).length + 128 = n
  unfold BteSess.body
  simp only [List.append_assoc]
  refine ⟨?_, ?_, ?_, ?_⟩ <;> simp (disch := decide) only [u_le_zero, u_le_skip, u_zeros_skip, u_byte_skip, Nat.reduceSub, Nat.reducePow]

/-- The sessions that stay when one ends. -/
def BteSess.others (x : BteSess) (l : List BteSess) : List BteSess := l.filter (fun y => y.number != x.number)

theorem endSession_eq (x : BteSess) (reason hold : Nat) (s : State) :
    s.endSession x reason hold = (s.onBte (fun b => { b with sess := x.others b.sess })).record 1 (x.body reason hold s) := rfl

theorem endSession_spec (x : BteSess) (reason hold : Nat) (s : State) : ∃ l rec', s.endSession x reason hold = { s with
      bte := { s.bte with sess := x.others s.bte.sess }, mss := { s.mss with recordSeq := (s.mss.recordSeq + 1) % 2 ^ 32, sessions := l } } ∧
    l.getLast? = some ((s.mss.recordSeq + 1) % 2 ^ 32, rec') ∧ u rec' 4 1 = 1 ∧ u rec' 32 4 = x.number % 2 ^ 32 ∧ u rec' 36 1 = x.port % 256 ∧
    u rec' 38 1 = reason % 256 := by
  have hrec := newRecord_session x reason hold s (s.onBte (fun b => { b with sess := x.others b.sess }))
  obtain ⟨l, he, hlast⟩ := record_session (x.body reason hold s) (s.onBte (fun b => { b with sess := x.others b.sess }))
  exact ⟨l, _, (endSession_eq ..).trans he, hlast, hrec⟩

/-- Ending every session leaves none, and a record for each. -/
theorem endSessions_spec (reason hold : Nat) (l : List BteSess) (s : State) :
    let t := l.foldl (fun s x => s.endSession x reason hold) s
    t.bte = { s.bte with sess := t.bte.sess } ∧ (∀ y ∈ t.bte.sess, y ∈ s.bte.sess ∧ ∀ x ∈ l, y.number ≠ x.number) ∧ t.lnk = s.lnk ∧
      (s.mss.recordSeq < 2 ^ 32 → t.mss.recordSeq = (s.mss.recordSeq + l.length) % 2 ^ 32) := by
  induction l generalizing s with
  | nil => exact ⟨rfl, fun y hy => ⟨hy, by simp⟩, rfl, fun h => (Nat.mod_eq_of_lt h).symm⟩
  | cons x l ih =>
    obtain ⟨r, rec', he, -⟩ := endSession_spec x reason hold s
    obtain ⟨h1, h2, h3, h4⟩ := ih (s.endSession x reason hold)
    simp only [List.foldl_cons]
    have hbte : (s.endSession x reason hold).bte = { s.bte with sess := x.others s.bte.sess } := by rw [he]
    have hseq : (s.endSession x reason hold).mss.recordSeq = (s.mss.recordSeq + 1) % 2 ^ 32 := by rw [he]
    refine ⟨h1.trans (by rw [hbte]), fun y hy => ?_, h3.trans (by rw [he]), fun _ => ?_⟩
    · obtain ⟨hm, hne⟩ := h2 y hy
      rw [hbte] at hm
      obtain ⟨hm, hx⟩ := List.mem_filter.mp hm
      exact ⟨hm, List.forall_mem_cons.mpr ⟨by simpa using hx, hne⟩⟩
    · rw [h4 (by rw [hseq]; exact Nat.mod_lt _ (by decide)), hseq, List.length_cons]
      omega

/-- Settles O19: what each message leaves in BTE, the link and the records; a sample bills what its sixteen ports carry. -/
theorem billingSessions : Obligations.BillingSessions := by
  refine ⟨?opened, ?closed, ?resync, ?wait, ?sample⟩
  case opened =>
    intro s n p hold pre rest hb hin
    have he := openMessage_eq (s := s.start) hb hin
    refine ⟨_, congrArg Host.Outcome.next he, ?_⟩
    refine ⟨_, _, rfl, rfl, rfl, rfl, rfl, rfl, rfl, ?_, rfl, rfl, ?_, rfl⟩
    · change heldTime s.bte.lTime hold = _
      unfold heldTime
      split
      · assumption
      · rfl
    change State.creditOf s _ = _
    unfold State.creditOf
    dsimp only
    cases s.sgm.enabled p <;> cases s.sgm.portFault p <;> rfl
  case closed =>
    intro s n reason hold x rest hb hin hx
    have hn : x.number = n := by simpa using List.find?_some hx
    have he := closeMessage_eq (s := s.start) hb hin hx
    obtain ⟨l, rec', ht, hlast, h1, h2, h3, h4⟩ := endSession_spec x reason hold (s.start.onLnk (fun l => { l with inSg := rest }))
    rw [ht] at he
    rw [hn] at h2
    refine ⟨_, congrArg Host.Outcome.next he, ?_, rfl, rfl, ⟨rec', hlast, h1, h2, h3, h4⟩, rfl⟩
    rw [← hn]
    rfl
  case resync =>
    intro s cause hold rest hb hin hseq
    have he := resyncMessage_eq (s := s.start) hb hin
    obtain ⟨h1, h2, h3, h4⟩ := endSessions_spec (if cause = 0 then 3 else 5) hold s.start.bte.sess (s.start.onLnk (fun l => { l with inSg := rest }))
    refine ⟨_, congrArg Host.Outcome.next he, ?_, h3, h4 hseq⟩
    generalize List.foldl _ _ _ = t at h1 h2
    have hnil : t.bte.sess = [] := List.eq_nil_iff_forall_not_mem.mpr (fun y hy => (h2 y hy).2 y (h2 y hy).1 rfl)
    rw [h1, hnil]
    rfl
  case wait =>
    intro s hr i hi
    have hb : s.start.bteRuns = false := by
      unfold State.bteRuns
      rw [show s.start.mss = s.mss from rfl, hr]
      exact Bool.and_false _
    obtain ⟨h1, h2, h3⟩ := messages_wait hb
    simp only [List.mem_cons, List.not_mem_nil, or_false] at hi
    obtain rfl | rfl | rfl := hi
    · exact ⟨_, congrArg Host.Outcome.next h1, rfl⟩
    · exact ⟨_, congrArg Host.Outcome.next h2, rfl⟩
    · exact ⟨_, congrArg Host.Outcome.next h3, rfl⟩
  case sample =>
    intro bits s hm hr hrate htr hsteps hacc hres
    have htake : (s.sgm.acc.take 16).length = 16 := by rw [List.length_take, hacc]; rfl
    obtain ⟨hg, hc⟩ := sgmSample_billing (bits := bits) (s := s.start) hm hr hsteps (by rw [show s.start.bte = s.bte from rfl, htr]; exact hrate) htake
    refine ⟨_, rfl, hg.sums, hg.others, fun p price hp hprice hl => ?_⟩
    have hget (l : List Nat) : (l.take 16).getD p 0 = l.getD p 0 := by
      rw [List.getD_eq_getElem?_getD, List.getElem?_take_of_lt hp, ← List.getD_eq_getElem?_getD]
    obtain ⟨-, hno, hyes⟩ := hc p hp hl
    have hkeys : s.start.billing.keys.any (fun k => k.1 == p && k.2) = s.bte.sess.any (fun x => x.port == p && x.prepaid) := any_keys p s.bte
    rw [hkeys] at hno hyes
    refine ⟨fun hany hlt => ?_, hno⟩
    have hp' : s.start.billing.price = price := hprice.symm
    have h := hyes hany (by
      change (s.sgm.acc.take 16).getD p 0 < ((sgmSample bits s.start).sgm.acc.take 16).getD p 0
      rw [hget, hget]
      exact hlt)
    refine h.trans ?_
    change (chargeAcct (((sgmSample bits s.start).sgm.acc.take 16).getD p 0 - (s.sgm.acc.take 16).getD p 0) s.start.billing.price _).1 = _
    rw [hget, hget, hp']
    rfl

end Sys2Proof.Machine
end
section
/-! PROOFS. Intervals and the legal clock of the Saggar (R349 to R352, R371) -/

namespace Sys2Proof.Machine

open Sys2Proof

/-! ### The record of an interval (Table 13-8) -/

/-- The flags of a closed interval. -/
def State.closeFlags (extra : Nat) (s : State) : Nat :=
  s.bte.open_.flags ||| extra ||| (if s.bte.off.isNone then 1 else 0) ||| (if s.sgm.mode = .battery then 8 else 0) ||| (if s.sgm.saveGap then 32 else 0)

/-- What a register has gained in the open interval. -/
def State.gained (id : Nat) (s : State) : Nat := regIncrease (s.bte.open_.regs.getD id 0) (s.sgm.acc.getD id 0)

/-- The demand of a gain in the open interval. -/
def State.demand (id : Nat) (s : State) : Nat := demandOf (s.gained id) ((s.bte.up - s.bte.open_.startUp) / 1000) s.bte.lenMs

/-- The record of the interval that closes. -/
def State.intervalRecord (endT extra : Nat) (s : State) : List Byte :=
  le 8 s.bte.open_.start ++ le 8 endT ++ le 4 s.bte.open_.seq ++ le 1 (s.closeFlags extra) ++ le 1 s.bte.open_.rate ++
    leS 2 (rneDiv s.bte.open_.adj 1000000) ++ le 4 ((s.bte.up - s.bte.open_.startUp) / 1000) ++
    [0x20, 0x21, 0x22, 0x23, 0x24, 0x25].flatMap (fun r => le 4 (s.gained r)) ++ (List.range 16).flatMap (fun p => le 4 (s.gained p)) ++
    le 4 (s.demand 0x20) ++ zeros 8

theorem ports_length (f : Nat → Nat) : ((List.range 16).flatMap (fun p => le 4 (f p))).length = 64 := by
  rw [flatMap_length_const (n := 4) (h := fun _ _ => le_length ..), List.length_range]

theorem intervalRecord_length (endT extra : Nat) (s : State) : (s.intervalRecord endT extra).length = 128 := by
  unfold State.intervalRecord
  simp [leS_length, zeros]

theorem u_append_skip {p r : List Byte} {n o m : Nat} (hp : p.length = n) (h : n ≤ o) : u (p ++ r) o m = u r (o - n) m := by
  rw [← hp] at h ⊢
  exact u_append_right h

theorem u_intervalBytes (start stop seq flags rate dur g : Nat) (adj grid ports r : List Byte) (d : Nat) (ha : adj.length = 2) (hg : grid.length = 20)
    (hp : ports.length = 64) :
    let b := le 8 start ++ (le 8 stop ++ (le 4 seq ++ (le 1 flags ++ (le 1 rate ++ (adj ++ (le 4 dur ++ (le 4 g ++ (grid ++ (ports ++ (le 4 d ++ r))))))))))
    u b 8 8 = stop % 256 ^ 8 ∧ u b 16 4 = seq % 256 ^ 4 ∧ u b 20 1 = flags % 256 ^ 1 ∧ u b 28 4 = g % 256 ^ 4 ∧ u b 116 4 = d % 256 ^ 4 := by
  dsimp only
  refine ⟨?_, ?_, ?_, ?_, ?_⟩
  · rw [u_le_skip (by decide), u_le_zero]
  · rw [u_le_skip (by decide), u_le_skip (by decide), u_le_zero]
  · rw [u_le_skip (by decide), u_le_skip (by decide), u_le_skip (by decide), u_le_zero]
  · rw [u_le_skip (by decide), u_le_skip (by decide), u_le_skip (by decide), u_le_skip (by decide), u_le_skip (by decide), u_append_skip ha (by decide),
      u_le_skip (by decide), u_le_zero]
  · rw [u_le_skip (by decide), u_le_skip (by decide), u_le_skip (by decide), u_le_skip (by decide), u_le_skip (by decide), u_append_skip ha (by decide),
      u_le_skip (by decide), u_le_skip (by decide), u_append_skip hg (by decide), u_append_skip hp (by decide), u_le_zero]

theorem u_intervalRecord (endT extra : Nat) (s : State) : u (s.intervalRecord endT extra) 8 8 = endT % 256 ^ 8 ∧
    u (s.intervalRecord endT extra) 16 4 = s.bte.open_.seq % 256 ^ 4 ∧ u (s.intervalRecord endT extra) 20 1 = s.closeFlags extra % 256 ^ 1 ∧
    u (s.intervalRecord endT extra) 28 4 = s.gained 0x20 % 256 ^ 4 ∧ u (s.intervalRecord endT extra) 116 4 = s.demand 0x20 % 256 ^ 4 := by
  have hgrid : ([0x21, 0x22, 0x23, 0x24, 0x25].flatMap (fun r => le 4 (s.gained r))).length = 20 := by
    rw [flatMap_length_const (n := 4) (h := fun _ _ => le_length ..)]
    rfl
  have h := u_intervalBytes s.bte.open_.start endT s.bte.open_.seq (s.closeFlags extra) s.bte.open_.rate ((s.bte.up - s.bte.open_.startUp) / 1000) (s.gained 0x20)
    (leS 2 (rneDiv s.bte.open_.adj 1000000)) _ _ (zeros 8) (s.demand 0x20) (leS_length ..) hgrid (ports_length s.gained)
  unfold State.intervalRecord
  rw [List.flatMap_cons]
  simp only [List.append_assoc]
  exact h

theorem closeInterval_spec (endT extra : Nat) (s : State) : ∃ st, st.getLast? = some (s.bte.open_.seq, s.intervalRecord endT extra) ∧
    ∃ d, s.closeInterval endT extra = { s with bte := { s.bte with
      store := st, mdImp := raiseMd s.bte.open_.rate (s.demand 0x20) s.bte.open_.seq s.bte.mdImp, mdDc := d } } := by
  have hkeep (r : List (Nat × List Byte)) (x : Nat × List Byte) (k : Nat) (hk : k ≤ r.length) : ((r ++ [x]).drop k).getLast? = some x := by
    rw [List.drop_append_of_le_length hk, List.getLast?_concat]
  unfold State.closeInterval State.onBte
  exact ⟨_, hkeep s.bte.store _ _ (by omega), _, rfl⟩

theorem raiseMd_self {i : Nat} {md : List (Nat × Nat)} (h : i < md.length) (d seq : Nat) :
    ((raiseMd i d seq md).getD i (0, 0)).1 = max (md.getD i (0, 0)).1 d := by
  unfold raiseMd
  rw [getD_upd_self _ _ h]
  split <;> omega

/-! ### The close of an interval -/

theorem intervalClose_legal {s : State} {o : Int} (hr : s.sgm.runs = true) (ho : s.bte.off = some o) : intervalClose s =
    if s.bte.closed < s.bte.boundary s.bte.lTime then
      ((s.closeInterval (s.bte.boundary s.bte.lTime) 0).onBte (fun x => { x with closed := s.bte.boundary s.bte.lTime })).openInterval (s.bte.boundary s.bte.lTime) 0
    else s := by
  unfold intervalClose
  rw [hr, ho]
  rfl

theorem intervalClose_off {s : State} (hr : s.sgm.runs = false) : intervalClose s = s := by
  unfold intervalClose
  rw [hr]
  rfl

/-! ### The close of a period -/

theorem periodClose_legal {s : State} {o : Int} {c : Calendar} (hr : s.sgm.runs = true) (ho : s.bte.off = some o) (hc : s.bte.cal = some c) :
    periodClose s = if c.localAt s.bte.lTime / dayUs ≠ c.localAt (s.bte.lTime - 125) / dayUs then s.evalPeriod c (c.localAt s.bte.lTime / dayUs) else s := by
  unfold periodClose
  rw [hr, ho, hc]

theorem periodClose_none {s : State} (h : s.sgm.runs = false ∨ s.bte.off = none ∨ s.bte.cal = none) : periodClose s = s := by
  unfold periodClose
  obtain h | h | h := h
  · rw [h]
  · rw [h]
    split
    next hn _ => exact absurd hn (by simp)
    next => rfl
  · rw [h]
    split
    next hn => exact absurd hn (by simp)
    next => rfl

/-- The registers of a closed period (R355). -/
def Bte.nextPeriod (b : Bte) : Bte := { b with
  mdImp := List.replicate 16 (0, 0), mdDc := List.replicate 16 (0, 0), period := (b.period + 1) % 65536, periodStart := b.lTime, periodBad := false }

theorem closePeriod_eq (s : State) : ∃ body, s.closePeriod = ((s.record 2 body).onBte Bte.nextPeriod).bteEvent 6 0x15 s.bte.period noSource := ⟨_, rfl⟩

theorem closePeriod_spec (s : State) : s.closePeriod.bte = { s.bte.nextPeriod with lastEvent := some (255, 0x15, s.bte.period % 256) } ∧
    s.closePeriod.mss.recordSeq = (s.mss.recordSeq + 1) % 2 ^ 32 ∧ s.closePeriod.sgm = s.sgm := by
  obtain ⟨body, h⟩ := closePeriod_eq s
  have hrecord : (s.record 2 body).mss.recordSeq = (s.mss.recordSeq + 1) % 2 ^ 32 := rfl
  have hbte : (s.record 2 body).bte = s.bte := rfl
  have hsgm : (s.record 2 body).sgm = s.sgm := rfl
  rw [h]
  generalize s.record 2 body = v at hrecord hbte hsgm
  refine ⟨?_, ?_, ?_⟩
  · rw [bteEvent_bte, ← hbte]
    rfl
  · have hmss (u : State) : (u.bteEvent 6 0x15 s.bte.period noSource).mss = u.mss := bteEvent_part (π := .mss) (by simp) ..
    rw [hmss]
    exact hrecord
  · exact (part_sgm (bteEvent_part (by simp) ..)).trans hsgm

theorem evalPeriod_closes {c : Calendar} {date : Nat} {s : State} (hd : s.bte.periodDates.contains date = false) (h0 : c.billingDay ≠ 0) (h1 : (civil date).2.2 = c.billingDay) :
    s.evalPeriod c date = (s.onBte (fun b => { b with periodDates := b.periodDates ++ [date] })).closePeriod := by
  unfold State.evalPeriod
  rw [hd, if_neg Bool.false_ne_true]
  exact if_pos ⟨h0, h1⟩

theorem evalPeriod_closed {c : Calendar} {date : Nat} {s : State} (hd : s.bte.periodDates.contains date = true) : s.evalPeriod c date = s := by
  unfold State.evalPeriod
  rw [hd]
  rfl

/-- On a date that is no billing day no period closes. -/
theorem evalPeriod_dated {c : Calendar} {date : Nat} (h : c.billingDay = 0 ∨ (civil date).2.2 ≠ c.billingDay) (s : State) :
    ∃ d, s.evalPeriod c date = s.onBte (fun b => { b with periodDates := d }) := by
  unfold State.evalPeriod
  split
  · exact ⟨s.bte.periodDates, rfl⟩
  · dsimp only
    rw [if_neg (by omega)]
    exact ⟨_, rfl⟩

/-! ### The calendar in force -/

theorem verifyCopies_same {a b : Bool} (c : Calendar) : ((a && b) = false → verifyCopies a b (some c, some c) = (some c, some c)) ∧
    ((a && b) = true → verifyCopies a b (some c, some c) = (none, none)) := by
  cases a <;> cases b <;> simp [verifyCopies]

/-- The rate in force has been taken anew. -/
def Bte.rated (b : Bte) : Bte := { b with
  rate := b.inForce.1, season := b.inForce.2.1, special := b.inForce.2.2.1, day := b.inForce.2.2.2
  open_ := if b.open_.startUp = b.up then { b.open_ with rate := b.inForce.1 } else b.open_ }

theorem refreshRate_eq (s : State) : s.refreshRate = s.onBte Bte.rated := by
  unfold State.refreshRate State.recompute State.onBte Bte.rated
  dsimp only
  split <;> rfl

theorem inForce_legal {b : Bte} {o : Int} {c : Calendar} (ho : b.off = some o) (hc : b.cal = some c) : b.inForce = c.at b.lTime := by
  unfold Bte.inForce
  rw [ho, hc]

theorem inForce_none {b : Bte} (h : b.off = none ∨ b.cal = none) : b.inForce = (0, 0, false, 0) := by
  unfold Bte.inForce
  split
  next ho hc => exact absurd h (by rw [ho, hc]; simp)
  next => rfl

theorem calFail_spec (id : Nat) (s : State) : (s.calFail id).bte = { s.bte with cal := none, calCopies := (none, none), calFault := true }.rated ∧
    (s.calFail id).mss.logSeq = (s.mss.logSeq + 1) % 2 ^ 32 := by
  unfold State.calFail
  rw [refreshRate_eq]
  exact ⟨log_part (π := .bte) (by simp) .., (log_mss ..).1⟩

/-- A calendar comes into force. -/
def State.loadCal (c : Calendar) (s : State) : State := (s.onBte (fun b => { b with cal := some c, calCopies := (some c, some c), calFault := false })).refreshRate

theorem loadCal_bte (c : Calendar) (s : State) : (s.loadCal c).bte = { s.bte with cal := some c, calCopies := (some c, some c), calFault := false }.rated := by
  unfold State.loadCal
  rw [refreshRate_eq]
  rfl

/-- No calendar is pending any more, and the open interval bears the flag of an activation. -/
def State.activating (s : State) : State := (s.onBte (fun b => { b with calNext := none, nextCopies := (none, none) })).flagInterval 16

/-- An activation's intervals. -/
def State.calInterval (c : Calendar) (s : State) : State :=
  if intervalMs c.lenCode ≠ s.bte.lenMs then
    ((((s.activating.closeInterval s.bte.lTime 0).loadCal c).onBte (fun x => { x with
      closed := max x.closed (((s.activating.closeInterval s.bte.lTime 0).loadCal c).bte.boundary s.bte.lTime) })).openInterval s.bte.lTime 64)
  else s.activating.loadCal c

theorem calendarActivation_waits {a b : Bool} {s : State} (h : s.bte.off = none ∨ s.bte.calNext = none ∨
    ∃ c, s.bte.calNext = some c ∧ (s.bte.lTime / minuteUs * minuteUs < c.activation ∨ 125 ≤ s.bte.lTime % minuteUs)) : calendarActivation a b s = s := by
  unfold calendarActivation
  split
  next o c ho hc =>
    obtain h | h | ⟨c', h, hw⟩ := h
    · exact absurd (ho.symm.trans h) (by simp)
    · exact absurd (hc.symm.trans h) (by simp)
    · obtain rfl : c = c' := Option.some.inj (hc.symm.trans h)
      exact if_pos hw
  next => rfl

theorem calendarActivation_due {a b : Bool} {s : State} {o : Int} {c : Calendar} (ho : s.bte.off = some o) (hc : s.bte.calNext = some c)
    (hn : s.bte.nextCopies = (some c, some c)) (h1 : c.activation ≤ s.bte.lTime / minuteUs * minuteUs) (h2 : s.bte.lTime % minuteUs < 125) :
    ((a && b) = false → calendarActivation a b s = ((s.calInterval c).log 0x12 2 (le 4 c.id ++ le 8 c.activation) 0 false).bteEvent 6 0x14 c.id noSource) ∧
    ((a && b) = true → calendarActivation a b s = (s.onBte (fun b => { b with calNext := none, nextCopies := (none, none) })).calFail c.id) := by
  have hdue : ¬ (s.bte.lTime / minuteUs * minuteUs < c.activation ∨ 125 ≤ s.bte.lTime % minuteUs) := by omega
  obtain ⟨hgood, hbad⟩ := verifyCopies_same (a := a) (b := b) c
  unfold calendarActivation
  rw [ho, hc, hn]
  refine ⟨fun h => (if_neg hdue).trans ?_, fun h => (if_neg hdue).trans ?_⟩
  · rw [hgood h]
    rfl
  · rw [hbad h]
    rfl

theorem calInterval_spec {s : State} {o : Int} {c : Calendar} (ho : s.bte.off = some o) : (s.calInterval c).bte.cal = some c ∧
    (s.calInterval c).bte.calNext = none ∧ (s.calInterval c).bte.calCopies = (some c, some c) ∧ (s.calInterval c).bte.calFault = false ∧
    (s.calInterval c).bte.rate = (c.at s.bte.lTime).1 ∧ (s.calInterval c).bte.credit = s.bte.credit ∧ (s.calInterval c).bte.trDc = s.bte.trDc ∧
    (s.calInterval c).bte.open_.seq = (if intervalMs c.lenCode = s.bte.lenMs then s.bte.open_.seq else (s.bte.open_.seq + 1) % 2 ^ 32) ∧
    s.bte.closed ≤ (s.calInterval c).bte.closed := by
  have hrate (b : Bte) (h1 : b.off = s.bte.off) (h2 : b.up = s.bte.up) : ({ b with cal := some c, calCopies := (some c, some c), calFault := false } : Bte).rated.rate =
      (c.at s.bte.lTime).1 := by
    have hf := inForce_legal (b := { b with cal := some c, calCopies := (some c, some c), calFault := false }) (h1.trans ho) rfl
    rw [← lTime_eq h1 h2]
    exact congrArg Prod.fst hf
  have hseq (b : Bte) : b.rated.open_.seq = b.open_.seq := by
    unfold Bte.rated
    dsimp only
    split <;> rfl
  unfold State.calInterval
  by_cases h : intervalMs c.lenCode = s.bte.lenMs
  · rw [if_neg (not_not.mpr h), if_pos h, loadCal_bte]
    exact ⟨rfl, rfl, rfl, rfl, hrate _ rfl rfl, rfl, rfl, hseq _, Nat.le_refl _⟩
  · obtain ⟨st, -, d, he⟩ := closeInterval_spec s.bte.lTime 0 s.activating
    have hb := loadCal_bte c (s.activating.closeInterval s.bte.lTime 0)
    generalize s.activating.closeInterval s.bte.lTime 0 = v at he hb
    rw [if_pos h, if_neg h]
    unfold State.openInterval State.onBte
    dsimp only
    generalize v.loadCal c = w at hb
    have hv : v.bte.closed = s.bte.closed ∧ v.bte.open_.seq = s.bte.open_.seq ∧ v.bte.calNext = none ∧ v.bte.off = s.bte.off ∧ v.bte.up = s.bte.up ∧
        v.bte.credit = s.bte.credit ∧ v.bte.trDc = s.bte.trDc := by
      rw [he]
      exact ⟨rfl, rfl, rfl, rfl, rfl, rfl, rfl⟩
    obtain ⟨h1, h2, h3, h4, h5, h6, h7⟩ := hv
    rw [hb]
    refine ⟨rfl, h3, rfl, rfl, hrate _ h4 h5, h6, h7, ?_, ?_⟩
    · rw [hseq, ← h2]
    · rw [← h1]
      exact Nat.le_max_left ..

end Sys2Proof.Machine
end
section
/-! PROOFS. Steps of the legal clock while SGM settles (R371) -/

namespace Sys2Proof.Machine

open Sys2Proof

/-- The clock, the intervals and the calendar. -/
structure BteTime where
  off : Option Int
  up : Nat
  steps : List ClockStep
  open_ : Interval
  closed : Nat
  store : List (Nat × List Byte)
  cal : Option Calendar

/-- The clock, the intervals and the calendar of BTE. -/
def Bte.time (b : Bte) : BteTime := ⟨b.off, b.up, b.steps, b.open_, b.closed, b.store, b.cal⟩

theorem time_inj {b b' : Bte} (h : b'.time = b.time) : b'.off = b.off ∧ b'.up = b.up ∧ b'.steps = b.steps ∧ b'.open_ = b.open_ ∧ b'.closed = b.closed ∧
    b'.store = b.store ∧ b'.cal = b.cal := BteTime.mk.inj h

theorem unbilled_time : Unbilled Bte.time := fun _ _ _ _ _ _ _ _ => rfl

/-- The state in which a waiting step is taken: only the step itself is gone from the clock. -/
structure StepDue (s v : State) : Prop where
  off : v.bte.off = s.bte.off
  up : v.bte.up = s.bte.up
  steps : v.bte.steps = []
  interval : v.bte.open_ = s.bte.open_
  closed : v.bte.closed = s.bte.closed
  store : v.bte.store = s.bte.store
  cal : v.bte.cal = s.bte.cal

theorem boundaryEnd_takes {s : State} {st : ClockStep} (hr : s.mss.restarting = false) (hs : s.bte.steps = [st]) :
    ∃ v, StepDue s v ∧ s.boundaryEnd.bte = (v.takeStep st).bte ∧ s.boundaryEnd.sgm.saveGap = (v.takeStep st).sgm.saveGap := by
  have ht := creditEval_bte unbilled_time s
  obtain ⟨h1, h2, h3, h4, h5, h6, h7⟩ := time_inj ht
  have hbte : s.boundaryEnd.bte = (if s.mss.restarting then s else s.creditEval.clockStep).bte := rfl
  have hgap : s.boundaryEnd.sgm.saveGap = (if s.mss.restarting then s else s.creditEval.clockStep).sgm.saveGap := rfl
  rw [hr, if_neg Bool.false_ne_true, clockStep_one (h3.trans hs)] at hbte hgap
  exact ⟨s.creditEval.onBte (fun b => { b with steps := [] }), ⟨h1, h2, rfl, h4, h5, h6, h7⟩, hbte, hgap⟩

theorem settlingSample_takes {bits : List Nat} {s : State} {st : ClockStep} (hm : s.sgm.mode = .settling) (hr : s.mss.restarting = false) (hs : s.bte.steps = [st]) :
    ∃ v, StepDue s v ∧ (sgmSample bits s).bte = (v.takeStep st).bte ∧ (sgmSample bits s).sgm.saveGap = (v.takeStep st).sgm.saveGap ∧
      (sgmSample bits s).sgm.acc = s.sgm.acc := by
  have ht : s.saveDone.boundaryStart.bte.time = s.bte.time := (boundaryStart_bte unbilled_time _).trans (congrArg Bte.time (saveDone_bte s))
  have hinj := time_inj ht
  have hsave : s.saveDone.mss = s.mss := saveDone_part (π := .mss) (by simp) s
  have hr' : s.saveDone.boundaryStart.mss.restarting = false :=
    (guarded_spec (boundaryStart_guarded _)).1.trans ((congrArg Mss.restarting hsave).trans hr)
  have hacc : s.saveDone.boundaryStart.sgm.acc = s.sgm.acc :=
    (boundaryStart_sgm (φ := Sgm.acc) (by exact fun _ _ _ => rfl) (by exact fun _ _ => rfl) (by exact fun _ _ _ _ => rfl) _).trans
      (saveDone_sgm (φ := Sgm.acc) (by exact fun _ _ _ _ => rfl) s)
  rw [sgmSample_settling hm]
  generalize s.saveDone.boundaryStart = b at hinj hr' hacc
  obtain ⟨h1, h2, h3, h4, h5, h6, h7⟩ := hinj
  obtain ⟨v, hv, hb, hg⟩ := boundaryEnd_takes (s := b.onSgm (Sgm.settled bits (b.sgm.codes bits))) (st := st) hr' (h3.trans hs)
  obtain ⟨g1, g2, g3, g4, g5, g6, g7⟩ := hv
  exact ⟨v, ⟨g1.trans h1, g2.trans h2, g3, g4.trans h4, g5.trans h5, g6.trans h6, g7.trans h7⟩, hb, hg, (boundaryEnd_meters _).1.trans hacc⟩

theorem takeStep_eq_applyStep {st : ClockStep} (h : st.cls ≠ 0) (s : State) : s.takeStep st = s.applyStep st := by
  unfold State.takeStep
  dsimp only
  split
  · exact if_neg (fun hc => h hc.1)
  · rfl

/-- The interval that a step opens. -/
theorem openInterval_spec (start flags : Nat) (s : State) : (s.openInterval start flags).bte.open_.seq = (s.bte.open_.seq + 1) % 2 ^ 32 ∧
    (s.openInterval start flags).bte.open_.start = start ∧ (s.openInterval start flags).bte.closed = s.bte.closed ∧
    (s.openInterval start flags).bte.store = s.bte.store ∧ (s.openInterval start flags).bte.steps = s.bte.steps ∧
    ∀ k, flags.testBit k = true → bit (s.openInterval start flags).bte.open_.flags k = true := by
  refine ⟨rfl, rfl, rfl, rfl, rfl, fun k hk => ?_⟩
  rw [bit_eq_testBit]
  unfold State.openInterval State.onBte
  dsimp only
  rw [Nat.testBit_or, Nat.testBit_or, hk]
  rfl

theorem closedAt_spec (f : Bte → Nat) (s : State) : (s.onBte (fun b => { b with closed := f b })).bte.open_ = s.bte.open_ ∧
    (s.onBte (fun b => { b with closed := f b })).bte.closed = f s.bte ∧ (s.onBte (fun b => { b with closed := f b })).bte.store = s.bte.store ∧
    (s.onBte (fun b => { b with closed := f b })).bte.steps = s.bte.steps := ⟨rfl, rfl, rfl, rfl⟩

/-- A large step closes the open interval at the old time (R371). -/
theorem largeStep_spec {st : ClockStep} (h : st.cls = 1) {s : State} {new : Nat} (hnew : new = ((s.bte.up : Int) + st.off).toNat) :
    (s.takeStep st).bte.steps = s.bte.steps ∧ (s.takeStep st).bte.open_.seq = (s.bte.open_.seq + 1) % 2 ^ 32 ∧ (s.takeStep st).bte.open_.start = new ∧
    s.bte.closed ≤ (s.takeStep st).bte.closed ∧ (s.bte.lTime ≤ new → bit (s.takeStep st).bte.open_.flags 6 = true) ∧
    (new < s.bte.lTime → bit (s.takeStep st).bte.open_.flags 2 = true ∧ (s.takeStep st).bte.closed = s.bte.closed) ∧
    (s.takeStep st).bte.store.getLast? = some (s.bte.open_.seq, s.intervalRecord s.bte.lTime 2) := by
  obtain ⟨r, hlast, d, he⟩ := closeInterval_spec s.bte.lTime 2 s
  have hmoved (u : State) (hu : u = s.closeInterval s.bte.lTime 2) : (u.clockSet st.off).recompute.bte.open_ = s.bte.open_ ∧
      (u.clockSet st.off).recompute.bte.closed = s.bte.closed ∧ (u.clockSet st.off).recompute.bte.store = r ∧ (u.clockSet st.off).recompute.bte.steps = s.bte.steps := by
    rw [hu, he]
    generalize raiseMd _ _ _ _ = md
    exact ⟨rfl, rfl, rfl, rfl⟩
  rw [takeStep_eq_applyStep (by omega), applyStep_large (by omega) (by omega), ← hnew]
  obtain ⟨h1, h2, h3, h4⟩ := hmoved _ rfl
  dsimp only
  generalize ((s.closeInterval s.bte.lTime 2).clockSet st.off).recompute = v at h1 h2 h3 h4
  by_cases hle : s.bte.lTime ≤ new
  · rw [if_pos hle]
    obtain ⟨w1, w2, w3, w4⟩ := closedAt_spec (fun b => max b.closed (b.boundary new)) v
    generalize v.onBte (fun b => { b with closed := max b.closed (b.boundary new) }) = w at w1 w2 w3 w4 ⊢
    obtain ⟨g1, g2, g3, g4, g5, g6⟩ := openInterval_spec new 64 w
    exact ⟨g5.trans (w4.trans h4), g1.trans (by rw [w1, h1]), g2, by rw [g3, w2, ← h2]; exact Nat.le_max_left .., fun _ => g6 6 (by decide),
      fun hlt => absurd hle (Nat.not_le.mpr hlt), by rw [g4, w3, h3, hlast]⟩
  · rw [if_neg hle]
    obtain ⟨g1, g2, g3, g4, g5, g6⟩ := openInterval_spec new 4 v
    exact ⟨g5.trans h4, g1.trans (by rw [h1]), g2, Nat.le_of_eq (g3.trans h2).symm, fun h => absurd h hle, fun _ => ⟨g6 2 (by decide), g3.trans h2⟩,
      by rw [g4, h3, hlast]⟩

theorem gapDone_ends (s : State) : s.gapDone.sgm.saveGap = false := by
  unfold State.gapDone
  split
  · rfl
  next h => exact Bool.not_eq_true _ ▸ h

/-- The first setting opens an interval at the new time (R371). -/
theorem firstStep_spec {st : ClockStep} (h : st.cls = 2) {s : State} {new : Nat} (hnew : new = ((s.bte.up : Int) + st.off).toNat) :
    (s.takeStep st).bte.steps = s.bte.steps ∧ (s.takeStep st).bte.open_.seq = (s.bte.open_.seq + 1) % 2 ^ 32 ∧ (s.takeStep st).bte.open_.start = new ∧
    bit (s.takeStep st).bte.open_.flags 6 = true ∧ s.bte.closed ≤ (s.takeStep st).bte.closed ∧ (s.takeStep st).sgm.saveGap = false := by
  rw [takeStep_eq_applyStep (by omega), applyStep_first h, ← hnew]
  dsimp only
  obtain ⟨w1, w2, w3, w4⟩ := closedAt_spec (fun b => max b.closed (b.boundary new)) (s.clockSet st.off).recompute
  generalize ((s.clockSet st.off).recompute.onBte (fun b => { b with closed := max b.closed (b.boundary new) })) = w at w1 w2 w3 w4 ⊢
  have h1 : (s.clockSet st.off).recompute.bte.open_ = s.bte.open_ := rfl
  have h2 : (s.clockSet st.off).recompute.bte.closed = s.bte.closed := rfl
  have h3 : (s.clockSet st.off).recompute.bte.steps = s.bte.steps := rfl
  rw [h1] at w1
  rw [h2] at w2
  rw [h3] at w4
  obtain ⟨r, i, d, he⟩ := closeInterval_eq timeUnknown 2 { w with bte := { w.bte with off := none } }
  have hv : ((({ w with bte := { w.bte with off := none } } : State).closeInterval timeUnknown 2).clockSet st.off).bte.open_ = w.bte.open_ ∧
      ((({ w with bte := { w.bte with off := none } } : State).closeInterval timeUnknown 2).clockSet st.off).bte.closed = w.bte.closed ∧
      ((({ w with bte := { w.bte with off := none } } : State).closeInterval timeUnknown 2).clockSet st.off).bte.steps = w.bte.steps := by
    rw [he]
    exact ⟨rfl, rfl, rfl⟩
  generalize (({ w with bte := { w.bte with off := none } } : State).closeInterval timeUnknown 2).clockSet st.off = v at hv
  obtain ⟨v1, v2, v3⟩ := hv
  obtain ⟨g1, g2, g3, g4, g5, g6⟩ := openInterval_spec new 64 v
  rw [gapDone_bte]
  refine ⟨g5.trans (v3.trans w4), g1.trans (by rw [v1, w1]), g2, g6 6 (by decide), ?_, gapDone_ends _⟩
  rw [g3, v2, w2]
  exact Nat.le_max_left ..

/-! ### Small steps -/

theorem closePassed_steps (n k : Nat) (s : State) : (State.closePassed n k s).bte.steps = s.bte.steps := by
  have hclosed (u : State) (b : Nat) : (u.onBte (fun x => { x with closed := b })).bte.steps = u.bte.steps := rfl
  have hrate (t : Nat) (u : State) : (u.rateAt t).bte.steps = u.bte.steps := by
    unfold State.rateAt
    split <;> rfl
  have hopen (t f : Nat) (u : State) : (u.openInterval t f).bte.steps = u.bte.steps := rfl
  have hclose (t f : Nat) (u : State) : (u.closeInterval t f).bte.steps = u.bte.steps := by
    obtain ⟨st, i, d, h⟩ := closeInterval_eq t f u
    rw [h]
  induction n generalizing s with
  | zero => rfl
  | succ n ih =>
    unfold State.closePassed
    dsimp only
    rw [ih]
    split
    · rw [hopen, hrate, hclosed, hclose]
    · rfl

theorem smallStep_steps {st : ClockStep} (h : st.cls = 0) (s : State) : (s.takeStep st).bte.steps = s.bte.steps := by
  have hrecompute (u : State) : u.recompute.bte.steps = u.bte.steps := rfl
  have hflag (f : Nat) (u : State) : (u.flagInterval f).bte.steps = u.bte.steps := rfl
  have hadj (d : Int) : ((s.clockSet st.off).onBte (fun b => { b with open_ := { b.open_ with adj := b.open_.adj + d } })).bte.steps = s.bte.steps := rfl
  have happly : (s.applyStep st).bte.steps = s.bte.steps := by
    rw [applyStep_small h]
    dsimp only
    split
    · rw [hrecompute, closePassed_steps, hadj]
    · rw [hrecompute]
      split
      · rw [hflag, hadj]
      · exact hadj _
  have heval (c : Calendar) (d : Nat) (u : State) : (u.evalPeriod c d).bte.steps = u.bte.steps := evalPeriod_bte (φ := Bte.steps) (fun _ _ _ _ _ _ _ _ => rfl) c d u
  unfold State.takeStep
  dsimp only
  split
  · split
    · rw [heval, happly]
    · exact happly
  · exact happly

end Sys2Proof.Machine
end
section
/-! PROOFS. Intervals, periods, calendars and steps of the legal clock -/

namespace Sys2Proof.Machine

open Sys2Proof

/-- The interval that follows a closed one (R349). -/
theorem intervalClose_due {s : State} {b : Nat} {o : Int} (hr : s.sgm.runs = true) (ho : s.bte.off = some o) (hb : b = s.bte.boundary s.bte.lTime) (hlt : s.bte.closed < b) :
    ∃ st, st.getLast? = some (s.bte.open_.seq, s.intervalRecord b 0) ∧ ∃ d, intervalClose s = (({ s with bte := { s.bte with
      store := st, mdImp := raiseMd s.bte.open_.rate (s.demand 0x20) s.bte.open_.seq s.bte.mdImp, mdDc := d, closed := b } } : State).openInterval b 0) := by
  obtain ⟨st, hst, d, he⟩ := closeInterval_spec b 0 s
  refine ⟨st, hst, d, ?_⟩
  rw [intervalClose_legal hr ho, ← hb, if_pos hlt, he]
  rfl

theorem midnight_bte (a b : Bool) (s : State) : (midnight a b s).bte = (s.verifyCal a b).bte.rated := by
  unfold midnight
  rw [refreshRate_eq]
  rfl

/-- Both copies of the calendar fail. -/
theorem verifyCal_fails (s : State) : (s.verifyCal true true).bte.cal = none ∧ (s.bte.cal.isSome = true →
    (s.verifyCal true true).bte.calFault = true ∧ (s.verifyCal true true).mss.logSeq = (s.mss.logSeq + 1) % 2 ^ 32) := by
  unfold State.verifyCal
  split
  next h => exact ⟨h, fun hs => absurd hs (by rw [h]; exact Bool.false_ne_true)⟩
  next c h =>
    change (s.calFail c.id).bte.cal = none ∧ (_ → (s.calFail c.id).bte.calFault = true ∧ (s.calFail c.id).mss.logSeq = _)
    obtain ⟨hb, hl⟩ := calFail_spec c.id s
    rw [hb]
    exact ⟨rfl, fun _ => ⟨rfl, hl⟩⟩

/-- A copy that fails is restored from the other. -/
theorem verifyCal_restores {s : State} {c : Calendar} (hc : s.bte.cal = some c) (hk : s.bte.calCopies = (some c, some c)) :
    s.verifyCal true false = s.onBte (fun b => { b with calCopies := (some c, some c) }) := by
  unfold State.verifyCal
  rw [hc, hk]
  rfl

/-- Settles O20: the intervals' records by their bytes, the period's close, the calendar that comes into force, and each step as the sample takes it. -/
theorem billingTime : Obligations.BillingTime := by
  refine ⟨?interval, ?off, ?period, ?dated, ?still, ?activation, ?waits, ?rate, ?large, ?others⟩
  case interval =>
    intro s o b e dur d hr ho hb hdur he hd
    have hgain : s.gained 0x20 = e := he.symm
    have hdemand : s.demand 0x20 = d := by
      rw [hd, ← hgain, hdur]
      rfl
    refine ⟨fun hlt hb64 hseq hrate => ?_, fun hle => ?_⟩
    · obtain ⟨st, hst, m, ht⟩ := intervalClose_due (s := s.start) (b := b) hr ho hb hlt
      obtain ⟨r1, r2, -, r4, r5⟩ := u_intervalRecord b 0 s.start
      have hlen := intervalRecord_length b 0 s.start
      have hd' : s.start.demand 0x20 = d := hdemand
      have hg' : s.start.gained 0x20 = e := hgain
      rw [hg'] at r4
      rw [hd'] at r5 ht
      refine ⟨_, congrArg Host.Outcome.next ht, rfl, rfl, ⟨s.start.intervalRecord b 0, hst, hlen, ?_, ?_, r4, r5, ?_⟩, rfl, rfl⟩
      · rw [r1]
        exact Nat.mod_eq_of_lt hb64
      · rw [r2]
        exact Nat.mod_eq_of_lt hseq
      · exact raiseMd_self hrate d s.bte.open_.seq
    · have hle' : s.start.bte.boundary s.start.bte.lTime ≤ s.start.bte.closed := (Nat.le_of_eq hb.symm).trans hle
      have ht := (intervalClose_legal (s := s.start) hr ho).trans (if_neg (Nat.not_lt.mpr hle'))
      exact ⟨_, congrArg Host.Outcome.next ht, rfl⟩
  case off =>
    intro s hr
    exact ⟨_, congrArg Host.Outcome.next (intervalClose_off (s := s.start) hr), rfl⟩
  case period =>
    intro s o c date hr ho hc hdate hne h0 h1
    have he : periodClose s.start = s.start.evalPeriod c date := by
      have hdate' : date = c.localAt s.start.bte.lTime / dayUs := hdate
      rw [periodClose_legal (s := s.start) hr ho hc, ← hdate']
      exact if_pos hne
    refine ⟨fun hd => ?_, fun hd => ?_⟩
    · rw [evalPeriod_closes (s := s.start) hd h0 h1] at he
      obtain ⟨hb, hm, hg⟩ := closePeriod_spec (s.start.onBte (fun b => { b with periodDates := b.periodDates ++ [date] }))
      refine ⟨_, congrArg Host.Outcome.next he, ?_⟩
      dsimp only
      rw [hb, hg]
      refine ⟨rfl, ?_, rfl, rfl, rfl, rfl, rfl, rfl, hm, rfl, rfl⟩
      exact List.contains_iff_mem.mpr (List.mem_append_right _ (List.mem_singleton_self _))
    · rw [evalPeriod_closed (s := s.start) hd] at he
      exact ⟨_, congrArg Host.Outcome.next he, rfl⟩
  case dated =>
    intro s o c date ho hc hdate hday
    have hdates (t : State) (h : ∃ d, t = s.start.onBte (fun b => { b with periodDates := d })) : t.bte.period = s.bte.period ∧
        t = { s with bte := { s.bte with periodDates := t.bte.periodDates }, out := [], cur := none } := by
      obtain ⟨d, h⟩ := h
      rw [h]
      exact ⟨rfl, rfl⟩
    refine ⟨_, rfl, hdates (periodClose s.start) ?_⟩
    cases hr : s.sgm.runs with
    | false => exact ⟨s.bte.periodDates, periodClose_none (s := s.start) (.inl hr)⟩
    | true =>
      rw [periodClose_legal (s := s.start) hr ho hc]
      split
      · refine evalPeriod_dated ?_ s.start
        have hdate' : date = c.localAt s.start.bte.lTime / dayUs := hdate
        rw [← hdate']
        exact hday
      · exact ⟨s.bte.periodDates, rfl⟩
  case still =>
    intro s c h
    have he : periodClose s.start = s.start := by
      obtain h | h | h | ⟨hc, hd⟩ := h
      · exact periodClose_none (.inl h)
      · exact periodClose_none (.inr (.inl h))
      · exact periodClose_none (.inr (.inr h))
      · cases hr : s.sgm.runs with
        | false => exact periodClose_none (s := s.start) (.inl hr)
        | true =>
          cases ho : s.bte.off with
          | none => exact periodClose_none (s := s.start) (.inr (.inl ho))
          | some o => exact (periodClose_legal (s := s.start) hr ho hc).trans (if_neg (not_not.mpr hd))
    exact ⟨_, congrArg Host.Outcome.next he, rfl⟩
  case activation =>
    intro s o c ho hc hn h1 h2
    refine ⟨fun a b hab => ?_, ?_⟩
    · have he := (calendarActivation_due (s := s.start) (a := a) (b := b) ho hc hn h1 h2).1 hab
      have hlog (v : State) : (v.log 0x12 2 (le 4 c.id ++ le 8 c.activation) 0 false).bte = v.bte := log_part (π := .bte) (by simp) ..
      refine ⟨_, congrArg Host.Outcome.next he, ?_⟩
      dsimp only
      rw [bteEvent_bte, hlog]
      obtain ⟨g1, g2, g3, g4, g5, g6, g7, g8, g9⟩ := calInterval_spec (s := s.start) (c := c) ho
      exact ⟨g1, g2, g3, g4, g5, g6, g7, g8, g9, rfl⟩
    · have he := (calendarActivation_due (s := s.start) (a := true) (b := true) ho hc hn h1 h2).2 rfl
      refine ⟨_, congrArg Host.Outcome.next he, ?_⟩
      dsimp only
      rw [(calFail_spec ..).1]
      refine ⟨rfl, rfl, rfl, ?_⟩
      exact congrArg Prod.fst (inForce_none (.inr rfl))
  case waits =>
    intro s a b c h
    refine ⟨_, congrArg Host.Outcome.next (calendarActivation_waits (s := s.start) ?_), rfl⟩
    obtain h | h | h := h
    · exact .inl h
    · exact .inr (.inl h)
    · exact .inr (.inr ⟨c, h⟩)
  case rate =>
    intro s
    refine ⟨fun o c ho hc => ?_, fun h => ?_, ?_, fun c hc hk => ?_⟩
    · refine ⟨_, congrArg Host.Outcome.next (refreshRate_eq s.start), ?_, rfl⟩
      exact congrArg Prod.fst (inForce_legal (b := s.bte) ho hc)
    · refine ⟨_, congrArg Host.Outcome.next (refreshRate_eq s.start), ?_, rfl⟩
      exact congrArg Prod.fst (inForce_none (b := s.bte) h)
    · obtain ⟨h1, h2⟩ := verifyCal_fails s.start
      refine ⟨_, rfl, ?_⟩
      dsimp only
      rw [midnight_bte]
      refine ⟨h1, congrArg Prod.fst (inForce_none (.inr h1)), fun hs => ⟨(h2 hs).1, ?_⟩⟩
      refine Eq.trans ?_ (h2 hs).2
      unfold midnight
      rw [refreshRate_eq]
      rfl
    · have he : midnight true false s.start = (s.start.onBte (fun b => { b with calCopies := (some c, some c) })).onBte Bte.rated := by
        unfold midnight
        rw [verifyCal_restores (s := s.start) hc hk, refreshRate_eq]
      exact ⟨_, congrArg Host.Outcome.next he, hc, rfl, rfl, rfl⟩
  case large =>
    intro bits s st o new hm hr ho hs hcls hnew
    obtain ⟨v, hv, hb, -, hacc⟩ := settlingSample_takes (bits := bits) (s := s.start) hm hr hs
    have hv' : StepDue s v := ⟨hv.off, hv.up, hv.steps, hv.interval, hv.closed, hv.store, hv.cal⟩
    obtain ⟨h1, h2, h3, h4, h5, h6, h7⟩ := largeStep_spec hcls (s := v) (new := new) (by rw [hv'.up]; exact hnew)
    have hoff := congrArg Prod.fst (takeStep_clock st v)
    have htime : v.bte.lTime = s.bte.lTime := lTime_eq hv'.off hv'.up
    obtain ⟨r1, -, r3, -⟩ := u_intervalRecord v.bte.lTime 2 v
    rw [htime] at r1 r3 h5 h6 h7
    rw [hv'.interval] at h2 h7
    rw [hv'.closed] at h4 h6
    refine ⟨_, rfl, ?_⟩
    dsimp only
    rw [hb, hacc]
    refine ⟨hoff, h1.trans hv'.steps, h2, h3, h4, h5, h6, ⟨_, h7, r1, ?_⟩, rfl⟩
    rw [r3, bit_eq_testBit]
    rw [show 256 ^ 1 = 2 ^ 8 from rfl, Nat.testBit_mod_two_pow]
    unfold State.closeFlags
    rw [Nat.testBit_or, Nat.testBit_or, Nat.testBit_or, Nat.testBit_or, show Nat.testBit 2 1 = true from by decide]
    simp only [Bool.or_true, Bool.true_or, Bool.and_true]
    rfl
  case others =>
    intro bits s st hm hr hs
    obtain ⟨v, hv, hb, hg, hacc⟩ := settlingSample_takes (bits := bits) (s := s.start) hm hr hs
    have hv' : StepDue s v := ⟨hv.off, hv.up, hv.steps, hv.interval, hv.closed, hv.store, hv.cal⟩
    have hoff := congrArg Prod.fst (takeStep_clock st v)
    refine ⟨fun hcls => ⟨sgmSample bits s.start, rfl, ?_⟩, fun hcls _ => ⟨sgmSample bits s.start, rfl, ?_⟩⟩
    · change _ ∧ _ ∧ _
      rw [hb, hacc]
      exact ⟨hoff, (smallStep_steps hcls v).trans hv'.steps, rfl⟩
    · obtain ⟨h1, h2, h3, h4, h5, h6⟩ := firstStep_spec hcls (s := v) rfl
      rw [hv'.interval] at h2
      rw [hv'.closed] at h5
      rw [hv'.up] at h3
      rw [hb, hg, hacc]
      exact ⟨hoff, h1.trans hv'.steps, h2, h3, h4, h5, h6, rfl⟩

end Sys2Proof.Machine
end
section
/-! PROOFS. Exchanges of the Belfry (R414 to R416, R418, R419, R422) -/

namespace Sys2Proof.Machine

open Sys2Proof

/-! ### The record in force -/

theorem belfryRec_congr {s t : State} (hc : t.cfg = s.cfg) (hr : t.sup.readyMask = s.sup.readyMask) : t.belfryRec = s.belfryRec := by
  unfold State.belfryRec State.conf
  rw [hc, hr]

theorem belfryRec_of_part {s t : State} (hc : part .cfg t = part .cfg s) (hs : part .sup t = part .sup s) : t.belfryRec = s.belfryRec :=
  belfryRec_congr hc (sup_of_part hs (·.readyMask) fun _ => rfl)

theorem nodeRec_congr {s t : State} (h : t.belfryRec = s.belfryRec) (a : Nat) : t.nodeRec a = s.nodeRec a := by
  unfold State.nodeRec
  rw [h]

theorem lineRec_some {s : State} {r : BelfryRec} (h : s.belfryRec = some r) : s.lineRec = some r := by
  unfold State.lineRec
  rw [h]
  rfl

theorem lineRec_isNone {s : State} (h : s.belfryRec.isSome = true) : s.lineRec.isNone = false := by
  obtain ⟨r, hr⟩ := Option.isSome_iff_exists.mp h
  rw [lineRec_some hr]
  rfl

theorem belfryRec_isNone {s : State} (h : s.belfryRec.isSome = true) : s.belfryRec.isNone = false := by
  rw [← Option.not_isSome, h]
  rfl

/-! ### What each rule leaves in BLK -/

theorem onNode_node {a : Nat} {s : State} (f : Node → Node) (h1 : 1 ≤ a) (h2 : a ≤ s.blk.nodes.length) : (s.onNode a f).node a = f (s.node a) :=
  getD_upd_self f Node.reset (by omega)

theorem node_congr {s t : State} (h : t.blk.nodes = s.blk.nodes) (a : Nat) : t.node a = s.node a := by
  unfold State.node
  rw [h]

theorem blkEvent_blk (src sub arg : Nat) (f : Option Nat) (s : State) : (s.blkEvent src sub arg f).blk = { s.blk with lastEvent := some (src % 256, sub, arg % 256) } := by
  have hpost (u : State) : (u.postEvent .pf0 70 sub arg src).blk = u.blk := postEvent_part (π := .blk) (by simp) ..
  have hfault (c : Nat) (u : State) : (u.faultRec 6 c src arg 0).blk = u.blk := faultRec_part (π := .blk) (by simp) ..
  unfold State.blkEvent
  dsimp only
  split
  · exact hpost _
  · exact (hfault ..).trans (hpost _)

theorem exEnd_blk {s : State} (h : s.belfryRec.isSome = true) (x : Exch) (st r : Nat) : (s.exEnd x st r).blk = { s.blk with ex := none, rx := [], mine := false } := by
  have hcomp (u : State) (a b : Nat) : (u.complete .pf0 a b st r).blk = u.blk := complete_part (π := .blk) (by simp) ..
  unfold State.exEnd
  rw [belfryRec_isNone h]
  dsimp only
  split
  · rfl
  · exact hcomp ..

theorem onRoutes_blk (a : Nat) (f : List Route → List Route) (s : State) : ∃ e, (s.onRoutes a f).blk = { s.blk with
    nodes := upd s.blk.nodes (a - 1) (fun n => { n with routes := f n.routes }), lastEvent := e } := by
  unfold State.onRoutes
  dsimp only
  split
  · exact ⟨s.blk.lastEvent, rfl⟩
  · exact ⟨_, blkEvent_blk ..⟩

/-- A route's score after an exchange. -/
def Route.scored (r1 r2 q : Nat) (failed : Bool) (r : Route) : Route :=
  if r.r1 = r1 ∧ r.r2 = r2 then { r with score := scoreStep q r.score, fails := if failed then incSat r.fails else r.fails } else r

/-- A node after an exchange on one of its routes. -/
def Node.scored (r1 r2 q : Nat) (failed : Bool) (n : Node) : Node := { n with routes := n.routes.map (Route.scored r1 r2 q failed) }

theorem scoreRoute_blk (a r1 r2 q : Nat) (failed : Bool) (s : State) : ∃ e, (s.scoreRoute a r1 r2 q failed).blk = { s.blk with
    nodes := upd s.blk.nodes (a - 1) (Node.scored r1 r2 q failed), lastEvent := e } := onRoutes_blk a _ s

theorem latchBlk_regs (s : State) : s.latchBlk.blk = { s.blk with regs := s.latchBlk.blkRegs } := by
  have h (l : List (Nat × Nat)) : (s.onBlk (fun b => { b with regs := l })).blkRegs = s.blkRegs := rfl
  unfold State.latchBlk
  rw [h]
  rfl

/-! ### A request -/

theorem belfryRequest_ready {s : State} {x : Exch} (he : s.blk.ex = some x) (hx : x.st = .ready) (hb : s.belfryRec.isSome = true) (hd : s.blk.down = false)
    (hs : s.sup.st = .service) (h2 : 2 ≤ s.blk.silent) (hn : (s.nodeRec x.node).enable = true) :
    belfryRequest s = s.onBlk (fun b => { b with ex := some { x with st := .sending, tx := s.requestBits x }, rx := [] }) := by
  unfold belfryRequest
  rw [belfryRec_isNone hb, hd, hs, if_neg (by simp; omega), he]
  dsimp only
  rw [he]
  dsimp only
  rw [if_neg (by simp [hx]), if_neg (by rw [hn]; decide)]

theorem belfryRequest_waits {s : State} (h : s.belfryRec = none ∨ s.blk.down = true ∨ s.sup.st ≠ .service ∨ s.blk.silent < 2) : belfryRequest s = s := by
  unfold belfryRequest
  refine if_pos ?_
  simp only [Bool.or_eq_true, Option.isNone_iff_eq_none, decide_eq_true_eq]
  tauto

theorem requestBits_poll {s : State} {x : Exch} (ha : x.ask = .poll) (hr : x.r1 = 0) : s.requestBits x =
    [true, true, false, true] ++ bitsMsb 8 x.node ++ [false, false, false, false] ++ bitsMsb 8 (if (s.node x.node).tog then 128 else 0) ++
      bitsMsb 8 (crc8 (bitsMsb 8 x.node ++ [false, false, false, false] ++ bitsMsb 8 (if (s.node x.node).tog then 128 else 0))) := by
  have htog : b2n (s.node x.node).tog * 128 = if (s.node x.node).tog then 128 else 0 := by
    cases (s.node x.node).tog <;> rfl
  have hzero : bitsMsb 4 0 = [false, false, false, false] := by decide
  unfold State.requestBits
  rw [ha]
  unfold askFrame
  dsimp only
  rw [if_pos hr, htog]
  unfold frameBits
  rw [hzero]
  simp only [List.append_assoc]
  rfl

end Sys2Proof.Machine
end
section
/-! PROOFS. Answers and failures of an exchange -/

namespace Sys2Proof.Machine

open Sys2Proof

/-- The counts of the line changed. -/
def State.lineCounted (c : List Nat) (s : State) : State := s.onBlk (fun b => { b with counts := c })

/-- What an exchange that ends leaves: its node scored, and nothing in progress. -/
structure Ended (f : Node → Node) (x : Exch) (s t : State) : Prop where
  ended : t.blk.ex = none
  nodes : t.blk.nodes = upd s.blk.nodes (x.node - 1) f
  reports : t.blk.reports = s.blk.reports
  seq : t.blk.reportSeq = s.blk.reportSeq
  queue : t.blk.queue = s.blk.queue
  again : t.blk.again = s.blk.again
  lnk : t.lnk = s.lnk
  uptime : t.sup.uptime = s.sup.uptime

theorem Ended.node {f : Node → Node} {x : Exch} {s t : State} (h : Ended f x s t) (h1 : 1 ≤ x.node) (h2 : x.node ≤ s.blk.nodes.length) :
    t.node x.node = f (s.node x.node) := by
  unfold State.node
  rw [h.nodes]
  exact getD_upd_self f Node.reset (by omega)

theorem Ended.length {f : Node → Node} {x : Exch} {s t : State} (h : Ended f x s t) : t.blk.nodes.length = s.blk.nodes.length := by
  rw [h.nodes]
  exact upd_length ..

/-- An answer to a poll of a node that is not LOST. -/
theorem answered_poll {s : State} {x : Exch} (hr : s.belfryRec.isSome = true) (ha : x.ask = .poll) (hl : (s.node x.node).lost = false) (q : Nat) :
    Ended (Node.scored x.r1 x.r2 q false) x s (s.answered x q) := by
  have he : ∃ r, s.answered x q = (s.exEnd x stDONE r).scoreRoute x.node x.r1 x.r2 q false := by
    unfold State.answered
    rw [ha, hl]
    exact ⟨_, rfl⟩
  obtain ⟨r, he⟩ := he
  have hend := exEnd_blk hr x stDONE r
  have hlnk : (s.exEnd x stDONE r).lnk = s.lnk := exEnd_part (π := .lnk) (by simp) ..
  have hup : (s.exEnd x stDONE r).sup.uptime = s.sup.uptime := sup_of_part (exEnd_part (by simp) ..) (·.uptime) fun _ => rfl
  rw [he]
  generalize s.exEnd x stDONE r = v at hend hlnk hup
  obtain ⟨e, hs⟩ := scoreRoute_blk x.node x.r1 x.r2 q false v
  have hlnk' : (v.scoreRoute x.node x.r1 x.r2 q false).lnk = v.lnk := scoreRoute_part (π := .lnk) (by simp) ..
  have hup' : (v.scoreRoute x.node x.r1 x.r2 q false).sup.uptime = v.sup.uptime := sup_of_part (scoreRoute_part (by simp) ..) (·.uptime) fun _ => rfl
  rw [hend] at hs
  exact ⟨by rw [hs], by rw [hs], by rw [hs], by rw [hs], by rw [hs], by rw [hs], hlnk'.trans hlnk, hup'.trans hup⟩

/-! ### Reports -/

/-- A node with more to report is polled again. -/
def State.pollAgain (a p : Nat) (s : State) : State :=
  if bit p 62 then s.onBlk (fun b => { b with again := b.again.filter (fun n => n != a) ++ [a] }) else s

theorem report_known {s : State} {a p : Nat} (h : bit p 63 = (s.node a).tog) : s.report a p = s.pollAgain a p := if_pos h

theorem report_new {s : State} {a p : Nat} (h : bit p 63 ≠ (s.node a).tog) :
    s.report a p = ((s.pollAgain a p).onNode a (fun n => { n with tog := bit p 63 })).reportTaken a (bits p 61 56) (bits p 55 0) := if_neg h

theorem pollAgain_spec (a p : Nat) (s : State) : ∃ l, s.pollAgain a p = s.onBlk (fun b => { b with again := l }) ∧ (bit p 62 = true → a ∈ l) := by
  unfold State.pollAgain
  split
  · exact ⟨_, rfl, fun _ => List.mem_append_right _ (List.mem_singleton_self a)⟩
  next h => exact ⟨s.blk.again, rfl, fun hp => absurd hp h⟩

/-- A report in the queue of reports. -/
def Blk.queued (x : Nat × List Byte) (b : Blk) : Blk := { b with reports := (b.reports ++ [x]).drop (b.reports.length + 1 - 1024), reportSeq := x.1 }

theorem queued_last (x : Nat × List Byte) (b : Blk) : (b.queued x).reports.getLast? = some x := by
  unfold Blk.queued
  dsimp only
  rw [List.drop_append_of_le_length (by omega), List.getLast?_concat]

/-- A report that is no part of a token goes to the queue (R424). -/
theorem reportTaken_queued {s : State} {a kind data : Nat} (h : 16 ≤ kind) : ∃ e arg, s.reportTaken a kind data =
    (s.onBlk (Blk.queued ((s.blk.reportSeq + 1) % 2 ^ 32, e))).blkEvent a 0x01 arg none ∧ u e 4 1 = a % 256 ∧ u e 5 1 = kind % 256 := by
  have hu (n : Nat) (r : List Byte) : u (le 4 n ++ (le 1 a ++ (le 1 kind ++ r))) 4 1 = a % 256 ∧ u (le 4 n ++ (le 1 a ++ (le 1 kind ++ r))) 5 1 = kind % 256 := by
    constructor
    · rw [u_le_skip (by decide), u_le_zero]
      rfl
    · rw [u_le_skip (by decide), u_le_skip (by decide), u_le_zero]
      rfl
  unfold State.reportTaken
  dsimp only
  rw [if_neg (by omega), if_neg (by omega), if_pos h]
  refine ⟨_, _, rfl, ?_⟩
  simp only [List.append_assoc]
  exact hu ..

/-- The second half of a token, with the first one's tag, is relayed (R422). -/
theorem reportTaken_token {s : State} {a data v : Nat} (hhi : (s.node a).hi = some (bits data 55 52, v)) (hup : s.lnk.up = true) :
    ∃ c, s.reportTaken a 2 data = ((s.onNode a (fun n => { n with hi := none })).onLnk (fun l => { l with
      toSg := l.toSg ++ [(.token a (tokenDigits (v * 2 ^ 32 + bits data 31 0)), 0, s.sup.uptime)] })).lineCounted c := by
  have hup' : (s.onNode a (fun n => { n with hi := none })).lnk.up = true := hup
  unfold State.reportTaken
  dsimp only
  rw [if_neg (by decide), if_pos rfl, hhi]
  dsimp only
  rw [if_neg (not_not.mpr rfl), hup']
  exact ⟨_, rfl⟩

/-! ### The answer frame -/

theorem belfryFrameRx_heard {s : State} {x : Exch} {addr type p q : Nat} (he : s.blk.ex = some x) (hx : x.st = .waiting) (hr : s.belfryRec.isSome = true)
    (hlen : x.answerAt 32 + 4 ≤ s.blk.rx.length) (hv : x.valid s.blk.rx = some ((addr, type, p), q)) : ∃ c, belfryFrameRx s =
      (if addr = 0 ∧ type = 2 then (s.lineCounted c).answered x q
        else if addr = 0 ∧ type = 1 ∧ x.ask ≠ Ask.join then ((s.lineCounted c).answered x q).report x.node p
        else (s.lineCounted c).exFail x).latchBlk := by
  unfold belfryFrameRx
  rw [he]
  dsimp only
  rw [if_neg (by rw [hx, lineRec_isNone hr]; simp), if_neg (fun h => absurd h.1 (Nat.not_lt.mpr hlen)), hv]
  exact ⟨_, rfl⟩

/-! ### Failures -/

theorem exFail_repeats {s : State} {x : Exch} (hp : x.probe = false) (hn : (s.nodeRec x.node).enable = true) (ht : x.tries < 3) :
    ∃ c v, (s.exFail x).blk = { s.blk with
      ex := some { x with tries := x.tries + 1, st := .ready, tx := [] }, rx := [], mine := false, counts := c, lastEvent := v
      nodes := upd s.blk.nodes (x.node - 1) (Node.scored x.r1 x.r2 0 true) } := by
  obtain ⟨e, hs⟩ := scoreRoute_blk x.node x.r1 x.r2 0 true s
  have hrec : (s.scoreRoute x.node x.r1 x.r2 0 true).belfryRec = s.belfryRec := belfryRec_of_part (scoreRoute_part (by simp) ..) (scoreRoute_part (by simp) ..)
  unfold State.exFail
  generalize s.scoreRoute x.node x.r1 x.r2 0 true = v at hs hrec
  have hn' : ((v.onBlk (fun b => { b with rx := [], mine := false })).nodeRec x.node).enable = true := by
    rw [nodeRec_congr (s := s) (t := v.onBlk (fun b => { b with rx := [], mine := false })) hrec]
    exact hn
  dsimp only
  rw [hp, if_neg Bool.false_ne_true, if_neg (by rw [hn']; decide), if_pos ht]
  unfold State.onBlk Blk.count
  dsimp only
  rw [hs]
  exact ⟨_, e, rfl⟩

theorem exFail_lost {s : State} {x : Exch} (hr : s.belfryRec.isSome = true) (hp : x.probe = false) (h1 : 1 ≤ x.node) (h2 : x.node ≤ s.blk.nodes.length)
    (hn : (s.nodeRec x.node).enable = true) (ht : 3 ≤ x.tries) (ha : x.ask ≠ .join) (hl : (s.node x.node).lost = false)
    (hall : ∀ r ∈ (s.node x.node).routes, (r.r1, r.r2) ∈ x.tried) : (s.exFail x).blk.ex = none ∧ ((s.exFail x).node x.node).lost = true ∧
      (s.exFail x).blk.lastEvent = some (x.node % 256, 2, x.tried.length % 256) := by
  obtain ⟨e, hs⟩ := scoreRoute_blk x.node x.r1 x.r2 0 true s
  have hrec : (s.scoreRoute x.node x.r1 x.r2 0 true).belfryRec = s.belfryRec := belfryRec_of_part (scoreRoute_part (by simp) ..) (scoreRoute_part (by simp) ..)
  have hnode : (s.scoreRoute x.node x.r1 x.r2 0 true).node x.node = Node.scored x.r1 x.r2 0 true (s.node x.node) := by
    unfold State.node
    rw [hs]
    exact getD_upd_self _ Node.reset (by omega)
  have hlen : (s.scoreRoute x.node x.r1 x.r2 0 true).blk.nodes.length = s.blk.nodes.length := by
    rw [hs]
    exact upd_length ..
  unfold State.exFail
  generalize s.scoreRoute x.node x.r1 x.r2 0 true = v at hs hrec hnode hlen
  dsimp only
  have hw : (v.onBlk (fun b => { b with rx := [], mine := false })).belfryRec = v.belfryRec ∧
      (v.onBlk (fun b => { b with rx := [], mine := false })).node x.node = v.node x.node ∧
      (v.onBlk (fun b => { b with rx := [], mine := false })).blk.nodes = v.blk.nodes := ⟨rfl, rfl, rfl⟩
  generalize v.onBlk (fun b => { b with rx := [], mine := false }) = w at hw
  obtain ⟨w1, w2, w3⟩ := hw
  have hn' : (w.nodeRec x.node).enable = true := by
    rw [nodeRec_congr (w1.trans hrec)]
    exact hn
  have hr' : w.belfryRec.isSome = true := by rw [w1, hrec]; exact hr
  have hnode' := w2.trans hnode
  have hnone : (w.exRoutes x).find? (fun r => !x.tried.contains (r.r1, r.r2)) = none := by
    rw [List.find?_eq_none]
    intro r hm
    have hm' : r ∈ (w.node x.node).routes := by
      unfold State.exRoutes at hm
      split at hm
      next hj => exact absurd hj ha
      next => exact (sortBy_perm _ _).mem_iff.mp hm
    rw [hnode'] at hm'
    obtain ⟨r0, hm0, rfl⟩ := List.mem_map.mp hm'
    have hsame : ((Route.scored x.r1 x.r2 0 true r0).r1, (Route.scored x.r1 x.r2 0 true r0).r2) = (r0.r1, r0.r2) := by
      unfold Route.scored
      split <;> rfl
    rw [hsame, List.contains_iff_mem.mpr (hall r0 hm0)]
    exact Bool.false_ne_true
  rw [hp, if_neg Bool.false_ne_true, if_neg (by rw [hn']; decide), if_neg (by omega), hnone]
  dsimp only
  have hend := exEnd_blk hr' x stBAD_STATE 0
  unfold State.exLost
  rw [if_neg ha]
  dsimp only
  rw [hnode', show (Node.scored x.r1 x.r2 0 true (s.node x.node)).lost = false from hl, if_neg Bool.false_ne_true]
  generalize w.exEnd x stBAD_STATE 0 = z at hend
  have hzlen : x.node ≤ z.blk.nodes.length := by
    rw [hend]
    exact (Nat.le_of_eq (w3 ▸ hlen).symm).trans' h2
  have hz : (z.onNode x.node (fun n => { n with lost := true, cand := 0 })).node x.node = _ := onNode_node _ h1 hzlen
  have hzex : (z.onNode x.node (fun n => { n with lost := true, cand := 0 })).blk.ex = none := (congrArg Blk.ex hend).trans rfl
  generalize z.onNode x.node (fun n => { n with lost := true, cand := 0 }) = y at hz hzex
  have hy := blkEvent_blk x.node 0x02 x.tried.length (some 0x0B01) y
  refine ⟨?_, ?_, ?_⟩
  · rw [hy]
    exact hzex
  · unfold State.node at hz ⊢
    rw [hy]
    dsimp only
    rw [hz]
  · rw [hy]

theorem answerTimeout_due {s : State} {x : Exch} (he : s.blk.ex = some x) (hx : x.st = .waiting) (hr : s.belfryRec.isSome = true)
    (hlen : x.answerAt 88 + 4 ≤ s.blk.rx.length) (hp : x.preamble s.blk.rx = false) : answerTimeout s = (s.exFail x).latchBlk := by
  unfold answerTimeout
  rw [he]
  dsimp only
  rw [if_neg (by rw [hx, lineRec_isNone hr, hp]; simp; omega)]

theorem answerTimeout_waits {s : State} {x : Exch} (he : s.blk.ex = some x) (h : s.blk.rx.length < x.answerAt 88 + 4 ∨ x.preamble s.blk.rx = true) :
    answerTimeout s = s := by
  unfold answerTimeout
  rw [he]
  exact if_pos (.inr (.inr h))

end Sys2Proof.Machine
end
section
/-! PROOFS. Exchanges of the Belfry, settled -/

namespace Sys2Proof.Machine

open Sys2Proof

/-- A report's data by the report's own bits. -/
theorem bits_low (p : Nat) {hi lo : Nat} (h : hi ≤ 55) : bits (bits p 55 0) hi lo = bits p hi lo := by
  unfold bits
  rw [Nat.pow_zero, Nat.div_one]
  by_cases hl : lo ≤ hi
  · have h1 : hi + 1 - lo + lo = hi + 1 := by omega
    have hmod (n : Nat) : n / 2 ^ lo % 2 ^ (hi + 1 - lo) = n % 2 ^ (hi + 1) / 2 ^ lo := by
      rw [← Nat.mod_mul_right_div_self, ← Nat.pow_add, Nat.add_comm lo, h1]
    rw [hmod, hmod, Nat.mod_mod_of_dvd _ (Nat.pow_dvd_pow 2 (by omega))]
  · rw [show hi + 1 - lo = 0 by omega, Nat.pow_zero, Nat.mod_one, Nat.mod_one]

/-- An exchange in progress waits for its answer. -/
theorem latched (s : State) : s.latchBlk.blk.ex = s.blk.ex ∧ s.latchBlk.lnk = s.lnk ∧ s.latchBlk.blk.reports = s.blk.reports ∧
    s.latchBlk.blk.nodes = s.blk.nodes ∧ s.latchBlk.blk.queue = s.blk.queue ∧ s.latchBlk.blk.again = s.blk.again ∧
    s.latchBlk.blk.reportSeq = s.blk.reportSeq ∧ s.latchBlk.blk.lastEvent = s.blk.lastEvent := ⟨rfl, rfl, rfl, rfl, rfl, rfl, rfl, rfl⟩

theorem latchBlk_node (s : State) (a : Nat) : s.latchBlk.node a = s.node a := rfl

theorem latchBlk_now (s : State) : s.latchBlk.blk.regs = s.latchBlk.blkRegs := congrArg Blk.regs (latchBlk_regs s)

/-- An EMPTY ends its exchange. -/
theorem empty_ends {s : State} {x : Exch} {p q : Nat} (he : s.blk.ex = some x) (hx : x.st = .waiting) (hr : s.belfryRec.isSome = true)
    (hlen : x.answerAt 32 + 4 ≤ s.blk.rx.length) (hv : x.valid s.blk.rx = some ((0, 2, p), q)) (ha : x.ask = .poll) (hl : (s.node x.node).lost = false) :
    ∃ v, belfryFrameRx s = v.latchBlk ∧ Ended (Node.scored x.r1 x.r2 q false) x s v := by
  obtain ⟨c, h⟩ := belfryFrameRx_heard he hx hr hlen hv
  rw [if_pos ⟨rfl, rfl⟩] at h
  have hend := answered_poll (s := s.lineCounted c) hr ha hl q
  exact ⟨_, h, ⟨hend.ended, hend.nodes, hend.reports, hend.seq, hend.queue, hend.again, hend.lnk, hend.uptime⟩⟩

/-- A REPORT ends its exchange and is taken. -/
theorem report_ends {s : State} {x : Exch} {p q : Nat} (he : s.blk.ex = some x) (hx : x.st = .waiting) (hr : s.belfryRec.isSome = true)
    (hlen : x.answerAt 32 + 4 ≤ s.blk.rx.length) (hv : x.valid s.blk.rx = some ((0, 1, p), q)) (ha : x.ask = .poll) (hl : (s.node x.node).lost = false) :
    ∃ v, belfryFrameRx s = (v.report x.node p).latchBlk ∧ Ended (Node.scored x.r1 x.r2 q false) x s v := by
  obtain ⟨c, h⟩ := belfryFrameRx_heard he hx hr hlen hv
  rw [if_neg (fun h => absurd h.2 (by decide)), if_pos ⟨rfl, rfl, by rw [ha]; decide⟩] at h
  have hend := answered_poll (s := s.lineCounted c) hr ha hl q
  exact ⟨_, h, ⟨hend.ended, hend.nodes, hend.reports, hend.seq, hend.queue, hend.again, hend.lnk, hend.uptime⟩⟩

/-- What a REPORT with a new toggle leaves before its content is taken. -/
theorem report_toggled {x : Exch} {s v : State} {f : Node → Node} (hend : Ended f x s v) (h1 : 1 ≤ x.node) (h2 : x.node ≤ s.blk.nodes.length) (p : Nat)
    (hne : bit p 63 ≠ (v.node x.node).tog) : ∃ w : State, v.report x.node p = w.reportTaken x.node (bits p 61 56) (bits p 55 0) ∧
      w.node x.node = { f (s.node x.node) with tog := bit p 63 } ∧ w.blk.ex = none ∧ w.blk.reportSeq = s.blk.reportSeq ∧ w.lnk = s.lnk ∧
      w.sup.uptime = s.sup.uptime ∧ x.node ≤ w.blk.nodes.length := by
  obtain ⟨l, hl, -⟩ := pollAgain_spec x.node p v
  have h := report_new hne
  rw [hl] at h
  refine ⟨_, h, ?_, hend.ended, hend.seq, hend.lnk, hend.uptime, ?_⟩
  · rw [onNode_node _ h1 (by rw [← hend.length] at h2; exact h2)]
    exact congrArg (fun n : Node => { n with tog := bit p 63 }) (hend.node h1 h2)
  · refine h2.trans (Nat.le_of_eq ?_)
    rw [← hend.length]
    exact (upd_length ..).symm

theorem onBlk_blk (f : Blk → Blk) (s : State) : (s.onBlk f).blk = f s.blk := rfl

theorem queued_kept (x : Nat × List Byte) (b : Blk) : (b.queued x).ex = b.ex ∧ (b.queued x).nodes = b.nodes ∧ (b.queued x).reportSeq = x.1 := by
  unfold Blk.queued
  dsimp only
  exact ⟨rfl, rfl, rfl⟩

theorem belfryExchanges : Claim.BelfryExchanges := by
  refine ⟨?request, ?waits, ?answer, ?timeout, ?still⟩
  case request =>
    intro s x he hx hb hd hs h2 hn
    have h := belfryRequest_ready (s := s.start) he hx hb hd hs h2 hn
    exact ⟨_, congrArg Host.Outcome.next h, rfl, fun ha hr => requestBits_poll ha hr⟩
  case waits =>
    intro s h
    exact ⟨_, congrArg Host.Outcome.next (belfryRequest_waits (s := s.start) h), rfl⟩
  case answer =>
    intro s x addr type p q he hx hr hlen hv h1 h2 hn hlost ha hcmd
    refine ⟨?empty, ?known, ?queued, ?token, ?other⟩
    case empty =>
      rintro rfl rfl
      obtain ⟨v, h, hend⟩ := empty_ends (s := s.start) he hx hr hlen hv ha hlost
      have hnode := hend.node h1 h2
      refine ⟨_, congrArg Host.Outcome.next h, hend.ended, hend.lnk, latchBlk_now v, hend.reports, ?_, ?_, ?_⟩
      · rw [latchBlk_node, hnode]
        exact hlost
      · rw [latchBlk_node, hnode]
        rfl
      · rw [latchBlk_node, hnode]
        rfl
    case known =>
      rintro rfl rfl htog
      obtain ⟨v, h, hend⟩ := report_ends (s := s.start) he hx hr hlen hv ha hlost
      have hnode := hend.node h1 h2
      have hsame : bit p 63 = (v.node x.node).tog := by
        rw [hnode]
        exact htog
      obtain ⟨l, hl, hin⟩ := pollAgain_spec x.node p v
      rw [report_known hsame, hl] at h
      refine ⟨_, congrArg Host.Outcome.next h, hend.ended, hend.lnk, hend.reports, hend.queue, ?_, ?_, hin⟩
      · exact (congrArg Node.tog hnode).trans rfl
      · exact (congrArg Node.hi hnode).trans rfl
    case queued =>
      rintro rfl rfl htog hkind
      obtain ⟨v, h, hend⟩ := report_ends (s := s.start) he hx hr hlen hv ha hlost
      have hne : bit p 63 ≠ (v.node x.node).tog := by
        rw [hend.node h1 h2]
        exact htog
      obtain ⟨w, hw, wnode, wex, wseq, -⟩ := report_toggled hend h1 h2 p hne
      obtain ⟨e, arg, hq, hu1, hu2⟩ := reportTaken_queued (s := w) (a := x.node) (data := bits p 55 0) hkind
      rw [hw, hq] at h
      have hseq : w.blk.reportSeq = s.blk.reportSeq := wseq
      rw [hseq] at h
      generalize (s.blk.reportSeq + 1) % 2 ^ 32 = seq at h ⊢
      have hblk := blkEvent_blk x.node 0x01 arg none (w.onBlk (Blk.queued (seq, e)))
      obtain ⟨k1, k2, k3⟩ := queued_kept (seq, e) w.blk
      have hlast := queued_last (seq, e) w.blk
      rw [← onBlk_blk (Blk.queued (seq, e)) w] at k1 k2 k3 hlast
      have hex := k1.trans wex
      have hnode := node_congr k2 x.node
      generalize w.onBlk (Blk.queued (seq, e)) = y at h hblk hlast hex hnode k3
      generalize y.blkEvent x.node 0x01 arg none = z at h hblk
      have hz : z.node x.node = y.node x.node := node_congr (by rw [hblk]) _
      have hzseq : z.blk.reportSeq = seq := by rw [hblk]; exact k3
      refine ⟨_, congrArg Host.Outcome.next h, ?_, ?_, hzseq, e, ?_, hu1, ?_⟩
      · exact (congrArg Blk.ex hblk).trans hex
      · rw [latchBlk_node, hz, hnode, wnode]
      · refine (congrArg (fun b : Blk => b.reports.getLast?) hblk).trans (hlast.trans ?_)
        rw [show z.latchBlk.blk.reportSeq = z.blk.reportSeq from rfl, hzseq]
      · rw [hu2]
        exact Nat.mod_eq_of_lt (Nat.lt_of_lt_of_le (Nat.mod_lt _ (by decide)) (by decide))
    case token =>
      rintro rfl rfl htog hkind hup tag v0 hhi htag
      obtain ⟨v, h, hend⟩ := report_ends (s := s.start) he hx hr hlen hv ha hlost
      have hne : bit p 63 ≠ (v.node x.node).tog := by
        rw [hend.node h1 h2]
        exact htog
      obtain ⟨w, hw, wnode, wex, -, wlnk, wup, wlen⟩ := report_toggled hend h1 h2 p hne
      have hhi' : (w.node x.node).hi = some (bits (bits p 55 0) 55 52, v0) := by
        rw [wnode, bits_low p (Nat.le_refl 55), ← htag]
        exact hhi
      obtain ⟨c, ht⟩ := reportTaken_token hhi' (by rw [wlnk]; exact hup)
      rw [hw, hkind, ht, bits_low p (by decide), wup] at h
      have hnode := onNode_node (s := w) (fun n => { n with hi := none }) h1 wlen
      rw [wnode] at hnode
      refine ⟨_, congrArg Host.Outcome.next h, wex, congrArg Node.hi hnode, congrArg Node.tog hnode, ?_⟩
      change w.lnk.toSg ++ _ = _
      rw [wlnk]
      rfl
    case other =>
      intro haddr hp ht
      obtain ⟨c, h⟩ := belfryFrameRx_heard (s := s.start) he hx hr hlen hv
      rw [if_neg (fun h => haddr h.1), if_neg (fun h => haddr h.1)] at h
      obtain ⟨d, e, hb⟩ := exFail_repeats (s := s.start.lineCounted c) hp hn ht
      have hlnk : ((s.start.lineCounted c).exFail x).lnk = (s.start.lineCounted c).lnk := exFail_part (π := .lnk) (by simp) ..
      refine ⟨_, congrArg Host.Outcome.next h, (congrArg Blk.ex hb).trans rfl, (congrArg Blk.reports hb).trans rfl, hlnk⟩
  case timeout =>
    intro s x he hx hr hp h1 h2 hn hlen hpre
    have h := answerTimeout_due (s := s.start) he hx hr hlen hpre
    have hlnk : (s.start.exFail x).lnk = s.start.lnk := exFail_part (π := .lnk) (by simp) ..
    refine ⟨fun ht => ?_, fun ht ha hcmd hlost hall => ?_⟩
    · obtain ⟨d, e, hb⟩ := exFail_repeats (s := s.start) hp hn ht
      refine ⟨_, congrArg Host.Outcome.next h, (congrArg Blk.ex hb).trans rfl, ?_, (congrArg Blk.queue hb).trans rfl, hlnk⟩
      rw [latchBlk_node]
      unfold State.node
      rw [hb]
      dsimp only
      rw [getD_upd_self _ Node.reset (by change x.node - 1 < s.blk.nodes.length; omega)]
      rfl
    · obtain ⟨g1, g2, g3⟩ := exFail_lost (s := s.start) hr hp h1 h2 hn ht ha hlost hall
      exact ⟨_, congrArg Host.Outcome.next h, g1, g2, g3, hlnk⟩
  case still =>
    intro s x he h
    exact ⟨_, congrArg Host.Outcome.next (answerTimeout_waits (s := s.start) he h), rfl⟩

end Sys2Proof.Machine
end
section
/-! PROOFS. The Belfry's line: its crossings and what they keep (R409 to R413) -/

namespace Sys2Proof.Machine

open Sys2Proof

/-! ### The line -/

/-- The crossings of the line and what they are judged to be. -/
structure BlkLine where
  level : Option Bool
  edgeAt : Nat
  rise : Edge
  fall : Edge
  next : Bool
  bad : Nat
  good : Nat
  cycOk : Bool
  down : Bool
  slotF : Option Bell

/-- The line's part of BLK. -/
def Blk.line (b : Blk) : BlkLine := ⟨b.level, b.edgeAt, b.rise, b.fall, b.next, b.bad, b.good, b.cycOk, b.down, b.slotF⟩

theorem line_ex (b : Blk) (n : List Node) (e : Option (Nat × Nat × Nat)) (rx : List Sym) (m : Bool) (x : Option Exch) (c : List Nat) (q : Nat)
    (r : List (Nat × Nat)) :
    ({ b with nodes := n, lastEvent := e, rx := rx, mine := m, ex := x, counts := c, silent := q, regs := r } : Blk).line = b.line := rfl

theorem blkEvent_line (src sub arg : Nat) (f : Option Nat) (s : State) : (s.blkEvent src sub arg f).blk.line = s.blk.line := by
  rw [blkEvent_blk]
  rfl

theorem exEnd_line {s : State} (h : s.belfryRec.isSome = true) (x : Exch) (st r : Nat) : (s.exEnd x st r).blk.line = s.blk.line := by
  rw [exEnd_blk h]
  rfl

theorem exFail_line {s : State} (hr : s.belfryRec.isSome = true) (x : Exch) : (s.exFail x).blk.line = s.blk.line := by
  obtain ⟨e, hs⟩ := scoreRoute_blk x.node x.r1 x.r2 0 true s
  have hrec : (s.scoreRoute x.node x.r1 x.r2 0 true).belfryRec = s.belfryRec := belfryRec_of_part (scoreRoute_part (by simp) ..) (scoreRoute_part (by simp) ..)
  have hnode (f : Node → Node) (u : State) : (u.onNode x.node f).blk.line = u.blk.line := rfl
  unfold State.exFail
  generalize s.scoreRoute x.node x.r1 x.r2 0 true = v at hs hrec
  dsimp only
  have hv : (v.onBlk (fun b => { b with rx := [], mine := false })).blk.line = s.blk.line := by
    unfold State.onBlk
    dsimp only
    rw [hs]
    rfl
  have hw : (v.onBlk (fun b => { b with rx := [], mine := false })).belfryRec.isSome = true := (congrArg Option.isSome hrec).trans hr
  generalize v.onBlk (fun b => { b with rx := [], mine := false }) = w at hv hw
  rw [← hv]
  split
  · rw [hnode, exEnd_line hw]
  · split
    · exact exEnd_line hw ..
    · split
      · rfl
      · split
        · rfl
        · unfold State.exLost
          split
          · exact exEnd_line hw ..
          · dsimp only
            split
            · exact exEnd_line hw ..
            · rw [blkEvent_line, hnode, exEnd_line hw]

theorem lineDown_line {s : State} (hr : s.belfryRec.isSome = true) : s.lineDown.blk.line = { s.blk.line with down := true, good := 0 } := by
  have hlatch (u : State) : u.latchBlk.blk.line = u.blk.line := rfl
  have hdown : (s.onBlk (fun b => { b with down := true, good := 0 })).blk.line = { s.blk.line with down := true, good := 0 } := rfl
  have hrec : (s.onBlk (fun b => { b with down := true, good := 0 })).belfryRec = s.belfryRec := rfl
  unfold State.lineDown
  dsimp only
  generalize s.onBlk (fun b => { b with down := true, good := 0 }) = v at hdown hrec
  have hv : (v.blkEvent noSource 0x05 1 (some 0x0B02)).belfryRec.isSome = true := by
    rw [belfryRec_of_part (blkEvent_part (by simp) ..) (blkEvent_part (by simp) ..), hrec]
    exact hr
  have hl := blkEvent_line noSource 0x05 1 (some 0x0B02) v
  generalize v.blkEvent noSource 0x05 1 (some 0x0B02) = w at hv hl
  rw [← hdown, ← hl]
  split
  · rfl
  · split
    · rfl
    · rw [hlatch, exFail_line hv]

/-- An edge judged, the line as it then is. -/
def BlkLine.judged (ok freqBad : Bool) (l : BlkLine) : BlkLine :=
  if !l.down && (decide (3 ≤ (if ok then 0 else l.bad + 1)) || freqBad) then
    { l with bad := if ok then 0 else l.bad + 1, cycOk := l.cycOk && ok && !freqBad, down := true, good := 0 }
  else { l with bad := if ok then 0 else l.bad + 1, cycOk := l.cycOk && ok && !freqBad }

theorem edgeJudged_line {s : State} (hr : s.belfryRec.isSome = true) (ok freqBad : Bool) : (s.edgeJudged ok freqBad).blk.line = s.blk.line.judged ok freqBad := by
  have hcond : s.blk.line.down = s.blk.down ∧ s.blk.line.bad = s.blk.bad := ⟨rfl, rfl⟩
  unfold State.edgeJudged BlkLine.judged
  rw [hcond.1, hcond.2]
  dsimp only
  generalize (if ok = true then 0 else s.blk.bad + 1) = n
  by_cases h : (!s.blk.down && (decide (3 ≤ n) || freqBad)) = true
  · rw [if_pos h, if_pos h]
    exact lineDown_line hr
  · rw [if_neg h, if_neg h]
    rfl

theorem freqJudged_line {s : State} (hr : s.belfryRec.isSome = true) (bad : Bool) : ∃ c d g, (s.freqJudged bad).blk.line = { s.blk.line with
    cycOk := c, down := d, good := g } := by
  unfold State.freqJudged
  dsimp only
  split
  · exact ⟨_, _, _, lineDown_line hr⟩
  · exact ⟨_, _, _, rfl⟩

/-- A cycle of edges ends, the line as it then is. -/
def BlkLine.cycled (l : BlkLine) : BlkLine := { l with
  good := if l.cycOk then l.good + 1 else 0, cycOk := true
  down := if l.down ∧ 16 ≤ (if l.cycOk then l.good + 1 else 0) then false else l.down }

theorem cycleGood_line (s : State) : s.cycleGood.blk.line = s.blk.line.cycled := by
  unfold State.cycleGood BlkLine.cycled
  dsimp only
  have hcond : s.blk.line.down = s.blk.down ∧ s.blk.line.cycOk = s.blk.cycOk ∧ s.blk.line.good = s.blk.good := ⟨rfl, rfl, rfl⟩
  rw [hcond.1, hcond.2.1, hcond.2.2]
  generalize (if s.blk.cycOk = true then s.blk.good + 1 else 0) = g
  by_cases h : s.blk.down = true ∧ 16 ≤ g
  · rw [if_pos h, if_pos h, blkEvent_line]
    rfl
  · rw [if_neg h, if_neg h]
    rfl

theorem settleEx_line {s : State} (hr : s.belfryRec.isSome = true) : s.settleEx.blk.line = s.blk.line := by
  unfold State.settleEx
  split
  · rfl
  · split
    · exact exEnd_line hr ..
    · rfl

theorem cycleEnd_line {s : State} (hr : s.belfryRec.isSome = true) (y : Sym) : (s.cycleEnd y).blk.line = s.blk.line := by
  have hhush (b : Blk) : b.hush.line = b.line := by
    unfold Blk.hush
    split <;> rfl
  unfold State.cycleEnd
  dsimp only
  generalize (if s.blk.mine = true then 0 else if y = .silent then s.blk.silent + 1 else 0) = n
  split
  · refine (settleEx_line (by exact hr)).trans ?_
    exact (hhush _).trans rfl
  · split
    · rfl
    · split
      · rfl
      · rfl
      · rfl
      · split <;> rfl

/-- A line that goes DOWN in its cycle stays DOWN at its end. -/
theorem judged_cycled_down {ok freqBad : Bool} {l : BlkLine} (h : l.down = false) : (l.judged ok freqBad).cycled.down = (l.judged ok freqBad).down := by
  have hok : (ok && !freqBad) = true → (decide (3 ≤ (if ok then 0 else l.bad + 1)) || freqBad) = false := by
    cases ok <;> cases freqBad <;> simp
  unfold BlkLine.judged
  rw [h]
  generalize (if ok = true then 0 else l.bad + 1) = n at hok
  by_cases hc : (decide (3 ≤ n) || freqBad) = true
  · have hbad : (ok && !freqBad) = false := Bool.eq_false_iff.mpr (fun hb => absurd hc (by rw [hok hb]; exact Bool.false_ne_true))
    rw [if_pos (by rw [hc]; rfl)]
    unfold BlkLine.cycled
    dsimp only
    rw [Bool.and_assoc, hbad, Bool.and_false, if_neg Bool.false_ne_true, if_neg (by omega)]
  · rw [if_neg (by rw [Bool.not_false, Bool.true_and]; exact hc)]
    unfold BlkLine.cycled
    dsimp only
    rw [if_neg (fun hd => absurd hd.1 Bool.false_ne_true)]

end Sys2Proof.Machine
end
section
/-! PROOFS. Crossings of the Belfry's line -/

namespace Sys2Proof.Machine

open Sys2Proof

/-! ### A cycle judged (R413) -/

theorem logRatio_le (a b : Nat) : logRatio a b ≤ 15 := by
  unfold logRatio countOf
  exact (List.length_filter_le _ _).trans (Nat.le_of_eq List.length_range)

theorem judgeCycle_spec (floor : Nat) (f r : Bell) :
    ((f.blanked = true ∨ r.blanked = true) → judgeCycle floor f r = .erasure) ∧
    (f.blanked = false → r.blanked = false → f.energy < 512 * floor ^ 2 → r.energy < 512 * floor ^ 2 → judgeCycle floor f r = .silent) ∧
    (f.blanked = false → r.blanked = false → (512 * floor ^ 2 ≤ f.energy ∨ 512 * floor ^ 2 ≤ r.energy) →
      (4 * r.energy ≤ f.energy → r.energy < f.energy → ∃ q, q ≤ 15 ∧ judgeCycle floor f r = .bit true q) ∧
      (4 * f.energy ≤ r.energy → f.energy < r.energy → ∃ q, q ≤ 15 ∧ judgeCycle floor f r = .bit false q) ∧
      (f.energy < 4 * r.energy → r.energy < 4 * f.energy → judgeCycle floor f r = .erasure)) := by
  have hfloor : 512 * floor * floor = 512 * floor ^ 2 := by rw [Nat.pow_two, Nat.mul_assoc]
  unfold judgeCycle
  dsimp only
  rw [hfloor]
  generalize 512 * floor ^ 2 = m
  generalize 32 * floor * floor = k
  refine ⟨fun h => if_pos (by simpa using h), fun h1 h2 h3 h4 => ?_, fun h1 h2 h3 => ⟨fun h4 h5 => ?_, fun h4 h5 => ?_, fun h4 h5 => ?_⟩⟩
  · rw [h1, h2, if_neg (by decide), if_pos ⟨h3, h4⟩]
  · rw [h1, h2, if_neg (by decide), if_neg (by omega), if_pos (by omega), decide_eq_true h5]
    exact ⟨_, logRatio_le _ _, rfl⟩
  · rw [h1, h2, if_neg (by decide), if_neg (by omega), if_pos (by omega), decide_eq_false (by omega)]
    exact ⟨_, logRatio_le _ _, rfl⟩
  · rw [h1, h2, if_neg (by decide), if_neg (by omega), if_neg (by omega)]

/-! ### The bell slot (R411) -/

theorem hear_line (k : Nat) (z : ZeroCross) (b : Blk) : ∃ f, (b.hear k z).1 = { b with floor := f } := by
  unfold Blk.hear
  split
  · exact ⟨b.floor, rfl⟩
  · exact ⟨_, rfl⟩

theorem hear_none {k : Nat} {z : ZeroCross} {b : Blk} (h : slotCut z = none) : (b.hear k z).2 = none := by
  unfold Blk.hear
  rw [h]

theorem hear_slot {k : Nat} {z : ZeroCross} {b : Blk} {pre slot post : List Nat} (h : slotCut z = some (pre, slot, post))
    (hq : (sampleOf (slot.headD 2048)).natAbs ≤ k * pre.foldl floorStep b.floor) :
    (b.hear k z).2 = some (judgeBell false (k * pre.foldl floorStep b.floor) slot) := by
  have hfirst : decide (k * pre.foldl floorStep b.floor < (sampleOf (slot.headD 2048)).natAbs) = false := decide_eq_false (Nat.not_lt.mpr hq)
  unfold Blk.hear
  rw [h]
  simp only [hfirst]
  rfl

theorem slotCut_some {z : ZeroCross} {pre slot post : List Nat} (h : slotCut z = some (pre, slot, post)) : slot.length = 32 ∧ pre ++ slot ++ post = z.codes := by
  unfold slotCut at h
  dsimp only at h
  generalize (200000 - z.phase) / 15625 + 1 = after at h
  split at h
  · cases h
  next hm =>
    obtain ⟨rfl, rfl, rfl⟩ : _ ∧ _ ∧ _ := by simpa using h
    refine ⟨by rw [List.length_take, List.length_drop]; omega, ?_⟩
    have hdrop : z.codes.drop (z.codes.length - after) = (z.codes.drop (z.codes.length - after - 32)).drop 32 := by
      rw [List.drop_drop]
      congr 1
      omega
    rw [hdrop, List.append_assoc, List.take_append_drop, List.take_append_drop]

/-! ### A crossing (R409, R410) -/

/-- The edge that a crossing is of. -/
def Blk.edge (rising : Bool) (b : Blk) : Edge := if rising then b.rise else b.fall

/-- A crossing as it is recorded. -/
def State.crossed (z : ZeroCross) (k : Nat) (s : State) : State := s.onBlk (fun b => { (b.hear k z).1 with
  level := some z.rising, edgeAt := s.sup.uptime, next := if (b.edge z.rising).late s.sup.uptime then (b.hear k z).1.next else !z.rising
  rise := if z.rising then (b.edge z.rising).cross s.sup.uptime else (b.hear k z).1.rise
  fall := if z.rising then (b.hear k z).1.fall else (b.edge z.rising).cross s.sup.uptime })

theorem crossed_blk (z : ZeroCross) (k : Nat) (s : State) : ∃ f, (s.crossed z k).blk = { s.blk with
    floor := f, level := some z.rising, edgeAt := s.sup.uptime, next := if (s.blk.edge z.rising).late s.sup.uptime then s.blk.next else !z.rising
    rise := if z.rising then (s.blk.edge z.rising).cross s.sup.uptime else s.blk.rise
    fall := if z.rising then s.blk.fall else (s.blk.edge z.rising).cross s.sup.uptime } := by
  obtain ⟨f, h⟩ := hear_line k z s.blk
  refine ⟨f, ?_⟩
  unfold State.crossed State.onBlk
  dsimp only
  rw [h]

theorem cross_spec (now : Nat) (e : Edge) : (e.cross now).last = some now ∧ (e.cross now).due = 0 := by
  unfold Edge.cross
  split <;> exact ⟨rfl, rfl⟩

theorem zeroCrossing_blocked {z : ZeroCross} {s : State} {r : BelfryRec} (hr : s.belfryRec = some r) (h : s.blk.passes z.rising s.sup.uptime = false) :
    zeroCrossing z s = s := by
  unfold zeroCrossing
  rw [lineRec_some hr]
  exact if_pos h

theorem zeroCrossing_late {z : ZeroCross} {s : State} {r : BelfryRec} (hr : s.belfryRec = some r) (h : s.blk.passes z.rising s.sup.uptime = true)
    (hl : (s.blk.edge z.rising).late s.sup.uptime = true) :
    zeroCrossing z s = (s.crossed z r.blankK).freqJudged ((s.blk.edge z.rising).cross s.sup.uptime).badFreq := by
  unfold zeroCrossing
  rw [lineRec_some hr]
  dsimp only
  rw [if_neg (by rw [h]; decide)]
  refine (if_pos hl).trans ?_
  rfl

/-- A crossing that does not come late is judged. -/
def State.crossJudged (z : ZeroCross) (k : Nat) (ok : Bool) (s : State) : State :=
  (s.crossed z k).edgeJudged ok ((s.blk.edge z.rising).cross s.sup.uptime).badFreq

theorem zeroCrossing_falling {z : ZeroCross} {s : State} {r : BelfryRec} (hr : s.belfryRec = some r) (h : s.blk.passes z.rising s.sup.uptime = true)
    (hl : (s.blk.edge z.rising).late s.sup.uptime = false) (hz : z.rising = false) : ∃ ok : Bool, ((s.blk.edge z.rising).predict = none → ok = true) ∧
    zeroCrossing z s = (s.crossJudged z r.blankK ok).onBlk (fun b => { b with slotF := if ok then (s.blk.hear r.blankK z).2 else none }) := by
  unfold zeroCrossing
  rw [lineRec_some hr]
  dsimp only
  rw [if_neg (by rw [h]; decide)]
  refine ⟨_, ?_, (if_neg (fun hc => absurd (hl.symm.trans hc) Bool.false_ne_true)).trans ((if_neg (fun hc => absurd (hz.symm.trans hc) Bool.false_ne_true)).trans rfl)⟩
  intro hp
  unfold Blk.edge at hp
  rw [hp]

theorem zeroCrossing_rising {z : ZeroCross} {s : State} {r : BelfryRec} (hr : s.belfryRec = some r) (h : s.blk.passes z.rising s.sup.uptime = true)
    (hl : (s.blk.edge z.rising).late s.sup.uptime = false) (hz : z.rising = true) : ∃ ok y, zeroCrossing z s =
      ((((s.crossJudged z r.blankK ok).onBlk (fun b => { b with slotF := none })).cycleGood).cycleEnd y).latchBlk := by
  unfold zeroCrossing
  rw [lineRec_some hr]
  dsimp only
  rw [if_neg (by rw [h]; decide)]
  exact ⟨_, _, (if_neg (fun hc => absurd (hl.symm.trans hc) Bool.false_ne_true)).trans ((if_pos hz).trans rfl)⟩

/-! ### A crossing missed (R410) -/

/-- A crossing missed, as it is recorded: the prediction goes on from there. -/
def State.edgeMissed (e : Edge) (s : State) : State := s.onBlk (fun b => { b with
  next := !s.blk.next, rise := if s.blk.next then { e with due := e.due + 1 } else b.rise
  fall := if s.blk.next then b.fall else { e with due := e.due + 1 }, slotF := none })

theorem zeroCrossingMissed_early {s : State} {r : BelfryRec} {p : Nat} (hr : s.belfryRec = some r) (hp : (s.blk.edge s.blk.next).predict = some p)
    (h : s.sup.uptime ≤ p + 200) : zeroCrossingMissed s = s := by
  unfold zeroCrossingMissed
  rw [lineRec_some hr]
  dsimp only
  unfold Blk.edge at hp
  rw [hp]
  exact if_pos h

theorem zeroCrossingMissed_due {s : State} {r : BelfryRec} {p : Nat} (hr : s.belfryRec = some r) (hp : (s.blk.edge s.blk.next).predict = some p)
    (h : p + 200 < s.sup.uptime) : zeroCrossingMissed s =
      if s.blk.next then (((s.edgeMissed (s.blk.edge s.blk.next)).edgeJudged false false).cycleGood.cycleEnd .erasure).latchBlk
      else (s.edgeMissed (s.blk.edge s.blk.next)).edgeJudged false false := by
  unfold zeroCrossingMissed
  rw [lineRec_some hr]
  dsimp only
  have hp' := hp
  unfold Blk.edge at hp'
  rw [hp']
  exact (if_neg (Nat.not_le.mpr h)).trans rfl

/-! ### The bit in a cycle (R415) -/

theorem lineDown_down {s : State} (hr : s.belfryRec.isSome = true) : s.lineDown.blk.down = true := congrArg BlkLine.down (lineDown_line hr)

theorem edgeJudged_up {s : State} (hr : s.belfryRec.isSome = true) {ok freqBad : Bool} (h : (s.edgeJudged ok freqBad).blk.down = false) :
    ∃ (n : Nat) (c : Blk → Bool), s.edgeJudged ok freqBad = s.onBlk (fun b => { b with bad := n, cycOk := c b }) := by
  unfold State.edgeJudged at h ⊢
  dsimp only at h ⊢
  generalize (if ok = true then 0 else s.blk.bad + 1) = n at h ⊢
  by_cases hc : (!s.blk.down && (decide (3 ≤ n) || freqBad)) = true
  · rw [if_pos hc] at h
    have hd := lineDown_down (s := s.onBlk (fun b => { b with bad := n, cycOk := b.cycOk && ok && !freqBad })) hr
    exact absurd (hd.symm.trans h) (by decide)
  · rw [if_neg hc]
    exact ⟨n, _, rfl⟩

theorem cycleGood_up {s : State} (h : s.blk.down = false) : s.cycleGood = s.onBlk (fun b => { b with good := if b.cycOk then b.good + 1 else 0, cycOk := true }) := by
  unfold State.cycleGood
  dsimp only
  rw [if_neg (fun hc => absurd (h.symm.trans hc.1) Bool.false_ne_true)]
  rfl

theorem cycleEnd_sends {s : State} {x : Exch} {d : Bool} {l : List Bool} (hs : s.sup.st = .service) (he : s.blk.ex = some x) (hx : x.st = .sending)
    (ht : x.tx = d :: l) (hm : s.blk.mine = true) (y : Sym) : (s.cycleEnd y).out = s.out ++ [.bell d] ∧ (s.cycleEnd y).blk.ex = some { x with tx := l } ∧
      (s.cycleEnd y).blk.mine = true := by
  unfold State.cycleEnd
  dsimp only
  rw [if_neg (not_not.mpr hs), he]
  dsimp only
  rw [hx, ht]
  dsimp only
  rw [if_pos (.inl hm)]
  exact ⟨rfl, rfl, rfl⟩

end Sys2Proof.Machine
end
section
/-! PROOFS. The Belfry, settled -/

namespace Sys2Proof.Machine

open Sys2Proof

/-- What judging an edge leaves of the line. -/
theorem judged_kept (ok freqBad : Bool) (l : BlkLine) : (l.judged ok freqBad).level = l.level ∧ (l.judged ok freqBad).edgeAt = l.edgeAt ∧
    (l.judged ok freqBad).rise = l.rise ∧ (l.judged ok freqBad).fall = l.fall ∧ (l.judged ok freqBad).next = l.next ∧
    (l.judged ok freqBad).bad = if ok then 0 else l.bad + 1 := by
  unfold BlkLine.judged
  generalize (if ok = true then 0 else l.bad + 1) = n
  split <;> exact ⟨rfl, rfl, rfl, rfl, rfl, rfl⟩

theorem cycled_kept (l : BlkLine) : l.cycled.level = l.level ∧ l.cycled.edgeAt = l.edgeAt ∧ l.cycled.rise = l.rise ∧ l.cycled.fall = l.fall ∧
    l.cycled.next = l.next ∧ l.cycled.bad = l.bad := ⟨rfl, rfl, rfl, rfl, rfl, rfl⟩

/-- The third bad edge in a row puts the line DOWN. -/
theorem judged_bad_down {l : BlkLine} (h : l.down = false) : (l.judged false false).down = decide (3 ≤ l.bad + 1) := by
  unfold BlkLine.judged
  rw [h, if_neg Bool.false_ne_true]
  by_cases hc : 3 ≤ l.bad + 1
  · rw [decide_eq_true hc]
    rfl
  · rw [decide_eq_false hc]
    rfl

/-- The edge due next has been missed. -/
def BlkLine.missed (e : Edge) (l : BlkLine) : BlkLine := { l with
  next := !l.next, rise := if l.next then { e with due := e.due + 1 } else l.rise
  fall := if l.next then l.fall else { e with due := e.due + 1 }, slotF := none }

theorem edgeMissed_line (e : Edge) (s : State) : (s.edgeMissed e).blk.line = s.blk.line.missed e := rfl

theorem missed_line {s : State} {r : BelfryRec} {p : Nat} (hr : s.belfryRec = some r) (hp : (s.blk.edge s.blk.next).predict = some p)
    (h : p + 200 < s.sup.uptime) : ∃ l, (zeroCrossingMissed s).blk.line = l ∧ l.next = (!s.blk.next) ∧
      l.rise = (s.blk.line.missed (s.blk.edge s.blk.next)).rise ∧ l.fall = (s.blk.line.missed (s.blk.edge s.blk.next)).fall ∧ l.bad = s.blk.bad + 1 ∧
      (s.blk.down = false → l.down = decide (3 ≤ s.blk.bad + 1)) := by
  have hsome : (s.edgeMissed (s.blk.edge s.blk.next)).belfryRec.isSome = true := (congrArg Option.isSome hr).trans rfl
  have hline := edgeJudged_line hsome false false
  have hrec : ((s.edgeMissed (s.blk.edge s.blk.next)).edgeJudged false false).cycleGood.belfryRec.isSome = true := by
    rw [belfryRec_of_part (cycleGood_part (by simp) _) (cycleGood_part (by simp) _),
      belfryRec_of_part (edgeJudged_part (by simp) false false _) (edgeJudged_part (by simp) false false _)]
    exact hsome
  rw [edgeMissed_line] at hline
  rw [zeroCrossingMissed_due hr hp h]
  generalize (s.edgeMissed (s.blk.edge s.blk.next)).edgeJudged false false = v at hline hrec
  obtain ⟨-, -, k3, k4, k5, k6⟩ := judged_kept false false (s.blk.line.missed (s.blk.edge s.blk.next))
  have hdown : s.blk.down = false → ((s.blk.line.missed (s.blk.edge s.blk.next)).judged false false).down = decide (3 ≤ s.blk.bad + 1) := fun hd =>
    judged_bad_down (l := s.blk.line.missed (s.blk.edge s.blk.next)) hd
  cases hn : s.blk.next with
  | false =>
    rw [hn] at hline k3 k4 k5 k6 hdown
    exact ⟨_, hline, k5.trans (congrArg not hn), k3, k4, k6, hdown⟩
  | true =>
    rw [hn] at hline k3 k4 k5 k6 hdown
    have hlatch : (v.cycleGood.cycleEnd .erasure).latchBlk.blk.line = v.blk.line.cycled := (cycleEnd_line hrec _).trans (cycleGood_line v)
    rw [hline] at hlatch
    obtain ⟨-, -, c3, c4, c5, c6⟩ := cycled_kept ((s.blk.line.missed (s.blk.edge true)).judged false false)
    exact ⟨_, hlatch, c5.trans (k5.trans (congrArg not hn)), c3.trans k3, c4.trans k4, c6.trans k6, fun hd => (judged_cycled_down hd).trans (hdown hd)⟩

theorem passes_of {rising : Bool} {now : Nat} {b : Blk} (h : b.level = none ∨ b.level = some (!rising) ∧ b.edgeAt + 100 ≤ now) : b.passes rising now = true := by
  unfold Blk.passes
  obtain h | ⟨h, ht⟩ := h
  · rw [h]
  · rw [h]
    dsimp only
    rw [decide_eq_true ht]
    cases rising <;> rfl

theorem passes_not {rising : Bool} {now : Nat} {b : Blk} (h : b.level = some rising ∨ b.level.isSome = true ∧ now < b.edgeAt + 100) : b.passes rising now = false := by
  unfold Blk.passes
  obtain h | ⟨h, ht⟩ := h
  · rw [h]
    cases rising <;> rfl
  · obtain ⟨l, hl⟩ := Option.isSome_iff_exists.mp h
    rw [hl]
    dsimp only
    rw [decide_eq_false (by omega), Bool.and_false]

/-- A falling crossing, the line as it then is. -/
theorem falling_line {z : ZeroCross} {s : State} {r : BelfryRec} (hr : s.belfryRec = some r) (h : s.blk.passes z.rising s.sup.uptime = true) (hz : z.rising = false) :
    ∃ t, zeroCrossing z s = t ∧ t.blk.level = some false ∧ t.blk.edgeAt = s.sup.uptime ∧ t.blk.fall = s.blk.fall.cross s.sup.uptime ∧ t.blk.rise = s.blk.rise ∧
      (s.blk.fall = ⟨none, 0, []⟩ → t.blk.next = true ∧ t.blk.bad = 0 ∧ t.blk.slotF = (s.blk.hear r.blankK z).2) := by
  have hsome : (s.crossed z r.blankK).belfryRec.isSome = true := (congrArg Option.isSome hr).trans rfl
  obtain ⟨f, hb⟩ := crossed_blk z r.blankK s
  have hedge : s.blk.edge z.rising = s.blk.fall := by rw [hz]; rfl
  rw [hedge] at hb
  have hline : (s.crossed z r.blankK).blk.line.level = some false ∧ (s.crossed z r.blankK).blk.line.edgeAt = s.sup.uptime ∧
      (s.crossed z r.blankK).blk.line.fall = s.blk.fall.cross s.sup.uptime ∧ (s.crossed z r.blankK).blk.line.rise = s.blk.rise ∧
      (s.blk.fall.late s.sup.uptime = false → (s.crossed z r.blankK).blk.line.next = true) := by
    rw [hb, hz]
    exact ⟨rfl, rfl, rfl, rfl, fun hl => if_neg (by rw [hl]; exact Bool.false_ne_true)⟩
  obtain ⟨l1, l2, l3, l4, l5⟩ := hline
  cases hl : (s.blk.edge z.rising).late s.sup.uptime with
  | true =>
    have hzc := zeroCrossing_late hr h hl
    obtain ⟨c, d, g, hf⟩ := freqJudged_line hsome ((s.blk.edge z.rising).cross s.sup.uptime).badFreq
    refine ⟨_, hzc, (congrArg BlkLine.level hf).trans l1, (congrArg BlkLine.edgeAt hf).trans l2, (congrArg BlkLine.fall hf).trans l3,
      (congrArg BlkLine.rise hf).trans l4, fun hfall => ?_⟩
    rw [hedge, hfall] at hl
    exact absurd hl Bool.false_ne_true
  | false =>
    obtain ⟨ok, hok, hzc⟩ := zeroCrossing_falling hr h hl hz
    have hj : (s.crossJudged z r.blankK ok).blk.line = _ := edgeJudged_line hsome ok ((s.blk.edge z.rising).cross s.sup.uptime).badFreq
    obtain ⟨k1, k2, k3, k4, k5, k6⟩ := judged_kept ok ((s.blk.edge z.rising).cross s.sup.uptime).badFreq (s.crossed z r.blankK).blk.line
    refine ⟨_, hzc, (congrArg BlkLine.level hj).trans (k1.trans l1), (congrArg BlkLine.edgeAt hj).trans (k2.trans l2),
      (congrArg BlkLine.fall hj).trans (k4.trans l3), (congrArg BlkLine.rise hj).trans (k3.trans l4), fun hfall => ?_⟩
    have hok' : ok = true := hok (by rw [hedge, hfall]; rfl)
    refine ⟨(congrArg BlkLine.next hj).trans (k5.trans (l5 (by rw [← hedge]; exact hl))), (congrArg BlkLine.bad hj).trans (k6.trans (by rw [hok']; rfl)), ?_⟩
    exact if_pos hok'

/-- A rising crossing on a line that it leaves up. -/
theorem rising_spec {z : ZeroCross} {s : State} {r : BelfryRec} {x : Exch} {d : Bool} {l : List Bool} (hr : s.belfryRec = some r)
    (h : s.blk.passes z.rising s.sup.uptime = true) (hz : z.rising = true) (hdue : s.blk.rise.due = 0) (he : s.blk.ex = some x) (hx : x.st = .sending)
    (ht : x.tx = d :: l) (hm : s.blk.mine = true) (hs : s.sup.st = .service) (hd : s.blk.down = false) :
    ∃ v : State, zeroCrossing z s = v.latchBlk ∧ v.blk.rise.last = some s.sup.uptime ∧ v.blk.next = false ∧
      (v.blk.down = false → .bell d ∈ v.out ∧ v.blk.ex = some { x with tx := l } ∧ v.blk.mine = true) := by
  have hsome : (s.crossed z r.blankK).belfryRec.isSome = true := (congrArg Option.isSome hr).trans rfl
  have hedge : s.blk.edge z.rising = s.blk.rise := by rw [hz]; rfl
  have hlate : (s.blk.edge z.rising).late s.sup.uptime = false := by
    rw [hedge]
    unfold Edge.late
    rw [hdue]
    rfl
  obtain ⟨ok, y, hzc⟩ := zeroCrossing_rising hr h hlate hz
  obtain ⟨f, hb⟩ := crossed_blk z r.blankK s
  rw [hlate, hedge, if_neg Bool.false_ne_true, hz] at hb
  have hj : (s.crossJudged z r.blankK ok).blk.line = _ := edgeJudged_line hsome ok ((s.blk.edge z.rising).cross s.sup.uptime).badFreq
  have hup := edgeJudged_up hsome (ok := ok) (freqBad := ((s.blk.edge z.rising).cross s.sup.uptime).badFreq)
  have hsup : (s.crossed z r.blankK).sup = s.sup := rfl
  have hjrec : (s.crossJudged z r.blankK ok).belfryRec.isSome = true := by
    unfold State.crossJudged
    rw [belfryRec_of_part (edgeJudged_part (by simp) _ _ _) (edgeJudged_part (by simp) _ _ _)]
    exact hsome
  obtain ⟨-, -, k3, -, k5, -⟩ := judged_kept ok ((s.blk.edge z.rising).cross s.sup.uptime).badFreq (s.crossed z r.blankK).blk.line
  have hdown := judged_cycled_down (ok := ok) (freqBad := ((s.blk.edge z.rising).cross s.sup.uptime).badFreq) (l := (s.crossed z r.blankK).blk.line)
    (by rw [hb]; exact hd)
  change (s.crossJudged z r.blankK ok).blk.down = false → ∃ (n : Nat) (c : Blk → Bool), s.crossJudged z r.blankK ok = _ at hup
  generalize s.crossJudged z r.blankK ok = w at hzc hj hup hjrec
  have hgood : (w.onBlk (fun b => { b with slotF := none })).cycleGood.blk.line = { w.blk.line with slotF := none }.cycled := cycleGood_line _
  have hgrec : (w.onBlk (fun b => { b with slotF := none })).cycleGood.belfryRec.isSome = true := by
    rw [belfryRec_of_part (cycleGood_part (by simp) _) (cycleGood_part (by simp) _)]
    exact hjrec
  have hend := (cycleEnd_line hgrec y).trans hgood
  rw [hj] at hend
  refine ⟨_, hzc, ?_, ?_, fun hv => ?_⟩
  · refine (congrArg (fun l : BlkLine => l.rise.last) hend).trans ((congrArg Edge.last k3).trans ?_)
    rw [hb]
    exact (cross_spec s.sup.uptime s.blk.rise).1
  · refine (congrArg BlkLine.next hend).trans (k5.trans ?_)
    rw [hb]
    rfl
  · have hwdown : w.blk.down = false := (congrArg BlkLine.down hj).trans (hdown.symm.trans ((congrArg BlkLine.down hend).symm.trans hv))
    obtain ⟨n, c, hw⟩ := hup hwdown
    rw [cycleGood_up (s := w.onBlk (fun b => { b with slotF := none })) hwdown, hw]
    have hex : (s.crossed z r.blankK).blk.ex = some x ∧ (s.crossed z r.blankK).blk.mine = true := by
      rw [hb]
      exact ⟨he, hm⟩
    obtain ⟨o, e1, e2⟩ := cycleEnd_sends (s := (((s.crossed z r.blankK).onBlk (fun b => { b with bad := n, cycOk := c b })).onBlk (fun b => { b with slotF := none })).onBlk
      (fun b => { b with good := if b.cycOk then b.good + 1 else 0, cycOk := true })) hs hex.1 hx ht hex.2 y
    exact ⟨by rw [o]; exact List.mem_append_right _ (List.mem_singleton_self _), e1, e2⟩

theorem belfryLine : Claim.BelfryLine := by
  refine ⟨judgeCycle_spec, ?missed, ?blocked, ?falling, ?rising⟩
  case missed =>
    intro s e p hsome he hp
    obtain ⟨r, hr⟩ := Option.isSome_iff_exists.mp hsome
    obtain rfl : e = s.blk.edge s.blk.next := he
    refine ⟨fun hlt => ?_, fun hle => ?_⟩
    · obtain ⟨l, hl, h1, h2, h3, h4, h5⟩ := missed_line (s := s.start) hr hp hlt
      refine ⟨_, rfl, (congrArg BlkLine.next hl).trans h1, ?_, fun hb => ⟨(congrArg BlkLine.bad hl).trans h4, fun hd => ?_⟩, fun hb hd => ⟨?_, (congrArg BlkLine.bad hl).trans h4⟩⟩
      · have hrise : (zeroCrossingMissed s.start).blk.rise = _ := (congrArg BlkLine.rise hl).trans h2
        have hfall : (zeroCrossingMissed s.start).blk.fall = _ := (congrArg BlkLine.fall hl).trans h3
        rw [hrise, hfall]
        unfold BlkLine.missed
        dsimp only
        by_cases hn : s.blk.next = true
        · exact (if_pos hn).trans (if_pos hn)
        · exact (if_neg hn).trans (if_neg hn)
      · exact (congrArg BlkLine.down hl).trans ((h5 hd).trans (decide_eq_false (Nat.not_le.mpr hb)))
      · exact (congrArg BlkLine.down hl).trans ((h5 hd).trans (decide_eq_true (Nat.succ_le_succ hb)))
    · exact ⟨_, congrArg Host.Outcome.next (zeroCrossingMissed_early (s := s.start) hr hp hle), rfl⟩
  case blocked =>
    intro s z hsome h
    obtain ⟨r, hr⟩ := Option.isSome_iff_exists.mp hsome
    exact ⟨_, congrArg Host.Outcome.next (zeroCrossing_blocked (s := s.start) hr (passes_not h)), rfl⟩
  case falling =>
    intro s z r hr hz h
    have hp : s.start.blk.passes z.rising s.start.sup.uptime = true := passes_of (by rw [hz]; exact h)
    obtain ⟨t, ht, h1, h2, h3, h4, h5⟩ := falling_line (s := s.start) hr hp hz
    obtain ⟨c1, c2⟩ := cross_spec s.sup.uptime s.blk.fall
    refine ⟨t, congrArg Host.Outcome.next ht, h1, h2, (congrArg Edge.last h3).trans c1, (congrArg Edge.due h3).trans c2, h4, fun hfall => ?_⟩
    obtain ⟨g1, g2, g3⟩ := h5 hfall
    refine ⟨g1, g2, fun hn => g3.trans (hear_none hn), fun pre slot post hcut => ?_⟩
    obtain ⟨s1, s2⟩ := slotCut_some hcut
    exact ⟨s1, s2, fun hq => g3.trans (hear_slot hcut hq)⟩
  case rising =>
    intro s z r x d l hr hz h hdue he hx ht hm hs hd
    have hp : s.start.blk.passes z.rising s.start.sup.uptime = true := passes_of (by rw [hz]; exact h)
    obtain ⟨v, hv, h1, h2, h3⟩ := rising_spec (s := s.start) hr hp hz hdue he hx ht hm hs hd
    exact ⟨_, congrArg Host.Outcome.next hv, h1, h2, latchBlk_now v, h3⟩

/-- Settles O52: exchanges by what each leaves in BLK; the line by its crossings as each is judged. -/
theorem belfryConduct : Obligations.BelfryConduct := ⟨belfryExchanges, belfryLine⟩

end Sys2Proof.Machine
end
